-- ==== Sys2Proof/Word.lean ====
section
/-!
DEFINITION. The word types of the KB9 model. Bit 0 is the least significant bit of every register, field, descriptor
and record (R3); multi-byte values are little-endian (R4).
-/
namespace Sys2Proof

/-- One byte of Muslin, DRAM, host memory or a record. -/
abbrev Byte := BitVec 8

/-- A 32-bit register word (R273) or an FP32 bit pattern (R39). -/
abbrev Word := BitVec 32

end Sys2Proof
end

