-- ==== Sys2Proof/Machine/Bits.lean ====
section
/-!
DEFINITION. Bit fields, sign extension, little-endian byte order, CRC-32 (R194) and CRC-8 (R583): the helpers every
family uses.
-/
namespace Sys2Proof.Machine

/-- The field of `w` bits of `x` that starts at bit `lo` (R3). -/
def bits (x lo w : Nat) : Nat := (x >>> lo) % 2 ^ w

/-- Bit `i` of `x`. -/
def bitAt (x i : Nat) : Bool := x.testBit i

/-- `x` with the field of `w` bits at `lo` replaced by `v`. -/
def setBits (x lo w v : Nat) : Nat :=
  (x % 2 ^ lo) + ((v % 2 ^ w) <<< lo) + ((x >>> (lo + w)) <<< (lo + w))

/-- A Boolean as a bit. -/
def b2n (b : Bool) : Nat := if b then 1 else 0

/-- The integer a `w`-bit two's complement pattern stands for (R37). -/
def toSigned (w x : Nat) : Int :=
  let y := x % 2 ^ w
  if y < 2 ^ (w - 1) then (y : Int) else (y : Int) - (2 ^ w : Nat)

/-- The `w`-bit two's complement pattern of an integer. -/
def ofSigned (w : Nat) (x : Int) : Nat := (x % ((2 ^ w : Nat) : Int)).toNat

/-- Unsigned ceiling division. -/
def ceilDiv (a b : Nat) : Nat := (a + b - 1) / b

/-- `x` rounded up to a multiple of `a`. -/
def alignUp (x a : Nat) : Nat := ceilDiv x a * a

/-- The little-endian value of a byte string (R4). -/
def leNat : List Byte → Nat
  | [] => 0
  | b :: bs => b.toNat + 256 * leNat bs

/-- The `n` little-endian bytes of a value (R4). -/
def leBytes : Nat → Nat → List Byte
  | 0, _ => []
  | n + 1, v => BitVec.ofNat 8 v :: leBytes n (v / 256)

/-- The big-endian value of a byte string, as wire formats of published standards use it (R4, R530). -/
def beNat (bs : List Byte) : Nat := bs.foldl (fun a b => a * 256 + b.toNat) 0

/-- The `n` big-endian bytes of a value. -/
def beBytes (n v : Nat) : List Byte := (leBytes n v).reverse

/-- One bit step of the reflected CRC-32 with polynomial 0x04C1_1DB7 (R194). -/
def crc32Bit (c : Nat) : Nat := if c % 2 = 1 then (c / 2) ^^^ 0xEDB88320 else c / 2

/-- One byte step of CRC-32. -/
def crc32Byte (c : Nat) (b : Byte) : Nat :=
  crc32Bit (crc32Bit (crc32Bit (crc32Bit (crc32Bit (crc32Bit (crc32Bit (crc32Bit (c ^^^ b.toNat))))))))

/-- CRC-32 of a byte string (R194). -/
def crc32 (bs : List Byte) : Nat := (bs.foldl crc32Byte 0xFFFFFFFF) ^^^ 0xFFFFFFFF

/-- One bit step of the CRC-8 with polynomial 0x1D, not reflected (R583). -/
def crc8Bit (c : Nat) : Nat := if c.testBit 7 then ((c * 2) % 256) ^^^ 0x1D else (c * 2) % 256

/-- One byte step of CRC-8. -/
def crc8Byte (c : Nat) (b : Byte) : Nat :=
  crc8Bit (crc8Bit (crc8Bit (crc8Bit (crc8Bit (crc8Bit (crc8Bit (crc8Bit (c ^^^ b.toNat))))))))

/-- CRC-8 of a byte string: initial value 0xFF, final XOR 0xFF (R583). -/
def crc8 (bs : List Byte) : Nat := (bs.foldl crc8Byte 0xFF) ^^^ 0xFF

/-- The largest power of two not above `x`, as an exponent; 0 for 0. -/
def log2Floor (x : Nat) : Nat := Nat.log2 x

/-- A list's element at `i`, or a default. -/
def nth {α : Type} (l : List α) (i : Nat) (d : α) : α := l.getD i d

/-- A list with its element at `i` changed by `f`; unchanged where there is none. -/
def modifyNth {α : Type} (l : List α) (i : Nat) (f : α → α) : List α :=
  match l, i with
  | [], _ => []
  | a :: as, 0 => f a :: as
  | a :: as, n + 1 => a :: modifyNth as n f

end Sys2Proof.Machine
end

