-- ==== Sys2Proof/Machine/Flags.lean ====
section
/-!
DEFINITION. The arithmetic flags of an operation (R60) and the ranking of status classes (R13, R655).
-/
namespace Sys2Proof.Machine

/-- The ARITH_FLAGS byte of R60, sticky over one operation. -/
abbrev Flags := BitVec 8

/-- R60 [0]. -/
def fOverflowSat : Flags := 0x01#8
/-- R60 [1]. -/
def fOverflowInf : Flags := 0x02#8
/-- R60 [2]. -/
def fInvalid : Flags := 0x04#8
/-- R60 [3]. -/
def fNanIn : Flags := 0x08#8
/-- R60 [4]. -/
def fUnderflow : Flags := 0x10#8
/-- R60 [5]. -/
def fScaleNan : Flags := 0x20#8
/-- R60 [6]. -/
def fAccSat : Flags := 0x40#8

/-- The class of a status code: bits [15:12] (R13). -/
def statusClass (st : Nat) : Nat := bits st 12 4

/-- Severity of a class, FAULT highest: FAULT, REJECT, RETRY, HELD, LIMIT, INPUT, NOTE, OK (R655). A class the manual
reserves ranks as FAULT (R14). -/
def classRank (c : Nat) : Nat :=
  match c with
  | 0 => 0 | 1 => 1 | 4 => 2 | 5 => 3 | 3 => 4 | 2 => 5 | 6 => 6 | _ => 7

/-- The status that prevails: the one of the higher class; of one class, the first (R655). -/
def worse (a b : Nat) : Nat :=
  if classRank (statusClass b) > classRank (statusClass a) then b else a

/-- A completion in class OK, NOTE, INPUT or LIMIT satisfies a dependency (R74). -/
def satisfiesDep (st : Nat) : Bool :=
  let c := statusClass st
  c == 0 || c == 1 || c == 4 || c == 5

/-- A completion in class RETRY, REJECT or FAULT fails a dependency (R74); HELD neither satisfies nor fails it. -/
def failsDep (st : Nat) : Bool := !satisfiesDep st && statusClass st != 3

end Sys2Proof.Machine
end

