-- ==== Sys2Proof/Machine/Num.lean ====
section
/-!
DEFINITION. Exact numbers and their conversion into the element formats of chapter 02: a finite value is a sign, a
natural mantissa and a power of two; every conversion is the one procedure of R51 with the overflow rules of R56 and
the special cases of R57.
-/
namespace Sys2Proof.Machine

/-- An exact value: `(-1)^neg * m * 2^e`, an infinity, or NaN. Zeros carry a sign (R40); payloads do not exist (R41). -/
inductive Num where
  | fin (neg : Bool) (m : Nat) (e : Int)
  | inf (neg : Bool)
  | nan
  deriving DecidableEq, Repr

namespace Num

/-- Positive zero. -/
def zero : Num := .fin false 0 0

/-- An integer as an exact value. -/
def ofInt (i : Int) : Num := .fin (decide (i < 0)) i.natAbs 0

/-- A natural number as an exact value. -/
def ofNat (n : Nat) : Num := .fin false n 0

/-- `i * 2^e`. -/
def ofScaled (i : Int) (e : Int) : Num := .fin (decide (i < 0)) i.natAbs e

/-- The sign bit. -/
def sign : Num → Bool
  | .fin n _ _ => n
  | .inf n => n
  | .nan => false

def isNan : Num → Bool
  | .nan => true
  | _ => false

def isInf : Num → Bool
  | .inf _ => true
  | _ => false

def isZero : Num → Bool
  | .fin _ 0 _ => true
  | _ => false

def isFinite : Num → Bool
  | .fin _ _ _ => true
  | _ => false

def neg : Num → Num
  | .fin n m e => .fin (!n) m e
  | .inf n => .inf (!n)
  | .nan => .nan

def abs : Num → Num
  | .fin _ m e => .fin false m e
  | .inf _ => .inf false
  | .nan => .nan

/-- The signed mantissa brought to exponent `e0` (used with `e0` not above the value's own exponent). -/
def scaled (n : Bool) (m : Nat) (e e0 : Int) : Int :=
  let v : Int := (m <<< (e - e0).toNat : Nat)
  if n then -v else v

/-- Exact sum. Opposite infinities give NaN (R63). The sum of two zeros of one sign keeps it; any other exact zero is
`+0`, the round-to-nearest rule of IEEE 754. -/
def add : Num → Num → Num
  | .nan, _ => .nan
  | _, .nan => .nan
  | .inf a, .inf b => if a = b then .inf a else .nan
  | .inf a, _ => .inf a
  | _, .inf b => .inf b
  | .fin n1 m1 e1, .fin n2 m2 e2 =>
    if m1 = 0 ∧ m2 = 0 then .fin (n1 && n2) 0 0
    else if m1 = 0 then .fin n2 m2 e2
    else if m2 = 0 then .fin n1 m1 e1
    else
      let e0 := min e1 e2
      let s := scaled n1 m1 e1 e0 + scaled n2 m2 e2 e0
      .fin (decide (s < 0)) s.natAbs e0

/-- Exact product. `0 * inf` is NaN (R63). -/
def mul : Num → Num → Num
  | .nan, _ => .nan
  | _, .nan => .nan
  | .inf a, .inf b => .inf (a != b)
  | .inf a, .fin b m _ => if m = 0 then .nan else .inf (a != b)
  | .fin a m _, .inf b => if m = 0 then .nan else .inf (a != b)
  | .fin n1 m1 e1, .fin n2 m2 e2 => .fin (n1 != n2) (m1 * m2) (e1 + e2)

def sub (a b : Num) : Num := add a (neg b)

/-- The value times `2^k`. -/
def shift (x : Num) (k : Int) : Num :=
  match x with
  | .fin n m e => .fin n m (e + k)
  | y => y

/-- Quotient carried to at least 80 significant bits with a sticky last bit, so that one later rounding to any format
of chapter 02 is the correct rounding of the exact quotient. `0/0` and `inf/inf` are NaN; `x/0` is an infinity. -/
def div : Num → Num → Num
  | .nan, _ => .nan
  | _, .nan => .nan
  | .inf _, .inf _ => .nan
  | .inf a, .fin b _ _ => .inf (a != b)
  | .fin a _ _, .inf b => .fin (a != b) 0 0
  | .fin n1 m1 e1, .fin n2 m2 e2 =>
    if m2 = 0 then (if m1 = 0 then .nan else .inf (n1 != n2))
    else if m1 = 0 then .fin (n1 != n2) 0 0
    else
      let k := 80 + Nat.log2 m2
      let a := m1 <<< k
      let q := a / m2
      let r := a % m2
      .fin (n1 != n2) (2 * q + (if r = 0 then 0 else 1)) (e1 - e2 - (k : Int) - 1)

/-- Integer square root by bits, from bit `i - 1` down. -/
def isqrtAux : Nat → Nat → Nat → Nat
  | 0, _, acc => acc
  | i + 1, x, acc =>
    let c := acc + 2 ^ i
    if c * c ≤ x then isqrtAux i x c else isqrtAux i x acc

/-- The integer square root. -/
def isqrt (x : Nat) : Nat := isqrtAux (Nat.log2 x / 2 + 1) x 0

/-- Square root with a sticky last bit, as `div`. A negative value other than `-0` gives NaN. -/
def sqrt : Num → Num
  | .nan => .nan
  | .inf true => .nan
  | .inf false => .inf false
  | .fin n m e =>
    if m = 0 then .fin n 0 0
    else if n then .nan
    else
      let odd := e % 2 ≠ 0
      let m1 := if odd then m * 2 else m
      let e1 := if odd then e - 1 else e
      let x := m1 <<< 160
      let s := isqrt x
      .fin false (2 * s + (if s * s = x then 0 else 1)) (e1 / 2 - 80 - 1)

/-- Order of two values that are not NaN: `-1`, `0` or `1`; zeros compare equal (R40). -/
def cmp : Num → Num → Int
  | .nan, _ => 0
  | _, .nan => 0
  | .inf a, .inf b => if a = b then 0 else if a then -1 else 1
  | .inf a, _ => if a then -1 else 1
  | _, .inf b => if b then 1 else -1
  | .fin n1 m1 e1, .fin n2 m2 e2 =>
    let e0 := min e1 e2
    let d := scaled n1 m1 e1 e0 - scaled n2 m2 e2 e0
    if d < 0 then -1 else if d = 0 then 0 else 1

/-- `a < b`; false when either is NaN. -/
def lt (a b : Num) : Bool := !a.isNan && !b.isNan && decide (cmp a b = -1)
/-- `a ≤ b`; false when either is NaN. -/
def le (a b : Num) : Bool := !a.isNan && !b.isNan && decide (cmp a b ≤ 0)
/-- `a = b` as values; false when either is NaN. -/
def eqv (a b : Num) : Bool := !a.isNan && !b.isNan && decide (cmp a b = 0)

/-- The larger value; the first of two equal ones. -/
def max (a b : Num) : Num := if lt a b then b else a
/-- The smaller value; the first of two equal ones. -/
def min (a b : Num) : Num := if lt b a then b else a

/-- The floor of a finite value (0 for an infinity or NaN). -/
def floorInt : Num → Int
  | .fin n m e =>
    let v : Int := if n then -(m : Int) else (m : Int)
    if 0 ≤ e then v * (2 ^ e.toNat : Nat) else v / (2 ^ (-e).toNat : Nat)
  | _ => 0

/-- Rounding to an integer, ties to even (0 for an infinity or NaN). -/
def roundInt (x : Num) : Int :=
  match x with
  | .fin n m e =>
    let v : Int := if n then -(m : Int) else (m : Int)
    if 0 ≤ e then v * (2 ^ e.toNat : Nat)
    else
      let d : Int := (2 ^ (-e).toNat : Nat)
      let q := v / d
      let r := v % d
      if 2 * r > d then q + 1 else if 2 * r < d then q else (if q % 2 = 0 then q else q + 1)
  | _ => 0

/-- Truncation towards zero (0 for an infinity or NaN). -/
def truncInt (x : Num) : Int :=
  if x.sign then -(floorInt x.neg) else floorInt x

/-- `floor(log2 |x|)` of a finite non-zero value. -/
def expOf : Num → Int
  | .fin _ m e => (Nat.log2 m : Int) + e
  | _ => 0

end Num

/-- The layout of a float format (R39): exponent and mantissa widths, bias, and whether it has infinities and NaN. -/
structure FloatFmt where
  ebits : Nat
  mbits : Nat
  bias : Nat
  hasInf : Bool
  hasNan : Bool
  maxBits : Nat     -- magnitude bits of the largest finite value
  nanBits : Nat     -- the canonical NaN (R41)
  deriving DecidableEq, Repr

/-- What a 4-bit FORMAT code names (R36). -/
inductive FmtKind where
  | int (width : Nat) (signed : Bool)
  | flt (f : FloatFmt)
  | q32
  | reserved
  deriving DecidableEq, Repr

/-- FORMAT codes (R36) with the limits of R37 and R39. -/
def fmtKind (code : Nat) : FmtKind :=
  match code with
  | 0x0 => .int 4 true
  | 0x1 => .int 8 true
  | 0x2 => .int 16 true
  | 0x3 => .int 32 true
  | 0x4 => .int 8 false
  | 0x5 => .flt ⟨2, 1, 1, false, false, 0x7, 0⟩
  | 0x6 => .flt ⟨2, 3, 1, false, false, 0x1F, 0⟩
  | 0x7 => .flt ⟨3, 2, 3, false, false, 0x1F, 0⟩
  | 0x8 => .flt ⟨4, 3, 7, false, true, 0x7E, 0x7F⟩
  | 0x9 => .flt ⟨5, 2, 15, true, true, 0x7B, 0x7E⟩
  | 0xA => .flt ⟨8, 7, 127, true, true, 0x7F7F, 0x7FC0⟩
  | 0xB => .flt ⟨5, 10, 15, true, true, 0x7BFF, 0x7E00⟩
  | 0xC => .flt ⟨8, 23, 127, true, true, 0x7F7FFFFF, 0x7FC00000⟩
  | 0xD => .q32
  | _ => .reserved

/-- Element width in bits (R36). -/
def fmtWidth (code : Nat) : Nat :=
  match code with
  | 0x0 => 4 | 0x1 => 8 | 0x2 => 16 | 0x3 => 32 | 0x4 => 8 | 0x5 => 4 | 0x6 => 6 | 0x7 => 6
  | 0x8 => 8 | 0x9 => 8 | 0xA => 16 | 0xB => 16 | 0xC => 32 | 0xD => 32 | _ => 0

/-- The value of a float bit pattern (R39, R40). -/
def FloatFmt.decode (f : FloatFmt) (x : Nat) : Num :=
  let s := x.testBit (f.ebits + f.mbits)
  let ex := bits x f.mbits f.ebits
  let m := bits x 0 f.mbits
  let mag := bits x 0 (f.ebits + f.mbits)
  if f.maxBits < mag then
    (if f.hasInf && m == 0 then .inf s else .nan)
  else if ex = 0 then .fin s m (1 - (f.bias : Int) - f.mbits)
  else .fin s (m + 2 ^ f.mbits) ((ex : Int) - f.bias - f.mbits)

/-- The value of an element's bits in a format; Q32 has radix `r` (R37 to R39). -/
def decodeElem (code r x : Nat) : Num :=
  match fmtKind code with
  | .int w true => .ofInt (toSigned w x)
  | .int w false => .ofNat (bits x 0 w)
  | .flt f => f.decode x
  | .q32 => .ofScaled (toSigned 32 x) (-(r : Int))
  | .reserved => .nan

/-- One step of the xorshift generator (R52). -/
def xorshift (g : BitVec 32) : BitVec 32 :=
  let g := g ^^^ (g <<< 13)
  let g := g ^^^ (g >>> 17)
  g ^^^ (g <<< 5)

/-- The state of generator `j` before its first use (R53). [DEDUCED: log 22] -/
def genSeed (seed j : Nat) : BitVec 32 :=
  let s := BitVec.ofNat 32 (seed + j * 0x9E3779B9)
  if s = 0 then 1 else s

/-- Rounding decision of R51 for an integer part `k` and a discarded fraction `num/2^sh`; `g` is the generator's new
output, used only under stochastic rounding. -/
def roundUp (rnd : Nat) (k num sh : Nat) (g : BitVec 32) : Bool :=
  match rnd with
  | 0 => decide (2 ^ sh < 2 * num) || (decide (2 * num = 2 ^ sh) && decide (k % 2 = 1) && decide (0 < sh))
  | 1 => false
  | _ => decide ((num * 65536) / 2 ^ sh + (g >>> 16).toNat ≥ 65536)

/-- `floor(|x| / 2^q)` and the discarded part as `num / 2^sh`. -/
def splitAt (m : Nat) (e q : Int) : Nat × Nat × Nat :=
  if q ≤ e then (m <<< (e - q).toNat, 0, 0)
  else let sh := (q - e).toNat; (m >>> sh, m % 2 ^ sh, sh)

/-- The largest finite magnitude of a target as an unsigned pattern, with the sign `s` (R56). -/
def intLimit (w : Nat) (signed neg : Bool) : Nat :=
  if signed then (if neg then 2 ^ (w - 1) else 2 ^ (w - 1) - 1) else (if neg then 0 else 2 ^ w - 1)

/-- Conversion of a value into a float format (R51, R56, R57): bits and flags. -/
def FloatFmt.encode (f : FloatFmt) (rnd : Nat) (sat : Bool) (g : BitVec 32) (x : Num) : Nat × Flags :=
  let sgn (n : Bool) : Nat := if n then 2 ^ (f.ebits + f.mbits) else 0
  match x with
  | .nan => if f.hasNan then (f.nanBits, fNanIn) else (0, fNanIn ||| fInvalid)
  | .inf n =>
    if f.hasInf && !sat then (sgn n + f.maxBits + 1, 0)
    else if f.hasNan && !f.hasInf && !sat then (f.nanBits, fInvalid)
    else (sgn n + f.maxBits, fOverflowSat)
  | .fin n m e =>
    if m = 0 then (sgn n, 0)
    else
      let emin : Int := 1 - (f.bias : Int)
      let ex := Num.expOf (.fin n m e)
      let q := Max.max ex emin - f.mbits
      let (k, num, sh) := splitAt m e q
      let k' := if roundUp rnd k num sh g then k + 1 else k
      let mag := ((Max.max ex emin + f.bias - 1).toNat <<< f.mbits) + k'
      if f.maxBits < mag then
        if rnd = 1 || sat || !f.hasNan then (sgn n + f.maxBits, fOverflowSat)
        else if f.hasInf then (sgn n + f.maxBits + 1, fOverflowInf)
        else (f.nanBits, fOverflowInf)
      else (sgn n + mag, if k' = 0 then fUnderflow else 0)

/-- Conversion of a value into a signed or unsigned integer pattern of `w` bits whose unit is `2^q` (R51, R56, R57):
the integer formats with `q = 0`, Q32 with `q = -r`. -/
def encodeInt (w : Nat) (signed : Bool) (q : Int) (rnd : Nat) (g : BitVec 32) (x : Num) : Nat × Flags :=
  match x with
  | .nan => (0, fNanIn ||| fInvalid)
  | .inf n => (ofSigned w (if n then -(intLimit w signed true : Int) else intLimit w signed false), fOverflowSat)
  | .fin n m e =>
    if m = 0 then (0, 0)
    else
      let (k, num, sh) := splitAt m e q
      let k' := if roundUp rnd k num sh g then k + 1 else k
      let lim := intLimit w signed n
      if lim < k' then (ofSigned w (if n then -(lim : Int) else (lim : Int)), fOverflowSat)
      else (ofSigned w (if n then -(k' : Int) else (k' : Int)), if k' = 0 then fUnderflow else 0)

/-- `convert(x, format, rnd, sat)` of R51; `r` is the radix of a Q32 target. -/
def convert (code r rnd : Nat) (sat : Bool) (g : BitVec 32) (x : Num) : Nat × Flags :=
  match fmtKind code with
  | .int w s => encodeInt w s 0 rnd g x
  | .flt f => f.encode rnd sat g x
  | .q32 => encodeInt 32 true (-(r : Int)) rnd g x
  | .reserved => (0, 0)

/-- Exponent of a float format's minimum normal, and of its largest value. -/
def FloatFmt.emin (f : FloatFmt) : Int := 1 - (f.bias : Int)
def FloatFmt.emax (f : FloatFmt) : Int := ((f.maxBits >>> f.mbits : Nat) : Int) - f.bias

/-- Whether every value of format `src` with radix `rs` is a value of format `dst` with radix `rd` (R58); a radix counts for Q32. -/
def holdsAll (dst rd src rs : Nat) : Bool :=
  match fmtKind dst, fmtKind src with
  | .flt d, .flt s =>
    decide (s.mbits ≤ d.mbits) && decide (d.emin - d.mbits ≤ s.emin - s.mbits) && decide (s.emax ≤ d.emax) &&
    (!s.hasNan || d.hasNan) && (!s.hasInf || d.hasInf)
  | .flt d, .int w sg =>
    let need := if sg then w - 1 else w
    decide (need ≤ d.mbits + 1) && decide ((need : Int) ≤ d.emax)
  | .int w sg, .int v sv =>
    if sg == sv then decide (v ≤ w) else sg && decide (v < w)
  | .int w sg, .q32 => sg && w == 32 && rs == 0
  | .q32, .int w sg => decide ((if sg then w - 1 else w) + rd ≤ 31)
  | .q32, .flt s => !s.hasNan && decide (s.mbits - s.emin ≤ rd) && decide (s.emax + 1 + rd ≤ 31)
  | .q32, .q32 => rd == rs
  | _, _ => false

/-- Whether a conversion is exact by R58. -/
def exactConv (dst rd src rs : Nat) (x : Num) : Bool :=
  holdsAll dst rd src rs ||
  (dst == 0xC && (match fmtKind src with | .int _ _ => Num.lt x.abs (.ofNat (2 ^ 24)) | _ => false))

/-- Whether a rule fixes the rounding of a conversion, so that it advances no generator (R54): an exact one (R58), and Q32 to FP32
(R59). -/
def fixedConv (dst rd src rs : Nat) (x : Num) : Bool := exactConv dst rd src rs x || (dst == 0xC && src == 0xD)

/-- A conversion under RND and SAT from a format: to nearest where a rule fixes the rounding, and an infinity kept where the
conversion is exact (R58, R59). `rd` and `rs` are the radixes of Q32 formats. [DEDUCED: log 15] -/
def convertFrom (src rs dst rd rnd : Nat) (sat : Bool) (g : BitVec 32) (x : Num) : Nat × Flags :=
  if fixedConv dst rd src rs x then convert dst rd 0 false g x else convert dst rd rnd sat g x

/-- The FP32 layout. -/
def fp32 : FloatFmt := ⟨8, 23, 127, true, true, 0x7F7FFFFF, 0x7FC00000⟩

/-- Round to nearest even into FP32, overflowing to infinity (R50, R63, R64): the bit pattern and flags. -/
def toF32 (x : Num) : Nat × Flags := fp32.encode 0 false 0 x

/-- The FP32 bit pattern of a value rounded to nearest even. -/
def f32bits (x : Num) : Nat := (toF32 x).1

/-- The value of an FP32 bit pattern. -/
def f32val (x : Nat) : Num := fp32.decode x

/-- A value rounded once to FP32, nearest even. -/
def r32 (x : Num) : Num := f32val (f32bits x)

/-- FP32 arithmetic, nearest even, each one rounding (R64). -/
def f32add (a b : Num) : Num := r32 (a.add b)
def f32sub (a b : Num) : Num := r32 (a.sub b)
def f32mul (a b : Num) : Num := r32 (a.mul b)
def f32div (a b : Num) : Num := r32 (a.div b)
def f32sqrt (a : Num) : Num := r32 a.sqrt
/-- `a*b + c` with one rounding. -/
def f32fma (a b c : Num) : Num := r32 ((a.mul b).add c)

/-- Flags of an FP32 accumulation step `acc + p` (R63): INVALID for a NaN from non-NaN inputs, NAN_IN for a NaN input,
OVERFLOW_INF for a finite sum beyond FP32. -/
def accFlags (acc p sum : Num) : Flags :=
  (if acc.isNan || p.isNan then 0 else if sum.isNan then fInvalid else 0) |||
  (if acc.isFinite && p.isFinite && (r32 sum).isInf then fOverflowInf else 0)

/-- Saturation to INT32 with ACC_SAT (R62). -/
def satI32 (x : Int) : Int × Flags :=
  if x > 2147483647 then (2147483647, fAccSat)
  else if x < -2147483648 then (-2147483648, fAccSat)
  else (x, 0)

end Sys2Proof.Machine
end

