-- ==== Sys2Proof/Config.lean ====
section
/-!
DEFINITION. What the spec leaves open. Each constant here is a free value: it has no body, so nothing can be proved of the
value it takes. `n` is the state's counter of free values, read and advanced by the command that needs one.
-/
namespace Sys2Proof.Config

/-- A byte of DRAM after its contents were lost (R313, R624): free, by loss and offset. [DESIGN CHOICE: log 9] -/
opaque dramByte : Nat → Nat → Byte

/-- A free word. [DESIGN CHOICE: log 158] -/
opaque freeWord : Nat → Word

/-- A free natural number. [DESIGN CHOICE: log 108, 158] -/
opaque freeNat : Nat → Nat

/-- Which of the FP32 results within the bound of R247 a transcendental function gives: the function's number, and its
arguments' bit patterns. [DESIGN CHOICE: log 16] -/
opaque transcendental : Nat → List Nat → Nat

/-- A byte of a Twill chain area that no member of the open chain has written (R254): free, by chain and offset.
[DESIGN CHOICE: log 49] -/
opaque chainByte : Nat → Nat → Byte

/-- Whether ROPE_BWD pairs elements as ROPE_HALF does, rather than as ROPE_INTERLEAVED does (R244 gives one FUNC).
[DESIGN CHOICE: log 19] -/
opaque ropeBwdHalf : Bool

/-- The column cost that Tulle takes for a pose whose cell lies outside the grid (R400), by its column and row.
[DESIGN CHOICE: log 91] -/
opaque outsideCost : Int → Int → Nat

/-- Which of the neighbouring values sample `k` of an 8 by 8 block takes where the order of the inverse transform's operations, which
the spec does not state (R348), decides its rounding; from the block's dequantised coefficients. [DESIGN CHOICE: log 71] -/
opaque idctChoice : List Int → Nat → Nat

/-- Whether a pulse input of a MODE counts up when A leads B (MODE 0), or when its direction pin is high (MODE 1): R460
does not give the sense. [DESIGN CHOICE: log 103] -/
opaque pulseSense : Nat → Bool

/-- ENGINE (0), PHASE (1) and TOKEN (2) of the record of a weave refused under R67, which has no descriptor to take them from
(R95). [DESIGN CHOICE: log 166] -/
opaque refusedField : Nat → Nat

/-- Whether the inline ECC misses an error in four or more bytes of a burst (R304), by the bytes that are wrong and what they differ by.
[DESIGN CHOICE: log 168] -/
opaque codeMisses : List (Nat × Byte) → Bool

end Sys2Proof.Config
end

