-- ==== Sys2Proof/Machine/Dict.lean ====
section
/-!
DEFINITION. The object dictionary's entries (R491, R492, R494): index, subindex, type, size, kind, access rights, default
and range of each, as the chapters of their subsystems give them. A value is the little-endian number of its bytes.
-/
namespace Sys2Proof.Machine

/-- The values a chapter lets an entry take (R500): any, a span of integers, a list, a span or one value more, a multiple
or one value more, or a span of finite FP32 numbers given by their patterns. -/
inductive EntryRange where
  | any
  | span (lo hi : Int)
  | oneOf (vs : List Nat)
  | spanOr (lo hi other : Nat)
  | multipleOr (k other : Nat)
  | floats (lo hi : Nat)
  deriving DecidableEq, Repr

/-- Entries `index` to `index + count - 1`, subindexes `sub` to `sub + subs - 1`: type (R494), bytes, kind (0 PARAMETER,
1 PROCESS, 2 COMMAND), rights (R492), default, range, Q32 radix. [DEDUCED: log 117] -/
structure EntryDef where
  index : Nat
  count : Nat
  sub : Nat
  subs : Nat
  type : Nat
  size : Nat
  kind : Nat
  rights : Nat
  default : Nat
  range : EntryRange
  radix : Nat
  deriving DecidableEq, Repr

/-- Dictionary entries, part 0. -/
def entryTable0 : List EntryDef :=
  [⟨0x1000, 1, 0, 1, 3, 4, 0, 0x15, 0x4B4C0009, .any, 0⟩,
   ⟨0x1008, 1, 0, 1, 13, 32, 0, 0x15, 0x39424B206F62616E656C654B, .any, 0⟩,
   ⟨0x1009, 1, 0, 1, 13, 8, 0, 0x15, 0x3042, .any, 0⟩,
   ⟨0x100A, 1, 0, 1, 13, 16, 0, 0x15, 0x0, .any, 0⟩,
   ⟨0x1017, 1, 0, 1, 2, 2, 0, 0x77, 0x0, .any, 0⟩,
   ⟨0x1018, 1, 1, 1, 3, 4, 0, 0x15, 0x1EB9, .any, 0⟩,
   ⟨0x1018, 1, 2, 1, 3, 4, 0, 0x15, 0x4B4C0009, .any, 0⟩,
   ⟨0x1018, 1, 3, 1, 3, 4, 0, 0x15, 0xB0, .any, 0⟩,
   ⟨0x1018, 1, 4, 1, 3, 4, 0, 0x15, 0x0, .any, 0⟩,
   ⟨0x1F00, 1, 1, 1, 12, 16, 0, 0x15, 0x0, .any, 0⟩,
   ⟨0x1F00, 1, 2, 1, 13, 16, 0, 0x15, 0x41322D39424B4F, .any, 0⟩,
   ⟨0x1F80, 1, 1, 64, 12, 32, 0, 0x3F, 0x0, .any, 0⟩,
   ⟨0x1F81, 1, 1, 1, 0, 1, 0, 0x77, 0x0, .any, 0⟩,
   ⟨0x1F81, 1, 2, 1, 4, 8, 0, 0x15, 0x0, .any, 0⟩,
   ⟨0x3C00, 4, 1, 1, 0, 1, 0, 0x77, 0x0, .any, 0⟩,
   ⟨0x3C00, 4, 2, 1, 11, 8, 0, 0x77, 0x0, .any, 0⟩,
   ⟨0x3C00, 4, 3, 1, 3, 4, 0, 0x77, 0x0, .span (100000) (4294967295), 0⟩,
   ⟨0x3C10, 16, 1, 1, 0, 1, 0, 0x77, 0x0, .any, 0⟩,
   ⟨0x3C10, 16, 2, 1, 1, 1, 0, 0x77, 0x0, .span (0) (3), 0⟩,
   ⟨0x3C10, 16, 3, 1, 1, 1, 0, 0x77, 0x0, .span (1) (255), 0⟩,
   ⟨0x3C10, 16, 4, 1, 3, 4, 0, 0x77, 0x0, .any, 0⟩,
   ⟨0x3C10, 16, 5, 1, 3, 4, 0, 0x77, 0x0, .span (8) (4294967295), 0⟩]

/-- Dictionary entries, part 1. -/
def entryTable1 : List EntryDef :=
  [⟨0x3C10, 16, 6, 1, 0, 1, 0, 0x77, 0x0, .any, 0⟩,
   ⟨0x3C20, 8, 1, 1, 0, 1, 0, 0x77, 0x0, .any, 0⟩,
   ⟨0x3C20, 8, 2, 1, 1, 1, 0, 0x77, 0x4, .oneOf [1, 2, 4], 0⟩,
   ⟨0x3C20, 8, 3, 1, 2, 2, 0, 0x77, 0x1194, .span (80) (4500), 0⟩,
   ⟨0x3C40, 16, 1, 1, 0, 1, 0, 0x77, 0x0, .any, 0⟩,
   ⟨0x3C40, 16, 2, 2, 1, 1, 0, 0x77, 0x0, .span (0) (3), 0⟩,
   ⟨0x3C40, 16, 4, 1, 12, 8, 0, 0x77, 0x0, .any, 0⟩,
   ⟨0x3C40, 16, 5, 1, 12, 16, 0, 0x77, 0x3F8000003F8000003F8000003F800000, .any, 0⟩,
   ⟨0x3C40, 16, 6, 1, 12, 48, 0, 0x77, 0x3F8000000000000000000000000000003F8000000000000000000000000000003F800000, .any, 0⟩,
   ⟨0x3C40, 16, 7, 1, 9, 4, 0, 0x77, 0x437F0000, .any, 0⟩,
   ⟨0x3C40, 16, 8, 3, 1, 1, 0, 0x77, 0x0, .span (0) (1), 0⟩,
   ⟨0x3C40, 16, 11, 1, 12, 12, 0, 0x77, 0x3F8000003F8000003F800000, .any, 0⟩,
   ⟨0x3C40, 16, 12, 2, 12, 12, 0, 0x77, 0x0, .any, 0⟩,
   ⟨0x3C60, 16, 1, 1, 0, 1, 0, 0x77, 0x0, .any, 0⟩,
   ⟨0x3C60, 16, 2, 1, 2, 2, 0, 0x77, 0x0, .any, 0⟩,
   ⟨0x3C60, 16, 3, 2, 2, 2, 0, 0x77, 0x0, .span (0) (8192), 0⟩,
   ⟨0x3C60, 16, 5, 1, 1, 1, 0, 0x77, 0x0, .span (0) (15), 0⟩,
   ⟨0x3C60, 16, 6, 1, 12, 64, 0, 0x77, 0x0, .any, 0⟩,
   ⟨0x3C60, 16, 7, 2, 2, 2, 0, 0x77, 0x0, .span (1) (8192), 0⟩,
   ⟨0x3C60, 16, 9, 1, 1, 1, 0, 0x77, 0x3, .oneOf [1, 3], 0⟩,
   ⟨0x3C60, 16, 10, 2, 1, 1, 0, 0x77, 0x0, .any, 0⟩,
   ⟨0x3C60, 16, 12, 1, 3, 4, 0, 0x77, 0x0, .any, 0⟩]

/-- Dictionary entries, part 2. -/
def entryTable2 : List EntryDef :=
  [⟨0x3C60, 16, 13, 1, 4, 8, 0, 0x77, 0x0, .any, 0⟩,
   ⟨0x3C60, 16, 14, 1, 1, 1, 0, 0x77, 0x0, .span (2) (16), 0⟩,
   ⟨0x3C60, 16, 15, 1, 3, 4, 0, 0x77, 0x0, .multipleOr 64 0, 0⟩,
   ⟨0x3C60, 16, 16, 1, 4, 8, 0, 0x77, 0x0, .any, 0⟩,
   ⟨0x3C60, 16, 17, 1, 1, 1, 0, 0x77, 0x0, .any, 0⟩,
   ⟨0x3C60, 16, 18, 1, 1, 1, 0, 0x77, 0x2, .span (0) (7), 0⟩,
   ⟨0x3C60, 16, 19, 1, 1, 1, 0, 0x77, 0x0, .span (0) (3), 0⟩,
   ⟨0x3C60, 16, 20, 2, 3, 4, 0, 0x77, 0x0, .any, 0⟩,
   ⟨0x3C60, 16, 22, 1, 1, 1, 0, 0x77, 0x0, .span (0) (3), 0⟩,
   ⟨0x3C60, 16, 23, 1, 1, 1, 0, 0x77, 0x0, .span (1) (4), 0⟩,
   ⟨0x3C60, 16, 24, 1, 4, 8, 0, 0x77, 0x0, .any, 0⟩,
   ⟨0x3C60, 16, 25, 1, 2, 2, 0, 0x77, 0x0, .any, 0⟩,
   ⟨0x3C80, 16, 1, 1, 0, 1, 0, 0x77, 0x0, .any, 0⟩,
   ⟨0x3C80, 16, 2, 1, 1, 1, 0, 0x77, 0x0, .span (0) (1), 0⟩,
   ⟨0x3C80, 16, 3, 1, 2, 2, 0, 0x77, 0x0, .any, 0⟩,
   ⟨0x3C80, 16, 4, 1, 1, 1, 0, 0x77, 0x0, .span (0) (1), 0⟩,
   ⟨0x3C80, 16, 5, 1, 1, 1, 0, 0x77, 0x2, .span (0) (7), 0⟩,
   ⟨0x3C80, 16, 6, 1, 4, 8, 0, 0x77, 0x0, .multipleOr 64 0, 0⟩,
   ⟨0x3C80, 16, 7, 1, 1, 1, 0, 0x77, 0x0, .span (2) (16), 0⟩,
   ⟨0x3C80, 16, 8, 1, 3, 4, 0, 0x77, 0x0, .span (1) (1048576), 0⟩,
   ⟨0x3C80, 16, 9, 1, 4, 8, 0, 0x77, 0x0, .any, 0⟩,
   ⟨0x3C80, 16, 10, 1, 1, 1, 0, 0x77, 0x0, .any, 0⟩,
   ⟨0x3C80, 16, 11, 1, 1, 1, 0, 0x77, 0x0, .span (0) (3), 0⟩]

/-- Dictionary entries, part 3. -/
def entryTable3 : List EntryDef :=
  [⟨0x3C80, 16, 12, 1, 3, 4, 0, 0x77, 0x0, .any, 0⟩,
   ⟨0x3C80, 16, 13, 1, 12, 64, 0, 0x77, 0x0, .any, 0⟩,
   ⟨0x3C80, 16, 14, 1, 12, 512, 0, 0x77, 0x0, .any, 0⟩,
   ⟨0x3CA0, 2, 1, 1, 0, 1, 0, 0x77, 0x0, .any, 0⟩,
   ⟨0x3CA0, 2, 2, 1, 1, 1, 0, 0x77, 0x0, .span (0) (3), 0⟩,
   ⟨0x3CA0, 2, 3, 1, 3, 4, 0, 0x77, 0x0, .span (1000) (50000), 0⟩,
   ⟨0x3CA0, 2, 4, 2, 1, 1, 0, 0x77, 0x0, .span (0) (3), 0⟩,
   ⟨0x3CA0, 2, 6, 1, 3, 4, 0, 0x77, 0x0, .span (10000) (4294967295), 0⟩,
   ⟨0x3CA0, 2, 7, 1, 12, 16, 0, 0x77, 0x0, .any, 0⟩,
   ⟨0x3CA0, 2, 8, 1, 1, 1, 0, 0x77, 0x0, .span (0) (16), 0⟩,
   ⟨0x3CA0, 2, 9, 1, 1, 1, 0, 0x77, 0x0, .span (1) (48), 0⟩,
   ⟨0x3CA0, 2, 10, 1, 4, 8, 0, 0x77, 0x0, .any, 0⟩,
   ⟨0x3CA0, 2, 11, 1, 1, 1, 0, 0x77, 0x0, .span (4) (16), 0⟩,
   ⟨0x4000, 1, 1, 1, 4, 8, 0, 0x77, 0x0, .multipleOr 64 0, 0⟩,
   ⟨0x4000, 1, 2, 1, 4, 8, 0, 0x77, 0x0, .any, 0⟩,
   ⟨0x4000, 1, 3, 1, 2, 2, 0, 0x77, 0xFFFF, .any, 0⟩,
   ⟨0x4001, 1, 1, 1, 9, 4, 0, 0x77, 0x3F000000, .floats 0x1 0x3F800000, 0⟩,
   ⟨0x4001, 1, 2, 1, 9, 4, 0, 0x77, 0x3E4CCCCD, .floats 0x0 0x3FFFFFFF, 0⟩,
   ⟨0x4001, 1, 3, 1, 9, 4, 0, 0x77, 0x40000000, .any, 0⟩,
   ⟨0x4001, 1, 4, 1, 9, 4, 0, 0x77, 0x3F800000, .any, 0⟩,
   ⟨0x4001, 1, 5, 1, 9, 4, 0, 0x77, 0x3F000000, .any, 0⟩,
   ⟨0x4001, 1, 6, 1, 1, 1, 0, 0x77, 0x3, .span (1) (8), 0⟩,
   ⟨0x4001, 1, 7, 1, 1, 1, 0, 0x77, 0x5, .span (1) (8), 0⟩]

/-- Dictionary entries, part 4. -/
def entryTable4 : List EntryDef :=
  [⟨0x4001, 1, 8, 1, 1, 1, 0, 0x77, 0x5, .span (1) (255), 0⟩,
   ⟨0x4001, 1, 9, 2, 9, 4, 0, 0x77, 0x3F800000, .any, 0⟩,
   ⟨0x4002, 1, 1, 2, 2, 2, 0, 0x77, 0x200, .any, 0⟩,
   ⟨0x4002, 1, 3, 1, 9, 4, 0, 0x77, 0x3DCCCCCD, .any, 0⟩,
   ⟨0x4002, 1, 4, 2, 9, 4, 0, 0x77, 0xC1CCCCCD, .any, 0⟩,
   ⟨0x4002, 1, 6, 1, 9, 4, 0, 0x77, 0x3F333333, .any, 0⟩,
   ⟨0x4002, 1, 7, 1, 9, 4, 0, 0x77, 0x3E99999A, .any, 0⟩,
   ⟨0x4002, 1, 8, 1, 1, 1, 0, 0x77, 0x3, .any, 0⟩,
   ⟨0x4002, 1, 9, 1, 9, 4, 0, 0x77, 0x3DCCCCCD, .any, 0⟩,
   ⟨0x4002, 1, 10, 1, 9, 4, 0, 0x77, 0x40000000, .any, 0⟩,
   ⟨0x4003, 1, 1, 1, 9, 4, 0, 0x77, 0x3E4CCCCD, .any, 0⟩,
   ⟨0x4010, 32, 1, 1, 0, 1, 0, 0x77, 0x0, .any, 0⟩,
   ⟨0x4010, 32, 2, 1, 1, 1, 0, 0x77, 0x0, .span (0) (3), 0⟩,
   ⟨0x4010, 32, 3, 1, 1, 1, 0, 0x77, 0x0, .span (1) (255), 0⟩,
   ⟨0x4010, 32, 4, 1, 1, 1, 0, 0x77, 0x0, .span (0) (3), 0⟩,
   ⟨0x4010, 32, 5, 1, 1, 1, 0, 0x77, 0x0, .span (0) (31), 0⟩,
   ⟨0x4010, 32, 6, 1, 4, 8, 0, 0x77, 0x0, .multipleOr 64 0, 0⟩,
   ⟨0x4010, 32, 7, 1, 1, 1, 0, 0x77, 0x0, .span (2) (16), 0⟩,
   ⟨0x4010, 32, 8, 1, 3, 4, 0, 0x77, 0x0, .multipleOr 64 0, 0⟩,
   ⟨0x4010, 32, 9, 1, 4, 8, 0, 0x77, 0x0, .any, 0⟩,
   ⟨0x4010, 32, 10, 1, 1, 1, 0, 0x77, 0x0, .any, 0⟩,
   ⟨0x4010, 32, 11, 1, 1, 1, 0, 0x77, 0x0, .span (1) (66), 0⟩]

/-- Dictionary entries, part 5. -/
def entryTable5 : List EntryDef :=
  [⟨0x4010, 32, 12, 1, 9, 4, 0, 0x77, 0x3F800000, .any, 0⟩,
   ⟨0x4010, 32, 13, 1, 9, 4, 0, 0x77, 0x0, .any, 0⟩,
   ⟨0x4400, 1, 1, 7, 4, 8, 0, 0x77, 0x0, .any, 0⟩,
   ⟨0x4401, 1, 1, 2, 2, 2, 0, 0x77, 0x200, .any, 0⟩,
   ⟨0x4401, 1, 3, 1, 1, 1, 0, 0x77, 0x20, .any, 0⟩,
   ⟨0x4401, 1, 4, 2, 9, 4, 0, 0x77, 0x3DCCCCCD, .any, 0⟩,
   ⟨0x4401, 1, 6, 2, 9, 4, 0, 0x77, 0xC1CCCCCD, .any, 0⟩,
   ⟨0x4401, 1, 8, 1, 9, 4, 0, 0x77, 0x0, .any, 0⟩,
   ⟨0x4401, 1, 9, 1, 1, 1, 0, 0x77, 0xFE, .any, 0⟩,
   ⟨0x4401, 1, 10, 1, 0, 1, 0, 0x77, 0x1, .any, 0⟩,
   ⟨0x4401, 1, 11, 1, 1, 1, 0, 0x77, 0x14, .any, 0⟩,
   ⟨0x4C00, 1, 1, 1, 3, 4, 0, 0x77, 0x61A8, .span (10000) (1000000), 0⟩,
   ⟨0x4C00, 1, 2, 4, 1, 1, 0, 0x77, 0x28, .span (32) (160), 0⟩,
   ⟨0x4C01, 1, 1, 8, 2, 2, 0, 0x77, 0xFFFF, .any, 0⟩,
   ⟨0x4C10, 16, 1, 1, 0, 1, 0, 0x77, 0x0, .any, 0⟩,
   ⟨0x4C10, 16, 2, 1, 2, 2, 0, 0x77, 0x40, .oneOf [16, 32, 64, 128, 256], 0⟩,
   ⟨0x4C10, 16, 3, 1, 1, 1, 0, 0x77, 0x0, .span (0) (3), 0⟩,
   ⟨0x4C20, 16, 1, 1, 0, 1, 0, 0x77, 0x0, .any, 0⟩,
   ⟨0x4C20, 16, 2, 1, 1, 1, 0, 0x77, 0x0, .span (0) (1), 0⟩,
   ⟨0x4C20, 16, 3, 1, 2, 2, 0, 0x77, 0x14, .span (0) (1000), 0⟩,
   ⟨0x4C20, 16, 4, 1, 0, 1, 0, 0x77, 0x0, .any, 0⟩,
   ⟨0x4C40, 48, 1, 1, 0, 1, 0, 0x77, 0x0, .any, 0⟩]

/-- Dictionary entries, part 6. -/
def entryTable6 : List EntryDef :=
  [⟨0x4C40, 48, 2, 1, 1, 1, 0, 0x77, 0x0, .span (0) (1), 0⟩,
   ⟨0x4C40, 48, 3, 1, 3, 4, 0, 0x77, 0x9C40, .span (64) (16777215), 0⟩,
   ⟨0x4C40, 48, 4, 1, 1, 1, 0, 0x77, 0xFF, .spanOr 0 47 255, 0⟩,
   ⟨0x4C40, 48, 5, 1, 2, 2, 0, 0x77, 0x0, .any, 0⟩,
   ⟨0x4C40, 48, 6, 1, 1, 1, 0, 0x77, 0x0, .span (0) (2), 0⟩,
   ⟨0x4C40, 48, 7, 1, 1, 1, 0, 0x77, 0x0, .span (0) (1), 0⟩,
   ⟨0x4D00, 256, 1, 1, 0, 1, 0, 0x77, 0x0, .any, 0⟩,
   ⟨0x4D00, 256, 2, 1, 1, 1, 0, 0x77, 0x2, .oneOf [2, 3], 0⟩,
   ⟨0x4D00, 256, 3, 1, 1, 1, 0, 0x77, 0x0, .span (0) (3), 0⟩,
   ⟨0x4D00, 256, 4, 1, 2, 2, 0, 0x77, 0x1, .span (1) (65535), 0⟩,
   ⟨0x4D00, 256, 5, 3, 2, 2, 0, 0x77, 0x0, .any, 0⟩,
   ⟨0x4D00, 256, 8, 1, 1, 1, 0, 0x77, 0x18, .span (0) (31), 0⟩,
   ⟨0x4D00, 256, 9, 1, 1, 1, 0, 0x77, 0x1C, .span (0) (31), 0⟩,
   ⟨0x4D00, 256, 10, 1, 12, 28, 0, 0x77, 0x0, .any, 0⟩,
   ⟨0x4D00, 256, 11, 1, 10, 4, 0, 0x77, 0x10000000, .any, 255⟩,
   ⟨0x4D00, 256, 12, 1, 10, 4, 0, 0x77, 0x80000000, .any, 255⟩,
   ⟨0x4D00, 256, 13, 1, 10, 4, 0, 0x77, 0x7FFFFFFF, .any, 255⟩,
   ⟨0x4D00, 256, 14, 1, 10, 4, 0, 0x77, 0x80000000, .any, 255⟩,
   ⟨0x4D00, 256, 15, 1, 10, 4, 0, 0x77, 0x7FFFFFFF, .any, 255⟩,
   ⟨0x4D00, 256, 16, 1, 0, 1, 0, 0x77, 0x1, .any, 0⟩,
   ⟨0x4D00, 256, 17, 1, 10, 4, 0, 0x77, 0x0, .any, 255⟩,
   ⟨0x4D00, 256, 18, 1, 1, 1, 0, 0x77, 0xFF, .spanOr 0 47 255, 0⟩]

/-- Dictionary entries, part 7. -/
def entryTable7 : List EntryDef :=
  [⟨0x4D00, 256, 19, 1, 2, 2, 0, 0x77, 0xFFFF, .multipleOr 4 65535, 0⟩,
   ⟨0x4D00, 256, 20, 1, 0, 1, 0, 0x77, 0x0, .any, 0⟩,
   ⟨0x5000, 1, 1, 1, 3, 4, 0, 0x77, 0xF4240, .span (31250) (8000000), 0⟩,
   ⟨0x5000, 1, 2, 1, 1, 1, 0, 0x77, 0x0, .span (0) (2), 0⟩,
   ⟨0x5000, 1, 3, 1, 1, 1, 0, 0x77, 0x0, .span (0) (1), 0⟩,
   ⟨0x5000, 1, 4, 1, 3, 4, 0, 0x77, 0x186A0, .span (1000) (1000000000), 0⟩,
   ⟨0x5000, 1, 5, 1, 3, 4, 0, 0x77, 0x3E8, .any, 0⟩,
   ⟨0x5000, 1, 6, 1, 9, 4, 0, 0x77, 0x3F333333, .floats 0x0 0x40800000, 0⟩,
   ⟨0x5000, 1, 7, 1, 9, 4, 0, 0x77, 0x3E99999A, .floats 0x0 0x40800000, 0⟩,
   ⟨0x5000, 1, 8, 1, 3, 4, 0, 0x77, 0x7A120, .span (1) (1000000), 0⟩,
   ⟨0x5000, 1, 9, 1, 2, 2, 0, 0x77, 0x3E8, .span (10) (65535), 0⟩,
   ⟨0x5001, 1, 1, 1, 0, 1, 0, 0x77, 0x0, .any, 0⟩,
   ⟨0x5001, 1, 2, 1, 1, 1, 0, 0x77, 0x0, .span (0) (2), 0⟩,
   ⟨0x5001, 1, 3, 1, 1, 1, 0, 0x77, 0x0, .span (0) (1), 0⟩,
   ⟨0x5001, 1, 4, 1, 1, 1, 0, 0x77, 0x0, .span (0) (127), 0⟩,
   ⟨0x5001, 1, 5, 1, 0, 1, 0, 0x77, 0x0, .any, 0⟩,
   ⟨0x5001, 1, 6, 1, 5, 1, 0, 0x77, 0xFD, .span (-7) (4), 0⟩,
   ⟨0x5001, 1, 7, 1, 5, 1, 0, 0x77, 0x0, .span (-7) (5), 0⟩,
   ⟨0x5001, 1, 8, 2, 1, 1, 0, 0x77, 0xFF, .any, 0⟩,
   ⟨0x5001, 1, 10, 1, 0, 1, 0, 0x77, 0x0, .any, 0⟩,
   ⟨0x5001, 1, 11, 2, 2, 2, 0, 0x77, 0x0, .any, 0⟩,
   ⟨0x5400, 2, 1, 1, 0, 1, 0, 0x77, 0x0, .any, 0⟩]

/-- Dictionary entries, part 8. -/
def entryTable8 : List EntryDef :=
  [⟨0x5400, 2, 2, 1, 1, 1, 0, 0x77, 0x0, .span (0) (3), 0⟩,
   ⟨0x5400, 2, 3, 1, 12, 6, 0, 0x77, 0x0, .any, 0⟩,
   ⟨0x5400, 2, 4, 1, 2, 2, 0, 0x77, 0xFFFF, .spanOr 1 4094 65535, 0⟩,
   ⟨0x5400, 2, 5, 1, 1, 1, 0, 0x77, 0x7, .span (0) (7), 0⟩,
   ⟨0x5400, 2, 6, 1, 12, 6, 0, 0x77, 0xB58800000003, .any, 0⟩,
   ⟨0x5410, 1, 1, 1, 0, 1, 0, 0x77, 0x0, .any, 0⟩,
   ⟨0x5410, 1, 2, 1, 1, 1, 0, 0x77, 0x3, .span (1) (255), 0⟩,
   ⟨0x5410, 1, 3, 2, 3, 4, 0, 0x77, 0x0, .any, 0⟩,
   ⟨0x5410, 1, 5, 1, 2, 2, 0, 0x77, 0xFFFF, .multipleOr 8 65535, 0⟩,
   ⟨0x5420, 64, 1, 1, 0, 1, 0, 0x77, 0x0, .any, 0⟩,
   ⟨0x5420, 64, 2, 1, 1, 1, 0, 0x77, 0x0, .span (0) (1), 0⟩,
   ⟨0x5420, 64, 3, 1, 12, 6, 0, 0x77, 0x0, .any, 0⟩,
   ⟨0x5420, 64, 4, 1, 3, 4, 0, 0x77, 0x0, .any, 0⟩,
   ⟨0x5420, 64, 5, 1, 3, 4, 0, 0x77, 0x258, .span (100) (100000), 0⟩,
   ⟨0x5420, 64, 6, 1, 2, 2, 0, 0x77, 0x0, .any, 0⟩,
   ⟨0x5420, 64, 7, 1, 2, 2, 0, 0x77, 0x0, .span (1) (1024), 0⟩,
   ⟨0x5420, 64, 8, 1, 2, 2, 0, 0x77, 0x0, .any, 0⟩,
   ⟨0x5420, 64, 9, 1, 2, 2, 0, 0x77, 0x0, .span (1) (1024), 0⟩,
   ⟨0x5420, 64, 10, 1, 0, 1, 0, 0x77, 0x1, .any, 0⟩,
   ⟨0x5480, 2, 1, 1, 0, 1, 0, 0x77, 0x0, .any, 0⟩,
   ⟨0x5480, 2, 2, 1, 11, 8, 0, 0x77, 0x0, .any, 0⟩,
   ⟨0x5480, 2, 3, 1, 3, 4, 0, 0x77, 0x0, .any, 0⟩]

/-- Dictionary entries, part 9. -/
def entryTable9 : List EntryDef :=
  [⟨0x5480, 2, 4, 1, 2, 2, 0, 0x77, 0x0, .span (1) (256), 0⟩,
   ⟨0x5480, 2, 5, 1, 12, 1024, 0, 0x77, 0x0, .any, 0⟩,
   ⟨0x5490, 2, 1, 1, 0, 1, 0, 0x77, 0x0, .any, 0⟩,
   ⟨0x5490, 2, 2, 1, 1, 1, 0, 0x77, 0x80, .any, 0⟩,
   ⟨0x5490, 2, 3, 1, 1, 1, 0, 0x77, 0x0, .span (0) (3), 0⟩,
   ⟨0x5490, 2, 4, 1, 0, 1, 0, 0x77, 0x1, .any, 0⟩,
   ⟨0x54A0, 2, 1, 1, 0, 1, 0, 0x77, 0x0, .any, 0⟩,
   ⟨0x54A0, 2, 2, 5, 12, 1024, 0, 0x77, 0x0, .any, 0⟩,
   ⟨0x54A0, 2, 7, 1, 12, 512, 0, 0x77, 0x0, .any, 0⟩,
   ⟨0x5500, 4, 1, 1, 0, 1, 0, 0x77, 0x0, .any, 0⟩,
   ⟨0x5500, 4, 2, 1, 1, 1, 0, 0x77, 0x1, .span (1) (127), 0⟩,
   ⟨0x5500, 4, 3, 1, 2, 2, 0, 0x77, 0x1F4, .oneOf [125, 250, 500, 1000], 0⟩,
   ⟨0x5500, 4, 4, 1, 2, 2, 0, 0x77, 0x7D0, .oneOf [0, 1000, 2000, 4000, 5000, 8000], 0⟩,
   ⟨0x5500, 4, 5, 1, 1, 1, 0, 0x77, 0x50, .span (50) (90), 0⟩,
   ⟨0x5500, 4, 6, 1, 1, 1, 0, 0x77, 0x4B, .span (50) (90), 0⟩,
   ⟨0x5500, 4, 7, 1, 0, 1, 0, 0x77, 0x1, .any, 0⟩,
   ⟨0x5800, 1, 1, 1, 1, 1, 0, 0x77, 0x1, .span (0) (3), 0⟩,
   ⟨0x5800, 1, 2, 1, 1, 1, 0, 0x77, 0x50, .span (35) (120), 0⟩,
   ⟨0x5800, 1, 3, 1, 1, 1, 0, 0x77, 0x4, .span (0) (63), 0⟩,
   ⟨0x5800, 1, 4, 1, 3, 4, 0, 0x77, 0x3E8, .span (100) (100000), 0⟩,
   ⟨0x5800, 1, 5, 1, 3, 4, 0, 0x77, 0xC8, .span (10) (1000000), 0⟩,
   ⟨0x5800, 1, 6, 1, 3, 4, 0, 0x77, 0x3E8, .span (10) (1000000), 0⟩]

/-- Dictionary entries, part 10. -/
def entryTable10 : List EntryDef :=
  [⟨0x5800, 1, 7, 1, 0, 1, 0, 0x77, 0x1, .any, 0⟩,
   ⟨0x5801, 1, 1, 1, 0, 1, 0, 0x77, 0x0, .any, 0⟩,
   ⟨0x5801, 1, 2, 1, 2, 2, 0, 0x77, 0x190, .oneOf [100, 400, 1000], 0⟩,
   ⟨0x5801, 1, 3, 1, 0, 1, 0, 0x77, 0x1, .any, 0⟩,
   ⟨0x5801, 1, 4, 4, 1, 1, 0, 0x77, 0xFF, .spanOr 0 127 255, 0⟩,
   ⟨0x5801, 1, 8, 1, 1, 1, 0, 0x77, 0x96, .oneOf [150, 151], 0⟩,
   ⟨0x5801, 1, 9, 1, 9, 4, 0, 0x77, 0x3F800000, .any, 0⟩,
   ⟨0x5810, 4, 1, 1, 1, 1, 0, 0x77, 0x5, .span (0) (7), 0⟩,
   ⟨0x5810, 4, 2, 1, 3, 4, 0, 0x77, 0x0, .span (0) (100000), 0⟩,
   ⟨0x5814, 4, 1, 1, 1, 1, 0, 0x77, 0x5, .span (0) (7), 0⟩,
   ⟨0x5814, 4, 2, 1, 3, 4, 0, 0x77, 0xA, .span (0) (100000), 0⟩,
   ⟨0x5818, 4, 1, 1, 1, 1, 0, 0x77, 0x4, .span (0) (7), 0⟩,
   ⟨0x5818, 4, 2, 1, 3, 4, 0, 0x77, 0x64, .span (0) (100000), 0⟩,
   ⟨0x581C, 3, 1, 1, 1, 1, 0, 0x77, 0x2, .span (0) (7), 0⟩,
   ⟨0x581C, 3, 2, 1, 3, 4, 0, 0x77, 0x3E8, .span (0) (100000), 0⟩,
   ⟨0x581F, 1, 1, 1, 1, 1, 0, 0x77, 0x0, .span (0) (7), 0⟩,
   ⟨0x581F, 1, 2, 1, 3, 4, 0, 0x77, 0x186A0, .span (0) (100000), 0⟩,
   ⟨0x5820, 1, 1, 1, 9, 4, 0, 0x77, 0x46D6D800, .floats 0x0 0x7F7FFFFF, 0⟩,
   ⟨0x5820, 1, 2, 1, 9, 4, 0, 0x77, 0x46BD1000, .floats 0x0 0x7F7FFFFF, 0⟩,
   ⟨0x5820, 1, 3, 1, 9, 4, 0, 0x77, 0x46CB2000, .floats 0x0 0x7F7FFFFF, 0⟩,
   ⟨0x5820, 1, 4, 1, 9, 4, 0, 0x77, 0x46A41000, .floats 0x0 0x7F7FFFFF, 0⟩,
   ⟨0x5820, 1, 5, 1, 9, 4, 0, 0x77, 0x44FA0000, .floats 0x0 0x7F7FFFFF, 0⟩]

/-- Dictionary entries, part 11. -/
def entryTable11 : List EntryDef :=
  [⟨0x5820, 1, 6, 1, 9, 4, 0, 0x77, 0x42F00000, .floats 0x0 0x7F7FFFFF, 0⟩,
   ⟨0x5820, 1, 7, 1, 9, 4, 0, 0x77, 0x42FA0000, .floats 0x0 0x7F7FFFFF, 0⟩,
   ⟨0x5820, 1, 8, 1, 9, 4, 0, 0x77, 0x43AF0000, .floats 0x0 0x7F7FFFFF, 0⟩,
   ⟨0x5820, 1, 9, 1, 9, 4, 0, 0x77, 0x448CA000, .floats 0x0 0x7F7FFFFF, 0⟩,
   ⟨0x5820, 1, 10, 1, 9, 4, 0, 0x77, 0x43C80000, .floats 0x0 0x7F7FFFFF, 0⟩,
   ⟨0x5820, 1, 11, 1, 9, 4, 0, 0x77, 0x437A0000, .floats 0x0 0x7F7FFFFF, 0⟩,
   ⟨0x5820, 1, 12, 1, 9, 4, 0, 0x77, 0x437A0000, .floats 0x0 0x7F7FFFFF, 0⟩,
   ⟨0x5820, 1, 13, 1, 9, 4, 0, 0x77, 0x43FA0000, .floats 0x0 0x7F7FFFFF, 0⟩,
   ⟨0x5820, 1, 14, 1, 9, 4, 0, 0x77, 0x41A00000, .floats 0x0 0x7F7FFFFF, 0⟩,
   ⟨0x5820, 1, 15, 1, 9, 4, 0, 0x77, 0x41700000, .floats 0x0 0x7F7FFFFF, 0⟩,
   ⟨0x5820, 1, 16, 1, 9, 4, 0, 0x77, 0x41C80000, .floats 0x0 0x7F7FFFFF, 0⟩,
   ⟨0x5821, 1, 1, 1, 9, 4, 0, 0x77, 0x3E800000, .floats 0x0 0x7F7FFFFF, 0⟩,
   ⟨0x5821, 1, 2, 1, 9, 4, 0, 0x77, 0x3F4CCCCD, .floats 0x0 0x7F7FFFFF, 0⟩,
   ⟨0x5821, 1, 3, 1, 9, 4, 0, 0x77, 0x3F666666, .floats 0x0 0x7F7FFFFF, 0⟩,
   ⟨0x5821, 1, 4, 1, 9, 4, 0, 0x77, 0x3F19999A, .floats 0x0 0x7F7FFFFF, 0⟩,
   ⟨0x5821, 1, 5, 1, 9, 4, 0, 0x77, 0x0, .floats 0x0 0x7F7FFFFF, 0⟩,
   ⟨0x5821, 1, 6, 1, 9, 4, 0, 0x77, 0x3E4CCCCD, .floats 0x0 0x7F7FFFFF, 0⟩,
   ⟨0x5821, 1, 7, 8, 9, 4, 0, 0x77, 0x3E19999A, .floats 0x0 0x7F7FFFFF, 0⟩,
   ⟨0x5821, 1, 15, 4, 9, 4, 0, 0x77, 0x3DCCCCCD, .floats 0x0 0x7F7FFFFF, 0⟩,
   ⟨0x5821, 1, 19, 1, 9, 4, 0, 0x77, 0x3F000000, .floats 0x0 0x7F7FFFFF, 0⟩,
   ⟨0x5821, 1, 20, 4, 9, 4, 0, 0x77, 0x3D4CCCCD, .floats 0x0 0x7F7FFFFF, 0⟩,
   ⟨0x5821, 1, 24, 1, 9, 4, 0, 0x77, 0x3F666666, .floats 0x0 0x7F7FFFFF, 0⟩]

/-- Dictionary entries, part 12. -/
def entryTable12 : List EntryDef :=
  [⟨0x5822, 1, 1, 1, 9, 4, 0, 0x77, 0x3D4CCCCD, .floats 0x0 0x7F7FFFFF, 0⟩,
   ⟨0x5822, 1, 2, 1, 9, 4, 0, 0x77, 0x3F0CCCCD, .floats 0x0 0x7F7FFFFF, 0⟩,
   ⟨0x5822, 1, 3, 1, 9, 4, 0, 0x77, 0x3E4CCCCD, .floats 0x0 0x7F7FFFFF, 0⟩,
   ⟨0x5822, 1, 4, 1, 9, 4, 0, 0x77, 0x3ECCCCCD, .floats 0x0 0x7F7FFFFF, 0⟩,
   ⟨0x5822, 1, 5, 1, 9, 4, 0, 0x77, 0x40400000, .floats 0x0 0x7F7FFFFF, 0⟩,
   ⟨0x5822, 1, 6, 1, 9, 4, 0, 0x77, 0x3F000000, .floats 0x0 0x7F7FFFFF, 0⟩,
   ⟨0x5822, 1, 7, 8, 9, 4, 0, 0x77, 0x3F100000, .floats 0x0 0x7F7FFFFF, 0⟩,
   ⟨0x5822, 1, 15, 3, 9, 4, 0, 0x77, 0x3F000000, .floats 0x0 0x7F7FFFFF, 0⟩,
   ⟨0x5822, 1, 18, 2, 9, 4, 0, 0x77, 0x3E99999A, .floats 0x0 0x7F7FFFFF, 0⟩,
   ⟨0x5822, 1, 20, 2, 9, 4, 0, 0x77, 0x3DCCCCCD, .floats 0x0 0x7F7FFFFF, 0⟩,
   ⟨0x5822, 1, 22, 2, 9, 4, 0, 0x77, 0x3E19999A, .floats 0x0 0x7F7FFFFF, 0⟩,
   ⟨0x5822, 1, 24, 1, 9, 4, 0, 0x77, 0x3E4CCCCD, .floats 0x0 0x7F7FFFFF, 0⟩,
   ⟨0x5830, 1, 1, 1, 9, 4, 0, 0x77, 0x42C80000, .floats 0x42AA0000 0x42C80000, 0⟩,
   ⟨0x5C00, 1, 1, 1, 0, 1, 0, 0x77, 0x0, .any, 0⟩,
   ⟨0x5C00, 1, 2, 1, 3, 4, 0, 0x77, 0x7A120, .span (10000) (10000000), 0⟩,
   ⟨0x5C00, 1, 3, 1, 2, 2, 0, 0x77, 0xFFFF, .any, 0⟩,
   ⟨0x5C10, 8, 1, 1, 0, 1, 0, 0x77, 0x0, .any, 0⟩,
   ⟨0x5C10, 8, 2, 1, 1, 1, 0, 0x77, 0x0, .span (0) (63), 0⟩,
   ⟨0x5C10, 8, 3, 1, 1, 1, 0, 0x77, 0xFF, .spanOr 0 15 255, 0⟩,
   ⟨0x5C10, 8, 4, 2, 3, 4, 0, 0x77, 0x0, .multipleOr 64 0, 0⟩,
   ⟨0x5C10, 8, 6, 4, 3, 4, 0, 0x77, 0x0, .any, 0⟩,
   ⟨0x5C10, 8, 10, 1, 3, 4, 0, 0x77, 0x0, .multipleOr 64 0, 0⟩,
   ⟨0x5C10, 8, 11, 1, 3, 4, 0, 0x77, 0x0, .any, 0⟩,
   ⟨0x5C10, 8, 12, 1, 0, 1, 0, 0x77, 0x1, .any, 0⟩]

/-- Dictionary entries, part 13. -/
def entryTable13 : List EntryDef :=
  [⟨0x5C10, 8, 13, 5, 3, 4, 0, 0x77, 0x0, .any, 0⟩,
   ⟨0x5C10, 8, 18, 1, 12, 128, 0, 0x77, 0x0, .any, 0⟩,
   ⟨0x6C00, 256, 1, 1, 10, 4, 1, 0x3F, 0x0, .any, 255⟩,
   ⟨0x6C00, 256, 2, 1, 10, 4, 1, 0x15, 0x0, .any, 255⟩,
   ⟨0x6C00, 256, 3, 1, 1, 1, 1, 0x15, 0x0, .any, 0⟩,
   ⟨0x6C00, 256, 4, 2, 3, 4, 1, 0x15, 0x0, .any, 0⟩,
   ⟨0x6C00, 256, 6, 3, 8, 8, 1, 0x15, 0x0, .any, 0⟩,
   ⟨0x7400, 1, 1, 4, 12, 256, 1, 0x37, 0x0, .any, 0⟩,
   ⟨0x7410, 1, 1, 4, 12, 256, 1, 0x15, 0x0, .any, 0⟩,
   ⟨0x7420, 64, 1, 1, 1, 1, 1, 0x15, 0x0, .any, 0⟩,
   ⟨0x7420, 64, 2, 2, 3, 4, 1, 0x15, 0x0, .any, 0⟩,
   ⟨0x7420, 64, 4, 1, 1, 1, 1, 0x15, 0x0, .any, 0⟩,
   ⟨0x7420, 64, 5, 1, 2, 2, 1, 0x15, 0x0, .any, 0⟩,
   ⟨0x7420, 64, 6, 1, 11, 8, 1, 0x15, 0x0, .any, 0⟩,
   ⟨0x7420, 64, 7, 1, 3, 4, 1, 0x15, 0x0, .any, 0⟩,
   ⟨0x7800, 1, 1, 2, 9, 4, 1, 0x15, 0x0, .any, 0⟩,
   ⟨0x7800, 1, 3, 1, 0, 1, 1, 0x15, 0x0, .any, 0⟩,
   ⟨0x7800, 1, 4, 1, 9, 4, 1, 0x15, 0x0, .any, 0⟩,
   ⟨0x7800, 1, 5, 2, 1, 1, 1, 0x15, 0x0, .any, 0⟩,
   ⟨0x7810, 1, 1, 24, 9, 4, 1, 0x15, 0x0, .any, 0⟩,
   ⟨0x7820, 1, 1, 32, 9, 4, 1, 0x15, 0x0, .any, 0⟩,
   ⟨0x7C00, 1, 1, 1, 4, 8, 1, 0x15, 0x0, .any, 0⟩]

/-- Dictionary entries, part 14. -/
def entryTable14 : List EntryDef :=
  [⟨0x7C10, 8, 1, 1, 4, 8, 1, 0x15, 0x0, .any, 0⟩,
   ⟨0x7C10, 8, 2, 1, 3, 4, 1, 0x15, 0x0, .any, 0⟩,
   ⟨0xA000, 1, 1, 3, 4, 8, 1, 0x15, 0x0, .any, 0⟩,
   ⟨0xA000, 1, 4, 1, 3, 4, 0, 0x77, 0x1FFE, .any, 0⟩,
   ⟨0xA000, 1, 5, 1, 3, 4, 0, 0x77, 0x3E8, .span (10) (60000), 0⟩,
   ⟨0xA001, 1, 1, 1, 12, 16, 2, 0x3F, 0x0, .any, 0⟩,
   ⟨0xA002, 1, 1, 2, 0, 1, 2, 0x37, 0x0, .any, 0⟩,
   ⟨0xA010, 1, 1, 68, 1, 1, 1, 0x15, 0xFF, .any, 0⟩,
   ⟨0xA100, 8, 1, 2, 1, 1, 1, 0x15, 0x0, .any, 0⟩,
   ⟨0xA100, 8, 3, 1, 2, 2, 1, 0x15, 0x0, .any, 0⟩,
   ⟨0xA100, 8, 4, 1, 3, 4, 2, 0x3F, 0x0, .any, 0⟩,
   ⟨0xA100, 8, 5, 1, 11, 8, 2, 0x3F, 0x0, .any, 0⟩,
   ⟨0xA100, 8, 6, 1, 3, 4, 2, 0x3F, 0x0, .any, 0⟩,
   ⟨0xA100, 8, 7, 1, 11, 8, 1, 0x15, 0x0, .any, 0⟩,
   ⟨0xA100, 8, 8, 1, 3, 4, 1, 0x15, 0x0, .any, 0⟩,
   ⟨0xA100, 8, 9, 1, 1, 1, 1, 0x15, 0x0, .any, 0⟩]

/-- Every entry of the dictionary. -/
def entryTable : List EntryDef :=
  entryTable0 ++ entryTable1 ++ entryTable2 ++ entryTable3 ++ entryTable4 ++ entryTable5 ++ entryTable6 ++ entryTable7 ++ entryTable8 ++ entryTable9 ++ entryTable10 ++ entryTable11 ++ entryTable12 ++ entryTable13 ++ entryTable14

/-- The definition of an entry, where there is one (R10). [DEDUCED: log 117] -/
@[irreducible] def findEntry (index sub : Nat) : Option EntryDef :=
  entryTable.find? (fun e => decide (e.index ≤ index) && decide (index < e.index + e.count) &&
    decide (e.sub ≤ sub) && decide (sub < e.sub + e.subs))

/-- The key of an entry in the dictionary store. -/
def entryKey (index sub : Nat) : Nat := index * 256 + sub

/-- The default of an entry; 0 where there is none. [DEDUCED: log 117; DESIGN CHOICE: log 156] -/
@[irreducible] def entryDefault (index sub : Nat) : Nat :=
  match findEntry index sub with
  | some e => e.default
  | none => 0

/-- The integer a value of a type stands for: two's complement for I8 to I64, unsigned otherwise (R12). -/
def EntryDef.value (e : EntryDef) (v : Nat) : Int :=
  if 5 ≤ e.type ∧ e.type ≤ 8 then toSigned (8 * e.size) v else (v : Int)

/-- Whether a value is within the range of its type and its chapter (R500). A BOOL is 0 or 1 (R12). -/
def EntryDef.inRange (e : EntryDef) (v : Nat) : Bool :=
  (e.type != 0 || decide (v ≤ 1)) &&
  match e.range with
  | .any => true
  | .span lo hi => decide (lo ≤ e.value v) && decide (e.value v ≤ hi)
  | .oneOf vs => vs.contains v
  | .spanOr lo hi o => (decide (lo ≤ v) && decide (v ≤ hi)) || v == o
  | .multipleOr k o => v % k == 0 || v == o
  | .floats lo hi => (f32val v).isFinite && Num.le (f32val lo) (f32val v) && Num.le (f32val v) (f32val hi)

/-- Rights of a port: 0 host, 1 network, 2 management (R492). -/
def EntryDef.mayRead (e : EntryDef) (port : Nat) : Bool := e.rights.testBit (2 * port)
def EntryDef.mayWrite (e : EntryDef) (port : Nat) : Bool := e.rights.testBit (2 * port + 1)

/-- Whether SAVE keeps the entry (R492). -/
def EntryDef.saved (e : EntryDef) : Bool := e.rights.testBit 6

end Sys2Proof.Machine
end

