-- ==== Sys2Proof/Machine/Journal.lean ====
section
/-!
DEFINITION. A journal record (R511).
-/
namespace Sys2Proof.Machine

/-- The fields of a journal record that its event sets; the rest are 0. -/
structure JournalFields where
  kind : Nat
  port : Nat := 3
  session : Nat := 15
  index : Nat := 0
  sub : Nat := 0
  path : Nat := 0
  count : Nat := 0
  status : Nat := 0
  node : Nat := 0
  token : Nat := 0
  payload : Nat := 0
  extra : Nat := 0
  deriving DecidableEq, Repr

/-- The 512 bits of a record with its SEQ, time, SEQ_CHECK and CRC (R511). [DEDUCED: log 119] -/
def journalRecord (seq time : Nat) (f : JournalFields) : Nat :=
  let body := bits seq 0 64 + (bits time 0 64 <<< 64) + (bits f.kind 0 8 <<< 128) + (bits f.port 0 2 <<< 136) +
    (bits f.session 0 4 <<< 138) + (bits f.index 0 16 <<< 144) + (bits f.sub 0 8 <<< 160) + (bits f.path 0 3 <<< 168) +
    (bits f.count 0 16 <<< 176) + (bits f.status 0 16 <<< 192) + (bits f.node 0 8 <<< 208) + (bits f.token 0 32 <<< 224) +
    (bits f.payload 0 128 <<< 256) + (bits f.extra 0 64 <<< 384) + (bits seq 0 32 <<< 448)
  body + (crc32 (leBytes 60 body) <<< 480)

end Sys2Proof.Machine
end

