-- ==== Sys2Proof/Machine/Registers.lean ====
section
/-!
DEFINITION. The register map: every register the spec gives BAR0, with the place, width, access code and reset value of
every field (the register tables at the end of each chapter, the bases of R648). Reserved fields are left out: they read 0
and ignore writes (R7). A register file is a sparse list of (BAR0 offset, word) pairs in rising order of offset; a register
it does not list holds its reset value.
-/
namespace Sys2Proof.Machine

/-- The access codes of R6. No register field of the tables carries STG. -/
inductive Access where
  | ro | rw | wo | w1c | w1s | stg
  deriving DecidableEq, Repr

/-- A field: BAR0 offset of its register, lowest bit within the register, width, and the byte stride between the elements
of a register array (0 for a single register). -/
structure Field where
  addr : Nat
  lo : Nat
  width : Nat
  stride : Nat
  deriving DecidableEq, Repr

/-- The same field in the window of Canvas instance `k` (R648). -/
def Field.inst (f : Field) (k : Nat) : Field := { f with addr := f.addr + k * 0x100000 }

/-- The place of element `i` of a field in BAR0, in bits. -/
def Field.pos (f : Field) (i : Nat) : Nat := 8 * (f.addr + i * f.stride) + f.lo

/-- Two field elements share no bit. -/
def Field.apart (f : Field) (i : Nat) (g : Field) (j : Nat) : Bool :=
  decide (f.pos i + f.width ≤ g.pos j) || decide (g.pos j + g.width ≤ f.pos i)

/-- A field as the register tables give it: lowest bit, width, access code, reset value. -/
structure FieldDef where
  lo : Nat
  width : Nat
  acc : Access
  reset : Nat
  deriving DecidableEq, Repr

/-- A register (or an array of `count` of them): offset, stride, words of 32 bits, fields. -/
structure RegDef where
  addr : Nat
  stride : Nat
  count : Nat
  words : Nat
  fields : List FieldDef
  deriving DecidableEq, Repr

namespace R

/-- HIF_CHIP_ID (R1). -/
def HIF_CHIP_ID : Field := ⟨0x0, 0, 32, 0⟩
/-- HIF_CHIP_ID.FAMILY (R1). -/
def HIF_CHIP_ID_FAMILY : Field := ⟨0x0, 16, 16, 0⟩
/-- HIF_CHIP_ID.MEMBER (R1). -/
def HIF_CHIP_ID_MEMBER : Field := ⟨0x0, 8, 8, 0⟩
/-- HIF_CHIP_ID.STEPPING (R1). -/
def HIF_CHIP_ID_STEPPING : Field := ⟨0x0, 0, 8, 0⟩
/-- DSP_CTRL (R98). -/
def DSP_CTRL : Field := ⟨0x200000, 0, 32, 0⟩
/-- DSP_CTRL.ENABLE (R98). -/
def DSP_CTRL_ENABLE : Field := ⟨0x200000, 0, 1, 0⟩
/-- DSP_CTRL.STAT_CLEAR (R98). -/
def DSP_CTRL_STAT_CLEAR : Field := ⟨0x200000, 1, 1, 0⟩
/-- DSP_CTRL.HOLD_US (R98). -/
def DSP_CTRL_HOLD_US : Field := ⟨0x200000, 8, 8, 0⟩
/-- DSP_STATUS (R98). -/
def DSP_STATUS : Field := ⟨0x200004, 0, 32, 0⟩
/-- DSP_STATUS.IDLE (R98). -/
def DSP_STATUS_IDLE : Field := ⟨0x200004, 0, 1, 0⟩
/-- DSP_STATUS.CTX_FAULT (R98). -/
def DSP_STATUS_CTX_FAULT : Field := ⟨0x200004, 1, 1, 0⟩
/-- DSP_STATUS.LAUNCH_REFUSED (R98). -/
def DSP_STATUS_LAUNCH_REFUSED : Field := ⟨0x200004, 2, 1, 0⟩
/-- DSP_STATUS.SUSPENDED (R98). -/
def DSP_STATUS_SUSPENDED : Field := ⟨0x200004, 8, 8, 0⟩
/-- DSP_CTX_BASE_LO (R98). -/
def DSP_CTX_BASE_LO : Field := ⟨0x200008, 0, 32, 0⟩
/-- DSP_CTX_BASE_LO.ADDR_LO (R98). -/
def DSP_CTX_BASE_LO_ADDR_LO : Field := ⟨0x200008, 0, 32, 0⟩
/-- DSP_CTX_BASE_HI (R98). -/
def DSP_CTX_BASE_HI : Field := ⟨0x20000C, 0, 32, 0⟩
/-- DSP_CTX_BASE_HI.ADDR_HI (R98). -/
def DSP_CTX_BASE_HI_ADDR_HI : Field := ⟨0x20000C, 0, 8, 0⟩
/-- DSP_IDLE_PHASE (R98). -/
def DSP_IDLE_PHASE : Field := ⟨0x200010, 0, 32, 0⟩
/-- DSP_IDLE_PHASE.PHASE (R98). -/
def DSP_IDLE_PHASE_PHASE : Field := ⟨0x200010, 0, 4, 0⟩
/-- DSP_PREEMPT_STAT (R98). -/
def DSP_PREEMPT_STAT : Field := ⟨0x200014, 0, 32, 0⟩
/-- DSP_PREEMPT_STAT.PREEMPTS (R98). -/
def DSP_PREEMPT_STAT_PREEMPTS : Field := ⟨0x200014, 0, 16, 0⟩
/-- DSP_PREEMPT_STAT.MAX_LAT (R98). -/
def DSP_PREEMPT_STAT_MAX_LAT : Field := ⟨0x200014, 16, 16, 0⟩
/-- DSP_TILE_LONG_CNT (R98). -/
def DSP_TILE_LONG_CNT : Field := ⟨0x200018, 0, 32, 0⟩
/-- DSP_TILE_LONG_CNT.COUNT (R98). -/
def DSP_TILE_LONG_CNT_COUNT : Field := ⟨0x200018, 0, 32, 0⟩
/-- DSP_CANCEL (R98). -/
def DSP_CANCEL : Field := ⟨0x20001C, 0, 32, 0⟩
/-- DSP_CANCEL.WEAVE_ID (R98). -/
def DSP_CANCEL_WEAVE_ID : Field := ⟨0x20001C, 0, 16, 0⟩
/-- DSP_SIG_ADD (R98). -/
def DSP_SIG_ADD : Field := ⟨0x200020, 0, 32, 0⟩
/-- DSP_SIG_ADD.SIG (R98). -/
def DSP_SIG_ADD_SIG : Field := ⟨0x200020, 0, 8, 0⟩
/-- DSP_SIG_ADD.ADD (R98). -/
def DSP_SIG_ADD_ADD : Field := ⟨0x200020, 8, 24, 0⟩
/-- DSP_SIGn (R98). -/
def DSP_SIG : Field := ⟨0x201000, 0, 32, 4⟩
/-- DSP_SIGn.VALUE (R98). -/
def DSP_SIG_VALUE : Field := ⟨0x201000, 0, 32, 4⟩
/-- DSP_SIG_POISONm (R98). -/
def DSP_SIG_POISON : Field := ⟨0x201400, 0, 32, 4⟩
/-- DSP_SIG_POISONm.POISON (R98). -/
def DSP_SIG_POISON_POISON : Field := ⟨0x201400, 0, 32, 4⟩
/-- DSP_LAUNCHn (R98). -/
def DSP_LAUNCH : Field := ⟨0x202000, 0, 256, 32⟩
/-- DSP_LAUNCHn.WEAVE_ADDR (R98). -/
def DSP_LAUNCH_WEAVE_ADDR : Field := ⟨0x202000, 0, 40, 32⟩
/-- DSP_LAUNCHn.CLASS (R98). -/
def DSP_LAUNCH_CLASS : Field := ⟨0x202000, 40, 3, 32⟩
/-- DSP_LAUNCHn.ENABLE (R98). -/
def DSP_LAUNCH_ENABLE : Field := ⟨0x202000, 48, 1, 32⟩
/-- DSP_LAUNCHn.FIRST (R98). -/
def DSP_LAUNCH_FIRST : Field := ⟨0x202000, 64, 64, 32⟩
/-- DSP_LAUNCHn.PERIOD_NS (R98). -/
def DSP_LAUNCH_PERIOD_NS : Field := ⟨0x202000, 128, 32, 32⟩
/-- DSP_LAUNCHn.OVERRUNS (R98). -/
def DSP_LAUNCH_OVERRUNS : Field := ⟨0x202000, 160, 16, 32⟩
/-- DSP_LAUNCHn.PAIR (R98). -/
def DSP_LAUNCH_PAIR : Field := ⟨0x202000, 176, 15, 32⟩
/-- DSP_LAUNCHn.LAUNCHES (R98). -/
def DSP_LAUNCH_LAUNCHES : Field := ⟨0x202000, 192, 32, 32⟩
/-- MSL_CTRL (R135). -/
def MSL_CTRL : Field := ⟨0x300000, 0, 32, 0⟩
/-- MSL_CTRL.SCRUB_EN (R135). -/
def MSL_CTRL_SCRUB_EN : Field := ⟨0x300000, 0, 1, 0⟩
/-- MSL_CTRL.BT_EN (R135). -/
def MSL_CTRL_BT_EN : Field := ⟨0x300000, 1, 1, 0⟩
/-- MSL_CTRL.BT_AUTO_REPAIR (R135). -/
def MSL_CTRL_BT_AUTO_REPAIR : Field := ⟨0x300000, 2, 1, 0⟩
/-- MSL_STATUS (R135). -/
def MSL_STATUS : Field := ⟨0x300004, 0, 32, 0⟩
/-- MSL_STATUS.GROUP_STATE (R135). -/
def MSL_STATUS_GROUP_STATE : Field := ⟨0x300004, 0, 16, 0⟩
/-- MSL_STATUS.UE_LATCH (R135). -/
def MSL_STATUS_UE_LATCH : Field := ⟨0x300004, 16, 1, 0⟩
/-- MSL_STATUS.WP_HIT (R135). -/
def MSL_STATUS_WP_HIT : Field := ⟨0x300004, 17, 1, 0⟩
/-- MSL_STATUS.BT_ACTIVE (R135). -/
def MSL_STATUS_BT_ACTIVE : Field := ⟨0x300004, 18, 1, 0⟩
/-- MSL_STATUS.LOG_USED (R135). -/
def MSL_STATUS_LOG_USED : Field := ⟨0x300004, 24, 7, 0⟩
/-- MSL_RET_CTRL (R135). -/
def MSL_RET_CTRL : Field := ⟨0x300008, 0, 32, 0⟩
/-- MSL_RET_CTRL.RET_ALLOW (R135). -/
def MSL_RET_CTRL_RET_ALLOW : Field := ⟨0x300008, 0, 8, 0⟩
/-- MSL_RET_CTRL.RET_IDLE_US (R135). -/
def MSL_RET_CTRL_RET_IDLE_US : Field := ⟨0x300008, 8, 16, 0⟩
/-- MSL_SCRUB_CTRL (R135). -/
def MSL_SCRUB_CTRL : Field := ⟨0x30000C, 0, 32, 0⟩
/-- MSL_SCRUB_CTRL.PERIOD_S (R135). -/
def MSL_SCRUB_CTRL_PERIOD_S : Field := ⟨0x30000C, 0, 16, 0⟩
/-- MSL_ECC_CE_CNT (R135). -/
def MSL_ECC_CE_CNT : Field := ⟨0x300010, 0, 32, 0⟩
/-- MSL_ECC_CE_CNT.COUNT (R135). -/
def MSL_ECC_CE_CNT_COUNT : Field := ⟨0x300010, 0, 32, 0⟩
/-- MSL_ECC_UE_CNT (R135). -/
def MSL_ECC_UE_CNT : Field := ⟨0x300014, 0, 32, 0⟩
/-- MSL_ECC_UE_CNT.COUNT (R135). -/
def MSL_ECC_UE_CNT_COUNT : Field := ⟨0x300014, 0, 32, 0⟩
/-- MSL_ERR_LOG (R135). -/
def MSL_ERR_LOG : Field := ⟨0x300018, 0, 32, 0⟩
/-- MSL_ERR_LOG.VALID (R135). -/
def MSL_ERR_LOG_VALID : Field := ⟨0x300018, 0, 1, 0⟩
/-- MSL_ERR_LOG.WORD (R135). -/
def MSL_ERR_LOG_WORD : Field := ⟨0x300018, 3, 25, 0⟩
/-- MSL_ERR_LOG.SOURCE (R135). -/
def MSL_ERR_LOG_SOURCE : Field := ⟨0x300018, 28, 4, 0⟩
/-- MSL_BT_CTRL (R135). -/
def MSL_BT_CTRL : Field := ⟨0x30001C, 0, 32, 0⟩
/-- MSL_BT_CTRL.GAP_MS (R135). -/
def MSL_BT_CTRL_GAP_MS : Field := ⟨0x30001C, 0, 16, 0⟩
/-- MSL_BT_CTRL.EXCLUDE (R135). -/
def MSL_BT_CTRL_EXCLUDE : Field := ⟨0x30001C, 16, 8, 0⟩
/-- MSL_BT_POS (R135). -/
def MSL_BT_POS : Field := ⟨0x300020, 0, 32, 0⟩
/-- MSL_BT_POS.REGION (R135). -/
def MSL_BT_POS_REGION : Field := ⟨0x300020, 0, 16, 0⟩
/-- MSL_BT_POS.PASSES (R135). -/
def MSL_BT_POS_PASSES : Field := ⟨0x300020, 16, 16, 0⟩
/-- MSL_BT_STATUS (R135). -/
def MSL_BT_STATUS : Field := ⟨0x300024, 0, 32, 0⟩
/-- MSL_BT_STATUS.REPAIRED (R135). -/
def MSL_BT_STATUS_REPAIRED : Field := ⟨0x300024, 0, 1, 0⟩
/-- MSL_BT_STATUS.NO_SPARE (R135). -/
def MSL_BT_STATUS_NO_SPARE : Field := ⟨0x300024, 1, 1, 0⟩
/-- MSL_BT_STATUS.MULTI_FAIL (R135). -/
def MSL_BT_STATUS_MULTI_FAIL : Field := ⟨0x300024, 2, 1, 0⟩
/-- MSL_BT_STATUS.ABORT_UE (R135). -/
def MSL_BT_STATUS_ABORT_UE : Field := ⟨0x300024, 3, 1, 0⟩
/-- MSL_BT_STATUS.LOG_FULL (R135). -/
def MSL_BT_STATUS_LOG_FULL : Field := ⟨0x300024, 4, 1, 0⟩
/-- MSL_BT_STATUS.LIST_FULL (R135). -/
def MSL_BT_STATUS_LIST_FULL : Field := ⟨0x300024, 5, 1, 0⟩
/-- MSL_HATOM_ADDR (R135). -/
def MSL_HATOM_ADDR : Field := ⟨0x300030, 0, 32, 0⟩
/-- MSL_HATOM_ADDR.WORD (R135). -/
def MSL_HATOM_ADDR_WORD : Field := ⟨0x300030, 2, 26, 0⟩
/-- MSL_HATOM_SET (R135). -/
def MSL_HATOM_SET : Field := ⟨0x300034, 0, 32, 0⟩
/-- MSL_HATOM_SET.MASK (R135). -/
def MSL_HATOM_SET_MASK : Field := ⟨0x300034, 0, 32, 0⟩
/-- MSL_HATOM_CLR (R135). -/
def MSL_HATOM_CLR : Field := ⟨0x300038, 0, 32, 0⟩
/-- MSL_HATOM_CLR.MASK (R135). -/
def MSL_HATOM_CLR_MASK : Field := ⟨0x300038, 0, 32, 0⟩
/-- MSL_HATOM_OLD (R135). -/
def MSL_HATOM_OLD : Field := ⟨0x30003C, 0, 32, 0⟩
/-- MSL_HATOM_OLD.VALUE (R135). -/
def MSL_HATOM_OLD_VALUE : Field := ⟨0x30003C, 0, 32, 0⟩
/-- MSL_REPAIR_APPLY_LO (R135). -/
def MSL_REPAIR_APPLY_LO : Field := ⟨0x300040, 0, 32, 0⟩
/-- MSL_REPAIR_APPLY_LO.RECORD_LO (R135). -/
def MSL_REPAIR_APPLY_LO_RECORD_LO : Field := ⟨0x300040, 0, 32, 0⟩
/-- MSL_REPAIR_APPLY_HI (R135). -/
def MSL_REPAIR_APPLY_HI : Field := ⟨0x300044, 0, 32, 0⟩
/-- MSL_REPAIR_APPLY_HI.RECORD_HI (R135). -/
def MSL_REPAIR_APPLY_HI_RECORD_HI : Field := ⟨0x300044, 0, 32, 0⟩
/-- MSL_REPAIR_CMD (R135). -/
def MSL_REPAIR_CMD : Field := ⟨0x300048, 0, 32, 0⟩
/-- MSL_REPAIR_CMD.GO (R135). -/
def MSL_REPAIR_CMD_GO : Field := ⟨0x300048, 0, 1, 0⟩
/-- MSL_REPAIR_CMD.RESULT (R135). -/
def MSL_REPAIR_CMD_RESULT : Field := ⟨0x300048, 1, 3, 0⟩
/-- MSL_WPn (R135). -/
def MSL_WP : Field := ⟨0x300080, 0, 32, 4⟩
/-- MSL_WPn.PROTECT (R135). -/
def MSL_WP_PROTECT : Field := ⟨0x300080, 0, 32, 4⟩
/-- MSL_SOFT_REPAIRn (R135). -/
def MSL_SOFT_REPAIR : Field := ⟨0x300100, 0, 64, 8⟩
/-- MSL_SOFT_REPAIRn.RECORD (R135). -/
def MSL_SOFT_REPAIR_RECORD : Field := ⟨0x300100, 0, 31, 8⟩
/-- MSL_SOFT_REPAIRn.VALID (R135). -/
def MSL_SOFT_REPAIR_VALID : Field := ⟨0x300100, 31, 1, 8⟩
/-- MSL_SOFT_REPAIRn.TIME (R135). -/
def MSL_SOFT_REPAIR_TIME : Field := ⟨0x300100, 32, 32, 8⟩
/-- MSL_DEGRADEDn (R135). -/
def MSL_DEGRADED : Field := ⟨0x300400, 0, 32, 4⟩
/-- MSL_DEGRADEDn.LOCATION (R135). -/
def MSL_DEGRADED_LOCATION : Field := ⟨0x300400, 0, 22, 4⟩
/-- MSL_DEGRADEDn.KIND (R135). -/
def MSL_DEGRADED_KIND : Field := ⟨0x300400, 30, 1, 4⟩
/-- MSL_DEGRADEDn.VALID (R135). -/
def MSL_DEGRADED_VALID : Field := ⟨0x300400, 31, 1, 4⟩
/-- DMK_STATUS (R175). -/
def DMK_STATUS : Field := ⟨0x400000, 0, 32, 0⟩
/-- DMK_STATUS.BUSY (R175). -/
def DMK_STATUS_BUSY : Field := ⟨0x400000, 0, 1, 0⟩
/-- DMK_STATUS.SWAP_ACTIVE (R175). -/
def DMK_STATUS_SWAP_ACTIVE : Field := ⟨0x400000, 1, 1, 0⟩
/-- DMK_STATUS.SWAP_PENDING (R175). -/
def DMK_STATUS_SWAP_PENDING : Field := ⟨0x400000, 2, 1, 0⟩
/-- DMK_STATUS.SLOT_PARITY (R175). -/
def DMK_STATUS_SLOT_PARITY : Field := ⟨0x400000, 3, 1, 0⟩
/-- DMK_STATUS.COLUMN_FAULT (R175). -/
def DMK_STATUS_COLUMN_FAULT : Field := ⟨0x400000, 4, 1, 0⟩
/-- DMK_STATUS.SHAPE (R175). -/
def DMK_STATUS_SHAPE : Field := ⟨0x400000, 5, 2, 0⟩
/-- DMK_STATUS.DATAFLOW (R175). -/
def DMK_STATUS_DATAFLOW : Field := ⟨0x400000, 7, 1, 0⟩
/-- DMK_STATUS.PINS (R175). -/
def DMK_STATUS_PINS : Field := ⟨0x400000, 8, 6, 0⟩
/-- DMK_ISSUE (R175). -/
def DMK_ISSUE : Field := ⟨0x400004, 0, 32, 0⟩
/-- DMK_ISSUE.CREDITS (R175). -/
def DMK_ISSUE_CREDITS : Field := ⟨0x400004, 0, 6, 0⟩
/-- DMK_ISSUE.THROTTLED (R175). -/
def DMK_ISSUE_THROTTLED : Field := ⟨0x400004, 6, 1, 0⟩
/-- DMK_OP_CNT (R175). -/
def DMK_OP_CNT : Field := ⟨0x400008, 0, 32, 0⟩
/-- DMK_OP_CNT.COUNT (R175). -/
def DMK_OP_CNT_COUNT : Field := ⟨0x400008, 0, 32, 0⟩
/-- DMK_STALL_CNT (R175). -/
def DMK_STALL_CNT : Field := ⟨0x40000C, 0, 32, 0⟩
/-- DMK_STALL_CNT.COUNT (R175). -/
def DMK_STALL_CNT_COUNT : Field := ⟨0x40000C, 0, 32, 0⟩
/-- DMK_SPARE_CMD (R175). -/
def DMK_SPARE_CMD : Field := ⟨0x400020, 0, 32, 0⟩
/-- DMK_SPARE_CMD.COLUMN (R175). -/
def DMK_SPARE_CMD_COLUMN : Field := ⟨0x400020, 0, 8, 0⟩
/-- DMK_SPARE_CMD.GO (R175). -/
def DMK_SPARE_CMD_GO : Field := ⟨0x400020, 8, 1, 0⟩
/-- DMK_SPARE_CMD.RESULT (R175). -/
def DMK_SPARE_CMD_RESULT : Field := ⟨0x400020, 9, 3, 0⟩
/-- DMK_SPARE_MAPg (R175). -/
def DMK_SPARE_MAP : Field := ⟨0x400040, 0, 32, 4⟩
/-- DMK_SPARE_MAPg.REPLACED (R175). -/
def DMK_SPARE_MAP_REPLACED : Field := ⟨0x400040, 0, 5, 4⟩
/-- DMK_SPARE_MAPg.IN_USE (R175). -/
def DMK_SPARE_MAP_IN_USE : Field := ⟨0x400040, 5, 1, 4⟩
/-- DMK_SPARE_MAPg.SOURCE (R175). -/
def DMK_SPARE_MAP_SOURCE : Field := ⟨0x400040, 6, 1, 4⟩
/-- DMK_SPARE_MAPg.SPARE_BAD (R175). -/
def DMK_SPARE_MAP_SPARE_BAD : Field := ⟨0x400040, 7, 1, 4⟩
/-- DMK_COL_FAILn (R175). -/
def DMK_COL_FAIL : Field := ⟨0x400080, 0, 32, 4⟩
/-- DMK_COL_FAILn.FAIL (R175). -/
def DMK_COL_FAIL_FAIL : Field := ⟨0x400080, 0, 32, 4⟩
/-- DMK_PINn (R175). -/
def DMK_PIN : Field := ⟨0x400100, 0, 64, 8⟩
/-- DMK_PINn.VALID (R175). -/
def DMK_PIN_VALID : Field := ⟨0x400100, 0, 1, 8⟩
/-- DMK_PINn.SLOT (R175). -/
def DMK_PIN_SLOT : Field := ⟨0x400100, 1, 1, 8⟩
/-- DMK_PINn.CORRUPT (R175). -/
def DMK_PIN_CORRUPT : Field := ⟨0x400100, 2, 1, 8⟩
/-- DMK_PINn.BAND_FIRST (R175). -/
def DMK_PIN_BAND_FIRST : Field := ⟨0x400100, 8, 4, 8⟩
/-- DMK_PINn.BAND_LAST (R175). -/
def DMK_PIN_BAND_LAST : Field := ⟨0x400100, 12, 4, 8⟩
/-- DMK_PINn.GROUP_FIRST (R175). -/
def DMK_PIN_GROUP_FIRST : Field := ⟨0x400100, 16, 3, 8⟩
/-- DMK_PINn.GROUP_LAST (R175). -/
def DMK_PIN_GROUP_LAST : Field := ⟨0x400100, 19, 3, 8⟩
/-- DMK_PINn.STREAM (R175). -/
def DMK_PIN_STREAM : Field := ⟨0x400100, 32, 16, 8⟩
/-- DMK_REC_RESET_CNT (R196). -/
def DMK_REC_RESET_CNT : Field := ⟨0x400010, 0, 32, 0⟩
/-- DMK_REC_RESET_CNT.COUNT (R196). -/
def DMK_REC_RESET_CNT_COUNT : Field := ⟨0x400010, 0, 32, 0⟩
/-- DMK_REC_STALE_CNT (R196). -/
def DMK_REC_STALE_CNT : Field := ⟨0x400014, 0, 32, 0⟩
/-- DMK_REC_STALE_CNT.COUNT (R196). -/
def DMK_REC_STALE_CNT_COUNT : Field := ⟨0x400014, 0, 32, 0⟩
/-- ATU_CTRL (R238). -/
def ATU_CTRL : Field := ⟨0x500000, 0, 32, 0⟩
/-- ATU_CTRL.ENABLE (R238). -/
def ATU_CTRL_ENABLE : Field := ⟨0x500000, 0, 1, 0⟩
/-- ATU_CTRL.TWILL_CLUSTER (R238). -/
def ATU_CTRL_TWILL_CLUSTER : Field := ⟨0x500000, 1, 5, 0⟩
/-- ATU_CTRL.FRAME_SHIFT (R238). -/
def ATU_CTRL_FRAME_SHIFT : Field := ⟨0x500000, 8, 4, 0⟩
/-- ATU_STATUS (R238). -/
def ATU_STATUS : Field := ⟨0x500004, 0, 32, 0⟩
/-- ATU_STATUS.BUSY (R238). -/
def ATU_STATUS_BUSY : Field := ⟨0x500004, 0, 1, 0⟩
/-- ATU_STATUS.NO_FRAME (R238). -/
def ATU_STATUS_NO_FRAME : Field := ⟨0x500004, 1, 1, 0⟩
/-- ATU_STATUS.FREE_LOW (R238). -/
def ATU_STATUS_FREE_LOW : Field := ⟨0x500004, 2, 1, 0⟩
/-- ATU_STATUS.PUSH_REFUSED (R238). -/
def ATU_STATUS_PUSH_REFUSED : Field := ⟨0x500004, 3, 1, 0⟩
/-- ATU_STATUS.BAD_POP (R238). -/
def ATU_STATUS_BAD_POP : Field := ⟨0x500004, 4, 1, 0⟩
/-- ATU_STATUS.SAVE_LOST (R238). -/
def ATU_STATUS_SAVE_LOST : Field := ⟨0x500004, 5, 1, 0⟩
/-- ATU_STATUS.HELD_OPS (R238). -/
def ATU_STATUS_HELD_OPS : Field := ⟨0x500004, 8, 5, 0⟩
/-- ATU_PFT_BASE_LO (R238). -/
def ATU_PFT_BASE_LO : Field := ⟨0x500008, 0, 32, 0⟩
/-- ATU_PFT_BASE_LO.ADDR_LO (R238). -/
def ATU_PFT_BASE_LO_ADDR_LO : Field := ⟨0x500008, 0, 32, 0⟩
/-- ATU_PFT_BASE_HI (R238). -/
def ATU_PFT_BASE_HI : Field := ⟨0x50000C, 0, 32, 0⟩
/-- ATU_PFT_BASE_HI.ADDR_HI (R238). -/
def ATU_PFT_BASE_HI_ADDR_HI : Field := ⟨0x50000C, 0, 8, 0⟩
/-- ATU_LAND_BASE_LO (R238). -/
def ATU_LAND_BASE_LO : Field := ⟨0x500010, 0, 32, 0⟩
/-- ATU_LAND_BASE_LO.ADDR_LO (R238). -/
def ATU_LAND_BASE_LO_ADDR_LO : Field := ⟨0x500010, 0, 32, 0⟩
/-- ATU_LAND_BASE_HI (R238). -/
def ATU_LAND_BASE_HI : Field := ⟨0x500014, 0, 32, 0⟩
/-- ATU_LAND_BASE_HI.ADDR_HI (R238). -/
def ATU_LAND_BASE_HI_ADDR_HI : Field := ⟨0x500014, 0, 8, 0⟩
/-- ATU_SAVE_BASE_LO (R238). -/
def ATU_SAVE_BASE_LO : Field := ⟨0x500018, 0, 32, 0⟩
/-- ATU_SAVE_BASE_LO.ADDR_LO (R238). -/
def ATU_SAVE_BASE_LO_ADDR_LO : Field := ⟨0x500018, 0, 32, 0⟩
/-- ATU_SAVE_BASE_HI (R238). -/
def ATU_SAVE_BASE_HI : Field := ⟨0x50001C, 0, 32, 0⟩
/-- ATU_SAVE_BASE_HI.ADDR_HI (R238). -/
def ATU_SAVE_BASE_HI_ADDR_HI : Field := ⟨0x50001C, 0, 8, 0⟩
/-- ATU_FREE_PUSH (R238). -/
def ATU_FREE_PUSH : Field := ⟨0x500020, 0, 32, 0⟩
/-- ATU_FREE_PUSH.FRAME (R238). -/
def ATU_FREE_PUSH_FRAME : Field := ⟨0x500020, 0, 17, 0⟩
/-- ATU_FREE_LEVEL (R238). -/
def ATU_FREE_LEVEL : Field := ⟨0x500024, 0, 32, 0⟩
/-- ATU_FREE_LEVEL.LEVEL (R238). -/
def ATU_FREE_LEVEL_LEVEL : Field := ⟨0x500024, 0, 14, 0⟩
/-- ATU_FREE_LEVEL.LOW_MARK (R238). -/
def ATU_FREE_LEVEL_LOW_MARK : Field := ⟨0x500024, 16, 14, 0⟩
/-- ATU_FREE_BAD_CNT (R238). -/
def ATU_FREE_BAD_CNT : Field := ⟨0x500028, 0, 32, 0⟩
/-- ATU_FREE_BAD_CNT.PUSHES (R238). -/
def ATU_FREE_BAD_CNT_PUSHES : Field := ⟨0x500028, 0, 16, 0⟩
/-- ATU_FREE_BAD_CNT.POPS (R238). -/
def ATU_FREE_BAD_CNT_POPS : Field := ⟨0x500028, 16, 16, 0⟩
/-- ATU_STALE_CNT (R238). -/
def ATU_STALE_CNT : Field := ⟨0x50002C, 0, 32, 0⟩
/-- ATU_STALE_CNT.COUNT (R238). -/
def ATU_STALE_CNT_COUNT : Field := ⟨0x50002C, 0, 32, 0⟩
/-- ATU_FLUSH_CNT (R238). -/
def ATU_FLUSH_CNT : Field := ⟨0x500030, 0, 32, 0⟩
/-- ATU_FLUSH_CNT.COUNT (R238). -/
def ATU_FLUSH_CNT_COUNT : Field := ⟨0x500030, 0, 32, 0⟩
/-- ATU_CMD (R238). -/
def ATU_CMD : Field := ⟨0x500040, 0, 32, 0⟩
/-- ATU_CMD.OP (R238). -/
def ATU_CMD_OP : Field := ⟨0x500040, 0, 4, 0⟩
/-- ATU_CMD.TARGET (R238). -/
def ATU_CMD_TARGET : Field := ⟨0x500040, 4, 11, 0⟩
/-- ATU_CMD_STATUS (R238). -/
def ATU_CMD_STATUS : Field := ⟨0x500044, 0, 32, 0⟩
/-- ATU_CMD_STATUS.STATUS (R238). -/
def ATU_CMD_STATUS_STATUS : Field := ⟨0x500044, 0, 16, 0⟩
/-- ATU_CMD_STATUS.BUSY (R238). -/
def ATU_CMD_STATUS_BUSY : Field := ⟨0x500044, 16, 1, 0⟩
/-- ATU_CMD_DATAn (R238). -/
def ATU_CMD_DATA : Field := ⟨0x500080, 0, 32, 4⟩
/-- ATU_CMD_DATAn.DATA (R238). -/
def ATU_CMD_DATA_DATA : Field := ⟨0x500080, 0, 32, 4⟩
/-- ATU_KVCFGn (R238). -/
def ATU_KVCFG : Field := ⟨0x500100, 0, 32, 4⟩
/-- ATU_KVCFGn.HEAD_DIM (R238). -/
def ATU_KVCFG_HEAD_DIM : Field := ⟨0x500100, 0, 2, 4⟩
/-- ATU_KVCFGn.HKV_M1 (R238). -/
def ATU_KVCFG_HKV_M1 : Field := ⟨0x500100, 2, 6, 4⟩
/-- ATU_KVCFGn.FORMAT (R238). -/
def ATU_KVCFG_FORMAT : Field := ⟨0x500100, 8, 4, 4⟩
/-- ATU_KVCFGn.VALID (R238). -/
def ATU_KVCFG_VALID : Field := ⟨0x500100, 12, 1, 4⟩
/-- ATU_HOLDn (R238). -/
def ATU_HOLD : Field := ⟨0x500200, 0, 64, 8⟩
/-- ATU_HOLDn.VALID (R238). -/
def ATU_HOLD_VALID : Field := ⟨0x500200, 0, 1, 8⟩
/-- ATU_HOLDn.RESUMED (R238). -/
def ATU_HOLD_RESUMED : Field := ⟨0x500200, 1, 1, 8⟩
/-- ATU_HOLDn.CLASS (R238). -/
def ATU_HOLD_CLASS : Field := ⟨0x500200, 2, 3, 8⟩
/-- ATU_HOLDn.ENTRIES (R238). -/
def ATU_HOLD_ENTRIES : Field := ⟨0x500200, 8, 8, 8⟩
/-- ATU_HOLDn.WEAVE_ID (R238). -/
def ATU_HOLD_WEAVE_ID : Field := ⟨0x500200, 16, 16, 8⟩
/-- ATU_HOLDn.DESC_INDEX (R238). -/
def ATU_HOLD_DESC_INDEX : Field := ⟨0x500200, 32, 16, 8⟩
/-- ATU_SEQn (R238). -/
def ATU_SEQ : Field := ⟨0x520000, 0, 512, 64⟩
/-- ATU_SEQn.DESCRIPTOR (R238). -/
def ATU_SEQ_DESCRIPTOR : Field := ⟨0x520000, 0, 512, 64⟩
/-- TWL_STATUS (R268). -/
def TWL_STATUS : Field := ⟨0x600000, 0, 32, 0⟩
/-- TWL_STATUS.ACTIVE (R268). -/
def TWL_STATUS_ACTIVE : Field := ⟨0x600000, 0, 5, 0⟩
/-- TWL_STATUS.SPARE (R268). -/
def TWL_STATUS_SPARE : Field := ⟨0x600000, 5, 5, 0⟩
/-- TWL_STATUS.SVC_BUSY (R268). -/
def TWL_STATUS_SVC_BUSY : Field := ⟨0x600000, 10, 1, 0⟩
/-- TWL_STATUS.STORE_UE (R268). -/
def TWL_STATUS_STORE_UE : Field := ⟨0x600000, 11, 1, 0⟩
/-- TWL_STATUS.KAT_FAIL (R268). -/
def TWL_STATUS_KAT_FAIL : Field := ⟨0x600000, 12, 1, 0⟩
/-- TWL_SVC_CMD (R268). -/
def TWL_SVC_CMD : Field := ⟨0x600004, 0, 32, 0⟩
/-- TWL_SVC_CMD.OP (R268). -/
def TWL_SVC_CMD_OP : Field := ⟨0x600004, 0, 3, 0⟩
/-- TWL_SVC_CMD.CLUSTER (R268). -/
def TWL_SVC_CMD_CLUSTER : Field := ⟨0x600004, 3, 5, 0⟩
/-- TWL_SVC_CMD.FORCE (R268). -/
def TWL_SVC_CMD_FORCE : Field := ⟨0x600004, 8, 1, 0⟩
/-- TWL_SVC_CMD.AUTO_SPARE (R268). -/
def TWL_SVC_CMD_AUTO_SPARE : Field := ⟨0x600004, 9, 1, 0⟩
/-- TWL_SVC_CMD.RESULT (R268). -/
def TWL_SVC_CMD_RESULT : Field := ⟨0x600004, 16, 4, 0⟩
/-- TWL_SVC_CMD.BUSY (R268). -/
def TWL_SVC_CMD_BUSY : Field := ⟨0x600004, 20, 1, 0⟩
/-- TWL_GNG_PAIR (R268). -/
def TWL_GNG_PAIR : Field := ⟨0x600008, 0, 32, 0⟩
/-- TWL_GNG_PAIR.CLUSTER_A (R268). -/
def TWL_GNG_PAIR_CLUSTER_A : Field := ⟨0x600008, 0, 5, 0⟩
/-- TWL_GNG_PAIR.CLUSTER_B (R268). -/
def TWL_GNG_PAIR_CLUSTER_B : Field := ⟨0x600008, 8, 5, 0⟩
/-- TWL_GNG_PAIR.EXCLUSIVE (R268). -/
def TWL_GNG_PAIR_EXCLUSIVE : Field := ⟨0x600008, 16, 1, 0⟩
/-- TWL_GNG_PAIR.PAIR_BAD (R268). -/
def TWL_GNG_PAIR_PAIR_BAD : Field := ⟨0x600008, 17, 1, 0⟩
/-- TWL_STORE_CE_CNT (R268). -/
def TWL_STORE_CE_CNT : Field := ⟨0x600010, 0, 32, 0⟩
/-- TWL_STORE_CE_CNT.COUNT (R268). -/
def TWL_STORE_CE_CNT_COUNT : Field := ⟨0x600010, 0, 32, 0⟩
/-- TWL_OP_CNT (R268). -/
def TWL_OP_CNT : Field := ⟨0x600014, 0, 32, 0⟩
/-- TWL_OP_CNT.COUNT (R268). -/
def TWL_OP_CNT_COUNT : Field := ⟨0x600014, 0, 32, 0⟩
/-- TWL_STALL_CNT (R268). -/
def TWL_STALL_CNT : Field := ⟨0x600018, 0, 32, 0⟩
/-- TWL_STALL_CNT.COUNT (R268). -/
def TWL_STALL_CNT_COUNT : Field := ⟨0x600018, 0, 32, 0⟩
/-- TWL_CLUSTERn (R268). -/
def TWL_CLUSTER : Field := ⟨0x600100, 0, 32, 4⟩
/-- TWL_CLUSTERn.STATE (R268). -/
def TWL_CLUSTER_STATE : Field := ⟨0x600100, 0, 3, 4⟩
/-- TWL_CLUSTERn.TEST_PASS (R268). -/
def TWL_CLUSTER_TEST_PASS : Field := ⟨0x600100, 3, 1, 4⟩
/-- TWL_CLUSTERn.BUSY (R268). -/
def TWL_CLUSTER_BUSY : Field := ⟨0x600100, 4, 1, 4⟩
/-- TWL_CLUSTERn.CHAINS (R268). -/
def TWL_CLUSTER_CHAINS : Field := ⟨0x600100, 8, 8, 4⟩
/-- TWL_CLUSTERn.SUSPENDED (R268). -/
def TWL_CLUSTER_SUSPENDED : Field := ⟨0x600100, 16, 8, 4⟩
/-- HIF_CTRL (R298). -/
def HIF_CTRL : Field := ⟨0x4, 0, 32, 0⟩
/-- HIF_CTRL.BAR2_CLASS (R298). -/
def HIF_CTRL_BAR2_CLASS : Field := ⟨0x4, 0, 3, 0⟩
/-- HIF_STATUS (R298). -/
def HIF_STATUS : Field := ⟨0x8, 0, 32, 0⟩
/-- HIF_STATUS.LINK_UP (R298). -/
def HIF_STATUS_LINK_UP : Field := ⟨0x8, 0, 1, 0⟩
/-- HIF_STATUS.SPEED (R298). -/
def HIF_STATUS_SPEED : Field := ⟨0x8, 1, 3, 0⟩
/-- HIF_STATUS.WIDTH (R298). -/
def HIF_STATUS_WIDTH : Field := ⟨0x8, 4, 4, 0⟩
/-- HIF_STATUS.LINK_DOWN_SEEN (R298). -/
def HIF_STATUS_LINK_DOWN_SEEN : Field := ⟨0x8, 8, 1, 0⟩
/-- HIF_STATUS.RESET_SEEN (R298). -/
def HIF_STATUS_RESET_SEEN : Field := ⟨0x8, 9, 1, 0⟩
/-- HIF_STATUS.BAD_ACCESS (R298). -/
def HIF_STATUS_BAD_ACCESS : Field := ⟨0x8, 10, 1, 0⟩
/-- HIF_STATUS.HOST_ERR (R298). -/
def HIF_STATUS_HOST_ERR : Field := ⟨0x8, 11, 1, 0⟩
/-- HIF_EVT_PEND (R298). -/
def HIF_EVT_PEND : Field := ⟨0xC, 0, 32, 0⟩
/-- HIF_EVT_PEND.PEND (R298). -/
def HIF_EVT_PEND_PEND : Field := ⟨0xC, 0, 20, 0⟩
/-- HIF_EVT_MASK (R298). -/
def HIF_EVT_MASK : Field := ⟨0x10, 0, 32, 0⟩
/-- HIF_EVT_MASK.MASK (R298). -/
def HIF_EVT_MASK_MASK : Field := ⟨0x10, 0, 20, 0⟩
/-- HIF_HOST_ERR_LOG (R298). -/
def HIF_HOST_ERR_LOG : Field := ⟨0x14, 0, 32, 0⟩
/-- HIF_HOST_ERR_LOG.WINDOW (R298). -/
def HIF_HOST_ERR_LOG_WINDOW : Field := ⟨0x14, 0, 8, 0⟩
/-- HIF_HOST_ERR_LOG.KIND (R298). -/
def HIF_HOST_ERR_LOG_KIND : Field := ⟨0x14, 8, 4, 0⟩
/-- HIF_HOST_ERR_LOG.VALID (R298). -/
def HIF_HOST_ERR_LOG_VALID : Field := ⟨0x14, 31, 1, 0⟩
/-- HIF_HWINn (R298). -/
def HIF_HWIN : Field := ⟨0x100, 0, 128, 16⟩
/-- HIF_HWINn.HOST_BASE (R298). -/
def HIF_HWIN_HOST_BASE : Field := ⟨0x100, 0, 64, 16⟩
/-- HIF_HWINn.VALID (R298). -/
def HIF_HWIN_VALID : Field := ⟨0x100, 64, 1, 16⟩
/-- HIF_HWINn.READ_OK (R298). -/
def HIF_HWIN_READ_OK : Field := ⟨0x100, 65, 1, 16⟩
/-- HIF_HWINn.WRITE_OK (R298). -/
def HIF_HWIN_WRITE_OK : Field := ⟨0x100, 66, 1, 16⟩
/-- HIF_HWINn.NO_SNOOP (R298). -/
def HIF_HWIN_NO_SNOOP : Field := ⟨0x100, 67, 1, 16⟩
/-- HIF_HWINn.RELAXED (R298). -/
def HIF_HWIN_RELAXED : Field := ⟨0x100, 68, 1, 16⟩
/-- QMG_CTRL (R299). -/
def QMG_CTRL : Field := ⟨0x100000, 0, 32, 0⟩
/-- QMG_CTRL.ENABLE (R299). -/
def QMG_CTRL_ENABLE : Field := ⟨0x100000, 0, 1, 0⟩
/-- QMG_STATUS (R299). -/
def QMG_STATUS : Field := ⟨0x100004, 0, 32, 0⟩
/-- QMG_STATUS.IN_FLIGHT (R299). -/
def QMG_STATUS_IN_FLIGHT : Field := ⟨0x100004, 0, 11, 0⟩
/-- QMG_STATUS.SPILL_FULL (R299). -/
def QMG_STATUS_SPILL_FULL : Field := ⟨0x100004, 11, 1, 0⟩
/-- QMG_STATUS.LOST (R299). -/
def QMG_STATUS_LOST : Field := ⟨0x100004, 12, 1, 0⟩
/-- QMG_STATUS.BAD_DOORBELL (R299). -/
def QMG_STATUS_BAD_DOORBELL : Field := ⟨0x100004, 13, 1, 0⟩
/-- QMG_CTX_BASE_LO (R299). -/
def QMG_CTX_BASE_LO : Field := ⟨0x100008, 0, 32, 0⟩
/-- QMG_CTX_BASE_LO.ADDR_LO (R299). -/
def QMG_CTX_BASE_LO_ADDR_LO : Field := ⟨0x100008, 0, 32, 0⟩
/-- QMG_CTX_BASE_HI (R299). -/
def QMG_CTX_BASE_HI : Field := ⟨0x10000C, 0, 32, 0⟩
/-- QMG_CTX_BASE_HI.ADDR_HI (R299). -/
def QMG_CTX_BASE_HI_ADDR_HI : Field := ⟨0x10000C, 0, 8, 0⟩
/-- QMG_SPILL_BASE_LO (R299). -/
def QMG_SPILL_BASE_LO : Field := ⟨0x100010, 0, 32, 0⟩
/-- QMG_SPILL_BASE_LO.ADDR_LO (R299). -/
def QMG_SPILL_BASE_LO_ADDR_LO : Field := ⟨0x100010, 0, 32, 0⟩
/-- QMG_SPILL_BASE_HI (R299). -/
def QMG_SPILL_BASE_HI : Field := ⟨0x100014, 0, 32, 0⟩
/-- QMG_SPILL_BASE_HI.ADDR_HI (R299). -/
def QMG_SPILL_BASE_HI_ADDR_HI : Field := ⟨0x100014, 0, 8, 0⟩
/-- QMG_SPILL_LEVEL (R299). -/
def QMG_SPILL_LEVEL : Field := ⟨0x100018, 0, 32, 0⟩
/-- QMG_SPILL_LEVEL.LEVEL (R299). -/
def QMG_SPILL_LEVEL_LEVEL : Field := ⟨0x100018, 0, 13, 0⟩
/-- QMG_LOST_CNT (R299). -/
def QMG_LOST_CNT : Field := ⟨0x10001C, 0, 32, 0⟩
/-- QMG_LOST_CNT.COUNT (R299). -/
def QMG_LOST_CNT_COUNT : Field := ⟨0x10001C, 0, 32, 0⟩
/-- QMG_BAD_DB_CNT (R299). -/
def QMG_BAD_DB_CNT : Field := ⟨0x100020, 0, 32, 0⟩
/-- QMG_BAD_DB_CNT.COUNT (R299). -/
def QMG_BAD_DB_CNT_COUNT : Field := ⟨0x100020, 0, 32, 0⟩
/-- QMG_QCMD (R299). -/
def QMG_QCMD : Field := ⟨0x100040, 0, 32, 0⟩
/-- QMG_QCMD.QUEUE (R299). -/
def QMG_QCMD_QUEUE : Field := ⟨0x100040, 0, 15, 0⟩
/-- QMG_QCMD.OP (R299). -/
def QMG_QCMD_OP : Field := ⟨0x100040, 15, 3, 0⟩
/-- QMG_QCMD.RESULT (R299). -/
def QMG_QCMD_RESULT : Field := ⟨0x100040, 18, 4, 0⟩
/-- QMG_QCMD.BUSY (R299). -/
def QMG_QCMD_BUSY : Field := ⟨0x100040, 22, 1, 0⟩
/-- QMG_QDATA0 (R299). -/
def QMG_QDATA0 : Field := ⟨0x100044, 0, 32, 0⟩
/-- QMG_QDATA0.PRODUCED (R299). -/
def QMG_QDATA0_PRODUCED : Field := ⟨0x100044, 0, 32, 0⟩
/-- QMG_QDATA1 (R299). -/
def QMG_QDATA1 : Field := ⟨0x100048, 0, 32, 0⟩
/-- QMG_QDATA1.CONSUMED (R299). -/
def QMG_QDATA1_CONSUMED : Field := ⟨0x100048, 0, 32, 0⟩
/-- QMG_QDATA2 (R299). -/
def QMG_QDATA2 : Field := ⟨0x10004C, 0, 32, 0⟩
/-- QMG_QDATA2.LOST (R299). -/
def QMG_QDATA2_LOST : Field := ⟨0x10004C, 0, 16, 0⟩
/-- QMG_QDATA2.OVERFLOW (R299). -/
def QMG_QDATA2_OVERFLOW : Field := ⟨0x10004C, 16, 1, 0⟩
/-- QMG_QDATA2.ENABLED (R299). -/
def QMG_QDATA2_ENABLED : Field := ⟨0x10004C, 17, 1, 0⟩
/-- QMG_QDATA3 (R299). -/
def QMG_QDATA3 : Field := ⟨0x100050, 0, 32, 0⟩
/-- QMG_QDATA3.SPILLED (R299). -/
def QMG_QDATA3_SPILLED : Field := ⟨0x100050, 0, 13, 0⟩
/-- DRC_CTRL (R318). -/
def DRC_CTRL : Field := ⟨0x700000, 0, 32, 0⟩
/-- DRC_CTRL.ENABLE (R318). -/
def DRC_CTRL_ENABLE : Field := ⟨0x700000, 0, 1, 0⟩
/-- DRC_CTRL.QUIESCE (R318). -/
def DRC_CTRL_QUIESCE : Field := ⟨0x700000, 1, 1, 0⟩
/-- DRC_CTRL.AUTO_RETIRE (R318). -/
def DRC_CTRL_AUTO_RETIRE : Field := ⟨0x700000, 2, 1, 0⟩
/-- DRC_CTRL.CE_LIMIT (R318). -/
def DRC_CTRL_CE_LIMIT : Field := ⟨0x700000, 8, 8, 0⟩
/-- DRC_CTRL.SCRUB_H (R318). -/
def DRC_CTRL_SCRUB_H : Field := ⟨0x700000, 16, 8, 0⟩
/-- DRC_CFG (R318). -/
def DRC_CFG : Field := ⟨0x700004, 0, 32, 0⟩
/-- DRC_CFG.SPEED (R318). -/
def DRC_CFG_SPEED : Field := ⟨0x700004, 0, 2, 0⟩
/-- DRC_CFG.DENSITY (R318). -/
def DRC_CFG_DENSITY : Field := ⟨0x700004, 2, 2, 0⟩
/-- DRC_CFG.RANKS (R318). -/
def DRC_CFG_RANKS : Field := ⟨0x700004, 4, 1, 0⟩
/-- DRC_CFG.ECC_EN (R318). -/
def DRC_CFG_ECC_EN : Field := ⟨0x700004, 5, 1, 0⟩
/-- DRC_CFG.SPARE_PAGES (R318). -/
def DRC_CFG_SPARE_PAGES : Field := ⟨0x700004, 8, 9, 0⟩
/-- DRC_STATUS (R318). -/
def DRC_STATUS : Field := ⟨0x700008, 0, 32, 0⟩
/-- DRC_STATUS.TRAINED (R318). -/
def DRC_STATUS_TRAINED : Field := ⟨0x700008, 0, 1, 0⟩
/-- DRC_STATUS.SELF_REFRESH (R318). -/
def DRC_STATUS_SELF_REFRESH : Field := ⟨0x700008, 1, 1, 0⟩
/-- DRC_STATUS.UE_LATCH (R318). -/
def DRC_STATUS_UE_LATCH : Field := ⟨0x700008, 2, 1, 0⟩
/-- DRC_STATUS.TEMP_HIGH (R318). -/
def DRC_STATUS_TEMP_HIGH : Field := ⟨0x700008, 3, 1, 0⟩
/-- DRC_STATUS.BUSY (R318). -/
def DRC_STATUS_BUSY : Field := ⟨0x700008, 4, 1, 0⟩
/-- DRC_STATUS.PAIR_OUT (R318). -/
def DRC_STATUS_PAIR_OUT : Field := ⟨0x700008, 8, 1, 0⟩
/-- DRC_STATUS.PAIR (R318). -/
def DRC_STATUS_PAIR : Field := ⟨0x700008, 9, 3, 0⟩
/-- DRC_CAP (R318). -/
def DRC_CAP : Field := ⟨0x70000C, 0, 32, 0⟩
/-- DRC_CAP.USABLE_MIB (R318). -/
def DRC_CAP_USABLE_MIB : Field := ⟨0x70000C, 0, 17, 0⟩
/-- DRC_ECC_CE_CNT (R318). -/
def DRC_ECC_CE_CNT : Field := ⟨0x700010, 0, 32, 0⟩
/-- DRC_ECC_CE_CNT.COUNT (R318). -/
def DRC_ECC_CE_CNT_COUNT : Field := ⟨0x700010, 0, 32, 0⟩
/-- DRC_ECC_UE_CNT (R318). -/
def DRC_ECC_UE_CNT : Field := ⟨0x700014, 0, 32, 0⟩
/-- DRC_ECC_UE_CNT.COUNT (R318). -/
def DRC_ECC_UE_CNT_COUNT : Field := ⟨0x700014, 0, 32, 0⟩
/-- DRC_ERR_LOG (R318). -/
def DRC_ERR_LOG : Field := ⟨0x700018, 0, 64, 0⟩
/-- DRC_ERR_LOG.VALID (R318). -/
def DRC_ERR_LOG_VALID : Field := ⟨0x700018, 0, 1, 0⟩
/-- DRC_ERR_LOG.KIND (R318). -/
def DRC_ERR_LOG_KIND : Field := ⟨0x700018, 1, 2, 0⟩
/-- DRC_ERR_LOG.SOURCE (R318). -/
def DRC_ERR_LOG_SOURCE : Field := ⟨0x700018, 3, 3, 0⟩
/-- DRC_ERR_LOG.BURST (R318). -/
def DRC_ERR_LOG_BURST : Field := ⟨0x700018, 6, 30, 0⟩
/-- DRC_RETIRE_ADDR (R318). -/
def DRC_RETIRE_ADDR : Field := ⟨0x700020, 0, 32, 0⟩
/-- DRC_RETIRE_ADDR.PAGE (R318). -/
def DRC_RETIRE_ADDR_PAGE : Field := ⟨0x700020, 0, 24, 0⟩
/-- DRC_RETIRE_CMD (R318). -/
def DRC_RETIRE_CMD : Field := ⟨0x700024, 0, 32, 0⟩
/-- DRC_RETIRE_CMD.GO (R318). -/
def DRC_RETIRE_CMD_GO : Field := ⟨0x700024, 0, 1, 0⟩
/-- DRC_RETIRE_CMD.FRAME_EN (R318). -/
def DRC_RETIRE_CMD_FRAME_EN : Field := ⟨0x700024, 1, 1, 0⟩
/-- DRC_RETIRE_CMD.ATU_FRAME (R318). -/
def DRC_RETIRE_CMD_ATU_FRAME : Field := ⟨0x700024, 2, 17, 0⟩
/-- DRC_RETIRE_CMD.RESULT (R318). -/
def DRC_RETIRE_CMD_RESULT : Field := ⟨0x700024, 19, 3, 0⟩
/-- DRC_PAIR_CMD (R318). -/
def DRC_PAIR_CMD : Field := ⟨0x700028, 0, 32, 0⟩
/-- DRC_PAIR_CMD.PAIR (R318). -/
def DRC_PAIR_CMD_PAIR : Field := ⟨0x700028, 0, 3, 0⟩
/-- DRC_PAIR_CMD.GO (R318). -/
def DRC_PAIR_CMD_GO : Field := ⟨0x700028, 3, 1, 0⟩
/-- DRC_PAIR_CMD.RESULT (R318). -/
def DRC_PAIR_CMD_RESULT : Field := ⟨0x700028, 4, 3, 0⟩
/-- DRC_TRAIN (R318). -/
def DRC_TRAIN : Field := ⟨0x70002C, 0, 32, 0⟩
/-- DRC_TRAIN.START (R318). -/
def DRC_TRAIN_START : Field := ⟨0x70002C, 0, 1, 0⟩
/-- DRC_TRAIN.RESTORE (R318). -/
def DRC_TRAIN_RESTORE : Field := ⟨0x70002C, 1, 1, 0⟩
/-- DRC_TRAIN.PERIOD_MS (R318). -/
def DRC_TRAIN_PERIOD_MS : Field := ⟨0x70002C, 2, 14, 0⟩
/-- DRC_TRAIN.FAIL (R318). -/
def DRC_TRAIN_FAIL : Field := ⟨0x70002C, 16, 16, 0⟩
/-- DRC_RETIREDn (R318). -/
def DRC_RETIRED : Field := ⟨0x700100, 0, 32, 4⟩
/-- DRC_RETIREDn.PAGE (R318). -/
def DRC_RETIRED_PAGE : Field := ⟨0x700100, 0, 24, 4⟩
/-- DRC_RETIREDn.VALID (R318). -/
def DRC_RETIRED_VALID : Field := ⟨0x700100, 31, 1, 4⟩
/-- GZE_CTRL (R358). -/
def GZE_CTRL : Field := ⟨0x800000, 0, 32, 0⟩
/-- GZE_CTRL.ENABLE (R358). -/
def GZE_CTRL_ENABLE : Field := ⟨0x800000, 0, 1, 0⟩
/-- GZE_STATUS (R358). -/
def GZE_STATUS : Field := ⟨0x800004, 0, 32, 0⟩
/-- GZE_STATUS.RX_LOCK (R358). -/
def GZE_STATUS_RX_LOCK : Field := ⟨0x800004, 0, 8, 0⟩
/-- GZE_STATUS.PKT_ERR (R358). -/
def GZE_STATUS_PKT_ERR : Field := ⟨0x800004, 8, 1, 0⟩
/-- GZE_STATUS.FRAME_FLAG (R358). -/
def GZE_STATUS_FRAME_FLAG : Field := ⟨0x800004, 9, 1, 0⟩
/-- GZE_STATUS.DROP (R358). -/
def GZE_STATUS_DROP : Field := ⟨0x800004, 10, 1, 0⟩
/-- GZE_STATUS.ETH_ERR (R358). -/
def GZE_STATUS_ETH_ERR : Field := ⟨0x800004, 11, 1, 0⟩
/-- GZE_STATUS.SPI_MISSED (R358). -/
def GZE_STATUS_SPI_MISSED : Field := ⟨0x800004, 12, 1, 0⟩
/-- GZE_STATUS.BATCH_BUSY (R358). -/
def GZE_STATUS_BATCH_BUSY : Field := ⟨0x800004, 13, 1, 0⟩
/-- GZE_RX_CNTn (R358). -/
def GZE_RX_CNT : Field := ⟨0x800100, 0, 64, 8⟩
/-- GZE_RX_CNTn.HDR_CORR (R358). -/
def GZE_RX_CNT_HDR_CORR : Field := ⟨0x800100, 0, 16, 8⟩
/-- GZE_RX_CNTn.HDR_DROP (R358). -/
def GZE_RX_CNT_HDR_DROP : Field := ⟨0x800100, 16, 16, 8⟩
/-- GZE_RX_CNTn.CRC_ERR (R358). -/
def GZE_RX_CNT_CRC_ERR : Field := ⟨0x800100, 32, 16, 8⟩
/-- GZE_RX_CNTn.VC_DROP (R358). -/
def GZE_RX_CNT_VC_DROP : Field := ⟨0x800100, 48, 16, 8⟩
/-- GZE_PIPE_CNTn (R358). -/
def GZE_PIPE_CNT : Field := ⟨0x800200, 0, 64, 8⟩
/-- GZE_PIPE_CNTn.FRAMES (R358). -/
def GZE_PIPE_CNT_FRAMES : Field := ⟨0x800200, 0, 32, 8⟩
/-- GZE_PIPE_CNTn.DROPPED (R358). -/
def GZE_PIPE_CNT_DROPPED : Field := ⟨0x800200, 32, 16, 8⟩
/-- GZE_PIPE_CNTn.PATTERN_ERRS (R358). -/
def GZE_PIPE_CNT_PATTERN_ERRS : Field := ⟨0x800200, 48, 16, 8⟩
/-- GZE_ETH_CNTn (R358). -/
def GZE_ETH_CNT : Field := ⟨0x800300, 0, 128, 16⟩
/-- GZE_ETH_CNTn.ACCEPTED (R358). -/
def GZE_ETH_CNT_ACCEPTED : Field := ⟨0x800300, 0, 32, 16⟩
/-- GZE_ETH_CNTn.FCS_ERR (R358). -/
def GZE_ETH_CNT_FCS_ERR : Field := ⟨0x800300, 32, 16, 16⟩
/-- GZE_ETH_CNTn.UNMATCHED (R358). -/
def GZE_ETH_CNT_UNMATCHED : Field := ⟨0x800300, 48, 16, 16⟩
/-- GZE_ETH_CNTn.CSUM_ERR (R358). -/
def GZE_ETH_CNT_CSUM_ERR : Field := ⟨0x800300, 64, 16, 16⟩
/-- GZE_ETH_CNTn.FRAGMENT (R358). -/
def GZE_ETH_CNT_FRAGMENT : Field := ⟨0x800300, 80, 16, 16⟩
/-- GZE_ETH_CNTn.LATE (R358). -/
def GZE_ETH_CNT_LATE : Field := ⟨0x800300, 96, 16, 16⟩
/-- GZE_ETH_CNTn.TRUNCATED (R358). -/
def GZE_ETH_CNT_TRUNCATED : Field := ⟨0x800300, 112, 16, 16⟩
/-- GZE_SPI_CNTn (R358). -/
def GZE_SPI_CNT : Field := ⟨0x800400, 0, 64, 8⟩
/-- GZE_SPI_CNTn.SAMPLES (R358). -/
def GZE_SPI_CNT_SAMPLES : Field := ⟨0x800400, 0, 32, 8⟩
/-- GZE_SPI_CNTn.MISSED (R358). -/
def GZE_SPI_CNT_MISSED : Field := ⟨0x800400, 32, 16, 8⟩
/-- TWD_CTRL (R389). -/
def TWD_CTRL : Field := ⟨0x900000, 0, 32, 0⟩
/-- TWD_CTRL.ENABLE (R389). -/
def TWD_CTRL_ENABLE : Field := ⟨0x900000, 0, 1, 0⟩
/-- TWD_STATUS (R389). -/
def TWD_STATUS : Field := ⟨0x900004, 0, 32, 0⟩
/-- TWD_STATUS.BUSY (R389). -/
def TWD_STATUS_BUSY : Field := ⟨0x900004, 0, 1, 0⟩
/-- TWD_STATUS.MODE (R389). -/
def TWD_STATUS_MODE : Field := ⟨0x900004, 1, 1, 0⟩
/-- TWD_STATUS.TABLE_TORN (R389). -/
def TWD_STATUS_TABLE_TORN : Field := ⟨0x900004, 2, 1, 0⟩
/-- TWD_STATUS.CAL_BAD (R389). -/
def TWD_STATUS_CAL_BAD : Field := ⟨0x900004, 3, 1, 0⟩
/-- TWD_STATUS.DROPPED (R389). -/
def TWD_STATUS_DROPPED : Field := ⟨0x900004, 4, 1, 0⟩
/-- TWD_STATUS.BIRTH_DROP (R389). -/
def TWD_STATUS_BIRTH_DROP : Field := ⟨0x900004, 5, 1, 0⟩
/-- TWD_LAST_EPOCH (R389). -/
def TWD_LAST_EPOCH : Field := ⟨0x900008, 0, 32, 0⟩
/-- TWD_LAST_EPOCH.EPOCH (R389). -/
def TWD_LAST_EPOCH_EPOCH : Field := ⟨0x900008, 0, 32, 0⟩
/-- TWD_T_LAST_LO (R389). -/
def TWD_T_LAST_LO : Field := ⟨0x90000C, 0, 32, 0⟩
/-- TWD_T_LAST_LO.TIME_LO (R389). -/
def TWD_T_LAST_LO_TIME_LO : Field := ⟨0x90000C, 0, 32, 0⟩
/-- TWD_T_LAST_HI (R389). -/
def TWD_T_LAST_HI : Field := ⟨0x900010, 0, 32, 0⟩
/-- TWD_T_LAST_HI.TIME_HI (R389). -/
def TWD_T_LAST_HI_TIME_HI : Field := ⟨0x900010, 0, 32, 0⟩
/-- TWD_LATE_CNT (R389). -/
def TWD_LATE_CNT : Field := ⟨0x900014, 0, 32, 0⟩
/-- TWD_LATE_CNT.COUNT (R389). -/
def TWD_LATE_CNT_COUNT : Field := ⟨0x900014, 0, 32, 0⟩
/-- TWD_STALE_CNT (R389). -/
def TWD_STALE_CNT : Field := ⟨0x900018, 0, 32, 0⟩
/-- TWD_STALE_CNT.COUNT (R389). -/
def TWD_STALE_CNT_COUNT : Field := ⟨0x900018, 0, 32, 0⟩
/-- TWD_CONFLICT_CNT (R389). -/
def TWD_CONFLICT_CNT : Field := ⟨0x90001C, 0, 32, 0⟩
/-- TWD_CONFLICT_CNT.COUNT (R389). -/
def TWD_CONFLICT_CNT_COUNT : Field := ⟨0x90001C, 0, 32, 0⟩
/-- TWD_SKIP_CNT (R389). -/
def TWD_SKIP_CNT : Field := ⟨0x900020, 0, 32, 0⟩
/-- TWD_SKIP_CNT.COUNT (R389). -/
def TWD_SKIP_CNT_COUNT : Field := ⟨0x900020, 0, 32, 0⟩
/-- TWD_BIRTH_DROP_CNT (R389). -/
def TWD_BIRTH_DROP_CNT : Field := ⟨0x900024, 0, 32, 0⟩
/-- TWD_BIRTH_DROP_CNT.COUNT (R389). -/
def TWD_BIRTH_DROP_CNT_COUNT : Field := ⟨0x900024, 0, 32, 0⟩
/-- TWD_TRACK_CMD (R389). -/
def TWD_TRACK_CMD : Field := ⟨0x900040, 0, 32, 0⟩
/-- TWD_TRACK_CMD.ID (R389). -/
def TWD_TRACK_CMD_ID : Field := ⟨0x900040, 0, 16, 0⟩
/-- TWD_TRACK_CMD.OP (R389). -/
def TWD_TRACK_CMD_OP : Field := ⟨0x900040, 16, 2, 0⟩
/-- TWD_TRACK_CMD.RESULT (R389). -/
def TWD_TRACK_CMD_RESULT : Field := ⟨0x900040, 20, 3, 0⟩
/-- TWD_TRACK_CMD.BUSY (R389). -/
def TWD_TRACK_CMD_BUSY : Field := ⟨0x900040, 23, 1, 0⟩
/-- TWD_LIVE (R389). -/
def TWD_LIVE : Field := ⟨0x900044, 0, 32, 0⟩
/-- TWD_LIVE.TRACKS (R389). -/
def TWD_LIVE_TRACKS : Field := ⟨0x900044, 0, 13, 0⟩
/-- TWD_LIVE.CONFIRMED (R389). -/
def TWD_LIVE_CONFIRMED : Field := ⟨0x900044, 13, 13, 0⟩
/-- TUL_CTRL (R416). -/
def TUL_CTRL : Field := ⟨0xA00000, 0, 32, 0⟩
/-- TUL_CTRL.ENABLE (R416). -/
def TUL_CTRL_ENABLE : Field := ⟨0xA00000, 0, 1, 0⟩
/-- TUL_STATUS (R416). -/
def TUL_STATUS : Field := ⟨0xA00004, 0, 32, 0⟩
/-- TUL_STATUS.BUSY (R416). -/
def TUL_STATUS_BUSY : Field := ⟨0xA00004, 0, 1, 0⟩
/-- TUL_STATUS.READY (R416). -/
def TUL_STATUS_READY : Field := ⟨0xA00004, 1, 1, 0⟩
/-- TUL_STATUS.TABLE_BAD (R416). -/
def TUL_STATUS_TABLE_BAD : Field := ⟨0xA00004, 2, 1, 0⟩
/-- TUL_STATUS.NO_VALID (R416). -/
def TUL_STATUS_NO_VALID : Field := ⟨0xA00004, 3, 1, 0⟩
/-- TUL_STATUS.INDEX_FULL (R416). -/
def TUL_STATUS_INDEX_FULL : Field := ⟨0xA00004, 4, 1, 0⟩
/-- TUL_GEN (R416). -/
def TUL_GEN : Field := ⟨0xA00008, 0, 32, 0⟩
/-- TUL_GEN.GEN (R416). -/
def TUL_GEN_GEN : Field := ⟨0xA00008, 0, 16, 0⟩
/-- TUL_TABLE (R416). -/
def TUL_TABLE : Field := ⟨0xA0000C, 0, 32, 0⟩
/-- TUL_TABLE.COUNT (R416). -/
def TUL_TABLE_COUNT : Field := ⟨0xA0000C, 0, 14, 0⟩
/-- TUL_TABLE.HEADINGS (R416). -/
def TUL_TABLE_HEADINGS : Field := ⟨0xA0000C, 14, 6, 0⟩
/-- TUL_INDEX_USED (R416). -/
def TUL_INDEX_USED : Field := ⟨0xA00010, 0, 32, 0⟩
/-- TUL_INDEX_USED.LISTINGS (R416). -/
def TUL_INDEX_USED_LISTINGS : Field := ⟨0xA00010, 0, 21, 0⟩
/-- TUL_PLAN_CNT (R416). -/
def TUL_PLAN_CNT : Field := ⟨0xA00014, 0, 32, 0⟩
/-- TUL_PLAN_CNT.COUNT (R416). -/
def TUL_PLAN_CNT_COUNT : Field := ⟨0xA00014, 0, 32, 0⟩
/-- TUL_CHECK_CNT (R416). -/
def TUL_CHECK_CNT : Field := ⟨0xA00018, 0, 32, 0⟩
/-- TUL_CHECK_CNT.COUNT (R416). -/
def TUL_CHECK_CNT_COUNT : Field := ⟨0xA00018, 0, 32, 0⟩
/-- TUL_RECHECK_FAIL_CNT (R416). -/
def TUL_RECHECK_FAIL_CNT : Field := ⟨0xA0001C, 0, 32, 0⟩
/-- TUL_RECHECK_FAIL_CNT.COUNT (R416). -/
def TUL_RECHECK_FAIL_CNT_COUNT : Field := ⟨0xA0001C, 0, 32, 0⟩
/-- TUL_EDIT_CNT (R416). -/
def TUL_EDIT_CNT : Field := ⟨0xA00020, 0, 32, 0⟩
/-- TUL_EDIT_CNT.COUNT (R416). -/
def TUL_EDIT_CNT_COUNT : Field := ⟨0xA00020, 0, 32, 0⟩
/-- CNV_CTRL (R445). -/
def CNV_CTRL : Field := ⟨0xB00000, 0, 32, 0⟩
/-- CNV_CTRL.ENABLE (R445). -/
def CNV_CTRL_ENABLE : Field := ⟨0xB00000, 0, 1, 0⟩
/-- CNV_CTRL.FAILOVER_EN (R445). -/
def CNV_CTRL_FAILOVER_EN : Field := ⟨0xB00000, 1, 1, 0⟩
/-- CNV_STATUS (R445). -/
def CNV_STATUS : Field := ⟨0xB00004, 0, 32, 0⟩
/-- CNV_STATUS.BUSY (R445). -/
def CNV_STATUS_BUSY : Field := ⟨0xB00004, 0, 1, 0⟩
/-- CNV_STATUS.STATE (R445). -/
def CNV_STATUS_STATE : Field := ⟨0xB00004, 1, 3, 0⟩
/-- CNV_STATUS.STORE_UE (R445). -/
def CNV_STATUS_STORE_UE : Field := ⟨0xB00004, 4, 1, 0⟩
/-- CNV_STATUS.FAILED_OVER (R445). -/
def CNV_STATUS_FAILED_OVER : Field := ⟨0xB00004, 5, 1, 0⟩
/-- CNV_STATUS.KAT_FAIL (R445). -/
def CNV_STATUS_KAT_FAIL : Field := ⟨0xB00004, 6, 1, 0⟩
/-- CNV_STATUS.TEST_PASS (R445). -/
def CNV_STATUS_TEST_PASS : Field := ⟨0xB00004, 7, 1, 0⟩
/-- CNV_STATUS.SLOTS (R445). -/
def CNV_STATUS_SLOTS : Field := ⟨0xB00004, 8, 4, 0⟩
/-- CNV_STATUS.FACTORED (R445). -/
def CNV_STATUS_FACTORED : Field := ⟨0xB00004, 12, 4, 0⟩
/-- CNV_SVC_CMD (R445). -/
def CNV_SVC_CMD : Field := ⟨0xB00008, 0, 32, 0⟩
/-- CNV_SVC_CMD.OP (R445). -/
def CNV_SVC_CMD_OP : Field := ⟨0xB00008, 0, 2, 0⟩
/-- CNV_SVC_CMD.FORCE (R445). -/
def CNV_SVC_CMD_FORCE : Field := ⟨0xB00008, 2, 1, 0⟩
/-- CNV_SVC_CMD.RESULT (R445). -/
def CNV_SVC_CMD_RESULT : Field := ⟨0xB00008, 8, 4, 0⟩
/-- CNV_SVC_CMD.BUSY (R445). -/
def CNV_SVC_CMD_BUSY : Field := ⟨0xB00008, 12, 1, 0⟩
/-- CNV_SOLVE_CNT (R445). -/
def CNV_SOLVE_CNT : Field := ⟨0xB00010, 0, 32, 0⟩
/-- CNV_SOLVE_CNT.COUNT (R445). -/
def CNV_SOLVE_CNT_COUNT : Field := ⟨0xB00010, 0, 32, 0⟩
/-- CNV_PIVOT_CNT (R445). -/
def CNV_PIVOT_CNT : Field := ⟨0xB00014, 0, 32, 0⟩
/-- CNV_PIVOT_CNT.COUNT (R445). -/
def CNV_PIVOT_CNT_COUNT : Field := ⟨0xB00014, 0, 32, 0⟩
/-- CNV_NOCONV_CNT (R445). -/
def CNV_NOCONV_CNT : Field := ⟨0xB00018, 0, 32, 0⟩
/-- CNV_NOCONV_CNT.COUNT (R445). -/
def CNV_NOCONV_CNT_COUNT : Field := ⟨0xB00018, 0, 32, 0⟩
/-- CNV_WARM_IGN_CNT (R445). -/
def CNV_WARM_IGN_CNT : Field := ⟨0xB0001C, 0, 32, 0⟩
/-- CNV_WARM_IGN_CNT.COUNT (R445). -/
def CNV_WARM_IGN_CNT_COUNT : Field := ⟨0xB0001C, 0, 32, 0⟩
/-- CNV_STORE_CE_CNT (R445). -/
def CNV_STORE_CE_CNT : Field := ⟨0xB00020, 0, 32, 0⟩
/-- CNV_STORE_CE_CNT.COUNT (R445). -/
def CNV_STORE_CE_CNT_COUNT : Field := ⟨0xB00020, 0, 32, 0⟩
/-- CNV_FAILOVER_CNT (R445). -/
def CNV_FAILOVER_CNT : Field := ⟨0xB00024, 0, 32, 0⟩
/-- CNV_FAILOVER_CNT.COUNT (R445). -/
def CNV_FAILOVER_CNT_COUNT : Field := ⟨0xB00024, 0, 32, 0⟩
/-- CNV_SLOTs (R445). -/
def CNV_SLOT : Field := ⟨0xB00100, 0, 256, 32⟩
/-- CNV_SLOTs.LOADED (R445). -/
def CNV_SLOT_LOADED : Field := ⟨0xB00100, 0, 1, 32⟩
/-- CNV_SLOTs.FACTORED (R445). -/
def CNV_SLOT_FACTORED : Field := ⟨0xB00100, 1, 1, 32⟩
/-- CNV_SLOTs.N (R445). -/
def CNV_SLOT_N : Field := ⟨0xB00100, 32, 32, 32⟩
/-- CNV_SLOTs.FNNZ (R445). -/
def CNV_SLOT_FNNZ : Field := ⟨0xB00100, 64, 32, 32⟩
/-- CNV_SLOTs.SCHED_OFF (R445). -/
def CNV_SLOT_SCHED_OFF : Field := ⟨0xB00100, 96, 22, 32⟩
/-- CNV_SLOTs.HASH (R445). -/
def CNV_SLOT_HASH : Field := ⟨0xB00100, 128, 64, 32⟩
/-- JRS_CTRL (R470). -/
def JRS_CTRL : Field := ⟨0xD00000, 0, 32, 0⟩
/-- JRS_CTRL.ENABLE (R470). -/
def JRS_CTRL_ENABLE : Field := ⟨0xD00000, 0, 1, 0⟩
/-- JRS_CTRL.IRQ_IN (R470). -/
def JRS_CTRL_IRQ_IN : Field := ⟨0xD00000, 1, 1, 0⟩
/-- JRS_CTRL.IRQ_ACC (R470). -/
def JRS_CTRL_IRQ_ACC : Field := ⟨0xD00000, 2, 1, 0⟩
/-- JRS_CTRL.IRQ_OUT (R470). -/
def JRS_CTRL_IRQ_OUT : Field := ⟨0xD00000, 3, 1, 0⟩
/-- JRS_CTRL.IRQ_SP (R470). -/
def JRS_CTRL_IRQ_SP : Field := ⟨0xD00000, 4, 1, 0⟩
/-- JRS_STATUS (R470). -/
def JRS_STATUS : Field := ⟨0xD00004, 0, 32, 0⟩
/-- JRS_STATUS.RUNNING (R470). -/
def JRS_STATUS_RUNNING : Field := ⟨0xD00004, 0, 1, 0⟩
/-- JRS_STATUS.FLAG_ANY (R470). -/
def JRS_STATUS_FLAG_ANY : Field := ⟨0xD00004, 1, 1, 0⟩
/-- JRS_STATUS.LANE_FAULT (R470). -/
def JRS_STATUS_LANE_FAULT : Field := ⟨0xD00004, 2, 1, 0⟩
/-- JRS_STATUS.SWAP_BUSY (R470). -/
def JRS_STATUS_SWAP_BUSY : Field := ⟨0xD00004, 3, 1, 0⟩
/-- JRS_STATUS.SPARES_FREE (R470). -/
def JRS_STATUS_SPARES_FREE : Field := ⟨0xD00004, 4, 5, 0⟩
/-- JRS_STATUS.LANES_ENABLED (R470). -/
def JRS_STATUS_LANES_ENABLED : Field := ⟨0xD00004, 9, 9, 0⟩
/-- JRS_TICK_CNT (R470). -/
def JRS_TICK_CNT : Field := ⟨0xD00008, 0, 32, 0⟩
/-- JRS_TICK_CNT.COUNT (R470). -/
def JRS_TICK_CNT_COUNT : Field := ⟨0xD00008, 0, 32, 0⟩
/-- JRS_QUEUE_IGN_CNT (R470). -/
def JRS_QUEUE_IGN_CNT : Field := ⟨0xD0000C, 0, 32, 0⟩
/-- JRS_QUEUE_IGN_CNT.COUNT (R470). -/
def JRS_QUEUE_IGN_CNT_COUNT : Field := ⟨0xD0000C, 0, 32, 0⟩
/-- JRS_QUEUE_BAD_CNT (R470). -/
def JRS_QUEUE_BAD_CNT : Field := ⟨0xD00010, 0, 32, 0⟩
/-- JRS_QUEUE_BAD_CNT.COUNT (R470). -/
def JRS_QUEUE_BAD_CNT_COUNT : Field := ⟨0xD00010, 0, 32, 0⟩
/-- JRS_PARITY_CNT (R470). -/
def JRS_PARITY_CNT : Field := ⟨0xD00014, 0, 32, 0⟩
/-- JRS_PARITY_CNT.COUNT (R470). -/
def JRS_PARITY_CNT_COUNT : Field := ⟨0xD00014, 0, 32, 0⟩
/-- JRS_SWAP_CMD (R470). -/
def JRS_SWAP_CMD : Field := ⟨0xD00020, 0, 32, 0⟩
/-- JRS_SWAP_CMD.LANE (R470). -/
def JRS_SWAP_CMD_LANE : Field := ⟨0xD00020, 0, 8, 0⟩
/-- JRS_SWAP_CMD.GO (R470). -/
def JRS_SWAP_CMD_GO : Field := ⟨0xD00020, 8, 1, 0⟩
/-- JRS_SWAP_CMD.RESULT (R470). -/
def JRS_SWAP_CMD_RESULT : Field := ⟨0xD00020, 9, 3, 0⟩
/-- JRS_SWAP_CMD.BUSY (R470). -/
def JRS_SWAP_CMD_BUSY : Field := ⟨0xD00020, 12, 1, 0⟩
/-- JRS_SPAREd (R470). -/
def JRS_SPARE : Field := ⟨0xD00040, 0, 32, 4⟩
/-- JRS_SPAREd.REPLACED (R470). -/
def JRS_SPARE_REPLACED : Field := ⟨0xD00040, 0, 8, 4⟩
/-- JRS_SPAREd.IN_USE (R470). -/
def JRS_SPARE_IN_USE : Field := ⟨0xD00040, 8, 1, 4⟩
/-- JRS_SPAREd.SPARE_BAD (R470). -/
def JRS_SPARE_SPARE_BAD : Field := ⟨0xD00040, 9, 1, 4⟩
/-- JRS_FLAGSn (R470). -/
def JRS_FLAGS : Field := ⟨0xD00100, 0, 32, 4⟩
/-- JRS_FLAGSn.FLAGS (R470). -/
def JRS_FLAGS_FLAGS : Field := ⟨0xD00100, 0, 32, 4⟩
/-- JRS_FAULTn (R470). -/
def JRS_FAULT : Field := ⟨0xD00200, 0, 32, 4⟩
/-- JRS_FAULTn.FAULT (R470). -/
def JRS_FAULT_FAULT : Field := ⟨0xD00200, 0, 32, 4⟩
/-- JRS_PULSE_CNTn (R470). -/
def JRS_PULSE_CNT : Field := ⟨0xD00300, 0, 64, 8⟩
/-- JRS_PULSE_CNTn.COUNT (R470). -/
def JRS_PULSE_CNT_COUNT : Field := ⟨0xD00300, 0, 32, 8⟩
/-- JRS_PULSE_CNTn.ILLEGAL (R470). -/
def JRS_PULSE_CNT_ILLEGAL : Field := ⟨0xD00300, 32, 16, 8⟩
/-- TKU_CMD (R490). -/
def TKU_CMD : Field := ⟨0xE00000, 0, 32, 0⟩
/-- TKU_CMD.OP (R490). -/
def TKU_CMD_OP : Field := ⟨0xE00000, 0, 3, 0⟩
/-- TKU_CMD.FORCE (R490). -/
def TKU_CMD_FORCE : Field := ⟨0xE00000, 3, 1, 0⟩
/-- TKU_CMD.RESULT (R490). -/
def TKU_CMD_RESULT : Field := ⟨0xE00000, 8, 3, 0⟩
/-- TKU_CMD.BUSY (R490). -/
def TKU_CMD_BUSY : Field := ⟨0xE00000, 11, 1, 0⟩
/-- TKU_STATUS (R490). -/
def TKU_STATUS : Field := ⟨0xE00004, 0, 32, 0⟩
/-- TKU_STATUS.STATE (R490). -/
def TKU_STATUS_STATE : Field := ⟨0xE00004, 0, 3, 0⟩
/-- TKU_STATUS.STEPPED (R490). -/
def TKU_STATUS_STEPPED : Field := ⟨0xE00004, 3, 1, 0⟩
/-- TKU_STATUS.JUMP (R490). -/
def TKU_STATUS_JUMP : Field := ⟨0xE00004, 4, 1, 0⟩
/-- TKU_STATUS.TXTS_OVERFLOW (R490). -/
def TKU_STATUS_TXTS_OVERFLOW : Field := ⟨0xE00004, 5, 1, 0⟩
/-- TKU_STATUS.HOLDOVER_SEEN (R490). -/
def TKU_STATUS_HOLDOVER_SEEN : Field := ⟨0xE00004, 6, 1, 0⟩
/-- TKU_STATUS.MASTER_CHANGED (R490). -/
def TKU_STATUS_MASTER_CHANGED : Field := ⟨0xE00004, 7, 1, 0⟩
/-- TKU_STATUS.PTP_STATE (R490). -/
def TKU_STATUS_PTP_STATE : Field := ⟨0xE00004, 8, 3, 0⟩
/-- TKU_TIME_SEC_LO (R490). -/
def TKU_TIME_SEC_LO : Field := ⟨0xE00008, 0, 32, 0⟩
/-- TKU_TIME_SEC_LO.SEC_LO (R490). -/
def TKU_TIME_SEC_LO_SEC_LO : Field := ⟨0xE00008, 0, 32, 0⟩
/-- TKU_TIME_SEC_HI (R490). -/
def TKU_TIME_SEC_HI : Field := ⟨0xE0000C, 0, 32, 0⟩
/-- TKU_TIME_SEC_HI.SEC_HI (R490). -/
def TKU_TIME_SEC_HI_SEC_HI : Field := ⟨0xE0000C, 0, 16, 0⟩
/-- TKU_TIME_NS (R490). -/
def TKU_TIME_NS : Field := ⟨0xE00010, 0, 32, 0⟩
/-- TKU_TIME_NS.NS (R490). -/
def TKU_TIME_NS_NS : Field := ⟨0xE00010, 0, 30, 0⟩
/-- TKU_TIME_FRAC (R490). -/
def TKU_TIME_FRAC : Field := ⟨0xE00014, 0, 32, 0⟩
/-- TKU_TIME_FRAC.FRAC (R490). -/
def TKU_TIME_FRAC_FRAC : Field := ⟨0xE00014, 0, 16, 0⟩
/-- TKU_STEP_LO (R490). -/
def TKU_STEP_LO : Field := ⟨0xE00018, 0, 32, 0⟩
/-- TKU_STEP_LO.STEP_LO (R490). -/
def TKU_STEP_LO_STEP_LO : Field := ⟨0xE00018, 0, 32, 0⟩
/-- TKU_STEP_HI (R490). -/
def TKU_STEP_HI : Field := ⟨0xE0001C, 0, 32, 0⟩
/-- TKU_STEP_HI.STEP_HI (R490). -/
def TKU_STEP_HI_STEP_HI : Field := ⟨0xE0001C, 0, 32, 0⟩
/-- TKU_RATE_ADJ (R490). -/
def TKU_RATE_ADJ : Field := ⟨0xE00020, 0, 32, 0⟩
/-- TKU_RATE_ADJ.RATE_ADJ (R490). -/
def TKU_RATE_ADJ_RATE_ADJ : Field := ⟨0xE00020, 0, 32, 0⟩
/-- TKU_OFFSET_IN_LO (R490). -/
def TKU_OFFSET_IN_LO : Field := ⟨0xE00024, 0, 32, 0⟩
/-- TKU_OFFSET_IN_LO.OFFSET_LO (R490). -/
def TKU_OFFSET_IN_LO_OFFSET_LO : Field := ⟨0xE00024, 0, 32, 0⟩
/-- TKU_OFFSET_IN_HI (R490). -/
def TKU_OFFSET_IN_HI : Field := ⟨0xE00028, 0, 32, 0⟩
/-- TKU_OFFSET_IN_HI.OFFSET_HI (R490). -/
def TKU_OFFSET_IN_HI_OFFSET_HI : Field := ⟨0xE00028, 0, 32, 0⟩
/-- TKU_OFFSET_INTERVAL (R490). -/
def TKU_OFFSET_INTERVAL : Field := ⟨0xE0002C, 0, 32, 0⟩
/-- TKU_OFFSET_INTERVAL.INTERVAL (R490). -/
def TKU_OFFSET_INTERVAL_INTERVAL : Field := ⟨0xE0002C, 0, 24, 0⟩
/-- TKU_LAST_OFFSET_LO (R490). -/
def TKU_LAST_OFFSET_LO : Field := ⟨0xE00030, 0, 32, 0⟩
/-- TKU_LAST_OFFSET_LO.VALUE (R490). -/
def TKU_LAST_OFFSET_LO_VALUE : Field := ⟨0xE00030, 0, 32, 0⟩
/-- TKU_LAST_OFFSET_HI (R490). -/
def TKU_LAST_OFFSET_HI : Field := ⟨0xE00034, 0, 32, 0⟩
/-- TKU_LAST_OFFSET_HI.VALUE (R490). -/
def TKU_LAST_OFFSET_HI_VALUE : Field := ⟨0xE00034, 0, 32, 0⟩
/-- TKU_PENDING_LO (R490). -/
def TKU_PENDING_LO : Field := ⟨0xE00038, 0, 32, 0⟩
/-- TKU_PENDING_LO.VALUE (R490). -/
def TKU_PENDING_LO_VALUE : Field := ⟨0xE00038, 0, 32, 0⟩
/-- TKU_PENDING_HI (R490). -/
def TKU_PENDING_HI : Field := ⟨0xE0003C, 0, 32, 0⟩
/-- TKU_PENDING_HI.VALUE (R490). -/
def TKU_PENDING_HI_VALUE : Field := ⟨0xE0003C, 0, 32, 0⟩
/-- TKU_TXTS0 (R490). -/
def TKU_TXTS0 : Field := ⟨0xE00040, 0, 32, 0⟩
/-- TKU_TXTS0.ID (R490). -/
def TKU_TXTS0_ID : Field := ⟨0xE00040, 0, 16, 0⟩
/-- TKU_TXTS0.PORT (R490). -/
def TKU_TXTS0_PORT : Field := ⟨0xE00040, 16, 1, 0⟩
/-- TKU_TXTS0.VALID (R490). -/
def TKU_TXTS0_VALID : Field := ⟨0xE00040, 17, 1, 0⟩
/-- TKU_TXTS1 (R490). -/
def TKU_TXTS1 : Field := ⟨0xE00044, 0, 32, 0⟩
/-- TKU_TXTS1.NS (R490). -/
def TKU_TXTS1_NS : Field := ⟨0xE00044, 0, 30, 0⟩
/-- TKU_TXTS2 (R490). -/
def TKU_TXTS2 : Field := ⟨0xE00048, 0, 32, 0⟩
/-- TKU_TXTS2.SEC_LO (R490). -/
def TKU_TXTS2_SEC_LO : Field := ⟨0xE00048, 0, 32, 0⟩
/-- TKU_TXTS3 (R490). -/
def TKU_TXTS3 : Field := ⟨0xE0004C, 0, 32, 0⟩
/-- TKU_TXTS3.SEC_HI (R490). -/
def TKU_TXTS3_SEC_HI : Field := ⟨0xE0004C, 0, 16, 0⟩
/-- TKU_TXTS3.FRAC (R490). -/
def TKU_TXTS3_FRAC : Field := ⟨0xE0004C, 16, 16, 0⟩
/-- TKU_TXTS_LEVEL (R490). -/
def TKU_TXTS_LEVEL : Field := ⟨0xE00050, 0, 32, 0⟩
/-- TKU_TXTS_LEVEL.LEVEL (R490). -/
def TKU_TXTS_LEVEL_LEVEL : Field := ⟨0xE00050, 0, 7, 0⟩
/-- TKU_SKIP_CNT (R490). -/
def TKU_SKIP_CNT : Field := ⟨0xE00060, 0, 32, 0⟩
/-- TKU_SKIP_CNT.COUNT (R490). -/
def TKU_SKIP_CNT_COUNT : Field := ⟨0xE00060, 0, 32, 0⟩
/-- TKU_JUMP_CNT (R490). -/
def TKU_JUMP_CNT : Field := ⟨0xE00064, 0, 32, 0⟩
/-- TKU_JUMP_CNT.COUNT (R490). -/
def TKU_JUMP_CNT_COUNT : Field := ⟨0xE00064, 0, 32, 0⟩
/-- TKU_TXTS_DROP_CNT (R490). -/
def TKU_TXTS_DROP_CNT : Field := ⟨0xE00068, 0, 32, 0⟩
/-- TKU_TXTS_DROP_CNT.COUNT (R490). -/
def TKU_TXTS_DROP_CNT_COUNT : Field := ⟨0xE00068, 0, 32, 0⟩
/-- TKU_TXTS_STALE_CNT (R490). -/
def TKU_TXTS_STALE_CNT : Field := ⟨0xE0006C, 0, 32, 0⟩
/-- TKU_TXTS_STALE_CNT.COUNT (R490). -/
def TKU_TXTS_STALE_CNT_COUNT : Field := ⟨0xE0006C, 0, 32, 0⟩
/-- TKU_OFFSET_STALE_CNT (R490). -/
def TKU_OFFSET_STALE_CNT : Field := ⟨0xE00070, 0, 32, 0⟩
/-- TKU_OFFSET_STALE_CNT.COUNT (R490). -/
def TKU_OFFSET_STALE_CNT_COUNT : Field := ⟨0xE00070, 0, 32, 0⟩
/-- TKU_MASTER_CHG_CNT (R490). -/
def TKU_MASTER_CHG_CNT : Field := ⟨0xE00074, 0, 32, 0⟩
/-- TKU_MASTER_CHG_CNT.COUNT (R490). -/
def TKU_MASTER_CHG_CNT_COUNT : Field := ⟨0xE00074, 0, 32, 0⟩
/-- TKU_MASTER_ID0 (R490). -/
def TKU_MASTER_ID0 : Field := ⟨0xE00080, 0, 32, 0⟩
/-- TKU_MASTER_ID0.CLOCK_ID (R490). -/
def TKU_MASTER_ID0_CLOCK_ID : Field := ⟨0xE00080, 0, 32, 0⟩
/-- TKU_MASTER_ID1 (R490). -/
def TKU_MASTER_ID1 : Field := ⟨0xE00084, 0, 32, 0⟩
/-- TKU_MASTER_ID1.CLOCK_ID (R490). -/
def TKU_MASTER_ID1_CLOCK_ID : Field := ⟨0xE00084, 0, 32, 0⟩
/-- TKU_MASTER_ID2 (R490). -/
def TKU_MASTER_ID2 : Field := ⟨0xE00088, 0, 32, 0⟩
/-- TKU_MASTER_ID2.PORT_NUMBER (R490). -/
def TKU_MASTER_ID2_PORT_NUMBER : Field := ⟨0xE00088, 0, 16, 0⟩
/-- ODX_REQ_LEN (R519). -/
def ODX_REQ_LEN : Field := ⟨0x3000000, 0, 32, 0⟩
/-- ODX_REQ_LEN.LENGTH (R519). -/
def ODX_REQ_LEN_LENGTH : Field := ⟨0x3000000, 0, 11, 0⟩
/-- ODX_REQ_TOKEN (R519). -/
def ODX_REQ_TOKEN : Field := ⟨0x3000004, 0, 32, 0⟩
/-- ODX_REQ_TOKEN.TOKEN (R519). -/
def ODX_REQ_TOKEN_TOKEN : Field := ⟨0x3000004, 0, 32, 0⟩
/-- ODX_REQ_TIME_LO (R519). -/
def ODX_REQ_TIME_LO : Field := ⟨0x3000008, 0, 32, 0⟩
/-- ODX_REQ_TIME_LO.TIME_LO (R519). -/
def ODX_REQ_TIME_LO_TIME_LO : Field := ⟨0x3000008, 0, 32, 0⟩
/-- ODX_REQ_TIME_HI (R519). -/
def ODX_REQ_TIME_HI : Field := ⟨0x300000C, 0, 32, 0⟩
/-- ODX_REQ_TIME_HI.TIME_HI (R519). -/
def ODX_REQ_TIME_HI_TIME_HI : Field := ⟨0x300000C, 0, 32, 0⟩
/-- ODX_REQ (R519). -/
def ODX_REQ : Field := ⟨0x3000010, 0, 32, 0⟩
/-- ODX_REQ.OP (R519). -/
def ODX_REQ_OP : Field := ⟨0x3000010, 0, 4, 0⟩
/-- ODX_REQ.SESSION (R519). -/
def ODX_REQ_SESSION : Field := ⟨0x3000010, 4, 4, 0⟩
/-- ODX_REQ.SUBINDEX (R519). -/
def ODX_REQ_SUBINDEX : Field := ⟨0x3000010, 8, 8, 0⟩
/-- ODX_REQ.INDEX (R519). -/
def ODX_REQ_INDEX : Field := ⟨0x3000010, 16, 16, 0⟩
/-- ODX_RSP (R519). -/
def ODX_RSP : Field := ⟨0x3000020, 0, 32, 0⟩
/-- ODX_RSP.STATUS (R519). -/
def ODX_RSP_STATUS : Field := ⟨0x3000020, 0, 16, 0⟩
/-- ODX_RSP.BUSY (R519). -/
def ODX_RSP_BUSY : Field := ⟨0x3000020, 16, 1, 0⟩
/-- ODX_RSP.LENGTH (R519). -/
def ODX_RSP_LENGTH : Field := ⟨0x3000020, 17, 11, 0⟩
/-- ODX_RSP_HINT (R519). -/
def ODX_RSP_HINT : Field := ⟨0x3000024, 0, 32, 0⟩
/-- ODX_RSP_HINT.HINT_US (R519). -/
def ODX_RSP_HINT_HINT_US : Field := ⟨0x3000024, 0, 32, 0⟩
/-- ODX_RSP_SEQ_LO (R519). -/
def ODX_RSP_SEQ_LO : Field := ⟨0x3000028, 0, 32, 0⟩
/-- ODX_RSP_SEQ_LO.SEQ_LO (R519). -/
def ODX_RSP_SEQ_LO_SEQ_LO : Field := ⟨0x3000028, 0, 32, 0⟩
/-- ODX_RSP_SEQ_HI (R519). -/
def ODX_RSP_SEQ_HI : Field := ⟨0x300002C, 0, 32, 0⟩
/-- ODX_RSP_SEQ_HI.SEQ_HI (R519). -/
def ODX_RSP_SEQ_HI_SEQ_HI : Field := ⟨0x300002C, 0, 32, 0⟩
/-- ODX_STATUS (R519). -/
def ODX_STATUS : Field := ⟨0x3000030, 0, 32, 0⟩
/-- ODX_STATUS.STORE_UE (R519). -/
def ODX_STATUS_STORE_UE : Field := ⟨0x3000030, 0, 1, 0⟩
/-- ODX_STATUS.SESSIONS (R519). -/
def ODX_STATUS_SESSIONS : Field := ⟨0x3000030, 1, 8, 0⟩
/-- ODX_STATUS.IMPLICIT (R519). -/
def ODX_STATUS_IMPLICIT : Field := ⟨0x3000030, 9, 7, 0⟩
/-- ODX_BUSY_CNT (R519). -/
def ODX_BUSY_CNT : Field := ⟨0x3000034, 0, 32, 0⟩
/-- ODX_BUSY_CNT.COUNT (R519). -/
def ODX_BUSY_CNT_COUNT : Field := ⟨0x3000034, 0, 32, 0⟩
/-- ODX_DUP_CNT (R519). -/
def ODX_DUP_CNT : Field := ⟨0x3000038, 0, 32, 0⟩
/-- ODX_DUP_CNT.COUNT (R519). -/
def ODX_DUP_CNT_COUNT : Field := ⟨0x3000038, 0, 32, 0⟩
/-- ODX_REFUSED_CNT (R519). -/
def ODX_REFUSED_CNT : Field := ⟨0x300003C, 0, 32, 0⟩
/-- ODX_REFUSED_CNT.COUNT (R519). -/
def ODX_REFUSED_CNT_COUNT : Field := ⟨0x300003C, 0, 32, 0⟩
/-- ODX_DATAn (R519). -/
def ODX_DATA : Field := ⟨0x3000400, 0, 32, 4⟩
/-- ODX_DATAn.DATA (R519). -/
def ODX_DATA_DATA : Field := ⟨0x3000400, 0, 32, 4⟩
/-- KPR_STATUS (R519). -/
def KPR_STATUS : Field := ⟨0x1300000, 0, 32, 0⟩
/-- KPR_STATUS.FLASH_OK (R519). -/
def KPR_STATUS_FLASH_OK : Field := ⟨0x1300000, 0, 1, 0⟩
/-- KPR_STATUS.MIRROR_LOST (R519). -/
def KPR_STATUS_MIRROR_LOST : Field := ⟨0x1300000, 1, 1, 0⟩
/-- KPR_STATUS.SAVE_BUSY (R519). -/
def KPR_STATUS_SAVE_BUSY : Field := ⟨0x1300000, 2, 1, 0⟩
/-- KPR_STATUS.TAG_FAIL (R519). -/
def KPR_STATUS_TAG_FAIL : Field := ⟨0x1300000, 3, 1, 0⟩
/-- KPR_STATUS.IMAGE_SKIPPED (R519). -/
def KPR_STATUS_IMAGE_SKIPPED : Field := ⟨0x1300000, 4, 12, 0⟩
/-- FLD_CTRL (R543). -/
def FLD_CTRL : Field := ⟨0xF00000, 0, 32, 0⟩
/-- FLD_CTRL.ENABLE (R543). -/
def FLD_CTRL_ENABLE : Field := ⟨0xF00000, 0, 1, 0⟩
/-- FLD_STATUS (R543). -/
def FLD_STATUS : Field := ⟨0xF00004, 0, 32, 0⟩
/-- FLD_STATUS.LINK_UP (R543). -/
def FLD_STATUS_LINK_UP : Field := ⟨0xF00004, 0, 2, 0⟩
/-- FLD_STATUS.PREEMPT_ACTIVE (R543). -/
def FLD_STATUS_PREEMPT_ACTIVE : Field := ⟨0xF00004, 2, 2, 0⟩
/-- FLD_STATUS.NODE_LOST (R543). -/
def FLD_STATUS_NODE_LOST : Field := ⟨0xF00004, 4, 1, 0⟩
/-- FLD_STATUS.CYCLE_FAIL (R543). -/
def FLD_STATUS_CYCLE_FAIL : Field := ⟨0xF00004, 5, 1, 0⟩
/-- FLD_STATUS.HOST_DROP (R543). -/
def FLD_STATUS_HOST_DROP : Field := ⟨0xF00004, 6, 1, 0⟩
/-- FLD_STATUS.CAN_BUS_OFF (R543). -/
def FLD_STATUS_CAN_BUS_OFF : Field := ⟨0xF00004, 7, 1, 0⟩
/-- FLD_CYCLE (R543). -/
def FLD_CYCLE : Field := ⟨0xF00008, 0, 32, 0⟩
/-- FLD_CYCLE.CYCLE (R543). -/
def FLD_CYCLE_CYCLE : Field := ⟨0xF00008, 0, 32, 0⟩
/-- FLD_NODE_LOSTm (R543). -/
def FLD_NODE_LOST : Field := ⟨0xF00010, 0, 32, 4⟩
/-- FLD_NODE_LOSTm.LOST (R543). -/
def FLD_NODE_LOST_LOST : Field := ⟨0xF00010, 0, 32, 4⟩
/-- FLD_PORTn_CNT (R543). -/
def FLD_PORT_CNT : Field := ⟨0xF00100, 0, 256, 32⟩
/-- FLD_PORTn_CNT.RX_FRAMES (R543). -/
def FLD_PORT_CNT_RX_FRAMES : Field := ⟨0xF00100, 0, 32, 32⟩
/-- FLD_PORTn_CNT.TX_FRAMES (R543). -/
def FLD_PORT_CNT_TX_FRAMES : Field := ⟨0xF00100, 32, 32, 32⟩
/-- FLD_PORTn_CNT.FCS_ERR (R543). -/
def FLD_PORT_CNT_FCS_ERR : Field := ⟨0xF00100, 64, 16, 32⟩
/-- FLD_PORTn_CNT.QCI_DROP (R543). -/
def FLD_PORT_CNT_QCI_DROP : Field := ⟨0xF00100, 80, 16, 32⟩
/-- FLD_PORTn_CNT.HOST_RX_DROP (R543). -/
def FLD_PORT_CNT_HOST_RX_DROP : Field := ⟨0xF00100, 96, 16, 32⟩
/-- FLD_PORTn_CNT.HOST_TX_DROP (R543). -/
def FLD_PORT_CNT_HOST_TX_DROP : Field := ⟨0xF00100, 112, 16, 32⟩
/-- FLD_PORTn_CNT.IN_MISSING (R543). -/
def FLD_PORT_CNT_IN_MISSING : Field := ⟨0xF00100, 128, 16, 32⟩
/-- FLD_PORTn_CNT.IN_BAD (R543). -/
def FLD_PORT_CNT_IN_BAD : Field := ⟨0xF00100, 144, 16, 32⟩
/-- FLD_PORTn_CNT.OUT_LATE (R543). -/
def FLD_PORT_CNT_OUT_LATE : Field := ⟨0xF00100, 160, 16, 32⟩
/-- FLD_PORTn_CNT.NO_SYNC (R543). -/
def FLD_PORT_CNT_NO_SYNC : Field := ⟨0xF00100, 176, 16, 32⟩
/-- FLD_HTXn_BASE_LO (R543). -/
def FLD_HTX_BASE_LO : Field := ⟨0xF00200, 0, 32, 64⟩
/-- FLD_HTXn_BASE_LO.ADDR_LO (R543). -/
def FLD_HTX_BASE_LO_ADDR_LO : Field := ⟨0xF00200, 0, 32, 64⟩
/-- FLD_HTXn_BASE_HI (R543). -/
def FLD_HTX_BASE_HI : Field := ⟨0xF00204, 0, 32, 64⟩
/-- FLD_HTXn_BASE_HI.ADDR_HI (R543). -/
def FLD_HTX_BASE_HI_ADDR_HI : Field := ⟨0xF00204, 0, 8, 64⟩
/-- FLD_HTXn_CFG (R543). -/
def FLD_HTX_CFG : Field := ⟨0xF00208, 0, 32, 64⟩
/-- FLD_HTXn_CFG.ENABLE (R543). -/
def FLD_HTX_CFG_ENABLE : Field := ⟨0xF00208, 0, 1, 64⟩
/-- FLD_HTXn_CFG.SIZE (R543). -/
def FLD_HTX_CFG_SIZE : Field := ⟨0xF00208, 1, 4, 64⟩
/-- FLD_HTXn_PROD (R543). -/
def FLD_HTX_PROD : Field := ⟨0xF0020C, 0, 32, 64⟩
/-- FLD_HTXn_PROD.PROD (R543). -/
def FLD_HTX_PROD_PROD : Field := ⟨0xF0020C, 0, 32, 64⟩
/-- FLD_HTXn_CONS (R543). -/
def FLD_HTX_CONS : Field := ⟨0xF00210, 0, 32, 64⟩
/-- FLD_HTXn_CONS.CONS (R543). -/
def FLD_HTX_CONS_CONS : Field := ⟨0xF00210, 0, 32, 64⟩
/-- FLD_HRXn_BASE_LO (R543). -/
def FLD_HRX_BASE_LO : Field := ⟨0xF00220, 0, 32, 64⟩
/-- FLD_HRXn_BASE_LO.ADDR_LO (R543). -/
def FLD_HRX_BASE_LO_ADDR_LO : Field := ⟨0xF00220, 0, 32, 64⟩
/-- FLD_HRXn_BASE_HI (R543). -/
def FLD_HRX_BASE_HI : Field := ⟨0xF00224, 0, 32, 64⟩
/-- FLD_HRXn_BASE_HI.ADDR_HI (R543). -/
def FLD_HRX_BASE_HI_ADDR_HI : Field := ⟨0xF00224, 0, 8, 64⟩
/-- FLD_HRXn_CFG (R543). -/
def FLD_HRX_CFG : Field := ⟨0xF00228, 0, 32, 64⟩
/-- FLD_HRXn_CFG.ENABLE (R543). -/
def FLD_HRX_CFG_ENABLE : Field := ⟨0xF00228, 0, 1, 64⟩
/-- FLD_HRXn_CFG.SIZE (R543). -/
def FLD_HRX_CFG_SIZE : Field := ⟨0xF00228, 1, 4, 64⟩
/-- FLD_HRXn_PROD (R543). -/
def FLD_HRX_PROD : Field := ⟨0xF0022C, 0, 32, 64⟩
/-- FLD_HRXn_PROD.PROD (R543). -/
def FLD_HRX_PROD_PROD : Field := ⟨0xF0022C, 0, 32, 64⟩
/-- FLD_HRXn_CONS (R543). -/
def FLD_HRX_CONS : Field := ⟨0xF00230, 0, 32, 64⟩
/-- FLD_HRXn_CONS.CONS (R543). -/
def FLD_HRX_CONS_CONS : Field := ⟨0xF00230, 0, 32, 64⟩
/-- FLD_CANc (R543). -/
def FLD_CAN : Field := ⟨0xF00400, 0, 128, 16⟩
/-- FLD_CANc.TEC (R543). -/
def FLD_CAN_TEC : Field := ⟨0xF00400, 0, 8, 16⟩
/-- FLD_CANc.REC (R543). -/
def FLD_CAN_REC : Field := ⟨0xF00400, 8, 8, 16⟩
/-- FLD_CANc.STATE (R543). -/
def FLD_CAN_STATE : Field := ⟨0xF00400, 16, 2, 16⟩
/-- FLD_CANc.LAST_STATUS (R543). -/
def FLD_CAN_LAST_STATUS : Field := ⟨0xF00400, 32, 16, 16⟩
/-- FLD_CANc.ABORTS (R543). -/
def FLD_CAN_ABORTS : Field := ⟨0xF00400, 48, 16, 16⟩
/-- FLD_CANc.SDO_REQS (R543). -/
def FLD_CAN_SDO_REQS : Field := ⟨0xF00400, 64, 32, 16⟩
/-- FLD_CANc.IGNORED (R543). -/
def FLD_CAN_IGNORED : Field := ⟨0xF00400, 96, 16, 16⟩
/-- PWR_STATUS (R567). -/
def PWR_STATUS : Field := ⟨0x1100000, 0, 32, 0⟩
/-- PWR_STATUS.OP (R567). -/
def PWR_STATUS_OP : Field := ⟨0x1100000, 0, 3, 0⟩
/-- PWR_STATUS.SUSPECT (R567). -/
def PWR_STATUS_SUSPECT : Field := ⟨0x1100000, 3, 1, 0⟩
/-- PWR_STATUS.OVER_CAP (R567). -/
def PWR_STATUS_OVER_CAP : Field := ⟨0x1100000, 4, 1, 0⟩
/-- PWR_STATUS.THERMAL_THROTTLE (R567). -/
def PWR_STATUS_THERMAL_THROTTLE : Field := ⟨0x1100000, 5, 1, 0⟩
/-- PWR_STATUS.OVER_TEMP (R567). -/
def PWR_STATUS_OVER_TEMP : Field := ⟨0x1100000, 6, 1, 0⟩
/-- PWR_STATUS.TRIP (R567). -/
def PWR_STATUS_TRIP : Field := ⟨0x1100000, 7, 1, 0⟩
/-- PWR_STATUS.MEAS_LOST (R567). -/
def PWR_STATUS_MEAS_LOST : Field := ⟨0x1100000, 8, 1, 0⟩
/-- PWR_STATUS.ISLAND_STALL (R567). -/
def PWR_STATUS_ISLAND_STALL : Field := ⟨0x1100000, 9, 1, 0⟩
/-- PWR_STATUS.DEVICE_STATE (R567). -/
def PWR_STATUS_DEVICE_STATE : Field := ⟨0x1100000, 10, 2, 0⟩
/-- PWR_CREDITS (R567). -/
def PWR_CREDITS : Field := ⟨0x1100004, 0, 32, 0⟩
/-- PWR_CREDITS.CREDITS (R567). -/
def PWR_CREDITS_CREDITS : Field := ⟨0x1100004, 0, 7, 0⟩
/-- PWR_CREDITS.CAP_CREDITS (R567). -/
def PWR_CREDITS_CAP_CREDITS : Field := ⟨0x1100004, 8, 7, 0⟩
/-- PWR_CREDITS.THERM_CREDITS (R567). -/
def PWR_CREDITS_THERM_CREDITS : Field := ⟨0x1100004, 16, 7, 0⟩
/-- PWR_STALL (R567). -/
def PWR_STALL : Field := ⟨0x1100008, 0, 32, 0⟩
/-- PWR_STALL.ISLAND (R567). -/
def PWR_STALL_ISLAND : Field := ⟨0x1100008, 0, 7, 0⟩
/-- PWR_STALL.VALID (R567). -/
def PWR_STALL_VALID : Field := ⟨0x1100008, 31, 1, 0⟩
/-- PWR_CMD (R567). -/
def PWR_CMD : Field := ⟨0x110000C, 0, 32, 0⟩
/-- PWR_CMD.OP (R567). -/
def PWR_CMD_OP : Field := ⟨0x110000C, 0, 2, 0⟩
/-- PWR_CMD.WAKE_PIN (R567). -/
def PWR_CMD_WAKE_PIN : Field := ⟨0x110000C, 2, 1, 0⟩
/-- PWR_CMD.WAKE_TIME (R567). -/
def PWR_CMD_WAKE_TIME : Field := ⟨0x110000C, 3, 1, 0⟩
/-- PWR_CMD.RESULT (R567). -/
def PWR_CMD_RESULT : Field := ⟨0x110000C, 8, 3, 0⟩
/-- PWR_WAKE_AT_LO (R567). -/
def PWR_WAKE_AT_LO : Field := ⟨0x1100010, 0, 32, 0⟩
/-- PWR_WAKE_AT_LO.TIME_LO (R567). -/
def PWR_WAKE_AT_LO_TIME_LO : Field := ⟨0x1100010, 0, 32, 0⟩
/-- PWR_WAKE_AT_HI (R567). -/
def PWR_WAKE_AT_HI : Field := ⟨0x1100014, 0, 32, 0⟩
/-- PWR_WAKE_AT_HI.TIME_HI (R567). -/
def PWR_WAKE_AT_HI_TIME_HI : Field := ⟨0x1100014, 0, 32, 0⟩
/-- PWR_EST_W (R567). -/
def PWR_EST_W : Field := ⟨0x1100020, 0, 32, 0⟩
/-- PWR_EST_W.VALUE (R567). -/
def PWR_EST_W_VALUE : Field := ⟨0x1100020, 0, 32, 0⟩
/-- PWR_MEAS_W (R567). -/
def PWR_MEAS_W : Field := ⟨0x1100024, 0, 32, 0⟩
/-- PWR_MEAS_W.VALUE (R567). -/
def PWR_MEAS_W_VALUE : Field := ⟨0x1100024, 0, 32, 0⟩
/-- PWR_TJ (R567). -/
def PWR_TJ : Field := ⟨0x1100028, 0, 32, 0⟩
/-- PWR_TJ.VALUE (R567). -/
def PWR_TJ_VALUE : Field := ⟨0x1100028, 0, 32, 0⟩
/-- PWR_DOMAIN_STATE0 (R567). -/
def PWR_DOMAIN_STATE0 : Field := ⟨0x1100030, 0, 32, 0⟩
/-- PWR_DOMAIN_STATE0.STATE (R567). -/
def PWR_DOMAIN_STATE0_STATE : Field := ⟨0x1100030, 0, 32, 0⟩
/-- PWR_DOMAIN_STATE1 (R567). -/
def PWR_DOMAIN_STATE1 : Field := ⟨0x1100034, 0, 32, 0⟩
/-- PWR_DOMAIN_STATE1.STATE (R567). -/
def PWR_DOMAIN_STATE1_STATE : Field := ⟨0x1100034, 0, 16, 0⟩
/-- PWR_THROTTLE_CNT (R567). -/
def PWR_THROTTLE_CNT : Field := ⟨0x1100040, 0, 32, 0⟩
/-- PWR_THROTTLE_CNT.COUNT (R567). -/
def PWR_THROTTLE_CNT_COUNT : Field := ⟨0x1100040, 0, 32, 0⟩
/-- PWR_STEADY_PERTURBED_CNT (R567). -/
def PWR_STEADY_PERTURBED_CNT : Field := ⟨0x1100044, 0, 32, 0⟩
/-- PWR_STEADY_PERTURBED_CNT.COUNT (R567). -/
def PWR_STEADY_PERTURBED_CNT_COUNT : Field := ⟨0x1100044, 0, 32, 0⟩
/-- PWR_OVER_CAP_CNT (R567). -/
def PWR_OVER_CAP_CNT : Field := ⟨0x1100048, 0, 32, 0⟩
/-- PWR_OVER_CAP_CNT.COUNT (R567). -/
def PWR_OVER_CAP_CNT_COUNT : Field := ⟨0x1100048, 0, 32, 0⟩
/-- PWR_SUSPECT_CNT (R567). -/
def PWR_SUSPECT_CNT : Field := ⟨0x110004C, 0, 32, 0⟩
/-- PWR_SUSPECT_CNT.COUNT (R567). -/
def PWR_SUSPECT_CNT_COUNT : Field := ⟨0x110004C, 0, 32, 0⟩
/-- PWR_MEAS_FAIL_CNT (R567). -/
def PWR_MEAS_FAIL_CNT : Field := ⟨0x1100050, 0, 32, 0⟩
/-- PWR_MEAS_FAIL_CNT.COUNT (R567). -/
def PWR_MEAS_FAIL_CNT_COUNT : Field := ⟨0x1100050, 0, 32, 0⟩
/-- PWR_OP_CHG_CNT (R567). -/
def PWR_OP_CHG_CNT : Field := ⟨0x1100054, 0, 32, 0⟩
/-- PWR_OP_CHG_CNT.COUNT (R567). -/
def PWR_OP_CHG_CNT_COUNT : Field := ⟨0x1100054, 0, 32, 0⟩
/-- GNG_STATUS (R595). -/
def GNG_STATUS : Field := ⟨0x1000000, 0, 32, 0⟩
/-- GNG_STATUS.ENABLED (R595). -/
def GNG_STATUS_ENABLED : Field := ⟨0x1000000, 0, 1, 0⟩
/-- GNG_STATUS.SAFE (R595). -/
def GNG_STATUS_SAFE : Field := ⟨0x1000000, 1, 1, 0⟩
/-- GNG_STATUS.LATCHED (R595). -/
def GNG_STATUS_LATCHED : Field := ⟨0x1000000, 2, 1, 0⟩
/-- GNG_STATUS.HB_RUNNING (R595). -/
def GNG_STATUS_HB_RUNNING : Field := ⟨0x1000000, 3, 1, 0⟩
/-- GNG_FAULT (R595). -/
def GNG_FAULT : Field := ⟨0x1000004, 0, 32, 0⟩
/-- GNG_FAULT.DISAGREE (R595). -/
def GNG_FAULT_DISAGREE : Field := ⟨0x1000004, 0, 1, 0⟩
/-- GNG_FAULT.TEST_FAIL (R595). -/
def GNG_FAULT_TEST_FAIL : Field := ⟨0x1000004, 1, 1, 0⟩
/-- GNG_FAULT.TEST_MISSED (R595). -/
def GNG_FAULT_TEST_MISSED : Field := ⟨0x1000004, 2, 1, 0⟩
/-- GNG_FAULT.MIRROR_LOST (R595). -/
def GNG_FAULT_MIRROR_LOST : Field := ⟨0x1000004, 3, 1, 0⟩
/-- GNG_FAULT.SELF_TEST (R595). -/
def GNG_FAULT_SELF_TEST : Field := ⟨0x1000004, 4, 1, 0⟩
/-- GNG_FAULT.FIRST_NET (R595). -/
def GNG_FAULT_FIRST_NET : Field := ⟨0x1000004, 8, 3, 0⟩
/-- GNG_VERDICT_LO (R595). -/
def GNG_VERDICT_LO : Field := ⟨0x1000008, 0, 32, 0⟩
/-- GNG_VERDICT_LO.WORD_LO (R595). -/
def GNG_VERDICT_LO_WORD_LO : Field := ⟨0x1000008, 0, 32, 0⟩
/-- GNG_VERDICT_HI (R595). -/
def GNG_VERDICT_HI : Field := ⟨0x100000C, 0, 32, 0⟩
/-- GNG_VERDICT_HI.WORD_HI (R595). -/
def GNG_VERDICT_HI_WORD_HI : Field := ⟨0x100000C, 0, 32, 0⟩
/-- GNG_FRAME_CNT (R595). -/
def GNG_FRAME_CNT : Field := ⟨0x1000010, 0, 32, 0⟩
/-- GNG_FRAME_CNT.COUNT (R595). -/
def GNG_FRAME_CNT_COUNT : Field := ⟨0x1000010, 0, 32, 0⟩
/-- GNG_DISAGREE_CNT (R595). -/
def GNG_DISAGREE_CNT : Field := ⟨0x1000014, 0, 32, 0⟩
/-- GNG_DISAGREE_CNT.COUNT (R595). -/
def GNG_DISAGREE_CNT_COUNT : Field := ⟨0x1000014, 0, 32, 0⟩
/-- GNG_DEADLINE_CNT (R595). -/
def GNG_DEADLINE_CNT : Field := ⟨0x1000018, 0, 32, 0⟩
/-- GNG_DEADLINE_CNT.COUNT (R595). -/
def GNG_DEADLINE_CNT_COUNT : Field := ⟨0x1000018, 0, 32, 0⟩
/-- GNG_SENSOR_CNT (R595). -/
def GNG_SENSOR_CNT : Field := ⟨0x100001C, 0, 32, 0⟩
/-- GNG_SENSOR_CNT.COUNT (R595). -/
def GNG_SENSOR_CNT_COUNT : Field := ⟨0x100001C, 0, 32, 0⟩
/-- GNG_TEST_MISSED_CNT (R595). -/
def GNG_TEST_MISSED_CNT : Field := ⟨0x1000020, 0, 32, 0⟩
/-- GNG_TEST_MISSED_CNT.COUNT (R595). -/
def GNG_TEST_MISSED_CNT_COUNT : Field := ⟨0x1000020, 0, 32, 0⟩
/-- GNG_NETn (R595). -/
def GNG_NET : Field := ⟨0x1000100, 0, 128, 16⟩
/-- GNG_NETn.STATE (R595). -/
def GNG_NET_STATE : Field := ⟨0x1000100, 0, 2, 16⟩
/-- GNG_NETn.BAND_BAD (R595). -/
def GNG_NET_BAND_BAD : Field := ⟨0x1000100, 2, 1, 16⟩
/-- GNG_NETn.STALE (R595). -/
def GNG_NET_STALE : Field := ⟨0x1000100, 3, 1, 16⟩
/-- GNG_NETn.DIS_HIST (R595). -/
def GNG_NET_DIS_HIST : Field := ⟨0x1000100, 8, 8, 16⟩
/-- GNG_NETn.MISSES (R595). -/
def GNG_NET_MISSES : Field := ⟨0x1000100, 16, 7, 16⟩
/-- GNG_NETn.FRAME (R595). -/
def GNG_NET_FRAME : Field := ⟨0x1000100, 32, 32, 16⟩
/-- GNG_NETn.MISS_HIST (R595). -/
def GNG_NET_MISS_HIST : Field := ⟨0x1000100, 64, 64, 16⟩
/-- BUP_CMD (R626). -/
def BUP_CMD : Field := ⟨0x1200000, 0, 32, 0⟩
/-- BUP_CMD.STAGE (R626). -/
def BUP_CMD_STAGE : Field := ⟨0x1200000, 0, 4, 0⟩
/-- BUP_CMD.GO (R626). -/
def BUP_CMD_GO : Field := ⟨0x1200000, 4, 1, 0⟩
/-- BUP_CMD.QUICK (R626). -/
def BUP_CMD_QUICK : Field := ⟨0x1200000, 5, 1, 0⟩
/-- BUP_CMD.ABORT (R626). -/
def BUP_CMD_ABORT : Field := ⟨0x1200000, 6, 1, 0⟩
/-- BUP_CMD.RESULT (R626). -/
def BUP_CMD_RESULT : Field := ⟨0x1200000, 8, 3, 0⟩
/-- BUP_CMD.BUSY (R626). -/
def BUP_CMD_BUSY : Field := ⟨0x1200000, 11, 1, 0⟩
/-- BUP_STATUS (R626). -/
def BUP_STATUS : Field := ⟨0x1200004, 0, 32, 0⟩
/-- BUP_STATUS.CUR_STAGE (R626). -/
def BUP_STATUS_CUR_STAGE : Field := ⟨0x1200004, 0, 4, 0⟩
/-- BUP_STATUS.LAST_PASSED (R626). -/
def BUP_STATUS_LAST_PASSED : Field := ⟨0x1200004, 4, 4, 0⟩
/-- BUP_STATUS.READY (R626). -/
def BUP_STATUS_READY : Field := ⟨0x1200004, 8, 1, 0⟩
/-- BUP_STATUS.DEGRADED (R626). -/
def BUP_STATUS_DEGRADED : Field := ⟨0x1200004, 9, 1, 0⟩
/-- BUP_STATUS.ALL_COLD (R626). -/
def BUP_STATUS_ALL_COLD : Field := ⟨0x1200004, 10, 1, 0⟩
/-- BUP_STATUS.WAKE_RESTART (R626). -/
def BUP_STATUS_WAKE_RESTART : Field := ⟨0x1200004, 11, 1, 0⟩
/-- BUP_STATUS.NEW_COUNT (R626). -/
def BUP_STATUS_NEW_COUNT : Field := ⟨0x1200004, 16, 7, 0⟩
/-- BUP_ELAPSED_MS (R626). -/
def BUP_ELAPSED_MS : Field := ⟨0x1200008, 0, 32, 0⟩
/-- BUP_ELAPSED_MS.MS (R626). -/
def BUP_ELAPSED_MS_MS : Field := ⟨0x1200008, 0, 32, 0⟩
/-- BUP_DETAILn (R626). -/
def BUP_DETAIL : Field := ⟨0x1200010, 0, 32, 4⟩
/-- BUP_DETAILn.DETAIL (R626). -/
def BUP_DETAIL_DETAIL : Field := ⟨0x1200010, 0, 32, 4⟩
/-- BUP_KAT_PASS (R626). -/
def BUP_KAT_PASS : Field := ⟨0x1200020, 0, 32, 0⟩
/-- BUP_KAT_PASS.UNITS (R626). -/
def BUP_KAT_PASS_UNITS : Field := ⟨0x1200020, 0, 27, 0⟩
/-- BUP_KAT_FAIL (R626). -/
def BUP_KAT_FAIL : Field := ⟨0x1200024, 0, 32, 0⟩
/-- BUP_KAT_FAIL.UNITS (R626). -/
def BUP_KAT_FAIL_UNITS : Field := ⟨0x1200024, 0, 27, 0⟩
/-- BUP_REC_LO (R626). -/
def BUP_REC_LO : Field := ⟨0x1200030, 0, 32, 0⟩
/-- BUP_REC_LO.DATA_LO (R626). -/
def BUP_REC_LO_DATA_LO : Field := ⟨0x1200030, 0, 32, 0⟩
/-- BUP_REC_HI (R626). -/
def BUP_REC_HI : Field := ⟨0x1200034, 0, 32, 0⟩
/-- BUP_REC_HI.DATA_HI (R626). -/
def BUP_REC_HI_DATA_HI : Field := ⟨0x1200034, 0, 32, 0⟩
/-- BUP_REC_CMD (R626). -/
def BUP_REC_CMD : Field := ⟨0x1200038, 0, 32, 0⟩
/-- BUP_REC_CMD.KIND (R626). -/
def BUP_REC_CMD_KIND : Field := ⟨0x1200038, 0, 8, 0⟩
/-- BUP_REC_CMD.REMOVE (R626). -/
def BUP_REC_CMD_REMOVE : Field := ⟨0x1200038, 8, 1, 0⟩
/-- BUP_REC_CMD.GO (R626). -/
def BUP_REC_CMD_GO : Field := ⟨0x1200038, 9, 1, 0⟩
/-- BUP_REC_CMD.RESULT (R626). -/
def BUP_REC_CMD_RESULT : Field := ⟨0x1200038, 10, 3, 0⟩
/-- BUP_REC_CMD.BUSY (R626). -/
def BUP_REC_CMD_BUSY : Field := ⟨0x1200038, 13, 1, 0⟩
/-- BUP_REC_STATUS (R626). -/
def BUP_REC_STATUS : Field := ⟨0x120003C, 0, 32, 0⟩
/-- BUP_REC_STATUS.SET_COUNT (R626). -/
def BUP_REC_STATUS_SET_COUNT : Field := ⟨0x120003C, 0, 12, 0⟩
/-- BUP_REC_STATUS.FREE (R626). -/
def BUP_REC_STATUS_FREE : Field := ⟨0x120003C, 12, 12, 0⟩
/-- BUP_REC_STATUS.PRESENT (R626). -/
def BUP_REC_STATUS_PRESENT : Field := ⟨0x120003C, 24, 1, 0⟩
/-- BUP_DOMAIN_CMD (R626). -/
def BUP_DOMAIN_CMD : Field := ⟨0x1200040, 0, 32, 0⟩
/-- BUP_DOMAIN_CMD.DOMAIN (R626). -/
def BUP_DOMAIN_CMD_DOMAIN : Field := ⟨0x1200040, 0, 5, 0⟩
/-- BUP_DOMAIN_CMD.GO (R626). -/
def BUP_DOMAIN_CMD_GO : Field := ⟨0x1200040, 5, 1, 0⟩
/-- BUP_DOMAIN_CMD.WARM (R626). -/
def BUP_DOMAIN_CMD_WARM : Field := ⟨0x1200040, 6, 1, 0⟩
/-- BUP_DOMAIN_CMD.RESULT (R626). -/
def BUP_DOMAIN_CMD_RESULT : Field := ⟨0x1200040, 8, 3, 0⟩
/-- BUP_DOMAIN_CMD.BUSY (R626). -/
def BUP_DOMAIN_CMD_BUSY : Field := ⟨0x1200040, 11, 1, 0⟩
/-- BUP_NEWn (R626). -/
def BUP_NEW : Field := ⟨0x1200100, 0, 128, 16⟩
/-- BUP_NEWn.KIND (R626). -/
def BUP_NEW_KIND : Field := ⟨0x1200100, 0, 8, 16⟩
/-- BUP_NEWn.REMOVE (R626). -/
def BUP_NEW_REMOVE : Field := ⟨0x1200100, 8, 1, 16⟩
/-- BUP_NEWn.VALID (R626). -/
def BUP_NEW_VALID : Field := ⟨0x1200100, 31, 1, 16⟩
/-- BUP_NEWn.DATA (R626). -/
def BUP_NEW_DATA : Field := ⟨0x1200100, 64, 64, 16⟩


/-! ## PCIe configuration space (R269, R270, R271, R280)

Configuration register `k` is written as offset `0x4000000 + k`, beyond BAR0. -/

/-- Vendor ID and Device ID (R269). [PRESUMED: log 167] -/
def PCI_ID : Field := ⟨0x4000000, 0, 32, 0⟩
/-- Vendor ID (R269). -/
def PCI_ID_VENDOR : Field := ⟨0x4000000, 0, 16, 0⟩
/-- Device ID (R269). -/
def PCI_ID_DEVICE : Field := ⟨0x4000000, 16, 16, 0⟩
/-- Command register: Memory Space Enable. [PRESUMED: log 167] -/
def PCI_COMMAND_MEMORY : Field := ⟨0x4000004, 1, 1, 0⟩
/-- Command register: Bus Master Enable. -/
def PCI_COMMAND_BUS_MASTER : Field := ⟨0x4000004, 2, 1, 0⟩
/-- Revision ID (R269). -/
def PCI_CLASS_REVISION : Field := ⟨0x4000008, 0, 8, 0⟩
/-- Class code (R269). -/
def PCI_CLASS_CODE : Field := ⟨0x4000008, 8, 24, 0⟩
/-- The assigned address of BAR0, in units of its 64 MiB (R272). -/
def PCI_BAR0_BASE : Field := ⟨0x4000010, 26, 38, 0⟩
/-- The assigned address of BAR2, in units of its 256 MiB (R272). -/
def PCI_BAR2_BASE : Field := ⟨0x4000018, 28, 36, 0⟩
/-- The assigned address of BAR4, in units of its 128 KiB (R272). -/
def PCI_BAR4_BASE : Field := ⟨0x4000020, 17, 47, 0⟩
/-- Power management: 0 is D0, 3 is D3hot (R269, R271). [PRESUMED: log 167] -/
def PCI_PM_STATE : Field := ⟨0x4000044, 0, 2, 0⟩
/-- MSI-X message control: vectors minus 1 (R279). -/
def PCI_MSIX_TABLE_SIZE : Field := ⟨0x4000048, 16, 11, 0⟩
/-- MSI-X message control: Function Mask (R280). -/
def PCI_MSIX_FUNCTION_MASK : Field := ⟨0x4000048, 30, 1, 0⟩
/-- MSI-X message control: MSI-X Enable (R280). [PRESUMED: log 167] -/
def PCI_MSIX_ENABLE : Field := ⟨0x4000048, 31, 1, 0⟩
/-- Device control: Max Payload Size (R269). -/
def PCI_DEVICE_MAX_PAYLOAD : Field := ⟨0x4000060, 5, 3, 0⟩
/-- Device control: Max Read Request Size (R269). -/
def PCI_DEVICE_MAX_READ : Field := ⟨0x4000060, 12, 3, 0⟩

end R

/-- Where a reset value is not 0: first offset, stride, count, word. Every other register word resets to 0. -/
def resetRows : List (Nat × Nat × Nat × Nat) :=
  [(0x0, 0, 1, 0x4B4C09B0),
   (0x200000, 0, 1, 0x1400),
   (0x200004, 0, 1, 0x1),
   (0x200010, 0, 1, 0xF),
   (0x202004, 32, 64, 0x700),
   (0x300000, 0, 1, 0x5),
   (0x300008, 0, 1, 0x3E800),
   (0x30000C, 0, 1, 0x384),
   (0x30001C, 0, 1, 0x32),
   (0x500000, 0, 1, 0x300),
   (0x500024, 0, 1, 0x400000),
   (0x600000, 0, 1, 0x50),
   (0x600008, 0, 1, 0x10F0E),
   (0x600140, 4, 2, 0x1),
   (0x4, 0, 1, 0x4),
   (0x700000, 0, 1, 0x180400),
   (0x700004, 0, 1, 0x1003C),
   (0x70002C, 0, 1, 0x190),
   (0x900004, 0, 1, 0x2),
   (0xB00000, 0, 1, 0x2),
   (0xC00000, 0, 1, 0x2),
   (0xD00004, 0, 1, 0x100),
   (0xF00208, 64, 2, 0x8),
   (0xF00228, 64, 2, 0x8),
   (0x1100000, 0, 1, 0x4),
   (0x1100004, 0, 1, 0x404040),
   (0x1000008, 0, 1, 0x80C3),
   (0x1000C, 16, 2048, 0x1),
   (0x4000000, 0, 1, 0x0B091EB9),
   (0x4000004, 0, 1, 0x100000),
   (0x4000008, 0, 1, 0x120000B0),
   (0x4000010, 0, 1, 0x4),
   (0x4000018, 0, 1, 0xC),
   (0x4000020, 0, 1, 0x4),
   (0x4000034, 0, 1, 0x40),
   (0x4000040, 0, 1, 0x34801),
   (0x4000044, 0, 1, 0x8),
   (0x4000048, 0, 1, 0x07FF5811),
   (0x400004C, 0, 1, 0x10000),
   (0x4000050, 0, 1, 0x18000),
   (0x4000058, 0, 1, 0x20010),
   (0x4000060, 0, 1, 0x2000)]

/-- Whether offset `a` is one of `count` words from `base` at `stride`. -/
def inArray (base stride count a : Nat) : Bool :=
  base ≤ a && (if stride = 0 then a == base else (a - base) % stride == 0 && decide ((a - base) / stride < count))

/-- The reset value of the register word at BAR0 offset `a`. [DESIGN CHOICE: log 157] -/
@[irreducible] def resetWord (a : Nat) : Word :=
  match resetRows.find? (fun r => inArray r.1 r.2.1 r.2.2.1 a) with
  | some r => BitVec.ofNat 32 r.2.2.2
  | none => 0

/-- Register definitions, part 0. -/
def regTable0 : List RegDef :=
  [⟨0x0, 0, 1, 1, [⟨16, 16, .ro, 0x4B4C⟩, ⟨8, 8, .ro, 0x9⟩, ⟨0, 8, .ro, 0xB0⟩]⟩,
   ⟨0x200000, 0, 1, 1, [⟨0, 1, .rw, 0x0⟩, ⟨1, 1, .wo, 0x0⟩, ⟨8, 8, .rw, 0x14⟩]⟩,
   ⟨0x200004, 0, 1, 1, [⟨0, 1, .ro, 0x1⟩, ⟨1, 1, .w1c, 0x0⟩, ⟨2, 1, .w1c, 0x0⟩, ⟨8, 8, .ro, 0x0⟩]⟩,
   ⟨0x200008, 0, 1, 1, [⟨0, 32, .rw, 0x0⟩]⟩,
   ⟨0x20000C, 0, 1, 1, [⟨0, 8, .rw, 0x0⟩]⟩,
   ⟨0x200010, 0, 1, 1, [⟨0, 4, .rw, 0xF⟩]⟩,
   ⟨0x200014, 0, 1, 1, [⟨0, 16, .ro, 0x0⟩, ⟨16, 16, .ro, 0x0⟩]⟩,
   ⟨0x200018, 0, 1, 1, [⟨0, 32, .ro, 0x0⟩]⟩,
   ⟨0x20001C, 0, 1, 1, [⟨0, 16, .wo, 0x0⟩]⟩,
   ⟨0x200020, 0, 1, 1, [⟨0, 8, .wo, 0x0⟩, ⟨8, 24, .wo, 0x0⟩]⟩,
   ⟨0x201004, 4, 255, 1, [⟨0, 32, .rw, 0x0⟩]⟩,
   ⟨0x201400, 4, 1, 1, [⟨1, 31, .w1c, 0x0⟩]⟩,
   ⟨0x201404, 4, 7, 1, [⟨0, 32, .w1c, 0x0⟩]⟩,
   ⟨0x202000, 32, 64, 8, [⟨0, 40, .rw, 0x0⟩, ⟨40, 3, .rw, 0x7⟩, ⟨48, 1, .rw, 0x0⟩, ⟨64, 64, .rw, 0x0⟩, ⟨128, 32, .rw, 0x0⟩, ⟨160, 16, .ro, 0x0⟩, ⟨176, 15, .rw, 0x0⟩, ⟨192, 32, .ro, 0x0⟩]⟩,
   ⟨0x300000, 0, 1, 1, [⟨0, 1, .rw, 0x1⟩, ⟨1, 1, .rw, 0x0⟩, ⟨2, 1, .rw, 0x1⟩]⟩,
   ⟨0x300004, 0, 1, 1, [⟨0, 16, .ro, 0x0⟩, ⟨16, 1, .w1c, 0x0⟩, ⟨17, 1, .w1c, 0x0⟩, ⟨18, 1, .ro, 0x0⟩, ⟨24, 7, .ro, 0x0⟩]⟩,
   ⟨0x300008, 0, 1, 1, [⟨0, 8, .rw, 0x0⟩, ⟨8, 16, .rw, 0x3E8⟩]⟩,
   ⟨0x30000C, 0, 1, 1, [⟨0, 16, .rw, 0x384⟩]⟩,
   ⟨0x300010, 0, 1, 1, [⟨0, 32, .ro, 0x0⟩]⟩,
   ⟨0x300014, 0, 1, 1, [⟨0, 32, .ro, 0x0⟩]⟩,
   ⟨0x300018, 0, 1, 1, [⟨0, 1, .w1c, 0x0⟩, ⟨3, 25, .ro, 0x0⟩, ⟨28, 4, .ro, 0x0⟩]⟩,
   ⟨0x30001C, 0, 1, 1, [⟨0, 16, .rw, 0x32⟩, ⟨16, 8, .rw, 0x0⟩]⟩,
   ⟨0x300020, 0, 1, 1, [⟨0, 16, .ro, 0x0⟩, ⟨16, 16, .ro, 0x0⟩]⟩,
   ⟨0x300024, 0, 1, 1, [⟨0, 1, .w1c, 0x0⟩, ⟨1, 1, .w1c, 0x0⟩, ⟨2, 1, .w1c, 0x0⟩, ⟨3, 1, .w1c, 0x0⟩, ⟨4, 1, .ro, 0x0⟩, ⟨5, 1, .ro, 0x0⟩]⟩]

/-- Register definitions, part 1. -/
def regTable1 : List RegDef :=
  [⟨0x300030, 0, 1, 1, [⟨2, 26, .rw, 0x0⟩]⟩,
   ⟨0x300034, 0, 1, 1, [⟨0, 32, .wo, 0x0⟩]⟩,
   ⟨0x300038, 0, 1, 1, [⟨0, 32, .wo, 0x0⟩]⟩,
   ⟨0x30003C, 0, 1, 1, [⟨0, 32, .ro, 0x0⟩]⟩,
   ⟨0x300040, 0, 1, 1, [⟨0, 32, .rw, 0x0⟩]⟩,
   ⟨0x300044, 0, 1, 1, [⟨0, 32, .rw, 0x0⟩]⟩,
   ⟨0x300048, 0, 1, 1, [⟨0, 1, .wo, 0x0⟩, ⟨1, 3, .ro, 0x0⟩]⟩,
   ⟨0x300080, 4, 8, 1, [⟨0, 32, .rw, 0x0⟩]⟩,
   ⟨0x300100, 8, 64, 2, [⟨0, 31, .ro, 0x0⟩, ⟨31, 1, .w1c, 0x0⟩, ⟨32, 32, .ro, 0x0⟩]⟩,
   ⟨0x300400, 4, 64, 1, [⟨0, 22, .ro, 0x0⟩, ⟨30, 1, .ro, 0x0⟩, ⟨31, 1, .w1c, 0x0⟩]⟩,
   ⟨0x400000, 0, 1, 1, [⟨0, 1, .ro, 0x0⟩, ⟨1, 1, .ro, 0x0⟩, ⟨2, 1, .ro, 0x0⟩, ⟨3, 1, .w1c, 0x0⟩, ⟨4, 1, .w1c, 0x0⟩, ⟨5, 2, .ro, 0x0⟩, ⟨7, 1, .ro, 0x0⟩, ⟨8, 6, .ro, 0x0⟩]⟩,
   ⟨0x400004, 0, 1, 1, [⟨0, 6, .ro, 0x0⟩, ⟨6, 1, .ro, 0x0⟩]⟩,
   ⟨0x400008, 0, 1, 1, [⟨0, 32, .ro, 0x0⟩]⟩,
   ⟨0x40000C, 0, 1, 1, [⟨0, 32, .ro, 0x0⟩]⟩,
   ⟨0x400020, 0, 1, 1, [⟨0, 8, .rw, 0x0⟩, ⟨8, 1, .wo, 0x0⟩, ⟨9, 3, .ro, 0x0⟩]⟩,
   ⟨0x400040, 4, 8, 1, [⟨0, 5, .ro, 0x0⟩, ⟨5, 1, .ro, 0x0⟩, ⟨6, 1, .ro, 0x0⟩, ⟨7, 1, .ro, 0x0⟩]⟩,
   ⟨0x400080, 4, 8, 1, [⟨0, 32, .w1c, 0x0⟩]⟩,
   ⟨0x4000A0, 4, 1, 1, [⟨0, 8, .w1c, 0x0⟩]⟩,
   ⟨0x400100, 8, 32, 2, [⟨0, 1, .ro, 0x0⟩, ⟨1, 1, .ro, 0x0⟩, ⟨2, 1, .ro, 0x0⟩, ⟨8, 4, .ro, 0x0⟩, ⟨12, 4, .ro, 0x0⟩, ⟨16, 3, .ro, 0x0⟩, ⟨19, 3, .ro, 0x0⟩, ⟨32, 16, .ro, 0x0⟩]⟩,
   ⟨0x400010, 0, 1, 1, [⟨0, 32, .ro, 0x0⟩]⟩,
   ⟨0x400014, 0, 1, 1, [⟨0, 32, .ro, 0x0⟩]⟩,
   ⟨0x500000, 0, 1, 1, [⟨0, 1, .rw, 0x0⟩, ⟨1, 5, .rw, 0x0⟩, ⟨8, 4, .rw, 0x3⟩]⟩,
   ⟨0x500004, 0, 1, 1, [⟨0, 1, .ro, 0x0⟩, ⟨1, 1, .w1c, 0x0⟩, ⟨2, 1, .w1c, 0x0⟩, ⟨3, 1, .w1c, 0x0⟩, ⟨4, 1, .w1c, 0x0⟩, ⟨5, 1, .w1c, 0x0⟩, ⟨8, 5, .ro, 0x0⟩]⟩,
   ⟨0x500008, 0, 1, 1, [⟨0, 32, .rw, 0x0⟩]⟩]

/-- Register definitions, part 2. -/
def regTable2 : List RegDef :=
  [⟨0x50000C, 0, 1, 1, [⟨0, 8, .rw, 0x0⟩]⟩,
   ⟨0x500010, 0, 1, 1, [⟨0, 32, .rw, 0x0⟩]⟩,
   ⟨0x500014, 0, 1, 1, [⟨0, 8, .rw, 0x0⟩]⟩,
   ⟨0x500018, 0, 1, 1, [⟨0, 32, .rw, 0x0⟩]⟩,
   ⟨0x50001C, 0, 1, 1, [⟨0, 8, .rw, 0x0⟩]⟩,
   ⟨0x500020, 0, 1, 1, [⟨0, 17, .wo, 0x0⟩]⟩,
   ⟨0x500024, 0, 1, 1, [⟨0, 14, .ro, 0x0⟩, ⟨16, 14, .rw, 0x40⟩]⟩,
   ⟨0x500028, 0, 1, 1, [⟨0, 16, .ro, 0x0⟩, ⟨16, 16, .ro, 0x0⟩]⟩,
   ⟨0x50002C, 0, 1, 1, [⟨0, 32, .ro, 0x0⟩]⟩,
   ⟨0x500030, 0, 1, 1, [⟨0, 32, .ro, 0x0⟩]⟩,
   ⟨0x500040, 0, 1, 1, [⟨0, 4, .wo, 0x0⟩, ⟨4, 11, .wo, 0x0⟩]⟩,
   ⟨0x500044, 0, 1, 1, [⟨0, 16, .ro, 0x0⟩, ⟨16, 1, .ro, 0x0⟩]⟩,
   ⟨0x500080, 4, 16, 1, [⟨0, 32, .rw, 0x0⟩]⟩,
   ⟨0x500100, 4, 4, 1, [⟨0, 2, .rw, 0x0⟩, ⟨2, 6, .rw, 0x0⟩, ⟨8, 4, .rw, 0x0⟩, ⟨12, 1, .rw, 0x0⟩]⟩,
   ⟨0x500200, 8, 16, 2, [⟨0, 1, .ro, 0x0⟩, ⟨1, 1, .ro, 0x0⟩, ⟨2, 3, .ro, 0x0⟩, ⟨8, 8, .ro, 0x0⟩, ⟨16, 16, .ro, 0x0⟩, ⟨32, 16, .ro, 0x0⟩]⟩,
   ⟨0x520000, 64, 2048, 16, [⟨0, 512, .ro, 0x0⟩]⟩,
   ⟨0x600000, 0, 1, 1, [⟨0, 5, .ro, 0x10⟩, ⟨5, 5, .ro, 0x2⟩, ⟨10, 1, .ro, 0x0⟩, ⟨11, 1, .w1c, 0x0⟩, ⟨12, 1, .w1c, 0x0⟩]⟩,
   ⟨0x600004, 0, 1, 1, [⟨0, 3, .wo, 0x0⟩, ⟨3, 5, .wo, 0x0⟩, ⟨8, 1, .wo, 0x0⟩, ⟨9, 1, .wo, 0x0⟩, ⟨16, 4, .ro, 0x0⟩, ⟨20, 1, .ro, 0x0⟩]⟩,
   ⟨0x600008, 0, 1, 1, [⟨0, 5, .rw, 0xE⟩, ⟨8, 5, .rw, 0xF⟩, ⟨16, 1, .rw, 0x1⟩, ⟨17, 1, .ro, 0x0⟩]⟩,
   ⟨0x600010, 0, 1, 1, [⟨0, 32, .ro, 0x0⟩]⟩,
   ⟨0x600014, 0, 1, 1, [⟨0, 32, .ro, 0x0⟩]⟩,
   ⟨0x600018, 0, 1, 1, [⟨0, 32, .ro, 0x0⟩]⟩,
   ⟨0x600100, 4, 16, 1, [⟨0, 3, .ro, 0x0⟩, ⟨3, 1, .ro, 0x0⟩, ⟨4, 1, .ro, 0x0⟩, ⟨8, 8, .ro, 0x0⟩, ⟨16, 8, .ro, 0x0⟩]⟩,
   ⟨0x600140, 4, 2, 1, [⟨0, 3, .ro, 0x1⟩, ⟨3, 1, .ro, 0x0⟩, ⟨4, 1, .ro, 0x0⟩, ⟨8, 8, .ro, 0x0⟩, ⟨16, 8, .ro, 0x0⟩]⟩]

/-- Register definitions, part 3. -/
def regTable3 : List RegDef :=
  [⟨0x4, 0, 1, 1, [⟨0, 3, .rw, 0x4⟩]⟩,
   ⟨0x8, 0, 1, 1, [⟨0, 1, .ro, 0x0⟩, ⟨1, 3, .ro, 0x0⟩, ⟨4, 4, .ro, 0x0⟩, ⟨8, 1, .w1c, 0x0⟩, ⟨9, 1, .w1c, 0x0⟩, ⟨10, 1, .w1c, 0x0⟩, ⟨11, 1, .w1c, 0x0⟩]⟩,
   ⟨0xC, 0, 1, 1, [⟨0, 20, .w1c, 0x0⟩]⟩,
   ⟨0x10, 0, 1, 1, [⟨0, 20, .rw, 0x0⟩]⟩,
   ⟨0x14, 0, 1, 1, [⟨0, 8, .ro, 0x0⟩, ⟨8, 4, .ro, 0x0⟩, ⟨31, 1, .w1c, 0x0⟩]⟩,
   ⟨0x100, 16, 256, 4, [⟨0, 64, .rw, 0x0⟩, ⟨64, 1, .rw, 0x0⟩, ⟨65, 1, .rw, 0x0⟩, ⟨66, 1, .rw, 0x0⟩, ⟨67, 1, .rw, 0x0⟩, ⟨68, 1, .rw, 0x0⟩]⟩,
   ⟨0x100000, 0, 1, 1, [⟨0, 1, .rw, 0x0⟩]⟩,
   ⟨0x100004, 0, 1, 1, [⟨0, 11, .ro, 0x0⟩, ⟨11, 1, .ro, 0x0⟩, ⟨12, 1, .w1c, 0x0⟩, ⟨13, 1, .w1c, 0x0⟩]⟩,
   ⟨0x100008, 0, 1, 1, [⟨0, 32, .rw, 0x0⟩]⟩,
   ⟨0x10000C, 0, 1, 1, [⟨0, 8, .rw, 0x0⟩]⟩,
   ⟨0x100010, 0, 1, 1, [⟨0, 32, .rw, 0x0⟩]⟩,
   ⟨0x100014, 0, 1, 1, [⟨0, 8, .rw, 0x0⟩]⟩,
   ⟨0x100018, 0, 1, 1, [⟨0, 13, .ro, 0x0⟩]⟩,
   ⟨0x10001C, 0, 1, 1, [⟨0, 32, .ro, 0x0⟩]⟩,
   ⟨0x100020, 0, 1, 1, [⟨0, 32, .ro, 0x0⟩]⟩,
   ⟨0x100040, 0, 1, 1, [⟨0, 15, .wo, 0x0⟩, ⟨15, 3, .wo, 0x0⟩, ⟨18, 4, .ro, 0x0⟩, ⟨22, 1, .ro, 0x0⟩]⟩,
   ⟨0x100044, 0, 1, 1, [⟨0, 32, .ro, 0x0⟩]⟩,
   ⟨0x100048, 0, 1, 1, [⟨0, 32, .ro, 0x0⟩]⟩,
   ⟨0x10004C, 0, 1, 1, [⟨0, 16, .ro, 0x0⟩, ⟨16, 1, .ro, 0x0⟩, ⟨17, 1, .ro, 0x0⟩]⟩,
   ⟨0x100050, 0, 1, 1, [⟨0, 13, .ro, 0x0⟩]⟩,
   ⟨0x700000, 0, 1, 1, [⟨0, 1, .rw, 0x0⟩, ⟨1, 1, .rw, 0x0⟩, ⟨2, 1, .rw, 0x0⟩, ⟨8, 8, .rw, 0x4⟩, ⟨16, 8, .rw, 0x18⟩]⟩,
   ⟨0x700004, 0, 1, 1, [⟨0, 2, .rw, 0x0⟩, ⟨2, 2, .rw, 0x3⟩, ⟨4, 1, .rw, 0x1⟩, ⟨5, 1, .rw, 0x1⟩, ⟨8, 9, .rw, 0x100⟩]⟩,
   ⟨0x700008, 0, 1, 1, [⟨0, 1, .ro, 0x0⟩, ⟨1, 1, .ro, 0x0⟩, ⟨2, 1, .w1c, 0x0⟩, ⟨3, 1, .w1c, 0x0⟩, ⟨4, 1, .ro, 0x0⟩, ⟨8, 1, .ro, 0x0⟩, ⟨9, 3, .ro, 0x0⟩]⟩,
   ⟨0x70000C, 0, 1, 1, [⟨0, 17, .ro, 0x0⟩]⟩]

/-- Register definitions, part 4. -/
def regTable4 : List RegDef :=
  [⟨0x700010, 0, 1, 1, [⟨0, 32, .ro, 0x0⟩]⟩,
   ⟨0x700014, 0, 1, 1, [⟨0, 32, .ro, 0x0⟩]⟩,
   ⟨0x700018, 0, 1, 2, [⟨0, 1, .w1c, 0x0⟩, ⟨1, 2, .ro, 0x0⟩, ⟨3, 3, .ro, 0x0⟩, ⟨6, 30, .ro, 0x0⟩]⟩,
   ⟨0x700020, 0, 1, 1, [⟨0, 24, .rw, 0x0⟩]⟩,
   ⟨0x700024, 0, 1, 1, [⟨0, 1, .wo, 0x0⟩, ⟨1, 1, .wo, 0x0⟩, ⟨2, 17, .wo, 0x0⟩, ⟨19, 3, .ro, 0x0⟩]⟩,
   ⟨0x700028, 0, 1, 1, [⟨0, 3, .wo, 0x0⟩, ⟨3, 1, .wo, 0x0⟩, ⟨4, 3, .ro, 0x0⟩]⟩,
   ⟨0x70002C, 0, 1, 1, [⟨0, 1, .wo, 0x0⟩, ⟨1, 1, .wo, 0x0⟩, ⟨2, 14, .rw, 0x64⟩, ⟨16, 16, .ro, 0x0⟩]⟩,
   ⟨0x700100, 4, 256, 1, [⟨0, 24, .ro, 0x0⟩, ⟨31, 1, .ro, 0x0⟩]⟩,
   ⟨0x800000, 0, 1, 1, [⟨0, 1, .rw, 0x0⟩]⟩,
   ⟨0x800004, 0, 1, 1, [⟨0, 8, .ro, 0x0⟩, ⟨8, 1, .w1c, 0x0⟩, ⟨9, 1, .w1c, 0x0⟩, ⟨10, 1, .w1c, 0x0⟩, ⟨11, 1, .w1c, 0x0⟩, ⟨12, 1, .w1c, 0x0⟩, ⟨13, 1, .ro, 0x0⟩]⟩,
   ⟨0x800100, 8, 8, 2, [⟨0, 16, .ro, 0x0⟩, ⟨16, 16, .ro, 0x0⟩, ⟨32, 16, .ro, 0x0⟩, ⟨48, 16, .ro, 0x0⟩]⟩,
   ⟨0x800200, 8, 16, 2, [⟨0, 32, .ro, 0x0⟩, ⟨32, 16, .ro, 0x0⟩, ⟨48, 16, .ro, 0x0⟩]⟩,
   ⟨0x800300, 16, 2, 4, [⟨0, 32, .ro, 0x0⟩, ⟨32, 16, .ro, 0x0⟩, ⟨48, 16, .ro, 0x0⟩, ⟨64, 16, .ro, 0x0⟩, ⟨80, 16, .ro, 0x0⟩, ⟨96, 16, .ro, 0x0⟩, ⟨112, 16, .ro, 0x0⟩]⟩,
   ⟨0x800400, 8, 2, 2, [⟨0, 32, .ro, 0x0⟩, ⟨32, 16, .ro, 0x0⟩]⟩,
   ⟨0x900000, 0, 1, 1, [⟨0, 1, .rw, 0x0⟩]⟩,
   ⟨0x900004, 0, 1, 1, [⟨0, 1, .ro, 0x0⟩, ⟨1, 1, .ro, 0x1⟩, ⟨2, 1, .ro, 0x0⟩, ⟨3, 1, .ro, 0x0⟩, ⟨4, 1, .w1c, 0x0⟩, ⟨5, 1, .w1c, 0x0⟩]⟩,
   ⟨0x900008, 0, 1, 1, [⟨0, 32, .ro, 0x0⟩]⟩,
   ⟨0x90000C, 0, 1, 1, [⟨0, 32, .ro, 0x0⟩]⟩,
   ⟨0x900010, 0, 1, 1, [⟨0, 32, .ro, 0x0⟩]⟩,
   ⟨0x900014, 0, 1, 1, [⟨0, 32, .ro, 0x0⟩]⟩,
   ⟨0x900018, 0, 1, 1, [⟨0, 32, .ro, 0x0⟩]⟩,
   ⟨0x90001C, 0, 1, 1, [⟨0, 32, .ro, 0x0⟩]⟩,
   ⟨0x900020, 0, 1, 1, [⟨0, 32, .ro, 0x0⟩]⟩,
   ⟨0x900024, 0, 1, 1, [⟨0, 32, .ro, 0x0⟩]⟩]

/-- Register definitions, part 5. -/
def regTable5 : List RegDef :=
  [⟨0x900040, 0, 1, 1, [⟨0, 16, .wo, 0x0⟩, ⟨16, 2, .wo, 0x0⟩, ⟨20, 3, .ro, 0x0⟩, ⟨23, 1, .ro, 0x0⟩]⟩,
   ⟨0x900044, 0, 1, 1, [⟨0, 13, .ro, 0x0⟩, ⟨13, 13, .ro, 0x0⟩]⟩,
   ⟨0xA00000, 0, 1, 1, [⟨0, 1, .rw, 0x0⟩]⟩,
   ⟨0xA00004, 0, 1, 1, [⟨0, 1, .ro, 0x0⟩, ⟨1, 1, .ro, 0x0⟩, ⟨2, 1, .ro, 0x0⟩, ⟨3, 1, .w1c, 0x0⟩, ⟨4, 1, .w1c, 0x0⟩]⟩,
   ⟨0xA00008, 0, 1, 1, [⟨0, 16, .ro, 0x0⟩]⟩,
   ⟨0xA0000C, 0, 1, 1, [⟨0, 14, .ro, 0x0⟩, ⟨14, 6, .ro, 0x0⟩]⟩,
   ⟨0xA00010, 0, 1, 1, [⟨0, 21, .ro, 0x0⟩]⟩,
   ⟨0xA00014, 0, 1, 1, [⟨0, 32, .ro, 0x0⟩]⟩,
   ⟨0xA00018, 0, 1, 1, [⟨0, 32, .ro, 0x0⟩]⟩,
   ⟨0xA0001C, 0, 1, 1, [⟨0, 32, .ro, 0x0⟩]⟩,
   ⟨0xA00020, 0, 1, 1, [⟨0, 32, .ro, 0x0⟩]⟩,
   ⟨0xB00000, 0, 1, 1, [⟨0, 1, .rw, 0x0⟩, ⟨1, 1, .rw, 0x1⟩]⟩,
   ⟨0xC00000, 0, 1, 1, [⟨0, 1, .rw, 0x0⟩, ⟨1, 1, .rw, 0x1⟩]⟩,
   ⟨0xB00004, 0, 1, 1, [⟨0, 1, .ro, 0x0⟩, ⟨1, 3, .ro, 0x0⟩, ⟨4, 1, .w1c, 0x0⟩, ⟨5, 1, .w1c, 0x0⟩, ⟨6, 1, .w1c, 0x0⟩, ⟨7, 1, .ro, 0x0⟩, ⟨8, 4, .ro, 0x0⟩, ⟨12, 4, .ro, 0x0⟩]⟩,
   ⟨0xC00004, 0, 1, 1, [⟨0, 1, .ro, 0x0⟩, ⟨1, 3, .ro, 0x0⟩, ⟨4, 1, .w1c, 0x0⟩, ⟨5, 1, .w1c, 0x0⟩, ⟨6, 1, .w1c, 0x0⟩, ⟨7, 1, .ro, 0x0⟩, ⟨8, 4, .ro, 0x0⟩, ⟨12, 4, .ro, 0x0⟩]⟩,
   ⟨0xB00008, 0, 1, 1, [⟨0, 2, .wo, 0x0⟩, ⟨2, 1, .wo, 0x0⟩, ⟨8, 4, .ro, 0x0⟩, ⟨12, 1, .ro, 0x0⟩]⟩,
   ⟨0xC00008, 0, 1, 1, [⟨0, 2, .wo, 0x0⟩, ⟨2, 1, .wo, 0x0⟩, ⟨8, 4, .ro, 0x0⟩, ⟨12, 1, .ro, 0x0⟩]⟩,
   ⟨0xB00010, 0, 1, 1, [⟨0, 32, .ro, 0x0⟩]⟩,
   ⟨0xC00010, 0, 1, 1, [⟨0, 32, .ro, 0x0⟩]⟩,
   ⟨0xB00014, 0, 1, 1, [⟨0, 32, .ro, 0x0⟩]⟩,
   ⟨0xC00014, 0, 1, 1, [⟨0, 32, .ro, 0x0⟩]⟩,
   ⟨0xB00018, 0, 1, 1, [⟨0, 32, .ro, 0x0⟩]⟩,
   ⟨0xC00018, 0, 1, 1, [⟨0, 32, .ro, 0x0⟩]⟩,
   ⟨0xB0001C, 0, 1, 1, [⟨0, 32, .ro, 0x0⟩]⟩]

/-- Register definitions, part 6. -/
def regTable6 : List RegDef :=
  [⟨0xC0001C, 0, 1, 1, [⟨0, 32, .ro, 0x0⟩]⟩,
   ⟨0xB00020, 0, 1, 1, [⟨0, 32, .ro, 0x0⟩]⟩,
   ⟨0xC00020, 0, 1, 1, [⟨0, 32, .ro, 0x0⟩]⟩,
   ⟨0xB00024, 0, 1, 1, [⟨0, 32, .ro, 0x0⟩]⟩,
   ⟨0xC00024, 0, 1, 1, [⟨0, 32, .ro, 0x0⟩]⟩,
   ⟨0xB00100, 32, 4, 8, [⟨0, 1, .ro, 0x0⟩, ⟨1, 1, .ro, 0x0⟩, ⟨32, 32, .ro, 0x0⟩, ⟨64, 32, .ro, 0x0⟩, ⟨96, 22, .ro, 0x0⟩, ⟨128, 64, .ro, 0x0⟩]⟩,
   ⟨0xC00100, 32, 4, 8, [⟨0, 1, .ro, 0x0⟩, ⟨1, 1, .ro, 0x0⟩, ⟨32, 32, .ro, 0x0⟩, ⟨64, 32, .ro, 0x0⟩, ⟨96, 22, .ro, 0x0⟩, ⟨128, 64, .ro, 0x0⟩]⟩,
   ⟨0xD00000, 0, 1, 1, [⟨0, 1, .rw, 0x0⟩, ⟨1, 1, .rw, 0x0⟩, ⟨2, 1, .rw, 0x0⟩, ⟨3, 1, .rw, 0x0⟩, ⟨4, 1, .rw, 0x0⟩]⟩,
   ⟨0xD00004, 0, 1, 1, [⟨0, 1, .ro, 0x0⟩, ⟨1, 1, .w1c, 0x0⟩, ⟨2, 1, .w1c, 0x0⟩, ⟨3, 1, .ro, 0x0⟩, ⟨4, 5, .ro, 0x10⟩, ⟨9, 9, .ro, 0x0⟩]⟩,
   ⟨0xD00008, 0, 1, 1, [⟨0, 32, .ro, 0x0⟩]⟩,
   ⟨0xD0000C, 0, 1, 1, [⟨0, 32, .ro, 0x0⟩]⟩,
   ⟨0xD00010, 0, 1, 1, [⟨0, 32, .ro, 0x0⟩]⟩,
   ⟨0xD00014, 0, 1, 1, [⟨0, 32, .ro, 0x0⟩]⟩,
   ⟨0xD00020, 0, 1, 1, [⟨0, 8, .wo, 0x0⟩, ⟨8, 1, .wo, 0x0⟩, ⟨9, 3, .ro, 0x0⟩, ⟨12, 1, .ro, 0x0⟩]⟩,
   ⟨0xD00040, 4, 16, 1, [⟨0, 8, .ro, 0x0⟩, ⟨8, 1, .ro, 0x0⟩, ⟨9, 1, .ro, 0x0⟩]⟩,
   ⟨0xD00100, 4, 32, 1, [⟨0, 32, .w1c, 0x0⟩]⟩,
   ⟨0xD00200, 4, 8, 1, [⟨0, 32, .ro, 0x0⟩]⟩,
   ⟨0xD00300, 8, 16, 2, [⟨0, 32, .ro, 0x0⟩, ⟨32, 16, .ro, 0x0⟩]⟩,
   ⟨0xE00000, 0, 1, 1, [⟨0, 3, .wo, 0x0⟩, ⟨3, 1, .wo, 0x0⟩, ⟨8, 3, .ro, 0x0⟩, ⟨11, 1, .ro, 0x0⟩]⟩,
   ⟨0xE00004, 0, 1, 1, [⟨0, 3, .ro, 0x0⟩, ⟨3, 1, .w1c, 0x0⟩, ⟨4, 1, .w1c, 0x0⟩, ⟨5, 1, .w1c, 0x0⟩, ⟨6, 1, .w1c, 0x0⟩, ⟨7, 1, .w1c, 0x0⟩, ⟨8, 3, .ro, 0x0⟩]⟩,
   ⟨0xE00008, 0, 1, 1, [⟨0, 32, .rw, 0x0⟩]⟩,
   ⟨0xE0000C, 0, 1, 1, [⟨0, 16, .rw, 0x0⟩]⟩,
   ⟨0xE00010, 0, 1, 1, [⟨0, 30, .rw, 0x0⟩]⟩,
   ⟨0xE00014, 0, 1, 1, [⟨0, 16, .rw, 0x0⟩]⟩]

/-- Register definitions, part 7. -/
def regTable7 : List RegDef :=
  [⟨0xE00018, 0, 1, 1, [⟨0, 32, .rw, 0x0⟩]⟩,
   ⟨0xE0001C, 0, 1, 1, [⟨0, 32, .rw, 0x0⟩]⟩,
   ⟨0xE00020, 0, 1, 1, [⟨0, 32, .rw, 0x0⟩]⟩,
   ⟨0xE00024, 0, 1, 1, [⟨0, 32, .rw, 0x0⟩]⟩,
   ⟨0xE00028, 0, 1, 1, [⟨0, 32, .rw, 0x0⟩]⟩,
   ⟨0xE0002C, 0, 1, 1, [⟨0, 24, .wo, 0x0⟩]⟩,
   ⟨0xE00030, 0, 1, 1, [⟨0, 32, .ro, 0x0⟩]⟩,
   ⟨0xE00034, 0, 1, 1, [⟨0, 32, .ro, 0x0⟩]⟩,
   ⟨0xE00038, 0, 1, 1, [⟨0, 32, .ro, 0x0⟩]⟩,
   ⟨0xE0003C, 0, 1, 1, [⟨0, 32, .ro, 0x0⟩]⟩,
   ⟨0xE00040, 0, 1, 1, [⟨0, 16, .ro, 0x0⟩, ⟨16, 1, .ro, 0x0⟩, ⟨17, 1, .ro, 0x0⟩]⟩,
   ⟨0xE00044, 0, 1, 1, [⟨0, 30, .ro, 0x0⟩]⟩,
   ⟨0xE00048, 0, 1, 1, [⟨0, 32, .ro, 0x0⟩]⟩,
   ⟨0xE0004C, 0, 1, 1, [⟨0, 16, .ro, 0x0⟩, ⟨16, 16, .ro, 0x0⟩]⟩,
   ⟨0xE00050, 0, 1, 1, [⟨0, 7, .ro, 0x0⟩]⟩,
   ⟨0xE00060, 0, 1, 1, [⟨0, 32, .ro, 0x0⟩]⟩,
   ⟨0xE00064, 0, 1, 1, [⟨0, 32, .ro, 0x0⟩]⟩,
   ⟨0xE00068, 0, 1, 1, [⟨0, 32, .ro, 0x0⟩]⟩,
   ⟨0xE0006C, 0, 1, 1, [⟨0, 32, .ro, 0x0⟩]⟩,
   ⟨0xE00070, 0, 1, 1, [⟨0, 32, .ro, 0x0⟩]⟩,
   ⟨0xE00074, 0, 1, 1, [⟨0, 32, .ro, 0x0⟩]⟩,
   ⟨0xE00080, 0, 1, 1, [⟨0, 32, .ro, 0x0⟩]⟩,
   ⟨0xE00084, 0, 1, 1, [⟨0, 32, .ro, 0x0⟩]⟩,
   ⟨0xE00088, 0, 1, 1, [⟨0, 16, .ro, 0x0⟩]⟩]

/-- Register definitions, part 8. -/
def regTable8 : List RegDef :=
  [⟨0x3000000, 0, 1, 1, [⟨0, 11, .rw, 0x0⟩]⟩,
   ⟨0x3000004, 0, 1, 1, [⟨0, 32, .rw, 0x0⟩]⟩,
   ⟨0x3000008, 0, 1, 1, [⟨0, 32, .rw, 0x0⟩]⟩,
   ⟨0x300000C, 0, 1, 1, [⟨0, 32, .rw, 0x0⟩]⟩,
   ⟨0x3000010, 0, 1, 1, [⟨0, 4, .wo, 0x0⟩, ⟨4, 4, .wo, 0x0⟩, ⟨8, 8, .wo, 0x0⟩, ⟨16, 16, .wo, 0x0⟩]⟩,
   ⟨0x3000020, 0, 1, 1, [⟨0, 16, .ro, 0x0⟩, ⟨16, 1, .ro, 0x0⟩, ⟨17, 11, .ro, 0x0⟩]⟩,
   ⟨0x3000024, 0, 1, 1, [⟨0, 32, .ro, 0x0⟩]⟩,
   ⟨0x3000028, 0, 1, 1, [⟨0, 32, .ro, 0x0⟩]⟩,
   ⟨0x300002C, 0, 1, 1, [⟨0, 32, .ro, 0x0⟩]⟩,
   ⟨0x3000030, 0, 1, 1, [⟨0, 1, .w1c, 0x0⟩, ⟨1, 8, .ro, 0x0⟩, ⟨9, 7, .ro, 0x0⟩]⟩,
   ⟨0x3000034, 0, 1, 1, [⟨0, 32, .ro, 0x0⟩]⟩,
   ⟨0x3000038, 0, 1, 1, [⟨0, 32, .ro, 0x0⟩]⟩,
   ⟨0x300003C, 0, 1, 1, [⟨0, 32, .ro, 0x0⟩]⟩,
   ⟨0x3000400, 4, 256, 1, [⟨0, 32, .rw, 0x0⟩]⟩,
   ⟨0x1300000, 0, 1, 1, [⟨0, 1, .ro, 0x0⟩, ⟨1, 1, .w1c, 0x0⟩, ⟨2, 1, .ro, 0x0⟩, ⟨3, 1, .w1c, 0x0⟩, ⟨4, 12, .ro, 0x0⟩]⟩,
   ⟨0xF00000, 0, 1, 1, [⟨0, 1, .rw, 0x0⟩]⟩,
   ⟨0xF00004, 0, 1, 1, [⟨0, 2, .ro, 0x0⟩, ⟨2, 2, .ro, 0x0⟩, ⟨4, 1, .w1c, 0x0⟩, ⟨5, 1, .w1c, 0x0⟩, ⟨6, 1, .w1c, 0x0⟩, ⟨7, 1, .w1c, 0x0⟩]⟩,
   ⟨0xF00008, 0, 1, 1, [⟨0, 32, .ro, 0x0⟩]⟩,
   ⟨0xF00010, 4, 2, 1, [⟨0, 32, .ro, 0x0⟩]⟩,
   ⟨0xF00100, 32, 2, 8, [⟨0, 32, .ro, 0x0⟩, ⟨32, 32, .ro, 0x0⟩, ⟨64, 16, .ro, 0x0⟩, ⟨80, 16, .ro, 0x0⟩, ⟨96, 16, .ro, 0x0⟩, ⟨112, 16, .ro, 0x0⟩, ⟨128, 16, .ro, 0x0⟩, ⟨144, 16, .ro, 0x0⟩, ⟨160, 16, .ro, 0x0⟩, ⟨176, 16, .ro, 0x0⟩]⟩,
   ⟨0xF00200, 64, 2, 1, [⟨0, 32, .rw, 0x0⟩]⟩,
   ⟨0xF00204, 64, 2, 1, [⟨0, 8, .rw, 0x0⟩]⟩,
   ⟨0xF00208, 64, 2, 1, [⟨0, 1, .rw, 0x0⟩, ⟨1, 4, .rw, 0x4⟩]⟩,
   ⟨0xF0020C, 64, 2, 1, [⟨0, 32, .rw, 0x0⟩]⟩]

/-- Register definitions, part 9. -/
def regTable9 : List RegDef :=
  [⟨0xF00210, 64, 2, 1, [⟨0, 32, .ro, 0x0⟩]⟩,
   ⟨0xF00220, 64, 2, 1, [⟨0, 32, .rw, 0x0⟩]⟩,
   ⟨0xF00224, 64, 2, 1, [⟨0, 8, .rw, 0x0⟩]⟩,
   ⟨0xF00228, 64, 2, 1, [⟨0, 1, .rw, 0x0⟩, ⟨1, 4, .rw, 0x4⟩]⟩,
   ⟨0xF0022C, 64, 2, 1, [⟨0, 32, .rw, 0x0⟩]⟩,
   ⟨0xF00230, 64, 2, 1, [⟨0, 32, .ro, 0x0⟩]⟩,
   ⟨0xF00400, 16, 4, 4, [⟨0, 8, .ro, 0x0⟩, ⟨8, 8, .ro, 0x0⟩, ⟨16, 2, .ro, 0x0⟩, ⟨32, 16, .ro, 0x0⟩, ⟨48, 16, .ro, 0x0⟩, ⟨64, 32, .ro, 0x0⟩, ⟨96, 16, .ro, 0x0⟩]⟩,
   ⟨0x1100000, 0, 1, 1, [⟨0, 3, .ro, 0x4⟩, ⟨3, 1, .ro, 0x0⟩, ⟨4, 1, .w1c, 0x0⟩, ⟨5, 1, .ro, 0x0⟩, ⟨6, 1, .w1c, 0x0⟩, ⟨7, 1, .ro, 0x0⟩, ⟨8, 1, .ro, 0x0⟩, ⟨9, 1, .w1c, 0x0⟩, ⟨10, 2, .ro, 0x0⟩]⟩,
   ⟨0x1100004, 0, 1, 1, [⟨0, 7, .ro, 0x40⟩, ⟨8, 7, .ro, 0x40⟩, ⟨16, 7, .ro, 0x40⟩]⟩,
   ⟨0x1100008, 0, 1, 1, [⟨0, 7, .ro, 0x0⟩, ⟨31, 1, .w1c, 0x0⟩]⟩,
   ⟨0x110000C, 0, 1, 1, [⟨0, 2, .wo, 0x0⟩, ⟨2, 1, .wo, 0x0⟩, ⟨3, 1, .wo, 0x0⟩, ⟨8, 3, .ro, 0x0⟩]⟩,
   ⟨0x1100010, 0, 1, 1, [⟨0, 32, .rw, 0x0⟩]⟩,
   ⟨0x1100014, 0, 1, 1, [⟨0, 32, .rw, 0x0⟩]⟩,
   ⟨0x1100020, 0, 1, 1, [⟨0, 32, .ro, 0x0⟩]⟩,
   ⟨0x1100024, 0, 1, 1, [⟨0, 32, .ro, 0x0⟩]⟩,
   ⟨0x1100028, 0, 1, 1, [⟨0, 32, .ro, 0x0⟩]⟩,
   ⟨0x1100030, 0, 1, 1, [⟨0, 32, .ro, 0x0⟩]⟩,
   ⟨0x1100034, 0, 1, 1, [⟨0, 16, .ro, 0x0⟩]⟩,
   ⟨0x1100040, 0, 1, 1, [⟨0, 32, .ro, 0x0⟩]⟩,
   ⟨0x1100044, 0, 1, 1, [⟨0, 32, .ro, 0x0⟩]⟩,
   ⟨0x1100048, 0, 1, 1, [⟨0, 32, .ro, 0x0⟩]⟩,
   ⟨0x110004C, 0, 1, 1, [⟨0, 32, .ro, 0x0⟩]⟩,
   ⟨0x1100050, 0, 1, 1, [⟨0, 32, .ro, 0x0⟩]⟩,
   ⟨0x1100054, 0, 1, 1, [⟨0, 32, .ro, 0x0⟩]⟩]

/-- Register definitions, part 10. -/
def regTable10 : List RegDef :=
  [⟨0x1000000, 0, 1, 1, [⟨0, 1, .ro, 0x0⟩, ⟨1, 1, .ro, 0x0⟩, ⟨2, 1, .ro, 0x0⟩, ⟨3, 1, .ro, 0x0⟩]⟩,
   ⟨0x1000004, 0, 1, 1, [⟨0, 1, .w1c, 0x0⟩, ⟨1, 1, .w1c, 0x0⟩, ⟨2, 1, .w1c, 0x0⟩, ⟨3, 1, .w1c, 0x0⟩, ⟨4, 1, .w1c, 0x0⟩, ⟨8, 3, .ro, 0x0⟩]⟩,
   ⟨0x1000008, 0, 1, 1, [⟨0, 32, .ro, 0x80C3⟩]⟩,
   ⟨0x100000C, 0, 1, 1, [⟨0, 32, .ro, 0x0⟩]⟩,
   ⟨0x1000010, 0, 1, 1, [⟨0, 32, .ro, 0x0⟩]⟩,
   ⟨0x1000014, 0, 1, 1, [⟨0, 32, .ro, 0x0⟩]⟩,
   ⟨0x1000018, 0, 1, 1, [⟨0, 32, .ro, 0x0⟩]⟩,
   ⟨0x100001C, 0, 1, 1, [⟨0, 32, .ro, 0x0⟩]⟩,
   ⟨0x1000020, 0, 1, 1, [⟨0, 32, .ro, 0x0⟩]⟩,
   ⟨0x1000100, 16, 8, 4, [⟨0, 2, .ro, 0x0⟩, ⟨2, 1, .ro, 0x0⟩, ⟨3, 1, .ro, 0x0⟩, ⟨8, 8, .ro, 0x0⟩, ⟨16, 7, .ro, 0x0⟩, ⟨32, 32, .ro, 0x0⟩, ⟨64, 64, .ro, 0x0⟩]⟩,
   ⟨0x1200000, 0, 1, 1, [⟨0, 4, .wo, 0x0⟩, ⟨4, 1, .wo, 0x0⟩, ⟨5, 1, .wo, 0x0⟩, ⟨6, 1, .wo, 0x0⟩, ⟨8, 3, .ro, 0x0⟩, ⟨11, 1, .ro, 0x0⟩]⟩,
   ⟨0x1200004, 0, 1, 1, [⟨0, 4, .ro, 0x0⟩, ⟨4, 4, .ro, 0x0⟩, ⟨8, 1, .ro, 0x0⟩, ⟨9, 1, .ro, 0x0⟩, ⟨10, 1, .ro, 0x0⟩, ⟨11, 1, .ro, 0x0⟩, ⟨16, 7, .ro, 0x0⟩]⟩,
   ⟨0x1200008, 0, 1, 1, [⟨0, 32, .ro, 0x0⟩]⟩,
   ⟨0x1200010, 4, 4, 1, [⟨0, 32, .ro, 0x0⟩]⟩,
   ⟨0x1200020, 0, 1, 1, [⟨0, 27, .ro, 0x0⟩]⟩,
   ⟨0x1200024, 0, 1, 1, [⟨0, 27, .ro, 0x0⟩]⟩,
   ⟨0x1200030, 0, 1, 1, [⟨0, 32, .rw, 0x0⟩]⟩,
   ⟨0x1200034, 0, 1, 1, [⟨0, 32, .rw, 0x0⟩]⟩,
   ⟨0x1200038, 0, 1, 1, [⟨0, 8, .wo, 0x0⟩, ⟨8, 1, .wo, 0x0⟩, ⟨9, 1, .wo, 0x0⟩, ⟨10, 3, .ro, 0x0⟩, ⟨13, 1, .ro, 0x0⟩]⟩,
   ⟨0x120003C, 0, 1, 1, [⟨0, 12, .ro, 0x0⟩, ⟨12, 12, .ro, 0x0⟩, ⟨24, 1, .ro, 0x0⟩]⟩,
   ⟨0x1200040, 0, 1, 1, [⟨0, 5, .wo, 0x0⟩, ⟨5, 1, .wo, 0x0⟩, ⟨6, 1, .wo, 0x0⟩, ⟨8, 3, .ro, 0x0⟩, ⟨11, 1, .ro, 0x0⟩]⟩,
   ⟨0x1200100, 16, 64, 4, [⟨0, 8, .ro, 0x0⟩, ⟨8, 1, .ro, 0x0⟩, ⟨31, 1, .w1c, 0x0⟩, ⟨64, 64, .ro, 0x0⟩]⟩,
   ⟨0x10000, 16, 2048, 4, [⟨0, 32, .rw, 0x0⟩, ⟨32, 32, .rw, 0x0⟩, ⟨64, 32, .rw, 0x0⟩, ⟨96, 1, .rw, 0x1⟩]⟩,
   ⟨0x18000, 4, 64, 1, [⟨0, 32, .ro, 0x0⟩]⟩]

/-- The registers of PCIe configuration space: the header, and the capabilities of power management, MSI-X and PCI Express (R269).
[PRESUMED: log 167] -/
def configTable : List RegDef :=
  [⟨0x4000000, 0, 1, 1, [⟨0, 16, .ro, 0x1EB9⟩, ⟨16, 16, .ro, 0x0B09⟩]⟩,
   ⟨0x4000004, 0, 1, 1, [⟨1, 1, .rw, 0x0⟩, ⟨2, 1, .rw, 0x0⟩, ⟨20, 1, .ro, 0x1⟩]⟩,
   ⟨0x4000008, 0, 1, 1, [⟨0, 8, .ro, 0xB0⟩, ⟨8, 24, .ro, 0x120000⟩]⟩,
   ⟨0x4000010, 0, 1, 2, [⟨1, 2, .ro, 0x2⟩, ⟨3, 1, .ro, 0x0⟩, ⟨26, 38, .rw, 0x0⟩]⟩,
   ⟨0x4000018, 0, 1, 2, [⟨1, 2, .ro, 0x2⟩, ⟨3, 1, .ro, 0x1⟩, ⟨28, 36, .rw, 0x0⟩]⟩,
   ⟨0x4000020, 0, 1, 2, [⟨1, 2, .ro, 0x2⟩, ⟨3, 1, .ro, 0x0⟩, ⟨17, 47, .rw, 0x0⟩]⟩,
   ⟨0x4000034, 0, 1, 1, [⟨0, 8, .ro, 0x40⟩]⟩,
   ⟨0x4000040, 0, 1, 1, [⟨0, 8, .ro, 0x01⟩, ⟨8, 8, .ro, 0x48⟩, ⟨16, 3, .ro, 0x3⟩]⟩,
   ⟨0x4000044, 0, 1, 1, [⟨0, 2, .rw, 0x0⟩, ⟨3, 1, .ro, 0x1⟩]⟩,
   ⟨0x4000048, 0, 1, 1, [⟨0, 8, .ro, 0x11⟩, ⟨8, 8, .ro, 0x58⟩, ⟨16, 11, .ro, 0x7FF⟩, ⟨30, 1, .rw, 0x0⟩, ⟨31, 1, .rw, 0x0⟩]⟩,
   ⟨0x400004C, 0, 1, 1, [⟨0, 32, .ro, 0x10000⟩]⟩,
   ⟨0x4000050, 0, 1, 1, [⟨0, 32, .ro, 0x18000⟩]⟩,
   ⟨0x4000058, 0, 1, 1, [⟨0, 8, .ro, 0x10⟩, ⟨8, 8, .ro, 0x0⟩, ⟨16, 4, .ro, 0x2⟩]⟩,
   ⟨0x4000060, 0, 1, 1, [⟨5, 3, .rw, 0x0⟩, ⟨12, 3, .rw, 0x2⟩]⟩]

/-- Every register of BAR0 (R648) and of configuration space. -/
def regTable : List RegDef :=
  regTable0 ++ regTable1 ++ regTable2 ++ regTable3 ++ regTable4 ++ regTable5 ++ regTable6 ++ regTable7 ++ regTable8 ++ regTable9 ++ regTable10 ++
    configTable

/-- The register that holds BAR0 offset `a`, with the index of `a`'s word within it. -/
@[irreducible] def findReg (a : Nat) : Option (RegDef × Nat) :=
  match regTable.find? (fun r => r.addr ≤ a && (if r.stride = 0 then decide (a < r.addr + 4 * r.words)
      else decide ((a - r.addr) / r.stride < r.count) && decide ((a - r.addr) % r.stride < 4 * r.words))) with
  | some r => some (r, (if r.stride = 0 then (a - r.addr) / 4 else (a - r.addr) % r.stride / 4))
  | none => none

/-- A register file: the register words that differ from reset, in rising order of BAR0 offset. [DESIGN CHOICE: log 7] -/
abbrev RegFile := List (Nat × Word)

/-- The word at offset `a`. [DESIGN CHOICE: log 7] -/
def RegFile.get (rs : RegFile) (a : Nat) : Word :=
  match rs with
  | [] => resetWord a
  | (b, w) :: t => if a = b then w else RegFile.get t a

/-- The list with word `w` at offset `a`, before the first larger offset. -/
def RegFile.insert (rs : RegFile) (a : Nat) (w : Word) : RegFile :=
  match rs with
  | [] => [(a, w)]
  | (b, v) :: t => if a < b then (a, w) :: (b, v) :: t else (b, v) :: RegFile.insert t a w

/-- The file with word `w` at offset `a`, in rising order, and no entry equal to its reset value. -/
def RegFile.set (rs : RegFile) (a : Nat) (w : Word) : RegFile :=
  let rest := rs.filter (fun (p : Nat × Word) => p.1 != a)
  if w = resetWord a then rest else RegFile.insert rest a w

/-- `n` consecutive words from offset `a`, as one little-endian number (R4). -/
def RegFile.words (rs : RegFile) (a : Nat) : Nat → Nat
  | 0 => 0
  | n + 1 => (rs.get a).toNat + 2 ^ 32 * RegFile.words rs (a + 4) n

/-- `n` consecutive words from offset `a` set to the little-endian words of `v`. -/
def RegFile.setWords (rs : RegFile) (a : Nat) (n : Nat) (v : Nat) : RegFile :=
  match n with
  | 0 => rs
  | k + 1 => RegFile.setWords (rs.set a (BitVec.ofNat 32 v)) (a + 4) k (v / 2 ^ 32)

/-- The first word a field touches. -/
def Field.base (f : Field) (i : Nat) : Nat := f.addr + i * f.stride + 4 * (f.lo / 32)

/-- How many words a field touches. -/
def Field.nwords (f : Field) : Nat := (f.lo % 32 + f.width + 31) / 32

/-- The value of field `f` of element `i`. -/
@[irreducible] def RegFile.fld (rs : RegFile) (f : Field) (i : Nat := 0) : Nat :=
  bits (rs.words (f.base i) f.nwords) (f.lo % 32) f.width

/-- Field `f` of element `i` set to `v` (modulo its width); every other bit stays. -/
@[irreducible] def RegFile.setFld (rs : RegFile) (f : Field) (v : Nat) (i : Nat := 0) : RegFile :=
  rs.setWords (f.base i) f.nwords (setBits (rs.words (f.base i) f.nwords) (f.lo % 32) f.width v)

/-- The canonical form of a register file: offsets strictly rising, and no entry equal to its reset value. -/
def RegFile.wf : RegFile → Bool
  | [] => true
  | [(a, w)] => decide (w ≠ resetWord a)
  | (a, w) :: (b, v) :: t => decide (w ≠ resetWord a) && decide (a < b) && RegFile.wf ((b, v) :: t)

end Sys2Proof.Machine
end

