-- ==== Sys2Proof/Syntax.lean ====
section
/-!
DEFINITION. The commands of the KB9, one constructor per row of the opcode table. What the world outside decides (what a
wire carries, where a cell fails, how long a tile ran) is an operand of the command that meets it.
-/
namespace Sys2Proof

/-- What the ECC or link check of one word finds (R20, R107, R108). Where a command names words, a finding is a word number (offset / 8)
with whether the error is uncorrectable; words that no finding names are clean. The errors of a DRAM burst are its bytes, 0 to 67 with the
check bytes, each with what is XORed into it; of several bursts, the burst number (offset / 64) comes first.
[DESIGN CHOICE: log 4] -/
inductive EccFinding where
  | clean
  | corrected
  | uncorrectable
  deriving DecidableEq, Repr

/-- What the parity check finds in the slots a record of SCAN reads (R153, R190): nothing, a bad slot 2 or 3, or a bad slot of
the stream's own pin. [DESIGN CHOICE: log 43] -/
inductive SlotFinding where
  | clean
  | working
  | pinned
  deriving DecidableEq, Repr

/-- How the host answers the reads of one copy tile (R278). [DESIGN CHOICE: log 4] -/
inductive HostReadError where
  | none
  | unsupportedRequest
  | completerAbort
  | poisonedTlp
  deriving DecidableEq, Repr

/-- The header check of a CSI-2 packet (R322). [DESIGN CHOICE: log 4] -/
inductive HeaderCheck where
  | good
  | corrected
  | bad
  deriving DecidableEq, Repr

/-- Who sends a dictionary request: the host mailbox, a field node (its network path), or a CAN FD controller.
[DESIGN CHOICE: log 116] -/
inductive Origin where
  | host
  | net (path : Nat)
  | can (ctl : Nat)
  | mgmt
  deriving DecidableEq, Repr

/-- A PTP message as the PTP engine meets it (R482): its messageType and sequence; and what the profile's protocol makes of
it, which the IEEE standards state: the port state the engine takes, and the master it selects, as clockIdentity and
portNumber, where it selects one. [DESIGN CHOICE: log 4, 109] -/
structure PtpMessage where
  kind : Nat
  sequence : Nat
  portState : Nat
  master : Option (Nat × Nat)
  deriving DecidableEq, Repr

/-- What stage 2 reads from the fuse banks (R603): banks corrected and failed; repairs as (bank, subarray, column, spare); Damask
spares as (group, position); clusters fused FAILED; SERIAL and DIE_ID (R495). [DESIGN CHOICE: log 4] -/
structure FuseReport where
  corrected : Nat
  failed : Nat
  serial : Nat
  dieId : Nat
  muslinRepairs : List (Nat × Nat × Nat × Nat)
  damaskSpares : List (Nat × Nat)
  twillFailed : List Nat
  deriving DecidableEq, Repr


/-- The commands of the KB9: one constructor per row of the opcode table, with the row's operands. -/
inductive Instr where
  /-- KEEPER_SUPPLY_ON (R596): Applying the Keeper supply starts domains 0, 1 and 2 from the boot fuse block, and the TKU starts at 0 in FREE_RUN. -/
  | keeperSupplyOn
  /-- KEEPER_SUPPLY_LOSS (R25): Loss of the Keeper supply resets the whole KB9. -/
  | keeperSupplyLoss
  /-- SYS_RESET_ASSERT (R635): A low level of SYS_RESET_N lasting 1 µs or more resets the whole KB9; shorter pulses are ignored. -/
  | sysResetAssert (lowNs : Nat)
  /-- SYS_RESET_RELEASE (R596): Releasing SYS_RESET_N starts the islands of domains 0, 1 and 2; the host interface answers within 100 ms. -/
  | sysResetRelease
  /-- RAIL_OUT_OF_WINDOW (R633): A non-Keeper rail out of window for 1 µs switches off every domain except 0 and clears bring-up progress. -/
  | railOutOfWindow (rail ns : Nat)
  /-- REGISTER_WRITE (R6): A host write to a register field that has no row of its own takes effect according to the field's access code. -/
  | registerWrite (addr size : Nat) (data : Word)
  /-- ISLAND_STALL (R23): A crossing entry that waits 100 µs isolates the receiving island, and dependent work completes with ISLAND_STALL. -/
  | islandStall (island unit : Nat)
  /-- OP_CHANGE_START (R29): At the end of the running Damask tile, a pending operating-point change stops issue while clocks and supply settle. -/
  | opChangeStart
  /-- OP_SETTLE_END (R29): At the end of the 10 µs settle, Damask resumes issue at the new operating point. -/
  | opSettleEnd
  /-- CONTROL_TICK (R32): A control tick falls at a whole multiple of the period; it is a commit instant and the Gwepo cycle start. -/
  | controlTick
  /-- COMMIT_INSTANT (R33): At a commit instant the KB9 applies due sessions, then latches results, then switches Jersey and Gwepo to the new values. -/
  | commitInstant
  /-- SUBMISSION_ENTRY_TAKE (R290): The queue manager takes one submission entry, hands the weave to the Dispatch Unit and advances CONSUMED. -/
  | submissionEntryTake
  /-- DESCRIPTOR_FETCH (R72): The Dispatch Unit reads a descriptor, at most 64 ahead, and checks it. -/
  | descriptorFetch (weave : Nat)
  /-- DESCRIPTOR_START (R81): When its engine is free, the Dispatch Unit starts the most urgent ready descriptor. -/
  | descriptorStart (unit : Nat)
  /-- TILE_END (R84): At the end of a tile, the running operation is suspended if a more urgent descriptor is ready. -/
  | tileEnd (unit ns : Nat)
  /-- OPERATION_RESUME (R87): A free engine restores a suspended operation on its own unit and continues with its next tile. -/
  | operationResume (unit : Nat)
  /-- OPERATION_COMPLETE (R96): An operation completes, and its record, signals and dependents are handled. -/
  | operationComplete (unit : Nat) (wrong : Bool)
  /-- HOLD_EXPIRE (R88): After HOLD_US, an engine held for a weave starts less urgent work. -/
  | holdExpire (unit : Nat)
  /-- DSP_CANCEL (R90): A write cancels every unstarted descriptor of weaves with the given WEAVE_ID. -/
  | dspCancel (weaveId : BitVec 16)
  /-- DSP_SIG_ADD (R77): A write adds an amount to a Dispatch signal. -/
  | dspSigAdd (sig : BitVec 8) (add : BitVec 24)
  /-- DSP_SIG_WRITE (R77): A write to DSP_SIGn sets the signal's value. -/
  | dspSigWrite (sig : BitVec 8) (value : Word)
  /-- STAT_CLEAR (R98): A write of 1 to STAT_CLEAR clears DSP_PREEMPT_STAT. -/
  | statClear
  /-- DSP_CTRL_ENABLE (R98): A write to ENABLE starts or stops the starting of ready descriptors. -/
  | dspCtrlEnable (on : Bool)
  /-- NOP (R78): A dispatch NOP completes as soon as it is ready. -/
  | nop (weave index : Nat)
  /-- WAIT_UNTIL (R78): A WAIT_UNTIL waits for its stated TKU time. -/
  | waitUntil (weave index : Nat)
  /-- WAIT_UNTIL_EXPIRE (R78): The WAIT_UNTIL completes when TKU time reaches its stated time. -/
  | waitUntilExpire (weave index : Nat)
  /-- SIG_SET (R78): SIG_SET sets a signal to a value and clears its poison bit. -/
  | sigSet (weave index : Nat)
  /-- TIMED_LAUNCH (R92): An enabled launch entry launches its weave at each FIRST + k × PERIOD_NS. -/
  | timedLaunch (entry : Nat)
  /-- MUSLIN_READ (R102): A read request wins bank arbitration and returns a line after ECC check. -/
  | muslinRead (addr len unit : Nat) (found net : List (Nat × Bool))
  /-- MUSLIN_WRITE (R101): A write request occupies its bank for one cycle, or two when it merges part of a word. -/
  | muslinWrite (addr unit : Nat) (data : List Byte) (net : List (Nat × Bool))
  /-- BIT_SET_WRITE (R103): A write through the bit-set alias ORs the data into each byte. -/
  | bitSetWrite (addr unit : Nat) (data : List Byte) (net : List (Nat × Bool))
  /-- BIT_CLEAR_WRITE (R103): A write through the bit-clear alias clears the data's bits in each byte. -/
  | bitClearWrite (addr unit : Nat) (data : List Byte) (net : List (Nat × Bool))
  /-- ECC_WRITEBACK (R107): The corrected word is written back in the bank's next free cycle. -/
  | eccWriteback
  /-- HATOM_SET (R105): A host write to MSL_HATOM_SET performs an atomic bit-set and latches the old value. -/
  | hatomSet (mask : Word) (net : EccFinding)
  /-- HATOM_CLR (R105): A host write to MSL_HATOM_CLR performs an atomic bit-clear and latches the old value. -/
  | hatomClr (mask : Word) (net : EccFinding)
  /-- BAR2_READ (R274): A host read through BAR2 reads Muslin in the BAR2 class, poisoned or aborted where applicable. -/
  | bar2Read (addr len : Nat) (found net : List (Nat × Bool))
  /-- BAR2_WRITE (R274): A host write through BAR2 writes Muslin, and is dropped for an off or isolated group. -/
  | bar2Write (addr : Nat) (data : List Byte) (net : List (Nat × Bool))
  /-- PATROL_SCRUB_READ (R110): The scrubber reads the next line of each bank of each active group and corrects it. -/
  | patrolScrubRead (group : Option Nat) (found : List (Nat × Bool))
  /-- RETENTION_ENTRY (R113): After RET_IDLE_US without requests, an allowed group drains, isolates and drops to 0.45 V. -/
  | retentionEntry (group : Nat)
  /-- RETENTION_WAKE_DONE (R113): 18 µs after a wake request, the group serves its held requests in arrival order. -/
  | retentionWakeDone (group : Nat)
  /-- GROUP_FILL_DONE (R116): After 20 µs of fill, the group serves held requests. -/
  | groupFillDone (group : Nat)
  /-- BT_REGION_START (R125): Every GAP_MS, the background test saves the next 4 KiB region into the spare buffer and redirects access to it. -/
  | btRegionStart (found : List (Nat × Bool))
  /-- BT_REGION_END (R127): After march and analysis, the region is classified, repaired where possible and restored. -/
  | btRegionEnd (bad : List (Nat × Nat × Nat))
  /-- SOFT_REPAIR_SWEEP_DONE (R119): After the sweep, reads are steered to the spare, and the repair is logged and reported. -/
  | softRepairSweepDone (found : List (Nat × Bool))
  /-- MSL_REPAIR_APPLY (R124): A write of GO applies the repair record in MSL_REPAIR_APPLY and reports RESULT. -/
  | mslRepairApply
  /-- MATMUL (R154): Damask computes OUT = A × B plus C in output blocks, tile by tile. -/
  | matmul (stalls : Nat) (parity : Bool)
  /-- PIN (R151): PIN reserves and clears a slot rectangle for a stream. -/
  | pin (stalls : Nat)
  /-- UNPIN (R151): UNPIN frees a matching pin. -/
  | unpin (stalls : Nat)
  /-- SLOT_SAVE (R163): SLOT_SAVE copies a pinned rectangle's raw slots to Muslin. -/
  | slotSave (stalls : Nat) (parity : Bool)
  /-- SLOT_LOAD (R163): SLOT_LOAD copies Muslin into a pinned rectangle. -/
  | slotLoad (stalls : Nat)
  /-- COLUMN_TEST (R164): COLUMN_TEST runs known-answer patterns through all 264 physical columns. -/
  | columnTest (stalls : Nat) (failing : List Nat) (parity : Bool)
  /-- DMK_SPARE_REQUEST (R170): A write of COLUMN with GO requests an in-service spare swap. -/
  | dmkSpareRequest (column : BitVec 8)
  /-- SPARE_SWAP_START (R170): The swap starts when Damask has no running operation and no ready descriptor. -/
  | spareSwapStart
  /-- SPARE_SWAP_WAIT_TIMEOUT (R170): After 10 ms of waiting, the swap starts at the next moment with no running operation. -/
  | spareSwapWaitTimeout
  /-- SPARE_SWAP_END (R171): 40 µs after it starts, the swap records or reverts, writes RESULT and raises the Damask event. -/
  | spareSwapEnd (pass : Bool) (badPins : List Nat)
  /-- SCAN (R184): SCAN applies each record's chunk of recurrent steps to its pinned stream. -/
  | scan (stalls : Nat) (slots : SlotFinding)
  /-- ANCHOR (R193): ANCHOR replaces a stream's state with its converted FP32 shadow if the step counts match. -/
  | anchor (stalls : Nat)
  /-- CHECKPOINT (R194): CHECKPOINT writes a stream's header and slot image with a CRC. -/
  | checkpoint (stalls : Nat) (parity : Bool)
  /-- RESTORE (R195): RESTORE checks an image and loads it into a stream. -/
  | restore (stalls : Nat)
  /-- KV_WRITE (R213): KV_WRITE replaces a sequence descriptor. -/
  | kvWrite (seq : Nat)
  /-- KV_SWAP (R213): KV_SWAP replaces a sequence's list and state addresses if CHANGES matches. -/
  | kvSwap (seq : Nat)
  /-- KV_INVALIDATE (R213): KV_INVALIDATE clears a descriptor's VALID. -/
  | kvInvalidate (seq : Nat)
  /-- KV_CLEAR_HELD (R213): KV_CLEAR_HELD clears a sequence's HELD. -/
  | kvClearHeld (seq : Nat)
  /-- KV_RESUME (R231): KV_RESUME makes a held ATU operation ready again. -/
  | kvResume (slot : Nat)
  /-- KV_ABANDON (R232): KV_ABANDON ends a held operation's held entries with KV_ABANDONED. -/
  | kvAbandon (slot : Nat)
  /-- KV_FENCE (R204): KV_FENCE sets BUSY until earlier page fetches complete. -/
  | kvFence
  /-- KV_FENCE_DONE (R204): When every earlier page fetch has completed, the fence clears BUSY. -/
  | kvFenceDone
  /-- ATU_FREE_PUSH (R205): A write of a frame to ATU_FREE_PUSH appends it to the free FIFO or is refused. -/
  | atuFreePush (frame : BitVec 17)
  /-- ATTN_DECODE (R220): ATTN_DECODE appends a token and attends for each batch entry. -/
  | attnDecode
  /-- ATTN_PREFILL (R228): ATTN_PREFILL appends T tokens and attends over them. -/
  | attnPrefill
  /-- UNARY (R246): Twill applies an elementwise unary function. -/
  | unary (cluster stalls : Nat) (ecc : EccFinding)
  /-- BINARY (R246): Twill applies an elementwise binary function. -/
  | binary (cluster stalls : Nat) (ecc : EccFinding)
  /-- TERNARY (R244): Twill applies FMA, SELECT, CLAMP or LERP. -/
  | ternary (cluster stalls : Nat) (ecc : EccFinding)
  /-- REDUCE (R248): Twill reduces each row in its fixed tree order. -/
  | reduce (cluster stalls : Nat) (ecc : EccFinding)
  /-- CUMULATIVE (R248): Twill computes a sequential cumulative sum, product or maximum. -/
  | cumulative (cluster stalls : Nat) (ecc : EccFinding)
  /-- SOFTMAX (R249): Twill computes softmax, log-softmax or masked softmax per row. -/
  | softmax (cluster stalls : Nat) (ecc : EccFinding)
  /-- NORM (R249): Twill computes a layer, RMS or L2 normalisation. -/
  | norm (cluster stalls : Nat) (ecc : EccFinding)
  /-- OPTIM (R250): Twill performs an optimiser step on weights and state. -/
  | optim (cluster stalls : Nat) (ecc : EccFinding)
  /-- TOPK (R251): Twill selects the top k values and indices of each row. -/
  | topk (cluster stalls : Nat) (ecc : EccFinding)
  /-- SAMPLE (R252): Twill samples one token per row of logits. -/
  | sample (cluster stalls : Nat) (ecc : EccFinding)
  /-- CONVERT (R244): Twill converts formats or applies row scales. -/
  | convert (cluster stalls : Nat) (ecc : EccFinding)
  /-- LAYOUT (R244): Twill transposes, gathers, scatters, fills or pads. -/
  | layout (cluster stalls : Nat) (ecc : EccFinding)
  /-- ROPE (R244): Twill applies a rotary position embedding. -/
  | rope (cluster stalls : Nat) (ecc : EccFinding)
  /-- LOSS (R249): Twill computes a cross-entropy or MSE loss term. -/
  | loss (cluster stalls : Nat) (ecc : EccFinding)
  /-- BACKWARD (R244): Twill computes a backward derivative product. -/
  | backward (cluster stalls : Nat) (ecc : EccFinding)
  /-- STATS (R244): Twill computes a histogram, mean and variance, or minimum and maximum. -/
  | stats (cluster stalls : Nat) (ecc : EccFinding)
  /-- SHADOW_SCAN (R256): Twill applies SCAN records to a stream's FP32 shadow. -/
  | shadowScan (cluster stalls : Nat) (ecc : EccFinding)
  /-- VMATMUL (R258): Twill computes a matrix product with rounded products and a tree sum. -/
  | vmatmul (cluster stalls : Nat) (ecc : EccFinding)
  /-- COPY (R260): The copy engine moves bytes row by row. -/
  | copy (port : Nat) (error : HostReadError)
  /-- FILL (R259): The copy engine writes a 32-bit pattern row by row. -/
  | fill (port : Nat)
  /-- HOST_COMPLETION_TIMEOUT (R278): A host read not completed within 10 ms fails the copy with HIF_HOST_ERROR. -/
  | hostCompletionTimeout (port : Nat)
  /-- TWL_REMOVE (R264): REMOVE takes a cluster out of service, optionally activating a spare. -/
  | twlRemove (cluster : Nat) (force autoSpare : Bool)
  /-- TWL_TEST (R263): TEST runs the known-answer run on a removed cluster. -/
  | twlTest (cluster : Nat)
  /-- TWL_RETURN (R263): RETURN makes a removed cluster that passed its test a spare. -/
  | twlReturn (cluster : Nat)
  /-- TWL_ACTIVATE (R263): ACTIVATE tests a spare cluster and makes it active. -/
  | twlActivate (cluster : Nat)
  /-- TWL_KAT_END (R264): After 400 µs, a cluster's known-answer run passes or the cluster becomes FAILED. -/
  | twlKatEnd (pass : Bool)
  /-- TWL_DRAIN_DONE (R264): A draining cluster with no work left is isolated, gated and REMOVED. -/
  | twlDrainDone
  /-- TWL_GNG_PAIR_WRITE (R257): A write names Gingham's cluster pair, or is refused with PAIR_BAD. -/
  | twlGngPairWrite (data : Word)
  /-- FUNCTION_LEVEL_RESET (R270): An FLR resets host-facing state only and disables host queues. -/
  | functionLevelReset
  /-- HOT_RESET (R270): A hot reset resets host-facing state only. -/
  | hotReset
  /-- PERST_ASSERT (R270): Asserting PERST_N resets host-facing state only. -/
  | perstAssert
  /-- PERST_RELEASE (R635): Releasing PERST_N starts link training within 20 ms. -/
  | perstRelease
  /-- LINK_DOWN (R270): A link-down event resets host-facing state only. -/
  | linkDown
  /-- QUEUE_ENABLE (R284): ENABLE checks a queue context and enables the queue. -/
  | queueEnable (queue : Nat)
  /-- QUEUE_DISABLE (R284): DISABLE stops a queue and drops its spilled records. -/
  | queueDisable (queue : Nat)
  /-- QUEUE_QUERY (R299): QUERY writes a queue's counts and flags to QMG_QDATA. -/
  | queueQuery (queue : Nat)
  /-- DOORBELL_WRITE (R286): A doorbell write advances the host-side count if it passes its checks. -/
  | doorbellWrite (offset size : Nat) (value : Word)
  /-- SPILL_DRAIN (R292): Spilled records drain into a ring in order as CONSUMED frees slots. -/
  | spillDrain (queue : Nat)
  /-- COALESCE_TIMER_EXPIRE (R294): COAL_US after the first uncovered record, the completion queue's vector is sent. -/
  | coalesceTimerExpire (queue : Nat)
  /-- DRAM_READ (R305): The DRC maps and reads a burst, correcting or poisoning it. -/
  | dramRead (addr unit : Nat) (errors : List (Nat × Byte)) (net : List (Nat × Bool))
  /-- DRAM_WRITE (R306): The DRC writes a burst, merging a partial burst with ECC on. -/
  | dramWrite (addr unit : Nat) (data : List Byte) (errors : List (Nat × Nat × Byte)) (net : List (Nat × Bool))
  /-- DRAM_CE_WRITEBACK (R305): A corrected burst is written back at background priority. -/
  | dramCeWriteback
  /-- DRAM_SCRUB (R307): The DRC reads each burst once per scrub period and corrects it. -/
  | dramScrub (errors : List (Nat × Byte))
  /-- DRC_RETIRE (R309): A write of GO starts the retirement of a DRAM page onto a spare. -/
  | drcRetire (frameEn : Bool) (frame : BitVec 17)
  /-- RETIRE_COPY_DONE (R309): After the copy, access goes to the spare and the entry becomes VALID. -/
  | retireCopyDone (errors : List (Nat × Nat × Byte))
  /-- DRC_PAIR_RETIRE (R313): A write of GO with PAIR retires a channel pair under QUIESCE. -/
  | drcPairRetire (pair : BitVec 3)
  /-- PAIR_RETIRE_DONE (R313): The pair retirement completes, and the DRC runs on 14 channels. -/
  | pairRetireDone
  /-- DRC_TRAIN_START (R315): A write of START runs full DRAM training. -/
  | drcTrainStart
  /-- DRC_TRAIN_RESTORE (R315): START with RESTORE restores stored training results and verifies them. -/
  | drcTrainRestore
  /-- TRAINING_DONE (R315): Training ends, setting FAIL bits or TRAINED. -/
  | trainingDone (fail : BitVec 16)
  /-- WCK2DQ_CORRECTION (R316): Every PERIOD_MS, the DRC reads a channel's oscillators and corrects timing. -/
  | wck2dqCorrection (channel : Nat)
  /-- DRAM_TEMP_READ (R316): Every 16 ms, the DRC reads device temperatures and derates refresh. -/
  | dramTempRead (derate : Nat) (high : Bool)
  /-- REFRESH_MANAGEMENT (R316): A device's activation count at threshold triggers a refresh-management command. -/
  | refreshManagement (channel : Nat)
  /-- SELF_REFRESH_ENTRY (R317): On request, or after 1 ms idle in Sentinel, the channels enter self-refresh. -/
  | selfRefreshEntry
  /-- SELF_REFRESH_EXIT (R317): A held request brings the channels out of self-refresh in 8 µs. -/
  | selfRefreshExit
  /-- CSI2_FRAME_START (R338): An FS packet opens a frame in the next free buffer of each matching pipe. -/
  | csi2FrameStart (rx vc frameNumber : Nat) (hdr : HeaderCheck)
  /-- CSI2_LONG_PACKET (R322): A line or embedded-data packet is checked and processed by the pipe. -/
  | csi2LongPacket (rx vc dataType : Nat) (payload : List Byte) (hdr : HeaderCheck) (crcOk : Bool) (full : List Nat)
  /-- CSI2_FRAME_END (R322): An FE packet closes the frame, filling missing lines. -/
  | csi2FrameEnd (rx vc : Nat) (hdr : HeaderCheck)
  /-- FRAME_RECORD_WRITE (R338): Once the frame's writes are visible, Gauze writes the record with READY and posts the signal. -/
  | frameRecordWrite (pipe : Nat)
  /-- SENSOR_ETH_FRAME (R324): A sensor Ethernet frame goes to its first matching filter. -/
  | sensorEthFrame (port sfdNs : Nat) (frame : List Byte) (fcsOk : Bool)
  /-- SCAN_CLOSE (R328): 50 µs after its window ends, the scan closes, and its record and signal are written. -/
  | scanClose (filter : Nat)
  /-- SPI_DRDY_EDGE (R329): A data-ready edge starts an SPI transaction, or counts as MISSED. -/
  | spiDrdyEdge (port : Nat) (rising : Bool)
  /-- SPI_TIMED_START (R329): An epoch or period starts an SPI transaction, or counts as MISSED. -/
  | spiTimedStart (port : Nat)
  /-- SPI_TRANSACTION_END (R330): The finished transaction writes a sample record to the lossy ring. -/
  | spiTransactionEnd (port : Nat) (data : List Byte)
  /-- TRIGGER_EPOCH (R331): A trigger group's epoch falls and takes its epoch number. -/
  | triggerEpoch (group : Nat)
  /-- TRIGGER_ASSERT (R332): An output asserts at epoch time + OFFSET_NS. -/
  | triggerAssert (output : Nat)
  /-- TRIGGER_DEASSERT (R332): An output deasserts WIDTH_NS after it asserted. -/
  | triggerDeassert (output : Nat)
  /-- BATCH (R352): Gauze turns a list of KRS records into one batch tensor, with a mask and result records. -/
  | batch (units stalls : Nat)
  /-- FUSE (R366): Tweed selects an epoch, gathers records and fuses at the enabled levels. -/
  | fuse (units stalls : Nat)
  /-- TRACK_IMPORT (R384): TRACK_IMPORT loads a track list and starts table tracking. -/
  | trackImport
  /-- TRACK_EXPORT (R385): TRACK_EXPORT writes the table and hands tracking to a network. -/
  | trackExport
  /-- TRACK_DELETE (R382): A DELETE command sets a track's entry FREE, or is counted stale. -/
  | trackDelete (track : BitVec 16)
  /-- TRACK_CONFIRM (R382): A CONFIRM command confirms a TENTATIVE track. -/
  | trackConfirm (track : BitVec 16)
  /-- TRACK_CMD_DEFERRED_APPLY (R382): A track command that waited for a Tweed operation takes effect within 1 µs of its completion. -/
  | trackCmdDeferredApply
  /-- PLAN (R407): Tulle computes the wavefront, searches primitives and verifies the chosen path. -/
  | plan (stalls : Nat)
  /-- PLAN_BUDGET_EXPIRE (R408): At start + BUDGET_US - RESERVE_US, the search stops with REASON 1. -/
  | planBudgetExpire
  /-- REPAIR (R412): Tulle rechecks a path and replans its failing span locally. -/
  | tulRepair (stalls : Nat)
  /-- WORLD_EDIT (R396): Tulle applies object and grid edits, updates the index and advances the generation. -/
  | worldEdit (stalls : Nat)
  /-- TULLE_ENABLE (R416): ENABLE from 0 to 1 reads the primitive table and starts building the index. -/
  | tulleEnable
  /-- TULLE_READY (R416): When the index is built, the generation advances and READY is set. -/
  | tulleReady
  /-- LOAD (R423): Canvas checks a schedule and binds it to a slot. -/
  | cnvLoad (inst : Nat)
  /-- SOLVE (R432): Canvas applies deltas, factors if asked, solves and refines. -/
  | cnvSolve (inst : Nat) (stalls corrected : Nat) (uncorrectable : Bool)
  /-- UNLOAD (R423): UNLOAD frees a Canvas slot. -/
  | cnvUnload (inst : Nat)
  /-- CNV_REMOVE (R443): REMOVE takes a Canvas instance out of service. -/
  | cnvRemove (inst : Nat) (force : Bool)
  /-- CNV_TEST (R443): TEST runs a Canvas known-answer factorisation and solve. -/
  | cnvTest (inst : Nat)
  /-- CNV_RETURN (R443): RETURN puts a tested instance back in service with its slots empty. -/
  | cnvReturn (inst : Nat)
  /-- CNV_DRAIN_DONE (R443): A draining instance with its operations complete becomes OUT. -/
  | cnvDrainDone (inst : Nat)
  /-- CNV_KAT_END (R443): After 300 µs, the Canvas test sets TEST_PASS or fails the instance. -/
  | cnvKatEnd (inst : Nat) (pass : Bool)
  /-- JERSEY_TICK (R447): At each Jersey tick, every sampling lane runs stage by stage and drives its destinations. -/
  | jerseyTick (sd parity : List Nat)
  /-- JERSEY_QUEUE_TAKE (R456): Jersey takes a set-point queue entry within 200 ns and stamps its values as pending. -/
  | jerseyQueueTake (slot : Nat)
  /-- PWM_PERIOD_START (R462): A PWM period starts and applies the shadowed duty. -/
  | pwmPeriodStart (pin : Nat)
  /-- PULSE_INPUT_EDGE (R460): A filtered pulse-input edge counts ±1 or an illegal step. -/
  | pulseInputEdge (input : Nat) (a b : Bool)
  /-- JRS_SWAP (R467): A write of GO starts the swap of a lane onto its datapath spare. -/
  | jrsSwap (lane : BitVec 8)
  /-- JRS_SWAP_KAT_END (R467): After 20 µs, the spare's known-answer run passes or sets SPARE_BAD. -/
  | jrsSwapKatEnd (pass : Bool)
  /-- JRS_SWAP_LOAD (R467): At the first quiet moment of the lane, the spare is loaded with its configuration and states. -/
  | jrsSwapLoad (parity : Bool)
  /-- JRS_SWAP_DONE (R467): 2 µs after the load, the lane runs on the spare and RESULT is written. -/
  | jrsSwapDone
  /-- JERSEY_DISABLE (R466): Writing JRS_CTRL.ENABLE 0 stops every lane, which writes its fault value without FAULT. -/
  | jerseyDisable
  /-- SNAP (R475): SNAP copies the clock into the TKU_TIME registers. -/
  | tkuSnap
  /-- SET (R476): SET loads the clock from the TKU_TIME registers as a step. -/
  | tkuSet (force : Bool)
  /-- STEP (R476): STEP adds a signed nanosecond count to the clock. -/
  | tkuStep (force : Bool)
  /-- FORCE_PENDING (R488): FORCE_PENDING steps by the pending refused offset and locks. -/
  | forcePending
  /-- RELOCK (R488): RELOCK returns the correction unit to ACQUIRING. -/
  | relock
  /-- OFFSET_ARRIVE (R486): An offset from the PTP engine steps, locks, disciplines or is refused. -/
  | offsetArrive (offset logSync : Int) (seen : Nat)
  /-- OFFSET_SUBMIT (R489): A write of TKU_OFFSET_INTERVAL submits a host offset. -/
  | offsetSubmit (intervalUs : Nat)
  /-- HOLDOVER_TIMEOUT (R487): SYNC_LOSS_MS without an offset moves LOCKED to HOLDOVER. -/
  | holdoverTimeout
  /-- PTP_EVENT_RX (R482): A received PTP message is stamped and handled by the PTP engine. -/
  | ptpEventRx (port : Nat) (message : PtpMessage)
  /-- PTP_EVENT_TX (R482): A transmitted PTP event message is stamped, in one or two steps. -/
  | ptpEventTx (port : Nat) (message : PtpMessage)
  /-- TX_TIMESTAMP_CAPTURE (R483): A host frame's transmit stamp is queued, discarded as stale, or dropped on overflow. -/
  | txTimestampCapture (port id : Nat)
  /-- TXTS_POP (R484): A read of TKU_TXTS0 removes the head entry of the time-stamp queue. -/
  | txtsPop
  /-- ODX_READ (R493): READ returns an entry's committed or staged value. -/
  | odxRead (origin : Origin) (session index sub : Nat) (storeUe : Bool)
  /-- DESCRIBE (R494): DESCRIBE returns an entry's descriptor and default. -/
  | odxDescribe (origin : Origin) (index sub : Nat)
  /-- OPEN (R501): OPEN takes the lowest free session. -/
  | odxOpen (origin : Origin) (token : Word)
  /-- STAGE (R500): STAGE checks a value, stages it and reserves the entry. -/
  | odxStage (origin : Origin) (session index sub : Nat) (value : List Byte) (token : Word)
  /-- COMMIT (R505): COMMIT checks a session against the projected state and arms it. -/
  | odxCommit (origin : Origin) (session : Nat) (time : BitVec 64) (token : Word)
  /-- ABORT (R507): ABORT frees an open or armed session. -/
  | odxAbort (origin : Origin) (session : Nat) (token : Word)
  /-- ODX_WRITE (R503): WRITE runs a command, makes an implicit write, or stages into a session. -/
  | odxWrite (origin : Origin) (session index sub : Nat) (value : List Byte) (token : Word)
  /-- NET_SESSION_OPEN (R501): A network write to 0xA100+s:04 opens session s for its path. -/
  | netSessionOpen (path session : Nat) (token : Word)
  /-- NET_SESSION_COMMIT (R505): A network write to 0xA100+s:05 commits the session. -/
  | netSessionCommit (path session : Nat) (token : Word) (time : BitVec 64)
  /-- NET_SESSION_ABORT (R507): A write to 0xA100+s:06 aborts the session. -/
  | netSessionAbort (path session : Nat) (token : Word)
  /-- NOTE (R509): A write of NOTE appends a NOTE record to the journal. -/
  | odxNote (origin : Origin) (value : List Byte) (token : Word)
  /-- SAVE (R518): SAVE writes the non-default saved parameters to DICT_IMAGE. -/
  | odxSave (origin : Origin) (token : Word)
  /-- CLEAR_IMAGE (R518): CLEAR_IMAGE erases DICT_IMAGE. -/
  | clearImage (origin : Origin) (token : Word)
  /-- SAVE_DONE (R518): A SAVE or CLEAR_IMAGE completes, and SAVE_BUSY clears. -/
  | saveDone
  /-- SESSION_EXPIRE (R507): An open session not committed within SESSION_TIMEOUT_MS expires. -/
  | sessionExpire (session : Nat)
  /-- JOURNAL_MIRROR (R516): The Keeper mirrors journal records to flash, writing MIRROR_GAP for lost ones. -/
  | journalMirror (readBackOk : Bool)
  /-- TAG_PERSIST (R496): Within 100 ms of a tag commit, all tags are written to the TAGS partition. -/
  | tagPersist (readBackOk : Bool)
  /-- FIELD_FRAME_RX (R525): A field-port frame is filtered and routed to Gwepo, PTP, the host ring or dropped. -/
  | fieldFrameRx (port : Nat) (frame : List Byte) (fcsOk : Bool)
  /-- HOST_TX_PROD (R526): A write of PROD makes new host transmit descriptors available. -/
  | hostTxProd (port : Nat) (value : Word)
  /-- HOST_TX_FRAME_DONE (R526): A host frame leaves or is dropped, and DONE is written. -/
  | hostTxFrameDone (port : Nat)
  /-- GATE_LIST_ENTRY (R522): The next Qbv list entry opens and closes traffic-class gates. -/
  | gateListEntry (port : Nat)
  /-- STREAM_GATE_ENTRY (R524): The next Qci stream-gate entry takes effect. -/
  | streamGateEntry (port gate : Nat)
  /-- PREEMPT_VERIFY_DONE (R523): Successful verification makes preemption active. -/
  | preemptVerifyDone (port : Nat)
  /-- GWEPO_SYNC_TX (R531): The SYNC frame leaves at T + 600 ns, or the cycle fails with NO_SYNC. -/
  | gwepoSyncTx (port sfdNs : Nat)
  /-- GWEPO_IN_HEADER (R532): An IN frame header is judged and, if accepted, triggers the OUT turnaround. -/
  | gwepoInHeader (node sfdNs turnNs : Nat) (header : List Byte)
  /-- GWEPO_IN_FRAME_END (R535): A good FCS makes the slice latest; a bad one fails the cycle with IN_BAD. -/
  | gwepoInFrameEnd (node : Nat) (fcsOk : Bool) (payload : List Byte)
  /-- GWEPO_IN_WINDOW_CLOSE (R536): The node's cycle outcome is decided and counted. -/
  | gwepoInWindowClose (node : Nat)
  /-- GWEPO_ACYC_REQ (R537): A granted node's acyclic request is executed or answered from the kept copy. -/
  | gwepoAcycReq (node sfdNs : Nat) (request : List Byte)
  /-- GWEPO_ACYC_RSP_TX (R537): The response leaves at the first acyclic window after the request completes. -/
  | gwepoAcycRspTx
  /-- SDO_REQUEST (R541): A CAN FD SDO frame uploads or downloads a dictionary entry, or aborts. -/
  | sdoRequest (ctl : Nat) (canFd : Bool) (data : List Byte)
  /-- SDO_SEGMENT_TIMEOUT (R541): A segmented transfer without a segment for 1,000 ms is aborted. -/
  | sdoSegmentTimeout (ctl : Nat)
  /-- CAN_HEARTBEAT (R540): Each enabled controller sends its heartbeat at the producer period. -/
  | canHeartbeat (ctl : Nat)
  /-- CAN_BUS_OFF_RECOVERY (R539): After 128 occurrences of 11 recessive bits, a bus-off controller recovers. -/
  | canBusOffRecovery (ctl : Nat)
  /-- ESTIMATE_WINDOW_END (R545): Every 2 µs, the power manager estimates domain power and sets Damask credits. -/
  | estimateWindowEnd (counts : List Nat)
  /-- PMBUS_READ (R556): Every 1 ms, the power manager reads measured power over PMBus. -/
  | pmbusRead (readings : List (Option Nat))
  /-- THERMAL_SAMPLE (R552): Every 100 µs, the 32 thermal sensors are sampled. -/
  | thermalSample (readings : List Word)
  /-- DOMAIN_STATE_SELECT (R562): The power manager sets each domain to the deepest state that the tolerances allow. -/
  | domainStateSelect
  /-- DOMAIN_WAKE_DONE (R563): A waking domain becomes active, and its held work issues. -/
  | domainWakeDone (domain : Nat)
  /-- PREWAKE (R564): 13 µs before a class 0 or 1 launch, domains 4 and 5 start waking. -/
  | prewake (entry : Nat)
  /-- STANDBY (R566): PWR_CMD OP 1 enters Standby if the device is quiet and has a wake source. -/
  | standby (wakePin wakeTime : Bool)
  /-- STANDBY_WAKE_PIN (R566): WAKE_N asserted for 1 µs wakes the device from Standby. -/
  | standbyWakePin (lowNs : Nat)
  /-- STANDBY_WAKE_TIME (R566): The TKU reaching PWR_WAKE_AT wakes the device from Standby. -/
  | standbyWakeTime
  /-- FRAME_DEADLINE (R581): At D_k with no verdict formed, the frame is UNSAFE with DEADLINE. -/
  | frameDeadline (net : Nat)
  /-- NETWORK_STALE (R584): No frame verdict within 2 × PERIOD_NS makes the network stale. -/
  | networkStale (net : Nat)
  /-- HEARTBEAT_TOGGLE (R585): At each HB_HALF_NS grid time while SAFE, the heartbeat pins toggle in antiphase. -/
  | heartbeatToggle
  /-- GOLDEN_SLOT (R586): At L_k + SLOT_NS, Gingham requests Gauze island 1 for the golden test. -/
  | goldenSlot (net : Nat)
  /-- GOLDEN_GRANT (R586): Gauze grants island 1 at a tile boundary, and the golden conversion and run proceed. -/
  | goldenGrant (net : Nat)
  /-- GOLDEN_LATEST_EXPIRE (R586): Without a grant by L_k + LATEST_NS, the golden test is missed. -/
  | goldenLatestExpire (net : Nat)
  /-- GNG_FAULT_CLEAR (R589): A host write of 1 clears a latched Gingham fault and its history. -/
  | gngFaultClear (bits : BitVec 5)
  /-- POWER_SEQUENCE_CHECK (R602): Stage 1 checks rails, rail order and the reference clock. -/
  | powerSequenceCheck (badRails : BitVec 10) (refclkKHz : Nat)
  /-- FUSE_LOAD (R603): Stage 2 reads fuse banks and loads trims and fused repairs. -/
  | fuseLoad (fuses : FuseReport)
  /-- CLOCK_ISLAND_START (R604): Stage 3 starts the remaining islands and tests every crossing. -/
  | clockIslandStart (failed : List Nat)
  /-- KEEPER_RESTORE (R605): Stage 4 restores journal, tags, repair set and training from flash. -/
  | keeperRestore
  /-- MUSLIN_TEST (R606): Stage 5 marches all banks, repairs columns and zero-fills Muslin. -/
  | muslinTest (quick : Bool) (nack : BitVec 2) (failing : List (Nat × Nat × Nat)) (multi margin : List Nat)
  /-- DRAM_TRAINING (R607): Stage 6 trains or restores DRAM training. -/
  | dramTraining (quick : Bool) (fail : BitVec 16)
  /-- DRAM_TEST (R608): Stage 7 tests every DRAM burst and zero-fills DRAM. -/
  | dramTest (quick : Bool) (failing : List Nat)
  /-- REPAIR_APPLY (R609): Stage 8 applies the repair set and retires failing pages. -/
  | repairApply
  /-- KNOWN_ANSWER_RUNS (R610): Stage 9 runs every unit's known-answer tests and swaps in spares. -/
  | knownAnswerRuns (quick : Bool) (nack : BitVec 2) (fail : BitVec 27) (columns slots : List Nat)
  /-- DICTIONARY_LOAD (R612): Stage 10 loads defaults and DICT_IMAGE into the dictionary. -/
  | dictionaryLoad
  /-- QUEUE_SETUP (R613): Stage 11 checks and zeroes the context, spill and save areas and enables QMG and Dispatch. -/
  | queueSetup
  /-- READY (R614): Stage 12 sets READY and raises vector 19. -/
  | bupReady
  /-- STAGE_END (R598): A stage ends, writing RESULT and raising vector 19. -/
  | stageEnd (ms : Nat)
  /-- STAGE_ABORT (R599): ABORT stops the running stage at its next safe point. -/
  | stageAbort
  /-- REPAIR_RECORD_APPEND (R619): A write of GO to BUP_REC_CMD appends a repair record to flash. -/
  | repairRecordAppend (kind : BitVec 8) (remove : Bool)
  /-- REPAIR_APPEND_DONE (R619): The record is programmed, read back and added to the working set. -/
  | repairAppendDone (readBackOk : Bool)
  /-- DOMAIN_RESTART (R623): BUP_DOMAIN_CMD DOMAIN restarts one power domain in service. -/
  | domainRestart (domain : BitVec 5)
  /-- WARM_RESTART (R622): BUP_DOMAIN_CMD WARM restarts every domain except 0. -/
  | warmRestart
  /-- DOMAIN_RESTART_DONE (R623): After the restart's tests, the domain rejoins or stays isolated. -/
  | domainRestartDone (fail : BitVec 27)
  /-- RAILS_RESTORED (R633): The non-Keeper rails return into their windows, THERMTRIP_N is released and the device waits for bring-up or continues its Standby wake. -/
  | railsRestored
  /-- STANDBY_ENTRY_DONE (R566): Within 5 ms of an accepted STANDBY request, every domain except 0 is off, the link is down and RAIL_EN is driven low. -/
  | standbyEntryDone
  /-- STANDBY_WAKE_DONE (R566): The waking device becomes Active with the link trained, DRAM out of self-refresh and LAST_PASSED 7. -/
  | standbyWakeDone
  /-- WARM_RESTART_DONE (R622): Within 50 ms of a warm restart, the device reaches the state of R621 with LAST_PASSED 7. -/
  | warmRestartDone
  /-- REFCLK_KPR_LOSS (R638): Loss of REFCLK_KPR stops every island derived from it, and the heartbeat stops toggling. -/
  | refclkKprLoss
  /-- ETHERNET_LINK_CHANGE (R543): A sensor or field Ethernet port gains or loses link, for example on a loss of SERDES_REFCLK, and LINK_UP is updated. -/
  | ethernetLinkChange (field : Bool) (port : Nat) (up : Bool)
  /-- PCIE_LINK_UP (R298): The PCIe link completes training and HIF_STATUS LINK_UP, SPEED and WIDTH are set. -/
  | pcieLinkUp (speed width : Nat)
  /-- CSI2_RX_LOCK_CHANGE (R358): A CSI-2 receiver enters or leaves high-speed reception, and its RX_LOCK bit follows. -/
  | csi2RxLockChange (rx : Nat) (locked : Bool)
  /-- CAN_BUS_ERROR (R539): A bus error updates a controller's TEC and REC and may move it to error-passive or bus-off. -/
  | canBusError (ctl tec rec : Nat)
  /-- DRAM_REFRESH (R316): At each temperature-derated refresh interval, the DRC issues per-bank refresh that does not yield to traffic. -/
  | dramRefresh (channel : Nat)
  deriving DecidableEq, Repr

end Sys2Proof
end

