-- ==== Sys2Proof/Machine/State.lean ====
section
/-!
DEFINITION. The state of the KB9: its registers, memories, buffers and engines, and the queue of waiting commands.
Everything is plain data. Register fields live in `Chip.regs`, by BAR0 offset; what no register shows lives in the
structures below, one per block.
-/
namespace Sys2Proof.Machine

/-- A byte memory: the bytes that differ from what an unlisted address reads as, in rising order of address. -/
abbrev Memory := List Host.Cell

/-- A numbered finite map, in rising order of key. -/
abbrev Table (α : Type) := List (Nat × α)

/-- Where a weave came from (R66, R92, R586): a submission queue, launch `k` of a launch entry, or the golden run of a
network. -/
inductive WeaveSource where
  | queue (q : Nat)
  | launch (entry k : Nat)
  | golden (net : Nat)
  deriving DecidableEq, Repr

/-- How far a descriptor has come (R73 to R78, R96). -/
inductive DescState where
  | waiting                      -- read, not ready
  | ready (order since : Nat)    -- ready: its place in the order of becoming ready (R81), and when (R89)
  | timed                        -- a WAIT_UNTIL that waits for its time (R78)
  | started                      -- its operation runs or is suspended
  | held (slot : Nat)            -- completed in class HELD; its operation is in the ATU hold table (R74, R230)
  | done (status : Nat)
  deriving DecidableEq, Repr

/-- A descriptor the Dispatch Unit has read: its 512 bits and its progress. -/
structure DescRec where
  raw : Nat
  state : DescState
  deriving DecidableEq, Repr

/-- A weave in flight (R66, R97). `id` is the model's own handle, in order of arrival; `count` is DESC_COUNT; `cls` the
class it runs in (R285, R92); `pair` the completion queue of R67; `descs` the descriptors read so far, in order. -/
structure Weave where
  id : Nat
  addr : Nat
  weaveId : Nat
  count : Nat
  cls : Nat
  source : WeaveSource
  pair : Nat
  qfence : Bool
  cancelled : Bool
  descs : List DescRec
  deriving DecidableEq, Repr

/-- An operation on a unit, running or suspended (R84 to R87): its descriptor, class, tiles done, time run, flags,
prevailing status, the words of the completion record, its stochastic generators (R53) and the engine's own context
words. `begun` says its parameters were checked; `tileReady` that the running tile's work is done and TILE_END is due;
`finished` that the operation only awaits its completion; `lastTile` that the tile that runs is the last of an operation
whose engine forms its tiles itself. `mirror` says that this is a mirror operation of Gingham's, in diverse mode (R574); `raw`
may carry the relocation of R573 above its 512 bits. -/
structure OpRun where
  weave : Nat
  index : Nat
  raw : Nat
  cls : Nat
  unit : Nat
  tiles : Nat
  preempts : Nat
  activeNs : Nat
  startNs : Nat
  flags : BitVec 8
  status : Nat
  info0 : Nat
  info1 : Nat
  gens : Table (BitVec 32)
  ctx : List Nat
  begun : Bool
  tileReady : Bool
  finished : Bool
  lastTile : Bool
  mirror : Bool
  deriving DecidableEq, Repr

/-- The Dispatch Unit (chapter 03): weaves in flight in order of arrival, the operation on each unit, suspended
operations, when each unit became free and whether its hold has expired (R88), the class of the operation that last left each unit
(R89), the open chains (R254: key cluster * 8 + class, value weave and next index), and the model's counters that give handles and ready order. -/
structure Dsp where
  weaves : List Weave
  running : Table OpRun
  suspended : List OpRun
  freeAt : Table Nat
  holdExpired : List Nat
  left : Table Nat
  chains : Table (Nat × Nat)
  nextId : Nat
  nextOrder : Nat
  deriving DecidableEq, Repr

/-- A queue that is enabled (R282 to R295): its context as read at ENABLE, its counts, the records its next interrupt will
cover, and, where Jersey consumes it, when PRODUCED advanced for each entry not yet taken (R456). -/
structure Queue where
  raw : Nat
  produced : BitVec 32
  consumed : BitVec 32
  lost : Nat
  overflow : Bool
  uncovered : Nat
  firstUncovered : Nat
  stamps : List Nat
  deriving DecidableEq, Repr

/-- A record in the spill area (R292). [DESIGN CHOICE: log 55] -/
structure SpillRec where
  queue : Nat
  slot : Nat
  irq : Bool
  deriving DecidableEq, Repr

/-- The queue manager: enabled queues by number, the records in the spill area in order, the number at which the
round of R290 goes on, and the last counts of disabled queues that QUERY still shows. -/
structure Qmg where
  queues : Table Queue
  spill : List SpillRec
  nextServed : Nat
  retired : Table Queue
  deriving DecidableEq, Repr

/-- The host interface (R269 to R281): whether PERST_N is asserted, whether the link trains, and the speed code and width of the last
link. -/
structure Hif where
  perst : Bool
  training : Bool
  link : Nat × Nat
  deriving DecidableEq, Repr

/-- What a Muslin bank group is doing (R112 to R116), with the time at which it began: in service; entering retention; in it;
leaving it; filled with zeros after power-on; off; or off while the restart of its domain holds what asks for it (R624). -/
inductive GroupPhase where
  | active
  | entering (start : Nat)
  | retention
  | leaving (start : Nat)
  | filling (start : Nat)
  | off
  | restarting
  deriving DecidableEq, Repr

/-- One bank group: its phase, when a request last reached it, the requests held at its crossing in order of arrival
(R26, R113, R116), each with the word offset of a host atomic (R105), the scrubber's next line, and when its pass after retention
began, while it runs (R110). -/
structure Group where
  phase : GroupPhase
  lastRequest : Nat
  waiting : List (Instr × Nat)
  scrubLine : Nat
  fastPass : Option Nat
  deriving DecidableEq, Repr

/-- A repaired column: bank, subarray, column, spare, kind (R118, R120), and whether the host applied it (R124). -/
structure ColRepair where
  bank : Nat
  sub : Nat
  col : Nat
  spare : Nat
  kind : Nat
  host : Bool
  deriving DecidableEq, Repr

/-- Muslin beside its bytes (chapter 04): poisoned words and words with a corrected error still to be written back (word
numbers, offset / 8), groups, repairs in force, the repair sweep that runs, the region under test with the next region due, and
repairs that wait for a sweep; the sleeping groups that a command's accesses asked for; when the scrubber last read its lines, and
when the last region began its test (R110, R125); the single-bit errors corrected on the network's links (R20); and when READY last
became visible in each record of an enabled Tweed sensor (R360: key the offset of its byte). -/
structure Msl where
  poisoned : List Nat
  writebacks : List Nat
  groups : List Group
  repairs : List ColRepair
  sweep : Option ColRepair
  btRegion : Option Nat
  btNext : Nat
  btPending : List ColRepair
  asked : List Nat
  scrubAt : Nat
  btAt : Nat
  netCe : Nat
  readyAt : Table Nat
  deriving DecidableEq, Repr

/-- The DRAM controller beside its registers (chapter 10). `cells` are the bytes that differ from what an unlisted byte
reads as; `epoch` counts the losses of contents after which unlisted bytes are free values (R313, R624). Poisoned bursts
and bursts to be written back are burst numbers (offset / 64). `ceCounts` holds the corrected errors of up to 64 pages, the
last corrected page first (R308); `spareTaken` the spare pages that bring-up marked taken (R609); `held` the requests at the
crossing of channels in self-refresh, and `wakeAt` when the first reached it (R317); `port` the requests that wait at the ports under
QUIESCE; `touched` whether a command's accesses reached the DRC; `retireWord` the word that DRC_RETIRE_CMD was written with for the retirement in progress,
none where AUTO_RETIRE started it. -/
structure Drc where
  cells : Memory
  epoch : Nat
  poisoned : List Nat
  writebacks : List Nat
  scrubPos : Nat
  ceCounts : List (Nat × Nat)
  retiring : Option (Nat × Nat)
  retireWord : Option Nat
  pairing : Option Nat
  training : Option Bool
  selfRefresh : Bool
  lastRequest : Nat
  touched : Bool
  held : List Instr
  wakeAt : Option Nat
  port : List Instr
  spareTaken : List Nat
  refreshes : Nat
  rfm : Nat
  corrected : Nat
  derate : Nat
  cfgCopy : Option Word
  deriving DecidableEq, Repr

/-- What leaves the chip, as an observer outside sees it. -/
inductive Port where
  | msix          -- an MSI-X message: `a` the vector (R280, R294)
  | spi           -- the bytes that SPI port `a` shifts out, in SPI mode `b` (R329)
  | bar2          -- a completion of a BAR2 read: `a` 0 good, 1 poisoned, 2 Completer Abort (R274)
  | line          -- data of a Muslin or DRAM read: `a` the address, `b` 1 when poisoned
  | field         -- a frame of field port `a`
  | canBus        -- a frame of CAN FD controller `a` with identifier `b`
  | ptp           -- a PTP message of field port `a`
  | regRead       -- a register read that pops (R484)
  | mailbox       -- an answer of the dictionary to the host: `a` the status
  deriving DecidableEq, Repr

/-- One emission, newest first in `Chip.sent`. -/
structure Emission where
  port : Port
  a : Nat
  b : Nat
  data : List Byte
  deriving DecidableEq, Repr

/-- An event grid (R478, R480): the least TKU time its next grid time may have, and when it last served one, in the time
that steps leave unmoved. -/
structure Grid where
  after : Nat
  last : Option Int
  deriving DecidableEq, Repr

/-- A stamp in the transmit time-stamp queue (R483): frame identifier, field port, and the clock's value. -/
structure TxStamp where
  id : Nat
  port : Nat
  clock : Nat
  deriving DecidableEq, Repr

/-- The time-keeping unit beside its registers (chapter 16). `clock` counts units of `2^-32` ns since the epoch; `shift` is
the sum of all steps in these units, and `steps` their number; `grids` the event grids by number; `integral` the servo's
integral term, an FP32 pattern, and `offsetAt` when the last offset arrived, in the time that steps leave unmoved (R486,
R487); `txts` the transmit time-stamp queue and `generations` the current generation of each sequence (R483); `ptpStamps`
the latest stamp of each kind of PTP message, by kind * 4 + port * 2 + 1 when it was sent, in units of `2^-16` ns (R482). -/
structure Tku where
  clock : Nat
  shift : Int
  steps : Nat
  grids : Table Grid
  integral : Nat
  offsetAt : Int
  txts : List TxStamp
  generations : Table Nat
  ptpStamps : Table Nat
  deriving DecidableEq, Repr

/-- Damask beside its registers (chapter 05), by cell, `row * 256 + base column`: the accumulator slots 0 and 1 that are not zero, by
`cell * 2 + slot`; slots 2 and 3 of the running operation, by `cell * 2 + slot - 2` (R145, R149); the two weight registers of each
cell, by `cell * 2 + register`, and the register that streams (R148); the column of the swap that waits or runs, when it was
requested and started, and whether its 10 ms wait has passed (R170). -/
structure Dmk where
  slots : Table Nat
  work : Table Nat
  weights : Table Nat
  streams : Nat
  swapColumn : Nat
  swapRequested : Nat
  swapStarted : Nat
  swapUrgent : Bool
  deriving DecidableEq, Repr

/-- A dictionary session (R499 to R508): state 0 FREE, 1 OPEN, 2 ARMED; the port that owns it (0 host, 1 network,
2 management) and its network path; when it was opened; its commit instant and the SEQ of its COMMIT record; its staged
values by entry key; and token, status and SEQ of the last accepted COMMIT and ABORT of this opening. -/
structure Session where
  state : Nat
  owner : Nat
  path : Nat
  openedAt : Nat
  commitAt : Nat
  order : Nat
  staged : Table Nat
  lastCommit : Option (Nat × Nat × Nat)
  lastAbort : Option (Nat × Nat × Nat)
  deriving DecidableEq, Repr

/-- A pending implicit write (R503): entry key, value, instant, SEQ of its STAGE record, port, path and token. -/
structure Implicit where
  key : Nat
  value : Nat
  commitAt : Nat
  order : Nat
  port : Nat
  path : Nat
  token : Nat
  deriving DecidableEq, Repr

/-- The dictionary's sessions and journal (chapter 17): records newest first, the next SEQ, the newest mirrored SEQ, the
records lost to the mirror, the SAVE (true) or CLEAR_IMAGE (false) in progress, and the SEQ of an APPLY whose tags are
still to be written to flash, and the entries in which an uncorrectable word was found (ODX_STORE_UE). -/
structure Odx where
  sessions : List Session
  implicit : List Implicit
  journal : List Nat
  nextSeq : Nat
  mirrored : Nat
  saving : Option Bool
  tagsDue : Option Nat
  badStore : List Nat
  deriving DecidableEq, Repr

/-- An operation in the ATU hold table (R230): its state, whether KV_RESUME made it ready (its place in the order of
becoming ready, and when), and whether the resumed operation has started. -/
structure HoldRec where
  op : OpRun
  resumed : Option (Nat × Nat)
  started : Bool
  deriving DecidableEq, Repr

/-- The ATU beside its registers (chapter 07): the free-frame FIFO, the hold table, and the tile (weave, index, tiles) whose
page fetches a KV_FENCE waits for. -/
structure Atu where
  fifo : List Nat
  holds : Table HoldRec
  fence : Option (Option (Nat × Nat × Nat))
  deriving DecidableEq, Repr

/-- The chain area of an open chain (R253, R254): the number of its free contents, and the bytes its members wrote. -/
structure ChainStore where
  epoch : Nat
  cells : Memory
  deriving DecidableEq, Repr

/-- A Twill service command in progress (R263 to R265): its operands; whether a spare took over; the cluster whose
known-answer run goes on, if one does; when the current stage started. -/
structure TwlService where
  op : Nat
  cluster : Nat
  force : Bool
  auto : Bool
  replaced : Bool
  testing : Option Nat
  since : Nat
  deriving DecidableEq, Repr

/-- Twill beside its registers (chapter 08): chain areas by chain key, and the service command in progress. -/
structure Twl where
  stores : Table ChainStore
  service : Option TwlService
  deriving DecidableEq, Repr

/-- The Keeper's flash (R515): the partitions its table holds, and what the Keeper keeps in TAGS, REPAIR, TRAINING,
DICT_IMAGE and JOURNAL. Repair records are 128-bit numbers, oldest first. -/
structure Flash where
  ok : Bool
  parts : List Nat
  tags : Table Nat
  tagsSeq : Nat
  repair : List Nat
  training : Option Nat
  image : Option (Table Nat)
  journal : List Nat
  deriving DecidableEq, Repr

/-- A frame that a live pipe takes, or has closed (R336 to R340): the Gauze entries in force at its FS, its buffer, whether
it is dropped (R338), its times, its epoch number, the image lines received, the lines seen of the pipe's data type, the
pattern rows, the CRC failures, and the flags of the record from SHORT on, with the counter read. -/
structure PipeFrame where
  cfg : Table Nat
  buffer : Nat
  dropped : Bool
  fsTime : Nat
  feTime : Nat
  epoch : Nat
  lines : List (List Byte)
  seen : Nat
  rows : List (List Byte)
  crcErrs : Nat
  flags : Nat
  counter : Nat
  deriving DecidableEq, Repr

/-- A live pipe: the open frame, closed frames whose record is not yet written, embedded rows since the last FE, the next
buffer, frames delivered, frames dropped since, the counter of the previous frame, and the epoch last taken. -/
structure PipeState where
  frame : Option PipeFrame
  done : List PipeFrame
  embedded : List (List Byte)
  nextBuf : Nat
  seq : Nat
  droppedBefore : Nat
  counter : Option Nat
  epochTime : Option Nat
  deriving DecidableEq, Repr

/-- A scan of a point filter that is open (R328): its entries, epoch number, window, buffer, whether it is dropped, the
points stored, the packets with the first and last stamps, and FULL. -/
structure ScanWindow where
  cfg : Table Nat
  number : Nat
  start : Nat
  finish : Nat
  buffer : Nat
  dropped : Bool
  points : Nat
  packets : Nat
  first : Nat
  last : Nat
  full : Bool
  deriving DecidableEq, Repr

/-- A sensor Ethernet filter: frames accepted, open scans, the end of the last closed window, the least start of a window that its
entries as they stand serve (R320), the next buffer, scans
delivered, and scans dropped since. -/
structure FilterState where
  seq : Nat
  scans : List ScanWindow
  closedTo : Nat
  since : Nat
  nextBuf : Nat
  delivered : Nat
  droppedBefore : Nat
  deriving DecidableEq, Repr

/-- An SPI port: the start of the transaction that runs with the entries it runs under, the transactions completed, and the least time
of its next start by an epoch or a period (R329). -/
structure SpiState where
  running : Option (Nat × Table Nat)
  seq : Nat
  after : Nat
  deriving DecidableEq, Repr

/-- A trigger group: the next epoch number, and the epochs so far as (number, time), newest first (R331). -/
structure TrigGroup where
  number : Nat
  epochs : List (Nat × Nat)
  deriving DecidableEq, Repr

/-- A trigger output: the times at which it is to assert, and when the pulse that has begun ends (R332). -/
structure TrigOut where
  waiting : List Nat
  endsAt : Option Nat
  deriving DecidableEq, Repr

/-- Gauze beside its registers (chapter 11): pipes, filters (8 per port), SPI ports, trigger groups and outputs. -/
structure Gze where
  pipes : List PipeState
  filters : List FilterState
  spi : List SpiState
  groups : List TrigGroup
  outputs : List TrigOut
  deriving DecidableEq, Repr

/-- A track that a FUSE works on (R379 to R381): its entry and what it was in the table, the detections accepted for it this epoch
by sensor order, and whether it was born. -/
structure Track where
  raw : Nat
  was : Nat
  got : List Nat
  born : Bool
  deriving DecidableEq, Repr

/-- A piece of a FUSE that ends at a tile boundary (R387): a chunk of 4,096 points of the depth pass, of the attach pass, or of a
sensor's pass over the grid; a grid row; a sensor's association; up to 64 lifecycle steps from an entry on. -/
inductive FuseStep where
  | depth (chunk : Nat)
  | attach (chunk : Nat)
  | bin (sensor chunk : Nat)
  | row (row : Nat)
  | associate (sensor : Nat)
  | live (entry : Nat)
  deriving DecidableEq, Repr

/-- A FUSE in progress (R360 to R388): its descriptor's place, the entries and calibration it started with, its epoch
(number and time) and start time, the used records as (sensor, buffer, count), the counts of its result record, the most entries that
its object level writes; the pieces still to do, and what they keep: the least depth of each camera cell, the points of each lidar in
each grid cell (keys: sensor * 2^18 + cell), and the tracks. -/
structure FuseRun where
  weave : Nat
  index : Nat
  cfg : Table Nat
  cal : List Nat
  epoch : Nat
  epochTime : Nat
  seen : Nat
  used : List (Nat × Nat × Nat)
  dropped : Nat
  skipped : Nat
  cellConflicts : Nat
  objConflicts : Nat
  objects : Nat
  born : Nat
  deleted : Nat
  birthDropped : Nat
  points : Nat
  attached : Nat
  objRoom : Nat
  todo : List FuseStep
  depths : Table Num
  bins : Table Nat
  tracks : List Track
  deriving DecidableEq, Repr

/-- Tweed beside its registers (chapter 12): the pointer NEXT of each sensor, its copy of the calibration records and
whether a session asked for a new one, the last fused epoch of each group (number and time), the epoch time last fused, the
birth pointer, a track command that waits (ID and OP), the FUSEs in progress, and the used records whose READY no FUSE has cleared,
as (sensor, buffer) (R366). -/
structure Twd where
  ringNext : List Nat
  cal : List Nat
  reload : Bool
  fused : Table (Nat × Nat)
  lastTime : Option Nat
  birth : Nat
  cmd : Option (Nat × Nat)
  runs : List FuseRun
  owed : List (Nat × Nat)
  deriving DecidableEq, Repr

/-- A search state that Tulle stores (R407): its index s, g, h, parent, primitive and edge generation. -/
structure TulNode where
  s : Nat
  g : Num
  h : Num
  parent : Nat
  prim : Nat
  gen : Nat
  deriving DecidableEq, Repr

/-- A path record (R411). -/
structure PathRec where
  x : Nat
  y : Nat
  h : Nat
  prim : Nat
  g : Num
  gen : Nat
  deriving DecidableEq, Repr

/-- A PLAN or REPAIR in progress (R406 to R413): its descriptor's place, request and robot model; when its first tile began and
the generations that had passed by then; its phase (0 wavefront, 1 search, 2 verification, 3 REPAIR's recheck); wavefront
reading still to do; settled and frontier cells; open and closed states; the state popped last with the primitives still to
consider; candidates in the order found; counts; the paths still to verify, the first under verification from `edge` on at
generation `pass`; the first path taken with its failing edge; REPAIR's window, input path with its REACHED_GOAL, and
failing edges. -/
structure PlanRun where
  weave : Nat
  index : Nat
  req : Nat
  robot : List Nat
  begun : Nat
  adv0 : Nat
  phase : Nat
  debt : Nat
  settled : Table Num
  front : Table Num
  opened : List TulNode
  closed : List TulNode
  popped : Option (TulNode × List Nat)
  cands : List Nat
  expansions : Nat
  checks : Nat
  reason : Nat
  ways : List (List PathRec)
  edge : Nat
  pass : Nat
  first : Option (List PathRec × Nat)
  window : List (Nat × Nat)
  input : List PathRec
  inputGoal : Bool
  bad : List Nat
  deriving DecidableEq, Repr

/-- Tulle beside its registers (chapter 13): the active grid buffer, the CRC of the table in use, whether the index is being
built, the generations since reset, and the PLANs and REPAIRs in progress. -/
structure Tul where
  active : Nat
  crc : Nat
  building : Bool
  advances : Nat
  runs : List PlanRun
  deriving DecidableEq, Repr

/-- A loaded slot of a Canvas instance beside its registers (R423): the value, factor and work areas; and of its last
factorisation the pivots replaced and the norm. -/
structure CnvSlot where
  values : Nat
  factor : Nat
  work : Nat
  pivots : Nat
  norm : Num
  deriving DecidableEq, Repr

/-- A SOLVE in progress (R432, R440): its descriptor's place; its phase (0 deltas, 1 factor, 2 reload, 3 first solve,
4 residual, 5 correction, 6 write) with the cycles of the units left in it; the vectors x0, x and r in permuted order; the
steps run; the correction; and what its image will say. `status` is the status it has earned. -/
structure SolveRun where
  weave : Nat
  index : Nat
  phase : Nat
  left : List Nat
  x0 : List Num
  x : List Num
  r : List Num
  refines : Nat
  correction : Num
  warmUsed : Bool
  warmIgnored : Bool
  factored : Bool
  forced : Bool
  failed : Bool
  converged : Bool
  failedOver : Bool
  bad : Bool
  done : Nat
  deriving DecidableEq, Repr

/-- A Canvas instance beside its registers (chapter 14): its slots; the factor store, as the slot whose factor it holds with
the FP32 patterns; the SOLVEs in progress; and the service command in progress as (OP, FORCE, state before, since). -/
structure Cnv where
  slots : List (Option CnvSlot)
  store : Option (Nat × List Nat)
  runs : List SolveRun
  service : Option (Nat × Bool × Nat × Nat)
  deriving DecidableEq, Repr

/-- A Jersey lane beside its entries (R446 to R466): its output of its most recent sample, none since it was enabled
without one (R449); the pulse counters at its previous sample (R451); its current queue set-point; the pending ones as
(value, stamp, subindex of 0x4C01); and whether its states are to be set to 0 at its next sample. Its states and its other
results are the process values 0x6C00 + n. -/
structure JrsLane where
  out : Option Nat
  prev : Option (List Nat)
  queued : Nat
  pending : List (Nat × Nat × Nat)
  resetDue : Bool
  deriving DecidableEq, Repr

/-- A PWM pin (R462): the high time in the shadow register and the one in force, in units of 39.0625 ps, none while the pin
is idle. -/
structure PwmPin where
  shadow : Option Nat
  duty : Option Nat
  deriving DecidableEq, Repr

/-- Jersey beside its registers (chapter 15): the lanes that have run, the filtered levels of the pulse inputs (A or step, B or direction), the PWM pins, and the swap in progress as (lane,
since, phase: 0 known-answer run, 1 waiting for a quiet moment, 2 loading). -/
structure Jrs where
  lanes : Table JrsLane
  pulse : List (Bool × Bool)
  pins : List PwmPin
  swap : Option (Nat × Nat × Nat)
  deriving DecidableEq, Repr

/-- A Gwepo node in the current cycle and since (R532 to R538): the SFD time of its accepted IN frame; whether that frame ended
and with a good FCS; whether its OUT frame was sent; whether the cycle's outcome is decided; the consecutive failed cycles;
the last ACYC_PEND flag; and the last request (token, OP, INDEX, SUBINDEX) with its response. -/
structure GwepoNode where
  sfd : Option Nat
  fcs : Option Bool
  out : Bool
  decided : Bool
  fails : Nat
  pend : Bool
  kept : Option ((Nat × Nat × Nat × Nat) × List Byte)
  deriving DecidableEq, Repr

/-- A flow meter's token buckets, in units of `10^-6` bit, and when they were last filled (R520). -/
structure Meter where
  committed : Nat
  excess : Nat
  filledAt : Nat
  deriving DecidableEq, Repr

/-- A segmented SDO transfer (R541): upload or not, entry, the bytes still to go or taken so far, the size announced, the
toggle expected next, the frame format, and when its last segment passed, in the time that steps leave unmoved. -/
structure SdoTransfer where
  upload : Bool
  index : Nat
  sub : Nat
  data : List Byte
  size : Option Nat
  toggle : Bool
  fd : Bool
  lastAt : Nat
  deriving DecidableEq, Repr

/-- The field ports beside their registers (chapter 18): the start of the current Gwepo cycle; the ports whose SYNC was sent
in it, and those whose SYNC could not be; the nodes; the node granted the acyclic window and the last one granted; the response
that waits, with its node and when its request completed; by port the Qbv entry in force with the time of the next change, and
by port * 32 + gate the same of stream gates; meters by port * 32 + meter; by port the host transmit descriptor that was read;
by controller the transfer in progress and when its last heartbeat was due; and the link of the two sensor Ethernet ports.
[DESIGN CHOICE: log 163] -/
structure Fld where
  cycle : Option Nat
  synced : List Nat
  unsynced : List Nat
  nodes : Table GwepoNode
  granted : Nat
  lastGranted : Nat
  response : Option (Nat × List Byte × Nat)
  qbv : Table (Nat × Nat)
  gates : Table (Nat × Nat)
  meters : Table Meter
  txHead : Table Nat
  sdo : Table SdoTransfer
  beats : Table Nat
  sensorLink : List Bool
  deriving DecidableEq, Repr

/-- Bring-up beside its registers (chapter 21): the domains that restart (R623); the command that started the running stage, and when; of
stages 5, 6, 7 and 9 those that ran in full in this run (R600); what stage 2 read from the fuses; the islands that stage 3 could
not start; the working repair set, oldest record first (R618); the record being appended (R619); the failing pages kept from stage 7
(R608); the clusters marked to become ACTIVE at their stage-9 run, and whether that is a finding; the domain whose restart runs; and
whether a warm restart does. -/
structure Bup where
  restarting : List Nat
  stage : Option Instr
  stageAt : Nat
  cold : List Nat
  fuses : Option FuseReport
  islandsFailed : List Nat
  set : List Nat
  append : Option Nat
  pages : List Nat
  activate : List (Nat × Bool)
  restart : Option Nat
  warm : Bool
  deriving DecidableEq, Repr

/-- The package (chapter 22): whether the Keeper rails are in their windows, whether SYS_RESET_N is low, whether REFCLK_KPR runs,
the other rails that are out of their windows, and whether every domain but 0 is switched off. -/
structure Pkg where
  keeper : Bool
  resetLow : Bool
  refclk : Bool
  rails : List Nat
  down : Bool
  deriving DecidableEq, Repr

/-- A change of the Damask operating point (R29, R550, R551): the target, and whether the power manager started it by
itself. -/
structure OpChange where
  target : Nat
  autonomous : Bool
  deriving DecidableEq, Repr

/-- The power manager beside its registers (chapter 19); values in watts are FP32 patterns. `sum`, `windows` and `mean`: the
estimates of the running 1 ms interval and the mean of the last whole one; `overDone`: OVER_CAP was set in this interval;
`lowAll` and `clearRun`: whether credits stayed below 56 in every window of the interval, and the windows in a row
without throttling; `steps` the step-downs in force; `disagree`, `agree`, `absent` and `ratio`: the runs of readings and the
ratio of the latest (R557); `coolRun` the samples in a row below the recovery temperature (R558); `lastChange`, `waiting`
and `settling`: the last change of operating point, one that waits for its tile, and one that settles since a time (R29);
`waking` domains with the start of their wake, and `activeAt` when a domain last became Active; `prior` the last window that
still uses the entries as they were, with them (R544); `standby` whether Standby is 1 being entered, 2 in force or 3 being
left since `standbyAt`; `wakePin` and `wakeTime` its wake sources; `thermtrip` the pin THERMTRIP_N. -/
structure Pwr where
  sum : Nat
  windows : Nat
  mean : Nat
  overDone : Bool
  lowAll : Bool
  clearRun : Nat
  steps : Nat
  disagree : Nat
  agree : Nat
  absent : Nat
  ratio : Nat
  coolRun : Nat
  lastChange : Option Int
  waiting : Option OpChange
  settling : Option (OpChange × Nat)
  waking : Table Nat
  activeAt : Table Nat
  prior : Option (Nat × Table Nat)
  standby : Nat
  standbyAt : Nat
  wakePin : Bool
  wakeTime : Bool
  thermtrip : Bool
  deriving DecidableEq, Repr

/-- A mirror operation (R572, R575): the primary's index, the half of a MATMUL, the moved descriptor, the pair cluster its
chain or half is bound to, whether it is 0 waiting, 1 running or 2 done, and its status. -/
structure GngMirror where
  index : Nat
  part : Nat
  raw : Nat
  cluster : Option Nat
  state : Nat
  status : Nat
  deriving DecidableEq, Repr

/-- What a comparison found (R579, R591): the first failing band and element, both values, and the failing elements. -/
structure GngDiff where
  band : Nat
  element : Nat
  primary : Nat
  mirror : Nat
  count : Nat
  deriving DecidableEq, Repr

/-- A frame of a safety network (R569 to R582): network, launch number, launch time, the network's entries and band records it
started with; its weave with DESC_COUNT, none for a launch that ran nothing; the descriptors read and the statuses of those
done; its mirror operations; whether a MIRROR_LOST or an unlisted stream spoils it; its verdict word; whether it has been
compared, whether its deadline has passed, and whether its golden slot has come. -/
structure GngFrame where
  net : Nat
  k : Nat
  time : Nat
  cfg : List Nat
  bands : Option (List Nat)
  weave : Option Nat
  total : Nat
  descs : List Nat
  done : Table Nat
  mirrors : List GngMirror
  spoiled : Bool
  verdict : Option Nat
  compared : Bool
  expired : Bool
  slotted : Bool
  deriving DecidableEq, Repr

/-- A golden test (R586): its frame's number, time, entries and band records, its weave once Gauze has granted the slot, and whether
it is over. -/
structure GngGolden where
  k : Nat
  time : Nat
  cfg : List Nat
  bands : Option (List Nat)
  weave : Option Nat
  deriving DecidableEq, Repr

/-- A safety network beside its registers: the next launch number; since when it is enabled; when its last verdict was formed;
the frames that disagreed and those whose golden test was missed; its band records, none while the table fails (R578); and
whether the next launch reads the table again. -/
structure GngNet where
  next : Nat
  since : Nat
  lastVerdict : Option Nat
  disagreed : List Nat
  missed : List Nat
  bands : Option (List Nat)
  reload : Bool
  deriving DecidableEq, Repr

/-- A verdict-log entry still to be written in this cycle (R591): network, KIND, GOLDEN, launch number and time, the frame
verdict, and what a comparison found. -/
structure GngLog where
  net : Nat
  kind : Nat
  golden : Nat
  k : Nat
  time : Nat
  word : Nat
  diff : GngDiff
  deriving DecidableEq, Repr

/-- Gingham beside its registers (chapter 20): networks, frames in progress, golden tests by network, the heartbeat pins, and
whether the device verdict is to be recomputed in this cycle, with the log entries it brings (R584). -/
structure Gng where
  nets : List GngNet
  frames : List GngFrame
  golden : Table GngGolden
  hba : Bool
  hbb : Bool
  dirty : Bool
  logs : List GngLog
  deriving DecidableEq, Repr

/-- The KB9. `moved` are the SOLVEs (weave, index) that failover moved to the other Canvas instance (R442). -/
structure Chip where
  regs : RegFile
  dict : Table Nat
  muslin : Memory
  host : Memory
  tku : Tku
  dsp : Dsp
  qmg : Qmg
  hif : Hif
  msl : Msl
  drc : Drc
  dmk : Dmk
  atu : Atu
  twl : Twl
  gze : Gze
  twd : Twd
  tul : Tul
  cnv : List Cnv
  moved : List (Nat × Nat)
  jrs : Jrs
  fld : Fld
  odx : Odx
  flash : Flash
  pwr : Pwr
  gng : Gng
  bup : Bup
  pkg : Pkg
  isolated : List Nat
  sent : List Emission
  fresh : Nat
  deriving DecidableEq, Repr

/-- The machine: the chip, and the commands that wait, first in first out. -/
structure State where
  chip : Chip
  pending : List Instr
  deriving DecidableEq, Repr

/-- The KB9 right after reset (R25, R474, R596): every register at its reset value, every dictionary entry at its default,
memories blank, nothing in flight, the clock at 0, the BOOT record in the journal, and a Keeper flash that holds an
empty partition of every kind. DRAM holds free bytes. [DESIGN CHOICE: log 118, 157; DEDUCED: log 119] -/
def Chip.reset : Chip :=
  { regs := [], dict := [(0xA00001, 2), (0xA00002, 1)], muslin := [], host := [], 
    tku := { clock := 0, shift := 0, steps := 0, grids := [], integral := 0, offsetAt := 0, txts := [], generations := [],
             ptpStamps := [] },
    dsp := { weaves := [], running := [], suspended := [], freeAt := [], holdExpired := [], left := [],
             chains := [], nextId := 0, nextOrder := 0 },
    qmg := { queues := [], spill := [], nextServed := 0, retired := [] },
    hif := { perst := false, training := false, link := (0, 0) },
    msl := { poisoned := [], writebacks := [], groups := List.replicate 8 ⟨.active, 0, [], 0, none⟩, repairs := [],
             sweep := none, btRegion := none, btNext := 0, btPending := [], asked := [], scrubAt := 0, btAt := 0, netCe := 0, readyAt := [] },
    drc := { cells := [], epoch := 1, poisoned := [], writebacks := [], scrubPos := 0, ceCounts := [], retiring := none,
             retireWord := none, pairing := none, training := none, selfRefresh := false, lastRequest := 0, touched := false, held := [],
             wakeAt := none, port := [], spareTaken := [], refreshes := 0,
             rfm := 0, corrected := 0, derate := 0, cfgCopy := none },
    dmk := { slots := [], work := [], weights := [], streams := 0, swapColumn := 0, swapRequested := 0, swapStarted := 0, swapUrgent := false },
    atu := { fifo := [], holds := [], fence := none },
    twl := { stores := [], service := none },
    gze := { pipes := List.replicate 16 ⟨none, [], [], 0, 0, 0, none, none⟩,
             filters := List.replicate 16 ⟨0, [], 0, 0, 0, 0, 0⟩, spi := List.replicate 2 ⟨none, 0, 0⟩,
             groups := List.replicate 4 ⟨0, []⟩, outputs := List.replicate 16 ⟨[], none⟩ },
    twd := { ringNext := List.replicate 32 0, cal := [], reload := false, fused := [], lastTime := none, birth := 0,
             cmd := none, runs := [], owed := [] },
    tul := { active := 0, crc := 0, building := false, advances := 0, runs := [] },
    cnv := List.replicate 2 ⟨List.replicate 4 none, none, [], none⟩, moved := [],
    jrs := { lanes := [], pulse := List.replicate 16 (false, false), pins := List.replicate 48 ⟨none, none⟩,
             swap := none },
    fld := { cycle := none, synced := [], unsynced := [], nodes := [], granted := 0, lastGranted := 0, response := none, qbv := [],
             gates := [], meters := [], txHead := [], sdo := [], beats := [],
             sensorLink := [false, false] },
    odx := { sessions := List.replicate 8 ⟨0, 0, 0, 0, 0, 0, [], none, none⟩, implicit := [],
             journal := [journalRecord 1 0 { kind := 1, port := 3 }], nextSeq := 2, mirrored := 0, saving := none,
             tagsDue := none, badStore := [] },
    flash := { ok := true, parts := [1, 2, 3, 4, 5, 6], tags := [], tagsSeq := 0, repair := [], training := none,
               image := none, journal := [] },
    pwr := { sum := 0, windows := 0, mean := 0, overDone := false, lowAll := true, clearRun := 0, steps := 0, disagree := 0,
             agree := 0, absent := 0, ratio := 0x3F800000, coolRun := 0, lastChange := none, waiting := none,
             settling := none, waking := [], activeAt := [], prior := none, standby := 0, standbyAt := 0, wakePin := false,
             wakeTime := false, thermtrip := false },
    gng := { nets := List.replicate 8 ⟨0, 0, none, [], [], none, true⟩, frames := [], golden := [], hba := false, hbb := false,
             dirty := false, logs := [] },
    bup := { restarting := [], stage := none, stageAt := 0, cold := [], fuses := none, islandsFailed := [], set := [], append := none,
             pages := [], activate := [], restart := none, warm := false },
    pkg := { keeper := true, resetLow := false, refclk := true, rails := [], down := false },
    isolated := [], sent := [], fresh := 1 }

/-- The machine right after reset: no command waits. [DESIGN CHOICE: log 157] -/
def State.reset : State := { chip := Chip.reset, pending := [] }

/-- The faults a step can end in. No command of this model ends in one. -/
inductive Fault where
  /-- Raised by nothing: every condition the spec calls a fault is a status, a latch or an event in the next state. -/
  | unused
  deriving DecidableEq, Repr

/-- The refusals a step can end in. -/
inductive Refusal where
  /-- Raised by an arm of `exec` whose command has no meaning in the model yet. Safe: nothing is claimed of it. -/
  | notModelled (mnemonic : String)
  deriving DecidableEq, Repr

end Sys2Proof.Machine
end

