-- ==== Sys2Proof/Machine/Status.lean ====
section
/-!
DEFINITION. The status codes of the KB9, as the table of R652 lists them (bits [15:12] the class, [11:8] the block).
-/
namespace Sys2Proof.Machine.St

/-- Completed -/
abbrev OK : Nat := 0x0000
/-- Arithmetic flag set (R61) -/
abbrev FMT_EXCEPTION : Nat := 0x1001
/-- A tile ran over its limit (R83) -/
abbrev DSP_TILE_LONG : Nat := 0x1101
/-- Message ring full (R296) -/
abbrev QMG_MSG_DROPPED : Nat := 0x1102
/-- No visible key (R224) -/
abbrev KV_EMPTY : Nat := 0x1401
/-- A sensor had no record (R388) -/
abbrev TWD_SENSOR_MISSING : Nat := 0x1801
/-- Path cut at PATH_MAX (R410) -/
abbrev TUL_PATH_TRUNC : Nat := 0x1901
/-- Warm start refused (R436) -/
abbrev CNV_WARM_IGNORED : Nat := 0x1A01
/-- Static pivot applied (R430) -/
abbrev CNV_PIVOT_REPLACED : Nat := 0x1A02
/-- Resource taken; hint given (R502, R504) -/
abbrev BUSY : Nat := 0x2001
/-- Cancelled before start (R90) -/
abbrev DSP_CANCELLED : Nat := 0x2101
/-- Pin held by a suspended SCAN (R189) -/
abbrev DMK_PIN_BUSY : Nat := 0x2301
/-- Shadow step count stale (R193) -/
abbrev DMK_STALE_ANCHOR : Nat := 0x2302
/-- List locked (R212) -/
abbrev KV_LIST_BUSY : Nat := 0x2401
/-- CHANGES differed (R213) -/
abbrev KV_LIST_STALE : Nat := 0x2402
/-- Too few augmentation records (R350) -/
abbrev GZE_AUG_SHORT : Nat := 0x2701
/-- Epoch already fused (R361) -/
abbrev TWD_EPOCH_DONE : Nat := 0x2801
/-- Sentinel rate limit (R362) -/
abbrev TWD_RATE_LIMIT : Nat := 0x2802
/-- Import epoch mismatch (R384) -/
abbrev TWD_HANDOVER_STALE : Nat := 0x2803
/-- Slot used by a suspended operation (R423, R426) -/
abbrev CNV_SLOT_BUSY : Nat := 0x2A01
/-- No free session or implicit slot (R501, R503) -/
abbrev ODX_SESSION_FULL : Nat := 0x2B01
/-- Free-frame FIFO empty; held (R229, R230) -/
abbrev KV_NO_FRAME : Nat := 0x3401
/-- Chunk masked by generation (R222) -/
abbrev KV_STALE_FRAME : Nat := 0x4401
/-- KRS header or CRC bad (R352) -/
abbrev KRS_BAD_RECORD : Nat := 0x4701
/-- Claimed size too large (R352) -/
abbrev DEC_OVERSIZE : Nat := 0x4702
/-- JPEG mode not supported (R348) -/
abbrev DEC_UNSUPPORTED : Nat := 0x4703
/-- Malformed marker or code (R352) -/
abbrev DEC_CORRUPT : Nat := 0x4704
/-- Data ended early (R352) -/
abbrev DEC_TRUNCATED : Nat := 0x4705
/-- SAMPLE_TAG differs (R352) -/
abbrev GZE_AUG_MISMATCH : Nat := 0x4706
/-- Geometry invalid (R345) -/
abbrev GZE_AUG_INVALID : Nat := 0x4707
/-- Format or shape differs (R352) -/
abbrev GZE_SHAPE_MISMATCH : Nat := 0x4708
/-- Start outside the grid or in collision (R406) -/
abbrev TUL_START_BLOCKED : Nat := 0x4901
/-- PAGES reached LIST_CAP (R229) -/
abbrev KV_LIST_FULL : Nat := 0x5401
/-- Held entry abandoned (R232) -/
abbrev KV_ABANDONED : Nat := 0x5402
/-- Sequence HELD; entry skipped (R220) -/
abbrev KV_SEQ_HELD : Nat := 0x5403
/-- Valid path short of the goal (R410) -/
abbrev TUL_PARTIAL : Nat := 0x5901
/-- No path passed the recheck (R410) -/
abbrev TUL_NO_VALID : Nat := 0x5902
/-- Local search failed (R412) -/
abbrev TUL_REPAIR_FAILED : Nat := 0x5903
/-- Refinement failed or overflow (R434) -/
abbrev CNV_NO_CONVERGE : Nat := 0x5A01
/-- Format byte not accepted (R36) -/
abbrev FMT_UNSUPPORTED : Nat := 0x6001
/-- Weave header bad (R67) -/
abbrev DSP_BAD_WEAVE : Nat := 0x6101
/-- Descriptor bad (R72) -/
abbrev DSP_BAD_DESC : Nat := 0x6102
/-- Descriptor misaligned (R72) -/
abbrev DSP_MISALIGNED : Nat := 0x6103
/-- Dependency failed (R75, R76) -/
abbrev DSP_DEP_FAILED : Nat := 0x6104
/-- Copy parameters bad (R260, R277) -/
abbrev COPY_BAD_PARAM : Nat := 0x6105
/-- Damask parameters bad (R161) -/
abbrev DMK_BAD_PARAM : Nat := 0x6301
/-- Output overlaps input (R158, R183) -/
abbrev DMK_OVERLAP : Nat := 0x6302
/-- 32 pins valid (R151) -/
abbrev DMK_PIN_FULL : Nat := 0x6303
/-- Rectangle overlaps a pin (R151) -/
abbrev DMK_PIN_CONFLICT : Nat := 0x6304
/-- No matching pin (R151) -/
abbrev DMK_NO_PIN : Nat := 0x6305
/-- SCB TORN set (R190) -/
abbrev DMK_STREAM_TORN : Nat := 0x6306
/-- Checkpoint image bad (R195) -/
abbrev DMK_CKPT_BAD : Nat := 0x6307
/-- ATU parameters or command bad (R213, R219) -/
abbrev KV_BAD_PARAM : Nat := 0x6401
/-- Descriptor invalid or layer out of range (R219) -/
abbrev KV_BAD_SEQ : Nat := 0x6402
/-- Twill parameters bad (R267) -/
abbrev TWL_BAD_PARAM : Nat := 0x6501
/-- Output overlaps input (R267) -/
abbrev TWL_OVERLAP : Nat := 0x6502
/-- Chain rule broken (R255) -/
abbrev TWL_BAD_CHAIN : Nat := 0x6503
/-- BATCH parameters bad (R350) -/
abbrev GZE_BAD_PARAM : Nat := 0x6701
/-- FUSE parameters bad (R373) -/
abbrev TWD_BAD_PARAM : Nat := 0x6801
/-- Calibration table bad (R369) -/
abbrev TWD_BAD_CAL : Nat := 0x6802
/-- Track table torn (R373) -/
abbrev TWD_TABLE_TORN : Nat := 0x6803
/-- Export in network mode (R385) -/
abbrev TWD_WRONG_MODE : Nat := 0x6804
/-- Tulle parameters bad (R396, R405) -/
abbrev TUL_BAD_PARAM : Nat := 0x6901
/-- Primitive table failed (R399) -/
abbrev TUL_BAD_TABLE : Nat := 0x6902
/-- Object index full (R396) -/
abbrev TUL_INDEX_FULL : Nat := 0x6903
/-- Canvas parameters bad (R423, R426) -/
abbrev CNV_BAD_PARAM : Nat := 0x6A01
/-- Schedule failed (R422) -/
abbrev CNV_BAD_SCHEDULE : Nat := 0x6A02
/-- Slot empty or hash differs (R426) -/
abbrev CNV_NOT_LOADED : Nat := 0x6A03
/-- Delta record bad (R426) -/
abbrev CNV_BAD_DELTA : Nat := 0x6A04
/-- No such entry (R500) -/
abbrev ODX_UNKNOWN_ENTRY : Nat := 0x6B01
/-- Right or kind forbids the access (R500) -/
abbrev ODX_NO_ACCESS : Nat := 0x6B02
/-- Length differs from SIZE (R500) -/
abbrev ODX_BAD_LENGTH : Nat := 0x6B03
/-- Value out of range (R500) -/
abbrev ODX_OUT_OF_RANGE : Nat := 0x6B04
/-- Session full (R500) -/
abbrev ODX_ENTRY_LIMIT : Nat := 0x6B05
/-- Request code invalid (R498) -/
abbrev ODX_BAD_REQUEST : Nat := 0x6B06
/-- Wrong owner or state (R499, R507) -/
abbrev ODX_SESSION_STATE : Nat := 0x6B07
/-- Consistency rule broken (R505) -/
abbrev ODX_INCONSISTENT : Nat := 0x6B08
/-- Commit time too early (R505) -/
abbrev ODX_LATE_COMMIT : Nat := 0x6B09
/-- No flash or no DICT_IMAGE partition (R518) -/
abbrev ODX_NO_IMAGE : Nat := 0x6B0A
/-- SAFETY outside a bound launch (R571) -/
abbrev GNG_UNBOUND : Nat := 0x6C01
/-- Operation cannot be mirrored (R572, R573) -/
abbrev GNG_NOT_MIRRORED : Nat := 0x6C02
/-- Crossbar double-bit error (R20) -/
abbrev NET_UNCORRECTABLE : Nat := 0x7001
/-- Crossing stalled; island isolated (R23) -/
abbrev ISLAND_STALL : Nat := 0x7002
/-- Target isolated or removed (R26) -/
abbrev ISLAND_OFFLINE : Nat := 0x7003
/-- Context save or restore failed (R86) -/
abbrev DSP_CTX_FAULT : Nat := 0x7101
/-- Host memory access failed (R278) -/
abbrev HIF_HOST_ERROR : Nat := 0x7102
/-- Poisoned Muslin word (R108) -/
abbrev MSL_UNCORRECTABLE : Nat := 0x7201
/-- Write-protected range (R134) -/
abbrev MSL_WRITE_PROTECT : Nat := 0x7202
/-- Accumulator slot parity (R153) -/
abbrev DMK_SLOT_PARITY : Nat := 0x7301
/-- Column failed COLUMN_TEST (R164) -/
abbrev DMK_COLUMN_FAULT : Nat := 0x7302
/-- Cluster store uncorrectable (R267) -/
abbrev TWL_STORE_UE : Nat := 0x7501
/-- DRAM burst uncorrectable (R305) -/
abbrev DRC_UNCORRECTABLE : Nat := 0x7601
/-- Factor store uncorrectable (R441) -/
abbrev CNV_STORE_UE : Nat := 0x7A01
/-- Dictionary store uncorrectable -/
abbrev ODX_STORE_UE : Nat := 0x7B01

end Sys2Proof.Machine.St
end

