-- ==== Sys2Proof/Machine/Ops.lean ====
section
/-!
DEFINITION. The operations every command is built from: register fields and their events, the clock, the byte memories
with their protection and poison, the queues and the records written into them.
-/
namespace Sys2Proof.Machine

/-! ## Tables -/

/-- The entry of key `k`. -/
def Table.get? {α : Type} (t : Table α) (k : Nat) : Option α :=
  match t with
  | [] => none
  | (a, v) :: r => if a = k then some v else Table.get? r k

/-- The entry of key `k`, or a default. -/
def Table.getD {α : Type} (t : Table α) (k : Nat) (d : α) : α := (Table.get? t k).getD d

/-- The table with `v` at key `k`, keys rising. -/
def Table.put {α : Type} (t : Table α) (k : Nat) (v : α) : Table α :=
  match t with
  | [] => [(k, v)]
  | (a, w) :: r => if k < a then (k, v) :: (a, w) :: r else if k = a then (k, v) :: r else (a, w) :: Table.put r k v

/-- The table without key `k`. -/
def Table.del {α : Type} (t : Table α) (k : Nat) : Table α := t.filter (fun p => p.1 != k)

/-- A rising list of numbers with `k` added. -/
def insertNat (l : List Nat) (k : Nat) : List Nat :=
  match l with
  | [] => [k]
  | a :: r => if k < a then k :: a :: r else if k = a then a :: r else a :: insertNat r k

/-! ## Register fields -/

/-- The value of a register field. -/
def Chip.rd (c : Chip) (f : Field) (i : Nat := 0) : Nat := c.regs.fld f i

/-- A register field set to a value. -/
def Chip.wr (c : Chip) (f : Field) (v : Nat) (i : Nat := 0) : Chip := { c with regs := c.regs.setFld f v i }

/-- A counter field advanced by `n`; it wraps at its width. -/
def Chip.count (c : Chip) (f : Field) (i : Nat := 0) (n : Nat := 1) : Chip := c.wr f (c.rd f i + n) i

/-- A counter field advanced by `n`; it saturates at its width. -/
def Chip.countSat (c : Chip) (f : Field) (i : Nat := 0) (n : Nat := 1) : Chip :=
  c.wr f (min (c.rd f i + n) (2 ^ f.width - 1)) i

/-- Whether a one-bit field is set. -/
def Chip.on (c : Chip) (f : Field) (i : Nat := 0) : Bool := c.rd f i != 0

/-- Something left the chip. [DESIGN CHOICE: log 14] -/
def Chip.emit (c : Chip) (p : Port) (a b : Nat) (data : List Byte) : Chip := { c with sent := ⟨p, a, b, data⟩ :: c.sent }

/-! ## Events and interrupts (R279, R280, R656) -/

/-- The word of the MSI-X table that holds the vector-control bit of vector `v`. [PRESUMED: log 13] -/
def msixControl (v : Nat) : Nat := 0x1000C + 16 * v

/-- The word of the pending bit array that holds vector `v`. [PRESUMED: log 13] -/
def msixPba (v : Nat) : Nat := 0x18000 + 4 * (v / 32)

/-- Whether a vector is masked: by the Function Mask, or by its own control bit (R280). [PRESUMED: log 13] -/
def Chip.vectorMasked (c : Chip) (v : Nat) : Bool := c.on R.PCI_MSIX_FUNCTION_MASK || (c.regs.get (msixControl v)).getLsbD 0

/-- An MSI-X message for vector `v`, or its pending bit while the vector is masked; nothing while MSI-X is not enabled (R280).
[PRESUMED: log 13] -/
def Chip.sendVector (c : Chip) (v : Nat) : Chip :=
  if !c.on R.PCI_MSIX_ENABLE then c
  else if c.vectorMasked v then
    { c with regs := c.regs.set (msixPba v) (c.regs.get (msixPba v) ||| (1#32 <<< (v % 32))) }
  else c.emit .msix v 0 []

/-- A block raises the event of vector `n` (R280). -/
def Chip.raise (c : Chip) (n : Nat) : Chip :=
  let p := c.rd R.HIF_EVT_PEND_PEND
  if p.testBit n then c
  else
    let c := c.wr R.HIF_EVT_PEND_PEND (p ||| 2 ^ n)
    if (c.rd R.HIF_EVT_MASK_MASK).testBit n then c else c.sendVector n

/-- A status bit becomes set, without an event of its own. -/
def Chip.latch (c : Chip) (f : Field) (i : Nat := 0) : Chip := c.wr f 1 i

/-- A status bit that raises vector 0 when hardware sets it from 0 to 1 (R656). -/
def Chip.latchFault (c : Chip) (f : Field) (i : Nat := 0) : Chip :=
  if c.on f i then c else (c.wr f 1 i).raise 0

/-! ## Dictionary entries (R491, R493) -/

/-- The committed value of an entry, as the little-endian number of its bytes. [DESIGN CHOICE: log 7] -/
def Chip.entry (c : Chip) (index sub : Nat) : Nat :=
  match Table.get? c.dict (entryKey index sub) with
  | some v => v
  | none => entryDefault index sub

/-- An entry's committed value set; a value equal to the default is not listed. -/
def Chip.setEntry (c : Chip) (index sub v : Nat) : Chip :=
  if v = entryDefault index sub then { c with dict := Table.del c.dict (entryKey index sub) }
  else { c with dict := Table.put c.dict (entryKey index sub) v }

/-- Whether a BOOL entry is true. -/
def Chip.entryOn (c : Chip) (index sub : Nat) : Bool := c.entry index sub != 0

/-- Byte `k` of an entry's value. -/
def Chip.entryByte (c : Chip) (index sub k : Nat) : Nat := bits (c.entry index sub) (8 * k) 8

/-- A 32-bit counter entry advanced by `n`; it wraps. -/
def Chip.countEntry (c : Chip) (index sub : Nat) (n : Nat := 1) : Chip :=
  c.setEntry index sub ((c.entry index sub + n) % 2 ^ 32)

/-- The Damask clock in MHz at the operating point in force (R548). -/
def Chip.damaskMHz (c : Chip) : Nat := nth [400, 750, 1000, 1250, 1500, 1650, 1750, 1850] (c.rd R.PWR_STATUS_OP) 1500

/-! ## Free values -/

/-- The number of the next free value, and the state with the counter advanced. [DESIGN CHOICE: log 158] -/
def Chip.freshId (c : Chip) : Nat × Chip := (c.fresh, { c with fresh := c.fresh + 1 })

/-! ## Time (R469 to R474) -/

/-- The TKU time in whole nanoseconds since the epoch (TIME64, R473). [DEDUCED: log 27] -/
def Chip.now (c : Chip) : Nat := c.tku.clock / 2 ^ 32

/-- The clock moved forward to `t` ns if `t` lies ahead. [DESIGN CHOICE: log 3] -/
def Chip.advanceTo (c : Chip) (t : Nat) : Chip :=
  if c.now < t then { c with tku := { c.tku with clock := t * 2 ^ 32 } } else c

/-- A record time stamp: the low 32 bits of the nanosecond count. -/
def Chip.stamp (c : Chip) : Nat := c.now % 2 ^ 32

/-- The 48-bit seconds count. -/
def Chip.seconds (c : Chip) : Nat := c.now / 1000000000

/-! ## Byte memories -/

/-- What a byte of Muslin or host memory that is not listed reads as (R116). [DESIGN CHOICE: log 8] -/
def Memory.blank : Byte := 0

/-- The byte at an address. [DESIGN CHOICE: log 7] -/
def Memory.get (m : Memory) (a : Nat) : Byte :=
  match m with
  | [] => Memory.blank
  | (b, v) :: r => if a = b then v else Memory.get r a

/-- `n` bytes from an address. -/
def Memory.read (m : Memory) (a : Nat) : Nat → List Byte
  | 0 => []
  | n + 1 => m.get a :: Memory.read m (a + 1) n

/-- The cells of a byte string that starts at an address. -/
def Memory.cellsOf (a : Nat) : List Byte → Memory
  | [] => []
  | b :: bs => if b = Memory.blank then Memory.cellsOf (a + 1) bs else (a, b) :: Memory.cellsOf (a + 1) bs

/-- A byte string stored from an address on. -/
def Memory.write (m : Memory) (a : Nat) (bs : List Byte) : Memory :=
  m.filter (fun p => decide (p.1 < a)) ++ Memory.cellsOf a bs ++ m.filter (fun p => decide (a + bs.length ≤ p.1))

/-- The memory with byte `v` at address `a`. -/
def Memory.set (m : Memory) (a : Nat) (v : Byte) : Memory := m.write a [v]

/-- The memory with the `n` bytes from an address blank. -/
def Memory.clear (m : Memory) (a n : Nat) : Memory := m.filter (fun p => !(decide (a ≤ p.1) && decide (p.1 < a + n)))

/-- The canonical form: addresses strictly rising, and no entry blank. -/
def Memory.wf : Memory → Bool
  | [] => true
  | [(_, v)] => decide (v ≠ Memory.blank)
  | (a, v) :: (b, w) :: r => decide (v ≠ Memory.blank) && decide (a < b) && Memory.wf ((b, w) :: r)

/-! ## Device addresses (R65) -/

/-- The region of a device address. -/
def devRegion (a : Nat) : Nat := bits a 36 4

/-- The Muslin or DRAM offset of a device address. -/
def devOffset (a : Nat) : Nat := bits a 0 36

/-- Muslin's size. -/
def muslinSize : Nat := 0x10000000

/-- Installed DRAM in MiB by DENSITY (R300). -/
def Chip.installedMiB (c : Chip) : Nat := 16 * (512 <<< c.rd R.DRC_CFG_DENSITY)

/-- The spare pages in force: values above 256 act as 256 (R318). [DEDUCED: log 62] -/
def Chip.sparePages (c : Chip) : Nat := min (c.rd R.DRC_CFG_SPARE_PAGES) 256

/-- Usable DRAM in bytes (R301). -/
def Chip.usableDram (c : Chip) : Nat :=
  let inst := c.installedMiB * 2 ^ 20
  let ch := if c.on R.DRC_STATUS_PAIR_OUT then 14 else 16
  let a := inst * ch / 16
  let b := if c.on R.DRC_CFG_ECC_EN then a * 15 / 16 else a
  b - 4096 * c.sparePages

/-- Whether a range of `n` bytes at a device address lies in a region of the list, inside that region (R65). -/
def Chip.validRange (c : Chip) (regions : List Nat) (a n : Nat) : Bool :=
  let r := devRegion a
  decide (a < 2 ^ 40) && regions.contains r &&
    (if r ≤ 2 then decide (devOffset a + n ≤ muslinSize)
     else if r = 8 then decide (devOffset a + n ≤ c.usableDram)
     else decide (bits a 0 28 + n ≤ 2 ^ 28))

/-! ## Muslin (chapter 04) -/

/-- The bank group of a Muslin offset (R99). -/
def groupOf (off : Nat) : Nat := bits off 25 3

/-- The bank of a Muslin offset (R99). -/
def bankOf (off : Nat) : Nat := 8 * groupOf off + ((bits off 7 3 ^^^ bits off 10 3) ^^^ bits off 13 3)

/-- The line within its bank (R99). -/
def lineOf (off : Nat) : Nat := bits off 10 15

/-- The Muslin offset of a line of a bank: the inverse of R99. -/
def lineOffset (bank line : Nat) : Nat :=
  let g := bank / 8
  let b := bank % 8
  let i := line
  (g <<< 25) + (i <<< 10) + (((b ^^^ (i % 8)) ^^^ (bits i 3 3)) <<< 7)

/-- A bank group's record. -/
def Chip.group (c : Chip) (g : Nat) : Group := c.msl.groups.getD g ⟨.active, 0, [], 0, none⟩

/-- A bank group changed. -/
def Chip.setGroup (c : Chip) (g : Nat) (f : Group → Group) : Chip :=
  { c with msl := { c.msl with groups := modifyNth c.msl.groups g f } }

/-- The code of a group's phase in MSL_STATUS.GROUP_STATE (R135). -/
def GroupPhase.code : GroupPhase → Nat
  | .active => 0
  | .entering _ => 1
  | .leaving _ => 1
  | .filling _ => 1
  | .retention => 2
  | .off => 3
  | .restarting => 3

/-- The state of a power domain, as PWR_DOMAIN_STATE shows it: 0 when Active. -/
def Chip.domainState (c : Chip) (d : Nat) : Nat :=
  if d < 16 then bits (c.rd R.PWR_DOMAIN_STATE0_STATE) (2 * d) 2 else bits (c.rd R.PWR_DOMAIN_STATE1_STATE) (2 * (d - 16)) 2

/-- A power domain's state set. -/
def Chip.setDomainState (c : Chip) (d v : Nat) : Chip :=
  if d < 16 then c.wr R.PWR_DOMAIN_STATE0_STATE (setBits (c.rd R.PWR_DOMAIN_STATE0_STATE) (2 * d) 2 v)
  else c.wr R.PWR_DOMAIN_STATE1_STATE (setBits (c.rd R.PWR_DOMAIN_STATE1_STATE) (2 * (d - 16)) 2 v)

/-- What PWR_DOMAIN_STATE shows of a group's phase (R567). -/
def GroupPhase.domainCode : GroupPhase → Nat
  | .active => 0
  | .off => 2
  | .filling _ => 2
  | .restarting => 2
  | _ => 3

/-- A group's phase set, with its bits of GROUP_STATE. -/
def Chip.setPhase (c : Chip) (g : Nat) (p : GroupPhase) : Chip :=
  let c := (c.setGroup g (fun r => { r with phase := p })).setDomainState (6 + g) p.domainCode
  c.wr R.MSL_STATUS_GROUP_STATE (setBits (c.rd R.MSL_STATUS_GROUP_STATE) (2 * g) 2 p.code)

/-- Whether group `g` is active. -/
def Chip.groupActive (c : Chip) (g : Nat) : Bool := (c.group g).phase matches .active

/-- Whether a group keeps a request at its crossing, unless the request cancels the group's entry into retention (R26, R113, R114,
R116). -/
def Chip.groupHolds (c : Chip) (g : Nat) : Bool :=
  match (c.group g).phase with
  | .active => false
  | .off => false
  | .entering start => decide (start + 500 ≤ c.now)
  | _ => true

/-- A group isolated on its way into retention (R113): what it had begun is complete, its write-backs among it. -/
def Chip.isolateGroup (c : Chip) (g : Nat) : Chip :=
  { c with msl := { c.msl with writebacks := c.msl.writebacks.filter (fun w => groupOf (8 * w) != g) } }

/-- A group is asked to wake (R113, R114): its entry into retention is cancelled before isolation; after it, the wake starts when the
entry is complete. [DESIGN CHOICE: log 42] -/
def Chip.wakeGroup (c : Chip) (g : Nat) : Chip :=
  match (c.group g).phase with
  | .retention => c.setPhase g (.leaving c.now)
  | .entering start =>
    if c.now < start + 500 then c.setPhase g .active else (c.isolateGroup g).setPhase g (.leaving (max c.now (start + 4000)))
  | _ => c

/-- A request reaches a group: its idle time restarts, and a group that sleeps is noted as asked for, and asked to wake (R26, R112,
R113). [DESIGN CHOICE: log 42, 176] -/
def Chip.touchGroup (c : Chip) (g : Nat) : Chip :=
  let c := c.wakeGroup g
  let asked := if c.groupHolds g then insertNat c.msl.asked g else c.msl.asked
  ({ c with msl := { c.msl with asked := asked } }).setGroup g (fun q => { q with lastRequest := c.now })

/-- A request waits at a group's crossing; a sleeping group is asked to wake (R26, R113). `word` is the word offset that a host atomic
was given (R105). [DESIGN CHOICE: log 42] -/
def Chip.holdRequest (c : Chip) (g : Nat) (i : Instr) (word : Nat := 0) : Chip :=
  (c.wakeGroup g).setGroup g (fun q => { q with waiting := q.waiting ++ [(i, word)] })

/-- Whether a Muslin island of a bank quad is isolated. -/
def Chip.quadsOut (c : Chip) : Bool := c.isolated.any (fun i => decide (18 ≤ i) && decide (i ≤ 33))

/-- Whether the lines of a range of one bank group are reachable: the group not switched off, and no line in an isolated quad (R26,
R274). [DEDUCED: log 44] -/
def Chip.linesServe (c : Chip) (off n : Nat) : Bool :=
  !((c.group (groupOf off)).phase matches .off) &&
  (!c.quadsOut || (List.range ((off + max n 1 - 1) / 128 - off / 128 + 1)).all (fun k =>
    !c.isolated.contains (18 + bankOf (128 * (off / 128 + k)) / 4)))

/-- The word numbers a byte range touches. -/
def wordsOf (a n : Nat) : List Nat := if n = 0 then [] else (List.range ((a + n - 1) / 8 - a / 8 + 1)).map (· + a / 8)

/-- The word numbers a byte range covers whole. -/
def wholeWords (a n : Nat) : List Nat := (wordsOf a n).filter (fun w => decide (a ≤ 8 * w) && decide (8 * w + 8 ≤ a + n))

/-- The poisoned words that a range touches, in rising order. -/
def Chip.poisonedWords (c : Chip) (off n : Nat) : List Nat :=
  c.msl.poisoned.filter (fun w => decide (off / 8 ≤ w) && decide (8 * w < off + n))

/-- The first poisoned word that a range touches. -/
def Chip.poisonedIn (c : Chip) (off n : Nat) : Option Nat := (c.poisonedWords off n).head?

/-- An uncorrectable word is met: counted, latched and logged (R108), with SOURCE `src`. -/
def Chip.muslinUe (c : Chip) (word src : Nat) : Chip :=
  let c := c.count R.MSL_ECC_UE_CNT
  let c := c.latchFault R.MSL_STATUS_UE_LATCH
  if c.on R.MSL_ERR_LOG_VALID then c
  else ((c.wr R.MSL_ERR_LOG_WORD word).wr R.MSL_ERR_LOG_SOURCE src).wr R.MSL_ERR_LOG_VALID 1

/-- Whether a write to the MiB of an offset is suppressed (R134). -/
def Chip.protectedAt (c : Chip) (off : Nat) : Bool :=
  let m := off / 2 ^ 20
  (c.rd R.MSL_WP_PROTECT (m / 32)).testBit (m % 32)

/-- Whether any byte of a range is write-protected. -/
def Chip.protectedIn (c : Chip) (off n : Nat) : Bool :=
  (List.range ((off + n - 1) / 2 ^ 20 - off / 2 ^ 20 + 1)).any (fun k => c.protectedAt (off + k * 2 ^ 20)) && n != 0

/-- WP_HIT is set, and vector 0 raised when it was clear (R134, R656). -/
def Chip.wpHit (c : Chip) : Chip := c.latchFault R.MSL_STATUS_WP_HIT

/-- The three ways of writing a byte (R103). -/
inductive WriteMode where
  | plain
  | setBits
  | clearBits
  deriving DecidableEq, Repr

/-- What a byte becomes under a write (R103). -/
def WriteMode.apply (w : WriteMode) (old new : Byte) : Byte :=
  match w with
  | .plain => new
  | .setBits => old ||| new
  | .clearBits => old &&& ~~~ new

/-- Bytes merged into Muslin from an offset on. -/
def Memory.merge (m : Memory) (mode : WriteMode) (a : Nat) (bs : List Byte) : Memory :=
  if mode = .plain then m.write a bs
  else m.write a (List.zipWith mode.apply (m.read a bs.length) bs)

/-- The offsets of the bytes that hold READY in the records of the enabled Tweed sensors (R363, R366). -/
def Chip.readyBytes (c : Chip) : List Nat :=
  let on := c.dict.filter (fun p => decide (0x401000 ≤ p.1) && decide (p.1 < 0x403000) && p.1 % 256 == 1 && p.2 != 0)
  (on.map (fun p => (List.range (c.entry (p.1 / 256) 7)).map (fun b =>
    devOffset (c.entry (p.1 / 256) 9 + 64 * b) + 28))).foldr (· ++ ·) []

/-- The times at which READY became visible, after Muslin has become `m` by a write of `n` bytes from `off` (R360). -/
def Chip.readyTimes (c : Chip) (off n : Nat) (m : Memory) : Table Nat :=
  c.readyBytes.foldl (fun (t : Table Nat) a =>
    if a < off ∨ off + n ≤ a ∨ (c.muslin.get a).toNat % 2 = 1 ∨ (m.get a).toNat % 2 = 0 then t else Table.put t a c.now) c.msl.readyAt

/-- A write request to Muslin (R101, R103, R109, R134): the chip after it and the status it earns its requester. A
protected range is suppressed before its bank is reached; a partial or alias write to poisoned words is not performed, and each of
them is counted; a write that covers a word whole clears its poison. [DEDUCED: log 44] -/
def Chip.muslinWrite (c : Chip) (mode : WriteMode) (off : Nat) (data : List Byte) : Chip × Nat :=
  let n := data.length
  let c := c.touchGroup (groupOf off)
  if !c.linesServe off n then (c, St.ISLAND_OFFLINE)
  else if c.protectedIn off n then (c.wpHit, St.MSL_WRITE_PROTECT)
  else
    let whole := if mode = .plain then wholeWords off n else []
    match (c.poisonedWords off n).filter (fun w => !whole.contains w) with
    | w :: ws => ((w :: ws).foldl (fun (c : Chip) w => c.muslinUe w 4) c, St.MSL_UNCORRECTABLE)
    | [] =>
      ({ c with muslin := c.muslin.merge mode off data,
                msl := { c.msl with poisoned := c.msl.poisoned.filter (fun w => !whole.contains w),
                                    writebacks := c.msl.writebacks.filter (fun w => !whole.contains w),
                                    readyAt := c.readyTimes off n (c.muslin.merge mode off data) } }, St.OK)

/-- A read request to Muslin (R102, R108): the chip, the status and the bytes; each poisoned word of it is counted.
[DEDUCED: log 44] -/
def Chip.muslinRead (c : Chip) (off n : Nat) (src : Nat := 0) : Chip × Nat × List Byte :=
  let c := c.touchGroup (groupOf off)
  if !c.linesServe off n then (c, St.ISLAND_OFFLINE, [])
  else
    match c.poisonedWords off n with
    | w :: ws => ((w :: ws).foldl (fun (c : Chip) w => c.muslinUe w src) c, St.MSL_UNCORRECTABLE, c.muslin.read off n)
    | [] => (c, St.OK, c.muslin.read off n)

/-- The pieces in which a range is requested: lines (R100), or longer runs of them where every line is answered alike: none isolated,
and no word of the range poisoned. -/
def Chip.grain (c : Chip) (off n k : Nat) : Nat := if c.quadsOut || (c.poisonedIn off n).isSome then 128 else k

/-! ## DRAM (chapter 10) -/

/-- A byte of DRAM: a listed one, or what an unlisted one reads as, a free value after a loss of contents (R313).
[DESIGN CHOICE: log 9] -/
def Drc.get (d : Drc) (a : Nat) : Byte :=
  match d.cells.find? (fun p => p.1 == a) with
  | some p => p.2
  | none => if d.epoch = 0 then Memory.blank else Config.dramByte d.epoch a

/-- A byte of DRAM stored. After a loss of contents every written byte is listed. -/
def Drc.set (d : Drc) (a : Nat) (v : Byte) : Drc :=
  if d.epoch = 0 then { d with cells := d.cells.set a v }
  else { d with cells := Table.put d.cells a v }

/-- `n` bytes of DRAM. -/
def Drc.read (d : Drc) (a : Nat) : Nat → List Byte
  | 0 => []
  | n + 1 => d.get a :: Drc.read d (a + 1) n

/-- A byte string stored in DRAM. -/
def Drc.write (d : Drc) (a : Nat) : List Byte → Drc
  | [] => d
  | b :: bs => Drc.write (d.set a b) (a + 1) bs

/-- The page a DRAM offset is served from: its spare where the page is retired (R302, R309). -/
def Chip.dramPlace (c : Chip) (off : Nat) : Nat :=
  match (List.range 256).find? (fun n => c.on R.DRC_RETIRED_VALID n && c.rd R.DRC_RETIRED_PAGE n == off / 4096) with
  | some n => c.usableDram + 4096 * n + off % 4096
  | none => off

/-- An uncorrectable burst is met (R305), with KIND 0 and SOURCE `src`. -/
def Chip.dramUe (c : Chip) (burst src : Nat) : Chip :=
  let c := c.count R.DRC_ECC_UE_CNT
  let c := c.latchFault R.DRC_STATUS_UE_LATCH
  if c.on R.DRC_ERR_LOG_VALID then c
  else (((c.wr R.DRC_ERR_LOG_KIND 0).wr R.DRC_ERR_LOG_SOURCE src).wr R.DRC_ERR_LOG_BURST burst).wr R.DRC_ERR_LOG_VALID 1

/-- A request reaches channels in self-refresh: their exit begins with the first (R317). -/
def Chip.askDram (c : Chip) : Chip :=
  { c with drc := { c.drc with wakeAt := some (c.drc.wakeAt.getD c.now) } }

/-- The channels have left self-refresh for a request, and the idle time restarts (R317). -/
def Chip.touchDram (c : Chip) : Chip :=
  let c := if c.drc.selfRefresh then (c.wr R.DRC_STATUS_SELF_REFRESH 0).setDomainState 3 0 else c
  { c with drc := { c.drc with selfRefresh := false, wakeAt := none, lastRequest := c.now, touched := true } }

/-- Whether the DRC serves requests: enabled and no pair retirement under way (R301, R313). -/
def Chip.dramServes (c : Chip) : Bool := c.on R.DRC_CTRL_ENABLE && c.drc.pairing.isNone

/-- Channels in service (R302). -/
def Chip.channels (c : Chip) : List Nat :=
  (List.range 16).filter (fun k => !(c.on R.DRC_STATUS_PAIR_OUT && k / 2 == c.rd R.DRC_STATUS_PAIR))

/-- The channel of a DRAM offset, and its offset in the channel (R302). -/
def Chip.dramMap (c : Chip) (off : Nat) : Nat × Nat :=
  let ch := c.channels
  let g := off / 256
  let m := g % ch.length
  let q := g / ch.length
  let o := if c.on R.DRC_CFG_ECC_EN then 4096 * (q / 15) + 256 * (q % 15) + off % 256 else 256 * q + off % 256
  (nth ch ((m + q) % ch.length) 0, o)

/-- The place of the 4 check bytes of the burst of an offset, with inline ECC: channel and offset in the channel (R302, R304). -/
def Chip.dramCheck (c : Chip) (off : Nat) : Nat × Nat :=
  let q := off / 256 / c.channels.length
  ((c.dramMap off).1, 4096 * (q / 15) + 3840 + 16 * (q % 15) + 4 * (off % 256 / 64))

/-- Where a byte lies in the devices of its channel (R303). -/
structure DramCell where
  column : Nat
  bankGroup : Nat
  bank : Nat
  row : Nat
  rank : Nat
  deriving DecidableEq, Repr

/-- Row bits of the devices: a channel holds 0.5 GiB shifted by DENSITY, over its ranks (R300, R303, R318). -/
def Chip.rowBits (c : Chip) : Nat := 14 + c.rd R.DRC_CFG_DENSITY - c.rd R.DRC_CFG_RANKS

/-- Column byte, bank group, bank, row and rank of an offset in a channel (R303). -/
def Chip.dramCell (c : Chip) (x : Nat) : DramCell :=
  { column := bits x 0 11, bankGroup := bits x 11 2 ^^^ bits x 15 2, bank := bits x 13 2 ^^^ bits x 17 2,
    row := bits x 15 c.rowBits, rank := if c.on R.DRC_CFG_RANKS then bits x (15 + c.rowBits) 1 else 0 }

/-- Whether a range reaches a channel whose island is isolated (R26). -/
def Chip.channelOut (c : Chip) (off n : Nat) : Bool :=
  c.isolated.any (fun i => decide (67 ≤ i) && decide (i ≤ 82)) &&
  (List.range ((off + n - 1) / 256 - off / 256 + 1)).any (fun k =>
    c.isolated.contains (67 + (c.dramMap ((off / 256 + k) * 256)).1))

/-- The poisoned bursts that a range touches, in rising order. -/
def Chip.poisonedBursts (c : Chip) (p n : Nat) : List Nat :=
  c.drc.poisoned.filter (fun b => decide (p / 64 ≤ b) && decide (64 * b < p + n))

/-- A DRAM read of `n` bytes within a page (R301, R305): each uncorrectable burst of it is counted. -/
def Chip.dramRead (c : Chip) (off n : Nat) (src : Nat := 0) : Chip × Nat × List Byte :=
  if !c.dramServes then (c, St.ISLAND_OFFLINE, [])
  else
    let c := c.touchDram
    let p := c.dramPlace off
    if c.channelOut p n then (c, St.ISLAND_OFFLINE, []) else
    match c.poisonedBursts p n with
    | b :: bs => ((b :: bs).foldl (fun (c : Chip) b => c.dramUe (b + off / 64 - p / 64) src) c, St.DRC_UNCORRECTABLE, c.drc.read p n)
    | [] => (c, St.OK, c.drc.read p n)

/-- A DRAM write (R305, R306, R309): a partial write to a poisoned burst is not performed while inline ECC is on; a
whole-burst write clears poison; while a page is being retired, writes go to the page and its spare. -/
def Chip.dramWrite (c : Chip) (off : Nat) (data : List Byte) : Chip × Nat :=
  if !c.dramServes then (c, St.ISLAND_OFFLINE)
  else
    let c := c.touchDram
    let n := data.length
    let p := c.dramPlace off
    if c.channelOut p n then (c, St.ISLAND_OFFLINE) else
    let whole := c.drc.poisoned.filter (fun b => decide (p ≤ 64 * b) && decide (64 * b + 64 ≤ p + n))
    match (c.poisonedBursts p n).filter (fun b => c.on R.DRC_CFG_ECC_EN && !whole.contains b) with
    | b :: bs => ((b :: bs).foldl (fun (c : Chip) b => c.dramUe (b + off / 64 - p / 64) 1) c, St.DRC_UNCORRECTABLE)
    | [] =>
      let d := { c.drc.write p data with poisoned := c.drc.poisoned.filter (fun b => !whole.contains b) }
      let d := match c.drc.retiring with
        | some (page, e) => if off / 4096 = page then d.write (c.usableDram + 4096 * e + off % 4096) data else d
        | none => d
      ({ c with drc := d }, St.OK)

/-- Split a range at the multiples of `k`: (address, offset within the range, length) of each part. -/
def splitRange (k : Nat) : Nat → Nat → Nat → Nat → List (Nat × Nat × Nat)
  | 0, _, _, _ => []
  | f + 1, a, o, n =>
    if n = 0 then [] else
      let m := min n (k - a % k)
      (a, o, m) :: splitRange k f (a + m) (o + m) (n - m)

/-- The parts of a range that lie in one bank group, or in one DRAM page. -/
def partsOf (k a n : Nat) : List (Nat × Nat × Nat) := splitRange k (n / k + 2) a 0 n

/-! ## Access by an engine, through a device address -/

/-- A read by an engine of `n` bytes at a device address in Muslin or DRAM: its requests in order, up to one that fails. -/
def Chip.devRead (c : Chip) (a n : Nat) : Chip × Nat × List Byte :=
  let off := devOffset a
  if devRegion a = 8 then
    (partsOf 4096 off n).foldl (fun (s : Chip × Nat × List Byte) p =>
      if s.2.1 != 0 then s
      else let r := s.1.dramRead p.1 p.2.2; (r.1, r.2.1, s.2.2 ++ r.2.2)) (c, St.OK, [])
  else
    (partsOf (c.grain off n (2 ^ 25)) off n).foldl (fun (s : Chip × Nat × List Byte) p =>
      if s.2.1 != 0 then s
      else let r := s.1.muslinRead p.1 p.2.2; (r.1, r.2.1, s.2.2 ++ r.2.2)) (c, St.OK, [])

/-- The write mode of a region (R65). -/
def regionMode (a : Nat) : WriteMode :=
  match devRegion a with
  | 1 => .setBits
  | 2 => .clearBits
  | _ => .plain

/-- A write by an engine at a device address in Muslin (any alias) or DRAM: its requests in order, up to one that fails. -/
def Chip.devWrite (c : Chip) (a : Nat) (data : List Byte) : Chip × Nat :=
  let off := devOffset a
  let n := data.length
  if devRegion a = 8 then
    (partsOf 4096 off n).foldl (fun (s : Chip × Nat) p =>
      if s.2 != 0 then s else s.1.dramWrite p.1 ((data.drop p.2.1).take p.2.2)) (c, St.OK)
  else
    (partsOf (c.grain off n (2 ^ 20)) off n).foldl (fun (s : Chip × Nat) p =>
      if s.2 != 0 then s else s.1.muslinWrite (regionMode a) p.1 ((data.drop p.2.1).take p.2.2)) (c, St.OK)

/-- Bytes of Muslin as they stand, with no check. -/
def Chip.peek (c : Chip) (off n : Nat) : List Byte := c.muslin.read off n

/-- A little-endian value of Muslin as it stands, with no check. -/
def Chip.peekNat (c : Chip) (off n : Nat) : Nat := leNat (c.muslin.read off n)

/-! ## Queues (chapter 09) -/

/-- The queue of a number, while the queue manager is enabled (R299). -/
def Chip.queue? (c : Chip) (q : Nat) : Option Queue :=
  if c.on R.QMG_CTRL_ENABLE then c.qmg.queues.get? q else none

/-- Fields of a queue context (R282). -/
def Queue.ring (q : Queue) : Nat := bits q.raw 0 40
def Queue.entries (q : Queue) : Nat := 16 * 2 ^ bits q.raw 40 4
def Queue.kind (q : Queue) : Nat := bits q.raw 44 3
def Queue.cls (q : Queue) : Nat := bits q.raw 48 3
def Queue.vector (q : Queue) : Nat := bits q.raw 52 11
def Queue.pair (q : Queue) : Nat := bits q.raw 64 15
def Queue.producer (q : Queue) : Nat := bits q.raw 80 4
def Queue.consumer (q : Queue) : Nat := bits q.raw 84 4
def Queue.coalCount (q : Queue) : Nat := bits q.raw 88 8
def Queue.coalUs (q : Queue) : Nat := bits q.raw 96 16
def Queue.stageAddr (q : Queue) : Nat := bits q.raw 128 40
/-- Entry size in bytes by TYPE. -/
def Queue.entrySize (q : Queue) : Nat := match q.kind with | 1 => 16 | 2 => 32 | _ => 64
/-- Entries in the ring. -/
def Queue.level (q : Queue) : Nat := (q.produced - q.consumed).toNat
def Queue.full (q : Queue) : Bool := decide (q.entries ≤ q.level)
/-- Address of the slot of entry number `n`. -/
def Queue.slot (q : Queue) (n : BitVec 32) : Nat := q.ring + (n.toNat % q.entries) * q.entrySize
/-- RING_PHASE of entry number `n` (R291). -/
def Queue.phase (q : Queue) (n : BitVec 32) : Nat := 1 - (n.toNat / q.entries) % 2

/-- PRODUCED advances at a time; a queue that Jersey consumes keeps the stamp of every entry not yet taken (R456).
[DEDUCED: log 54] -/
def Queue.advance (q : Queue) (value : BitVec 32) (now : Nat) : Queue :=
  let waiting := (value - q.consumed).toNat
  { q with produced := value,
           stamps := if q.kind = 3 && q.consumer = 2 then
               (q.stamps ++ List.replicate (waiting - q.stamps.length) now).take waiting else [] }

/-- A queue's record replaced. -/
def Chip.setQueue (c : Chip) (n : Nat) (q : Queue) : Chip := { c with qmg := { c.qmg with queues := c.qmg.queues.put n q } }

/-- A record or message is dropped: QMG_LOST_CNT, QMG_STATUS.LOST and the queue-manager event (R292). -/
def Chip.lose (c : Chip) : Chip := ((c.count R.QMG_LOST_CNT).latch R.QMG_STATUS_LOST).raise 2

/-- A drop charged to a queue: its LOST count and OVERFLOW as well (R292, R295). -/
def Chip.loseFor (c : Chip) (n : Nat) : Chip :=
  let c := match c.qmg.queues.get? n with
    | some q => c.setQueue n { q with lost := min (q.lost + 1) 65535, overflow := true }
    | none => c
  c.lose

/-- An interrupt of a queue that covers every record written so far (R294). -/
def Chip.queueInterrupt (c : Chip) (n : Nat) : Chip :=
  match c.qmg.queues.get? n with
  | some q =>
    let c := c.setQueue n { q with uncovered := 0 }
    if q.vector = 0 then c else c.sendVector q.vector
  | none => c

/-- An entry is written into the next slot of a queue's ring: PRODUCED advances, and a queue the host consumes counts it
for coalescing (R291, R294). A slot that is write-protected loses the entry (R292). -/
def Chip.ringWrite (c : Chip) (n : Nat) (q : Queue) (entry : Nat) (irq : Bool) : Chip :=
  let size := q.entrySize
  let phaseBit := if q.kind = 2 then 63 else 511
  let hostSide := q.kind = 2 || (q.kind = 3 && q.consumer = 0)
  let v := if hostSide then setBits entry phaseBit 1 (q.phase q.produced) else entry
  let r := c.muslinWrite .plain (devOffset (q.slot q.produced)) (leBytes size v)
  if r.2 != 0 then r.1.loseFor n
  else
    let unc := if hostSide then q.uncovered + 1 else 0
    let q' := { q.advance (q.produced + 1) c.now with
                uncovered := unc, firstUncovered := if q.uncovered = 0 then c.now else q.firstUncovered }
    let c := r.1.setQueue n q'
    if hostSide && (irq || (q.coalCount != 0 && decide (q.coalCount ≤ unc))) then c.queueInterrupt n else c

/-- Records of a queue in the spill area. -/
def Chip.spilled (c : Chip) (n : Nat) : Nat := (c.qmg.spill.filter (fun r => r.queue == n)).length

/-- The spill area replaced, with its level and its full bit (R299). [DESIGN CHOICE: log 55] -/
def Chip.setSpill (c : Chip) (s : List SpillRec) : Chip :=
  let c := { c with qmg := { c.qmg with spill := s } }
  (c.wr R.QMG_SPILL_LEVEL_LEVEL s.length).wr R.QMG_STATUS_SPILL_FULL (b2n (decide (4096 ≤ s.length)))

/-- The Muslin offset of a slot of the spill area (R292). [DESIGN CHOICE: log 55] -/
def Chip.spillOff (c : Chip) (slot : Nat) : Nat :=
  devOffset (c.rd R.QMG_SPILL_BASE_LO_ADDR_LO + (c.rd R.QMG_SPILL_BASE_HI_ADDR_HI <<< 32)) + 32 * slot

/-- A record of queue `n` goes to the lowest free slot of the spill area; it is lost where there is none, or where its write is
refused. [DESIGN CHOICE: log 55] -/
def Chip.spillRecord (c : Chip) (n rec : Nat) (irq : Bool) : Chip :=
  match (List.range 4096).find? (fun k => !c.qmg.spill.any (fun r => r.slot == k)) with
  | none => c.loseFor n
  | some k =>
    let w := c.muslinWrite .plain (c.spillOff k) (leBytes 32 rec)
    if w.2 != 0 then w.1.loseFor n else w.1.setSpill (w.1.qmg.spill ++ [⟨n, k, irq⟩])

/-- A completion record goes to an enabled completion queue: into its ring, into the spill area, or nowhere (R292). -/
def Chip.writeRecord (c : Chip) (n : Nat) (rec : Nat) (irq : Bool) : Chip :=
  match c.queue? n with
  | some q =>
    if q.kind != 2 then c.lose
    else if q.full || c.spilled n != 0 then c.spillRecord n rec irq
    else c.ringWrite n q rec irq
  | none => c.lose

/-- A device agent produces a 64 B entry into a message queue (R295). -/
def Chip.produce (c : Chip) (n : Nat) (entry : Nat) : Chip :=
  match c.queue? n with
  | some q => if q.full then c.loseFor n else c.ringWrite n q entry false
  | none => c.lose

/-! ## The journal (R510 to R512) -/

/-- A record is appended: SEQ advances, and the ring keeps the newest 16,384 (R510). NEXT_SEQ and OLDEST_SEQ follow. -/
def Chip.journalAt (c : Chip) (time : Nat) (f : JournalFields) : Chip :=
  let seq := c.odx.nextSeq
  let j := (journalRecord seq time f :: c.odx.journal).take 16384
  let c := { c with odx := { c.odx with journal := j, nextSeq := seq + 1 } }
  (c.setEntry 0xA000 1 (seq + 1)).setEntry 0xA000 2 (seq + 1 - j.length)

/-- A record stamped now. -/
def Chip.journal (c : Chip) (f : JournalFields) : Chip := c.journalAt c.now f

/-- The SERVICE record of a register command: its BAR0 offset, the value written, its RESULT (R511, R512). [DEDUCED: log 50] -/
def Chip.journalService (c : Chip) (f : Field) (value result : Nat) : Chip :=
  c.journal { kind := 0x0B, port := 0, status := result, extra := bits f.addr 0 32 + (bits value 0 32 <<< 32) }

/-! ## Running a meaning -/

/-- Whether the KB9 acts at all: supplied, out of reset, with its reference clock (R25, R635, R638). [DEDUCED: log 5] -/
def Chip.live (c : Chip) : Bool := c.pkg.keeper && !c.pkg.resetLow && c.pkg.refclk

/-- Whether the domains beside 0 are supplied too (R566, R622, R633). [DEDUCED: log 5] -/
def Chip.awake (c : Chip) : Bool := c.live && !c.pkg.down

/-- A command's effect on a chip that need not run: the pins of supply and reset. [DEDUCED: log 5] -/
def State.runPins (s : State) (f : Chip → Chip) : Host.Outcome State Fault Refusal := .next { s with chip := f s.chip }

/-- The parts of the chip, one for each field of `Chip`. -/
inductive Part where
  | regs | dict | muslin | host | tku | dsp | qmg | hif | msl | drc | dmk | atu | twl | gze | twd
  | tul | cnv | moved | jrs | fld | odx | flash | pwr | gng | bup | pkg | isolated | sent | fresh
  deriving DecidableEq, Repr

/-- The chip `c` with the parts `ps` as they are in `d`, and every other part left alone. The supply, SYS_RESET_N and REFCLK_KPR come
from the board (R25, R635, R638): they are no part that a command inside the KB9 moves. [DESIGN CHOICE: log 6] -/
def Chip.only (d : Chip) (ps : List Part) (c : Chip) : Chip :=
  { regs := bif ps.contains .regs then d.regs else c.regs
    dict := bif ps.contains .dict then d.dict else c.dict
    muslin := bif ps.contains .muslin then d.muslin else c.muslin
    host := bif ps.contains .host then d.host else c.host
    tku := bif ps.contains .tku then d.tku else c.tku
    dsp := bif ps.contains .dsp then d.dsp else c.dsp
    qmg := bif ps.contains .qmg then d.qmg else c.qmg
    hif := bif ps.contains .hif then d.hif else c.hif
    msl := bif ps.contains .msl then d.msl else c.msl
    drc := bif ps.contains .drc then d.drc else c.drc
    dmk := bif ps.contains .dmk then d.dmk else c.dmk
    atu := bif ps.contains .atu then d.atu else c.atu
    twl := bif ps.contains .twl then d.twl else c.twl
    gze := bif ps.contains .gze then d.gze else c.gze
    twd := bif ps.contains .twd then d.twd else c.twd
    tul := bif ps.contains .tul then d.tul else c.tul
    cnv := bif ps.contains .cnv then d.cnv else c.cnv
    moved := bif ps.contains .moved then d.moved else c.moved
    jrs := bif ps.contains .jrs then d.jrs else c.jrs
    fld := bif ps.contains .fld then d.fld else c.fld
    odx := bif ps.contains .odx then d.odx else c.odx
    flash := bif ps.contains .flash then d.flash else c.flash
    pwr := bif ps.contains .pwr then d.pwr else c.pwr
    gng := bif ps.contains .gng then d.gng else c.gng
    bup := bif ps.contains .bup then d.bup else c.bup
    pkg := bif ps.contains .pkg then
        { d.pkg with keeper := c.pkg.keeper, resetLow := c.pkg.resetLow, refclk := c.pkg.refclk } else c.pkg
    isolated := bif ps.contains .isolated then d.isolated else c.isolated
    sent := bif ps.contains .sent then d.sent else c.sent
    fresh := bif ps.contains .fresh then d.fresh else c.fresh }

/-- The parts that the work of a tile can reach: registers, memories, queues and engines, and the operation itself.
[DESIGN CHOICE: log 6] -/
def Parts.tile : List Part :=
  [.regs, .muslin, .host, .dsp, .qmg, .msl, .drc, .dmk, .atu, .twl, .gze, .twd, .tul, .cnv, .moved, .sent, .fresh]

/-- The parts that dispatching can reach: what follows when descriptors complete or become ready, Gingham's frames among it.
[DESIGN CHOICE: log 6] -/
def Parts.dispatch : List Part := [.regs, .dict, .muslin, .dsp, .qmg, .msl, .drc, .dmk, .gng, .sent]

/-- The parts that a dictionary request can reach: the dictionary and its journal, and every block that follows an entry.
[DESIGN CHOICE: log 6] -/
def Parts.dictionary : List Part :=
  [.regs, .dict, .muslin, .tku, .qmg, .msl, .drc, .gze, .twd, .jrs, .fld, .odx, .pwr, .gng, .sent]

/-- The parts that a step of the clock can reach: those of the dictionary, and the waits that the step passes.
[DESIGN CHOICE: log 6] -/
def Parts.clock : List Part := .dsp :: Parts.dictionary

/-- A command's effect through domain 0 alone, on the parts it names; while the KB9 does not act, nothing happens.
[DEDUCED: log 5] -/
def State.runKeeper (s : State) (ps : List Part) (f : Chip → Chip) : Host.Outcome State Fault Refusal :=
  s.runPins (fun c => if c.live then (f c).only ps c else c)

/-- Whether a host access through a BAR is served: in D3hot the host interface answers configuration requests only (R271).
[DEDUCED: log 5] -/
def Chip.heard (c : Chip) : Bool := c.awake && c.rd R.PCI_PM_STATE != 3

/-- The effect of a host access through a BAR, on the parts it names. [DEDUCED: log 5] -/
def State.runHost (s : State) (ps : List Part) (f : Chip → Chip) : Host.Outcome State Fault Refusal :=
  s.runPins (fun c => if c.heard then (f c).only ps c else c)

/-- A command's effect on the parts it names; while the chip's domains are off, nothing happens. [DEDUCED: log 5] -/
def State.run (s : State) (ps : List Part) (f : Chip → Chip) : Host.Outcome State Fault Refusal :=
  s.runPins (fun c => if c.awake then (f c).only ps c else c)

end Sys2Proof.Machine
end

