-- ==== Sys2Proof/Machine/Operands.lean ====
section
/-!
DEFINITION. Operand forms: the fields of a weave header (R66), of an operation descriptor (R69, R71), of a submission
entry (R289), and of a completion record (R95); units and their islands (R70, R85, R567); format bytes (R35, R36) and
element access in Muslin (R3, R4).
-/
namespace Sys2Proof.Machine

/-! ## Descriptor fields (R69) -/

namespace Desc
def opcode (d : Nat) : Nat := bits d 0 8
def engine (d : Nat) : Nat := bits d 8 4
def phase (d : Nat) : Nat := bits d 12 4
def fence (d : Nat) : Bool := d.testBit 16
def safety (d : Nat) : Bool := d.testBit 17
def irq (d : Nat) : Bool := d.testBit 18
def silent (d : Nat) : Bool := d.testBit 19
def depA (d : Nat) : Nat := bits d 24 8
def depB (d : Nat) : Nat := bits d 32 8
def waitSig (d : Nat) : Nat := bits d 40 8
def postSig (d : Nat) : Nat := bits d 48 8
def waitValue (d : Nat) : Nat := bits d 64 32
def token (d : Nat) : Nat := bits d 96 32
def complQueue (d : Nat) : Nat := bits d 128 15
def tileCount (d : Nat) : Nat := bits d 144 16
def seed (d : Nat) : Nat := bits d 160 32
def fmtA (d : Nat) : Nat := bits d 192 5
def fmtB (d : Nat) : Nat := bits d 200 5
def fmtC (d : Nat) : Nat := bits d 208 5
def fmtOut (d : Nat) : Nat := bits d 216 5
def rnd (d : Nat) : Nat := bits d 224 2
def sat (d : Nat) : Bool := d.testBit 226
/-- A field of the parameter area, by its bits in the descriptor. -/
def par (d lo w : Nat) : Nat := bits d lo w
/-- CHAIN_NEXT of a Twill descriptor (R241). -/
def chainNext (d : Nat) : Bool := engine d == 2 && d.testBit 473
end Desc

/-- The fields of a format byte (R35); its reserved bits are ignored. -/
def fmtCode (b : Nat) : Nat := bits b 0 4
def fmtMx (b : Nat) : Bool := b.testBit 4

/-- Whether an opcode is defined for an engine code (R72; the tables of R78, R151, R184, R220, R244, R259, R352, R366,
R396, R423). -/
def opcodeDefined (engine opcode : Nat) : Bool :=
  match engine with
  | 0x0 => (decide (1 ≤ opcode) && decide (opcode ≤ 6)) || (decide (0x10 ≤ opcode) && decide (opcode ≤ 0x13))
  | 0x1 => decide (1 ≤ opcode) && decide (opcode ≤ 2)
  | 0x2 => decide (1 ≤ opcode) && decide (opcode ≤ 0x12)
  | 0x3 => opcode == 1
  | 0x4 | 0x5 | 0x6 | 0x7 | 0x8 | 0xA => decide (1 ≤ opcode) && decide (opcode ≤ 3)
  | 0x9 => decide (1 ≤ opcode) && decide (opcode ≤ 2)
  | _ => false

/-- Whether a unit can run work of an engine code (R70, R85), whatever its state. -/
def unitServes (unit engine : Nat) : Bool :=
  match engine with
  | 0x0 => unit == 0
  | 0x1 => unit == 1
  | 0x2 => decide (2 ≤ unit) && decide (unit ≤ 19)
  | 0x3 => unit == 20
  | 0x4 => unit == 21
  | 0x5 => unit == 22
  | 0x6 => unit == 23 || unit == 24
  | 0x7 => unit == 23
  | 0x8 => unit == 24
  | 0x9 => unit == 25 || unit == 26
  | _ => false

/-- The islands of a unit, in the order of R567. -/
def unitIslands (unit : Nat) : List Nat :=
  if unit = 0 then (List.range 18)
  else if unit = 1 then [61, 62]
  else if unit ≤ 19 then [43 + (unit - 2)]
  else if unit = 20 then [94, 95]
  else if unit = 21 then [96, 97]
  else if unit = 22 then [98, 99]
  else if unit = 23 then [100]
  else if unit = 24 then [101]
  else []

/-- Whether an island is one that every unit's work passes: a crossbar slice, the control network, the Dispatch Unit or the queue
manager (R21). -/
def fabricIsland (i : Nat) : Bool := (decide (34 ≤ i) && decide (i ≤ 42)) || i == 63 || i == 64

/-- The power domain of an island (R21, R567). -/
def islandDomain (i : Nat) : Nat :=
  if i < 16 then 4 else if i < 18 then 5 else if i < 34 then 6 + (i - 18) / 2 else if i < 43 then 1
  else if i < 61 then 14 + (i - 43) / 6 else if i < 63 then 17 else if i < 65 then 1 else if i < 67 then 2 else if i < 83 then 3
  else if i < 96 then 18 else if i < 98 then 19 else if i < 100 then 20 else if i = 100 then 21 else if i = 101 then 22
  else if i < 108 then 23 else 0

/-- The power domain of a unit (R24); the copy engine's ports lie in the fabric. -/
def unitDomain (unit : Nat) : Nat :=
  if unit = 0 then 4
  else if unit = 1 then 17
  else if unit ≤ 19 then 14 + (unit - 2) / 6
  else if unit = 20 then 18
  else if unit = 21 then 19
  else if unit = 22 then 20
  else if unit = 23 then 21
  else if unit = 24 then 22
  else 1

/-! ## Ranges of operands (R657) -/

/-- The bytes of an operand: `rows` rows of `len` bytes, `stride` bytes apart, from a Muslin offset. -/
structure Strided where
  off : Nat
  stride : Nat
  rows : Nat
  len : Nat
  deriving DecidableEq, Repr

/-- The start of row `i`. -/
def Strided.row (s : Strided) (i : Nat) : Nat := s.off + i * s.stride

/-- Whether every row lies within Muslin. -/
def Strided.fits (s : Strided) : Bool := s.rows == 0 || s.len == 0 || decide (s.row (s.rows - 1) + s.len ≤ muslinSize)

/-- Whether a run of `n` bytes from `x` shares a byte with a row. -/
def Strided.hits (s : Strided) (x n : Nat) : Bool :=
  if n = 0 ∨ s.len = 0 ∨ s.rows = 0 then false
  else if s.stride = 0 then decide (s.off < x + n) && decide (x < s.off + s.len)
  else
    let j := if x < s.off + s.len then 0 else (x - s.off - s.len) / s.stride + 1
    decide (j < s.rows) && decide (s.row j < x + n) && decide (x < s.row j + s.len)

/-- Whether two operands share a byte. -/
def Strided.overlaps (a b : Strided) : Bool := (List.range a.rows).any (fun i => b.hits (a.row i) a.len)

/-- A device address as a place in one space of Muslin, whatever the alias, and DRAM. -/
def placeOf (a : Nat) : Nat := if devRegion a = 8 then 2 ^ 40 + devOffset a else devOffset a

/-- Whether no two of a list of operands share a byte. -/
def apart : List Strided → Bool
  | [] => true
  | a :: r => r.all (fun b => !a.overlaps b) && apart r

/-- Whether two runs of (device address, bytes) share a byte. -/
def rangesMeet (a b : Nat × Nat) : Bool := (Strided.mk (placeOf a.1) 0 1 a.2).overlaps ⟨placeOf b.1, 0, 1, b.2⟩

/-- Whether no two of a list of runs share a byte. -/
def disjointAll (l : List (Nat × Nat)) : Bool := apart (l.map (fun r => ⟨placeOf r.1, 0, 1, r.2⟩))

/-! ## Records (R95) -/

/-- What a completion record says beside the descriptor's own fields. -/
structure RecInfo where
  status : Nat
  flags : BitVec 8
  unit : Nat
  cls : Nat
  activeUs : Nat
  tiles : Nat
  preempts : Nat
  info0 : Nat
  info1 : Nat
  deriving DecidableEq, Repr

/-- A record of a refusal, or of an operation the Dispatch Unit completes itself: unit 31, no tiles. -/
def RecInfo.plain (status cls : Nat) : RecInfo := ⟨status, 0, 31, cls, 0, 0, 0, 0, 0⟩

/-- The 256 bits of a completion record. -/
def buildRecord (r : RecInfo) (engine phase token stamp weaveId index : Nat) : Nat :=
  bits r.status 0 16 + (r.flags.toNat <<< 16) + (bits r.unit 0 5 <<< 24) + (bits r.cls 0 3 <<< 29) +
  (bits engine 0 4 <<< 32) + (bits phase 0 4 <<< 36) + (min r.activeUs 8388607 <<< 40) +
  (bits token 0 32 <<< 64) + (bits stamp 0 32 <<< 96) + (bits weaveId 0 16 <<< 128) + (bits index 0 16 <<< 144) +
  (bits r.tiles 0 16 <<< 160) + (min r.preempts 65535 <<< 176) + (bits r.info0 0 32 <<< 192) + (bits r.info1 0 32 <<< 224)

/-! ## Elements in memory -/

/-- The bytes of one stored row of `n` elements of `w` bits: whole bytes, and whole 3-byte groups in FP6 (R43). -/
def packedBytes (w n : Nat) : Nat := if w = 6 then 3 * ceilDiv n 4 else ceilDiv (w * n) 8

/-- Element `i` of a row in Muslin that starts at an offset. -/
def Chip.elem (c : Chip) (off w i : Nat) : Nat :=
  let lo := w * i
  bits (c.peekNat (off + lo / 8) ((lo + w - 1) / 8 - lo / 8 + 1)) (lo % 8) w

/-- The bytes that hold elements `i` to `i + n - 1` of a row: first offset and length. -/
def elemSpan (off w i n : Nat) : Nat × Nat :=
  if n = 0 then (off, 0) else (off + w * i / 8, (w * (i + n) + 7) / 8 - w * i / 8)

/-- A list of Muslin ranges read in order, up to the first that fails: the status met. -/
def Chip.touchReads (c : Chip) (rs : List (Nat × Nat)) : Chip × Nat :=
  rs.foldl (fun (s : Chip × Nat) r =>
    if s.2 != 0 then s else let v := s.1.devRead r.1 r.2; (v.1, v.2.1)) (c, St.OK)

/-- `old` with the bytes replaced that `free` may take: byte `i` where `held i` does not hold it. -/
def freeMix (held : Nat → Bool) (old free : List Byte) : List Byte :=
  ((List.range old.length).zip (old.zip free)).map (fun p => if held p.1 then p.2.1 else p.2.2)

/-- Free bytes in a stretch of one Muslin group, but for words that no write of them could have changed: poisoned or protected
ones (R109, R134). No request is made: nothing is counted, and poison stays. -/
def Chip.freeMuslin (c : Chip) (off : Nat) (bs : List Byte) : Chip :=
  if !c.linesServe off 1 && !c.quadsOut then c
  else { c with muslin := c.muslin.write off (freeMix
           (fun i => c.msl.poisoned.contains ((off + i) / 8) || c.protectedAt (off + i) || c.quadsOut && !c.linesServe (off + i) 1)
           (c.muslin.read off bs.length) bs) }

/-- Free bytes in a stretch of one DRAM page, and in its copy while the page retires, but for poisoned bursts. -/
def Chip.freeDram (c : Chip) (off : Nat) (bs : List Byte) : Chip :=
  let p := c.dramPlace off
  if !c.dramServes || c.channelOut p bs.length then c
  else
    let new := freeMix (fun i => c.drc.poisoned.contains ((p + i) / 64)) (c.drc.read p bs.length) bs
    let d := c.drc.write p new
    { c with drc := match c.drc.retiring with
        | some (page, e) => if off / 4096 = page then d.write (c.usableDram + 4096 * e + off % 4096) new else d
        | none => d }

/-- Ranges of Muslin and DRAM whose contents a failed operation leaves not valid: free bytes, where a write could have reached
them. [DESIGN CHOICE: log 34] -/
def Chip.invalidate (c : Chip) (rs : List (Nat × Nat)) : Chip :=
  rs.foldl (fun (c : Chip) r =>
    let f := c.freshId
    let bs := leBytes r.2 (Config.freeNat f.1)
    let off := devOffset r.1
    if devRegion r.1 = 8 then
      (partsOf 4096 off r.2).foldl (fun c p => c.freeDram p.1 ((bs.drop p.2.1).take p.2.2)) f.2
    else (partsOf (2 ^ 25) off r.2).foldl (fun c p => c.freeMuslin p.1 ((bs.drop p.2.1).take p.2.2)) f.2) c

/-- Element `i` of a packed run of `w`-bit elements: the first element in the lowest bits (R42). -/
def elemAt (bs : List Byte) (w i : Nat) : Nat :=
  let lo := w * i
  let first := lo / 8
  let last := (lo + w - 1) / 8
  bits (leNat ((bs.drop first).take (last - first + 1))) (lo % 8) w

/-- The packed bytes of a run of `w`-bit elements; unused bits are 0 (R43). -/
def packElems (w : Nat) (xs : List Nat) : List Byte :=
  leBytes (packedBytes w xs.length) (xs.foldr (fun x acc => x % 2 ^ w + (acc <<< w)) 0)

end Sys2Proof.Machine
end

