-- ==== Sys2Proof/Machine/Sched.lean ====
section
/-!
DEFINITION. The Dispatch Unit (chapter 03): weaves, readiness, start order, tiles, preemption, signals, timed launches,
completion records and their routing.
-/
namespace Sys2Proof.Machine

/-! ## Weaves and units -/

/-- The weave of a handle. -/
def Chip.weave? (c : Chip) (id : Nat) : Option Weave := c.dsp.weaves.find? (fun w => w.id == id)

/-- A weave replaced, by its handle. -/
def Chip.setWeave (c : Chip) (w : Weave) : Chip :=
  { c with dsp := { c.dsp with weaves := c.dsp.weaves.map (fun v => if v.id = w.id then w else v) } }

/-- The state of descriptor `i` of a weave. -/
def Weave.st (w : Weave) (i : Nat) : Option DescState := (w.descs[i]?).map (·.state)

/-- The descriptor's words. -/
def Weave.raw (w : Weave) (i : Nat) : Nat := ((w.descs[i]?).map (·.raw)).getD 0

/-- A descriptor's state set. -/
def Weave.setSt (w : Weave) (i : Nat) (s : DescState) : Weave :=
  { w with descs := modifyNth w.descs i (fun d => { d with state := s }) }

/-- A descriptor's state set in the chip. -/
def Chip.setDescState (c : Chip) (id i : Nat) (s : DescState) : Chip :=
  match c.weave? id with
  | some w => c.setWeave (w.setSt i s)
  | none => c

/-- The operation that runs on a unit. -/
def Chip.op? (c : Chip) (u : Nat) : Option OpRun := c.dsp.running.get? u

/-- The operation on a unit replaced. -/
def Chip.setOp (c : Chip) (u : Nat) (o : OpRun) : Chip := { c with dsp := { c.dsp with running := c.dsp.running.put u o } }

/-- The operation on a unit changed. -/
def Chip.modOp (c : Chip) (u : Nat) (f : OpRun → OpRun) : Chip :=
  match c.op? u with
  | some o => c.setOp u (f o)
  | none => c

/-- No operation on a unit; it became free now. The class of the operation that leaves is kept (R89). -/
def Chip.freeUnit (c : Chip) (u : Nat) : Chip :=
  let left := match c.op? u with
    | some o => Table.put c.dsp.left u o.cls
    | none => c.dsp.left
  { c with dsp := { c.dsp with running := Table.del c.dsp.running u, freeAt := Table.put c.dsp.freeAt u c.now, left := left,
                               holdExpired := c.dsp.holdExpired.filter (· != u) } }

/-- What the Dispatch Unit and the queue manager may change when descriptors complete, become ready or leave: their own tables,
the rings and registers, and what a memory access leaves behind. -/
def Chip.dispatched (c d : Chip) : Chip :=
  { c with regs := d.regs, muslin := d.muslin, dsp := d.dsp, qmg := d.qmg, msl := d.msl, drc := d.drc, dmk := d.dmk,
           gng := d.gng, sent := d.sent }

/-- The status bits that show what runs: DSP_STATUS, and the BUSY and SUSPENDED bits of the engines (R98, R177, R238, R266,
R357, R387, R416, R444). -/
def Chip.refresh (c : Chip) : Chip := { c with regs := Chip.regs (
  let busy := fun u => b2n (c.op? u).isSome
  let c := c.wr R.DSP_STATUS_IDLE (b2n (c.dsp.running.isEmpty && c.dsp.suspended.isEmpty))
  let c := c.wr R.DSP_STATUS_SUSPENDED c.dsp.suspended.length
  let c := c.wr R.DMK_STATUS_BUSY (b2n ((c.op? 0).isSome || c.on R.DMK_STATUS_SWAP_ACTIVE))
  let c := c.wr R.ATU_STATUS_BUSY (busy 1)
  let c := (List.range 18).foldl (fun (c : Chip) k =>
    let c := c.wr R.TWL_CLUSTER_BUSY (b2n (c.op? (2 + k)).isSome) k
    let c := c.wr R.TWL_CLUSTER_CHAINS
      ((c.dsp.chains.filter (fun p => p.1 / 8 == k)).foldl (fun a p => a ||| 2 ^ (p.1 % 8)) 0) k
    c.wr R.TWL_CLUSTER_SUSPENDED
      ((c.dsp.suspended.filter (fun o => o.unit == 2 + k)).foldl (fun a o => a ||| 2 ^ o.cls) 0) k) c
  let c := c.wr R.GZE_STATUS_BATCH_BUSY (busy 20)
  let kept := fun u => b2n ((c.op? u).isSome || c.dsp.suspended.any (fun o => o.unit == u))
  let c := c.wr R.TWD_STATUS_BUSY (kept 21)
  let c := c.wr R.TUL_STATUS_BUSY (kept 22)
  let c := c.wr R.CNV_STATUS_BUSY (busy 23)
  let c := c.wr (R.CNV_STATUS_BUSY.inst 1) (busy 24)
  c.wr R.QMG_STATUS_IN_FLIGHT c.dsp.weaves.length) }

/-- Whether a Canvas instance is in service (R439). [DEDUCED: log 37] -/
def Chip.canvasIn (c : Chip) (k : Nat) : Bool := c.rd (R.CNV_STATUS_STATE.inst k) == 0

/-- Whether a unit is isolated, by a stall, a removal or a failed restart, or the fabric that its work passes (R23, R26, R623). -/
def Chip.unitOffline (c : Chip) (u : Nat) : Bool := c.isolated.any (fun i => (unitIslands u).contains i || fabricIsland i)

/-! ## Readiness (R73 to R77) -/

/-- The indices a descriptor depends on by number: DEP_A, DEP_B, and its predecessor in a Twill chain (R254). -/
def Weave.deps (w : Weave) (i : Nat) : List Nat :=
  let d := w.raw i
  (if Desc.depA d = 0 then [] else [i - Desc.depA d]) ++ (if Desc.depB d = 0 then [] else [i - Desc.depB d]) ++
  (if i ≠ 0 ∧ Desc.chainNext (w.raw (i - 1)) then [i - 1] else [])

/-- Whether a descriptor has completed. -/
def Weave.isDone (w : Weave) (i : Nat) : Bool :=
  match w.st i with
  | some (.done _) => true
  | _ => false

/-- Whether a descriptor has completed in a class that satisfies a dependency. -/
def Weave.satisfied (w : Weave) (i : Nat) : Bool :=
  match w.st i with
  | some (.done s) => satisfiesDep s
  | _ => false

/-- Whether a descriptor has completed in a class that fails a dependency. -/
def Weave.failed (w : Weave) (i : Nat) : Bool :=
  match w.st i with
  | some (.done s) => failsDep s
  | _ => false

/-- Whether a descriptor has started (R73 condition 4). [DEDUCED: log 29] -/
def Weave.hasStarted (w : Weave) (i : Nat) : Bool :=
  match w.st i with
  | some .waiting => false
  | some (.ready _ _) => false
  | none => false
  | _ => true

/-- Whether a signal is poisoned (R76). -/
def Chip.poisonedSignal (c : Chip) (s : Nat) : Bool := (c.rd R.DSP_SIG_POISON_POISON (s / 32)).testBit (s % 32)

/-- A signal's poison bit set or cleared. -/
def Chip.setPoison (c : Chip) (s : Nat) (v : Bool) : Chip :=
  c.wr R.DSP_SIG_POISON_POISON (setBits (c.rd R.DSP_SIG_POISON_POISON (s / 32)) (s % 32) 1 (b2n v)) (s / 32)

/-- Whether a signal has reached a threshold, as a signed difference (R73 condition 3). -/
def Chip.signalReached (c : Chip) (s v : Nat) : Bool :=
  s == 0 || decide (0 ≤ toSigned 32 ((c.rd R.DSP_SIG_VALUE s + 2 ^ 32 - v) % 2 ^ 32))

/-- Whether a dependency of a waiting descriptor has failed, or its signal is poisoned (R75, R76). -/
def Chip.depFailed (c : Chip) (w : Weave) (i : Nat) : Bool :=
  let d := w.raw i
  (w.deps i).any w.failed ||
  (Desc.fence d && (List.range i).any w.failed) ||
  (Desc.waitSig d != 0 && c.poisonedSignal (Desc.waitSig d))

/-- Whether a descriptor's conditions hold (R73). -/
def Chip.conditions (c : Chip) (w : Weave) (i : Nat) : Bool :=
  let d := w.raw i
  (w.deps i).all w.satisfied &&
  (!Desc.fence d || (List.range i).all w.isDone) &&
  c.signalReached (Desc.waitSig d) (Desc.waitValue d) &&
  (List.range i).all (fun j => Desc.engine (w.raw j) != Desc.engine d || w.hasStarted j)

/-! ## Completion (R74 to R76, R95 to R97) -/

/-- Whether a queue number names an enabled completion queue. [DEDUCED: log 35] -/
def Chip.isCompletionQueue (c : Chip) (q : Nat) : Bool :=
  match c.queue? q with
  | some r => r.kind == 2
  | none => false

/-- The enabled message queue fed by WEAVE that a number names (R296). -/
def Chip.weaveFed (c : Chip) (q : Nat) : Option Queue :=
  match c.queue? q with
  | some r => if r.kind = 3 ∧ r.producer = 1 then some r else none
  | none => none

/-- A message is posted from a queue's staging slot (R296). Answers whether it was posted. -/
def Chip.postMessage (c : Chip) (n : Nat) (q : Queue) : Chip × Bool :=
  if q.full then (c.loseFor n, false)
  else
    let r := c.devRead q.stageAddr 64
    if r.2.1 != 0 then (r.1.loseFor n, false)
    else
      let before := (r.1.qmg.queues.get? n).map (·.produced)
      let c2 := r.1.ringWrite n q (leNat r.2.2) false
      (c2, (c2.qmg.queues.get? n).map (·.produced) != before)

/-- The completion of descriptor `i` of a weave is reported: a message, a record in the queue that R92, R96, R290 and R296
name, or nothing (R71). [DEDUCED: log 35] -/
def Chip.report (c : Chip) (w : Weave) (i : Nat) (r : RecInfo) : Chip :=
  let d := w.raw i
  let q := Desc.complQueue d
  let mk := fun (r : RecInfo) => buildRecord r (Desc.engine d) (Desc.phase d) (Desc.token d) c.stamp w.weaveId i
  match c.weaveFed q with
  | some m =>
    if satisfiesDep r.status then
      let p := c.postMessage q m
      if p.2 then p.1
      else p.1.writeRecord m.pair (mk { r with status := St.QMG_MSG_DROPPED }) (Desc.irq d)
    else c.writeRecord m.pair (mk r) (Desc.irq d)
  | none =>
    if Desc.silent d && statusClass r.status == 0 then c
    else
      let target := if c.isCompletionQueue q then q else w.pair
      c.writeRecord target (mk r) (Desc.irq d)

/-- Signals follow a completion (R76, R90): posted, poisoned, or left alone. -/
def Chip.signalFor (c : Chip) (d status : Nat) : Chip :=
  let s := Desc.postSig d
  if s = 0 then c
  else if status = St.DSP_CANCELLED then c
  else if satisfiesDep status then c.wr R.DSP_SIG_VALUE (c.rd R.DSP_SIG_VALUE s + 1) s
  else if failsDep status then c.setPoison s true
  else c

/-- A weave whose descriptors have all completed leaves the chip (R97). -/
def Chip.retireWeaves (c : Chip) : Chip :=
  { c with dsp := { c.dsp with weaves := c.dsp.weaves.filter (fun w =>
      !(decide (w.descs.length = w.count) && w.descs.all (fun d => match d.state with | .done _ => true | _ => false))) } }

/-- Vector 0 for a status in class FAULT (R656). -/
def Chip.raiseFor (c : Chip) (status : Nat) : Chip := if statusClass status = 7 then c.raise 0 else c

/-- The key of an open chain. -/
def chainKey (cluster cls : Nat) : Nat := cluster * 8 + cls

/-- Whether descriptor `i` of a weave is a member of its open chain whose next index is `n`: the one that runs, the next, or one that
CHAIN_NEXT leads to from there (R254). -/
def Weave.inChain (w : Weave) (n i : Nat) : Bool :=
  n == i + 1 || (decide (n ≤ i) && (List.range (i - n)).all (fun j => Desc.chainNext (w.raw (n + j))))

/-- A member of a chain completes: with CHAIN_NEXT 0, or in a class that fails a dependency, it closes its chain (R254).
[DEDUCED: log 169] -/
def Chip.chainDone (c : Chip) (w : Weave) (i status : Nat) : Chip :=
  let closes := fun (p : Nat × Nat × Nat) =>
    p.2.1 == w.id && (if failsDep status then w.inChain p.2.2 i else p.2.2 == i && !Desc.chainNext (w.raw i))
  { c with dsp := { c.dsp with chains := c.dsp.chains.filter (fun p => !closes p) } }

/-- Gingham keeps the status of every descriptor of a frame's weave (R580). -/
def Chip.noteDone (c : Chip) (id i status : Nat) : Chip :=
  { c with gng := { c.gng with frames := c.gng.frames.map (fun (f : GngFrame) =>
      if f.weave = some id then { f with done := Table.put f.done i status } else f) } }

/-- Slots 2 and 3 and the weight registers cleared (R166). -/
def Chip.clearCells (c : Chip) : Chip := { c with dmk := { c.dmk with work := [], weights := [] } }

/-- Damask or a Twill cluster has completed an operation, whatever its status: the engine counts it (R175, R268), and Damask clears what
a fault left in its cells (R166). [DEDUCED: log 38] -/
def Chip.countOp (c : Chip) (u st : Nat) : Chip :=
  let c := if u = 0 then c.count R.DMK_OP_CNT_COUNT
    else if 2 ≤ u ∧ u ≤ 19 then c.count R.TWL_OP_CNT_COUNT else c
  if u = 0 ∧ statusClass st = 7 then c.clearCells else c

/-- The mirror operation on a pair cluster is over, with a status (R575). -/
def Chip.endMirror (c : Chip) (u : Nat) (o : OpRun) (status : Nat) : Chip :=
  let part := o.ctx.headD 0
  let c := { c with gng := { c.gng with frames := c.gng.frames.map (fun (f : GngFrame) =>
      if f.weave = some o.weave then { f with mirrors := f.mirrors.map (fun (m : GngMirror) =>
        if m.index = o.index ∧ m.part = part then { m with state := 2, status := status } else m) } else f) } }
  let closes := fun (p : Nat × Nat × Nat) =>
    p.2.1 == 2 ^ 32 + o.weave && (p.2.2 == o.index || p.2.2 == o.index + 1) && (!Desc.chainNext o.raw || failsDep status)
  let c := { c with dsp := { c.dsp with chains := c.dsp.chains.filter (fun p => !closes p) } }
  ((c.freeUnit u).countOp u status).raiseFor status

/-- Whether a weave is a golden run, which writes no completion records (R586). -/
def Weave.isGolden (w : Weave) : Bool := match w.source with | .golden _ => true | _ => false

/-- Descriptor `i` of weave `id` completes with a record: message or record first, then its signal, then its state. -/
def Chip.finishDesc (c : Chip) (id i : Nat) (r : RecInfo) : Chip := c.dispatched (
  match c.weave? id with
  | some w =>
    let c := (if w.isGolden then c else c.report w i r).noteDone id i r.status
    let c := c.raiseFor r.status
    let c := c.signalFor (w.raw i) r.status
    (c.chainDone w i r.status).setDescState id i (.done r.status)
  | none => c)

/-! ## A weave arrives (R66, R67, R658) -/

/-- A refusal record: no descriptor and unit 31; with ENGINE 0xF and PHASE and TOKEN 0 where R658 states them.
[DEDUCED: log 30; DESIGN CHOICE: log 166] -/
def Chip.refusalRecord (c : Chip) (queue status cls weaveId index info0 : Nat) : Chip :=
  let open_ := status == St.DSP_BAD_WEAVE
  let engine := if open_ then Config.refusedField 0 else 0xF
  let phase := if open_ then Config.refusedField 1 else 0
  let token := if open_ then Config.refusedField 2 else 0
  (c.writeRecord queue (buildRecord { RecInfo.plain status cls with info0 := info0 } engine phase token c.stamp weaveId index)
    false).raiseFor status

/-- The fields of a weave header (R66). -/
def Hdr.version (h : Nat) : Nat := bits h 0 16
def Hdr.weaveId (h : Nat) : Nat := bits h 16 16
def Hdr.count (h : Nat) : Nat := bits h 32 17
def Hdr.cls (h : Nat) : Nat := bits h 64 3

/-- A header read and checked: the refusal's status and INFO0, or the header (R67, R658). [DESIGN CHOICE: log 170] -/
def Chip.readHeader (c : Chip) (addr : Nat) : Chip × Except (Nat × Nat × Nat) Nat :=
  if addr % 64 != 0 || !c.validRange [0, 8] addr 64 then (c, .error (St.DSP_BAD_WEAVE, 0, 0))
  else
    let r := c.devRead addr 64
    let h := leNat r.2.2
    if r.2.1 != 0 then (r.1, .error (r.2.1, 0, 2))
    else if Hdr.version h != 1 || Hdr.count h == 0 || decide (65536 < Hdr.count h) ||
        !c.validRange [0, 8] addr (64 * (Hdr.count h + 1)) then (r.1, .error (St.DSP_BAD_WEAVE, Hdr.weaveId h, 0))
    else (r.1, .ok h)

/-- A weave whose header is good enters the Dispatch Unit. -/
def Chip.addWeave (c : Chip) (addr header cls pair : Nat) (source : WeaveSource) (qfence : Bool) : Chip × Nat :=
  let id := c.dsp.nextId
  let w : Weave := { id := id, addr := addr, weaveId := Hdr.weaveId header, count := Hdr.count header, cls := cls,
                     source := source, pair := pair, qfence := qfence, cancelled := false, descs := [] }
  ({ c with dsp := { c.dsp with weaves := c.dsp.weaves ++ [w], nextId := id + 1 } }, id)

/-- The descriptors of every weave, in order of handle and index. -/
def Chip.allDescs (c : Chip) : List (Nat × Nat) :=
  (c.dsp.weaves.map (fun w => (List.range w.descs.length).map (fun i => (w.id, i)))).foldr (· ++ ·) []

/-- One look at one descriptor: a failed dependency completes it; met conditions make it ready; lost conditions make it
wait again. Cancelled weaves complete what has not started (R90). [DESIGN CHOICE: log 172] -/
def Chip.settleOne (c : Chip) (p : Nat × Nat) : Chip :=
  match c.weave? p.1 with
  | none => c
  | some w =>
    match w.st p.2 with
    | some .waiting =>
      if w.cancelled then c.finishDesc p.1 p.2 (.plain St.DSP_CANCELLED w.cls)
      else if c.depFailed w p.2 then c.finishDesc p.1 p.2 (.plain St.DSP_DEP_FAILED w.cls)
      else if c.conditions w p.2 then c.setWeave (w.setSt p.2 (.ready c.dsp.nextOrder c.now))
      else c
    | some (.ready _ _) =>
      if w.cancelled then c.finishDesc p.1 p.2 (.plain St.DSP_CANCELLED w.cls)
      else if c.conditions w p.2 then c
      else c.setWeave (w.setSt p.2 .waiting)
    | _ => c

/-- One look at every descriptor. -/
def Chip.settlePass (c : Chip) : Chip := c.allDescs.foldl (fun c p => c.settleOne p) c

/-- Looks until nothing more can follow: each look that changes anything completes a descriptor or makes one ready. -/
def Chip.settleLoop (c : Chip) : Nat → Chip
  | 0 => c
  | n + 1 =>
    let c' := c.settlePass
    if c'.dsp.weaves = c.dsp.weaves then c' else Chip.settleLoop c' n

/-- Everything that follows a change of dependencies, signals or descriptors (R73 to R76, R97). -/
def Chip.settle (c : Chip) : Chip := c.dispatched (
  let c := c.settleLoop (2 * c.allDescs.length + 1)
  let c := { c with dsp := { c.dsp with nextOrder := c.dsp.nextOrder + 1 } }
  c.retireWeaves.refresh)

/-- A signal set, or added to, from outside a completion: by the host, by Gauze (R77, R338). What waits on it follows. -/
def Chip.signalSet (c : Chip) (s v : Nat) : Chip := if s = 0 then c else (c.wr R.DSP_SIG_VALUE v s).settle
def Chip.signalAdd (c : Chip) (s n : Nat) : Chip := c.signalSet s (c.rd R.DSP_SIG_VALUE s + n)

/-! ## Start order (R81), holds (R88), placement (R240) -/

/-- The key that breaks a tie of one Dispatch cycle: submission queues by number, then launch entries. [DESIGN CHOICE: log 32] -/
def Weave.tieKey (w : Weave) : Nat :=
  match w.source with
  | .queue q => q
  | .launch e _ => 2 ^ 15 + e
  | .golden n => 2 ^ 16 + n

/-- A ready descriptor: class, order, tie key, index, weave handle. -/
structure Candidate where
  cls : Nat
  order : Nat
  tie : Nat
  index : Nat
  weave : Nat
  since : Nat
  raw : Nat
  deriving DecidableEq, Repr

/-- Whether `a` starts before `b` (R81). [DESIGN CHOICE: log 32, 171] -/
def Candidate.before (a b : Candidate) : Bool :=
  if a.cls ≠ b.cls then decide (a.cls < b.cls)
  else if a.order ≠ b.order then decide (a.order < b.order)
  else if a.tie ≠ b.tie then decide (a.tie < b.tie)
  else decide (a.index < b.index)

/-- The ready descriptors of a list of engine codes, held operations that KV_RESUME made ready among them (R231). -/
def Chip.readyFor (c : Chip) (p : Nat → Bool) : List Candidate :=
  (c.dsp.weaves.map (fun w => (List.range w.descs.length).filterMap (fun i =>
    match w.st i with
    | some (.ready o t) => if p (Desc.engine (w.raw i)) then some ⟨w.cls, o, w.tieKey, i, w.id, t, w.raw i⟩ else none
    | some (.held slot) =>
      match Table.get? c.atu.holds slot with
      | some ⟨_, some (o, t), false⟩ => if p 1 then some ⟨w.cls, o, w.tieKey, i, w.id, t, w.raw i⟩ else none
      | _ => none
    | _ => none))).foldr (· ++ ·) []

/-- The first of a list by an order. -/
def bestBy {α : Type} (lt : α → α → Bool) : List α → Option α
  | [] => none
  | x :: xs =>
    match bestBy lt xs with
    | none => some x
    | some y => if lt y x then some y else some x

/-- The chain that a candidate continues: its predecessor in the weave has CHAIN_NEXT (R254). -/
def Chip.continues (c : Chip) (k : Candidate) : Bool :=
  match c.weave? k.weave with
  | some w => k.index != 0 && Desc.chainNext (w.raw (k.index - 1))
  | none => false

/-- Whether a cluster is the one the ATU uses (R198). -/
def Chip.atuCluster (c : Chip) (k : Nat) : Bool := c.on R.ATU_CTRL_ENABLE && c.rd R.ATU_CTRL_TWILL_CLUSTER == k

/-- Whether the Dispatch Unit may give a cluster work of a class at all (R240). -/
def Chip.clusterOpen (c : Chip) (k cls : Nat) : Bool :=
  c.rd R.TWL_CLUSTER_STATE k == 0 && !c.unitOffline (2 + k) && c.domainState (14 + k / 6) == 0 &&
  !c.atuCluster k &&
  !(c.on R.TWL_GNG_PAIR_EXCLUSIVE && (c.rd R.TWL_GNG_PAIR_CLUSTER_A == k || c.rd R.TWL_GNG_PAIR_CLUSTER_B == k)) &&
  (Table.get? c.dsp.chains (chainKey k cls)).isNone

/-- The cluster that holds the open chain a descriptor is the next member of. -/
def Chip.chainCluster (c : Chip) (weave index cls : Nat) : Option Nat :=
  (List.range 18).find? (fun k => Table.get? c.dsp.chains (chainKey k cls) == some (weave, index))

/-- The cluster on which R240 starts a descriptor: its chain's, unless that is the ATU's (R198), or the lowest free one that is open to
it; a successor whose chain has closed is placed as any other. -/
def Chip.placeTwill (c : Chip) (weave index cls : Nat) (chained : Bool) : Option Nat :=
  match (if chained then c.chainCluster weave index cls else none) with
  | some k => if c.atuCluster k then none else some k
  | none => (List.range 18).find? (fun k => (c.op? (2 + k)).isNone && c.clusterOpen k cls)

/-- Whether a candidate may start on a unit by placement (R70, R240). -/
def Chip.placedOn (c : Chip) (k : Candidate) (u : Nat) : Bool :=
  let e := Desc.engine k.raw
  unitServes u e &&
  (if e = 2 then c.placeTwill k.weave k.index k.cls (c.continues k) == some (u - 2)
   else if e = 6 then c.canvasIn (u - 23)
   else true)

/-- The descriptors that a free unit is held for, while HOLD_US has not passed since it became free: those for its engine that wait only
on their own weave (R88). Each with its class. -/
def Chip.heldFor (c : Chip) (u : Nat) : List (Nat × Nat) :=
  let hold := c.rd R.DSP_CTRL_HOLD_US
  let free := Table.getD c.dsp.freeAt u 0
  if hold != 0 && !c.dsp.holdExpired.contains u && (Table.get? c.dsp.freeAt u).isSome && decide (c.now < free + hold * 1000) then
    (c.dsp.weaves.map (fun w => ((List.range w.descs.length).filter (fun i =>
      match w.st i with
      | some .waiting =>
        unitServes u (Desc.engine (w.raw i)) && c.signalReached (Desc.waitSig (w.raw i)) (Desc.waitValue (w.raw i)) &&
        !c.depFailed w i &&
        (if Desc.engine (w.raw i) = 2 then
          c.placeTwill w.id i w.cls (i != 0 && Desc.chainNext (w.raw (i - 1))) == some (u - 2) else true)
      | _ => false)).map (fun i => (w.cls, w.raw i)))).flatten
  else []

/-- Whether a class's work is held off a unit (R88): the unit is held for a descriptor of a more urgent class. -/
def Chip.held (c : Chip) (u cls : Nat) : Bool := (c.heldFor u).any (fun p => decide (p.1 < cls))

/-- Sentinel is in force (R27, R30), by the profile entry. -/
def Chip.sentinel (c : Chip) : Bool := c.entry 0x5800 1 == 3

/-- Whether Sentinel keeps a unit's domain on (R27). -/
def Chip.sentinelKeeps (c : Chip) (u : Nat) : Bool :=
  u == 0 || u == 20 || u == 21 || u == 25 || u == 26 ||
  (decide (2 ≤ u) && decide (u ≤ 19) &&
    (unitDomain u == 14 + c.rd R.TWL_GNG_PAIR_CLUSTER_A / 6 || unitDomain u == 14 + c.rd R.TWL_GNG_PAIR_CLUSTER_B / 6))

/-- Whether a unit may take work now: free, running in an active domain, not restarting, not switched off by Sentinel, and
for Damask and the ATU not while the other runs (R197). -/
def Chip.unitFree (c : Chip) (u : Nat) : Bool :=
  (c.op? u).isNone && c.domainState (unitDomain u) == 0 && !c.bup.restarting.contains (unitDomain u) &&
  (!c.sentinel || c.sentinelKeeps u) &&
  (if u = 0 then (c.op? 1).isNone && !c.on R.DMK_STATUS_SWAP_ACTIVE
   else if u = 1 then (c.op? 0).isNone && c.on R.ATU_CTRL_ENABLE && !c.on R.DMK_STATUS_SWAP_ACTIVE &&
     c.domainState 4 == 0 && !c.bup.restarting.contains 4
   else true)

/-- The most urgent suspended operation of a unit. -/
def Chip.bestSuspended (c : Chip) (u : Nat) : Option OpRun :=
  bestBy (fun a b => decide (a.cls < b.cls)) (c.dsp.suspended.filter (fun o => o.unit == u))

/-- The most urgent ready descriptor that may start on a unit. -/
def Chip.bestReady (c : Chip) (u : Nat) : Option Candidate :=
  bestBy Candidate.before ((c.readyFor (unitServes u)).filter (fun k => c.placedOn k u))

/-- The most urgent ready descriptor for the engine of a unit whose operation ends a tile (R84). An ATU operation is
compared as if it ran on units 0 and 1 (R197); work that another free unit of the engine would take is no rival. -/
def Chip.bestRival (c : Chip) (u : Nat) : Option Candidate :=
  let ready := c.readyFor (fun e => unitServes u e || (u == 1 && e == 0) || (u == 0 && e == 1 && c.on R.ATU_CTRL_ENABLE))
  bestBy Candidate.before (ready.filter (fun k =>
    if Desc.engine k.raw = 2 then
      (if c.continues k && (c.chainCluster k.weave k.index k.cls).isSome then
         c.chainCluster k.weave k.index k.cls == some (u - 2) && !c.atuCluster (u - 2)
       else (c.placeTwill k.weave k.index k.cls false).isNone && c.clusterOpen (u - 2) k.cls)
    else if Desc.engine k.raw = 6 then c.canvasIn (u - 23) && !((c.op? (47 - u)).isNone && c.canvasIn (24 - u))
    else if Desc.engine k.raw = 9 then (c.op? (51 - u)).isSome
    else true))

/-! ## Suspension and its save area (R84 to R87) -/

/-- The Muslin offset of the save slot of a unit and class (R85). [DESIGN CHOICE: log 33] -/
def Chip.saveSlot (c : Chip) (u cls : Nat) : Nat :=
  devOffset (c.rd R.DSP_CTX_BASE_LO_ADDR_LO + (c.rd R.DSP_CTX_BASE_HI_ADDR_HI <<< 32)) + (u * 8 + cls) * 8192

/-- A save or restore failed: DSP_STATUS.CTX_FAULT (R86, R656). -/
def Chip.ctxFault (c : Chip) : Chip := c.latchFault R.DSP_STATUS_CTX_FAULT

/-- The context is written to its slot. The slot's byte layout is not given, so its bytes are free values.
[DESIGN CHOICE: log 33] -/
def Chip.saveContext (c : Chip) (u cls : Nat) : Chip × Bool :=
  let f := c.freshId
  let bytes := leBytes 8192 (Config.freeNat f.1)
  let r := f.2.devWrite (c.saveSlot u cls) bytes
  (r.1, r.2 == 0)

/-- The context is read back from its slot. [DESIGN CHOICE: log 33] -/
def Chip.restoreContext (c : Chip) (u cls : Nat) : Chip × Bool :=
  let r := c.devRead (c.saveSlot u cls) 8192
  (r.1, r.2.1 == 0)

/-- The operation of a unit is suspended at the end of a tile (R84, R85). A failed save ends it with DSP_CTX_FAULT. -/
def Chip.suspend (c : Chip) (u : Nat) (o : OpRun) : Chip :=
  let s := c.saveContext u o.cls
  if s.2 then
    let o := { o with preempts := o.preempts + 1, tileReady := false }
    let c := { s.1 with dsp := { s.1.dsp with suspended := o :: s.1.dsp.suspended } }
    (c.count R.DSP_PREEMPT_STAT_PREEMPTS).freeUnit u
  else
    s.1.ctxFault.setOp u { o with status := worse o.status St.DSP_CTX_FAULT, finished := true, tileReady := false }

/-! ## Running operations -/

/-- A fresh operation for a descriptor (R53, R60: generators and flags start clear). -/
def OpRun.start (k : Candidate) (u now : Nat) : OpRun :=
  { weave := k.weave, index := k.index, raw := k.raw, cls := k.cls, unit := u, tiles := 0, preempts := 0, activeNs := 0,
    startNs := now, flags := 0, status := St.OK, info0 := 0, info1 := 0, gens := [], ctx := [], begun := false,
    tileReady := false, finished := false, lastTile := false, mirror := false }

/-- A status met by an operation; the one of the higher class prevails (R655). -/
def OpRun.meets (o : OpRun) (st : Nat) : OpRun := { o with status := worse o.status st }

/-- The operation is refused, or ends now, with a status: it only awaits its completion. [DESIGN CHOICE: log 28] -/
def OpRun.ends (o : OpRun) (st : Nat) : OpRun := { o.meets st with begun := true, finished := true, tileReady := false }

/-- Stochastic generator `j` of an operation (R53). [DEDUCED: log 22] -/
def OpRun.gen (o : OpRun) (j : Nat) : BitVec 32 := Table.getD o.gens j (genSeed (Desc.seed o.raw) j)

/-- Generator `j` advanced (R54). [DEDUCED: log 22] -/
def OpRun.advanceGen (o : OpRun) (j : Nat) : OpRun := { o with gens := Table.put o.gens j (xorshift (o.gen j)) }

/-- Flags collected by an operation. -/
def OpRun.flag (o : OpRun) (f : Flags) : OpRun := { o with flags := o.flags ||| f }

/-- One conversion of an operation from format `src` into format `code`, with the radixes of Q32 formats: rounding RND and SAT of
the descriptor, generator `j` used and advanced under stochastic rounding unless a rule fixes the rounding, flags collected (R51,
R54, R58, R59, R60). A NaN that the operation computed is no input value: it sets INVALID where its format has no NaN.
[DEDUCED: log 17] -/
def OpRun.conv (o : OpRun) (src code j : Nat) (x : Num) (sat : Bool := Desc.sat o.raw) (rs rd : Nat := 0) : OpRun × Nat :=
  let o' := if Desc.rnd o.raw = 2 ∧ !fixedConv code rd src rs x then o.advanceGen j else o
  let v := convertFrom src rs code rd (Desc.rnd o.raw) sat (o'.gen j) x
  (o'.flag (v.2 &&& ~~~ fNanIn), v.1)

/-- The conversion of an input value: a NaN sets NAN_IN (R57, R60). [DEDUCED: log 182] -/
def OpRun.convInput (o : OpRun) (src code j : Nat) (x : Num) : OpRun × Nat :=
  let v := o.conv src code j x
  (if x.isNan then v.1.flag fNanIn else v.1, v.2)

/-- The status an operation reports at its end: FMT_EXCEPTION for flags (R61). -/
def OpRun.finalStatus (o : OpRun) : Nat := if o.flags = 0 then o.status else worse o.status St.FMT_EXCEPTION

/-- Whether a running operation of a unit is one of an engine code and opcode and waits for its next tile. -/
def OpRun.awaits (o : OpRun) (engine opcode : Nat) : Bool :=
  !o.finished && !o.tileReady && Desc.engine o.raw == engine && Desc.opcode o.raw == opcode

/-- A running operation of a unit takes its next tile, where it is of the engine and opcode and waits for one. -/
def Chip.onOp (c : Chip) (u engine opcode : Nat) (f : Chip → OpRun → Chip) : Chip :=
  match c.op? u with
  | some o => if o.awaits engine opcode then f c o else c
  | none => c

/-- The chip before it is seen what a command's accesses reach: the DRC, and Muslin groups that sleep. -/
def Chip.untouched (c : Chip) : Chip :=
  { c with drc := { c.drc with touched := false }, msl := { c.msl with asked := [] } }

/-- Whether a Muslin group keeps requests at its crossing. -/
def Chip.groupsHold (c : Chip) : Bool := (List.range 8).any c.groupHolds

/-- Work whose accesses must wait is not done, and its command waits with it: under QUIESCE the DMA ports accept no new DRAM request
(R313, R318), and a group that sleeps, or channels in self-refresh, hold what reaches them, and start to wake (R26, R113, R317).
[DESIGN CHOICE: log 42] -/
def Chip.unlessHeld (c : Chip) (f : Chip → Chip) : Chip :=
  let c' := f c.untouched
  if c.on R.DRC_CTRL_QUIESCE && c'.drc.touched then c
  else if c.groupsHold && !c'.msl.asked.isEmpty then c'.msl.asked.foldl (fun c g => c.wakeGroup g) c
  else if c.drc.selfRefresh && c'.drc.touched then c.askDram
  else c'

/-- Damask issues nothing: its clock and supply settle, or its credits are 0 (R29, R560). -/
def Chip.damaskHeld (c : Chip) : Bool := c.pwr.settling.isSome || c.rd R.PWR_CREDITS_CREDITS == 0

/-- What a tile's work may change of an operation: its results so far. It has begun; its tile is ready for TILE_END unless the
work ended the operation. -/
def OpRun.worked (o r : OpRun) : OpRun :=
  { o with flags := r.flags, status := r.status, info0 := r.info0, info1 := r.info1, gens := r.gens, ctx := r.ctx,
           lastTile := r.lastTile, begun := true, finished := r.finished, tileReady := !r.finished }

/-- What a tile's work may change of the chip: registers, memories, queues and engines, never the clock, the dictionary, the
dispatch tables or the parts of domain 0. -/
def Chip.worked (c d : Chip) : Chip :=
  { c with regs := d.regs, muslin := d.muslin, host := d.host, qmg := d.qmg, msl := d.msl, drc := d.drc, dmk := d.dmk,
           atu := d.atu, twl := d.twl, gze := d.gze, twd := d.twd, tul := d.tul, cnv := d.cnv, moved := d.moved,
           sent := d.sent, fresh := d.fresh }

/-- A tile's work on a unit: its parameters are checked when the operation starts; a refusal ends it. [DEDUCED: log 46] -/
def Chip.runTile (c : Chip) (u engine opcode : Nat) (check : Chip → OpRun → Nat) (tile : Chip → OpRun → Chip × OpRun) :
    Chip :=
  if decide (u ≤ 1) && c.damaskHeld then c else
  c.onOp u engine opcode (fun c o => c.unlessHeld (fun c =>
    let st := if o.begun then St.OK else check c o
    if st != St.OK then c.setOp u (o.ends st)
    else
      let r := tile c { o with begun := true, tileReady := true }
      (c.worked r.1).setOp u (o.worked r.2)))

/-- The tile limit of R82 and R83: 60,000 Damask cycles unthrottled for unit 0, 40 us for every other engine. -/
def Chip.tileTooLong (c : Chip) (u ns : Nat) : Bool :=
  if u = 0 then decide (60000 * 1000 * 64 < ns * c.damaskMHz * c.rd R.PWR_CREDITS_CREDITS)
  else decide (40000 < ns)

/-- A tile that took `ns` is timed: one beyond the limit is counted, and the operation reports DSP_TILE_LONG (R83). -/
def Chip.timeTile (c : Chip) (u ns : Nat) (o : OpRun) : Chip × OpRun :=
  if c.tileTooLong u ns then (c.count R.DSP_TILE_LONG_CNT_COUNT, o.meets St.DSP_TILE_LONG) else (c, o)

/-- The completion record of an operation on a unit, with a status (R95). -/
def OpRun.record (o : OpRun) (u st : Nat) : RecInfo :=
  ⟨st, o.flags, u, o.cls, o.activeNs / 1000, o.tiles, o.preempts, o.info0, o.info1⟩

/-- An operation leaves its unit and completes (R95 to R97), with a status that may be HELD (R74, R230). -/
def Chip.completeOp (c : Chip) (u : Nat) (o : OpRun) : Chip := c.dispatched (
  let c := (c.freeUnit u).countOp u o.finalStatus
  let c := c.finishDesc o.weave o.index (o.record u o.finalStatus)
  c.settle)

/-- The unstarted members, as far as their descriptors are read, of the open chain of a weave whose next index is `n`. -/
def Weave.chainLeft (w : Weave) (n : Nat) : List Nat :=
  (List.range w.descs.length).filter (fun i => decide (n ≤ i) && w.inChain n i && !w.hasStarted i && !w.isDone i)

/-- Each unstarted member of a unit's open chains completes with a status (R265). [DEDUCED: log 169] -/
def Chip.failChains (c : Chip) (u st : Nat) : Chip :=
  let mine := c.dsp.chains.filter (fun p => decide (2 ≤ u) && p.1 / 8 == u - 2)
  mine.foldl (fun (c : Chip) p =>
    match c.weave? p.2.1 with
    | some w => (w.chainLeft p.2.2).foldl (fun (c : Chip) i => c.finishDesc w.id i (.plain st w.cls)) c
    | none => c) c

/-- Every operation of a unit, running and suspended, completes with a status, and with it each unstarted member of the
unit's open chains whose descriptor is read (R23, R265). [DEDUCED: log 38] -/
def Chip.failUnit (c : Chip) (u st : Nat) : Chip := c.dispatched (
  let c := c.failChains u st
  let c := { c with dsp := { c.dsp with chains := c.dsp.chains.filter (fun p => !(decide (2 ≤ u) && p.1 / 8 == u - 2)) } }
  let c := match c.op? u with
    | some o => if o.mirror then c.endMirror u o st else c.completeOp u { o with status := worse o.status st }
    | none => c
  let mine := c.dsp.suspended.filter (fun o => o.unit == u)
  let c := { c with dsp := { c.dsp with suspended := c.dsp.suspended.filter (fun o => o.unit != u) } }
  let c := mine.foldl (fun (c : Chip) o =>
    let v := worse o.finalStatus st
    (c.countOp u v).finishDesc o.weave o.index (o.record u v)) c
  c.settle)

/-- A chain is opened or moved on by a Twill operation that starts (R254); the area of a chain that was not open is undefined. -/
def Chip.chainStart (c : Chip) (u : Nat) (o : OpRun) (continues : Bool) : Chip :=
  let key := chainKey (u - 2) o.cls
  let whole := Table.get? c.dsp.chains key == some (o.weave, o.index)
  let next := Desc.chainNext o.raw
  let c := if next then { c with dsp := { c.dsp with chains := Table.put c.dsp.chains key (o.weave, o.index + 1) } } else c
  if (next || continues) && !whole then
    let f := c.freshId
    { f.2 with twl := { f.2.twl with stores := Table.put f.2.twl.stores key ⟨f.1, []⟩ } }
  else c

end Sys2Proof.Machine
end

