-- ==== Sys2Proof/Machine/Damask.lean ====
section
/-!
DEFINITION. The Damask matrix array (chapter 05): MATMUL, pins, slot images, the column test and the spare swap.
-/
namespace Sys2Proof.Machine

/-! ## Formats (R45, R137, R138, R140) -/

/-- Whether a format may be block-scaled (R45). -/
def mxAllowed (code : Nat) : Bool := [0x1, 0x5, 0x6, 0x7, 0x8, 0x9].contains code

/-- Whether a format byte names a format Damask takes as operand A or B (R137). -/
def damaskOperand (b : Nat) : Bool :=
  [0x0, 0x1, 0x2, 0x4, 0x5, 0x6, 0x7, 0x8, 0x9, 0xA, 0xB, 0xC].contains (fmtCode b) && (!fmtMx b || mxAllowed (fmtCode b))

/-- Whether a format byte names a format Damask writes (R137). -/
def damaskResult (b : Nat) : Bool := decide (fmtCode b ≤ 0xC) && (!fmtMx b || mxAllowed (fmtCode b))

/-- Whether an operand's elements are integers in Damask: MX INT8 counts as a float format (R137). -/
def damaskInt (b : Nat) : Bool := decide (fmtCode b ≤ 4) && !fmtMx b

/-- Whether FMT_C fits the operands (R140). -/
def damaskAddend (ints : Bool) (b : Nat) : Bool :=
  if ints then decide (fmtCode b ≤ 4) && !fmtMx b
  else decide (5 ≤ fmtCode b) && decide (fmtCode b ≤ 0xC) && !fmtMx b

/-- The value of an element of a format byte, before the power of two of its scale byte: MX INT8 carries 2^-6 (R45), a scale of 0xFF is NaN
(R47). -/
def scaledElem (b scale x : Nat) : Num :=
  if fmtMx b then
    if scale = 0xFF then .nan
    else (decodeElem (fmtCode b) 0 x).shift (if fmtCode b = 1 then -6 else 0)
  else decodeElem (fmtCode b) 0 x

/-! ## Reference arithmetic (R62, R63) -/

/-- One float accumulation step: the exact product or block sum `p` joins `acc` with one rounding to FP32. -/
def accStep (s : Num × Flags) (p : Num) (nanIn : Bool) : Num × Flags :=
  let sum := s.1.add p
  (r32 sum, s.2 ||| accFlags s.1 p sum ||| (if nanIn then fNanIn else 0))

/-- The flags of an exact product: INVALID for `0 * inf`. -/
def mulFlags (a b : Num) : Flags := if !a.isNan && !b.isNan && (a.mul b).isNan then fInvalid else 0

/-- A float reduction without block scaling, in increasing k. -/
def dotFloat (start : Num) (n : Nat) (a b : Nat → Num) : Num × Flags :=
  (List.range n).foldl (fun s k =>
    let x := a k; let y := b k
    let t := accStep s (x.mul y) (x.isNan || y.isNan)
    (t.1, t.2 ||| mulFlags x y)) (start, 0)

/-- A block-scaled reduction: exact sums of 32 products, one rounding per block (R62). `sa` and `sb` are scale bytes. -/
def dotScaled (start : Num) (n : Nat) (a b : Nat → Num) (sa sb : Nat → Nat) : Num × Flags :=
  (List.range (ceilDiv n 32)).foldl (fun s blk =>
    let ks := (List.range (min 32 (n - 32 * blk))).map (· + 32 * blk)
    let t := ks.foldl (fun (t : Num × Flags) k =>
      let x := a k; let y := b k
      let p := x.mul y
      let sum := t.1.add p
      (sum, t.2 ||| mulFlags x y ||| (if x.isNan || y.isNan then fNanIn else 0) |||
        (if !t.1.isNan && !p.isNan && sum.isNan then fInvalid else 0))) (Num.zero, 0)
    let bad := sa blk == 0xFF || sb blk == 0xFF
    let p := if bad then .nan else t.1.shift ((sa blk : Int) - 127 + ((sb blk : Int) - 127))
    let u := accStep s p false
    (u.1, u.2 ||| t.2 ||| (if bad then fScaleNan ||| fNanIn else 0))) (start, 0)

/-- An integer reduction, saturating at INT32 in increasing k. -/
def dotInt (start : Int) (n : Nat) (a b : Nat → Int) : Int × Flags :=
  (List.range n).foldl (fun s k =>
    let t := satI32 (s.1 + a k * b k)
    (t.1, s.2 ||| t.2)) (start, 0)

/-- An accumulator: INT32 for integer operands, FP32 otherwise (R62). -/
inductive Acc where
  | int (v : Int)
  | flt (v : Num)
  deriving DecidableEq, Repr

/-- An accumulator's value, and its format code. -/
def Acc.num : Acc → Num
  | .int v => .ofInt v
  | .flt v => v
def Acc.code : Acc → Nat
  | .int _ => 0x3
  | .flt _ => 0xC

/-- The 32-bit pattern of an accumulator slot. -/
def Acc.pattern : Acc → Nat
  | .int v => ofSigned 32 v
  | .flt v => f32bits v

/-- Operand C joins an accumulator before the output conversion (R140). -/
def Acc.plus (a : Acc) (c : Num) : Acc × Flags :=
  match a with
  | .int v => let t := satI32 (v + c.truncInt); (.int t.1, t.2)
  | .flt v => let t := accStep (v, 0) c c.isNan; (.flt t.1, t.2)

/-! ## Output conversion and block quantisation (R48, R62) -/

/-- The exponent of the largest normal of an MX element format (R48). -/
def mxEmax (code : Nat) : Int :=
  match code with
  | 0x8 => 8 | 0x9 => 15 | 0x6 => 2 | 0x5 => 2 | 0x7 => 4 | _ => 0

/-- Values converted one by one, with a generator number for each. -/
def OpRun.convAll (o : OpRun) (code : Nat) (xs : List (Nat × Nat × Num)) : OpRun × List Nat :=
  xs.foldl (fun s x => let r := s.1.conv x.2.1 code x.1 x.2.2; (r.1, s.2 ++ [r.2])) (o, [])

/-- One 32-element run quantised (R48): its scale byte and elements. Each value carries its generator number. -/
def OpRun.quantise (o : OpRun) (code : Nat) (xs : List (Nat × Nat × Num)) : OpRun × Nat × List Nat :=
  let advance := fun (o : OpRun) => if Desc.rnd o.raw = 2 then xs.foldl (fun o x => o.advanceGen x.1) o else o
  if xs.any (fun x => !x.2.2.isFinite) then ((advance o).flag fScaleNan, 0xFF, xs.map (fun _ => 0))
  else
    let amax := xs.foldl (fun a x => Num.max a x.2.2.abs) Num.zero
    if amax.isZero then (advance o, 0, xs.map (fun _ => 0))
    else
      let e := max (-127) (min 127 (amax.expOf - mxEmax code))
      let lift : Int := if code = 1 then 6 else 0
      let r := xs.foldl (fun (s : OpRun × List Nat) x =>
        let v := s.1.conv 0x10 code x.1 (x.2.2.shift (lift - e)) true
        (v.1, s.2 ++ [v.2])) (o, [])
      (r.1, (e + 127).toNat, r.2)

/-- A list cut into runs of 32. -/
def runs32 {α : Type} : Nat → List α → List (List α)
  | 0, _ => []
  | n + 1, l => if l.isEmpty then [] else l.take 32 :: runs32 n (l.drop 32)

/-- One output row segment in its format: element bytes, and scale bytes where the result is block-scaled. -/
def OpRun.emitRow (o : OpRun) (fmt : Nat) (xs : List (Nat × Nat × Num)) : OpRun × List Byte × List Byte :=
  if fmtMx fmt then
    let r := (runs32 xs.length xs).foldl (fun (s : OpRun × List Nat × List Nat) run =>
      let q := s.1.quantise (fmtCode fmt) run
      (q.1, s.2.1 ++ q.2.2, s.2.2 ++ [q.2.1])) (o, [], [])
    (r.1, packElems (fmtWidth (fmtCode fmt)) r.2.1, r.2.2.map (BitVec.ofNat 8))
  else
    let r := o.convAll (fmtCode fmt) xs
    (r.1, packElems (fmtWidth (fmtCode fmt)) r.2, [])

/-! ## MATMUL (R154 to R161) -/

/-- The parameters of a MATMUL (R160), in bytes and counts. -/
structure MatPar where
  a : Nat
  b : Nat
  cc : Nat
  out : Nat
  sa : Nat
  sb : Nat
  m : Nat
  k : Nat
  n : Nat
  lda : Nat
  ldb : Nat
  ldo : Nat
  transA : Bool
  transB : Bool
  ws : Bool
  shape : Nat
  bpt : Nat
  bcast : Bool
  deriving DecidableEq, Repr

/-- The parameter area of a MATMUL (R160). -/
def matPar (d : Nat) : MatPar :=
  { a := 64 * bits d 256 22, b := 64 * bits d 278 22, cc := 64 * bits d 300 22, out := 64 * bits d 322 22,
    sa := 64 * bits d 344 22, sb := 64 * bits d 366 22, m := bits d 388 16, k := bits d 404 16, n := bits d 420 16,
    lda := 64 * bits d 436 16, ldb := 64 * bits d 452 16, ldo := 64 * bits d 468 16, transA := d.testBit 484,
    transB := d.testBit 485, ws := d.testBit 486, shape := bits d 487 2, bpt := bits d 489 8, bcast := d.testBit 497 }

/-- Rows and columns of a logical shape (R141). -/
def shapeRows (s : Nat) : Nat := match s with | 0 => 384 | 1 => 768 | _ => 192
def shapeCols (s : Nat) : Nat := match s with | 0 => 256 | 1 => 128 | _ => 512

/-- The cell that carries row `i`, column `col` of a logical shape: physical row and base column (R141). -/
def shapeCell (shape i col : Nat) : Nat × Nat :=
  match shape with
  | 0 => (i, col)
  | 1 => if i < 384 then (i, col) else (767 - i, 255 - col)
  | _ => if col < 256 then (i, col) else (i + 192, col - 256)

/-- Rate class Q: both operands are 4-bit (R138). -/
def rateQ (d : Nat) : Bool := fmtWidth (fmtCode (Desc.fmtA d)) == 4 && fmtWidth (fmtCode (Desc.fmtB d)) == 4

/-- Rate class S: an operand is FP32 (R138). -/
def rateS (d : Nat) : Bool := fmtCode (Desc.fmtA d) == 0xC || fmtCode (Desc.fmtB d) == 0xC

/-- Rows of an output block: one eighth in rate class S (R139). -/
def blockRows (d : Nat) : Nat := if rateS d then shapeRows (matPar d).shape / 8 else shapeRows (matPar d).shape

/-- The cell that accumulates row `i`, column `col` of an output block: in rate class S the first of the eight cells that form its
multiplier (R139, R145, R147). -/
def accCell (d i col : Nat) : Nat × Nat :=
  let s := (matPar d).shape
  if rateS d then let q := shapeCell s (8 * i) col; (q.1 / 8 * 8, q.2) else shapeCell s i col

/-- Rows of B in a weight block of weight-stationary flow (R141). -/
def weightDepth (d : Nat) : Nat := (if rateQ d then 2 else 1) * shapeRows (matPar d).shape

/-- Block rows, and the number of blocks (R145). -/
def blockRowCount (d : Nat) : Nat := ceilDiv (matPar d).m (blockRows d)
def blockCount (d : Nat) : Nat := blockRowCount d * ceilDiv (matPar d).n (shapeCols (matPar d).shape)

/-- Element widths of A, B, C and OUT. -/
def wA (d : Nat) : Nat := fmtWidth (fmtCode (Desc.fmtA d))
def wB (d : Nat) : Nat := fmtWidth (fmtCode (Desc.fmtB d))
def wC (d : Nat) : Nat := fmtWidth (fmtCode (Desc.fmtC d))
def wO (d : Nat) : Nat := fmtWidth (fmtCode (Desc.fmtOut d))

/-- The stored ranges of a MATMUL: A, B, C, OUT, SA, SB, output scales (R156, R157). -/
def rangeA (d : Nat) : Strided :=
  let p := matPar d
  if p.transA then ⟨p.a, p.lda, p.k, packedBytes (wA d) p.m⟩ else ⟨p.a, p.lda, p.m, packedBytes (wA d) p.k⟩
def rangeB (d : Nat) : Strided :=
  let p := matPar d
  if p.transB then ⟨p.b, p.ldb, p.n, packedBytes (wB d) p.k⟩ else ⟨p.b, p.ldb, p.k, packedBytes (wB d) p.n⟩
def rangeC (d : Nat) : Strided :=
  let p := matPar d
  if Desc.fmtC d = 0 then ⟨p.cc, 0, 0, 0⟩ else ⟨p.cc, p.ldo, if p.bcast then 1 else p.m, packedBytes (wC d) p.n⟩
def rangeOut (d : Nat) : Strided := let p := matPar d; ⟨p.out, p.ldo, p.m, packedBytes (wO d) p.n⟩
def rangeSA (d : Nat) : Strided :=
  let p := matPar d
  if fmtMx (Desc.fmtA d) then ⟨p.sa, ceilDiv p.k 32, p.m, ceilDiv p.k 32⟩ else ⟨p.sa, 0, 0, 0⟩
def rangeSB (d : Nat) : Strided :=
  let p := matPar d
  if fmtMx (Desc.fmtB d) then ⟨p.sb, ceilDiv p.k 32, p.n, ceilDiv p.k 32⟩ else ⟨p.sb, 0, 0, 0⟩
def rangeSO (d : Nat) : Strided :=
  let p := matPar d
  if fmtMx (Desc.fmtOut d) then ⟨p.cc, ceilDiv p.n 32, p.m, ceilDiv p.n 32⟩ else ⟨p.cc, 0, 0, 0⟩

/-- Whether a stride is wide enough: one stored row may have any (R161). -/
def Strided.strideOk (s : Strided) : Bool := decide (s.rows ≤ 1) || decide (s.len ≤ s.stride)

/-- The format check of a MATMUL (R36, R49, R137, R140, R157). -/
def matFormatsOk (d : Nat) : Bool :=
  let a := Desc.fmtA d; let b := Desc.fmtB d; let cf := Desc.fmtC d; let o := Desc.fmtOut d
  damaskOperand a && damaskOperand b && damaskResult o && damaskInt a == damaskInt b && Desc.rnd d != 3 &&
  (cf == 0 || damaskAddend (damaskInt a) cf) && !(fmtMx o && cf != 0)

/-- The parameter check of a MATMUL (R147, R154, R161). -/
def matParamsOk (d : Nat) : Bool :=
  let p := matPar d
  p.m != 0 && p.k != 0 && p.n != 0 && p.bpt != 0 && p.shape != 3 && !(p.ws && rateS d) &&
  Desc.tileCount d == ceilDiv (blockCount d) p.bpt &&
  (rangeA d).strideOk && (rangeB d).strideOk && (rangeC d).strideOk && (rangeOut d).strideOk &&
  (rangeA d).fits && (rangeB d).fits && (rangeC d).fits && (rangeOut d).fits && (rangeSA d).fits && (rangeSB d).fits &&
  (rangeSO d).fits

/-- The overlap check of a MATMUL (R158): C may lie on OUT where both have one layout. [DESIGN CHOICE: log 181] -/
def matOverlap (d : Nat) : Bool :=
  let p := matPar d
  let same := p.cc == p.out && Desc.fmtC d == Desc.fmtOut d && !fmtMx (Desc.fmtC d) && !p.bcast
  let others := [rangeA d, rangeB d, rangeSA d, rangeSB d]
  others.any (fun r => (rangeOut d).overlaps r || (rangeSO d).overlaps r) ||
  (!same && (rangeOut d).overlaps (rangeC d)) || (rangeOut d).overlaps (rangeSO d)

/-- The checks of a MATMUL in their order (R161). [DEDUCED: log 46] -/
def matCheck (d : Nat) : Nat :=
  if !matFormatsOk d then St.FMT_UNSUPPORTED
  else if !matParamsOk d then St.DMK_BAD_PARAM
  else if matOverlap d then St.DMK_OVERLAP
  else St.OK

/-- Element (i, k) of A and (k, j) of B as stored (R156). -/
def Chip.matA (c : Chip) (d i k : Nat) : Nat :=
  let p := matPar d
  if p.transA then c.elem ((rangeA d).row k) (wA d) i else c.elem ((rangeA d).row i) (wA d) k
def Chip.matB (c : Chip) (d k j : Nat) : Nat :=
  let p := matPar d
  if p.transB then c.elem ((rangeB d).row j) (wB d) k else c.elem ((rangeB d).row k) (wB d) j

/-- Scale bytes of row i of A and column j of B for block `blk`; 127 for an operand without MX (R62, R157). -/
def Chip.scaleA (c : Chip) (d i blk : Nat) : Nat :=
  if fmtMx (Desc.fmtA d) then c.peekNat ((rangeSA d).row i + blk) 1 else 127
def Chip.scaleB (c : Chip) (d j blk : Nat) : Nat :=
  if fmtMx (Desc.fmtB d) then c.peekNat ((rangeSB d).row j + blk) 1 else 127

/-- The reduction of output (i, j) from a starting accumulator (R62). -/
def Chip.matAcc (c : Chip) (d i j : Nat) : Acc × Flags :=
  let p := matPar d
  let fa := Desc.fmtA d; let fb := Desc.fmtB d
  if damaskInt fa then
    let t := dotInt 0 p.k (fun k => (decodeElem (fmtCode fa) 0 (c.matA d i k)).truncInt)
      (fun k => (decodeElem (fmtCode fb) 0 (c.matB d k j)).truncInt)
    (.int t.1, t.2)
  else
    let a := fun k => scaledElem fa (c.scaleA d i (k / 32)) (c.matA d i k)
    let b := fun k => scaledElem fb (c.scaleB d j (k / 32)) (c.matB d k j)
    if fmtMx fa || fmtMx fb then
      let t := dotScaled .zero p.k a b (c.scaleA d i) (c.scaleB d j)
      (.flt t.1, t.2)
    else
      let t := dotFloat .zero p.k a b
      (.flt t.1, t.2)

/-- Output (i, j) before conversion, with operand C (R140). -/
def Chip.matOut (c : Chip) (d i j : Nat) : Acc × Flags :=
  let p := matPar d
  let t := c.matAcc d i j
  if Desc.fmtC d = 0 then t
  else
    let x := decodeElem (fmtCode (Desc.fmtC d)) 0 (c.elem ((rangeC d).row (if p.bcast then 0 else i)) (wC d) j)
    let u := t.1.plus x
    (u.1, t.2 ||| u.2)

/-- The rows and columns of block `b` (R145): first row, rows, first column, columns. -/
def blockSpan (d b : Nat) : Nat × Nat × Nat × Nat :=
  let p := matPar d
  let nr := blockRows d; let nc := shapeCols p.shape; let mb := blockRowCount d
  let r0 := (b % mb) * nr; let c0 := (b / mb) * nc
  (r0, min nr (p.m - r0), c0, min nc (p.n - c0))

/-- The Muslin ranges a block reads. -/
def blockReads (d b : Nat) : List (Nat × Nat) :=
  let p := matPar d
  let s := blockSpan d b
  let rows := (List.range s.2.1).map (· + s.1)
  let cols := (List.range s.2.2.2).map (· + s.2.2.1)
  (if p.transA then (List.range p.k).map (fun k => elemSpan ((rangeA d).row k) (wA d) s.1 s.2.1)
   else rows.map (fun i => elemSpan ((rangeA d).row i) (wA d) 0 p.k)) ++
  (if p.transB then cols.map (fun j => elemSpan ((rangeB d).row j) (wB d) 0 p.k)
   else (List.range p.k).map (fun k => elemSpan ((rangeB d).row k) (wB d) s.2.2.1 s.2.2.2)) ++
  (if fmtMx (Desc.fmtA d) then rows.map (fun i => ((rangeSA d).row i, ceilDiv p.k 32)) else []) ++
  (if fmtMx (Desc.fmtB d) then cols.map (fun j => ((rangeSB d).row j, ceilDiv p.k 32)) else []) ++
  (if Desc.fmtC d = 0 then []
   else if p.bcast then [elemSpan (rangeC d).off (wC d) s.2.2.1 s.2.2.2]
   else rows.map (fun i => elemSpan ((rangeC d).row i) (wC d) s.2.2.1 s.2.2.2))

/-- The Muslin ranges a block writes. -/
def blockWrites (d b : Nat) : List (Nat × Nat) :=
  let s := blockSpan d b
  ((List.range s.2.1).map (· + s.1)).map (fun i => elemSpan ((rangeOut d).row i) (wO d) s.2.2.1 s.2.2.2)

/-- One output row of a block computed, converted and written. -/
def Chip.matRow (c : Chip) (d b i : Nat) (o : OpRun) : Chip × OpRun × Nat :=
  let s := blockSpan d b
  let nc := shapeCols (matPar d).shape
  let cols := (List.range s.2.2.2).map (· + s.2.2.1)
  let vals := cols.map (fun j => (j, c.matOut d i j))
  let o := vals.foldl (fun o v => o.flag v.2.2) o
  let e := o.emitRow (Desc.fmtOut d) (vals.map (fun v => (v.1 % nc, v.2.1.code, v.2.1.num)))
  let w := c.devWrite ((rangeOut d).row i + wO d * s.2.2.1 / 8) e.2.1
  let w2 := if w.2 = 0 ∧ fmtMx (Desc.fmtOut d) then w.1.devWrite ((rangeSO d).row i + s.2.2.1 / 32) e.2.2 else w
  (w2.1, e.1, w2.2)

/-! ## The cells of a running operation (R139, R141, R145, R147 to R149) -/

/-- The key of a cell's slot or weight register. -/
def slotKey (row col slot : Nat) : Nat := (row * 256 + col) * 2 + slot

/-- Slot 2 or 3, as `b` is even or odd, holds the accumulators of block `b`; it started at zero (R145, R149). -/
def Chip.holdBlock (c : Chip) (d b : Nat) : Chip :=
  let s := blockSpan d b
  let cells := (List.range s.2.1).map (fun i => (List.range s.2.2.2).map (fun j =>
    let q := accCell d i j
    (slotKey q.1 q.2 (b % 2), (c.matAcc d (s.1 + i) (s.2.2.1 + j)).1.pattern)))
  let t := c.dmk.work.filter (fun p => p.1 % 2 != b % 2)
  { c with dmk := { c.dmk with work := cells.flatten.foldl (fun t p => Table.put t p.1 p.2) t } }

/-- Weight block `j` of the block column that starts at column `c0` is loaded into the idle registers, which stream from then on; in
rate class Q two rows of B share a physical row (R147, R148). -/
def Chip.loadWeights (c : Chip) (d c0 cols j : Nat) : Chip :=
  let p := matPar d
  let per := if rateQ d then 2 else 1
  let k0 := j * weightDepth d
  let r := 1 - c.dmk.streams
  let cells := (List.range (min (weightDepth d) (p.k - k0))).map (fun k => (List.range cols).map (fun col =>
    let q := shapeCell p.shape (k / per) col
    (slotKey q.1 q.2 r, c.matB d (k0 + k) (c0 + col) <<< (4 * (k % per)))))
  let t := c.dmk.weights.filter (fun p => p.1 % 2 != r)
  let t := cells.flatten.foldl (fun t q => Table.put t q.1 (Table.getD t q.1 0 + q.2)) t
  { c with dmk := { c.dmk with streams := r, weights := t } }

/-- The weight blocks of block `b` in weight-stationary flow, loaded one after the other; blocks of one column share a weight block that
holds all of K, which the first of them in a tile loads (R147, R148, R155). -/
def Chip.streamWeights (c : Chip) (d b : Nat) (firstOfTile : Bool) : Chip :=
  let p := matPar d
  let s := blockSpan d b
  let shared := decide (p.k ≤ weightDepth d) && s.1 != 0 && !firstOfTile
  if !p.ws || shared then c
  else (List.range (ceilDiv p.k (weightDepth d))).foldl (fun (c : Chip) j => c.loadWeights d s.2.2.1 s.2.2.2 j) c

/-- INFO0 of a Damask operation and DMK_STALL_CNT: stalled cycles (R143, R165). -/
def Chip.addStalls (c : Chip) (o : OpRun) (stalls : Nat) : Chip × OpRun :=
  (c.count R.DMK_STALL_CNT_COUNT 0 stalls, { o with info0 := min (o.info0 + stalls) (2 ^ 32 - 1) })

/-- The shape and dataflow of the last array operation (R142, R175). -/
def Chip.setShape (c : Chip) (shape : Nat) (ws : Bool) : Chip :=
  (c.wr R.DMK_STATUS_SHAPE shape).wr R.DMK_STATUS_DATAFLOW (b2n ws)

/-- A parity error in slot 2 or slot 3 (R153): the operation ends, SLOT_PARITY is set. [DESIGN CHOICE: log 43] -/
def Chip.slotParity (c : Chip) (o : OpRun) : Chip × OpRun :=
  (c.latchFault R.DMK_STATUS_SLOT_PARITY, o.ends St.DMK_SLOT_PARITY)

/-- One output block: its weights load, it accumulates, and the drain writes it; an operand that cannot be read or a result that cannot
be written ends the operation, and the tile's outputs are not valid (R108, R134). -/
def Chip.matBlock (c : Chip) (o : OpRun) (b : Nat) (firstOfTile : Bool) : Chip × OpRun :=
  if o.finished then (c, o)
  else
    let d := o.raw
    let r := c.touchReads (blockReads d b)
    if r.2 != 0 then (r.1.invalidate (blockWrites d b), o.ends r.2)
    else
      let s := blockSpan d b
      let c := (r.1.streamWeights d b firstOfTile).holdBlock d b
      let t := ((List.range s.2.1).map (· + s.1)).foldl (fun (t : Chip × OpRun × Nat) i =>
        if t.2.2 != 0 then t else t.1.matRow d b i t.2.1) (c, o, St.OK)
      if t.2.2 != 0 then (t.1.invalidate (blockWrites d b), t.2.1.ends t.2.2) else (t.1, t.2.1)

/-- MATMUL (R154 to R162): the next tile of the running MATMUL, its blocks in order; no block of a tile that meets bad parity is
written (R153). [DESIGN CHOICE: log 23] -/
def execMatmul (stalls : Nat) (parity : Bool) (s : State) : Host.Outcome State Fault Refusal :=
  s.run Parts.tile (fun c => c.runTile 0 0 1 (fun _ o => matCheck o.raw) (fun c o =>
    let p := matPar o.raw
    let c := c.setShape p.shape p.ws
    let q := c.addStalls o stalls
    if parity then q.1.slotParity q.2
    else
      let first := o.tiles * p.bpt
      let blocks := (List.range (min p.bpt (blockCount o.raw - first))).map (· + first)
      blocks.foldl (fun t b => t.1.matBlock t.2 b (b == first)) q))

/-! ## Pins and slot images (R150 to R153, R162, R163) -/

/-- The rectangle a pin operation names (R162). -/
structure PinPar where
  stream : Nat
  slot : Nat
  bandFirst : Nat
  bandLast : Nat
  groupFirst : Nat
  groupLast : Nat
  addr : Nat
  deriving DecidableEq, Repr

/-- The parameter area of PIN, UNPIN, SLOT_SAVE and SLOT_LOAD (R162). -/
def pinPar (d : Nat) : PinPar :=
  ⟨bits d 256 16, bits d 272 1, bits d 273 4, bits d 277 4, bits d 281 3, bits d 284 3, 64 * bits d 288 22⟩

/-- Whether the rectangle is well formed, with one tile (R162). -/
def pinParOk (d : Nat) : Bool :=
  let p := pinPar d
  Desc.tileCount d == 1 && decide (p.bandFirst ≤ p.bandLast) && decide (p.groupFirst ≤ p.groupLast)

/-- The rectangle of pin `n` (R175). -/
def Chip.pinAt (c : Chip) (n : Nat) : PinPar :=
  ⟨c.rd R.DMK_PIN_STREAM n, c.rd R.DMK_PIN_SLOT n, c.rd R.DMK_PIN_BAND_FIRST n, c.rd R.DMK_PIN_BAND_LAST n,
   c.rd R.DMK_PIN_GROUP_FIRST n, c.rd R.DMK_PIN_GROUP_LAST n, 0⟩

/-- The valid pins. -/
def Chip.validPins (c : Chip) : List Nat := (List.range 32).filter (fun n => c.on R.DMK_PIN_VALID n)

/-- The valid pin whose stream, slot and rectangle match exactly (R151). -/
def Chip.matchPin (c : Chip) (p : PinPar) : Option Nat :=
  c.validPins.find? (fun n => decide (c.pinAt n = { p with addr := 0 }))

/-- Whether two rectangles on one slot overlap (R151). -/
def PinPar.conflicts (p q : PinPar) : Bool :=
  p.slot == q.slot && decide (p.bandFirst ≤ q.bandLast) && decide (q.bandFirst ≤ p.bandLast) &&
  decide (p.groupFirst ≤ q.groupLast) && decide (q.groupFirst ≤ p.groupLast)

/-- DMK_STATUS.PINS follows the valid pins. -/
def Chip.countPins (c : Chip) : Chip := c.wr R.DMK_STATUS_PINS c.validPins.length

/-- A slot's 32 bits. -/
def Chip.slotVal (c : Chip) (row col slot : Nat) : Nat := Table.getD c.dmk.slots (slotKey row col slot) 0

/-- A slot set; zero slots are not listed. -/
def Chip.setSlot (c : Chip) (row col slot v : Nat) : Chip :=
  let t := if v = 0 then Table.del c.dmk.slots (slotKey row col slot) else Table.put c.dmk.slots (slotKey row col slot) v
  { c with dmk := { c.dmk with slots := t } }

/-- Whether a slot key lies in a rectangle. -/
def PinPar.holds (p : PinPar) (key : Nat) : Bool :=
  let row := key / 512; let col := key / 2 % 256
  key % 2 == p.slot && decide (24 * p.bandFirst ≤ row) && decide (row < 24 * (p.bandLast + 1)) &&
  decide (32 * p.groupFirst ≤ col) && decide (col < 32 * (p.groupLast + 1))

/-- Every slot of a rectangle set to zero (R151). -/
def Chip.clearSlots (c : Chip) (p : PinPar) : Chip :=
  { c with dmk := { c.dmk with slots := c.dmk.slots.filter (fun e => !p.holds e.1) } }

/-- The width of a rectangle in columns and its height in rows. -/
def PinPar.width (p : PinPar) : Nat := 32 * (p.groupLast - p.groupFirst + 1)
def PinPar.height (p : PinPar) : Nat := 24 * (p.bandLast - p.bandFirst + 1)

/-- The slots of a rectangle left undefined: free values (R151). [DESIGN CHOICE: log 183] -/
def Chip.freeSlots (c : Chip) (p : PinPar) : Chip :=
  let f := c.freshId
  let key := fun (k : Nat) => slotKey (24 * p.bandFirst + k / p.width) (32 * p.groupFirst + k % p.width) p.slot
  { f.2 with dmk := { f.2.dmk with slots := (List.range (p.width * p.height)).foldl (fun t k =>
      Table.put t (key k) (bits (Config.freeNat f.1) (32 * k) 32)) f.2.dmk.slots } }

/-- The bytes of a slot image (R163). -/
def PinPar.imageBytes (p : PinPar) : Nat := p.width * p.height * 4

/-- The checks of PIN (R151, R162). [DEDUCED: log 46] -/
def Chip.pinCheck (c : Chip) (d : Nat) : Nat :=
  let p := pinPar d
  if !pinParOk d then St.DMK_BAD_PARAM
  else if c.validPins.any (fun n => (c.pinAt n).conflicts p) then St.DMK_PIN_CONFLICT
  else if c.validPins.length = 32 then St.DMK_PIN_FULL
  else St.OK

/-- PIN (R151): the lowest free entry takes the rectangle, whose slots become zero. [DESIGN CHOICE: log 178] -/
def execPin (stalls : Nat) (s : State) : Host.Outcome State Fault Refusal :=
  s.run Parts.tile (fun c => c.runTile 0 0 2 (fun c o => c.pinCheck o.raw) (fun c o =>
    let p := pinPar o.raw
    let (c, o) := c.addStalls o stalls
    match (List.range 32).find? (fun n => !c.on R.DMK_PIN_VALID n) with
    | none => (c, o)
    | some n =>
      let c := c.wr R.DMK_PIN_SLOT p.slot n
      let c := c.wr R.DMK_PIN_CORRUPT 0 n
      let c := c.wr R.DMK_PIN_BAND_FIRST p.bandFirst n
      let c := c.wr R.DMK_PIN_BAND_LAST p.bandLast n
      let c := c.wr R.DMK_PIN_GROUP_FIRST p.groupFirst n
      let c := c.wr R.DMK_PIN_GROUP_LAST p.groupLast n
      let c := c.wr R.DMK_PIN_STREAM p.stream n
      let c := c.wr R.DMK_PIN_VALID 1 n
      ((c.clearSlots p).countPins, { o with info1 := n })))

/-- The checks of SLOT_SAVE and SLOT_LOAD (R151, R153, R162, R163). [DESIGN CHOICE: log 179] -/
def Chip.imageCheck (c : Chip) (d : Nat) : Nat :=
  let p := pinPar d
  if !pinParOk d || decide (muslinSize < p.addr + p.imageBytes) then St.DMK_BAD_PARAM
  else if (c.matchPin p).isNone then St.DMK_NO_PIN
  else St.OK

/-- The slots of a rectangle in the image's order. -/
def PinPar.order (p : PinPar) : List (Nat × Nat) :=
  ((List.range p.height).map (fun r => (List.range p.width).map (fun k =>
    (24 * p.bandFirst + r, 32 * p.groupFirst + k)))).foldr (· ++ ·) []

/-- SLOT_SAVE (R163): the raw slots, in the image's order. -/
def execSlotSave (stalls : Nat) (parity : Bool) (s : State) : Host.Outcome State Fault Refusal :=
  s.run Parts.tile (fun c => c.runTile 0 0 4 (fun c o => c.imageCheck o.raw) (fun c o =>
    let p := pinPar o.raw
    let (c, o) := c.addStalls o stalls
    match c.matchPin p with
    | none => (c, o)
    | some n =>
      if parity then (c.wr R.DMK_PIN_CORRUPT 1 n).slotParity o
      else
        let bytes := (p.order.map (fun rc => leBytes 4 (c.slotVal rc.1 rc.2 p.slot))).foldr (· ++ ·) []
        let w := c.devWrite p.addr bytes
        (w.1, if w.2 = 0 then o else o.ends w.2)))

/-- The check of COLUMN_TEST. -/
def columnCheck (d : Nat) : Nat := if Desc.tileCount d = 1 then St.OK else St.DMK_BAD_PARAM

/-- COLUMN_TEST (R164): the environment says which physical columns give a wrong answer, and whether a slot it reads has bad
parity (R153). Slots 2 and 3, which its patterns ran through, hold nothing of it at its end (R149). [DESIGN CHOICE: log 180] -/
def execColumnTest (stalls : Nat) (failing : List Nat) (parity : Bool) (s : State) : Host.Outcome State Fault Refusal :=
  s.run Parts.tile (fun c => c.runTile 0 0 6 (fun _ o => columnCheck o.raw) (fun c o =>
      let (c, o) := c.clearCells.addStalls o stalls
      if parity then c.slotParity o
      else
        let bad := (List.range 264).filter (fun k => failing.contains k)
        let c := bad.foldl (fun (c : Chip) k =>
          c.wr R.DMK_COL_FAIL_FAIL (c.rd R.DMK_COL_FAIL_FAIL (k / 32) ||| 2 ^ (k % 32)) (k / 32)) c
        if bad.isEmpty then (c, o)
        else (c.latchFault R.DMK_STATUS_COLUMN_FAULT, { o.meets St.DMK_COLUMN_FAULT with info1 := bad.length })))

/-! ## Spare columns (R169 to R174) -/

/-- Whether Damask runs no operation: neither its own nor an ATU operation (R170, R197). -/
def Chip.damaskQuiet (c : Chip) : Bool := (c.op? 0).isNone && (c.op? 1).isNone

/-- The result of a swap command that completes, refused or not, is written and journalled (R173, R512). [DEDUCED: log 50] -/
def Chip.swapResult (c : Chip) (column result : Nat) : Chip :=
  (c.wr R.DMK_SPARE_CMD_RESULT result).journalService R.DMK_SPARE_CMD (column + 256) result

/-- DMK_SPARE_REQUEST (R170, R173): a write of COLUMN with GO. -/
def execDmkSpareRequest (column : BitVec 8) (s : State) : Host.Outcome State Fault Refusal :=
  s.runHost [.regs, .dict, .dmk, .odx] (fun c =>
    let col := column.toNat
    let g := col / 32
    let c := c.wr R.DMK_SPARE_CMD_COLUMN col
    if c.on R.DMK_STATUS_SWAP_PENDING || c.on R.DMK_STATUS_SWAP_ACTIVE then c.wr R.DMK_SPARE_CMD_RESULT 5
    else if c.on R.DMK_SPARE_MAP_IN_USE g && c.rd R.DMK_SPARE_MAP_REPLACED g == col % 32 then c.swapResult col 3
    else if c.on R.DMK_SPARE_MAP_IN_USE g || c.on R.DMK_SPARE_MAP_SPARE_BAD g then c.swapResult col 2
    else
      let c := c.wr R.DMK_STATUS_SWAP_PENDING 1
      { c with dmk := { c.dmk with swapColumn := col, swapRequested := c.now, swapUrgent := false } })

/-- The swap that waits starts (R171). -/
def Chip.beginSwap (c : Chip) : Chip :=
  let c := c.wr R.DMK_STATUS_SWAP_PENDING 0
  let c := c.wr R.DMK_STATUS_SWAP_ACTIVE 1
  ({ c with dmk := { c.dmk with swapStarted := c.now, swapUrgent := false } }).refresh

/-- SPARE_SWAP_START (R170): no running operation, and no ready Damask descriptor unless 10 ms have passed. -/
def execSpareSwapStart (s : State) : Host.Outcome State Fault Refusal :=
  s.run [.regs, .dmk] (fun c =>
    if c.on R.DMK_STATUS_SWAP_PENDING && c.damaskQuiet && (c.dmk.swapUrgent || (c.readyFor (· == 0)).isEmpty)
    then c.beginSwap else c)

/-- SPARE_SWAP_WAIT_TIMEOUT (R170). -/
def execSpareSwapWaitTimeout (s : State) : Host.Outcome State Fault Refusal :=
  s.run [.regs, .tku, .dmk] (fun c =>
    if c.on R.DMK_STATUS_SWAP_PENDING then
      let c := c.advanceTo (c.dmk.swapRequested + 10000000)
      if c.damaskQuiet then c.beginSwap else { c with dmk := { c.dmk with swapUrgent := true } }
    else c)

/-- The pins named in `bad` that own slots of a base column, marked CORRUPT: the copy read bad parity (R172, R153).
[DESIGN CHOICE: log 43] -/
def Chip.swapParity (c : Chip) (column : Nat) (bad : List Nat) : Chip :=
  let owns := fun (n : Nat) => decide ((c.pinAt n).groupFirst ≤ column / 32) && decide (column / 32 ≤ (c.pinAt n).groupLast)
  let hit := c.validPins.filter (fun n => bad.contains n && owns n)
  if hit.isEmpty then c
  else (hit.foldl (fun (c : Chip) n => c.wr R.DMK_PIN_CORRUPT 1 n) c).latchFault R.DMK_STATUS_SLOT_PARITY

/-- SPARE_SWAP_END (R171 to R173): 40 us after its start the swap is recorded, or reverted and the spare marked bad; the pins whose
copied slots had bad parity are CORRUPT. -/
def execSpareSwapEnd (pass : Bool) (badPins : List Nat) (s : State) : Host.Outcome State Fault Refusal :=
  s.run [.regs, .dict, .tku, .odx, .sent] (fun c =>
    if c.on R.DMK_STATUS_SWAP_ACTIVE then
      let c := c.advanceTo (c.dmk.swapStarted + 40000)
      let col := c.dmk.swapColumn
      let g := col / 32
      let c := c.swapParity col badPins
      let c := if pass then
          ((c.wr R.DMK_SPARE_MAP_REPLACED (col % 32) g).wr R.DMK_SPARE_MAP_IN_USE 1 g).wr R.DMK_SPARE_MAP_SOURCE 1 g
        else c.wr R.DMK_SPARE_MAP_SPARE_BAD 1 g
      let c := c.wr R.DMK_STATUS_SWAP_ACTIVE 0
      ((c.swapResult col (if pass then 1 else 4)).raise 4).refresh
    else c)

end Sys2Proof.Machine
end

