-- ==== Sys2Proof/Machine/Recurrent.lean ====
section
/-!
DEFINITION. The state-carrying sequence operators of Damask (chapter 06): SCAN, ANCHOR, CHECKPOINT and RESTORE; and
UNPIN and SLOT_LOAD, which respect the pins a suspended SCAN holds.
-/
namespace Sys2Proof.Machine

/-! ## Stream control blocks (R176 to R178) -/

/-- A stream control block as Muslin holds it (R176). -/
structure Scb where
  off : Nat
  raw : Nat
  pin : PinPar
  nrows : Nat
  headCols : Nat
  heads : Nat
  perRow : Bool
  fmt : Nat
  torn : Bool
  steps : Nat
  lastReset : Nat
  records : Nat
  deriving DecidableEq, Repr

/-- The SCB at a Muslin offset. -/
def Chip.scbAt (c : Chip) (off : Nat) : Scb :=
  let r := c.peekNat off 64
  { off := off, raw := r,
    pin := ⟨bits r 0 16, bits r 16 1, bits r 17 4, bits r 21 4, bits r 25 3, bits r 28 3, 0⟩,
    nrows := bits r 32 9, headCols := 32 <<< bits r 41 2, heads := bits r 43 3 + 1, perRow := r.testBit 46,
    fmt := bits r 47 4, torn := r.testBit 52, steps := bits r 64 64, lastReset := bits r 128 64, records := bits r 192 32 }

/-- The stream's width in columns. -/
def Scb.width (s : Scb) : Nat := s.heads * s.headCols

/-- Whether R177 accepts the block. -/
def Scb.ok (s : Scb) : Bool :=
  (s.fmt == 0xA || s.fmt == 0xB) && decide (1 ≤ s.nrows) && decide (s.nrows ≤ 384) &&
  decide (s.pin.bandFirst ≤ s.pin.bandLast) && decide (s.pin.groupFirst ≤ s.pin.groupLast) &&
  s.pin.bandLast - s.pin.bandFirst + 1 == ceilDiv s.nrows 24 && s.width == s.pin.width

/-- Physical row of row `n`, base column of column `d` of a stream. -/
def Scb.row (s : Scb) (n : Nat) : Nat := 24 * s.pin.bandFirst + n
def Scb.col (s : Scb) (d : Nat) : Nat := 32 * s.pin.groupFirst + d

/-- TORN of an SCB set or cleared (R188, R190), with the status of the write. -/
def Chip.setTorn (c : Chip) (off : Nat) (v : Bool) : Chip × Nat :=
  c.devWrite (off + 6) (leBytes 1 (setBits (c.peekNat (off + 6) 1) 4 1 (b2n v)))

/-- An operation stops partway in a stream's record: TORN is set, and the operation ends (R190). -/
def Chip.tornAt (c : Chip) (off : Nat) (o : OpRun) (st : Nat) : Chip × OpRun := ((c.setTorn off true).1, o.ends st)

/-- The state of a stream is set anew: TORN clears; where the operation met a status, it stopped partway (R190, R193, R195). -/
def Chip.streamWhole (c : Chip) (off : Nat) (o : OpRun) (st : Nat) : Chip × OpRun :=
  if st != St.OK then c.tornAt off o st
  else
    let w := c.setTorn off false
    (w.1, if w.2 = 0 then o else o.ends w.2)

/-! ## SCAN (R179 to R190) -/

/-- A SCAN record (R182). -/
structure ScanRec where
  scb : Nat
  len : Nat
  outEn : Bool
  row : Nat
  col : Nat
  decay : Nat
  out : Nat
  reset : Nat
  resetEn : Bool
  rowStride : Nat
  colStride : Nat
  decayStride : Nat
  outStride : Nat
  deriving DecidableEq, Repr

/-- The record's 64 bytes read as fields. -/
def scanRec (r : Nat) : ScanRec :=
  { scb := 64 * bits r 0 22, len := bits r 22 9, outEn := r.testBit 31, row := 64 * bits r 32 22, col := 64 * bits r 54 22,
    decay := 64 * bits r 76 22, out := 64 * bits r 98 22, reset := 64 * bits r 120 22, resetEn := r.testBit 142,
    rowStride := 64 * bits r 144 16, colStride := 64 * bits r 160 16, decayStride := 64 * bits r 176 16,
    outStride := 64 * bits r 192 16 }

/-- The record array of a SCAN (R181). -/
def scanArray (d : Nat) : Nat × Nat := (64 * bits d 256 22, bits d 278 8)

/-- The relocation a descriptor carries above its 512 bits (R573): the area's offset and size, and where it moves to. -/
def relocOf (d : Nat) : Nat × Nat × Nat := (bits d 512 32, bits d 544 32, bits d 576 32)

/-- An offset under a relocation: one within the area moves with it. -/
def relocate (d a : Nat) : Nat :=
  let r := relocOf d
  if r.1 ≤ a ∧ a < r.1 + r.2.1 then a - r.1 + r.2.2 else a

/-- Record `k` of a SCAN, as memory holds it, and under the relocation of R573. -/
def Chip.scanRecRaw (c : Chip) (d k : Nat) : ScanRec := scanRec (c.peekNat ((scanArray d).1 + 64 * k) 64)
def Chip.scanRecAt (c : Chip) (d k : Nat) : ScanRec :=
  let r := c.scanRecRaw d k
  { r with scb := relocate d r.scb, row := relocate d r.row, col := relocate d r.col, decay := relocate d r.decay,
           out := relocate d r.out, reset := relocate d r.reset }

/-- The ranges of one record: row operands, x, decay, output, reset bitmap (R182, R183). -/
def ScanRec.rowRange (r : ScanRec) (d : Nat) (s : Scb) : Strided :=
  ⟨r.row, r.rowStride, r.len, packedBytes (wA d) (2 * s.heads * s.nrows)⟩
def ScanRec.colRange (r : ScanRec) (d : Nat) (s : Scb) : Strided := ⟨r.col, r.colStride, r.len, packedBytes (wB d) s.width⟩
def ScanRec.decayRange (r : ScanRec) (d : Nat) (s : Scb) : Strided :=
  ⟨r.decay, r.decayStride, r.len, packedBytes (wC d) (if s.perRow then s.heads * s.nrows else s.width)⟩
def ScanRec.outRange (r : ScanRec) (d : Nat) (s : Scb) : Strided :=
  ⟨r.out, r.outStride, if r.outEn then r.len else 0, packedBytes (wO d) s.width⟩
def ScanRec.resetRange (r : ScanRec) : Strided := ⟨r.reset, 0, if r.resetEn then 1 else 0, ceilDiv r.len 8⟩

/-- The format check of a SCAN (R180, R49). -/
def scanFormatsOk (d : Nat) : Bool :=
  let f := fun b (l : List Nat) => !fmtMx b && l.contains (fmtCode b)
  f (Desc.fmtA d) [0x8, 0x9, 0xA, 0xB] && f (Desc.fmtB d) [0x8, 0x9, 0xA, 0xB] && f (Desc.fmtC d) [0xA, 0xB, 0xC] &&
  f (Desc.fmtOut d) [0x5, 0x6, 0x7, 0x8, 0x9, 0xA, 0xB, 0xC] && Desc.rnd d != 3

/-- The parameter check of one record (R177, R183). -/
def Chip.scanRecOk (c : Chip) (d k : Nat) : Bool :=
  let r := c.scanRecAt d k
  let s := c.scbAt r.scb
  let rs := [r.rowRange d s, r.colRange d s, r.decayRange d s] ++ (if r.outEn then [r.outRange d s] else [])
  decide (1 ≤ r.len) && decide (r.len ≤ 256) && decide (r.scb + 64 ≤ muslinSize) && s.ok &&
  rs.all (fun x => decide (x.len ≤ x.stride) && x.fits) && r.resetRange.fits

/-- Whether an output range of a SCAN overlaps an input range, an SCB or the record array (R183). -/
def Chip.scanOverlap (c : Chip) (d : Nat) : Bool :=
  let n := (scanArray d).2
  let recs := (List.range n).map (fun k => c.scanRecAt d k)
  let inputs := (recs.map (fun r =>
    let s := c.scbAt r.scb
    [r.rowRange d s, r.colRange d s, r.decayRange d s, r.resetRange, ⟨r.scb, 0, 1, 64⟩])).foldr (· ++ ·) []
  let inputs := ⟨(scanArray d).1, 64, n, 64⟩ :: inputs
  recs.any (fun r => inputs.any (fun x => (r.outRange d (c.scbAt r.scb)).overlaps x))

/-- The pins that suspended SCANs hold (R189). -/
def Chip.heldPins (c : Chip) : List Nat :=
  ((c.dsp.suspended.filter (fun o => Desc.engine o.raw == 0 && Desc.opcode o.raw == 0x10)).map (fun o =>
    (List.range (scanArray o.raw).2).filterMap (fun k => c.matchPin (c.scbAt (c.scanRecAt o.raw k).scb).pin))).foldr (· ++ ·) []

/-- The checks every recurrent operation makes on a stream (R177, R189, R153). -/
def Chip.streamCheck (c : Chip) (s : Scb) (writes : Bool) : Nat :=
  if !s.ok then St.DMK_BAD_PARAM
  else
    match c.matchPin s.pin with
    | none => St.DMK_NO_PIN
    | some n =>
      if writes && c.heldPins.contains n then St.DMK_PIN_BUSY
      else if c.on R.DMK_PIN_CORRUPT n then St.DMK_SLOT_PARITY
      else St.OK

/-! ## UNPIN and SLOT_LOAD, which a held pin turns away (R151, R153, R163, R189) -/

/-- DMK_NO_PIN without a matching pin, DMK_PIN_BUSY where a suspended SCAN holds it (R151, R189). -/
def Chip.heldCheck (c : Chip) (p : PinPar) : Nat :=
  match c.matchPin p with
  | none => St.DMK_NO_PIN
  | some n => if c.heldPins.contains n then St.DMK_PIN_BUSY else St.OK

/-- The checks of UNPIN. [DESIGN CHOICE: log 179] -/
def Chip.unpinCheck (c : Chip) (d : Nat) : Nat :=
  if !pinParOk d then St.DMK_BAD_PARAM
  else c.heldCheck (pinPar d)

/-- UNPIN (R151, R175): VALID and CORRUPT clear; the entry's other fields stay; the slots' contents are undefined. -/
def execUnpin (stalls : Nat) (s : State) : Host.Outcome State Fault Refusal :=
  s.run Parts.tile (fun c => c.runTile 0 0 3 (fun c o => c.unpinCheck o.raw) (fun c o =>
    let (c, o) := c.addStalls o stalls
    match c.matchPin (pinPar o.raw) with
    | none => (c, o)
    | some n => (((c.freeSlots (pinPar o.raw)).wr R.DMK_PIN_VALID 0 n |>.wr R.DMK_PIN_CORRUPT 0 n).countPins, o)))

/-- The checks of SLOT_LOAD. -/
def Chip.slotLoadCheck (c : Chip) (d : Nat) : Nat :=
  let st := c.imageCheck d
  if st != St.OK then st else c.heldCheck (pinPar d)

/-- SLOT_LOAD (R153, R163): a whole load clears CORRUPT; a load that meets an uncorrectable word writes the slots before
it and sets CORRUPT. -/
def execSlotLoad (stalls : Nat) (s : State) : Host.Outcome State Fault Refusal :=
  s.run Parts.tile (fun c => c.runTile 0 0 5 (fun c o => c.slotLoadCheck o.raw) (fun c o =>
    let p := pinPar o.raw
    let (c, o) := c.addStalls o stalls
    match c.matchPin p with
    | none => (c, o)
    | some n =>
      let load := fun (c : Chip) (k : Nat) => ((p.order.take k).foldl (fun (s : Chip × Nat) rc =>
        (s.1.setSlot rc.1 rc.2 p.slot (s.1.peekNat (p.addr + 4 * s.2) 4), s.2 + 1)) (c, 0)).1
      let r := c.devRead p.addr p.imageBytes
      if r.2.1 = 0 then ((load r.1 (p.width * p.height)).wr R.DMK_PIN_CORRUPT 0 n, o)
      else
        let stop := match c.poisonedIn p.addr p.imageBytes with
          | some w => (8 * w - p.addr) / 4
          | none => 0
        ((load r.1 stop).wr R.DMK_PIN_CORRUPT 1 n, o.ends r.2.1)))

/-- The first status of a list that is not OK. -/
def firstBad (l : List Nat) : Nat := (l.find? (· != 0)).getD St.OK

/-- The checks of a SCAN, over every record, before its first step (R183, R189, R190). [DEDUCED: log 46] -/
def Chip.scanCheck (c : Chip) (d : Nat) : Nat :=
  let n := (scanArray d).2
  let ks := List.range n
  let scb := fun k => c.scbAt (c.scanRecAt d k).scb
  if !scanFormatsOk d then St.FMT_UNSUPPORTED
  else if n == 0 || Desc.tileCount d != n || decide (muslinSize < (scanArray d).1 + 64 * n) then St.DMK_BAD_PARAM
  else if ks.any (fun k => !c.scanRecOk d k) then St.DMK_BAD_PARAM
  else if ks.any (fun k => (c.matchPin (scb k).pin).isNone) then St.DMK_NO_PIN
  else if c.scanOverlap d then St.DMK_OVERLAP
  else if ks.any (fun k => (scb k).torn) then St.DMK_STREAM_TORN
  else firstBad (ks.map (fun k => c.streamCheck (scb k) true))

/-- Whether step `t` of a record carries a reset mark (R187). -/
def Chip.resetBit (c : Chip) (r : ScanRec) (t : Nat) : Bool :=
  r.resetEn && (c.peekNat (r.reset + t / 8) 1).testBit (t % 8)

/-- The state update of one cell (R184): the new FP32 value before conversion, and flags; a NaN state counts as an input value
where the caller says so. -/
def scanCell (prev dec b x : Num) : Num × Flags :=
  let p := dec.mul prev; let q := b.mul x
  let sum := p.add q
  (r32 sum, (if dec.isNan || b.isNan || x.isNan then fNanIn else 0) ||| mulFlags dec prev ||| mulFlags b x |||
    (if !p.isNan && !q.isNan && sum.isNan then fInvalid else 0) |||
    (if sum.isFinite && (r32 sum).isInf then fOverflowInf else 0))

/-- Operands of step `t`: b and c of head `h` row `n`, x of column `d`, decay. -/
def Chip.scanB (c : Chip) (d : Nat) (r : ScanRec) (s : Scb) (t h n : Nat) : Num :=
  decodeElem (fmtCode (Desc.fmtA d)) 0 (c.elem (r.row + t * r.rowStride) (wA d) (2 * h * s.nrows + n))
def Chip.scanC (c : Chip) (d : Nat) (r : ScanRec) (s : Scb) (t h n : Nat) : Num :=
  decodeElem (fmtCode (Desc.fmtA d)) 0 (c.elem (r.row + t * r.rowStride) (wA d) ((2 * h + 1) * s.nrows + n))
def Chip.scanX (c : Chip) (d : Nat) (r : ScanRec) (t col : Nat) : Num :=
  decodeElem (fmtCode (Desc.fmtB d)) 0 (c.elem (r.col + t * r.colStride) (wB d) col)
def Chip.scanDecay (c : Chip) (d : Nat) (r : ScanRec) (s : Scb) (t h n col : Nat) : Num :=
  decodeElem (fmtCode (Desc.fmtC d)) 0
    (c.elem (r.decay + t * r.decayStride) (wC d) (if s.perRow then h * s.nrows + n else col))

/-- One column of one step: its states in increasing row, then its y (R184, R185). `keep` converts the state to
STATE_FMT; without it the FP32 value stands, as a shadow keeps it (R191). -/
def Chip.scanColumn (c : Chip) (r : ScanRec) (s : Scb) (t col : Nat) (o : OpRun) : Chip × OpRun × Num :=
  let d := o.raw
  let h := col / s.headCols
  let j := s.col col
  let reset := c.resetBit r t
  let u := (List.range s.nrows).foldl (fun (u : Chip × OpRun × Num) n =>
    let prev := if reset then Num.zero else f32val (u.1.slotVal (s.row n) j s.pin.slot)
    let v := scanCell prev (c.scanDecay d r s t h n col) (c.scanB d r s t h n) (c.scanX d r t col)
    let q := (u.2.1.flag (v.2 ||| (if t = 0 && prev.isNan then fNanIn else 0))).conv 0xC s.fmt j v.1
    let hv := decodeElem s.fmt 0 q.2
    let w := c.scanC d r s t h n
    let y := accStep (u.2.2, 0) (w.mul hv) w.isNan
    (u.1.setSlot (s.row n) j s.pin.slot (f32bits hv), q.1.flag (y.2 ||| mulFlags w hv), y.1)) (c, o, Num.zero)
  u

/-- One step of a record: the chip, the operation, and the step's converted outputs. -/
def Chip.scanStep (c : Chip) (r : ScanRec) (s : Scb) (t : Nat) (o : OpRun) : Chip × OpRun × List Nat :=
  (List.range s.width).foldl (fun (u : Chip × OpRun × List Nat) col =>
    let v := u.1.scanColumn r s t col u.2.1
    if r.outEn then
      let q := v.2.1.conv 0xC (fmtCode (Desc.fmtOut o.raw)) (s.col col) v.2.2
      (v.1, q.1, u.2.2 ++ [q.2])
    else (v.1, v.2.1, u.2.2)) (c, o, [])

/-- The steps of a record with their output writes; a write that fails stops the record. Answers the status and the number of steps
that were begun. -/
def Chip.scanSteps (c : Chip) (r : ScanRec) (s : Scb) (n : Nat) (write : Bool) (o : OpRun) : Chip × OpRun × Nat × Nat :=
  (List.range n).foldl (fun (u : Chip × OpRun × Nat × Nat) t =>
    if u.2.2.1 != 0 then u
    else
      let v := u.1.scanStep r s t u.2.1
      if write && r.outEn then
        let w := v.1.devWrite (r.out + t * r.outStride) (packElems (wO o.raw) v.2.2)
        (w.1, v.2.1, w.2, t + 1)
      else (v.1, v.2.1, St.OK, t + 1)) (c, o, St.OK, 0)

/-- The reset marks of a record. -/
def Chip.resetMarks (c : Chip) (r : ScanRec) : List Nat := (List.range r.len).filter (fun t => c.resetBit r t)

/-- A record that stops partway (R190): an unknown number of its steps has reached the slots, each with its reset mark; of its outputs
those of the steps before `limit`, where one is given, or of the steps that were applied, may be written, and are not valid; TORN is set.
[DESIGN CHOICE: log 47] -/
def Chip.scanTorn (c : Chip) (r : ScanRec) (s : Scb) (o : OpRun) (st : Nat) (limit : Option Nat := none) : Chip × OpRun :=
  let f := c.freshId
  let k := Config.freeNat f.1 % (r.len + 1)
  let marks := ((f.2.resetMarks r).filter (fun t => decide (t < k))).length
  let c := (f.2.scanSteps r s k false o).1
  let out := r.outRange o.raw s
  let c := c.invalidate ((List.range (min out.rows (limit.getD k))).map (fun t => (out.row t, out.len)))
  (c.count R.DMK_REC_RESET_CNT_COUNT 0 marks).tornAt r.scb o st

/-- A parity error in the slots a record reads (R153, R190): the record stops partway; a bad slot of its own marks the pin
CORRUPT. [DESIGN CHOICE: log 43] -/
def Chip.scanParity (c : Chip) (r : ScanRec) (s : Scb) (o : OpRun) (slots : SlotFinding) : Chip × OpRun :=
  let c := match slots, c.matchPin s.pin with
    | .pinned, some n => c.wr R.DMK_PIN_CORRUPT 1 n
    | _, _ => c
  (c.latchFault R.DMK_STATUS_SLOT_PARITY).scanTorn r s o St.DMK_SLOT_PARITY

/-- Record `k` of a SCAN (R184, R188): its steps, then STEPS, LAST_RESET and RECORDS of its SCB. -/
def Chip.scanRecord (c : Chip) (o : OpRun) (k : Nat) (slots : SlotFinding) : Chip × OpRun :=
  let d := o.raw
  let q := c.touchReads [((scanArray d).1 + 64 * k, 64)]
  if q.2 != 0 then (q.1, o.ends q.2)
  else
    let r := c.scanRecAt d k
    let q := q.1.touchReads [(r.scb, 64)]
    if q.2 != 0 then q.1.tornAt r.scb o q.2
    else
      let s := c.scbAt r.scb
      let rows := fun (x : Strided) => (List.range x.rows).map (fun t => (x.row t, x.len))
      let q := q.1.touchReads (rows r.resetRange ++ rows (r.rowRange d s) ++ rows (r.colRange d s) ++ rows (r.decayRange d s))
      if q.2 != 0 then q.1.scanTorn r s o q.2
      else if slots != .clean then q.1.scanParity r s o slots
      else
        let marks := c.resetMarks r
        let u := q.1.scanSteps r s r.len true o
        if u.2.2.1 != 0 then ({ u.1 with dmk := q.1.dmk }).scanTorn r s o u.2.2.1 (some u.2.2.2)
        else
          let last := match marks.getLast? with
            | some t => s.steps + t
            | none => s.lastReset
          let w := u.1.devWrite (r.scb + 8)
            (leBytes 8 (s.steps + r.len) ++ leBytes 8 last ++ leBytes 4 (s.records + 1))
          if w.2 != 0 then w.1.tornAt r.scb u.2.1 w.2
          else (w.1.count R.DMK_REC_RESET_CNT_COUNT 0 marks.length, u.2.1)

/-- SCAN (R179 to R190): the next record of the running SCAN. -/
def execScan (stalls : Nat) (slots : SlotFinding) (s : State) : Host.Outcome State Fault Refusal :=
  s.run Parts.tile (fun c => c.runTile 0 0 0x10 (fun c o => c.scanCheck o.raw) (fun c o =>
    let c := c.setShape 0 false
    let q := c.addStalls o stalls
    q.1.scanRecord q.2 o.tiles slots))

/-! ## ANCHOR, CHECKPOINT, RESTORE (R191 to R195) -/

/-- SCB_OFF and the second offset of ANCHOR, CHECKPOINT and RESTORE. -/
def recOffs (d : Nat) : Nat × Nat := (64 * bits d 256 22, 64 * bits d 278 22)

/-- The checks ANCHOR, CHECKPOINT and RESTORE share: one tile, ranges in Muslin, the SCB and its pin. -/
def Chip.recCheck (c : Chip) (d extra : Nat) (writes : Bool) : Nat :=
  let s := c.scbAt (recOffs d).1
  if Desc.tileCount d != 1 || decide (muslinSize < (recOffs d).1 + 64) then St.DMK_BAD_PARAM
  else if !s.ok || decide (muslinSize < (recOffs d).2 + extra + s.pin.imageBytes) then St.DMK_BAD_PARAM
  else c.streamCheck s writes

/-- The slots of a stream's rows below NROWS, in increasing row for each column. -/
def Scb.cells (s : Scb) : List (Nat × Nat) :=
  ((List.range s.width).map (fun d => (List.range s.nrows).map (fun n => (n, d)))).foldr (· ++ ·) []

/-- The offset of a stream cell in a slot image (R163). -/
def Scb.imageOff (s : Scb) (n d : Nat) : Nat := (n * s.pin.width + d) * 4

/-- Cells of a stream replaced by converted shadow values (R193). -/
def Chip.anchorCells (c : Chip) (s : Scb) (shadow : Nat) (o : OpRun) (cells : List (Nat × Nat)) : Chip × OpRun :=
  cells.foldl (fun (u : Chip × OpRun) p =>
    let v := f32val (u.1.peekNat (shadow + s.imageOff p.1 p.2) 4)
    let q := u.2.convInput 0xC s.fmt (s.col p.2) v
    (u.1.setSlot (s.row p.1) (s.col p.2) s.pin.slot (f32bits (decodeElem s.fmt 0 q.2)), q.1)) (c, o)

/-- The checks of ANCHOR. -/
def Chip.anchorCheck (c : Chip) (d : Nat) : Nat := if Desc.rnd d = 3 then St.FMT_UNSUPPORTED else c.recCheck d 0 true

/-- ANCHOR (R193): a shadow of the SCB's step count replaces the state, converted once. -/
def execAnchor (stalls : Nat) (st : State) : Host.Outcome State Fault Refusal :=
  st.run Parts.tile (fun c => c.runTile 0 0 0x11 (fun c o => c.anchorCheck o.raw) (fun c o =>
    let d := o.raw
    let s := c.scbAt (recOffs d).1
    let shadow := (recOffs d).2
    let (c, o) := c.addStalls o stalls
    if bits d 320 64 != s.steps then (c.count R.DMK_REC_STALE_CNT_COUNT, o.ends St.DMK_STALE_ANCHOR)
    else
      let r := c.touchReads [((recOffs d).1, 64), (shadow, s.pin.imageBytes)]
      if r.2 != 0 then
        let f := r.1.freshId
        let k := Config.freeNat f.1 % (s.cells.length + 1)
        (f.2.anchorCells s shadow o (s.cells.take k)).1.tornAt s.off o r.2
      else
        let u := r.1.anchorCells s shadow o s.cells
        u.1.streamWhole s.off u.2 St.OK))

/-- The bytes of a checkpoint header (R194), without its CRC. -/
def ckptHeader (s : Scb) (time : Nat) : List Byte :=
  leBytes 2 1 ++ leBytes 2 0 ++ leBytes 8 s.raw ++ leBytes 8 s.steps ++ leBytes 8 s.lastReset ++
  leBytes 4 s.pin.imageBytes ++ leBytes 4 time ++ leBytes 24 0

/-- The raw slot image of a pin (R163). -/
def Chip.slotImage (c : Chip) (p : PinPar) : List Byte :=
  (p.order.map (fun rc => leBytes 4 (c.slotVal rc.1 rc.2 p.slot))).foldr (· ++ ·) []

/-- The checks of CHECKPOINT. -/
def Chip.checkpointCheck (c : Chip) (d : Nat) : Nat :=
  let v := c.recCheck d 64 false
  if v = St.OK ∧ (c.scbAt (recOffs d).1).torn then St.DMK_STREAM_TORN else v

/-- CHECKPOINT (R194, R190): header, CRC and slot image; bad parity in a slot it reads marks the pin CORRUPT (R153). -/
def execCheckpoint (stalls : Nat) (parity : Bool) (st : State) : Host.Outcome State Fault Refusal :=
  st.run Parts.tile (fun c => c.runTile 0 0 0x12 (fun c o => c.checkpointCheck o.raw) (fun c o =>
    let (c, o) := c.addStalls o stalls
    let r := c.touchReads [((recOffs o.raw).1, 64)]
    if r.2 != 0 then (r.1, o.ends r.2)
    else
      let s := c.scbAt (recOffs o.raw).1
      if parity then
        (match r.1.matchPin s.pin with
          | some n => r.1.wr R.DMK_PIN_CORRUPT 1 n
          | none => r.1).slotParity o
      else
        let head := ckptHeader s c.stamp
        let image := c.slotImage s.pin
        let w := r.1.devWrite (recOffs o.raw).2 (head ++ leBytes 4 (crc32 (head ++ image)) ++ image)
        if w.2 = 0 then (w.1, o)
        else (w.1.invalidate [((recOffs o.raw).2, 64 + s.pin.imageBytes)], o.ends w.2)))

/-- Whether a checkpoint image fits a stream (R195). -/
def Chip.ckptOk (c : Chip) (s : Scb) (img : Nat) : Bool :=
  let h := c.peekNat img 64
  bits h 0 16 == 1 && bits h 224 32 == s.pin.imageBytes && bits h 32 52 == bits s.raw 0 52 &&
  bits h 480 32 == crc32 (c.peek img 60 ++ c.peek (img + 64) s.pin.imageBytes)

/-- RESTORE (R195): a checked image is loaded; STEPS and LAST_RESET come from its header; TORN clears. One that stops partway leaves
TORN set (R190). -/
def execRestore (stalls : Nat) (st : State) : Host.Outcome State Fault Refusal :=
  st.run Parts.tile (fun c => c.runTile 0 0 0x13 (fun c o => c.recCheck o.raw 64 true) (fun c o =>
    let s := c.scbAt (recOffs o.raw).1
    let img := (recOffs o.raw).2
    let (c, o) := c.addStalls o stalls
    let r := c.touchReads [((recOffs o.raw).1, 64), (img, 64 + s.pin.imageBytes)]
    if r.2 != 0 then r.1.tornAt s.off o r.2
    else if !c.ckptOk s img then (r.1, o.ends St.DMK_CKPT_BAD)
    else
      let c1 := (s.pin.order.foldl (fun (u : Chip × Nat) rc =>
        (u.1.setSlot rc.1 rc.2 s.pin.slot (u.1.peekNat (img + 64 + 4 * u.2) 4), u.2 + 1)) (r.1, 0)).1
      let h := c.peekNat img 64
      let w := c1.devWrite (s.off + 8) (leBytes 8 (bits h 96 64) ++ leBytes 8 (bits h 160 64))
      w.1.streamWhole s.off o w.2))

/-! ## A fault met between the commands of a record (R190) -/

/-- A running operation of a stream meets a status of an access of its own: the SCAN record it is in, or the ANCHOR or RESTORE, stops
partway; one whose tile is done ends with it. Any other operation just ends. -/
def Chip.streamMeets (c : Chip) (o : OpRun) (st : Nat) : Chip × OpRun :=
  let stream := Desc.engine o.raw == 0 && o.begun && statusClass st == 7
  if stream && Desc.opcode o.raw == 0x10 then
    if o.tileReady then (c, { o.meets st with finished := true })
    else
      let r := c.scanRecAt o.raw o.tiles
      c.scanTorn r (c.scbAt r.scb) o st
  else if stream && (Desc.opcode o.raw == 0x11 || Desc.opcode o.raw == 0x13) then c.tornAt (recOffs o.raw).1 o st
  else (c, o.ends st)

end Sys2Proof.Machine
end

