-- ==== Sys2Proof/Machine/Special.lean ====
section
/-!
DEFINITION. The transcendental functions of R247. Each exact value is computed here in fixed point with 512 fraction bits;
the result is a free choice among the FP32 values within the bound R247 gives, the same for the same inputs.
-/
namespace Sys2Proof.Machine

/-! ## Fixed point: an integer `x` stands for `x * 2^-512` -/

/-- Fraction bits. -/
def fxBits : Nat := 512
/-- One. -/
def fxOne : Int := (2 ^ fxBits : Nat)
/-- Product and quotient, rounded down. -/
def fxMul (a b : Int) : Int := a * b / fxOne
def fxDiv (a b : Int) : Int := a * fxOne / b
/-- Square root of a value that is not negative. -/
def fxSqrt (a : Int) : Int := (isqrtN (a.toNat * 2 ^ fxBits) : Nat)
where
  isqrtN (x : Nat) : Nat := Num.isqrt x

/-- A finite value in fixed point. -/
def fxOf : Num → Int
  | .fin n m e =>
    let k : Int := e + fxBits
    let v : Int := if 0 ≤ k then ((m <<< k.toNat : Nat) : Int) else ((m >>> (-k).toNat : Nat) : Int)
    if n then -v else v
  | _ => 0

/-- A fixed-point value as an exact number. -/
def fxNum (x : Int) : Num := .ofScaled x (-(fxBits : Int))

/-- `sum over k of term(k)`, where each term follows from the one before: `next k t`. -/
def fxSeries (next : Nat → Int → Int) : Nat → Nat → Int → Int → Int
  | 0, _, _, acc => acc
  | n + 1, k, t, acc => fxSeries next n (k + 1) (next k t) (acc + t)

/-- `e^r - 1` for `|r| < 1`. -/
def fxExpm1Small (r : Int) : Int := fxSeries (fun k t => fxMul t r / (k + 2 : Nat)) 120 0 r 0

/-- `atanh z` by its series, for `|z| ≤ 1/3`: `z + z^3/3 + …`. -/
def fxAtanh (z : Int) : Int :=
  let q := fxMul z z
  (List.range 170).foldl (fun (s : Int × Int) k => (fxMul s.1 q, s.2 + s.1 / (2 * k + 1 : Nat))) (z, 0) |>.2

/-- `ln 2`. -/
def fxLn2 : Int := 2 * fxAtanh (fxOne / 3)

/-- `atan z` for `|z| ≤ 1`, by halving the angle three times. -/
def fxAtan (z : Int) : Int :=
  let half := fun (z : Int) => fxDiv z (fxOne + fxSqrt (fxOne + fxMul z z))
  let w := half (half (half z))
  let q := fxMul w w
  8 * ((List.range 100).foldl (fun (s : Int × Int) k => (-(fxMul s.1 q), s.2 + s.1 / (2 * k + 1 : Nat))) (w, 0)).2

/-- `pi`, by `16 atan(1/5) - 4 atan(1/239)`. -/
def fxPi : Int := 16 * fxAtan (fxOne / 5) - 4 * fxAtan (fxOne / 239)

/-- `e^x` for `|x| ≤ 400`. -/
def fxExp (x : Int) : Int :=
  let k := x / fxLn2
  let v := fxOne + fxExpm1Small (x - k * fxLn2)
  if 0 ≤ k then v * (2 ^ k.toNat : Nat) else v / (2 ^ (-k).toNat : Nat)

/-- `e^x - 1`, with no cancellation near 0. -/
def fxExpm1 (x : Int) : Int := if 2 * x.natAbs < fxOne.natAbs then fxExpm1Small x else fxExp x - fxOne

/-- `ln x` for `x > 0`, with no cancellation near 1. -/
def fxLogOf (x : Num) : Int :=
  match x with
  | .fin _ m _ =>
    let e := x.expOf
    let y := fxOf (.fin false m (-(Nat.log2 m : Int)))
    let (y, e) := if 2 * y > 3 * fxOne then (y / 2, e + 1) else (y, e)
    2 * fxAtanh (fxDiv (y - fxOne) (y + fxOne)) + e * fxLn2
  | _ => 0

/-- `ln (1 + x)` for `x > -1`. -/
def fxLog1p (x : Int) : Int :=
  if 2 * x.natAbs < fxOne.natAbs then 2 * fxAtanh (fxDiv x (2 * fxOne + x)) else fxLogOf (fxNum (fxOne + x))

/-- `tanh x`, `1 / (1 + e^-x)`, `ln (1 + e^x)` for `|x| ≤ 400`. -/
def fxTanh (x : Int) : Int := let t := fxExpm1 (2 * x); fxDiv t (t + 2 * fxOne)
def fxSigmoid (x : Int) : Int := fxDiv fxOne (fxOne + fxExp (-x))
def fxSoftplus (x : Int) : Int := if 0 < x then x + fxLog1p (fxExp (-x)) else fxLog1p (fxExp x)

/-- `erf x` for `|x| ≤ 8`: `2/sqrt(pi) * (x - x^3/3 + x^5/(2! 5) - …)`. -/
def fxErf (x : Int) : Int :=
  let q := fxMul x x
  let s := ((List.range 500).foldl (fun (s : Int × Int) k =>
    (-(fxMul s.1 q) / (k + 1 : Nat), s.2 + s.1 / (2 * k + 1 : Nat))) (x, 0)).2
  fxDiv (2 * s) (fxSqrt fxPi)

/-- `sin x` by its series, for `|x| < 1`, and `cos x`. -/
def fxSinSmall (x : Int) : Int :=
  let q := fxMul x x
  ((List.range 60).foldl (fun (s : Int × Int) k =>
    (-(fxMul s.1 q) / ((2 * k + 2) * (2 * k + 3) : Nat), s.2 + s.1)) (x, 0)).2
def fxCosSmall (x : Int) : Int :=
  let q := fxMul x x
  ((List.range 60).foldl (fun (s : Int × Int) k =>
    (-(fxMul s.1 q) / ((2 * k + 1) * (2 * k + 2) : Nat), s.2 + s.1)) (fxOne, 0)).2

/-- `sin (x + k pi/2)`. -/
def fxSinQuad (x : Int) (k : Int) : Int :=
  let h := fxPi / 2
  let n := (2 * x + h) / (2 * h)
  let r := x - n * h
  match ((n + k) % 4).toNat with
  | 0 => fxSinSmall r
  | 1 => fxCosSmall r
  | 2 => -(fxSinSmall r)
  | _ => -(fxCosSmall r)

/-! ## The choice within a bound (R247) -/

/-- An FP32 pattern's place in the order of values: both zeros at 0. -/
def f32Key (x : Nat) : Int := if x.testBit 31 then -((x % 2 ^ 31 : Nat) : Int) else (x : Int)

/-- The pattern at a place; 0 has the sign given. -/
def f32OfKey (k : Int) (neg : Bool) : Nat :=
  if k < 0 ∨ (k = 0 ∧ neg) then 2 ^ 31 + k.natAbs else k.natAbs

/-- The place of the largest FP32 value not above an exact value, and of the smallest not below. -/
def f32Floor (x : Num) : Int :=
  let t := (fp32.encode 1 false 0 x).1
  let k := f32Key t
  if Num.lt x (f32val t) then k - 1 else k
def f32Ceil (x : Num) : Int := -(f32Floor x.neg)

/-- The spacing of FP32 values at an exact value. -/
def f32Ulp (x : Num) : Num := .fin false 1 (max x.expOf (-126) - 23)

/-- The free choice of a function: any FP32 value within `ulps` of the exact value, plus `2^-24 * |x|` where the bound adds
it; an exact value that rounds beyond FP32 gives the infinity. `key` and `args` name the choice. [DESIGN CHOICE: log 16] -/
def choose (key : Nat) (args : List Num) (exact : Num) (ulps : Nat) (slack : Num := Num.zero) : Num × Flags :=
  match exact with
  | .fin n _ _ =>
    if (r32 exact).isInf then (r32 exact, fOverflowInf)
    else
      let b := ((f32Ulp exact).mul (.ofNat ulps)).add (slack.shift (-24))
      let lo := f32Ceil (exact.sub b)
      let hi := f32Floor (exact.add b)
      let pick := Config.transcendental key (args.map f32bits)
      (f32val (f32OfKey (lo + (pick : Int) % (hi - lo + 1)) n), 0)
  | y => (y, 0)

/-- The number of a function in diverse mode, whose algorithm is independent of the primary's (R574). -/
def diverseKey (dv : Bool) (key : Nat) : Nat := if dv then key + 100 else key

/-- A limit that a bounded function reaches beyond its saturation point: where the exact value rounds to it. [DEDUCED: log 18] -/
def saturates (exact limit : Num) : Bool := r32 exact == r32 limit

/-- Whether a value is so large that every function here is at a limit. [DEDUCED: log 18] -/
def huge (x : Num) : Bool := Num.lt (.ofNat 256) x.abs

/-- A number beyond every FP32 value, and one below. [DEDUCED: log 18] -/
def beyond : Num := .fin false 1 300
/-- [DEDUCED: log 18] -/
def tiny : Num := .fin false 1 (-300)

/-- `e^x` as an exact value. -/
def expExact (x : Num) : Num := if huge x then (if x.sign then tiny else beyond) else fxNum (fxExp (fxOf x))

/-- NaN in, NaN out; otherwise `f`. -/
def guardNan (x : Num) (f : Num × Flags) : Num × Flags := if x.isNan then (.nan, fNanIn) else f

/-- EXP (R247). [DESIGN CHOICE: log 16] -/
def fnExp (x : Num) (dv : Bool := false) : Num × Flags :=
  guardNan x (match x with
    | .inf true => (Num.zero, 0)
    | .inf false => (.inf false, 0)
    | y => choose (diverseKey dv 7) [y] (expExact y) 2)

/-- EXP2, EXPM1 (R247). -/
def fnExp2 (x : Num) (dv : Bool := false) : Num × Flags :=
  guardNan x (match x with
    | .inf true => (Num.zero, 0)
    | .inf false => (.inf false, 0)
    | y => choose (diverseKey dv 8) [y] (if huge y then (if y.sign then tiny else beyond) else fxNum (fxExp (fxMul (fxOf y) fxLn2))) 2)
def fnExpm1 (x : Num) (dv : Bool := false) : Num × Flags :=
  guardNan x (match x with
    | .inf true => (.ofInt (-1), 0)
    | .inf false => (.inf false, 0)
    | y => if y.isZero then (y, 0)
      else choose (diverseKey dv 9) [y] (if huge y then (if y.sign then .ofInt (-1) else beyond) else fxNum (fxExpm1 (fxOf y))) 2)

/-- LOG and LOG2 (R246, R247): `-inf` at either zero with no flag, NaN with INVALID below. -/
def fnLogWith (key : Nat) (scale : Int → Int) (x : Num) : Num × Flags :=
  guardNan x (if x.isZero then (.inf true, 0)
    else if x.sign then (.nan, fInvalid)
    else if x.isInf then (.inf false, 0)
    else choose key [x] (fxNum (scale (fxLogOf x))) 2)
/-- [DESIGN CHOICE: log 16] -/
def fnLog (x : Num) (dv : Bool := false) : Num × Flags := fnLogWith (diverseKey dv 10) id x
def fnLog2 (x : Num) (dv : Bool := false) : Num × Flags := fnLogWith (diverseKey dv 11) (fun v => fxDiv v fxLn2) x

/-- LOG1P: `-inf` at -1, NaN with INVALID below. -/
def fnLog1p (x : Num) (dv : Bool := false) : Num × Flags :=
  guardNan x (if x.isZero then (x, 0)
    else if Num.eqv x (.ofInt (-1)) then (.inf true, 0)
    else if Num.lt x (.ofInt (-1)) then (.nan, fInvalid)
    else if x.isInf then (.inf false, 0)
    else choose (diverseKey dv 12) [x] (if huge x then fxNum (fxLogOf (x.add (.ofNat 1))) else fxNum (fxLog1p (fxOf x))) 2)

/-- A function bounded by 3 ulp with limits `lo` and `hi` (R247). -/
def fnLimited (key : Nat) (f : Int → Int) (lo hi x : Num) : Num × Flags :=
  guardNan x (
    let big := huge x
    let v := if big then (if x.sign then lo else hi) else fxNum (f (fxOf x))
    if big || x.isInf then (if x.sign then lo else hi, 0)
    else if x.isZero && v.isZero then (x, 0)
    else if saturates v lo then (lo, 0)
    else if saturates v hi then (hi, 0)
    else choose key [x] v 3)

/-- TANH, SIGMOID, ERF, SOFTPLUS. -/
def fnTanh (x : Num) (dv : Bool := false) : Num × Flags := fnLimited (diverseKey dv 13) fxTanh (.ofInt (-1)) (.ofInt 1) x
def fnSigmoid (x : Num) (dv : Bool := false) : Num × Flags := fnLimited (diverseKey dv 14) fxSigmoid Num.zero (.ofInt 1) x
def fnErf (x : Num) (dv : Bool := false) : Num × Flags :=
  fnLimited (diverseKey dv 18) (fun v => if 8 * fxOne < v.natAbs then (if v < 0 then -fxOne else fxOne) else fxErf v) (.ofInt (-1)) (.ofInt 1) x
def fnSoftplus (x : Num) (dv : Bool := false) : Num × Flags := fnLimited (diverseKey dv 19) fxSoftplus Num.zero x x

/-- SIN and COS: 2 ulp up to `2^20`, the canonical NaN and INVALID beyond (R247). -/
def fnSinCos (key : Nat) (quad : Int) (x : Num) : Num × Flags :=
  guardNan x (if Num.lt (.ofNat (2 ^ 20)) x.abs then (.nan, fInvalid)
    else if x.isZero then (if quad = 0 then x else .ofNat 1, 0)
    else choose key [x] (fxNum (fxSinQuad (fxOf x) quad)) 2)

/-- A function of `x` bounded by 4 ulp plus `2^-24 |x|`, that tends to `x` above and to `-0` below (R247). -/
def fnGated (key : Nat) (f : Int → Int) (x : Num) : Num × Flags :=
  guardNan x (match x with
    | .inf false => (.inf false, 0)
    | .inf true => (Num.zero.neg, 0)
    | y => if y.isZero then (y, 0)
      else choose key [y] (if huge y then (if y.sign then tiny.neg else y) else fxNum (f (fxOf y))) 4 y.abs)

/-- `sqrt(2/pi)`, `sqrt 2`, and the cubic coefficient 0.044715 of R244. -/
def fxRoot2Pi : Int := fxSqrt (fxDiv (2 * fxOne) fxPi)
def fxRoot2 : Int := fxSqrt (2 * fxOne)
def fxCubic : Int := 44715 * fxOne / 1000000

/-- The inner argument of GELU_TANH. Beyond 64 its tanh is at its limit. -/
def geluArg (x : Int) : Int :=
  let u := fxMul fxRoot2Pi (x + fxMul fxCubic (fxMul x (fxMul x x)))
  max (-(300 * fxOne)) (min (300 * fxOne) u)

/-- `erf` clamped to the range of its series. -/
def fxErfAny (v : Int) : Int := if 8 * fxOne < v.natAbs then (if v < 0 then -fxOne else fxOne) else fxErf v

/-- SILU, GELU_TANH, GELU_ERF, MISH, and ELU with slope `a`. -/
def fnSilu (x : Num) (dv : Bool := false) : Num × Flags := fnGated (diverseKey dv 15) (fun v => fxMul v (fxSigmoid v)) x
def fnGeluTanh (x : Num) (dv : Bool := false) : Num × Flags := fnGated (diverseKey dv 16) (fun v => fxMul (v / 2) (fxOne + fxTanh (geluArg v))) x
def fnGeluErf (x : Num) (dv : Bool := false) : Num × Flags := fnGated (diverseKey dv 17) (fun v => fxMul (v / 2) (fxOne + fxErfAny (fxDiv v fxRoot2))) x
def fnMish (x : Num) (dv : Bool := false) : Num × Flags := fnGated (diverseKey dv 21) (fun v => fxMul v (fxTanh (fxSoftplus v))) x
def fnElu (a x : Num) (dv : Bool := false) : Num × Flags :=
  if x.isNan || Num.lt Num.zero x then (x, if x.isNan then fNanIn else 0)
  else if a.isNan then (.nan, fNanIn)
  else
    let e := if x.isInf || huge x then Num.ofInt (-1) else fxNum (fxExpm1 (fxOf x))
    match a.mul e with
    | .nan => (.nan, fInvalid)
    | v => if x.isZero then (v, 0) else choose (diverseKey dv 20) [a, x] v 4 (if x.isFinite then x.abs else Num.zero)

/-- The derivatives of SILU, GELU_TANH and GELU_ERF. -/
def fxSiluD (v : Int) : Int := let s := fxSigmoid v; fxMul s (fxOne + fxMul v (fxOne - s))
def fxGeluTanhD (v : Int) : Int :=
  let t := fxTanh (geluArg v)
  let d := fxMul fxRoot2Pi (fxOne + 3 * fxMul fxCubic (fxMul v v))
  (fxOne + t) / 2 + fxMul (v / 2) (fxMul (fxOne - fxMul t t) d)
def fxGeluErfD (v : Int) : Int :=
  let g := fxMul v v / 2
  let phi := if 300 * fxOne < g then 0 else fxDiv (fxExp (-g)) (fxSqrt (2 * fxPi))
  (fxOne + fxErfAny (fxDiv v fxRoot2)) / 2 + fxMul v phi

/-- A BACKWARD form: `g * f'(x)`, bounded as R247 bounds `f`. -/
def fnGatedBwd (key : Nat) (d : Int → Int) (x g : Num) : Num × Flags :=
  if x.isNan || g.isNan then (.nan, fNanIn)
  else
    let dv := if huge x || x.isInf then (if x.sign then Num.zero else Num.ofNat 1) else fxNum (d (fxOf x))
    match g.mul dv with
    | .nan => (.nan, fInvalid)
    | v => if v.isZero then (v, 0) else choose key [x, g] v 4 (if x.isFinite then x.abs else Num.zero)

/-- Whether a finite value is an integer, and an odd one. -/
def Num.isInteger : Num → Bool
  | .fin _ m e => decide (0 ≤ e) || m % 2 ^ (-e).toNat == 0
  | _ => false
def Num.isOdd (x : Num) : Bool := x.isInteger && x.truncInt % 2 != 0

/-- `|x|^y` for finite non-zero `x` and finite `y`. -/
def powExact (x y : Num) : Num :=
  let e := fxMul (fxLogOf x.abs) (fxOf y)
  if 300 * fxOne < e then beyond else if e < -(300 * fxOne) then tiny else fxNum (fxExp e)

/-- POW, with the special cases of IEEE 754-2019 pow (R247). [DESIGN CHOICE: log 16] -/
def fnPow (x y : Num) (dv : Bool := false) : Num × Flags :=
  let odd := y.isOdd
  let sgn := fun (v : Num) => if x.sign && odd then v.neg else v
  let one := Num.ofNat 1
  if y.isZero || Num.eqv x one then (one, if x.isNan || y.isNan then fNanIn else 0)
  else if x.isNan || y.isNan then (.nan, fNanIn)
  else if x.isZero then (if y.sign then sgn (.inf false) else sgn Num.zero, 0)
  else if y.isInf then
    (if Num.eqv x.abs one then one
     else if Num.lt one x.abs != y.sign then .inf false else Num.zero, 0)
  else if x.isInf then (if y.sign then sgn Num.zero else sgn (.inf false), 0)
  else if x.sign && !y.isInteger then (.nan, fInvalid)
  else choose (diverseKey dv 6) [x, y] (sgn (powExact x y)) 4 x.abs

/-- ATAN2 of `y` (S0) and `x` (S1), with the special cases of IEEE 754-2019 atan2 (R247). [DESIGN CHOICE: log 16] -/
def fnAtan2 (y x : Num) (key : Nat := 32) : Num × Flags :=
  if x.isNan || y.isNan then (.nan, fNanIn)
  else
    let at' := fun (v : Int) => (if y.sign then fxNum (-v) else fxNum v)
    let pick := fun (v : Int) => choose key [y, x] (at' v) 4 (if y.isFinite then y.abs else Num.zero)
    let base := fun (a b : Num) =>   -- atan (a / b) for 0 < a ≤ b
      match a.div b with
      | .fin _ m e => fxAtan (fxOf (.fin false m e))
      | _ => 0
    if y.isZero then (if x.sign then pick fxPi else (if y.sign then Num.zero.neg else Num.zero, 0))
    else if y.isInf then pick (if x.isInf then (if x.sign then 3 * fxPi / 4 else fxPi / 4) else fxPi / 2)
    else if x.isInf then (if x.sign then pick fxPi else (if y.sign then Num.zero.neg else Num.zero, 0))
    else if x.isZero then pick (fxPi / 2)
    else
      let a := if Num.le y.abs x.abs then base y.abs x.abs else fxPi / 2 - base x.abs y.abs
      pick (if x.sign then fxPi - a else a)

end Sys2Proof.Machine
end

