-- ==== Sys2Proof/Machine/Twill.lean ====
section
/-!
DEFINITION. The Twill clusters (chapter 08): operand slots in Muslin and the chain area, the checks every operation makes,
and how a tile reads, computes and writes its rows.
-/
namespace Sys2Proof.Machine

/-! ## The parameter area (R241, R242) -/

namespace Tw
def rows (d : Nat) : Nat := bits d 400 16
def cols (d : Nat) : Nat := bits d 416 20
def func (d : Nat) : Nat := bits d 436 5
def ldi (d : Nat) : Nat := 64 * bits d 441 16
def ldo (d : Nat) : Nat := 64 * bits d 457 16
def bcast1 (d : Nat) : Bool := d.testBit 474
def bcast2 (d : Nat) : Bool := d.testBit 475
def imm (d : Nat) : Nat := bits d 480 32
/-- OFFSET in bytes and STORE of slot `n`. -/
def off (d n : Nat) : Nat := 64 * bits d (256 + 24 * n) 22
def store (d n : Nat) : Bool := d.testBit (256 + 24 * n + 22)
end Tw

/-- An operand slot of an operation: its number, element code, place, and whether it is read and written. `elem` marks a
per-element slot, whose stride is checked; `bcast` one whose single row serves every row; `per` is how many packed elements a row of
the operation has in another slot, 0 where the whole slot serves every row. -/
structure TwSlot where
  n : Nat
  code : Nat
  store : Bool
  place : Strided
  elem : Bool
  bcast : Bool := false
  per : Nat := 0
  rd : Bool
  wr : Bool
  deriving DecidableEq, Repr

/-- A per-element slot of `rows` rows of `cols` elements; a broadcast slot is one row. -/
def twElemOf (d n code rows cols : Nat) (bcast rd wr : Bool) : TwSlot :=
  { n := n, code := code, store := Tw.store d n, elem := true, bcast := bcast, rd := rd, wr := wr,
    place := ⟨Tw.off d n, if bcast then 0 else if n ≤ 3 then Tw.ldi d else Tw.ldo d, if bcast then 1 else rows,
      packedBytes (fmtWidth code) cols⟩ }

/-- A per-element slot of the operation's own rows and columns. -/
def twElem (d n code : Nat) (bcast : Bool := false) (rd : Bool := true) (wr : Bool := false) : TwSlot :=
  twElemOf d n code (Tw.rows d) (Tw.cols d) bcast rd wr

/-- A slot of `bytes` packed bytes: per-row elements, a parameter block, scales. -/
def twRun (d n code bytes : Nat) (rd wr : Bool) (per : Nat := 0) : TwSlot :=
  { n := n, code := code, store := Tw.store d n, elem := false, per := per, rd := rd, wr := wr,
    place := ⟨Tw.off d n, 0, 1, bytes⟩ }

/-- A per-row slot of `k` elements per row. -/
def twPerRow (d n code k : Nat) (rd wr : Bool) : TwSlot :=
  twRun d n code (packedBytes (fmtWidth code) (Tw.rows d * k)) rd wr k

/-- Element codes that the format bytes name. -/
def twA (d : Nat) : Nat := fmtCode (Desc.fmtA d)
def twB (d : Nat) : Nat := fmtCode (Desc.fmtB d)
def twC (d : Nat) : Nat := fmtCode (Desc.fmtC d)
def twO (d : Nat) : Nat := fmtCode (Desc.fmtOut d)

/-- Bytes of the scales of `rows` rows of `cols` elements: one per block of 32, packed. [DEDUCED: log 21] -/
def scaleRun (rows cols : Nat) : Nat := rows * ceilDiv cols 32

/-- The slots of an operation (R244). -/
def twSlots (d : Nat) : List TwSlot :=
  let f := Tw.func d
  let s0 := twElem d 0 (twA d)
  let out := twElem d 5 (twO d) false false true
  match Desc.opcode d with
  | 0x02 => [s0, twElem d 1 (twB d) (Tw.bcast1 d), out]
  | 0x03 => [s0, twElem d 1 (twB d) (Tw.bcast1 d), twElem d 2 (twC d) (Tw.bcast2 d), out]
  | 0x04 => [s0, twPerRow d 5 (twO d) 1 false true]
  | 0x06 => [s0] ++ (if f = 2 then [twElem d 1 0x4 (Tw.bcast1 d)] else []) ++ [out]
  | 0x07 => [s0] ++ (if f = 3 then [] else [twElem d 1 (twB d) (Tw.bcast1 d)]) ++
      (if f = 0 then [twElem d 2 (twC d) (Tw.bcast2 d)] else []) ++
      (if f = 2 then [twElem d 3 (twA d), twElem d 4 (twC d) false false true] else []) ++ [out]
  | 0x08 => [s0] ++ (if f = 6 then [] else [twElem d 1 0xC (Tw.bcast1 d)]) ++
      (if f = 1 ∨ f = 2 ∨ f = 3 then [twElem d 2 0xC false true true] else []) ++
      (if f = 2 ∨ f = 4 ∨ f = 5 then [twElem d 3 0xC false true true] else []) ++
      [twRun d 4 0xC 64 true false, out]
  | 0x09 => if f = 0 then [s0, twPerRow d 4 (twO d) (Tw.imm d) false true, twPerRow d 5 0x3 (Tw.imm d) false true]
      else [s0, twElem d 5 0x4 false false true]
  | 0x0A => [s0, twRun d 4 0xC 64 true false, twPerRow d 5 0x3 1 false true]
  | 0x0B =>
      let mxIn := fmtMx (Desc.fmtA d)
      [s0] ++ (if mxIn then [twRun d 1 0x4 (scaleRun (Tw.rows d) (Tw.cols d)) true false (ceilDiv (Tw.cols d) 32)] else []) ++
      (if f = 1 then [twPerRow d (if mxIn then 2 else 1) 0xC 1 true false] else []) ++
      (if fmtMx (Desc.fmtOut d) then [twRun d 4 0x4 (scaleRun (Tw.rows d) (Tw.cols d)) false true (ceilDiv (Tw.cols d) 32)] else []) ++ [out]
  | 0x0C =>
      let idx := twPerRow d 1 0x3 1 true false
      match f with
      | 0 => [s0, twElemOf d 5 (twO d) (Tw.cols d) (Tw.rows d) false false true]
      | 1 => [twElemOf d 0 (twA d) (Tw.imm d) (Tw.cols d) false true false, idx, out]
      | 2 | 3 => [s0, idx, out]
      | 6 => [s0, out]
      | _ => [out]
  | 0x0D => [s0, twElem d 1 0xC (Tw.bcast1 d), twElem d 2 0xC (Tw.bcast2 d), out]
  | 0x0E =>
      match f with
      | 0 => [s0, twPerRow d 1 0x3 1 true false, twPerRow d 5 (twO d) 1 false true]
      | 1 => [s0, twPerRow d 1 0x3 1 true false, out]
      | _ => [s0, twElem d 1 (twB d) (Tw.bcast1 d), out]
  | 0x0F =>
      [s0, twElem d 1 (twB d) (Tw.bcast1 d)] ++
      (if f = 7 ∨ f = 8 ∨ f = 10 then [twElem d 2 (twC d) (Tw.bcast2 d)] else []) ++
      (if f = 9 then [twElem d 2 0xC (Tw.bcast2 d), twElem d 3 0xC] else []) ++ [out]
  | 0x10 => [s0, twPerRow d 5 (if f = 0 then 0x3 else twO d) (if f = 0 then 256 else 2) false true]
  | 0x11 => [twRun d 0 0xC (64 * Tw.rows d) true false 16]
  | 0x12 =>
      let k := bits (Tw.imm d) 0 16
      [twElemOf d 0 (twA d) (Tw.rows d) k false true false, twElemOf d 1 (twB d) k (Tw.cols d) false true false] ++
      (if Desc.fmtC d = 0 then [] else [twElem d 2 (twC d) (Tw.bcast2 d)]) ++
      (if fmtMx (Desc.fmtA d) then [twRun d 3 0x4 (scaleRun (Tw.rows d) k) true false (ceilDiv k 32)] else []) ++
      (if fmtMx (Desc.fmtB d) then [twRun d 4 0x4 (scaleRun (Tw.cols d) k) true false] else []) ++ [out]
  | _ => [s0, out]

/-- A slot of an operation by number. -/
def twSlot (d n : Nat) : TwSlot := ((twSlots d).find? (fun s => s.n == n)).getD (twRun d n 0xC 0 false false)

/-! ## Checks (R243 to R245, R255, R267) -/

/-- The number of functions of an opcode (R244). -/
def twFuncs (op : Nat) : Nat :=
  match op with
  | 0x01 => 32 | 0x02 => 17 | 0x03 => 4 | 0x04 => 9 | 0x05 => 3 | 0x06 => 3 | 0x07 => 4 | 0x08 => 7 | 0x09 => 2 | 0x0A => 6
  | 0x0B => 2 | 0x0C => 7 | 0x0D => 2 | 0x0E => 3 | 0x0F => 12 | 0x10 => 3 | 0x11 => 1 | 0x12 => 1 | _ => 0

/-- The format bytes an operation uses (R242): those of its variable-format slots. -/
def twBytesUsed (d : Nat) : List Nat :=
  let f := Tw.func d
  let a := Desc.fmtA d; let b := Desc.fmtB d; let cf := Desc.fmtC d; let o := Desc.fmtOut d
  match Desc.opcode d with
  | 0x02 => [a, b, o]
  | 0x03 => [a, b, cf, o]
  | 0x07 => if f = 3 then [a, o] else if f = 1 then [a, b, o] else [a, b, cf, o]
  | 0x09 => if f = 0 then [a, o] else [a]
  | 0x0A => [a]
  | 0x0C => if f = 4 ∨ f = 5 then [o] else [a, o]
  | 0x0E => if f = 2 then [a, b, o] else [a, o]
  | 0x0F => if f = 7 ∨ f = 8 ∨ f = 10 then [a, b, cf, o] else if f = 9 then [b, o] else [a, b, o]
  | 0x10 => if f = 0 then [a] else [a, o]
  | 0x11 => [a, b, cf]
  | 0x12 => if cf = 0 then [a, b, o] else [a, b, cf, o]
  | _ => [a, o]

/-- Whether a format byte names a non-MX integer format. -/
def intByte (b : Nat) : Bool := !fmtMx b && decide (fmtCode b ≤ 4)

/-- Functions that have an integer form (R245). -/
def twIntFunc (op f : Nat) : Bool :=
  match op with
  | 0x01 => [0, 1, 2, 3, 22, 30, 31].contains f
  | 0x02 => [0, 1, 2, 3, 4, 5, 8, 9, 10, 11, 12, 13, 14, 15, 16].contains f
  | 0x03 => f == 1 || f == 2
  | 0x04 => [0, 2, 3, 6, 7].contains f
  | 0x05 => f == 0 || f == 2
  | 0x0C => true
  | 0x10 => f == 0 || f == 2
  | _ => false

/-- Whether integer arithmetic applies (R245). -/
def twInt (d : Nat) : Bool := twIntFunc (Desc.opcode d) (Tw.func d) && (twBytesUsed d).all intByte

/-- Functions that take integers only (R245). -/
def twBitwise (op f : Nat) : Bool :=
  (op == 1 && f == 31) || (op == 2 && decide (12 ≤ f)) || (op == 0x10 && f == 0)

/-- The format check (R36, R49, R245, R256, R258). -/
def twFormatsOk (d : Nat) : Bool :=
  let op := Desc.opcode d
  let known := fun b => decide (fmtCode b ≤ if op = 0x0B then 0xD else 0xC)
  Desc.rnd d != 3 &&
  (if op = 0x12 then
    let a := Desc.fmtA d; let b := Desc.fmtB d
    damaskOperand a && damaskOperand b && damaskInt a == damaskInt b && damaskResult (Desc.fmtOut d) &&
    !fmtMx (Desc.fmtOut d) && (Desc.fmtC d == 0 || damaskAddend (damaskInt a) (Desc.fmtC d))
  else if op = 0x11 then
    let f := fun b (l : List Nat) => !fmtMx b && l.contains (fmtCode b)
    f (Desc.fmtA d) [0x8, 0x9, 0xA, 0xB] && f (Desc.fmtB d) [0x8, 0x9, 0xA, 0xB] && f (Desc.fmtC d) [0xA, 0xB, 0xC]
  else
    (twBytesUsed d).all (fun b => known b && (!fmtMx b || (op == 0x0B && mxAllowed (fmtCode b)))) &&
    (!twBitwise op (Tw.func d) || twInt d))

/-- Whether a slot lies within Muslin, or within the chain area. -/
def TwSlot.fits (s : TwSlot) : Bool :=
  if s.store then s.place.rows == 0 || s.place.len == 0 ||
    decide (s.place.row (s.place.rows - 1) + s.place.len ≤ 196608)
  else s.place.fits

/-- Whether the stride of a slot is at least one row (R267); the one row of a broadcast slot has none. -/
def TwSlot.strideOk (s : TwSlot) : Bool := !s.elem || s.bcast || decide (s.place.len ≤ s.place.stride)

/-- The parameter check (R243, R244, R251, R256, R258, R267). -/
def Chip.twParamsOk (c : Chip) (d : Nat) : Bool :=
  let op := Desc.opcode d
  let n := Tw.rows d
  decide (Tw.func d < twFuncs op) && n != 0 && (op == 0x11 || Tw.cols d != 0) &&
  decide (1 ≤ Desc.tileCount d) && decide (Desc.tileCount d ≤ n) &&
  (op != 9 || (decide (1 ≤ Tw.imm d) && decide (Tw.imm d ≤ min 1024 (Tw.cols d)))) &&
  (op != 0x12 || bits (Tw.imm d) 0 16 != 0) &&
  (twSlots d).all (fun s => s.fits && s.strideOk) &&
  (op != 0x11 ||
    (decide (n ≤ 255) && Desc.tileCount d == n && !Tw.store d 0 && !Tw.store d 1 &&
     (let scb := (c.scanRecAt d 0).scb
      decide (scb + 64 ≤ muslinSize) && (c.scbAt scb).ok &&
      decide (Tw.off d 1 + (c.scbAt scb).pin.imageBytes ≤ muslinSize) &&
      (List.range n).all (fun k => (c.scanRecAt d k).scb == scb && c.scanRecOk d k))))

/-- Whether a descriptor continues a chain (R254). -/
def Weave.continuesChain (w : Weave) (i : Nat) : Bool := i != 0 && Desc.chainNext (w.raw (i - 1))

/-- The descriptor after `i` of a weave, as memory holds it. -/
def Chip.successor (c : Chip) (w : Weave) (i : Nat) : Nat :=
  if i + 1 < w.descs.length then w.raw (i + 1) else leNat (c.devRead (w.addr + 64 * (i + 2)) 64).2.2

/-- The chain check (R255). -/
def Chip.twChainOk (c : Chip) (o : OpRun) : Bool :=
  let d := o.raw
  match c.weave? o.weave with
  | none => true
  | some w =>
    let cont := w.continuesChain o.index
    let next := Desc.chainNext d
    (!next || (decide (o.index + 1 < w.count) &&
      (let s := c.successor w o.index; Desc.engine s == 2 && Desc.waitSig s == 0))) &&
    (twSlots d).all (fun s => !s.store || ((!s.rd || cont) && (!s.wr || next))) &&
    (!(Desc.opcode d == 0x11 || Desc.opcode d == 0x12) || (!next && !cont))

/-- The overlap check: S5 on S0 is allowed in one offset, stride and width (R267). -/
def twOverlap (d : Nat) : Bool :=
  let ss := twSlots d
  ss.any (fun w => w.wr && ss.any (fun r =>
    r.rd && r.n != w.n && r.store == w.store && w.place.overlaps r.place &&
    !(w.n == 5 && r.n == 0 && w.place.off == r.place.off && w.place.stride == r.place.stride &&
      fmtWidth w.code == fmtWidth r.code)))

/-- Whether the shadow image of a SHADOW_SCAN overlaps what its records read. -/
def Chip.shadowOverlap (c : Chip) (d : Nat) : Bool :=
  let scb := c.scbAt (c.scanRecAt d 0).scb
  let image : Strided := ⟨Tw.off d 1, 0, 1, scb.pin.imageBytes⟩
  image.overlaps ⟨Tw.off d 0, 64, Tw.rows d, 64⟩ || image.overlaps ⟨scb.off, 0, 1, 64⟩ ||
  (List.range (Tw.rows d)).any (fun k =>
    let r := c.scanRecAt d k
    [r.rowRange d scb, r.colRange d scb, r.decayRange d scb, r.resetRange].any (fun x => image.overlaps x))

/-- The checks of a Twill operation, formats first. [DEDUCED: log 48] -/
def Chip.twCheck (c : Chip) (o : OpRun) : Nat :=
  let d := o.raw
  if decide (Tw.func d < twFuncs (Desc.opcode d)) && !twFormatsOk d then St.FMT_UNSUPPORTED
  else if !c.twParamsOk d then St.TWL_BAD_PARAM
  else if !c.twChainOk o then St.TWL_BAD_CHAIN
  else if twOverlap d || (Desc.opcode d == 0x11 && c.shadowOverlap d) then St.TWL_OVERLAP
  else St.OK

/-! ## Reading and writing slots (R242, R253) -/

/-- Bytes of a chain area: what a member wrote, or free bytes (R254). [DESIGN CHOICE: log 49] -/
def ChainStore.read (s : ChainStore) (a : Nat) : Nat → List Byte
  | 0 => []
  | n + 1 =>
    (match s.cells.find? (fun p => p.1 == a) with
     | some p => p.2
     | none => Config.chainByte s.epoch a) :: ChainStore.read s (a + 1) n

/-- Bytes stored in a chain area. -/
def ChainStore.write (s : ChainStore) (a : Nat) : List Byte → ChainStore
  | [] => s
  | b :: bs => ChainStore.write { s with cells := Table.put s.cells a b } (a + 1) bs

/-- The chain area of an operation's class on its cluster. -/
def Chip.chainArea (c : Chip) (o : OpRun) : ChainStore :=
  (Table.get? c.twl.stores (chainKey (o.unit - 2) o.cls)).getD ⟨0, []⟩

/-- Bytes of a slot's memory, as they stand. -/
def Chip.twPeek (c : Chip) (o : OpRun) (store : Bool) (off n : Nat) : Nat :=
  if store then leNat ((c.chainArea o).read off n) else c.peekNat off n

/-- Bytes written through a slot. -/
def Chip.twPoke (c : Chip) (o : OpRun) (store : Bool) (off : Nat) (bs : List Byte) : Chip × Nat :=
  if store then
    ({ c with twl := { c.twl with
        stores := Table.put c.twl.stores (chainKey (o.unit - 2) o.cls) ((c.chainArea o).write off bs) } }, St.OK)
  else c.devWrite off bs

/-- Row `r` of a per-element slot: the patterns of its first `n` elements. -/
def Chip.twRow (c : Chip) (o : OpRun) (s : TwSlot) (r n : Nat) : List Nat :=
  let w := fmtWidth s.code
  let v := c.twPeek o s.store (s.place.row (if s.place.rows = 1 then 0 else r)) (packedBytes w n)
  (List.range n).map (fun j => bits v (w * j) w)

/-- Element `i` of a packed slot. -/
def Chip.twAt (c : Chip) (o : OpRun) (s : TwSlot) (i : Nat) : Nat :=
  let w := fmtWidth s.code
  bits (c.twPeek o s.store (s.place.off + w * i / 8) ((w * i % 8 + w + 7) / 8)) (w * i % 8) w

/-- The FP32 value an element enters float arithmetic as (R58, R59, R245). -/
def twVal (code x : Nat) : Num :=
  let v := decodeElem code 0 x
  if code ≤ 4 then r32 v else v

/-- A row of a per-element slot as FP32 values, and as integers. -/
def Chip.twNums (c : Chip) (o : OpRun) (s : TwSlot) (r : Nat) : List Num :=
  (c.twRow o s r (Tw.cols o.raw)).map (twVal s.code)
def Chip.twInts (c : Chip) (o : OpRun) (s : TwSlot) (r : Nat) : List Int :=
  (c.twRow o s r (Tw.cols o.raw)).map (fun x => (decodeElem s.code 0 x).truncInt)

/-- One output value: its source format, its value, and the flags its computation set. -/
structure TwOut where
  src : Nat
  val : Num
  flags : Flags
  deriving DecidableEq, Repr

/-- A float result and an INT32 result. -/
def TwOut.flt (p : Num × Flags) : TwOut := ⟨0xC, p.1, p.2⟩
def TwOut.int (p : Int × Flags) : TwOut := ⟨0x3, .ofInt p.1, p.2⟩

/-- Values converted, with generators by flat index from `base` (R53). -/
def OpRun.convOuts (o : OpRun) (code base : Nat) (xs : List TwOut) : OpRun × List Nat :=
  let r := xs.foldl (fun (s : OpRun × List Nat × Nat) x =>
    let v := (s.1.flag x.flags).conv x.src code ((base + s.2.2) % 1024) x.val
    (v.1, v.2 :: s.2.1, s.2.2 + 1)) (o, [], 0)
  (r.1, r.2.1.reverse)

/-- Row `r` of a per-element slot written. `width` elements make a row of the output. -/
def Chip.twPutRow (c : Chip) (o : OpRun) (s : TwSlot) (r : Nat) (xs : List TwOut) : Chip × OpRun × Nat :=
  let v := o.convOuts s.code (r * xs.length) xs
  let w := c.twPoke o s.store (s.place.row r) (packElems (fmtWidth s.code) v.2)
  (w.1, v.1, w.2)

/-- The bytes that elements `i` to `i + n - 1` of a packed row take, from the one that holds the first bit: in FP6 to the end of
their last 3-byte group (R43). -/
def packedTail (w i n : Nat) : Nat := if w = 6 then 3 * ceilDiv (i + n) 4 - w * i / 8 else ceilDiv (w * (i + n)) 8 - w * i / 8

/-- Elements `i` onward of a packed row at an offset written; bits of their bytes below element `i` stay, bits above are 0. -/
def Chip.twPack (c : Chip) (o : OpRun) (s : TwSlot) (off i : Nat) (xs : List Nat) : Chip × Nat :=
  let w := fmtWidth s.code
  let lo := w * i % 8
  let first := off + w * i / 8
  let body := xs.foldr (fun x acc => x % 2 ^ w + (acc <<< w)) 0
  c.twPoke o s.store first (leBytes (packedTail w i xs.length) (c.twPeek o s.store first 1 % 2 ^ lo + (body <<< lo)))

/-- Elements `i` onward of a packed slot written. -/
def Chip.twPutAt (c : Chip) (o : OpRun) (s : TwSlot) (i : Nat) (xs : List TwOut) : Chip × OpRun × Nat :=
  let v := o.convOuts s.code i xs
  let p := c.twPack v.1 s s.place.off i v.2
  (p.1, v.1, p.2)

/-! ## A tile (R243) -/

/-- The rows of tile `t`: first row and how many. [DEDUCED: log 48] -/
def twTile (d t : Nat) : Nat × Nat :=
  let per := ceilDiv (Tw.rows d) (Desc.tileCount d)
  (t * per, min per (Tw.rows d - t * per))

/-- The FP32 value of IMM. -/
def immVal (d : Nat) : Num := f32val (Tw.imm d)

/-- Word `k` of a parameter block, as FP32. -/
def Chip.twWord (c : Chip) (o : OpRun) (k : Nat) : Nat := c.twPeek o (Tw.store o.raw 4) (Tw.off o.raw 4 + 4 * k) 4
def Chip.twParam (c : Chip) (o : OpRun) (k : Nat) : Num := f32val (c.twWord o k)

/-- Row index `r` of S1. -/
def Chip.rowIndex (c : Chip) (o : OpRun) (r : Nat) : Int := toSigned 32 (c.twAt o (twSlot o.raw 1) r)

/-- Whether a later row of S1 has the target row of row `r`. -/
def Chip.laterTarget (c : Chip) (o : OpRun) (r : Nat) : Bool :=
  (List.range (Tw.rows o.raw - r - 1)).any (fun k => c.rowIndex o (r + 1 + k) == c.rowIndex o r)

/-- Whether row `t` of S5 lies in Muslin or the chain area; another target row is not written. -/
def scatterLands (d : Nat) (t : Int) : Bool :=
  let s := twSlot d 5
  decide (0 ≤ t) && decide (s.place.row t.toNat + s.place.len ≤ if s.store then 196608 else muslinSize)

/-- The bytes of a slot that rows `r` to `r + n - 1` of an operation touch: the rows its indices name for GATHER_ROWS and the scatters,
the columns of TRANSPOSE's output, every row of VMATMUL's B, and otherwise the rows themselves. -/
def Chip.twSpan (c : Chip) (o : OpRun) (s : TwSlot) (r n : Nat) : List (Nat × Nat) :=
  let d := o.raw
  let layout := fun f => Desc.opcode d == 0x0C && Tw.func d == f
  let rows := (List.range n).map (· + r)
  if n = 0 then []
  else if !s.elem then
    let w := fmtWidth s.code
    if s.per = 0 then [(s.place.off, s.place.len)]
    else [(s.place.off + w * (r * s.per) / 8, packedTail w (r * s.per) (n * s.per))]
  else if s.bcast then [(s.place.off, s.place.len)]
  else if layout 0 ∧ s.n = 5 then
    let w := fmtWidth s.code
    (List.range s.place.rows).map (fun i => (s.place.row i + w * r / 8, packedTail w r n))
  else if layout 1 ∧ s.n = 0 then
    (rows.filter (fun i => decide (0 ≤ c.rowIndex o i) && decide (c.rowIndex o i < Tw.imm d))).map
      (fun i => (s.place.row (c.rowIndex o i).toNat, s.place.len))
  else if (layout 2 ∨ layout 3) ∧ s.n = 5 then
    (rows.filter (fun i => scatterLands d (c.rowIndex o i) && !c.laterTarget o i)).map
      (fun i => (s.place.row (c.rowIndex o i).toNat, s.place.len))
  else if Desc.opcode d = 0x12 ∧ s.n = 1 then (List.range s.place.rows).map (fun i => (s.place.row i, s.place.len))
  else rows.map (fun i => (s.place.row i, s.place.len))

/-- The Muslin ranges a tile reads and writes. -/
def Chip.twRanges (c : Chip) (o : OpRun) (use : TwSlot → Bool) : List (Nat × Nat) :=
  let p := twTile o.raw o.tiles
  ((twSlots o.raw).filter (fun s => use s && !s.store)).foldr (fun s acc => c.twSpan o s p.1 p.2 ++ acc) []
def Chip.twReads (c : Chip) (o : OpRun) : List (Nat × Nat) := c.twRanges o (·.rd)
def Chip.twWrites (c : Chip) (o : OpRun) : List (Nat × Nat) := c.twRanges o (·.wr)

/-! ## NaN inputs (R60) -/

/-- Whether an operation reads IMM as FP32, and the words of its parameter block that it reads (R244, R250, R252). -/
def twImmUsed (op f : Nat) : Bool :=
  match op with
  | 0x01 => f == 20 || f == 23
  | 0x06 | 0x07 => true
  | 0x0C => f == 4
  | 0x0E => f != 0
  | 0x0F => f == 7 || f == 8 || f == 10 || f == 11
  | _ => false
def twWordsUsed (op f : Nat) : List Nat :=
  match op, f with
  | 0x08, 0 => [0, 4]
  | 0x08, 1 => [0, 1, 4]
  | 0x08, 2 => [0, 1, 2, 3, 4, 5, 6]
  | 0x08, 3 => [0, 1, 2, 4]
  | 0x08, 4 => [0, 3]
  | 0x08, 5 => [0, 2, 3]
  | 0x08, 6 => [7, 8]
  | 0x0A, 0 => []
  | 0x0A, 3 | 0x0A, 4 => [0, 1]
  | 0x0A, 5 => [0, 2]
  | 0x0A, _ => [0]
  | _, _ => []

/-- Whether a NaN stands among the values that row `r` of an operation reads, or a scale of 0xFF over them. [DEDUCED: log 182] -/
def Chip.twNanIn (c : Chip) (o : OpRun) (r : Nat) : Bool :=
  let d := o.raw
  let op := Desc.opcode d
  let k := bits (Tw.imm d) 0 16
  let rowBad := fun (s : TwSlot) (i n : Nat) =>
    decide (5 ≤ s.code) && (c.twRow o s i n).any (fun x => (decodeElem s.code 0 x).isNan)
  let slotBad := fun (s : TwSlot) =>
    if !s.elem then
      if op = 0x12 then (c.twSpan o s r 1).any
        (fun p => ((List.range p.2).any (fun i => c.twPeek o s.store (p.1 + i) 1 == 0xFF)))
      else (twWordsUsed op (Tw.func d)).any (fun i => (c.twParam o i).isNan)
    else if op = 0x12 ∧ s.n = 1 then (List.range k).any (fun i => rowBad s i (Tw.cols d))
    else if op = 0x12 ∧ s.n = 0 then rowBad s r k
    else if op = 0x0C ∧ Tw.func d = 1 then
      let i := c.rowIndex o r
      decide (0 ≤ i) && decide (i < Tw.imm d) && rowBad s i.toNat (Tw.cols d)
    else rowBad s r (Tw.cols d)
  (twImmUsed op (Tw.func d) && (immVal d).isNan) || (twSlots d).any (fun s => s.rd && slotBad s)

/-- NAN_IN as the inputs of a row set it: a NaN that an earlier line of the row produced is no input. CONVERT and SHADOW_SCAN say
themselves which of their values are inputs. [DEDUCED: log 182] -/
def Chip.nanFromInputs (c : Chip) (was o : OpRun) (r : Nat) : OpRun :=
  if Desc.opcode o.raw = 0x0B ∨ Desc.opcode o.raw = 0x11 then o
  else { o with flags := (o.flags &&& ~~~ fNanIn) ||| (was.flags &&& fNanIn) ||| (if c.twNanIn was r then fNanIn else 0) }

/-- The store's part in a tile (R267): a corrected error counts; an uncorrectable one ends an operation that uses it. -/
def Chip.storeCheck (c : Chip) (o : OpRun) (ecc : EccFinding) : Chip × Nat :=
  match ecc with
  | .clean => (c, St.OK)
  | .corrected => (c.count R.TWL_STORE_CE_CNT_COUNT, St.OK)
  | .uncorrectable => (c.latchFault R.TWL_STATUS_STORE_UE, if o.finished then St.OK else St.TWL_STORE_UE)

/-- INFO0 of a Twill operation and TWL_STALL_CNT (R262). -/
def Chip.twStalls (c : Chip) (o : OpRun) (stalls : Nat) : Chip × OpRun :=
  (c.count R.TWL_STALL_CNT_COUNT 0 stalls, { o with info0 := min (o.info0 + stalls) (2 ^ 32 - 1) })

/-- A tile's work: its operands are read, each row is computed and written; a failure ends the operation and leaves the
tile's outputs not valid (R267). -/
def Chip.twTileRun (c : Chip) (o : OpRun) (stalls : Nat) (ecc : EccFinding)
    (row : Chip → OpRun → Nat → Chip × OpRun × Nat) : Chip × OpRun :=
  let d := o.raw
  let q := c.twStalls o stalls
  let e := q.1.storeCheck q.2 ecc
  if e.2 != 0 then (e.1.invalidate (e.1.twWrites o), q.2.ends e.2)
  else
    let r := e.1.touchReads (e.1.twReads o)
    if r.2 != 0 then (r.1.invalidate (r.1.twWrites o), q.2.ends r.2)
    else
      let p := twTile d o.tiles
      let t := (List.range p.2).foldl (fun (t : Chip × OpRun × Nat) i =>
        if t.2.2 != 0 then t
        else
          let u := row t.1 t.2.1 (p.1 + i)
          (u.1, t.1.nanFromInputs t.2.1 u.2.1 (p.1 + i), u.2.2)) (r.1, q.2, St.OK)
      if t.2.2 != 0 then (t.1.invalidate (r.1.twWrites o), t.2.1.ends t.2.2) else (t.1, t.2.1)

/-- The next tile of a Twill operation of an opcode on a cluster. -/
def Chip.twOp (c : Chip) (cluster opcode stalls : Nat) (ecc : EccFinding)
    (row : Chip → OpRun → Nat → Chip × OpRun × Nat) : Chip :=
  c.runTile (cluster + 2) 2 opcode (fun c o => c.twCheck o) (fun c o => c.twTileRun o stalls ecc row)

end Sys2Proof.Machine
end

