-- ==== Sys2Proof/Machine/TwillOps.lean ====
section
/-!
DEFINITION. The Twill families (R244 to R252, R256, R258): what each computes for one row.
-/
namespace Sys2Proof.Machine

/-! ## Rounding (R64, R246) -/

/-- An exact result rounded once to FP32, with the flags its inputs and its rounding set (R60). [DEDUCED: log 17] -/
def fin32 (ins : List Num) (v : Num) : Num × Flags :=
  (r32 v,
   if ins.any Num.isNan then fNanIn
   else if v.isNan then fInvalid
   else if v.isFinite && (r32 v).isInf then fOverflowInf
   else 0)

/-- Maximum and minimum: NaN propagates, `+0` above `-0`. -/
def ieeeMax (a b : Num) : Num :=
  if a.isNan || b.isNan then .nan else if a.isZero && b.isZero then (if a.sign then b else a) else a.max b
def ieeeMin (a b : Num) : Num :=
  if a.isNan || b.isNan then .nan else if a.isZero && b.isZero then (if a.sign then a else b) else a.min b

/-- Saturation to INT32 of an elementwise result (R245). -/
def elemI32 (x : Int) : Int × Flags := let s := satI32 x; (s.1, if s.2 = 0 then 0 else fOverflowSat)

/-- A truth value as a number. -/
def numOf (b : Bool) : Num := .ofNat (b2n b)

/-! ## UNARY, BINARY, TERNARY (R244, R246, R247) -/

/-- A rounded-to-integer value with its zero's sign. -/
def integral (x : Num) (v : Int) : Num := if v = 0 then .fin x.sign 0 0 else .ofInt v

/-- A UNARY function on an FP32 value. -/
def unaryF (f : Nat) (imm x : Num) (dv : Bool := false) : Num × Flags :=
  let keep := fun (v : Num) => (v, if x.isNan then fNanIn else (0 : Flags))
  match f with
  | 0 => keep x
  | 1 => keep x.neg
  | 2 => keep x.abs
  | 3 => fin32 [x] (x.mul x)
  | 4 => fin32 [x] x.sqrt
  | 5 => fin32 [x] ((Num.ofNat 1).div x.sqrt)
  | 6 => fin32 [x] ((Num.ofNat 1).div x)
  | 7 => fnExp x dv
  | 8 => fnExp2 x dv
  | 9 => fnExpm1 x dv
  | 10 => fnLog x dv
  | 11 => fnLog2 x dv
  | 12 => fnLog1p x dv
  | 13 => fnTanh x dv
  | 14 => fnSigmoid x dv
  | 15 => fnSilu x dv
  | 16 => fnGeluTanh x dv
  | 17 => fnGeluErf x dv
  | 18 => fnErf x dv
  | 19 => fnSoftplus x dv
  | 20 => fnElu imm x dv
  | 21 => fnMish x dv
  | 22 => keep (if x.isNan || Num.lt Num.zero x then x else Num.zero)
  | 23 => if x.isNan || !Num.lt x Num.zero then keep x else fin32 [imm, x] (imm.mul x)
  | 24 => fin32 [x] ((x.mul (ieeeMin (ieeeMax (x.add (.ofNat 3)) Num.zero) (.ofNat 6))).div (.ofNat 6))
  | 25 => fnSinCos (diverseKey dv 25) 0 x
  | 26 => fnSinCos (diverseKey dv 26) 1 x
  | 27 => keep (if x.isFinite then integral x x.floorInt else x)
  | 28 => keep (if x.isFinite then integral x (-(x.neg.floorInt)) else x)
  | 29 => keep (if x.isFinite then integral x x.roundInt else x)
  | _ => keep (if x.isNan || x.isZero then x else .ofInt (if x.sign then -1 else 1))

/-- A UNARY function on an INT32 value (R245). -/
def unaryI (f : Nat) (x : Int) : Int × Flags :=
  match f with
  | 1 => elemI32 (-x)
  | 2 => elemI32 x.natAbs
  | 3 => elemI32 (x * x)
  | 22 => (max x 0, 0)
  | 30 => (if x < 0 then -1 else if x = 0 then 0 else 1, 0)
  | 31 => (-x - 1, 0)
  | _ => (x, 0)

/-- A BINARY function on FP32 values. -/
def binaryF (f : Nat) (x y : Num) (dv : Bool := false) : Num × Flags :=
  let ins := [x, y]
  let cmp := fun (b : Bool) => (numOf b, if x.isNan || y.isNan then fNanIn else (0 : Flags))
  match f with
  | 0 => fin32 ins (x.add y)
  | 1 => fin32 ins (x.sub y)
  | 2 => fin32 ins (x.mul y)
  | 3 => fin32 ins (x.div y)
  | 4 => fin32 ins (ieeeMax x y)
  | 5 => fin32 ins (ieeeMin x y)
  | 6 => fnPow x y dv
  | 7 => fnAtan2 x y (diverseKey dv 32)
  | 8 => cmp (Num.eqv x y)
  | 9 => cmp (!Num.eqv x y)
  | 10 => cmp (Num.lt x y)
  | _ => cmp (Num.le x y)

/-- A bitwise function on INT32 patterns. -/
def bitI (f : Nat → Nat → Nat) (x y : Int) : Int := toSigned 32 (f (ofSigned 32 x) (ofSigned 32 y))

/-- A BINARY function on INT32 values (R244, R245). -/
def binaryI (f : Nat) (x y : Int) : Int × Flags :=
  let n := ofSigned 32 y
  match f with
  | 0 => elemI32 (x + y)
  | 1 => elemI32 (x - y)
  | 2 => elemI32 (x * y)
  | 3 =>
    if y = 0 then (if x = 0 then 0 else if 0 < x then 2147483647 else -2147483648, fInvalid)
    else elemI32 (Int.tdiv x y)
  | 4 => (max x y, 0)
  | 5 => (min x y, 0)
  | 8 => (if x = y then 1 else 0, 0)
  | 9 => (if x = y then 0 else 1, 0)
  | 10 => (if x < y then 1 else 0, 0)
  | 11 => (if x ≤ y then 1 else 0, 0)
  | 12 => (bitI (· &&& ·) x y, 0)
  | 13 => (bitI (· ||| ·) x y, 0)
  | 14 => (bitI (· ^^^ ·) x y, 0)
  | 15 => if n < 32 then elemI32 (x * (2 ^ n : Nat)) else (0, 0)
  | _ => (if n < 32 then x / (2 ^ n : Nat) else if x < 0 then -1 else 0, 0)

/-- A product that an addition follows: rounded first in diverse mode (R574). -/
def product (dv : Bool) (x : Num) : Num := if dv then r32 x else x

/-- A TERNARY function on FP32 values. -/
def ternaryF (f : Nat) (x y z : Num) (dv : Bool := false) : Num × Flags :=
  let ins := [x, y, z]
  match f with
  | 0 => fin32 ins ((product dv (x.mul y)).add z)
  | 1 => let v := if x.isZero then z else y; (v, if ins.any Num.isNan then fNanIn else 0)
  | 2 => fin32 ins (ieeeMin (ieeeMax x y) z)
  | _ => fin32 ins (x.add (product dv (z.mul (y.sub x))))

/-- A TERNARY function on INT32 values. -/
def ternaryI (f : Nat) (x y z : Int) : Int × Flags :=
  if f = 1 then (if x = 0 then z else y, 0) else (min (max x y) z, 0)

/-- Corresponding elements of rows. -/
def zip2 {α β : Type} (f : α → α → β) (xs ys : List α) : List β := (xs.zip ys).map (fun p => f p.1 p.2)
def zip3 {α β : Type} (f : α → α → α → β) (xs ys zs : List α) : List β :=
  ((xs.zip ys).zip zs).map (fun p => f p.1.1 p.1.2 p.2)

/-- One row of UNARY, BINARY, TERNARY. -/
def Chip.unaryRow (c : Chip) (o : OpRun) (r : Nat) : Chip × OpRun × Nat :=
  let d := o.raw
  let s := twSlot d 0
  c.twPutRow o (twSlot d 5) r
    (if twInt d then (c.twInts o s r).map (fun x => .int (unaryI (Tw.func d) x))
     else (c.twNums o s r).map (fun x => .flt (unaryF (Tw.func d) (immVal d) x o.mirror)))
def Chip.binaryRow (c : Chip) (o : OpRun) (r : Nat) : Chip × OpRun × Nat :=
  let d := o.raw
  let s := twSlot d
  c.twPutRow o (s 5) r
    (if twInt d then zip2 (fun x y => .int (binaryI (Tw.func d) x y)) (c.twInts o (s 0) r) (c.twInts o (s 1) r)
     else zip2 (fun x y => .flt (binaryF (Tw.func d) x y o.mirror)) (c.twNums o (s 0) r) (c.twNums o (s 1) r))
def Chip.ternaryRow (c : Chip) (o : OpRun) (r : Nat) : Chip × OpRun × Nat :=
  let d := o.raw
  let s := twSlot d
  c.twPutRow o (s 5) r
    (if twInt d then
      zip3 (fun x y z => .int (ternaryI (Tw.func d) x y z)) (c.twInts o (s 0) r) (c.twInts o (s 1) r) (c.twInts o (s 2) r)
     else zip3 (fun x y z => .flt (ternaryF (Tw.func d) x y z o.mirror)) (c.twNums o (s 0) r) (c.twNums o (s 1) r) (c.twNums o (s 2) r))

/-- UNARY (R244). -/
def execUnary (cluster stalls : Nat) (ecc : EccFinding) (s : State) : Host.Outcome State Fault Refusal :=
  s.run Parts.tile (fun c => c.twOp cluster 0x01 stalls ecc (fun c o r => c.unaryRow o r))

/-- BINARY (R244). -/
def execBinary (cluster stalls : Nat) (ecc : EccFinding) (s : State) : Host.Outcome State Fault Refusal :=
  s.run Parts.tile (fun c => c.twOp cluster 0x02 stalls ecc (fun c o r => c.binaryRow o r))

/-- TERNARY (R244). -/
def execTernary (cluster stalls : Nat) (ecc : EccFinding) (s : State) : Host.Outcome State Fault Refusal :=
  s.run Parts.tile (fun c => c.twOp cluster 0x03 stalls ecc (fun c o r => c.ternaryRow o r))

/-! ## Row reductions (R248) -/

/-- The order of R248: 64 partials by stride, then six levels of pairs. -/
def tree64 {α : Type} (zero : α) (step : α → α → α) (join : α → α → α) (xs : List α) : α :=
  let parts := (List.range 64).map (fun l =>
    (List.range (ceilDiv (xs.length - l) 64)).foldl (fun a k => step a (xs.getD (l + 64 * k) zero)) zero)
  let level := fun (p : List α) (t : Nat) => (List.range 64).map (fun l =>
    if l % 2 ^ t = 0 then join (p.getD l zero) (p.getD (l + 2 ^ (t - 1)) zero) else p.getD l zero)
  ([1, 2, 3, 4, 5, 6].foldl level parts).getD 0 zero

/-- The order of a reduction: R248's, or in diverse mode increasing index (R574). -/
def reduceBy {α : Type} (dv : Bool) (zero : α) (step : α → α → α) (join : α → α → α) (xs : List α) : α :=
  if dv then xs.foldl step zero else tree64 zero step join xs

/-- One addition of a reduction, flags collected. -/
def sumStep (a b : Num × Flags) : Num × Flags := let s := fin32 [a.1, b.1] (a.1.add b.1); (s.1, a.2 ||| b.2 ||| s.2)

/-- SUM of a row. -/
def rowSum (xs : List Num) (dv : Bool := false) : Num × Flags :=
  reduceBy dv (Num.zero, (0 : Flags)) sumStep sumStep (xs.map (fun x => (x, (0 : Flags))))

/-- SUMSQ of a row: each square joins with one rounding. -/
def rowSumsq (xs : List Num) (dv : Bool := false) : Num × Flags :=
  reduceBy dv (Num.zero, (0 : Flags)) (fun a x => let s := fin32 [a.1, x.1] (a.1.add (x.1.mul x.1)); (s.1, a.2 ||| s.2)) sumStep
    (xs.map (fun x => (x, (0 : Flags))))

/-- MAX and MIN of a row: the canonical NaN when any element is NaN. -/
def rowMax (xs : List Num) : Num := match xs with | [] => .nan | x :: r => r.foldl ieeeMax x
def rowMin (xs : List Num) : Num := match xs with | [] => .nan | x :: r => r.foldl ieeeMin x

/-- Whether element `a` ranks above `b`: greater, a NaN below every number (R248). -/
def ranksAbove (a b : Num) : Bool := (!a.isNan && b.isNan) || Num.lt b a

/-- The index of the element that nothing ranks above, the lowest of equals. -/
def argBest {α : Type} (above : α → α → Bool) (xs : List α) : Nat :=
  match xs with
  | [] => 0
  | x :: r => (r.foldl (fun (s : α × Nat × Nat) y => if above y s.1 then (y, s.2.2, s.2.2 + 1) else (s.1, s.2.1, s.2.2 + 1))
      (x, 0, 1)).2.1

/-- ARGMAX, and ARGMIN, where a NaN ranks above every number. -/
def argMax (xs : List Num) : Nat := argBest ranksAbove xs
def argMin (xs : List Num) : Nat := argBest (fun a b => (!a.isNan && b.isNan) || Num.lt a b) xs

/-- NAN_IN for a row that holds a NaN. -/
def nanFlag (xs : List Num) : Flags := if xs.any Num.isNan then fNanIn else 0

/-- `ln (sum of exp x)` as R249 would evaluate its lines. -/
def logSumExp (xs : List Num) (dv : Bool := false) : Num × Flags :=
  let m := rowMax xs
  let es := xs.map (fun x => let t := fin32 [x, m] (x.sub m); let e := fnExp t.1 dv; (e.1, t.2 ||| e.2))
  let z := rowSum (es.map (·.1)) dv
  let l := fnLog z.1 dv
  let v := fin32 [m, l.1] (m.add l.1)
  (v.1, es.foldl (fun f e => f ||| e.2) 0 ||| z.2 ||| l.2 ||| v.2 ||| nanFlag xs)

/-- The count of a row as a number. -/
def countNum {α : Type} (xs : List α) : Num := .ofNat xs.length

/-- A REDUCE function on a row of FP32 values. -/
def reduceF (f : Nat) (xs : List Num) (dv : Bool := false) : Num × Flags :=
  match f with
  | 0 => let s := rowSum xs dv; (s.1, s.2 ||| nanFlag xs)
  | 1 => let s := rowSum xs dv; let v := fin32 [s.1] (s.1.div (countNum xs)); (v.1, s.2 ||| v.2 ||| nanFlag xs)
  | 2 => (rowMax xs, nanFlag xs)
  | 3 => (rowMin xs, nanFlag xs)
  | 4 => let s := rowSumsq xs dv; (s.1, s.2 ||| nanFlag xs)
  | 5 => let s := rowSumsq xs dv; let v := fin32 [s.1] s.1.sqrt; (v.1, s.2 ||| v.2 ||| nanFlag xs)
  | 6 => (.ofNat (argMax xs), nanFlag xs)
  | 7 => (.ofNat (argMin xs), nanFlag xs)
  | _ => logSumExp xs dv

/-- An integer SUM, saturating. -/
def intSum (xs : List Int) (dv : Bool := false) : Int × Flags :=
  let add := fun (a b : Int × Flags) => let s := satI32 (a.1 + b.1); (s.1, a.2 ||| b.2 ||| s.2)
  reduceBy dv ((0 : Int), (0 : Flags)) add add (xs.map (fun x => (x, (0 : Flags))))

/-- Maximum and minimum of a row of integers. -/
def intMax (xs : List Int) : Int := match xs with | [] => 0 | x :: r => r.foldl max x
def intMin (xs : List Int) : Int := match xs with | [] => 0 | x :: r => r.foldl min x

/-- A REDUCE function on a row of INT32 values. -/
def reduceI (f : Nat) (xs : List Int) (dv : Bool := false) : Int × Flags :=
  match f with
  | 0 => intSum xs dv
  | 2 => (intMax xs, 0)
  | 3 => (intMin xs, 0)
  | 6 => ((argBest (fun a b => decide (b < a)) xs : Nat), 0)
  | _ => ((argBest (fun a b => decide (a < b)) xs : Nat), 0)

/-- One row of REDUCE. -/
def Chip.reduceRow (c : Chip) (o : OpRun) (r : Nat) : Chip × OpRun × Nat :=
  let d := o.raw
  let s := twSlot d 0
  c.twPutAt o (twSlot d 5) r
    [if twInt d then .int (reduceI (Tw.func d) (c.twInts o s r) o.mirror)
     else .flt (reduceF (Tw.func d) (c.twNums o s r) o.mirror)]

/-- REDUCE (R248). -/
def execReduce (cluster stalls : Nat) (ecc : EccFinding) (s : State) : Host.Outcome State Fault Refusal :=
  s.run Parts.tile (fun c => c.twOp cluster 0x04 stalls ecc (fun c o r => c.reduceRow o r))

/-! ## CUMULATIVE (R248) -/

/-- Running results of a row, in increasing column order. -/
def running {α : Type} (f : α → α → α) : List α → List α
  | [] => []
  | x :: xs => x :: go x xs
where
  go (a : α) : List α → List α
    | [] => []
    | x :: xs => f a x :: go (f a x) xs

/-- One row of CUMULATIVE. -/
def Chip.cumulativeRow (c : Chip) (o : OpRun) (r : Nat) : Chip × OpRun × Nat :=
  let d := o.raw
  let s := twSlot d 0
  let f := Tw.func d
  c.twPutRow o (twSlot d 5) r
    (if twInt d then
      (running (fun (a b : Int × Flags) => if f = 0 then (let t := elemI32 (a.1 + b.1); (t.1, t.2)) else (max a.1 b.1, 0))
        ((c.twInts o s r).map (fun x => (x, (0 : Flags))))).map TwOut.int
     else
      (running (fun (a b : Num × Flags) =>
          if f = 0 then fin32 [a.1, b.1] (a.1.add b.1) else if f = 1 then fin32 [a.1, b.1] (a.1.mul b.1)
          else fin32 [a.1, b.1] (ieeeMax a.1 b.1))
        ((c.twNums o s r).map (fun x => (x, if x.isNan then fNanIn else (0 : Flags))))).map TwOut.flt)

/-- CUMULATIVE (R248). -/
def execCumulative (cluster stalls : Nat) (ecc : EccFinding) (s : State) : Host.Outcome State Fault Refusal :=
  s.run Parts.tile (fun c => c.twOp cluster 0x05 stalls ecc (fun c o r => c.cumulativeRow o r))

/-! ## SOFTMAX (R249) -/

/-- The softmax lines over the kept elements of a row: `t`, its maximum, `e` and its sum, with flags. -/
structure SoftLines where
  t : List Num
  m : Num
  e : List Num
  z : Num
  flags : Flags
  deriving DecidableEq, Repr

/-- The lines of R249 for a row `x`, of which `kept` says what takes part. -/
def softLines (scale : Num) (xs : List Num) (kept : List Bool) (dv : Bool := false) : SoftLines :=
  let ts := xs.map (fun x => fin32 [scale, x] (scale.mul x))
  let m := rowMax (((ts.map (·.1)).zip kept).filterMap (fun p => if p.2 then some p.1 else none))
  let es := (ts.zip kept).map (fun p =>
    if p.2 then
      let a := fin32 [p.1.1, m] (p.1.1.sub m)
      let e := fnExp a.1 dv
      (e.1, p.1.2 ||| a.2 ||| e.2)
    else (Num.zero, (0 : Flags)))
  let z := rowSum (es.map (·.1)) dv
  ⟨ts.map (·.1), m, es.map (·.1), z.1, es.foldl (fun f e => f ||| e.2) 0 ||| z.2⟩

/-- One row of SOFTMAX. A masked row with no element kept gives `+0` and counts in INFO1. -/
def Chip.softmaxRow (c : Chip) (o : OpRun) (r : Nat) : Chip × OpRun × Nat :=
  let d := o.raw
  let f := Tw.func d
  let xs := c.twNums o (twSlot d 0) r
  let kept := if f = 2 then (c.twRow o (twSlot d 1) r (Tw.cols d)).map (· != 0) else xs.map (fun _ => true)
  if !kept.any id then
    c.twPutRow { o with info1 := o.info1 + 1 } (twSlot d 5) r (xs.map (fun _ => ⟨0xC, Num.zero, 0⟩))
  else
    let l := softLines (immVal d) xs kept o.mirror
    let lg := fnLog l.z o.mirror
    let ys := zip3 (fun (a b k : Num × Bool) =>
      if !k.2 then ⟨0xC, Num.zero, 0⟩
      else if f = 1 then .flt (let v := fin32 [a.1, l.m, lg.1] ((a.1.sub l.m).sub lg.1); (v.1, v.2 ||| lg.2 ||| l.flags))
      else .flt (let v := fin32 [b.1, l.z] (b.1.div l.z); (v.1, v.2 ||| l.flags)))
      (l.t.map (·, true)) (l.e.map (·, true)) (kept.map (fun k => (Num.zero, k)))
    c.twPutRow o (twSlot d 5) r ys

/-- SOFTMAX (R249). -/
def execSoftmax (cluster stalls : Nat) (ecc : EccFinding) (s : State) : Host.Outcome State Fault Refusal :=
  s.run Parts.tile (fun c => c.twOp cluster 0x06 stalls ecc (fun c o r => c.softmaxRow o r))

/-! ## NORM (R249) -/

/-- The flags of a list of results joined, and their values. -/
def flagsOf (xs : List (Num × Flags)) : Flags := xs.foldl (fun f x => f ||| x.2) 0
def valsOf (xs : List (Num × Flags)) : List Num := xs.map (·.1)

/-- `q = sum of x*x / n`, rounded. -/
def meanSquare (xs : List Num) (dv : Bool := false) : Num × Flags :=
  let s := rowSumsq xs dv
  let q := fin32 [s.1] (s.1.div (countNum xs))
  (q.1, s.2 ||| q.2)

/-- `r = 1 / sqrt(q + eps)`, rounded. -/
def rsqrtLine (q eps : Num) : Num × Flags := fin32 [q, eps] ((Num.ofNat 1).div (q.add eps).sqrt)

/-- The rmsnorm lines. -/
def rmsLines (eps : Num) (xs gs : List Num) (dv : Bool := false) : List TwOut :=
  let q := meanSquare xs dv
  let r := rsqrtLine q.1 eps
  zip2 (fun x g => .flt (let y := fin32 [x, r.1, g] ((x.mul r.1).mul g); (y.1, y.2 ||| q.2 ||| r.2))) xs gs

/-- Mean, and differences from it. -/
def meanLines (xs : List Num) (dv : Bool := false) : (Num × Flags) × List (Num × Flags) :=
  let s := rowSum xs dv
  let mu := fin32 [s.1] (s.1.div (countNum xs))
  ((mu.1, s.2 ||| mu.2), xs.map (fun x => fin32 [x, mu.1] (x.sub mu.1)))

/-- The layernorm lines. -/
def layerLines (eps : Num) (xs gs bs : List Num) (dv : Bool := false) : List TwOut :=
  let p := meanLines xs dv
  let q := meanSquare (valsOf p.2) dv
  let r := rsqrtLine q.1 eps
  let f := p.1.2 ||| flagsOf p.2 ||| q.2 ||| r.2
  zip3 (fun x g b => .flt (let y := fin32 [x, r.1, g, b] (((x.mul r.1).mul g).add b); (y.1, y.2 ||| f))) (valsOf p.2) gs bs

/-- The l2normalize lines. -/
def l2Lines (eps : Num) (xs : List Num) (dv : Bool := false) : List TwOut :=
  let s := rowSumsq xs dv
  xs.map (fun x => .flt (let y := fin32 [x, s.1, eps] (x.div (ieeeMax s.1 eps).sqrt); (y.1, y.2 ||| s.2)))

/-- One row of NORM. RMSNORM_RES writes the sum to S4 first. -/
def Chip.normRow (c : Chip) (o : OpRun) (r : Nat) : Chip × OpRun × Nat :=
  let d := o.raw
  let xs := c.twNums o (twSlot d 0) r
  let gs := c.twNums o (twSlot d 1) r
  match Tw.func d with
  | 0 => c.twPutRow o (twSlot d 5) r (layerLines (immVal d) xs gs (c.twNums o (twSlot d 2) r) o.mirror)
  | 1 => c.twPutRow o (twSlot d 5) r (rmsLines (immVal d) xs gs o.mirror)
  | 2 =>
    let sums := zip2 (fun x y => fin32 [x, y] (x.add y)) xs (c.twNums o (twSlot d 3) r)
    let p := c.twPutRow o (twSlot d 4) r (sums.map TwOut.flt)
    if p.2.2 != 0 then p else p.1.twPutRow p.2.1 (twSlot d 5) r (rmsLines (immVal d) (valsOf sums) gs o.mirror)
  | _ => c.twPutRow o (twSlot d 5) r (l2Lines (immVal d) xs o.mirror)

/-- NORM (R249). -/
def execNorm (cluster stalls : Nat) (ecc : EccFinding) (s : State) : Host.Outcome State Fault Refusal :=
  s.run Parts.tile (fun c => c.twOp cluster 0x07 stalls ecc (fun c o r => c.normRow o r))

/-! ## OPTIM (R250) -/

/-- One element of an optimiser: new weight, new m, new v. -/
structure OptStep where
  w : Num × Flags
  m : Num × Flags
  v : Num × Flags
  deriving DecidableEq, Repr

/-- The update lines of R250; `p` gives the parameter words. -/
def optStep (f : Nat) (p : Nat → Num) (w g m v : Num) (dv : Bool := false) : OptStep :=
  let lr := p 0; let b1 := p 1; let b2 := p 2; let eps := p 3; let wd := p 4
  let one := Num.ofNat 1
  let pr := product dv
  let blend := fun (b x y : Num) => fin32 [b, x, y] ((pr (b.mul x)).add (pr ((one.sub b).mul y)))
  let step := fun (u : Num) => fin32 [w, lr, u, wd] (w.sub (pr (lr.mul (u.add (pr (wd.mul w))))))
  let adapt := fun (v : Num) => fin32 [w, lr, g, v, eps] (w.sub ((lr.mul g).div (v.sqrt.add eps)))
  let same := fun (x : Num) => (x, (0 : Flags))
  let square := fun (b x : Num) => fin32 [b, x, g] ((pr (b.mul x)).add (pr (((one.sub b).mul g).mul g)))
  match f with
  | 0 => ⟨step g, same m, same v⟩
  | 1 => let m' := fin32 [b1, m, g] ((pr (b1.mul m)).add g); ⟨step m'.1, m', same v⟩
  | 2 =>
    let m' := blend b1 m g
    let v' := square b2 v
    let u := fin32 [m'.1, p 5, v'.1, p 6, eps] ((m'.1.mul (p 5)).div ((v'.1.mul (p 6)).sqrt.add eps))
    let w' := step u.1
    ⟨(w'.1, w'.2 ||| u.2), m', v'⟩
  | 3 =>
    let a := (pr (b1.mul m)).add (pr ((one.sub b1).mul g))
    let u := if a.isNan || a.isZero then a else .ofInt (if a.sign then -1 else 1)
    let uf := fin32 [b1, m, g] u
    let w' := step uf.1
    ⟨(w'.1, w'.2 ||| uf.2), blend b2 m g, same v⟩
  | 4 => let v' := fin32 [v, g] (v.add (pr (g.mul g))); ⟨adapt v'.1, same m, v'⟩
  | 5 => let v' := square b2 v; ⟨adapt v'.1, same m, v'⟩
  | _ => ⟨fin32 [w, p 7, p 8] (w.mul (ieeeMin one ((p 7).div (p 8)))), same m, same v⟩

/-- FP32 state written back in place. -/
def Chip.twPutState (c : Chip) (o : OpRun) (s : TwSlot) (r : Nat) (xs : List Num) : Chip × Nat :=
  c.twPoke o s.store (s.place.row r) (packElems 32 (xs.map f32bits))

/-- One row of OPTIM. -/
def Chip.optimRow (c : Chip) (o : OpRun) (r : Nat) : Chip × OpRun × Nat :=
  let d := o.raw
  let f := Tw.func d
  let ws := c.twNums o (twSlot d 0) r
  let blank := ws.map (fun _ => Num.zero)
  let has := fun n => (twSlots d).any (fun s => s.n == n)
  let get := fun n => if has n then c.twNums o (twSlot d n) r else blank
  let par := (List.range 9).map (fun k => c.twParam o k)
  let steps := zip2 (fun (a b : Num × Num) => optStep f (fun k => par.getD k Num.zero) a.1 a.2 b.1 b.2 o.mirror)
    (ws.zip (get 1)) ((get 2).zip (get 3))
  let o := steps.foldl (fun o s => o.flag (s.m.2 ||| s.v.2)) o
  let p := if has 2 then c.twPutState o (twSlot d 2) r (steps.map (·.m.1)) else (c, St.OK)
  let q := if has 3 ∧ p.2 = 0 then p.1.twPutState o (twSlot d 3) r (steps.map (·.v.1)) else p
  if q.2 != 0 then (q.1, o, q.2) else q.1.twPutRow o (twSlot d 5) r (steps.map (fun s => .flt s.w))

/-- OPTIM (R250). -/
def execOptim (cluster stalls : Nat) (ecc : EccFinding) (s : State) : Host.Outcome State Fault Refusal :=
  s.run Parts.tile (fun c => c.twOp cluster 0x08 stalls ecc (fun c o r => c.optimRow o r))

/-! ## TOPK and SAMPLE (R251, R252) -/

/-- A list sorted by an order, earlier elements first among equals. -/
def sortBy {α : Type} (before : α → α → Bool) (xs : List α) : List α :=
  xs.foldl (fun acc x => put before x acc) []
where
  put (before : α → α → Bool) (x : α) : List α → List α
    | [] => [x]
    | y :: ys => if before x y then x :: y :: ys else y :: put before x ys

/-- A row with its indices, in descending rank (R248). -/
def ranked (xs : List Num) : List (Nat × Num) :=
  sortBy (fun a b => ranksAbove a.2 b.2) ((List.range xs.length).zip xs)

/-- One row of TOPK or TOPK_MASK. -/
def Chip.topkRow (c : Chip) (o : OpRun) (r : Nat) : Chip × OpRun × Nat :=
  let d := o.raw
  let k := Tw.imm d
  let xs := c.twNums o (twSlot d 0) r
  let top := (ranked xs).take k
  let o := o.flag (nanFlag xs)
  if Tw.func d = 1 then
    c.twPutRow o (twSlot d 5) r
      ((List.range xs.length).map (fun j => .int (if top.any (fun p => p.1 == j) then 1 else 0, 0)))
  else
    let p := c.twPutAt o (twSlot d 4) (r * k) (top.map (fun t => .flt (t.2, 0)))
    if p.2.2 != 0 then p else p.1.twPutAt p.2.1 (twSlot d 5) (r * k) (top.map (fun t => .int ((t.1 : Nat), 0)))

/-- TOPK (R251). -/
def execTopk (cluster stalls : Nat) (ecc : EccFinding) (s : State) : Host.Outcome State Fault Refusal :=
  s.run Parts.tile (fun c => c.twOp cluster 0x09 stalls ecc (fun c o r => c.topkRow o r))

/-- Sequential running sums of a list. -/
def runSums (xs : List Num) : List Num := running f32add xs

/-- The shortest prefix whose running sum reaches a limit. -/
def prefixReaching (e : Nat → Num) (limit : Num) (order : List Nat) : List Nat :=
  let sums := runSums (order.map e)
  match (List.range order.length).find? (fun i => Num.le limit (sums.getD i Num.zero)) with
  | some i => order.take (i + 1)
  | none => order

/-- The token SAMPLE draws from a row: the elements, the parameter words, the FUNC and the generator's output. A NaN takes
no part while the row holds a number. -/
def sampleToken (f : Nat) (xs : List Num) (temp p minP : Num) (k : Nat) (g : BitVec 32) (dv : Bool := false) : Nat × Flags :=
  let ts := xs.map (fun x => fin32 [x, temp] (x.div temp))
  let nums := (List.range xs.length).filter (fun j => !((ts.getD j (.nan, 0)).1).isNan)
  let m := rowMax (nums.map (fun j => (ts.getD j (.nan, 0)).1))
  let es := ts.map (fun t =>
    if t.1.isNan then (Num.zero, t.2)
    else let a := fin32 [t.1, m] (t.1.sub m); let e := fnExp a.1 dv; (e.1, t.2 ||| a.2 ||| e.2))
  let e := fun j => (es.getD j (Num.zero, 0)).1
  let order := ((ranked (ts.map (·.1))).map (·.1)).filter (fun j => nums.contains j)
  let total := fun (kept : List Nat) =>
    (rowSum ((List.range xs.length).map (fun j => if kept.contains j then e j else Num.zero)) dv).1
  let topP := fun (kept : List Nat) => prefixReaching e (r32 (p.mul (total kept))) kept
  let kept := match f with
    | 2 => order.take k
    | 3 => topP order
    | 4 => topP (order.take k)
    | 5 => order.filter (fun j => Num.le minP (e j))
    | _ => order
  let sums := runSums (kept.map e)
  let z := sums.getLast?.getD Num.zero
  let u := r32 ((Num.fin false (g >>> 8).toNat (-24)).mul z)
  let pick := match (List.range kept.length).find? (fun i => Num.lt u (sums.getD i Num.zero)) with
    | some i => kept.getD i 0
    | none => kept.getLast?.getD 0
  (pick, flagsOf es)

/-- One row of SAMPLE. -/
def Chip.sampleRow (c : Chip) (o : OpRun) (r : Nat) : Chip × OpRun × Nat :=
  let d := o.raw
  let f := Tw.func d
  let xs := c.twNums o (twSlot d 0) r
  let temp := c.twParam o 0
  let o := o.flag (nanFlag xs)
  let out := twSlot d 5
  if f = 0 ∨ !(temp.isFinite && Num.lt Num.zero temp) ∨ xs.all Num.isNan then
    let o := if f = 0 then o else
      let o := o.advanceGen (r % 1024)
      if temp.isFinite && Num.lt Num.zero temp then o else { o with info1 := o.info1 + 1 }
    c.twPutAt o out r [.int ((argMax xs : Nat), 0)]
  else
    let o := o.advanceGen (r % 1024)
    let t := sampleToken f xs temp (c.twParam o 1) (c.twParam o 2) (c.twWord o 3) (o.gen (r % 1024)) o.mirror
    c.twPutAt o out r [.int ((t.1 : Nat), t.2)]

/-- SAMPLE (R252). [DEDUCED: log 21] -/
def execSample (cluster stalls : Nat) (ecc : EccFinding) (s : State) : Host.Outcome State Fault Refusal :=
  s.run Parts.tile (fun c => c.twOp cluster 0x0A stalls ecc (fun c o r => c.sampleRow o r))

/-! ## CONVERT (R58, R59, R244, R245) -/

/-- Radixes of Q32 input and output: IMM [4:0] and [12:8] (R245). -/
def radixIn (d : Nat) : Nat := bits (Tw.imm d) 0 5
def radixOut (d : Nat) : Nat := bits (Tw.imm d) 8 5

/-- An input element of CONVERT as an exact value, under its scale where block-scaled, with the flags its reading sets: RND governs
its one rounding into FMT_OUT (R50, R51). [DEDUCED: log 15] -/
def convertIn (d scale x : Nat) : Num × Flags :=
  let a := Desc.fmtA d
  let v := if twA d = 0xD then decodeElem 0xD (radixIn d) x
    else if fmtMx a then (scaledElem a scale x).shift ((scale : Int) - 127) else decodeElem (twA d) 0 x
  (v, if fmtMx a ∧ scale = 0xFF then fScaleNan ||| fNanIn else if v.isNan then fNanIn else 0)

/-- One row of CONVERT or ROW_SCALE. A value that left its input format, by a scale, comes from no format (`0x10`).
[DEDUCED: log 15] -/
def Chip.convertRow (c : Chip) (o : OpRun) (r : Nat) : Chip × OpRun × Nat :=
  let d := o.raw
  let n := Tw.cols d
  let blocks := ceilDiv n 32
  let mxIn := fmtMx (Desc.fmtA d)
  let scale := fun j => if mxIn then c.twAt o (twSlot d 1) (r * blocks + j / 32) else 127
  let k := f32val (c.twAt o (twSlot d (if mxIn then 2 else 1)) r)
  let xs := (List.range n).zip (c.twRow o (twSlot d 0) r n)
  let vals := xs.map (fun p =>
    let v := convertIn d (scale p.1) p.2
    if Tw.func d = 1 then (let y := fin32 [v.1, k] (v.1.mul k); (p.1, y.1, v.2 ||| y.2)) else (p.1, v.1, v.2))
  let o := vals.foldl (fun o v => o.flag v.2.2) o
  let gen := fun j => (r * n + j) % 1024
  let out := twSlot d 5
  if fmtMx (Desc.fmtOut d) then
    let e := o.emitRow (Desc.fmtOut d) (vals.map (fun v => (gen v.1, 0x10, v.2.1)))
    let w := c.twPoke e.1 out.store (out.place.row r) e.2.1
    if w.2 != 0 then (w.1, e.1, w.2)
    else
      let s := twSlot d 4
      let w2 := w.1.twPoke e.1 s.store (s.place.off + r * blocks) e.2.2
      (w2.1, e.1, w2.2)
  else
    let src := if Tw.func d = 1 then 0xC else if mxIn then 0x10 else twA d
    let q := vals.foldl (fun (s : OpRun × List Nat) v =>
      let x := s.1.conv src (twO d) (gen v.1) v.2.1 (Desc.sat d) (radixIn d) (radixOut d)
      (x.1, x.2 :: s.2)) (o, [])
    let w := c.twPoke q.1 out.store (out.place.row r) (packElems (fmtWidth (twO d)) q.2.reverse)
    (w.1, q.1, w.2)

/-- CONVERT (R244, R245). -/
def execConvert (cluster stalls : Nat) (ecc : EccFinding) (s : State) : Host.Outcome State Fault Refusal :=
  s.run Parts.tile (fun c => c.twOp cluster 0x0B stalls ecc (fun c o r => c.convertRow o r))

/-! ## LAYOUT (R244) -/

/-- An element of S0 as an output value: an integer in integer arithmetic, FP32 otherwise. -/
def layoutVal (d code x : Nat) : TwOut :=
  if twInt d then .int ((decodeElem code 0 x).truncInt, 0)
  else let v := twVal code x; .flt (v, if v.isNan then fNanIn else 0)

/-- Elements of row `i` of S0. -/
def Chip.layoutRow (c : Chip) (o : OpRun) (i : Nat) : List TwOut :=
  let s := twSlot o.raw 0
  (c.twRow o s i (Tw.cols o.raw)).map (layoutVal o.raw s.code)

/-- The sum of two output values, saturating or rounded once. -/
def TwOut.plus (a b : TwOut) : TwOut :=
  if a.src = 0x3 then (let s := elemI32 (a.val.truncInt + b.val.truncInt); .int (s.1, a.flags ||| b.flags ||| s.2))
  else (let s := fin32 [a.val, b.val] (a.val.add b.val); .flt (s.1, a.flags ||| b.flags ||| s.2))

/-- What SCATTER_ROWS and SCATTER_ADD_ROWS write to a target row: of duplicates the highest row, or their sum in increasing row.
None for a row that no index names. -/
def Chip.scattered (c : Chip) (o : OpRun) (t : Int) : Option (List TwOut) :=
  let rows := ((List.range (Tw.rows o.raw)).filter (fun k => c.rowIndex o k == t)).map (fun k => c.layoutRow o k)
  if Tw.func o.raw = 2 then rows.getLast?
  else match rows with | [] => none | x :: xs => some (xs.foldl (zip2 TwOut.plus) x)

/-- An output element by its flat index, where an operation writes its elements out of that order: TRANSPOSE and the scatters.
[DEDUCED: log 22] -/
def Chip.layoutElem (c : Chip) (o : OpRun) (f : Nat) : Option TwOut :=
  let d := o.raw
  if Tw.func d = 0 then (c.layoutRow o (f % Tw.rows d))[f / Tw.rows d]?
  else
    let t := f / Tw.cols d
    if scatterLands d t then (c.scattered o t).bind (·[f % Tw.cols d]?) else none

/-- An operation with generator `f mod 1024` as the conversions of the elements before flat index `f` leave it, whenever those are
written (R53). [DEDUCED: log 22] -/
def Chip.seekGen (c : Chip) (o : OpRun) (f : Nat) : OpRun :=
  if Desc.rnd o.raw != 2 then o
  else
    let j := f % 1024
    let code := twO o.raw
    let g := (List.range (f / 1024)).foldl (fun g k =>
      match c.layoutElem o (j + 1024 * k) with
      | some x => if fixedConv code 0 x.src 0 x.val then g else xorshift g
      | none => g) (genSeed (Desc.seed o.raw) j)
    { o with gens := Table.put o.gens j g }

/-- A target row of a scatter written, each element under its own turn of its generator. -/
def Chip.scatterPut (c : Chip) (o : OpRun) (t : Int) (xs : List TwOut) : Chip × OpRun × Nat :=
  let d := o.raw
  let s := twSlot d 5
  if scatterLands d t then
    let v := xs.zipIdx.foldl (fun (u : OpRun × List Nat) x =>
      let f := t.toNat * xs.length + x.2
      let q := (c.seekGen u.1 f).convOuts s.code f [x.1]
      (q.1, u.2 ++ q.2)) (o, [])
    let w := c.twPoke v.1 s.store (s.place.row t.toNat) (packElems (fmtWidth s.code) v.2)
    (w.1, v.1, w.2)
  else (c, o, St.OK)

/-- Column `r` of TRANSPOSE's output: row `r` of S0, one element in each output row. -/
def Chip.transposeRow (c : Chip) (o : OpRun) (r : Nat) : Chip × OpRun × Nat :=
  let s := twSlot o.raw 5
  let from0 := c
  ((List.range (Tw.cols o.raw)).zip (c.layoutRow o r)).foldl (fun (t : Chip × OpRun × Nat) p =>
    if t.2.2 != 0 then t
    else
      let f := p.1 * Tw.rows o.raw + r
      let v := (from0.seekGen t.2.1 f).convOuts s.code f [p.2]
      let q := t.1.twPack v.1 s (s.place.row p.1) r v.2
      (q.1, v.1, q.2)) (c, o, St.OK)

/-- One row of LAYOUT. -/
def Chip.layoutOp (c : Chip) (o : OpRun) (r : Nat) : Chip × OpRun × Nat :=
  let d := o.raw
  let n := Tw.cols d
  let out := twSlot d 5
  let zero := layoutVal d 0x3 0
  match Tw.func d with
  | 0 => c.transposeRow o r
  | 1 =>
    let i := c.rowIndex o r
    if 0 ≤ i ∧ i < Tw.imm d then c.twPutRow o out r (c.layoutRow o i.toNat)
    else c.twPutRow { o with info1 := o.info1 + 1 } out r ((List.range n).map (fun _ => zero))
  | 2 | 3 =>
    let t := c.rowIndex o r
    if c.laterTarget o r then (c, o, St.OK) else c.scatterPut o t ((c.scattered o t).getD [])
  | 4 => c.twPutRow o out r ((List.range n).map (fun _ => .flt (immVal d, 0)))
  | 5 => c.twPutRow o out r ((List.range n).map (fun j =>
      if twInt d then .int (elemI32 (r * n + j : Nat)) else .flt (fin32 [] (.ofNat (r * n + j)))))
  | _ =>
    let xs := c.layoutRow o r
    c.twPutRow o out r (((List.range n).zip xs).map (fun p => if p.1 < Tw.imm d then p.2 else zero))

/-- LAYOUT (R244). [DESIGN CHOICE: log 20] -/
def execLayout (cluster stalls : Nat) (ecc : EccFinding) (s : State) : Host.Outcome State Fault Refusal :=
  s.run Parts.tile (fun c => c.twOp cluster 0x0C stalls ecc (fun c o r => c.layoutOp o r))

/-! ## ROPE (R244) -/

/-- The partner of an element in a rotation: its index, and whether the element is the first of its pair. -/
def ropePartner (half : Bool) (n j : Nat) : Nat × Bool :=
  if half then (if j < n / 2 then (j + n / 2, true) else (j - n / 2, false))
  else (if j % 2 = 0 then (j + 1, true) else (j - 1, false))

/-- The rotation of a row by `cos` and `sin`, forward or by the transposed matrix. An element without a partner has a free
value in its place. -/
def ropeRow (half back : Bool) (free : Num) (xs cs ss : List Num) : List TwOut :=
  (List.range xs.length).map (fun j =>
    let p := ropePartner half xs.length j
    let x := xs.getD j Num.zero; let y := xs.getD p.1 free
    let cj := cs.getD j Num.zero
    let s := if back then ss.getD p.1 (ss.getD j Num.zero) else ss.getD j Num.zero
    let t := s.mul y
    .flt (fin32 [x, y, cj, s] ((cj.mul x).add (if p.2 != back then t.neg else t))))

/-- One row of ROPE. -/
def Chip.ropeOp (c : Chip) (o : OpRun) (r : Nat) : Chip × OpRun × Nat :=
  let d := o.raw
  let f := c.freshId
  c.twPutRow o (twSlot d 5) r (ropeRow (Tw.func d == 1) false (f32val (Config.freeWord f.1).toNat)
    (c.twNums o (twSlot d 0) r) (c.twNums o (twSlot d 1) r) (c.twNums o (twSlot d 2) r))
    |> fun p => (if Tw.cols d % 2 = 1 then { p.1 with fresh := f.2.fresh } else p.1, p.2)

/-- ROPE (R244). [DESIGN CHOICE: log 19] -/
def execRope (cluster stalls : Nat) (ecc : EccFinding) (s : State) : Host.Outcome State Fault Refusal :=
  s.run Parts.tile (fun c => c.twOp cluster 0x0D stalls ecc (fun c o r => c.ropeOp o r))

/-! ## LOSS (R244, R249) -/

/-- One row of LOSS. A target outside the row leaves XENT_FWD's result open: a free value. -/
def Chip.lossRow (c : Chip) (o : OpRun) (r : Nat) : Chip × OpRun × Nat :=
  let d := o.raw
  let xs := c.twNums o (twSlot d 0) r
  let imm := immVal d
  if Tw.func d = 2 then
    c.twPutRow o (twSlot d 5) r (zip2 (fun x y => .flt (fin32 [imm, x, y] (imm.mul (x.sub y)))) xs (c.twNums o (twSlot d 1) r))
  else
    let t := c.rowIndex o r
    if Tw.func d = 0 then
      let l := logSumExp xs o.mirror
      if 0 ≤ t ∧ t < xs.length then
        let x := xs.getD t.toNat Num.zero
        let v := fin32 [l.1, x] (l.1.sub x)
        c.twPutAt o (twSlot d 5) r [.flt (v.1, v.2 ||| l.2)]
      else
        let f := c.freshId
        f.2.twPutAt o (twSlot d 5) r [.flt (f32val (Config.freeWord f.1).toNat, l.2)]
    else
      let l := softLines (.ofNat 1) xs (xs.map (fun _ => true)) o.mirror
      c.twPutRow o (twSlot d 5) r (((List.range xs.length).zip l.e).map (fun p =>
        let y := fin32 [p.2, l.z] (p.2.div l.z)
        let v := fin32 [imm, y.1] (imm.mul (y.1.sub (numOf (decide ((p.1 : Int) = t)))))
        .flt (v.1, v.2 ||| y.2 ||| l.flags)))

/-- LOSS (R244). [DESIGN CHOICE: log 20] -/
def execLoss (cluster stalls : Nat) (ecc : EccFinding) (s : State) : Host.Outcome State Fault Refusal :=
  s.run Parts.tile (fun c => c.twOp cluster 0x0E stalls ecc (fun c o r => c.lossRow o r))

/-! ## BACKWARD (R244, R247) -/

/-- An elementwise BACKWARD function: the forward input (or output, for SIGMOID and TANH) and the upstream gradient. -/
def backwardF (f : Nat) (imm x g : Num) (dv : Bool := false) : Num × Flags :=
  let one := Num.ofNat 1
  match f with
  | 0 => fin32 [x, g] (if x.isNan then x else g.mul (numOf (Num.lt Num.zero x)))
  | 1 => fnGatedBwd (diverseKey dv 33) fxSiluD x g
  | 2 => fnGatedBwd (diverseKey dv 34) fxGeluTanhD x g
  | 3 => fnGatedBwd (diverseKey dv 35) fxGeluErfD x g
  | 4 => fin32 [x, g] (g.mul (x.mul (one.sub x)))
  | 5 => fin32 [x, g] (g.mul (one.sub (x.mul x)))
  | _ => fin32 [x, g, imm] (if x.isNan then x else g.mul (if Num.lt x Num.zero then imm else one))

/-- The exact sum of a list. -/
def exactSum (xs : List Num) : Num := xs.foldl Num.add Num.zero

/-- A row BACKWARD function: the exact derivative of the forward lines, rounded once. -/
def backwardRowF (f : Nat) (eps : Num) (xs gs hs : List Num) : List TwOut :=
  let n := countNum xs
  let one := Num.ofNat 1
  match f with
  | 6 =>
    let s := exactSum (zip2 Num.mul gs xs)
    zip2 (fun y g => .flt (fin32 [y, g, s] (y.mul (g.sub s)))) xs gs
  | 7 =>
    let q := (exactSum (zip2 Num.mul xs xs)).div n
    let r := one.div (q.add eps).sqrt
    let s := exactSum (zip3 (fun x g h => (g.mul h).mul x) xs gs hs)
    let k := (((r.mul r).mul r).mul s).div n
    zip3 (fun x g h => .flt (fin32 [x, g, h] ((r.mul (g.mul h)).sub (x.mul k)))) xs gs hs
  | 8 =>
    let mu := (exactSum xs).div n
    let ds := xs.map (fun x => x.sub mu)
    let r := one.div (((exactSum (zip2 Num.mul ds ds)).div n).add eps).sqrt
    let gh := zip2 Num.mul gs hs
    let m := (exactSum gh).div n
    let k := (((r.mul r).mul (exactSum (zip2 Num.mul gh ds))).div n)
    zip2 (fun dv p => .flt (fin32 [dv, p] (r.mul ((p.sub m).sub (dv.mul k))))) ds gh
  | _ =>
    let s := exactSum (zip2 Num.mul hs hs)
    let norm := (ieeeMax s eps).sqrt
    let dot := if Num.lt s eps then Num.zero else exactSum (zip2 Num.mul xs gs)
    zip2 (fun y g => .flt (fin32 [y, g, dot, norm] ((g.sub (y.mul dot)).div norm))) xs gs

/-- One row of BACKWARD. -/
def Chip.backwardRow (c : Chip) (o : OpRun) (r : Nat) : Chip × OpRun × Nat :=
  let d := o.raw
  let f := Tw.func d
  let gs := c.twNums o (twSlot d 1) r
  if f = 9 then
    let id := c.freshId
    let p := c.twPutRow o (twSlot d 5) r (ropeRow Config.ropeBwdHalf true (f32val (Config.freeWord id.1).toNat) gs
      (c.twNums o (twSlot d 2) r) (c.twNums o (twSlot d 3) r))
    (if Tw.cols d % 2 = 1 then { p.1 with fresh := id.2.fresh } else p.1, p.2)
  else
    let xs := c.twNums o (twSlot d 0) r
    c.twPutRow o (twSlot d 5) r
      (if f = 6 ∨ f = 7 ∨ f = 8 ∨ f = 10 then backwardRowF f (immVal d) xs gs (c.twNums o (twSlot d 2) r)
       else zip2 (fun x g => .flt (backwardF f (immVal d) x g o.mirror)) xs gs)

/-- BACKWARD (R244). [DESIGN CHOICE: log 19; DEDUCED: log 21] -/
def execBackward (cluster stalls : Nat) (ecc : EccFinding) (s : State) : Host.Outcome State Fault Refusal :=
  s.run Parts.tile (fun c => c.twOp cluster 0x0F stalls ecc (fun c o r => c.backwardRow o r))

/-! ## STATS (R244) -/

/-- One row of STATS. -/
def Chip.statsRow (c : Chip) (o : OpRun) (r : Nat) : Chip × OpRun × Nat :=
  let d := o.raw
  let out := twSlot d 5
  match Tw.func d with
  | 0 =>
    let xs := c.twInts o (twSlot d 0) r
    c.twPutAt o out (r * 256) ((List.range 256).map (fun (k : Nat) => .int (satI32 (xs.filter (fun x => x == (k : Int))).length)))
  | 1 =>
    let xs := c.twNums o (twSlot d 0) r
    let p := meanLines xs o.mirror
    let q := meanSquare (valsOf p.2) o.mirror
    c.twPutAt o out (r * 2) [.flt (p.1.1, p.1.2 ||| nanFlag xs), .flt (q.1, q.2 ||| flagsOf p.2)]
  | _ =>
    if twInt d then
      let xs := c.twInts o (twSlot d 0) r
      c.twPutAt o out (r * 2) [.int (intMin xs, 0), .int (intMax xs, 0)]
    else
      let xs := c.twNums o (twSlot d 0) r
      c.twPutAt o out (r * 2) [.flt (rowMin xs, nanFlag xs), .flt (rowMax xs, nanFlag xs)]

/-- STATS (R244). [DEDUCED: log 21] -/
def execStats (cluster stalls : Nat) (ecc : EccFinding) (s : State) : Host.Outcome State Fault Refusal :=
  s.run Parts.tile (fun c => c.twOp cluster 0x10 stalls ecc (fun c o r => c.statsRow o r))

/-! ## SHADOW_SCAN (R256) -/

/-- One step of a record on the shadow image: every state by R184, without the conversion to STATE_FMT. -/
def Chip.shadowStep (c : Chip) (r : ScanRec) (s : Scb) (t : Nat) (o : OpRun) : Chip × OpRun × Nat :=
  let d := o.raw
  let image := Tw.off d 1
  s.cells.foldl (fun (u : Chip × OpRun × Nat) p =>
    if u.2.2 != 0 then u
    else
      let n := p.1; let col := p.2
      let h := col / s.headCols
      let a := image + s.imageOff n col
      let prev := if u.1.resetBit r t then Num.zero else f32val (u.1.peekNat a 4)
      let v := scanCell prev (u.1.scanDecay d r s t h n col) (u.1.scanB d r s t h n) (u.1.scanX d r t col)
      let w := u.1.devWrite a (leBytes 4 (f32bits v.1))
      (w.1, u.2.1.flag v.2, w.2)) (c, o, St.OK)

/-- Record `k` of SHADOW_SCAN: its inputs read, its steps applied; INFO1 counts them. -/
def Chip.shadowRecord (c : Chip) (o : OpRun) (k : Nat) : Chip × OpRun × Nat :=
  let d := o.raw
  let r := c.scanRecAt d k
  let s := c.scbAt r.scb
  let rows := fun (x : Strided) => (List.range x.rows).map (fun t => (x.row t, x.len))
  let q := c.touchReads ((Tw.off d 1, s.pin.imageBytes) ::
    (rows r.resetRange ++ rows (r.rowRange d s) ++ rows (r.colRange d s) ++ rows (r.decayRange d s)))
  if q.2 != 0 then (q.1.invalidate [(Tw.off d 1, s.pin.imageBytes)], o, q.2)
  else
    let u := (List.range r.len).foldl (fun (u : Chip × OpRun × Nat) t =>
      if u.2.2 != 0 then u else u.1.shadowStep r s t u.2.1) (q.1, o, St.OK)
    if u.2.2 != 0 then (u.1.invalidate [(Tw.off d 1, s.pin.imageBytes)], u.2.1, u.2.2)
    else (u.1, { u.2.1 with info1 := u.2.1.info1 + r.len }, St.OK)

/-- SHADOW_SCAN (R256): each tile is one record. -/
def execShadowScan (cluster stalls : Nat) (ecc : EccFinding) (s : State) : Host.Outcome State Fault Refusal :=
  s.run Parts.tile (fun c => c.twOp cluster 0x11 stalls ecc (fun c o r => c.shadowRecord o r))

/-! ## VMATMUL (R258) -/

/-- The scale byte of block `blk` of row or column `i`: 127 for an operand without MX. -/
def Chip.vmScale (c : Chip) (o : OpRun) (n fmt i blk : Nat) : Nat :=
  let k := bits (Tw.imm o.raw) 0 16
  if fmtMx fmt then c.twAt o (twSlot o.raw n) (i * ceilDiv k 32 + blk) else 127

/-- One row of VMATMUL. -/
def Chip.vmatmulRow (c : Chip) (o : OpRun) (r : Nat) : Chip × OpRun × Nat :=
  let d := o.raw
  let k := bits (Tw.imm d) 0 16
  let fa := Desc.fmtA d; let fb := Desc.fmtB d
  let arow := c.twRow o (twSlot d 0) r k
  let b := (List.range k).map (fun i => c.twRow o (twSlot d 1) i (Tw.cols d))
  let bAt := fun i j => (b.getD i []).getD j 0
  let cAt := fun j => decodeElem (twC d) 0 ((c.twRow o (twSlot d 2) r (Tw.cols d)).getD j 0)
  let withC := Desc.fmtC d != 0
  c.twPutRow o (twSlot d 5) r ((List.range (Tw.cols d)).map (fun j =>
    if damaskInt fa then
      let s := intSum ((List.range k).map (fun i =>
        (decodeElem (twA d) 0 (arow.getD i 0)).truncInt * (decodeElem (twB d) 0 (bAt i j)).truncInt))
      if withC then (let t := satI32 (s.1 + (cAt j).truncInt); .int (t.1, s.2 ||| t.2)) else .int s
    else
      let ps := (List.range k).map (fun i =>
        let sa := c.vmScale o 3 fa r (i / 32); let sb := c.vmScale o 4 fb j (i / 32)
        let bad := sa == 0xFF || sb == 0xFF
        let x := decodeElem (twA d) 0 (arow.getD i 0); let y := decodeElem (twB d) 0 (bAt i j)
        let lift : Int := (if fmtMx fa && twA d == 1 then -6 else 0) + (if fmtMx fb && twB d == 1 then -6 else 0)
        if bad then (Num.nan, fScaleNan ||| fNanIn)
        else fin32 [x, y] ((x.mul y).shift ((sa : Int) + sb - 254 + lift)))
      let s := tree64 (Num.zero, (0 : Flags)) sumStep sumStep ps
      if withC then (let t := fin32 [s.1, cAt j] (s.1.add (cAt j)); .flt (t.1, s.2 ||| t.2)) else .flt s))

/-- VMATMUL (R258). -/
def execVmatmul (cluster stalls : Nat) (ecc : EccFinding) (s : State) : Host.Outcome State Fault Refusal :=
  s.run Parts.tile (fun c => c.twOp cluster 0x12 stalls ecc (fun c o r => c.vmatmulRow o r))

end Sys2Proof.Machine
end

