-- ==== Sys2Proof/Machine/Atu.lean ====
section
/-!
DEFINITION. The attention unit (chapter 07): sequence descriptors and their commands, the free-frame FIFO, appends and
flushes, the walk, ATTN_DECODE and ATTN_PREFILL, held operations.
-/
namespace Sys2Proof.Machine

/-! ## Profiles, frames and descriptors (R199 to R209) -/

/-- HEAD_DIM, KV heads, element code and width of profile `n` (R199). -/
def Chip.kvDim (c : Chip) (n : Nat) : Nat := 64 <<< c.rd R.ATU_KVCFG_HEAD_DIM n
def Chip.kvHeads (c : Chip) (n : Nat) : Nat := c.rd R.ATU_KVCFG_HKV_M1 n + 1
def Chip.kvCode (c : Chip) (n : Nat) : Nat := c.rd R.ATU_KVCFG_FORMAT n
def Chip.kvElem (c : Chip) (n : Nat) : Nat := fmtWidth (c.kvCode n) / 8

/-- Frame size. -/
def Chip.frameSize (c : Chip) : Nat := 2 ^ (12 + c.rd R.ATU_CTRL_FRAME_SHIFT)

/-- Bytes of one row, of one block of 16 rows, and of a page (R199, R200). -/
def Chip.kvRow (c : Chip) (n : Nat) : Nat := c.kvDim n * c.kvElem n
def Chip.kvBlock (c : Chip) (n : Nat) : Nat := 16 * c.kvRow n
def Chip.pageBytes (c : Chip) (n : Nat) : Nat := c.kvHeads n * 2 * c.kvBlock n

/-- Whether a profile is valid (R199). -/
def Chip.profileOk (c : Chip) (n : Nat) : Bool :=
  c.on R.ATU_KVCFG_VALID n && c.rd R.ATU_KVCFG_HEAD_DIM n != 3 && [0x8, 0x9, 0xA, 0xB].contains (c.kvCode n) &&
  decide (c.pageBytes n ≤ c.frameSize)

namespace Seq
def valid (d : Nat) : Bool := d.testBit 0
def lock (d : Nat) : Bool := d.testBit 1
def held (d : Nat) : Bool := d.testBit 2
def profile (d : Nat) : Nat := bits d 3 2
def layers (d : Nat) : Nat := bits d 16 8 + 1
def listAddr (d : Nat) : Nat := bits d 32 40
def listCap (d : Nat) : Nat := bits d 72 16
def stateAddr (d : Nat) : Nat := bits d 96 40
def stageAddr (d : Nat) : Nat := bits d 136 40
def changes (d : Nat) : Nat := bits d 224 32
end Seq

/-- Sequence descriptor `n`, and the same replaced. -/
def Chip.seq (c : Chip) (n : Nat) : Nat := c.rd R.ATU_SEQ_DESCRIPTOR n
def Chip.setSeq (c : Chip) (n v : Nat) : Chip := c.wr R.ATU_SEQ_DESCRIPTOR v n

/-- One bit of a descriptor: LOCK (1) or HELD (2). -/
def Chip.seqBit (c : Chip) (n bit : Nat) (v : Bool) : Chip := c.setSeq n (setBits (c.seq n) bit 1 (b2n v))

/-- The bits of a descriptor that exist (R208). -/
def seqMask (v : Nat) : Nat :=
  setBits (setBits (setBits (setBits (bits v 0 256) 5 11 0) 24 8 0) 88 8 0) 176 16 0

/-- The page-frame table entry of a frame: address in Muslin (R202). -/
def Chip.frameEntry (c : Chip) (f : Nat) : Nat :=
  c.rd R.ATU_PFT_BASE_LO_ADDR_LO + (c.rd R.ATU_PFT_BASE_HI_ADDR_HI <<< 32) + 8 * f

/-- Fields of a page-frame table entry. -/
def frameAddr (e : Nat) : Nat := bits e 0 28 <<< 12
def frameGen (e : Nat) : Nat := bits e 28 8
def frameState (e : Nat) : Nat := bits e 36 2

/-- A little-endian value read through a device address. -/
def Chip.devNat (c : Chip) (a n : Nat) : Chip × Nat × Nat := let r := c.devRead a n; (r.1, r.2.1, leNat r.2.2)

/-! ## Commands (R213, R214) -/

/-- A command of R213: it completes at once with a status, unless a fence is in progress. -/
def Chip.atuCmd (c : Chip) (f : Chip → Chip × Nat) : Chip :=
  if c.on R.ATU_CMD_STATUS_BUSY then c else let r := f c; r.1.wr R.ATU_CMD_STATUS_STATUS r.2

/-- Operand word `n` of a command. -/
def Chip.atuData (c : Chip) (n : Nat) : Nat := c.rd R.ATU_CMD_DATA_DATA n

/-- Whether an address is aligned and lies in Muslin or DRAM. -/
def Chip.kvAddrOk (c : Chip) (a align : Nat) : Bool := a % align == 0 && c.validRange [0, 8] a 1

/-- KV_WRITE (R213). -/
def execKvWrite (seq : Nat) (s : State) : Host.Outcome State Fault Refusal :=
  s.runHost [.regs] (fun c => c.atuCmd (fun c =>
    let seq := seq % 2048
    let v := seqMask ((List.range 16).foldl (fun a k => a + (c.atuData k <<< (32 * k))) 0)
    if Seq.lock (c.seq seq) then (c, St.KV_LIST_BUSY)
    else if Seq.valid v && !(c.kvAddrOk (Seq.listAddr v) 64 && c.kvAddrOk (Seq.stateAddr v) 64 &&
        c.kvAddrOk (Seq.stageAddr v) c.frameSize) then (c, St.KV_BAD_PARAM)
    else (c.setSeq seq (setBits v 1 2 0), St.OK)))

/-- KV_SWAP (R213). -/
def execKvSwap (seq : Nat) (s : State) : Host.Outcome State Fault Refusal :=
  s.runHost [.regs] (fun c => c.atuCmd (fun c =>
    let seq := seq % 2048
    let d := c.seq seq
    let list := bits (c.atuData 0 + (c.atuData 1 <<< 32)) 0 40
    let st := bits (c.atuData 4 + (c.atuData 5 <<< 32)) 0 40
    if Seq.lock d then (c, St.KV_LIST_BUSY)
    else if !Seq.valid d then (c, St.KV_BAD_SEQ)
    else if Seq.changes d != c.atuData 6 then (c, St.KV_LIST_STALE)
    else if !(c.kvAddrOk list 64 && c.kvAddrOk st 64) then (c, St.KV_BAD_PARAM)
    else (c.setSeq seq (setBits (setBits (setBits d 32 40 list) 72 16 (c.atuData 2)) 96 40 st), St.OK)))

/-- KV_INVALIDATE (R213). -/
def execKvInvalidate (seq : Nat) (s : State) : Host.Outcome State Fault Refusal :=
  s.runHost [.regs] (fun c => c.atuCmd (fun c =>
    let seq := seq % 2048
    if Seq.lock (c.seq seq) then (c, St.KV_LIST_BUSY) else (c.seqBit seq 0 false, St.OK)))

/-- KV_CLEAR_HELD (R213). -/
def execKvClearHeld (seq : Nat) (s : State) : Host.Outcome State Fault Refusal :=
  s.runHost [.regs] (fun c => c.atuCmd (fun c =>
    let seq := seq % 2048
    if Seq.lock (c.seq seq) then (c, St.KV_LIST_BUSY) else (c.seqBit seq 2 false, St.OK)))

/-- The tile whose page fetches are under way. -/
def Chip.atuTile (c : Chip) : Option (Nat × Nat × Nat) :=
  match c.op? 1 with
  | some o => if o.tileReady then some (o.weave, o.index, o.tiles) else none
  | none => none

/-- KV_FENCE (R204): BUSY until the page fetches that began before have completed. -/
def execKvFence (s : State) : Host.Outcome State Fault Refusal :=
  s.runHost [.regs, .atu] (fun c =>
    if c.on R.ATU_CMD_STATUS_BUSY then c
    else { c.wr R.ATU_CMD_STATUS_BUSY 1 with atu := { c.atu with fence := some c.atuTile } })

/-- KV_FENCE_DONE (R204): the fence ends once the tile it waited for has ended. -/
def execKvFenceDone (s : State) : Host.Outcome State Fault Refusal :=
  s.run [.regs, .atu] (fun c =>
    match c.atu.fence with
    | none => c
    | some t =>
      if t.isSome && c.atuTile == t then c
      else
        let c := (c.wr R.ATU_CMD_STATUS_BUSY 0).wr R.ATU_CMD_STATUS_STATUS St.OK
        { c with atu := { c.atu with fence := none } })

/-! ## The free-frame FIFO (R205 to R207) -/

/-- LEVEL follows the FIFO; falling below LOW_MARK sets FREE_LOW and raises the ATU event. -/
def Chip.setFifo (c : Chip) (l : List Nat) : Chip :=
  let low := c.rd R.ATU_FREE_LEVEL_LOW_MARK
  let falls := decide (l.length < low) && decide (low ≤ c.atu.fifo.length)
  let c := { c with atu := { c.atu with fifo := l } }
  let c := c.wr R.ATU_FREE_LEVEL_LEVEL l.length
  if falls then (c.latch R.ATU_STATUS_FREE_LOW).raise 5 else c

/-- A page-frame table entry's GEN and STATE written. -/
def Chip.putFrame (c : Chip) (f e gen st : Nat) : Chip × Nat :=
  c.devWrite (c.frameEntry f) (leBytes 8 (setBits (setBits e 28 8 gen) 36 2 st))

/-- ATU_FREE_PUSH (R205). -/
def execAtuFreePush (frame : BitVec 17) (s : State) : Host.Outcome State Fault Refusal :=
  s.runHost [.regs, .muslin, .msl, .drc, .atu, .sent] (fun c =>
    let f := frame.toNat
    let r := c.devNat (c.frameEntry f) 8
    if decide (c.atu.fifo.length < 8192) && r.2.1 == 0 && frameState r.2.2 == 1 then
      let w := r.1.putFrame f r.2.2 (frameGen r.2.2) 0
      w.1.setFifo (w.1.atu.fifo ++ [f])
    else (r.1.latch R.ATU_STATUS_PUSH_REFUSED).count R.ATU_FREE_BAD_CNT_PUSHES)

/-- A frame taken from the FIFO: its number and new generation, or the status that no frame gives (R206). -/
def Chip.takeFrame (c : Chip) : Nat → Chip × Nat × Nat × Nat
  | 0 => (c, St.KV_NO_FRAME, 0, 0)
  | n + 1 =>
    match c.atu.fifo with
    | [] => (c, St.KV_NO_FRAME, 0, 0)
    | f :: rest =>
      let r := (c.setFifo rest).devNat (c.frameEntry f) 8
      if r.2.1 != 0 then (r.1, r.2.1, 0, 0)
      else if frameState r.2.2 != 0 then
        Chip.takeFrame ((r.1.latch R.ATU_STATUS_BAD_POP).count R.ATU_FREE_BAD_CNT_POPS) n
      else
        let g := (frameGen r.2.2 + 1) % 256
        let w := r.1.putFrame f r.2.2 g 1
        (w.1, w.2, f, g)

/-! ## Appends and flushes (R225 to R229) -/

/-- A layer of a sequence: descriptor number, layer. -/
structure KvRef where
  seq : Nat
  layer : Nat
  deriving DecidableEq, Repr

/-- Addresses of a layer's list, state word and staging slot (R209). -/
def Chip.listOf (c : Chip) (k : KvRef) : Nat := let d := c.seq k.seq; Seq.listAddr d + 4 * k.layer * Seq.listCap d
def Chip.stateOf (c : Chip) (k : KvRef) : Nat := Seq.stateAddr (c.seq k.seq) + 8 * k.layer
def Chip.stageOf (c : Chip) (k : KvRef) : Nat := Seq.stageAddr (c.seq k.seq) + k.layer * c.frameSize
def Chip.prof (c : Chip) (k : KvRef) : Nat := Seq.profile (c.seq k.seq)

/-- The state word (R209). -/
def stPages (w : Nat) : Nat := bits w 0 17
def stStaged (w : Nat) : Nat := bits w 17 5
def stPending (w : Nat) : Bool := w.testBit 22
def mkState (pages staged : Nat) (pending : Bool) : Nat := pages + (staged <<< 17) + (b2n pending <<< 22)

/-- A list entry (R210). -/
def mkEntry (frame gen : Nat) : Nat := frame + 2 ^ 17 + (gen <<< 24)

/-- Steps that may fail, in order: the first status that is not OK stops the rest. -/
def Chip.andThen (r : Chip × Nat) (f : Chip → Chip × Nat) : Chip × Nat := if r.2 != 0 then r else f r.1

/-- A page of bytes put into a taken frame, with its list entry and then its state word (R225). -/
def Chip.commitPage (c : Chip) (k : KvRef) (pages : Nat) (data : List Byte) (staged : Nat) : Chip × Nat :=
  if Seq.listCap (c.seq k.seq) ≤ pages then (c.latch R.ATU_STATUS_NO_FRAME, St.KV_LIST_FULL)
  else
    let t := c.takeFrame 8193
    if t.2.1 != 0 then (if t.2.1 = St.KV_NO_FRAME then t.1.latch R.ATU_STATUS_NO_FRAME else t.1, t.2.1)
    else
      let f := t.2.2.1
      let e := t.1.devNat (t.1.frameEntry f) 8
      Chip.andThen (Chip.andThen (Chip.andThen (e.1, e.2.1)
        (fun c => c.devWrite (frameAddr e.2.2) data))
        (fun c => c.devWrite (c.listOf k + 4 * pages) (leBytes 4 (mkEntry f t.2.2.2))))
        (fun c =>
          let w := c.devWrite (c.stateOf k) (leBytes 8 (mkState (pages + 1) staged false))
          (w.1.count R.ATU_FLUSH_CNT_COUNT, w.2))

/-- A flush of the full staging slot (R225, R229): on want of a frame or of list room the slot stays full, pending. -/
def Chip.flush (c : Chip) (k : KvRef) (pages : Nat) : Chip × Nat :=
  let page := c.devRead (c.stageOf k) (c.pageBytes (c.prof k))
  if page.2.1 != 0 then (page.1, page.2.1)
  else
    let r := page.1.commitPage k pages page.2.2 0
    if r.2 = St.KV_NO_FRAME ∨ r.2 = St.KV_LIST_FULL then
      let w := r.1.devWrite (c.stateOf k) (leBytes 8 (mkState pages 16 true))
      (w.1, if w.2 != 0 then w.2 else r.2)
    else r

/-- CHANGES of a descriptor advances (R208). -/
def Chip.bumpChanges (c : Chip) (k : KvRef) (n : Nat) : Chip :=
  let d := c.seq k.seq
  c.setSeq k.seq (setBits d 224 32 (Seq.changes d + n))

/-- The rows of a token written into row `j` of the staging slot (R225). -/
def Chip.stageRows (c : Chip) (k : KvRef) (j : Nat) (token : List Byte) : Chip × Nat :=
  let p := c.prof k
  let row := c.kvRow p
  (List.range (2 * c.kvHeads p)).foldl (fun r b => Chip.andThen r (fun c =>
    c.devWrite (c.stageOf k + b * c.kvBlock p + j * row) ((token.drop (b * row)).take row))) (c, St.OK)

/-- One token appended (R225, R226, R229). Answers a status, and the page that a flush here has just written, plus one. -/
def Chip.appendToken (c : Chip) (k : KvRef) (token : List Byte) : Chip × Nat × Nat :=
  let w := c.devNat (c.stateOf k) 8
  if w.2.1 != 0 then (w.1, w.2.1, 0)
  else
    let first := if stStaged w.2.2 = 16 then w.1.flush k (stPages w.2.2) else (w.1, St.OK)
    if first.2 = St.KV_LIST_FULL then (first.1.seqBit k.seq 2 true, first.2, 0)
    else if first.2 != 0 then (first.1, first.2, 0)
    else
      let again := stStaged w.2.2 = 16
      let pages := if again then stPages w.2.2 + 1 else stPages w.2.2
      let j := if again then 0 else stStaged w.2.2
      let r := Chip.andThen (first.1.stageRows k j token) (fun c =>
        (c.bumpChanges k 1).devWrite (c.stateOf k) (leBytes 8 (mkState pages (j + 1) false)))
      if r.2 != 0 then (r.1, r.2, 0)
      else if j + 1 = 16 then
        let f := r.1.flush k pages
        if f.2 = St.KV_NO_FRAME ∨ f.2 = St.KV_LIST_FULL then (f.1, St.OK, 0)
        else (f.1, f.2, if f.2 = 0 then pages + 1 else 0)
      else (r.1, St.OK, if again then pages else 0)

/-! ## Parameters (R215 to R219) -/

/-- Fields ATTN_DECODE and ATTN_PREFILL share, where each keeps them. -/
structure AtuPar where
  decode : Bool
  batchOff : Nat
  batch : Nat
  seq : Nat
  layer : Nat
  group : Nat
  append : Bool
  causal : Bool
  prob : Nat
  passes : Nat
  tokens : Nat
  qOff : Nat
  kvOff : Nat
  outOff : Nat
  accOff : Nat
  scale : Nat
  deriving DecidableEq, Repr

/-- The parameter area (R216, R218). -/
def atuPar (d : Nat) : AtuPar :=
  if Desc.opcode d = 1 then
    { decode := true, batchOff := 64 * bits d 256 22, batch := bits d 278 8, seq := 0, layer := bits d 286 8,
      group := bits d 294 5, append := d.testBit 299, causal := false, prob := bits d 300 2, passes := bits d 302 8,
      tokens := 1, qOff := 0, kvOff := 0, outOff := 0, accOff := 0, scale := bits d 320 32 }
  else
    { decode := false, batchOff := 0, batch := 1, seq := bits d 256 11, layer := bits d 267 8, group := bits d 275 5,
      append := true, causal := d.testBit 280, prob := bits d 282 2, passes := bits d 284 8, tokens := bits d 292 16,
      qOff := 64 * bits d 320 22, kvOff := 64 * bits d 342 22, outOff := 64 * bits d 364 22, accOff := 64 * bits d 386 22,
      scale := bits d 416 32 }

/-- A unit of work of an operation: a batch entry (R217), or the whole of a prefill. -/
structure AtuEntry where
  seq : Nat
  active : Bool
  qOff : Nat
  kvOff : Nat
  outOff : Nat
  accOff : Nat
  deriving DecidableEq, Repr

/-- Entry `i` of an operation. -/
def Chip.atuEntry (c : Chip) (d i : Nat) : AtuEntry :=
  let p := atuPar d
  if p.decode then
    let e := c.peekNat (p.batchOff + 64 * i) 16
    ⟨bits e 0 11, e.testBit 11, 64 * bits e 32 22, 64 * bits e 54 22, 64 * bits e 76 22, 64 * bits e 98 22⟩
  else ⟨p.seq, true, p.qOff, p.kvOff, p.outOff, p.accOff⟩

/-- The active entries. [DEDUCED: log 63] -/
def Chip.atuActive (c : Chip) (d : Nat) : List AtuEntry :=
  ((List.range (atuPar d).batch).map (fun i => c.atuEntry d i)).filter (·.active)

/-- Rows of queries of one token; bytes of a query row and of an output row. -/
def Chip.atuRows (c : Chip) (d seq : Nat) : Nat := c.kvHeads (Seq.profile (c.seq seq)) * (atuPar d).group
def Chip.qRow (c : Chip) (d seq : Nat) : Nat := c.kvDim (Seq.profile (c.seq seq)) * fmtWidth (twA d) / 8
def Chip.outRow (c : Chip) (d seq : Nat) : Nat := packedBytes (fmtWidth (twO d)) (c.kvDim (Seq.profile (c.seq seq)))

/-- Tokens of a query block (R235). -/
def queryBlock (d : Nat) : Nat := 384 / (atuPar d).group

/-- Bytes of an entry's ranges: queries, new tokens, output, running state (R217, R218, R234, R235). -/
def Chip.atuRanges (c : Chip) (d : Nat) (e : AtuEntry) : List Strided × List Strided :=
  let p := atuPar d
  let pr := Seq.profile (c.seq e.seq)
  if !(Seq.valid (c.seq e.seq) && c.profileOk pr) then ([], [])
  else
    let rows := p.tokens * c.atuRows d e.seq
    let acc := (if p.decode then 1 else min (queryBlock d) p.tokens) * c.atuRows d e.seq
    ([⟨e.qOff, 0, 1, rows * c.qRow d e.seq⟩] ++
      (if p.append then [⟨e.kvOff, 0, 1, p.tokens * c.kvHeads pr * 2 * c.kvRow pr⟩] else []),
     [⟨e.outOff, 0, 1, rows * c.outRow d e.seq⟩, ⟨e.accOff, 0, 1, acc * (c.kvDim pr + 2) * 4⟩])

/-- The format check (R215). -/
def atuFormatsOk (d : Nat) : Bool :=
  let q := fun b => !fmtMx b && [0x8, 0x9, 0xA, 0xB].contains (fmtCode b)
  q (Desc.fmtA d) && q (Desc.fmtB d) && Desc.fmtC d == 0 && !fmtMx (Desc.fmtOut d) && decide (5 ≤ twO d) &&
  decide (twO d ≤ 0xC) && Desc.rnd d != 3

/-- Whether a list repeats an element. -/
def repeats : List Nat → Bool
  | [] => false
  | x :: xs => xs.contains x || repeats xs

/-- The parameter check (R219). -/
def Chip.atuParamsOk (c : Chip) (d : Nat) : Bool :=
  let p := atuPar d
  let es := c.atuActive d
  let batch : Strided := ⟨p.batchOff, 0, if p.decode then 1 else 0, 64 * p.batch⟩
  let ins := batch :: (es.map (fun e => (c.atuRanges d e).1)).foldr (· ++ ·) []
  let outs := (es.map (fun e => (c.atuRanges d e).2)).foldr (· ++ ·) []
  Desc.tileCount d == 1 && decide (1 ≤ p.group) && decide (p.group ≤ 16) && p.batch != 0 && p.tokens != 0 &&
  decide (p.tokens ≤ 16384) && p.passes != 0 && decide (p.prob ≤ 1) && !repeats (es.map (·.seq)) &&
  (ins ++ outs).all Strided.fits && !outs.any (fun o => ins.any (fun i => o.overlaps i)) &&
  !(ins.drop 1).any (fun i => batch.overlaps i)

/-- The checks of an ATU operation, in their order (R215, R219, R212). [DEDUCED: log 63] -/
def Chip.atuCheck (c : Chip) (d : Nat) : Nat :=
  let p := atuPar d
  let es := c.atuActive d
  if !atuFormatsOk d then St.FMT_UNSUPPORTED
  else if !c.atuParamsOk d then St.KV_BAD_PARAM
  else if es.any (fun e => let s := c.seq e.seq
      !(Seq.valid s && decide (p.layer < Seq.layers s) && c.profileOk (Seq.profile s))) then St.KV_BAD_SEQ
  else if es.any (fun e => c.kvCode (Seq.profile (c.seq e.seq)) != twB d) then St.FMT_UNSUPPORTED
  else if es.any (fun e => Seq.lock (c.seq e.seq)) then St.KV_LIST_BUSY
  else St.OK

/-! ## The operation's own state -/

/-- What an ATU operation carries from tile to tile: the entry and pass it is at, whether the entry has begun, the page its
append flushed (plus one), the entry's pages, tokens and status, tokens appended (prefill), the first new position, the
query block, masked stale chunks and pages over the operation, every entry's status, and the sequences whose LOCK this run holds. -/
structure AtuCtx where
  entry : Nat
  pass : Nat
  begun : Bool
  fromSlot : Nat
  pages : Nat
  tokens : Nat
  status : Nat
  appended : Nat
  p0 : Nat
  block : Nat
  stale : Nat
  fetched : Nat
  statuses : List Nat
  locks : List Nat
  deriving DecidableEq, Repr

/-- The context's words. -/
def AtuCtx.toList (x : AtuCtx) : List Nat :=
  [x.entry, x.pass, b2n x.begun, x.fromSlot, x.pages, x.tokens, x.status, x.appended, x.p0, x.block, x.stale, x.fetched,
   x.statuses.length] ++ x.statuses ++ x.locks

/-- The context of words. -/
def AtuCtx.ofList (l : List Nat) : AtuCtx :=
  let g := fun k => l.getD k 0
  ⟨g 0, g 1, g 2 != 0, g 3, g 4, g 5, g 6, g 7, g 8, g 9, g 10, g 11, (l.drop 13).take (g 12), l.drop (13 + g 12)⟩

/-- The status of a set of entries: the first of the highest class (R233). -/
def entriesStatus (l : List Nat) : Nat := l.foldl worse St.OK

/-- Entries that INFO0 counts: held, abandoned, list-full or skipped as held. -/
def entriesStuck (l : List Nat) : Nat :=
  (l.filter (fun s => [St.KV_NO_FRAME, St.KV_ABANDONED, St.KV_LIST_FULL, St.KV_SEQ_HELD].contains s)).length

/-- STATUS of batch entry `i` written, and the status of that write (R134). [DEDUCED: log 64] -/
def Chip.entryStatus (c : Chip) (d i st : Nat) : Chip × Nat :=
  let p := atuPar d
  if p.decode then c.devWrite (p.batchOff + 64 * i + 2) (leBytes 2 st) else (c, St.OK)

/-- TOKENS and PAGES_READ of batch entry `i` written, and the status of that write. [DEDUCED: log 66] -/
def Chip.entryCounts (c : Chip) (d i tokens pages : Nat) : Chip × Nat :=
  let p := atuPar d
  if p.decode then c.devWrite (p.batchOff + 64 * i + 16) (leBytes 4 tokens ++ leBytes 4 pages) else (c, St.OK)

/-! ## The walk (R221 to R224) -/

/-- A chunk of a pass: the position of its first token, how many tokens it holds, and its bytes as a number. -/
structure Chunk where
  pos : Nat
  count : Nat
  data : Nat
  deriving DecidableEq, Repr

/-- What fetching a pass gives: the chunks that are not masked, pages fetched, stale chunks, a status. -/
structure Fetched where
  chunks : List Chunk
  pages : Nat
  stale : Nat
  status : Nat
  deriving DecidableEq, Repr

/-- Chunk `i` of a layer fetched: page `i`, or the staging slot after the last page. `fromSlot` names the page, plus one,
that lies in the staging slot as well. -/
def Chip.fetchChunk (c : Chip) (k : KvRef) (pages staged fromSlot i : Nat) (f : Fetched) : Chip × Fetched :=
  let pb := c.pageBytes (c.prof k)
  if f.status != 0 then (c, f)
  else if i = pages then
    let r := c.devNat (c.stageOf k) pb
    (r.1, { f with chunks := f.chunks ++ [⟨16 * i, staged, r.2.2⟩], status := r.2.1 })
  else
    let le := c.devNat (c.listOf k + 4 * i) 4
    if le.2.1 != 0 then (le.1, { f with status := le.2.1 })
    else if !le.2.2.testBit 17 then (le.1, f)
    else
      let fe := le.1.devNat (le.1.frameEntry (bits le.2.2 0 17)) 8
      if fe.2.1 != 0 then (fe.1, { f with status := fe.2.1 })
      else if frameState fe.2.2 != 1 ∨ frameGen fe.2.2 != bits le.2.2 24 8 then
        (fe.1.count R.ATU_STALE_CNT_COUNT, { f with stale := f.stale + 1 })
      else
        let r := fe.1.devNat (if fromSlot = i + 1 then c.stageOf k else frameAddr fe.2.2) pb
        (r.1, { f with chunks := f.chunks ++ [⟨16 * i, 16, r.2.2⟩], pages := f.pages + 1, status := r.2.1 })

/-- The chunks of a layer with some pages and staged tokens (R221). -/
def chunkCount (pages staged : Nat) : Nat := pages + (if staged = 0 then 0 else 1)

/-- Pass `p` of a layer fetched. [DEDUCED: log 64] -/
def Chip.fetchPass (c : Chip) (k : KvRef) (pages staged fromSlot p : Nat) : Chip × Fetched :=
  let n := chunkCount pages staged
  ((List.range (min 16 (n - 16 * p))).map (· + 16 * p)).foldl
    (fun (s : Chip × Fetched) i => s.1.fetchChunk k pages staged fromSlot i s.2) (c, ⟨[], 0, 0, St.OK⟩)

/-- The running state of one query row (R224). -/
structure RunState where
  m : Num
  l : Num
  o : List Num
  deriving DecidableEq, Repr

/-- Its start. -/
def RunState.start (dim : Nat) : RunState := ⟨.inf true, Num.zero, List.replicate dim Num.zero⟩

/-- The FP32 words of a running state (R234), and back. -/
def RunState.bytes (r : RunState) : List Byte :=
  ((r.m :: r.l :: r.o).map (fun x => leBytes 4 (f32bits x))).foldr (· ++ ·) []
def RunState.ofNat (dim v : Nat) : RunState :=
  let w := fun k => f32val (bits v (32 * k) 32)
  ⟨w 0, w 1, (List.range dim).map (fun i => w (i + 2))⟩

/-- NAN_IN of a pass of one query row: its inputs alone set it, the scale, the query, the keys shown and every value row (R60). -/
def attendNan (scale : Num) (q : List Num) (kv : List (Bool × List Num × List Num)) : Flags :=
  if scale.isNan || q.any Num.isNan || kv.any (fun t => (t.1 && t.2.1.any Num.isNan) || t.2.2.any Num.isNan) then fNanIn else 0

/-- One pass of one query row: `q` the query, `kv` the key and value rows of each key with whether the causal rule shows it
(R224). [DEDUCED: log 65] -/
def attendPass (scale : Num) (prob : Nat) (q : List Num) (kv : List (Bool × List Num × List Num)) (r : RunState) :
    RunState × Flags :=
  let dot := fun (k : List Num) => dotFloat Num.zero q.length (fun i => q.getD i Num.zero) (fun i => k.getD i Num.zero)
  let ss := kv.map (fun t => if t.1 then (let v := dot t.2.1; let s := fin32 [scale, v.1] (scale.mul v.1); (s.1, v.2 ||| s.2))
    else (Num.zero, (0 : Flags)))
  let shown := (ss.zip kv).filterMap (fun t => if t.2.1 then some t.1.1 else none)
  if shown.isEmpty then (r, 0)
  else
    let mn := shown.foldl ieeeMax r.m
    let ex := fun (x : Num) => let d := fin32 [x, mn] (x.sub mn); let e := fnExp d.1; (e.1, d.2 ||| e.2)
    let cc := ex r.m
    let ps := (ss.zip kv).map (fun t => if t.2.1 then ex t.1.1 else (Num.zero, (0 : Flags)))
    let sum := ((ps.zip kv).filter (fun t => t.2.1)).foldl (fun (a : Num × Flags) t =>
      let s := fin32 [a.1, t.1.1] (a.1.add t.1.1); (s.1, a.2 ||| s.2)) (Num.zero, 0)
    let cl := fin32 [cc.1, r.l] (cc.1.mul r.l)
    let l := fin32 [cl.1, sum.1] (cl.1.add sum.1)
    let code := if prob = 0 then 0xA else 0x8
    let pq := (ps.zip kv).map (fun t =>
      if t.2.1 then (let v := convert code 0 0 true 0 t.1.1; (decodeElem code 0 v.1, v.2)) else (Num.zero, (0 : Flags)))
    let os := (List.range r.o.length).map (fun i =>
      let acc := dotFloat Num.zero kv.length (fun j => (pq.getD j (Num.zero, 0)).1)
        (fun j => (kv.getD j (false, [], [])).2.2.getD i Num.zero)
      let co := fin32 [cc.1, r.o.getD i Num.zero] (cc.1.mul (r.o.getD i Num.zero))
      let v := fin32 [co.1, acc.1] (co.1.add acc.1)
      (v.1, acc.2 ||| co.2 ||| v.2))
    (⟨mn, l.1, valsOf os⟩,
     ((flagsOf ss ||| cc.2 ||| flagsOf ps ||| sum.2 ||| cl.2 ||| l.2 ||| flagsOf pq ||| flagsOf os) &&& ~~~ fNanIn) |||
       attendNan scale q kv)

/-- A row of `dim` elements of a chunk's block: head `h`, K (0) or V (1), token `j`. -/
def Chip.chunkRow (c : Chip) (pr : Nat) (ch : Chunk) (h kv j : Nat) : List Num :=
  let w := fmtWidth (c.kvCode pr)
  let base := 8 * ((2 * h + kv) * c.kvBlock pr + j * c.kvRow pr)
  (List.range (c.kvDim pr)).map (fun i => decodeElem (c.kvCode pr) 0 (bits ch.data (base + w * i) w))

/-- The keys of a pass for head `h`, for a query at position `pos` under the causal rule (`none`: it sees every key). -/
def Chip.passKeys (c : Chip) (pr : Nat) (chunks : List Chunk) (h : Nat) (pos : Option Nat) :
    List (Bool × List Num × List Num) :=
  (chunks.map (fun ch => (List.range ch.count).map (fun j =>
    ((match pos with | none => true | some p => decide (ch.pos + j ≤ p)), c.chunkRow pr ch h 0 j, c.chunkRow pr ch h 1 j)))).foldr
    (· ++ ·) []

/-- The queries of tokens `t0` to `t0 + n - 1` of an entry read (R108): the status met. -/
def Chip.touchQueries (c : Chip) (d : Nat) (e : AtuEntry) (t0 n : Nat) : Chip × Nat :=
  let row := c.atuRows d e.seq * c.qRow d e.seq
  c.touchReads [(e.qOff + t0 * row, n * row)]

/-- The query row `qh` of token `t` of an entry. -/
def Chip.queryRow (c : Chip) (d : Nat) (e : AtuEntry) (t qh : Nat) : List Num :=
  let dim := c.kvDim (Seq.profile (c.seq e.seq))
  let off := e.qOff + (t * c.atuRows d e.seq + qh) * c.qRow d e.seq
  (List.range dim).map (fun i => decodeElem (twA d) 0 (c.elem off (fmtWidth (twA d)) i))

/-- The running states of an entry, or of a block of tokens: those the ATU holds within a tile (`kept`), a fresh start for the first
pass, or what the last tile wrote to ACC_OFF (R234). -/
def Chip.readAcc (c : Chip) (e : AtuEntry) (rows : Nat) (fresh : Bool) (kept : Option (List RunState)) :
    Chip × Nat × List RunState :=
  let dim := c.kvDim (Seq.profile (c.seq e.seq))
  if fresh then (c, St.OK, List.replicate rows (RunState.start dim))
  else match kept with
    | some rs => (c, St.OK, rs)
    | none =>
      let n := (dim + 2) * 4
      let r := c.devRead e.accOff (rows * n)
      (r.1, r.2.1, (List.range rows).map (fun i => RunState.ofNat dim (leNat ((r.2.2.drop (i * n)).take n))))

/-- Running states written to ACC_OFF. -/
def Chip.writeAcc (c : Chip) (e : AtuEntry) (rs : List RunState) : Chip × Nat :=
  c.devWrite e.accOff ((rs.map RunState.bytes).foldr (· ++ ·) [])

/-- One pass over a block of tokens `t0` to `t0 + n - 1`: every query row's state advanced. -/
def Chip.stepRows (c : Chip) (o : OpRun) (e : AtuEntry) (t0 : Nat) (p0 : Nat) (chunks : List Chunk) (rs : List RunState) :
    OpRun × List RunState :=
  let d := o.raw
  let p := atuPar d
  let pr := Seq.profile (c.seq e.seq)
  let per := c.atuRows d e.seq
  let r := ((List.range rs.length).zip rs).map (fun q =>
    let t := t0 + q.1 / per
    let pos := if p.causal then some (p0 + t) else none
    attendPass (f32val p.scale) p.prob (c.queryRow d e t (q.1 % per)) (c.passKeys pr chunks (q.1 % per / p.group) pos) q.2)
  (r.foldl (fun o x => o.flag x.2) o, r.map (·.1))

/-- The outputs of a block of tokens converted and written: `o[d] / l`, or `+0` where a row saw no key (R224). Answers
whether a row saw none. [DEDUCED: log 65] -/
def Chip.putOutputs (c : Chip) (o : OpRun) (e : AtuEntry) (t0 : Nat) (rs : List RunState) : Chip × OpRun × Nat × Bool :=
  let d := o.raw
  let dim := c.kvDim (Seq.profile (c.seq e.seq))
  let per := c.atuRows d e.seq
  ((List.range rs.length).zip rs).foldl (fun (s : Chip × OpRun × Nat × Bool) q =>
    if s.2.2.1 != 0 then s
    else
      let row := t0 * per + q.1
      let empty := !q.2.l.isNan && !Num.lt Num.zero q.2.l
      let xs := q.2.o.map (fun x => if empty then (Num.zero, (0 : Flags)) else (let v := fin32 [x, q.2.l] (x.div q.2.l); (v.1, v.2 &&& ~~~ fNanIn)))
      let v := s.2.1.convOuts (twO d) (row * dim) (xs.map TwOut.flt)
      let w := s.1.devWrite (e.outOff + row * c.outRow d e.seq) (packElems (fmtWidth (twO d)) v.2)
      (w.1, v.1, w.2, s.2.2.2 || empty)) (c, o, St.OK, false)

/-! ## Entries and tiles (R212, R220, R228, R234, R235) -/

/-- An operation's first tile: every sequence it names is locked, no entry is treated yet. [DEDUCED: log 63] -/
def Chip.atuBegin (c : Chip) (o : OpRun) : Chip × OpRun :=
  if o.ctx.isEmpty then
    let p := atuPar o.raw
    let locks := (c.atuActive o.raw).map (·.seq)
    let c := locks.foldl (fun c n => c.seqBit n 1 true) c
    let w := c.peekNat (devOffset (c.stateOf ⟨p.seq, p.layer⟩)) 8
    let w := if devRegion (c.stateOf ⟨p.seq, p.layer⟩) = 8 then leNat (c.devRead (c.stateOf ⟨p.seq, p.layer⟩) 8).2.2 else w
    let x : AtuCtx := ⟨0, 0, false, 0, 0, 0, 0, 0, 16 * stPages w + stStaged w, 0, 0, 0, List.replicate p.batch 0xFFFF, locks⟩
    (c, { o with ctx := x.toList })
  else (c, o)

/-- The context and totals of an operation updated. -/
def OpRun.atuSet (o : OpRun) (x : AtuCtx) : OpRun :=
  { o with ctx := x.toList, info0 := min (entriesStuck x.statuses) 65535 + (min x.stale 65535 <<< 16), info1 := x.fetched }

/-- An entry ends with a status, and the next entry is up; where its STATUS cannot be written, the entry meets that fault. -/
def Chip.endEntry (c : Chip) (d : Nat) (x : AtuCtx) (st : Nat) : Chip × AtuCtx × Nat :=
  let w := c.entryStatus d x.entry st
  if w.2 != 0 then (w.1, x, w.2)
  else (w.1, { x with statuses := modifyNth x.statuses x.entry (fun _ => st), entry := x.entry + 1, pass := 0, begun := false,
                      fromSlot := 0, pages := 0, tokens := 0, status := 0 }, St.OK)

/-- What the running-state areas hold once the operation is over is undefined (R234): free bytes. [DESIGN CHOICE: log 183] -/
def Chip.freeAcc (c : Chip) (d : Nat) : Chip :=
  let p := atuPar d
  c.invalidate ((c.atuActive d).map (fun e =>
    (e.accOff, (if p.decode then 1 else min (queryBlock d) p.tokens) * c.atuRows d e.seq *
      ((c.kvDim (Seq.profile (c.seq e.seq)) + 2) * 4))))

/-- The walk stops at an entry in class FAULT: its status, and 0xFFFF in the later ones (the errors table). -/
def Chip.failEntry (c : Chip) (o : OpRun) (x : AtuCtx) (st : Nat) : Chip × OpRun :=
  let d := o.raw
  let p := atuPar d
  let e := c.atuEntry d x.entry
  let c := c.invalidate [(e.outOff, p.tokens * c.atuRows d e.seq * c.outRow d e.seq)]
  let c := (c.entryStatus d x.entry st).1
  let c := (List.range (p.batch - x.entry - 1)).foldl (fun c k => (c.entryStatus d (x.entry + 1 + k) 0xFFFF).1) c
  let c := c.freeAcc d
  let x := { x with statuses := modifyNth x.statuses x.entry (fun _ => st) }
  (c, (o.atuSet x).ends st)

/-- An entry of ATTN_DECODE begins (R220): the held check and the append. Answers a status that ends the entry. -/
def Chip.beginEntry (c : Chip) (d : Nat) (x : AtuCtx) : Chip × AtuCtx × Nat :=
  let p := atuPar d
  let e := c.atuEntry d x.entry
  let k : KvRef := ⟨e.seq, p.layer⟩
  if Seq.held (c.seq e.seq) then (c, x, St.KV_SEQ_HELD)
  else if p.append then
    let pr := c.prof k
    let t := c.devRead e.kvOff (c.kvHeads pr * 2 * c.kvRow pr)
    if t.2.1 != 0 then (t.1, x, t.2.1)
    else
      let a := t.1.appendToken k t.2.2
      (a.1, { x with begun := true, fromSlot := a.2.2 }, a.2.1)
  else (c, { x with begun := true }, St.OK)

/-- Whether an entry is one this run treats: not yet treated, or held (R231). -/
def AtuCtx.due (x : AtuCtx) : Bool := let s := x.statuses.getD x.entry 0; s == 0xFFFF || s == St.KV_NO_FRAME

/-- What fetching a pass adds to the operation's counts, whether or not the pass then fails (R233). -/
def AtuCtx.fetch (x : AtuCtx) (f : Fetched) : AtuCtx :=
  { x with pages := x.pages + f.pages, fetched := x.fetched + f.pages, stale := x.stale + f.stale,
           status := if f.stale = 0 then x.status else worse x.status St.KV_STALE_FRAME }

/-- A pass fetched and computed over the rows of `n` tokens from `t0`: the context with its counts, the states of the rows, the number
of chunks of the walk, and a fault status (R221 to R224). -/
def Chip.atuPass (c : Chip) (o : OpRun) (x : AtuCtx) (k : KvRef) (e : AtuEntry) (t0 n : Nat) (kept : Option (List RunState)) :
    Chip × OpRun × AtuCtx × List RunState × Nat × Nat :=
  let w := c.devNat (c.stateOf k) 8
  if w.2.1 != 0 then (w.1, o, x, [], 0, w.2.1)
  else
    let pages := stPages w.2.2
    let staged := stStaged w.2.2
    let f := w.1.fetchPass k pages staged x.fromSlot x.pass
    let x := x.fetch f.2
    if f.2.status != 0 then (f.1, o, x, [], 0, f.2.status)
    else
      let q := f.1.touchQueries o.raw e t0 n
      if q.2 != 0 then (q.1, o, x, [], 0, q.2)
      else
        let acc := q.1.readAcc e (n * c.atuRows o.raw e.seq) (x.pass == 0) kept
        if acc.2.1 != 0 then (acc.1, o, x, [], 0, acc.2.1)
        else
          let s := acc.1.stepRows o e t0 x.p0 f.2.chunks acc.2.2
          (acc.1, s.1, { x with pass := x.pass + 1, tokens := x.tokens + (f.2.chunks.map (·.count)).sum }, s.2,
           chunkCount pages staged, St.OK)

/-- One pass of an entry, and its output after the last (R220, R224): the states to go on from, and a fault status. -/
def Chip.decodePass (c : Chip) (o : OpRun) (x : AtuCtx) (kept : Option (List RunState)) :
    Chip × OpRun × AtuCtx × Option (List RunState) × Nat :=
  let d := o.raw
  let e := c.atuEntry d x.entry
  let r := c.atuPass o x ⟨e.seq, (atuPar d).layer⟩ e 0 1 kept
  let x := r.2.2.1
  if r.2.2.2.2.2 != 0 then (r.1, r.2.1, x, none, r.2.2.2.2.2)
  else if x.pass * 16 < r.2.2.2.2.1 then (r.1, r.2.1, x, some r.2.2.2.1, St.OK)
  else
    let q := r.1.putOutputs r.2.1 e 0 r.2.2.2.1
    if q.2.2.1 != 0 then (q.1, q.2.1, x, none, q.2.2.1)
    else
      let n := q.1.entryCounts d x.entry x.tokens x.pages
      if n.2 != 0 then (n.1, q.2.1, x, none, n.2)
      else
        let v := n.1.endEntry d x (if q.2.2.2 then worse x.status St.KV_EMPTY else x.status)
        (v.1, q.2.1, v.2.1, none, v.2.2)

/-- Passes of ATTN_DECODE in batch order, until the tile's budget or the batch ends; a tile that ends inside an entry writes the
entry's running state to ACC_OFF (R234). -/
def Chip.decodeLoop (c : Chip) (o : OpRun) (x : AtuCtx) (kept : Option (List RunState)) : Nat → Nat → Chip × OpRun × AtuCtx
  | 0, _ => (c, o, x)
  | fuel + 1, budget =>
    let d := o.raw
    let p := atuPar d
    if o.finished ∨ p.batch ≤ x.entry then (c, o, x)
    else if !x.due then Chip.decodeLoop c o { x with entry := x.entry + 1 } none fuel budget
    else if budget = 0 then
      match kept with
      | none => (c, o, x)
      | some rs =>
        let a := c.writeAcc (c.atuEntry d x.entry) rs
        if a.2 != 0 then (let f := a.1.failEntry o x a.2; (f.1, f.2, x)) else (a.1, o, x)
    else
      let h := c.touchReads [(p.batchOff + 64 * x.entry, 64)]
      let b := if h.2 != 0 then (h.1, x, h.2)
        else if !(c.atuEntry d x.entry).active ∨ x.begun then (h.1, x, St.OK)
        else h.1.beginEntry d x
      if statusClass b.2.2 = 7 then (let f := b.1.failEntry o b.2.1 b.2.2; (f.1, f.2, b.2.1))
      else
        let q := if b.2.2 != 0 ∨ !(c.atuEntry d x.entry).active then
            (let r := b.1.endEntry d b.2.1 b.2.2; (r.1, o, r.2.1, none, r.2.2))
          else b.1.decodePass o b.2.1 kept
        if q.2.2.2.2 != 0 then (let f := q.1.failEntry q.2.1 q.2.2.1 q.2.2.2.2; (f.1, f.2, q.2.2.1))
        else Chip.decodeLoop q.1 q.2.1 q.2.2.1 q.2.2.2.1 fuel (budget - 1)

/-- A tile of an ATU operation ends: the context is kept; after the last entry the operation has its status (R233). -/
def atuTileEnd (o : OpRun) (x : AtuCtx) (last : Bool) : OpRun :=
  if o.finished then o
  else
    let o := o.atuSet x
    if last then { o.meets (entriesStatus x.statuses) with lastTile := true } else o

/-- Whether the ATU's Twill cluster can serve it (R198, R265). -/
def Chip.atuClusterOk (c : Chip) : Bool :=
  let k := c.rd R.ATU_CTRL_TWILL_CLUSTER
  decide (k < 18) && c.rd R.TWL_CLUSTER_STATE k == 0 && !c.unitOffline (2 + k)

/-- ATTN_DECODE (R220): the next tile. -/
def execAttnDecode (s : State) : Host.Outcome State Fault Refusal :=
  s.run Parts.tile
    (fun c => c.runTile 1 1 1 (fun c o => c.atuCheck o.raw) (fun c o =>
    let c := c.setShape 0 true
    let b := c.atuBegin o
    let x := AtuCtx.ofList b.2.ctx
    let p := atuPar o.raw
    if !c.atuClusterOk then b.1.failEntry b.2 x St.ISLAND_OFFLINE
    else
      let r := b.1.decodeLoop b.2 x none (2 * p.batch + p.passes + 2) p.passes
      let last := decide (p.batch ≤ r.2.2.entry)
      (if last then r.1.freeAcc o.raw else r.1, atuTileEnd r.2.1 r.2.2 last)))

/-- One append of ATTN_PREFILL (R228): a whole page straight into a frame while the slot is empty and 16 tokens remain, one
token into the slot otherwise. Answers the tokens appended, whether a page is complete with it, and a status. -/
def Chip.prefillAppend (c : Chip) (d appended : Nat) : Chip × Nat × Bool × Nat :=
  let p := atuPar d
  let k : KvRef := ⟨p.seq, p.layer⟩
  let pr := c.prof k
  let row := c.kvRow pr
  let tok := c.kvHeads pr * 2 * row
  let w := c.devNat (c.stateOf k) 8
  if w.2.1 != 0 then (w.1, 0, false, w.2.1)
  else if stStaged w.2.2 = 0 ∧ appended + 16 ≤ p.tokens then
    let t := w.1.devRead (p.kvOff + appended * tok) (16 * tok)
    if t.2.1 != 0 then (t.1, 0, false, t.2.1)
    else
      let page := ((List.range (2 * c.kvHeads pr)).map (fun b => ((List.range 16).map (fun j =>
        (t.2.2.drop (j * tok + b * row)).take row)).foldr (· ++ ·) [])).foldr (· ++ ·) []
      let r := t.1.commitPage k (stPages w.2.2) page 0
      if r.2 = St.KV_LIST_FULL then (r.1.seqBit p.seq 2 true, 0, false, r.2)
      else if r.2 != 0 then (r.1, 0, false, r.2)
      else (r.1.bumpChanges k 16, 16, true, St.OK)
  else
    let t := w.1.devRead (p.kvOff + appended * tok) tok
    if t.2.1 != 0 then (t.1, 0, false, t.2.1)
    else
      let a := t.1.appendToken k t.2.2
      (a.1, if a.2.1 = 0 then 1 else 0, stStaged w.2.2 == 15, a.2.1)

/-- Appends of one tile: it ends with the page that is its `pages`-th, one that an earlier tile began among them (R235). -/
def Chip.prefillAppends (c : Chip) (d : Nat) (x : AtuCtx) : Nat → Nat → Chip × AtuCtx × Nat
  | 0, _ => (c, x, St.OK)
  | fuel + 1, pages =>
    if (atuPar d).tokens ≤ x.appended then (c, x, St.OK)
    else
      let a := c.prefillAppend d x.appended
      if a.2.2.2 != 0 then (a.1, x, a.2.2.2)
      else
        let x := { x with appended := x.appended + a.2.1 }
        let pages := if a.2.2.1 then pages - 1 else pages
        if pages = 0 then (a.1, x, St.OK) else Chip.prefillAppends a.1 d x fuel pages

/-- The first and the number of tokens of a query block, and its passes (R235). -/
def prefillBlock (d p0 b : Nat) : Nat × Nat × Nat :=
  let p := atuPar d
  let t0 := b * queryBlock d
  let n := min (queryBlock d) (p.tokens - t0)
  let last := if p.causal then p0 + t0 + n - 1 else p0 + p.tokens - 1
  (t0, n, last / 256 + 1)

/-- Attention steps of one tile, in block order (R235); a tile that ends inside a block writes the block's running state to ACC_OFF. -/
def Chip.prefillSteps (c : Chip) (o : OpRun) (x : AtuCtx) (kept : Option (List RunState)) : Nat → Chip × OpRun × AtuCtx × Nat
  | 0 =>
    match kept with
    | none => (c, o, x, St.OK)
    | some rs => let a := c.writeAcc (c.atuEntry o.raw 0) rs; (a.1, o, x, a.2)
  | fuel + 1 =>
    let d := o.raw
    let p := atuPar d
    let e := c.atuEntry d 0
    if p.tokens ≤ x.block * queryBlock d then (c, o, x, St.OK)
    else
      let b := prefillBlock d x.p0 x.block
      let r := c.atuPass o x ⟨p.seq, p.layer⟩ e b.1 b.2.1 kept
      let x := r.2.2.1
      if r.2.2.2.2.2 != 0 then (r.1, r.2.1, x, r.2.2.2.2.2)
      else if x.pass < b.2.2 then Chip.prefillSteps r.1 r.2.1 x (some r.2.2.2.1) fuel
      else
        let q := r.1.putOutputs r.2.1 e b.1 r.2.2.2.1
        let x := { x with block := x.block + 1, pass := 0,
                          status := if q.2.2.2 then worse x.status St.KV_EMPTY else x.status }
        if q.2.2.1 != 0 then (q.1, q.2.1, x, q.2.2.1) else Chip.prefillSteps q.1 q.2.1 x none fuel

/-- ATTN_PREFILL (R228, R235): the next append tile or attention tile. -/
def execAttnPrefill (s : State) : Host.Outcome State Fault Refusal :=
  s.run Parts.tile (fun c => c.runTile 1 1 2 (fun c o => c.atuCheck o.raw) (fun c o =>
    let d := o.raw
    let p := atuPar d
    let c := c.setShape 0 false
    let b := c.atuBegin o
    let x := AtuCtx.ofList b.2.ctx
    let stop := fun (c : Chip) (o : OpRun) (x : AtuCtx) (st : Nat) =>
      (c, atuTileEnd o { x with statuses := [st] } true)
    if !c.atuClusterOk then b.1.failEntry b.2 x St.ISLAND_OFFLINE
    else if Seq.held (c.seq p.seq) ∧ x.appended = 0 ∧ x.block = 0 then stop b.1 b.2 x St.KV_SEQ_HELD
    else if x.appended < p.tokens then
      let a := b.1.prefillAppends d x (p.tokens + 1) (16 * p.passes)
      if statusClass a.2.2 = 7 then a.1.failEntry b.2 a.2.1 a.2.2
      else if a.2.2 != 0 then stop a.1 b.2 a.2.1 a.2.2
      else (a.1, atuTileEnd b.2 a.2.1 false)
    else
      let r := b.1.prefillSteps b.2 x none p.passes
      if r.2.2.2 != 0 then r.1.failEntry r.2.1 r.2.2.1 r.2.2.2
      else if p.tokens ≤ r.2.2.1.block * queryBlock d then stop (r.1.freeAcc d) r.2.1 r.2.2.1 r.2.2.1.status
      else (r.1, atuTileEnd r.2.1 r.2.2.1 false)))

/-! ## Held operations (R230 to R233) -/

/-- The entries of an operation that are held, by index. -/
def heldEntries (o : OpRun) : List Nat :=
  let x := AtuCtx.ofList o.ctx
  (List.range x.statuses.length).filter (fun i => x.statuses.getD i 0 == St.KV_NO_FRAME)

/-- The sequences of an operation's held entries. -/
def Chip.heldSeqs (c : Chip) (o : OpRun) : List Nat := (heldEntries o).map (fun i => (c.atuEntry o.raw i).seq)

/-- The locks that an operation's run holds cleared, but for some sequences (R212, R230). -/
def Chip.atuUnlock (c : Chip) (o : OpRun) (kept : List Nat) : Chip :=
  (AtuCtx.ofList o.ctx).locks.foldl (fun c n => if kept.contains n then c else c.seqBit n 1 false) c

/-- ATU_HOLDn of a slot, and HELD_OPS. -/
def Chip.showHold (c : Chip) (slot : Nat) : Chip :=
  let c := c.wr R.ATU_STATUS_HELD_OPS c.atu.holds.length
  match Table.get? c.atu.holds slot with
  | none => c.wr R.ATU_HOLD 0 slot
  | some h =>
    let c := c.wr R.ATU_HOLD_VALID 1 slot
    let c := c.wr R.ATU_HOLD_RESUMED (b2n (h.resumed.isSome && !h.started)) slot
    let c := c.wr R.ATU_HOLD_CLASS h.op.cls slot
    let c := c.wr R.ATU_HOLD_ENTRIES (heldEntries h.op).length slot
    let c := c.wr R.ATU_HOLD_WEAVE_ID (((c.weave? h.op.weave).map (·.weaveId)).getD 0) slot
    c.wr R.ATU_HOLD_DESC_INDEX h.op.index slot

/-- A slot of the hold table set or freed. -/
def Chip.setHold (c : Chip) (slot : Nat) (h : Option HoldRec) : Chip :=
  let t := match h with
    | some h => Table.put c.atu.holds slot h
    | none => Table.del c.atu.holds slot
  ({ c with atu := { c.atu with holds := t } }).showHold slot

/-- The slot an operation already has in the hold table, or the lowest free one. -/
def Chip.holdSlot (c : Chip) (o : OpRun) : Option Nat :=
  match c.atu.holds.find? (fun p => p.2.op.weave == o.weave && p.2.op.index == o.index) with
  | some p => some p.1
  | none => (List.range 16).find? (fun n => (Table.get? c.atu.holds n).isNone)

/-- The held entries of an operation ended (R232): KV_ABANDONED, HELD set, LOCK cleared. -/
def Chip.abandon (c : Chip) (o : OpRun) : Chip × OpRun :=
  let x := AtuCtx.ofList o.ctx
  let c := (heldEntries o).foldl (fun (c : Chip) i =>
    let e := c.atuEntry o.raw i
    ((c.entryStatus o.raw i St.KV_ABANDONED).1.seqBit e.seq 2 true).seqBit e.seq 1 false) c
  let x := { x with statuses := x.statuses.map (fun s => if s = St.KV_NO_FRAME then St.KV_ABANDONED else s) }
  (c, { o.atuSet x with status := entriesStatus x.statuses })

/-- The record of an ATU operation. [DEDUCED: log 66] -/
def atuRecord (o : OpRun) (st : Nat) : RecInfo :=
  ⟨st, o.flags, 1, o.cls, o.activeNs / 1000, o.tiles, o.preempts, o.info0, o.info1⟩

/-- A held operation as its next run finds it: at its first entry, with the locks of its held entries alone. -/
def OpRun.rewind (o : OpRun) (locks : List Nat) : OpRun :=
  let x := AtuCtx.ofList o.ctx
  { o with finished := false, tileReady := false, lastTile := false, status := St.OK,
           ctx := AtuCtx.toList { x with entry := 0, locks := locks } }

/-- An ATU operation that ends gives up what it holds: the locks of its run (R212), and its slot of the hold table. -/
def Chip.leaveAtu (c : Chip) (o : OpRun) : Chip :=
  let c := c.atuUnlock o []
  match c.atu.holds.find? (fun p => p.2.op.weave == o.weave && p.2.op.index == o.index) with
  | some p => c.setHold p.1 none
  | none => c

/-- The operations of a unit, running and suspended. -/
def Chip.opsOf (c : Chip) (u : Nat) : List OpRun := (c.op? u).toList ++ c.dsp.suspended.filter (fun o => o.unit == u)

/-- A FUSE that ends within its object level leaves the track table torn. -/
def Chip.tearTable (c : Chip) : Chip :=
  if c.twd.runs.any (fun f => !f.tracks.isEmpty && (c.opsOf 21).any (fun o => o.weave == f.weave && o.index == f.index)) then
    c.wr R.TWD_STATUS_TABLE_TORN 1
  else c

/-- Every operation of a unit completes with a status (`failUnit`); those of the ATU leave their locks and slots first. -/
def Chip.failEngine (c : Chip) (u st : Nat) : Chip :=
  (if u = 1 then (c.opsOf 1).foldl (fun (c : Chip) o => c.leaveAtu o) c else if u = 21 then c.tearTable else c).failUnit u st

/-- An ATU operation leaves the unit (R230, R232): held in a slot, or complete; without a free slot its held entries are
abandoned. -/
def Chip.completeAtu (c : Chip) (o : OpRun) : Chip :=
  if statusClass o.status = 3 then
    match c.holdSlot o, c.weave? o.weave with
    | some n, some w =>
      let kept := c.heldSeqs o
      let c := (c.freeUnit 1).atuUnlock o kept
      let c := c.report w o.index (atuRecord o o.status)
      let c := c.setHold n (some ⟨o.rewind kept, none, false⟩)
      (c.setDescState o.weave o.index (.held n)).settle
    | _, _ => let a := c.abandon o; (a.1.leaveAtu a.2).completeOp 1 a.2
  else (c.leaveAtu o).completeOp 1 o

/-- KV_RESUME (R231): the held operation becomes ready again. -/
def execKvResume (slot : Nat) (s : State) : Host.Outcome State Fault Refusal :=
  s.runHost [.regs, .muslin, .dsp, .qmg, .msl, .drc, .atu, .gng, .sent] (fun c => c.atuCmd (fun c =>
    match Table.get? c.atu.holds (slot % 16) with
    | some ⟨op, none, _⟩ =>
      let c := c.setHold (slot % 16) (some ⟨op, some (c.dsp.nextOrder, c.now), false⟩)
      (c.settle, St.OK)
    | _ => (c, St.KV_BAD_PARAM)))

/-- KV_ABANDON (R232): the held operation ends and writes its final record. -/
def execKvAbandon (slot : Nat) (s : State) : Host.Outcome State Fault Refusal :=
  s.runHost [.regs, .muslin, .dsp, .qmg, .msl, .drc, .atu, .gng, .sent] (fun c => c.atuCmd (fun c =>
    match Table.get? c.atu.holds (slot % 16) with
    | none => (c, St.KV_BAD_PARAM)
    | some h =>
      if h.started then (c, St.KV_LIST_BUSY)
      else
        let a := c.abandon h.op
        let c := a.1.setHold (slot % 16) none
        ((c.finishDesc h.op.weave h.op.index (atuRecord a.2 a.2.finalStatus)).settle, St.OK)))

end Sys2Proof.Machine
end

