-- ==== Sys2Proof/Machine/Grids.lean ====
section
/-!
DEFINITION. Event grids (R478): their numbers, the grid times of a rule, and which of them comes next.
-/
namespace Sys2Proof.Machine

/-- The numbers of the grids: control tick, Jersey tick, trigger group, timed launch, PWM pin, power estimate, frame
deadlines of a network, heartbeat. -/
def gridControl : Nat := 0
def gridJersey : Nat := 1
def gridTrig (g : Nat) : Nat := 2 + g
def gridLaunch (n : Nat) : Nat := 8 + n
def gridPwm (p : Nat) : Nat := 80 + p
def gridPower : Nat := 130
def gridDeadline (n : Nat) : Nat := 132 + n
/-- [DEDUCED: log 162] -/
def gridHeartbeat : Nat := 140

/-- The grid times `base + k * num / den` ns, for whole k from 0. -/
structure GridRule where
  base : Nat
  num : Nat
  den : Nat
  deriving DecidableEq, Repr

/-- The least k whose grid time is at or after `t`. -/
def GridRule.index (r : GridRule) (t : Nat) : Nat := if t ≤ r.base then 0 else ceilDiv ((t - r.base) * r.den) r.num

/-- The whole nanosecond at which grid time k is served. -/
def GridRule.time (r : GridRule) (k : Nat) : Nat := r.base + ceilDiv (k * r.num) r.den

/-- The number of grid times before the clock value `u`, in units of `2^-32` ns. -/
def GridRule.before (r : GridRule) (u : Nat) : Nat :=
  if u ≤ r.base * 2 ^ 32 then 0 else ceilDiv ((u - r.base * 2 ^ 32) * r.den) (r.num * 2 ^ 32)

/-- A grid's record. -/
def Chip.gridOf (c : Chip) (id : Nat) : Grid := (Table.get? c.tku.grids id).getD ⟨0, none⟩
def Chip.setGrid (c : Chip) (id : Nat) (g : Grid) : Chip := { c with tku := { c.tku with grids := Table.put c.tku.grids id g } }

/-- A time of the clock, in the time that steps leave unmoved. -/
def Chip.unstepped (c : Chip) (t : Nat) : Int := (t : Int) - c.tku.shift / 2 ^ 32

/-- The next grid time of a grid under its present rule. -/
def Chip.gridNext (c : Chip) (id : Nat) (r : GridRule) : Nat := r.time (r.index (c.gridOf id).after)

/-- Grid time `t` is served: no grid serves a time twice. -/
def Chip.gridServe (c : Chip) (id t : Nat) : Chip := c.setGrid id ⟨t + 1, some (c.unstepped t)⟩

/-- A grid's rule changes, or its owner starts it, at `t`: its next time lies at or after `t`. -/
def Chip.gridFrom (c : Chip) (id t : Nat) : Chip := let g := c.gridOf id; c.setGrid id { g with after := max g.after t }

/-- The control tick period and its grid (R479). -/
def Chip.controlPeriod (c : Chip) : Nat := max 1 (c.entry 0x5000 1)
def Chip.controlRule (c : Chip) : GridRule := ⟨0, c.controlPeriod, 1⟩
def Chip.nextControlTick (c : Chip) : Nat := c.gridNext gridControl c.controlRule

end Sys2Proof.Machine
end

