-- ==== Sys2Proof/Machine/Pixels.lean ====
section
/-!
DEFINITION. Gauze's image pipeline (R341 to R346): unpacking of CSI-2 lines, profiles, demosaic and colour, geometry,
interpolation, normalisation. Where the spec states an operation without the order of its roundings, the result is a free
value close to the exact one.
-/
namespace Sys2Proof.Machine

/-! ## Lines as CSI-2 packs them (R321, R342, R347) -/

/-- Bits per pixel of a CSI-2 data type; 0 for types that carry no image. [PRESUMED: log 68] -/
def csiBits (dt : Nat) : Nat :=
  match dt with
  | 0x2A => 8 | 0x2B => 10 | 0x2C => 12 | 0x2D => 14 | 0x2E => 16 | 0x1E => 16 | 0x24 => 24 | _ => 0

/-- Bytes of a line of `w` pixels. -/
def csiLineBytes (dt w : Nat) : Nat := ceilDiv (csiBits dt * w) 8

/-- Whether a data type suits an INPUT_KIND (R335, R352): raw for Bayer and grey, RGB888, YUV422. -/
def csiSuits (dt kind : Nat) : Bool :=
  match kind with
  | 0 | 3 => decide (0x2A ≤ dt) && decide (dt ≤ 0x2E)
  | 1 => dt == 0x24
  | _ => dt == 0x1E

/-- Byte `i` of a line. [PRESUMED: log 68] -/
def lineByte (l : List Byte) (i : Nat) : Option Nat := (l[i]?).map (·.toNat)

/-- Two bytes of a line combined; none where one is missing. -/
def lineTwo (l : List Byte) (i j : Nat) (f : Nat → Nat → Nat) : Option Nat :=
  match lineByte l i, lineByte l j with
  | some a, some b => some (f a b)
  | _, _ => none

/-- Raw pixel `x` of a line: the high eight bits first, the low bits of a group in the bytes after it. A pixel whose bytes
did not arrive has value 0 (R322). [PRESUMED: log 68] -/
def rawPix (dt : Nat) (l : List Byte) (x : Nat) : Nat :=
  (match dt with
  | 0x2A => lineByte l x
  | 0x2B => lineTwo l (5 * (x / 4) + x % 4) (5 * (x / 4) + 4) (fun h lo => 4 * h + bits lo (2 * (x % 4)) 2)
  | 0x2C => lineTwo l (3 * (x / 2) + x % 2) (3 * (x / 2) + 2) (fun h lo => 16 * h + bits lo (4 * (x % 2)) 4)
  | 0x2D =>
    let g := 7 * (x / 4)
    let k := 6 * (x % 4)
    match lineByte l (g + x % 4), lineByte l (g + 4 + k / 8), lineByte l (g + 4 + (k + 5) / 8) with
    | some h, some a, some b => some (64 * h + bits (if k / 8 = (k + 5) / 8 then a else a + 256 * b) (k % 8) 6)
    | _, _, _ => none
  | 0x2E => lineTwo l (2 * x) (2 * x + 1) (fun h lo => 256 * h + lo)
  | _ => none).getD 0

/-- The channels of pixel `x` of an RGB888 line, red first; blue is sent first. [PRESUMED: log 68] -/
def rgbPix (l : List Byte) (x : Nat) : List Nat := [2, 1, 0].map (fun k => (lineByte l (3 * x + k)).getD 0)

/-- Luma and the chroma pair of pixel `x` of a YUV422 line. [PRESUMED: log 68] -/
def yuvPix (l : List Byte) (x : Nat) : Nat × Nat × Nat :=
  let g := 4 * (x / 2)
  ((lineByte l (g + 2 * (x % 2) + 1)).getD 0, (lineByte l g).getD 0, (lineByte l (g + 2)).getD 0)

/-! ## Profiles (R341) -/

/-- A profile's values. -/
structure Profile where
  valid : Bool
  kind : Nat
  cfa : Nat
  black : Nat
  wb : Nat
  ccm : Nat
  clip : Nat
  yuv : Nat
  order : Nat
  layout : Nat
  normA : Nat
  normB : Nat
  pad : Nat
  deriving DecidableEq, Repr

/-- Profile `p` by the committed entries. -/
def Chip.profile (c : Chip) (p : Nat) : Profile :=
  let e := fun s => c.entry (0x3C40 + p) s
  ⟨e 1 != 0, e 2, e 3, e 4, e 5, e 6, e 7, e 8, e 9, e 0xA, e 0xB, e 0xC, e 0xD⟩

/-- FP32 value `k` of an entry that holds several. -/
def f32At (v k : Nat) : Num := f32val (bits v (32 * k) 32)

/-- Whether a profile is valid: VALID, and its CCM, WB, CLIP and NORM values finite. -/
def Profile.ok (p : Profile) : Bool :=
  p.valid && (List.range 4).all (fun k => (f32At p.wb k).isFinite) && (List.range 12).all (fun k => (f32At p.ccm k).isFinite) &&
  (f32At p.clip 0).isFinite && (List.range 3).all (fun k => (f32At p.normA k).isFinite && (f32At p.normB k).isFinite)

/-! ## Pixels (R342) -/

/-- A source image: its data type, or 0x100 for decoded samples of three components and 0x101 for one; its size; its
lines, or its samples one byte each. -/
structure Source where
  dt : Nat
  w : Nat
  h : Nat
  lines : List (List Byte)
  deriving DecidableEq, Repr

/-- The colour at a place of the CFA: 0 red, 1 green, 2 blue. -/
def cfaColour (cfa x y : Nat) : Nat :=
  nth (nth [[0, 1, 1, 2], [1, 0, 2, 1], [1, 2, 0, 1], [2, 1, 1, 0]] cfa []) (2 * (y % 2) + x % 2) 0

/-- An index mirrored at the borders of `n`. -/
def mirror (n : Nat) (i : Int) : Nat :=
  let j := if i < 0 then -i else i
  let k := if (n : Int) ≤ j then 2 * ((n : Int) - 1) - j else j
  min k.toNat (n - 1)

/-- The black-corrected, white-balanced Bayer value at a place. -/
def Source.bayer (s : Source) (p : Profile) (x y : Nat) : Num :=
  let pos := 2 * (y % 2) + x % 2
  let v := rawPix s.dt (nth s.lines y []) x
  f32mul (.ofNat (v - bits p.black (16 * pos) 16)) (f32At p.wb pos)

/-- Channel `ch` of a Bayer pixel: its own value, or the mean of the 2 or 4 nearest of that channel, summed in raster
order. -/
def Source.demosaic (s : Source) (p : Profile) (x y ch : Nat) : Num :=
  if cfaColour p.cfa x y = ch then s.bayer p x y
  else
    let side := cfaColour p.cfa (x + 1) y == ch
    let vert := cfaColour p.cfa x (y + 1) == ch
    let offs : List (Int × Int) :=
      if side && vert then [(0, -1), (-1, 0), (1, 0), (0, 1)]
      else if side then [(-1, 0), (1, 0)]
      else if vert then [(0, -1), (0, 1)]
      else [(-1, -1), (1, -1), (-1, 1), (1, 1)]
    let vs := offs.map (fun o => s.bayer p (mirror s.w (x + o.1)) (mirror s.h (y + o.2)))
    let sum := match vs with
      | [] => Num.zero
      | v :: r => r.foldl f32add v
    f32mul sum (if offs.length = 2 then .fin false 1 (-1) else .fin false 1 (-2))

/-- An exact quotient of two integers. -/
def ratio (a b : Int) : Num := (Num.ofInt a).div (.ofInt b)

/-- The exact red, green and blue of a YUV pixel (R341): BT.601 full range, or BT.709 limited range. -/
def yuvExact (matrix y u v : Nat) : List Num :=
  let um := (u : Int) - 128
  let vm := (v : Int) - 128
  if matrix = 0 then
    [ratio (1000 * (y : Int) + 1402 * vm) 1000,
     ratio (587000 * (y : Int) - (202008 * um + 419198 * vm)) 587000,
     ratio (1000 * (y : Int) + 1772 * um) 1000]
  else
    -- y' = 255/219 (y - 16); r = y' + 2 (1 - 0.2126) 255/224 v'; b = y' + 2 (1 - 0.0722) 255/224 u'
    let yy := (y : Int) - 16
    [ratio (255 * (yy * 224 * 10000 + vm * 219 * 15748)) (219 * 224 * 10000),
     ratio (255 * (yy * 224 * 71520000 - um * 219 * 18556 * 722 - vm * 219 * 15748 * 2126)) (219 * 224 * 71520000),
     ratio (255 * (yy * 224 * 10000 + um * 219 * 18556)) (219 * 224 * 10000)]

/-- The channels of a source pixel before colour correction: three, or one for grey. [DESIGN CHOICE: log 69] -/
def Source.channels (s : Source) (p : Profile) (x y : Nat) : List Num :=
  let line := nth s.lines y []
  if s.dt = 0x100 then [0, 1, 2].map (fun k => .ofNat ((lineByte line (3 * x + k)).getD 0))
  else if s.dt = 0x101 then [.ofNat ((lineByte line x).getD 0)]
  else
    match p.kind with
    | 0 => [0, 1, 2].map (fun ch => s.demosaic p x y ch)
    | 1 => (rgbPix line x).map .ofNat
    | 2 =>
      let v := yuvPix line x
      let ex := yuvExact p.yuv v.1 v.2.1 v.2.2
      [0, 1, 2].map (fun ch =>
        (choose (44 + ch) [.ofNat p.yuv, .ofNat v.1, .ofNat v.2.1, .ofNat v.2.2] (nth ex ch .zero) 4 (.ofNat 256)).1)
    | _ => [.ofNat (rawPix s.dt line x)]

/-- A value clamped to `[0, clip]`. -/
def clampPix (clip x : Num) : Num := Num.min (Num.max x Num.zero) clip

/-- A sum of products, each product and each sum rounded, left to right. [DEDUCED: log 70] -/
def rowDot (ms xs : List Num) : Num :=
  match (ms.zip xs).map (fun p => f32mul p.1 p.2) with
  | [] => Num.zero
  | v :: r => r.foldl f32add v

/-- A constant rounded to FP32. -/
def f32const (a b : Int) : Num := r32 (ratio a b)

/-- A pixel ready for the geometry: corrected, clamped, with 1 or 3 channels, red first (R342). [DEDUCED: log 70] -/
def Source.pixel (s : Source) (p : Profile) (three : Bool) (x y : Nat) : List Num :=
  let clip := f32At p.clip 0
  let cs := s.channels p x y
  match cs with
  | [g] => let g := clampPix clip g; if three then [g, g, g] else [g]
  | _ =>
    let rgb := (List.range 3).map (fun k =>
      clampPix clip (f32add (rowDot ((List.range 3).map (fun j => f32At p.ccm (3 * k + j))) cs) (f32At p.ccm (9 + k))))
    if three then rgb
    else [rowDot [f32const 299 1000, f32const 587 1000, f32const 114 1000] rgb]

/-! ## Geometry (R343 to R345) -/

/-- An augmentation record, or a pipe's GEOMETRY entry (R343). -/
structure Geom where
  tag : Nat
  cx : Nat
  cy : Nat
  cw : Nat
  ch : Nat
  flipH : Bool
  flipV : Bool
  interp : Nat
  keep : Bool
  angle : Num
  gain : List Num
  bias : List Num
  deriving DecidableEq, Repr

/-- The fields of a record, with the whole image where CROP_W is 0. -/
def geomOf (r w h : Nat) : Geom :=
  let cw := bits r 64 16
  let whole := cw = 0
  { tag := bits r 0 32, cx := if whole then 0 else bits r 32 16, cy := if whole then 0 else bits r 48 16,
    cw := if whole then w else cw, ch := if whole then h else bits r 80 16,
    flipH := r.testBit 96, flipV := r.testBit 97, interp := bits r 98 2, keep := r.testBit 100,
    angle := f32val (bits r 128 32), gain := (List.range 3).map (fun k => f32val (bits r (160 + 32 * k) 32)),
    bias := (List.range 3).map (fun k => f32val (bits r (256 + 32 * k) 32)) }

/-- The geometry of a sample without augmentation (R349). -/
def geomPlain (w h : Nat) : Geom :=
  ⟨0, 0, 0, w, h, false, false, 0, false, Num.zero, List.replicate 3 (.ofNat 1), List.replicate 3 Num.zero⟩

/-- The scales of an output of `oh` rows and `ow` columns. -/
def Geom.scales (g : Geom) (oh ow : Nat) : Num × Num :=
  let sx := f32div (.ofNat g.cw) (.ofNat ow)
  let sy := f32div (.ofNat g.ch) (.ofNat oh)
  if g.keep then (Num.max sx sy, Num.max sx sy) else (sx, sy)

/-- FP32 `2 pi`. -/
def twoPi : Num := r32 (fxNum (2 * fxPi))

/-- Whether a geometry is valid for a source and an output (R345). -/
def Geom.ok (g : Geom) (w h oh ow : Nat) : Bool :=
  decide (0 < g.cw) && decide (0 < g.ch) && decide (g.cx + g.cw ≤ w) && decide (g.cy + g.ch ≤ h) &&
  g.angle.isFinite && Num.le g.angle.abs twoPi && g.gain.all Num.isFinite && g.bias.all Num.isFinite && g.interp != 3 &&
  (g.interp != 2 || (g.angle.isZero && Num.le (.ofNat 1) (g.scales oh ow).1 && Num.le (.ofNat 1) (g.scales oh ow).2))

/-- `n + 1/2` and `n / 2` as exact values. -/
def plusHalf (n : Nat) : Num := .fin false (2 * n + 1) (-1)
def halfOf (n : Nat) : Num := .fin false n (-1)
def oneHalf : Num := .fin false 1 (-1)

/-- The source position of an output pixel (R344). -/
def Geom.position (g : Geom) (oh ow u v : Nat) : Num × Num :=
  let sc := g.scales oh ow
  let u2 := if g.flipH then ow - 1 - u else u
  let v2 := if g.flipV then oh - 1 - v else v
  let px := f32mul sc.1 (f32sub (plusHalf u2) (halfOf ow))
  let py := f32mul sc.2 (f32sub (plusHalf v2) (halfOf oh))
  let co := (fnSinCos 42 1 g.angle).1
  let si := (fnSinCos 43 0 g.angle).1
  let mx := f32add (.ofNat g.cx) (halfOf g.cw)
  let my := f32add (.ofNat g.cy) (halfOf g.ch)
  (f32sub (f32sub (f32add mx (f32mul co px)) (f32mul si py)) oneHalf,
   f32sub (f32add (f32add my (f32mul si px)) (f32mul co py)) oneHalf)

/-- Whether a position lies in the crop. -/
def inCrop (x : Num) (lo n : Nat) : Bool :=
  let l := (Num.ofNat lo).sub oneHalf
  Num.le l x && Num.lt x (l.add (.ofNat n))

/-- An index clamped to the crop. -/
def clampIdx (lo n : Nat) (i : Int) : Nat := (max (lo : Int) (min i ((lo : Int) + n - 1))).toNat

/-- A weighted mean of taps: the tap itself where one weight alone is not zero; otherwise free within the roundings of an
FP32 evaluation, because the spec does not order its operations. [DESIGN CHOICE: log 69] -/
def blend (key : Nat) (ws : List (Num × Num)) : Num :=
  let live := ws.filter (fun p => !p.1.isZero)
  match live with
  | [(w, t)] => if Num.eqv w (.ofNat 1) then t else r32 (w.mul t)
  | _ =>
    let total := live.foldl (fun a p => a.add p.1) Num.zero
    let sum := live.foldl (fun a p => a.add (p.1.mul p.2)) Num.zero
    let big := live.foldl (fun a p => Num.max a p.2.abs) Num.zero
    (choose key (live.map (·.1) ++ live.map (·.2)) (sum.div total) 4 (big.shift 4)).1

/-- The bicubic kernel with a = -1/2 at distance `t`. [DESIGN CHOICE: log 69] -/
def cubicWeight (t : Num) : Num :=
  let t := t.abs
  let t2 := t.mul t
  let t3 := t2.mul t
  if Num.le t (.ofNat 1) then
    ((t3.mul (.fin false 3 (-1))).sub (t2.mul (.fin false 5 (-1)))).add (.ofNat 1)
  else if Num.lt t (.ofNat 2) then
    (((t3.mul (.fin true 1 (-1))).add (t2.mul (.fin false 5 (-1)))).sub (t.mul (.ofNat 4))).add (.ofNat 2)
  else Num.zero

/-- The overlap of pixel `i` with a footprint of width `s` about `x`. -/
def overlap (x s : Num) (i : Int) : Num :=
  let hi := Num.min ((Num.ofInt i).add oneHalf) (x.add (s.shift (-1)))
  let lo := Num.max ((Num.ofInt i).sub oneHalf) (x.sub (s.shift (-1)))
  Num.max (hi.sub lo) Num.zero

/-- The taps of one axis: index and weight. [DESIGN CHOICE: log 69] -/
def axisTaps (interp : Nat) (x s : Num) : List (Int × Num) :=
  let f := x.floorInt
  match interp with
  | 0 => let w := x.sub (.ofInt f); [(f, (Num.ofNat 1).sub w), (f + 1, w)]
  | 1 => [f - 1, f, f + 1, f + 2].map (fun i => (i, cubicWeight (x.sub (.ofInt i))))
  | _ =>
    let lo := (x.sub (s.shift (-1))).floorInt
    (List.range (s.floorInt + 4).toNat).map (fun (k : Nat) => (lo + (k : Int), overlap x s (lo + (k : Int))))

/-- One output pixel, in source channel order; none where it is padding (R344). `pix` gives the source pixels.
[DESIGN CHOICE: log 69] -/
def Geom.sample (g : Geom) (p : Profile) (pix : Nat → Nat → List Num) (chans oh ow u v : Nat) : Option (List Num) :=
  let pos := g.position oh ow u v
  if !(inCrop pos.1 g.cx g.cw && inCrop pos.2 g.cy g.ch) then none
  else
    let sc := g.scales oh ow
    let xt := axisTaps g.interp pos.1 sc.1
    let yt := axisTaps g.interp pos.2 sc.2
    let taps := (yt.map (fun y => xt.map (fun x =>
      (x.2.mul y.2, pix (clampIdx g.cx g.cw x.1) (clampIdx g.cy g.ch y.1))))).foldr (· ++ ·) []
    some ((List.range chans).map (fun c =>
      clampPix (f32At p.clip 0) (blend (47 + g.interp) (taps.map (fun t => (t.1, nth t.2 c Num.zero))))))

/-! ## Output (R346) -/

/-- The formats of FMT_OUT (R335). -/
def imageFormat (b : Nat) : Bool := !fmtMx b && [0x1, 0x4, 0x8, 0x9, 0xA, 0xB, 0xC].contains (fmtCode b)

/-- The value of channel `c` (output order) of an output pixel before conversion: gain and bias, clamp, normalisation.
[DEDUCED: log 70] -/
def outValue (g : Geom) (p : Profile) (chans : Nat) (px : Option (List Num)) (c : Nat) : Num :=
  let v := match px with
    | some l =>
      let x := nth l (if chans = 3 ∧ p.order = 1 then 2 - c else c) Num.zero
      clampPix (f32At p.clip 0) (f32add (f32mul x (nth g.gain c (.ofNat 1))) (nth g.bias c Num.zero))
    | none => f32At p.pad c
  f32fma v (f32At p.normA c) (f32At p.normB c)

/-- The place of an element by its flat index: (channel, row, column). [DEDUCED: log 22] -/
def flatPlace (layout chans oh ow i : Nat) : Nat × Nat × Nat :=
  if layout = 0 then (i / (oh * ow), (i / ow) % oh, i % ow) else (i % chans, i / (chans * ow), (i / chans) % ow)

/-- The elements of one output tensor, in flat order, converted into FMT_OUT. -/
def OpRun.tensor (o : OpRun) (g : Geom) (p : Profile) (chans oh ow : Nat) (px : Nat → Nat → Option (List Num)) :
    OpRun × List Nat :=
  (List.range (oh * ow * chans)).foldl (fun (s : OpRun × List Nat) i =>
    let pl := flatPlace p.layout chans oh ow i
    let r := s.1.conv 0xC (fmtCode (Desc.fmtOut o.raw)) (i % 1024) (outValue g p chans (px pl.2.2 pl.2.1) pl.1)
    (r.1, s.2 ++ [r.2])) (o, [])

/-- A source image through the pipeline. -/
def OpRun.render (o : OpRun) (s : Source) (p : Profile) (g : Geom) (chans oh ow : Nat) : OpRun × List Nat :=
  o.tensor g p chans oh ow (fun u v => g.sample p (s.pixel p (chans == 3)) chans oh ow u v)

/-- A tensor of padding only. -/
def OpRun.padding (o : OpRun) (p : Profile) (chans oh ow : Nat) : OpRun × List Nat :=
  o.tensor (geomPlain 1 1) p chans oh ow (fun _ _ => none)

end Sys2Proof.Machine
end

