-- ==== Sys2Proof/Machine/Ingest.lean ====
section
/-!
DEFINITION. Gauze's live side (chapter 11): CSI-2 receivers and live pipes, blanking-row checks, sensor Ethernet filters
and point scans, SPI ports, triggers.
-/
namespace Sys2Proof.Machine

/-! ## Entries and gates -/

/-- The committed entries of the Gauze block. -/
def Chip.gzeCfg (c : Chip) : Table Nat := c.dict.filter (fun p => decide (0x3C0000 ≤ p.1) && decide (p.1 < 0x400000))

/-- The chip under a kept copy of the Gauze entries (R320): only entries are read through it. -/
def Chip.under (c : Chip) (cfg : Table Nat) : Chip := { c with dict := cfg }

/-- Whether the live side runs (R26, R358). -/
def Chip.gzeLive (c : Chip) : Bool := c.on R.GZE_CTRL_ENABLE && c.domainState 18 == 0 && !c.isolated.contains 94

/-- A pipe, a filter, an SPI port, a group or an output changed. -/
def Chip.setPipe (c : Chip) (p : Nat) (f : PipeState → PipeState) : Chip :=
  { c with gze := { c.gze with pipes := modifyNth c.gze.pipes p f } }
def Chip.setFilter (c : Chip) (n : Nat) (f : FilterState → FilterState) : Chip :=
  { c with gze := { c.gze with filters := modifyNth c.gze.filters n f } }
def Chip.setSpi (c : Chip) (n : Nat) (f : SpiState → SpiState) : Chip :=
  { c with gze := { c.gze with spi := modifyNth c.gze.spi n f } }
def Chip.setTrig (c : Chip) (n : Nat) (f : TrigGroup → TrigGroup) : Chip :=
  { c with gze := { c.gze with groups := modifyNth c.gze.groups n f } }
def Chip.setTrigOut (c : Chip) (n : Nat) (f : TrigOut → TrigOut) : Chip :=
  { c with gze := { c.gze with outputs := modifyNth c.gze.outputs n f } }
def Chip.pipe (c : Chip) (p : Nat) : PipeState := c.gze.pipes.getD p ⟨none, [], [], 0, 0, 0, none, none⟩
def Chip.filt (c : Chip) (n : Nat) : FilterState := c.gze.filters.getD n ⟨0, [], 0, 0, 0, 0, 0⟩
def Chip.trig (c : Chip) (n : Nat) : TrigGroup := c.gze.groups.getD n ⟨0, []⟩

/-- Subindex `s` of pipe `p`, and of filter `n`. -/
def Chip.pipeEntry (c : Chip) (p s : Nat) : Nat := c.entry (0x3C60 + p) s
def Chip.filtEntry (c : Chip) (n s : Nat) : Nat := c.entry (0x3C80 + n) s

/-- Receiver, virtual channel and data type of a SOURCE value (R334). -/
def sourceRx (v : Nat) : Nat := bits v 0 3
def sourceVc (v : Nat) : Nat := bits v 3 2
def sourceDt (v : Nat) : Nat := bits v 5 6

/-! ## Flags of a frame record (R336), numbered from bit 225 -/

def flShort : Nat := 0
def flLong : Nat := 1
def flLineErr : Nat := 2
def flUntriggered : Nat := 3
def flDupEpoch : Nat := 4
def flOverrun : Nat := 5
def flPatternFail : Nat := 6
def flPatternMissing : Nat := 7
def flCounterFail : Nat := 8
def flFull : Nat := 9

/-- A flag set in a flag word. -/
def flagSet (v k : Nat) : Nat := v ||| 2 ^ k

/-- The bits of a frame or scan record. -/
def frameRecord (seq epoch fs fe lines crcs flags count dropped points : Nat) : Nat :=
  bits seq 0 32 + (bits epoch 0 32 <<< 32) + (bits fs 0 64 <<< 64) + (bits fe 0 64 <<< 128) + (min lines 65535 <<< 192) +
  (min crcs 65535 <<< 208) + (1 <<< 224) + (bits flags 0 10 <<< 225) + (bits count 0 32 <<< 256) +
  (min dropped 0xFFFFFFFF <<< 288) + (bits points 0 32 <<< 320)

/-! ## Blanking-row checks (R340) -/

/-- The counter bytes of row 0: offset and width. -/
def counterPlace (v : Nat) : Nat × Nat := (bits v 0 12, min (bits v 12 3) 4)

/-- Whether the pattern rows equal the reference bytes, the counter bytes of row 0 left out. -/
def rowsMatch (place : Nat × Nat) : Nat → List (List Byte) → List Byte → Bool
  | _, [], _ => true
  | k, r :: rs, ref =>
    (List.range r.length).all (fun i =>
      (k == 0 && decide (place.1 ≤ i) && decide (i < place.1 + place.2)) || r[i]? == ref[i]?) &&
    rowsMatch place (k + 1) rs (ref.drop r.length)

/-- The check of a closed frame's pattern rows: flags and counter in the frame, the counter kept for the next. -/
def Chip.blankCheck (c : Chip) (p : Nat) (f : PipeFrame) : Chip × PipeFrame :=
  let k := c.under f.cfg
  if k.pipeEntry p 0x16 = 0 then (c, f)
  else
    let want := k.pipeEntry p 0x17
    let rows := f.rows.take want
    let place := counterPlace (k.pipeEntry p 0x19)
    let total := (rows.map List.length).foldl (· + ·) 0
    let r := c.devRead (k.pipeEntry p 0x18) total
    let fl := if rowsMatch place 0 rows r.2.2 then f.flags else flagSet f.flags flPatternFail
    let fl := if rows.length < want then flagSet fl flPatternMissing else fl
    match rows.head? with
    | some row =>
      if place.2 = 0 then (r.1, { f with flags := fl })
      else
        let v := leNat ((row.drop place.1).take place.2)
        let bad := match (r.1.pipe p).counter with
          | some old => v != (old + 1) % 2 ^ (8 * place.2)
          | none => false
        (r.1.setPipe p (fun q => { q with counter := some v }),
         { f with flags := if bad then flagSet fl flCounterFail else fl, counter := v })
    | none => (r.1, { f with flags := fl })

/-! ## Frames (R322, R336 to R338) -/

/-- The open frame of a pipe closes now: missing lines, pattern rows. `early` says that a new FS closes it before its FE: SHORT
(R322). A dropped frame ends here; another waits for its record. -/
def Chip.closeFrame (c : Chip) (p : Nat) (early : Bool) : Chip :=
  match (c.pipe p).frame with
  | none => c
  | some f =>
    let k := c.under f.cfg
    let f := { f with feTime := c.now,
                      flags := if early || decide (f.lines.length < k.pipeEntry p 4) then flagSet f.flags flShort else f.flags }
    let r := c.blankCheck p f
    let f := r.2
    let c := if bits f.flags 6 3 != 0 then r.1.count R.GZE_PIPE_CNT_PATTERN_ERRS p else r.1
    c.setPipe p (fun q => { q with frame := none, embedded := [], done := if f.dropped then q.done else q.done ++ [f] })

/-- The epoch whose window holds a frame's FS time (R337): number and time. -/
def Chip.epochOf (c : Chip) (p fs : Nat) : Option (Nat × Nat) :=
  (c.trig (c.pipeEntry p 0x13)).epochs.find? (fun e =>
    decide (e.2 + c.pipeEntry p 0x14 ≤ fs) && decide (fs < e.2 + c.pipeEntry p 0x15))

/-- A frame opens on a pipe (R337, R338). -/
def Chip.openFrame (c : Chip) (p : Nat) : Chip :=
  let c := c.closeFrame p true
  let q := c.pipe p
  let buf := q.nextBuf % max 1 (c.pipeEntry p 0x0E)
  let r := c.devRead (c.pipeEntry p 0x10 + 64 * buf) 64
  let c := r.1
  let ready := (leNat r.2.2).testBit 224
  let ep := c.epochOf p c.now
  let dup := match ep with
    | some e => q.epochTime == some e.2
    | none => false
  let f : PipeFrame :=
    { cfg := c.gzeCfg, buffer := buf, dropped := ready, fsTime := c.now, feTime := 0,
      epoch := (ep.map (·.1)).getD 0xFFFFFFFF,
      lines := [], seen := 0, rows := if c.pipeEntry p 0x16 = 1 then q.embedded else [], crcErrs := 0,
      flags := (if ep.isNone then 2 ^ flUntriggered else 0) + (if dup then 2 ^ flDupEpoch else 0), counter := 0 }
  let c := if ready then (c.count R.GZE_PIPE_CNT_DROPPED p).latch R.GZE_STATUS_DROP else c
  c.setPipe p (fun q => { q with
      frame := some f, embedded := [],
      nextBuf := if ready then buf else buf + 1,
      droppedBefore := if ready then q.droppedBefore + 1 else q.droppedBefore,
      epochTime := (ep.map (·.2)).or q.epochTime })

/-- Whether receiver `rx` runs. -/
def Chip.rxRuns (c : Chip) (rx : Nat) : Bool :=
  c.gzeLive && decide (rx < 8) && c.entryOn (0x3C20 + rx) 1 && !c.isolated.contains (83 + rx)

/-- The enabled pipes that take a stream. -/
def Chip.pipesOf (c : Chip) (rx vc : Nat) : List Nat :=
  (List.range 16).filter (fun p => c.pipeEntry p 1 != 0 && sourceRx (c.pipeEntry p 2) == rx && sourceVc (c.pipeEntry p 2) == vc)

/-- The pipes with an open frame of a stream. -/
def Chip.openPipes (c : Chip) (rx vc : Nat) : List Nat :=
  (List.range 16).filter (fun p => match (c.pipe p).frame with
    | some f => let v := (c.under f.cfg).pipeEntry p 2; sourceRx v == rx && sourceVc v == vc
    | none => false)

/-- The open frame of a pipe changed. -/
def Chip.modFrame (c : Chip) (p : Nat) (f : PipeFrame → PipeFrame) : Chip :=
  c.setPipe p (fun q => { q with frame := q.frame.map f })

/-- A packet whose header passes its ECC check goes on, counted where a bit was corrected; one that does not is dropped, and the
stream's open frames have LINE_ERR (R322). [DEDUCED: log 76] -/
def Chip.headerChecked (c : Chip) (rx vc : Nat) (hdr : HeaderCheck) (f : Chip → Chip) : Chip :=
  match hdr with
  | .good => f c
  | .corrected => f ((c.count R.GZE_RX_CNT_HDR_CORR rx).latch R.GZE_STATUS_PKT_ERR)
  | .bad =>
    (c.openPipes rx vc).foldl (fun (c : Chip) p => c.modFrame p (fun f => { f with flags := flagSet f.flags flLineErr }))
      ((c.count R.GZE_RX_CNT_HDR_DROP rx).latch R.GZE_STATUS_PKT_ERR)

/-- CSI2_FRAME_START (R322, R338). The frame number of the FS packet is not used. [DEDUCED: log 76] -/
def execCsi2FrameStart (rx vc frameNumber : Nat) (hdr : HeaderCheck) (s : State) : Host.Outcome State Fault Refusal :=
  s.run [.regs, .dict, .msl, .drc, .gze, .sent] (fun c =>
    if !c.rxRuns rx then c
    else c.headerChecked rx vc hdr (fun c =>
      if 3 < vc then c.count R.GZE_RX_CNT_VC_DROP rx (if frameNumber < 65536 then 1 else 0)
      else (c.pipesOf rx vc).foldl (fun c p => c.openFrame p) c))

/-- CSI2_FRAME_END (R322). [DEDUCED: log 76, 79] -/
def execCsi2FrameEnd (rx vc : Nat) (hdr : HeaderCheck) (s : State) : Host.Outcome State Fault Refusal :=
  s.run [.regs, .dict, .msl, .drc, .gze, .sent] (fun c =>
    if !c.rxRuns rx then c
    else c.headerChecked rx vc hdr (fun c =>
      if 3 < vc then c.count R.GZE_RX_CNT_VC_DROP rx
      else (c.openPipes rx vc).foldl (fun c p => c.closeFrame p false) c))

/-- An image line of an open frame: cut or extended, or dropped beyond SRC_HEIGHT (R322). -/
def PipeFrame.image (f : PipeFrame) (width height dt : Nat) (payload : List Byte) : PipeFrame :=
  let want := csiLineBytes dt width
  if f.lines.length < height then
    { f with lines := f.lines ++ [payload.take want],
             flags := if payload.length = want then f.flags else flagSet f.flags flLineErr }
  else { f with flags := flagSet f.flags flLong }

/-- A line of a pipe's data type reaches its open frame (R322, R340): in mode 2 the first lines are pattern rows, in mode 3 the last
ones, so that a line is known as an image line once enough others follow it. -/
def PipeFrame.line (f : PipeFrame) (width height mode rows dt : Nat) (payload : List Byte) : PipeFrame :=
  let n := f.seen
  let f := { f with seen := n + 1 }
  if mode = 2 ∧ n < rows then { f with rows := f.rows ++ [payload] }
  else if mode = 3 then
    let last := f.rows ++ [payload]
    if last.length ≤ rows then { f with rows := last }
    else PipeFrame.image { f with rows := last.drop 1 } width height dt (last.headD [])
  else f.image width height dt payload

/-- CSI2_LONG_PACKET (R322, R340). The pipes in `full` have their line buffers full: they drop the line, which is missing from then
on. [DEDUCED: log 76, 77] -/
def execCsi2LongPacket (rx vc dataType : Nat) (payload : List Byte) (hdr : HeaderCheck) (crcOk : Bool) (full : List Nat) (s : State) :
    Host.Outcome State Fault Refusal :=
  s.run [.regs, .dict, .gze] (fun c =>
    if !c.rxRuns rx then c
    else c.headerChecked rx vc hdr (fun c =>
        if 3 < vc then c.count R.GZE_RX_CNT_VC_DROP rx
        else
          let c := if crcOk then c else (c.count R.GZE_RX_CNT_CRC_ERR rx).latch R.GZE_STATUS_PKT_ERR
          let c := (c.openPipes rx vc).foldl (fun (c : Chip) p =>
            c.modFrame p (fun f =>
              let k := c.under f.cfg
              if sourceDt (k.pipeEntry p 2) = dataType then
                let f := if crcOk then f else { f with crcErrs := f.crcErrs + 1, flags := flagSet f.flags flLineErr }
                if full.contains p then { f with flags := flagSet f.flags flOverrun }
                else f.line (k.pipeEntry p 3) (k.pipeEntry p 4) (k.pipeEntry p 0x16) (k.pipeEntry p 0x17) dataType payload
              else f)) c
          if dataType = 0x12 then
            (c.pipesOf rx vc).foldl (fun (c : Chip) p =>
              if c.pipeEntry p 0x16 = 1 ∧ (c.pipe p).frame.isNone then
                c.setPipe p (fun q => { q with embedded := q.embedded ++ [payload] })
              else c) c
          else c))

/-- An operation that only carries a format, a rounding byte and a seed (R53, R334). -/
def imageOp (fmt rnd seed : Nat) : OpRun :=
  OpRun.start ⟨0, 0, 0, 0, 0, 0, (seed <<< 160) + (fmt <<< 216) + (bits rnd 0 3 <<< 224)⟩ 20 0

/-- The tensor bytes of a closed frame. [DESIGN CHOICE: log 75] -/
def Chip.frameTensor (c : Chip) (p : Nat) (f : PipeFrame) : List Byte :=
  let k := c.under f.cfg
  let e := fun s => k.pipeEntry p s
  let pr := k.profile (e 5)
  let h := e 4
  let src : Source := ⟨sourceDt (e 2), e 3, h, f.lines ++ List.replicate (h - f.lines.length) []⟩
  let g := geomOf (e 6) (e 3) h
  let o := imageOp (e 0x0A) (e 0x0B) (e 0x0C)
  packElems (fmtWidth (fmtCode (e 0x0A))) (o.render src pr g (e 9) (e 7) (e 8)).2

/-- FRAME_RECORD_WRITE (R338): the tensor is in its buffer, the record is written with READY, the signal is posted.
[DESIGN CHOICE: log 75] -/
def execFrameRecordWrite (pipe : Nat) (s : State) : Host.Outcome State Fault Refusal :=
  s.run [.regs, .dict, .muslin, .dsp, .qmg, .msl, .drc, .gze, .gng, .sent] (fun c =>
    match (c.pipe pipe).done with
    | [] => c
    | f :: rest =>
      let k := c.under f.cfg
      let q := c.pipe pipe
      let c := (c.devWrite (k.pipeEntry pipe 0x0D + f.buffer * k.pipeEntry pipe 0x0F) (c.frameTensor pipe f)).1
      let lines := f.seen - (if k.pipeEntry pipe 0x16 = 2 ∨ k.pipeEntry pipe 0x16 = 3 then f.rows.length else 0)
      let rec_ := frameRecord q.seq f.epoch f.fsTime f.feTime lines f.crcErrs f.flags f.counter q.droppedBefore 0
      let c := (c.devWrite (k.pipeEntry pipe 0x10 + 64 * f.buffer) (leBytes 64 rec_)).1
      let c := c.count R.GZE_PIPE_CNT_FRAMES pipe
      let c := if f.flags = 0 then c else c.latch R.GZE_STATUS_FRAME_FLAG
      let c := c.setPipe pipe (fun q => { q with done := rest, seq := (q.seq + 1) % 2 ^ 32, droppedBefore := 0 })
      c.signalAdd (k.pipeEntry pipe 0x11) 1)

/-- CSI2_RX_LOCK_CHANGE (R358). -/
def execCsi2RxLockChange (rx : Nat) (locked : Bool) (s : State) : Host.Outcome State Fault Refusal :=
  s.run [.regs] (fun c =>
    if rx < 8 then c.wr R.GZE_STATUS_RX_LOCK (setBits (c.rd R.GZE_STATUS_RX_LOCK) rx 1 (b2n (locked && c.rxRuns rx))) else c)

/-! ## Sensor Ethernet (R323 to R328) -/

/-- Big-endian 16-bit value at a place of a byte string. [PRESUMED: log 80] -/
def be16 (bs : List Byte) (i : Nat) : Nat := beNat ((bs.drop i).take 2)

/-- The sum of the big-endian 16-bit words of a byte string, an odd last byte padded with zero. [PRESUMED: log 80] -/
def wordSum : List Byte → Nat
  | [] => 0
  | [a] => a.toNat * 256
  | a :: b :: r => a.toNat * 256 + b.toNat + wordSum r

/-- A byte string whose ones' complement sum, checksum included, verifies. [PRESUMED: log 80] -/
def sumsOk (n : Nat) : Bool := n != 0 && n % 65535 == 0

/-- A frame as a filter sees it: the frame without its tag, its EtherType, and its UDP destination port and payload. -/
structure EthFrame where
  bytes : List Byte
  etherType : Nat
  udp : Option (Nat × List Byte)
  deriving DecidableEq, Repr

/-- What a port finds in a frame (R323). -/
inductive EthFinding where
  | ok (f : EthFrame)
  | unmatched
  | checksum
  | fragment
  deriving DecidableEq, Repr

/-- A frame checked: one 802.1Q tag stripped, IPv4 and UDP checksums, fragments. [PRESUMED: log 80] -/
def ethParse (frame : List Byte) : EthFinding :=
  let tagged := be16 frame 12 == 0x8100
  let bytes := if tagged then frame.take 12 ++ frame.drop 16 else frame
  let ty := be16 bytes 12
  if ty = 0x8100 ∨ ty = 0x88A8 then .unmatched
  else if ty ≠ 0x0800 then .ok ⟨bytes, ty, none⟩
  else
    let ip := bytes.drop 14
    let ihl := bits ((ip.headD 0).toNat) 0 4
    if !sumsOk (wordSum (ip.take (4 * ihl))) then .checksum
    else if bits (be16 ip 6) 0 14 != 0 then .fragment
    else if ihl ≠ 5 ∨ (ip.getD 9 0).toNat ≠ 17 then .ok ⟨bytes, ty, none⟩
    else
      let seg := (ip.drop 20).take (be16 ip 2 - 20)
      let len := be16 seg 4
      let pseudo := wordSum ((ip.drop 12).take 8) + 17 + len
      if be16 seg 6 != 0 && !sumsOk (wordSum (seg.take len) + pseudo) then .checksum
      else .ok ⟨bytes, ty, some (be16 seg 2, (seg.take len).drop 8)⟩

/-- The open scan of a filter whose window holds a time. -/
def Chip.scanAt (c : Chip) (n time : Nat) : Option ScanWindow :=
  (c.filt n).scans.find? (fun x => decide (x.start ≤ time) && decide (time < x.finish))

/-- The chip under the entries that a filter has for a packet: those of the open scan whose window holds its time, or the entries as
they stand (R320). -/
def Chip.filtUnder (c : Chip) (n time : Nat) : Chip :=
  match c.scanAt n time with
  | some x => c.under x.cfg
  | none => c

/-- The lowest enabled filter of a port that matches a frame stamped `time` (R324). -/
def Chip.ethFilter (c : Chip) (port time : Nat) (f : EthFrame) : Option Nat :=
  ((List.range 8).map (· + 8 * port)).find? (fun n =>
    let k := c.filtUnder n time
    k.filtEntry n 1 != 0 &&
    (if k.filtEntry n 2 = 0 then k.filtEntry n 3 == f.etherType
     else match f.udp with | some u => u.1 == k.filtEntry n 3 | none => false))

/-- A frame is dropped: ETH_ERR. -/
def Chip.ethDrop (c : Chip) : Chip := c.latch R.GZE_STATUS_ETH_ERR

/-- A raw-ring entry (R325). -/
def Chip.rawEntry (c : Chip) (n port sfd : Nat) (f : EthFrame) : Chip :=
  let q := c.filt n
  let size := c.filtEntry n 8
  let room := size - 16
  let len := f.bytes.length
  let hdr := q.seq + ((sfd % 2 ^ 32) <<< 32) + (bits len 0 14 <<< 64) + ((n % 8) <<< 78) + (b2n (decide (room < len)) <<< 81)
  let at_ := c.filtEntry n 6 + (q.seq % 2 ^ c.filtEntry n 7) * size
  let c := (c.devWrite at_ (leBytes 16 hdr ++ f.bytes.take room)).1
  let c := if room < len then c.count R.GZE_ETH_CNT_TRUNCATED port else c
  c.setFilter n (fun q => { q with seq := (q.seq + 1) % 2 ^ 32 })

/-- The value of a template field at a point (R326): a type of 6 or 7 means none, value 0. -/
def templateField (t desc : Nat) (pt : List Byte) : Num :=
  let off := bits desc 0 12
  let get := fun n => let b := (pt.drop off).take n; if t.testBit 49 then beNat b else leNat b
  match bits desc 12 3 with
  | 0 => .ofNat (get 1)
  | 1 => .ofNat (get 2)
  | 2 => .ofInt (toSigned 16 (get 2))
  | 3 => .ofNat (get 4)
  | 4 => .ofInt (toSigned 32 (get 4))
  | 5 => f32val (get 4)
  | _ => Num.zero

/-- The point record of a point (R327); none for a point whose coordinates are all zero. -/
def pointRecord (t elev : Nat) (pt : List Byte) : Option Nat :=
  let f := fun k => templateField t (bits t (64 + 16 * k) 16) pt
  let scale := f32val (bits t 128 32)
  let spherical := t.testBit 48
  let ring := (f 2).truncInt
  let xyz :=
    if spherical then
      let r := f32mul (f 0) scale
      let a := f32mul (f 1) (f32val (bits t 160 32))
      let e := f32At elev (ring % 128).toNat
      let re := f32mul r (fnSinCos 50 1 e).1
      [f32mul re (fnSinCos 50 1 a).1, f32mul re (fnSinCos 51 0 a).1, f32mul r (fnSinCos 51 0 e).1]
    else [f32mul (f 0) scale, f32mul (f 1) scale, f32mul (f 2) scale]
  if xyz.all Num.isZero then none
  else
    let w := fun k => f32bits (nth xyz k Num.zero)
    some (w 0 + (w 1 <<< 32) + (w 2 <<< 64) + ((encodeInt 16 false 0 0 0 (f 3)).1 <<< 96) +
      ((if spherical then (ring % 256).toNat else 0) <<< 112))

/-- The points of a packet's UDP payload. -/
def packetPoints (t elev : Nat) (payload : List Byte) : List Nat :=
  let skip := bits t 0 16
  let stride := bits t 16 16
  let fit := if stride = 0 then 0 else (payload.length - skip) / stride
  let n := if bits t 32 16 = 0 then fit else min (bits t 32 16) fit
  (List.range n).filterMap (fun k => pointRecord t elev ((payload.drop (skip + k * stride)).take stride))

/-- The scan windows of a filter in point mode that its entries serve, oldest first: epoch number, start and end. The last window ends
at the next epoch its group's entries give. [DEDUCED: log 78] -/
def Chip.scanWindows (c : Chip) (n : Nat) : List (Nat × Nat × Nat) :=
  if c.filtEntry n 1 = 0 ∨ c.filtEntry n 4 = 0 then []
  else
    let g := c.filtEntry n 0x0B
    let d := c.filtEntry n 0x0C
    let es := (c.trig g).epochs
    let ends := ((es.headD (0, 0)).2 + c.entry (0x3C00 + g) 3) :: es.map (·.2)
    (((es.zip ends).filter (fun p => decide ((c.filt n).since ≤ p.1.2 + d))).map
      (fun p => (p.1.1, p.1.2 + d, p.2 + d))).reverse

/-- A scan opens in the next buffer, or as dropped where the consumer still owns it (R328, R338), under the entries of `k`.
[DEDUCED: log 78] -/
def Chip.openScan (c k : Chip) (n : Nat) (w : Nat × Nat × Nat) : Chip :=
  let q := c.filt n
  let buf := q.nextBuf % max 1 (k.filtEntry n 7)
  let r := c.devRead (k.filtEntry n 9 + 64 * buf) 64
  let ready := (leNat r.2.2).testBit 224
  let c := if ready then r.1.latch R.GZE_STATUS_DROP else r.1
  c.setFilter n (fun q => { q with
    scans := q.scans ++ [⟨k.gzeCfg, w.1, w.2.1, w.2.2, buf, ready, 0, 0, 0, 0, false⟩],
    nextBuf := if ready then buf else buf + 1,
    droppedBefore := if ready then q.droppedBefore + 1 else q.droppedBefore })

/-- A packet's points enter an open scan (R328). -/
def Chip.scanInto (c : Chip) (n sfd : Nat) (payload : List Byte) (x : ScanWindow) : Chip :=
  let k := c.under x.cfg
  let pts := packetPoints (k.filtEntry n 0x0D) (k.filtEntry n 0x0E) payload
  let room := k.filtEntry n 8 - x.points
  let base := k.filtEntry n 6 + x.buffer * (16 * k.filtEntry n 8) + 16 * x.points
  let put := pts.take room
  let c := if x.dropped then c else (c.devWrite base ((put.map (leBytes 16)).foldr (· ++ ·) [])).1
  let x' := { x with points := x.points + put.length, packets := x.packets + 1,
                     first := if x.packets = 0 then sfd else x.first, last := sfd,
                     full := x.full || decide (room < pts.length) }
  c.setFilter n (fun q => { q with scans := q.scans.map (fun y => if y.start = x.start then x' else y) })

/-- A packet's points enter the scan of its window, which opens with the first; a packet whose window's scan has closed is late
(R328). [DEDUCED: log 79] -/
def Chip.scanPacket (c : Chip) (n port sfd : Nat) (payload : List Byte) : Chip :=
  match c.scanAt n sfd with
  | some x => c.scanInto n sfd payload x
  | none =>
    if sfd < (c.filt n).closedTo then (c.count R.GZE_ETH_CNT_LATE port).ethDrop
    else
      match (c.scanWindows n).find? (fun w => decide (w.2.1 ≤ sfd) && decide (sfd < w.2.2)) with
      | none => c.ethDrop
      | some w =>
        let c := c.openScan c n w
        match c.scanAt n sfd with
        | some x => c.scanInto n sfd payload x
        | none => c

/-- SENSOR_ETH_FRAME (R323 to R328): a frame without its FCS, stamped at its start-of-frame delimiter. -/
def execSensorEthFrame (port sfdNs : Nat) (frame : List Byte) (fcsOk : Bool) (s : State) :
    Host.Outcome State Fault Refusal :=
  s.run [.regs, .dict, .muslin, .msl, .drc, .gze, .sent] (fun c =>
    let port := port % 2
    if !c.gzeLive || c.isolated.contains (91 + port) then c
    else if !fcsOk then (c.count R.GZE_ETH_CNT_FCS_ERR port).ethDrop
    else if frame.length < 60 ∨ 9212 < frame.length ∨ be16 frame 12 = 0x8808 then c.ethDrop
    else
      match ethParse frame with
      | .unmatched => (c.count R.GZE_ETH_CNT_UNMATCHED port).ethDrop
      | .checksum => (c.count R.GZE_ETH_CNT_CSUM_ERR port).ethDrop
      | .fragment => (c.count R.GZE_ETH_CNT_FRAGMENT port).ethDrop
      | .ok f =>
        match c.ethFilter port sfdNs f with
        | none => (c.count R.GZE_ETH_CNT_UNMATCHED port).ethDrop
        | some n =>
          let c := c.count R.GZE_ETH_CNT_ACCEPTED port
          if (c.filtUnder n sfdNs).filtEntry n 4 = 0 then c.rawEntry n port sfdNs f
          else
            match f.udp with
            | some u => c.scanPacket n port sfdNs u.2
            | none => c)

/-- The windows of a filter that have neither an open scan nor closed, oldest first. -/
def Chip.scanUnopened (c : Chip) (n : Nat) : List (Nat × Nat × Nat) :=
  (c.scanWindows n).filter (fun w => decide ((c.filt n).closedTo < w.2.2) && !(c.filt n).scans.any (fun x => x.start == w.2.1))

/-- The open scan of a filter whose window ends first. -/
def Chip.oldestScan (c : Chip) (n : Nat) : Option ScanWindow :=
  bestBy (fun (a b : ScanWindow) => decide (a.finish < b.finish)) (c.filt n).scans

/-- SCAN_CLOSE (R328): 50 us after the end of its window, the oldest scan closes; a window in which no packet came has an
empty scan. [DEDUCED: log 78] -/
def execScanClose (filter : Nat) (s : State) : Host.Outcome State Fault Refusal :=
  s.run [.regs, .dict, .muslin, .tku, .dsp, .qmg, .msl, .drc, .gze, .gng, .sent] (fun c =>
    if !c.gzeLive then c
    else
      let c := match c.scanUnopened filter with
        | w :: _ => if (c.filt filter).scans.all (fun x => decide (w.2.2 < x.finish)) then c.openScan c filter w else c
        | [] => c
      match c.oldestScan filter with
      | none => c
      | some x =>
        let c := c.advanceTo (x.finish + 50000)
        let q := c.filt filter
        let k := c.under x.cfg
        let c := c.setFilter filter (fun q => { q with scans := q.scans.filter (fun y => y.start != x.start),
                                                       closedTo := max q.closedTo x.finish })
        if x.dropped then c
        else
          let rec_ := frameRecord q.delivered x.number x.first x.last x.packets 0 (if x.full then 2 ^ flFull else 0) 0
            q.droppedBefore x.points
          let c := (c.devWrite (k.filtEntry filter 9 + 64 * x.buffer) (leBytes 64 rec_)).1
          let c := if x.full then c.latch R.GZE_STATUS_FRAME_FLAG else c
          let c := c.setFilter filter (fun q => { q with delivered := (q.delivered + 1) % 2 ^ 32, droppedBefore := 0 })
          c.signalAdd (k.filtEntry filter 0x0A) 1)

/-! ## SPI (R329, R330) -/

/-- A start event of a port at time `t`: a transaction starts and its TX bytes are shifted out, or the event is missed (R329).
[DESIGN CHOICE: log 81] -/
def Chip.spiStart (c : Chip) (p t : Nat) : Chip :=
  match c.gze.spi[p]? with
  | none => c
  | some q =>
    if q.running.isSome then (c.count R.GZE_SPI_CNT_MISSED p).latch R.GZE_STATUS_SPI_MISSED
    else
      let e := fun s => c.entry (0x3CA0 + p) s
      (c.emit .spi p (e 2) ((leBytes 16 (e 7)).take (e 8))).setSpi p (fun q => { q with running := some (t, c.gzeCfg) })

/-- Whether a port is in use with a start code. -/
def Chip.spiOn (c : Chip) (p start : Nat) : Bool :=
  c.gzeLive && decide (p < 2) && c.entryOn (0x3CA0 + p) 1 && c.entry (0x3CA0 + p) 4 == start && !c.isolated.contains 93

/-- SPI_DRDY_EDGE (R329): an edge of the data-ready pin, which starts a transaction where START names that edge. -/
def execSpiDrdyEdge (port : Nat) (rising : Bool) (s : State) : Host.Outcome State Fault Refusal :=
  s.run [.regs, .gze, .sent] (fun c => if c.spiOn port (if rising then 0 else 1) then c.spiStart port c.now else c)

/-- The least time of a port's next start by an epoch or a period. -/
def Chip.spiAfter (c : Chip) (p : Nat) : Nat := ((c.gze.spi[p]?).map (·.after)).getD 0

/-- The next timed start of a port: the oldest epoch of EPOCH_GROUP that has fallen and started nothing yet, or the next whole multiple
of PERIOD_NS. [DESIGN CHOICE: log 81] -/
def Chip.spiNext (c : Chip) (p : Nat) : Option Nat :=
  let e := fun s => c.entry (0x3CA0 + p) s
  if c.spiOn p 2 then (((c.trig (e 5)).epochs.filter (fun x => decide (c.spiAfter p ≤ x.2))).getLast?).map (·.2)
  else if c.spiOn p 3 then some (ceilDiv (c.spiAfter p) (max 1 (e 6)) * max 1 (e 6))
  else none

/-- SPI_TIMED_START (R329): an epoch or a period. -/
def execSpiTimedStart (port : Nat) (s : State) : Host.Outcome State Fault Refusal :=
  s.run [.regs, .tku, .gze, .sent] (fun c =>
    match c.spiNext port with
    | some t => ((c.advanceTo t).setSpi port (fun q => { q with after := t + 1 })).spiStart port t
    | none => c)

/-- SPI_TRANSACTION_END (R330): the sample record enters the lossy ring. [DESIGN CHOICE: log 81] -/
def execSpiTransactionEnd (port : Nat) (data : List Byte) (s : State) : Host.Outcome State Fault Refusal :=
  s.run [.regs, .dict, .muslin, .tku, .msl, .drc, .gze, .sent] (fun c =>
    match c.gze.spi[port]? with
    | some ⟨some (start, cfg), seq, _⟩ =>
      let e := fun s => (c.under cfg).entry (0x3CA0 + port) s
      let len := e 9
      let bytes := (8 * (e 8 + len) * 1000000) / max 1 (e 3)
      let c := c.advanceTo (start + bytes)
      let got := data.take len
      let rec_ := leBytes 16 (seq + ((start % 2 ^ 32) <<< 32) + (bits len 0 6 <<< 64)) ++ got ++ List.replicate (48 - got.length) 0
      let c := (c.devWrite (e 0x0A + 64 * (seq % 2 ^ e 0x0B)) rec_).1
      let c := c.count R.GZE_SPI_CNT_SAMPLES port
      c.setSpi port (fun q => { q with running := none, seq := (seq + 1) % 2 ^ 32 })
    | _ => c)

/-! ## Triggers (R331 to R333) -/

/-- The epochs of a group (R331). -/
def Chip.trigRule (c : Chip) (g : Nat) : GridRule := ⟨c.entry (0x3C00 + g) 2, max 1 (c.entry (0x3C00 + g) 3), 1⟩

/-- TRIGGER_EPOCH (R331, R332): the epoch falls, takes its number, and schedules the outputs of its group. -/
def execTriggerEpoch (group : Nat) (s : State) : Host.Outcome State Fault Refusal :=
  s.run [.tku, .gze] (fun c =>
    if !(c.gzeLive && decide (group < 4) && c.entryOn (0x3C00 + group) 1) then c
    else
      let t := c.gridNext (gridTrig group) (c.trigRule group)
      let n := (c.trig group).number
      let c := (c.advanceTo t).gridServe (gridTrig group) t
      let c := c.setTrig group (fun q => { number := (n + 1) % 2 ^ 32, epochs := (n, t) :: q.epochs })
      (List.range 16).foldl (fun (c : Chip) k =>
        let e := fun s => c.entry (0x3C10 + k) s
        if e 1 != 0 && e 2 == group && n % max 1 (e 3) == 0 then
          c.setTrigOut k (fun o => { o with waiting := o.waiting ++ [t + e 4] })
        else c) c)

/-- TRIGGER_ASSERT (R332): the output asserts at its time, for its width. -/
def execTriggerAssert (output : Nat) (s : State) : Host.Outcome State Fault Refusal :=
  s.run [.tku, .gze] (fun c =>
    match c.gze.outputs[output]? with
    | some o =>
      match o.waiting with
      | t :: rest =>
        let c := c.advanceTo t
        c.setTrigOut output (fun _ => ⟨rest, some (t + c.entry (0x3C10 + output) 5)⟩)
      | [] => c
    | none => c)

/-- TRIGGER_DEASSERT (R332). -/
def execTriggerDeassert (output : Nat) (s : State) : Host.Outcome State Fault Refusal :=
  s.run [.tku, .gze] (fun c =>
    match c.gze.outputs[output]? with
    | some o =>
      match o.endsAt with
      | some t => (c.advanceTo t).setTrigOut output (fun o => { o with endsAt := none })
      | none => c
    | none => c)

/-- The level of a trigger output's pin: inactive unless a pulse runs. -/
def Chip.trigLevel (c : Chip) (k : Nat) : Bool :=
  (match c.gze.outputs[k]? with | some o => o.endsAt.isSome | none => false) != c.entryOn (0x3C10 + k) 6

/-- GZE_CTRL.ENABLE written 0: everything stops, outputs inactive, no receiver in lock (R358). -/
def Chip.gzeStop (c : Chip) : Chip :=
  let c := c.wr R.GZE_STATUS_RX_LOCK 0
  { c with gze := { c.gze with
      pipes := c.gze.pipes.map (fun q => { q with frame := none, done := [], embedded := [] }),
      filters := c.gze.filters.map (fun q => { q with scans := [] }),
      spi := c.gze.spi.map (fun q => { q with running := none }),
      outputs := c.gze.outputs.map (fun _ => ⟨[], none⟩) } }

/-- GZE_CTRL.ENABLE written 1 after 0: epochs, scan windows and timed starts go on from now; what fell while all was stopped did not
happen (R358). [DEDUCED: log 79] -/
def Chip.gzeRun (c : Chip) : Chip :=
  let c := { c with gze := { c.gze with filters := c.gze.filters.map (fun q => { q with since := c.now }),
                                        spi := c.gze.spi.map (fun q => { q with after := c.now }) } }
  (List.range 4).foldl (fun (c : Chip) g => c.gridFrom (gridTrig g) c.now) c

/-- A commit at `t` that writes the entries `keys`: a filter's windows that began before it stay under the old entries, as open scans
(R320), and an SPI port's timed starts go on from it. [DEDUCED: log 78] -/
def Chip.scansCommitted (old c : Chip) (t : Nat) (keys : List Nat) : Chip :=
  let touched := fun (i : Nat) => old.gzeLive && keys.any (fun k => k / 256 == i)
  let c := ((List.range 16).filter (fun n => touched (0x3C80 + n))).foldl (fun (c : Chip) n =>
    let c := ((old.scanUnopened n).filter (fun w => decide (w.2.1 < t))).foldl (fun (c : Chip) w => c.openScan old n w) c
    c.setFilter n (fun q => { q with since := t })) c
  ((List.range 2).filter (fun p => touched (0x3CA0 + p))).foldl (fun (c : Chip) p =>
    c.setSpi p (fun q => { q with after := t })) c

/-- Groups whose entries a commit enables or changes at an instant `t`: numbering restarts only at an enable (R331). -/
def Chip.trigCommitted (old c : Chip) (t : Nat) : Chip :=
  (List.range 4).foldl (fun (c : Chip) g =>
    let was := old.entryOn (0x3C00 + g) 1
    if !(c.entryOn (0x3C00 + g) 1) then c
    else
      let c := if was then c else c.setTrig g (fun _ => ⟨0, []⟩)
      if !was || [2, 3].any (fun s => old.entry (0x3C00 + g) s != c.entry (0x3C00 + g) s) then c.gridFrom (gridTrig g) t
      else c) c

/-! ## Consistency rules (R324, R326, R332, R335) -/

/-- Whether the Gauze entries are consistent; a pipe that is enabled, or that a session writes, must be whole (R335). -/
def Chip.gzeConsistent (c : Chip) (keys : List Nat) : Bool :=
  (List.range 16).all (fun k =>
    let e := fun s => c.entry (0x3C10 + k) s
    (e 1 == 0 || decide (1 ≤ e 3)) && decide (e 4 + e 5 ≤ c.entry (0x3C00 + e 2) 3 * e 3)) &&
  (List.range 16).all (fun p =>
    let e := fun s => c.pipeEntry p s
    (e 1 == 0 && !keys.any (fun k => k / 256 == 0x3C60 + p)) ||
      (let pr := c.profile (e 5)
       let g := geomOf (e 6) (e 3) (e 4)
       pr.ok && csiSuits (sourceDt (e 2)) pr.kind && imageFormat (e 0x0A) &&
       decide (e 7 * e 8 * e 9 * (fmtWidth (fmtCode (e 0x0A)) / 8) ≤ e 0x0F) && e 0x0F % 64 == 0 && e 0x10 % 64 == 0 &&
       g.ok (e 3) (e 4) (e 7) (e 8) && g.angle.isZero)) &&
  (List.range 16).all (fun n =>
    let t := c.filtEntry n 0x0D
    c.filtEntry n 1 == 0 ||
    (if c.filtEntry n 4 = 0 then
       decide (4 ≤ c.filtEntry n 7) && decide (c.filtEntry n 7 ≤ 16) && [2048, 4096, 8192, 16384].contains (c.filtEntry n 8)
     else
      decide (2 ≤ c.filtEntry n 7) && decide (1 ≤ c.filtEntry n 8) && c.filtEntry n 9 % 64 == 0 &&
      (bits t 16 16 != 0 && (List.range 4).all (fun k =>
        let d := bits t (64 + 16 * k) 16
        let w := nth [1, 2, 2, 4, 4, 4] (bits d 12 3) 0
        decide (6 ≤ bits d 12 3) || decide (bits d 0 12 + w ≤ bits t 16 16)))))

end Sys2Proof.Machine
end

