-- ==== Sys2Proof/Machine/Jpeg.lean ====
section
/-!
DEFINITION. Gauze's JPEG decoder (R348): ISO/IEC 10918-1 baseline sequential DCT with Huffman coding. The inverse DCT is
computed; where the order of its operations, which the spec does not state, decides a rounding, the choice is free.
-/
namespace Sys2Proof.Machine

/-- Why decoding stopped (R352), with the payload byte at which it did. -/
inductive JpegError where
  | truncated (at_ : Nat)
  | corrupt (at_ : Nat)
  | unsupported
  deriving DecidableEq, Repr

/-- A Huffman table: codes of each length 1 to 16, and the symbols in order of code. -/
structure Huffman where
  counts : List Nat
  symbols : List Nat
  deriving DecidableEq, Repr

/-- A component: identifier, sampling factors, quantisation table. -/
structure JpegComp where
  id : Nat
  h : Nat
  v : Nat
  tq : Nat
  deriving DecidableEq, Repr

/-- What the headers have said so far, with the place of the byte after the last segment read. -/
structure JpegHead where
  pos : Nat
  quant : List (Option (List Nat))
  dc : List (Option Huffman)
  ac : List (Option Huffman)
  w : Nat
  h : Nat
  comps : List JpegComp
  interval : Nat
  scan : List (Nat × Nat × Nat)
  ended : Bool
  deriving DecidableEq, Repr

/-- Nothing read yet. -/
def JpegHead.empty : JpegHead :=
  ⟨2, List.replicate 4 none, List.replicate 4 none, List.replicate 4 none, 0, 0, [], 0, [], false⟩

/-- The zig-zag order: place in the block of coefficient `k`. -/
def zigzag : List Nat :=
  [0, 1, 8, 16, 9, 2, 3, 10, 17, 24, 32, 25, 18, 11, 4, 5, 12, 19, 26, 33, 40, 48, 41, 34, 27, 20, 13, 6, 7, 14, 21, 28] ++
  [35, 42, 49, 56, 57, 50, 43, 36, 29, 22, 15, 23, 30, 37, 44, 51, 58, 59, 52, 45, 38, 31, 39, 46, 53, 60, 61, 54, 47, 55, 62, 63]

/-! ## Headers -/

/-- DQT: tables of 8-bit values, one after another. -/
def readQuant (h : JpegHead) : Nat → List Nat → Option JpegHead
  | _, [] => some h
  | 0, _ => none
  | fuel + 1, b :: r =>
    if 16 ≤ b ∨ 3 < b % 16 ∨ r.length < 64 then none
    else readQuant { h with quant := modifyNth h.quant (b % 16) (fun _ => some (r.take 64)) } fuel (r.drop 64)

/-- DHT: tables, one after another. -/
def readHuffman (h : JpegHead) : Nat → List Nat → Option JpegHead
  | _, [] => some h
  | 0, _ => none
  | fuel + 1, b :: r =>
    let counts := r.take 16
    let n := counts.foldl (· + ·) 0
    if 1 < b / 16 ∨ 3 < b % 16 ∨ r.length < 16 + n ∨ 256 < n then none
    else
      let t : Huffman := ⟨counts, (r.drop 16).take n⟩
      let h := if b / 16 = 0 then { h with dc := modifyNth h.dc (b % 16) (fun _ => some t) }
        else { h with ac := modifyNth h.ac (b % 16) (fun _ => some t) }
      readHuffman h fuel (r.drop (16 + n))

/-- The components of a frame header, three bytes each. -/
def readComps : List Nat → List JpegComp
  | i :: s :: q :: r => ⟨i, s / 16, s % 16, q⟩ :: readComps r
  | _ => []

/-- Whether the components are one the decoder takes: one, or three sampled 4:4:4, 4:2:2 or 4:2:0. -/
def compsSupported (cs : List JpegComp) : Bool :=
  match cs with
  | [_] => true
  | [y, u, v] => u.h == 1 && u.v == 1 && v.h == 1 && v.v == 1 &&
      ((y.h == 1 && y.v == 1) || (y.h == 2 && y.v == 1) || (y.h == 2 && y.v == 2))
  | _ => false

/-- SOF0. One component alone counts as sampled 1 by 1. -/
def readFrame (h : JpegHead) (b : List Nat) : Except JpegError JpegHead :=
  let g := fun i => b.getD i 0
  let cs := readComps (b.drop 6)
  if b.length < 6 ∨ b.length ≠ 6 + 3 * g 5 ∨ !h.comps.isEmpty then .error (.corrupt h.pos)
  else if g 0 ≠ 8 ∨ !compsSupported cs then .error .unsupported
  else .ok { h with h := 256 * g 1 + g 2, w := 256 * g 3 + g 4,
                    comps := match cs with | [c] => [{ c with h := 1, v := 1 }] | _ => cs }

/-- The components of a scan header: identifier, DC table, AC table. -/
def readScan : Nat → List Nat → List (Nat × Nat × Nat)
  | n + 1, i :: t :: r => (i, t / 16, t % 16) :: readScan n r
  | _, _ => []

/-- Whether a scan names known components and tables that were given. -/
def JpegHead.scanOk (h : JpegHead) : Bool :=
  !h.scan.isEmpty && h.scan.all (fun s =>
    match h.comps.find? (fun c => c.id == s.1) with
    | some c => ((h.quant.getD c.tq none).isSome) && (h.dc.getD s.2.1 none).isSome && (h.ac.getD s.2.2 none).isSome
    | none => false)

/-- One marker segment. The markers before the first SOS, and between scans. -/
def JpegHead.segment (h : JpegHead) (code : Nat) (body : List Nat) : Except JpegError JpegHead :=
  let bad : Except JpegError JpegHead := .error (.corrupt h.pos)
  if code = 0xDB then (match readQuant h body.length body with | some r => .ok r | none => bad)
  else if code = 0xC4 then (match readHuffman h body.length body with | some r => .ok r | none => bad)
  else if code = 0xC0 then readFrame h body
  else if 0xC1 ≤ code ∧ code ≤ 0xCF then .error .unsupported
  else if code = 0xDD then (if body.length = 2 then .ok { h with interval := 256 * body.getD 0 0 + body.getD 1 0 } else bad)
  else if code = 0xDA then
    let n := body.headD 0
    let h := { h with scan := readScan n (body.drop 1) }
    if body.length = 4 + 2 * n ∧ h.scanOk then .ok h else bad
  else if (0xE0 ≤ code ∧ code ≤ 0xEF) ∨ code = 0xFE then .ok h
  else bad

/-- Segments up to the next SOS, or EOI. -/
def JpegHead.scanFor (h : JpegHead) (bs : List Nat) : Nat → Except JpegError JpegHead
  | 0 => .error (.corrupt h.pos)
  | fuel + 1 =>
    match bs with
    | 0xFF :: 0xFF :: r => JpegHead.scanFor { h with pos := h.pos + 1 } (0xFF :: r) fuel
    | 0xFF :: 0xD9 :: _ => .ok { h with ended := true }
    | 0xFF :: code :: a :: b :: r =>
      let len := 256 * a + b
      if len < 2 ∨ r.length < len - 2 then .error (.corrupt h.pos)
      else
        match h.segment code (r.take (len - 2)) with
        | .error e => .error e
        | .ok h' =>
          let h' := { h' with pos := h.pos + 2 + len }
          if code = 0xDA then .ok h' else JpegHead.scanFor h' (r.drop (len - 2)) fuel
    | _ => .error (.corrupt h.pos)

/-- The headers of a payload up to its first SOS (R352). -/
def jpegHeaders (bs : List Nat) : Except JpegError JpegHead :=
  match bs with
  | 0xFF :: 0xD8 :: r =>
    match JpegHead.empty.scanFor r (bs.length + 1) with
    | .ok h => if h.ended ∨ h.comps.isEmpty then .error (.corrupt h.pos) else .ok h
    | .error e => .error e
  | _ => .error (.corrupt 0)

/-! ## Entropy-coded data -/

/-- The reader: bytes left, the place of the next one, the bits of the current byte still to come. -/
structure BitIn where
  rest : List Nat
  pos : Nat
  cur : Nat
  left : Nat
  deriving DecidableEq, Repr

/-- The next bit. A zero byte stuffed after 0xFF is passed over; EOI or the end of the payload ends the data; any other
marker here is not valid. -/
def BitIn.bit (s : BitIn) : Except JpegError (Nat × BitIn) :=
  if 0 < s.left then .ok (bits s.cur (s.left - 1) 1, { s with left := s.left - 1 })
  else
    match s.rest with
    | [] => .error (.truncated s.pos)
    | 0xFF :: 0 :: r => .ok (1, ⟨r, s.pos + 2, 0xFF, 7⟩)
    | 0xFF :: 0xD9 :: _ => .error (.truncated s.pos)
    | [0xFF] => .error (.truncated s.pos)
    | 0xFF :: _ => .error (.corrupt s.pos)
    | b :: r => .ok (bits b 7 1, ⟨r, s.pos + 1, b, 7⟩)

/-- `n` bits, first bit highest. -/
def BitIn.take (s : BitIn) : Nat → Except JpegError (Nat × BitIn)
  | 0 => .ok (0, s)
  | n + 1 =>
    match BitIn.take s n with
    | .error e => .error e
    | .ok (v, s) => match s.bit with
      | .error e => .error e
      | .ok (b, s) => .ok (2 * v + b, s)

/-- A Huffman symbol, by length: `first` is the first code of the length, `index` the symbols of shorter codes. -/
def huffSymbol (symbols : List Nat) : List Nat → Nat → Nat → Nat → BitIn → Except JpegError (Nat × BitIn)
  | [], _, _, _, s => .error (.corrupt s.pos)
  | n :: counts, code, first, index, s =>
    match s.bit with
    | .error e => .error e
    | .ok (b, s) =>
      let code := code + b
      if code - first < n ∧ first ≤ code then .ok (symbols.getD (index + (code - first)) 0, s)
      else huffSymbol symbols counts (2 * code) (2 * (first + n)) (index + n) s

/-- A symbol of a table. -/
def Huffman.decode (t : Huffman) (s : BitIn) : Except JpegError (Nat × BitIn) := huffSymbol t.symbols t.counts 0 0 0 s

/-- `n` further bits as a signed difference. -/
def extend (n v : Nat) : Int := if n = 0 then 0 else if v < 2 ^ (n - 1) then (v : Int) - (2 ^ n : Nat) + 1 else v

/-- The AC coefficients from `k` on, in zig-zag order, as (place, value). -/
def acCoeffs (t : Huffman) : Nat → Nat → BitIn → Except JpegError (List (Nat × Int) × BitIn)
  | 0, _, s => .ok ([], s)
  | fuel + 1, k, s =>
    if 63 < k then .ok ([], s)
    else
      match t.decode s with
      | .error e => .error e
      | .ok (rs, s) =>
        let run := rs / 16
        let n := rs % 16
        if n = 0 then (if run = 15 then acCoeffs t fuel (k + 16) s else .ok ([], s))
        else if 63 < k + run then .error (.corrupt s.pos)
        else
          match s.take n with
          | .error e => .error e
          | .ok (v, s) =>
            match acCoeffs t fuel (k + run + 1) s with
            | .error e => .error e
            | .ok (l, s) => .ok ((k + run, extend n v) :: l, s)

/-- One block: the new DC prediction and the dequantised coefficients in raster order. -/
def jpegBlock (dc ac : Huffman) (q : List Nat) (pred : Int) (s : BitIn) : Except JpegError (Int × List Int × BitIn) :=
  match dc.decode s with
  | .error e => .error e
  | .ok (n, s) =>
    if 11 < n then .error (.corrupt s.pos)
    else
      match s.take n with
      | .error e => .error e
      | .ok (v, s) =>
        let d := pred + extend n v
        match acCoeffs ac 64 1 s with
        | .error e => .error e
        | .ok (l, s) =>
          let l := (0, d) :: l
          .ok (d, (List.range 64).map (fun at_ =>
            match l.find? (fun p => zigzag.getD p.1 0 == at_) with
            | some p => p.2 * (q.getD p.1 0 : Nat)
            | none => 0), s)

/-- Decoding of a scan in progress: the reader, the DC predictions by component, the samples of the blocks decoded by
(component, block row, block column), and the next restart marker. -/
structure JpegState where
  inp : BitIn
  preds : List Int
  blocks : List ((Nat × Nat × Nat) × List Nat)
  restart : Nat
  deriving DecidableEq, Repr

/-- `cos (k * pi / 16) / 2` for `k` from 0 to 8, times 2^46. -/
def cosTable : List Int :=
  [35184372088832, 34508314244957, 32506121237133, 29254736219810, 24879108095804,
   19547389800041, 13464476276565, 6864130480746, 0]

/-- The same for every `k`. -/
def cosHalf (k : Nat) : Int :=
  let m := k % 32
  let m := if m ≤ 16 then m else 32 - m
  if m ≤ 8 then cosTable.getD m 0 else -(cosTable.getD (16 - m) 0)

/-- One pass of the separable inverse DCT: place `x` of eight coefficients, times 2^46. -/
def idctLine (f : Nat → Int) (x : Nat) : Int :=
  ((List.range 8).map (fun u => f u * (if u = 0 then cosHalf 4 else cosHalf ((2 * x + 1) * u)))).sum

/-- A quotient of integers rounded to nearest, ties to even, and clamped to 0 to 255. -/
def clampQuot (num den : Int) : Nat :=
  let q := num / den
  let r := num % den
  let v := if 2 * r > den then q + 1 else if 2 * r < den then q else (if q % 2 = 0 then q else q + 1)
  min v.toNat 255

/-- The 64 samples of a block (R348): rows, then columns, of the inverse DCT, the level shift, each sample rounded to nearest, ties to
even, and clamped to 0 to 255. FP32 arithmetic lies within 2^-21 of the sum of the coefficients' magnitudes and 256 of the exact
value; where that leaves the rounding open, it is free. [DESIGN CHOICE: log 71] -/
def blockSamples (cs : List Int) : List Nat :=
  let rows := (List.range 8).map (fun v => (List.range 8).map (fun x => idctLine (fun u => cs.getD (8 * v + u) 0) x))
  let slack : Int := ((cs.foldl (fun a c => a + c.natAbs) 256 : Nat) : Int) * 2 ^ 71
  (List.range 64).map (fun k =>
    let exact := idctLine (fun v => (rows.getD v []).getD (k % 8) 0) (k / 8) + 128 * 2 ^ 92
    let lo := clampQuot (exact - slack) (2 ^ 92)
    let hi := clampQuot (exact + slack) (2 ^ 92)
    if lo = hi then lo else lo + Config.idctChoice cs k % (hi - lo + 1))

/-- The largest sampling factors. -/
def JpegHead.hmax (h : JpegHead) : Nat := h.comps.foldl (fun a c => max a c.h) 1
def JpegHead.vmax (h : JpegHead) : Nat := h.comps.foldl (fun a c => max a c.v) 1

/-- The blocks of MCU `m` of a scan, as (component, block row, block column, DC table, AC table): interleaved, or one block
of the only component. -/
def JpegHead.mcuBlocks (h : JpegHead) (m : Nat) : List (Nat × Nat × Nat × Nat × Nat) :=
  let idx := fun (id : Nat) => h.comps.findIdx (fun c => c.id == id)
  match h.scan with
  | [s] =>
    let i := idx s.1
    let c := h.comps.getD i ⟨0, 1, 1, 0⟩
    let bw := ceilDiv (ceilDiv (h.w * c.h) h.hmax) 8
    [(i, m / bw, m % bw, s.2.1, s.2.2)]
  | ss =>
    let mw := ceilDiv h.w (8 * h.hmax)
    (ss.map (fun s =>
      let i := idx s.1
      let c := h.comps.getD i ⟨0, 1, 1, 0⟩
      (List.range (c.v * c.h)).map (fun k =>
        (i, (m / mw) * c.v + k / c.h, (m % mw) * c.h + k % c.h, s.2.1, s.2.2)))).foldr (· ++ ·) []

/-- MCUs of a scan. -/
def JpegHead.mcuCount (h : JpegHead) : Nat :=
  match h.scan with
  | [s] =>
    let c := (h.comps.find? (fun c => c.id == s.1)).getD ⟨0, 1, 1, 0⟩
    ceilDiv (ceilDiv (h.w * c.h) h.hmax) 8 * ceilDiv (ceilDiv (h.h * c.v) h.vmax) 8
  | _ => ceilDiv h.w (8 * h.hmax) * ceilDiv h.h (8 * h.vmax)

/-- A restart marker is passed: the reader starts at a byte and predictions clear. -/
def JpegState.takeRestart (st : JpegState) : Except JpegError JpegState :=
  match st.inp.rest with
  | 0xFF :: m :: r =>
    if m = 0xD0 + st.restart then
      .ok { st with inp := ⟨r, st.inp.pos + 2, 0, 0⟩, preds := st.preds.map (fun _ => 0), restart := (st.restart + 1) % 8 }
    else if m = 0xD9 then .error (.truncated st.inp.pos)
    else .error (.corrupt st.inp.pos)
  | [] => .error (.truncated st.inp.pos)
  | [_] => .error (.truncated st.inp.pos)
  | _ => .error (.corrupt st.inp.pos)

/-- One block of a scan. -/
def JpegHead.decodeBlock (h : JpegHead) (st : JpegState) (b : Nat × Nat × Nat × Nat × Nat) : Except JpegError JpegState :=
  let c := h.comps.getD b.1 ⟨0, 1, 1, 0⟩
  match h.dc.getD b.2.2.2.1 none, h.ac.getD b.2.2.2.2 none with
  | some dc, some ac =>
    match jpegBlock dc ac ((h.quant.getD c.tq none).getD []) (st.preds.getD b.1 0) st.inp with
    | .error e => .error e
    | .ok (d, cs, s) =>
      .ok { st with inp := s, preds := modifyNth st.preds b.1 (fun _ => d),
                    blocks := ((b.1, b.2.1, b.2.2.1), blockSamples cs) :: st.blocks }
  | _, _ => .error (.corrupt st.inp.pos)

/-- One MCU, with the restart marker that precedes it. -/
def JpegHead.mcu (h : JpegHead) (st : JpegState) (m : Nat) : Except JpegError JpegState :=
  let start := if h.interval != 0 && m != 0 && m % h.interval == 0 then st.takeRestart else .ok st
  (h.mcuBlocks m).foldl (fun (s : Except JpegError JpegState) b =>
    match s with
    | .error e => .error e
    | .ok st => h.decodeBlock st b) start

/-- One scan. -/
def JpegHead.scanData (h : JpegHead) (st : JpegState) : Except JpegError JpegState :=
  (List.range h.mcuCount).foldl (fun (s : Except JpegError JpegState) m =>
    match s with
    | .error e => .error e
    | .ok st => h.mcu st m) (.ok st)

/-- Scans until every component is decoded; data that end first are truncated. -/
def JpegHead.scans (h : JpegHead) (done : List Nat) (st : JpegState) : Nat → Except JpegError JpegState
  | 0 => .error (.truncated st.inp.pos)
  | fuel + 1 =>
    match h.scanData { st with preds := [0, 0, 0], restart := 0 } with
    | .error e => .error e
    | .ok st =>
      let done := done ++ h.scan.map (·.1)
      if h.comps.all (fun c => done.contains c.id) then .ok st
      else
        match JpegHead.scanFor { h with pos := st.inp.pos } st.inp.rest (st.inp.rest.length + 1) with
        | .error _ => .error (.truncated st.inp.pos)
        | .ok h' =>
          if h'.ended then .error (.truncated h'.pos)
          else
            let at_ := h'.pos - st.inp.pos
            JpegHead.scans h' done { st with inp := ⟨st.inp.rest.drop at_, h'.pos, 0, 0⟩ } fuel

/-- A sample of a component at a pixel, chroma replicated. -/
def JpegHead.sampleAt (h : JpegHead) (st : JpegState) (i x y : Nat) : Nat :=
  let c := h.comps.getD i ⟨0, 1, 1, 0⟩
  let sx := x * c.h / h.hmax
  let sy := y * c.v / h.vmax
  match st.blocks.find? (fun b => b.1 == (i, sy / 8, sx / 8)) with
  | some b => b.2.getD (8 * (sy % 8) + sx % 8) 0
  | none => 0

/-- The byte of a rounded and clamped quotient. [DEDUCED: log 72] -/
def roundSample (num den : Int) : Byte := BitVec.ofNat 8 (clampQuot num den)

/-- The colour of a pixel as ITU-T T.871 states. [DEDUCED: log 72] -/
def ycc (y u v : Nat) : List Byte :=
  let b := (u : Int) - 128
  let r := (v : Int) - 128
  [roundSample (1000 * (y : Int) + 1402 * r) 1000,
   roundSample (587000 * (y : Int) - (202008 * b + 419198 * r)) 587000,
   roundSample (1000 * (y : Int) + 1772 * b) 1000]

/-- The lines of samples of a decoded image: one byte a pixel, or three. -/
def jpegDecode (bs : List Nat) (h : JpegHead) : Except JpegError (List (List Byte)) :=
  match h.scans [] ⟨⟨bs.drop h.pos, h.pos, 0, 0⟩, [0, 0, 0], [], 0⟩ 4 with
  | .error e => .error e
  | .ok st =>
    .ok ((List.range h.h).map (fun y => ((List.range h.w).map (fun x =>
      if h.comps.length = 1 then [BitVec.ofNat 8 (h.sampleAt st 0 x y)]
      else ycc (h.sampleAt st 0 x y) (h.sampleAt st 1 x y) (h.sampleAt st 2 x y))).foldr (· ++ ·) []))

end Sys2Proof.Machine
end

