-- ==== Sys2Proof/Machine/Batch.lean ====
section
/-!
DEFINITION. The Kelenabo Record Stream and BATCH (R347 to R357).
-/
namespace Sys2Proof.Machine

/-- The parameter area of BATCH (R349). -/
structure BatchPar where
  list : Nat
  slots : Nat
  count : Nat
  profile : Nat
  aug : Bool
  chans : Nat
  queue : Nat
  out : Nat
  mask : Nat
  res : Nat
  scratch : Nat
  size : Nat
  oh : Nat
  ow : Nat
  deriving DecidableEq, Repr

/-- The fields of a descriptor. -/
def batchPar (d : Nat) : BatchPar :=
  ⟨bits d 256 40, bits d 296 8 + 1, bits d 304 9, bits d 313 4, d.testBit 317, if d.testBit 318 then 3 else 1, bits d 319 15,
   64 * bits d 336 22, 64 * bits d 358 22, 64 * bits d 380 22, bits d 416 40, 65536 * bits d 456 16, bits d 472 13, bits d 485 13⟩

/-- Bytes of one slot's elements, and of one slot (Z). -/
def slotBytes (d : Nat) : Nat :=
  let p := batchPar d
  p.oh * p.ow * p.chans * (fmtWidth (fmtCode (Desc.fmtOut d)) / 8)
def slotSize (d : Nat) : Nat := alignUp (slotBytes d) 64

/-- The extents of the operation's ranges as (device address, bytes): OUT, MASK, RES, the list, the scratch area. -/
def batchExtents (d : Nat) : List (Nat × Nat) :=
  let p := batchPar d
  [(p.out, (p.slots - 1) * slotSize d + slotBytes d), (p.mask, ceilDiv p.slots 8), (p.res, 16 * p.slots), (p.list, 8 * p.count),
   (p.scratch, p.size)]

/-- The bytes of the same ranges (R657): OUT without the gaps that pad its slots. -/
def batchRanges (d : Nat) : List Strided :=
  let p := batchPar d
  ⟨placeOf p.out, slotSize d, p.slots, slotBytes d⟩ :: ((batchExtents d).drop 1).map (fun r => ⟨placeOf r.1, 0, 1, r.2⟩)

/-- The checks of R350, in their order; RND 3 is refused (R49). [DEDUCED: log 74] -/
def Chip.batchCheck (c : Chip) (o : OpRun) : Nat :=
  let d := o.raw
  let p := batchPar d
  let q := c.queue? p.queue
  let params :=
    Desc.tileCount d == 1 && decide (p.count ≤ p.slots) && (c.profile p.profile).ok && p.oh != 0 && p.ow != 0 &&
    p.list % 8 == 0 && p.scratch % 65536 == 0 && p.size != 0 &&
    (batchExtents d).all (fun r => r.2 == 0 || c.validRange [0, 8] r.1 r.2) && apart (batchRanges d) &&
    (!p.aug || (match q with | some q => q.kind == 3 && q.consumer == 3 | none => false))
  if !imageFormat (Desc.fmtOut d) || Desc.rnd d == 3 then St.FMT_UNSUPPORTED
  else if !params then St.GZE_BAD_PARAM
  else if p.aug && (match q with | some q => decide (q.level < p.count) | none => true) then St.GZE_AUG_SHORT
  else St.OK

/-- The start of the operation (R351): mask bytes clear, augmentation records copied into the scratch area and consumed. -/
def Chip.batchStart (c : Chip) (o : OpRun) : Chip × Nat :=
  let p := batchPar o.raw
  let r := c.devWrite p.mask (List.replicate (ceilDiv p.slots 8) 0)
  if r.2 != 0 || !p.aug then r
  else
    match r.1.queue? p.queue with
    | none => r
    | some q =>
      let v := (List.range p.count).foldl (fun (s : Chip × Nat) k =>
        if s.2 != 0 then s
        else
          let x := s.1.devRead (q.slot (q.consumed + BitVec.ofNat 32 k)) 64
          if x.2.1 != 0 then (x.1, x.2.1) else x.1.devWrite (p.scratch + 64 * k) x.2.2) (r.1, St.OK)
      if v.2 != 0 then v
      else (v.1.setQueue p.queue { q with consumed := q.consumed + BitVec.ofNat 32 p.count }, St.OK)

/-! ## Records (R347) -/

/-- A record's header fields. -/
structure KrsHead where
  raw : Nat
  bytes : List Byte
  deriving DecidableEq, Repr

def KrsHead.type (h : KrsHead) : Nat := bits h.raw 40 8
def KrsHead.length (h : KrsHead) : Nat := bits h.raw 64 32
def KrsHead.sample (h : KrsHead) : Nat := bits h.raw 96 32

/-- Whether a header names a record BATCH uses, whole within its region. -/
def Chip.krsOk (c : Chip) (a : Nat) (h : KrsHead) : Bool :=
  bits h.raw 0 32 == 0x3153524B && bits h.raw 32 8 == 1 && bits h.raw 224 32 == crc32 (h.bytes.take 28) &&
  decide (h.length ≤ 0x4000000) && c.validRange [0, 8] a (32 + h.length) && decide (1 ≤ h.type) && decide (h.type ≤ 3)

/-- What becomes of a slot: written, or padded with a status, with the sample number, claimed size and detail of its result
record; or stopped by a fault. -/
structure SlotResult where
  status : Nat
  empty : Bool
  sample : Nat
  w : Nat
  h : Nat
  detail : Nat
  deriving DecidableEq, Repr

/-- The 16 bytes of a result record (R353). -/
def SlotResult.bytes (r : SlotResult) : List Byte :=
  leBytes 16 (bits r.status 0 16 + (b2n r.empty <<< 16) + (bits r.sample 0 32 <<< 32) + (bits r.w 0 16 <<< 64) +
    (bits r.h 0 16 <<< 80) + (bits r.detail 0 32 <<< 96))

/-- The image a record claims to hold: its size, and where its samples come from. -/
inductive Payload where
  | raw (dt w h stride : Nat)
  | jpeg (head : Except JpegError JpegHead)
  | tensor (fmt chans h w layout : Nat)
  deriving Repr

/-- The payload's own header. -/
def payloadOf (type : Nat) (bs : List Byte) : Payload :=
  match type with
  | 1 => let v := leNat (bs.take 32); .raw (bits v 32 8) (bits v 0 16) (bits v 16 16) (bits v 64 32)
  | 2 => .jpeg (jpegHeaders (bs.map (·.toNat)))
  | _ => let v := leNat (bs.take 16); .tensor (bits v 0 8) (bits v 8 8) (bits v 16 16) (bits v 32 16) (bits v 48 8)

/-- The claimed size, where the payload gives one. -/
def Payload.size : Payload → Option (Nat × Nat)
  | .raw _ w h _ => some (w, h)
  | .jpeg (.ok h) => some (h.w, h.h)
  | .jpeg (.error _) => none
  | .tensor _ _ h w _ => some (w, h)

/-- Status and detail of a decoding error. -/
def JpegError.status : JpegError → Nat × Nat
  | .truncated p => (St.DEC_TRUNCATED, p)
  | .corrupt p => (St.DEC_CORRUPT, p)
  | .unsupported => (St.DEC_UNSUPPORTED, 0)

/-- The augmentation record of slot `i`, read from its copy in the scratch area; none without AUG_EN. -/
def Chip.slotAug (c : Chip) (d i : Nat) : Chip × Nat × Option Nat :=
  let p := batchPar d
  if p.aug then (let r := c.devRead (p.scratch + 64 * i) 64; (r.1, r.2.1, some (leNat r.2.2))) else (c, St.OK, none)

/-- The geometry that an augmentation record gives, or the plain one. -/
def slotGeom (aug : Option Nat) (w h : Nat) : Geom :=
  match aug with
  | some r => geomOf r w h
  | none => geomPlain w h

/-- The augmentation check (R352). A size that the payload does not give is not held against the crop. -/
def augCheck (d : Nat) (aug : Option Nat) (h : KrsHead) (size : Option (Nat × Nat)) : Nat :=
  let p := batchPar d
  if aug.isNone then St.OK
  else
    let wh := size.getD (65535, 65535)
    let g := slotGeom aug wh.1 wh.2
    if g.tag ≠ h.sample then St.GZE_AUG_MISMATCH
    else if !g.ok (match size with | some s => s.1 | none => 65536) (match size with | some s => s.2 | none => 65536) p.oh p.ow then
      St.GZE_AUG_INVALID
    else St.OK

/-- The size check (R352), before any scratch is used. -/
def oversize (d w h : Nat) : Bool :=
  w == 0 || h == 0 || decide (8192 < w) || decide (8192 < h) || decide ((batchPar d).size - 16384 < 3 * w * h)

/-- The slot's elements, or the status and detail of the first failure after the header and augmentation checks. -/
def Chip.slotData (c : Chip) (o : OpRun) (aug : Option Nat) (bs : List Byte) (pl : Payload) :
    Except (Nat × Nat) (OpRun × List Nat) :=
  let d := o.raw
  let p := batchPar d
  let pr := c.profile p.profile
  match pl with
  | .jpeg (.error e) => .error e.status
  | .jpeg (.ok h) =>
    if oversize d h.w h.h then .error (St.DEC_OVERSIZE, 0)
    else
      match jpegDecode (bs.map (·.toNat)) h with
      | .error e => .error e.status
      | .ok lines =>
        let src : Source := ⟨if h.comps.length = 1 then 0x101 else 0x100, h.w, h.h, lines⟩
        .ok (o.render src pr (slotGeom aug h.w h.h) p.chans p.oh p.ow)
  | .raw dt w h stride =>
    if oversize d w h then .error (St.DEC_OVERSIZE, 0)
    else if !csiSuits dt pr.kind then .error (St.GZE_SHAPE_MISMATCH, 0)
    else if bs.length < 32 + (h - 1) * stride + csiLineBytes dt w then .error (St.DEC_TRUNCATED, bs.length)
    else
      let src : Source := ⟨dt, w, h, (List.range h).map (fun y => (bs.drop (32 + y * stride)).take (csiLineBytes dt w))⟩
      .ok (o.render src pr (slotGeom aug w h) p.chans p.oh p.ow)
  | .tensor fmt chans h w layout =>
    if oversize d w h then .error (St.DEC_OVERSIZE, 0)
    else if fmt ≠ Desc.fmtOut d ∨ chans ≠ p.chans ∨ h ≠ p.oh ∨ w ≠ p.ow ∨ layout ≠ pr.layout then .error (St.GZE_SHAPE_MISMATCH, 0)
    else if bs.length < 16 + slotBytes d then .error (St.DEC_TRUNCATED, bs.length)
    else
      let wd := fmtWidth (fmtCode (Desc.fmtOut d))
      .ok (o, (List.range (h * w * chans)).map (fun k => elemAt (bs.drop 16) wd k))

/-- Bytes of the work area that decoding uses: their contents are not valid afterwards. -/
def Payload.work (d : Nat) : Payload → List (Nat × Nat)
  | .tensor _ _ _ _ _ => []
  | p => match p.size with
    | some (w, h) => if oversize d w h then [] else [((batchPar d).scratch + 16384, 3 * w * h)]
    | none => []

/-- A slot in progress: the boundaries still to pass before its rows, the output row that is next, whether it is written rather than
padded, its result record, and its elements. -/
structure SlotRun where
  pre : Nat
  row : Nat
  good : Bool
  result : SlotResult
  elems : List Nat
  deriving DecidableEq, Repr

/-- The words in which an operation keeps a slot in progress, and back. -/
def SlotRun.toList (r : SlotRun) : List Nat :=
  [r.pre, r.row, b2n r.good, r.result.status, b2n r.result.empty, r.result.sample, r.result.w, r.result.h, r.result.detail] ++ r.elems
def SlotRun.ofList (l : List Nat) : SlotRun :=
  let g := fun k => l.getD k 0
  ⟨g 0, g 1, g 2 != 0, ⟨g 3, g 4 != 0, g 5, g 6, g 7, g 8⟩, l.drop 9⟩

/-- The boundaries inside the decoding of a payload: JPEG MCUs or source lines (R356). -/
def Payload.boundaries : Payload → Nat
  | .raw _ _ h _ => h
  | .jpeg (.ok h) => h.mcuCount
  | _ => 0

/-- Slot `i` examined: the chip after its reads, a fault, the operation, the slot as it begins, where it is written its elements.
[DESIGN CHOICE: log 73] -/
def Chip.slotLook (c : Chip) (o : OpRun) (i : Nat) : Chip × Nat × OpRun × SlotRun :=
  let d := o.raw
  let p := batchPar d
  let pad := fun (pre : Nat) (r : SlotResult) => (⟨pre, 0, false, r, []⟩ : SlotRun)
  let bad := fun (s : Nat) => (⟨St.KRS_BAD_RECORD, false, s, 0, 0, 0⟩ : SlotResult)
  let stop := fun (c : Chip) (st : Nat) => (c, st, o, pad 0 (bad 0))
  let ra := c.devRead (p.list + 8 * i) 8
  if ra.2.1 != 0 then stop ra.1 ra.2.1
  else
    let c := ra.1
    let a := bits (leNat ra.2.2) 0 40
    if a % 32 ≠ 0 ∨ !c.validRange [0, 8] a 32 then (c, St.OK, o, pad 0 (bad 0))
    else
      let rh := c.devRead a 32
      if rh.2.1 != 0 then stop rh.1 rh.2.1
      else
        let c := rh.1
        let h : KrsHead := ⟨leNat rh.2.2, rh.2.2⟩
        if !c.krsOk a h then (c, St.OK, o, pad 0 (bad h.sample))
        else
          let rp := c.devRead (a + 32) h.length
          if rp.2.1 != 0 then stop rp.1 rp.2.1
          else
            let c := rp.1
            let bs := rp.2.2
            let crc := if h.raw.testBit 56 then ceilDiv h.length 65536 else 0
            if h.raw.testBit 56 && bits h.raw 192 32 != crc32 bs then (c, St.OK, o, pad crc (bad h.sample))
            else
              let au := c.slotAug d i
              if au.2.1 != 0 then stop au.1 au.2.1
              else
                let c := au.1
                let pl := payloadOf h.type bs
                let wh := pl.size.getD (0, 0)
                let ag := augCheck d au.2.2 h pl.size
                if ag != 0 then (c, St.OK, o, pad crc ⟨ag, false, h.sample, wh.1, wh.2, 0⟩)
                else
                  let v := c.slotData o au.2.2 bs pl
                  let c := c.invalidate (pl.work d)
                  match v with
                  | .error e => (c, St.OK, o, pad crc ⟨e.1, false, h.sample, wh.1, wh.2, e.2⟩)
                  | .ok (o, xs) => (c, St.OK, o, ⟨crc + pl.boundaries, 0, true, ⟨St.OK, false, h.sample, wh.1, wh.2, 0⟩, xs⟩)

/-- Slot `i` begins: examined, or empty, with the elements of padding where nothing is to be written. -/
def Chip.slotBegin (c : Chip) (o : OpRun) (i : Nat) : Chip × Nat × OpRun × SlotRun :=
  let p := batchPar o.raw
  let v := if i < p.count then c.slotLook o i else (c, St.OK, o, ⟨0, 0, false, ⟨St.OK, true, 0, 0, 0, 0⟩, []⟩)
  if v.2.1 != 0 || v.2.2.2.good then v
  else
    let q := v.2.2.1.padding (c.profile p.profile) p.chans p.oh p.ow
    (v.1, St.OK, q.1, { v.2.2.2 with elems := q.2 })

/-- The runs of elements of output row `y`, as (first element, how many): one for each channel's plane, or one. -/
def Chip.rowRuns (c : Chip) (d y : Nat) : List (Nat × Nat) :=
  let p := batchPar d
  if (c.profile p.profile).layout = 0 then (List.range p.chans).map (fun k => ((k * p.oh + y) * p.ow, p.ow))
  else [(y * p.ow * p.chans, p.ow * p.chans)]

/-- Output row `y` of slot `i` written: the status of the first write that fails. -/
def Chip.rowPut (c : Chip) (d i y : Nat) (xs : List Nat) : Chip × Nat :=
  let w := fmtWidth (fmtCode (Desc.fmtOut d))
  (c.rowRuns d y).foldl (fun (s : Chip × Nat) r =>
    if s.2 != 0 then s
    else s.1.devWrite ((batchPar d).out + i * slotSize d + r.1 * (w / 8)) (packElems w ((xs.drop r.1).take r.2))) (c, St.OK)

/-- The result record and, of a slot that is written, the mask bit: neither where a write fails (R355). -/
def Chip.slotEnd (c : Chip) (d i : Nat) (r : SlotRun) : Chip × Nat :=
  let p := batchPar d
  let w := c.devWrite (p.res + 16 * i) r.result.bytes
  let mask := fun (c : Chip) => c.muslinWrite .setBits (devOffset p.mask + i / 8) [BitVec.ofNat 8 (2 ^ (i % 8))]
  if w.2 != 0 || !r.good then w
  else
    let m := mask w.1
    if m.2 != 0 then mask c else m

/-- One boundary is passed (R352 to R356): a step of a slot's checks or decoding, an output row, or with the last row the slot.
[DESIGN CHOICE: log 73; DEDUCED: log 74] -/
def Chip.batchStep (c : Chip) (o : OpRun) : Chip × OpRun :=
  let d := o.raw
  let i := o.ctx.headD 0
  let b := if o.ctx.length ≤ 1 then c.slotBegin o i else (c, St.OK, o, SlotRun.ofList (o.ctx.drop 1))
  let o := b.2.2.1
  let r := b.2.2.2
  if b.2.1 != 0 then (b.1, o.ends b.2.1)
  else if 0 < r.pre then (b.1, { o with ctx := i :: SlotRun.toList { r with pre := r.pre - 1 } })
  else
    let w := b.1.rowPut d i r.row r.elems
    if w.2 != 0 then (w.1, o.ends w.2)
    else if r.row + 1 < (batchPar d).oh then (w.1, { o with ctx := i :: SlotRun.toList { r with row := r.row + 1 } })
    else
      let e := w.1.slotEnd d i r
      if e.2 != 0 then (e.1, o.ends e.2)
      else
        let padded := if r.result.empty ∨ r.good then 0 else 1
        (e.1, { o.meets r.result.status with info0 := o.info0 + padded + (b2n r.result.empty <<< 16), ctx := [i + 1] })

/-- Boundaries passed until `n` of them, the last slot, or a fault. -/
def Chip.batchSteps (c : Chip) (o : OpRun) : Nat → Chip × OpRun
  | 0 => (c, o)
  | n + 1 =>
    if o.finished || decide ((batchPar o.raw).slots ≤ o.ctx.headD 0) then (c, o)
    else let r := c.batchStep o; Chip.batchSteps r.1 r.2 n

/-- Cycles stalled on the port, saturating (R354). -/
def OpRun.stalled (o : OpRun) (n : Nat) : OpRun := { o with info1 := min (o.info1 + n) 0xFFFFFFFF }

/-- BATCH (R349 to R356): a tile that passes `units` boundaries. [DEDUCED: log 74] -/
def execBatch (units stalls : Nat) (s : State) : Host.Outcome State Fault Refusal :=
  s.run Parts.tile (fun c => c.runTile 20 3 1 (fun c o => c.batchCheck o) (fun c o =>
    let o := o.stalled stalls
    let first := o.ctx.isEmpty
    let st := if first then c.batchStart o else (c, St.OK)
    if st.2 != 0 then (st.1, o.ends st.2)
    else
      let r := st.1.batchSteps (if first then { o with ctx := [0] } else o) (max 1 units)
      (r.1, { r.2 with lastTile := decide ((batchPar o.raw).slots ≤ r.2.ctx.headD 0) })))

end Sys2Proof.Machine
end

