-- ==== Sys2Proof/Machine/Copy.lean ====
section
/-!
DEFINITION. The copy engine (R259, R260) and its host side (R277, R278).
-/
namespace Sys2Proof.Machine

/-- The parameter area of COPY and FILL (R259). -/
structure CopyPar where
  src : Nat
  dst : Nat
  len : Nat
  rows : Nat
  srcStride : Nat
  dstStride : Nat
  perTile : Nat
  pattern : Nat
  deriving DecidableEq, Repr

/-- The fields of a descriptor. -/
def copyPar (d : Nat) : CopyPar :=
  ⟨bits d 256 40, bits d 296 40, bits d 336 24, bits d 360 16, bits d 376 32, bits d 408 32, bits d 440 16, bits d 456 32⟩

/-- Whether an operation is a COPY; FILL has no source. -/
def copyHasSrc (d : Nat) : Bool := Desc.opcode d == 1

/-- The bytes from the first row's start to the last row's end. -/
def copyExtent (len rows stride : Nat) : Nat := (rows - 1) * stride + len

/-- The host window of an address in region 0xC (R277). -/
def hostWindow (a : Nat) : Nat := bits a 28 8

/-- The bus address of an address in region 0xC: bits [11:0] of HOST_BASE are ignored (R277, R298). [DESIGN CHOICE: log 53] -/
def Chip.hostAddr (c : Chip) (a : Nat) : Nat :=
  let b := c.rd R.HIF_HWIN_HOST_BASE (hostWindow a)
  b - b % 4096 + bits a 0 28

/-- Whether a range may be used: in its region (R65, R260), and for host memory in one valid window that allows it. -/
def Chip.copyRangeOk (c : Chip) (a n : Nat) (write : Bool) : Bool :=
  c.validRange [0, 1, 2, 8, 0xC] a n &&
  (devRegion a != 0xC ||
    (c.on R.HIF_HWIN_VALID (hostWindow a) &&
     (if write then c.on R.HIF_HWIN_WRITE_OK (hostWindow a) else c.on R.HIF_HWIN_READ_OK (hostWindow a))))

/-- The memory an address lies in: 0 Muslin, whatever the alias, 8 DRAM, 0xC host; and its offset there. -/
def Chip.copyPlace (c : Chip) (a : Nat) : Nat × Nat :=
  if devRegion a = 0xC then (0xC, c.hostAddr a) else if devRegion a = 8 then (8, devOffset a) else (0, devOffset a)

/-- Whether source and destination rows overlap. -/
def Chip.copyOverlap (c : Chip) (d : Nat) : Bool :=
  let p := copyPar d
  let s := c.copyPlace p.src; let t := c.copyPlace p.dst
  copyHasSrc d && s.1 == t.1 &&
  Strided.overlaps ⟨s.2, p.srcStride, p.rows, p.len⟩ ⟨t.2, p.dstStride, p.rows, p.len⟩

/-- The checks of R260 and R277, before any byte moves: ranges, overlap and alignment, each in its class. -/
def Chip.copyCheck (c : Chip) (d : Nat) : Nat :=
  let p := copyPar d
  if p.len = 0 ∨ p.rows = 0 ∨ p.perTile = 0 then St.COPY_BAD_PARAM
  else if Desc.tileCount d ≠ ceilDiv p.rows p.perTile then St.COPY_BAD_PARAM
  else if copyHasSrc d && !c.copyRangeOk p.src (copyExtent p.len p.rows p.srcStride) false then St.COPY_BAD_PARAM
  else if !c.copyRangeOk p.dst (copyExtent p.len p.rows p.dstStride) true then St.COPY_BAD_PARAM
  else if decide (1 < p.rows) && decide (p.dstStride < p.len) then St.COPY_BAD_PARAM
  else if c.copyOverlap d then St.COPY_BAD_PARAM
  else St.OK

/-- Bytes read from a source address. -/
def Chip.copyRead (c : Chip) (a n : Nat) : Chip × Nat × List Byte :=
  if devRegion a = 0xC then (c, St.OK, c.host.read (c.hostAddr a) n) else c.devRead a n

/-- Bytes written to a destination address. -/
def Chip.copyWrite (c : Chip) (a : Nat) (bs : List Byte) : Chip × Nat :=
  if devRegion a = 0xC then ({ c with host := c.host.write (c.hostAddr a) bs }, St.OK) else c.devWrite a bs

/-- Byte `k` of a FILL row: byte `k mod 4` of PATTERN (R259). -/
def fillRow (pattern n : Nat) : List Byte := (List.range n).map (fun k => BitVec.ofNat 8 (bits pattern (8 * (k % 4)) 8))

/-- The rows of the tile an operation is at: the first, and how many. -/
def copyTile (o : OpRun) : Nat × Nat :=
  let p := copyPar o.raw
  (o.tiles * p.perTile, min p.perTile (p.rows - o.tiles * p.perTile))

/-- A failed tile: the operation ends, and the destination bytes of the tile are not valid (R260, R267, R278).
[DESIGN CHOICE: log 51] -/
def Chip.copyFail (c : Chip) (o : OpRun) (st : Nat) : Chip × OpRun :=
  let p := copyPar o.raw
  let t := copyTile o
  let c := (List.range t.2).foldl (fun (c : Chip) i =>
    let a := p.dst + (t.1 + i) * p.dstStride
    if devRegion a = 0xC then
      let f := c.freshId
      { f.2 with host := f.2.host.write (c.hostAddr a) (leBytes p.len (Config.freeNat f.1)) }
    else c.invalidate [(a, p.len)]) c
  (c, o.ends st)

/-- One tile: its rows in increasing address order. [DESIGN CHOICE: log 51] -/
def Chip.copyRows (c : Chip) (o : OpRun) : Chip × OpRun :=
  let p := copyPar o.raw
  let t := copyTile o
  let r := (List.range t.2).foldl (fun (s : Chip × Nat) i =>
    if s.2 != 0 then s
    else
      let row := t.1 + i
      let v := if copyHasSrc o.raw then s.1.copyRead (p.src + row * p.srcStride) p.len
        else (s.1, St.OK, fillRow p.pattern p.len)
      if v.2.1 != 0 then (v.1, v.2.1) else v.1.copyWrite (p.dst + row * p.dstStride) v.2.2) (c, St.OK)
  if r.2 != 0 then r.1.copyFail o r.2 else (r.1, o)

/-- A host-side failure of a copy (R260, R278): HOST_ERR, the first error logged, HIF_HOST_ERROR. [DESIGN CHOICE: log 51] -/
def Chip.hostError (c : Chip) (o : OpRun) (kind : Nat) : Chip × OpRun :=
  let c := c.latchFault R.HIF_STATUS_HOST_ERR
  let c := if c.on R.HIF_HOST_ERR_LOG_VALID then c
    else ((c.wr R.HIF_HOST_ERR_LOG_WINDOW (hostWindow (copyPar o.raw).src)).wr R.HIF_HOST_ERR_LOG_KIND kind).wr
      R.HIF_HOST_ERR_LOG_VALID 1
  c.copyFail o St.HIF_HOST_ERROR

/-- Whether an operation reads host memory. -/
def readsHost (d : Nat) : Bool := copyHasSrc d && devRegion (copyPar d).src == 0xC

/-- Whether an operation reads or writes host memory. -/
def usesHost (d : Nat) : Bool := readsHost d || devRegion (copyPar d).dst == 0xC

/-- KIND of a host error (R298). -/
def hostErrorKind (e : HostReadError) : Nat :=
  match e with
  | .none => 0
  | .unsupportedRequest => 1
  | .completerAbort => 2
  | .poisonedTlp => 4

/-- COPY (R260): the next tile on a port. The environment says how the host answers its reads. -/
def execCopy (port : Nat) (error : HostReadError) (s : State) : Host.Outcome State Fault Refusal :=
  s.run Parts.tile (fun c => c.runTile (25 + port % 2) 9 1 (fun c o => c.copyCheck o.raw) (fun c o =>
    if readsHost o.raw && error != .none then c.hostError o (hostErrorKind error) else c.copyRows o))

/-- FILL (R259). -/
def execFill (port : Nat) (s : State) : Host.Outcome State Fault Refusal :=
  s.run Parts.tile (fun c => c.runTile (25 + port % 2) 9 2 (fun c o => c.copyCheck o.raw) (fun c o => c.copyRows o))

/-- HOST_COMPLETION_TIMEOUT (R278): the tile of a copy that waits for the host fails. -/
def execHostCompletionTimeout (port : Nat) (s : State) : Host.Outcome State Fault Refusal :=
  s.run [.regs, .muslin, .host, .dsp, .msl, .drc, .sent, .fresh] (fun c =>
    let u := 25 + port % 2
    c.onOp u 9 1 (fun c o =>
      if readsHost o.raw && (o.begun || c.copyCheck o.raw == St.OK) then
        let r := c.hostError { o with begun := true } 3
        r.1.setOp u r.2
      else c))

end Sys2Proof.Machine
end

