-- ==== Sys2Proof/Machine/Queues.lean ====
section
/-!
DEFINITION. The queue manager's commands (chapter 09): ENABLE, DISABLE, QUERY, doorbells, the spill area and the coalescing
timer.
-/
namespace Sys2Proof.Machine

/-! ## Contexts (R282 to R284) -/

/-- The Muslin offset of a queue's context. -/
def Chip.ctxOff (c : Chip) (q : Nat) : Nat :=
  devOffset (c.rd R.QMG_CTX_BASE_LO_ADDR_LO + (c.rd R.QMG_CTX_BASE_HI_ADDR_HI <<< 32)) + 32 * q

/-- A queue as its context gives it at ENABLE: counts, LOST and OVERFLOW clear. [DEDUCED: log 56] -/
def Queue.ofContext (raw : Nat) : Queue :=
  { raw := raw, produced := 0, consumed := 0, lost := 0, overflow := false, uncovered := 0, firstUncovered := 0,
    stamps := [] }

/-- Whether PAIR is used: by a submission queue, and by a message queue fed by WEAVE. -/
def Queue.usesPair (q : Queue) : Bool := q.kind == 1 || (q.kind == 3 && q.producer == 1)

/-- Whether an agent code may produce, and may consume (R283). -/
def mayProduce (a : Nat) : Bool := [0, 1, 4, 5].contains a
def mayConsume (a : Nat) : Bool := [0, 2, 3].contains a

/-- The checks ENABLE makes of a context (R284). [DEDUCED: log 56] -/
def Chip.contextOk (c : Chip) (q : Queue) : Bool :=
  let inMuslin := fun (a n : Nat) => devRegion a == 0 && a % 64 == 0 && bits a 28 8 == 0 && decide (devOffset a + n ≤ muslinSize)
  (q.kind == 1 || q.kind == 2 || q.kind == 3) && decide (bits q.raw 40 4 ≤ 12) &&
  inMuslin q.ring (q.entries * q.entrySize) &&
  (q.vector == 0 || decide (32 ≤ q.vector)) &&
  (!q.usesPair || c.isCompletionQueue q.pair) &&
  (q.kind != 3 || (mayProduce q.producer && mayConsume q.consumer && q.producer != q.consumer)) &&
  (!(q.kind == 3 && q.producer == 1) || inMuslin q.stageAddr 64)

/-- RESULT of a queue command. -/
def Chip.qmgResult (c : Chip) (n : Nat) : Chip := c.wr R.QMG_QCMD_RESULT n

/-- A command of QMG_QCMD: refused while another is in progress (R299). [DESIGN CHOICE: log 111] -/
def Chip.queueCmd (c : Chip) (f : Chip → Chip) : Chip := if c.on R.QMG_QCMD_BUSY then c.qmgResult 4 else f c

/-- A request at a Muslin offset: it waits where its group holds requests, and is served, or refused, otherwise (R26). -/
def Chip.access (c : Chip) (off : Nat) (i : Instr) (serve : Chip → Chip) (word : Nat := 0) : Chip :=
  if c.groupHolds (groupOf off) && !c.isolated.contains (18 + bankOf off / 4) then c.holdRequest (groupOf off) i word else serve c

/-- The context of queue `n` is read and checked, and the queue enabled (R284). -/
def Chip.enableQueue (c : Chip) (n : Nat) : Chip :=
  let r := (c.wr R.QMG_QCMD_BUSY 0).muslinRead (c.ctxOff n) 32
  if r.2.1 != 0 then r.1.qmgResult 2
  else
    let q := Queue.ofContext (leNat r.2.2)
    if r.1.contextOk q then
      let c := r.1.setQueue n q
      ({ c with qmg := { c.qmg with retired := Table.del c.qmg.retired n } }).qmgResult 1
    else r.1.qmgResult 2

/-- QUEUE_ENABLE (R284, R299): in progress, with BUSY 1, while the group that holds its context wakes. [DESIGN CHOICE: log 111] -/
def execQueueEnable (queue : Nat) (s : State) : Host.Outcome State Fault Refusal :=
  s.runHost [.regs, .qmg, .msl, .sent] (fun c => c.queueCmd (fun c =>
    let n := queue % 32768
    if (c.queue? n).isSome then c.qmgResult 3
    else (c.wr R.QMG_QCMD_BUSY 1).access (c.ctxOff n) (.queueEnable queue) (fun c => c.enableQueue n)))

/-- A queue is disabled (R284): it leaves, its last counts stay for QUERY, and its spilled records are dropped. [DEDUCED: log 54] -/
def Chip.disableQueue (c : Chip) (n : Nat) : Chip :=
  match c.qmg.queues.get? n with
  | none => c
  | some q =>
    let dropped := c.spilled n
    let c := { c with qmg := { c.qmg with queues := Table.del c.qmg.queues n, retired := Table.put c.qmg.retired n q } }
    let c := c.setSpill (c.qmg.spill.filter (fun r => r.queue != n))
    (List.range dropped).foldl (fun (c : Chip) _ => c.lose) c

/-- QUEUE_DISABLE (R284). -/
def execQueueDisable (queue : Nat) (s : State) : Host.Outcome State Fault Refusal :=
  s.runHost [.regs, .qmg, .sent] (fun c => c.queueCmd (fun c =>
    let n := queue % 32768
    if (c.queue? n).isSome then (c.disableQueue n).qmgResult 1 else c.qmgResult 3))

/-- QUEUE_QUERY (R299). -/
def execQueueQuery (queue : Nat) (s : State) : Host.Outcome State Fault Refusal :=
  s.runHost [.regs] (fun c => c.queueCmd (fun c =>
    let n := queue % 32768
    let live := c.queue? n
    let q := match live with
      | some q => q
      | none => (Table.get? (c.qmg.retired) n).getD ((Table.get? c.qmg.queues n).getD (Queue.ofContext 0))
    let c := c.wr R.QMG_QDATA0_PRODUCED q.produced.toNat
    let c := c.wr R.QMG_QDATA1_CONSUMED q.consumed.toNat
    let c := c.wr R.QMG_QDATA2_LOST q.lost
    let c := c.wr R.QMG_QDATA2_OVERFLOW (b2n q.overflow)
    let c := c.wr R.QMG_QDATA2_ENABLED (b2n live.isSome)
    let c := c.wr R.QMG_QDATA3_SPILLED (c.spilled n)
    c.qmgResult 1))

/-! ## Doorbells (R286, R287) -/

/-- Whether the host produces, or consumes, a queue. [DEDUCED: log 54] -/
def Queue.hostProduces (q : Queue) : Bool := q.kind == 1 || (q.kind == 3 && q.producer == 0)
def Queue.hostConsumes (q : Queue) : Bool := q.kind == 2 || (q.kind == 3 && q.consumer == 0)

/-- What a doorbell read returns (R287). -/
def Chip.doorbellRead (c : Chip) (n : Nat) : BitVec 32 :=
  match c.queue? n with
  | some q => if q.hostProduces then q.consumed else if q.hostConsumes then q.produced else 0
  | none => 0

/-- Whether a request that waits at a Muslin group is a host write, or a doorbell behind one (R19). -/
def hostWrite : Instr → Bool
  | .bar2Write .. | .hatomSet .. | .hatomClr .. | .doorbellWrite .. => true
  | _ => false

/-- The effect of a doorbell write on queue `n` (R286). -/
def Chip.ring (c : Chip) (n : Nat) (value : Word) : Chip :=
  let bad := (c.count R.QMG_BAD_DB_CNT_COUNT).latch R.QMG_STATUS_BAD_DOORBELL
  match c.queue? n with
  | none => bad
  | some q =>
    if q.hostProduces then
      if value - q.produced ≠ 0 ∧ (value - q.consumed).toNat ≤ q.entries then
        c.setQueue n (q.advance value c.now)
      else bad
    else if q.hostConsumes then
      if (value - q.consumed).toNat ≤ q.level then c.setQueue n { q with consumed := value } else bad
    else bad

/-- A doorbell write at a BAR4 offset (R272, R286): it waits behind the host writes that came earlier and have not taken effect (R19). -/
def Chip.doorbell (c : Chip) (offset : Nat) (value : Word) : Chip :=
  match (List.range 8).find? (fun g => (c.group g).waiting.any (fun i => hostWrite i.1)) with
  | some g => c.holdRequest g (.doorbellWrite offset 4 value)
  | none => c.ring (offset / 4 % 32768) value

/-- DOORBELL_WRITE (R286): a write of another size or alignment than 4 B is dropped (R276). -/
def execDoorbellWrite (offset size : Nat) (value : Word) (s : State) : Host.Outcome State Fault Refusal :=
  s.runHost [.regs, .qmg, .msl] (fun c =>
    if size != 4 || offset % 4 != 0 then c.latch R.HIF_STATUS_BAD_ACCESS else c.doorbell offset value)

/-- What a read of BAR4 returns (R276, R287): all bytes 0xFF, and BAD_ACCESS, for another size or alignment than 4 B.
[DESIGN CHOICE: log 11] -/
def Chip.doorbellBytes (c : Chip) (offset size : Nat) : Chip × List Byte :=
  if size != 4 || offset % 4 != 0 then (c.latch R.HIF_STATUS_BAD_ACCESS, List.replicate size 0xFF)
  else (c, leBytes 4 (c.doorbellRead (offset / 4 % 32768)).toNat)

/-! ## The spill area and the coalescing timer (R292, R294) -/

/-- Records of a queue drain from the spill area into its ring, in order, while slots are free. [DESIGN CHOICE: log 55] -/
def Chip.drainSpill (c : Chip) (n : Nat) : Nat → Chip
  | 0 => c
  | fuel + 1 =>
    match c.queue? n, c.qmg.spill.find? (fun r => r.queue == n) with
    | some q, some r =>
      if q.full then c
      else
        let v := (c.setSpill (c.qmg.spill.erase r)).muslinRead (c.spillOff r.slot) 32
        Chip.drainSpill (if v.2.1 != 0 then v.1.loseFor n else v.1.ringWrite n q (leNat v.2.2) r.irq) n fuel
    | _, _ => c

/-- SPILL_DRAIN (R292). -/
def execSpillDrain (queue : Nat) (s : State) : Host.Outcome State Fault Refusal :=
  s.run [.regs, .muslin, .qmg, .msl, .sent] (fun c => c.drainSpill (queue % 32768) 4096)

/-- COALESCE_TIMER_EXPIRE (R294): COAL_US after the first record not covered by an interrupt. -/
def execCoalesceTimerExpire (queue : Nat) (s : State) : Host.Outcome State Fault Refusal :=
  s.run [.regs, .tku, .qmg, .sent] (fun c =>
    let n := queue % 32768
    match c.queue? n with
    | some q =>
      if q.hostConsumes && q.coalUs != 0 && q.uncovered != 0 then
        (c.advanceTo (q.firstUncovered + 1000 * q.coalUs)).queueInterrupt n
      else c
    | none => c)

end Sys2Proof.Machine
end

