-- ==== Sys2Proof/Machine/Jersey.lean ====
section
/-!
DEFINITION. Jersey, the control engine (chapter 15): ticks, lanes and their arithmetic, set-points, inputs, PWM pins, lane
faults and spare lanes.
-/
namespace Sys2Proof.Machine

/-! ## Entries (R447, R450, R459 to R464) -/

def Chip.jrsBase (c : Chip) : Nat := max (c.entry 0x4C00 1) 1
/-- Subindex `s` of lane `n`, and of its process values. -/
def Chip.laneCfg (c : Chip) (n s : Nat) : Nat := c.entry (0x4D00 + n) s
def Chip.lanePv (c : Chip) (n s : Nat) : Nat := c.entry (0x6C00 + n) s
def Chip.setLanePv (c : Chip) (n s v : Nat) : Chip := c.setEntry (0x6C00 + n) s v
def Chip.pwmCfg (c : Chip) (pin s : Nat) : Nat := c.entry (0x4C40 + pin) s

/-- Lanes of which some entry differs from its default, in rising order. -/
def Chip.lanesTouched (c : Chip) : List Nat :=
  ((c.dict.filter (fun p => decide (0x4D0000 ≤ p.1) && decide (p.1 < 0x4E0000))).map (fun p => p.1 / 256 - 0x4D00)).eraseDups

/-- The enabled lanes. -/
def Chip.lanesOn (c : Chip) : List Nat := c.lanesTouched.filter (fun n => c.laneCfg n 1 != 0)

/-- A lane's record beside its entries. -/
def Chip.lane (c : Chip) (n : Nat) : JrsLane := (Table.get? c.jrs.lanes n).getD ⟨none, none, 0, [], false⟩
def Chip.setLane (c : Chip) (n : Nat) (f : JrsLane → JrsLane) : Chip :=
  { c with jrs := { c.jrs with lanes := Table.put c.jrs.lanes n (f (c.lane n)) } }

/-- A PWM pin's record. -/
def Chip.pin (c : Chip) (n : Nat) : PwmPin := nth c.jrs.pins n ⟨none, none⟩
def Chip.setPin (c : Chip) (n : Nat) (f : PwmPin → PwmPin) : Chip :=
  { c with jrs := { c.jrs with pins := modifyNth c.jrs.pins n f } }

/-- The FAULT bit of a lane (R466). -/
def Chip.laneFaulted (c : Chip) (n : Nat) : Bool := (c.rd R.JRS_FAULT_FAULT (n / 32)).testBit (n % 32)

/-- A lane's FAULT bit, in its register and in its FLAGS. -/
def Chip.setLaneFault (c : Chip) (n : Nat) (v : Bool) : Chip :=
  let c := c.wr R.JRS_FAULT_FAULT (setBits (c.rd R.JRS_FAULT_FAULT (n / 32)) (n % 32) 1 (b2n v)) (n / 32)
  c.setLanePv n 3 (setBits (c.lanePv n 3) 4 1 (b2n v))

/-- The four sticky flags of a lane, in JRS_FLAGS. -/
def Chip.laneFlags (c : Chip) (n : Nat) : Nat := bits (c.rd R.JRS_FLAGS_FLAGS (n / 8)) (4 * (n % 8)) 4

/-- The FLAGS process value of every lane of a JRS_FLAGS register follows that register (R453, R464). -/
def Chip.jrsSyncFlags (c : Chip) (k : Nat) : Chip :=
  (List.range 8).foldl (fun (c : Chip) i =>
    c.setLanePv (8 * k + i) 3 (setBits (c.lanePv (8 * k + i) 3) 0 4 (c.laneFlags (8 * k + i)))) c

/-! ## Arithmetic (R452) -/

/-- `round_shift(v, k)`. -/
def roundShift (v k : Int) : Int :=
  if 0 < k then
    let d : Int := 2 ^ k.toNat
    let q := v / d
    let r := v % d
    if d < 2 * r ∨ (2 * r = d ∧ q % 2 = 1) then q + 1 else q
  else v * 2 ^ (-k).toNat

/-- A value limited to `lo … hi`, and whether it was. -/
def clampTo (lo hi v : Int) : Int × Bool := if v < lo then (lo, true) else if hi < v then (hi, true) else (v, false)

/-- `sat32` and `sat48`. -/
def sat32 (v : Int) : Int × Bool := clampTo (-2147483648) 2147483647 v
def sat48 (v : Int) : Int × Bool := clampTo (-140737488355328) 140737488355327 v

/-- `prod(c, v)` at coefficient radix `rc`. -/
def laneProd (rc : Nat) (k v : Int) : Int × Bool := sat48 (roundShift (k * v) ((rc : Int) - 8))

/-- What a lane's section needs: order, radices, coefficients b0 b1 b2 b3 a1 a2 a3, feedback gain, limits, CLAMP_FB. -/
structure LaneSection where
  order : Nat
  rs : Nat
  rc : Nat
  coef : List Int
  fbGain : Int
  spMin : Int
  spMax : Int
  outMin : Int
  outMax : Int
  clampFb : Bool

/-- What one sample gives: output, states, and the flags IN, ACC, OUT, SP it sets. -/
structure LaneResult where
  out : Int
  s1 : Int
  s2 : Int
  s3 : Int
  flags : Nat
  deriving DecidableEq, Repr

/-- One sample of a lane, from the values and radices of its sources and its states (R452). -/
def LaneSection.sample (l : LaneSection) (spv : Int × Nat) (fbv : Int × Nat) (s1 s2 s3 : Int) : LaneResult :=
  let k := fun (i : Nat) => nth l.coef i 0
  let prod := fun (i : Nat) (v : Int) => laneProd l.rc (k i) v
  let sp0 := sat32 (roundShift spv.1 ((spv.2 : Int) - l.rs))
  let sp := clampTo l.spMin l.spMax sp0.1
  let fb0 := sat32 (roundShift fbv.1 ((fbv.2 : Int) - l.rs))
  let fb := sat32 (roundShift (fb0.1 * l.fbGain) l.rc)
  let x := sat32 (sp.1 - fb.1)
  let p0 := prod 0 x.1
  let acc := sat48 (p0.1 + s1)
  let y := sat32 (roundShift acc.1 8)
  let yc := clampTo l.outMin l.outMax y.1
  let yf := if l.clampFb then yc.1 else y.1
  let pb1 := prod 1 x.1
  let pa1 := prod 4 yf
  let pb2 := prod 2 x.1
  let pa2 := prod 5 yf
  let pb3 := prod 3 x.1
  let pa3 := prod 6 yf
  let third := l.order == 3
  let n1 := (sat48 ((sat48 (pb1.1 - pa1.1)).1 + s2)).1
  let d2 := (sat48 (pb2.1 - pa2.1)).1
  let n2 := if third then (sat48 (d2 + s3)).1 else d2
  let n3 := if third then (sat48 (pb3.1 - pa3.1)).1 else s3
  let accHit := p0.2 || acc.2 || pb1.2 || pa1.2 || pb2.2 || pa2.2 || (third && (pb3.2 || pa3.2))
  ⟨yc.1, n1, n2, n3,
    b2n (sp0.2 || fb0.2 || fb.2 || x.2) + 2 * b2n accHit + 4 * b2n (y.2 || yc.2) + 8 * b2n sp.2⟩

/-- A lane's section as its entries give it. -/
def Chip.laneSection (c : Chip) (n : Nat) : LaneSection :=
  let q := fun s => toSigned 32 (c.laneCfg n s)
  let coef := c.laneCfg n 0x0A
  ⟨c.laneCfg n 2, c.laneCfg n 8, c.laneCfg n 9, (List.range 7).map (fun i => toSigned 32 (bits coef (32 * i) 32)), q 0x0B,
    q 0x0C, q 0x0D, q 0x0E, q 0x0F, c.laneCfg n 0x10 != 0⟩

/-! ## Inputs (R451, R459, R460) -/

/-- The number of ways in which three numbers of `0 … osr - 1` add up to `i`: the weight of bit `i` of a sinc3 sum. -/
def sincWeight (osr i : Nat) : Nat :=
  let t := fun (j : Int) => if j < 0 then (0 : Int) else (j + 1) * (j + 2) / 2
  (t i - 3 * t ((i : Int) - osr) + 3 * t ((i : Int) - 2 * osr)).toNat

/-- The sinc3 result of an input, at radix 31, from its most recent bits (bit `i` is the `i`-th most recent). -/
def sincValue (osr recent : Nat) : Int :=
  let sum := (List.range (3 * osr - 2)).foldl (fun (a i : Nat) => if recent.testBit i then a + sincWeight osr i else a) 0
  (sat32 ((2 * (sum : Int) - (osr ^ 3 : Nat)) * 2 ^ (31 - 3 * Nat.log2 osr))).1

/-- The counters of the 16 pulse inputs. -/
def Chip.pulseCounts (c : Chip) : List Nat := (List.range 16).map (fun i => c.rd R.JRS_PULSE_CNT_COUNT i)

/-- Word `i` of the latest Gwepo input image. -/
def Chip.gwepoInWord (c : Chip) (i : Nat) : Nat := bits (c.entry 0x7410 (1 + i / 64)) (32 * (i % 64)) 32

/-- The value and radix that a source word gives lane `n`, in the chip as it stands when its stage begins (R451). -/
def Chip.laneSource (c : Chip) (sd : List Nat) (n word : Nat) : Int × Nat :=
  let i := bits word 4 8
  let rs := c.laneCfg n 8
  match bits word 0 4 with
  | 1 => (if c.entryOn (0x4C10 + i) 1 then sincValue (c.entry (0x4C10 + i) 2) (nth sd i 0) else 0, 31)
  | 2 => (toSigned 32 (c.rd R.JRS_PULSE_CNT_COUNT i), 0)
  | 3 =>
    let now := c.rd R.JRS_PULSE_CNT_COUNT i
    (match (c.lane n).prev with
     | some p => toSigned 32 ((now + 2 ^ 32 - nth p i 0) % 2 ^ 32)
     | none => 0, 0)
  | 4 => (toSigned 32 (c.lanePv n 1), rs)
  | 5 => (toSigned 32 (c.lane n).queued, rs)
  | 6 => (toSigned 32 ((c.lane i).out.getD 0), c.laneCfg i 8)
  | 7 => (toSigned 32 (c.gwepoInWord i), 0)
  | _ => (0, rs)

/-- PULSE_INPUT_EDGE (R460). `a` and `b` are the filtered levels after the edge: A and B, or step and direction.
[DESIGN CHOICE: log 103] -/
def execPulseInputEdge (input : Nat) (a b : Bool) (s : State) : Host.Outcome State Fault Refusal :=
  s.run [.regs, .jrs] (fun c =>
    let i := input % 16
    let old := nth c.jrs.pulse i (false, false)
    let e := fun k => c.entry (0x4C20 + i) k
    let c := { c with jrs := { c.jrs with pulse := modifyNth c.jrs.pulse i (fun _ => (a, b)) } }
    let add := fun (up : Bool) =>
      c.wr R.JRS_PULSE_CNT_COUNT (c.rd R.JRS_PULSE_CNT_COUNT i + (if up == (e 4 == 0) then 1 else 2 ^ 32 - 1)) i
    if !(c.on R.JRS_CTRL_ENABLE) || e 1 == 0 then c
    else if e 2 == 0 then
      match a != old.1, b != old.2 with
      | true, true => c.count R.JRS_PULSE_CNT_ILLEGAL i
      | true, false => add ((a != b) == Config.pulseSense 0)
      | false, true => add ((a == b) == Config.pulseSense 0)
      | false, false => c
    else if a && !old.1 then add (b == Config.pulseSense 1)
    else c)

/-! ## Destinations (R461 to R463) -/

/-- The high time W of an output, in units of 39.0625 ps: ties to even (R462). -/
def pwmHigh (period rs out : Nat) : Nat :=
  let v := (sat32 (roundShift (toSigned 32 out) ((rs : Int) - 31))).1
  (roundShift (max v 0 * (period * 32 : Nat)) 31).toNat

/-- A word of the Gwepo output image is written (R463). -/
def Chip.gwepoPut (c : Chip) (off v : Nat) : Chip :=
  let sub := 1 + off / 256
  c.setEntry 0x7400 sub (setBits (c.entry 0x7400 sub) (8 * (off % 256)) 32 v)

/-- Whether a lane has a field in the output image. -/
def Chip.laneField (c : Chip) (n : Nat) : Option Nat := let o := c.laneCfg n 0x13; if o < 1024 then some o else none

/-- A value goes to a lane's Gwepo field and OUTPUT. -/
def Chip.laneWrites (c : Chip) (n v : Nat) : Chip :=
  let c := match c.laneField n with | some o => c.gwepoPut o v | none => c
  c.setLanePv n 2 v

/-- A pin becomes idle (R461). [DEDUCED: log 104] -/
def Chip.pinIdle (c : Chip) (pin : Nat) : Chip := c.setPin pin (fun _ => ⟨none, none⟩)

/-- A lane's output goes to its destinations. [DESIGN CHOICE: log 101] -/
def Chip.laneDrives (c : Chip) (n v : Nat) : Chip :=
  let c := c.laneWrites n v
  let pin := c.laneCfg n 0x12
  if pin < 48 ∧ c.pwmCfg pin 1 ≠ 0 then
    let w := pwmHigh (c.pwmCfg pin 3) (c.laneCfg n 8) v
    c.setPin pin (fun p => { p with shadow := some w, duty := if c.pwmCfg pin 7 = 1 then some w else p.duty })
  else c

/-- A lane stops: FAULT_VALUE goes to its field and OUTPUT, and its pin becomes idle (R466). [DEDUCED: log 104] -/
def Chip.laneStops (c : Chip) (n : Nat) : Chip := (c.laneWrites n (c.laneCfg n 0x11)).pinIdle (c.laneCfg n 0x12)

/-- The period starts of a pin (R462). -/
def Chip.pwmRule (c : Chip) (pin : Nat) : GridRule := ⟨0, max 1 (5 * c.pwmCfg pin 3), 4⟩

/-- PWM_PERIOD_START (R462): at the next period start of the pin, the duty in its shadow register comes into force. -/
def execPwmPeriodStart (pin : Nat) (s : State) : Host.Outcome State Fault Refusal :=
  s.run [.tku, .jrs] (fun c =>
    let n := pin % 48
    if !(c.on R.JRS_CTRL_ENABLE) || c.pwmCfg n 1 == 0 then c
    else
      let t := c.gridNext (gridPwm n) (c.pwmRule n)
      ((c.advanceTo t).gridServe (gridPwm n) t).setPin n (fun p => { p with duty := p.shadow }))

/-- The high time a pin produces of a high time W (R640): high and low times of 1 to 63 units are not produced. -/
def pwmProduced (whole w : Nat) : Nat :=
  if w < 64 then 0 else if whole < w + 64 then whole else w

/-- The level of PWM pin `n` at `t` units of 39.0625 ps after the epoch: 0 low, 1 high, 2 high impedance (R461, R462).
[DEDUCED: log 104] -/
def Chip.pwmLevel (c : Chip) (n t : Nat) : Nat :=
  let partner := c.pwmCfg n 4
  let main := if partner < n then partner else n
  match (c.pin main).duty with
  | none => c.pwmCfg n 6
  | some w =>
    let whole := 32 * c.pwmCfg main 3
    let h := pwmProduced whole w
    let first := if c.pwmCfg main 2 = 1 then (whole - h) / 2 else 0
    let x := t % whole
    let high := decide (first ≤ x) && decide (x < first + h)
    if main = n then b2n high
    else
      let rise := first + h + c.pwmCfg main 5
      if h = 0 then 1 else if h = whole ∨ whole < rise + c.pwmCfg main 5 then 0
      else b2n (decide (rise ≤ x) || decide (x < first))

/-! ## Lane faults and one sample (R453, R464, R466) -/

/-- A sample of lane `n` reads a slot word with bad parity. -/
def Chip.laneFault (c : Chip) (n : Nat) : Chip :=
  let c := (c.laneStops n).setLane n (fun l => { l with out := some (c.laneCfg n 0x11) })
  let c := (c.setLaneFault n true).count R.JRS_PARITY_CNT_COUNT
  (c.latchFault R.JRS_STATUS_LANE_FAULT).raise 13

/-- Flags of a lane become set (R453, R470). -/
def Chip.laneFlag (c : Chip) (n f : Nat) : Chip :=
  if f = 0 then c
  else
    let new := f &&& (15 ^^^ c.laneFlags n)
    let irq := new &&& bits (c.rd R.JRS_CTRL) 1 4
    let c := c.wr R.JRS_FLAGS_FLAGS (c.rd R.JRS_FLAGS_FLAGS (n / 8) ||| (f <<< (4 * (n % 8)))) (n / 8)
    let c := (c.setLanePv n 3 (c.lanePv n 3 ||| f)).latch R.JRS_STATUS_FLAG_ANY
    if irq = 0 then c else c.raise 13

/-- Lane `n` samples in the chip `c`; `c0` is the chip as its stage began. -/
def Chip.laneSample (c0 : Chip) (sd parity : List Nat) (c : Chip) (n : Nat) : Chip :=
  if c.laneFaulted n then c
  else if parity.contains n then c.laneFault n
  else
    let zero := (c0.lane n).resetDue
    let st := fun k => if zero then (0 : Int) else toSigned 64 (c0.lanePv n k)
    let r := (c0.laneSection n).sample (c0.laneSource sd n (c0.laneCfg n 6)) (c0.laneSource sd n (c0.laneCfg n 7))
      (st 6) (st 7) (st 8)
    let v := ofSigned 32 r.out
    let c := c.laneDrives n v
    let c := c.setLanePv n 4 (min (c.lanePv n 4 + 1) 0xFFFFFFFF)
    let c := ((c.setLanePv n 6 (ofSigned 64 r.s1)).setLanePv n 7 (ofSigned 64 r.s2)).setLanePv n 8 (ofSigned 64 r.s3)
    let c := c.laneFlag n r.flags
    c.setLane n (fun l => { l with out := some v, prev := some c.pulseCounts, resetDue := false })

/-- Jersey's ticks (R447), and the index of the next one. -/
def Chip.jrsRule (c : Chip) : GridRule := ⟨0, c.jrsBase, 1⟩
def Chip.jrsNextTick (c : Chip) : Nat := c.jrsRule.index (c.gridOf gridJersey).after

/-- The lanes that sample at tick `k` (R447). -/
def Chip.lanesAt (c : Chip) (k : Nat) : List Nat :=
  c.lanesOn.filter (fun n => k % max (c.laneCfg n 4) 1 == c.laneCfg n 5)

/-- JERSEY_TICK (R447, R448). `sd` are the most recent bits of each sigma-delta input; `parity` the lanes that read a slot
word with bad parity. [DESIGN CHOICE: log 101] -/
def execJerseyTick (sd parity : List Nat) (s : State) : Host.Outcome State Fault Refusal :=
  s.run [.regs, .dict, .tku, .jrs, .sent] (fun c =>
    if !(c.on R.JRS_CTRL_ENABLE) then c
    else
      let k := c.jrsNextTick
      let t := k * c.jrsBase
      let c := ((c.advanceTo t).gridServe gridJersey t).count R.JRS_TICK_CNT_COUNT
      let on := c.lanesAt k
      (List.range 4).foldl (fun (c : Chip) stage =>
        (on.filter (fun n => c.laneCfg n 3 == stage)).foldl (Chip.laneSample c sd parity) c) c)

/-! ## Set-points (R455 to R458) -/

/-- JERSEY_QUEUE_TAKE (R456): Jersey takes the next entry of the queue that subindex `slot + 1` of 0x4C01 names.
[DEDUCED: log 106] -/
def execJerseyQueueTake (slot : Nat) (s : State) : Host.Outcome State Fault Refusal :=
  s.run [.regs, .qmg, .msl, .jrs, .sent] (fun c =>
    let sub := slot % 8 + 1
    let qn := c.entry 0x4C01 sub
    match c.queue? qn with
    | none => c
    | some q =>
      if qn == 0xFFFF || q.kind != 3 || q.consumer != 2 || q.level == 0 then c
      else
        let r := c.muslinRead (devOffset (q.slot q.consumed)) 64
        let e := leNat r.2.2
        let stamp := q.stamps.headD 0
        let c := r.1.setQueue qn { q with consumed := q.consumed + 1, stamps := q.stamps.tail }
        let first := bits e 0 8
        let n := bits e 8 4
        if r.2.1 != 0 || n == 0 || n == 15 || decide (256 < first + n) then c.count R.JRS_QUEUE_BAD_CNT_COUNT
        else
          (List.range n).foldl (fun (c : Chip) i =>
            c.setLane (first + i) (fun l => { l with pending := l.pending ++ [(bits e (64 + 32 * i) 32, stamp, sub)] })) c)

/-- Queue set-points at a commit instant `t`, after the sessions due there (R457). [DEDUCED: log 102] -/
def Chip.jrsSetpoints (c : Chip) (t : Nat) : Chip :=
  c.jrs.lanes.foldl (fun (c : Chip) (e : Nat × JrsLane) =>
    let n := e.1
    let due := e.2.pending.filter (fun p => decide (p.2.1 < t))
    if due.isEmpty then c
    else
      let c := c.setLane n (fun l => { l with pending := l.pending.filter (fun p => !decide (p.2.1 < t)) })
      if bits (c.laneCfg n 6) 0 4 = 5 then
        match bestBy (fun a b => decide (b.2.1 < a.2.1) || (a.2.1 == b.2.1 && decide (b.2.2 ≤ a.2.2))) due with
        | some w =>
          let c := c.setLane n (fun l => { l with queued := w.1 })
          (c.setLanePv n 5 ((c.lanePv n 5 + (due.length - 1)) % 2 ^ 32)).setLanePv n 4 0
        | none => c
      else c.count R.JRS_QUEUE_IGN_CNT_COUNT 0 due.length) c

/-! ## Commits (R446, R450, R456, R458 to R461) -/

/-- Whether a source word is valid, in SP_SRC or FB_SRC (R451). -/
def sourceOk (word : Nat) (sp : Bool) : Bool :=
  bits word 12 4 == 0 && decide (bits word 0 4 < 8) &&
  (!(decide (1 ≤ bits word 0 4) && decide (bits word 0 4 ≤ 3)) || decide (bits word 4 8 < 16)) &&
  (sp || !(bits word 0 4 == 4 || bits word 0 4 == 5))

/-- Whether no value occurs twice. -/
def allDistinct (l : List Nat) : Bool := l.eraseDups.length == l.length

/-- Whether Jersey's entries are consistent (R450, R451, R456, R461). -/
def Chip.jrsConsistent (c : Chip) : Bool :=
  let on := c.lanesOn
  let sg := fun n s => toSigned 32 (c.laneCfg n s)
  c.lanesTouched.all (fun n =>
    let pin := c.laneCfg n 0x12
    let off := c.laneCfg n 0x13
    decide (c.laneCfg n 5 < c.laneCfg n 4) && decide (sg n 0x0C ≤ sg n 0x0D) && decide (sg n 0x0E ≤ sg n 0x0F) &&
    sourceOk (c.laneCfg n 6) true && sourceOk (c.laneCfg n 7) false &&
    (pin == 0xFF || decide (pin < 48)) && (off == 0xFFFF || (off % 4 == 0 && decide (off < 1024))) &&
    (pin == 0xFF || !decide (c.pwmCfg pin 4 < pin))) &&
  allDistinct ((on.map (fun n => c.laneCfg n 0x12)).filter (· != 0xFF)) &&
  allDistinct ((on.map (fun n => c.laneCfg n 0x13)).filter (· != 0xFFFF)) &&
  on.all (fun n => c.laneCfg n 0x12 == 0xFF || c.pwmCfg (c.laneCfg n 0x12) 1 != 0) &&
  (List.range 48).all (fun p =>
    let q := c.pwmCfg p 4
    q == 0xFF || (decide (q < 48) && q != p && c.pwmCfg q 4 == p)) &&
  (List.range 8).all (fun i =>
    let qn := c.entry 0x4C01 (i + 1)
    qn == 0xFFFF || (match c.queue? qn with | some q => q.kind == 3 && q.consumer == 2 | none => false))

/-- What Jersey does when entries were committed at an instant `t`; `written` are their keys. [DEDUCED: log 102, 105] -/
def Chip.jrsCommitted (old c : Chip) (t : Nat) (written : List Nat) : Chip :=
  let c := if old.jrsBase = c.jrsBase then c else c.gridFrom gridJersey t
  let c := (old.lanesOn).foldl (fun (c : Chip) n =>
    if c.laneCfg n 1 == 0 || c.laneCfg n 0x12 != old.laneCfg n 0x12 then c.pinIdle (old.laneCfg n 0x12) else c) c
  let c := (c.lanesOn).foldl (fun (c : Chip) n =>
    let c := if old.laneCfg n 1 != 0 then c
      else
        let c := (c.setLane n (fun l => { l with out := none, prev := none, resetDue := false })).setLaneFault n false
        [6, 7, 8].foldl (fun (c : Chip) k => c.setLanePv n k 0) c
    let back := match c.laneField n with
      | some o => written.contains (entryKey 0x7400 (1 + o / 256))
      | none => false
    if back then c.gwepoPut (c.laneCfg n 0x13) (bits (old.entry 0x7400 (1 + c.laneCfg n 0x13 / 256))
      (8 * (c.laneCfg n 0x13 % 256)) 32) else c) c
  let c := written.foldl (fun (c : Chip) k =>
    let n := k / 256
    if k % 256 == 0x14 && decide (0x4D00 ≤ n) && decide (n < 0x4E00) && c.entryOn n 0x14 then
      (c.setEntry n 0x14 0).setLane (n - 0x4D00) (fun l => { l with resetDue := true })
    else if k % 256 == 1 && decide (0x6C00 ≤ n) && decide (n < 0x6D00) &&
        bits (c.laneCfg (n - 0x6C00) 6) 0 4 != 5 then c.setLanePv (n - 0x6C00) 4 0
    else c) c
  let c := (List.range 16).foldl (fun (c : Chip) i =>
    if c.entryOn (0x4C20 + i) 1 && !old.entryOn (0x4C20 + i) 1 then c.wr R.JRS_PULSE_CNT_COUNT 0 i else c) c
  let c := (List.range 48).foldl (fun (c : Chip) p =>
    if c.pwmCfg p 1 == 0 && old.pwmCfg p 1 != 0 then c.pinIdle p
    else if c.pwmCfg p 1 != 0 && (old.pwmCfg p 1 == 0 || old.pwmCfg p 3 != c.pwmCfg p 3) then
      c.gridFrom (gridPwm p) t
    else c) c
  c.wr R.JRS_STATUS_LANES_ENABLED c.lanesOn.length

/-! ## JRS_CTRL.ENABLE (R466, R470) -/

/-- ENABLE written 1. [DEDUCED: log 105] -/
def Chip.jerseyStart (c : Chip) : Chip :=
  if c.on R.JRS_CTRL_ENABLE then c
  else
    let c := (c.wr R.JRS_CTRL_ENABLE 1).wr R.JRS_STATUS_RUNNING 1
    (List.range 48).foldl (fun (c : Chip) p => c.gridFrom (gridPwm p) c.now) (c.gridFrom gridJersey c.now)

/-- ENABLE written 0: every lane that runs stops, without FAULT. [DEDUCED: log 105] -/
def Chip.jerseyStop (c : Chip) : Chip :=
  if !(c.on R.JRS_CTRL_ENABLE) then c
  else
    let c := (c.lanesOn.filter (fun n => !c.laneFaulted n)).foldl (fun (c : Chip) n => c.laneStops n) c
    (c.wr R.JRS_CTRL_ENABLE 0).wr R.JRS_STATUS_RUNNING 0

/-- JERSEY_DISABLE. -/
def execJerseyDisable (s : State) : Host.Outcome State Fault Refusal := s.runHost [.regs, .dict, .jrs] Chip.jerseyStop

/-! ## Spare lanes (R467 to R469) -/

def Chip.setSwap (c : Chip) (w : Option (Nat × Nat × Nat)) : Chip :=
  let b := b2n w.isSome
  ({ c with jrs := { c.jrs with swap := w } }.wr R.JRS_STATUS_SWAP_BUSY b).wr R.JRS_SWAP_CMD_BUSY b

/-- RESULT of a swap command that completes, and its SERVICE record (R468, R512). [DEDUCED: log 50] -/
def Chip.laneSwapResult (c : Chip) (n result : Nat) : Chip :=
  (c.wr R.JRS_SWAP_CMD_RESULT result).journalService R.JRS_SWAP_CMD (n + 256) result

/-- JRS_SWAP. [DEDUCED: log 106] -/
def execJrsSwap (lane : BitVec 8) (s : State) : Host.Outcome State Fault Refusal :=
  s.runHost [.regs, .dict, .jrs, .odx] (fun c =>
    let n := lane.toNat
    let d := n % 16
    if c.jrs.swap.isSome then c.wr R.JRS_SWAP_CMD_RESULT 3
    else if c.laneCfg n 1 == 0 then c.laneSwapResult n 3
    else if c.on R.JRS_SPARE_IN_USE d || c.on R.JRS_SPARE_SPARE_BAD d then c.laneSwapResult n 2
    else c.setSwap (some (n, c.now, 0)))

/-- A swap ends: RESULT is written and the command journaled (R512). -/
def Chip.swapEnds (c : Chip) (n result : Nat) : Chip :=
  (c.setSwap none).laneSwapResult n result

/-- JRS_SWAP_KAT_END. `pass` is the result of the known-answer run. -/
def execJrsSwapKatEnd (pass : Bool) (s : State) : Host.Outcome State Fault Refusal :=
  s.run [.regs, .dict, .tku, .jrs, .odx] (fun c =>
    match c.jrs.swap with
    | some (n, since, 0) =>
      let c := c.advanceTo (since + 20000)
      if pass then c.setSwap (some (n, since, 1))
      else
        let c := c.wr R.JRS_SPARE_SPARE_BAD 1 (n % 16)
        (c.wr R.JRS_STATUS_SPARES_FREE (c.rd R.JRS_STATUS_SPARES_FREE - 1)).swapEnds n 4
    | _ => c)

/-- When lane `n` samples next, at or after the next tick. -/
def Chip.laneNext (c : Chip) (n : Nat) : Nat :=
  let k := c.jrsNextTick
  let d := max (c.laneCfg n 4) 1
  (k + (c.laneCfg n 5 + d - k % d) % d) * c.jrsBase

/-- JRS_SWAP_LOAD: the spare is loaded once the lane's next sample lies at least 3 µs ahead. `parity` says that a copied
word fails parity. -/
def execJrsSwapLoad (parity : Bool) (s : State) : Host.Outcome State Fault Refusal :=
  s.run [.regs, .dict, .jrs] (fun c =>
    match c.jrs.swap with
    | some (n, _, 1) =>
      if c.on R.JRS_CTRL_ENABLE && decide (c.laneNext n < c.now + 3000) then c
      else
        let c := if parity || c.laneFaulted n then [6, 7, 8].foldl (fun (c : Chip) k => c.setLanePv n k 0) c else c
        c.setSwap (some (n, c.now, 2))
    | _ => c)

/-- JRS_SWAP_DONE: 2 µs after the load, the lane runs on the spare. -/
def execJrsSwapDone (s : State) : Host.Outcome State Fault Refusal :=
  s.run [.regs, .dict, .tku, .jrs, .odx, .sent] (fun c =>
    match c.jrs.swap with
    | some (n, at_, 2) =>
      let c := (c.advanceTo (at_ + 2000)).setLaneFault n false
      let c := (c.wr R.JRS_SPARE_REPLACED n (n % 16)).wr R.JRS_SPARE_IN_USE 1 (n % 16)
      let c := c.wr R.JRS_STATUS_SPARES_FREE (c.rd R.JRS_STATUS_SPARES_FREE - 1)
      (c.swapEnds n 1).raise 13
    | _ => c)

end Sys2Proof.Machine
end

