-- ==== Sys2Proof/Machine/Tick.lean ====
section
/-!
DEFINITION. What the block does while no command waits: its clock advances by one cycle (R470, R471).
-/
namespace Sys2Proof.Machine

/-- The rate correction RATE_ADJ as a signed number of `2^-32` ns (R471). [DEDUCED: log 110] -/
def Chip.rateAdj (c : Chip) : Int := toSigned 32 (c.rd R.TKU_RATE_ADJ_RATE_ADJ)

/-- The clock's modulus: SECONDS wraps at `2^48`, in units of `2^-32` ns. [DEDUCED: log 27] -/
def clockWrap : Nat := 2 ^ 48 * 1000000000 * 2 ^ 32

/-- One cycle of the 500 MHz clock: 2 ns, corrected by RATE_ADJ; the clock stands while the KB9 does not act.
[DESIGN CHOICE: log 1, 3; DEDUCED: log 27] -/
def Chip.idle (c : Chip) : Chip :=
  if !c.live then c else
  { c with tku := { c.tku with clock := ((c.tku.clock : Int) + 2 * 2 ^ 32 + c.rateAdj).toNat % clockWrap } }

end Sys2Proof.Machine
end

