-- ==== Sys2Proof/Machine/Tku.lean ====
section
/-!
DEFINITION. The time-keeping unit (chapter 16): the commands of TKU_CMD, steps and grids, correction, PTP stamps and the
transmit time-stamp queue.
-/
namespace Sys2Proof.Machine

/-! ## Steps (R476, R480) -/

/-- The grids that run, by number, with their rules. -/
def Chip.activeGrids (c : Chip) : List (Nat × GridRule) :=
  let jrs := c.on R.JRS_CTRL_ENABLE
  let launch := fun (n : Nat) (plus : Nat) =>
    GridRule.mk (c.rd R.DSP_LAUNCH_FIRST n + plus) (max 1 (c.rd R.DSP_LAUNCH_PERIOD_NS n)) 1
  let gng := c.entryOn 0x5C00 1
  [(gridControl, c.controlRule), (gridPower, ⟨0, 2000, 1⟩)] ++
  (if jrs then [(gridJersey, ⟨0, max 1 (c.entry 0x4C00 1), 1⟩)] else []) ++
  (((List.range 4).filter (fun g => c.on R.GZE_CTRL_ENABLE && c.entryOn (0x3C00 + g) 1)).map (fun g =>
    (gridTrig g, ⟨c.entry (0x3C00 + g) 2, max 1 (c.entry (0x3C00 + g) 3), 1⟩))) ++
  (((List.range 64).filter (fun n => c.on R.DSP_LAUNCH_ENABLE n)).map (fun n => (gridLaunch n, launch n 0))) ++
  (((List.range 48).filter (fun p => jrs && c.entryOn (0x4C40 + p) 1)).map (fun p =>
    (gridPwm p, ⟨0, max 1 (5 * c.entry (0x4C40 + p) 3), 4⟩))) ++
  (((List.range 8).filter (fun n => gng && c.entryOn (0x5C10 + n) 1 && c.on R.DSP_LAUNCH_ENABLE (c.entry (0x5C10 + n) 2))).map
    (fun n => (gridDeadline n, launch (c.entry (0x5C10 + n) 2) (c.entry (0x5C10 + n) 0x0B)))) ++
  (if gng then [(gridHeartbeat, ⟨0, max 1 (c.entry 0x5C00 2), 1⟩)] else [])

/-- What a forward step from clock value `a` to `b` makes a grid skip: how many of its times, and its record after.
[DEDUCED: log 107] -/
def Chip.gridSkip (c : Chip) (id : Nat) (r : GridRule) (a b : Nat) : Nat × Grid :=
  let g := c.gridOf id
  let k := r.before b
  let skipped := k - max (r.before (a + 1)) (r.index g.after)
  let soon := match g.last with
    | some l =>
      -- whether twice the time from the last served time to the next lies under one period, in units of 2^-32 ns
      let next : Int := (r.base * 2 ^ 32 : Nat) + ((k * r.num * 2 ^ 32 : Nat) : Int) / r.den
      let elapsed : Int := (next - (b : Int)) + ((a : Int) - c.tku.shift) - l * 2 ^ 32
      decide (2 * elapsed * r.den < (r.num * 2 ^ 32 : Nat))
    | none => false
  let t := r.base + k * r.num / r.den
  if soon then (skipped + 1, { g with after := max g.after (t + 1) }) else (skipped, { g with after := max g.after t })

/-- WAIT_UNTIL's TIME64 (R78). -/
def waitTime (d : Nat) : Nat := Desc.par d 256 64

/-- A WAIT_UNTIL completes (R78). -/
def Chip.waitDone (c : Chip) (id i : Nat) : Chip :=
  match c.weave? id with
  | some w => (c.finishDesc id i (.plain St.OK w.cls)).settle
  | none => c

/-- The WAIT_UNTILs whose time a forward step passed complete. -/
def Chip.waitsPassed (c : Chip) (upTo : Nat) : Chip :=
  c.allDescs.foldl (fun (c : Chip) (p : Nat × Nat) =>
    match c.weave? p.1 with
    | some w => if w.st p.2 = some .timed ∧ waitTime (w.raw p.2) ≤ upTo then c.waitDone p.1 p.2 else c
    | none => c) c

/-- A step of the clock to the value `b` (R480): grids skip, commits move, waits end, STEPPED and vector 14. -/
def Chip.stepTo (c : Chip) (b : Nat) : Chip :=
  let a := c.tku.clock
  let c0 := c
  let c := if a < b then
      c.activeGrids.foldl (fun (c : Chip) (g : Nat × GridRule) =>
        let r := c0.gridSkip g.1 g.2 a b
        (c.setGrid g.1 r.2).count R.TKU_SKIP_CNT_COUNT 0 r.1) c
    else c
  -- trigger epochs that were skipped keep their numbers
  let c := if a < b then
      c.activeGrids.foldl (fun (c : Chip) (g : Nat × GridRule) =>
        if decide (2 ≤ g.1) && decide (g.1 < 6) then
          { c with gze := { c.gze with groups := modifyNth c.gze.groups (g.1 - 2) (fun q =>
              { q with number := (q.number + (c0.gridSkip g.1 g.2 a b).1) % 2 ^ 32 }) } }
        else c) c
    else c
  let tick := c.nextControlTick
  let lost := fun (t : Nat) => decide (a < t * 2 ^ 32) && (decide (t * 2 ^ 32 < b) || (decide (t < tick) && t % c.controlPeriod == 0))
  let c := { c with
    tku := { c.tku with clock := b % clockWrap, shift := c.tku.shift + ((b : Int) - a), steps := c.tku.steps + 1 },
    odx := { c.odx with
      sessions := c.odx.sessions.map (fun (s : Session) => if s.state == 2 && lost s.commitAt then { s with commitAt := tick } else s),
      implicit := c.odx.implicit.map (fun (w : Implicit) => if lost w.commitAt then { w with commitAt := tick } else w) } }
  let c := if a < b then c.waitsPassed c.now else c
  (c.latch R.TKU_STATUS_STEPPED).raise 14

/-- A step by a signed number of ns; none where it would take the clock below the epoch. [DEDUCED: log 107] -/
def Chip.stepBy (c : Chip) (ns : Int) : Option Chip :=
  let b := (c.tku.clock : Int) + ns * 2 ^ 32
  if b < 0 then none else some (c.stepTo b.toNat)

/-! ## The commands of TKU_CMD (R475, R476, R488) -/

/-- STATE of the correction unit. -/
def Chip.tkuState (c : Chip) : Nat := c.rd R.TKU_STATUS_STATE
def Chip.setTkuState (c : Chip) (v : Nat) : Chip := c.wr R.TKU_STATUS_STATE v

/-- RESULT of a command that completes, refused or not, and its SERVICE record (R512). [DEDUCED: log 50] -/
def Chip.tkuDone (c : Chip) (op : Nat) (force : Bool) (n : Nat) : Chip :=
  (c.wr R.TKU_CMD_RESULT n).journalService R.TKU_CMD (op + 8 * b2n force) n

/-- A signed 64-bit value held in two registers. -/
def Chip.rd64 (c : Chip) (lo hi : Field) : Int := toSigned 64 (c.rd lo + (c.rd hi <<< 32))
def Chip.wr64 (c : Chip) (lo hi : Field) (v : Int) : Chip := (c.wr lo (ofSigned 64 v % 2 ^ 32)).wr hi (ofSigned 64 v / 2 ^ 32)

/-- SNAP (R475). [DEDUCED: log 107] -/
def execTkuSnap (s : State) : Host.Outcome State Fault Refusal :=
  s.runHost [.regs] (fun c =>
    let ns := c.tku.clock / 2 ^ 32
    let sec := ns / 1000000000 % 2 ^ 48
    let c := (c.wr R.TKU_TIME_SEC_LO (sec % 2 ^ 32)).wr R.TKU_TIME_SEC_HI (sec / 2 ^ 32)
    let c := (c.wr R.TKU_TIME_NS (ns % 1000000000)).wr R.TKU_TIME_FRAC (bits c.tku.clock 16 16)
    c.wr R.TKU_CMD_RESULT 1)

/-- Whether the state refuses an unforced step (R476). [DEDUCED: log 107] -/
def Chip.stepRefused (c : Chip) (force : Bool) : Bool := !force && [2, 3, 4].contains c.tkuState

/-- SET (R476). -/
def execTkuSet (force : Bool) (s : State) : Host.Outcome State Fault Refusal :=
  s.runHost [.regs, .dict, .muslin, .tku, .dsp, .qmg, .msl, .drc, .gze, .jrs, .odx, .gng, .sent] (fun c =>
    let ns := c.rd R.TKU_TIME_NS_NS
    if c.stepRefused force then c.tkuDone 2 force 2
    else if 1000000000 ≤ ns then c.tkuDone 2 force 3
    else
      let sec := c.rd R.TKU_TIME_SEC_LO_SEC_LO + (c.rd R.TKU_TIME_SEC_HI_SEC_HI <<< 32)
      let b := (sec * 1000000000 + ns) * 2 ^ 32 + c.rd R.TKU_TIME_FRAC_FRAC * 2 ^ 16
      (c.stepTo b).tkuDone 2 force 1)

/-- STEP (R476). -/
def execTkuStep (force : Bool) (s : State) : Host.Outcome State Fault Refusal :=
  s.runHost [.regs, .dict, .muslin, .tku, .dsp, .qmg, .msl, .drc, .gze, .jrs, .odx, .gng, .sent] (fun c =>
    if c.stepRefused force then c.tkuDone 3 force 2
    else
      match c.stepBy (c.rd64 R.TKU_STEP_LO R.TKU_STEP_HI) with
      | some c => c.tkuDone 3 force 1
      | none => c.tkuDone 3 force 3)

/-- The pending offset, and the last accepted one. -/
def Chip.pendingOffset (c : Chip) : Int := c.rd64 R.TKU_PENDING_LO R.TKU_PENDING_HI

/-- FORCE_PENDING (R488). -/
def execForcePending (s : State) : Host.Outcome State Fault Refusal :=
  s.runHost [.regs, .dict, .muslin, .tku, .dsp, .qmg, .msl, .drc, .gze, .jrs, .odx, .gng, .sent] (fun c =>
    if c.tkuState != 4 then c.tkuDone 4 false 2
    else
      match c.stepBy (-c.pendingOffset) with
      | some c => ((c.wr64 R.TKU_PENDING_LO R.TKU_PENDING_HI 0).setTkuState 2).tkuDone 4 false 1
      | none => c.tkuDone 4 false 3)

/-- RELOCK (R488). -/
def execRelock (s : State) : Host.Outcome State Fault Refusal :=
  s.runHost [.regs, .dict, .odx] (fun c =>
    if c.tkuState = 0 then c.tkuDone 5 false 2 else (c.setTkuState 1).tkuDone 5 false 1)

/-! ## Correction (R472, R485 to R489) -/

/-- A quotient rounded to nearest, ties to even; `d` is positive. -/
def divEven (n d : Int) : Int :=
  let q := n / d
  let r := n % d
  if d < 2 * r ∨ (2 * r = d ∧ q % 2 = 1) then q + 1 else q

/-- The units of a rate in ppb (R472): `r * 2^33 / 10^9`, to nearest, ties to even. -/
def rateUnits (r : Num) : Int :=
  match r with
  | .fin neg m e =>
    let k := e + 33
    let n : Int := if 0 ≤ k then m * 2 ^ k.toNat else m
    let d : Int := if 0 ≤ k then 1000000000 else 1000000000 * 2 ^ (-k).toNat
    divEven (if neg then -n else n) d
  | _ => 0

/-- RATE_ADJ limited (R472). [DEDUCED: log 110] -/
def limitRate (v : Int) : Int := if v < -8589935 then -8589935 else if 8589935 < v then 8589935 else v
def Chip.setRate (c : Chip) (v : Int) : Chip := c.wr R.TKU_RATE_ADJ (ofSigned 32 (limitRate v))

/-- A number limited to plus or minus a bound. -/
def clampRate (x bound : Num) : Num := Num.min (Num.max x bound.neg) bound

/-- The hardware PI servo (R486), in FP32: the new integral term and the rate in ppb. -/
def servo (kp ki i o d bound : Num) : Num × Num :=
  let i' := clampRate (f32add i (f32div (f32mul ki o) d)) bound
  (i', clampRate (f32add (f32div (f32mul kp o) d) i').neg bound)

/-- An offset `o` in ns with interval `d` in seconds reaches the correction unit (R486). `stale` says that it was measured
before the latest step. [DEDUCED: log 110] -/
def Chip.offsetIn (c : Chip) (o : Int) (d : Num) (stale : Bool) : Chip :=
  let jump := fun (c : Chip) => ((c.latch R.TKU_STATUS_JUMP).count R.TKU_JUMP_CNT_COUNT).raise 14
  if c.tkuState = 0 then c
  else
    let c := { c with tku := { c.tku with offsetAt := c.unstepped c.now } }
    if stale then c.count R.TKU_OFFSET_STALE_CNT_COUNT
    else if c.tkuState = 1 then
      let lock := fun (c : Chip) => ({ c with tku := { c.tku with integral := 0 } }).setTkuState 2
      if o.natAbs < c.entry 0x5000 5 then lock c
      else match c.stepBy (-o) with
        | some c => lock c
        | none => jump c
    else if c.entry 0x5000 4 < o.natAbs then jump ((c.wr64 R.TKU_PENDING_LO R.TKU_PENDING_HI o).setTkuState 4)
    else
      let c := (c.setTkuState 2).wr64 R.TKU_LAST_OFFSET_LO R.TKU_LAST_OFFSET_HI o
      if c.entry 0x5000 2 = 2 then
        let r := servo (f32val (c.entry 0x5000 6)) (f32val (c.entry 0x5000 7)) (f32val c.tku.integral) (r32 (.ofInt o)) d
          (r32 (.ofNat (c.entry 0x5000 8)))
        ({ c with tku := { c.tku with integral := f32bits r.1 } }).setRate (rateUnits r.2)
      else c

/-- OFFSET_ARRIVE (R486): an offset of the PTP engine, `2^logSync` s after the last; `seen` is the number of steps that had
taken effect when it was measured. [DESIGN CHOICE: log 109] -/
def execOffsetArrive (offset logSync : Int) (seen : Nat) (s : State) : Host.Outcome State Fault Refusal :=
  s.run [.regs, .muslin, .tku, .dsp, .qmg, .msl, .drc, .gze, .jrs, .odx, .gng, .sent] (fun c =>
    if c.entry 0x5000 3 != 0 then c
    else c.offsetIn offset (.fin false 1 logSync) (decide (seen < c.tku.steps)))

/-- OFFSET_SUBMIT (R489): a write of TKU_OFFSET_INTERVAL. -/
def execOffsetSubmit (intervalUs : Nat) (s : State) : Host.Outcome State Fault Refusal :=
  s.runHost [.regs, .muslin, .tku, .dsp, .qmg, .msl, .drc, .gze, .jrs, .odx, .gng, .sent] (fun c =>
    if c.entry 0x5000 3 = 1 ∧ 7812 ≤ intervalUs ∧ intervalUs ≤ 16000000 then
      c.offsetIn (c.rd64 R.TKU_OFFSET_IN_LO R.TKU_OFFSET_IN_HI) (f32div (.ofNat intervalUs) (.ofNat 1000000)) false
    else c)

/-- HOLDOVER_TIMEOUT (R487): no offset for SYNC_LOSS_MS while LOCKED. -/
def execHoldoverTimeout (s : State) : Host.Outcome State Fault Refusal :=
  s.runKeeper [.regs, .tku, .sent] (fun c =>
    if c.tkuState = 2 then
      let due := c.tku.offsetAt + 1000000 * (c.entry 0x5000 9 : Int)
      let c := c.advanceTo (due + c.tku.shift / 2 ^ 32).toNat
      ((c.setTkuState 3).latch R.TKU_STATUS_HOLDOVER_SEEN).raise 14
    else c)

/-- What the TKU does when entries were committed at an instant `t` (R479, R485). -/
def Chip.tkuCommitted (old c : Chip) (t : Nat) : Chip :=
  let c := if old.controlPeriod = c.controlPeriod then c else c.gridFrom gridControl (t + 1)
  let was := old.entry 0x5000 2
  let now := c.entry 0x5000 2
  let c := if was = 0 ∧ now ≠ 0 then c.setTkuState 1 else if was ≠ 0 ∧ now = 0 then c.setTkuState 0 else c
  if (List.range 12).any (fun k => old.entry 0x5001 (k + 1) != c.entry 0x5001 (k + 1)) then
    c.wr R.TKU_STATUS_PTP_STATE (c.entry 0x5001 1)
  else c

/-- Whether the PTP entries are consistent (R485). -/
def Chip.tkuConsistent (c : Chip) : Bool := c.entry 0x5001 2 != 0 || c.entry 0x5001 4 == 0

/-! ## PTP event messages (R481, R482) -/

/-- A PTP time stamp in units of `2^-16` ns: within 4 ns of the clock, and free within that. [DESIGN CHOICE: log 108] -/
def Chip.ptpStamp (c : Chip) : Nat × Chip :=
  let r := c.freshId
  (c.tku.clock / 2 ^ 16 + Config.freeNat r.1 % (8 * 2 ^ 16 + 1) - 4 * 2 ^ 16, r.2)

/-- Whether the engine serves a port. -/
def Chip.ptpOn (c : Chip) (port : Nat) : Bool := c.entryOn 0x5001 1 && c.entry 0x5001 3 == port

/-- A stamp is kept as the latest of its kind, port and direction. -/
def Chip.keepStamp (c : Chip) (kind port : Nat) (sent : Bool) (t : Nat) : Chip :=
  { c with tku := { c.tku with ptpStamps := Table.put c.tku.ptpStamps (kind * 4 + port * 2 + b2n sent) t } }

/-- The engine takes a port state and a master (R485, R488). [DESIGN CHOICE: log 109] -/
def Chip.ptpTakes (c : Chip) (m : PtpMessage) : Chip :=
  let st := if m.portState = 3 ∧ c.entry 0x5001 0x0A = 0 then c.rd R.TKU_STATUS_PTP_STATE else m.portState
  let c := if 1 ≤ st ∧ st ≤ 5 then c.wr R.TKU_STATUS_PTP_STATE st else c
  match m.master with
  | none => c
  | some (clockId, port) =>
    let old := (c.rd R.TKU_MASTER_ID0_CLOCK_ID, c.rd R.TKU_MASTER_ID1_CLOCK_ID, c.rd R.TKU_MASTER_ID2_PORT_NUMBER)
    let new := (clockId % 2 ^ 32, clockId / 2 ^ 32 % 2 ^ 32, port % 2 ^ 16)
    let c := ((c.wr R.TKU_MASTER_ID0_CLOCK_ID new.1).wr R.TKU_MASTER_ID1_CLOCK_ID new.2.1).wr R.TKU_MASTER_ID2_PORT_NUMBER new.2.2
    if old = new then c else (c.latch R.TKU_STATUS_MASTER_CHANGED).count R.TKU_MASTER_CHG_CNT_COUNT

/-- PTP_EVENT_RX (R482): the message is stamped, INGRESS_LAT_NS before it passed, and the engine handles it. -/
def execPtpEventRx (port : Nat) (message : PtpMessage) (s : State) : Host.Outcome State Fault Refusal :=
  s.run [.regs, .tku, .fresh] (fun c =>
    if c.ptpOn port then
      let r := c.ptpStamp
      (r.2.keepStamp message.kind port false (r.1 - c.entry 0x5001 0x0B * 2 ^ 16)).ptpTakes message
    else c)

/-- The ten bytes of a PTP time stamp: seconds and nanoseconds, big-endian. -/
def ptpBytes (t : Nat) : List Byte :=
  let ns := t / 2 ^ 16
  beBytes 6 (ns / 1000000000) ++ beBytes 4 (ns % 1000000000)

/-- PTP_EVENT_TX (R482): the message is stamped, EGRESS_LAT_NS after it passed. In one-step mode the stamp leaves with it. -/
def execPtpEventTx (port : Nat) (message : PtpMessage) (s : State) : Host.Outcome State Fault Refusal :=
  s.run [.tku, .sent, .fresh] (fun c =>
    if c.ptpOn port then
      let r := c.ptpStamp
      let t := r.1 + c.entry 0x5001 0x0C * 2 ^ 16
      let c := r.2.keepStamp message.kind port true t
      c.emit .ptp port message.kind (if c.entryOn 0x5001 5 then ptpBytes t else [])
    else c)

/-! ## The transmit time-stamp queue (R483, R484) -/

/-- The queue replaced, with its level. -/
def Chip.setTxts (c : Chip) (q : List TxStamp) : Chip := ({ c with tku := { c.tku with txts := q } }).wr R.TKU_TXTS_LEVEL_LEVEL q.length

/-- The transmit path accepted a frame with an identifier: its sequence takes its generation. -/
def Chip.txtsAccept (c : Chip) (id : Nat) : Chip :=
  { c with tku := { c.tku with generations := Table.put c.tku.generations (bits id 0 12) (bits id 12 4) } }

/-- TX_TIMESTAMP_CAPTURE (R483). -/
def execTxTimestampCapture (port id : Nat) (s : State) : Host.Outcome State Fault Refusal :=
  s.run [.regs, .tku, .sent] (fun c =>
    if Table.getD c.tku.generations (bits id 0 12) 0 != bits id 12 4 then c.count R.TKU_TXTS_STALE_CNT_COUNT
    else if 64 ≤ c.tku.txts.length then ((c.latch R.TKU_STATUS_TXTS_OVERFLOW).count R.TKU_TXTS_DROP_CNT_COUNT).raise 14
    else c.setTxts (c.tku.txts ++ [⟨id % 65536, port % 2, c.tku.clock⟩]))

/-- TXTS_POP (R484): a read of TKU_TXTS0. Its value leaves, and stays readable with the rest of the entry. -/
def Chip.txtsPop (c : Chip) : Chip :=
  let put := fun (c : Chip) (w0 w1 w2 w3 : Nat) =>
    (((c.wr R.TKU_TXTS0 w0).wr R.TKU_TXTS1 w1).wr R.TKU_TXTS2 w2).wr R.TKU_TXTS3 w3
  match c.tku.txts with
  | e :: rest =>
    let ns := e.clock / 2 ^ 32
    let sec := ns / 1000000000 % 2 ^ 48
    let w0 := e.id + (e.port <<< 16) + (1 <<< 17)
    ((put c w0 (ns % 1000000000) (sec % 2 ^ 32) (sec / 2 ^ 32 + (bits e.clock 16 16 <<< 16))).setTxts rest).emit .regRead
      R.TKU_TXTS0.addr w0 []
  | [] => (put c 0 0 0 0).emit .regRead R.TKU_TXTS0.addr 0 []
def execTxtsPop (s : State) : Host.Outcome State Fault Refusal := s.runHost [.regs, .tku, .sent] Chip.txtsPop

end Sys2Proof.Machine
end

