-- ==== Sys2Proof/Machine/Tweed.lean ====
section
/-!
DEFINITION. Tweed's fusion operation (chapter 12): epoch selection, the gather, calibration and projection, the point and
feature levels, each piece by piece (R387).
-/
namespace Sys2Proof.Machine

/-! ## Parameters (R372) and sensors (R363) -/

/-- The parameter area of FUSE. -/
structure FusePar where
  group : Nat
  point : Bool
  grid : Bool
  track : Bool
  pointSensor : Nat
  sensors : List Nat
  cutoff : Nat
  out : Nat
  attach : Nat
  pfeat : Nat
  gridOff : Nat
  flags : Nat
  obj : Nat
  deriving DecidableEq, Repr

/-- The fields of a descriptor. -/
def fusePar (d : Nat) : FusePar :=
  ⟨bits d 256 2, d.testBit 258, d.testBit 259, d.testBit 260, bits d 264 5, (List.range 32).filter (fun s => d.testBit (272 + s)),
   bits d 304 32, 64 * bits d 336 22, 64 * bits d 358 22, 64 * bits d 380 22, 64 * bits d 402 22, 64 * bits d 424 22,
   64 * bits d 446 22⟩

/-- The entries of the Tweed block. -/
def Chip.twdCfg (c : Chip) : Table Nat := c.dict.filter (fun p => decide (0x400000 ≤ p.1) && decide (p.1 < 0x440000))

/-- Subindex `k` of sensor `s`. -/
def Chip.sens (c : Chip) (s k : Nat) : Nat := c.entry (0x4010 + s) k

/-- Kinds of sensors. -/
def kLidar : Nat := 0
def kCam : Nat := 1
def kBev : Nat := 2
def kDet : Nat := 3

/-- The sensors of a kind in SENSORS. -/
def Chip.sensorsOf (c : Chip) (d kind : Nat) : List Nat := (fusePar d).sensors.filter (fun s => c.sens s 2 == kind)

/-- Element bytes of a format code. -/
def elemBytes (code : Nat) : Nat := fmtWidth code / 8

/-- Features of the point level, of the grid, and grid size. -/
def Chip.camF (c : Chip) (d : Nat) : Nat := match c.sensorsOf d kCam with | s :: _ => c.sens s 0xB | [] => 0
def Chip.gridC (c : Chip) (d : Nat) : Nat := match c.sensorsOf d kBev with | s :: _ => c.sens s 0xB - 2 | [] => 0
def Chip.gridW (c : Chip) : Nat := c.entry 0x4002 1
def Chip.gridH (c : Chip) : Nat := c.entry 0x4002 2

/-! ## Calibration (R369) -/

/-- FP32 value at a bit of a calibration record. -/
def calF (r lo : Nat) : Num := f32val (bits r lo 32)

/-- A calibration table read: a fault, a failed table, or its records. -/
def Chip.readCal (c : Chip) : Chip × Nat × Option (List Nat) :=
  let a := c.entry 0x4000 1
  let h := c.devRead a 64
  if h.2.1 != 0 then (h.1, h.2.1, none)
  else
    let hv := leNat h.2.2
    let n := bits hv 48 8
    if bits hv 0 32 ≠ 0x4C414354 ∨ bits hv 32 16 ≠ 1 ∨ n = 0 ∨ 32 < n then (h.1, St.OK, none)
    else
      let r := h.1.devRead (a + 64) (128 * n)
      if r.2.1 != 0 then (r.1, r.2.1, none)
      else
        let recs := (List.range n).map (fun i => leNat ((r.2.2.drop (128 * i)).take 128))
        if bits hv 480 32 != crc32 (h.2.2.take 60 ++ r.2.2) || recs.any (fun x => bits x 0 2 == 3) then (r.1, St.OK, none)
        else (r.1, St.OK, some recs)

/-- The bytes of the calibration table that an operation reads as it starts: none unless a session asked for them (R369). -/
def Chip.calBytes (c : Chip) (l : Chip) : Nat := if c.twd.reload && !l.on R.TWD_STATUS_CAL_BAD then 64 + 128 * l.twd.cal.length else 0

/-- The first operation after a session wrote the table's address reads it (R369). [DESIGN CHOICE: log 85] -/
def Chip.loadCal (c : Chip) : Chip × Nat :=
  if !c.twd.reload then (c, St.OK)
  else
    let r := c.readCal
    let c := { r.1 with twd := { r.1.twd with reload := r.2.1 != 0, cal := r.2.2.getD [] } }
    (c.wr R.TWD_STATUS_CAL_BAD (b2n (r.2.1 == 0 && r.2.2.isNone)), r.2.1)

/-- Whether the calibration serves every sensor of a FUSE. [DESIGN CHOICE: log 85] -/
def Chip.calOk (c : Chip) (d : Nat) : Bool :=
  !c.on R.TWD_STATUS_CAL_BAD && (fusePar d).sensors.all (fun s => decide (c.sens s 5 < c.twd.cal.length))

/-! ## Projection (R370) -/

/-- A matrix row times a vector, summed left to right. -/
def dot3 (a b : List Num) : Num := rowDot a b

/-- Element (i, j) of the rotation, and the origin. -/
def calM (r i j : Nat) : Num := calF r (384 + 32 * (3 * i + j))
def calT (r i : Nat) : Num := calF r (672 + 32 * i)

/-- Sensor frame to rig frame. -/
def toRig (r : Nat) (q : List Num) : List Num :=
  (List.range 3).map (fun i => f32add (dot3 ((List.range 3).map (calM r i)) q) (calT r i))

/-- A point as a camera sees it: inside the image, its depth, its feature cell. -/
structure Seen where
  depth : Num
  row : Nat
  col : Nat
  deriving DecidableEq, Repr

/-- A rig-frame point projected into a camera: none where it is not seen inside the image. -/
def project (r : Nat) (p : List Num) : Option Seen :=
  let d := (List.range 3).map (fun i => f32sub (nth p i .zero) (calT r i))
  let xyz := (List.range 3).map (fun j => dot3 ((List.range 3).map (fun i => calM r i j)) d)
  let x := nth xyz 0 .zero; let y := nth xyz 1 .zero; let z := nth xyz 2 .zero
  let k := fun i => calF r (224 + 32 * i)
  let one := Num.ofNat 1
  let two := Num.ofNat 2
  let m := f32mul
  let a3 := f32add (f32add (m x x) (m y y)) (m z z)
  let view : Option (Num × Num × Num) :=
    if bits r 0 2 = 1 then
      if !Num.le (calF r 768) z then none
      else
        let a := f32div x z; let b := f32div y z
        let r2 := f32add (m a a) (m b b)
        let rad := f32add one (m r2 (f32add (k 0) (m r2 (f32add (k 1) (m r2 (k 4))))))
        let ad := f32add (m a rad) (f32add (m (m (m two (k 2)) a) b) (m (k 3) (f32add r2 (m (m two a) a))))
        let bd := f32add (m b rad) (f32add (m (k 2) (f32add r2 (m (m two b) b))) (m (m (m two (k 3)) a) b))
        some (ad, bd, z)
    else if bits r 0 2 = 2 then
      let rr := f32sqrt (f32add (m x x) (m y y))
      let th := (fnAtan2 rr z 52).1
      let dist := f32sqrt a3
      if !(Num.le th (calF r 800) && Num.le (calF r 768) dist) then none
      else
        let t2 := m th th
        let poly := f32add one (m t2 (f32add (k 0) (m t2 (f32add (k 1) (m t2 (f32add (k 2) (m t2 (k 3))))))))
        let thd := m th poly
        if rr.isZero then some (.zero, .zero, dist)
        else some (f32div (m thd x) rr, f32div (m thd y) rr, dist)
    else none
  match view with
  | none => none
  | some (ad, bd, depth) =>
    let u := f32add (m (calF r 96) ad) (calF r 160)
    let v := f32add (m (calF r 128) bd) (calF r 192)
    let w := Num.ofNat (bits r 32 16); let h := Num.ofNat (bits r 48 16)
    if Num.le .zero u && Num.lt u w && Num.le .zero v && Num.lt v h then
      let col := f32div (m u (.ofNat (bits r 64 16))) w
      let row := f32div (m v (.ofNat (bits r 80 16))) h
      some ⟨depth, row.floorInt.toNat, col.floorInt.toNat⟩
    else none

/-! ## Epoch selection (R360, R361) -/

/-- The latest epoch of the group whose cutoff has passed. -/
def Chip.fuseEpoch (c : Chip) (d : Nat) : Option (Nat × Nat) :=
  (c.trig (fusePar d).group).epochs.find? (fun e => decide (e.2 + (fusePar d).cutoff ≤ c.now))

/-- Difference of two epoch numbers as a signed 32-bit number. -/
def epochDiff (a b : Nat) : Int := toSigned 32 ((a + 2 ^ 32 - b) % 2 ^ 32)

/-- Whether epoch `k` is new to its group, and the epochs skipped before it. -/
def Chip.epochNew (c : Chip) (g k : Nat) : Option Nat :=
  match Table.get? c.twd.fused g with
  | none => some 0
  | some (last, _) => if epochDiff k last ≤ 0 then none else some (epochDiff k last - 1).toNat

/-! ## The gather (R366, R367) -/

/-- READY of a record cleared through the bit-clear alias: bit 224 of the record. -/
def Chip.clearReady (c : Chip) (s buf : Nat) : Chip × Nat :=
  c.muslinWrite .clearBits (devOffset (c.sens s 9 + 64 * buf) + 28) [1]

/-- The time of an epoch of a group, while it is among the last 64. -/
def Chip.recentEpoch (c : Chip) (g k : Nat) : Option Nat :=
  (((c.trig g).epochs.take 64).find? (fun e => e.1 == k)).map (·.2)

/-- A dropped record is counted and logged (R367). `kind`: 0 late, 1 duplicate, 2 untriggered. -/
def Chip.lateSample (c : Chip) (f : FuseRun) (d s kind epoch buf : Nat) : Chip :=
  let p := fusePar d
  let c := (c.count R.TWD_LATE_CNT_COUNT).latch R.TWD_STATUS_DROPPED
  let late := if kind = 2 then 0xFFFFFFFF
    else match c.recentEpoch p.group epoch with
      | some t => min (f.seen - (t + p.cutoff)) 0xFFFFFFFF
      | none => 0xFFFFFFFF
  let e := s + (kind <<< 5) + (epoch <<< 32) + (f.epoch <<< 64) + (late <<< 96) + (bits f.seen 0 64 <<< 128) + (buf <<< 192)
  let q := c.entry 0x4000 3
  match c.queue? q with
  | some r => if r.kind = 3 ∧ r.producer = 4 then c.produce q e else c
  | none => c

/-- The FUSEs of `runs` whose operations are suspended. -/
def Chip.fusesLeft (c : Chip) : List FuseRun :=
  c.twd.runs.filter (fun r => c.dsp.suspended.any (fun x => x.unit == 21 && x.weave == r.weave && x.index == r.index))

/-- A record dropped: READY cleared, and the drop counted and logged. -/
def Chip.dropRecord (c : Chip) (d s : Nat) (f : FuseRun) (kind epoch buf : Nat) : Chip × FuseRun × Nat :=
  let w := c.clearReady s buf
  if w.2 != 0 then (w.1, f, w.2) else (w.1.lateSample f d s kind epoch buf, { f with dropped := f.dropped + 1 }, St.OK)

/-- The records that a FUSE used and left READY as it failed are dropped as late (R366). [DEDUCED: log 82] -/
def Chip.dropOwed (c : Chip) (d s : Nat) (f : FuseRun) : Chip × FuseRun × Nat :=
  let mine := c.twd.owed.filter (fun u => u.1 == s && !c.fusesLeft.any (fun r => r.used.any (fun x => x.1 == s && x.2.1 == u.2)))
  mine.foldl (fun (a : Chip × FuseRun × Nat) u =>
    if a.2.2 != 0 then a
    else
      let r := a.1.devRead (a.1.sens s 9 + 64 * u.2) 64
      let rec_ := leNat r.2.2
      if r.2.1 != 0 then (r.1, a.2.1, r.2.1)
      else
        let v := if rec_.testBit 224 then r.1.dropRecord d s a.2.1 0 (bits rec_ 32 32) u.2 else (r.1, a.2.1, St.OK)
        if v.2.2 != 0 then v
        else ({ v.1 with twd := { v.1.twd with owed := v.1.twd.owed.filter (· != u) } }, v.2)) (c, f, St.OK)

/-- When READY of a record became visible, as far as the model saw it (R360). [DEDUCED: log 82] -/
def Chip.readyTime (c : Chip) (s buf : Nat) : Nat := Table.getD c.msl.readyAt (devOffset (c.sens s 9 + 64 * buf) + 28) 0

/-- The walk of one sensor's ring, at most once around. The epoch's record stops it, unexamined, where READY came at or after the
cutoff (R360). [DEDUCED: log 82] -/
def Chip.gatherWalk (c : Chip) (d s : Nat) (f : FuseRun) : Nat → Chip × FuseRun × Nat
  | 0 => (c, f, St.OK)
  | fuel + 1 =>
    let n := max 1 (c.sens s 7)
    let buf := nth c.twd.ringNext s 0 % n
    let r := c.devRead (c.sens s 9 + 64 * buf) 64
    if r.2.1 != 0 then (r.1, f, r.2.1)
    else
      let rec_ := leNat r.2.2
      let ep := bits rec_ 32 32
      let first := ep == f.epoch && ep != 0xFFFFFFFF && !f.used.any (fun u => u.1 == s)
      if !rec_.testBit 224 || (ep != 0xFFFFFFFF && decide (0 < epochDiff ep f.epoch)) ||
          (first && decide (f.epochTime + (fusePar d).cutoff ≤ c.readyTime s buf)) then (r.1, f, St.OK)
      else
        let twd := { r.1.twd with ringNext := modifyNth r.1.twd.ringNext s (fun _ => (buf + 1) % n) }
        if first then
          Chip.gatherWalk { r.1 with twd := { twd with owed := (s, buf) :: twd.owed.filter (· != (s, buf)) } } d s
            { f with used := f.used ++ [(s, buf, bits rec_ 320 32)] } fuel
        else
          let kind := if ep = 0xFFFFFFFF then 2 else if ep = f.epoch then 1 else 0
          let w := ({ r.1 with twd := twd } : Chip).dropRecord d s f kind ep buf
          if w.2.2 != 0 then w else Chip.gatherWalk w.1 d s w.2.1 fuel

/-- The gather of all sensors named. -/
def Chip.gather (c : Chip) (d : Nat) (f : FuseRun) : Chip × FuseRun × Nat :=
  (fusePar d).sensors.foldl (fun (s : Chip × FuseRun × Nat) k =>
    if s.2.2 != 0 then s
    else
      let o := s.1.dropOwed d k s.2.1
      if o.2.2 != 0 then o else o.1.gatherWalk d k o.2.1 (o.1.sens k 7)) (c, f, St.OK)

/-- The used buffer of a sensor: its address, and the count of its record. -/
def Chip.usedBuf (c : Chip) (f : FuseRun) (s : Nat) : Option (Nat × Nat) :=
  (f.used.find? (fun u => u.1 == s)).map (fun u => (c.sens s 6 + u.2.1 * c.sens s 8, u.2.2))

/-! ## Point level (R374) -/

/-- Points of a chunk (R387). -/
def pointChunk : Nat := 4096

/-- The points of a lidar's used scan that lie in its buffer. -/
def Chip.scanPoints (c : Chip) (f : FuseRun) (s : Nat) : Nat :=
  match c.usedBuf f s with
  | some (_, n) => min n (c.sens s 8 / 16)
  | none => 0

/-- Points `lo` onward of a lidar's used scan, at most `k` of them, in the rig frame. -/
def Chip.rigPoints (c : Chip) (f : FuseRun) (s lo k : Nat) : Chip × Nat × List (List Num) :=
  match c.usedBuf f s with
  | none => (c, St.OK, [])
  | some (a, _) =>
    let n := min k (c.scanPoints f s - lo)
    let r := c.devRead (a + 16 * lo) (16 * n)
    let m := nth f.cal (c.sens s 5) 0
    (r.1, r.2.1, (List.range n).map (fun i =>
      let v := leNat ((r.2.2.drop (16 * i)).take 16)
      toRig m [f32val (bits v 0 32), f32val (bits v 32 32), f32val (bits v 64 32)]))

/-- The place of a sensor's cell in a table. -/
def cellKey (s cell : Nat) : Nat := s * 2 ^ 18 + cell

/-- The cameras of a FUSE that are not missing. -/
def Chip.camsUsed (c : Chip) (d : Nat) (f : FuseRun) : List Nat :=
  (c.sensorsOf d kCam).filter (fun s => f.used.any (fun u => u.1 == s))

/-- A point's views from every camera, and the cell of a view. -/
def Chip.viewsOf (c : Chip) (d : Nat) (f : FuseRun) (p : List Num) : List (Nat × Seen) :=
  (c.camsUsed d f).filterMap (fun s => (project (nth f.cal (c.sens s 5) 0) p).map (fun x => (s, x)))
def Chip.viewCell (c : Chip) (f : FuseRun) (v : Nat × Seen) : Nat := v.2.row * bits (nth f.cal (c.sens v.1 5) 0) 64 16 + v.2.col

/-- The first pass over chunk `j`: the least depth of any point in each camera cell. -/
def Chip.depthPass (c : Chip) (d : Nat) (f : FuseRun) (j : Nat) : Chip × FuseRun × Nat :=
  let pts := c.rigPoints f (fusePar d).pointSensor (pointChunk * j) pointChunk
  let depths := pts.2.2.foldl (fun (t : Table Num) p =>
    (c.viewsOf d f p).foldl (fun (t : Table Num) v =>
      let k := cellKey v.1 (c.viewCell f v)
      Table.put t k (match Table.get? t k with | some m => Num.min m v.2.depth | none => v.2.depth)) t) f.depths
  (pts.1, { f with depths := depths }, pts.2.1)

/-- The camera a point takes: of highest RANK among those it passes. -/
def Chip.attachTo (c : Chip) (f : FuseRun) (views : List (Nat × Seen)) : Option (Nat × Seen) :=
  let tol := f32val (c.entry 0x4003 1)
  bestBy (fun (a b : Nat × Seen) => decide (c.sens b.1 3 < c.sens a.1 3)) (views.filter (fun v =>
    match Table.get? f.depths (cellKey v.1 (c.viewCell f v)) with
    | some zc => Num.le v.2.depth (f32add zc tol)
    | none => false))

/-- Converted elements written at an address: generator by flat index from `base` on. -/
def Chip.putElems (c : Chip) (o : OpRun) (src a base : Nat) (xs : List Num) : Chip × OpRun × Nat :=
  let code := fmtCode (Desc.fmtOut o.raw)
  let v := xs.zipIdx.foldl (fun (s : OpRun × List Nat) x =>
    let r := s.1.convInput src code ((base + x.2) % 1024) x.1
    (r.1, s.2 ++ [r.2])) (o, [])
  let w := c.devWrite a (packElems (fmtWidth code) v.2)
  (w.1, v.1, w.2)

/-- Attach record and feature row of point `i`, and whether a camera was chosen. -/
def Chip.attachPoint (c : Chip) (o : OpRun) (f : FuseRun) (i : Nat) (p : List Num) : Chip × OpRun × Bool × Nat :=
  let q := fusePar o.raw
  let nf := c.camF o.raw
  let views := c.viewsOf o.raw f p
  let got := c.attachTo f views
  let word := match got with
    | some (k, x) => k + (f32bits x.depth <<< 32)
    | none => 32 + (b2n (!views.isEmpty) <<< 6)
  let row := q.pfeat + i * nf * elemBytes (fmtCode (Desc.fmtOut o.raw))
  let w := c.devWrite (q.attach + 8 * i) (leBytes 8 word)
  if w.2 != 0 then (w.1, o, got.isSome, w.2)
  else
    match got with
    | none => let v := w.1.putElems o 0xC row (i * nf) (List.replicate nf .zero); (v.1, v.2.1, false, v.2.2)
    | some v =>
      let code := fmtCode (c.sens v.1 0xA)
      let n := nf * elemBytes code
      let rd := w.1.devRead (((c.usedBuf f v.1).map (·.1)).getD 0 + c.viewCell f v * n) n
      if rd.2.1 != 0 then (rd.1, o, true, rd.2.1)
      else
        let x := rd.1.putElems o code row (i * nf) ((List.range nf).map (fun j => decodeElem code 0 (elemAt rd.2.2 (fmtWidth code) j)))
        (x.1, x.2.1, true, x.2.2)

/-- The second pass over chunk `j`. -/
def Chip.attachPass (c : Chip) (o : OpRun) (f : FuseRun) (j : Nat) : Chip × OpRun × FuseRun × Nat :=
  let pts := c.rigPoints f (fusePar o.raw).pointSensor (pointChunk * j) pointChunk
  if pts.2.1 != 0 then (pts.1, o, f, pts.2.1)
  else
    pts.2.2.zipIdx.foldl (fun (s : Chip × OpRun × FuseRun × Nat) p =>
      if s.2.2.2 != 0 then s
      else
        let v := s.1.attachPoint s.2.1 f (pointChunk * j + p.2) p.1
        (v.1, v.2.1, { s.2.2.1 with attached := s.2.2.1.attached + b2n v.2.2.1 }, v.2.2.2)) (pts.1, o, f, St.OK)

/-! ## Feature level (R375, R376) -/

/-- What one sensor says of one cell: sensor, RANK, weight, occupancy, features (none for a lidar). -/
structure Evidence where
  sensor : Nat
  rank : Nat
  weight : Num
  occ : Num
  feats : Option (List Num)
  deriving DecidableEq, Repr

/-- The cell of a rig-frame point. -/
def Chip.cellOf (c : Chip) (p : List Num) : Option Nat :=
  let g := fun k => f32val (c.entry 0x4002 k)
  let row := (f32div (f32sub (nth p 1 .zero) (g 5)) (g 3)).floorInt
  let col := (f32div (f32sub (nth p 0 .zero) (g 4)) (g 3)).floorInt
  if 0 ≤ row ∧ row < c.gridH ∧ 0 ≤ col ∧ col < c.gridW then some (row.toNat * c.gridW + col.toNat) else none

/-- A lidar's pass over the grid, chunk `j`: points per cell. -/
def Chip.binPass (c : Chip) (f : FuseRun) (s j : Nat) : Chip × FuseRun × Nat :=
  let lo := f32val (c.entry 0x4002 9)
  let hi := f32val (c.entry 0x4002 0xA)
  let pts := c.rigPoints f s (pointChunk * j) pointChunk
  let bins := pts.2.2.foldl (fun (t : Table Nat) p =>
    if Num.le lo (nth p 2 .zero) && Num.lt (nth p 2 .zero) hi then
      match c.cellOf p with
      | some k => Table.put t (cellKey s k) (Table.getD t (cellKey s k) 0 + 1)
      | none => t
    else t) f.bins
  (pts.1, { f with bins := bins }, pts.2.1)

/-- The centre of a cell. -/
def Chip.cellCentre (c : Chip) (k : Nat) : Num × Num :=
  let g := fun k => f32val (c.entry 0x4002 k)
  (f32add (g 4) (f32mul (plusHalf (k % c.gridW)) (g 3)), f32add (g 5) (f32mul (plusHalf (k / c.gridW)) (g 3)))

/-- A lidar's evidence about a cell, where it observed it. [DEDUCED: log 84] -/
def Chip.lidarSays (c : Chip) (f : FuseRun) (s k : Nat) : Option Evidence :=
  let n := Table.getD f.bins (cellKey s k) 0
  let m := nth f.cal (c.sens s 5) 0
  let ctr := c.cellCentre k
  let dx := f32sub ctr.1 (calT m 0)
  let dy := f32sub ctr.2 (calT m 1)
  let near := Num.le (f32sqrt (f32add (f32mul dx dx) (f32mul dy dy))) (f32val (c.sens s 0xD))
  if n != 0 || near then
    some ⟨s, c.sens s 3, f32val (c.sens s 0xC), Num.min (f32div (.ofNat n) (.ofNat (c.entry 0x4002 8))) (.ofNat 1), none⟩
  else none

/-- A bird's-eye map's evidence about a cell, from its elements. -/
def Chip.bevSays (c : Chip) (s : Nat) (xs : List Num) : Option Evidence :=
  if (nth xs 1 .zero).isZero then none
  else some ⟨s, c.sens s 3, f32val (c.sens s 0xC), Num.min (Num.max (nth xs 0 .zero) .zero) (.ofNat 1), some (xs.drop 2)⟩

/-- A left-to-right FP32 sum, from the first term on. -/
def f32sum (xs : List Num) : Num := match xs with | [] => .zero | x :: r => r.foldl f32add x

/-- The fused cell: occupancy, features, and its flags byte. [DEDUCED: log 84] -/
def Chip.fuseCell (c : Chip) (nf : Nat) (ev : List Evidence) : Num × List Num × Nat :=
  let hi := f32val (c.entry 0x4002 6)
  let lo := f32val (c.entry 0x4002 7)
  let zeros := List.replicate nf Num.zero
  let above := fun (a b : Evidence) => decide (b.rank < a.rank)
  match bestBy above ev with
  | none => (.zero, zeros, 0)
  | some top =>
    let bevs := ev.filterMap (fun e => e.feats.map (fun x => (e, x)))
    let conflict := ev.any (fun e => Num.le hi e.occ) && ev.any (fun e => Num.le e.occ lo)
    let flags := b2n conflict + 2 + 4 * top.sensor
    if conflict then
      let fs := match bestBy (fun (a b : Evidence × List Num) => above a.1 b.1) bevs with
        | some (_, x) => x
        | none => zeros
      (top.occ, fs, flags)
    else
      let occ := f32div (f32sum (ev.map (fun e => f32mul e.weight e.occ))) (f32sum (ev.map (·.weight)))
      let wo := f32sum (bevs.map (fun e => f32mul e.1.weight e.1.occ))
      let fs := if bevs.isEmpty then zeros
        else (List.range nf).map (fun j =>
          let x := fun (e : Evidence × List Num) => nth e.2 j .zero
          if wo.isZero then f32div (f32sum (bevs.map (fun e => f32mul e.1.weight (x e)))) (f32sum (bevs.map (fun e => e.1.weight)))
          else f32div (f32sum (bevs.map (fun e => f32mul (f32mul e.1.weight e.1.occ) (x e)))) wo)
      (occ, fs, flags)

/-- The sensors of the grid that are not missing, in increasing number. -/
def Chip.gridSensors (c : Chip) (d : Nat) (f : FuseRun) : List Nat :=
  (fusePar d).sensors.filter (fun s => (c.sens s 2 == kLidar || c.sens s 2 == kBev) && f.used.any (fun u => u.1 == s))

/-- The evidence of every sensor about cell `k`. -/
def Chip.evidence (c : Chip) (d : Nat) (f : FuseRun) (k : Nat) : Chip × Nat × List Evidence :=
  (c.gridSensors d f).foldl (fun (a : Chip × Nat × List Evidence) s =>
    if a.2.1 != 0 then a
    else if c.sens s 2 = kLidar then (a.1, St.OK, a.2.2 ++ (c.lidarSays f s k).toList)
    else
      let code := fmtCode (c.sens s 0xA)
      let m := c.gridC d + 2
      let n := m * elemBytes code
      let rd := a.1.devRead (((c.usedBuf f s).map (·.1)).getD 0 + k * n) n
      (rd.1, rd.2.1, a.2.2 ++ (c.bevSays s ((List.range m).map (fun j =>
        decodeElem code 0 (elemAt rd.2.2 (fmtWidth code) j)))).toList)) (c, St.OK, [])

/-- Cell `k` of the grid fused and written: whether it is in conflict. -/
def Chip.putCell (c : Chip) (o : OpRun) (f : FuseRun) (k : Nat) : Chip × OpRun × Nat × Nat :=
  let p := fusePar o.raw
  let nf := c.gridC o.raw
  let ev := c.evidence o.raw f k
  if ev.2.1 != 0 then (ev.1, o, 0, ev.2.1)
  else
    let cell := ev.1.fuseCell nf ev.2.2
    let w := ev.1.putElems o 0xC (p.gridOff + k * (1 + nf) * elemBytes (fmtCode (Desc.fmtOut o.raw))) (k * (1 + nf)) (cell.1 :: cell.2.1)
    if w.2.2 != 0 then (w.1, w.2.1, 0, w.2.2)
    else
      let fl := w.1.devWrite (p.flags + k) [BitVec.ofNat 8 cell.2.2]
      (fl.1.count R.TWD_CONFLICT_CNT_COUNT 0 (cell.2.2 % 2), w.2.1, cell.2.2 % 2, fl.2)

/-- Row `r` of the feature level. -/
def Chip.gridRow (c : Chip) (o : OpRun) (f : FuseRun) (r : Nat) : Chip × OpRun × FuseRun × Nat :=
  (List.range c.gridW).foldl (fun (s : Chip × OpRun × FuseRun × Nat) x =>
    if s.2.2.2 != 0 then s
    else
      let v := s.1.putCell s.2.1 f (r * c.gridW + x)
      (v.1, v.2.1, { s.2.2.1 with cellConflicts := s.2.2.1.cellConflicts + v.2.2.1 }, v.2.2.2)) (c, o, f, St.OK)

end Sys2Proof.Machine
end

