-- ==== Sys2Proof/Machine/Tracks.lean ====
section
/-!
DEFINITION. Tweed's object level, its track table, FUSE as a whole, the hand-over between table and network, and the track
commands (R364, R365, R375, R377 to R388).
-/
namespace Sys2Proof.Machine

/-! ## Detections (R365, R377) -/

/-- FP32 field of a 512-bit record. -/
def recF (r lo : Nat) : Num := f32val (bits r lo 32)
/-- FP32 field replaced. -/
def setF (r lo : Nat) (x : Num) : Nat := setBits r lo 32 (f32bits x)

/-- The heading of a detection, as the yaw of the rotated vector (cos YAW, sin YAW, 0). -/
def rigYaw (m : Nat) (yaw : Num) : Num :=
  let v := [(fnSinCos 54 1 yaw).1, (fnSinCos 53 0 yaw).1, Num.zero]
  let row := fun i => dot3 ((List.range 3).map (calM m i)) v
  (fnAtan2 (row 1) (row 0) 55).1

/-- A detection in the rig frame, with SENSOR filled in and its reserved bits 0. -/
def rigDetection (m s r : Nat) : Nat :=
  let p := toRig m [recF r 64, recF r 96, recF r 128]
  let w := bits r 0 9 + (bits r 32 32 <<< 32) + (bits r 160 96 <<< 160) + (bits s 0 5 <<< 288)
  setF (setF (setF (setF w 64 (nth p 0 .zero)) 96 (nth p 1 .zero)) 128 (nth p 2 .zero)) 256 (rigYaw m (recF r 256))

/-- The VALID detections of a sensor's used list, in the rig frame. -/
def Chip.detections (c : Chip) (f : FuseRun) (s : Nat) : Chip × Nat × List Nat :=
  match c.usedBuf f s with
  | none => (c, St.OK, [])
  | some (a, n) =>
    let n := min n 1024
    let r := c.devRead a (64 * n)
    let m := nth f.cal (c.sens s 5) 0
    (r.1, r.2.1, (List.range n).filterMap (fun i =>
      let d := leNat ((r.2.2.drop (64 * i)).take 64)
      if d.testBit 8 then some (rigDetection m s d) else none))

/-- The DETECTIONS sensors of a FUSE that are not missing, by decreasing RANK. -/
def Chip.detSensors (c : Chip) (d : Nat) (f : FuseRun) : List Nat :=
  ((c.sensorsOf d kDet).filter (fun s => f.used.any (fun u => u.1 == s))).foldr
    (insertBy (fun a b => decide (c.sens b 3 < c.sens a 3))) []
where
  insertBy (lt : Nat → Nat → Bool) (x : Nat) : List Nat → List Nat
    | [] => [x]
    | y :: r => if lt y x then y :: insertBy lt x r else x :: y :: r

/-! ## Track entries (R378) -/

/-- Fields of a track entry. -/
def trkState (t : Nat) : Nat := bits t 0 2
def trkGen (t : Nat) : Nat := bits t 2 4

/-- The address of the track table, and of an entry. -/
def Chip.trackBase (c : Chip) : Nat := c.entry 0x4000 2
def Chip.trackAddr (c : Chip) (i : Nat) : Nat := c.trackBase + 64 * i

/-- The tracker parameters of 0x4001. -/
def Chip.trkPar (c : Chip) (k : Nat) : Num := f32val (c.entry 0x4001 k)

/-- The track table read. -/
def Chip.readTracks (c : Chip) : Chip × Nat × List Track :=
  let r := c.devRead c.trackBase 262144
  (r.1, r.2.1, (List.range 4096).map (fun i =>
    let e := leNat ((r.2.2.drop (64 * i)).take 64)
    ⟨e, e, [], false⟩))

/-- Tracks written to their places in the table, where they changed. -/
def Chip.writeTracks (c : Chip) (ts : List (Track × Nat)) : Chip × Nat :=
  ts.foldl (fun (s : Chip × Nat) p =>
    if s.2 != 0 ∨ p.1.raw = p.1.was then s else s.1.devWrite (s.1.trackAddr p.2) (leBytes 64 p.1.raw)) (c, St.OK)

/-- TWD_LIVE from the table. -/
def Chip.showLive (c : Chip) (t : List Track) : Chip :=
  let live := (t.filter (fun x => trkState x.raw != 0)).length
  let conf := (t.filter (fun x => decide (2 ≤ trkState x.raw))).length
  (c.wr R.TWD_LIVE_TRACKS live).wr R.TWD_LIVE_CONFIRMED conf

/-- The horizontal distance of two records with positions at `a` and `b`. [DEDUCED: log 86] -/
def flatDistance (x a y b : Nat) : Num :=
  let dx := f32sub (recF x a) (recF y b)
  let dy := f32sub (recF x (a + 32)) (recF y (b + 32))
  f32sqrt (f32add (f32mul dx dx) (f32mul dy dy))

/-- A prediction over `dt` seconds (R379). -/
def Track.predict (t : Track) (dt dtMax : Num) : Track :=
  if trkState t.raw = 0 then t
  else
    let r := if Num.lt dtMax dt then setBits t.raw 192 96 0 else t.raw
    { t with raw := (List.range 3).foldl (fun r k =>
        setF r (96 + 32 * k) (f32add (recF r (96 + 32 * k)) (f32mul (recF r (192 + 32 * k)) dt))) r }

/-- A pair within both gates. -/
structure GatedPair where
  dist : Num
  track : Nat
  det : Nat
  deriving DecidableEq, Repr

/-- The order of R379. -/
def GatedPair.before (a b : GatedPair) : Bool :=
  if Num.lt a.dist b.dist then true
  else if Num.lt b.dist a.dist then false
  else if a.track ≠ b.track then decide (a.track < b.track)
  else decide (a.det < b.det)

/-- A pair put into an ordered list. [DEDUCED: log 86] -/
def insertPair (x : GatedPair) : List GatedPair → List GatedPair
  | [] => [x]
  | y :: r => if x.before y then x :: y :: r else y :: insertPair x r

/-- The first FREE entry at or after the birth pointer, with wrap-around. -/
def firstFree (t : List Track) (from_ : Nat) : Option Nat :=
  (((List.range 4096).filter (fun i => from_ % 4096 ≤ i)) ++ (List.range (from_ % 4096))).find?
    (fun i => match t[i]? with | some x => trkState x.raw == 0 | none => false)

/-- The entry that a birth makes of a FREE one: `body` holds position, size, yaw, class, score and sensor in place.
[DEDUCED: log 86] -/
def bornEntry (old i state body : Nat) : Nat :=
  let gen := (trkGen old + 1) % 16
  let keep := setBits (setBits body 0 8 0) 16 24 0
  setBits (setBits (setBits keep 0 2 state) 2 4 gen) 48 16 (gen * 4096 + i)

/-- A detection as the body of a track entry: position and size, class, score, sensor; velocity 0. -/
def bodyOf (d epoch : Nat) : Nat :=
  (bits d 0 8 <<< 8) + (bits d 288 5 <<< 40) + (bits d 32 32 <<< 64) + (bits d 64 96 <<< 96) + (bits d 160 96 <<< 288) +
  (bits d 256 32 <<< 384) + (bits epoch 0 32 <<< 416)

/-! ## Association, update and lifecycle (R379 to R381) -/

/-- What tracking carries along: table, birth pointer, births, births dropped. -/
structure Tracking where
  tracks : List Track
  birth : Nat
  born : Nat
  dropped : Nat
  deriving DecidableEq, Repr

/-- One sensor's association. -/
def Tracking.associate (g : Tracking) (gateXy gateZ birthScore : Num) (epoch : Nat) (dets : List Nat) : Tracking :=
  let pairs := (g.tracks.zipIdx.map (fun t =>
    if trkState t.1.raw = 0 then []
    else dets.zipIdx.filterMap (fun d =>
      let h := flatDistance t.1.raw 96 d.1 64
      let v := (f32sub (recF t.1.raw 160) (recF d.1 128)).abs
      if Num.le h gateXy && Num.le v gateZ then some (⟨h, t.2, d.2⟩ : GatedPair) else none))).foldr (· ++ ·) []
  let accepted := (pairs.foldr insertPair []).foldl (fun (acc : List GatedPair) p =>
    if acc.any (fun a => a.track == p.track || a.det == p.det) then acc else acc ++ [p]) []
  let tracks := accepted.foldl (fun (t : List Track) p =>
    modifyNth t p.track (fun x => { x with got := x.got ++ [nth dets p.det 0] })) g.tracks
  dets.zipIdx.foldl (fun (g : Tracking) d =>
    if accepted.any (fun a => a.det == d.2) || !Num.le birthScore (recF d.1 32) then g
    else
      match firstFree g.tracks g.birth with
      | none => { g with dropped := g.dropped + 1 }
      | some i =>
        { g with birth := (i + 1) % 4096, born := g.born + 1,
                 tracks := modifyNth g.tracks i (fun x => ⟨bornEntry x.raw i 1 (bodyOf d.1 epoch), x.was, [d.1], true⟩) })
    { g with tracks := tracks }

/-- The update of a track from its accepted detections (R380): the entry, and whether it is a contradiction. [DEDUCED: log 86] -/
def Track.update (t : Track) (alpha beta conflictDist dt dtMax : Num) (epoch : Nat) : Track × Bool :=
  match t.got with
  | [] => (t, false)
  | p :: others =>
    let conflict := others.any (fun d => bits d 0 8 != bits p 0 8 || Num.lt conflictDist (flatDistance d 64 p 64))
    let gain := Num.lt .zero dt && Num.le dt dtMax
    let moved := if t.born then t.raw else (List.range 3).foldl (fun r k =>
      let x := recF r (96 + 32 * k)
      let e := f32sub (recF p (64 + 32 * k)) x
      let r := setF r (96 + 32 * k) (f32add x (f32mul alpha e))
      if gain then setF r (192 + 32 * k) (f32add (recF r (192 + 32 * k)) (f32mul (f32div beta dt) e)) else r) t.raw
    let r := setBits (setBits (setBits moved 6 1 (b2n conflict)) 8 8 (bits p 0 8)) 40 5 (bits p 288 5)
    let r := setBits (setBits (setBits r 64 32 (bits p 32 32)) 288 96 (bits p 160 96)) 384 32 (bits p 256 32)
    ({ t with raw := setBits r 416 32 epoch }, conflict)

/-- Set bits among the low `n` of a value. -/
def popLow (x n : Nat) : Nat := ((List.range n).filter (fun i => x.testBit i)).length

/-- The lifecycle step (R381). -/
def Track.live (t : Track) (m n missMax : Nat) : Track :=
  let s := trkState t.raw
  if s = 0 then t
  else
    let hit := t.born || !t.got.isEmpty
    let age := min (bits t.raw 32 8 + 1) 255
    let hits := bits (bits t.raw 16 8 * 2 + b2n hit) 0 8
    let misses := bits t.raw 24 8
    let r := setBits (setBits t.raw 32 8 age) 16 8 hits
    let q := if s = 1 then
        (if hit then (if m ≤ popLow hits n then 2 else 1, misses) else (if n ≤ age then 0 else 1, misses))
      else if hit then (2, 0)
      else if s = 2 then (3, 1)
      else (if missMax ≤ misses + 1 then 0 else 3, min (misses + 1) 255)
    { t with raw := setBits (setBits r 0 2 q.1) 24 8 q.2 }

/-- Records written one after the other. -/
def Chip.putRecords (c : Chip) (a : Nat) (rs : List Nat) : Chip × Nat :=
  c.devWrite a ((rs.map (leBytes 64)).foldr (· ++ ·) [])

/-- T_LAST. -/
def Chip.tLast (c : Chip) : Nat := c.rd R.TWD_T_LAST_LO_TIME_LO + (c.rd R.TWD_T_LAST_HI_TIME_HI <<< 32)
def Chip.setTLast (c : Chip) (t : Nat) : Chip :=
  (c.wr R.TWD_T_LAST_LO_TIME_LO (bits t 0 32)).wr R.TWD_T_LAST_HI_TIME_HI (bits t 32 32)

/-- The table becomes torn. -/
def Chip.tornTable (c : Chip) : Chip := c.wr R.TWD_STATUS_TABLE_TORN 1

/-- The time from the epoch last tracked to a FUSE's, in seconds. -/
def Chip.trackDt (c : Chip) (f : FuseRun) : Num := f32div (.ofInt ((f.epochTime : Int) - (c.tLast : Int))) (.ofNat 1000000000)

/-- The tracks of a FUSE: as it has them, or the table, predicted (R379). -/
def Chip.tracksOf (c : Chip) (f : FuseRun) : Chip × FuseRun × Nat :=
  if !f.tracks.isEmpty then (c, f, St.OK)
  else
    let t := c.readTracks
    (t.1, { f with tracks := t.2.2.map (fun x => x.predict (c.trackDt f) (c.trkPar 0xA)) }, t.2.1)

/-- A sensor's detections: listed, in network mode, after those before them; or associated with the tracks. -/
def Chip.sensorStep (c : Chip) (d : Nat) (f : FuseRun) (s : Nat) : Chip × FuseRun × Nat :=
  let ds := c.detections f s
  if ds.2.1 != 0 then (ds.1, f, ds.2.1)
  else if c.on R.TWD_STATUS_MODE then
    let w := ds.1.putRecords ((fusePar d).obj + 64 * f.objects) ds.2.2
    (w.1, { f with objects := f.objects + ds.2.2.length }, w.2)
  else
    let t := ds.1.tracksOf f
    if t.2.2 != 0 then t
    else
      let c := t.1
      let g := Tracking.associate ⟨t.2.1.tracks, c.twd.birth, 0, 0⟩ (c.trkPar 3) (c.trkPar 4) (c.trkPar 5) f.epoch ds.2.2
      let c := ({ c with twd := { c.twd with birth := g.birth } } : Chip).count R.TWD_BIRTH_DROP_CNT_COUNT 0 g.dropped
      (if g.dropped = 0 then c else c.latch R.TWD_STATUS_BIRTH_DROP,
       { t.2.1 with tracks := g.tracks, born := f.born + g.born, birthDropped := f.birthDropped + g.dropped }, St.OK)

/-- The live tracks of a list from entry `i` on. -/
def liveFrom (ts : List Track) (i : Nat) : List Nat :=
  (ts.zipIdx.filter (fun p => decide (i ≤ p.2) && trkState p.1.raw != 0)).map (·.2)

/-- Up to 64 lifecycle steps from entry `i` on (R380, R381); after the last of them the entries of OBJ_OFF are written. -/
def Chip.liveStep (c : Chip) (d : Nat) (f : FuseRun) (i : Nat) : Chip × FuseRun × Nat :=
  let t := c.tracksOf f
  if t.2.2 != 0 then t
  else
    let c := t.1
    let f := t.2.1
    let idx := (liveFrom f.tracks i).take 64
    let up := idx.map (fun k => (((nth f.tracks k ⟨0, 0, [], false⟩).update (c.trkPar 1) (c.trkPar 2) (c.trkPar 9) (c.trackDt f)
      (c.trkPar 0xA) f.epoch), k))
    let done := up.map (fun u => (u.1.1.live (c.entry 0x4001 6) (c.entry 0x4001 7) (c.entry 0x4001 8), u.2))
    let conflicts := (up.filter (fun u => u.1.2)).length
    let ts := done.foldl (fun (l : List Track) p => modifyNth l p.2 (fun _ => p.1)) f.tracks
    let f := { f with tracks := ts, objConflicts := f.objConflicts + conflicts,
                      deleted := f.deleted + (done.filter (fun p => trkState p.1.raw == 0)).length }
    let w := (c.count R.TWD_CONFLICT_CNT_COUNT 0 conflicts).writeTracks done
    let next := (idx.getLast?.getD i) + 1
    if w.2 != 0 then (w.1, f, w.2)
    else if !(liveFrom ts next).isEmpty then (w.1, { f with todo := .live next :: f.todo }, St.OK)
    else
      let shown := (ts.filter (fun x => decide (2 ≤ trkState x.raw))).map (·.raw)
      let o := (w.1.showLive ts).putRecords (fusePar d).obj shown
      (o.1, { f with objects := shown.length }, o.2)

/-! ## FUSE -/

/-- The result record (R388). -/
def Chip.fuseResult (c : Chip) (d : Nat) (f : FuseRun) : Nat :=
  let p := fusePar d
  let used := f.used.foldl (fun a u => a ||| 2 ^ u.1) 0
  let missing := (p.sensors.filter (fun s => !f.used.any (fun u => u.1 == s))).foldl (fun a s => a ||| 2 ^ s) 0
  let sat := fun n => min n 65535
  bits f.epochTime 0 64 + (bits f.epoch 0 32 <<< 64) + (p.group <<< 96) + (c.rd R.TWD_STATUS_MODE <<< 98) +
  (used <<< 128) + (missing <<< 160) + (bits f.dropped 0 16 <<< 192) + (bits f.skipped 0 16 <<< 208) +
  (sat f.cellConflicts <<< 224) + (sat f.objConflicts <<< 240) + (bits f.objects 0 16 <<< 256) + (bits f.born 0 16 <<< 272) +
  (bits f.deleted 0 16 <<< 288) + (bits f.birthDropped 0 16 <<< 304) + (bits f.points 0 32 <<< 320) +
  (bits f.attached 0 32 <<< 352) + (bits p.cutoff 0 32 <<< 384)

/-- The FUSE in progress of a descriptor. -/
def Chip.fuseRun? (c : Chip) (o : OpRun) : Option FuseRun :=
  c.twd.runs.find? (fun f => f.weave == o.weave && f.index == o.index)

/-- A FUSE in progress recorded, or forgotten. Those whose operation no longer exists are dropped. -/
def Chip.setRun (c : Chip) (o : OpRun) (f : Option FuseRun) : Chip :=
  let alive := fun (r : FuseRun) => (r.weave != o.weave || r.index != o.index) &&
    c.dsp.suspended.any (fun x => x.unit == 21 && x.weave == r.weave && x.index == r.index)
  { c with twd := { c.twd with runs := c.twd.runs.filter alive ++ f.toList } }

/-- The pieces of a FUSE after its gather, level by level (R387). [DEDUCED: log 82] -/
def Chip.fuseTodo (c : Chip) (d : Nat) (f : FuseRun) : List FuseStep :=
  let p := fusePar d
  let chunks := fun (s : Nat) => List.range (ceilDiv (c.scanPoints f s) pointChunk)
  (if p.point then (chunks p.pointSensor).map .depth ++ (chunks p.pointSensor).map .attach else []) ++
  (if p.grid then (((c.gridSensors d f).filter (fun s => c.sens s 2 == kLidar)).map (fun s => (chunks s).map (.bin s))).foldr (· ++ ·) [] ++
    (List.range c.gridH).map .row else []) ++
  (if p.track then (c.detSensors d f).map .associate ++ (if c.on R.TWD_STATUS_MODE then [] else [.live 0]) else [])

/-- One piece of a FUSE, under the entries it started with. -/
def Chip.fusePiece (c : Chip) (o : OpRun) (f : FuseRun) : FuseStep → Chip × OpRun × FuseRun × Nat
  | .depth j => let r := c.depthPass o.raw f j; (r.1, o, r.2)
  | .attach j => c.attachPass o f j
  | .bin s j => let r := c.binPass f s j; (r.1, o, r.2)
  | .row r => c.gridRow o f r
  | .associate s => let r := c.sensorStep o.raw f s; (r.1, o, r.2)
  | .live i => let r := c.liveStep o.raw f i; (r.1, o, r.2)

/-- Whether a piece belongs to the object level. -/
def FuseStep.ofTracks : FuseStep → Bool
  | .associate _ | .live _ => true
  | _ => false

/-- Pieces carried out until none is left, `n` are done, or one fails. [DEDUCED: log 82] -/
def Chip.fusePieces (c : Chip) (o : OpRun) (f : FuseRun) : Nat → Chip × OpRun × FuseRun × Nat
  | 0 => (c, o, f, St.OK)
  | n + 1 =>
    match f.todo with
    | [] => (c, o, f, St.OK)
    | s :: rest =>
      let r := c.fusePiece o { f with todo := rest } s
      if r.2.2.2 != 0 then
        (if s.ofTracks && !c.on R.TWD_STATUS_MODE then r.1.tornTable else r.1, r.2.1, r.2.2.1, r.2.2.2)
      else Chip.fusePieces r.1 r.2.1 r.2.2.1 n

/-- A FUSE that has not yet begun its pieces. -/
def Chip.fuseFresh (c : Chip) (o : OpRun) (epoch time skipped : Nat) : FuseRun :=
  ⟨o.weave, o.index, c.twdCfg, c.twd.cal, epoch, time, c.now, [], 0, skipped, 0, 0, 0, 0, 0, 0, 0, 0, 0, [], [], [], []⟩

/-- What a FUSE would use, and the entries that its object level would write, from the inputs as they stand (R657): found without
effect, as the checks come before any effect. [DEDUCED: log 83] -/
def Chip.fuseTrial (c : Chip) (o : OpRun) : FuseRun :=
  match c.fuseEpoch o.raw with
  | none => c.fuseFresh o 0 0 0
  | some (k, t) =>
    let g := c.gather o.raw (c.fuseFresh o k t 0)
    let f := { g.2.1 with points := g.1.scanPoints g.2.1 (fusePar o.raw).pointSensor }
    if !(fusePar o.raw).track then f
    else
      let r := g.1.fusePieces o { f with todo := (g.1.fuseTodo o.raw f).filter FuseStep.ofTracks } 128
      { f with objRoom := r.2.2.1.objects }

/-- The bytes that a FUSE writes. [DEDUCED: log 83] -/
def Chip.fuseOutputs (c : Chip) (d : Nat) (f : FuseRun) : List (Nat × Nat) :=
  let p := fusePar d
  let e := elemBytes (fmtCode (Desc.fmtOut d))
  let cells := c.gridW * c.gridH
  [(p.out, 64)] ++ (if p.point then [(p.attach, 8 * f.points), (p.pfeat, f.points * c.camF d * e)] else []) ++
  (if p.grid then [(p.gridOff, cells * (1 + c.gridC d) * e), (p.flags, cells)] else []) ++
  (if p.track then [(p.obj, 64 * f.objRoom)] else [])

/-- The bytes that a buffer of a sensor holds, and the buffers and records of a sensor. -/
def Chip.bufferBytes (c : Chip) (s : Nat) : Nat :=
  let n := c.sens s 8
  let e := c.sens s 0xB * elemBytes (fmtCode (c.sens s 0xA))
  let r := nth c.twd.cal (c.sens s 5) 0
  match c.sens s 2 with
  | 0 => n / 16 * 16
  | 1 => bits r 64 16 * bits r 80 16 * e
  | 2 => c.gridW * c.gridH * e
  | _ => 64 * min 1024 (n / 64)
def Chip.sensorRanges (c : Chip) (s : Nat) : List Strided :=
  [⟨placeOf (c.sens s 6), c.sens s 8, c.sens s 7, c.bufferBytes s⟩, ⟨placeOf (c.sens s 9), 64, c.sens s 7, 64⟩]

/-- Whether every buffer and record of a sensor lies in Muslin. -/
def Chip.sensorInMuslin (c : Chip) (s : Nat) : Bool :=
  (List.range (c.sens s 7)).all (fun i => c.validRange [0, 1, 2] (c.sens s 6 + i * c.sens s 8) (c.bufferBytes s) &&
    c.validRange [0, 1, 2] (c.sens s 9 + 64 * i) 64)

/-- The bytes that a FUSE reads: buffers and records, the track table in table mode, a calibration table of `cal` bytes.
[DEDUCED: log 83] -/
def Chip.fuseInputs (c : Chip) (d cal : Nat) : List Strided :=
  ((fusePar d).sensors.map c.sensorRanges).foldr (· ++ ·) [] ++ [⟨placeOf (c.entry 0x4000 1), 0, 1, cal⟩] ++
  (if (fusePar d).track && !c.on R.TWD_STATUS_MODE then [⟨placeOf c.trackBase, 0, 1, 262144⟩] else [])

/-- The parameters of R373; records lie on their own size (R5). [DEDUCED: log 83] -/
def Chip.fuseParamsOk (c : Chip) (o : OpRun) (cal : Nat) : Bool :=
  let d := o.raw
  let p := fusePar d
  let cams := c.sensorsOf d kCam
  let bevs := c.sensorsOf d kBev
  let cells := (cams.map (fun s =>
    let r := nth c.twd.cal (c.sens s 5) 0
    bits r 64 16 * bits r 80 16)).foldl (· + ·) 0
  let plain :=
    c.on R.TWD_CTRL_ENABLE && Desc.tileCount d == 1 && (p.point || p.grid || p.track) && p.cutoff != 0 &&
    p.sensors.all (fun s => c.sens s 1 != 0 && c.sens s 4 == p.group && c.sens s 9 % 64 == 0 && c.sensorInMuslin s) &&
    (!p.point || (p.sensors.contains p.pointSensor && c.sens p.pointSensor 2 == kLidar)) &&
    cams.all (fun s => c.sens s 0xB == c.camF d) && decide (cams.length ≤ 8) && decide (cells ≤ 131072) &&
    bevs.all (fun s => c.sens s 0xB == c.gridC d + 2) &&
    (!p.track || (c.trackBase % 65536 == 0 && (c.on R.TWD_STATUS_MODE || c.validRange [0, 1, 2] c.trackBase 262144)))
  plain &&
    (let outs := c.fuseOutputs d (c.fuseTrial o)
     let rows := outs.map (fun r => (⟨placeOf r.1, 0, 1, r.2⟩ : Strided))
     outs.all (fun r => r.2 == 0 || c.validRange [0, 1, 2] r.1 r.2) && apart rows &&
     rows.all (fun a => (c.fuseInputs d cal).all (fun b => !a.overlaps b)))

/-- The checks of a FUSE, in the order of R373; RND 3 is refused (R49). [DEDUCED: log 82] -/
def Chip.fuseCheck (c : Chip) (o : OpRun) (cal : Nat) : Nat :=
  let d := o.raw
  let p := fusePar d
  if !([0xA, 0xB, 0xC].contains (fmtCode (Desc.fmtOut d)) && !fmtMx (Desc.fmtOut d) && Desc.fmtA d == 0 && Desc.fmtB d == 0 &&
      Desc.fmtC d == 0 && Desc.rnd d != 3) then St.FMT_UNSUPPORTED
  else if !c.fuseParamsOk o cal then St.TWD_BAD_PARAM
  else if !c.calOk d then St.TWD_BAD_CAL
  else if p.track && !c.on R.TWD_STATUS_MODE && c.on R.TWD_STATUS_TABLE_TORN then St.TWD_TABLE_TORN
  else
    match c.fuseEpoch d with
    | none => St.TWD_EPOCH_DONE
    | some (k, t) =>
      if (c.epochNew p.group k).isNone then St.TWD_EPOCH_DONE
      else if c.sentinel && (match c.twd.lastTime with | some l => decide (t < l + 100000000) | none => false) then
        St.TWD_RATE_LIMIT
      else St.OK

/-- A FUSE ends with a FAULT: its outputs are not valid, its used records keep READY. -/
def Chip.fuseFails (c : Chip) (o : OpRun) (f : FuseRun) (st : Nat) : Chip × OpRun :=
  ((c.invalidate ((c.under f.cfg).fuseOutputs o.raw f)).setRun o none, o.ends st)

/-- The start of a FUSE: calibration, checks, epoch selection and gather: the FUSE, or none where it ends. [DEDUCED: log 82] -/
def Chip.fuseStart (c : Chip) (o : OpRun) : Chip × OpRun × Option FuseRun :=
  let l := c.loadCal
  if l.2 != 0 then (l.1, o.ends l.2, none)
  else
    let cal := c.calBytes l.1
    let c := l.1
    let st := c.fuseCheck o cal
    match c.fuseEpoch o.raw with
    | none => (c, o.ends (if st = 0 then St.TWD_EPOCH_DONE else st), none)
    | some (k, t) =>
      if st != 0 then (c, o.ends st, none)
      else
        let g := (fusePar o.raw).group
        let room := (c.fuseTrial o).objRoom
        let skipped := (c.epochNew g k).getD 0
        let c := (c.count R.TWD_SKIP_CNT_COUNT 0 skipped).wr R.TWD_LAST_EPOCH_EPOCH k
        let c := { c with twd := { c.twd with fused := Table.put c.twd.fused g (k, t), lastTime := some t } }
        let r := c.gather o.raw (c.fuseFresh o k t skipped)
        let f := { r.2.1 with points := r.1.scanPoints r.2.1 (fusePar o.raw).pointSensor, objRoom := room }
        let f := { f with points := if (fusePar o.raw).point then f.points else 0 }
        if r.2.2 != 0 then (let x := r.1.fuseFails o f r.2.2; (x.1, x.2, none))
        else (r.1, o, some { f with todo := r.1.fuseTodo o.raw f })

/-- The end of a FUSE: T_LAST, the result record, and READY of its used records cleared. -/
def Chip.fuseEnd (c : Chip) (o : OpRun) (f : FuseRun) : Chip × OpRun :=
  let c := if (fusePar o.raw).track then c.setTLast f.epochTime else c
  let w := c.devWrite (fusePar o.raw).out (leBytes 64 (c.fuseResult o.raw f))
  if w.2 != 0 then w.1.fuseFails o f w.2
  else
    let k := f.used.foldl (fun (s : Chip × Nat) u =>
      if s.2 != 0 then s
      else
        let r := (s.1.under f.cfg).clearReady u.1 u.2.1
        if r.2 != 0 then ({ r.1 with dict := s.1.dict }, r.2)
        else ({ r.1 with dict := s.1.dict, twd := { r.1.twd with owed := r.1.twd.owed.filter (· != (u.1, u.2.1)) } }, r.2)) (w.1, St.OK)
    if k.2 != 0 then k.1.fuseFails o f k.2
    else
      let missing := (fusePar o.raw).sensors.any (fun s => !f.used.any (fun u => u.1 == s))
      let o := if missing then o.meets St.TWD_SENSOR_MISSING else o
      let counts := min f.dropped 65535 + (min (f.cellConflicts + f.objConflicts) 65535 <<< 16)
      (k.1.setRun o none, { o with lastTile := true, info1 := counts })

/-- Pieces of a FUSE, and its end with the last of them. [DEDUCED: log 82] -/
def Chip.fuseRuns (c : Chip) (o : OpRun) (f : FuseRun) (units : Nat) : Chip × OpRun :=
  let r := (c.under f.cfg).fusePieces o f units
  let c := { r.1 with dict := c.dict }
  if r.2.2.2 != 0 then c.fuseFails r.2.1 r.2.2.1 r.2.2.2
  else if r.2.2.1.todo.isEmpty then c.fuseEnd r.2.1 r.2.2.1
  else (c.setRun o (some r.2.2.1), r.2.1)

/-- FUSE (R360 to R388): a tile that carries out `units` pieces; `stalls` are the cycles it stalled on the port. -/
def execFuse (units stalls : Nat) (s : State) : Host.Outcome State Fault Refusal :=
  s.run Parts.tile
    (fun c => c.runTile 21 4 1 (fun _ _ => St.OK) (fun c o =>
    let o := { o with info0 := min (o.info0 + stalls) 0xFFFFFFFF }
    match c.fuseRun? o with
    | some f => c.fuseRuns o f (max 1 units)
    | none =>
      let b := c.fuseStart o
      match b.2.2 with
      | some f => b.1.fuseRuns b.2.1 f (max 1 units)
      | none => (b.1, b.2.1)))

/-! ## Hand-over (R383 to R385) -/

/-- Fields of TRACK_IMPORT and TRACK_EXPORT. -/
def trackRec (d : Nat) : Nat := 64 * bits d 256 22
/-- [DEDUCED: log 87] -/
def importMap (d : Nat) : Nat := 64 * bits d 278 22
def importCount (d : Nat) : Nat := bits d 300 13
def importTime (d : Nat) : Nat := bits d 320 64

/-- The checks both operations share: Tweed enabled, one tile named, the table in its place. -/
def Chip.handoverOk (c : Chip) (d : Nat) : Bool :=
  c.on R.TWD_CTRL_ENABLE && Desc.tileCount d == 1 && c.trackBase % 65536 == 0 &&
  c.validRange [0, 1, 2] c.trackBase 262144

/-- The checks of TRACK_IMPORT. -/
def Chip.importCheck (c : Chip) (d : Nat) : Nat :=
  let n := importCount d
  if !(c.handoverOk d && decide (n ≤ 4096) && (n == 0 || (c.validRange [0, 1, 2] (trackRec d) (64 * n) &&
      c.validRange [0, 1, 2] (importMap d) (2 * n)))) then St.TWD_BAD_PARAM
  else if c.tLast != 0 && importTime d != c.tLast then St.TWD_HANDOVER_STALE
  else St.OK

/-- Whether the FP32 values of a track record are finite. -/
def finiteTrack (r : Nat) : Bool := ([64] ++ (List.range 10).map (fun k => 96 + 32 * k)).all (fun b => (recF r b).isFinite)

/-- The table that an import makes, the assigned identifiers (none where a record is passed over), and the birth pointer.
[DEDUCED: log 87] -/
def importTracks (confirmN : Nat) (t : List Track) (recs : List Nat) : List Track × List (Option Nat) × Nat :=
  let free := t.map (fun x => { x with raw := setBits x.raw 0 2 0 })
  recs.foldl (fun (a : List Track × List (Option Nat) × Nat) r =>
    let s := trkState r
    let slot := if s != 0 && finiteTrack r then firstFree a.1 a.2.2 else none
    match slot with
    | none => (a.1, a.2.1 ++ [none], a.2.2)
    | some i =>
      let hits := if s = 1 then 1 else 2 ^ confirmN - 1
      let body := setBits (setBits (bits r 0 448) 45 3 0) 48 16 0
      let e := fun (x : Track) => ({ x with raw := setBits (bornEntry x.raw i s body) 16 8 hits } : Track)
      (modifyNth a.1 i e, a.2.1 ++ [some (((trkGen (nth a.1 i ⟨0, 0, [], false⟩).raw + 1) % 16) * 4096 + i)], (i + 1) % 4096))
    (free, [], 0)

/-- TRACK_IMPORT's work (R384). [DEDUCED: log 87] -/
def Chip.runImport (c : Chip) (o : OpRun) : Chip × OpRun :=
  let n := importCount o.raw
  let rd := c.devRead (trackRec o.raw) (64 * n)
  if rd.2.1 != 0 then (rd.1.tornTable, o.ends rd.2.1)
  else
    let t := rd.1.readTracks
    if t.2.1 != 0 then (t.1.tornTable, o.ends t.2.1)
    else
      let recs := (List.range n).map (fun i => leNat ((rd.2.2.drop (64 * i)).take 64))
      let m := importTracks (t.1.entry 0x4001 7) t.2.2 recs
      let w := t.1.writeTracks m.1.zipIdx
      if w.2 != 0 then (w.1.tornTable, o.ends w.2)
      else
        let v := w.1.devWrite (importMap o.raw) ((m.2.1.map (fun i => leBytes 2 (i.getD 0xFFFF))).foldr (· ++ ·) [])
        if v.2 != 0 then (v.1.tornTable, o.ends v.2)
        else
          let c := { v.1 with twd := { v.1.twd with birth := m.2.2 } }
          let c := ((c.wr R.TWD_STATUS_MODE 0).wr R.TWD_STATUS_TABLE_TORN 0).showLive m.1
          (c, { o with lastTile := true, info1 := (m.2.1.filter Option.isSome).length })

/-- TRACK_IMPORT: a track list is loaded and table tracking starts. -/
def execTrackImport (s : State) : Host.Outcome State Fault Refusal :=
  s.run Parts.tile (fun c => c.runTile 21 4 2 (fun c o => c.importCheck o.raw) (fun c o =>
    let l := c.loadCal
    if l.2 != 0 then (l.1, o.ends l.2) else l.1.runImport o))

/-- The checks of TRACK_EXPORT (R385). -/
def Chip.exportCheck (c : Chip) (d : Nat) : Nat :=
  if !c.handoverOk d then St.TWD_BAD_PARAM
  else if c.on R.TWD_STATUS_MODE then St.TWD_WRONG_MODE
  else if c.on R.TWD_STATUS_TABLE_TORN then St.TWD_TABLE_TORN
  else if !c.validRange [0, 1, 2] (trackRec d) (64 * c.rd R.TWD_LIVE_TRACKS) then St.TWD_BAD_PARAM
  else St.OK

/-- TRACK_EXPORT: the table is written out, and tracking passes to a network. -/
def execTrackExport (s : State) : Host.Outcome State Fault Refusal :=
  s.run Parts.tile (fun c => c.runTile 21 4 3 (fun c o => c.exportCheck o.raw) (fun c o =>
    let l := c.loadCal
    if l.2 != 0 then (l.1, o.ends l.2)
    else
      let t := l.1.readTracks
      if t.2.1 != 0 then (t.1, o.ends t.2.1)
      else
        let live := (t.2.2.filter (fun x => trkState x.raw != 0)).map (·.raw)
        let w := t.1.putRecords (trackRec o.raw) live
        if w.2 != 0 then (w.1.invalidate [(trackRec o.raw, 64 * live.length)], o.ends w.2)
        else (w.1.wr R.TWD_STATUS_MODE 1, { o with lastTile := true, info1 := live.length })))

/-! ## Track commands (R382, R389) -/

/-- A Tweed operation runs or is suspended. -/
def Chip.tweedBusy (c : Chip) : Bool := (c.op? 21).isSome || c.dsp.suspended.any (fun o => o.unit == 21)

/-- The effect of a track command: OP 1 DELETE, 2 CONFIRM. [DEDUCED: log 88] -/
def Chip.trackCmd (c : Chip) (id op : Nat) : Chip :=
  let c := { c.wr R.TWD_TRACK_CMD_BUSY 0 with twd := { c.twd with cmd := none } }
  let result := fun (c : Chip) (v : Nat) => c.wr R.TWD_TRACK_CMD_RESULT v
  if c.on R.TWD_STATUS_MODE || c.on R.TWD_STATUS_TABLE_TORN then result c 5
  else
    let i := id % 4096
    let r := c.devRead (c.trackAddr i) 64
    let t := leNat r.2.2
    if r.2.1 != 0 then result r.1.tornTable 5
    else if trkState t = 0 ∨ trkGen t ≠ id / 4096 then result (r.1.count R.TWD_STALE_CNT_COUNT) 2
    else if op = 2 ∧ trkState t ≠ 1 then result r.1 3
    else
      let w := r.1.devWrite (c.trackAddr i) (leBytes 64 (setBits t 0 2 (if op = 1 then 0 else 2)))
      if w.2 != 0 then result w.1.tornTable 5
      else
        let c := w.1
        let c := if op = 1 then c.wr R.TWD_LIVE_TRACKS (c.rd R.TWD_LIVE_TRACKS - 1) else c
        let c := if op = 2 then c.count R.TWD_LIVE_CONFIRMED
          else if 2 ≤ trkState t then c.wr R.TWD_LIVE_CONFIRMED (c.rd R.TWD_LIVE_CONFIRMED - 1) else c
        result c 1

/-- A write of TWD_TRACK_CMD. [DEDUCED: log 88] -/
def Chip.trackRequest (c : Chip) (id op : Nat) : Chip :=
  if c.on R.TWD_TRACK_CMD_BUSY then c.wr R.TWD_TRACK_CMD_RESULT 4
  else if c.tweedBusy then
    { c.wr R.TWD_TRACK_CMD_BUSY 1 with twd := { c.twd with cmd := some (id, op) } }
  else c.trackCmd id op

/-- TRACK_DELETE: a track's entry becomes FREE. -/
def execTrackDelete (track : BitVec 16) (s : State) : Host.Outcome State Fault Refusal :=
  s.runHost [.regs, .muslin, .msl, .drc, .twd, .sent] (fun c => c.trackRequest track.toNat 1)

/-- TRACK_CONFIRM: a TENTATIVE track becomes CONFIRMED. -/
def execTrackConfirm (track : BitVec 16) (s : State) : Host.Outcome State Fault Refusal :=
  s.runHost [.regs, .muslin, .msl, .drc, .twd, .sent] (fun c => c.trackRequest track.toNat 2)

/-- TRACK_CMD_DEFERRED_APPLY: a command that waited takes effect once no Tweed operation runs or is suspended. -/
def execTrackCmdDeferredApply (s : State) : Host.Outcome State Fault Refusal :=
  s.run [.regs, .muslin, .msl, .drc, .twd, .sent] (fun c =>
    match c.twd.cmd with
    | some (id, op) => if c.tweedBusy then c else c.trackCmd id op
    | none => c)

/-! ## Commits (R364, R366, R369, R375, R378) -/

/-- What a commit of Tweed entries does at its instant: `changed` are the keys that a session wrote. -/
def Chip.twdCommitted (old c : Chip) (written : List Nat) : Chip :=
  let c := if written.contains (entryKey 0x4000 1) then
      { c.wr R.TWD_STATUS_CAL_BAD 0 with twd := { c.twd with reload := true } } else c
  let changed := fun (s : Nat) => (List.range 14).any (fun k => old.sens s k != c.sens s k)
  { c with twd := { c.twd with ringNext := c.twd.ringNext.zipIdx.map (fun p => if changed p.2 then 0 else p.1),
                               owed := c.twd.owed.filter (fun u => !changed u.1) } }

/-- Whether the Tweed entries are consistent. -/
def Chip.twdConsistent (c : Chip) : Bool :=
  let fin := fun (v : Nat) => (f32val v).isFinite
  let le := fun (a b : Num) => Num.le a b
  let one := Num.ofNat 1
  let on := (List.range 32).filter (fun s => c.sens s 1 != 0)
  on.all (fun s =>
    c.sens s 3 != 0 && on.all (fun r => r == s || c.sens r 3 != c.sens s 3) &&
    decide (2 ≤ c.sens s 7) && decide (c.sens s 7 ≤ 16) &&
    (c.sens s 2 != kCam || (decide (1 ≤ c.sens s 0xB) && decide (c.sens s 0xB ≤ 64))) &&
    (c.sens s 2 != kBev || (decide (3 ≤ c.sens s 0xB) && decide (c.sens s 0xB ≤ 66))) &&
    (!(c.sens s 2 == kCam || c.sens s 2 == kBev) ||
      ([0xA, 0xB, 0xC, 0x8].contains (fmtCode (c.sens s 0xA)) && !fmtMx (c.sens s 0xA))) &&
    [0xC, 0xD].all (fun k => fin (c.sens s k) && le .zero (f32val (c.sens s k)))) &&
  (let g := c.entry 0x4002
   let v := fun k => f32val (g k)
   decide (1 ≤ g 1) && decide (g 1 ≤ 512) && decide (1 ≤ g 2) && decide (g 2 ≤ 512) &&
   fin (g 3) && Num.lt .zero (v 3) && le .zero (v 7) && Num.lt (v 7) (v 6) && le (v 6) one && decide (1 ≤ g 8) &&
   Num.lt (v 9) (v 0xA)) &&
  (let g := c.entry 0x4001
   let v := fun k => f32val (g k)
   [1, 2, 3, 4, 5, 9, 0xA].all (fun k => fin (g k)) && Num.lt .zero (v 1) && le (v 1) one && le .zero (v 2) &&
   Num.lt (v 2) (.ofNat 2) && decide (1 ≤ g 6) && decide (g 6 ≤ g 7) && decide (1 ≤ g 7) && decide (g 7 ≤ 8) &&
   decide (1 ≤ g 8))

end Sys2Proof.Machine
end

