-- ==== Sys2Proof/Machine/Tulle.lean ====
section
/-!
DEFINITION. Tulle's world, primitive table and collision tests, WORLD_EDIT and ENABLE (R390 to R402, R416).
-/
namespace Sys2Proof.Machine

/-! ## The world (R390, R393, R394) -/

/-- The shape of the grid. -/
structure World where
  gw : Nat
  gh : Nat
  layers : Nat
  cxy : Num
  cz : Num
  ox : Num
  oy : Num
  oz : Num
  lethal : Nat
  unknownBlocks : Bool
  waveLayers : Nat
  deriving DecidableEq, Repr

/-- The entries of 0x4401. -/
def Chip.world (c : Chip) : World :=
  let e := c.entry 0x4401
  let f := fun k => f32val (e k)
  ⟨e 1, e 2, e 3, f 4, f 5, f 6, f 7, f 8, e 9, e 0xA != 0, e 0xB⟩

/-- The bases of 0x4400, as Muslin offsets: boxes 1, spheres 2, triangles 3, index 4, grids 5 and 6, primitives 7. -/
def Chip.tulBase (c : Chip) (k : Nat) : Nat := devOffset (c.entry 0x4400 k)

/-- Bytes of one grid buffer. -/
def World.size (w : World) : Nat := w.gw * w.gh * w.layers

/-- The Muslin offset of a cell of a buffer. -/
def Chip.cellAt (c : Chip) (w : World) (buf x y l : Nat) : Nat := c.tulBase (5 + buf) + (l * w.gh + y) * w.gw + x

/-- The effective value of a cell of the active buffer. -/
def Chip.cellValue (c : Chip) (w : World) (x y l : Nat) : Nat :=
  let v := (c.muslin.get (c.cellAt w c.tul.active x y l)).toNat
  if v = 255 ∧ !w.unknownBlocks then 0 else v

/-- Whether a cell blocks. -/
def Chip.cellBlocks (c : Chip) (w : World) (x y l : Nat) : Bool := decide (w.lethal ≤ c.cellValue w x y l)

/-- The column cost. -/
def Chip.columnCost (c : Chip) (w : World) (x y : Nat) : Nat :=
  (List.range w.waveLayers).foldl (fun a l => max a (c.cellValue w x y l)) 0

/-- The cell of a map point along one axis. -/
def axisCell (p origin cell : Num) : Int := (f32div (f32sub p origin) cell).floorInt

/-- The cell of a map point, inside the grid or not. -/
def World.cellOf (w : World) (x y : Num) : Int × Int := (axisCell x w.ox w.cxy, axisCell y w.oy w.cxy)

/-- Whether a cell lies in the grid. -/
def World.inGrid (w : World) (p : Int × Int) : Bool :=
  decide (0 ≤ p.1) && decide (p.1 < w.gw) && decide (0 ≤ p.2) && decide (p.2 < w.gh)

/-- The centre of a cell. -/
def World.centre (w : World) (x y : Nat) : Num × Num :=
  (f32add w.ox (f32mul (plusHalf x) w.cxy), f32add w.oy (f32mul (plusHalf y) w.cxy))

/-- The areas of the world, as (offset, bytes). -/
def Chip.tulAreas (c : Chip) : List (Nat × Nat) :=
  let w := c.world
  let h := c.peekNat (c.tulBase 7) 64
  [(c.tulBase 1, 524288), (c.tulBase 2, 262144), (c.tulBase 3, 4194304), (c.tulBase 4, 4194304), (c.tulBase 5, w.size),
   (c.tulBase 6, w.size), (c.tulBase 7, 64 + 32 * bits h 48 14 + 16 * bits h 96 17)]

/-! ## Objects and bins (R393, R397) -/

/-- A VALID object: kind 0 box, 1 sphere, 2 triangle; its slot and record; the bins it is listed in. -/
structure Obj where
  kind : Nat
  slot : Nat
  raw : Nat
  bx0 : Nat
  bx1 : Nat
  by0 : Nat
  by1 : Nat
  deriving DecidableEq, Repr

/-- Bytes of an object record, by kind. -/
def objBytes (kind : Nat) : Nat := match kind with | 0 => 32 | 1 => 16 | _ => 64

/-- Whether a record is VALID. -/
def objValid (kind raw : Nat) : Bool :=
  match kind with
  | 0 => raw.testBit 224
  | 1 => Num.lt .zero (f32val (bits raw 96 32))
  | _ => raw.testBit 288

/-- FP32 fields of a record from a bit on. -/
def f3 (r lo : Nat) : List Num := (List.range 3).map (fun k => f32val (bits r (lo + 32 * k) 32))

/-- Cosine and sine of a heading. -/
def tulCos (a : Num) : Num := (fnSinCos 57 1 a).1
def tulSin (a : Num) : Num := (fnSinCos 56 0 a).1

/-- The least and the largest of a list. -/
def least (xs : List Num) : Num := match xs with | [] => .zero | x :: r => r.foldl Num.min x
def largest (xs : List Num) : Num := match xs with | [] => .zero | x :: r => r.foldl Num.max x

/-- The x-y bounding box of an object: x from, to, y from, to. [DEDUCED: log 90] -/
def objBox (kind raw : Nat) : Num × Num × Num × Num :=
  let p := f3 raw 0
  let x := nth p 0 .zero
  let y := nth p 1 .zero
  match kind with
  | 0 =>
    let h := f3 raw 96
    let yaw := f32val (bits raw 192 32)
    let cs := (tulCos yaw).abs
    let sn := (tulSin yaw).abs
    let ex := f32add (f32mul cs (nth h 0 .zero)) (f32mul sn (nth h 1 .zero))
    let ey := f32add (f32mul sn (nth h 0 .zero)) (f32mul cs (nth h 1 .zero))
    (f32sub x ex, f32add x ex, f32sub y ey, f32add y ey)
  | 1 =>
    let r := f32val (bits raw 96 32)
    (f32sub x r, f32add x r, f32sub y r, f32add y r)
  | _ =>
    let xs := (List.range 3).map (fun v => f32val (bits raw (96 * v) 32))
    let ys := (List.range 3).map (fun v => f32val (bits raw (96 * v + 32) 32))
    (least xs, largest xs, least ys, largest ys)

/-- The bins along one axis that an interval overlaps. [DEDUCED: log 90] -/
def binRange (lo hi origin cell : Num) (n : Nat) : Option (Nat × Nat) :=
  let a := axisCell lo origin cell
  let b := axisCell hi origin cell
  if b < 0 ∨ (n : Int) ≤ a ∨ b < a then none
  else some ((max a 0).toNat / ceilDiv n 64, (min b (n - 1 : Int)).toNat / ceilDiv n 64)

/-- An object with the bins it is listed in: none when it is empty or lies wholly outside. -/
def objOf (w : World) (kind slot raw : Nat) : Option Obj :=
  if !objValid kind raw then none
  else
    let b := objBox kind raw
    match binRange b.1 b.2.1 w.ox w.cxy w.gw, binRange b.2.2.1 b.2.2.2 w.oy w.cxy w.gh with
    | some x, some y => some ⟨kind, slot, raw, x.1, x.2, y.1, y.2⟩
    | _, _ => none

/-- The listings of an object. -/
def Obj.listings (o : Obj) : Nat := (o.bx1 - o.bx0 + 1) * (o.by1 - o.by0 + 1)

/-- Every listed object of a memory: boxes, spheres, triangles, each in order of slot. [DESIGN CHOICE: log 89, 165] -/
def Chip.objects (c : Chip) (w : World) : List Obj :=
  let of_ := fun (kind n : Nat) => (List.range n).filterMap (fun i =>
    objOf w kind i (c.peekNat (c.tulBase (kind + 1) + objBytes kind * i) (objBytes kind)))
  of_ 0 16384 ++ of_ 1 16384 ++ of_ 2 65536

/-- Listings of the whole index. [DESIGN CHOICE: log 89] -/
def listingsOf (os : List Obj) : Nat := os.foldl (fun a o => a + o.listings) 0

/-! ## Collision tests (R401) -/

/-- A sphere of the robot. -/
structure Ball where
  x : Num
  y : Num
  z : Num
  r : Num
  deriving DecidableEq, Repr

/-- A robot sphere record. -/
def ballOf (raw : Nat) : Ball :=
  let f := fun k => f32val (bits raw (32 * k) 32)
  ⟨f 0, f 1, f 2, f 3⟩

/-- The sphere at a pose. -/
def Ball.at (b : Ball) (px py cs sn : Num) : Ball :=
  ⟨f32sub (f32add px (f32mul cs b.x)) (f32mul sn b.y), f32add (f32add py (f32mul sn b.x)) (f32mul cs b.y), b.z, b.r⟩

/-- Difference and cross product of vectors. -/
def vsub (a b : List Num) : List Num := List.zipWith f32sub a b
def cross3 (a b : List Num) : List Num :=
  let g := fun (v : List Num) i => nth v i Num.zero
  let m := fun i j => f32sub (f32mul (g a i) (g b j)) (f32mul (g a j) (g b i))
  [m 1 2, m 2 0, m 0 1]

/-- A value clamped to an interval. -/
def clampNum (x lo hi : Num) : Num := Num.min (Num.max x lo) hi

/-- Whether the sphere meets an object. [DEDUCED: log 90] -/
def Ball.meets (b : Ball) (o : Obj) : Bool :=
  let w := [b.x, b.y, b.z]
  let rr := f32mul b.r b.r
  match o.kind with
  | 0 =>
    let d := vsub w (f3 o.raw 0)
    let h := f3 o.raw 96
    let yaw := f32val (bits o.raw 192 32)
    let cs := tulCos yaw
    let sn := tulSin yaw
    let g := fun i => nth d i Num.zero
    let l := [f32add (f32mul cs (g 0)) (f32mul sn (g 1)), f32sub (f32mul cs (g 1)) (f32mul sn (g 0)), g 2]
    let q := List.zipWith (fun x k => clampNum x k.neg k) l h
    let e := vsub l q
    Num.le (dot3 e e) rr
  | 1 =>
    let d := vsub w (f3 o.raw 0)
    let s := f32add b.r (f32val (bits o.raw 96 32))
    Num.le (dot3 d d) (f32mul s s)
  | _ =>
    let v := fun i => f3 o.raw (96 * i)
    let n := cross3 (vsub (v 1) (v 0)) (vsub (v 2) (v 0))
    let e := dot3 (vsub w (v 0)) n
    let side := fun i j => Num.le .zero (dot3 (cross3 (vsub (v j) (v i)) (vsub w (v i))) n)
    let face := n.any (fun x => !x.isZero) && side 0 1 && side 1 2 && side 2 0 &&
      Num.le (f32mul e e) (f32mul rr (dot3 n n))
    let near := fun i j =>
      let ab := vsub (v j) (v i)
      let t := clampNum (f32div (dot3 (vsub w (v i)) ab) (dot3 ab ab)) .zero (.ofNat 1)
      let q := List.zipWith (fun x y => f32add x (f32mul t y)) (v i) ab
      let d := vsub w q
      Num.le (dot3 d d) rr
    face || near 0 1 || near 1 2 || near 2 0

/-- The cell range of an axis that a sphere covers. -/
def coverCells (p r origin cell : Num) : Int × Int :=
  ((f32div (f32sub (f32sub p r) origin) cell).floorInt, (f32div (f32sub (f32add p r) origin) cell).floorInt)

/-- The numbers from `a` to `b`, of those below `n`. -/
def intRange (a b : Int) (n : Nat) : List Nat := (List.range n).filter (fun (i : Nat) => decide (a ≤ i) && decide ((i : Int) ≤ b))

/-- Whether the sphere meets the grid. -/
def Chip.gridHit (c : Chip) (w : World) (b : Ball) : Bool :=
  let xs := coverCells b.x b.r w.ox w.cxy
  let ys := coverCells b.y b.r w.oy w.cxy
  let zs := coverCells b.z b.r w.oz w.cz
  decide (xs.1 < 0) || decide ((w.gw : Int) ≤ xs.2) || decide (ys.1 < 0) || decide ((w.gh : Int) ≤ ys.2) ||
  (intRange zs.1 zs.2 w.layers).any (fun l => (intRange ys.1 ys.2 w.gh).any (fun y =>
    (intRange xs.1 xs.2 w.gw).any (fun x => c.cellBlocks w x y l)))

/-- The objects a sphere is tested against, once per bin that lists them. -/
def objectsNear (w : World) (os : List Obj) (b : Ball) : List Obj :=
  match binRange (f32sub b.x b.r) (f32add b.x b.r) w.ox w.cxy w.gw, binRange (f32sub b.y b.r) (f32add b.y b.r) w.oy w.cxy w.gh with
  | some x, some y =>
    ((List.range (y.2 - y.1 + 1)).map (fun j => ((List.range (x.2 - x.1 + 1)).map (fun i =>
      os.filter (fun o => decide (o.bx0 ≤ x.1 + i) && decide (x.1 + i ≤ o.bx1) && decide (o.by0 ≤ y.1 + j) &&
        decide (y.1 + j ≤ o.by1)))).foldr (· ++ ·) [])).foldr (· ++ ·) []
  | _, _ => []

/-- The Muslin ranges that the tests of a sphere read. -/
def Chip.readsOf (c : Chip) (w : World) (near : List Obj) (b : Ball) : List (Nat × Nat) :=
  let xs := coverCells b.x b.r w.ox w.cxy
  let ys := coverCells b.y b.r w.oy w.cxy
  let zs := coverCells b.z b.r w.oz w.cz
  let x := intRange xs.1 xs.2 w.gw
  ((intRange zs.1 zs.2 w.layers).map (fun l => (intRange ys.1 ys.2 w.gh).map (fun y =>
    (c.cellAt w c.tul.active (x.headD 0) y l, x.length)))).foldr (· ++ ·) [] ++
  near.map (fun o => (c.tulBase (o.kind + 1) + objBytes o.kind * o.slot, objBytes o.kind))

/-- What a check found: a hit, its modelled cycles (R414), and what it read. -/
structure CheckResult where
  hit : Bool
  cycles : Nat
  reads : List (Nat × Nat)
  deriving DecidableEq, Repr

/-- A check of placed spheres, in groups of 32 up to the group of the first hit (R402). -/
def Chip.checkBalls (c : Chip) (w : World) (os : List Obj) : Nat → List Ball → CheckResult
  | 0, _ => ⟨false, 0, []⟩
  | f + 1, balls =>
    if balls.isEmpty then ⟨false, 0, []⟩
    else
      let g := (balls.take 32).map (fun b => (b, objectsNear w os b))
      let hit := g.any (fun p => c.gridHit w p.1 || p.2.any p.1.meets)
      let tests := g.foldl (fun a p => a + p.2.length) 0
      let cost := 2 + ceilDiv tests 32
      let reads := (g.map (fun p => c.readsOf w p.2 p.1)).foldr (· ++ ·) []
      if hit then ⟨true, cost, reads⟩
      else
        let r := Chip.checkBalls c w os f (balls.drop 32)
        ⟨r.hit, cost + r.cycles, reads ++ r.reads⟩

/-- A check of poses (x, y, heading) with the robot model. -/
def Chip.checkPoses (c : Chip) (w : World) (os : List Obj) (robot : List Ball) (poses : List (Num × Num × Num)) : CheckResult :=
  let balls := (poses.map (fun p =>
    let cs := tulCos p.2.2
    let sn := tulSin p.2.2
    robot.map (fun b => b.at p.1 p.2.1 cs sn))).foldr (· ++ ·) []
  c.checkBalls w os (balls.length / 32 + 1) balls

/-! ## The primitive table (R398 to R400) -/

/-- A primitive. -/
structure Prim where
  startH : Nat
  endH : Nat
  dx : Int
  dy : Int
  first : Nat
  count : Nat
  cost : Num
  deriving DecidableEq, Repr

/-- A primitive record. -/
def primOf (r : Nat) : Prim :=
  ⟨bits r 0 5, bits r 5 5, toSigned 16 (bits r 16 16), toSigned 16 (bits r 32 16), bits r 64 16 + (bits r 48 16 <<< 16),
   bits r 80 7, f32val (bits r 96 32)⟩

/-- Counts of the table in use. -/
def Chip.primCount (c : Chip) : Nat := c.rd R.TUL_TABLE_COUNT
def Chip.headings (c : Chip) : Nat := c.rd R.TUL_TABLE_HEADINGS

/-- Primitive `i`, and its poses. -/
def Chip.prim (c : Chip) (i : Nat) : Prim := primOf (c.peekNat (c.tulBase 7 + 64 + 32 * i) 32)
def Chip.primPoses (c : Chip) (p : Prim) : List (List Num) :=
  (List.range p.count).map (fun k => f3 (c.peekNat (c.tulBase 7 + 64 + 32 * c.primCount + 16 * (p.first + k)) 16) 0)

/-- What the table check found. -/
structure TableCheck where
  ok : Bool
  count : Nat
  headings : Nat
  crc : Nat
  deriving DecidableEq, Repr

/-- Whether a list of numbers never falls. -/
def neverFalls : List Nat → Bool
  | a :: b :: r => decide (a ≤ b) && neverFalls (b :: r)
  | _ => true

/-- The table read and checked (R399). A table that cannot be read fails. -/
def Chip.checkTable (c : Chip) : Chip × TableCheck :=
  let base := c.entry 0x4400 7
  let h := c.devRead base 64
  let hv := leNat h.2.2
  let n := bits hv 48 14
  let heads := bits hv 64 6
  let poses := bits hv 96 17
  let shape := h.2.1 == 0 && bits hv 0 32 == 0x4C555450 && bits hv 32 16 == 1 && decide (1 ≤ n) && decide (n ≤ 8192) &&
    [8, 16, 32].contains heads && decide (1 ≤ poses) && decide (poses ≤ 65536)
  if !shape then (h.1, ⟨false, n, heads, bits hv 480 32⟩)
  else
    let r := h.1.devRead (base + 64) (32 * n + 16 * poses)
    let prims := (List.range n).map (fun i => primOf (leNat ((r.2.2.drop (32 * i)).take 32)))
    let his := (List.range n).map (fun i => bits (leNat ((r.2.2.drop (32 * i)).take 32)) 48 16)
    let ps := (List.range poses).map (fun i => f3 (leNat ((r.2.2.drop (32 * n + 16 * i)).take 16)) 0)
    let ok := r.2.1 == 0 && bits hv 480 32 == crc32 (h.2.2.take 60 ++ r.2.2) &&
      Num.eqv (f32val (bits hv 128 32)) c.world.cxy && neverFalls (prims.map (·.startH)) &&
      prims.all (fun p => decide (p.startH < heads) && decide (p.endH < heads) && decide (1 ≤ p.count) && decide (p.count ≤ 64) &&
        decide (p.first + p.count ≤ poses) && p.cost.isFinite && Num.lt .zero p.cost) &&
      his.all (fun x => decide (x ≤ 1)) && ps.all (fun p => p.all Num.isFinite)
    (r.1, ⟨ok, n, heads, bits hv 480 32⟩)

/-! ## Enabling (R391, R392, R399, R416) -/

/-- ENABLE from 0 to 1 reads the table and starts building the index. [DEDUCED: log 95; DESIGN CHOICE: log 165] -/
def Chip.tulEnable (c : Chip) : Chip :=
  if c.on R.TUL_CTRL_ENABLE then c
  else
    let r := c.checkTable
    let c := r.1
    let c := ((c.wr R.TUL_CTRL_ENABLE 1).wr R.TUL_STATUS_TABLE_BAD (b2n !r.2.ok)).wr R.TUL_STATUS_READY 0
    let c := (c.wr R.TUL_TABLE_COUNT r.2.count).wr R.TUL_TABLE_HEADINGS r.2.headings
    { c with tul := { c.tul with active := 0, crc := r.2.crc, building := true } }

/-- TULLE_ENABLE. -/
def execTulleEnable (s : State) : Host.Outcome State Fault Refusal := s.runHost [.regs, .msl, .drc, .tul, .sent] Chip.tulEnable

/-- The world generation advances. -/
def Chip.nextWorld (c : Chip) : Chip :=
  let c := c.count R.TUL_GEN_GEN
  { c with tul := { c.tul with advances := c.tul.advances + 1 } }

/-- The index area is rewritten in Tulle's own layout: free bytes. Answers the status of the write. [DESIGN CHOICE: log 89] -/
def Chip.writeOwn (c : Chip) (off n : Nat) : Chip × Nat :=
  let f := c.freshId
  f.2.devWrite off (leBytes n (Config.freeNat f.1))

/-- TULLE_READY: the index is built, the generation advances, READY is set. An index that would not fit leaves READY 0. -/
def execTulleReady (s : State) : Host.Outcome State Fault Refusal :=
  s.run [.regs, .muslin, .msl, .drc, .tul, .sent, .fresh] (fun c =>
    if !c.tul.building || !c.on R.TUL_CTRL_ENABLE then c
    else
      let n := listingsOf (c.objects c.world)
      let w := c.writeOwn (c.tulBase 4) 4194304
      let c := { w.1 with tul := { w.1.tul with building := false } }
      let c := c.nextWorld
      if 1040384 < n then c.latch R.TUL_STATUS_INDEX_FULL
      else if w.2 != 0 then c
      else (c.wr R.TUL_INDEX_USED_LISTINGS n).wr R.TUL_STATUS_READY 1)

/-- ENABLE written 0: without effect while an operation runs or is suspended. -/
def Chip.tulDisable (c : Chip) : Chip :=
  if c.on R.TUL_STATUS_BUSY then c
  else
    let c := (c.wr R.TUL_CTRL_ENABLE 0).wr R.TUL_STATUS_READY 0
    { c with tul := { c.tul with building := false } }

/-! ## WORLD_EDIT (R395 to R397) -/

/-- An edit record. -/
structure Edit where
  kind : Nat
  slot : Nat
  buf : Nat
  src : Nat
  x0 : Nat
  y0 : Nat
  w : Nat
  h : Nat
  l0 : Nat
  l1 : Nat
  stride : Nat
  deriving DecidableEq, Repr

/-- The fields of an edit record. -/
def editOf (r : Nat) : Edit :=
  ⟨bits r 0 4, bits r 8 16, bits r 24 1, bits r 32 28, bits r 64 16, bits r 80 16, bits r 96 16, bits r 112 16, bits r 128 5,
   bits r 133 5, bits r 144 16⟩

/-- Layers of a rectangle. -/
def Edit.depth (e : Edit) : Nat := e.l1 - e.l0 + 1

/-- Bytes that an edit copies. -/
def Edit.bytes (e : Edit) : Nat :=
  match e.kind with | 1 => 32 | 2 => 16 | 3 => 64 | 4 => e.w * e.h * e.depth | _ => 0

/-- The rows an edit reads. -/
def Edit.source (e : Edit) : Strided :=
  if e.kind = 4 then ⟨e.src, e.stride, e.h * e.depth, e.w⟩ else ⟨e.src, 0, if e.bytes = 0 then 0 else 1, e.bytes⟩

/-- Whether the values of an object record are finite, and a VALID box has positive half-extents. -/
def newRecordOk (kind raw : Nat) : Bool :=
  let n := match kind with | 0 => 7 | 1 => 4 | _ => 9
  (List.range n).all (fun k => (f32val (bits raw (32 * k) 32)).isFinite) &&
  (kind != 0 || !objValid 0 raw || (f3 raw 96).all (fun h => Num.lt .zero h))

/-- Whether one edit is allowed (R396). [DEDUCED: log 95] -/
def Chip.editOk (c : Chip) (e : Edit) : Bool :=
  let w := c.world
  let src := e.source
  let area := src.fits && c.tulAreas.all (fun a => !(src.overlaps ⟨a.1, 0, 1, a.2⟩))
  match e.kind with
  | 0 => true
  | 5 => true
  | 4 =>
    decide (1 ≤ e.w) && decide (1 ≤ e.h) && decide (e.x0 + e.w ≤ w.gw) && decide (e.y0 + e.h ≤ w.gh) &&
    decide (e.l0 ≤ e.l1) && decide (e.l1 < w.layers) && decide (e.w ≤ e.stride) && area
  | 1 | 2 | 3 =>
    (e.kind == 3 || decide (e.slot ≤ 16383)) && e.src % e.bytes == 0 && area &&
    newRecordOk (e.kind - 1) (c.peekNat e.src e.bytes)
  | _ => false

/-- The parameter area of WORLD_EDIT. -/
def editOff (d : Nat) : Nat := 64 * bits d 256 22
def editCount (d : Nat) : Nat := bits d 278 12

/-- An object edit's place. -/
def Chip.editPlace (c : Chip) (e : Edit) : Nat := c.tulBase e.kind + objBytes (e.kind - 1) * e.slot

/-- The listings after a list of edits. -/
def Chip.listingsAfter (c : Chip) (es : List Edit) : Nat :=
  let m := es.foldl (fun (m : Memory) e =>
    if 1 ≤ e.kind ∧ e.kind ≤ 3 then m.write (c.editPlace e) (c.muslin.read e.src e.bytes) else m) c.muslin
  listingsOf (({ c with muslin := m } : Chip).objects c.world)

/-- One edit applied. -/
def Chip.applyEdit (c : Chip) (e : Edit) : Chip × Nat :=
  let copy := fun (s : Chip × Nat) (from_ to_ n : Nat) =>
    if s.2 != 0 then s
    else
      let r := s.1.devRead from_ n
      if r.2.1 != 0 then (r.1, r.2.1) else r.1.devWrite to_ r.2.2
  if 1 ≤ e.kind ∧ e.kind ≤ 3 then copy (c, St.OK) e.src (c.editPlace e) e.bytes
  else if e.kind = 4 then
    (List.range (e.h * e.depth)).foldl (fun (s : Chip × Nat) k =>
      copy s (e.src + k * e.stride) (c.cellAt c.world c.tul.active e.x0 (e.y0 + k % e.h) (e.l0 + k / e.h)) e.w) (c, St.OK)
  else (c, St.OK)

/-- An operation of Tulle meets a FAULT while it edits the world: READY becomes 0. -/
def Chip.editFails (c : Chip) (o : OpRun) (st : Nat) : Chip × OpRun := (c.wr R.TUL_STATUS_READY 0, o.ends st)

/-- The work of WORLD_EDIT. -/
def Chip.runEdit (c : Chip) (o : OpRun) : Chip × OpRun :=
  let n := editCount o.raw
  if !(c.on R.TUL_STATUS_READY && decide (1 ≤ n) && decide (n ≤ 2048) &&
      c.validRange [0] (editOff o.raw) (32 * n)) then (c, o.ends St.TUL_BAD_PARAM)
  else
    let r := c.devRead (editOff o.raw) (32 * n)
    if r.2.1 != 0 then (r.1, o.ends r.2.1)
    else
      let c := r.1
      let es := (List.range n).map (fun i => editOf (leNat ((r.2.2.drop (32 * i)).take 32)))
      let bytes : Nat := es.foldl (fun (a : Nat) e => a + e.bytes) 0
      if !es.all c.editOk || decide (1048576 < bytes) then (c, o.ends St.TUL_BAD_PARAM)
      else
        let after := c.listingsAfter es
        if 1040384 < after then (c.latch R.TUL_STATUS_INDEX_FULL, o.ends St.TUL_INDEX_FULL)
        else
          let a := es.foldl (fun (s : Chip × Nat) e => if s.2 != 0 then s else s.1.applyEdit e) (c, St.OK)
          if a.2 != 0 then a.1.editFails o a.2
          else
            let moved := es.any (fun e => decide (1 ≤ e.kind) && decide (e.kind ≤ 3))
            let x := if moved then a.1.writeOwn (a.1.tulBase 4) 4194304 else a
            if x.2 != 0 then x.1.editFails o x.2
            else
              let c := x.1.wr R.TUL_INDEX_USED_LISTINGS after
              let sel := es.foldl (fun (b : Nat) e => if e.kind = 5 then e.buf else b) c.tul.active
              let c := { c with tul := { c.tul with active := sel } }
              let c := if es.any (fun e => e.kind != 0) then c.nextWorld else c
              (c.count R.TUL_EDIT_CNT_COUNT, { o with lastTile := true })

/-- WORLD_EDIT. `stalls` are the cycles stalled on the port. -/
def execWorldEdit (stalls : Nat) (s : State) : Host.Outcome State Fault Refusal :=
  s.run Parts.tile (fun c => c.runTile 22 5 3 (fun _ _ => St.OK) (fun c o =>
    c.runEdit { o with info0 := min (o.info0 + stalls) 0xFFFFFFFF }))

/-! ## Consistency (R390) -/

/-- Whether a session that writes `keys` leaves the entries of Tulle's world in order. [DEDUCED: log 95] -/
def Chip.tulConsistent (c : Chip) (keys : List Nat) : Bool :=
  if !keys.any (fun k => k / 256 == 0x4400 || k / 256 == 0x4401) then true
  else
    let w := c.world
    let areas := (c.tulAreas.take 6) ++ [(c.tulBase 7, 64)]
    !c.on R.TUL_CTRL_ENABLE &&
    (List.range 7).all (fun k => let a := c.entry 0x4400 (k + 1)
      decide (a < muslinSize) && a % (if k = 3 then 65536 else 64) == 0) &&
    areas.all (fun a => decide (a.1 + a.2 ≤ muslinSize)) && disjointAll areas &&
    decide (1 ≤ w.gw) && decide (w.gw ≤ 512) && decide (1 ≤ w.gh) && decide (w.gh ≤ 512) && decide (1 ≤ w.layers) &&
    decide (w.layers ≤ 32) && [w.cxy, w.cz].all (fun x => x.isFinite && Num.lt .zero x) &&
    [w.ox, w.oy, w.oz].all Num.isFinite && decide (1 ≤ w.lethal) && decide (w.lethal ≤ 254) && decide (1 ≤ w.waveLayers) &&
    decide (w.waveLayers ≤ w.layers)

end Sys2Proof.Machine
end

