-- ==== Sys2Proof/Machine/Consist.lean ====
section
/-!
DEFINITION. The consistency rules that a dictionary session must keep (R505): those of the field ports (R521 to R528)
and of Gingham (R570), and all of them together.
-/
namespace Sys2Proof.Machine

/-! ## Field ports -/

def Chip.portCfg (c : Chip) (n s : Nat) : Nat := c.entry (0x5400 + n) s
def Chip.nodeCfg (c : Chip) (d s : Nat) : Nat := c.entry (0x5420 + d) s
def Chip.gwepoOn (c : Chip) : Bool := c.entryOn 0x5410 1

/-- The enabled Gwepo nodes, and those of a port. -/
def Chip.nodesOn (c : Chip) : List Nat := (List.range 64).filter (fun d => c.nodeCfg d 1 != 0)
def Chip.nodesOf (c : Chip) (n : Nat) : List Nat := c.nodesOn.filter (fun d => c.nodeCfg d 2 == n)

/-- Tenths of a nanosecond that a byte takes on a port (R520). -/
def Chip.byteTenths (c : Chip) (n : Nat) : Nat := nth [32, 80, 800, 8000] (c.portCfg n 2) 32

/-- Bytes of a Gwepo frame on a port with a payload (R528). -/
def Chip.gwepoFrame (c : Chip) (n payload : Nat) : Nat := max 64 (30 + payload + (if c.portCfg n 4 = 0xFFFF then 0 else 4))

/-- W: the wire time, in tenths of a nanosecond, of a frame of `bytes` with preamble and gap (R528). -/
def Chip.wireTenths (c : Chip) (n bytes : Nat) : Nat := (bytes + 20) * c.byteTenths n

/-- Entry `i` of a gate list, and the sum of its first `n` intervals; 0 for an interval of 0 among them. -/
def listInterval (list i : Nat) : Nat := bits list (32 * i + 8) 24
def listSum (list n : Nat) : Option Nat :=
  (List.range n).foldl (fun (a : Option Nat) i =>
    match a with
    | some t => if listInterval list i = 0 then none else some (t + listInterval list i)
    | none => none) (some 0)

/-- The two MAC rules and the gate lists of a port (R521, R522, R524). -/
def Chip.portConsistent (c : Chip) (n : Nat) : Bool :=
  let mac := c.portCfg n 3
  let qbv := c.entry (0x5480 + n)
  let qci := c.entry (0x54A0 + n)
  (c.portCfg n 1 == 0 || (mac != 0 && !mac.testBit 0)) &&
  (!c.gwepoOn || (c.nodesOf n).isEmpty || decide (c.portCfg n 2 ≤ 1)) &&
  (c.entry (0x5490 + n) 1 == 0 || (c.entry (0x5490 + n) 2).testBit (c.portCfg n 5)) &&
  listSum (qbv 5) (qbv 4) == some (qbv 3) &&
  (qbv 1 == 0 || !c.gwepoOn || (qbv 3 != 0 && c.controlPeriod % qbv 3 == 0)) &&
  (List.range 64).all (fun i =>
    let f := bits (qci 2) (128 * i) 128
    !f.testBit 60 || f.testBit 69 ||
      (let g := bits f 64 5
       let gate := bits (qci (3 + g / 8)) (1024 * (g % 8)) 1024
       let n := bits gate 544 8
       decide (1 ≤ n) && decide (n ≤ 16) && listSum gate n == some (bits gate 512 32)))

/-- Whether the windows of a port, in order of their offsets, leave room for SYNC and for each OUT frame (R528). -/
def Chip.windowsFit (c : Chip) (n : Nat) : Bool :=
  let order := (c.nodesOf n).mergeSort (fun a b => decide (c.nodeCfg a 4 ≤ c.nodeCfg b 4))
  let outW := fun d => c.wireTenths n (c.gwepoFrame n (c.nodeCfg d 9))
  let first := match order.head? with
    | some d => decide (6000 + c.wireTenths n (c.gwepoFrame n 32) ≤ 10 * c.nodeCfg d 4)
    | none => true
  first && (order.zip order.tail).all (fun p =>
    decide (10 * (c.nodeCfg p.1 4 + c.nodeCfg p.1 5) + 12000 + outW p.1 ≤ 10 * c.nodeCfg p.2 4)) &&
  order.all (fun d => decide (10 * (c.nodeCfg d 4 + c.nodeCfg d 5) + 12000 + outW d ≤ 10 * c.entry 0x5410 3))

/-- Whether an enabled Gwepo is scheduled soundly (R528). -/
def Chip.gwepoConsistent (c : Chip) : Bool :=
  let on := c.nodesOn
  let v := c.entry 0x5410 5
  let slow := ((List.range 2).filter (fun n => !(c.nodesOf n).isEmpty)).map c.byteTenths
  !c.gwepoOn ||
  (on.all (fun d =>
      let p := c.nodeCfg d 2
      c.portCfg p 1 != 0 && decide (c.portCfg p 2 ≤ 1) && decide (1 ≤ c.nodeCfg d 7) && decide (1 ≤ c.nodeCfg d 9) &&
      decide (c.nodeCfg d 6 + c.nodeCfg d 7 ≤ 1024) && decide (c.nodeCfg d 8 + c.nodeCfg d 9 ≤ 1024) &&
      on.all (fun e => e == d ||
        ((c.nodeCfg e 2 != p || c.nodeCfg e 3 != c.nodeCfg d 3) &&
         (decide (c.nodeCfg d 6 + c.nodeCfg d 7 ≤ c.nodeCfg e 6) || decide (c.nodeCfg e 6 + c.nodeCfg e 7 ≤ c.nodeCfg d 6))))) &&
   (v == 0xFFFF || (v % 8 == 0 && decide (v + 8 ≤ 1024))) &&
   (List.range 2).all c.windowsFit &&
   slow.all (fun b => decide (2 * (1082 + 4 + 20) * b ≤ 10 * c.entry 0x5410 4)) &&
   decide (c.entry 0x5410 3 + c.entry 0x5410 4 ≤ c.controlPeriod))

/-- Whether the field-port entries are consistent. -/
def Chip.fldConsistent (c : Chip) : Bool :=
  (List.range 2).all c.portConsistent && c.gwepoConsistent

/-! ## Gingham -/

def Chip.netCfg (c : Chip) (n s : Nat) : Nat := c.entry (0x5C10 + n) s

/-- The enabled safety networks. -/
def Chip.netsOn (c : Chip) : List Nat := (List.range 8).filter (fun n => c.netCfg n 1 != 0)

/-- The areas of a network: ACT, SHADOW, and GOLDEN where its golden test runs (R569). -/
def Chip.netAreas (c : Chip) (n : Nat) : List (Nat × Nat) :=
  let size := c.netCfg n 5
  [(c.netCfg n 4, size), (c.netCfg n 6, size)] ++ (if c.netCfg n 0x0C = 0 then [] else [(c.netCfg n 7, size)])

/-- Whether the Gingham entries are consistent (R570). -/
def Chip.gngConsistent (c : Chip) : Bool :=
  let on := c.netsOn
  let active := fun (f : Field) => c.rd R.TWL_CLUSTER_STATE (c.rd f) == 0
  let areas := (on.map c.netAreas).foldr (· ++ ·) []
  (!c.entryOn 0x5C00 1 || (!c.on R.TWL_GNG_PAIR_PAIR_BAD && active R.TWL_GNG_PAIR_CLUSTER_A && active R.TWL_GNG_PAIR_CLUSTER_B)) &&
  allDistinct (on.map (fun n => c.netCfg n 2)) && allDistinct ((on.map (fun n => c.netCfg n 3)).filter (· != 0xFF)) &&
  areas.all (fun a => decide (a.1 + a.2 ≤ muslinSize)) &&
  areas.zipIdx.all (fun p => areas.zipIdx.all (fun q =>
    p.2 == q.2 || decide (p.1.1 + p.1.2 ≤ q.1.1) || decide (q.1.1 + q.1.2 ≤ p.1.1))) &&
  on.all (fun n =>
    let e := c.netCfg n
    let pipe := c.pipeEntry (e 3)
    [4, 5, 6, 7].all (fun s => e s % 64 == 0) && decide (e 8 + e 9 ≤ e 5) && e 0x0A % 64 == 0 && e 0x0B != 0 &&
    (e 0x0C == 0 || (decide (e 0x0F < e 0x10) && decide (e 0x10 < e 0x0B))) &&
    (e 3 == 0xFF ||
      (pipe 1 != 0 && pipe 0x16 != 0 && decide (pipe 7 * pipe 8 * pipe 9 * (fmtWidth (fmtCode (pipe 0x0A)) / 8) ≤ e 9)))) &&
  (let q := c.entry 0x5C00 3
   q == 0xFFFF || (match c.queue? q with | some r => r.kind == 3 && r.producer == 5 | none => false))

/-! ## PMBus -/

/-- No power monitor has the address of the VDD_MSL or VDD_DMK regulator (R629). -/
def Chip.pwrConsistent (c : Chip) : Bool := [4, 5, 6, 7].all (fun s => c.entry 0x5801 s != 0x40 && c.entry 0x5801 s != 0x41)

/-! ## Every rule -/

/-- Whether the entries as they stand keep every consistency rule; `keys` are those a session writes (R505, R506). -/
def Chip.consistent (c : Chip) (keys : List Nat) : Bool :=
  c.gzeConsistent keys && c.twdConsistent && c.tulConsistent keys && c.jrsConsistent && c.tkuConsistent && c.fldConsistent &&
  c.gngConsistent && c.pwrConsistent

end Sys2Proof.Machine
end

