-- ==== Sys2Proof/Machine/Odx.lean ====
section
/-!
DEFINITION. The object dictionary, its sessions, and the Keeper's flash writes (chapter 17). A request takes its effect and
is answered in one step.
-/
namespace Sys2Proof.Machine

/-! ## Requests and answers (R498, R499, R519) -/

/-- The port of a request: 0 host, 1 network, 2 management. -/
def originPort : Origin → Nat
  | .host => 0
  | .net _ => 1
  | .can _ => 1
  | .mgmt => 2

/-- The network path of a request: 1 to 64 a Gwepo node, 0x41 to 0x44 a CAN FD controller, 0 for host and management.
[DESIGN CHOICE: log 116] -/
def originPath : Origin → Nat
  | .net p => p
  | .can k => 0x41 + k
  | _ => 0

/-- The journal's PATH and NODE of a port and path (R511). -/
def journalPath (port path : Nat) : Nat := if port = 1 ∧ 0x41 ≤ path then path - 0x40 else 0
def journalNode (port path : Nat) : Nat := if port = 1 ∧ path ≤ 0x40 then path else 0

/-- A request runs: the management core's in domain 0 alone, the host's where the host is heard (R271). -/
def State.runFor (s : State) (o : Origin) (ps : List Part) (f : Chip → Chip) : Host.Outcome State Fault Refusal :=
  match o with
  | .mgmt => s.runKeeper ps f
  | .host => s.runHost ps f
  | _ => s.run ps f

/-- The answer to a request: status, retry hint in µs, SEQ of its record, and the value returned. -/
structure OdxReply where
  status : Nat
  hint : Nat := 0
  seq : Nat := 0
  data : List Byte := []
  deriving DecidableEq, Repr

/-- Bytes replace the first ones of ODX_DATA. -/
def Chip.putOdxData (c : Chip) (bs : List Byte) : Chip :=
  bs.zipIdx.foldl (fun (c : Chip) (p : Byte × Nat) =>
    c.wr R.ODX_DATA_DATA (setBits (c.rd R.ODX_DATA_DATA (p.2 / 4)) (8 * (p.2 % 4)) 8 p.1.toNat) (p.2 / 4)) c

/-- An answer leaves: into the host's mailbox, or by the requester's own path. -/
def Chip.answer (c : Chip) (o : Origin) (r : OdxReply) : Chip :=
  let c := c.emit .mailbox r.status (match o with | .mgmt => 0x100 | _ => originPath o) r.data
  match o with
  | .host =>
    let c := (c.putOdxData r.data).wr R.ODX_RSP_STATUS r.status
    let c := (c.wr R.ODX_RSP_LENGTH r.data.length).wr R.ODX_RSP_HINT r.hint
    (c.wr R.ODX_RSP_SEQ_LO (r.seq % 2 ^ 32)).wr R.ODX_RSP_SEQ_HI (r.seq / 2 ^ 32)
  | _ => c

/-- A refusal; BUSY is counted. -/
def Chip.odxRefuse (c : Chip) (st : Nat) (hint : Nat := 0) : Chip × OdxReply :=
  (if st = St.BUSY then c.count R.ODX_BUSY_CNT_COUNT else c, { status := st, hint := hint })

/-- A record for a request, and the answer that names it. -/
def Chip.odxAccept (c : Chip) (o : Origin) (f : JournalFields) (data : List Byte := []) : Chip × OdxReply :=
  let port := originPort o
  let path := originPath o
  (c.journal { f with port := port, path := journalPath port path, node := journalNode port path },
   { status := St.OK, seq := c.odx.nextSeq, data := data })

/-- The PAYLOAD of a value (R511). -/
def valuePayload (value : List Byte) : Nat := if value.length ≤ 16 then leNat value else crc32 value

/-! ## Sessions (R499, R501, R502, R509) -/

/-- A session, and one that never was. -/
def Chip.session (c : Chip) (n : Nat) : Session := nth c.odx.sessions n ⟨0, 0, 0, 0, 0, 0, [], none, none⟩

/-- ODX_STATUS shows the sessions in use and the pending implicit writes. -/
def Chip.odxStatus (c : Chip) : Chip :=
  let used := c.odx.sessions.zipIdx.foldl (fun (a : Nat) (p : Session × Nat) => if p.1.state = 0 then a else a + 2 ^ p.2) 0
  (c.wr R.ODX_STATUS_SESSIONS used).wr R.ODX_STATUS_IMPLICIT c.odx.implicit.length

/-- A session changes; its entries at 0xA100 and ODX_STATUS follow. -/
def Chip.setSession (c : Chip) (n : Nat) (f : Session → Session) : Chip :=
  let c := { c with odx := { c.odx with sessions := modifyNth c.odx.sessions n f } }
  let s := c.session n
  let used := s.state != 0
  let e := fun (c : Chip) (sub v : Nat) => c.setEntry (0xA100 + n) sub v
  let c := e (e (e c 1 s.state) 2 (if used then s.owner else 0)) 3 s.staged.length
  let c := e (e c 7 (if s.state = 2 then s.commitAt else 0)) 9 (if used then s.path else 0)
  c.odxStatus

/-- The implicit writes replaced. -/
def Chip.setImplicit (c : Chip) (l : List Implicit) : Chip := ({ c with odx := { c.odx with implicit := l } }).odxStatus

/-- Whether a request comes from the owner of a session in use. -/
def Chip.owns (c : Chip) (o : Origin) (n : Nat) : Bool :=
  let s := c.session n
  decide (n < 8) && s.state != 0 && s.owner == originPort o && s.path == originPath o

/-- A session becomes FREE, and its path's NET_SESSION returns to 0xFF. -/
def Chip.freeSession (c : Chip) (n : Nat) : Chip :=
  let s := c.session n
  let c := if s.owner = 1 ∧ s.state ≠ 0 then c.setEntry 0xA010 s.path 0xFF else c
  c.setSession n (fun s => { s with state := 0, staged := [], commitAt := 0 })

/-- SESSION_TIMEOUT_MS in ns. -/
def Chip.sessionTimeout (c : Chip) : Nat := 1000000 * c.entry 0xA000 5

/-- The TKU time at which an open session expires (R507). -/
def Chip.expiryOf (c : Chip) (s : Session) : Nat := ((s.openedAt + c.sessionTimeout : Nat) + c.tku.shift / 2 ^ 32).toNat

/-- Who reserves an entry, beside session `self`: the TKU time until which (R502). -/
def Chip.reservedUntil (c : Chip) (key self : Nat) : Option Nat :=
  match (c.odx.sessions.zipIdx.filter (fun p => p.2 != self && p.1.state != 0 && (Table.get? p.1.staged key).isSome &&
      (p.1.state == 1 || decide (c.now < p.1.commitAt)))).head? with
  | some p => some (if p.1.state = 2 then p.1.commitAt else c.expiryOf p.1)
  | none => (c.odx.implicit.find? (fun w => w.key == key && decide (c.now < w.commitAt))).map (·.commitAt)

/-- The retry hint until a time. -/
def Chip.hintUs (c : Chip) (t : Nat) : Nat := min (ceilDiv (t - c.now) 1000) 0xFFFFFFFF

/-! ## READ and DESCRIBE (R493, R494) -/

/-- READ. `storeUe` says that the read of the store meets an uncorrectable word. -/
def Chip.odxReadReq (c : Chip) (o : Origin) (session index sub : Nat) (storeUe : Bool) : Chip × OdxReply :=
  match findEntry index sub with
  | none => c.odxRefuse St.ODX_UNKNOWN_ENTRY
  | some e =>
    let key := entryKey index sub
    if !e.mayRead (originPort o) then c.odxRefuse St.ODX_NO_ACCESS
    else if storeUe || c.odx.badStore.contains key then
      let c := { c with odx := { c.odx with badStore := insertNat c.odx.badStore key } }
      ((c.latchFault R.ODX_STATUS_STORE_UE).raise 15).odxRefuse St.ODX_STORE_UE
    else
      let own := if c.owns o session then Table.get? (c.session session).staged key else none
      (c, { status := St.OK, data := leBytes e.size (own.getD (c.entry index sub)) })

/-- DESCRIBE. -/
def Chip.odxDescribeReq (c : Chip) (index sub : Nat) : Chip × OdxReply :=
  match findEntry index sub with
  | none => c.odxRefuse St.ODX_UNKNOWN_ENTRY
  | some e =>
    let zero := decide (1008 < e.size)
    let d := e.type + (e.kind <<< 4) + (e.rights <<< 8) + (e.size <<< 16) + (e.radix <<< 32) + (b2n zero <<< 40)
    (c, { status := St.OK, data := leBytes 16 d ++ (if zero then [] else leBytes e.size e.default) })

/-! ## OPEN, STAGE and implicit writes (R500 to R503) -/

/-- OPEN of a session that is FREE: its tokens are forgotten (R508). -/
def Chip.openSession (c : Chip) (o : Origin) (n : Nat) (token : Nat) : Chip × OdxReply :=
  let port := originPort o
  let path := originPath o
  let at_ := (c.unstepped c.now).toNat
  let c := c.setSession n (fun _ => ⟨1, port, path, at_, 0, 0, [], none, none⟩)
  let c := c.setEntry (0xA100 + n) 8 token
  let c := if port = 1 then c.setEntry 0xA010 path n else c
  c.odxAccept o { kind := 2, session := n, token := token } (leBytes 4 n)

/-- OPEN through a mailbox: the lowest-numbered FREE session. -/
def Chip.odxOpenReq (c : Chip) (o : Origin) (token : Nat) : Chip × OdxReply :=
  if originPort o = 1 then c.odxRefuse St.ODX_BAD_REQUEST
  else match (List.range 8).find? (fun n => (c.session n).state == 0) with
    | some n => c.openSession o n token
    | none => c.odxRefuse St.ODX_SESSION_FULL

/-- The checks of R500 on an entry and a value, up to its range; `kind2` says that the entry is to be a COMMAND. -/
def Chip.entryCheck (c : Chip) (o : Origin) (index sub : Nat) (value : List Byte) (kind2 : Bool) : Nat :=
  match findEntry index sub with
  | none => St.ODX_UNKNOWN_ENTRY
  | some e =>
    if c.odx.badStore.contains (entryKey index sub) then St.ODX_STORE_UE
    else if (e.kind == 2) != kind2 || !e.mayWrite (originPort o) then St.ODX_NO_ACCESS
    else if originPort o == 1 && index == 0x1F80 && !c.entryOn 0x1F81 1 then St.ODX_NO_ACCESS
    else if value.length != e.size then St.ODX_BAD_LENGTH
    else if !e.inRange (leNat value) then St.ODX_OUT_OF_RANGE
    else St.OK

/-- The bytes of staged values. -/
def stagedBytes (t : Table Nat) : Nat :=
  t.foldl (fun (a : Nat) (p : Nat × Nat) => a + ((findEntry (p.1 / 256) (p.1 % 256)).map (·.size)).getD 0) 0

/-- The STAGE record of an accepted value. -/
def stageRecord (session index sub : Nat) (value : List Byte) (token : Nat) : JournalFields :=
  { kind := 3, session := session, index := index, sub := sub, count := value.length, token := token,
    payload := valuePayload value }

/-- A stage into session `n`, which is OPEN and the requester's own. -/
def Chip.stageInto (c : Chip) (o : Origin) (n index sub : Nat) (value : List Byte) (token : Nat) : Chip × OdxReply :=
  let st := c.entryCheck o index sub value false
  let key := entryKey index sub
  let staged := Table.put (c.session n).staged key (leNat value)
  if st != St.OK then c.odxRefuse st
  else if 256 < staged.length ∨ 16384 < stagedBytes staged then c.odxRefuse St.ODX_ENTRY_LIMIT
  else match c.reservedUntil key n with
    | some t => c.odxRefuse St.BUSY (c.hintUs t)
    | none => (c.setSession n (fun s => { s with staged := staged })).odxAccept o (stageRecord n index sub value token)

/-- STAGE (R499, R500). -/
def Chip.odxStageReq (c : Chip) (o : Origin) (session index sub : Nat) (value : List Byte) (token : Nat) : Chip × OdxReply :=
  if originPort o = 1 then c.odxRefuse St.ODX_BAD_REQUEST
  else if c.owns o session && (c.session session).state == 1 then c.stageInto o session index sub value token
  else c.odxRefuse St.ODX_SESSION_STATE

/-- A set of staged values over the committed ones. -/
def Chip.overlay (c : Chip) (t : Table Nat) : Chip :=
  t.foldl (fun (c : Chip) (p : Nat × Nat) => c.setEntry (p.1 / 256) (p.1 % 256) p.2) c

/-- What is due at or before an instant, in journal order: (SEQ, session or none, staged values) (R505, R506). -/
def Chip.dueBy (c : Chip) (t : Nat) : List (Nat × Option Nat × Table Nat) :=
  let ss := (c.odx.sessions.zipIdx.filter (fun p => p.1.state == 2 && decide (p.1.commitAt ≤ t))).map
    (fun p => (p.1.order, some p.2, p.1.staged))
  let ws := (c.odx.implicit.filter (fun w => decide (w.commitAt ≤ t))).map
    (fun w => (w.order, (none : Option Nat), ([(w.key, w.value)] : Table Nat)))
  (ss ++ ws).mergeSort (fun a b => decide (a.1 ≤ b.1))

/-- Whether the projected state at an instant, then these values, keeps every rule (R505). -/
def Chip.projectedOk (c : Chip) (t : Nat) (staged : Table Nat) : Bool :=
  let c' := (c.dueBy t).foldl (fun (c : Chip) (d : Nat × Option Nat × Table Nat) => c.overlay d.2.2) c
  (c'.overlay staged).consistent (staged.map (·.1))

/-- The first control tick at or after a time. -/
def Chip.tickFrom (c : Chip) (t : Nat) : Nat := c.controlRule.time (c.controlRule.index (max t (c.gridOf gridControl).after))

/-- An implicit write (R503). [DEDUCED: log 112] -/
def Chip.odxImplicit (c : Chip) (o : Origin) (index sub : Nat) (value : List Byte) (token : Nat) : Chip × OdxReply :=
  let st := c.entryCheck o index sub value false
  let key := entryKey index sub
  let t := c.tickFrom (c.now + 5000)
  if st != St.OK then c.odxRefuse st
  else if 64 ≤ c.odx.implicit.length then c.odxRefuse St.ODX_SESSION_FULL
  else match c.reservedUntil key 8 with
    | some t => c.odxRefuse St.BUSY (c.hintUs t)
    | none =>
      if c.projectedOk t [(key, leNat value)] then
        let w : Implicit := ⟨key, leNat value, t, c.odx.nextSeq, originPort o, originPath o, token⟩
        (c.setImplicit (c.odx.implicit ++ [w])).odxAccept o (stageRecord 15 index sub value token)
      else c.odxRefuse St.ODX_INCONSISTENT

/-! ## COMMIT and ABORT (R505, R507, R508) -/

/-- A repeated COMMIT or ABORT is answered as before. -/
def Chip.odxAgain (c : Chip) (last : Nat × Nat × Nat) : Chip × OdxReply :=
  (c.count R.ODX_DUP_CNT_COUNT, { status := last.2.1, seq := last.2.2 })

/-- Whether a request repeats the last accepted COMMIT, or ABORT, of a session's opening. -/
def Chip.repeats (c : Chip) (o : Origin) (n token : Nat) (last : Session → Option (Nat × Nat × Nat)) : Option (Nat × Nat × Nat) :=
  let s := c.session n
  match last s with
  | some l => if n < 8 ∧ s.owner = originPort o ∧ s.path = originPath o ∧ l.1 = token then some l else none
  | none => none

/-- COMMIT. -/
def Chip.odxCommitReq (c : Chip) (o : Origin) (n time token : Nat) : Chip × OdxReply :=
  match c.repeats o n token (·.lastCommit) with
  | some l => c.odxAgain l
  | none =>
    let s := c.session n
    if !c.owns o n || s.state != 1 then c.odxRefuse St.ODX_SESSION_STATE
    else
      let soonest := c.now + 5000
      let t := if time = 0 then c.tickFrom soonest else time
      if !c.projectedOk t s.staged then c.odxRefuse St.ODX_INCONSISTENT
      else if t < soonest then c.odxRefuse St.ODX_LATE_COMMIT
      else
        let seq := c.odx.nextSeq
        let c := c.setSession n (fun s => { s with state := 2, commitAt := t, order := seq, lastCommit := some (token, St.OK, seq) })
        (c.setEntry (0xA100 + n) 8 token).odxAccept o
          { kind := 4, session := n, count := s.staged.length, token := token, extra := t }

/-- ABORT. The management port may abort any session. -/
def Chip.odxAbortReq (c : Chip) (o : Origin) (n token : Nat) : Chip × OdxReply :=
  match c.repeats o n token (·.lastAbort) with
  | some l => c.odxAgain l
  | none =>
    let s := c.session n
    if !(c.owns o n || (originPort o == 2 && decide (n < 8) && s.state != 0)) || (s.state == 2 && decide (s.commitAt ≤ c.now)) then
      c.odxRefuse St.ODX_SESSION_STATE
    else
      let seq := c.odx.nextSeq
      let c := (c.freeSession n).setSession n (fun s => { s with lastAbort := some (token, St.OK, seq) })
      (c.setEntry (0xA100 + n) 8 token).odxAccept o { kind := 7, session := n, token := token }

/-! ## COMMAND entries and WRITE (R501, R503, R509, R518) -/

/-- NOTE. -/
def Chip.odxNoteReq (c : Chip) (o : Origin) (value : List Byte) (token : Nat) : Chip × OdxReply :=
  let st := c.entryCheck o 0xA001 1 value true
  if st != St.OK then c.odxRefuse st
  else c.odxAccept o { kind := 0x0A, index := 0xA001, sub := 1, token := token, payload := leNat value }

/-- SAVE (sub 1) and CLEAR_IMAGE (sub 2). -/
def Chip.odxImageReq (c : Chip) (o : Origin) (sub : Nat) (value : List Byte) (token : Nat) : Chip × OdxReply :=
  let st := c.entryCheck o 0xA002 sub value true
  let record : JournalFields := { kind := 9, index := 0xA002, sub := sub, token := token, payload := leNat value }
  if st != St.OK then c.odxRefuse st
  else if leNat value = 0 then c.odxAccept o record
  else if !(c.on R.KPR_STATUS_FLASH_OK) || !c.flash.parts.contains 5 then c.odxRefuse St.ODX_NO_IMAGE
  else if c.odx.saving.isSome then c.odxRefuse St.BUSY
  else
    let c := { c with odx := { c.odx with saving := some (sub == 1) } }
    (c.wr R.KPR_STATUS_SAVE_BUSY 1).odxAccept o record

/-- A write of OPEN at 0xA100 + n: the network's own way to open a session. -/
def Chip.odxOpenEntry (c : Chip) (o : Origin) (n token : Nat) : Chip × OdxReply :=
  let taken := originPort o == 1 && c.entry 0xA010 (originPath o) != 0xFF
  if n < 8 ∧ (c.session n).state = 0 ∧ !taken then c.openSession o n token else c.odxRefuse St.ODX_SESSION_STATE

/-- A write of COMMIT at 0xA100 + n. -/
def Chip.odxCommitEntry (c : Chip) (o : Origin) (n time token : Nat) : Chip × OdxReply :=
  let s := c.session n
  match s.lastCommit with
  | some l =>
    if originPort o = 1 ∧ c.owns o n ∧ s.state = 2 ∧ s.commitAt = time then c.odxAgain l else c.odxCommitReq o n time token
  | none => c.odxCommitReq o n time token

/-- A write to a COMMAND entry. -/
def Chip.odxCommand (c : Chip) (o : Origin) (index sub : Nat) (value : List Byte) (token : Nat) : Chip × OdxReply :=
  let st := c.entryCheck o index sub value true
  let v := leNat value
  if st != St.OK then c.odxRefuse st
  else if index = 0xA001 then c.odxNoteReq o value token
  else if index = 0xA002 then c.odxImageReq o sub value token
  else match sub with
    | 4 => c.odxOpenEntry o (index - 0xA100) v
    | 5 => c.odxCommitEntry o (index - 0xA100) v token
    | _ => c.odxAbortReq o (index - 0xA100) v

/-- WRITE. -/
def Chip.odxWriteReq (c : Chip) (o : Origin) (session index sub : Nat) (value : List Byte) (token : Nat) : Chip × OdxReply :=
  match findEntry index sub with
  | none => c.odxRefuse St.ODX_UNKNOWN_ENTRY
  | some e =>
    let n := if originPort o = 1 then c.entry 0xA010 (originPath o) else session
    if e.kind = 2 then c.odxCommand o index sub value token
    else if n = (if originPort o = 1 then 0xFF else 0x0F) then c.odxImplicit o index sub value token
    else if c.owns o n && (c.session n).state == 1 then c.stageInto o n index sub value token
    else c.odxRefuse St.ODX_SESSION_STATE

/-! ## The commands -/

/-- A request runs and is answered. -/
def Chip.odxRun (o : Origin) (r : Chip × OdxReply) : Chip := r.1.answer o r.2

/-- [DESIGN CHOICE: log 111] -/
def execOdxRead (origin : Origin) (session index sub : Nat) (storeUe : Bool) (s : State) : Host.Outcome State Fault Refusal :=
  s.runFor origin [.regs, .odx, .sent] (fun c => Chip.odxRun origin (c.odxReadReq origin session index sub storeUe))
/-- [DEDUCED: log 114] -/
def execOdxDescribe (origin : Origin) (index sub : Nat) (s : State) : Host.Outcome State Fault Refusal :=
  s.runFor origin [.regs, .sent] (fun c => Chip.odxRun origin (c.odxDescribeReq index sub))
/-- [DEDUCED: log 115] -/
def execOdxOpen (origin : Origin) (token : Word) (s : State) : Host.Outcome State Fault Refusal :=
  s.runFor origin [.regs, .dict, .odx, .sent] (fun c => Chip.odxRun origin (c.odxOpenReq origin token.toNat))
/-- [DESIGN CHOICE: log 111; DEDUCED: log 112] -/
def execOdxStage (origin : Origin) (session index sub : Nat) (value : List Byte) (token : Word) (s : State) :
    Host.Outcome State Fault Refusal :=
  s.runFor origin [.regs, .dict, .odx, .sent]
    (fun c => Chip.odxRun origin (c.odxStageReq origin session index sub value token.toNat))
/-- [DEDUCED: log 115] -/
def execOdxCommit (origin : Origin) (session : Nat) (time : BitVec 64) (token : Word) (s : State) :
    Host.Outcome State Fault Refusal :=
  s.runFor origin [.regs, .dict, .odx, .sent] (fun c => Chip.odxRun origin
    (if originPort origin = 1 then c.odxRefuse St.ODX_BAD_REQUEST else c.odxCommitReq origin session time.toNat token.toNat))
def execOdxAbort (origin : Origin) (session : Nat) (token : Word) (s : State) : Host.Outcome State Fault Refusal :=
  s.runFor origin [.regs, .dict, .odx, .sent] (fun c => Chip.odxRun origin
    (if originPort origin = 1 then c.odxRefuse St.ODX_BAD_REQUEST else c.odxAbortReq origin session token.toNat))
/-- [DEDUCED: log 112] -/
def execOdxWrite (origin : Origin) (session index sub : Nat) (value : List Byte) (token : Word) (s : State) :
    Host.Outcome State Fault Refusal :=
  s.runFor origin [.regs, .dict, .odx, .sent]
    (fun c => Chip.odxRun origin (c.odxWriteReq origin session index sub value token.toNat))

/-- The requester behind a network path. -/
def pathOrigin (path : Nat) : Origin := if path ≤ 0x40 then .net path else .can (path - 0x41)

/-- [DEDUCED: log 113] -/
def execNetSessionOpen (path session : Nat) (token : Word) (s : State) : Host.Outcome State Fault Refusal :=
  s.run [.regs, .dict, .odx, .sent]
    (fun c => Chip.odxRun (pathOrigin path) (c.odxOpenEntry (pathOrigin path) session token.toNat))
def execNetSessionCommit (path session : Nat) (token : Word) (time : BitVec 64) (s : State) : Host.Outcome State Fault Refusal :=
  s.run [.regs, .dict, .odx, .sent]
    (fun c => Chip.odxRun (pathOrigin path) (c.odxCommitEntry (pathOrigin path) session time.toNat token.toNat))
def execNetSessionAbort (path session : Nat) (token : Word) (s : State) : Host.Outcome State Fault Refusal :=
  s.run [.regs, .dict, .odx, .sent]
    (fun c => Chip.odxRun (pathOrigin path) (c.odxAbortReq (pathOrigin path) session token.toNat))
def execOdxNote (origin : Origin) (value : List Byte) (token : Word) (s : State) : Host.Outcome State Fault Refusal :=
  s.runFor origin [.regs, .dict, .odx, .sent] (fun c => Chip.odxRun origin (c.odxNoteReq origin value token.toNat))
/-- [DEDUCED: log 113] -/
def execOdxSave (origin : Origin) (token : Word) (s : State) : Host.Outcome State Fault Refusal :=
  s.runFor origin [.regs, .dict, .odx, .sent] (fun c => Chip.odxRun origin (c.odxImageReq origin 1 [1] token.toNat))
def execClearImage (origin : Origin) (token : Word) (s : State) : Host.Outcome State Fault Refusal :=
  s.runFor origin [.regs, .dict, .odx, .sent] (fun c => Chip.odxRun origin (c.odxImageReq origin 2 [1] token.toNat))

/-- SESSION_EXPIRE (R507). [DEDUCED: log 113] -/
def execSessionExpire (session : Nat) (s : State) : Host.Outcome State Fault Refusal :=
  s.runKeeper [.regs, .dict, .tku, .odx] (fun c =>
    let n := session % 8
    let ss := c.session n
    if ss.state != 1 then c
    else
      let c := (c.advanceTo (c.expiryOf ss)).freeSession n
      c.journal { kind := 8, port := ss.owner, session := n, path := journalPath ss.owner ss.path,
                  node := journalNode ss.owner ss.path, token := c.entry (0xA100 + n) 8 })

/-! ## Flash (R496, R516, R518) -/

/-- The entries that SAVE keeps: those with the SAVED right whose value is not their default. -/
def Chip.savedEntries (c : Chip) : Table Nat :=
  c.dict.filter (fun p =>
    match findEntry (p.1 / 256) (p.1 % 256) with
    | some e => e.saved && p.2 != e.default
    | none => false)

/-- SAVE_DONE (R518). [DEDUCED: log 114] -/
def execSaveDone (s : State) : Host.Outcome State Fault Refusal :=
  s.runKeeper [.regs, .odx, .flash] (fun c =>
    match c.odx.saving with
    | none => c
    | some save =>
      let c := { c with odx := { c.odx with saving := none },
                        flash := { c.flash with image := if save then some c.savedEntries else none } }
      c.wr R.KPR_STATUS_SAVE_BUSY 0)

/-- SEQ and KIND of a journal record. -/
def recSeq (r : Nat) : Nat := bits r 0 64
def recKind (r : Nat) : Nat := bits r 128 8

/-- JOURNAL_MIRROR (R516): the records of the masked kinds go to flash. Records that left the ring first are counted in one
MIRROR_GAP record. `readBackOk` is the result of the flash writes. -/
def execJournalMirror (readBackOk : Bool) (s : State) : Host.Outcome State Fault Refusal :=
  s.runKeeper [.regs, .dict, .odx, .flash] (fun c =>
    if !readBackOk || !(c.on R.KPR_STATUS_FLASH_OK) || !c.flash.parts.contains 6 then c
    else
      let oldest := c.odx.nextSeq - c.odx.journal.length
      let lost := oldest - (c.odx.mirrored + 1)
      let c := if lost = 0 then c else (c.journal { kind := 0x0C, extra := lost }).latch R.KPR_STATUS_MIRROR_LOST
      let new := (c.odx.journal.filter (fun r => decide (c.odx.mirrored < recSeq r))).filter
        (fun r => (c.entry 0xA000 4).testBit (recKind r))
      let c := { c with flash := { c.flash with journal := new ++ c.flash.journal },
                        odx := { c.odx with mirrored := c.odx.nextSeq - 1 } }
      match c.flash.journal.head? with
      | some r => c.setEntry 0xA000 3 (recSeq r)
      | none => c)

/-- The user tags that are not all zero. -/
def Chip.tags (c : Chip) : Table Nat :=
  c.dict.filter (fun p => decide (0x1F8000 ≤ p.1) && decide (p.1 < 0x1F8100))

/-- TAG_PERSIST (R496). [DEDUCED: log 114] -/
def execTagPersist (readBackOk : Bool) (s : State) : Host.Outcome State Fault Refusal :=
  s.runKeeper [.regs, .dict, .odx, .flash] (fun c =>
    match c.odx.tagsDue with
    | none => c
    | some seq =>
      let c := { c with odx := { c.odx with tagsDue := none } }
      if !(c.on R.KPR_STATUS_FLASH_OK) || !c.flash.parts.contains 2 then c
      else if readBackOk then
        ({ c with flash := { c.flash with tags := c.tags, tagsSeq := seq } }).setEntry 0x1F81 2 seq
      else c.latch R.KPR_STATUS_TAG_FAIL)

end Sys2Proof.Machine
end

