-- ==== Sys2Proof/Machine/Field.lean ====
section
/-!
DEFINITION. The field ports (chapter 18): Ethernet frames, gates and meters, the host rings, Gwepo and CAN FD.
-/
namespace Sys2Proof.Machine

def Chip.modFld (c : Chip) (f : Fld → Fld) : Chip := { c with fld := f c.fld }
def Chip.node (c : Chip) (d : Nat) : GwepoNode := (Table.get? c.fld.nodes d).getD ⟨none, none, false, false, 0, false, none⟩
def Chip.setNode (c : Chip) (d : Nat) (f : GwepoNode → GwepoNode) : Chip :=
  c.modFld (fun q => { q with nodes := Table.put q.nodes d (f (c.node d)) })

/-- Whether a field port runs (R521, R543). -/
def Chip.portOn (c : Chip) (n : Nat) : Bool := c.on R.FLD_CTRL_ENABLE && decide (n < 2) && c.portCfg n 1 != 0

/-- One bit of a two-bit field of FLD_STATUS. -/
def Chip.portBit (c : Chip) (f : Field) (n : Nat) : Bool := (c.rd f).testBit n
def Chip.setPortBit (c : Chip) (f : Field) (n : Nat) (v : Bool) : Chip := c.wr f (setBits (c.rd f) n 1 (b2n v))

/-- A frame leaves a port. -/
def Chip.sendFrame (c : Chip) (n : Nat) (bytes : List Byte) : Chip :=
  (c.count R.FLD_PORT_CNT_TX_FRAMES n).emit .field n 0 bytes

/-! ## Frames (R520, R525) -/

/-- A frame from its destination MAC onward, without FCS, taken apart: destination, source (first octet lowest), PCP and VID
where it is tagged, EtherType, and what follows it. -/
structure FrameParts where
  dest : Nat
  src : Nat
  tag : Option (Nat × Nat)
  etherType : Nat
  body : List Byte

/-- The parts of a frame. -/
def frameParts (f : List Byte) : FrameParts :=
  let ty := beNat ((f.drop 12).take 2)
  let tci := beNat ((f.drop 14).take 2)
  let dest := leNat (f.take 6)
  let src := leNat ((f.drop 6).take 6)
  if ty = 0x8100 then ⟨dest, src, some (tci / 8192, tci % 4096), beNat ((f.drop 16).take 2), f.drop 18⟩
  else ⟨dest, src, none, ty, f.drop 14⟩

/-- Whether the address filter of a port passes a destination. -/
def Chip.addressed (c : Chip) (n dest : Nat) : Bool := dest.testBit 0 || dest == c.portCfg n 3

/-! ## Gate lists and meters (R522, R524) -/

/-- The next change of a list: the entry that takes effect, and when; `state` is the entry in force with the time of the change
after it. -/
def nextEntry (state : Option (Nat × Nat)) (base cycle count list now : Nat) : Nat × Nat × Nat :=
  match state with
  | some (i, t) =>
    let j := (i + 1) % max count 1
    (j, t, t + listInterval list j)
  | none =>
    let t := if now ≤ base then base else base + ceilDiv (now - base) (max cycle 1) * max cycle 1
    (0, t, t + listInterval list 0)

/-- GATE_LIST_ENTRY (R522): the next entry of a port's Qbv list takes effect at its time. -/
def execGateListEntry (port : Nat) (s : State) : Host.Outcome State Fault Refusal :=
  s.run [.tku, .fld] (fun c =>
    let n := port % 2
    let e := c.entry (0x5480 + n)
    if !c.portOn n || e 1 == 0 then c
    else
      let r := nextEntry (Table.get? c.fld.qbv n) (e 2) (e 3) (e 4) (e 5) c.now
      (c.advanceTo r.2.1).modFld (fun q => { q with qbv := Table.put q.qbv n (r.1, r.2.2) }))

/-- Whether a class's gate is open: always, while no list runs. -/
def Chip.gateOpen (c : Chip) (n cls : Nat) : Bool :=
  match Table.get? c.fld.qbv n with
  | some (i, _) => c.entry (0x5480 + n) 1 == 0 || (bits (c.entry (0x5480 + n) 5) (32 * i) 8).testBit cls
  | none => true

/-- Whether a frame of `bytes` with FCS would end before its gate may close: length-aware transmission (R520). -/
def Chip.fitsGate (c : Chip) (n bytes : Nat) : Bool :=
  match Table.get? c.fld.qbv n with
  | some (_, t) => c.entry (0x5480 + n) 1 == 0 || decide (10 * c.now + c.wireTenths n bytes ≤ 10 * t)
  | none => true

/-- The gate record of stream gate `g` of a port. -/
def Chip.gateRecord (c : Chip) (n g : Nat) : Nat := bits (c.entry (0x54A0 + n) (3 + g / 8)) (1024 * (g % 8)) 1024

/-- STREAM_GATE_ENTRY (R524). [DEDUCED: log 121] -/
def execStreamGateEntry (port gate : Nat) (s : State) : Host.Outcome State Fault Refusal :=
  s.run [.tku, .fld] (fun c =>
    let n := port % 2
    let g := gate % 32
    let r := c.gateRecord n g
    if !c.portOn n || c.entry (0x54A0 + n) 1 == 0 || bits r 544 8 == 0 then c
    else
      let x := nextEntry (Table.get? c.fld.gates (32 * n + g)) (bits r 576 64) (bits r 512 32) (bits r 544 8) r c.now
      (c.advanceTo x.2.1).modFld (fun q => { q with gates := Table.put q.gates (32 * n + g) (x.1, x.2.2) }))

/-- The list entry of a stream gate in force, if its list has started. -/
def Chip.gateEntry (c : Chip) (n g : Nat) : Option Nat :=
  (Table.get? c.fld.gates (32 * n + g)).map (fun p => bits (c.gateRecord n g) (32 * p.1) 32)

/-- A frame of `bytes` meets a flow meter: whether it passes (green or yellow), and the chip with the bucket drawn.
[PRESUMED: log 120] -/
def Chip.meterPass (c : Chip) (n m bytes : Nat) : Chip × Bool :=
  let r := bits (c.entry (0x54A0 + n) 7) (128 * m) 128
  let cir := bits r 0 32
  let cbs := 8000000 * bits r 32 32
  let eir := bits r 64 32
  let ebs := 8000000 * bits r 96 32
  let now := (c.unstepped c.now).toNat
  let q := (Table.get? c.fld.meters (32 * n + m)).getD ⟨cbs, ebs, now⟩
  let dt := now - q.filledAt
  let c0 := min cbs (q.committed + cir * dt)
  let e0 := min ebs (q.excess + eir * dt)
  let need := 8000000 * bytes
  let put := fun (a b : Nat) => c.modFld (fun f => { f with meters := Table.put f.meters (32 * n + m) ⟨a, b, now⟩ })
  if need ≤ c0 then (put (c0 - need) e0, true)
  else if need ≤ e0 then (put c0 (e0 - need), true)
  else (put c0 e0, false)

/-- Stream filtering of a frame (R524): dropped, or passed with its class. -/
def Chip.streamFilter (c : Chip) (n : Nat) (p : FrameParts) (bytes cls : Nat) : Chip × Option Nat :=
  if c.entry (0x54A0 + n) 1 = 0 then (c, some cls)
  else
    let vid := match p.tag with | some t => t.2 | none => 0
    let recs := (List.range 64).map (fun i => bits (c.entry (0x54A0 + n) 2) (128 * i) 128)
    match recs.find? (fun f => f.testBit 60 && bits f 0 48 == p.dest && bits f 48 12 == vid) with
    | none => (c, some cls)
    | some f =>
      let drop := fun (c : Chip) => (c.count R.FLD_PORT_CNT_QCI_DROP n, (none : Option Nat))
      let entry := if f.testBit 69 then none else c.gateEntry n (bits f 64 5)
      let shut := match entry with | some e => !e.testBit 0 | none => false
      let cls := match entry with | some e => if e.testBit 4 then bits e 1 3 else cls | none => cls
      if (bits f 80 16 != 0 && decide (bits f 80 16 < bytes)) || shut then drop c
      else if f.testBit 75 then (c, some cls)
      else
        let r := c.meterPass n (bits f 70 5) bytes
        if r.2 then (r.1, some cls) else drop r.1

/-! ## Host rings (R526) -/

/-- A ring: its base and number of entries, from its register block (`tx` the transmit ring). -/
def Chip.ringBase (c : Chip) (tx : Bool) (n : Nat) : Nat :=
  if tx then c.rd R.FLD_HTX_BASE_LO_ADDR_LO n + (c.rd R.FLD_HTX_BASE_HI_ADDR_HI n <<< 32)
  else c.rd R.FLD_HRX_BASE_LO_ADDR_LO n + (c.rd R.FLD_HRX_BASE_HI_ADDR_HI n <<< 32)
def Chip.ringEntries (c : Chip) (tx : Bool) (n : Nat) : Nat :=
  let z := if tx then c.rd R.FLD_HTX_CFG_SIZE n else c.rd R.FLD_HRX_CFG_SIZE n
  2 ^ (if z < 4 ∨ 12 < z then 4 else z)
def Chip.ringSlot (c : Chip) (tx : Bool) (n i : Nat) : Nat := c.ringBase tx n + 32 * (i % c.ringEntries tx n)

/-- Entries between CONS and PROD. -/
def Chip.ringLevel (c : Chip) (tx : Bool) (n : Nat) : Nat :=
  let d := fun (p q : Nat) => (p + 2 ^ 32 - q) % 2 ^ 32
  if tx then d (c.rd R.FLD_HTX_PROD_PROD n) (c.rd R.FLD_HTX_CONS_CONS n)
  else d (c.rd R.FLD_HRX_PROD_PROD n) (c.rd R.FLD_HRX_CONS_CONS n)

/-- The KB9 reads the next transmit descriptor, if one waits and none is read: it accepts the frame (R483). -/
def Chip.readTxHead (c : Chip) (n : Nat) : Chip :=
  if (Table.get? c.fld.txHead n).isSome || !(c.on R.FLD_HTX_CFG_ENABLE n) || !c.portOn n || c.ringLevel true n == 0 then c
  else
    let r := c.devRead (c.ringSlot true n (c.rd R.FLD_HTX_CONS_CONS n)) 32
    let d := leNat r.2.2
    let c := r.1.modFld (fun q => { q with txHead := Table.put q.txHead n d })
    if d.testBit 54 then c.txtsAccept (bits d 64 16) else c

/-- HOST_TX_PROD: a write of PROD of a transmit ring. -/
def Chip.hostTxProd (c : Chip) (n value : Nat) : Chip :=
  if c.ringEntries true n < (value + 2 ^ 32 - c.rd R.FLD_HTX_CONS_CONS n) % 2 ^ 32 then c
  else (c.wr R.FLD_HTX_PROD_PROD value n).readTxHead n
/-- [DEDUCED: log 122] -/
def execHostTxProd (port : Nat) (value : Word) (s : State) : Host.Outcome State Fault Refusal :=
  s.runHost [.regs, .tku, .msl, .drc, .fld, .sent] (fun c => c.hostTxProd (port % 2) value.toNat)

/-- A write of PROD of a receive ring. -/
def Chip.hostRxProd (c : Chip) (n value : Nat) : Chip :=
  if c.ringEntries false n < (value + 2 ^ 32 - c.rd R.FLD_HRX_CONS_CONS n) % 2 ^ 32 then c
  else c.wr R.FLD_HRX_PROD_PROD value n

/-- A write of a ring's CFG: ENABLE written 1 clears both counts; SIZE is kept while ENABLE is 1. -/
def Chip.ringCfg (c : Chip) (tx : Bool) (n value : Nat) : Chip :=
  let en := if tx then R.FLD_HTX_CFG_ENABLE else R.FLD_HRX_CFG_ENABLE
  let size := if tx then R.FLD_HTX_CFG_SIZE else R.FLD_HRX_CFG_SIZE
  let c := if c.on en n then c else c.wr size (bits value 1 4) n
  let c := c.wr en (bits value 0 1) n
  let c := if value.testBit 0 then
      (if tx then (c.wr R.FLD_HTX_PROD_PROD 0 n).wr R.FLD_HTX_CONS_CONS 0 n
       else (c.wr R.FLD_HRX_PROD_PROD 0 n).wr R.FLD_HRX_CONS_CONS 0 n)
    else c
  if tx then c.modFld (fun q => { q with txHead := Table.del q.txHead n }) else c

/-- Whether the KB9 drops a host frame instead of sending it. -/
def Chip.txDropped (c : Chip) (n d : Nat) (frame : List Byte) : Bool :=
  let len := bits d 40 11
  let ty := (frameParts frame).etherType
  !(decide (60 ≤ len) && decide (len ≤ 1518)) || bits d 51 3 == c.portCfg n 5 || ty == 0x88B5 ||
  (ty == 0x88F7 && c.entryOn 0x5001 1 && c.entry 0x5001 3 == n)

/-- HOST_TX_FRAME_DONE: the frame at the head of the transmit ring leaves, through its open gate, or is dropped.
[DEDUCED: log 122] -/
def execHostTxFrameDone (port : Nat) (s : State) : Host.Outcome State Fault Refusal :=
  s.run [.regs, .muslin, .tku, .msl, .drc, .fld, .sent] (fun c =>
    let n := port % 2
    match Table.get? c.fld.txHead n with
    | none => c
    | some d =>
      if !c.portOn n || !(c.on R.FLD_HTX_CFG_ENABLE n) then c
      else
        let len := bits d 40 11
        let r := c.devRead (bits d 0 40) len
        let frame := r.2.2
        let dropped := r.2.1 != 0 || r.1.txDropped n d frame
        if !dropped && !(c.gateOpen n (bits d 51 3) && c.fitsGate n (len + 4)) then c
        else
          let c := if dropped then (r.1.count R.FLD_PORT_CNT_HOST_TX_DROP n).latch R.FLD_STATUS_HOST_DROP
            else r.1.sendFrame n frame
          let at_ := c.ringSlot true n (c.rd R.FLD_HTX_CONS_CONS n)
          let d' := setBits d 55 2 (1 + 2 * b2n dropped)
          let c := (c.devWrite at_ (leBytes 32 d')).1
          let c := c.count R.FLD_HTX_CONS_CONS n
          (c.modFld (fun q => { q with txHead := Table.del q.txHead n })).readTxHead n)

/-- A received frame goes to the host ring, or is dropped. -/
def Chip.hostReceive (c : Chip) (n : Nat) (frame : List Byte) (cls : Nat) : Chip :=
  if !(c.on R.FLD_HRX_CFG_ENABLE n) || c.ringLevel false n == 0 then
    (c.count R.FLD_PORT_CNT_HOST_RX_DROP n).latch R.FLD_STATUS_HOST_DROP
  else
    let at_ := c.ringSlot false n (c.rd R.FLD_HRX_CONS_CONS n)
    let r := c.devRead at_ 32
    let buf := bits (leNat r.2.2) 0 40
    let c := (r.1.devWrite buf frame).1
    let d := buf + ((frame.length % 2048) <<< 40) + (1 <<< 51) + (c.stamp <<< 64) + (cls <<< 96)
    (c.devWrite at_ (leBytes 32 d)).1.count R.FLD_HRX_CONS_CONS n

/-- FIELD_FRAME_RX (R525). A frame for Gwepo, or for the PTP engine, takes its effect there by a command of its own.
[DEDUCED: log 121, 125] -/
def execFieldFrameRx (port : Nat) (frame : List Byte) (fcsOk : Bool) (s : State) : Host.Outcome State Fault Refusal :=
  s.run [.regs, .muslin, .msl, .drc, .fld, .sent] (fun c =>
    let n := port
    let p := frameParts frame
    if !c.portOn n || !c.addressed n p.dest || p.etherType == 0x8808 then c
    else
      let c := c.count R.FLD_PORT_CNT_RX_FRAMES n
      if !fcsOk then c.count R.FLD_PORT_CNT_FCS_ERR n
      else if 1518 < frame.length then (c.count R.FLD_PORT_CNT_HOST_RX_DROP n).latch R.FLD_STATUS_HOST_DROP
      else
        let cls := match p.tag with | some t => t.1 | none => 0
        let r := c.streamFilter n p (frame.length + 4) cls
        match r.2 with
        | none => r.1
        | some cls =>
          if p.etherType == 0x88B5 && !(c.nodesOf n).isEmpty then r.1
          else if p.etherType == 0x88F7 && c.entryOn 0x5001 1 && c.entry 0x5001 3 == n then r.1
          else r.1.hostReceive n frame cls)

/-- PREEMPT_VERIFY_DONE (R523). -/
def execPreemptVerifyDone (port : Nat) (s : State) : Host.Outcome State Fault Refusal :=
  s.run [.regs] (fun c =>
    let n := port % 2
    if c.portOn n && c.entryOn (0x5490 + n) 1 && c.entryOn (0x5490 + n) 4 then c.setPortBit R.FLD_STATUS_PREEMPT_ACTIVE n true
    else c)

/-- ETHERNET_LINK_CHANGE (R543, R638): a field port's, or a sensor port's, link. [DEDUCED: log 123; DESIGN CHOICE: log 163] -/
def execEthernetLinkChange (field : Bool) (port : Nat) (up : Bool) (s : State) : Host.Outcome State Fault Refusal :=
  s.run [.regs, .fld] (fun c =>
    if field then c.setPortBit R.FLD_STATUS_LINK_UP (port % 2) up
    else c.modFld (fun q => { q with sensorLink := modifyNth q.sensorLink port (fun _ => up) }))

/-! ## Gwepo (R527 to R538) -/

/-- A Gwepo frame of a port, padded to 60 B without FCS. -/
def Chip.gwepoBytes (c : Chip) (n dest ty node : Nat) (payload : List Byte) : List Byte :=
  let vid := c.portCfg n 4
  let tag := if vid = 0xFFFF then [] else beBytes 2 0x8100 ++ beBytes 2 (c.portCfg n 5 * 8192 + vid)
  let header := [BitVec.ofNat 8 (16 + ty), 0, BitVec.ofNat 8 node, 0] ++ beBytes 4 (c.rd R.FLD_CYCLE_CYCLE) ++
    beBytes 2 payload.length ++ beBytes 2 0
  let f := leBytes 6 dest ++ leBytes 6 (c.portCfg n 3) ++ tag ++ beBytes 2 0x88B5 ++ header ++ payload
  f ++ List.replicate (60 - f.length) 0

/-- The verdict copy in the output image (R529). -/
def Chip.copyVerdict (c : Chip) : Chip :=
  let o := c.entry 0x5410 5
  if o = 0xFFFF then c
  else
    let sub := 1 + o / 256
    c.setEntry 0x7400 sub (setBits (c.entry 0x7400 sub) (8 * (o % 256)) 64 (c.entry 0x7C00 1))

/-- `n` bytes of an image from `start`. -/
def Chip.imageBytes (c : Chip) (image start n : Nat) : List Byte :=
  (List.range n).map (fun i => BitVec.ofNat 8 (c.entryByte image (1 + (start + i) / 256) ((start + i) % 256)))

/-- Bytes put into an image from `start`. -/
def Chip.imagePut (c : Chip) (image start : Nat) (bs : List Byte) : Chip :=
  bs.zipIdx.foldl (fun (c : Chip) (p : Byte × Nat) =>
    let o := start + p.2
    c.setEntry image (1 + o / 256) (setBits (c.entry image (1 + o / 256)) (8 * (o % 256)) 8 p.1.toNat)) c

/-- The node to be granted the acyclic window: the next one after the last granted, among those that ask (R537). -/
def Chip.gwepoGrant (c : Chip) : Nat :=
  if c.fld.response.isSome then 0
  else
    let asks := fun d => c.nodeCfg d 1 != 0 && c.entry (0x7420 + d) 1 == 1 && c.nodeCfg d 0x0A != 0 && (c.node d).pend
    let order := (List.range 64).map (fun k => (c.fld.lastGranted + k) % 64)
    match order.find? asks with
    | some d => d + 1
    | none => 0

/-- A Gwepo cycle starts at the control tick `t` (R529, R531). -/
def Chip.gwepoCycle (c : Chip) (t : Nat) : Chip :=
  if !(c.on R.FLD_CTRL_ENABLE && c.gwepoOn) then c
  else
    let g := c.gwepoGrant
    let c := (c.wr R.FLD_CYCLE_CYCLE (t / c.controlPeriod)).copyVerdict
    c.modFld (fun q => { q with
      cycle := some t, synced := [], unsynced := [], granted := g, lastGranted := if g = 0 then q.lastGranted else g,
      nodes := q.nodes.map (fun (p : Nat × GwepoNode) => (p.1, { p.2 with sfd := none, fcs := none, out := false, decided := false })) })

/-- GWEPO_SYNC_TX (R530, R531). `sfdNs` is when the SFD can leave, after the cycle start. -/
def execGwepoSyncTx (port sfdNs : Nat) (s : State) : Host.Outcome State Fault Refusal :=
  s.run [.regs, .tku, .fld, .sent] (fun c =>
    let n := port % 2
    match c.fld.cycle with
    | none => c
    | some t =>
      if !c.portOn n || (c.nodesOf n).isEmpty || c.fld.synced.contains n || c.fld.unsynced.contains n then c
      else if sfdNs ≤ 1200 ∧ c.portBit R.FLD_STATUS_LINK_UP n then
        let payload := beBytes 8 t ++ beBytes 4 c.controlPeriod ++ leBytes 8 (c.entry 0x7C00 1) ++
          [BitVec.ofNat 8 c.fld.granted] ++ List.replicate 11 0
        let c := (c.advanceTo (t + sfdNs)).sendFrame n (c.gwepoBytes n (c.portCfg n 6) 1 0xFF payload)
        c.modFld (fun q => { q with synced := n :: q.synced })
      else
        let c := (c.advanceTo (t + 1200)).count R.FLD_PORT_CNT_NO_SYNC n
        c.modFld (fun q => { q with unsynced := n :: q.unsynced }))

/-- A Gwepo header, from VERSION on. -/
def gwepoHeader (b : List Byte) : Nat × Nat × Nat × Nat × Nat :=
  let at_ := fun i n => beNat ((b.drop i).take n)
  (at_ 0 1, at_ 1 1, at_ 2 1, at_ 4 4, at_ 8 2)

/-- GWEPO_IN_HEADER (R532, R533). `header` is the frame from its destination MAC to the end of the Gwepo header, `sfdNs` its SFD
after the cycle start, and `turnNs` how long after that SFD the transmitter can start the OUT frame. [DEDUCED: log 125] -/
def execGwepoInHeader (node sfdNs turnNs : Nat) (header : List Byte) (s : State) : Host.Outcome State Fault Refusal :=
  s.run [.regs, .dict, .tku, .fld, .sent] (fun c =>
    let d := node % 64
    let e := c.nodeCfg d
    let n := e 2
    match c.fld.cycle with
    | none => c
    | some t =>
      if !c.portOn n || e 1 == 0 then c
      else
        let c := c.advanceTo (t + sfdNs)
        let p := frameParts header
        let h := gwepoHeader p.body
        let ok := decide (e 4 ≤ sfdNs) && decide (sfdNs < e 4 + e 5) && p.src == e 3 && p.etherType == 0x88B5 && h.1 == 0x12 &&
          h.2.2.1 == d + 1 && h.2.2.2.1 == c.rd R.FLD_CYCLE_CYCLE && h.2.2.2.2 == e 7 && (c.node d).sfd.isNone
        if !ok then c.count R.FLD_PORT_CNT_IN_BAD n
        else
          let sent := decide (turnNs ≤ 1200)
          let c := c.setNode d (fun q => { q with sfd := some (t + sfdNs), out := sent, pend := h.2.1.testBit 0 })
          let c := c.setEntry (0x7420 + d) 6 (t + sfdNs)
          if sent then
            let c := c.setEntry (0x7420 + d) 5 (max (c.entry (0x7420 + d) 5) (min turnNs 65535))
            c.sendFrame n (c.gwepoBytes n (e 3) 3 (d + 1) (c.imageBytes 0x7400 (e 8) (e 9)))
          else c.count R.FLD_PORT_CNT_OUT_LATE n)

/-- GWEPO_IN_FRAME_END (R535). -/
def execGwepoInFrameEnd (node : Nat) (fcsOk : Bool) (payload : List Byte) (s : State) : Host.Outcome State Fault Refusal :=
  s.run [.regs, .dict, .fld] (fun c =>
    let d := node % 64
    let q := c.node d
    let e := c.nodeCfg d
    if q.sfd.isNone || q.fcs.isSome then c
    else
      let c := c.setNode d (fun q => { q with fcs := some fcsOk, pend := fcsOk && q.pend })
      if fcsOk then c.imagePut 0x7410 (e 6) (payload.take (e 7)) else c.count R.FLD_PORT_CNT_IN_BAD (e 2))

/-- GWEPO_IN_WINDOW_CLOSE (R536): the cycle's outcome for a node. -/
def execGwepoInWindowClose (node : Nat) (s : State) : Host.Outcome State Fault Refusal :=
  s.run [.regs, .dict, .tku, .fld, .sent] (fun c =>
    let d := node % 64
    let q := c.node d
    let e := c.nodeCfg d
    let pv := 0x7420 + d
    match c.fld.cycle with
    | none => c
    | some t =>
      if !c.portOn (e 2) || e 1 == 0 || q.decided || (q.sfd.isSome && q.fcs.isNone) then c
      else
        let c := (c.advanceTo (t + e 4 + e 5)).setNode d (fun q => { q with decided := true })
        let cause := if !c.fld.synced.contains (e 2) then 1 else if q.sfd.isNone then 2 else if q.fcs != some true then 3
          else if !q.out then 4 else 0
        let lost := fun (c : Chip) (v : Bool) =>
          c.wr R.FLD_NODE_LOST_LOST (setBits (c.rd R.FLD_NODE_LOST_LOST (d / 32)) (d % 32) 1 (b2n v)) (d / 32)
        if cause = 0 then
          let c := (c.setNode d (fun q => { q with fails := 0 })).countEntry pv 2
          lost (c.setEntry pv 1 1) false
        else
          let c := (c.setNode d (fun q => { q with fails := q.fails + 1 })).countEntry pv 3
          let c := (c.setEntry pv 4 cause).latch R.FLD_STATUS_CYCLE_FAIL
          let c := if cause = 2 then c.count R.FLD_PORT_CNT_IN_MISSING (e 2) else c
          if c.entry 0x5410 2 ≤ (c.node d).fails ∧ c.entry pv 1 ≠ 2 then
            ((lost (c.setEntry pv 1 2) true).latch R.FLD_STATUS_NODE_LOST).raise 16
          else c)

/-- What an acyclic request asks of the dictionary. -/
def Chip.acyclicRun (c : Chip) (o : Origin) (op index sub token : Nat) (value : List Byte) : Chip × OdxReply :=
  match op with
  | 1 => c.odxReadReq o 15 index sub false
  | 2 => c.odxDescribeReq index sub
  | 7 => c.odxWriteReq o 15 index sub value token
  | _ => c.odxRefuse St.ODX_BAD_REQUEST

/-- The request is executed, and its response kept and queued. -/
def Chip.acyclicAnswer (c : Chip) (d : Nat) (key : Nat × Nat × Nat × Nat) (value : List Byte) : Chip :=
  let r := c.acyclicRun (.net (d + 1)) key.2.1 key.2.2.1 key.2.2.2 key.1 value
  let a := r.2
  let bytes := [BitVec.ofNat 8 key.2.1, BitVec.ofNat 8 key.2.2.2] ++ beBytes 2 key.2.2.1 ++ beBytes 4 key.1 ++
    beBytes 2 a.data.length ++ beBytes 2 a.status ++ beBytes 4 a.hint ++ beBytes 8 a.seq ++ a.data
  let c := r.1.setNode d (fun q => { q with kept := some (key, bytes) })
  c.modFld (fun q => { q with response := some (d, bytes, c.now) })

/-- GWEPO_ACYC_REQ (R537, R538). `request` is the frame from its Gwepo header on, `sfdNs` its SFD after the cycle start. -/
def execGwepoAcycReq (node sfdNs : Nat) (request : List Byte) (s : State) : Host.Outcome State Fault Refusal :=
  s.run [.regs, .dict, .tku, .fld, .odx, .sent] (fun c =>
    let d := node % 64
    let h := gwepoHeader request
    let b := request.drop 12
    let at_ := fun i n => beNat ((b.drop i).take n)
    let len := at_ 8 2
    match c.fld.cycle with
    | none => c
    | some t =>
      if !c.portOn (c.nodeCfg d 2) || c.nodeCfg d 1 == 0 then c
      else
        let c := c.advanceTo (t + sfdNs)
        let ok := c.fld.granted == d + 1 && decide (c.entry 0x5410 3 ≤ sfdNs) &&
          decide (sfdNs < c.entry 0x5410 3 + c.entry 0x5410 4) && h.1 == 0x14 && h.2.2.1 == d + 1 &&
          h.2.2.2.2 == 12 + len && decide (12 + len ≤ b.length)
        if !ok then c.count R.FLD_PORT_CNT_IN_BAD (c.nodeCfg d 2)
        else
          let c := c.modFld (fun q => { q with granted := 0 })
          let op := at_ 0 1
          let sub := at_ 1 1
          let index := at_ 2 2
          let token := at_ 4 4
          let key := (token, op, index, sub)
          match (c.node d).kept with
          | some k =>
            if k.1 = key then
              (c.countEntry (0x7420 + d) 7).modFld (fun q => { q with response := some (d, k.2, c.now) })
            else c.acyclicAnswer d key ((b.drop 12).take len)
          | none => c.acyclicAnswer d key ((b.drop 12).take len))
/-- GWEPO_ACYC_RSP_TX (R537): the response leaves at the start of the first acyclic window after its request completed. -/
def execGwepoAcycRspTx (s : State) : Host.Outcome State Fault Refusal :=
  s.run [.regs, .tku, .fld, .sent] (fun c =>
    match c.fld.cycle, c.fld.response with
    | some t, some (d, bytes, at_) =>
      let w := t + c.entry 0x5410 3
      let n := c.nodeCfg d 2
      if w < at_ || !c.portOn n then c
      else
        let c := (c.advanceTo w).sendFrame n (c.gwepoBytes n (c.nodeCfg d 3) 5 (d + 1) bytes)
        c.modFld (fun q => { q with response := none })
    | _, _ => c)

/-! ## CAN FD (R539 to R542) -/

def Chip.canCfg (c : Chip) (k s : Nat) : Nat := c.entry (0x5500 + k) s

/-- Whether a controller runs. -/
def Chip.canOn (c : Chip) (k : Nat) : Bool := c.on R.FLD_CTRL_ENABLE && decide (k < 4) && c.canCfg k 1 != 0

/-- Eight bytes leave on a controller's answer identifier. -/
def Chip.sdoSend (c : Chip) (k : Nat) (data : List Byte) : Chip :=
  c.emit .canBus k (0x580 + c.canCfg k 2) (data ++ List.replicate (8 - data.length) 0)

def Chip.setSdo (c : Chip) (k : Nat) (t : Option SdoTransfer) : Chip :=
  c.modFld (fun q => { q with sdo := match t with | some t => Table.put q.sdo k t | none => Table.del q.sdo k })

/-- An SDO abort: the transfer ends, and the code leaves (R542). -/
def Chip.sdoAbort (c : Chip) (k index sub code : Nat) : Chip :=
  ((c.setSdo k none).count R.FLD_CAN_ABORTS k).sdoSend k
    ([0x80] ++ leBytes 2 index ++ [BitVec.ofNat 8 sub] ++ leBytes 4 code)

/-- The abort code of a status, on a write or a read. -/
def sdoCode (st index : Nat) (write : Bool) : Nat :=
  if st = St.ODX_UNKNOWN_ENTRY then
    (if entryTable.any (fun e => decide (e.index ≤ index) && decide (index < e.index + e.count)) then 0x06090011 else 0x06020000)
  else if st = St.ODX_NO_ACCESS then (if write then 0x06010002 else 0x06010001)
  else if st = St.ODX_BAD_LENGTH then 0x06070010
  else if st = St.ODX_OUT_OF_RANGE then 0x06090030
  else if st = St.ODX_ENTRY_LIMIT ∨ st = St.ODX_SESSION_FULL then 0x05040005
  else if [St.BUSY, St.ODX_SESSION_STATE, St.ODX_INCONSISTENT, St.ODX_LATE_COMMIT].contains st then 0x08000022
  else 0x08000000

/-- Whether a status lets an SDO transfer go on: classes OK and NOTE. -/
def sdoGood (st : Nat) : Bool := statusClass st == 0 || statusClass st == 1

/-- The model's time that steps leave unmoved. -/
def Chip.steady (c : Chip) : Nat := (c.unstepped c.now).toNat

/-- The value of a download is written (R541). -/
def Chip.sdoWrite (c : Chip) (k index sub : Nat) (value : List Byte) (ok : List Byte) : Chip :=
  let r := c.odxWriteReq (.can k) 15 index sub value 0
  let c := (r.1.setSdo k none).wr R.FLD_CAN_LAST_STATUS r.2.status k
  if sdoGood r.2.status then c.sdoSend k ok else c.sdoAbort k index sub (sdoCode r.2.status index true)

/-- An initiation: download (1) or upload (2). -/
def Chip.sdoInitiate (c : Chip) (k : Nat) (fd upload : Bool) (b : List Byte) : Chip :=
  let cmd := leNat (b.take 1)
  let index := leNat ((b.drop 1).take 2)
  let sub := leNat ((b.drop 3).take 1)
  let c := c.setSdo k none
  let mux := leBytes 2 index ++ [BitVec.ofNat 8 sub]
  if upload then
    let r := c.odxReadReq (.can k) 15 index sub false
    let c := r.1.wr R.FLD_CAN_LAST_STATUS r.2.status k
    let v := r.2.data
    if !sdoGood r.2.status then c.sdoAbort k index sub (sdoCode r.2.status index false)
    else if v.length ≤ 4 then c.sdoSend k ([BitVec.ofNat 8 (0x43 + 4 * (4 - v.length))] ++ mux ++ v)
    else (c.setSdo k (some ⟨true, index, sub, v, none, false, fd, c.steady⟩)).sdoSend k ([0x41] ++ mux ++ leBytes 4 v.length)
  else if cmd.testBit 1 then
    let n := if cmd.testBit 0 then 4 - bits cmd 2 2 else min (((findEntry index sub).map (·.size)).getD 4) 4
    c.sdoWrite k index sub ((b.drop 4).take n) ([0x60] ++ mux)
  else
    let size := if cmd.testBit 0 then some (leNat ((b.drop 4).take 4)) else none
    (c.setSdo k (some ⟨false, index, sub, [], size, false, fd, c.steady⟩)).sdoSend k ([0x60] ++ mux)

/-- A segment: of a download (0) or an upload (3). -/
def Chip.sdoSegment (c : Chip) (k : Nat) (upload : Bool) (b : List Byte) : Chip :=
  let cmd := leNat (b.take 1)
  match Table.get? c.fld.sdo k with
  | none => c.sdoAbort k 0 0 0x05040001
  | some t =>
    if t.upload != upload then c.sdoAbort k t.index t.sub 0x05040001
    else if cmd.testBit 4 != t.toggle then c.sdoAbort k t.index t.sub 0x05030000
    else if upload then
      let seg := t.data.take 7
      let rest := t.data.drop 7
      let last := rest.isEmpty
      let head := 16 * b2n t.toggle + 2 * (7 - seg.length) + b2n last
      let c := c.setSdo k (if last then none else some { t with data := rest, toggle := !t.toggle, lastAt := c.steady })
      c.sdoSend k (BitVec.ofNat 8 head :: seg)
    else
      let data := t.data ++ (b.drop 1).take (7 - bits cmd 1 3)
      let ok : List Byte := [BitVec.ofNat 8 (0x20 + 16 * b2n t.toggle)]
      if cmd.testBit 0 then
        match t.size with
        | some n =>
          if n = data.length then c.sdoWrite k t.index t.sub data ok
          else c.sdoAbort k t.index t.sub 0x06070010
        | none => c.sdoWrite k t.index t.sub data ok
      else (c.setSdo k (some { t with data := data, toggle := !t.toggle, lastAt := c.steady })).sdoSend k ok

/-- SDO_REQUEST (R541): a frame on 0x600 + NODE_ID. [DEDUCED: log 123; PRESUMED: log 124] -/
def execSdoRequest (ctl : Nat) (canFd : Bool) (data : List Byte) (s : State) : Host.Outcome State Fault Refusal :=
  s.run [.regs, .dict, .fld, .odx, .sent] (fun c =>
    let k := ctl
    if !c.canOn k || c.rd R.FLD_CAN_STATE k == 2 || (canFd && c.canCfg k 4 == 0) then c
    else if data.length != 8 then c.count R.FLD_CAN_IGNORED k
    else
      let c := c.count R.FLD_CAN_SDO_REQS k
      let cmd := leNat (data.take 1)
      match bits cmd 5 3 with
      | 0 => c.sdoSegment k false data
      | 1 => c.sdoInitiate k canFd false data
      | 2 => c.sdoInitiate k canFd true data
      | 3 => c.sdoSegment k true data
      | 4 => c.setSdo k none
      | _ => c.sdoAbort k (leNat ((data.drop 1).take 2)) (leNat ((data.drop 3).take 1)) 0x05040001)

/-- SDO_SEGMENT_TIMEOUT (R541). -/
def execSdoSegmentTimeout (ctl : Nat) (s : State) : Host.Outcome State Fault Refusal :=
  s.run [.regs, .tku, .fld, .sent] (fun c =>
    match Table.get? c.fld.sdo ctl with
    | some t =>
      let c := c.advanceTo ((t.lastAt + 1000000000 : Nat) + c.tku.shift / 2 ^ 32).toNat
      c.sdoAbort ctl t.index t.sub 0x05040000
    | none => c)

/-- CAN_HEARTBEAT (R540). -/
def execCanHeartbeat (ctl : Nat) (s : State) : Host.Outcome State Fault Refusal :=
  s.run [.tku, .fld, .sent] (fun c =>
    let p := 1000000 * c.entry 0x1017 0
    if !c.canOn ctl || p == 0 || c.rd R.FLD_CAN_STATE ctl == 2 then c
    else
      let due := Table.getD c.fld.beats ctl c.steady + p
      let c := c.advanceTo ((due : Nat) + c.tku.shift / 2 ^ 32).toNat
      let c := c.modFld (fun q => { q with beats := Table.put q.beats ctl due })
      c.emit .canBus ctl (0x700 + c.canCfg ctl 2) [5])

/-- CAN_BUS_ERROR (R539): the error counters after a bus error, and the state they put the controller in. -/
def execCanBusError (ctl tec rec : Nat) (s : State) : Host.Outcome State Fault Refusal :=
  s.run [.regs] (fun c =>
    if !c.canOn ctl then c
    else
      let st := if 256 ≤ tec then 2 else if 128 ≤ tec ∨ 128 ≤ rec then 1 else 0
      let c := ((c.wr R.FLD_CAN_TEC (min tec 255) ctl).wr R.FLD_CAN_REC (min rec 255) ctl).wr R.FLD_CAN_STATE st ctl
      if st = 2 then c.latch R.FLD_STATUS_CAN_BUS_OFF else c)

/-- CAN_BUS_OFF_RECOVERY (R539). -/
def execCanBusOffRecovery (ctl : Nat) (s : State) : Host.Outcome State Fault Refusal :=
  s.run [.regs] (fun c =>
    if c.canOn ctl && c.rd R.FLD_CAN_STATE ctl == 2 then
      ((c.wr R.FLD_CAN_TEC 0 ctl).wr R.FLD_CAN_REC 0 ctl).wr R.FLD_CAN_STATE 0 ctl
    else c)

/-! ## Enabling and commits (R543) -/

/-- What follows a change of FLD_CTRL.ENABLE or of the entries: a controller that does not run is disabled, a node that does not
run is DOWN, preemption without verification is active at once, and a Gwepo that stops leaves no cycle. -/
def Chip.fldRefresh (c : Chip) : Chip :=
  let c := (List.range 4).foldl (fun (c : Chip) k =>
    if !c.canOn k then (c.wr R.FLD_CAN_STATE 3 k).setSdo k none
    else if c.rd R.FLD_CAN_STATE k = 3 then
      (c.wr R.FLD_CAN_STATE 0 k).modFld (fun q => { q with beats := Table.put q.beats k c.steady })
    else c) c
  let gwepo := c.on R.FLD_CTRL_ENABLE && c.gwepoOn
  let c := (List.range 64).foldl (fun (c : Chip) d =>
    if gwepo && c.nodeCfg d 1 != 0 then
      (if (Table.get? c.fld.nodes d).isSome then c else c.setNode d id)
    else if (Table.get? c.fld.nodes d).isSome || c.entry (0x7420 + d) 1 != 0 then
      let c := c.modFld (fun q => { q with nodes := Table.del q.nodes d })
      (c.wr R.FLD_NODE_LOST_LOST (setBits (c.rd R.FLD_NODE_LOST_LOST (d / 32)) (d % 32) 1 0) (d / 32)).setEntry (0x7420 + d) 1 0
    else c) c
  let c := if gwepo then c else c.modFld (fun q => { q with cycle := none, response := none, granted := 0 })
  (List.range 2).foldl (fun (c : Chip) n =>
    let on := c.portOn n && c.entryOn (0x5490 + n) 1
    if !on then c.setPortBit R.FLD_STATUS_PREEMPT_ACTIVE n false
    else if !(c.entryOn (0x5490 + n) 4) then c.setPortBit R.FLD_STATUS_PREEMPT_ACTIVE n true
    else c) c

/-- What the field ports do when entries were committed: a changed list starts anew, and a changed preemption is verified
anew. -/
def Chip.fldCommitted (old c : Chip) : Chip :=
  let changed := fun (i : Nat) (n : Nat) => (List.range n).any (fun k => old.entry i (k + 1) != c.entry i (k + 1))
  let c := (List.range 2).foldl (fun (c : Chip) n =>
    let c := if changed (0x5480 + n) 5 then c.modFld (fun q => { q with qbv := Table.del q.qbv n }) else c
    let c := if changed (0x54A0 + n) 7 then
        c.modFld (fun q => { q with gates := q.gates.filter (fun p => p.1 / 32 != n), meters := q.meters.filter (fun p => p.1 / 32 != n) })
      else c
    if changed (0x5490 + n) 4 then c.setPortBit R.FLD_STATUS_PREEMPT_ACTIVE n false else c) c
  c.fldRefresh

end Sys2Proof.Machine
end

