-- ==== Sys2Proof/Machine/Gingham.lean ====
section
/-!
DEFINITION. Gingham (chapter 20): frames, comparison, verdicts, faults, the heartbeat, the golden test and the verdict log.
-/
namespace Sys2Proof.Machine

/-! ## Words and counters -/

/-- CAUSE bits (R583). -/
def cauDisagree : Nat := 0x01
def cauDeadline : Nat := 0x02
def cauSensor : Nat := 0x04
/-- [DEDUCED: log 136] -/
def cauTest : Nat := 0x08
def cauLatched : Nat := 0x10
def cauMirrorLost : Nat := 0x20
def cauStale : Nat := 0x40
def cauDisabled : Nat := 0x80

/-- A verdict word (R583). -/
def verdictWord (bad : Bool) (cause nets seq : Nat) : Nat :=
  let body := (if bad then 0xC3 else 0x3C) + (bits cause 0 8 <<< 8) + (bits nets 0 8 <<< 16) + (bits seq 0 16 <<< 24)
  body + (crc8 (leBytes 7 body) <<< 56)

/-- Gingham's own state changed; a network changed. -/
def Chip.setGng (c : Chip) (f : Gng → Gng) : Chip := { c with gng := f c.gng }
def Chip.setNet (c : Chip) (n : Nat) (f : GngNet → GngNet) : Chip :=
  c.setGng (fun g => { g with nets := modifyNth g.nets n f })
def Chip.net (c : Chip) (n : Nat) : GngNet := c.gng.nets.getD n ⟨0, 0, none, [], [], none, true⟩

/-- Whether Gingham runs. -/
def Chip.gngOn (c : Chip) : Bool := c.entryOn 0x5C00 1

/-- The latched faults, GNG_FAULT [4:0]. -/
def Chip.gngFaults (c : Chip) : Nat := c.rd R.GNG_FAULT % 32

/-- A frame's own value of a network entry (R569). -/
def GngFrame.e (f : GngFrame) (s : Nat) : Nat := f.cfg.getD (s - 1) 0

/-- D_k (R581). [DEDUCED: log 162] -/
def GngFrame.deadline (f : GngFrame) : Nat := f.time + f.e 0x0B

/-- A frame replaced, by network and launch number. -/
def Chip.setFrame (c : Chip) (f : GngFrame) : Chip :=
  c.setGng (fun g => { g with frames := g.frames.map (fun x => if x.net = f.net ∧ x.k = f.k then f else x) })

/-- Nothing differed. -/
def noDiff : GngDiff := ⟨0xFFFF, 0, 0, 0, 0⟩

/-- A log entry for the end of this cycle (R591). -/
def Chip.gngLog (c : Chip) (l : GngLog) : Chip := c.setGng (fun g => { g with logs := g.logs ++ [l] })

/-- The 512 bits of a log entry (R591). -/
def Chip.logEntry (c : Chip) (l : GngLog) : Nat :=
  let device := c.rd R.GNG_VERDICT_LO_WORD_LO + (c.rd R.GNG_VERDICT_HI_WORD_HI <<< 32)
  bits l.net 0 3 + (bits l.kind 0 2 <<< 3) + (bits l.golden 0 3 <<< 5) + (c.gngFaults <<< 8) + (bits l.k 0 32 <<< 32) +
  ((if l.kind = 0 then l.word else device) <<< 64) + (bits l.time 0 64 <<< 128) + (c.stamp <<< 192) +
  (l.diff.band <<< 224) + (bits l.diff.element 0 32 <<< 240) + (bits l.diff.primary 0 32 <<< 272) +
  (bits l.diff.mirror 0 32 <<< 304) + (min l.diff.count 65535 <<< 336)

/-! ## The device verdict and the heartbeat (R584, R585) -/

/-- The latest frame verdict of a network, once one is formed since the network is enabled. [DESIGN CHOICE: log 134] -/
def Chip.netVerdict (c : Chip) (n : Nat) : Option Nat :=
  if (c.net n).lastVerdict.isSome then some (c.entry (0x7C10 + n) 1) else none

/-- Whether a network's latest verdict is not SAFE, or stale. -/
def Chip.netBad (c : Chip) (n : Nat) : Bool :=
  c.on R.GNG_NET_STALE n || (match c.netVerdict n with | some v => bits v 0 8 != 0x3C | none => true)

/-- The causes in force (R584). [DESIGN CHOICE: log 134] -/
def Chip.gngCauses (c : Chip) : Nat :=
  if !c.gngOn then cauDisabled
  else
    let f := c.gngFaults
    let nets := c.netsOn.foldl (fun (a : Nat) n =>
      a ||| (if c.on R.GNG_NET_STALE n then cauStale else 0) |||
      (match c.netVerdict n with | some v => if bits v 0 8 = 0x3C then 0 else bits v 8 8 | none => 0)) 0
    nets ||| (if f = 0 then 0 else cauLatched) ||| (if f &&& 6 = 0 then 0 else cauTest) |||
      (if f.testBit 3 then cauMirrorLost else 0)

/-- The state each network shows (R595): its frames, history of disagreements and misses. -/
def Chip.showNet (c : Chip) (n : Nat) : Chip :=
  let q := c.net n
  let latest := q.next - 1
  let hist := fun (w : Nat) (l : List Nat) => (List.range w).foldl (fun a j =>
    if decide (j ≤ latest) && l.contains (latest - j) then a ||| 2 ^ j else a) 0
  let inFrame := c.gng.frames.any (fun f => f.net == n && !f.expired && !(f.verdict.isSome && f.compared))
  let c := c.wr R.GNG_NET_STATE (if !c.gngOn || c.netCfg n 1 == 0 then 0 else if inFrame then 2 else 1) n
  let c := c.wr R.GNG_NET_DIS_HIST (hist 8 q.disagreed) n
  let c := c.wr R.GNG_NET_MISSES ((List.range 64).filter (fun j => decide (j ≤ latest) && q.missed.contains (latest - j))).length n
  let c := c.wr R.GNG_NET_MISS_HIST (hist 64 q.missed) n
  c.wr R.GNG_NET_FRAME latest n

/-- The device verdict recomputed, SEQ advanced once (R584); an UNSAFE verdict pulls the pins low (R585). -/
def Chip.recompute (c : Chip) : Chip :=
  let seq := bits (c.rd R.GNG_VERDICT_LO_WORD_LO) 24 8 + (bits (c.rd R.GNG_VERDICT_HI_WORD_HI) 0 8 <<< 8) + 1
  let nets := c.netsOn
  let bad := !c.gngOn || c.gngFaults != 0 || nets.isEmpty || nets.any c.netBad
  let w := verdictWord bad c.gngCauses ((nets.filter c.netBad).foldl (fun a n => a ||| 2 ^ n) 0) seq
  let c := (c.wr R.GNG_VERDICT_LO_WORD_LO (bits w 0 32)).wr R.GNG_VERDICT_HI_WORD_HI (bits w 32 32)
  let c := c.setEntry 0x7C00 1 w
  let c := (c.wr R.GNG_STATUS_SAFE (b2n !bad)).wr R.GNG_STATUS_LATCHED (b2n (c.gngFaults != 0))
  if bad then (c.wr R.GNG_STATUS_HB_RUNNING 0).setGng (fun g => { g with hba := false, hbb := false }) else c

/-- The end of a Gingham cycle: the verdict where something changed, then the log entries, then what the registers show.
[DEDUCED: log 135] -/
def Chip.gngEnd (c : Chip) : Chip :=
  let c := if c.gng.dirty then (c.recompute).setGng (fun g => { g with dirty := false }) else c
  let logs := c.gng.logs
  let c := c.setGng (fun g => { g with logs := [] })
  let q := c.entry 0x5C00 3
  let c := if q = 0xFFFF then c else logs.foldl (fun (c : Chip) l => c.produce q (c.logEntry l)) c
  (List.range 8).foldl (fun (c : Chip) n => c.showNet n) c

/-! ## Verdicts and faults (R581, R582, R588) -/

/-- The verdict of a frame is formed (R581, R588). [DEDUCED: log 135] -/
def Chip.formVerdict (c : Chip) (f : GngFrame) (cause : Nat) (d : GngDiff) : Chip :=
  let cause := if c.gngFaults = 0 then cause else cause ||| cauLatched
  let bad := cause != 0
  let seq := bits (c.rd R.GNG_VERDICT_LO_WORD_LO) 24 8 + (bits (c.rd R.GNG_VERDICT_HI_WORD_HI) 0 8 <<< 8) + 1
  let w := verdictWord bad cause (if bad then 2 ^ f.net else 0) seq
  let c := c.setFrame { f with verdict := some w }
  let c := (c.setNet f.net (fun q => { q with lastVerdict := some c.now })).wr R.GNG_NET_STALE 0 f.net
  let c := (c.setEntry (0x7C10 + f.net) 1 w).setEntry (0x7C10 + f.net) 2 (f.k % 2 ^ 32)
  let c := c.count R.GNG_FRAME_CNT_COUNT
  let c := if cause &&& cauDeadline = 0 then c else c.count R.GNG_DEADLINE_CNT_COUNT
  let c := if cause &&& cauSensor = 0 then c else c.count R.GNG_SENSOR_CNT_COUNT
  (c.gngLog ⟨f.net, 0, 0, f.k, f.time, w, d⟩).setGng (fun g => { g with dirty := true })

/-- A fault is latched (R588): its bit, FIRST_NET, a log entry, vectors 17 and 0. [DEDUCED: log 136] -/
def Chip.gngLatch (c : Chip) (f : Field) (net k time : Nat) : Chip :=
  if c.on f then c
  else
    let c := if c.gngFaults = 0 then c.wr R.GNG_FAULT_FIRST_NET net else c
    let c := (((c.wr f 1).raise 17).raise 0).gngLog ⟨net, 2, 0, k, time, 0, noDiff⟩
    c.setGng (fun g => { g with dirty := true })

/-- R582: a frame disagrees, and counts. -/
def Chip.countDisagree (c : Chip) (f : GngFrame) : Chip :=
  let near := (c.net f.net).disagreed.any (fun j => j != f.k && decide (f.k < j + 8) && decide (j < f.k + 8))
  let c := (c.count R.GNG_DISAGREE_CNT_COUNT).setNet f.net (fun q => { q with disagreed := insertNat q.disagreed f.k })
  if near then c.gngLatch R.GNG_FAULT_DISAGREE f.net f.k f.time else c

/-! ## Comparison (R578 to R580) -/

/-- A band record. -/
structure Band where
  off : Nat
  elements : Nat
  fmt : Nat
  mode : Nat
  cols : Nat
  abs : Num
  rel : Num
  deriving DecidableEq, Repr

/-- The fields of a band record (R578). -/
def bandOf (r : Nat) : Band :=
  ⟨bits r 0 32, bits r 32 32, bits r 64 8, bits r 72 2, bits r 80 16, f32val (bits r 96 32), f32val (bits r 128 32)⟩

/-- Bytes of a band's elements, and of the scales that follow them. -/
def Band.elemBytes (b : Band) : Nat := packedBytes (fmtWidth (fmtCode b.fmt)) b.elements
def Band.bytes (b : Band) : Nat := b.elemBytes + (if fmtMx b.fmt then ceilDiv b.elements 32 else 0)

/-- The band table at a Muslin offset, checked against an activation area of `size` bytes: its records, none where it fails
(R578). -/
def Chip.bandTable (c : Chip) (off size : Nat) : Chip × Option (List Nat) :=
  let r := c.devRead off 64
  let h := leNat r.2.2
  let n := bits h 48 8
  if r.2.1 != 0 || bits h 0 32 != 0x444E4142 || bits h 32 16 != 1 || n == 0 || decide (16 < n) || bits h 56 424 != 0 ||
      decide (muslinSize < off + 64 + 32 * n) then (r.1, none)
  else
    let q := r.1.devRead (off + 64) (32 * n)
    let recs := (List.range n).map (fun k => leNat ((q.2.2.drop (32 * k)).take 32))
    let ok := fun (v : Nat) =>
      let b := bandOf v
      b.mode != 3 && decide (1 ≤ b.elements) && decide (b.off + b.bytes ≤ size) && bits v 74 6 == 0 && bits v 160 96 == 0 &&
      fmtKind (fmtCode b.fmt) != .reserved && (!fmtMx b.fmt || mxAllowed (fmtCode b.fmt)) &&
      (b.mode != 1 || (b.cols != 0 && b.elements % b.cols == 0)) &&
      b.abs.isFinite && !b.abs.sign && b.rel.isFinite && !b.rel.sign
    if q.2.1 != 0 || bits h 480 32 != crc32 (r.2.2.take 60 ++ q.2.2) || !recs.all ok then (q.1, none) else (q.1, some recs)

/-- Element `i` of a band in an area: its bits with its scale byte, and its exact value. -/
def Chip.bandElem (c : Chip) (area : Nat) (b : Band) (i : Nat) : Nat × Num :=
  let x := c.elem (area + b.off) (fmtWidth (fmtCode b.fmt)) i
  let s := if fmtMx b.fmt then c.peekNat (area + b.off + b.elemBytes + i / 32) 1 else 127
  (x + (s <<< 32), (scaledElem b.fmt s x).shift (s - 127))

/-- Whether two elements agree within a band (R579 MODE 0). -/
def withinBand (b : Band) (x y : Num) : Bool :=
  match x, y with
  | .nan, _ => false
  | _, .nan => false
  | .inf m, .inf n => m == n
  | .inf _, _ => false
  | _, .inf _ => false
  | x, y => Num.le (x.sub y).abs (b.abs.add (b.rel.mul (Num.max x.abs y.abs)))

/-- The failing elements of a band, or rows in MODE 1, each with its two values. [DEDUCED: log 137] -/
def Chip.bandFails (c : Chip) (first second : Nat) (b : Band) (mode : Nat) : List (Nat × Num × Num) :=
  let at' := fun (i : Nat) => (c.bandElem first b i, c.bandElem second b i)
  if mode = 1 then
    (List.range (b.elements / b.cols)).filterMap (fun r =>
      let row := (List.range b.cols).map (fun j => at' (r * b.cols + j))
      let x := argMax (row.map (·.1.2)); let y := argMax (row.map (·.2.2))
      if x = y then none else some (r, Num.ofNat x, Num.ofNat y))
  else
    (List.range b.elements).filterMap (fun i =>
      let p := at' i
      if (if mode = 2 then p.1.1 == p.2.1 else withinBand b p.1.2 p.2.2) then none else some (i, p.1.2, p.2.2))

/-- Every band of two areas compared; `exact` takes MODE 2 for each (R586). An area that cannot be read differs.
[DEDUCED: log 137] -/
def Chip.compareAreas (c : Chip) (bands : List Nat) (first second : Nat) (exact : Bool) : Chip × GngDiff :=
  bands.zipIdx.foldl (fun (s : Chip × GngDiff) p =>
    let b := bandOf p.1
    let r := s.1.touchReads [(first + b.off, b.bytes), (second + b.off, b.bytes)]
    let fails := if r.2 != 0 then [(0, Num.nan, Num.nan)] else r.1.bandFails first second b (if exact then 2 else b.mode)
    let enc := fun (x : Num) => (fp32.encode 0 true 0 x).1
    (r.1, match fails with
      | [] => s.2
      | (i, x, y) :: _ =>
        if s.2.band = 0xFFFF then ⟨p.2, i, enc x, enc y, fails.length⟩ else { s.2 with count := s.2.count + fails.length }))
    (c, noDiff)

/-- When a comparison that starts now ends: 200 ns and twice the bytes of all bands at 105.6 GB/s (R580). -/
def Chip.compareEnd (c : Chip) (bands : List Nat) : Nat :=
  c.now + 200 + ceilDiv (20 * ((bands.map (fun r => (bandOf r).bytes)).foldl (· + ·) 0)) 1056

/-- The indices of a frame's SAFETY descriptors, SAFETY on ENGINE 0xA being ignored (R571). -/
def GngFrame.safety (f : GngFrame) : List Nat :=
  (List.range f.descs.length).filter (fun i => Desc.safety (f.descs.getD i 0) && Desc.engine (f.descs.getD i 0) != 0xA)

/-- Whether the last SAFETY primary and the last mirror of a frame have completed (R580). -/
def GngFrame.ready (f : GngFrame) : Bool :=
  f.weave.isSome && decide (f.descs.length = f.total) && f.safety.all (fun i => (Table.get? f.done i).isSome) &&
  f.mirrors.all (fun m => m.state == 2)

/-- Whether an operation of the frame failed in either channel. -/
def GngFrame.opFailed (f : GngFrame) : Bool :=
  f.spoiled || f.safety.any (fun i => failsDep (Table.getD f.done i 0)) || f.mirrors.any (fun m => failsDep m.status)

/-- The comparator's self-test before a comparison (R580): a wrong answer latches SELF_TEST. [DESIGN CHOICE: log 138] -/
def Chip.selfTest (c : Chip) (wrong : Bool) (net k time : Nat) : Chip :=
  if wrong then c.gngLatch R.GNG_FAULT_SELF_TEST net k time else c

/-- A frame is compared (R580, R581), unless the comparison would end at or after D_k. `wrong`: the self-test before it gives a
wrong answer. [DEDUCED: log 137] -/
def Chip.compareFrame (c : Chip) (f : GngFrame) (wrong : Bool := false) : Chip :=
  if decide (f.deadline ≤ c.compareEnd (f.bands.getD [])) then c
  else
    let c := c.selfTest wrong f.net f.k f.time
    let r := match f.bands with
      | some bands => c.compareAreas bands (f.e 4) (f.e 6) false
      | none => (c, noDiff)
    let differs := r.2.band != 0xFFFF || f.opFailed
    let c := if differs && f.bands.isSome then r.1.countDisagree f else r.1
    let f := { f with compared := true }
    let c := c.setFrame f
    if f.verdict.isSome then c
    else c.formVerdict f (if differs || f.bands.isNone then cauDisagree else 0) r.2

/-! ## The loss of the mirror (R590) -/

/-- Whether a pair cluster is not ACTIVE. -/
def Chip.pairLost (c : Chip) : Bool :=
  c.rd R.TWL_CLUSTER_STATE (c.rd R.TWL_GNG_PAIR_CLUSTER_A) != 0 || c.rd R.TWL_CLUSTER_STATE (c.rd R.TWL_GNG_PAIR_CLUSTER_B) != 0

/-- Whether a mirror operation ended with its cluster. -/
def mirrorGone (m : GngMirror) : Bool := m.state == 2 && (m.status == St.ISLAND_OFFLINE || m.status == St.ISLAND_STALL)

/-- MIRROR_LOST: every frame in progress becomes UNSAFE, without counting. -/
def Chip.loseMirror (c : Chip) : Chip :=
  let open_ := c.gng.frames.filter (fun f => !f.expired && !f.compared)
  let c := open_.foldl (fun (c : Chip) f =>
    let f := { f with compared := true, spoiled := true, mirrors := f.mirrors.map (fun m => if m.state = 0 then { m with state := 2, status := St.ISLAND_OFFLINE } else m) }
    let c := c.setFrame f
    if f.verdict.isSome then c else c.formVerdict f (cauDisagree ||| cauMirrorLost) noDiff) c
  c.gngLatch R.GNG_FAULT_MIRROR_LOST (c.netsOn.headD 0) ((c.net (c.netsOn.headD 0)).next - 1) 0

/-! ## The golden test (R586, R587) -/

/-- A golden test is missed. [DEDUCED: log 139] -/
def Chip.missGolden (c : Chip) (net k time : Nat) : Chip :=
  let c := (c.count R.GNG_TEST_MISSED_CNT_COUNT).setNet net (fun q => { q with missed := insertNat q.missed k })
  let c := c.gngLog ⟨net, 1, 3, k, time, 0, noDiff⟩
  let recent := (c.net net).missed.filter (fun j => decide (k < j + 64) && decide (j ≤ k))
  if 3 ≤ recent.length then c.gngLatch R.GNG_FAULT_TEST_MISSED net k time else c

/-- The running test of a network is abandoned: what has not started is not run. -/
def Chip.dropGolden (c : Chip) (net : Nat) : Chip :=
  let g := Table.get? c.gng.golden net
  let c := c.setGng (fun q => { q with golden := Table.del q.golden net })
  match g with
  | some ⟨_, _, _, _, some id⟩ =>
    match c.weave? id with
    | some w => (c.setWeave { w with cancelled := true, count := w.descs.length }).settle
    | none => c
  | _ => c

/-- The golden run has completed: GOLDEN against GOLDEN_REF, exactly. -/
def Chip.compareGolden (c : Chip) (net : Nat) (g : GngGolden) (wrong : Bool := false) : Chip :=
  let e := fun s => g.cfg.getD (s - 1) 0
  let bands := g.bands.getD []
  if g.bands.isNone || decide (g.time + e 0x0B ≤ c.compareEnd bands) then c
  else
    let c := c.selfTest wrong net g.k g.time
    let r := c.compareAreas bands (e 7) (e 0x0E) true
    let c := r.1.setGng (fun q => { q with golden := Table.del q.golden net })
    let pass := r.2.band == 0xFFFF
    let c := c.gngLog ⟨net, 1, if pass then 1 else 2, g.k, g.time, 0, r.2⟩
    if pass then c else c.gngLatch R.GNG_FAULT_TEST_FAIL net g.k g.time

/-- The golden image through the pipe's profile and geometry into GOLDEN + INPUT_OFF. [DEDUCED: log 139] -/
def Chip.goldenInput (c : Chip) (g : GngGolden) : Chip :=
  let e := fun s => g.cfg.getD (s - 1) 0
  let r := c.devRead (e 0x0D) 32
  let h : KrsHead := ⟨leNat r.2.2, r.2.2⟩
  if e 3 = 0xFF ∨ r.2.1 ≠ 0 ∨ !r.1.krsOk (e 0x0D) h ∨ h.type ≠ 1 then r.1
  else
    let p := r.1.devRead (e 0x0D + 32) h.length
    match payloadOf 1 p.2.2 with
    | .raw dt w ht stride =>
      let pe := fun s => c.pipeEntry (e 3) s
      let src : Source := ⟨dt, w, ht, (List.range ht).map (fun y => (p.2.2.drop (32 + y * stride)).take (csiLineBytes dt w))⟩
      let o := imageOp (pe 0x0A) (pe 0x0B) (pe 0x0C)
      let bytes := packElems (fmtWidth (fmtCode (pe 0x0A)))
        (o.render src (c.profile (pe 5)) (geomOf (pe 6) w ht) (pe 9) (pe 7) (pe 8)).2
      (p.1.devWrite (e 7 + e 8) bytes).1
    | _ => p.1

/-- Gauze grants island 1: the golden conversion, and the network's weave once more. [DEDUCED: log 31, 139] -/
def Chip.grantGolden (c : Chip) (net : Nat) (g : GngGolden) : Chip :=
  if 1024 ≤ c.dsp.weaves.length then c else
  let c := c.goldenInput g
  let entry := g.cfg.getD 1 0
  let addr := c.rd R.DSP_LAUNCH_WEAVE_ADDR entry
  match c.readHeader addr with
  | (c, .ok h) =>
    let w := c.addWeave addr h (c.rd R.DSP_LAUNCH_CLASS entry) 0x7FFF (.golden net) false
    w.1.setGng (fun q => { q with golden := Table.put q.golden net { g with weave := some w.2 } })
  | (c, .error _) => c.setGng (fun q => { q with golden := Table.put q.golden net { g with weave := some (2 ^ 64) } })

/-! ## Dependencies among mirrors (R575) -/

/-- The mirrors that a mirror depends on by number: those of DEP_A, DEP_B, and of its predecessor in a chain. -/
def GngFrame.mirrorDeps (f : GngFrame) (m : GngMirror) : List GngMirror :=
  let d := f.descs.getD m.index 0
  let ids := (if Desc.depA d = 0 then [] else [m.index - Desc.depA d]) ++
    (if Desc.depB d = 0 then [] else [m.index - Desc.depB d]) ++
    (if m.index ≠ 0 ∧ Desc.chainNext (f.descs.getD (m.index - 1) 0) then [m.index - 1] else [])
  f.mirrors.filter (fun x => ids.contains x.index)

/-- The mirrors of earlier descriptors. -/
def GngFrame.earlier (f : GngFrame) (m : GngMirror) : List GngMirror := f.mirrors.filter (fun x => decide (x.index < m.index))

/-- Whether a mirror may start: R73 among the mirrors. -/
def GngFrame.mirrorReady (f : GngFrame) (m : GngMirror) : Bool :=
  let d := f.descs.getD m.index 0
  (f.mirrorDeps m).all (fun x => x.state == 2 && satisfiesDep x.status) &&
  (!Desc.fence d || (f.earlier m).all (fun x => x.state == 2)) &&
  (f.earlier m).all (fun x => Desc.engine x.raw != Desc.engine m.raw || x.state != 0)

/-- A waiting mirror whose dependency failed completes with DSP_DEP_FAILED (R75). -/
def GngFrame.settleMirrors (f : GngFrame) : GngFrame :=
  f.mirrors.foldl (fun (f : GngFrame) m =>
    let d := f.descs.getD m.index 0
    let bad := fun (x : GngMirror) => x.state == 2 && failsDep x.status
    if m.state = 0 ∧ ((f.mirrorDeps m).any bad || (Desc.fence d && (f.earlier m).any bad)) then
      { f with mirrors := f.mirrors.map (fun x =>
          if x.index = m.index ∧ x.part = m.part then { x with state := 2, status := St.DSP_DEP_FAILED } else x) }
    else f) f

/-! ## What follows other steps -/

/-- What Gingham's following may change: its networks, registers and process values, the verdict log, and what a memory access
leaves behind. -/
def Chip.followed (c d : Chip) : Chip :=
  { c with regs := d.regs, dict := d.dict, muslin := d.muslin, qmg := d.qmg, msl := d.msl, drc := d.drc, gng := d.gng,
           sent := d.sent }

/-- What Gingham does after a step that may have ended operations or clusters: the loss of its mirror, comparisons, golden
comparisons; frames that are over are forgotten. `wrong`: the self-test before a comparison gives a wrong answer. -/
def Chip.gngFollow (c : Chip) (wrong : Bool := false) : Chip := c.followed (
  let c := c.setGng (fun g => { g with frames := g.frames.map (fun f => f.settleMirrors) })
  let lost := c.gngOn && (c.pairLost || c.gng.frames.any (fun f => !f.expired && !f.compared && f.mirrors.any mirrorGone))
  let c := if lost && !c.on R.GNG_FAULT_MIRROR_LOST then c.loseMirror else c
  let c := (c.gng.frames.filter (fun f => f.ready && !f.compared && !f.expired)).foldl (fun (c : Chip) f => c.compareFrame f wrong) c
  let c := c.gng.golden.foldl (fun (c : Chip) p =>
    match p.2.weave with
    | some id => if (c.weave? id).isNone && id != 2 ^ 64 then c.compareGolden p.1 p.2 wrong else c
    | none => c) c
  let past := fun (f : GngFrame) => f.expired && f.mirrors.all (fun m => m.state != 1)
  (c.setGng (fun g => { g with frames := g.frames.filter (fun f => !past f) })).gngEnd)

/-! ## The input stage (R576, R577) -/

/-- Whether a record's flags or its DROPPED_BEFORE spoil a frame. -/
def recordBad (r : Nat) : Bool := bits r 225 9 != 0 || bits r 288 32 != 0

/-- The newest READY record of a pipe: buffer and record. FRAME_SEQ orders them. -/
def Chip.readyRecords (c : Chip) (pipe : Nat) : List (Nat × Nat) :=
  let recs := (List.range (c.pipeEntry pipe 0x0E)).map (fun i => (i, leNat (c.devRead (c.pipeEntry pipe 0x10 + 64 * i) 64).2.2))
  (recs.filter (fun r => r.2.testBit 224)).mergeSort (fun a b => decide (bits b.2 0 32 ≤ bits a.2 0 32))

/-- The input stage of a frame: the newest ready buffer copied to ACT and SHADOW, READY cleared in every ready record. Answers
whether the frame takes cause SENSOR. [DESIGN CHOICE: log 141] -/
def Chip.inputStage (c : Chip) (f : GngFrame) : Chip × Bool :=
  let pipe := f.e 3
  if pipe = 0xFF then (c, false)
  else
    match c.readyRecords pipe with
    | [] => (c, true)
    | r :: rest =>
      let src := c.devRead (c.pipeEntry pipe 0x0D + r.1 * c.pipeEntry pipe 0x0F) (f.e 9)
      let a := src.1.devWrite (f.e 4 + f.e 8) src.2.2
      let b := a.1.devWrite (f.e 6 + f.e 8) src.2.2
      let c := (r :: rest).foldl (fun (c : Chip) q =>
        (c.devWrite (c.pipeEntry pipe 0x10 + 64 * q.1 + 28 + (1 <<< 36) * 2) [1]).1) b.1
      (c, recordBad r.2 || src.2.1 != 0 || a.2 != 0 || b.2 != 0)

/-- The networks bound to a launch entry. -/
def Chip.boundNet (c : Chip) (entry : Nat) : Option Nat :=
  if c.gngOn then c.netsOn.find? (fun n => c.netCfg n 2 == entry) else none

/-- A launch of a bound entry at L_k: the frame, its band table after a commit, and its input stage. `weave` is the weave with
its DESC_COUNT, none where nothing ran. [DEDUCED: log 135] -/
def Chip.frameLaunch (c : Chip) (net time : Nat) (weave : Option (Nat × Nat)) : Chip :=
  let q := c.net net
  let r := if q.reload then c.bandTable (c.netCfg net 0x0A) (c.netCfg net 5) else (c, q.bands)
  let c := r.1.wr R.GNG_NET_BAND_BAD (b2n r.2.isNone) net
  let c := c.setNet net (fun q => { q with next := q.next + 1, bands := r.2, reload := false })
  let f : GngFrame := ⟨net, q.next, time, (List.range 18).map (fun k => c.netCfg net (k + 1)), r.2, weave.map (·.1),
    (weave.map (·.2)).getD 0, [], [], [], false, none, false, false, false⟩
  let c := c.setGng (fun g => { g with frames := g.frames ++ [f] })
  let s := if weave.isSome then c.inputStage f else (c, false)
  (if s.2 then s.1.formVerdict f cauSensor noDiff else s.1).gngEnd

/-! ## Gingham's own events -/

/-- The oldest frame of a network whose deadline has not passed. -/
def Chip.frameDue (c : Chip) (net : Nat) : Option GngFrame := c.gng.frames.find? (fun f => f.net == net && !f.expired)

/-- FRAME_DEADLINE (R575, R581, R586): at D_k a frame without verdict is UNSAFE, unfinished mirrors are abandoned, and a golden
test that is not over is missed. -/
def execFrameDeadline (net : Nat) (s : State) : Host.Outcome State Fault Refusal :=
  s.run [.regs, .dict, .muslin, .tku, .dsp, .qmg, .msl, .drc, .gng, .sent] (fun c =>
    match c.frameDue net with
    | none => c
    | some f =>
      let c := c.advanceTo f.deadline
      let f := { f with expired := true, mirrors := f.mirrors.map (fun m =>
        if m.state = 0 then { m with state := 2, status := St.DSP_CANCELLED } else m) }
      let c := c.setFrame f
      let c := if f.verdict.isSome then c else c.formVerdict f cauDeadline noDiff
      let c := match Table.get? c.gng.golden net with
        | some g => if g.k = f.k then (c.dropGolden net).missGolden net f.k f.time else c
        | none => c
      c.gngFollow)

/-- NETWORK_STALE (R584): no frame verdict within 2 periods of the launch entry. -/
def execNetworkStale (net : Nat) (s : State) : Host.Outcome State Fault Refusal :=
  s.run [.regs, .dict, .muslin, .tku, .qmg, .msl, .gng, .sent] (fun c =>
    if !c.gngOn || !c.netsOn.contains net || c.on R.GNG_NET_STALE net then c
    else
      let since := (c.net net).lastVerdict.getD (c.net net).since
      let c := c.advanceTo (since + 2 * c.rd R.DSP_LAUNCH_PERIOD_NS (c.netCfg net 2))
      ((c.wr R.GNG_NET_STALE 1 net).setGng (fun g => { g with dirty := true })).gngEnd)

/-- HEARTBEAT_TOGGLE (R585): at the next multiple of HB_HALF_NS, while the device verdict is SAFE. -/
def execHeartbeatToggle (s : State) : Host.Outcome State Fault Refusal :=
  s.run [.regs, .tku, .gng] (fun c =>
    if !c.gngOn then c
    else
      let half := max 1 (c.entry 0x5C00 2)
      let t := c.gridNext gridHeartbeat ⟨0, half, 1⟩
      let c := (c.advanceTo t).gridServe gridHeartbeat t
      if c.on R.GNG_STATUS_SAFE then
        let a := t / half % 2 == 1
        (c.wr R.GNG_STATUS_HB_RUNNING 1).setGng (fun g => { g with hba := a, hbb := !a })
      else c)

/-- The latest frame of a network that may take its golden slot. -/
def Chip.slotFrame (c : Chip) (net : Nat) : Option GngFrame :=
  c.gng.frames.find? (fun f => f.net == net && !f.expired && !f.slotted && f.weave.isSome && f.e 0x0C != 0)

/-- GOLDEN_SLOT (R586): at S_k Gingham asks for island 1, which Gauze grants at once when no BATCH runs. -/
def execGoldenSlot (net : Nat) (s : State) : Host.Outcome State Fault Refusal :=
  s.run [.regs, .dict, .muslin, .tku, .dsp, .qmg, .msl, .drc, .gng, .sent] (fun c =>
    match c.slotFrame net with
    | none => c
    | some f =>
      let c := (c.advanceTo (f.time + f.e 0x0F)).setFrame { f with slotted := true }
      if (Table.get? c.gng.golden net).isSome then (c.missGolden net f.k f.time).gngEnd
      else
        let g : GngGolden := ⟨f.k, f.time, f.cfg, f.bands, none⟩
        let c := c.setGng (fun q => { q with golden := Table.put q.golden net g })
        if (c.op? 20).isNone then c.grantGolden net g else c)

/-- GOLDEN_GRANT (R586): a BATCH tile has ended, and Gauze grants island 1. -/
def execGoldenGrant (net : Nat) (s : State) : Host.Outcome State Fault Refusal :=
  s.run [.regs, .muslin, .dsp, .msl, .drc, .gng, .sent] (fun c =>
    match Table.get? c.gng.golden net with
    | some g =>
      if g.weave.isSome || (match c.op? 20 with | some o => o.tileReady | none => false) then c else c.grantGolden net g
    | none => c)

/-- GOLDEN_LATEST_EXPIRE (R586): no grant by L_k + LATEST_NS. -/
def execGoldenLatestExpire (net : Nat) (s : State) : Host.Outcome State Fault Refusal :=
  s.run [.regs, .dict, .muslin, .tku, .dsp, .qmg, .msl, .drc, .gng, .sent] (fun c =>
    match Table.get? c.gng.golden net with
    | some g =>
      if g.weave.isSome then c
      else
        let c := c.advanceTo (g.time + g.cfg.getD 0x0F 0)
        ((c.dropGolden net).missGolden net g.k g.time).gngEnd
    | none => c)

/-- A write of GNG_FAULT (R589): a write of 1 clears a fault; DISAGREE and TEST_MISSED forget their history; MIRROR_LOST stays
while a pair cluster is not ACTIVE. [DEDUCED: log 136] -/
def Chip.clearGngFaults (c : Chip) (bits : BitVec 5) : Chip :=
  let clear := fun (c : Chip) (k : Nat) (f : Field) =>
    if bits.getLsbD k && c.on f && !(k == 3 && c.pairLost) then
      let net := c.rd R.GNG_FAULT_FIRST_NET
      ((c.wr f 0).gngLog ⟨net, 3, 0, (c.net net).next - 1, 0, 0, noDiff⟩).setGng (fun g => { g with dirty := true })
    else c
  let forget := fun (c : Chip) (f : GngNet → GngNet) => c.setGng (fun g => { g with nets := g.nets.map f })
  let c := if bits.getLsbD 0 then forget c (fun q => { q with disagreed := [] }) else c
  let c := if bits.getLsbD 2 then forget c (fun q => { q with missed := [] }) else c
  let c := clear c 0 R.GNG_FAULT_DISAGREE
  let c := clear c 1 R.GNG_FAULT_TEST_FAIL
  let c := clear c 2 R.GNG_FAULT_TEST_MISSED
  let c := clear c 3 R.GNG_FAULT_MIRROR_LOST
  (clear c 4 R.GNG_FAULT_SELF_TEST).gngEnd

/-- GNG_FAULT_CLEAR. -/
def execGngFaultClear (bits : BitVec 5) (s : State) : Host.Outcome State Fault Refusal :=
  s.runHost [.regs, .dict, .muslin, .qmg, .msl, .gng, .sent] (fun c => c.clearGngFaults bits)

/-- A commit instant `t` changed entries (R569, R584): Gingham or a network enabled or disabled. -/
def Chip.gngCommitted (old c : Chip) (t : Nat) : Chip :=
  let c := c.wr R.GNG_STATUS_ENABLED (b2n c.gngOn)
  let start := c.gngOn && !old.gngOn
  let c := (List.range 8).foldl (fun (c : Chip) n =>
    let changed := (List.range 18).any (fun k => old.netCfg n (k + 1) != c.netCfg n (k + 1))
    let c := if changed then c.setNet n (fun q => { q with reload := true }) else c
    if c.netCfg n 1 != 0 && (old.netCfg n 1 == 0 || start) then
      (c.setNet n (fun q => { q with since := t, lastVerdict := none })).wr R.GNG_NET_STALE 0 n
    else if c.netCfg n 1 == 0 then c.wr R.GNG_NET_STALE 0 n else c) c
  let c := if c.gngOn != old.gngOn || c.netsOn != old.netsOn then c.setGng (fun g => { g with dirty := true }) else c
  let c := if c.gngOn && (old.entry 0x5C00 2 != c.entry 0x5C00 2 || start) then c.gridFrom gridHeartbeat t else c
  c.gngFollow

end Sys2Proof.Machine
end

