-- ==== Sys2Proof/Machine/Muslin.lean ====
section
/-!
DEFINITION. The Muslin scratchpad (chapter 04): requests at a bank, atomic updates, ECC, patrol scrub, retention, soft
repair and the background test.
-/
namespace Sys2Proof.Machine

/-! ## Who asked, and what a request meets (R20, R100 to R109) -/

/-- The operation of a unit meets a status and ends with it; one that has already ended reports the status of the higher class. A
word that the network lost of a request no operation made raises vector 0 at once (R20). [DESIGN CHOICE: log 161] -/
def Chip.unitMeets (c : Chip) (u st : Nat) : Chip :=
  if st = St.OK then c
  else
    match c.op? u with
    | none => if st = St.NET_UNCORRECTABLE then c.raise 0 else c
    | some o =>
      if o.finished then c.setOp u (o.meets st)
      else let r := c.streamMeets o st; r.1.setOp u r.2

/-- Whether a device address names `n` bytes of Muslin through one of its aliases. [DEDUCED: log 40] -/
def Chip.muslinRange (c : Chip) (a n : Nat) : Bool := c.validRange [0, 1, 2] a n

/-- A read finds a single-bit error in the word of an address (R107). -/
def Chip.muslinCe (c : Chip) (word : Nat) : Chip :=
  let c := c.count R.MSL_ECC_CE_CNT_COUNT
  { c with msl := { c.msl with writebacks := insertNat c.msl.writebacks word } }

/-- What an ECC check finds in a word: an error it corrects, or one it cannot, which poisons the word. -/
def Chip.applyFound (c : Chip) (p : Nat × Bool) : Chip :=
  if p.2 then { c with msl := { c.msl with poisoned := insertNat c.msl.poisoned p.1 } }
  else if c.msl.poisoned.contains p.1 then c else c.muslinCe p.1

/-- What the checks of the words of a range find. -/
def Chip.findIn (c : Chip) (off n : Nat) (found : List (Nat × Bool)) : Chip :=
  (found.filter (fun p => (wordsOf off n).contains p.1)).foldl (fun c p => c.applyFound p) c

/-- The words of a range that the network lost to a double-bit error (R20). -/
def lostWords (off n : Nat) (net : List (Nat × Bool)) : List Nat :=
  (wordsOf off n).filter (fun w => net.contains (w, true))

/-- The single-bit errors of the links in the words of a range: corrected, and counted (R20). [DESIGN CHOICE: log 161] -/
def Chip.linkErrors (c : Chip) (off n : Nat) (net : List (Nat × Bool)) : Chip :=
  { c with msl := { c.msl with netCe := c.msl.netCe + ((wordsOf off n).filter (fun w => net.contains (w, false))).length } }

/-- The status of a request, given what the network lost of it. [DESIGN CHOICE: log 161] -/
def netStatus (off n : Nat) (net : List (Nat × Bool)) (st : Nat) : Nat :=
  if (lostWords off n net).isEmpty then st else worse st St.NET_UNCORRECTABLE

/-- A read request served at its bank: data to the port, poison marked, the requester told (R102, R107, R108); a word that the network
lost on its way tells the requester NET_UNCORRECTABLE (R20). `found` says what the checks of its words find.
[DESIGN CHOICE: log 161] -/
def Chip.serveRead (c : Chip) (off len unit : Nat) (found net : List (Nat × Bool)) : Chip :=
  let c := if c.linesServe off len then c.findIn off len found else c
  let r := (c.linkErrors off len net).muslinRead off len
  let st := netStatus off len net r.2.1
  (r.1.emit .line off (b2n (st != 0)) r.2.2).unitMeets unit st

/-- The pieces of a write request that reach its bank: the request, or, where the network lost words of it, its other words (R20).
[DESIGN CHOICE: log 161] -/
def writeParts (off n : Nat) (net : List (Nat × Bool)) : List (Nat × Nat × Nat) :=
  if (lostWords off n net).isEmpty then [(off, 0, n)]
  else (partsOf 8 off n).filter (fun p => !(lostWords off n net).contains (p.1 / 8))

/-- A write request served at its bank (R101, R103, R109, R134), but for the words that the network lost (R20): the status it earns.
[DESIGN CHOICE: log 161] -/
def Chip.bankWrite (c : Chip) (mode : WriteMode) (off : Nat) (data : List Byte) (net : List (Nat × Bool)) : Chip × Nat :=
  let r := (writeParts off data.length net).foldl (fun (s : Chip × Nat) p =>
    let w := s.1.muslinWrite mode p.1 ((data.drop p.2.1).take p.2.2)
    (w.1, worse s.2 w.2)) (c.linkErrors off data.length net, St.OK)
  (r.1, netStatus off data.length net r.2)

/-- A write request served at its bank; the requester is told of a refusal. -/
def Chip.serveWrite (c : Chip) (mode : WriteMode) (off unit : Nat) (data : List Byte) (net : List (Nat × Bool)) : Chip :=
  let r := c.bankWrite mode off data net
  r.1.unitMeets unit r.2

/-- A read through BAR2 (R274): data, a poisoned TLP, or a Completer Abort. A word that the network lost makes the TLP
poisoned, and raises vector 0 (R20). [DESIGN CHOICE: log 161] -/
def Chip.serveBar2Read (c : Chip) (off len : Nat) (found net : List (Nat × Bool)) : Chip :=
  if !c.linesServe off len then (c.latch R.HIF_STATUS_BAD_ACCESS).emit .bar2 2 off []
  else
    let r := ((c.findIn off len found).linkErrors off len net).muslinRead off len 1
    let lost := !(lostWords off len net).isEmpty
    (if lost then r.1.raise 0 else r.1).emit .bar2 (b2n (r.2.1 != 0 || lost)) off r.2.2

/-- A write through BAR2 (R106, R274): dropped where the group is off or isolated, the word is poisoned, or the range is
protected. -/
def Chip.serveBar2Write (c : Chip) (off : Nat) (data : List Byte) (net : List (Nat × Bool)) : Chip :=
  if !c.linesServe off data.length then c.latch R.HIF_STATUS_BAD_ACCESS
  else c.serveWrite .plain off 31 data net

/-- The requests of a range, one for each line it touches (R100), with the offset of each within the range. -/
def Chip.perLine (c : Chip) (off n : Nat) (request : Chip → Nat → Nat → Nat → Chip) : Chip :=
  (partsOf 128 off n).foldl (fun (c : Chip) p => request c p.1 p.2.1 p.2.2) c

/-- MUSLIN_READ (R100, R102, R107, R108). [DEDUCED: log 40] -/
def execMuslinRead (addr len unit : Nat) (found net : List (Nat × Bool)) (s : State) : Host.Outcome State Fault Refusal :=
  s.run [.regs, .muslin, .dsp, .msl, .dmk, .sent, .fresh] (fun c =>
    if c.muslinRange addr len then
      c.perLine (devOffset addr) len (fun c off o n =>
        c.access off (.muslinRead (addr + o) n unit found net) (fun c => c.serveRead off n unit found net))
    else c)

/-- A write command: each of its requests, in the mode of an alias. `again` is the command of one request, which may wait. -/
def Chip.writeCommand (c : Chip) (mode : WriteMode) (addr unit : Nat) (data : List Byte) (net : List (Nat × Bool))
    (again : Nat → List Byte → Instr) : Chip :=
  if c.muslinRange addr data.length then
    c.perLine (devOffset addr) data.length (fun c off o n =>
      let part := (data.drop o).take n
      c.access off (again (addr + o) part) (fun c => c.serveWrite mode off unit part net))
  else c

/-- MUSLIN_WRITE (R100, R101, R109, R134): a write through the alias of its region. [DEDUCED: log 40] -/
def execMuslinWrite (addr unit : Nat) (data : List Byte) (net : List (Nat × Bool)) (s : State) :
    Host.Outcome State Fault Refusal :=
  s.run [.regs, .muslin, .dsp, .msl, .dmk, .sent, .fresh]
    (fun c => c.writeCommand (regionMode addr) addr unit data net (fun a d => .muslinWrite a unit d net))

/-- BIT_SET_WRITE (R103): a write through the bit-set alias, whichever alias the address names. -/
def execBitSetWrite (addr unit : Nat) (data : List Byte) (net : List (Nat × Bool)) (s : State) :
    Host.Outcome State Fault Refusal :=
  s.run [.regs, .muslin, .dsp, .msl, .dmk, .sent, .fresh]
    (fun c => c.writeCommand .setBits addr unit data net (fun a d => .bitSetWrite a unit d net))

/-- BIT_CLEAR_WRITE (R103): a write through the bit-clear alias, whichever alias the address names. -/
def execBitClearWrite (addr unit : Nat) (data : List Byte) (net : List (Nat × Bool)) (s : State) :
    Host.Outcome State Fault Refusal :=
  s.run [.regs, .muslin, .dsp, .msl, .dmk, .sent, .fresh]
    (fun c => c.writeCommand .clearBits addr unit data net (fun a d => .bitClearWrite a unit d net))

/-- BAR2_READ (R274): byte `addr` of BAR2 is Muslin offset `addr` (R106). -/
def execBar2Read (addr len : Nat) (found net : List (Nat × Bool)) (s : State) : Host.Outcome State Fault Refusal :=
  s.runHost [.regs, .msl, .sent] (fun c =>
    if addr + len ≤ muslinSize then
      c.perLine addr len (fun c off _ n => c.access off (.bar2Read off n found net) (fun c => c.serveBar2Read off n found net))
    else c)

/-- BAR2_WRITE (R274). -/
def execBar2Write (addr : Nat) (data : List Byte) (net : List (Nat × Bool)) (s : State) : Host.Outcome State Fault Refusal :=
  s.runHost [.regs, .muslin, .dsp, .msl, .dmk, .sent, .fresh] (fun c =>
    if addr + data.length ≤ muslinSize then
      c.perLine addr data.length (fun c off o n =>
        let part := (data.drop o).take n
        c.access off (.bar2Write off part net) (fun c => c.serveBar2Write off part net))
    else c)

/-- ECC_WRITEBACK (R107): the corrected word that waits longest is stored again; its bits do not change. -/
def execEccWriteback (s : State) : Host.Outcome State Fault Refusal :=
  s.run [.msl] (fun c => { c with msl := { c.msl with writebacks := c.msl.writebacks.drop 1 } })

/-- What an ECC or link check of one word says, as a finding about the word. -/
def wordFinding (e : EccFinding) (word : Nat) : List (Nat × Bool) :=
  match e with
  | .clean => []
  | .corrected => [(word, false)]
  | .uncorrectable => [(word, true)]

/-- An atomic update of the word at word offset `word` by the host port, with the value from before it (R105): the current value
where protection or the network drops it, 0 where the word is poisoned. -/
def Chip.atomic (c : Chip) (mode : WriteMode) (mask : Word) (net : EccFinding) (word : Nat) : Chip :=
  let off := word * 4
  let old := c.peekNat off 4
  let poisoned := c.msl.poisoned.contains (off / 8)
  let c := c.serveWrite mode off 31 (leBytes 4 mask.toNat) (wordFinding net (off / 8))
  c.wr R.MSL_HATOM_OLD_VALUE (if poisoned && !c.protectedIn off 4 && net != .uncorrectable then 0 else old)

/-- The word that MSL_HATOM_ADDR names. -/
def Chip.hatomWord (c : Chip) : Nat := c.rd R.MSL_HATOM_ADDR_WORD

/-- HATOM_SET (R105). -/
def execHatomSet (mask : Word) (net : EccFinding) (s : State) : Host.Outcome State Fault Refusal :=
  s.runHost [.regs, .muslin, .dsp, .msl, .dmk, .sent, .fresh] (fun c =>
    c.access (c.hatomWord * 4) (.hatomSet mask net) (fun c => c.atomic .setBits mask net c.hatomWord) c.hatomWord)

/-- HATOM_CLR (R105). -/
def execHatomClr (mask : Word) (net : EccFinding) (s : State) : Host.Outcome State Fault Refusal :=
  s.runHost [.regs, .muslin, .dsp, .msl, .dmk, .sent, .fresh] (fun c =>
    c.access (c.hatomWord * 4) (.hatomClr mask net) (fun c => c.atomic .clearBits mask net c.hatomWord) c.hatomWord)

/-! ## Patrol scrub (R110) -/

/-- Whether a word lies in the lines that the scrubber reads next in groups `gs`. -/
def Chip.inScrubLines (c : Chip) (gs : List Nat) (w : Nat) : Bool :=
  gs.contains (groupOf (8 * w)) && lineOf (8 * w) == (c.group (groupOf (8 * w))).scrubLine

/-- The next line of every bank of groups `gs` is read and corrected; the pass after retention ends with a group's last line.
[DESIGN CHOICE: log 177] -/
def Chip.scrubLines (c : Chip) (gs : List Nat) (found : List (Nat × Bool)) : Chip :=
  let mine := fun (w : Nat) => c.inScrubLines gs w
  let c := (found.filter (fun p => mine p.1)).foldl (fun c p => c.applyFound p) c
  let c := (c.msl.poisoned.filter mine).foldl (fun c w => c.muslinUe w 2) c
  gs.foldl (fun (c : Chip) g => c.setGroup g (fun q =>
    if q.scrubLine + 1 < 32768 then { q with scrubLine := q.scrubLine + 1 }
    else { q with scrubLine := 0, fastPass := none })) c

/-- The time between two lines of the normal scrub, in ns (R110). -/
def Chip.scrubStep (c : Chip) : Nat := max 60 (c.rd R.MSL_SCRUB_CTRL_PERIOD_S) * 1000000000 / 32768

/-- PATROL_SCRUB_READ (R110): at the normal rate, the next line of each bank of each active group is read and corrected; for a group
in its pass after retention, the next line of its banks, one every 64 Muslin cycles of 1.65 GHz. `found` says in which words of those
lines an error is found, and whether it is uncorrectable. [DESIGN CHOICE: log 41] -/
def execPatrolScrubRead (group : Option Nat) (found : List (Nat × Bool)) (s : State) : Host.Outcome State Fault Refusal :=
  s.run [.regs, .tku, .msl, .sent] (fun c =>
    if !c.on R.MSL_CTRL_SCRUB_EN then c
    else
      match group with
      | none =>
        let c := c.advanceTo (c.msl.scrubAt + c.scrubStep)
        let c := { c with msl := { c.msl with scrubAt := c.now } }
        c.scrubLines ((List.range 8).filter (fun g => c.groupActive g && (c.group g).fastPass.isNone)) found
      | some g =>
        match (c.group g).fastPass with
        | some t =>
          if c.groupActive g then
            (c.advanceTo (t + ((c.group g).scrubLine + 1) * 64000 / 1650)).scrubLines [g] found
          else c
        | none => c)

/-! ## Retention and power-on (R112 to R116) -/

/-- Whether group `g` holds the region under test (R115). -/
def Chip.underTest (c : Chip) (g : Nat) : Bool :=
  match c.msl.btRegion with
  | some r => r / 8192 == g
  | none => false

/-- The entry of a group into retention begins (R113). [DESIGN CHOICE: log 42] -/
def Chip.enterRetention (c : Chip) (g : Nat) : Chip := (c.setGroup g (fun q => { q with fastPass := none })).setPhase g (.entering c.now)

/-- RETENTION_ENTRY (R112 to R115): the power manager starts the entry of an allowed group that saw no request for RET_IDLE_US, or of a
group that Sentinel retains; given again, the entry that runs completes, 4 us after it began. [DESIGN CHOICE: log 42] -/
def execRetentionEntry (group : Nat) (s : State) : Host.Outcome State Fault Refusal :=
  s.run [.regs, .tku, .msl] (fun c =>
    match (c.group group).phase with
    | .active =>
      let sentinel := c.sentinel && decide (1 ≤ group)
      let allowed := (c.rd R.MSL_RET_CTRL_RET_ALLOW).testBit group && !c.sentinel
      let due := (c.group group).lastRequest + c.rd R.MSL_RET_CTRL_RET_IDLE_US * 1000
      if group < 8 ∧ !c.underTest group ∧ (sentinel || allowed) then
        (if sentinel then c else c.advanceTo due).enterRetention group
      else c
    | .entering start => ((c.advanceTo (start + 4000)).isolateGroup group).setPhase group .retention
    | _ => c)

/-- A held request served: `word` is the word offset that a host atomic was given. -/
def Chip.serveHeld (c : Chip) (i : Instr) (word : Nat) : Chip :=
  match i with
  | .muslinRead a n u f l => c.serveRead (devOffset a) n u f l
  | .muslinWrite a u d l => c.serveWrite (regionMode a) (devOffset a) u d l
  | .bitSetWrite a u d l => c.serveWrite .setBits (devOffset a) u d l
  | .bitClearWrite a u d l => c.serveWrite .clearBits (devOffset a) u d l
  | .bar2Read a n f l => c.serveBar2Read a n f l
  | .bar2Write a d l => c.serveBar2Write a d l
  | .hatomSet m l => c.atomic .setBits m l word
  | .hatomClr m l => c.atomic .clearBits m l word
  | .doorbellWrite a _ v => c.doorbell a v
  | .queueEnable n => c.enableQueue (n % 32768)
  | _ => c

/-- A group becomes active and serves what it held, in order of arrival. -/
def Chip.groupServesHeld (c : Chip) (g : Nat) : Chip :=
  let w := (c.group g).waiting
  let c := (c.setPhase g .active).setGroup g (fun q => { q with waiting := [], lastRequest := c.now })
  w.foldl (fun c i => c.serveHeld i.1 i.2) c

/-- The parts that requests served at last can reach. -/
def Parts.held : List Part := [.regs, .muslin, .tku, .dsp, .qmg, .msl, .dmk, .sent, .fresh]

/-- RETENTION_WAKE_DONE (R110, R113, R114): 18 us after its wake began, a group is active, held requests are served, and the scrubber's
extra pass starts. A group that nothing has asked for wakes for the power manager or the scrubber, from now on.
[DESIGN CHOICE: log 42, 177] -/
def execRetentionWakeDone (group : Nat) (s : State) : Host.Outcome State Fault Refusal :=
  s.run Parts.held (fun c =>
    let c := c.wakeGroup group
    match (c.group group).phase with
    | .leaving start =>
      let c := c.advanceTo (start + 18000)
      (c.setGroup group (fun q => { q with scrubLine := 0, fastPass := some c.now })).groupServesHeld group
    | _ => c)

/-- GROUP_FILL_DONE (R116): after 20 us every line is zero with valid check bits, and held requests are served. -/
def execGroupFillDone (group : Nat) (s : State) : Host.Outcome State Fault Refusal :=
  s.run Parts.held (fun c =>
    match (c.group group).phase with
    | .filling start => (c.advanceTo (start + 20000)).groupServesHeld group
    | _ => c)

/-! ## Physical columns (R117) -/

/-- Where stored bit `p` of line `i` of a bank lies: subarray, row and column (R117). [DEDUCED: log 45] -/
def storedAt (i p : Nat) : Nat × Nat × Nat := (9 * bits i 13 2 + p / 128, bits i 3 10, 8 * (p % 128) + bits i 0 3)

/-- Whether line `i` of a bank has a bit in column `col` of subarray `sub` (R117). -/
def lineMeets (i sub col : Nat) : Bool := bits i 13 2 == sub / 9 && bits i 0 3 == col % 8

/-- Whether a word lies in the 1,024 lines of a repaired column. -/
def ColRepair.covers (r : ColRepair) (w : Nat) : Bool := bankOf (8 * w) == r.bank && lineMeets (lineOf (8 * w)) r.sub r.col

/-! ## Soft repair (R118 to R124) -/

/-- The key of a physical column: bank, subarray, column. -/
def columnKey (bank sub col : Nat) : Nat := (bank <<< 16) + (sub <<< 10) + col

/-- The lowest free spare of a subarray (R118). -/
def Chip.freeSpare (c : Chip) (bank sub : Nat) : Option Nat :=
  (List.range 8).find? (fun k => !c.msl.repairs.any (fun r => r.bank == bank && r.sub == sub && r.spare == k))

/-- LOG_USED and LOG_FULL follow the slots; LIST_FULL follows the degraded list (R121, R130, R135). -/
def Chip.logFlags (c : Chip) : Chip :=
  let used := ((List.range 64).filter (fun n => c.on R.MSL_SOFT_REPAIR_VALID n)).length
  let list := ((List.range 64).filter (fun n => c.on R.MSL_DEGRADED_VALID n)).length
  let c := c.wr R.MSL_STATUS_LOG_USED used
  let c := c.wr R.MSL_BT_STATUS_LOG_FULL (b2n (used == 64))
  c.wr R.MSL_BT_STATUS_LIST_FULL (b2n (list == 64))

/-- An entry added to the degraded list, in its lowest free slot. [DESIGN CHOICE: log 175] -/
def Chip.degrade (c : Chip) (kind location : Nat) : Chip :=
  match (List.range 64).find? (fun n => !c.on R.MSL_DEGRADED_VALID n) with
  | some n =>
    let c := c.wr R.MSL_DEGRADED_LOCATION location n
    let c := c.wr R.MSL_DEGRADED_KIND kind n
    (c.wr R.MSL_DEGRADED_VALID 1 n).logFlags
  | none => c

/-- A failing column that is not repaired (R123). -/
def Chip.columnDegraded (c : Chip) (bank sub col : Nat) : Chip :=
  (c.degrade 0 (columnKey bank sub col)).latch R.MSL_BT_STATUS_NO_SPARE

/-- The 64-bit repair record (R120). -/
def ColRepair.record (r : ColRepair) (seconds : Nat) : Nat :=
  r.bank + (r.sub <<< 6) + (r.col <<< 12) + (r.spare <<< 22) + (r.kind <<< 25) + (1 <<< 31) + (bits seconds 0 32 <<< 32)

/-- A repair of a column starts, or waits for the sweep that runs. -/
def Chip.startRepair (c : Chip) (r : ColRepair) : Chip :=
  { c with msl := { c.msl with
      repairs := c.msl.repairs ++ [r],
      sweep := if c.msl.sweep.isNone then some r else c.msl.sweep,
      btPending := if c.msl.sweep.isNone then c.msl.btPending else c.msl.btPending ++ [r] } }

/-- A failing column of a background test: repaired where a spare and a log slot are free, else degraded (R119, R121,
R123). -/
def Chip.repairColumn (c : Chip) (p : Nat × Nat × Nat) : Chip :=
  if !c.on R.MSL_CTRL_BT_AUTO_REPAIR || c.on R.MSL_BT_STATUS_LOG_FULL then c.columnDegraded p.1 p.2.1 p.2.2
  else
    match c.freeSpare p.1 p.2.1 with
    | some k => c.startRepair ⟨p.1, p.2.1, p.2.2, k, 1, false⟩
    | none => c.columnDegraded p.1 p.2.1 p.2.2

/-- RESULT of a repair command that completes, and its SERVICE record (R124, R512). [DEDUCED: log 50] -/
def Chip.repairResult (c : Chip) (n : Nat) : Chip := (c.wr R.MSL_REPAIR_CMD_RESULT n).journalService R.MSL_REPAIR_CMD 1 n

/-- The repair of a sweep is logged and reported (R119 step 4, R122); one the host applied enters the log only with KIND 2,
and reports in RESULT and in the journal (R124, R512). -/
def Chip.logRepair (c : Chip) (r : ColRepair) : Chip :=
  let c := if !r.host ∨ r.kind = 2 then
      match (List.range 64).find? (fun n => !c.on R.MSL_SOFT_REPAIR_VALID n) with
      | some n =>
        let rec_ := r.record c.seconds
        let c := c.wr R.MSL_SOFT_REPAIR_RECORD (bits rec_ 0 31) n
        let c := c.wr R.MSL_SOFT_REPAIR_VALID 1 n
        (c.wr R.MSL_SOFT_REPAIR_TIME (bits rec_ 32 32) n).logFlags
      | none => c
    else c
  let c := (c.latch R.MSL_BT_STATUS_REPAIRED).raise 3
  if r.host then c.repairResult 1 else c

/-- The reads of a sweep: single-bit errors in the affected lines are corrected as they are written back, and uncorrectable words met
(R119 step 2). [DEDUCED: log 45] -/
def Chip.sweepReads (c : Chip) (r : ColRepair) (found : List (Nat × Bool)) : Chip :=
  let c := (found.filter (fun p => r.covers p.1)).foldl (fun (c : Chip) p =>
    if p.2 then c.applyFound p else if c.msl.poisoned.contains p.1 then c else c.count R.MSL_ECC_CE_CNT_COUNT) c
  (c.msl.poisoned.filter r.covers).foldl (fun c w => c.muslinUe w 3) c

/-- The repairs that wait: the first sweeps next, unless the log is full; a column that finds it full is handled as one with no spare,
and its spare is free again (R121). -/
def Chip.nextSweep (c : Chip) : List ColRepair → Chip
  | [] => { c with msl := { c.msl with sweep := none, btPending := [] } }
  | r :: rs =>
    if c.on R.MSL_BT_STATUS_LOG_FULL then
      Chip.nextSweep (({ c with msl := { c.msl with repairs := c.msl.repairs.erase r } }).columnDegraded r.bank r.sub r.col) rs
    else { c with msl := { c.msl with sweep := some r, btPending := rs } }

/-- SOFT_REPAIR_SWEEP_DONE (R119, R121): the sweep that runs ends; a waiting one starts. `found` says what its reads find. -/
def execSoftRepairSweepDone (found : List (Nat × Bool)) (s : State) : Host.Outcome State Fault Refusal :=
  s.run [.regs, .dict, .msl, .odx, .sent] (fun c =>
    match c.msl.sweep with
    | none => c
    | some r =>
      let c := (c.sweepReads r found).logRepair r
      c.nextSweep c.msl.btPending)

/-- MSL_REPAIR_APPLY (R124): a write of GO. [DESIGN CHOICE: log 174] -/
def execMslRepairApply (s : State) : Host.Outcome State Fault Refusal :=
  s.runHost [.regs, .dict, .msl, .odx] (fun c =>
    let lo := c.rd R.MSL_REPAIR_APPLY_LO_RECORD_LO
    let r : ColRepair := ⟨bits lo 0 6, bits lo 6 6, bits lo 12 10, bits lo 22 3, bits lo 25 2, true⟩
    let bad := decide (35 < r.sub) || r.kind == 3 || !lo.testBit 31
    let taken := c.msl.repairs.any (fun q => q.bank == r.bank && q.sub == r.sub && q.spare == r.spare)
    if c.msl.sweep.isSome then c.wr R.MSL_REPAIR_CMD_RESULT 4
    else if bad then c.repairResult 3
    else if taken || c.on R.MSL_BT_STATUS_LOG_FULL then c.repairResult 2
    else c.startRepair r)

/-! ## Background test (R125 to R130) -/

/-- The four lines of region `r` in each bank of its group (R125). -/
def regionLine (r k : Nat) : Nat := 4 * (r % 8192) + k

/-- Whether region `r` lies in an entry of the degraded list (R125). [DEDUCED: log 45] -/
def Chip.regionDegraded (c : Chip) (r : Nat) : Bool :=
  (List.range 64).any (fun n =>
    c.on R.MSL_DEGRADED_VALID n &&
    (let loc := c.rd R.MSL_DEGRADED_LOCATION n
     if c.on R.MSL_DEGRADED_KIND n then bits loc 0 16 == r
     else bits loc 16 6 / 8 == r / 8192 &&
       (List.range 4).any (fun k => lineMeets (regionLine r k) (bits loc 10 6) (bits loc 0 10))))

/-- Whether the test skips group `g`: asleep, off, or excluded. -/
def Chip.groupSkipped (c : Chip) (g : Nat) : Bool := !c.groupActive g || (c.rd R.MSL_BT_CTRL_EXCLUDE).testBit g

/-- Whether the test skips region `r` (R125). [DEDUCED: log 45] -/
def Chip.regionSkipped (c : Chip) (r : Nat) : Bool := c.groupSkipped (r / 8192) || c.regionDegraded r

/-- The next region of this pass that is not skipped, from `r` on. -/
def Chip.nextRegion (c : Chip) : Nat → Nat → Option Nat
  | 0, _ => none
  | n + 1, r =>
    if 65536 ≤ r then none
    else if c.groupSkipped (r / 8192) then Chip.nextRegion c n ((r / 8192 + 1) * 8192)
    else if c.regionDegraded r then Chip.nextRegion c n (r + 1)
    else some r

/-- The test has done with region `r`; where no other region of the pass is left, the pass is complete (R125). -/
def Chip.regionDone (c : Chip) (r : Nat) : Chip :=
  match c.nextRegion 65544 (r + 1) with
  | some _ => { c with msl := { c.msl with btNext := r + 1 } }
  | none => { c.count R.MSL_BT_POS_PASSES with msl := { c.msl with btNext := 0 } }

/-- The region that is due: the next of this pass, or, where a pass ends with what is skipped now, the first of the next. -/
def Chip.dueRegion (c : Chip) : Chip × Option Nat :=
  match c.nextRegion 65544 c.msl.btNext with
  | some r => (c, some r)
  | none =>
    if c.msl.btNext = 0 then (c, none)
    else
      let c := { c.count R.MSL_BT_POS_PASSES with msl := { c.msl with btNext := 0 } }
      (c, c.nextRegion 65544 0)

/-- BT_REGION_START (R125 to R127, R129): GAP_MS after the last region began, the next one is saved into the spare buffer; an
uncorrectable word ends its test before the march. `found` says what the save reads find. -/
def execBtRegionStart (found : List (Nat × Bool)) (s : State) : Host.Outcome State Fault Refusal :=
  s.run [.regs, .tku, .msl, .sent] (fun c =>
    if !c.on R.MSL_CTRL_BT_EN || c.msl.btRegion.isSome || c.on R.MSL_BT_STATUS_LIST_FULL then c
    else
      match c.dueRegion with
      | (c, none) => c
      | (c, some r) =>
        let c := c.advanceTo (c.msl.btAt + c.rd R.MSL_BT_CTRL_GAP_MS * 1000000)
        let c := { c.wr R.MSL_BT_POS_REGION r with msl := { c.msl with btAt := c.now } }
        let c := c.findIn (4096 * r) 4096 found
        match c.poisonedIn (4096 * r) 4096 with
        | some w => (((c.muslinUe w 3).latch R.MSL_BT_STATUS_ABORT_UE)).regionDone r
        | none => { c.wr R.MSL_STATUS_BT_ACTIVE 1 with msl := { c.msl with btRegion := some r } })

/-- The columns that analysis names for the mismatching bits of region `r`, in rising order (R127 step 3). A bit is its bank within
the group, its line of the region, and its place in the stored line. [DEDUCED: log 45] -/
def regionColumns (r : Nat) (bad : List (Nat × Nat × Nat)) : List Nat :=
  bad.foldl (fun l p =>
    let q := storedAt (regionLine r p.2.1) p.2.2
    insertNat l (columnKey (8 * (r / 8192) + p.1) q.1 q.2.2)) []

/-- Whether the mismatching bits of a region are a column failure: at most two columns in each subarray, and at most two bits in any
one line of a subarray (R128). [DEDUCED: log 45] -/
def columnFailure (r : Nat) (bad : List (Nat × Nat × Nat)) : Bool :=
  let cols := regionColumns r bad
  cols.all (fun k => decide ((cols.filter (fun j => j / 1024 == k / 1024)).length ≤ 2)) &&
  bad.all (fun p => decide ((bad.filter (fun q => q.1 == p.1 && q.2.1 == p.2.1 && q.2.2 / 128 == p.2.2 / 128)).length ≤ 2))

/-- BT_REGION_END (R127, R128): the region is classified by the bits that mismatched in its march, its columns repaired or degraded,
its data restored. -/
def execBtRegionEnd (bad : List (Nat × Nat × Nat)) (s : State) : Host.Outcome State Fault Refusal :=
  s.run [.regs, .msl] (fun c =>
    match c.msl.btRegion with
    | none => c
    | some r =>
      let bad := bad.eraseDups
      let c := if columnFailure r bad then
          (regionColumns r bad).foldl (fun c k => c.repairColumn (k / 65536, k / 1024 % 64, k % 1024)) c
        else (c.degrade 1 r).latch R.MSL_BT_STATUS_MULTI_FAIL
      ({ c.wr R.MSL_STATUS_BT_ACTIVE 0 with msl := { c.msl with btRegion := none } }).regionDone r)

end Sys2Proof.Machine
end

