-- ==== Sys2Proof/Machine/Dram.lean ====
section
/-!
DEFINITION. The DRAM controller (chapter 10): requests, inline ECC and its scrub, page and pair retirement, training,
refresh and self-refresh.
-/
namespace Sys2Proof.Machine

/-! ## Capacity (R301, R318) -/

/-- DRC_CAP.USABLE_MIB: 0 until TRAINED. -/
def Chip.refreshCap (c : Chip) : Chip :=
  c.wr R.DRC_CAP_USABLE_MIB (if c.on R.DRC_STATUS_TRAINED then c.usableDram / 2 ^ 20 else 0)

/-- DRC_STATUS.BUSY: a page or pair retirement runs. -/
def Chip.refreshDrcBusy (c : Chip) : Chip :=
  c.wr R.DRC_STATUS_BUSY (b2n (c.drc.retiring.isSome || c.drc.pairing.isSome))

/-! ## Page retirement (R309 to R311) -/

/-- The page of DRAM a number names is already retired. -/
def Chip.pageRetired (c : Chip) (page : Nat) : Bool :=
  (List.range 256).any (fun n => c.on R.DRC_RETIRED_VALID n && c.rd R.DRC_RETIRED_PAGE n == page)

/-- The lowest free entry of the retired table. -/
def Chip.freeSparePage (c : Chip) : Option Nat :=
  (List.range c.sparePages).find? (fun n => !c.on R.DRC_RETIRED_VALID n && !c.drc.spareTaken.contains n)

/-- An ATU frame is retired: STATE 2 in its page-frame table entry, ADDR and GEN kept (R311). -/
def Chip.retireFrame (c : Chip) (frame : Nat) : Chip :=
  let a := c.rd R.ATU_PFT_BASE_LO_ADDR_LO + (c.rd R.ATU_PFT_BASE_HI_ADDR_HI <<< 32) + 8 * frame
  let r := c.devRead a 8
  if r.2.1 != 0 then r.1 else (r.1.devWrite a (leBytes 8 (setBits (leNat r.2.2) 36 2 2))).1

/-- The word of a retirement command. -/
def retireWord (frameEn : Bool) (frame : Nat) : Nat := 1 + (b2n frameEn <<< 1) + (frame <<< 2)

/-- RESULT of a retirement command that completes, and its SERVICE record (R310, R512). [DEDUCED: log 50] -/
def Chip.retireDone (c : Chip) (word n : Nat) : Chip := (c.wr R.DRC_RETIRE_CMD_RESULT n).journalService R.DRC_RETIRE_CMD word n

/-- The retirement of a page starts: entry `n` is taken; writes go to the page and its spare from now on. [DEDUCED: log 62] -/
def Chip.startRetire (c : Chip) (page n : Nat) (word : Option Nat := none) : Chip :=
  ({ c with drc := { c.drc with retiring := some (page, n), retireWord := word } }).refreshDrcBusy

/-- A corrected burst: counted, queued for its write-back, and counted against its page (R305, R308). A page that reaches
CE_LIMIT is logged, and retired under AUTO_RETIRE. [DEDUCED: log 58] -/
def Chip.dramCe (c : Chip) (burst src : Nat) : Chip :=
  let c := c.count R.DRC_ECC_CE_CNT
  let page := burst / 64
  let n := ((c.drc.ceCounts.find? (fun p => p.1 == page)).map (·.2)).getD 0 + 1
  let c := { c with drc := { c.drc with
      writebacks := c.drc.writebacks ++ [burst],
      ceCounts := ((page, n) :: c.drc.ceCounts.filter (fun p => p.1 != page)).take 64 } }
  if n = max 1 (c.rd R.DRC_CTRL_CE_LIMIT) then
    let c := if c.on R.DRC_ERR_LOG_VALID then c
      else (((c.wr R.DRC_ERR_LOG_KIND 1).wr R.DRC_ERR_LOG_SOURCE src).wr R.DRC_ERR_LOG_BURST (64 * page)).wr
        R.DRC_ERR_LOG_VALID 1
    let c := c.raise 7
    if c.on R.DRC_CTRL_AUTO_RETIRE && c.drc.retiring.isNone && !c.pageRetired page && decide (4096 * page < c.usableDram) then
      match c.freeSparePage with
      | some k => c.startRetire page k
      | none => c
    else c
  else c

/-- The errors in the stored bytes of a burst and of its check bytes: each byte, 0 to 67, that is wrong, and by what. -/
def burstErrors (errors : List (Nat × Byte)) : List (Nat × Byte) :=
  (List.range 68).filterMap (fun k =>
    let x := (errors.filter (fun p => p.1 == k)).foldl (fun (v : Byte) p => v ^^^ p.2) 0
    if x = 0 then none else some (k, x))

/-- What the code makes of the errors of a burst (R304). -/
inductive BurstCheck where
  | clean | corrected | uncorrectable | missed
  deriving DecidableEq, Repr

/-- One bad byte is corrected, two or three are detected; of more, the code may miss them. [DESIGN CHOICE: log 168] -/
def checkBurst (errors : List (Nat × Byte)) : BurstCheck :=
  match (burstErrors errors).length with
  | 0 => .clean
  | 1 => .corrected
  | 2 => .uncorrectable
  | 3 => .uncorrectable
  | _ => if Config.codeMisses (burstErrors errors) then .missed else .uncorrectable

/-- The stored bytes of the burst at place `b` with their errors. [DESIGN CHOICE: log 168] -/
def Chip.spoilBurst (c : Chip) (b : Nat) (errors : List (Nat × Byte)) : Chip :=
  let wrong := (burstErrors errors).filter (fun p => decide (p.1 < 64))
  let d := wrong.foldl (fun (d : Drc) p => d.set (64 * b + p.1) (d.get (64 * b + p.1) ^^^ p.2)) c.drc
  { c with drc := d }

/-- The DRC reads the burst at place `b`, named `burst`, and checks it (R304, R305). Without inline ECC an error goes undetected, as one
does that the code misses. -/
def Chip.meetErrors (c : Chip) (b burst src : Nat) (errors : List (Nat × Byte)) : Chip :=
  if !c.on R.DRC_CFG_ECC_EN then c.spoilBurst b errors
  else
    match checkBurst errors with
    | .clean => c
    | .corrected => if c.drc.poisoned.contains b then c else c.dramCe burst src
    | .uncorrectable => { c with drc := { c.drc with poisoned := insertNat c.drc.poisoned b } }
    | .missed => c.spoilBurst b errors

/-- The errors of one burst among those of several. -/
def errorsOf (errors : List (Nat × Nat × Byte)) (burst : Nat) : List (Nat × Byte) :=
  (errors.filter (fun p => p.1 == burst)).map (·.2)

/-- The retirement in progress completes: the page's bytes, corrected as they are read, are on the spare, an uncorrectable burst
poisoned, and later access goes there (R305, R309). `errors` says what the copy's reads meet. -/
def Chip.endRetire (c : Chip) (errors : List (Nat × Nat × Byte)) : Chip :=
  match c.drc.retiring with
  | none => c
  | some (page, n) =>
    let spare := c.usableDram + 4096 * n
    let c := (List.range 64).foldl (fun (c : Chip) k => c.meetErrors (64 * page + k) (64 * page + k) 3 (errorsOf errors (64 * page + k))) c
    let bad := c.drc.poisoned.filter (fun b => b / 64 == page)
    let c := bad.foldl (fun (c : Chip) b => c.dramUe b 3) c
    let d := c.drc.write spare (c.drc.read (4096 * page) 4096)
    let kept := d.poisoned.filter (fun b => b / 64 != spare / 4096)
    let d := { d with poisoned := bad.foldl (fun l b => insertNat l (b - 64 * page + spare / 64)) kept, retiring := none, retireWord := none }
    let c := { c with drc := d }
    let c := c.wr R.DRC_RETIRED_PAGE page n
    (c.wr R.DRC_RETIRED_VALID 1 n).refreshDrcBusy

/-- DRC_RETIRE (R309 to R311): a write of GO for the page in DRC_RETIRE_ADDR. -/
def execDrcRetire (frameEn : Bool) (frame : BitVec 17) (s : State) : Host.Outcome State Fault Refusal :=
  s.runHost [.regs, .dict, .muslin, .msl, .drc, .odx, .sent] (fun c =>
    let page := c.rd R.DRC_RETIRE_ADDR_PAGE
    let w := retireWord frameEn frame.toNat
    if c.drc.retiring.isSome || c.drc.pairing.isSome then c.wr R.DRC_RETIRE_CMD_RESULT 4
    else if c.pageRetired page || decide (c.usableDram ≤ 4096 * page) then c.retireDone w 3
    else
      let c := if frameEn then c.retireFrame frame.toNat else c
      match c.freeSparePage with
      | none => c.retireDone w 2
      | some n => c.startRetire page n (some w))

/-- RETIRE_COPY_DONE (R309): the copy ends; the command that started it completes. [DEDUCED: log 62] -/
def execRetireCopyDone (errors : List (Nat × Nat × Byte)) (s : State) : Host.Outcome State Fault Refusal :=
  s.run [.regs, .dict, .drc, .odx, .sent] (fun c =>
    if c.drc.retiring.isSome then
      match c.drc.retireWord with
      | some w => (c.endRetire errors).retireDone w 1
      | none => c.endRetire errors
    else c)

/-! ## Requests (R301 to R306) -/

/-- A read of the burst that holds an offset, served (R304, R305); a word that the network lost on its way tells the requester
NET_UNCORRECTABLE (R20). [DESIGN CHOICE: log 161] -/
def Chip.serveDramRead (c : Chip) (off unit : Nat) (errors : List (Nat × Byte)) (net : List (Nat × Bool)) : Chip :=
  let at_ := off - off % 64
  if !c.dramServes then c.unitMeets unit St.ISLAND_OFFLINE
  else
    let c := (c.linkErrors at_ 64 net).meetErrors (c.dramPlace at_ / 64) (at_ / 64) 0 errors
    let r := c.dramRead at_ 64
    let st := netStatus at_ 64 net r.2.1
    (r.1.emit .line at_ (b2n (st != 0)) r.2.2).unitMeets unit st

/-- The part of a write that lies in one burst (R306): with inline ECC, a part of a burst is merged with what a read of the burst finds.
The words that the network lost are not written (R20). -/
def Chip.burstWrite (c : Chip) (off : Nat) (data : List Byte) (errors : List (Nat × Byte)) (net : List (Nat × Bool)) : Chip × Nat :=
  let parts := writeParts off data.length net
  let whole := decide (data.length = 64) && decide (parts.length = 1)
  let c := if whole || !c.on R.DRC_CFG_ECC_EN || !c.dramServes then c
    else c.meetErrors (c.dramPlace off / 64) (off / 64) 1 errors
  parts.foldl (fun (s : Chip × Nat) p =>
    let w := s.1.dramWrite p.1 ((data.drop p.2.1).take p.2.2)
    (w.1, worse s.2 w.2)) (c, St.OK)

/-- A write served, burst by burst (R306). -/
def Chip.serveDramWrite (c : Chip) (off unit : Nat) (data : List Byte) (errors : List (Nat × Nat × Byte)) (net : List (Nat × Bool)) : Chip :=
  let r := (partsOf 64 off data.length).foldl (fun (s : Chip × Nat) p =>
    let w := s.1.burstWrite p.1 ((data.drop p.2.1).take p.2.2) (errorsOf errors (p.1 / 64)) net
    (w.1, worse s.2 w.2)) (c.linkErrors off data.length net, St.OK)
  r.1.unitMeets unit (netStatus off data.length net r.2)

/-- A request: during a pair retirement it is refused (R313); otherwise it waits at its port under QUIESCE, at the crossing of channels
in self-refresh (R317), and is served else. [DEDUCED: log 57] -/
def Chip.dramAccess (c : Chip) (i : Instr) (serve : Chip → Chip) : Chip :=
  if c.drc.pairing.isSome then serve c
  else if c.on R.DRC_CTRL_QUIESCE then { c with drc := { c.drc with port := c.drc.port ++ [i] } }
  else if c.dramServes && (c.drc.selfRefresh || !c.drc.held.isEmpty) then
    { c.askDram with drc := { c.askDram.drc with held := c.drc.held ++ [i] } }
  else serve c

/-- The parts that DRAM requests can reach, the streams of an operation that one fails among them. -/
def Parts.dram : List Part := [.regs, .muslin, .dsp, .msl, .drc, .dmk, .sent, .fresh]

/-- DRAM_READ (R301 to R305). -/
def execDramRead (addr unit : Nat) (errors : List (Nat × Byte)) (net : List (Nat × Bool)) (s : State) :
    Host.Outcome State Fault Refusal :=
  s.run Parts.dram (fun c =>
    if c.validRange [8] addr 1 then
      c.dramAccess (.dramRead addr unit errors net) (fun c => c.serveDramRead (devOffset addr) unit errors net)
    else c)

/-- DRAM_WRITE (R301, R306). -/
def execDramWrite (addr unit : Nat) (data : List Byte) (errors : List (Nat × Nat × Byte)) (net : List (Nat × Bool)) (s : State) :
    Host.Outcome State Fault Refusal :=
  s.run Parts.dram (fun c =>
    if c.validRange [8] addr data.length then
      c.dramAccess (.dramWrite addr unit data errors net) (fun c => c.serveDramWrite (devOffset addr) unit data errors net)
    else c)

/-- A held or waiting request served. [DEDUCED: log 57] -/
def Chip.serveDram (c : Chip) (i : Instr) : Chip :=
  match i with
  | .dramRead a u e l => c.serveDramRead (devOffset a) u e l
  | .dramWrite a u d e l => c.serveDramWrite (devOffset a) u d e l
  | _ => c

/-- The requests that wait at the ports enter when QUIESCE returns to 0, and are refused when a pair retirement starts (R313).
[DEDUCED: log 57] -/
def Chip.openPorts (c : Chip) : Chip :=
  let l := c.drc.port
  let c := { c with drc := { c.drc with port := [] } }
  l.foldl (fun (c : Chip) i => c.dramAccess i (fun c => c.serveDram i)) c

/-- DRAM_CE_WRITEBACK (R305): the corrected burst that waits longest is stored again; its bytes do not change. -/
def execDramCeWriteback (s : State) : Host.Outcome State Fault Refusal :=
  s.run [.drc] (fun c => { c with drc := { c.drc with writebacks := c.drc.writebacks.drop 1 } })

/-- Bursts of installed DRAM that the scrub visits: the usable capacity and the spare pages. [DEDUCED: log 60] -/
def Chip.scrubBursts (c : Chip) : Nat := c.usableDram / 64 + 64 * c.sparePages

/-- DRAM_SCRUB (R307, R308): the next burst is read and corrected; a pass ends one scrub period. -/
def execDramScrub (errors : List (Nat × Byte)) (s : State) : Host.Outcome State Fault Refusal :=
  s.run [.regs, .drc, .sent] (fun c =>
    if !(c.dramServes && c.on R.DRC_CFG_ECC_EN && c.rd R.DRC_CTRL_SCRUB_H != 0 && !c.drc.selfRefresh) then c
    else
      let b := c.drc.scrubPos
      let c := c.meetErrors b b 2 errors
      let c := if c.drc.poisoned.contains b then c.dramUe b 2 else c
      if b + 1 < c.scrubBursts then { c with drc := { c.drc with scrubPos := b + 1 } }
      else { c with drc := { c.drc with scrubPos := 0, ceCounts := [] } })

/-! ## Channel-pair retirement (R313) -/

/-- DRAM loses its contents: bytes not written since are free values (R313, R624). [DESIGN CHOICE: log 9, 183; DEDUCED: log 143] -/
def Chip.loseDram (c : Chip) : Chip :=
  let f := c.freshId
  let c := f.2
  { c with drc := { c.drc with cells := [], epoch := f.1 + 1, poisoned := [], writebacks := [], ceCounts := [] } }

/-- The retired table and every spare assignment cleared. -/
def Chip.clearRetired (c : Chip) : Chip :=
  let c := (List.range 256).foldl (fun (c : Chip) n => (c.wr R.DRC_RETIRED_VALID 0 n).wr R.DRC_RETIRED_PAGE 0 n) c
  { c with drc := { c.drc with spareTaken := [] } }

/-- RESULT of a pair retirement that completes, and its SERVICE record (R313, R512). [DEDUCED: log 50] -/
def Chip.pairDone (c : Chip) (pair n : Nat) : Chip := (c.wr R.DRC_PAIR_CMD_RESULT n).journalService R.DRC_PAIR_CMD (pair + 8) n

/-- DRC_PAIR_RETIRE (R313). [DEDUCED: log 60] -/
def execDrcPairRetire (pair : BitVec 3) (s : State) : Host.Outcome State Fault Refusal :=
  s.runHost [.regs, .dict, .muslin, .dsp, .msl, .drc, .dmk, .odx, .sent, .fresh] (fun c =>
    if c.on R.DRC_STATUS_PAIR_OUT then c.pairDone pair.toNat 2
    else if !c.on R.DRC_CTRL_QUIESCE || c.drc.retiring.isSome || c.drc.pairing.isSome || !c.drc.held.isEmpty then
      c.pairDone pair.toNat 3
    else
      let c := c.clearRetired.loseDram
      (({ c with drc := { c.drc with pairing := some pair.toNat } }).refreshDrcBusy).openPorts)

/-- PAIR_RETIRE_DONE (R313): the DRC runs on 14 channels. -/
def execPairRetireDone (s : State) : Host.Outcome State Fault Refusal :=
  s.run [.regs, .dict, .drc, .odx] (fun c =>
    match c.drc.pairing with
    | none => c
    | some k =>
      let c := ({ c with drc := { c.drc with pairing := none } }).refreshDrcBusy
      let c := ((c.wr R.DRC_STATUS_PAIR_OUT 1).wr R.DRC_STATUS_PAIR k).refreshCap
      c.pairDone k 1)

/-! ## Training (R315) -/

/-- Training starts, full or as a restore, unless one already runs. [DEDUCED: log 59] -/
def Chip.startTraining (c : Chip) (restore : Bool) : Chip :=
  if c.drc.training.isSome then c else { c with drc := { c.drc with training := some restore } }

/-- DRC_TRAIN_START (R315). -/
def execDrcTrainStart (s : State) : Host.Outcome State Fault Refusal := s.runHost [.drc] (fun c => c.startTraining false)

/-- DRC_TRAIN_RESTORE (R315). -/
def execDrcTrainRestore (s : State) : Host.Outcome State Fault Refusal := s.runHost [.drc] (fun c => c.startTraining true)

/-- Training ends: FAIL has the bits of the channels in service that failed, and TRAINED reads 1 when none did. [DEDUCED: log 59] -/
def Chip.endTraining (c : Chip) (fail : Nat) : Chip :=
  let f := c.channels.foldl (fun a k => if fail.testBit k then a ||| 2 ^ k else a) 0
  let c := { c with drc := { c.drc with training := none } }
  ((c.wr R.DRC_TRAIN_FAIL f).wr R.DRC_STATUS_TRAINED (b2n (f == 0))).refreshCap

/-- TRAINING_DONE (R315). -/
def execTrainingDone (fail : BitVec 16) (s : State) : Host.Outcome State Fault Refusal :=
  s.run [.regs, .drc] (fun c => if c.drc.training.isSome then c.endTraining fail.toNat else c)

/-! ## Periodic work (R316) -/

/-- WCK2DQ_CORRECTION (R316): a channel's timing is corrected; nothing a request can see changes. [DESIGN CHOICE: log 61] -/
def execWck2dqCorrection (channel : Nat) (s : State) : Host.Outcome State Fault Refusal :=
  s.run [.drc] (fun c =>
    if c.on R.DRC_CTRL_ENABLE && c.channels.contains channel then
      { c with drc := { c.drc with corrected := c.drc.corrected + 1 } }
    else c)

/-- DRAM_TEMP_READ (R316): the devices report how far refresh is derated, and whether one is above its rated range. -/
def execDramTempRead (derate : Nat) (high : Bool) (s : State) : Host.Outcome State Fault Refusal :=
  s.run [.regs, .drc, .sent] (fun c =>
    if c.on R.DRC_CTRL_ENABLE then
      let c := { c with drc := { c.drc with derate := derate } }
      if high then (c.latch R.DRC_STATUS_TEMP_HIGH).raise 7 else c
    else c)

/-- REFRESH_MANAGEMENT (R316). [DESIGN CHOICE: log 61] -/
def execRefreshManagement (channel : Nat) (s : State) : Host.Outcome State Fault Refusal :=
  s.run [.drc] (fun c =>
    if c.on R.DRC_CTRL_ENABLE && c.channels.contains channel then { c with drc := { c.drc with rfm := c.drc.rfm + 1 } } else c)

/-- DRAM_REFRESH (R316). [DESIGN CHOICE: log 61] -/
def execDramRefresh (channel : Nat) (s : State) : Host.Outcome State Fault Refusal :=
  s.run [.drc] (fun c =>
    if c.on R.DRC_CTRL_ENABLE && c.channels.contains channel && !c.drc.selfRefresh then
      { c with drc := { c.drc with refreshes := c.drc.refreshes + 1 } }
    else c)

/-! ## Self-refresh (R317) -/

/-- All channels enter self-refresh. -/
def Chip.enterSelfRefresh (c : Chip) : Chip :=
  { ((c.wr R.DRC_STATUS_SELF_REFRESH 1).setDomainState 3 3) with drc := { c.drc with selfRefresh := true } }

/-- Whether the channels may enter self-refresh: no request waits for them, and no pair is being retired. -/
def Chip.mayRefreshSelf (c : Chip) : Bool := !c.drc.selfRefresh && c.drc.held.isEmpty && c.drc.pairing.isNone

/-- SELF_REFRESH_ENTRY (R317): the power manager asks, or in Sentinel 1 ms passed without a request. -/
def execSelfRefreshEntry (s : State) : Host.Outcome State Fault Refusal :=
  s.run [.regs, .tku, .drc] (fun c =>
    if c.mayRefreshSelf then
      (if c.sentinel then c.advanceTo (c.drc.lastRequest + 1000000) else c).enterSelfRefresh
    else c)

/-- SELF_REFRESH_EXIT (R317): 8 us after the first request, the channels serve what they hold. -/
def execSelfRefreshExit (s : State) : Host.Outcome State Fault Refusal :=
  s.run (.tku :: Parts.dram) (fun c =>
    if c.drc.selfRefresh || !c.drc.held.isEmpty then
      let c := match c.drc.wakeAt with
        | some t => c.advanceTo (t + 8000)
        | none => c
      let l := c.drc.held
      let c := { ((c.wr R.DRC_STATUS_SELF_REFRESH 0).setDomainState 3 0) with
        drc := { c.drc with selfRefresh := false, wakeAt := none, held := [] } }
      l.foldl (fun (c : Chip) i => c.serveDram i) c
    else c)

end Sys2Proof.Machine
end

