-- ==== Sys2Proof/Machine/Power.lean ====
section
/-!
DEFINITION. The power manager (chapter 19): the estimate, the credits, operating points, measured power, thermal limits and
low-power states.
-/
namespace Sys2Proof.Machine

/-- The power manager's own state changed. -/
def Chip.setPwr (c : Chip) (f : Pwr → Pwr) : Chip := { c with pwr := f c.pwr }

/-- The grids of the power-monitor readings and the sensor samples (R552, R556). [DEDUCED: log 128] -/
def gridPmbus : Nat := 131
/-- [DEDUCED: log 128] -/
def gridThermal : Nat := 141

/-- A dictionary with the power entries of another, but for profile and cap. [DEDUCED: log 131] -/
def powerMerge (d p : Table Nat) : Table Nat :=
  d.filter (fun e => decide (e.1 < 0x580003)) ++ p.filter (fun e => decide (0x580003 ≤ e.1) && decide (e.1 < 0x5C0000)) ++
  d.filter (fun e => decide (0x5C0000 ≤ e.1))

/-- Work of estimate window `k`, under the power entries in force in it (R544). [DEDUCED: log 131] -/
def Chip.underWindow (c : Chip) (k : Nat) (f : Chip → Chip) : Chip :=
  match c.pwr.prior with
  | some (last, t) =>
    if k ≤ last then
      let r := f { c with dict := powerMerge c.dict t }
      { r with dict := powerMerge r.dict c.dict }
    else f (c.setPwr (fun p => { p with prior := none }))
  | none => f c

/-! ## `2^x` in FP32 (R545) -/

/-- `ln 2` in units of `2^-128`. -/
def ln2Fix : Nat := 0xB17217F7D1CF79ABC9E3B39803F2F6AF

/-- `e^y` by its series, in units of `2^-128`, for `y < 1`. -/
def expSeries : Nat → Nat → Nat → Nat → Nat
  | 0, _, _, acc => acc
  | n + 1, y, term, acc => expSeries n y (term * y / 2 ^ 128 / (40 - n)) (acc + term)

/-- `2^x` rounded to FP32. [DEDUCED: log 127] -/
def f32exp2 (x : Num) : Num :=
  if x.isNan then .nan
  else if Num.le (.ofNat 128) x then .inf false
  else if Num.le x (.ofInt (-160)) then .zero
  else
    let fl := x.floorInt
    let frac := ((x.sub (.ofInt fl)).shift 128).floorInt.toNat
    let v := expSeries 40 (frac * ln2Fix / 2 ^ 128) (2 ^ 128) 0
    r32 (.fin false (2 * v + (if frac = 0 then 0 else 1)) (fl - 129))

/-! ## Operating points (R548) -/

/-- The Damask supply of a point in hundredths of a volt. -/
def opSupply (p : Nat) : Nat := nth [55, 58, 62, 66, 70, 75, 80, 85] p 70

/-- `V / 0.75 V` and its square at the point in force (R545). -/
def Chip.supplyRatio (c : Chip) : Num := f32div (r32 (.div (.ofNat (opSupply (c.rd R.PWR_STATUS_OP))) (.ofNat 100))) (r32 (.div (.ofNat 3) (.ofNat 4)))
def Chip.supplySquare (c : Chip) : Num := f32mul c.supplyRatio c.supplyRatio

/-! ## Sensors (R552) -/

/-- The sensors of a domain. -/
def domainSensors (d : Nat) : List Nat :=
  match d with
  | 0 => [31]
  | 1 | 2 => [29]
  | 3 => [30]
  | 4 | 5 => List.range 16
  | 14 => [20] | 15 => [21] | 16 => [22] | 17 => [23] | 18 => [24] | 19 => [25] | 20 => [25]
  | 21 => [26] | 22 => [27] | 23 => [28]
  | d => [16 + (d - 6) / 2]

/-- The highest reading of a list of sensors. -/
def Chip.hottest (c : Chip) (l : List Nat) : Num :=
  match l.map (fun k => f32val (c.entry 0x7820 (k + 1))) with
  | [] => .zero
  | x :: r => r.foldl Num.max x

/-- Tj, and THROTTLE_C. -/
def Chip.tj (c : Chip) : Num := f32val (c.rd R.PWR_TJ_VALUE)
def Chip.throttleC (c : Chip) : Num := f32val (c.entry 0x5830 1)

/-! ## Phases and tolerances (R91, R549, R562) -/

/-- The phase in force of a unit (R91): held work is what the unit is held for under R88, and the ATU's held operations.
[DESIGN CHOICE: log 173] -/
def Chip.phaseOf (c : Chip) (u : Nat) : Nat :=
  match c.op? u with
  | some o => Desc.phase o.raw
  | none =>
    let work := (c.readyFor (unitServes u)).map (fun k => (k.cls, Desc.phase k.raw)) ++
      (c.dsp.suspended.filter (fun o => o.unit == u)).map (fun o => (o.cls, Desc.phase o.raw)) ++
      (c.heldFor u).map (fun p => (p.1, Desc.phase p.2)) ++
      (if u = 1 then c.atu.holds.map (fun h => (h.2.op.cls, Desc.phase h.2.op.raw)) else [])
    match bestBy (fun a b => decide (a.1 < b.1)) work with
    | some w => w.2
    | none => c.rd R.DSP_IDLE_PHASE_PHASE

/-- The Damask phase (R549). -/
def Chip.damaskPhase (c : Chip) : Nat := if (c.op? 1).isSome then c.phaseOf 1 else c.phaseOf 0

/-- A unit's wake tolerance in us. -/
def Chip.tolerance (c : Chip) (u : Nat) : Nat := c.entry (0x5810 + c.phaseOf u) 2

/-- The least tolerance of a list of units. -/
def Chip.leastTolerance (c : Chip) (us : List Nat) : Nat := us.foldl (fun m u => min m (c.tolerance u)) 100000

/-! ## The estimate (R545 to R547) -/

/-- The counters of a domain, as places in the list of counts with their coefficients: counters 0 to 4 of Damask, the eight
groups, the three Twill domains, then ATU to NET in the order of R546. [DESIGN CHOICE: log 126] -/
def domainCounters (d : Nat) : List (Nat × Nat) :=
  match d with
  | 1 => [(25, 15)]
  | 2 => [(24, 14)]
  | 3 => [(17, 8)]
  | 4 => [(0, 0), (1, 1), (2, 2), (3, 3), (4, 4)]
  | 14 => [(13, 6)] | 15 => [(14, 6)] | 16 => [(15, 6)]
  | 17 => [(16, 7)] | 18 => [(18, 9)] | 19 => [(19, 10)] | 20 => [(20, 11)] | 21 => [(21, 12)] | 22 => [(22, 12)]
  | 23 => [(23, 13)]
  | d => if 6 ≤ d ∧ d ≤ 13 then [(5 + (d - 6), 5)] else []

/-- One counter's power: `c * n / 2 us * s`, with c in pJ. [DEDUCED: log 127] -/
def Chip.counterPower (c : Chip) (n i : Nat) : Num :=
  let p := f32div (f32mul (f32val (c.entry 0x5820 (i + 1))) (r32 (.ofNat n))) (.ofNat 2000000)
  if i ≤ 4 then f32mul p c.supplySquare else p

/-- The leakage factor `2^((T - 105) / 25)` of a domain. [DEDUCED: log 127] -/
def Chip.leakFactor (c : Chip) (d : Nat) : Num :=
  f32exp2 (f32div (f32sub (c.hottest (domainSensors d)) (.ofNat 105)) (.ofNat 25))

/-- P_d of a domain (R545). -/
def Chip.domainPower (c : Chip) (counts : List Nat) (d : Nat) : Num :=
  let leak := f32val (c.entry 0x5822 (d + 1))
  let st := c.domainState d
  if st = 2 then .zero
  else if st = 3 ∧ 6 ≤ d ∧ d ≤ 13 then f32mul (f32mul leak (r32 (.div (.ofNat 12) (.ofNat 100)))) (c.leakFactor d)
  else
    let b := if st = 1 then Num.zero else f32val (c.entry 0x5821 (d + 1))
    let dyn := (domainCounters d).foldl (fun a p => f32add a (c.counterPower (nth counts p.1 0) p.2)) b
    let l := f32mul leak (c.leakFactor d)
    f32add dyn (if d = 4 ∨ d = 5 then f32mul l c.supplyRatio else l)

/-- The rate class of the operation that Damask runs, class B when none (R138, R553). -/
def Chip.runningRate (c : Chip) : Nat :=
  match (match c.op? 0 with | some o => some o | none => c.op? 1) with
  | some o =>
    let w := max (fmtWidth (fmtCode (Desc.fmtA o.raw))) (fmtWidth (fmtCode (Desc.fmtB o.raw)))
    if w = 4 then 0 else if w ≤ 8 then 1 else if w = 16 then 2 else 3
  | none => 1

/-- The cap in force (R27). -/
def Chip.powerCap (c : Chip) : Nat :=
  match c.entry 0x5800 1 with
  | 0 => 120
  | 1 => c.entry 0x5800 2
  | 2 => min 40 (c.entry 0x5800 2)
  | _ => 35

/-- The target of R553, when it is a number. [DEDUCED: log 127] -/
def Chip.creditTarget (c : Chip) (e dyn : Num) : Option Int :=
  let suspect := c.on R.PWR_STATUS_SUSPECT
  let cap := Num.ofNat c.powerCap
  let k := if suspect then f32val c.pwr.ratio else .ofNat 1
  let limit := if suspect then f32mul (r32 (.div (.ofNat 9) (.ofNat 10))) cap else cap
  let f := r32 (.div (.ofNat c.damaskMHz) (.ofNat 1000))
  let nj := fun i => f32mul (f32div (f32val (c.entry 0x5820 (i + 1))) (.ofNat 1000)) c.supplySquare
  let ei := nj c.runningRate
  let ed := nj 4
  let rest := f32sub e dyn
  let room := f32sub (f32sub (f32div limit k) rest) (f32mul f ed)
  let q := f32div (f32mul (.ofNat 64) room) (f32mul f (f32sub ei ed))
  if q.isFinite then some q.floorInt else none

/-- DMK_ISSUE and the process value follow the credits (R553, R568). -/
def Chip.setCredits (c : Chip) (n : Nat) : Chip :=
  let c := c.wr R.PWR_CREDITS_CREDITS n
  let c := c.wr R.DMK_ISSUE_THROTTLED (b2n (decide (n < 64)))
  let c := c.wr R.DMK_ISSUE_CREDITS (if n < 64 then n else 0)
  c.setEntry 0x7800 6 n

/-- The credits of the next window, from `CAP_CREDITS` and `THERM_CREDITS` (R553, R558, R560). -/
def Chip.applyCredits (c : Chip) : Chip :=
  let n := min (c.rd R.PWR_CREDITS_CAP_CREDITS) (c.rd R.PWR_CREDITS_THERM_CREDITS)
  c.setCredits (if c.on R.PWR_STATUS_TRIP then 0 else if c.sentinel then min n 8 else n)

/-- CAP_CREDITS after a window (R553). A target that is no number is a free value. -/
def Chip.stepCapCredits (c : Chip) (e dyn : Num) : Chip :=
  let p : Chip × Int := match c.creditTarget e dyn with
    | some t => (c, t)
    | none => let f := c.freshId; (f.2, (Config.freeNat f.1 : Int) - 1)
  let cap := (p.1.rd R.PWR_CREDITS_CAP_CREDITS : Int)
  let v := if p.2 < cap then p.2 else min p.2 (cap + 4)
  p.1.wr R.PWR_CREDITS_CAP_CREDITS (max (p.1.entry 0x5800 3 : Int) (min v 64)).toNat

/-! ## The operating point (R29, R550, R551) -/

/-- The point the profile asks for (R550). [DEDUCED: log 130] -/
def Chip.opTarget (c : Chip) : Nat :=
  match c.entry 0x5800 1 with
  | 0 => 7 - c.pwr.steps
  | 2 => c.entry (0x5810 + c.damaskPhase) 1 - c.pwr.steps
  | _ => 4

/-- The power manager asks for the point it wants, where that may change now (R550). -/
def Chip.wantPoint (c : Chip) : Chip :=
  let t := c.opTarget
  let rested := match c.pwr.lastChange with
    | some l => decide (l + 1000 * (c.entry 0x5800 4 : Int) ≤ c.unstepped c.now)
    | none => true
  if c.pwr.settling.isSome then c
  else match c.pwr.waiting with
    | some w =>
      if !w.autonomous then c
      else if t = c.rd R.PWR_STATUS_OP then c.setPwr (fun p => { p with waiting := none })
      else c.setPwr (fun p => { p with waiting := some ⟨t, true⟩ })
    | none =>
      if t != c.rd R.PWR_STATUS_OP && rested then c.setPwr (fun p => { p with waiting := some ⟨t, true⟩ }) else c

/-- Step-downs come into force and are withdrawn (R550), at the end of a 1 ms interval and after 10 ms without throttling.
[DEDUCED: log 130] -/
def Chip.stepDowns (c : Chip) (msEnd : Bool) : Chip :=
  let profile := c.entry 0x5800 1
  let c := if msEnd && (profile == 0 || profile == 2) && (c.pwr.lowAll || c.on R.PWR_STATUS_THERMAL_THROTTLE) then
      c.setPwr (fun p => { p with steps := min 7 (p.steps + 1) })
    else c
  if decide (5000 ≤ c.pwr.clearRun) && c.pwr.steps != 0 && Num.lt c.tj (f32sub c.throttleC (.ofNat 5)) then
    c.setPwr (fun p => { p with steps := p.steps - 1, clearRun := 0 })
  else c

/-- OP_CHANGE_START (R29): no Damask tile is under way, so issue stops while clocks and supply settle. [DEDUCED: log 25] -/
def execOpChangeStart (s : State) : Host.Outcome State Fault Refusal :=
  s.run [.pwr] (fun c =>
    let busy := fun u => match c.op? u with | some o => o.tileReady | none => false
    match c.pwr.waiting with
    | some w =>
      if busy 0 || busy 1 then c else c.setPwr (fun p => { p with waiting := none, settling := some (w, c.now) })
    | none => c)

/-- OP_SETTLE_END (R29, R548, R568): 10 us later the new point is in force. -/
def execOpSettleEnd (s : State) : Host.Outcome State Fault Refusal :=
  s.run [.regs, .dict, .tku, .pwr] (fun c =>
    match c.pwr.settling with
    | some (w, since) =>
      let c := c.advanceTo (since + 10000)
      let c := ((c.wr R.PWR_STATUS_OP w.target).setEntry 0x7800 5 w.target).count R.PWR_OP_CHG_CNT_COUNT
      c.setPwr (fun p => { p with settling := none, lastChange := some (c.unstepped c.now) })
    | none => c)

/-! ## The window (R545, R553 to R555) -/

/-- The mean of a sum of estimates. -/
def meanOf (sum windows : Nat) : Nat := if windows = 0 then 0 else f32bits (f32div (f32val sum) (.ofNat windows))

/-- R554: over the cap with the credits at their floor, once in each 1 ms interval. -/
def Chip.overCap (c : Chip) (e : Num) (used : Nat) : Chip :=
  if !c.on R.PWR_STATUS_SUSPECT && used == c.entry 0x5800 3 && Num.lt (.ofNat c.powerCap) e && !c.pwr.overDone then
    let c := ((c.latch R.PWR_STATUS_OVER_CAP).count R.PWR_OVER_CAP_CNT_COUNT).raise 18
    c.setPwr (fun p => { p with overDone := true })
  else c

/-- A window that ran with `used` credits is counted (R550, R555, R567). -/
def Chip.countWindow (c : Chip) (e : Num) (used : Nat) : Chip :=
  let low := decide (used < 64)
  let c := if low then c.count R.PWR_THROTTLE_CNT_COUNT else c
  let c := if low && c.entry 0x5800 1 == 1 then c.count R.PWR_STEADY_PERTURBED_CNT_COUNT else c
  c.setPwr (fun p => { p with sum := f32bits (f32add (f32val p.sum) e), windows := p.windows + 1,
                              lowAll := p.lowAll && decide (used < 56), clearRun := if low then 0 else p.clearRun + 1 })

/-- The 1 ms interval ends: its mean is kept, and a new one begins. -/
def Chip.intervalEnd (c : Chip) : Chip :=
  c.setPwr (fun p => { p with mean := meanOf p.sum p.windows, sum := 0, windows := 0, overDone := false, lowAll := true })

/-- ESTIMATE_WINDOW_END (R545, R553): at the next grid time, the estimate of the window that ended there from its activity
counts, and the credits of the next one. [DESIGN CHOICE: log 126] -/
def execEstimateWindowEnd (counts : List Nat) (s : State) : Host.Outcome State Fault Refusal :=
  s.runKeeper [.regs, .dict, .tku, .pwr, .sent, .fresh] (fun c =>
    let rule : GridRule := ⟨2000, 2000, 1⟩
    let t := c.gridNext gridPower rule
    let c := (c.advanceTo t).gridServe gridPower t
    c.underWindow (t / 2000 - 1) (fun c =>
      let ps := (List.range 24).map (fun d => c.domainPower counts d)
      let e := ps.foldl f32add .zero
      let dyn := (domainCounters 4).foldl (fun a p => f32add a (c.counterPower (nth counts p.1 0) p.2)) .zero
      let used := c.rd R.PWR_CREDITS_CREDITS
      let c := (c.wr R.PWR_EST_W_VALUE (f32bits e)).setEntry 0x7800 1 (f32bits e)
      let c := ps.zipIdx.foldl (fun (c : Chip) p => c.setEntry 0x7810 (p.2 + 1) (f32bits p.1)) c
      let c := (c.overCap e used).countWindow e used
      let msEnd := t % 1000000 == 0
      let c := c.stepDowns msEnd
      let c := if msEnd then c.intervalEnd else c
      (c.stepCapCredits e dyn).applyCredits.wantPoint))

/-- A commit instant `t` changed entries (R29, R544, R551): estimate windows that began before it keep the old ones; a change of
profile or cap brings its own operating point. [DEDUCED: log 131] -/
def Chip.pwrCommitted (old c : Chip) (t : Nat) : Chip :=
  let power := fun (d : Table Nat) => d.filter (fun e => decide (0x580000 ≤ e.1) && decide (e.1 < 0x5C0000))
  let window := (t - 1) / 2000
  let kept := match c.pwr.prior with | some (last, _) => last == window | none => false
  let c := if power old.dict = power c.dict || kept then c
    else c.setPwr (fun p => { p with prior := some (window, power old.dict) })
  if old.entry 0x5800 1 = c.entry 0x5800 1 ∧ old.entry 0x5800 2 = c.entry 0x5800 2 then c
  else
    let target := c.opTarget
    match c.pwr.settling with
    | some _ => c.setPwr (fun p => { p with waiting := none, settling := some (⟨target, false⟩, t) })
    | none =>
      c.setPwr (fun p => { p with waiting := if target = c.rd R.PWR_STATUS_OP then none else some ⟨target, false⟩ })

/-! ## Measured power (R556, R557) -/

/-- The value of a LINEAR11 word. -/
def linear11 (w : Nat) : Num := .ofScaled (toSigned 11 (bits w 0 11)) (toSigned 5 (bits w 11 5))

/-- The devices the power manager reads. -/
def Chip.monitors (c : Chip) : Nat := ((List.range 4).filter (fun k => c.entry 0x5801 (4 + k) != 0xFF)).length

/-- No reading this millisecond: runs break, and after 10 the measurement counts as lost. [DEDUCED: log 129] -/
def Chip.readingAbsent (c : Chip) : Chip :=
  let c := c.setPwr (fun p => { p with disagree := 0, agree := 0, absent := p.absent + 1 })
  if 10 ≤ c.pwr.absent then
    ((c.wr R.PWR_STATUS_MEAS_LOST 1).wr R.PWR_STATUS_SUSPECT 0).setEntry 0x7800 3 0
  else c

/-- A reading `m` compared with the mean estimate of its interval. [DEDUCED: log 128] -/
def Chip.readingCompared (c : Chip) (m : Num) : Chip :=
  let mean := f32val c.pwr.mean
  let off := Num.lt (f32mul (.ofScaled 1 (-2)) m) (f32sub mean m).abs
  let k := Num.max (.ofScaled 1 (-2)) (Num.min (f32div m mean) (.ofNat 4))
  let k := if (f32div m mean).isNan then Num.nan else k
  let c := (c.wr R.PWR_STATUS_MEAS_LOST 0).setPwr (fun p =>
    { p with absent := 0, ratio := f32bits k, disagree := if off then p.disagree + 1 else 0,
             agree := if off then 0 else p.agree + 1 })
  if !c.on R.PWR_STATUS_SUSPECT && decide (11 ≤ c.pwr.disagree) then
    (((c.wr R.PWR_STATUS_SUSPECT 1).setEntry 0x7800 3 1).count R.PWR_SUSPECT_CNT_COUNT).raise 18
  else if c.on R.PWR_STATUS_SUSPECT && decide (1000 ≤ c.pwr.agree) then
    (c.wr R.PWR_STATUS_SUSPECT 0).setEntry 0x7800 3 0
  else c

/-- PMBUS_READ (R556, R557): at the next grid time, the words read from the named devices in address order; none for a read
that failed. -/
def execPmbusRead (readings : List (Option Nat)) (s : State) : Host.Outcome State Fault Refusal :=
  s.runKeeper [.regs, .dict, .tku, .pwr, .sent] (fun c =>
    if !c.entryOn 0x5801 1 then c else
    let t := c.gridNext gridPmbus ⟨1000000, 1000000, 1⟩
    let c := (c.advanceTo t).gridServe gridPmbus t
    let l := (List.range c.monitors).map (fun k => (readings[k]?).getD none)
    let c := c.count R.PWR_MEAS_FAIL_CNT_COUNT 0 (l.filter (·.isNone)).length
    if l.any (·.isNone) then c.readingAbsent
    else
      let sum := l.foldl (fun a w => f32add a (r32 (linear11 (w.getD 0)))) Num.zero
      let m := f32mul (f32val (c.entry 0x5801 9)) sum
      ((c.wr R.PWR_MEAS_W_VALUE (f32bits m)).setEntry 0x7800 2 (f32bits m)).readingCompared m)

/-! ## Thermal limits (R552, R558 to R560) -/

/-- THERM_CREDITS after a sample (R558): 8 fewer while Tj is at or above THROTTLE_C, 8 more for each 1 ms below
THROTTLE_C - 2. -/
def Chip.stepThermCredits (c : Chip) : Chip :=
  let v := c.rd R.PWR_CREDITS_THERM_CREDITS
  let floor := c.entry 0x5800 3
  let cool := Num.lt c.tj (f32sub c.throttleC (.ofNat 2))
  let c := c.setPwr (fun p => { p with coolRun := if cool then p.coolRun + 1 else 0 })
  let v := if Num.le c.throttleC c.tj then max floor (v - 8)
    else if cool && c.pwr.coolRun % 10 == 0 then min 64 (v + 8) else v
  (c.wr R.PWR_CREDITS_THERM_CREDITS v).wr R.PWR_STATUS_THERMAL_THROTTLE (b2n (decide (v < 64)))

/-- THERMAL_SAMPLE (R552, R558 to R560): at the next grid time, the readings of the 32 sensors in C, as FP32 words.
[DEDUCED: log 129] -/
def execThermalSample (readings : List Word) (s : State) : Host.Outcome State Fault Refusal :=
  s.runKeeper [.regs, .dict, .tku, .pwr, .sent] (fun c =>
    let t := c.gridNext gridThermal ⟨100000, 100000, 1⟩
    let c := (c.advanceTo t).gridServe gridThermal t
    let before := c.tj
    let c := (List.range 32).foldl (fun (c : Chip) k =>
      match readings[k]? with
      | some w => c.setEntry 0x7820 (k + 1) w.toNat
      | none => c) c
    let tj := f32bits (c.hottest (List.range 32))
    let c := (c.wr R.PWR_TJ_VALUE tj).setEntry 0x7800 4 tj
    let c := c.stepThermCredits
    let reached := fun (limit : Nat) => Num.le (.ofNat limit) c.tj && Num.lt before (.ofNat limit)
    let c := if reached 105 then
        let c := (c.wr R.PWR_CREDITS_THERM_CREDITS (c.entry 0x5800 3)).wr R.PWR_STATUS_THERMAL_THROTTLE 1
        (c.latchFault R.PWR_STATUS_OVER_TEMP).raise 18
      else c
    if Num.le (.ofNat 115) c.tj then
      ((c.wr R.PWR_STATUS_TRIP 1).setPwr (fun p => { p with thermtrip := true })).setCredits 0
    else c)

/-! ## Low-power states (R561 to R565) -/

/-- The units whose tolerance counts for a domain (R562). -/
def domainUnits (d : Nat) : List Nat :=
  match d with
  | 4 | 5 => [0, 1]
  | 14 | 15 | 16 => (List.range 6).map (· + (2 + 6 * (d - 14)))
  | 17 => [1] | 18 => [20] | 19 => [21] | 20 => [22] | 21 => [23] | 22 => [24]
  | _ => []

/-- The domains that the tolerance rule sets (R562), but for 3. -/
def sleepers : List Nat := [4, 5, 14, 15, 16, 17, 18, 19, 20, 21, 22]

/-- Whether a cluster of a domain is the ATU's, or of the Gingham pair while Gingham is enabled (R562). [DEDUCED: log 132] -/
def Chip.clusterBound (c : Chip) (d : Nat) : Bool :=
  let mine := fun k => decide (14 + k / 6 = d)
  (c.on R.ATU_CTRL_ENABLE && mine (c.rd R.ATU_CTRL_TWILL_CLUSTER)) ||
  (c.entryOn 0x5C00 1 && (mine (c.rd R.TWL_GNG_PAIR_CLUSTER_A) || mine (c.rd R.TWL_GNG_PAIR_CLUSTER_B)))

/-- Whether a domain keeps its islands powered (R562): a valid pin, a suspended operation or open chain, a bound cluster, a
held operation, or Gauze enabled. -/
def Chip.domainBarred (c : Chip) (d : Nat) : Bool :=
  if d = 4 ∨ d = 5 then !c.validPins.isEmpty
  else if 14 ≤ d ∧ d ≤ 16 then
    c.dsp.suspended.any (fun o => (domainUnits d).contains o.unit) ||
    c.dsp.chains.any (fun p => decide (14 + p.1 / 8 / 6 = d)) || c.clusterBound d
  else if d = 17 then !c.atu.holds.isEmpty
  else if d = 18 then c.on R.GZE_CTRL_ENABLE
  else false

/-- Whether a domain that Sentinel switches off stays clock-gated (R30): a held operation, a suspended operation or an open chain. -/
def Chip.sentinelGated (c : Chip) (d : Nat) : Bool :=
  if 14 ≤ d ∧ d ≤ 16 then
    c.dsp.suspended.any (fun o => (domainUnits d).contains o.unit) || c.dsp.chains.any (fun p => decide (14 + p.1 / 8 / 6 = d))
  else d == 17 && !c.atu.holds.isEmpty

/-- Whether Sentinel keeps a domain on (R27). -/
def Chip.sentinelDomain (c : Chip) (d : Nat) : Bool := (domainUnits d).any c.sentinelKeeps

/-- Whether work of a unit is ready or suspended, and may start in the profile in force. -/
def Chip.unitWork (c : Chip) (u : Nat) : Bool :=
  (!c.sentinel || c.sentinelKeeps u) &&
  (!(c.readyFor (unitServes u)).isEmpty || c.dsp.suspended.any (fun o => o.unit == u))

/-- Since when a domain is idle. [DEDUCED: log 132] -/
def Chip.idleSince (c : Chip) (d : Nat) : Nat :=
  (domainUnits d).foldl (fun t u => max t (Table.getD c.dsp.freeAt u 0)) (Table.getD c.pwr.activeAt d 0)

/-- The state that R562 and R30 choose for a domain: 0 Active, 1 clock-gated, 2 island-off. [DEDUCED: log 132] -/
def Chip.chooseState (c : Chip) (d : Nat) : Nat :=
  let us := domainUnits d
  let tol := c.leastTolerance us
  let barred := c.domainBarred d
  if us.any (fun u => (c.op? u).isSome) || ((d = 4 ∨ d = 5) ∧ c.on R.DMK_STATUS_SWAP_ACTIVE) then 0
  else if c.sentinel && !c.sentinelDomain d then (if c.sentinelGated d then 1 else 2)
  else if us.any c.unitWork then 0
  else if !c.sentinel && decide (c.idleSince d + 1000 * c.entry 0x5800 5 ≤ c.now) && decide (12 ≤ tol) && !barred then 2
  else if 1 ≤ tol then 1 else 0

/-- The ATU's tables saved before its domain goes off (R236). Their layout is not given, so the bytes are free values. -/
def Chip.atuSaveAt (c : Chip) : Nat := c.rd R.ATU_SAVE_BASE_LO_ADDR_LO + (c.rd R.ATU_SAVE_BASE_HI_ADDR_HI <<< 32)
/-- [DESIGN CHOICE: log 67] -/
def Chip.atuSave (c : Chip) : Chip :=
  let f := c.freshId
  (f.2.devWrite c.atuSaveAt (leBytes 262144 (Config.freeNat f.1))).1

/-- They are restored before the ATU accepts work; after an uncorrectable error it starts empty. [DESIGN CHOICE: log 67] -/
def Chip.atuRestore (c : Chip) : Chip :=
  let r := c.devRead c.atuSaveAt 262144
  if r.2.1 == 0 then r.1
  else (((List.range 2048).foldl (fun (c : Chip) n => c.seqBit n 0 false) r.1).setFifo []).latchFault R.ATU_STATUS_SAVE_LOST

/-- A domain is switched off: it keeps its registers and loses datapath state and on-island stores (R561). -/
def Chip.switchOff (c : Chip) (d : Nat) : Chip :=
  let c := match d with
    | 4 =>
      let c := (List.range 32).foldl (fun (c : Chip) n => (c.wr R.DMK_PIN_VALID 0 n).wr R.DMK_PIN_CORRUPT 0 n) c
      ({ c with dmk := { c.dmk with slots := [] } }).clearCells.countPins
    | 17 => c.atuSave
    | 21 => { c with cnv := modifyNth c.cnv 0 (fun k => { k with store := none }) }
    | 22 => { c with cnv := modifyNth c.cnv 1 (fun k => { k with store := none }) }
    | _ => c
  c.setDomainState d 2

/-- A wake of a domain starts, unless it is Active or waking. -/
def Chip.startWake (c : Chip) (d : Nat) : Chip :=
  if c.domainState d = 0 ∨ (Table.get? c.pwr.waking d).isSome then c
  else c.setPwr (fun p => { p with waking := Table.put p.waking d c.now })

/-- A domain moves to its chosen state: deeper at once, less deep by a wake. -/
def Chip.applyState (c : Chip) (d : Nat) : Chip :=
  let v := c.chooseState d
  let now := c.domainState d
  if (Table.get? c.pwr.waking d).isSome || c.bup.restarting.contains d then c
  else if v < now then c.startWake d
  else if v = 2 ∧ now ≠ 2 then c.switchOff d
  else c.setDomainState d v

/-- Domain 3 rests in self-refresh after DRAM_IDLE_US when every unit tolerates its exit (R562). [DEDUCED: log 133] -/
def Chip.restDram (c : Chip) : Chip :=
  if c.mayRefreshSelf && decide (8 ≤ c.leastTolerance (List.range 27)) &&
      decide (c.drc.lastRequest + 1000 * c.entry 0x5800 6 ≤ c.now)
  then c.enterSelfRefresh else c

/-- Device-wide Retention (R565). [DEDUCED: log 133] -/
def Chip.restDevice (c : Chip) : Chip :=
  let quiet := c.dsp.running.isEmpty && c.dsp.suspended.isEmpty && c.atu.holds.isEmpty && (c.readyFor (fun e => decide (e ≤ 9))).isEmpty
  let c := if c.rd R.PWR_STATUS_DEVICE_STATE = 1 ∧ !quiet then c.wr R.PWR_STATUS_DEVICE_STATE 0 else c
  if c.rd R.PWR_STATUS_DEVICE_STATE = 0 && quiet && sleepers.all (fun d => c.domainState d == 2) &&
      decide (60 ≤ c.leastTolerance (List.range 27)) then
    let c := c.wr R.PWR_STATUS_DEVICE_STATE 1
    let c := if c.mayRefreshSelf then c.enterSelfRefresh else c
    (List.range 8).foldl (fun (c : Chip) g =>
      if (c.rd R.MSL_RET_CTRL_RET_ALLOW).testBit g && !(c.sentinel && g == 0) && c.groupActive g && !c.underTest g
      then c.enterRetention g else c) c
  else c

/-- DOMAIN_STATE_SELECT (R30, R562 to R565): every domain takes the deepest state allowed, or starts its wake. -/
def execDomainStateSelect (s : State) : Host.Outcome State Fault Refusal :=
  s.run [.regs, .muslin, .msl, .drc, .dmk, .cnv, .pwr, .sent, .fresh]
    (fun c => if c.pwr.standby != 0 then c else ((sleepers.foldl (fun (c : Chip) d => c.applyState d) c).restDram).restDevice)

/-- When the wake of a domain began: as noted, or when the first work for it became ready (R563). [DEDUCED: log 133] -/
def Chip.wakeStart (c : Chip) (d : Nat) : Option Nat :=
  match Table.get? c.pwr.waking d with
  | some t => some t
  | none =>
    let us := (domainUnits d).filter (fun u => !c.sentinel || c.sentinelKeeps u)
    let ready := (us.map (fun u => (c.readyFor (unitServes u)).map (·.since))).flatten
    let back := us.any (fun u => c.dsp.suspended.any (fun o => o.unit == u))
    match bestBy (fun (a b : Nat) => decide (a < b)) ready with
    | some t => some t
    | none => if back then some c.now else none

/-- DOMAIN_WAKE_DONE (R563): 0.2 us from clock-gated, 12 us from island-off, or 60 us from Retention after its wake began, a
domain is Active. [DEDUCED: log 132] -/
def execDomainWakeDone (domain : Nat) (s : State) : Host.Outcome State Fault Refusal :=
  s.run [.regs, .muslin, .tku, .dsp, .qmg, .msl, .drc, .atu, .pwr, .gng, .sent] (fun c =>
    let st := c.domainState domain
    if !sleepers.contains domain || st == 0 || c.pwr.standby != 0 || c.bup.restarting.contains domain then c else
    match c.wakeStart domain with
    | none => c
    | some t =>
      let took := if c.rd R.PWR_STATUS_DEVICE_STATE = 1 then 60000 else if st = 2 then 12000 else 200
      let c := c.advanceTo (t + took)
      let both := if domain = 4 ∨ domain = 5 then [4, 5] else [domain]
      let c := both.foldl (fun (c : Chip) d => (c.setDomainState d 0).setPwr (fun p =>
        { p with waking := Table.del p.waking d, activeAt := Table.put p.activeAt d c.now })) c
      let c := if st = 2 ∧ domain = 17 then c.atuRestore else c
      (c.wr R.PWR_STATUS_DEVICE_STATE 0).settle)

/-- PREWAKE (R564): 13 us before the next launch of an enabled entry of class 0 or 1, domains 4 and 5 start waking. -/
def execPrewake (entry : Nat) (s : State) : Host.Outcome State Fault Refusal :=
  s.run [.tku, .pwr] (fun c =>
    if decide (entry < 64) && c.entryOn 0x5800 7 && c.on R.DSP_LAUNCH_ENABLE entry && decide (c.rd R.DSP_LAUNCH_CLASS entry ≤ 1) then
      let t := c.gridNext (gridLaunch entry) ⟨c.rd R.DSP_LAUNCH_FIRST entry, max 1 (c.rd R.DSP_LAUNCH_PERIOD_NS entry), 1⟩
      ((c.advanceTo (t - 13000)).startWake 4).startWake 5
    else c)

/-! ## Standby (R566) -/

/-- Whether the device is quiet enough for Standby. -/
def Chip.quietForStandby (c : Chip) : Bool :=
  !c.on R.JRS_CTRL_ENABLE && !c.gwepoOn && !c.entryOn 0x5C00 1 && c.on R.DSP_STATUS_IDLE &&
  c.rd R.QMG_STATUS_IN_FLIGHT == 0 && c.odx.sessions.all (fun q => q.state != 2)

/-- STANDBY (R566): PWR_CMD with OP 1. [DEDUCED: log 160] -/
def execStandby (wakePin wakeTime : Bool) (s : State) : Host.Outcome State Fault Refusal :=
  s.runHost [.regs, .pwr] (fun c =>
    if !wakePin && !wakeTime then c.wr R.PWR_CMD_RESULT 3
    else if !c.quietForStandby || c.pwr.standby != 0 then c.wr R.PWR_CMD_RESULT 2
    else
      let c := (c.wr R.PWR_CMD_RESULT 1).wr R.PWR_STATUS_DEVICE_STATE 2
      c.setPwr (fun p => { p with standby := 1, standbyAt := c.now, wakePin := wakePin, wakeTime := wakeTime }))

/-- The device starts to wake from Standby. -/
def Chip.wakeFromStandby (c : Chip) : Chip := c.setPwr (fun p => { p with standby := 3, standbyAt := c.now })

/-- STANDBY_WAKE_PIN (R566): WAKE_N was low for `lowNs`; from 1 us on it ends Standby, where it was named a source. -/
def execStandbyWakePin (lowNs : Nat) (s : State) : Host.Outcome State Fault Refusal :=
  s.runKeeper [.pwr] (fun c => if c.pwr.standby = 2 ∧ c.pwr.wakePin ∧ 1000 ≤ lowNs then c.wakeFromStandby else c)

/-- STANDBY_WAKE_TIME (R566): the TKU reaches PWR_WAKE_AT. -/
def execStandbyWakeTime (s : State) : Host.Outcome State Fault Refusal :=
  s.runKeeper [.tku, .pwr] (fun c =>
    if c.pwr.standby = 2 ∧ c.pwr.wakeTime then
      (c.advanceTo (c.rd R.PWR_WAKE_AT_LO_TIME_LO + (c.rd R.PWR_WAKE_AT_HI_TIME_HI <<< 32))).wakeFromStandby
    else c)

end Sys2Proof.Machine
end

