-- ==== Sys2Proof/Machine/Commit.lean ====
section
/-!
DEFINITION. Commit instants (R32 to R34, R505, R506): due sessions and implicit writes are applied, results are latched, and the
engines take the new values.
-/
namespace Sys2Proof.Machine

/-- Something due at a commit instant: the SEQ of its COMMIT or STAGE record, its session or implicit write, its values. -/
structure Due where
  seq : Nat
  session : Option Nat
  staged : Table Nat
  record : JournalFields
  deriving DecidableEq, Repr

/-- A record of session `n` for its COMMIT (R511). -/
def Chip.dueSession (c : Chip) (n : Nat) : Due :=
  let s := c.session n
  { seq := s.order, session := some n, staged := s.staged,
    record := { kind := 5, port := s.owner, session := n, path := journalPath s.owner s.path, node := journalNode s.owner s.path,
                count := s.staged.length, token := (s.lastCommit.map (·.1)).getD 0, extra := s.order } }

/-- A record of an implicit write for its STAGE. -/
def dueImplicit (w : Implicit) : Due :=
  let size := ((findEntry (w.key / 256) (w.key % 256)).map (·.size)).getD 0
  { seq := w.order, session := none, staged := [(w.key, w.value)],
    record := { kind := 5, port := w.port, path := journalPath w.port w.path, node := journalNode w.port w.path, count := 1,
                index := w.key / 256, sub := w.key % 256, token := w.token, payload := valuePayload (leBytes size w.value),
                extra := w.order } }

/-- What falls due at an instant, in journal order (R506). -/
def Chip.due (c : Chip) (t : Nat) : List Due :=
  let ss := ((List.range 8).filter (fun n => (c.session n).state == 2 && decide ((c.session n).commitAt ≤ t))).map c.dueSession
  let ws := (c.odx.implicit.filter (fun w => decide (w.commitAt ≤ t))).map dueImplicit
  (ss ++ ws).mergeSort (fun a b => decide (a.seq ≤ b.seq))

/-- One due item at instant `t`: applied whole, or refused whole (R506). Answers the keys written. -/
def Chip.applyDue (c : Chip) (t : Nat) (d : Due) : Chip × List Nat :=
  let c := match d.session with
    | some n => c.freeSession n
    | none => c.setImplicit (c.odx.implicit.filter (fun w => w.order != d.seq))
  let keys := d.staged.map (·.1)
  if (c.overlay d.staged).consistent keys then
    let tag := keys.any (fun k => decide (0x1F8000 ≤ k) && decide (k < 0x1F8100) && c.entry (k / 256) (k % 256) != Table.getD d.staged k 0)
    let seq := c.odx.nextSeq
    let c := (c.overlay d.staged).journalAt t d.record
    (if tag then { c with odx := { c.odx with tagsDue := some seq } } else c, keys)
  else (c.journalAt t { d.record with kind := 6, status := St.ODX_INCONSISTENT, index := 0, sub := 0, payload := 0 }, [])

/-- What the blocks do with entries that took new values at `t` (R33); as Sentinel comes into force, Muslin group 0 is active (R112). -/
def Chip.entriesCommitted (old c : Chip) (t : Nat) (keys : List Nat) : Chip :=
  let c := old.scansCommitted c t keys
  let c := old.trigCommitted c t
  let c := old.twdCommitted c keys
  let c := old.jrsCommitted c t keys
  let c := old.tkuCommitted c t
  let c := old.fldCommitted c
  let c := old.pwrCommitted c t
  let c := old.gngCommitted c t
  if old.sentinel && !c.sentinel then sleepers.foldl (fun (c : Chip) d => c.startWake d) c
  else if !old.sentinel && c.sentinel then c.wakeGroup 0
  else c

/-- The instant `t` (R33): due items in journal order, then what each block does with new entries, then the results latched
under them. -/
def Chip.commitInstant (c : Chip) (t : Nat) : Chip :=
  let old := c
  let r := (c.due t).foldl (fun (s : Chip × List Nat) d => let a := s.1.applyDue t d; (a.1, s.2 ++ a.2)) (c, [])
  (if r.2.isEmpty then r.1 else old.entriesCommitted r.1 t r.2).jrsSetpoints t

/-- The commit instants at or before `t` at which something is due, in order. -/
def Chip.instants (c : Chip) (t : Nat) : List Nat :=
  let ss := (c.odx.sessions.filter (fun (s : Session) => s.state == 2 && decide (s.commitAt ≤ t))).map (·.commitAt)
  let ws := (c.odx.implicit.filter (fun (w : Implicit) => decide (w.commitAt ≤ t))).map (·.commitAt)
  (ss ++ ws).foldl insertNat []

/-- CONTROL_TICK (R32, R33, R529): the next control tick is a commit instant, and a Gwepo cycle starts. -/
def execControlTick (s : State) : Host.Outcome State Fault Refusal :=
  s.runKeeper Parts.dictionary (fun c =>
    let t := c.nextControlTick
    let c := (c.advanceTo t).gridServe gridControl t
    let c := ((c.instants t).filter (fun u => decide (u < t))).foldl (fun (c : Chip) u => c.commitInstant u) c
    (c.commitInstant t).gwepoCycle t)

/-- COMMIT_INSTANT (R33): the earliest instant that a session or implicit write names. -/
def execCommitInstant (s : State) : Host.Outcome State Fault Refusal :=
  s.runKeeper Parts.dictionary (fun c =>
    match c.instants (2 ^ 64) with
    | t :: _ => (c.advanceTo t).commitInstant t
    | [] => c)

end Sys2Proof.Machine
end

