-- ==== Sys2Proof/Machine/Canvas.lean ====
section
/-!
DEFINITION. The Canvas solver (chapter 14): schedules and slots, factorisation, solve and refinement, failover and service.
-/
namespace Sys2Proof.Machine

/-! ## Instances -/

/-- Instance `k` beside its registers, and changed. -/
def Chip.cnvInst (c : Chip) (k : Nat) : Cnv := nth c.cnv k ⟨[], none, [], none⟩
def Chip.setCnv (c : Chip) (k : Nat) (f : Cnv → Cnv) : Chip := { c with cnv := modifyNth c.cnv k f }

/-- The slot a descriptor names, and a loaded slot of an instance. -/
def cnvSlotOf (d : Nat) : Nat := bits d 256 2
def Chip.cnvSlot? (c : Chip) (k s : Nat) : Option CnvSlot := nth (c.cnvInst k).slots s none

/-- STATE codes (R445). -/
def cvIn : Nat := 0
def cvDraining : Nat := 1
def cvOut : Nat := 2
def cvFailed : Nat := 3
def cvTesting : Nat := 4

/-- Bit `s` of FACTORED, here and in CNV_SLOTs. -/
def Chip.setFactored (c : Chip) (k s : Nat) (v : Bool) : Chip :=
  let f := R.CNV_STATUS_FACTORED.inst k
  (c.wr f (setBits (c.rd f) s 1 (b2n v))).wr (R.CNV_SLOT_FACTORED.inst k) (b2n v) s
def Chip.isFactored (c : Chip) (k s : Nat) : Bool := (c.rd (R.CNV_STATUS_FACTORED.inst k)).testBit s

/-- Every factor of an instance becomes invalid (R431). -/
def Chip.dropFactors (c : Chip) (k : Nat) : Chip :=
  ((List.range 4).foldl (fun (c : Chip) s => c.setFactored k s false) c).setCnv k (fun x => { x with store := none })

/-- The state of an instance set; leaving IN_SERVICE drops its factors. -/
def Chip.setCanvas (c : Chip) (k st : Nat) : Chip :=
  let c := c.wr (R.CNV_STATUS_STATE.inst k) st
  if st = cvIn then c else c.dropFactors k

/-- Whether an operation suspended on an instance uses a slot. -/
def Chip.slotHeld (c : Chip) (k s : Nat) : Bool :=
  c.dsp.suspended.any (fun o => o.unit == 23 + k && cnvSlotOf o.raw == s)

/-! ## The schedule (R420 to R422) -/

/-- A supernode, and a step. -/
structure CnvSuper where
  first : Nat
  cols : Nat
  ridx : Nat
  rows : Nat
  base : Nat
  deriving DecidableEq, Repr
structure CnvStep where
  kind : Nat
  tgt : Nat
  src : Nat
  fma : Nat
  c0 : Nat
  c1 : Nat
  clean : Bool
  deriving DecidableEq, Repr

/-- A schedule: header counts and the five sections. -/
structure Schedule where
  head : Nat
  perm : List Nat
  apat : List (Nat × Nat)
  supers : List CnvSuper
  ridx : List Nat
  steps : List CnvStep
  deriving DecidableEq, Repr

def Schedule.n (s : Schedule) : Nat := bits s.head 64 32
def Schedule.annz (s : Schedule) : Nat := bits s.head 96 32
def Schedule.fnnz (s : Schedule) : Nat := bits s.head 128 32
def Schedule.hash (s : Schedule) : Nat := bits s.head 288 64

/-- Bytes of the five sections, with their padding. -/
def sectionBytes (h : Nat) : List Nat :=
  [2 * bits h 64 32, 4 * bits h 96 32, 16 * bits h 160 32, 2 * bits h 352 32, 16 * bits h 192 32].map (fun n => alignUp n 64)

/-- Bytes of a schedule with a header. -/
def scheduleBytes (h : Nat) : Nat := 64 + (sectionBytes h).foldl (· + ·) 0

/-- A value of `n` bytes at a place of a byte string. -/
def natAt (bs : List Byte) (off n : Nat) : Nat := leNat ((bs.drop off).take n)

/-- A schedule from its bytes. -/
def scheduleOf (bs : List Byte) : Schedule :=
  let h := natAt bs 0 64
  let z := sectionBytes h
  let o := fun k => 64 + (z.take k).foldl (· + ·) 0
  ⟨h,
   (List.range (bits h 64 32)).map (fun i => natAt bs (o 0 + 2 * i) 2),
   (List.range (bits h 96 32)).map (fun i => (natAt bs (o 1 + 4 * i) 2, natAt bs (o 1 + 4 * i + 2) 2)),
   (List.range (bits h 160 32)).map (fun i =>
     let r := natAt bs (o 2 + 16 * i) 16
     ⟨bits r 0 16, bits r 16 16, bits r 32 32, bits r 64 32, bits r 96 32⟩),
   (List.range (bits h 352 32)).map (fun i => natAt bs (o 3 + 2 * i) 2),
   (List.range (bits h 192 32)).map (fun i =>
     let r := natAt bs (o 4 + 16 * i) 16
     ⟨bits r 0 2, bits r 16 16, bits r 32 16, bits r 64 32, bits r 96 16, bits r 112 16,
      bits r 2 14 == 0 && bits r 48 16 == 0⟩)⟩

/-- The row list of a supernode, and its factor entries. -/
def Schedule.rowsOf (s : Schedule) (u : CnvSuper) : List Nat := (s.ridx.drop u.ridx).take u.rows
def CnvSuper.entries (u : CnvSuper) : Nat := (List.range u.cols).foldl (fun a c => a + (u.rows - c)) 0

/-- The supernode of a column. -/
def Schedule.superOf (s : Schedule) (j : Nat) : Option CnvSuper :=
  s.supers.find? (fun u => decide (u.first ≤ j) && decide (j < u.first + u.cols))

/-- A column's rows, from its diagonal on, and the element offset of its D entry (R421). [DEDUCED: log 97] -/
def Schedule.column (s : Schedule) (j : Nat) : List Nat × Nat :=
  match s.superOf j with
  | some u =>
    let c := j - u.first
    ((s.rowsOf u).drop c, u.base + (List.range c).foldl (fun a k => a + (u.rows - k)) 0)
  | none => ([], 0)

/-- Whether a list of numbers rises strictly. -/
def rises : List Nat → Bool
  | a :: b :: r => decide (a < b) && rises (b :: r)
  | _ => true

/-- Cycles of a step (R418). -/
def CnvStep.cycles (t : CnvStep) : Nat := 32 + ceilDiv t.fma 64

/-- The counts of a header are within R418. -/
def countsOk (h : Nat) : Bool :=
  let n := bits h 64 32
  let a := bits h 96 32
  let f := bits h 128 32
  bits h 0 32 == 0x48435343 && bits h 32 16 == 1 && decide (1 ≤ n) && decide (n ≤ 32768) && decide (n ≤ a) && decide (a ≤ f) &&
  decide (f ≤ 2097152) && decide (1 ≤ bits h 160 32) && decide (bits h 160 32 ≤ n) && decide (bits h 352 32 ≤ n * n) &&
  decide (bits h 192 32 ≤ f + n * n)

/-- Whether the supernodes cover the columns in order with proper row lists. -/
def Schedule.supersOk (s : Schedule) : Bool :=
  (s.supers.foldl (fun (p : Nat × Bool) u =>
    let rows := s.rowsOf u
    (u.first + u.cols, p.2 && u.first == p.1 && decide (1 ≤ u.cols) && decide (u.cols ≤ u.rows) &&
      decide (u.ridx + u.rows ≤ s.ridx.length) && rises rows && rows.take u.cols == (List.range u.cols).map (· + u.first) &&
      rows.all (fun r => decide (r < s.n)) && decide (u.entries ≤ 262144) && decide (u.base + u.entries ≤ s.fnnz)))
    (0, true)) == (s.n, true) &&
  disjointAll (s.supers.map (fun u => (u.base, u.entries))) &&
  (s.supers.foldl (fun a u => a + u.entries) 0) == s.fnnz

/-- Whether the pattern of K is sorted, has its diagonal, and lies within the factor's pattern. -/
def Schedule.apatOk (s : Schedule) : Bool :=
  rises (s.apat.map (fun p => p.2 * 65536 + p.1)) &&
  s.apat.all (fun p => decide (p.2 ≤ p.1) && decide (p.1 < s.n) && (s.column p.2).1.contains p.1) &&
  (List.range s.n).all (fun j => s.apat.contains (j, j))

/-- Source columns that a supernode's columns take contributions from, in increasing order. [DEDUCED: log 97] -/
def Schedule.needed (s : Schedule) (t : Nat) : List Nat :=
  let u := nth s.supers t ⟨0, 0, 0, 0, 0⟩
  (List.range u.first).filter (fun k => (s.column k).1.any (fun r => decide (u.first ≤ r) && decide (r < u.first + u.cols)))

/-- Whether the steps before a place of the list complete column `k` of the whole matrix. [DEDUCED: log 96] -/
def Schedule.doneBefore (s : Schedule) (before : List CnvStep) (k : Nat) : Bool :=
  before.any (fun t => t.kind == 1 && (
    let u := nth s.supers t.tgt ⟨0, 0, 0, 0, 0⟩
    decide (u.first + t.c0 ≤ k) && decide (k < u.first + t.c1)))

/-- Whether each step stands in its place: what it reads is complete, and nothing it changes is. -/
def Schedule.stepsPlaced (s : Schedule) : List CnvStep → List CnvStep → Bool
  | _, [] => true
  | before, t :: rest =>
    let u := nth s.supers t.tgt ⟨0, 0, 0, 0, 0⟩
    let v := nth s.supers t.src ⟨0, 0, 0, 0, 0⟩
    let shape := decide (t.kind ≤ 1) && t.clean && decide (t.tgt < s.supers.length) && decide (t.c0 < t.c1) &&
      decide (t.cycles ≤ 12000) &&
      (if t.kind = 0 then decide (t.src < t.tgt) && decide (t.c1 ≤ v.cols) else decide (t.c1 ≤ u.cols))
    let ready := t.kind == 1 || (
      !before.any (fun b => b.kind == 1 && b.tgt == t.tgt) &&
      (List.range (t.c1 - t.c0)).all (fun i => s.doneBefore before (v.first + t.c0 + i)))
    shape && ready && Schedule.stepsPlaced s (before ++ [t]) rest

/-- Whether the steps do every update once, in order, and complete every column once, in order. [DEDUCED: log 96] -/
def Schedule.stepsOk (s : Schedule) : Bool :=
  s.stepsPlaced [] s.steps &&
  (List.range s.supers.length).all (fun t =>
    let need := s.needed t
    let ups := ((s.steps.filter (fun x => x.kind == 0 && x.tgt == t)).map (fun x =>
      let v := nth s.supers x.src ⟨0, 0, 0, 0, 0⟩
      (List.range (x.c1 - x.c0)).map (fun i => v.first + x.c0 + i))).foldr (· ++ ·) []
    let facs := ((s.steps.filter (fun x => x.kind == 1 && x.tgt == t)).map (fun x =>
      (List.range (x.c1 - x.c0)).map (fun i => x.c0 + i))).foldr (· ++ ·) []
    ups.filter need.contains == need && facs == List.range (nth s.supers t ⟨0, 0, 0, 0, 0⟩).cols) &&
  (s.steps.foldl (fun a t => a + t.fma) 0) == bits s.head 224 64

/-- The rules of R422. -/
def scheduleOk (bs : List Byte) (hash : Nat) : Bool :=
  let s := scheduleOf bs
  let h := s.head
  countsOk h && bits h 48 16 == 0 && bits h 384 96 == 0 && bits h 480 32 == crc32 (bs.take 60 ++ bs.drop 64) && s.hash == hash &&
  s.perm.all (fun i => decide (i < s.n)) && (List.range s.n).all s.perm.contains && s.supersOk && s.apatOk && s.stepsOk

/-! ## LOAD and UNLOAD (R423) -/

/-- Offsets of LOAD: schedule, values, factor, work; and the hash expected. -/
def loadSched (d : Nat) : Nat := 64 * bits d 264 22
def loadValues (d : Nat) : Nat := 64 * bits d 286 22
def loadFactor (d : Nat) : Nat := 64 * bits d 308 22
def loadWork (d : Nat) : Nat := 64 * bits d 330 22
def loadHash (d : Nat) : Nat := bits d 384 64

/-- The formats that every Canvas operation asks for (R419). -/
def cnvFormats (d : Nat) : Bool :=
  Desc.fmtA d == 0 && Desc.fmtB d == 0 && Desc.fmtC d == 0 && Desc.fmtOut d == 0 && Desc.rnd d == 0

/-- The areas of a slot: schedule, values, factor, work. -/
def slotAreas (sched values factor work h : Nat) : List (Nat × Nat) :=
  [(sched, scheduleBytes h), (values, 4 * bits h 96 32), (factor, 4 * bits h 128 32), (work, 16 * bits h 64 32 + 65536)]

/-- The checks of LOAD and UNLOAD that need no memory. [DEDUCED: log 96] -/
def Chip.slotCheck (c : Chip) (k d : Nat) : Nat :=
  if !cnvFormats d then St.FMT_UNSUPPORTED
  else if Desc.engine d == 6 || !c.on (R.CNV_CTRL_ENABLE.inst k) || Desc.tileCount d != 1 then St.CNV_BAD_PARAM
  else if c.slotHeld k (cnvSlotOf d) then St.CNV_SLOT_BUSY
  else St.OK

/-- The work of LOAD: the checks at its first tile; the tiles of its cycles; the binding at its last. -/
def Chip.runLoad (c : Chip) (k : Nat) (o : OpRun) : Chip × OpRun :=
  let d := o.raw
  let s := cnvSlotOf d
  match o.ctx with
  | [] =>
    if (c.cnvSlot? k s).isSome || !decide (loadSched d + 64 ≤ muslinSize) then (c, o.ends St.CNV_BAD_PARAM)
    else
      let h := c.devRead (loadSched d) 64
      let hv := leNat h.2.2
      let areas := slotAreas (loadSched d) (loadValues d) (loadFactor d) (loadWork d) hv
      if h.2.1 != 0 then (h.1, o.ends h.2.1)
      else if !countsOk hv then (h.1, o.ends St.CNV_BAD_SCHEDULE)
      else if !(areas.all (fun a => decide (a.1 + a.2 ≤ muslinSize)) && disjointAll areas) then (h.1, o.ends St.CNV_BAD_PARAM)
      else
        let r := h.1.devRead (loadSched d) (scheduleBytes hv)
        if r.2.1 != 0 then (r.1, o.ends r.2.1)
        else if !scheduleOk r.2.2 (loadHash d) then (r.1, o.ends St.CNV_BAD_SCHEDULE)
        else
          let cycles := 500 + ceilDiv (scheduleBytes hv) 88 + 4 * (bits hv 192 32 + bits hv 352 32)
          (r.1, { o with ctx := [ceilDiv cycles 30000, hv] })
  | _ => (c, o)

/-- The slot is bound. -/
def Chip.bindSlot (c : Chip) (k d h : Nat) : Chip :=
  let s := cnvSlotOf d
  let c := c.setCnv k (fun x => { x with
    slots := modifyNth x.slots s (fun _ => some ⟨loadValues d, loadFactor d, loadWork d, 0, .zero⟩) })
  let put := fun (c : Chip) (f : Field) (v : Nat) => c.wr (f.inst k) v s
  let c := put (put (put (put (put c R.CNV_SLOT_LOADED 1) R.CNV_SLOT_N (bits h 64 32)) R.CNV_SLOT_FNNZ (bits h 128 32))
    R.CNV_SLOT_SCHED_OFF (loadSched d / 64)) R.CNV_SLOT_HASH (bits h 288 64)
  let f := R.CNV_STATUS_SLOTS.inst k
  (c.wr f (setBits (c.rd f) s 1 1)).setFactored k s false

/-- A slot becomes empty. -/
def Chip.unbindSlot (c : Chip) (k s : Nat) : Chip :=
  let c := c.setCnv k (fun x => { x with slots := modifyNth x.slots s (fun _ => none),
                                         store := match x.store with | some p => if p.1 = s then none else x.store | none => none })
  let c := [R.CNV_SLOT_LOADED, R.CNV_SLOT_N, R.CNV_SLOT_FNNZ, R.CNV_SLOT_SCHED_OFF, R.CNV_SLOT_HASH].foldl
    (fun (c : Chip) f => c.wr (f.inst k) 0 s) c
  let f := R.CNV_STATUS_SLOTS.inst k
  (c.wr f (setBits (c.rd f) s 1 0)).setFactored k s false

/-- LOAD on an instance. -/
def execCnvLoad (inst : Nat) (s : State) : Host.Outcome State Fault Refusal :=
  s.run Parts.tile (fun c => if 1 < inst then c else
    let e := match c.op? (23 + inst) with | some o => Desc.engine o.raw | none => 7 + inst
    c.runTile (23 + inst) e 1 (fun c o => c.slotCheck inst o.raw) (fun c o =>
      let r := c.runLoad inst o
      match r.2.ctx with
      | n :: hv :: _ =>
        if r.2.finished then r
        else if n ≤ 1 then (r.1.bindSlot inst o.raw hv, { r.2 with lastTile := true })
        else (r.1, { r.2 with ctx := [n - 1, hv] })
      | _ => r))

/-- The checks of UNLOAD. -/
def Chip.unloadCheck (c : Chip) (inst d : Nat) : Nat :=
  let st := c.slotCheck inst d
  if st != 0 then st else if (c.cnvSlot? inst (cnvSlotOf d)).isNone then St.CNV_NOT_LOADED else St.OK

/-- UNLOAD on an instance. -/
def execCnvUnload (inst : Nat) (s : State) : Host.Outcome State Fault Refusal :=
  s.run Parts.tile (fun c => if 1 < inst then c else
    let e := match c.op? (23 + inst) with | some o => Desc.engine o.raw | none => 7 + inst
    c.runTile (23 + inst) e 3 (fun c o => c.unloadCheck inst o.raw) (fun c o =>
      (c.unbindSlot inst (cnvSlotOf o.raw), { o with lastTile := true })))

/-! ## SOLVE: parameters and checks (R425 to R427) -/

/-- The parameter area of SOLVE. -/
structure SolvePar where
  slot : Nat
  factor : Bool
  warm : Bool
  refines : Nat
  tau : Nat
  tile : Nat
  delta : Nat
  count : Nat
  b : Nat
  warmOff : Nat
  out : Nat
  tol : Num
  hash : Nat
  deriving DecidableEq, Repr

/-- The fields of a descriptor. -/
def solvePar (d : Nat) : SolvePar :=
  ⟨bits d 256 2, d.testBit 258, d.testBit 259, bits d 260 4, bits d 264 6, bits d 272 6, 64 * bits d 280 22, bits d 302 22,
   64 * bits d 324 22, 64 * bits d 346 22, 64 * bits d 368 22, f32val (bits d 392 32), bits d 448 64⟩

/-- Cycles of a tile. -/
def SolvePar.tileCycles (p : SolvePar) : Nat := 1000 * (if p.tile = 0 then 30 else p.tile)

/-- The threshold factor `tau`. -/
def SolvePar.tauNum (p : SolvePar) : Num := .fin false 1 (-((if p.tau = 0 then 20 else p.tau : Nat) : Int))

/-- Registers of a slot. -/
def Chip.slotN (c : Chip) (k s : Nat) : Nat := c.rd (R.CNV_SLOT_N.inst k) s
def Chip.slotHash (c : Chip) (k s : Nat) : Nat := c.rd (R.CNV_SLOT_HASH.inst k) s
def Chip.slotSched (c : Chip) (k s : Nat) : Nat := 64 * c.rd (R.CNV_SLOT_SCHED_OFF.inst k) s

/-- Bytes of a solution image. -/
def solutionImageBytes (n : Nat) : Nat := 64 + alignUp (4 * n) 64

/-- The input ranges of a SOLVE. -/
def Chip.solveInputs (c : Chip) (k d : Nat) : List (Nat × Nat) :=
  let p := solvePar d
  let n := c.slotN k p.slot
  [(p.delta, 8 * p.count), (p.b, 4 * n)] ++ (if p.warm then [(p.warmOff, solutionImageBytes n)] else [])

/-- The areas of the slot a SOLVE names. -/
def Chip.boundAreas (c : Chip) (k s : Nat) : List (Nat × Nat) :=
  match c.cnvSlot? k s with
  | some v => slotAreas (c.slotSched k s) v.values v.factor v.work (c.peekNat (c.slotSched k s) 64)
  | none => []

/-- The delta list: (INDEX, VALUE). -/
def Chip.deltaList (c : Chip) (off n first : Nat) : List (Nat × Nat) :=
  (List.range n).map (fun i => let r := c.peekNat (off + 8 * (first + i)) 8; (bits r 0 32, bits r 32 32))

/-- The checks of R426, but for the delta records. -/
def Chip.solveCheck (c : Chip) (k d : Nat) : Nat :=
  let p := solvePar d
  let ins := c.solveInputs k d
  let out := (p.out, solutionImageBytes (c.slotN k p.slot))
  if !cnvFormats d then St.FMT_UNSUPPORTED
  else if !(c.on (R.CNV_CTRL_ENABLE.inst k) && Desc.tileCount d == 1 && decide (p.refines ≤ 8) && (!p.warm || p.refines != 0) &&
      (p.tau == 0 || (decide (8 ≤ p.tau) && decide (p.tau ≤ 40))) && decide (p.tile ≤ 36) && decide (p.count ≤ 2097152) &&
      p.tol.isFinite && Num.lt .zero p.tol && (out :: ins).all (fun r => decide (r.1 + r.2 ≤ muslinSize)) &&
      (ins ++ c.boundAreas k p.slot).all (fun r => !rangesMeet out r)) then St.CNV_BAD_PARAM
  else if (c.cnvSlot? k p.slot).isNone || c.slotHash k p.slot != p.hash then St.CNV_NOT_LOADED
  else if c.slotHeld k p.slot then St.CNV_SLOT_BUSY
  else St.OK

/-! ## Arithmetic (R429 to R433) -/

/-- Element `i` of a vector. -/
def vget (v : List Num) (i : Nat) : Num := nth v i .zero

/-- The full rows of K: for each row, its (column, element) pairs in increasing column. -/
def Schedule.fullRow (s : Schedule) (i : Nat) : List (Nat × Nat) :=
  let e := s.apat.zipIdx
  (e.filter (fun p => p.1.1 == i)).map (fun p => (p.1.2, p.2)) ++
  (e.filter (fun p => p.1.2 == i && p.1.1 != i)).map (fun p => (p.1.1, p.2))

/-- The norm. [DEDUCED: log 100] -/
def Schedule.norm (s : Schedule) (vals : List Num) : Num :=
  (List.range s.n).foldl (fun m i => Num.max m (f32sum ((s.fullRow i).map (fun p => (vget vals p.2).abs)))) .zero

/-- What a factorisation gives: the factor entries, whether it ran to its end, and the pivots replaced. -/
structure Factor where
  vals : List Num
  ok : Bool
  pivots : Nat
  deriving DecidableEq, Repr

/-- One column of the factorisation. [DEDUCED: log 97] -/
def Schedule.factorColumn (s : Schedule) (vals : List Num) (floor : Num) (f : Factor) (j : Nat) : Factor :=
  if !f.ok then f
  else
    let col := s.column j
    let entries := s.apat.zipIdx.filter (fun p => p.1.2 == j)
    let w0 := col.1.map (fun i => match entries.find? (fun p => p.1.1 == i) with | some p => vget vals p.2 | none => .zero)
    let w := (List.range j).foldl (fun (w : List Num) k =>
      let ck := s.column k
      match ck.1.findIdx? (· == j) with
      | none => w
      | some q =>
        let t := f32mul (vget f.vals (ck.2 + q)) (vget f.vals ck.2)
        (col.1.zip w).map (fun p =>
          match ck.1.findIdx? (· == p.1) with
          | some r => f32fma (vget f.vals (ck.2 + r)).neg t p.2
          | none => p.2)) w0
    let d0 := vget w 0
    let small := Num.lt d0.abs floor
    let d := if small then (if d0.sign && !d0.isZero then floor.neg else floor) else d0
    let l := d :: (w.drop 1).map (fun x => f32div x d)
    let ok := w.all Num.isFinite && l.all Num.isFinite
    { vals := (f.vals.take col.2) ++ l ++ f.vals.drop (col.2 + l.length), ok := ok, pivots := f.pivots + b2n small }

/-- The factorisation. -/
def Schedule.factorise (s : Schedule) (vals : List Num) (tau : Num) : Factor × Num :=
  let norm := s.norm vals
  let floor := Num.max (f32mul tau norm) (.fin false 1 (-126))
  let f0 : Factor := ⟨List.replicate s.fnnz .zero, norm.isFinite, 0⟩
  ((List.range s.n).foldl (s.factorColumn vals floor) f0, norm)

/-- A triangular solve, its value and whether every value was finite. -/
def Schedule.ldlt (s : Schedule) (f r : List Num) : List Num × Bool :=
  let y := (List.range s.n).foldl (fun (y : List Num) j =>
    let c := s.column j
    ((c.1.drop 1).zipIdx).foldl (fun (y : List Num) p =>
      modifyNth y p.1 (fun v => f32fma (vget f (c.2 + 1 + p.2)).neg (vget y j) v)) y) r
  let z := (List.range s.n).map (fun j => f32div (vget y j) (vget f (s.column j).2))
  let x := (List.range s.n).reverse.foldl (fun (z : List Num) j =>
    let c := s.column j
    ((c.1.drop 1).zipIdx).foldl (fun (z : List Num) p =>
      modifyNth z j (fun v => f32fma (vget f (c.2 + 1 + p.2)).neg (vget z p.1) v)) z) z
  (x, y.all Num.isFinite && z.all Num.isFinite && x.all Num.isFinite)

/-- The compensated sum of two numbers. -/
def twoSum (a b : Num) : Num × Num :=
  let s := f32add a b
  let bb := f32sub s a
  (s, f32add (f32sub a (f32sub s bb)) (f32sub b bb))

/-- The residual of a row (R433). -/
def Schedule.residualRow (s : Schedule) (vals b x : List Num) (i : Nat) : Num :=
  let r := (s.fullRow i).foldl (fun (a : Num × Num) p =>
    let k := vget vals p.2
    let v := vget x p.1
    let m := f32mul k v
    let q := f32fma k v m.neg
    let t := twoSum a.1 m.neg
    (t.1, f32add a.2 (f32sub t.2 q))) (vget b i, .zero)
  f32add r.1 r.2

/-- The largest magnitude. [DEDUCED: log 100] -/
def maxAbs (x : List Num) : Num := x.foldl (fun m v => Num.max m v.abs) .zero

/-! ## Units and phases (R439, R440) -/

/-- A number cut into parts of at most `k`. -/
def cutParts (k : Nat) : Nat → Nat → List Nat
  | 0, _ => []
  | f + 1, n => if n = 0 then [] else min n k :: cutParts k f (n - min n k)
def parts (k n : Nat) : List Nat := cutParts k (n / k + 1) n

/-- Whether a factor lives in the factor store. -/
def Schedule.stored (s : Schedule) : Bool := decide (s.fnnz ≤ 458752)

/-- Cycles of the units of one solve pass. -/
def Schedule.passUnits (s : Schedule) : List Nat :=
  let es := (s.supers.map (fun u => parts 65536 u.entries)).foldr (· ++ ·) []
  (es ++ es.reverse).map (fun e => if s.stored then ceilDiv e 64 else ceilDiv (8 * e) 88)

/-- Runs of whole rows of at most 65,536 full-row entries. -/
def rowRuns (run : Nat) : List Nat → List Nat
  | [] => if run = 0 then [] else [run]
  | e :: r => if run ≠ 0 ∧ 65536 < run + e then run :: rowRuns e r else rowRuns (run + e) r

/-- Cycles of the units of one residual. -/
def Schedule.residUnits (s : Schedule) : List Nat :=
  (rowRuns 0 ((List.range s.n).map (fun i => (s.fullRow i).length))).map (fun e => ceilDiv e 64)

/-- Cycles of a reload of `e` entries. -/
def reloadUnits (e : Nat) : List Nat := (parts 65536 e).map (fun n => ceilDiv (4 * n) 88)

/-! ## Running a SOLVE -/

/-- The SOLVE in progress of a descriptor on an instance, and its record replaced or forgotten. -/
def Chip.solveRun? (c : Chip) (k : Nat) (o : OpRun) : Option SolveRun :=
  (c.cnvInst k).runs.find? (fun f => f.weave == o.weave && f.index == o.index)
def Chip.setSolve (c : Chip) (k : Nat) (o : OpRun) (f : Option SolveRun) : Chip :=
  let alive := fun (r : SolveRun) => (r.weave != o.weave || r.index != o.index) &&
    c.dsp.suspended.any (fun x => x.unit == 23 + k && x.weave == r.weave && x.index == r.index)
  c.setCnv k (fun x => { x with runs := x.runs.filter alive ++ f.toList })

/-- A FAULT ends a SOLVE: the output is not valid, the factor invalid. -/
def Chip.solveFails (c : Chip) (k : Nat) (o : OpRun) (st : Nat) : Chip × OpRun :=
  let p := solvePar o.raw
  let c := c.invalidate [(p.out, solutionImageBytes (c.slotN k p.slot))]
  ((c.setFactored k (cnvSlotOf o.raw) false).setSolve k o none, o.ends st)

/-- The schedule of a slot as it stands. -/
def Chip.scheduleAt (c : Chip) (k s : Nat) : Schedule :=
  let off := c.slotSched k s
  scheduleOf (c.peek off (scheduleBytes (c.peekNat off 64)))

/-- FP32 values of a run of Muslin. -/
def Chip.f32At (c : Chip) (off n : Nat) : List Num := (List.range n).map (fun i => f32val (c.peekNat (off + 4 * i) 4))

/-- The factor in use: from the store, or from the factor area. [DESIGN CHOICE: log 98] -/
def Chip.factorOf (c : Chip) (k s : Nat) (sch : Schedule) (v : CnvSlot) : List Num :=
  match (c.cnvInst k).store with
  | some (t, xs) => if t = s then xs.map f32val else c.f32At v.factor sch.fnnz
  | none => c.f32At v.factor sch.fnnz

/-- The vector of an image or of b, from original into permuted order. -/
def permuted (perm : List Nat) (xs : List Num) : List Num := perm.map (fun i => vget xs i)

/-- Flags for values that are not finite. [DEDUCED: log 100] -/
def badFlags (inputs xs : List Num) : Flags :=
  (if inputs.any Num.isNan then fNanIn else 0) ||| (if xs.any Num.isInf then fOverflowInf else 0) |||
  (if xs.any Num.isNan && !inputs.any Num.isNan then fInvalid else 0)

/-- Where a SOLVE goes when its solves are over. -/
def SolveRun.toWrite (f : SolveRun) : SolveRun := { f with phase := 6, left := [200] }

/-- The residual comes next, or the write. -/
def SolveRun.refine (f : SolveRun) (sch : Schedule) (p : SolvePar) : SolveRun :=
  if f.refines < p.refines then { f with phase := 4, left := sch.residUnits }
  else { f.toWrite with bad := f.bad || p.refines != 0 }

/-- The solve starts: the set-up, and on a cold start the first pass. -/
def SolveRun.beginSolve (f : SolveRun) (sch : Schedule) (p : SolvePar) : SolveRun :=
  if f.warmUsed then
    let g := f.refine sch p
    { g with left := match g.left with | u :: r => (u + 100) :: r | [] => [100] }
  else { f with phase := 3, left := match sch.passUnits with | u :: r => (u + 100) :: r | [] => [100] }

/-- After the deltas: factor, reload, or the solve. -/
def Chip.afterDeltas (c : Chip) (k : Nat) (sch : Schedule) (p : SolvePar) (f : SolveRun) : SolveRun :=
  let held := c.isFactored k p.slot
  if p.factor || !held || f.failedOver then
    { f with phase := 1, left := sch.steps.map CnvStep.cycles, factored := true, forced := !p.factor && !f.failedOver }
  else
    let inStore := match (c.cnvInst k).store with | some (t, _) => t == p.slot | none => false
    if inStore || !sch.stored then f.beginSolve sch p
    else { f with phase := 2, left := reloadUnits sch.fnnz }

/-- The end of a factorisation: the factor area and the store take the factor (R429 to R431). [DESIGN CHOICE: log 98] -/
def Chip.endFactor (c : Chip) (k : Nat) (sch : Schedule) (v : CnvSlot) (o : OpRun) (f : SolveRun) :
    Chip × OpRun × SolveRun × Nat :=
  let p := solvePar o.raw
  let t := c.touchReads [(v.values, 4 * sch.annz)]
  if t.2 != 0 then (t.1, o, f, t.2)
  else
    let vals := t.1.f32At v.values sch.annz
    let r := sch.factorise vals p.tauNum
    let bitsOf := r.1.vals.map f32bits
    let w := t.1.devWrite v.factor ((bitsOf.map (leBytes 4)).foldr (· ++ ·) [])
    if w.2 != 0 then (w.1, o, f, w.2)
    else
      let c := w.1.count (R.CNV_PIVOT_CNT_COUNT.inst k) 0 r.1.pivots
      let c := c.setCnv k (fun x => { x with
        slots := modifyNth x.slots p.slot (fun q => q.map (fun q => { q with pivots := r.1.pivots, norm := r.2 })),
        store := if sch.stored && r.1.ok then some (p.slot, bitsOf) else none })
      let c := c.setFactored k p.slot r.1.ok
      if r.1.ok then (c, o, f.beginSolve sch p, St.OK)
      else (c, o.flag (badFlags vals r.1.vals), { f.toWrite with failed := true, bad := true, x := f.x0 }, St.OK)

/-- The end of a solve pass on a right-hand side: the vector, or none where a value was not finite. -/
def Chip.passEnd (c : Chip) (k : Nat) (sch : Schedule) (v : CnvSlot) (s : Nat) (rhs : List Num) : Chip × Nat × List Num × Bool :=
  let inStore := match (c.cnvInst k).store with | some (t, _) => t == s | none => false
  let t := if inStore then (c, St.OK) else c.touchReads [(v.factor, 4 * sch.fnnz)]
  let z := sch.ldlt (t.1.factorOf k s sch v) rhs
  (t.1, t.2, z.1, z.2)

/-- The right-hand side, in permuted order. -/
def Chip.rhsOf (c : Chip) (sch : Schedule) (p : SolvePar) : List Num := permuted sch.perm (c.f32At p.b sch.n)

/-- The effect of a phase's last unit: the next phase. -/
def Chip.phaseEnd (c : Chip) (k : Nat) (sch : Schedule) (v : CnvSlot) (o : OpRun) (f : SolveRun) : Chip × OpRun × SolveRun × Nat :=
  let p := solvePar o.raw
  match f.phase with
  | 0 =>
    let g := c.afterDeltas k sch p f
    (if g.phase = 1 then c.setCnv k (fun x => { x with store := none }) else c, o, g, St.OK)
  | 1 => c.endFactor k sch v o f
  | 2 =>
    let t := c.touchReads [(v.factor, 4 * sch.fnnz)]
    if t.2 != 0 then (t.1, o, f, t.2)
    else
      let xs := (t.1.f32At v.factor sch.fnnz).map f32bits
      (t.1.setCnv k (fun x => { x with store := some (p.slot, xs) }), o, f.beginSolve sch p, St.OK)
  | 3 =>
    let t := c.touchReads [(p.b, 4 * sch.n)]
    if t.2 != 0 then (t.1, o, f, t.2)
    else
      let b := t.1.rhsOf sch p
      let r := t.1.passEnd k sch v p.slot b
      if r.2.1 != 0 then (r.1, o, f, r.2.1)
      else if !r.2.2.2 then (r.1, o.flag (badFlags b r.2.2.1), { f.toWrite with bad := true }, St.OK)
      else (r.1, o, ({ f with x := r.2.2.1 } : SolveRun).refine sch p, St.OK)
  | 4 =>
    let t := c.touchReads [(p.b, 4 * sch.n), (v.values, 4 * sch.annz)]
    if t.2 != 0 then (t.1, o, f, t.2)
    else
      let vals := t.1.f32At v.values sch.annz
      let b := t.1.rhsOf sch p
      let r := (List.range sch.n).map (sch.residualRow vals b f.x)
      if r.all Num.isFinite then (t.1, o, { f with phase := 5, left := sch.passUnits, r := r }, St.OK)
      else (t.1, o.flag (badFlags (vals ++ b) r), { f.toWrite with bad := true }, St.OK)
  | 5 =>
    let r := c.passEnd k sch v p.slot f.r
    if r.2.1 != 0 then (r.1, o, f, r.2.1)
    else
      let dx := r.2.2.1
      let x := List.zipWith f32add f.x dx
      let f := { f with refines := f.refines + 1 }
      if !(r.2.2.2 && x.all Num.isFinite) then (r.1, o.flag (badFlags [] (dx ++ x)), { f.toWrite with bad := true }, St.OK)
      else
        let m := maxAbs dx
        let f := { f with x := x, correction := f32div m (maxAbs x) }
        if Num.le m (f32mul p.tol (maxAbs x)) then (r.1, o, { f.toWrite with converged := true }, St.OK)
        else (r.1, o, f.refine sch p, St.OK)
  | _ => (c, o, f, St.OK)

/-- The final write (R434, R436 to R438). -/
def Chip.solveWrite (c : Chip) (k : Nat) (sch : Schedule) (v : CnvSlot) (o : OpRun) (f : SolveRun) : Chip × OpRun :=
  let p := solvePar o.raw
  let noConv := f.bad
  let long := o.status == St.DSP_TILE_LONG
  let notes := if f.warmIgnored then St.CNV_WARM_IGNORED
    else if v.pivots != 0 && f.factored then St.CNV_PIVOT_REPLACED
    else if o.flags != 0 then St.FMT_EXCEPTION
    else if long then St.DSP_TILE_LONG else St.OK
  let status := if noConv then St.CNV_NO_CONVERGE else notes
  let x := (List.range sch.n).map (fun i => match sch.perm.findIdx? (· == i) with | some q => vget f.x q | none => .zero)
  let head := bits (c.slotHash k p.slot) 0 64 + (sch.n <<< 64) + (status <<< 96) + (bits f.refines 0 4 <<< 112) +
    (b2n f.converged <<< 116) + (b2n f.warmUsed <<< 117) + (b2n f.warmIgnored <<< 118) + (b2n f.factored <<< 119) +
    (b2n f.failed <<< 120) + (b2n f.failedOver <<< 121) + (bits v.pivots 0 32 <<< 128) + (f32bits f.correction <<< 160) +
    (f32bits v.norm <<< 192) + (c.stamp <<< 224)
  let body := ((x.map (fun e => leBytes 4 (f32bits e))).foldr (· ++ ·) []) ++
    List.replicate (alignUp (4 * sch.n) 64 - 4 * sch.n) 0
  let a := c.devWrite (p.out + 64) body
  if a.2 != 0 then a.1.solveFails k o a.2
  else
    let w := a.1.devWrite p.out (leBytes 64 head)
    if w.2 != 0 then w.1.solveFails k o w.2
    else
      let c := w.1.count (R.CNV_SOLVE_CNT_COUNT.inst k)
      let c := if noConv then c.count (R.CNV_NOCONV_CNT_COUNT.inst k) else c
      let info := bits f.refines 0 4 + (b2n f.converged <<< 4) + (b2n f.warmUsed <<< 5) + (b2n f.forced <<< 6) +
        (b2n f.failedOver <<< 7) + (min v.pivots (2 ^ 24 - 1) <<< 8)
      (c.setSolve k o none, { o with lastTile := true, status := if long then status else worse o.status status, info1 := info })

/-- One unit of the delta list: its records applied. -/
def Chip.deltaUnit (c : Chip) (v : CnvSlot) (p : SolvePar) (first : Nat) : Chip × Nat :=
  (c.deltaList p.delta (min 8192 (p.count - first)) first).foldl (fun (s : Chip × Nat) r =>
    if s.2 != 0 then s else s.1.devWrite (v.values + 4 * r.1) (leBytes 4 r.2)) (c, St.OK)

/-- Units of a tile. -/
def Chip.solveUnits (c : Chip) (k : Nat) (sch : Schedule) (v : CnvSlot) (o : OpRun) (limit : Nat) :
    Nat → Nat → SolveRun → Chip × OpRun
  | 0, _, f => (c.setSolve k o (some f), o)
  | fuel + 1, used, f =>
    match f.left with
    | [] =>
      let r := c.phaseEnd k sch v o f
      if r.2.2.2 != 0 then r.1.solveFails k r.2.1 r.2.2.2
      else
        let v' := (r.1.cnvSlot? k (cnvSlotOf o.raw)).getD v
        Chip.solveUnits r.1 k sch v' r.2.1 limit fuel used r.2.2.1
    | u :: rest =>
      if limit ≤ used then (c.setSolve k o (some f), o)
      else if f.phase = 6 then c.solveWrite k sch v o f
      else if f.phase = 0 then
        let d := c.deltaUnit v (solvePar o.raw) f.done
        if d.2 != 0 then d.1.solveFails k o d.2
        else Chip.solveUnits d.1 k sch v o limit fuel (used + u) { f with left := rest, done := f.done + 8192 }
      else Chip.solveUnits c k sch v o limit fuel (used + u) { f with left := rest }

/-- The warm image (R436): the start vector in permuted order, where it serves. -/
def Chip.warmVector (c : Chip) (k : Nat) (sch : Schedule) (p : SolvePar) : Option (List Num) :=
  let h := c.peekNat p.warmOff 64
  let xs := c.f32At (p.warmOff + 64) sch.n
  if bits h 0 64 = c.slotHash k p.slot ∧ bits h 64 32 = sch.n ∧ xs.all Num.isFinite then some (permuted sch.perm xs) else none

/-- The start of a SOLVE: its inputs are read, its delta records checked. -/
def Chip.solveStart (c : Chip) (k : Nat) (sch : Schedule) (v : CnvSlot) (o : OpRun) : Chip × OpRun × Option SolveRun :=
  let p := solvePar o.raw
  let t := c.touchReads ([(c.slotSched k p.slot, scheduleBytes sch.head), (p.delta, 8 * p.count)] ++
    (if p.warm then [(p.warmOff, solutionImageBytes sch.n)] else []))
  if t.2 != 0 then
    let r := t.1.solveFails k o t.2
    (r.1, r.2, none)
  else
    let c := t.1
    if !(c.deltaList p.delta p.count 0).all (fun r => decide (r.1 < sch.annz) && (f32val r.2).isFinite) then
      (c, o.ends St.CNV_BAD_DELTA, none)
    else
      let f := c.freshId
      let w := f.2.devWrite v.work (leBytes (16 * sch.n + 65536) (Config.freeNat f.1))
      if w.2 != 0 then
        let r := w.1.solveFails k o w.2
        (r.1, r.2, none)
      else
        let c := w.1
        let warm := if p.warm then c.warmVector k sch p else none
        let ignored := p.warm && warm.isNone
        let c := if ignored then c.count (R.CNV_WARM_IGN_CNT_COUNT.inst k) else c
        let x0 := warm.getD (List.replicate sch.n .zero)
        let moved := c.moved.contains (o.weave, o.index)
        let c := { c with moved := c.moved.filter (· != (o.weave, o.index)) }
        (c, o, some ⟨o.weave, o.index, 0, (parts 8192 p.count).map (fun n => ceilDiv n 8), x0, x0, [], 0, .zero, warm.isSome,
          ignored, false, false, false, false, moved, false, 0⟩)

/-- Factor entries that the steps done so far have completed. -/
def Schedule.completed (s : Schedule) (steps : Nat) : Nat :=
  (s.steps.take steps).foldl (fun a t =>
    if t.kind = 1 then
      let u := nth s.supers t.tgt ⟨0, 0, 0, 0, 0⟩
      a + (List.range (t.c1 - t.c0)).foldl (fun b i => b + (u.rows - (t.c0 + i))) 0
    else a) 0

/-- The units that a resumed SOLVE spends first, where another operation has used the factor store (R440). -/
def Chip.resumeUnits (c : Chip) (k : Nat) (sch : Schedule) (o : OpRun) (f : SolveRun) : List Nat :=
  let used := (c.cnvInst k).store.isSome
  let mine := match (c.cnvInst k).store with | some (t, _) => t == cnvSlotOf o.raw | none => false
  if mine || !sch.stored || o.preempts = 0 then []
  else if f.phase = 1 then (if used then reloadUnits (sch.completed (sch.steps.length - f.left.length)) else [])
  else if 3 ≤ f.phase ∧ f.phase ≤ 5 then reloadUnits sch.fnnz
  else []

/-- One tile of a SOLVE. -/
def Chip.solveTile (c : Chip) (k : Nat) (o : OpRun) : Chip × OpRun :=
  let p := solvePar o.raw
  match c.cnvSlot? k p.slot with
  | none => (c, o.ends St.CNV_NOT_LOADED)
  | some v =>
    let sch := c.scheduleAt k p.slot
    let fuel := 2 * p.tileCycles + 64
    match c.solveRun? k o with
    | some f =>
      let extra := (c.resumeUnits k sch o f).foldl (· + ·) 0
      let stale := extra != 0 && f.phase != 1
      let t := if stale then c.touchReads [(v.factor, 4 * sch.fnnz)] else (c, St.OK)
      if t.2 != 0 then t.1.solveFails k o t.2
      else
        let xs := (t.1.f32At v.factor sch.fnnz).map f32bits
        let c := if stale then t.1.setCnv k (fun x => { x with store := some (p.slot, xs) })
          else if f.phase = 1 then t.1.setCnv k (fun x => { x with store := none }) else t.1
        c.solveUnits k sch v o p.tileCycles fuel extra f
    | none =>
      let s := c.solveStart k sch v o
      match s.2.2 with
      | some f => s.1.solveUnits k sch v s.2.1 p.tileCycles fuel 200 f
      | none => (s.1, s.2.1)

/-! ## Failover (R442) -/

/-- The SOLVEs of ENGINE 0x6 on an instance go back to being ready, marked for their restart on the twin. [DEDUCED: log 99] -/
def Chip.moveSolves (c : Chip) (k : Nat) : Chip :=
  let u := 23 + k
  let go := fun (o : OpRun) => Desc.engine o.raw == 6 && Desc.opcode o.raw == 2
  let ops := (c.op? u).toList ++ c.dsp.suspended.filter (fun o => o.unit == u)
  let mv := ops.filter go
  let c := mv.foldl (fun (c : Chip) o =>
    { c.setDescState o.weave o.index (.ready c.dsp.nextOrder c.now) with moved := c.moved ++ [(o.weave, o.index)] }) c
  let c := { c with dsp := { c.dsp with nextOrder := c.dsp.nextOrder + 1,
                                        suspended := c.dsp.suspended.filter (fun o => !(o.unit == u && go o)) } }
  let c := c.setCnv k (fun x => { x with runs := x.runs.filter (fun r => !mv.any (fun o => o.weave == r.weave && o.index == r.index)) })
  match c.op? u with
  | some o => if go o then c.freeUnit u else c
  | none => c

/-- Instance `k` fails (R442): `own` is the status of the operation that stopped. [DEDUCED: log 99] -/
def Chip.canvasFails (c : Chip) (k own other : Nat) : Chip :=
  let u := 23 + k
  let fo := c.on (R.CNV_CTRL_FAILOVER_EN.inst k) && c.canvasIn (1 - k)
  let c := c.setCanvas k cvFailed
  let c := if fo then
      (((c.latchFault (R.CNV_STATUS_FAILED_OVER.inst k)).count (R.CNV_FAILOVER_CNT_COUNT.inst k)).raise (11 + k)).moveSolves k
    else c
  let st := if fo then St.ISLAND_OFFLINE else own
  let c := match c.op? u with
    | some o => c.setOp u { o with status := worse o.status st, finished := true }
    | none => c
  let rest := if fo then St.ISLAND_OFFLINE else other
  let c := match c.op? u with
    | some o => c.completeOp u o
    | none => c
  (c.failUnit u rest).settle

/-- SOLVE on an instance. `stalls` are cycles stalled on the port, `corrected` corrected errors of the factor store, and
`uncorrectable` says that this tile reads an uncorrectable word of it (R441). -/
def execCnvSolve (inst : Nat) (stalls corrected : Nat) (uncorrectable : Bool) (s : State) : Host.Outcome State Fault Refusal :=
  s.run [.regs, .muslin, .host, .dsp, .qmg, .msl, .drc, .dmk, .atu, .twl, .gze, .twd, .tul, .cnv, .moved, .gng, .sent, .fresh]
    (fun c => if 1 < inst then c else
    let u := 23 + inst
    let e := match c.op? u with | some o => Desc.engine o.raw | none => 6
    let hits := match c.op? u with | some o => o.awaits e 2 && o.begun | none => false
    let c := if hits then c.count (R.CNV_STORE_CE_CNT_COUNT.inst inst) 0 corrected else c
    if hits && uncorrectable then
      (c.latchFault (R.CNV_STATUS_STORE_UE.inst inst)).canvasFails inst St.CNV_STORE_UE St.ISLAND_OFFLINE
    else
      c.runTile u e 2 (fun c o => c.solveCheck inst o.raw) (fun c o =>
        c.solveTile inst { o with info0 := min (o.info0 + stalls) 0xFFFFFFFF }))

/-! ## Service (R443) -/

/-- The word of a service command, and its end with a RESULT, recorded in the journal. [DEDUCED: log 99] -/
def Chip.cnvDone (c : Chip) (k result : Nat) : Chip :=
  match (c.cnvInst k).service with
  | some (op, force, _, _) =>
    let c := (c.wr (R.CNV_SVC_CMD_RESULT.inst k) result).wr (R.CNV_SVC_CMD_BUSY.inst k) 0
    (c.setCnv k (fun x => { x with service := none })).journalService (R.CNV_SVC_CMD.inst k) (op + (b2n force <<< 2)) result
  | none => c

/-- A service command that is refused: RESULT and its journal record. [DEDUCED: log 50] -/
def Chip.cnvRefuse (c : Chip) (k op : Nat) (force : Bool) (result : Nat) : Chip :=
  (c.wr (R.CNV_SVC_CMD_RESULT.inst k) result).journalService (R.CNV_SVC_CMD.inst k) (op + (b2n force <<< 2)) result

/-- A service command that begins. -/
def Chip.cnvBegin (c : Chip) (k op : Nat) (force : Bool) : Chip :=
  let st := c.rd (R.CNV_STATUS_STATE.inst k)
  let c := c.wr (R.CNV_SVC_CMD_BUSY.inst k) 1
  c.setCnv k (fun x => { x with service := some (op, force, st, c.now) })

/-- Whether a forced removal of an instance runs. [DEDUCED: log 99] -/
def Chip.cnvForced (c : Chip) (k : Nat) : Bool :=
  match (c.cnvInst k).service with
  | some (1, true, _, _) => true
  | _ => false

/-- CNV_REMOVE. -/
def execCnvRemove (inst : Nat) (force : Bool) (s : State) : Host.Outcome State Fault Refusal :=
  s.runHost [.regs, .dict, .muslin, .dsp, .qmg, .msl, .drc, .cnv, .moved, .odx, .gng, .sent] (fun c => if 1 < inst then c
    else if c.on (R.CNV_SVC_CMD_BUSY.inst inst) then c.wr (R.CNV_SVC_CMD_RESULT.inst inst) 6
    else if !c.canvasIn inst then c.cnvRefuse inst 1 force 2
    else if !c.canvasIn (1 - inst) && !force then c.cnvRefuse inst 1 force 4
    else
      let c := (c.cnvBegin inst 1 force).setCanvas inst cvDraining
      if !force then c
      else
        let c := if c.canvasIn (1 - inst) then c.moveSolves inst else c
        let running := match c.op? (23 + inst) with | some o => !o.tileReady | none => false
        if running then
          let mine := c.dsp.suspended.filter (fun o => o.unit == 23 + inst)
          let c := { c with dsp := { c.dsp with suspended := c.dsp.suspended.filter (fun o => o.unit != 23 + inst) } }
          (mine.foldl (fun (c : Chip) o => c.finishDesc o.weave o.index
            ⟨worse o.finalStatus St.ISLAND_OFFLINE, o.flags, o.unit, o.cls, o.activeNs / 1000, o.tiles, o.preempts, o.info0,
             o.info1⟩) c).settle
        else c.failUnit (23 + inst) St.ISLAND_OFFLINE)

/-- CNV_DRAIN_DONE: a draining instance whose operations have completed becomes OUT. -/
def execCnvDrainDone (inst : Nat) (s : State) : Host.Outcome State Fault Refusal :=
  s.run [.regs, .dict, .cnv, .odx] (fun c =>
    if 1 < inst ∨ c.rd (R.CNV_STATUS_STATE.inst inst) ≠ cvDraining ∨ (c.op? (23 + inst)).isSome ∨
        c.dsp.suspended.any (fun o => o.unit == 23 + inst) then c
    else (c.setCanvas inst cvOut).cnvDone inst 1)

/-- CNV_TEST: the known-answer run starts. -/
def execCnvTest (inst : Nat) (s : State) : Host.Outcome State Fault Refusal :=
  s.runHost [.regs, .dict, .cnv, .odx] (fun c => if 1 < inst then c
    else if c.on (R.CNV_SVC_CMD_BUSY.inst inst) then c.wr (R.CNV_SVC_CMD_RESULT.inst inst) 6
    else
      let st := c.rd (R.CNV_STATUS_STATE.inst inst)
      if st ≠ cvOut ∧ st ≠ cvFailed then c.cnvRefuse inst 2 false 2
      else (c.cnvBegin inst 2 false).setCanvas inst cvTesting)

/-- CNV_KAT_END: 300 us after its start, the known-answer run ends. -/
def execCnvKatEnd (inst : Nat) (pass : Bool) (s : State) : Host.Outcome State Fault Refusal :=
  s.run [.regs, .dict, .tku, .cnv, .odx, .sent] (fun c => if 1 < inst then c else
    match (c.cnvInst inst).service with
    | some (2, _, before, since) =>
      let c := (c.advanceTo (since + 300000)).wr (R.CNV_STATUS_TEST_PASS.inst inst) (b2n pass)
      if pass then (c.setCanvas inst before).cnvDone inst 1
      else ((c.latchFault (R.CNV_STATUS_KAT_FAIL.inst inst)).setCanvas inst cvFailed).cnvDone inst 5
    | _ => c)

/-- CNV_RETURN: a tested instance is back in service, its slots empty. -/
def execCnvReturn (inst : Nat) (s : State) : Host.Outcome State Fault Refusal :=
  s.runHost [.regs, .dict, .cnv, .odx, .isolated] (fun c => if 1 < inst then c
    else if c.on (R.CNV_SVC_CMD_BUSY.inst inst) then c.wr (R.CNV_SVC_CMD_RESULT.inst inst) 6
    else
      let st := c.rd (R.CNV_STATUS_STATE.inst inst)
      if (st ≠ cvOut ∧ st ≠ cvFailed) ∨ !c.on (R.CNV_STATUS_TEST_PASS.inst inst) then c.cnvRefuse inst 3 false 2
      else
        let c := c.cnvBegin inst 3 false
        let c := (List.range 4).foldl (fun (c : Chip) s => c.unbindSlot inst s) c
        let c := { c with isolated := c.isolated.filter (· != 100 + inst) }
        (c.setCanvas inst cvIn).cnvDone inst 1)

end Sys2Proof.Machine
end

