-- ==== Sys2Proof/Machine/Mirror.lean ====
section
/-!
DEFINITION. The mirror channel (R571 to R575): which SAFETY descriptors Gingham mirrors, where their ranges move, and how the
pair computes the mirrors of Damask operations. A mirror writes no record, so its arithmetic flags are not kept.
-/
namespace Sys2Proof.Machine

/-! ## Ranges and relocation (R573) -/

/-- The bytes from a range's first to its last. [DEDUCED: log 140] -/
def Strided.hull (s : Strided) : Nat × Nat :=
  if s.rows = 0 ∨ s.len = 0 then (s.off, 0) else (s.off, (s.rows - 1) * s.stride + s.len)

/-- The Muslin ranges of an operation that R572 mirrors, each with whether it is written. -/
def Chip.safetyRanges (c : Chip) (d : Nat) : List (Strided × Bool) :=
  let scb := fun (off : Nat) => ((⟨off, 0, 1, 64⟩ : Strided), true)
  match Desc.engine d, Desc.opcode d with
  | 0, 1 => [rangeA d, rangeB d, rangeC d, rangeSA d, rangeSB d].map (fun r => (r, false)) ++ [(rangeOut d, true), (rangeSO d, true)]
  | 0, 0x10 =>
    let a := scanArray d
    (⟨a.1, 64, a.2, 64⟩, false) :: ((List.range a.2).map (fun k =>
      let r := c.scanRecRaw d k
      let s := c.scbAt r.scb
      [scb r.scb, (r.rowRange d s, false), (r.colRange d s, false), (r.decayRange d s, false), (r.resetRange, false),
       (r.outRange d s, true)])).foldr (· ++ ·) []
  | 0, 0x11 => [scb (recOffs d).1, (⟨(recOffs d).2, 0, 1, (c.scbAt (recOffs d).1).pin.imageBytes⟩, false)]
  | 0, 0x13 => [scb (recOffs d).1, (⟨(recOffs d).2, 0, 1, 64 + (c.scbAt (recOffs d).1).pin.imageBytes⟩, false)]
  | 2, _ => (twSlots d).filterMap (fun s => if s.store then none else some (s.place, s.wr))
  | _, _ => []

/-- Whether R572 mirrors an operation at all. -/
def mirrorable (d : Nat) : Bool :=
  match Desc.engine d with
  | 0 => [0x01, 0x02, 0x10, 0x11, 0x13].contains (Desc.opcode d)
  | 2 => Desc.opcode d != 0x11 && Desc.opcode d != 0x12
  | _ => false

/-- Whether a range keeps R573: within the area, or, where it is only read, outside it. -/
def rangeKeeps (act size : Nat) (r : Strided × Bool) : Bool :=
  let h := r.1.hull
  h.2 == 0 || (decide (act ≤ h.1) && decide (h.1 + h.2 ≤ act + size)) ||
  (!r.2 && (decide (h.1 + h.2 ≤ act) || decide (act + size ≤ h.1)))

/-- A descriptor with every range of the area moved (R573); the relocation stands above its 512 bits for the ranges that a SCAN's
records name. [DEDUCED: log 140] -/
def movedDesc (d act size dst : Nat) : Nat :=
  let field := fun (x lo : Nat) =>
    let v := 64 * bits x lo 22
    if act ≤ v ∧ v < act + size then setBits x lo 22 ((v - act + dst) / 64) else x
  let d := bits d 0 512
  let los := match Desc.engine d, Desc.opcode d with
    | 0, 1 => [256, 278, 300, 322, 344, 366]
    | 0, 2 => []
    | 0, 0x10 => [256]
    | 0, _ => [256, 278]
    | 2, _ => (List.range 6).filterMap (fun n => if Tw.store d n then none else some (256 + 24 * n))
    | _, _ => []
  los.foldl field d + (act <<< 512) + (size <<< 544) + (dst <<< 576)

/-- The frame of a weave. -/
def Chip.frameOf (c : Chip) (id : Nat) : Option GngFrame := c.gng.frames.find? (fun f => f.weave == some id)

/-- Whether the SAFETY flag of a descriptor counts (R571). -/
def safetyCounts (d : Nat) : Bool := Desc.safety d && Desc.engine d != 0xA

/-- The refusal of a SAFETY descriptor (R571 to R573), or OK. A golden run's descriptors have passed it in their frame. -/
def Chip.safetyRefusal (c : Chip) (w : Weave) (d : Nat) : Nat :=
  if !safetyCounts d || w.isGolden then St.OK
  else
    match c.frameOf w.id with
    | none => St.GNG_UNBOUND
    | some f =>
      if !c.gngOn || decide (1 < w.cls) then St.GNG_UNBOUND
      else if !mirrorable d || !(c.safetyRanges d).all (rangeKeeps (f.e 4) (f.e 5)) then St.GNG_NOT_MIRRORED
      else St.OK

/-- A descriptor of a frame is read: Gingham keeps it, and its mirrors wait (R572, R575). [DEDUCED: log 140] -/
def Chip.addMirrors (c : Chip) (w : Weave) (i d : Nat) (refused : Bool) : Chip :=
  match c.frameOf w.id with
  | none => c
  | some f =>
    let f := { f with descs := f.descs ++ [d] }
    if refused || !safetyCounts d || c.safetyRefusal w d != St.OK || f.expired || f.spoiled then c.setFrame f
    else
      let raw := movedDesc d (f.e 4) (f.e 5) (f.e 6)
      let parts := if Desc.engine d = 0 ∧ Desc.opcode d = 1 ∧ 1 < (matPar d).m then [0, 1] else [0]
      c.setFrame { f with mirrors := f.mirrors ++ parts.map (fun p => ⟨i, p, raw, none, 0, St.OK⟩) }

/-! ## Where and when a mirror runs (R572, R575) -/

/-- Whether cluster `k` belongs to the pair and takes a mirror: ACTIVE, its domain in service, nothing on it. -/
def Chip.pairReady (c : Chip) (k : Nat) : Bool :=
  (c.rd R.TWL_GNG_PAIR_CLUSTER_A == k || c.rd R.TWL_GNG_PAIR_CLUSTER_B == k) && c.rd R.TWL_CLUSTER_STATE k == 0 &&
  !c.unitOffline (2 + k) && c.domainState (14 + k / 6) == 0

/-- The handle under which a mirror's chain is kept. -/
def mirrorWeave (f : GngFrame) : Nat := 2 ^ 32 + f.weave.getD 0

/-- Whether a mirror continues a chain. -/
def GngFrame.continues (f : GngFrame) (m : GngMirror) : Bool := m.index != 0 && Desc.chainNext (f.descs.getD (m.index - 1) 0)

/-- Whether a mirror may run on pair cluster `k`: a MATMUL's halves each on its own, a chain on the one it began on, anything
else on the lowest-numbered free one. `busy` also asks which cluster it would take from other work. -/
def Chip.mirrorFits (c : Chip) (f : GngFrame) (m : GngMirror) (k : Nat) (busy : Bool) : Bool :=
  let a := c.rd R.TWL_GNG_PAIR_CLUSTER_A; let b := c.rd R.TWL_GNG_PAIR_CLUSTER_B
  if !c.pairReady k then false
  else if Desc.engine m.raw = 0 ∧ Desc.opcode m.raw = 1 then k == (if m.part = 0 then a else b)
  else if f.continues m then Table.get? c.dsp.chains (chainKey k 0) == some (mirrorWeave f, m.index)
  else
    let open_ := fun (j : Nat) => c.pairReady j && (Table.get? c.dsp.chains (chainKey j 0)).isNone
    let free := [min a b, max a b].find? (fun j => open_ j && (c.op? (2 + j)).isNone)
    if busy then free.isNone && open_ k else free == some k

/-- The mirrors ready for pair cluster `k`, the oldest frame first. [DEDUCED: log 140] -/
def Chip.mirrorFor (c : Chip) (k : Nat) (busy : Bool) : Option (GngFrame × GngMirror) :=
  c.gng.frames.findSome? (fun f =>
    if f.expired then none
    else (f.mirrors.find? (fun m => m.state == 0 && f.mirrorReady m && c.mirrorFits f m k busy)).map (fun m => (f, m)))

/-- A mirror of a frame changed. -/
def GngFrame.setMirror (f : GngFrame) (m : GngMirror) : GngFrame :=
  { f with mirrors := f.mirrors.map (fun x => if x.index = m.index ∧ x.part = m.part then m else x) }

/-! ## The state images (R572) -/

/-- The Muslin offset of a stream's mirror state image, where STREAMS lists it. -/
def GngFrame.streamImage (f : GngFrame) (stream : Nat) : Option Nat :=
  if f.e 0x11 = 0 then none
  else ((List.range 16).find? (fun k => bits (f.e 0x12) (64 * k) 16 == stream && stream != 0xFFFF)).map (fun k =>
    f.e 0x11 + bits (f.e 0x12) (64 * k + 32) 32)

/-- The rows of a range as byte runs. -/
def Strided.runs (s : Strided) : List (Nat × Nat) := (List.range s.rows).map (fun t => (s.row t, s.len))

/-! ## Damask operations on the pair (R572, R574) -/

/-- Output (i, j) of a mirrored MATMUL: each product rounded, summed in increasing k, then operand C (R258, R574). -/
def Chip.mirrorOut (c : Chip) (d i j : Nat) : Acc :=
  let fa := Desc.fmtA d; let fb := Desc.fmtB d
  if damaskInt fa then (c.matOut d i j).1
  else
    let s := (List.range (matPar d).k).foldl (fun (s : Num) k =>
      let sa := c.scaleA d i (k / 32); let sb := c.scaleB d j (k / 32)
      let p := (scaledElem fa sa (c.matA d i k)).mul (scaledElem fb sb (c.matB d k j))
      r32 (s.add (r32 (p.shift ((sa : Int) + sb - 254))))) Num.zero
    if Desc.fmtC d = 0 then .flt s
    else
      let x := decodeElem (fmtCode (Desc.fmtC d)) 0 (c.elem ((rangeC d).row (if (matPar d).bcast then 0 else i)) (wC d) j)
      ((Acc.flt s).plus x).1

/-- One output row of a mirrored MATMUL. -/
def Chip.mirrorMatRow (c : Chip) (o : OpRun) (i : Nat) : Chip × OpRun × Nat :=
  let d := o.raw
  let n := (matPar d).n
  let e := o.emitRow (Desc.fmtOut d) ((List.range n).map (fun j =>
    let v := c.mirrorOut d i j; ((i * n + j) % 1024, v.code, v.num)))
  let w := c.devWrite ((rangeOut d).row i) e.2.1
  let w2 := if w.2 = 0 ∧ fmtMx (Desc.fmtOut d) then w.1.devWrite ((rangeSO d).row i) e.2.2 else w
  (w2.1, e.1, w2.2)

/-- The rows of tile `t` of a half: `ceil(rows / TILE_COUNT)` each. -/
def mirrorRows (d part t : Nat) : List Nat :=
  let m := (matPar d).m
  let h := ceilDiv m 2
  let first := if part = 0 then 0 else h
  let n := if part = 0 then h else m - h
  let per := ceilDiv n (Desc.tileCount d)
  (List.range (min per (n - t * per))).map (fun k => first + t * per + k)

/-- A tile of a mirrored MATMUL. -/
def Chip.mirrorMatmul (c : Chip) (o : OpRun) (part : Nat) : Chip × OpRun :=
  let d := o.raw
  let rows := mirrorRows d part o.tiles
  let own := fun (s : Strided) => rows.map (fun i => (s.row i, s.len))
  let outs := own (rangeOut d)
  let r := c.touchReads ((if (matPar d).transA then (rangeA d).runs else own (rangeA d)) ++ (rangeB d).runs ++
    (if fmtMx (Desc.fmtA d) then own (rangeSA d) else []) ++ (rangeSB d).runs ++
    (if Desc.fmtC d = 0 then [] else if (matPar d).bcast then (rangeC d).runs else own (rangeC d)))
  if r.2 != 0 then (r.1.invalidate outs, o.ends r.2)
  else
    let t := rows.foldl (fun (t : Chip × OpRun × Nat) i => if t.2.2 != 0 then t else t.1.mirrorMatRow t.2.1 i) (r.1, o, St.OK)
    if t.2.2 != 0 then (t.1.invalidate outs, t.2.1.ends t.2.2) else (t.1, t.2.1)

/-- One column of one step on a state image, products rounded before their additions (R574): the states, and y. -/
def Chip.mirrorColumn (c : Chip) (image : Nat) (r : ScanRec) (s : Scb) (t col : Nat) (o : OpRun) : Chip × OpRun × Num × Nat :=
  let d := o.raw
  let h := col / s.headCols
  (List.range s.nrows).foldl (fun (u : Chip × OpRun × Num × Nat) n =>
    if u.2.2.2 != 0 then u
    else
      let a := image + s.imageOff n col
      let prev := if u.1.resetBit r t then Num.zero else f32val (u.1.peekNat a 4)
      let v := r32 ((r32 ((c.scanDecay d r s t h n col).mul prev)).add (r32 ((c.scanB d r s t h n).mul (c.scanX d r t col))))
      let q := u.2.1.conv 0xC s.fmt (s.col col) v
      let hv := decodeElem s.fmt 0 q.2
      let w := u.1.devWrite a (leBytes 4 (f32bits hv))
      (w.1, q.1, r32 (u.2.2.1.add (r32 ((c.scanC d r s t h n).mul hv))), w.2)) (c, o, Num.zero, St.OK)

/-- One step on a state image, with its output row. -/
def Chip.mirrorStep (c : Chip) (image : Nat) (r : ScanRec) (s : Scb) (t : Nat) (o : OpRun) : Chip × OpRun × Nat :=
  let u := (List.range s.width).foldl (fun (u : Chip × OpRun × List Nat × Nat) col =>
    if u.2.2.2 != 0 then u
    else
      let v := u.1.mirrorColumn image r s t col u.2.1
      if r.outEn then
        let q := v.2.1.conv 0xC (fmtCode (Desc.fmtOut o.raw)) (s.col col) v.2.2.1
        (v.1, q.1, u.2.2.1 ++ [q.2], v.2.2.2)
      else (v.1, v.2.1, u.2.2.1, v.2.2.2)) (c, o, [], St.OK)
  if u.2.2.2 != 0 ∨ !r.outEn then (u.1, u.2.1, u.2.2.2)
  else
    let w := u.1.devWrite (r.out + t * r.outStride) (packElems (wO o.raw) u.2.2.1)
    (w.1, u.2.1, w.2)

/-- Record `k` of a mirrored SCAN: its steps on the state image, then its SCB as R188 has it. None where the stream has no
image. -/
def Chip.mirrorScan (c : Chip) (f : GngFrame) (o : OpRun) (k : Nat) : Option (Chip × OpRun) :=
  let d := o.raw
  let r := c.scanRecAt d k
  let s := c.scbAt r.scb
  match f.streamImage s.pin.stream with
  | none => none
  | some image =>
    let q := c.touchReads ([((scanArray d).1 + 64 * k, 64), (r.scb, 64), (image, s.pin.imageBytes)] ++ r.resetRange.runs ++
      (r.rowRange d s).runs ++ (r.colRange d s).runs ++ (r.decayRange d s).runs)
    some (if q.2 != 0 then q.1.tornAt r.scb o q.2
    else
      let u := (List.range r.len).foldl (fun (u : Chip × OpRun × Nat) t =>
        if u.2.2 != 0 then u else u.1.mirrorStep image r s t u.2.1) (q.1, o, St.OK)
      if u.2.2 != 0 then (u.1.invalidate (r.outRange d s).runs).tornAt r.scb u.2.1 u.2.2
      else
        let last := match (c.resetMarks r).getLast? with | some t => s.steps + t | none => s.lastReset
        let w := u.1.devWrite (r.scb + 8) (leBytes 8 (s.steps + r.len) ++ leBytes 8 last ++ leBytes 4 (s.records + 1))
        if w.2 != 0 then w.1.tornAt r.scb u.2.1 w.2 else (w.1, u.2.1))

/-- A mirrored ANCHOR: the state image takes the converted shadow. -/
def Chip.mirrorAnchor (c : Chip) (f : GngFrame) (o : OpRun) : Option (Chip × OpRun) :=
  let d := o.raw
  let s := c.scbAt (recOffs d).1
  let shadow := (recOffs d).2
  match f.streamImage s.pin.stream with
  | none => none
  | some image =>
    some (if bits d 320 64 != s.steps then (c, o.ends St.DMK_STALE_ANCHOR)
    else
      let r := c.touchReads [((recOffs d).1, 64), (shadow, s.pin.imageBytes)]
      if r.2 != 0 then r.1.tornAt s.off o r.2
      else
        let u := s.cells.foldl (fun (u : Chip × OpRun × Nat) p =>
          if u.2.2 != 0 then u
          else
            let q := u.2.1.convInput 0xC s.fmt (s.col p.2) (f32val (u.1.peekNat (shadow + s.imageOff p.1 p.2) 4))
            let w := u.1.devWrite (image + s.imageOff p.1 p.2) (leBytes 4 (f32bits (decodeElem s.fmt 0 q.2)))
            (w.1, q.1, w.2)) (r.1, o, St.OK)
        u.1.streamWhole s.off u.2.1 u.2.2)

/-- A mirrored RESTORE: R195's checks, then the state image takes the checkpoint's slots, and the SCB its counts. -/
def Chip.mirrorRestore (c : Chip) (f : GngFrame) (o : OpRun) : Option (Chip × OpRun) :=
  let d := o.raw
  let s := c.scbAt (recOffs d).1
  let img := (recOffs d).2
  match f.streamImage s.pin.stream with
  | none => none
  | some image =>
    let r := c.touchReads [((recOffs d).1, 64), (img, 64 + s.pin.imageBytes)]
    some (if r.2 != 0 then r.1.tornAt s.off o r.2
    else if !c.ckptOk s img then (r.1, o.ends St.DMK_CKPT_BAD)
    else
      let h := c.peekNat img 64
      let w := r.1.devWrite image (c.peek (img + 64) s.pin.imageBytes)
      let v := if w.2 = 0 then w.1.devWrite (s.off + 8) (leBytes 8 (bits h 96 64) ++ leBytes 8 (bits h 160 64)) else w
      v.1.streamWhole s.off o v.2)

/-- The checks of a Damask operation's mirror: those of its primary that do not look at the array. -/
def Chip.mirrorCheck (c : Chip) (d : Nat) : Nat :=
  match Desc.opcode d with
  | 1 => matCheck d
  | 2 => if pinParOk d then St.OK else St.DMK_BAD_PARAM
  | 0x10 =>
    let n := (scanArray d).2
    if !scanFormatsOk d then St.FMT_UNSUPPORTED
    else if n == 0 || Desc.tileCount d != n || decide (muslinSize < (scanArray d).1 + 64 * n) ||
        (List.range n).any (fun k => !c.scanRecOk d k) then St.DMK_BAD_PARAM
    else if c.scanOverlap d then St.DMK_OVERLAP
    else if (List.range n).any (fun k => (c.scbAt (c.scanRecAt d k).scb).torn) then St.DMK_STREAM_TORN
    else St.OK
  | op =>
    let s := c.scbAt (recOffs d).1
    if op = 0x11 ∧ Desc.rnd d = 3 then St.FMT_UNSUPPORTED
    else if Desc.tileCount d != 1 || decide (muslinSize < (recOffs d).1 + 64) || !s.ok ||
        decide (muslinSize < (recOffs d).2 + (if op = 0x13 then 64 else 0) + s.pin.imageBytes) then St.DMK_BAD_PARAM
    else St.OK

/-- The next tile of the mirror of a Damask operation. An unlisted stream makes its frame a disagreement (R572). -/
def Chip.mirrorTile (c : Chip) (f : GngFrame) (o : OpRun) (part : Nat) : Chip × OpRun :=
  let work := match Desc.opcode o.raw with
    | 1 => some (c.mirrorMatmul o part)
    | 2 =>
      let p := pinPar o.raw
      (f.streamImage p.stream).map (fun image =>
        let w := c.devWrite image (List.replicate p.imageBytes 0)
        (w.1, if w.2 = 0 then o else o.ends w.2))
    | 0x10 => c.mirrorScan f o o.tiles
    | 0x11 => c.mirrorAnchor f o
    | _ => c.mirrorRestore f o
  match work with
  | some r => r
  | none => (c.setFrame { f with spoiled := true }, { o with finished := true })

/-! ## Start and tiles -/

/-- A mirror starts on pair cluster `k`, in class 0. -/
def Chip.startMirror (c : Chip) (f : GngFrame) (m : GngMirror) (k : Nat) : Chip :=
  let id := f.weave.getD 0
  let o := OpRun.start ⟨0, 0, 0, m.index, id, 0, m.raw⟩ (2 + k) c.now
  let o := { o with ctx := [m.part], mirror := true }
  let c := c.setFrame (f.setMirror { m with state := 1, cluster := some k })
  if Desc.engine m.raw = 0 then
    let st := c.mirrorCheck m.raw
    if st != St.OK then c.setOp (2 + k) (o.ends st) else c.setOp (2 + k) { o with begun := true, tileReady := true }
  else
    let c := c.setOp (2 + k) o
    if Desc.chainNext m.raw then
      let key := chainKey k 0
      let opens := (Table.get? c.dsp.chains key).isNone
      let c := { c with dsp := { c.dsp with chains := Table.put c.dsp.chains key (mirrorWeave f, m.index + 1) } }
      if opens then
        let n := c.freshId
        { n.2 with twl := { n.2.twl with stores := Table.put n.2.twl.stores key ⟨n.1, []⟩ } }
      else c
    else c

/-- A mirror ends a tile, which is timed as any is (R83). Its frame over, it is abandoned (R575); the work of a Damask operation's tile
is done here. -/
def Chip.mirrorTileEnd (c : Chip) (u ns : Nat) (o : OpRun) : Chip :=
  let f? := c.frameOf o.weave
  if (match f? with | some f => f.expired | none => true) then c.endMirror u o St.DSP_CANCELLED
  else
    let r := match f? with
      | some f => if Desc.engine o.raw = 0 ∧ !o.finished then c.mirrorTile f o (o.ctx.headD 0) else (c, o)
      | none => (c, o)
    let t := r.1.timeTile u ns r.2
    let o := t.2
    let o := { o with tiles := o.tiles + 1, activeNs := o.activeNs + ns,
                      tileReady := Desc.engine o.raw == 0 && !o.finished && decide (o.tiles + 1 < Desc.tileCount o.raw),
                      finished := o.finished || decide (Desc.tileCount o.raw ≤ o.tiles + 1) }
    t.1.setOp u o

end Sys2Proof.Machine
end

