-- ==== Sys2Proof/Machine/TwillService.lean ====
section
/-!
DEFINITION. Removing, testing and swapping Twill clusters (R263 to R266), and Gingham's pair (R257).
-/
namespace Sys2Proof.Machine

/-- STATE codes of a cluster (R268). -/
def clActive : Nat := 0
def clSpare : Nat := 1
def clRemoved : Nat := 2
def clFailed : Nat := 3
def clTesting : Nat := 4
def clDraining : Nat := 5

/-- The island of a cluster. -/
def clusterIsland (k : Nat) : Nat := 43 + k

/-- The state of a cluster set: a REMOVED or FAILED cluster is isolated (R239); TWL_STATUS counts follow. -/
def Chip.setCluster (c : Chip) (k st : Nat) : Chip :=
  let c := c.wr R.TWL_CLUSTER_STATE st k
  let out := st = clRemoved ∨ st = clFailed
  let c := { c with isolated := if out then insertNat c.isolated (clusterIsland k)
                                else c.isolated.filter (· != clusterIsland k) }
  let count := fun s => ((List.range 18).filter (fun j => c.rd R.TWL_CLUSTER_STATE j == s)).length
  (c.wr R.TWL_STATUS_ACTIVE (count clActive)).wr R.TWL_STATUS_SPARE (count clSpare)

/-- Whether a cluster serves the ATU, or Gingham (R198, R257). -/
def Chip.clusterOnDuty (c : Chip) (k : Nat) : Bool :=
  (c.on R.ATU_CTRL_ENABLE && c.rd R.ATU_CTRL_TWILL_CLUSTER == k) ||
  c.rd R.TWL_GNG_PAIR_CLUSTER_A == k || c.rd R.TWL_GNG_PAIR_CLUSTER_B == k

/-- BUSY of the service command. -/
def Chip.twlBusy (c : Chip) (v : Option TwlService) : Chip :=
  let c := { c with twl := { c.twl with service := v } }
  (c.wr R.TWL_SVC_CMD_BUSY (b2n v.isSome)).wr R.TWL_STATUS_SVC_BUSY (b2n v.isSome)

/-- The word a service command was written as. -/
def TwlService.word (s : TwlService) : Nat := s.op + (s.cluster <<< 3) + (b2n s.force <<< 8) + (b2n s.auto <<< 9)

/-- A service command completes: RESULT, BUSY, and its journal record (R263, R512). -/
def Chip.twlDone (c : Chip) (s : TwlService) (result : Nat) : Chip :=
  ((c.wr R.TWL_SVC_CMD_RESULT result).twlBusy none).journalService R.TWL_SVC_CMD s.word result

/-- A refused service command: RESULT and its journal record. [DEDUCED: log 50] -/
def Chip.twlRefuse (c : Chip) (s : TwlService) (result : Nat) : Chip :=
  (c.wr R.TWL_SVC_CMD_RESULT result).journalService R.TWL_SVC_CMD s.word result

/-- The target of a REMOVE drains (R264, R265): with FORCE and no tile running, its work ends at once. -/
def Chip.twlDrain (c : Chip) (s : TwlService) : Chip :=
  let c := c.setCluster s.cluster clDraining
  let c := c.twlBusy (some { s with testing := none, since := c.now })
  let u := 2 + s.cluster
  if s.force && (match c.op? u with | some o => !o.tileReady | none => true) then (c.failUnit u St.ISLAND_OFFLINE).gngFollow else c.gngFollow

/-- The lowest spare cluster. -/
def Chip.nextSpare (c : Chip) : Option Nat := (List.range 18).find? (fun k => c.rd R.TWL_CLUSTER_STATE k == clSpare)

/-- A REMOVE tries the next spare, or drains the target when none is left (R264). -/
def Chip.twlTrySpare (c : Chip) (s : TwlService) : Chip :=
  match c.nextSpare with
  | some k => (c.setCluster k clTesting).twlBusy (some { s with testing := some k, since := c.now })
  | none => c.twlDrain s

/-- The checks all service commands share: BUSY (RESULT 6; the write is no command), and the state the command needs
(RESULT 3). -/
def Chip.twlStart (c : Chip) (s : TwlService) (need : Nat) (f : Chip → Chip) : Chip :=
  if c.on R.TWL_SVC_CMD_BUSY then c.wr R.TWL_SVC_CMD_RESULT 6
  else if 17 < s.cluster ∨ c.rd R.TWL_CLUSTER_STATE s.cluster ≠ need then c.twlRefuse s 3
  else f c

/-- TWL_REMOVE (R263 to R265). -/
def execTwlRemove (cluster : Nat) (force autoSpare : Bool) (s : State) : Host.Outcome State Fault Refusal :=
  s.runHost [.regs, .dict, .muslin, .dsp, .qmg, .msl, .drc, .twl, .odx, .gng, .isolated, .sent]
    (fun c => c.twlStart ⟨1, cluster, force, autoSpare, false, none, 0⟩ clActive (fun c =>
    let left := (List.range 18).any (fun j => j != cluster && c.rd R.TWL_CLUSTER_STATE j == clActive && !c.clusterOnDuty j)
    let v : TwlService := ⟨1, cluster, force, autoSpare, false, none, c.now⟩
    if c.clusterOnDuty cluster && !force then c.twlRefuse v 4
    else if !left then c.twlRefuse v 7
    else
      let c := c.twlBusy (some v)
      if autoSpare then c.twlTrySpare v else c.twlDrain v))

/-- TWL_TEST (R263): the known-answer run of a removed cluster. -/
def execTwlTest (cluster : Nat) (s : State) : Host.Outcome State Fault Refusal :=
  s.runHost [.regs, .dict, .twl, .odx, .isolated] (fun c =>
    c.twlStart ⟨2, cluster, false, false, false, none, 0⟩ clRemoved (fun c =>
    (c.setCluster cluster clTesting).twlBusy (some ⟨2, cluster, false, false, false, some cluster, c.now⟩)))

/-- TWL_RETURN (R263): a removed cluster that passed its test becomes a spare. -/
def execTwlReturn (cluster : Nat) (s : State) : Host.Outcome State Fault Refusal :=
  s.runHost [.regs, .dict, .twl, .odx, .isolated] (fun c =>
    let v : TwlService := ⟨3, cluster, false, false, false, none, 0⟩
    c.twlStart v clRemoved (fun c =>
    if c.on R.TWL_CLUSTER_TEST_PASS cluster then
      (c.setCluster cluster clSpare).twlDone v 1
    else c.twlRefuse v 3))

/-- TWL_ACTIVATE (R263): a spare runs the known-answer run. -/
def execTwlActivate (cluster : Nat) (s : State) : Host.Outcome State Fault Refusal :=
  s.runHost [.regs, .dict, .twl, .odx, .isolated] (fun c =>
    c.twlStart ⟨4, cluster, false, false, false, none, 0⟩ clSpare (fun c =>
    (c.setCluster cluster clTesting).twlBusy (some ⟨4, cluster, false, false, false, some cluster, c.now⟩)))

/-- TWL_KAT_END (R264): 400 us of known-answer run, after 0.2 us of wake for a spare. -/
def execTwlKatEnd (pass : Bool) (s : State) : Host.Outcome State Fault Refusal :=
  s.run [.regs, .dict, .muslin, .tku, .dsp, .qmg, .msl, .drc, .twl, .odx, .gng, .isolated, .sent] (fun c =>
    match c.twl.service with
    | some v =>
      match v.testing with
      | some k =>
        let c := c.advanceTo (v.since + (if v.op = 2 then 400000 else 400200))
        let c := c.wr R.TWL_CLUSTER_TEST_PASS (b2n pass) k
        let c := if pass then c.setCluster k (if v.op = 2 then clRemoved else clActive)
          else ((c.setCluster k clFailed).latchFault R.TWL_STATUS_KAT_FAIL).gngFollow
        if v.op = 1 then (if pass then c.twlDrain { v with replaced := true } else c.twlTrySpare v)
        else c.twlDone v (if pass then 1 else 5)
      | none => c
    | none => c)

/-- TWL_DRAIN_DONE (R264): a draining cluster with nothing left is isolated; 2 us later it is REMOVED. -/
def execTwlDrainDone (s : State) : Host.Outcome State Fault Refusal :=
  s.run [.regs, .dict, .tku, .twl, .odx, .isolated, .sent] (fun c =>
    match c.twl.service with
    | some v =>
      let k := v.cluster
      let quiet := (c.op? (2 + k)).isNone && !c.dsp.suspended.any (fun o => o.unit == 2 + k) &&
        !c.dsp.chains.any (fun p => p.1 / 8 == k)
      if v.op = 1 ∧ v.testing.isNone ∧ c.rd R.TWL_CLUSTER_STATE k = clDraining ∧ quiet then
        let c := c.advanceTo (c.now + 2000)
        ((c.setCluster k clRemoved).twlDone v (if v.auto && !v.replaced then 2 else 1)).raise 6
      else c
    | none => c)

/-- A write of TWL_GNG_PAIR (R257): only while Gingham is disabled, for two different ACTIVE clusters of one domain that are not
the ATU's; otherwise the register keeps its value and PAIR_BAD reads 1. -/
def Chip.writeGngPair (c : Chip) (v : Nat) : Chip :=
  let a := bits v 0 5
  let b := bits v 8 5
  let ok := !c.on R.GNG_STATUS_ENABLED && decide (a < 18) && decide (b < 18) && a != b && a / 6 == b / 6 &&
    c.rd R.TWL_CLUSTER_STATE a == clActive && c.rd R.TWL_CLUSTER_STATE b == clActive &&
    !(c.on R.ATU_CTRL_ENABLE && (c.rd R.ATU_CTRL_TWILL_CLUSTER == a || c.rd R.ATU_CTRL_TWILL_CLUSTER == b))
  if ok then
    let c := c.wr R.TWL_GNG_PAIR_CLUSTER_A a
    let c := c.wr R.TWL_GNG_PAIR_CLUSTER_B b
    let c := c.wr R.TWL_GNG_PAIR_EXCLUSIVE (bits v 16 1)
    c.wr R.TWL_GNG_PAIR_PAIR_BAD 0
  else c.wr R.TWL_GNG_PAIR_PAIR_BAD 1

/-- TWL_GNG_PAIR_WRITE. -/
def execTwlGngPairWrite (data : Word) (s : State) : Host.Outcome State Fault Refusal :=
  s.runHost [.regs] (fun c => c.writeGngPair data.toNat)

end Sys2Proof.Machine
end

