-- ==== Sys2Proof/Machine/Weaves.lean ====
section
/-!
DEFINITION. The Dispatch Unit's commands (chapter 03): weaves taken and launched, descriptors read and started, tiles,
suspension and completion, signals and cancellation.
-/
namespace Sys2Proof.Machine

/-! ## Submission and launches (R67, R92, R93, R285, R289, R290) -/

/-- The queues that may give an entry: submission queues with entries, and near the limit only those of class 0 or 1. -/
def Chip.submitters (c : Chip) : List Nat :=
  let n := c.dsp.weaves.length
  if !c.on R.QMG_CTRL_ENABLE || decide (1024 ≤ n) then []
  else (c.qmg.queues.filter (fun (p : Nat × Queue) =>
    p.2.kind == 1 && p.2.level != 0 && (decide (n < 960) || decide (p.2.cls ≤ 1)))).map (·.1)

/-- The next queue of the round: the lowest number from where the round goes on, or the lowest of all. [DEDUCED: log 31] -/
def Chip.nextSubmitter (c : Chip) : Option Nat :=
  let qs := c.submitters
  match qs.find? (fun q => decide (c.qmg.nextServed ≤ q)) with
  | some q => some q
  | none => qs.head?

/-- An entry of queue `n` is taken: a weave in flight, or a refusal record in the queue's PAIR. -/
def Chip.takeEntry (c : Chip) (n : Nat) (q : Queue) : Chip :=
  let r := c.devRead (q.slot q.consumed) 16
  let e := leNat r.2.2
  let c := r.1.setQueue n { q with consumed := q.consumed + 1 }
  let c := { c with qmg := { c.qmg with nextServed := n + 1 } }
  if r.2.1 != 0 then c.refusalRecord q.pair r.2.1 q.cls 0 0xFFFF 1
  else
    match c.readHeader (bits e 0 40) with
    | (c, .error (st, id, info)) => c.refusalRecord q.pair st q.cls id 0xFFFF info
    | (c, .ok h) => (c.addWeave (bits e 0 40) h (max (Hdr.cls h) q.cls) q.pair (.queue n) (e.testBit 40)).1.refresh

/-- SUBMISSION_ENTRY_TAKE (R290). -/
def execSubmissionEntryTake (s : State) : Host.Outcome State Fault Refusal :=
  s.run [.regs, .muslin, .dsp, .qmg, .msl, .drc, .sent] (fun c => c.unlessHeld (fun c =>
    match c.nextSubmitter with
    | some n =>
      match c.queue? n with
      | some q => c.takeEntry n q
      | none => c
    | none => c))

/-- The grid of a launch entry (R92). -/
def Chip.launchRule (c : Chip) (n : Nat) : GridRule :=
  ⟨c.rd R.DSP_LAUNCH_FIRST n, max 1 (c.rd R.DSP_LAUNCH_PERIOD_NS n), 1⟩

/-- A frame begins where the entry serves an enabled safety network (R576, R581). -/
def Chip.launchFrame (c : Chip) (n t : Nat) (weave : Option (Nat × Nat)) : Chip :=
  match c.boundNet n with
  | some net => c.frameLaunch net t weave
  | none => c

/-- Entry `n` launches its weave at `t`, or skips (R92, R93). [DEDUCED: log 31] -/
def Chip.launch (c : Chip) (n t : Nat) : Chip :=
  let mine := fun (w : Weave) => match w.source with | .launch e _ => e == n | _ => false
  if c.dsp.weaves.any mine || decide (1024 ≤ c.dsp.weaves.length) then (c.count R.DSP_LAUNCH_OVERRUNS n).launchFrame n t none
  else
    let k := c.rd R.DSP_LAUNCH_LAUNCHES n
    let cls := c.rd R.DSP_LAUNCH_CLASS n
    let pair := c.rd R.DSP_LAUNCH_PAIR n
    let addr := c.rd R.DSP_LAUNCH_WEAVE_ADDR n
    match (c.count R.DSP_LAUNCH_LAUNCHES n).readHeader addr with
    | (c, .error (st, id, info)) =>
      (((c.refusalRecord pair st cls id 0xFFFF info).latch R.DSP_STATUS_LAUNCH_REFUSED).raise 1).launchFrame n t none
    | (c, .ok h) =>
      let w := c.addWeave addr h cls pair (.launch n k) false
      (w.1.launchFrame n t (some (w.2, Hdr.count h))).refresh

/-- TIMED_LAUNCH (R92): entries due at one time launch in order of number (R93), so that one with another before it is not due yet.
[DEDUCED: log 184] -/
def execTimedLaunch (entry : Nat) (s : State) : Host.Outcome State Fault Refusal :=
  s.run [.regs, .dict, .muslin, .tku, .dsp, .qmg, .msl, .drc, .gng, .sent] (fun c =>
    let n := entry % 64
    let due := fun (k : Nat) => c.gridNext (gridLaunch k) (c.launchRule k)
    if !c.on R.DSP_LAUNCH_ENABLE n || (List.range n).any (fun k => c.on R.DSP_LAUNCH_ENABLE k && due k == due n) then c
    else
      let t := due n
      ((c.advanceTo t).gridServe (gridLaunch n) t).launch n t)

/-! ## Descriptors are read (R68, R72, R658) -/

/-- Whether R72 refuses a descriptor of index `i`, or R78 a SIG_SET. [DEDUCED: log 30] -/
def Chip.badDesc (c : Chip) (d i : Nat) : Bool :=
  let e := Desc.engine d
  !opcodeDefined e (Desc.opcode d) || decide (i < Desc.depA d) || decide (i < Desc.depB d) ||
  (Desc.tileCount d == 0 && e != 0xA) || (e == 7 && !c.canvasIn 0) || (e == 8 && !c.canvasIn 1) ||
  (e == 0xA && Desc.opcode d == 3 && bits d 256 8 == 0)

/-- Whether a weave may have its next descriptor read: not behind its queue's fence, at most 64 ahead. -/
def Chip.mayFetch (c : Chip) (w : Weave) : Bool :=
  let i := w.descs.length
  let oldest := ((List.range i).find? (fun j => !w.hasStarted j)).getD i
  let q := match w.source with | .queue q => some q | _ => none
  decide (i < w.count) && decide (i ≤ oldest + 64) &&
  (!w.qfence || !c.dsp.weaves.any (fun v => decide (v.id < w.id) && (match v.source with | .queue p => some p == q | _ => false)))

/-- A descriptor's words in a golden run: those of its network's GOLDEN copy (R586). -/
def Chip.goldenDesc (c : Chip) (w : Weave) (d : Nat) : Nat :=
  match w.source with
  | .golden net =>
    match Table.get? c.gng.golden net with
    | some g => movedDesc d (g.cfg.getD 3 0) (g.cfg.getD 4 0) (g.cfg.getD 6 0)
    | none => d
  | _ => d

/-- Descriptor `i` of a weave is read. [DEDUCED: log 30] -/
def Chip.fetch (c : Chip) (w : Weave) : Chip :=
  let i := w.descs.length
  let r := c.devRead (w.addr + 64 * (i + 1)) 64
  let d := leNat r.2.2
  let put := fun (c : Chip) (d : Nat) (st : DescState) => c.setWeave { w with descs := w.descs ++ [⟨d, st⟩] }
  if r.2.1 != 0 then
    let c := put r.1 0 (.done r.2.1)
    let c := (if w.isGolden then c else c.refusalRecord w.pair r.2.1 w.cls w.weaveId i 3).noteDone w.id i r.2.1
    (c.addMirrors w i 0 true).settle
  else if w.isGolden ∧ !safetyCounts d then (put r.1 d (.done St.OK)).settle
  else
    let bad := r.1.badDesc d i
    let c := (put r.1 (c.goldenDesc w d) .waiting).addMirrors w i d bad
    (if bad && !w.cancelled then c.finishDesc w.id i (.plain St.DSP_BAD_DESC w.cls) else c).settle

/-- DESCRIPTOR_FETCH (R68, R72). -/
def execDescriptorFetch (weave : Nat) (s : State) : Host.Outcome State Fault Refusal :=
  s.run Parts.dispatch (fun c =>
    match c.weave? weave with
    | some w => if c.mayFetch w then (c.unlessHeld (fun c => c.fetch w)).gngFollow else c
    | none => c)

/-! ## Start (R72, R81, R87 to R89, R240) -/

/-- Whether a unit's next work is a mirror operation (R575). [DEDUCED: log 36] -/
def Chip.mirrorNext (c : Chip) (u : Nat) : Option (GngFrame × GngMirror) :=
  if decide (2 ≤ u) && decide (u ≤ 19) && c.unitFree u then c.mirrorFor (u - 2) false else none

/-- Whether a less urgent operation than one of class `cls` ran on a unit, or on the other unit that Damask serves, after `since`. -/
def Chip.lessUrgentRan (c : Chip) (u cls since : Nat) : Bool :=
  (if u ≤ 1 then [0, 1] else [u]).any (fun v =>
    decide (since ≤ Table.getD c.dsp.freeAt v 0) && (match Table.get? c.dsp.left v with | some k => decide (cls < k) | none => false))

/-- MAX_LAT follows the start of work of class `cls` that waited, ready, while a less urgent operation ran (R89, R98). -/
def Chip.noteLatency (c : Chip) (u cls since : Nat) : Chip :=
  if c.lessUrgentRan u cls since then
    c.wr R.DSP_PREEMPT_STAT_MAX_LAT (max (min ((c.now - since) / 100) 65535) (c.rd R.DSP_PREEMPT_STAT_MAX_LAT))
  else c

/-- A candidate starts on a unit: a new operation, or the held one that KV_RESUME made ready (R231). -/
def Chip.startOn (c : Chip) (k : Candidate) (u : Nat) : Chip :=
  let c := c.noteLatency u k.cls k.since
  let held := match (c.weave? k.weave).bind (fun w => w.st k.index) with
    | some (.held slot) => (Table.get? c.atu.holds slot).map (fun h => (slot, h))
    | _ => none
  match held with
  | some (slot, h) =>
    let c := { c with atu := { c.atu with holds := Table.put c.atu.holds slot { h with started := true } } }
    (((c.showHold slot).setOp u { h.op with unit := u }).setDescState k.weave k.index .started).settle
  | none =>
    let o := OpRun.start k u c.now
    (((c.setOp u o).setDescState k.weave k.index .started).chainStart u o (c.continues k)).settle

/-- A candidate completes without starting. -/
def Chip.refuseStart (c : Chip) (k : Candidate) (st : Nat) : Chip := (c.finishDesc k.weave k.index (.plain st k.cls)).settle

/-- A SOLVE for either Canvas instance while neither is in service (R443). [DEDUCED: log 37] -/
def Chip.orphanSolve (c : Chip) (u : Nat) : Option Candidate :=
  if decide (23 ≤ u) && !c.canvasIn 0 && !c.canvasIn 1 then
    bestBy Candidate.before ((c.readyFor (fun e => e == 6)).filter (fun k => Desc.opcode k.raw == 2))
  else none

/-- Whether a suspended operation of a unit goes before a candidate (R87). -/
def Chip.suspendedFirst (c : Chip) (u cls : Nat) : Bool :=
  match c.bestSuspended u with | some o => decide (o.cls ≤ cls) | none => false

/-- DESCRIPTOR_START (R81): the most urgent work that may start on a unit starts, or is refused where it would start.
[DEDUCED: log 36] -/
def execDescriptorStart (unit : Nat) (s : State) : Host.Outcome State Fault Refusal :=
  s.run [.regs, .dict, .muslin, .dsp, .qmg, .msl, .drc, .atu, .twl, .gng, .sent, .fresh] (fun c =>
    if !c.on R.DSP_CTRL_ENABLE || decide (26 < unit) then c
    else
      match c.mirrorNext unit with
      | some (f, m) => (c.startMirror f m (unit - 2)).refresh
      | none =>
        match c.orphanSolve unit with
        | some k => (c.refuseStart k St.ISLAND_OFFLINE).gngFollow
        | none =>
          match c.bestReady unit with
          | none => c
          | some k =>
            let e := Desc.engine k.raw
            let safe := match c.weave? k.weave with | some w => c.safetyRefusal w k.raw | none => St.OK
            if (e = 7 ∧ !c.canvasIn 0) ∨ (e = 8 ∧ !c.canvasIn 1) then (c.refuseStart k St.DSP_BAD_DESC).gngFollow
            else if safe != St.OK then (c.refuseStart k safe).gngFollow
            else if c.unitOffline unit && e != 2 && e != 6 then (c.refuseStart k St.ISLAND_OFFLINE).gngFollow
            else if !c.unitFree unit || c.suspendedFirst unit k.cls || c.held unit k.cls then c
            else c.startOn k unit)

/-- OPERATION_RESUME (R87): the most urgent suspended operation of a free unit is restored, unless more urgent work is ready or
held for (R88). -/
def execOperationResume (unit : Nat) (s : State) : Host.Outcome State Fault Refusal :=
  s.run [.regs, .muslin, .dsp, .qmg, .msl, .drc, .gng, .sent] (fun c =>
    match c.bestSuspended unit with
    | none => c
    | some o =>
      let rival := c.on R.DSP_CTRL_ENABLE &&
        ((c.mirrorNext unit).isSome || (match c.bestReady unit with | some k => decide (k.cls < o.cls) | none => false))
      if !c.unitFree unit || c.unitOffline unit || rival || c.held unit o.cls then c
      else
        let rest := c.dsp.suspended.filter (fun x => !(x.unit == unit && x.cls == o.cls))
        let c := { c with dsp := { c.dsp with suspended := rest } }
        let r := c.restoreContext unit o.cls
        (if r.2 then r.1.setOp unit o
         else r.1.ctxFault.setOp unit { o with status := worse o.status St.DSP_CTX_FAULT, finished := true }).settle)

/-- HOLD_EXPIRE (R88): HOLD_US after a unit became free, its hold ends. -/
def execHoldExpire (unit : Nat) (s : State) : Host.Outcome State Fault Refusal :=
  s.run [.tku, .dsp] (fun c =>
    let hold := c.rd R.DSP_CTRL_HOLD_US
    match Table.get? c.dsp.freeAt unit with
    | some t =>
      if hold = 0 ∨ (c.op? unit).isSome ∨ c.dsp.holdExpired.contains unit then c
      else
        let c := c.advanceTo (t + hold * 1000)
        { c with dsp := { c.dsp with holdExpired := insertNat c.dsp.holdExpired unit } }
    | none => c)

/-! ## Tiles and completion (R82 to R85, R95, R96) -/

/-- Units whose engine forms its tiles itself. -/
def selfTiled (u : Nat) : Bool := u == 1 || (decide (20 ≤ u) && decide (u ≤ 24))

/-- Whether a forced removal ends the work of a unit at this tile (R265, R443). -/
def Chip.forcedOut (c : Chip) (u : Nat) : Bool :=
  (match c.twl.service with
   | some v => v.op == 1 && v.force && v.testing.isNone && u == 2 + v.cluster
   | none => false) ||
  (decide (23 ≤ u) && decide (u ≤ 24) && c.cnvForced (u - 23))

/-- Whether an operation gives way at the end of its tile (R30, R84): Sentinel switches its unit off, or more urgent work for it is
ready, a mirror counting as class 0. -/
def Chip.givesWay (c : Chip) (u : Nat) (o : OpRun) : Bool :=
  (c.sentinel && !c.sentinelKeeps u) ||
  (c.on R.DSP_CTRL_ENABLE &&
    ((o.cls != 0 && decide (2 ≤ u) && decide (u ≤ 19) && (c.mirrorFor (u - 2) true).isSome) ||
     (match c.bestRival u with | some k => decide (k.cls < o.cls) | none => false)))

/-- A golden run whose test was missed, and is abandoned (R586). -/
def Chip.goldenDropped (c : Chip) (id : Nat) : Bool :=
  match c.weave? id with
  | some w => w.isGolden && !c.gng.golden.any (fun g => g.2.weave == some id)
  | none => false

/-- A tile of weave work ends after `ns`. [DESIGN CHOICE: log 28] -/
def Chip.tileEnds (c : Chip) (u ns : Nat) (o : OpRun) : Chip :=
  let (c, o) := c.timeTile u ns o
  let o := { o with tiles := o.tiles + 1, activeNs := o.activeNs + ns, tileReady := false }
  let last := if selfTiled u then o.lastTile else decide (Desc.tileCount o.raw ≤ o.tiles)
  let o := { o with finished := o.finished || last }
  let c := c.setOp u o
  if c.forcedOut u then c.failUnit u St.ISLAND_OFFLINE
  else if c.goldenDropped o.weave then
    (if u = 1 then c.leaveAtu o else c).completeOp u { o with status := St.DSP_CANCELLED }
  else if !o.finished && c.givesWay u o then (c.suspend u o).settle
  else c.refresh

/-- TILE_END (R83, R84): the tile whose work is done ends, `ns` after it began. [DESIGN CHOICE: log 23, 39] -/
def execTileEnd (unit ns : Nat) (s : State) : Host.Outcome State Fault Refusal :=
  s.run [.regs, .dict, .muslin, .dsp, .qmg, .msl, .drc, .dmk, .atu, .gng, .sent, .fresh] (fun c =>
    match c.op? unit with
    | some o =>
      if !o.tileReady then c
      else if o.mirror then
        (c.unlessHeld (fun c => if c.forcedOut unit then c.failUnit unit St.ISLAND_OFFLINE else c.mirrorTileEnd unit ns o)).gngFollow
      else (c.unlessHeld (fun c => c.tileEnds unit ns o)).gngFollow
    | none => c)

/-- The unit whose write a waiting request is. -/
def writerOf : Instr → Option Nat
  | .muslinWrite _ u _ _ => some u
  | .bitSetWrite _ u _ _ => some u
  | .bitClearWrite _ u _ _ => some u
  | .dramWrite _ u _ _ _ => some u
  | _ => none

/-- Whether a write of a unit still waits at a Muslin group or for DRAM, and is not yet visible (R18). -/
def Chip.writesWait (c : Chip) (u : Nat) : Bool :=
  c.msl.groups.any (fun g => g.waiting.any (fun i => writerOf i.1 == some u)) ||
  (c.drc.held ++ c.drc.port).any (fun i => writerOf i == some u)

/-- OPERATION_COMPLETE (R95, R96): an operation whose last tile has ended, or that ended with a status, and whose every write is visible
(R18); a comparison that comes
with it follows a self-test of the comparator, which `wrong` says fails (R580). [DESIGN CHOICE: log 138] -/
def execOperationComplete (unit : Nat) (wrong : Bool) (s : State) : Host.Outcome State Fault Refusal :=
  s.run [.regs, .dict, .muslin, .dsp, .qmg, .msl, .drc, .dmk, .atu, .gng, .sent] (fun c =>
    match c.op? unit with
    | some o =>
      if !o.finished || o.tileReady || c.writesWait unit then c
      else
        (if o.mirror then (c.endMirror unit o o.finalStatus).refresh
         else if unit = 1 then c.completeAtu o
         else c.completeOp unit o).gngFollow wrong
    | none => c)

/-! ## Dispatch control operations (R78) -/

/-- A ready descriptor of ENGINE 0xA and an opcode. -/
def Chip.control (c : Chip) (weave index opcode : Nat) (f : Chip → Weave → Nat → Chip) : Chip :=
  match c.weave? weave with
  | some w =>
    match w.st index with
    | some (.ready _ _) =>
      let d := w.raw index
      if c.on R.DSP_CTRL_ENABLE && Desc.engine d == 0xA && Desc.opcode d == opcode then f c w d else c
    | _ => c
  | none => c

/-- NOP. -/
def execNop (weave index : Nat) (s : State) : Host.Outcome State Fault Refusal :=
  s.run Parts.dispatch
    (fun c => c.control weave index 1 (fun c w _ => (c.finishDesc weave index (.plain St.OK w.cls)).settle.gngFollow))

/-- WAIT_UNTIL: at or after its time it completes at once. -/
def execWaitUntil (weave index : Nat) (s : State) : Host.Outcome State Fault Refusal :=
  s.run Parts.dispatch (fun c => c.control weave index 2 (fun c _ d =>
    if waitTime d ≤ c.now then (c.waitDone weave index).gngFollow else (c.setDescState weave index .timed).settle))

/-- WAIT_UNTIL_EXPIRE. -/
def execWaitUntilExpire (weave index : Nat) (s : State) : Host.Outcome State Fault Refusal :=
  s.run [.regs, .dict, .muslin, .tku, .dsp, .qmg, .msl, .drc, .gng, .sent] (fun c =>
    match c.weave? weave with
    | some w =>
      if w.st index = some .timed then ((c.advanceTo (waitTime (w.raw index))).waitDone weave index).gngFollow else c
    | none => c)

/-- SIG_SET: the signal takes the value, its poison clears, and the descriptor completes. -/
def execSigSet (weave index : Nat) (s : State) : Host.Outcome State Fault Refusal :=
  s.run Parts.dispatch (fun c => c.control weave index 3 (fun c w d =>
    let sig := bits d 256 8
    let c := (c.wr R.DSP_SIG_VALUE (bits d 288 32) sig).setPoison sig false
    (c.finishDesc weave index (.plain St.OK w.cls)).settle.gngFollow))

/-! ## Registers (R77, R90, R98) -/

/-- DSP_CANCEL (R90). [DEDUCED: log 29, 38] -/
def execDspCancel (weaveId : BitVec 16) (s : State) : Host.Outcome State Fault Refusal :=
  s.runHost Parts.dispatch (fun c =>
    let ws := c.dsp.weaves.map (fun (w : Weave) => if w.weaveId = weaveId.toNat then { w with cancelled := true } else w)
    ({ c with dsp := { c.dsp with weaves := ws } }).settle.gngFollow)

/-- DSP_SIG_ADD (R77). -/
def execDspSigAdd (sig : BitVec 8) (add : BitVec 24) (s : State) : Host.Outcome State Fault Refusal :=
  s.runHost Parts.dispatch (fun c => (c.signalAdd sig.toNat add.toNat).gngFollow)

/-- DSP_SIGn (R77). -/
def execDspSigWrite (sig : BitVec 8) (value : Word) (s : State) : Host.Outcome State Fault Refusal :=
  s.runHost Parts.dispatch (fun c => (c.signalSet sig.toNat value.toNat).gngFollow)

/-- STAT_CLEAR (R98). -/
def execStatClear (s : State) : Host.Outcome State Fault Refusal :=
  s.runHost [.regs] (fun c => (c.wr R.DSP_PREEMPT_STAT_PREEMPTS 0).wr R.DSP_PREEMPT_STAT_MAX_LAT 0)

/-- DSP_CTRL.ENABLE (R98). A write of 1 has no effect until stage 11 has passed (R596). [DEDUCED: log 36] -/
def execDspCtrlEnable (on : Bool) (s : State) : Host.Outcome State Fault Refusal :=
  s.runHost [.regs] (fun c => if on && decide (c.rd R.BUP_STATUS_LAST_PASSED < 11) then c else c.wr R.DSP_CTRL_ENABLE (b2n on))

end Sys2Proof.Machine
end

