-- ==== Sys2Proof/Machine/Repairs.lean ====
section
/-!
DEFINITION. Repair records, the repair set and the new-findings list (chapter 21), and what fuses and findings take out of
service.
-/
namespace Sys2Proof.Machine

/-! ## Records (R616, R617) -/

/-- A repair record, with its CRC. -/
def repairRecord (kind : Nat) (remove : Bool) (data : Nat) : Nat :=
  let body := bits kind 0 8 + (b2n remove <<< 8) + (bits data 0 64 <<< 32)
  body + (crc32 (leBytes 12 body) <<< 96)

def recordKind (r : Nat) : Nat := bits r 0 8
def recordRemove (r : Nat) : Bool := r.testBit 8
def recordData (r : Nat) : Nat := bits r 32 64

/-- KIND codes. -/
def repMuslin : Nat := 1
def repDamask : Nat := 2
def repTwill : Nat := 3
def repJersey : Nat := 4
def repPage : Nat := 5
def repPair : Nat := 6
def repCanvas : Nat := 7

/-- The key of a record's DATA under its KIND. -/
def dataKey (kind d : Nat) : Nat :=
  match kind with
  | 1 => bits d 0 22
  | 2 => bits d 0 3
  | 3 => bits d 0 5
  | 4 => bits d 0 4
  | 5 => bits d 0 24
  | 7 => bits d 0 1
  | _ => 0

/-- Whether DATA is in range for its KIND; unused bits must be 0. -/
def dataInRange (kind d : Nat) : Bool :=
  match kind with
  | 1 => decide (bits d 6 6 ≤ 35) && bits d 25 2 != 3 && d.testBit 31
  | 2 => decide (d < 2 ^ 8)
  | 3 => decide (bits d 0 5 ≤ 17) && [0, 1, 3].contains (d / 32)
  | 4 => decide (d < 2 ^ 12)
  | 5 => decide (d < 2 ^ 42)
  | 6 => decide (d < 8)
  | 7 => decide (d < 2)
  | _ => false

/-! ## The set (R615, R618) -/

/-- Whether two records have one key. -/
def sameKey (a b : Nat) : Bool := recordKind a == recordKind b && dataKey (recordKind a) (recordData a) == dataKey (recordKind b) (recordData b)

/-- One record replayed: it replaces an earlier one of its key, or removes it; a DRAM_PAIR deletes every DRAM_PAGE. -/
def replayRecord (set : List Nat) (r : Nat) : List Nat :=
  let rest := set.filter (fun x => !sameKey x r && !(recordKind r == repPair && !recordRemove r && recordKind x == repPage))
  if recordRemove r then rest else rest ++ [r]

/-- The set that a half holds. -/
def replay (half : List Nat) : List Nat := half.foldl replayRecord []

/-- Record slots of a half of a 64 KiB partition. [DEDUCED: log 148] -/
def halfSlots : Nat := 2044

/-- Whether a usable REPAIR partition exists. -/
def Chip.hasRepair (c : Chip) : Bool := c.flash.ok && c.flash.parts.contains 3

/-- BUP_REC_STATUS follows the set. -/
def Chip.setStatus (c : Chip) : Chip :=
  let c := c.wr R.BUP_REC_STATUS_SET_COUNT c.bup.set.length
  let c := c.wr R.BUP_REC_STATUS_FREE (if c.hasRepair then halfSlots - c.flash.repair.length else 0)
  c.wr R.BUP_REC_STATUS_PRESENT (b2n c.hasRepair)

/-- The records of a kind in the set, by their DATA. -/
def Chip.recorded (c : Chip) (kind : Nat) : List Nat := (c.bup.set.filter (fun r => recordKind r == kind)).map recordData

/-! ## Findings (R620) -/

/-- NEW_COUNT follows the VALID bits. -/
def Chip.countFindings (c : Chip) : Chip :=
  c.wr R.BUP_STATUS_NEW_COUNT ((List.range 64).filter (fun n => c.on R.BUP_NEW_VALID n)).length

/-- A finding enters the list in its lowest free place; one that finds the list full is lost. -/
def Chip.addFinding (c : Chip) (kind data : Nat) : Chip :=
  match (List.range 64).find? (fun n => !c.on R.BUP_NEW_VALID n) with
  | none => c.wr R.BUP_STATUS_DEGRADED 1
  | some n =>
    let c := c.wr R.BUP_NEW_KIND kind n
    let c := c.wr R.BUP_NEW_REMOVE 0 n
    let c := c.wr R.BUP_NEW_DATA data n
    (c.wr R.BUP_NEW_VALID 1 n).countFindings

/-- The list is emptied. -/
def Chip.clearFindings (c : Chip) : Chip :=
  ((List.range 64).foldl (fun (c : Chip) n => c.wr R.BUP_NEW_VALID 0 n) c).countFindings

/-! ## Parts out of service (R603, R604, R611) -/

/-- The lowest SPARE cluster not yet marked is marked to become ACTIVE at its stage-9 run. -/
def Chip.markSpare (c : Chip) (finding : Bool) : Chip :=
  match (List.range 18).find? (fun k => c.rd R.TWL_CLUSTER_STATE k == clSpare && !c.bup.activate.any (fun p => p.1 == k)) with
  | some k => { c with bup := { c.bup with activate := c.bup.activate ++ [(k, finding)] } }
  | none => c

/-- A cluster becomes FAILED, with its finding unless it already was. -/
def Chip.clusterOut (c : Chip) (k : Nat) (finding : Bool) : Chip :=
  let was := c.rd R.TWL_CLUSTER_STATE k == clFailed
  let c := (c.setCluster k clFailed).wr R.TWL_CLUSTER_TEST_PASS 0 k
  if finding && !was then c.addFinding repTwill (k + (clFailed <<< 5)) else c

/-- A Canvas instance becomes FAILED, with its finding unless it already was. -/
def Chip.canvasOut (c : Chip) (k : Nat) (finding : Bool) : Chip :=
  let was := c.rd (R.CNV_STATUS_STATE.inst k) == cvFailed
  let c := c.setCanvas k cvFailed
  if finding && !was then c.addFinding repCanvas k else c

/-- A Damask spare is steered in place of position `q` of a group. -/
def Chip.steerDamask (c : Chip) (group q source : Nat) : Chip :=
  ((c.wr R.DMK_SPARE_MAP_REPLACED q group).wr R.DMK_SPARE_MAP_IN_USE 1 group).wr R.DMK_SPARE_MAP_SOURCE source group

/-- A Jersey datapath's spare is steered in place of a lane. -/
def Chip.steerJersey (c : Chip) (d lane : Nat) : Chip :=
  let c := (c.wr R.JRS_SPARE_REPLACED lane d).wr R.JRS_SPARE_IN_USE 1 d
  c.wr R.JRS_STATUS_SPARES_FREE (c.rd R.JRS_STATUS_SPARES_FREE - 1)

/-- Stage 2's loads: Muslin and Damask fuse repairs, fused clusters, identity (R603). -/
def Chip.loadFuses (c : Chip) (f : FuseReport) : Chip :=
  let fused := f.muslinRepairs.map (fun (p : Nat × Nat × Nat × Nat) => (⟨p.1, p.2.1, p.2.2.1, p.2.2.2, 0, false⟩ : ColRepair))
  let c := { c with msl := { c.msl with repairs := fused ++ c.msl.repairs.filter (fun r => r.kind != 0) } }
  let c := f.damaskSpares.foldl (fun (c : Chip) p => c.steerDamask p.1 p.2 0) c
  let c := f.twillFailed.foldl (fun (c : Chip) k =>
    let c := c.clusterOut k false
    if k < 16 then c.markSpare false else c) c
  (c.setEntry 0x1018 4 f.serial).setEntry 0x1F00 1 f.dieId

/-- An island that stage 3 could not start (R604). [DEDUCED: log 24] -/
def Chip.islandOut (c : Chip) (i : Nat) (finding : Bool) : Chip :=
  if 43 ≤ i ∧ i ≤ 60 then
    let was := c.rd R.TWL_CLUSTER_STATE (i - 43)
    let c := c.clusterOut (i - 43) finding
    if was = clActive then c.markSpare true else c
  else if i = 100 ∨ i = 101 then c.canvasOut (i - 100) finding
  else { c with isolated := insertNat c.isolated i }

/-! ## Appending (R619) -/

/-- RESULT of an append. -/
def Chip.recResult (c : Chip) (n : Nat) : Chip := c.wr R.BUP_REC_CMD_RESULT n

/-- Whether stage 4 runs. -/
def Chip.restoring (c : Chip) : Bool := c.bup.stage == some .keeperRestore

/-- REPAIR_RECORD_APPEND (R619): a write of GO with KIND and REMOVE, for the DATA in BUP_REC_LO and BUP_REC_HI. -/
def execRepairRecordAppend (kind : BitVec 8) (remove : Bool) (s : State) : Host.Outcome State Fault Refusal :=
  s.runHost [.regs, .bup] (fun c =>
    let data := c.rd R.BUP_REC_LO_DATA_LO + (c.rd R.BUP_REC_HI_DATA_HI <<< 32)
    if c.bup.append.isSome || c.restoring then c.recResult 5
    else if !c.hasRepair then c.recResult 3
    else if !dataInRange kind.toNat data then c.recResult 2
    else (({ c with bup := { c.bup with append := some (repairRecord kind.toNat remove data) } }).wr R.BUP_REC_CMD_BUSY 1))

/-- A record is stored: into the next free slot, after the set was written into the other half where the active one is full.
[DEDUCED: log 148] -/
def Chip.storeRecord (c : Chip) (r : Nat) : Chip :=
  let half := if halfSlots ≤ c.flash.repair.length then c.bup.set else c.flash.repair
  { c with flash := { c.flash with repair := half ++ [r] }, bup := { c.bup with set := replayRecord c.bup.set r } }

/-- REPAIR_APPEND_DONE (R619): `readBackOk` says that the record read back as written. [DEDUCED: log 148] -/
def execRepairAppendDone (readBackOk : Bool) (s : State) : Host.Outcome State Fault Refusal :=
  s.runKeeper [.regs, .flash, .bup] (fun c =>
    match c.bup.append with
    | none => c
    | some r =>
      let c := ({ c with bup := { c.bup with append := none } }).wr R.BUP_REC_CMD_BUSY 0
      if readBackOk then ((c.storeRecord r).setStatus).recResult 1 else c.recResult 4)

end Sys2Proof.Machine
end

