-- ==== Sys2Proof/Machine/Package.lean ====
section
/-!
DEFINITION. Supply, reset and the pins of the package (chapter 22), host-facing resets (R270), isolation by a stall (R23), and
the switching of every domain but 0: Standby, warm restart and the rail response (R566, R622, R633).
-/
namespace Sys2Proof.Machine

/-! ## The whole reset (R25, R596, R635) -/

/-- Everything as at reset, but for what the chip does not hold: the flash, host memory, what was sent, the pins, the supplies.
DRAM, unrefreshed, keeps nothing that could be relied on. [DESIGN CHOICE: log 9, 146; DEDUCED: log 145] -/
def Chip.resetFrom (c : Chip) : Chip :=
  let r := Chip.reset
  { r with
    host := c.host, flash := c.flash, sent := c.sent, fresh := c.fresh + 1,
    hif := { r.hif with perst := c.hif.perst },
    drc := { r.drc with epoch := c.fresh + 1 },
    pkg := { c.pkg with down := false } }

/-- KEEPER_SUPPLY_ON (R596): with its reference clock, as R637 and R638 require of the board. -/
def execKeeperSupplyOn (s : State) : Host.Outcome State Fault Refusal :=
  s.runPins (fun c =>
    if c.pkg.keeper then c
    else let c := c.resetFrom
         { c with pkg := { c.pkg with keeper := true, refclk := true } })

/-- The Keeper supply is lost: the whole KB9 is reset (R25, R632). -/
def Chip.keeperLost (c : Chip) : Chip :=
  let c := c.resetFrom
  { c with pkg := { c.pkg with keeper := false } }

/-- KEEPER_SUPPLY_LOSS (R25). -/
def execKeeperSupplyLoss (s : State) : Host.Outcome State Fault Refusal := s.runPins (fun c => if c.pkg.keeper then c.keeperLost else c)

/-- SYS_RESET_ASSERT (R635): a low level of `lowNs`; below 1 us it is ignored. -/
def execSysResetAssert (lowNs : Nat) (s : State) : Host.Outcome State Fault Refusal :=
  s.runPins (fun c =>
    if lowNs < 1000 then c
    else let c := c.resetFrom
         { c with pkg := { c.pkg with resetLow := true } })

/-- SYS_RESET_RELEASE (R596, R631): the islands of domains 0, 1 and 2 start. -/
def execSysResetRelease (s : State) : Host.Outcome State Fault Refusal :=
  s.runPins (fun c =>
    if c.pkg.resetLow then
      let c := c.resetFrom
      { c with pkg := { c.pkg with resetLow := false, refclk := true } }
    else c)

/-- REFCLK_KPR_LOSS (R638): every island derived from it stops. -/
def execRefclkKprLoss (s : State) : Host.Outcome State Fault Refusal :=
  s.runPins (fun c => { c with pkg := { c.pkg with refclk := false } })

/-! ## Host-facing resets (R270, R507, R512) -/

/-- The host-facing state is reset: configuration space with the BARs, the MSI-X table, host queues, and the host's OPEN sessions; the event is recorded.
[DEDUCED: log 52] -/
def Chip.hostReset (c : Chip) (seen : Field) : Chip :=
  let c := { c with regs := c.regs.filter (fun (p : Nat × Word) =>
    !(decide (0x10000 ≤ p.1) && decide (p.1 < 0x18100)) && decide (p.1 < 2 ^ 26)) }
  let qs := (c.qmg.queues.filter (fun (p : Nat × Queue) => p.2.hostProduces || p.2.hostConsumes)).map (·.1)
  let c := qs.foldl (fun (c : Chip) n => c.disableQueue n) c
  let c := (c.latch seen).journal { kind := 1, payload := 1 }
  (List.range 8).foldl (fun (c : Chip) n =>
    if (c.session n).state = 1 ∧ (c.session n).owner = 0 then (c.freeSession n).journal { kind := 7, session := n } else c) c

/-- The link is down. [DEDUCED: log 52] -/
def Chip.linkLost (c : Chip) : Chip :=
  ((c.wr R.HIF_STATUS_LINK_UP 0).wr R.HIF_STATUS_SPEED 0).wr R.HIF_STATUS_WIDTH 0

/-- FUNCTION_LEVEL_RESET (R270). -/
def execFunctionLevelReset (s : State) : Host.Outcome State Fault Refusal := s.run [.regs, .dict, .qmg, .odx, .sent]
  (fun c => c.hostReset R.HIF_STATUS_RESET_SEEN)

/-- HOT_RESET (R270). -/
def execHotReset (s : State) : Host.Outcome State Fault Refusal := s.run [.regs, .dict, .qmg, .odx, .sent]
  (fun c => c.hostReset R.HIF_STATUS_RESET_SEEN)

/-- PERST_ASSERT (R270, R635). -/
def execPerstAssert (s : State) : Host.Outcome State Fault Refusal :=
  s.runPins (fun c =>
    let c := { c with hif := { c.hif with perst := true, training := false } }
    if c.awake then (c.linkLost).hostReset R.HIF_STATUS_RESET_SEEN else c)

/-- PERST_RELEASE (R635): link training starts. -/
def execPerstRelease (s : State) : Host.Outcome State Fault Refusal :=
  s.runPins (fun c => { c with hif := { c.hif with perst := false, training := c.awake } })

/-- LINK_DOWN (R270). -/
def execLinkDown (s : State) : Host.Outcome State Fault Refusal :=
  s.run [.regs, .dict, .qmg, .odx, .sent] (fun c => (c.linkLost).hostReset R.HIF_STATUS_LINK_DOWN_SEEN)

/-- The link is up, at a speed code and width. [DEDUCED: log 147] -/
def Chip.linkTrained (c : Chip) (speed width : Nat) : Chip :=
  let c := ((c.wr R.HIF_STATUS_LINK_UP 1).wr R.HIF_STATUS_SPEED speed).wr R.HIF_STATUS_WIDTH width
  { c with hif := { c.hif with training := false, link := (speed, width) } }

/-- PCIE_LINK_UP (R298): training completes at a speed code and width. -/
def execPcieLinkUp (speed width : Nat) (s : State) : Host.Outcome State Fault Refusal :=
  s.run [.regs, .hif] (fun c =>
    if c.hif.perst || speed == 0 || decide (5 < speed) || !([1, 2, 4, 8].contains width) then c
    else
      c.linkTrained speed width)

/-! ## A stalled island (R23, R265, R442) -/

/-- Whether a unit's work depends on an island: the unit lies on it; it is the ATU, beside Damask (R197); the island is part of the
fabric; or it is the host interface, and the unit's copy reads or writes host memory. [DEDUCED: log 24] -/
def Chip.dependsOn (c : Chip) (island u : Nat) : Bool :=
  (unitIslands u).contains island || (u == 1 && decide (island < 18)) || fabricIsland island ||
  ((island == 65 || island == 66) &&
    ((c.op? u).toList ++ c.dsp.suspended.filter (fun o => o.unit == u)).any (fun o => Desc.engine o.raw == 9 && usesHost o.raw))

/-- The units whose work depends on an island. [DEDUCED: log 24] -/
def Chip.dependents (c : Chip) (island : Nat) : List Nat := (List.range 27).filter (c.dependsOn island)

/-- Whether the conditions of a stall hold (R23): the island's clock runs, and Damask is not held at zero issue credits.
[DEDUCED: log 24] -/
def Chip.clockRuns (c : Chip) (island : Nat) : Bool :=
  c.domainState (islandDomain island) == 0 && !(decide (island < 18) && c.damaskHeld)

/-- Every ready descriptor of an engine completes with a status (R144). [DEDUCED: log 24] -/
def Chip.failReady (c : Chip) (engine st : Nat) : Chip :=
  ((c.readyFor (· == engine)).foldl (fun (c : Chip) k => c.finishDesc k.weave k.index (.plain st k.cls)) c).settle

/-- ISLAND_STALL (R23): `unit` made the access that waited. [DEDUCED: log 24] -/
def execIslandStall (island unit : Nat) (s : State) : Host.Outcome State Fault Refusal :=
  s.run [.regs, .dict, .muslin, .dsp, .qmg, .msl, .drc, .dmk, .atu, .cnv, .moved, .gng, .isolated, .sent, .fresh] (fun c =>
    if decide (111 < island) || c.isolated.contains island || !c.clockRuns island then c
    else
      let ds := c.dependents island
      let c := (c.latchFault R.PWR_STATUS_ISLAND_STALL).raise 18
      let c := if c.on R.PWR_STALL_VALID then c else (c.wr R.PWR_STALL_ISLAND island).wr R.PWR_STALL_VALID 1
      let c := { c with isolated := insertNat c.isolated island }
      let c := if 43 ≤ island ∧ island ≤ 60 then
          (c.setCluster (island - 43) clRemoved).wr R.TWL_CLUSTER_TEST_PASS 0 (island - 43) else c
      let c := if island = 100 ∨ island = 101 then c.canvasFails (island - 100) St.ISLAND_STALL St.ISLAND_STALL
        else ds.foldl (fun (c : Chip) u => c.failEngine u St.ISLAND_STALL) c
      let c := if island < 18 then c.failReady 0 St.ISLAND_STALL else c
      ((if ds.contains unit then c else c.unitMeets unit St.ISLAND_STALL)).gngFollow)

/-! ## Domains beside 0 off and on (R561, R566, R621, R622, R633, R650) -/

/-- Whether a register is held in domain 0: TKU, PWR, BUP, KPR, ODX. [DESIGN CHOICE: log 146] -/
def keptRegister (a : Nat) : Bool :=
  (decide (0xE00000 ≤ a) && decide (a < 0xF00000)) || (decide (0x1100000 ≤ a) && decide (a < 0x1400000)) ||
  (decide (0x3000000 ≤ a) && decide (a < 2 ^ 26))

/-- The running stage of bring-up ends aborted. [DEDUCED: log 24] -/
def Chip.stageStops (c : Chip) : Chip :=
  if c.bup.stage.isNone then c
  else (({ c with bup := { c.bup with stage := none } }).wr R.BUP_CMD_BUSY 0).wr R.BUP_CMD_RESULT 6

/-- Every domain except 0 is switched off, its work completing with ISLAND_OFFLINE; DRAM rests in self-refresh or is lost.
[DEDUCED: log 144; DESIGN CHOICE: log 146] -/
def Chip.fabricOff (c : Chip) (selfRefresh : Bool) : Chip :=
  let c := (List.range 27).foldl (fun (c : Chip) u => c.failEngine u St.ISLAND_OFFLINE) c
  let c := (c.linkLost).hostReset R.HIF_STATUS_LINK_DOWN_SEEN
  let c := if selfRefresh then c else c.loseDram
  let r := Chip.reset
  let cfg := c.regs.get R.DRC_CFG.addr
  let c := { c with
    regs := c.regs.filter (fun (p : Nat × Word) => keptRegister p.1),
    muslin := [], dsp := r.dsp, qmg := r.qmg, hif := { c.hif with training := false }, msl := r.msl,
    drc := { r.drc with cells := c.drc.cells, epoch := c.drc.epoch, poisoned := c.drc.poisoned, selfRefresh := selfRefresh,
                        cfgCopy := some cfg },
    dmk := r.dmk, atu := r.atu, twl := r.twl, gze := r.gze, twd := r.twd, tul := r.tul, cnv := r.cnv, moved := [], jrs := r.jrs,
    fld := r.fld, gng := r.gng, isolated := [], pkg := { c.pkg with down := true },
    bup := { c.bup with activate := [], restart := none, restarting := [] } }
  let c := (List.range 8).foldl (fun (c : Chip) g => c.setPhase g .off) c
  let c := (List.range 23).foldl (fun (c : Chip) d => c.setDomainState (d + 1) 2) c
  let c := if selfRefresh then c.setDomainState 3 3 else c
  ({ c with pwr := { c.pwr with waiting := none, settling := none, waking := [], activeAt := [] } }).stageStops

/-- Every domain is on again, its islands stopped until stage 3 or its equivalent; the Muslin groups are as `phase` says.
[DEDUCED: log 147] -/
def Chip.fabricOn (c : Chip) (phase : GroupPhase) : Chip :=
  let c := (List.range 24).foldl (fun (c : Chip) d => c.setDomainState d 0) c
  let c := (List.range 8).foldl (fun (c : Chip) g => c.setPhase g phase) c
  let c := { c with pkg := { c.pkg with down := false }, hif := { c.hif with training := !c.hif.perst } }
  c.refresh

/-- The pair that the set records retired, if one is (R607, R617). -/
def Chip.recordedPair (c : Chip) : Option Nat := (c.recorded repPair).getLast?

/-- The DRC runs on the channels that the set leaves it (R607). -/
def Chip.setChannels (c : Chip) : Chip :=
  match c.recordedPair with
  | some k => ((c.wr R.DRC_STATUS_PAIR_OUT 1).wr R.DRC_STATUS_PAIR k).refreshCap
  | none => ((c.wr R.DRC_STATUS_PAIR_OUT 0).wr R.DRC_STATUS_PAIR 0).refreshCap

/-- After a wake from Standby or a warm restart, with the equivalent of stages 1, 2, 3 and 6 run (R621, R650); the groups' fill is over
(R116). -/
def Chip.wakeRestart (c : Chip) : Chip :=
  let c := c.fabricOn .active
  let c := match c.drc.cfgCopy with
    | some w => { c with regs := c.regs.set R.DRC_CFG.addr w, drc := { c.drc with cfgCopy := none } }
    | none => c
  let c := match c.bup.fuses with | some f => c.loadFuses f | none => c
  let c := c.bup.islandsFailed.foldl (fun (c : Chip) i => c.islandOut i false) c
  let c := ({ c with drc := { c.drc with selfRefresh := false } }).setChannels
  let c := (c.endTraining 0).wr R.BUP_STATUS_LAST_PASSED 7
  let c := ((c.wr R.BUP_STATUS_READY 0).wr R.BUP_STATUS_WAKE_RESTART 1).wr R.BUP_STATUS_ALL_COLD 0
  { c with bup := { c.bup with cold := [] } }

/-- RAIL_OUT_OF_WINDOW (R632, R633): rail `rail` is out of its window for `ns`. A Keeper rail resets the KB9; another, from 1 us
on, switches every domain but 0 off, unless Standby already did. [DEDUCED: log 145] -/
def execRailOutOfWindow (rail ns : Nat) (s : State) : Host.Outcome State Fault Refusal :=
  s.runPins (fun c =>
    if rail ≤ 1 then (if c.pkg.keeper then c.keeperLost else c)
    else if decide (9 < rail) || decide (ns < 1000) then c
    else
      let c := { c with pkg := { c.pkg with rails := insertNat c.pkg.rails rail } }
      if !c.live || decide (2 ≤ c.pwr.standby) then c
      else
        let c := if c.pkg.down then c.loseDram else c.fabricOff false
        let c := { c with bup := { c.bup with warm := false }, pwr := { c.pwr with standby := 0 } }
        let c := (c.wr R.BUP_DOMAIN_CMD_BUSY 0).wr R.PWR_STATUS_DEVICE_STATE 0
        (c.wr R.BUP_STATUS_LAST_PASSED 0).wr R.BUP_STATUS_READY 0)

/-- RAILS_RESTORED (R560, R633, R634): THERMTRIP_N is released; the device waits for bring-up, or goes on with its wake.
[DEDUCED: log 145] -/
def execRailsRestored (s : State) : Host.Outcome State Fault Refusal :=
  s.runPins (fun c =>
    let c := { c with pkg := { c.pkg with rails := [] } }
    if !c.live then c
    else
      let c := ({ c with pwr := { c.pwr with thermtrip := false } }).wr R.PWR_STATUS_TRIP 0
      if c.pkg.down && c.pwr.standby == 0 && !c.bup.warm then c.fabricOn (.filling c.now) else c)

/-- STANDBY_ENTRY_DONE (R566): DRAM in self-refresh, the other domains off, the link down. RAIL_EN is low while Standby is in
force (R634). -/
def execStandbyEntryDone (s : State) : Host.Outcome State Fault Refusal :=
  s.run [.regs, .dict, .muslin, .dsp, .qmg, .hif, .msl, .drc, .dmk, .atu, .twl, .gze, .twd, .tul, .cnv, .moved, .jrs, .fld, .odx, .pwr, .gng, .bup, .pkg, .isolated, .sent, .fresh]
    (fun c =>
    if c.pwr.standby != 1 then c
    else
      let c := c.fabricOff true
      { c with pwr := { c.pwr with standby := 2, standbyAt := c.now } })

/-- The level of RAIL_EN: driven low in Standby only (R634). -/
def Chip.railEnLow (c : Chip) : Bool := c.live && c.pwr.standby == 2

/-- STANDBY_WAKE_DONE (R566, R621, R634): with the rails in their windows, the device is Active again. [DEDUCED: log 147] -/
def execStandbyWakeDone (s : State) : Host.Outcome State Fault Refusal :=
  s.runKeeper [.regs, .dict, .hif, .msl, .drc, .cnv, .pwr, .bup, .pkg, .isolated] (fun c =>
    if c.pwr.standby != 3 || !c.pkg.rails.isEmpty then c
    else
      let c := ({ c with pwr := { c.pwr with standby := 0 } }).wr R.PWR_STATUS_DEVICE_STATE 0
      let c := c.wakeRestart
      if c.hif.perst || c.hif.link.1 == 0 then c else c.linkTrained c.hif.link.1 c.hif.link.2)

/-- WARM_RESTART (R622): BUP_DOMAIN_CMD with WARM. -/
def execWarmRestart (s : State) : Host.Outcome State Fault Refusal :=
  s.runHost [.regs, .dict, .muslin, .dsp, .qmg, .hif, .msl, .drc, .dmk, .atu, .twl, .gze, .twd, .tul, .cnv, .moved, .jrs, .fld, .odx, .pwr, .gng, .bup, .pkg, .isolated, .sent, .fresh]
    (fun c =>
    if c.bup.warm || c.bup.restart.isSome then c.wr R.BUP_DOMAIN_CMD_RESULT 5
    else
      let c := c.fabricOff true
      ({ c with bup := { c.bup with warm := true } }).wr R.BUP_DOMAIN_CMD_BUSY 1)

/-- WARM_RESTART_DONE (R621, R622). [DEDUCED: log 147] -/
def execWarmRestartDone (s : State) : Host.Outcome State Fault Refusal :=
  s.runKeeper [.regs, .dict, .hif, .msl, .drc, .cnv, .bup, .pkg, .isolated] (fun c =>
    if !c.bup.warm then c
    else
      let c := ({ c with bup := { c.bup with warm := false } }).wakeRestart
      (c.wr R.BUP_DOMAIN_CMD_BUSY 0).wr R.BUP_DOMAIN_CMD_RESULT 1)

end Sys2Proof.Machine
end

