-- ==== Sys2Proof/Machine/Restart.lean ====
section
/-!
DEFINITION. Restarts of one power domain in service (R623, R624), and what a known-answer failure takes out of service (R611).
-/
namespace Sys2Proof.Machine

/-! ## Domains (R21, R24, R624) -/

/-- The islands of a domain, as R567 numbers them. -/
def domainIslands (d : Nat) : List Nat :=
  let span := fun (lo n : Nat) => (List.range n).map (· + lo)
  match d with
  | 3 => span 67 16
  | 4 => span 0 16
  | 5 => span 16 2
  | 17 => span 61 2
  | 18 => span 83 13
  | 19 => span 96 2
  | 20 => span 98 2
  | 21 => [100]
  | 22 => [101]
  | 23 => span 102 6
  | _ => if 6 ≤ d ∧ d ≤ 13 then span (18 + 2 * (d - 6)) 2 else if 14 ≤ d ∧ d ≤ 16 then span (43 + 6 * (d - 14)) 6 else []

/-- The domains that a restart of one switches: 4 and 5 go together (R25). [DEDUCED: log 154] -/
def restartSet (d : Nat) : List Nat := if d = 4 ∨ d = 5 then [4, 5] else [d]

/-- The units of a domain: with Damask, the ATU that runs on it (R197). [DEDUCED: log 154] -/
def restartUnits (d : Nat) : List Nat := if d = 3 then [] else domainUnits d

/-- The stage-9 tests of a domain (R610), as bits of BUP_KAT_PASS. -/
def Chip.domainTests (c : Chip) (d : Nat) : List Nat :=
  match d with
  | 4 | 5 => [0]
  | 14 | 15 | 16 => ((List.range 6).map (· + 6 * (d - 14))).filter (fun k => c.rd R.TWL_CLUSTER_STATE k != clFailed) |>.map (· + 2)
  | 17 => [1] | 18 => [20] | 19 => [21] | 20 => [22] | 21 => [23] | 22 => [24] | 23 => [25, 26]
  | _ => []

/-- The Muslin offsets of the areas the Dispatch Unit and the queue manager use: contexts, spill, save area (R85, R299). -/
def Chip.ctxArea (c : Chip) : Nat × Nat := (c.rd R.QMG_CTX_BASE_LO_ADDR_LO + (c.rd R.QMG_CTX_BASE_HI_ADDR_HI <<< 32), 2 ^ 20)
def Chip.spillArea (c : Chip) : Nat × Nat := (c.rd R.QMG_SPILL_BASE_LO_ADDR_LO + (c.rd R.QMG_SPILL_BASE_HI_ADDR_HI <<< 32), 2 ^ 17)
def Chip.saveArea (c : Chip) : Nat × Nat := (c.rd R.DSP_CTX_BASE_LO_ADDR_LO + (c.rd R.DSP_CTX_BASE_HI_ADDR_HI <<< 32), 2 ^ 21)

/-- Whether a restart of a domain is allowed now (R624). [DEDUCED: log 154] -/
def Chip.restartAllowed (c : Chip) (d : Nat) : Bool :=
  if d = 3 then c.on R.DRC_CTRL_QUIESCE && c.drc.retiring.isNone && c.drc.pairing.isNone && c.drc.held.isEmpty
  else if 6 ≤ d ∧ d ≤ 13 then
    !(([c.ctxArea, c.spillArea, c.saveArea]).any (fun a => decide (groupOf (devOffset a.1) ≤ d - 6) && decide (d - 6 ≤ groupOf (devOffset a.1 + a.2 - 1))))
  else if 14 ≤ d ∧ d ≤ 16 then
    (List.range 6).all (fun k => [clSpare, clRemoved, clFailed].contains (c.rd R.TWL_CLUSTER_STATE (6 * (d - 14) + k)))
  else if d = 17 then !c.on R.ATU_CTRL_ENABLE
  else if d = 18 then !c.on R.GZE_CTRL_ENABLE
  else if d = 21 ∨ d = 22 then [cvOut, cvFailed].contains (c.rd (R.CNV_STATUS_STATE.inst (d - 21)))
  else if d = 23 then c.lanesOn.isEmpty && !c.gwepoOn && !c.entryOn 0x5C00 1
  else true

/-- What the domain loses as it is switched off (R624). -/
def Chip.domainLoses (c : Chip) (d : Nat) : Chip :=
  if d = 3 then
    let c := c.clearRetired.loseDram
    (({ c with drc := { c.drc with selfRefresh := false, wakeAt := none } }).wr R.DRC_STATUS_SELF_REFRESH 0).setDomainState 3 2
  else if 6 ≤ d ∧ d ≤ 13 then
    let g := d - 6
    let lo := g * 2 ^ 25
    let mine := fun (w : Nat) => groupOf (8 * w) == g
    let c := { c with muslin := c.muslin.clear lo (2 ^ 25),
                      msl := { c.msl with poisoned := c.msl.poisoned.filter (fun w => !mine w),
                                          writebacks := c.msl.writebacks.filter (fun w => !mine w) } }
    c.setPhase g .restarting
  else if 14 ≤ d ∧ d ≤ 16 then
    ({ c with twl := { c.twl with stores := c.twl.stores.filter (fun p => p.1 / 8 / 6 != d - 14) } }).switchOff d
  else if d = 23 then
    let r := Chip.reset
    ({ c with jrs := { r.jrs with pulse := c.jrs.pulse }, fld := { r.fld with sensorLink := c.fld.sensorLink } }).setDomainState 23 2
  else c.switchOff d

/-- RESULT of a restart command. -/
def Chip.domainResult (c : Chip) (n : Nat) : Chip := c.wr R.BUP_DOMAIN_CMD_RESULT n

/-- DOMAIN_RESTART (R623, R624). -/
def execDomainRestart (domain : BitVec 5) (s : State) : Host.Outcome State Fault Refusal :=
  s.runHost [.regs, .dict, .muslin, .dsp, .qmg, .msl, .drc, .dmk, .atu, .twl, .cnv, .jrs, .fld, .gng, .bup, .sent, .fresh] (fun c =>
    let d := domain.toNat
    if c.bup.warm || c.bup.restart.isSome then c.domainResult 5
    else if d ≤ 2 ∨ 23 < d then c.domainResult 3
    else if !c.restartAllowed d then c.domainResult 2
    else
      let ds := restartSet d
      let c := ({ c with bup := { c.bup with restart := some d, restarting := ds } }).wr R.BUP_DOMAIN_CMD_BUSY 1
      let c := (restartUnits d).foldl (fun (c : Chip) u => c.failEngine u St.ISLAND_OFFLINE) c
      (ds.foldl (fun (c : Chip) e => c.domainLoses e) c).gngFollow)

/-! ## Failed known-answer runs (R611) -/

/-- The bits of some tests in BUP_KAT_PASS and BUP_KAT_FAIL. -/
def Chip.katBits (c : Chip) (tests : List Nat) (failed : Nat → Bool) : Chip :=
  tests.foldl (fun (c : Chip) t =>
    let c := c.wr R.BUP_KAT_PASS_UNITS (setBits (c.rd R.BUP_KAT_PASS_UNITS) t 1 (b2n (!failed t)))
    c.wr R.BUP_KAT_FAIL_UNITS (setBits (c.rd R.BUP_KAT_FAIL_UNITS) t 1 (b2n (failed t)))) c

/-- TEST_PASS of each Twill cluster and Canvas instance whose known-answer run is done says whether it passed (R268, R445). -/
def Chip.katMarks (c : Chip) (tests : List Nat) (failed : Nat → Bool) : Chip :=
  tests.foldl (fun (c : Chip) t =>
    if 2 ≤ t ∧ t ≤ 19 then c.wr R.TWL_CLUSTER_TEST_PASS (b2n (!failed t)) (t - 2)
    else if t = 23 ∨ t = 24 then c.wr (R.CNV_STATUS_TEST_PASS.inst (t - 23)) (b2n (!failed t))
    else c) c

/-- A cluster or Canvas instance whose run failed becomes FAILED, with its finding. -/
def Chip.katOut (c : Chip) (t : Nat) : Chip :=
  if 2 ≤ t ∧ t ≤ 19 then (c.clusterOut (t - 2) true).latchFault R.TWL_STATUS_KAT_FAIL
  else if t = 23 ∨ t = 24 then (c.canvasOut (t - 23) true).latchFault (R.CNV_STATUS_KAT_FAIL.inst (t - 23))
  else c

/-- The islands of a domain, isolated or not; a REMOVED or FAILED cluster stays isolated (R239). -/
def Chip.isolateDomain (c : Chip) (d : Nat) (out : Bool) : Chip :=
  let keep := fun (i : Nat) => decide (43 ≤ i) && decide (i ≤ 60) &&
    (c.rd R.TWL_CLUSTER_STATE (i - 43) == clRemoved || c.rd R.TWL_CLUSTER_STATE (i - 43) == clFailed)
  { c with isolated := (domainIslands d).foldl (fun (l : List Nat) i =>
      if out || keep i then insertNat l i else l.filter (· != i)) c.isolated }

/-- The DRAM_PAGE records of the set, in force again in log order: a usable page takes the next free spare, a spare page is marked
taken. RESULT reports each as the command does (R310, R312). Answers how many were applied and how many not (R609, R618). -/
def Chip.pagesAgain (c : Chip) : Chip × Nat × Nat :=
  (c.recorded repPage).foldl (fun (s : Chip × Nat × Nat) d =>
    let c := s.1
    let page := bits d 0 24
    let usable := c.usableDram / 4096
    if decide (page < usable) && !c.pageRetired page then
      match c.freeSparePage with
      | some n => (((c.startRetire page n).endRetire []).wr R.DRC_RETIRE_CMD_RESULT 1, s.2.1 + 1, s.2.2)
      | none => (c.wr R.DRC_RETIRE_CMD_RESULT 2, s.2.1, s.2.2 + 1)
    else if decide (usable ≤ page) && decide (page < usable + c.sparePages) then
      ({ c with drc := { c.drc with spareTaken := insertNat c.drc.spareTaken (page - usable) } }, s.2.1 + 1, s.2.2)
    else (c.wr R.DRC_RETIRE_CMD_RESULT 3, s.2.1, s.2.2 + 1)) (c, 0, 0)

/-- What comes back with a domain that passed (R624). [DEDUCED: log 154] -/
def Chip.domainReturns (c : Chip) (d : Nat) : Chip :=
  if d = 3 then
    let c := (c.setDomainState 3 0).setChannels
    ((c.endTraining 0).pagesAgain).1
  else if 6 ≤ d ∧ d ≤ 13 then c.setPhase (d - 6) (.filling c.now)
  else
    let c := c.setDomainState d 0
    let c := { c with pwr := { c.pwr with activeAt := Table.put c.pwr.activeAt d c.now, waking := Table.del c.pwr.waking d } }
    if d = 17 then c.atuRestore else c

/-- DOMAIN_RESTART_DONE (R623): `fail` has the bits of the tests that failed. [DEDUCED: log 144] -/
def execDomainRestartDone (fail : BitVec 27) (s : State) : Host.Outcome State Fault Refusal :=
  s.run [.regs, .dict, .muslin, .dsp, .qmg, .msl, .drc, .atu, .cnv, .pwr, .gng, .bup, .isolated, .sent] (fun c =>
    match c.bup.restart with
    | none => c
    | some d =>
      let tests := c.domainTests d
      let failed := fun (t : Nat) => fail.getLsbD t
      let bad := tests.any failed
      let c := ({ c with bup := { c.bup with restart := none, restarting := [] } }).wr R.BUP_DOMAIN_CMD_BUSY 0
      let c := ((c.katBits tests failed).katMarks tests failed).domainResult (if bad then 4 else 1)
      let c := (tests.filter failed).foldl (fun (c : Chip) t => c.katOut t) c
      let c := (restartSet d).foldl (fun (c : Chip) e => (c.domainReturns e).isolateDomain e bad) c
      c.settle.gngFollow)

end Sys2Proof.Machine
end

