-- ==== Sys2Proof/Machine/Bringup.lean ====
section
/-!
DEFINITION. The twelve stages of bring-up (chapter 21). A stage's command starts it; what the tests of a stage find are its
operands. Its effects fall at STAGE_END.
-/
namespace Sys2Proof.Machine

/-! ## Starting and ending a stage (R597 to R600) -/

/-- A stage's detail register set. -/
def Chip.detail (c : Chip) (n v : Nat) : Chip := c.wr R.BUP_DETAIL_DETAIL v n

/-- The start of stage `n`, or its refusal (R597). Stage 1 begins a run: the findings list is cleared (R620). [DEDUCED: log 142] -/
def Chip.stageStart (c : Chip) (n : Nat) (i : Instr) : Chip :=
  if c.bup.stage.isSome then c.wr R.BUP_CMD_RESULT 5
  else if c.on R.BUP_STATUS_READY || c.rd R.BUP_STATUS_LAST_PASSED + 1 != n then c.wr R.BUP_CMD_RESULT 4
  else
    let c := { c with bup := { c.bup with stage := some i, stageAt := c.now } }
    let c := if n = 1 then
        let c := { c with bup := { c.bup with cold := [], islandsFailed := [], activate := [], pages := [] } }
        c.clearFindings
      else c
    let c := ((c.wr R.BUP_CMD_BUSY 1).wr R.BUP_STATUS_CUR_STAGE n).wr R.BUP_ELAPSED_MS_MS 0
    (List.range 4).foldl (fun (c : Chip) k => c.detail k 0) c

/-- A stage run in full; ALL_COLD follows (R600). -/
def Chip.ranCold (c : Chip) (n : Nat) (cold : Bool) : Chip :=
  let l := if cold then insertNat c.bup.cold n else c.bup.cold.filter (· != n)
  let c := { c with bup := { c.bup with cold := l } }
  c.wr R.BUP_STATUS_ALL_COLD (b2n ([5, 6, 7, 9].all l.contains))

/-- A stage ends with a RESULT: a pass sets LAST_PASSED, a degraded one DEGRADED; vector 19 is raised (R598). [DEDUCED: log 142] -/
def Chip.stageEnds (c : Chip) (n result : Nat) : Chip :=
  let c := { c with bup := { c.bup with stage := none } }
  let c := (c.wr R.BUP_CMD_BUSY 0).wr R.BUP_CMD_RESULT result
  let c := if result = 1 ∨ result = 2 then c.wr R.BUP_STATUS_LAST_PASSED n else c
  let c := if result = 2 then c.wr R.BUP_STATUS_DEGRADED 1 else c
  c.raise 19

/-! ## Stages 1 to 4 (R602 to R605) -/

/-- Stage 1: rails and their order, and the reference clock within 100 ppm of 25 MHz. [DEDUCED: log 149] -/
def Chip.stage1 (c : Chip) (badRails refclkKHz : Nat) : Chip × Nat :=
  let rails := c.pkg.rails.foldl (fun (a : Nat) r => a ||| 2 ^ r) badRails
  ((c.detail 0 rails).detail 1 refclkKHz,
   if rails = 0 ∧ 24998 ≤ refclkKHz ∧ refclkKHz ≤ 25002 then 1 else 3)

/-- Stage 2. [DEDUCED: log 149] -/
def Chip.stage2 (c : Chip) (f : FuseReport) : Chip × Nat :=
  let c := (c.detail 0 f.corrected).detail 1 f.failed
  if f.failed != 0 then (c, 3)
  else
    let c := (c.detail 2 (f.muslinRepairs.length + f.damaskSpares.length)).detail 3 f.twillFailed.length
    ({ c with bup := { c.bup with fuses := some f } }.loadFuses f, 1)

/-- Stage 3: `failed` are the islands that did not start or whose crossings failed. [DESIGN CHOICE: log 26; DEDUCED: log 149] -/
def Chip.stage3 (c : Chip) (failed : List Nat) : Chip × Nat :=
  let l := failed.foldl insertNat [] |>.filter (fun i => decide (i < 112))
  let c := (List.range 4).foldl (fun (c : Chip) k =>
    c.detail k (l.foldl (fun (a : Nat) i => if i / 32 = k then a ||| 2 ^ (i % 32) else a) 0)) c
  let spared := fun (i : Nat) => (decide (43 ≤ i) && decide (i ≤ 60)) || i == 100 || i == 101 || (decide (67 ≤ i) && decide (i ≤ 82))
  let kept := l.filter spared
  let c := kept.foldl (fun (c : Chip) i => c.islandOut i true) { c with bup := { c.bup with islandsFailed := kept } }
  (c, if !l.all spared then 3 else if kept.isEmpty then 1 else 2)

/-- The journal restored from flash: the newest records, then those of SRAM that are newer; SEQ goes on, and a BOOT record is
written (R516). Without a JOURNAL partition the journal stays as it is. Answers how many flash gave. [DEDUCED: log 119, 155] -/
def Chip.restoreJournal (c : Chip) : Chip × Nat :=
  if !(c.flash.ok && c.flash.parts.contains 6) then (c, 0)
  else
    let flash := c.flash.journal.take 16384
    let top := (flash.map recSeq).foldl max 0
    let newer := c.odx.journal.filter (fun r => decide (top < recSeq r))
    let ring := (newer ++ flash).take 16384
    let next := (ring.map recSeq).foldl max 0 + 1
    let c := { c with odx := { c.odx with journal := ring, nextSeq := next, mirrored := max top (next - 1 - newer.length) } }
    let c := if flash.isEmpty then c else c.setEntry 0xA000 3 top
    (c.journal { kind := 1 }, flash.length)

/-- Stage 4. [DEDUCED: log 149] -/
def Chip.stage4 (c : Chip) : Chip × Nat :=
  let has := fun (k : Nat) => c.flash.ok && c.flash.parts.contains k
  let kinds := [1, 2, 3, 4, 5, 6]
  let c := c.wr R.KPR_STATUS_FLASH_OK (b2n c.flash.ok)
  let c := c.detail 0 (kinds.foldl (fun (a : Nat) k => if has k then a ||| 2 ^ k else a) 0)
  let c := { c with bup := { c.bup with set := if has 3 then replay c.flash.repair else [] } }
  let c := c.setStatus.detail 1 c.bup.set.length
  let j := c.restoreJournal
  let c := j.1.detail 2 j.2
  let c := if has 2 then
      let c := { c with dict := c.dict.filter (fun p => !(decide (0x1F8000 ≤ p.1) && decide (p.1 < 0x1F8100))) }
      (c.overlay c.flash.tags).setEntry 0x1F81 2 c.flash.tagsSeq
    else c
  (c, if kinds.all has then 1 else 2)

/-! ## Stage 5 (R606) -/

/-- Whether a spare of a subarray is in use, or named by a record of the set. -/
def Chip.spareTaken (c : Chip) (bank sub spare : Nat) : Bool :=
  c.msl.repairs.any (fun r => r.bank == bank && r.sub == sub && r.spare == spare)

/-- A repair record's column (R120). -/
def colOfRecord (d : Nat) : ColRepair := ⟨bits d 0 6, bits d 6 6, bits d 12 10, bits d 22 3, bits d 25 2, false⟩

/-- A repair in force, with its slot of the soft-repair log. -/
def Chip.repairNow (c : Chip) (r : ColRepair) : Chip := ({ c with msl := { c.msl with repairs := c.msl.repairs ++ [r] } }).logRepair r

/-- A failing column found by stage 5: the spare that a restored record names, else the lowest that nothing claims; else it is
degraded. Counts repaired columns and new repairs. [DEDUCED: log 150] -/
def Chip.stage5Column (s : Chip × Nat × Nat) (p : Nat × Nat × Nat) : Chip × Nat × Nat :=
  let c := s.1
  let recs := (c.recorded repMuslin).map colOfRecord
  let same := fun (r : ColRepair) => r.bank == p.1 && r.sub == p.2.1
  let fixed := c.msl.repairs.any (fun r => same r && r.col == p.2.2)
  if fixed || c.on R.MSL_BT_STATUS_LOG_FULL then (c.columnDegraded p.1 p.2.1 p.2.2, s.2.1, s.2.2)
  else
    match recs.find? (fun r => same r && r.col == p.2.2 && !c.spareTaken p.1 p.2.1 r.spare) with
    | some r => (c.repairNow r, s.2.1 + 1, s.2.2)
    | none =>
      match (List.range 8).find? (fun k => !c.spareTaken p.1 p.2.1 k && !recs.any (fun r => same r && r.spare == k)) with
      | some k =>
        let r : ColRepair := ⟨p.1, p.2.1, p.2.2, k, 1, false⟩
        ((c.repairNow r).addFinding repMuslin (r.record c.seconds), s.2.1 + 1, s.2.2 + 1)
      | none => (c.columnDegraded p.1 p.2.1 p.2.2, s.2.1, s.2.2)

/-- Entries of the degraded list. -/
def Chip.degradedCount (c : Chip) : Nat := ((List.range 64).filter (fun n => c.on R.MSL_DEGRADED_VALID n)).length

/-- Every line of every group zero, with valid check bits. [DEDUCED: log 143] -/
def Chip.zeroMuslin (c : Chip) : Chip :=
  let c := { c with muslin := [], msl := { c.msl with poisoned := [], writebacks := [] } }
  (List.range 8).foldl (fun (c : Chip) g => c.setPhase g .active) c

/-- Stage 5: failing columns, regions with any other failure, regions that failed the retention margin; `nack` names regulators
that did not acknowledge a margin command (R629). [DEDUCED: log 150] -/
def Chip.stage5 (c : Chip) (quick : Bool) (nack : Nat) (failing : List (Nat × Nat × Nat)) (multi margin : List Nat) : Chip × Nat :=
  let c := c.ranCold 5 (!quick)
  if !quick ∧ nack ≠ 0 then ((c.detail 3 nack).zeroMuslin, 3)
  else
    let before := c.degradedCount
    let r := failing.foldl Chip.stage5Column (c, 0, 0)
    let c := multi.foldl (fun (c : Chip) g => (c.degrade 1 g).latch R.MSL_BT_STATUS_MULTI_FAIL) r.1
    let added := c.degradedCount - before
    let c := ((c.detail 0 r.2.1).detail 1 added).detail 2 (if quick then 0 else margin.length)
    (c.zeroMuslin, if c.on R.MSL_BT_STATUS_LIST_FULL then 3 else if added != 0 || r.2.2 != 0 then 2 else 1)

/-! ## Stages 6 and 7 (R607, R608) -/

/-- What TRAINING is keyed by: DRC_CFG, and the pair out of service. -/
def Chip.trainingKey (c : Chip) : Nat :=
  (c.regs.get R.DRC_CFG.addr).toNat + ((match c.recordedPair with | some k => k + 1 | none => 0) <<< 32)

/-- Stage 6: `fail` are the channels whose training failed. A channel whose island stage 3 left stopped fails with its pair.
[DEDUCED: log 59] -/
def Chip.stage6 (c : Chip) (quick : Bool) (fail : Nat) : Chip × Nat :=
  let c := c.setChannels
  let stopped := (c.bup.islandsFailed.filter (fun i => decide (67 ≤ i) && decide (i ≤ 82))).foldl
    (fun (a : Nat) i => a ||| (3 <<< (2 * ((i - 67) / 2)))) 0
  let restore := quick && c.flash.ok && c.flash.parts.contains 4 && c.flash.training == some c.trainingKey
  let c := (c.ranCold 6 (!restore)).endTraining (fail ||| stopped)
  let c := if !restore && c.flash.ok && c.flash.parts.contains 4 then
      { c with flash := { c.flash with training := some c.trainingKey } } else c
  let bad := c.rd R.DRC_TRAIN_FAIL
  ((c.detail 0 bad).detail 1 (b2n restore), if bad = 0 then 1 else 3)

/-- DRAM reads zero, with valid check bits. -/
def Chip.zeroDram (c : Chip) : Chip :=
  { c with drc := { c.drc with cells := [], epoch := 0, poisoned := [], writebacks := [], ceCounts := [], scrubPos := 0 } }

/-- Stage 7: `failing` are the bursts that failed, of the usable capacity and the spare pages. [DEDUCED: log 150] -/
def Chip.stage7 (c : Chip) (quick : Bool) (failing : List Nat) : Chip × Nat :=
  let c := (c.ranCold 7 (!quick)).clearRetired
  let usable := c.usableDram / 4096
  let bursts := (failing.foldl insertNat []).filter (fun b => decide (b / 64 < usable + c.sparePages))
  let pages := bursts.foldl (fun (l : List Nat) b => insertNat l (b / 64)) []
  let spare := pages.filter (fun p => decide (usable ≤ p))
  let c := { c with bup := { c.bup with pages := pages.take 256 } }
  ((((c.detail 0 (pages.length - spare.length)).detail 1 spare.length).detail 2 bursts.length).zeroDram, 1)

/-! ## Stage 8 (R609, R618) -/

/-- One record of the set other than DRAM_PAGE applied; none when it cannot be. -/
def Chip.applyRecord (c : Chip) (kind d : Nat) : Option Chip :=
  match kind with
  | 1 =>
    let r := colOfRecord d
    if c.msl.repairs.any (fun q => q.bank == r.bank && q.sub == r.sub && q.col == r.col) then some c
    else if c.spareTaken r.bank r.sub r.spare || c.on R.MSL_BT_STATUS_LOG_FULL then none
    else some (if r.kind = 2 then c.repairNow r else { c with msl := { c.msl with repairs := c.msl.repairs ++ [r] } })
  | 2 =>
    let g := bits d 0 3
    if c.on R.DMK_SPARE_MAP_IN_USE g || c.on R.DMK_SPARE_MAP_SPARE_BAD g then none else some (c.steerDamask g (bits d 3 5) 1)
  | 3 =>
    let k := bits d 0 5
    let st := c.rd R.TWL_CLUSTER_STATE k
    let want := bits d 5 3
    if want = clFailed then some (c.clusterOut k false)
    else if st = clFailed then none
    else if want = clSpare then some (c.setCluster k clSpare)
    else if st = clSpare ∧ !c.bup.activate.any (fun p => p.1 == k) then
      some { c with bup := { c.bup with activate := c.bup.activate ++ [(k, false)] } }
    else some c
  | 4 =>
    let dp := bits d 0 4
    if c.on R.JRS_SPARE_IN_USE dp || c.on R.JRS_SPARE_SPARE_BAD dp then none else some (c.steerJersey dp (bits d 4 8))
  | 6 => if c.on R.DRC_STATUS_PAIR_OUT && c.rd R.DRC_STATUS_PAIR == bits d 0 3 then some c else none
  | 7 => some (c.canvasOut (bits d 0 1) false)
  | _ => some c

/-- The records of a kind, in log order: the chip, how many were applied, how many were not. [DEDUCED: log 151] -/
def Chip.applyKind (s : Chip × Nat × Nat) (kind : Nat) : Chip × Nat × Nat :=
  if kind = repPage then
    let r := s.1.pagesAgain
    (r.1, s.2.1 + r.2.1, s.2.2 + r.2.2)
  else
    (s.1.recorded kind).foldl (fun (s : Chip × Nat × Nat) d =>
      match s.1.applyRecord kind d with
      | some c => (c, s.2.1 + 1, s.2.2)
      | none => (s.1, s.2.1, s.2.2 + 1)) s

/-- A failing page of stage 7: retired onto the lowest free spare, with its finding. Counts retirements and pages left. -/
def Chip.retireFailing (s : Chip × Nat × Nat) (page : Nat) : Chip × Nat × Nat :=
  let c := s.1
  if c.pageRetired page then s
  else
    match c.freeSparePage with
    | some n => (((c.startRetire page n).endRetire []).addFinding repPage page, s.2.1 + 1, s.2.2)
    | none => (c, s.2.1, s.2.2 + 1)

/-- Stage 8. [DEDUCED: log 151] -/
def Chip.stage8 (c : Chip) : Chip × Nat :=
  let r := [repTwill, repCanvas, repDamask, repJersey, repMuslin, repPage, repPair].foldl Chip.applyKind (c, 0, 0)
  let c := r.1
  let usable := c.usableDram / 4096
  let c := (c.bup.pages.filter (fun p => decide (usable ≤ p))).foldl (fun (c : Chip) p =>
    if c.drc.spareTaken.contains (p - usable) then c
    else ({ c with drc := { c.drc with spareTaken := insertNat c.drc.spareTaken (p - usable) } }).addFinding repPage p) c
  let n := (c.bup.pages.filter (fun p => decide (p < usable))).foldl Chip.retireFailing (c, 0, 0)
  let c := ((n.1.detail 0 r.2.1).detail 1 n.2.1).detail 2 r.2.2
  (c, if n.2.2 != 0 then 3 else if n.2.1 != 0 || r.2.2 != 0 then 2 else 1)

/-! ## Stage 9 (R610, R611) -/

/-- The tests that stage 9 runs: those of clusters that are not FAILED, and every other. [DEDUCED: log 152] -/
def Chip.katTests (c : Chip) : List Nat :=
  (List.range 27).filter (fun t => !(decide (2 ≤ t) && decide (t ≤ 19)) || c.rd R.TWL_CLUSTER_STATE (t - 2) != clFailed)

/-- Failing Damask base columns take their groups' spares. Answers whether some had none. [DEDUCED: log 152] -/
def Chip.katColumns (c : Chip) (columns : List Nat) : Chip × Bool :=
  columns.foldl (fun (s : Chip × Bool) col =>
    let g := col / 32 % 8
    if s.1.on R.DMK_SPARE_MAP_IN_USE g || s.1.on R.DMK_SPARE_MAP_SPARE_BAD g then (s.1, true)
    else ((s.1.steerDamask g (col % 32) 1).addFinding repDamask (g + ((col % 32) <<< 3)), s.2)) (c, false)

/-- Failing slots of one Jersey datapath, 0 to 15 for its lanes and 16 for its spare. Answers whether the datapath fails.
[DEDUCED: log 152] -/
def Chip.katDatapath (c : Chip) (d : Nat) (slots : List Nat) : Chip × Bool :=
  let used := c.on R.JRS_SPARE_IN_USE d
  let live := slots.filter (fun k => !(used && c.rd R.JRS_SPARE_REPLACED d == d + 16 * k))
  match live with
  | [] => (c, false)
  | [k] =>
    if k = 16 then
      let c := c.wr R.JRS_SPARE_SPARE_BAD 1 d
      (if used then c else c.wr R.JRS_STATUS_SPARES_FREE (c.rd R.JRS_STATUS_SPARES_FREE - 1), used)
    else if used || c.on R.JRS_SPARE_SPARE_BAD d then (c, true)
    else ((c.steerJersey d (d + 16 * k)).addFinding repJersey (d + ((d + 16 * k) <<< 4)), false)
  | _ => (c, true)

/-- A SPARE cluster becomes ACTIVE, with its finding where it is one. -/
def Chip.activateCluster (c : Chip) (k : Nat) (finding : Bool) : Chip :=
  let c := c.setCluster k clActive
  if finding && !(c.recorded repTwill).contains k then c.addFinding repTwill k else c

/-- A cluster that failed its run: FAILED, and where it was ACTIVE or was to be, the next SPARE that passes takes over. -/
def Chip.katCluster (failed : Nat → Bool) (c : Chip) (k : Nat) : Chip :=
  let serving := c.rd R.TWL_CLUSTER_STATE k == clActive || c.bup.activate.any (fun p => p.1 == k)
  let c := c.katOut (k + 2)
  if serving then
    match (List.range 18).find? (fun j => c.rd R.TWL_CLUSTER_STATE j == clSpare && !failed (j + 2)) with
    | some j => c.activateCluster j true
    | none => c
  else c

/-- Stage 9: `fail` has the bits of R610 whose tests failed, Damask's for anything but columns, `columns` the failing base columns,
`slots` the failing Jersey slots as datapath * 17 + slot, `nack` the regulators that did not acknowledge (R629).
[DEDUCED: log 152] -/
def Chip.stage9 (c : Chip) (quick : Bool) (nack fail : Nat) (columns slots : List Nat) : Chip × Nat :=
  let c := (c.ranCold 9 (!quick)).detail 0 (if quick then 1 else 10)
  if !quick ∧ nack ≠ 0 then (c.detail 3 nack, 3)
  else
    let tests := c.katTests
    let failed := fun (t : Nat) => tests.contains t && fail.testBit t
    let m := c.katColumns ((columns.foldl insertNat []).filter (fun k => decide (k < 256)))
    let j := (List.range 16).foldl (fun (s : Chip × Bool) d =>
      let r := s.1.katDatapath d (((slots.foldl insertNat []).filter (fun k => k / 17 == d)).map (· % 17))
      (r.1, s.2 || r.2)) (m.1, false)
    let out := fun (t : Nat) => failed t || (t == 0 && m.2) || (t == 25 && j.2)
    let c := j.1.katBits (List.range 27) (fun _ => false)
    let c := ((c.wr R.BUP_KAT_PASS_UNITS 0).katBits tests out).katMarks tests failed
    let c := (c.bup.activate.filter (fun p => !failed (p.1 + 2))).foldl (fun (c : Chip) p =>
      if c.rd R.TWL_CLUSTER_STATE p.1 == clSpare then c.activateCluster p.1 p.2 else c) c
    let c := ((List.range 18).filter (fun k => failed (k + 2))).foldl (fun (c : Chip) k => c.katCluster failed k) c
    let c : Chip := [23, 24].foldl (fun (c : Chip) t => if failed t then c.katOut t else c) c
    let c : Chip := { c with bup := { c.bup with activate := [] } }
    let bad := out 0 || out 25 || decide (c.rd R.TWL_STATUS_ACTIVE < 3)
    (c.gngFollow, if bad then 3 else if tests.any failed || !columns.isEmpty || !slots.isEmpty then 2 else 1)

/-! ## Stages 10 and 11 (R517, R612, R613) -/

/-- Whether a Dictionary load sets the entry of a key: those that DICT_IMAGE may hold, which carry SAVED (R492, R518). The user
tags come from their own partition (R496), and what the Keeper reads from fuses and flash stays. [DEDUCED: log 153] -/
def loadsEntry (key : Nat) : Bool :=
  match findEntry (key / 256) (key % 256) with
  | some e => e.saved
  | none => false

/-- Stage 10: after a wake the committed values stay; otherwise defaults, then the values of DICT_IMAGE that are in range. It fails
while a word of the store is uncorrectable. [DEDUCED: log 153] -/
def Chip.stage10 (c : Chip) : Chip × Nat :=
  let old := { c with dict := c.dict.filter (fun p => !loadsEntry p.1) }
  let image := if c.flash.ok && c.flash.parts.contains 5 then c.flash.image.getD [] else []
  if c.on R.BUP_STATUS_WAKE_RESTART then
    if c.odx.badStore.isEmpty then (old.entriesCommitted c c.now (c.dict.map (·.1)), 1) else (c, 3)
  else
    let good := image.filter (fun p =>
      loadsEntry p.1 && (match findEntry (p.1 / 256) (p.1 % 256) with | some e => e.inRange p.2 | none => false))
    let skipped := min (image.length - good.length) 4095
    let new := { (old.overlay good) with odx := { c.odx with badStore := [] } }
    let count := min good.length 65535
    let seq := c.odx.nextSeq
    let new := new.journal { kind := 4, port := 2, count := count, extra := c.now }
    let new := new.journal { kind := 5, port := 2, count := count, extra := seq }
    let new := c.entriesCommitted new c.now ((c.dict.map (·.1)).filter loadsEntry ++ good.map (·.1))
    let new := (new.wr R.KPR_STATUS_IMAGE_SKIPPED skipped).detail 0 good.length
    (new.detail 1 skipped, if skipped = 0 then 1 else 2)

/-- Whether an area is a valid, aligned Muslin address that nothing protects (R613). -/
def Chip.areaOk (c : Chip) (a : Nat × Nat) : Bool :=
  devRegion a.1 == 0 && decide (a.1 < 2 ^ 40) && a.1 % a.2 == 0 && decide (a.1 + a.2 ≤ muslinSize) && !c.protectedIn a.1 a.2

/-- Stage 11. -/
def Chip.stage11 (c : Chip) : Chip × Nat :=
  let areas := [c.ctxArea, c.spillArea, c.saveArea]
  let meets := fun (a b : Nat × Nat) => decide (a.1 < b.1 + b.2) && decide (b.1 < a.1 + a.2)
  let bad := fun (k : Nat) =>
    let a := nth areas k (0, 0)
    !c.areaOk a || (List.range 3).any (fun j => j != k && meets a (nth areas j (0, 0)))
  let bits := (List.range 3).foldl (fun (v : Nat) k => if bad k then v ||| 2 ^ k else v) 0
  let c := c.detail 0 bits
  if bits != 0 then (c, 3)
  else
    let c := areas.foldl (fun (c : Chip) a =>
      let gone := fun (w : Nat) => decide (a.1 ≤ 8 * w) && decide (8 * w < a.1 + a.2)
      { c with muslin := c.muslin.clear a.1 a.2,
               msl := { c.msl with poisoned := c.msl.poisoned.filter (fun w => !gone w),
                                   writebacks := c.msl.writebacks.filter (fun w => !gone w) } }) c
    ((c.wr R.QMG_CTRL_ENABLE 1).wr R.DSP_CTRL_ENABLE 1, 1)

/-! ## The commands -/

/-- The stage that a command starts, and what the stage does when it ends, with its RESULT. -/
def Chip.stageRuns (c : Chip) (i : Instr) : Option (Nat × (Chip × Nat)) :=
  match i with
  | .powerSequenceCheck bad khz => some (1, c.stage1 bad.toNat khz)
  | .fuseLoad f => some (2, c.stage2 f)
  | .clockIslandStart failed => some (3, c.stage3 failed)
  | .keeperRestore => some (4, c.stage4)
  | .muslinTest q nack failing multi margin => some (5, c.stage5 q nack.toNat failing multi margin)
  | .dramTraining q fail => some (6, c.stage6 q fail.toNat)
  | .dramTest q failing => some (7, c.stage7 q failing)
  | .repairApply => some (8, c.stage8)
  | .knownAnswerRuns q nack fail columns slots => some (9, c.stage9 q nack.toNat fail.toNat columns slots)
  | .dictionaryLoad => some (10, c.stage10)
  | .queueSetup => some (11, c.stage11)
  | .bupReady => some (12, (c.wr R.BUP_STATUS_READY 1, 1))
  | _ => none

/-- POWER_SEQUENCE_CHECK (R602): stage 1. -/
def execPowerSequenceCheck (badRails : BitVec 10) (refclkKHz : Nat) (s : State) : Host.Outcome State Fault Refusal :=
  s.runHost [.regs, .bup] (fun c => c.stageStart 1 (.powerSequenceCheck badRails refclkKHz))

/-- FUSE_LOAD (R603): stage 2. -/
def execFuseLoad (fuses : FuseReport) (s : State) : Host.Outcome State Fault Refusal := s.runHost [.regs, .bup]
  (fun c => c.stageStart 2 (.fuseLoad fuses))

/-- CLOCK_ISLAND_START (R604): stage 3. -/
def execClockIslandStart (failed : List Nat) (s : State) : Host.Outcome State Fault Refusal :=
  s.runHost [.regs, .bup] (fun c => c.stageStart 3 (.clockIslandStart failed))

/-- KEEPER_RESTORE (R605): stage 4. -/
def execKeeperRestore (s : State) : Host.Outcome State Fault Refusal := s.runHost [.regs, .bup]
  (fun c => c.stageStart 4 .keeperRestore)

/-- MUSLIN_TEST (R606): stage 5. -/
def execMuslinTest (quick : Bool) (nack : BitVec 2) (failing : List (Nat × Nat × Nat)) (multi margin : List Nat) (s : State) :
    Host.Outcome State Fault Refusal :=
  s.runHost [.regs, .bup] (fun c => c.stageStart 5 (.muslinTest quick nack failing multi margin))

/-- DRAM_TRAINING (R607): stage 6. -/
def execDramTraining (quick : Bool) (fail : BitVec 16) (s : State) : Host.Outcome State Fault Refusal :=
  s.runHost [.regs, .bup] (fun c => c.stageStart 6 (.dramTraining quick fail))

/-- DRAM_TEST (R608): stage 7. -/
def execDramTest (quick : Bool) (failing : List Nat) (s : State) : Host.Outcome State Fault Refusal :=
  s.runHost [.regs, .bup] (fun c => c.stageStart 7 (.dramTest quick failing))

/-- REPAIR_APPLY (R609): stage 8. -/
def execRepairApply (s : State) : Host.Outcome State Fault Refusal := s.runHost [.regs, .bup]
  (fun c => c.stageStart 8 .repairApply)

/-- KNOWN_ANSWER_RUNS (R610): stage 9. -/
def execKnownAnswerRuns (quick : Bool) (nack : BitVec 2) (fail : BitVec 27) (columns slots : List Nat) (s : State) :
    Host.Outcome State Fault Refusal :=
  s.runHost [.regs, .bup] (fun c => c.stageStart 9 (.knownAnswerRuns quick nack fail columns slots))

/-- DICTIONARY_LOAD (R612): stage 10. -/
def execDictionaryLoad (s : State) : Host.Outcome State Fault Refusal := s.runHost [.regs, .bup]
  (fun c => c.stageStart 10 .dictionaryLoad)

/-- QUEUE_SETUP (R613): stage 11. -/
def execQueueSetup (s : State) : Host.Outcome State Fault Refusal := s.runHost [.regs, .bup]
  (fun c => c.stageStart 11 .queueSetup)

/-- READY (R614): stage 12. -/
def execBupReady (s : State) : Host.Outcome State Fault Refusal := s.runHost [.regs, .bup] (fun c => c.stageStart 12 .bupReady)

/-- STAGE_END (R598): the running stage ends, `ms` after its start. [DEDUCED: log 142] -/
def execStageEnd (ms : Nat) (s : State) : Host.Outcome State Fault Refusal :=
  s.run [.regs, .dict, .muslin, .tku, .qmg, .msl, .drc, .gze, .twd, .cnv, .jrs, .fld, .odx, .flash, .pwr, .gng, .bup, .isolated, .sent]
    (fun c =>
    match c.bup.stage with
    | none => c
    | some i =>
      let c := (c.advanceTo (c.bup.stageAt + 1000000 * ms)).wr R.BUP_ELAPSED_MS_MS ms
      match c.stageRuns i with
      | some (n, r) => r.1.stageEnds n r.2
      | none => c)

/-- STAGE_ABORT (R599): a write of ABORT; the running stage stops with RESULT 6. A memory test that stops has destroyed what it
tested: Muslin reads zero, and DRAM holds free values. [DEDUCED: log 143, 144] -/
def execStageAbort (s : State) : Host.Outcome State Fault Refusal :=
  s.runHost [.regs, .muslin, .msl, .drc, .bup, .sent, .fresh] (fun c =>
    match c.bup.stage with
    | none => c
    | some i =>
      let c := match i with
        | .muslinTest .. => c.zeroMuslin
        | .dramTest .. => c.loseDram
        | _ => c
      c.stageEnds 0 6)

end Sys2Proof.Machine
end

