-- ==== Sys2Proof/Machine/Planner.lean ====
section
/-!
DEFINITION. PLAN and REPAIR (R400 to R415). An operation works in units; a tile runs units until its modelled cycles reach
the tile size (R413, R414).
-/
namespace Sys2Proof.Machine

/-! ## Parameters (R404) -/

/-- The parameter area. -/
structure PlanPar where
  req : Nat
  out : Nat
  scratch : Nat
  size : Nat
  robot : Nat
  count : Nat
  budget : Nat
  reserve : Nat
  tile : Nat
  pathMax : Nat
  deriving DecidableEq, Repr

/-- The fields of a descriptor. -/
def planPar (d : Nat) : PlanPar :=
  ⟨64 * bits d 256 22, 64 * bits d 278 22, 64 * bits d 300 22, 65536 * bits d 322 16, 64 * bits d 338 22, bits d 360 9,
   bits d 384 32, bits d 416 16, bits d 432 6, bits d 448 16⟩

/-- Modelled cycles of a tile, and the states the work area holds (R407). -/
def PlanPar.tileCycles (p : PlanPar) : Nat := 1000 * (if p.tile = 0 then 36 else p.tile)
def PlanPar.capacity (p : PlanPar) : Nat := (p.size - 1114112) / 32

/-- FP32 field `k` of a request record: start 0 to 2, goal 3 to 5, GOAL_XY 6, WEIGHT 7, COST_W 8. -/
def reqF (r k : Nat) : Num := f32val (bits r (32 * k) 32)

/-- The other fields of a request. -/
def reqLimit (r : Nat) : Nat := bits r 288 32
def reqGoalH (r : Nat) : Nat := bits r 320 8
def reqCands (r : Nat) : Nat := bits r 328 8
def reqCells (r : Nat) : Nat := bits r 336 16
def reqIn (r : Nat) : Nat := 64 * bits r 352 32

/-- Whether a descriptor is a REPAIR. -/
def isRepair (d : Nat) : Bool := Desc.opcode d == 2

/-! ## Paths (R411) -/

/-- A path record as bytes, and from bytes. -/
def PathRec.bytes (p : PathRec) : List Byte :=
  leBytes 16 (bits p.x 0 16 + (bits p.y 0 16 <<< 16) + (bits p.h 0 5 <<< 32) + (bits p.prim 0 16 <<< 48) +
    (f32bits p.g <<< 64) + (bits p.gen 0 16 <<< 96))
def pathRecOf (r : Nat) : PathRec := ⟨bits r 0 16, bits r 16 16, bits r 32 5, bits r 48 16, f32val (bits r 64 32), bits r 96 16⟩

/-- The path at an offset: its header and its records. -/
def Chip.pathAt (c : Chip) (off : Nat) : Nat × List PathRec :=
  let h := c.peekNat off 64
  (h, (List.range (bits h 96 16)).map (fun i => pathRecOf (c.peekNat (off + 64 + 16 * i) 16)))

/-- Whether record `b` is the end state of its primitive applied to record `a`. -/
def Chip.follows (c : Chip) (a b : PathRec) : Bool :=
  let p := c.prim b.prim
  decide (b.prim < c.primCount) && p.startH == a.h && p.endH == b.h && decide ((b.x : Int) = a.x + p.dx) &&
  decide ((b.y : Int) = a.y + p.dy)

/-- Whether each record follows the one before. -/
def Chip.pathLinked (c : Chip) : List PathRec → Bool
  | a :: b :: r => c.follows a b && Chip.pathLinked c (b :: r)
  | _ => true

/-- The rules of R411 for REPAIR's input. -/
def Chip.inputOk (c : Chip) (off : Nat) : Bool :=
  let p := c.pathAt off
  bits p.1 128 32 == c.tul.crc && decide (2 ≤ bits p.1 96 16) && bits p.1 96 16 == bits p.1 112 16 && !p.1.testBit 18 &&
  c.pathLinked p.2

/-! ## Checks (R405) -/

/-- Ranges of the operation, as (offset, bytes). -/
def Chip.planRanges (c : Chip) (d req : Nat) : List (Nat × Nat) :=
  let p := planPar d
  [(p.req, 128), (p.out, 64 + 16 * p.pathMax), (p.scratch, p.size), (p.robot, 16 * p.count)] ++
  (if isRepair d then [(reqIn req, 64 + 16 * bits (c.peekNat (reqIn req) 64) 96 16)] else [])

/-- Whether the request and the robot model are in range. -/
def Chip.requestOk (c : Chip) (d req : Nat) : Bool :=
  let p := planPar d
  let fin := fun k => (reqF req k).isFinite
  let robot := (List.range p.count).map (fun i => ballOf (c.peekNat (p.robot + 16 * i) 16))
  (isRepair d || (List.range 6).all fin) && fin 6 && fin 7 && fin 8 && Num.le .zero (reqF req 6) && Num.le (.ofNat 1) (reqF req 7) &&
  Num.le .zero (reqF req 8) &&
  (if isRepair d then decide (1 ≤ reqCells req) && decide (reqCells req ≤ 512)
   else decide (1 ≤ reqCands req) && decide (reqCands req ≤ 8)) &&
  robot.all (fun b => b.x.isFinite && b.y.isFinite && b.z.isFinite && b.r.isFinite && Num.lt .zero b.r)

/-- The checks, in their order. -/
def Chip.planCheck (c : Chip) (d : Nat) : Nat :=
  let p := planPar d
  let req := c.peekNat p.req 128
  let ranges := c.planRanges d req
  if !(Desc.fmtA d == 0 && Desc.fmtB d == 0 && Desc.fmtC d == 0 && Desc.fmtOut d == 0) then St.FMT_UNSUPPORTED
  else if !(c.on R.TUL_STATUS_READY && Desc.tileCount d == 1 && decide (1 ≤ p.count) && decide (p.count ≤ 256) &&
      decide (49 * 65536 ≤ p.size) && decide (p.tile ≤ 48) && decide (2 ≤ p.pathMax) &&
      (p.budget == 0 || decide (p.reserve < p.budget)) && ranges.all (fun r => decide (r.1 + r.2 ≤ muslinSize)) &&
      disjointAll ranges && ranges.all (fun r => c.tulAreas.all (fun a => !rangesMeet r a)) && c.requestOk d req) then
    St.TUL_BAD_PARAM
  else if c.on R.TUL_STATUS_TABLE_BAD then St.TUL_BAD_TABLE
  else if isRepair d && !c.inputOk (reqIn req) then St.TUL_BAD_PARAM
  else St.OK

/-! ## What a tile knows -/

/-- The constants of a tile: descriptor, request, world, objects, robot. -/
structure PlanEnv where
  d : Nat
  req : Nat
  w : World
  os : List Obj
  robot : List Ball
  deriving DecidableEq, Repr

/-- The environment of an operation's tile. -/
def Chip.planEnv (c : Chip) (d : Nat) (f : PlanRun) : PlanEnv := ⟨d, f.req, c.world, c.objects c.world, f.robot.map ballOf⟩

/-- The generation in force. -/
def Chip.tulGen (c : Chip) : Nat := c.rd R.TUL_GEN_GEN

/-- State index, and its cell and heading. -/
def World.stateIx (w : World) (x y h : Nat) : Nat := (h * w.gh + y) * w.gw + x
def World.stateOf (w : World) (s : Nat) : Nat × Nat × Nat := (s % w.gw, s / w.gw % w.gh, s / (w.gw * w.gh))

/-- A heading from an angle (R406): rounded to nearest, ties to even. [DEDUCED: log 90] -/
def headingOf (yaw : Num) (heads : Nat) : Nat :=
  ((fxNum (fxDiv (fxOf yaw * (heads : Int)) (2 * fxPi))).roundInt % (heads : Int)).toNat

/-- Whether a cell is in REPAIR's window; a PLAN has none. -/
def PlanRun.inWindow (f : PlanRun) (req x y : Nat) : Bool :=
  f.window.isEmpty || f.window.any (fun p => decide (x ≤ p.1 + reqCells req) && decide (p.1 ≤ x + reqCells req) &&
    decide (y ≤ p.2 + reqCells req) && decide (p.2 ≤ y + reqCells req))

/-- The distance of a state's cell, where the wavefront reached it. -/
def PlanRun.dist (f : PlanRun) (w : World) (s : Nat) : Option Num := Table.get? f.settled (s % (w.gw * w.gh))

/-- The goal cell of the wavefront. -/
def PlanEnv.goalCell (e : PlanEnv) (f : PlanRun) : Int × Int :=
  if isRepair e.d then
    match f.bad.getLast? with
    | some z => let r := nth f.input (z + 1) ⟨0, 0, 0, 0, .zero, 0⟩; ((r.x : Int), (r.y : Int))
    | none => (0, 0)
  else e.w.cellOf (reqF e.req 3) (reqF e.req 4)

/-- Whether a state is a goal (R406, R412). -/
def PlanEnv.isGoal (e : PlanEnv) (heads : Nat) (f : PlanRun) (s : Nat) : Bool :=
  let p := e.w.stateOf s
  if isRepair e.d then
    match f.bad.getLast? with
    | some z => let r := nth f.input (z + 1) ⟨0, 0, 0, 0, .zero, 0⟩; p == (r.x, r.y, r.h)
    | none => false
  else
    let m := e.w.centre p.1 p.2.1
    let dx := f32sub m.1 (reqF e.req 3)
    let dy := f32sub m.2 (reqF e.req 4)
    let g := headingOf (reqF e.req 5) heads
    let t := (p.2.2 + heads - g) % heads
    Num.le (f32sqrt (f32add (f32mul dx dx) (f32mul dy dy))) (reqF e.req 6) && decide (min t (heads - t) ≤ reqGoalH e.req)

/-! ## The wavefront (R403) -/

/-- Whether a cell is passable for the wavefront. -/
def Chip.passable (c : Chip) (e : PlanEnv) (f : PlanRun) (p : Int × Int) : Bool :=
  e.w.inGrid p && f.inWindow e.req p.1.toNat p.2.toNat && decide (c.columnCost e.w p.1.toNat p.2.toNat < e.w.lethal)

/-- The wavefront's start: its frontier, and the cycles of reading. -/
def Chip.waveStart (c : Chip) (e : PlanEnv) (f : PlanRun) : PlanRun :=
  let g := e.goalCell f
  let cells := if f.window.isEmpty then e.w.gw * e.w.gh
    else ((List.range (e.w.gw * e.w.gh)).filter (fun k => f.inWindow e.req (k % e.w.gw) (k / e.w.gw))).length
  let front : Table Num := if c.passable e f g then [(g.2.toNat * e.w.gw + g.1.toNat, Num.zero)] else []
  { f with phase := 0, debt := ceilDiv (cells * e.w.waveLayers) 64, settled := [], front := front }

/-- One cell settled: the frontier cell of least distance, then lowest number. [DESIGN CHOICE: log 94] -/
def Chip.waveSettle (c : Chip) (e : PlanEnv) (f : PlanRun) : PlanRun :=
  match bestBy (fun (a b : Nat × Num) => Num.lt a.2 b.2 || (Num.eqv a.2 b.2 && decide (a.1 < b.1))) f.front with
  | none => f
  | some (k, d) =>
    let x : Int := Int.ofNat (k % e.w.gw)
    let y : Int := Int.ofNat (k / e.w.gw)
    let f := { f with settled := Table.put f.settled k d, front := Table.del f.front k }
    let diag := f32mul e.w.cxy (r32 (Num.div (.ofNat 14142135) (.ofNat 10000000)))
    let steps : List (Int × Int) := [(-1, -1), (0, -1), (1, -1), (-1, 0), (1, 0), (-1, 1), (0, 1), (1, 1)]
    steps.foldl (fun (f : PlanRun) (t : Int × Int) =>
      let p : Int × Int := (x + t.1, y + t.2)
      let slanted := t.1 != 0 && t.2 != 0
      let open_ := c.passable e f p && (!slanted || (c.passable e f (x + t.1, y) && c.passable e f (x, y + t.2)))
      if !open_ then f
      else
        let n := p.2.toNat * e.w.gw + p.1.toNat
        let v := f32add d (if slanted then diag else e.w.cxy)
        if (Table.get? f.settled n).isSome then f
        else
          match Table.get? f.front n with
          | some o => if Num.lt v o then { f with front := Table.put f.front n v } else f
          | none => { f with front := Table.put f.front n v }) f

/-! ## The search (R400, R407, R408) -/

/-- The state a search starts from, with its g. -/
def Chip.searchStart (c : Chip) (e : PlanEnv) (f : PlanRun) : Nat × Num :=
  if isRepair e.d then
    let r := nth f.input (f.bad.headD 0) ⟨0, 0, 0, 0, .zero, 0⟩
    (e.w.stateIx r.x r.y r.h, r.g)
  else
    let p := e.w.cellOf (reqF e.req 0) (reqF e.req 1)
    (e.w.stateIx p.1.toNat p.2.toNat (headingOf (reqF e.req 2) c.headings), Num.zero)

/-- The chain of parents from a state back to the search's start. -/
def chainBack (closed : List TulNode) : Nat → Nat → List TulNode
  | 0, _ => []
  | fuel + 1, s =>
    match closed.find? (fun n => n.s == s) with
    | some n => if n.prim = 0xFFFF then [n] else n :: chainBack closed fuel n.parent
    | none => []

/-- The path to a closed state. -/
def PlanEnv.pathTo (e : PlanEnv) (f : PlanRun) (s : Nat) : List PathRec :=
  ((chainBack f.closed (f.closed.length + 1) s).map (fun n =>
    let p := e.w.stateOf n.s
    (⟨p.1, p.2.1, p.2.2, n.prim, n.g, n.gen⟩ : PathRec))).reverse

/-- The g of a closed state. -/
def PlanRun.gOf (f : PlanRun) (s : Nat) : Num := match f.closed.find? (fun n => n.s == s) with | some n => n.g | none => .zero

/-- Candidates in increasing cost, in the order found among equals. -/
def PlanRun.ranked (f : PlanRun) : List Nat :=
  f.cands.foldl (fun l s => insertLast f s l) []
where
  insertLast (f : PlanRun) (s : Nat) : List Nat → List Nat
    | [] => [s]
    | a :: r => if Num.lt (f.gOf s) (f.gOf a) then s :: a :: r else a :: insertLast f s r

/-- The best-so-far path's last state: closed, of least h, then lower g, then lower s (R409). -/
def PlanRun.bestClosed (f : PlanRun) : Option TulNode :=
  bestBy (fun (a b : TulNode) => Num.lt a.h b.h || (Num.eqv a.h b.h && (Num.lt a.g b.g || (Num.eqv a.g b.g && decide (a.s < b.s)))))
    f.closed

/-- REPAIR's spliced path (R412). -/
def PlanEnv.splice (e : PlanEnv) (f : PlanRun) (s : Nat) : List PathRec :=
  let a := f.bad.headD 0
  let z := f.bad.getLastD 0
  let new := (e.pathTo f s).drop 1
  let diff := f32sub (f.gOf s) (nth f.input (z + 1) ⟨0, 0, 0, 0, .zero, 0⟩).g
  f.input.take (a + 1) ++ new ++ (f.input.drop (z + 2)).map (fun r => { r with g := f32add r.g diff })

/-- The search ends: the paths to verify are fixed (R409, R412). -/
def Chip.searchStop (c : Chip) (e : PlanEnv) (f : PlanRun) (reason : Nat) : PlanRun :=
  let ways :=
    if isRepair e.d then (match f.ranked with | s :: _ => [e.splice f s] | [] => [])
    else
      match f.ranked with
      | [] =>
        match f.bestClosed with
        | some n => [e.pathTo f n.s]
        | none =>
          let s := c.searchStart e f
          let p := e.w.stateOf s.1
          [[⟨p.1, p.2.1, p.2.2, 0xFFFF, s.2, 0⟩]]
      | l => l.map (e.pathTo f)
  { f with phase := 2, reason := reason, popped := none, ways := ways, edge := 0, pass := c.tulGen }

/-- The wavefront has ended: the start state is pushed, or the search stops unreachable. [DEDUCED: log 93] -/
def Chip.searchBegin (c : Chip) (e : PlanEnv) (f : PlanRun) : PlanRun :=
  let s := c.searchStart e f
  match f.dist e.w s.1 with
  | none => c.searchStop e f 5
  | some h => { f with phase := 1, opened := [⟨s.1, s.2, h, 0, 0xFFFF, 0⟩] }

/-- f of a state. -/
def PlanEnv.fOf (e : PlanEnv) (n : TulNode) : Num := f32add n.g (f32mul (reqF e.req 7) n.h)

/-- The open state that is popped next. -/
def PlanEnv.nextOpen (e : PlanEnv) (f : PlanRun) : Option TulNode :=
  bestBy (fun (a b : TulNode) =>
    let x := e.fOf a
    let y := e.fOf b
    Num.lt x y || (Num.eqv x y && (Num.lt a.h b.h || (Num.eqv a.h b.h && decide (a.s < b.s))))) f.opened

/-- The time at which the search stops for its budget, and the time at which the operation does. -/
def PlanRun.searchEnds (f : PlanRun) (d : Nat) : Nat := f.begun + ((planPar d).budget - (planPar d).reserve) * 1000
def PlanRun.planEnds (f : PlanRun) (d : Nat) : Nat := f.begun + (planPar d).budget * 1000

/-- Candidates at most. -/
def PlanEnv.candMax (e : PlanEnv) : Nat := if isRepair e.d then 1 else reqCands e.req

/-- The reason to stop after a pop and its successors, if one holds (R408). [DEDUCED: log 92] -/
def Chip.stopReason (c : Chip) (e : PlanEnv) (f : PlanRun) : Option Nat :=
  let best := f.ranked.head?.map f.gOf
  if e.candMax ≤ f.cands.length then some 0
  else if (match best, e.nextOpen f with | some b, some n => Num.le b (e.fOf n) | _, _ => false) then some 0
  else if f.opened.isEmpty then some 3
  else if reqLimit e.req ≠ 0 ∧ reqLimit e.req ≤ f.expansions then some 2
  else if (planPar e.d).budget ≠ 0 ∧ f.searchEnds e.d ≤ c.now then some 1
  else if (planPar e.d).capacity ≤ f.opened.length + f.closed.length then some 4
  else none

/-- After the last successor of a pop. [DEDUCED: log 92] -/
def Chip.afterPop (c : Chip) (e : PlanEnv) (f : PlanRun) : PlanRun :=
  let f := { f with popped := none }
  match c.stopReason e f with
  | some r => c.searchStop e f r
  | none => f

/-- What one unit of work gives: the run, its cycles, what it read, the edge checks it made, and whether a path's
verification failed in it. -/
structure UnitResult where
  run : PlanRun
  cycles : Nat
  reads : List (Nat × Nat)
  checks : Nat
  failed : Bool
  deriving DecidableEq, Repr

/-- A pop. -/
def Chip.popUnit (c : Chip) (e : PlanEnv) (f : PlanRun) : UnitResult :=
  match e.nextOpen f with
  | none => ⟨c.searchStop e f 3, 0, [], 0, false⟩
  | some n =>
    let h := (e.w.stateOf n.s).2.2
    let prims := (List.range c.primCount).filter (fun i => (c.prim i).startH == h)
    let f := { f with opened := f.opened.filter (fun m => m.s != n.s), closed := n :: f.closed, expansions := f.expansions + 1,
                      popped := some (n, prims),
                      cands := if e.isGoal c.headings f n.s then f.cands ++ [n.s] else f.cands }
    ⟨if prims.isEmpty then c.afterPop e f else f, 24, [(c.tulBase 7 + 64, 32 * c.primCount)], 0, false⟩

/-- The map poses of a primitive from a cell. -/
def Chip.posesFrom (c : Chip) (w : World) (x y : Nat) (p : Prim) : List (Num × Num × Num) :=
  let m := w.centre x y
  (c.primPoses p).map (fun q => (f32add m.1 (nth q 0 .zero), f32add m.2 (nth q 1 .zero), nth q 2 .zero))

/-- The edge cost (R400). [DESIGN CHOICE: log 91] -/
def Chip.edgeCost (c : Chip) (e : PlanEnv) (p : Prim) (poses : List (Num × Num × Num)) : Num :=
  let cols := poses.map (fun q =>
    let k := e.w.cellOf q.1 q.2.1
    Num.ofNat (if e.w.inGrid k then c.columnCost e.w k.1.toNat k.2.toNat else Config.outsideCost k.1 k.2 % 256))
  f32add p.cost (f32mul (reqF e.req 8) (f32sum cols))

/-- One successor of the state popped. [DEDUCED: log 92] -/
def Chip.successorUnit (c : Chip) (e : PlanEnv) (f : PlanRun) (n : TulNode) (i : Nat) (rest : List Nat) : UnitResult :=
  let f := { f with popped := some (n, rest) }
  let next := fun (f : PlanRun) => if rest.isEmpty then c.afterPop e f else f
  let at_ := e.w.stateOf n.s
  let p := c.prim i
  let tx : Int := at_.1 + p.dx
  let ty : Int := at_.2.1 + p.dy
  let skip : UnitResult := ⟨next f, 12, [], 0, false⟩
  if !(e.w.inGrid (tx, ty) && f.inWindow e.req tx.toNat ty.toNat) then skip
  else
    let t := e.w.stateIx tx.toNat ty.toNat p.endH
    if f.closed.any (fun m => m.s == t) then skip
    else
      match f.dist e.w t with
      | none => skip
      | some h =>
        let poses := c.posesFrom e.w at_.1 at_.2.1 p
        let g := f32add n.g (c.edgeCost e p poses)
        let old := f.opened.find? (fun m => m.s == t)
        if (match old with | some m => Num.le m.g g | none => false) then skip
        else
          let k := c.checkPoses e.w e.os e.robot poses
          let full := old.isNone && decide ((planPar e.d).capacity ≤ f.opened.length + f.closed.length)
          let f := if k.hit || full then f
            else { f with opened := (f.opened.filter (fun m => m.s != t)) ++ [⟨t, g, h, n.s, i, c.tulGen⟩] }
          ⟨next { f with checks := f.checks + 1 }, 12 + k.cycles, k.reads, 1, false⟩

/-! ## Verification (R409) and REPAIR's recheck (R412) -/

/-- The check of edge `i` of a path. -/
def Chip.edgeCheck (c : Chip) (e : PlanEnv) (path : List PathRec) (i : Nat) : CheckResult :=
  let none_ : PathRec := ⟨0, 0, 0, 0, .zero, 0⟩
  let a := nth path i none_
  let b := nth path (i + 1) none_
  c.checkPoses e.w e.os e.robot (c.posesFrom e.w a.x a.y (c.prim b.prim))

/-- Whether an edge's check does not count at generation `g0`. -/
def Chip.edgeStale (c : Chip) (f : PlanRun) (path : List PathRec) (g0 i : Nat) : Bool :=
  (nth path (i + 1) ⟨0, 0, 0, 0, .zero, 0⟩).gen != g0 || decide (65535 ≤ c.tul.advances - f.adv0)

/-- The next edge to check, from `edge` on. -/
def Chip.nextStale (c : Chip) (f : PlanRun) (path : List PathRec) : Option Nat :=
  (List.range (path.length - 1)).find? (fun i => decide (f.edge ≤ i) && c.edgeStale f path f.pass i)

/-- A path with the generation of edge `i` set. -/
def stampEdge (path : List PathRec) (i gen : Nat) : List PathRec := modifyNth path (i + 1) (fun r => { r with gen := gen })

/-- One edge of the path under verification. A hit fails the path: the next one is taken. -/
def Chip.verifyUnit (c : Chip) (e : PlanEnv) (f : PlanRun) (path : List PathRec) (i : Nat) : UnitResult :=
  let k := c.edgeCheck e path i
  let f := { f with checks := f.checks + 1 }
  if k.hit then
    let first := match f.first with | some p => p | none => (path, i)
    ⟨{ f with first := some first, ways := f.ways.drop 1, edge := 0, pass := c.tulGen }, k.cycles, k.reads, 1, true⟩
  else ⟨{ f with ways := stampEdge path i f.pass :: f.ways.drop 1, edge := i + 1 }, k.cycles, k.reads, 1, false⟩

/-- One edge of REPAIR's input. Failing edges keep their generation. [DEDUCED: log 93] -/
def Chip.recheckUnit (c : Chip) (e : PlanEnv) (f : PlanRun) (i : Nat) : UnitResult :=
  let k := c.edgeCheck e f.input i
  let f := { f with checks := f.checks + 1, edge := i + 1 }
  ⟨if k.hit then { f with bad := f.bad ++ [i] } else { f with input := stampEdge f.input i f.pass }, k.cycles, k.reads, 1, false⟩

/-! ## Output (R410, R411) -/

/-- How an operation ends. -/
structure PlanEnd where
  path : List PathRec
  status : Nat
  valid : Bool
  goal : Bool
  repaired : Bool
  firstBad : Nat
  gen : Nat
  deriving DecidableEq, Repr

/-- The bytes of an output path. -/
def Chip.pathBytes (c : Chip) (d : Nat) (f : PlanRun) (x : PlanEnd) : Nat × List Byte :=
  let total := x.path.length
  let n := min total (planPar d).pathMax
  let cut := decide (n < total)
  let status := if cut && x.status == St.OK then St.TUL_PATH_TRUNC else x.status
  let cost := match x.path.getLast? with | some r => f32bits r.g | none => 0
  let h := bits status 0 16 + (b2n x.valid <<< 16) + (b2n x.goal <<< 17) + (b2n cut <<< 18) + (b2n x.repaired <<< 19) +
    (bits f.reason 0 4 <<< 20) + (min f.cands.length 255 <<< 24) + (bits x.gen 0 16 <<< 32) + (bits x.firstBad 0 16 <<< 48) +
    (cost <<< 64) + (n <<< 96) + (min total 65535 <<< 112) + (c.tul.crc <<< 128) + (c.stamp <<< 160) +
    (bits f.expansions 0 32 <<< 192) + (bits f.checks 0 32 <<< 224)
  (status, leBytes 64 h ++ ((x.path.take n).map PathRec.bytes).foldr (· ++ ·) [])

/-- The operation in progress of a descriptor, and its record replaced or forgotten. -/
def Chip.planRun? (c : Chip) (o : OpRun) : Option PlanRun :=
  c.tul.runs.find? (fun f => f.weave == o.weave && f.index == o.index)
def Chip.setPlan (c : Chip) (o : OpRun) (f : Option PlanRun) : Chip :=
  let alive := fun (r : PlanRun) => (r.weave != o.weave || r.index != o.index) &&
    c.dsp.suspended.any (fun x => x.unit == 22 && x.weave == r.weave && x.index == r.index)
  { c with tul := { c.tul with runs := c.tul.runs.filter alive ++ f.toList } }

/-- A FAULT ends the operation: its output is not valid. -/
def Chip.planFails (c : Chip) (o : OpRun) (st : Nat) : Chip × OpRun :=
  let p := planPar o.raw
  ((c.invalidate [(p.out, 64 + 16 * p.pathMax)]).setPlan o none, o.ends st)

/-- The path is written and the operation ends. `latch` says that a path with VALID 0 sets NO_VALID. [DEDUCED: log 93] -/
def Chip.planWrite (c : Chip) (o : OpRun) (f : PlanRun) (x : PlanEnd) (latch : Bool := true) : Chip × OpRun :=
  let b := c.pathBytes o.raw f x
  let w := c.devWrite (planPar o.raw).out b.2
  if w.2 != 0 then w.1.planFails o w.2
  else
    let c := w.1.count R.TUL_PLAN_CNT_COUNT
    let c := if !x.valid && latch then c.latch R.TUL_STATUS_NO_VALID else c
    (c.setPlan o none, { o.meets b.1 with lastTile := true, info1 := f.checks })

/-- The end that a path which passed its verification gives. -/
def PlanRun.passed (f : PlanRun) (d : Nat) (path : List PathRec) : PlanEnd :=
  let found := !f.cands.isEmpty
  ⟨path, if found || isRepair d then St.OK else St.TUL_PARTIAL, true, found, isRepair d, 0xFFFF, f.pass⟩

/-- The end with no valid path: the first path taken, with its failing edge, or 0xFFFF. [DEDUCED: log 93] -/
def PlanRun.noValid (f : PlanRun) (d : Nat) : PlanEnd :=
  let p := match f.first with | some p => p | none => (f.ways.headD [], 0xFFFF)
  ⟨p.1, St.TUL_NO_VALID, false, !f.cands.isEmpty, isRepair d, p.2, f.pass⟩

/-- REPAIR's other ends: nothing to repair, and no local path. -/
def PlanRun.intact (f : PlanRun) : PlanEnd := ⟨f.input, St.OK, true, f.inputGoal, false, 0xFFFF, f.pass⟩
def Chip.notRepaired (c : Chip) (f : PlanRun) : PlanEnd :=
  ⟨f.input, St.TUL_REPAIR_FAILED, false, f.inputGoal, false, f.bad.headD 0, c.tulGen⟩

/-! ## A tile -/

/-- What comes next: a unit of work, or the end. -/
inductive PlanNext where
  | work (u : UnitResult)
  | finish (x : PlanEnd)
  deriving DecidableEq, Repr

/-- The next unit of verification. -/
def Chip.verifyNext (c : Chip) (e : PlanEnv) (f : PlanRun) : PlanNext :=
  match f.ways with
  | [] => if isRepair e.d && f.first.isNone then .finish (c.notRepaired f) else .finish (f.noValid e.d)
  | path :: _ =>
    if (planPar e.d).budget ≠ 0 ∧ f.planEnds e.d ≤ c.now then .finish (f.noValid e.d)
    else
      match c.nextStale f path with
      | some i => .work (c.verifyUnit e f path i)
      | none =>
        if f.pass = c.tulGen then .finish (f.passed e.d path)
        else .work ⟨{ f with pass := c.tulGen, edge := 0 }, 0, [], 0, false⟩

/-- The next unit of an operation. -/
def Chip.planNext (c : Chip) (e : PlanEnv) (f : PlanRun) (room : Nat) : PlanNext :=
  if f.phase = 0 then
    if f.debt ≠ 0 then
      .work ⟨{ f with debt := f.debt - min f.debt room }, min f.debt room,
        [(c.tulBase (5 + c.tul.active), e.w.gw * e.w.gh * e.w.waveLayers)], 0, false⟩
    else if f.front.isEmpty then .work ⟨c.searchBegin e f, 0, [], 0, false⟩
    else .work ⟨c.waveSettle e f, 1, [], 0, false⟩
  else if f.phase = 1 then
    match f.popped with
    | none => .work (c.popUnit e f)
    | some (n, i :: rest) => .work (c.successorUnit e f n i rest)
    | some (_, []) => .work ⟨c.afterPop e f, 0, [], 0, false⟩
  else if f.phase = 2 then c.verifyNext e f
  else
    match c.nextStale f f.input with
    | some i => .work (c.recheckUnit e f i)
    | none =>
      if f.bad.isEmpty then
        (if f.pass = c.tulGen then .finish f.intact else .work ⟨{ f with pass := c.tulGen, edge := 0 }, 0, [], 0, false⟩)
      else
        let a := f.bad.headD 0
        let z := f.bad.getLastD 0
        let win := ((f.input.drop a).take (z + 2 - a)).map (fun r => (r.x, r.y))
        .work ⟨c.waveStart e { f with window := win }, 0, [], 0, false⟩

/-- Units of a tile, until its cycles are used up or the operation ends. A path whose verification has passed is written in
the same tile. [DESIGN CHOICE: log 94] -/
def Chip.planUnits (c : Chip) (o : OpRun) (e : PlanEnv) (limit : Nat) : Nat → Nat → PlanRun → Chip × OpRun
  | 0, _, f => (c.setPlan o (some f), o)
  | fuel + 1, used, f =>
    let passing := f.phase == 2 &&
      (match f.ways with | p :: _ => (c.nextStale f p).isNone && f.pass == c.tulGen | [] => true)
    if limit ≤ used ∧ passing = false then (c.setPlan o (some f), o)
    else
      match c.planNext e f (limit - used) with
      | .finish x => c.planWrite o f x
      | .work u =>
        let t := c.touchReads u.reads
        if t.2 != 0 then t.1.planFails o t.2
        else
          let c := t.1.count R.TUL_CHECK_CNT_COUNT 0 u.checks
          let c := if u.failed then c.count R.TUL_RECHECK_FAIL_CNT_COUNT else c
          Chip.planUnits c o e limit fuel (used + u.cycles) u.run

/-- An operation that starts (R405, R406): its request, robot and input are read, its checks made, its work area taken. -/
def Chip.planStart (c : Chip) (o : OpRun) : Chip × OpRun × Option PlanRun :=
  let d := o.raw
  let p := planPar d
  let stop := fun (r : Chip × OpRun) => (r.1, r.2, (none : Option PlanRun))
  let st := c.planCheck d
  if st != 0 then stop (c, o.ends st)
  else
    let r := c.devRead p.req 128
    let m := r.1.devRead p.robot (16 * p.count)
    let req := leNat r.2.2
    let i := if isRepair d then m.1.touchReads [(reqIn req, 64 + 16 * bits (m.1.peekNat (reqIn req) 64) 96 16)] else (m.1, St.OK)
    let bad := if r.2.1 != 0 then r.2.1 else if m.2.1 != 0 then m.2.1 else i.2
    if bad != 0 then stop (i.1.planFails o bad)
    else
      let robot := (List.range p.count).map (fun k => leNat ((m.2.2.drop (16 * k)).take 16))
      let w := i.1.writeOwn p.scratch p.size
      if w.2 != 0 then stop (w.1.planFails o w.2)
      else
        let c := w.1
        let input := if isRepair d then c.pathAt (reqIn req) else (0, [])
        let f : PlanRun := ⟨o.weave, o.index, req, robot, c.now, c.tul.advances, if isRepair d then 3 else 0, 0, [], [], [], [],
          none, [], 0, 0, 0, [], 0, c.tulGen, none, [], input.2, input.1.testBit 17, []⟩
        let e := c.planEnv d f
        if isRepair d then (c, o, some f)
        else
          let cell := e.w.cellOf (reqF req 0) (reqF req 1)
          let pose := c.checkPoses e.w e.os e.robot [(reqF req 0, reqF req 1, reqF req 2)]
          let t := if e.w.inGrid cell then c.touchReads pose.reads else (c, St.OK)
          if t.2 != 0 then stop (t.1, o.ends t.2)
          else if !e.w.inGrid cell || pose.hit then
            let rec_ : PathRec := ⟨ofSigned 16 cell.1, ofSigned 16 cell.2, headingOf (reqF req 2) c.headings, 0xFFFF, .zero, 0⟩
            stop (t.1.planWrite o f ⟨[rec_], St.TUL_START_BLOCKED, false, false, false, 0xFFFF, c.tulGen⟩ false)
          else (t.1, o, some (t.1.waveStart e f))

/-- One tile of PLAN or REPAIR. -/
def Chip.planTile (c : Chip) (o : OpRun) : Chip × OpRun :=
  let limit := (planPar o.raw).tileCycles
  match c.planRun? o with
  | some f => c.planUnits o (c.planEnv o.raw f) limit (2 * limit + 8) 0 f
  | none =>
    let s := c.planStart o
    match s.2.2 with
    | some f => s.1.planUnits s.2.1 (s.1.planEnv o.raw f) limit (2 * limit + 8) 300 f
    | none => (s.1, s.2.1)

/-- PLAN. `stalls` are the cycles stalled on the port. -/
def execPlan (stalls : Nat) (s : State) : Host.Outcome State Fault Refusal :=
  s.run Parts.tile
    (fun c => c.runTile 22 5 1 (fun _ _ => St.OK) (fun c o => c.planTile { o with info0 := min (o.info0 + stalls) 0xFFFFFFFF }))

/-- REPAIR. -/
def execTulRepair (stalls : Nat) (s : State) : Host.Outcome State Fault Refusal :=
  s.run Parts.tile
    (fun c => c.runTile 22 5 2 (fun _ _ => St.OK) (fun c o => c.planTile { o with info0 := min (o.info0 + stalls) 0xFFFFFFFF }))

/-- PLAN_BUDGET_EXPIRE: at start + BUDGET_US - RESERVE_US the search of the operation on Tulle stops with REASON 1. A pop
whose successors are still considered ends first. -/
def execPlanBudgetExpire (s : State) : Host.Outcome State Fault Refusal :=
  s.run [.tku, .tul] (fun c =>
    match c.op? 22 with
    | some o =>
      match c.planRun? o with
      | some f =>
        if f.phase = 1 ∧ (planPar o.raw).budget ≠ 0 then
          let c := c.advanceTo (f.searchEnds o.raw)
          if f.popped.isNone then c.setPlan o (some (c.searchStop (c.planEnv o.raw f) f 1)) else c
        else c
      | none => c
    | none => c)

end Sys2Proof.Machine
end

