-- ==== Sys2Proof/Machine/RegWrite.lean ====
section
/-!
DEFINITION. A host write of a BAR0 register (R6, R7, R273): every field by its access code, then what the spec says of the
register besides. Write-only command fields act through commands of their own; a write here that names no command of them is
refused as their block refuses it.
-/
namespace Sys2Proof.Machine

/-! ## Access codes (R6, R7) -/

/-- What a word of a register becomes when `new` is written over `old`: each field's part in word `k` follows its access
code. Reserved bits keep reading 0. [DESIGN CHOICE: log 10] -/
def mergeWord (fields : List FieldDef) (k old new : Nat) : Nat :=
  fields.foldl (fun (v : Nat) (f : FieldDef) =>
    let lo := max f.lo (32 * k)
    let hi := min (f.lo + f.width) (32 * k + 32)
    if hi ≤ lo then v
    else
      let p := lo - 32 * k
      let w := hi - lo
      match f.acc with
      | .rw => setBits v p w (bits new p w)
      | .w1c => setBits v p w (bits v p w ^^^ (bits v p w &&& bits new p w))
      | .w1s => setBits v p w (bits v p w ||| bits new p w)
      | .ro | .wo | .stg => v) old

/-- The write by access codes alone, of the bits of the word outside `keep`. [DESIGN CHOICE: log 10] -/
def Chip.plainWrite (c : Chip) (r : RegDef) (k a v : Nat) (keep : Nat := 0) : Chip :=
  let old := (c.regs.get a).toNat
  let new := v - (v &&& keep) + (old &&& keep)
  { c with regs := c.regs.set a (BitVec.ofNat 32 (mergeWord r.fields k old new)) }

/-! ## What the blocks add

Each function takes the BAR0 offset `a` of the word written, the offset `b` of its register's first element, the element `i`,
the value `v`, and the chip with the write by access codes; none says that the block adds nothing. -/

/-- Dispatch (R77, R92, R98, R596): a launch entry keeps its fields while it is enabled; enabling it starts its grid.
[DEDUCED: log 12] -/
def Chip.dspWritten (c d : Chip) (a b i v : Nat) : Option Chip :=
  if a = R.DSP_CTRL.addr then
    some (if v.testBit 0 && decide (c.rd R.BUP_STATUS_LAST_PASSED < 11) then d.wr R.DSP_CTRL_ENABLE (c.rd R.DSP_CTRL_ENABLE) else d)
  else if b = R.DSP_SIG.addr then some (c.signalSet i v).gngFollow
  else if b = R.DSP_SIG_POISON.addr then some d.settle.gngFollow
  else if b = R.DSP_LAUNCH.addr then
    let on := c.on R.DSP_LAUNCH_ENABLE i
    let k := (a - b) % 32 / 4
    if k = 1 then
      let want := v.testBit 16
      let x := if on then c.wr R.DSP_LAUNCH_ENABLE (b2n want) i else d
      some (if on then x
        else if want && decide (x.rd R.DSP_LAUNCH_PERIOD_NS i < 10000) then x.wr R.DSP_LAUNCH_ENABLE 0 i
        else if want then x.gridFrom (gridLaunch i) x.now
        else x)
    else some (if on then c else d)
  else none

/-- Muslin (R121, R130, R135): a write of 0 to RET_IDLE_US or GAP_MS sets 1; cleared log slots are counted. [DEDUCED: log 12] -/
def Chip.mslWritten (d : Chip) (a b : Nat) : Option Chip :=
  if a = R.MSL_RET_CTRL.addr then some (if d.rd R.MSL_RET_CTRL_RET_IDLE_US = 0 then d.wr R.MSL_RET_CTRL_RET_IDLE_US 1 else d)
  else if a = R.MSL_BT_CTRL.addr then some (if d.rd R.MSL_BT_CTRL_GAP_MS = 0 then d.wr R.MSL_BT_CTRL_GAP_MS 1 else d)
  else if b = R.MSL_SOFT_REPAIR.addr || b = R.MSL_DEGRADED.addr then some d.logFlags
  else none

/-- The ATU (R198, R199, R213, R240): its configuration is kept while it is enabled; a reserved FRAME_SHIFT keeps it
disabled; an OP of ATU_CMD that R213 does not list is refused. -/
def Chip.atuWritten (c d : Chip) (r : RegDef) (a b v : Nat) : Option Chip :=
  let on := c.on R.ATU_CTRL_ENABLE
  if a = R.ATU_CTRL.addr then
    let x := if on then c.plainWrite r 0 a v 0xFFFFFFFE else d
    some (if !on && v.testBit 0 && decide (9 ≤ x.rd R.ATU_CTRL_FRAME_SHIFT) then x.wr R.ATU_CTRL_ENABLE 0 else x)
  else if (decide (R.ATU_PFT_BASE_LO.addr ≤ a) && decide (a ≤ R.ATU_SAVE_BASE_HI.addr)) || b = R.ATU_KVCFG.addr then
    some (if on then c else d)
  else if a = R.ATU_CMD.addr then
    some (if bits v 0 4 = 0 || decide (8 ≤ bits v 0 4) then c.atuCmd (fun c => (c, St.KV_BAD_PARAM)) else c)
  else none

/-- A command field refused: RESULT becomes `busy` while the unit is busy, else 3. -/
def Chip.refuseOp (c : Chip) (busyField resultField : Field) (busy : Nat) : Chip :=
  c.wr resultField (if c.on busyField then busy else 3)

/-- Commands whose OP or STAGE no command has: refused (R263, R283, R375, R443, R475, R498, R566, R597). [DESIGN CHOICE: log 10] -/
def Chip.opWritten (c : Chip) (a v : Nat) : Option Chip :=
  if a = R.TWL_SVC_CMD.addr then
    some (if [1, 2, 3, 4].contains (bits v 0 3) then c else c.refuseOp R.TWL_SVC_CMD_BUSY R.TWL_SVC_CMD_RESULT 6)
  else if a = R.QMG_QCMD.addr then some (if [1, 2, 3].contains (bits v 15 3) then c else c.refuseOp R.QMG_QCMD_BUSY R.QMG_QCMD_RESULT 4)
  else if a = R.TWD_TRACK_CMD.addr then
    some (if [1, 2].contains (bits v 16 2) then c else c.refuseOp R.TWD_TRACK_CMD_BUSY R.TWD_TRACK_CMD_RESULT 4)
  else if a = R.CNV_SVC_CMD.addr || a = (R.CNV_SVC_CMD.inst 1).addr then
    let k := (a - R.CNV_SVC_CMD.addr) / 0x100000
    some (if bits v 0 2 != 0 then c else c.refuseOp (R.CNV_SVC_CMD_BUSY.inst k) (R.CNV_SVC_CMD_RESULT.inst k) 6)
  else if a = R.TKU_CMD.addr then
    some (if [1, 2, 3, 4, 5].contains (bits v 0 3) then c else c.refuseOp R.TKU_CMD_BUSY R.TKU_CMD_RESULT 4)
  else if a = R.PWR_CMD.addr then some (if bits v 0 2 = 1 then c else c.wr R.PWR_CMD_RESULT 4)
  else if a = R.ODX_REQ.addr then
    some (if bits v 0 4 = 0 || decide (8 ≤ bits v 0 4) then
        let x := c.odxRefuse St.ODX_BAD_REQUEST
        x.1.answer .host x.2
      else c)
  else if a = R.BUP_CMD.addr then
    some (if v.testBit 4 && (bits v 0 4 = 0 || decide (13 ≤ bits v 0 4)) then
        c.wr R.BUP_CMD_RESULT (if c.bup.stage.isSome then 5 else 4)
      else c)
  else none

/-- A pending vector that is no longer masked is sent (R280). [PRESUMED: log 13] -/
def Chip.sendPending (d : Chip) (v : Nat) : Chip :=
  if !d.on R.PCI_MSIX_ENABLE || d.vectorMasked v || !(d.regs.get (msixPba v)).getLsbD (v % 32) then d
  else { d with regs := d.regs.set (msixPba v) (d.regs.get (msixPba v) &&& ~~~(1#32 <<< (v % 32))) }.emit .msix v 0 []

/-- The vectors whose pending bits are set. -/
def Chip.pendingVectors (d : Chip) : List Nat :=
  (List.range 64).foldl (fun l k =>
    let w := d.regs.get (0x18000 + 4 * k)
    if w = 0 then l else l ++ ((List.range 32).filter (fun b => w.getLsbD b)).map (· + 32 * k)) []

/-- A write of configuration space (R269, R271, R280): a power state that is not supported leaves the state; pending vectors that a write
of MSI-X Enable or Function Mask no longer holds back are sent. [PRESUMED: log 167] -/
def Chip.configWritten (c d : Chip) (a : Nat) : Chip :=
  if a = R.PCI_PM_STATE.addr then
    (if d.rd R.PCI_PM_STATE = 1 ∨ d.rd R.PCI_PM_STATE = 2 then d.wr R.PCI_PM_STATE (c.rd R.PCI_PM_STATE) else d)
  else if a = R.PCI_MSIX_ENABLE.addr then d.pendingVectors.foldl (fun d v => d.sendPending v) d
  else d

/-- The queue manager, the DRC and the host interface's MSI-X table; a change of how DRAM is laid out leaves its contents free values
(R279, R299, R313, R318, R596). [DEDUCED: log 12; DESIGN CHOICE: log 183] -/
def Chip.memWritten (c d : Chip) (a b i v : Nat) : Option Chip :=
  if a = R.QMG_CTRL.addr then
    some (if v.testBit 0 && decide (c.rd R.BUP_STATUS_LAST_PASSED < 11) then c else d)
  else if decide (R.QMG_CTX_BASE_LO.addr ≤ a) && decide (a ≤ R.QMG_SPILL_BASE_HI.addr) then
    some (if c.on R.QMG_CTRL_ENABLE then c else d)
  else if a = R.DRC_CTRL.addr then
    let d := if v.testBit 0 && !c.on R.DRC_STATUS_TRAINED then d.wr R.DRC_CTRL_ENABLE (c.rd R.DRC_CTRL_ENABLE) else d
    some (if c.on R.DRC_CTRL_QUIESCE && !v.testBit 1 then d.openPorts else d)
  else if a = R.DRC_CFG.addr then
    let same := fun (f : Field) => c.rd f == d.rd f
    some (if c.on R.DRC_CTRL_ENABLE then c
      else (if same R.DRC_CFG_DENSITY && same R.DRC_CFG_RANKS && same R.DRC_CFG_ECC_EN then d else d.loseDram).refreshCap)
  else if b = 0x10000 then some (d.sendPending i)
  else none

/-- Gauze, Tulle, Jersey, the TKU, the field ports, Gingham and bring-up (R358, R416, R453, R466, R471, R485, R526, R543, R589,
R620). -/
def Chip.unitWritten (c d : Chip) (r : RegDef) (a b i v : Nat) : Option (Chip ⊕ BitVec 5) :=
  let some' := fun (x : Chip) => some (Sum.inl x : Chip ⊕ BitVec 5)
  if a = R.GZE_CTRL.addr then some' (if !v.testBit 0 then d.gzeStop else if c.on R.GZE_CTRL_ENABLE then d else d.gzeRun)
  else if a = R.TUL_CTRL.addr then some' (if v.testBit 0 then c.tulEnable else c.tulDisable)
  else if a = R.JRS_CTRL.addr then
    let x := c.plainWrite r 0 a v 1
    some' (if v.testBit 0 then x.jerseyStart else x.jerseyStop)
  else if b = R.JRS_FLAGS.addr then some' (d.jrsSyncFlags i)
  else if a = R.TKU_RATE_ADJ.addr then some' (if c.entry 0x5000 2 = 2 then c else c.setRate (toSigned 32 v))
  else if a = R.FLD_CTRL.addr then some' d.fldRefresh
  else if b = R.FLD_HTX_BASE_LO.addr || b = R.FLD_HTX_BASE_HI.addr then some' (if c.on R.FLD_HTX_CFG_ENABLE i then c else d)
  else if b = R.FLD_HRX_BASE_LO.addr || b = R.FLD_HRX_BASE_HI.addr then some' (if c.on R.FLD_HRX_CFG_ENABLE i then c else d)
  else if b = R.FLD_HTX_CFG.addr then some' (c.ringCfg true i v)
  else if b = R.FLD_HRX_CFG.addr then some' (c.ringCfg false i v)
  else if b = R.FLD_HTX_PROD.addr then some' (c.hostTxProd i v)
  else if b = R.FLD_HRX_PROD.addr then some' (c.hostRxProd i v)
  else if a = R.GNG_FAULT.addr then some (.inr (BitVec.ofNat 5 v))
  else if b = R.BUP_NEW.addr then some' d.countFindings
  else none

/-- A host write of `size` bytes at BAR0 offset `a` (R273), or of a configuration register: one in BAR0 that is not of an aligned word is
dropped, and so is one that no register occupies. [DESIGN CHOICE: log 10, 11] -/
def Chip.registerWrite (c : Chip) (a size v : Nat) : Chip :=
  if size != 4 || a % 4 != 0 then (if a < 2 ^ 26 then c.latch R.HIF_STATUS_BAD_ACCESS else c)
  else
    match findReg a with
    | none => c
    | some (r, k) =>
      let i := if r.stride = 0 then 0 else (a - r.addr) / r.stride
      let d := c.plainWrite r k a v
      if 2 ^ 26 ≤ a then c.configWritten d a
      else if a = R.TWL_GNG_PAIR.addr then c.writeGngPair v
      else
        match c.dspWritten d a r.addr i v with
        | some x => x
        | none =>
          match d.mslWritten a r.addr with
          | some x => x
          | none =>
            match c.atuWritten d r a r.addr v with
            | some x => x
            | none =>
              match c.opWritten a v with
              | some x => x
              | none =>
                match c.memWritten d a r.addr i v with
                | some x => x
                | none =>
                  match c.unitWritten d r a r.addr i v with
                  | some (.inl x) => x
                  | some (.inr f) => c.clearGngFaults f
                  | none => d

/-- REGISTER_WRITE (R6): in D3hot the host interface answers configuration requests only (R271). [DESIGN CHOICE: log 11, 26] -/
def execRegisterWrite (addr size : Nat) (data : Word) (s : State) : Host.Outcome State Fault Refusal :=
  s.run [.regs, .dict, .muslin, .tku, .dsp, .qmg, .msl, .drc, .dmk, .gze, .tul, .jrs, .fld, .gng, .sent, .fresh]
    (fun c => if c.heard || decide (2 ^ 26 ≤ addr) then c.registerWrite addr size data.toNat else c)

/-- What a field shows to a read, by its access code: a write-only field reads 0 (R6). -/
def readWord (fields : List FieldDef) (k w : Nat) : Nat :=
  fields.foldl (fun (v : Nat) (f : FieldDef) =>
    let lo := max f.lo (32 * k)
    let hi := min (f.lo + f.width) (32 * k + 32)
    if hi ≤ lo || f.acc == .wo then v else setBits v (lo - 32 * k) (hi - lo) (bits w (lo - 32 * k) (hi - lo))) 0

/-- What a host read of `size` bytes at BAR0 offset `a` returns (R273): all bytes 0xFF, and BAD_ACCESS, where it is not of an aligned
word; 0 where no register is. [DESIGN CHOICE: log 11] -/
def Chip.registerBytes (c : Chip) (a size : Nat) : Chip × List Byte :=
  if size != 4 || a % 4 != 0 then (c.latch R.HIF_STATUS_BAD_ACCESS, List.replicate size 0xFF)
  else
    match findReg a with
    | some (r, k) => (c, leBytes 4 (readWord r.fields k (c.regs.get a).toNat))
    | none => (c, leBytes 4 0)

end Sys2Proof.Machine
end

