-- ==== Sys2Proof/Machine/Dispatch.lean ====
section
/-!
DEFINITION. One arm per command: a direct call of its meaning.
-/
namespace Sys2Proof.Machine

/-- The effect of a command on everything but the queue. -/
def exec (i : Instr) (s : State) : Host.Outcome State Fault Refusal :=
  match i with
  | .keeperSupplyOn => Sys2Proof.Machine.execKeeperSupplyOn s
  | .keeperSupplyLoss => Sys2Proof.Machine.execKeeperSupplyLoss s
  | .sysResetAssert lowNs => Sys2Proof.Machine.execSysResetAssert lowNs s
  | .sysResetRelease => Sys2Proof.Machine.execSysResetRelease s
  | .railOutOfWindow rail ns => Sys2Proof.Machine.execRailOutOfWindow rail ns s
  | .registerWrite addr size data => Sys2Proof.Machine.execRegisterWrite addr size data s
  | .islandStall island unit => Sys2Proof.Machine.execIslandStall island unit s
  | .opChangeStart => Sys2Proof.Machine.execOpChangeStart s
  | .opSettleEnd => Sys2Proof.Machine.execOpSettleEnd s
  | .controlTick => Sys2Proof.Machine.execControlTick s
  | .commitInstant => Sys2Proof.Machine.execCommitInstant s
  | .submissionEntryTake => Sys2Proof.Machine.execSubmissionEntryTake s
  | .descriptorFetch weave => Sys2Proof.Machine.execDescriptorFetch weave s
  | .descriptorStart unit => Sys2Proof.Machine.execDescriptorStart unit s
  | .tileEnd unit ns => Sys2Proof.Machine.execTileEnd unit ns s
  | .operationResume unit => Sys2Proof.Machine.execOperationResume unit s
  | .operationComplete unit wrong => Sys2Proof.Machine.execOperationComplete unit wrong s
  | .holdExpire unit => Sys2Proof.Machine.execHoldExpire unit s
  | .dspCancel weaveId => Sys2Proof.Machine.execDspCancel weaveId s
  | .dspSigAdd sig add => Sys2Proof.Machine.execDspSigAdd sig add s
  | .dspSigWrite sig value => Sys2Proof.Machine.execDspSigWrite sig value s
  | .statClear => Sys2Proof.Machine.execStatClear s
  | .dspCtrlEnable on => Sys2Proof.Machine.execDspCtrlEnable on s
  | .nop weave index => Sys2Proof.Machine.execNop weave index s
  | .waitUntil weave index => Sys2Proof.Machine.execWaitUntil weave index s
  | .waitUntilExpire weave index => Sys2Proof.Machine.execWaitUntilExpire weave index s
  | .sigSet weave index => Sys2Proof.Machine.execSigSet weave index s
  | .timedLaunch entry => Sys2Proof.Machine.execTimedLaunch entry s
  | .muslinRead addr len unit found net => Sys2Proof.Machine.execMuslinRead addr len unit found net s
  | .muslinWrite addr unit data net => Sys2Proof.Machine.execMuslinWrite addr unit data net s
  | .bitSetWrite addr unit data net => Sys2Proof.Machine.execBitSetWrite addr unit data net s
  | .bitClearWrite addr unit data net => Sys2Proof.Machine.execBitClearWrite addr unit data net s
  | .eccWriteback => Sys2Proof.Machine.execEccWriteback s
  | .hatomSet mask net => Sys2Proof.Machine.execHatomSet mask net s
  | .hatomClr mask net => Sys2Proof.Machine.execHatomClr mask net s
  | .bar2Read addr len found net => Sys2Proof.Machine.execBar2Read addr len found net s
  | .bar2Write addr data net => Sys2Proof.Machine.execBar2Write addr data net s
  | .patrolScrubRead group found => Sys2Proof.Machine.execPatrolScrubRead group found s
  | .retentionEntry group => Sys2Proof.Machine.execRetentionEntry group s
  | .retentionWakeDone group => Sys2Proof.Machine.execRetentionWakeDone group s
  | .groupFillDone group => Sys2Proof.Machine.execGroupFillDone group s
  | .btRegionStart found => Sys2Proof.Machine.execBtRegionStart found s
  | .btRegionEnd bad => Sys2Proof.Machine.execBtRegionEnd bad s
  | .softRepairSweepDone found => Sys2Proof.Machine.execSoftRepairSweepDone found s
  | .mslRepairApply => Sys2Proof.Machine.execMslRepairApply s
  | .matmul stalls parity => Sys2Proof.Machine.execMatmul stalls parity s
  | .pin stalls => Sys2Proof.Machine.execPin stalls s
  | .unpin stalls => Sys2Proof.Machine.execUnpin stalls s
  | .slotSave stalls parity => Sys2Proof.Machine.execSlotSave stalls parity s
  | .slotLoad stalls => Sys2Proof.Machine.execSlotLoad stalls s
  | .columnTest stalls failing parity => Sys2Proof.Machine.execColumnTest stalls failing parity s
  | .dmkSpareRequest column => Sys2Proof.Machine.execDmkSpareRequest column s
  | .spareSwapStart => Sys2Proof.Machine.execSpareSwapStart s
  | .spareSwapWaitTimeout => Sys2Proof.Machine.execSpareSwapWaitTimeout s
  | .spareSwapEnd pass badPins => Sys2Proof.Machine.execSpareSwapEnd pass badPins s
  | .scan stalls slots => Sys2Proof.Machine.execScan stalls slots s
  | .anchor stalls => Sys2Proof.Machine.execAnchor stalls s
  | .checkpoint stalls parity => Sys2Proof.Machine.execCheckpoint stalls parity s
  | .restore stalls => Sys2Proof.Machine.execRestore stalls s
  | .kvWrite seq => Sys2Proof.Machine.execKvWrite seq s
  | .kvSwap seq => Sys2Proof.Machine.execKvSwap seq s
  | .kvInvalidate seq => Sys2Proof.Machine.execKvInvalidate seq s
  | .kvClearHeld seq => Sys2Proof.Machine.execKvClearHeld seq s
  | .kvResume slot => Sys2Proof.Machine.execKvResume slot s
  | .kvAbandon slot => Sys2Proof.Machine.execKvAbandon slot s
  | .kvFence => Sys2Proof.Machine.execKvFence s
  | .kvFenceDone => Sys2Proof.Machine.execKvFenceDone s
  | .atuFreePush frame => Sys2Proof.Machine.execAtuFreePush frame s
  | .attnDecode => Sys2Proof.Machine.execAttnDecode s
  | .attnPrefill => Sys2Proof.Machine.execAttnPrefill s
  | .unary cluster stalls ecc => Sys2Proof.Machine.execUnary cluster stalls ecc s
  | .binary cluster stalls ecc => Sys2Proof.Machine.execBinary cluster stalls ecc s
  | .ternary cluster stalls ecc => Sys2Proof.Machine.execTernary cluster stalls ecc s
  | .reduce cluster stalls ecc => Sys2Proof.Machine.execReduce cluster stalls ecc s
  | .cumulative cluster stalls ecc => Sys2Proof.Machine.execCumulative cluster stalls ecc s
  | .softmax cluster stalls ecc => Sys2Proof.Machine.execSoftmax cluster stalls ecc s
  | .norm cluster stalls ecc => Sys2Proof.Machine.execNorm cluster stalls ecc s
  | .optim cluster stalls ecc => Sys2Proof.Machine.execOptim cluster stalls ecc s
  | .topk cluster stalls ecc => Sys2Proof.Machine.execTopk cluster stalls ecc s
  | .sample cluster stalls ecc => Sys2Proof.Machine.execSample cluster stalls ecc s
  | .convert cluster stalls ecc => Sys2Proof.Machine.execConvert cluster stalls ecc s
  | .layout cluster stalls ecc => Sys2Proof.Machine.execLayout cluster stalls ecc s
  | .rope cluster stalls ecc => Sys2Proof.Machine.execRope cluster stalls ecc s
  | .loss cluster stalls ecc => Sys2Proof.Machine.execLoss cluster stalls ecc s
  | .backward cluster stalls ecc => Sys2Proof.Machine.execBackward cluster stalls ecc s
  | .stats cluster stalls ecc => Sys2Proof.Machine.execStats cluster stalls ecc s
  | .shadowScan cluster stalls ecc => Sys2Proof.Machine.execShadowScan cluster stalls ecc s
  | .vmatmul cluster stalls ecc => Sys2Proof.Machine.execVmatmul cluster stalls ecc s
  | .copy port error => Sys2Proof.Machine.execCopy port error s
  | .fill port => Sys2Proof.Machine.execFill port s
  | .hostCompletionTimeout port => Sys2Proof.Machine.execHostCompletionTimeout port s
  | .twlRemove cluster force autoSpare => Sys2Proof.Machine.execTwlRemove cluster force autoSpare s
  | .twlTest cluster => Sys2Proof.Machine.execTwlTest cluster s
  | .twlReturn cluster => Sys2Proof.Machine.execTwlReturn cluster s
  | .twlActivate cluster => Sys2Proof.Machine.execTwlActivate cluster s
  | .twlKatEnd pass => Sys2Proof.Machine.execTwlKatEnd pass s
  | .twlDrainDone => Sys2Proof.Machine.execTwlDrainDone s
  | .twlGngPairWrite data => Sys2Proof.Machine.execTwlGngPairWrite data s
  | .functionLevelReset => Sys2Proof.Machine.execFunctionLevelReset s
  | .hotReset => Sys2Proof.Machine.execHotReset s
  | .perstAssert => Sys2Proof.Machine.execPerstAssert s
  | .perstRelease => Sys2Proof.Machine.execPerstRelease s
  | .linkDown => Sys2Proof.Machine.execLinkDown s
  | .queueEnable queue => Sys2Proof.Machine.execQueueEnable queue s
  | .queueDisable queue => Sys2Proof.Machine.execQueueDisable queue s
  | .queueQuery queue => Sys2Proof.Machine.execQueueQuery queue s
  | .doorbellWrite offset size value => Sys2Proof.Machine.execDoorbellWrite offset size value s
  | .spillDrain queue => Sys2Proof.Machine.execSpillDrain queue s
  | .coalesceTimerExpire queue => Sys2Proof.Machine.execCoalesceTimerExpire queue s
  | .dramRead addr unit errors net => Sys2Proof.Machine.execDramRead addr unit errors net s
  | .dramWrite addr unit data errors net => Sys2Proof.Machine.execDramWrite addr unit data errors net s
  | .dramCeWriteback => Sys2Proof.Machine.execDramCeWriteback s
  | .dramScrub errors => Sys2Proof.Machine.execDramScrub errors s
  | .drcRetire frameEn frame => Sys2Proof.Machine.execDrcRetire frameEn frame s
  | .retireCopyDone errors => Sys2Proof.Machine.execRetireCopyDone errors s
  | .drcPairRetire pair => Sys2Proof.Machine.execDrcPairRetire pair s
  | .pairRetireDone => Sys2Proof.Machine.execPairRetireDone s
  | .drcTrainStart => Sys2Proof.Machine.execDrcTrainStart s
  | .drcTrainRestore => Sys2Proof.Machine.execDrcTrainRestore s
  | .trainingDone fail => Sys2Proof.Machine.execTrainingDone fail s
  | .wck2dqCorrection channel => Sys2Proof.Machine.execWck2dqCorrection channel s
  | .dramTempRead derate high => Sys2Proof.Machine.execDramTempRead derate high s
  | .refreshManagement channel => Sys2Proof.Machine.execRefreshManagement channel s
  | .selfRefreshEntry => Sys2Proof.Machine.execSelfRefreshEntry s
  | .selfRefreshExit => Sys2Proof.Machine.execSelfRefreshExit s
  | .csi2FrameStart rx vc frameNumber hdr => Sys2Proof.Machine.execCsi2FrameStart rx vc frameNumber hdr s
  | .csi2LongPacket rx vc dataType payload hdr crcOk full => Sys2Proof.Machine.execCsi2LongPacket rx vc dataType payload hdr crcOk full s
  | .csi2FrameEnd rx vc hdr => Sys2Proof.Machine.execCsi2FrameEnd rx vc hdr s
  | .frameRecordWrite pipe => Sys2Proof.Machine.execFrameRecordWrite pipe s
  | .sensorEthFrame port sfdNs frame fcsOk => Sys2Proof.Machine.execSensorEthFrame port sfdNs frame fcsOk s
  | .scanClose filter => Sys2Proof.Machine.execScanClose filter s
  | .spiDrdyEdge port rising => Sys2Proof.Machine.execSpiDrdyEdge port rising s
  | .spiTimedStart port => Sys2Proof.Machine.execSpiTimedStart port s
  | .spiTransactionEnd port data => Sys2Proof.Machine.execSpiTransactionEnd port data s
  | .triggerEpoch group => Sys2Proof.Machine.execTriggerEpoch group s
  | .triggerAssert output => Sys2Proof.Machine.execTriggerAssert output s
  | .triggerDeassert output => Sys2Proof.Machine.execTriggerDeassert output s
  | .batch units stalls => Sys2Proof.Machine.execBatch units stalls s
  | .fuse units stalls => Sys2Proof.Machine.execFuse units stalls s
  | .trackImport => Sys2Proof.Machine.execTrackImport s
  | .trackExport => Sys2Proof.Machine.execTrackExport s
  | .trackDelete track => Sys2Proof.Machine.execTrackDelete track s
  | .trackConfirm track => Sys2Proof.Machine.execTrackConfirm track s
  | .trackCmdDeferredApply => Sys2Proof.Machine.execTrackCmdDeferredApply s
  | .plan stalls => Sys2Proof.Machine.execPlan stalls s
  | .planBudgetExpire => Sys2Proof.Machine.execPlanBudgetExpire s
  | .tulRepair stalls => Sys2Proof.Machine.execTulRepair stalls s
  | .worldEdit stalls => Sys2Proof.Machine.execWorldEdit stalls s
  | .tulleEnable => Sys2Proof.Machine.execTulleEnable s
  | .tulleReady => Sys2Proof.Machine.execTulleReady s
  | .cnvLoad inst => Sys2Proof.Machine.execCnvLoad inst s
  | .cnvSolve inst stalls corrected uncorrectable => Sys2Proof.Machine.execCnvSolve inst stalls corrected uncorrectable s
  | .cnvUnload inst => Sys2Proof.Machine.execCnvUnload inst s
  | .cnvRemove inst force => Sys2Proof.Machine.execCnvRemove inst force s
  | .cnvTest inst => Sys2Proof.Machine.execCnvTest inst s
  | .cnvReturn inst => Sys2Proof.Machine.execCnvReturn inst s
  | .cnvDrainDone inst => Sys2Proof.Machine.execCnvDrainDone inst s
  | .cnvKatEnd inst pass => Sys2Proof.Machine.execCnvKatEnd inst pass s
  | .jerseyTick sd parity => Sys2Proof.Machine.execJerseyTick sd parity s
  | .jerseyQueueTake slot => Sys2Proof.Machine.execJerseyQueueTake slot s
  | .pwmPeriodStart pin => Sys2Proof.Machine.execPwmPeriodStart pin s
  | .pulseInputEdge input a b => Sys2Proof.Machine.execPulseInputEdge input a b s
  | .jrsSwap lane => Sys2Proof.Machine.execJrsSwap lane s
  | .jrsSwapKatEnd pass => Sys2Proof.Machine.execJrsSwapKatEnd pass s
  | .jrsSwapLoad parity => Sys2Proof.Machine.execJrsSwapLoad parity s
  | .jrsSwapDone => Sys2Proof.Machine.execJrsSwapDone s
  | .jerseyDisable => Sys2Proof.Machine.execJerseyDisable s
  | .tkuSnap => Sys2Proof.Machine.execTkuSnap s
  | .tkuSet force => Sys2Proof.Machine.execTkuSet force s
  | .tkuStep force => Sys2Proof.Machine.execTkuStep force s
  | .forcePending => Sys2Proof.Machine.execForcePending s
  | .relock => Sys2Proof.Machine.execRelock s
  | .offsetArrive offset logSync seen => Sys2Proof.Machine.execOffsetArrive offset logSync seen s
  | .offsetSubmit intervalUs => Sys2Proof.Machine.execOffsetSubmit intervalUs s
  | .holdoverTimeout => Sys2Proof.Machine.execHoldoverTimeout s
  | .ptpEventRx port message => Sys2Proof.Machine.execPtpEventRx port message s
  | .ptpEventTx port message => Sys2Proof.Machine.execPtpEventTx port message s
  | .txTimestampCapture port id => Sys2Proof.Machine.execTxTimestampCapture port id s
  | .txtsPop => Sys2Proof.Machine.execTxtsPop s
  | .odxRead origin session index sub storeUe => Sys2Proof.Machine.execOdxRead origin session index sub storeUe s
  | .odxDescribe origin index sub => Sys2Proof.Machine.execOdxDescribe origin index sub s
  | .odxOpen origin token => Sys2Proof.Machine.execOdxOpen origin token s
  | .odxStage origin session index sub value token => Sys2Proof.Machine.execOdxStage origin session index sub value token s
  | .odxCommit origin session time token => Sys2Proof.Machine.execOdxCommit origin session time token s
  | .odxAbort origin session token => Sys2Proof.Machine.execOdxAbort origin session token s
  | .odxWrite origin session index sub value token => Sys2Proof.Machine.execOdxWrite origin session index sub value token s
  | .netSessionOpen path session token => Sys2Proof.Machine.execNetSessionOpen path session token s
  | .netSessionCommit path session token time => Sys2Proof.Machine.execNetSessionCommit path session token time s
  | .netSessionAbort path session token => Sys2Proof.Machine.execNetSessionAbort path session token s
  | .odxNote origin value token => Sys2Proof.Machine.execOdxNote origin value token s
  | .odxSave origin token => Sys2Proof.Machine.execOdxSave origin token s
  | .clearImage origin token => Sys2Proof.Machine.execClearImage origin token s
  | .saveDone => Sys2Proof.Machine.execSaveDone s
  | .sessionExpire session => Sys2Proof.Machine.execSessionExpire session s
  | .journalMirror readBackOk => Sys2Proof.Machine.execJournalMirror readBackOk s
  | .tagPersist readBackOk => Sys2Proof.Machine.execTagPersist readBackOk s
  | .fieldFrameRx port frame fcsOk => Sys2Proof.Machine.execFieldFrameRx port frame fcsOk s
  | .hostTxProd port value => Sys2Proof.Machine.execHostTxProd port value s
  | .hostTxFrameDone port => Sys2Proof.Machine.execHostTxFrameDone port s
  | .gateListEntry port => Sys2Proof.Machine.execGateListEntry port s
  | .streamGateEntry port gate => Sys2Proof.Machine.execStreamGateEntry port gate s
  | .preemptVerifyDone port => Sys2Proof.Machine.execPreemptVerifyDone port s
  | .gwepoSyncTx port sfdNs => Sys2Proof.Machine.execGwepoSyncTx port sfdNs s
  | .gwepoInHeader node sfdNs turnNs header => Sys2Proof.Machine.execGwepoInHeader node sfdNs turnNs header s
  | .gwepoInFrameEnd node fcsOk payload => Sys2Proof.Machine.execGwepoInFrameEnd node fcsOk payload s
  | .gwepoInWindowClose node => Sys2Proof.Machine.execGwepoInWindowClose node s
  | .gwepoAcycReq node sfdNs request => Sys2Proof.Machine.execGwepoAcycReq node sfdNs request s
  | .gwepoAcycRspTx => Sys2Proof.Machine.execGwepoAcycRspTx s
  | .sdoRequest ctl canFd data => Sys2Proof.Machine.execSdoRequest ctl canFd data s
  | .sdoSegmentTimeout ctl => Sys2Proof.Machine.execSdoSegmentTimeout ctl s
  | .canHeartbeat ctl => Sys2Proof.Machine.execCanHeartbeat ctl s
  | .canBusOffRecovery ctl => Sys2Proof.Machine.execCanBusOffRecovery ctl s
  | .estimateWindowEnd counts => Sys2Proof.Machine.execEstimateWindowEnd counts s
  | .pmbusRead readings => Sys2Proof.Machine.execPmbusRead readings s
  | .thermalSample readings => Sys2Proof.Machine.execThermalSample readings s
  | .domainStateSelect => Sys2Proof.Machine.execDomainStateSelect s
  | .domainWakeDone domain => Sys2Proof.Machine.execDomainWakeDone domain s
  | .prewake entry => Sys2Proof.Machine.execPrewake entry s
  | .standby wakePin wakeTime => Sys2Proof.Machine.execStandby wakePin wakeTime s
  | .standbyWakePin lowNs => Sys2Proof.Machine.execStandbyWakePin lowNs s
  | .standbyWakeTime => Sys2Proof.Machine.execStandbyWakeTime s
  | .frameDeadline net => Sys2Proof.Machine.execFrameDeadline net s
  | .networkStale net => Sys2Proof.Machine.execNetworkStale net s
  | .heartbeatToggle => Sys2Proof.Machine.execHeartbeatToggle s
  | .goldenSlot net => Sys2Proof.Machine.execGoldenSlot net s
  | .goldenGrant net => Sys2Proof.Machine.execGoldenGrant net s
  | .goldenLatestExpire net => Sys2Proof.Machine.execGoldenLatestExpire net s
  | .gngFaultClear bits => Sys2Proof.Machine.execGngFaultClear bits s
  | .powerSequenceCheck badRails refclkKHz => Sys2Proof.Machine.execPowerSequenceCheck badRails refclkKHz s
  | .fuseLoad fuses => Sys2Proof.Machine.execFuseLoad fuses s
  | .clockIslandStart failed => Sys2Proof.Machine.execClockIslandStart failed s
  | .keeperRestore => Sys2Proof.Machine.execKeeperRestore s
  | .muslinTest quick nack failing multi margin => Sys2Proof.Machine.execMuslinTest quick nack failing multi margin s
  | .dramTraining quick fail => Sys2Proof.Machine.execDramTraining quick fail s
  | .dramTest quick failing => Sys2Proof.Machine.execDramTest quick failing s
  | .repairApply => Sys2Proof.Machine.execRepairApply s
  | .knownAnswerRuns quick nack fail columns slots => Sys2Proof.Machine.execKnownAnswerRuns quick nack fail columns slots s
  | .dictionaryLoad => Sys2Proof.Machine.execDictionaryLoad s
  | .queueSetup => Sys2Proof.Machine.execQueueSetup s
  | .bupReady => Sys2Proof.Machine.execBupReady s
  | .stageEnd ms => Sys2Proof.Machine.execStageEnd ms s
  | .stageAbort => Sys2Proof.Machine.execStageAbort s
  | .repairRecordAppend kind remove => Sys2Proof.Machine.execRepairRecordAppend kind remove s
  | .repairAppendDone readBackOk => Sys2Proof.Machine.execRepairAppendDone readBackOk s
  | .domainRestart domain => Sys2Proof.Machine.execDomainRestart domain s
  | .warmRestart => Sys2Proof.Machine.execWarmRestart s
  | .domainRestartDone fail => Sys2Proof.Machine.execDomainRestartDone fail s
  | .railsRestored => Sys2Proof.Machine.execRailsRestored s
  | .standbyEntryDone => Sys2Proof.Machine.execStandbyEntryDone s
  | .standbyWakeDone => Sys2Proof.Machine.execStandbyWakeDone s
  | .warmRestartDone => Sys2Proof.Machine.execWarmRestartDone s
  | .refclkKprLoss => Sys2Proof.Machine.execRefclkKprLoss s
  | .ethernetLinkChange field port up => Sys2Proof.Machine.execEthernetLinkChange field port up s
  | .pcieLinkUp speed width => Sys2Proof.Machine.execPcieLinkUp speed width s
  | .csi2RxLockChange rx locked => Sys2Proof.Machine.execCsi2RxLockChange rx locked s
  | .canBusError ctl tec rec => Sys2Proof.Machine.execCanBusError ctl tec rec s
  | .dramRefresh channel => Sys2Proof.Machine.execDramRefresh channel s

end Sys2Proof.Machine
end

