-- ==== Sys2Proof/Machine/Step.lean ====
section
/-!
DEFINITION. One step: the command at the front of the queue is taken and acts; with no command waiting, the block idles
for one cycle of its clock.
-/
namespace Sys2Proof.Machine

/-- One step of the machine. [DESIGN CHOICE: log 1, 2] -/
def step (s : State) : Host.Outcome State Fault Refusal :=
  match s.pending with
  | [] => .next { s with chip := s.chip.idle }
  | i :: rest => exec i { s with pending := rest }

/-- The state with the command that a table word spells in front of its queue. The table gives no row bits, so no word
spells a command. [DESIGN CHOICE: log 164] -/
def State.withFetchWord (s : State) (_nbits _w : Nat) : State := s

end Sys2Proof.Machine
end

