-- ==== Sys2Proof/WellFormed.lean ====
section
/-!
DEFINITION. Which commands exist at all: every operand that names one of several like things (a queue, a cluster, a channel, a
lane, a network, a dictionary entry) lies in the range the spec gives it. `exec` gives a meaning to every term, well formed or
not: an operand out of its range names nothing, or wraps where a register field would.
-/
namespace Sys2Proof

/-- A requester exists: the host, a network path, a CAN FD controller or the management port (R492, R538, R541). -/
def Origin.wellFormed : Origin → Bool
  | .host => true
  | .net path => decide (1 ≤ path) && decide (path ≤ 0x40)
  | .can ctl => decide (ctl < 4)
  | .mgmt => true

/-- Every operand of a command lies in its range. -/
def Instr.wellFormed : Instr → Bool
  | .keeperSupplyOn => true
  | .keeperSupplyLoss => true
  | .sysResetAssert _ => true
  | .sysResetRelease => true
  | .railOutOfWindow rail _ => decide (rail < 10)
  | .registerWrite addr size _ => decide (addr < 2 ^ 26 + 4096) && [1, 2, 4, 8].contains size
  | .islandStall island unit => decide (island < 112) && decide (unit < 32)
  | .opChangeStart => true
  | .opSettleEnd => true
  | .controlTick => true
  | .commitInstant => true
  | .submissionEntryTake => true
  | .descriptorFetch _ => true
  | .descriptorStart unit => decide (unit < 27)
  | .tileEnd unit _ => decide (unit < 27)
  | .operationResume unit => decide (unit < 27)
  | .operationComplete unit _ => decide (unit < 27)
  | .holdExpire unit => decide (unit < 27)
  | .dspCancel _ => true
  | .dspSigAdd _ _ => true
  | .dspSigWrite _ _ => true
  | .statClear => true
  | .dspCtrlEnable _ => true
  | .nop _ index => decide (index < 65536)
  | .waitUntil _ index => decide (index < 65536)
  | .waitUntilExpire _ index => decide (index < 65536)
  | .sigSet _ index => decide (index < 65536)
  | .timedLaunch entry => decide (entry < 64)
  | .muslinRead addr _ unit _ _ => decide (addr < (2 ^ 40)) && decide (unit < 32)
  | .muslinWrite addr unit _ _ => decide (addr < (2 ^ 40)) && decide (unit < 32)
  | .bitSetWrite addr unit _ _ => decide (addr < (2 ^ 40)) && decide (unit < 32)
  | .bitClearWrite addr unit _ _ => decide (addr < (2 ^ 40)) && decide (unit < 32)
  | .eccWriteback => true
  | .hatomSet _ _ => true
  | .hatomClr _ _ => true
  | .bar2Read addr _ _ _ => decide (addr < (2 ^ 28))
  | .bar2Write addr _ _ => decide (addr < (2 ^ 28))
  | .patrolScrubRead group _ => group.all (fun g => decide (g < 8))
  | .retentionEntry group => decide (group < 8)
  | .retentionWakeDone group => decide (group < 8)
  | .groupFillDone group => decide (group < 8)
  | .btRegionStart _ => true
  | .btRegionEnd bad => bad.all (fun p => decide (p.1 < 8) && decide (p.2.1 < 4) && decide (p.2.2 < 1152))
  | .softRepairSweepDone _ => true
  | .mslRepairApply => true
  | .matmul _ _ => true
  | .pin _ => true
  | .unpin _ => true
  | .slotSave _ _ => true
  | .slotLoad _ => true
  | .columnTest _ failing _ => failing.all (fun k => decide (k < 264))
  | .dmkSpareRequest _ => true
  | .spareSwapStart => true
  | .spareSwapWaitTimeout => true
  | .spareSwapEnd _ badPins => badPins.all (fun n => decide (n < 32))
  | .scan _ _ => true
  | .anchor _ => true
  | .checkpoint _ _ => true
  | .restore _ => true
  | .kvWrite seq => decide (seq < 2048)
  | .kvSwap seq => decide (seq < 2048)
  | .kvInvalidate seq => decide (seq < 2048)
  | .kvClearHeld seq => decide (seq < 2048)
  | .kvResume slot => decide (slot < 16)
  | .kvAbandon slot => decide (slot < 16)
  | .kvFence => true
  | .kvFenceDone => true
  | .atuFreePush _ => true
  | .attnDecode => true
  | .attnPrefill => true
  | .unary cluster _ _ => decide (cluster < 18)
  | .binary cluster _ _ => decide (cluster < 18)
  | .ternary cluster _ _ => decide (cluster < 18)
  | .reduce cluster _ _ => decide (cluster < 18)
  | .cumulative cluster _ _ => decide (cluster < 18)
  | .softmax cluster _ _ => decide (cluster < 18)
  | .norm cluster _ _ => decide (cluster < 18)
  | .optim cluster _ _ => decide (cluster < 18)
  | .topk cluster _ _ => decide (cluster < 18)
  | .sample cluster _ _ => decide (cluster < 18)
  | .convert cluster _ _ => decide (cluster < 18)
  | .layout cluster _ _ => decide (cluster < 18)
  | .rope cluster _ _ => decide (cluster < 18)
  | .loss cluster _ _ => decide (cluster < 18)
  | .backward cluster _ _ => decide (cluster < 18)
  | .stats cluster _ _ => decide (cluster < 18)
  | .shadowScan cluster _ _ => decide (cluster < 18)
  | .vmatmul cluster _ _ => decide (cluster < 18)
  | .copy port _ => decide (port < 2)
  | .fill port => decide (port < 2)
  | .hostCompletionTimeout port => decide (port < 2)
  | .twlRemove cluster _ _ => decide (cluster < 18)
  | .twlTest cluster => decide (cluster < 18)
  | .twlReturn cluster => decide (cluster < 18)
  | .twlActivate cluster => decide (cluster < 18)
  | .twlKatEnd _ => true
  | .twlDrainDone => true
  | .twlGngPairWrite _ => true
  | .functionLevelReset => true
  | .hotReset => true
  | .perstAssert => true
  | .perstRelease => true
  | .linkDown => true
  | .queueEnable queue => decide (queue < 32768)
  | .queueDisable queue => decide (queue < 32768)
  | .queueQuery queue => decide (queue < 32768)
  | .doorbellWrite offset size _ => decide (offset < 131072) && [1, 2, 4, 8].contains size
  | .spillDrain queue => decide (queue < 32768)
  | .coalesceTimerExpire queue => decide (queue < 32768)
  | .dramRead addr unit errors _ => decide (addr < (2 ^ 40)) && decide (unit < 32) && errors.all (fun p => decide (p.1 < 68))
  | .dramWrite addr unit _ errors _ => decide (addr < (2 ^ 40)) && decide (unit < 32) && errors.all (fun p => decide (p.2.1 < 68))
  | .dramCeWriteback => true
  | .dramScrub errors => errors.all (fun p => decide (p.1 < 68))
  | .drcRetire _ _ => true
  | .retireCopyDone errors => errors.all (fun p => decide (p.2.1 < 68))
  | .drcPairRetire _ => true
  | .pairRetireDone => true
  | .drcTrainStart => true
  | .drcTrainRestore => true
  | .trainingDone _ => true
  | .wck2dqCorrection channel => decide (channel < 16)
  | .dramTempRead derate _ => decide (derate < 8)
  | .refreshManagement channel => decide (channel < 16)
  | .selfRefreshEntry => true
  | .selfRefreshExit => true
  | .csi2FrameStart rx vc frameNumber _ => decide (rx < 8) && decide (vc < 16) && decide (frameNumber < 65536)
  | .csi2LongPacket rx vc dataType payload _ _ full => decide (rx < 8) && decide (vc < 16) && decide (dataType < 64) &&
      decide (payload.length < 65536) && full.all (fun p => decide (p < 16))
  | .csi2FrameEnd rx vc _ => decide (rx < 8) && decide (vc < 16)
  | .frameRecordWrite pipe => decide (pipe < 16)
  | .sensorEthFrame port _ frame _ => decide (port < 2) && decide (frame.length ≤ 9018)
  | .scanClose filter => decide (filter < 16)
  | .spiDrdyEdge port _ => decide (port < 2)
  | .spiTimedStart port => decide (port < 2)
  | .spiTransactionEnd port _ => decide (port < 2)
  | .triggerEpoch group => decide (group < 4)
  | .triggerAssert output => decide (output < 16)
  | .triggerDeassert output => decide (output < 16)
  | .batch units _ => decide (1 ≤ units)
  | .fuse units _ => decide (1 ≤ units)
  | .trackImport => true
  | .trackExport => true
  | .trackDelete _ => true
  | .trackConfirm _ => true
  | .trackCmdDeferredApply => true
  | .plan _ => true
  | .planBudgetExpire => true
  | .tulRepair _ => true
  | .worldEdit _ => true
  | .tulleEnable => true
  | .tulleReady => true
  | .cnvLoad inst => decide (inst < 2)
  | .cnvSolve inst _ _ _ => decide (inst < 2)
  | .cnvUnload inst => decide (inst < 2)
  | .cnvRemove inst _ => decide (inst < 2)
  | .cnvTest inst => decide (inst < 2)
  | .cnvReturn inst => decide (inst < 2)
  | .cnvDrainDone inst => decide (inst < 2)
  | .cnvKatEnd inst _ => decide (inst < 2)
  | .jerseyTick sd parity => decide (sd.length ≤ 16) && sd.all (fun k => decide (Nat.log2 k < 766)) && parity.all (fun k => decide (k < 256))
  | .jerseyQueueTake slot => decide (slot < 8)
  | .pwmPeriodStart p => decide (p < 48)
  | .pulseInputEdge input _ _ => decide (input < 16)
  | .jrsSwap _ => true
  | .jrsSwapKatEnd _ => true
  | .jrsSwapLoad _ => true
  | .jrsSwapDone => true
  | .jerseyDisable => true
  | .tkuSnap => true
  | .tkuSet _ => true
  | .tkuStep _ => true
  | .forcePending => true
  | .relock => true
  | .offsetArrive _ _ _ => true
  | .offsetSubmit _ => true
  | .holdoverTimeout => true
  | .ptpEventRx port _ => decide (port < 2)
  | .ptpEventTx port _ => decide (port < 2)
  | .txTimestampCapture port id => decide (port < 2) && decide (id < 65536)
  | .txtsPop => true
  | .odxRead origin session index sub _ => origin.wellFormed && decide (session < 256) && decide (index < 65536) && decide (sub < 256)
  | .odxDescribe origin index sub => origin.wellFormed && decide (index < 65536) && decide (sub < 256)
  | .odxOpen origin _ => origin.wellFormed
  | .odxStage origin session index sub _ _ => origin.wellFormed && decide (session < 256) && decide (index < 65536) && decide (sub < 256)
  | .odxCommit origin session _ _ => origin.wellFormed && decide (session < 256)
  | .odxAbort origin session _ => origin.wellFormed && decide (session < 256)
  | .odxWrite origin session index sub _ _ => origin.wellFormed && decide (session < 256) && decide (index < 65536) && decide (sub < 256)
  | .netSessionOpen path session _ => decide (1 ≤ path) && decide (path ≤ 0x44) && decide (session < 8)
  | .netSessionCommit path session _ _ => decide (1 ≤ path) && decide (path ≤ 0x44) && decide (session < 8)
  | .netSessionAbort path session _ => decide (1 ≤ path) && decide (path ≤ 0x44) && decide (session < 8)
  | .odxNote origin value _ => origin.wellFormed && decide (value.length < 9)
  | .odxSave origin _ => origin.wellFormed
  | .clearImage origin _ => origin.wellFormed
  | .saveDone => true
  | .sessionExpire session => decide (session < 8)
  | .journalMirror _ => true
  | .tagPersist _ => true
  | .fieldFrameRx port frame _ => decide (port < 2) && decide (frame.length ≤ 9018)
  | .hostTxProd port _ => decide (port < 2)
  | .hostTxFrameDone port => decide (port < 2)
  | .gateListEntry port => decide (port < 2)
  | .streamGateEntry port gate => decide (port < 2) && decide (gate < 32)
  | .preemptVerifyDone port => decide (port < 2)
  | .gwepoSyncTx port _ => decide (port < 2)
  | .gwepoInHeader node _ _ header => decide (node < 64) && decide (header.length < 65)
  | .gwepoInFrameEnd node _ _ => decide (node < 64)
  | .gwepoInWindowClose node => decide (node < 64)
  | .gwepoAcycReq node _ _ => decide (node < 64)
  | .gwepoAcycRspTx => true
  | .sdoRequest ctl _ data => decide (ctl < 4) && decide (data.length ≤ 64)
  | .sdoSegmentTimeout ctl => decide (ctl < 4)
  | .canHeartbeat ctl => decide (ctl < 4)
  | .canBusOffRecovery ctl => decide (ctl < 4)
  | .estimateWindowEnd counts => decide (counts.length = 26)
  | .pmbusRead _ => true
  | .thermalSample readings => decide (readings.length = 32)
  | .domainStateSelect => true
  | .domainWakeDone domain => decide (domain < 24)
  | .prewake entry => decide (entry < 64)
  | .standby _ _ => true
  | .standbyWakePin _ => true
  | .standbyWakeTime => true
  | .frameDeadline net => decide (net < 8)
  | .networkStale net => decide (net < 8)
  | .heartbeatToggle => true
  | .goldenSlot net => decide (net < 8)
  | .goldenGrant net => decide (net < 8)
  | .goldenLatestExpire net => decide (net < 8)
  | .gngFaultClear _ => true
  | .powerSequenceCheck _ _ => true
  | .fuseLoad f => f.damaskSpares.all (fun p => decide (p.1 < 8) && decide (p.2 < 32)) &&
      f.twillFailed.all (fun k => decide (k < 18)) && f.muslinRepairs.all (fun p => decide (p.1 < 64) && decide (p.2.1 < 36) &&
        decide (p.2.2.1 < 1024) && decide (p.2.2.2 < 8))
  | .clockIslandStart failed => failed.all (fun k => decide (k < 112))
  | .keeperRestore => true
  | .muslinTest _ _ failing multi margin => failing.all (fun p => decide (p.1 < 64) && decide (p.2.1 < 36) && decide (p.2.2 < 1024)) &&
      multi.all (fun k => decide (k < 2048)) && margin.all (fun k => decide (k < 2048))
  | .dramTraining _ _ => true
  | .dramTest _ _ => true
  | .repairApply => true
  | .knownAnswerRuns _ _ _ _ _ => true
  | .dictionaryLoad => true
  | .queueSetup => true
  | .bupReady => true
  | .stageEnd _ => true
  | .stageAbort => true
  | .repairRecordAppend _ _ => true
  | .repairAppendDone _ => true
  | .domainRestart _ => true
  | .warmRestart => true
  | .domainRestartDone _ => true
  | .railsRestored => true
  | .standbyEntryDone => true
  | .standbyWakeDone => true
  | .warmRestartDone => true
  | .refclkKprLoss => true
  | .ethernetLinkChange _ port _ => decide (port < 2)
  | .pcieLinkUp speed width => decide (speed < 16) && decide (width < 64)
  | .csi2RxLockChange rx _ => decide (rx < 8)
  | .canBusError ctl tec rec => decide (ctl < 4) && decide (tec < 512) && decide (rec < 256)
  | .dramRefresh channel => decide (channel < 16)

end Sys2Proof
end

