-- ==== Sys2Proof/Safety.lean ====
section
/-!
DEFINITION. The words that statements about the KB9 use: what a command answers and where its effect stays, when a tile's work is
done, when a stretch of memory can be read or written without a fault, and the states of reset and sleep.
-/
namespace Sys2Proof.Machine

/-! ## Answers and frames -/

/-- `d` differs from `c` at most in the parts `ps`. -/
def Chip.within (c d : Chip) (ps : List Part) : Prop := d.only ps c = d

/-- Command `i` answers a next state, in which the queue is as it was and `P` holds of the chip. -/
def Answers (s : State) (i : Instr) (P : Chip → Prop) : Prop := ∃ d, exec i s = .next { s with chip := d } ∧ P d

/-- Every register field apart from the listed ones reads in `d` as it read in `c`. -/
def Chip.regsKept (c d : Chip) (but : List (Field × Nat)) : Prop :=
  ∀ (f : Field) (i : Nat), but.all (fun p => f.apart i p.1 p.2) = true → d.rd f i = c.rd f i

/-- Every byte of Muslin outside the `n` bytes at offset `a` reads in `d` as it read in `c`. -/
def Chip.muslinKept (c d : Chip) (a n : Nat) : Prop := ∀ x, x < a ∨ a + n ≤ x → d.muslin.get x = c.muslin.get x

/-- Every byte of DRAM outside the `n` bytes at offset `a` reads in `d` as it read in `c`. -/
def Chip.dramKept (c d : Chip) (a n : Nat) : Prop := ∀ x, x < a ∨ a + n ≤ x → d.drc.get x = c.drc.get x

/-- Every dictionary entry apart from the listed keys reads in `d` as it read in `c`. -/
def Chip.entriesKept (c d : Chip) (but : List Nat) : Prop :=
  ∀ i s, but.contains (entryKey i s) = false → d.entry i s = c.entry i s

/-- The journal of `d` has one record more than that of `c`: its newest, stamped with the time, with the fields `f`. -/
def Chip.journalled (c d : Chip) (f : JournalFields) : Prop :=
  d.odx.journal.head? = some (journalRecord c.odx.nextSeq d.now f) ∧ d.odx.nextSeq = c.odx.nextSeq + 1 ∧
    d.entry 0xA000 1 = c.odx.nextSeq + 1

/-- Whether a request of an origin is heard: the management core's in domain 0, the host's while its accesses are served, another's
while every domain is supplied. -/
def Chip.hears (c : Chip) (o : Origin) : Prop :=
  match o with
  | .mgmt => c.live = true
  | .host => c.heard = true
  | _ => c.awake = true

/-- A dictionary request was answered with a status and a value, and nothing else left the chip; the host finds both in its mailbox. -/
def Chip.replied (c d : Chip) (o : Origin) (status : Nat) (data : List Byte) : Prop :=
  d.sent = ⟨.mailbox, status, (match o with | .mgmt => 0x100 | _ => originPath o), data⟩ :: c.sent ∧
    (o = .host → d.rd R.ODX_RSP_STATUS = status ∧ d.rd R.ODX_RSP_LENGTH = data.length)

/-- The journal record of a request has the port, path and node it came from. -/
def JournalFields.from (f : JournalFields) (o : Origin) : JournalFields :=
  { f with port := originPort o, path := journalPath (originPort o) (originPath o), node := journalNode (originPort o) (originPath o) }

/-- Gingham is disabled and follows no frame and no golden run. -/
def Chip.gngIdle (c : Chip) : Prop :=
  c.gngOn = false ∧ c.gng.frames = [] ∧ c.gng.golden = [] ∧ c.gng.logs = [] ∧ c.gng.dirty = false

/-! ## Tiles -/

/-- Nothing outside a command's own work holds its memory accesses back: the DMA ports accept DRAM requests, no Muslin group keeps
requests at its crossing, and the DRAM channels are not in self-refresh (R26, R313, R317). -/
def Chip.flows (c : Chip) : Prop :=
  c.on R.DRC_CTRL_QUIESCE = false ∧ c.groupsHold = false ∧ c.drc.selfRefresh = false

/-- An operation of an engine and opcode runs on a unit and waits for its next tile, and nothing holds that tile back: Damask issues,
the DMA ports accept DRAM requests, no Muslin group keeps requests at its crossing, and the DRAM channels are not in self-refresh (R26,
R29, R313, R317). -/
def Chip.awaitsTile (c : Chip) (u : Nat) (o : OpRun) (engine opcode : Nat) : Prop :=
  c.awake = true ∧ c.op? u = some o ∧ o.awaits engine opcode = true ∧ (u ≤ 1 → c.damaskHeld = false) ∧
    c.on R.DRC_CTRL_QUIESCE = false ∧ c.groupsHold = false ∧ c.drc.selfRefresh = false

/-- A tile of an operation is done: the operation is still on its unit, the same one with the results of the tile, and now awaits
TILE_END, unless the work ended it with a status; no other unit, no weave, no suspended operation and no chain is touched. -/
def TileDone (c : Chip) (u : Nat) (o : OpRun) (d : Chip) : Prop :=
  (∃ r, d.op? u = some (o.worked r)) ∧ (∀ v, v ≠ u → d.op? v = c.op? v) ∧ d.dsp.weaves = c.dsp.weaves ∧
    d.dsp.suspended = c.dsp.suspended ∧ d.dsp.chains = c.dsp.chains

/-- Command `i` runs the next tile of operations of an engine and opcode on unit `u`: an operation that has begun, or whose
parameters pass `check`, has that tile done; one that fails the check ends with the status of the check, and nothing else
changes. -/
def TileCommand (i : Instr) (u engine opcode : Nat) (ps : List Part) (check : Chip → OpRun → Nat) : Prop :=
  ∀ (s : State) (o : OpRun), s.chip.awaitsTile u o engine opcode →
    ((o.begun = true ∨ check s.chip.untouched o = St.OK) →
      Answers s i (fun d => s.chip.within d ps ∧ TileDone s.chip u o d)) ∧
    (o.begun = false → check s.chip.untouched o ≠ St.OK →
      Answers s i (fun d => d.op? u = some (o.ends (check s.chip.untouched o)) ∧ s.chip.within d [.dsp, .msl, .drc] ∧
        d.drc = s.chip.untouched.drc ∧ d.msl = s.chip.untouched.msl ∧ ∀ v, v ≠ u → d.op? v = s.chip.op? v))

/-! ## Memory -/

/-- A stretch of Muslin within one bank group that reads at once and without a fault: the group is active, no line of it isolated, and
no word of it poisoned (R26, R108). -/
def Chip.readable (c : Chip) (off n : Nat) : Prop :=
  off % 2 ^ 25 + n ≤ 2 ^ 25 ∧ c.groupActive (groupOf off) = true ∧ c.linesServe off n = true ∧ c.poisonedIn off n = none

/-- A stretch of Muslin that can be read and is not write-protected (R134). -/
def Chip.writable (c : Chip) (off n : Nat) : Prop := c.readable off n ∧ c.protectedIn off n = false

/-- A unit runs no operation, or one of an engine other than Damask that has not finished: what a request of it meets ends it, and
changes no stream's state in Muslin (R190). -/
def Chip.plainOn (c : Chip) (u : Nat) : Prop := ∀ o, c.op? u = some o → o.finished = false ∧ Desc.engine o.raw ≠ 0

/-! ## Bring-up -/

/-- The stage of bring-up that a command starts (R597). -/
def stageNumber : Instr → Option Nat
  | .powerSequenceCheck .. => some 1
  | .fuseLoad _ => some 2
  | .clockIslandStart _ => some 3
  | .keeperRestore => some 4
  | .muslinTest .. => some 5
  | .dramTraining .. => some 6
  | .dramTest .. => some 7
  | .repairApply => some 8
  | .knownAnswerRuns .. => some 9
  | .dictionaryLoad => some 10
  | .queueSetup => some 11
  | .bupReady => some 12
  | _ => none

/-- Stage `n` has ended with a RESULT, `ms` after its start (R598): nothing runs, a pass shows in LAST_PASSED, a degraded one in
DEGRADED too, and vector 19 is pending. -/
def Chip.stageEnded (c d : Chip) (n result ms : Nat) : Prop :=
  d.bup.stage = none ∧ d.rd R.BUP_CMD_BUSY = 0 ∧ d.rd R.BUP_CMD_RESULT = result ∧ d.rd R.BUP_ELAPSED_MS_MS = ms % 2 ^ 32 ∧
    d.rd R.BUP_STATUS_LAST_PASSED = (if result = 1 ∨ result = 2 then n else c.rd R.BUP_STATUS_LAST_PASSED) ∧
    (result = 2 → d.rd R.BUP_STATUS_DEGRADED = 1) ∧ (d.rd R.HIF_EVT_PEND_PEND).testBit 19 = true

/-! ## Reset, sleep and the queue -/

/-- Everything is as reset leaves it, but for what reset does not reach (R25): host memory, the Keeper's flash, what has left the chip,
the level of PERST_N, the board's pins; DRAM has lost its contents. -/
def Chip.asReset (c : Chip) : Prop :=
  c = { Chip.reset with
        host := c.host, flash := c.flash, sent := c.sent, fresh := c.fresh, pkg := c.pkg,
        hif := { Chip.reset.hif with perst := c.hif.perst }, drc := { Chip.reset.drc with epoch := c.drc.epoch } }

/-- Every weave in flight has a handle of its own, given out in rising order. -/
def Dsp.handles (d : Dsp) : Prop := (d.weaves.map (·.id)).Pairwise (· < ·) ∧ ∀ w ∈ d.weaves, w.id < d.nextId

/-- Commands that are levels of the board's pins: they act whether or not the KB9 runs (R25, R635, R638). -/
def pinCommand : Instr → Bool
  | .keeperSupplyOn | .keeperSupplyLoss | .sysResetAssert _ | .sysResetRelease | .refclkKprLoss | .perstAssert | .perstRelease
  | .railOutOfWindow .. | .railsRestored => true
  | _ => false

/-- Commands that domain 0 serves by itself while the other domains are off (R25, R566, R622). -/
def keeperCommand : Instr → Bool
  | .controlTick | .commitInstant | .estimateWindowEnd _ | .pmbusRead _ | .thermalSample _ | .holdoverTimeout | .sessionExpire _
  | .saveDone | .journalMirror _ | .tagPersist _ | .repairAppendDone _ | .standbyWakePin _ | .standbyWakeTime | .standbyWakeDone
  | .warmRestartDone | .odxRead .mgmt .. | .odxDescribe .mgmt .. | .odxOpen .mgmt _ | .odxStage .mgmt .. | .odxCommit .mgmt ..
  | .odxAbort .mgmt .. | .odxWrite .mgmt .. | .odxNote .mgmt .. | .odxSave .mgmt _ | .clearImage .mgmt _ => true
  | _ => false

/-- Commands that are accesses of the host through BAR0, BAR2 or BAR4 (R269): the host interface serves none in D3hot (R271). A write of a
register is not among them: the registers of configuration space are written in D3hot too. -/
def hostCommand : Instr → Bool
  | .kvWrite .. | .kvSwap .. | .kvInvalidate .. | .kvClearHeld .. | .kvFence .. | .atuFreePush .. | .kvResume .. | .kvAbandon ..
  | .powerSequenceCheck .. | .fuseLoad _ | .clockIslandStart _ | .keeperRestore | .muslinTest .. | .dramTraining .. | .dramTest ..
  | .repairApply | .knownAnswerRuns .. | .dictionaryLoad | .queueSetup | .bupReady | .stageAbort
  | .cnvRemove .. | .cnvTest .. | .cnvReturn .. | .dmkSpareRequest .. | .drcRetire .. | .drcPairRetire .. | .drcTrainStart ..
  | .drcTrainRestore | .hostTxProd .. | .gngFaultClear .. | .jerseyDisable | .jrsSwap ..
  | .bar2Read .. | .bar2Write .. | .hatomSet .. | .hatomClr .. | .mslRepairApply ..
  | .odxRead .host .. | .odxDescribe .host .. | .odxOpen .host _ | .odxStage .host .. | .odxCommit .host .. | .odxAbort .host ..
  | .odxWrite .host .. | .odxNote .host .. | .odxSave .host _ | .clearImage .host _
  | .warmRestart | .standby .. | .queueEnable .. | .queueDisable .. | .queueQuery .. | .doorbellWrite ..
  | .repairRecordAppend .. | .domainRestart .. | .tkuSnap | .tkuSet _ | .tkuStep _ | .forcePending | .relock | .offsetSubmit _ | .txtsPop
  | .trackDelete .. | .trackConfirm .. | .tulleEnable .. | .twlRemove .. | .twlTest .. | .twlReturn .. | .twlActivate ..
  | .twlGngPairWrite .. | .dspCancel .. | .dspSigAdd .. | .dspSigWrite .. | .statClear .. | .dspCtrlEnable .. => true
  | _ => false

/-- Commands that can step the clock (R476, R487 to R489). -/
def stepsClock : Instr → Bool
  | .tkuSet _ | .tkuStep _ | .forcePending | .offsetSubmit _ | .offsetArrive .. => true
  | _ => false

/-- Commands that end a write of the Keeper's flash. -/
def writesFlash : Instr → Bool
  | .saveDone | .journalMirror _ | .tagPersist _ | .repairAppendDone _ | .stageEnd _ => true
  | _ => false

/-- The lists that stand for a fixed number of like things have that number of elements. -/
def Chip.sized (c : Chip) : Prop :=
  c.odx.sessions.length = 8 ∧ c.cnv.length = 2 ∧ c.gze.pipes.length = 16 ∧ c.gze.filters.length = 16 ∧ c.gze.spi.length = 2 ∧
    c.gze.groups.length = 4 ∧ c.gze.outputs.length = 16 ∧ c.jrs.pulse.length = 16 ∧ c.jrs.pins.length = 48

/-! ## Numbers -/

/-- The value of a finite number; 0 for an infinity or NaN. -/
def Num.rat : Num → ℚ
  | .fin n m e => (if n then -1 else 1) * m * 2 ^ e
  | _ => 0

/-- The exponent of R51's q: the spacing of a format's values at `x` is `2^q`. -/
def spacing (code r : Nat) (x : Num) : Option Int :=
  match fmtKind code with
  | .int _ _ => some 0
  | .flt f => some (max x.expOf f.emin - f.mbits)
  | .q32 => some (-(r : Int))
  | .reserved => none

/-- The magnitude of the largest finite value of a format, of the sign `n` (R37 to R39). -/
def formatMax (code r : Nat) (n : Bool) : ℚ :=
  match fmtKind code with
  | .int w s => intLimit w s n
  | .flt f => (f.decode f.maxBits).rat
  | .q32 => intLimit 32 true n * 2 ^ (-(r : Int))
  | .reserved => 0

/-- `up` of R51, for the integer part `k` and the fraction `d`; `g` is the generator's next state. -/
def roundsUp (rnd k : Nat) (d : ℚ) (g : BitVec 32) : Prop :=
  rnd = 0 ∧ (1 / 2 < d ∨ d = 1 / 2 ∧ k % 2 = 1) ∨ rnd = 2 ∧ 65536 ≤ ⌊d * 65536⌋ + ((g >>> 16).toNat : ℤ)

end Sys2Proof.Machine
end

