-- ==== Sys2Proof/Certificates/Slice0/Obligations.lean ====
section
/-!
DEFINITION. The statements about the KB9, one for each rule or group of rules that says what a command or the whole block does.
-/
open Sys2Proof Sys2Proof.Machine


/-! ## The whole block -/

/-- A step takes the command at the front of the queue and answers what the command does to the rest of the state, with the queue's
rest. On an empty queue the KB9's clock advances by one cycle (the model's choice of what an idle step is, log entry 1): 2 ns and
RATE_ADJ units of `2^-32` ns, SECONDS wrapping (R471); while the KB9 does not act, nothing changes. -/
def Obligations.StepRunsTheFrontCommand : Prop :=
  (∀ (c : Chip) (i : Instr) (rest : List Instr), step ⟨c, i :: rest⟩ = exec i ⟨c, rest⟩) ∧
  (∀ (c : Chip), c.live = false → step ⟨c, []⟩ = .next ⟨c, []⟩) ∧
  (∀ (c : Chip), c.live = true → ∃ d, step ⟨c, []⟩ = .next ⟨d, []⟩ ∧ c.within d [.tku] ∧ { d.tku with clock := c.tku.clock } = c.tku ∧
    (d.tku.clock : Int) = ((c.tku.clock : Int) + 2 * 2 ^ 32 + toSigned 32 (c.rd R.TKU_RATE_ADJ_RATE_ADJ)) % (2 ^ 48 * 1000000000 * 2 ^ 32))

/-- R25, R474, R596: right after reset no command waits and nothing is in flight; every register reads its reset value and every
entry its default, but for the two that the BOOT record moves; the clock stands at 0 in FREE_RUN with RATE_ADJ 0; no stage has
passed; the journal holds the BOOT record; and every invariant stated of the block holds.
The model's choices in it: log entries 119, 157. -/
def Obligations.ResetState : Prop :=
  State.reset.pending = [] ∧ Chip.reset.live = true ∧ Chip.reset.awake = true ∧ Chip.reset.tku.clock = 0 ∧
    Chip.reset.rd R.TKU_STATUS_STATE = 0 ∧ Chip.reset.rd R.TKU_RATE_ADJ_RATE_ADJ = 0 ∧ Chip.reset.rd R.BUP_STATUS_LAST_PASSED = 0 ∧
    Chip.reset.rd R.BUP_STATUS_READY = 0 ∧ Chip.reset.rd R.DSP_CTRL_ENABLE = 0 ∧ Chip.reset.rd R.QMG_CTRL_ENABLE = 0 ∧
    (∀ a, Chip.reset.regs.get a = resetWord a) ∧
    (∀ i x, entryKey i x ≠ entryKey 0xA000 1 → entryKey i x ≠ entryKey 0xA000 2 → Chip.reset.entry i x = entryDefault i x) ∧
    Chip.reset.entry 0xA000 1 = 2 ∧ Chip.reset.entry 0xA000 2 = 1 ∧
    Chip.reset.odx.journal = [journalRecord 1 0 { kind := 1, port := 3 }] ∧ Chip.reset.dsp.weaves = [] ∧
    (∀ u, Chip.reset.op? u = none) ∧ Chip.reset.qmg.queues = [] ∧ (∀ a, Chip.reset.muslin.get a = Memory.blank) ∧
    Chip.reset.asReset ∧ Chip.reset.dsp.handles ∧ Chip.reset.sized ∧ Chip.reset.msl.groups.length = 8 ∧
    Memory.wf Chip.reset.muslin = true ∧ Memory.wf Chip.reset.host = true

/-- No command of the table ends in a fault or a refusal: a step answers a next state whose queue is the rest of the queue, and as
many steps as commands wait empty the queue. -/
def Obligations.EveryCommandAnswers : Prop :=
  (∀ s : State, ∃ t, step s = .next t ∧ t.pending = s.pending.tail) ∧
  (∀ s : State, ∃ t, core.run s.pending.length s = .next t ∧ t.pending = [])

/-- R25, R635, R638: while the Keeper is not supplied, SYS_RESET_N is low or REFCLK_KPR has stopped, only a pin changes anything;
while the other domains are off, only a pin and what domain 0 serves do. R271: in D3hot no access of the host through a BAR does. While
the Keeper is not supplied or SYS_RESET_N is low, everything stays as reset leaves it: an invariant that every step keeps. The model's
choices in it: log entries 5, 167. -/
def Obligations.HeldInReset : Prop :=
  (∀ (s t : State), step s = .next t → s.chip.live = false → (∀ i, s.pending.head? = some i → pinCommand i = false) →
    t.chip = s.chip) ∧
  (∀ (s t : State) (i : Instr), step s = .next t → s.chip.awake = false → s.pending.head? = some i → pinCommand i = false →
    keeperCommand i = false → t.chip = s.chip) ∧
  (∀ (s t : State) (i : Instr), step s = .next t → s.chip.heard = false → s.pending.head? = some i → hostCommand i = true →
    t.chip = s.chip) ∧
  (∀ (s t : State), step s = .next t → (s.chip.pkg.keeper = false ∨ s.chip.pkg.resetLow = true → s.chip.asReset) →
    (t.chip.pkg.keeper = false ∨ t.chip.pkg.resetLow = true → t.chip.asReset))

/-- Every weave in flight keeps a handle of its own, in the order in which the weaves entered flight: an invariant that every step
keeps. -/
def Obligations.HandlesStayDistinct : Prop :=
  ∀ (s t : State), step s = .next t → s.chip.dsp.handles → t.chip.dsp.handles

/-- The sessions, Canvas instances, Gauze pipes, filters, SPI ports, trigger groups and outputs, and Jersey's pulse inputs and pins
stay as many as the KB9 has: an invariant that every step keeps. -/
def Obligations.ArraysKeepTheirSize : Prop :=
  ∀ (s t : State), step s = .next t → s.chip.sized → t.chip.sized

/-- Muslin has eight bank groups, and its bytes and those of host memory keep the one canonical form in which a memory is listed:
addresses strictly rise, and no listed byte is what an unlisted one reads as. An invariant that every step keeps. -/
def Obligations.MemoriesKeepTheirForm : Prop :=
  ∀ (s t : State), step s = .next t →
    s.chip.msl.groups.length = 8 ∧ Memory.wf s.chip.muslin = true ∧ Memory.wf s.chip.host = true →
    t.chip.msl.groups.length = 8 ∧ Memory.wf t.chip.muslin = true ∧ Memory.wf t.chip.host = true

/-- R472: the clock never runs backward; only a step of the TKU moves it back, the wrap of SECONDS, or a reset, which starts it at
0. R474: no reset of the host interface, no Standby and no warm restart changes it. The Keeper's flash changes only as a write of it
ends: of a saved image, the mirror, the tags, a repair record, or a bring-up stage. The model's choices in it: log entry 1. -/
def Obligations.ClockAndFlash : Prop :=
  (∀ (s t : State), step s = .next t → (∀ i, s.pending.head? = some i → stepsClock i = false) →
    s.chip.tku.clock ≤ t.chip.tku.clock ∨ t.chip.asReset ∧ t.chip.tku.clock = 0 ∨
      s.pending = [] ∧ clockWrap ≤ s.chip.tku.clock + 2 * 2 ^ 32 + 2 ^ 31) ∧
  (∀ (s t : State) (i : Instr), step s = .next t → s.pending.head? = some i →
    i ∈ [.functionLevelReset, .hotReset, .linkDown, .perstAssert, .perstRelease, .standbyEntryDone, .standbyWakeDone, .warmRestart,
      .warmRestartDone, .railsRestored] → t.chip.tku = s.chip.tku) ∧
  (∀ (s t : State), step s = .next t → (∀ i, s.pending.head? = some i → writesFlash i = false) → t.chip.flash = s.chip.flash)

/-! ## Registers, commit instants and events (chapters 00, 01, 09, 17) -/

/-- R6, R273: a host write of another size than a word, or that is not aligned, is dropped and sets BAD_ACCESS; one that no register
occupies changes nothing. R271: in D3hot a write in BAR0 does nothing, and a write of configuration space is served, but for a power
state that does not exist. A field with access RW takes its bits of the word, one with W1C is cleared by a 1 and left by a 0, one with
RO keeps its value; no other word changes. R98, R299, R300, R92, R121, R280: an enable is ignored before stage 11, the base registers of an
enabled unit and the fields of an enabled launch entry are kept, RET_IDLE_US is at least 1, and a write that unmasks a pending
vector sends it. The model's choices in it: log entries 10, 11, 12, 13, 167. -/
def Obligations.RegisterWrites : Prop :=
  (∀ (s : State) (a size : Nat) (v : Word), s.chip.heard = true → size ≠ 4 ∨ a % 4 ≠ 0 →
    Answers s (.registerWrite a size v) (fun d => d = if a < 2 ^ 26 then s.chip.latch R.HIF_STATUS_BAD_ACCESS else s.chip)) ∧
  (∀ (s : State) (a : Nat) (v : Word), s.chip.heard = true → a % 4 = 0 → findReg a = none →
    Answers s (.registerWrite a 4 v) (fun d => d = s.chip)) ∧
  (∀ (s : State) (a size : Nat) (v : Word), s.chip.heard = false → a < 2 ^ 26 →
    Answers s (.registerWrite a size v) (fun d => d = s.chip)) ∧
  (∀ (s : State) (v : Word), s.chip.awake = true →
    Answers s (.registerWrite R.PCI_PM_STATE.addr 4 v) (fun d => s.chip.within d [.regs] ∧
      d.rd R.PCI_PM_STATE = (if v.toNat % 4 = 1 ∨ v.toNat % 4 = 2 then s.chip.rd R.PCI_PM_STATE else v.toNat % 4) ∧
      ∀ b, b ≠ R.PCI_PM_STATE.addr → d.regs.get b = s.chip.regs.get b)) ∧
  (∀ (s : State) (f : Field) (i : Nat) (v : Word), s.chip.heard = true →
    ((f, i) ∈ [(R.DSP_IDLE_PHASE_PHASE, 0), (R.DSP_CTX_BASE_LO_ADDR_LO, 0), (R.MSL_HATOM_ADDR_WORD, 0), (R.HIF_EVT_MASK_MASK, 0),
      (R.PWR_WAKE_AT_LO_TIME_LO, 0), (R.BUP_REC_LO_DATA_LO, 0)] ∨ f = R.MSL_WP_PROTECT ∧ i < 8) →
    Answers s (.registerWrite (f.base i) 4 v) (fun d => s.chip.within d [.regs] ∧ d.rd f i = bits v.toNat f.lo f.width ∧
      ∀ b, b ≠ f.base i → d.regs.get b = s.chip.regs.get b)) ∧
  (∀ (s : State) (f : Field) (v : Word), s.chip.heard = true →
    f ∈ [R.HIF_STATUS_LINK_DOWN_SEEN, R.HIF_STATUS_RESET_SEEN, R.HIF_STATUS_BAD_ACCESS, R.HIF_STATUS_HOST_ERR, R.MSL_STATUS_UE_LATCH,
      R.MSL_STATUS_WP_HIT, R.PWR_STATUS_OVER_CAP, R.PWR_STATUS_OVER_TEMP, R.PWR_STATUS_ISLAND_STALL] →
    Answers s (.registerWrite (f.base 0) 4 v) (fun d => s.chip.within d [.regs] ∧
      d.rd f = (if v.toNat.testBit f.lo then 0 else s.chip.rd f) ∧ ∀ b, b ≠ f.base 0 → d.regs.get b = s.chip.regs.get b)) ∧
  (∀ (s : State) (v : Word) (n : Nat), s.chip.heard = true → n < 20 →
    Answers s (.registerWrite (R.HIF_EVT_PEND_PEND.base 0) 4 v) (fun d =>
      (d.rd R.HIF_EVT_PEND_PEND).testBit n = ((s.chip.rd R.HIF_EVT_PEND_PEND).testBit n && !v.toNat.testBit n))) ∧
  (∀ (s : State) (f : Field) (v : Word), s.chip.heard = true →
    f ∈ [R.HIF_STATUS_LINK_UP, R.HIF_STATUS_SPEED, R.HIF_STATUS_WIDTH, R.BUP_STATUS_LAST_PASSED, R.BUP_STATUS_READY, R.PWR_STATUS_OP,
      R.MSL_STATUS_GROUP_STATE, R.MSL_ECC_CE_CNT_COUNT] →
    Answers s (.registerWrite (f.base 0) 4 v) (fun d => s.chip.within d [.regs] ∧ d.rd f = s.chip.rd f)) ∧
  (∀ (s : State) (v : Word), s.chip.heard = true → s.chip.rd R.BUP_STATUS_LAST_PASSED < 11 → v.toNat.testBit 0 = true →
    Answers s (.registerWrite R.DSP_CTRL.addr 4 v) (fun d => d.rd R.DSP_CTRL_ENABLE = s.chip.rd R.DSP_CTRL_ENABLE) ∧
    Answers s (.registerWrite R.QMG_CTRL.addr 4 v) (fun d => d = s.chip)) ∧
  (∀ (s : State) (v : Word), s.chip.heard = true →
    (s.chip.on R.QMG_CTRL_ENABLE = true → Answers s (.registerWrite R.QMG_CTX_BASE_LO.addr 4 v) (fun d => d = s.chip)) ∧
    (s.chip.on R.DRC_CTRL_ENABLE = true → Answers s (.registerWrite R.DRC_CFG.addr 4 v) (fun d => d = s.chip)) ∧
    (∀ n k, n < 64 → k < 8 → k ≠ 1 → s.chip.on R.DSP_LAUNCH_ENABLE n = true →
      Answers s (.registerWrite (R.DSP_LAUNCH.addr + 32 * n + 4 * k) 4 v) (fun d => d = s.chip)) ∧
    Answers s (.registerWrite R.MSL_RET_CTRL.addr 4 v) (fun d =>
      d.rd R.MSL_RET_CTRL_RET_IDLE_US = max 1 (bits v.toNat 8 16) ∧ d.rd R.MSL_RET_CTRL_RET_ALLOW = bits v.toNat 0 8)) ∧
  (∀ (s : State) (n : Nat) (v : Word), s.chip.heard = true → n < 2048 → v.toNat.testBit 0 = false →
    s.chip.on R.PCI_MSIX_ENABLE = true → s.chip.on R.PCI_MSIX_FUNCTION_MASK = false →
    (s.chip.regs.get (msixPba n)).getLsbD (n % 32) = true →
    Answers s (.registerWrite (msixControl n) 4 v) (fun d => d.sent = ⟨.msix, n, 0, []⟩ :: s.chip.sent ∧
      (d.regs.get (msixControl n)).getLsbD 0 = false ∧ (d.regs.get (msixPba n)).getLsbD (n % 32) = false))

/-- R33, R506: at a commit instant a session that is due is checked again; one whose values keep every rule is applied whole: each
of its entries takes its new value at the instant, every other parameter keeps its own, the session is free, and the journal has its
APPLY record, stamped with the instant; one that breaks a rule is refused whole, with a REFUSED record. R32: a control tick lies on
a multiple of the period; one at which nothing is due changes no session and writes no record, and starts a Gwepo cycle while the
field ports master one (R529). The model's choices in it: log entry 119. -/
def Obligations.Commits : Prop :=
  (∀ (s : State) (i : Instr) (n t : Nat) (b : Chip), s.chip.live = true → s.chip.odx.sessions.length = 8 → n < 8 →
    (s.chip.session n).state = 2 → (s.chip.session n).commitAt = t → (∀ k, k ≠ n → (s.chip.session k).state ≠ 2) →
    s.chip.odx.implicit = [] →
    (i = .commitInstant ∧ t ≤ 2 ^ 64 ∧ b = s.chip.advanceTo t ∨
      i = .controlTick ∧ t = s.chip.nextControlTick ∧ b = (s.chip.advanceTo t).gridServe gridControl t) →
    (((b.freeSession n).overlay (s.chip.session n).staged).consistent ((s.chip.session n).staged.map (·.1)) = true →
      Answers s i (fun d => s.chip.within d Parts.dictionary ∧ d.now = max s.chip.now t ∧
        (∀ j x, j < 0x6000 → x < 256 → ¬ (0x4D00 ≤ j ∧ j < 0x4E00 ∧ x = 0x14) →
          d.entry j x = (s.chip.overlay (s.chip.session n).staged).entry j x) ∧
        (d.session n).state = 0 ∧ (d.session n).staged = [] ∧ (∀ k, k ≠ n → d.session k = s.chip.session k) ∧
        d.odx.journal.head? = some (journalRecord s.chip.odx.nextSeq t (s.chip.dueSession n).record) ∧
        d.odx.nextSeq = s.chip.odx.nextSeq + 1)) ∧
    (((b.freeSession n).overlay (s.chip.session n).staged).consistent ((s.chip.session n).staged.map (·.1)) = false →
      Answers s i (fun d => s.chip.within d Parts.dictionary ∧ d.now = max s.chip.now t ∧
        (∀ j x, j < 0x6000 → x < 256 → d.entry j x = s.chip.entry j x) ∧
        (d.session n).state = 0 ∧ (d.session n).staged = [] ∧ (∀ k, k ≠ n → d.session k = s.chip.session k) ∧
        d.odx.journal.head? = some (journalRecord s.chip.odx.nextSeq t
          { (s.chip.dueSession n).record with kind := 6, status := St.ODX_INCONSISTENT, index := 0, sub := 0, payload := 0 }) ∧
        d.odx.nextSeq = s.chip.odx.nextSeq + 1))) ∧
  (∀ (s : State), s.chip.live = true → (∀ k ∈ s.chip.odx.sessions, k.state ≠ 2) → s.chip.odx.implicit = [] →
    (Answers s .commitInstant (fun d => d = s.chip)) ∧
    (Answers s .controlTick (fun d => s.chip.within d Parts.dictionary ∧ d.odx = s.chip.odx ∧
      d.now = max s.chip.now s.chip.nextControlTick ∧ s.chip.nextControlTick % s.chip.controlPeriod = 0 ∧
      (∀ j x, j < 0x6000 → x < 256 → d.entry j x = s.chip.entry j x) ∧
      (s.chip.on R.FLD_CTRL_ENABLE = true → s.chip.gwepoOn = true → d.fld.cycle = some s.chip.nextControlTick ∧
        d.rd R.FLD_CYCLE_CYCLE = s.chip.nextControlTick / s.chip.controlPeriod % 2 ^ 32))))

/-- R280: a block that raises its event sets bit n of HIF_EVT_PEND. When the bit goes from 0 to 1 and bit n of HIF_EVT_MASK is 0,
vector n is sent, or, while the vector is masked in the MSI-X table or by Function Mask, its pending bit is set; a bit that is 1 already
sends nothing more, and while MSI-X is not enabled nothing is sent. -/
def Obligations.EventsAreRaised : Prop :=
  ∀ (c : Chip) (n : Nat), n < 20 → (c.raise n).rd R.HIF_EVT_PEND_PEND = c.rd R.HIF_EVT_PEND_PEND ||| 2 ^ n ∧
    (c.on R.PCI_MSIX_ENABLE = false → (c.raise n).sent = c.sent) ∧
    ((c.rd R.HIF_EVT_PEND_PEND).testBit n = true → c.raise n = c) ∧
    ((c.rd R.HIF_EVT_PEND_PEND).testBit n = false → (c.rd R.HIF_EVT_MASK_MASK).testBit n = true → (c.raise n).sent = c.sent) ∧
    ((c.rd R.HIF_EVT_PEND_PEND).testBit n = false → (c.rd R.HIF_EVT_MASK_MASK).testBit n = false →
      c.on R.PCI_MSIX_ENABLE = true →
      (c.on R.PCI_MSIX_FUNCTION_MASK = false → (c.regs.get (msixControl n)).getLsbD 0 = false →
        (c.raise n).sent = ⟨.msix, n, 0, []⟩ :: c.sent) ∧
      (c.on R.PCI_MSIX_FUNCTION_MASK = true ∨ (c.regs.get (msixControl n)).getLsbD 0 = true → (c.raise n).sent = c.sent ∧
        ((c.raise n).regs.get (msixPba n)).getLsbD (n % 32) = true)) ∧
    ∀ (f : Field) (i : Nat), f.apart i R.HIF_EVT_PEND_PEND 0 = true →
      (∀ k, k < f.nwords → f.base i + 4 * k ≠ msixPba n) → (c.raise n).rd f i = c.rd f i

/-- R511: the layout of a journal record: each field stands at its bits, the reserved bits are 0, SEQ_CHECK repeats the low half of
SEQ, and the last word is the CRC-32 of bytes 0 to 59. -/
def Obligations.JournalRecordLayout : Prop :=
  ∀ (seq time : Nat) (f : JournalFields) (r : Nat), r = journalRecord seq time f →
    r < 2 ^ 512 ∧ bits r 0 64 = seq % 2 ^ 64 ∧ bits r 64 64 = time % 2 ^ 64 ∧ bits r 128 8 = f.kind % 2 ^ 8 ∧
    bits r 136 2 = f.port % 2 ^ 2 ∧ bits r 138 4 = f.session % 2 ^ 4 ∧ bits r 142 2 = 0 ∧ bits r 144 16 = f.index % 2 ^ 16 ∧
    bits r 160 8 = f.sub % 2 ^ 8 ∧ bits r 168 3 = f.path % 2 ^ 3 ∧ bits r 171 5 = 0 ∧ bits r 176 16 = f.count % 2 ^ 16 ∧
    bits r 192 16 = f.status % 2 ^ 16 ∧ bits r 208 8 = f.node % 2 ^ 8 ∧ bits r 216 8 = 0 ∧ bits r 224 32 = f.token % 2 ^ 32 ∧
    bits r 256 128 = f.payload % 2 ^ 128 ∧ bits r 384 64 = f.extra % 2 ^ 64 ∧ bits r 448 32 = seq % 2 ^ 32 ∧
    bits r 480 32 = crc32 (leBytes 60 r)

/-! ## Addresses and numbers (chapters 02, 04) -/

/-- R99: a Muslin offset names a bank and a line by its bits, and the mapping is one to one: bank, line and byte determine the
offset, and every bank and line has one. -/
def Obligations.BanksAndLines : Prop :=
  (∀ a : Nat, a < 2 ^ 28 →
    bankOf a = 8 * bits a 25 3 + ((bits a 7 3 ^^^ bits a 10 3) ^^^ bits a 13 3) ∧ lineOf a = bits a 10 15 ∧ bankOf a < 64 ∧
    lineOf a < 32768 ∧ lineOffset (bankOf a) (lineOf a) + bits a 0 7 = a) ∧
  (∀ bank line : Nat, bank < 64 → line < 32768 →
    lineOffset bank line < 2 ^ 28 ∧ lineOffset bank line % 128 = 0 ∧ bankOf (lineOffset bank line) = bank ∧
    lineOf (lineOffset bank line) = line)

/-- R51, R56: a finite non-zero value becomes the multiple of its format's spacing that the rounding names, with its sign, and
UNDERFLOW marks a zero; beyond the largest finite value the overflow rules give the largest value of that sign, an infinity, or NaN
in FP8-E4M3. -/
def Obligations.ConversionsRound : Prop :=
  ∀ (code r rnd : Nat) (sat : Bool) (g : BitVec 32) (n : Bool) (m : Nat) (e q : Int) (x : ℚ) (k k' : Nat), m ≠ 0 → rnd ≤ 2 →
    spacing code r (.fin n m e) = some q → x = m * 2 ^ e → (k : ℤ) = ⌊x / 2 ^ q⌋ →
    (roundsUp rnd k (x / 2 ^ q - k) g → k' = k + 1) → (¬ roundsUp rnd k (x / 2 ^ q - k) g → k' = k) →
    (k' * 2 ^ q ≤ formatMax code r n →
      (decodeElem code r (convert code r rnd sat g (.fin n m e)).1).isFinite = true ∧
      (decodeElem code r (convert code r rnd sat g (.fin n m e)).1).rat = (if n then -1 else 1) * (k' * 2 ^ q) ∧
      (convert code r rnd sat g (.fin n m e)).2 = (if k' = 0 then fUnderflow else 0)) ∧
    (formatMax code r n < k' * 2 ^ q →
      (rnd = 1 ∨ sat = true ∨ code ∉ [0x8, 0x9, 0xA, 0xB, 0xC] →
        (decodeElem code r (convert code r rnd sat g (.fin n m e)).1).isFinite = true ∧
        (decodeElem code r (convert code r rnd sat g (.fin n m e)).1).rat = (if n then -1 else 1) * formatMax code r n ∧
        (convert code r rnd sat g (.fin n m e)).2 = fOverflowSat) ∧
      (rnd ≠ 1 → sat = false → code ∈ [0x8, 0x9, 0xA, 0xB, 0xC] →
        decodeElem code r (convert code r rnd sat g (.fin n m e)).1 = (if code = 0x8 then .nan else .inf n) ∧
        (convert code r rnd sat g (.fin n m e)).2 = fOverflowInf))

/-- R37 to R39, R58: a value that a format holds converts into that format without a change and without a flag: every bit pattern of
a finite value comes back as it was, whatever the rounding. -/
def Obligations.ConversionsAreExact : Prop :=
  ∀ (code r rnd : Nat) (sat : Bool) (g : BitVec 32) (x : Nat), code ≤ 0xD → x < 2 ^ fmtWidth code → rnd ≤ 2 →
    (decodeElem code r x).isFinite = true → convert code r rnd sat g (decodeElem code r x) = (x, 0)

/-! ## Supply, reset and the package (chapters 01, 09, 22) -/

/-- R25 and R635: the loss of the Keeper supply, and a low level of SYS_RESET_N of 1 µs or more, reset the whole KB9; a shorter low
level changes nothing. Every register reads its reset value afterwards, the clock stands at 0, no entry differs from its default,
and nothing is in flight; the flash and host memory keep their contents. R596: applying the Keeper supply, or releasing SYS_RESET_N,
starts the KB9 from reset; R638: a loss of REFCLK_KPR stops it and changes nothing else.
The model's choices in it: log entries 145, 146. -/
def Obligations.SupplyAndReset : Prop :=
  ((∀ s, s.chip.pkg.keeper = true →
    Answers s .keeperSupplyLoss (fun d => d.asReset ∧ d.pkg = { s.chip.pkg with keeper := false, down := false } ∧
      d.flash = s.chip.flash ∧ d.host = s.chip.host ∧ d.sent = s.chip.sent ∧ d.hif.perst = s.chip.hif.perst)) ∧
  (∀ s ns, 1000 ≤ ns →
    Answers s (.sysResetAssert ns) (fun d => d.asReset ∧ d.pkg = { s.chip.pkg with resetLow := true, down := false } ∧
      d.flash = s.chip.flash ∧ d.host = s.chip.host ∧ d.sent = s.chip.sent ∧ d.hif.perst = s.chip.hif.perst)) ∧
  (∀ s ns, ns < 1000 → Answers s (.sysResetAssert ns) (fun d => d = s.chip)) ∧
  (∀ c : Chip, c.asReset → c.now = 0 ∧ (∀ f i, c.rd f i = RegFile.fld [] f i) ∧ c.entry 0xA000 1 = 2 ∧ c.odx = Chip.reset.odx ∧
    c.dsp = Chip.reset.dsp ∧ c.qmg = Chip.reset.qmg ∧ c.muslin = [])) ∧
  ((∀ s, s.chip.pkg.keeper = false →
    Answers s .keeperSupplyOn (fun d => d.asReset ∧
      d.pkg = { s.chip.pkg with keeper := true, refclk := true, down := false } ∧
      d.flash = s.chip.flash ∧ d.host = s.chip.host ∧ d.sent = s.chip.sent ∧ d.hif.perst = s.chip.hif.perst)) ∧
  (∀ s, s.chip.pkg.resetLow = true →
    Answers s .sysResetRelease (fun d => d.asReset ∧
      d.pkg = { s.chip.pkg with resetLow := false, refclk := true, down := false } ∧
      d.flash = s.chip.flash ∧ d.host = s.chip.host ∧ d.sent = s.chip.sent ∧ d.hif.perst = s.chip.hif.perst)) ∧
  (∀ s, Answers s .refclkKprLoss (fun d => d = { s.chip with pkg := { s.chip.pkg with refclk := false } } ∧ d.live = false)))

/-- R633: a rail other than the Keeper's that leaves its window for 1 µs or more switches every domain but 0 off, without
self-refresh, and takes bring-up back to stage 1; a shorter excursion changes nothing; a Keeper rail resets the KB9 (R632). R634:
the rails' return releases THERMTRIP_N and TRIP, and switches the domains on again unless Standby or a warm restart goes on. R566,
R621, R622: the end of Standby entry and a warm restart switch every domain but 0 off with DRAM in self-refresh; their ends bring
the domains back with LAST_PASSED 7, READY clear and WAKE_RESTART set. The model's choices in it: log entries 145, 146, 147. -/
def Obligations.RailsAndStandby : Prop :=
  ((∀ s rail ns, 2 ≤ rail → rail ≤ 9 → 1000 ≤ ns → s.chip.awake = true → s.chip.pwr.standby < 2 →
    Answers s (.railOutOfWindow rail ns) (fun d => d.pkg.down = true ∧ d.pkg.rails = insertNat s.chip.pkg.rails rail ∧
      d.rd R.BUP_STATUS_LAST_PASSED = 0 ∧ d.rd R.BUP_STATUS_READY = 0 ∧ d.muslin = [] ∧ d.dsp = Chip.reset.dsp ∧
      d.qmg = Chip.reset.qmg ∧ d.drc.selfRefresh = false ∧ d.live = true ∧ d.flash = s.chip.flash ∧ d.host = s.chip.host)) ∧
  (∀ s rail ns, 2 ≤ rail → ns < 1000 → Answers s (.railOutOfWindow rail ns) (fun d => d = s.chip)) ∧
  (∀ s rail ns, rail ≤ 1 → s.chip.pkg.keeper = true →
    Answers s (.railOutOfWindow rail ns) (fun d => d.asReset ∧ d.pkg = { s.chip.pkg with keeper := false, down := false })) ∧
  (∀ s, s.chip.live = true →
    Answers s .railsRestored (fun d => d.pkg.rails = [] ∧ d.pwr.thermtrip = false ∧ d.rd R.PWR_STATUS_TRIP = 0 ∧
      (s.chip.pkg.down = true → s.chip.pwr.standby = 0 → s.chip.bup.warm = false → d.pkg.down = false)))) ∧
  ((∀ s, s.chip.awake = true → s.chip.pwr.standby = 1 →
    Answers s .standbyEntryDone (fun d => d.pkg.down = true ∧ d.pwr.standby = 2 ∧ d.muslin = [] ∧ d.dsp = Chip.reset.dsp ∧
      d.qmg = Chip.reset.qmg ∧ d.drc.selfRefresh = true ∧ d.rd R.HIF_STATUS_LINK_UP = 0 ∧ d.flash = s.chip.flash)) ∧
  (∀ s, s.chip.heard = true → s.chip.bup.warm = false → s.chip.bup.restart = none →
    Answers s .warmRestart (fun d => d.pkg.down = true ∧ d.bup.warm = true ∧ d.rd R.BUP_DOMAIN_CMD_BUSY = 1 ∧ d.muslin = [] ∧
      d.dsp = Chip.reset.dsp ∧ d.drc.selfRefresh = true ∧ d.rd R.HIF_STATUS_LINK_UP = 0 ∧ d.flash = s.chip.flash)) ∧
  (∀ s, s.chip.live = true → s.chip.pwr.standby = 3 → s.chip.pkg.rails = [] →
    Answers s .standbyWakeDone (fun d => d.pkg.down = false ∧ d.pwr.standby = 0 ∧ d.rd R.BUP_STATUS_LAST_PASSED = 7 ∧
      d.rd R.BUP_STATUS_READY = 0 ∧ d.rd R.BUP_STATUS_WAKE_RESTART = 1 ∧ d.drc.selfRefresh = false ∧ d.muslin = s.chip.muslin ∧
      d.flash = s.chip.flash ∧ (s.chip.hif.perst = false → s.chip.hif.link.1 ≠ 0 → d.rd R.HIF_STATUS_LINK_UP = 1))) ∧
  (∀ s, s.chip.live = true → s.chip.bup.warm = true →
    Answers s .warmRestartDone (fun d => d.pkg.down = false ∧ d.bup.warm = false ∧ d.rd R.BUP_STATUS_LAST_PASSED = 7 ∧
      d.rd R.BUP_STATUS_READY = 0 ∧ d.rd R.BUP_STATUS_WAKE_RESTART = 1 ∧ d.rd R.BUP_DOMAIN_CMD_BUSY = 0 ∧
      d.rd R.BUP_DOMAIN_CMD_RESULT = 1 ∧ d.drc.selfRefresh = false ∧ d.muslin = s.chip.muslin ∧ d.flash = s.chip.flash)))

/-- R270, R507, R512: a function-level reset, a hot reset, the loss of the link and PERST_N reset the host-facing state: configuration
space and the BARs have their reset values, every MSI-X vector is masked again, every queue that the host produces or consumes is disabled, and the host's open sessions are freed; the
other sessions and queues stay. R298: training ends in a link of the speed and width it reached.
The model's choices in it: log entries 52, 53, 167. -/
def Obligations.HostFacingResets : Prop :=
  (∀ (s : State) (seen : Field) (i : Instr), s.chip.awake = true → s.chip.odx.sessions.length = 8 →
    (i = .functionLevelReset ∧ seen = R.HIF_STATUS_RESET_SEEN ∨ i = .hotReset ∧ seen = R.HIF_STATUS_RESET_SEEN ∨
      i = .linkDown ∧ seen = R.HIF_STATUS_LINK_DOWN_SEEN ∨ i = .perstAssert ∧ seen = R.HIF_STATUS_RESET_SEEN) →
    Answers s i (fun d => s.chip.within d [.regs, .dict, .qmg, .hif, .odx, .sent] ∧ d.on seen = true ∧
      (∀ v, v < 2048 → (d.regs.get (msixControl v)).getLsbD 0 = true) ∧
      (∀ a, 2 ^ 26 ≤ a → d.regs.get a = resetWord a) ∧
      (∀ n q, s.chip.qmg.queues.get? n = some q → (q.hostProduces || q.hostConsumes) = true → d.qmg.queues.get? n = none) ∧
      (∀ n, (∀ p ∈ s.chip.qmg.queues, p.1 = n → (p.2.hostProduces || p.2.hostConsumes) = false) →
        d.qmg.queues.get? n = s.chip.qmg.queues.get? n) ∧
      (∀ n, n < 8 → (s.chip.session n).state = 1 → (s.chip.session n).owner = 0 →
        (d.session n).state = 0 ∧ (d.session n).staged = []) ∧
      (∀ n, ((s.chip.session n).state ≠ 1 ∨ (s.chip.session n).owner ≠ 0) → d.session n = s.chip.session n) ∧
      d.odx.implicit = s.chip.odx.implicit ∧ s.chip.odx.nextSeq < d.odx.nextSeq ∧
      (i = .linkDown ∨ i = .perstAssert → d.rd R.HIF_STATUS_LINK_UP = 0) ∧
      d.hif = (if i = .perstAssert then { s.chip.hif with perst := true, training := false } else s.chip.hif))) ∧
  (∀ (s : State), s.chip.awake = false →
    Answers s .perstAssert (fun d => d = { s.chip with hif := { s.chip.hif with perst := true, training := false } })) ∧
  (∀ (s : State), Answers s .perstRelease (fun d =>
    d = { s.chip with hif := { s.chip.hif with perst := false, training := s.chip.awake } })) ∧
  (∀ (s : State) (speed width : Nat), s.chip.awake = true → s.chip.hif.perst = false → 1 ≤ speed → speed ≤ 5 →
    width ∈ [1, 2, 4, 8] →
    Answers s (.pcieLinkUp speed width) (fun d => s.chip.within d [.regs, .hif] ∧ d.rd R.HIF_STATUS_LINK_UP = 1 ∧
      d.rd R.HIF_STATUS_SPEED = speed ∧ d.rd R.HIF_STATUS_WIDTH = width ∧ d.hif = ⟨false, false, (speed, width)⟩ ∧
      s.chip.regsKept d [(R.HIF_STATUS_LINK_UP, 0), (R.HIF_STATUS_SPEED, 0), (R.HIF_STATUS_WIDTH, 0)]))

/-- R23: a crossing that stalls isolates its island: ISLAND_STALL is set and, where the log is empty, names it; the units that
depend on the island have no operation left, and the operation of the unit whose access waited is ended; an island that is isolated
already stays so, and one whose clock does not run, or that Damask at zero issue credits holds, is not declared stalled.
The model's choices in it: log entry 24. -/
def Obligations.StalledIslands : Prop :=
  (∀ (s : State) (island unit : Nat), s.chip.awake = true → island ≤ 111 → island ≠ 100 → island ≠ 101 →
    island ∉ s.chip.isolated → s.chip.clockRuns island = true → s.chip.gngIdle →
    (∀ u ∈ s.chip.dependents island, ∀ o, s.chip.op? u = some o → o.mirror = false) →
    Answers s (.islandStall island unit) (fun d =>
      s.chip.within d [.regs, .dict, .muslin, .dsp, .qmg, .msl, .drc, .dmk, .atu, .cnv, .moved, .gng, .isolated, .sent, .fresh] ∧
      d.isolated = insertNat s.chip.isolated island ∧ d.rd R.PWR_STATUS_ISLAND_STALL = 1 ∧ d.rd R.PWR_STALL_VALID = 1 ∧
      d.rd R.PWR_STALL_ISLAND = (if s.chip.on R.PWR_STALL_VALID = true then s.chip.rd R.PWR_STALL_ISLAND else island) ∧
      (∀ u ∈ s.chip.dependents island, d.op? u = none) ∧
      (∀ u, u ∉ s.chip.dependents island → u ≠ unit → d.op? u = s.chip.op? u) ∧
      (unit ∉ s.chip.dependents island → s.chip.op? unit = none → d.op? unit = none) ∧
      (∀ o, unit ∉ s.chip.dependents island → s.chip.op? unit = some o → ∃ r, d.op? unit = some r ∧ r.finished = true))) ∧
  (∀ (s : State) (island unit : Nat), s.chip.awake = true →
    island ∈ s.chip.isolated ∨ s.chip.clockRuns island = false →
    Answers s (.islandStall island unit) (fun d => d = s.chip))

/-! ## Bring-up and repair (chapter 21) -/

/-- R597, R599: a stage starts when none runs, the KB9 is not READY and the stage follows the last one passed; otherwise it is
refused, with 5 while a stage runs and with 4 out of order. Stage 1 clears the findings list. ABORT ends a running stage with RESULT
6; a Muslin test that stops leaves Muslin zero. The model's choices in it: log entries 142, 143. -/
def Obligations.StagesStart : Prop :=
  (∀ (s : State) (i : Instr) (n : Nat), s.chip.heard = true → stageNumber i = some n →
    (s.chip.bup.stage ≠ none → Answers s i (fun d => s.chip.within d [.regs] ∧ d.rd R.BUP_CMD_RESULT = 5 ∧
      s.chip.regsKept d [(R.BUP_CMD_RESULT, 0)])) ∧
    (s.chip.bup.stage = none → (s.chip.on R.BUP_STATUS_READY = true ∨ s.chip.rd R.BUP_STATUS_LAST_PASSED + 1 ≠ n) →
      Answers s i (fun d => s.chip.within d [.regs] ∧ d.rd R.BUP_CMD_RESULT = 4 ∧ s.chip.regsKept d [(R.BUP_CMD_RESULT, 0)])) ∧
    (s.chip.bup.stage = none → s.chip.on R.BUP_STATUS_READY = false → s.chip.rd R.BUP_STATUS_LAST_PASSED + 1 = n →
      Answers s i (fun d => s.chip.within d [.regs, .bup] ∧ d.bup.stage = some i ∧ d.bup.stageAt = s.chip.now ∧
        d.rd R.BUP_CMD_BUSY = 1 ∧ d.rd R.BUP_STATUS_CUR_STAGE = n ∧ d.rd R.BUP_ELAPSED_MS_MS = 0 ∧
        (∀ k, k < 4 → d.rd R.BUP_DETAIL_DETAIL k = 0) ∧ (n = 1 → ∀ k, k < 64 → d.rd R.BUP_NEW_VALID k = 0) ∧
        d.rd R.BUP_STATUS_LAST_PASSED = s.chip.rd R.BUP_STATUS_LAST_PASSED ∧ d.bup.set = s.chip.bup.set))) ∧
  (∀ (s : State) (i : Instr), s.chip.heard = true → s.chip.bup.stage = some i →
    Answers s .stageAbort (fun d => s.chip.within d [.regs, .muslin, .msl, .drc, .bup, .sent, .fresh] ∧ d.bup.stage = none ∧
      d.rd R.BUP_CMD_BUSY = 0 ∧ d.rd R.BUP_CMD_RESULT = 6 ∧
      d.rd R.BUP_STATUS_LAST_PASSED = s.chip.rd R.BUP_STATUS_LAST_PASSED ∧
      (stageNumber i = some 5 → d.muslin = []) ∧ (stageNumber i ≠ some 5 → d.muslin = s.chip.muslin) ∧
      (stageNumber i = some 7 → d.drc.cells = []) ∧ (stageNumber i ≠ some 7 → d.drc = s.chip.drc))) ∧
  (∀ (s : State), s.chip.heard = true → s.chip.bup.stage = none → Answers s .stageAbort (fun d => d = s.chip))

/-- R598, R602 to R605, R612: how stages 1 to 4 and 10 end. Stage 1 passes with every rail good and the reference clock within 2
kHz; stage 2 fails on a failed bank and otherwise takes identity and failed clusters from the fuses; stage 3 fails on an island
without a spare; stage 4 takes the repair set from flash and is degraded without one of the six partitions; stage 10 passes without
an image, and takes nothing for a skipped entry. R606 to R608: the tests of stages 5 and 7 leave Muslin and DRAM zero, with nothing
poisoned, and pass where they find nothing; stage 6 passes when every channel that serves is trained. R609 to R614: stage 8 with
nothing to apply passes; stage 9 with no failure shows every test of an enabled unit passed, and fails with fewer than three active
clusters; stage 11 checks the three areas, clears them and enables the queue manager and the Dispatch Unit; stage 12 sets READY.
The model's choices in it: log entries 142, 149, 150, 152, 153. -/
def Obligations.StagesEnd : Prop :=
  ((∀ (s : State) (ms : Nat) (bad : BitVec 10) (khz : Nat), s.chip.awake = true →
    s.chip.bup.stage = some (.powerSequenceCheck bad khz) →
    Answers s (.stageEnd ms) (fun d => s.chip.within d [.regs, .tku, .bup, .sent] ∧ d.now = max s.chip.now (s.chip.bup.stageAt + 1000000 * ms) ∧
      s.chip.stageEnded d 1 (if bad = 0 ∧ s.chip.pkg.rails = [] ∧ 24998 ≤ khz ∧ khz ≤ 25002 then 1 else 3) ms ∧
      d.rd R.BUP_DETAIL_DETAIL 1 = khz % 2 ^ 32)) ∧
  (∀ (s : State) (ms : Nat) (f : FuseReport), s.chip.awake = true → s.chip.bup.stage = some (.fuseLoad f) →
    Instr.wellFormed (.fuseLoad f) = true →
    (f.failed ≠ 0 → Answers s (.stageEnd ms) (fun d => s.chip.within d [.regs, .tku, .bup, .sent] ∧ s.chip.stageEnded d 2 3 ms)) ∧
    (f.failed = 0 → Answers s (.stageEnd ms) (fun d => s.chip.within d [.regs, .dict, .tku, .msl, .bup, .isolated, .sent] ∧
      s.chip.stageEnded d 2 1 ms ∧ d.entry 0x1018 4 = f.serial ∧ d.entry 0x1F00 1 = f.dieId ∧ d.bup.fuses = some f ∧
      (∀ k ∈ f.twillFailed, d.rd R.TWL_CLUSTER_STATE k = clFailed) ∧
      (∀ k, k < 18 → k ∉ f.twillFailed → d.rd R.TWL_CLUSTER_STATE k = s.chip.rd R.TWL_CLUSTER_STATE k) ∧
      s.chip.entriesKept d [entryKey 0x1018 4, entryKey 0x1F00 1]))) ∧
  (∀ (s : State) (ms : Nat) (l : List Nat), s.chip.awake = true → s.chip.bup.stage = some (.clockIslandStart l) →
    (l = [] → Answers s (.stageEnd ms) (fun d => s.chip.within d [.regs, .tku, .bup, .sent] ∧ s.chip.stageEnded d 3 1 ms)) ∧
    ((∃ k ∈ l, k < 43 ∨ 60 < k ∧ k < 67 ∨ 82 < k ∧ k < 100 ∨ 101 < k ∧ k < 112) →
      Answers s (.stageEnd ms) (fun d => s.chip.within d [.regs, .tku, .cnv, .bup, .isolated, .sent] ∧ s.chip.stageEnded d 3 3 ms))) ∧
  (∀ (s : State) (ms : Nat), s.chip.awake = true → s.chip.bup.stage = some .keeperRestore →
    Answers s (.stageEnd ms) (fun d => s.chip.within d [.regs, .dict, .tku, .odx, .bup, .sent] ∧
      s.chip.stageEnded d 4 (if s.chip.flash.ok = true ∧ [1, 2, 3, 4, 5, 6].all s.chip.flash.parts.contains = true then 1 else 2) ms ∧
      d.bup.set = (if s.chip.hasRepair = true then replay s.chip.flash.repair else []) ∧
      d.on R.KPR_STATUS_FLASH_OK = s.chip.flash.ok ∧ d.rd R.BUP_REC_STATUS_SET_COUNT = d.bup.set.length % 2 ^ 12 ∧
      (s.chip.flash.ok = true → 2 ∈ s.chip.flash.parts → d.entry 0x1F81 2 = s.chip.flash.tagsSeq) ∧
      d.odx.journal.head? = some (journalRecord (d.odx.nextSeq - 1) d.now { kind := 1 }))) ∧
  (∀ (s : State) (ms : Nat), s.chip.awake = true → s.chip.bup.stage = some .dictionaryLoad →
    (s.chip.on R.BUP_STATUS_WAKE_RESTART = false → (5 ∉ s.chip.flash.parts ∨ s.chip.flash.image = none) →
      Answers s (.stageEnd ms) (fun d => s.chip.stageEnded d 10 1 ms ∧ d.rd R.KPR_STATUS_IMAGE_SKIPPED = 0 ∧
        (∀ i x, x < 256 → loadsEntry (entryKey i x) = true → d.entry i x = entryDefault i x) ∧
        d.odx.nextSeq = s.chip.odx.nextSeq + 2)) ∧
    (s.chip.on R.BUP_STATUS_WAKE_RESTART = true → s.chip.odx.badStore ≠ [] →
      Answers s (.stageEnd ms) (fun d => s.chip.within d [.regs, .tku, .bup, .sent] ∧ s.chip.stageEnded d 10 3 ms)))) ∧
  ((∀ (s : State) (ms : Nat) (quick : Bool) (nack : BitVec 2), s.chip.awake = true →
    s.chip.bup.stage = some (.muslinTest quick nack [] [] []) →
    Answers s (.stageEnd ms) (fun d => s.chip.within d [.regs, .muslin, .tku, .msl, .bup, .sent] ∧ d.muslin = [] ∧
      d.msl.poisoned = [] ∧ d.msl.writebacks = [] ∧ d.msl.repairs = s.chip.msl.repairs ∧
      (∀ g, g < s.chip.msl.groups.length → g < 8 → d.groupActive g = true) ∧
      s.chip.stageEnded d 5 (if quick = false ∧ nack ≠ 0 then 3 else if s.chip.on R.MSL_BT_STATUS_LIST_FULL = true then 3 else 1) ms)) ∧
  (∀ (s : State) (ms : Nat) (quick : Bool) (fail : BitVec 16), s.chip.awake = true →
    s.chip.bup.stage = some (.dramTraining quick fail) →
    Answers s (.stageEnd ms) (fun d => s.chip.within d [.regs, .tku, .drc, .flash, .bup, .sent] ∧
      s.chip.stageEnded d 6 (if d.rd R.DRC_TRAIN_FAIL = 0 then 1 else 3) ms ∧
      d.rd R.BUP_DETAIL_DETAIL 0 = d.rd R.DRC_TRAIN_FAIL ∧ d.on R.DRC_STATUS_TRAINED = (d.rd R.DRC_TRAIN_FAIL == 0) ∧
      (fail = 0 → s.chip.bup.islandsFailed = [] → d.rd R.DRC_TRAIN_FAIL = 0) ∧ d.drc.cells = s.chip.drc.cells ∧
      d.flash = { s.chip.flash with training := d.flash.training })) ∧
  (∀ (s : State) (ms : Nat) (quick : Bool), s.chip.awake = true → s.chip.bup.stage = some (.dramTest quick []) →
    Answers s (.stageEnd ms) (fun d => s.chip.within d [.regs, .tku, .drc, .bup, .sent] ∧ s.chip.stageEnded d 7 1 ms ∧
      (∀ a, d.drc.get a = 0) ∧ d.drc.poisoned = [] ∧ d.bup.pages = [] ∧ (∀ k, k < 256 → d.rd R.DRC_RETIRED_VALID k = 0) ∧
      (∀ k, k < 3 → d.rd R.BUP_DETAIL_DETAIL k = 0)))) ∧
  ((∀ (s : State) (ms : Nat), s.chip.awake = true → s.chip.bup.stage = some .repairApply → s.chip.bup.set = [] →
    s.chip.bup.pages = [] →
    Answers s (.stageEnd ms) (fun d => s.chip.within d [.regs, .tku, .bup, .sent] ∧ s.chip.stageEnded d 8 1 ms)) ∧
  (∀ (s : State) (ms : Nat) (quick : Bool) (nack : BitVec 2), s.chip.awake = true →
    s.chip.bup.stage = some (.knownAnswerRuns quick nack 0 [] []) → s.chip.bup.activate = [] → s.chip.gngIdle →
    (quick = true ∨ nack = 0) →
    Answers s (.stageEnd ms) (fun d =>
      s.chip.stageEnded d 9 (if s.chip.rd R.TWL_STATUS_ACTIVE < 3 then 3 else 1) ms ∧ d.rd R.BUP_KAT_FAIL_UNITS = 0 ∧
      (∀ t, t < 27 → (d.rd R.BUP_KAT_PASS_UNITS).testBit t = s.chip.katTests.contains t) ∧
      (∀ k, k < 18 → d.rd R.TWL_CLUSTER_STATE k = s.chip.rd R.TWL_CLUSTER_STATE k))) ∧
  (∀ (s : State) (ms : Nat) (areas : List (Nat × Nat)), s.chip.awake = true → s.chip.bup.stage = some .queueSetup →
    areas = [s.chip.ctxArea, s.chip.spillArea, s.chip.saveArea] →
    ((∀ a ∈ areas, s.chip.areaOk a = true) → areas.Pairwise (fun a b => a.1 + a.2 ≤ b.1 ∨ b.1 + b.2 ≤ a.1) →
      Answers s (.stageEnd ms) (fun d => s.chip.within d [.regs, .muslin, .tku, .msl, .bup, .sent] ∧ s.chip.stageEnded d 11 1 ms ∧
        (∀ a ∈ areas, ∀ x, a.1 ≤ x → x < a.1 + a.2 → d.muslin.get x = 0) ∧
        (∀ x, (∀ a ∈ areas, x < a.1 ∨ a.1 + a.2 ≤ x) → d.muslin.get x = s.chip.muslin.get x) ∧
        d.rd R.QMG_CTRL_ENABLE = 1 ∧ d.rd R.DSP_CTRL_ENABLE = 1 ∧ d.rd R.BUP_DETAIL_DETAIL 0 = 0)) ∧
    ((∃ a ∈ areas, s.chip.areaOk a = false) →
      Answers s (.stageEnd ms) (fun d => s.chip.within d [.regs, .tku, .bup, .sent] ∧ s.chip.stageEnded d 11 3 ms ∧
        d.rd R.BUP_DETAIL_DETAIL 0 ≠ 0 ∧ d.rd R.QMG_CTRL_ENABLE = s.chip.rd R.QMG_CTRL_ENABLE))) ∧
  (∀ (s : State) (ms : Nat), s.chip.awake = true → s.chip.bup.stage = some .bupReady →
    Answers s (.stageEnd ms) (fun d => s.chip.within d [.regs, .tku, .bup, .sent] ∧ s.chip.stageEnded d 12 1 ms ∧
      d.rd R.BUP_STATUS_READY = 1)) ∧
  (∀ (s : State) (ms : Nat), s.chip.awake = true → s.chip.bup.stage = none → Answers s (.stageEnd ms) (fun d => d = s.chip)))

/-- R619: an append of a record in range is started where a REPAIR partition exists and none runs; when it reads back as written the
record follows the active half, or the set, in flash and enters the set; when it does not, flash and set stay. R623, R624: a restart
of one domain is refused with 5 while a restart runs, with 3 for a domain that has none, and with 2 while its quiet conditions do
not hold; accepted, a Muslin group's domain loses that group's contents and no other's; when it has passed, its domain is on again.
The model's choices in it: log entries 148, 154. -/
def Obligations.RepairsAndRestarts : Prop :=
  ((∀ (s : State) (kind : BitVec 8) (remove : Bool) (data : Nat), s.chip.heard = true →
    data = s.chip.rd R.BUP_REC_LO_DATA_LO + (s.chip.rd R.BUP_REC_HI_DATA_HI <<< 32) →
    ((s.chip.bup.append ≠ none ∨ s.chip.bup.stage = some .keeperRestore) →
      Answers s (.repairRecordAppend kind remove) (fun d => s.chip.within d [.regs] ∧ d.rd R.BUP_REC_CMD_RESULT = 5 ∧
        s.chip.regsKept d [(R.BUP_REC_CMD_RESULT, 0)])) ∧
    (s.chip.bup.append = none → s.chip.bup.stage ≠ some .keeperRestore →
      (s.chip.hasRepair = false → Answers s (.repairRecordAppend kind remove) (fun d => s.chip.within d [.regs] ∧
        d.rd R.BUP_REC_CMD_RESULT = 3 ∧ s.chip.regsKept d [(R.BUP_REC_CMD_RESULT, 0)])) ∧
      (s.chip.hasRepair = true → dataInRange kind.toNat data = false →
        Answers s (.repairRecordAppend kind remove) (fun d => s.chip.within d [.regs] ∧ d.rd R.BUP_REC_CMD_RESULT = 2 ∧
          s.chip.regsKept d [(R.BUP_REC_CMD_RESULT, 0)])) ∧
      (s.chip.hasRepair = true → dataInRange kind.toNat data = true →
        Answers s (.repairRecordAppend kind remove) (fun d => s.chip.within d [.regs, .bup] ∧ d.rd R.BUP_REC_CMD_BUSY = 1 ∧
          d.bup = { s.chip.bup with append := some (repairRecord kind.toNat remove data) } ∧
          s.chip.regsKept d [(R.BUP_REC_CMD_BUSY, 0)])))) ∧
  (∀ (s : State) (r : Nat), s.chip.live = true → s.chip.bup.append = some r →
    Answers s (.repairAppendDone true) (fun d => s.chip.within d [.regs, .flash, .bup] ∧ d.rd R.BUP_REC_CMD_RESULT = 1 ∧
      d.rd R.BUP_REC_CMD_BUSY = 0 ∧ d.bup = { s.chip.bup with append := none, set := replayRecord s.chip.bup.set r } ∧
      d.flash = { s.chip.flash with
        repair := (if halfSlots ≤ s.chip.flash.repair.length then s.chip.bup.set else s.chip.flash.repair) ++ [r] } ∧
      d.rd R.BUP_REC_STATUS_SET_COUNT = d.bup.set.length % 2 ^ 12) ∧
    Answers s (.repairAppendDone false) (fun d => s.chip.within d [.regs, .bup] ∧ d.rd R.BUP_REC_CMD_RESULT = 4 ∧
      d.rd R.BUP_REC_CMD_BUSY = 0 ∧ d.bup = { s.chip.bup with append := none } ∧
      s.chip.regsKept d [(R.BUP_REC_CMD_RESULT, 0), (R.BUP_REC_CMD_BUSY, 0)]))) ∧
  ((∀ (s : State) (b : BitVec 5), s.chip.heard = true →
    ((s.chip.bup.warm = true ∨ s.chip.bup.restart ≠ none) → Answers s (.domainRestart b) (fun d => s.chip.within d [.regs] ∧
      d.rd R.BUP_DOMAIN_CMD_RESULT = 5 ∧ s.chip.regsKept d [(R.BUP_DOMAIN_CMD_RESULT, 0)])) ∧
    (s.chip.bup.warm = false → s.chip.bup.restart = none →
      ((b.toNat ≤ 2 ∨ 23 < b.toNat) → Answers s (.domainRestart b) (fun d => s.chip.within d [.regs] ∧
        d.rd R.BUP_DOMAIN_CMD_RESULT = 3 ∧ s.chip.regsKept d [(R.BUP_DOMAIN_CMD_RESULT, 0)])) ∧
      (3 ≤ b.toNat → b.toNat ≤ 23 → s.chip.restartAllowed b.toNat = false →
        Answers s (.domainRestart b) (fun d => s.chip.within d [.regs] ∧ d.rd R.BUP_DOMAIN_CMD_RESULT = 2 ∧
          s.chip.regsKept d [(R.BUP_DOMAIN_CMD_RESULT, 0)])) ∧
      (6 ≤ b.toNat → b.toNat ≤ 13 → s.chip.restartAllowed b.toNat = true → s.chip.gngIdle →
        Answers s (.domainRestart b) (fun d => s.chip.within d [.regs, .muslin, .msl, .gng, .bup] ∧ d.rd R.BUP_DOMAIN_CMD_BUSY = 1 ∧
          d.bup = { s.chip.bup with restart := some b.toNat, restarting := [b.toNat] } ∧
          (∀ x, groupOf x = b.toNat - 6 → x < muslinSize → d.muslin.get x = 0) ∧
          (∀ x, groupOf x ≠ b.toNat - 6 → d.muslin.get x = s.chip.muslin.get x) ∧
          (∀ w ∈ d.msl.poisoned, w ∈ s.chip.msl.poisoned ∧ groupOf (8 * w) ≠ b.toNat - 6))))) ∧
  (∀ (s : State) (n : Nat), s.chip.awake = true → s.chip.bup.restart = some n → 18 ≤ n → n ≤ 22 → s.chip.gngIdle →
    Answers s (.domainRestartDone 0) (fun d => d.rd R.BUP_DOMAIN_CMD_BUSY = 0 ∧ d.rd R.BUP_DOMAIN_CMD_RESULT = 1 ∧
      d.bup = { s.chip.bup with restart := none, restarting := [] } ∧ d.domainState n = 0 ∧
      (∀ i ∈ domainIslands n, i ∉ d.isolated) ∧ (∀ i, i ∉ domainIslands n → (i ∈ d.isolated ↔ i ∈ s.chip.isolated)) ∧
      d.flash = s.chip.flash)) ∧
  (∀ (s : State) (fail : BitVec 27), s.chip.awake = true → s.chip.bup.restart = none →
    Answers s (.domainRestartDone fail) (fun d => d = s.chip)))

/-! ## Power and thermal (chapter 19) -/

/-- R545, R553, R568: at the end of an estimate window the estimate is the sum of the domains' powers, and the credits of the next
window are the lesser of CAP_CREDITS and THERM_CREDITS, at most 8 in Sentinel and 0 after a trip; a window under 64 credits counts
as throttled. R29, R548: a change of operating point starts while no tile of Damask or the ATU is under way, and 10 µs later the
point is in force. R556, R557: a set of readings without a gap gives the measured power, the scaled FP32 sum of the devices' words;
a failed reading is counted, and breaks both runs. R552, R558 to R560: a thermal sample gives the readings and the highest as Tj;
THERMAL_THROTTLE shows THERM_CREDITS below 64, and from 115 °C on the device trips.
The model's choices in it: log entries 25, 126, 127, 128. -/
def Obligations.PowerWindowsAndReadings : Prop :=
  ((∀ (s : State) (counts : List Nat) (t : Nat) (e : Machine.Num), s.chip.live = true → s.chip.pwr.prior = none →
    t = s.chip.gridNext gridPower ⟨2000, 2000, 1⟩ → s.chip.entry 0x5800 3 ≤ 64 →
    e = ((List.range 24).map (fun k => s.chip.domainPower counts k)).foldl f32add .zero →
    Answers s (.estimateWindowEnd counts) (fun d => s.chip.within d [.regs, .dict, .tku, .pwr, .sent, .fresh] ∧
      d.now = max s.chip.now t ∧ d.entry 0x7800 1 = f32bits e ∧ d.rd R.PWR_EST_W_VALUE = f32bits e % 2 ^ 32 ∧
      (∀ k, k < 24 → d.entry 0x7810 (k + 1) = f32bits (s.chip.domainPower counts k)) ∧
      s.chip.entry 0x5800 3 ≤ d.rd R.PWR_CREDITS_CAP_CREDITS ∧ d.rd R.PWR_CREDITS_CAP_CREDITS ≤ 64 ∧
      d.rd R.PWR_CREDITS_CAP_CREDITS ≤ max (s.chip.rd R.PWR_CREDITS_CAP_CREDITS + 4) (s.chip.entry 0x5800 3) ∧
      d.rd R.PWR_CREDITS_THERM_CREDITS = s.chip.rd R.PWR_CREDITS_THERM_CREDITS ∧
      d.rd R.PWR_CREDITS_CREDITS = (if s.chip.on R.PWR_STATUS_TRIP = true then 0
        else if s.chip.sentinel = true then min (min (d.rd R.PWR_CREDITS_CAP_CREDITS) (d.rd R.PWR_CREDITS_THERM_CREDITS)) 8
        else min (d.rd R.PWR_CREDITS_CAP_CREDITS) (d.rd R.PWR_CREDITS_THERM_CREDITS)) ∧
      d.entry 0x7800 6 = d.rd R.PWR_CREDITS_CREDITS ∧ d.on R.DMK_ISSUE_THROTTLED = decide (d.rd R.PWR_CREDITS_CREDITS < 64) ∧
      d.rd R.PWR_THROTTLE_CNT_COUNT =
        (s.chip.rd R.PWR_THROTTLE_CNT_COUNT + if s.chip.rd R.PWR_CREDITS_CREDITS < 64 then 1 else 0) % 2 ^ 32 ∧
      (∀ i x, i ≠ 0x7800 → i ≠ 0x7810 → x < 256 → d.entry i x = s.chip.entry i x))) ∧
  (∀ (s : State) (w : OpChange), s.chip.awake = true → s.chip.pwr.waiting = some w →
    (∀ u o, u < 2 → s.chip.op? u = some o → o.tileReady = false) →
    Answers s .opChangeStart (fun d => d = { s.chip with
      pwr := { s.chip.pwr with waiting := none, settling := some (w, s.chip.now) } })) ∧
  (∀ (s : State) (w : OpChange) (since : Nat), s.chip.awake = true → s.chip.pwr.settling = some (w, since) → w.target < 8 →
    Answers s .opSettleEnd (fun d => s.chip.within d [.regs, .dict, .tku, .pwr] ∧ d.now = max s.chip.now (since + 10000) ∧
      d.rd R.PWR_STATUS_OP = w.target ∧ d.entry 0x7800 5 = w.target ∧ d.pwr.settling = none ∧
      d.rd R.PWR_OP_CHG_CNT_COUNT = (s.chip.rd R.PWR_OP_CHG_CNT_COUNT + 1) % 2 ^ 32 ∧
      s.chip.regsKept d [(R.PWR_STATUS_OP, 0), (R.PWR_OP_CHG_CNT_COUNT, 0)] ∧ s.chip.entriesKept d [entryKey 0x7800 5]))) ∧
  ((∀ (s : State) (readings : List (Option Nat)), s.chip.live = true → s.chip.entryOn 0x5801 1 = true →
    ((∀ k, k < s.chip.monitors → ∃ w, readings[k]? = some (some w)) →
      Answers s (.pmbusRead readings) (fun d => s.chip.within d [.regs, .dict, .tku, .pwr, .sent] ∧
        d.now = max s.chip.now (s.chip.gridNext gridPmbus ⟨1000000, 1000000, 1⟩) ∧
        d.entry 0x7800 2 = f32bits (f32mul (f32val (s.chip.entry 0x5801 9))
          ((readings.take s.chip.monitors).foldl (fun a w => f32add a (r32 (linear11 (w.getD 0)))) .zero)) ∧
        d.rd R.PWR_MEAS_W_VALUE = d.entry 0x7800 2 % 2 ^ 32 ∧ d.rd R.PWR_STATUS_MEAS_LOST = 0 ∧ d.pwr.absent = 0 ∧
        d.rd R.PWR_MEAS_FAIL_CNT_COUNT = s.chip.rd R.PWR_MEAS_FAIL_CNT_COUNT ∧
        s.chip.entriesKept d [entryKey 0x7800 2, entryKey 0x7800 3])) ∧
    ((∃ k, k < s.chip.monitors ∧ readings[k]? = some none) →
      Answers s (.pmbusRead readings) (fun d => s.chip.within d [.regs, .dict, .tku, .pwr] ∧
        d.pwr = { s.chip.pwr with disagree := 0, agree := 0, absent := s.chip.pwr.absent + 1 } ∧
        d.rd R.PWR_MEAS_W_VALUE = s.chip.rd R.PWR_MEAS_W_VALUE ∧
        (10 ≤ s.chip.pwr.absent + 1 → d.rd R.PWR_STATUS_MEAS_LOST = 1 ∧ d.rd R.PWR_STATUS_SUSPECT = 0) ∧
        s.chip.entriesKept d [entryKey 0x7800 3]))) ∧
  (∀ (s : State) (readings : List Word), s.chip.live = true → readings.length = 32 → s.chip.entry 0x5800 3 ≤ 64 →
    Answers s (.thermalSample readings) (fun d => s.chip.within d [.regs, .dict, .tku, .pwr, .sent] ∧
      d.now = max s.chip.now (s.chip.gridNext gridThermal ⟨100000, 100000, 1⟩) ∧
      (∀ k w, readings[k]? = some w → d.entry 0x7820 (k + 1) = w.toNat) ∧
      d.entry 0x7800 4 = f32bits (d.hottest (List.range 32)) ∧ d.rd R.PWR_TJ_VALUE = d.entry 0x7800 4 % 2 ^ 32 ∧
      (d.rd R.PWR_CREDITS_THERM_CREDITS < 64 → d.rd R.PWR_STATUS_THERMAL_THROTTLE = 1) ∧
      (Machine.Num.le s.chip.throttleC d.tj = true → d.rd R.PWR_CREDITS_THERM_CREDITS ≤
        max (s.chip.entry 0x5800 3) (s.chip.rd R.PWR_CREDITS_THERM_CREDITS - 8)) ∧
      (Machine.Num.le (.ofNat 115) d.tj = true → d.rd R.PWR_STATUS_TRIP = 1 ∧ d.pwr.thermtrip = true ∧
        d.rd R.PWR_CREDITS_CREDITS = 0 ∧ d.entry 0x7800 6 = 0) ∧
      (Machine.Num.le (.ofNat 115) d.tj = false → d.rd R.PWR_STATUS_TRIP = s.chip.rd R.PWR_STATUS_TRIP ∧
        d.pwr.thermtrip = s.chip.pwr.thermtrip) ∧
      (∀ i x, i ≠ 0x7800 → i ≠ 0x7820 → x < 256 → d.entry i x = s.chip.entry i x))))

/-- R562, R563: a domain takes the deepest state that R562 allows it at once, and a less deep one by a wake, which ends 0.2 µs, 12
µs or 60 µs after it began; R564: PREWAKE starts the wake of domains 4 and 5 13 µs before a launch of class 0 or 1. R566: Standby
needs a wake source and a quiet device, and is refused otherwise; its sources end it, the pin after 1 µs low, the time when
PWR_WAKE_AT comes. The model's choices in it: log entries 132, 133. -/
def Obligations.DomainsAndStandby : Prop :=
  ((∀ (s : State), s.chip.awake = true → s.chip.pwr.standby = 0 →
    Answers s .domainStateSelect (fun d =>
      s.chip.within d [.regs, .muslin, .msl, .drc, .dmk, .cnv, .pwr, .sent, .fresh] ∧
      ∀ x ∈ sleepers,
        (((Table.get? s.chip.pwr.waking x).isSome = true ∨ x ∈ s.chip.bup.restarting) → d.domainState x = s.chip.domainState x) ∧
        ((Table.get? s.chip.pwr.waking x) = none → x ∉ s.chip.bup.restarting →
          d.domainState x = max (s.chip.chooseState x) (s.chip.domainState x) ∧
          (s.chip.chooseState x < s.chip.domainState x → Table.get? d.pwr.waking x = some s.chip.now)))) ∧
  (∀ (s : State), s.chip.awake = true → s.chip.pwr.standby ≠ 0 → Answers s .domainStateSelect (fun d => d = s.chip)) ∧
  (∀ (s : State) (x t : Nat), s.chip.awake = true → x ∈ sleepers → s.chip.domainState x ≠ 0 → s.chip.pwr.standby = 0 →
    x ∉ s.chip.bup.restarting → s.chip.wakeStart x = some t →
    Answers s (.domainWakeDone x) (fun d =>
      s.chip.within d [.regs, .muslin, .tku, .dsp, .qmg, .msl, .drc, .atu, .pwr, .gng, .sent] ∧
      d.domainState x = 0 ∧ Table.get? d.pwr.waking x = none ∧ d.rd R.PWR_STATUS_DEVICE_STATE = 0 ∧
      (x = 4 ∨ x = 5 → d.domainState 4 = 0 ∧ d.domainState 5 = 0) ∧
      d.now = max s.chip.now (t + if s.chip.rd R.PWR_STATUS_DEVICE_STATE = 1 then 60000
        else if s.chip.domainState x = 2 then 12000 else 200))) ∧
  (∀ (s : State) (n t : Nat), s.chip.awake = true → n < 64 → s.chip.entryOn 0x5800 7 = true →
    t = s.chip.gridNext (gridLaunch n) ⟨s.chip.rd R.DSP_LAUNCH_FIRST n, max 1 (s.chip.rd R.DSP_LAUNCH_PERIOD_NS n), 1⟩ →
    (s.chip.on R.DSP_LAUNCH_ENABLE n = true → s.chip.rd R.DSP_LAUNCH_CLASS n ≤ 1 →
      Answers s (.prewake n) (fun d => s.chip.within d [.tku, .pwr] ∧ d.now = max s.chip.now (t - 13000) ∧
        ∀ x, x = 4 ∨ x = 5 → Table.get? d.pwr.waking x = (if s.chip.domainState x = 0 then Table.get? s.chip.pwr.waking x
          else some ((Table.get? s.chip.pwr.waking x).getD d.now)))) ∧
    ((s.chip.on R.DSP_LAUNCH_ENABLE n = false ∨ 1 < s.chip.rd R.DSP_LAUNCH_CLASS n) →
      Answers s (.prewake n) (fun d => d = s.chip)))) ∧
  ((∀ (s : State) (pin time : Bool), s.chip.heard = true →
    (pin = false → time = false → Answers s (.standby pin time) (fun d => s.chip.within d [.regs] ∧ d.rd R.PWR_CMD_RESULT = 3 ∧
      s.chip.regsKept d [(R.PWR_CMD_RESULT, 0)])) ∧
    ((pin = true ∨ time = true) → (s.chip.quietForStandby = false ∨ s.chip.pwr.standby ≠ 0) →
      Answers s (.standby pin time) (fun d => s.chip.within d [.regs] ∧ d.rd R.PWR_CMD_RESULT = 2 ∧
        s.chip.regsKept d [(R.PWR_CMD_RESULT, 0)])) ∧
    ((pin = true ∨ time = true) → s.chip.quietForStandby = true → s.chip.pwr.standby = 0 →
      Answers s (.standby pin time) (fun d => s.chip.within d [.regs, .pwr] ∧ d.rd R.PWR_CMD_RESULT = 1 ∧
        d.rd R.PWR_STATUS_DEVICE_STATE = 2 ∧ s.chip.regsKept d [(R.PWR_CMD_RESULT, 0), (R.PWR_STATUS_DEVICE_STATE, 0)] ∧
        d.pwr = { s.chip.pwr with standby := 1, standbyAt := s.chip.now, wakePin := pin, wakeTime := time }))) ∧
  (∀ (s : State) (low : Nat), s.chip.live = true →
    (s.chip.pwr.standby = 2 → s.chip.pwr.wakePin = true → 1000 ≤ low →
      Answers s (.standbyWakePin low) (fun d => d = { s.chip with
        pwr := { s.chip.pwr with standby := 3, standbyAt := s.chip.now } })) ∧
    ((s.chip.pwr.standby ≠ 2 ∨ s.chip.pwr.wakePin = false ∨ low < 1000) →
      Answers s (.standbyWakePin low) (fun d => d = s.chip)) ∧
    (s.chip.pwr.standby = 2 → s.chip.pwr.wakeTime = true →
      Answers s .standbyWakeTime (fun d => s.chip.within d [.tku, .pwr] ∧ d.pwr.standby = 3 ∧
        d.now = max s.chip.now (s.chip.rd R.PWR_WAKE_AT_LO_TIME_LO + (s.chip.rd R.PWR_WAKE_AT_HI_TIME_HI <<< 32))))))

/-! ## Time keeping (chapter 16) -/

/-- R475, R476, R488: SNAP copies the clock into the TIME registers; SET and STEP are refused with 2 while LOCKED, in HOLDOVER or
waiting unless forced, and with 3 for a time that is none; otherwise the clock takes its new value at once, STEPPED is set, and
RESULT is 1. FORCE_PENDING steps by the pending offset and locks; RELOCK starts acquiring again. A refused command is journalled
with its RESULT. The model's choices in it: log entries 50, 107. -/
def Obligations.ClockCommands : Prop :=
  (∀ (s : State), s.chip.heard = true →
    Answers s .tkuSnap (fun d => s.chip.within d [.regs] ∧ d.rd R.TKU_TIME_NS_NS = s.chip.now % 1000000000 ∧
      d.rd R.TKU_TIME_SEC_LO_SEC_LO + 2 ^ 32 * d.rd R.TKU_TIME_SEC_HI_SEC_HI = s.chip.seconds % 2 ^ 48 ∧
      d.rd R.TKU_TIME_FRAC_FRAC = bits s.chip.tku.clock 16 16 ∧ d.rd R.TKU_CMD_RESULT = 1)) ∧
  (∀ (s : State) (force : Bool) (ns sec b : Nat), s.chip.heard = true → ns = s.chip.rd R.TKU_TIME_NS_NS →
    sec = s.chip.rd R.TKU_TIME_SEC_LO_SEC_LO + (s.chip.rd R.TKU_TIME_SEC_HI_SEC_HI <<< 32) →
    b = (sec * 1000000000 + ns) * 2 ^ 32 + s.chip.rd R.TKU_TIME_FRAC_FRAC * 2 ^ 16 →
    (s.chip.stepRefused force = true → ∀ i op, i = Instr.tkuSet force ∧ op = 2 ∨ i = .tkuStep force ∧ op = 3 →
      Answers s i (fun d => s.chip.within d [.regs, .dict, .odx] ∧ d.rd R.TKU_CMD_RESULT = 2 ∧
        s.chip.regsKept d [(R.TKU_CMD_RESULT, 0)] ∧ s.chip.journalled d
          { kind := 0x0B, port := 0, status := 2, extra := 0xE00000 + ((op + if force = true then 8 else 0) <<< 32) })) ∧
    (s.chip.stepRefused force = false → 1000000000 ≤ ns → Answers s (.tkuSet force) (fun d => s.chip.within d [.regs, .dict, .odx] ∧
      d.rd R.TKU_CMD_RESULT = 3 ∧ s.chip.regsKept d [(R.TKU_CMD_RESULT, 0)])) ∧
    (s.chip.stepRefused force = false → ns < 1000000000 → Answers s (.tkuSet force) (fun d =>
      s.chip.within d [.regs, .dict, .muslin, .tku, .dsp, .qmg, .msl, .drc, .gze, .odx, .gng, .sent] ∧
      d.tku.clock = b % clockWrap ∧ d.tku.steps = s.chip.tku.steps + 1 ∧ d.on R.TKU_STATUS_STEPPED = true ∧
      d.rd R.TKU_CMD_RESULT = 1)) ∧
    (∀ x : Int, s.chip.stepRefused force = false → x = s.chip.tku.clock + s.chip.rd64 R.TKU_STEP_LO R.TKU_STEP_HI * 2 ^ 32 →
      (x < 0 → Answers s (.tkuStep force) (fun d => s.chip.within d [.regs, .dict, .odx] ∧ d.rd R.TKU_CMD_RESULT = 3)) ∧
      (0 ≤ x → Answers s (.tkuStep force) (fun d =>
        s.chip.within d [.regs, .dict, .muslin, .tku, .dsp, .qmg, .msl, .drc, .gze, .odx, .gng, .sent] ∧
        d.tku.clock = x.toNat % clockWrap ∧ d.tku.steps = s.chip.tku.steps + 1 ∧ d.on R.TKU_STATUS_STEPPED = true ∧
        d.rd R.TKU_CMD_RESULT = 1)))) ∧
  (∀ (s : State) (x : Int), s.chip.heard = true → x = s.chip.tku.clock - s.chip.pendingOffset * 2 ^ 32 →
    (s.chip.tkuState ≠ 4 → Answers s .forcePending (fun d => s.chip.within d [.regs, .dict, .odx] ∧ d.rd R.TKU_CMD_RESULT = 2)) ∧
    (s.chip.tkuState = 4 → 0 ≤ x → Answers s .forcePending (fun d =>
      s.chip.within d [.regs, .dict, .muslin, .tku, .dsp, .qmg, .msl, .drc, .gze, .odx, .gng, .sent] ∧
      d.tku.clock = x.toNat % clockWrap ∧ d.tkuState = 2 ∧ d.pendingOffset = 0 ∧ d.rd R.TKU_CMD_RESULT = 1))) ∧
  (∀ (s : State), s.chip.heard = true →
    (s.chip.tkuState = 0 → Answers s .relock (fun d => s.chip.within d [.regs, .dict, .odx] ∧ d.rd R.TKU_CMD_RESULT = 2)) ∧
    (s.chip.tkuState ≠ 0 → Answers s .relock (fun d => s.chip.within d [.regs, .dict, .odx] ∧ d.tkuState = 1 ∧
      d.rd R.TKU_CMD_RESULT = 1 ∧ s.chip.journalled d
        { kind := 0x0B, port := 0, status := 1, extra := 0xE00000 + (5 <<< 32) })))

/-- R486, R487, R489: an offset does nothing in FREE_RUN, is counted when a step came since it was measured, locks a clock that is
acquiring when it lies below the step threshold, is kept as LAST_OFFSET within the jump limit, and above it waits as the pending
offset, counted and reported. A locked clock without an offset for SYNC_LOSS_MS enters HOLDOVER. R482 to R484: a PTP event message
that passes the served port is stamped within 4 ns of the clock, and the engine takes the port state it leads to; a transmit time
stamp of the current generation joins the queue of 64, and is counted when the queue is full or the identifier stale; a read of
TKU_TXTS0 pops the oldest entry. The model's choices in it: log entries 108, 109, 110. -/
def Obligations.OffsetsAndTimeStamps : Prop :=
  ((∀ (s : State) (o ls : Int) (us seen : Nat) (i : Instr), s.chip.heard = true → -2 ^ 63 ≤ o → o < 2 ^ 63 →
    (i = .offsetArrive o ls seen ∧ s.chip.entry 0x5000 3 = 0 ∧ s.chip.tku.steps ≤ seen ∨
      i = .offsetSubmit us ∧ s.chip.entry 0x5000 3 = 1 ∧ 7812 ≤ us ∧ us ≤ 16000000 ∧
        o = s.chip.rd64 R.TKU_OFFSET_IN_LO R.TKU_OFFSET_IN_HI) →
    (s.chip.tkuState = 0 → Answers s i (fun d => d = s.chip)) ∧
    (s.chip.tkuState = 1 → o.natAbs < s.chip.entry 0x5000 5 → Answers s i (fun d => s.chip.within d [.regs, .tku] ∧
      d.tkuState = 2 ∧ d.tku.integral = 0 ∧ d.tku.clock = s.chip.tku.clock ∧ s.chip.regsKept d [(R.TKU_STATUS_STATE, 0)])) ∧
    (s.chip.tkuState = 1 → s.chip.entry 0x5000 5 ≤ o.natAbs → 0 ≤ (s.chip.tku.clock : Int) - o * 2 ^ 32 →
      Answers s i (fun d => s.chip.within d [.regs, .muslin, .tku, .dsp, .qmg, .msl, .drc, .gze, .odx, .gng, .sent] ∧
        d.tkuState = 2 ∧ d.tku.clock = ((s.chip.tku.clock : Int) - o * 2 ^ 32).toNat % clockWrap ∧
        d.tku.steps = s.chip.tku.steps + 1)) ∧
    (2 ≤ s.chip.tkuState → o.natAbs ≤ s.chip.entry 0x5000 4 → Answers s i (fun d => s.chip.within d [.regs, .tku] ∧
      d.tkuState = 2 ∧ d.rd64 R.TKU_LAST_OFFSET_LO R.TKU_LAST_OFFSET_HI = o ∧ d.tku.clock = s.chip.tku.clock ∧
      (s.chip.entry 0x5000 2 ≠ 2 → d.rd R.TKU_RATE_ADJ = s.chip.rd R.TKU_RATE_ADJ) ∧
      (s.chip.entry 0x5000 2 = 2 → toSigned 32 (d.rd R.TKU_RATE_ADJ) ≤ 8589935 ∧ -8589935 ≤ toSigned 32 (d.rd R.TKU_RATE_ADJ)))) ∧
    (2 ≤ s.chip.tkuState → s.chip.entry 0x5000 4 < o.natAbs → Answers s i (fun d => s.chip.within d [.regs, .tku, .sent] ∧
      d.tkuState = 4 ∧ d.pendingOffset = o ∧ d.on R.TKU_STATUS_JUMP = true ∧
      d.rd R.TKU_JUMP_CNT_COUNT = (s.chip.rd R.TKU_JUMP_CNT_COUNT + 1) % 2 ^ 32 ∧ d.tku.clock = s.chip.tku.clock))) ∧
  (∀ (s : State) (o ls : Int) (seen : Nat), s.chip.awake = true → s.chip.entry 0x5000 3 = 0 → seen < s.chip.tku.steps →
    s.chip.tkuState ≠ 0 → Answers s (.offsetArrive o ls seen) (fun d => s.chip.within d [.regs, .tku] ∧
      d.rd R.TKU_OFFSET_STALE_CNT_COUNT = (s.chip.rd R.TKU_OFFSET_STALE_CNT_COUNT + 1) % 2 ^ 32 ∧
      s.chip.regsKept d [(R.TKU_OFFSET_STALE_CNT_COUNT, 0)] ∧ d.tku.clock = s.chip.tku.clock)) ∧
  (∀ (s : State), s.chip.live = true →
    (s.chip.tkuState = 2 → Answers s .holdoverTimeout (fun d => s.chip.within d [.regs, .tku, .sent] ∧ d.tkuState = 3 ∧
      d.on R.TKU_STATUS_HOLDOVER_SEEN = true ∧ d.now = max s.chip.now
        (s.chip.tku.offsetAt + 1000000 * (s.chip.entry 0x5000 9 : Int) + s.chip.tku.shift / 2 ^ 32).toNat)) ∧
    (s.chip.tkuState ≠ 2 → Answers s .holdoverTimeout (fun d => d = s.chip)))) ∧
  ((∀ (s : State) (port : Nat) (m : PtpMessage), s.chip.awake = true →
    (s.chip.ptpOn port = false → Answers s (.ptpEventRx port m) (fun d => d = s.chip) ∧
      Answers s (.ptpEventTx port m) (fun d => d = s.chip)) ∧
    (s.chip.ptpOn port = true →
      Answers s (.ptpEventRx port m) (fun d => s.chip.within d [.regs, .tku, .fresh] ∧ d.tku.clock = s.chip.tku.clock ∧
        (∃ t, Table.get? d.tku.ptpStamps (m.kind * 4 + port * 2) = some t ∧
          t ≤ s.chip.tku.clock / 2 ^ 16 + 4 * 2 ^ 16 - s.chip.entry 0x5001 0x0B * 2 ^ 16 ∧
          s.chip.tku.clock / 2 ^ 16 - 4 * 2 ^ 16 - s.chip.entry 0x5001 0x0B * 2 ^ 16 ≤ t) ∧
        (1 ≤ m.portState → m.portState ≤ 5 → m.portState ≠ 3 → d.rd R.TKU_STATUS_PTP_STATE = m.portState) ∧
        (∀ c p, m.master = some (c, p) → d.rd R.TKU_MASTER_ID0_CLOCK_ID = c % 2 ^ 32 ∧
          d.rd R.TKU_MASTER_ID2_PORT_NUMBER = p % 2 ^ 16)) ∧
      Answers s (.ptpEventTx port m) (fun d => s.chip.within d [.tku, .sent, .fresh] ∧ d.tku.clock = s.chip.tku.clock ∧
        ∃ t, Table.get? d.tku.ptpStamps (m.kind * 4 + port * 2 + 1) = some t ∧
          s.chip.tku.clock / 2 ^ 16 + s.chip.entry 0x5001 0x0C * 2 ^ 16 ≤ t + 4 * 2 ^ 16 ∧
          t ≤ s.chip.tku.clock / 2 ^ 16 + s.chip.entry 0x5001 0x0C * 2 ^ 16 + 4 * 2 ^ 16 ∧
          d.sent = ⟨.ptp, port, m.kind, if s.chip.entryOn 0x5001 5 = true then ptpBytes t else []⟩ :: s.chip.sent))) ∧
  (∀ (s : State) (port id : Nat), s.chip.awake = true →
    (Table.getD s.chip.tku.generations (bits id 0 12) 0 ≠ bits id 12 4 →
      Answers s (.txTimestampCapture port id) (fun d => s.chip.within d [.regs] ∧
        d.rd R.TKU_TXTS_STALE_CNT_COUNT = (s.chip.rd R.TKU_TXTS_STALE_CNT_COUNT + 1) % 2 ^ 32 ∧
        s.chip.regsKept d [(R.TKU_TXTS_STALE_CNT_COUNT, 0)])) ∧
    (Table.getD s.chip.tku.generations (bits id 0 12) 0 = bits id 12 4 → 64 ≤ s.chip.tku.txts.length →
      Answers s (.txTimestampCapture port id) (fun d => s.chip.within d [.regs, .sent] ∧
        d.rd R.TKU_TXTS_DROP_CNT_COUNT = (s.chip.rd R.TKU_TXTS_DROP_CNT_COUNT + 1) % 2 ^ 32 ∧
        d.on R.TKU_STATUS_TXTS_OVERFLOW = true)) ∧
    (Table.getD s.chip.tku.generations (bits id 0 12) 0 = bits id 12 4 → s.chip.tku.txts.length < 64 →
      Answers s (.txTimestampCapture port id) (fun d => s.chip.within d [.regs, .tku] ∧
        d.tku = { s.chip.tku with txts := s.chip.tku.txts ++ [⟨id % 65536, port % 2, s.chip.tku.clock⟩] } ∧
        d.rd R.TKU_TXTS_LEVEL_LEVEL = s.chip.tku.txts.length + 1 ∧ s.chip.regsKept d [(R.TKU_TXTS_LEVEL_LEVEL, 0)]))) ∧
  (∀ (s : State) (e : TxStamp) (rest : List TxStamp), s.chip.heard = true → s.chip.tku.txts = e :: rest → e.id < 65536 → e.port < 2 →
    rest.length < 64 →
    Answers s .txtsPop (fun d => s.chip.within d [.regs, .tku, .sent] ∧ d.tku = { s.chip.tku with txts := rest } ∧
      d.rd R.TKU_TXTS0_ID = e.id ∧ d.rd R.TKU_TXTS0_PORT = e.port ∧ d.rd R.TKU_TXTS0_VALID = 1 ∧
      d.rd R.TKU_TXTS1_NS = e.clock / 2 ^ 32 % 1000000000 ∧ d.rd R.TKU_TXTS_LEVEL_LEVEL = rest.length ∧
      d.sent = ⟨.regRead, 0xE00040, e.id + 65536 * e.port + 131072, []⟩ :: s.chip.sent)) ∧
  (∀ (s : State), s.chip.heard = true → s.chip.tku.txts = [] →
    Answers s .txtsPop (fun d => s.chip.within d [.regs, .sent] ∧ d.rd R.TKU_TXTS0 = 0 ∧
      d.sent = ⟨.regRead, 0xE00040, 0, []⟩ :: s.chip.sent)))

/-! ## Object dictionary (chapter 17) -/

/-- R493, R494, R498: READ answers the bytes of an entry: the committed value, or the value that the requester's own session has
staged; an entry that does not exist is refused (every entry may be read by the host, the network and the management core), and one
whose store word is uncorrectable answers ODX_STORE_UE from then on. DESCRIBE answers type, kind, rights, size, radix and default,
which is not returned where the entry is larger than 1,008 B. Neither changes an entry, a session or the journal.
The model's choices in it: log entries 111, 114, 117. -/
def Obligations.DictionaryReads : Prop :=
  ∀ (s : State) (o : Origin) (session index sub : Nat), s.chip.hears o →
    (∀ ue, findEntry index sub = none →
      Answers s (.odxRead o session index sub ue) (fun d => s.chip.within d [.regs, .sent] ∧
        s.chip.replied d o St.ODX_UNKNOWN_ENTRY []) ∧
      Answers s (.odxDescribe o index sub) (fun d => s.chip.within d [.regs, .sent] ∧
        s.chip.replied d o St.ODX_UNKNOWN_ENTRY [])) ∧
    (∀ e, findEntry index sub = some e →
      (s.chip.odx.badStore.contains (entryKey index sub) = false →
        Answers s (.odxRead o session index sub false) (fun d => s.chip.within d [.regs, .sent] ∧
          s.chip.replied d o St.OK (leBytes e.size
            (if s.chip.owns o session = true then
              (Table.get? (s.chip.session session).staged (entryKey index sub)).getD (s.chip.entry index sub)
             else s.chip.entry index sub))) ∧
        Answers s (.odxRead o session index sub true) (fun d => s.chip.within d [.regs, .odx, .sent] ∧
          entryKey index sub ∈ d.odx.badStore ∧ d.on R.ODX_STATUS_STORE_UE = true ∧ d.odx.sessions = s.chip.odx.sessions ∧
          d.odx.journal = s.chip.odx.journal ∧ d.sent.head?.map (·.a) = some St.ODX_STORE_UE)) ∧
      Answers s (.odxDescribe o index sub) (fun d => s.chip.within d [.regs, .sent] ∧
        s.chip.replied d o St.OK (leBytes 16 (e.type + (e.kind <<< 4) + (e.rights <<< 8) + (e.size <<< 16) + (e.radix <<< 32) +
            (b2n (decide (1008 < e.size)) <<< 40)) ++
          (if 1008 < e.size then [] else leBytes e.size e.default))))

/-- R499, R508: OPEN takes the lowest free session for its requester, with nothing staged and its tokens forgotten, and is
journalled; it is refused when none is free. A network path opens a session by its own entry, unless it holds one. Committed values
do not change. R499, R500, R502: STAGE into the requester's own open session keeps the value beside the committed ones and is
journalled; a value that the checks refuse, an entry that another session reserves, and a session that is not the requester's are
refused with nothing staged. The model's choices in it: log entries 112, 116. -/
def Obligations.SessionsOpenAndStage : Prop :=
  ((∀ (s : State) (o : Origin) (token : Word) (n : Nat), s.chip.hears o → s.chip.odx.sessions.length = 8 → originPort o ≠ 1 →
    ((List.range 8).find? (fun k => (s.chip.session k).state == 0) = some n →
      Answers s (.odxOpen o token) (fun d => s.chip.within d [.regs, .dict, .odx, .sent] ∧
        d.session n = ⟨1, originPort o, originPath o, (s.chip.unstepped s.chip.now).toNat, 0, 0, [], none, none⟩ ∧
        (∀ k, k ≠ n → d.session k = s.chip.session k) ∧ s.chip.replied d o St.OK (leBytes 4 n) ∧
        s.chip.journalled d (JournalFields.from { kind := 2, session := n, token := token.toNat } o) ∧
        s.chip.entriesKept d [entryKey 0xA000 1, entryKey 0xA000 2, entryKey (0xA100 + n) 1, entryKey (0xA100 + n) 2,
          entryKey (0xA100 + n) 3, entryKey (0xA100 + n) 7, entryKey (0xA100 + n) 8, entryKey (0xA100 + n) 9])) ∧
    ((∀ k, k < 8 → (s.chip.session k).state ≠ 0) →
      Answers s (.odxOpen o token) (fun d => s.chip.within d [.regs, .sent] ∧ s.chip.replied d o St.ODX_SESSION_FULL []))) ∧
  (∀ (s : State) (path n : Nat) (token : Word), s.chip.awake = true → s.chip.odx.sessions.length = 8 → 1 ≤ path → path ≤ 0x44 →
    (n < 8 → (s.chip.session n).state = 0 → s.chip.entry 0xA010 path = 0xFF →
      Answers s (.netSessionOpen path n token) (fun d => s.chip.within d [.regs, .dict, .odx, .sent] ∧
        (d.session n).state = 1 ∧ (d.session n).owner = 1 ∧ (d.session n).path = path ∧ (d.session n).staged = [] ∧
        d.entry 0xA010 path = n ∧ (∀ k, k ≠ n → d.session k = s.chip.session k) ∧
        s.chip.replied d (pathOrigin path) St.OK (leBytes 4 n))) ∧
    ((8 ≤ n ∨ (s.chip.session n).state ≠ 0 ∨ s.chip.entry 0xA010 path ≠ 0xFF) →
      Answers s (.netSessionOpen path n token) (fun d => s.chip.within d [.regs, .sent] ∧
        s.chip.replied d (pathOrigin path) St.ODX_SESSION_STATE [])))) ∧
  (∀ (s : State) (o : Origin) (n index sub : Nat) (value : List Byte) (token : Word) (staged : Table Nat), s.chip.hears o →
    originPort o ≠ 1 → s.chip.odx.sessions.length = 8 →
    staged = Table.put (s.chip.session n).staged (entryKey index sub) (leNat value) →
    ((s.chip.owns o n = false ∨ (s.chip.session n).state ≠ 1) →
      Answers s (.odxStage o n index sub value token) (fun d => s.chip.within d [.regs, .sent] ∧
        s.chip.replied d o St.ODX_SESSION_STATE [])) ∧
    (s.chip.owns o n = true → (s.chip.session n).state = 1 →
      (s.chip.entryCheck o index sub value false ≠ St.OK →
        Answers s (.odxStage o n index sub value token) (fun d => s.chip.within d [.regs, .sent] ∧
          s.chip.replied d o (s.chip.entryCheck o index sub value false) [])) ∧
      (s.chip.entryCheck o index sub value false = St.OK → (256 < staged.length ∨ 16384 < stagedBytes staged) →
        Answers s (.odxStage o n index sub value token) (fun d => s.chip.within d [.regs, .sent] ∧
          s.chip.replied d o St.ODX_ENTRY_LIMIT [])) ∧
      (s.chip.entryCheck o index sub value false = St.OK → staged.length ≤ 256 → stagedBytes staged ≤ 16384 →
        (s.chip.reservedUntil (entryKey index sub) n ≠ none →
          Answers s (.odxStage o n index sub value token) (fun d => s.chip.within d [.regs, .sent] ∧
            s.chip.replied d o St.BUSY [] ∧ d.rd R.ODX_BUSY_CNT_COUNT = (s.chip.rd R.ODX_BUSY_CNT_COUNT + 1) % 2 ^ 32)) ∧
        (s.chip.reservedUntil (entryKey index sub) n = none →
          Answers s (.odxStage o n index sub value token) (fun d => s.chip.within d [.regs, .dict, .odx, .sent] ∧
            d.session n = { s.chip.session n with staged := staged } ∧ (∀ k, k ≠ n → d.session k = s.chip.session k) ∧
            s.chip.entriesKept d [entryKey 0xA000 1, entryKey 0xA000 2, entryKey (0xA100 + n) 1, entryKey (0xA100 + n) 2,
              entryKey (0xA100 + n) 3, entryKey (0xA100 + n) 7, entryKey (0xA100 + n) 9] ∧
            s.chip.journalled d (JournalFields.from { kind := 3, session := n, index := index, sub := sub, count := value.length, token := token.toNat, payload := valuePayload value } o) ∧ s.chip.replied d o St.OK [])))))

/-- R505, R507, R508: COMMIT arms the requester's open session for the named instant, or for the first control tick 5 µs ahead, and
is refused for values that break a rule and for an instant nearer than 5 µs; ABORT frees a session, and SESSION_TIMEOUT frees one
that stayed open; a repeated COMMIT or ABORT is answered as before and counted. -/
def Obligations.SessionsEnd : Prop :=
  (∀ (s : State) (o : Origin) (n t : Nat) (time : BitVec 64) (token : Word) (i : Instr), s.chip.hears o →
    s.chip.odx.sessions.length = 8 →
    (i = .odxCommit o n time token ∧ originPort o ≠ 1 ∨
      ∃ path, i = .netSessionCommit path n token time ∧ o = pathOrigin path ∧ 1 ≤ path ∧ path ≤ 0x44) →
    t = (if time = 0 then s.chip.tickFrom (s.chip.now + 5000) else time.toNat) →
    ((s.chip.session n).lastCommit = none → (s.chip.owns o n = false ∨ (s.chip.session n).state ≠ 1) →
      Answers s i (fun d => s.chip.within d [.regs, .sent] ∧ s.chip.replied d o St.ODX_SESSION_STATE [])) ∧
    ((s.chip.session n).lastCommit = none → s.chip.owns o n = true → (s.chip.session n).state = 1 →
      (s.chip.projectedOk t (s.chip.session n).staged = false →
        Answers s i (fun d => s.chip.within d [.regs, .sent] ∧ s.chip.replied d o St.ODX_INCONSISTENT [])) ∧
      (s.chip.projectedOk t (s.chip.session n).staged = true → t < s.chip.now + 5000 →
        Answers s i (fun d => s.chip.within d [.regs, .sent] ∧ s.chip.replied d o St.ODX_LATE_COMMIT [])) ∧
      (s.chip.projectedOk t (s.chip.session n).staged = true → s.chip.now + 5000 ≤ t →
        Answers s i (fun d => s.chip.within d [.regs, .dict, .odx, .sent] ∧
          d.session n = { s.chip.session n with
            state := 2, commitAt := t, order := s.chip.odx.nextSeq, lastCommit := some (token.toNat, St.OK, s.chip.odx.nextSeq) } ∧
          (∀ k, k ≠ n → d.session k = s.chip.session k) ∧ s.chip.replied d o St.OK [] ∧
          s.chip.journalled d (JournalFields.from { kind := 4, session := n, count := (s.chip.session n).staged.length, token := token.toNat, extra := t } o))))) ∧
  (∀ (s : State) (o : Origin) (n : Nat) (token : Word) (i : Instr), s.chip.hears o → s.chip.odx.sessions.length = 8 →
    (i = .odxAbort o n token ∧ originPort o ≠ 1 ∨
      ∃ path, i = .netSessionAbort path n token ∧ o = pathOrigin path ∧ 1 ≤ path ∧ path ≤ 0x44) →
    s.chip.owns o n = true →
    (∀ st q, (s.chip.session n).lastAbort = some (token.toNat, st, q) →
      Answers s i (fun d => s.chip.within d [.regs, .sent] ∧ s.chip.replied d o st [] ∧
        d.rd R.ODX_DUP_CNT_COUNT = (s.chip.rd R.ODX_DUP_CNT_COUNT + 1) % 2 ^ 32)) ∧
    ((s.chip.session n).lastAbort = none → (s.chip.session n).state = 1 →
      Answers s i (fun d => s.chip.within d [.regs, .dict, .odx, .sent] ∧ (d.session n).state = 0 ∧ (d.session n).staged = [] ∧
        (∀ k, k ≠ n → d.session k = s.chip.session k) ∧ s.chip.replied d o St.OK [] ∧
        s.chip.journalled d (JournalFields.from { kind := 7, session := n, token := token.toNat } o)))) ∧
  (∀ (s : State) (n : Nat), s.chip.live = true → n < 8 → s.chip.odx.sessions.length = 8 → (s.chip.session n).state = 1 →
    Answers s (.sessionExpire n) (fun d => s.chip.within d [.regs, .dict, .tku, .odx] ∧ (d.session n).state = 0 ∧
      (d.session n).staged = [] ∧ d.now = max s.chip.now (s.chip.expiryOf (s.chip.session n)) ∧
      (∀ k, k ≠ n → d.session k = s.chip.session k) ∧ d.odx.nextSeq = s.chip.odx.nextSeq + 1))

/-- R503, R509, R518: a write outside a session waits as an implicit write for the first control tick 5 µs ahead, when its checks
and the rules allow it; NOTE adds its record to the journal; SAVE and CLEAR_IMAGE start a flash write when there is a partition and
none runs. R496, R516, R518: the flash writes of the Keeper: the image gets every entry with the SAVED right whose value is not its
default, or none; the mirror gets the records of the masked kinds; the tags go to their partition with the SEQ of their APPLY; a
failed read-back leaves the flash as it was. Nothing else in flash changes.
The model's choices in it: log entries 112, 113, 114. -/
def Obligations.WritesAndFlash : Prop :=
  ((∀ (s : State) (o : Origin) (session index sub t : Nat) (value : List Byte) (token : Word) (e : EntryDef), s.chip.hears o →
    findEntry index sub = some e → e.kind ≠ 2 →
    (originPort o ≠ 1 ∧ session = 0x0F ∨ originPort o = 1 ∧ s.chip.entry 0xA010 (originPath o) = 0xFF) →
    t = s.chip.tickFrom (s.chip.now + 5000) →
    (s.chip.entryCheck o index sub value false ≠ St.OK →
      Answers s (.odxWrite o session index sub value token) (fun d => s.chip.within d [.regs, .sent] ∧
        s.chip.replied d o (s.chip.entryCheck o index sub value false) [])) ∧
    (s.chip.entryCheck o index sub value false = St.OK → s.chip.odx.implicit.length < 64 →
      s.chip.reservedUntil (entryKey index sub) 8 = none →
      (s.chip.projectedOk t [(entryKey index sub, leNat value)] = true →
        Answers s (.odxWrite o session index sub value token) (fun d => s.chip.within d [.regs, .dict, .odx, .sent] ∧
          d.odx.implicit = s.chip.odx.implicit ++
            [⟨entryKey index sub, leNat value, t, s.chip.odx.nextSeq, originPort o, originPath o, token.toNat⟩] ∧
          d.odx.sessions = s.chip.odx.sessions ∧ s.chip.entriesKept d [entryKey 0xA000 1, entryKey 0xA000 2] ∧
          s.chip.replied d o St.OK [])) ∧
      (s.chip.projectedOk t [(entryKey index sub, leNat value)] = false →
        Answers s (.odxWrite o session index sub value token) (fun d => s.chip.within d [.regs, .sent] ∧
          s.chip.replied d o St.ODX_INCONSISTENT [])))) ∧
  (∀ (s : State) (o : Origin) (value : List Byte) (token : Word), s.chip.hears o →
    (s.chip.entryCheck o 0xA001 1 value true = St.OK →
      Answers s (.odxNote o value token) (fun d => s.chip.within d [.regs, .dict, .odx, .sent] ∧
        s.chip.journalled d (JournalFields.from { kind := 0x0A, index := 0xA001, sub := 1, token := token.toNat, payload := leNat value } o) ∧ s.chip.replied d o St.OK [] ∧ d.odx.sessions = s.chip.odx.sessions ∧
        s.chip.entriesKept d [entryKey 0xA000 1, entryKey 0xA000 2])) ∧
    (s.chip.entryCheck o 0xA001 1 value true ≠ St.OK →
      Answers s (.odxNote o value token) (fun d => s.chip.within d [.regs, .sent] ∧
        s.chip.replied d o (s.chip.entryCheck o 0xA001 1 value true) []))) ∧
  (∀ (s : State) (o : Origin) (token : Word) (save : Bool) (sub : Nat) (i : Instr), s.chip.hears o →
    (i = .odxSave o token ∧ save = true ∧ sub = 1 ∨ i = .clearImage o token ∧ save = false ∧ sub = 2) →
    s.chip.entryCheck o 0xA002 sub [1] true = St.OK →
    ((s.chip.on R.KPR_STATUS_FLASH_OK = false ∨ 5 ∉ s.chip.flash.parts) →
      Answers s i (fun d => s.chip.within d [.regs, .sent] ∧ s.chip.replied d o St.ODX_NO_IMAGE [])) ∧
    (s.chip.on R.KPR_STATUS_FLASH_OK = true → 5 ∈ s.chip.flash.parts → s.chip.odx.saving ≠ none →
      Answers s i (fun d => s.chip.within d [.regs, .sent] ∧ s.chip.replied d o St.BUSY [])) ∧
    (s.chip.on R.KPR_STATUS_FLASH_OK = true → 5 ∈ s.chip.flash.parts → s.chip.odx.saving = none →
      Answers s i (fun d => s.chip.within d [.regs, .dict, .odx, .sent] ∧ d.odx.saving = some save ∧
        d.on R.KPR_STATUS_SAVE_BUSY = true ∧ s.chip.replied d o St.OK [] ∧
        s.chip.journalled d (JournalFields.from { kind := 9, index := 0xA002, sub := sub, token := token.toNat, payload := 1 } o))))) ∧
  ((∀ (s : State) (save : Bool), s.chip.live = true → s.chip.odx.saving = some save →
    Answers s .saveDone (fun d => s.chip.within d [.regs, .odx, .flash] ∧ d.odx = { s.chip.odx with saving := none } ∧
      d.flash = { s.chip.flash with image := if save = true then some s.chip.savedEntries else none } ∧
      d.on R.KPR_STATUS_SAVE_BUSY = false ∧ s.chip.regsKept d [(R.KPR_STATUS_SAVE_BUSY, 0)])) ∧
  (∀ (s : State), s.chip.live = true → s.chip.on R.KPR_STATUS_FLASH_OK = true → 6 ∈ s.chip.flash.parts →
    s.chip.odx.nextSeq - s.chip.odx.journal.length ≤ s.chip.odx.mirrored + 1 →
    Answers s (.journalMirror true) (fun d => s.chip.within d [.dict, .odx, .flash] ∧
      d.flash = { s.chip.flash with journal := (s.chip.odx.journal.filter (fun r => decide (s.chip.odx.mirrored < recSeq r) &&
        (s.chip.entry 0xA000 4).testBit (recKind r))) ++ s.chip.flash.journal } ∧
      d.odx = { s.chip.odx with mirrored := s.chip.odx.nextSeq - 1 } ∧
      (∀ r, d.flash.journal.head? = some r → d.entry 0xA000 3 = recSeq r) ∧ s.chip.entriesKept d [entryKey 0xA000 3])) ∧
  (∀ (s : State), s.chip.live = true → Answers s (.journalMirror false) (fun d => d = s.chip)) ∧
  (∀ (s : State) (seq : Nat), s.chip.live = true → s.chip.odx.tagsDue = some seq → s.chip.on R.KPR_STATUS_FLASH_OK = true →
    2 ∈ s.chip.flash.parts →
    Answers s (.tagPersist true) (fun d => s.chip.within d [.dict, .odx, .flash] ∧
      d.flash = { s.chip.flash with tags := s.chip.tags, tagsSeq := seq } ∧ d.odx = { s.chip.odx with tagsDue := none } ∧
      d.entry 0x1F81 2 = seq ∧ s.chip.entriesKept d [entryKey 0x1F81 2]) ∧
    Answers s (.tagPersist false) (fun d => s.chip.within d [.regs, .odx] ∧ d.on R.KPR_STATUS_TAG_FAIL = true ∧
      d.odx = { s.chip.odx with tagsDue := none } ∧ s.chip.regsKept d [(R.KPR_STATUS_TAG_FAIL, 0)])))

/-! ## Weaves and dispatch (chapter 03) -/

/-- R290, R66, R67: the queue manager takes the next entry of the round. Where the entry and the header it names can be read in
Muslin and the header is good, a weave enters flight behind the others with the header's fields, the less urgent class of header and
queue, and the queue's completion queue; CONSUMED advances by one and every other queue is as it was. R92, R93: an enabled launch
entry launches its weave at its next grid time; it skips, and counts an overrun, while its previous weave is in flight. An entry
that is not enabled does nothing. -/
def Obligations.WeavesStart : Prop :=
  (∀ (s : State) (n : Nat) (q : Queue), s.chip.awake = true → s.chip.flows →
    s.chip.nextSubmitter = some n → s.chip.queue? n = some q → devRegion (q.slot q.consumed) = 0 →
    s.chip.readable (devOffset (q.slot q.consumed)) 16 →
    ∀ e a h : Nat, e = leNat (s.chip.muslin.read (devOffset (q.slot q.consumed)) 16) → a = bits e 0 40 → a % 64 = 0 →
    devRegion a = 0 → s.chip.readable (devOffset a) 64 → h = leNat (s.chip.muslin.read (devOffset a) 64) →
    Hdr.version h = 1 → 1 ≤ Hdr.count h → Hdr.count h ≤ 65536 → s.chip.validRange [0, 8] a (64 * (Hdr.count h + 1)) = true →
    Answers s .submissionEntryTake (fun d => s.chip.within d [.regs, .dsp, .qmg, .msl, .drc] ∧
      d.dsp.weaves = s.chip.dsp.weaves ++ [{
        id := s.chip.dsp.nextId, addr := a, weaveId := Hdr.weaveId h, count := Hdr.count h,
        cls := max (Hdr.cls h) q.cls, source := .queue n, pair := q.pair, qfence := e.testBit 40, cancelled := false,
        descs := [] }] ∧
      d.rd R.QMG_STATUS_IN_FLIGHT = (s.chip.dsp.weaves.length + 1) % 2 ^ R.QMG_STATUS_IN_FLIGHT.width ∧
      d.qmg.nextServed = n + 1 ∧ (d.qmg.queues.get? n).map (·.consumed) = some (q.consumed + 1) ∧
      ∀ m, m ≠ n → d.qmg.queues.get? m = s.chip.qmg.queues.get? m)) ∧
  ((∀ (s : State) (n : Nat) (h : Nat), n < 64 → s.chip.awake = true → s.chip.on R.DSP_LAUNCH_ENABLE n = true →
    (∀ k, k < n → s.chip.on R.DSP_LAUNCH_ENABLE k = true →
      s.chip.gridNext (gridLaunch k) (s.chip.launchRule k) ≠ s.chip.gridNext (gridLaunch n) (s.chip.launchRule n)) →
    s.chip.boundNet n = none → s.chip.dsp.weaves.length < 1024 → (∀ w ∈ s.chip.dsp.weaves, ∀ k, w.source ≠ .launch n k) →
    devRegion (s.chip.rd R.DSP_LAUNCH_WEAVE_ADDR n) = 0 → s.chip.rd R.DSP_LAUNCH_WEAVE_ADDR n % 64 = 0 →
    s.chip.readable (devOffset (s.chip.rd R.DSP_LAUNCH_WEAVE_ADDR n)) 64 →
    h = leNat (s.chip.muslin.read (devOffset (s.chip.rd R.DSP_LAUNCH_WEAVE_ADDR n)) 64) →
    Hdr.version h = 1 → 1 ≤ Hdr.count h → Hdr.count h ≤ 65536 →
    s.chip.validRange [0, 8] (s.chip.rd R.DSP_LAUNCH_WEAVE_ADDR n) (64 * (Hdr.count h + 1)) = true →
    Answers s (.timedLaunch n) (fun d => s.chip.within d [.regs, .tku, .dsp, .msl] ∧
      d.now = max s.chip.now (s.chip.gridNext (gridLaunch n) (s.chip.launchRule n)) ∧
      d.rd R.DSP_LAUNCH_LAUNCHES n = (s.chip.rd R.DSP_LAUNCH_LAUNCHES n + 1) % 2 ^ R.DSP_LAUNCH_LAUNCHES.width ∧
      d.dsp.weaves = s.chip.dsp.weaves ++ [{
        id := s.chip.dsp.nextId, addr := s.chip.rd R.DSP_LAUNCH_WEAVE_ADDR n,
        weaveId := Hdr.weaveId h, count := Hdr.count h, cls := s.chip.rd R.DSP_LAUNCH_CLASS n,
        source := .launch n (s.chip.rd R.DSP_LAUNCH_LAUNCHES n), pair := s.chip.rd R.DSP_LAUNCH_PAIR n, qfence := false,
        cancelled := false, descs := [] }])) ∧
  (∀ (s : State) (n : Nat), n < 64 → s.chip.awake = true → s.chip.on R.DSP_LAUNCH_ENABLE n = true →
    (∀ k, k < n → s.chip.on R.DSP_LAUNCH_ENABLE k = true →
      s.chip.gridNext (gridLaunch k) (s.chip.launchRule k) ≠ s.chip.gridNext (gridLaunch n) (s.chip.launchRule n)) →
    s.chip.boundNet n = none → (1024 ≤ s.chip.dsp.weaves.length ∨ ∃ w ∈ s.chip.dsp.weaves, ∃ k, w.source = .launch n k) →
    Answers s (.timedLaunch n) (fun d => s.chip.within d [.regs, .tku] ∧
      d.rd R.DSP_LAUNCH_OVERRUNS n = (s.chip.rd R.DSP_LAUNCH_OVERRUNS n + 1) % 2 ^ R.DSP_LAUNCH_OVERRUNS.width ∧
      d.rd R.DSP_LAUNCH_LAUNCHES n = s.chip.rd R.DSP_LAUNCH_LAUNCHES n)) ∧
  (∀ (s : State) (n k : Nat), k < n → n < 64 → s.chip.awake = true → s.chip.on R.DSP_LAUNCH_ENABLE k = true →
    s.chip.gridNext (gridLaunch k) (s.chip.launchRule k) = s.chip.gridNext (gridLaunch n) (s.chip.launchRule n) →
    Answers s (.timedLaunch n) (fun d => d = s.chip)) ∧
  (∀ (s : State) (n : Nat), n < 64 → s.chip.awake = true → s.chip.on R.DSP_LAUNCH_ENABLE n = false →
    Answers s (.timedLaunch n) (fun d => d = s.chip)))

/-- R68, R72: a descriptor is read at most 64 ahead. A good one joins its weave's descriptors with the words that Muslin holds; one
that R72 refuses completes at once with DSP_BAD_DESC. A weave that may not be read on changes nothing. R81, R240: the most urgent
ready descriptor that may start on a free unit starts there: a new operation with cleared flags and generators, its descriptor
started, and no other unit touched. The model's choices in it: log entries 30, 32. -/
def Obligations.DescriptorsRun : Prop :=
  ((∀ (s : State) (w : Weave) (x : Nat), s.chip.awake = true → s.chip.flows →
    s.chip.weave? w.id = some w → s.chip.mayFetch w = true → w.isGolden = false → w.cancelled = false →
    devRegion (w.addr + 64 * (w.descs.length + 1)) = 0 →
    s.chip.readable (devOffset (w.addr + 64 * (w.descs.length + 1))) 64 →
    x = leNat (s.chip.muslin.read (devOffset (w.addr + 64 * (w.descs.length + 1))) 64) →
    Answers s (.descriptorFetch w.id) (fun d => s.chip.within d Parts.dispatch ∧
      (∀ v, d.weave? w.id = some v → v.descs.map (·.raw) = w.descs.map (·.raw) ++ [x]) ∧
      (s.chip.badDesc x w.descs.length = true →
        ∀ v, d.weave? w.id = some v → v.st w.descs.length = some (.done St.DSP_BAD_DESC)) ∧
      (w.descs.length + 1 < w.count → ∃ v, d.weave? w.id = some v))) ∧
  (∀ (s : State) (w : Weave), s.chip.awake = true → s.chip.weave? w.id = some w → s.chip.mayFetch w = false →
    Answers s (.descriptorFetch w.id) (fun d => d = s.chip))) ∧
  (∀ (s : State) (u o t : Nat) (k : Candidate) (w : Weave), u ≤ 26 → s.chip.awake = true → s.chip.on R.DSP_CTRL_ENABLE = true →
    s.chip.mirrorNext u = none → s.chip.orphanSolve u = none → s.chip.bestReady u = some k →
    s.chip.weave? k.weave = some w → w.st k.index = some (.ready o t) → s.chip.safetyRefusal w k.raw = St.OK →
    (Desc.engine k.raw = 7 → s.chip.canvasIn 0 = true) → (Desc.engine k.raw = 8 → s.chip.canvasIn 1 = true) →
    s.chip.unitOffline u = false → s.chip.unitFree u = true → s.chip.suspendedFirst u k.cls = false →
    s.chip.held u k.cls = false →
    Answers s (.descriptorStart u) (fun d =>
      s.chip.within d [.regs, .dict, .muslin, .dsp, .qmg, .msl, .drc, .atu, .twl, .gng, .sent, .fresh] ∧
      d.op? u = some (OpRun.start k u s.chip.now) ∧ (∀ v, v ≠ u → d.op? v = s.chip.op? v) ∧
      ∃ v, d.weave? k.weave = some v ∧ v.st k.index = some .started))

/-- R83, R84, R95: at the end of a tile the operation has run one more tile for that long; it is finished after its last tile, and
it is set aside, its context saved, when Sentinel switches its unit off. R87 and R88: a free unit restores the most urgent operation
it has suspended, when no more urgent work is ready or held for; HOLD_US after a unit became free, its hold ends. R95, R96: an
operation that has finished leaves its unit, and its descriptor completes with its final status.
The model's choices in it: log entries 28, 33, 39. -/
def Obligations.TilesAndOperationsEnd : Prop :=
  ((∀ (s : State) (u ns : Nat) (o : OpRun), s.chip.awake = true → s.chip.flows → s.chip.op? u = some o →
    o.tileReady = true → o.mirror = false → s.chip.forcedOut u = false → s.chip.goldenDropped o.weave = false →
    s.chip.tileTooLong u ns = false →
    (o.finished || (if selfTiled u then o.lastTile else decide (Desc.tileCount o.raw ≤ o.tiles + 1))) = true →
    Answers s (.tileEnd u ns) (fun d =>
      s.chip.within d [.regs, .dict, .muslin, .dsp, .qmg, .msl, .drc, .gng, .sent, .fresh] ∧
      d.op? u = some { o with tiles := o.tiles + 1, activeNs := o.activeNs + ns, tileReady := false, finished := true } ∧
      ∀ v, v ≠ u → d.op? v = s.chip.op? v)) ∧
  (∀ (s : State) (u ns : Nat) (o : OpRun), s.chip.awake = true → s.chip.flows → s.chip.op? u = some o →
    o.tileReady = true → o.mirror = false → s.chip.forcedOut u = false → s.chip.goldenDropped o.weave = false →
    s.chip.tileTooLong u ns = false → s.chip.on R.DSP_CTRL_ENABLE = false → s.chip.sentinel = false →
    (o.finished || (if selfTiled u then o.lastTile else decide (Desc.tileCount o.raw ≤ o.tiles + 1))) = false →
    Answers s (.tileEnd u ns) (fun d =>
      s.chip.within d [.regs, .dict, .muslin, .dsp, .qmg, .msl, .drc, .gng, .sent, .fresh] ∧
      d.op? u = some { o with tiles := o.tiles + 1, activeNs := o.activeNs + ns, tileReady := false } ∧
      ∀ v, v ≠ u → d.op? v = s.chip.op? v)) ∧
  (∀ (s : State) (u ns : Nat) (o : OpRun), s.chip.awake = true → s.chip.flows → s.chip.op? u = some o →
    o.tileReady = true → o.mirror = false → s.chip.forcedOut u = false → s.chip.goldenDropped o.weave = false →
    s.chip.tileTooLong u ns = false → s.chip.sentinel = true → s.chip.sentinelKeeps u = false →
    (o.finished || (if selfTiled u then o.lastTile else decide (Desc.tileCount o.raw ≤ o.tiles + 1))) = false →
    devRegion (s.chip.saveSlot u o.cls) = 0 → s.chip.writable (s.chip.saveSlot u o.cls) 8192 →
    Answers s (.tileEnd u ns) (fun d =>
      s.chip.within d [.regs, .dict, .muslin, .dsp, .qmg, .msl, .drc, .gng, .sent, .fresh] ∧ d.op? u = none ∧
      d.dsp.suspended = { o with tiles := o.tiles + 1, activeNs := o.activeNs + ns, tileReady := false,
                                 preempts := o.preempts + 1 } :: s.chip.dsp.suspended ∧
      ∀ v, v ≠ u → d.op? v = s.chip.op? v))) ∧
  ((∀ (s : State) (u : Nat) (o : OpRun), s.chip.awake = true → s.chip.bestSuspended u = some o → s.chip.unitFree u = true →
    s.chip.unitOffline u = false → s.chip.mirrorNext u = none → (∀ k, s.chip.bestReady u = some k → o.cls ≤ k.cls) →
    s.chip.held u o.cls = false → devRegion (s.chip.saveSlot u o.cls) = 0 → s.chip.readable (s.chip.saveSlot u o.cls) 8192 →
    Answers s (.operationResume u) (fun d =>
      s.chip.within d [.regs, .muslin, .dsp, .qmg, .msl, .drc, .gng, .sent] ∧ d.op? u = some o ∧
      d.dsp.suspended = s.chip.dsp.suspended.filter (fun x => !(x.unit == u && x.cls == o.cls)) ∧
      ∀ v, v ≠ u → d.op? v = s.chip.op? v)) ∧
  (∀ (s : State) (u t : Nat), s.chip.awake = true → Table.get? s.chip.dsp.freeAt u = some t → s.chip.rd R.DSP_CTRL_HOLD_US ≠ 0 →
    s.chip.op? u = none → s.chip.dsp.holdExpired.contains u = false →
    Answers s (.holdExpire u) (fun d => s.chip.within d [.tku, .dsp] ∧
      d.dsp = { s.chip.dsp with holdExpired := insertNat s.chip.dsp.holdExpired u } ∧
      d.now = max s.chip.now (t + s.chip.rd R.DSP_CTRL_HOLD_US * 1000)))) ∧
  ((∀ (s : State) (u : Nat) (o : OpRun) (w : Weave), s.chip.awake = true → u ≠ 1 → s.chip.op? u = some o → o.finished = true →
    o.tileReady = false → o.mirror = false → s.chip.writesWait u = false → s.chip.weave? o.weave = some w → o.index < w.descs.length →
    ∀ wrong, Answers s (.operationComplete u wrong) (fun d =>
      s.chip.within d [.regs, .dict, .muslin, .dsp, .qmg, .msl, .drc, .dmk, .atu, .gng, .sent] ∧ d.op? u = none ∧
      (∀ v, d.weave? o.weave = some v → v.st o.index = some (.done o.finalStatus)) ∧
      ∀ v, v ≠ u → d.op? v = s.chip.op? v)) ∧
  (∀ (s : State) (o : OpRun), s.chip.awake = true → s.chip.op? 1 = some o → o.finished = true → o.tileReady = false →
    o.mirror = false → s.chip.writesWait 1 = false →
    ∀ wrong, Answers s (.operationComplete 1 wrong) (fun d =>
      s.chip.within d [.regs, .dict, .muslin, .dsp, .qmg, .msl, .drc, .dmk, .atu, .gng, .sent] ∧ d.op? 1 = none ∧
      ∀ v, v ≠ 1 → d.op? v = s.chip.op? v)))

/-- R78: the control operations. NOP completes as soon as it is ready; SIG_SET sets its signal, clears its poison and completes;
WAIT_UNTIL completes at or after its time and otherwise waits for it; WAIT_UNTIL_EXPIRE completes it then. R77, R90, R98: a write to
a Dispatch signal sets it, and ADD adds to it modulo `2^32`, while signal 0 takes neither; a cancel completes every descriptor of
the weaves with that WEAVE_ID that has not started; STAT_CLEAR clears both statistics; ENABLE follows the write once stage 11 has
passed. The model's choices in it: log entry 29. -/def Obligations.ControlAndRegisters : Prop :=
  ((∀ (s : State) (w : Weave) (i o t : Nat), s.chip.awake = true → s.chip.on R.DSP_CTRL_ENABLE = true →
    s.chip.weave? w.id = some w → w.st i = some (.ready o t) → Desc.engine (w.raw i) = 0xA → Desc.opcode (w.raw i) = 1 →
    Answers s (.nop w.id i) (fun d => s.chip.within d Parts.dispatch ∧
      ∀ v, d.weave? w.id = some v → v.st i = some (.done St.OK))) ∧
  (∀ (s : State) (w : Weave) (i o t : Nat), s.chip.awake = true → s.chip.on R.DSP_CTRL_ENABLE = true →
    s.chip.weave? w.id = some w → w.st i = some (.ready o t) → Desc.engine (w.raw i) = 0xA → Desc.opcode (w.raw i) = 3 →
    Desc.postSig (w.raw i) ≠ bits (w.raw i) 256 8 → bits (w.raw i) 256 8 ≠ 0 →
    Answers s (.sigSet w.id i) (fun d => s.chip.within d Parts.dispatch ∧
      d.rd R.DSP_SIG_VALUE (bits (w.raw i) 256 8) = bits (w.raw i) 288 32 ∧
      ∀ v, d.weave? w.id = some v → v.st i = some (.done St.OK))) ∧
  (∀ (s : State) (w : Weave) (i o t : Nat), s.chip.awake = true → s.chip.on R.DSP_CTRL_ENABLE = true →
    s.chip.weave? w.id = some w → w.st i = some (.ready o t) → Desc.engine (w.raw i) = 0xA → Desc.opcode (w.raw i) = 2 →
    Answers s (.waitUntil w.id i) (fun d => s.chip.within d Parts.dispatch ∧
      (waitTime (w.raw i) ≤ s.chip.now → ∀ v, d.weave? w.id = some v → v.st i = some (.done St.OK)) ∧
      (s.chip.now < waitTime (w.raw i) → ∃ v, d.weave? w.id = some v ∧ v.st i = some .timed))) ∧
  (∀ (s : State) (w : Weave) (i : Nat), s.chip.awake = true → s.chip.weave? w.id = some w → w.st i = some .timed →
    Answers s (.waitUntilExpire w.id i) (fun d => s.chip.within d (.tku :: Parts.dispatch) ∧
      d.now = max s.chip.now (waitTime (w.raw i)) ∧ ∀ v, d.weave? w.id = some v → v.st i = some (.done St.OK)))) ∧
  ((∀ (s : State) (n : BitVec 8) (v : Word), s.chip.heard = true →
    Answers s (.dspSigWrite n v) (fun d => s.chip.within d Parts.dispatch ∧
      (n ≠ 0 → d.rd R.DSP_SIG_VALUE n.toNat = v.toNat) ∧
      ∀ m, m < 256 → m = 0 ∨ m ≠ n.toNat → d.rd R.DSP_SIG_VALUE m = s.chip.rd R.DSP_SIG_VALUE m)) ∧
  (∀ (s : State) (n : BitVec 8) (a : BitVec 24), s.chip.heard = true →
    Answers s (.dspSigAdd n a) (fun d => s.chip.within d Parts.dispatch ∧
      (n ≠ 0 → d.rd R.DSP_SIG_VALUE n.toNat = (s.chip.rd R.DSP_SIG_VALUE n.toNat + a.toNat) % 2 ^ 32) ∧
      ∀ m, m < 256 → m = 0 ∨ m ≠ n.toNat → d.rd R.DSP_SIG_VALUE m = s.chip.rd R.DSP_SIG_VALUE m)) ∧
  (∀ (s : State) (id : BitVec 16), s.chip.heard = true → s.chip.dsp.handles →
    Answers s (.dspCancel id) (fun d => s.chip.within d Parts.dispatch ∧
      ∀ w ∈ d.dsp.weaves, w.weaveId = id.toNat →
        w.cancelled = true ∧ ∀ i o t, w.st i ≠ some .waiting ∧ w.st i ≠ some (.ready o t))) ∧
  (∀ (s : State), s.chip.heard = true →
    Answers s .statClear (fun d => s.chip.within d [.regs] ∧ d.rd R.DSP_PREEMPT_STAT_PREEMPTS = 0 ∧
      d.rd R.DSP_PREEMPT_STAT_MAX_LAT = 0 ∧
      s.chip.regsKept d [(R.DSP_PREEMPT_STAT_PREEMPTS, 0), (R.DSP_PREEMPT_STAT_MAX_LAT, 0)])) ∧
  (∀ (s : State) (on : Bool), s.chip.heard = true → (on = true → 11 ≤ s.chip.rd R.BUP_STATUS_LAST_PASSED) →
    Answers s (.dspCtrlEnable on) (fun d => s.chip.within d [.regs] ∧ d.on R.DSP_CTRL_ENABLE = on ∧
      s.chip.regsKept d [(R.DSP_CTRL_ENABLE, 0)])) ∧
  (∀ (s : State), s.chip.heard = true → s.chip.rd R.BUP_STATUS_LAST_PASSED < 11 →
    Answers s (.dspCtrlEnable true) (fun d => d = s.chip)))

/-- Every tile command of Damask: the next tile of MATMUL, PIN, UNPIN, SLOT_SAVE, SLOT_LOAD, COLUMN_TEST, SCAN, ANCHOR, CHECKPOINT
and RESTORE runs on unit 0, or the operation ends with the status of its check; a tile of MATMUL that reads a slot of bad parity
ends it with DMK_SLOT_PARITY and writes no block (R153). Every tile command of Twill: a cluster's operation
of opcode 0x01 to 0x12 has its next tile done, whatever the ECC of the cluster's store finds (an uncorrectable word ends the
operation), or ends with the status of its check. Every tile command of the other engines: the ATU's ATTN_DECODE and ATTN_PREFILL on
unit 1, BATCH of Gauze on unit 20, FUSE, TRACK_IMPORT and TRACK_EXPORT of Tweed on unit 21, PLAN, REPAIR and WORLD_EDIT of Tulle on
unit 22, COPY and FILL on the copy engine's ports, units 25 and 26. The tile commands of Canvas: LOAD and UNLOAD on an instance,
under whichever engine code the operation has, and SOLVE where no word of the instance's store is uncorrectable.
The model's choices in it: log entries 4, 46. -/
def Obligations.TilesRun : Prop :=
  ((∀ stalls parity, TileCommand (.matmul stalls parity) 0 0 1 Parts.tile (fun _ o => matCheck o.raw)) ∧
  (∀ stalls, TileCommand (.pin stalls) 0 0 2 Parts.tile (fun c o => c.pinCheck o.raw)) ∧
  (∀ stalls, TileCommand (.unpin stalls) 0 0 3 Parts.tile (fun c o => c.unpinCheck o.raw)) ∧
  (∀ stalls parity, TileCommand (.slotSave stalls parity) 0 0 4 Parts.tile (fun c o => c.imageCheck o.raw)) ∧
  (∀ stalls, TileCommand (.slotLoad stalls) 0 0 5 Parts.tile (fun c o => c.slotLoadCheck o.raw)) ∧
  (∀ stalls failing parity, TileCommand (.columnTest stalls failing parity) 0 0 6 Parts.tile (fun _ o => columnCheck o.raw)) ∧
  (∀ stalls slots, TileCommand (.scan stalls slots) 0 0 0x10 Parts.tile (fun c o => c.scanCheck o.raw)) ∧
  (∀ stalls, TileCommand (.anchor stalls) 0 0 0x11 Parts.tile (fun c o => c.anchorCheck o.raw)) ∧
  (∀ (s : State) (o : OpRun) (stalls : Nat), s.chip.awaitsTile 0 o 0 1 → o.begun = true →
    Answers s (.matmul stalls true) (fun d => s.chip.within d [.regs, .dsp, .msl, .drc, .sent] ∧
      d.on R.DMK_STATUS_SLOT_PARITY = true ∧ ∃ p, d.op? 0 = some p ∧ p.finished = true ∧
        p.status = worse o.status St.DMK_SLOT_PARITY)) ∧
  (∀ stalls parity, TileCommand (.checkpoint stalls parity) 0 0 0x12 Parts.tile (fun c o => c.checkpointCheck o.raw)) ∧
  (∀ stalls, TileCommand (.restore stalls) 0 0 0x13 Parts.tile (fun c o => c.recCheck o.raw 64 true))) ∧
  (∀ (k stalls : Nat) (ecc : EccFinding),
    TileCommand (.unary k stalls ecc) (k + 2) 2 0x01 Parts.tile (fun c o => c.twCheck o) ∧
    TileCommand (.binary k stalls ecc) (k + 2) 2 0x02 Parts.tile (fun c o => c.twCheck o) ∧
    TileCommand (.ternary k stalls ecc) (k + 2) 2 0x03 Parts.tile (fun c o => c.twCheck o) ∧
    TileCommand (.reduce k stalls ecc) (k + 2) 2 0x04 Parts.tile (fun c o => c.twCheck o) ∧
    TileCommand (.cumulative k stalls ecc) (k + 2) 2 0x05 Parts.tile (fun c o => c.twCheck o) ∧
    TileCommand (.softmax k stalls ecc) (k + 2) 2 0x06 Parts.tile (fun c o => c.twCheck o) ∧
    TileCommand (.norm k stalls ecc) (k + 2) 2 0x07 Parts.tile (fun c o => c.twCheck o) ∧
    TileCommand (.optim k stalls ecc) (k + 2) 2 0x08 Parts.tile (fun c o => c.twCheck o) ∧
    TileCommand (.topk k stalls ecc) (k + 2) 2 0x09 Parts.tile (fun c o => c.twCheck o) ∧
    TileCommand (.sample k stalls ecc) (k + 2) 2 0x0A Parts.tile (fun c o => c.twCheck o) ∧
    TileCommand (.convert k stalls ecc) (k + 2) 2 0x0B Parts.tile (fun c o => c.twCheck o) ∧
    TileCommand (.layout k stalls ecc) (k + 2) 2 0x0C Parts.tile (fun c o => c.twCheck o) ∧
    TileCommand (.rope k stalls ecc) (k + 2) 2 0x0D Parts.tile (fun c o => c.twCheck o) ∧
    TileCommand (.loss k stalls ecc) (k + 2) 2 0x0E Parts.tile (fun c o => c.twCheck o) ∧
    TileCommand (.backward k stalls ecc) (k + 2) 2 0x0F Parts.tile (fun c o => c.twCheck o) ∧
    TileCommand (.stats k stalls ecc) (k + 2) 2 0x10 Parts.tile (fun c o => c.twCheck o) ∧
    TileCommand (.shadowScan k stalls ecc) (k + 2) 2 0x11 Parts.tile (fun c o => c.twCheck o) ∧
    TileCommand (.vmatmul k stalls ecc) (k + 2) 2 0x12 Parts.tile (fun c o => c.twCheck o)) ∧
  (TileCommand .attnDecode 1 1 1 Parts.tile (fun c o => c.atuCheck o.raw) ∧
  TileCommand .attnPrefill 1 1 2 Parts.tile (fun c o => c.atuCheck o.raw) ∧
  (∀ units stalls, TileCommand (.batch units stalls) 20 3 1 Parts.tile (fun c o => c.batchCheck o)) ∧
  (∀ units stalls, TileCommand (.fuse units stalls) 21 4 1 Parts.tile (fun _ _ => St.OK)) ∧
  TileCommand .trackImport 21 4 2 Parts.tile (fun c o => c.importCheck o.raw) ∧
  TileCommand .trackExport 21 4 3 Parts.tile (fun c o => c.exportCheck o.raw) ∧
  (∀ stalls, TileCommand (.plan stalls) 22 5 1 Parts.tile (fun _ _ => St.OK)) ∧
  (∀ stalls, TileCommand (.tulRepair stalls) 22 5 2 Parts.tile (fun _ _ => St.OK)) ∧
  (∀ stalls, TileCommand (.worldEdit stalls) 22 5 3 Parts.tile (fun _ _ => St.OK)) ∧
  (∀ port error, port < 2 → TileCommand (.copy port error) (25 + port) 9 1 Parts.tile (fun c o => c.copyCheck o.raw)) ∧
  (∀ port, port < 2 → TileCommand (.fill port) (25 + port) 9 2 Parts.tile (fun c o => c.copyCheck o.raw))) ∧
  (∀ (k e : Nat), k < 2 →
    TileCommand (.cnvLoad k) (23 + k) e 1 Parts.tile (fun c o => c.slotCheck k o.raw) ∧
    TileCommand (.cnvUnload k) (23 + k) e 3 Parts.tile (fun c o => c.unloadCheck k o.raw) ∧
    (∀ (stalls corrected : Nat) (s : State) (o : OpRun), s.chip.awaitsTile (23 + k) o e 2 →
      (o.begun = true ∨ s.chip.untouched.solveCheck k o.raw = St.OK) →
      Answers s (.cnvSolve k stalls corrected false) (fun d =>
        s.chip.within d [.regs, .muslin, .host, .dsp, .qmg, .msl, .drc, .dmk, .atu, .twl, .gze, .twd, .tul, .cnv, .moved, .gng,
          .sent, .fresh] ∧ TileDone s.chip (23 + k) o d)))

/-! ## Muslin (chapter 04) -/

/-- R100, R102, R107, R108: a read of readable words returns, line by line, the bytes of Muslin and changes nothing else; where a
single-bit error is found it returns the same bytes, counts the error and queues the word for its write-back; where an uncorrectable
one is found the data leave marked poisoned, the error is counted, latched and logged with source 0, the word stays poisoned, and the
operation of the requesting unit ends with MSL_UNCORRECTABLE; where the network loses a word of it (R20), the operation ends with
NET_UNCORRECTABLE, and with no operation vector 0 is raised. R105 and R274: an atomic update by the host port changes the word that
MSL_HATOM_ADDR names and leaves in MSL_HATOM_OLD what the word held before, and one that the network loses changes nothing; a BAR2 read
answers the bytes of Muslin, and a Completer Abort with BAD_ACCESS where the group is switched off or the quad isolated. The model's
choices in it: log entries 40, 44, 161. -/
def Obligations.MuslinReadsAndPorts : Prop :=
  (∀ (s : State) (a n unit : Nat), s.chip.awake = true → s.chip.muslinRange a n = true → s.chip.readable (devOffset a) n →
    Answers s (.muslinRead a n unit [] []) (fun d => s.chip.within d [.msl, .sent] ∧
      d.msl.poisoned = s.chip.msl.poisoned ∧ d.msl.writebacks = s.chip.msl.writebacks ∧
      d.sent = ((partsOf 128 (devOffset a) n).map (fun p => ⟨.line, p.1, 0, s.chip.muslin.read p.1 p.2.2⟩)).reverse ++ s.chip.sent)) ∧
  (∀ (s : State) (a n unit w : Nat), s.chip.awake = true → s.chip.muslinRange a n = true → s.chip.readable (devOffset a) n →
    devOffset a % 128 + n ≤ 128 → w ∈ wordsOf (devOffset a) n →
    Answers s (.muslinRead a n unit [(w, false)] []) (fun d => s.chip.within d [.regs, .msl, .sent] ∧
      d.rd R.MSL_ECC_CE_CNT_COUNT = (s.chip.rd R.MSL_ECC_CE_CNT_COUNT + 1) % 2 ^ 32 ∧
      s.chip.regsKept d [(R.MSL_ECC_CE_CNT_COUNT, 0)] ∧ d.msl.poisoned = s.chip.msl.poisoned ∧
      d.msl.writebacks = insertNat s.chip.msl.writebacks w ∧
      d.sent = ⟨.line, devOffset a, 0, s.chip.muslin.read (devOffset a) n⟩ :: s.chip.sent) ∧
    (s.chip.plainOn unit →
      Answers s (.muslinRead a n unit [(w, true)] []) (fun d => s.chip.within d [.regs, .dsp, .msl, .sent] ∧
        d.rd R.MSL_ECC_UE_CNT_COUNT = (s.chip.rd R.MSL_ECC_UE_CNT_COUNT + 1) % 2 ^ 32 ∧ d.rd R.MSL_STATUS_UE_LATCH = 1 ∧
        d.rd R.MSL_ERR_LOG_VALID = 1 ∧
        (s.chip.rd R.MSL_ERR_LOG_VALID = 0 → d.rd R.MSL_ERR_LOG_WORD = w ∧ d.rd R.MSL_ERR_LOG_SOURCE = 0) ∧
        (s.chip.rd R.MSL_ERR_LOG_VALID = 1 → d.rd R.MSL_ERR_LOG_WORD = s.chip.rd R.MSL_ERR_LOG_WORD) ∧
        d.msl.poisoned = insertNat s.chip.msl.poisoned w ∧
        d.sent.head? = some ⟨.line, devOffset a, 1, s.chip.muslin.read (devOffset a) n⟩ ∧
        d.op? unit = (s.chip.op? unit).map (·.ends St.MSL_UNCORRECTABLE) ∧ ∀ v, v ≠ unit → d.op? v = s.chip.op? v) ∧
      Answers s (.muslinRead a n unit [] [(w, true)]) (fun d => s.chip.within d [.regs, .dsp, .msl, .sent] ∧
        d.msl.poisoned = s.chip.msl.poisoned ∧
        (s.chip.op? unit ≠ none →
          d.sent = ⟨.line, devOffset a, 1, s.chip.muslin.read (devOffset a) n⟩ :: s.chip.sent ∧
          ∀ f i, d.rd f i = s.chip.rd f i) ∧
        (s.chip.op? unit = none → (d.rd R.HIF_EVT_PEND_PEND).testBit 0 = true) ∧
        d.op? unit = (s.chip.op? unit).map (·.ends St.NET_UNCORRECTABLE) ∧ ∀ v, v ≠ unit → d.op? v = s.chip.op? v)) ∧
    (∀ o found net, s.chip.op? unit = some o → (found, net) ∈ [([(w, true)], []), ([], [(w, true)])] →
      Answers s (.muslinRead a n unit found net) (fun d => (∃ r, d.op? unit = some r ∧ r.finished = true) ∧
        ∀ v, v ≠ unit → d.op? v = s.chip.op? v))) ∧
  ((∀ (s : State) (mask : Word) (off old : Nat), s.chip.heard = true → off = s.chip.rd R.MSL_HATOM_ADDR_WORD * 4 →
    s.chip.writable off 4 → old = leNat (s.chip.muslin.read off 4) →
    Answers s (.hatomSet mask .clean) (fun d => s.chip.within d [.regs, .muslin, .msl] ∧
      leNat (d.muslin.read off 4) = old ||| mask.toNat ∧ d.rd R.MSL_HATOM_OLD_VALUE = old ∧
      s.chip.regsKept d [(R.MSL_HATOM_OLD_VALUE, 0)] ∧ s.chip.muslinKept d off 4) ∧
    Answers s (.hatomClr mask .clean) (fun d => s.chip.within d [.regs, .muslin, .msl] ∧
      leNat (d.muslin.read off 4) = old &&& (~~~ mask).toNat ∧ d.rd R.MSL_HATOM_OLD_VALUE = old ∧
      s.chip.regsKept d [(R.MSL_HATOM_OLD_VALUE, 0)] ∧ s.chip.muslinKept d off 4) ∧
    ∀ i, i = Instr.hatomSet mask .uncorrectable ∨ i = .hatomClr mask .uncorrectable →
      Answers s i (fun d => s.chip.within d [.regs, .dsp, .muslin, .msl, .dmk, .sent, .fresh] ∧ d.rd R.MSL_HATOM_OLD_VALUE = old ∧
        (s.chip.op? 31 = none → s.chip.within d [.regs, .msl, .sent]))) ∧
  (∀ (s : State) (a n : Nat), s.chip.heard = true → a + n ≤ muslinSize → s.chip.readable a n →
    Answers s (.bar2Read a n [] []) (fun d => s.chip.within d [.msl, .sent] ∧
      d.sent = ((partsOf 128 a n).map (fun p => ⟨.bar2, 0, p.1, s.chip.muslin.read p.1 p.2.2⟩)).reverse ++ s.chip.sent)) ∧
  (∀ (s : State) (a n : Nat), s.chip.heard = true → a + n ≤ muslinSize → 0 < n → a % 128 + n ≤ 128 →
    (s.chip.group (groupOf a)).phase = .active ∨ (s.chip.group (groupOf a)).phase = .off →
    s.chip.linesServe a n = false →
    ∀ found net, Answers s (.bar2Read a n found net) (fun d => s.chip.within d [.regs, .sent] ∧ d.rd R.HIF_STATUS_BAD_ACCESS = 1 ∧
      s.chip.regsKept d [(R.HIF_STATUS_BAD_ACCESS, 0)] ∧ d.sent = ⟨.bar2, 2, a, []⟩ :: s.chip.sent)))

/-- R101, R103: a write to words of an active group that are neither poisoned nor protected leaves each byte as written, or as its old
value OR or AND NOT the byte written, by the alias it goes through; every other byte of Muslin, every register and every operation is
as it was. R109 and R134: a write within a line that is protected, or that covers a poisoned word only in part, is not performed:
Muslin keeps every byte, WP_HIT or UE_LATCH is set, and the requesting operation ends with MSL_WRITE_PROTECT or MSL_UNCORRECTABLE; a
write over a whole poisoned word is performed and clears its poison. R20: a word that a double-bit error of the network loses on its
way is not written, and the requesting operation ends with NET_UNCORRECTABLE. -/
def Obligations.MuslinWrites : Prop :=
  (∀ (s : State) (a unit : Nat) (data : List Byte), s.chip.awake = true → s.chip.muslinRange a data.length = true →
    s.chip.writable (devOffset a) data.length →
    ∀ P : (Byte → Byte → Byte) → Chip → Prop, P = (fun f d => s.chip.within d [.muslin, .msl] ∧
      (∀ k b, data[k]? = some b → d.muslin.get (devOffset a + k) = f (s.chip.muslin.get (devOffset a + k)) b) ∧
      s.chip.muslinKept d (devOffset a) data.length) →
    Answers s (.muslinWrite a unit data []) (P (fun old new =>
      if devRegion a = 1 then old ||| new else if devRegion a = 2 then old &&& ~~~ new else new)) ∧
    Answers s (.bitSetWrite a unit data []) (P (fun old new => old ||| new)) ∧
    Answers s (.bitClearWrite a unit data []) (P (fun old new => old &&& ~~~ new)) ∧
    (devRegion a = 0 → s.chip.heard = true → Answers s (.bar2Write (devOffset a) data []) (P (fun _ new => new)))) ∧
  (∀ (s : State) (a unit off : Nat) (data : List Byte), s.chip.awake = true → s.chip.muslinRange a data.length = true → data ≠ [] →
    off = devOffset a → off % 128 + data.length ≤ 128 → s.chip.groupActive (groupOf off) = true →
    s.chip.linesServe off data.length = true →
    (∀ i, i = Instr.muslinWrite a unit data [] ∨ i = .bitSetWrite a unit data [] ∨ i = .bitClearWrite a unit data [] →
      (s.chip.protectedAt off = true →
        Answers s i (fun d => d.rd R.MSL_STATUS_WP_HIT = 1 ∧
          (s.chip.plainOn unit → s.chip.within d [.regs, .dsp, .msl, .sent] ∧
            d.op? unit = (s.chip.op? unit).map (·.ends St.MSL_WRITE_PROTECT)) ∧
          (∀ o, s.chip.op? unit = some o → ∃ r, d.op? unit = some r ∧ r.finished = true) ∧
          ∀ v, v ≠ unit → d.op? v = s.chip.op? v)) ∧
      (∀ w, s.chip.protectedAt off = false → data.length < 8 → off / 8 = w → off % 8 + data.length ≤ 8 →
        s.chip.msl.poisoned.count w = 1 →
        Answers s i (fun d => d.rd R.MSL_STATUS_UE_LATCH = 1 ∧
          (s.chip.plainOn unit → s.chip.within d [.regs, .dsp, .msl, .sent] ∧
            d.rd R.MSL_ECC_UE_CNT_COUNT = (s.chip.rd R.MSL_ECC_UE_CNT_COUNT + 1) % 2 ^ 32 ∧
            (s.chip.rd R.MSL_ERR_LOG_VALID = 0 → d.rd R.MSL_ERR_LOG_SOURCE = 4 ∧ d.rd R.MSL_ERR_LOG_WORD = w) ∧
            d.op? unit = (s.chip.op? unit).map (·.ends St.MSL_UNCORRECTABLE)) ∧
          (∀ o, s.chip.op? unit = some o → ∃ r, d.op? unit = some r ∧ r.finished = true) ∧
          ∀ v, v ≠ unit → d.op? v = s.chip.op? v))) ∧
    (s.chip.protectedAt off = false → data.length = 8 → off % 8 = 0 → devRegion a = 0 →
      Answers s (.muslinWrite a unit data []) (fun d => s.chip.within d [.muslin, .msl] ∧ off / 8 ∉ d.msl.poisoned ∧
        d.muslin.read off 8 = data ∧ s.chip.muslinKept d off 8)) ∧
    (∀ net i, off % 8 + data.length ≤ 8 → (off / 8, true) ∈ net →
      i = Instr.muslinWrite a unit data net ∨ i = .bitSetWrite a unit data net ∨ i = .bitClearWrite a unit data net →
      Answers s i (fun d => (s.chip.plainOn unit → s.chip.within d [.regs, .dsp, .msl, .sent] ∧
          d.op? unit = (s.chip.op? unit).map (·.ends St.NET_UNCORRECTABLE)) ∧
        (∀ o, s.chip.op? unit = some o → ∃ r, d.op? unit = some r ∧ r.finished = true) ∧
        (s.chip.op? unit = none → (d.rd R.HIF_EVT_PEND_PEND).testBit 0 = true) ∧
        ∀ v, v ≠ unit → d.op? v = s.chip.op? v)))

/-- R113, R114, R116: an allowed group that no request reached for RET_IDLE_US, and no group under test, begins to enter retention, and
is retained 4 µs later; a request to a group in retention waits, in order of arrival, and starts its wake; 18 µs later the group is
active, holds no request, and its extra scrub pass begins. A group that filled is active 20 µs after its fill began. Muslin keeps its
contents throughout. R107 and R110: the corrected word that waits longest is written back and no other; with SCRUB_EN the scrubber
reads, PERIOD_S / 32,768 after its last line, the next line of every active group but those in their pass after retention, and for one
of these its next line every 64 Muslin cycles; it moves each group on by one line and back to line 0 after the last; an error that it
finds is counted, and an uncorrectable word is logged with source 2, while no operation meets a status. Muslin keeps every byte. The
model's choices in it: log entries 41, 42. -/
def Obligations.MuslinRetentionAndScrub : Prop :=
  ((∀ (s : State) (g : Nat), g < 8 → s.chip.awake = true → s.chip.sentinel = false →
    (s.chip.rd R.MSL_RET_CTRL_RET_ALLOW).testBit g = true → s.chip.groupActive g = true → s.chip.underTest g = false →
    s.chip.msl.groups.length = 8 →
    Answers s (.retentionEntry g) (fun d => s.chip.within d [.regs, .tku, .msl] ∧ (d.group g).phase = .entering d.now ∧
      d.now = max s.chip.now ((s.chip.group g).lastRequest + s.chip.rd R.MSL_RET_CTRL_RET_IDLE_US * 1000) ∧
      d.domainState (6 + g) = 3 ∧ (d.group g).waiting = (s.chip.group g).waiting ∧ ∀ k, k ≠ g → d.group k = s.chip.group k)) ∧
  (∀ (s : State) (g t : Nat), g < 8 → s.chip.awake = true → (s.chip.group g).phase = .entering t → s.chip.msl.groups.length = 8 →
    Answers s (.retentionEntry g) (fun d => s.chip.within d [.regs, .tku, .msl] ∧ (d.group g).phase = .retention ∧
      d.now = max s.chip.now (t + 4000) ∧ d.domainState (6 + g) = 3 ∧
      d.msl.writebacks = s.chip.msl.writebacks.filter (fun w => groupOf (8 * w) != g) ∧ ∀ k, k ≠ g → d.group k = s.chip.group k)) ∧
  (∀ (s : State) (g : Nat), s.chip.awake = true → s.chip.groupActive g = true →
    (s.chip.underTest g = true ∨ g = 0 ∧ s.chip.sentinel = true) →
    Answers s (.retentionEntry g) (fun d => d = s.chip)) ∧
  (∀ (s : State) (a unit : Nat) (data : List Byte) (net : List (Nat × Bool)) (g : Nat), s.chip.awake = true →
    s.chip.muslinRange a data.length = true → data ≠ [] → devOffset a % 128 + data.length ≤ 128 →
    g = groupOf (devOffset a) → (s.chip.group g).phase = .retention →
    s.chip.isolated.contains (18 + bankOf (devOffset a) / 4) = false → s.chip.msl.groups.length = 8 →
    Answers s (.muslinWrite a unit data net) (fun d => s.chip.within d [.regs, .msl] ∧
      (d.group g).phase = .leaving s.chip.now ∧
      (d.group g).waiting = (s.chip.group g).waiting ++ [(.muslinWrite a unit data net, 0)] ∧
      ∀ k, k ≠ g → d.group k = s.chip.group k)) ∧
  (∀ (s : State) (g t : Nat), g < 8 → s.chip.awake = true →
    ((s.chip.group g).phase = .leaving t ∨ (s.chip.group g).phase = .retention ∧ t = s.chip.now) → s.chip.msl.groups.length = 8 →
    Answers s (.retentionWakeDone g) (fun d => (d.group g).phase = .active ∧ (d.group g).waiting = [] ∧
      (d.group g).scrubLine = 0 ∧ (d.group g).fastPass = some d.now ∧ d.now = max s.chip.now (t + 18000) ∧
      ((s.chip.group g).waiting = [] → s.chip.within d [.regs, .tku, .msl] ∧ d.domainState (6 + g) = 0 ∧
        ∀ k, k ≠ g → d.group k = s.chip.group k))) ∧
  (∀ (s : State) (g t : Nat), g < 8 → s.chip.awake = true → (s.chip.group g).phase = .filling t → s.chip.msl.groups.length = 8 →
    Answers s (.groupFillDone g) (fun d => (d.group g).phase = .active ∧ (d.group g).waiting = [] ∧
      d.now = max s.chip.now (t + 20000) ∧
      ((s.chip.group g).waiting = [] → s.chip.within d [.regs, .tku, .msl] ∧ d.domainState (6 + g) = 0 ∧
        ∀ k, k ≠ g → d.group k = s.chip.group k)))) ∧
  ((∀ (s : State), s.chip.awake = true →
    Answers s .eccWriteback (fun d => s.chip.within d [.msl] ∧ d.msl = { s.chip.msl with writebacks := s.chip.msl.writebacks.drop 1 })) ∧
  (∀ (s : State) (found : List (Nat × Bool)), s.chip.awake = true → s.chip.on R.MSL_CTRL_SCRUB_EN = true →
    s.chip.msl.groups.length = 8 →
    Answers s (.patrolScrubRead none found) (fun d => s.chip.within d [.regs, .tku, .msl, .sent] ∧
      d.now = max s.chip.now (s.chip.msl.scrubAt + max 60 (s.chip.rd R.MSL_SCRUB_CTRL_PERIOD_S) * 1000000000 / 32768) ∧
      d.msl.scrubAt = d.now ∧
      (∀ g, g < 8 → s.chip.groupActive g = true → (s.chip.group g).fastPass = none → (d.group g).scrubLine =
        if (s.chip.group g).scrubLine + 1 < 32768 then (s.chip.group g).scrubLine + 1 else 0) ∧
      (∀ g, g < 8 → s.chip.groupActive g = false ∨ (s.chip.group g).fastPass ≠ none → d.group g = s.chip.group g))) ∧
  (∀ (s : State) (g t : Nat) (found : List (Nat × Bool)), s.chip.awake = true → s.chip.on R.MSL_CTRL_SCRUB_EN = true → g < 8 →
    s.chip.msl.groups.length = 8 → s.chip.groupActive g = true → (s.chip.group g).fastPass = some t →
    Answers s (.patrolScrubRead (some g) found) (fun d => s.chip.within d [.regs, .tku, .msl, .sent] ∧
      d.now = max s.chip.now (t + ((s.chip.group g).scrubLine + 1) * 64000 / 1650) ∧
      ((s.chip.group g).scrubLine + 1 < 32768 →
        (d.group g).scrubLine = (s.chip.group g).scrubLine + 1 ∧ (d.group g).fastPass = some t) ∧
      (32768 ≤ (s.chip.group g).scrubLine + 1 → (d.group g).scrubLine = 0 ∧ (d.group g).fastPass = none) ∧
      ∀ k, k ≠ g → d.group k = s.chip.group k)) ∧
  (∀ (s : State) (w : Nat), s.chip.awake = true → s.chip.on R.MSL_CTRL_SCRUB_EN = true → s.chip.msl.groups.length = 8 →
    groupOf (8 * w) < 8 → s.chip.groupActive (groupOf (8 * w)) = true → (s.chip.group (groupOf (8 * w))).fastPass = none →
    lineOf (8 * w) = (s.chip.group (groupOf (8 * w))).scrubLine → s.chip.msl.poisoned = [] →
    Answers s (.patrolScrubRead none [(w, false)]) (fun d => d.rd R.MSL_ECC_CE_CNT_COUNT =
      (s.chip.rd R.MSL_ECC_CE_CNT_COUNT + 1) % 2 ^ 32 ∧ d.msl.writebacks = insertNat s.chip.msl.writebacks w ∧ d.msl.poisoned = []) ∧
    Answers s (.patrolScrubRead none [(w, true)]) (fun d => d.rd R.MSL_STATUS_UE_LATCH = 1 ∧ d.msl.poisoned = [w] ∧
      (s.chip.rd R.MSL_ERR_LOG_VALID = 0 → d.rd R.MSL_ERR_LOG_SOURCE = 2 ∧ d.rd R.MSL_ERR_LOG_WORD = w))) ∧
  (∀ (s : State) (g : Option Nat) (found : List (Nat × Bool)), s.chip.awake = true → s.chip.on R.MSL_CTRL_SCRUB_EN = false →
    Answers s (.patrolScrubRead g found) (fun d => d = s.chip)))

/-- R125, R127 to R129: GAP_MS after the last region began, the background test takes the next region that it may visit, counts a pass
as its last region is done, and stops at once on an uncorrectable word; its end classifies the region by the bits that mismatched:
none, a failing column (R117) repaired with the lowest free spare of its subarray or put on the degraded list, or a region entry and
MULTI_FAIL. R119, R121, R122, R124: the end of a repair's sweep counts what its reads found, puts its record into the lowest free slot
of the log, sets REPAIRED and starts the sweep that waits, unless the log is full; a repair that the host applies answers 4 while a
sweep runs, 3 for a malformed record, 2 for a spare in use or a full log, and starts otherwise.
The model's choices in it: log entries 45, 50. -/
def Obligations.MuslinTestAndRepair : Prop :=
  ((∀ (s : State) (r w : Nat), s.chip.awake = true → s.chip.on R.MSL_CTRL_BT_EN = true → s.chip.msl.btRegion = none →
    s.chip.on R.MSL_BT_STATUS_LIST_FULL = false → s.chip.nextRegion 65544 s.chip.msl.btNext = some r →
    s.chip.poisonedIn (4096 * r) 4096 = none →
    Answers s (.btRegionStart []) (fun d => s.chip.within d [.regs, .tku, .msl] ∧
      d.now = max s.chip.now (s.chip.msl.btAt + s.chip.rd R.MSL_BT_CTRL_GAP_MS * 1000000) ∧ d.rd R.MSL_BT_POS_REGION = r % 65536 ∧
      d.rd R.MSL_STATUS_BT_ACTIVE = 1 ∧ d.msl = { s.chip.msl with btRegion := some r, btAt := d.now } ∧
      s.chip.regsKept d [(R.MSL_BT_POS_REGION, 0), (R.MSL_STATUS_BT_ACTIVE, 0)]) ∧
    (w ∈ wordsOf (4096 * r) 4096 →
      Answers s (.btRegionStart [(w, true)]) (fun d => s.chip.within d [.regs, .tku, .msl, .sent] ∧
        d.rd R.MSL_BT_STATUS_ABORT_UE = 1 ∧ d.rd R.MSL_STATUS_UE_LATCH = 1 ∧ d.msl.btRegion = none ∧ w ∈ d.msl.poisoned ∧
        (s.chip.rd R.MSL_ERR_LOG_VALID = 0 → d.rd R.MSL_ERR_LOG_SOURCE = 3 ∧ d.rd R.MSL_ERR_LOG_WORD = w)))) ∧
  (∀ (s : State) (r : Nat), s.chip.awake = true → s.chip.on R.MSL_CTRL_BT_EN = true → s.chip.msl.btRegion = none →
    s.chip.on R.MSL_BT_STATUS_LIST_FULL = false → s.chip.nextRegion 65544 s.chip.msl.btNext = none → s.chip.msl.btNext ≠ 0 →
    s.chip.nextRegion 65544 0 = some r → s.chip.poisonedIn (4096 * r) 4096 = none →
    Answers s (.btRegionStart []) (fun d => d.rd R.MSL_BT_POS_PASSES = (s.chip.rd R.MSL_BT_POS_PASSES + 1) % 65536 ∧
      d.msl.btRegion = some r)) ∧
  (∀ (s : State) (found : List (Nat × Bool)), s.chip.awake = true →
    (s.chip.on R.MSL_CTRL_BT_EN = false ∨ s.chip.msl.btRegion ≠ none ∨ s.chip.on R.MSL_BT_STATUS_LIST_FULL = true) →
    Answers s (.btRegionStart found) (fun d => d = s.chip)) ∧
  (∀ (s : State) (r : Nat), s.chip.awake = true → s.chip.msl.btRegion = some r →
    (s.chip.nextRegion 65544 (r + 1) ≠ none → Answers s (.btRegionEnd []) (fun d => s.chip.within d [.regs, .msl] ∧
      d.rd R.MSL_STATUS_BT_ACTIVE = 0 ∧ d.msl = { s.chip.msl with btRegion := none, btNext := r + 1 } ∧
      s.chip.regsKept d [(R.MSL_STATUS_BT_ACTIVE, 0)])) ∧
    (s.chip.nextRegion 65544 (r + 1) = none → Answers s (.btRegionEnd []) (fun d => s.chip.within d [.regs, .msl] ∧
      d.rd R.MSL_STATUS_BT_ACTIVE = 0 ∧ d.msl = { s.chip.msl with btRegion := none, btNext := 0 } ∧
      d.rd R.MSL_BT_POS_PASSES = (s.chip.rd R.MSL_BT_POS_PASSES + 1) % 65536)) ∧
    (∀ b k p u col, r < 65536 → b < 8 → k < 4 → p < 1152 → u = (storedAt (regionLine r k) p).1 →
      col = (storedAt (regionLine r k) p).2.2 →
      (∀ x, s.chip.on R.MSL_CTRL_BT_AUTO_REPAIR = true → s.chip.on R.MSL_BT_STATUS_LOG_FULL = false →
        s.chip.freeSpare (8 * (r / 8192) + b) u = some x → s.chip.msl.sweep = none →
        Answers s (.btRegionEnd [(b, k, p)]) (fun d => s.chip.within d [.regs, .msl] ∧
          d.msl.repairs = s.chip.msl.repairs ++ [⟨8 * (r / 8192) + b, u, col, x, 1, false⟩] ∧
          d.msl.sweep = some ⟨8 * (r / 8192) + b, u, col, x, 1, false⟩ ∧ d.msl.btRegion = none)) ∧
      ((s.chip.on R.MSL_CTRL_BT_AUTO_REPAIR = false ∨ s.chip.on R.MSL_BT_STATUS_LOG_FULL = true ∨
          s.chip.freeSpare (8 * (r / 8192) + b) u = none) →
        (∃ n, n < 64 ∧ s.chip.on R.MSL_DEGRADED_VALID n = false) →
        Answers s (.btRegionEnd [(b, k, p)]) (fun d => s.chip.within d [.regs, .msl] ∧
          d.rd R.MSL_BT_STATUS_NO_SPARE = 1 ∧
          d.msl.repairs = s.chip.msl.repairs ∧ ∃ n, n < 64 ∧ s.chip.on R.MSL_DEGRADED_VALID n = false ∧
            d.on R.MSL_DEGRADED_VALID n = true ∧ d.rd R.MSL_DEGRADED_KIND n = 0 ∧
            d.rd R.MSL_DEGRADED_LOCATION n = (8 * (r / 8192) + b) * 65536 + u * 1024 + col))) ∧
    (∀ bad, r < 65536 → columnFailure r bad.eraseDups = false → (∃ n, n < 64 ∧ s.chip.on R.MSL_DEGRADED_VALID n = false) →
      Answers s (.btRegionEnd bad) (fun d => s.chip.within d [.regs, .msl] ∧ d.rd R.MSL_BT_STATUS_MULTI_FAIL = 1 ∧
        d.msl.repairs = s.chip.msl.repairs ∧ d.msl.btRegion = none ∧
        ∃ n, n < 64 ∧ s.chip.on R.MSL_DEGRADED_VALID n = false ∧ d.on R.MSL_DEGRADED_VALID n = true ∧
          d.rd R.MSL_DEGRADED_KIND n = 1 ∧ d.rd R.MSL_DEGRADED_LOCATION n = r)))) ∧
  ((∀ (s : State) (r : ColRepair) (n : Nat), s.chip.awake = true → s.chip.msl.sweep = some r → r.host = false →
    (List.range 64).find? (fun k => !s.chip.on R.MSL_SOFT_REPAIR_VALID k) = some n → s.chip.msl.poisoned.filter r.covers = [] →
    Answers s (.softRepairSweepDone []) (fun d => s.chip.within d [.regs, .msl, .sent] ∧ d.on R.MSL_SOFT_REPAIR_VALID n = true ∧
      d.rd R.MSL_SOFT_REPAIR_RECORD n = bits (r.record s.chip.seconds) 0 31 ∧
      d.rd R.MSL_SOFT_REPAIR_TIME n = bits (r.record s.chip.seconds) 32 32 ∧ d.rd R.MSL_BT_STATUS_REPAIRED = 1 ∧
      ((∃ k, k < 64 ∧ k ≠ n ∧ s.chip.on R.MSL_SOFT_REPAIR_VALID k = false) →
        d.msl = { s.chip.msl with sweep := s.chip.msl.btPending.head?, btPending := s.chip.msl.btPending.drop 1 }) ∧
      ((∀ k, k < 64 → k ≠ n → s.chip.on R.MSL_SOFT_REPAIR_VALID k = true) →
        d.msl.sweep = none ∧ d.msl.btPending = [] ∧ d.rd R.MSL_BT_STATUS_LOG_FULL = 1)) ∧
    ∀ w, r.covers w = true → s.chip.msl.poisoned = [] →
      Answers s (.softRepairSweepDone [(w, false)]) (fun d =>
        d.rd R.MSL_ECC_CE_CNT_COUNT = (s.chip.rd R.MSL_ECC_CE_CNT_COUNT + 1) % 2 ^ 32 ∧ d.msl.poisoned = []) ∧
      Answers s (.softRepairSweepDone [(w, true)]) (fun d => d.msl.poisoned = [w] ∧ d.rd R.MSL_STATUS_UE_LATCH = 1 ∧
        (s.chip.rd R.MSL_ERR_LOG_VALID = 0 → d.rd R.MSL_ERR_LOG_SOURCE = 3 ∧ d.rd R.MSL_ERR_LOG_WORD = w))) ∧
  (∀ (s : State) (lo : Nat) (r : ColRepair), s.chip.heard = true → lo = s.chip.rd R.MSL_REPAIR_APPLY_LO_RECORD_LO →
    r = ⟨bits lo 0 6, bits lo 6 6, bits lo 12 10, bits lo 22 3, bits lo 25 2, true⟩ →
    (s.chip.msl.sweep ≠ none → Answers s .mslRepairApply (fun d => s.chip.within d [.regs] ∧
      d.rd R.MSL_REPAIR_CMD_RESULT = 4 ∧ s.chip.regsKept d [(R.MSL_REPAIR_CMD_RESULT, 0)])) ∧
    (s.chip.msl.sweep = none → (36 ≤ r.sub ∨ r.kind = 3 ∨ lo.testBit 31 = false) →
      Answers s .mslRepairApply (fun d => s.chip.within d [.regs, .dict, .odx] ∧ d.rd R.MSL_REPAIR_CMD_RESULT = 3 ∧
        s.chip.regsKept d [(R.MSL_REPAIR_CMD_RESULT, 0)])) ∧
    (s.chip.msl.sweep = none → r.sub < 36 → r.kind ≠ 3 → lo.testBit 31 = true →
      ((∃ q ∈ s.chip.msl.repairs, q.bank = r.bank ∧ q.sub = r.sub ∧ q.spare = r.spare) ∨
        s.chip.on R.MSL_BT_STATUS_LOG_FULL = true) →
      Answers s .mslRepairApply (fun d => s.chip.within d [.regs, .dict, .odx] ∧ d.rd R.MSL_REPAIR_CMD_RESULT = 2 ∧
        s.chip.regsKept d [(R.MSL_REPAIR_CMD_RESULT, 0)])) ∧
    (s.chip.msl.sweep = none → r.sub < 36 → r.kind ≠ 3 → lo.testBit 31 = true →
      (∀ q ∈ s.chip.msl.repairs, q.bank ≠ r.bank ∨ q.sub ≠ r.sub ∨ q.spare ≠ r.spare) →
      s.chip.on R.MSL_BT_STATUS_LOG_FULL = false →
      Answers s .mslRepairApply (fun d => s.chip.within d [.msl] ∧
        d.msl = { s.chip.msl with repairs := s.chip.msl.repairs ++ [r], sweep := some r }))))

/-! ## Service commands of Damask, the ATU and Twill (chapters 05, 07, 08) -/

/-- R170 to R173: a spare request answers 5 while a swap waits or runs, 3 for a column already replaced, 2 where its group's
spare is used or bad, and waits otherwise. The swap starts when Damask is idle and no Damask work is ready, or 10 ms after the
request; its end records the replacement, or marks the spare bad, reports and journals it, and a pin whose copied slots had bad
parity is CORRUPT. A request refused with 2 or 3 is journalled: the model's choice, log entry 50. -/
def Obligations.SpareColumns : Prop :=
  (∀ (s : State) (column : BitVec 8) (g : Nat), s.chip.heard = true → g = column.toNat / 32 →
    ∀ P : Nat → Chip → Prop, P = (fun result d => d.rd R.DMK_SPARE_CMD_RESULT = result ∧
      d.rd R.DMK_SPARE_CMD_COLUMN = column.toNat ∧
      s.chip.regsKept d [(R.DMK_SPARE_CMD_RESULT, 0), (R.DMK_SPARE_CMD_COLUMN, 0)] ∧
      (result = 5 → s.chip.within d [.regs]) ∧ (result ≠ 5 → s.chip.within d [.regs, .dict, .odx] ∧ s.chip.journalled d
        { kind := 0x0B, port := 0, status := result, extra := 0x400020 + ((column.toNat + 256) <<< 32) })) →
    ((s.chip.on R.DMK_STATUS_SWAP_PENDING || s.chip.on R.DMK_STATUS_SWAP_ACTIVE) = true →
      Answers s (.dmkSpareRequest column) (P 5)) ∧
    (s.chip.on R.DMK_STATUS_SWAP_PENDING = false → s.chip.on R.DMK_STATUS_SWAP_ACTIVE = false →
      (s.chip.on R.DMK_SPARE_MAP_IN_USE g = true → s.chip.rd R.DMK_SPARE_MAP_REPLACED g = column.toNat % 32 →
        Answers s (.dmkSpareRequest column) (P 3)) ∧
      (s.chip.on R.DMK_SPARE_MAP_IN_USE g = true → s.chip.rd R.DMK_SPARE_MAP_REPLACED g ≠ column.toNat % 32 →
        Answers s (.dmkSpareRequest column) (P 2)) ∧
      (s.chip.on R.DMK_SPARE_MAP_IN_USE g = false → s.chip.on R.DMK_SPARE_MAP_SPARE_BAD g = true →
        Answers s (.dmkSpareRequest column) (P 2)) ∧
      (s.chip.on R.DMK_SPARE_MAP_IN_USE g = false → s.chip.on R.DMK_SPARE_MAP_SPARE_BAD g = false →
        Answers s (.dmkSpareRequest column) (fun d => s.chip.within d [.regs, .dmk] ∧ d.on R.DMK_STATUS_SWAP_PENDING = true ∧
          d.dmk = { s.chip.dmk with swapColumn := column.toNat, swapRequested := s.chip.now, swapUrgent := false })))) ∧
  (∀ (s : State), s.chip.awake = true → s.chip.on R.DMK_STATUS_SWAP_PENDING = true →
    (s.chip.damaskQuiet = true → s.chip.readyFor (· == 0) = [] →
      Answers s .spareSwapStart (fun d => s.chip.within d [.regs, .dmk] ∧ d.on R.DMK_STATUS_SWAP_PENDING = false ∧
        d.on R.DMK_STATUS_SWAP_ACTIVE = true ∧ d.on R.DMK_STATUS_BUSY = true ∧
        d.dmk = { s.chip.dmk with swapStarted := s.chip.now, swapUrgent := false })) ∧
    (s.chip.damaskQuiet = false → Answers s .spareSwapStart (fun d => d = s.chip) ∧
      Answers s .spareSwapWaitTimeout (fun d => s.chip.within d [.tku, .dmk] ∧
        d.now = max s.chip.now (s.chip.dmk.swapRequested + 10000000) ∧ d.dmk = { s.chip.dmk with swapUrgent := true })) ∧
    (s.chip.damaskQuiet = true → Answers s .spareSwapWaitTimeout (fun d => s.chip.within d [.regs, .tku, .dmk] ∧
      d.now = max s.chip.now (s.chip.dmk.swapRequested + 10000000) ∧ d.on R.DMK_STATUS_SWAP_PENDING = false ∧
      d.on R.DMK_STATUS_SWAP_ACTIVE = true ∧ d.dmk = { s.chip.dmk with swapStarted := d.now, swapUrgent := false }))) ∧
  (∀ (s : State) (n c : Nat) (pass : Bool), n < 32 → s.chip.awake = true → s.chip.on R.DMK_STATUS_SWAP_ACTIVE = true →
    c = s.chip.dmk.swapColumn → c < 256 → s.chip.on R.DMK_PIN_VALID n = true → s.chip.rd R.DMK_PIN_GROUP_FIRST n ≤ c / 32 →
    c / 32 ≤ s.chip.rd R.DMK_PIN_GROUP_LAST n →
    Answers s (.spareSwapEnd pass [n]) (fun d => d.on R.DMK_PIN_CORRUPT n = true ∧ d.on R.DMK_STATUS_SLOT_PARITY = true ∧
      d.on R.DMK_STATUS_SWAP_ACTIVE = false)) ∧
  (∀ (s : State) (c : Nat), s.chip.awake = true → s.chip.on R.DMK_STATUS_SWAP_ACTIVE = true → c = s.chip.dmk.swapColumn → c < 256 →
    Answers s (.spareSwapEnd true []) (fun d => s.chip.within d [.regs, .dict, .tku, .odx, .sent] ∧
      d.now = max s.chip.now (s.chip.dmk.swapStarted + 40000) ∧ d.on R.DMK_STATUS_SWAP_ACTIVE = false ∧
      d.on R.DMK_SPARE_MAP_IN_USE (c / 32) = true ∧ d.rd R.DMK_SPARE_MAP_REPLACED (c / 32) = c % 32 ∧
      d.rd R.DMK_SPARE_CMD_RESULT = 1 ∧ s.chip.journalled d
        { kind := 0x0B, port := 0, status := 1, extra := 0x400020 + ((c + 256) <<< 32) }) ∧
    Answers s (.spareSwapEnd false []) (fun d => s.chip.within d [.regs, .dict, .tku, .odx, .sent] ∧
      d.now = max s.chip.now (s.chip.dmk.swapStarted + 40000) ∧ d.on R.DMK_STATUS_SWAP_ACTIVE = false ∧
      d.on R.DMK_SPARE_MAP_SPARE_BAD (c / 32) = true ∧
      d.on R.DMK_SPARE_MAP_IN_USE (c / 32) = s.chip.on R.DMK_SPARE_MAP_IN_USE (c / 32) ∧
      d.rd R.DMK_SPARE_CMD_RESULT = 4 ∧ s.chip.journalled d
        { kind := 0x0B, port := 0, status := 4, extra := 0x400020 + ((c + 256) <<< 32) }))

/-- R213: KV_WRITE, KV_SWAP, KV_INVALIDATE and KV_CLEAR_HELD change one sequence descriptor and answer OK; a locked one keeps its
bits and answers KV_LIST_BUSY, a descriptor with a bad address KV_BAD_PARAM, a swap of a descriptor that is not valid KV_BAD_SEQ and
one whose CHANGES has moved KV_LIST_STALE. No other register and nothing outside the registers changes. R204, R205, R231, R232:
KV_FENCE is busy until the tile under way has ended; a frame pushed while its table entry says it is in use joins the free FIFO and
becomes free, and any other push is refused and counted; KV_RESUME makes a held operation ready again, KV_ABANDON completes it; both
refuse an empty slot. The model's choices in it: log entry 67. -/
def Obligations.AtuCommands : Prop :=
  (∀ (s : State) (seq n q v : Nat), s.chip.heard = true → s.chip.on R.ATU_CMD_STATUS_BUSY = false → n = seq % 2048 →
    q = s.chip.seq n → v = seqMask ((List.range 16).foldl (fun a k => a + (s.chip.atuData k <<< (32 * k))) 0) →
    ∀ P : Nat → Nat → Chip → Prop, P = (fun desc status d => s.chip.within d [.regs] ∧ d.seq n = desc ∧
      d.rd R.ATU_CMD_STATUS_STATUS = status ∧
      s.chip.regsKept d [(R.ATU_SEQ_DESCRIPTOR, n), (R.ATU_CMD_STATUS_STATUS, 0)]) →
    (Seq.lock q = true → ∀ i, i = Instr.kvWrite seq ∨ i = .kvSwap seq ∨ i = .kvInvalidate seq ∨ i = .kvClearHeld seq →
      Answers s i (P q St.KV_LIST_BUSY)) ∧
    (Seq.lock q = false →
      (Seq.valid v = true → (s.chip.kvAddrOk (Seq.listAddr v) 64 && s.chip.kvAddrOk (Seq.stateAddr v) 64 &&
          s.chip.kvAddrOk (Seq.stageAddr v) s.chip.frameSize) = false →
        Answers s (.kvWrite seq) (P q St.KV_BAD_PARAM)) ∧
      ((Seq.valid v = false ∨ (s.chip.kvAddrOk (Seq.listAddr v) 64 && s.chip.kvAddrOk (Seq.stateAddr v) 64 &&
          s.chip.kvAddrOk (Seq.stageAddr v) s.chip.frameSize) = true) →
        Answers s (.kvWrite seq) (P (setBits v 1 2 0) St.OK)) ∧
      (Seq.valid q = false → Answers s (.kvSwap seq) (P q St.KV_BAD_SEQ)) ∧
      (Seq.valid q = true → Seq.changes q ≠ s.chip.atuData 6 → Answers s (.kvSwap seq) (P q St.KV_LIST_STALE)) ∧
      (Seq.valid q = true → Seq.changes q = s.chip.atuData 6 →
        ∀ list st, list = bits (s.chip.atuData 0 + (s.chip.atuData 1 <<< 32)) 0 40 →
          st = bits (s.chip.atuData 4 + (s.chip.atuData 5 <<< 32)) 0 40 →
          s.chip.kvAddrOk list 64 = true → s.chip.kvAddrOk st 64 = true →
          Answers s (.kvSwap seq) (P (setBits (setBits (setBits q 32 40 list) 72 16 (s.chip.atuData 2)) 96 40 st) St.OK)) ∧
      Answers s (.kvInvalidate seq) (P (setBits q 0 1 0) St.OK) ∧
      Answers s (.kvClearHeld seq) (P (setBits q 2 1 0) St.OK))) ∧
  ((∀ (s : State), s.chip.heard = true → s.chip.on R.ATU_CMD_STATUS_BUSY = false →
    Answers s .kvFence (fun d => s.chip.within d [.regs, .atu] ∧ d.on R.ATU_CMD_STATUS_BUSY = true ∧
      d.atu = { s.chip.atu with fence := some s.chip.atuTile } ∧ s.chip.regsKept d [(R.ATU_CMD_STATUS_BUSY, 0)])) ∧
  (∀ (s : State) (t : Option (Nat × Nat × Nat)), s.chip.awake = true → s.chip.atu.fence = some t →
    (t ≠ none → s.chip.atuTile ≠ t) →
    Answers s .kvFenceDone (fun d => s.chip.within d [.regs, .atu] ∧ d.on R.ATU_CMD_STATUS_BUSY = false ∧
      d.rd R.ATU_CMD_STATUS_STATUS = St.OK ∧ d.atu = { s.chip.atu with fence := none } ∧
      s.chip.regsKept d [(R.ATU_CMD_STATUS_BUSY, 0), (R.ATU_CMD_STATUS_STATUS, 0)])) ∧
  (∀ (s : State) (t : Nat × Nat × Nat), s.chip.awake = true → s.chip.atu.fence = some (some t) → s.chip.atuTile = some t →
    Answers s .kvFenceDone (fun d => d = s.chip)) ∧
  (∀ (s : State) (frame : BitVec 17) (a e : Nat), s.chip.heard = true → a = s.chip.frameEntry frame.toNat → devRegion a = 0 →
    devOffset a % 8 = 0 → s.chip.writable (devOffset a) 8 → e = leNat (s.chip.muslin.read (devOffset a) 8) →
    (s.chip.atu.fifo.length < 8192 → frameState e = 1 →
      Answers s (.atuFreePush frame) (fun d => s.chip.within d [.regs, .muslin, .msl, .atu] ∧
        d.atu = { s.chip.atu with fifo := s.chip.atu.fifo ++ [frame.toNat] } ∧
        d.rd R.ATU_FREE_LEVEL_LEVEL = s.chip.atu.fifo.length + 1 ∧
        leNat (d.muslin.read (devOffset a) 8) = setBits e 36 2 0 ∧ s.chip.muslinKept d (devOffset a) 8)) ∧
    (8192 ≤ s.chip.atu.fifo.length ∨ frameState e ≠ 1 →
      Answers s (.atuFreePush frame) (fun d => s.chip.within d [.regs, .msl] ∧ d.on R.ATU_STATUS_PUSH_REFUSED = true ∧
        d.rd R.ATU_FREE_BAD_CNT_PUSHES = (s.chip.rd R.ATU_FREE_BAD_CNT_PUSHES + 1) % 2 ^ 16))) ∧
  (∀ (s : State) (slot : Nat), s.chip.heard = true → s.chip.on R.ATU_CMD_STATUS_BUSY = false →
    Table.get? s.chip.atu.holds (slot % 16) = none →
    ∀ i, i = Instr.kvResume slot ∨ i = .kvAbandon slot →
      Answers s i (fun d => s.chip.within d [.regs] ∧ d.rd R.ATU_CMD_STATUS_STATUS = St.KV_BAD_PARAM ∧
        s.chip.regsKept d [(R.ATU_CMD_STATUS_STATUS, 0)])) ∧
  (∀ (s : State) (slot : Nat) (o : OpRun) (b : Bool), s.chip.heard = true → s.chip.on R.ATU_CMD_STATUS_BUSY = false →
    Table.get? s.chip.atu.holds (slot % 16) = some ⟨o, none, b⟩ →
    Answers s (.kvResume slot) (fun d => s.chip.within d [.regs, .muslin, .dsp, .qmg, .msl, .drc, .atu, .gng, .sent] ∧
      d.rd R.ATU_CMD_STATUS_STATUS = St.OK ∧
      Table.get? d.atu.holds (slot % 16) = some ⟨o, some (s.chip.dsp.nextOrder, s.chip.now), false⟩ ∧
      d.atu.fifo = s.chip.atu.fifo)) ∧
  (∀ (s : State) (slot : Nat) (h : HoldRec) (w : Weave), s.chip.heard = true → s.chip.on R.ATU_CMD_STATUS_BUSY = false →
    Table.get? s.chip.atu.holds (slot % 16) = some h → h.started = false → s.chip.weave? h.op.weave = some w →
    h.op.index < w.descs.length →
    Answers s (.kvAbandon slot) (fun d => s.chip.within d [.regs, .muslin, .dsp, .qmg, .msl, .drc, .atu, .gng, .sent] ∧
      d.rd R.ATU_CMD_STATUS_STATUS = St.OK ∧ Table.get? d.atu.holds (slot % 16) = none ∧
      ∀ v, d.weave? h.op.weave = some v → v.isDone h.op.index = true)))

/-- R263: each service command of Twill answers 6 while one runs and 3 for a cluster in the wrong state; a refused one is
journalled; TEST takes a removed cluster and ACTIVATE a spare into its known-answer run, RETURN makes a removed cluster that passed its test a spare. R264: REMOVE
first wakes the lowest spare for a known-answer run when it is asked to and one is left, and drains its cluster otherwise; a spare
that passes becomes active and the cluster drains, one that fails is FAILED, isolated and reported; a drained cluster is isolated
and REMOVED after 2 µs, with RESULT 1, or 2 where no spare replaced it. R257 and R278: a write of TWL_GNG_PAIR takes effect only for
two different active clusters of one domain that the ATU does not use, while Gingham is disabled, and sets PAIR_BAD otherwise; a
copy that waits for the host ends with HIF_HOST_ERROR and HOST_ERR when its completion does not come.
The model's choices in it: log entry 50. -/
def Obligations.TwillService : Prop :=
  ((∀ (s : State) (k : Nat) (force auto : Bool), s.chip.heard = true →
    ∀ P : Nat → Chip → Prop, P = (fun result d => s.chip.within d [.regs, .dict, .odx] ∧ d.rd R.TWL_SVC_CMD_RESULT = result ∧
      s.chip.regsKept d [(R.TWL_SVC_CMD_RESULT, 0)] ∧ d.odx.nextSeq = s.chip.odx.nextSeq + 1) →
    (s.chip.on R.TWL_SVC_CMD_BUSY = true →
      ∀ i, i = Instr.twlRemove k force auto ∨ i = .twlTest k ∨ i = .twlReturn k ∨ i = .twlActivate k →
        Answers s i (fun d => s.chip.within d [.regs] ∧ d.rd R.TWL_SVC_CMD_RESULT = 6 ∧
          s.chip.regsKept d [(R.TWL_SVC_CMD_RESULT, 0)])) ∧
    (s.chip.on R.TWL_SVC_CMD_BUSY = false →
      (17 < k ∨ s.chip.rd R.TWL_CLUSTER_STATE k ≠ clActive → Answers s (.twlRemove k force auto) (P 3)) ∧
      (17 < k ∨ s.chip.rd R.TWL_CLUSTER_STATE k ≠ clRemoved → Answers s (.twlTest k) (P 3) ∧ Answers s (.twlReturn k) (P 3)) ∧
      (17 < k ∨ s.chip.rd R.TWL_CLUSTER_STATE k ≠ clSpare → Answers s (.twlActivate k) (P 3)) ∧
      (k ≤ 17 → s.chip.rd R.TWL_CLUSTER_STATE k = clRemoved → s.chip.on R.TWL_CLUSTER_TEST_PASS k = false →
        Answers s (.twlReturn k) (P 3)) ∧
      (k ≤ 17 → s.chip.rd R.TWL_CLUSTER_STATE k = clActive → s.chip.clusterOnDuty k = true → force = false →
        Answers s (.twlRemove k force auto) (P 4)) ∧
      (k ≤ 17 → s.chip.rd R.TWL_CLUSTER_STATE k = clActive → (s.chip.clusterOnDuty k = false ∨ force = true) →
        (∀ j, j < 18 → j ≠ k → s.chip.rd R.TWL_CLUSTER_STATE j = clActive → s.chip.clusterOnDuty j = true) →
        Answers s (.twlRemove k force auto) (P 7)))) ∧
  (∀ (s : State) (k : Nat), s.chip.heard = true → k ≤ 17 → s.chip.on R.TWL_SVC_CMD_BUSY = false →
    (s.chip.rd R.TWL_CLUSTER_STATE k = clRemoved → Answers s (.twlTest k) (fun d => s.chip.within d [.regs, .twl, .isolated] ∧
      d.rd R.TWL_CLUSTER_STATE k = clTesting ∧ d.on R.TWL_SVC_CMD_BUSY = true ∧ clusterIsland k ∉ d.isolated ∧
      d.twl = { s.chip.twl with service := some ⟨2, k, false, false, false, some k, s.chip.now⟩ })) ∧
    (s.chip.rd R.TWL_CLUSTER_STATE k = clSpare → Answers s (.twlActivate k) (fun d =>
      s.chip.within d [.regs, .twl, .isolated] ∧ d.rd R.TWL_CLUSTER_STATE k = clTesting ∧ d.on R.TWL_SVC_CMD_BUSY = true ∧
      d.twl = { s.chip.twl with service := some ⟨4, k, false, false, false, some k, s.chip.now⟩ })) ∧
    (s.chip.rd R.TWL_CLUSTER_STATE k = clRemoved → s.chip.on R.TWL_CLUSTER_TEST_PASS k = true →
      Answers s (.twlReturn k) (fun d => s.chip.within d [.regs, .dict, .twl, .odx, .isolated] ∧
        d.rd R.TWL_CLUSTER_STATE k = clSpare ∧ d.rd R.TWL_SVC_CMD_RESULT = 1 ∧ d.on R.TWL_SVC_CMD_BUSY = false ∧
        clusterIsland k ∉ d.isolated ∧ s.chip.journalled d
          { kind := 0x0B, port := 0, status := 1, extra := 0x600004 + ((3 + k * 8) <<< 32) })))) ∧
  ((∀ (s : State) (k : Nat) (force auto : Bool), s.chip.heard = true → k ≤ 17 → s.chip.on R.TWL_SVC_CMD_BUSY = false →
    s.chip.rd R.TWL_CLUSTER_STATE k = clActive → (s.chip.clusterOnDuty k = false ∨ force = true) →
    (∃ j, j < 18 ∧ j ≠ k ∧ s.chip.rd R.TWL_CLUSTER_STATE j = clActive ∧ s.chip.clusterOnDuty j = false) →
    (∀ j, s.chip.nextSpare = some j → auto = true →
      Answers s (.twlRemove k force auto) (fun d => s.chip.within d [.regs, .twl, .isolated] ∧
        d.rd R.TWL_CLUSTER_STATE j = clTesting ∧ d.rd R.TWL_CLUSTER_STATE k = clActive ∧ d.on R.TWL_SVC_CMD_BUSY = true ∧
        d.twl.service = some ⟨1, k, force, true, false, some j, s.chip.now⟩)) ∧
    (auto = false ∨ s.chip.nextSpare = none →
      Answers s (.twlRemove k force auto) (fun d =>
        s.chip.within d [.regs, .dict, .muslin, .dsp, .qmg, .msl, .drc, .twl, .gng, .isolated, .sent] ∧
        d.twl.service = some ⟨1, k, force, auto, false, none, s.chip.now⟩ ∧
        (force = false → s.chip.gngIdle → d.rd R.TWL_CLUSTER_STATE k = clDraining ∧ d.on R.TWL_SVC_CMD_BUSY = true)))) ∧
  (∀ (s : State) (k : Nat) (v : TwlService), s.chip.awake = true → s.chip.twl.service = some v → v.testing = some k → k < 18 →
    v.cluster < 18 → (v.op = 2 ∨ v.op = 4) →
    Answers s (.twlKatEnd true) (fun d => d.now = max s.chip.now (v.since + (if v.op = 2 then 400000 else 400200)) ∧
      s.chip.within d [.regs, .dict, .tku, .twl, .odx, .isolated] ∧ d.on R.TWL_CLUSTER_TEST_PASS k = true ∧
      d.rd R.TWL_CLUSTER_STATE k = (if v.op = 2 then clRemoved else clActive) ∧ d.rd R.TWL_SVC_CMD_RESULT = 1 ∧
      d.on R.TWL_SVC_CMD_BUSY = false ∧ d.twl.service = none) ∧
    Answers s (.twlKatEnd false) (fun d =>
      s.chip.within d [.regs, .dict, .muslin, .tku, .dsp, .qmg, .msl, .drc, .twl, .odx, .gng, .isolated, .sent] ∧
      d.twl.service = none ∧ clusterIsland k ∈ d.isolated ∧
      (s.chip.gngIdle → d.on R.TWL_CLUSTER_TEST_PASS k = false ∧ d.rd R.TWL_CLUSTER_STATE k = clFailed ∧
        d.on R.TWL_STATUS_KAT_FAIL = true ∧ d.rd R.TWL_SVC_CMD_RESULT = 5 ∧ d.on R.TWL_SVC_CMD_BUSY = false))) ∧
  (∀ (s : State) (k : Nat) (v : TwlService), s.chip.awake = true → s.chip.twl.service = some v → v.testing = some k → k < 18 →
    v.op = 1 → v.cluster < 18 → v.cluster ≠ k →
    Answers s (.twlKatEnd true) (fun d => clusterIsland k ∉ d.isolated ∧
      d.twl.service = some { v with replaced := true, testing := none, since := d.now } ∧
      (v.force = false → s.chip.gngIdle → d.rd R.TWL_CLUSTER_STATE k = clActive ∧
        d.rd R.TWL_CLUSTER_STATE v.cluster = clDraining))) ∧
  (∀ (s : State) (v : TwlService), s.chip.awake = true → s.chip.twl.service = some v → v.op = 1 → v.testing = none →
    v.cluster < 18 → s.chip.rd R.TWL_CLUSTER_STATE v.cluster = clDraining → s.chip.op? (2 + v.cluster) = none →
    (∀ o ∈ s.chip.dsp.suspended, o.unit ≠ 2 + v.cluster) → (∀ p ∈ s.chip.dsp.chains, p.1 / 8 ≠ v.cluster) →
    Answers s .twlDrainDone (fun d => s.chip.within d [.regs, .dict, .tku, .twl, .odx, .isolated, .sent] ∧
      d.now = s.chip.now + 2000 ∧ d.rd R.TWL_CLUSTER_STATE v.cluster = clRemoved ∧ clusterIsland v.cluster ∈ d.isolated ∧
      d.rd R.TWL_SVC_CMD_RESULT = (if v.auto = true ∧ v.replaced = false then 2 else 1) ∧ d.on R.TWL_SVC_CMD_BUSY = false ∧
      d.twl.service = none))) ∧
  ((∀ (s : State) (w : Word) (a b : Nat), s.chip.heard = true → a = bits w.toNat 0 5 → b = bits w.toNat 8 5 →
    (s.chip.on R.GNG_STATUS_ENABLED = false → a < 18 → b < 18 → a ≠ b → a / 6 = b / 6 →
      s.chip.rd R.TWL_CLUSTER_STATE a = clActive → s.chip.rd R.TWL_CLUSTER_STATE b = clActive →
      (s.chip.on R.ATU_CTRL_ENABLE = true → s.chip.rd R.ATU_CTRL_TWILL_CLUSTER ≠ a ∧ s.chip.rd R.ATU_CTRL_TWILL_CLUSTER ≠ b) →
      Answers s (.twlGngPairWrite w) (fun d => s.chip.within d [.regs] ∧ d.rd R.TWL_GNG_PAIR_CLUSTER_A = a ∧
        d.rd R.TWL_GNG_PAIR_CLUSTER_B = b ∧ d.rd R.TWL_GNG_PAIR_EXCLUSIVE = bits w.toNat 16 1 ∧
        d.rd R.TWL_GNG_PAIR_PAIR_BAD = 0 ∧ s.chip.regsKept d [(R.TWL_GNG_PAIR, 0)])) ∧
    (s.chip.on R.GNG_STATUS_ENABLED = true ∨ 18 ≤ a ∨ 18 ≤ b ∨ a = b ∨ a / 6 ≠ b / 6 ∨ s.chip.rd R.TWL_CLUSTER_STATE a ≠ clActive ∨
      s.chip.rd R.TWL_CLUSTER_STATE b ≠ clActive ∨
      (s.chip.on R.ATU_CTRL_ENABLE = true ∧ (s.chip.rd R.ATU_CTRL_TWILL_CLUSTER = a ∨ s.chip.rd R.ATU_CTRL_TWILL_CLUSTER = b)) →
      Answers s (.twlGngPairWrite w) (fun d => s.chip.within d [.regs] ∧ d.rd R.TWL_GNG_PAIR_PAIR_BAD = 1 ∧
        s.chip.regsKept d [(R.TWL_GNG_PAIR_PAIR_BAD, 0)]))) ∧
  (∀ (s : State) (port : Nat) (o : OpRun), s.chip.awaitsTile (25 + port % 2) o 9 1 → readsHost o.raw = true →
    (o.begun = true ∨ s.chip.copyCheck o.raw = St.OK) →
    Answers s (.hostCompletionTimeout port) (fun d =>
      s.chip.within d [.regs, .muslin, .host, .dsp, .msl, .drc, .sent, .fresh] ∧
      d.op? (25 + port % 2) = some ({ o with begun := true }.ends St.HIF_HOST_ERROR) ∧
      (∀ v, v ≠ 25 + port % 2 → d.op? v = s.chip.op? v) ∧ d.on R.HIF_STATUS_HOST_ERR = true ∧
      (s.chip.on R.HIF_HOST_ERR_LOG_VALID = false → d.rd R.HIF_HOST_ERR_LOG_KIND = 3 ∧
        d.rd R.HIF_HOST_ERR_LOG_WINDOW = hostWindow (copyPar o.raw).src))))

/-! ## Queues and DRAM (chapters 09, 10) -/

/-- R284, R299: ENABLE takes a context that passes its checks, and answers 3 for a queue that is enabled and 2 for a bad context or one
that cannot be read; while the group that holds the context wakes, BUSY is 1, and every command answers 4. DISABLE removes the queue,
drops and counts its spilled records, and keeps its counts for QUERY; QUERY shows them. Every other queue is as it was. R276: a
doorbell access of another size or alignment is dropped and sets BAD_ACCESS. R19: a doorbell waits behind the host writes that wait at
a Muslin group. R286: a doorbell of a queue that the host produces moves PRODUCED forward within the ring, one of a queue that the
host consumes moves CONSUMED up to PRODUCED; every other value is ignored, counted and latched. No other queue and no memory
changes. R291, R292, R294: a spilled record goes into the next slot of its ring, with RING_PHASE, when a slot is free; a full ring
leaves the spill area as it is; COAL_US after the first record without an interrupt, one interrupt covers every record.
The model's choices in it: log entries 54, 55, 56, 111. -/
def Obligations.QueuesAndDoorbells : Prop :=
  ((∀ (s : State) (queue n off : Nat), s.chip.heard = true → n = queue % 32768 → off = s.chip.ctxOff n →
    (s.chip.on R.QMG_QCMD_BUSY = true → ∀ i, i = Instr.queueEnable queue ∨ i = .queueDisable queue ∨ i = .queueQuery queue →
      Answers s i (fun d => s.chip.within d [.regs] ∧ d.rd R.QMG_QCMD_RESULT = 4 ∧
        s.chip.regsKept d [(R.QMG_QCMD_RESULT, 0)])) ∧
    (s.chip.on R.QMG_QCMD_BUSY = false →
    (s.chip.queue? n ≠ none → Answers s (.queueEnable queue) (fun d => s.chip.within d [.regs] ∧
      d.rd R.QMG_QCMD_RESULT = 3 ∧ s.chip.regsKept d [(R.QMG_QCMD_RESULT, 0)])) ∧
    (∀ q, s.chip.queue? n = none → s.chip.readable off 32 → q = Queue.ofContext (leNat (s.chip.muslin.read off 32)) →
      (s.chip.contextOk q = true → Answers s (.queueEnable queue) (fun d => s.chip.within d [.regs, .qmg, .msl] ∧
        d.rd R.QMG_QCMD_RESULT = 1 ∧ d.on R.QMG_QCMD_BUSY = false ∧ d.qmg.queues.get? n = some q ∧
        (∀ m, m ≠ n → d.qmg.queues.get? m = s.chip.qmg.queues.get? m) ∧ d.qmg.spill = s.chip.qmg.spill)) ∧
      (s.chip.contextOk q = false → Answers s (.queueEnable queue) (fun d => s.chip.within d [.regs, .msl] ∧
        d.rd R.QMG_QCMD_RESULT = 2 ∧ d.on R.QMG_QCMD_BUSY = false))) ∧
    (s.chip.queue? n = none → s.chip.groupActive (groupOf off) = true →
      (s.chip.linesServe off 32 = false ∨ s.chip.poisonedIn off 32 ≠ none) →
      Answers s (.queueEnable queue) (fun d => s.chip.within d [.regs, .msl, .sent] ∧ d.rd R.QMG_QCMD_RESULT = 2 ∧
        d.on R.QMG_QCMD_BUSY = false)) ∧
    (s.chip.queue? n = none → s.chip.groupHolds (groupOf off) = true → s.chip.isolated.contains (18 + bankOf off / 4) = false →
      groupOf off < 8 → s.chip.msl.groups.length = 8 →
      Answers s (.queueEnable queue) (fun d => s.chip.within d [.regs, .msl] ∧ d.on R.QMG_QCMD_BUSY = true ∧
        (d.group (groupOf off)).waiting = (s.chip.group (groupOf off)).waiting ++ [(.queueEnable queue, 0)])) ∧
    (s.chip.queue? n = none → Answers s (.queueDisable queue) (fun d => s.chip.within d [.regs] ∧
      d.rd R.QMG_QCMD_RESULT = 3 ∧ s.chip.regsKept d [(R.QMG_QCMD_RESULT, 0)])) ∧
    (∀ q, s.chip.queue? n = some q → Answers s (.queueDisable queue) (fun d => s.chip.within d [.regs, .qmg, .sent] ∧
      d.rd R.QMG_QCMD_RESULT = 1 ∧ d.qmg.queues.get? n = none ∧ Table.get? d.qmg.retired n = some q ∧
      (∀ m, m ≠ n → d.qmg.queues.get? m = s.chip.qmg.queues.get? m) ∧
      d.qmg.spill = s.chip.qmg.spill.filter (fun r => r.queue != n) ∧
      d.rd R.QMG_LOST_CNT = (s.chip.rd R.QMG_LOST_CNT + s.chip.spilled n) % 2 ^ 32)) ∧
    (s.chip.queue? n = none → Answers s (.queueQuery queue) (fun d => s.chip.within d [.regs] ∧
      d.rd R.QMG_QCMD_RESULT = 1 ∧ d.on R.QMG_QDATA2_ENABLED = false ∧
      s.chip.regsKept d [(R.QMG_QCMD_RESULT, 0), (R.QMG_QDATA0, 0), (R.QMG_QDATA1, 0), (R.QMG_QDATA2, 0), (R.QMG_QDATA3, 0)])) ∧
    (∀ q, s.chip.queue? n = some q → Answers s (.queueQuery queue) (fun d => s.chip.within d [.regs] ∧
      d.rd R.QMG_QCMD_RESULT = 1 ∧ d.rd R.QMG_QDATA0_PRODUCED = q.produced.toNat ∧
      d.rd R.QMG_QDATA1_CONSUMED = q.consumed.toNat ∧ d.rd R.QMG_QDATA2_LOST = q.lost % 2 ^ 16 ∧
      d.on R.QMG_QDATA2_OVERFLOW = q.overflow ∧ d.on R.QMG_QDATA2_ENABLED = true ∧
      d.rd R.QMG_QDATA3_SPILLED = s.chip.spilled n % 2 ^ 13 ∧
      s.chip.regsKept d [(R.QMG_QCMD_RESULT, 0), (R.QMG_QDATA0, 0), (R.QMG_QDATA1, 0), (R.QMG_QDATA2, 0), (R.QMG_QDATA3, 0)]))))) ∧
  (∀ (s : State) (offset size n : Nat) (value : Word), s.chip.heard = true → n = offset / 4 % 32768 →
    (size ≠ 4 ∨ offset % 4 ≠ 0 →
      Answers s (.doorbellWrite offset size value) (fun d => d = s.chip.latch R.HIF_STATUS_BAD_ACCESS)) ∧
    (∀ g, g < 8 → offset % 4 = 0 → s.chip.msl.groups.length = 8 →
      (∀ k, k < g → ∀ i ∈ (s.chip.group k).waiting, hostWrite i.1 = false) → (∃ i ∈ (s.chip.group g).waiting, hostWrite i.1 = true) →
      Answers s (.doorbellWrite offset 4 value) (fun d => s.chip.within d [.regs, .msl] ∧
        (d.group g).waiting = (s.chip.group g).waiting ++ [(.doorbellWrite offset 4 value, 0)])) ∧
    (offset % 4 = 0 → (∀ g, g < 8 → ∀ i ∈ (s.chip.group g).waiting, hostWrite i.1 = false) →
    ∀ bad : Prop, bad = Answers s (.doorbellWrite offset 4 value) (fun d => s.chip.within d [.regs] ∧
      d.rd R.QMG_BAD_DB_CNT_COUNT = (s.chip.rd R.QMG_BAD_DB_CNT_COUNT + 1) % 2 ^ 32 ∧ d.on R.QMG_STATUS_BAD_DOORBELL = true ∧
      s.chip.regsKept d [(R.QMG_BAD_DB_CNT_COUNT, 0), (R.QMG_STATUS_BAD_DOORBELL, 0)]) →
    (s.chip.queue? n = none → bad) ∧
    (∀ q, s.chip.queue? n = some q →
      (q.hostProduces = true → value ≠ q.produced → (value - q.consumed).toNat ≤ q.entries →
        Answers s (.doorbellWrite offset 4 value) (fun d => s.chip.within d [.qmg] ∧
          (d.qmg.queues.get? n).map (·.produced) = some value ∧ (d.qmg.queues.get? n).map (·.consumed) = some q.consumed ∧
          ∀ m, m ≠ n → d.qmg.queues.get? m = s.chip.qmg.queues.get? m)) ∧
      (q.hostProduces = true → (value = q.produced ∨ q.entries < (value - q.consumed).toNat) → bad) ∧
      (q.hostProduces = false → q.hostConsumes = true → (value - q.consumed).toNat ≤ (q.produced - q.consumed).toNat →
        Answers s (.doorbellWrite offset 4 value) (fun d => s.chip.within d [.qmg] ∧
          d.qmg.queues.get? n = some { q with consumed := value } ∧
          ∀ m, m ≠ n → d.qmg.queues.get? m = s.chip.qmg.queues.get? m)) ∧
      (q.hostProduces = false → q.hostConsumes = true → (q.produced - q.consumed).toNat < (value - q.consumed).toNat → bad) ∧
      (q.hostProduces = false → q.hostConsumes = false → bad)))) ∧
  ((∀ (s : State) (queue n : Nat) (q : Queue) (r : SpillRec) (raw : Nat), s.chip.awake = true → n = queue % 32768 →
    s.chip.queue? n = some q → q.kind = 2 → q.full = false → s.chip.qmg.spill.filter (fun x => x.queue == n) = [r] → r.irq = false →
    q.coalCount = 0 → s.chip.readable (s.chip.spillOff r.slot) 32 → raw = leNat (s.chip.muslin.read (s.chip.spillOff r.slot) 32) →
    s.chip.writable (devOffset (q.slot q.produced)) 32 →
    Answers s (.spillDrain queue) (fun d => s.chip.within d [.regs, .muslin, .qmg, .msl] ∧
      d.qmg.spill = s.chip.qmg.spill.erase r ∧ d.rd R.QMG_SPILL_LEVEL_LEVEL = (s.chip.qmg.spill.length - 1) % 2 ^ 13 ∧
      leNat (d.muslin.read (devOffset (q.slot q.produced)) 32) = setBits raw 63 1 (q.phase q.produced) % 2 ^ 256 ∧
      s.chip.muslinKept d (devOffset (q.slot q.produced)) 32 ∧
      (d.qmg.queues.get? n).map (·.produced) = some (q.produced + 1) ∧
      (d.qmg.queues.get? n).map (·.uncovered) = some (q.uncovered + 1) ∧
      ∀ m, m ≠ n → d.qmg.queues.get? m = s.chip.qmg.queues.get? m)) ∧
  (∀ (s : State) (queue n : Nat) (q : Queue), s.chip.awake = true → n = queue % 32768 → s.chip.queue? n = some q →
    q.full = true → Answers s (.spillDrain queue) (fun d => d = s.chip)) ∧
  (∀ (s : State) (queue n : Nat) (q : Queue), s.chip.awake = true → n = queue % 32768 → s.chip.queue? n = some q →
    q.hostConsumes = true → q.coalUs ≠ 0 → q.uncovered ≠ 0 → q.vector ≠ 0 → s.chip.on R.PCI_MSIX_ENABLE = true →
    s.chip.on R.PCI_MSIX_FUNCTION_MASK = false → (s.chip.regs.get (msixControl q.vector)).getLsbD 0 = false →
    Answers s (.coalesceTimerExpire queue) (fun d => s.chip.within d [.tku, .qmg, .sent] ∧
      d.now = max s.chip.now (q.firstUncovered + 1000 * q.coalUs) ∧ d.qmg.queues.get? n = some { q with uncovered := 0 } ∧
      (∀ m, m ≠ n → d.qmg.queues.get? m = s.chip.qmg.queues.get? m) ∧ d.sent = ⟨.msix, q.vector, 0, []⟩ :: s.chip.sent)))

/-- R304, R305: a read of a good burst answers its bytes and changes nothing; one wrong byte that inline ECC corrects is counted and
its burst queued for write-back; two or three poison the burst, are counted and latched, and end the requester's operation with
DRC_UNCORRECTABLE; without inline ECC, or where the code misses more, the read answers the wrong bytes. R20: a word that the network
loses ends the operation with NET_UNCORRECTABLE. R313, R317: under QUIESCE, and in self-refresh, the request waits; during a pair
retirement, and while the DRC is off, it is refused with ISLAND_OFFLINE. R301, R306, R309: a write within one burst stores its bytes
at the place that serves it and leaves every other byte of DRAM; while the page is being retired the spare gets the bytes too; with
inline ECC a write over part of a burst reads it first, with SOURCE 1: it is not performed where the burst is uncorrectable. A write
over a whole burst clears its poison. The model's choices in it: log entries 9, 57, 168. -/
def Obligations.DramAccesses : Prop :=
  ((∀ (s : State) (a unit b p : Nat) (errors : List (Nat × Byte)), s.chip.awake = true → s.chip.validRange [8] a 1 = true →
    s.chip.on R.DRC_CTRL_QUIESCE = false → s.chip.dramServes = true → s.chip.drc.selfRefresh = false → s.chip.drc.held = [] →
    b = devOffset a - devOffset a % 64 → p = s.chip.dramPlace b → s.chip.channelOut p 64 = false →
    (∀ x ∈ s.chip.drc.poisoned, x < p / 64 ∨ p + 64 ≤ 64 * x) →
    ((s.chip.on R.DRC_CFG_ECC_EN = true → checkBurst errors = .missed) ∨ errors = [] →
      Answers s (.dramRead a unit errors []) (fun d => s.chip.within d [.drc, .sent] ∧
        d.drc = { (s.chip.spoilBurst (p / 64) errors).drc with lastRequest := s.chip.now, touched := true, wakeAt := none } ∧
        (errors = [] → d.drc.cells = s.chip.drc.cells) ∧ d.sent = ⟨.line, b, 0, d.drc.read p 64⟩ :: s.chip.sent)) ∧
    (s.chip.on R.DRC_CFG_ECC_EN = true → checkBurst errors = .corrected →
      Answers s (.dramRead a unit errors []) (fun d => s.chip.within d [.regs, .drc, .sent] ∧
        d.rd R.DRC_ECC_CE_CNT_COUNT = (s.chip.rd R.DRC_ECC_CE_CNT_COUNT + 1) % 2 ^ 32 ∧
        d.drc.writebacks = s.chip.drc.writebacks ++ [b / 64] ∧ d.drc.cells = s.chip.drc.cells ∧
        d.sent.head? = some ⟨.line, b, 0, s.chip.drc.read p 64⟩)) ∧
    (s.chip.on R.DRC_CFG_ECC_EN = true → checkBurst errors = .uncorrectable → s.chip.plainOn unit →
      Answers s (.dramRead a unit errors []) (fun d => s.chip.within d [.regs, .dsp, .drc, .sent] ∧
        d.rd R.DRC_ECC_UE_CNT_COUNT = (s.chip.rd R.DRC_ECC_UE_CNT_COUNT + 1) % 2 ^ 32 ∧ d.on R.DRC_STATUS_UE_LATCH = true ∧
        (s.chip.on R.DRC_ERR_LOG_VALID = false → d.rd R.DRC_ERR_LOG_KIND = 0 ∧ d.rd R.DRC_ERR_LOG_SOURCE = 0 ∧
          d.rd R.DRC_ERR_LOG_BURST = b / 64 % 2 ^ 30) ∧
        p / 64 ∈ d.drc.poisoned ∧ d.drc.cells = s.chip.drc.cells ∧
        d.op? unit = (s.chip.op? unit).map (·.ends St.DRC_UNCORRECTABLE) ∧ ∀ v, v ≠ unit → d.op? v = s.chip.op? v)) ∧
    (∀ w, w ∈ wordsOf b 64 → s.chip.plainOn unit →
      Answers s (.dramRead a unit [] [(w, true)]) (fun d => s.chip.within d [.regs, .dsp, .msl, .drc, .sent] ∧
        d.drc.cells = s.chip.drc.cells ∧ d.op? unit = (s.chip.op? unit).map (·.ends St.NET_UNCORRECTABLE) ∧
        (s.chip.op? unit = none → (d.rd R.HIF_EVT_PEND_PEND).testBit 0 = true) ∧ ∀ v, v ≠ unit → d.op? v = s.chip.op? v))) ∧
  (∀ (s : State) (a unit : Nat) (errors : List (Nat × Byte)) (net : List (Nat × Bool)), s.chip.awake = true →
    s.chip.validRange [8] a 1 = true →
    (s.chip.on R.DRC_CTRL_QUIESCE = true → s.chip.drc.pairing = none →
      Answers s (.dramRead a unit errors net) (fun d => s.chip.within d [.drc] ∧
        d.drc = { s.chip.drc with port := s.chip.drc.port ++ [.dramRead a unit errors net] })) ∧
    (s.chip.drc.pairing ≠ none ∨ s.chip.on R.DRC_CTRL_QUIESCE = false ∧ s.chip.on R.DRC_CTRL_ENABLE = false → s.chip.plainOn unit →
      Answers s (.dramRead a unit errors net) (fun d => s.chip.within d [.dsp] ∧
        d.op? unit = (s.chip.op? unit).map (·.ends St.ISLAND_OFFLINE) ∧ ∀ v, v ≠ unit → d.op? v = s.chip.op? v)) ∧
    (s.chip.on R.DRC_CTRL_QUIESCE = false → s.chip.dramServes = true → s.chip.drc.selfRefresh = true → s.chip.drc.held = [] →
      Answers s (.dramRead a unit errors net) (fun d => s.chip.within d [.drc] ∧
        d.drc = { s.chip.drc with held := [.dramRead a unit errors net], wakeAt := some (s.chip.drc.wakeAt.getD s.chip.now) })))) ∧
  (∀ (s : State) (a unit off p : Nat) (data : List Byte), s.chip.awake = true → s.chip.validRange [8] a data.length = true →
    s.chip.on R.DRC_CTRL_QUIESCE = false → s.chip.dramServes = true → s.chip.drc.selfRefresh = false → s.chip.drc.held = [] →
    off = devOffset a → off % 64 + data.length ≤ 64 → data ≠ [] → p = s.chip.dramPlace off →
    s.chip.channelOut p data.length = false →
    ((p / 64 ∉ s.chip.drc.poisoned ∨ data.length = 64 ∨ s.chip.on R.DRC_CFG_ECC_EN = false) → s.chip.drc.retiring = none →
      Answers s (.dramWrite a unit data [] []) (fun d => s.chip.within d [.drc] ∧
        (∀ k b, data[k]? = some b → d.drc.get (p + k) = b) ∧ s.chip.dramKept d p data.length ∧
        (data.length = 64 → p / 64 ∉ d.drc.poisoned) ∧ (data.length < 64 → d.drc.poisoned = s.chip.drc.poisoned))) ∧
    (∀ page e, p / 64 ∉ s.chip.drc.poisoned → s.chip.drc.retiring = some (page, e) → off / 4096 = page →
      Answers s (.dramWrite a unit data [] []) (fun d => s.chip.within d [.drc] ∧
        ∀ k b, data[k]? = some b → d.drc.get (s.chip.usableDram + 4096 * e + off % 4096 + k) = b)) ∧
    (s.chip.on R.DRC_CFG_ECC_EN = true → data.length < 64 → s.chip.plainOn unit →
      ∀ errors, (p / 64 ∈ s.chip.drc.poisoned ∧ errors = []) ∨ checkBurst (errorsOf errors (off / 64)) = .uncorrectable →
      Answers s (.dramWrite a unit data errors []) (fun d => s.chip.within d [.regs, .dsp, .drc, .sent] ∧
        d.drc.cells = s.chip.drc.cells ∧ p / 64 ∈ d.drc.poisoned ∧ d.on R.DRC_STATUS_UE_LATCH = true ∧
        (s.chip.on R.DRC_ERR_LOG_VALID = false → d.rd R.DRC_ERR_LOG_KIND = 0 ∧ d.rd R.DRC_ERR_LOG_SOURCE = 1) ∧
        d.op? unit = (s.chip.op? unit).map (·.ends St.DRC_UNCORRECTABLE) ∧ ∀ v, v ≠ unit → d.op? v = s.chip.op? v)) ∧
    (s.chip.on R.DRC_CFG_ECC_EN = true → data.length < 64 → p / 64 ∉ s.chip.drc.poisoned → s.chip.drc.retiring = none →
      s.chip.on R.DRC_CTRL_AUTO_RETIRE = false → ∀ errors, checkBurst (errorsOf errors (off / 64)) = .corrected →
      Answers s (.dramWrite a unit data errors []) (fun d => s.chip.within d [.regs, .drc, .sent] ∧
        d.rd R.DRC_ECC_CE_CNT_COUNT = (s.chip.rd R.DRC_ECC_CE_CNT_COUNT + 1) % 2 ^ 32 ∧
        d.drc.writebacks = s.chip.drc.writebacks ++ [off / 64] ∧
        (∀ k b, data[k]? = some b → d.drc.get (p + k) = b) ∧ s.chip.dramKept d p data.length)) ∧
    (∀ net, off % 8 + data.length ≤ 8 → (off / 8, true) ∈ net → s.chip.plainOn unit →
      Answers s (.dramWrite a unit data [] net) (fun d => s.chip.within d [.regs, .dsp, .msl, .sent] ∧
        d.op? unit = (s.chip.op? unit).map (·.ends St.NET_UNCORRECTABLE) ∧
        (s.chip.op? unit = none → (d.rd R.HIF_EVT_PEND_PEND).testBit 0 = true) ∧ ∀ v, v ≠ unit → d.op? v = s.chip.op? v)))

/-- R309 to R311: a page retirement answers 4 while one runs, 3 for a page that is retired or does not exist, 2 without a free
spare, and starts with the lowest free spare otherwise, an ATU frame marked retired where one is named; at its end the page's bytes
stand on the spare, its table entry is valid, and a command that started it is journalled with RESULT 1; a wrong byte that the copy
meets is corrected and counted, and a burst that it cannot correct is poisoned on the spare. R313: a pair retirement answers 2 when a
pair is out already and 3 unless QUIESCE holds the ports and nothing else runs; it empties the retired table and loses the contents,
refuses the requests at the ports, and its end leaves the DRC on the 14 channels of the other pairs. A refused retirement is journalled.
The model's choices in it: log entries 50, 60, 62. -/
def Obligations.DramRetirement : Prop :=
  ((∀ (s : State) (frameEn : Bool) (frame : BitVec 17) (page : Nat), s.chip.heard = true → page = s.chip.rd R.DRC_RETIRE_ADDR_PAGE →
    ∀ (w : Nat) (P : Nat → Chip → Prop), w = 1 + (if frameEn = true then 2 else 0) + 4 * frame.toNat →
    P = (fun result d => s.chip.within d [.regs, .dict, .odx] ∧ d.rd R.DRC_RETIRE_CMD_RESULT = result ∧
      s.chip.regsKept d [(R.DRC_RETIRE_CMD_RESULT, 0)] ∧ s.chip.journalled d
        { kind := 0x0B, port := 0, status := result, extra := 0x700024 + (w <<< 32) }) →
    (s.chip.drc.retiring ≠ none ∨ s.chip.drc.pairing ≠ none → Answers s (.drcRetire frameEn frame) (fun d =>
      s.chip.within d [.regs] ∧ d.rd R.DRC_RETIRE_CMD_RESULT = 4 ∧ s.chip.regsKept d [(R.DRC_RETIRE_CMD_RESULT, 0)])) ∧
    (s.chip.drc.retiring = none → s.chip.drc.pairing = none →
      (s.chip.pageRetired page = true ∨ s.chip.usableDram ≤ 4096 * page → Answers s (.drcRetire frameEn frame) (P 3)) ∧
      (s.chip.pageRetired page = false → 4096 * page < s.chip.usableDram → s.chip.freeSparePage = none → frameEn = false →
        Answers s (.drcRetire frameEn frame) (P 2)) ∧
      (∀ n, s.chip.pageRetired page = false → 4096 * page < s.chip.usableDram → s.chip.freeSparePage = some n → frameEn = false →
        Answers s (.drcRetire frameEn frame) (fun d => s.chip.within d [.regs, .drc] ∧
          d.drc = { s.chip.drc with retiring := some (page, n), retireWord := some w } ∧ d.on R.DRC_STATUS_BUSY = true ∧
          s.chip.regsKept d [(R.DRC_STATUS_BUSY, 0)])) ∧
      (∀ n a e, s.chip.pageRetired page = false → 4096 * page < s.chip.usableDram → s.chip.freeSparePage = some n →
        frameEn = true → a = s.chip.frameEntry frame.toNat → devRegion a = 0 → devOffset a % 8 = 0 →
        s.chip.writable (devOffset a) 8 → e = leNat (s.chip.muslin.read (devOffset a) 8) →
        Answers s (.drcRetire frameEn frame) (fun d => s.chip.within d [.regs, .muslin, .msl, .drc] ∧
          d.drc.retiring = some (page, n) ∧ d.drc.retireWord = some w ∧ leNat (d.muslin.read (devOffset a) 8) = setBits e 36 2 2 ∧
          s.chip.muslinKept d (devOffset a) 8)) ∧
      (∀ a e, s.chip.pageRetired page = false → 4096 * page < s.chip.usableDram → s.chip.freeSparePage = none →
        frameEn = true → a = s.chip.frameEntry frame.toNat → devRegion a = 0 → devOffset a % 8 = 0 →
        s.chip.writable (devOffset a) 8 → e = leNat (s.chip.muslin.read (devOffset a) 8) →
        Answers s (.drcRetire frameEn frame) (fun d => s.chip.within d [.regs, .dict, .muslin, .msl, .odx] ∧
          d.rd R.DRC_RETIRE_CMD_RESULT = 2 ∧ leNat (d.muslin.read (devOffset a) 8) = setBits e 36 2 2 ∧
          s.chip.muslinKept d (devOffset a) 8)))) ∧
  (∀ (s : State) (page n spare : Nat), s.chip.awake = true → s.chip.drc.retiring = some (page, n) → n < 256 → page < 2 ^ 24 →
    spare = s.chip.usableDram + 4096 * n → 4096 * page + 4096 ≤ s.chip.usableDram →
    Answers s (.retireCopyDone []) (fun d => s.chip.within d [.regs, .dict, .drc, .odx, .sent] ∧ d.drc.retiring = none ∧
      (∀ x, x < 4096 → d.drc.get (spare + x) = s.chip.drc.get (4096 * page + x)) ∧ s.chip.dramKept d spare 4096 ∧
      d.on R.DRC_RETIRED_VALID n = true ∧ d.rd R.DRC_RETIRED_PAGE n = page ∧
      (∀ w, s.chip.drc.retireWord = some w → w < 2 ^ 32 → d.rd R.DRC_RETIRE_CMD_RESULT = 1 ∧
        s.chip.journalled d { kind := 0x0B, port := 0, status := 1, extra := 0x700024 + (w <<< 32) }) ∧
      (s.chip.drc.retireWord = none → d.odx = s.chip.odx)) ∧
    (∀ k, k < 64 → s.chip.on R.DRC_CFG_ECC_EN = true →
      (∀ b x, b < 68 → x ≠ 0 → 64 * page + k ∉ s.chip.drc.poisoned →
        Answers s (.retireCopyDone [(64 * page + k, b, x)]) (fun d =>
          d.rd R.DRC_ECC_CE_CNT_COUNT = (s.chip.rd R.DRC_ECC_CE_CNT_COUNT + 1) % 2 ^ 32 ∧ d.drc.retiring = none ∧
          64 * page + k ∈ d.drc.writebacks ∧
          (∀ y, y < 4096 → d.drc.get (spare + y) = s.chip.drc.get (4096 * page + y)))) ∧
      (∀ errors, checkBurst (errorsOf errors (64 * page + k)) = .uncorrectable →
        Answers s (.retireCopyDone errors) (fun d => spare / 64 + k ∈ d.drc.poisoned ∧ d.on R.DRC_STATUS_UE_LATCH = true ∧
          d.drc.retiring = none))))) ∧
  ((∀ (s : State) (pair : BitVec 3), s.chip.heard = true →
    (s.chip.on R.DRC_STATUS_PAIR_OUT = true → Answers s (.drcPairRetire pair) (fun d => s.chip.within d [.regs, .dict, .odx] ∧
      d.rd R.DRC_PAIR_CMD_RESULT = 2 ∧ s.chip.regsKept d [(R.DRC_PAIR_CMD_RESULT, 0)])) ∧
    (s.chip.on R.DRC_STATUS_PAIR_OUT = false →
      (s.chip.on R.DRC_CTRL_QUIESCE = false ∨ s.chip.drc.retiring ≠ none ∨ s.chip.drc.pairing ≠ none ∨ s.chip.drc.held ≠ []) →
      Answers s (.drcPairRetire pair) (fun d => s.chip.within d [.regs, .dict, .odx] ∧
        d.rd R.DRC_PAIR_CMD_RESULT = 3 ∧ s.chip.regsKept d [(R.DRC_PAIR_CMD_RESULT, 0)])) ∧
    (s.chip.on R.DRC_STATUS_PAIR_OUT = false → s.chip.on R.DRC_CTRL_QUIESCE = true → s.chip.drc.retiring = none →
      s.chip.drc.pairing = none → s.chip.drc.held = [] →
      Answers s (.drcPairRetire pair) (fun d =>
        s.chip.within d [.regs, .muslin, .dsp, .msl, .drc, .dmk, .sent, .fresh] ∧
        (s.chip.drc.port = [] → s.chip.within d [.regs, .drc, .fresh]) ∧
        (∀ a unit errors net, s.chip.drc.port = [.dramRead a unit errors net] → s.chip.plainOn unit →
          d.op? unit = (s.chip.op? unit).map (·.ends St.ISLAND_OFFLINE)) ∧
        d.drc.port = [] ∧ d.drc.pairing = some pair.toNat ∧
        d.drc.cells = [] ∧ d.drc.epoch = s.chip.fresh + 1 ∧ d.drc.poisoned = [] ∧ d.on R.DRC_STATUS_BUSY = true ∧
        (∀ n, n < 256 → d.on R.DRC_RETIRED_VALID n = false) ∧ d.drc.spareTaken = []))) ∧
  (∀ (s : State) (k : Nat), s.chip.awake = true → s.chip.drc.pairing = some k → k < 8 →
    Answers s .pairRetireDone (fun d => s.chip.within d [.regs, .dict, .drc, .odx] ∧ d.drc.pairing = none ∧
      d.on R.DRC_STATUS_PAIR_OUT = true ∧ d.rd R.DRC_STATUS_PAIR = k ∧ d.rd R.DRC_PAIR_CMD_RESULT = 1 ∧
      d.channels.length = 14 ∧ (∀ ch, ch ∈ d.channels ↔ ch < 16 ∧ ch / 2 ≠ k) ∧
      s.chip.journalled d { kind := 0x0B, port := 0, status := 1, extra := 0x700028 + ((k + 8) <<< 32) })))

/-- R305, R307, R315 to R317: write-back, scrub, training, the periodic work of the DRAM devices, and self-refresh: each does its
one thing, and none changes a byte of DRAM. The model's choices in it: log entries 58, 59, 61. -/
def Obligations.DramUpkeep : Prop :=
  (∀ (s : State), s.chip.awake = true →
    Answers s .dramCeWriteback (fun d => d = { s.chip with drc := { s.chip.drc with writebacks := s.chip.drc.writebacks.drop 1 } })) ∧
  (∀ (s : State) (errors : List (Nat × Byte)) (b : Nat), s.chip.awake = true → s.chip.dramServes = true →
    s.chip.on R.DRC_CFG_ECC_EN = true → s.chip.rd R.DRC_CTRL_SCRUB_H ≠ 0 → s.chip.drc.selfRefresh = false → b = s.chip.drc.scrubPos →
    Answers s (.dramScrub errors) (fun d => s.chip.within d [.regs, .drc, .sent] ∧
      (checkBurst errors ≠ .missed → d.drc.cells = s.chip.drc.cells) ∧
      d.drc.scrubPos = (if b + 1 < s.chip.scrubBursts then b + 1 else 0) ∧
      (checkBurst errors = .uncorrectable → b ∈ d.drc.poisoned ∧ d.on R.DRC_STATUS_UE_LATCH = true ∧
        (s.chip.on R.DRC_ERR_LOG_VALID = false → d.rd R.DRC_ERR_LOG_SOURCE = 2)) ∧
      (checkBurst errors = .corrected → b ∉ s.chip.drc.poisoned → b ∈ d.drc.writebacks ∧
        d.rd R.DRC_ECC_CE_CNT_COUNT = (s.chip.rd R.DRC_ECC_CE_CNT_COUNT + 1) % 2 ^ 32))) ∧
  (∀ (s : State), s.chip.heard = true → s.chip.drc.training = none →
    Answers s .drcTrainStart (fun d => d = { s.chip with drc := { s.chip.drc with training := some false } }) ∧
    Answers s .drcTrainRestore (fun d => d = { s.chip with drc := { s.chip.drc with training := some true } })) ∧
  (∀ (s : State) (fail : BitVec 16) (r : Bool), s.chip.awake = true → s.chip.drc.training = some r →
    Answers s (.trainingDone fail) (fun d => s.chip.within d [.regs, .drc] ∧
      d.drc = { s.chip.drc with training := none } ∧
      (∀ k, k < 16 → ((d.rd R.DRC_TRAIN_FAIL).testBit k = true ↔ k ∈ s.chip.channels ∧ fail.getLsbD k = true)) ∧
      (d.on R.DRC_STATUS_TRAINED = true ↔ ∀ k ∈ s.chip.channels, fail.getLsbD k = false) ∧
      (d.on R.DRC_STATUS_TRAINED = false → d.rd R.DRC_CAP_USABLE_MIB = 0) ∧
      s.chip.regsKept d [(R.DRC_TRAIN_FAIL, 0), (R.DRC_STATUS_TRAINED, 0), (R.DRC_CAP_USABLE_MIB, 0)])) ∧
  (∀ (s : State) (ch : Nat), s.chip.awake = true → s.chip.on R.DRC_CTRL_ENABLE = true → ch ∈ s.chip.channels →
    Answers s (.wck2dqCorrection ch) (fun d =>
      d = { s.chip with drc := { s.chip.drc with corrected := s.chip.drc.corrected + 1 } }) ∧
    Answers s (.refreshManagement ch) (fun d => d = { s.chip with drc := { s.chip.drc with rfm := s.chip.drc.rfm + 1 } }) ∧
    (s.chip.drc.selfRefresh = false → Answers s (.dramRefresh ch) (fun d =>
      d = { s.chip with drc := { s.chip.drc with refreshes := s.chip.drc.refreshes + 1 } }))) ∧
  (∀ (s : State) (derate : Nat), s.chip.awake = true → s.chip.on R.DRC_CTRL_ENABLE = true →
    Answers s (.dramTempRead derate false) (fun d => d = { s.chip with drc := { s.chip.drc with derate := derate } }) ∧
    Answers s (.dramTempRead derate true) (fun d => s.chip.within d [.regs, .drc, .sent] ∧
      d.drc = { s.chip.drc with derate := derate } ∧ d.on R.DRC_STATUS_TEMP_HIGH = true ∧
      (d.rd R.HIF_EVT_PEND_PEND).testBit 7 = true)) ∧
  (∀ (s : State), s.chip.awake = true →
    (s.chip.drc.held = [] → s.chip.drc.selfRefresh = false → s.chip.drc.pairing = none →
      Answers s .selfRefreshEntry (fun d => s.chip.within d [.regs, .tku, .drc] ∧
        d.drc = { s.chip.drc with selfRefresh := true } ∧ d.on R.DRC_STATUS_SELF_REFRESH = true ∧ d.domainState 3 = 3 ∧
        d.now = (if s.chip.sentinel = true then max s.chip.now (s.chip.drc.lastRequest + 1000000) else s.chip.now))) ∧
    (s.chip.drc.held ≠ [] ∨ s.chip.drc.selfRefresh = true ∨ s.chip.drc.pairing ≠ none →
      Answers s .selfRefreshEntry (fun d => d = s.chip))) ∧
  (∀ (s : State) (t : Nat), s.chip.awake = true →
    t = (match s.chip.drc.wakeAt with | some a => max s.chip.now (a + 8000) | none => s.chip.now) →
    (s.chip.drc.held = [] → s.chip.drc.selfRefresh = true →
      Answers s .selfRefreshExit (fun d => s.chip.within d [.regs, .tku, .drc] ∧
        d.drc = { s.chip.drc with selfRefresh := false, wakeAt := none } ∧
        d.on R.DRC_STATUS_SELF_REFRESH = false ∧ d.domainState 3 = 0 ∧ d.now = t)) ∧
    (s.chip.drc.held ≠ [] → Answers s .selfRefreshExit (fun d => s.chip.within d (.tku :: Parts.dram) ∧ d.drc.held = [] ∧
      d.drc.selfRefresh = false ∧ d.on R.DRC_STATUS_SELF_REFRESH = false ∧ d.domainState 3 = 0 ∧ d.now = t)))

/-! ## Gauze, Tweed, Tulle and Canvas (chapters 11 to 14) -/

/-- R322, R337, R338: a frame start opens a frame on the pipe that takes the stream: it has the time, the next buffer, the epoch
whose window holds that time, and is dropped, and counted, when the consumer still owns the buffer; a stream of a virtual channel
above 3 is counted and dropped; a receiver that is not enabled does nothing. R322: a good packet of the pipe's data type adds its
line to the open frame, cut to the line's length, with LINE_ERR where its length is wrong; a packet with a bad CRC is counted and
marked as well; one whose header has a corrected bit is counted and acts, one with a bad header is counted and dropped, and the open
frames of its stream have LINE_ERR. R336, R338, R358: a closed frame is delivered: its tensor fills its
buffer, then its record is written with READY, the frame is counted, and its signal advances; the lock bit of a receiver follows the
wire while the receiver runs. The model's choices in it: log entries 75, 76. -/
def Obligations.CameraFrames : Prop :=
  ((∀ (s : State) (rx vc fn p buf : Nat) (ready : Bool), s.chip.awake = true → s.chip.rxRuns rx = true → vc ≤ 3 →
    s.chip.pipesOf rx vc = [p] → (s.chip.pipe p).frame = none → s.chip.gze.pipes.length = 16 →
    buf = (s.chip.pipe p).nextBuf % max 1 (s.chip.pipeEntry p 0x0E) →
    ∀ a, a = s.chip.pipeEntry p 0x10 + 64 * buf → devRegion a = 0 → devOffset a % 64 = 0 → s.chip.readable (devOffset a) 64 →
    ready = (leNat (s.chip.muslin.read (devOffset a) 64)).testBit 224 →
    ∀ hdr, hdr ≠ HeaderCheck.bad → Answers s (.csi2FrameStart rx vc fn hdr) (fun d => s.chip.within d [.regs, .msl, .gze] ∧
      d.rd R.GZE_RX_CNT_HDR_CORR rx = (s.chip.rd R.GZE_RX_CNT_HDR_CORR rx + (if hdr = .corrected then 1 else 0)) % 2 ^ 16 ∧
      (∃ f, (d.pipe p).frame = some f ∧ f.fsTime = s.chip.now ∧ f.buffer = buf ∧ f.dropped = ready ∧ f.lines = [] ∧
        f.cfg = s.chip.gzeCfg ∧ f.crcErrs = 0 ∧ (f.epoch = match s.chip.epochOf p s.chip.now with
          | some e => e.1
          | none => 0xFFFFFFFF) ∧
        (f.flags.testBit 3 = true ↔ s.chip.epochOf p s.chip.now = none)) ∧
      (d.pipe p).done = (s.chip.pipe p).done ∧
      (d.pipe p).droppedBefore = (s.chip.pipe p).droppedBefore + (if ready = true then 1 else 0) ∧
      d.rd R.GZE_PIPE_CNT_DROPPED p = (s.chip.rd R.GZE_PIPE_CNT_DROPPED p + (if ready = true then 1 else 0)) % 2 ^ 16 ∧
      ∀ q, q ≠ p → d.pipe q = s.chip.pipe q)) ∧
  (∀ (s : State) (rx vc : Nat), s.chip.awake = true → s.chip.rxRuns rx = true → 3 < vc →
    Answers s (.csi2FrameEnd rx vc .good) (fun d => s.chip.within d [.regs] ∧
      d.rd R.GZE_RX_CNT_VC_DROP rx = (s.chip.rd R.GZE_RX_CNT_VC_DROP rx + 1) % 2 ^ 16 ∧
      s.chip.regsKept d [(R.GZE_RX_CNT_VC_DROP, rx)])) ∧
  (∀ (s : State) (rx vc fn : Nat), s.chip.awake = true → s.chip.rxRuns rx = false →
    ∀ hdr, Answers s (.csi2FrameStart rx vc fn hdr) (fun d => d = s.chip) ∧
      Answers s (.csi2FrameEnd rx vc hdr) (fun d => d = s.chip))) ∧
  (∀ (s : State) (rx vc p : Nat) (payload : List Byte) (f : PipeFrame) (k : Chip), s.chip.awake = true →
    s.chip.rxRuns rx = true → vc ≤ 3 → s.chip.openPipes rx vc = [p] → (s.chip.pipe p).frame = some f →
    s.chip.gze.pipes.length = 16 → k = s.chip.under f.cfg → sourceDt (k.pipeEntry p 2) ≠ 0x12 → k.pipeEntry p 0x16 = 0 →
    f.lines.length < k.pipeEntry p 4 →
    (∀ crc, Answers s (.csi2LongPacket rx vc (sourceDt (k.pipeEntry p 2)) payload .good crc []) (fun d =>
      s.chip.within d [.regs, .gze] ∧
      d.rd R.GZE_RX_CNT_CRC_ERR rx = (s.chip.rd R.GZE_RX_CNT_CRC_ERR rx + (if crc = true then 0 else 1)) % 2 ^ 16 ∧
      (∃ g, (d.pipe p).frame = some g ∧ g.seen = f.seen + 1 ∧
        g.lines = f.lines ++ [payload.take (csiLineBytes (sourceDt (k.pipeEntry p 2)) (k.pipeEntry p 3))] ∧
        g.crcErrs = f.crcErrs + (if crc = true then 0 else 1) ∧
        (f.flags = 0 → (g.flags.testBit 2 = true ↔
          crc = false ∨ payload.length ≠ csiLineBytes (sourceDt (k.pipeEntry p 2)) (k.pipeEntry p 3)))) ∧
      ∀ q, q ≠ p → d.pipe q = s.chip.pipe q)) ∧
    (∀ dt crc full fn i, i ∈ [Instr.csi2LongPacket rx vc dt payload .bad crc full, .csi2FrameStart rx vc fn .bad,
        .csi2FrameEnd rx vc .bad] → Answers s i (fun d => s.chip.within d [.regs, .gze] ∧
      d.rd R.GZE_RX_CNT_HDR_DROP rx = (s.chip.rd R.GZE_RX_CNT_HDR_DROP rx + 1) % 2 ^ 16 ∧ d.on R.GZE_STATUS_PKT_ERR = true ∧
      (∃ g, (d.pipe p).frame = some g ∧ g.lines = f.lines ∧ g.flags.testBit 2 = true) ∧ ∀ q, q ≠ p → d.pipe q = s.chip.pipe q)) ∧
    Answers s (.csi2FrameEnd rx vc .good) (fun d => s.chip.within d [.regs, .gze] ∧ (d.pipe p).frame = none ∧
      (f.dropped = true → (d.pipe p).done = (s.chip.pipe p).done) ∧
      (f.dropped = false → ∃ g, (d.pipe p).done = (s.chip.pipe p).done ++ [g] ∧ g.feTime = s.chip.now ∧ g.lines = f.lines ∧
        (f.flags = 0 → (g.flags.testBit 0 = true ↔ f.lines.length < k.pipeEntry p 4))) ∧
      ∀ q, q ≠ p → d.pipe q = s.chip.pipe q)) ∧
  ((∀ (s : State) (p a b : Nat) (f : PipeFrame) (rest : List PipeFrame) (k : Chip), s.chip.awake = true → p < 16 →
    s.chip.gze.pipes.length = 16 → (s.chip.pipe p).done = f :: rest → k = s.chip.under f.cfg →
    a = k.pipeEntry p 0x0D + f.buffer * k.pipeEntry p 0x0F → b = k.pipeEntry p 0x10 + 64 * f.buffer → devRegion a = 0 →
    devRegion b = 0 → s.chip.writable (devOffset a) (s.chip.frameTensor p f).length → devOffset b % 64 = 0 →
    s.chip.writable (devOffset b) 64 →
    (devOffset a + (s.chip.frameTensor p f).length ≤ devOffset b ∨ devOffset b + 64 ≤ devOffset a) → s.chip.dsp.weaves = [] →
    Answers s (.frameRecordWrite p) (fun d => s.chip.within d [.regs, .muslin, .dsp, .msl, .gze] ∧
      d.muslin.read (devOffset a) (s.chip.frameTensor p f).length = s.chip.frameTensor p f ∧
      (leNat (d.muslin.read (devOffset b) 64)).testBit 224 = true ∧
      bits (leNat (d.muslin.read (devOffset b) 64)) 0 32 = (s.chip.pipe p).seq % 2 ^ 32 ∧
      bits (leNat (d.muslin.read (devOffset b) 64)) 64 64 = f.fsTime % 2 ^ 64 ∧
      bits (leNat (d.muslin.read (devOffset b) 64)) 225 10 = f.flags % 2 ^ 10 ∧
      (∀ x, (x < devOffset a ∨ devOffset a + (s.chip.frameTensor p f).length ≤ x) → (x < devOffset b ∨ devOffset b + 64 ≤ x) →
        d.muslin.get x = s.chip.muslin.get x) ∧
      d.rd R.GZE_PIPE_CNT_FRAMES p = (s.chip.rd R.GZE_PIPE_CNT_FRAMES p + 1) % 2 ^ 32 ∧ (d.pipe p).done = rest ∧
      (d.pipe p).seq = ((s.chip.pipe p).seq + 1) % 2 ^ 32 ∧ (d.pipe p).droppedBefore = 0 ∧
      (0 < k.pipeEntry p 0x11 → k.pipeEntry p 0x11 < 256 → d.rd R.DSP_SIG_VALUE (k.pipeEntry p 0x11) =
        (s.chip.rd R.DSP_SIG_VALUE (k.pipeEntry p 0x11) + 1) % 2 ^ 32) ∧
      ∀ q, q ≠ p → d.pipe q = s.chip.pipe q)) ∧
  (∀ (s : State) (rx : Nat) (locked : Bool), s.chip.awake = true → rx < 8 →
    Answers s (.csi2RxLockChange rx locked) (fun d => s.chip.within d [.regs] ∧
      ((d.rd R.GZE_STATUS_RX_LOCK).testBit rx = true ↔ locked = true ∧ s.chip.rxRuns rx = true) ∧
      (∀ k, k < 8 → k ≠ rx → (d.rd R.GZE_STATUS_RX_LOCK).testBit k = (s.chip.rd R.GZE_STATUS_RX_LOCK).testBit k) ∧
      s.chip.regsKept d [(R.GZE_STATUS_RX_LOCK, 0)])))

/-- R323 to R325, R328: a sensor frame with a bad FCS, no filter, a bad checksum or a fragment is counted and dropped; one that a
raw filter takes is counted and its entry written into the ring; a point packet adds its points to the open scan of its window, which
the first packet opens; a packet of a closed scan is late. R328: the scan whose window ends first closes 50 µs after that end: its
record is written with READY and its counts, and its signal advances; a dropped scan just ends, and a window without a packet has the
record of an empty scan. The model's choices in it: log entries 78, 79, 80. -/
def Obligations.SensorFramesAndScans : Prop :=
  ((∀ (s : State) (port q sfd : Nat) (frame : List Byte), s.chip.awake = true → s.chip.gzeLive = true → q = port % 2 →
    s.chip.isolated.contains (91 + q) = false →
    ∀ P : Field → Chip → Prop, P = (fun count d => s.chip.within d [.regs] ∧ d.rd count q = (s.chip.rd count q + 1) % 2 ^ 16 ∧
      d.on R.GZE_STATUS_ETH_ERR = true ∧ s.chip.regsKept d [(count, q), (R.GZE_STATUS_ETH_ERR, 0)]) →
    Answers s (.sensorEthFrame port sfd frame false) (P R.GZE_ETH_CNT_FCS_ERR) ∧
    (60 ≤ frame.length → frame.length ≤ 9212 → be16 frame 12 ≠ 0x8808 →
      (ethParse frame = .unmatched → Answers s (.sensorEthFrame port sfd frame true) (P R.GZE_ETH_CNT_UNMATCHED)) ∧
      (ethParse frame = .checksum → Answers s (.sensorEthFrame port sfd frame true) (P R.GZE_ETH_CNT_CSUM_ERR)) ∧
      (ethParse frame = .fragment → Answers s (.sensorEthFrame port sfd frame true) (P R.GZE_ETH_CNT_FRAGMENT)) ∧
      (∀ f, ethParse frame = .ok f → s.chip.ethFilter q sfd f = none →
        Answers s (.sensorEthFrame port sfd frame true) (P R.GZE_ETH_CNT_UNMATCHED)) ∧
      (∀ f n a, ethParse frame = .ok f → s.chip.ethFilter q sfd f = some n → (s.chip.filtUnder n sfd).filtEntry n 4 = 0 →
        s.chip.gze.filters.length = 16 → n < 16 →
        a = s.chip.filtEntry n 6 + ((s.chip.filt n).seq % 2 ^ s.chip.filtEntry n 7) * s.chip.filtEntry n 8 → devRegion a = 0 →
        16 + f.bytes.length ≤ s.chip.filtEntry n 8 → s.chip.writable (devOffset a) (16 + f.bytes.length) →
        (s.chip.filt n).seq < 2 ^ 32 →
        Answers s (.sensorEthFrame port sfd frame true) (fun d => s.chip.within d [.regs, .muslin, .msl, .gze] ∧
          d.rd R.GZE_ETH_CNT_ACCEPTED q = (s.chip.rd R.GZE_ETH_CNT_ACCEPTED q + 1) % 2 ^ 32 ∧
          leNat (d.muslin.read (devOffset a) 4) = (s.chip.filt n).seq ∧
          leNat (d.muslin.read (devOffset a + 4) 4) = sfd % 2 ^ 32 ∧
          d.muslin.read (devOffset a + 16) f.bytes.length = f.bytes ∧
          s.chip.muslinKept d (devOffset a) (16 + f.bytes.length) ∧
          (d.filt n).seq = ((s.chip.filt n).seq + 1) % 2 ^ 32 ∧ ∀ m, m ≠ n → d.filt m = s.chip.filt m)) ∧
      (∀ f n u, ethParse frame = .ok f → s.chip.ethFilter q sfd f = some n → (s.chip.filtUnder n sfd).filtEntry n 4 ≠ 0 →
        f.udp = some u → s.chip.gze.filters.length = 16 → n < 16 →
        (s.chip.scanAt n sfd = none → sfd < (s.chip.filt n).closedTo →
          Answers s (.sensorEthFrame port sfd frame true) (fun d => s.chip.within d [.regs] ∧
            d.rd R.GZE_ETH_CNT_LATE q = (s.chip.rd R.GZE_ETH_CNT_LATE q + 1) % 2 ^ 16 ∧
            d.rd R.GZE_ETH_CNT_ACCEPTED q = (s.chip.rd R.GZE_ETH_CNT_ACCEPTED q + 1) % 2 ^ 32)) ∧
        (∀ w, s.chip.scanAt n sfd = none → (s.chip.filt n).closedTo ≤ sfd →
          (s.chip.scanWindows n).find? (fun w => decide (w.2.1 ≤ sfd) && decide (sfd < w.2.2)) = some w →
          Answers s (.sensorEthFrame port sfd frame true) (fun d => ∃ y ∈ (d.filt n).scans, y.number = w.1 ∧ y.start = w.2.1 ∧
            y.finish = w.2.2 ∧ y.packets = 1 ∧ y.first = sfd ∧ y.cfg = s.chip.gzeCfg)) ∧
        (s.chip.scanAt n sfd = none → (s.chip.filt n).closedTo ≤ sfd →
          (s.chip.scanWindows n).find? (fun w => decide (w.2.1 ≤ sfd) && decide (sfd < w.2.2)) = none →
          Answers s (.sensorEthFrame port sfd frame true) (fun d => s.chip.within d [.regs] ∧ d.on R.GZE_STATUS_ETH_ERR = true)) ∧
        (∀ x k pts base, s.chip.scanAt n sfd = some x → (s.chip.filt n).scans = [x] → x.dropped = false →
          k = s.chip.under x.cfg → pts = packetPoints (k.filtEntry n 0x0D) (k.filtEntry n 0x0E) u.2 →
          x.points + pts.length ≤ k.filtEntry n 8 →
          base = k.filtEntry n 6 + x.buffer * (16 * k.filtEntry n 8) + 16 * x.points → devRegion base = 0 →
          s.chip.writable (devOffset base) (16 * pts.length) →
          Answers s (.sensorEthFrame port sfd frame true) (fun d => s.chip.within d [.regs, .muslin, .msl, .gze] ∧
            s.chip.muslinKept d (devOffset base) (16 * pts.length) ∧
            (∀ j v, pts[j]? = some v → leNat (d.muslin.read (devOffset base + 16 * j) 16) = v % 2 ^ 128) ∧
            (d.filt n).scans = [{ x with points := x.points + pts.length, packets := x.packets + 1,
                                         first := if x.packets = 0 then sfd else x.first, last := sfd }] ∧
            ∀ m, m ≠ n → d.filt m = s.chip.filt m)))))) ∧
  ((∀ (s : State) (port sfd : Nat) (frame : List Byte) (fcs : Bool), s.chip.awake = true →
    (s.chip.gzeLive = false ∨ s.chip.isolated.contains (91 + port % 2) = true) →
    Answers s (.sensorEthFrame port sfd frame fcs) (fun d => d = s.chip)) ∧
  (∀ (s : State) (n : Nat), s.chip.awake = true →
    (s.chip.gzeLive = false ∨ (s.chip.filt n).scans = [] ∧ s.chip.scanUnopened n = []) →
    Answers s (.scanClose n) (fun d => d = s.chip)) ∧
  (∀ (s : State) (n : Nat) (x : ScanWindow) (k : Chip), s.chip.awake = true → n < 16 → s.chip.gzeLive = true →
    s.chip.gze.filters.length = 16 → s.chip.oldestScan n = some x →
    (∀ w, (s.chip.scanUnopened n).head? = some w → x.finish ≤ w.2.2) → k = s.chip.under x.cfg →
    (x.dropped = true → Answers s (.scanClose n) (fun d => s.chip.within d [.tku, .gze] ∧
      d.now = max s.chip.now (x.finish + 50000) ∧ (d.filt n).scans = (s.chip.filt n).scans.filter (fun y => y.start != x.start) ∧
      (d.filt n).closedTo = max (s.chip.filt n).closedTo x.finish ∧ ∀ m, m ≠ n → d.filt m = s.chip.filt m)) ∧
    (∀ a, x.dropped = false → a = k.filtEntry n 9 + 64 * x.buffer → devRegion a = 0 → devOffset a % 64 = 0 →
      s.chip.writable (devOffset a) 64 → s.chip.dsp.weaves = [] →
      Answers s (.scanClose n) (fun d => s.chip.within d [.regs, .muslin, .tku, .dsp, .msl, .gze] ∧
        d.now = max s.chip.now (x.finish + 50000) ∧
        (d.filt n).scans = (s.chip.filt n).scans.filter (fun y => y.start != x.start) ∧
        (d.filt n).delivered = ((s.chip.filt n).delivered + 1) % 2 ^ 32 ∧
        (leNat (d.muslin.read (devOffset a) 64)).testBit 224 = true ∧
        bits (leNat (d.muslin.read (devOffset a) 64)) 32 32 = x.number % 2 ^ 32 ∧
        bits (leNat (d.muslin.read (devOffset a) 64)) 320 32 = x.points % 2 ^ 32 ∧ s.chip.muslinKept d (devOffset a) 64 ∧
        (0 < k.filtEntry n 0x0A → k.filtEntry n 0x0A < 256 → d.rd R.DSP_SIG_VALUE (k.filtEntry n 0x0A) =
          (s.chip.rd R.DSP_SIG_VALUE (k.filtEntry n 0x0A) + 1) % 2 ^ 32) ∧ ∀ m, m ≠ n → d.filt m = s.chip.filt m))) ∧
  (∀ (s : State) (n a b : Nat) (w : Nat × Nat × Nat), s.chip.awake = true → n < 16 → s.chip.gzeLive = true →
    s.chip.gze.filters.length = 16 → (s.chip.filt n).scans = [] → (s.chip.scanUnopened n).head? = some w →
    b = (s.chip.filt n).nextBuf % max 1 (s.chip.filtEntry n 7) → a = s.chip.filtEntry n 9 + 64 * b → devRegion a = 0 →
    devOffset a % 64 = 0 → s.chip.writable (devOffset a) 64 →
    (leNat (s.chip.muslin.read (devOffset a) 64)).testBit 224 = false → s.chip.dsp.weaves = [] →
    Answers s (.scanClose n) (fun d => d.now = max s.chip.now (w.2.2 + 50000) ∧ (d.filt n).scans = [] ∧
      (leNat (d.muslin.read (devOffset a) 64)).testBit 224 = true ∧
      bits (leNat (d.muslin.read (devOffset a) 64)) 32 32 = w.1 % 2 ^ 32 ∧
      bits (leNat (d.muslin.read (devOffset a) 64)) 320 32 = 0 ∧ s.chip.muslinKept d (devOffset a) 64)))

/-- R329, R330: the start event that a port is set to (an edge of its data-ready pin, an epoch of its group, a multiple of its period)
begins a transaction, which shifts the TX bytes out, or is counted as missed while one runs; any other event does nothing; the end of a
transaction puts the sample record into the port's ring. R331, R332: an epoch falls at its grid time, takes the next number, and
schedules each enabled output of its group at its delay every N epochs; an output asserts at its time and deasserts after its width.
The model's choices in it: log entry 81. -/
def Obligations.SpiAndTriggers : Prop :=
  ((∀ (s : State) (p t : Nat) (q : SpiState) (r : Bool), s.chip.awake = true → s.chip.gze.spi[p]? = some q →
    ∀ i after, (i = Instr.spiDrdyEdge p r ∧ s.chip.spiOn p (if r = true then 0 else 1) = true ∧ t = s.chip.now ∧ after = q.after) ∨
      (i = .spiTimedStart p ∧ s.chip.spiNext p = some t ∧ after = t + 1) →
    (q.running = none → Answers s i (fun d => s.chip.within d [.tku, .gze, .sent] ∧ d.now = max s.chip.now t ∧
      d.gze.spi[p]? = some { q with running := some (t, s.chip.gzeCfg), after := after } ∧
      d.sent = ⟨.spi, p, s.chip.entry (0x3CA0 + p) 2,
        (leBytes 16 (s.chip.entry (0x3CA0 + p) 7)).take (s.chip.entry (0x3CA0 + p) 8)⟩ :: s.chip.sent ∧
      (∀ k, k ≠ p → d.gze.spi[k]? = s.chip.gze.spi[k]?) ∧ d.gze.pipes = s.chip.gze.pipes)) ∧
    (q.running ≠ none → Answers s i (fun d => s.chip.within d [.regs, .tku, .gze] ∧ d.now = max s.chip.now t ∧
      d.gze.spi[p]? = some { q with after := after } ∧
      d.rd R.GZE_SPI_CNT_MISSED p = (s.chip.rd R.GZE_SPI_CNT_MISSED p + 1) % 2 ^ 16 ∧ d.on R.GZE_STATUS_SPI_MISSED = true ∧
      s.chip.regsKept d [(R.GZE_SPI_CNT_MISSED, p), (R.GZE_STATUS_SPI_MISSED, 0)]))) ∧
  (∀ (s : State) (p : Nat) (r : Bool), s.chip.awake = true →
    (s.chip.spiOn p (if r = true then 0 else 1) = false → Answers s (.spiDrdyEdge p r) (fun d => d = s.chip)) ∧
    (s.chip.spiNext p = none → Answers s (.spiTimedStart p) (fun d => d = s.chip))) ∧
  (∀ (s : State) (p : Nat) (start seq after a : Nat) (cfg : Table Nat) (e : Nat → Nat) (data : List Byte), s.chip.awake = true → p < 2 →
    s.chip.gze.spi[p]? = some ⟨some (start, cfg), seq, after⟩ → e = (fun x => (s.chip.under cfg).entry (0x3CA0 + p) x) →
    a = e 0x0A + 64 * (seq % 2 ^ e 0x0B) → devRegion a = 0 → devOffset a % 64 = 0 → s.chip.writable (devOffset a) 64 →
    data.length = e 9 → e 9 ≤ 48 → seq < 2 ^ 32 →
    Answers s (.spiTransactionEnd p data) (fun d => s.chip.within d [.regs, .muslin, .tku, .msl, .gze] ∧
      d.gze.spi[p]? = some ⟨none, (seq + 1) % 2 ^ 32, after⟩ ∧
      d.rd R.GZE_SPI_CNT_SAMPLES p = (s.chip.rd R.GZE_SPI_CNT_SAMPLES p + 1) % 2 ^ 32 ∧
      leNat (d.muslin.read (devOffset a) 4) = seq ∧ leNat (d.muslin.read (devOffset a + 4) 4) = start % 2 ^ 32 ∧
      d.muslin.read (devOffset a + 16) data.length = data ∧ s.chip.muslinKept d (devOffset a) 64))) ∧
  ((∀ (s : State) (g t n : Nat), s.chip.awake = true → s.chip.gzeLive = true → g < 4 → s.chip.entryOn (0x3C00 + g) 1 = true →
    s.chip.gze.groups.length = 4 → s.chip.gze.outputs.length = 16 → t = s.chip.gridNext (gridTrig g) (s.chip.trigRule g) →
    n = (s.chip.trig g).number →
    Answers s (.triggerEpoch g) (fun d => s.chip.within d [.tku, .gze] ∧ d.now = max s.chip.now t ∧
      (d.trig g).number = (n + 1) % 2 ^ 32 ∧ (d.trig g).epochs = (n, t) :: (s.chip.trig g).epochs ∧
      (∀ h, h ≠ g → d.trig h = s.chip.trig h) ∧
      ∀ k o, s.chip.gze.outputs[k]? = some o → d.gze.outputs[k]? = some (
        if s.chip.entry (0x3C10 + k) 1 ≠ 0 ∧ s.chip.entry (0x3C10 + k) 2 = g ∧ n % max 1 (s.chip.entry (0x3C10 + k) 3) = 0 then
          { o with waiting := o.waiting ++ [t + s.chip.entry (0x3C10 + k) 4] } else o))) ∧
  (∀ (s : State) (k t : Nat) (o : TrigOut) (rest : List Nat), s.chip.awake = true → s.chip.gze.outputs[k]? = some o →
    o.waiting = t :: rest →
    Answers s (.triggerAssert k) (fun d => s.chip.within d [.tku, .gze] ∧ d.now = max s.chip.now t ∧
      d.gze.outputs[k]? = some ⟨rest, some (t + s.chip.entry (0x3C10 + k) 5)⟩ ∧
      ∀ j, j ≠ k → d.gze.outputs[j]? = s.chip.gze.outputs[j]?)) ∧
  (∀ (s : State) (k t : Nat) (o : TrigOut), s.chip.awake = true → s.chip.gze.outputs[k]? = some o → o.endsAt = some t →
    Answers s (.triggerDeassert k) (fun d => s.chip.within d [.tku, .gze] ∧ d.now = max s.chip.now t ∧
      d.gze.outputs[k]? = some { o with endsAt := none } ∧ ∀ j, j ≠ k → d.gze.outputs[j]? = s.chip.gze.outputs[j]?)))

/-- R382, R389: a track command answers 4 while one waits; it waits while a Tweed operation runs or is suspended; when it takes effect it
answers 5 when a network tracks or the table is torn, 2 for a stale ID, which is counted, 3 to confirm a track that is not
TENTATIVE, and otherwise frees or confirms the track's entry, changes the counts, and answers 1.
The model's choices in it: log entry 88. -/
def Obligations.TrackCommands : Prop :=
  (∀ (s : State) (t : BitVec 16) (op : Nat), s.chip.heard = true →
    ∀ i, (i = Instr.trackDelete t ∧ op = 1) ∨ (i = .trackConfirm t ∧ op = 2) →
    (s.chip.on R.TWD_TRACK_CMD_BUSY = true → Answers s i (fun d => s.chip.within d [.regs] ∧
      d.rd R.TWD_TRACK_CMD_RESULT = 4 ∧ s.chip.regsKept d [(R.TWD_TRACK_CMD_RESULT, 0)])) ∧
    (s.chip.on R.TWD_TRACK_CMD_BUSY = false → s.chip.tweedBusy = true → Answers s i (fun d => s.chip.within d [.regs, .twd] ∧
      d.on R.TWD_TRACK_CMD_BUSY = true ∧ s.chip.regsKept d [(R.TWD_TRACK_CMD_BUSY, 0)] ∧
      d.twd = { s.chip.twd with cmd := some (t.toNat, op) }))) ∧
  (∀ (s : State) (i : Instr) (id op : Nat), s.chip.heard = true → s.chip.tweedBusy = false →
    (s.chip.on R.TWD_TRACK_CMD_BUSY = false ∧
        ((∃ t, i = .trackDelete t ∧ id = t.toNat ∧ op = 1) ∨ (∃ t, i = .trackConfirm t ∧ id = t.toNat ∧ op = 2)) ∨
      i = .trackCmdDeferredApply ∧ s.chip.twd.cmd = some (id, op)) →
    (s.chip.on R.TWD_STATUS_MODE || s.chip.on R.TWD_STATUS_TABLE_TORN) = true →
    Answers s i (fun d => s.chip.within d [.regs, .twd] ∧ d.rd R.TWD_TRACK_CMD_RESULT = 5 ∧ d.on R.TWD_TRACK_CMD_BUSY = false ∧
      d.twd = { s.chip.twd with cmd := none } ∧
      s.chip.regsKept d [(R.TWD_TRACK_CMD_RESULT, 0), (R.TWD_TRACK_CMD_BUSY, 0)])) ∧
  (∀ (s : State) (i : Instr) (id op a x : Nat), s.chip.heard = true →
    (s.chip.on R.TWD_TRACK_CMD_BUSY = false ∧
        ((∃ t, i = .trackDelete t ∧ id = t.toNat ∧ op = 1) ∨ (∃ t, i = .trackConfirm t ∧ id = t.toNat ∧ op = 2)) ∨
      i = .trackCmdDeferredApply ∧ s.chip.twd.cmd = some (id, op) ∧ (op = 1 ∨ op = 2)) →
    s.chip.on R.TWD_STATUS_MODE = false → s.chip.on R.TWD_STATUS_TABLE_TORN = false → s.chip.tweedBusy = false →
    a = s.chip.trackAddr (id % 4096) → devRegion a = 0 → devOffset a % 64 = 0 → s.chip.writable (devOffset a) 64 →
    x = leNat (s.chip.muslin.read (devOffset a) 64) →
    ((trkState x = 0 ∨ trkGen x ≠ id / 4096) → Answers s i (fun d => s.chip.within d [.regs, .msl, .twd] ∧
      d.rd R.TWD_TRACK_CMD_RESULT = 2 ∧ d.on R.TWD_TRACK_CMD_BUSY = false ∧
      d.rd R.TWD_STALE_CNT_COUNT = (s.chip.rd R.TWD_STALE_CNT_COUNT + 1) % 2 ^ 32 ∧ d.twd = { s.chip.twd with cmd := none })) ∧
    (trkState x ≠ 0 → trkGen x = id / 4096 → op = 2 → trkState x ≠ 1 → Answers s i (fun d =>
      s.chip.within d [.regs, .msl, .twd] ∧ d.rd R.TWD_TRACK_CMD_RESULT = 3 ∧ d.on R.TWD_TRACK_CMD_BUSY = false)) ∧
    (trkState x ≠ 0 → trkGen x = id / 4096 → (op = 1 ∨ trkState x = 1) → Answers s i (fun d =>
      s.chip.within d [.regs, .muslin, .msl, .twd] ∧ d.rd R.TWD_TRACK_CMD_RESULT = 1 ∧ d.on R.TWD_TRACK_CMD_BUSY = false ∧
      leNat (d.muslin.read (devOffset a) 64) = setBits x 0 2 (if op = 1 then 0 else 2) ∧
      s.chip.muslinKept d (devOffset a) 64 ∧ (op = 2 → d.rd R.TWD_LIVE_TRACKS = s.chip.rd R.TWD_LIVE_TRACKS ∧
        d.rd R.TWD_LIVE_CONFIRMED = (s.chip.rd R.TWD_LIVE_CONFIRMED + 1) % 2 ^ 13) ∧
      (op = 1 → d.rd R.TWD_LIVE_TRACKS = s.chip.rd R.TWD_LIVE_TRACKS - 1 ∧
        d.rd R.TWD_LIVE_CONFIRMED = s.chip.rd R.TWD_LIVE_CONFIRMED - (if trkState x = 1 then 0 else 1))))) ∧
  (∀ (s : State), s.chip.awake = true → s.chip.tweedBusy = true → Answers s .trackCmdDeferredApply (fun d => d = s.chip))

/-- R391, R399, R408, R416: enabling Tulle checks the motion-primitive table and starts building the index; when the index is built
the world generation advances and Tulle is READY, or INDEX_FULL when the index would not fit; at the end of its budget the search of
the running plan stops with reason 1 once no pop is under way. The model's choices in it: log entries 89, 95. -/
def Obligations.TulleService : Prop :=
  (∀ (s : State), s.chip.heard = true →
    (s.chip.on R.TUL_CTRL_ENABLE = true → Answers s .tulleEnable (fun d => d = s.chip)) ∧
    (s.chip.on R.TUL_CTRL_ENABLE = false → Answers s .tulleEnable (fun d => s.chip.within d [.regs, .msl, .drc, .tul, .sent] ∧
      d.on R.TUL_CTRL_ENABLE = true ∧ d.on R.TUL_STATUS_READY = false ∧ d.on R.TUL_STATUS_TABLE_BAD = !s.chip.checkTable.2.ok ∧
      d.rd R.TUL_TABLE_COUNT = s.chip.checkTable.2.count % 2 ^ 14 ∧ d.tul.building = true ∧ d.tul.active = 0 ∧
      d.tul.runs = s.chip.tul.runs))) ∧
  (∀ (s : State) (n off : Nat), s.chip.awake = true → s.chip.tul.building = true → s.chip.on R.TUL_CTRL_ENABLE = true →
    n = listingsOf (s.chip.objects s.chip.world) → off = s.chip.tulBase 4 → s.chip.writable off 4194304 →
    (n ≤ 1040384 → Answers s .tulleReady (fun d => s.chip.within d [.regs, .muslin, .msl, .tul, .fresh] ∧
      d.on R.TUL_STATUS_READY = true ∧ d.rd R.TUL_INDEX_USED_LISTINGS = n ∧
      d.rd R.TUL_GEN_GEN = (s.chip.rd R.TUL_GEN_GEN + 1) % 2 ^ 16 ∧ d.tul.building = false ∧ s.chip.muslinKept d off 4194304)) ∧
    (1040384 < n → Answers s .tulleReady (fun d => s.chip.within d [.regs, .muslin, .msl, .tul, .fresh] ∧
      d.on R.TUL_STATUS_INDEX_FULL = true ∧ d.rd R.TUL_STATUS_READY = s.chip.rd R.TUL_STATUS_READY ∧ d.tul.building = false))) ∧
  (∀ (s : State) (o : OpRun) (f : PlanRun), s.chip.awake = true → s.chip.op? 22 = some o → s.chip.planRun? o = some f →
    f.phase = 1 → (planPar o.raw).budget ≠ 0 →
    Answers s .planBudgetExpire (fun d => s.chip.within d [.tku, .tul] ∧ d.now = max s.chip.now (f.searchEnds o.raw) ∧
      (f.popped = none → ∃ g, d.planRun? o = some g ∧ g.phase = 2 ∧ g.reason = 1) ∧
      (f.popped ≠ none → d.tul = s.chip.tul)))

/-- R443: each service command of a Canvas instance answers 6 while one runs and 2 for an instance in the wrong state; a removal
that would leave no instance in service needs FORCE and answers 4 without; it drains the instance, whose factors become invalid, and
answers 1 when the last operation has left. The known-answer run ends 300 µs after its start; RETURN puts an instance that passed
back in service with empty slots. A refused command is journalled. The model's choices in it: log entries 50, 99. -/
def Obligations.CanvasService : Prop :=
  (∀ (s : State) (k : Nat) (force : Bool), s.chip.heard = true → k < 2 → s.chip.cnv.length = 2 →
    ∀ (st : Nat) (P : Nat → Chip → Prop), st = s.chip.rd (R.CNV_STATUS_STATE.inst k) →
    P = (fun result d => s.chip.within d [.regs, .dict, .odx] ∧ d.rd (R.CNV_SVC_CMD_RESULT.inst k) = result ∧
      s.chip.regsKept d [(R.CNV_SVC_CMD_RESULT.inst k, 0)] ∧ d.odx.nextSeq = s.chip.odx.nextSeq + 1) →
    (s.chip.on (R.CNV_SVC_CMD_BUSY.inst k) = true →
      ∀ i, i = Instr.cnvRemove k force ∨ i = .cnvTest k ∨ i = .cnvReturn k →
        Answers s i (fun d => s.chip.within d [.regs] ∧ d.rd (R.CNV_SVC_CMD_RESULT.inst k) = 6 ∧
          s.chip.regsKept d [(R.CNV_SVC_CMD_RESULT.inst k, 0)])) ∧
    (s.chip.on (R.CNV_SVC_CMD_BUSY.inst k) = false →
      (st ≠ cvIn → Answers s (.cnvRemove k force) (P 2)) ∧
      (st ≠ cvOut → st ≠ cvFailed → Answers s (.cnvTest k) (P 2) ∧ Answers s (.cnvReturn k) (P 2)) ∧
      (s.chip.on (R.CNV_STATUS_TEST_PASS.inst k) = false → Answers s (.cnvReturn k) (P 2)) ∧
      (st = cvIn → s.chip.canvasIn (1 - k) = false → force = false → Answers s (.cnvRemove k force) (P 4)) ∧
      (st = cvIn → s.chip.canvasIn (1 - k) = true → force = false →
        Answers s (.cnvRemove k force) (fun d => s.chip.within d [.regs, .cnv] ∧
          d.rd (R.CNV_STATUS_STATE.inst k) = cvDraining ∧ d.on (R.CNV_SVC_CMD_BUSY.inst k) = true ∧
          d.rd (R.CNV_STATUS_FACTORED.inst k) = 0 ∧ (d.cnvInst k).service = some (1, false, st, s.chip.now) ∧
          (d.cnvInst k).store = none ∧ (d.cnvInst k).slots = (s.chip.cnvInst k).slots ∧
          d.cnvInst (1 - k) = s.chip.cnvInst (1 - k))) ∧
      (st = cvIn → force = true → Answers s (.cnvRemove k force) (fun d =>
        s.chip.within d [.regs, .muslin, .dsp, .qmg, .msl, .drc, .cnv, .moved, .gng, .sent] ∧
        (d.cnvInst k).service = some (1, true, st, s.chip.now) ∧ (d.cnvInst k).store = none ∧
        (d.cnvInst k).slots = (s.chip.cnvInst k).slots ∧ d.cnvInst (1 - k) = s.chip.cnvInst (1 - k))) ∧
      ((st = cvOut ∨ st = cvFailed) → Answers s (.cnvTest k) (fun d => s.chip.within d [.regs, .cnv] ∧
        d.rd (R.CNV_STATUS_STATE.inst k) = cvTesting ∧ d.on (R.CNV_SVC_CMD_BUSY.inst k) = true ∧
        (d.cnvInst k).service = some (2, false, st, s.chip.now))) ∧
      ((st = cvOut ∨ st = cvFailed) → s.chip.on (R.CNV_STATUS_TEST_PASS.inst k) = true →
        Answers s (.cnvReturn k) (fun d => s.chip.within d [.regs, .dict, .cnv, .odx, .isolated] ∧
          d.rd (R.CNV_STATUS_STATE.inst k) = cvIn ∧ d.rd (R.CNV_SVC_CMD_RESULT.inst k) = 1 ∧
          d.on (R.CNV_SVC_CMD_BUSY.inst k) = false ∧ 100 + k ∉ d.isolated ∧
          (∀ n, n < 4 → d.rd (R.CNV_SLOT_LOADED.inst k) n = 0) ∧ (d.cnvInst k).service = none ∧
          d.cnvInst (1 - k) = s.chip.cnvInst (1 - k))))) ∧
  (∀ (s : State) (k st t : Nat) (f : Bool), s.chip.awake = true → k < 2 → s.chip.cnv.length = 2 →
    (s.chip.rd (R.CNV_STATUS_STATE.inst k) = cvDraining → s.chip.op? (23 + k) = none →
      (∀ o ∈ s.chip.dsp.suspended, o.unit ≠ 23 + k) → (s.chip.cnvInst k).service = some (1, f, st, t) →
      Answers s (.cnvDrainDone k) (fun d => s.chip.within d [.regs, .dict, .cnv, .odx] ∧
        d.rd (R.CNV_STATUS_STATE.inst k) = cvOut ∧ d.rd (R.CNV_SVC_CMD_RESULT.inst k) = 1 ∧
        d.on (R.CNV_SVC_CMD_BUSY.inst k) = false ∧ (d.cnvInst k).service = none ∧ s.chip.journalled d
          { kind := 0x0B, port := 0, status := 1, extra := (R.CNV_SVC_CMD.inst k).addr + ((1 + if f = true then 4 else 0) <<< 32) })) ∧
    ((s.chip.cnvInst k).service = some (2, f, st, t) → st < 8 →
      Answers s (.cnvKatEnd k true) (fun d => s.chip.within d [.regs, .dict, .tku, .cnv, .odx] ∧
        d.now = max s.chip.now (t + 300000) ∧ d.rd (R.CNV_STATUS_STATE.inst k) = st ∧ d.on (R.CNV_STATUS_TEST_PASS.inst k) = true ∧
        d.rd (R.CNV_SVC_CMD_RESULT.inst k) = 1 ∧ d.on (R.CNV_SVC_CMD_BUSY.inst k) = false) ∧
      Answers s (.cnvKatEnd k false) (fun d => s.chip.within d [.regs, .dict, .tku, .cnv, .odx, .sent] ∧
        d.now = max s.chip.now (t + 300000) ∧ d.rd (R.CNV_STATUS_STATE.inst k) = cvFailed ∧
        d.on (R.CNV_STATUS_TEST_PASS.inst k) = false ∧ d.on (R.CNV_STATUS_KAT_FAIL.inst k) = true ∧
        d.rd (R.CNV_SVC_CMD_RESULT.inst k) = 5 ∧ d.on (R.CNV_SVC_CMD_BUSY.inst k) = false)))

/-! ## Jersey (chapter 15) -/

/-- R447, R448, R452, R466: a tick falls at the next multiple of the base period and is counted; a lane that does not sample keeps
its record and its process values; a lane that samples alone puts out the section's result and keeps its new states; a lane whose
slot fails parity stops at its FAULT_VALUE with its FAULT bit set. While Jersey is disabled nothing happens. R452: what a sample
puts out lies within the output limits, its states within 48 bits, and it sets none but the four flags; the section saturates and
never wraps. The model's choices in it: log entry 101. -/
def Obligations.JerseyTicks : Prop :=
  ((∀ (s : State) (sd parity : List Nat), s.chip.awake = true → s.chip.on R.JRS_CTRL_ENABLE = false →
    Answers s (.jerseyTick sd parity) (fun d => d = s.chip)) ∧
  (∀ (s : State) (sd parity : List Nat) (k t : Nat), s.chip.awake = true → s.chip.on R.JRS_CTRL_ENABLE = true →
    k = s.chip.jrsNextTick → t = k * s.chip.jrsBase →
    Answers s (.jerseyTick sd parity) (fun d => s.chip.within d [.regs, .dict, .tku, .jrs, .sent] ∧ d.now = max s.chip.now t ∧
      d.rd R.JRS_TICK_CNT_COUNT = (s.chip.rd R.JRS_TICK_CNT_COUNT + 1) % 2 ^ 32 ∧
      (∀ n, n < 256 → n ∉ s.chip.lanesAt k → d.lane n = s.chip.lane n ∧ ∀ j, j < 256 → d.lanePv n j = s.chip.lanePv n j) ∧
      (∀ n, n ∈ s.chip.lanesAt k → n ∈ parity → s.chip.laneFaulted n = false → s.chip.laneCfg n 3 < 4 →
        d.laneFaulted n = true ∧ (d.lane n).out = some (s.chip.laneCfg n 0x11) ∧ d.on R.JRS_STATUS_LANE_FAULT = true) ∧
      (∀ n r, s.chip.lanesAt k = [n] → n ∉ parity → s.chip.laneFaulted n = false → s.chip.laneCfg n 3 < 4 →
        (s.chip.lane n).resetDue = false →
        r = (s.chip.laneSection n).sample (s.chip.laneSource sd n (s.chip.laneCfg n 6)) (s.chip.laneSource sd n (s.chip.laneCfg n 7))
          (toSigned 64 (s.chip.lanePv n 6)) (toSigned 64 (s.chip.lanePv n 7)) (toSigned 64 (s.chip.lanePv n 8)) →
        (d.lane n).out = some (ofSigned 32 r.out) ∧ d.lanePv n 2 = ofSigned 32 r.out ∧ d.lanePv n 6 = ofSigned 64 r.s1 ∧
        d.lanePv n 7 = ofSigned 64 r.s2 ∧ d.lanePv n 8 = ofSigned 64 r.s3)))) ∧
  (∀ (l : LaneSection) (sp fb : Int × Nat) (s1 s2 s3 : Int), l.outMin ≤ l.outMax →
    ∀ r, r = l.sample sp fb s1 s2 s3 →
    l.outMin ≤ r.out ∧ r.out ≤ l.outMax ∧ -2 ^ 47 ≤ r.s1 ∧ r.s1 < 2 ^ 47 ∧ -2 ^ 47 ≤ r.s2 ∧ r.s2 < 2 ^ 47 ∧
      (l.order = 3 → -2 ^ 47 ≤ r.s3 ∧ r.s3 < 2 ^ 47) ∧ (l.order ≠ 3 → r.s3 = s3) ∧ r.flags < 16)

/-- R456, R460, R462, R466: Jersey takes a queue entry as pending set-points of consecutive lanes, or counts a bad one; a PWM period
takes over the shadow duty; an edge of a pulse input counts one up or down, two edges at once are illegal; disabling stops every
running lane at its FAULT_VALUE with its pin idle. The model's choices in it: log entries 103, 105. -/
def Obligations.JerseyInputsAndPins : Prop :=
  (∀ (s : State) (slot sub qn e : Nat) (q : Queue), s.chip.awake = true → sub = slot % 8 + 1 → qn = s.chip.entry 0x4C01 sub →
    qn ≠ 0xFFFF → s.chip.queue? qn = some q → q.kind = 3 → q.consumer = 2 → q.level ≠ 0 →
    s.chip.readable (devOffset (q.slot q.consumed)) 64 → e = leNat (s.chip.muslin.read (devOffset (q.slot q.consumed)) 64) →
    ((bits e 8 4 = 0 ∨ bits e 8 4 = 15 ∨ 256 < bits e 0 8 + bits e 8 4) →
      Answers s (.jerseyQueueTake slot) (fun d => s.chip.within d [.regs, .qmg, .msl] ∧
        d.rd R.JRS_QUEUE_BAD_CNT_COUNT = (s.chip.rd R.JRS_QUEUE_BAD_CNT_COUNT + 1) % 2 ^ 32 ∧
        d.qmg.queues.get? qn = some { q with consumed := q.consumed + 1, stamps := q.stamps.tail })) ∧
    (bits e 8 4 ≠ 0 → bits e 8 4 ≠ 15 → bits e 0 8 + bits e 8 4 ≤ 256 →
      Answers s (.jerseyQueueTake slot) (fun d => s.chip.within d [.regs, .qmg, .msl, .jrs] ∧
        d.qmg.queues.get? qn = some { q with consumed := q.consumed + 1, stamps := q.stamps.tail } ∧
        (∀ i, i < bits e 8 4 → (d.lane (bits e 0 8 + i)).pending =
          (s.chip.lane (bits e 0 8 + i)).pending ++ [(bits e (64 + 32 * i) 32, q.stamps.headD 0, sub)]) ∧
        (∀ n, n < bits e 0 8 ∨ bits e 0 8 + bits e 8 4 ≤ n → d.lane n = s.chip.lane n) ∧
        d.jrs.pins = s.chip.jrs.pins))) ∧
  (∀ (s : State) (pin n t : Nat), s.chip.awake = true → s.chip.on R.JRS_CTRL_ENABLE = true → n = pin % 48 → s.chip.pwmCfg n 1 ≠ 0 →
    t = s.chip.gridNext (gridPwm n) (s.chip.pwmRule n) →
    Answers s (.pwmPeriodStart pin) (fun d => s.chip.within d [.tku, .jrs] ∧ d.now = max s.chip.now t ∧
      (d.pin n).duty = (s.chip.pin n).shadow ∧ (d.pin n).shadow = (s.chip.pin n).shadow ∧
      (∀ m, m ≠ n → d.pin m = s.chip.pin m) ∧ d.jrs.lanes = s.chip.jrs.lanes)) ∧
  (∀ (s : State) (input i : Nat) (a b : Bool), s.chip.awake = true → s.chip.on R.JRS_CTRL_ENABLE = true → i = input % 16 →
    s.chip.entry (0x4C20 + i) 1 ≠ 0 → s.chip.jrs.pulse.length = 16 →
    ∀ old n, old = nth s.chip.jrs.pulse i (false, false) → n = s.chip.rd R.JRS_PULSE_CNT_COUNT i →
    Answers s (.pulseInputEdge input a b) (fun d => s.chip.within d [.regs, .jrs] ∧ nth d.jrs.pulse i (false, false) = (a, b) ∧
      s.chip.regsKept d [(R.JRS_PULSE_CNT_COUNT, i), (R.JRS_PULSE_CNT_ILLEGAL, i)] ∧
      (s.chip.entry (0x4C20 + i) 2 = 0 → a ≠ old.1 → b ≠ old.2 → d.rd R.JRS_PULSE_CNT_COUNT i = n ∧
        d.rd R.JRS_PULSE_CNT_ILLEGAL i = (s.chip.rd R.JRS_PULSE_CNT_ILLEGAL i + 1) % 2 ^ 16) ∧
      (s.chip.entry (0x4C20 + i) 2 = 0 → ((a ≠ old.1 ∧ b = old.2) ∨ (a = old.1 ∧ b ≠ old.2)) →
        d.rd R.JRS_PULSE_CNT_COUNT i = (n + 1) % 2 ^ 32 ∨ d.rd R.JRS_PULSE_CNT_COUNT i = (n + 2 ^ 32 - 1) % 2 ^ 32) ∧
      (s.chip.entry (0x4C20 + i) 2 ≠ 0 → a = true → old.1 = false →
        d.rd R.JRS_PULSE_CNT_COUNT i = (n + 1) % 2 ^ 32 ∨ d.rd R.JRS_PULSE_CNT_COUNT i = (n + 2 ^ 32 - 1) % 2 ^ 32) ∧
      (s.chip.entry (0x4C20 + i) 2 ≠ 0 → (a = false ∨ old.1 = true) → d.rd R.JRS_PULSE_CNT_COUNT i = n))) ∧
  (∀ (s : State), s.chip.heard = true → s.chip.on R.JRS_CTRL_ENABLE = true →
    Answers s .jerseyDisable (fun d => s.chip.within d [.regs, .dict, .jrs] ∧ d.on R.JRS_CTRL_ENABLE = false ∧
      d.on R.JRS_STATUS_RUNNING = false ∧ s.chip.regsKept d [(R.JRS_CTRL_ENABLE, 0), (R.JRS_STATUS_RUNNING, 0)] ∧
      ∀ n ∈ s.chip.lanesOn, s.chip.laneFaulted n = false → d.lanePv n 2 = s.chip.laneCfg n 0x11 ∧
        d.pin (s.chip.laneCfg n 0x12) = ⟨none, none⟩))

/-- R467 to R469: a spare-lane request answers 3 while a swap runs or for a lane that is not enabled, and 2 where its datapath's
spare is used or bad; the known-answer run takes 20 µs and its failure marks the spare bad; the load waits until the lane's next
sample lies 3 µs ahead; 2 µs after it the lane runs on the spare, without its FAULT. A refused request is journalled.
The model's choices in it: log entries 50, 106. -/
def Obligations.SpareLanes : Prop :=
  (∀ (s : State) (lane : BitVec 8) (n : Nat), s.chip.heard = true → n = lane.toNat →
    ∀ P : Nat → Chip → Prop, P = (fun result d => s.chip.within d [.regs, .dict, .odx] ∧ d.rd R.JRS_SWAP_CMD_RESULT = result ∧
      s.chip.regsKept d [(R.JRS_SWAP_CMD_RESULT, 0)] ∧ s.chip.journalled d
        { kind := 0x0B, port := 0, status := result, extra := 0xD00020 + ((n + 256) <<< 32) }) →
    (s.chip.jrs.swap ≠ none → Answers s (.jrsSwap lane) (fun d => s.chip.within d [.regs] ∧ d.rd R.JRS_SWAP_CMD_RESULT = 3 ∧
      s.chip.regsKept d [(R.JRS_SWAP_CMD_RESULT, 0)])) ∧
    (s.chip.jrs.swap = none → s.chip.laneCfg n 1 = 0 → Answers s (.jrsSwap lane) (P 3)) ∧
    (s.chip.jrs.swap = none → s.chip.laneCfg n 1 ≠ 0 →
      ((s.chip.on R.JRS_SPARE_IN_USE (n % 16) || s.chip.on R.JRS_SPARE_SPARE_BAD (n % 16)) = true →
        Answers s (.jrsSwap lane) (P 2)) ∧
      (s.chip.on R.JRS_SPARE_IN_USE (n % 16) = false → s.chip.on R.JRS_SPARE_SPARE_BAD (n % 16) = false →
        Answers s (.jrsSwap lane) (fun d => s.chip.within d [.regs, .jrs] ∧ d.on R.JRS_SWAP_CMD_BUSY = true ∧
          d.on R.JRS_STATUS_SWAP_BUSY = true ∧ d.jrs = { s.chip.jrs with swap := some (n, s.chip.now, 0) })))) ∧
  (∀ (s : State) (n t : Nat), s.chip.awake = true → s.chip.jrs.swap = some (n, t, 0) → n < 256 →
    Answers s (.jrsSwapKatEnd true) (fun d => s.chip.within d [.regs, .tku, .jrs] ∧ d.now = max s.chip.now (t + 20000) ∧
      d.jrs = { s.chip.jrs with swap := some (n, t, 1) }) ∧
    Answers s (.jrsSwapKatEnd false) (fun d => s.chip.within d [.regs, .dict, .tku, .jrs, .odx] ∧
      d.now = max s.chip.now (t + 20000) ∧ d.jrs.swap = none ∧ d.on R.JRS_SPARE_SPARE_BAD (n % 16) = true ∧
      d.rd R.JRS_STATUS_SPARES_FREE = s.chip.rd R.JRS_STATUS_SPARES_FREE - 1 ∧ d.rd R.JRS_SWAP_CMD_RESULT = 4 ∧
      d.on R.JRS_SWAP_CMD_BUSY = false ∧ s.chip.journalled d
        { kind := 0x0B, port := 0, status := 4, extra := 0xD00020 + ((n + 256) <<< 32) })) ∧
  (∀ (s : State) (n t : Nat) (parity : Bool), s.chip.awake = true → s.chip.jrs.swap = some (n, t, 1) →
    (s.chip.on R.JRS_CTRL_ENABLE = true → s.chip.laneNext n < s.chip.now + 3000 →
      Answers s (.jrsSwapLoad parity) (fun d => d = s.chip)) ∧
    ((s.chip.on R.JRS_CTRL_ENABLE = false ∨ s.chip.now + 3000 ≤ s.chip.laneNext n) →
      Answers s (.jrsSwapLoad parity) (fun d => s.chip.within d [.regs, .dict, .jrs] ∧
        d.jrs = { s.chip.jrs with swap := some (n, s.chip.now, 2) } ∧
        ((parity || s.chip.laneFaulted n) = true → d.lanePv n 6 = 0 ∧ d.lanePv n 7 = 0 ∧ d.lanePv n 8 = 0) ∧
        ((parity || s.chip.laneFaulted n) = false → d.dict = s.chip.dict)))) ∧
  (∀ (s : State) (n t : Nat), s.chip.awake = true → s.chip.jrs.swap = some (n, t, 2) → n < 256 →
    Answers s .jrsSwapDone (fun d => s.chip.within d [.regs, .dict, .tku, .jrs, .odx, .sent] ∧
      d.now = max s.chip.now (t + 2000) ∧ d.jrs.swap = none ∧ d.laneFaulted n = false ∧
      d.on R.JRS_SPARE_IN_USE (n % 16) = true ∧ d.rd R.JRS_SPARE_REPLACED (n % 16) = n ∧ d.rd R.JRS_SWAP_CMD_RESULT = 1 ∧
      d.rd R.JRS_STATUS_SPARES_FREE = s.chip.rd R.JRS_STATUS_SPARES_FREE - 1 ∧ d.on R.JRS_SWAP_CMD_BUSY = false ∧
      s.chip.journalled d { kind := 0x0B, port := 0, status := 1, extra := 0xD00020 + ((n + 256) <<< 32) }))

/-! ## Field ports (chapter 18) -/

/-- R520, R525, R526: a received frame that is not addressed to the port, or is a pause frame, is ignored; a bad FCS is counted; a
good frame that no stream filter, Gwepo or PTP takes goes into the buffer of the next receive descriptor, which gets the frame's
length, class and time stamp. A write of PROD of a transmit ring within the ring takes effect, and the first waiting descriptor is
read; a frame whose gate is open leaves the port, one that R526 excludes is dropped and counted, and its descriptor is written back.
R522, R524: a gate list first takes effect at the first of its cycles at or after the present, and then entry by entry, each after
the interval of the one before; R523: verification that succeeds makes preemption active; R543: a change of a link shows.
The model's choices in it: log entries 121, 122. -/
def Obligations.HostRingsAndGates : Prop :=
  ((∀ (s : State) (n : Nat) (f : List Byte) (fcsOk : Bool), s.chip.awake = true →
    (n < 2 → (s.chip.addressed n (frameParts f).dest = false ∨ (frameParts f).etherType = 0x8808) →
      Answers s (.fieldFrameRx n f fcsOk) (fun d => d = s.chip)) ∧
    (s.chip.portOn n = true → s.chip.addressed n (frameParts f).dest = true → (frameParts f).etherType ≠ 0x8808 →
      Answers s (.fieldFrameRx n f false) (fun d => s.chip.within d [.regs] ∧
        d.rd R.FLD_PORT_CNT_RX_FRAMES n = (s.chip.rd R.FLD_PORT_CNT_RX_FRAMES n + 1) % 2 ^ 32 ∧
        d.rd R.FLD_PORT_CNT_FCS_ERR n = (s.chip.rd R.FLD_PORT_CNT_FCS_ERR n + 1) % 2 ^ 16 ∧
        s.chip.regsKept d [(R.FLD_PORT_CNT_RX_FRAMES, n), (R.FLD_PORT_CNT_FCS_ERR, n)]) ∧
      (∀ a b dsc : Nat, f.length ≤ 1518 → s.chip.entry (0x54A0 + n) 1 = 0 → (frameParts f).etherType ≠ 0x88B5 →
        (frameParts f).etherType ≠ 0x88F7 → s.chip.on R.FLD_HRX_CFG_ENABLE n = true → s.chip.ringLevel false n ≠ 0 →
        a = s.chip.ringSlot false n (s.chip.rd R.FLD_HRX_CONS_CONS n) → devRegion a = 0 → s.chip.writable (devOffset a) 32 →
        b = bits (leNat (s.chip.muslin.read (devOffset a) 32)) 0 40 → devRegion b = 0 → s.chip.writable (devOffset b) f.length →
        devOffset b + f.length ≤ devOffset a ∨ devOffset a + 32 ≤ devOffset b →
        dsc = b + ((f.length % 2048) <<< 40) + (1 <<< 51) + (s.chip.stamp <<< 64) +
          ((match (frameParts f).tag with | some t => t.1 | none => 0) <<< 96) →
        Answers s (.fieldFrameRx n f true) (fun d => s.chip.within d [.regs, .muslin, .msl] ∧
          d.muslin.read (devOffset b) f.length = f ∧ d.muslin.read (devOffset a) 32 = leBytes 32 dsc ∧
          (∀ x, x < devOffset a ∨ devOffset a + 32 ≤ x → x < devOffset b ∨ devOffset b + f.length ≤ x →
            d.muslin.get x = s.chip.muslin.get x) ∧
          d.rd R.FLD_PORT_CNT_RX_FRAMES n = (s.chip.rd R.FLD_PORT_CNT_RX_FRAMES n + 1) % 2 ^ 32 ∧
          d.rd R.FLD_HRX_CONS_CONS n = (s.chip.rd R.FLD_HRX_CONS_CONS n + 1) % 2 ^ 32)))) ∧
  (∀ (s : State) (n a : Nat) (v : Word), s.chip.heard = true → n < 2 →
    (s.chip.ringEntries true n < (v.toNat + 2 ^ 32 - s.chip.rd R.FLD_HTX_CONS_CONS n) % 2 ^ 32 →
      Answers s (.hostTxProd n v) (fun d => d = s.chip)) ∧
    ((v.toNat + 2 ^ 32 - s.chip.rd R.FLD_HTX_CONS_CONS n) % 2 ^ 32 ≤ s.chip.ringEntries true n →
      Answers s (.hostTxProd n v) (fun d => d.rd R.FLD_HTX_PROD_PROD n = v.toNat) ∧
      (v.toNat ≠ s.chip.rd R.FLD_HTX_CONS_CONS n → s.chip.on R.FLD_HTX_CFG_ENABLE n = true → s.chip.portOn n = true →
        Table.get? s.chip.fld.txHead n = none → a = s.chip.ringSlot true n (s.chip.rd R.FLD_HTX_CONS_CONS n) → devRegion a = 0 →
        s.chip.readable (devOffset a) 32 →
        Answers s (.hostTxProd n v) (fun d => s.chip.within d [.regs, .tku, .msl, .fld] ∧ d.rd R.FLD_HTX_PROD_PROD n = v.toNat ∧
          Table.get? d.fld.txHead n = some (leNat (s.chip.muslin.read (devOffset a) 32)) ∧
          (∀ m, m ≠ n → Table.get? d.fld.txHead m = Table.get? s.chip.fld.txHead m) ∧ d.tku.clock = s.chip.tku.clock)))) ∧
  (∀ (s : State) (n x a b : Nat) (frame : List Byte), s.chip.awake = true → n < 2 → Table.get? s.chip.fld.txHead n = some x →
    s.chip.portOn n = true → s.chip.on R.FLD_HTX_CFG_ENABLE n = true → b = bits x 0 40 → devRegion b = 0 →
    s.chip.readable (devOffset b) (bits x 40 11) → frame = s.chip.muslin.read (devOffset b) (bits x 40 11) →
    a = s.chip.ringSlot true n (s.chip.rd R.FLD_HTX_CONS_CONS n) → devRegion a = 0 → s.chip.writable (devOffset a) 32 →
    s.chip.ringLevel true n = 1 →
    (s.chip.txDropped n x frame = false → s.chip.gateOpen n (bits x 51 3) = true →
      s.chip.fitsGate n (bits x 40 11 + 4) = true →
      Answers s (.hostTxFrameDone n) (fun d => s.chip.within d [.regs, .muslin, .msl, .fld, .sent] ∧
        d.sent = ⟨.field, n, 0, frame⟩ :: s.chip.sent ∧ d.muslin.read (devOffset a) 32 = leBytes 32 (setBits x 55 2 1) ∧
        s.chip.muslinKept d (devOffset a) 32 ∧ Table.get? d.fld.txHead n = none ∧
        d.rd R.FLD_PORT_CNT_TX_FRAMES n = (s.chip.rd R.FLD_PORT_CNT_TX_FRAMES n + 1) % 2 ^ 32 ∧
        d.rd R.FLD_HTX_CONS_CONS n = s.chip.rd R.FLD_HTX_PROD_PROD n)) ∧
    (s.chip.txDropped n x frame = true →
      Answers s (.hostTxFrameDone n) (fun d => s.chip.within d [.regs, .muslin, .msl, .fld] ∧
        d.muslin.read (devOffset a) 32 = leBytes 32 (setBits x 55 2 3) ∧ s.chip.muslinKept d (devOffset a) 32 ∧
        d.rd R.FLD_PORT_CNT_HOST_TX_DROP n = (s.chip.rd R.FLD_PORT_CNT_HOST_TX_DROP n + 1) % 2 ^ 16 ∧
        d.on R.FLD_STATUS_HOST_DROP = true ∧ d.rd R.FLD_HTX_CONS_CONS n = s.chip.rd R.FLD_HTX_PROD_PROD n)))) ∧
  ((∀ (s : State) (n : Nat) (e : Nat → Nat), s.chip.awake = true → n < 2 → e = s.chip.entry (0x5480 + n) → s.chip.portOn n = true →
    e 1 ≠ 0 → 1 ≤ e 4 →
    (∀ i t, Table.get? s.chip.fld.qbv n = some (i, t) →
      Answers s (.gateListEntry n) (fun d => s.chip.within d [.tku, .fld] ∧ d.now = max s.chip.now t ∧
        Table.get? d.fld.qbv n = some ((i + 1) % e 4, t + bits (e 5) (32 * ((i + 1) % e 4) + 8) 24) ∧
        (∀ m, m ≠ n → Table.get? d.fld.qbv m = Table.get? s.chip.fld.qbv m) ∧ d.fld.gates = s.chip.fld.gates)) ∧
    (Table.get? s.chip.fld.qbv n = none → 1 ≤ e 3 →
      Answers s (.gateListEntry n) (fun d => s.chip.within d [.tku, .fld] ∧
        (∃ k t, t = e 2 + k * e 3 ∧ s.chip.now ≤ t ∧ (0 < k → t < s.chip.now + e 3) ∧ d.now = t ∧
          Table.get? d.fld.qbv n = some (0, t + bits (e 5) 8 24))))) ∧
  (∀ (s : State) (n g r i t : Nat), s.chip.awake = true → n < 2 → g < 32 → s.chip.portOn n = true →
    s.chip.entry (0x54A0 + n) 1 ≠ 0 → r = s.chip.gateRecord n g → bits r 544 8 ≠ 0 →
    Table.get? s.chip.fld.gates (32 * n + g) = some (i, t) →
    Answers s (.streamGateEntry n g) (fun d => s.chip.within d [.tku, .fld] ∧ d.now = max s.chip.now t ∧
      Table.get? d.fld.gates (32 * n + g) =
        some ((i + 1) % bits r 544 8, t + bits r (32 * ((i + 1) % bits r 544 8) + 8) 24) ∧ d.fld.qbv = s.chip.fld.qbv)) ∧
  (∀ (s : State) (n : Nat), s.chip.awake = true → n < 2 →
    (s.chip.portOn n = true → s.chip.entryOn (0x5490 + n) 1 = true → s.chip.entryOn (0x5490 + n) 4 = true →
      Answers s (.preemptVerifyDone n) (fun d => s.chip.within d [.regs] ∧
        d.portBit R.FLD_STATUS_PREEMPT_ACTIVE n = true ∧
        d.portBit R.FLD_STATUS_PREEMPT_ACTIVE (1 - n) = s.chip.portBit R.FLD_STATUS_PREEMPT_ACTIVE (1 - n) ∧
        s.chip.regsKept d [(R.FLD_STATUS_PREEMPT_ACTIVE, 0)])) ∧
    (∀ up, Answers s (.ethernetLinkChange true n up) (fun d => s.chip.within d [.regs] ∧
        d.portBit R.FLD_STATUS_LINK_UP n = up ∧
        d.portBit R.FLD_STATUS_LINK_UP (1 - n) = s.chip.portBit R.FLD_STATUS_LINK_UP (1 - n) ∧
        s.chip.regsKept d [(R.FLD_STATUS_LINK_UP, 0)]) ∧
      Answers s (.ethernetLinkChange false n up) (fun d => s.chip.within d [.fld] ∧
        d.fld = { s.chip.fld with sensorLink := modifyNth s.chip.fld.sensorLink n (fun _ => up) }))))

/-- R529 to R536: SYNC leaves a port whose link is up within 1.2 µs of the cycle's start, with the cycle, its period and the
verdict, and else is counted as not sent; an IN header that R532 accepts stamps its node and sends the node's OUT frame when that
can start within 1.2 µs; a good IN frame's payload becomes the node's part of the input image; at the close of its window a node is
UP, or has a failed cycle with its cause, and after its limit of such cycles in a row is LOST. R537, R538: the request of the
granted node in the acyclic window is carried out once; a repeated one gets the response that is kept, and one from another node, or
outside the window, is counted as bad. The response leaves at the start of the first acyclic window after its request.
The model's choices in it: log entry 125. -/
def Obligations.Gwepo : Prop :=
  ((∀ (s : State) (n sfd t : Nat), s.chip.awake = true → n < 2 → s.chip.fld.cycle = some t → s.chip.portOn n = true →
    s.chip.nodesOf n ≠ [] → n ∉ s.chip.fld.synced → n ∉ s.chip.fld.unsynced →
    (sfd ≤ 1200 → s.chip.portBit R.FLD_STATUS_LINK_UP n = true →
      Answers s (.gwepoSyncTx n sfd) (fun d => s.chip.within d [.regs, .tku, .fld, .sent] ∧
        d.now = max s.chip.now (t + sfd) ∧ d.fld = { s.chip.fld with synced := n :: s.chip.fld.synced } ∧
        d.sent = ⟨.field, n, 0, s.chip.gwepoBytes n (s.chip.portCfg n 6) 1 0xFF (beBytes 8 t ++ beBytes 4 s.chip.controlPeriod ++
          leBytes 8 (s.chip.entry 0x7C00 1) ++ [BitVec.ofNat 8 s.chip.fld.granted] ++ List.replicate 11 0)⟩ :: s.chip.sent ∧
        s.chip.regsKept d [(R.FLD_PORT_CNT_TX_FRAMES, n)])) ∧
    ((1200 < sfd ∨ s.chip.portBit R.FLD_STATUS_LINK_UP n = false) →
      Answers s (.gwepoSyncTx n sfd) (fun d => s.chip.within d [.regs, .tku, .fld] ∧ d.now = max s.chip.now (t + 1200) ∧
        d.fld = { s.chip.fld with unsynced := n :: s.chip.fld.unsynced } ∧
        d.rd R.FLD_PORT_CNT_NO_SYNC n = (s.chip.rd R.FLD_PORT_CNT_NO_SYNC n + 1) % 2 ^ 16 ∧
        s.chip.regsKept d [(R.FLD_PORT_CNT_NO_SYNC, n)]))) ∧
  (∀ (s : State) (k sfd turn t : Nat) (header : List Byte) (e : Nat → Nat) (h : Nat × Nat × Nat × Nat × Nat), s.chip.awake = true →
    k < 64 → s.chip.fld.cycle = some t → e = s.chip.nodeCfg k → s.chip.portOn (e 2) = true → e 1 ≠ 0 →
    h = gwepoHeader (frameParts header).body →
    ((e 4 ≤ sfd ∧ sfd < e 4 + e 5 ∧ (frameParts header).src = e 3 ∧ (frameParts header).etherType = 0x88B5 ∧ h.1 = 0x12 ∧
        h.2.2.1 = k + 1 ∧ h.2.2.2.1 = s.chip.rd R.FLD_CYCLE_CYCLE ∧ h.2.2.2.2 = e 7 ∧ (s.chip.node k).sfd = none) →
      (turn ≤ 1200 → e 8 + e 9 ≤ 1024 → Answers s (.gwepoInHeader k sfd turn header) (fun d => s.chip.within d [.regs, .dict, .tku, .fld, .sent] ∧
        d.now = max s.chip.now (t + sfd) ∧
        d.node k = { s.chip.node k with sfd := some (t + sfd), out := true, pend := h.2.1.testBit 0 } ∧
        (∀ m, m ≠ k → d.node m = s.chip.node m) ∧ d.entry (0x7420 + k) 6 = t + sfd ∧
        d.entry (0x7420 + k) 5 = max (s.chip.entry (0x7420 + k) 5) turn ∧
        s.chip.entriesKept d [entryKey (0x7420 + k) 5, entryKey (0x7420 + k) 6] ∧
        d.sent = ⟨.field, e 2, 0,
          s.chip.gwepoBytes (e 2) (e 3) 3 (k + 1) (s.chip.imageBytes 0x7400 (e 8) (e 9))⟩ :: s.chip.sent)) ∧
      (1200 < turn → Answers s (.gwepoInHeader k sfd turn header) (fun d => s.chip.within d [.regs, .dict, .tku, .fld] ∧
        d.node k = { s.chip.node k with sfd := some (t + sfd), out := false, pend := h.2.1.testBit 0 } ∧
        (∀ m, m ≠ k → d.node m = s.chip.node m) ∧ d.entry (0x7420 + k) 6 = t + sfd ∧
        d.rd R.FLD_PORT_CNT_OUT_LATE (e 2) = (s.chip.rd R.FLD_PORT_CNT_OUT_LATE (e 2) + 1) % 2 ^ 16 ∧
        s.chip.entriesKept d [entryKey (0x7420 + k) 6]))) ∧
    ((sfd < e 4 ∨ e 4 + e 5 ≤ sfd ∨ h.2.2.1 ≠ k + 1 ∨ h.2.2.2.1 ≠ s.chip.rd R.FLD_CYCLE_CYCLE ∨ (s.chip.node k).sfd ≠ none) →
      Answers s (.gwepoInHeader k sfd turn header) (fun d => s.chip.within d [.regs, .tku] ∧
        d.now = max s.chip.now (t + sfd) ∧
        d.rd R.FLD_PORT_CNT_IN_BAD (e 2) = (s.chip.rd R.FLD_PORT_CNT_IN_BAD (e 2) + 1) % 2 ^ 16 ∧
        s.chip.regsKept d [(R.FLD_PORT_CNT_IN_BAD, e 2)]))) ∧
  (∀ (s : State) (k t : Nat) (payload : List Byte), s.chip.awake = true → k < 64 → (s.chip.node k).sfd = some t →
    (s.chip.node k).fcs = none → s.chip.nodeCfg k 6 + s.chip.nodeCfg k 7 ≤ 1024 → payload.length = s.chip.nodeCfg k 7 →
    Answers s (.gwepoInFrameEnd k true payload) (fun d => s.chip.within d [.dict, .fld] ∧
      d.imageBytes 0x7410 (s.chip.nodeCfg k 6) payload.length = payload ∧ d.node k = { s.chip.node k with fcs := some true } ∧
      (∀ i x, i ≠ 0x7410 → x < 256 → d.entry i x = s.chip.entry i x) ∧
      (∀ o, o < 1024 → (o < s.chip.nodeCfg k 6 ∨ s.chip.nodeCfg k 6 + payload.length ≤ o) →
        d.imageBytes 0x7410 o 1 = s.chip.imageBytes 0x7410 o 1)) ∧
    (s.chip.nodeCfg k 2 < 2 → Answers s (.gwepoInFrameEnd k false payload) (fun d => s.chip.within d [.regs, .fld] ∧
      d.node k = { s.chip.node k with fcs := some false, pend := false } ∧
      d.rd R.FLD_PORT_CNT_IN_BAD (s.chip.nodeCfg k 2) = (s.chip.rd R.FLD_PORT_CNT_IN_BAD (s.chip.nodeCfg k 2) + 1) % 2 ^ 16))) ∧
  (∀ (s : State) (k t : Nat) (e : Nat → Nat) (q : GwepoNode) (good : Prop), s.chip.awake = true → k < 64 →
    s.chip.fld.cycle = some t → e = s.chip.nodeCfg k → q = s.chip.node k → s.chip.portOn (e 2) = true → e 1 ≠ 0 →
    q.decided = false → (q.sfd = none ∨ q.fcs ≠ none) →
    good = (e 2 ∈ s.chip.fld.synced ∧ q.sfd ≠ none ∧ q.fcs = some true ∧ q.out = true) →
    (good → Answers s (.gwepoInWindowClose k) (fun d => s.chip.within d [.regs, .dict, .tku, .fld] ∧
      d.now = max s.chip.now (t + e 4 + e 5) ∧ d.node k = { q with decided := true, fails := 0 } ∧
      d.entry (0x7420 + k) 1 = 1 ∧ d.entry (0x7420 + k) 2 = (s.chip.entry (0x7420 + k) 2 + 1) % 2 ^ 32 ∧
      (d.rd R.FLD_NODE_LOST_LOST (k / 32)).testBit (k % 32) = false ∧
      s.chip.entriesKept d [entryKey (0x7420 + k) 1, entryKey (0x7420 + k) 2])) ∧
    (¬ good → Answers s (.gwepoInWindowClose k) (fun d => s.chip.within d [.regs, .dict, .tku, .fld, .sent] ∧
      d.node k = { q with decided := true, fails := q.fails + 1 } ∧ d.on R.FLD_STATUS_CYCLE_FAIL = true ∧
      d.entry (0x7420 + k) 3 = (s.chip.entry (0x7420 + k) 3 + 1) % 2 ^ 32 ∧
      d.entry (0x7420 + k) 4 = (if e 2 ∉ s.chip.fld.synced then 1 else if q.sfd = none then 2 else if q.fcs ≠ some true then 3 else 4) ∧
      d.entry (0x7420 + k) 1 = (if s.chip.entry 0x5410 2 ≤ q.fails + 1 then 2 else s.chip.entry (0x7420 + k) 1) ∧
      (s.chip.entry 0x5410 2 ≤ q.fails + 1 → s.chip.entry (0x7420 + k) 1 ≠ 2 → d.on R.FLD_STATUS_NODE_LOST = true ∧
        (d.rd R.HIF_EVT_PEND_PEND).testBit 16 = true ∧ (d.rd R.FLD_NODE_LOST_LOST (k / 32)).testBit (k % 32) = true) ∧
      s.chip.entriesKept d [entryKey (0x7420 + k) 1, entryKey (0x7420 + k) 3, entryKey (0x7420 + k) 4])))) ∧
  ((∀ (s : State) (k sfd t op sub index token : Nat) (frame b : List Byte) (ok : Bool), s.chip.awake = true → k < 64 →
    s.chip.fld.cycle = some t → s.chip.portOn (s.chip.nodeCfg k 2) = true → s.chip.nodeCfg k 1 ≠ 0 → b = frame.drop 12 →
    op = beNat (b.take 1) → sub = beNat ((b.drop 1).take 1) → index = beNat ((b.drop 2).take 2) → token = beNat ((b.drop 4).take 4) →
    ok = (s.chip.fld.granted == k + 1 && decide (s.chip.entry 0x5410 3 ≤ sfd) &&
      decide (sfd < s.chip.entry 0x5410 3 + s.chip.entry 0x5410 4) && (gwepoHeader frame).1 == 0x14 &&
      (gwepoHeader frame).2.2.1 == k + 1 && (gwepoHeader frame).2.2.2.2 == 12 + beNat ((b.drop 8).take 2) &&
      decide (12 + beNat ((b.drop 8).take 2) ≤ b.length)) →
    (ok = false → Answers s (.gwepoAcycReq k sfd frame) (fun d => s.chip.within d [.regs, .tku] ∧
      d.rd R.FLD_PORT_CNT_IN_BAD (s.chip.nodeCfg k 2) = (s.chip.rd R.FLD_PORT_CNT_IN_BAD (s.chip.nodeCfg k 2) + 1) % 2 ^ 16)) ∧
    (ok = true → ∀ old, (s.chip.node k).kept = some ((token, op, index, sub), old) →
      Answers s (.gwepoAcycReq k sfd frame) (fun d => s.chip.within d [.dict, .tku, .fld] ∧
        d.now = max s.chip.now (t + sfd) ∧ d.fld = { s.chip.fld with granted := 0, response := some (k, old, d.now) } ∧
        d.entry (0x7420 + k) 7 = (s.chip.entry (0x7420 + k) 7 + 1) % 2 ^ 32 ∧
        s.chip.entriesKept d [entryKey (0x7420 + k) 7])) ∧
    (ok = true → (s.chip.node k).kept = none → op = 1 → ∀ e, findEntry index sub = some e → e.mayRead 1 = true →
      entryKey index sub ∉ s.chip.odx.badStore → ∀ r : List Byte,
      r = [1, BitVec.ofNat 8 sub] ++ beBytes 2 index ++ beBytes 4 token ++ beBytes 2 e.size ++ beBytes 2 0 ++ beBytes 4 0 ++
        beBytes 8 0 ++ leBytes e.size (s.chip.entry index sub) →
      Answers s (.gwepoAcycReq k sfd frame) (fun d => s.chip.within d [.tku, .fld] ∧ d.fld.granted = 0 ∧
        d.fld.response = some (k, r, d.now) ∧ (d.node k).kept = some ((token, op, index, sub), r) ∧
        ∀ m, m ≠ k → d.node m = s.chip.node m))) ∧
  (∀ (s : State) (t k at_ : Nat) (bytes : List Byte), s.chip.awake = true → s.chip.fld.cycle = some t →
    s.chip.fld.response = some (k, bytes, at_) → at_ ≤ t + s.chip.entry 0x5410 3 → s.chip.portOn (s.chip.nodeCfg k 2) = true →
    Answers s .gwepoAcycRspTx (fun d => s.chip.within d [.regs, .tku, .fld, .sent] ∧
      d.now = max s.chip.now (t + s.chip.entry 0x5410 3) ∧ d.fld = { s.chip.fld with response := none } ∧
      d.sent = ⟨.field, s.chip.nodeCfg k 2, 0,
        s.chip.gwepoBytes (s.chip.nodeCfg k 2) (s.chip.nodeCfg k 3) 5 (k + 1) bytes⟩ :: s.chip.sent ∧
      s.chip.regsKept d [(R.FLD_PORT_CNT_TX_FRAMES, s.chip.nodeCfg k 2)])))

/-- R541, R542: an SDO upload of a readable entry of at most four bytes is answered at once, of a longer one in segments of seven
bytes with an alternating toggle; a wrong toggle, a segment without a transfer, an unknown command and a second without a segment
abort with the codes of R542. R539, R540: the heartbeat, the error counters and states of a controller, and its recovery.
The model's choices in it: log entries 123, 124. -/
def Obligations.CanControllers : Prop :=
  (∀ (s : State) (k index sub : Nat) (e : EntryDef) (v data : List Byte), s.chip.awake = true → s.chip.canOn k = true →
    s.chip.rd R.FLD_CAN_STATE k ≠ 2 → data.length = 8 → findEntry index sub = some e → e.mayRead 1 = true →
    entryKey index sub ∉ s.chip.odx.badStore → leNat ((data.drop 1).take 2) = index →
    leNat ((data.drop 3).take 1) = sub → bits (leNat (data.take 1)) 5 3 = 2 → v = leBytes e.size (s.chip.entry index sub) →
    (e.size ≤ 4 → Answers s (.sdoRequest k false data) (fun d => s.chip.within d [.regs, .fld, .sent] ∧
      Table.get? d.fld.sdo k = none ∧ d.rd R.FLD_CAN_LAST_STATUS k = 0 ∧
      d.rd R.FLD_CAN_SDO_REQS k = (s.chip.rd R.FLD_CAN_SDO_REQS k + 1) % 2 ^ 32 ∧
      d.sent = ⟨.canBus, k, 0x580 + s.chip.canCfg k 2, [BitVec.ofNat 8 (0x53 - 4 * e.size)] ++ leBytes 2 index ++
        [BitVec.ofNat 8 sub] ++ v ++ List.replicate (4 - e.size) 0⟩ :: s.chip.sent)) ∧
    (4 < e.size → Answers s (.sdoRequest k false data) (fun d => s.chip.within d [.regs, .fld, .sent] ∧
      Table.get? d.fld.sdo k = some ⟨true, index, sub, v, none, false, false, s.chip.steady⟩ ∧
      d.sent = ⟨.canBus, k, 0x580 + s.chip.canCfg k 2, [0x41] ++ leBytes 2 index ++ [BitVec.ofNat 8 sub] ++
        leBytes 4 e.size⟩ :: s.chip.sent))) ∧
  (∀ (s : State) (k : Nat) (t : SdoTransfer) (data : List Byte) (cmd : Byte) (rest : List Byte), s.chip.awake = true →
    s.chip.canOn k = true → s.chip.rd R.FLD_CAN_STATE k ≠ 2 → data = cmd :: rest → rest.length = 7 → bits cmd.toNat 5 3 = 3 →
    (Table.get? s.chip.fld.sdo k = some t → t.upload = true → cmd.toNat.testBit 4 = t.toggle → 7 < t.data.length →
      Answers s (.sdoRequest k false data) (fun d => s.chip.within d [.regs, .fld, .sent] ∧
        Table.get? d.fld.sdo k = some { t with data := t.data.drop 7, toggle := !t.toggle, lastAt := s.chip.steady } ∧
        d.sent = ⟨.canBus, k, 0x580 + s.chip.canCfg k 2, BitVec.ofNat 8 (16 * b2n t.toggle) :: t.data.take 7⟩ :: s.chip.sent)) ∧
    (Table.get? s.chip.fld.sdo k = some t → t.upload = true → cmd.toNat.testBit 4 ≠ t.toggle →
      Answers s (.sdoRequest k false data) (fun d => s.chip.within d [.regs, .fld, .sent] ∧ Table.get? d.fld.sdo k = none ∧
        d.rd R.FLD_CAN_ABORTS k = (s.chip.rd R.FLD_CAN_ABORTS k + 1) % 2 ^ 16 ∧
        d.sent = ⟨.canBus, k, 0x580 + s.chip.canCfg k 2, [0x80] ++ leBytes 2 t.index ++ [BitVec.ofNat 8 t.sub] ++
          leBytes 4 0x05030000⟩ :: s.chip.sent)) ∧
    (Table.get? s.chip.fld.sdo k = none →
      Answers s (.sdoRequest k false data) (fun d => s.chip.within d [.regs, .fld, .sent] ∧ Table.get? d.fld.sdo k = none ∧
        d.sent = ⟨.canBus, k, 0x580 + s.chip.canCfg k 2, [0x80, 0, 0, 0] ++ leBytes 4 0x05040001⟩ :: s.chip.sent))) ∧
  (∀ (s : State) (k : Nat) (t : SdoTransfer), s.chip.awake = true → k < 4 → Table.get? s.chip.fld.sdo k = some t →
    Answers s (.sdoSegmentTimeout k) (fun d => s.chip.within d [.regs, .tku, .fld, .sent] ∧ Table.get? d.fld.sdo k = none ∧
      d.rd R.FLD_CAN_ABORTS k = (s.chip.rd R.FLD_CAN_ABORTS k + 1) % 2 ^ 16 ∧
      s.chip.regsKept d [(R.FLD_CAN_ABORTS, k)] ∧
      d.sent = ⟨.canBus, k, 0x580 + s.chip.canCfg k 2, [0x80] ++ leBytes 2 t.index ++ [BitVec.ofNat 8 t.sub] ++
        leBytes 4 0x05040000⟩ :: s.chip.sent)) ∧
  (∀ (s : State) (k p due : Nat), s.chip.awake = true → s.chip.canOn k = true → s.chip.rd R.FLD_CAN_STATE k ≠ 2 →
    p = s.chip.entry 0x1017 0 → 1 ≤ p → due = Table.getD s.chip.fld.beats k s.chip.steady + 1000000 * p →
    Answers s (.canHeartbeat k) (fun d => s.chip.within d [.tku, .fld, .sent] ∧
      d.fld = { s.chip.fld with beats := Table.put s.chip.fld.beats k due } ∧
      d.sent = ⟨.canBus, k, 0x700 + s.chip.canCfg k 2, [5]⟩ :: s.chip.sent ∧ s.chip.now ≤ d.now)) ∧
  (∀ (s : State) (k tec rec : Nat), s.chip.awake = true → s.chip.canOn k = true →
    Answers s (.canBusError k tec rec) (fun d => s.chip.within d [.regs] ∧ d.rd R.FLD_CAN_TEC k = min tec 255 ∧
      d.rd R.FLD_CAN_REC k = min rec 255 ∧
      d.rd R.FLD_CAN_STATE k = (if 256 ≤ tec then 2 else if 128 ≤ tec ∨ 128 ≤ rec then 1 else 0) ∧
      (256 ≤ tec → d.on R.FLD_STATUS_CAN_BUS_OFF = true) ∧
      s.chip.regsKept d [(R.FLD_CAN_TEC, k), (R.FLD_CAN_REC, k), (R.FLD_CAN_STATE, k), (R.FLD_STATUS_CAN_BUS_OFF, 0)]) ∧
    (s.chip.rd R.FLD_CAN_STATE k = 2 → Answers s (.canBusOffRecovery k) (fun d => s.chip.within d [.regs] ∧
      d.rd R.FLD_CAN_TEC k = 0 ∧ d.rd R.FLD_CAN_REC k = 0 ∧ d.rd R.FLD_CAN_STATE k = 0 ∧
      s.chip.regsKept d [(R.FLD_CAN_TEC, k), (R.FLD_CAN_REC, k), (R.FLD_CAN_STATE, k)])))

/-! ## Gingham (chapter 20) -/

/-- R581, R584, R585: at its deadline a frame without a verdict is UNSAFE by DEADLINE, the device verdict becomes UNSAFE and the
heartbeat pins go low; a network without a verdict for two periods is stale, and the device UNSAFE; while the device is SAFE the
heartbeat shows the parity of its half periods on opposite pins. The model's choices in it: log entries 134, 162. -/
def Obligations.VerdictsAndHeartbeat : Prop :=
  (∀ (s : State) (n : Nat) (f : GngFrame), s.chip.awake = true → n ∈ s.chip.netsOn → s.chip.gng.frames = [f] → f.net = n →
    f.expired = false → f.verdict = none → s.chip.gng.golden = [] →
    Answers s (.frameDeadline n) (fun d =>
      s.chip.within d [.regs, .dict, .muslin, .tku, .dsp, .qmg, .msl, .drc, .gng, .sent] ∧ d.now = max s.chip.now f.deadline ∧
      bits (d.entry (0x7C10 + n) 1) 0 8 = 0xC3 ∧ (d.entry (0x7C10 + n) 1).testBit 9 = true ∧
      d.entry (0x7C10 + n) 2 = f.k % 2 ^ 32 ∧ bits (d.entry 0x7C00 1) 0 8 = 0xC3 ∧ d.rd R.GNG_STATUS_SAFE = 0 ∧
      d.rd R.GNG_STATUS_HB_RUNNING = 0 ∧ d.gng.hba = false ∧ d.gng.hbb = false ∧
      d.rd R.GNG_DEADLINE_CNT_COUNT = (s.chip.rd R.GNG_DEADLINE_CNT_COUNT + 1) % 2 ^ 32 ∧
      d.rd R.GNG_FRAME_CNT_COUNT = (s.chip.rd R.GNG_FRAME_CNT_COUNT + 1) % 2 ^ 32 ∧
      (∀ g ∈ d.gng.frames, g.expired = true) ∧
      s.chip.entriesKept d [entryKey 0x7C00 1, entryKey (0x7C10 + n) 1, entryKey (0x7C10 + n) 2])) ∧
  (∀ (s : State) (n : Nat), s.chip.awake = true → s.chip.gngOn = true → n ∈ s.chip.netsOn → s.chip.on R.GNG_NET_STALE n = false →
    Answers s (.networkStale n) (fun d => s.chip.within d [.regs, .dict, .muslin, .tku, .qmg, .msl, .gng, .sent] ∧
      d.now = max s.chip.now ((s.chip.net n).lastVerdict.getD (s.chip.net n).since +
        2 * s.chip.rd R.DSP_LAUNCH_PERIOD_NS (s.chip.netCfg n 2)) ∧
      d.on R.GNG_NET_STALE n = true ∧ d.rd R.GNG_STATUS_SAFE = 0 ∧ bits (d.entry 0x7C00 1) 0 8 = 0xC3 ∧ d.gng.hba = false ∧
      d.gng.hbb = false ∧ s.chip.entriesKept d [entryKey 0x7C00 1])) ∧
  (∀ (s : State) (half t : Nat), s.chip.awake = true → s.chip.gngOn = true → half = max 1 (s.chip.entry 0x5C00 2) →
    t = s.chip.gridNext gridHeartbeat ⟨0, half, 1⟩ →
    (s.chip.on R.GNG_STATUS_SAFE = true → Answers s .heartbeatToggle (fun d => s.chip.within d [.regs, .tku, .gng] ∧
      d.now = max s.chip.now t ∧ d.rd R.GNG_STATUS_HB_RUNNING = 1 ∧ d.gng.hba = (t / half % 2 == 1) ∧ d.gng.hbb = !d.gng.hba ∧
      s.chip.regsKept d [(R.GNG_STATUS_HB_RUNNING, 0)])) ∧
    (s.chip.on R.GNG_STATUS_SAFE = false → Answers s .heartbeatToggle (fun d => s.chip.within d [.tku] ∧
      d.now = max s.chip.now t)))

/-- R586, R587: at its slot a golden test whose network has none running is granted at once when no BATCH runs, and otherwise waits
for a grant; granted, it runs the network's weave once more, without a completion queue of its own; with 1,024 weaves in flight it waits (log
entry 31). A slot while one runs, and a
wait past LATEST_NS, count as a missed test. R588, R589: a write of 1 to GNG_FAULT clears a fault, but MIRROR_LOST only when the
pair is ACTIVE. The model's choices in it: log entries 31, 139. -/
def Obligations.GoldenTestsAndFaults : Prop :=
  (∀ (s : State) (n h a : Nat) (g : GngGolden) (i : Instr) (t : Nat), s.chip.awake = true →
    (i = .goldenSlot n ∧ (∃ f, s.chip.slotFrame n = some f ∧ g = ⟨f.k, f.time, f.cfg, f.bands, none⟩ ∧
        t = f.time + f.e 0x0F) ∧ Table.get? s.chip.gng.golden n = none ∧ s.chip.op? 20 = none ∨
      i = .goldenGrant n ∧ Table.get? s.chip.gng.golden n = some g ∧ g.weave = none ∧ t = 0 ∧
        (∀ o, s.chip.op? 20 = some o → o.tileReady = false)) →
    (1024 ≤ s.chip.dsp.weaves.length → Answers s i (fun d => s.chip.within d [.tku, .gng] ∧ d.now = max s.chip.now t ∧
      Table.get? d.gng.golden n = some g)) ∧
    (s.chip.dsp.weaves.length < 1024 → g.cfg.getD 2 0 = 0xFF → devRegion (g.cfg.getD 12 0) = 0 → s.chip.readable (devOffset (g.cfg.getD 12 0)) 32 →
    a = s.chip.rd R.DSP_LAUNCH_WEAVE_ADDR (g.cfg.getD 1 0) → a % 64 = 0 → devRegion a = 0 → s.chip.readable (devOffset a) 64 →
    h = leNat (s.chip.muslin.read (devOffset a) 64) → Hdr.version h = 1 → 1 ≤ Hdr.count h → Hdr.count h ≤ 65536 →
    s.chip.validRange [0, 8] a (64 * (Hdr.count h + 1)) = true →
    Answers s i (fun d => s.chip.within d [.regs, .tku, .dsp, .msl, .gng] ∧ d.now = max s.chip.now t ∧
      d.dsp.weaves = s.chip.dsp.weaves ++ [{
        id := s.chip.dsp.nextId, addr := a, weaveId := Hdr.weaveId h, count := Hdr.count h,
        cls := s.chip.rd R.DSP_LAUNCH_CLASS (g.cfg.getD 1 0), source := .golden n, pair := 0x7FFF, qfence := false,
        cancelled := false, descs := [] }] ∧
      Table.get? d.gng.golden n = some { g with weave := some s.chip.dsp.nextId } ∧
      d.dsp.running = s.chip.dsp.running))) ∧
  (∀ (s : State) (n : Nat) (f : GngFrame) (o : OpRun), s.chip.awake = true → s.chip.slotFrame n = some f →
    Table.get? s.chip.gng.golden n = none → s.chip.op? 20 = some o →
    Answers s (.goldenSlot n) (fun d => s.chip.within d [.tku, .gng] ∧ d.now = max s.chip.now (f.time + f.e 0x0F) ∧
      Table.get? d.gng.golden n = some ⟨f.k, f.time, f.cfg, f.bands, none⟩)) ∧
  (∀ (s : State) (n : Nat) (f : GngFrame), s.chip.awake = true → s.chip.slotFrame n = some f →
    Table.get? s.chip.gng.golden n ≠ none →
    Answers s (.goldenSlot n) (fun d =>
      s.chip.within d [.regs, .dict, .muslin, .tku, .qmg, .msl, .drc, .gng, .sent] ∧ d.gng.golden = s.chip.gng.golden ∧
      d.rd R.GNG_TEST_MISSED_CNT_COUNT = (s.chip.rd R.GNG_TEST_MISSED_CNT_COUNT + 1) % 2 ^ 32)) ∧
  (∀ (s : State) (n : Nat) (g : GngGolden), s.chip.awake = true → n < s.chip.gng.nets.length →
    Table.get? s.chip.gng.golden n = some g → g.weave = none →
    Answers s (.goldenLatestExpire n) (fun d =>
      s.chip.within d [.regs, .dict, .muslin, .tku, .dsp, .qmg, .msl, .drc, .gng, .sent] ∧
      d.now = max s.chip.now (g.time + g.cfg.getD 0x0F 0) ∧ Table.get? d.gng.golden n = none ∧ g.k ∈ (d.net n).missed ∧
      d.rd R.GNG_TEST_MISSED_CNT_COUNT = (s.chip.rd R.GNG_TEST_MISSED_CNT_COUNT + 1) % 2 ^ 32)) ∧
  (∀ (s : State) (b : BitVec 5), s.chip.heard = true →
    Answers s (.gngFaultClear b) (fun d => s.chip.within d [.regs, .dict, .muslin, .qmg, .msl, .gng, .sent] ∧
      (∀ p ∈ [(0, R.GNG_FAULT_DISAGREE), (1, R.GNG_FAULT_TEST_FAIL), (2, R.GNG_FAULT_TEST_MISSED), (4, R.GNG_FAULT_SELF_TEST)],
        d.rd p.2 = if b.getLsbD p.1 = true then 0 else s.chip.rd p.2) ∧
      d.rd R.GNG_FAULT_MIRROR_LOST =
        (if b.getLsbD 3 = true ∧ s.chip.pairLost = false then 0 else s.chip.rd R.GNG_FAULT_MIRROR_LOST) ∧
      d.rd R.GNG_FAULT_FIRST_NET = s.chip.rd R.GNG_FAULT_FIRST_NET ∧
      (b.getLsbD 0 = true → ∀ q ∈ d.gng.nets, q.disagreed = []) ∧ (b.getLsbD 2 = true → ∀ q ∈ d.gng.nets, q.missed = []) ∧
      d.gng.frames = s.chip.gng.frames ∧ d.gng.golden = s.chip.gng.golden ∧ s.chip.entriesKept d [entryKey 0x7C00 1]))
end

