-- ==== Sys2Proof/Decode.lean ====
section
/-!
DEFINITION. The command a table word spells. No row of the opcode table gives bits: commands are register accesses, protocol
operations and events, not words. So no word spells one.
-/
namespace Sys2Proof

/-- The command that an `nbits`-bit table word spells: none, since no row of the table gives bits. [DESIGN CHOICE: log 164] -/
def decodeTableWord (_nbits _w : Nat) : Option Instr := none

end Sys2Proof
end

