-- ==== Sys2Proof/Laws/Memory.lean ====
section
/-!
SUPPORT. Byte memories: reading after writing, and the canonical form, which every operation keeps.
-/
namespace Sys2Proof.Machine

/-! ## Reading after writing -/

theorem Memory.get_nil (a : Nat) : Memory.get [] a = Memory.blank := rfl

theorem Memory.get_cons (p : Host.Cell) (m : Memory) (x : Nat) :
    Memory.get (p :: m) x = if x = p.1 then p.2 else Memory.get m x := rfl

theorem Memory.get_append (m n : Memory) (x : Nat) (h : ∀ p ∈ m, p.1 ≠ x) : Memory.get (m ++ n) x = Memory.get n x := by
  induction m with
  | nil => rfl
  | cons p m ih =>
    have hp : x ≠ p.1 := fun e => h p (by simp) e.symm
    rw [List.cons_append, Memory.get_cons, if_neg hp, ih (fun q hq => h q (by simp [hq]))]

theorem Memory.get_of_absent (m : Memory) (x : Nat) (h : ∀ p ∈ m, p.1 ≠ x) : Memory.get m x = Memory.blank := by
  have := Memory.get_append m [] x h
  simpa [Memory.get_nil] using this

theorem Memory.get_append_left (m n : Memory) (x : Nat) (h : ∀ p ∈ n, p.1 ≠ x) : Memory.get (m ++ n) x = Memory.get m x := by
  induction m with
  | nil => rw [List.nil_append, Memory.get_of_absent n x h, Memory.get_nil]
  | cons p m ih => rw [List.cons_append, Memory.get_cons, Memory.get_cons, ih]

/-- Keeping the entries of a set of addresses changes no byte of the set. -/
theorem Memory.get_filter (m : Memory) (keep : Nat → Bool) (x : Nat) (h : keep x = true) :
    Memory.get (m.filter (fun p => keep p.1)) x = Memory.get m x := by
  induction m with
  | nil => rfl
  | cons p m ih =>
    rw [List.filter_cons]
    split
    · rw [Memory.get_cons, Memory.get_cons, ih]
    · next hp =>
      have hx : x ≠ p.1 := fun e => hp (by rw [← e, h])
      rw [Memory.get_cons, if_neg hx, ih]

theorem Memory.mem_cellsOf (bs : List Byte) : ∀ (a : Nat) (p : Host.Cell), p ∈ Memory.cellsOf a bs →
    a ≤ p.1 ∧ p.1 < a + bs.length ∧ p.2 ≠ Memory.blank := by
  induction bs with
  | nil => intro a p h; simp [Memory.cellsOf] at h
  | cons b bs ih =>
    intro a p h
    rw [Memory.cellsOf] at h
    have rest : p ∈ Memory.cellsOf (a + 1) bs → a ≤ p.1 ∧ p.1 < a + (b :: bs).length ∧ p.2 ≠ Memory.blank := by
      intro hp
      have := ih (a + 1) p hp
      simp only [List.length_cons]
      exact ⟨by omega, by omega, this.2.2⟩
    split at h
    · exact rest h
    · next hb =>
      rcases List.mem_cons.mp h with rfl | hp
      · exact ⟨le_refl _, by simp only [List.length_cons]; omega, hb⟩
      · exact rest hp

theorem Memory.get_cellsOf (bs : List Byte) : ∀ (a k : Nat), k < bs.length →
    Memory.get (Memory.cellsOf a bs) (a + k) = bs.getD k Memory.blank := by
  induction bs with
  | nil => intro a k h; simp at h
  | cons b bs ih =>
    intro a k h
    have absent : Memory.get (Memory.cellsOf (a + 1) bs) a = Memory.blank :=
      Memory.get_of_absent _ _ (fun p hp => by have := Memory.mem_cellsOf bs (a + 1) p hp; omega)
    have step : ∀ j, k = j + 1 → Memory.get (Memory.cellsOf (a + 1) bs) (a + k) = (b :: bs).getD k Memory.blank := by
      rintro j rfl
      have hj : j < bs.length := by simpa using h
      have e : a + (j + 1) = a + 1 + j := by omega
      rw [e, ih (a + 1) j hj]
      simp
    rw [Memory.cellsOf]
    cases k with
    | zero =>
      split
      · next hb => simp [absent, hb]
      · simp [Memory.get_cons]
    | succ j =>
      split
      · exact step j rfl
      · rw [Memory.get_cons, if_neg (by simp), step j rfl]

/-- A byte written is read. -/
theorem Memory.get_write_self (m : Memory) (a k : Nat) (bs : List Byte) (h : k < bs.length) :
    (m.write a bs).get (a + k) = bs.getD k Memory.blank := by
  unfold Memory.write
  rw [Memory.get_append_left, Memory.get_append, Memory.get_cellsOf bs a k h]
  · intro p hp
    have := (List.mem_filter.mp hp).2
    simp at this
    omega
  · intro p hp
    have := (List.mem_filter.mp hp).2
    simp at this
    omega

/-- Writing leaves every other byte alone. -/
theorem Memory.get_write_other (m : Memory) (a x : Nat) (bs : List Byte) (h : x < a ∨ a + bs.length ≤ x) :
    (m.write a bs).get x = m.get x := by
  unfold Memory.write
  have mid : ∀ p ∈ Memory.cellsOf a bs, p.1 ≠ x := fun p hp => by
    have := Memory.mem_cellsOf bs a p hp
    omega
  rcases h with h | h
  · rw [List.append_assoc, Memory.get_append_left]
    · exact Memory.get_filter m (fun y => decide (y < a)) x (by simpa using h)
    · intro p hp
      rcases List.mem_append.mp hp with hp | hp
      · exact mid p hp
      · have := (List.mem_filter.mp hp).2
        simp at this
        omega
  · rw [Memory.get_append]
    · exact Memory.get_filter m (fun y => decide (a + bs.length ≤ y)) x (by simpa using h)
    · intro p hp
      rcases List.mem_append.mp hp with hp | hp
      · have := (List.mem_filter.mp hp).2
        simp at this
        omega
      · exact mid p hp

/-- The byte at any address after a write. -/
theorem Memory.get_write (m : Memory) (a x : Nat) (bs : List Byte) :
    (m.write a bs).get x = if a ≤ x ∧ x < a + bs.length then bs.getD (x - a) Memory.blank else m.get x := by
  split
  · next h =>
    have e : x = a + (x - a) := by omega
    rw [e, Memory.get_write_self m a (x - a) bs (by omega)]
    simp
  · next h => exact Memory.get_write_other m a x bs (by omega)

/-- The bytes read from an address. -/
theorem Memory.read_length (m : Memory) (n : Nat) : ∀ a, (m.read a n).length = n := by
  induction n with
  | zero => intro a; rfl
  | succ n ih => intro a; simp [Memory.read, ih]

theorem Memory.getD_read (m : Memory) (n : Nat) : ∀ a k, k < n → (m.read a n).getD k Memory.blank = m.get (a + k) := by
  induction n with
  | zero => intro a k h; omega
  | succ n ih =>
    intro a k h
    cases k with
    | zero => simp [Memory.read]
    | succ k =>
      have := ih (a + 1) k (by omega)
      simp only [Memory.read, List.getD_cons_succ, this]
      congr 1
      omega

/-- What was written is read back. -/
theorem Memory.read_write_self (m : Memory) (a : Nat) (bs : List Byte) : (m.write a bs).read a bs.length = bs := by
  apply List.ext_getElem
  · rw [Memory.read_length]
  · intro k h1 h2
    have := Memory.getD_read (m.write a bs) bs.length a k h2
    rw [Memory.get_write_self m a k bs h2] at this
    simpa [List.getD_eq_getElem?_getD, h2, Memory.read_length] using this

/-- A range apart from a write reads as before. -/
theorem Memory.read_write_other (m : Memory) (a : Nat) (bs : List Byte) (n : Nat) : ∀ x,
    (x + n ≤ a ∨ a + bs.length ≤ x) → (m.write a bs).read x n = m.read x n := by
  induction n with
  | zero => intro x _; rfl
  | succ n ih =>
    intro x h
    rw [Memory.read, Memory.read, ih (x + 1) (by omega), Memory.get_write_other m a x bs (by omega)]

/-- Blanked bytes read blank, and the others as before. -/
theorem Memory.get_clear (m : Memory) (a n x : Nat) :
    (m.clear a n).get x = if a ≤ x ∧ x < a + n then Memory.blank else m.get x := by
  unfold Memory.clear
  split
  · next h =>
    apply Memory.get_of_absent
    intro p hp e
    have := (List.mem_filter.mp hp).2
    simp [e] at this
    omega
  · next h =>
    have hk : (fun y => !(decide (a ≤ y) && decide (y < a + n))) x = true := by
      by_cases h1 : a ≤ x <;> by_cases h2 : x < a + n <;> simp_all
    exact Memory.get_filter m (fun y => !(decide (a ≤ y) && decide (y < a + n))) x hk

/-! ## The canonical form -/

theorem Memory.wf_iff (m : Memory) : m.wf = true ↔
    m.Pairwise (fun p q => p.1 < q.1) ∧ ∀ p ∈ m, p.2 ≠ Memory.blank := by
  induction m with
  | nil => simp [Memory.wf]
  | cons p t ih =>
    obtain ⟨a, w⟩ := p
    cases t with
    | nil => simp [Memory.wf]
    | cons q u =>
      obtain ⟨b, v⟩ := q
      rw [Memory.wf, Bool.and_eq_true, Bool.and_eq_true, ih, decide_eq_true_eq, decide_eq_true_eq]
      simp only [List.pairwise_cons, List.mem_cons, forall_eq_or_imp]
      constructor
      · rintro ⟨⟨h1, h2⟩, ⟨h3, h4⟩, h5, h6⟩
        exact ⟨⟨⟨h2, fun x hx => lt_trans h2 (h3 x hx)⟩, h3, h4⟩, h1, h5, h6⟩
      · rintro ⟨⟨⟨h1, _⟩, h3, h4⟩, h5, h6, h7⟩
        exact ⟨⟨h5, h1⟩, ⟨h3, h4⟩, h6, h7⟩

theorem Memory.pairwise_cellsOf (bs : List Byte) : ∀ a, (Memory.cellsOf a bs).Pairwise (fun p q => p.1 < q.1) := by
  induction bs with
  | nil => intro a; simp [Memory.cellsOf]
  | cons b bs ih =>
    intro a
    rw [Memory.cellsOf]
    split
    · exact ih (a + 1)
    · rw [List.pairwise_cons]
      refine ⟨?_, ih (a + 1)⟩
      intro p hp
      have := Memory.mem_cellsOf bs (a + 1) p hp
      show a < p.1
      omega

/-- A write keeps the canonical form. -/
theorem Memory.wf_write (m : Memory) (a : Nat) (bs : List Byte) (h : m.wf = true) : (m.write a bs).wf = true := by
  rw [Memory.wf_iff] at h ⊢
  unfold Memory.write
  have low : ∀ p ∈ m.filter (fun p => decide (p.1 < a)), p.1 < a ∧ p ∈ m := fun p hp => by
    have := List.mem_filter.mp hp
    exact ⟨by simpa using this.2, this.1⟩
  have high : ∀ p ∈ m.filter (fun p => decide (a + bs.length ≤ p.1)), a + bs.length ≤ p.1 ∧ p ∈ m := fun p hp => by
    have := List.mem_filter.mp hp
    exact ⟨by simpa using this.2, this.1⟩
  refine ⟨?_, ?_⟩
  · rw [List.pairwise_append, List.pairwise_append]
    refine ⟨⟨h.1.filter _, Memory.pairwise_cellsOf bs a, ?_⟩, h.1.filter _, ?_⟩
    · intro p hp q hq
      have := low p hp
      have := Memory.mem_cellsOf bs a q hq
      omega
    · intro p hp q hq
      have hq' := high q hq
      rcases List.mem_append.mp hp with hp | hp
      · have := low p hp
        omega
      · have := Memory.mem_cellsOf bs a p hp
        omega
  · intro p hp
    rcases List.mem_append.mp hp with hp | hp
    · rcases List.mem_append.mp hp with hp | hp
      · exact h.2 p (low p hp).2
      · exact (Memory.mem_cellsOf bs a p hp).2.2
    · exact h.2 p (high p hp).2

/-- Dropping entries keeps the canonical form. -/
theorem Memory.wf_filter (m : Memory) (keep : Host.Cell → Bool) (h : m.wf = true) : Memory.wf (m.filter keep) = true := by
  rw [Memory.wf_iff] at h ⊢
  exact ⟨h.1.filter _, fun p hp => h.2 p (List.mem_filter.mp hp).1⟩

/-- Blanking keeps the canonical form. -/
theorem Memory.wf_clear (m : Memory) (a n : Nat) (h : m.wf = true) : (m.clear a n).wf = true := Memory.wf_filter m _ h

/-- Storing one byte keeps the canonical form. -/
theorem Memory.wf_set (m : Memory) (a : Nat) (v : Byte) (h : m.wf = true) : (m.set a v).wf = true := Memory.wf_write m a [v] h

/-- A merged write keeps the canonical form. -/
theorem Memory.wf_merge (m : Memory) (mode : WriteMode) (a : Nat) (bs : List Byte) (h : m.wf = true) :
    (m.merge mode a bs).wf = true := by
  unfold Memory.merge
  split <;> exact Memory.wf_write _ _ _ h

/-- Two canonical memories that read alike are equal. -/
theorem Memory.ext (m n : Memory) (hm : m.wf = true) (hn : n.wf = true) (h : ∀ x, m.get x = n.get x) : m = n := by
  rw [Memory.wf_iff] at hm hn
  obtain ⟨hm1, hm2⟩ := hm
  obtain ⟨hn1, hn2⟩ := hn
  induction m generalizing n with
  | nil =>
    cases n with
    | nil => rfl
    | cons q n =>
      have := h q.1
      rw [Memory.get_nil, Memory.get_cons, if_pos rfl] at this
      exact absurd this.symm (hn2 q (by simp))
  | cons p m ih =>
    cases n with
    | nil =>
      have := h p.1
      rw [Memory.get_nil, Memory.get_cons, if_pos rfl] at this
      exact absurd this (hm2 p (by simp))
    | cons q n =>
      rw [List.pairwise_cons] at hm1 hn1
      have below : ∀ (l : Memory) (x : Nat), (∀ r ∈ l, x < r.1) → Memory.get l x = Memory.blank := fun l x hl =>
        Memory.get_of_absent l x (fun r hr => by have := hl r hr; omega)
      have ne : ∀ (r : Host.Cell) (k : Memory) (s : Host.Cell) (l : Memory),
          (∀ x, Memory.get (r :: k) x = Memory.get (s :: l) x) → r.2 ≠ Memory.blank →
          (∀ t ∈ l, s.1 < t.1) → ¬ r.1 < s.1 := by
        intro r k s l hh hr hl hlt
        have := hh r.1
        rw [Memory.get_cons, if_pos rfl] at this
        rw [below (s :: l) r.1 (fun t ht => by
          rcases List.mem_cons.mp ht with rfl | ht
          · exact hlt
          · exact lt_trans hlt (hl t ht))] at this
        exact hr this
      have e1 : p.1 = q.1 := by
        have a1 := ne p m q n h (hm2 p (by simp)) hn1.1
        have a2 := ne q n p m (fun x => (h x).symm) (hn2 q (by simp)) hm1.1
        omega
      have e2 : p.2 = q.2 := by
        have := h p.1
        rw [Memory.get_cons, if_pos rfl, Memory.get_cons, if_pos e1] at this
        exact this
      have e : p = q := Prod.ext e1 e2
      subst e
      congr 1
      refine ih n ?_ hm1.2 (fun r hr => hm2 r (by simp [hr])) hn1.2 (fun r hr => hn2 r (by simp [hr]))
      intro x
      have hx := h x
      rw [Memory.get_cons, Memory.get_cons] at hx
      by_cases hxp : x = p.1
      · subst hxp
        rw [below m p.1 hm1.1, below n p.1 hn1.1]
      · simpa [hxp] using hx

/-- The memories of the reset state are in canonical form. -/
theorem Memory.wf_reset : Chip.reset.muslin.wf = true ∧ Chip.reset.host.wf = true ∧ Chip.reset.drc.cells.wf = true := by
  exact ⟨rfl, rfl, rfl⟩

end Sys2Proof.Machine
end

