-- ==== Sys2Proof/Laws/Registers.lean ====
section
/-!
SUPPORT. The register file: reading after writing, of words and of fields, and its canonical form. No law here needs the file
to be in canonical form.
-/
namespace Sys2Proof.Machine

/-! ## Words -/

/-- A word that a file does not list reads as its reset value. -/
theorem RegFile.get_filter_ne (rs : RegFile) (a : Nat) :
    RegFile.get (rs.filter (fun (p : Nat × Word) => p.1 != a)) a = resetWord a := by
  induction rs with
  | nil => rfl
  | cons p t ih =>
    obtain ⟨b, v⟩ := p
    by_cases h : b = a
    · simp [h, ih]
    · have h' : a ≠ b := fun e => h e.symm
      simp [h, RegFile.get, h', ih]

/-- Dropping the entries of another offset changes no word. -/
theorem RegFile.get_filter_other (rs : RegFile) (a b : Nat) (h : b ≠ a) :
    RegFile.get (rs.filter (fun (p : Nat × Word) => p.1 != a)) b = RegFile.get rs b := by
  induction rs with
  | nil => rfl
  | cons p t ih =>
    obtain ⟨x, v⟩ := p
    by_cases hx : x = a
    · have : b ≠ x := fun e => h (e.trans hx)
      simp [hx, RegFile.get, h]
      simpa using ih
    · simp only [List.filter_cons, bne_iff_ne, ne_eq, hx, not_false_eq_true, ↓reduceIte, RegFile.get]
      split
      · rfl
      · exact ih

/-- The inserted word is read. -/
theorem RegFile.get_insert_self (rs : RegFile) (a : Nat) (w : Word) (h : ∀ p ∈ rs, p.1 ≠ a) :
    (RegFile.insert rs a w).get a = w := by
  induction rs with
  | nil => simp [RegFile.insert, RegFile.get]
  | cons p t ih =>
    obtain ⟨b, v⟩ := p
    have hb : a ≠ b := fun e => h (b, v) (by simp) e.symm
    simp only [RegFile.insert]
    split
    · simp [RegFile.get]
    · simp only [RegFile.get, hb, if_false]
      exact ih (fun q hq => h q (by simp [hq]))

/-- Every other word is read as before. -/
theorem RegFile.get_insert_other (rs : RegFile) (a b : Nat) (w : Word) (h : b ≠ a) :
    (RegFile.insert rs a w).get b = rs.get b := by
  induction rs with
  | nil => simp [RegFile.insert, RegFile.get, h]
  | cons p t ih =>
    obtain ⟨x, v⟩ := p
    simp only [RegFile.insert]
    split
    · simp [RegFile.get, h]
    · simp only [RegFile.get, ih]

/-- A word set is read. -/
@[simp] theorem RegFile.get_set_self (rs : RegFile) (a : Nat) (w : Word) : (rs.set a w).get a = w := by
  unfold RegFile.set
  split
  · next h => simp only [RegFile.get_filter_ne, h]
  · exact RegFile.get_insert_self _ a w (fun p hp => by simpa using (List.mem_filter.mp hp).2)

/-- Setting a word leaves every other word alone. -/
theorem RegFile.get_set_other (rs : RegFile) (a b : Nat) (w : Word) (h : b ≠ a) : (rs.set a w).get b = rs.get b := by
  unfold RegFile.set
  split
  · exact RegFile.get_filter_other rs a b h
  · rw [RegFile.get_insert_other _ a b w h, RegFile.get_filter_other rs a b h]

/-! ## Runs of words -/

/-- Setting a run of words sets each to its part of the value. -/
theorem RegFile.get_setWords_self (n : Nat) : ∀ (rs : RegFile) (a v k : Nat), k < n →
    (rs.setWords a n v).get (a + 4 * k) = BitVec.ofNat 32 (v / 2 ^ (32 * k)) := by
  induction n with
  | zero => intro rs a v k h; omega
  | succ n ih =>
    intro rs a v k h
    rw [RegFile.setWords]
    cases k with
    | zero =>
      have other : ∀ (m : Nat) (rs : RegFile) (b v : Nat), a < b → (rs.setWords b m v).get a = rs.get a := by
        intro m
        induction m with
        | zero => intro rs b v _; rfl
        | succ m ihm =>
          intro rs b v hb
          rw [RegFile.setWords, ihm _ _ _ (by omega), RegFile.get_set_other _ _ _ _ (by omega)]
      simp [other n _ (a + 4) _ (by omega)]
    | succ k =>
      have e : a + 4 * (k + 1) = (a + 4) + 4 * k := by ring
      rw [e, ih _ _ _ _ (by omega)]
      congr 1
      rw [Nat.div_div_eq_div_mul, ← Nat.pow_add]
      congr 2
      omega

/-- Setting a run of words leaves every word outside it alone. -/
theorem RegFile.get_setWords_other (n : Nat) : ∀ (rs : RegFile) (a v b : Nat), (∀ k, k < n → b ≠ a + 4 * k) →
    (rs.setWords a n v).get b = rs.get b := by
  induction n with
  | zero => intro rs a v b _; rfl
  | succ n ih =>
    intro rs a v b h
    rw [RegFile.setWords, ih, RegFile.get_set_other]
    · have := h 0 (by omega); simpa using this
    · intro k hk; have := h (k + 1) (by omega); omega

/-- The bits of a run of words. -/
theorem RegFile.testBit_words (rs : RegFile) (n : Nat) : ∀ (a k : Nat),
    (rs.words a n).testBit k = (decide (k < 32 * n) && (rs.get (a + 4 * (k / 32))).toNat.testBit (k % 32)) := by
  induction n with
  | zero => intro a k; simp [RegFile.words]
  | succ n ih =>
    intro a k
    rw [RegFile.words]
    have hw : (rs.get a).toNat < 2 ^ 32 := (rs.get a).isLt
    by_cases hk : k < 32
    · have e1 : k / 32 = 0 := by omega
      have e2 : k % 32 = k := by omega
      rw [Nat.add_comm, Nat.testBit_two_pow_mul_add _ hw, e1, e2]
      simp only [hk, if_true, Nat.mul_zero, Nat.add_zero]
      have : k < 32 * (n + 1) := by omega
      simp [this]
    · rw [Nat.add_comm, Nat.testBit_two_pow_mul_add _ hw, if_neg hk, ih]
      have e1 : k / 32 = (k - 32) / 32 + 1 := by omega
      have e2 : k % 32 = (k - 32) % 32 := by omega
      have e3 : a + 4 + 4 * ((k - 32) / 32) = a + 4 * (k / 32) := by omega
      rw [e3, e2]
      congr 1
      simp only [decide_eq_decide]
      omega

/-! ## Bit fields -/

/-- The bits of a field of a number. -/
theorem testBit_bits (x lo w k : Nat) : (bits x lo w).testBit k = (decide (k < w) && x.testBit (lo + k)) := by
  rw [bits, Nat.testBit_mod_two_pow, Nat.testBit_shiftRight]

/-- The bits of a number with a field replaced. -/
theorem testBit_setBits (x lo w v k : Nat) : (setBits x lo w v).testBit k =
    if k < lo then x.testBit k else if k < lo + w then v.testBit (k - lo) else x.testBit k := by
  have key : setBits x lo w v = x % 2 ^ lo + 2 ^ lo * (v % 2 ^ w + 2 ^ w * (x >>> (lo + w))) := by
    simp only [setBits, Nat.shiftLeft_eq, Nat.shiftRight_eq_div_pow, Nat.pow_add]
    ring
  have h1 : x % 2 ^ lo < 2 ^ lo := Nat.mod_lt _ (by positivity)
  have h2 : v % 2 ^ w < 2 ^ w := Nat.mod_lt _ (by positivity)
  rw [key, Nat.add_comm, Nat.testBit_two_pow_mul_add _ h1]
  split
  · next h => rw [Nat.testBit_mod_two_pow]; simp [h]
  · next h =>
    rw [Nat.add_comm (v % 2 ^ w), Nat.testBit_two_pow_mul_add _ h2]
    split
    · next h' =>
      rw [Nat.testBit_mod_two_pow]
      have : k < lo + w := by omega
      simp [this, h']
    · next h' =>
      have : ¬ k < lo + w := by omega
      rw [if_neg this, Nat.testBit_shiftRight]
      congr 1
      omega

/-- A replaced field reads as what it was replaced by. -/
@[simp] theorem bits_setBits_self (x lo w v : Nat) : bits (setBits x lo w v) lo w = v % 2 ^ w := by
  apply Nat.eq_of_testBit_eq
  intro k
  rw [testBit_bits, testBit_setBits, Nat.testBit_mod_two_pow]
  by_cases h : k < w
  · simp [h]
  · simp [h]

/-- A field apart from the replaced one reads as before. -/
theorem bits_setBits_other (x lo w v lo' w' : Nat) (h : lo + w ≤ lo' ∨ lo' + w' ≤ lo) :
    bits (setBits x lo w v) lo' w' = bits x lo' w' := by
  apply Nat.eq_of_testBit_eq
  intro k
  rw [testBit_bits, testBit_bits, testBit_setBits]
  by_cases hk : k < w'
  · simp only [hk, decide_true, Bool.true_and]
    split
    · rfl
    · split
      · omega
      · rfl
  · simp [hk]

/-! ## Register fields -/

theorem Field.pos_eq (f : Field) (i : Nat) : f.pos i = 8 * f.base i + f.lo % 32 := by
  unfold Field.pos Field.base
  omega

/-- A field's words hold it. -/
theorem Field.fits (f : Field) : f.lo % 32 + f.width ≤ 32 * f.nwords := by
  unfold Field.nwords
  omega

/-- A bit of the words of a field, after a field was set: the bits outside that field stay. -/
theorem RegFile.testBit_setFld (rs : RegFile) (f : Field) (v i A q : Nat) (hq : q < 32) :
    ((rs.setFld f v i).get A).toNat.testBit q =
      if f.pos i ≤ 8 * A + q ∧ 8 * A + q < f.pos i + f.width ∧ A % 4 = f.base i % 4
      then v.testBit (8 * A + q - f.pos i) else (rs.get A).toNat.testBit q := by
  have hfit := f.fits
  unfold RegFile.setFld
  by_cases hA : ∃ k, k < f.nwords ∧ A = f.base i + 4 * k
  · obtain ⟨k, hk, rfl⟩ := hA
    rw [RegFile.get_setWords_self _ _ _ _ _ hk, BitVec.toNat_ofNat, Nat.testBit_mod_two_pow]
    rw [Nat.testBit_div_two_pow, testBit_setBits, Field.pos_eq]
    simp only [hq, decide_true, Bool.true_and]
    have hw : (rs.words (f.base i) f.nwords).testBit (32 * k + q) = (rs.get (f.base i + 4 * k)).toNat.testBit q := by
      rw [RegFile.testBit_words]
      have e1 : (32 * k + q) / 32 = k := by omega
      have e2 : (32 * k + q) % 32 = q := by omega
      have e3 : 32 * k + q < 32 * f.nwords := by omega
      simp [e1, e2, e3]
    have e4 : q + 32 * k = 32 * k + q := by omega
    rw [e4, hw]
    by_cases h1 : 32 * k + q < f.lo % 32
    · rw [if_pos h1, if_neg (by omega)]
    · rw [if_neg h1]
      by_cases h2 : 32 * k + q < f.lo % 32 + f.width
      · rw [if_pos h2, if_pos (by omega)]
        congr 1
        omega
      · rw [if_neg h2, if_neg (by omega)]
  · rw [RegFile.get_setWords_other]
    · rw [if_neg]
      rintro ⟨h1, h2, h3⟩
      rw [Field.pos_eq] at h1 h2
      apply hA
      refine ⟨(A - f.base i) / 4, ?_, ?_⟩ <;> omega
    · intro k hk he
      exact hA ⟨k, hk, he⟩

/-- A field set is read, at its width. -/
@[simp] theorem RegFile.fld_setFld_self (rs : RegFile) (f : Field) (v i : Nat) :
    (rs.setFld f v i).fld f i = v % 2 ^ f.width := by
  apply Nat.eq_of_testBit_eq
  intro k
  unfold RegFile.fld; rw [testBit_bits, RegFile.testBit_words, Nat.testBit_mod_two_pow]
  have hfit := f.fits
  by_cases hk : k < f.width
  · have h3 : f.lo % 32 + k < 32 * f.nwords := by omega
    simp only [hk, h3, decide_true, Bool.true_and]
    rw [RegFile.testBit_setFld _ _ _ _ _ _ (Nat.mod_lt _ (by norm_num)), Field.pos_eq, if_pos (by omega)]
    congr 1
    omega
  · simp [hk]

/-- Setting a field leaves every field apart from it alone. -/
theorem RegFile.fld_setFld_apart (rs : RegFile) (f g : Field) (v i j : Nat) (h : f.apart i g j = true) :
    (rs.setFld f v i).fld g j = rs.fld g j := by
  apply Nat.eq_of_testBit_eq
  intro k
  unfold RegFile.fld; rw [testBit_bits, testBit_bits, RegFile.testBit_words, RegFile.testBit_words]
  have hfit := g.fits
  by_cases hk : k < g.width
  · have h3 : g.lo % 32 + k < 32 * g.nwords := by omega
    simp only [hk, h3, decide_true, Bool.true_and]
    rw [RegFile.testBit_setFld _ _ _ _ _ _ (Nat.mod_lt _ (by norm_num)), if_neg]
    simp only [Field.apart, Bool.or_eq_true, decide_eq_true_eq] at h
    rw [Field.pos_eq g j] at h
    omega
  · simp [hk]

/-- A field set to what it reads leaves every word as it reads. -/
theorem RegFile.get_setFld_other (rs : RegFile) (f : Field) (v i A : Nat)
    (h : ∀ k, k < f.nwords → A ≠ f.base i + 4 * k) : (rs.setFld f v i).get A = rs.get A := by
  unfold RegFile.setFld; rw [RegFile.get_setWords_other _ _ _ _ _ h]

/-! ## The canonical form -/

theorem RegFile.wf_iff (rs : RegFile) : rs.wf = true ↔
    rs.Pairwise (fun p q => p.1 < q.1) ∧ ∀ p ∈ rs, p.2 ≠ resetWord p.1 := by
  induction rs with
  | nil => simp [RegFile.wf]
  | cons p t ih =>
    obtain ⟨a, w⟩ := p
    cases t with
    | nil => simp [RegFile.wf]
    | cons q u =>
      obtain ⟨b, v⟩ := q
      rw [RegFile.wf, Bool.and_eq_true, Bool.and_eq_true, ih, decide_eq_true_eq, decide_eq_true_eq]
      simp only [List.pairwise_cons, List.mem_cons, forall_eq_or_imp]
      constructor
      · rintro ⟨⟨h1, h2⟩, ⟨h3, h4⟩, h5, h6⟩
        exact ⟨⟨⟨h2, fun x hx => lt_trans h2 (h3 x hx)⟩, h3, h4⟩, h1, h5, h6⟩
      · rintro ⟨⟨⟨h1, _⟩, h3, h4⟩, h5, h6, h7⟩
        exact ⟨⟨h5, h1⟩, ⟨h3, h4⟩, h6, h7⟩

theorem RegFile.mem_insert (rs : RegFile) (a : Nat) (w : Word) (p : Nat × Word) :
    p ∈ RegFile.insert rs a w ↔ p = (a, w) ∨ p ∈ rs := by
  induction rs with
  | nil => simp [RegFile.insert]
  | cons q t ih =>
    obtain ⟨b, v⟩ := q
    rw [RegFile.insert]
    split
    · simp
    · simp [ih]
      tauto

theorem RegFile.pairwise_insert (rs : RegFile) (a : Nat) (w : Word) (hp : rs.Pairwise (fun p q => p.1 < q.1))
    (hn : ∀ p ∈ rs, p.1 ≠ a) : (RegFile.insert rs a w).Pairwise (fun p q => p.1 < q.1) := by
  induction rs with
  | nil => simp [RegFile.insert]
  | cons q t ih =>
    obtain ⟨b, v⟩ := q
    have hb : b ≠ a := hn (b, v) (by simp)
    rw [List.pairwise_cons] at hp
    rw [RegFile.insert]
    split
    · next h =>
      rw [List.pairwise_cons, List.pairwise_cons]
      refine ⟨?_, hp⟩
      intro p hp'
      rcases List.mem_cons.mp hp' with rfl | hm
      · exact h
      · exact lt_trans h (hp.1 p hm)
    · next h =>
      rw [List.pairwise_cons]
      refine ⟨?_, ih hp.2 (fun p hm => hn p (by simp [hm]))⟩
      intro p hp'
      rcases (RegFile.mem_insert t a w p).mp hp' with rfl | hm
      · show b < a
        omega
      · exact hp.1 p hm

/-- Setting a word keeps the canonical form. -/
theorem RegFile.wf_set (rs : RegFile) (a : Nat) (w : Word) (h : rs.wf = true) : (rs.set a w).wf = true := by
  rw [RegFile.wf_iff] at h ⊢
  have hsub : (rs.filter (fun (p : Nat × Word) => p.1 != a)).Pairwise (fun p q => p.1 < q.1) := h.1.filter _
  have hmem : ∀ p ∈ rs.filter (fun (p : Nat × Word) => p.1 != a), p.2 ≠ resetWord p.1 :=
    fun p hp => h.2 p (List.mem_filter.mp hp).1
  unfold RegFile.set
  split
  · exact ⟨hsub, hmem⟩
  · next hw =>
    refine ⟨RegFile.pairwise_insert _ a w hsub (fun p hp => by simpa using (List.mem_filter.mp hp).2), ?_⟩
    intro p hp
    rcases (RegFile.mem_insert _ a w p).mp hp with rfl | hm
    · exact hw
    · exact hmem p hm

theorem RegFile.wf_setWords (n : Nat) : ∀ (rs : RegFile) (a v : Nat), rs.wf = true → (rs.setWords a n v).wf = true := by
  induction n with
  | zero => intro rs a v h; exact h
  | succ n ih => intro rs a v h; exact ih _ _ _ (RegFile.wf_set _ _ _ h)

/-- Setting a field keeps the canonical form. -/
theorem RegFile.wf_setFld (rs : RegFile) (f : Field) (v i : Nat) (h : rs.wf = true) : (rs.setFld f v i).wf = true := by
  unfold RegFile.setFld
  exact RegFile.wf_setWords _ _ _ _ h

/-! ## On the chip -/

/-- A register field written is read, at its width. -/
@[simp] theorem Chip.rd_wr_self (c : Chip) (f : Field) (v i : Nat) : (c.wr f v i).rd f i = v % 2 ^ f.width :=
  RegFile.fld_setFld_self c.regs f v i

/-- Writing a register field leaves every field apart from it alone. -/
theorem Chip.rd_wr_apart (c : Chip) (f g : Field) (v i j : Nat) (h : f.apart i g j = true) :
    (c.wr f v i).rd g j = c.rd g j := RegFile.fld_setFld_apart c.regs f g v i j h

/-- A bit written is on or off. -/
@[simp] theorem Chip.on_wr_self (c : Chip) (f : Field) (v i : Nat) : (c.wr f v i).on f i = (v % 2 ^ f.width != 0) := by
  rw [Chip.on, Chip.rd_wr_self]

theorem Chip.on_wr_apart (c : Chip) (f g : Field) (v i j : Nat) (h : f.apart i g j = true) :
    (c.wr f v i).on g j = c.on g j := by
  rw [Chip.on, Chip.on, Chip.rd_wr_apart c f g v i j h]

/-- Writing a register field keeps the register file's canonical form. -/
theorem Chip.wf_wr (c : Chip) (f : Field) (v i : Nat) (h : c.regs.wf = true) : (c.wr f v i).regs.wf = true :=
  RegFile.wf_setFld c.regs f v i h

end Sys2Proof.Machine
end

