-- ==== Sys2Proof/Laws/State.lean ====
section
/-!
SUPPORT. What each update of the chip leaves alone: one law per update and part of the chip, so that no proof unfolds an update.
-/
namespace Sys2Proof.Machine

set_option Elab.async false

/-! ## Chip.wr -/

@[simp] theorem Chip.wr_dict (c : Chip) (f : Field) (v i : Nat) : (c.wr f v i).dict = c.dict := rfl
@[simp] theorem Chip.wr_muslin (c : Chip) (f : Field) (v i : Nat) : (c.wr f v i).muslin = c.muslin := rfl
@[simp] theorem Chip.wr_host (c : Chip) (f : Field) (v i : Nat) : (c.wr f v i).host = c.host := rfl
@[simp] theorem Chip.wr_tku (c : Chip) (f : Field) (v i : Nat) : (c.wr f v i).tku = c.tku := rfl
@[simp] theorem Chip.wr_dsp (c : Chip) (f : Field) (v i : Nat) : (c.wr f v i).dsp = c.dsp := rfl
@[simp] theorem Chip.wr_qmg (c : Chip) (f : Field) (v i : Nat) : (c.wr f v i).qmg = c.qmg := rfl
@[simp] theorem Chip.wr_hif (c : Chip) (f : Field) (v i : Nat) : (c.wr f v i).hif = c.hif := rfl
@[simp] theorem Chip.wr_msl (c : Chip) (f : Field) (v i : Nat) : (c.wr f v i).msl = c.msl := rfl
@[simp] theorem Chip.wr_drc (c : Chip) (f : Field) (v i : Nat) : (c.wr f v i).drc = c.drc := rfl
@[simp] theorem Chip.wr_dmk (c : Chip) (f : Field) (v i : Nat) : (c.wr f v i).dmk = c.dmk := rfl
@[simp] theorem Chip.wr_atu (c : Chip) (f : Field) (v i : Nat) : (c.wr f v i).atu = c.atu := rfl
@[simp] theorem Chip.wr_twl (c : Chip) (f : Field) (v i : Nat) : (c.wr f v i).twl = c.twl := rfl
@[simp] theorem Chip.wr_gze (c : Chip) (f : Field) (v i : Nat) : (c.wr f v i).gze = c.gze := rfl
@[simp] theorem Chip.wr_twd (c : Chip) (f : Field) (v i : Nat) : (c.wr f v i).twd = c.twd := rfl
@[simp] theorem Chip.wr_tul (c : Chip) (f : Field) (v i : Nat) : (c.wr f v i).tul = c.tul := rfl
@[simp] theorem Chip.wr_cnv (c : Chip) (f : Field) (v i : Nat) : (c.wr f v i).cnv = c.cnv := rfl
@[simp] theorem Chip.wr_moved (c : Chip) (f : Field) (v i : Nat) : (c.wr f v i).moved = c.moved := rfl
@[simp] theorem Chip.wr_jrs (c : Chip) (f : Field) (v i : Nat) : (c.wr f v i).jrs = c.jrs := rfl
@[simp] theorem Chip.wr_fld (c : Chip) (f : Field) (v i : Nat) : (c.wr f v i).fld = c.fld := rfl
@[simp] theorem Chip.wr_odx (c : Chip) (f : Field) (v i : Nat) : (c.wr f v i).odx = c.odx := rfl
@[simp] theorem Chip.wr_flash (c : Chip) (f : Field) (v i : Nat) : (c.wr f v i).flash = c.flash := rfl
@[simp] theorem Chip.wr_pwr (c : Chip) (f : Field) (v i : Nat) : (c.wr f v i).pwr = c.pwr := rfl
@[simp] theorem Chip.wr_gng (c : Chip) (f : Field) (v i : Nat) : (c.wr f v i).gng = c.gng := rfl
@[simp] theorem Chip.wr_bup (c : Chip) (f : Field) (v i : Nat) : (c.wr f v i).bup = c.bup := rfl
@[simp] theorem Chip.wr_pkg (c : Chip) (f : Field) (v i : Nat) : (c.wr f v i).pkg = c.pkg := rfl
@[simp] theorem Chip.wr_isolated (c : Chip) (f : Field) (v i : Nat) : (c.wr f v i).isolated = c.isolated := rfl
@[simp] theorem Chip.wr_sent (c : Chip) (f : Field) (v i : Nat) : (c.wr f v i).sent = c.sent := rfl
@[simp] theorem Chip.wr_fresh (c : Chip) (f : Field) (v i : Nat) : (c.wr f v i).fresh = c.fresh := rfl

/-! ## Chip.count -/

@[simp] theorem Chip.count_dict (c : Chip) (f : Field) (i n : Nat) : (c.count f i n).dict = c.dict := rfl
@[simp] theorem Chip.count_muslin (c : Chip) (f : Field) (i n : Nat) : (c.count f i n).muslin = c.muslin := rfl
@[simp] theorem Chip.count_host (c : Chip) (f : Field) (i n : Nat) : (c.count f i n).host = c.host := rfl
@[simp] theorem Chip.count_tku (c : Chip) (f : Field) (i n : Nat) : (c.count f i n).tku = c.tku := rfl
@[simp] theorem Chip.count_dsp (c : Chip) (f : Field) (i n : Nat) : (c.count f i n).dsp = c.dsp := rfl
@[simp] theorem Chip.count_qmg (c : Chip) (f : Field) (i n : Nat) : (c.count f i n).qmg = c.qmg := rfl
@[simp] theorem Chip.count_hif (c : Chip) (f : Field) (i n : Nat) : (c.count f i n).hif = c.hif := rfl
@[simp] theorem Chip.count_msl (c : Chip) (f : Field) (i n : Nat) : (c.count f i n).msl = c.msl := rfl
@[simp] theorem Chip.count_drc (c : Chip) (f : Field) (i n : Nat) : (c.count f i n).drc = c.drc := rfl
@[simp] theorem Chip.count_dmk (c : Chip) (f : Field) (i n : Nat) : (c.count f i n).dmk = c.dmk := rfl
@[simp] theorem Chip.count_atu (c : Chip) (f : Field) (i n : Nat) : (c.count f i n).atu = c.atu := rfl
@[simp] theorem Chip.count_twl (c : Chip) (f : Field) (i n : Nat) : (c.count f i n).twl = c.twl := rfl
@[simp] theorem Chip.count_gze (c : Chip) (f : Field) (i n : Nat) : (c.count f i n).gze = c.gze := rfl
@[simp] theorem Chip.count_twd (c : Chip) (f : Field) (i n : Nat) : (c.count f i n).twd = c.twd := rfl
@[simp] theorem Chip.count_tul (c : Chip) (f : Field) (i n : Nat) : (c.count f i n).tul = c.tul := rfl
@[simp] theorem Chip.count_cnv (c : Chip) (f : Field) (i n : Nat) : (c.count f i n).cnv = c.cnv := rfl
@[simp] theorem Chip.count_moved (c : Chip) (f : Field) (i n : Nat) : (c.count f i n).moved = c.moved := rfl
@[simp] theorem Chip.count_jrs (c : Chip) (f : Field) (i n : Nat) : (c.count f i n).jrs = c.jrs := rfl
@[simp] theorem Chip.count_fld (c : Chip) (f : Field) (i n : Nat) : (c.count f i n).fld = c.fld := rfl
@[simp] theorem Chip.count_odx (c : Chip) (f : Field) (i n : Nat) : (c.count f i n).odx = c.odx := rfl
@[simp] theorem Chip.count_flash (c : Chip) (f : Field) (i n : Nat) : (c.count f i n).flash = c.flash := rfl
@[simp] theorem Chip.count_pwr (c : Chip) (f : Field) (i n : Nat) : (c.count f i n).pwr = c.pwr := rfl
@[simp] theorem Chip.count_gng (c : Chip) (f : Field) (i n : Nat) : (c.count f i n).gng = c.gng := rfl
@[simp] theorem Chip.count_bup (c : Chip) (f : Field) (i n : Nat) : (c.count f i n).bup = c.bup := rfl
@[simp] theorem Chip.count_pkg (c : Chip) (f : Field) (i n : Nat) : (c.count f i n).pkg = c.pkg := rfl
@[simp] theorem Chip.count_isolated (c : Chip) (f : Field) (i n : Nat) : (c.count f i n).isolated = c.isolated := rfl
@[simp] theorem Chip.count_sent (c : Chip) (f : Field) (i n : Nat) : (c.count f i n).sent = c.sent := rfl
@[simp] theorem Chip.count_fresh (c : Chip) (f : Field) (i n : Nat) : (c.count f i n).fresh = c.fresh := rfl

/-! ## Chip.countSat -/

@[simp] theorem Chip.countSat_dict (c : Chip) (f : Field) (i n : Nat) : (c.countSat f i n).dict = c.dict := rfl
@[simp] theorem Chip.countSat_muslin (c : Chip) (f : Field) (i n : Nat) : (c.countSat f i n).muslin = c.muslin := rfl
@[simp] theorem Chip.countSat_host (c : Chip) (f : Field) (i n : Nat) : (c.countSat f i n).host = c.host := rfl
@[simp] theorem Chip.countSat_tku (c : Chip) (f : Field) (i n : Nat) : (c.countSat f i n).tku = c.tku := rfl
@[simp] theorem Chip.countSat_dsp (c : Chip) (f : Field) (i n : Nat) : (c.countSat f i n).dsp = c.dsp := rfl
@[simp] theorem Chip.countSat_qmg (c : Chip) (f : Field) (i n : Nat) : (c.countSat f i n).qmg = c.qmg := rfl
@[simp] theorem Chip.countSat_hif (c : Chip) (f : Field) (i n : Nat) : (c.countSat f i n).hif = c.hif := rfl
@[simp] theorem Chip.countSat_msl (c : Chip) (f : Field) (i n : Nat) : (c.countSat f i n).msl = c.msl := rfl
@[simp] theorem Chip.countSat_drc (c : Chip) (f : Field) (i n : Nat) : (c.countSat f i n).drc = c.drc := rfl
@[simp] theorem Chip.countSat_dmk (c : Chip) (f : Field) (i n : Nat) : (c.countSat f i n).dmk = c.dmk := rfl
@[simp] theorem Chip.countSat_atu (c : Chip) (f : Field) (i n : Nat) : (c.countSat f i n).atu = c.atu := rfl
@[simp] theorem Chip.countSat_twl (c : Chip) (f : Field) (i n : Nat) : (c.countSat f i n).twl = c.twl := rfl
@[simp] theorem Chip.countSat_gze (c : Chip) (f : Field) (i n : Nat) : (c.countSat f i n).gze = c.gze := rfl
@[simp] theorem Chip.countSat_twd (c : Chip) (f : Field) (i n : Nat) : (c.countSat f i n).twd = c.twd := rfl
@[simp] theorem Chip.countSat_tul (c : Chip) (f : Field) (i n : Nat) : (c.countSat f i n).tul = c.tul := rfl
@[simp] theorem Chip.countSat_cnv (c : Chip) (f : Field) (i n : Nat) : (c.countSat f i n).cnv = c.cnv := rfl
@[simp] theorem Chip.countSat_moved (c : Chip) (f : Field) (i n : Nat) : (c.countSat f i n).moved = c.moved := rfl
@[simp] theorem Chip.countSat_jrs (c : Chip) (f : Field) (i n : Nat) : (c.countSat f i n).jrs = c.jrs := rfl
@[simp] theorem Chip.countSat_fld (c : Chip) (f : Field) (i n : Nat) : (c.countSat f i n).fld = c.fld := rfl
@[simp] theorem Chip.countSat_odx (c : Chip) (f : Field) (i n : Nat) : (c.countSat f i n).odx = c.odx := rfl
@[simp] theorem Chip.countSat_flash (c : Chip) (f : Field) (i n : Nat) : (c.countSat f i n).flash = c.flash := rfl
@[simp] theorem Chip.countSat_pwr (c : Chip) (f : Field) (i n : Nat) : (c.countSat f i n).pwr = c.pwr := rfl
@[simp] theorem Chip.countSat_gng (c : Chip) (f : Field) (i n : Nat) : (c.countSat f i n).gng = c.gng := rfl
@[simp] theorem Chip.countSat_bup (c : Chip) (f : Field) (i n : Nat) : (c.countSat f i n).bup = c.bup := rfl
@[simp] theorem Chip.countSat_pkg (c : Chip) (f : Field) (i n : Nat) : (c.countSat f i n).pkg = c.pkg := rfl
@[simp] theorem Chip.countSat_isolated (c : Chip) (f : Field) (i n : Nat) : (c.countSat f i n).isolated = c.isolated := rfl
@[simp] theorem Chip.countSat_sent (c : Chip) (f : Field) (i n : Nat) : (c.countSat f i n).sent = c.sent := rfl
@[simp] theorem Chip.countSat_fresh (c : Chip) (f : Field) (i n : Nat) : (c.countSat f i n).fresh = c.fresh := rfl

/-! ## Chip.latch -/

@[simp] theorem Chip.latch_dict (c : Chip) (f : Field) (i : Nat) : (c.latch f i).dict = c.dict := rfl
@[simp] theorem Chip.latch_muslin (c : Chip) (f : Field) (i : Nat) : (c.latch f i).muslin = c.muslin := rfl
@[simp] theorem Chip.latch_host (c : Chip) (f : Field) (i : Nat) : (c.latch f i).host = c.host := rfl
@[simp] theorem Chip.latch_tku (c : Chip) (f : Field) (i : Nat) : (c.latch f i).tku = c.tku := rfl
@[simp] theorem Chip.latch_dsp (c : Chip) (f : Field) (i : Nat) : (c.latch f i).dsp = c.dsp := rfl
@[simp] theorem Chip.latch_qmg (c : Chip) (f : Field) (i : Nat) : (c.latch f i).qmg = c.qmg := rfl
@[simp] theorem Chip.latch_hif (c : Chip) (f : Field) (i : Nat) : (c.latch f i).hif = c.hif := rfl
@[simp] theorem Chip.latch_msl (c : Chip) (f : Field) (i : Nat) : (c.latch f i).msl = c.msl := rfl
@[simp] theorem Chip.latch_drc (c : Chip) (f : Field) (i : Nat) : (c.latch f i).drc = c.drc := rfl
@[simp] theorem Chip.latch_dmk (c : Chip) (f : Field) (i : Nat) : (c.latch f i).dmk = c.dmk := rfl
@[simp] theorem Chip.latch_atu (c : Chip) (f : Field) (i : Nat) : (c.latch f i).atu = c.atu := rfl
@[simp] theorem Chip.latch_twl (c : Chip) (f : Field) (i : Nat) : (c.latch f i).twl = c.twl := rfl
@[simp] theorem Chip.latch_gze (c : Chip) (f : Field) (i : Nat) : (c.latch f i).gze = c.gze := rfl
@[simp] theorem Chip.latch_twd (c : Chip) (f : Field) (i : Nat) : (c.latch f i).twd = c.twd := rfl
@[simp] theorem Chip.latch_tul (c : Chip) (f : Field) (i : Nat) : (c.latch f i).tul = c.tul := rfl
@[simp] theorem Chip.latch_cnv (c : Chip) (f : Field) (i : Nat) : (c.latch f i).cnv = c.cnv := rfl
@[simp] theorem Chip.latch_moved (c : Chip) (f : Field) (i : Nat) : (c.latch f i).moved = c.moved := rfl
@[simp] theorem Chip.latch_jrs (c : Chip) (f : Field) (i : Nat) : (c.latch f i).jrs = c.jrs := rfl
@[simp] theorem Chip.latch_fld (c : Chip) (f : Field) (i : Nat) : (c.latch f i).fld = c.fld := rfl
@[simp] theorem Chip.latch_odx (c : Chip) (f : Field) (i : Nat) : (c.latch f i).odx = c.odx := rfl
@[simp] theorem Chip.latch_flash (c : Chip) (f : Field) (i : Nat) : (c.latch f i).flash = c.flash := rfl
@[simp] theorem Chip.latch_pwr (c : Chip) (f : Field) (i : Nat) : (c.latch f i).pwr = c.pwr := rfl
@[simp] theorem Chip.latch_gng (c : Chip) (f : Field) (i : Nat) : (c.latch f i).gng = c.gng := rfl
@[simp] theorem Chip.latch_bup (c : Chip) (f : Field) (i : Nat) : (c.latch f i).bup = c.bup := rfl
@[simp] theorem Chip.latch_pkg (c : Chip) (f : Field) (i : Nat) : (c.latch f i).pkg = c.pkg := rfl
@[simp] theorem Chip.latch_isolated (c : Chip) (f : Field) (i : Nat) : (c.latch f i).isolated = c.isolated := rfl
@[simp] theorem Chip.latch_sent (c : Chip) (f : Field) (i : Nat) : (c.latch f i).sent = c.sent := rfl
@[simp] theorem Chip.latch_fresh (c : Chip) (f : Field) (i : Nat) : (c.latch f i).fresh = c.fresh := rfl

/-! ## Chip.emit -/

@[simp] theorem Chip.emit_regs (c : Chip) (p : Port) (a b : Nat) (data : List Byte) : (c.emit p a b data).regs = c.regs := rfl
@[simp] theorem Chip.emit_dict (c : Chip) (p : Port) (a b : Nat) (data : List Byte) : (c.emit p a b data).dict = c.dict := rfl
@[simp] theorem Chip.emit_muslin (c : Chip) (p : Port) (a b : Nat) (data : List Byte) : (c.emit p a b data).muslin = c.muslin := rfl
@[simp] theorem Chip.emit_host (c : Chip) (p : Port) (a b : Nat) (data : List Byte) : (c.emit p a b data).host = c.host := rfl
@[simp] theorem Chip.emit_tku (c : Chip) (p : Port) (a b : Nat) (data : List Byte) : (c.emit p a b data).tku = c.tku := rfl
@[simp] theorem Chip.emit_dsp (c : Chip) (p : Port) (a b : Nat) (data : List Byte) : (c.emit p a b data).dsp = c.dsp := rfl
@[simp] theorem Chip.emit_qmg (c : Chip) (p : Port) (a b : Nat) (data : List Byte) : (c.emit p a b data).qmg = c.qmg := rfl
@[simp] theorem Chip.emit_hif (c : Chip) (p : Port) (a b : Nat) (data : List Byte) : (c.emit p a b data).hif = c.hif := rfl
@[simp] theorem Chip.emit_msl (c : Chip) (p : Port) (a b : Nat) (data : List Byte) : (c.emit p a b data).msl = c.msl := rfl
@[simp] theorem Chip.emit_drc (c : Chip) (p : Port) (a b : Nat) (data : List Byte) : (c.emit p a b data).drc = c.drc := rfl
@[simp] theorem Chip.emit_dmk (c : Chip) (p : Port) (a b : Nat) (data : List Byte) : (c.emit p a b data).dmk = c.dmk := rfl
@[simp] theorem Chip.emit_atu (c : Chip) (p : Port) (a b : Nat) (data : List Byte) : (c.emit p a b data).atu = c.atu := rfl
@[simp] theorem Chip.emit_twl (c : Chip) (p : Port) (a b : Nat) (data : List Byte) : (c.emit p a b data).twl = c.twl := rfl
@[simp] theorem Chip.emit_gze (c : Chip) (p : Port) (a b : Nat) (data : List Byte) : (c.emit p a b data).gze = c.gze := rfl
@[simp] theorem Chip.emit_twd (c : Chip) (p : Port) (a b : Nat) (data : List Byte) : (c.emit p a b data).twd = c.twd := rfl
@[simp] theorem Chip.emit_tul (c : Chip) (p : Port) (a b : Nat) (data : List Byte) : (c.emit p a b data).tul = c.tul := rfl
@[simp] theorem Chip.emit_cnv (c : Chip) (p : Port) (a b : Nat) (data : List Byte) : (c.emit p a b data).cnv = c.cnv := rfl
@[simp] theorem Chip.emit_moved (c : Chip) (p : Port) (a b : Nat) (data : List Byte) : (c.emit p a b data).moved = c.moved := rfl
@[simp] theorem Chip.emit_jrs (c : Chip) (p : Port) (a b : Nat) (data : List Byte) : (c.emit p a b data).jrs = c.jrs := rfl
@[simp] theorem Chip.emit_fld (c : Chip) (p : Port) (a b : Nat) (data : List Byte) : (c.emit p a b data).fld = c.fld := rfl
@[simp] theorem Chip.emit_odx (c : Chip) (p : Port) (a b : Nat) (data : List Byte) : (c.emit p a b data).odx = c.odx := rfl
@[simp] theorem Chip.emit_flash (c : Chip) (p : Port) (a b : Nat) (data : List Byte) : (c.emit p a b data).flash = c.flash := rfl
@[simp] theorem Chip.emit_pwr (c : Chip) (p : Port) (a b : Nat) (data : List Byte) : (c.emit p a b data).pwr = c.pwr := rfl
@[simp] theorem Chip.emit_gng (c : Chip) (p : Port) (a b : Nat) (data : List Byte) : (c.emit p a b data).gng = c.gng := rfl
@[simp] theorem Chip.emit_bup (c : Chip) (p : Port) (a b : Nat) (data : List Byte) : (c.emit p a b data).bup = c.bup := rfl
@[simp] theorem Chip.emit_pkg (c : Chip) (p : Port) (a b : Nat) (data : List Byte) : (c.emit p a b data).pkg = c.pkg := rfl
@[simp] theorem Chip.emit_isolated (c : Chip) (p : Port) (a b : Nat) (data : List Byte) : (c.emit p a b data).isolated = c.isolated := rfl
@[simp] theorem Chip.emit_fresh (c : Chip) (p : Port) (a b : Nat) (data : List Byte) : (c.emit p a b data).fresh = c.fresh := rfl

/-! ## Chip.sendVector -/

@[simp] theorem Chip.sendVector_dict (c : Chip) (v : Nat) : (c.sendVector v).dict = c.dict := by
  simp only [Chip.sendVector, apply_ite Chip.dict, Chip.emit_dict, ite_self]
@[simp] theorem Chip.sendVector_muslin (c : Chip) (v : Nat) : (c.sendVector v).muslin = c.muslin := by
  simp only [Chip.sendVector, apply_ite Chip.muslin, Chip.emit_muslin, ite_self]
@[simp] theorem Chip.sendVector_host (c : Chip) (v : Nat) : (c.sendVector v).host = c.host := by
  simp only [Chip.sendVector, apply_ite Chip.host, Chip.emit_host, ite_self]
@[simp] theorem Chip.sendVector_tku (c : Chip) (v : Nat) : (c.sendVector v).tku = c.tku := by
  simp only [Chip.sendVector, apply_ite Chip.tku, Chip.emit_tku, ite_self]
@[simp] theorem Chip.sendVector_dsp (c : Chip) (v : Nat) : (c.sendVector v).dsp = c.dsp := by
  simp only [Chip.sendVector, apply_ite Chip.dsp, Chip.emit_dsp, ite_self]
@[simp] theorem Chip.sendVector_qmg (c : Chip) (v : Nat) : (c.sendVector v).qmg = c.qmg := by
  simp only [Chip.sendVector, apply_ite Chip.qmg, Chip.emit_qmg, ite_self]
@[simp] theorem Chip.sendVector_hif (c : Chip) (v : Nat) : (c.sendVector v).hif = c.hif := by
  simp only [Chip.sendVector, apply_ite Chip.hif, Chip.emit_hif, ite_self]
@[simp] theorem Chip.sendVector_msl (c : Chip) (v : Nat) : (c.sendVector v).msl = c.msl := by
  simp only [Chip.sendVector, apply_ite Chip.msl, Chip.emit_msl, ite_self]
@[simp] theorem Chip.sendVector_drc (c : Chip) (v : Nat) : (c.sendVector v).drc = c.drc := by
  simp only [Chip.sendVector, apply_ite Chip.drc, Chip.emit_drc, ite_self]
@[simp] theorem Chip.sendVector_dmk (c : Chip) (v : Nat) : (c.sendVector v).dmk = c.dmk := by
  simp only [Chip.sendVector, apply_ite Chip.dmk, Chip.emit_dmk, ite_self]
@[simp] theorem Chip.sendVector_atu (c : Chip) (v : Nat) : (c.sendVector v).atu = c.atu := by
  simp only [Chip.sendVector, apply_ite Chip.atu, Chip.emit_atu, ite_self]
@[simp] theorem Chip.sendVector_twl (c : Chip) (v : Nat) : (c.sendVector v).twl = c.twl := by
  simp only [Chip.sendVector, apply_ite Chip.twl, Chip.emit_twl, ite_self]
@[simp] theorem Chip.sendVector_gze (c : Chip) (v : Nat) : (c.sendVector v).gze = c.gze := by
  simp only [Chip.sendVector, apply_ite Chip.gze, Chip.emit_gze, ite_self]
@[simp] theorem Chip.sendVector_twd (c : Chip) (v : Nat) : (c.sendVector v).twd = c.twd := by
  simp only [Chip.sendVector, apply_ite Chip.twd, Chip.emit_twd, ite_self]
@[simp] theorem Chip.sendVector_tul (c : Chip) (v : Nat) : (c.sendVector v).tul = c.tul := by
  simp only [Chip.sendVector, apply_ite Chip.tul, Chip.emit_tul, ite_self]
@[simp] theorem Chip.sendVector_cnv (c : Chip) (v : Nat) : (c.sendVector v).cnv = c.cnv := by
  simp only [Chip.sendVector, apply_ite Chip.cnv, Chip.emit_cnv, ite_self]
@[simp] theorem Chip.sendVector_moved (c : Chip) (v : Nat) : (c.sendVector v).moved = c.moved := by
  simp only [Chip.sendVector, apply_ite Chip.moved, Chip.emit_moved, ite_self]
@[simp] theorem Chip.sendVector_jrs (c : Chip) (v : Nat) : (c.sendVector v).jrs = c.jrs := by
  simp only [Chip.sendVector, apply_ite Chip.jrs, Chip.emit_jrs, ite_self]
@[simp] theorem Chip.sendVector_fld (c : Chip) (v : Nat) : (c.sendVector v).fld = c.fld := by
  simp only [Chip.sendVector, apply_ite Chip.fld, Chip.emit_fld, ite_self]
@[simp] theorem Chip.sendVector_odx (c : Chip) (v : Nat) : (c.sendVector v).odx = c.odx := by
  simp only [Chip.sendVector, apply_ite Chip.odx, Chip.emit_odx, ite_self]
@[simp] theorem Chip.sendVector_flash (c : Chip) (v : Nat) : (c.sendVector v).flash = c.flash := by
  simp only [Chip.sendVector, apply_ite Chip.flash, Chip.emit_flash, ite_self]
@[simp] theorem Chip.sendVector_pwr (c : Chip) (v : Nat) : (c.sendVector v).pwr = c.pwr := by
  simp only [Chip.sendVector, apply_ite Chip.pwr, Chip.emit_pwr, ite_self]
@[simp] theorem Chip.sendVector_gng (c : Chip) (v : Nat) : (c.sendVector v).gng = c.gng := by
  simp only [Chip.sendVector, apply_ite Chip.gng, Chip.emit_gng, ite_self]
@[simp] theorem Chip.sendVector_bup (c : Chip) (v : Nat) : (c.sendVector v).bup = c.bup := by
  simp only [Chip.sendVector, apply_ite Chip.bup, Chip.emit_bup, ite_self]
@[simp] theorem Chip.sendVector_pkg (c : Chip) (v : Nat) : (c.sendVector v).pkg = c.pkg := by
  simp only [Chip.sendVector, apply_ite Chip.pkg, Chip.emit_pkg, ite_self]
@[simp] theorem Chip.sendVector_isolated (c : Chip) (v : Nat) : (c.sendVector v).isolated = c.isolated := by
  simp only [Chip.sendVector, apply_ite Chip.isolated, Chip.emit_isolated, ite_self]
@[simp] theorem Chip.sendVector_fresh (c : Chip) (v : Nat) : (c.sendVector v).fresh = c.fresh := by
  simp only [Chip.sendVector, apply_ite Chip.fresh, Chip.emit_fresh, ite_self]

/-! ## Chip.raise -/

@[simp] theorem Chip.raise_dict (c : Chip) (n : Nat) : (c.raise n).dict = c.dict := by
  simp only [Chip.raise, apply_ite Chip.dict, Chip.wr_dict, Chip.sendVector_dict, ite_self]
@[simp] theorem Chip.raise_muslin (c : Chip) (n : Nat) : (c.raise n).muslin = c.muslin := by
  simp only [Chip.raise, apply_ite Chip.muslin, Chip.wr_muslin, Chip.sendVector_muslin, ite_self]
@[simp] theorem Chip.raise_host (c : Chip) (n : Nat) : (c.raise n).host = c.host := by
  simp only [Chip.raise, apply_ite Chip.host, Chip.wr_host, Chip.sendVector_host, ite_self]
@[simp] theorem Chip.raise_tku (c : Chip) (n : Nat) : (c.raise n).tku = c.tku := by
  simp only [Chip.raise, apply_ite Chip.tku, Chip.wr_tku, Chip.sendVector_tku, ite_self]
@[simp] theorem Chip.raise_dsp (c : Chip) (n : Nat) : (c.raise n).dsp = c.dsp := by
  simp only [Chip.raise, apply_ite Chip.dsp, Chip.wr_dsp, Chip.sendVector_dsp, ite_self]
@[simp] theorem Chip.raise_qmg (c : Chip) (n : Nat) : (c.raise n).qmg = c.qmg := by
  simp only [Chip.raise, apply_ite Chip.qmg, Chip.wr_qmg, Chip.sendVector_qmg, ite_self]
@[simp] theorem Chip.raise_hif (c : Chip) (n : Nat) : (c.raise n).hif = c.hif := by
  simp only [Chip.raise, apply_ite Chip.hif, Chip.wr_hif, Chip.sendVector_hif, ite_self]
@[simp] theorem Chip.raise_msl (c : Chip) (n : Nat) : (c.raise n).msl = c.msl := by
  simp only [Chip.raise, apply_ite Chip.msl, Chip.wr_msl, Chip.sendVector_msl, ite_self]
@[simp] theorem Chip.raise_drc (c : Chip) (n : Nat) : (c.raise n).drc = c.drc := by
  simp only [Chip.raise, apply_ite Chip.drc, Chip.wr_drc, Chip.sendVector_drc, ite_self]
@[simp] theorem Chip.raise_dmk (c : Chip) (n : Nat) : (c.raise n).dmk = c.dmk := by
  simp only [Chip.raise, apply_ite Chip.dmk, Chip.wr_dmk, Chip.sendVector_dmk, ite_self]
@[simp] theorem Chip.raise_atu (c : Chip) (n : Nat) : (c.raise n).atu = c.atu := by
  simp only [Chip.raise, apply_ite Chip.atu, Chip.wr_atu, Chip.sendVector_atu, ite_self]
@[simp] theorem Chip.raise_twl (c : Chip) (n : Nat) : (c.raise n).twl = c.twl := by
  simp only [Chip.raise, apply_ite Chip.twl, Chip.wr_twl, Chip.sendVector_twl, ite_self]
@[simp] theorem Chip.raise_gze (c : Chip) (n : Nat) : (c.raise n).gze = c.gze := by
  simp only [Chip.raise, apply_ite Chip.gze, Chip.wr_gze, Chip.sendVector_gze, ite_self]
@[simp] theorem Chip.raise_twd (c : Chip) (n : Nat) : (c.raise n).twd = c.twd := by
  simp only [Chip.raise, apply_ite Chip.twd, Chip.wr_twd, Chip.sendVector_twd, ite_self]
@[simp] theorem Chip.raise_tul (c : Chip) (n : Nat) : (c.raise n).tul = c.tul := by
  simp only [Chip.raise, apply_ite Chip.tul, Chip.wr_tul, Chip.sendVector_tul, ite_self]
@[simp] theorem Chip.raise_cnv (c : Chip) (n : Nat) : (c.raise n).cnv = c.cnv := by
  simp only [Chip.raise, apply_ite Chip.cnv, Chip.wr_cnv, Chip.sendVector_cnv, ite_self]
@[simp] theorem Chip.raise_moved (c : Chip) (n : Nat) : (c.raise n).moved = c.moved := by
  simp only [Chip.raise, apply_ite Chip.moved, Chip.wr_moved, Chip.sendVector_moved, ite_self]
@[simp] theorem Chip.raise_jrs (c : Chip) (n : Nat) : (c.raise n).jrs = c.jrs := by
  simp only [Chip.raise, apply_ite Chip.jrs, Chip.wr_jrs, Chip.sendVector_jrs, ite_self]
@[simp] theorem Chip.raise_fld (c : Chip) (n : Nat) : (c.raise n).fld = c.fld := by
  simp only [Chip.raise, apply_ite Chip.fld, Chip.wr_fld, Chip.sendVector_fld, ite_self]
@[simp] theorem Chip.raise_odx (c : Chip) (n : Nat) : (c.raise n).odx = c.odx := by
  simp only [Chip.raise, apply_ite Chip.odx, Chip.wr_odx, Chip.sendVector_odx, ite_self]
@[simp] theorem Chip.raise_flash (c : Chip) (n : Nat) : (c.raise n).flash = c.flash := by
  simp only [Chip.raise, apply_ite Chip.flash, Chip.wr_flash, Chip.sendVector_flash, ite_self]
@[simp] theorem Chip.raise_pwr (c : Chip) (n : Nat) : (c.raise n).pwr = c.pwr := by
  simp only [Chip.raise, apply_ite Chip.pwr, Chip.wr_pwr, Chip.sendVector_pwr, ite_self]
@[simp] theorem Chip.raise_gng (c : Chip) (n : Nat) : (c.raise n).gng = c.gng := by
  simp only [Chip.raise, apply_ite Chip.gng, Chip.wr_gng, Chip.sendVector_gng, ite_self]
@[simp] theorem Chip.raise_bup (c : Chip) (n : Nat) : (c.raise n).bup = c.bup := by
  simp only [Chip.raise, apply_ite Chip.bup, Chip.wr_bup, Chip.sendVector_bup, ite_self]
@[simp] theorem Chip.raise_pkg (c : Chip) (n : Nat) : (c.raise n).pkg = c.pkg := by
  simp only [Chip.raise, apply_ite Chip.pkg, Chip.wr_pkg, Chip.sendVector_pkg, ite_self]
@[simp] theorem Chip.raise_isolated (c : Chip) (n : Nat) : (c.raise n).isolated = c.isolated := by
  simp only [Chip.raise, apply_ite Chip.isolated, Chip.wr_isolated, Chip.sendVector_isolated, ite_self]
@[simp] theorem Chip.raise_fresh (c : Chip) (n : Nat) : (c.raise n).fresh = c.fresh := by
  simp only [Chip.raise, apply_ite Chip.fresh, Chip.wr_fresh, Chip.sendVector_fresh, ite_self]

/-! ## Chip.latchFault -/

@[simp] theorem Chip.latchFault_dict (c : Chip) (f : Field) (i : Nat) : (c.latchFault f i).dict = c.dict := by
  simp only [Chip.latchFault, apply_ite Chip.dict, Chip.wr_dict, Chip.raise_dict, ite_self]
@[simp] theorem Chip.latchFault_muslin (c : Chip) (f : Field) (i : Nat) : (c.latchFault f i).muslin = c.muslin := by
  simp only [Chip.latchFault, apply_ite Chip.muslin, Chip.wr_muslin, Chip.raise_muslin, ite_self]
@[simp] theorem Chip.latchFault_host (c : Chip) (f : Field) (i : Nat) : (c.latchFault f i).host = c.host := by
  simp only [Chip.latchFault, apply_ite Chip.host, Chip.wr_host, Chip.raise_host, ite_self]
@[simp] theorem Chip.latchFault_tku (c : Chip) (f : Field) (i : Nat) : (c.latchFault f i).tku = c.tku := by
  simp only [Chip.latchFault, apply_ite Chip.tku, Chip.wr_tku, Chip.raise_tku, ite_self]
@[simp] theorem Chip.latchFault_dsp (c : Chip) (f : Field) (i : Nat) : (c.latchFault f i).dsp = c.dsp := by
  simp only [Chip.latchFault, apply_ite Chip.dsp, Chip.wr_dsp, Chip.raise_dsp, ite_self]
@[simp] theorem Chip.latchFault_qmg (c : Chip) (f : Field) (i : Nat) : (c.latchFault f i).qmg = c.qmg := by
  simp only [Chip.latchFault, apply_ite Chip.qmg, Chip.wr_qmg, Chip.raise_qmg, ite_self]
@[simp] theorem Chip.latchFault_hif (c : Chip) (f : Field) (i : Nat) : (c.latchFault f i).hif = c.hif := by
  simp only [Chip.latchFault, apply_ite Chip.hif, Chip.wr_hif, Chip.raise_hif, ite_self]
@[simp] theorem Chip.latchFault_msl (c : Chip) (f : Field) (i : Nat) : (c.latchFault f i).msl = c.msl := by
  simp only [Chip.latchFault, apply_ite Chip.msl, Chip.wr_msl, Chip.raise_msl, ite_self]
@[simp] theorem Chip.latchFault_drc (c : Chip) (f : Field) (i : Nat) : (c.latchFault f i).drc = c.drc := by
  simp only [Chip.latchFault, apply_ite Chip.drc, Chip.wr_drc, Chip.raise_drc, ite_self]
@[simp] theorem Chip.latchFault_dmk (c : Chip) (f : Field) (i : Nat) : (c.latchFault f i).dmk = c.dmk := by
  simp only [Chip.latchFault, apply_ite Chip.dmk, Chip.wr_dmk, Chip.raise_dmk, ite_self]
@[simp] theorem Chip.latchFault_atu (c : Chip) (f : Field) (i : Nat) : (c.latchFault f i).atu = c.atu := by
  simp only [Chip.latchFault, apply_ite Chip.atu, Chip.wr_atu, Chip.raise_atu, ite_self]
@[simp] theorem Chip.latchFault_twl (c : Chip) (f : Field) (i : Nat) : (c.latchFault f i).twl = c.twl := by
  simp only [Chip.latchFault, apply_ite Chip.twl, Chip.wr_twl, Chip.raise_twl, ite_self]
@[simp] theorem Chip.latchFault_gze (c : Chip) (f : Field) (i : Nat) : (c.latchFault f i).gze = c.gze := by
  simp only [Chip.latchFault, apply_ite Chip.gze, Chip.wr_gze, Chip.raise_gze, ite_self]
@[simp] theorem Chip.latchFault_twd (c : Chip) (f : Field) (i : Nat) : (c.latchFault f i).twd = c.twd := by
  simp only [Chip.latchFault, apply_ite Chip.twd, Chip.wr_twd, Chip.raise_twd, ite_self]
@[simp] theorem Chip.latchFault_tul (c : Chip) (f : Field) (i : Nat) : (c.latchFault f i).tul = c.tul := by
  simp only [Chip.latchFault, apply_ite Chip.tul, Chip.wr_tul, Chip.raise_tul, ite_self]
@[simp] theorem Chip.latchFault_cnv (c : Chip) (f : Field) (i : Nat) : (c.latchFault f i).cnv = c.cnv := by
  simp only [Chip.latchFault, apply_ite Chip.cnv, Chip.wr_cnv, Chip.raise_cnv, ite_self]
@[simp] theorem Chip.latchFault_moved (c : Chip) (f : Field) (i : Nat) : (c.latchFault f i).moved = c.moved := by
  simp only [Chip.latchFault, apply_ite Chip.moved, Chip.wr_moved, Chip.raise_moved, ite_self]
@[simp] theorem Chip.latchFault_jrs (c : Chip) (f : Field) (i : Nat) : (c.latchFault f i).jrs = c.jrs := by
  simp only [Chip.latchFault, apply_ite Chip.jrs, Chip.wr_jrs, Chip.raise_jrs, ite_self]
@[simp] theorem Chip.latchFault_fld (c : Chip) (f : Field) (i : Nat) : (c.latchFault f i).fld = c.fld := by
  simp only [Chip.latchFault, apply_ite Chip.fld, Chip.wr_fld, Chip.raise_fld, ite_self]
@[simp] theorem Chip.latchFault_odx (c : Chip) (f : Field) (i : Nat) : (c.latchFault f i).odx = c.odx := by
  simp only [Chip.latchFault, apply_ite Chip.odx, Chip.wr_odx, Chip.raise_odx, ite_self]
@[simp] theorem Chip.latchFault_flash (c : Chip) (f : Field) (i : Nat) : (c.latchFault f i).flash = c.flash := by
  simp only [Chip.latchFault, apply_ite Chip.flash, Chip.wr_flash, Chip.raise_flash, ite_self]
@[simp] theorem Chip.latchFault_pwr (c : Chip) (f : Field) (i : Nat) : (c.latchFault f i).pwr = c.pwr := by
  simp only [Chip.latchFault, apply_ite Chip.pwr, Chip.wr_pwr, Chip.raise_pwr, ite_self]
@[simp] theorem Chip.latchFault_gng (c : Chip) (f : Field) (i : Nat) : (c.latchFault f i).gng = c.gng := by
  simp only [Chip.latchFault, apply_ite Chip.gng, Chip.wr_gng, Chip.raise_gng, ite_self]
@[simp] theorem Chip.latchFault_bup (c : Chip) (f : Field) (i : Nat) : (c.latchFault f i).bup = c.bup := by
  simp only [Chip.latchFault, apply_ite Chip.bup, Chip.wr_bup, Chip.raise_bup, ite_self]
@[simp] theorem Chip.latchFault_pkg (c : Chip) (f : Field) (i : Nat) : (c.latchFault f i).pkg = c.pkg := by
  simp only [Chip.latchFault, apply_ite Chip.pkg, Chip.wr_pkg, Chip.raise_pkg, ite_self]
@[simp] theorem Chip.latchFault_isolated (c : Chip) (f : Field) (i : Nat) : (c.latchFault f i).isolated = c.isolated := by
  simp only [Chip.latchFault, apply_ite Chip.isolated, Chip.wr_isolated, Chip.raise_isolated, ite_self]
@[simp] theorem Chip.latchFault_fresh (c : Chip) (f : Field) (i : Nat) : (c.latchFault f i).fresh = c.fresh := by
  simp only [Chip.latchFault, apply_ite Chip.fresh, Chip.wr_fresh, Chip.raise_fresh, ite_self]

/-! ## Chip.setEntry -/

@[simp] theorem Chip.setEntry_regs (c : Chip) (index sub v : Nat) : (c.setEntry index sub v).regs = c.regs := by
  simp only [Chip.setEntry, apply_ite Chip.regs, ite_self]
@[simp] theorem Chip.setEntry_muslin (c : Chip) (index sub v : Nat) : (c.setEntry index sub v).muslin = c.muslin := by
  simp only [Chip.setEntry, apply_ite Chip.muslin, ite_self]
@[simp] theorem Chip.setEntry_host (c : Chip) (index sub v : Nat) : (c.setEntry index sub v).host = c.host := by
  simp only [Chip.setEntry, apply_ite Chip.host, ite_self]
@[simp] theorem Chip.setEntry_tku (c : Chip) (index sub v : Nat) : (c.setEntry index sub v).tku = c.tku := by
  simp only [Chip.setEntry, apply_ite Chip.tku, ite_self]
@[simp] theorem Chip.setEntry_dsp (c : Chip) (index sub v : Nat) : (c.setEntry index sub v).dsp = c.dsp := by
  simp only [Chip.setEntry, apply_ite Chip.dsp, ite_self]
@[simp] theorem Chip.setEntry_qmg (c : Chip) (index sub v : Nat) : (c.setEntry index sub v).qmg = c.qmg := by
  simp only [Chip.setEntry, apply_ite Chip.qmg, ite_self]
@[simp] theorem Chip.setEntry_hif (c : Chip) (index sub v : Nat) : (c.setEntry index sub v).hif = c.hif := by
  simp only [Chip.setEntry, apply_ite Chip.hif, ite_self]
@[simp] theorem Chip.setEntry_msl (c : Chip) (index sub v : Nat) : (c.setEntry index sub v).msl = c.msl := by
  simp only [Chip.setEntry, apply_ite Chip.msl, ite_self]
@[simp] theorem Chip.setEntry_drc (c : Chip) (index sub v : Nat) : (c.setEntry index sub v).drc = c.drc := by
  simp only [Chip.setEntry, apply_ite Chip.drc, ite_self]
@[simp] theorem Chip.setEntry_dmk (c : Chip) (index sub v : Nat) : (c.setEntry index sub v).dmk = c.dmk := by
  simp only [Chip.setEntry, apply_ite Chip.dmk, ite_self]
@[simp] theorem Chip.setEntry_atu (c : Chip) (index sub v : Nat) : (c.setEntry index sub v).atu = c.atu := by
  simp only [Chip.setEntry, apply_ite Chip.atu, ite_self]
@[simp] theorem Chip.setEntry_twl (c : Chip) (index sub v : Nat) : (c.setEntry index sub v).twl = c.twl := by
  simp only [Chip.setEntry, apply_ite Chip.twl, ite_self]
@[simp] theorem Chip.setEntry_gze (c : Chip) (index sub v : Nat) : (c.setEntry index sub v).gze = c.gze := by
  simp only [Chip.setEntry, apply_ite Chip.gze, ite_self]
@[simp] theorem Chip.setEntry_twd (c : Chip) (index sub v : Nat) : (c.setEntry index sub v).twd = c.twd := by
  simp only [Chip.setEntry, apply_ite Chip.twd, ite_self]
@[simp] theorem Chip.setEntry_tul (c : Chip) (index sub v : Nat) : (c.setEntry index sub v).tul = c.tul := by
  simp only [Chip.setEntry, apply_ite Chip.tul, ite_self]
@[simp] theorem Chip.setEntry_cnv (c : Chip) (index sub v : Nat) : (c.setEntry index sub v).cnv = c.cnv := by
  simp only [Chip.setEntry, apply_ite Chip.cnv, ite_self]
@[simp] theorem Chip.setEntry_moved (c : Chip) (index sub v : Nat) : (c.setEntry index sub v).moved = c.moved := by
  simp only [Chip.setEntry, apply_ite Chip.moved, ite_self]
@[simp] theorem Chip.setEntry_jrs (c : Chip) (index sub v : Nat) : (c.setEntry index sub v).jrs = c.jrs := by
  simp only [Chip.setEntry, apply_ite Chip.jrs, ite_self]
@[simp] theorem Chip.setEntry_fld (c : Chip) (index sub v : Nat) : (c.setEntry index sub v).fld = c.fld := by
  simp only [Chip.setEntry, apply_ite Chip.fld, ite_self]
@[simp] theorem Chip.setEntry_odx (c : Chip) (index sub v : Nat) : (c.setEntry index sub v).odx = c.odx := by
  simp only [Chip.setEntry, apply_ite Chip.odx, ite_self]
@[simp] theorem Chip.setEntry_flash (c : Chip) (index sub v : Nat) : (c.setEntry index sub v).flash = c.flash := by
  simp only [Chip.setEntry, apply_ite Chip.flash, ite_self]
@[simp] theorem Chip.setEntry_pwr (c : Chip) (index sub v : Nat) : (c.setEntry index sub v).pwr = c.pwr := by
  simp only [Chip.setEntry, apply_ite Chip.pwr, ite_self]
@[simp] theorem Chip.setEntry_gng (c : Chip) (index sub v : Nat) : (c.setEntry index sub v).gng = c.gng := by
  simp only [Chip.setEntry, apply_ite Chip.gng, ite_self]
@[simp] theorem Chip.setEntry_bup (c : Chip) (index sub v : Nat) : (c.setEntry index sub v).bup = c.bup := by
  simp only [Chip.setEntry, apply_ite Chip.bup, ite_self]
@[simp] theorem Chip.setEntry_pkg (c : Chip) (index sub v : Nat) : (c.setEntry index sub v).pkg = c.pkg := by
  simp only [Chip.setEntry, apply_ite Chip.pkg, ite_self]
@[simp] theorem Chip.setEntry_isolated (c : Chip) (index sub v : Nat) : (c.setEntry index sub v).isolated = c.isolated := by
  simp only [Chip.setEntry, apply_ite Chip.isolated, ite_self]
@[simp] theorem Chip.setEntry_sent (c : Chip) (index sub v : Nat) : (c.setEntry index sub v).sent = c.sent := by
  simp only [Chip.setEntry, apply_ite Chip.sent, ite_self]
@[simp] theorem Chip.setEntry_fresh (c : Chip) (index sub v : Nat) : (c.setEntry index sub v).fresh = c.fresh := by
  simp only [Chip.setEntry, apply_ite Chip.fresh, ite_self]

/-! ## Chip.countEntry -/

@[simp] theorem Chip.countEntry_regs (c : Chip) (index sub n : Nat) : (c.countEntry index sub n).regs = c.regs := by
  simp only [Chip.countEntry, Chip.setEntry_regs]
@[simp] theorem Chip.countEntry_muslin (c : Chip) (index sub n : Nat) : (c.countEntry index sub n).muslin = c.muslin := by
  simp only [Chip.countEntry, Chip.setEntry_muslin]
@[simp] theorem Chip.countEntry_host (c : Chip) (index sub n : Nat) : (c.countEntry index sub n).host = c.host := by
  simp only [Chip.countEntry, Chip.setEntry_host]
@[simp] theorem Chip.countEntry_tku (c : Chip) (index sub n : Nat) : (c.countEntry index sub n).tku = c.tku := by
  simp only [Chip.countEntry, Chip.setEntry_tku]
@[simp] theorem Chip.countEntry_dsp (c : Chip) (index sub n : Nat) : (c.countEntry index sub n).dsp = c.dsp := by
  simp only [Chip.countEntry, Chip.setEntry_dsp]
@[simp] theorem Chip.countEntry_qmg (c : Chip) (index sub n : Nat) : (c.countEntry index sub n).qmg = c.qmg := by
  simp only [Chip.countEntry, Chip.setEntry_qmg]
@[simp] theorem Chip.countEntry_hif (c : Chip) (index sub n : Nat) : (c.countEntry index sub n).hif = c.hif := by
  simp only [Chip.countEntry, Chip.setEntry_hif]
@[simp] theorem Chip.countEntry_msl (c : Chip) (index sub n : Nat) : (c.countEntry index sub n).msl = c.msl := by
  simp only [Chip.countEntry, Chip.setEntry_msl]
@[simp] theorem Chip.countEntry_drc (c : Chip) (index sub n : Nat) : (c.countEntry index sub n).drc = c.drc := by
  simp only [Chip.countEntry, Chip.setEntry_drc]
@[simp] theorem Chip.countEntry_dmk (c : Chip) (index sub n : Nat) : (c.countEntry index sub n).dmk = c.dmk := by
  simp only [Chip.countEntry, Chip.setEntry_dmk]
@[simp] theorem Chip.countEntry_atu (c : Chip) (index sub n : Nat) : (c.countEntry index sub n).atu = c.atu := by
  simp only [Chip.countEntry, Chip.setEntry_atu]
@[simp] theorem Chip.countEntry_twl (c : Chip) (index sub n : Nat) : (c.countEntry index sub n).twl = c.twl := by
  simp only [Chip.countEntry, Chip.setEntry_twl]
@[simp] theorem Chip.countEntry_gze (c : Chip) (index sub n : Nat) : (c.countEntry index sub n).gze = c.gze := by
  simp only [Chip.countEntry, Chip.setEntry_gze]
@[simp] theorem Chip.countEntry_twd (c : Chip) (index sub n : Nat) : (c.countEntry index sub n).twd = c.twd := by
  simp only [Chip.countEntry, Chip.setEntry_twd]
@[simp] theorem Chip.countEntry_tul (c : Chip) (index sub n : Nat) : (c.countEntry index sub n).tul = c.tul := by
  simp only [Chip.countEntry, Chip.setEntry_tul]
@[simp] theorem Chip.countEntry_cnv (c : Chip) (index sub n : Nat) : (c.countEntry index sub n).cnv = c.cnv := by
  simp only [Chip.countEntry, Chip.setEntry_cnv]
@[simp] theorem Chip.countEntry_moved (c : Chip) (index sub n : Nat) : (c.countEntry index sub n).moved = c.moved := by
  simp only [Chip.countEntry, Chip.setEntry_moved]
@[simp] theorem Chip.countEntry_jrs (c : Chip) (index sub n : Nat) : (c.countEntry index sub n).jrs = c.jrs := by
  simp only [Chip.countEntry, Chip.setEntry_jrs]
@[simp] theorem Chip.countEntry_fld (c : Chip) (index sub n : Nat) : (c.countEntry index sub n).fld = c.fld := by
  simp only [Chip.countEntry, Chip.setEntry_fld]
@[simp] theorem Chip.countEntry_odx (c : Chip) (index sub n : Nat) : (c.countEntry index sub n).odx = c.odx := by
  simp only [Chip.countEntry, Chip.setEntry_odx]
@[simp] theorem Chip.countEntry_flash (c : Chip) (index sub n : Nat) : (c.countEntry index sub n).flash = c.flash := by
  simp only [Chip.countEntry, Chip.setEntry_flash]
@[simp] theorem Chip.countEntry_pwr (c : Chip) (index sub n : Nat) : (c.countEntry index sub n).pwr = c.pwr := by
  simp only [Chip.countEntry, Chip.setEntry_pwr]
@[simp] theorem Chip.countEntry_gng (c : Chip) (index sub n : Nat) : (c.countEntry index sub n).gng = c.gng := by
  simp only [Chip.countEntry, Chip.setEntry_gng]
@[simp] theorem Chip.countEntry_bup (c : Chip) (index sub n : Nat) : (c.countEntry index sub n).bup = c.bup := by
  simp only [Chip.countEntry, Chip.setEntry_bup]
@[simp] theorem Chip.countEntry_pkg (c : Chip) (index sub n : Nat) : (c.countEntry index sub n).pkg = c.pkg := by
  simp only [Chip.countEntry, Chip.setEntry_pkg]
@[simp] theorem Chip.countEntry_isolated (c : Chip) (index sub n : Nat) : (c.countEntry index sub n).isolated = c.isolated := by
  simp only [Chip.countEntry, Chip.setEntry_isolated]
@[simp] theorem Chip.countEntry_sent (c : Chip) (index sub n : Nat) : (c.countEntry index sub n).sent = c.sent := by
  simp only [Chip.countEntry, Chip.setEntry_sent]
@[simp] theorem Chip.countEntry_fresh (c : Chip) (index sub n : Nat) : (c.countEntry index sub n).fresh = c.fresh := by
  simp only [Chip.countEntry, Chip.setEntry_fresh]

/-! ## Chip.advanceTo -/

@[simp] theorem Chip.advanceTo_regs (c : Chip) (t : Nat) : (c.advanceTo t).regs = c.regs := by
  simp only [Chip.advanceTo, apply_ite Chip.regs, ite_self]
@[simp] theorem Chip.advanceTo_dict (c : Chip) (t : Nat) : (c.advanceTo t).dict = c.dict := by
  simp only [Chip.advanceTo, apply_ite Chip.dict, ite_self]
@[simp] theorem Chip.advanceTo_muslin (c : Chip) (t : Nat) : (c.advanceTo t).muslin = c.muslin := by
  simp only [Chip.advanceTo, apply_ite Chip.muslin, ite_self]
@[simp] theorem Chip.advanceTo_host (c : Chip) (t : Nat) : (c.advanceTo t).host = c.host := by
  simp only [Chip.advanceTo, apply_ite Chip.host, ite_self]
@[simp] theorem Chip.advanceTo_dsp (c : Chip) (t : Nat) : (c.advanceTo t).dsp = c.dsp := by
  simp only [Chip.advanceTo, apply_ite Chip.dsp, ite_self]
@[simp] theorem Chip.advanceTo_qmg (c : Chip) (t : Nat) : (c.advanceTo t).qmg = c.qmg := by
  simp only [Chip.advanceTo, apply_ite Chip.qmg, ite_self]
@[simp] theorem Chip.advanceTo_hif (c : Chip) (t : Nat) : (c.advanceTo t).hif = c.hif := by
  simp only [Chip.advanceTo, apply_ite Chip.hif, ite_self]
@[simp] theorem Chip.advanceTo_msl (c : Chip) (t : Nat) : (c.advanceTo t).msl = c.msl := by
  simp only [Chip.advanceTo, apply_ite Chip.msl, ite_self]
@[simp] theorem Chip.advanceTo_drc (c : Chip) (t : Nat) : (c.advanceTo t).drc = c.drc := by
  simp only [Chip.advanceTo, apply_ite Chip.drc, ite_self]
@[simp] theorem Chip.advanceTo_dmk (c : Chip) (t : Nat) : (c.advanceTo t).dmk = c.dmk := by
  simp only [Chip.advanceTo, apply_ite Chip.dmk, ite_self]
@[simp] theorem Chip.advanceTo_atu (c : Chip) (t : Nat) : (c.advanceTo t).atu = c.atu := by
  simp only [Chip.advanceTo, apply_ite Chip.atu, ite_self]
@[simp] theorem Chip.advanceTo_twl (c : Chip) (t : Nat) : (c.advanceTo t).twl = c.twl := by
  simp only [Chip.advanceTo, apply_ite Chip.twl, ite_self]
@[simp] theorem Chip.advanceTo_gze (c : Chip) (t : Nat) : (c.advanceTo t).gze = c.gze := by
  simp only [Chip.advanceTo, apply_ite Chip.gze, ite_self]
@[simp] theorem Chip.advanceTo_twd (c : Chip) (t : Nat) : (c.advanceTo t).twd = c.twd := by
  simp only [Chip.advanceTo, apply_ite Chip.twd, ite_self]
@[simp] theorem Chip.advanceTo_tul (c : Chip) (t : Nat) : (c.advanceTo t).tul = c.tul := by
  simp only [Chip.advanceTo, apply_ite Chip.tul, ite_self]
@[simp] theorem Chip.advanceTo_cnv (c : Chip) (t : Nat) : (c.advanceTo t).cnv = c.cnv := by
  simp only [Chip.advanceTo, apply_ite Chip.cnv, ite_self]
@[simp] theorem Chip.advanceTo_moved (c : Chip) (t : Nat) : (c.advanceTo t).moved = c.moved := by
  simp only [Chip.advanceTo, apply_ite Chip.moved, ite_self]
@[simp] theorem Chip.advanceTo_jrs (c : Chip) (t : Nat) : (c.advanceTo t).jrs = c.jrs := by
  simp only [Chip.advanceTo, apply_ite Chip.jrs, ite_self]
@[simp] theorem Chip.advanceTo_fld (c : Chip) (t : Nat) : (c.advanceTo t).fld = c.fld := by
  simp only [Chip.advanceTo, apply_ite Chip.fld, ite_self]
@[simp] theorem Chip.advanceTo_odx (c : Chip) (t : Nat) : (c.advanceTo t).odx = c.odx := by
  simp only [Chip.advanceTo, apply_ite Chip.odx, ite_self]
@[simp] theorem Chip.advanceTo_flash (c : Chip) (t : Nat) : (c.advanceTo t).flash = c.flash := by
  simp only [Chip.advanceTo, apply_ite Chip.flash, ite_self]
@[simp] theorem Chip.advanceTo_pwr (c : Chip) (t : Nat) : (c.advanceTo t).pwr = c.pwr := by
  simp only [Chip.advanceTo, apply_ite Chip.pwr, ite_self]
@[simp] theorem Chip.advanceTo_gng (c : Chip) (t : Nat) : (c.advanceTo t).gng = c.gng := by
  simp only [Chip.advanceTo, apply_ite Chip.gng, ite_self]
@[simp] theorem Chip.advanceTo_bup (c : Chip) (t : Nat) : (c.advanceTo t).bup = c.bup := by
  simp only [Chip.advanceTo, apply_ite Chip.bup, ite_self]
@[simp] theorem Chip.advanceTo_pkg (c : Chip) (t : Nat) : (c.advanceTo t).pkg = c.pkg := by
  simp only [Chip.advanceTo, apply_ite Chip.pkg, ite_self]
@[simp] theorem Chip.advanceTo_isolated (c : Chip) (t : Nat) : (c.advanceTo t).isolated = c.isolated := by
  simp only [Chip.advanceTo, apply_ite Chip.isolated, ite_self]
@[simp] theorem Chip.advanceTo_sent (c : Chip) (t : Nat) : (c.advanceTo t).sent = c.sent := by
  simp only [Chip.advanceTo, apply_ite Chip.sent, ite_self]
@[simp] theorem Chip.advanceTo_fresh (c : Chip) (t : Nat) : (c.advanceTo t).fresh = c.fresh := by
  simp only [Chip.advanceTo, apply_ite Chip.fresh, ite_self]

/-! ## Chip.setGroup -/

@[simp] theorem Chip.setGroup_regs (c : Chip) (g : Nat) (f : Group → Group) : (c.setGroup g f).regs = c.regs := rfl
@[simp] theorem Chip.setGroup_dict (c : Chip) (g : Nat) (f : Group → Group) : (c.setGroup g f).dict = c.dict := rfl
@[simp] theorem Chip.setGroup_muslin (c : Chip) (g : Nat) (f : Group → Group) : (c.setGroup g f).muslin = c.muslin := rfl
@[simp] theorem Chip.setGroup_host (c : Chip) (g : Nat) (f : Group → Group) : (c.setGroup g f).host = c.host := rfl
@[simp] theorem Chip.setGroup_tku (c : Chip) (g : Nat) (f : Group → Group) : (c.setGroup g f).tku = c.tku := rfl
@[simp] theorem Chip.setGroup_dsp (c : Chip) (g : Nat) (f : Group → Group) : (c.setGroup g f).dsp = c.dsp := rfl
@[simp] theorem Chip.setGroup_qmg (c : Chip) (g : Nat) (f : Group → Group) : (c.setGroup g f).qmg = c.qmg := rfl
@[simp] theorem Chip.setGroup_hif (c : Chip) (g : Nat) (f : Group → Group) : (c.setGroup g f).hif = c.hif := rfl
@[simp] theorem Chip.setGroup_drc (c : Chip) (g : Nat) (f : Group → Group) : (c.setGroup g f).drc = c.drc := rfl
@[simp] theorem Chip.setGroup_dmk (c : Chip) (g : Nat) (f : Group → Group) : (c.setGroup g f).dmk = c.dmk := rfl
@[simp] theorem Chip.setGroup_atu (c : Chip) (g : Nat) (f : Group → Group) : (c.setGroup g f).atu = c.atu := rfl
@[simp] theorem Chip.setGroup_twl (c : Chip) (g : Nat) (f : Group → Group) : (c.setGroup g f).twl = c.twl := rfl
@[simp] theorem Chip.setGroup_gze (c : Chip) (g : Nat) (f : Group → Group) : (c.setGroup g f).gze = c.gze := rfl
@[simp] theorem Chip.setGroup_twd (c : Chip) (g : Nat) (f : Group → Group) : (c.setGroup g f).twd = c.twd := rfl
@[simp] theorem Chip.setGroup_tul (c : Chip) (g : Nat) (f : Group → Group) : (c.setGroup g f).tul = c.tul := rfl
@[simp] theorem Chip.setGroup_cnv (c : Chip) (g : Nat) (f : Group → Group) : (c.setGroup g f).cnv = c.cnv := rfl
@[simp] theorem Chip.setGroup_moved (c : Chip) (g : Nat) (f : Group → Group) : (c.setGroup g f).moved = c.moved := rfl
@[simp] theorem Chip.setGroup_jrs (c : Chip) (g : Nat) (f : Group → Group) : (c.setGroup g f).jrs = c.jrs := rfl
@[simp] theorem Chip.setGroup_fld (c : Chip) (g : Nat) (f : Group → Group) : (c.setGroup g f).fld = c.fld := rfl
@[simp] theorem Chip.setGroup_odx (c : Chip) (g : Nat) (f : Group → Group) : (c.setGroup g f).odx = c.odx := rfl
@[simp] theorem Chip.setGroup_flash (c : Chip) (g : Nat) (f : Group → Group) : (c.setGroup g f).flash = c.flash := rfl
@[simp] theorem Chip.setGroup_pwr (c : Chip) (g : Nat) (f : Group → Group) : (c.setGroup g f).pwr = c.pwr := rfl
@[simp] theorem Chip.setGroup_gng (c : Chip) (g : Nat) (f : Group → Group) : (c.setGroup g f).gng = c.gng := rfl
@[simp] theorem Chip.setGroup_bup (c : Chip) (g : Nat) (f : Group → Group) : (c.setGroup g f).bup = c.bup := rfl
@[simp] theorem Chip.setGroup_pkg (c : Chip) (g : Nat) (f : Group → Group) : (c.setGroup g f).pkg = c.pkg := rfl
@[simp] theorem Chip.setGroup_isolated (c : Chip) (g : Nat) (f : Group → Group) : (c.setGroup g f).isolated = c.isolated := rfl
@[simp] theorem Chip.setGroup_sent (c : Chip) (g : Nat) (f : Group → Group) : (c.setGroup g f).sent = c.sent := rfl
@[simp] theorem Chip.setGroup_fresh (c : Chip) (g : Nat) (f : Group → Group) : (c.setGroup g f).fresh = c.fresh := rfl

/-! ## Chip.setDomainState -/

@[simp] theorem Chip.setDomainState_dict (c : Chip) (d v : Nat) : (c.setDomainState d v).dict = c.dict := by
  simp only [Chip.setDomainState, apply_ite Chip.dict, Chip.wr_dict, ite_self]
@[simp] theorem Chip.setDomainState_muslin (c : Chip) (d v : Nat) : (c.setDomainState d v).muslin = c.muslin := by
  simp only [Chip.setDomainState, apply_ite Chip.muslin, Chip.wr_muslin, ite_self]
@[simp] theorem Chip.setDomainState_host (c : Chip) (d v : Nat) : (c.setDomainState d v).host = c.host := by
  simp only [Chip.setDomainState, apply_ite Chip.host, Chip.wr_host, ite_self]
@[simp] theorem Chip.setDomainState_tku (c : Chip) (d v : Nat) : (c.setDomainState d v).tku = c.tku := by
  simp only [Chip.setDomainState, apply_ite Chip.tku, Chip.wr_tku, ite_self]
@[simp] theorem Chip.setDomainState_dsp (c : Chip) (d v : Nat) : (c.setDomainState d v).dsp = c.dsp := by
  simp only [Chip.setDomainState, apply_ite Chip.dsp, Chip.wr_dsp, ite_self]
@[simp] theorem Chip.setDomainState_qmg (c : Chip) (d v : Nat) : (c.setDomainState d v).qmg = c.qmg := by
  simp only [Chip.setDomainState, apply_ite Chip.qmg, Chip.wr_qmg, ite_self]
@[simp] theorem Chip.setDomainState_hif (c : Chip) (d v : Nat) : (c.setDomainState d v).hif = c.hif := by
  simp only [Chip.setDomainState, apply_ite Chip.hif, Chip.wr_hif, ite_self]
@[simp] theorem Chip.setDomainState_msl (c : Chip) (d v : Nat) : (c.setDomainState d v).msl = c.msl := by
  simp only [Chip.setDomainState, apply_ite Chip.msl, Chip.wr_msl, ite_self]
@[simp] theorem Chip.setDomainState_drc (c : Chip) (d v : Nat) : (c.setDomainState d v).drc = c.drc := by
  simp only [Chip.setDomainState, apply_ite Chip.drc, Chip.wr_drc, ite_self]
@[simp] theorem Chip.setDomainState_dmk (c : Chip) (d v : Nat) : (c.setDomainState d v).dmk = c.dmk := by
  simp only [Chip.setDomainState, apply_ite Chip.dmk, Chip.wr_dmk, ite_self]
@[simp] theorem Chip.setDomainState_atu (c : Chip) (d v : Nat) : (c.setDomainState d v).atu = c.atu := by
  simp only [Chip.setDomainState, apply_ite Chip.atu, Chip.wr_atu, ite_self]
@[simp] theorem Chip.setDomainState_twl (c : Chip) (d v : Nat) : (c.setDomainState d v).twl = c.twl := by
  simp only [Chip.setDomainState, apply_ite Chip.twl, Chip.wr_twl, ite_self]
@[simp] theorem Chip.setDomainState_gze (c : Chip) (d v : Nat) : (c.setDomainState d v).gze = c.gze := by
  simp only [Chip.setDomainState, apply_ite Chip.gze, Chip.wr_gze, ite_self]
@[simp] theorem Chip.setDomainState_twd (c : Chip) (d v : Nat) : (c.setDomainState d v).twd = c.twd := by
  simp only [Chip.setDomainState, apply_ite Chip.twd, Chip.wr_twd, ite_self]
@[simp] theorem Chip.setDomainState_tul (c : Chip) (d v : Nat) : (c.setDomainState d v).tul = c.tul := by
  simp only [Chip.setDomainState, apply_ite Chip.tul, Chip.wr_tul, ite_self]
@[simp] theorem Chip.setDomainState_cnv (c : Chip) (d v : Nat) : (c.setDomainState d v).cnv = c.cnv := by
  simp only [Chip.setDomainState, apply_ite Chip.cnv, Chip.wr_cnv, ite_self]
@[simp] theorem Chip.setDomainState_moved (c : Chip) (d v : Nat) : (c.setDomainState d v).moved = c.moved := by
  simp only [Chip.setDomainState, apply_ite Chip.moved, Chip.wr_moved, ite_self]
@[simp] theorem Chip.setDomainState_jrs (c : Chip) (d v : Nat) : (c.setDomainState d v).jrs = c.jrs := by
  simp only [Chip.setDomainState, apply_ite Chip.jrs, Chip.wr_jrs, ite_self]
@[simp] theorem Chip.setDomainState_fld (c : Chip) (d v : Nat) : (c.setDomainState d v).fld = c.fld := by
  simp only [Chip.setDomainState, apply_ite Chip.fld, Chip.wr_fld, ite_self]
@[simp] theorem Chip.setDomainState_odx (c : Chip) (d v : Nat) : (c.setDomainState d v).odx = c.odx := by
  simp only [Chip.setDomainState, apply_ite Chip.odx, Chip.wr_odx, ite_self]
@[simp] theorem Chip.setDomainState_flash (c : Chip) (d v : Nat) : (c.setDomainState d v).flash = c.flash := by
  simp only [Chip.setDomainState, apply_ite Chip.flash, Chip.wr_flash, ite_self]
@[simp] theorem Chip.setDomainState_pwr (c : Chip) (d v : Nat) : (c.setDomainState d v).pwr = c.pwr := by
  simp only [Chip.setDomainState, apply_ite Chip.pwr, Chip.wr_pwr, ite_self]
@[simp] theorem Chip.setDomainState_gng (c : Chip) (d v : Nat) : (c.setDomainState d v).gng = c.gng := by
  simp only [Chip.setDomainState, apply_ite Chip.gng, Chip.wr_gng, ite_self]
@[simp] theorem Chip.setDomainState_bup (c : Chip) (d v : Nat) : (c.setDomainState d v).bup = c.bup := by
  simp only [Chip.setDomainState, apply_ite Chip.bup, Chip.wr_bup, ite_self]
@[simp] theorem Chip.setDomainState_pkg (c : Chip) (d v : Nat) : (c.setDomainState d v).pkg = c.pkg := by
  simp only [Chip.setDomainState, apply_ite Chip.pkg, Chip.wr_pkg, ite_self]
@[simp] theorem Chip.setDomainState_isolated (c : Chip) (d v : Nat) : (c.setDomainState d v).isolated = c.isolated := by
  simp only [Chip.setDomainState, apply_ite Chip.isolated, Chip.wr_isolated, ite_self]
@[simp] theorem Chip.setDomainState_sent (c : Chip) (d v : Nat) : (c.setDomainState d v).sent = c.sent := by
  simp only [Chip.setDomainState, apply_ite Chip.sent, Chip.wr_sent, ite_self]
@[simp] theorem Chip.setDomainState_fresh (c : Chip) (d v : Nat) : (c.setDomainState d v).fresh = c.fresh := by
  simp only [Chip.setDomainState, apply_ite Chip.fresh, Chip.wr_fresh, ite_self]

/-! ## Chip.setPhase -/

@[simp] theorem Chip.setPhase_dict (c : Chip) (g : Nat) (p : GroupPhase) : (c.setPhase g p).dict = c.dict := by
  simp only [Chip.setPhase, Chip.wr_dict, Chip.setDomainState_dict, Chip.setGroup_dict]
@[simp] theorem Chip.setPhase_muslin (c : Chip) (g : Nat) (p : GroupPhase) : (c.setPhase g p).muslin = c.muslin := by
  simp only [Chip.setPhase, Chip.wr_muslin, Chip.setDomainState_muslin, Chip.setGroup_muslin]
@[simp] theorem Chip.setPhase_host (c : Chip) (g : Nat) (p : GroupPhase) : (c.setPhase g p).host = c.host := by
  simp only [Chip.setPhase, Chip.wr_host, Chip.setDomainState_host, Chip.setGroup_host]
@[simp] theorem Chip.setPhase_tku (c : Chip) (g : Nat) (p : GroupPhase) : (c.setPhase g p).tku = c.tku := by
  simp only [Chip.setPhase, Chip.wr_tku, Chip.setDomainState_tku, Chip.setGroup_tku]
@[simp] theorem Chip.setPhase_dsp (c : Chip) (g : Nat) (p : GroupPhase) : (c.setPhase g p).dsp = c.dsp := by
  simp only [Chip.setPhase, Chip.wr_dsp, Chip.setDomainState_dsp, Chip.setGroup_dsp]
@[simp] theorem Chip.setPhase_qmg (c : Chip) (g : Nat) (p : GroupPhase) : (c.setPhase g p).qmg = c.qmg := by
  simp only [Chip.setPhase, Chip.wr_qmg, Chip.setDomainState_qmg, Chip.setGroup_qmg]
@[simp] theorem Chip.setPhase_hif (c : Chip) (g : Nat) (p : GroupPhase) : (c.setPhase g p).hif = c.hif := by
  simp only [Chip.setPhase, Chip.wr_hif, Chip.setDomainState_hif, Chip.setGroup_hif]
@[simp] theorem Chip.setPhase_drc (c : Chip) (g : Nat) (p : GroupPhase) : (c.setPhase g p).drc = c.drc := by
  simp only [Chip.setPhase, Chip.wr_drc, Chip.setDomainState_drc, Chip.setGroup_drc]
@[simp] theorem Chip.setPhase_dmk (c : Chip) (g : Nat) (p : GroupPhase) : (c.setPhase g p).dmk = c.dmk := by
  simp only [Chip.setPhase, Chip.wr_dmk, Chip.setDomainState_dmk, Chip.setGroup_dmk]
@[simp] theorem Chip.setPhase_atu (c : Chip) (g : Nat) (p : GroupPhase) : (c.setPhase g p).atu = c.atu := by
  simp only [Chip.setPhase, Chip.wr_atu, Chip.setDomainState_atu, Chip.setGroup_atu]
@[simp] theorem Chip.setPhase_twl (c : Chip) (g : Nat) (p : GroupPhase) : (c.setPhase g p).twl = c.twl := by
  simp only [Chip.setPhase, Chip.wr_twl, Chip.setDomainState_twl, Chip.setGroup_twl]
@[simp] theorem Chip.setPhase_gze (c : Chip) (g : Nat) (p : GroupPhase) : (c.setPhase g p).gze = c.gze := by
  simp only [Chip.setPhase, Chip.wr_gze, Chip.setDomainState_gze, Chip.setGroup_gze]
@[simp] theorem Chip.setPhase_twd (c : Chip) (g : Nat) (p : GroupPhase) : (c.setPhase g p).twd = c.twd := by
  simp only [Chip.setPhase, Chip.wr_twd, Chip.setDomainState_twd, Chip.setGroup_twd]
@[simp] theorem Chip.setPhase_tul (c : Chip) (g : Nat) (p : GroupPhase) : (c.setPhase g p).tul = c.tul := by
  simp only [Chip.setPhase, Chip.wr_tul, Chip.setDomainState_tul, Chip.setGroup_tul]
@[simp] theorem Chip.setPhase_cnv (c : Chip) (g : Nat) (p : GroupPhase) : (c.setPhase g p).cnv = c.cnv := by
  simp only [Chip.setPhase, Chip.wr_cnv, Chip.setDomainState_cnv, Chip.setGroup_cnv]
@[simp] theorem Chip.setPhase_moved (c : Chip) (g : Nat) (p : GroupPhase) : (c.setPhase g p).moved = c.moved := by
  simp only [Chip.setPhase, Chip.wr_moved, Chip.setDomainState_moved, Chip.setGroup_moved]
@[simp] theorem Chip.setPhase_jrs (c : Chip) (g : Nat) (p : GroupPhase) : (c.setPhase g p).jrs = c.jrs := by
  simp only [Chip.setPhase, Chip.wr_jrs, Chip.setDomainState_jrs, Chip.setGroup_jrs]
@[simp] theorem Chip.setPhase_fld (c : Chip) (g : Nat) (p : GroupPhase) : (c.setPhase g p).fld = c.fld := by
  simp only [Chip.setPhase, Chip.wr_fld, Chip.setDomainState_fld, Chip.setGroup_fld]
@[simp] theorem Chip.setPhase_odx (c : Chip) (g : Nat) (p : GroupPhase) : (c.setPhase g p).odx = c.odx := by
  simp only [Chip.setPhase, Chip.wr_odx, Chip.setDomainState_odx, Chip.setGroup_odx]
@[simp] theorem Chip.setPhase_flash (c : Chip) (g : Nat) (p : GroupPhase) : (c.setPhase g p).flash = c.flash := by
  simp only [Chip.setPhase, Chip.wr_flash, Chip.setDomainState_flash, Chip.setGroup_flash]
@[simp] theorem Chip.setPhase_pwr (c : Chip) (g : Nat) (p : GroupPhase) : (c.setPhase g p).pwr = c.pwr := by
  simp only [Chip.setPhase, Chip.wr_pwr, Chip.setDomainState_pwr, Chip.setGroup_pwr]
@[simp] theorem Chip.setPhase_gng (c : Chip) (g : Nat) (p : GroupPhase) : (c.setPhase g p).gng = c.gng := by
  simp only [Chip.setPhase, Chip.wr_gng, Chip.setDomainState_gng, Chip.setGroup_gng]
@[simp] theorem Chip.setPhase_bup (c : Chip) (g : Nat) (p : GroupPhase) : (c.setPhase g p).bup = c.bup := by
  simp only [Chip.setPhase, Chip.wr_bup, Chip.setDomainState_bup, Chip.setGroup_bup]
@[simp] theorem Chip.setPhase_pkg (c : Chip) (g : Nat) (p : GroupPhase) : (c.setPhase g p).pkg = c.pkg := by
  simp only [Chip.setPhase, Chip.wr_pkg, Chip.setDomainState_pkg, Chip.setGroup_pkg]
@[simp] theorem Chip.setPhase_isolated (c : Chip) (g : Nat) (p : GroupPhase) : (c.setPhase g p).isolated = c.isolated := by
  simp only [Chip.setPhase, Chip.wr_isolated, Chip.setDomainState_isolated, Chip.setGroup_isolated]
@[simp] theorem Chip.setPhase_sent (c : Chip) (g : Nat) (p : GroupPhase) : (c.setPhase g p).sent = c.sent := by
  simp only [Chip.setPhase, Chip.wr_sent, Chip.setDomainState_sent, Chip.setGroup_sent]
@[simp] theorem Chip.setPhase_fresh (c : Chip) (g : Nat) (p : GroupPhase) : (c.setPhase g p).fresh = c.fresh := by
  simp only [Chip.setPhase, Chip.wr_fresh, Chip.setDomainState_fresh, Chip.setGroup_fresh]

/-! ## Chip.isolateGroup -/

@[simp] theorem Chip.isolateGroup_regs (c : Chip) (g : Nat) : (c.isolateGroup g).regs = c.regs := rfl
@[simp] theorem Chip.isolateGroup_dict (c : Chip) (g : Nat) : (c.isolateGroup g).dict = c.dict := rfl
@[simp] theorem Chip.isolateGroup_muslin (c : Chip) (g : Nat) : (c.isolateGroup g).muslin = c.muslin := rfl
@[simp] theorem Chip.isolateGroup_host (c : Chip) (g : Nat) : (c.isolateGroup g).host = c.host := rfl
@[simp] theorem Chip.isolateGroup_tku (c : Chip) (g : Nat) : (c.isolateGroup g).tku = c.tku := rfl
@[simp] theorem Chip.isolateGroup_dsp (c : Chip) (g : Nat) : (c.isolateGroup g).dsp = c.dsp := rfl
@[simp] theorem Chip.isolateGroup_qmg (c : Chip) (g : Nat) : (c.isolateGroup g).qmg = c.qmg := rfl
@[simp] theorem Chip.isolateGroup_hif (c : Chip) (g : Nat) : (c.isolateGroup g).hif = c.hif := rfl
@[simp] theorem Chip.isolateGroup_drc (c : Chip) (g : Nat) : (c.isolateGroup g).drc = c.drc := rfl
@[simp] theorem Chip.isolateGroup_dmk (c : Chip) (g : Nat) : (c.isolateGroup g).dmk = c.dmk := rfl
@[simp] theorem Chip.isolateGroup_atu (c : Chip) (g : Nat) : (c.isolateGroup g).atu = c.atu := rfl
@[simp] theorem Chip.isolateGroup_twl (c : Chip) (g : Nat) : (c.isolateGroup g).twl = c.twl := rfl
@[simp] theorem Chip.isolateGroup_gze (c : Chip) (g : Nat) : (c.isolateGroup g).gze = c.gze := rfl
@[simp] theorem Chip.isolateGroup_twd (c : Chip) (g : Nat) : (c.isolateGroup g).twd = c.twd := rfl
@[simp] theorem Chip.isolateGroup_tul (c : Chip) (g : Nat) : (c.isolateGroup g).tul = c.tul := rfl
@[simp] theorem Chip.isolateGroup_cnv (c : Chip) (g : Nat) : (c.isolateGroup g).cnv = c.cnv := rfl
@[simp] theorem Chip.isolateGroup_moved (c : Chip) (g : Nat) : (c.isolateGroup g).moved = c.moved := rfl
@[simp] theorem Chip.isolateGroup_jrs (c : Chip) (g : Nat) : (c.isolateGroup g).jrs = c.jrs := rfl
@[simp] theorem Chip.isolateGroup_fld (c : Chip) (g : Nat) : (c.isolateGroup g).fld = c.fld := rfl
@[simp] theorem Chip.isolateGroup_odx (c : Chip) (g : Nat) : (c.isolateGroup g).odx = c.odx := rfl
@[simp] theorem Chip.isolateGroup_flash (c : Chip) (g : Nat) : (c.isolateGroup g).flash = c.flash := rfl
@[simp] theorem Chip.isolateGroup_pwr (c : Chip) (g : Nat) : (c.isolateGroup g).pwr = c.pwr := rfl
@[simp] theorem Chip.isolateGroup_gng (c : Chip) (g : Nat) : (c.isolateGroup g).gng = c.gng := rfl
@[simp] theorem Chip.isolateGroup_bup (c : Chip) (g : Nat) : (c.isolateGroup g).bup = c.bup := rfl
@[simp] theorem Chip.isolateGroup_pkg (c : Chip) (g : Nat) : (c.isolateGroup g).pkg = c.pkg := rfl
@[simp] theorem Chip.isolateGroup_isolated (c : Chip) (g : Nat) : (c.isolateGroup g).isolated = c.isolated := rfl
@[simp] theorem Chip.isolateGroup_sent (c : Chip) (g : Nat) : (c.isolateGroup g).sent = c.sent := rfl
@[simp] theorem Chip.isolateGroup_fresh (c : Chip) (g : Nat) : (c.isolateGroup g).fresh = c.fresh := rfl

/-! ## Chip.wakeGroup -/

@[simp] theorem Chip.wakeGroup_dict (c : Chip) (g : Nat) : (c.wakeGroup g).dict = c.dict := by
  unfold Chip.wakeGroup; split <;> (try split) <;> simp only [Chip.setPhase_dict, Chip.isolateGroup_dict]
@[simp] theorem Chip.wakeGroup_muslin (c : Chip) (g : Nat) : (c.wakeGroup g).muslin = c.muslin := by
  unfold Chip.wakeGroup; split <;> (try split) <;> simp only [Chip.setPhase_muslin, Chip.isolateGroup_muslin]
@[simp] theorem Chip.wakeGroup_host (c : Chip) (g : Nat) : (c.wakeGroup g).host = c.host := by
  unfold Chip.wakeGroup; split <;> (try split) <;> simp only [Chip.setPhase_host, Chip.isolateGroup_host]
@[simp] theorem Chip.wakeGroup_tku (c : Chip) (g : Nat) : (c.wakeGroup g).tku = c.tku := by
  unfold Chip.wakeGroup; split <;> (try split) <;> simp only [Chip.setPhase_tku, Chip.isolateGroup_tku]
@[simp] theorem Chip.wakeGroup_dsp (c : Chip) (g : Nat) : (c.wakeGroup g).dsp = c.dsp := by
  unfold Chip.wakeGroup; split <;> (try split) <;> simp only [Chip.setPhase_dsp, Chip.isolateGroup_dsp]
@[simp] theorem Chip.wakeGroup_qmg (c : Chip) (g : Nat) : (c.wakeGroup g).qmg = c.qmg := by
  unfold Chip.wakeGroup; split <;> (try split) <;> simp only [Chip.setPhase_qmg, Chip.isolateGroup_qmg]
@[simp] theorem Chip.wakeGroup_hif (c : Chip) (g : Nat) : (c.wakeGroup g).hif = c.hif := by
  unfold Chip.wakeGroup; split <;> (try split) <;> simp only [Chip.setPhase_hif, Chip.isolateGroup_hif]
@[simp] theorem Chip.wakeGroup_drc (c : Chip) (g : Nat) : (c.wakeGroup g).drc = c.drc := by
  unfold Chip.wakeGroup; split <;> (try split) <;> simp only [Chip.setPhase_drc, Chip.isolateGroup_drc]
@[simp] theorem Chip.wakeGroup_dmk (c : Chip) (g : Nat) : (c.wakeGroup g).dmk = c.dmk := by
  unfold Chip.wakeGroup; split <;> (try split) <;> simp only [Chip.setPhase_dmk, Chip.isolateGroup_dmk]
@[simp] theorem Chip.wakeGroup_atu (c : Chip) (g : Nat) : (c.wakeGroup g).atu = c.atu := by
  unfold Chip.wakeGroup; split <;> (try split) <;> simp only [Chip.setPhase_atu, Chip.isolateGroup_atu]
@[simp] theorem Chip.wakeGroup_twl (c : Chip) (g : Nat) : (c.wakeGroup g).twl = c.twl := by
  unfold Chip.wakeGroup; split <;> (try split) <;> simp only [Chip.setPhase_twl, Chip.isolateGroup_twl]
@[simp] theorem Chip.wakeGroup_gze (c : Chip) (g : Nat) : (c.wakeGroup g).gze = c.gze := by
  unfold Chip.wakeGroup; split <;> (try split) <;> simp only [Chip.setPhase_gze, Chip.isolateGroup_gze]
@[simp] theorem Chip.wakeGroup_twd (c : Chip) (g : Nat) : (c.wakeGroup g).twd = c.twd := by
  unfold Chip.wakeGroup; split <;> (try split) <;> simp only [Chip.setPhase_twd, Chip.isolateGroup_twd]
@[simp] theorem Chip.wakeGroup_tul (c : Chip) (g : Nat) : (c.wakeGroup g).tul = c.tul := by
  unfold Chip.wakeGroup; split <;> (try split) <;> simp only [Chip.setPhase_tul, Chip.isolateGroup_tul]
@[simp] theorem Chip.wakeGroup_cnv (c : Chip) (g : Nat) : (c.wakeGroup g).cnv = c.cnv := by
  unfold Chip.wakeGroup; split <;> (try split) <;> simp only [Chip.setPhase_cnv, Chip.isolateGroup_cnv]
@[simp] theorem Chip.wakeGroup_moved (c : Chip) (g : Nat) : (c.wakeGroup g).moved = c.moved := by
  unfold Chip.wakeGroup; split <;> (try split) <;> simp only [Chip.setPhase_moved, Chip.isolateGroup_moved]
@[simp] theorem Chip.wakeGroup_jrs (c : Chip) (g : Nat) : (c.wakeGroup g).jrs = c.jrs := by
  unfold Chip.wakeGroup; split <;> (try split) <;> simp only [Chip.setPhase_jrs, Chip.isolateGroup_jrs]
@[simp] theorem Chip.wakeGroup_fld (c : Chip) (g : Nat) : (c.wakeGroup g).fld = c.fld := by
  unfold Chip.wakeGroup; split <;> (try split) <;> simp only [Chip.setPhase_fld, Chip.isolateGroup_fld]
@[simp] theorem Chip.wakeGroup_odx (c : Chip) (g : Nat) : (c.wakeGroup g).odx = c.odx := by
  unfold Chip.wakeGroup; split <;> (try split) <;> simp only [Chip.setPhase_odx, Chip.isolateGroup_odx]
@[simp] theorem Chip.wakeGroup_flash (c : Chip) (g : Nat) : (c.wakeGroup g).flash = c.flash := by
  unfold Chip.wakeGroup; split <;> (try split) <;> simp only [Chip.setPhase_flash, Chip.isolateGroup_flash]
@[simp] theorem Chip.wakeGroup_pwr (c : Chip) (g : Nat) : (c.wakeGroup g).pwr = c.pwr := by
  unfold Chip.wakeGroup; split <;> (try split) <;> simp only [Chip.setPhase_pwr, Chip.isolateGroup_pwr]
@[simp] theorem Chip.wakeGroup_gng (c : Chip) (g : Nat) : (c.wakeGroup g).gng = c.gng := by
  unfold Chip.wakeGroup; split <;> (try split) <;> simp only [Chip.setPhase_gng, Chip.isolateGroup_gng]
@[simp] theorem Chip.wakeGroup_bup (c : Chip) (g : Nat) : (c.wakeGroup g).bup = c.bup := by
  unfold Chip.wakeGroup; split <;> (try split) <;> simp only [Chip.setPhase_bup, Chip.isolateGroup_bup]
@[simp] theorem Chip.wakeGroup_pkg (c : Chip) (g : Nat) : (c.wakeGroup g).pkg = c.pkg := by
  unfold Chip.wakeGroup; split <;> (try split) <;> simp only [Chip.setPhase_pkg, Chip.isolateGroup_pkg]
@[simp] theorem Chip.wakeGroup_isolated (c : Chip) (g : Nat) : (c.wakeGroup g).isolated = c.isolated := by
  unfold Chip.wakeGroup; split <;> (try split) <;> simp only [Chip.setPhase_isolated, Chip.isolateGroup_isolated]
@[simp] theorem Chip.wakeGroup_sent (c : Chip) (g : Nat) : (c.wakeGroup g).sent = c.sent := by
  unfold Chip.wakeGroup; split <;> (try split) <;> simp only [Chip.setPhase_sent, Chip.isolateGroup_sent]
@[simp] theorem Chip.wakeGroup_fresh (c : Chip) (g : Nat) : (c.wakeGroup g).fresh = c.fresh := by
  unfold Chip.wakeGroup; split <;> (try split) <;> simp only [Chip.setPhase_fresh, Chip.isolateGroup_fresh]

/-! ## Chip.touchGroup -/

@[simp] theorem Chip.touchGroup_dict (c : Chip) (g : Nat) : (c.touchGroup g).dict = c.dict := by
  simp only [Chip.touchGroup, Chip.setGroup_dict, Chip.wakeGroup_dict]
@[simp] theorem Chip.touchGroup_muslin (c : Chip) (g : Nat) : (c.touchGroup g).muslin = c.muslin := by
  simp only [Chip.touchGroup, Chip.setGroup_muslin, Chip.wakeGroup_muslin]
@[simp] theorem Chip.touchGroup_host (c : Chip) (g : Nat) : (c.touchGroup g).host = c.host := by
  simp only [Chip.touchGroup, Chip.setGroup_host, Chip.wakeGroup_host]
@[simp] theorem Chip.touchGroup_tku (c : Chip) (g : Nat) : (c.touchGroup g).tku = c.tku := by
  simp only [Chip.touchGroup, Chip.setGroup_tku, Chip.wakeGroup_tku]
@[simp] theorem Chip.touchGroup_dsp (c : Chip) (g : Nat) : (c.touchGroup g).dsp = c.dsp := by
  simp only [Chip.touchGroup, Chip.setGroup_dsp, Chip.wakeGroup_dsp]
@[simp] theorem Chip.touchGroup_qmg (c : Chip) (g : Nat) : (c.touchGroup g).qmg = c.qmg := by
  simp only [Chip.touchGroup, Chip.setGroup_qmg, Chip.wakeGroup_qmg]
@[simp] theorem Chip.touchGroup_hif (c : Chip) (g : Nat) : (c.touchGroup g).hif = c.hif := by
  simp only [Chip.touchGroup, Chip.setGroup_hif, Chip.wakeGroup_hif]
@[simp] theorem Chip.touchGroup_drc (c : Chip) (g : Nat) : (c.touchGroup g).drc = c.drc := by
  simp only [Chip.touchGroup, Chip.setGroup_drc, Chip.wakeGroup_drc]
@[simp] theorem Chip.touchGroup_dmk (c : Chip) (g : Nat) : (c.touchGroup g).dmk = c.dmk := by
  simp only [Chip.touchGroup, Chip.setGroup_dmk, Chip.wakeGroup_dmk]
@[simp] theorem Chip.touchGroup_atu (c : Chip) (g : Nat) : (c.touchGroup g).atu = c.atu := by
  simp only [Chip.touchGroup, Chip.setGroup_atu, Chip.wakeGroup_atu]
@[simp] theorem Chip.touchGroup_twl (c : Chip) (g : Nat) : (c.touchGroup g).twl = c.twl := by
  simp only [Chip.touchGroup, Chip.setGroup_twl, Chip.wakeGroup_twl]
@[simp] theorem Chip.touchGroup_gze (c : Chip) (g : Nat) : (c.touchGroup g).gze = c.gze := by
  simp only [Chip.touchGroup, Chip.setGroup_gze, Chip.wakeGroup_gze]
@[simp] theorem Chip.touchGroup_twd (c : Chip) (g : Nat) : (c.touchGroup g).twd = c.twd := by
  simp only [Chip.touchGroup, Chip.setGroup_twd, Chip.wakeGroup_twd]
@[simp] theorem Chip.touchGroup_tul (c : Chip) (g : Nat) : (c.touchGroup g).tul = c.tul := by
  simp only [Chip.touchGroup, Chip.setGroup_tul, Chip.wakeGroup_tul]
@[simp] theorem Chip.touchGroup_cnv (c : Chip) (g : Nat) : (c.touchGroup g).cnv = c.cnv := by
  simp only [Chip.touchGroup, Chip.setGroup_cnv, Chip.wakeGroup_cnv]
@[simp] theorem Chip.touchGroup_moved (c : Chip) (g : Nat) : (c.touchGroup g).moved = c.moved := by
  simp only [Chip.touchGroup, Chip.setGroup_moved, Chip.wakeGroup_moved]
@[simp] theorem Chip.touchGroup_jrs (c : Chip) (g : Nat) : (c.touchGroup g).jrs = c.jrs := by
  simp only [Chip.touchGroup, Chip.setGroup_jrs, Chip.wakeGroup_jrs]
@[simp] theorem Chip.touchGroup_fld (c : Chip) (g : Nat) : (c.touchGroup g).fld = c.fld := by
  simp only [Chip.touchGroup, Chip.setGroup_fld, Chip.wakeGroup_fld]
@[simp] theorem Chip.touchGroup_odx (c : Chip) (g : Nat) : (c.touchGroup g).odx = c.odx := by
  simp only [Chip.touchGroup, Chip.setGroup_odx, Chip.wakeGroup_odx]
@[simp] theorem Chip.touchGroup_flash (c : Chip) (g : Nat) : (c.touchGroup g).flash = c.flash := by
  simp only [Chip.touchGroup, Chip.setGroup_flash, Chip.wakeGroup_flash]
@[simp] theorem Chip.touchGroup_pwr (c : Chip) (g : Nat) : (c.touchGroup g).pwr = c.pwr := by
  simp only [Chip.touchGroup, Chip.setGroup_pwr, Chip.wakeGroup_pwr]
@[simp] theorem Chip.touchGroup_gng (c : Chip) (g : Nat) : (c.touchGroup g).gng = c.gng := by
  simp only [Chip.touchGroup, Chip.setGroup_gng, Chip.wakeGroup_gng]
@[simp] theorem Chip.touchGroup_bup (c : Chip) (g : Nat) : (c.touchGroup g).bup = c.bup := by
  simp only [Chip.touchGroup, Chip.setGroup_bup, Chip.wakeGroup_bup]
@[simp] theorem Chip.touchGroup_pkg (c : Chip) (g : Nat) : (c.touchGroup g).pkg = c.pkg := by
  simp only [Chip.touchGroup, Chip.setGroup_pkg, Chip.wakeGroup_pkg]
@[simp] theorem Chip.touchGroup_isolated (c : Chip) (g : Nat) : (c.touchGroup g).isolated = c.isolated := by
  simp only [Chip.touchGroup, Chip.setGroup_isolated, Chip.wakeGroup_isolated]
@[simp] theorem Chip.touchGroup_sent (c : Chip) (g : Nat) : (c.touchGroup g).sent = c.sent := by
  simp only [Chip.touchGroup, Chip.setGroup_sent, Chip.wakeGroup_sent]
@[simp] theorem Chip.touchGroup_fresh (c : Chip) (g : Nat) : (c.touchGroup g).fresh = c.fresh := by
  simp only [Chip.touchGroup, Chip.setGroup_fresh, Chip.wakeGroup_fresh]

/-! ## Chip.holdRequest -/

@[simp] theorem Chip.holdRequest_dict (c : Chip) (g : Nat) (i : Instr) (word : Nat) : (c.holdRequest g i word).dict = c.dict := by
  simp only [Chip.holdRequest, Chip.setGroup_dict, Chip.wakeGroup_dict]
@[simp] theorem Chip.holdRequest_muslin (c : Chip) (g : Nat) (i : Instr) (word : Nat) : (c.holdRequest g i word).muslin = c.muslin := by
  simp only [Chip.holdRequest, Chip.setGroup_muslin, Chip.wakeGroup_muslin]
@[simp] theorem Chip.holdRequest_host (c : Chip) (g : Nat) (i : Instr) (word : Nat) : (c.holdRequest g i word).host = c.host := by
  simp only [Chip.holdRequest, Chip.setGroup_host, Chip.wakeGroup_host]
@[simp] theorem Chip.holdRequest_tku (c : Chip) (g : Nat) (i : Instr) (word : Nat) : (c.holdRequest g i word).tku = c.tku := by
  simp only [Chip.holdRequest, Chip.setGroup_tku, Chip.wakeGroup_tku]
@[simp] theorem Chip.holdRequest_dsp (c : Chip) (g : Nat) (i : Instr) (word : Nat) : (c.holdRequest g i word).dsp = c.dsp := by
  simp only [Chip.holdRequest, Chip.setGroup_dsp, Chip.wakeGroup_dsp]
@[simp] theorem Chip.holdRequest_qmg (c : Chip) (g : Nat) (i : Instr) (word : Nat) : (c.holdRequest g i word).qmg = c.qmg := by
  simp only [Chip.holdRequest, Chip.setGroup_qmg, Chip.wakeGroup_qmg]
@[simp] theorem Chip.holdRequest_hif (c : Chip) (g : Nat) (i : Instr) (word : Nat) : (c.holdRequest g i word).hif = c.hif := by
  simp only [Chip.holdRequest, Chip.setGroup_hif, Chip.wakeGroup_hif]
@[simp] theorem Chip.holdRequest_drc (c : Chip) (g : Nat) (i : Instr) (word : Nat) : (c.holdRequest g i word).drc = c.drc := by
  simp only [Chip.holdRequest, Chip.setGroup_drc, Chip.wakeGroup_drc]
@[simp] theorem Chip.holdRequest_dmk (c : Chip) (g : Nat) (i : Instr) (word : Nat) : (c.holdRequest g i word).dmk = c.dmk := by
  simp only [Chip.holdRequest, Chip.setGroup_dmk, Chip.wakeGroup_dmk]
@[simp] theorem Chip.holdRequest_atu (c : Chip) (g : Nat) (i : Instr) (word : Nat) : (c.holdRequest g i word).atu = c.atu := by
  simp only [Chip.holdRequest, Chip.setGroup_atu, Chip.wakeGroup_atu]
@[simp] theorem Chip.holdRequest_twl (c : Chip) (g : Nat) (i : Instr) (word : Nat) : (c.holdRequest g i word).twl = c.twl := by
  simp only [Chip.holdRequest, Chip.setGroup_twl, Chip.wakeGroup_twl]
@[simp] theorem Chip.holdRequest_gze (c : Chip) (g : Nat) (i : Instr) (word : Nat) : (c.holdRequest g i word).gze = c.gze := by
  simp only [Chip.holdRequest, Chip.setGroup_gze, Chip.wakeGroup_gze]
@[simp] theorem Chip.holdRequest_twd (c : Chip) (g : Nat) (i : Instr) (word : Nat) : (c.holdRequest g i word).twd = c.twd := by
  simp only [Chip.holdRequest, Chip.setGroup_twd, Chip.wakeGroup_twd]
@[simp] theorem Chip.holdRequest_tul (c : Chip) (g : Nat) (i : Instr) (word : Nat) : (c.holdRequest g i word).tul = c.tul := by
  simp only [Chip.holdRequest, Chip.setGroup_tul, Chip.wakeGroup_tul]
@[simp] theorem Chip.holdRequest_cnv (c : Chip) (g : Nat) (i : Instr) (word : Nat) : (c.holdRequest g i word).cnv = c.cnv := by
  simp only [Chip.holdRequest, Chip.setGroup_cnv, Chip.wakeGroup_cnv]
@[simp] theorem Chip.holdRequest_moved (c : Chip) (g : Nat) (i : Instr) (word : Nat) : (c.holdRequest g i word).moved = c.moved := by
  simp only [Chip.holdRequest, Chip.setGroup_moved, Chip.wakeGroup_moved]
@[simp] theorem Chip.holdRequest_jrs (c : Chip) (g : Nat) (i : Instr) (word : Nat) : (c.holdRequest g i word).jrs = c.jrs := by
  simp only [Chip.holdRequest, Chip.setGroup_jrs, Chip.wakeGroup_jrs]
@[simp] theorem Chip.holdRequest_fld (c : Chip) (g : Nat) (i : Instr) (word : Nat) : (c.holdRequest g i word).fld = c.fld := by
  simp only [Chip.holdRequest, Chip.setGroup_fld, Chip.wakeGroup_fld]
@[simp] theorem Chip.holdRequest_odx (c : Chip) (g : Nat) (i : Instr) (word : Nat) : (c.holdRequest g i word).odx = c.odx := by
  simp only [Chip.holdRequest, Chip.setGroup_odx, Chip.wakeGroup_odx]
@[simp] theorem Chip.holdRequest_flash (c : Chip) (g : Nat) (i : Instr) (word : Nat) : (c.holdRequest g i word).flash = c.flash := by
  simp only [Chip.holdRequest, Chip.setGroup_flash, Chip.wakeGroup_flash]
@[simp] theorem Chip.holdRequest_pwr (c : Chip) (g : Nat) (i : Instr) (word : Nat) : (c.holdRequest g i word).pwr = c.pwr := by
  simp only [Chip.holdRequest, Chip.setGroup_pwr, Chip.wakeGroup_pwr]
@[simp] theorem Chip.holdRequest_gng (c : Chip) (g : Nat) (i : Instr) (word : Nat) : (c.holdRequest g i word).gng = c.gng := by
  simp only [Chip.holdRequest, Chip.setGroup_gng, Chip.wakeGroup_gng]
@[simp] theorem Chip.holdRequest_bup (c : Chip) (g : Nat) (i : Instr) (word : Nat) : (c.holdRequest g i word).bup = c.bup := by
  simp only [Chip.holdRequest, Chip.setGroup_bup, Chip.wakeGroup_bup]
@[simp] theorem Chip.holdRequest_pkg (c : Chip) (g : Nat) (i : Instr) (word : Nat) : (c.holdRequest g i word).pkg = c.pkg := by
  simp only [Chip.holdRequest, Chip.setGroup_pkg, Chip.wakeGroup_pkg]
@[simp] theorem Chip.holdRequest_isolated (c : Chip) (g : Nat) (i : Instr) (word : Nat) : (c.holdRequest g i word).isolated = c.isolated := by
  simp only [Chip.holdRequest, Chip.setGroup_isolated, Chip.wakeGroup_isolated]
@[simp] theorem Chip.holdRequest_sent (c : Chip) (g : Nat) (i : Instr) (word : Nat) : (c.holdRequest g i word).sent = c.sent := by
  simp only [Chip.holdRequest, Chip.setGroup_sent, Chip.wakeGroup_sent]
@[simp] theorem Chip.holdRequest_fresh (c : Chip) (g : Nat) (i : Instr) (word : Nat) : (c.holdRequest g i word).fresh = c.fresh := by
  simp only [Chip.holdRequest, Chip.setGroup_fresh, Chip.wakeGroup_fresh]

/-! ## Chip.muslinUe -/

@[simp] theorem Chip.muslinUe_dict (c : Chip) (w src : Nat) : (c.muslinUe w src).dict = c.dict := by
  simp only [Chip.muslinUe, apply_ite Chip.dict, Chip.wr_dict, Chip.latchFault_dict, Chip.count_dict, ite_self]
@[simp] theorem Chip.muslinUe_muslin (c : Chip) (w src : Nat) : (c.muslinUe w src).muslin = c.muslin := by
  simp only [Chip.muslinUe, apply_ite Chip.muslin, Chip.wr_muslin, Chip.latchFault_muslin, Chip.count_muslin, ite_self]
@[simp] theorem Chip.muslinUe_host (c : Chip) (w src : Nat) : (c.muslinUe w src).host = c.host := by
  simp only [Chip.muslinUe, apply_ite Chip.host, Chip.wr_host, Chip.latchFault_host, Chip.count_host, ite_self]
@[simp] theorem Chip.muslinUe_tku (c : Chip) (w src : Nat) : (c.muslinUe w src).tku = c.tku := by
  simp only [Chip.muslinUe, apply_ite Chip.tku, Chip.wr_tku, Chip.latchFault_tku, Chip.count_tku, ite_self]
@[simp] theorem Chip.muslinUe_dsp (c : Chip) (w src : Nat) : (c.muslinUe w src).dsp = c.dsp := by
  simp only [Chip.muslinUe, apply_ite Chip.dsp, Chip.wr_dsp, Chip.latchFault_dsp, Chip.count_dsp, ite_self]
@[simp] theorem Chip.muslinUe_qmg (c : Chip) (w src : Nat) : (c.muslinUe w src).qmg = c.qmg := by
  simp only [Chip.muslinUe, apply_ite Chip.qmg, Chip.wr_qmg, Chip.latchFault_qmg, Chip.count_qmg, ite_self]
@[simp] theorem Chip.muslinUe_hif (c : Chip) (w src : Nat) : (c.muslinUe w src).hif = c.hif := by
  simp only [Chip.muslinUe, apply_ite Chip.hif, Chip.wr_hif, Chip.latchFault_hif, Chip.count_hif, ite_self]
@[simp] theorem Chip.muslinUe_msl (c : Chip) (w src : Nat) : (c.muslinUe w src).msl = c.msl := by
  simp only [Chip.muslinUe, apply_ite Chip.msl, Chip.wr_msl, Chip.latchFault_msl, Chip.count_msl, ite_self]
@[simp] theorem Chip.muslinUe_drc (c : Chip) (w src : Nat) : (c.muslinUe w src).drc = c.drc := by
  simp only [Chip.muslinUe, apply_ite Chip.drc, Chip.wr_drc, Chip.latchFault_drc, Chip.count_drc, ite_self]
@[simp] theorem Chip.muslinUe_dmk (c : Chip) (w src : Nat) : (c.muslinUe w src).dmk = c.dmk := by
  simp only [Chip.muslinUe, apply_ite Chip.dmk, Chip.wr_dmk, Chip.latchFault_dmk, Chip.count_dmk, ite_self]
@[simp] theorem Chip.muslinUe_atu (c : Chip) (w src : Nat) : (c.muslinUe w src).atu = c.atu := by
  simp only [Chip.muslinUe, apply_ite Chip.atu, Chip.wr_atu, Chip.latchFault_atu, Chip.count_atu, ite_self]
@[simp] theorem Chip.muslinUe_twl (c : Chip) (w src : Nat) : (c.muslinUe w src).twl = c.twl := by
  simp only [Chip.muslinUe, apply_ite Chip.twl, Chip.wr_twl, Chip.latchFault_twl, Chip.count_twl, ite_self]
@[simp] theorem Chip.muslinUe_gze (c : Chip) (w src : Nat) : (c.muslinUe w src).gze = c.gze := by
  simp only [Chip.muslinUe, apply_ite Chip.gze, Chip.wr_gze, Chip.latchFault_gze, Chip.count_gze, ite_self]
@[simp] theorem Chip.muslinUe_twd (c : Chip) (w src : Nat) : (c.muslinUe w src).twd = c.twd := by
  simp only [Chip.muslinUe, apply_ite Chip.twd, Chip.wr_twd, Chip.latchFault_twd, Chip.count_twd, ite_self]
@[simp] theorem Chip.muslinUe_tul (c : Chip) (w src : Nat) : (c.muslinUe w src).tul = c.tul := by
  simp only [Chip.muslinUe, apply_ite Chip.tul, Chip.wr_tul, Chip.latchFault_tul, Chip.count_tul, ite_self]
@[simp] theorem Chip.muslinUe_cnv (c : Chip) (w src : Nat) : (c.muslinUe w src).cnv = c.cnv := by
  simp only [Chip.muslinUe, apply_ite Chip.cnv, Chip.wr_cnv, Chip.latchFault_cnv, Chip.count_cnv, ite_self]
@[simp] theorem Chip.muslinUe_moved (c : Chip) (w src : Nat) : (c.muslinUe w src).moved = c.moved := by
  simp only [Chip.muslinUe, apply_ite Chip.moved, Chip.wr_moved, Chip.latchFault_moved, Chip.count_moved, ite_self]
@[simp] theorem Chip.muslinUe_jrs (c : Chip) (w src : Nat) : (c.muslinUe w src).jrs = c.jrs := by
  simp only [Chip.muslinUe, apply_ite Chip.jrs, Chip.wr_jrs, Chip.latchFault_jrs, Chip.count_jrs, ite_self]
@[simp] theorem Chip.muslinUe_fld (c : Chip) (w src : Nat) : (c.muslinUe w src).fld = c.fld := by
  simp only [Chip.muslinUe, apply_ite Chip.fld, Chip.wr_fld, Chip.latchFault_fld, Chip.count_fld, ite_self]
@[simp] theorem Chip.muslinUe_odx (c : Chip) (w src : Nat) : (c.muslinUe w src).odx = c.odx := by
  simp only [Chip.muslinUe, apply_ite Chip.odx, Chip.wr_odx, Chip.latchFault_odx, Chip.count_odx, ite_self]
@[simp] theorem Chip.muslinUe_flash (c : Chip) (w src : Nat) : (c.muslinUe w src).flash = c.flash := by
  simp only [Chip.muslinUe, apply_ite Chip.flash, Chip.wr_flash, Chip.latchFault_flash, Chip.count_flash, ite_self]
@[simp] theorem Chip.muslinUe_pwr (c : Chip) (w src : Nat) : (c.muslinUe w src).pwr = c.pwr := by
  simp only [Chip.muslinUe, apply_ite Chip.pwr, Chip.wr_pwr, Chip.latchFault_pwr, Chip.count_pwr, ite_self]
@[simp] theorem Chip.muslinUe_gng (c : Chip) (w src : Nat) : (c.muslinUe w src).gng = c.gng := by
  simp only [Chip.muslinUe, apply_ite Chip.gng, Chip.wr_gng, Chip.latchFault_gng, Chip.count_gng, ite_self]
@[simp] theorem Chip.muslinUe_bup (c : Chip) (w src : Nat) : (c.muslinUe w src).bup = c.bup := by
  simp only [Chip.muslinUe, apply_ite Chip.bup, Chip.wr_bup, Chip.latchFault_bup, Chip.count_bup, ite_self]
@[simp] theorem Chip.muslinUe_pkg (c : Chip) (w src : Nat) : (c.muslinUe w src).pkg = c.pkg := by
  simp only [Chip.muslinUe, apply_ite Chip.pkg, Chip.wr_pkg, Chip.latchFault_pkg, Chip.count_pkg, ite_self]
@[simp] theorem Chip.muslinUe_isolated (c : Chip) (w src : Nat) : (c.muslinUe w src).isolated = c.isolated := by
  simp only [Chip.muslinUe, apply_ite Chip.isolated, Chip.wr_isolated, Chip.latchFault_isolated, Chip.count_isolated, ite_self]
@[simp] theorem Chip.muslinUe_fresh (c : Chip) (w src : Nat) : (c.muslinUe w src).fresh = c.fresh := by
  simp only [Chip.muslinUe, apply_ite Chip.fresh, Chip.wr_fresh, Chip.latchFault_fresh, Chip.count_fresh, ite_self]

/-! ## Chip.wpHit -/

@[simp] theorem Chip.wpHit_dict (c : Chip) : c.wpHit.dict = c.dict := by
  simp only [Chip.wpHit, Chip.latchFault_dict]
@[simp] theorem Chip.wpHit_muslin (c : Chip) : c.wpHit.muslin = c.muslin := by
  simp only [Chip.wpHit, Chip.latchFault_muslin]
@[simp] theorem Chip.wpHit_host (c : Chip) : c.wpHit.host = c.host := by
  simp only [Chip.wpHit, Chip.latchFault_host]
@[simp] theorem Chip.wpHit_tku (c : Chip) : c.wpHit.tku = c.tku := by
  simp only [Chip.wpHit, Chip.latchFault_tku]
@[simp] theorem Chip.wpHit_dsp (c : Chip) : c.wpHit.dsp = c.dsp := by
  simp only [Chip.wpHit, Chip.latchFault_dsp]
@[simp] theorem Chip.wpHit_qmg (c : Chip) : c.wpHit.qmg = c.qmg := by
  simp only [Chip.wpHit, Chip.latchFault_qmg]
@[simp] theorem Chip.wpHit_hif (c : Chip) : c.wpHit.hif = c.hif := by
  simp only [Chip.wpHit, Chip.latchFault_hif]
@[simp] theorem Chip.wpHit_msl (c : Chip) : c.wpHit.msl = c.msl := by
  simp only [Chip.wpHit, Chip.latchFault_msl]
@[simp] theorem Chip.wpHit_drc (c : Chip) : c.wpHit.drc = c.drc := by
  simp only [Chip.wpHit, Chip.latchFault_drc]
@[simp] theorem Chip.wpHit_dmk (c : Chip) : c.wpHit.dmk = c.dmk := by
  simp only [Chip.wpHit, Chip.latchFault_dmk]
@[simp] theorem Chip.wpHit_atu (c : Chip) : c.wpHit.atu = c.atu := by
  simp only [Chip.wpHit, Chip.latchFault_atu]
@[simp] theorem Chip.wpHit_twl (c : Chip) : c.wpHit.twl = c.twl := by
  simp only [Chip.wpHit, Chip.latchFault_twl]
@[simp] theorem Chip.wpHit_gze (c : Chip) : c.wpHit.gze = c.gze := by
  simp only [Chip.wpHit, Chip.latchFault_gze]
@[simp] theorem Chip.wpHit_twd (c : Chip) : c.wpHit.twd = c.twd := by
  simp only [Chip.wpHit, Chip.latchFault_twd]
@[simp] theorem Chip.wpHit_tul (c : Chip) : c.wpHit.tul = c.tul := by
  simp only [Chip.wpHit, Chip.latchFault_tul]
@[simp] theorem Chip.wpHit_cnv (c : Chip) : c.wpHit.cnv = c.cnv := by
  simp only [Chip.wpHit, Chip.latchFault_cnv]
@[simp] theorem Chip.wpHit_moved (c : Chip) : c.wpHit.moved = c.moved := by
  simp only [Chip.wpHit, Chip.latchFault_moved]
@[simp] theorem Chip.wpHit_jrs (c : Chip) : c.wpHit.jrs = c.jrs := by
  simp only [Chip.wpHit, Chip.latchFault_jrs]
@[simp] theorem Chip.wpHit_fld (c : Chip) : c.wpHit.fld = c.fld := by
  simp only [Chip.wpHit, Chip.latchFault_fld]
@[simp] theorem Chip.wpHit_odx (c : Chip) : c.wpHit.odx = c.odx := by
  simp only [Chip.wpHit, Chip.latchFault_odx]
@[simp] theorem Chip.wpHit_flash (c : Chip) : c.wpHit.flash = c.flash := by
  simp only [Chip.wpHit, Chip.latchFault_flash]
@[simp] theorem Chip.wpHit_pwr (c : Chip) : c.wpHit.pwr = c.pwr := by
  simp only [Chip.wpHit, Chip.latchFault_pwr]
@[simp] theorem Chip.wpHit_gng (c : Chip) : c.wpHit.gng = c.gng := by
  simp only [Chip.wpHit, Chip.latchFault_gng]
@[simp] theorem Chip.wpHit_bup (c : Chip) : c.wpHit.bup = c.bup := by
  simp only [Chip.wpHit, Chip.latchFault_bup]
@[simp] theorem Chip.wpHit_pkg (c : Chip) : c.wpHit.pkg = c.pkg := by
  simp only [Chip.wpHit, Chip.latchFault_pkg]
@[simp] theorem Chip.wpHit_isolated (c : Chip) : c.wpHit.isolated = c.isolated := by
  simp only [Chip.wpHit, Chip.latchFault_isolated]
@[simp] theorem Chip.wpHit_fresh (c : Chip) : c.wpHit.fresh = c.fresh := by
  simp only [Chip.wpHit, Chip.latchFault_fresh]

/-! ## Chip.setQueue -/

@[simp] theorem Chip.setQueue_regs (c : Chip) (n : Nat) (q : Queue) : (c.setQueue n q).regs = c.regs := rfl
@[simp] theorem Chip.setQueue_dict (c : Chip) (n : Nat) (q : Queue) : (c.setQueue n q).dict = c.dict := rfl
@[simp] theorem Chip.setQueue_muslin (c : Chip) (n : Nat) (q : Queue) : (c.setQueue n q).muslin = c.muslin := rfl
@[simp] theorem Chip.setQueue_host (c : Chip) (n : Nat) (q : Queue) : (c.setQueue n q).host = c.host := rfl
@[simp] theorem Chip.setQueue_tku (c : Chip) (n : Nat) (q : Queue) : (c.setQueue n q).tku = c.tku := rfl
@[simp] theorem Chip.setQueue_dsp (c : Chip) (n : Nat) (q : Queue) : (c.setQueue n q).dsp = c.dsp := rfl
@[simp] theorem Chip.setQueue_hif (c : Chip) (n : Nat) (q : Queue) : (c.setQueue n q).hif = c.hif := rfl
@[simp] theorem Chip.setQueue_msl (c : Chip) (n : Nat) (q : Queue) : (c.setQueue n q).msl = c.msl := rfl
@[simp] theorem Chip.setQueue_drc (c : Chip) (n : Nat) (q : Queue) : (c.setQueue n q).drc = c.drc := rfl
@[simp] theorem Chip.setQueue_dmk (c : Chip) (n : Nat) (q : Queue) : (c.setQueue n q).dmk = c.dmk := rfl
@[simp] theorem Chip.setQueue_atu (c : Chip) (n : Nat) (q : Queue) : (c.setQueue n q).atu = c.atu := rfl
@[simp] theorem Chip.setQueue_twl (c : Chip) (n : Nat) (q : Queue) : (c.setQueue n q).twl = c.twl := rfl
@[simp] theorem Chip.setQueue_gze (c : Chip) (n : Nat) (q : Queue) : (c.setQueue n q).gze = c.gze := rfl
@[simp] theorem Chip.setQueue_twd (c : Chip) (n : Nat) (q : Queue) : (c.setQueue n q).twd = c.twd := rfl
@[simp] theorem Chip.setQueue_tul (c : Chip) (n : Nat) (q : Queue) : (c.setQueue n q).tul = c.tul := rfl
@[simp] theorem Chip.setQueue_cnv (c : Chip) (n : Nat) (q : Queue) : (c.setQueue n q).cnv = c.cnv := rfl
@[simp] theorem Chip.setQueue_moved (c : Chip) (n : Nat) (q : Queue) : (c.setQueue n q).moved = c.moved := rfl
@[simp] theorem Chip.setQueue_jrs (c : Chip) (n : Nat) (q : Queue) : (c.setQueue n q).jrs = c.jrs := rfl
@[simp] theorem Chip.setQueue_fld (c : Chip) (n : Nat) (q : Queue) : (c.setQueue n q).fld = c.fld := rfl
@[simp] theorem Chip.setQueue_odx (c : Chip) (n : Nat) (q : Queue) : (c.setQueue n q).odx = c.odx := rfl
@[simp] theorem Chip.setQueue_flash (c : Chip) (n : Nat) (q : Queue) : (c.setQueue n q).flash = c.flash := rfl
@[simp] theorem Chip.setQueue_pwr (c : Chip) (n : Nat) (q : Queue) : (c.setQueue n q).pwr = c.pwr := rfl
@[simp] theorem Chip.setQueue_gng (c : Chip) (n : Nat) (q : Queue) : (c.setQueue n q).gng = c.gng := rfl
@[simp] theorem Chip.setQueue_bup (c : Chip) (n : Nat) (q : Queue) : (c.setQueue n q).bup = c.bup := rfl
@[simp] theorem Chip.setQueue_pkg (c : Chip) (n : Nat) (q : Queue) : (c.setQueue n q).pkg = c.pkg := rfl
@[simp] theorem Chip.setQueue_isolated (c : Chip) (n : Nat) (q : Queue) : (c.setQueue n q).isolated = c.isolated := rfl
@[simp] theorem Chip.setQueue_sent (c : Chip) (n : Nat) (q : Queue) : (c.setQueue n q).sent = c.sent := rfl
@[simp] theorem Chip.setQueue_fresh (c : Chip) (n : Nat) (q : Queue) : (c.setQueue n q).fresh = c.fresh := rfl

/-! ## Chip.lose -/

@[simp] theorem Chip.lose_dict (c : Chip) : c.lose.dict = c.dict := by
  simp only [Chip.lose, Chip.raise_dict, Chip.latch_dict, Chip.count_dict]
@[simp] theorem Chip.lose_muslin (c : Chip) : c.lose.muslin = c.muslin := by
  simp only [Chip.lose, Chip.raise_muslin, Chip.latch_muslin, Chip.count_muslin]
@[simp] theorem Chip.lose_host (c : Chip) : c.lose.host = c.host := by
  simp only [Chip.lose, Chip.raise_host, Chip.latch_host, Chip.count_host]
@[simp] theorem Chip.lose_tku (c : Chip) : c.lose.tku = c.tku := by
  simp only [Chip.lose, Chip.raise_tku, Chip.latch_tku, Chip.count_tku]
@[simp] theorem Chip.lose_dsp (c : Chip) : c.lose.dsp = c.dsp := by
  simp only [Chip.lose, Chip.raise_dsp, Chip.latch_dsp, Chip.count_dsp]
@[simp] theorem Chip.lose_qmg (c : Chip) : c.lose.qmg = c.qmg := by
  simp only [Chip.lose, Chip.raise_qmg, Chip.latch_qmg, Chip.count_qmg]
@[simp] theorem Chip.lose_hif (c : Chip) : c.lose.hif = c.hif := by
  simp only [Chip.lose, Chip.raise_hif, Chip.latch_hif, Chip.count_hif]
@[simp] theorem Chip.lose_msl (c : Chip) : c.lose.msl = c.msl := by
  simp only [Chip.lose, Chip.raise_msl, Chip.latch_msl, Chip.count_msl]
@[simp] theorem Chip.lose_drc (c : Chip) : c.lose.drc = c.drc := by
  simp only [Chip.lose, Chip.raise_drc, Chip.latch_drc, Chip.count_drc]
@[simp] theorem Chip.lose_dmk (c : Chip) : c.lose.dmk = c.dmk := by
  simp only [Chip.lose, Chip.raise_dmk, Chip.latch_dmk, Chip.count_dmk]
@[simp] theorem Chip.lose_atu (c : Chip) : c.lose.atu = c.atu := by
  simp only [Chip.lose, Chip.raise_atu, Chip.latch_atu, Chip.count_atu]
@[simp] theorem Chip.lose_twl (c : Chip) : c.lose.twl = c.twl := by
  simp only [Chip.lose, Chip.raise_twl, Chip.latch_twl, Chip.count_twl]
@[simp] theorem Chip.lose_gze (c : Chip) : c.lose.gze = c.gze := by
  simp only [Chip.lose, Chip.raise_gze, Chip.latch_gze, Chip.count_gze]
@[simp] theorem Chip.lose_twd (c : Chip) : c.lose.twd = c.twd := by
  simp only [Chip.lose, Chip.raise_twd, Chip.latch_twd, Chip.count_twd]
@[simp] theorem Chip.lose_tul (c : Chip) : c.lose.tul = c.tul := by
  simp only [Chip.lose, Chip.raise_tul, Chip.latch_tul, Chip.count_tul]
@[simp] theorem Chip.lose_cnv (c : Chip) : c.lose.cnv = c.cnv := by
  simp only [Chip.lose, Chip.raise_cnv, Chip.latch_cnv, Chip.count_cnv]
@[simp] theorem Chip.lose_moved (c : Chip) : c.lose.moved = c.moved := by
  simp only [Chip.lose, Chip.raise_moved, Chip.latch_moved, Chip.count_moved]
@[simp] theorem Chip.lose_jrs (c : Chip) : c.lose.jrs = c.jrs := by
  simp only [Chip.lose, Chip.raise_jrs, Chip.latch_jrs, Chip.count_jrs]
@[simp] theorem Chip.lose_fld (c : Chip) : c.lose.fld = c.fld := by
  simp only [Chip.lose, Chip.raise_fld, Chip.latch_fld, Chip.count_fld]
@[simp] theorem Chip.lose_odx (c : Chip) : c.lose.odx = c.odx := by
  simp only [Chip.lose, Chip.raise_odx, Chip.latch_odx, Chip.count_odx]
@[simp] theorem Chip.lose_flash (c : Chip) : c.lose.flash = c.flash := by
  simp only [Chip.lose, Chip.raise_flash, Chip.latch_flash, Chip.count_flash]
@[simp] theorem Chip.lose_pwr (c : Chip) : c.lose.pwr = c.pwr := by
  simp only [Chip.lose, Chip.raise_pwr, Chip.latch_pwr, Chip.count_pwr]
@[simp] theorem Chip.lose_gng (c : Chip) : c.lose.gng = c.gng := by
  simp only [Chip.lose, Chip.raise_gng, Chip.latch_gng, Chip.count_gng]
@[simp] theorem Chip.lose_bup (c : Chip) : c.lose.bup = c.bup := by
  simp only [Chip.lose, Chip.raise_bup, Chip.latch_bup, Chip.count_bup]
@[simp] theorem Chip.lose_pkg (c : Chip) : c.lose.pkg = c.pkg := by
  simp only [Chip.lose, Chip.raise_pkg, Chip.latch_pkg, Chip.count_pkg]
@[simp] theorem Chip.lose_isolated (c : Chip) : c.lose.isolated = c.isolated := by
  simp only [Chip.lose, Chip.raise_isolated, Chip.latch_isolated, Chip.count_isolated]
@[simp] theorem Chip.lose_fresh (c : Chip) : c.lose.fresh = c.fresh := by
  simp only [Chip.lose, Chip.raise_fresh, Chip.latch_fresh, Chip.count_fresh]

/-! ## Chip.loseFor -/

@[simp] theorem Chip.loseFor_dict (c : Chip) (n : Nat) : (c.loseFor n).dict = c.dict := by
  unfold Chip.loseFor; split <;> simp only [Chip.lose_dict, Chip.setQueue_dict]
@[simp] theorem Chip.loseFor_muslin (c : Chip) (n : Nat) : (c.loseFor n).muslin = c.muslin := by
  unfold Chip.loseFor; split <;> simp only [Chip.lose_muslin, Chip.setQueue_muslin]
@[simp] theorem Chip.loseFor_host (c : Chip) (n : Nat) : (c.loseFor n).host = c.host := by
  unfold Chip.loseFor; split <;> simp only [Chip.lose_host, Chip.setQueue_host]
@[simp] theorem Chip.loseFor_tku (c : Chip) (n : Nat) : (c.loseFor n).tku = c.tku := by
  unfold Chip.loseFor; split <;> simp only [Chip.lose_tku, Chip.setQueue_tku]
@[simp] theorem Chip.loseFor_dsp (c : Chip) (n : Nat) : (c.loseFor n).dsp = c.dsp := by
  unfold Chip.loseFor; split <;> simp only [Chip.lose_dsp, Chip.setQueue_dsp]
@[simp] theorem Chip.loseFor_hif (c : Chip) (n : Nat) : (c.loseFor n).hif = c.hif := by
  unfold Chip.loseFor; split <;> simp only [Chip.lose_hif, Chip.setQueue_hif]
@[simp] theorem Chip.loseFor_msl (c : Chip) (n : Nat) : (c.loseFor n).msl = c.msl := by
  unfold Chip.loseFor; split <;> simp only [Chip.lose_msl, Chip.setQueue_msl]
@[simp] theorem Chip.loseFor_drc (c : Chip) (n : Nat) : (c.loseFor n).drc = c.drc := by
  unfold Chip.loseFor; split <;> simp only [Chip.lose_drc, Chip.setQueue_drc]
@[simp] theorem Chip.loseFor_dmk (c : Chip) (n : Nat) : (c.loseFor n).dmk = c.dmk := by
  unfold Chip.loseFor; split <;> simp only [Chip.lose_dmk, Chip.setQueue_dmk]
@[simp] theorem Chip.loseFor_atu (c : Chip) (n : Nat) : (c.loseFor n).atu = c.atu := by
  unfold Chip.loseFor; split <;> simp only [Chip.lose_atu, Chip.setQueue_atu]
@[simp] theorem Chip.loseFor_twl (c : Chip) (n : Nat) : (c.loseFor n).twl = c.twl := by
  unfold Chip.loseFor; split <;> simp only [Chip.lose_twl, Chip.setQueue_twl]
@[simp] theorem Chip.loseFor_gze (c : Chip) (n : Nat) : (c.loseFor n).gze = c.gze := by
  unfold Chip.loseFor; split <;> simp only [Chip.lose_gze, Chip.setQueue_gze]
@[simp] theorem Chip.loseFor_twd (c : Chip) (n : Nat) : (c.loseFor n).twd = c.twd := by
  unfold Chip.loseFor; split <;> simp only [Chip.lose_twd, Chip.setQueue_twd]
@[simp] theorem Chip.loseFor_tul (c : Chip) (n : Nat) : (c.loseFor n).tul = c.tul := by
  unfold Chip.loseFor; split <;> simp only [Chip.lose_tul, Chip.setQueue_tul]
@[simp] theorem Chip.loseFor_cnv (c : Chip) (n : Nat) : (c.loseFor n).cnv = c.cnv := by
  unfold Chip.loseFor; split <;> simp only [Chip.lose_cnv, Chip.setQueue_cnv]
@[simp] theorem Chip.loseFor_moved (c : Chip) (n : Nat) : (c.loseFor n).moved = c.moved := by
  unfold Chip.loseFor; split <;> simp only [Chip.lose_moved, Chip.setQueue_moved]
@[simp] theorem Chip.loseFor_jrs (c : Chip) (n : Nat) : (c.loseFor n).jrs = c.jrs := by
  unfold Chip.loseFor; split <;> simp only [Chip.lose_jrs, Chip.setQueue_jrs]
@[simp] theorem Chip.loseFor_fld (c : Chip) (n : Nat) : (c.loseFor n).fld = c.fld := by
  unfold Chip.loseFor; split <;> simp only [Chip.lose_fld, Chip.setQueue_fld]
@[simp] theorem Chip.loseFor_odx (c : Chip) (n : Nat) : (c.loseFor n).odx = c.odx := by
  unfold Chip.loseFor; split <;> simp only [Chip.lose_odx, Chip.setQueue_odx]
@[simp] theorem Chip.loseFor_flash (c : Chip) (n : Nat) : (c.loseFor n).flash = c.flash := by
  unfold Chip.loseFor; split <;> simp only [Chip.lose_flash, Chip.setQueue_flash]
@[simp] theorem Chip.loseFor_pwr (c : Chip) (n : Nat) : (c.loseFor n).pwr = c.pwr := by
  unfold Chip.loseFor; split <;> simp only [Chip.lose_pwr, Chip.setQueue_pwr]
@[simp] theorem Chip.loseFor_gng (c : Chip) (n : Nat) : (c.loseFor n).gng = c.gng := by
  unfold Chip.loseFor; split <;> simp only [Chip.lose_gng, Chip.setQueue_gng]
@[simp] theorem Chip.loseFor_bup (c : Chip) (n : Nat) : (c.loseFor n).bup = c.bup := by
  unfold Chip.loseFor; split <;> simp only [Chip.lose_bup, Chip.setQueue_bup]
@[simp] theorem Chip.loseFor_pkg (c : Chip) (n : Nat) : (c.loseFor n).pkg = c.pkg := by
  unfold Chip.loseFor; split <;> simp only [Chip.lose_pkg, Chip.setQueue_pkg]
@[simp] theorem Chip.loseFor_isolated (c : Chip) (n : Nat) : (c.loseFor n).isolated = c.isolated := by
  unfold Chip.loseFor; split <;> simp only [Chip.lose_isolated, Chip.setQueue_isolated]
@[simp] theorem Chip.loseFor_fresh (c : Chip) (n : Nat) : (c.loseFor n).fresh = c.fresh := by
  unfold Chip.loseFor; split <;> simp only [Chip.lose_fresh, Chip.setQueue_fresh]

/-! ## Chip.journalAt -/

@[simp] theorem Chip.journalAt_regs (c : Chip) (t : Nat) (f : JournalFields) : (c.journalAt t f).regs = c.regs := by
  simp only [Chip.journalAt, Chip.setEntry_regs]
@[simp] theorem Chip.journalAt_muslin (c : Chip) (t : Nat) (f : JournalFields) : (c.journalAt t f).muslin = c.muslin := by
  simp only [Chip.journalAt, Chip.setEntry_muslin]
@[simp] theorem Chip.journalAt_host (c : Chip) (t : Nat) (f : JournalFields) : (c.journalAt t f).host = c.host := by
  simp only [Chip.journalAt, Chip.setEntry_host]
@[simp] theorem Chip.journalAt_tku (c : Chip) (t : Nat) (f : JournalFields) : (c.journalAt t f).tku = c.tku := by
  simp only [Chip.journalAt, Chip.setEntry_tku]
@[simp] theorem Chip.journalAt_dsp (c : Chip) (t : Nat) (f : JournalFields) : (c.journalAt t f).dsp = c.dsp := by
  simp only [Chip.journalAt, Chip.setEntry_dsp]
@[simp] theorem Chip.journalAt_qmg (c : Chip) (t : Nat) (f : JournalFields) : (c.journalAt t f).qmg = c.qmg := by
  simp only [Chip.journalAt, Chip.setEntry_qmg]
@[simp] theorem Chip.journalAt_hif (c : Chip) (t : Nat) (f : JournalFields) : (c.journalAt t f).hif = c.hif := by
  simp only [Chip.journalAt, Chip.setEntry_hif]
@[simp] theorem Chip.journalAt_msl (c : Chip) (t : Nat) (f : JournalFields) : (c.journalAt t f).msl = c.msl := by
  simp only [Chip.journalAt, Chip.setEntry_msl]
@[simp] theorem Chip.journalAt_drc (c : Chip) (t : Nat) (f : JournalFields) : (c.journalAt t f).drc = c.drc := by
  simp only [Chip.journalAt, Chip.setEntry_drc]
@[simp] theorem Chip.journalAt_dmk (c : Chip) (t : Nat) (f : JournalFields) : (c.journalAt t f).dmk = c.dmk := by
  simp only [Chip.journalAt, Chip.setEntry_dmk]
@[simp] theorem Chip.journalAt_atu (c : Chip) (t : Nat) (f : JournalFields) : (c.journalAt t f).atu = c.atu := by
  simp only [Chip.journalAt, Chip.setEntry_atu]
@[simp] theorem Chip.journalAt_twl (c : Chip) (t : Nat) (f : JournalFields) : (c.journalAt t f).twl = c.twl := by
  simp only [Chip.journalAt, Chip.setEntry_twl]
@[simp] theorem Chip.journalAt_gze (c : Chip) (t : Nat) (f : JournalFields) : (c.journalAt t f).gze = c.gze := by
  simp only [Chip.journalAt, Chip.setEntry_gze]
@[simp] theorem Chip.journalAt_twd (c : Chip) (t : Nat) (f : JournalFields) : (c.journalAt t f).twd = c.twd := by
  simp only [Chip.journalAt, Chip.setEntry_twd]
@[simp] theorem Chip.journalAt_tul (c : Chip) (t : Nat) (f : JournalFields) : (c.journalAt t f).tul = c.tul := by
  simp only [Chip.journalAt, Chip.setEntry_tul]
@[simp] theorem Chip.journalAt_cnv (c : Chip) (t : Nat) (f : JournalFields) : (c.journalAt t f).cnv = c.cnv := by
  simp only [Chip.journalAt, Chip.setEntry_cnv]
@[simp] theorem Chip.journalAt_moved (c : Chip) (t : Nat) (f : JournalFields) : (c.journalAt t f).moved = c.moved := by
  simp only [Chip.journalAt, Chip.setEntry_moved]
@[simp] theorem Chip.journalAt_jrs (c : Chip) (t : Nat) (f : JournalFields) : (c.journalAt t f).jrs = c.jrs := by
  simp only [Chip.journalAt, Chip.setEntry_jrs]
@[simp] theorem Chip.journalAt_fld (c : Chip) (t : Nat) (f : JournalFields) : (c.journalAt t f).fld = c.fld := by
  simp only [Chip.journalAt, Chip.setEntry_fld]
@[simp] theorem Chip.journalAt_flash (c : Chip) (t : Nat) (f : JournalFields) : (c.journalAt t f).flash = c.flash := by
  simp only [Chip.journalAt, Chip.setEntry_flash]
@[simp] theorem Chip.journalAt_pwr (c : Chip) (t : Nat) (f : JournalFields) : (c.journalAt t f).pwr = c.pwr := by
  simp only [Chip.journalAt, Chip.setEntry_pwr]
@[simp] theorem Chip.journalAt_gng (c : Chip) (t : Nat) (f : JournalFields) : (c.journalAt t f).gng = c.gng := by
  simp only [Chip.journalAt, Chip.setEntry_gng]
@[simp] theorem Chip.journalAt_bup (c : Chip) (t : Nat) (f : JournalFields) : (c.journalAt t f).bup = c.bup := by
  simp only [Chip.journalAt, Chip.setEntry_bup]
@[simp] theorem Chip.journalAt_pkg (c : Chip) (t : Nat) (f : JournalFields) : (c.journalAt t f).pkg = c.pkg := by
  simp only [Chip.journalAt, Chip.setEntry_pkg]
@[simp] theorem Chip.journalAt_isolated (c : Chip) (t : Nat) (f : JournalFields) : (c.journalAt t f).isolated = c.isolated := by
  simp only [Chip.journalAt, Chip.setEntry_isolated]
@[simp] theorem Chip.journalAt_sent (c : Chip) (t : Nat) (f : JournalFields) : (c.journalAt t f).sent = c.sent := by
  simp only [Chip.journalAt, Chip.setEntry_sent]
@[simp] theorem Chip.journalAt_fresh (c : Chip) (t : Nat) (f : JournalFields) : (c.journalAt t f).fresh = c.fresh := by
  simp only [Chip.journalAt, Chip.setEntry_fresh]

/-! ## Chip.journal -/

@[simp] theorem Chip.journal_regs (c : Chip) (f : JournalFields) : (c.journal f).regs = c.regs := by
  simp only [Chip.journal, Chip.journalAt_regs]
@[simp] theorem Chip.journal_muslin (c : Chip) (f : JournalFields) : (c.journal f).muslin = c.muslin := by
  simp only [Chip.journal, Chip.journalAt_muslin]
@[simp] theorem Chip.journal_host (c : Chip) (f : JournalFields) : (c.journal f).host = c.host := by
  simp only [Chip.journal, Chip.journalAt_host]
@[simp] theorem Chip.journal_tku (c : Chip) (f : JournalFields) : (c.journal f).tku = c.tku := by
  simp only [Chip.journal, Chip.journalAt_tku]
@[simp] theorem Chip.journal_dsp (c : Chip) (f : JournalFields) : (c.journal f).dsp = c.dsp := by
  simp only [Chip.journal, Chip.journalAt_dsp]
@[simp] theorem Chip.journal_qmg (c : Chip) (f : JournalFields) : (c.journal f).qmg = c.qmg := by
  simp only [Chip.journal, Chip.journalAt_qmg]
@[simp] theorem Chip.journal_hif (c : Chip) (f : JournalFields) : (c.journal f).hif = c.hif := by
  simp only [Chip.journal, Chip.journalAt_hif]
@[simp] theorem Chip.journal_msl (c : Chip) (f : JournalFields) : (c.journal f).msl = c.msl := by
  simp only [Chip.journal, Chip.journalAt_msl]
@[simp] theorem Chip.journal_drc (c : Chip) (f : JournalFields) : (c.journal f).drc = c.drc := by
  simp only [Chip.journal, Chip.journalAt_drc]
@[simp] theorem Chip.journal_dmk (c : Chip) (f : JournalFields) : (c.journal f).dmk = c.dmk := by
  simp only [Chip.journal, Chip.journalAt_dmk]
@[simp] theorem Chip.journal_atu (c : Chip) (f : JournalFields) : (c.journal f).atu = c.atu := by
  simp only [Chip.journal, Chip.journalAt_atu]
@[simp] theorem Chip.journal_twl (c : Chip) (f : JournalFields) : (c.journal f).twl = c.twl := by
  simp only [Chip.journal, Chip.journalAt_twl]
@[simp] theorem Chip.journal_gze (c : Chip) (f : JournalFields) : (c.journal f).gze = c.gze := by
  simp only [Chip.journal, Chip.journalAt_gze]
@[simp] theorem Chip.journal_twd (c : Chip) (f : JournalFields) : (c.journal f).twd = c.twd := by
  simp only [Chip.journal, Chip.journalAt_twd]
@[simp] theorem Chip.journal_tul (c : Chip) (f : JournalFields) : (c.journal f).tul = c.tul := by
  simp only [Chip.journal, Chip.journalAt_tul]
@[simp] theorem Chip.journal_cnv (c : Chip) (f : JournalFields) : (c.journal f).cnv = c.cnv := by
  simp only [Chip.journal, Chip.journalAt_cnv]
@[simp] theorem Chip.journal_moved (c : Chip) (f : JournalFields) : (c.journal f).moved = c.moved := by
  simp only [Chip.journal, Chip.journalAt_moved]
@[simp] theorem Chip.journal_jrs (c : Chip) (f : JournalFields) : (c.journal f).jrs = c.jrs := by
  simp only [Chip.journal, Chip.journalAt_jrs]
@[simp] theorem Chip.journal_fld (c : Chip) (f : JournalFields) : (c.journal f).fld = c.fld := by
  simp only [Chip.journal, Chip.journalAt_fld]
@[simp] theorem Chip.journal_flash (c : Chip) (f : JournalFields) : (c.journal f).flash = c.flash := by
  simp only [Chip.journal, Chip.journalAt_flash]
@[simp] theorem Chip.journal_pwr (c : Chip) (f : JournalFields) : (c.journal f).pwr = c.pwr := by
  simp only [Chip.journal, Chip.journalAt_pwr]
@[simp] theorem Chip.journal_gng (c : Chip) (f : JournalFields) : (c.journal f).gng = c.gng := by
  simp only [Chip.journal, Chip.journalAt_gng]
@[simp] theorem Chip.journal_bup (c : Chip) (f : JournalFields) : (c.journal f).bup = c.bup := by
  simp only [Chip.journal, Chip.journalAt_bup]
@[simp] theorem Chip.journal_pkg (c : Chip) (f : JournalFields) : (c.journal f).pkg = c.pkg := by
  simp only [Chip.journal, Chip.journalAt_pkg]
@[simp] theorem Chip.journal_isolated (c : Chip) (f : JournalFields) : (c.journal f).isolated = c.isolated := by
  simp only [Chip.journal, Chip.journalAt_isolated]
@[simp] theorem Chip.journal_sent (c : Chip) (f : JournalFields) : (c.journal f).sent = c.sent := by
  simp only [Chip.journal, Chip.journalAt_sent]
@[simp] theorem Chip.journal_fresh (c : Chip) (f : JournalFields) : (c.journal f).fresh = c.fresh := by
  simp only [Chip.journal, Chip.journalAt_fresh]

/-! ## Chip.journalService -/

@[simp] theorem Chip.journalService_regs (c : Chip) (f : Field) (v r : Nat) : (c.journalService f v r).regs = c.regs := by
  simp only [Chip.journalService, Chip.journal_regs]
@[simp] theorem Chip.journalService_muslin (c : Chip) (f : Field) (v r : Nat) : (c.journalService f v r).muslin = c.muslin := by
  simp only [Chip.journalService, Chip.journal_muslin]
@[simp] theorem Chip.journalService_host (c : Chip) (f : Field) (v r : Nat) : (c.journalService f v r).host = c.host := by
  simp only [Chip.journalService, Chip.journal_host]
@[simp] theorem Chip.journalService_tku (c : Chip) (f : Field) (v r : Nat) : (c.journalService f v r).tku = c.tku := by
  simp only [Chip.journalService, Chip.journal_tku]
@[simp] theorem Chip.journalService_dsp (c : Chip) (f : Field) (v r : Nat) : (c.journalService f v r).dsp = c.dsp := by
  simp only [Chip.journalService, Chip.journal_dsp]
@[simp] theorem Chip.journalService_qmg (c : Chip) (f : Field) (v r : Nat) : (c.journalService f v r).qmg = c.qmg := by
  simp only [Chip.journalService, Chip.journal_qmg]
@[simp] theorem Chip.journalService_hif (c : Chip) (f : Field) (v r : Nat) : (c.journalService f v r).hif = c.hif := by
  simp only [Chip.journalService, Chip.journal_hif]
@[simp] theorem Chip.journalService_msl (c : Chip) (f : Field) (v r : Nat) : (c.journalService f v r).msl = c.msl := by
  simp only [Chip.journalService, Chip.journal_msl]
@[simp] theorem Chip.journalService_drc (c : Chip) (f : Field) (v r : Nat) : (c.journalService f v r).drc = c.drc := by
  simp only [Chip.journalService, Chip.journal_drc]
@[simp] theorem Chip.journalService_dmk (c : Chip) (f : Field) (v r : Nat) : (c.journalService f v r).dmk = c.dmk := by
  simp only [Chip.journalService, Chip.journal_dmk]
@[simp] theorem Chip.journalService_atu (c : Chip) (f : Field) (v r : Nat) : (c.journalService f v r).atu = c.atu := by
  simp only [Chip.journalService, Chip.journal_atu]
@[simp] theorem Chip.journalService_twl (c : Chip) (f : Field) (v r : Nat) : (c.journalService f v r).twl = c.twl := by
  simp only [Chip.journalService, Chip.journal_twl]
@[simp] theorem Chip.journalService_gze (c : Chip) (f : Field) (v r : Nat) : (c.journalService f v r).gze = c.gze := by
  simp only [Chip.journalService, Chip.journal_gze]
@[simp] theorem Chip.journalService_twd (c : Chip) (f : Field) (v r : Nat) : (c.journalService f v r).twd = c.twd := by
  simp only [Chip.journalService, Chip.journal_twd]
@[simp] theorem Chip.journalService_tul (c : Chip) (f : Field) (v r : Nat) : (c.journalService f v r).tul = c.tul := by
  simp only [Chip.journalService, Chip.journal_tul]
@[simp] theorem Chip.journalService_cnv (c : Chip) (f : Field) (v r : Nat) : (c.journalService f v r).cnv = c.cnv := by
  simp only [Chip.journalService, Chip.journal_cnv]
@[simp] theorem Chip.journalService_moved (c : Chip) (f : Field) (v r : Nat) : (c.journalService f v r).moved = c.moved := by
  simp only [Chip.journalService, Chip.journal_moved]
@[simp] theorem Chip.journalService_jrs (c : Chip) (f : Field) (v r : Nat) : (c.journalService f v r).jrs = c.jrs := by
  simp only [Chip.journalService, Chip.journal_jrs]
@[simp] theorem Chip.journalService_fld (c : Chip) (f : Field) (v r : Nat) : (c.journalService f v r).fld = c.fld := by
  simp only [Chip.journalService, Chip.journal_fld]
@[simp] theorem Chip.journalService_flash (c : Chip) (f : Field) (v r : Nat) : (c.journalService f v r).flash = c.flash := by
  simp only [Chip.journalService, Chip.journal_flash]
@[simp] theorem Chip.journalService_pwr (c : Chip) (f : Field) (v r : Nat) : (c.journalService f v r).pwr = c.pwr := by
  simp only [Chip.journalService, Chip.journal_pwr]
@[simp] theorem Chip.journalService_gng (c : Chip) (f : Field) (v r : Nat) : (c.journalService f v r).gng = c.gng := by
  simp only [Chip.journalService, Chip.journal_gng]
@[simp] theorem Chip.journalService_bup (c : Chip) (f : Field) (v r : Nat) : (c.journalService f v r).bup = c.bup := by
  simp only [Chip.journalService, Chip.journal_bup]
@[simp] theorem Chip.journalService_pkg (c : Chip) (f : Field) (v r : Nat) : (c.journalService f v r).pkg = c.pkg := by
  simp only [Chip.journalService, Chip.journal_pkg]
@[simp] theorem Chip.journalService_isolated (c : Chip) (f : Field) (v r : Nat) : (c.journalService f v r).isolated = c.isolated := by
  simp only [Chip.journalService, Chip.journal_isolated]
@[simp] theorem Chip.journalService_sent (c : Chip) (f : Field) (v r : Nat) : (c.journalService f v r).sent = c.sent := by
  simp only [Chip.journalService, Chip.journal_sent]
@[simp] theorem Chip.journalService_fresh (c : Chip) (f : Field) (v r : Nat) : (c.journalService f v r).fresh = c.fresh := by
  simp only [Chip.journalService, Chip.journal_fresh]

/-! ## Chip.setWeave -/

@[simp] theorem Chip.setWeave_regs (c : Chip) (w : Weave) : (c.setWeave w).regs = c.regs := rfl
@[simp] theorem Chip.setWeave_dict (c : Chip) (w : Weave) : (c.setWeave w).dict = c.dict := rfl
@[simp] theorem Chip.setWeave_muslin (c : Chip) (w : Weave) : (c.setWeave w).muslin = c.muslin := rfl
@[simp] theorem Chip.setWeave_host (c : Chip) (w : Weave) : (c.setWeave w).host = c.host := rfl
@[simp] theorem Chip.setWeave_tku (c : Chip) (w : Weave) : (c.setWeave w).tku = c.tku := rfl
@[simp] theorem Chip.setWeave_qmg (c : Chip) (w : Weave) : (c.setWeave w).qmg = c.qmg := rfl
@[simp] theorem Chip.setWeave_hif (c : Chip) (w : Weave) : (c.setWeave w).hif = c.hif := rfl
@[simp] theorem Chip.setWeave_msl (c : Chip) (w : Weave) : (c.setWeave w).msl = c.msl := rfl
@[simp] theorem Chip.setWeave_drc (c : Chip) (w : Weave) : (c.setWeave w).drc = c.drc := rfl
@[simp] theorem Chip.setWeave_dmk (c : Chip) (w : Weave) : (c.setWeave w).dmk = c.dmk := rfl
@[simp] theorem Chip.setWeave_atu (c : Chip) (w : Weave) : (c.setWeave w).atu = c.atu := rfl
@[simp] theorem Chip.setWeave_twl (c : Chip) (w : Weave) : (c.setWeave w).twl = c.twl := rfl
@[simp] theorem Chip.setWeave_gze (c : Chip) (w : Weave) : (c.setWeave w).gze = c.gze := rfl
@[simp] theorem Chip.setWeave_twd (c : Chip) (w : Weave) : (c.setWeave w).twd = c.twd := rfl
@[simp] theorem Chip.setWeave_tul (c : Chip) (w : Weave) : (c.setWeave w).tul = c.tul := rfl
@[simp] theorem Chip.setWeave_cnv (c : Chip) (w : Weave) : (c.setWeave w).cnv = c.cnv := rfl
@[simp] theorem Chip.setWeave_moved (c : Chip) (w : Weave) : (c.setWeave w).moved = c.moved := rfl
@[simp] theorem Chip.setWeave_jrs (c : Chip) (w : Weave) : (c.setWeave w).jrs = c.jrs := rfl
@[simp] theorem Chip.setWeave_fld (c : Chip) (w : Weave) : (c.setWeave w).fld = c.fld := rfl
@[simp] theorem Chip.setWeave_odx (c : Chip) (w : Weave) : (c.setWeave w).odx = c.odx := rfl
@[simp] theorem Chip.setWeave_flash (c : Chip) (w : Weave) : (c.setWeave w).flash = c.flash := rfl
@[simp] theorem Chip.setWeave_pwr (c : Chip) (w : Weave) : (c.setWeave w).pwr = c.pwr := rfl
@[simp] theorem Chip.setWeave_gng (c : Chip) (w : Weave) : (c.setWeave w).gng = c.gng := rfl
@[simp] theorem Chip.setWeave_bup (c : Chip) (w : Weave) : (c.setWeave w).bup = c.bup := rfl
@[simp] theorem Chip.setWeave_pkg (c : Chip) (w : Weave) : (c.setWeave w).pkg = c.pkg := rfl
@[simp] theorem Chip.setWeave_isolated (c : Chip) (w : Weave) : (c.setWeave w).isolated = c.isolated := rfl
@[simp] theorem Chip.setWeave_sent (c : Chip) (w : Weave) : (c.setWeave w).sent = c.sent := rfl
@[simp] theorem Chip.setWeave_fresh (c : Chip) (w : Weave) : (c.setWeave w).fresh = c.fresh := rfl

/-! ## Chip.setDescState -/

@[simp] theorem Chip.setDescState_regs (c : Chip) (id i : Nat) (s : DescState) : (c.setDescState id i s).regs = c.regs := by
  unfold Chip.setDescState; split <;> rfl
@[simp] theorem Chip.setDescState_dict (c : Chip) (id i : Nat) (s : DescState) : (c.setDescState id i s).dict = c.dict := by
  unfold Chip.setDescState; split <;> rfl
@[simp] theorem Chip.setDescState_muslin (c : Chip) (id i : Nat) (s : DescState) : (c.setDescState id i s).muslin = c.muslin := by
  unfold Chip.setDescState; split <;> rfl
@[simp] theorem Chip.setDescState_host (c : Chip) (id i : Nat) (s : DescState) : (c.setDescState id i s).host = c.host := by
  unfold Chip.setDescState; split <;> rfl
@[simp] theorem Chip.setDescState_tku (c : Chip) (id i : Nat) (s : DescState) : (c.setDescState id i s).tku = c.tku := by
  unfold Chip.setDescState; split <;> rfl
@[simp] theorem Chip.setDescState_qmg (c : Chip) (id i : Nat) (s : DescState) : (c.setDescState id i s).qmg = c.qmg := by
  unfold Chip.setDescState; split <;> rfl
@[simp] theorem Chip.setDescState_hif (c : Chip) (id i : Nat) (s : DescState) : (c.setDescState id i s).hif = c.hif := by
  unfold Chip.setDescState; split <;> rfl
@[simp] theorem Chip.setDescState_msl (c : Chip) (id i : Nat) (s : DescState) : (c.setDescState id i s).msl = c.msl := by
  unfold Chip.setDescState; split <;> rfl
@[simp] theorem Chip.setDescState_drc (c : Chip) (id i : Nat) (s : DescState) : (c.setDescState id i s).drc = c.drc := by
  unfold Chip.setDescState; split <;> rfl
@[simp] theorem Chip.setDescState_dmk (c : Chip) (id i : Nat) (s : DescState) : (c.setDescState id i s).dmk = c.dmk := by
  unfold Chip.setDescState; split <;> rfl
@[simp] theorem Chip.setDescState_atu (c : Chip) (id i : Nat) (s : DescState) : (c.setDescState id i s).atu = c.atu := by
  unfold Chip.setDescState; split <;> rfl
@[simp] theorem Chip.setDescState_twl (c : Chip) (id i : Nat) (s : DescState) : (c.setDescState id i s).twl = c.twl := by
  unfold Chip.setDescState; split <;> rfl
@[simp] theorem Chip.setDescState_gze (c : Chip) (id i : Nat) (s : DescState) : (c.setDescState id i s).gze = c.gze := by
  unfold Chip.setDescState; split <;> rfl
@[simp] theorem Chip.setDescState_twd (c : Chip) (id i : Nat) (s : DescState) : (c.setDescState id i s).twd = c.twd := by
  unfold Chip.setDescState; split <;> rfl
@[simp] theorem Chip.setDescState_tul (c : Chip) (id i : Nat) (s : DescState) : (c.setDescState id i s).tul = c.tul := by
  unfold Chip.setDescState; split <;> rfl
@[simp] theorem Chip.setDescState_cnv (c : Chip) (id i : Nat) (s : DescState) : (c.setDescState id i s).cnv = c.cnv := by
  unfold Chip.setDescState; split <;> rfl
@[simp] theorem Chip.setDescState_moved (c : Chip) (id i : Nat) (s : DescState) : (c.setDescState id i s).moved = c.moved := by
  unfold Chip.setDescState; split <;> rfl
@[simp] theorem Chip.setDescState_jrs (c : Chip) (id i : Nat) (s : DescState) : (c.setDescState id i s).jrs = c.jrs := by
  unfold Chip.setDescState; split <;> rfl
@[simp] theorem Chip.setDescState_fld (c : Chip) (id i : Nat) (s : DescState) : (c.setDescState id i s).fld = c.fld := by
  unfold Chip.setDescState; split <;> rfl
@[simp] theorem Chip.setDescState_odx (c : Chip) (id i : Nat) (s : DescState) : (c.setDescState id i s).odx = c.odx := by
  unfold Chip.setDescState; split <;> rfl
@[simp] theorem Chip.setDescState_flash (c : Chip) (id i : Nat) (s : DescState) : (c.setDescState id i s).flash = c.flash := by
  unfold Chip.setDescState; split <;> rfl
@[simp] theorem Chip.setDescState_pwr (c : Chip) (id i : Nat) (s : DescState) : (c.setDescState id i s).pwr = c.pwr := by
  unfold Chip.setDescState; split <;> rfl
@[simp] theorem Chip.setDescState_gng (c : Chip) (id i : Nat) (s : DescState) : (c.setDescState id i s).gng = c.gng := by
  unfold Chip.setDescState; split <;> rfl
@[simp] theorem Chip.setDescState_bup (c : Chip) (id i : Nat) (s : DescState) : (c.setDescState id i s).bup = c.bup := by
  unfold Chip.setDescState; split <;> rfl
@[simp] theorem Chip.setDescState_pkg (c : Chip) (id i : Nat) (s : DescState) : (c.setDescState id i s).pkg = c.pkg := by
  unfold Chip.setDescState; split <;> rfl
@[simp] theorem Chip.setDescState_isolated (c : Chip) (id i : Nat) (s : DescState) : (c.setDescState id i s).isolated = c.isolated := by
  unfold Chip.setDescState; split <;> rfl
@[simp] theorem Chip.setDescState_sent (c : Chip) (id i : Nat) (s : DescState) : (c.setDescState id i s).sent = c.sent := by
  unfold Chip.setDescState; split <;> rfl
@[simp] theorem Chip.setDescState_fresh (c : Chip) (id i : Nat) (s : DescState) : (c.setDescState id i s).fresh = c.fresh := by
  unfold Chip.setDescState; split <;> rfl

/-! ## Chip.setOp -/

@[simp] theorem Chip.setOp_regs (c : Chip) (u : Nat) (o : OpRun) : (c.setOp u o).regs = c.regs := rfl
@[simp] theorem Chip.setOp_dict (c : Chip) (u : Nat) (o : OpRun) : (c.setOp u o).dict = c.dict := rfl
@[simp] theorem Chip.setOp_muslin (c : Chip) (u : Nat) (o : OpRun) : (c.setOp u o).muslin = c.muslin := rfl
@[simp] theorem Chip.setOp_host (c : Chip) (u : Nat) (o : OpRun) : (c.setOp u o).host = c.host := rfl
@[simp] theorem Chip.setOp_tku (c : Chip) (u : Nat) (o : OpRun) : (c.setOp u o).tku = c.tku := rfl
@[simp] theorem Chip.setOp_qmg (c : Chip) (u : Nat) (o : OpRun) : (c.setOp u o).qmg = c.qmg := rfl
@[simp] theorem Chip.setOp_hif (c : Chip) (u : Nat) (o : OpRun) : (c.setOp u o).hif = c.hif := rfl
@[simp] theorem Chip.setOp_msl (c : Chip) (u : Nat) (o : OpRun) : (c.setOp u o).msl = c.msl := rfl
@[simp] theorem Chip.setOp_drc (c : Chip) (u : Nat) (o : OpRun) : (c.setOp u o).drc = c.drc := rfl
@[simp] theorem Chip.setOp_dmk (c : Chip) (u : Nat) (o : OpRun) : (c.setOp u o).dmk = c.dmk := rfl
@[simp] theorem Chip.setOp_atu (c : Chip) (u : Nat) (o : OpRun) : (c.setOp u o).atu = c.atu := rfl
@[simp] theorem Chip.setOp_twl (c : Chip) (u : Nat) (o : OpRun) : (c.setOp u o).twl = c.twl := rfl
@[simp] theorem Chip.setOp_gze (c : Chip) (u : Nat) (o : OpRun) : (c.setOp u o).gze = c.gze := rfl
@[simp] theorem Chip.setOp_twd (c : Chip) (u : Nat) (o : OpRun) : (c.setOp u o).twd = c.twd := rfl
@[simp] theorem Chip.setOp_tul (c : Chip) (u : Nat) (o : OpRun) : (c.setOp u o).tul = c.tul := rfl
@[simp] theorem Chip.setOp_cnv (c : Chip) (u : Nat) (o : OpRun) : (c.setOp u o).cnv = c.cnv := rfl
@[simp] theorem Chip.setOp_moved (c : Chip) (u : Nat) (o : OpRun) : (c.setOp u o).moved = c.moved := rfl
@[simp] theorem Chip.setOp_jrs (c : Chip) (u : Nat) (o : OpRun) : (c.setOp u o).jrs = c.jrs := rfl
@[simp] theorem Chip.setOp_fld (c : Chip) (u : Nat) (o : OpRun) : (c.setOp u o).fld = c.fld := rfl
@[simp] theorem Chip.setOp_odx (c : Chip) (u : Nat) (o : OpRun) : (c.setOp u o).odx = c.odx := rfl
@[simp] theorem Chip.setOp_flash (c : Chip) (u : Nat) (o : OpRun) : (c.setOp u o).flash = c.flash := rfl
@[simp] theorem Chip.setOp_pwr (c : Chip) (u : Nat) (o : OpRun) : (c.setOp u o).pwr = c.pwr := rfl
@[simp] theorem Chip.setOp_gng (c : Chip) (u : Nat) (o : OpRun) : (c.setOp u o).gng = c.gng := rfl
@[simp] theorem Chip.setOp_bup (c : Chip) (u : Nat) (o : OpRun) : (c.setOp u o).bup = c.bup := rfl
@[simp] theorem Chip.setOp_pkg (c : Chip) (u : Nat) (o : OpRun) : (c.setOp u o).pkg = c.pkg := rfl
@[simp] theorem Chip.setOp_isolated (c : Chip) (u : Nat) (o : OpRun) : (c.setOp u o).isolated = c.isolated := rfl
@[simp] theorem Chip.setOp_sent (c : Chip) (u : Nat) (o : OpRun) : (c.setOp u o).sent = c.sent := rfl
@[simp] theorem Chip.setOp_fresh (c : Chip) (u : Nat) (o : OpRun) : (c.setOp u o).fresh = c.fresh := rfl

/-! ## Chip.freeUnit -/

@[simp] theorem Chip.freeUnit_regs (c : Chip) (u : Nat) : (c.freeUnit u).regs = c.regs := rfl
@[simp] theorem Chip.freeUnit_dict (c : Chip) (u : Nat) : (c.freeUnit u).dict = c.dict := rfl
@[simp] theorem Chip.freeUnit_muslin (c : Chip) (u : Nat) : (c.freeUnit u).muslin = c.muslin := rfl
@[simp] theorem Chip.freeUnit_host (c : Chip) (u : Nat) : (c.freeUnit u).host = c.host := rfl
@[simp] theorem Chip.freeUnit_tku (c : Chip) (u : Nat) : (c.freeUnit u).tku = c.tku := rfl
@[simp] theorem Chip.freeUnit_qmg (c : Chip) (u : Nat) : (c.freeUnit u).qmg = c.qmg := rfl
@[simp] theorem Chip.freeUnit_hif (c : Chip) (u : Nat) : (c.freeUnit u).hif = c.hif := rfl
@[simp] theorem Chip.freeUnit_msl (c : Chip) (u : Nat) : (c.freeUnit u).msl = c.msl := rfl
@[simp] theorem Chip.freeUnit_drc (c : Chip) (u : Nat) : (c.freeUnit u).drc = c.drc := rfl
@[simp] theorem Chip.freeUnit_dmk (c : Chip) (u : Nat) : (c.freeUnit u).dmk = c.dmk := rfl
@[simp] theorem Chip.freeUnit_atu (c : Chip) (u : Nat) : (c.freeUnit u).atu = c.atu := rfl
@[simp] theorem Chip.freeUnit_twl (c : Chip) (u : Nat) : (c.freeUnit u).twl = c.twl := rfl
@[simp] theorem Chip.freeUnit_gze (c : Chip) (u : Nat) : (c.freeUnit u).gze = c.gze := rfl
@[simp] theorem Chip.freeUnit_twd (c : Chip) (u : Nat) : (c.freeUnit u).twd = c.twd := rfl
@[simp] theorem Chip.freeUnit_tul (c : Chip) (u : Nat) : (c.freeUnit u).tul = c.tul := rfl
@[simp] theorem Chip.freeUnit_cnv (c : Chip) (u : Nat) : (c.freeUnit u).cnv = c.cnv := rfl
@[simp] theorem Chip.freeUnit_moved (c : Chip) (u : Nat) : (c.freeUnit u).moved = c.moved := rfl
@[simp] theorem Chip.freeUnit_jrs (c : Chip) (u : Nat) : (c.freeUnit u).jrs = c.jrs := rfl
@[simp] theorem Chip.freeUnit_fld (c : Chip) (u : Nat) : (c.freeUnit u).fld = c.fld := rfl
@[simp] theorem Chip.freeUnit_odx (c : Chip) (u : Nat) : (c.freeUnit u).odx = c.odx := rfl
@[simp] theorem Chip.freeUnit_flash (c : Chip) (u : Nat) : (c.freeUnit u).flash = c.flash := rfl
@[simp] theorem Chip.freeUnit_pwr (c : Chip) (u : Nat) : (c.freeUnit u).pwr = c.pwr := rfl
@[simp] theorem Chip.freeUnit_gng (c : Chip) (u : Nat) : (c.freeUnit u).gng = c.gng := rfl
@[simp] theorem Chip.freeUnit_bup (c : Chip) (u : Nat) : (c.freeUnit u).bup = c.bup := rfl
@[simp] theorem Chip.freeUnit_pkg (c : Chip) (u : Nat) : (c.freeUnit u).pkg = c.pkg := rfl
@[simp] theorem Chip.freeUnit_isolated (c : Chip) (u : Nat) : (c.freeUnit u).isolated = c.isolated := rfl
@[simp] theorem Chip.freeUnit_sent (c : Chip) (u : Nat) : (c.freeUnit u).sent = c.sent := rfl
@[simp] theorem Chip.freeUnit_fresh (c : Chip) (u : Nat) : (c.freeUnit u).fresh = c.fresh := rfl

/-! ## Chip.setGrid -/

@[simp] theorem Chip.setGrid_regs (c : Chip) (id : Nat) (g : Grid) : (c.setGrid id g).regs = c.regs := rfl
@[simp] theorem Chip.setGrid_dict (c : Chip) (id : Nat) (g : Grid) : (c.setGrid id g).dict = c.dict := rfl
@[simp] theorem Chip.setGrid_muslin (c : Chip) (id : Nat) (g : Grid) : (c.setGrid id g).muslin = c.muslin := rfl
@[simp] theorem Chip.setGrid_host (c : Chip) (id : Nat) (g : Grid) : (c.setGrid id g).host = c.host := rfl
@[simp] theorem Chip.setGrid_dsp (c : Chip) (id : Nat) (g : Grid) : (c.setGrid id g).dsp = c.dsp := rfl
@[simp] theorem Chip.setGrid_qmg (c : Chip) (id : Nat) (g : Grid) : (c.setGrid id g).qmg = c.qmg := rfl
@[simp] theorem Chip.setGrid_hif (c : Chip) (id : Nat) (g : Grid) : (c.setGrid id g).hif = c.hif := rfl
@[simp] theorem Chip.setGrid_msl (c : Chip) (id : Nat) (g : Grid) : (c.setGrid id g).msl = c.msl := rfl
@[simp] theorem Chip.setGrid_drc (c : Chip) (id : Nat) (g : Grid) : (c.setGrid id g).drc = c.drc := rfl
@[simp] theorem Chip.setGrid_dmk (c : Chip) (id : Nat) (g : Grid) : (c.setGrid id g).dmk = c.dmk := rfl
@[simp] theorem Chip.setGrid_atu (c : Chip) (id : Nat) (g : Grid) : (c.setGrid id g).atu = c.atu := rfl
@[simp] theorem Chip.setGrid_twl (c : Chip) (id : Nat) (g : Grid) : (c.setGrid id g).twl = c.twl := rfl
@[simp] theorem Chip.setGrid_gze (c : Chip) (id : Nat) (g : Grid) : (c.setGrid id g).gze = c.gze := rfl
@[simp] theorem Chip.setGrid_twd (c : Chip) (id : Nat) (g : Grid) : (c.setGrid id g).twd = c.twd := rfl
@[simp] theorem Chip.setGrid_tul (c : Chip) (id : Nat) (g : Grid) : (c.setGrid id g).tul = c.tul := rfl
@[simp] theorem Chip.setGrid_cnv (c : Chip) (id : Nat) (g : Grid) : (c.setGrid id g).cnv = c.cnv := rfl
@[simp] theorem Chip.setGrid_moved (c : Chip) (id : Nat) (g : Grid) : (c.setGrid id g).moved = c.moved := rfl
@[simp] theorem Chip.setGrid_jrs (c : Chip) (id : Nat) (g : Grid) : (c.setGrid id g).jrs = c.jrs := rfl
@[simp] theorem Chip.setGrid_fld (c : Chip) (id : Nat) (g : Grid) : (c.setGrid id g).fld = c.fld := rfl
@[simp] theorem Chip.setGrid_odx (c : Chip) (id : Nat) (g : Grid) : (c.setGrid id g).odx = c.odx := rfl
@[simp] theorem Chip.setGrid_flash (c : Chip) (id : Nat) (g : Grid) : (c.setGrid id g).flash = c.flash := rfl
@[simp] theorem Chip.setGrid_pwr (c : Chip) (id : Nat) (g : Grid) : (c.setGrid id g).pwr = c.pwr := rfl
@[simp] theorem Chip.setGrid_gng (c : Chip) (id : Nat) (g : Grid) : (c.setGrid id g).gng = c.gng := rfl
@[simp] theorem Chip.setGrid_bup (c : Chip) (id : Nat) (g : Grid) : (c.setGrid id g).bup = c.bup := rfl
@[simp] theorem Chip.setGrid_pkg (c : Chip) (id : Nat) (g : Grid) : (c.setGrid id g).pkg = c.pkg := rfl
@[simp] theorem Chip.setGrid_isolated (c : Chip) (id : Nat) (g : Grid) : (c.setGrid id g).isolated = c.isolated := rfl
@[simp] theorem Chip.setGrid_sent (c : Chip) (id : Nat) (g : Grid) : (c.setGrid id g).sent = c.sent := rfl
@[simp] theorem Chip.setGrid_fresh (c : Chip) (id : Nat) (g : Grid) : (c.setGrid id g).fresh = c.fresh := rfl

/-! ## Chip.gridServe -/

@[simp] theorem Chip.gridServe_regs (c : Chip) (id t : Nat) : (c.gridServe id t).regs = c.regs := rfl
@[simp] theorem Chip.gridServe_dict (c : Chip) (id t : Nat) : (c.gridServe id t).dict = c.dict := rfl
@[simp] theorem Chip.gridServe_muslin (c : Chip) (id t : Nat) : (c.gridServe id t).muslin = c.muslin := rfl
@[simp] theorem Chip.gridServe_host (c : Chip) (id t : Nat) : (c.gridServe id t).host = c.host := rfl
@[simp] theorem Chip.gridServe_dsp (c : Chip) (id t : Nat) : (c.gridServe id t).dsp = c.dsp := rfl
@[simp] theorem Chip.gridServe_qmg (c : Chip) (id t : Nat) : (c.gridServe id t).qmg = c.qmg := rfl
@[simp] theorem Chip.gridServe_hif (c : Chip) (id t : Nat) : (c.gridServe id t).hif = c.hif := rfl
@[simp] theorem Chip.gridServe_msl (c : Chip) (id t : Nat) : (c.gridServe id t).msl = c.msl := rfl
@[simp] theorem Chip.gridServe_drc (c : Chip) (id t : Nat) : (c.gridServe id t).drc = c.drc := rfl
@[simp] theorem Chip.gridServe_dmk (c : Chip) (id t : Nat) : (c.gridServe id t).dmk = c.dmk := rfl
@[simp] theorem Chip.gridServe_atu (c : Chip) (id t : Nat) : (c.gridServe id t).atu = c.atu := rfl
@[simp] theorem Chip.gridServe_twl (c : Chip) (id t : Nat) : (c.gridServe id t).twl = c.twl := rfl
@[simp] theorem Chip.gridServe_gze (c : Chip) (id t : Nat) : (c.gridServe id t).gze = c.gze := rfl
@[simp] theorem Chip.gridServe_twd (c : Chip) (id t : Nat) : (c.gridServe id t).twd = c.twd := rfl
@[simp] theorem Chip.gridServe_tul (c : Chip) (id t : Nat) : (c.gridServe id t).tul = c.tul := rfl
@[simp] theorem Chip.gridServe_cnv (c : Chip) (id t : Nat) : (c.gridServe id t).cnv = c.cnv := rfl
@[simp] theorem Chip.gridServe_moved (c : Chip) (id t : Nat) : (c.gridServe id t).moved = c.moved := rfl
@[simp] theorem Chip.gridServe_jrs (c : Chip) (id t : Nat) : (c.gridServe id t).jrs = c.jrs := rfl
@[simp] theorem Chip.gridServe_fld (c : Chip) (id t : Nat) : (c.gridServe id t).fld = c.fld := rfl
@[simp] theorem Chip.gridServe_odx (c : Chip) (id t : Nat) : (c.gridServe id t).odx = c.odx := rfl
@[simp] theorem Chip.gridServe_flash (c : Chip) (id t : Nat) : (c.gridServe id t).flash = c.flash := rfl
@[simp] theorem Chip.gridServe_pwr (c : Chip) (id t : Nat) : (c.gridServe id t).pwr = c.pwr := rfl
@[simp] theorem Chip.gridServe_gng (c : Chip) (id t : Nat) : (c.gridServe id t).gng = c.gng := rfl
@[simp] theorem Chip.gridServe_bup (c : Chip) (id t : Nat) : (c.gridServe id t).bup = c.bup := rfl
@[simp] theorem Chip.gridServe_pkg (c : Chip) (id t : Nat) : (c.gridServe id t).pkg = c.pkg := rfl
@[simp] theorem Chip.gridServe_isolated (c : Chip) (id t : Nat) : (c.gridServe id t).isolated = c.isolated := rfl
@[simp] theorem Chip.gridServe_sent (c : Chip) (id t : Nat) : (c.gridServe id t).sent = c.sent := rfl
@[simp] theorem Chip.gridServe_fresh (c : Chip) (id t : Nat) : (c.gridServe id t).fresh = c.fresh := rfl

/-! ## Chip.gridFrom -/

@[simp] theorem Chip.gridFrom_regs (c : Chip) (id t : Nat) : (c.gridFrom id t).regs = c.regs := rfl
@[simp] theorem Chip.gridFrom_dict (c : Chip) (id t : Nat) : (c.gridFrom id t).dict = c.dict := rfl
@[simp] theorem Chip.gridFrom_muslin (c : Chip) (id t : Nat) : (c.gridFrom id t).muslin = c.muslin := rfl
@[simp] theorem Chip.gridFrom_host (c : Chip) (id t : Nat) : (c.gridFrom id t).host = c.host := rfl
@[simp] theorem Chip.gridFrom_dsp (c : Chip) (id t : Nat) : (c.gridFrom id t).dsp = c.dsp := rfl
@[simp] theorem Chip.gridFrom_qmg (c : Chip) (id t : Nat) : (c.gridFrom id t).qmg = c.qmg := rfl
@[simp] theorem Chip.gridFrom_hif (c : Chip) (id t : Nat) : (c.gridFrom id t).hif = c.hif := rfl
@[simp] theorem Chip.gridFrom_msl (c : Chip) (id t : Nat) : (c.gridFrom id t).msl = c.msl := rfl
@[simp] theorem Chip.gridFrom_drc (c : Chip) (id t : Nat) : (c.gridFrom id t).drc = c.drc := rfl
@[simp] theorem Chip.gridFrom_dmk (c : Chip) (id t : Nat) : (c.gridFrom id t).dmk = c.dmk := rfl
@[simp] theorem Chip.gridFrom_atu (c : Chip) (id t : Nat) : (c.gridFrom id t).atu = c.atu := rfl
@[simp] theorem Chip.gridFrom_twl (c : Chip) (id t : Nat) : (c.gridFrom id t).twl = c.twl := rfl
@[simp] theorem Chip.gridFrom_gze (c : Chip) (id t : Nat) : (c.gridFrom id t).gze = c.gze := rfl
@[simp] theorem Chip.gridFrom_twd (c : Chip) (id t : Nat) : (c.gridFrom id t).twd = c.twd := rfl
@[simp] theorem Chip.gridFrom_tul (c : Chip) (id t : Nat) : (c.gridFrom id t).tul = c.tul := rfl
@[simp] theorem Chip.gridFrom_cnv (c : Chip) (id t : Nat) : (c.gridFrom id t).cnv = c.cnv := rfl
@[simp] theorem Chip.gridFrom_moved (c : Chip) (id t : Nat) : (c.gridFrom id t).moved = c.moved := rfl
@[simp] theorem Chip.gridFrom_jrs (c : Chip) (id t : Nat) : (c.gridFrom id t).jrs = c.jrs := rfl
@[simp] theorem Chip.gridFrom_fld (c : Chip) (id t : Nat) : (c.gridFrom id t).fld = c.fld := rfl
@[simp] theorem Chip.gridFrom_odx (c : Chip) (id t : Nat) : (c.gridFrom id t).odx = c.odx := rfl
@[simp] theorem Chip.gridFrom_flash (c : Chip) (id t : Nat) : (c.gridFrom id t).flash = c.flash := rfl
@[simp] theorem Chip.gridFrom_pwr (c : Chip) (id t : Nat) : (c.gridFrom id t).pwr = c.pwr := rfl
@[simp] theorem Chip.gridFrom_gng (c : Chip) (id t : Nat) : (c.gridFrom id t).gng = c.gng := rfl
@[simp] theorem Chip.gridFrom_bup (c : Chip) (id t : Nat) : (c.gridFrom id t).bup = c.bup := rfl
@[simp] theorem Chip.gridFrom_pkg (c : Chip) (id t : Nat) : (c.gridFrom id t).pkg = c.pkg := rfl
@[simp] theorem Chip.gridFrom_isolated (c : Chip) (id t : Nat) : (c.gridFrom id t).isolated = c.isolated := rfl
@[simp] theorem Chip.gridFrom_sent (c : Chip) (id t : Nat) : (c.gridFrom id t).sent = c.sent := rfl
@[simp] theorem Chip.gridFrom_fresh (c : Chip) (id t : Nat) : (c.gridFrom id t).fresh = c.fresh := rfl

/-! ## Parts that an update sets -/

@[simp] theorem Chip.emit_sent (c : Chip) (p : Port) (a b : Nat) (data : List Byte) :
    (c.emit p a b data).sent = ⟨p, a, b, data⟩ :: c.sent := rfl
/-! ## The parts a command names -/

@[simp] theorem Chip.only_regs_in (d c : Chip) (ps : List Part) (h : ps.contains .regs = true) : (d.only ps c).regs = d.regs := by
  unfold Chip.only
  rw [h]
  rfl
@[simp] theorem Chip.only_regs_out (d c : Chip) (ps : List Part) (h : ps.contains .regs = false) : (d.only ps c).regs = c.regs := by
  unfold Chip.only
  rw [h]
  rfl
@[simp] theorem Chip.only_dict_in (d c : Chip) (ps : List Part) (h : ps.contains .dict = true) : (d.only ps c).dict = d.dict := by
  unfold Chip.only
  rw [h]
  rfl
@[simp] theorem Chip.only_dict_out (d c : Chip) (ps : List Part) (h : ps.contains .dict = false) : (d.only ps c).dict = c.dict := by
  unfold Chip.only
  rw [h]
  rfl
@[simp] theorem Chip.only_muslin_in (d c : Chip) (ps : List Part) (h : ps.contains .muslin = true) : (d.only ps c).muslin = d.muslin := by
  unfold Chip.only
  rw [h]
  rfl
@[simp] theorem Chip.only_muslin_out (d c : Chip) (ps : List Part) (h : ps.contains .muslin = false) : (d.only ps c).muslin = c.muslin := by
  unfold Chip.only
  rw [h]
  rfl
@[simp] theorem Chip.only_host_in (d c : Chip) (ps : List Part) (h : ps.contains .host = true) : (d.only ps c).host = d.host := by
  unfold Chip.only
  rw [h]
  rfl
@[simp] theorem Chip.only_host_out (d c : Chip) (ps : List Part) (h : ps.contains .host = false) : (d.only ps c).host = c.host := by
  unfold Chip.only
  rw [h]
  rfl
@[simp] theorem Chip.only_tku_in (d c : Chip) (ps : List Part) (h : ps.contains .tku = true) : (d.only ps c).tku = d.tku := by
  unfold Chip.only
  rw [h]
  rfl
@[simp] theorem Chip.only_tku_out (d c : Chip) (ps : List Part) (h : ps.contains .tku = false) : (d.only ps c).tku = c.tku := by
  unfold Chip.only
  rw [h]
  rfl
@[simp] theorem Chip.only_dsp_in (d c : Chip) (ps : List Part) (h : ps.contains .dsp = true) : (d.only ps c).dsp = d.dsp := by
  unfold Chip.only
  rw [h]
  rfl
@[simp] theorem Chip.only_dsp_out (d c : Chip) (ps : List Part) (h : ps.contains .dsp = false) : (d.only ps c).dsp = c.dsp := by
  unfold Chip.only
  rw [h]
  rfl
@[simp] theorem Chip.only_qmg_in (d c : Chip) (ps : List Part) (h : ps.contains .qmg = true) : (d.only ps c).qmg = d.qmg := by
  unfold Chip.only
  rw [h]
  rfl
@[simp] theorem Chip.only_qmg_out (d c : Chip) (ps : List Part) (h : ps.contains .qmg = false) : (d.only ps c).qmg = c.qmg := by
  unfold Chip.only
  rw [h]
  rfl
@[simp] theorem Chip.only_hif_in (d c : Chip) (ps : List Part) (h : ps.contains .hif = true) : (d.only ps c).hif = d.hif := by
  unfold Chip.only
  rw [h]
  rfl
@[simp] theorem Chip.only_hif_out (d c : Chip) (ps : List Part) (h : ps.contains .hif = false) : (d.only ps c).hif = c.hif := by
  unfold Chip.only
  rw [h]
  rfl
@[simp] theorem Chip.only_msl_in (d c : Chip) (ps : List Part) (h : ps.contains .msl = true) : (d.only ps c).msl = d.msl := by
  unfold Chip.only
  rw [h]
  rfl
@[simp] theorem Chip.only_msl_out (d c : Chip) (ps : List Part) (h : ps.contains .msl = false) : (d.only ps c).msl = c.msl := by
  unfold Chip.only
  rw [h]
  rfl
@[simp] theorem Chip.only_drc_in (d c : Chip) (ps : List Part) (h : ps.contains .drc = true) : (d.only ps c).drc = d.drc := by
  unfold Chip.only
  rw [h]
  rfl
@[simp] theorem Chip.only_drc_out (d c : Chip) (ps : List Part) (h : ps.contains .drc = false) : (d.only ps c).drc = c.drc := by
  unfold Chip.only
  rw [h]
  rfl
@[simp] theorem Chip.only_dmk_in (d c : Chip) (ps : List Part) (h : ps.contains .dmk = true) : (d.only ps c).dmk = d.dmk := by
  unfold Chip.only
  rw [h]
  rfl
@[simp] theorem Chip.only_dmk_out (d c : Chip) (ps : List Part) (h : ps.contains .dmk = false) : (d.only ps c).dmk = c.dmk := by
  unfold Chip.only
  rw [h]
  rfl
@[simp] theorem Chip.only_atu_in (d c : Chip) (ps : List Part) (h : ps.contains .atu = true) : (d.only ps c).atu = d.atu := by
  unfold Chip.only
  rw [h]
  rfl
@[simp] theorem Chip.only_atu_out (d c : Chip) (ps : List Part) (h : ps.contains .atu = false) : (d.only ps c).atu = c.atu := by
  unfold Chip.only
  rw [h]
  rfl
@[simp] theorem Chip.only_twl_in (d c : Chip) (ps : List Part) (h : ps.contains .twl = true) : (d.only ps c).twl = d.twl := by
  unfold Chip.only
  rw [h]
  rfl
@[simp] theorem Chip.only_twl_out (d c : Chip) (ps : List Part) (h : ps.contains .twl = false) : (d.only ps c).twl = c.twl := by
  unfold Chip.only
  rw [h]
  rfl
@[simp] theorem Chip.only_gze_in (d c : Chip) (ps : List Part) (h : ps.contains .gze = true) : (d.only ps c).gze = d.gze := by
  unfold Chip.only
  rw [h]
  rfl
@[simp] theorem Chip.only_gze_out (d c : Chip) (ps : List Part) (h : ps.contains .gze = false) : (d.only ps c).gze = c.gze := by
  unfold Chip.only
  rw [h]
  rfl
@[simp] theorem Chip.only_twd_in (d c : Chip) (ps : List Part) (h : ps.contains .twd = true) : (d.only ps c).twd = d.twd := by
  unfold Chip.only
  rw [h]
  rfl
@[simp] theorem Chip.only_twd_out (d c : Chip) (ps : List Part) (h : ps.contains .twd = false) : (d.only ps c).twd = c.twd := by
  unfold Chip.only
  rw [h]
  rfl
@[simp] theorem Chip.only_tul_in (d c : Chip) (ps : List Part) (h : ps.contains .tul = true) : (d.only ps c).tul = d.tul := by
  unfold Chip.only
  rw [h]
  rfl
@[simp] theorem Chip.only_tul_out (d c : Chip) (ps : List Part) (h : ps.contains .tul = false) : (d.only ps c).tul = c.tul := by
  unfold Chip.only
  rw [h]
  rfl
@[simp] theorem Chip.only_cnv_in (d c : Chip) (ps : List Part) (h : ps.contains .cnv = true) : (d.only ps c).cnv = d.cnv := by
  unfold Chip.only
  rw [h]
  rfl
@[simp] theorem Chip.only_cnv_out (d c : Chip) (ps : List Part) (h : ps.contains .cnv = false) : (d.only ps c).cnv = c.cnv := by
  unfold Chip.only
  rw [h]
  rfl
@[simp] theorem Chip.only_moved_in (d c : Chip) (ps : List Part) (h : ps.contains .moved = true) : (d.only ps c).moved = d.moved := by
  unfold Chip.only
  rw [h]
  rfl
@[simp] theorem Chip.only_moved_out (d c : Chip) (ps : List Part) (h : ps.contains .moved = false) : (d.only ps c).moved = c.moved := by
  unfold Chip.only
  rw [h]
  rfl
@[simp] theorem Chip.only_jrs_in (d c : Chip) (ps : List Part) (h : ps.contains .jrs = true) : (d.only ps c).jrs = d.jrs := by
  unfold Chip.only
  rw [h]
  rfl
@[simp] theorem Chip.only_jrs_out (d c : Chip) (ps : List Part) (h : ps.contains .jrs = false) : (d.only ps c).jrs = c.jrs := by
  unfold Chip.only
  rw [h]
  rfl
@[simp] theorem Chip.only_fld_in (d c : Chip) (ps : List Part) (h : ps.contains .fld = true) : (d.only ps c).fld = d.fld := by
  unfold Chip.only
  rw [h]
  rfl
@[simp] theorem Chip.only_fld_out (d c : Chip) (ps : List Part) (h : ps.contains .fld = false) : (d.only ps c).fld = c.fld := by
  unfold Chip.only
  rw [h]
  rfl
@[simp] theorem Chip.only_odx_in (d c : Chip) (ps : List Part) (h : ps.contains .odx = true) : (d.only ps c).odx = d.odx := by
  unfold Chip.only
  rw [h]
  rfl
@[simp] theorem Chip.only_odx_out (d c : Chip) (ps : List Part) (h : ps.contains .odx = false) : (d.only ps c).odx = c.odx := by
  unfold Chip.only
  rw [h]
  rfl
@[simp] theorem Chip.only_flash_in (d c : Chip) (ps : List Part) (h : ps.contains .flash = true) : (d.only ps c).flash = d.flash := by
  unfold Chip.only
  rw [h]
  rfl
@[simp] theorem Chip.only_flash_out (d c : Chip) (ps : List Part) (h : ps.contains .flash = false) : (d.only ps c).flash = c.flash := by
  unfold Chip.only
  rw [h]
  rfl
@[simp] theorem Chip.only_pwr_in (d c : Chip) (ps : List Part) (h : ps.contains .pwr = true) : (d.only ps c).pwr = d.pwr := by
  unfold Chip.only
  rw [h]
  rfl
@[simp] theorem Chip.only_pwr_out (d c : Chip) (ps : List Part) (h : ps.contains .pwr = false) : (d.only ps c).pwr = c.pwr := by
  unfold Chip.only
  rw [h]
  rfl
@[simp] theorem Chip.only_gng_in (d c : Chip) (ps : List Part) (h : ps.contains .gng = true) : (d.only ps c).gng = d.gng := by
  unfold Chip.only
  rw [h]
  rfl
@[simp] theorem Chip.only_gng_out (d c : Chip) (ps : List Part) (h : ps.contains .gng = false) : (d.only ps c).gng = c.gng := by
  unfold Chip.only
  rw [h]
  rfl
@[simp] theorem Chip.only_bup_in (d c : Chip) (ps : List Part) (h : ps.contains .bup = true) : (d.only ps c).bup = d.bup := by
  unfold Chip.only
  rw [h]
  rfl
@[simp] theorem Chip.only_bup_out (d c : Chip) (ps : List Part) (h : ps.contains .bup = false) : (d.only ps c).bup = c.bup := by
  unfold Chip.only
  rw [h]
  rfl
@[simp] theorem Chip.only_keeper (d c : Chip) (ps : List Part) : (d.only ps c).pkg.keeper = c.pkg.keeper := by
  unfold Chip.only
  cases ps.contains .pkg <;> rfl
@[simp] theorem Chip.only_resetLow (d c : Chip) (ps : List Part) : (d.only ps c).pkg.resetLow = c.pkg.resetLow := by
  unfold Chip.only
  cases ps.contains .pkg <;> rfl
@[simp] theorem Chip.only_refclk (d c : Chip) (ps : List Part) : (d.only ps c).pkg.refclk = c.pkg.refclk := by
  unfold Chip.only
  cases ps.contains .pkg <;> rfl
theorem Chip.only_pkg_in (d c : Chip) (ps : List Part) (h : ps.contains .pkg = true) : (d.only ps c).pkg =
    { d.pkg with keeper := c.pkg.keeper, resetLow := c.pkg.resetLow, refclk := c.pkg.refclk } := by
  unfold Chip.only
  rw [h]
  rfl
@[simp] theorem Chip.only_pkg_out (d c : Chip) (ps : List Part) (h : ps.contains .pkg = false) : (d.only ps c).pkg = c.pkg := by
  unfold Chip.only
  rw [h]
  rfl
@[simp] theorem Chip.only_isolated_in (d c : Chip) (ps : List Part) (h : ps.contains .isolated = true) : (d.only ps c).isolated = d.isolated := by
  unfold Chip.only
  rw [h]
  rfl
@[simp] theorem Chip.only_isolated_out (d c : Chip) (ps : List Part) (h : ps.contains .isolated = false) : (d.only ps c).isolated = c.isolated := by
  unfold Chip.only
  rw [h]
  rfl
@[simp] theorem Chip.only_sent_in (d c : Chip) (ps : List Part) (h : ps.contains .sent = true) : (d.only ps c).sent = d.sent := by
  unfold Chip.only
  rw [h]
  rfl
@[simp] theorem Chip.only_sent_out (d c : Chip) (ps : List Part) (h : ps.contains .sent = false) : (d.only ps c).sent = c.sent := by
  unfold Chip.only
  rw [h]
  rfl
@[simp] theorem Chip.only_fresh_in (d c : Chip) (ps : List Part) (h : ps.contains .fresh = true) : (d.only ps c).fresh = d.fresh := by
  unfold Chip.only
  rw [h]
  rfl
@[simp] theorem Chip.only_fresh_out (d c : Chip) (ps : List Part) (h : ps.contains .fresh = false) : (d.only ps c).fresh = c.fresh := by
  unfold Chip.only
  rw [h]
  rfl
@[simp] theorem Chip.only_rd_in (d c : Chip) (ps : List Part) (f : Field) (i : Nat) (h : ps.contains .regs = true) :
    (d.only ps c).rd f i = d.rd f i := by
  simp only [Chip.rd, Chip.only_regs_in _ _ _ h]
@[simp] theorem Chip.only_rd_out (d c : Chip) (ps : List Part) (f : Field) (i : Nat) (h : ps.contains .regs = false) :
    (d.only ps c).rd f i = c.rd f i := by
  simp only [Chip.rd, Chip.only_regs_out _ _ _ h]
@[simp] theorem Chip.only_on_in (d c : Chip) (ps : List Part) (f : Field) (i : Nat) (h : ps.contains .regs = true) :
    (d.only ps c).on f i = d.on f i := by
  simp only [Chip.on, Chip.rd, Chip.only_regs_in _ _ _ h]
@[simp] theorem Chip.only_on_out (d c : Chip) (ps : List Part) (f : Field) (i : Nat) (h : ps.contains .regs = false) :
    (d.only ps c).on f i = c.on f i := by
  simp only [Chip.on, Chip.rd, Chip.only_regs_out _ _ _ h]
@[simp] theorem Chip.only_entry_in (d c : Chip) (ps : List Part) (i s : Nat) (h : ps.contains .dict = true) :
    (d.only ps c).entry i s = d.entry i s := by
  simp only [Chip.entry, Chip.only_dict_in _ _ _ h]
@[simp] theorem Chip.only_entry_out (d c : Chip) (ps : List Part) (i s : Nat) (h : ps.contains .dict = false) :
    (d.only ps c).entry i s = c.entry i s := by
  simp only [Chip.entry, Chip.only_dict_out _ _ _ h]
@[simp] theorem Chip.only_op_in (d c : Chip) (ps : List Part) (u : Nat) (h : ps.contains .dsp = true) :
    (d.only ps c).op? u = d.op? u := by
  simp only [Chip.op?, Chip.only_dsp_in _ _ _ h]
@[simp] theorem Chip.only_op_out (d c : Chip) (ps : List Part) (u : Nat) (h : ps.contains .dsp = false) :
    (d.only ps c).op? u = c.op? u := by
  simp only [Chip.op?, Chip.only_dsp_out _ _ _ h]
@[simp] theorem Chip.only_now_in (d c : Chip) (ps : List Part)  (h : ps.contains .tku = true) :
    (d.only ps c).now = d.now := by
  simp only [Chip.now, Chip.only_tku_in _ _ _ h]
@[simp] theorem Chip.only_now_out (d c : Chip) (ps : List Part)  (h : ps.contains .tku = false) :
    (d.only ps c).now = c.now := by
  simp only [Chip.now, Chip.only_tku_out _ _ _ h]
/-- A chip that named parts came to acts as the chip did before. -/
@[simp] theorem Chip.only_live (d c : Chip) (ps : List Part) : (d.only ps c).live = c.live := by
  simp [Chip.live]

/-- A command that only acts while the KB9 acts, where it does. -/
theorem State.run_awake (s : State) (ps : List Part) (f : Chip → Chip) (h : s.chip.awake = true) :
    s.run ps f = .next { s with chip := (f s.chip).only ps s.chip } := by
  simp [State.run, State.runPins, h]

/-- A command through domain 0 alone, while the KB9 acts. -/
theorem State.runKeeper_live (s : State) (ps : List Part) (f : Chip → Chip) (h : s.chip.live = true) :
    s.runKeeper ps f = .next { s with chip := (f s.chip).only ps s.chip } := by
  simp [State.runKeeper, State.runPins, h]

/-- A host access through a BAR, where the host is heard. -/
theorem State.runHost_heard (s : State) (ps : List Part) (f : Chip → Chip) (h : s.chip.heard = true) :
    s.runHost ps f = .next { s with chip := (f s.chip).only ps s.chip } := by
  simp [State.runHost, State.runPins, h]

/-- A host access through a BAR that is not served changes nothing. -/
theorem State.runHost_unheard (s : State) (ps : List Part) (f : Chip → Chip) (h : s.chip.heard = false) : s.runHost ps f = .next s := by
  simp [State.runHost, State.runPins, h]

/-- A chip whose host is heard has its domains on. -/
theorem Chip.awake_of_heard (c : Chip) (h : c.heard = true) : c.awake = true := by
  simp only [Chip.heard, Bool.and_eq_true] at h
  exact h.1

/-- A command to a chip whose domains are off changes nothing. -/
theorem State.run_asleep (s : State) (ps : List Part) (f : Chip → Chip) (h : s.chip.awake = false) : s.run ps f = .next s := by
  simp [State.run, State.runPins, h]

/-- A command to a chip that does not act changes nothing. -/
theorem State.runKeeper_dead (s : State) (ps : List Part) (f : Chip → Chip) (h : s.chip.live = false) : s.runKeeper ps f = .next s := by
  simp [State.runKeeper, State.runPins, h]

/-- A chip whose domains are on acts. -/
theorem Chip.live_of_awake (c : Chip) (h : c.awake = true) : c.live = true := by
  simp only [Chip.awake, Bool.and_eq_true] at h
  exact h.1

/-! ## Tables -/

@[simp] theorem Table.get?_put_self {α : Type} (t : Table α) (k : Nat) (v : α) : Table.get? (Table.put t k v) k = some v := by
  induction t with
  | nil => simp [Table.put, Table.get?]
  | cons p t ih =>
    obtain ⟨a, w⟩ := p
    unfold Table.put
    split
    · simp [Table.get?]
    · next h =>
      split
      · simp [Table.get?]
      · next h' =>
        have : a ≠ k := fun e => h' e.symm
        simp [Table.get?, this, ih]

theorem Table.get?_put_other {α : Type} (t : Table α) (j k : Nat) (v : α) (h : j ≠ k) :
    Table.get? (Table.put t k v) j = Table.get? t j := by
  induction t with
  | nil => simp [Table.put, Table.get?, h.symm]
  | cons p t ih =>
    obtain ⟨a, w⟩ := p
    unfold Table.put
    split
    · simp [Table.get?, h.symm]
    · split
      · next h' => subst h'; simp [Table.get?, h.symm]
      · simp [Table.get?, ih]

@[simp] theorem Table.get?_del_self {α : Type} (t : Table α) (k : Nat) : Table.get? (Table.del t k) k = none := by
  induction t with
  | nil => rfl
  | cons p t ih =>
    obtain ⟨a, w⟩ := p
    unfold Table.del at ih ⊢
    by_cases h : a = k
    · simp [h, ih]
    · simp [h, Table.get?, ih]

theorem Table.get?_del_other {α : Type} (t : Table α) (j k : Nat) (h : j ≠ k) :
    Table.get? (Table.del t k) j = Table.get? t j := by
  induction t with
  | nil => rfl
  | cons p t ih =>
    obtain ⟨a, w⟩ := p
    unfold Table.del at ih ⊢
    by_cases ha : a = k
    · subst ha
      simp [Table.get?, h.symm, ih]
    · simp [ha, Table.get?, ih]

/-- The operation set on a unit is the one on it. -/
@[simp] theorem Chip.op_setOp_self (c : Chip) (u : Nat) (o : OpRun) : (c.setOp u o).op? u = some o :=
  Table.get?_put_self c.dsp.running u o

theorem Chip.op_setOp_other (c : Chip) (u v : Nat) (o : OpRun) (h : v ≠ u) : (c.setOp u o).op? v = c.op? v :=
  Table.get?_put_other c.dsp.running v u o h

/-- A freed unit has no operation. -/
@[simp] theorem Chip.op_freeUnit_self (c : Chip) (u : Nat) : (c.freeUnit u).op? u = none :=
  Table.get?_del_self c.dsp.running u

theorem Chip.op_freeUnit_other (c : Chip) (u v : Nat) (h : v ≠ u) : (c.freeUnit u).op? v = c.op? v :=
  Table.get?_del_other c.dsp.running v u h

/-- The operations run as before when the dispatch tables do. -/
theorem Chip.op_congr (c d : Chip) (u : Nat) (h : d.dsp = c.dsp) : d.op? u = c.op? u := by
  unfold Chip.op?
  rw [h]

/-- What reads one part of the chip reads the same in chips that agree in that part. -/
theorem Chip.live_congr (c d : Chip) (h : d.pkg = c.pkg) : d.live = c.live := by
  unfold Chip.live
  rw [h]

theorem Chip.awake_congr (c d : Chip) (h : d.pkg = c.pkg) : d.awake = c.awake := by
  unfold Chip.awake
  rw [Chip.live_congr c d h, h]

theorem Chip.rd_congr (c d : Chip) (f : Field) (i : Nat) (h : d.regs = c.regs) : d.rd f i = c.rd f i := by
  unfold Chip.rd
  rw [h]

theorem Chip.on_congr (c d : Chip) (f : Field) (i : Nat) (h : d.regs = c.regs) : d.on f i = c.on f i := by
  unfold Chip.on
  rw [Chip.rd_congr c d f i h]

theorem Chip.entry_congr (c d : Chip) (i s : Nat) (h : d.dict = c.dict) : d.entry i s = c.entry i s := by
  unfold Chip.entry
  rw [h]

theorem Chip.now_congr (c d : Chip) (h : d.tku = c.tku) : d.now = c.now := by
  unfold Chip.now
  rw [h]

theorem Chip.weave_congr (c d : Chip) (id : Nat) (h : d.dsp = c.dsp) : d.weave? id = c.weave? id := by
  unfold Chip.weave?
  rw [h]

/-- An entry set is read. -/
@[simp] theorem Chip.entry_setEntry_self (c : Chip) (i s v : Nat) : (c.setEntry i s v).entry i s = v := by
  unfold Chip.setEntry
  split
  · next h => simp [Chip.entry, h]
  · simp [Chip.entry]

theorem Chip.entry_setEntry_other (c : Chip) (i s v j t : Nat) (h : entryKey j t ≠ entryKey i s) :
    (c.setEntry i s v).entry j t = c.entry j t := by
  unfold Chip.setEntry
  split
  · simp [Chip.entry, Table.get?_del_other _ _ _ h]
  · simp [Chip.entry, Table.get?_put_other _ _ _ _ h]

end Sys2Proof.Machine
end

