-- ==== Sys2Proof/Laws/Ops.lean ====
section
/-!
SUPPORT. What the shared operations can do: one law for each, which says the whole of its effect or where its effect stays.
-/
namespace Sys2Proof.Machine

set_option Elab.async false

/-! ## Frames -/

/-- What was taken from a chip's named parts differs from the chip in those parts only. -/
theorem Chip.within_only (c d : Chip) (ps : List Part) : c.within (d.only ps c) ps := by
  simp only [Chip.within, Chip.only, Chip.mk.injEq]
  and_intros <;> (cases ps.contains _ <;> rfl)

/-- A command of a chip whose domains are on answers, within the parts it names. -/
theorem answers_run (s : State) (i : Instr) (ps : List Part) (f : Chip → Chip) (P : Chip → Prop) (h : s.chip.awake = true)
    (e : exec i s = s.run ps f) (p : P ((f s.chip).only ps s.chip)) : Answers s i (fun d => s.chip.within d ps ∧ P d) :=
  ⟨(f s.chip).only ps s.chip, by rw [e, State.run_awake _ _ _ h], Chip.within_only _ _ _, p⟩

/-- A host access that is served answers, within the parts it names. -/
theorem answers_runHost (s : State) (i : Instr) (ps : List Part) (f : Chip → Chip) (P : Chip → Prop) (h : s.chip.heard = true)
    (e : exec i s = s.runHost ps f) (p : P ((f s.chip).only ps s.chip)) : Answers s i (fun d => s.chip.within d ps ∧ P d) :=
  ⟨(f s.chip).only ps s.chip, by rw [e, State.runHost_heard _ _ _ h], Chip.within_only _ _ _, p⟩

/-- A command through domain 0 of a chip that acts answers, within the parts it names. -/
theorem answers_runKeeper (s : State) (i : Instr) (ps : List Part) (f : Chip → Chip) (P : Chip → Prop) (h : s.chip.live = true)
    (e : exec i s = s.runKeeper ps f) (p : P ((f s.chip).only ps s.chip)) : Answers s i (fun d => s.chip.within d ps ∧ P d) :=
  ⟨(f s.chip).only ps s.chip, by rw [e, State.runKeeper_live _ _ _ h], Chip.within_only _ _ _, p⟩

/-- A chip that lies within parts keeps every other part. -/
theorem Chip.within_keeps {α : Type} (c d : Chip) (ps : List Part) (g : Chip → α) (h : c.within d ps)
    (k : g (d.only ps c) = g c) : g d = g c := by
  rw [← h]
  exact k

/-! ## Tiles -/

@[simp] theorem Chip.worked_dsp (c d : Chip) : (c.worked d).dsp = c.dsp := rfl
@[simp] theorem Chip.untouched_dsp (c : Chip) : c.untouched.dsp = c.dsp := rfl

/-- Work that nothing can hold back is done: QUIESCE is off, no Muslin group keeps requests, and the DRAM channels are awake. -/
theorem Chip.unlessHeld_runs (c : Chip) (f : Chip → Chip) (hq : c.on R.DRC_CTRL_QUIESCE = false) (hg : c.groupsHold = false)
    (hs : c.drc.selfRefresh = false) : c.unlessHeld f = f c.untouched := by
  simp only [Chip.unlessHeld, hq, hg, hs, Bool.false_and, Bool.false_eq_true, if_false]

/-- A tile whose parameters pass runs: the operation is on its unit with the tile's results. -/
theorem Chip.runTile_done (c : Chip) (u e k : Nat) (check : Chip → OpRun → Nat) (tile : Chip → OpRun → Chip × OpRun) (o : OpRun)
    (h : c.awaitsTile u o e k) (hc : o.begun = true ∨ check c.untouched o = St.OK) :
    ∃ d r, c.runTile u e k check tile = (c.untouched.worked d).setOp u (o.worked r) := by
  obtain ⟨-, hop, haw, hd, hq, hg, hs⟩ := h
  have h1 : (decide (u ≤ 1) && c.damaskHeld) = false := by
    by_cases hu : u ≤ 1
    · simp [hd hu]
    · simp [hu]
  have h2 : (if o.begun = true then St.OK else check c.untouched o) = St.OK := by
    rcases hc with hc | hc
    · simp [hc]
    · simp [hc]
  refine ⟨(tile c.untouched { o with begun := true, tileReady := true }).1,
    (tile c.untouched { o with begun := true, tileReady := true }).2, ?_⟩
  unfold Chip.runTile Chip.onOp
  simp only [h1, hop, haw, c.unlessHeld_runs _ hq hg hs, h2, if_true, Bool.false_eq_true, if_false, bne_self_eq_false]

/-- A tile whose parameters fail the check ends the operation with the status of the check. -/
theorem Chip.runTile_refused (c : Chip) (u e k : Nat) (check : Chip → OpRun → Nat) (tile : Chip → OpRun → Chip × OpRun) (o : OpRun)
    (h : c.awaitsTile u o e k) (hb : o.begun = false) (hc : check c.untouched o ≠ St.OK) :
    c.runTile u e k check tile = c.untouched.setOp u (o.ends (check c.untouched o)) := by
  obtain ⟨-, hop, haw, hd, hq, hg, hs⟩ := h
  have h1 : (decide (u ≤ 1) && c.damaskHeld) = false := by
    by_cases hu : u ≤ 1
    · simp [hd hu]
    · simp [hu]
  unfold Chip.runTile Chip.onOp
  simp only [h1, hop, haw, c.unlessHeld_runs _ hq hg hs, hb, if_true, Bool.false_eq_true, if_false, bne_iff_ne, ne_eq, hc,
    not_false_eq_true]

/-- The work of a tile is done as `TileDone` says. -/
theorem tileDone_of (c b a d : Chip) (u : Nat) (o r : OpRun) (x : Chip) (ps : List Part) (hp : ps.contains .dsp = true)
    (hb : b.dsp = c.dsp) (e : d = ((b.untouched.worked x).setOp u (o.worked r)).only ps a) : TileDone c u o d := by
  have hd : d.dsp = ((b.untouched.worked x).setOp u (o.worked r)).dsp := by rw [e, Chip.only_dsp_in _ _ _ hp]
  refine ⟨⟨r, ?_⟩, ?_, ?_, ?_, ?_⟩
  · rw [Chip.op_congr _ _ _ hd, Chip.op_setOp_self]
  · intro v hv
    rw [Chip.op_congr _ _ _ hd, Chip.op_setOp_other _ _ _ _ hv]
    exact Chip.op_congr _ _ _ hb
  · rw [hd, ← hb]; rfl
  · rw [hd, ← hb]; rfl
  · rw [hd, ← hb]; rfl

/-- A command that runs a tile wherever one is awaited is a tile command. -/
theorem tileCommand_where (i : Instr) (u e k : Nat) (ps : List Part) (check : Chip → OpRun → Nat)
    (tile : Chip → OpRun → Chip × OpRun) (hd : ps.contains .dsp = true) (hr : ps.contains .drc = true) (hm : ps.contains .msl = true)
    (h : ∀ s o, s.chip.awaitsTile u o e k → ∃ f, exec i s = s.run ps f ∧ f s.chip = s.chip.runTile u e k check tile) :
    TileCommand i u e k ps check := by
  intro s o ho
  obtain ⟨f, hf, hfc⟩ := h s o ho
  have ha := ho.1
  refine ⟨fun hc => ?_, fun hb hc => ?_⟩
  · obtain ⟨x, r, he⟩ := Chip.runTile_done s.chip u e k check tile o ho hc
    refine answers_run s i ps _ _ ha hf ?_
    exact tileDone_of s.chip s.chip s.chip _ u o r x ps hd rfl (by rw [hfc, he])
  · have he := Chip.runTile_refused s.chip u e k check tile o ho hb hc
    refine ⟨_, by rw [hf, State.run_awake _ _ _ ha], ?_⟩
    rw [hfc, he]
    have hdsp := Chip.only_dsp_in (s.chip.untouched.setOp u (o.ends (check s.chip.untouched o))) s.chip ps hd
    have hdrc := Chip.only_drc_in (s.chip.untouched.setOp u (o.ends (check s.chip.untouched o))) s.chip ps hr
    have hmsl := Chip.only_msl_in (s.chip.untouched.setOp u (o.ends (check s.chip.untouched o))) s.chip ps hm
    refine ⟨?_, ?_, hdrc, hmsl, ?_⟩
    · rw [Chip.op_congr _ _ _ hdsp, Chip.op_setOp_self]
    · have : (s.chip.untouched.setOp u (o.ends (check s.chip.untouched o))).only ps s.chip =
          { s.chip with dsp := (s.chip.untouched.setOp u (o.ends (check s.chip.untouched o))).dsp,
                        msl := s.chip.untouched.msl, drc := s.chip.untouched.drc } := by
        simp only [Chip.only, Chip.mk.injEq]
        and_intros <;> first | (rw [hd]; rfl) | (rw [hr]; rfl) | (rw [hm]; rfl) | (cases ps.contains _ <;> rfl)
      rw [this]
      rfl
    · intro v hv
      rw [Chip.op_congr _ _ _ hdsp, Chip.op_setOp_other _ _ _ _ hv]
      exact Chip.op_congr _ _ _ rfl

/-- A command that only runs a tile is a tile command. -/
theorem tileCommand_of (i : Instr) (u e k : Nat) (ps : List Part) (check : Chip → OpRun → Nat)
    (tile : Chip → OpRun → Chip × OpRun) (hd : ps.contains .dsp = true) (hr : ps.contains .drc = true) (hm : ps.contains .msl = true)
    (h : ∀ s, exec i s = s.run ps (fun c => c.runTile u e k check tile)) : TileCommand i u e k ps check :=
  tileCommand_where i u e k ps check tile hd hr hm (fun s _ _ => ⟨_, h s, rfl⟩)

end Sys2Proof.Machine
end

