-- ==== Sys2Proof/Laws/Frames.lean ====
section
/-!
SUPPORT. Where the effect of each shared operation stays: one law for each operation, which names the parts of the chip that it can
reach.
-/
namespace Sys2Proof.Machine

set_option Elab.async false

/-! ## Reasoning with frames -/

theorem Chip.within_refl (c : Chip) (ps : List Part) : c.within c ps := by
  simp only [Chip.within, Chip.only, Bool.cond_self]

/-- What lies within some parts lies within more. -/
theorem Chip.within_mono (c d : Chip) (ps qs : List Part) (h : c.within d ps) (s : (ps.all fun p => qs.contains p) = true) :
    c.within d qs := by
  have sub : ∀ p, ps.contains p = true → qs.contains p = true := by
    intro p hp
    exact List.all_eq_true.mp s p (by simpa using hp)
  have key : ∀ {α : Type} (p : Part) (x y : α), (bif ps.contains p then x else y) = x → (bif qs.contains p then x else y) = x := by
    intro α p x y e
    cases hq : qs.contains p with
    | true => rfl
    | false =>
      cases hp : ps.contains p with
      | true => rw [sub p hp] at hq; cases hq
      | false => rw [hp] at e; exact e
  unfold Chip.within Chip.only at h ⊢
  rw [Chip.mk.injEq] at h ⊢
  obtain ⟨h1, h2, h3, h4, h5, h6, h7, h8, h9, h10, h11, h12, h13, h14, h15, h16, h17, h18, h19, h20, h21, h22, h23, h24, h25, h26,
    h27, h28, h29⟩ := h
  refine ⟨key _ _ _ h1, key _ _ _ h2, key _ _ _ h3, key _ _ _ h4, key _ _ _ h5, key _ _ _ h6, key _ _ _ h7, key _ _ _ h8,
    key _ _ _ h9, key _ _ _ h10, key _ _ _ h11, key _ _ _ h12, key _ _ _ h13, key _ _ _ h14, key _ _ _ h15, key _ _ _ h16,
    key _ _ _ h17, key _ _ _ h18, key _ _ _ h19, key _ _ _ h20, key _ _ _ h21, key _ _ _ h22, key _ _ _ h23, key _ _ _ h24,
    key _ _ _ h25, ?_, key _ _ _ h27, key _ _ _ h28, key _ _ _ h29⟩
  cases hq : qs.contains .pkg with
  | true =>
    cases hp : ps.contains .pkg with
    | true => rw [hp] at h26; exact h26
    | false =>
      rw [hp] at h26
      have e : c.pkg = d.pkg := h26
      rw [← e]
      rfl
  | false =>
    cases hp : ps.contains .pkg with
    | true => rw [sub _ hp] at hq; cases hq
    | false => rw [hp] at h26; exact h26

/-- Two updates within the same parts. -/
theorem Chip.within_trans (c d e : Chip) (ps : List Part) (h : c.within d ps) (k : d.within e ps) : c.within e ps := by
  have key : ∀ {α : Type} (b : Bool) (x y z : α), (bif b then y else x) = y → (bif b then z else y) = z →
      (bif b then z else x) = z := by
    intro α b x y z hy hz
    cases b with
    | true => rfl
    | false => exact hy.trans hz
  unfold Chip.within Chip.only at h k ⊢
  rw [Chip.mk.injEq] at h k ⊢
  obtain ⟨h1, h2, h3, h4, h5, h6, h7, h8, h9, h10, h11, h12, h13, h14, h15, h16, h17, h18, h19, h20, h21, h22, h23, h24, h25, h26,
    h27, h28, h29⟩ := h
  obtain ⟨k1, k2, k3, k4, k5, k6, k7, k8, k9, k10, k11, k12, k13, k14, k15, k16, k17, k18, k19, k20, k21, k22, k23, k24, k25, k26,
    k27, k28, k29⟩ := k
  refine ⟨key _ _ _ _ h1 k1, key _ _ _ _ h2 k2, key _ _ _ _ h3 k3, key _ _ _ _ h4 k4, key _ _ _ _ h5 k5, key _ _ _ _ h6 k6,
    key _ _ _ _ h7 k7, key _ _ _ _ h8 k8, key _ _ _ _ h9 k9, key _ _ _ _ h10 k10, key _ _ _ _ h11 k11, key _ _ _ _ h12 k12,
    key _ _ _ _ h13 k13, key _ _ _ _ h14 k14, key _ _ _ _ h15 k15, key _ _ _ _ h16 k16, key _ _ _ _ h17 k17,
    key _ _ _ _ h18 k18, key _ _ _ _ h19 k19, key _ _ _ _ h20 k20, key _ _ _ _ h21 k21, key _ _ _ _ h22 k22,
    key _ _ _ _ h23 k23, key _ _ _ _ h24 k24, key _ _ _ _ h25 k25, ?_, key _ _ _ _ h27 k27, key _ _ _ _ h28 k28,
    key _ _ _ _ h29 k29⟩
  cases hp : ps.contains .pkg with
  | false =>
    rw [hp] at h26 k26
    exact h26.trans k26
  | true =>
    rw [hp] at h26 k26
    have e1 := congrArg Pkg.keeper h26
    have e2 := congrArg Pkg.resetLow h26
    have e3 := congrArg Pkg.refclk h26
    simp only [cond_true] at e1 e2 e3 k26 ⊢
    rw [e1, e2, e3]
    exact k26

/-- A choice between two updates within parts. -/
theorem Chip.within_ite (c d e : Chip) (p : Prop) [Decidable p] (ps : List Part) (h : c.within d ps) (k : c.within e ps) :
    c.within (if p then d else e) ps := by
  split
  · exact h
  · exact k

/-- A run of updates, each within parts. -/
theorem Chip.within_foldl {α : Type} (f : Chip → α → Chip) (ps : List Part) (h : ∀ (c : Chip) (a : α), c.within (f c a) ps)
    (l : List α) : ∀ c : Chip, c.within (l.foldl f c) ps := by
  induction l with
  | nil => intro c; exact Chip.within_refl c ps
  | cons a l ih => intro c; exact Chip.within_trans _ _ _ _ (h c a) (ih (f c a))

/-- A projection that no update of a run moves. -/
theorem foldl_keeps {α β γ : Type} (f : γ → α → γ) (g : γ → β) (h : ∀ c a, g (f c a) = g c) (l : List α) :
    ∀ c, g (l.foldl f c) = g c := by
  induction l with
  | nil => intro c; rfl
  | cons a l ih => intro c; exact (ih (f c a)).trans (h c a)

/-- One more update, within fewer parts. -/
theorem Chip.within_step {c d e : Chip} {ps : List Part} (qs : List Part) (h : c.within d ps) (k : d.within e qs)
    (s : (qs.all fun p => ps.contains p) = true) : c.within e ps :=
  Chip.within_trans c d e ps h (Chip.within_mono d e qs ps k s)

/-! ## Registers, events, entries -/

theorem Chip.wr_within (c : Chip) (f : Field) (v i : Nat) : c.within (c.wr f v i) [.regs] := rfl
theorem Chip.count_within (c : Chip) (f : Field) (i n : Nat) : c.within (c.count f i n) [.regs] := rfl
theorem Chip.emit_within (c : Chip) (p : Port) (a b : Nat) (data : List Byte) : c.within (c.emit p a b data) [.sent] := rfl

theorem Chip.sendVector_within (c : Chip) (v : Nat) : c.within (c.sendVector v) [.regs, .sent] := by
  unfold Chip.sendVector
  split
  · rfl
  · split <;> rfl

theorem Chip.raise_within (c : Chip) (n : Nat) : c.within (c.raise n) [.regs, .sent] := by
  unfold Chip.raise
  dsimp only
  split
  · rfl
  · split
    · rfl
    · exact Chip.within_step _ (Chip.within_mono _ _ _ _ (Chip.wr_within c _ _ _) rfl) (Chip.sendVector_within _ n) rfl

theorem Chip.latchFault_within (c : Chip) (f : Field) (i : Nat) : c.within (c.latchFault f i) [.regs, .sent] := by
  unfold Chip.latchFault
  split
  · rfl
  · exact Chip.within_step _ (Chip.within_mono _ _ _ _ (Chip.wr_within c f 1 i) rfl) (Chip.raise_within _ 0) rfl

theorem Chip.setEntry_within (c : Chip) (i s v : Nat) : c.within (c.setEntry i s v) [.dict] := by
  unfold Chip.setEntry
  split
  · rfl
  · rfl

theorem Chip.journalAt_within (c : Chip) (t : Nat) (f : JournalFields) : c.within (c.journalAt t f) [.dict, .odx] := by
  unfold Chip.journalAt
  dsimp only
  refine Chip.within_step [.dict] (Chip.within_step [.dict] ?_ (Chip.setEntry_within _ _ _ _) rfl) (Chip.setEntry_within _ _ _ _) rfl
  rfl

theorem Chip.journal_within (c : Chip) (f : JournalFields) : c.within (c.journal f) [.dict, .odx] := Chip.journalAt_within c _ f

theorem Chip.advanceTo_within (c : Chip) (t : Nat) : c.within (c.advanceTo t) [.tku] := by
  unfold Chip.advanceTo
  split
  · rfl
  · rfl

/-! ## Muslin -/

theorem Chip.setDomainState_within (c : Chip) (d v : Nat) : c.within (c.setDomainState d v) [.regs] := by
  unfold Chip.setDomainState
  split
  · rfl
  · rfl

theorem Chip.setPhase_within (c : Chip) (g : Nat) (p : GroupPhase) : c.within (c.setPhase g p) [.regs, .msl] := by
  unfold Chip.setPhase
  exact Chip.within_step [.regs]
    (Chip.within_step [.regs] (d := c.setGroup g _) rfl (Chip.setDomainState_within _ _ _) rfl) (Chip.wr_within _ _ _ _) rfl

theorem Chip.wakeGroup_within (c : Chip) (g : Nat) : c.within (c.wakeGroup g) [.regs, .msl] := by
  unfold Chip.wakeGroup
  split
  · exact Chip.setPhase_within c g _
  · split
    · exact Chip.setPhase_within c g _
    · exact Chip.within_step _ (d := c.isolateGroup g) rfl (Chip.setPhase_within _ g _) rfl
  · exact Chip.within_refl c _

theorem Chip.touchGroup_within (c : Chip) (g : Nat) : c.within (c.touchGroup g) [.regs, .msl] := by
  unfold Chip.touchGroup
  exact Chip.within_step [.msl] (Chip.wakeGroup_within c g) rfl rfl

theorem Chip.holdRequest_within (c : Chip) (g : Nat) (i : Instr) (word : Nat) : c.within (c.holdRequest g i word) [.regs, .msl] := by
  unfold Chip.holdRequest
  exact Chip.within_step [.msl] (Chip.wakeGroup_within c g) rfl rfl

theorem Chip.muslinUe_within (c : Chip) (w src : Nat) : c.within (c.muslinUe w src) [.regs, .sent] := by
  unfold Chip.muslinUe
  have h : c.within ((c.count R.MSL_ECC_UE_CNT).latchFault R.MSL_STATUS_UE_LATCH) [.regs, .sent] :=
    Chip.within_step _ (Chip.within_mono _ _ _ _ (Chip.count_within c _ _ _) rfl) (Chip.latchFault_within _ _ _) rfl
  dsimp only
  split
  · exact h
  · exact Chip.within_step [.regs] h rfl rfl

/-- A write request reaches registers, Muslin and its bookkeeping, and may send an interrupt. -/
theorem Chip.muslinWrite_within (c : Chip) (m : WriteMode) (off : Nat) (data : List Byte) :
    c.within (c.muslinWrite m off data).1 [.regs, .muslin, .msl, .sent] := by
  have h : c.within (c.touchGroup (groupOf off)) [.regs, .muslin, .msl, .sent] :=
    Chip.within_mono _ _ _ _ (Chip.touchGroup_within c _) rfl
  unfold Chip.muslinWrite
  dsimp only
  split
  · exact h
  · split
    · exact Chip.within_step _ h (Chip.latchFault_within _ _ _) rfl
    · split
      · exact Chip.within_trans _ _ _ _ h (Chip.within_foldl _ _
          (fun c w => Chip.within_mono _ _ _ _ (Chip.muslinUe_within c w 4) rfl) _ _)
      · exact Chip.within_step [.muslin, .msl] h rfl rfl

theorem Chip.muslinRead_within (c : Chip) (off n src : Nat) : c.within (c.muslinRead off n src).1 [.regs, .msl, .sent] := by
  have h : c.within (c.touchGroup (groupOf off)) [.regs, .msl, .sent] :=
    Chip.within_mono _ _ _ _ (Chip.touchGroup_within c _) rfl
  unfold Chip.muslinRead
  dsimp only
  split
  · exact h
  · split
    · exact Chip.within_trans _ _ _ _ h (Chip.within_foldl _ _
        (fun c w => Chip.within_mono _ _ _ _ (Chip.muslinUe_within c w src) rfl) _ _)
    · exact h

/-! ## DRAM -/

theorem Chip.touchDram_within (c : Chip) : c.within c.touchDram [.regs, .drc] := by
  unfold Chip.touchDram
  refine Chip.within_step [.drc] (d := if c.drc.selfRefresh then (c.wr R.DRC_STATUS_SELF_REFRESH 0).setDomainState 3 0 else c)
    ?_ rfl rfl
  split
  · exact Chip.within_step [.regs] (Chip.within_mono _ _ _ _ (Chip.wr_within c _ _ _) rfl) (Chip.setDomainState_within _ _ _) rfl
  · rfl

theorem Chip.dramUe_within (c : Chip) (b src : Nat) : c.within (c.dramUe b src) [.regs, .sent] := by
  unfold Chip.dramUe
  have h : c.within ((c.count R.DRC_ECC_UE_CNT).latchFault R.DRC_STATUS_UE_LATCH) [.regs, .sent] :=
    Chip.within_step _ (Chip.within_mono _ _ _ _ (Chip.count_within c _ _ _) rfl) (Chip.latchFault_within _ _ _) rfl
  dsimp only
  split
  · exact h
  · exact Chip.within_step [.regs] h rfl rfl

theorem Chip.dramRead_within (c : Chip) (off n src : Nat) : c.within (c.dramRead off n src).1 [.regs, .drc, .sent] := by
  have h : c.within c.touchDram [.regs, .drc, .sent] := Chip.within_mono _ _ _ _ (Chip.touchDram_within c) rfl
  unfold Chip.dramRead
  dsimp only
  split
  · rfl
  · split
    · exact h
    · split
      · exact Chip.within_trans _ _ _ _ h (Chip.within_foldl _ _
          (fun c b => Chip.within_mono _ _ _ _ (Chip.dramUe_within c _ src) rfl) _ _)
      · exact h

theorem Chip.dramWrite_within (c : Chip) (off : Nat) (data : List Byte) :
    c.within (c.dramWrite off data).1 [.regs, .drc, .sent] := by
  have h : c.within c.touchDram [.regs, .drc, .sent] := Chip.within_mono _ _ _ _ (Chip.touchDram_within c) rfl
  unfold Chip.dramWrite
  dsimp only
  split
  · rfl
  · split
    · exact h
    · split
      · exact Chip.within_trans _ _ _ _ h (Chip.within_foldl _ _
          (fun c b => Chip.within_mono _ _ _ _ (Chip.dramUe_within c _ 1) rfl) _ _)
      · exact Chip.within_step [.drc] h rfl rfl

/-! ## Access through a device address -/

theorem Chip.within_foldl_fst {α β : Type} (f : Chip × β → α → Chip × β) (ps : List Part)
    (h : ∀ (s : Chip × β) (a : α), s.1.within (f s a).1 ps) (l : List α) : ∀ s : Chip × β, s.1.within (l.foldl f s).1 ps := by
  induction l with
  | nil => intro s; exact Chip.within_refl s.1 ps
  | cons a l ih => intro s; exact Chip.within_trans _ _ _ _ (h s a) (ih (f s a))

/-- A read through a device address reaches no bytes. -/
theorem Chip.devRead_within (c : Chip) (a n : Nat) : c.within (c.devRead a n).1 [.regs, .msl, .drc, .sent] := by
  unfold Chip.devRead
  dsimp only
  split
  · refine Chip.within_foldl_fst _ _ (fun s p => ?_) _ (c, St.OK, [])
    split
    · exact Chip.within_refl _ _
    · exact Chip.within_mono _ _ _ _ (Chip.dramRead_within _ _ _ _) rfl
  · refine Chip.within_foldl_fst _ _ (fun s p => ?_) _ (c, St.OK, [])
    split
    · exact Chip.within_refl _ _
    · exact Chip.within_mono _ _ _ _ (Chip.muslinRead_within _ _ _ _) rfl

theorem Chip.devWrite_within (c : Chip) (a : Nat) (data : List Byte) :
    c.within (c.devWrite a data).1 [.regs, .muslin, .msl, .drc, .sent] := by
  unfold Chip.devWrite
  dsimp only
  split
  · refine Chip.within_foldl_fst _ _ (fun s p => ?_) _ (c, St.OK)
    split
    · exact Chip.within_refl _ _
    · exact Chip.within_mono _ _ _ _ (Chip.dramWrite_within _ _ _) rfl
  · refine Chip.within_foldl_fst _ _ (fun s p => ?_) _ (c, St.OK)
    split
    · exact Chip.within_refl _ _
    · exact Chip.within_mono _ _ _ _ (Chip.muslinWrite_within _ _ _ _) rfl

/-! ## Queues and records -/

theorem Chip.lose_within (c : Chip) : c.within c.lose [.regs, .sent] := by
  unfold Chip.lose
  exact Chip.within_step _ (d := (c.count R.QMG_LOST_CNT).latch R.QMG_STATUS_LOST) rfl (Chip.raise_within _ 2) rfl

theorem Chip.loseFor_within (c : Chip) (n : Nat) : c.within (c.loseFor n) [.regs, .qmg, .sent] := by
  unfold Chip.loseFor
  dsimp only
  split
  · exact Chip.within_step _ (d := c.setQueue n _) rfl (Chip.lose_within _) rfl
  · exact Chip.within_mono _ _ _ _ (Chip.lose_within c) rfl

theorem Chip.setQueue_within (c : Chip) (n : Nat) (q : Queue) : c.within (c.setQueue n q) [.qmg] := rfl

theorem Chip.queueInterrupt_within (c : Chip) (n : Nat) : c.within (c.queueInterrupt n) [.regs, .qmg, .sent] := by
  unfold Chip.queueInterrupt
  split
  · dsimp only
    split
    · rfl
    · exact Chip.within_step _ (d := c.setQueue n _) rfl (Chip.sendVector_within _ _) rfl
  · rfl

theorem Chip.ringWrite_within (c : Chip) (n : Nat) (q : Queue) (e : Nat) (irq : Bool) :
    c.within (c.ringWrite n q e irq) [.regs, .muslin, .qmg, .msl, .sent] := by
  unfold Chip.ringWrite
  dsimp only
  have h := fun v => Chip.within_mono _ _ _ [.regs, .muslin, .qmg, .msl, .sent]
    (Chip.muslinWrite_within c .plain (devOffset (q.slot q.produced)) v) rfl
  refine Chip.within_ite _ _ _ _ _ (Chip.within_step _ (h _) (Chip.loseFor_within _ _) rfl) (Chip.within_ite _ _ _ _ _ ?_ ?_)
  · exact Chip.within_step _ (Chip.within_step _ (h _) (Chip.setQueue_within _ _ _) rfl)
      (Chip.queueInterrupt_within _ _) rfl
  · exact Chip.within_step _ (h _) (Chip.setQueue_within _ _ _) rfl

theorem Chip.spillRecord_within (c : Chip) (n rec : Nat) (irq : Bool) :
    c.within (c.spillRecord n rec irq) [.regs, .muslin, .qmg, .msl, .sent] := by
  unfold Chip.spillRecord
  split
  · exact Chip.within_mono _ _ _ _ (Chip.loseFor_within c n) rfl
  · have h := Chip.within_mono _ _ _ [.regs, .muslin, .qmg, .msl, .sent] (Chip.muslinWrite_within c .plain (c.spillOff ‹Nat›) (leBytes 32 rec)) rfl
    dsimp only
    split
    · exact Chip.within_step _ h (Chip.loseFor_within _ _) rfl
    · exact Chip.within_step [.regs, .qmg] h rfl rfl

theorem Chip.writeRecord_within (c : Chip) (n rec : Nat) (irq : Bool) :
    c.within (c.writeRecord n rec irq) [.regs, .muslin, .qmg, .msl, .sent] := by
  unfold Chip.writeRecord
  split
  · split
    · exact Chip.within_mono _ _ _ _ (Chip.lose_within c) rfl
    · split
      · exact Chip.spillRecord_within c n rec irq
      · exact Chip.ringWrite_within c _ _ _ _
  · exact Chip.within_mono _ _ _ _ (Chip.lose_within c) rfl

theorem Chip.produce_within (c : Chip) (n e : Nat) : c.within (c.produce n e) [.regs, .muslin, .qmg, .msl, .sent] := by
  unfold Chip.produce
  split
  · split
    · exact Chip.within_mono _ _ _ _ (Chip.loseFor_within c n) rfl
    · exact Chip.ringWrite_within c _ _ _ _
  · exact Chip.within_mono _ _ _ _ (Chip.lose_within c) rfl

theorem Chip.postMessage_within (c : Chip) (n : Nat) (q : Queue) :
    c.within (c.postMessage n q).1 [.regs, .muslin, .qmg, .msl, .drc, .sent] := by
  unfold Chip.postMessage
  have h : c.within (c.devRead q.stageAddr 64).1 [.regs, .muslin, .qmg, .msl, .drc, .sent] :=
    Chip.within_mono _ _ _ _ (Chip.devRead_within c _ _) rfl
  split
  · exact Chip.within_mono _ _ _ _ (Chip.loseFor_within c n) rfl
  · dsimp only
    split
    · exact Chip.within_step _ h (Chip.loseFor_within _ _) rfl
    · exact Chip.within_step _ h (Chip.ringWrite_within _ _ _ _ _) rfl

/-- A completion report reaches rings, registers and what a memory access leaves behind; no dispatch table. -/
theorem Chip.report_within (c : Chip) (w : Weave) (i : Nat) (r : RecInfo) :
    c.within (c.report w i r) [.regs, .muslin, .qmg, .msl, .drc, .sent] := by
  unfold Chip.report
  dsimp only
  split
  · split
    · split
      · exact Chip.postMessage_within c _ _
      · exact Chip.within_step _ (Chip.postMessage_within c _ _) (Chip.writeRecord_within _ _ _ _) rfl
    · exact Chip.within_mono _ _ _ _ (Chip.writeRecord_within c _ _ _) rfl
  · split
    · rfl
    · exact Chip.within_mono _ _ _ _ (Chip.writeRecord_within c _ _ _) rfl

/-! ## Dispatch -/

theorem Chip.finishDesc_within (c : Chip) (id i : Nat) (r : RecInfo) :
    c.within (c.finishDesc id i r) [.regs, .muslin, .dsp, .qmg, .msl, .drc, .dmk, .gng, .sent] := rfl
theorem Chip.settle_within (c : Chip) : c.within c.settle [.regs, .muslin, .dsp, .qmg, .msl, .drc, .dmk, .gng, .sent] := rfl
theorem Chip.completeOp_within (c : Chip) (u : Nat) (o : OpRun) :
    c.within (c.completeOp u o) [.regs, .muslin, .dsp, .qmg, .msl, .drc, .dmk, .gng, .sent] := rfl
theorem Chip.failUnit_within (c : Chip) (u st : Nat) :
    c.within (c.failUnit u st) [.regs, .muslin, .dsp, .qmg, .msl, .drc, .dmk, .gng, .sent] := rfl

theorem Chip.showHold_within (c : Chip) (slot : Nat) : c.within (c.showHold slot) [.regs] := by
  unfold Chip.showHold
  dsimp only
  split
  · rfl
  · rfl

theorem Chip.setHold_within (c : Chip) (slot : Nat) (h : Option HoldRec) : c.within (c.setHold slot h) [.regs, .atu] := by
  unfold Chip.setHold
  dsimp only
  refine Chip.within_trans _ _ _ _ (?_ : c.within _ _) (Chip.within_mono _ _ _ _ (Chip.showHold_within _ slot) rfl)
  rfl

theorem Chip.leaveAtu_within (c : Chip) (o : OpRun) : c.within (c.leaveAtu o) [.regs, .atu] := by
  unfold Chip.leaveAtu Chip.atuUnlock
  have h : c.within ((AtuCtx.ofList o.ctx).locks.foldl (fun c n => if ([] : List Nat).contains n then c else c.seqBit n 1 false) c)
      [.regs, .atu] :=
    Chip.within_foldl _ _ (fun c n => Chip.within_mono _ _ _ _ (Chip.wr_within c _ _ _) rfl) _ c
  dsimp only
  split
  · exact Chip.within_step _ h (Chip.setHold_within _ _ _) rfl
  · exact h

/-- Work that fails on an engine reaches what completions reach, and the ATU's hold table. -/
theorem Chip.failEngine_within (c : Chip) (u st : Nat) :
    c.within (c.failEngine u st) [.regs, .muslin, .dsp, .qmg, .msl, .drc, .dmk, .atu, .gng, .sent] := by
  unfold Chip.failEngine
  refine Chip.within_step _ (?_ : c.within _ _) (Chip.failUnit_within _ u st) rfl
  split
  · exact Chip.within_foldl _ _ (fun c o => Chip.within_mono _ _ _ _ (Chip.leaveAtu_within c o) rfl) _ c
  · split
    · unfold Chip.tearTable
      split
      · rfl
      · rfl
    · exact Chip.within_refl c _

theorem Chip.refresh_within (c : Chip) : c.within c.refresh [.regs] := rfl

end Sys2Proof.Machine
end

