-- ==== Sys2Proof/Laws/Package.lean ====
section
/-!
SUPPORT. Where host-facing resets, sessions and the switching of domains stay, and what the switching leaves.
-/
namespace Sys2Proof.Machine

set_option Elab.async false

/-! ## Queues and sessions -/

theorem Chip.setSpill_within (c : Chip) (l : List SpillRec) : c.within (c.setSpill l) [.regs, .qmg] := rfl

theorem Chip.disableQueue_within (c : Chip) (n : Nat) : c.within (c.disableQueue n) [.regs, .qmg, .sent] := by
  unfold Chip.disableQueue
  dsimp only
  split
  · rfl
  · refine Chip.within_trans _ _ _ _ ?_ (Chip.within_foldl _ _ (fun c _ => Chip.within_mono _ _ _ _ (Chip.lose_within c) rfl) _ _)
    rfl

theorem Chip.odxStatus_within (c : Chip) : c.within c.odxStatus [.regs] := rfl

theorem Chip.setSession_within (c : Chip) (n : Nat) (f : Session → Session) :
    c.within (c.setSession n f) [.regs, .dict, .odx] := by
  unfold Chip.setSession
  dsimp only
  refine Chip.within_step _ (Chip.within_step _ (Chip.within_step _ (Chip.within_step _ (Chip.within_step _ (Chip.within_step _ ?_
    (Chip.setEntry_within _ _ _ _) rfl) (Chip.setEntry_within _ _ _ _) rfl) (Chip.setEntry_within _ _ _ _) rfl)
    (Chip.setEntry_within _ _ _ _) rfl) (Chip.setEntry_within _ _ _ _) rfl) (Chip.odxStatus_within _) rfl
  rfl

theorem Chip.freeSession_within (c : Chip) (n : Nat) : c.within (c.freeSession n) [.regs, .dict, .odx] := by
  unfold Chip.freeSession
  dsimp only
  refine Chip.within_trans _ _ _ _ ?_ (Chip.setSession_within _ _ _)
  split
  · exact Chip.within_mono _ _ _ _ (Chip.setEntry_within c _ _ _) rfl
  · rfl

/-- A host-facing reset reaches registers, queues, sessions and the journal only (R270). -/
theorem Chip.hostReset_within (c : Chip) (seen : Field) : c.within (c.hostReset seen) [.regs, .dict, .qmg, .odx, .sent] := by
  unfold Chip.hostReset
  dsimp only
  refine Chip.within_trans _ _ _ _ (Chip.within_step _ (Chip.within_step _ (Chip.within_trans _ _ _ _ (?_ : c.within _ _)
    (Chip.within_foldl _ _ (fun c n => Chip.within_mono _ _ _ _ (Chip.disableQueue_within c n) rfl) _ _))
    (Chip.wr_within _ seen 1 0) rfl) (Chip.journal_within _ _) rfl) (Chip.within_foldl _ _ (fun c n => ?_) _ _)
  · rfl
  · split
    · exact Chip.within_step _ (Chip.within_mono _ _ _ _ (Chip.freeSession_within c n) rfl) (Chip.journal_within _ _) rfl
    · exact Chip.within_refl _ _

theorem Chip.linkLost_within (c : Chip) : c.within c.linkLost [.regs] := rfl
theorem Chip.loseDram_within (c : Chip) : c.within c.loseDram [.drc, .fresh] := rfl

/-! ## Domains off and on -/

theorem Chip.stageStops_within (c : Chip) : c.within c.stageStops [.regs, .bup] := by
  unfold Chip.stageStops
  split
  · rfl
  · rfl

theorem Chip.setPhases_within (l : List Nat) (p : GroupPhase) (c : Chip) :
    c.within (l.foldl (fun (c : Chip) g => c.setPhase g p) c) [.regs, .msl] :=
  Chip.within_foldl _ _ (fun c g => Chip.setPhase_within c g p) _ c

theorem Chip.setDomains_within (l : List Nat) (k v : Nat) (c : Chip) :
    c.within (l.foldl (fun (c : Chip) d => c.setDomainState (d + k) v) c) [.regs] :=
  Chip.within_foldl _ _ (fun c d => Chip.setDomainState_within c (d + k) v) _ c

/-- What switching every domain but 0 off leaves: those domains' parts as after reset, DRAM in self-refresh or lost, domain 0's flash
and clock as they were (R566, R622, R633). -/
theorem Chip.fabricOff_spec (c : Chip) (sr : Bool) :
    (c.fabricOff sr).pkg = { c.pkg with down := true } ∧ (c.fabricOff sr).muslin = [] ∧ (c.fabricOff sr).dsp = Chip.reset.dsp ∧
    (c.fabricOff sr).qmg = Chip.reset.qmg ∧ (c.fabricOff sr).drc.selfRefresh = sr ∧ (c.fabricOff sr).gng = Chip.reset.gng ∧
    (c.fabricOff sr).flash = c.flash ∧ (c.fabricOff sr).host = c.host ∧ (c.fabricOff sr).tku = c.tku ∧
    (c.fabricOff sr).pwr.standby = c.pwr.standby ∧ (c.fabricOff sr).pwr.wakePin = c.pwr.wakePin ∧
    (c.fabricOff sr).bup.warm = c.bup.warm := by
  unfold Chip.fabricOff
  dsimp only
  generalize hx : ((List.range 27).foldl (fun (c : Chip) u => c.failEngine u St.ISLAND_OFFLINE) c) = x
  have h1 : c.within x [.regs, .muslin, .dsp, .qmg, .msl, .drc, .dmk, .atu, .gng, .sent] := by
    rw [← hx]
    exact Chip.within_foldl _ _ (fun c u => Chip.failEngine_within c u _) _ c
  generalize hy : (if sr = true then x.linkLost.hostReset R.HIF_STATUS_LINK_DOWN_SEEN
    else (x.linkLost.hostReset R.HIF_STATUS_LINK_DOWN_SEEN).loseDram) = y
  have h2 : c.within y [.regs, .dict, .muslin, .dsp, .qmg, .msl, .drc, .dmk, .atu, .odx, .gng, .sent, .fresh] := by
    have h3 : c.within (x.linkLost.hostReset R.HIF_STATUS_LINK_DOWN_SEEN)
        [.regs, .dict, .muslin, .dsp, .qmg, .msl, .drc, .dmk, .atu, .odx, .gng, .sent, .fresh] :=
      Chip.within_step _ (Chip.within_step _ (Chip.within_mono _ _ _ _ h1 rfl) (Chip.linkLost_within x) rfl)
        (Chip.hostReset_within _ _) rfl
    rw [← hy]
    split
    · exact h3
    · exact Chip.within_step _ h3 (Chip.loseDram_within _) rfl
  have ep := Chip.within_keeps c y _ Chip.pkg h2 rfl
  have ef := Chip.within_keeps c y _ Chip.flash h2 rfl
  have eh := Chip.within_keeps c y _ Chip.host h2 rfl
  have et := Chip.within_keeps c y _ Chip.tku h2 rfl
  have ew := Chip.within_keeps c y _ Chip.pwr h2 rfl
  have eb := Chip.within_keeps c y _ Chip.bup h2 rfl
  generalize hz : ({ y with
    regs := y.regs.filter (fun (p : Nat × Word) => keptRegister p.1),
    muslin := [], dsp := Chip.reset.dsp, qmg := Chip.reset.qmg, hif := { y.hif with training := false }, msl := Chip.reset.msl,
    drc := { Chip.reset.drc with cells := y.drc.cells, epoch := y.drc.epoch, poisoned := y.drc.poisoned, selfRefresh := sr,
                                 cfgCopy := some (y.regs.get R.DRC_CFG.addr) },
    dmk := Chip.reset.dmk, atu := Chip.reset.atu, twl := Chip.reset.twl, gze := Chip.reset.gze, twd := Chip.reset.twd,
    tul := Chip.reset.tul, cnv := Chip.reset.cnv, moved := [], jrs := Chip.reset.jrs,
    fld := Chip.reset.fld, gng := Chip.reset.gng, isolated := [], pkg := { y.pkg with down := true },
    bup := { y.bup with activate := [], restart := none, restarting := [] } } : Chip) = z
  have z1 : z.pkg = { c.pkg with down := true } := by rw [← hz, ← ep]
  have z2 : z.muslin = [] ∧ z.dsp = Chip.reset.dsp ∧ z.qmg = Chip.reset.qmg ∧ z.drc.selfRefresh = sr ∧ z.gng = Chip.reset.gng ∧
      z.flash = c.flash ∧ z.host = c.host ∧ z.tku = c.tku ∧ z.pwr = c.pwr ∧ z.bup.warm = c.bup.warm := by
    rw [← hz, ← ef, ← eh, ← et, ← ew, ← eb]
    exact ⟨rfl, rfl, rfl, rfl, rfl, rfl, rfl, rfl, rfl, rfl⟩
  generalize hw : (if sr = true then
      ((List.range 23).foldl (fun (c : Chip) d => c.setDomainState (d + 1) 2)
        ((List.range 8).foldl (fun (c : Chip) g => c.setPhase g .off) z)).setDomainState 3 3
    else (List.range 23).foldl (fun (c : Chip) d => c.setDomainState (d + 1) 2)
        ((List.range 8).foldl (fun (c : Chip) g => c.setPhase g .off) z)) = w
  have h4 : z.within w [.regs, .msl] := by
    have h5 := Chip.within_step (ps := [.regs, .msl]) _ (Chip.setPhases_within (List.range 8) .off z)
      (Chip.setDomains_within (List.range 23) 1 2 _) rfl
    rw [← hw]
    split
    · exact Chip.within_step _ h5 (Chip.setDomainState_within _ 3 3) rfl
    · exact h5
  have h6 : w.within ({ w with pwr := { w.pwr with waiting := none, settling := none, waking := [], activeAt := [] } } : Chip).stageStops
      [.regs, .bup, .pwr] := by
    refine Chip.within_step _ ?_ (Chip.stageStops_within _) rfl
    rfl
  have w1 : ∀ {α : Type} (g : Chip → α), g (w.only [.regs, .msl] z) = g z → g w = g z := fun g k => Chip.within_keeps z w _ g h4 k
  have s1 : ({ w with pwr := { w.pwr with waiting := none, settling := none, waking := [], activeAt := [] } } : Chip).stageStops.pwr =
      { w.pwr with waiting := none, settling := none, waking := [], activeAt := [] } := by
    unfold Chip.stageStops
    split <;> rfl
  have s2 : ({ w with pwr := { w.pwr with waiting := none, settling := none, waking := [], activeAt := [] } } : Chip).stageStops.bup.warm =
      w.bup.warm := by
    unfold Chip.stageStops
    split <;> rfl
  generalize ({ w with pwr := { w.pwr with waiting := none, settling := none, waking := [], activeAt := [] } } : Chip).stageStops = v
    at h6 s1 s2 ⊢
  have v1 : ∀ {α : Type} (g : Chip → α), g (v.only [.regs, .bup, .pwr] w) = g w → g v = g w :=
    fun g k => Chip.within_keeps w v _ g h6 k
  and_intros
  · rw [v1 Chip.pkg rfl, w1 Chip.pkg rfl, z1]
  · rw [v1 Chip.muslin rfl, w1 Chip.muslin rfl, z2.1]
  · rw [v1 Chip.dsp rfl, w1 Chip.dsp rfl, z2.2.1]
  · rw [v1 Chip.qmg rfl, w1 Chip.qmg rfl, z2.2.2.1]
  · rw [v1 Chip.drc rfl, w1 Chip.drc rfl, z2.2.2.2.1]
  · rw [v1 Chip.gng rfl, w1 Chip.gng rfl, z2.2.2.2.2.1]
  · rw [v1 Chip.flash rfl, w1 Chip.flash rfl, z2.2.2.2.2.2.1]
  · rw [v1 Chip.host rfl, w1 Chip.host rfl, z2.2.2.2.2.2.2.1]
  · rw [v1 Chip.tku rfl, w1 Chip.tku rfl, z2.2.2.2.2.2.2.2.1]
  · rw [s1, w1 Chip.pwr rfl, z2.2.2.2.2.2.2.2.2.1]
  · rw [s1, w1 Chip.pwr rfl, z2.2.2.2.2.2.2.2.2.1]
  · rw [s2, w1 Chip.bup rfl, z2.2.2.2.2.2.2.2.2.2]

end Sys2Proof.Machine
end

