-- ==== Sys2Proof/Tests/Slice0.lean ====
section
/-!
SUPPORT. Tests of the model: commands well formed and ill formed; values the spec states; and, for every obligation with premises, a
theorem that they hold together in a concrete state (`test_premises_of_…`).
-/
set_option maxRecDepth 10000
set_option Elab.async false
namespace Sys2Proof.Tests
open Sys2Proof.Machine

/-! ## Well-formedness -/

/-- Well-formed commands, one per constructor, part 0. -/
theorem test_well_formed_0 :
    (
    [.keeperSupplyOn, .keeperSupplyLoss, .sysResetAssert 0, .sysResetRelease, .railOutOfWindow 0 0, .registerWrite 0 4 0,
     .islandStall 0 0, .opChangeStart, .opSettleEnd, .controlTick, .commitInstant, .submissionEntryTake, .descriptorFetch 0,
     .descriptorStart 0, .tileEnd 0 0, .operationResume 0, .operationComplete 0 false, .holdExpire 0, .dspCancel 0, .dspSigAdd 0 0,
     .dspSigWrite 0 0, .statClear, .dspCtrlEnable true, .nop 0 0, .waitUntil 0 0, .waitUntilExpire 0 0, .sigSet 0 0,
     .timedLaunch 0, .muslinRead 0 0 0 [] [], .muslinWrite 0 0 [] [], .bitSetWrite 0 0 [] [], .bitClearWrite 0 0 [] [], .eccWriteback,
     .hatomSet 0 .clean, .hatomClr 0 .clean, .bar2Read 0 0 [] [], .bar2Write 0 [] [], .patrolScrubRead none [], .retentionEntry 0,
     .retentionWakeDone 0, .groupFillDone 0, .btRegionStart [], .btRegionEnd [], .softRepairSweepDone [], .mslRepairApply,
     .matmul 0 false, .pin 0, .unpin 0, .slotSave 0 false, .slotLoad 0, .columnTest 0 [] false, .dmkSpareRequest 0, .spareSwapStart, .spareSwapWaitTimeout,
     .spareSwapEnd true [], .scan 0 .clean, .anchor 0, .checkpoint 0 false, .restore 0, .kvWrite 0, .kvSwap 0, .kvInvalidate 0, .kvClearHeld 0,
     .kvResume 0, .kvAbandon 0] : List Instr).all Instr.wellFormed = true := by decide +kernel

/-- Well-formed commands, one per constructor, part 1. -/
theorem test_well_formed_1 :
    (
    [.kvFence, .kvFenceDone, .atuFreePush 0, .attnDecode, .attnPrefill, .unary 0 0 .clean, .binary 0 0 .clean,
     .ternary 0 0 .clean, .reduce 0 0 .clean, .cumulative 0 0 .clean, .softmax 0 0 .clean, .norm 0 0 .clean, .optim 0 0 .clean,
     .topk 0 0 .clean, .sample 0 0 .clean, .convert 0 0 .clean, .layout 0 0 .clean, .rope 0 0 .clean, .loss 0 0 .clean,
     .backward 0 0 .clean, .stats 0 0 .clean, .shadowScan 0 0 .clean, .vmatmul 0 0 .clean, .copy 0 .none, .fill 0,
     .hostCompletionTimeout 0, .twlRemove 0 true true, .twlTest 0, .twlReturn 0, .twlActivate 0, .twlKatEnd true, .twlDrainDone,
     .twlGngPairWrite 0, .functionLevelReset, .hotReset, .perstAssert, .perstRelease, .linkDown, .queueEnable 0, .queueDisable 0,
     .queueQuery 0, .doorbellWrite 0 4 0, .spillDrain 0, .coalesceTimerExpire 0, .dramRead 0 0 [] [], .dramWrite 0 0 [] [] [],
     .dramCeWriteback, .dramScrub [], .drcRetire true 0, .retireCopyDone [], .drcPairRetire 0, .pairRetireDone, .drcTrainStart,
     .drcTrainRestore, .trainingDone 0, .wck2dqCorrection 0, .dramTempRead 0 true, .refreshManagement 0, .selfRefreshEntry,
     .selfRefreshExit, .csi2FrameStart 0 0 0 .good, .csi2LongPacket 0 0 0 [] .good true [], .csi2FrameEnd 0 0 .good, .frameRecordWrite 0,
     .sensorEthFrame 0 0 [] true] : List Instr).all Instr.wellFormed = true := by decide +kernel

/-- Well-formed commands, one per constructor, part 2. -/
theorem test_well_formed_2 :
    (
    [.scanClose 0, .spiDrdyEdge 0 true, .spiTimedStart 0, .spiTransactionEnd 0 [], .triggerEpoch 0, .triggerAssert 0,
     .triggerDeassert 0, .batch 1 0, .fuse 1 0, .trackImport, .trackExport, .trackDelete 0, .trackConfirm 0, .trackCmdDeferredApply,
     .plan 0, .planBudgetExpire, .tulRepair 0, .worldEdit 0, .tulleEnable, .tulleReady, .cnvLoad 0, .cnvSolve 0 0 0 true,
     .cnvUnload 0, .cnvRemove 0 true, .cnvTest 0, .cnvReturn 0, .cnvDrainDone 0, .cnvKatEnd 0 true, .jerseyTick [] [],
     .jerseyQueueTake 0, .pwmPeriodStart 0, .pulseInputEdge 0 true true, .jrsSwap 0, .jrsSwapKatEnd true, .jrsSwapLoad true,
     .jrsSwapDone, .jerseyDisable, .tkuSnap, .tkuSet true, .tkuStep true, .forcePending, .relock, .offsetArrive 0 0 0,
     .offsetSubmit 0, .holdoverTimeout, .ptpEventRx 0 ⟨0, 0, 0, none⟩, .ptpEventTx 0 ⟨0, 0, 0, none⟩, .txTimestampCapture 0 0,
     .txtsPop, .odxRead .host 0 0 0 true, .odxDescribe .host 0 0, .odxOpen .host 0, .odxStage .host 0 0 0 [] 0,
     .odxCommit .host 0 0 0, .odxAbort .host 0 0, .odxWrite .host 0 0 0 [] 0, .netSessionOpen 1 0 0, .netSessionCommit 1 0 0 0,
     .netSessionAbort 1 0 0, .odxNote .host [] 0, .odxSave .host 0, .clearImage .host 0, .saveDone, .sessionExpire 0,
     .journalMirror true] : List Instr).all Instr.wellFormed = true := by decide +kernel

/-- Well-formed commands, one per constructor, part 3. -/
theorem test_well_formed_3 :
    (
    [.tagPersist true, .fieldFrameRx 0 [] true, .hostTxProd 0 0, .hostTxFrameDone 0, .gateListEntry 0, .streamGateEntry 0 0,
     .preemptVerifyDone 0, .gwepoSyncTx 0 0, .gwepoInHeader 0 0 0 [], .gwepoInFrameEnd 0 true [], .gwepoInWindowClose 0,
     .gwepoAcycReq 0 0 [], .gwepoAcycRspTx, .sdoRequest 0 true [], .sdoSegmentTimeout 0, .canHeartbeat 0, .canBusOffRecovery 0,
     .estimateWindowEnd (List.replicate 26 0), .pmbusRead [], .thermalSample (List.replicate 32 0), .domainStateSelect,
     .domainWakeDone 0, .prewake 0, .standby true true, .standbyWakePin 0, .standbyWakeTime, .frameDeadline 0, .networkStale 0,
     .heartbeatToggle, .goldenSlot 0, .goldenGrant 0, .goldenLatestExpire 0, .gngFaultClear 0, .powerSequenceCheck 0 0,
     .fuseLoad ⟨0, 0, 0, 0, [], [], []⟩, .clockIslandStart [], .keeperRestore, .muslinTest true 0 [] [] [], .dramTraining true 0,
     .dramTest true [], .repairApply, .knownAnswerRuns true 0 0 [] [], .dictionaryLoad, .queueSetup, .bupReady, .stageEnd 0,
     .stageAbort, .repairRecordAppend 0 true, .repairAppendDone true, .domainRestart 0, .warmRestart, .domainRestartDone 0,
     .railsRestored, .standbyEntryDone, .standbyWakeDone, .warmRestartDone, .refclkKprLoss, .ethernetLinkChange true 0 true,
     .pcieLinkUp 0 0, .csi2RxLockChange 0 true, .canBusError 0 0 0, .dramRefresh 0] : List Instr).all Instr.wellFormed = true := by decide +kernel

/-- Ill-formed commands, one for each bound of `Instr.wellFormed`, part 0. -/
theorem test_ill_formed_0 :
    (
    [.railOutOfWindow 10 0, .registerWrite (2 ^ 26 + 4096) 4 0, .registerWrite 0 3 0, .islandStall 112 0, .islandStall 0 32, .descriptorStart 27, .tileEnd 27 0, .operationResume 27,
     .operationComplete 27 false, .holdExpire 27, .nop 0 65536, .waitUntil 0 65536, .waitUntilExpire 0 65536, .sigSet 0 65536,
     .timedLaunch 64, .muslinRead (2 ^ 40) 0 0 [] [], .muslinRead 0 0 32 [] [], .muslinWrite (2 ^ 40) 0 [] [],
     .muslinWrite 0 32 [] [], .bitSetWrite (2 ^ 40) 0 [] [], .bitSetWrite 0 32 [] [], .bitClearWrite (2 ^ 40) 0 [] [],
     .bitClearWrite 0 32 [] [], .bar2Read (2 ^ 28) 0 [] [], .bar2Write (2 ^ 28) [] [], .patrolScrubRead (some 8) [], .btRegionEnd [(8, 0, 0)],
     .btRegionEnd [(0, 4, 0)], .btRegionEnd [(0, 0, 1152)], .retentionEntry 8, .retentionWakeDone 8, .groupFillDone 8, .columnTest 0 [264] false, .spareSwapEnd true [32],
     .kvWrite 2048,
     .kvSwap 2048, .kvInvalidate 2048, .kvClearHeld 2048, .kvResume 16, .kvAbandon 16, .unary 18 0 .clean, .binary 18 0 .clean,
     .ternary 18 0 .clean, .reduce 18 0 .clean, .cumulative 18 0 .clean, .softmax 18 0 .clean, .norm 18 0 .clean,
     .optim 18 0 .clean, .topk 18 0 .clean, .sample 18 0 .clean, .convert 18 0 .clean, .layout 18 0 .clean, .rope 18 0 .clean,
     .loss 18 0 .clean, .backward 18 0 .clean] : List Instr).all (fun i => !i.wellFormed) = true := by decide +kernel

/-- Ill-formed commands, one for each bound of `Instr.wellFormed`, part 1. -/
theorem test_ill_formed_1 :
    (
    [.stats 18 0 .clean, .shadowScan 18 0 .clean, .vmatmul 18 0 .clean, .copy 2 .none, .fill 2, .hostCompletionTimeout 2,
     .twlRemove 18 true true, .twlTest 18, .twlReturn 18, .twlActivate 18, .queueEnable 32768, .queueDisable 32768,
     .queueQuery 32768, .doorbellWrite 131072 4 0, .doorbellWrite 0 3 0, .spillDrain 32768, .coalesceTimerExpire 32768, .dramRead (2 ^ 40) 0 [] [],
     .dramRead 0 32 [] [], .dramRead 0 0 [(68, 0)] [], .dramWrite (2 ^ 40) 0 [] [] [], .dramWrite 0 32 [] [] [],
     .dramWrite 0 0 [] [(0, 68, 0)] [], .dramScrub [(68, 0)], .retireCopyDone [(0, 68, 0)], .wck2dqCorrection 16, .dramTempRead 8 true,
     .refreshManagement 16, .csi2FrameStart 8 0 0 .good, .csi2FrameStart 0 16 0 .good, .csi2FrameStart 0 0 65536 .good,
     .csi2LongPacket 8 0 0 [] .good true [], .csi2LongPacket 0 16 0 [] .good true [], .csi2LongPacket 0 0 64 [] .good true [],
     .csi2LongPacket 0 0 0 (List.replicate 65536 0) .good true [], .csi2LongPacket 0 0 0 [] .good true [16], .csi2FrameEnd 8 0 .good, .csi2FrameEnd 0 16 .good, .batch 0 0, .fuse 0 0, .frameRecordWrite 16,
     .sensorEthFrame 2 0 [] true, .sensorEthFrame 0 0 (List.replicate 9019 0) true, .scanClose 16, .spiDrdyEdge 2 true,
     .spiTimedStart 2, .spiTransactionEnd 2 [], .triggerEpoch 4, .triggerAssert 16, .triggerDeassert 16, .cnvLoad 2,
     .cnvSolve 2 0 0 true, .cnvUnload 2, .cnvRemove 2 true, .cnvTest 2, .cnvReturn 2, .cnvDrainDone 2, .cnvKatEnd 2 true] : List Instr).all (fun i => !i.wellFormed) = true := by decide +kernel

/-- Ill-formed commands, one for each bound of `Instr.wellFormed`, part 2. -/
theorem test_ill_formed_2 :
    (
    [.jerseyTick (List.replicate 17 0) [], .jerseyTick [1 <<< 766] [], .jerseyTick [] [256], .jerseyQueueTake 8,
     .pwmPeriodStart 48, .pulseInputEdge 16 true true, .ptpEventRx 2 ⟨0, 0, 0, none⟩, .ptpEventTx 2 ⟨0, 0, 0, none⟩,
     .txTimestampCapture 2 0, .txTimestampCapture 0 65536, .odxRead (.net 65) 0 0 0 true, .odxRead .host 256 0 0 true,
     .odxRead .host 0 65536 0 true, .odxRead .host 0 0 256 true, .odxDescribe (.net 65) 0 0, .odxDescribe .host 65536 0,
     .odxDescribe .host 0 256, .odxOpen (.net 65) 0, .odxStage (.net 65) 0 0 0 [] 0, .odxStage .host 256 0 0 [] 0,
     .odxStage .host 0 65536 0 [] 0, .odxStage .host 0 0 256 [] 0, .odxCommit (.net 65) 0 0 0, .odxCommit .host 256 0 0,
     .odxAbort (.net 65) 0 0, .odxAbort .host 256 0, .odxWrite (.net 65) 0 0 0 [] 0, .odxWrite .host 256 0 0 [] 0,
     .odxWrite .host 0 65536 0 [] 0, .odxWrite .host 0 0 256 [] 0, .netSessionOpen 69 0 0, .netSessionOpen 0 0 0,
     .netSessionOpen 1 8 0, .netSessionCommit 69 0 0 0, .netSessionCommit 0 0 0 0, .netSessionCommit 1 8 0 0,
     .netSessionAbort 69 0 0, .netSessionAbort 0 0 0, .netSessionAbort 1 8 0, .odxNote (.net 65) [] 0,
     .odxNote .host (List.replicate 9 0) 0, .odxSave (.net 65) 0, .clearImage (.net 65) 0, .sessionExpire 8,
     .fieldFrameRx 2 [] true, .fieldFrameRx 0 (List.replicate 9019 0) true, .hostTxProd 2 0, .hostTxFrameDone 2,
     .gateListEntry 2, .streamGateEntry 2 0] : List Instr).all (fun i => !i.wellFormed) = true := by decide +kernel

/-- Ill-formed commands, one for each bound of `Instr.wellFormed`, part 3. -/
theorem test_ill_formed_3 :
    (
    [.streamGateEntry 0 32, .preemptVerifyDone 2, .gwepoSyncTx 2 0, .gwepoInHeader 64 0 0 [],
     .gwepoInHeader 0 0 0 (List.replicate 65 0), .gwepoInFrameEnd 64 true [], .gwepoInWindowClose 64, .gwepoAcycReq 64 0 [],
     .sdoRequest 4 true [], .sdoRequest 0 true (List.replicate 65 0), .sdoSegmentTimeout 4, .canHeartbeat 4,
     .canBusOffRecovery 4, .estimateWindowEnd (List.replicate 27 0), .thermalSample (List.replicate 33 0), .domainWakeDone 24,
     .prewake 64, .frameDeadline 8, .networkStale 8, .goldenSlot 8, .goldenGrant 8, .goldenLatestExpire 8,
     .fuseLoad ⟨0, 0, 0, 0, [], [(8, 0)], []⟩, .fuseLoad ⟨0, 0, 0, 0, [], [(0, 32)], []⟩, .fuseLoad ⟨0, 0, 0, 0, [], [], [18]⟩,
     .fuseLoad ⟨0, 0, 0, 0, [(64, 0, 0, 0)], [], []⟩, .fuseLoad ⟨0, 0, 0, 0, [(0, 36, 0, 0)], [], []⟩,
     .fuseLoad ⟨0, 0, 0, 0, [(0, 0, 1024, 0)], [], []⟩, .fuseLoad ⟨0, 0, 0, 0, [(0, 0, 0, 8)], [], []⟩, .clockIslandStart [112],
     .muslinTest true 0 [(64, 0, 0)] [] [], .muslinTest true 0 [(0, 36, 0)] [] [], .muslinTest true 0 [(0, 0, 1024)] [] [],
     .muslinTest true 0 [] [2048] [], .muslinTest true 0 [] [] [2048], .ethernetLinkChange true 2 true, .pcieLinkUp 16 0,
     .pcieLinkUp 0 64, .csi2RxLockChange 8 true, .canBusError 4 0 0, .canBusError 0 512 0, .canBusError 0 0 256, .dramRefresh 16,
     .odxRead (.net 0) 0 0 0 false, .odxRead (.can 4) 0 0 0 false] : List Instr).all (fun i => !i.wellFormed) = true := by decide +kernel

/-! ## States of the tests -/
/-- A chip alone, with no command waiting. -/
def mk (c : Chip) : State := ⟨c, []⟩
/-- What a command makes of a chip. -/
def out (c : Chip) (i : Instr) : Chip := match exec i (mk c) with | .next t => t.chip | _ => c
/-- The chip before and after each command of a list. -/
def go (c : Chip) : List Instr → List Chip
  | [] => [c]
  | i :: r => c :: go (out c i) r
def r0 : Chip := Chip.reset
/-- A number put into Muslin as `n` bytes. -/
def putM (c : Chip) (off n v : Nat) : Chip := { c with muslin := c.muslin.write off (leBytes n v) }
/-- Entries of one dictionary index set. -/
def se (c : Chip) (i : Nat) (l : List (Nat × Nat)) : Chip :=
  { c with dict := l.foldl (fun d p => Table.put d (entryKey i p.1) p.2) c.dict }
/-- An operation of unit `u` that has begun, its tile ready where `tr`. -/
def opx (u : Nat) (tr := true) (raw := 0) : OpRun := ⟨0,0,raw,1,u,0,0,0,0,0,0,0,0,[],[],true,tr,false,false,false⟩
namespace Regs
def off : Chip := { r0 with pkg := { r0.pkg with keeper := false } }
def held : Chip := { r0 with pkg := { r0.pkg with resetLow := true } }
def down : Chip := { r0 with pkg := { r0.pkg with down := true } }
def gs : List Chip := [r0, r0.wr R.QMG_CTRL_ENABLE 1, r0.wr R.DRC_CTRL_ENABLE 1, r0.wr R.DSP_LAUNCH_ENABLE 1 63, { r0 with regs := r0.regs.set (msixPba 2047) 0x80000000 },
  r0.wr R.HIF_EVT_PEND_PEND 0xFFFFF, r0.wr R.HIF_EVT_MASK_MASK 0xFFFFF, r0.wr R.HIF_EVT_MASK_MASK 0, { r0.wr R.HIF_EVT_MASK_MASK 0 with regs := (r0.wr R.HIF_EVT_MASK_MASK 0).regs.set (msixControl 19) 0 }]
/-- MSI-X enabled. -/
def vec (c : Chip) : Chip := c.wr R.PCI_MSIX_ENABLE 1
/-- The function in D3hot. -/
def d3 : Chip := r0.wr R.PCI_PM_STATE 3
def due (staged : Table Nat) : Chip := r0.setSession 7 (fun s => { s with state := 2, staged := staged, commitAt := 2000000 })
end Regs

namespace Stages
def fu : FuseReport := ⟨0,0,5,7,[],[],[3]⟩
def st (i : Instr) (f : Chip → Chip := id) : Chip := f { r0 with bup := { r0.bup with stage := some i } }
def fu2 : FuseReport := ⟨0,1,5,7,[],[],[3]⟩
def fu3 : FuseReport := ⟨2,0,5,7,[(1,2,3,4)],[(1,2)],[3,17]⟩
def areas (c : Chip) : Chip := (((c.wr R.QMG_CTX_BASE_LO 0x100000).wr R.QMG_SPILL_BASE_LO 0x1000000).wr R.DSP_CTX_BASE_LO 0x2000000)
def started : List Chip := [r0, st .keeperRestore, (r0.wr R.BUP_STATUS_READY 1), r0.wr R.BUP_STATUS_LAST_PASSED 3, st (.muslinTest false 0 [] [] []), st (.dramTest false [])]
def gs : List Chip := [st (.powerSequenceCheck 0 25000), st (.powerSequenceCheck 1 25000), st (.powerSequenceCheck 0 5), st (.fuseLoad fu), st (.fuseLoad fu2),st (.fuseLoad fu3), st (.clockIslandStart []), st (.clockIslandStart [0]),st (.clockIslandStart [43]),st (.clockIslandStart [5,44]), st .keeperRestore, st .keeperRestore (fun c => {c with flash := {c.flash with parts := [1,3,4,5,6]}}),
  st .dictionaryLoad, st .dictionaryLoad (fun c => (c.wr R.BUP_STATUS_WAKE_RESTART 1).setEntry 0x5000 2 1), st .dictionaryLoad (fun c => {c.wr R.BUP_STATUS_WAKE_RESTART 1 with odx := {c.odx with badStore := [3]}}),
  st (.muslinTest true 1 [] [] []),st (.muslinTest false 1 [] [] []) (fun c => {c with muslin := [(3,4)]}),st (.muslinTest false 0 [] [] []), st (.dramTraining false 0), st (.dramTraining true 1), st (.dramTest false []), st .repairApply, st (.knownAnswerRuns true 1 0 [] []), st (.knownAnswerRuns false 0 0 [] []), st .queueSetup, st .queueSetup areas, st .queueSetup (fun c => c.wr R.QMG_CTX_BASE_LO 0x10000), st .bupReady, r0]
end Stages

namespace Repairs
def app (k : Nat) (rm : Bool) (d : Nat) : Chip := { r0 with bup := { r0.bup with append := some (repairRecord k rm d) } }
def restart (n : Nat) (f : Chip → Chip := id) : Chip := f { r0 with bup := { r0.bup with restart := some n, restarting := [n] } , isolated := domainIslands n}
def gs : List Chip := [r0, (r0.wr R.BUP_REC_LO_DATA_LO 5), app 1 false 5, app 2 true 7, {r0 with bup := {r0.bup with stage := some .keeperRestore}}, {r0 with flash := {r0.flash with parts := []}}, {r0 with muslin := [(5,1),(2^25+3,7)], msl := {r0.msl with poisoned := [1]}}, restart 18, restart 20 , restart 22 (fun c => {c with isolated := 3 :: c.isolated}), {r0 with bup := {r0.bup with warm := true}}]
end Repairs

namespace Pins
def hq : Queue := ⟨0,0,0,0,false,0,0,[]⟩
def sess (st own : Nat) : Chip := r0.setSession 2 (fun s => {s with state := st, owner := own, staged := [(5,6)]})
def gs : List Chip := [r0, {r0 with pkg := {r0.pkg with keeper := false}}, {r0 with pkg := {r0.pkg with resetLow := true}}, {r0 with pkg := {r0.pkg with refclk := false}}, {r0 with pkg := {r0.pkg with down := true, rails := [3]}}, {r0 with pkg := {r0.pkg with down := true}, pwr := {r0.pwr with standby := 3}, hif := {r0.hif with link := (3,4)}}, {r0 with pwr := {r0.pwr with standby := 1}, muslin := [(3,4)]},{r0 with bup := {r0.bup with warm := true}, pkg := {r0.pkg with down := true}},
  ({r0 with tku := {r0.tku with clock := 2^40}, muslin := [(1,1)], host := [(2,2)], sent := [⟨.msix,0,0,[]⟩], hif := {r0.hif with perst := true}}.wr R.HIF_STATUS_LINK_UP 1).setEntry 0x5000 2 1,
  {r0 with bup := {r0.bup with warm := true}}, {r0 with pkg := {r0.pkg with keeper := false, rails := []}}]
def gs2 : List Chip := [r0, sess 1 0, sess 2 0, sess 1 2, {r0 with qmg := {r0.qmg with queues := [(3, hq), (5, {hq with raw := 2^46})]}}, {r0 with isolated := [3,50]}, {r0 with hif := {r0.hif with perst := true}}, {r0 with pkg := {r0.pkg with down := true}}]
end Pins

namespace Power
def pw (f : Chip → Chip) : Chip := f r0
def gs : List Chip := [r0, pw (fun c => c.wr R.PWR_CREDITS_CAP_CREDITS 10), pw (fun c => (c.wr R.PWR_STATUS_TRIP 1).wr R.PWR_CREDITS_CREDITS 3), pw (fun c => {c with pwr := {c.pwr with waiting := some ⟨2,false⟩}}), pw (fun c => {c with pwr := {c.pwr with settling := some (⟨2,false⟩, 500)}}),
   pw (fun c => ((c.setEntry 0x5801 1 1).setEntry 0x5801 2 3).setEntry 0x5801 9 0x40000000), pw (fun c => {((c.setEntry 0x5801 1 1).setEntry 0x5801 2 3).setEntry 0x5801 9 0x40000000 with pwr := {c.pwr with absent := 9}}), pw (fun c => (c.setEntry 0x5801 1 1).setEntry 0x5800 2 5),
   pw (fun c => {c with pwr := {c.pwr with standby := 1}}), pw (fun c => se c 0x5801 [(1,1),(4,0),(5,1),(6,2)]), pw (fun c => {c with pwr := {c.pwr with standby := 2, wakePin := true, wakeTime := true}}),
   pw (fun c => c.setDomainState 4 2), pw (fun c => {c.setDomainState 5 2 with pwr := {c.pwr with waking := [(4,10),(5,10),(16,3)]}}), pw (fun c => {c.setDomainState 18 2 with pwr := {c.pwr with waking := [(18,10)]}}), pw (fun c => {(c.setDomainState 16 1).wr R.PWR_STATUS_DEVICE_STATE 1 with pwr := {c.pwr with waking := [(16,10)]}}), pw (fun c => (((c.setEntry 0x5800 7 1).wr R.DSP_LAUNCH_ENABLE 1 63).wr R.DSP_LAUNCH_CLASS 1 63).setDomainState 4 2), pw (fun c => (((c.setEntry 0x5800 7 1).wr R.DSP_LAUNCH_ENABLE 1 63).wr R.DSP_LAUNCH_FIRST 100000 63))]
end Power

namespace Clock
def tk (f : Chip → Chip) : Chip := f {r0 with tku := {r0.tku with clock := 10^9 * 2^32 + 12345678}}
def gs : List Chip := [r0, tk id, tk (fun c => c.wr R.TKU_STATUS_STATE 1), tk (fun c => c.wr R.TKU_STATUS_STATE 2), tk (fun c => c.wr R.TKU_STATUS_STATE 3), tk (fun c => (c.wr R.TKU_STATUS_STATE 4).wr64 R.TKU_PENDING_LO R.TKU_PENDING_HI 1000), tk (fun c => (c.wr R.TKU_STATUS_STATE 4).wr64 R.TKU_PENDING_LO R.TKU_PENDING_HI (10^12)), tk (fun c => c.wr R.TKU_TIME_NS_NS 1000000000), tk (fun c => (c.wr R.TKU_TIME_NS_NS 999999999).wr R.TKU_TIME_SEC_LO_SEC_LO 77), tk (fun c => c.wr64 R.TKU_STEP_LO R.TKU_STEP_HI (-1000000)), tk (fun c => c.wr64 R.TKU_STEP_LO R.TKU_STEP_HI (-100000000000)),tk (fun c => c.wr64 R.TKU_STEP_LO R.TKU_STEP_HI (5000000000)),   tk (fun c => (c.setEntry 0x5000 2 2).wr R.TKU_STATUS_STATE 2), tk (fun c => ((c.setEntry 0x5000 3 1).wr R.TKU_STATUS_STATE 1).wr64 R.TKU_OFFSET_IN_LO R.TKU_OFFSET_IN_HI 5), tk (fun c => ((c.setEntry 0x5000 3 1).wr R.TKU_STATUS_STATE 1).wr64 R.TKU_OFFSET_IN_LO R.TKU_OFFSET_IN_HI (-10000000)),tk (fun c => {(c.setEntry 0x5000 3 0).wr R.TKU_STATUS_STATE 2 with tku := {c.tku with steps := 3, offsetAt := 1000}}),   tk (fun c => ((c.setEntry 0x5001 2 0).setEntry 0x5001 1 1).setEntry 0x5001 5 1), tk (fun c => ((c.setEntry 0x5000 2 2).setEntry 0x5001 1 1).setEntry 0x5001 0xB 20), tk (fun c => {c with tku := {c.tku with txts := List.replicate 64 ⟨1,0,5⟩, generations := [(5,3)]}}), tk (fun c => {c with tku := {c.tku with txts := [⟨1,0,5⟩], generations := [(5,3)]}})]
end Clock

namespace Dictionary
def ss (n st own path : Nat) (stg : Table Nat := []) (f : Chip → Chip := id) : Chip := f (r0.setSession n (fun s => { s with state := st, owner := own, path := path, staged := stg, openedAt := 100, commitAt := 2000000 }))
def e1 : Nat := entryKey 0x5000 2
def fl (f : Chip → Chip) : Chip := f (r0.wr R.KPR_STATUS_FLASH_OK 1)
def gs : List Chip := [r0, ss 2 1 0 0, ss 2 1 0 0 [(e1,1)], ss 2 1 2 0 [(e1,7)], ss 1 1 1 1 [(e1,2)], ss 0 2 0 0 [(e1,1)], (List.range 8).foldl (fun c n => c.setSession n (fun s => {s with state := 1, owner := 0})) r0,    ss 2 1 0 0 [(e1,1)] (fun c => c.setSession 2 (fun s => {s with lastCommit := some (1,0,9), lastAbort := some (2,0,9)})), ss 2 1 0 0 [(entryKey 0x5001 4,1)], {r0 with odx := {r0.odx with badStore := [e1]}}, {r0 with pkg := {r0.pkg with down := true}}, {r0 with odx := {r0.odx with implicit := List.replicate 64 ⟨e1,1,5,5,0,0,0⟩}}]
def gs2 : List Chip := [r0, fl id, fl (fun c => {c with odx := {c.odx with saving := some true, tagsDue := some 5}}), fl (fun c => {c.setEntry 0x5000 2 1 with odx := {c.odx with saving := some false}}), fl (fun c => c.setEntry 0xA000 4 0xFFFF), {r0 with odx := {r0.odx with implicit := List.replicate 64 ⟨e1,1,5,5,0,0,0⟩}}]
def gs3 : List Chip := [ss 2 1 0 0 ((List.range 256).map (fun k => (k, 0))), ss 2 1 0 0 [] (fun c => c.setSession 0 (fun s => { s with state := 2, owner := 0, staged := [(e1, 1)], commitAt := 2000000 }))]
end Dictionary

namespace Dispatch
/-- descriptor: engine e, opcode o, tiles t, further bits -/
def dsc (e o t : Nat) (x : Nat := 0) : Nat := o + (e <<< 8) + (t <<< 144) + (0x7FFF <<< 128) + x
def base : Chip := ((((r0.wr R.QMG_CTRL_ENABLE 1).wr R.DSP_CTRL_ENABLE 1).wr R.BUP_STATUS_LAST_PASSED 12).wr R.DSP_CTX_BASE_LO_ADDR_LO 0x4000000)
def q1 : Queue := ⟨0x1000 + (0 <<< 40) + (1 <<< 44) + (2 <<< 48) + (0x7FFF <<< 64), 1, 0, 0, false, 0, 0, []⟩
def wv (ds : List Nat) (cls : Nat := 1) : Chip :=
  let c := putM (putM base 0x1000 16 0x2000) 0x2000 64 (1 + (77 <<< 16) + (ds.length <<< 32) + (cls <<< 64))
  let c := ds.zipIdx.foldl (fun c p => putM c (0x2040 + 64 * p.2) 64 p.1) c
  { c with qmg := { c.qmg with queues := [(1, q1), (2, {q1 with produced := 0})] } }
def flow (ds : List Nat) : List Instr := [.submissionEntryTake] ++ ds.map (fun _ => .descriptorFetch 0)
def tw := [dsc 2 1 2, dsc 2 1 2, dsc 0 3 1, dsc 9 2 1, dsc 1 1 1]
def fl2 := go (wv tw) (flow tw ++ [.descriptorStart 2, .descriptorStart 3, .descriptorStart 0, .descriptorStart 25, .unary 0 0 .clean, .unpin 0, .fill 0])
def c2 : Chip := fl2.getLastD r0
def finished : List Chip := [{c2 with dsp := {c2.dsp with running := c2.dsp.running.map (fun p => (p.1, {p.2 with finished := true, tileReady := false}))}}]
/-- Two launches of one time. -/
def twins : Chip := [5, 63].foldl (fun (c : Chip) k =>
  ((c.wr R.DSP_LAUNCH_ENABLE 1 k).wr R.DSP_LAUNCH_FIRST 70000 k).wr R.DSP_LAUNCH_PERIOD_NS 10000 k) base
def launch : Chip := (((((wv tw).wr R.DSP_LAUNCH_ENABLE 1 63).wr R.DSP_LAUNCH_WEAVE_ADDR 0x2000 63).wr R.DSP_LAUNCH_FIRST 70000 63).wr R.DSP_LAUNCH_PERIOD_NS 10000 63)
def wq (d : List DescRec) : Weave := ⟨3, 0x2000, 77, d.length, 2, .queue 1, 32767, false, false, d⟩
def sw (d : List DescRec) : Chip := { base with dsp := { base.dsp with weaves := [wq d], nextId := 4 } }
def rn (u : Nat) (o : OpRun) (c : Chip) : Chip := { c with dsp := { c.dsp with running := [(u, o)] } }
def sn : Chip := base.setEntry 0x5800 1 3
def simple : List Chip := [base, sw [⟨dsc 0xA 1 0, .ready 0 0⟩], sw [⟨dsc 0xA 3 0 ((5 <<< 256) + (99 <<< 288)), .ready 7 0⟩], sw [⟨dsc 0xA 2 0 (1000 <<< 256), .ready 7 0⟩], sw [⟨dsc 0xA 2 0 (1000 <<< 256), .timed⟩], sw [⟨dsc 2 1 1, .ready 4 0⟩],
  rn 2 (opx 2 true (dsc 2 1 1)) base, rn 2 (opx 2 true (dsc 2 1 2)) (base.wr R.DSP_CTRL_ENABLE 0), rn 2 (opx 2 true (dsc 2 1 2)) sn, { base with dsp := { base.dsp with suspended := [opx 2 false (dsc 2 1 2)] } },
  { base.wr R.DSP_CTRL_HOLD_US 7 with dsp := { base.dsp with freeAt := [(2, 5)] } }, rn 2 { opx 2 false (dsc 2 1 2) with weave := 3, finished := true } (sw [⟨dsc 2 1 2, .started⟩]), base.wr R.BUP_STATUS_LAST_PASSED 3, { putM base 0x2040 64 (dsc 0xA 1 0) with dsp := { base.dsp with weaves := [⟨3, 0x2000, 77, 1, 2, .queue 1, 32767, false, false, []⟩], nextId := 4 } }, rn 1 { opx 1 false with finished := true } base]
def more : List Chip := [launch, { launch with dsp := { launch.dsp with weaves := [⟨3, 0x2000, 77, 1, 1, .launch 63 0, 2, false, false, []⟩] } }]
end Dispatch

namespace Muslin
def gph (c : Chip) (g : Nat) (p : GroupPhase) (l : Nat := 0) : Chip := { c with msl := { c.msl with groups := c.msl.groups.zipIdx.map (fun (q,i) => if i = g then {q with phase := p, scrubLine := l} else q) } }
def M0 : Chip := {putM r0 0x1000 8 0x1122334455667788 with dsp := {r0.dsp with running := [(5, opx 5 false)]}}
def pois (c : Chip) (w : List Nat) : Chip := {c with msl := {c.msl with poisoned := w}}
def gs : List Chip := [M0, pois M0 [0x200], pois (M0.wr R.MSL_ERR_LOG_VALID 1) [0x200], {M0 with msl := {M0.msl with writebacks := [3,9]}},
  gph M0 0 .retention, gph M0 0 .off, gph M0 7 .retention, gph M0 0 (.leaving 100), gph M0 0 (.filling 200), gph M0 7 (.filling 200), gph M0 0 .active 32767,
  {M0 with bup := {M0.bup with restarting := [6]}}, M0.wr R.MSL_WP_PROTECT 0xFFFF 0, (M0.wr R.MSL_HATOM_ADDR_WORD 0x400), M0.wr R.MSL_RET_CTRL_RET_ALLOW 255,
  (M0.wr R.MSL_CTRL_SCRUB_EN 1), (gph (M0.wr R.MSL_CTRL_SCRUB_EN 1) 0 .active 32767), (gph (gph (M0.wr R.MSL_CTRL_SCRUB_EN 1) 0 .active 32766) 1 .retention), pois (M0.wr R.MSL_CTRL_SCRUB_EN 1) [0],
  {M0.wr R.MSL_RET_CTRL_RET_ALLOW 255 with msl := {M0.msl with btRegion := some 5}}]
/-- Group 0 scrubbing its lines after it woke. -/
def fast : Chip := {M0 with msl := {M0.msl with groups := M0.msl.groups.map (fun q => {q with fastPass := some 500})}}
def more : List Chip := [M0.wr R.MSL_CTRL_SCRUB_EN 0, M0.wr R.MSL_WP_PROTECT 0xFFFF 0]
end Muslin

namespace MuslinTest
def ml (c : Chip) (f : Msl → Msl) : Chip := {c with msl := f c.msl}
def B0 : Chip := (r0.wr R.MSL_CTRL_BT_EN 1).wr R.MSL_CTRL_BT_AUTO_REPAIR 1
def rp (b u c x : Nat) (k:=1) (h := false): ColRepair := ⟨b,u,c,x,k,h⟩
def full (c : Chip) (b u: Nat) : Chip := ml c (fun m => {m with repairs := (List.range 8).map (fun x => rp b u x x)})
def dg (c : Chip) (n : Nat) : Chip := (List.range n).foldl (fun c k => c.wr R.MSL_DEGRADED_VALID 1 k) c
def lo (b u c x k v : Nat) : Nat := b + u*64 + c*4096 + x*2^22+k*2^25+v*2^31
def gs : List Chip := [r0, B0, ml B0 (fun m => {m with btNext := 65535}), ml B0 (fun m => {m with btNext := 65536, groups := m.groups.zipIdx.map (fun (q,i) => if i ≤ 2 then {q with phase := .off} else q)}),
 (ml B0 (fun m => {m with btNext := 4})).wr R.MSL_BT_CTRL_EXCLUDE 0xFE, (ml B0 (fun m => {m with poisoned := [5]})),
 ml B0 (fun m => {m with btRegion := some 3}), (ml B0 (fun m => {m with btRegion := some 3})).wr R.MSL_CTRL_BT_AUTO_REPAIR 0, ml (full B0 1 2) (fun m => {m with btRegion := some 65535}), dg (ml (full B0 1 2) (fun m => {m with btRegion := some 65535})) 63,dg (ml (full B0 1 2) (fun m => {m with btRegion := some 65535})) 64,
 ml r0 (fun m => {m with sweep := some (rp 63 35 1023 7), btPending := [rp 1 1 1 1]}), (ml r0 (fun m => {m with sweep := some (rp 63 35 1023 7)})).wr R.MSL_SOFT_REPAIR_VALID 1 0,
 r0.wr R.MSL_REPAIR_APPLY_LO_RECORD_LO (lo 1 36 5 0 1 1), r0.wr R.MSL_REPAIR_APPLY_LO_RECORD_LO (lo 1 35 5 0 1 0), r0.wr R.MSL_REPAIR_APPLY_LO_RECORD_LO (lo 1 35 5 0 3 1),r0.wr R.MSL_REPAIR_APPLY_LO_RECORD_LO (lo 1 35 1023 7 2 1),
 (full r0 1 35).wr R.MSL_REPAIR_APPLY_LO_RECORD_LO (lo 1 35 1023 7 2 1), (r0.wr R.MSL_REPAIR_APPLY_LO_RECORD_LO (lo 1 35 1023 7 2 1)).wr R.MSL_BT_STATUS_LOG_FULL 1]
end MuslinTest

namespace Damask
def dm (c : Chip) (f : Dmk → Dmk) : Chip := {c with dmk := f c.dmk}
def busy (c : Chip) : Chip := {c with dsp := {c.dsp with running := [(0, opx 0 false)]}}
def gs : List Chip := [r0, r0.wr R.DMK_SPARE_MAP_IN_USE 1, (r0.wr R.DMK_SPARE_MAP_IN_USE 1 7).wr R.DMK_SPARE_MAP_REPLACED 31 7, r0.wr R.DMK_SPARE_MAP_SPARE_BAD 1 2, r0.wr R.DMK_STATUS_SWAP_PENDING 1, busy (r0.wr R.DMK_STATUS_SWAP_PENDING 1), dm (r0.wr R.DMK_STATUS_SWAP_ACTIVE 1) (fun m => {m with swapColumn := 255, swapStarted := 77}), dm (r0.wr R.DMK_STATUS_SWAP_ACTIVE 1) (fun m => {m with swapColumn := 256, swapStarted := 77}), dm (r0.wr R.DMK_STATUS_SWAP_ACTIVE 1) (fun m => {m with swapColumn := 0, swapStarted := 77})]
end Damask

namespace Atu
def at_ (c : Chip) (f : Atu → Atu) : Chip := {c with atu := f c.atu}
def da (c : Chip) (l : List Nat) : Chip := l.zipIdx.foldl (fun c (v,i) => c.wr R.ATU_CMD_DATA_DATA v i) c
def dn (c : Chip) (n : Nat) : Chip := da c ((List.range 8).map (fun k => n / 2^(32*k) % 2^32))
def sqd (list st stage cap ch : Nat) (v := 1): Nat := v + list*2^32 + cap * 2^72 + st * 2^96 + stage * 2^136 + ch * 2^224
def good := sqd 0x4000 0x8000 0x10000 16 5
def P0 : Chip := (putM (putM r0 0x100000 8 (2^36 + 7*2^28 + 0x40)) 0x100008 8 0).wr R.ATU_PFT_BASE_LO_ADDR_LO 0x100000
def run1 (c : Chip) : Chip := {c with dsp := {c.dsp with running := [(1, opx 1)]}}
def wv : Weave := ⟨0,0x2000,5,2,1,.queue 1,2,false,false,[⟨0,.started⟩]⟩
def wv2 : Weave := ⟨3,0x2000,5,1,1,.queue 1,2,false,false,[⟨0,.held 3⟩]⟩
def hold (c : Chip) (h : HoldRec) : Chip := at_ {c with dsp := {c.dsp with weaves := [wv, wv2], nextId := 4, nextOrder := 9}} (fun a => {a with holds := [(3,h)]})
def gs : List Chip := [r0, P0, r0.wr R.ATU_CMD_STATUS_BUSY 1, dn r0 good, dn r0 (sqd 0x4001 0x8000 0x10000 16 5), dn r0 (sqd 0x4001 0x8000 0x10000 16 5 0), dn r0 (sqd 0x4000 0x8000 0x10040 16 5),
  (dn r0 good).setSeq 0 (good+2), (dn r0 good).setSeq 1 (good+4), da (r0.setSeq 1 good) [0x40,0x8,33,0,0x80,0,5], da (r0.setSeq 1 good) [0x40,0x8,33,0,0x81,0,5], da (r0.setSeq 2047 good) [0x40,0,33,0,0x80,0,6],
  run1 P0, at_ (run1 P0) (fun a => {a with fence := some (some (0,0,0))}), at_ P0 (fun a => {a with fence := some (some (0,0,0))}), at_ P0 (fun a => {a with fence := some none}), at_ P0 (fun a => {a with fifo := List.replicate 8192 3}), at_ P0 (fun a => {a with fifo := List.replicate 8191 3}),
  hold P0 ⟨{opx 1 with weave := 3}, none, false⟩, hold P0 ⟨{opx 1 with weave := 3}, none, true⟩, hold P0 ⟨{opx 1 with weave := 3}, some (1,1), false⟩,hold P0 ⟨{opx 1 with weave := 3, index := 1}, some (1,1), true⟩]
def more : List Chip := [da (r0.setSeq 2047 good) [0x4040,0,33,0,0x80,0,5], da (r0.setSeq 1 good) [0xFFFFFC0,0,33,0,0x80,0,5]]
end Atu

namespace Twill
def run1 (c : Chip) (u : Nat) (raw : Nat := 0): Chip := {c with dsp := {c.dsp with running := [(u, opx u false raw)], weaves := [⟨0,0x2000,5,1,1,.queue 1,2,false,false,[⟨0,.started⟩]⟩], nextId := 1}}
def cl (c : Chip) (l : List (Nat × Nat)) : Chip := l.foldl (fun c p => c.wr R.TWL_CLUSTER_STATE p.2 p.1) c
def allOf (s : Nat) : List (Nat × Nat) := (List.range 18).map (fun k => (k, s))
def T0 : Chip := cl r0 (allOf 0)
def pr (c : Chip) (a b : Nat) : Chip := (c.wr R.TWL_GNG_PAIR_CLUSTER_A a).wr R.TWL_GNG_PAIR_CLUSTER_B b
def sv (c : Chip) (v : TwlService) : Chip := {c.wr R.TWL_SVC_CMD_BUSY 1 with twl := {c.twl with service := some v}}
def TS : List TwlService := [⟨2,0,false,false,false,some 0,100⟩, ⟨4,17,false,false,false,some 17,100⟩, ⟨1,3,false,true,false,some 16,100⟩, ⟨1,3,true,true,false,some 16,100⟩, ⟨1,3,false,true,true,none,100⟩, ⟨1,3,true,false,false,none,100⟩, ⟨1,17,true,true,false,none,100⟩]
def cpy : Nat := 1 + (9 <<< 8) + (1 <<< 144) + (0xC000000000 <<< 256) + (64 <<< 336) + (1 <<< 360) + (1 <<< 440)
def gs : List Chip := [
  run1 (pr (cl T0 [(17,1),(16,1)]) 1 2) 5, run1 (pr T0 1 2) 5, T0.wr R.GNG_STATUS_ENABLED 1, run1 r0 25 cpy, (run1 r0 26 cpy).wr R.HIF_HOST_ERR_LOG_VALID 1,
  {run1 r0 25 cpy with dsp := {(run1 r0 25 cpy).dsp with running := [(25, {opx 25 false (cpy - (1 <<< 360)) with begun := false})]}}, {run1 r0 25 cpy with dsp := {(run1 r0 25 cpy).dsp with running := [(25, {opx 25 false (cpy) with begun := false})]}}]
def gs2 : List Chip := [r0, T0, cl T0 [(17,1),(16,1)], cl T0 [(17,2)], cl T0 [(0,3)], (cl T0 [(17,2)]).wr R.TWL_CLUSTER_TEST_PASS 1 17, cl (cl r0 (allOf 1)) [(17,0)], cl T0 [(5,4)], T0.wr R.TWL_SVC_CMD_BUSY 1, pr (cl T0 [(17,1),(16,1)]) 1 2, {cl T0 [(17,1)] with isolated := [43 + 17]}] ++ TS.map (sv (cl T0 [(17,1),(16,1)])) ++ TS.map (sv (cl T0 [(0,2),(17,2),(3,5)])) ++ (TS.map (fun v => run1 (sv T0 v) 5))
end Twill

namespace Queues
def ctx (ring log kind : Nat) (vec := 0) (pair := 0) (prod := 0) (cons := 0) (cc := 0) (us := 0) : Nat := ring + (log <<< 40) + (kind <<< 44) + (1 <<< 48) + (vec <<< 52) + (pair <<< 64) + (prod <<< 80) + (cons <<< 84) + (cc <<< 88) + (us <<< 96)
def qq (raw : Nat) (p c : BitVec 32) (unc := 0) (fst := 0): Queue := {Queue.ofContext raw with produced := p, consumed := c, uncovered := unc, firstUncovered := fst, lost := 65537, overflow := true}
def Q0 : Chip := r0.wr R.QMG_CTRL_ENABLE 1
def put (c : Chip) (l : List (Nat × Queue)) : Chip := {c with qmg := {c.qmg with queues := l}}
/-- Spilled records and their bytes in Muslin. -/
def spl (c : Chip) (l : List (SpillRec × Nat)) : Chip :=
  l.foldl (fun c p => putM c (c.spillOff p.1.slot) 32 p.2) {c with qmg := {c.qmg with spill := l.map (·.1)}}
def R9 : Nat := 2^256 + 2^255 + 12345 + 2^63
def gs : List Chip := [r0, Q0, putM Q0 0 32 (ctx 0x4000 0 2 40), putM Q0 0 32 (ctx 0x4000 0 2 31), putM Q0 0 32 (ctx 0x4020 0 2), putM Q0 0 32 (ctx 0x4000 0 1 0 1),
  put (putM Q0 0 32 (ctx 0x4000 0 1 0 1)) [(1, qq (ctx 0x5000 0 2) 0 0)], put (putM Q0 0 32 (ctx 0x4000 0 3 0 1 5 0)) [(1, qq (ctx 0x5000 0 2) 0 0)],
  spl (put Q0 [(0, qq (ctx 0x4000 0 2) 3 1), (1, qq (ctx 0x5000 0 1) (BitVec.allOnes 32) (BitVec.allOnes 32)), (32767, qq (ctx 0x6000 0 3 0 0 0 2) 16 0)]) [(⟨0,0,false⟩,R9),(⟨1,1,true⟩,7)],
  spl (put Q0 [(0, qq (ctx 0x4000 0 2) 17 1), (1, qq (ctx 0x5000 0 1) 5 0), (32767, qq (ctx 0x6000 0 3 0 0 2 0) 16 3)]) [(⟨0,0,false⟩,R9),(⟨1,1,true⟩,7)],
  spl (put Q0 [(0, qq (ctx 0x1000004000 0 2) 3 1), (1, qq (ctx 0x5000 0 2 33 0 0 0 9 4) 5 0 3 7777), (32767, qq (ctx 0x6000 0 3 2047 0 2 0 0 65535) 16 3 1 (10^9))]) [(⟨0,0,false⟩,R9),(⟨1,1,true⟩,7)],
  spl (put Q0 [(0, qq (ctx 0x4000 0 2) 18 3)]) [(⟨0,0,false⟩,R9),(⟨0,1,false⟩,7)],
  spl (put Q0 [(0, qq (ctx 0x1FFFF00 0 2) 8 3)]) [(⟨0,0,false⟩,R9)]]
def gs0 : List Chip := [spl (put Q0 [(0, qq (ctx 0x1000004000 0 2) 3 1), (1, qq (ctx 0x5000 0 2 33 0 0 0 9 4) 5 0 3 7777), (32767, qq (ctx 0x6000 0 3 2047 0 2 0 0 65535) 16 3 1 (10^9))]) [(⟨0,0,false⟩,R9),(⟨1,1,true⟩,7)],
  spl (put Q0 [(0, qq (ctx 0x4000 0 2) 18 3)]) [(⟨0,0,false⟩,R9),(⟨0,1,false⟩,7)],
  spl (put Q0 [(0, qq (ctx 0x1FFFF00 0 2) 8 3)]) [(⟨0,0,false⟩,R9)]]
def gs2 : List Chip := gs0.map (fun c => Regs.vec {c with regs := (c.regs.set (msixControl 33) 0).set (msixControl 2047) 0})
def more : List Chip := [put Q0 [(32767, qq (ctx 0x6000 0 3 0 0 2 2) 3 1)]]
/-- A host write waits for bank group 1. -/
def waits : Chip := {Q0 with msl := {Q0.msl with groups := modifyNth Q0.msl.groups 1 (fun q => {q with phase := .retention, waiting := [(.bar2Write 0x2000000 [1] [], 5)]})}}
end Queues

namespace Dram
def dr (c : Chip) (f : Drc → Drc) : Chip := {c with drc := f c.drc}
def D0 : Chip := let c := (((r0.wr R.DRC_CTRL_ENABLE 1).wr R.DRC_CFG_ECC_EN 1).wr R.DRC_CFG_SPARE_PAGES 8).wr R.DRC_STATUS_TRAINED 1
  {c with dsp := {c.dsp with running := [(5, opx 5)]}, drc := {c.drc with cells := [(0,7),(64,9),(100,1),(4096*3+5,77),(4096*3+4095,78)]}}
def gsD : List Chip := [r0, D0, D0.wr R.DRC_CFG_ECC_EN 0, D0.wr R.DRC_CTRL_QUIESCE 1, dr D0 (fun d => {d with selfRefresh := true}), dr D0 (fun d => {d with poisoned := [0,1,3]}), (D0.wr R.DRC_RETIRED_VALID 1 2).wr R.DRC_RETIRED_PAGE 0 2, (D0.wr R.DRC_ERR_LOG_VALID 1).wr R.DRC_CTRL_SCRUB_H 24,
  (D0.wr R.DRC_CTRL_CE_LIMIT 1), (D0.wr R.DRC_CTRL_CE_LIMIT 1).wr R.DRC_CTRL_AUTO_RETIRE 1,
  dr D0 (fun d => {d with retiring := some (0,3)}), {D0 with isolated := [67,70]}]
def fr (c : Chip) : Chip := (putM c 0x100000 8 (2^36 + 7*2^28 + 0x40)).wr R.ATU_PFT_BASE_LO_ADDR_LO 0x100000
def gsR : List Chip := [D0, D0.wr R.DRC_RETIRE_ADDR_PAGE 5, fr (D0.wr R.DRC_RETIRE_ADDR_PAGE 5), D0.wr R.DRC_RETIRE_ADDR_PAGE 0xFFFFFF, (D0.wr R.DRC_RETIRED_VALID 1 2).wr R.DRC_RETIRED_PAGE 0 2, D0.wr R.DRC_CFG_SPARE_PAGES 0,
  dr D0 (fun d => {d with retiring := some (3,7), poisoned := [192]}), dr D0 (fun d => {d with retiring := some (3,255)}), dr (D0.wr R.DRC_CTRL_QUIESCE 1) (fun d => {d with epoch := 1}), dr D0 (fun d => {d with pairing := some 0}), dr D0 (fun d => {d with pairing := some 7}), D0.wr R.DRC_STATUS_PAIR_OUT 1, dr (D0.wr R.DRC_CTRL_QUIESCE 1) (fun d => {d with held := [.dramScrub []]}), dr (D0.wr R.DRC_CTRL_QUIESCE 1) (fun d => {d with retiring := some (1,1)}),dr D0 (fun d => {d with epoch := 0, retiring := some (3,7)}),
  {fr (D0.wr R.DRC_RETIRE_ADDR_PAGE 5) with msl := {D0.msl with writebacks := [0x20000]}}]
def gsU : List Chip := [r0, D0, D0.wr R.DRC_CTRL_SCRUB_H 24, dr (D0.wr R.DRC_CTRL_SCRUB_H 24) (fun d => {d with poisoned := [0], scrubPos := 0}), dr (D0.wr R.DRC_CTRL_SCRUB_H 24) (fun d => {d with scrubPos := D0.scrubBursts - 1}), dr ((D0.wr R.DRC_CTRL_SCRUB_H 24).wr R.DRC_CTRL_CE_LIMIT 1 |>.wr R.DRC_CTRL_AUTO_RETIRE 1) (fun d => {d with writebacks := [5]}), dr D0 (fun d => {d with training := some true}), dr ((D0.wr R.DRC_STATUS_PAIR_OUT 1).wr R.DRC_STATUS_PAIR 3) (fun d => {d with training := some false}), dr D0 (fun d => {d with selfRefresh := true}), (D0.wr R.PWR_STATUS_OP 1)]
end Dram

namespace Camera
def G0 : Chip :=
  let c := r0.wr R.GZE_CTRL_ENABLE 1
  let c := se c 0x3C20 [(1,1)]
  let c := se c 0x3C60 [(1,1),(2, 0 + (2 <<< 3) + (0x2A <<< 5)),(3,4),(4,2),(5,0),(6,0),(7,2),(8,4),(9,1),(0xA,8),(0xB,0),(0xD,0x1000),(0xE,2),(0xF,64),(0x10,0x2000),(0x11,7),(0x13,1),(0x14,0),(0x15,1000)]
  let c := se c 0x3C40 [(1,1),(2,3),(5, 0x3F800000)]
  {c with gze := {c.gze with groups := [⟨0,[]⟩,⟨5,[(4,0)]⟩,⟨0,[]⟩,⟨0,[]⟩]}}
def L (crc := true) (n := 4) (h := HeaderCheck.good) : Instr := .csi2LongPacket 0 2 0x2A (List.replicate n 7) h crc []
def f1 := go G0 [.csi2FrameStart 0 2 1 .good, L, L, .csi2FrameEnd 0 2 .good, .frameRecordWrite 0, .csi2FrameStart 0 2 2 .good, L false, L true 3, L, .csi2FrameEnd 0 2 .good, .csi2FrameStart 0 2 3 .good, .csi2FrameEnd 0 2 .good, .frameRecordWrite 0]
def hi (c : Chip) : Chip := {c with tku := {c.tku with clock := 5000 * 2^32}}
def dd : List Chip := [putM G0 0x2000 64 (2^224), hi G0] ++ go (putM G0 0x2000 64 (2^224)) [.csi2FrameStart 0 2 1 .good, L, .csi2FrameEnd 0 2 .good]
def gs : List Chip := [r0] ++ f1 ++ dd
end Camera

namespace Sensor
def b16 (n : Nat) : List Byte := [BitVec.ofNat 8 (n/256), BitVec.ofNat 8 n]
def csum (l : List Byte) : Nat := let s := wordSum l; let s := s % 65536 + s / 65536; let s := s % 65536 + s / 65536; 65535 - s
def mac : List Byte := List.replicate 12 0xAA
def ipf (payload : List Byte) (frag := 0) (bad := 0) (ubad := 0): List Byte :=
  let tl := 28 + payload.length
  let h (ck : Nat) : List Byte := [0x45, 0] ++ b16 tl ++ b16 0 ++ b16 frag ++ [64, 17] ++ b16 ck ++ [10,0,0,1,10,0,0,2]
  let ck := csum (h 0) + bad
  let udp := b16 1000 ++ b16 2000 ++ b16 (8+payload.length) ++ b16 ubad ++ payload
  let f := mac ++ b16 0x800 ++ h ck ++ udp
  f ++ List.replicate (60 - f.length) 0
def rawf : List Byte := mac ++ b16 0x9999 ++ List.replicate 46 3
def pt (x y z i : Nat) : List Byte := leBytes 4 x ++ leBytes 4 y ++ leBytes 4 z ++ leBytes 2 i ++ [0,0]
def pay : List Byte := pt 0x3F800000 0x40000000 0x40400000 77 ++ pt 0 0 0 5 ++ pt 0xBF800000 0 0x7FC00000 65535
def tmpl : Nat := 0 + (16 <<< 16) + ((0 + (5 <<< 12)) <<< 64) + ((4 + (5 <<< 12)) <<< 80) + ((8 + (5 <<< 12)) <<< 96) + ((12 + (1 <<< 12)) <<< 112) + (0x3F800000 <<< 128)
def S0 : Chip :=
  let c := r0.wr R.GZE_CTRL_ENABLE 1
  let c := se c 0x3C80 [(1,1),(2,0),(3,0x9999),(4,0),(6,0x4000),(7,4),(8,80)]
  let c := se c 0x3C81 [(1,1),(2,1),(3,2000),(4,1),(6,0x8000),(7,2),(8,5),(9,0x9000),(0xA,9),(0xB,0),(0xC,10),(0xD,tmpl)]
  let c := se c 0x3C00 [(1,1),(3,100000)]
  {c with gze := {c.gze with groups := [⟨2,[(1,100000),(0,0)]⟩,⟨5,[(4,0)]⟩,⟨0,[]⟩,⟨0,[]⟩]}}
def sf (t : Nat) (f : List Byte) : Instr := .sensorEthFrame 0 t f true
def fl := go S0 [sf 5 rawf, sf 100 (ipf pay), sf 200 (ipf pay), sf 300 (ipf pay), sf 100020 (ipf pay), .scanClose 1, .scanClose 1, sf 99999 (ipf pay)]
def setS (c : Chip) (n s : Nat) : Chip := {c with gze := {c.gze with filters := modifyNth c.gze.filters n (fun q => {q with seq := s})}}
def fl2 := go (putM S0 0x9000 64 (2^224)) [sf 100 (ipf pay), .scanClose 1]
def gs : List Chip := [r0, setS S0 0 (2^32-1), (setS S0 0 17).setEntry 0x3C80 8 76,  (setS S0 0 17).setEntry 0x3C80 8 75] ++ fl ++ fl2
end Sensor

namespace Spi
def G0 : Chip := let c := r0.wr R.GZE_CTRL_ENABLE 1
  let c := se c 0x3CA0 [(1,1),(3,1000),(4,0),(8,2),(9,6),(0xA,0x4000),(0xB,4)]
  let c := se c 0x3CA1 [(1,1),(3,1000),(4,3),(8,2),(9,48),(0xA,0x8000),(0xB,4)]
  let c := se c 0x3C01 [(1,1),(2,100),(3,5000)]
  let c := se c 0x3C10 [(1,1),(2,1),(3,2),(4,300),(5,400)]
  se c 0x3C1F [(1,1),(2,1),(3,0),(4,30),(5,40)]
def fl := go G0 [.spiDrdyEdge 0 true, .spiTimedStart 1, .spiTransactionEnd 0 (List.replicate 6 9), .spiTransactionEnd 1 (List.replicate 48 9), .triggerEpoch 1, .triggerEpoch 1, .triggerAssert 0, .triggerAssert 15, .triggerDeassert 0]
def hi (c : Chip) : Chip := {c with tku := {c.tku with clock := 5000123456789 * 2^32}}
def fl2 := go (hi G0) [.spiDrdyEdge 0 true, .spiTimedStart 1, .spiTransactionEnd 0 (List.replicate 6 9), .spiTransactionEnd 1 (List.replicate 48 9), .triggerEpoch 1, .triggerEpoch 1, .triggerAssert 0, .triggerAssert 15, .triggerDeassert 0]
def gs := [r0] ++ fl ++ fl2
end Spi

namespace Tweed
def tr (n v : Nat) (c : Chip) := putM c (0x10000 + 64*n) 64 v
def T0 : Chip := (fun (c : Chip) => c.wr R.TWD_STATUS_MODE 0) <| se (tr 0 (1 + 3*4 + 2^500) (tr 1 (2 + 3*4) (tr 2 (3) (tr 4095 (1+15*4) r0)))) 0x4000 [(2,0x10000)]
def lv (c : Chip) (a b : Nat) := (c.wr R.TWD_LIVE_TRACKS a).wr R.TWD_LIVE_CONFIRMED b
def gs : List Chip := [T0, lv T0 4 2, lv T0 4096 4095, lv T0 3 8191, T0.wr R.TWD_TRACK_CMD_BUSY 1, T0.wr R.TWD_STATUS_MODE 1, T0.wr R.TWD_STATUS_TABLE_TORN 1, {T0 with dsp := {T0.dsp with running := [(21, opx 21)]}}] ++ [(0x3000,1),(0x3000,2),(0x3001,2),(0xFFFF,2),(0x2,1),(0x2,2),(0x10002,1),(0x3,1),(0,3)].map (fun (p : Nat × Nat) => {lv T0 4 2 with twd := {T0.twd with cmd := some p}})
end Tweed

namespace Tulle
def on (c : Chip) : Chip := { c.wr R.TUL_CTRL_ENABLE 1 with tul := { c.tul with building := true } }
def planDesc : Nat := 100 <<< 384
def run : PlanRun := ⟨0, 0, 0, [], 0, 0, 1, 0, [], [], [], [], none, [], 0, 0, 0, [], 0, 0, none, [], [], false, []⟩
def planning (c : Chip) : Chip := { c with dsp := { c.dsp with running := [(22, { opx 22 true planDesc with weave := 0 })] }, tul := { c.tul with runs := [run] } }
/-- 255 spheres, each as wide as the grid. -/
def full (c : Chip) : Chip := { on c with muslin := (List.range 255).map (fun i => (16 * i + 15, 0x46)) }
def gs : List Chip := [r0, on r0, planning r0, full r0]
end Tulle

namespace Canvas
def wv : Weave := ⟨0,0x2000,5,2,1,.queue 1,2,false,false,[⟨0,.started⟩]⟩
def run1 (c : Chip) (u : Nat) : Chip := {c with dsp := {c.dsp with running := [(u, opx u false)], weaves := [wv], nextId := 1}}
def st (c : Chip) (k s : Nat) := c.wr (R.CNV_STATUS_STATE.inst k) s
def sv (c : Chip) (k : Nat) (v : Nat × Bool × Nat × Nat) : Chip := {(c.wr (R.CNV_SVC_CMD_BUSY.inst k) 1) with cnv := modifyNth c.cnv k (fun x => {x with service := some v})}
def fa (c : Chip) (k : Nat) : Chip := {(c.wr (R.CNV_STATUS_FACTORED.inst k) 5) with cnv := modifyNth c.cnv k (fun x => {x with store := some (0,[1,2])})}
def gs : List Chip := [r0, fa r0 0, fa (fa r0 0) 1, st r0 1 2, st r0 0 2, st r0 1 3, st r0 0 4, st r0 0 1, r0.wr (R.CNV_SVC_CMD_BUSY.inst 1) 1, (st r0 0 2).wr (R.CNV_STATUS_TEST_PASS.inst 0) 1, (st {r0 with isolated := [101]} 1 3).wr (R.CNV_STATUS_TEST_PASS.inst 1) 1,
  run1 r0 23, run1 (st r0 0 2) 24, sv (st r0 0 1) 0 (1,false,0,77), sv (st r0 1 1) 1 (1,true,0,77), sv (st r0 1 4) 1 (2,false,2,77), sv (st r0 0 4) 0 (2,false,3,77), run1 (sv (st r0 0 1) 0 (1,false,0,77)) 23,  sv (fa (st r0 0 1) 0) 0 (2,false,0,77)]
end Canvas

namespace Jersey
def q32 (v : Int) : Nat := ofSigned 32 v
def lane (c : Chip) (n : Nat) (l : List (Nat × Nat)) : Chip := se c (0x4D00 + n) ([(1,1),(4,1),(8,31),(9,24),(0xC,q32 (-1000)),(0xD,q32 1000000),(0xE,q32 (-500000)),(0xF,q32 500000),(0x12,0xFF),(0x13,0xFFFF),(0xA,0x1000000),(6,4)] ++ l)
def on (c : Chip) : Chip := c.wr R.JRS_CTRL_ENABLE 1
def J0 : Chip := se (on r0) 0x4C00 [(1,10000)]
def J1 := se (lane J0 3 []) 0x6C03 [(1,12345)]
def J2 := lane (lane (se (se J0 0x4C40 [(1,1),(3,1000)]) 0x4C41 [(1,1),(3,1000),(7,1)]) 200 [(4,2),(5,1),(0x12,0)]) 3 [(0x11,777),(0x12,1),(0x13,8),(3,2),(2,3)]
def J3 := ((J2.setLaneFault 3 true).wr R.JRS_FAULT_FAULT 0 1)
def fl (c : Chip) : List Chip := go c [.jerseyTick [] [], .jerseyTick [] [3], .pwmPeriodStart 0, .jerseyTick [1,2] [200], .pwmPeriodStart 1, .pulseInputEdge 0 true false]
def zero (c : Chip) : Chip := c.setLane 3 (fun l => {l with resetDue := true, out := some 5})
def sv (c : Chip) (p : Nat × Nat × Nat) : Chip := {c with jrs := {c.jrs with swap := some p}}
def ctx (ring log kind : Nat) (vec := 0) (pair := 0) (prod := 0) (cons := 0) (cc := 0) (us := 0) : Nat := ring + (log <<< 40) + (kind <<< 44) + (1 <<< 48) + (vec <<< 52) + (pair <<< 64) + (prod <<< 80) + (cons <<< 84) + (cc <<< 88) + (us <<< 96)
def qj : Queue := {Queue.ofContext (ctx 0x4000 0 3 0 0 0 2) with produced := 3, consumed := 1, stamps := [11,22]}
def qs (c : Chip) (e : Nat) : Chip := let c := putM (se (c.wr R.QMG_CTRL_ENABLE 1) 0x4C01 [(1,5),(8,6)]) 0x4040 64 e
  {c with qmg := {c.qmg with queues := [(5,qj),(6,{qj with consumed := 3})]}}
def pulse (c : Chip) : Chip := (se (se (se c 0x4C20 [(1,1),(2,0)]) 0x4C21 [(1,1),(2,1),(4,1)]) 0x4C2F [(1,1),(2,1),(4,0)])
def gs : List Chip := [r0] ++ fl J1 ++ fl J2 ++ [J3, zero J1, J0.wr R.JRS_CTRL_ENABLE 0, lane (se J0 0x4C00 [(1,1)]) 0 [(3,4)]]
def ens : List Nat := [1 + (2<<<8) + (0xAABBCCDD <<< 64) + (0x11223344 <<< 96), 0, 0xFF + (1 <<< 8), 0xFF + (2 <<< 8), 3 + (15 <<< 8), 3 + (14 <<< 8)]
def gs2 : List Chip := [r0] ++ fl J2 ++ ens.map (qs J1) ++ [pulse J0, pulse r0, out (pulse J0) (.pulseInputEdge 0 true false), out (pulse J0) (.pulseInputEdge 1 true false), J3, lane (lane J0 3 []) 7 [(0x12,5),(0x11,99),(0x13,0)], (pulse J0).wr R.JRS_PULSE_CNT_COUNT (2^32-1) 15]
def gs3 : List Chip := [r0, J1, J2, sv J2 (3,77,0), sv J2 (255,77,0), sv J2 (3,77,1), sv (J3) (3,77,1), sv (J2.wr R.JRS_CTRL_ENABLE 0) (3,77,1),sv (se J2 0x4C00 [(1,100)]) (3,77,1),  sv J3 (3,77,2), sv J2 (255,77,2), J2.wr R.JRS_SPARE_IN_USE 1 3, J2.wr R.JRS_SPARE_SPARE_BAD 1 8]
end Jersey

namespace Rings
def F0 : Chip := se (se (r0.wr R.FLD_CTRL_ENABLE 1) 0x5400 [(1,1),(3,0x060504030201),(5,7)]) 0x5401 [(1,1),(3,0x0605040302)]
def rx (c : Chip) (n : Nat) (base buf prod cons : Nat) : Chip :=
  (((putM c (base + 32 * (cons % 16)) 32 (buf + 2^200)).wr R.FLD_HRX_CFG_ENABLE 1 n).wr R.FLD_HRX_BASE_LO_ADDR_LO base n |>.wr R.FLD_HRX_PROD_PROD prod n).wr R.FLD_HRX_CONS_CONS cons n
def tx (c : Chip) (n : Nat) (base buf len cls prod cons : Nat) (x := 0): Chip :=
  ((((putM (putM c buf len (2^(8*len-3)*5)) (base + 32 * (cons % 16)) 32 (buf + (len <<< 40) + (cls <<< 51) + x)).wr R.FLD_HTX_CFG_ENABLE 1 n).wr R.FLD_HTX_BASE_LO_ADDR_LO base n |>.wr R.FLD_HTX_PROD_PROD prod n).wr R.FLD_HTX_CONS_CONS cons n)
def txh (c : Chip) (n : Nat) : Chip := out (c) (.hostTxProd n (BitVec.ofNat 32 (c.rd R.FLD_HTX_PROD_PROD n)))
def cyc (c : Chip) : Chip := {c with tku := {c.tku with clock := 12345 * 2^32}}
def ql (c : Chip) : Chip := se c 0x5480 [(1,1),(2,1000),(3,5000),(4,3),(5, 0xFF + (1000 <<< 8) + (0 <<< 32) + (2000 <<< 40) + (0x01 <<< 64) + (2000 <<< 72))]
def gl (c : Chip) : Chip := se c 0x54A1 [(1,1),(6, ((1000 <<< 8) + (700 <<< 40) + (5000 <<< 512) + (2 <<< 544) + (77 <<< 576)) <<< (1024*7))]
def gs1 : List Chip := [r0, F0, rx F0 0 0x4000 0x8000 2 1, rx F0 1 0x4000 0x8000 (0) (2^32-1), rx F0 1 0x4000 0x4020 (0) (2^32-1), rx F0 1 0x4000 0x41C0 (0) (2^32-1), rx (F0.wr R.FLD_HRX_CFG_SIZE 9 0) 0 0x4000 0x8000 2 1, rx F0 0 0x4000 0x8000 2 2]
def gs2 : List Chip := [F0, tx F0 0 0x4000 0x9000 64 1 1 0, tx F0 0 0x4000 0x9000 64 1 1 0 (1 <<< 54), tx F0 1 0x4000 0x9000 64 1 (5) (2^32-1), tx (r0) 1 0x4000 0x9000 64 1 (5) (2^32-1), txh (tx F0 1 0x4000 0x9000 64 1 (5) (4)) 1]
def gs3 : List Chip := [txh (tx F0 0 0x4000 0x9000 64 1 (1) (0)) 0, txh (tx F0 0 0x4000 0x9000 59 1 (1) (0)) 0,  txh (tx F0 0 0x4000 0x9000 64 7 (0) (2^32-1)) 0, out (ql (txh (tx F0 0 0x4000 0x9000 64 0 (0) (2^32-1)) 0)) (.gateListEntry 0)]
def gs4 : List Chip := [F0, ql F0, ql (cyc F0)] ++ (go (ql (cyc F0)) [.gateListEntry 0, .gateListEntry 0, .gateListEntry 0]) ++ go (gl (cyc F0)) [.streamGateEntry 1 31, .streamGateEntry 1 31, .streamGateEntry 1 31]
def gs5 : List Chip := [F0, se F0 0x5490 [(1,1),(4,1)], se F0 0x5491 [(1,1),(4,1)], r0]
end Rings

namespace Gwepo
def F0 : Chip := se (se (r0.wr R.FLD_CTRL_ENABLE 1) 0x5400 [(1,1),(3,0x060504030201),(5,7),(6,0xFFFFFFFFFFFF)]) 0x5401 [(1,1),(3,0x0605040302),(4,0xFFFF)]
def nd (c : Chip) (k n : Nat) (l : List (Nat × Nat) := []) : Chip := se c (0x5420 + k) ([(1,1),(2,n),(3,0xA1A2A3A4A5A6 - k),(4,10000),(5,5000),(6,16*k),(7,8),(8,16*k),(9,12),(0xA,1)] ++ l)
def W0 : Chip := {(se (nd (nd F0 0 0) 63 1 ) 0x5410 [(1,1),(2,2),(3,100000),(4,50000),(5,0xFFFF)]).wr R.FLD_STATUS_LINK_UP 3 with fld := {F0.fld with cycle := some 5000}}
def hdr (k : Nat) (ty := 0x12) (cyc := 0) (len := 8) (fl := 1): List Byte := leBytes 6 0x010203040506 ++ leBytes 6 (0xA1A2A3A4A5A6 - k) ++ beBytes 2 0x88B5 ++ [BitVec.ofNat 8 ty, BitVec.ofNat 8 fl, BitVec.ofNat 8 (k+1), 0] ++ beBytes 4 cyc ++ beBytes 2 len ++ [0,0]
def fl := go W0 [.gwepoSyncTx 0 1200, .gwepoInHeader 0 12000 1200 (hdr 0), .gwepoInFrameEnd 0 true (List.replicate 8 7), .gwepoInWindowClose 0, .gwepoInHeader 63 14999 1201 (hdr 63), .gwepoInFrameEnd 63 true (List.replicate 8 9), .gwepoInWindowClose 63]
def fl2 := go (W0.wr R.FLD_STATUS_LINK_UP 2) [.gwepoSyncTx 0 0, .gwepoSyncTx 1 0, .gwepoInHeader 63 10000 0 (hdr 63), .gwepoInFrameEnd 63 false (List.replicate 8 9), .gwepoInWindowClose 63]
def fails (c : Chip) : Chip := c.setNode 0 (fun q => {q with fails := 1})
def gr (c : Chip) (g : Nat) : Chip := {c with fld := {c.fld with granted := g}}
def req (op sub index token : Nat) (k := 0) (ty := 0x14) (d : List Byte := []) : List Byte := [BitVec.ofNat 8 ty, 0, BitVec.ofNat 8 (k+1), 0] ++ beBytes 4 0 ++ beBytes 2 (12 + d.length) ++ [0,0] ++ [BitVec.ofNat 8 op, BitVec.ofNat 8 sub] ++ beBytes 2 index ++ beBytes 4 token ++ beBytes 2 d.length ++ [0,0] ++ d
def kept (c : Chip) : Chip := out c (.gwepoAcycReq 0 100000 (req 1 1 0x5400 99))
def gs : List Chip := [r0, W0] ++ fl ++ fl2 ++ [fails W0, gr W0 1, kept (gr W0 1), gr (kept (gr W0 1)) 1, {kept (gr W0 1) with fld := {(kept (gr W0 1)).fld with cycle := some 1005000}}]
end Gwepo

namespace Can
def C0 : Chip := se (se (r0.wr R.FLD_CTRL_ENABLE 1) 0x5500 [(1,1),(2,5)]) 0x5503 [(1,1),(2,9)]
def tr (k : Nat) (t : SdoTransfer) (c : Chip) : Chip := c.setSdo k (some t)
def up (tg : Bool) (n : Nat) : SdoTransfer := ⟨true, 0x5400, 3, List.replicate n 0x33, none, tg, false, 100⟩
def gs : List Chip := [r0, C0, C0.wr R.FLD_CAN_STATE 2 3, tr 0 (up false 8) C0, tr 0 (up true 20) C0, tr 0 (up false 7) C0, tr 3 ({up false 5 with upload := false}) C0, se C0 0x1017 [(0,7)], C0.wr R.FLD_CAN_STATE 1 0]
end Can

namespace Gingham
def NC : List Nat := [1, 5, 0xFF, 0x10000, 0x1000, 0x20000, 0x30000, 0, 64, 0x4000, 900000, 3, 0x5000, 0x6000, 500000,0,0,0]
def N0 : Chip :=
  let c := se r0 0x5C00 [(1,1),(2,5000),(3,0xFFFF)]
  let c := se c 0x5C10 (NC.zipIdx.map (fun p => (p.2+1, p.1)))
  let c := putM c 0x2000 64 (1 + (77 <<< 16) + (2 <<< 32) + (1 <<< 64))
  (((c.wr R.DSP_LAUNCH_WEAVE_ADDR 0x2000 5).wr R.DSP_LAUNCH_PERIOD_NS 1000000 5).wr R.GNG_STATUS_ENABLED 1).wr R.DSP_LAUNCH_CLASS 2 5
def fm (k : Nat) (w : Option Nat) : GngFrame := ⟨0, k, 1000000*k, NC, none, w, 2, [], [], [], false, none, false, false, false⟩
def wf (c : Chip) (l : List GngFrame) : Chip := c.setGng (fun g => {g with frames := l})
def wg (c : Chip) (l : List (Nat × GngGolden)) : Chip := c.setGng (fun g => {g with golden := l})
def gold (k : Nat) (w : Option Nat) : GngGolden := ⟨k, 1000000*k, NC, none, w⟩
def rn (c : Chip) (tr : Bool) : Chip := {c with dsp := {c.dsp with running := [(20, opx 20 tr)]}}
def fault (c : Chip) : Chip := ((((c.wr R.GNG_FAULT_DISAGREE 1).wr R.GNG_FAULT_TEST_MISSED 1).wr R.GNG_FAULT_MIRROR_LOST 1).wr R.GNG_FAULT_SELF_TEST 1).wr R.GNG_FAULT_FIRST_NET 3
def safe (c : Chip) : Chip := c.wr R.GNG_STATUS_SAFE 1
def misses (c : Chip) : Chip := c.setNet 0 (fun q => {q with next := 8, missed := [5,6], disagreed := [7]})
def gs : List Chip := [r0, N0, wf N0 [fm 3 (some 0)], wf N0 [fm 0 none], wf (fault N0) [fm 3 none], wf N0 [fm 3 (some 9)], rn (wf N0 [fm 3 (some 9)]) true, rn (wf N0 [fm 3 (some 9)]) false, wg (wf N0 [fm 3 (some 9)]) [(0, gold 2 none)], wg N0 [(0, gold 2 none)], wg (misses N0) [(0, gold 7 none)], wg (rn N0 true) [(0, gold 2 none)],wg (rn N0 false) [(0, gold 2 none)],
  fault N0, misses (fault N0), (fault N0).wr R.TWL_CLUSTER_STATE 2 0, safe N0, safe (fault N0), N0.setNet 0 (fun q => {q with lastVerdict := some 12345}), N0.wr R.GNG_NET_STALE 1 0, wf (se N0 0x5C11 (NC.zipIdx.map (fun p => (p.2+1, p.1)))) [fm 3 (some 0)]]
/-- As many weaves in flight as may be. -/
def crowd (c : Chip) : Chip := {c with dsp := {c.dsp with weaves := (List.range 1024).map (fun k => ⟨k,0x2000,5,1,1,.queue 1,2,false,false,[]⟩), nextId := 1024}}
end Gingham

/-! ## Values the spec states -/

/-- The worked example of chapter 02: 300.0 to FP8-E4M3 under the three roundings. -/
theorem test_convert_300 :
    convert 0x8 0 0 true 0 (.ofNat 300) = (0x79, 0) ∧ convert 0x8 0 1 true 0 (.ofNat 300) = (0x79, 0) ∧
    (convert 0x8 0 2 true 0xB7F02C11 (.ofNat 300)).1 = 0x7A := by decide +kernel

/-- The worked example of chapter 02 and R56: 470.0 lies above the overflow threshold, 464.0 does not; toward zero never gives NaN. -/
theorem test_convert_overflow :
    convert 0x8 0 0 true 0 (.ofNat 470) = (0x7E, fOverflowSat) ∧ convert 0x8 0 0 false 0 (.ofNat 470) = (0x7F, fOverflowInf) ∧
    convert 0x8 0 0 false 0 (.ofNat 464) = (0x7E, 0) ∧ convert 0x8 0 1 false 0 (.ofNat 1000) = (0x7E, fOverflowSat) := by
  decide +kernel

/-- The worked example of chapter 02: the FP8-E4M3 element 0x5C is 24, before its block's scale. -/
theorem test_mx_element : Machine.Num.cmp (scaledElem 0x18 0x7A 0x5C) (.ofNat 24) = 0 := by decide +kernel

/-- The worked example of chapter 04: the bank and the line of an address, and eight lines at a stride of 8 KiB in eight banks. -/
theorem test_muslin_map :
    bankOf 0x0A3C5E80 = 40 ∧ lineOf 0x0A3C5E80 = 3863 ∧ bankOf 0x0A3C5F00 = 43 ∧ lineOffset 40 5 = 0x0A001680 ∧
    (List.range 8).map (fun k => bankOf (0x0A3C5E80 + 8192 * k) % 8) = [0, 1, 6, 7, 4, 5, 2, 3] := by decide +kernel

/-- The worked example of chapter 04: the log slot of a column repair. -/
theorem test_repair_record :
    ({ bank := 40, sub := 2, col := 1021, spare := 2, kind := 1, host := false } : ColRepair).record 0x00310A2C =
      0x00310A2C82BFD0A8 := by decide +kernel

/-- 64 GiB of DRAM with ECC and 256 spare pages (chapter 10). -/
def dramExample : Chip := ((r0.wr R.DRC_CFG_ECC_EN 1).wr R.DRC_CFG_DENSITY 3)

/-- The worked example of chapter 10: usable capacity, channel, place in the channel, check bytes and device cell of DRAM offset 0x1_2345_6780. -/
theorem test_dram_map :
    dramExample.usableDram = 61439 * 2 ^ 20 ∧ dramExample.dramMap 0x123456780 = (13, 0x136B0680) ∧
    dramExample.dramCheck 0x123456780 = (13, 0x136B0F68) ∧ dramExample.dramCell 0x136B0680 = ⟨0x680, 2, 1, 9942, 0⟩ := by decide +kernel

/-- The worked example of chapter 10: pair 2 retired, the capacity falls and the same offset lies on channel 2. -/
theorem test_dram_pair_out :
    ((dramExample.wr R.DRC_STATUS_PAIR 2).wr R.DRC_STATUS_PAIR_OUT 1).usableDram = 53759 * 2 ^ 20 ∧
    (((dramExample.wr R.DRC_STATUS_PAIR 2).wr R.DRC_STATUS_PAIR_OUT 1).dramMap 0x123456780).1 = 2 := by decide +kernel

/-- The knee current loop of chapter 15. -/
def kneeLane : LaneSection :=
  ⟨2, 24, 28, [563714458, -536870912, 0, 0, -268435456, 0, 0], 2 ^ 28, -2 ^ 31, 2 ^ 31 - 1, -2 ^ 31, 3355443, true⟩

/-- The worked example of chapter 15: two samples held at the output limit, and the high time of the pin. -/
theorem test_lane_sample :
    kneeLane.sample (4194304, 24) (310116352, 31) 0 0 0 = ⟨3355443, -48024832, 0, 0, 4⟩ ∧
    kneeLane.sample (4194304, 24) (310116352, 31) (-48024832) 0 0 = ⟨3355443, -48024832, 0, 0, 4⟩ ∧
    pwmHigh 40000 24 3355443 = 256000 := by decide +kernel

/-- One step of the default servo with LOG_SYNC -3: the integral term, and the units of RATE_ADJ. -/
def servoExample (i o : Int) : Int × Int :=
  let r := servo (f32val (r0.entry 0x5000 6)) (f32val (r0.entry 0x5000 7)) (.ofInt i) (.ofInt o) (.ofScaled 1 (-3)) (.ofNat 1000000)
  (r.1.roundInt, rateUnits r.2)

/-- The worked example of chapter 16: four Syncs of the servo. -/
theorem test_servo :
    servoExample 0 900 = (2160, -61848) ∧ servoExample 2160 900 = (4320, -80402) ∧
    servoExample 4320 630 = (5832, -80402) ∧ servoExample 5832 360 = (6696, -74836) := by decide +kernel

/-- A cap of 50 W (chapter 19). -/
def cap50 : Chip := r0.setEntry 0x5800 2 50

/-- The worked example of chapter 19: E of 56.50 W, of which 31.62 W are Damask's, gives 49 credits; and 12 once the measured ratio
67.0 / 49.7 makes the estimate suspect. -/
theorem test_credit_target :
    cap50.creditTarget (r32 (.div (.ofNat 5650) (.ofNat 100))) (r32 (.div (.ofNat 3162) (.ofNat 100))) = some 49 ∧
    ({ cap50.wr R.PWR_STATUS_SUSPECT 1 with
        pwr := { cap50.pwr with ratio := f32bits (.div (.ofNat 670) (.ofNat 497)) } }).creditTarget
      (r32 (.div (.ofNat 5650) (.ofNat 100))) (r32 (.div (.ofNat 3162) (.ofNat 100))) = some 12 := by decide +kernel

/-- The worked example of chapter 17: the fields of record 40,961. -/
theorem test_journal_record :
    (leBytes 60 (journalRecord 40961 0 ⟨3, 0, 2, 0x4C01, 1, 0, 2, 0, 0, 0x7A10, 0x32C, 0⟩)).filter (fun b => b != 0) =
      [0x01, 0xA0, 0x03, 0x08, 0x01, 0x4C, 0x01, 0x02, 0x10, 0x7A, 0x2C, 0x03, 0x01, 0xA0] := by decide +kernel

/-- An FP32 quotient of two integers, as its bits. -/
def quot (n d : Int) : Nat := f32bits (.div (.ofInt n) (.ofInt d))

/-- The camera record of chapter 12. -/
def cameraRecord : Nat :=
  1 + (1920 <<< 32) + (1200 <<< 48) + (240 <<< 64) + (150 <<< 80) + (quot 1000 1 <<< 96) + (quot 1000 1 <<< 128) +
    (quot 960 1 <<< 160) + (quot 600 1 <<< 192) + (quot (-1) 10 <<< 224) + (quot 1 100 <<< 256) +
    (([0, 0, 1, -1, 0, 0, 0, -1, 0] : List Int).zipIdx.map (fun p => quot p.1 1 <<< (384 + 32 * p.2))).sum +
    (quot 2 10 <<< 672) + (quot 1 1 <<< 736) + (quot 1 10 <<< 768)

/-- The worked example of chapter 12: a lidar point projects into column 87, row 52 of the feature map. -/
theorem test_projection :
    (project cameraRecord [.ofNat 4, .ofNat 1, f32val (quot 17 10)]).map (fun v => (v.row, v.col)) = some (52, 87) := by
  decide +kernel

/-- The worked example of chapter 05: a column test that finds physical column 77 failing sets bit 13 of DMK_COL_FAIL2. -/
theorem test_column_fail :
    (out { r0 with dsp := { r0.dsp with running := [(0, opx 0 false (6 + (1 <<< 144)))] } } (.columnTest 0 [77] false)).rd
      R.DMK_COL_FAIL_FAIL 2 = 0x2000 := by decide +kernel

/-- Nothing waits after reset, and an empty queue lets one cycle of the 500 MHz clock pass. -/
theorem test_idle : State.reset.pending = [] ∧
    (match step State.reset with | .next t => t.chip.tku.clock | _ => 0) = 2 * 2 ^ 32 := by decide +kernel

/-! ## The premises of the obligations -/

/-- The frame of a finding, where it has one. -/
def frameOf : EthFinding → Option EthFrame
  | .ok f => some f
  | _ => none
theorem ofSome {α : Type} {o : Option α} (h : o.isSome = true) : o = some (o.get h) := (Option.some_get h).symm
theorem ofPair {α β : Type} {o : Option (α × β)} (h : o.isSome = true) : o = some ((o.get h).1, (o.get h).2) := (Option.some_get h).symm
theorem ofCons {α : Type} {l : List α} (h : l ≠ []) : l = l.head h :: l.tail := (List.cons_head_tail h).symm
theorem plain_none {c : Chip} {u : Nat} (h : c.op? u = none) : c.plainOn u := fun o e => by rw [h] at e; cases e
theorem ofOk {x : EthFinding} (h : (frameOf x).isSome = true) : x = .ok ((frameOf x).get h) := by
  cases x <;> first | rfl | simp [frameOf] at h
theorem ofSing {α : Type} {l : List α} (h : l.length = 1) : l = [l[0]'(by omega)] := by
  obtain ⟨a, rfl⟩ := List.length_eq_one_iff.mp h; rfl

theorem session_states (c : Chip) (n : Nat) (hl : c.odx.sessions.length = 8)
    (h : (List.range 8).all (fun k => k == n || (c.session k).state != 2) = true) : ∀ k, k ≠ n → (c.session k).state ≠ 2 := by
  intro k hk
  by_cases h8 : k < 8
  · have := List.all_eq_true.mp h k (List.mem_range.mpr h8)
    simpa [hk] using this
  · unfold Chip.session nth
    rw [List.getD_eq_default _ _ (by omega)]
    decide

theorem head_of {α : Type} {P : α → Prop} {x : α} {l : List α} (h : P x) : ∀ i, (x :: l).head? = some i → P i := by
  intro i hi; simp at hi; exact hi ▸ h

theorem formatMax_e4m3 : formatMax 0x8 0 false = 448 := by
  have h : formatMax 0x8 0 false = (Machine.Num.fin false 14 5).rat := by rfl
  rw [h]; norm_num [Num.rat]


theorem peek_empty (c : Chip) (h : c.muslin = []) (a n : Nat) : c.peekNat a n = 0 := by
  unfold Chip.peekNat
  rw [h]
  induction n generalizing a with
  | zero => rfl
  | succ n ih => simp only [Memory.read, Memory.get, leNat, ih]; rfl

theorem filterMap_none {α β : Type} (l : List α) (f : α → Option β) (h : ∀ x, f x = none) : l.filterMap f = [] := by
  rw [List.filterMap_eq_nil_iff]; exact fun x _ => h x

theorem objects_empty (c : Chip) (h : c.muslin = []) (w : World) : c.objects w = [] := by
  have hs : ∀ k n, (List.range n).filterMap (fun i => objOf w k i (c.peekNat (c.tulBase (k + 1) + objBytes k * i) (objBytes k))) = [] := by
    intro k n
    refine filterMap_none _ _ (fun i => ?_)
    rw [peek_empty c h]
    match k with
    | 0 => rfl
    | 1 => rfl
    | k + 2 => rfl
  have h0 := hs 0 16384
  have h1 := hs 1 16384
  have h2 := hs 2 65536
  unfold Chip.objects
  exact congrArg₂ (· ++ ·) (congrArg₂ (· ++ ·) h0 h1) h2

theorem listings_sum (l : List Obj) (a : Nat) : l.foldl (fun a o => a + o.listings) a = a + (l.map Obj.listings).sum := by
  induction l generalizing a with
  | nil => simp
  | cons x l ih => rw [List.foldl_cons, ih, List.map_cons, List.sum_cons]; omega

/-- More spheres never make fewer listings. -/
theorem listings_of_spheres (c : Chip) (w : World) (m : Nat) (hm : m ≤ 16384) :
    (((List.range m).filterMap (fun i => objOf w 1 i (c.peekNat (c.tulBase (1 + 1) + objBytes 1 * i) (objBytes 1)))).map
      Obj.listings).sum ≤ listingsOf (c.objects w) := by
  unfold listingsOf
  rw [listings_sum]
  unfold Chip.objects
  obtain ⟨k, hk⟩ := Nat.exists_eq_add_of_le hm
  have e : ∀ f : Nat → Option Obj, (List.range 16384).filterMap f =
      (List.range m).filterMap f ++ ((List.range k).map (m + ·)).filterMap f := by
    intro f; rw [hk, List.range_add, List.filterMap_append]
  simp only [e, List.map_append, List.sum_append]
  omega


theorem sum_of_listings (g : Nat → Option Obj) (v : Nat) (l : List Nat) (h : ∀ i ∈ l, (g i).map Obj.listings = some v) :
    ((l.filterMap g).map Obj.listings).sum = l.length * v := by
  induction l with
  | nil => simp
  | cons x l ih =>
    obtain ⟨o, ho, hv⟩ := Option.map_eq_some_iff.mp (h x (List.mem_cons_self ..))
    rw [List.filterMap_cons_some ho, List.map_cons, List.sum_cons, ih (fun i hi => h i (List.mem_cons_of_mem _ hi)), hv,
      List.length_cons]
    ring

theorem get_spheres (l : List Nat) (a : Nat) :
    Memory.get (l.map (fun i => (16 * i + 15, (0x46 : Byte)))) a = if a % 16 = 15 ∧ a / 16 ∈ l then 0x46 else 0 := by
  induction l with
  | nil => simp [Memory.get, Memory.blank]
  | cons x l ih =>
    rw [List.map_cons, Memory.get, ih]
    by_cases h : a = 16 * x + 15
    · subst h
      rw [if_pos rfl, if_pos ⟨by omega, by rw [show (16 * x + 15) / 16 = x by omega]; exact List.mem_cons_self ..⟩]
    · rw [if_neg h]
      congr 1
      rw [List.mem_cons]
      apply propext
      constructor
      · exact fun ⟨p, q⟩ => ⟨p, Or.inr q⟩
      · exact fun ⟨p, q⟩ => ⟨p, q.resolve_left (fun e => h (by omega))⟩

theorem peek_sphere (i : Nat) (hi : i < 255) : (Tulle.full r0).peekNat (16 * i) 16 = 0x46 * 256 ^ 15 := by
  have hm : (Tulle.full r0).muslin = (List.range 255).map (fun i => (16 * i + 15, (0x46 : Byte))) := rfl
  unfold Chip.peekNat
  rw [hm]
  have low : ∀ j, j < 15 → Memory.get ((List.range 255).map (fun i => (16 * i + 15, (0x46 : Byte)))) (16 * i + j) = 0 := by
    intro j hj; rw [get_spheres, if_neg (by omega)]
  have top : Memory.get ((List.range 255).map (fun i => (16 * i + 15, (0x46 : Byte)))) (16 * i + 15) = 0x46 := by
    rw [get_spheres, if_pos ⟨by omega, by rw [show (16 * i + 15) / 16 = i by omega]; exact List.mem_range.mpr hi⟩]
  have l0 := low 0 (by omega)
  rw [Nat.add_zero] at l0
  simp only [Memory.read, Nat.add_assoc, Nat.reduceAdd, l0, low 1 (by omega), low 2 (by omega), low 3 (by omega), low 4 (by omega),
    low 5 (by omega), low 6 (by omega), low 7 (by omega), low 8 (by omega), low 9 (by omega), low 10 (by omega),
    low 11 (by omega), low 12 (by omega), low 13 (by omega), low 14 (by omega), top]
  rfl

theorem sphere_listings (w : World) (i j r : Nat) : (objOf w 1 i r).map Obj.listings = (objOf w 1 j r).map Obj.listings := by
  unfold objOf
  split
  · rfl
  · dsimp only
    split <;> rfl

theorem listings_full : 1040384 < listingsOf ((Tulle.full r0).objects (Tulle.full r0).world) := by
  have hb : (Tulle.full r0).tulBase (1 + 1) = 0 := by decide +kernel
  have h0 : (objOf (Tulle.full r0).world 1 0 (0x46 * 256 ^ 15)).map Obj.listings = some 4096 := by decide +kernel
  refine Nat.lt_of_lt_of_le ?_ (listings_of_spheres (Tulle.full r0) (Tulle.full r0).world 255 (by omega))
  rw [sum_of_listings _ 4096, List.length_range]
  · norm_num
  · intro i hi
    rw [hb, Nat.zero_add]
    have := peek_sphere i (List.mem_range.mp hi)
    rw [show objBytes 1 = 16 from rfl, this, sphere_listings _ i 0]
    exact h0

/-- An operation of an engine and opcode on unit `u` that has begun and waits for its tile; its other bits zero. -/
def tileOp (p : Nat × Nat × Nat) : OpRun := opx p.1 false (p.2.2 + (p.2.1 <<< 8))
/-- The chip after reset with one operation on a unit. -/
def tileChip (u : Nat) (o : OpRun) : Chip := { r0 with dsp := { r0.dsp with running := [(u, o)] } }
/-- Unit, engine and opcode of the tile commands; Twill's for the first and the last cluster, Canvas's for both instances. -/
def tileKinds : List (Nat × Nat × Nat) :=
  [(0, 0, 1), (0, 0, 2), (0, 0, 3), (0, 0, 4), (0, 0, 5), (0, 0, 6), (0, 0, 0x10), (0, 0, 0x11), (0, 0, 0x12), (0, 0, 0x13)] ++
  (List.range 18).flatMap (fun o => [(2, 2, o + 1), (19, 2, o + 1)]) ++
  [(1, 1, 1), (1, 1, 2), (20, 3, 1), (21, 4, 1), (21, 4, 2), (21, 4, 3), (22, 5, 1), (22, 5, 2), (22, 5, 3), (25, 9, 1), (26, 9, 1),
   (25, 9, 2), (26, 9, 2), (23, 7, 1), (24, 8, 1), (23, 7, 2), (24, 8, 2), (23, 0xB, 2), (24, 0xB, 2), (23, 7, 3), (24, 8, 3)]
/-- The tile commands whose operation is checked when it begins, with the check. -/
def opChecks : List ((Nat × Nat × Nat) × (Chip → OpRun → Nat)) :=
  [((0, 0, 1), fun _ o => matCheck o.raw), ((0, 0, 2), fun c o => c.pinCheck o.raw), ((0, 0, 3), fun c o => c.unpinCheck o.raw),
   ((0, 0, 4), fun c o => c.imageCheck o.raw), ((0, 0, 5), fun c o => c.slotLoadCheck o.raw), ((0, 0, 6), fun _ o => columnCheck o.raw),
   ((0, 0, 0x10), fun c o => c.scanCheck o.raw), ((0, 0, 0x11), fun c o => c.anchorCheck o.raw),
   ((0, 0, 0x12), fun c o => c.checkpointCheck o.raw), ((0, 0, 0x13), fun c o => c.recCheck o.raw 64 true),
   ((1, 1, 1), fun c o => c.atuCheck o.raw), ((1, 1, 2), fun c o => c.atuCheck o.raw), ((20, 3, 1), fun c o => c.batchCheck o),
   ((21, 4, 2), fun c o => c.importCheck o.raw), ((21, 4, 3), fun c o => c.exportCheck o.raw), ((25, 9, 1), fun c o => c.copyCheck o.raw),
   ((26, 9, 2), fun c o => c.copyCheck o.raw), ((23, 7, 1), fun c o => c.slotCheck 0 o.raw), ((24, 8, 3), fun c o => c.unloadCheck 1 o.raw)]
def tileChecks : List ((Nat × Nat × Nat) × (Chip → OpRun → Nat)) := opChecks ++ (List.range 18).map (fun k => ((2, 2, k + 1), Chip.twCheck))

/-- The premises of `StepRunsTheFrontCommand` hold together. -/
theorem test_premises_of_StepRunsTheFrontCommand :
    (∃ (c : Chip), c.live = false) ∧
    (∃ (c : Chip), c.live = true) :=
  ⟨⟨Regs.off, by decide +kernel⟩,
    ⟨r0, by decide +kernel⟩⟩

/-- The premises of `ResetState` hold together. -/
theorem test_premises_of_ResetState :
    ∃ (i : _) (x : _), entryKey i x ≠ entryKey 0xA000 1 ∧ entryKey i x ≠ entryKey 0xA000 2 :=
  ⟨0x5000, 2, by decide +kernel, by decide +kernel⟩

/-- The premises of `HeldInReset` hold together. -/
theorem test_premises_of_HeldInReset :
    (∃ (s : State) (t : State), step s = .next t ∧ s.chip.live = false ∧ (∀ i, s.pending.head? = some i → pinCommand i = false)) ∧
    (∃ (s : State) (t : State) (i : Instr), step s = .next t ∧ s.chip.awake = false ∧ s.pending.head? = some i ∧
      pinCommand i = false ∧ keeperCommand i = false) ∧
    (∃ (s : State) (t : State) (i : Instr), step s = .next t ∧ s.chip.heard = false ∧ s.pending.head? = some i ∧
      hostCommand i = true) ∧
    (∃ (s : State) (t : State), step s = .next t ∧ (s.chip.pkg.keeper = false ∨ s.chip.pkg.resetLow = true → s.chip.asReset) ∧
      (t.chip.pkg.keeper = false ∨ t.chip.pkg.resetLow = true)) :=
  ⟨⟨⟨Regs.off, [.nop 5 3]⟩, _, rfl, by decide +kernel, head_of rfl⟩,
    ⟨⟨Regs.down, [.nop 5 3]⟩, _, _, rfl, by decide +kernel, rfl, rfl, rfl⟩,
    ⟨⟨Regs.d3, [.bar2Write 0 [1] []]⟩, _, _, rfl, by decide +kernel, rfl, rfl⟩,
    ⟨⟨Regs.held, []⟩, ⟨Regs.held.idle, []⟩, rfl, fun _ => by simp only [Chip.asReset]; decide +kernel, Or.inr (by decide +kernel)⟩⟩

/-- The premises of `HandlesStayDistinct` hold together. -/
theorem test_premises_of_HandlesStayDistinct :
    ∃ (s : State) (t : State), step s = .next t ∧ s.chip.dsp.handles :=
  ⟨⟨({ r0 with dsp := { r0.dsp with nextId := 4, weaves := [⟨3,0x2000,77,1,1,.launch 63 0,2,false,false,[]⟩] } }), [.submissionEntryTake]⟩, _, rfl, by unfold Dsp.handles; decide +kernel⟩

/-- The premises of `ArraysKeepTheirSize` hold together. -/
theorem test_premises_of_ArraysKeepTheirSize :
    ∃ (s : State) (t : State), step s = .next t ∧ s.chip.sized :=
  ⟨⟨r0, [.jerseyTick [] []]⟩, _, rfl, by unfold Chip.sized; decide +kernel⟩

/-- The premises of `MemoriesKeepTheirForm` hold together. -/
theorem test_premises_of_MemoriesKeepTheirForm :
    ∃ (s : State) (t : State), step s = .next t ∧ s.chip.msl.groups.length = 8 ∧ Memory.wf s.chip.muslin = true ∧
      Memory.wf s.chip.host = true :=
  ⟨⟨(Muslin.gs.getD 0 r0), [.muslinWrite 0x1000 5 [1] []]⟩, _, rfl, by decide +kernel, by decide +kernel, by decide +kernel⟩

/-- The premises of `ClockAndFlash` hold together. -/
theorem test_premises_of_ClockAndFlash :
    (∃ (s : State) (t : State), step s = .next t ∧ (∀ i, s.pending.head? = some i → stepsClock i = false)) ∧
    (∃ (s : State) (t : State) (i : Instr), step s = .next t ∧ s.pending.head? = some i ∧
      i ∈ [.functionLevelReset, .hotReset, .linkDown, .perstAssert, .perstRelease, .standbyEntryDone, .standbyWakeDone, .warmRestart, .warmRestartDone, .railsRestored]) ∧
    (∃ (s : State) (t : State), step s = .next t ∧ (∀ i, s.pending.head? = some i → writesFlash i = false)) :=
  ⟨⟨⟨r0, [.controlTick]⟩, _, rfl, head_of rfl⟩,
    ⟨⟨r0, [.railsRestored]⟩, _, _, rfl, rfl, by decide⟩,
    ⟨⟨r0, [.controlTick]⟩, _, rfl, head_of rfl⟩⟩

/-- The premises of `RegisterWrites` hold together. -/
theorem test_premises_of_RegisterWrites :
    (∃ (s : State) (a : Nat) (size : Nat), s.chip.heard = true ∧ (size ≠ 4 ∨ a % 4 ≠ 0)) ∧
    (∃ (s : State) (a : Nat), s.chip.heard = true ∧ a % 4 = 0 ∧ findReg a = none) ∧
    (∃ (s : State) (a : Nat), s.chip.heard = false ∧ a < 2 ^ 26) ∧
    (∃ (s : State), s.chip.awake = true) ∧
    (∃ (s : State) (f : Field) (i : Nat), s.chip.heard = true ∧ ((f, i) ∈ [(R.DSP_IDLE_PHASE_PHASE, 0),
      (R.DSP_CTX_BASE_LO_ADDR_LO, 0), (R.MSL_HATOM_ADDR_WORD, 0), (R.HIF_EVT_MASK_MASK, 0), (R.PWR_WAKE_AT_LO_TIME_LO, 0),
      (R.BUP_REC_LO_DATA_LO, 0)] ∨ f = R.MSL_WP_PROTECT ∧ i < 8)) ∧
    (∃ (s : State) (f : Field), s.chip.heard = true ∧ f ∈ [R.HIF_STATUS_LINK_DOWN_SEEN, R.HIF_STATUS_RESET_SEEN,
      R.HIF_STATUS_BAD_ACCESS, R.HIF_STATUS_HOST_ERR, R.MSL_STATUS_UE_LATCH, R.MSL_STATUS_WP_HIT, R.PWR_STATUS_OVER_CAP,
      R.PWR_STATUS_OVER_TEMP, R.PWR_STATUS_ISLAND_STALL]) ∧
    (∃ (s : State) (n : Nat), s.chip.heard = true ∧ n < 20) ∧
    (∃ (s : State) (f : Field), s.chip.heard = true ∧ f ∈ [R.HIF_STATUS_LINK_UP, R.HIF_STATUS_SPEED, R.HIF_STATUS_WIDTH,
      R.BUP_STATUS_LAST_PASSED, R.BUP_STATUS_READY, R.PWR_STATUS_OP, R.MSL_STATUS_GROUP_STATE, R.MSL_ECC_CE_CNT_COUNT]) ∧
    (∃ (s : State) (v : Word), s.chip.heard = true ∧ s.chip.rd R.BUP_STATUS_LAST_PASSED < 11 ∧ v.toNat.testBit 0 = true) ∧
    (∃ (s : State), s.chip.heard = true ∧ s.chip.on R.QMG_CTRL_ENABLE = true) ∧
    (∃ (s : State), s.chip.heard = true ∧ s.chip.on R.DRC_CTRL_ENABLE = true) ∧
    (∃ (s : State) (n : _) (k : _), s.chip.heard = true ∧ n < 64 ∧ k < 8 ∧ k ≠ 1 ∧ s.chip.on R.DSP_LAUNCH_ENABLE n = true) ∧
    (∃ (s : State), s.chip.heard = true) ∧
    (∃ (s : State) (n : Nat) (v : Word), s.chip.heard = true ∧ n < 2048 ∧ v.toNat.testBit 0 = false ∧
      s.chip.on R.PCI_MSIX_ENABLE = true ∧ s.chip.on R.PCI_MSIX_FUNCTION_MASK = false ∧
      (s.chip.regs.get (msixPba n)).getLsbD (n % 32) = true) :=
  ⟨⟨(mk r0), 2047, 4, by decide +kernel⟩,
    ⟨(mk (Regs.gs.getD 0 r0)), 67108860, by decide +kernel⟩,
    ⟨(mk Regs.d3), 0, by decide +kernel⟩,
    ⟨(mk r0), by decide +kernel⟩,
    ⟨(mk (Regs.gs.getD 0 r0)), { addr := 18874416, lo := 0, width := 32, stride := 0 }, 0, by decide +kernel⟩,
    ⟨(mk (Regs.gs.getD 0 r0)), { addr := 17825792, lo := 9, width := 1, stride := 0 }, by decide +kernel⟩,
    ⟨(mk (Regs.gs.getD 0 r0)), 19, by decide +kernel⟩,
    ⟨(mk (Regs.gs.getD 0 r0)), { addr := 3145744, lo := 0, width := 32, stride := 0 }, by decide +kernel⟩,
    ⟨(mk (Regs.gs.getD 0 r0)), 0x00000001#32, by decide +kernel⟩,
    ⟨(mk (Regs.gs.getD 1 r0)), by decide +kernel⟩,
    ⟨(mk (Regs.gs.getD 2 r0)), by decide +kernel⟩,
    ⟨(mk (Regs.gs.getD 3 r0)), 63, 7, by decide +kernel⟩,
    ⟨(mk r0), by decide +kernel⟩,
    ⟨(mk (Regs.vec (Regs.gs.getD 4 r0))), 2047, 0, by decide +kernel⟩⟩

/-- The premises of `Commits` hold together. -/
theorem test_premises_of_Commits :
    (∃ (s : State) (i : Instr) (n : Nat) (t : Nat) (b : Chip), s.chip.live = true ∧ s.chip.odx.sessions.length = 8 ∧ n < 8 ∧
      (s.chip.session n).state = 2 ∧ (s.chip.session n).commitAt = t ∧ (∀ k, k ≠ n → (s.chip.session k).state ≠ 2) ∧
      s.chip.odx.implicit = [] ∧ (i = .commitInstant ∧ t ≤ 2 ^ 64 ∧ b = s.chip.advanceTo t ∨ i = .controlTick ∧
      t = s.chip.nextControlTick ∧ b = (s.chip.advanceTo t).gridServe gridControl t) ∧
      ((b.freeSession n).overlay (s.chip.session n).staged).consistent ((s.chip.session n).staged.map (·.1)) = true) ∧
    (∃ (s : State) (i : Instr) (n : Nat) (t : Nat) (b : Chip), s.chip.live = true ∧ s.chip.odx.sessions.length = 8 ∧ n < 8 ∧
      (s.chip.session n).state = 2 ∧ (s.chip.session n).commitAt = t ∧ (∀ k, k ≠ n → (s.chip.session k).state ≠ 2) ∧
      s.chip.odx.implicit = [] ∧ (i = .commitInstant ∧ t ≤ 2 ^ 64 ∧ b = s.chip.advanceTo t ∨ i = .controlTick ∧
      t = s.chip.nextControlTick ∧ b = (s.chip.advanceTo t).gridServe gridControl t) ∧
      ((b.freeSession n).overlay (s.chip.session n).staged).consistent ((s.chip.session n).staged.map (·.1)) = false) ∧
    (∃ (s : State), s.chip.live = true ∧ (∀ k ∈ s.chip.odx.sessions, k.state ≠ 2) ∧ s.chip.odx.implicit = []) :=
  ⟨⟨mk (Regs.due [(entryKey 0x5000 2, 1)]), .commitInstant, 7, 2000000, _, by decide +kernel, by decide +kernel, by decide +kernel, (by decide +kernel), by decide +kernel, session_states _ 7 (by decide +kernel) (by decide +kernel), by decide +kernel, Or.inl ⟨rfl, by norm_num, rfl⟩, by decide +kernel⟩,
    ⟨mk ({ Regs.due [(entryKey 0x5C10 1, 1)] with odx := { (Regs.due []).odx with sessions := (Regs.due []).odx.sessions.map (fun s => if s.state = 2 then { s with staged := [(entryKey 0x5C10 1, 1)], commitAt := 0 } else s) } }), .controlTick, 7, 0, _, by decide +kernel, by decide +kernel, by decide +kernel, (by decide +kernel), by decide +kernel, session_states _ 7 (by decide +kernel) (by decide +kernel), by decide +kernel, Or.inr ⟨rfl, by decide +kernel, rfl⟩, by decide +kernel⟩,
    ⟨mk r0, by decide +kernel, by decide +kernel, by decide +kernel⟩⟩

/-- The premises of `EventsAreRaised` hold together. -/
theorem test_premises_of_EventsAreRaised :
    (∃ (n : Nat), n < 20) ∧
    (∃ (c : Chip) (n : Nat), n < 20 ∧ c.on R.PCI_MSIX_ENABLE = false) ∧
    (∃ (c : Chip) (n : Nat), n < 20 ∧ (c.rd R.HIF_EVT_PEND_PEND).testBit n = true) ∧
    (∃ (c : Chip) (n : Nat), n < 20 ∧ (c.rd R.HIF_EVT_PEND_PEND).testBit n = false ∧ (c.rd R.HIF_EVT_MASK_MASK).testBit n = true) ∧
    (∃ (c : Chip) (n : Nat), n < 20 ∧ (c.rd R.HIF_EVT_PEND_PEND).testBit n = false ∧ (c.rd R.HIF_EVT_MASK_MASK).testBit n = false ∧
      c.on R.PCI_MSIX_ENABLE = true ∧ c.on R.PCI_MSIX_FUNCTION_MASK = false ∧ (c.regs.get (msixControl n)).getLsbD 0 = false) ∧
    (∃ (c : Chip) (n : Nat), n < 20 ∧ (c.rd R.HIF_EVT_PEND_PEND).testBit n = false ∧ (c.rd R.HIF_EVT_MASK_MASK).testBit n = false ∧
      c.on R.PCI_MSIX_ENABLE = true ∧ (c.on R.PCI_MSIX_FUNCTION_MASK = true ∨ (c.regs.get (msixControl n)).getLsbD 0 = true)) ∧
    (∃ (n : Nat) (f : Field) (i : Nat), n < 20 ∧ f.apart i R.HIF_EVT_PEND_PEND 0 = true ∧
      (∀ k, k < f.nwords → f.base i + 4 * k ≠ msixPba n)) :=
  ⟨⟨19, by decide +kernel⟩,
    ⟨r0, 19, by decide +kernel⟩,
    ⟨(Regs.gs.getD 5 r0), 19, by decide +kernel⟩,
    ⟨(Regs.gs.getD 6 r0), 19, by decide +kernel⟩,
    ⟨Regs.vec (Regs.gs.getD 8 r0), 19, by decide +kernel⟩,
    ⟨Regs.vec r0, 19, by decide +kernel⟩,
    ⟨19, { addr := 18874416, lo := 0, width := 32, stride := 0 }, 19, by decide +kernel⟩⟩

/-- The premises of `JournalRecordLayout` hold together. -/
theorem test_premises_of_JournalRecordLayout :
    ∃ (seq : Nat) (time : Nat) (f : JournalFields) (r : Nat), r = journalRecord seq time f :=
  ⟨1, 2, { kind := 1, port := 3 }, _, rfl⟩

/-- The premises of `BanksAndLines` hold together. -/
theorem test_premises_of_BanksAndLines :
    (∃ (a : Nat), a < 2 ^ 28) ∧
    (∃ (bank : Nat) (line : Nat), bank < 64 ∧ line < 32768) :=
  ⟨⟨2 ^ 28 - 1, by norm_num⟩,
    ⟨63, 32767, by norm_num, by norm_num⟩⟩

/-- The premises of `ConversionsRound` hold together. -/
theorem test_premises_of_ConversionsRound :
    (∃ (code : Nat) (r : Nat) (rnd : Nat) (g : BitVec 32) (n : Bool) (m : Nat) (e : Int) (q : Int) (x : ℚ) (k : Nat) (k' : Nat), m ≠ 0 ∧
      rnd ≤ 2 ∧ spacing code r (.fin n m e) = some q ∧ x = m * 2 ^ e ∧ (k : ℤ) = ⌊x / 2 ^ q⌋ ∧
      (roundsUp rnd k (x / 2 ^ q - k) g → k' = k + 1) ∧ (¬ roundsUp rnd k (x / 2 ^ q - k) g → k' = k) ∧
      k' * 2 ^ q ≤ formatMax code r n) ∧
    (∃ (code : Nat) (r : Nat) (rnd : Nat) (sat : Bool) (g : BitVec 32) (n : Bool) (m : Nat) (e : Int) (q : Int) (x : ℚ) (k : Nat) (k' : Nat), m ≠ 0 ∧
      rnd ≤ 2 ∧ spacing code r (.fin n m e) = some q ∧ x = m * 2 ^ e ∧ (k : ℤ) = ⌊x / 2 ^ q⌋ ∧
      (roundsUp rnd k (x / 2 ^ q - k) g → k' = k + 1) ∧ (¬ roundsUp rnd k (x / 2 ^ q - k) g → k' = k) ∧
      formatMax code r n < k' * 2 ^ q ∧ (rnd = 1 ∨ sat = true ∨ code ∉ [0x8, 0x9, 0xA, 0xB, 0xC])) ∧
    (∃ (code : Nat) (r : Nat) (rnd : Nat) (sat : Bool) (g : BitVec 32) (n : Bool) (m : Nat) (e : Int) (q : Int) (x : ℚ) (k : Nat) (k' : Nat), m ≠ 0 ∧
      rnd ≤ 2 ∧ spacing code r (.fin n m e) = some q ∧ x = m * 2 ^ e ∧ (k : ℤ) = ⌊x / 2 ^ q⌋ ∧
      (roundsUp rnd k (x / 2 ^ q - k) g → k' = k + 1) ∧ (¬ roundsUp rnd k (x / 2 ^ q - k) g → k' = k) ∧
      formatMax code r n < k' * 2 ^ q ∧ rnd ≠ 1 ∧ sat = false ∧ code ∈ [0x8, 0x9, 0xA, 0xB, 0xC]) :=
  ⟨⟨0x8, 0, 0, 0, false, 100, 0, 3, 100, 12, 12, by norm_num, by norm_num, by decide +kernel, by norm_num, by norm_num, by norm_num [roundsUp], by norm_num [roundsUp], by rw [formatMax_e4m3]; norm_num⟩,
    ⟨0x8, 0, 0, true, 0, false, 1000, 0, 6, 1000, 15, 16, by norm_num, by norm_num, by decide +kernel, by norm_num, by norm_num, by norm_num [roundsUp], by norm_num [roundsUp], by rw [formatMax_e4m3]; norm_num, Or.inr (Or.inl rfl)⟩,
    ⟨0x8, 0, 0, false, 0, false, 1000, 0, 6, 1000, 15, 16, by norm_num, by norm_num, by decide +kernel, by norm_num, by norm_num, by norm_num [roundsUp], by norm_num [roundsUp], by rw [formatMax_e4m3]; norm_num, by decide, rfl, by decide⟩⟩

/-- The premises of `ConversionsAreExact` hold together. -/
theorem test_premises_of_ConversionsAreExact :
    ∃ (code : Nat) (r : Nat) (rnd : Nat) (x : Nat), code ≤ 0xD ∧ x < 2 ^ fmtWidth code ∧ rnd ≤ 2 ∧
      (decodeElem code r x).isFinite = true :=
  ⟨0xD, 31, 2, 0xFFFFFFFF, by decide, by decide, by decide, by decide +kernel⟩

/-- The premises of `SupplyAndReset` hold together. -/
theorem test_premises_of_SupplyAndReset :
    (∃ (s : State), s.chip.pkg.keeper = true) ∧
    (∃ (ns : _), 1000 ≤ ns) ∧
    (∃ (ns : _), ns < 1000) ∧
    (∃ (c : Chip), c.asReset) ∧
    (∃ (s : State), s.chip.pkg.keeper = false) ∧
    (∃ (s : State), s.chip.pkg.resetLow = true) :=
  ⟨⟨(mk (Pins.gs.getD 0 r0)), by decide +kernel⟩,
    ⟨1000, by decide +kernel⟩,
    ⟨9, by decide +kernel⟩,
    ⟨(Pins.gs.getD 0 r0), by simp only [Chip.asReset]; decide +kernel⟩,
    ⟨(mk (Pins.gs.getD 1 r0)), by decide +kernel⟩,
    ⟨(mk (Pins.gs.getD 2 r0)), by decide +kernel⟩⟩

/-- The premises of `RailsAndStandby` hold together. -/
theorem test_premises_of_RailsAndStandby :
    (∃ (s : State) (rail : _) (ns : _), 2 ≤ rail ∧ rail ≤ 9 ∧ 1000 ≤ ns ∧ s.chip.awake = true ∧ s.chip.pwr.standby < 2) ∧
    (∃ (rail : _) (ns : _), 2 ≤ rail ∧ ns < 1000) ∧
    (∃ (s : State) (rail : _), rail ≤ 1 ∧ s.chip.pkg.keeper = true) ∧
    (∃ (s : State), s.chip.live = true) ∧
    (∃ (s : State), s.chip.awake = true ∧ s.chip.pwr.standby = 1) ∧
    (∃ (s : State), s.chip.heard = true ∧ s.chip.bup.warm = false ∧ s.chip.bup.restart = none) ∧
    (∃ (s : State), s.chip.live = true ∧ s.chip.pwr.standby = 3 ∧ s.chip.pkg.rails = []) ∧
    (∃ (s : State), s.chip.live = true ∧ s.chip.bup.warm = true) :=
  ⟨⟨(mk (Pins.gs.getD 0 r0)), 9, 1000, by decide +kernel⟩,
    ⟨9, 9, by decide +kernel⟩,
    ⟨(mk (Pins.gs.getD 0 r0)), 0, by decide +kernel⟩,
    ⟨(mk r0), by decide +kernel⟩,
    ⟨(mk (Pins.gs.getD 6 r0)), by decide +kernel⟩,
    ⟨(mk (Pins.gs.getD 0 r0)), by decide +kernel⟩,
    ⟨(mk (Pins.gs.getD 5 r0)), by decide +kernel⟩,
    ⟨(mk (Pins.gs.getD 7 r0)), by decide +kernel⟩⟩

/-- The premises of `HostFacingResets` hold together. -/
theorem test_premises_of_HostFacingResets :
    (∃ (s : State) (seen : Field) (i : Instr), s.chip.awake = true ∧ s.chip.odx.sessions.length = 8 ∧ (i = .functionLevelReset ∧
      seen = R.HIF_STATUS_RESET_SEEN ∨ i = .hotReset ∧ seen = R.HIF_STATUS_RESET_SEEN ∨ i = .linkDown ∧
      seen = R.HIF_STATUS_LINK_DOWN_SEEN ∨ i = .perstAssert ∧ seen = R.HIF_STATUS_RESET_SEEN)) ∧
    (∃ (s : State), s.chip.awake = false) ∧
    (∃ (s : State) (speed : Nat) (width : Nat), s.chip.awake = true ∧ s.chip.hif.perst = false ∧ 1 ≤ speed ∧ speed ≤ 5 ∧
      width ∈ [1, 2, 4, 8]) :=
  ⟨⟨(mk (Pins.gs2.getD 0 r0)), { addr := 8, lo := 9, width := 1, stride := 0 }, (Sys2Proof.Instr.functionLevelReset), by decide +kernel⟩,
    ⟨(mk (Pins.gs2.getD 7 r0)), by decide +kernel⟩,
    ⟨(mk (Pins.gs2.getD 0 r0)), 5, 8, by decide +kernel⟩⟩

/-- The premises of `StalledIslands` hold together. -/
theorem test_premises_of_StalledIslands :
    (∃ (s : State) (island : Nat), s.chip.awake = true ∧ island ≤ 111 ∧ island ≠ 100 ∧ island ≠ 101 ∧ island ∉ s.chip.isolated ∧
      s.chip.clockRuns island = true ∧ s.chip.gngIdle ∧
      (∀ u ∈ s.chip.dependents island, ∀ o, s.chip.op? u = some o → o.mirror = false)) ∧
    (∃ (s : State) (island : Nat), s.chip.awake = true ∧ (island ∈ s.chip.isolated ∨ s.chip.clockRuns island = false)) :=
  ⟨⟨(mk r0), 111, by decide +kernel, by decide +kernel, by decide +kernel, (by decide +kernel), by decide +kernel, by decide +kernel, by simp only [Chip.gngIdle]; decide +kernel, by decide +kernel⟩,
    ⟨(mk (Pins.gs2.getD 5 r0)), 50, by decide +kernel⟩⟩

/-- The premises of `StagesStart` hold together. -/
theorem test_premises_of_StagesStart :
    (∃ (s : State) (i : Instr) (n : Nat), s.chip.heard = true ∧ stageNumber i = some n ∧ s.chip.bup.stage ≠ none) ∧
    (∃ (s : State) (i : Instr) (n : Nat), s.chip.heard = true ∧ stageNumber i = some n ∧ s.chip.bup.stage = none ∧
      (s.chip.on R.BUP_STATUS_READY = true ∨ s.chip.rd R.BUP_STATUS_LAST_PASSED + 1 ≠ n)) ∧
    (∃ (s : State) (i : Instr) (n : Nat), s.chip.heard = true ∧ stageNumber i = some n ∧ s.chip.bup.stage = none ∧
      s.chip.on R.BUP_STATUS_READY = false ∧ s.chip.rd R.BUP_STATUS_LAST_PASSED + 1 = n) ∧
    (∃ (s : State) (i : Instr), s.chip.heard = true ∧ s.chip.bup.stage = some i) ∧
    (∃ (s : State), s.chip.heard = true ∧ s.chip.bup.stage = none) :=
  ⟨⟨(mk (Stages.started.getD 1 r0)), (Sys2Proof.Instr.powerSequenceCheck 0x000#10 25000), _, by decide +kernel, ofSome (by decide +kernel), by decide +kernel⟩,
    ⟨(mk (Stages.started.getD 0 r0)), (Sys2Proof.Instr.keeperRestore), _, by decide +kernel, ofSome (by decide +kernel), by decide +kernel⟩,
    ⟨(mk (Stages.started.getD 0 r0)), (Sys2Proof.Instr.powerSequenceCheck 0x000#10 25000), _, by decide +kernel, by decide +kernel, by decide +kernel, by decide +kernel, rfl⟩,
    ⟨(mk (Stages.started.getD 1 r0)), _, by decide +kernel, ofSome (by decide +kernel)⟩,
    ⟨(mk (Stages.started.getD 0 r0)), by decide +kernel⟩⟩

/-- The premises of `StagesEnd` hold together. -/
theorem test_premises_of_StagesEnd :
    (∃ (s : State) (bad : BitVec 10) (khz : Nat), s.chip.awake = true ∧ s.chip.bup.stage = some (.powerSequenceCheck bad khz)) ∧
    (∃ (s : State) (f : FuseReport), s.chip.awake = true ∧ s.chip.bup.stage = some (.fuseLoad f) ∧
      Instr.wellFormed (.fuseLoad f) = true ∧ f.failed ≠ 0) ∧
    (∃ (s : State) (f : FuseReport), s.chip.awake = true ∧ s.chip.bup.stage = some (.fuseLoad f) ∧
      Instr.wellFormed (.fuseLoad f) = true ∧ f.failed = 0) ∧
    (∃ (s : State) (l : List Nat), s.chip.awake = true ∧ s.chip.bup.stage = some (.clockIslandStart l) ∧ l = []) ∧
    (∃ (s : State) (l : List Nat), s.chip.awake = true ∧ s.chip.bup.stage = some (.clockIslandStart l) ∧ (∃ k ∈ l, k < 43 ∨
      60 < k ∧ k < 67 ∨ 82 < k ∧ k < 100 ∨ 101 < k ∧ k < 112)) ∧
    (∃ (s : State), s.chip.awake = true ∧ s.chip.bup.stage = some .keeperRestore) ∧
    (∃ (s : State), s.chip.awake = true ∧ s.chip.bup.stage = some .dictionaryLoad ∧ s.chip.on R.BUP_STATUS_WAKE_RESTART = false ∧
      (5 ∉ s.chip.flash.parts ∨ s.chip.flash.image = none)) ∧
    (∃ (s : State), s.chip.awake = true ∧ s.chip.bup.stage = some .dictionaryLoad ∧ s.chip.on R.BUP_STATUS_WAKE_RESTART = true ∧
      s.chip.odx.badStore ≠ []) ∧
    (∃ (s : State) (quick : Bool) (nack : BitVec 2), s.chip.awake = true ∧
      s.chip.bup.stage = some (.muslinTest quick nack [] [] [])) ∧
    (∃ (s : State) (quick : Bool) (fail : BitVec 16), s.chip.awake = true ∧ s.chip.bup.stage = some (.dramTraining quick fail)) ∧
    (∃ (s : State) (quick : Bool), s.chip.awake = true ∧ s.chip.bup.stage = some (.dramTest quick [])) ∧
    (∃ (s : State), s.chip.awake = true ∧ s.chip.bup.stage = some .repairApply ∧ s.chip.bup.set = [] ∧ s.chip.bup.pages = []) ∧
    (∃ (s : State) (quick : Bool) (nack : BitVec 2), s.chip.awake = true ∧
      s.chip.bup.stage = some (.knownAnswerRuns quick nack 0 [] []) ∧ s.chip.bup.activate = [] ∧ s.chip.gngIdle ∧
      (quick = true ∨ nack = 0)) ∧
    (∃ (s : State) (areas : List (Nat × Nat)), s.chip.awake = true ∧ s.chip.bup.stage = some .queueSetup ∧
      areas = [s.chip.ctxArea, s.chip.spillArea, s.chip.saveArea] ∧ (∀ a ∈ areas, s.chip.areaOk a = true) ∧
      areas.Pairwise (fun a b => a.1 + a.2 ≤ b.1 ∨ b.1 + b.2 ≤ a.1)) ∧
    (∃ (s : State) (areas : List (Nat × Nat)), s.chip.awake = true ∧ s.chip.bup.stage = some .queueSetup ∧
      areas = [s.chip.ctxArea, s.chip.spillArea, s.chip.saveArea] ∧ (∃ a ∈ areas, s.chip.areaOk a = false)) ∧
    (∃ (s : State), s.chip.awake = true ∧ s.chip.bup.stage = some .bupReady) ∧
    (∃ (s : State), s.chip.awake = true ∧ s.chip.bup.stage = none) :=
  ⟨⟨(mk (Stages.gs.getD 0 r0)), 0x000#10, 25000, by decide +kernel⟩,
    ⟨(mk (Stages.gs.getD 4 r0)), { corrected := 0, failed := 1, serial := 5, dieId := 7, muslinRepairs := [], damaskSpares := [], twillFailed := [3] }, by decide +kernel⟩,
    ⟨(mk (Stages.gs.getD 3 r0)), { corrected := 0, failed := 0, serial := 5, dieId := 7, muslinRepairs := [], damaskSpares := [], twillFailed := [3] }, by decide +kernel⟩,
    ⟨(mk (Stages.gs.getD 6 r0)), _, by decide +kernel, by decide +kernel, rfl⟩,
    ⟨(mk (Stages.gs.getD 7 r0)), [0], by decide +kernel⟩,
    ⟨(mk (Stages.started.getD 1 r0)), by decide +kernel⟩,
    ⟨(mk (Stages.gs.getD 12 r0)), by decide +kernel⟩,
    ⟨(mk (Stages.gs.getD 14 r0)), by decide +kernel⟩,
    ⟨(mk (Stages.started.getD 4 r0)), false, 0x0#2, by decide +kernel⟩,
    ⟨(mk (Stages.gs.getD 18 r0)), false, 0x0000#16, by decide +kernel⟩,
    ⟨(mk (Stages.started.getD 5 r0)), false, by decide +kernel⟩,
    ⟨(mk (Stages.gs.getD 21 r0)), by decide +kernel⟩,
    ⟨(mk (Stages.gs.getD 22 r0)), true, 0x1#2, by decide +kernel, by decide +kernel, by decide +kernel, by simp only [Chip.gngIdle]; decide +kernel, by decide +kernel⟩,
    ⟨(mk (Stages.gs.getD 25 r0)), _, by decide +kernel, by decide +kernel, rfl, by decide +kernel⟩,
    ⟨(mk (Stages.gs.getD 26 r0)), _, by decide +kernel, by decide +kernel, rfl, by decide +kernel⟩,
    ⟨(mk (Stages.gs.getD 27 r0)), by decide +kernel⟩,
    ⟨(mk (Stages.started.getD 0 r0)), by decide +kernel⟩⟩

/-- The premises of `RepairsAndRestarts` hold together. -/
theorem test_premises_of_RepairsAndRestarts :
    (∃ (s : State) (data : Nat), s.chip.heard = true ∧
      data = s.chip.rd R.BUP_REC_LO_DATA_LO + (s.chip.rd R.BUP_REC_HI_DATA_HI <<< 32) ∧ (s.chip.bup.append ≠ none ∨
      s.chip.bup.stage = some .keeperRestore)) ∧
    (∃ (s : State) (data : Nat), s.chip.heard = true ∧
      data = s.chip.rd R.BUP_REC_LO_DATA_LO + (s.chip.rd R.BUP_REC_HI_DATA_HI <<< 32) ∧ s.chip.bup.append = none ∧
      s.chip.bup.stage ≠ some .keeperRestore ∧ s.chip.hasRepair = false) ∧
    (∃ (s : State) (kind : BitVec 8) (data : Nat), s.chip.heard = true ∧
      data = s.chip.rd R.BUP_REC_LO_DATA_LO + (s.chip.rd R.BUP_REC_HI_DATA_HI <<< 32) ∧ s.chip.bup.append = none ∧
      s.chip.bup.stage ≠ some .keeperRestore ∧ s.chip.hasRepair = true ∧ dataInRange kind.toNat data = false) ∧
    (∃ (s : State) (kind : BitVec 8) (data : Nat), s.chip.heard = true ∧
      data = s.chip.rd R.BUP_REC_LO_DATA_LO + (s.chip.rd R.BUP_REC_HI_DATA_HI <<< 32) ∧ s.chip.bup.append = none ∧
      s.chip.bup.stage ≠ some .keeperRestore ∧ s.chip.hasRepair = true ∧ dataInRange kind.toNat data = true) ∧
    (∃ (s : State) (r : Nat), s.chip.live = true ∧ s.chip.bup.append = some r) ∧
    (∃ (s : State), s.chip.heard = true ∧ (s.chip.bup.warm = true ∨ s.chip.bup.restart ≠ none)) ∧
    (∃ (s : State) (b : BitVec 5), s.chip.heard = true ∧ s.chip.bup.warm = false ∧ s.chip.bup.restart = none ∧ (b.toNat ≤ 2 ∨
      23 < b.toNat)) ∧
    (∃ (s : State) (b : BitVec 5), s.chip.heard = true ∧ s.chip.bup.warm = false ∧ s.chip.bup.restart = none ∧ 3 ≤ b.toNat ∧
      b.toNat ≤ 23 ∧ s.chip.restartAllowed b.toNat = false) ∧
    (∃ (s : State) (b : BitVec 5), s.chip.heard = true ∧ s.chip.bup.warm = false ∧ s.chip.bup.restart = none ∧ 6 ≤ b.toNat ∧
      b.toNat ≤ 13 ∧ s.chip.restartAllowed b.toNat = true ∧ s.chip.gngIdle) ∧
    (∃ (s : State) (n : Nat), s.chip.awake = true ∧ s.chip.bup.restart = some n ∧ 18 ≤ n ∧ n ≤ 22 ∧ s.chip.gngIdle) ∧
    (∃ (s : State), s.chip.awake = true ∧ s.chip.bup.restart = none) :=
  ⟨⟨(mk (Repairs.gs.getD 2 r0)), _, by decide +kernel, rfl, by decide +kernel⟩,
    ⟨(mk (Repairs.gs.getD 5 r0)), _, by decide +kernel, rfl, by decide +kernel⟩,
    ⟨(mk (Repairs.gs.getD 0 r0)), 0x00#8, _, by decide +kernel, rfl, by decide +kernel⟩,
    ⟨(mk (Repairs.gs.getD 0 r0)), 0x02#8, _, by decide +kernel, rfl, by decide +kernel⟩,
    ⟨(mk (Repairs.gs.getD 2 r0)), _, by decide +kernel, ofSome (by decide +kernel)⟩,
    ⟨(mk (Repairs.gs.getD 7 r0)), by decide +kernel⟩,
    ⟨(mk (Repairs.gs.getD 0 r0)), 0x1f#5, by decide +kernel⟩,
    ⟨(mk (Repairs.gs.getD 0 r0)), 0x16#5, by decide +kernel⟩,
    ⟨(mk (Repairs.gs.getD 0 r0)), 0x0d#5, by decide +kernel, by decide +kernel, by decide +kernel, (by decide +kernel), by decide +kernel, by decide +kernel, by simp only [Chip.gngIdle]; decide +kernel⟩,
    ⟨(mk (Repairs.gs.getD 7 r0)), _, by decide +kernel, ofSome (by decide +kernel), by decide +kernel, by decide +kernel, by simp only [Chip.gngIdle]; decide +kernel⟩,
    ⟨(mk (Repairs.gs.getD 0 r0)), by decide +kernel⟩⟩

/-- The premises of `PowerWindowsAndReadings` hold together. -/
theorem test_premises_of_PowerWindowsAndReadings :
    (∃ (s : State) (counts : List Nat) (t : Nat) (e : Machine.Num), s.chip.live = true ∧ s.chip.pwr.prior = none ∧
      t = s.chip.gridNext gridPower ⟨2000, 2000, 1⟩ ∧ s.chip.entry 0x5800 3 ≤ 64 ∧
      e = ((List.range 24).map (fun k => s.chip.domainPower counts k)).foldl f32add .zero) ∧
    (∃ (s : State) (w : OpChange), s.chip.awake = true ∧ s.chip.pwr.waiting = some w ∧
      (∀ u o, u < 2 → s.chip.op? u = some o → o.tileReady = false)) ∧
    (∃ (s : State) (w : OpChange) (since : Nat), s.chip.awake = true ∧ s.chip.pwr.settling = some (w, since) ∧ w.target < 8) ∧
    (∃ (s : State) (readings : List (Option Nat)), s.chip.live = true ∧ s.chip.entryOn 0x5801 1 = true ∧
      (∀ k, k < s.chip.monitors → ∃ w, readings[k]? = some (some w))) ∧
    (∃ (s : State) (readings : List (Option Nat)), s.chip.live = true ∧ s.chip.entryOn 0x5801 1 = true ∧
      (∃ k, k < s.chip.monitors ∧ readings[k]? = some none)) ∧
    (∃ (s : State) (readings : List Word), s.chip.live = true ∧ readings.length = 32 ∧ s.chip.entry 0x5800 3 ≤ 64) :=
  ⟨⟨(mk (Power.gs.getD 0 r0)), (List.replicate 26 100), _, _, by decide +kernel, by decide +kernel, rfl, by decide +kernel, rfl⟩,
    ⟨(mk (Power.gs.getD 3 r0)), _, by decide +kernel, ofSome (by decide +kernel), by
    intro u o _ h
    have e : (mk (Power.gs.getD 3 r0)).chip.dsp.running = [] := by decide +kernel
    unfold Chip.op? at h
    rw [e] at h; cases h⟩,
    ⟨(mk (Power.gs.getD 4 r0)), _, _, by decide +kernel, ofPair (by decide +kernel), by decide +kernel⟩,
    ⟨(mk (Power.gs.getD 9 r0)), [some 5, some 63743, some 2053], by decide +kernel, by decide +kernel, by
    have e : (mk (Power.gs.getD 9 r0)).chip.monitors = 3 := by decide +kernel
    intro k h; rw [e] at h; interval_cases k <;> exact ⟨_, rfl⟩⟩,
    ⟨(mk (Power.gs.getD 9 r0)), [some 3, none], by decide +kernel⟩,
    ⟨(mk (Power.gs.getD 0 r0)), (List.replicate 32 0x41f00000#32), by decide +kernel⟩⟩

/-- The premises of `DomainsAndStandby` hold together. -/
theorem test_premises_of_DomainsAndStandby :
    (∃ (s : State), s.chip.awake = true ∧ s.chip.pwr.standby = 0) ∧
    (∃ (s : State), s.chip.awake = true ∧ s.chip.pwr.standby ≠ 0) ∧
    (∃ (s : State) (x : Nat) (t : Nat), s.chip.awake = true ∧ x ∈ sleepers ∧ s.chip.domainState x ≠ 0 ∧ s.chip.pwr.standby = 0 ∧
      x ∉ s.chip.bup.restarting ∧ s.chip.wakeStart x = some t) ∧
    (∃ (s : State) (n : Nat) (t : Nat), s.chip.awake = true ∧ n < 64 ∧ s.chip.entryOn 0x5800 7 = true ∧
      t = s.chip.gridNext (gridLaunch n) ⟨s.chip.rd R.DSP_LAUNCH_FIRST n, max 1 (s.chip.rd R.DSP_LAUNCH_PERIOD_NS n), 1⟩ ∧
      s.chip.on R.DSP_LAUNCH_ENABLE n = true ∧ s.chip.rd R.DSP_LAUNCH_CLASS n ≤ 1) ∧
    (∃ (s : State) (n : Nat) (t : Nat), s.chip.awake = true ∧ n < 64 ∧ s.chip.entryOn 0x5800 7 = true ∧
      t = s.chip.gridNext (gridLaunch n) ⟨s.chip.rd R.DSP_LAUNCH_FIRST n, max 1 (s.chip.rd R.DSP_LAUNCH_PERIOD_NS n), 1⟩ ∧
      (s.chip.on R.DSP_LAUNCH_ENABLE n = false ∨ 1 < s.chip.rd R.DSP_LAUNCH_CLASS n)) ∧
    (∃ (s : State) (pin : Bool) (time : Bool), s.chip.heard = true ∧ pin = false ∧ time = false) ∧
    (∃ (s : State) (pin : Bool) (time : Bool), s.chip.heard = true ∧ (pin = true ∨ time = true) ∧ (s.chip.quietForStandby = false ∨
      s.chip.pwr.standby ≠ 0)) ∧
    (∃ (s : State) (pin : Bool) (time : Bool), s.chip.heard = true ∧ (pin = true ∨ time = true) ∧ s.chip.quietForStandby = true ∧
      s.chip.pwr.standby = 0) ∧
    (∃ (s : State) (low : Nat), s.chip.live = true ∧ s.chip.pwr.standby = 2 ∧ s.chip.pwr.wakePin = true ∧ 1000 ≤ low) ∧
    (∃ (s : State) (low : Nat), s.chip.live = true ∧ (s.chip.pwr.standby ≠ 2 ∨ s.chip.pwr.wakePin = false ∨ low < 1000)) ∧
    (∃ (s : State), s.chip.live = true ∧ s.chip.pwr.standby = 2 ∧ s.chip.pwr.wakeTime = true) :=
  ⟨⟨(mk (Power.gs.getD 0 r0)), by decide +kernel⟩,
    ⟨(mk (Power.gs.getD 8 r0)), by decide +kernel⟩,
    ⟨(mk (Power.gs.getD 12 r0)), 5, _, by decide +kernel, by decide +kernel, by decide +kernel, (by decide +kernel), by decide +kernel, ofSome (by decide +kernel)⟩,
    ⟨(mk (Power.gs.getD 15 r0)), 63, _, by decide +kernel, by decide +kernel, by decide +kernel, rfl, by decide +kernel⟩,
    ⟨(mk (Power.gs.getD 0 r0)), 63, _, by decide +kernel, by decide +kernel, by decide +kernel, rfl, by decide +kernel⟩,
    ⟨(mk (Power.gs.getD 0 r0)), _, _, by decide +kernel, rfl, rfl⟩,
    ⟨(mk (Power.gs.getD 8 r0)), true, true, by decide +kernel⟩,
    ⟨(mk (Power.gs.getD 0 r0)), true, true, by decide +kernel⟩,
    ⟨(mk (Power.gs.getD 10 r0)), 1000, by decide +kernel⟩,
    ⟨(mk (Power.gs.getD 0 r0)), 63, by decide +kernel⟩,
    ⟨(mk (Power.gs.getD 10 r0)), by decide +kernel⟩⟩

/-- The premises of `ClockCommands` hold together. -/
theorem test_premises_of_ClockCommands :
    (∃ (s : State), s.chip.heard = true) ∧
    (∃ (s : State) (force : Bool) (ns : Nat) (sec : Nat) (b : Nat) (i : _) (op : _), s.chip.heard = true ∧
      ns = s.chip.rd R.TKU_TIME_NS_NS ∧
      sec = s.chip.rd R.TKU_TIME_SEC_LO_SEC_LO + (s.chip.rd R.TKU_TIME_SEC_HI_SEC_HI <<< 32) ∧
      b = (sec * 1000000000 + ns) * 2 ^ 32 + s.chip.rd R.TKU_TIME_FRAC_FRAC * 2 ^ 16 ∧ s.chip.stepRefused force = true ∧
      (i = Instr.tkuSet force ∧ op = 2 ∨ i = .tkuStep force ∧ op = 3)) ∧
    (∃ (s : State) (force : Bool) (ns : Nat) (sec : Nat) (b : Nat), s.chip.heard = true ∧ ns = s.chip.rd R.TKU_TIME_NS_NS ∧
      sec = s.chip.rd R.TKU_TIME_SEC_LO_SEC_LO + (s.chip.rd R.TKU_TIME_SEC_HI_SEC_HI <<< 32) ∧
      b = (sec * 1000000000 + ns) * 2 ^ 32 + s.chip.rd R.TKU_TIME_FRAC_FRAC * 2 ^ 16 ∧ s.chip.stepRefused force = false ∧
      1000000000 ≤ ns) ∧
    (∃ (s : State) (force : Bool) (ns : Nat) (sec : Nat) (b : Nat), s.chip.heard = true ∧ ns = s.chip.rd R.TKU_TIME_NS_NS ∧
      sec = s.chip.rd R.TKU_TIME_SEC_LO_SEC_LO + (s.chip.rd R.TKU_TIME_SEC_HI_SEC_HI <<< 32) ∧
      b = (sec * 1000000000 + ns) * 2 ^ 32 + s.chip.rd R.TKU_TIME_FRAC_FRAC * 2 ^ 16 ∧ s.chip.stepRefused force = false ∧
      ns < 1000000000) ∧
    (∃ (s : State) (force : Bool) (ns : Nat) (sec : Nat) (b : Nat) (x : Int), s.chip.heard = true ∧
      ns = s.chip.rd R.TKU_TIME_NS_NS ∧
      sec = s.chip.rd R.TKU_TIME_SEC_LO_SEC_LO + (s.chip.rd R.TKU_TIME_SEC_HI_SEC_HI <<< 32) ∧
      b = (sec * 1000000000 + ns) * 2 ^ 32 + s.chip.rd R.TKU_TIME_FRAC_FRAC * 2 ^ 16 ∧ s.chip.stepRefused force = false ∧
      x = s.chip.tku.clock + s.chip.rd64 R.TKU_STEP_LO R.TKU_STEP_HI * 2 ^ 32 ∧ x < 0) ∧
    (∃ (s : State) (force : Bool) (ns : Nat) (sec : Nat) (b : Nat) (x : Int), s.chip.heard = true ∧
      ns = s.chip.rd R.TKU_TIME_NS_NS ∧
      sec = s.chip.rd R.TKU_TIME_SEC_LO_SEC_LO + (s.chip.rd R.TKU_TIME_SEC_HI_SEC_HI <<< 32) ∧
      b = (sec * 1000000000 + ns) * 2 ^ 32 + s.chip.rd R.TKU_TIME_FRAC_FRAC * 2 ^ 16 ∧ s.chip.stepRefused force = false ∧
      x = s.chip.tku.clock + s.chip.rd64 R.TKU_STEP_LO R.TKU_STEP_HI * 2 ^ 32 ∧ 0 ≤ x) ∧
    (∃ (s : State) (x : Int), s.chip.heard = true ∧ x = s.chip.tku.clock - s.chip.pendingOffset * 2 ^ 32 ∧ s.chip.tkuState ≠ 4) ∧
    (∃ (s : State) (x : Int), s.chip.heard = true ∧ x = s.chip.tku.clock - s.chip.pendingOffset * 2 ^ 32 ∧ s.chip.tkuState = 4 ∧
      0 ≤ x) ∧
    (∃ (s : State), s.chip.heard = true ∧ s.chip.tkuState = 0) ∧
    (∃ (s : State), s.chip.heard = true ∧ s.chip.tkuState ≠ 0) :=
  ⟨⟨(mk r0), by decide +kernel⟩,
    ⟨(mk (Clock.gs.getD 3 r0)), false, _, _, _, (Sys2Proof.Instr.tkuSet false), 2, by decide +kernel, rfl, rfl, rfl, by decide +kernel⟩,
    ⟨(mk (Clock.gs.getD 7 r0)), true, _, _, _, by decide +kernel, rfl, rfl, rfl, by decide +kernel⟩,
    ⟨(mk (Clock.gs.getD 0 r0)), true, _, _, _, by decide +kernel, rfl, rfl, rfl, by decide +kernel⟩,
    ⟨(mk (Clock.gs.getD 10 r0)), true, _, _, _, _, by decide +kernel, rfl, rfl, rfl, by decide +kernel, rfl, by decide +kernel⟩,
    ⟨(mk (Clock.gs.getD 0 r0)), true, _, _, _, _, by decide +kernel, rfl, rfl, rfl, by decide +kernel, rfl, by decide +kernel⟩,
    ⟨(mk (Clock.gs.getD 0 r0)), _, by decide +kernel, rfl, by decide +kernel⟩,
    ⟨(mk (Clock.gs.getD 5 r0)), _, by decide +kernel, rfl, by decide +kernel⟩,
    ⟨(mk (Clock.gs.getD 0 r0)), by decide +kernel⟩,
    ⟨(mk (Clock.gs.getD 2 r0)), by decide +kernel⟩⟩

/-- The premises of `OffsetsAndTimeStamps` hold together. -/
theorem test_premises_of_OffsetsAndTimeStamps :
    (∃ (s : State) (o : Int) (ls : Int) (us : Nat) (seen : Nat) (i : Instr), s.chip.heard = true ∧ -2 ^ 63 ≤ o ∧ o < 2 ^ 63 ∧
      (i = .offsetArrive o ls seen ∧ s.chip.entry 0x5000 3 = 0 ∧ s.chip.tku.steps ≤ seen ∨ i = .offsetSubmit us ∧
      s.chip.entry 0x5000 3 = 1 ∧ 7812 ≤ us ∧ us ≤ 16000000 ∧ o = s.chip.rd64 R.TKU_OFFSET_IN_LO R.TKU_OFFSET_IN_HI) ∧
      s.chip.tkuState = 0) ∧
    (∃ (s : State) (o : Int) (ls : Int) (us : Nat) (seen : Nat) (i : Instr), s.chip.heard = true ∧ -2 ^ 63 ≤ o ∧ o < 2 ^ 63 ∧
      (i = .offsetArrive o ls seen ∧ s.chip.entry 0x5000 3 = 0 ∧ s.chip.tku.steps ≤ seen ∨ i = .offsetSubmit us ∧
      s.chip.entry 0x5000 3 = 1 ∧ 7812 ≤ us ∧ us ≤ 16000000 ∧ o = s.chip.rd64 R.TKU_OFFSET_IN_LO R.TKU_OFFSET_IN_HI) ∧
      s.chip.tkuState = 1 ∧ o.natAbs < s.chip.entry 0x5000 5) ∧
    (∃ (s : State) (o : Int) (ls : Int) (us : Nat) (seen : Nat) (i : Instr), s.chip.heard = true ∧ -2 ^ 63 ≤ o ∧ o < 2 ^ 63 ∧
      (i = .offsetArrive o ls seen ∧ s.chip.entry 0x5000 3 = 0 ∧ s.chip.tku.steps ≤ seen ∨ i = .offsetSubmit us ∧
      s.chip.entry 0x5000 3 = 1 ∧ 7812 ≤ us ∧ us ≤ 16000000 ∧ o = s.chip.rd64 R.TKU_OFFSET_IN_LO R.TKU_OFFSET_IN_HI) ∧
      s.chip.tkuState = 1 ∧ s.chip.entry 0x5000 5 ≤ o.natAbs ∧ 0 ≤ (s.chip.tku.clock : Int) - o * 2 ^ 32) ∧
    (∃ (s : State) (o : Int) (ls : Int) (us : Nat) (seen : Nat) (i : Instr), s.chip.heard = true ∧ -2 ^ 63 ≤ o ∧ o < 2 ^ 63 ∧
      (i = .offsetArrive o ls seen ∧ s.chip.entry 0x5000 3 = 0 ∧ s.chip.tku.steps ≤ seen ∨ i = .offsetSubmit us ∧
      s.chip.entry 0x5000 3 = 1 ∧ 7812 ≤ us ∧ us ≤ 16000000 ∧ o = s.chip.rd64 R.TKU_OFFSET_IN_LO R.TKU_OFFSET_IN_HI) ∧
      2 ≤ s.chip.tkuState ∧ o.natAbs ≤ s.chip.entry 0x5000 4) ∧
    (∃ (s : State) (o : Int) (ls : Int) (us : Nat) (seen : Nat) (i : Instr), s.chip.heard = true ∧ -2 ^ 63 ≤ o ∧ o < 2 ^ 63 ∧
      (i = .offsetArrive o ls seen ∧ s.chip.entry 0x5000 3 = 0 ∧ s.chip.tku.steps ≤ seen ∨ i = .offsetSubmit us ∧
      s.chip.entry 0x5000 3 = 1 ∧ 7812 ≤ us ∧ us ≤ 16000000 ∧ o = s.chip.rd64 R.TKU_OFFSET_IN_LO R.TKU_OFFSET_IN_HI) ∧
      2 ≤ s.chip.tkuState ∧ s.chip.entry 0x5000 4 < o.natAbs) ∧
    (∃ (s : State) (seen : Nat), s.chip.awake = true ∧ s.chip.entry 0x5000 3 = 0 ∧ seen < s.chip.tku.steps ∧ s.chip.tkuState ≠ 0) ∧
    (∃ (s : State), s.chip.live = true ∧ s.chip.tkuState = 2) ∧
    (∃ (s : State), s.chip.live = true ∧ s.chip.tkuState ≠ 2) ∧
    (∃ (s : State) (port : Nat), s.chip.awake = true ∧ s.chip.ptpOn port = false) ∧
    (∃ (s : State) (port : Nat), s.chip.awake = true ∧ s.chip.ptpOn port = true) ∧
    (∃ (s : State) (id : Nat), s.chip.awake = true ∧ Table.getD s.chip.tku.generations (bits id 0 12) 0 ≠ bits id 12 4) ∧
    (∃ (s : State) (id : Nat), s.chip.awake = true ∧ Table.getD s.chip.tku.generations (bits id 0 12) 0 = bits id 12 4 ∧
      64 ≤ s.chip.tku.txts.length) ∧
    (∃ (s : State) (id : Nat), s.chip.awake = true ∧ Table.getD s.chip.tku.generations (bits id 0 12) 0 = bits id 12 4 ∧
      s.chip.tku.txts.length < 64) ∧
    (∃ (s : State) (e : TxStamp) (rest : List TxStamp), s.chip.heard = true ∧ s.chip.tku.txts = e :: rest ∧ e.id < 65536 ∧
      e.port < 2 ∧ rest.length < 64) ∧
    (∃ (s : State), s.chip.heard = true ∧ s.chip.tku.txts = []) :=
  ⟨⟨(mk (Clock.gs.getD 0 r0)), 0, 0, 7812, 0, (Sys2Proof.Instr.offsetArrive 0 0 0), by decide +kernel⟩,
    ⟨(mk (Clock.gs.getD 2 r0)), 0, 0, 7812, 0, (Sys2Proof.Instr.offsetArrive 0 0 0), by decide +kernel⟩,
    ⟨(mk (Clock.gs.getD 2 r0)), 1000, 0, 7812, 0, (Sys2Proof.Instr.offsetArrive 1000 0 0), by decide +kernel⟩,
    ⟨(mk (Clock.gs.getD 3 r0)), 0, 0, 7812, 0, (Sys2Proof.Instr.offsetArrive 0 0 0), by decide +kernel⟩,
    ⟨(mk (Clock.gs.getD 3 r0)), 10000000, 0, 7812, 0, (Sys2Proof.Instr.offsetArrive 10000000 0 0), by decide +kernel⟩,
    ⟨(mk (Clock.gs.getD 15 r0)), 0, by decide +kernel⟩,
    ⟨(mk (Clock.gs.getD 3 r0)), by decide +kernel⟩,
    ⟨(mk (Clock.gs.getD 0 r0)), by decide +kernel⟩,
    ⟨(mk (Clock.gs.getD 0 r0)), 3, by decide +kernel⟩,
    ⟨(mk (Clock.gs.getD 16 r0)), 0, by decide +kernel⟩,
    ⟨(mk (Clock.gs.getD 0 r0)), 7812, by decide +kernel⟩,
    ⟨(mk (Clock.gs.getD 18 r0)), 3, by decide +kernel⟩,
    ⟨(mk (Clock.gs.getD 0 r0)), 3, by decide +kernel⟩,
    ⟨(mk (Clock.gs.getD 18 r0)), _, _, by decide +kernel, ofCons (by decide +kernel), by decide +kernel⟩,
    ⟨(mk (Clock.gs.getD 0 r0)), by decide +kernel⟩⟩

/-- The premises of `DictionaryReads` hold together. -/
theorem test_premises_of_DictionaryReads :
    (∃ (s : State) (o : Origin) (index : Nat) (sub : Nat), s.chip.hears o ∧ findEntry index sub = none) ∧
    (∃ (s : State) (o : Origin) (index : Nat) (sub : Nat) (e : _), s.chip.hears o ∧ findEntry index sub = some e ∧
      s.chip.odx.badStore.contains (entryKey index sub) = false) ∧
    (∃ (s : State) (o : Origin) (index : Nat) (sub : Nat) (e : _), s.chip.hears o ∧ findEntry index sub = some e) :=
  ⟨⟨(mk (Dictionary.gs.getD 0 r0)), (Sys2Proof.Origin.host), 7, 7, by simp only [Chip.hears]; decide +kernel, by decide +kernel⟩,
    ⟨(mk (Dictionary.gs.getD 0 r0)), (Sys2Proof.Origin.host), 20480, 7, _, by simp only [Chip.hears]; decide +kernel, ofSome (by decide +kernel), by decide +kernel⟩,
    ⟨(mk (Dictionary.gs.getD 0 r0)), .host, 20480, 7, _, by simp only [Chip.hears]; decide +kernel, ofSome (by decide +kernel)⟩⟩

/-- The premises of `SessionsOpenAndStage` hold together. -/
theorem test_premises_of_SessionsOpenAndStage :
    (∃ (s : State) (o : Origin) (n : Nat), s.chip.hears o ∧ s.chip.odx.sessions.length = 8 ∧ originPort o ≠ 1 ∧
      (List.range 8).find? (fun k => (s.chip.session k).state == 0) = some n) ∧
    (∃ (s : State) (o : Origin), s.chip.hears o ∧ s.chip.odx.sessions.length = 8 ∧ originPort o ≠ 1 ∧
      (∀ k, k < 8 → (s.chip.session k).state ≠ 0)) ∧
    (∃ (s : State) (path : Nat) (n : Nat), s.chip.awake = true ∧ s.chip.odx.sessions.length = 8 ∧ 1 ≤ path ∧ path ≤ 0x44 ∧ n < 8 ∧
      (s.chip.session n).state = 0 ∧ s.chip.entry 0xA010 path = 0xFF) ∧
    (∃ (s : State) (path : Nat) (n : Nat), s.chip.awake = true ∧ s.chip.odx.sessions.length = 8 ∧ 1 ≤ path ∧ path ≤ 0x44 ∧ (8 ≤ n ∨
      (s.chip.session n).state ≠ 0 ∨ s.chip.entry 0xA010 path ≠ 0xFF)) ∧
    (∃ (s : State) (o : Origin) (n : Nat) (index : Nat) (sub : Nat) (value : List Byte) (staged : Table Nat), s.chip.hears o ∧
      originPort o ≠ 1 ∧ s.chip.odx.sessions.length = 8 ∧
      staged = Table.put (s.chip.session n).staged (entryKey index sub) (leNat value) ∧ (s.chip.owns o n = false ∨
      (s.chip.session n).state ≠ 1)) ∧
    (∃ (s : State) (o : Origin) (n : Nat) (index : Nat) (sub : Nat) (value : List Byte) (staged : Table Nat), s.chip.hears o ∧
      originPort o ≠ 1 ∧ s.chip.odx.sessions.length = 8 ∧
      staged = Table.put (s.chip.session n).staged (entryKey index sub) (leNat value) ∧ s.chip.owns o n = true ∧
      (s.chip.session n).state = 1 ∧ s.chip.entryCheck o index sub value false ≠ St.OK) ∧
    (∃ (s : State) (o : Origin) (n : Nat) (index : Nat) (sub : Nat) (value : List Byte) (staged : Table Nat), s.chip.hears o ∧
      originPort o ≠ 1 ∧ s.chip.odx.sessions.length = 8 ∧
      staged = Table.put (s.chip.session n).staged (entryKey index sub) (leNat value) ∧ s.chip.owns o n = true ∧
      (s.chip.session n).state = 1 ∧ s.chip.entryCheck o index sub value false = St.OK ∧ (256 < staged.length ∨
      16384 < stagedBytes staged)) ∧
    (∃ (s : State) (o : Origin) (n : Nat) (index : Nat) (sub : Nat) (value : List Byte) (staged : Table Nat), s.chip.hears o ∧
      originPort o ≠ 1 ∧ s.chip.odx.sessions.length = 8 ∧
      staged = Table.put (s.chip.session n).staged (entryKey index sub) (leNat value) ∧ s.chip.owns o n = true ∧
      (s.chip.session n).state = 1 ∧ s.chip.entryCheck o index sub value false = St.OK ∧ staged.length ≤ 256 ∧
      stagedBytes staged ≤ 16384 ∧ s.chip.reservedUntil (entryKey index sub) n ≠ none) ∧
    (∃ (s : State) (o : Origin) (n : Nat) (index : Nat) (sub : Nat) (value : List Byte) (staged : Table Nat), s.chip.hears o ∧
      originPort o ≠ 1 ∧ s.chip.odx.sessions.length = 8 ∧
      staged = Table.put (s.chip.session n).staged (entryKey index sub) (leNat value) ∧ s.chip.owns o n = true ∧
      (s.chip.session n).state = 1 ∧ s.chip.entryCheck o index sub value false = St.OK ∧ staged.length ≤ 256 ∧
      stagedBytes staged ≤ 16384 ∧ s.chip.reservedUntil (entryKey index sub) n = none) :=
  ⟨⟨(mk (Dictionary.gs.getD 0 r0)), (Sys2Proof.Origin.host), _, by simp only [Chip.hears]; decide +kernel, by decide +kernel, by decide +kernel, ofSome (by decide +kernel)⟩,
    ⟨(mk (Dictionary.gs.getD 6 r0)), (Sys2Proof.Origin.host), by simp only [Chip.hears]; decide +kernel, by decide +kernel⟩,
    ⟨(mk (Dictionary.gs.getD 0 r0)), 7, 7, by decide +kernel⟩,
    ⟨(mk (Dictionary.gs.getD 0 r0)), 7, 15, by decide +kernel⟩,
    ⟨(mk (Dictionary.gs.getD 0 r0)), (Sys2Proof.Origin.host), 7, 7, 7, [0x01#8], _, by simp only [Chip.hears]; decide +kernel, by decide +kernel, by decide +kernel, rfl, by decide +kernel⟩,
    ⟨(mk (Dictionary.gs.getD 1 r0)), (Sys2Proof.Origin.host), 2, 7, 7, [0x01#8], _, by simp only [Chip.hears]; decide +kernel, by decide +kernel, by decide +kernel, rfl, by decide +kernel⟩,
    ⟨(mk (Dictionary.gs3.getD 0 r0)), (Sys2Proof.Origin.host), 2, 20480, 7, [0x01#8, 0x00#8, 0x00#8, 0x00#8], _, by simp only [Chip.hears]; decide +kernel, by decide +kernel, by decide +kernel, rfl, by decide +kernel⟩,
    ⟨(mk (Dictionary.gs3.getD 1 r0)), (Sys2Proof.Origin.host), 2, 20480, 2, [0x01#8], _, by simp only [Chip.hears]; decide +kernel, by decide +kernel, by decide +kernel, rfl, by decide +kernel⟩,
    ⟨(mk (Dictionary.gs.getD 1 r0)), (Sys2Proof.Origin.host), 2, 20480, 7, [0x01#8, 0x00#8, 0x00#8, 0x00#8], _, by simp only [Chip.hears]; decide +kernel, by decide +kernel, by decide +kernel, rfl, by decide +kernel⟩⟩

/-- The premises of `SessionsEnd` hold together. -/
theorem test_premises_of_SessionsEnd :
    (∃ (s : State) (o : Origin) (n : Nat) (t : Nat) (time : BitVec 64) (token : Word) (i : Instr), s.chip.hears o ∧
      s.chip.odx.sessions.length = 8 ∧ (i = .odxCommit o n time token ∧ originPort o ≠ 1 ∨
      ∃ path, i = .netSessionCommit path n token time ∧ o = pathOrigin path ∧ 1 ≤ path ∧ path ≤ 0x44) ∧
      t = (if time = 0 then s.chip.tickFrom (s.chip.now + 5000) else time.toNat) ∧ (s.chip.session n).lastCommit = none ∧
      (s.chip.owns o n = false ∨ (s.chip.session n).state ≠ 1)) ∧
    (∃ (s : State) (o : Origin) (n : Nat) (t : Nat) (time : BitVec 64) (token : Word) (i : Instr), s.chip.hears o ∧
      s.chip.odx.sessions.length = 8 ∧ (i = .odxCommit o n time token ∧ originPort o ≠ 1 ∨
      ∃ path, i = .netSessionCommit path n token time ∧ o = pathOrigin path ∧ 1 ≤ path ∧ path ≤ 0x44) ∧
      t = (if time = 0 then s.chip.tickFrom (s.chip.now + 5000) else time.toNat) ∧ (s.chip.session n).lastCommit = none ∧
      s.chip.owns o n = true ∧ (s.chip.session n).state = 1 ∧ s.chip.projectedOk t (s.chip.session n).staged = false) ∧
    (∃ (s : State) (o : Origin) (n : Nat) (t : Nat) (time : BitVec 64) (token : Word) (i : Instr), s.chip.hears o ∧
      s.chip.odx.sessions.length = 8 ∧ (i = .odxCommit o n time token ∧ originPort o ≠ 1 ∨
      ∃ path, i = .netSessionCommit path n token time ∧ o = pathOrigin path ∧ 1 ≤ path ∧ path ≤ 0x44) ∧
      t = (if time = 0 then s.chip.tickFrom (s.chip.now + 5000) else time.toNat) ∧ (s.chip.session n).lastCommit = none ∧
      s.chip.owns o n = true ∧ (s.chip.session n).state = 1 ∧ s.chip.projectedOk t (s.chip.session n).staged = true ∧
      t < s.chip.now + 5000) ∧
    (∃ (s : State) (o : Origin) (n : Nat) (t : Nat) (time : BitVec 64) (token : Word) (i : Instr), s.chip.hears o ∧
      s.chip.odx.sessions.length = 8 ∧ (i = .odxCommit o n time token ∧ originPort o ≠ 1 ∨
      ∃ path, i = .netSessionCommit path n token time ∧ o = pathOrigin path ∧ 1 ≤ path ∧ path ≤ 0x44) ∧
      t = (if time = 0 then s.chip.tickFrom (s.chip.now + 5000) else time.toNat) ∧ (s.chip.session n).lastCommit = none ∧
      s.chip.owns o n = true ∧ (s.chip.session n).state = 1 ∧ s.chip.projectedOk t (s.chip.session n).staged = true ∧
      s.chip.now + 5000 ≤ t) ∧
    (∃ (s : State) (o : Origin) (n : Nat) (token : Word) (i : Instr) (st : _) (q : _), s.chip.hears o ∧
      s.chip.odx.sessions.length = 8 ∧ (i = .odxAbort o n token ∧ originPort o ≠ 1 ∨
      ∃ path, i = .netSessionAbort path n token ∧ o = pathOrigin path ∧ 1 ≤ path ∧ path ≤ 0x44) ∧ s.chip.owns o n = true ∧
      (s.chip.session n).lastAbort = some (token.toNat, st, q)) ∧
    (∃ (s : State) (o : Origin) (n : Nat) (token : Word) (i : Instr), s.chip.hears o ∧ s.chip.odx.sessions.length = 8 ∧
      (i = .odxAbort o n token ∧ originPort o ≠ 1 ∨ ∃ path, i = .netSessionAbort path n token ∧ o = pathOrigin path ∧
      1 ≤ path ∧ path ≤ 0x44) ∧ s.chip.owns o n = true ∧ (s.chip.session n).lastAbort = none ∧ (s.chip.session n).state = 1) ∧
    (∃ (s : State) (n : Nat), s.chip.live = true ∧ n < 8 ∧ s.chip.odx.sessions.length = 8 ∧ (s.chip.session n).state = 1) :=
  ⟨⟨(mk (Dictionary.gs.getD 0 r0)), (Sys2Proof.Origin.host), 2, _, 0x0000000000000000#64, 0x00000000#32, (Sys2Proof.Instr.odxCommit (Sys2Proof.Origin.host) 2 0x0000000000000000#64 0x00000000#32), by simp only [Chip.hears]; decide +kernel, by decide +kernel, Or.inl (by decide +kernel), rfl, by decide +kernel⟩,
    ⟨(mk (Dictionary.gs.getD 8 r0)), (Sys2Proof.Origin.host), 2, _, 0x0000000000000000#64, 0x00000000#32, (Sys2Proof.Instr.odxCommit (Sys2Proof.Origin.host) 2 0x0000000000000000#64 0x00000000#32), by simp only [Chip.hears]; decide +kernel, by decide +kernel, Or.inl (by decide +kernel), rfl, by decide +kernel⟩,
    ⟨(mk (Dictionary.gs.getD 1 r0)), (Sys2Proof.Origin.host), 2, _, 0x0000000000001387#64, 0x00000000#32, (Sys2Proof.Instr.odxCommit (Sys2Proof.Origin.host) 2 0x0000000000001387#64 0x00000000#32), by simp only [Chip.hears]; decide +kernel, by decide +kernel, Or.inl (by decide +kernel), rfl, by decide +kernel⟩,
    ⟨(mk (Dictionary.gs.getD 1 r0)), (Sys2Proof.Origin.host), 2, _, 0x0000000000000000#64, 0x00000000#32, (Sys2Proof.Instr.odxCommit (Sys2Proof.Origin.host) 2 0x0000000000000000#64 0x00000000#32), by simp only [Chip.hears]; decide +kernel, by decide +kernel, Or.inl (by decide +kernel), rfl, by decide +kernel⟩,
    ⟨(mk (Dictionary.gs.getD 7 r0)), (Sys2Proof.Origin.host), 2, 0x00000002#32, (Sys2Proof.Instr.odxAbort (Sys2Proof.Origin.host) 2 0x00000002#32), 0, 9, by simp only [Chip.hears]; decide +kernel, by decide +kernel, Or.inl (by decide +kernel), by decide +kernel⟩,
    ⟨(mk (Dictionary.gs.getD 1 r0)), (Sys2Proof.Origin.host), 2, 0x00000000#32, (Sys2Proof.Instr.odxAbort (Sys2Proof.Origin.host) 2 0x00000000#32), by simp only [Chip.hears]; decide +kernel, by decide +kernel, Or.inl (by decide +kernel), by decide +kernel⟩,
    ⟨(mk (Dictionary.gs.getD 1 r0)), 2, by decide +kernel⟩⟩

/-- The premises of `WritesAndFlash` hold together. -/
theorem test_premises_of_WritesAndFlash :
    (∃ (s : State) (o : Origin) (session : Nat) (index : Nat) (sub : Nat) (t : Nat) (value : List Byte) (e : EntryDef), s.chip.hears o ∧
      findEntry index sub = some e ∧ e.kind ≠ 2 ∧ (originPort o ≠ 1 ∧ session = 0x0F ∨ originPort o = 1 ∧
      s.chip.entry 0xA010 (originPath o) = 0xFF) ∧ t = s.chip.tickFrom (s.chip.now + 5000) ∧
      s.chip.entryCheck o index sub value false ≠ St.OK) ∧
    (∃ (s : State) (o : Origin) (session : Nat) (index : Nat) (sub : Nat) (t : Nat) (value : List Byte) (e : EntryDef), s.chip.hears o ∧
      findEntry index sub = some e ∧ e.kind ≠ 2 ∧ (originPort o ≠ 1 ∧ session = 0x0F ∨ originPort o = 1 ∧
      s.chip.entry 0xA010 (originPath o) = 0xFF) ∧ t = s.chip.tickFrom (s.chip.now + 5000) ∧
      s.chip.entryCheck o index sub value false = St.OK ∧ s.chip.odx.implicit.length < 64 ∧
      s.chip.reservedUntil (entryKey index sub) 8 = none ∧ s.chip.projectedOk t [(entryKey index sub, leNat value)] = true) ∧
    (∃ (s : State) (o : Origin) (session : Nat) (index : Nat) (sub : Nat) (t : Nat) (value : List Byte) (e : EntryDef), s.chip.hears o ∧
      findEntry index sub = some e ∧ e.kind ≠ 2 ∧ (originPort o ≠ 1 ∧ session = 0x0F ∨ originPort o = 1 ∧
      s.chip.entry 0xA010 (originPath o) = 0xFF) ∧ t = s.chip.tickFrom (s.chip.now + 5000) ∧
      s.chip.entryCheck o index sub value false = St.OK ∧ s.chip.odx.implicit.length < 64 ∧
      s.chip.reservedUntil (entryKey index sub) 8 = none ∧ s.chip.projectedOk t [(entryKey index sub, leNat value)] = false) ∧
    (∃ (s : State) (o : Origin) (value : List Byte), s.chip.hears o ∧ s.chip.entryCheck o 0xA001 1 value true = St.OK) ∧
    (∃ (s : State) (o : Origin) (value : List Byte), s.chip.hears o ∧ s.chip.entryCheck o 0xA001 1 value true ≠ St.OK) ∧
    (∃ (s : State) (o : Origin) (token : Word) (save : Bool) (sub : Nat) (i : Instr), s.chip.hears o ∧ (i = .odxSave o token ∧
      save = true ∧ sub = 1 ∨ i = .clearImage o token ∧ save = false ∧ sub = 2) ∧
      s.chip.entryCheck o 0xA002 sub [1] true = St.OK ∧ (s.chip.on R.KPR_STATUS_FLASH_OK = false ∨ 5 ∉ s.chip.flash.parts)) ∧
    (∃ (s : State) (o : Origin) (token : Word) (save : Bool) (sub : Nat) (i : Instr), s.chip.hears o ∧ (i = .odxSave o token ∧
      save = true ∧ sub = 1 ∨ i = .clearImage o token ∧ save = false ∧ sub = 2) ∧
      s.chip.entryCheck o 0xA002 sub [1] true = St.OK ∧ s.chip.on R.KPR_STATUS_FLASH_OK = true ∧ 5 ∈ s.chip.flash.parts ∧
      s.chip.odx.saving ≠ none) ∧
    (∃ (s : State) (o : Origin) (token : Word) (save : Bool) (sub : Nat) (i : Instr), s.chip.hears o ∧ (i = .odxSave o token ∧
      save = true ∧ sub = 1 ∨ i = .clearImage o token ∧ save = false ∧ sub = 2) ∧
      s.chip.entryCheck o 0xA002 sub [1] true = St.OK ∧ s.chip.on R.KPR_STATUS_FLASH_OK = true ∧ 5 ∈ s.chip.flash.parts ∧
      s.chip.odx.saving = none) ∧
    (∃ (s : State) (save : Bool), s.chip.live = true ∧ s.chip.odx.saving = some save) ∧
    (∃ (s : State), s.chip.live = true ∧ s.chip.on R.KPR_STATUS_FLASH_OK = true ∧ 6 ∈ s.chip.flash.parts ∧
      s.chip.odx.nextSeq - s.chip.odx.journal.length ≤ s.chip.odx.mirrored + 1) ∧
    (∃ (s : State), s.chip.live = true) ∧
    (∃ (s : State) (seq : Nat), s.chip.live = true ∧ s.chip.odx.tagsDue = some seq ∧ s.chip.on R.KPR_STATUS_FLASH_OK = true ∧
      2 ∈ s.chip.flash.parts) :=
  ⟨⟨(mk (Dictionary.gs.getD 0 r0)), (Sys2Proof.Origin.host), 15, 20480, 7, _, [0x01#8], _, by simp only [Chip.hears]; decide +kernel, ofSome (by decide +kernel), by decide +kernel, by decide +kernel, rfl, by decide +kernel⟩,
    ⟨(mk (Dictionary.gs.getD 0 r0)), (Sys2Proof.Origin.host), 15, 20480, 7, _, [0x01#8, 0x00#8, 0x00#8, 0x00#8], _, by simp only [Chip.hears]; decide +kernel, ofSome (by decide +kernel), by decide +kernel, by decide +kernel, rfl, by decide +kernel⟩,
    ⟨(mk (Dictionary.gs.getD 0 r0)), (Sys2Proof.Origin.host), 15, 20481, 4, _, [0x01#8], _, by simp only [Chip.hears]; decide +kernel, ofSome (by decide +kernel), by decide +kernel, by decide +kernel, rfl, by decide +kernel⟩,
    ⟨(mk (Dictionary.gs.getD 0 r0)), (Sys2Proof.Origin.host), (List.replicate 16 0x07#8), by simp only [Chip.hears]; decide +kernel, by decide +kernel⟩,
    ⟨(mk (Dictionary.gs.getD 0 r0)), (Sys2Proof.Origin.host), [0x01#8], by simp only [Chip.hears]; decide +kernel, by decide +kernel⟩,
    ⟨(mk (Dictionary.gs.getD 0 r0)), (Sys2Proof.Origin.host), 0x00000001#32, true, 1, (Sys2Proof.Instr.odxSave (Sys2Proof.Origin.host) 0x00000001#32), by simp only [Chip.hears]; decide +kernel, by decide +kernel⟩,
    ⟨(mk (Dictionary.gs2.getD 2 r0)), (Sys2Proof.Origin.host), 0x00000001#32, true, 1, (Sys2Proof.Instr.odxSave (Sys2Proof.Origin.host) 0x00000001#32), by simp only [Chip.hears]; decide +kernel, by decide +kernel⟩,
    ⟨(mk (Dictionary.gs2.getD 1 r0)), (Sys2Proof.Origin.host), 0x00000001#32, true, 1, (Sys2Proof.Instr.odxSave (Sys2Proof.Origin.host) 0x00000001#32), by simp only [Chip.hears]; decide +kernel, by decide +kernel⟩,
    ⟨(mk (Dictionary.gs2.getD 2 r0)), _, by decide +kernel, ofSome (by decide +kernel)⟩,
    ⟨(mk (Dictionary.gs2.getD 1 r0)), by decide +kernel⟩,
    ⟨(mk r0), by decide +kernel⟩,
    ⟨(mk (Dictionary.gs2.getD 2 r0)), _, by decide +kernel, ofSome (by decide +kernel), by decide +kernel⟩⟩

/-- The premises of `WeavesStart` hold together. -/
theorem test_premises_of_WeavesStart :
    (∃ (s : State) (n : Nat) (q : Queue) (e : Nat) (a : Nat) (h : Nat), s.chip.awake = true ∧ s.chip.flows ∧
      s.chip.nextSubmitter = some n ∧ s.chip.queue? n = some q ∧ devRegion (q.slot q.consumed) = 0 ∧
      s.chip.readable (devOffset (q.slot q.consumed)) 16 ∧ e = leNat (s.chip.muslin.read (devOffset (q.slot q.consumed)) 16) ∧
      a = bits e 0 40 ∧ a % 64 = 0 ∧ devRegion a = 0 ∧ s.chip.readable (devOffset a) 64 ∧
      h = leNat (s.chip.muslin.read (devOffset a) 64) ∧ Hdr.version h = 1 ∧ 1 ≤ Hdr.count h ∧ Hdr.count h ≤ 65536 ∧
      s.chip.validRange [0, 8] a (64 * (Hdr.count h + 1)) = true) ∧
    (∃ (s : State) (n : Nat) (h : Nat), n < 64 ∧ s.chip.awake = true ∧ s.chip.on R.DSP_LAUNCH_ENABLE n = true ∧
      (∀ k, k < n → s.chip.on R.DSP_LAUNCH_ENABLE k = true → s.chip.gridNext (gridLaunch k) (s.chip.launchRule k) ≠ s.chip.gridNext (gridLaunch n) (s.chip.launchRule n)) ∧
      s.chip.boundNet n = none ∧ s.chip.dsp.weaves.length < 1024 ∧ (∀ w ∈ s.chip.dsp.weaves, ∀ k, w.source ≠ .launch n k) ∧
      devRegion (s.chip.rd R.DSP_LAUNCH_WEAVE_ADDR n) = 0 ∧ s.chip.rd R.DSP_LAUNCH_WEAVE_ADDR n % 64 = 0 ∧
      s.chip.readable (devOffset (s.chip.rd R.DSP_LAUNCH_WEAVE_ADDR n)) 64 ∧
      h = leNat (s.chip.muslin.read (devOffset (s.chip.rd R.DSP_LAUNCH_WEAVE_ADDR n)) 64) ∧ Hdr.version h = 1 ∧
      1 ≤ Hdr.count h ∧ Hdr.count h ≤ 65536 ∧
      s.chip.validRange [0, 8] (s.chip.rd R.DSP_LAUNCH_WEAVE_ADDR n) (64 * (Hdr.count h + 1)) = true) ∧
    (∃ (s : State) (n : Nat), n < 64 ∧ s.chip.awake = true ∧ s.chip.on R.DSP_LAUNCH_ENABLE n = true ∧
      (∀ k, k < n → s.chip.on R.DSP_LAUNCH_ENABLE k = true → s.chip.gridNext (gridLaunch k) (s.chip.launchRule k) ≠ s.chip.gridNext (gridLaunch n) (s.chip.launchRule n)) ∧
      s.chip.boundNet n = none ∧ (1024 ≤ s.chip.dsp.weaves.length ∨ ∃ w ∈ s.chip.dsp.weaves, ∃ k, w.source = .launch n k)) ∧
    (∃ (s : State) (n : Nat) (k : Nat), k < n ∧ n < 64 ∧ s.chip.awake = true ∧ s.chip.on R.DSP_LAUNCH_ENABLE k = true ∧
      s.chip.gridNext (gridLaunch k) (s.chip.launchRule k) = s.chip.gridNext (gridLaunch n) (s.chip.launchRule n)) ∧
    (∃ (s : State) (n : Nat), n < 64 ∧ s.chip.awake = true ∧ s.chip.on R.DSP_LAUNCH_ENABLE n = false) :=
  ⟨⟨(mk (Dispatch.more.getD 0 r0)), _, _, _, _, _, by decide +kernel, by simp only [Chip.flows]; decide +kernel, ofSome (by decide +kernel), ofSome (by decide +kernel), by decide +kernel, by simp only [Chip.readable]; decide +kernel, rfl, rfl, by decide +kernel, by decide +kernel, by simp only [Chip.readable]; decide +kernel, rfl, by decide +kernel⟩,
    ⟨(mk (Dispatch.more.getD 0 r0)), 63, _, by decide +kernel, by decide +kernel, by decide +kernel, (by decide +kernel), by decide +kernel, by decide +kernel, (by
    intro w h
    have e : (mk ((Dispatch.more.getD 0 r0))).chip.dsp.weaves = [] := by decide +kernel
    rw [e] at h; cases h), by decide +kernel, by decide +kernel, by simp only [Chip.readable]; decide +kernel, rfl, by decide +kernel⟩,
    ⟨(mk (Dispatch.more.getD 1 r0)), 63, by decide +kernel, by decide +kernel, by decide +kernel, (by decide +kernel), by decide +kernel, Or.inr ⟨{ id := 3, addr := 8192, weaveId := 77, count := 1, cls := 1, source := .launch 63 0, pair := 2, qfence := false, cancelled := false, descs := [] }, by decide +kernel, 0, rfl⟩⟩,
    ⟨(mk Dispatch.twins), 63, 5, by decide +kernel⟩,
    ⟨(mk (Dispatch.simple.getD 0 r0)), 63, by decide +kernel⟩⟩

/-- The premises of `DescriptorsRun` hold together. -/
theorem test_premises_of_DescriptorsRun :
    (∃ (s : State) (w : Weave) (x : Nat), s.chip.awake = true ∧ s.chip.flows ∧ s.chip.weave? w.id = some w ∧
      s.chip.mayFetch w = true ∧ w.isGolden = false ∧ w.cancelled = false ∧
      devRegion (w.addr + 64 * (w.descs.length + 1)) = 0 ∧
      s.chip.readable (devOffset (w.addr + 64 * (w.descs.length + 1))) 64 ∧
      x = leNat (s.chip.muslin.read (devOffset (w.addr + 64 * (w.descs.length + 1))) 64)) ∧
    (∃ (s : State) (w : Weave), s.chip.awake = true ∧ s.chip.weave? w.id = some w ∧ s.chip.mayFetch w = false) ∧
    (∃ (s : State) (u : Nat) (o : Nat) (t : Nat) (k : Candidate) (w : Weave), u ≤ 26 ∧ s.chip.awake = true ∧
      s.chip.on R.DSP_CTRL_ENABLE = true ∧ s.chip.mirrorNext u = none ∧ s.chip.orphanSolve u = none ∧
      s.chip.bestReady u = some k ∧ s.chip.weave? k.weave = some w ∧ w.st k.index = some (.ready o t) ∧
      s.chip.safetyRefusal w k.raw = St.OK ∧ (Desc.engine k.raw = 7 → s.chip.canvasIn 0 = true) ∧
      (Desc.engine k.raw = 8 → s.chip.canvasIn 1 = true) ∧ s.chip.unitOffline u = false ∧ s.chip.unitFree u = true ∧
      s.chip.suspendedFirst u k.cls = false ∧ s.chip.held u k.cls = false) :=
  ⟨⟨(mk (Dispatch.simple.getD 13 r0)), { id := 3, addr := 8192, weaveId := 77, count := 1, cls := 2, source := Sys2Proof.Machine.WeaveSource.queue 1, pair := 32767, qfence := false, cancelled := false, descs := [] }, _, by decide +kernel, by simp only [Chip.flows]; decide +kernel, by decide +kernel, by decide +kernel, by decide +kernel, (by decide +kernel), by decide +kernel, by simp only [Chip.readable]; decide +kernel, rfl⟩,
    ⟨(mk (Dispatch.simple.getD 1 r0)), { id := 3, addr := 8192, weaveId := 77, count := 1, cls := 2, source := Sys2Proof.Machine.WeaveSource.queue 1, pair := 32767, qfence := false, cancelled := false, descs := [{ raw := 11150032316898390632304395761716748984781313, state := Sys2Proof.Machine.DescState.ready 0 0 }] }, by decide +kernel⟩,
    ⟨(mk (Dispatch.simple.getD 5 r0)), 2, 4, 0, _, _, by decide +kernel, by decide +kernel, by decide +kernel, (by decide +kernel), by decide +kernel, ofSome (by decide +kernel), ofSome (by decide +kernel), by decide +kernel⟩⟩

/-- The premises of `TilesAndOperationsEnd` hold together. -/
theorem test_premises_of_TilesAndOperationsEnd :
    (∃ (s : State) (u : Nat) (ns : Nat) (o : OpRun), s.chip.awake = true ∧ s.chip.flows ∧ s.chip.op? u = some o ∧
      o.tileReady = true ∧ o.mirror = false ∧ s.chip.forcedOut u = false ∧ s.chip.goldenDropped o.weave = false ∧
      s.chip.tileTooLong u ns = false ∧
      (o.finished || (if selfTiled u then o.lastTile else decide (Desc.tileCount o.raw ≤ o.tiles + 1))) = true) ∧
    (∃ (s : State) (u : Nat) (ns : Nat) (o : OpRun), s.chip.awake = true ∧ s.chip.flows ∧ s.chip.op? u = some o ∧
      o.tileReady = true ∧ o.mirror = false ∧ s.chip.forcedOut u = false ∧ s.chip.goldenDropped o.weave = false ∧
      s.chip.tileTooLong u ns = false ∧ s.chip.on R.DSP_CTRL_ENABLE = false ∧ s.chip.sentinel = false ∧
      (o.finished || (if selfTiled u then o.lastTile else decide (Desc.tileCount o.raw ≤ o.tiles + 1))) = false) ∧
    (∃ (s : State) (u : Nat) (ns : Nat) (o : OpRun), s.chip.awake = true ∧ s.chip.flows ∧ s.chip.op? u = some o ∧
      o.tileReady = true ∧ o.mirror = false ∧ s.chip.forcedOut u = false ∧ s.chip.goldenDropped o.weave = false ∧
      s.chip.tileTooLong u ns = false ∧ s.chip.sentinel = true ∧ s.chip.sentinelKeeps u = false ∧
      (o.finished || (if selfTiled u then o.lastTile else decide (Desc.tileCount o.raw ≤ o.tiles + 1))) = false ∧
      devRegion (s.chip.saveSlot u o.cls) = 0 ∧ s.chip.writable (s.chip.saveSlot u o.cls) 8192) ∧
    (∃ (s : State) (u : Nat) (o : OpRun), s.chip.awake = true ∧ s.chip.bestSuspended u = some o ∧ s.chip.unitFree u = true ∧
      s.chip.unitOffline u = false ∧ s.chip.mirrorNext u = none ∧ (∀ k, s.chip.bestReady u = some k → o.cls ≤ k.cls) ∧
      s.chip.held u o.cls = false ∧ devRegion (s.chip.saveSlot u o.cls) = 0 ∧ s.chip.readable (s.chip.saveSlot u o.cls) 8192) ∧
    (∃ (s : State) (u : Nat) (t : Nat), s.chip.awake = true ∧ Table.get? s.chip.dsp.freeAt u = some t ∧
      s.chip.rd R.DSP_CTRL_HOLD_US ≠ 0 ∧ s.chip.op? u = none ∧ s.chip.dsp.holdExpired.contains u = false) ∧
    (∃ (s : State) (u : Nat) (o : OpRun) (w : Weave), s.chip.awake = true ∧ u ≠ 1 ∧ s.chip.op? u = some o ∧ o.finished = true ∧
      o.tileReady = false ∧ o.mirror = false ∧ s.chip.writesWait u = false ∧ s.chip.weave? o.weave = some w ∧
      o.index < w.descs.length) ∧
    (∃ (s : State) (o : OpRun), s.chip.awake = true ∧ s.chip.op? 1 = some o ∧ o.finished = true ∧ o.tileReady = false ∧
      o.mirror = false ∧ s.chip.writesWait 1 = false) :=
  ⟨⟨(mk (Dispatch.simple.getD 6 r0)), 2, 63, _, by decide +kernel, by simp only [Chip.flows]; decide +kernel, ofSome (by decide +kernel), by decide +kernel⟩,
    ⟨(mk (Dispatch.simple.getD 7 r0)), 2, 63, _, by decide +kernel, by simp only [Chip.flows]; decide +kernel, ofSome (by decide +kernel), by decide +kernel⟩,
    ⟨(mk (Dispatch.simple.getD 8 r0)), 2, 63, _, by decide +kernel, by simp only [Chip.flows]; decide +kernel, ofSome (by decide +kernel), by decide +kernel, by decide +kernel, by decide +kernel, (by decide +kernel), by decide +kernel, by decide +kernel, by decide +kernel, (by decide +kernel), by decide +kernel, by unfold Chip.writable Chip.readable; decide +kernel⟩,
    ⟨(mk (Dispatch.simple.getD 9 r0)), 2, _, by decide +kernel, ofSome (by decide +kernel), by decide +kernel, by decide +kernel, by decide +kernel, (by decide +kernel), by decide +kernel, by decide +kernel, by simp only [Chip.readable]; decide +kernel⟩,
    ⟨(mk (Dispatch.simple.getD 10 r0)), 2, _, by decide +kernel, ofSome (by decide +kernel), by decide +kernel⟩,
    ⟨(mk (Dispatch.simple.getD 11 r0)), 2, _, _, by decide +kernel, by decide +kernel, ofSome (by decide +kernel), by decide +kernel, by decide +kernel, by decide +kernel, by decide +kernel, ofSome (by decide +kernel), by decide +kernel⟩,
    ⟨(mk (Dispatch.simple.getD 14 r0)), _, by decide +kernel, ofSome (by decide +kernel), by decide +kernel⟩⟩

/-- The premises of `ControlAndRegisters` hold together. -/
theorem test_premises_of_ControlAndRegisters :
    (∃ (s : State) (w : Weave) (i : Nat) (o : Nat) (t : Nat), s.chip.awake = true ∧ s.chip.on R.DSP_CTRL_ENABLE = true ∧
      s.chip.weave? w.id = some w ∧ w.st i = some (.ready o t) ∧ Desc.engine (w.raw i) = 0xA ∧ Desc.opcode (w.raw i) = 1) ∧
    (∃ (s : State) (w : Weave) (i : Nat) (o : Nat) (t : Nat), s.chip.awake = true ∧ s.chip.on R.DSP_CTRL_ENABLE = true ∧
      s.chip.weave? w.id = some w ∧ w.st i = some (.ready o t) ∧ Desc.engine (w.raw i) = 0xA ∧ Desc.opcode (w.raw i) = 3 ∧
      Desc.postSig (w.raw i) ≠ bits (w.raw i) 256 8 ∧ bits (w.raw i) 256 8 ≠ 0) ∧
    (∃ (s : State) (w : Weave) (i : Nat) (o : Nat) (t : Nat), s.chip.awake = true ∧ s.chip.on R.DSP_CTRL_ENABLE = true ∧
      s.chip.weave? w.id = some w ∧ w.st i = some (.ready o t) ∧ Desc.engine (w.raw i) = 0xA ∧ Desc.opcode (w.raw i) = 2) ∧
    (∃ (s : State) (w : Weave) (i : Nat), s.chip.awake = true ∧ s.chip.weave? w.id = some w ∧ w.st i = some .timed) ∧
    (∃ (s : State), s.chip.heard = true) ∧
    (∃ (s : State), s.chip.heard = true ∧ s.chip.dsp.handles) ∧
    (∃ (s : State) (on : Bool), s.chip.heard = true ∧ (on = true → 11 ≤ s.chip.rd R.BUP_STATUS_LAST_PASSED)) ∧
    (∃ (s : State), s.chip.heard = true ∧ s.chip.rd R.BUP_STATUS_LAST_PASSED < 11) :=
  ⟨⟨(mk (Dispatch.simple.getD 1 r0)), { id := 3, addr := 8192, weaveId := 77, count := 1, cls := 2, source := Sys2Proof.Machine.WeaveSource.queue 1, pair := 32767, qfence := false, cancelled := false, descs := [{ raw := 11150032316898390632304395761716748984781313, state := Sys2Proof.Machine.DescState.ready 0 0 }] }, 0, 0, 0, by decide +kernel⟩,
    ⟨(mk (Dispatch.simple.getD 2 r0)), { id := 3, addr := 8192, weaveId := 77, count := 1, cls := 2, source := Sys2Proof.Machine.WeaveSource.queue 1, pair := 32767, qfence := false, cancelled := false, descs := [{ raw := 49235000405147838019569423543653118094988598479353806266832527164924473885997118810753539, state := Sys2Proof.Machine.DescState.ready 7 0 }] }, 0, 7, 0, by decide +kernel⟩,
    ⟨(mk (Dispatch.simple.getD 3 r0)), { id := 3, addr := 8192, weaveId := 77, count := 1, cls := 2, source := Sys2Proof.Machine.WeaveSource.queue 1, pair := 32767, qfence := false, cancelled := false, descs := [{ raw := 115792089237316195423570985008687907864420016982538954671761979769629878624717314, state := Sys2Proof.Machine.DescState.ready 7 0 }] }, 0, 7, 0, by decide +kernel⟩,
    ⟨(mk (Dispatch.simple.getD 4 r0)), { id := 3, addr := 8192, weaveId := 77, count := 1, cls := 2, source := Sys2Proof.Machine.WeaveSource.queue 1, pair := 32767, qfence := false, cancelled := false, descs := [{ raw := 115792089237316195423570985008687907864420016982538954671761979769629878624717314, state := Sys2Proof.Machine.DescState.timed }] }, 0, by decide +kernel⟩,
    ⟨(mk (Dispatch.simple.getD 0 r0)), by decide +kernel⟩,
    ⟨(mk (Dispatch.simple.getD 0 r0)), by decide +kernel, by unfold Dsp.handles; decide +kernel⟩,
    ⟨(mk (Dispatch.simple.getD 0 r0)), true, by decide +kernel⟩,
    ⟨(mk (Dispatch.simple.getD 12 r0)), by decide +kernel⟩⟩

/-- `TilesRun`: each kind of operation waits for its tile; of those checked when they begin, one that fails its check waits too. -/
theorem test_premises_of_TilesRun :
    (∀ p ∈ tileKinds, (tileChip p.1 (tileOp p)).awaitsTile p.1 (tileOp p) p.2.1 p.2.2 ∧ (tileOp p).begun = true) ∧
    (∀ p ∈ tileChecks, (tileChip p.1.1 { tileOp p.1 with begun := false }).awaitsTile p.1.1 { tileOp p.1 with begun := false }
        p.1.2.1 p.1.2.2 ∧
      p.2 (tileChip p.1.1 { tileOp p.1 with begun := false }).untouched { tileOp p.1 with begun := false } ≠ St.OK) ∧
    (∃ port : Nat, port < 2) ∧ (∃ k : Nat, k < 2) :=
  ⟨by simp only [Chip.awaitsTile]; decide +kernel, by simp only [Chip.awaitsTile]; decide +kernel, ⟨1, by decide⟩, ⟨1, by decide⟩⟩

/-- The premises of `MuslinReadsAndPorts` hold together. -/
theorem test_premises_of_MuslinReadsAndPorts :
    (∃ (s : State) (a : Nat) (n : Nat), s.chip.awake = true ∧ s.chip.muslinRange a n = true ∧ s.chip.readable (devOffset a) n) ∧
    (∃ (s : State) (a : Nat) (n : Nat) (unit : Nat) (w : Nat), s.chip.awake = true ∧ s.chip.muslinRange a n = true ∧
      s.chip.readable (devOffset a) n ∧ devOffset a % 128 + n ≤ 128 ∧ w ∈ wordsOf (devOffset a) n ∧ s.chip.plainOn unit) ∧
    (∃ (s : State) (a : Nat) (n : Nat) (unit : Nat) (w : Nat) (o : _) (found : _) (net : List (Nat × Bool)), s.chip.awake = true ∧
      s.chip.muslinRange a n = true ∧ s.chip.readable (devOffset a) n ∧ devOffset a % 128 + n ≤ 128 ∧
      w ∈ wordsOf (devOffset a) n ∧ s.chip.op? unit = some o ∧ (found, net) ∈ [([(w, true)], []), ([], [(w, true)])]) ∧
    (∃ (s : State) (a : Nat) (n : Nat) (w : Nat), s.chip.awake = true ∧ s.chip.muslinRange a n = true ∧
      s.chip.readable (devOffset a) n ∧ devOffset a % 128 + n ≤ 128 ∧ w ∈ wordsOf (devOffset a) n) ∧
    (∃ (s : State) (mask : Word) (off : Nat) (old : Nat) (i : _), s.chip.heard = true ∧ off = s.chip.rd R.MSL_HATOM_ADDR_WORD * 4 ∧
      s.chip.writable off 4 ∧ old = leNat (s.chip.muslin.read off 4) ∧ (i = Instr.hatomSet mask .uncorrectable ∨
      i = .hatomClr mask .uncorrectable)) ∧
    (∃ (s : State) (off : Nat) (old : Nat), s.chip.heard = true ∧ off = s.chip.rd R.MSL_HATOM_ADDR_WORD * 4 ∧
      s.chip.writable off 4 ∧ old = leNat (s.chip.muslin.read off 4)) ∧
    (∃ (s : State) (a : Nat) (n : Nat), s.chip.heard = true ∧ a + n ≤ muslinSize ∧ s.chip.readable a n) ∧
    (∃ (s : State) (a : Nat) (n : Nat), s.chip.heard = true ∧ a + n ≤ muslinSize ∧ 0 < n ∧ a % 128 + n ≤ 128 ∧
      ((s.chip.group (groupOf a)).phase = .active ∨ (s.chip.group (groupOf a)).phase = .off) ∧ s.chip.linesServe a n = false) :=
  ⟨⟨(mk (Muslin.gs.getD 0 r0)), 7, 7, by decide +kernel, by decide +kernel, by simp only [Chip.readable]; decide +kernel⟩,
    ⟨(mk (Muslin.gs.getD 0 r0)), 4096, 8, 9, 512, by decide +kernel, by decide +kernel, by simp only [Chip.readable]; decide +kernel, by decide +kernel, by decide +kernel, plain_none (by decide +kernel)⟩,
    ⟨(mk (Muslin.gs.getD 0 r0)), 4096, 8, 5, 512, _, [(512, true)], [], by decide +kernel, by decide +kernel, by simp only [Chip.readable]; decide +kernel, by decide +kernel, by decide +kernel, ofSome (by decide +kernel), by decide +kernel⟩,
    ⟨(mk (Muslin.gs.getD 0 r0)), 4096, 8, 512, by decide +kernel, by decide +kernel, by simp only [Chip.readable]; decide +kernel, by decide +kernel, by decide +kernel⟩,
    ⟨(mk (Muslin.gs.getD 0 r0)), 3, _, _, (.hatomSet 3 .uncorrectable), by decide +kernel, rfl, by unfold Chip.writable Chip.readable; decide +kernel, rfl, Or.inl rfl⟩,
    ⟨(mk (Muslin.gs.getD 0 r0)), _, _, by decide +kernel, rfl, by unfold Chip.writable Chip.readable; decide +kernel, rfl⟩,
    ⟨(mk (Muslin.gs.getD 0 r0)), 7, 7, by decide +kernel, by decide +kernel, by simp only [Chip.readable]; decide +kernel⟩,
    ⟨(mk (Muslin.gs.getD 5 r0)), 7, 7, by decide +kernel⟩⟩

/-- The premises of `MuslinWrites` hold together. -/
theorem test_premises_of_MuslinWrites :
    (∃ (s : State) (a : Nat) (data : List Byte), s.chip.awake = true ∧ s.chip.muslinRange a data.length = true ∧
      s.chip.writable (devOffset a) data.length ∧ devRegion a = 0 ∧ s.chip.heard = true) ∧
    (∃ (s : State) (a : Nat) (data : List Byte), s.chip.awake = true ∧ s.chip.muslinRange a data.length = true ∧
      s.chip.writable (devOffset a) data.length) ∧
    (∃ (s : State) (a : Nat) (unit : Nat) (off : Nat) (data : List Byte) (i : _), s.chip.awake = true ∧
      s.chip.muslinRange a data.length = true ∧ data ≠ [] ∧ off = devOffset a ∧ off % 128 + data.length ≤ 128 ∧
      s.chip.groupActive (groupOf off) = true ∧ s.chip.linesServe off data.length = true ∧
      (i = Instr.muslinWrite a unit data [] ∨ i = .bitSetWrite a unit data [] ∨ i = .bitClearWrite a unit data []) ∧
      s.chip.protectedAt off = true) ∧
    (∃ (s : State) (a : Nat) (unit : Nat) (off : Nat) (data : List Byte) (i : _) (w : _), s.chip.awake = true ∧
      s.chip.muslinRange a data.length = true ∧ data ≠ [] ∧ off = devOffset a ∧ off % 128 + data.length ≤ 128 ∧
      s.chip.groupActive (groupOf off) = true ∧ s.chip.linesServe off data.length = true ∧
      (i = Instr.muslinWrite a unit data [] ∨ i = .bitSetWrite a unit data [] ∨ i = .bitClearWrite a unit data []) ∧
      s.chip.protectedAt off = false ∧ data.length < 8 ∧ off / 8 = w ∧ off % 8 + data.length ≤ 8 ∧
      s.chip.msl.poisoned.count w = 1) ∧
    (∃ (s : State) (a : Nat) (off : Nat) (data : List Byte), s.chip.awake = true ∧ s.chip.muslinRange a data.length = true ∧
      data ≠ [] ∧ off = devOffset a ∧ off % 128 + data.length ≤ 128 ∧ s.chip.groupActive (groupOf off) = true ∧
      s.chip.linesServe off data.length = true ∧ s.chip.protectedAt off = false ∧ data.length = 8 ∧ off % 8 = 0 ∧
      devRegion a = 0) ∧
    (∃ (s : State) (a : Nat) (unit : Nat) (off : Nat) (data : List Byte) (net : List (Nat × Bool)) (i : _), s.chip.awake = true ∧
      s.chip.muslinRange a data.length = true ∧ data ≠ [] ∧ off = devOffset a ∧ off % 128 + data.length ≤ 128 ∧
      s.chip.groupActive (groupOf off) = true ∧ s.chip.linesServe off data.length = true ∧ off % 8 + data.length ≤ 8 ∧
      (off / 8, true) ∈ net ∧ (i = Instr.muslinWrite a unit data net ∨ i = .bitSetWrite a unit data net ∨
      i = .bitClearWrite a unit data net)) :=
  ⟨⟨(mk (Muslin.gs.getD 0 r0)), 7, [1], by decide +kernel, by decide +kernel, by unfold Chip.writable Chip.readable; decide +kernel, by decide +kernel, by decide +kernel⟩,
    ⟨(mk (Muslin.gs.getD 0 r0)), 7, [1], by decide +kernel, by decide +kernel, by unfold Chip.writable Chip.readable; decide +kernel⟩,
    ⟨(mk (Muslin.gs.getD 12 r0)), 4096, 0, _, [1], (.muslinWrite 4096 0 [1] []), by decide +kernel, by decide +kernel, by decide +kernel, rfl, by decide +kernel, by decide +kernel, by decide +kernel, Or.inl rfl, by decide +kernel⟩,
    ⟨(mk (Muslin.gs.getD 1 r0)), 4096, 0, _, [1], (.muslinWrite 4096 0 [1] []), _, by decide +kernel, by decide +kernel, by decide +kernel, rfl, by decide +kernel, by decide +kernel, by decide +kernel, Or.inl rfl, by decide +kernel, by decide +kernel, rfl, by decide +kernel⟩,
    ⟨(mk (Muslin.gs.getD 0 r0)), 200, _, (List.replicate 8 0xA5), by decide +kernel, by decide +kernel, by decide +kernel, rfl, by decide +kernel⟩,
    ⟨(mk (Muslin.gs.getD 0 r0)), 4096, 5, _, [0xA5], [(512, true)], (.bitSetWrite 4096 5 [0xA5] [(512, true)]), by decide +kernel, by decide +kernel, by decide +kernel, rfl, by decide +kernel, by decide +kernel, by decide +kernel, (by decide +kernel), by decide +kernel, Or.inr (Or.inl rfl)⟩⟩

/-- The premises of `MuslinRetentionAndScrub` hold together. -/
theorem test_premises_of_MuslinRetentionAndScrub :
    (∃ (s : State) (g : Nat), g < 8 ∧ s.chip.awake = true ∧ s.chip.sentinel = false ∧
      (s.chip.rd R.MSL_RET_CTRL_RET_ALLOW).testBit g = true ∧ s.chip.groupActive g = true ∧ s.chip.underTest g = false ∧
      s.chip.msl.groups.length = 8) ∧
    (∃ (s : State) (g : Nat) (t : Nat), g < 8 ∧ s.chip.awake = true ∧ (s.chip.group g).phase = .entering t ∧
      s.chip.msl.groups.length = 8) ∧
    (∃ (s : State) (g : Nat), s.chip.awake = true ∧ s.chip.groupActive g = true ∧ (s.chip.underTest g = true ∨ g = 0 ∧
      s.chip.sentinel = true)) ∧
    (∃ (s : State) (a : Nat) (data : List Byte) (g : Nat), s.chip.awake = true ∧ s.chip.muslinRange a data.length = true ∧
      data ≠ [] ∧ devOffset a % 128 + data.length ≤ 128 ∧ g = groupOf (devOffset a) ∧ (s.chip.group g).phase = .retention ∧
      s.chip.isolated.contains (18 + bankOf (devOffset a) / 4) = false ∧ s.chip.msl.groups.length = 8) ∧
    (∃ (s : State) (g : Nat) (t : Nat), g < 8 ∧ s.chip.awake = true ∧ ((s.chip.group g).phase = .leaving t ∨
      (s.chip.group g).phase = .retention ∧ t = s.chip.now) ∧ s.chip.msl.groups.length = 8) ∧
    (∃ (s : State) (g : Nat) (t : Nat), g < 8 ∧ s.chip.awake = true ∧ (s.chip.group g).phase = .filling t ∧
      s.chip.msl.groups.length = 8) ∧
    (∃ (s : State), s.chip.awake = true) ∧
    (∃ (s : State), s.chip.awake = true ∧ s.chip.on R.MSL_CTRL_SCRUB_EN = true ∧ s.chip.msl.groups.length = 8) ∧
    (∃ (s : State) (g : Nat) (t : Nat), s.chip.awake = true ∧ s.chip.on R.MSL_CTRL_SCRUB_EN = true ∧ g < 8 ∧
      s.chip.msl.groups.length = 8 ∧ s.chip.groupActive g = true ∧ (s.chip.group g).fastPass = some t) ∧
    (∃ (s : State) (w : Nat), s.chip.awake = true ∧ s.chip.on R.MSL_CTRL_SCRUB_EN = true ∧ s.chip.msl.groups.length = 8 ∧
      groupOf (8 * w) < 8 ∧ s.chip.groupActive (groupOf (8 * w)) = true ∧ (s.chip.group (groupOf (8 * w))).fastPass = none ∧
      lineOf (8 * w) = (s.chip.group (groupOf (8 * w))).scrubLine ∧ s.chip.msl.poisoned = []) ∧
    (∃ (s : State), s.chip.awake = true ∧ s.chip.on R.MSL_CTRL_SCRUB_EN = false) :=
  ⟨⟨(mk (Muslin.gs.getD 14 r0)), 7, by decide +kernel⟩,
    ⟨(mk (Muslin.gph Muslin.M0 0 (.entering 300))), 0, 300, by decide +kernel⟩,
    ⟨(mk (Muslin.gs.getD 19 r0)), 0, by decide +kernel⟩,
    ⟨(mk (Muslin.gs.getD 4 r0)), 7, [1], _, by decide +kernel, by decide +kernel, by decide +kernel, by decide +kernel, rfl, by decide +kernel⟩,
    ⟨(mk (Muslin.gs.getD 7 r0)), 0, 100, by decide +kernel⟩,
    ⟨(mk (Muslin.gs.getD 8 r0)), 0, 200, by decide +kernel⟩,
    ⟨(mk (Muslin.gs.getD 0 r0)), by decide +kernel⟩,
    ⟨(mk (Muslin.gs.getD 0 r0)), by decide +kernel⟩,
    ⟨(mk Muslin.fast), 0, 500, by decide +kernel⟩,
    ⟨(mk (Muslin.gs.getD 0 r0)), 0, by decide +kernel⟩,
    ⟨(mk (Muslin.more.getD 0 r0)), by decide +kernel⟩⟩

/-- The premises of `MuslinTestAndRepair` hold together. -/
theorem test_premises_of_MuslinTestAndRepair :
    (∃ (s : State) (r : Nat) (w : Nat), s.chip.awake = true ∧ s.chip.on R.MSL_CTRL_BT_EN = true ∧ s.chip.msl.btRegion = none ∧
      s.chip.on R.MSL_BT_STATUS_LIST_FULL = false ∧ s.chip.nextRegion 65544 s.chip.msl.btNext = some r ∧
      s.chip.poisonedIn (4096 * r) 4096 = none ∧ w ∈ wordsOf (4096 * r) 4096) ∧
    (∃ (s : State) (r : Nat), s.chip.awake = true ∧ s.chip.on R.MSL_CTRL_BT_EN = true ∧ s.chip.msl.btRegion = none ∧
      s.chip.on R.MSL_BT_STATUS_LIST_FULL = false ∧ s.chip.nextRegion 65544 s.chip.msl.btNext = some r ∧
      s.chip.poisonedIn (4096 * r) 4096 = none) ∧
    (∃ (s : State) (r : Nat), s.chip.awake = true ∧ s.chip.on R.MSL_CTRL_BT_EN = true ∧ s.chip.msl.btRegion = none ∧
      s.chip.on R.MSL_BT_STATUS_LIST_FULL = false ∧ s.chip.nextRegion 65544 s.chip.msl.btNext = none ∧ s.chip.msl.btNext ≠ 0 ∧
      s.chip.nextRegion 65544 0 = some r ∧ s.chip.poisonedIn (4096 * r) 4096 = none) ∧
    (∃ (s : State), s.chip.awake = true ∧ (s.chip.on R.MSL_CTRL_BT_EN = false ∨ s.chip.msl.btRegion ≠ none ∨
      s.chip.on R.MSL_BT_STATUS_LIST_FULL = true)) ∧
    (∃ (s : State) (r : Nat), s.chip.awake = true ∧ s.chip.msl.btRegion = some r ∧ s.chip.nextRegion 65544 (r + 1) ≠ none) ∧
    (∃ (s : State) (r : Nat), s.chip.awake = true ∧ s.chip.msl.btRegion = some r ∧ s.chip.nextRegion 65544 (r + 1) = none) ∧
    (∃ (s : State) (r : Nat) (b : _) (k : _) (p : _) (u : _) (col : _) (x : _), s.chip.awake = true ∧
      s.chip.msl.btRegion = some r ∧ r < 65536 ∧ b < 8 ∧ k < 4 ∧ p < 1152 ∧ u = (storedAt (regionLine r k) p).1 ∧
      col = (storedAt (regionLine r k) p).2.2 ∧ s.chip.on R.MSL_CTRL_BT_AUTO_REPAIR = true ∧
      s.chip.on R.MSL_BT_STATUS_LOG_FULL = false ∧ s.chip.freeSpare (8 * (r / 8192) + b) u = some x ∧ s.chip.msl.sweep = none) ∧
    (∃ (s : State) (r : Nat) (b : _) (k : _) (p : _) (u : _) (col : _), s.chip.awake = true ∧ s.chip.msl.btRegion = some r ∧
      r < 65536 ∧ b < 8 ∧ k < 4 ∧ p < 1152 ∧ u = (storedAt (regionLine r k) p).1 ∧ col = (storedAt (regionLine r k) p).2.2 ∧
      (s.chip.on R.MSL_CTRL_BT_AUTO_REPAIR = false ∨ s.chip.on R.MSL_BT_STATUS_LOG_FULL = true ∨
      s.chip.freeSpare (8 * (r / 8192) + b) u = none) ∧ (∃ n, n < 64 ∧ s.chip.on R.MSL_DEGRADED_VALID n = false)) ∧
    (∃ (s : State) (r : Nat) (bad : List (Nat × Nat × Nat)), s.chip.awake = true ∧ s.chip.msl.btRegion = some r ∧ r < 65536 ∧
      columnFailure r bad.eraseDups = false ∧ (∃ n, n < 64 ∧ s.chip.on R.MSL_DEGRADED_VALID n = false)) ∧
    (∃ (s : State) (r : ColRepair) (n : Nat) (w : _), s.chip.awake = true ∧ s.chip.msl.sweep = some r ∧ r.host = false ∧
      (List.range 64).find? (fun k => !s.chip.on R.MSL_SOFT_REPAIR_VALID k) = some n ∧
      s.chip.msl.poisoned.filter r.covers = [] ∧ r.covers w = true ∧ s.chip.msl.poisoned = []) ∧
    (∃ (s : State) (r : ColRepair) (n : Nat), s.chip.awake = true ∧ s.chip.msl.sweep = some r ∧ r.host = false ∧
      (List.range 64).find? (fun k => !s.chip.on R.MSL_SOFT_REPAIR_VALID k) = some n ∧
      s.chip.msl.poisoned.filter r.covers = []) ∧
    (∃ (s : State) (lo : Nat) (r : ColRepair), s.chip.heard = true ∧ lo = s.chip.rd R.MSL_REPAIR_APPLY_LO_RECORD_LO ∧
      r = ⟨bits lo 0 6, bits lo 6 6, bits lo 12 10, bits lo 22 3, bits lo 25 2, true⟩ ∧ s.chip.msl.sweep ≠ none) ∧
    (∃ (s : State) (lo : Nat) (r : ColRepair), s.chip.heard = true ∧ lo = s.chip.rd R.MSL_REPAIR_APPLY_LO_RECORD_LO ∧
      r = ⟨bits lo 0 6, bits lo 6 6, bits lo 12 10, bits lo 22 3, bits lo 25 2, true⟩ ∧ s.chip.msl.sweep = none ∧
      (36 ≤ r.sub ∨ r.kind = 3 ∨ lo.testBit 31 = false)) ∧
    (∃ (s : State) (lo : Nat) (r : ColRepair), s.chip.heard = true ∧ lo = s.chip.rd R.MSL_REPAIR_APPLY_LO_RECORD_LO ∧
      r = ⟨bits lo 0 6, bits lo 6 6, bits lo 12 10, bits lo 22 3, bits lo 25 2, true⟩ ∧ s.chip.msl.sweep = none ∧ r.sub < 36 ∧
      r.kind ≠ 3 ∧ lo.testBit 31 = true ∧ ((∃ q ∈ s.chip.msl.repairs, q.bank = r.bank ∧ q.sub = r.sub ∧ q.spare = r.spare) ∨
      s.chip.on R.MSL_BT_STATUS_LOG_FULL = true)) ∧
    (∃ (s : State) (lo : Nat) (r : ColRepair), s.chip.heard = true ∧ lo = s.chip.rd R.MSL_REPAIR_APPLY_LO_RECORD_LO ∧
      r = ⟨bits lo 0 6, bits lo 6 6, bits lo 12 10, bits lo 22 3, bits lo 25 2, true⟩ ∧ s.chip.msl.sweep = none ∧ r.sub < 36 ∧
      r.kind ≠ 3 ∧ lo.testBit 31 = true ∧ (∀ q ∈ s.chip.msl.repairs, q.bank ≠ r.bank ∨ q.sub ≠ r.sub ∨ q.spare ≠ r.spare) ∧
      s.chip.on R.MSL_BT_STATUS_LOG_FULL = false) :=
  ⟨⟨(mk (MuslinTest.gs.getD 1 r0)), _, 0, by decide +kernel, by decide +kernel, by decide +kernel, by decide +kernel, ofSome (by decide +kernel), by decide +kernel, by decide +kernel⟩,
    ⟨(mk (MuslinTest.gs.getD 1 r0)), _, by decide +kernel, by decide +kernel, by decide +kernel, by decide +kernel, ofSome (by decide +kernel), by decide +kernel⟩,
    ⟨(mk ((MuslinTest.ml MuslinTest.B0 (fun m => {m with btNext := 65535})).wr R.MSL_BT_CTRL_EXCLUDE 0x80)), _, by decide +kernel, by decide +kernel, by decide +kernel, (by decide +kernel), by decide +kernel, by decide +kernel, ofSome (by decide +kernel), by decide +kernel⟩,
    ⟨(mk (MuslinTest.gs.getD 6 r0)), by decide +kernel⟩,
    ⟨(mk (MuslinTest.gs.getD 6 r0)), _, by decide +kernel, ofSome (by decide +kernel), by decide +kernel⟩,
    ⟨(mk (MuslinTest.gs.getD 8 r0)), _, by decide +kernel, ofSome (by decide +kernel), by decide +kernel⟩,
    ⟨(mk (MuslinTest.gs.getD 6 r0)), _, 7, 3, 1151, _, _, _, by decide +kernel, ofSome (by decide +kernel), by decide +kernel, by decide +kernel, by decide +kernel, by decide +kernel, rfl, rfl, by decide +kernel, by decide +kernel, ofSome (by decide +kernel), by decide +kernel⟩,
    ⟨(mk (MuslinTest.gs.getD 7 r0)), _, 7, 3, 1151, _, _, by decide +kernel, ofSome (by decide +kernel), by decide +kernel, by decide +kernel, by decide +kernel, by decide +kernel, rfl, rfl, by decide +kernel, by decide +kernel⟩,
    ⟨(mk (MuslinTest.gs.getD 6 r0)), _, [(0, 0, 0), (0, 0, 1), (0, 0, 2)], by decide +kernel, ofSome (by decide +kernel), by decide +kernel⟩,
    ⟨(mk (MuslinTest.gs.getD 11 r0)), _, _, 33554431, by decide +kernel, ofSome (by decide +kernel), by decide +kernel, ofSome (by decide +kernel), by decide +kernel⟩,
    ⟨(mk (MuslinTest.gs.getD 11 r0)), _, _, by decide +kernel, ofSome (by decide +kernel), by decide +kernel, ofSome (by decide +kernel), by decide +kernel⟩,
    ⟨(mk (MuslinTest.gs.getD 11 r0)), _, _, by decide +kernel, rfl, rfl, by decide +kernel⟩,
    ⟨(mk (MuslinTest.gs.getD 0 r0)), _, _, by decide +kernel, rfl, rfl, by decide +kernel⟩,
    ⟨(mk (MuslinTest.gs.getD 17 r0)), _, _, by decide +kernel, rfl, rfl, by decide +kernel⟩,
    ⟨(mk (MuslinTest.gs.getD 16 r0)), _, _, by decide +kernel, rfl, rfl, by decide +kernel⟩⟩

/-- The premises of `SpareColumns` hold together. -/
theorem test_premises_of_SpareColumns :
    (∃ (s : State) (column : BitVec 8) (g : Nat), s.chip.heard = true ∧ g = column.toNat / 32 ∧
      (s.chip.on R.DMK_STATUS_SWAP_PENDING || s.chip.on R.DMK_STATUS_SWAP_ACTIVE) = true) ∧
    (∃ (s : State) (column : BitVec 8) (g : Nat), s.chip.heard = true ∧ g = column.toNat / 32 ∧
      s.chip.on R.DMK_STATUS_SWAP_PENDING = false ∧ s.chip.on R.DMK_STATUS_SWAP_ACTIVE = false ∧
      s.chip.on R.DMK_SPARE_MAP_IN_USE g = true ∧ s.chip.rd R.DMK_SPARE_MAP_REPLACED g = column.toNat % 32) ∧
    (∃ (s : State) (column : BitVec 8) (g : Nat), s.chip.heard = true ∧ g = column.toNat / 32 ∧
      s.chip.on R.DMK_STATUS_SWAP_PENDING = false ∧ s.chip.on R.DMK_STATUS_SWAP_ACTIVE = false ∧
      s.chip.on R.DMK_SPARE_MAP_IN_USE g = true ∧ s.chip.rd R.DMK_SPARE_MAP_REPLACED g ≠ column.toNat % 32) ∧
    (∃ (s : State) (column : BitVec 8) (g : Nat), s.chip.heard = true ∧ g = column.toNat / 32 ∧
      s.chip.on R.DMK_STATUS_SWAP_PENDING = false ∧ s.chip.on R.DMK_STATUS_SWAP_ACTIVE = false ∧
      s.chip.on R.DMK_SPARE_MAP_IN_USE g = false ∧ s.chip.on R.DMK_SPARE_MAP_SPARE_BAD g = true) ∧
    (∃ (s : State) (column : BitVec 8) (g : Nat), s.chip.heard = true ∧ g = column.toNat / 32 ∧
      s.chip.on R.DMK_STATUS_SWAP_PENDING = false ∧ s.chip.on R.DMK_STATUS_SWAP_ACTIVE = false ∧
      s.chip.on R.DMK_SPARE_MAP_IN_USE g = false ∧ s.chip.on R.DMK_SPARE_MAP_SPARE_BAD g = false) ∧
    (∃ (s : State), s.chip.awake = true ∧ s.chip.on R.DMK_STATUS_SWAP_PENDING = true ∧ s.chip.damaskQuiet = true ∧
      s.chip.readyFor (· == 0) = []) ∧
    (∃ (s : State), s.chip.awake = true ∧ s.chip.on R.DMK_STATUS_SWAP_PENDING = true ∧ s.chip.damaskQuiet = false) ∧
    (∃ (s : State), s.chip.awake = true ∧ s.chip.on R.DMK_STATUS_SWAP_PENDING = true ∧ s.chip.damaskQuiet = true) ∧
    (∃ (s : State) (n : Nat) (c : Nat), n < 32 ∧ s.chip.awake = true ∧ s.chip.on R.DMK_STATUS_SWAP_ACTIVE = true ∧
      c = s.chip.dmk.swapColumn ∧ c < 256 ∧ s.chip.on R.DMK_PIN_VALID n = true ∧ s.chip.rd R.DMK_PIN_GROUP_FIRST n ≤ c / 32 ∧
      c / 32 ≤ s.chip.rd R.DMK_PIN_GROUP_LAST n) ∧
    (∃ (s : State) (c : Nat), s.chip.awake = true ∧ s.chip.on R.DMK_STATUS_SWAP_ACTIVE = true ∧ c = s.chip.dmk.swapColumn ∧ c < 256) :=
  ⟨⟨(mk (Damask.gs.getD 4 r0)), 0xff#8, _, by decide +kernel, rfl, by decide +kernel⟩,
    ⟨(mk (Damask.gs.getD 1 r0)), 0x00#8, _, by decide +kernel, rfl, by decide +kernel⟩,
    ⟨(mk (Damask.gs.getD 1 r0)), 0x1f#8, _, by decide +kernel, rfl, by decide +kernel⟩,
    ⟨(mk (Damask.gs.getD 3 r0)), 0x40#8, _, by decide +kernel, rfl, by decide +kernel⟩,
    ⟨(mk (Damask.gs.getD 0 r0)), 0xff#8, _, by decide +kernel, rfl, by decide +kernel⟩,
    ⟨(mk (Damask.gs.getD 4 r0)), by decide +kernel⟩,
    ⟨(mk (Damask.gs.getD 5 r0)), by decide +kernel⟩,
    ⟨(mk (Damask.gs.getD 4 r0)), by decide +kernel⟩,
    ⟨(mk (((Damask.gs.getD 6 r0).wr R.DMK_PIN_VALID 1 31).wr R.DMK_PIN_GROUP_LAST 7 31)), 31, _, by decide +kernel, by decide +kernel,
      by decide +kernel, rfl, by decide +kernel, by decide +kernel, by decide +kernel, by decide +kernel⟩,
    ⟨(mk (Damask.gs.getD 6 r0)), _, by decide +kernel, by decide +kernel, rfl, by decide +kernel⟩⟩

/-- The premises of `AtuCommands` hold together. -/
theorem test_premises_of_AtuCommands :
    (∃ (s : State) (seq : Nat) (n : Nat) (q : Nat) (v : Nat) (i : _), s.chip.heard = true ∧
      s.chip.on R.ATU_CMD_STATUS_BUSY = false ∧ n = seq % 2048 ∧ q = s.chip.seq n ∧
      v = seqMask ((List.range 16).foldl (fun a k => a + (s.chip.atuData k <<< (32 * k))) 0) ∧ Seq.lock q = true ∧
      (i = Instr.kvWrite seq ∨ i = .kvSwap seq ∨ i = .kvInvalidate seq ∨ i = .kvClearHeld seq)) ∧
    (∃ (s : State) (seq : Nat) (n : Nat) (q : Nat) (v : Nat), s.chip.heard = true ∧ s.chip.on R.ATU_CMD_STATUS_BUSY = false ∧
      n = seq % 2048 ∧ q = s.chip.seq n ∧
      v = seqMask ((List.range 16).foldl (fun a k => a + (s.chip.atuData k <<< (32 * k))) 0) ∧ Seq.lock q = false ∧
      Seq.valid v = true ∧
      (s.chip.kvAddrOk (Seq.listAddr v) 64 && s.chip.kvAddrOk (Seq.stateAddr v) 64 && s.chip.kvAddrOk (Seq.stageAddr v) s.chip.frameSize) = false) ∧
    (∃ (s : State) (seq : Nat) (n : Nat) (q : Nat) (v : Nat), s.chip.heard = true ∧ s.chip.on R.ATU_CMD_STATUS_BUSY = false ∧
      n = seq % 2048 ∧ q = s.chip.seq n ∧
      v = seqMask ((List.range 16).foldl (fun a k => a + (s.chip.atuData k <<< (32 * k))) 0) ∧ Seq.lock q = false ∧
      (Seq.valid v = false ∨
      (s.chip.kvAddrOk (Seq.listAddr v) 64 && s.chip.kvAddrOk (Seq.stateAddr v) 64 && s.chip.kvAddrOk (Seq.stageAddr v) s.chip.frameSize) = true)) ∧
    (∃ (s : State) (seq : Nat) (n : Nat) (q : Nat) (v : Nat), s.chip.heard = true ∧ s.chip.on R.ATU_CMD_STATUS_BUSY = false ∧
      n = seq % 2048 ∧ q = s.chip.seq n ∧
      v = seqMask ((List.range 16).foldl (fun a k => a + (s.chip.atuData k <<< (32 * k))) 0) ∧ Seq.lock q = false ∧
      Seq.valid q = false) ∧
    (∃ (s : State) (seq : Nat) (n : Nat) (q : Nat) (v : Nat), s.chip.heard = true ∧ s.chip.on R.ATU_CMD_STATUS_BUSY = false ∧
      n = seq % 2048 ∧ q = s.chip.seq n ∧
      v = seqMask ((List.range 16).foldl (fun a k => a + (s.chip.atuData k <<< (32 * k))) 0) ∧ Seq.lock q = false ∧
      Seq.valid q = true ∧ Seq.changes q ≠ s.chip.atuData 6) ∧
    (∃ (s : State) (seq : Nat) (n : Nat) (q : Nat) (v : Nat) (list : _) (st : _), s.chip.heard = true ∧
      s.chip.on R.ATU_CMD_STATUS_BUSY = false ∧ n = seq % 2048 ∧ q = s.chip.seq n ∧
      v = seqMask ((List.range 16).foldl (fun a k => a + (s.chip.atuData k <<< (32 * k))) 0) ∧ Seq.lock q = false ∧
      Seq.valid q = true ∧ Seq.changes q = s.chip.atuData 6 ∧
      list = bits (s.chip.atuData 0 + (s.chip.atuData 1 <<< 32)) 0 40 ∧
      st = bits (s.chip.atuData 4 + (s.chip.atuData 5 <<< 32)) 0 40 ∧ s.chip.kvAddrOk list 64 = true ∧
      s.chip.kvAddrOk st 64 = true) ∧
    (∃ (s : State) (seq : Nat) (n : Nat) (q : Nat) (v : Nat), s.chip.heard = true ∧ s.chip.on R.ATU_CMD_STATUS_BUSY = false ∧
      n = seq % 2048 ∧ q = s.chip.seq n ∧
      v = seqMask ((List.range 16).foldl (fun a k => a + (s.chip.atuData k <<< (32 * k))) 0) ∧ Seq.lock q = false) ∧
    (∃ (s : State), s.chip.heard = true ∧ s.chip.on R.ATU_CMD_STATUS_BUSY = false) ∧
    (∃ (s : State) (t : Option (Nat × Nat × Nat)), s.chip.awake = true ∧ s.chip.atu.fence = some t ∧
      (t ≠ none → s.chip.atuTile ≠ t)) ∧
    (∃ (s : State) (t : Nat × Nat × Nat), s.chip.awake = true ∧ s.chip.atu.fence = some (some t) ∧ s.chip.atuTile = some t) ∧
    (∃ (s : State) (frame : BitVec 17) (a : Nat) (e : Nat), s.chip.heard = true ∧ a = s.chip.frameEntry frame.toNat ∧
      devRegion a = 0 ∧ devOffset a % 8 = 0 ∧ s.chip.writable (devOffset a) 8 ∧
      e = leNat (s.chip.muslin.read (devOffset a) 8) ∧ s.chip.atu.fifo.length < 8192 ∧ frameState e = 1) ∧
    (∃ (s : State) (frame : BitVec 17) (a : Nat) (e : Nat), s.chip.heard = true ∧ a = s.chip.frameEntry frame.toNat ∧
      devRegion a = 0 ∧ devOffset a % 8 = 0 ∧ s.chip.writable (devOffset a) 8 ∧
      e = leNat (s.chip.muslin.read (devOffset a) 8) ∧ (8192 ≤ s.chip.atu.fifo.length ∨ frameState e ≠ 1)) ∧
    (∃ (s : State) (slot : Nat) (i : _), s.chip.heard = true ∧ s.chip.on R.ATU_CMD_STATUS_BUSY = false ∧
      Table.get? s.chip.atu.holds (slot % 16) = none ∧ (i = Instr.kvResume slot ∨ i = .kvAbandon slot)) ∧
    (∃ (s : State) (slot : Nat) (o : OpRun) (b : Bool), s.chip.heard = true ∧ s.chip.on R.ATU_CMD_STATUS_BUSY = false ∧
      Table.get? s.chip.atu.holds (slot % 16) = some ⟨o, none, b⟩) ∧
    (∃ (s : State) (slot : Nat) (h : HoldRec) (w : Weave), s.chip.heard = true ∧ s.chip.on R.ATU_CMD_STATUS_BUSY = false ∧
      Table.get? s.chip.atu.holds (slot % 16) = some h ∧ h.started = false ∧ s.chip.weave? h.op.weave = some w ∧
      h.op.index < w.descs.length) :=
  ⟨⟨(mk (Atu.gs.getD 7 r0)), 2048, _, _, _, (Sys2Proof.Instr.kvWrite 2048), by decide +kernel, by decide +kernel, rfl, rfl, rfl, by decide +kernel⟩,
    ⟨(mk (Atu.gs.getD 4 r0)), 2047, _, _, _, by decide +kernel, by decide +kernel, rfl, rfl, rfl, by decide +kernel⟩,
    ⟨(mk (Atu.gs.getD 0 r0)), 2047, _, _, _, by decide +kernel, by decide +kernel, rfl, rfl, rfl, by decide +kernel⟩,
    ⟨(mk (Atu.gs.getD 0 r0)), 2047, _, _, _, by decide +kernel, by decide +kernel, rfl, rfl, rfl, by decide +kernel⟩,
    ⟨(mk (Atu.gs.getD 8 r0)), 1, _, _, _, by decide +kernel, by decide +kernel, rfl, rfl, rfl, by decide +kernel⟩,
    ⟨(mk (Atu.more.getD 0 r0)), 2047, _, _, _, _, _, by decide +kernel, by decide +kernel, rfl, rfl, rfl, by decide +kernel, by decide +kernel, by decide +kernel, rfl, rfl, by decide +kernel⟩,
    ⟨(mk (Atu.gs.getD 0 r0)), 2047, _, _, _, by decide +kernel, by decide +kernel, rfl, rfl, rfl, by decide +kernel⟩,
    ⟨(mk (Atu.gs.getD 0 r0)), by decide +kernel⟩,
    ⟨(mk (Atu.gs.getD 14 r0)), _, by decide +kernel, ofSome (by decide +kernel), by decide +kernel⟩,
    ⟨(mk (Atu.gs.getD 13 r0)), (0, 0, 0), by decide +kernel⟩,
    ⟨(mk (Atu.gs.getD 1 r0)), 0x00000#17, _, _, by decide +kernel, rfl, by decide +kernel, by decide +kernel, by unfold Chip.writable Chip.readable; decide +kernel, rfl, by decide +kernel⟩,
    ⟨(mk (Atu.gs.getD 0 r0)), 0x00000#17, _, _, by decide +kernel, rfl, by decide +kernel, by decide +kernel, by unfold Chip.writable Chip.readable; decide +kernel, rfl, by decide +kernel⟩,
    ⟨(mk (Atu.gs.getD 0 r0)), 2047, (Sys2Proof.Instr.kvResume 2047), by decide +kernel⟩,
    ⟨(mk (Atu.gs.getD 18 r0)), 3, { weave := 3, index := 0, raw := 0, cls := 1, unit := 1, tiles := 0, preempts := 0, activeNs := 0, startNs := 0, flags := 0x00#8, status := 0, info0 := 0, info1 := 0, gens := [], ctx := [], begun := true, tileReady := true, finished := false, lastTile := false, mirror := false }, false, by decide +kernel⟩,
    ⟨(mk (Atu.gs.getD 18 r0)), 3, _, _, by decide +kernel, by decide +kernel, ofSome (by decide +kernel), by decide +kernel, ofSome (by decide +kernel), by decide +kernel⟩⟩

/-- The premises of `TwillService` hold together. -/
theorem test_premises_of_TwillService :
    (∃ (s : State) (k : Nat) (force : Bool) (auto : Bool) (i : _), s.chip.heard = true ∧ s.chip.on R.TWL_SVC_CMD_BUSY = true ∧
      (i = Instr.twlRemove k force auto ∨ i = .twlTest k ∨ i = .twlReturn k ∨ i = .twlActivate k)) ∧
    (∃ (s : State) (k : Nat), s.chip.heard = true ∧ s.chip.on R.TWL_SVC_CMD_BUSY = false ∧ (17 < k ∨
      s.chip.rd R.TWL_CLUSTER_STATE k ≠ clActive)) ∧
    (∃ (s : State) (k : Nat), s.chip.heard = true ∧ s.chip.on R.TWL_SVC_CMD_BUSY = false ∧ (17 < k ∨
      s.chip.rd R.TWL_CLUSTER_STATE k ≠ clRemoved)) ∧
    (∃ (s : State) (k : Nat), s.chip.heard = true ∧ s.chip.on R.TWL_SVC_CMD_BUSY = false ∧ (17 < k ∨
      s.chip.rd R.TWL_CLUSTER_STATE k ≠ clSpare)) ∧
    (∃ (s : State) (k : Nat), s.chip.heard = true ∧ s.chip.on R.TWL_SVC_CMD_BUSY = false ∧ k ≤ 17 ∧
      s.chip.rd R.TWL_CLUSTER_STATE k = clRemoved ∧ s.chip.on R.TWL_CLUSTER_TEST_PASS k = false) ∧
    (∃ (s : State) (k : Nat) (force : Bool), s.chip.heard = true ∧ s.chip.on R.TWL_SVC_CMD_BUSY = false ∧ k ≤ 17 ∧
      s.chip.rd R.TWL_CLUSTER_STATE k = clActive ∧ s.chip.clusterOnDuty k = true ∧ force = false) ∧
    (∃ (s : State) (k : Nat) (force : Bool), s.chip.heard = true ∧ s.chip.on R.TWL_SVC_CMD_BUSY = false ∧ k ≤ 17 ∧
      s.chip.rd R.TWL_CLUSTER_STATE k = clActive ∧ (s.chip.clusterOnDuty k = false ∨ force = true) ∧
      (∀ j, j < 18 → j ≠ k → s.chip.rd R.TWL_CLUSTER_STATE j = clActive → s.chip.clusterOnDuty j = true)) ∧
    (∃ (s : State) (k : Nat), s.chip.heard = true ∧ k ≤ 17 ∧ s.chip.on R.TWL_SVC_CMD_BUSY = false ∧
      s.chip.rd R.TWL_CLUSTER_STATE k = clRemoved) ∧
    (∃ (s : State) (k : Nat), s.chip.heard = true ∧ k ≤ 17 ∧ s.chip.on R.TWL_SVC_CMD_BUSY = false ∧
      s.chip.rd R.TWL_CLUSTER_STATE k = clSpare) ∧
    (∃ (s : State) (k : Nat), s.chip.heard = true ∧ k ≤ 17 ∧ s.chip.on R.TWL_SVC_CMD_BUSY = false ∧
      s.chip.rd R.TWL_CLUSTER_STATE k = clRemoved ∧ s.chip.on R.TWL_CLUSTER_TEST_PASS k = true) ∧
    (∃ (s : State) (k : Nat) (force : Bool) (auto : Bool) (j : _), s.chip.heard = true ∧ k ≤ 17 ∧
      s.chip.on R.TWL_SVC_CMD_BUSY = false ∧ s.chip.rd R.TWL_CLUSTER_STATE k = clActive ∧ (s.chip.clusterOnDuty k = false ∨
      force = true) ∧ (∃ j, j < 18 ∧ j ≠ k ∧ s.chip.rd R.TWL_CLUSTER_STATE j = clActive ∧ s.chip.clusterOnDuty j = false) ∧
      s.chip.nextSpare = some j ∧ auto = true) ∧
    (∃ (s : State) (k : Nat) (force : Bool) (auto : Bool), s.chip.heard = true ∧ k ≤ 17 ∧ s.chip.on R.TWL_SVC_CMD_BUSY = false ∧
      s.chip.rd R.TWL_CLUSTER_STATE k = clActive ∧ (s.chip.clusterOnDuty k = false ∨ force = true) ∧ (∃ j, j < 18 ∧ j ≠ k ∧
      s.chip.rd R.TWL_CLUSTER_STATE j = clActive ∧ s.chip.clusterOnDuty j = false) ∧ (auto = false ∨ s.chip.nextSpare = none)) ∧
    (∃ (s : State) (k : Nat) (v : TwlService), s.chip.awake = true ∧ s.chip.twl.service = some v ∧ v.testing = some k ∧ k < 18 ∧
      v.cluster < 18 ∧ (v.op = 2 ∨ v.op = 4)) ∧
    (∃ (s : State) (k : Nat) (v : TwlService), s.chip.awake = true ∧ s.chip.twl.service = some v ∧ v.testing = some k ∧ k < 18 ∧
      v.op = 1 ∧ v.cluster < 18 ∧ v.cluster ≠ k) ∧
    (∃ (s : State) (v : TwlService), s.chip.awake = true ∧ s.chip.twl.service = some v ∧ v.op = 1 ∧ v.testing = none ∧
      v.cluster < 18 ∧ s.chip.rd R.TWL_CLUSTER_STATE v.cluster = clDraining ∧ s.chip.op? (2 + v.cluster) = none ∧
      (∀ o ∈ s.chip.dsp.suspended, o.unit ≠ 2 + v.cluster) ∧ (∀ p ∈ s.chip.dsp.chains, p.1 / 8 ≠ v.cluster)) ∧
    (∃ (s : State) (w : Word) (a : Nat) (b : Nat), s.chip.heard = true ∧ a = bits w.toNat 0 5 ∧ b = bits w.toNat 8 5 ∧
      s.chip.on R.GNG_STATUS_ENABLED = false ∧ a < 18 ∧ b < 18 ∧ a ≠ b ∧ a / 6 = b / 6 ∧
      s.chip.rd R.TWL_CLUSTER_STATE a = clActive ∧ s.chip.rd R.TWL_CLUSTER_STATE b = clActive ∧
      (s.chip.on R.ATU_CTRL_ENABLE = true → s.chip.rd R.ATU_CTRL_TWILL_CLUSTER ≠ a ∧ s.chip.rd R.ATU_CTRL_TWILL_CLUSTER ≠ b)) ∧
    (∃ (s : State) (w : Word) (a : Nat) (b : Nat), s.chip.heard = true ∧ a = bits w.toNat 0 5 ∧ b = bits w.toNat 8 5 ∧
      (s.chip.on R.GNG_STATUS_ENABLED = true ∨ 18 ≤ a ∨ 18 ≤ b ∨ a = b ∨ a / 6 ≠ b / 6 ∨
      s.chip.rd R.TWL_CLUSTER_STATE a ≠ clActive ∨ s.chip.rd R.TWL_CLUSTER_STATE b ≠ clActive ∨
      (s.chip.on R.ATU_CTRL_ENABLE = true ∧ (s.chip.rd R.ATU_CTRL_TWILL_CLUSTER = a ∨
      s.chip.rd R.ATU_CTRL_TWILL_CLUSTER = b)))) ∧
    (∃ (s : State) (port : Nat) (o : OpRun), s.chip.awaitsTile (25 + port % 2) o 9 1 ∧ readsHost o.raw = true ∧ (o.begun = true ∨
      s.chip.copyCheck o.raw = St.OK)) :=
  ⟨⟨(mk (Twill.gs2.getD 8 r0)), 17, true, true, (Sys2Proof.Instr.twlTest 17), by decide +kernel⟩,
    ⟨(mk (Twill.gs.getD 0 r0)), 17, by decide +kernel⟩,
    ⟨(mk (Twill.gs.getD 0 r0)), 17, by decide +kernel⟩,
    ⟨(mk (Twill.gs.getD 0 r0)), 5, by decide +kernel⟩,
    ⟨(mk (Twill.gs2.getD 3 r0)), 17, by decide +kernel⟩,
    ⟨(mk (Twill.gs.getD 0 r0)), 1, _, by decide +kernel, by decide +kernel, by decide +kernel, (by decide +kernel), by decide +kernel, rfl⟩,
    ⟨(mk (Twill.gs2.getD 6 r0)), 17, true, by decide +kernel⟩,
    ⟨(mk (Twill.cl Twill.T0 [(17, 2)])), 17, by decide +kernel⟩,
    ⟨(mk (Twill.gs.getD 0 r0)), 17, by decide +kernel⟩,
    ⟨(mk (Twill.gs2.getD 5 r0)), 17, by decide +kernel⟩,
    ⟨(mk (Twill.gs.getD 0 r0)), 5, true, _, _, by decide +kernel, by decide +kernel, by decide +kernel, (by decide +kernel), by decide +kernel, by decide +kernel, ofSome (by decide +kernel), rfl⟩,
    ⟨(mk (Twill.gs.getD 0 r0)), 5, true, false, by decide +kernel⟩,
    ⟨(mk (Twill.gs2.getD 11 r0)), _, _, by decide +kernel, ofSome (by decide +kernel), ofSome (by decide +kernel), by decide +kernel⟩,
    ⟨(mk (Twill.gs2.getD 13 r0)), _, _, by decide +kernel, ofSome (by decide +kernel), ofSome (by decide +kernel), by decide +kernel⟩,
    ⟨(mk (Twill.gs2.getD 22 r0)), _, by decide +kernel, ofSome (by decide +kernel), by decide +kernel⟩,
    ⟨(mk (Twill.gs.getD 0 r0)), 0x00000001#32, _, _, by decide +kernel, rfl, rfl, by decide +kernel⟩,
    ⟨(mk (Twill.gs.getD 0 r0)), 0x00000000#32, _, _, by decide +kernel, rfl, rfl, by decide +kernel⟩,
    ⟨(mk (Twill.gs.getD 3 r0)), 16, { weave := 0, index := 0, raw := 2839213766779714416208298473114059465120850766993724122112907537177799353691371242711086255855026157164599412527340851349428606339329, cls := 1, unit := 25, tiles := 0, preempts := 0, activeNs := 0, startNs := 0, flags := 0x00#8, status := 0, info0 := 0, info1 := 0, gens := [], ctx := [], begun := true, tileReady := false, finished := false, lastTile := false, mirror := false }, by simp only [Chip.awaitsTile]; decide +kernel, by decide +kernel⟩⟩

/-- The premises of `QueuesAndDoorbells` hold together. -/
theorem test_premises_of_QueuesAndDoorbells :
    (∃ (s : State) (queue : Nat) (n : Nat) (off : Nat) (i : _), s.chip.heard = true ∧ n = queue % 32768 ∧ off = s.chip.ctxOff n ∧
      s.chip.on R.QMG_QCMD_BUSY = true ∧ (i = Instr.queueEnable queue ∨ i = .queueDisable queue ∨ i = .queueQuery queue)) ∧
    (∃ (s : State) (queue : Nat) (n : Nat) (off : Nat), s.chip.heard = true ∧ n = queue % 32768 ∧ off = s.chip.ctxOff n ∧
      s.chip.on R.QMG_QCMD_BUSY = false ∧ s.chip.queue? n ≠ none) ∧
    (∃ (s : State) (queue : Nat) (n : Nat) (off : Nat) (q : _), s.chip.heard = true ∧ n = queue % 32768 ∧ off = s.chip.ctxOff n ∧
      s.chip.on R.QMG_QCMD_BUSY = false ∧ s.chip.queue? n = none ∧ s.chip.readable off 32 ∧
      q = Queue.ofContext (leNat (s.chip.muslin.read off 32)) ∧ s.chip.contextOk q = true) ∧
    (∃ (s : State) (queue : Nat) (n : Nat) (off : Nat) (q : _), s.chip.heard = true ∧ n = queue % 32768 ∧ off = s.chip.ctxOff n ∧
      s.chip.on R.QMG_QCMD_BUSY = false ∧ s.chip.queue? n = none ∧ s.chip.readable off 32 ∧
      q = Queue.ofContext (leNat (s.chip.muslin.read off 32)) ∧ s.chip.contextOk q = false) ∧
    (∃ (s : State) (queue : Nat) (n : Nat) (off : Nat), s.chip.heard = true ∧ n = queue % 32768 ∧ off = s.chip.ctxOff n ∧
      s.chip.on R.QMG_QCMD_BUSY = false ∧ s.chip.queue? n = none ∧ s.chip.groupActive (groupOf off) = true ∧
      (s.chip.linesServe off 32 = false ∨ s.chip.poisonedIn off 32 ≠ none)) ∧
    (∃ (s : State) (queue : Nat) (n : Nat) (off : Nat), s.chip.heard = true ∧ n = queue % 32768 ∧ off = s.chip.ctxOff n ∧
      s.chip.on R.QMG_QCMD_BUSY = false ∧ s.chip.queue? n = none ∧ s.chip.groupHolds (groupOf off) = true ∧
      s.chip.isolated.contains (18 + bankOf off / 4) = false ∧ groupOf off < 8 ∧ s.chip.msl.groups.length = 8) ∧
    (∃ (s : State) (queue : Nat) (n : Nat) (off : Nat), s.chip.heard = true ∧ n = queue % 32768 ∧ off = s.chip.ctxOff n ∧
      s.chip.on R.QMG_QCMD_BUSY = false ∧ s.chip.queue? n = none) ∧
    (∃ (s : State) (queue : Nat) (n : Nat) (off : Nat) (q : _), s.chip.heard = true ∧ n = queue % 32768 ∧ off = s.chip.ctxOff n ∧
      s.chip.on R.QMG_QCMD_BUSY = false ∧ s.chip.queue? n = some q) ∧
    (∃ (s : State) (offset : Nat) (size : Nat) (n : Nat), s.chip.heard = true ∧ n = offset / 4 % 32768 ∧ (size ≠ 4 ∨
      offset % 4 ≠ 0)) ∧
    (∃ (s : State) (offset : Nat) (n : Nat) (g : _), s.chip.heard = true ∧ n = offset / 4 % 32768 ∧ g < 8 ∧ offset % 4 = 0 ∧
      s.chip.msl.groups.length = 8 ∧ (∀ k, k < g → ∀ i ∈ (s.chip.group k).waiting, hostWrite i.1 = false) ∧
      (∃ i ∈ (s.chip.group g).waiting, hostWrite i.1 = true)) ∧
    (∃ (s : State) (offset : Nat) (n : Nat), s.chip.heard = true ∧ n = offset / 4 % 32768 ∧ offset % 4 = 0 ∧
      (∀ g, g < 8 → ∀ i ∈ (s.chip.group g).waiting, hostWrite i.1 = false) ∧ s.chip.queue? n = none) ∧
    (∃ (s : State) (offset : Nat) (n : Nat) (value : Word) (q : _), s.chip.heard = true ∧ n = offset / 4 % 32768 ∧ offset % 4 = 0 ∧
      (∀ g, g < 8 → ∀ i ∈ (s.chip.group g).waiting, hostWrite i.1 = false) ∧ s.chip.queue? n = some q ∧
      q.hostProduces = true ∧ value ≠ q.produced ∧ (value - q.consumed).toNat ≤ q.entries) ∧
    (∃ (s : State) (offset : Nat) (n : Nat) (value : Word) (q : _), s.chip.heard = true ∧ n = offset / 4 % 32768 ∧ offset % 4 = 0 ∧
      (∀ g, g < 8 → ∀ i ∈ (s.chip.group g).waiting, hostWrite i.1 = false) ∧ s.chip.queue? n = some q ∧
      q.hostProduces = true ∧ (value = q.produced ∨ q.entries < (value - q.consumed).toNat)) ∧
    (∃ (s : State) (offset : Nat) (n : Nat) (value : Word) (q : _), s.chip.heard = true ∧ n = offset / 4 % 32768 ∧ offset % 4 = 0 ∧
      (∀ g, g < 8 → ∀ i ∈ (s.chip.group g).waiting, hostWrite i.1 = false) ∧ s.chip.queue? n = some q ∧
      q.hostProduces = false ∧ q.hostConsumes = true ∧ (value - q.consumed).toNat ≤ (q.produced - q.consumed).toNat) ∧
    (∃ (s : State) (offset : Nat) (n : Nat) (value : Word) (q : _), s.chip.heard = true ∧ n = offset / 4 % 32768 ∧ offset % 4 = 0 ∧
      (∀ g, g < 8 → ∀ i ∈ (s.chip.group g).waiting, hostWrite i.1 = false) ∧ s.chip.queue? n = some q ∧
      q.hostProduces = false ∧ q.hostConsumes = true ∧ (q.produced - q.consumed).toNat < (value - q.consumed).toNat) ∧
    (∃ (s : State) (offset : Nat) (n : Nat) (q : _), s.chip.heard = true ∧ n = offset / 4 % 32768 ∧ offset % 4 = 0 ∧
      (∀ g, g < 8 → ∀ i ∈ (s.chip.group g).waiting, hostWrite i.1 = false) ∧ s.chip.queue? n = some q ∧
      q.hostProduces = false ∧ q.hostConsumes = false) ∧
    (∃ (s : State) (queue : Nat) (n : Nat) (q : Queue) (r : SpillRec) (raw : Nat), s.chip.awake = true ∧ n = queue % 32768 ∧
      s.chip.queue? n = some q ∧ q.kind = 2 ∧ q.full = false ∧ s.chip.qmg.spill.filter (fun x => x.queue == n) = [r] ∧
      r.irq = false ∧ q.coalCount = 0 ∧ s.chip.readable (s.chip.spillOff r.slot) 32 ∧
      raw = leNat (s.chip.muslin.read (s.chip.spillOff r.slot) 32) ∧ s.chip.writable (devOffset (q.slot q.produced)) 32) ∧
    (∃ (s : State) (queue : Nat) (n : Nat) (q : Queue), s.chip.awake = true ∧ n = queue % 32768 ∧ s.chip.queue? n = some q ∧
      q.full = true) ∧
    (∃ (s : State) (queue : Nat) (n : Nat) (q : Queue), s.chip.awake = true ∧ n = queue % 32768 ∧ s.chip.queue? n = some q ∧
      q.hostConsumes = true ∧ q.coalUs ≠ 0 ∧ q.uncovered ≠ 0 ∧ q.vector ≠ 0 ∧ s.chip.on R.PCI_MSIX_ENABLE = true ∧
      s.chip.on R.PCI_MSIX_FUNCTION_MASK = false ∧ (s.chip.regs.get (msixControl q.vector)).getLsbD 0 = false) :=
  ⟨⟨(mk (r0.wr R.QMG_QCMD_BUSY 1)), 5, _, _, (.queueQuery 5), by decide +kernel, rfl, rfl, by decide +kernel, Or.inr (Or.inr rfl)⟩,
    ⟨(mk (Queues.gs.getD 6 r0)), 1, _, _, by decide +kernel, rfl, rfl, by decide +kernel, by decide +kernel⟩,
    ⟨(mk (Queues.gs.getD 2 r0)), 0, _, _, _, by decide +kernel, rfl, rfl, by decide +kernel, by decide +kernel, by simp only [Chip.readable]; decide +kernel, rfl, by decide +kernel⟩,
    ⟨(mk (Queues.gs.getD 0 r0)), 32767, _, _, _, by decide +kernel, rfl, rfl, by decide +kernel, by decide +kernel, by simp only [Chip.readable]; decide +kernel, rfl, by decide +kernel⟩,
    ⟨(mk (Muslin.pois Queues.Q0 [0])), 0, _, _, by decide +kernel, rfl, rfl, by decide +kernel⟩,
    ⟨(mk (Muslin.gph Queues.Q0 0 .retention)), 0, _, _, by decide +kernel, rfl, rfl, by decide +kernel⟩,
    ⟨(mk (Queues.gs.getD 0 r0)), 32767, _, _, by decide +kernel, rfl, rfl, by decide +kernel⟩,
    ⟨(mk (Queues.gs.getD 6 r0)), 1, _, _, _, by decide +kernel, rfl, rfl, by decide +kernel, ofSome (by decide +kernel)⟩,
    ⟨(mk (Queues.gs.getD 0 r0)), 131068, 2, _, by decide +kernel, rfl, by decide +kernel⟩,
    ⟨(mk Queues.waits), 131068, _, 1, by decide +kernel, rfl, by decide +kernel⟩,
    ⟨(mk (Queues.gs.getD 0 r0)), 131068, _, by decide +kernel, rfl, by decide +kernel, by decide +kernel, by decide +kernel⟩,
    ⟨(mk (Queues.gs.getD 8 r0)), 131068, _, 0, _, by decide +kernel, rfl, by decide +kernel, by decide +kernel, ofSome (by decide +kernel), by decide +kernel⟩,
    ⟨(mk (Queues.gs.getD 8 r0)), 131068, _, 0x10, _, by decide +kernel, rfl, by decide +kernel, by decide +kernel, ofSome (by decide +kernel), by decide +kernel⟩,
    ⟨(mk (Queues.gs.getD 6 r0)), 4, _, 0, _, by decide +kernel, rfl, by decide +kernel, by decide +kernel, ofSome (by decide +kernel), by decide +kernel⟩,
    ⟨(mk (Queues.gs.getD 6 r0)), 4, _, 1, _, by decide +kernel, rfl, by decide +kernel, by decide +kernel, ofSome (by decide +kernel), by decide +kernel⟩,
    ⟨(mk (Queues.more.getD 0 r0)), 131068, _, _, by decide +kernel, rfl, by decide +kernel, by decide +kernel, ofSome (by decide +kernel), by decide +kernel⟩,
    ⟨(mk (Queues.gs.getD 8 r0)), 0, _, _, _, _, by decide +kernel, rfl, ofSome (by decide +kernel), by decide +kernel, by decide +kernel, ofSing (by decide +kernel), by decide +kernel, by decide +kernel, by simp only [Chip.readable]; decide +kernel, rfl, by unfold Chip.writable Chip.readable; decide +kernel⟩,
    ⟨(mk (Queues.gs.getD 8 r0)), 32767, _, _, by decide +kernel, rfl, ofSome (by decide +kernel), by decide +kernel⟩,
    ⟨(mk (Queues.gs2.getD 0 r0)), 32767, _, _, by decide +kernel, rfl, ofSome (by decide +kernel), by decide +kernel⟩⟩

/-- The premises of `DramAccesses` hold together. -/
theorem test_premises_of_DramAccesses :
    (∃ (s : State) (a : Nat) (b : Nat) (p : Nat) (errors : List (Nat × Byte)), s.chip.awake = true ∧
      s.chip.validRange [8] a 1 = true ∧ s.chip.on R.DRC_CTRL_QUIESCE = false ∧ s.chip.dramServes = true ∧
      s.chip.drc.selfRefresh = false ∧ s.chip.drc.held = [] ∧ b = devOffset a - devOffset a % 64 ∧ p = s.chip.dramPlace b ∧
      s.chip.channelOut p 64 = false ∧ (∀ x ∈ s.chip.drc.poisoned, x < p / 64 ∨ p + 64 ≤ 64 * x) ∧
      ((s.chip.on R.DRC_CFG_ECC_EN = true → checkBurst errors = .missed) ∨ errors = [])) ∧
    (∃ (s : State) (a : Nat) (b : Nat) (p : Nat) (errors : List (Nat × Byte)), s.chip.awake = true ∧
      s.chip.validRange [8] a 1 = true ∧ s.chip.on R.DRC_CTRL_QUIESCE = false ∧ s.chip.dramServes = true ∧
      s.chip.drc.selfRefresh = false ∧ s.chip.drc.held = [] ∧ b = devOffset a - devOffset a % 64 ∧ p = s.chip.dramPlace b ∧
      s.chip.channelOut p 64 = false ∧ (∀ x ∈ s.chip.drc.poisoned, x < p / 64 ∨ p + 64 ≤ 64 * x) ∧
      s.chip.on R.DRC_CFG_ECC_EN = true ∧ checkBurst errors = .corrected) ∧
    (∃ (s : State) (a : Nat) (unit : Nat) (b : Nat) (p : Nat) (errors : List (Nat × Byte)), s.chip.awake = true ∧
      s.chip.validRange [8] a 1 = true ∧ s.chip.on R.DRC_CTRL_QUIESCE = false ∧ s.chip.dramServes = true ∧
      s.chip.drc.selfRefresh = false ∧ s.chip.drc.held = [] ∧ b = devOffset a - devOffset a % 64 ∧ p = s.chip.dramPlace b ∧
      s.chip.channelOut p 64 = false ∧ (∀ x ∈ s.chip.drc.poisoned, x < p / 64 ∨ p + 64 ≤ 64 * x) ∧
      s.chip.on R.DRC_CFG_ECC_EN = true ∧ checkBurst errors = .uncorrectable ∧ s.chip.plainOn unit) ∧
    (∃ (s : State) (a : Nat) (unit : Nat) (b : Nat) (p : Nat) (w : _), s.chip.awake = true ∧ s.chip.validRange [8] a 1 = true ∧
      s.chip.on R.DRC_CTRL_QUIESCE = false ∧ s.chip.dramServes = true ∧ s.chip.drc.selfRefresh = false ∧
      s.chip.drc.held = [] ∧ b = devOffset a - devOffset a % 64 ∧ p = s.chip.dramPlace b ∧ s.chip.channelOut p 64 = false ∧
      (∀ x ∈ s.chip.drc.poisoned, x < p / 64 ∨ p + 64 ≤ 64 * x) ∧ w ∈ wordsOf b 64 ∧ s.chip.plainOn unit) ∧
    (∃ (s : State) (a : Nat), s.chip.awake = true ∧ s.chip.validRange [8] a 1 = true ∧ s.chip.on R.DRC_CTRL_QUIESCE = true ∧
      s.chip.drc.pairing = none) ∧
    (∃ (s : State) (a : Nat) (unit : Nat), s.chip.awake = true ∧ s.chip.validRange [8] a 1 = true ∧ (s.chip.drc.pairing ≠ none ∨
      s.chip.on R.DRC_CTRL_QUIESCE = false ∧ s.chip.on R.DRC_CTRL_ENABLE = false) ∧ s.chip.plainOn unit) ∧
    (∃ (s : State) (a : Nat), s.chip.awake = true ∧ s.chip.validRange [8] a 1 = true ∧ s.chip.on R.DRC_CTRL_QUIESCE = false ∧
      s.chip.dramServes = true ∧ s.chip.drc.selfRefresh = true ∧ s.chip.drc.held = []) ∧
    (∃ (s : State) (a : Nat) (off : Nat) (p : Nat) (data : List Byte), s.chip.awake = true ∧
      s.chip.validRange [8] a data.length = true ∧ s.chip.on R.DRC_CTRL_QUIESCE = false ∧ s.chip.dramServes = true ∧
      s.chip.drc.selfRefresh = false ∧ s.chip.drc.held = [] ∧ off = devOffset a ∧ off % 64 + data.length ≤ 64 ∧ data ≠ [] ∧
      p = s.chip.dramPlace off ∧ s.chip.channelOut p data.length = false ∧ (p / 64 ∉ s.chip.drc.poisoned ∨ data.length = 64 ∨
      s.chip.on R.DRC_CFG_ECC_EN = false) ∧ s.chip.drc.retiring = none) ∧
    (∃ (s : State) (a : Nat) (off : Nat) (p : Nat) (data : List Byte) (page : _) (e : _), s.chip.awake = true ∧
      s.chip.validRange [8] a data.length = true ∧ s.chip.on R.DRC_CTRL_QUIESCE = false ∧ s.chip.dramServes = true ∧
      s.chip.drc.selfRefresh = false ∧ s.chip.drc.held = [] ∧ off = devOffset a ∧ off % 64 + data.length ≤ 64 ∧ data ≠ [] ∧
      p = s.chip.dramPlace off ∧ s.chip.channelOut p data.length = false ∧ p / 64 ∉ s.chip.drc.poisoned ∧
      s.chip.drc.retiring = some (page, e) ∧ off / 4096 = page) ∧
    (∃ (s : State) (a : Nat) (unit : Nat) (off : Nat) (p : Nat) (data : List Byte) (errors : _), s.chip.awake = true ∧
      s.chip.validRange [8] a data.length = true ∧ s.chip.on R.DRC_CTRL_QUIESCE = false ∧ s.chip.dramServes = true ∧
      s.chip.drc.selfRefresh = false ∧ s.chip.drc.held = [] ∧ off = devOffset a ∧ off % 64 + data.length ≤ 64 ∧ data ≠ [] ∧
      p = s.chip.dramPlace off ∧ s.chip.channelOut p data.length = false ∧ s.chip.on R.DRC_CFG_ECC_EN = true ∧
      data.length < 64 ∧ s.chip.plainOn unit ∧ ((p / 64 ∈ s.chip.drc.poisoned ∧ errors = []) ∨
      checkBurst (errorsOf errors (off / 64)) = .uncorrectable)) ∧
    (∃ (s : State) (a : Nat) (off : Nat) (p : Nat) (data : List Byte) (errors : _), s.chip.awake = true ∧
      s.chip.validRange [8] a data.length = true ∧ s.chip.on R.DRC_CTRL_QUIESCE = false ∧ s.chip.dramServes = true ∧
      s.chip.drc.selfRefresh = false ∧ s.chip.drc.held = [] ∧ off = devOffset a ∧ off % 64 + data.length ≤ 64 ∧ data ≠ [] ∧
      p = s.chip.dramPlace off ∧ s.chip.channelOut p data.length = false ∧ s.chip.on R.DRC_CFG_ECC_EN = true ∧
      data.length < 64 ∧ p / 64 ∉ s.chip.drc.poisoned ∧ s.chip.drc.retiring = none ∧
      s.chip.on R.DRC_CTRL_AUTO_RETIRE = false ∧ checkBurst (errorsOf errors (off / 64)) = .corrected) ∧
    (∃ (s : State) (a : Nat) (unit : Nat) (off : Nat) (p : Nat) (data : List Byte) (net : List (Nat × Bool)), s.chip.awake = true ∧
      s.chip.validRange [8] a data.length = true ∧ s.chip.on R.DRC_CTRL_QUIESCE = false ∧ s.chip.dramServes = true ∧
      s.chip.drc.selfRefresh = false ∧ s.chip.drc.held = [] ∧ off = devOffset a ∧ off % 64 + data.length ≤ 64 ∧ data ≠ [] ∧
      p = s.chip.dramPlace off ∧ s.chip.channelOut p data.length = false ∧ off % 8 + data.length ≤ 8 ∧ (off / 8, true) ∈ net ∧
      s.chip.plainOn unit) :=
  ⟨⟨(mk (Dram.gsD.getD 1 r0)), 549755813888, _, _, [], by decide +kernel, by decide +kernel, by decide +kernel, (by decide +kernel), by decide +kernel, by decide +kernel, rfl, rfl, by decide +kernel⟩,
    ⟨(mk (Dram.gsD.getD 1 r0)), 549755813888, _, _, [(0, 1)], by decide +kernel, by decide +kernel, by decide +kernel, (by decide +kernel), by decide +kernel, by decide +kernel, rfl, rfl, by decide +kernel⟩,
    ⟨(mk (Dram.gsD.getD 1 r0)), 549755813888, 9, _, _, [(0, 1), (1, 1)], by decide +kernel, by decide +kernel, by decide +kernel, (by decide +kernel), by decide +kernel, by decide +kernel, rfl, rfl, by decide +kernel, by decide +kernel, by decide +kernel, by decide +kernel, plain_none (by decide +kernel)⟩,
    ⟨(mk (Dram.gsD.getD 1 r0)), 549755813888, 9, _, _, 0, by decide +kernel, by decide +kernel, by decide +kernel, (by decide +kernel), by decide +kernel, by decide +kernel, rfl, rfl, by decide +kernel, by decide +kernel, by decide +kernel, plain_none (by decide +kernel)⟩,
    ⟨(mk (Dram.gsD.getD 3 r0)), 549755813888, by decide +kernel⟩,
    ⟨(mk (Dram.dr Dram.D0 (fun d => { d with pairing := some 1 }))), 549755813888, 9, by decide +kernel, by decide +kernel, by decide +kernel, plain_none (by decide +kernel)⟩,
    ⟨(mk (Dram.gsD.getD 4 r0)), 549755813888, by decide +kernel⟩,
    ⟨(mk (Dram.gsD.getD 1 r0)), 549755813888, _, _, [1], by decide +kernel, by decide +kernel, by decide +kernel, (by decide +kernel), by decide +kernel, by decide +kernel, rfl, by decide +kernel, by decide +kernel, rfl, by decide +kernel⟩,
    ⟨(mk (Dram.gsD.getD 10 r0)), 549755813888, _, _, [0x01#8], _, _, by decide +kernel, by decide +kernel, by decide +kernel, (by decide +kernel), by decide +kernel, by decide +kernel, rfl, by decide +kernel, by decide +kernel, rfl, by decide +kernel, by decide +kernel, ofPair (by decide +kernel), by decide +kernel⟩,
    ⟨(mk (Dram.gsD.getD 5 r0)), 549755813888, 9, _, _, [1], [], by decide +kernel, by decide +kernel, by decide +kernel, (by decide +kernel), by decide +kernel, by decide +kernel, rfl, by decide +kernel, by decide +kernel, rfl, by decide +kernel, by decide +kernel, by decide +kernel, plain_none (by decide +kernel), Or.inl (by decide +kernel)⟩,
    ⟨(mk (Dram.gsD.getD 1 r0)), 549755813888, _, _, [1], [(0, 0, 1)], by decide +kernel, by decide +kernel, by decide +kernel, (by decide +kernel), by decide +kernel, by decide +kernel, rfl, by decide +kernel, by decide +kernel, rfl, by decide +kernel⟩,
    ⟨(mk (Dram.gsD.getD 1 r0)), 549755813888, 9, _, _, [1], [(0, true)], by decide +kernel, by decide +kernel, by decide +kernel, (by decide +kernel), by decide +kernel, by decide +kernel, rfl, by decide +kernel, by decide +kernel, rfl, by decide +kernel, by decide +kernel, by decide +kernel, plain_none (by decide +kernel)⟩⟩

/-- The premises of `DramRetirement` hold together. -/
theorem test_premises_of_DramRetirement :
    (∃ (s : State) (frameEn : Bool) (frame : BitVec 17) (page : Nat) (w : Nat), s.chip.heard = true ∧
      page = s.chip.rd R.DRC_RETIRE_ADDR_PAGE ∧ w = 1 + (if frameEn = true then 2 else 0) + 4 * frame.toNat ∧
      (s.chip.drc.retiring ≠ none ∨ s.chip.drc.pairing ≠ none)) ∧
    (∃ (s : State) (frameEn : Bool) (frame : BitVec 17) (page : Nat) (w : Nat), s.chip.heard = true ∧
      page = s.chip.rd R.DRC_RETIRE_ADDR_PAGE ∧ w = 1 + (if frameEn = true then 2 else 0) + 4 * frame.toNat ∧
      s.chip.drc.retiring = none ∧ s.chip.drc.pairing = none ∧ (s.chip.pageRetired page = true ∨
      s.chip.usableDram ≤ 4096 * page)) ∧
    (∃ (s : State) (frameEn : Bool) (frame : BitVec 17) (page : Nat) (w : Nat), s.chip.heard = true ∧
      page = s.chip.rd R.DRC_RETIRE_ADDR_PAGE ∧ w = 1 + (if frameEn = true then 2 else 0) + 4 * frame.toNat ∧
      s.chip.drc.retiring = none ∧ s.chip.drc.pairing = none ∧ s.chip.pageRetired page = false ∧
      4096 * page < s.chip.usableDram ∧ s.chip.freeSparePage = none ∧ frameEn = false) ∧
    (∃ (s : State) (frameEn : Bool) (frame : BitVec 17) (page : Nat) (w : Nat) (n : _), s.chip.heard = true ∧
      page = s.chip.rd R.DRC_RETIRE_ADDR_PAGE ∧ w = 1 + (if frameEn = true then 2 else 0) + 4 * frame.toNat ∧
      s.chip.drc.retiring = none ∧ s.chip.drc.pairing = none ∧ s.chip.pageRetired page = false ∧
      4096 * page < s.chip.usableDram ∧ s.chip.freeSparePage = some n ∧ frameEn = false) ∧
    (∃ (s : State) (frameEn : Bool) (frame : BitVec 17) (page : Nat) (w : Nat) (n : _) (a : _) (e : _), s.chip.heard = true ∧
      page = s.chip.rd R.DRC_RETIRE_ADDR_PAGE ∧ w = 1 + (if frameEn = true then 2 else 0) + 4 * frame.toNat ∧
      s.chip.drc.retiring = none ∧ s.chip.drc.pairing = none ∧ s.chip.pageRetired page = false ∧
      4096 * page < s.chip.usableDram ∧ s.chip.freeSparePage = some n ∧ frameEn = true ∧ a = s.chip.frameEntry frame.toNat ∧
      devRegion a = 0 ∧ devOffset a % 8 = 0 ∧ s.chip.writable (devOffset a) 8 ∧ e = leNat (s.chip.muslin.read (devOffset a) 8)) ∧
    (∃ (s : State) (frameEn : Bool) (frame : BitVec 17) (page : Nat) (w : Nat) (a : _) (e : _), s.chip.heard = true ∧
      page = s.chip.rd R.DRC_RETIRE_ADDR_PAGE ∧ w = 1 + (if frameEn = true then 2 else 0) + 4 * frame.toNat ∧
      s.chip.drc.retiring = none ∧ s.chip.drc.pairing = none ∧ s.chip.pageRetired page = false ∧
      4096 * page < s.chip.usableDram ∧ s.chip.freeSparePage = none ∧ frameEn = true ∧ a = s.chip.frameEntry frame.toNat ∧
      devRegion a = 0 ∧ devOffset a % 8 = 0 ∧ s.chip.writable (devOffset a) 8 ∧ e = leNat (s.chip.muslin.read (devOffset a) 8)) ∧
    (∃ (s : State) (page : Nat) (n : Nat) (spare : Nat) (k : _) (b : _) (x : _), s.chip.awake = true ∧
      s.chip.drc.retiring = some (page, n) ∧ n < 256 ∧ page < 2 ^ 24 ∧ spare = s.chip.usableDram + 4096 * n ∧
      4096 * page + 4096 ≤ s.chip.usableDram ∧ k < 64 ∧ s.chip.on R.DRC_CFG_ECC_EN = true ∧ b < 68 ∧ x ≠ 0 ∧
      64 * page + k ∉ s.chip.drc.poisoned) ∧
    (∃ (s : State) (page : Nat) (n : Nat) (spare : Nat) (k : _) (errors : _), s.chip.awake = true ∧
      s.chip.drc.retiring = some (page, n) ∧ n < 256 ∧ page < 2 ^ 24 ∧ spare = s.chip.usableDram + 4096 * n ∧
      4096 * page + 4096 ≤ s.chip.usableDram ∧ k < 64 ∧ s.chip.on R.DRC_CFG_ECC_EN = true ∧
      checkBurst (errorsOf errors (64 * page + k)) = .uncorrectable) ∧
    (∃ (s : State) (page : Nat) (n : Nat) (spare : Nat), s.chip.awake = true ∧ s.chip.drc.retiring = some (page, n) ∧ n < 256 ∧
      page < 2 ^ 24 ∧ spare = s.chip.usableDram + 4096 * n ∧ 4096 * page + 4096 ≤ s.chip.usableDram) ∧
    (∃ (s : State), s.chip.heard = true ∧ s.chip.on R.DRC_STATUS_PAIR_OUT = true) ∧
    (∃ (s : State), s.chip.heard = true ∧ s.chip.on R.DRC_STATUS_PAIR_OUT = false ∧ (s.chip.on R.DRC_CTRL_QUIESCE = false ∨
      s.chip.drc.retiring ≠ none ∨ s.chip.drc.pairing ≠ none ∨ s.chip.drc.held ≠ [])) ∧
    (∃ (s : State), s.chip.heard = true ∧ s.chip.on R.DRC_STATUS_PAIR_OUT = false ∧ s.chip.on R.DRC_CTRL_QUIESCE = true ∧
      s.chip.drc.retiring = none ∧ s.chip.drc.pairing = none ∧ s.chip.drc.held = []) ∧
    (∃ (s : State) (k : Nat), s.chip.awake = true ∧ s.chip.drc.pairing = some k ∧ k < 8) :=
  ⟨⟨(mk (Dram.gsD.getD 10 r0)), true, 5, _, _, by decide +kernel, rfl, rfl, by decide +kernel⟩,
    ⟨(mk (Dram.gsD.getD 6 r0)), true, 5, _, _, by decide +kernel, rfl, rfl, by decide +kernel⟩,
    ⟨(mk (Dram.gsR.getD 5 r0)), false, 0, _, _, by decide +kernel, rfl, rfl, by decide +kernel, by decide +kernel, by decide +kernel, (by decide +kernel), by decide +kernel, rfl⟩,
    ⟨(mk (Dram.gsD.getD 0 r0)), false, 0, _, _, _, by decide +kernel, rfl, rfl, by decide +kernel, by decide +kernel, by decide +kernel, by decide +kernel, ofSome (by decide +kernel), rfl⟩,
    ⟨(mk (Dram.gsD.getD 0 r0)), true, 0, _, _, _, _, _, by decide +kernel, rfl, rfl, by decide +kernel, by decide +kernel, by decide +kernel, by decide +kernel, ofSome (by decide +kernel), rfl, rfl, by decide +kernel, by decide +kernel, by unfold Chip.writable Chip.readable; decide +kernel, rfl⟩,
    ⟨(mk (Dram.gsR.getD 5 r0)), true, 0, _, _, _, _, by decide +kernel, rfl, rfl, by decide +kernel, by decide +kernel, by decide +kernel, (by decide +kernel), by decide +kernel, rfl, rfl, by decide +kernel, by decide +kernel, by unfold Chip.writable Chip.readable; decide +kernel, rfl⟩,
    ⟨(mk (Dram.gsD.getD 10 r0)), _, _, _, 63, 67, 1, by decide +kernel, ofPair (by decide +kernel), by decide +kernel, by decide +kernel, rfl, by decide +kernel⟩,
    ⟨(mk (Dram.gsD.getD 10 r0)), _, _, _, 63, [(63, 0, 1), (63, 1, 1)], by decide +kernel, ofPair (by decide +kernel), by decide +kernel, by decide +kernel, rfl, by decide +kernel⟩,
    ⟨(mk (Dram.gsD.getD 10 r0)), _, _, _, by decide +kernel, ofPair (by decide +kernel), by decide +kernel, by decide +kernel, rfl, by decide +kernel⟩,
    ⟨(mk (Dram.gsR.getD 11 r0)), by decide +kernel⟩,
    ⟨(mk (Dram.gsD.getD 0 r0)), by decide +kernel⟩,
    ⟨(mk (Dram.gsD.getD 3 r0)), by decide +kernel⟩,
    ⟨(mk (Dram.gsR.getD 9 r0)), _, by decide +kernel, ofSome (by decide +kernel), by decide +kernel⟩⟩

/-- The premises of `DramUpkeep` hold together. -/
theorem test_premises_of_DramUpkeep :
    (∃ (s : State), s.chip.awake = true) ∧
    (∃ (s : State) (b : Nat), s.chip.awake = true ∧ s.chip.dramServes = true ∧ s.chip.on R.DRC_CFG_ECC_EN = true ∧
      s.chip.rd R.DRC_CTRL_SCRUB_H ≠ 0 ∧ s.chip.drc.selfRefresh = false ∧ b = s.chip.drc.scrubPos) ∧
    (∃ (s : State), s.chip.heard = true ∧ s.chip.drc.training = none) ∧
    (∃ (s : State) (r : Bool), s.chip.awake = true ∧ s.chip.drc.training = some r) ∧
    (∃ (s : State) (ch : Nat), s.chip.awake = true ∧ s.chip.on R.DRC_CTRL_ENABLE = true ∧ ch ∈ s.chip.channels ∧
      s.chip.drc.selfRefresh = false) ∧
    (∃ (s : State) (ch : Nat), s.chip.awake = true ∧ s.chip.on R.DRC_CTRL_ENABLE = true ∧ ch ∈ s.chip.channels) ∧
    (∃ (s : State), s.chip.awake = true ∧ s.chip.on R.DRC_CTRL_ENABLE = true) ∧
    (∃ (s : State), s.chip.awake = true ∧ s.chip.drc.held = [] ∧ s.chip.drc.selfRefresh = false ∧ s.chip.drc.pairing = none) ∧
    (∃ (s : State), s.chip.awake = true ∧ (s.chip.drc.held ≠ [] ∨ s.chip.drc.selfRefresh = true ∨ s.chip.drc.pairing ≠ none)) ∧
    (∃ (s : State) (t : Nat), s.chip.awake = true ∧
      t = (match s.chip.drc.wakeAt with | some a => max s.chip.now (a + 8000) | none => s.chip.now) ∧ s.chip.drc.held = [] ∧
      s.chip.drc.selfRefresh = true) ∧
    (∃ (s : State) (t : Nat), s.chip.awake = true ∧
      t = (match s.chip.drc.wakeAt with | some a => max s.chip.now (a + 8000) | none => s.chip.now) ∧ s.chip.drc.held ≠ []) :=
  ⟨⟨(mk r0), by decide +kernel⟩,
    ⟨(mk (Dram.gsD.getD 1 r0)), _, by decide +kernel, by decide +kernel, by decide +kernel, (by decide +kernel), by decide +kernel, rfl⟩,
    ⟨(mk (Dram.gsD.getD 0 r0)), by decide +kernel⟩,
    ⟨(mk (Dram.gsU.getD 6 r0)), _, by decide +kernel, ofSome (by decide +kernel)⟩,
    ⟨(mk (Dram.gsD.getD 1 r0)), 0, by decide +kernel⟩,
    ⟨(mk (Dram.gsD.getD 1 r0)), 15, by decide +kernel⟩,
    ⟨(mk (Dram.gsD.getD 1 r0)), by decide +kernel⟩,
    ⟨(mk (Dram.gsD.getD 1 r0)), by decide +kernel⟩,
    ⟨(mk (Dram.gsD.getD 4 r0)), by decide +kernel⟩,
    ⟨(mk (Dram.gsD.getD 4 r0)), _, by decide +kernel, rfl, by decide +kernel, by decide +kernel⟩,
    ⟨(mk (Dram.dr Dram.D0 (fun d => { d with held := [.dramRead 0 0 [] []] }))), _, by decide +kernel, rfl, by decide +kernel⟩⟩

/-- The premises of `CameraFrames` hold together. -/
theorem test_premises_of_CameraFrames :
    (∃ (s : State) (rx : Nat) (vc : Nat) (p : Nat) (buf : Nat) (ready : Bool) (a : _) (hdr : _), s.chip.awake = true ∧
      s.chip.rxRuns rx = true ∧ vc ≤ 3 ∧ s.chip.pipesOf rx vc = [p] ∧ (s.chip.pipe p).frame = none ∧
      s.chip.gze.pipes.length = 16 ∧ buf = (s.chip.pipe p).nextBuf % max 1 (s.chip.pipeEntry p 0x0E) ∧
      a = s.chip.pipeEntry p 0x10 + 64 * buf ∧ devRegion a = 0 ∧ devOffset a % 64 = 0 ∧ s.chip.readable (devOffset a) 64 ∧
      ready = (leNat (s.chip.muslin.read (devOffset a) 64)).testBit 224 ∧ hdr ≠ HeaderCheck.bad) ∧
    (∃ (s : State) (rx : Nat) (vc : Nat), s.chip.awake = true ∧ s.chip.rxRuns rx = true ∧ 3 < vc) ∧
    (∃ (s : State) (rx : Nat), s.chip.awake = true ∧ s.chip.rxRuns rx = false) ∧
    (∃ (s : State) (rx : Nat) (vc : Nat) (p : Nat) (f : PipeFrame) (k : Chip), s.chip.awake = true ∧ s.chip.rxRuns rx = true ∧
      vc ≤ 3 ∧ s.chip.openPipes rx vc = [p] ∧ (s.chip.pipe p).frame = some f ∧ s.chip.gze.pipes.length = 16 ∧
      k = s.chip.under f.cfg ∧ sourceDt (k.pipeEntry p 2) ≠ 0x12 ∧ k.pipeEntry p 0x16 = 0 ∧ f.lines.length < k.pipeEntry p 4) ∧
    (∃ (s : State) (rx : Nat) (vc : Nat) (p : Nat) (payload : List Byte) (f : PipeFrame) (k : Chip) (dt : _) (crc : _) (full : _) (fn : _) (i : _), s.chip.awake = true ∧
      s.chip.rxRuns rx = true ∧ vc ≤ 3 ∧ s.chip.openPipes rx vc = [p] ∧ (s.chip.pipe p).frame = some f ∧
      s.chip.gze.pipes.length = 16 ∧ k = s.chip.under f.cfg ∧ sourceDt (k.pipeEntry p 2) ≠ 0x12 ∧ k.pipeEntry p 0x16 = 0 ∧
      f.lines.length < k.pipeEntry p 4 ∧
      i ∈ [Instr.csi2LongPacket rx vc dt payload .bad crc full, .csi2FrameStart rx vc fn .bad, .csi2FrameEnd rx vc .bad]) ∧
    (∃ (s : State) (p : Nat) (a : Nat) (b : Nat) (f : PipeFrame) (rest : List PipeFrame) (k : Chip), s.chip.awake = true ∧ p < 16 ∧
      s.chip.gze.pipes.length = 16 ∧ (s.chip.pipe p).done = f :: rest ∧ k = s.chip.under f.cfg ∧
      a = k.pipeEntry p 0x0D + f.buffer * k.pipeEntry p 0x0F ∧ b = k.pipeEntry p 0x10 + 64 * f.buffer ∧ devRegion a = 0 ∧
      devRegion b = 0 ∧ s.chip.writable (devOffset a) (s.chip.frameTensor p f).length ∧ devOffset b % 64 = 0 ∧
      s.chip.writable (devOffset b) 64 ∧ (devOffset a + (s.chip.frameTensor p f).length ≤ devOffset b ∨
      devOffset b + 64 ≤ devOffset a) ∧ s.chip.dsp.weaves = []) ∧
    (∃ (s : State) (rx : Nat), s.chip.awake = true ∧ rx < 8) :=
  ⟨⟨(mk (Camera.gs.getD 1 r0)), 0, 2, _, _, _, _, .good, by decide +kernel, by decide +kernel, by decide +kernel, ofSing (by decide +kernel), by decide +kernel, by decide +kernel, rfl, rfl, by decide +kernel, by decide +kernel, by simp only [Chip.readable]; decide +kernel, rfl, by decide +kernel⟩,
    ⟨(mk (Camera.gs.getD 1 r0)), 0, 15, by decide +kernel⟩,
    ⟨(mk (Camera.gs.getD 0 r0)), 15, by decide +kernel⟩,
    ⟨(mk (Camera.gs.getD 2 r0)), 0, 2, _, _, _, by decide +kernel, by decide +kernel, by decide +kernel, ofSing (by decide +kernel), ofSome (by decide +kernel), by decide +kernel, rfl, by decide +kernel⟩,
    ⟨(mk (Camera.gs.getD 2 r0)), 0, 2, _, [], _, _, 0, true, [], 0, (.csi2FrameEnd 0 2 .bad), by decide +kernel, by decide +kernel, by decide +kernel, ofSing (by decide +kernel), ofSome (by decide +kernel), by decide +kernel, rfl, by decide +kernel⟩,
    ⟨(mk (Camera.gs.getD 5 r0)), 0, _, _, _, _, _, by decide +kernel, by decide +kernel, by decide +kernel, ofCons (by decide +kernel), rfl, rfl, rfl, by decide +kernel, by decide +kernel, by unfold Chip.writable Chip.readable; decide +kernel, by decide +kernel, by unfold Chip.writable Chip.readable; decide +kernel, by decide +kernel⟩,
    ⟨(mk (Camera.gs.getD 0 r0)), 7, by decide +kernel⟩⟩

/-- The premises of `SensorFramesAndScans` hold together. -/
theorem test_premises_of_SensorFramesAndScans :
    (∃ (s : State) (port : Nat) (q : Nat) (frame : List Byte), s.chip.awake = true ∧ s.chip.gzeLive = true ∧ q = port % 2 ∧
      s.chip.isolated.contains (91 + q) = false ∧ 60 ≤ frame.length ∧ frame.length ≤ 9212 ∧ be16 frame 12 ≠ 0x8808 ∧
      ethParse frame = .unmatched) ∧
    (∃ (s : State) (port : Nat) (q : Nat) (frame : List Byte), s.chip.awake = true ∧ s.chip.gzeLive = true ∧ q = port % 2 ∧
      s.chip.isolated.contains (91 + q) = false ∧ 60 ≤ frame.length ∧ frame.length ≤ 9212 ∧ be16 frame 12 ≠ 0x8808 ∧
      ethParse frame = .checksum) ∧
    (∃ (s : State) (port : Nat) (q : Nat) (frame : List Byte), s.chip.awake = true ∧ s.chip.gzeLive = true ∧ q = port % 2 ∧
      s.chip.isolated.contains (91 + q) = false ∧ 60 ≤ frame.length ∧ frame.length ≤ 9212 ∧ be16 frame 12 ≠ 0x8808 ∧
      ethParse frame = .fragment) ∧
    (∃ (s : State) (port : Nat) (q : Nat) (sfd : Nat) (frame : List Byte) (f : _), s.chip.awake = true ∧ s.chip.gzeLive = true ∧
      q = port % 2 ∧ s.chip.isolated.contains (91 + q) = false ∧ 60 ≤ frame.length ∧ frame.length ≤ 9212 ∧
      be16 frame 12 ≠ 0x8808 ∧ ethParse frame = .ok f ∧ s.chip.ethFilter q sfd f = none) ∧
    (∃ (s : State) (port : Nat) (q : Nat) (sfd : Nat) (frame : List Byte) (f : _) (n : _) (a : _), s.chip.awake = true ∧
      s.chip.gzeLive = true ∧ q = port % 2 ∧ s.chip.isolated.contains (91 + q) = false ∧ 60 ≤ frame.length ∧
      frame.length ≤ 9212 ∧ be16 frame 12 ≠ 0x8808 ∧ ethParse frame = .ok f ∧ s.chip.ethFilter q sfd f = some n ∧
      (s.chip.filtUnder n sfd).filtEntry n 4 = 0 ∧ s.chip.gze.filters.length = 16 ∧ n < 16 ∧
      a = s.chip.filtEntry n 6 + ((s.chip.filt n).seq % 2 ^ s.chip.filtEntry n 7) * s.chip.filtEntry n 8 ∧ devRegion a = 0 ∧
      16 + f.bytes.length ≤ s.chip.filtEntry n 8 ∧ s.chip.writable (devOffset a) (16 + f.bytes.length) ∧
      (s.chip.filt n).seq < 2 ^ 32) ∧
    (∃ (s : State) (port : Nat) (q : Nat) (sfd : Nat) (frame : List Byte) (f : _) (n : _) (u : _), s.chip.awake = true ∧
      s.chip.gzeLive = true ∧ q = port % 2 ∧ s.chip.isolated.contains (91 + q) = false ∧ 60 ≤ frame.length ∧
      frame.length ≤ 9212 ∧ be16 frame 12 ≠ 0x8808 ∧ ethParse frame = .ok f ∧ s.chip.ethFilter q sfd f = some n ∧
      (s.chip.filtUnder n sfd).filtEntry n 4 ≠ 0 ∧ f.udp = some u ∧ s.chip.gze.filters.length = 16 ∧ n < 16 ∧
      s.chip.scanAt n sfd = none ∧ sfd < (s.chip.filt n).closedTo) ∧
    (∃ (s : State) (port : Nat) (q : Nat) (sfd : Nat) (frame : List Byte) (f : _) (n : _) (u : _) (w : _), s.chip.awake = true ∧
      s.chip.gzeLive = true ∧ q = port % 2 ∧ s.chip.isolated.contains (91 + q) = false ∧ 60 ≤ frame.length ∧
      frame.length ≤ 9212 ∧ be16 frame 12 ≠ 0x8808 ∧ ethParse frame = .ok f ∧ s.chip.ethFilter q sfd f = some n ∧
      (s.chip.filtUnder n sfd).filtEntry n 4 ≠ 0 ∧ f.udp = some u ∧ s.chip.gze.filters.length = 16 ∧ n < 16 ∧
      s.chip.scanAt n sfd = none ∧ (s.chip.filt n).closedTo ≤ sfd ∧
      (s.chip.scanWindows n).find? (fun w => decide (w.2.1 ≤ sfd) && decide (sfd < w.2.2)) = some w) ∧
    (∃ (s : State) (port : Nat) (q : Nat) (sfd : Nat) (frame : List Byte) (f : _) (n : _) (u : _), s.chip.awake = true ∧
      s.chip.gzeLive = true ∧ q = port % 2 ∧ s.chip.isolated.contains (91 + q) = false ∧ 60 ≤ frame.length ∧
      frame.length ≤ 9212 ∧ be16 frame 12 ≠ 0x8808 ∧ ethParse frame = .ok f ∧ s.chip.ethFilter q sfd f = some n ∧
      (s.chip.filtUnder n sfd).filtEntry n 4 ≠ 0 ∧ f.udp = some u ∧ s.chip.gze.filters.length = 16 ∧ n < 16 ∧
      s.chip.scanAt n sfd = none ∧ (s.chip.filt n).closedTo ≤ sfd ∧
      (s.chip.scanWindows n).find? (fun w => decide (w.2.1 ≤ sfd) && decide (sfd < w.2.2)) = none) ∧
    (∃ (s : State) (port : Nat) (q : Nat) (sfd : Nat) (frame : List Byte) (f : _) (n : _) (u : _) (x : _) (k : _) (pts : _) (base : _), s.chip.awake = true ∧
      s.chip.gzeLive = true ∧ q = port % 2 ∧ s.chip.isolated.contains (91 + q) = false ∧ 60 ≤ frame.length ∧
      frame.length ≤ 9212 ∧ be16 frame 12 ≠ 0x8808 ∧ ethParse frame = .ok f ∧ s.chip.ethFilter q sfd f = some n ∧
      (s.chip.filtUnder n sfd).filtEntry n 4 ≠ 0 ∧ f.udp = some u ∧ s.chip.gze.filters.length = 16 ∧ n < 16 ∧
      s.chip.scanAt n sfd = some x ∧ (s.chip.filt n).scans = [x] ∧ x.dropped = false ∧ k = s.chip.under x.cfg ∧
      pts = packetPoints (k.filtEntry n 0x0D) (k.filtEntry n 0x0E) u.2 ∧ x.points + pts.length ≤ k.filtEntry n 8 ∧
      base = k.filtEntry n 6 + x.buffer * (16 * k.filtEntry n 8) + 16 * x.points ∧ devRegion base = 0 ∧
      s.chip.writable (devOffset base) (16 * pts.length)) ∧
    (∃ (s : State) (port : Nat) (q : Nat), s.chip.awake = true ∧ s.chip.gzeLive = true ∧ q = port % 2 ∧
      s.chip.isolated.contains (91 + q) = false) ∧
    (∃ (s : State) (port : Nat), s.chip.awake = true ∧ (s.chip.gzeLive = false ∨ s.chip.isolated.contains (91 + port % 2) = true)) ∧
    (∃ (s : State) (n : Nat), s.chip.awake = true ∧ (s.chip.gzeLive = false ∨ (s.chip.filt n).scans = [] ∧
      s.chip.scanUnopened n = [])) ∧
    (∃ (s : State) (n : Nat) (x : ScanWindow) (k : Chip), s.chip.awake = true ∧ n < 16 ∧ s.chip.gzeLive = true ∧
      s.chip.gze.filters.length = 16 ∧ s.chip.oldestScan n = some x ∧ (∀ w,
      (s.chip.scanUnopened n).head? = some w → x.finish ≤ w.2.2) ∧ k = s.chip.under x.cfg ∧ x.dropped = true) ∧
    (∃ (s : State) (n : Nat) (x : ScanWindow) (k : Chip) (a : _), s.chip.awake = true ∧ n < 16 ∧ s.chip.gzeLive = true ∧
      s.chip.gze.filters.length = 16 ∧ s.chip.oldestScan n = some x ∧ (∀ w,
      (s.chip.scanUnopened n).head? = some w → x.finish ≤ w.2.2) ∧ k = s.chip.under x.cfg ∧ x.dropped = false ∧
      a = k.filtEntry n 9 + 64 * x.buffer ∧ devRegion a = 0 ∧ devOffset a % 64 = 0 ∧ s.chip.writable (devOffset a) 64 ∧
      s.chip.dsp.weaves = []) ∧
    (∃ (s : State) (n : Nat) (a : Nat) (b : Nat) (w : Nat × Nat × Nat), s.chip.awake = true ∧ n < 16 ∧ s.chip.gzeLive = true ∧
      s.chip.gze.filters.length = 16 ∧ (s.chip.filt n).scans = [] ∧ (s.chip.scanUnopened n).head? = some w ∧
      b = (s.chip.filt n).nextBuf % max 1 (s.chip.filtEntry n 7) ∧ a = s.chip.filtEntry n 9 + 64 * b ∧ devRegion a = 0 ∧
      devOffset a % 64 = 0 ∧ s.chip.writable (devOffset a) 64 ∧
      (leNat (s.chip.muslin.read (devOffset a) 64)).testBit 224 = false ∧ s.chip.dsp.weaves = []) :=
  ⟨⟨(mk (Sensor.gs.getD 1 r0)), 1, _, (List.replicate 12 0xaa#8 ++ [0x81#8, 0x00#8, 0x00#8, 0x05#8, 0x81#8, 0x00#8, 0x99#8, 0x99#8] ++ List.replicate 46 0x03#8), by decide +kernel, by decide +kernel, rfl, by decide +kernel⟩,
    ⟨(mk (Sensor.gs.getD 1 r0)), 1, _, (List.replicate 12 0xaa#8 ++ [0x08#8, 0x00#8, 0x45#8, 0x00#8, 0x00#8, 0x4c#8, 0x00#8, 0x00#8, 0x00#8, 0x00#8, 0x40#8, 0x11#8, 0x66#8, 0xa0#8, 0x0a#8, 0x00#8, 0x00#8, 0x01#8, 0x0a#8, 0x00#8, 0x00#8, 0x02#8, 0x03#8, 0xe8#8, 0x07#8, 0xd0#8, 0x00#8, 0x38#8, 0x00#8, 0x00#8, 0x00#8, 0x00#8, 0x80#8, 0x3f#8, 0x00#8, 0x00#8, 0x00#8, 0x40#8, 0x00#8, 0x00#8, 0x40#8, 0x40#8, 0x4d#8] ++ List.replicate 15 0x00#8 ++ [0x05#8, 0x00#8, 0x00#8, 0x00#8, 0x00#8, 0x00#8, 0x80#8, 0xbf#8] ++ List.replicate 6 0x00#8 ++ [0xc0#8, 0x7f#8, 0xff#8, 0xff#8, 0x00#8, 0x00#8]), by decide +kernel, by decide +kernel, rfl, by decide +kernel⟩,
    ⟨(mk (Sensor.gs.getD 1 r0)), 1, _, (List.replicate 12 0xaa#8 ++ [0x08#8, 0x00#8, 0x45#8, 0x00#8, 0x00#8, 0x4c#8, 0x00#8, 0x00#8, 0x00#8, 0x01#8, 0x40#8, 0x11#8, 0x66#8, 0x9e#8, 0x0a#8, 0x00#8, 0x00#8, 0x01#8, 0x0a#8, 0x00#8, 0x00#8, 0x02#8, 0x03#8, 0xe8#8, 0x07#8, 0xd0#8, 0x00#8, 0x38#8, 0x00#8, 0x00#8, 0x00#8, 0x00#8, 0x80#8, 0x3f#8, 0x00#8, 0x00#8, 0x00#8, 0x40#8, 0x00#8, 0x00#8, 0x40#8, 0x40#8, 0x4d#8] ++ List.replicate 15 0x00#8 ++ [0x05#8, 0x00#8, 0x00#8, 0x00#8, 0x00#8, 0x00#8, 0x80#8, 0xbf#8] ++ List.replicate 6 0x00#8 ++ [0xc0#8, 0x7f#8, 0xff#8, 0xff#8, 0x00#8, 0x00#8]), by decide +kernel, by decide +kernel, rfl, by decide +kernel⟩,
    ⟨(mk (Sensor.gs.getD 1 r0)), 1, _, 5, (Sensor.rawf), _, by decide +kernel, by decide +kernel, rfl, by decide +kernel, by decide +kernel, by decide +kernel, by decide +kernel, ofOk (by decide +kernel), by decide +kernel⟩,
    ⟨(mk (Sensor.gs.getD 1 r0)), 0, _, 5, (Sensor.rawf), _, _, _, by decide +kernel, by decide +kernel, rfl, by decide +kernel, by decide +kernel, by decide +kernel, by decide +kernel, ofOk (by decide +kernel), ofSome (by decide +kernel), by decide +kernel, by decide +kernel, by decide +kernel, rfl, by decide +kernel, by decide +kernel, by unfold Chip.writable Chip.readable; decide +kernel, by decide +kernel⟩,
    ⟨(mk (Sensor.fl.getD 7 r0)), 0, _, 100, (Sensor.ipf Sensor.pay), _, _, _, by decide +kernel, by decide +kernel, rfl, by decide +kernel, by decide +kernel, by decide +kernel, by decide +kernel, ofOk (by decide +kernel), ofSome (by decide +kernel), by decide +kernel, ofSome (by decide +kernel), by decide +kernel⟩,
    ⟨(mk (Sensor.gs.getD 1 r0)), 0, _, 100, (Sensor.ipf Sensor.pay), _, _, _, _, by decide +kernel, by decide +kernel, rfl, by decide +kernel, by decide +kernel, by decide +kernel, by decide +kernel, ofOk (by decide +kernel), ofSome (by decide +kernel), by decide +kernel, ofSome (by decide +kernel), by decide +kernel, by decide +kernel, by decide +kernel, by decide +kernel, ofSome (by decide +kernel)⟩,
    ⟨(mk (Sensor.gs.getD 1 r0)), 0, _, 5, (Sensor.ipf Sensor.pay), _, _, _, by decide +kernel, by decide +kernel, rfl, by decide +kernel, by decide +kernel, by decide +kernel, by decide +kernel, ofOk (by decide +kernel), ofSome (by decide +kernel), by decide +kernel, ofSome (by decide +kernel), by decide +kernel, by decide +kernel, by decide +kernel, (by decide +kernel), by decide +kernel⟩,
    ⟨(mk (Sensor.fl.getD 2 r0)), 0, _, 200, (Sensor.ipf Sensor.pay), _, _, _, _, _, _, _, by decide +kernel, by decide +kernel, rfl, by decide +kernel, by decide +kernel, by decide +kernel, by decide +kernel, ofOk (by decide +kernel), ofSome (by decide +kernel), by decide +kernel, ofSome (by decide +kernel), by decide +kernel, by decide +kernel, ofSome (by decide +kernel), by decide +kernel, by decide +kernel, rfl, rfl, by decide +kernel, rfl, by decide +kernel, by unfold Chip.writable Chip.readable; decide +kernel⟩,
    ⟨(mk (Sensor.gs.getD 1 r0)), 0, _, by decide +kernel, by decide +kernel, rfl, by decide +kernel⟩,
    ⟨(mk r0), 0, by decide +kernel⟩,
    ⟨(mk r0), 0, by decide +kernel⟩,
    ⟨(mk (Sensor.fl2.getD 1 r0)), 1, _, _, by decide +kernel, by decide +kernel, by decide +kernel, by decide +kernel, ofSome (by decide +kernel), by decide +kernel, rfl, by decide +kernel⟩,
    ⟨(mk (Sensor.fl.getD 2 r0)), 1, _, _, _, by decide +kernel, by decide +kernel, by decide +kernel, by decide +kernel, ofSome (by decide +kernel), by decide +kernel, rfl, by decide +kernel, rfl, by decide +kernel, by decide +kernel, by unfold Chip.writable Chip.readable; decide +kernel, by decide +kernel⟩,
    ⟨(mk (Sensor.gs.getD 1 r0)), 1, _, _, _, by decide +kernel, by decide +kernel, by decide +kernel, (by decide +kernel), by decide +kernel, ofSome (by decide +kernel), rfl, rfl, by decide +kernel, by decide +kernel, by unfold Chip.writable Chip.readable; decide +kernel, by decide +kernel⟩⟩

/-- The premises of `SpiAndTriggers` hold together. -/
theorem test_premises_of_SpiAndTriggers :
    (∃ (s : State) (p : Nat) (t : Nat) (q : SpiState) (r : Bool) (i : _) (after : _), s.chip.awake = true ∧
      s.chip.gze.spi[p]? = some q ∧ ((i = Instr.spiDrdyEdge p r ∧ s.chip.spiOn p (if r = true then 0 else 1) = true ∧
      t = s.chip.now ∧ after = q.after) ∨ (i = .spiTimedStart p ∧ s.chip.spiNext p = some t ∧ after = t + 1)) ∧
      q.running = none) ∧
    (∃ (s : State) (p : Nat) (t : Nat) (q : SpiState) (r : Bool) (i : _) (after : _), s.chip.awake = true ∧
      s.chip.gze.spi[p]? = some q ∧ ((i = Instr.spiDrdyEdge p r ∧ s.chip.spiOn p (if r = true then 0 else 1) = true ∧
      t = s.chip.now ∧ after = q.after) ∨ (i = .spiTimedStart p ∧ s.chip.spiNext p = some t ∧ after = t + 1)) ∧
      q.running ≠ none) ∧
    (∃ (s : State) (p : Nat) (r : Bool), s.chip.awake = true ∧ s.chip.spiOn p (if r = true then 0 else 1) = false) ∧
    (∃ (s : State) (p : Nat), s.chip.awake = true ∧ s.chip.spiNext p = none) ∧
    (∃ (s : State) (p : Nat) (start : Nat) (seq : Nat) (after : Nat) (a : Nat) (cfg : Table Nat) (e : Nat → Nat) (data : List Byte), s.chip.awake = true ∧
      p < 2 ∧ s.chip.gze.spi[p]? = some ⟨some (start, cfg), seq, after⟩ ∧
      e = (fun x => (s.chip.under cfg).entry (0x3CA0 + p) x) ∧ a = e 0x0A + 64 * (seq % 2 ^ e 0x0B) ∧ devRegion a = 0 ∧
      devOffset a % 64 = 0 ∧ s.chip.writable (devOffset a) 64 ∧ data.length = e 9 ∧ e 9 ≤ 48 ∧ seq < 2 ^ 32) ∧
    (∃ (s : State) (g : Nat) (t : Nat) (n : Nat), s.chip.awake = true ∧ s.chip.gzeLive = true ∧ g < 4 ∧
      s.chip.entryOn (0x3C00 + g) 1 = true ∧ s.chip.gze.groups.length = 4 ∧ s.chip.gze.outputs.length = 16 ∧
      t = s.chip.gridNext (gridTrig g) (s.chip.trigRule g) ∧ n = (s.chip.trig g).number) ∧
    (∃ (s : State) (k : Nat) (t : Nat) (o : TrigOut) (rest : List Nat), s.chip.awake = true ∧ s.chip.gze.outputs[k]? = some o ∧
      o.waiting = t :: rest) ∧
    (∃ (s : State) (k : Nat) (t : Nat) (o : TrigOut), s.chip.awake = true ∧ s.chip.gze.outputs[k]? = some o ∧ o.endsAt = some t) :=
  ⟨⟨(mk (Spi.gs.getD 1 r0)), 1, _, _, true, (.spiTimedStart 1), _, by decide +kernel, ofSome (by decide +kernel), Or.inr ⟨rfl, ofSome (by decide +kernel), rfl⟩, by decide +kernel⟩,
    ⟨(mk (Spi.gs.getD 2 r0)), 0, _, _, true, (.spiDrdyEdge 0 true), _, by decide +kernel, ofSome (by decide +kernel), Or.inl ⟨rfl, by decide +kernel, rfl, rfl⟩, by decide +kernel⟩,
    ⟨(mk (Spi.gs.getD 1 r0)), 0, false, by decide +kernel⟩,
    ⟨(mk r0), 0, by decide +kernel⟩,
    ⟨(mk (Spi.gs.getD 2 r0)), 0, 0, 0, 0, _, [(3932417, 1), (3932418, 100), (3932419, 5000), (3936257, 1), (3936258, 1), (3936259, 2), (3936260, 300), (3936261, 400), (3940097, 1), (3940098, 1), (3940099, 0), (3940100, 30), (3940101, 40), (3973121, 1), (3973123, 1000), (3973124, 0), (3973128, 2), (3973129, 6), (3973130, 16384), (3973131, 4), (3973377, 1), (3973379, 1000), (3973380, 3), (3973384, 2), (3973385, 48), (3973386, 32768), (3973387, 4)], _, (List.replicate 6 9), by decide +kernel, by decide +kernel, by decide +kernel, rfl, rfl, by decide +kernel, by decide +kernel, by unfold Chip.writable Chip.readable; decide +kernel, by decide +kernel⟩,
    ⟨(mk (Spi.gs.getD 1 r0)), 1, _, _, by decide +kernel, by decide +kernel, by decide +kernel, (by decide +kernel), by decide +kernel, by decide +kernel, rfl, rfl⟩,
    ⟨(mk (Spi.gs.getD 6 r0)), 15, _, _, _, by decide +kernel, ofSome (by decide +kernel), ofCons (by decide +kernel)⟩,
    ⟨(mk (Spi.gs.getD 8 r0)), 0, _, _, by decide +kernel, ofSome (by decide +kernel), ofSome (by decide +kernel)⟩⟩

/-- The premises of `TrackCommands` hold together. -/
theorem test_premises_of_TrackCommands :
    (∃ (s : State) (t : BitVec 16) (op : Nat) (i : _), s.chip.heard = true ∧ ((i = Instr.trackDelete t ∧ op = 1) ∨
      (i = .trackConfirm t ∧ op = 2)) ∧ s.chip.on R.TWD_TRACK_CMD_BUSY = true) ∧
    (∃ (s : State) (t : BitVec 16) (op : Nat) (i : _), s.chip.heard = true ∧ ((i = Instr.trackDelete t ∧ op = 1) ∨
      (i = .trackConfirm t ∧ op = 2)) ∧ s.chip.on R.TWD_TRACK_CMD_BUSY = false ∧ s.chip.tweedBusy = true) ∧
    (∃ (s : State) (i : Instr) (id : Nat) (op : Nat), s.chip.heard = true ∧ s.chip.tweedBusy = false ∧
      (s.chip.on R.TWD_TRACK_CMD_BUSY = false ∧ ((∃ t, i = .trackDelete t ∧ id = t.toNat ∧ op = 1) ∨
      (∃ t, i = .trackConfirm t ∧ id = t.toNat ∧ op = 2)) ∨ i = .trackCmdDeferredApply ∧ s.chip.twd.cmd = some (id, op)) ∧
      (s.chip.on R.TWD_STATUS_MODE || s.chip.on R.TWD_STATUS_TABLE_TORN) = true) ∧
    (∃ (s : State) (i : Instr) (id : Nat) (op : Nat) (a : Nat) (x : Nat), s.chip.heard = true ∧
      (s.chip.on R.TWD_TRACK_CMD_BUSY = false ∧ ((∃ t, i = .trackDelete t ∧ id = t.toNat ∧ op = 1) ∨
      (∃ t, i = .trackConfirm t ∧ id = t.toNat ∧ op = 2)) ∨ i = .trackCmdDeferredApply ∧ s.chip.twd.cmd = some (id, op) ∧
      (op = 1 ∨ op = 2)) ∧ s.chip.on R.TWD_STATUS_MODE = false ∧ s.chip.on R.TWD_STATUS_TABLE_TORN = false ∧
      s.chip.tweedBusy = false ∧ a = s.chip.trackAddr (id % 4096) ∧ devRegion a = 0 ∧ devOffset a % 64 = 0 ∧
      s.chip.writable (devOffset a) 64 ∧ x = leNat (s.chip.muslin.read (devOffset a) 64) ∧ (trkState x = 0 ∨
      trkGen x ≠ id / 4096)) ∧
    (∃ (s : State) (i : Instr) (id : Nat) (op : Nat) (a : Nat) (x : Nat), s.chip.heard = true ∧
      (s.chip.on R.TWD_TRACK_CMD_BUSY = false ∧ ((∃ t, i = .trackDelete t ∧ id = t.toNat ∧ op = 1) ∨
      (∃ t, i = .trackConfirm t ∧ id = t.toNat ∧ op = 2)) ∨ i = .trackCmdDeferredApply ∧ s.chip.twd.cmd = some (id, op) ∧
      (op = 1 ∨ op = 2)) ∧ s.chip.on R.TWD_STATUS_MODE = false ∧ s.chip.on R.TWD_STATUS_TABLE_TORN = false ∧
      s.chip.tweedBusy = false ∧ a = s.chip.trackAddr (id % 4096) ∧ devRegion a = 0 ∧ devOffset a % 64 = 0 ∧
      s.chip.writable (devOffset a) 64 ∧ x = leNat (s.chip.muslin.read (devOffset a) 64) ∧ trkState x ≠ 0 ∧
      trkGen x = id / 4096 ∧ op = 2 ∧ trkState x ≠ 1) ∧
    (∃ (s : State) (i : Instr) (id : Nat) (op : Nat) (a : Nat) (x : Nat), s.chip.heard = true ∧
      (s.chip.on R.TWD_TRACK_CMD_BUSY = false ∧ ((∃ t, i = .trackDelete t ∧ id = t.toNat ∧ op = 1) ∨
      (∃ t, i = .trackConfirm t ∧ id = t.toNat ∧ op = 2)) ∨ i = .trackCmdDeferredApply ∧ s.chip.twd.cmd = some (id, op) ∧
      (op = 1 ∨ op = 2)) ∧ s.chip.on R.TWD_STATUS_MODE = false ∧ s.chip.on R.TWD_STATUS_TABLE_TORN = false ∧
      s.chip.tweedBusy = false ∧ a = s.chip.trackAddr (id % 4096) ∧ devRegion a = 0 ∧ devOffset a % 64 = 0 ∧
      s.chip.writable (devOffset a) 64 ∧ x = leNat (s.chip.muslin.read (devOffset a) 64) ∧ trkState x ≠ 0 ∧
      trkGen x = id / 4096 ∧ (op = 1 ∨ trkState x = 1)) ∧
    (∃ (s : State), s.chip.awake = true ∧ s.chip.tweedBusy = true) :=
  ⟨⟨(mk (Tweed.gs.getD 4 r0)), 0x3000#16, 1, (Sys2Proof.Instr.trackDelete 0x3000#16), by decide +kernel⟩,
    ⟨(mk (Tweed.gs.getD 7 r0)), 0x3000, 1, (.trackDelete 0x3000), by decide +kernel⟩,
    ⟨(mk (Tweed.gs.getD 5 r0)), (.trackDelete 0x3000), 0x3000, 1, by decide +kernel, by decide +kernel, Or.inl ⟨by decide +kernel, Or.inl ⟨_, rfl, rfl, rfl⟩⟩, by decide +kernel⟩,
    ⟨(mk (Tweed.gs.getD 0 r0)), (Sys2Proof.Instr.trackDelete 0x0003#16), 3, 1, _, _, by decide +kernel, Or.inl ⟨by decide +kernel, Or.inl ⟨_, rfl, rfl, rfl⟩⟩, by decide +kernel, by decide +kernel, by decide +kernel, rfl, by decide +kernel, by decide +kernel, by unfold Chip.writable Chip.readable; decide +kernel, rfl, by decide +kernel⟩,
    ⟨(mk (Tweed.gs.getD 0 r0)), (Sys2Proof.Instr.trackConfirm 0x3001#16), 12289, _, _, _, by decide +kernel, Or.inl ⟨by decide +kernel, Or.inr ⟨_, rfl, rfl, rfl⟩⟩, by decide +kernel, by decide +kernel, by decide +kernel, rfl, by decide +kernel, by decide +kernel, by unfold Chip.writable Chip.readable; decide +kernel, rfl, by decide +kernel, by decide +kernel, rfl, by decide +kernel⟩,
    ⟨(mk (Tweed.gs.getD 0 r0)), (Sys2Proof.Instr.trackDelete 0x3000#16), 12288, 1, _, _, by decide +kernel, Or.inl ⟨by decide +kernel, Or.inl ⟨_, rfl, rfl, rfl⟩⟩, by decide +kernel, by decide +kernel, by decide +kernel, rfl, by decide +kernel, by decide +kernel, by unfold Chip.writable Chip.readable; decide +kernel, rfl, by decide +kernel⟩,
    ⟨(mk (Tweed.gs.getD 7 r0)), by decide +kernel⟩⟩

/-- The premises of `TulleService` hold together. -/
theorem test_premises_of_TulleService :
    (∃ (s : State), s.chip.heard = true ∧ s.chip.on R.TUL_CTRL_ENABLE = true) ∧
    (∃ (s : State), s.chip.heard = true ∧ s.chip.on R.TUL_CTRL_ENABLE = false) ∧
    (∃ (s : State) (n : Nat) (off : Nat), s.chip.awake = true ∧ s.chip.tul.building = true ∧ s.chip.on R.TUL_CTRL_ENABLE = true ∧
      n = listingsOf (s.chip.objects s.chip.world) ∧ off = s.chip.tulBase 4 ∧ s.chip.writable off 4194304 ∧ n ≤ 1040384) ∧
    (∃ (s : State) (n : Nat) (off : Nat), s.chip.awake = true ∧ s.chip.tul.building = true ∧ s.chip.on R.TUL_CTRL_ENABLE = true ∧
      n = listingsOf (s.chip.objects s.chip.world) ∧ off = s.chip.tulBase 4 ∧ s.chip.writable off 4194304 ∧ 1040384 < n) ∧
    (∃ (s : State) (o : OpRun) (f : PlanRun), s.chip.awake = true ∧ s.chip.op? 22 = some o ∧ s.chip.planRun? o = some f ∧
      f.phase = 1 ∧ (planPar o.raw).budget ≠ 0) :=
  ⟨⟨(mk (Tulle.gs.getD 1 r0)), by decide +kernel⟩,
    ⟨(mk (Tulle.gs.getD 0 r0)), by decide +kernel⟩,
    ⟨mk (Tulle.on r0), _, _, by decide +kernel, by decide +kernel, by decide +kernel, rfl, rfl, by simp only [Chip.writable, Chip.readable]; decide +kernel, by rw [objects_empty _ rfl]; decide⟩,
    ⟨mk (Tulle.full r0), _, _, by decide +kernel, by decide +kernel, by decide +kernel, rfl, rfl, by simp only [Chip.writable, Chip.readable]; decide +kernel, listings_full⟩,
    ⟨(mk (Tulle.gs.getD 2 r0)), _, _, by decide +kernel, ofSome (by decide +kernel), ofSome (by decide +kernel), by decide +kernel⟩⟩

/-- The premises of `CanvasService` hold together. -/
theorem test_premises_of_CanvasService :
    (∃ (s : State) (k : Nat) (force : Bool) (st : Nat) (i : _), s.chip.heard = true ∧ k < 2 ∧ s.chip.cnv.length = 2 ∧
      st = s.chip.rd (R.CNV_STATUS_STATE.inst k) ∧ s.chip.on (R.CNV_SVC_CMD_BUSY.inst k) = true ∧
      (i = Instr.cnvRemove k force ∨ i = .cnvTest k ∨ i = .cnvReturn k)) ∧
    (∃ (s : State) (k : Nat) (st : Nat), s.chip.heard = true ∧ k < 2 ∧ s.chip.cnv.length = 2 ∧
      st = s.chip.rd (R.CNV_STATUS_STATE.inst k) ∧ s.chip.on (R.CNV_SVC_CMD_BUSY.inst k) = false ∧ st ≠ cvIn) ∧
    (∃ (s : State) (k : Nat) (st : Nat), s.chip.heard = true ∧ k < 2 ∧ s.chip.cnv.length = 2 ∧
      st = s.chip.rd (R.CNV_STATUS_STATE.inst k) ∧ s.chip.on (R.CNV_SVC_CMD_BUSY.inst k) = false ∧ st ≠ cvOut ∧ st ≠ cvFailed) ∧
    (∃ (s : State) (k : Nat) (st : Nat), s.chip.heard = true ∧ k < 2 ∧ s.chip.cnv.length = 2 ∧
      st = s.chip.rd (R.CNV_STATUS_STATE.inst k) ∧ s.chip.on (R.CNV_SVC_CMD_BUSY.inst k) = false ∧
      s.chip.on (R.CNV_STATUS_TEST_PASS.inst k) = false) ∧
    (∃ (s : State) (k : Nat) (force : Bool) (st : Nat), s.chip.heard = true ∧ k < 2 ∧ s.chip.cnv.length = 2 ∧
      st = s.chip.rd (R.CNV_STATUS_STATE.inst k) ∧ s.chip.on (R.CNV_SVC_CMD_BUSY.inst k) = false ∧ st = cvIn ∧
      s.chip.canvasIn (1 - k) = false ∧ force = false) ∧
    (∃ (s : State) (k : Nat) (force : Bool) (st : Nat), s.chip.heard = true ∧ k < 2 ∧ s.chip.cnv.length = 2 ∧
      st = s.chip.rd (R.CNV_STATUS_STATE.inst k) ∧ s.chip.on (R.CNV_SVC_CMD_BUSY.inst k) = false ∧ st = cvIn ∧
      s.chip.canvasIn (1 - k) = true ∧ force = false) ∧
    (∃ (s : State) (k : Nat) (force : Bool) (st : Nat), s.chip.heard = true ∧ k < 2 ∧ s.chip.cnv.length = 2 ∧
      st = s.chip.rd (R.CNV_STATUS_STATE.inst k) ∧ s.chip.on (R.CNV_SVC_CMD_BUSY.inst k) = false ∧ st = cvIn ∧ force = true) ∧
    (∃ (s : State) (k : Nat) (st : Nat), s.chip.heard = true ∧ k < 2 ∧ s.chip.cnv.length = 2 ∧
      st = s.chip.rd (R.CNV_STATUS_STATE.inst k) ∧ s.chip.on (R.CNV_SVC_CMD_BUSY.inst k) = false ∧ (st = cvOut ∨
      st = cvFailed)) ∧
    (∃ (s : State) (k : Nat) (st : Nat), s.chip.heard = true ∧ k < 2 ∧ s.chip.cnv.length = 2 ∧
      st = s.chip.rd (R.CNV_STATUS_STATE.inst k) ∧ s.chip.on (R.CNV_SVC_CMD_BUSY.inst k) = false ∧ (st = cvOut ∨
      st = cvFailed) ∧ s.chip.on (R.CNV_STATUS_TEST_PASS.inst k) = true) ∧
    (∃ (s : State) (k : Nat) (st : Nat) (t : Nat) (f : Bool), s.chip.awake = true ∧ k < 2 ∧ s.chip.cnv.length = 2 ∧
      s.chip.rd (R.CNV_STATUS_STATE.inst k) = cvDraining ∧ s.chip.op? (23 + k) = none ∧
      (∀ o ∈ s.chip.dsp.suspended, o.unit ≠ 23 + k) ∧ (s.chip.cnvInst k).service = some (1, f, st, t)) ∧
    (∃ (s : State) (k : Nat) (st : Nat) (t : Nat) (f : Bool), s.chip.awake = true ∧ k < 2 ∧ s.chip.cnv.length = 2 ∧
      (s.chip.cnvInst k).service = some (2, f, st, t) ∧ st < 8) :=
  ⟨⟨(mk (Canvas.gs.getD 8 r0)), 1, true, _, (Sys2Proof.Instr.cnvRemove 1 true), by decide +kernel, by decide +kernel, by decide +kernel, rfl, by decide +kernel⟩,
    ⟨(mk (Canvas.gs.getD 3 r0)), 1, _, by decide +kernel, by decide +kernel, by decide +kernel, rfl, by decide +kernel⟩,
    ⟨(mk (Canvas.gs.getD 0 r0)), 1, _, by decide +kernel, by decide +kernel, by decide +kernel, rfl, by decide +kernel⟩,
    ⟨(mk (Canvas.gs.getD 0 r0)), 1, _, by decide +kernel, by decide +kernel, by decide +kernel, rfl, by decide +kernel⟩,
    ⟨(mk (Canvas.gs.getD 3 r0)), 0, _, _, by decide +kernel, by decide +kernel, by decide +kernel, (by decide +kernel), by decide +kernel, rfl, by decide +kernel, rfl⟩,
    ⟨(mk (Canvas.gs.getD 0 r0)), 1, _, _, by decide +kernel, by decide +kernel, by decide +kernel, (by decide +kernel), by decide +kernel, rfl, by decide +kernel, rfl⟩,
    ⟨(mk (Canvas.gs.getD 0 r0)), 1, _, _, by decide +kernel, by decide +kernel, by decide +kernel, (by decide +kernel), by decide +kernel, rfl, rfl⟩,
    ⟨(mk (Canvas.gs.getD 9 r0)), 0, _, by decide +kernel, by decide +kernel, by decide +kernel, rfl, by decide +kernel⟩,
    ⟨(mk (Canvas.gs.getD 9 r0)), 0, _, by decide +kernel, by decide +kernel, by decide +kernel, rfl, by decide +kernel⟩,
    ⟨(mk (Canvas.gs.getD 13 r0)), 0, 0, 77, false, by decide +kernel⟩,
    ⟨(mk (Canvas.gs.getD 15 r0)), 1, 2, 77, false, by decide +kernel⟩⟩

/-- The premises of `JerseyTicks` hold together. -/
theorem test_premises_of_JerseyTicks :
    (∃ (s : State), s.chip.awake = true ∧ s.chip.on R.JRS_CTRL_ENABLE = false) ∧
    (∃ (s : State) (k : Nat) (t : Nat), s.chip.awake = true ∧ s.chip.on R.JRS_CTRL_ENABLE = true ∧ k = s.chip.jrsNextTick ∧
      t = k * s.chip.jrsBase) ∧
    (∃ (l : LaneSection) (sp : Int × Nat) (fb : Int × Nat) (s1 : Int) (s2 : Int) (s3 : Int) (r : _), l.outMin ≤ l.outMax ∧
      r = l.sample sp fb s1 s2 s3 ∧ l.order = 3) ∧
    (∃ (l : LaneSection) (sp : Int × Nat) (fb : Int × Nat) (s1 : Int) (s2 : Int) (s3 : Int) (r : _), l.outMin ≤ l.outMax ∧
      r = l.sample sp fb s1 s2 s3 ∧ l.order ≠ 3) ∧
    (∃ (l : LaneSection) (sp : Int × Nat) (fb : Int × Nat) (s1 : Int) (s2 : Int) (s3 : Int) (r : _), l.outMin ≤ l.outMax ∧
      r = l.sample sp fb s1 s2 s3) :=
  ⟨⟨(mk (Jersey.gs.getD 0 r0)), by decide +kernel⟩,
    ⟨(mk (Jersey.gs.getD 1 r0)), _, _, by decide +kernel, by decide +kernel, rfl, rfl⟩,
    ⟨{ order := 3, rs := 31, rc := 24, coef := ([16777216] ++ List.replicate 6 0), fbGain := 268435456, spMin := -1000, spMax := 1000000, outMin := -500000, outMax := 500000, clampFb := true }, (0, 0), (0, 0), 0, 0, 0, _, by decide +kernel, rfl, by decide +kernel⟩,
    ⟨{ order := 2, rs := 31, rc := 24, coef := ([16777216] ++ List.replicate 6 0), fbGain := 268435456, spMin := -1000, spMax := 1000000, outMin := -500000, outMax := 500000, clampFb := true }, (0, 0), (0, 0), 0, 0, 0, _, by decide +kernel, rfl, by decide +kernel⟩,
    ⟨{ order := 3, rs := 31, rc := 24, coef := ([16777216] ++ List.replicate 6 0), fbGain := 268435456, spMin := -1000, spMax := 1000000, outMin := -500000, outMax := 500000, clampFb := true }, (0, 0), (0, 0), 0, 0, 0, _, by decide +kernel, rfl⟩⟩

/-- The premises of `JerseyInputsAndPins` hold together. -/
theorem test_premises_of_JerseyInputsAndPins :
    (∃ (s : State) (slot : Nat) (sub : Nat) (qn : Nat) (e : Nat) (q : Queue), s.chip.awake = true ∧ sub = slot % 8 + 1 ∧
      qn = s.chip.entry 0x4C01 sub ∧ qn ≠ 0xFFFF ∧ s.chip.queue? qn = some q ∧ q.kind = 3 ∧ q.consumer = 2 ∧ q.level ≠ 0 ∧
      s.chip.readable (devOffset (q.slot q.consumed)) 64 ∧ e = leNat (s.chip.muslin.read (devOffset (q.slot q.consumed)) 64) ∧
      (bits e 8 4 = 0 ∨ bits e 8 4 = 15 ∨ 256 < bits e 0 8 + bits e 8 4)) ∧
    (∃ (s : State) (slot : Nat) (sub : Nat) (qn : Nat) (e : Nat) (q : Queue), s.chip.awake = true ∧ sub = slot % 8 + 1 ∧
      qn = s.chip.entry 0x4C01 sub ∧ qn ≠ 0xFFFF ∧ s.chip.queue? qn = some q ∧ q.kind = 3 ∧ q.consumer = 2 ∧ q.level ≠ 0 ∧
      s.chip.readable (devOffset (q.slot q.consumed)) 64 ∧ e = leNat (s.chip.muslin.read (devOffset (q.slot q.consumed)) 64) ∧
      bits e 8 4 ≠ 0 ∧ bits e 8 4 ≠ 15 ∧ bits e 0 8 + bits e 8 4 ≤ 256) ∧
    (∃ (s : State) (pin : Nat) (n : Nat) (t : Nat), s.chip.awake = true ∧ s.chip.on R.JRS_CTRL_ENABLE = true ∧ n = pin % 48 ∧
      s.chip.pwmCfg n 1 ≠ 0 ∧ t = s.chip.gridNext (gridPwm n) (s.chip.pwmRule n)) ∧
    (∃ (s : State) (input : Nat) (i : Nat) (old : _) (n : _), s.chip.awake = true ∧ s.chip.on R.JRS_CTRL_ENABLE = true ∧
      i = input % 16 ∧ s.chip.entry (0x4C20 + i) 1 ≠ 0 ∧ s.chip.jrs.pulse.length = 16 ∧
      old = nth s.chip.jrs.pulse i (false, false) ∧ n = s.chip.rd R.JRS_PULSE_CNT_COUNT i) ∧
    (∃ (s : State), s.chip.heard = true ∧ s.chip.on R.JRS_CTRL_ENABLE = true) :=
  ⟨⟨(mk (Jersey.gs2.getD 9 r0)), 200, _, _, _, _, by decide +kernel, rfl, rfl, by decide +kernel, ofSome (by decide +kernel), by decide +kernel, by decide +kernel, by decide +kernel, by simp only [Chip.readable]; decide +kernel, rfl, by decide +kernel⟩,
    ⟨(mk (Jersey.gs2.getD 8 r0)), 200, _, _, _, _, by decide +kernel, rfl, rfl, by decide +kernel, ofSome (by decide +kernel), by decide +kernel, by decide +kernel, by decide +kernel, by simp only [Chip.readable]; decide +kernel, rfl, by decide +kernel⟩,
    ⟨(mk (Jersey.gs.getD 8 r0)), 1, _, _, by decide +kernel, by decide +kernel, rfl, by decide +kernel, rfl⟩,
    ⟨(mk (Jersey.gs2.getD 14 r0)), 255, _, _, _, by decide +kernel, by decide +kernel, rfl, by decide +kernel, by decide +kernel, rfl, rfl⟩,
    ⟨(mk (Jersey.gs.getD 1 r0)), by decide +kernel⟩⟩

/-- The premises of `SpareLanes` hold together. -/
theorem test_premises_of_SpareLanes :
    (∃ (s : State) (lane : BitVec 8) (n : Nat), s.chip.heard = true ∧ n = lane.toNat ∧ s.chip.jrs.swap ≠ none) ∧
    (∃ (s : State) (lane : BitVec 8) (n : Nat), s.chip.heard = true ∧ n = lane.toNat ∧ s.chip.jrs.swap = none ∧
      s.chip.laneCfg n 1 = 0) ∧
    (∃ (s : State) (lane : BitVec 8) (n : Nat), s.chip.heard = true ∧ n = lane.toNat ∧ s.chip.jrs.swap = none ∧
      s.chip.laneCfg n 1 ≠ 0 ∧ (s.chip.on R.JRS_SPARE_IN_USE (n % 16) || s.chip.on R.JRS_SPARE_SPARE_BAD (n % 16)) = true) ∧
    (∃ (s : State) (lane : BitVec 8) (n : Nat), s.chip.heard = true ∧ n = lane.toNat ∧ s.chip.jrs.swap = none ∧
      s.chip.laneCfg n 1 ≠ 0 ∧ s.chip.on R.JRS_SPARE_IN_USE (n % 16) = false ∧
      s.chip.on R.JRS_SPARE_SPARE_BAD (n % 16) = false) ∧
    (∃ (s : State) (n : Nat) (t : Nat), s.chip.awake = true ∧ s.chip.jrs.swap = some (n, t, 0) ∧ n < 256) ∧
    (∃ (s : State) (n : Nat) (t : Nat), s.chip.awake = true ∧ s.chip.jrs.swap = some (n, t, 1) ∧
      s.chip.on R.JRS_CTRL_ENABLE = true ∧ s.chip.laneNext n < s.chip.now + 3000) ∧
    (∃ (s : State) (n : Nat) (t : Nat), s.chip.awake = true ∧ s.chip.jrs.swap = some (n, t, 1) ∧
      (s.chip.on R.JRS_CTRL_ENABLE = false ∨ s.chip.now + 3000 ≤ s.chip.laneNext n)) ∧
    (∃ (s : State) (n : Nat) (t : Nat), s.chip.awake = true ∧ s.chip.jrs.swap = some (n, t, 2) ∧ n < 256) :=
  ⟨⟨(mk (Jersey.gs3.getD 3 r0)), 0x00#8, _, by decide +kernel, rfl, by decide +kernel⟩,
    ⟨(mk (Jersey.gs.getD 0 r0)), 0x00#8, _, by decide +kernel, rfl, by decide +kernel, by decide +kernel⟩,
    ⟨(mk (Jersey.gs3.getD 11 r0)), 0x03#8, _, by decide +kernel, rfl, by decide +kernel⟩,
    ⟨(mk (Jersey.gs.getD 1 r0)), 0x03#8, _, by decide +kernel, rfl, by decide +kernel⟩,
    ⟨(mk (Jersey.gs3.getD 3 r0)), 3, 77, by decide +kernel⟩,
    ⟨(mk (Jersey.gs3.getD 5 r0)), 3, 77, by decide +kernel⟩,
    ⟨(mk (Jersey.gs3.getD 7 r0)), 3, 77, by decide +kernel⟩,
    ⟨(mk (Jersey.gs3.getD 9 r0)), 3, 77, by decide +kernel⟩⟩

/-- The premises of `HostRingsAndGates` hold together. -/
theorem test_premises_of_HostRingsAndGates :
    (∃ (s : State) (n : Nat) (f : List Byte), s.chip.awake = true ∧ n < 2 ∧ (s.chip.addressed n (frameParts f).dest = false ∨
      (frameParts f).etherType = 0x8808)) ∧
    (∃ (s : State) (n : Nat) (f : List Byte) (a : Nat) (b : Nat) (dsc : Nat), s.chip.awake = true ∧ s.chip.portOn n = true ∧
      s.chip.addressed n (frameParts f).dest = true ∧ (frameParts f).etherType ≠ 0x8808 ∧ f.length ≤ 1518 ∧
      s.chip.entry (0x54A0 + n) 1 = 0 ∧ (frameParts f).etherType ≠ 0x88B5 ∧ (frameParts f).etherType ≠ 0x88F7 ∧
      s.chip.on R.FLD_HRX_CFG_ENABLE n = true ∧ s.chip.ringLevel false n ≠ 0 ∧
      a = s.chip.ringSlot false n (s.chip.rd R.FLD_HRX_CONS_CONS n) ∧ devRegion a = 0 ∧ s.chip.writable (devOffset a) 32 ∧
      b = bits (leNat (s.chip.muslin.read (devOffset a) 32)) 0 40 ∧ devRegion b = 0 ∧ s.chip.writable (devOffset b) f.length ∧
      (devOffset b + f.length ≤ devOffset a ∨ devOffset a + 32 ≤ devOffset b) ∧
      dsc = b + ((f.length % 2048) <<< 40) + (1 <<< 51) + (s.chip.stamp <<< 64) + ((match (frameParts f).tag with | some t => t.1 | none => 0) <<< 96)) ∧
    (∃ (s : State) (n : Nat) (f : List Byte), s.chip.awake = true ∧ s.chip.portOn n = true ∧
      s.chip.addressed n (frameParts f).dest = true ∧ (frameParts f).etherType ≠ 0x8808) ∧
    (∃ (s : State) (n : Nat) (v : Word), s.chip.heard = true ∧ n < 2 ∧
      s.chip.ringEntries true n < (v.toNat + 2 ^ 32 - s.chip.rd R.FLD_HTX_CONS_CONS n) % 2 ^ 32) ∧
    (∃ (s : State) (n : Nat) (a : Nat) (v : Word), s.chip.heard = true ∧ n < 2 ∧
      (v.toNat + 2 ^ 32 - s.chip.rd R.FLD_HTX_CONS_CONS n) % 2 ^ 32 ≤ s.chip.ringEntries true n ∧
      v.toNat ≠ s.chip.rd R.FLD_HTX_CONS_CONS n ∧ s.chip.on R.FLD_HTX_CFG_ENABLE n = true ∧ s.chip.portOn n = true ∧
      Table.get? s.chip.fld.txHead n = none ∧ a = s.chip.ringSlot true n (s.chip.rd R.FLD_HTX_CONS_CONS n) ∧ devRegion a = 0 ∧
      s.chip.readable (devOffset a) 32) ∧
    (∃ (s : State) (n : Nat) (v : Word), s.chip.heard = true ∧ n < 2 ∧
      (v.toNat + 2 ^ 32 - s.chip.rd R.FLD_HTX_CONS_CONS n) % 2 ^ 32 ≤ s.chip.ringEntries true n) ∧
    (∃ (s : State) (n : Nat) (x : Nat) (a : Nat) (b : Nat) (frame : List Byte), s.chip.awake = true ∧ n < 2 ∧
      Table.get? s.chip.fld.txHead n = some x ∧ s.chip.portOn n = true ∧ s.chip.on R.FLD_HTX_CFG_ENABLE n = true ∧
      b = bits x 0 40 ∧ devRegion b = 0 ∧ s.chip.readable (devOffset b) (bits x 40 11) ∧
      frame = s.chip.muslin.read (devOffset b) (bits x 40 11) ∧ a = s.chip.ringSlot true n (s.chip.rd R.FLD_HTX_CONS_CONS n) ∧
      devRegion a = 0 ∧ s.chip.writable (devOffset a) 32 ∧ s.chip.ringLevel true n = 1 ∧ s.chip.txDropped n x frame = false ∧
      s.chip.gateOpen n (bits x 51 3) = true ∧ s.chip.fitsGate n (bits x 40 11 + 4) = true) ∧
    (∃ (s : State) (n : Nat) (x : Nat) (a : Nat) (b : Nat) (frame : List Byte), s.chip.awake = true ∧ n < 2 ∧
      Table.get? s.chip.fld.txHead n = some x ∧ s.chip.portOn n = true ∧ s.chip.on R.FLD_HTX_CFG_ENABLE n = true ∧
      b = bits x 0 40 ∧ devRegion b = 0 ∧ s.chip.readable (devOffset b) (bits x 40 11) ∧
      frame = s.chip.muslin.read (devOffset b) (bits x 40 11) ∧ a = s.chip.ringSlot true n (s.chip.rd R.FLD_HTX_CONS_CONS n) ∧
      devRegion a = 0 ∧ s.chip.writable (devOffset a) 32 ∧ s.chip.ringLevel true n = 1 ∧ s.chip.txDropped n x frame = true) ∧
    (∃ (s : State) (n : Nat) (e : Nat → Nat) (i : _) (t : _), s.chip.awake = true ∧ n < 2 ∧ e = s.chip.entry (0x5480 + n) ∧
      s.chip.portOn n = true ∧ e 1 ≠ 0 ∧ 1 ≤ e 4 ∧ Table.get? s.chip.fld.qbv n = some (i, t)) ∧
    (∃ (s : State) (n : Nat) (e : Nat → Nat), s.chip.awake = true ∧ n < 2 ∧ e = s.chip.entry (0x5480 + n) ∧
      s.chip.portOn n = true ∧ e 1 ≠ 0 ∧ 1 ≤ e 4 ∧ Table.get? s.chip.fld.qbv n = none ∧ 1 ≤ e 3) ∧
    (∃ (s : State) (n : Nat) (g : Nat) (r : Nat) (i : Nat) (t : Nat), s.chip.awake = true ∧ n < 2 ∧ g < 32 ∧
      s.chip.portOn n = true ∧ s.chip.entry (0x54A0 + n) 1 ≠ 0 ∧ r = s.chip.gateRecord n g ∧ bits r 544 8 ≠ 0 ∧
      Table.get? s.chip.fld.gates (32 * n + g) = some (i, t)) ∧
    (∃ (s : State) (n : Nat), s.chip.awake = true ∧ n < 2 ∧ s.chip.portOn n = true ∧ s.chip.entryOn (0x5490 + n) 1 = true ∧
      s.chip.entryOn (0x5490 + n) 4 = true) ∧
    (∃ (s : State) (n : Nat), s.chip.awake = true ∧ n < 2) :=
  ⟨⟨(mk (Rings.gs1.getD 0 r0)), 1, ([0x02#8, 0x03#8, 0x04#8, 0x05#8, 0x06#8, 0x00#8] ++ List.replicate 6 0x09#8 ++ [0x08#8, 0x00#8] ++ List.replicate 46 0x05#8), by decide +kernel⟩,
    ⟨(mk (Rings.gs1.getD 2 r0)), 0, ([0x01#8, 0x02#8, 0x03#8, 0x04#8, 0x05#8, 0x06#8] ++ List.replicate 6 0x09#8 ++ [0x08#8, 0x00#8] ++ List.replicate 46 0x05#8), _, _, _, by decide +kernel, by decide +kernel, by decide +kernel, (by decide +kernel), by decide +kernel, by decide +kernel, by decide +kernel, (by decide +kernel), by decide +kernel, by decide +kernel, rfl, by decide +kernel, by unfold Chip.writable Chip.readable; decide +kernel, rfl, by decide +kernel, by unfold Chip.writable Chip.readable; decide +kernel, by decide +kernel, rfl⟩,
    ⟨(mk (Rings.gs1.getD 2 r0)), 0, ([0x01#8, 0x02#8, 0x03#8, 0x04#8, 0x05#8, 0x06#8] ++ List.replicate 6 0x09#8 ++ [0x08#8, 0x00#8] ++ List.replicate 46 0x05#8), by decide +kernel⟩,
    ⟨(mk (Rings.gs1.getD 0 r0)), 1, 0x000000ff#32, by decide +kernel⟩,
    ⟨(mk (Rings.gs2.getD 1 r0)), 0, _, 0x00000001#32, by decide +kernel, by decide +kernel, by decide +kernel, (by decide +kernel), by decide +kernel, by decide +kernel, by decide +kernel, rfl, by decide +kernel, by simp only [Chip.readable]; decide +kernel⟩,
    ⟨(mk (Rings.gs2.getD 1 r0)), 0, 1, by decide +kernel⟩,
    ⟨(mk (Rings.gs2.getD 5 r0)), 1, _, _, _, _, by decide +kernel, by decide +kernel, ofSome (by decide +kernel), by decide +kernel, by decide +kernel, rfl, by decide +kernel, by simp only [Chip.readable]; decide +kernel, rfl, rfl, by decide +kernel, by unfold Chip.writable Chip.readable; decide +kernel, by decide +kernel⟩,
    ⟨(mk (Rings.gs3.getD 1 r0)), 0, _, _, _, _, by decide +kernel, by decide +kernel, ofSome (by decide +kernel), by decide +kernel, by decide +kernel, rfl, by decide +kernel, by simp only [Chip.readable]; decide +kernel, rfl, rfl, by decide +kernel, by unfold Chip.writable Chip.readable; decide +kernel, by decide +kernel⟩,
    ⟨(mk (Rings.gs3.getD 3 r0)), 0, _, _, _, by decide +kernel, by decide +kernel, rfl, by decide +kernel, by decide +kernel, by decide +kernel, ofPair (by decide +kernel)⟩,
    ⟨(mk (Rings.gs4.getD 1 r0)), 0, _, by decide +kernel, by decide +kernel, rfl, by decide +kernel⟩,
    ⟨(mk (Rings.gs4.getD 8 r0)), 1, 31, _, _, _, by decide +kernel, by decide +kernel, by decide +kernel, (by decide +kernel), by decide +kernel, rfl, by decide +kernel, ofPair (by decide +kernel)⟩,
    ⟨(mk (Rings.gs5.getD 1 r0)), 0, by decide +kernel⟩,
    ⟨(mk (Rings.gs1.getD 0 r0)), 1, by decide +kernel⟩⟩

/-- The premises of `Gwepo` hold together. -/
theorem test_premises_of_Gwepo :
    (∃ (s : State) (n : Nat) (sfd : Nat) (t : Nat), s.chip.awake = true ∧ n < 2 ∧ s.chip.fld.cycle = some t ∧
      s.chip.portOn n = true ∧ s.chip.nodesOf n ≠ [] ∧ n ∉ s.chip.fld.synced ∧ n ∉ s.chip.fld.unsynced ∧ sfd ≤ 1200 ∧
      s.chip.portBit R.FLD_STATUS_LINK_UP n = true) ∧
    (∃ (s : State) (n : Nat) (sfd : Nat) (t : Nat), s.chip.awake = true ∧ n < 2 ∧ s.chip.fld.cycle = some t ∧
      s.chip.portOn n = true ∧ s.chip.nodesOf n ≠ [] ∧ n ∉ s.chip.fld.synced ∧ n ∉ s.chip.fld.unsynced ∧ (1200 < sfd ∨
      s.chip.portBit R.FLD_STATUS_LINK_UP n = false)) ∧
    (∃ (s : State) (k : Nat) (sfd : Nat) (turn : Nat) (t : Nat) (header : List Byte) (e : Nat → Nat) (h : Nat × Nat × Nat × Nat × Nat), s.chip.awake = true ∧
      k < 64 ∧ s.chip.fld.cycle = some t ∧ e = s.chip.nodeCfg k ∧ s.chip.portOn (e 2) = true ∧ e 1 ≠ 0 ∧
      h = gwepoHeader (frameParts header).body ∧ e 4 ≤ sfd ∧ sfd < e 4 + e 5 ∧ (frameParts header).src = e 3 ∧
      (frameParts header).etherType = 0x88B5 ∧ h.1 = 0x12 ∧ h.2.2.1 = k + 1 ∧ h.2.2.2.1 = s.chip.rd R.FLD_CYCLE_CYCLE ∧
      h.2.2.2.2 = e 7 ∧ (s.chip.node k).sfd = none ∧ turn ≤ 1200 ∧ e 8 + e 9 ≤ 1024) ∧
    (∃ (s : State) (k : Nat) (sfd : Nat) (turn : Nat) (t : Nat) (header : List Byte) (e : Nat → Nat) (h : Nat × Nat × Nat × Nat × Nat), s.chip.awake = true ∧
      k < 64 ∧ s.chip.fld.cycle = some t ∧ e = s.chip.nodeCfg k ∧ s.chip.portOn (e 2) = true ∧ e 1 ≠ 0 ∧
      h = gwepoHeader (frameParts header).body ∧ e 4 ≤ sfd ∧ sfd < e 4 + e 5 ∧ (frameParts header).src = e 3 ∧
      (frameParts header).etherType = 0x88B5 ∧ h.1 = 0x12 ∧ h.2.2.1 = k + 1 ∧ h.2.2.2.1 = s.chip.rd R.FLD_CYCLE_CYCLE ∧
      h.2.2.2.2 = e 7 ∧ (s.chip.node k).sfd = none ∧ 1200 < turn) ∧
    (∃ (s : State) (k : Nat) (sfd : Nat) (t : Nat) (header : List Byte) (e : Nat → Nat) (h : Nat × Nat × Nat × Nat × Nat), s.chip.awake = true ∧
      k < 64 ∧ s.chip.fld.cycle = some t ∧ e = s.chip.nodeCfg k ∧ s.chip.portOn (e 2) = true ∧ e 1 ≠ 0 ∧
      h = gwepoHeader (frameParts header).body ∧ (sfd < e 4 ∨ e 4 + e 5 ≤ sfd ∨ h.2.2.1 ≠ k + 1 ∨
      h.2.2.2.1 ≠ s.chip.rd R.FLD_CYCLE_CYCLE ∨ (s.chip.node k).sfd ≠ none)) ∧
    (∃ (s : State) (k : Nat) (t : Nat) (payload : List Byte), s.chip.awake = true ∧ k < 64 ∧ (s.chip.node k).sfd = some t ∧
      (s.chip.node k).fcs = none ∧ s.chip.nodeCfg k 6 + s.chip.nodeCfg k 7 ≤ 1024 ∧ payload.length = s.chip.nodeCfg k 7 ∧
      s.chip.nodeCfg k 2 < 2) ∧
    (∃ (s : State) (k : Nat) (t : Nat) (payload : List Byte), s.chip.awake = true ∧ k < 64 ∧ (s.chip.node k).sfd = some t ∧
      (s.chip.node k).fcs = none ∧ s.chip.nodeCfg k 6 + s.chip.nodeCfg k 7 ≤ 1024 ∧ payload.length = s.chip.nodeCfg k 7) ∧
    (∃ (s : State) (k : Nat) (t : Nat) (e : Nat → Nat) (q : GwepoNode) (good : Prop), s.chip.awake = true ∧ k < 64 ∧
      s.chip.fld.cycle = some t ∧ e = s.chip.nodeCfg k ∧ q = s.chip.node k ∧ s.chip.portOn (e 2) = true ∧ e 1 ≠ 0 ∧
      q.decided = false ∧ (q.sfd = none ∨ q.fcs ≠ none) ∧ good = (e 2 ∈ s.chip.fld.synced ∧ q.sfd ≠ none ∧ q.fcs = some true ∧
      q.out = true) ∧ good) ∧
    (∃ (s : State) (k : Nat) (t : Nat) (e : Nat → Nat) (q : GwepoNode) (good : Prop), s.chip.awake = true ∧ k < 64 ∧
      s.chip.fld.cycle = some t ∧ e = s.chip.nodeCfg k ∧ q = s.chip.node k ∧ s.chip.portOn (e 2) = true ∧ e 1 ≠ 0 ∧
      q.decided = false ∧ (q.sfd = none ∨ q.fcs ≠ none) ∧ good = (e 2 ∈ s.chip.fld.synced ∧ q.sfd ≠ none ∧ q.fcs = some true ∧
      q.out = true) ∧ ¬ good) ∧
    (∃ (s : State) (k : Nat) (sfd : Nat) (t : Nat) (op : Nat) (sub : Nat) (index : Nat) (token : Nat) (frame : List Byte) (b : List Byte) (ok : Bool), s.chip.awake = true ∧
      k < 64 ∧ s.chip.fld.cycle = some t ∧ s.chip.portOn (s.chip.nodeCfg k 2) = true ∧ s.chip.nodeCfg k 1 ≠ 0 ∧
      b = frame.drop 12 ∧ op = beNat (b.take 1) ∧ sub = beNat ((b.drop 1).take 1) ∧ index = beNat ((b.drop 2).take 2) ∧
      token = beNat ((b.drop 4).take 4) ∧
      ok = (s.chip.fld.granted == k + 1 && decide (s.chip.entry 0x5410 3 ≤ sfd) && decide (sfd < s.chip.entry 0x5410 3 + s.chip.entry 0x5410 4) && (gwepoHeader frame).1 == 0x14 && (gwepoHeader frame).2.2.1 == k + 1 && (gwepoHeader frame).2.2.2.2 == 12 + beNat ((b.drop 8).take 2) && decide (12 + beNat ((b.drop 8).take 2) ≤ b.length)) ∧
      ok = false) ∧
    (∃ (s : State) (k : Nat) (sfd : Nat) (t : Nat) (op : Nat) (sub : Nat) (index : Nat) (token : Nat) (frame : List Byte) (b : List Byte) (ok : Bool) (old : _), s.chip.awake = true ∧
      k < 64 ∧ s.chip.fld.cycle = some t ∧ s.chip.portOn (s.chip.nodeCfg k 2) = true ∧ s.chip.nodeCfg k 1 ≠ 0 ∧
      b = frame.drop 12 ∧ op = beNat (b.take 1) ∧ sub = beNat ((b.drop 1).take 1) ∧ index = beNat ((b.drop 2).take 2) ∧
      token = beNat ((b.drop 4).take 4) ∧
      ok = (s.chip.fld.granted == k + 1 && decide (s.chip.entry 0x5410 3 ≤ sfd) && decide (sfd < s.chip.entry 0x5410 3 + s.chip.entry 0x5410 4) && (gwepoHeader frame).1 == 0x14 && (gwepoHeader frame).2.2.1 == k + 1 && (gwepoHeader frame).2.2.2.2 == 12 + beNat ((b.drop 8).take 2) && decide (12 + beNat ((b.drop 8).take 2) ≤ b.length)) ∧
      ok = true ∧ (s.chip.node k).kept = some ((token, op, index, sub), old)) ∧
    (∃ (s : State) (k : Nat) (sfd : Nat) (t : Nat) (op : Nat) (sub : Nat) (index : Nat) (token : Nat) (frame : List Byte) (b : List Byte) (ok : Bool) (e : _) (r : List Byte), s.chip.awake = true ∧
      k < 64 ∧ s.chip.fld.cycle = some t ∧ s.chip.portOn (s.chip.nodeCfg k 2) = true ∧ s.chip.nodeCfg k 1 ≠ 0 ∧
      b = frame.drop 12 ∧ op = beNat (b.take 1) ∧ sub = beNat ((b.drop 1).take 1) ∧ index = beNat ((b.drop 2).take 2) ∧
      token = beNat ((b.drop 4).take 4) ∧
      ok = (s.chip.fld.granted == k + 1 && decide (s.chip.entry 0x5410 3 ≤ sfd) && decide (sfd < s.chip.entry 0x5410 3 + s.chip.entry 0x5410 4) && (gwepoHeader frame).1 == 0x14 && (gwepoHeader frame).2.2.1 == k + 1 && (gwepoHeader frame).2.2.2.2 == 12 + beNat ((b.drop 8).take 2) && decide (12 + beNat ((b.drop 8).take 2) ≤ b.length)) ∧
      ok = true ∧ (s.chip.node k).kept = none ∧ op = 1 ∧ findEntry index sub = some e ∧ e.mayRead 1 = true ∧
      entryKey index sub ∉ s.chip.odx.badStore ∧ r = [1,
      BitVec.ofNat 8 sub] ++ beBytes 2 index ++ beBytes 4 token ++ beBytes 2 e.size ++ beBytes 2 0 ++ beBytes 4 0 ++ beBytes 8 0 ++ leBytes e.size (s.chip.entry index sub)) ∧
    (∃ (s : State) (t : Nat) (k : Nat) (at_ : Nat) (bytes : List Byte), s.chip.awake = true ∧ s.chip.fld.cycle = some t ∧
      s.chip.fld.response = some (k, bytes, at_) ∧ at_ ≤ t + s.chip.entry 0x5410 3 ∧ s.chip.portOn (s.chip.nodeCfg k 2) = true) :=
  ⟨⟨(mk (Gwepo.gs.getD 1 r0)), 0, 63, _, by decide +kernel, by decide +kernel, ofSome (by decide +kernel), by decide +kernel⟩,
    ⟨(mk (Gwepo.gs.getD 1 r0)), 0, 1201, _, by decide +kernel, by decide +kernel, ofSome (by decide +kernel), by decide +kernel⟩,
    ⟨(mk (Gwepo.gs.getD 1 r0)), 63, 10000, 63, _, ([0x06#8, 0x05#8, 0x04#8, 0x03#8, 0x02#8, 0x01#8, 0x67#8, 0xa5#8, 0xa4#8, 0xa3#8, 0xa2#8, 0xa1#8, 0x88#8, 0xb5#8, 0x12#8, 0x01#8, 0x40#8] ++ List.replicate 6 0x00#8 ++ [0x08#8, 0x00#8, 0x00#8]), _, _, by decide +kernel, by decide +kernel, ofSome (by decide +kernel), rfl, by decide +kernel, by decide +kernel, rfl, by decide +kernel⟩,
    ⟨(mk (Gwepo.gs.getD 1 r0)), 63, 10000, 1201, _, ([0x06#8, 0x05#8, 0x04#8, 0x03#8, 0x02#8, 0x01#8, 0x67#8, 0xa5#8, 0xa4#8, 0xa3#8, 0xa2#8, 0xa1#8, 0x88#8, 0xb5#8, 0x12#8, 0x01#8, 0x40#8] ++ List.replicate 6 0x00#8 ++ [0x08#8, 0x00#8, 0x00#8]), _, _, by decide +kernel, by decide +kernel, ofSome (by decide +kernel), rfl, by decide +kernel, by decide +kernel, rfl, by decide +kernel⟩,
    ⟨(mk (Gwepo.gs.getD 1 r0)), 63, 63, _, ([0x06#8, 0x05#8, 0x04#8, 0x03#8, 0x02#8, 0x01#8, 0xa6#8, 0xa5#8, 0xa4#8, 0xa3#8, 0xa2#8, 0xa1#8, 0x88#8, 0xb5#8, 0x12#8, 0x01#8, 0x01#8] ++ List.replicate 6 0x00#8 ++ [0x08#8, 0x00#8, 0x00#8]), _, _, by decide +kernel, by decide +kernel, ofSome (by decide +kernel), rfl, by decide +kernel, by decide +kernel, rfl, by decide +kernel⟩,
    ⟨(mk (Gwepo.gs.getD 4 r0)), 0, _, (List.replicate 8 0x03#8), by decide +kernel, by decide +kernel, ofSome (by decide +kernel), by decide +kernel⟩,
    ⟨(mk (Gwepo.gs.getD 4 r0)), 0, _, (List.replicate 8 3), by decide +kernel, by decide +kernel, ofSome (by decide +kernel), by decide +kernel⟩,
    ⟨(mk (Gwepo.gs.getD 5 r0)), 0, _, _, _, ((mk (Gwepo.gs.getD 5 r0)).chip.nodeCfg 0 2 ∈ (mk (Gwepo.gs.getD 5 r0)).chip.fld.synced ∧ ((mk (Gwepo.gs.getD 5 r0)).chip.node 0).sfd ≠ none ∧ ((mk (Gwepo.gs.getD 5 r0)).chip.node 0).fcs = some true ∧ ((mk (Gwepo.gs.getD 5 r0)).chip.node 0).out = true), by decide +kernel, by decide +kernel, ofSome (by decide +kernel), rfl, rfl, by decide +kernel, by decide +kernel, by decide +kernel, by decide +kernel, rfl, by decide +kernel⟩,
    ⟨(mk (Gwepo.gs.getD 1 r0)), 63, _, _, _, ((mk (Gwepo.gs.getD 1 r0)).chip.nodeCfg 63 2 ∈ (mk (Gwepo.gs.getD 1 r0)).chip.fld.synced ∧ ((mk (Gwepo.gs.getD 1 r0)).chip.node 63).sfd ≠ none ∧ ((mk (Gwepo.gs.getD 1 r0)).chip.node 63).fcs = some true ∧ ((mk (Gwepo.gs.getD 1 r0)).chip.node 63).out = true), by decide +kernel, by decide +kernel, ofSome (by decide +kernel), rfl, rfl, by decide +kernel, by decide +kernel, by decide +kernel, by decide +kernel, rfl, by decide +kernel⟩,
    ⟨(mk (Gwepo.gs.getD 1 r0)), 63, 63, _, _, _, _, _, ([0x06#8, 0x05#8, 0x04#8, 0x03#8, 0x02#8, 0x01#8, 0xa6#8, 0xa5#8, 0xa4#8, 0xa3#8, 0xa2#8, 0xa1#8, 0x88#8, 0xb5#8, 0x12#8, 0x01#8, 0x01#8] ++ List.replicate 6 0x00#8 ++ [0x08#8, 0x00#8, 0x00#8]), _, _, by decide +kernel, by decide +kernel, ofSome (by decide +kernel), by decide +kernel, by decide +kernel, rfl, rfl, rfl, rfl, rfl, by decide +kernel, rfl⟩,
    ⟨(mk (Gwepo.gs.getD 19 r0)), 0, 100000, _, 1, 1, 21504, 99, ([0x14#8, 0x00#8, 0x01#8] ++ List.replicate 6 0x00#8 ++ [0x0c#8, 0x00#8, 0x00#8, 0x01#8, 0x01#8, 0x54#8, 0x00#8, 0x00#8, 0x00#8, 0x00#8, 0x63#8, 0x00#8, 0x00#8, 0x00#8, 0x00#8]), _, _, ([0x01#8, 0x01#8, 0x54#8, 0x00#8, 0x00#8, 0x00#8, 0x00#8, 0x63#8, 0x00#8, 0x01#8] ++ List.replicate 14 0x00#8 ++ [0x01#8]), by decide +kernel, by decide +kernel, ofSome (by decide +kernel), by decide +kernel, by decide +kernel, rfl, by decide +kernel, by decide +kernel, by decide +kernel, (by decide +kernel), by decide +kernel, rfl, by decide +kernel⟩,
    ⟨(mk (Gwepo.gs.getD 17 r0)), 0, 100000, _, _, _, _, _, ([0x14#8, 0x00#8, 0x01#8] ++ List.replicate 6 0x00#8 ++ [0x0c#8, 0x00#8, 0x00#8, 0x01#8, 0x01#8, 0x54#8, 0x00#8, 0x00#8, 0x00#8, 0x00#8, 0x63#8, 0x00#8, 0x00#8, 0x00#8, 0x00#8]), _, _, _, _, by decide +kernel, by decide +kernel, ofSome (by decide +kernel), by decide +kernel, by decide +kernel, rfl, by decide +kernel, rfl, rfl, rfl, by decide +kernel, rfl, by decide +kernel, rfl, ofSome (by decide +kernel), by decide +kernel, by decide +kernel, rfl⟩,
    ⟨(mk (Gwepo.gs.getD 18 r0)), _, 0, 105000, ([0x01#8, 0x01#8, 0x54#8, 0x00#8, 0x00#8, 0x00#8, 0x00#8, 0x63#8, 0x00#8, 0x01#8] ++ List.replicate 14 0x00#8 ++ [0x01#8]), by decide +kernel, ofSome (by decide +kernel), by decide +kernel⟩⟩

/-- The premises of `CanControllers` hold together. -/
theorem test_premises_of_CanControllers :
    (∃ (s : State) (k : Nat) (index : Nat) (sub : Nat) (e : EntryDef) (v : List Byte) (data : List Byte), s.chip.awake = true ∧
      s.chip.canOn k = true ∧ s.chip.rd R.FLD_CAN_STATE k ≠ 2 ∧ data.length = 8 ∧ findEntry index sub = some e ∧
      e.mayRead 1 = true ∧ entryKey index sub ∉ s.chip.odx.badStore ∧ leNat ((data.drop 1).take 2) = index ∧
      leNat ((data.drop 3).take 1) = sub ∧ bits (leNat (data.take 1)) 5 3 = 2 ∧ v = leBytes e.size (s.chip.entry index sub) ∧
      e.size ≤ 4) ∧
    (∃ (s : State) (k : Nat) (index : Nat) (sub : Nat) (e : EntryDef) (v : List Byte) (data : List Byte), s.chip.awake = true ∧
      s.chip.canOn k = true ∧ s.chip.rd R.FLD_CAN_STATE k ≠ 2 ∧ data.length = 8 ∧ findEntry index sub = some e ∧
      e.mayRead 1 = true ∧ entryKey index sub ∉ s.chip.odx.badStore ∧ leNat ((data.drop 1).take 2) = index ∧
      leNat ((data.drop 3).take 1) = sub ∧ bits (leNat (data.take 1)) 5 3 = 2 ∧ v = leBytes e.size (s.chip.entry index sub) ∧
      4 < e.size) ∧
    (∃ (s : State) (k : Nat) (t : SdoTransfer) (data : List Byte) (cmd : Byte) (rest : List Byte), s.chip.awake = true ∧
      s.chip.canOn k = true ∧ s.chip.rd R.FLD_CAN_STATE k ≠ 2 ∧ data = cmd :: rest ∧ rest.length = 7 ∧
      bits cmd.toNat 5 3 = 3 ∧ Table.get? s.chip.fld.sdo k = some t ∧ t.upload = true ∧ cmd.toNat.testBit 4 = t.toggle ∧
      7 < t.data.length) ∧
    (∃ (s : State) (k : Nat) (t : SdoTransfer) (data : List Byte) (cmd : Byte) (rest : List Byte), s.chip.awake = true ∧
      s.chip.canOn k = true ∧ s.chip.rd R.FLD_CAN_STATE k ≠ 2 ∧ data = cmd :: rest ∧ rest.length = 7 ∧
      bits cmd.toNat 5 3 = 3 ∧ Table.get? s.chip.fld.sdo k = some t ∧ t.upload = true ∧ cmd.toNat.testBit 4 ≠ t.toggle) ∧
    (∃ (s : State) (k : Nat) (data : List Byte) (cmd : Byte) (rest : List Byte), s.chip.awake = true ∧ s.chip.canOn k = true ∧
      s.chip.rd R.FLD_CAN_STATE k ≠ 2 ∧ data = cmd :: rest ∧ rest.length = 7 ∧ bits cmd.toNat 5 3 = 3 ∧
      Table.get? s.chip.fld.sdo k = none) ∧
    (∃ (s : State) (k : Nat) (t : SdoTransfer), s.chip.awake = true ∧ k < 4 ∧ Table.get? s.chip.fld.sdo k = some t) ∧
    (∃ (s : State) (k : Nat) (p : Nat) (due : Nat), s.chip.awake = true ∧ s.chip.canOn k = true ∧ s.chip.rd R.FLD_CAN_STATE k ≠ 2 ∧
      p = s.chip.entry 0x1017 0 ∧ 1 ≤ p ∧ due = Table.getD s.chip.fld.beats k s.chip.steady + 1000000 * p) ∧
    (∃ (s : State) (k : Nat), s.chip.awake = true ∧ s.chip.canOn k = true ∧ s.chip.rd R.FLD_CAN_STATE k = 2) ∧
    (∃ (s : State) (k : Nat), s.chip.awake = true ∧ s.chip.canOn k = true) :=
  ⟨⟨(mk (Can.gs.getD 1 r0)), 3, _, _, _, _, [0x40#8, 0x00#8, 0x54#8, 0x01#8, 0x01#8, 0x02#8, 0x03#8, 0x04#8], by decide +kernel, by decide +kernel, by decide +kernel, by decide +kernel, ofSome (by decide +kernel), by decide +kernel, by decide +kernel, rfl, rfl, by decide +kernel, rfl, by decide +kernel⟩,
    ⟨(mk (Can.gs.getD 1 r0)), 3, _, _, _, _, [0x40#8, 0x00#8, 0x54#8, 0x03#8, 0x01#8, 0x02#8, 0x03#8, 0x04#8], by decide +kernel, by decide +kernel, by decide +kernel, by decide +kernel, ofSome (by decide +kernel), by decide +kernel, by decide +kernel, rfl, rfl, by decide +kernel, rfl, by decide +kernel⟩,
    ⟨(mk (Can.gs.getD 3 r0)), 0, _, _, 0x60#8, (List.replicate 7 0x06#8), by decide +kernel, by decide +kernel, by decide +kernel, rfl, by decide +kernel, by decide +kernel, ofSome (by decide +kernel), by decide +kernel⟩,
    ⟨(mk (Can.gs.getD 3 r0)), 0, _, _, 0x70#8, (List.replicate 7 0x06#8), by decide +kernel, by decide +kernel, by decide +kernel, rfl, by decide +kernel, by decide +kernel, ofSome (by decide +kernel), by decide +kernel⟩,
    ⟨(mk (Can.gs.getD 1 r0)), 3, _, 0x60#8, (List.replicate 7 0x06#8), by decide +kernel, by decide +kernel, by decide +kernel, rfl, by decide +kernel⟩,
    ⟨(mk (Can.gs.getD 3 r0)), 0, _, by decide +kernel, by decide +kernel, ofSome (by decide +kernel)⟩,
    ⟨(mk (Can.gs.getD 7 r0)), 3, _, _, by decide +kernel, by decide +kernel, by decide +kernel, rfl, by decide +kernel, rfl⟩,
    ⟨(mk (Can.gs.getD 2 r0)), 3, by decide +kernel⟩,
    ⟨(mk (Can.gs.getD 1 r0)), 3, by decide +kernel⟩⟩

/-- The premises of `VerdictsAndHeartbeat` hold together. -/
theorem test_premises_of_VerdictsAndHeartbeat :
    (∃ (s : State) (n : Nat) (f : GngFrame), s.chip.awake = true ∧ n ∈ s.chip.netsOn ∧ s.chip.gng.frames = [f] ∧ f.net = n ∧
      f.expired = false ∧ f.verdict = none ∧ s.chip.gng.golden = []) ∧
    (∃ (s : State) (n : Nat), s.chip.awake = true ∧ s.chip.gngOn = true ∧ n ∈ s.chip.netsOn ∧ s.chip.on R.GNG_NET_STALE n = false) ∧
    (∃ (s : State) (half : Nat) (t : Nat), s.chip.awake = true ∧ s.chip.gngOn = true ∧ half = max 1 (s.chip.entry 0x5C00 2) ∧
      t = s.chip.gridNext gridHeartbeat ⟨0, half, 1⟩ ∧ s.chip.on R.GNG_STATUS_SAFE = true) ∧
    (∃ (s : State) (half : Nat) (t : Nat), s.chip.awake = true ∧ s.chip.gngOn = true ∧ half = max 1 (s.chip.entry 0x5C00 2) ∧
      t = s.chip.gridNext gridHeartbeat ⟨0, half, 1⟩ ∧ s.chip.on R.GNG_STATUS_SAFE = false) :=
  ⟨⟨(mk (Gingham.gs.getD 2 r0)), 0, _, by decide +kernel, by decide +kernel, ofSing (by decide +kernel), rfl, by decide +kernel⟩,
    ⟨(mk (Gingham.gs.getD 1 r0)), 0, by decide +kernel⟩,
    ⟨(mk (Gingham.gs.getD 16 r0)), _, _, by decide +kernel, by decide +kernel, rfl, rfl, by decide +kernel⟩,
    ⟨(mk (Gingham.gs.getD 1 r0)), _, _, by decide +kernel, by decide +kernel, rfl, rfl, by decide +kernel⟩⟩

/-- The premises of `GoldenTestsAndFaults` hold together. -/
theorem test_premises_of_GoldenTestsAndFaults :
    (∃ (s : State) (n : Nat) (g : GngGolden) (i : Instr) (t : Nat), s.chip.awake = true ∧ (i = .goldenSlot n ∧
      (∃ f, s.chip.slotFrame n = some f ∧ g = ⟨f.k, f.time, f.cfg, f.bands, none⟩ ∧ t = f.time + f.e 0x0F) ∧
      Table.get? s.chip.gng.golden n = none ∧ s.chip.op? 20 = none ∨ i = .goldenGrant n ∧
      Table.get? s.chip.gng.golden n = some g ∧ g.weave = none ∧ t = 0 ∧
      (∀ o, s.chip.op? 20 = some o → o.tileReady = false)) ∧ 1024 ≤ s.chip.dsp.weaves.length) ∧
    (∃ (s : State) (n : Nat) (h : Nat) (a : Nat) (g : GngGolden) (i : Instr) (t : Nat), s.chip.awake = true ∧ (i = .goldenSlot n ∧
      (∃ f, s.chip.slotFrame n = some f ∧ g = ⟨f.k, f.time, f.cfg, f.bands, none⟩ ∧ t = f.time + f.e 0x0F) ∧
      Table.get? s.chip.gng.golden n = none ∧ s.chip.op? 20 = none ∨ i = .goldenGrant n ∧
      Table.get? s.chip.gng.golden n = some g ∧ g.weave = none ∧ t = 0 ∧
      (∀ o, s.chip.op? 20 = some o → o.tileReady = false)) ∧ s.chip.dsp.weaves.length < 1024 ∧ g.cfg.getD 2 0 = 0xFF ∧
      devRegion (g.cfg.getD 12 0) = 0 ∧ s.chip.readable (devOffset (g.cfg.getD 12 0)) 32 ∧
      a = s.chip.rd R.DSP_LAUNCH_WEAVE_ADDR (g.cfg.getD 1 0) ∧ a % 64 = 0 ∧ devRegion a = 0 ∧
      s.chip.readable (devOffset a) 64 ∧ h = leNat (s.chip.muslin.read (devOffset a) 64) ∧ Hdr.version h = 1 ∧
      1 ≤ Hdr.count h ∧ Hdr.count h ≤ 65536 ∧ s.chip.validRange [0, 8] a (64 * (Hdr.count h + 1)) = true) ∧
    (∃ (s : State) (n : Nat) (f : GngFrame) (o : OpRun), s.chip.awake = true ∧ s.chip.slotFrame n = some f ∧
      Table.get? s.chip.gng.golden n = none ∧ s.chip.op? 20 = some o) ∧
    (∃ (s : State) (n : Nat) (f : GngFrame), s.chip.awake = true ∧ s.chip.slotFrame n = some f ∧
      Table.get? s.chip.gng.golden n ≠ none) ∧
    (∃ (s : State) (n : Nat) (g : GngGolden), s.chip.awake = true ∧ n < s.chip.gng.nets.length ∧
      Table.get? s.chip.gng.golden n = some g ∧ g.weave = none) ∧
    (∃ (s : State), s.chip.heard = true) :=
  ⟨⟨(mk (Gingham.crowd (Gingham.gs.getD 8 r0))), 0, { k := 2, time := 2000000, cfg := Gingham.NC, bands := none, weave := none }, (.goldenGrant 0), 0, by decide +kernel, Or.inr (by decide +kernel), by decide +kernel⟩,
    ⟨(mk (Gingham.gs.getD 8 r0)), 0, _, _, { k := 2, time := 2000000, cfg := [1, 5, 255, 65536, 4096, 131072, 196608, 0, 64, 16384, 900000, 3, 20480, 24576, 500000, 0, 0, 0], bands := none, weave := none }, (Sys2Proof.Instr.goldenGrant 0), 0, by decide +kernel, by decide +kernel, by decide +kernel, (by decide +kernel), by decide +kernel, by simp only [Chip.readable]; decide +kernel, rfl, by decide +kernel, by decide +kernel, by simp only [Chip.readable]; decide +kernel, rfl, by decide +kernel⟩,
    ⟨(mk (Gingham.gs.getD 6 r0)), 0, _, _, by decide +kernel, ofSome (by decide +kernel), by decide +kernel, ofSome (by decide +kernel)⟩,
    ⟨(mk (Gingham.gs.getD 8 r0)), 0, _, by decide +kernel, ofSome (by decide +kernel), by decide +kernel⟩,
    ⟨(mk (Gingham.gs.getD 8 r0)), 0, _, by decide +kernel, by decide +kernel, ofSome (by decide +kernel), by decide +kernel⟩,
    ⟨(mk (Gingham.gs.getD 0 r0)), by decide +kernel⟩⟩

end Sys2Proof.Tests
end

/-! # Every command answers a next state and leaves the rest of the queue -/

namespace Sys2Proof.Machine

/-- A dictionary request answers a next state with the queue as it was, whoever sends it. -/
theorem State.runFor_next (s : State) (o : Origin) (ps : List Part) (f : Chip → Chip) :
    ∃ c, s.runFor o ps f = .next { s with chip := c } := by
  cases o <;> exact ⟨_, rfl⟩

/-- Every command answers a next state with the queue as it was: each arm of `exec` runs a function of the chip. The arms that serve a
dictionary request choose that run by who sends it. -/
theorem exec_next (i : Instr) (s : State) : ∃ c, exec i s = .next { s with chip := c } := by
  cases i with
  | odxRead | odxDescribe | odxOpen | odxStage | odxCommit | odxAbort | odxWrite | odxNote | odxSave | clearImage =>
    exact State.runFor_next _ _ _ _
  | _ => exact ⟨_, rfl⟩

/-- A step answers a next state, with one command fewer in the queue. -/
theorem step_answers (s : State) : ∃ t, step s = .next t ∧ t.pending = s.pending.tail := by
  obtain ⟨c, q⟩ := s
  cases q with
  | nil => exact ⟨_, rfl, rfl⟩
  | cons i rest =>
    obtain ⟨d, hd⟩ := exec_next i ⟨c, rest⟩
    exact ⟨⟨d, rest⟩, hd, rfl⟩

/-- As many steps as commands wait empty the queue. -/
theorem run_empties_queue (n : Nat) : ∀ s : State, s.pending.length = n → ∃ t, core.run n s = .next t ∧ t.pending = [] := by
  induction n with
  | zero => exact fun s hs => ⟨s, rfl, List.length_eq_zero_iff.mp hs⟩
  | succ n ih =>
    intro s hs
    obtain ⟨t, ht, hq⟩ := step_answers s
    obtain ⟨u, hu, hempty⟩ := ih t (by rw [hq, List.length_tail, hs, Nat.add_sub_cancel])
    refine ⟨u, ?_, hempty⟩
    rw [← hu]
    simp only [Host.Core.run, Host.Check.core_step, ht]

/-- Settles O3: every arm of `exec` answers a next state and leaves the queue (`exec_next`), and the queue empties by induction on its
length. -/
theorem everyCommandAnswers : Obligations.EveryCommandAnswers := by
  unfold Obligations.EveryCommandAnswers
  exact ⟨step_answers, fun s => run_empties_queue _ s rfl⟩

end Sys2Proof.Machine

/-! # Host register writes follow the access codes and what the blocks add -/

namespace Sys2Proof.Machine

/-! ## Which blocks answer a write -/

/-- The words at which dispatch adds to a write: offset `a`, in the register at `b`. -/
def dspActs (a b : Nat) : Bool :=
  a == R.DSP_CTRL.addr || [R.DSP_SIG.addr, R.DSP_SIG_POISON.addr, R.DSP_LAUNCH.addr].contains b

/-- The words at which Muslin adds to a write. -/
def mslActs (a b : Nat) : Bool :=
  [R.MSL_RET_CTRL.addr, R.MSL_BT_CTRL.addr].contains a || [R.MSL_SOFT_REPAIR.addr, R.MSL_DEGRADED.addr].contains b

/-- The words at which the ATU adds to a write. -/
def atuActs (a b : Nat) : Bool :=
  [R.ATU_CTRL.addr, R.ATU_CMD.addr].contains a || b == R.ATU_KVCFG.addr ||
    (decide (R.ATU_PFT_BASE_LO.addr ≤ a) && decide (a ≤ R.ATU_SAVE_BASE_HI.addr))

/-- The words of the command registers. -/
def opActs (a : Nat) : Bool :=
  [R.TWL_SVC_CMD.addr, R.QMG_QCMD.addr, R.TWD_TRACK_CMD.addr, R.CNV_SVC_CMD.addr, (R.CNV_SVC_CMD.inst 1).addr, R.TKU_CMD.addr,
    R.PWR_CMD.addr, R.ODX_REQ.addr, R.BUP_CMD.addr].contains a

/-- The words at which the queue manager, the DRC and the MSI-X table add to a write. -/
def memActs (a b : Nat) : Bool :=
  [R.QMG_CTRL.addr, R.DRC_CTRL.addr, R.DRC_CFG.addr].contains a || b == 0x10000 ||
    (decide (R.QMG_CTX_BASE_LO.addr ≤ a) && decide (a ≤ R.QMG_SPILL_BASE_HI.addr))

/-- The words at which the other units add to a write. -/
def unitActs (a b : Nat) : Bool :=
  [R.GZE_CTRL.addr, R.TUL_CTRL.addr, R.JRS_CTRL.addr, R.TKU_RATE_ADJ.addr, R.FLD_CTRL.addr, R.GNG_FAULT.addr].contains a ||
    [R.JRS_FLAGS.addr, R.FLD_HTX_BASE_LO.addr, R.FLD_HTX_BASE_HI.addr, R.FLD_HRX_BASE_LO.addr, R.FLD_HRX_BASE_HI.addr,
      R.FLD_HTX_CFG.addr, R.FLD_HRX_CFG.addr, R.FLD_HTX_PROD.addr, R.FLD_HRX_PROD.addr, R.BUP_NEW.addr].contains b

theorem Chip.dspWritten_none (c d : Chip) (a b i v : Nat) (h : dspActs a b = false) : c.dspWritten d a b i v = none := by
  simp only [dspActs, List.contains_cons, List.contains_nil, Bool.or_false, Bool.or_eq_false_iff, beq_eq_false_iff_ne] at h
  simp [Chip.dspWritten, h]

theorem Chip.mslWritten_none (d : Chip) (a b : Nat) (h : mslActs a b = false) : d.mslWritten a b = none := by
  simp only [mslActs, List.contains_cons, List.contains_nil, Bool.or_false, Bool.or_eq_false_iff, beq_eq_false_iff_ne] at h
  simp [Chip.mslWritten, h]

theorem Chip.atuWritten_none (c d : Chip) (r : RegDef) (a b v : Nat) (h : atuActs a b = false) : c.atuWritten d r a b v = none := by
  simp only [atuActs, List.contains_cons, List.contains_nil, Bool.or_false, Bool.or_eq_false_iff, beq_eq_false_iff_ne] at h
  obtain ⟨⟨⟨hctrl, hcmd⟩, hcfg⟩, hrange⟩ := h
  rw [Chip.atuWritten, if_neg hctrl, hrange, decide_eq_false hcfg, Bool.or_self, if_neg Bool.false_ne_true, if_neg hcmd]

theorem Chip.opWritten_none (c : Chip) (a v : Nat) (h : opActs a = false) : c.opWritten a v = none := by
  simp only [opActs, List.contains_cons, List.contains_nil, Bool.or_false, Bool.or_eq_false_iff, beq_eq_false_iff_ne] at h
  simp [Chip.opWritten, h]

theorem Chip.memWritten_none (c d : Chip) (a b i v : Nat) (h : memActs a b = false) : c.memWritten d a b i v = none := by
  simp only [memActs, List.contains_cons, List.contains_nil, Bool.or_false, Bool.or_eq_false_iff, beq_eq_false_iff_ne] at h
  obtain ⟨⟨⟨hq, hctrl, hcfg⟩, hb⟩, hrange⟩ := h
  rw [Chip.memWritten, if_neg hq, hrange, if_neg Bool.false_ne_true, if_neg hctrl, if_neg hcfg, if_neg hb]

theorem Chip.unitWritten_none (c d : Chip) (r : RegDef) (a b i v : Nat) (h : unitActs a b = false) :
    c.unitWritten d r a b i v = none := by
  simp only [unitActs, List.contains_cons, List.contains_nil, Bool.or_false, Bool.or_eq_false_iff, beq_eq_false_iff_ne] at h
  simp [Chip.unitWritten, h]

/-! ## A write of a word, by who answers it -/

/-- The element of register `r` that holds offset `a`. -/
def RegDef.elem (r : RegDef) (a : Nat) : Nat := if r.stride = 0 then 0 else (a - r.addr) / r.stride

/-- The writes of BAR0 at which some block adds to the access codes. -/
def blockActs (a b : Nat) : Bool :=
  a == R.TWL_GNG_PAIR.addr || dspActs a b || mslActs a b || atuActs a b || opActs a || memActs a b || unitActs a b

section
variable {c : Chip} {a v : Nat} {r : RegDef} {k : Nat}

/-- R273: a write that is not of an aligned word is dropped, and in BAR0 sets BAD_ACCESS. -/
theorem Chip.registerWrite_misaligned {size : Nat} (h : size ≠ 4 ∨ a % 4 ≠ 0) :
    c.registerWrite a size v = if a < 2 ^ 26 then c.latch R.HIF_STATUS_BAD_ACCESS else c := by
  have h' : (size != 4 || a % 4 != 0) = true := by simpa using h
  simp only [Chip.registerWrite, h', if_true]

/-- A write that no register occupies changes nothing. -/
theorem Chip.registerWrite_nowhere (ha : a % 4 = 0) (hf : findReg a = none) : c.registerWrite a 4 v = c := by
  simp [Chip.registerWrite, ha, hf]

/-- A write of configuration space. -/
theorem Chip.registerWrite_config (ha : a % 4 = 0) (hf : findReg a = some (r, k)) (hi : 2 ^ 26 ≤ a) :
    c.registerWrite a 4 v = c.configWritten (c.plainWrite r k a v) a := by
  simp [Chip.registerWrite, ha, hf, hi, -Nat.reducePow]

/-- A write to which no block adds acts by the access codes alone. -/
theorem Chip.registerWrite_plain (ha : a % 4 = 0) (hf : findReg a = some (r, k)) (hi : a < 2 ^ 26)
    (hb : blockActs a r.addr = false) : c.registerWrite a 4 v = c.plainWrite r k a v := by
  simp only [blockActs, Bool.or_eq_false_iff, beq_eq_false_iff_ne] at hb
  obtain ⟨⟨⟨⟨⟨⟨hpair, hdsp⟩, hmsl⟩, hatu⟩, hop⟩, hmem⟩, hunit⟩ := hb
  simp [Chip.registerWrite, ha, hf, Nat.not_le.mpr hi, -Nat.reducePow, hpair, Chip.dspWritten_none, hdsp, Chip.mslWritten_none, hmsl,
    Chip.atuWritten_none, hatu, Chip.opWritten_none, hop, Chip.memWritten_none, hmem, Chip.unitWritten_none, hunit]

/-- A write that dispatch answers. -/
theorem Chip.registerWrite_dsp {x : Chip} (ha : a % 4 = 0) (hf : findReg a = some (r, k)) (hi : a < 2 ^ 26)
    (hpair : a ≠ R.TWL_GNG_PAIR.addr) (hx : c.dspWritten (c.plainWrite r k a v) a r.addr (r.elem a) v = some x) :
    c.registerWrite a 4 v = x := by
  rw [RegDef.elem] at hx
  simp [Chip.registerWrite, ha, hf, Nat.not_le.mpr hi, -Nat.reducePow, hpair, hx]

/-- A write that Muslin answers. -/
theorem Chip.registerWrite_msl {x : Chip} (ha : a % 4 = 0) (hf : findReg a = some (r, k)) (hi : a < 2 ^ 26)
    (hpair : a ≠ R.TWL_GNG_PAIR.addr) (hdsp : dspActs a r.addr = false)
    (hx : (c.plainWrite r k a v).mslWritten a r.addr = some x) : c.registerWrite a 4 v = x := by
  simp [Chip.registerWrite, ha, hf, Nat.not_le.mpr hi, -Nat.reducePow, hpair, Chip.dspWritten_none, hdsp, hx]

/-- A write that the queue manager, the DRC or the MSI-X table answers. -/
theorem Chip.registerWrite_mem {x : Chip} (ha : a % 4 = 0) (hf : findReg a = some (r, k)) (hi : a < 2 ^ 26)
    (hb : (a == R.TWL_GNG_PAIR.addr || dspActs a r.addr || mslActs a r.addr || atuActs a r.addr || opActs a) = false)
    (hx : c.memWritten (c.plainWrite r k a v) a r.addr (r.elem a) v = some x) : c.registerWrite a 4 v = x := by
  simp only [Bool.or_eq_false_iff, beq_eq_false_iff_ne] at hb
  obtain ⟨⟨⟨⟨hpair, hdsp⟩, hmsl⟩, hatu⟩, hop⟩ := hb
  rw [RegDef.elem] at hx
  simp [Chip.registerWrite, ha, hf, Nat.not_le.mpr hi, -Nat.reducePow, hpair, Chip.dspWritten_none, hdsp, Chip.mslWritten_none, hmsl,
    Chip.atuWritten_none, hatu, Chip.opWritten_none, hop, hx]

end

/-! ## The register that holds an offset -/

/-- How many bytes a register, or an array of them, extends over. -/
def RegDef.extent (r : RegDef) : Nat := if r.stride = 0 then 4 * r.words else r.stride * r.count

/-- Two registers' extents share no byte. -/
def RegDef.clearOf (r q : RegDef) : Bool := decide (q.addr + q.extent ≤ r.addr) || decide (r.addr + r.extent ≤ q.addr)

/-- Offset `a` is a byte of register `r`, as `findReg` asks it. -/
def RegDef.holds (r : RegDef) (a : Nat) : Bool :=
  r.addr ≤ a && (if r.stride = 0 then decide (a < r.addr + 4 * r.words)
    else decide ((a - r.addr) / r.stride < r.count) && decide ((a - r.addr) % r.stride < 4 * r.words))

/-- The index of offset `a`'s word in an element of register `r`. -/
def RegDef.wordAt (r : RegDef) (a : Nat) : Nat := if r.stride = 0 then (a - r.addr) / 4 else (a - r.addr) % r.stride / 4

theorem RegDef.holds_extent {r : RegDef} {a : Nat} (h : r.holds a = true) : r.addr ≤ a ∧ a < r.addr + r.extent := by
  simp only [RegDef.holds, Bool.and_eq_true, decide_eq_true_eq] at h
  obtain ⟨hlo, hin⟩ := h
  refine ⟨hlo, ?_⟩
  unfold RegDef.extent
  split at hin
  · next hs =>
    rw [if_pos hs]
    exact of_decide_eq_true hin
  · next hs =>
    simp only [Bool.and_eq_true, decide_eq_true_eq] at hin
    have := (Nat.div_lt_iff_lt_mul (Nat.pos_of_ne_zero hs)).mp hin.1
    rw [if_neg hs, Nat.mul_comm]
    omega

/-- A register that holds an offset is the one found, where every other register's extent is clear of its own. -/
theorem findReg_of_holds {r : RegDef} {a : Nat} (hm : r ∈ regTable)
    (hc : (regTable.all fun q => q == r || r.clearOf q) = true) (ha : r.holds a = true) : findReg a = some (r, r.wordAt a) := by
  have he : findReg a = (regTable.find? (fun q => q.holds a)).map (fun q => (q, q.wordAt a)) := by
    unfold findReg RegDef.holds
    split <;> simp_all [RegDef.wordAt]
  rw [he]
  cases hq : regTable.find? (fun q => q.holds a) with
  | none => exact absurd ha (by simpa using List.find?_eq_none.mp hq r hm)
  | some q =>
    have hqa : q.holds a = true := List.find?_some (p := fun q : RegDef => q.holds a) hq
    have hqa := RegDef.holds_extent hqa
    have hra := RegDef.holds_extent ha
    have hqr := List.all_eq_true.mp hc q (List.mem_of_find?_eq_some hq)
    simp only [RegDef.clearOf, Bool.or_eq_true, beq_iff_eq, decide_eq_true_eq] at hqr
    obtain rfl | hqr := hqr
    · rfl
    · omega

/-! ## Access codes -/

/-- What a field's bits become under an access code: of their value `old` and the bits `new` written. -/
def Access.merge (acc : Access) (old new : Nat) : Nat :=
  match acc with
  | .rw => new
  | .w1c => old ^^^ (old &&& new)
  | .w1s => old ||| new
  | .ro | .wo | .stg => old

/-- A field as the tables give it lies whole in word `k` of its register. -/
def FieldDef.inWord (f : FieldDef) (k : Nat) : Bool := decide (32 * k ≤ f.lo) && decide (f.lo + f.width ≤ 32 * k + 32)

/-- Two fields of a register share no bit. -/
def FieldDef.apart (f g : FieldDef) : Bool := decide (f.lo + f.width ≤ g.lo) || decide (g.lo + g.width ≤ f.lo)

/-- The lowest bit of a field's part in word `k`. -/
def FieldDef.lowIn (f : FieldDef) (k : Nat) : Nat := max f.lo (32 * k) - 32 * k

/-- How many bits of word `k` a field has. -/
def FieldDef.widthIn (f : FieldDef) (k : Nat) : Nat := min (f.lo + f.width) (32 * k + 32) - max f.lo (32 * k)

/-- One field's part of a write, as `mergeWord` makes it. -/
def FieldDef.mergeInto (f : FieldDef) (k new v : Nat) : Nat :=
  if min (f.lo + f.width) (32 * k + 32) ≤ max f.lo (32 * k) then v
  else setBits v (f.lowIn k) (f.widthIn k) (f.acc.merge (bits v (f.lowIn k) (f.widthIn k)) (bits new (f.lowIn k) (f.widthIn k)))

/-- A field whole in word `k` has its own place and width there. -/
theorem FieldDef.place_of_inWord {f : FieldDef} {k : Nat} (h : f.inWord k = true) :
    f.lowIn k = f.lo - 32 * k ∧ f.widthIn k = f.width := by
  simp only [FieldDef.inWord, Bool.and_eq_true, decide_eq_true_eq] at h
  unfold FieldDef.lowIn FieldDef.widthIn
  omega

theorem bits_lt (x lo w : Nat) : bits x lo w < 2 ^ w := Nat.mod_lt _ (by positivity)

/-- A field of one bit is that bit. -/
theorem bits_one (x lo : Nat) : bits x lo 1 = (x.testBit lo).toNat := by
  rw [bits, Nat.pow_one, Nat.toNat_testBit, Nat.shiftRight_eq_div_pow]

/-- A field replaced by itself changes nothing. -/
theorem setBits_bits_self (x lo w : Nat) : setBits x lo w (bits x lo w) = x := by
  apply Nat.eq_of_testBit_eq
  intro j
  rw [testBit_setBits]
  split
  · rfl
  · split
    · next h1 h2 =>
      rw [testBit_bits, Nat.add_sub_cancel' (Nat.le_of_not_lt h1)]
      simp [show j - lo < w by omega]
    · rfl

theorem mergeWord_eq_foldl (fields : List FieldDef) (k old new : Nat) :
    mergeWord fields k old new = fields.foldl (fun v f => f.mergeInto k new v) old := by
  unfold mergeWord FieldDef.mergeInto FieldDef.lowIn FieldDef.widthIn
  congr 1
  funext v f
  dsimp only
  split
  · rfl
  · cases f.acc <;> simp only [Access.merge, setBits_bits_self]

/-- A field's part of a write leaves the bits of every field apart from it alone. -/
theorem FieldDef.bits_mergeInto_apart (f g : FieldDef) (k new v : Nat) (hg : g.inWord k = true) (h : f.apart g = true) :
    bits (f.mergeInto k new v) (g.lo - 32 * k) g.width = bits v (g.lo - 32 * k) g.width := by
  simp only [FieldDef.inWord, FieldDef.apart, Bool.and_eq_true, Bool.or_eq_true, decide_eq_true_eq] at hg h
  unfold FieldDef.mergeInto FieldDef.lowIn FieldDef.widthIn
  split
  · rfl
  · exact bits_setBits_other _ _ _ _ _ _ (by omega)

theorem Access.merge_lt (acc : Access) (w old new : Nat) (ho : old < 2 ^ w) (hn : new < 2 ^ w) : acc.merge old new < 2 ^ w := by
  cases acc with
  | rw => exact hn
  | w1c => exact Nat.xor_lt_two_pow ho (Nat.and_lt_two_pow _ hn)
  | w1s => exact Nat.or_lt_two_pow ho hn
  | ro | wo | stg => exact ho

/-- A field's part of a write gives its own bits by its access code. -/
theorem FieldDef.bits_mergeInto_self (f : FieldDef) (k new v : Nat) (hf : f.inWord k = true) :
    bits (f.mergeInto k new v) (f.lo - 32 * k) f.width =
      f.acc.merge (bits v (f.lo - 32 * k) f.width) (bits new (f.lo - 32 * k) f.width) := by
  obtain ⟨hlow, hwidth⟩ := FieldDef.place_of_inWord hf
  have hlt := f.acc.merge_lt f.width _ _ (bits_lt v (f.lo - 32 * k) f.width) (bits_lt new (f.lo - 32 * k) f.width)
  unfold FieldDef.mergeInto
  rw [hlow, hwidth]
  split
  · next h =>
    have h0 : f.width = 0 := by rw [← hwidth, FieldDef.widthIn]; omega
    simp only [h0, Nat.pow_zero, Nat.lt_one_iff] at hlt ⊢
    rw [hlt, bits, Nat.pow_zero, Nat.mod_one]
  · rw [bits_setBits_self, Nat.mod_eq_of_lt hlt]

/-- Writes of fields apart from `g` leave its bits alone. -/
theorem bits_foldl_mergeInto_apart (fields : List FieldDef) (g : FieldDef) (k new : Nat) (hg : g.inWord k = true)
    (h : ∀ f ∈ fields, f.apart g = true) (v : Nat) :
    bits (fields.foldl (fun v f => f.mergeInto k new v) v) (g.lo - 32 * k) g.width = bits v (g.lo - 32 * k) g.width := by
  induction fields generalizing v with
  | nil => rfl
  | cons f fields ih =>
    rw [List.foldl_cons, ih (fun e he => h e (List.mem_cons_of_mem f he)),
      FieldDef.bits_mergeInto_apart f g k new v hg (h f List.mem_cons_self)]

theorem FieldDef.apart_comm (f g : FieldDef) : f.apart g = g.apart f := Bool.or_comm _ _

/-- R6: a write gives each field of the word its bits by the field's own access code. -/
theorem bits_mergeWord (fields : List FieldDef) (g : FieldDef) (k old new : Nat) (hg : g.inWord k = true)
    (hd : fields.Pairwise (fun f e => f.apart e = true)) (hm : g ∈ fields) :
    bits (mergeWord fields k old new) (g.lo - 32 * k) g.width =
      g.acc.merge (bits old (g.lo - 32 * k) g.width) (bits new (g.lo - 32 * k) g.width) := by
  rw [mergeWord_eq_foldl]
  induction fields generalizing old with
  | nil => exact absurd hm List.not_mem_nil
  | cons f fields ih =>
    obtain ⟨hf, hd⟩ := List.pairwise_cons.mp hd
    rw [List.foldl_cons]
    obtain rfl | hm := List.mem_cons.mp hm
    · rw [bits_foldl_mergeInto_apart fields g k new hg (fun e he => by rw [FieldDef.apart_comm, hf e he]),
        FieldDef.bits_mergeInto_self g k new old hg]
    · rw [ih _ hd hm, FieldDef.bits_mergeInto_apart f g k new old hg (hf g hm)]

/-! ## Fields on the chip -/

/-- A field that lies in one word is bits of that word. -/
theorem Chip.rd_eq_bits (c : Chip) (f : Field) (i : Nat) (h : f.lo % 32 + f.width ≤ 32) :
    c.rd f i = bits (c.regs.get (f.base i)).toNat (f.lo % 32) f.width := by
  apply Nat.eq_of_testBit_eq
  intro j
  have hfit := f.fits
  unfold Chip.rd RegFile.fld
  rw [testBit_bits, testBit_bits, RegFile.testBit_words]
  by_cases hj : j < f.width
  · have hdiv : (f.lo % 32 + j) / 32 = 0 := by omega
    have hmod : (f.lo % 32 + j) % 32 = f.lo % 32 + j := by omega
    have hin : f.lo % 32 + j < 32 * f.nwords := by omega
    simp [hdiv, hmod, hin]
  · simp [hj]

/-- A field reads less than its width allows. -/
theorem Chip.rd_lt (c : Chip) (f : Field) (i : Nat) : c.rd f i < 2 ^ f.width := by
  unfold Chip.rd RegFile.fld
  exact bits_lt _ _ _

/-- A field of one word reads alike in two chips that agree on that word. -/
theorem Chip.rd_eq_of_word_eq {c d : Chip} {f : Field} {i : Nat} (h : f.lo % 32 + f.width ≤ 32)
    (e : d.regs.get (f.base i) = c.regs.get (f.base i)) : d.rd f i = c.rd f i := by
  rw [Chip.rd_eq_bits d f i h, Chip.rd_eq_bits c f i h, e]

theorem Chip.plainWrite_within (c : Chip) (r : RegDef) (k a v : Nat) : c.within (c.plainWrite r k a v) [.regs] := rfl

theorem Chip.plainWrite_get_self (c : Chip) (r : RegDef) (k a v : Nat) :
    (c.plainWrite r k a v).regs.get a = BitVec.ofNat 32 (mergeWord r.fields k (c.regs.get a).toNat v) := by
  simp [Chip.plainWrite]

theorem Chip.plainWrite_get_other (c : Chip) (r : RegDef) (k a v b : Nat) (h : b ≠ a) :
    (c.plainWrite r k a v).regs.get b = c.regs.get b := RegFile.get_set_other _ _ _ _ h

/-- Register `r` has field `f` in its word `k`, with access `acc`, and no two of its fields overlap. -/
def RegDef.shows (r : RegDef) (k : Nat) (f : Field) (acc : Access) : Bool :=
  decide (r.fields.Pairwise fun d e => d.apart e = true) && decide (f.lo < 32) &&
    r.fields.any fun d => d.inWord k && d.lo == 32 * k + f.lo && d.width == f.width && d.acc == acc

/-- R6: after a write by access codes a field reads as its own access code gives. -/
theorem Chip.rd_plainWrite (c : Chip) {r : RegDef} {k a : Nat} (v : Nat) {f : Field} {i : Nat} {acc : Access} (ha : f.base i = a)
    (h : r.shows k f acc = true) : (c.plainWrite r k a v).rd f i = acc.merge (c.rd f i) (bits v f.lo f.width) := by
  subst ha
  simp only [RegDef.shows, Bool.and_eq_true, decide_eq_true_eq, List.any_eq_true, beq_iff_eq] at h
  obtain ⟨⟨hapart, hbit⟩, g, hg, ⟨⟨hin, hlo⟩, hwidth⟩, rfl⟩ := h
  have hmerge := bits_mergeWord r.fields g k (c.regs.get (f.base i)).toNat v hin hapart hg
  simp only [FieldDef.inWord, Bool.and_eq_true, decide_eq_true_eq] at hin
  have hword : f.lo % 32 + f.width ≤ 32 := by omega
  rw [show g.lo - 32 * k = f.lo by omega, hwidth] at hmerge
  rw [Chip.rd_eq_bits _ f i hword, Chip.rd_eq_bits c f i hword, Nat.mod_eq_of_lt hbit, Chip.plainWrite_get_self, ← hmerge,
    BitVec.toNat_ofNat]
  apply Nat.eq_of_testBit_eq
  intro j
  rw [testBit_bits, testBit_bits, Nat.testBit_mod_two_pow]
  by_cases hj : j < f.width
  · simp [show f.lo + j < 32 by omega]
  · simp [hj]

/-- A field with access RW reads its bits of the word written. -/
theorem Chip.rd_plainWrite_rw (c : Chip) {r : RegDef} {k a : Nat} (v : Nat) {f : Field} {i : Nat} (ha : f.base i = a)
    (h : r.shows k f .rw = true) : (c.plainWrite r k a v).rd f i = bits v f.lo f.width := c.rd_plainWrite v ha h

/-- Field `f` of element `i` has access `acc` and lies in a word of BAR0 to whose writes no block adds. -/
def Field.plainAs (f : Field) (i : Nat) (acc : Access) : Bool :=
  match findReg (f.base i) with
  | some (r, k) => f.base i % 4 == 0 && decide (f.base i < 2 ^ 26) && !blockActs (f.base i) r.addr && r.shows k f acc
  | none => false

/-- R6: what a write does to such a field, and to every other word. -/
theorem Chip.registerWrite_field (c : Chip) (f : Field) (i v : Nat) (acc : Access) (h : f.plainAs i acc = true) :
    c.within (c.registerWrite (f.base i) 4 v) [.regs] ∧
      (c.registerWrite (f.base i) 4 v).rd f i = acc.merge (c.rd f i) (bits v f.lo f.width) ∧
      ∀ b, b ≠ f.base i → (c.registerWrite (f.base i) 4 v).regs.get b = c.regs.get b := by
  unfold Field.plainAs at h
  split at h
  · next r k hf =>
    simp only [Bool.and_eq_true, decide_eq_true_eq, beq_iff_eq, Bool.not_eq_true'] at h
    obtain ⟨⟨⟨halign, hbar⟩, hquiet⟩, hshows⟩ := h
    rw [Chip.registerWrite_plain halign hf hbar hquiet]
    exact ⟨c.plainWrite_within r k _ v, c.rd_plainWrite v rfl hshows, fun b hb => c.plainWrite_get_other r k _ v b hb⟩
  · exact absurd h Bool.false_ne_true

/-! ## The command -/

/-- A write that is served, and whose work lies in the parts a write can reach, answers the chip that it makes. -/
theorem answers_registerWrite_served {s : State} {a size : Nat} {v : Word} {P : Chip → Prop} (ha : s.chip.awake = true)
    (hs : s.chip.heard = true ∨ 2 ^ 26 ≤ a) (hw : s.chip.within (s.chip.registerWrite a size v.toNat) [.regs, .sent])
    (hp : P (s.chip.registerWrite a size v.toNat)) : Answers s (.registerWrite a size v) P := by
  have hserved : (s.chip.heard || decide (2 ^ 26 ≤ a)) = true := by simpa using hs
  refine ⟨_, ?_, hp⟩
  show execRegisterWrite a size v s = _
  rw [execRegisterWrite, State.run_awake _ _ _ ha, if_pos hserved]
  congr 2
  exact Chip.within_mono _ _ _ _ hw rfl

theorem answers_registerWrite {s : State} {a size : Nat} {v : Word} {P : Chip → Prop} (hh : s.chip.heard = true)
    (hw : s.chip.within (s.chip.registerWrite a size v.toNat) [.regs, .sent])
    (hp : P (s.chip.registerWrite a size v.toNat)) : Answers s (.registerWrite a size v) P :=
  answers_registerWrite_served (Chip.awake_of_heard _ hh) (.inl hh) hw hp

/-- A heard write that leaves the chip as it is answers that chip. -/
theorem answers_registerWrite_kept {s : State} {a size : Nat} {v : Word} (hh : s.chip.heard = true)
    (he : s.chip.registerWrite a size v.toNat = s.chip) : Answers s (.registerWrite a size v) (fun d => d = s.chip) :=
  answers_registerWrite hh (by rw [he]; exact Chip.within_refl _ _) he

/-- R271: in D3hot a write in BAR0 does nothing. -/
theorem answers_registerWrite_unheard {s : State} {a size : Nat} {v : Word} (hh : s.chip.heard = false) (ha : a < 2 ^ 26) :
    Answers s (.registerWrite a size v) (fun d => d = s.chip) := by
  have hserved : (s.chip.heard || decide (2 ^ 26 ≤ a)) = false := by simpa [hh] using ha
  refine ⟨s.chip, ?_, rfl⟩
  show execRegisterWrite a size v s = _
  cases haw : s.chip.awake with
  | false => exact State.run_asleep _ _ _ haw
  | true =>
    rw [execRegisterWrite, State.run_awake _ _ _ haw, hserved, if_neg Bool.false_ne_true]
    exact congrArg (fun d => Host.Outcome.next { s with chip := d }) (Chip.within_refl _ _)

/-- R6: a heard write of a field to whose writes no block adds. -/
theorem answers_registerWrite_field {s : State} {f : Field} {i : Nat} (v : Word) {acc : Access} (hh : s.chip.heard = true)
    (hf : f.plainAs i acc = true) :
    Answers s (.registerWrite (f.base i) 4 v) (fun d => s.chip.within d [.regs] ∧
      d.rd f i = acc.merge (s.chip.rd f i) (bits v.toNat f.lo f.width) ∧
      ∀ b, b ≠ f.base i → d.regs.get b = s.chip.regs.get b) := by
  have h := s.chip.registerWrite_field f i v.toNat acc hf
  exact answers_registerWrite hh (Chip.within_mono _ _ _ _ h.1 rfl) h

theorem Answers.mono {s : State} {i : Instr} {P Q : Chip → Prop} (h : Answers s i P) (k : ∀ d, P d → Q d) : Answers s i Q := by
  obtain ⟨d, hd, hp⟩ := h
  exact ⟨d, hd, k d hp⟩

/-! ## Writes to which a block adds -/

/-- Every other register of the table is clear of register `r`. -/
def RegDef.alone (r : RegDef) : Bool := regTable.all fun q => q == r || r.clearOf q

/-- The word of an array element is found as its register's, with its place in the element. -/
theorem findReg_element {r : RegDef} {n k : Nat} (hm : r ∈ regTable) (ha : r.alone = true) (hs : 4 * r.words ≤ r.stride)
    (hn : n < r.count) (hk : k < r.words) :
    findReg (r.addr + r.stride * n + 4 * k) = some (r, k) ∧ r.elem (r.addr + r.stride * n + 4 * k) = n := by
  have hpos : 0 < r.stride := by omega
  have hoff : r.addr + r.stride * n + 4 * k - r.addr = 4 * k + r.stride * n := by omega
  have hdiv : (4 * k + r.stride * n) / r.stride = n := by
    rw [Nat.add_mul_div_left _ _ hpos, Nat.div_eq_of_lt (by omega), Nat.zero_add]
  have hmod : (4 * k + r.stride * n) % r.stride = 4 * k := by
    rw [Nat.add_mul_mod_self_left, Nat.mod_eq_of_lt (by omega)]
  have hle : r.addr ≤ r.addr + r.stride * n + 4 * k := by omega
  have hholds : r.holds (r.addr + r.stride * n + 4 * k) = true := by
    simp [RegDef.holds, hoff, hdiv, hmod, hpos.ne', hn, hk, hle]
  have hword : r.wordAt (r.addr + r.stride * n + 4 * k) = k := by
    rw [RegDef.wordAt, if_neg hpos.ne', hoff, hmod, Nat.mul_div_cancel_left k (by norm_num)]
  exact ⟨by rw [findReg_of_holds hm ha hholds, hword], by rw [RegDef.elem, if_neg hpos.ne', hoff, hdiv]⟩

/-- R596: ENABLE of DSP_CTRL is not taken before stage 11 has passed. -/
theorem Chip.registerWrite_dspCtrl_early (c : Chip) (v : Nat) (hp : c.rd R.BUP_STATUS_LAST_PASSED < 11) (hv : v.testBit 0 = true) :
    c.within (c.registerWrite R.DSP_CTRL.addr 4 v) [.regs] ∧
      (c.registerWrite R.DSP_CTRL.addr 4 v).rd R.DSP_CTRL_ENABLE = c.rd R.DSP_CTRL_ENABLE := by
  have hreg : (findReg R.DSP_CTRL.addr).isSome = true := by decide +kernel
  obtain ⟨⟨r, k⟩, hf⟩ := Option.isSome_iff_exists.mp hreg
  rw [Chip.registerWrite_dsp (by decide) hf (by decide) (by decide) (by
    rw [Chip.dspWritten, if_pos rfl, hv, Bool.true_and, decide_eq_true hp, if_pos rfl])]
  exact ⟨Chip.within_trans _ _ _ _ (c.plainWrite_within r k _ v) (Chip.wr_within _ _ _ _),
    by rw [Chip.rd_wr_self, Nat.mod_eq_of_lt (c.rd_lt R.DSP_CTRL_ENABLE 0)]⟩

/-- R596: QMG_CTRL.ENABLE is not taken before stage 11 has passed. -/
theorem Chip.registerWrite_qmgCtrl_early (c : Chip) (v : Nat) (hp : c.rd R.BUP_STATUS_LAST_PASSED < 11) (hv : v.testBit 0 = true) :
    c.registerWrite R.QMG_CTRL.addr 4 v = c := by
  have hreg : ∃ p ∈ findReg R.QMG_CTRL.addr, p.1.addr = R.QMG_CTRL.addr := by decide +kernel
  obtain ⟨⟨r, k⟩, hf, haddr⟩ := hreg
  refine Chip.registerWrite_mem (by decide) hf (by decide) (by rw [haddr]; decide) ?_
  rw [Chip.memWritten, if_pos rfl, hv, Bool.true_and, decide_eq_true hp, if_pos rfl]

/-- R299: the base of the queue contexts is kept while the queue manager is enabled. -/
theorem Chip.registerWrite_qmgBase_enabled (c : Chip) (v : Nat) (he : c.on R.QMG_CTRL_ENABLE = true) :
    c.registerWrite R.QMG_CTX_BASE_LO.addr 4 v = c := by
  have hreg : ∃ p ∈ findReg R.QMG_CTX_BASE_LO.addr, p.1.addr = R.QMG_CTX_BASE_LO.addr := by decide +kernel
  obtain ⟨⟨r, k⟩, hf, haddr⟩ := hreg
  have hrange : (decide (R.QMG_CTX_BASE_LO.addr ≤ R.QMG_CTX_BASE_LO.addr) &&
    decide (R.QMG_CTX_BASE_LO.addr ≤ R.QMG_SPILL_BASE_HI.addr)) = true := by decide
  refine Chip.registerWrite_mem (by decide) hf (by decide) (by rw [haddr]; decide) ?_
  rw [Chip.memWritten, if_neg (by decide), if_pos hrange, if_pos he]

/-- R318: the configuration of DRAM is kept while the DRC is enabled. -/
theorem Chip.registerWrite_drcCfg_enabled (c : Chip) (v : Nat) (he : c.on R.DRC_CTRL_ENABLE = true) :
    c.registerWrite R.DRC_CFG.addr 4 v = c := by
  have hreg : ∃ p ∈ findReg R.DRC_CFG.addr, p.1.addr = R.DRC_CFG.addr := by decide +kernel
  obtain ⟨⟨r, k⟩, hf, haddr⟩ := hreg
  refine Chip.registerWrite_mem (by decide) hf (by decide) (by rw [haddr]; decide) ?_
  rw [Chip.memWritten, if_neg (by decide), if_neg (by decide), if_neg (by decide), if_pos rfl]
  exact congrArg some (if_pos he)

/-- R94: every word of an enabled launch entry but word 1 is kept. Word 1 holds ENABLE itself. -/
theorem Chip.registerWrite_launch_enabled (c : Chip) (v n k : Nat) (hn : n < 64) (hk : k < 8) (hk1 : k ≠ 1)
    (he : c.on R.DSP_LAUNCH_ENABLE n = true) : c.registerWrite (R.DSP_LAUNCH.addr + 32 * n + 4 * k) 4 v = c := by
  have hreg : ∃ r ∈ regTable, r.addr = R.DSP_LAUNCH.addr ∧ r.stride = 32 ∧ r.count = 64 ∧ r.words = 8 ∧ r.alone = true := by
    decide +kernel
  obtain ⟨r, hm, haddr, hstride, hcount, hwords, halone⟩ := hreg
  have hbase : R.DSP_LAUNCH.addr = 0x202000 := rfl
  obtain ⟨hf, hi⟩ := findReg_element (n := n) (k := k) hm halone (by omega) (by omega) (by omega)
  rw [haddr, hstride] at hf hi
  have hpair : R.DSP_LAUNCH.addr + 32 * n + 4 * k ≠ R.TWL_GNG_PAIR.addr := by simp only [R.DSP_LAUNCH, R.TWL_GNG_PAIR]; omega
  have hctrl : R.DSP_LAUNCH.addr + 32 * n + 4 * k ≠ R.DSP_CTRL.addr := by simp only [R.DSP_LAUNCH, R.DSP_CTRL]; omega
  have hword : (R.DSP_LAUNCH.addr + 32 * n + 4 * k - R.DSP_LAUNCH.addr) % 32 / 4 = k := by omega
  refine Chip.registerWrite_dsp (by omega) hf (by omega) hpair ?_
  rw [haddr, hi, Chip.dspWritten, if_neg hctrl, if_neg (by decide), if_neg (by decide), if_pos rfl]
  simp [hword, hk1, he]

/-- R135: a write of MSL_RET_CTRL sets RET_ALLOW, and RET_IDLE_US to at least 1. -/
theorem Chip.registerWrite_retCtrl (c : Chip) (v : Nat) :
    c.within (c.registerWrite R.MSL_RET_CTRL.addr 4 v) [.regs] ∧
      (c.registerWrite R.MSL_RET_CTRL.addr 4 v).rd R.MSL_RET_CTRL_RET_IDLE_US = max 1 (bits v 8 16) ∧
      (c.registerWrite R.MSL_RET_CTRL.addr 4 v).rd R.MSL_RET_CTRL_RET_ALLOW = bits v 0 8 := by
  have hreg : ∃ p ∈ findReg R.MSL_RET_CTRL.addr, p.1.addr = R.MSL_RET_CTRL.addr ∧
      p.1.shows p.2 R.MSL_RET_CTRL_RET_IDLE_US .rw = true ∧ p.1.shows p.2 R.MSL_RET_CTRL_RET_ALLOW .rw = true := by decide +kernel
  obtain ⟨⟨r, k⟩, hf, haddr, hidle, hallow⟩ := hreg
  have hwithin := c.plainWrite_within r k R.MSL_RET_CTRL.addr v
  have hidle : (c.plainWrite r k R.MSL_RET_CTRL.addr v).rd R.MSL_RET_CTRL_RET_IDLE_US = bits v 8 16 :=
    c.rd_plainWrite_rw v rfl hidle
  have hallow : (c.plainWrite r k R.MSL_RET_CTRL.addr v).rd R.MSL_RET_CTRL_RET_ALLOW = bits v 0 8 :=
    c.rd_plainWrite_rw v rfl hallow
  rw [Chip.registerWrite_msl (by decide) hf (by decide) (by decide) (by rw [haddr]; decide) (by rw [Chip.mslWritten, if_pos rfl])]
  generalize c.plainWrite r k R.MSL_RET_CTRL.addr v = d at *
  split
  · next h0 =>
    refine ⟨Chip.within_trans _ _ _ _ hwithin (Chip.wr_within _ _ _ _), ?_, ?_⟩
    · rw [Chip.rd_wr_self, ← hidle, h0]
      rfl
    · rw [Chip.rd_wr_apart _ _ _ _ _ _ (by decide), hallow]
  · exact ⟨hwithin, by omega, hallow⟩

/-- R271: a write of the power state takes effect, but for a state that does not exist. -/
theorem Chip.registerWrite_pmState (c : Chip) (v : Nat) :
    c.within (c.registerWrite R.PCI_PM_STATE.addr 4 v) [.regs] ∧
      (c.registerWrite R.PCI_PM_STATE.addr 4 v).rd R.PCI_PM_STATE =
        (if v % 4 = 1 ∨ v % 4 = 2 then c.rd R.PCI_PM_STATE else v % 4) ∧
      ∀ b, b ≠ R.PCI_PM_STATE.addr → (c.registerWrite R.PCI_PM_STATE.addr 4 v).regs.get b = c.regs.get b := by
  have hreg : ∃ p ∈ findReg R.PCI_PM_STATE.addr, p.1.shows p.2 R.PCI_PM_STATE .rw = true := by decide +kernel
  obtain ⟨⟨r, k⟩, hf, hshows⟩ := hreg
  have hwithin := c.plainWrite_within r k R.PCI_PM_STATE.addr v
  have hother := c.plainWrite_get_other r k R.PCI_PM_STATE.addr v
  have hrd : (c.plainWrite r k R.PCI_PM_STATE.addr v).rd R.PCI_PM_STATE = v % 4 := c.rd_plainWrite_rw v rfl hshows
  rw [Chip.registerWrite_config (by decide) hf (by decide), Chip.configWritten, if_pos rfl, hrd]
  generalize c.plainWrite r k R.PCI_PM_STATE.addr v = d at *
  split
  · refine ⟨Chip.within_trans _ _ _ _ hwithin (Chip.wr_within _ _ _ _),
      by rw [Chip.rd_wr_self, Nat.mod_eq_of_lt (c.rd_lt R.PCI_PM_STATE 0)], fun b hb => ?_⟩
    rw [← hother b hb]
    refine RegFile.get_setFld_other _ _ _ _ _ (fun j hj => ?_)
    have hj0 : j = 0 := by simpa [Field.nwords, R.PCI_PM_STATE] using hj
    simpa [hj0, Field.base, R.PCI_PM_STATE] using hb
  · exact ⟨hwithin, hrd, hother⟩

/-! ## The MSI-X table -/

/-- The mask bit of an entry of the MSI-X table. -/
def msixMask : Field := ⟨0x1000C, 0, 1, 16⟩

theorem msixMask_base (n : Nat) : msixMask.base n = msixControl n := by
  simp only [Field.base, msixMask, msixControl]
  omega

/-- A chip whose mask bit of vector `n` reads 0 has that bit clear. -/
theorem Chip.msixControl_clear {c : Chip} {n : Nat} (h : c.rd msixMask n = 0) :
    (c.regs.get (msixControl n)).getLsbD 0 = false := by
  rw [Chip.rd_eq_bits _ _ _ (by decide), msixMask_base] at h
  change bits _ 0 1 = 0 at h
  rw [bits_one] at h
  simpa [BitVec.getLsbD] using h

/-- A vector that is pending and no longer masked is sent, and its pending bit cleared (R280). -/
theorem Chip.sendPending_sends (d : Chip) (n : Nat) (he : d.on R.PCI_MSIX_ENABLE = true) (hm : d.vectorMasked n = false)
    (hp : (d.regs.get (msixPba n)).getLsbD (n % 32) = true) :
    d.sendPending n =
      { d with regs := d.regs.set (msixPba n) (d.regs.get (msixPba n) &&& ~~~(1#32 <<< (n % 32))) }.emit .msix n 0 [] := by
  simp [Chip.sendPending, he, hm, hp]

/-- No unit asked before the queue manager acts at an offset of the MSI-X table. -/
theorem blocks_quiet_in_msixTable {a : Nat} (hlo : 0x10000 ≤ a) (hhi : a < 0x18000) :
    (a == R.TWL_GNG_PAIR.addr || dspActs a 0x10000 || mslActs a 0x10000 || atuActs a 0x10000 || opActs a) = false := by
  have hatu : ¬ R.ATU_PFT_BASE_LO.addr ≤ a := by simp only [R.ATU_PFT_BASE_LO]; omega
  simp only [dspActs, mslActs, atuActs, opActs, hatu, decide_false, Bool.false_and, List.contains_cons, List.contains_nil,
    Bool.or_false, Bool.or_eq_false_iff, beq_eq_false_iff_ne, R.TWL_GNG_PAIR, R.DSP_CTRL, R.DSP_SIG, R.DSP_SIG_POISON,
    R.DSP_LAUNCH, R.MSL_RET_CTRL, R.MSL_BT_CTRL, R.MSL_SOFT_REPAIR, R.MSL_DEGRADED, R.ATU_CTRL, R.ATU_CMD, R.ATU_KVCFG,
    R.TWL_SVC_CMD, R.QMG_QCMD, R.TWD_TRACK_CMD, R.CNV_SVC_CMD, Field.inst, R.TKU_CMD, R.PWR_CMD, R.ODX_REQ, R.BUP_CMD]
  omega

/-- A write of the MSI-X table sends its vector if it is pending and no longer masked (R280). -/
theorem Chip.memWritten_msixTable (c d : Chip) {a : Nat} (n v : Nat) (hlo : 0x10000 ≤ a) (hhi : a < 0x18000) :
    c.memWritten d a 0x10000 n v = some (d.sendPending n) := by
  have hq : a ≠ R.QMG_CTRL.addr := by simp only [R.QMG_CTRL]; omega
  have hlow : ¬ R.QMG_CTX_BASE_LO.addr ≤ a := by simp only [R.QMG_CTX_BASE_LO]; omega
  have hbase : (decide (R.QMG_CTX_BASE_LO.addr ≤ a) && decide (a ≤ R.QMG_SPILL_BASE_HI.addr)) = false := by simp [hlow]
  have hctrl : a ≠ R.DRC_CTRL.addr := by simp only [R.DRC_CTRL]; omega
  have hcfg : a ≠ R.DRC_CFG.addr := by simp only [R.DRC_CFG]; omega
  rw [Chip.memWritten, if_neg hq, hbase, if_neg Bool.false_ne_true, if_neg hctrl, if_neg hcfg, if_pos rfl]

/-- R280: a write that clears the mask bit of a pending vector sends the vector. -/
theorem Chip.registerWrite_unmasks (c : Chip) (n v : Nat) (hn : n < 2048) (hv : v.testBit 0 = false)
    (he : c.on R.PCI_MSIX_ENABLE = true) (hfm : c.on R.PCI_MSIX_FUNCTION_MASK = false)
    (hp : (c.regs.get (msixPba n)).getLsbD (n % 32) = true) :
    c.within (c.registerWrite (msixControl n) 4 v) [.regs, .sent] ∧
      (c.registerWrite (msixControl n) 4 v).sent = ⟨.msix, n, 0, []⟩ :: c.sent ∧
      ((c.registerWrite (msixControl n) 4 v).regs.get (msixControl n)).getLsbD 0 = false ∧
      ((c.registerWrite (msixControl n) 4 v).regs.get (msixPba n)).getLsbD (n % 32) = false := by
  have hreg : ∃ r ∈ regTable, r.addr = 0x10000 ∧ r.stride = 16 ∧ r.count = 2048 ∧ r.words = 4 ∧ r.alone = true ∧
      r.shows 3 msixMask .rw = true := by decide +kernel
  obtain ⟨r, hm, haddr, hstride, hcount, hwords, halone, hshows⟩ := hreg
  obtain ⟨hf, hi⟩ := findReg_element (n := n) (k := 3) hm halone (by omega) (by omega) (by omega)
  have hplace : r.addr + r.stride * n + 4 * 3 = msixControl n := by rw [haddr, hstride, msixControl]; omega
  rw [hplace] at hf hi
  have hlo : 0x1000C ≤ msixControl n := by rw [msixControl]; omega
  have hhi : msixControl n < 0x18000 := by rw [msixControl]; omega
  have hpba : msixPba n ≠ msixControl n := by rw [msixPba, msixControl]; omega
  have hmsg : 0x4000048 ≠ msixControl n := by omega
  have hmask : (c.plainWrite r 3 (msixControl n) v).rd msixMask n = 0 := by
    rw [c.rd_plainWrite_rw v (msixMask_base n) hshows]
    show bits v 0 1 = 0
    rw [bits_one, hv]
    rfl
  have hget := c.plainWrite_get_other r 3 (msixControl n) v
  have hwithin := c.plainWrite_within r 3 (msixControl n) v
  have hsent : (c.plainWrite r 3 (msixControl n) v).sent = c.sent := rfl
  rw [Chip.registerWrite_mem (by rw [msixControl]; omega) hf (by omega)
    (by rw [haddr]; exact blocks_quiet_in_msixTable (by omega) hhi)
    (by rw [haddr, hi]; exact c.memWritten_msixTable _ n v (by omega) hhi)]
  generalize c.plainWrite r 3 (msixControl n) v = d at *
  rw [d.sendPending_sends n (by rw [Chip.on, Chip.rd_eq_of_word_eq (by decide) (hget 0x4000048 hmsg)]; exact he)
    (by
      rw [Chip.vectorMasked, Chip.msixControl_clear hmask, Bool.or_false, Chip.on, Chip.rd_eq_of_word_eq (by decide) (hget 0x4000048 hmsg)]
      exact hfm)
    (by rw [hget _ hpba]; exact hp)]
  refine ⟨?_, ?_, ?_, ?_⟩
  · refine Chip.within_trans _ _ _ _ (Chip.within_mono _ _ _ _ hwithin rfl) ?_
    rfl
  · rw [← hsent]
    rfl
  · rw [Chip.emit_regs, RegFile.get_set_other _ _ _ _ hpba.symm]
    exact Chip.msixControl_clear hmask
  · rw [Chip.emit_regs, RegFile.get_set_self]
    simp [Nat.mod_lt]

/-! ## The obligation -/

/-- A bit with access W1C is cleared by a 1 and left by a 0. -/
theorem Access.merge_w1c_bit (old v lo : Nat) (h : old < 2) :
    Access.w1c.merge old (bits v lo 1) = if v.testBit lo then 0 else old := by
  rw [bits_one]
  cases v.testBit lo
  · simp [Access.merge]
  · interval_cases old <;> rfl

/-- R6: a heard write clears the bits of HIF_EVT_PEND that it has set, and leaves the others. -/
theorem answers_registerWrite_evtPend {s : State} (v : Word) {n : Nat} (hh : s.chip.heard = true) (hn : n < 20) :
    Answers s (.registerWrite (R.HIF_EVT_PEND_PEND.base 0) 4 v) (fun d =>
      (d.rd R.HIF_EVT_PEND_PEND).testBit n = ((s.chip.rd R.HIF_EVT_PEND_PEND).testBit n && !v.toNat.testBit n)) := by
  have hplain : R.HIF_EVT_PEND_PEND.plainAs 0 .w1c = true := by decide +kernel
  refine (answers_registerWrite_field v hh hplain).mono fun d ⟨_, hrd, _⟩ => ?_
  have hbit : (bits v.toNat R.HIF_EVT_PEND_PEND.lo R.HIF_EVT_PEND_PEND.width).testBit n = v.toNat.testBit n := by
    simp [testBit_bits, R.HIF_EVT_PEND_PEND, hn]
  rw [hrd, Access.merge, Nat.testBit_xor, Nat.testBit_and, hbit]
  cases (s.chip.rd R.HIF_EVT_PEND_PEND).testBit n <;> simp

/-- R6: a heard write clears a W1C bit to whose writes no block adds where it has a 1 there, and leaves it where it has a 0. -/
theorem answers_registerWrite_w1cBit {s : State} {f : Field} (v : Word) (hh : s.chip.heard = true) (hf : f.plainAs 0 .w1c = true)
    (hwidth : f.width = 1) :
    Answers s (.registerWrite (f.base 0) 4 v) (fun d => s.chip.within d [.regs] ∧
      d.rd f = (if v.toNat.testBit f.lo then 0 else s.chip.rd f) ∧ ∀ b, b ≠ f.base 0 → d.regs.get b = s.chip.regs.get b) := by
  have hlt := s.chip.rd_lt f 0
  refine (answers_registerWrite_field v hh hf).mono fun d ⟨hwithin, hrd, hother⟩ => ⟨hwithin, ?_, hother⟩
  rw [hwidth] at hrd hlt
  rw [hrd, Access.merge_w1c_bit _ _ _ hlt]

/-- Settles O9: a write is reduced to the write by access codes (`Chip.plainWrite`) and to what the one block that answers it adds;
each clause is the law of its register. -/
theorem registerWrites : Obligations.RegisterWrites := by
  unfold Obligations.RegisterWrites
  refine ⟨?misaligned, ?nowhere, ?unheard, ?powerState, ?readWrite, ?writeClear, ?pending, ?readOnly, ?early, ?enabled, ?unmask⟩
  case misaligned =>
    intro s a size v hh h
    refine answers_registerWrite hh ?_ (Chip.registerWrite_misaligned h)
    rw [Chip.registerWrite_misaligned h]
    exact Chip.within_ite _ _ _ _ _ (Chip.within_mono _ _ _ _ (Chip.wr_within _ _ _ _) rfl) (Chip.within_refl _ _)
  case nowhere => exact fun s a v hh ha hf => answers_registerWrite_kept hh (Chip.registerWrite_nowhere ha hf)
  case unheard => exact fun s a size v hh ha => answers_registerWrite_unheard hh ha
  case powerState =>
    intro s v ha
    have h := s.chip.registerWrite_pmState v.toNat
    exact answers_registerWrite_served ha (.inr (by decide)) (Chip.within_mono _ _ _ _ h.1 rfl) h
  case readWrite =>
    intro s f i v hh hf
    have hplain : f.plainAs i .rw = true := by
      have hlist : ∀ p ∈ [(R.DSP_IDLE_PHASE_PHASE, 0), (R.DSP_CTX_BASE_LO_ADDR_LO, 0), (R.MSL_HATOM_ADDR_WORD, 0),
          (R.HIF_EVT_MASK_MASK, 0), (R.PWR_WAKE_AT_LO_TIME_LO, 0), (R.BUP_REC_LO_DATA_LO, 0)], p.1.plainAs p.2 .rw = true := by
        decide +kernel
      have hprotect : ∀ i < 8, R.MSL_WP_PROTECT.plainAs i .rw = true := by decide +kernel
      obtain hf | ⟨rfl, hi⟩ := hf
      · exact hlist (f, i) hf
      · exact hprotect i hi
    exact answers_registerWrite_field v hh hplain
  case writeClear =>
    intro s f v hh hf
    have hlist : ∀ f ∈ [R.HIF_STATUS_LINK_DOWN_SEEN, R.HIF_STATUS_RESET_SEEN, R.HIF_STATUS_BAD_ACCESS, R.HIF_STATUS_HOST_ERR,
        R.MSL_STATUS_UE_LATCH, R.MSL_STATUS_WP_HIT, R.PWR_STATUS_OVER_CAP, R.PWR_STATUS_OVER_TEMP, R.PWR_STATUS_ISLAND_STALL],
        f.plainAs 0 .w1c = true ∧ f.width = 1 := by decide +kernel
    exact answers_registerWrite_w1cBit v hh (hlist f hf).1 (hlist f hf).2
  case pending => exact fun s v n hh hn => answers_registerWrite_evtPend v hh hn
  case readOnly =>
    intro s f v hh hf
    have hlist : ∀ f ∈ [R.HIF_STATUS_LINK_UP, R.HIF_STATUS_SPEED, R.HIF_STATUS_WIDTH, R.BUP_STATUS_LAST_PASSED, R.BUP_STATUS_READY,
        R.PWR_STATUS_OP, R.MSL_STATUS_GROUP_STATE, R.MSL_ECC_CE_CNT_COUNT], f.plainAs 0 .ro = true := by decide +kernel
    exact (answers_registerWrite_field v hh (hlist f hf)).mono fun d ⟨hwithin, hrd, _⟩ => ⟨hwithin, hrd⟩
  case early =>
    intro s v hh hp hv
    have h := s.chip.registerWrite_dspCtrl_early v.toNat hp hv
    exact ⟨answers_registerWrite hh (Chip.within_mono _ _ _ _ h.1 rfl) h.2,
      answers_registerWrite_kept hh (s.chip.registerWrite_qmgCtrl_early v.toNat hp hv)⟩
  case enabled =>
    intro s v hh
    have hret := s.chip.registerWrite_retCtrl v.toNat
    exact ⟨fun he => answers_registerWrite_kept hh (s.chip.registerWrite_qmgBase_enabled v.toNat he),
      fun he => answers_registerWrite_kept hh (s.chip.registerWrite_drcCfg_enabled v.toNat he),
      fun n k hn hk hk1 he => answers_registerWrite_kept hh (s.chip.registerWrite_launch_enabled v.toNat n k hn hk hk1 he),
      answers_registerWrite hh (Chip.within_mono _ _ _ _ hret.1 rfl) hret.2⟩
  case unmask =>
    intro s n v hh hn hv he hfm hp
    have h := s.chip.registerWrite_unmasks n v.toNat hn hv he hfm hp
    exact answers_registerWrite hh h.1 h.2

end Sys2Proof.Machine

/-! # A chip that does not run changes by pins only, and one held in reset stays as reset leaves it -/

namespace Sys2Proof.Machine

/-- What serves a command: domain 0 alone, the host interface, or every domain together. -/
inductive Server where
  | keeper
  | host
  | fabric

/-- A server's condition: domain 0 acts, the host is heard, or every domain is supplied. -/
def Server.up (v : Server) (c : Chip) : Bool :=
  match v with
  | .keeper => c.live
  | .host => c.heard
  | .fabric => c.awake

/-- The effect of a command through its server. -/
def Server.run (v : Server) (s : State) : List Part → (Chip → Chip) → Host.Outcome State Fault Refusal :=
  match v with
  | .keeper => s.runKeeper
  | .host => s.runHost
  | .fabric => s.run

/-- What serves a command that is no pin's level. -/
def serverOf (i : Instr) : Server := bif keeperCommand i then .keeper else bif hostCommand i then .host else .fabric

theorem exec_of_server {i : Instr} {s : State} (v : Server) (hv : serverOf i = v) (h : ∃ ps f, exec i s = v.run s ps f) :
    ∃ ps f, exec i s = (serverOf i).run s ps f := by
  rw [hv]
  exact h

/-- What serves a dictionary request. -/
def originServer (o : Origin) : Server :=
  match o with
  | .mgmt => .keeper
  | .host => .host
  | _ => .fabric

theorem State.runFor_server (s : State) (o : Origin) (ps : List Part) (f : Chip → Chip) :
    s.runFor o ps f = (originServer o).run s ps f := by
  cases o <;> rfl

theorem exec_of_runFor {i : Instr} {s : State} (o : Origin) (hv : serverOf i = originServer o)
    (h : ∃ ps f, exec i s = s.runFor o ps f) : ∃ ps f, exec i s = (serverOf i).run s ps f := by
  obtain ⟨ps, f, h⟩ := h
  exact ⟨ps, f, by rw [hv, h, State.runFor_server]⟩

/-- A command that is no pin's level runs a function of the chip on the parts it names, through its server. -/
theorem exec_server {i : Instr} (h : pinCommand i = false) (s : State) : ∃ ps f, exec i s = (serverOf i).run s ps f := by
  cases i with
  | keeperSupplyOn | keeperSupplyLoss | sysResetAssert | sysResetRelease | refclkKprLoss | perstAssert | perstRelease
  | railOutOfWindow | railsRestored => cases h
  | controlTick | commitInstant | estimateWindowEnd | pmbusRead | thermalSample | holdoverTimeout | sessionExpire | saveDone
  | journalMirror | tagPersist | repairAppendDone | standbyWakePin | standbyWakeTime | standbyWakeDone | warmRestartDone =>
    exact exec_of_server .keeper rfl ⟨_, _, rfl⟩
  | odxRead o | odxDescribe o | odxOpen o | odxStage o | odxCommit o | odxAbort o | odxWrite o | odxNote o | odxSave o
  | clearImage o =>
    exact exec_of_runFor o (by cases o <;> rfl) ⟨_, _, rfl⟩
  | kvWrite | kvSwap | kvInvalidate | kvClearHeld | kvFence | atuFreePush | kvResume | kvAbandon | powerSequenceCheck | fuseLoad
  | clockIslandStart | keeperRestore | muslinTest | dramTraining | dramTest | repairApply | knownAnswerRuns | dictionaryLoad
  | queueSetup | bupReady | stageAbort | cnvRemove | cnvTest | cnvReturn | dmkSpareRequest | drcRetire | drcPairRetire
  | drcTrainStart | drcTrainRestore | hostTxProd | gngFaultClear | jerseyDisable | jrsSwap | bar2Read | bar2Write | hatomSet
  | hatomClr | mslRepairApply | warmRestart | standby | queueEnable | queueDisable | queueQuery | doorbellWrite
  | repairRecordAppend | domainRestart | tkuSnap | tkuSet | tkuStep | forcePending | relock | offsetSubmit | txtsPop
  | trackDelete | trackConfirm | tulleEnable | twlRemove | twlTest | twlReturn | twlActivate | twlGngPairWrite | dspCancel
  | dspSigAdd | dspSigWrite | statClear | dspCtrlEnable => exact exec_of_server .host rfl ⟨_, _, rfl⟩
  | _ => exact exec_of_server .fabric rfl ⟨_, _, rfl⟩


theorem Server.run_down {v : Server} {s : State} (h : v.up s.chip = false) (ps : List Part) (f : Chip → Chip) :
    v.run s ps f = .next s := by
  cases v with
  | keeper => exact State.runKeeper_dead s ps f h
  | host => exact State.runHost_unheard s ps f h
  | fabric => exact State.run_asleep s ps f h

theorem Server.run_up {v : Server} {s : State} (h : v.up s.chip = true) (ps : List Part) (f : Chip → Chip) :
    v.run s ps f = .next { s with chip := (f s.chip).only ps s.chip } := by
  cases v with
  | keeper => exact State.runKeeper_live s ps f h
  | host => exact State.runHost_heard s ps f h
  | fabric => exact State.run_awake s ps f h

/-- Nothing serves a command while the KB9 does not act. -/
theorem Server.down_of_dead (v : Server) {c : Chip} (h : c.live = false) : v.up c = false := by
  have ha : c.awake = false := by simp [Chip.awake, h]
  cases v with
  | keeper => exact h
  | host => simp [Server.up, Chip.heard, ha]
  | fabric => exact ha

/-- A command that domain 0 does not serve finds its server down while the other domains are off. -/
theorem serverOf_down_of_asleep {i : Instr} {c : Chip} (hk : keeperCommand i = false) (h : c.awake = false) :
    (serverOf i).up c = false := by
  rw [serverOf, hk, cond_false]
  cases hostCommand i with
  | true => simp [Server.up, Chip.heard, h]
  | false => exact h

theorem hostCommand_of_keeperCommand {i : Instr} (h : keeperCommand i = true) : hostCommand i = false := by
  cases i with
  | controlTick | commitInstant | estimateWindowEnd | pmbusRead | thermalSample | holdoverTimeout | sessionExpire | saveDone
  | journalMirror | tagPersist | repairAppendDone | standbyWakePin | standbyWakeTime | standbyWakeDone | warmRestartDone => rfl
  | odxRead o | odxDescribe o | odxOpen o | odxStage o | odxCommit o | odxAbort o | odxWrite o | odxNote o | odxSave o
  | clearImage o =>
    cases o with
    | mgmt => rfl
    | _ => cases h
  | _ => cases h

theorem hostCommand_of_pinCommand {i : Instr} (h : pinCommand i = true) : hostCommand i = false := by
  cases i with
  | keeperSupplyOn | keeperSupplyLoss | sysResetAssert | sysResetRelease | refclkKprLoss | perstAssert | perstRelease
  | railOutOfWindow | railsRestored => rfl
  | _ => cases h

/-- The host interface serves the host's accesses. -/
theorem serverOf_hostCommand {i : Instr} (h : hostCommand i = true) : pinCommand i = false ∧ serverOf i = .host := by
  have hkeeper : keeperCommand i = false := Bool.eq_false_iff.mpr fun hk => by
    rw [hostCommand_of_keeperCommand hk] at h
    cases h
  refine ⟨Bool.eq_false_iff.mpr fun hp => ?_, by rw [serverOf, hkeeper, h]; rfl⟩
  rw [hostCommand_of_pinCommand hp] at h
  cases h

/-- A command whose server is down changes nothing. -/
theorem exec_unserved {i : Instr} {s : State} (hp : pinCommand i = false) (h : (serverOf i).up s.chip = false) :
    exec i s = .next s := by
  obtain ⟨ps, f, he⟩ := exec_server hp s
  rw [he, Server.run_down h]

/-- A command that is no pin's level does not move the supply or SYS_RESET_N. -/
theorem exec_keeps_pins {i : Instr} {s t : State} (hp : pinCommand i = false) (h : exec i s = .next t) :
    t.chip.pkg.keeper = s.chip.pkg.keeper ∧ t.chip.pkg.resetLow = s.chip.pkg.resetLow := by
  obtain ⟨ps, f, he⟩ := exec_server hp s
  cases hv : (serverOf i).up s.chip with
  | false =>
    rw [he, Server.run_down hv] at h
    cases h
    exact ⟨rfl, rfl⟩
  | true =>
    rw [he, Server.run_up hv] at h
    cases h
    exact ⟨Chip.only_keeper _ _ _, Chip.only_resetLow _ _ _⟩


/-- A step of a chip that waits for no command, or whose command's server is down, leaves the chip as it is. -/
theorem step_unserved {s t : State} (h : step s = .next t) (hidle : s.pending = [] → s.chip.live = false)
    (hdown : ∀ i, s.pending.head? = some i → pinCommand i = false ∧ (serverOf i).up s.chip = false) : t.chip = s.chip := by
  obtain ⟨c, q⟩ := s
  cases q with
  | nil =>
    have hd : c.live = false := hidle rfl
    cases h
    simp [Chip.idle, hd]
  | cons i rest =>
    obtain ⟨hp, hv⟩ := hdown i rfl
    have he : exec i ⟨c, rest⟩ = .next ⟨c, rest⟩ := exec_unserved hp hv
    rw [show step ⟨c, i :: rest⟩ = exec i ⟨c, rest⟩ from rfl, he] at h
    cases h
    rfl

theorem step_keeps_pins {s t : State} (h : step s = .next t) (hpin : ∀ i, s.pending.head? = some i → pinCommand i = false) :
    t.chip.pkg.keeper = s.chip.pkg.keeper ∧ t.chip.pkg.resetLow = s.chip.pkg.resetLow := by
  obtain ⟨c, q⟩ := s
  cases q with
  | nil =>
    cases h
    unfold Chip.idle
    split <;> exact ⟨rfl, rfl⟩
  | cons i rest => exact exec_keeps_pins (s := ⟨c, rest⟩) (hpin i rfl) h

/-! ## Pins -/

/-- The Keeper is not supplied, or SYS_RESET_N is low. -/
def Chip.heldInReset (c : Chip) : Prop := c.pkg.keeper = false ∨ c.pkg.resetLow = true

theorem Chip.live_of_heldInReset {c : Chip} (h : c.heldInReset) : c.live = false := by
  obtain h | h := h <;> simp [Chip.live, h]

theorem Chip.heldInReset_congr {c d : Chip} (h : d.pkg.keeper = c.pkg.keeper ∧ d.pkg.resetLow = c.pkg.resetLow) :
    d.heldInReset ↔ c.heldInReset := by
  rw [Chip.heldInReset, Chip.heldInReset, h.1, h.2]

/-- The whole reset leaves everything as reset does, whatever the pins are. -/
theorem Chip.resetFrom_asReset (c : Chip) (p : Pkg) : ({ c.resetFrom with pkg := p } : Chip).asReset := rfl

/-- The pins are no part of what reset leaves. -/
theorem Chip.asReset_setPkg {c : Chip} (h : c.asReset) (p : Pkg) : ({ c with pkg := p } : Chip).asReset := by
  rw [Chip.asReset] at h
  rw [h]
  rfl

/-- The level of PERST_N is no part of what reset leaves. -/
theorem Chip.asReset_setPerst {c : Chip} (h : c.asReset) (b : Bool) :
    ({ c with hif := { c.hif with perst := b, training := false } } : Chip).asReset := by
  rw [Chip.asReset] at h
  rw [h]
  rfl

/-- Where an effect stays within parts, the supply and SYS_RESET_N are as they were. -/
theorem Chip.within_pins {c d : Chip} {ps : List Part} (h : c.within d ps) :
    d.pkg.keeper = c.pkg.keeper ∧ d.pkg.resetLow = c.pkg.resetLow := by
  rw [← h]
  exact ⟨Chip.only_keeper _ _ _, Chip.only_resetLow _ _ _⟩

/-- Switching the domains on moves neither the supply nor SYS_RESET_N. -/
theorem Chip.fabricOn_pins (c : Chip) (p : GroupPhase) :
    (c.fabricOn p).pkg.keeper = c.pkg.keeper ∧ (c.fabricOn p).pkg.resetLow = c.pkg.resetLow := by
  unfold Chip.fabricOn
  dsimp only
  have hstates := Chip.within_pins (Chip.setDomains_within (List.range 24) 0 0 c)
  have hphases := Chip.within_pins (Chip.setPhases_within (List.range 8) p
    ((List.range 24).foldl (fun (c : Chip) d => c.setDomainState (d + 0) 0) c))
  exact ⟨hphases.1.trans hstates.1, hphases.2.trans hstates.2⟩


/-- Switching the domains off moves neither the supply nor SYS_RESET_N. -/
theorem Chip.fabricOff_pins (c : Chip) (sr : Bool) :
    (c.fabricOff sr).pkg.keeper = c.pkg.keeper ∧ (c.fabricOff sr).pkg.resetLow = c.pkg.resetLow := by
  rw [(c.fabricOff_spec sr).1]
  exact ⟨rfl, rfl⟩

/-- The loss of the link, with the host-facing reset, moves neither the supply nor SYS_RESET_N. -/
theorem Chip.hostReset_pins (c : Chip) (seen : Field) :
    (c.linkLost.hostReset seen).pkg.keeper = c.pkg.keeper ∧ (c.linkLost.hostReset seen).pkg.resetLow = c.pkg.resetLow := by
  have hlink := Chip.within_pins c.linkLost_within
  have hreset := Chip.within_pins (c.linkLost.hostReset_within seen)
  exact ⟨hreset.1.trans hlink.1, hreset.2.trans hlink.2⟩

/-- A chip that is held in reset is as reset leaves it. -/
def Chip.resetHolds (c : Chip) : Prop := c.heldInReset → c.asReset

theorem Chip.resetHolds_ite {p : Prop} [Decidable p] {c d : Chip} (hc : p → c.resetHolds) (hd : ¬ p → d.resetHolds) :
    (if p then c else d).resetHolds := by
  split
  · next h => exact hc h
  · next h => exact hd h

/-- A chip that acts is not held in reset, and neither is one with the same supply and SYS_RESET_N. -/
theorem Chip.resetHolds_of_live {c d : Chip} (hc : c.live = true)
    (h : d.pkg.keeper = c.pkg.keeper ∧ d.pkg.resetLow = c.pkg.resetLow) : d.resetHolds := by
  intro hd
  have := Chip.live_of_heldInReset ((Chip.heldInReset_congr h).mp hd)
  simp [hc] at this

theorem Chip.resetHolds_setPkg {c : Chip} (h : c.resetHolds) {p : Pkg}
    (hp : p.keeper = c.pkg.keeper ∧ p.resetLow = c.pkg.resetLow) : ({ c with pkg := p } : Chip).resetHolds :=
  fun hd => Chip.asReset_setPkg (h ((Chip.heldInReset_congr (d := { c with pkg := p }) hp).mp hd)) p

/-- The release of PERST_N starts no training on a chip that is held in reset. -/
theorem Chip.resetHolds_perstRelease {c : Chip} (h : c.resetHolds) :
    ({ c with hif := { c.hif with perst := false, training := c.awake } } : Chip).resetHolds := by
  intro hd
  have hc : c.heldInReset := hd
  have ha : c.awake = false := by simp [Chip.awake, Chip.live_of_heldInReset hc]
  rw [ha]
  exact Chip.asReset_setPerst (h hc) false

/-- R633: a rail out of its window keeps a chip in reset as it is. -/
theorem resetHolds_railOutOfWindow {s t : State} (hs : s.chip.resetHolds) (rail ns : Nat)
    (h : exec (.railOutOfWindow rail ns) s = .next t) : t.chip.resetHolds := by
  injection h with h
  subst h
  refine Chip.resetHolds_ite
    (fun _ => Chip.resetHolds_ite (fun _ _ => Chip.resetFrom_asReset _ _) (fun _ => hs))
    (fun _ => Chip.resetHolds_ite (fun _ => hs) fun _ => Chip.resetHolds_ite (fun _ => ?_) (fun hlive => ?_))
  · exact Chip.resetHolds_setPkg hs ⟨rfl, rfl⟩
  · have hlive : s.chip.live = true := by
      simp only [Bool.or_eq_true, not_or, Bool.not_eq_true', Bool.not_eq_false] at hlive
      exact hlive.1
    refine Chip.resetHolds_of_live hlive ?_
    simp only [Chip.wr_pkg]
    split
    · exact ⟨rfl, rfl⟩
    · exact Chip.fabricOff_pins _ _

/-- R634: the rails' return keeps a chip in reset as it is. -/
theorem resetHolds_railsRestored {s t : State} (hs : s.chip.resetHolds) (h : exec .railsRestored s = .next t) :
    t.chip.resetHolds := by
  injection h with h
  subst h
  refine Chip.resetHolds_ite (fun _ => Chip.resetHolds_setPkg hs ⟨rfl, rfl⟩) fun hlive => ?_
  have hlive : s.chip.live = true := by
    rw [Bool.not_eq_true', Bool.not_eq_false] at hlive
    exact hlive
  refine Chip.resetHolds_of_live hlive ?_
  dsimp only
  split
  · exact Chip.fabricOn_pins _ _
  · exact ⟨rfl, rfl⟩

theorem resetHolds_pin {i : Instr} (hp : pinCommand i = true) {s t : State} (h : exec i s = .next t)
    (hs : s.chip.resetHolds) : t.chip.resetHolds := by
  cases i with
  | keeperSupplyOn =>
    injection h with h
    subst h
    exact Chip.resetHolds_ite (fun _ => hs) fun _ _ => Chip.resetFrom_asReset _ _
  | keeperSupplyLoss =>
    injection h with h
    subst h
    exact Chip.resetHolds_ite (fun _ _ => Chip.resetFrom_asReset _ _) fun _ => hs
  | sysResetAssert lowNs =>
    injection h with h
    subst h
    exact Chip.resetHolds_ite (fun _ => hs) fun _ _ => Chip.resetFrom_asReset _ _
  | sysResetRelease =>
    injection h with h
    subst h
    exact Chip.resetHolds_ite (fun _ _ => Chip.resetFrom_asReset _ _) fun _ => hs
  | refclkKprLoss =>
    injection h with h
    subst h
    exact Chip.resetHolds_setPkg hs ⟨rfl, rfl⟩
  | railOutOfWindow rail ns => exact resetHolds_railOutOfWindow hs rail ns h
  | railsRestored => exact resetHolds_railsRestored hs h
  | perstAssert =>
    injection h with h
    subst h
    refine Chip.resetHolds_ite (fun ha => ?_) fun _ hd => Chip.asReset_setPerst (hs hd) true
    have hlive : s.chip.live = true := Chip.live_of_awake _ ha
    refine Chip.resetHolds_of_live hlive ?_
    exact Chip.hostReset_pins _ _
  | perstRelease =>
    injection h with h
    subst h
    exact Chip.resetHolds_perstRelease hs
  | _ => cases hp


/-- A step keeps a chip that is held in reset as reset leaves it. -/
theorem step_resetHolds {s t : State} (h : step s = .next t) (hs : s.chip.resetHolds) : t.chip.resetHolds := by
  intro ht
  by_cases hpin : ∃ i, s.pending.head? = some i ∧ pinCommand i = true
  · obtain ⟨c, q⟩ := s
    obtain ⟨i, hi, hp⟩ := hpin
    cases q with
    | nil => cases hi
    | cons j rest =>
      cases hi
      exact resetHolds_pin hp h hs ht
  · have hnone : ∀ i, s.pending.head? = some i → pinCommand i = false := fun i hi =>
      Bool.eq_false_iff.mpr fun hp => hpin ⟨i, hi, hp⟩
    have hheld : s.chip.heldInReset := (Chip.heldInReset_congr (step_keeps_pins h hnone)).mp ht
    have hdead := Chip.live_of_heldInReset hheld
    rw [step_unserved h (fun _ => hdead) fun i hi => ⟨hnone i hi, Server.down_of_dead _ hdead⟩]
    exact hs hheld

/-- Settles O4: a command that is no pin's level runs through its server (`exec_server`), which is down in each of the three cases; the
whole reset leaves a held chip as reset does, and no other pin moves what reset sets (`resetHolds_pin`). -/
theorem heldInReset : Obligations.HeldInReset := by
  unfold Obligations.HeldInReset
  refine ⟨?dead, ?asleep, ?unheard, ?held⟩
  case dead =>
    exact fun s t h hlive hpin => step_unserved h (fun _ => hlive) fun i hi => ⟨hpin i hi, Server.down_of_dead _ hlive⟩
  case asleep =>
    intro s t i h hawake hi hpin hkeeper
    refine step_unserved h (fun hnil => ?_) fun j hj => ?_
    · simp [hnil] at hi
    · obtain rfl : i = j := Option.some.inj (hi.symm.trans hj)
      exact ⟨hpin, serverOf_down_of_asleep hkeeper hawake⟩
  case unheard =>
    intro s t i h hheard hi hhost
    refine step_unserved h (fun hnil => ?_) fun j hj => ?_
    · simp [hnil] at hi
    · obtain rfl : i = j := Option.some.inj (hi.symm.trans hj)
      have hserver := serverOf_hostCommand hhost
      exact ⟨hserver.1, by rw [hserver.2]; exact hheard⟩
  case held => exact fun s t h hs => step_resetHolds h hs

end Sys2Proof.Machine

/-! # Supply and reset (R25, R596, R635, R638), and what reset leaves (R474) -/

namespace Sys2Proof.Machine

/-- What the whole reset leaves, with the pins `p` (R25, R635): everything as at reset, but flash, host memory, what was sent and the
level of PERST_N as before. -/
def Chip.wholeReset (c : Chip) (p : Pkg) (d : Chip) : Prop :=
  d.asReset ∧ d.pkg = p ∧ d.flash = c.flash ∧ d.host = c.host ∧ d.sent = c.sent ∧ d.hif.perst = c.hif.perst

theorem Chip.resetFrom_wholeReset (c : Chip) (p : Pkg) : c.wholeReset p { c.resetFrom with pkg := p } :=
  ⟨Chip.resetFrom_asReset c p, rfl, rfl, rfl, rfl, rfl⟩

/-- A command that runs the whole reset answers what it leaves. -/
theorem answers_wholeReset {s : State} {i : Instr} {c : Chip} (p : Pkg) (e : exec i s = .next { s with chip := c })
    (hc : c = { s.chip.resetFrom with pkg := p }) : Answers s i (s.chip.wholeReset p) :=
  ⟨c, e, by rw [hc]; exact Chip.resetFrom_wholeReset _ _⟩

/-- What a chip that is as reset leaves it shows: reset values, the clock at 0, and nothing in flight. -/
theorem Chip.asReset_reads {c : Chip} (h : c.asReset) :
    c.now = 0 ∧ (∀ f i, c.rd f i = RegFile.fld [] f i) ∧ c.entry 0xA000 1 = 2 ∧ c.odx = Chip.reset.odx ∧
      c.dsp = Chip.reset.dsp ∧ c.qmg = Chip.reset.qmg ∧ c.muslin = [] := by
  rw [Chip.asReset] at h
  rw [h]
  exact ⟨Nat.zero_div _, fun _ _ => rfl, rfl, rfl, rfl, rfl, rfl⟩

/-- Settles O16: each command of the supply and of SYS_RESET_N runs the whole reset (`Chip.resetFrom`) with its own pins. -/
theorem supplyAndReset : Obligations.SupplyAndReset := by
  unfold Obligations.SupplyAndReset
  refine ⟨⟨?loss, ?assert, ?short, fun c h => Chip.asReset_reads h⟩, ?supply, ?release, ?clock⟩
  case loss => exact fun s hk => answers_wholeReset _ rfl (if_pos hk)
  case assert => exact fun s ns hns => answers_wholeReset _ rfl (if_neg (by omega))
  case short => exact fun s ns hns => ⟨_, rfl, if_pos hns⟩
  case supply => exact fun s hk => answers_wholeReset _ rfl (if_neg (by simp [hk]))
  case release => exact fun s hl => answers_wholeReset _ rfl (if_pos hl)
  case clock => exact fun s => ⟨_, rfl, rfl, by simp [Chip.live]⟩

/-- Settles O2: reset lists no register and two entries, and everything else of the statement is read off its fields. -/
theorem resetState : Obligations.ResetState := by
  unfold Obligations.ResetState
  refine ⟨rfl, rfl, rfl, rfl, by decide +kernel, by decide +kernel, by decide +kernel, by decide +kernel, by decide +kernel,
    by decide +kernel, fun _ => rfl, ?entries, rfl, rfl, rfl, rfl, fun _ => rfl, rfl, fun _ => rfl, rfl, ?handles, ?sized, rfl, rfl, rfl⟩
  case entries =>
    intro i x h1 h2
    have h1 : 0xA00001 ≠ entryKey i x := Ne.symm h1
    have h2 : 0xA00002 ≠ entryKey i x := Ne.symm h2
    simp [Chip.entry, Chip.reset, Table.get?, h1, h2]
  case handles => exact ⟨List.Pairwise.nil, by simp [Chip.reset]⟩
  case sized => exact ⟨rfl, rfl, rfl, rfl, rfl, rfl, rfl, rfl, rfl⟩

end Sys2Proof.Machine

/-! # What raising an event leaves alone (R280, R656) -/

namespace Sys2Proof.Machine

/-- No word of a field is a word of the pending bit array in which vector `n` stands, and no bit of it is an event's. -/
def Field.clearOfEvent (g : Field) (j n : Nat) : Bool :=
  R.HIF_EVT_PEND_PEND.apart 0 g j && (List.range g.nwords).all (fun k => g.base j + 4 * k != msixPba n)

theorem RegFile.words_congr {rs qs : RegFile} (n : Nat) : ∀ a, (∀ k, k < n → rs.get (a + 4 * k) = qs.get (a + 4 * k)) →
    rs.words a n = qs.words a n := by
  induction n with
  | zero => intro a _; rfl
  | succ n ih =>
    intro a h
    rw [RegFile.words, RegFile.words, show rs.get a = qs.get a from h 0 (by omega), ih (a + 4) fun k hk => ?_]
    have := h (k + 1) (by omega)
    rwa [show a + 4 * (k + 1) = a + 4 + 4 * k by omega] at this

/-- A field reads alike in two chips that agree on its words. -/
theorem Chip.rd_eq_of_words_eq {c d : Chip} {f : Field} {i : Nat}
    (h : ∀ k, k < f.nwords → d.regs.get (f.base i + 4 * k) = c.regs.get (f.base i + 4 * k)) : d.rd f i = c.rd f i := by
  rw [Chip.rd, Chip.rd, RegFile.fld, RegFile.fld, RegFile.words_congr _ _ h]

/-- Sending a vector changes at most the word of its pending bit. -/
theorem Chip.get_sendVector_other (c : Chip) (v : Nat) {a : Nat} (h : a ≠ msixPba v) :
    (c.sendVector v).regs.get a = c.regs.get a := by
  unfold Chip.sendVector
  split
  · rfl
  · split
    · exact RegFile.get_set_other _ _ _ _ h
    · rfl

theorem Chip.rd_sendVector (c : Chip) (v : Nat) {g : Field} {j : Nat} (h : g.clearOfEvent j v = true) :
    (c.sendVector v).rd g j = c.rd g j := by
  simp only [Field.clearOfEvent, Bool.and_eq_true, List.all_eq_true, List.mem_range, bne_iff_ne] at h
  exact Chip.rd_eq_of_words_eq fun k hk => c.get_sendVector_other v (h.2 k hk)

/-- Raising an event leaves every field clear of it alone. -/
theorem Chip.rd_raise (c : Chip) (n : Nat) {g : Field} {j : Nat} (h : g.clearOfEvent j n = true) : (c.raise n).rd g j = c.rd g j := by
  have hw : (c.wr R.HIF_EVT_PEND_PEND (c.rd R.HIF_EVT_PEND_PEND ||| 2 ^ n)).rd g j = c.rd g j := by
    rw [Field.clearOfEvent, Bool.and_eq_true] at h
    exact Chip.rd_wr_apart _ _ _ _ _ _ h.1
  unfold Chip.raise
  dsimp only
  split
  · rfl
  · split
    · exact hw
    · rw [Chip.rd_sendVector _ _ h, hw]

/-- Setting a status bit leaves every field apart from it alone that is clear of vector 0. -/
theorem Chip.rd_latchFault_apart (c : Chip) (f g : Field) (i j : Nat) (hf : f.apart i g j = true)
    (h : g.clearOfEvent j 0 = true) : (c.latchFault f i).rd g j = c.rd g j := by
  unfold Chip.latchFault
  split
  · rfl
  · rw [Chip.rd_raise _ _ h, Chip.rd_wr_apart _ _ _ _ _ _ hf]

/-- A status bit that is latched is set. -/
theorem Chip.rd_latchFault_self (c : Chip) (f : Field) (i : Nat) (hw : f.width = 1) (h : f.clearOfEvent i 0 = true) :
    (c.latchFault f i).rd f i = 1 := by
  have hlt := c.rd_lt f i
  rw [hw] at hlt
  unfold Chip.latchFault
  split
  · next hon =>
    have hne : c.rd f i ≠ 0 := by simpa [Chip.on] using hon
    omega
  · rw [Chip.rd_raise _ _ h, Chip.rd_wr_self, hw]
    rfl

end Sys2Proof.Machine

/-! # Every tile command runs the next tile of its operation -/

namespace Sys2Proof.Machine

/-- An operation that awaits a tile is the one on its unit, of the engine code it awaits it under. -/
theorem Chip.awaitsTile_op {c : Chip} {u e k : Nat} {o : OpRun} (h : c.awaitsTile u o e k) :
    c.op? u = some o ∧ Desc.engine o.raw = e := by
  obtain ⟨-, hop, haw, -⟩ := h
  simp only [OpRun.awaits, Bool.and_eq_true, beq_iff_eq] at haw
  exact ⟨hop, haw.1.2⟩

/-- What a tile of an operation that has begun makes of the chip. -/
theorem Chip.runTile_begun {c : Chip} {u e k : Nat} (check : Chip → OpRun → Nat) (tile : Chip → OpRun → Chip × OpRun) {o : OpRun}
    (h : c.awaitsTile u o e k) (hb : o.begun = true) :
    c.runTile u e k check tile = (c.untouched.worked (tile c.untouched { o with begun := true, tileReady := true }).1).setOp u
      (o.worked (tile c.untouched { o with begun := true, tileReady := true }).2) := by
  obtain ⟨-, hop, haw, hd, hq, hg, hs⟩ := h
  have hissues : (decide (u ≤ 1) && c.damaskHeld) = false := by
    by_cases hu : u ≤ 1
    · simp [hd hu]
    · simp [hu]
  simp only [Chip.runTile, Chip.onOp, hissues, hop, haw, c.unlessHeld_runs _ hq hg hs, hb, if_true, Bool.false_eq_true, if_false,
    bne_self_eq_false]

/-- Work that only writes registers and sends is all kept. -/
theorem Chip.worked_of_within {c d : Chip} (h : c.within d [.regs, .sent]) : c.worked d = d := by
  rw [← h]
  rfl

/-- The tile of a MATMUL that meets bad parity: its shape and stalls show, and it ends with SLOT_PARITY set (R153). -/
def Chip.parityTile (c : Chip) (o : OpRun) (stalls : Nat) : Chip × OpRun :=
  let q := (c.setShape (matPar o.raw).shape (matPar o.raw).ws).addStalls o stalls
  q.1.slotParity q.2

theorem Chip.parityTile_within (c : Chip) (o : OpRun) (stalls : Nat) : c.within (c.parityTile o stalls).1 [.regs, .sent] := by
  have hshape : c.within (((c.setShape (matPar o.raw).shape (matPar o.raw).ws).addStalls o stalls).1) [.regs] := rfl
  exact Chip.within_step _ (Chip.within_mono _ _ _ _ hshape rfl) (Chip.latchFault_within _ _ _) rfl

theorem Chip.parityTile_bit (c : Chip) (o : OpRun) (stalls : Nat) :
    (c.parityTile o stalls).1.on R.DMK_STATUS_SLOT_PARITY = true := by
  have hbit := Chip.rd_latchFault_self ((c.setShape (matPar o.raw).shape (matPar o.raw).ws).addStalls o stalls).1
    R.DMK_STATUS_SLOT_PARITY 0 rfl (by decide)
  exact bne_iff_ne.mpr (hbit.trans_ne one_ne_zero)

/-- R153: a tile of MATMUL that reads a slot of bad parity ends the operation and sets SLOT_PARITY. -/
theorem matmul_parity {s : State} {o : OpRun} (stalls : Nat) (ho : s.chip.awaitsTile 0 o 0 1) (hb : o.begun = true) :
    Answers s (.matmul stalls true) (fun d => s.chip.within d [.regs, .dsp, .msl, .drc, .sent] ∧
      d.on R.DMK_STATUS_SLOT_PARITY = true ∧ ∃ p, d.op? 0 = some p ∧ p.finished = true ∧
        p.status = worse o.status St.DMK_SLOT_PARITY) := by
  have htile := s.chip.untouched.parityTile_within { o with begun := true, tileReady := true } stalls
  have hbit := s.chip.untouched.parityTile_bit { o with begun := true, tileReady := true } stalls
  have hwithin : s.chip.within ((s.chip.untouched.parityTile { o with begun := true, tileReady := true } stalls).1.setOp 0
      (o.worked (s.chip.untouched.parityTile { o with begun := true, tileReady := true } stalls).2))
      [.regs, .dsp, .msl, .drc, .sent] :=
    Chip.within_step [.dsp] (Chip.within_step _ (d := s.chip.untouched) rfl htile rfl) rfl rfl
  refine ⟨_, ?_, hwithin, hbit, _, Chip.op_setOp_self _ _ _, rfl, rfl⟩
  show execMatmul stalls true s = _
  rw [execMatmul, State.run_awake _ _ _ ho.1, Chip.runTile_begun _ _ ho hb]
  refine congrArg (fun d => Host.Outcome.next { s with chip := d }) (Eq.trans ?_ (Chip.within_mono _ _ _ Parts.tile hwithin rfl))
  exact congrArg (fun d => Chip.only (Chip.setOp d _ _) _ _) (Chip.worked_of_within htile)

/-- A cluster's families are tile commands. -/
theorem twOp_tileCommand (i : Instr) (k opcode stalls : Nat) (ecc : EccFinding) (row : Chip → OpRun → Nat → Chip × OpRun × Nat)
    (h : ∀ s, exec i s = s.run Parts.tile (fun c => c.twOp k opcode stalls ecc row)) :
    TileCommand i (k + 2) 2 opcode Parts.tile (fun c o => c.twCheck o) :=
  tileCommand_of i (k + 2) 2 opcode Parts.tile _ _ rfl rfl rfl h

/-- A command of a Canvas solver that runs a tile under the engine code of the operation there is a tile command. -/
theorem canvas_tileCommand (i : Instr) (k e opcode other : Nat) (hk : k < 2) (check : Chip → OpRun → Nat)
    (tile : Chip → OpRun → Chip × OpRun)
    (h : ∀ s, exec i s = s.run Parts.tile (fun c => if 1 < k then c else
      c.runTile (23 + k) (match c.op? (23 + k) with | some o => Desc.engine o.raw | none => other) opcode check tile)) :
    TileCommand i (23 + k) e opcode Parts.tile check := by
  refine tileCommand_where i (23 + k) e opcode Parts.tile check tile rfl rfl rfl fun s o ho => ⟨_, h s, ?_⟩
  obtain ⟨hop, he⟩ := Chip.awaitsTile_op ho
  rw [if_neg (by omega), hop]
  dsimp only
  rw [he]

/-- The tile of SOLVE on solver `k`, `stalls` cycles stalled on the port. -/
def Chip.solveRun (c : Chip) (k e stalls : Nat) : Chip :=
  c.runTile (23 + k) e 2 (fun c o => c.solveCheck k o.raw) (fun c o =>
    c.solveTile k { o with info0 := min (o.info0 + stalls) 0xFFFFFFFF })

/-- SOLVE once it is known whether its tile reads the store (`hits`): corrected errors are counted, and an uncorrectable word ends it
(R441). -/
def Chip.solveReads (c : Chip) (k e stalls corrected : Nat) (hits uncorrectable : Bool) : Chip :=
  let c := if hits then c.count (R.CNV_STORE_CE_CNT_COUNT.inst k) 0 corrected else c
  if hits && uncorrectable then
    (c.latchFault (R.CNV_STATUS_STORE_UE.inst k)).canvasFails k St.CNV_STORE_UE St.ISLAND_OFFLINE
  else c.solveRun k e stalls

/-- SOLVE for the operation `op` on the unit of the solver. -/
def Chip.solveOn (c : Chip) (k stalls corrected : Nat) (uncorrectable : Bool) (op : Option OpRun) : Chip :=
  let e := match op with | some o => Desc.engine o.raw | none => 6
  let hits := match op with | some o => o.awaits e 2 && o.begun | none => false
  c.solveReads k e stalls corrected hits uncorrectable

theorem exec_cnvSolve (s : State) (k stalls corrected : Nat) (uncorrectable : Bool) :
    exec (.cnvSolve k stalls corrected uncorrectable) s = s.run [.regs, .muslin, .host, .dsp, .qmg, .msl, .drc, .dmk, .atu, .twl,
      .gze, .twd, .tul, .cnv, .moved, .gng, .sent, .fresh]
      (fun c => if 1 < k then c else c.solveOn k stalls corrected uncorrectable (c.op? (23 + k))) := rfl

theorem Chip.solveOn_readable (c : Chip) (k stalls corrected : Nat) (o : OpRun) :
    c.solveOn k stalls corrected false (some o) =
      Chip.solveRun (if o.awaits (Desc.engine o.raw) 2 && o.begun then c.count (R.CNV_STORE_CE_CNT_COUNT.inst k) 0 corrected else c)
        k (Desc.engine o.raw) stalls := by
  rw [Chip.solveOn, Chip.solveReads, Bool.and_false, if_neg Bool.false_ne_true]

/-- A register other than QUIESCE holds no tile back, except those of Damask. -/
theorem Chip.awaitsTile_count {c : Chip} {u e k : Nat} {o : OpRun} (f : Field) (i n : Nat) (hu : 1 < u)
    (hf : f.apart i R.DRC_CTRL_QUIESCE 0 = true) (h : c.awaitsTile u o e k) : (c.count f i n).awaitsTile u o e k := by
  obtain ⟨ha, hop, haw, -, hq, hg, hs⟩ := h
  exact ⟨ha, hop, haw, fun hle => absurd hu (Nat.not_lt.mpr hle), (Chip.on_wr_apart c f R.DRC_CTRL_QUIESCE _ i 0 hf).trans hq, hg, hs⟩

theorem Field.storeCount_apart {k : Nat} (hk : k < 2) : (R.CNV_STORE_CE_CNT_COUNT.inst k).apart 0 R.DRC_CTRL_QUIESCE 0 = true := by
  interval_cases k <;> rfl

/-- R432, R441: a tile of SOLVE whose words of the store can be read is done; corrected errors of it are counted first. -/
theorem cnvSolve_tileDone {s : State} {o : OpRun} (k e stalls corrected : Nat) (hk : k < 2) (ho : s.chip.awaitsTile (23 + k) o e 2)
    (hc : o.begun = true ∨ s.chip.untouched.solveCheck k o.raw = St.OK) :
    Answers s (.cnvSolve k stalls corrected false) (fun d =>
      s.chip.within d [.regs, .muslin, .host, .dsp, .qmg, .msl, .drc, .dmk, .atu, .twl, .gze, .twd, .tul, .cnv, .moved, .gng,
        .sent, .fresh] ∧ TileDone s.chip (23 + k) o d) := by
  obtain ⟨hop, he⟩ := Chip.awaitsTile_op ho
  have haw := ho.2.2.1
  refine answers_run s _ _ _ _ ho.1 (exec_cnvSolve s k stalls corrected false) ?_
  rw [if_neg (by omega : ¬ 1 < k), hop, Chip.solveOn_readable, he]
  by_cases hb : o.begun = true
  · obtain ⟨x, r, hx⟩ := Chip.runTile_done _ (23 + k) e 2 (fun c o => c.solveCheck k o.raw)
      (fun c o => c.solveTile k { o with info0 := min (o.info0 + stalls) 0xFFFFFFFF }) o (Chip.awaitsTile_count _ 0 corrected (by omega) (Field.storeCount_apart hk) ho) (Or.inl hb)
    rw [if_pos (by rw [haw, hb]; rfl), Chip.solveRun, hx]
    exact tileDone_of s.chip _ s.chip _ (23 + k) o r x _ rfl (Chip.count_dsp s.chip _ _ _) rfl
  · obtain ⟨x, r, hx⟩ := Chip.runTile_done _ (23 + k) e 2 (fun c o => c.solveCheck k o.raw)
      (fun c o => c.solveTile k { o with info0 := min (o.info0 + stalls) 0xFFFFFFFF }) o ho hc
    rw [if_neg (by simp [hb]), Chip.solveRun, hx]
    exact tileDone_of s.chip s.chip s.chip _ (23 + k) o r x _ rfl rfl rfl

/-- Settles O35: each command runs a tile on the unit it names (`tileCommand_of`), Canvas under the engine code of the operation that
awaits it. -/
theorem tilesRun : Obligations.TilesRun := by
  unfold Obligations.TilesRun
  refine ⟨⟨?_, ?_, ?_, ?_, ?_, ?_, ?_, ?_, ?parity, ?_, ?_⟩, ?twill, ⟨?_, ?_, ?_, ?_, ?_, ?_, ?_, ?_, ?_, ?copy, ?fill⟩, ?canvas⟩
  case parity => exact fun s o stalls ho hb => matmul_parity stalls ho hb
  case twill =>
    intro k stalls ecc
    refine ⟨?_, ?_, ?_, ?_, ?_, ?_, ?_, ?_, ?_, ?_, ?_, ?_, ?_, ?_, ?_, ?_, ?_, ?_⟩
    all_goals exact twOp_tileCommand _ _ _ _ _ _ fun _ => rfl
  case copy =>
    intro port error hp
    have h := tileCommand_of (.copy port error) (25 + port % 2) 9 1 Parts.tile _ _ rfl rfl rfl fun _ => rfl
    rwa [Nat.mod_eq_of_lt hp] at h
  case fill =>
    intro port hp
    have h := tileCommand_of (.fill port) (25 + port % 2) 9 2 Parts.tile _ _ rfl rfl rfl fun _ => rfl
    rwa [Nat.mod_eq_of_lt hp] at h
  case canvas =>
    intro k e hk
    refine ⟨canvas_tileCommand _ k e 1 (7 + k) hk _ _ fun _ => rfl, canvas_tileCommand _ k e 3 (7 + k) hk _ _ fun _ => rfl, ?_⟩
    exact fun stalls corrected s o ho hc => cnvSolve_tileDone k e stalls corrected hk ho hc
  all_goals
    intros
    exact tileCommand_of _ _ _ _ _ _ _ rfl rfl rfl fun _ => rfl

end Sys2Proof.Machine

/-! # A stalled island (R23) -/

namespace Sys2Proof.Machine

/-- A PREFILL that runs on the ATU. -/
def strayOp : OpRun :=
  ⟨0, 0, 2 ^ 8, 0, 1, 0, 0, 0, 0, 0, St.OK, 0, 0, [], [], false, false, false, false, false⟩

/-- A chip after reset whose ATU runs an operation that the hold table lists in slot 0x17FFC0. The table has 16 slots; ATU_HOLD of that
slot would lie at 0x500200 + 8 * 0x17FFC0 = 0x1100000, where PWR_STATUS is. -/
def strayHold : Chip :=
  { Chip.reset with
    dsp := { Chip.reset.dsp with running := [(1, strayOp)] }
    atu := { Chip.reset.atu with holds := [(0x17FFC0, ⟨strayOp, none, false⟩)] } }

/-- ISLAND_STALL after a command. -/
def stallBit : Host.Outcome State Fault Refusal → Nat
  | .next t => t.chip.rd R.PWR_STATUS_ISLAND_STALL
  | _ => 1

/-- Island 61 of the ATU stalls: its operation leaves slot 0x17FFC0 free, and with it PWR_STATUS reads 0. -/
theorem stallBit_strayHold : stallBit (exec (.islandStall 61 31) ⟨strayHold, []⟩) = 0 := by decide +kernel

/-- Refutes O19: the statement speaks of every state, and in one whose hold table lists a slot that ATU_HOLD does not have
(`strayHold`), the operation that the stall ends frees that slot in the word of PWR_STATUS, so ISLAND_STALL reads 0. -/
theorem not_stalledIslands : ¬ Obligations.StalledIslands := by
  unfold Obligations.StalledIslands
  intro h
  obtain ⟨d, he, -, -, hbit, -⟩ := h.1 ⟨strayHold, []⟩ 61 31 (by decide +kernel) (by decide) (by decide) (by decide) (by decide +kernel)
    (by decide +kernel) ⟨by decide +kernel, rfl, rfl, rfl, rfl⟩ (by
      intro u hu o ho
      have hdep : strayHold.dependents 61 = [1] := by decide +kernel
      obtain rfl : u = 1 := by simpa [hdep] using hu
      obtain rfl : strayOp = o := Option.some.inj ho
      rfl)
  have hzero := stallBit_strayHold
  rw [he, stallBit, hbit] at hzero
  cases hzero

end Sys2Proof.Machine

/-! # Requests at a bank of Muslin (R99 to R109, R134) -/

namespace Sys2Proof.Machine

/-! ## The parts of a range -/

/-- Where a part of a range lies: within the range, at its offset, and between two multiples of `k`. -/
theorem mem_splitRange {k : Nat} (hk : 0 < k) {p : Nat × Nat × Nat} : ∀ (f a o n : Nat), p ∈ splitRange k f a o n →
    0 < p.2.2 ∧ a ≤ p.1 ∧ p.1 + p.2.2 ≤ a + n ∧ p.1 % k + p.2.2 ≤ k := by
  intro f
  induction f with
  | zero => intro a o n h; cases h
  | succ f ih =>
    intro a o n h
    have hmod := Nat.mod_lt a hk
    by_cases hn : n = 0
    · simp [splitRange, hn] at h
    · simp only [splitRange, if_neg hn, List.mem_cons] at h
      obtain rfl | h := h
      · dsimp only
        omega
      · obtain ⟨hpos, hle, hend, hline⟩ := ih _ _ _ h
        omega

theorem mem_partsOf {k : Nat} (hk : 0 < k) {a n : Nat} {p : Nat × Nat × Nat} (h : p ∈ partsOf k a n) :
    0 < p.2.2 ∧ a ≤ p.1 ∧ p.1 + p.2.2 ≤ a + n ∧ p.1 % k + p.2.2 ≤ k := mem_splitRange hk _ a 0 n h

/-- A range that crosses no multiple of `k` is one part. -/
theorem partsOf_single {k a n : Nat} (hn : 0 < n) (h : a % k + n ≤ k) : partsOf k a n = [(a, 0, n)] := by
  have hm : min n (k - a % k) = n := by omega
  have hrest : ∀ f b o, splitRange k f b o 0 = [] := fun f b o => by cases f <;> rfl
  rw [partsOf, splitRange, if_neg (by omega)]
  dsimp only
  rw [hm, Nat.sub_self, hrest]

theorem Chip.perLine_single (c : Chip) {off n : Nat} (hn : 0 < n) (h : off % 128 + n ≤ 128)
    (request : Chip → Nat → Nat → Nat → Chip) : c.perLine off n request = request c off 0 n := by
  rw [Chip.perLine, partsOf_single hn h]
  rfl

/-- Words of a range. -/
theorem mem_wordsOf {a n w : Nat} : w ∈ wordsOf a n ↔ 0 < n ∧ a / 8 ≤ w ∧ 8 * w < a + n := by
  unfold wordsOf
  by_cases hn : n = 0
  · simp [hn]
  · simp only [if_neg hn, List.mem_map, List.mem_range]
    constructor
    · rintro ⟨x, hx, rfl⟩
      omega
    · rintro ⟨-, hle, hlt⟩
      exact ⟨w - a / 8, by omega, by omega⟩

/-- A word of the poisoned list that a range touches. -/
theorem Chip.poisonedIn_none {c : Chip} {off n : Nat} : c.poisonedIn off n = none ↔
    ∀ w ∈ c.msl.poisoned, ¬ (off / 8 ≤ w ∧ 8 * w < off + n) := by
  simp [Chip.poisonedIn, Chip.poisonedWords]

theorem Chip.poisonedWords_nil {c : Chip} {off n : Nat} (h : c.poisonedIn off n = none) : c.poisonedWords off n = [] :=
  List.head?_eq_none_iff.mp h

/-! ## What decides how a request is served -/

/-- Chips that serve requests alike: the same registers, the same isolated islands, the groups in the same phases. -/
def Chip.servesAs (c d : Chip) : Prop :=
  d.regs = c.regs ∧ d.isolated = c.isolated ∧ ∀ g, (d.group g).phase = (c.group g).phase

theorem Chip.servesAs_refl (c : Chip) : c.servesAs c := ⟨rfl, rfl, fun _ => rfl⟩

theorem Chip.servesAs_trans {c d e : Chip} (h : c.servesAs d) (k : d.servesAs e) : c.servesAs e :=
  ⟨k.1.trans h.1, k.2.1.trans h.2.1, fun g => (k.2.2 g).trans (h.2.2 g)⟩

theorem Chip.groupActive_congr {c d : Chip} (h : c.servesAs d) (g : Nat) : d.groupActive g = c.groupActive g := by
  rw [Chip.groupActive, Chip.groupActive, h.2.2 g]

theorem Chip.linesServe_congr {c d : Chip} (h : c.servesAs d) (off n : Nat) : d.linesServe off n = c.linesServe off n := by
  unfold Chip.linesServe Chip.quadsOut
  rw [h.2.2, h.2.1]

theorem Chip.protectedIn_congr {c d : Chip} (h : c.servesAs d) (off n : Nat) : d.protectedIn off n = c.protectedIn off n := by
  unfold Chip.protectedIn Chip.protectedAt Chip.rd
  rw [h.1]

/-- The phase of a group after a change of its record that keeps the phase. -/
theorem Chip.phase_setGroup (c : Chip) (g : Nat) (f : Group → Group) (hf : ∀ q, (f q).phase = q.phase) (k : Nat) :
    ((c.setGroup g f).group k).phase = (c.group k).phase := by
  have h : ∀ (l : List Group) (g k : Nat) (x : Group), ((modifyNth l g f).getD k x).phase = (l.getD k x).phase := by
    intro l
    induction l with
    | nil => intro g k x; rfl
    | cons a l ih =>
      intro g k x
      cases g with
      | zero => cases k <;> simp [modifyNth, hf]
      | succ g =>
        cases k with
        | zero => rfl
        | succ k => simpa [modifyNth] using ih g k x
  exact h _ _ _ _

theorem Chip.groupActive_iff {c : Chip} {g : Nat} : c.groupActive g = true ↔ (c.group g).phase = .active := by
  unfold Chip.groupActive
  cases (c.group g).phase <;> simp

theorem Chip.groupHolds_of_active {c : Chip} {g : Nat} (h : c.groupActive g = true) : c.groupHolds g = false := by
  rw [Chip.groupHolds, Chip.groupActive_iff.mp h]

/-- A request to an active group is served at once. -/
theorem Chip.access_active {c : Chip} {off : Nat} (h : c.groupActive (groupOf off) = true) (i : Instr) (serve : Chip → Chip)
    (word : Nat) : c.access off i serve word = serve c := by
  rw [Chip.access, Chip.groupHolds_of_active h]
  rfl

/-- A request to an active group restarts its idle time, and no more. -/
theorem Chip.touchGroup_active {c : Chip} {g : Nat} (h : c.groupActive g = true) :
    c.touchGroup g = c.setGroup g (fun q => { q with lastRequest := c.now }) := by
  have hwake : c.wakeGroup g = c := by rw [Chip.wakeGroup, Chip.groupActive_iff.mp h]
  rw [Chip.touchGroup, hwake, Chip.groupHolds_of_active h]
  rfl

/-- The chip once a request has reached an active group. -/
def Chip.reached (c : Chip) (g : Nat) : Chip := c.setGroup g (fun q => { q with lastRequest := c.now })

theorem Chip.reached_servesAs (c : Chip) (g : Nat) : c.servesAs (c.reached g) :=
  ⟨rfl, rfl, fun k => Chip.phase_setGroup c g (fun q => { q with lastRequest := c.now }) (fun _ => rfl) k⟩

theorem Chip.reached_within (c : Chip) (g : Nat) : c.within (c.reached g) [.msl] := rfl

/-! ## Parts of a readable stretch -/

theorem groupOf_sub {off n a m : Nat} (h : off % 2 ^ 25 + n ≤ 2 ^ 25) (hle : off ≤ a) (hm : 0 < m) (hend : a + m ≤ off + n) :
    groupOf a = groupOf off := by
  unfold groupOf bits
  have : a / 2 ^ 25 = off / 2 ^ 25 := by omega
  rw [Nat.shiftRight_eq_div_pow, Nat.shiftRight_eq_div_pow, this]

theorem Chip.linesServe_sub {c : Chip} {off n a m : Nat} (h : off % 2 ^ 25 + n ≤ 2 ^ 25) (hle : off ≤ a) (hm : 0 < m)
    (hend : a + m ≤ off + n) (hs : c.linesServe off n = true) : c.linesServe a m = true := by
  unfold Chip.linesServe at hs ⊢
  rw [groupOf_sub h hle hm hend]
  simp only [Bool.and_eq_true, Bool.or_eq_true, List.all_eq_true, List.mem_range] at hs ⊢
  obtain ⟨hoff, hlines⟩ := hs
  refine ⟨hoff, hlines.imp id fun hall k hk => ?_⟩
  have := hall (a / 128 + k - off / 128) (by omega)
  rwa [show off / 128 + (a / 128 + k - off / 128) = a / 128 + k by omega] at this

theorem Chip.readable_sub {c : Chip} {off n a m : Nat} (h : c.readable off n) (hle : off ≤ a) (hm : 0 < m)
    (hend : a + m ≤ off + n) : c.readable a m := by
  obtain ⟨hgroup, hactive, hserves, hclean⟩ := h
  refine ⟨by omega, by rwa [groupOf_sub hgroup hle hm hend], Chip.linesServe_sub hgroup hle hm hend hserves, ?_⟩
  rw [Chip.poisonedIn_none] at hclean ⊢
  exact fun w hw hin => hclean w hw (by omega)

theorem Chip.protectedIn_sub {c : Chip} {off n a m : Nat} (hle : off ≤ a) (hm : 0 < m) (hend : a + m ≤ off + n)
    (h : c.protectedIn off n = false) : c.protectedIn a m = false := by
  unfold Chip.protectedIn at h ⊢
  have hn : (n != 0) = true := by simp; omega
  rw [hn, Bool.and_true, List.any_eq_false] at h
  rw [Bool.and_eq_false_iff, List.any_eq_false]
  refine Or.inl fun k hk => ?_
  rw [List.mem_range] at hk
  have := h (a / 2 ^ 20 + k - off / 2 ^ 20) (by rw [List.mem_range]; omega)
  unfold Chip.protectedAt at this ⊢
  rwa [show (off + (a / 2 ^ 20 + k - off / 2 ^ 20) * 2 ^ 20) / 2 ^ 20 = (a + k * 2 ^ 20) / 2 ^ 20 by omega] at this

theorem Chip.writable_sub {c : Chip} {off n a m : Nat} (h : c.writable off n) (hle : off ≤ a) (hm : 0 < m)
    (hend : a + m ≤ off + n) : c.writable a m :=
  ⟨Chip.readable_sub h.1 hle hm hend, Chip.protectedIn_sub hle hm hend h.2⟩

theorem Chip.readable_congr {c d : Chip} {off n : Nat} (h : c.servesAs d) (hp : ∀ w ∈ d.msl.poisoned, w ∈ c.msl.poisoned)
    (hr : c.readable off n) : d.readable off n := by
  obtain ⟨hgroup, hactive, hserves, hclean⟩ := hr
  refine ⟨hgroup, by rwa [Chip.groupActive_congr h], by rwa [Chip.linesServe_congr h], ?_⟩
  rw [Chip.poisonedIn_none] at hclean ⊢
  exact fun w hw => hclean w (hp w hw)

theorem Chip.writable_congr {c d : Chip} {off n : Nat} (h : c.servesAs d) (hp : ∀ w ∈ d.msl.poisoned, w ∈ c.msl.poisoned)
    (hr : c.writable off n) : d.writable off n :=
  ⟨Chip.readable_congr h hp hr.1, by rw [Chip.protectedIn_congr h]; exact hr.2⟩

/-! ## One request -/

/-- A read of a readable stretch answers its bytes. -/
theorem Chip.muslinRead_readable {c : Chip} {off n : Nat} (h : c.readable off n) (src : Nat) :
    c.muslinRead off n src = (c.reached (groupOf off), St.OK, c.muslin.read off n) := by
  obtain ⟨-, hactive, hserves, hclean⟩ := h
  have hs : (c.reached (groupOf off)).linesServe off n = true := by
    rw [Chip.linesServe_congr (c.reached_servesAs _), hserves]
  have hp : (c.reached (groupOf off)).poisonedWords off n = [] := Chip.poisonedWords_nil (c := c) hclean
  have ht : c.touchGroup (groupOf off) = c.reached (groupOf off) := Chip.touchGroup_active hactive
  rw [Chip.muslinRead, ht, hs, hp]
  rfl

/-- The words that a write in a mode covers whole, and so makes readable again (R109). -/
def wholeIn (mode : WriteMode) (off n : Nat) : List Nat := if mode = .plain then wholeWords off n else []

/-- What a write that its bank performs makes of the chip. -/
def Chip.stored (c : Chip) (mode : WriteMode) (off : Nat) (data : List Byte) : Chip :=
  { c with
    muslin := c.muslin.merge mode off data
    msl := { c.msl with
      poisoned := c.msl.poisoned.filter (fun w => !(wholeIn mode off data.length).contains w)
      writebacks := c.msl.writebacks.filter (fun w => !(wholeIn mode off data.length).contains w)
      readyAt := c.readyTimes off data.length (c.muslin.merge mode off data) } }

/-- A write to lines that serve it, unprotected, whose poisoned words it covers whole, is performed. -/
theorem Chip.muslinWrite_stored {c : Chip} {mode : WriteMode} {off : Nat} {data : List Byte}
    (hactive : c.groupActive (groupOf off) = true) (hserves : c.linesServe off data.length = true)
    (hopen : c.protectedIn off data.length = false)
    (hclean : ∀ w ∈ c.poisonedWords off data.length, w ∈ wholeIn mode off data.length) :
    c.muslinWrite mode off data = ((c.reached (groupOf off)).stored mode off data, St.OK) := by
  have halike := c.reached_servesAs (groupOf off)
  have hs : (c.reached (groupOf off)).linesServe off data.length = true := by rw [Chip.linesServe_congr halike, hserves]
  have ho : (c.reached (groupOf off)).protectedIn off data.length = false := by rw [Chip.protectedIn_congr halike, hopen]
  have hp : ((c.reached (groupOf off)).poisonedWords off data.length).filter
      (fun w => !(wholeIn mode off data.length).contains w) = [] := by
    rw [List.filter_eq_nil_iff]
    intro w hw
    simpa using hclean w hw
  have ht : c.touchGroup (groupOf off) = c.reached (groupOf off) := Chip.touchGroup_active hactive
  rw [wholeIn] at hp
  rw [Chip.muslinWrite, ht]
  dsimp only
  rw [hs, ho, hp]
  rfl

/-- A byte of a merge within its range. -/
theorem Memory.get_merge_self (m : Memory) (mode : WriteMode) (a k : Nat) (bs : List Byte) (b : Byte) (h : bs[k]? = some b) :
    (m.merge mode a bs).get (a + k) = mode.apply (m.get (a + k)) b := by
  obtain ⟨hk, rfl⟩ := List.getElem?_eq_some_iff.mp h
  unfold Memory.merge
  split
  · next hm =>
    subst hm
    rw [Memory.get_write_self m a k bs hk]
    simp [WriteMode.apply, List.getD_eq_getElem?_getD, h]
  · have hlen : (List.zipWith mode.apply (m.read a bs.length) bs).length = bs.length := by
      rw [List.length_zipWith, Memory.read_length, Nat.min_self]
    have hread : (m.read a bs.length)[k]? = some (m.get (a + k)) := by
      have hk' : k < (m.read a bs.length).length := by rwa [Memory.read_length]
      have := Memory.getD_read m bs.length a k hk
      rw [List.getD_eq_getElem?_getD, List.getElem?_eq_getElem hk', Option.getD_some] at this
      rw [List.getElem?_eq_getElem hk', this]
    rw [Memory.get_write_self m a k _ (by omega), List.getD_eq_getElem?_getD, List.getElem?_zipWith, hread, h]
    rfl

theorem Memory.get_merge_other (m : Memory) (mode : WriteMode) (a x : Nat) (bs : List Byte) (h : x < a ∨ a + bs.length ≤ x) :
    (m.merge mode a bs).get x = m.get x := by
  unfold Memory.merge
  split
  · exact Memory.get_write_other m a x bs h
  · refine Memory.get_write_other m a x _ ?_
    rwa [List.length_zipWith, Memory.read_length, Nat.min_self]

theorem Chip.linkErrors_clean (c : Chip) (off n : Nat) : c.linkErrors off n [] = c := by
  simp [Chip.linkErrors]

theorem lostWords_clean (off n : Nat) : lostWords off n [] = [] := by
  simp [lostWords]

theorem netStatus_clean (off n st : Nat) : netStatus off n [] st = st := by
  rw [netStatus, lostWords_clean]
  rfl

theorem Chip.bankWrite_clean (c : Chip) (mode : WriteMode) (off : Nat) (data : List Byte) :
    c.bankWrite mode off data [] = ((c.muslinWrite mode off data).1, worse St.OK (c.muslinWrite mode off data).2) := by
  rw [Chip.bankWrite, writeParts, lostWords_clean, Chip.linkErrors_clean]
  simp only [List.isEmpty_nil, if_true, List.foldl_cons, List.foldl_nil, List.drop_zero, List.take_length, netStatus_clean]

theorem Chip.unitMeets_ok (c : Chip) (u : Nat) : c.unitMeets u St.OK = c := rfl

/-! ## Writes that are performed -/

/-- The bytes `data` are written at `off` in a mode: no other byte, register or operation changes, requests are served as before, and
no word is poisoned anew (R101, R103). -/
def Chip.written (c d : Chip) (mode : WriteMode) (off : Nat) (data : List Byte) : Prop :=
  c.within d [.muslin, .msl] ∧ c.servesAs d ∧ (∀ w ∈ d.msl.poisoned, w ∈ c.msl.poisoned) ∧
    (∀ k b, data[k]? = some b → d.muslin.get (off + k) = mode.apply (c.muslin.get (off + k)) b) ∧
    c.muslinKept d off data.length

theorem Chip.written_nil (c : Chip) (mode : WriteMode) (off : Nat) : c.written c mode off [] :=
  ⟨Chip.within_refl _ _, c.servesAs_refl, fun _ h => h, fun k b h => by simp at h, fun _ _ => rfl⟩

/-- Two writes in a row are one write of the bytes of both. -/
theorem Chip.written_append {c d e : Chip} {mode : WriteMode} {off : Nat} {xs ys : List Byte} (h : c.written d mode off xs)
    (k : d.written e mode (off + xs.length) ys) : c.written e mode off (xs ++ ys) := by
  obtain ⟨hwithin, halike, hpoison, hbytes, hkept⟩ := h
  obtain ⟨kwithin, kalike, kpoison, kbytes, kkept⟩ := k
  refine ⟨Chip.within_trans _ _ _ _ hwithin kwithin, Chip.servesAs_trans halike kalike, fun w hw => hpoison w (kpoison w hw), ?_, ?_⟩
  · intro j b hj
    by_cases hlt : j < xs.length
    · rw [List.getElem?_append_left hlt] at hj
      rw [kkept _ (by omega), hbytes j b hj]
    · rw [List.getElem?_append_right (by omega)] at hj
      have hb := kbytes _ b hj
      rw [show off + xs.length + (j - xs.length) = off + j by omega] at hb
      rw [hb, hkept _ (by omega)]
  · intro x hx
    rw [List.length_append] at hx
    rw [kkept x (by omega), hkept x (by omega)]

/-- A write of one request to a writable stretch is performed. -/
theorem Chip.muslinWrite_written {c : Chip} {off : Nat} {data : List Byte} (mode : WriteMode) (h : c.writable off data.length) :
    ∃ d, c.muslinWrite mode off data = (d, St.OK) ∧ c.written d mode off data := by
  obtain ⟨⟨-, hactive, hserves, hclean⟩, hopen⟩ := h
  refine ⟨_, Chip.muslinWrite_stored hactive hserves hopen (by rw [Chip.poisonedWords_nil hclean]; simp), ?_, ?_, ?_, ?_, ?_⟩
  · exact Chip.within_step [.muslin, .msl] (Chip.within_mono _ _ _ _ (c.reached_within _) rfl) rfl rfl
  · exact c.reached_servesAs _
  · exact fun w hw => (List.mem_filter.mp hw).1
  · exact fun k b hk => Memory.get_merge_self _ _ _ _ _ _ hk
  · exact fun x hx => Memory.get_merge_other _ _ _ _ _ hx

theorem Chip.serveWrite_written {c : Chip} {off : Nat} {data : List Byte} (mode : WriteMode) (unit : Nat)
    (h : c.writable off data.length) : c.written (c.serveWrite mode off unit data []) mode off data := by
  obtain ⟨d, he, hd⟩ := Chip.muslinWrite_written mode h
  have hok : worse St.OK St.OK = St.OK := by decide
  rw [Chip.serveWrite, Chip.bankWrite_clean, he, hok, Chip.unitMeets_ok]
  exact hd

/-- A write command whose requests are each performed writes its bytes: its lines follow one another (R100). -/
theorem Chip.splitLines_written {mode : WriteMode} {data : List Byte} (request : Chip → Nat → Nat → Nat → Chip)
    (hreq : ∀ (c : Chip) (off o n : Nat), 0 < n → o + n ≤ data.length → c.writable off n →
      c.written (request c off o n) mode off ((data.drop o).take n)) :
    ∀ (f a o n : Nat) (c : Chip), (n = 0 ∨ a % 128 + n ≤ 128 * f) → o + n ≤ data.length → (0 < n → c.writable a n) →
      c.written ((splitRange 128 f a o n).foldl (fun (c : Chip) p => request c p.1 p.2.1 p.2.2) c) mode a ((data.drop o).take n) := by
  intro f
  induction f with
  | zero =>
    intro a o n c hfuel _ _
    obtain rfl : n = 0 := by omega
    rw [List.take_zero]
    exact c.written_nil mode a
  | succ f ih =>
    intro a o n c hfuel hlen hw
    by_cases hn : n = 0
    · rw [splitRange, if_pos hn, hn, List.take_zero]
      exact c.written_nil mode a
    · have hpos : 0 < n := by omega
      rw [splitRange, if_neg hn]
      dsimp only
      generalize hm : min n (128 - a % 128) = m
      have hfirst : c.written (request c a o m) mode a ((data.drop o).take m) :=
        hreq c a o m (by omega) (by omega) (Chip.writable_sub (hw hpos) (by omega) (by omega) (by omega))
      have hm_len : ((data.drop o).take m).length = m := by simp; omega
      have hrest := ih (a + m) (o + m) (n - m) (request c a o m) (by omega) (by omega) fun hpos' =>
        Chip.writable_congr hfirst.2.1 hfirst.2.2.1 (Chip.writable_sub (hw hpos) (by omega) hpos' (by omega))
      have hsplit : (data.drop o).take n = (data.drop o).take m ++ (data.drop (o + m)).take (n - m) := by
        rw [← List.drop_drop, ← List.take_add]
        congr 1
        omega
      rw [hsplit, List.foldl_cons]
      refine Chip.written_append hfirst ?_
      rw [hm_len]
      exact hrest

theorem Chip.perLine_written {c : Chip} {mode : WriteMode} {off : Nat} {data : List Byte} (request : Chip → Nat → Nat → Nat → Chip)
    (h : c.writable off data.length)
    (hreq : ∀ (c : Chip) (off o n : Nat), 0 < n → o + n ≤ data.length → c.writable off n →
      c.written (request c off o n) mode off ((data.drop o).take n)) :
    c.written (c.perLine off data.length request) mode off data := by
  have hall := Chip.splitLines_written request hreq (data.length / 128 + 2) off 0 data.length c (by omega) (by omega) fun _ => h
  rwa [List.drop_zero, List.take_length] at hall

/-- A write command through an alias of Muslin to a writable stretch. -/
theorem Chip.writeCommand_written {c : Chip} {addr : Nat} {data : List Byte} (mode : WriteMode) (unit : Nat)
    (again : Nat → List Byte → Instr) (hr : c.muslinRange addr data.length = true) (h : c.writable (devOffset addr) data.length) :
    c.written (c.writeCommand mode addr unit data [] again) mode (devOffset addr) data := by
  rw [Chip.writeCommand, if_pos hr]
  refine Chip.perLine_written _ h fun c off o n hn hlen hw => ?_
  have hlen' : ((data.drop o).take n).length = n := by simp; omega
  dsimp only
  rw [Chip.access_active hw.1.2.1]
  exact Chip.serveWrite_written mode unit (by rwa [hlen'])

theorem Chip.bar2Write_written {c : Chip} {addr : Nat} {data : List Byte} (h : c.writable addr data.length) :
    c.written (c.perLine addr data.length (fun c off o n => c.access off (.bar2Write off ((data.drop o).take n) [])
      (fun c => c.serveBar2Write off ((data.drop o).take n) []))) .plain addr data := by
  refine Chip.perLine_written _ h fun c off o n hn hlen hw => ?_
  have hlen' : ((data.drop o).take n).length = n := by simp; omega
  rw [Chip.access_active hw.1.2.1, Chip.serveBar2Write, hlen', hw.1.2.2.1]
  exact Chip.serveWrite_written .plain 31 (by rwa [hlen'])

end Sys2Proof.Machine

/-! # What a request that meets a fault does to its unit (R20, R108, R134, R190) -/

namespace Sys2Proof.Machine

/-! ## What the work of a stream that stops spares -/

/-- The status bits of Muslin that stay set until software clears them (R135). -/
def muslinFaults : List Field := [R.MSL_STATUS_WP_HIT, R.MSL_STATUS_UE_LATCH]

/-- The operations, and the status bits of Muslin that are set, stay. -/
def Chip.spares (c d : Chip) : Prop := d.dsp = c.dsp ∧ ∀ f ∈ muslinFaults, c.on f = true → d.on f = true

theorem Chip.spares_refl (c : Chip) : c.spares c := ⟨rfl, fun _ _ h => h⟩

theorem Chip.spares_trans {c d e : Chip} (h : c.spares d) (k : d.spares e) : c.spares e :=
  ⟨k.1.trans h.1, fun f hf hc => k.2 f hf (h.2 f hf hc)⟩

theorem Chip.spares_of_regs {c d : Chip} (hd : d.dsp = c.dsp) (hr : d.regs = c.regs) : c.spares d := by
  refine ⟨hd, fun f _ hc => ?_⟩
  unfold Chip.on Chip.rd at hc ⊢
  rwa [hr]

/-- Work in steps that each spare them spares them. -/
theorem Chip.spares_foldl {α : Type} {f : Chip → α → Chip} (h : ∀ (c : Chip) (a : α), c.spares (f c a)) (l : List α) :
    ∀ c : Chip, c.spares (l.foldl f c) := by
  induction l with
  | nil => exact fun c => c.spares_refl
  | cons a l ih => exact fun c => Chip.spares_trans (h c a) (ih (f c a))

theorem Chip.spares_foldl_fst {α β : Type} {f : Chip × β → α → Chip × β} (h : ∀ (s : Chip × β) (a : α), s.1.spares (f s a).1)
    (l : List α) : ∀ s : Chip × β, s.1.spares (l.foldl f s).1 := by
  induction l with
  | nil => exact fun s => s.1.spares_refl
  | cons a l ih => exact fun s => Chip.spares_trans (h s a) (ih (f s a))

theorem Chip.spares_wr (c : Chip) (g : Field) (v i : Nat) (h : (muslinFaults.all fun f => g.apart i f 0) = true) :
    c.spares (c.wr g v i) :=
  ⟨rfl, fun f hf hc => by rwa [Chip.on_wr_apart _ _ _ _ _ _ (List.all_eq_true.mp h f hf)]⟩

theorem Chip.spares_raise (c : Chip) : c.spares (c.raise 0) := by
  refine ⟨Chip.within_keeps c _ _ (·.dsp) (c.raise_within 0) (Chip.only_dsp_out _ _ _ rfl), fun f hf hc => ?_⟩
  have hclear : (muslinFaults.all fun f => f.clearOfEvent 0 0) = true := by decide
  rwa [Chip.on, Chip.rd_raise _ _ (List.all_eq_true.mp hclear f hf)]

/-- A status bit that is latched clears none. -/
theorem Chip.spares_latchFault (c : Chip) (g : Field) (h : g ∈ muslinFaults ∨ (muslinFaults.all fun f => g.apart 0 f 0) = true) :
    c.spares (c.latchFault g) := by
  unfold Chip.latchFault
  split
  · exact c.spares_refl
  · refine Chip.spares_trans ?_ (Chip.spares_raise _)
    obtain h | h := h
    · refine ⟨rfl, fun f hf hc => ?_⟩
      simp only [muslinFaults, List.mem_cons, List.not_mem_nil, or_false] at h hf
      obtain rfl | rfl := h <;> obtain rfl | rfl := hf
      · exact Chip.on_wr_self _ _ _ _
      · rwa [Chip.on_wr_apart _ _ _ _ _ _ (by decide)]
      · rwa [Chip.on_wr_apart _ _ _ _ _ _ (by decide)]
      · exact Chip.on_wr_self _ _ _ _
    · exact Chip.spares_wr _ _ _ _ h

theorem Chip.spares_setDomainState (c : Chip) (d v : Nat) : c.spares (c.setDomainState d v) := by
  unfold Chip.setDomainState
  split
  · exact Chip.spares_wr _ _ _ _ (by decide)
  · exact Chip.spares_wr _ _ _ _ (by decide)

theorem Chip.spares_setPhase (c : Chip) (g : Nat) (p : GroupPhase) : c.spares (c.setPhase g p) := by
  unfold Chip.setPhase
  have hgroup : c.spares (c.setGroup g (fun r => { r with phase := p })) := Chip.spares_of_regs rfl rfl
  exact Chip.spares_trans (Chip.spares_trans hgroup (Chip.spares_setDomainState _ _ _)) (Chip.spares_wr _ _ _ _ (by decide))

theorem Chip.spares_wakeGroup (c : Chip) (g : Nat) : c.spares (c.wakeGroup g) := by
  unfold Chip.wakeGroup
  split
  · exact Chip.spares_setPhase _ _ _
  · split
    · exact Chip.spares_setPhase _ _ _
    · exact Chip.spares_trans (d := c.isolateGroup g) (Chip.spares_of_regs rfl rfl) (Chip.spares_setPhase _ _ _)
  · exact c.spares_refl

theorem Chip.spares_touchGroup (c : Chip) (g : Nat) : c.spares (c.touchGroup g) := by
  unfold Chip.touchGroup
  exact Chip.spares_trans (Chip.spares_wakeGroup c g) (Chip.spares_of_regs rfl rfl)

theorem Chip.spares_muslinUe (c : Chip) (w src : Nat) : c.spares (c.muslinUe w src) := by
  unfold Chip.muslinUe
  have hlatch : c.spares ((c.count R.MSL_ECC_UE_CNT).latchFault R.MSL_STATUS_UE_LATCH) :=
    Chip.spares_trans (Chip.spares_wr _ _ _ _ (by decide)) (Chip.spares_latchFault _ _ (Or.inl (by simp [muslinFaults])))
  dsimp only
  split
  · exact hlatch
  · exact Chip.spares_trans (Chip.spares_trans (Chip.spares_trans hlatch (Chip.spares_wr _ _ _ _ (by decide)))
      (Chip.spares_wr _ _ _ _ (by decide))) (Chip.spares_wr _ _ _ _ (by decide))

theorem Chip.spares_muslinWrite (c : Chip) (mode : WriteMode) (off : Nat) (data : List Byte) :
    c.spares (c.muslinWrite mode off data).1 := by
  unfold Chip.muslinWrite
  have htouch := c.spares_touchGroup (groupOf off)
  dsimp only
  split
  · exact htouch
  · split
    · exact Chip.spares_trans htouch (Chip.spares_latchFault _ _ (Or.inl (by simp [muslinFaults])))
    · split
      · exact Chip.spares_trans htouch (Chip.spares_foldl (fun c w => c.spares_muslinUe w 4) _ _)
      · exact Chip.spares_trans htouch (Chip.spares_of_regs rfl rfl)

theorem Chip.spares_touchDram (c : Chip) : c.spares c.touchDram := by
  unfold Chip.touchDram
  refine Chip.spares_trans (d := if c.drc.selfRefresh then (c.wr R.DRC_STATUS_SELF_REFRESH 0).setDomainState 3 0 else c)
    ?_ (Chip.spares_of_regs rfl rfl)
  split
  · exact Chip.spares_trans (Chip.spares_wr _ _ _ _ (by decide)) (Chip.spares_setDomainState _ _ _)
  · exact c.spares_refl

theorem Chip.spares_dramUe (c : Chip) (b src : Nat) : c.spares (c.dramUe b src) := by
  unfold Chip.dramUe
  have hlatch : c.spares ((c.count R.DRC_ECC_UE_CNT).latchFault R.DRC_STATUS_UE_LATCH) :=
    Chip.spares_trans (Chip.spares_wr _ _ _ _ (by decide)) (Chip.spares_latchFault _ _ (Or.inr (by decide)))
  dsimp only
  split
  · exact hlatch
  · exact Chip.spares_trans (Chip.spares_trans (Chip.spares_trans (Chip.spares_trans hlatch (Chip.spares_wr _ _ _ _ (by decide)))
      (Chip.spares_wr _ _ _ _ (by decide))) (Chip.spares_wr _ _ _ _ (by decide))) (Chip.spares_wr _ _ _ _ (by decide))

theorem Chip.spares_dramWrite (c : Chip) (off : Nat) (data : List Byte) : c.spares (c.dramWrite off data).1 := by
  unfold Chip.dramWrite
  have htouch := c.spares_touchDram
  dsimp only
  split
  · exact c.spares_refl
  · split
    · exact htouch
    · split
      · exact Chip.spares_trans htouch (Chip.spares_foldl (fun c b => c.spares_dramUe _ 1) _ _)
      · exact Chip.spares_trans htouch (Chip.spares_of_regs rfl rfl)

theorem Chip.spares_devWrite (c : Chip) (a : Nat) (data : List Byte) : c.spares (c.devWrite a data).1 := by
  unfold Chip.devWrite
  dsimp only
  split
  · refine Chip.spares_foldl_fst (fun s p => ?_) _ (c, St.OK)
    split
    · exact Chip.spares_refl _
    · exact Chip.spares_dramWrite _ _ _
  · refine Chip.spares_foldl_fst (fun s p => ?_) _ (c, St.OK)
    split
    · exact Chip.spares_refl _
    · exact Chip.spares_muslinWrite _ _ _ _

theorem Chip.spares_freeMuslin (c : Chip) (off : Nat) (bs : List Byte) : c.spares (c.freeMuslin off bs) := by
  unfold Chip.freeMuslin
  split
  · exact c.spares_refl
  · exact Chip.spares_of_regs rfl rfl

theorem Chip.spares_freeDram (c : Chip) (off : Nat) (bs : List Byte) : c.spares (c.freeDram off bs) := by
  unfold Chip.freeDram
  dsimp only
  split
  · exact c.spares_refl
  · exact Chip.spares_of_regs rfl rfl

theorem Chip.spares_freshId (c : Chip) : c.spares c.freshId.2 := Chip.spares_of_regs rfl rfl

theorem Chip.spares_invalidate (c : Chip) (rs : List (Nat × Nat)) : c.spares (c.invalidate rs) := by
  unfold Chip.invalidate
  refine Chip.spares_foldl (fun c r => ?_) rs c
  dsimp only
  split
  · exact Chip.spares_trans c.spares_freshId (Chip.spares_foldl (fun c p => c.spares_freeDram _ _) _ _)
  · exact Chip.spares_trans c.spares_freshId (Chip.spares_foldl (fun c p => c.spares_freeMuslin _ _) _ _)

theorem Chip.spares_setSlot (c : Chip) (row col slot v : Nat) : c.spares (c.setSlot row col slot v) :=
  Chip.spares_of_regs rfl rfl

theorem Chip.spares_scanColumn (c : Chip) (r : ScanRec) (s : Scb) (t col : Nat) (o : OpRun) : c.spares (c.scanColumn r s t col o).1 := by
  unfold Chip.scanColumn
  refine Chip.spares_foldl_fst (fun u n => ?_) _ (c, o, Num.zero)
  exact Chip.spares_setSlot _ _ _ _ _

theorem Chip.spares_scanStep (c : Chip) (r : ScanRec) (s : Scb) (t : Nat) (o : OpRun) : c.spares (c.scanStep r s t o).1 := by
  unfold Chip.scanStep
  refine Chip.spares_foldl_fst (fun u col => ?_) _ (c, o, [])
  dsimp only
  split
  · exact Chip.spares_scanColumn _ _ _ _ _ _
  · exact Chip.spares_scanColumn _ _ _ _ _ _

theorem Chip.spares_scanSteps (c : Chip) (r : ScanRec) (s : Scb) (n : Nat) (write : Bool) (o : OpRun) :
    c.spares (c.scanSteps r s n write o).1 := by
  unfold Chip.scanSteps
  refine Chip.spares_foldl_fst (fun u t => ?_) _ (c, o, St.OK, 0)
  dsimp only
  split
  · exact Chip.spares_refl _
  · split
    · exact Chip.spares_trans (Chip.spares_scanStep _ _ _ _ _) (Chip.spares_devWrite _ _ _)
    · exact Chip.spares_scanStep _ _ _ _ _

theorem Chip.spares_tornAt (c : Chip) (off : Nat) (o : OpRun) (st : Nat) : c.spares (c.tornAt off o st).1 := by
  unfold Chip.tornAt Chip.setTorn
  exact Chip.spares_devWrite _ _ _

theorem Chip.spares_scanTorn (c : Chip) (r : ScanRec) (s : Scb) (o : OpRun) (st : Nat) (limit : Option Nat) :
    c.spares (c.scanTorn r s o st limit).1 := by
  unfold Chip.scanTorn
  dsimp only
  refine Chip.spares_trans ?_ (Chip.spares_tornAt _ _ _ _)
  refine Chip.spares_trans ?_ (Chip.spares_wr _ _ _ _ (by decide))
  refine Chip.spares_trans ?_ (Chip.spares_invalidate _ _)
  exact Chip.spares_trans c.spares_freshId (Chip.spares_scanSteps _ _ _ _ _ _)

/-- A running operation that meets a fault ends, whatever it is; the operations and set status bits stay. -/
theorem Chip.streamMeets_ends (c : Chip) (o : OpRun) (st : Nat) :
    c.spares (c.streamMeets o st).1 ∧ (c.streamMeets o st).2.finished = true := by
  unfold Chip.streamMeets
  dsimp only
  split
  · split
    · exact ⟨c.spares_refl, rfl⟩
    · exact ⟨Chip.spares_scanTorn _ _ _ _ _ _, rfl⟩
  · split
    · exact ⟨Chip.spares_tornAt _ _ _ _, rfl⟩
    · exact ⟨c.spares_refl, rfl⟩

/-- An operation of an engine other than Damask just ends. -/
theorem Chip.streamMeets_plain (c : Chip) {o : OpRun} (st : Nat) (h : Desc.engine o.raw ≠ 0) : c.streamMeets o st = (c, o.ends st) := by
  simp [Chip.streamMeets, h]

/-! ## The requester is told -/

/-- A request with no operation raises vector 0 where the network lost a word of it (R20), and no other status reaches anyone. -/
theorem Chip.unitMeets_none {c : Chip} {u st : Nat} (h : c.op? u = none) :
    c.unitMeets u st = if st = St.NET_UNCORRECTABLE then c.raise 0 else c := by
  unfold Chip.unitMeets
  rw [h]
  by_cases hok : st = St.OK
  · subst hok
    rfl
  · rw [if_neg hok]

/-- A status met by a request of a plain unit ends its operation, and no more. -/
theorem Chip.unitMeets_plain {c : Chip} {u st : Nat} {o : OpRun} (hst : st ≠ St.OK) (ho : c.op? u = some o)
    (hrun : o.finished = false) (hengine : Desc.engine o.raw ≠ 0) : c.unitMeets u st = c.setOp u (o.ends st) := by
  unfold Chip.unitMeets
  rw [if_neg hst, ho]
  dsimp only
  rw [hrun, if_neg Bool.false_ne_true, Chip.streamMeets_plain _ _ hengine]

/-- What a fault does to operations: the requester's ends, and every other stays (R20, R108, R134). -/
def Chip.unitEnds (c d : Chip) (u : Nat) : Prop :=
  (∀ o, c.op? u = some o → ∃ r, d.op? u = some r ∧ r.finished = true) ∧ ∀ v, v ≠ u → d.op? v = c.op? v

/-- What a fault does at a plain unit: its operation ends with the status. -/
def Chip.unitEndsWith (c d : Chip) (u st : Nat) : Prop :=
  d.op? u = (c.op? u).map (·.ends st) ∧ ∀ v, v ≠ u → d.op? v = c.op? v

theorem Chip.unitMeets_ends (c : Chip) {u st : Nat} (hst : st ≠ St.OK) :
    c.unitEnds (c.unitMeets u st) u ∧ ∀ f ∈ muslinFaults, c.on f = true → (c.unitMeets u st).on f = true := by
  cases ho : c.op? u with
  | none =>
    have hspares : c.spares (c.unitMeets u st) := by
      rw [Chip.unitMeets_none ho]
      split
      · exact c.spares_raise
      · exact c.spares_refl
    exact ⟨⟨fun o h => by simp [ho] at h, fun v _ => Chip.op_congr _ _ _ hspares.1⟩, hspares.2⟩
  | some o =>
    have hset : ∀ (b : Chip) (r : OpRun), c.spares b → r.finished = true → c.unitEnds (b.setOp u r) u ∧
        ∀ f ∈ muslinFaults, c.on f = true → (b.setOp u r).on f = true := fun b r hb hr =>
      ⟨⟨fun _ _ => ⟨r, Chip.op_setOp_self _ _ _, hr⟩, fun v hv => by
        rw [Chip.op_setOp_other _ _ _ _ hv, Chip.op_congr _ _ _ hb.1]⟩, hb.2⟩
    unfold Chip.unitMeets
    rw [if_neg hst, ho]
    dsimp only
    split
    · next hfinished => exact hset c _ c.spares_refl hfinished
    · obtain ⟨hspares, hends⟩ := c.streamMeets_ends o st
      exact hset _ _ hspares hends

theorem Chip.unitMeets_plainOn {c : Chip} {u st : Nat} (hst : st ≠ St.OK) (h : c.plainOn u) :
    c.within (c.unitMeets u st) [.regs, .dsp, .sent] ∧ c.unitEndsWith (c.unitMeets u st) u st := by
  cases ho : c.op? u with
  | none =>
    rw [Chip.unitMeets_none ho, Chip.unitEndsWith, ho]
    split
    · have hdsp := c.spares_raise.1
      exact ⟨Chip.within_mono _ _ _ _ (c.raise_within 0) rfl, (Chip.op_congr _ _ _ hdsp).trans ho, fun v _ => Chip.op_congr _ _ _ hdsp⟩
    · exact ⟨Chip.within_refl _ _, ho, fun _ _ => rfl⟩
  | some o =>
    obtain ⟨hrun, hengine⟩ := h o ho
    rw [Chip.unitMeets_plain hst ho hrun hengine, Chip.unitEndsWith, ho]
    exact ⟨rfl, Chip.op_setOp_self _ _ _, fun v hv => Chip.op_setOp_other _ _ _ _ hv⟩

/-- Raising vector 0 leaves its bit of HIF_EVT_PEND set (R280). -/
theorem Chip.raise_pend (c : Chip) : ((c.raise 0).rd R.HIF_EVT_PEND_PEND).testBit 0 = true := by
  unfold Chip.raise
  dsimp only
  split
  · next h => exact h
  · have hset : ((c.wr R.HIF_EVT_PEND_PEND (c.rd R.HIF_EVT_PEND_PEND ||| 2 ^ 0)).rd R.HIF_EVT_PEND_PEND).testBit 0 = true := by
      rw [Chip.rd_wr_self, show R.HIF_EVT_PEND_PEND.width = 20 from rfl, Nat.testBit_mod_two_pow, Nat.testBit_or]
      simp
    split
    · exact hset
    · rwa [Chip.rd_eq_of_words_eq fun k hk => Chip.get_sendVector_other _ _ ?_]
      have hk : k < 1 := hk
      obtain rfl : k = 0 := by omega
      decide

/-- A request whose bank left the chip `b`, and whose unit `u` then met the status `st`, leaves `d`. -/
structure Chip.Met (c b d : Chip) (u st : Nat) : Prop where
  faults : ∀ f ∈ muslinFaults, b.on f = true → d.on f = true
  ends : c.unitEnds d u
  plain : c.plainOn u → d = b.unitMeets u st ∧ c.within d [.regs, .dsp, .msl, .sent] ∧ c.unitEndsWith d u st
  pend : st = St.NET_UNCORRECTABLE → c.op? u = none → (d.rd R.HIF_EVT_PEND_PEND).testBit 0 = true

theorem Chip.met_only {c b : Chip} {u st : Nat} {ps : List Part} (hst : st ≠ St.OK) (hb : c.within b [.regs, .msl, .sent])
    (hps : ([Part.regs, .dsp, .msl, .sent].all fun p => ps.contains p) = true) : c.Met b ((b.unitMeets u st).only ps c) u st := by
  have hdsp : b.dsp = c.dsp := Chip.within_keeps c b _ (·.dsp) hb (Chip.only_dsp_out _ _ _ rfl)
  have hin : ∀ p, p ∈ [Part.regs, .dsp, .msl, .sent] → ps.contains p = true := fun p hp => List.all_eq_true.mp hps p hp
  have honly : ∀ v, ((b.unitMeets u st).only ps c).op? v = (b.unitMeets u st).op? v := fun v =>
    Chip.op_congr _ _ _ (Chip.only_dsp_in _ _ _ (hin _ (by simp)))
  have hregs : ((b.unitMeets u st).only ps c).regs = (b.unitMeets u st).regs := Chip.only_regs_in _ _ _ (hin _ (by simp))
  have hop : ∀ v, b.op? v = c.op? v := fun v => Chip.op_congr _ _ _ hdsp
  obtain ⟨⟨hends, hothers⟩, hfaults⟩ := b.unitMeets_ends (u := u) hst
  refine ⟨fun f hf hon => ?_, ⟨fun o ho => ?_, fun v hv => ?_⟩, fun hplain => ?_, fun hnet hnone => ?_⟩
  · unfold Chip.on Chip.rd
    rw [hregs]
    exact hfaults f hf hon
  · rw [honly]
    exact hends o ((hop u).trans ho)
  · rw [honly, hothers v hv, hop]
  · obtain ⟨hwithin, hwith, hrest⟩ := Chip.unitMeets_plainOn hst (fun o ho => hplain o ((hop u).symm.trans ho))
    have hall : c.within (b.unitMeets u st) [.regs, .dsp, .msl, .sent] :=
      Chip.within_step [.regs, .dsp, .sent] (Chip.within_mono _ _ _ _ hb rfl) hwithin rfl
    rw [Chip.within_mono _ _ _ _ hall hps]
    exact ⟨rfl, hall, by rw [hwith, hop], fun v hv => by rw [hrest v hv, hop]⟩
  · rw [Chip.rd, hregs, hnet, Chip.unitMeets_none ((hop u).trans hnone), if_pos rfl]
    exact b.raise_pend

/-- A plain unit that meets a status leaves the registers alone, unless no operation made a request that the network lost. -/
theorem Chip.unitMeets_regs {c b : Chip} {u st : Nat} (hst : st ≠ St.OK) (hnet : st = St.NET_UNCORRECTABLE → c.op? u ≠ none) (h : c.plainOn u)
    (hdsp : b.dsp = c.dsp) : (b.unitMeets u st).regs = b.regs ∧ (b.unitMeets u st).msl = b.msl ∧ (b.unitMeets u st).sent = b.sent := by
  have hop : b.op? u = c.op? u := Chip.op_congr _ _ _ hdsp
  cases ho : b.op? u with
  | none =>
    rw [Chip.unitMeets_none ho, if_neg fun h => hnet h (hop.symm.trans ho)]
    exact ⟨rfl, rfl, rfl⟩
  | some o =>
    obtain ⟨hrun, hengine⟩ := h o (hop.symm.trans ho)
    rw [Chip.unitMeets_plain hst ho hrun hengine]
    exact ⟨rfl, rfl, rfl⟩

/-- What an uncorrectable word leaves in the registers (R108). -/
theorem Chip.muslinUe_shows (c : Chip) {w src : Nat} (hw : w < 2 ^ 25) (hsrc : src < 16) :
    (c.muslinUe w src).rd R.MSL_ECC_UE_CNT_COUNT = (c.rd R.MSL_ECC_UE_CNT_COUNT + 1) % 2 ^ 32 ∧
      (c.muslinUe w src).rd R.MSL_STATUS_UE_LATCH = 1 ∧ (c.muslinUe w src).rd R.MSL_ERR_LOG_VALID = 1 ∧
      (c.rd R.MSL_ERR_LOG_VALID = 0 → (c.muslinUe w src).rd R.MSL_ERR_LOG_WORD = w ∧ (c.muslinUe w src).rd R.MSL_ERR_LOG_SOURCE = src) ∧
      (c.rd R.MSL_ERR_LOG_VALID = 1 → (c.muslinUe w src).rd R.MSL_ERR_LOG_WORD = c.rd R.MSL_ERR_LOG_WORD) := by
  have hcount : ((c.count R.MSL_ECC_UE_CNT).latchFault R.MSL_STATUS_UE_LATCH).rd R.MSL_ECC_UE_CNT_COUNT =
      (c.rd R.MSL_ECC_UE_CNT_COUNT + 1) % 2 ^ 32 := by
    rw [Chip.rd_latchFault_apart _ _ _ _ _ (by decide) (by decide)]
    exact Chip.rd_wr_self _ _ _ _
  have hlatch : ((c.count R.MSL_ECC_UE_CNT).latchFault R.MSL_STATUS_UE_LATCH).rd R.MSL_STATUS_UE_LATCH = 1 :=
    Chip.rd_latchFault_self _ _ _ rfl (by decide)
  have hlog : ∀ g ∈ [R.MSL_ERR_LOG_VALID, R.MSL_ERR_LOG_WORD, R.MSL_ERR_LOG_SOURCE],
      ((c.count R.MSL_ECC_UE_CNT).latchFault R.MSL_STATUS_UE_LATCH).rd g = c.rd g := fun g hg => by
    have hapart : ([R.MSL_ERR_LOG_VALID, R.MSL_ERR_LOG_WORD, R.MSL_ERR_LOG_SOURCE].all fun g =>
        R.MSL_STATUS_UE_LATCH.apart 0 g 0 && g.clearOfEvent 0 0 && R.MSL_ECC_UE_CNT.apart 0 g 0) = true := by decide
    have h := List.all_eq_true.mp hapart g hg
    simp only [Bool.and_eq_true] at h
    obtain ⟨⟨hstatus, hevent⟩, hcounter⟩ := h
    rw [Chip.rd_latchFault_apart _ _ _ _ _ hstatus hevent]
    exact Chip.rd_wr_apart _ _ _ _ _ _ hcounter
  have hvalid := hlog R.MSL_ERR_LOG_VALID (by simp)
  have hword := hlog R.MSL_ERR_LOG_WORD (by simp)
  unfold Chip.muslinUe
  dsimp only
  generalize (c.count R.MSL_ECC_UE_CNT).latchFault R.MSL_STATUS_UE_LATCH = b at *
  have hbit : c.rd R.MSL_ERR_LOG_VALID < 2 := c.rd_lt R.MSL_ERR_LOG_VALID 0
  rw [Chip.on, hvalid]
  by_cases h : c.rd R.MSL_ERR_LOG_VALID = 0
  · rw [if_neg (by simp [h])]
    refine ⟨?_, ?_, Chip.rd_wr_self _ _ _ _, fun _ => ⟨?_, ?_⟩, fun h1 => by omega⟩
    · rw [Chip.rd_wr_apart _ _ _ _ _ _ (by decide), Chip.rd_wr_apart _ _ _ _ _ _ (by decide),
        Chip.rd_wr_apart _ _ _ _ _ _ (by decide), hcount]
    · rw [Chip.rd_wr_apart _ _ _ _ _ _ (by decide), Chip.rd_wr_apart _ _ _ _ _ _ (by decide),
        Chip.rd_wr_apart _ _ _ _ _ _ (by decide), hlatch]
    · rw [Chip.rd_wr_apart _ _ _ _ _ _ (by decide), Chip.rd_wr_apart _ _ _ _ _ _ (by decide), Chip.rd_wr_self]
      exact Nat.mod_eq_of_lt hw
    · rw [Chip.rd_wr_apart _ _ _ _ _ _ (by decide), Chip.rd_wr_self]
      exact Nat.mod_eq_of_lt hsrc
  · rw [if_pos (by simpa using h)]
    exact ⟨hcount, hlatch, by omega, fun h0 => absurd h0 h, fun _ => hword⟩

/-! ## Write requests that meet a fault -/

/-- The parts of the chip that a request by a unit names. -/
def Parts.request : List Part := [.regs, .muslin, .dsp, .msl, .dmk, .sent, .fresh]

/-- A command that writes Muslin through an alias: its mode, and the command of a request of it that waits. -/
theorem exec_writeCommand {a unit : Nat} {data : List Byte} {net : List (Nat × Bool)} {i : Instr}
    (h : i = .muslinWrite a unit data net ∨ i = .bitSetWrite a unit data net ∨ i = .bitClearWrite a unit data net) (s : State) :
    ∃ mode again, exec i s = s.run Parts.request (fun c => c.writeCommand mode a unit data net again) := by
  obtain rfl | rfl | rfl := h
  · exact ⟨regionMode a, fun a d => .muslinWrite a unit d net, rfl⟩
  · exact ⟨.setBits, fun a d => .bitSetWrite a unit d net, rfl⟩
  · exact ⟨.clearBits, fun a d => .bitClearWrite a unit d net, rfl⟩

/-- A write command within a line of an active group is one request, served at once. -/
theorem Chip.writeCommand_single {c : Chip} {a : Nat} {data : List Byte} (mode : WriteMode) (unit : Nat) (net : List (Nat × Bool))
    (again : Nat → List Byte → Instr) (hr : c.muslinRange a data.length = true) (hd : data ≠ [])
    (hline : devOffset a % 128 + data.length ≤ 128) (hactive : c.groupActive (groupOf (devOffset a)) = true) :
    c.writeCommand mode a unit data net again = c.serveWrite mode (devOffset a) unit data net := by
  rw [Chip.writeCommand, if_pos hr, Chip.perLine_single _ (List.length_pos_iff.mpr hd) hline, Chip.access_active hactive]
  simp

theorem Chip.protectedIn_of_at {c : Chip} {off n : Nat} (hn : n ≠ 0) (h : c.protectedAt off = true) : c.protectedIn off n = true := by
  unfold Chip.protectedIn
  rw [Bool.and_eq_true, List.any_eq_true]
  exact ⟨⟨0, List.mem_range.mpr (Nat.succ_pos _), by simpa using h⟩, by simpa using hn⟩

/-- A range within a line is protected where its first byte is. -/
theorem Chip.protectedIn_line {c : Chip} {off n : Nat} (hline : off % 128 + n ≤ 128) (h : c.protectedAt off = false) :
    c.protectedIn off n = false := by
  unfold Chip.protectedIn
  rw [show (off + n - 1) / 2 ^ 20 - off / 2 ^ 20 + 1 = 1 by omega]
  simp [h]

/-- R134: a protected write is suppressed. -/
theorem Chip.serveWrite_protected {c : Chip} {off : Nat} {data : List Byte} (mode : WriteMode) (unit : Nat)
    (hactive : c.groupActive (groupOf off) = true) (hserves : c.linesServe off data.length = true)
    (hprot : c.protectedIn off data.length = true) :
    c.serveWrite mode off unit data [] = (c.reached (groupOf off)).wpHit.unitMeets unit St.MSL_WRITE_PROTECT := by
  have halike := c.reached_servesAs (groupOf off)
  have hs : (c.reached (groupOf off)).linesServe off data.length = true := by rw [Chip.linesServe_congr halike, hserves]
  have hp : (c.reached (groupOf off)).protectedIn off data.length = true := by rw [Chip.protectedIn_congr halike, hprot]
  have ht : c.touchGroup (groupOf off) = c.reached (groupOf off) := Chip.touchGroup_active hactive
  have hw : c.muslinWrite mode off data = ((c.reached (groupOf off)).wpHit, St.MSL_WRITE_PROTECT) := by
    rw [Chip.muslinWrite, ht]
    dsimp only
    rw [hs, hp]
    rfl
  rw [Chip.serveWrite, Chip.bankWrite_clean, hw, show worse St.OK St.MSL_WRITE_PROTECT = St.MSL_WRITE_PROTECT by decide]

/-- R109: a write within a poisoned word, and of less than the word, is not performed. -/
theorem Chip.serveWrite_poisoned {c : Chip} {off w : Nat} {data : List Byte} (mode : WriteMode) (unit : Nat)
    (hactive : c.groupActive (groupOf off) = true) (hserves : c.linesServe off data.length = true)
    (hopen : c.protectedIn off data.length = false) (hpoison : c.poisonedWords off data.length = [w])
    (hpart : w ∉ wholeIn mode off data.length) :
    c.serveWrite mode off unit data [] = ((c.reached (groupOf off)).muslinUe w 4).unitMeets unit St.MSL_UNCORRECTABLE := by
  have halike := c.reached_servesAs (groupOf off)
  have hs : (c.reached (groupOf off)).linesServe off data.length = true := by rw [Chip.linesServe_congr halike, hserves]
  have ho : (c.reached (groupOf off)).protectedIn off data.length = false := by rw [Chip.protectedIn_congr halike, hopen]
  have hp : ((c.reached (groupOf off)).poisonedWords off data.length).filter
      (fun w => !(wholeIn mode off data.length).contains w) = [w] := by
    have heq : (c.reached (groupOf off)).poisonedWords off data.length = [w] := hpoison
    rw [heq]
    simp [hpart]
  rw [wholeIn] at hp
  have ht : c.touchGroup (groupOf off) = c.reached (groupOf off) := Chip.touchGroup_active hactive
  have hw : c.muslinWrite mode off data = ((c.reached (groupOf off)).muslinUe w 4, St.MSL_UNCORRECTABLE) := by
    rw [Chip.muslinWrite, ht]
    dsimp only
    rw [hs, ho, hp]
    rfl
  rw [Chip.serveWrite, Chip.bankWrite_clean, hw, show worse St.OK St.MSL_UNCORRECTABLE = St.MSL_UNCORRECTABLE by decide]

/-- R20: a write within one word that the network lost does not reach its bank. -/
theorem Chip.serveWrite_lost {c : Chip} {off : Nat} {data : List Byte} {net : List (Nat × Bool)} (mode : WriteMode) (unit : Nat)
    (hd : data ≠ []) (hword : off % 8 + data.length ≤ 8) (hlost : (off / 8, true) ∈ net) :
    c.serveWrite mode off unit data net = (c.linkErrors off data.length net).unitMeets unit St.NET_UNCORRECTABLE := by
  have hpos := List.length_pos_iff.mpr hd
  have hmem : off / 8 ∈ lostWords off data.length net := by
    rw [lostWords, List.mem_filter, mem_wordsOf]
    exact ⟨by omega, by simpa using hlost⟩
  have hne : (lostWords off data.length net).isEmpty = false := by
    rw [List.isEmpty_eq_false_iff_exists_mem]
    exact ⟨_, hmem⟩
  have hparts : writeParts off data.length net = [] := by
    rw [writeParts, hne, partsOf_single hpos hword]
    simpa using hmem
  rw [Chip.serveWrite, Chip.bankWrite, hparts, netStatus, hne]
  rw [List.foldl_nil, if_neg Bool.false_ne_true, show worse St.OK St.NET_UNCORRECTABLE = St.NET_UNCORRECTABLE by decide]

theorem Chip.linkErrors_within (c : Chip) (off n : Nat) (net : List (Nat × Bool)) : c.within (c.linkErrors off n net) [.msl] := rfl

end Sys2Proof.Machine

/-! # Muslin writes, performed and refused -/

namespace Sys2Proof.Machine

theorem regionMode_apply (a : Nat) (old new : Byte) : (regionMode a).apply old new =
    if devRegion a = 1 then old ||| new else if devRegion a = 2 then old &&& ~~~ new else new := by
  unfold regionMode
  split <;> simp_all [WriteMode.apply]

/-- A command whose effect is a write of `data` answers the bytes written, and changes nothing else. -/
theorem answers_written {s : State} {i : Instr} {ps : List Part} {f : Chip → Chip} {mode : WriteMode} {off : Nat} {data : List Byte}
    (he : exec i s = .next { s with chip := (f s.chip).only ps s.chip }) (hps : ([Part.muslin, .msl].all fun p => ps.contains p) = true)
    (hw : s.chip.written (f s.chip) mode off data) :
    Answers s i (fun d => s.chip.within d [.muslin, .msl] ∧
      (∀ k b, data[k]? = some b → d.muslin.get (off + k) = mode.apply (s.chip.muslin.get (off + k)) b) ∧
      s.chip.muslinKept d off data.length) := by
  obtain ⟨hwithin, -, -, hbytes, hkept⟩ := hw
  rw [Chip.within_mono _ _ _ _ hwithin hps] at he
  exact ⟨_, he, hwithin, hbytes, hkept⟩

theorem answers_writeCommand {s : State} {i : Instr} {a unit : Nat} {data : List Byte} (mode : WriteMode)
    (again : Nat → List Byte → Instr) (ha : s.chip.awake = true) (hr : s.chip.muslinRange a data.length = true)
    (hw : s.chip.writable (devOffset a) data.length)
    (he : exec i s = s.run Parts.request (fun c => c.writeCommand mode a unit data [] again)) :
    Answers s i (fun d => s.chip.within d [.muslin, .msl] ∧
      (∀ k b, data[k]? = some b → d.muslin.get (devOffset a + k) = mode.apply (s.chip.muslin.get (devOffset a + k)) b) ∧
      s.chip.muslinKept d (devOffset a) data.length) :=
  answers_written (he.trans (State.run_awake _ _ _ ha)) rfl (Chip.writeCommand_written mode unit again hr hw)

theorem answers_bar2Write {s : State} {off : Nat} {data : List Byte} (hh : s.chip.heard = true) (hr : off + data.length ≤ muslinSize)
    (hw : s.chip.writable off data.length) :
    Answers s (.bar2Write off data []) (fun d => s.chip.within d [.muslin, .msl] ∧
      (∀ k b, data[k]? = some b → d.muslin.get (off + k) = b) ∧ s.chip.muslinKept d off data.length) := by
  have hexec : exec (.bar2Write off data []) s = execBar2Write off data [] s := rfl
  rw [execBar2Write, State.runHost_heard _ _ _ hh, if_pos hr] at hexec
  obtain ⟨hwithin, -, -, hbytes, hkept⟩ := Chip.bar2Write_written hw
  have honly := Chip.within_mono _ _ _ Parts.request hwithin rfl
  exact ⟨_, hexec.trans (congrArg (fun d => Host.Outcome.next { s with chip := d }) honly), hwithin, hbytes, hkept⟩

/-- Whatever a fault found a write at, the command answers what its unit met. -/
theorem answers_writeMet {s : State} {i : Instr} {a unit st : Nat} {data : List Byte} {net : List (Nat × Bool)} {b : Chip}
    (hi : i = .muslinWrite a unit data net ∨ i = .bitSetWrite a unit data net ∨ i = .bitClearWrite a unit data net)
    (ha : s.chip.awake = true) (hr : s.chip.muslinRange a data.length = true) (hd : data ≠ [])
    (hline : devOffset a % 128 + data.length ≤ 128) (hactive : s.chip.groupActive (groupOf (devOffset a)) = true)
    (hst : st ≠ St.OK) (hb : s.chip.within b [.regs, .msl, .sent])
    (hserve : ∀ mode, s.chip.serveWrite mode (devOffset a) unit data net = b.unitMeets unit st) :
    Answers s i (fun d => s.chip.Met b d unit st) := by
  obtain ⟨mode, again, he⟩ := exec_writeCommand hi s
  refine ⟨_, he.trans (State.run_awake _ _ _ ha), ?_⟩
  rw [Chip.writeCommand_single mode unit net again hr hd hline hactive, hserve mode]
  exact Chip.met_only hst hb rfl

theorem Chip.wpHit_on (c : Chip) : c.wpHit.on R.MSL_STATUS_WP_HIT = true :=
  bne_iff_ne.mpr ((Chip.rd_latchFault_self c R.MSL_STATUS_WP_HIT 0 rfl (by decide)).trans_ne one_ne_zero)

/-- A one-bit field that is on reads 1. -/
theorem Chip.rd_of_on {c : Chip} {f : Field} {i : Nat} (hw : f.width = 1) (h : c.on f i = true) : c.rd f i = 1 := by
  have hlt := c.rd_lt f i
  rw [hw] at hlt
  have hne : c.rd f i ≠ 0 := by simpa [Chip.on] using h
  omega

theorem muslinWrite_protected {s : State} {i : Instr} {a unit : Nat} {data : List Byte}
    (hi : i = .muslinWrite a unit data [] ∨ i = .bitSetWrite a unit data [] ∨ i = .bitClearWrite a unit data [])
    (ha : s.chip.awake = true) (hr : s.chip.muslinRange a data.length = true) (hd : data ≠ [])
    (hline : devOffset a % 128 + data.length ≤ 128) (hactive : s.chip.groupActive (groupOf (devOffset a)) = true)
    (hserves : s.chip.linesServe (devOffset a) data.length = true) (hprot : s.chip.protectedAt (devOffset a) = true) :
    Answers s i (fun d => d.rd R.MSL_STATUS_WP_HIT = 1 ∧
      (s.chip.plainOn unit → s.chip.within d [.regs, .dsp, .msl, .sent] ∧
        d.op? unit = (s.chip.op? unit).map (·.ends St.MSL_WRITE_PROTECT)) ∧
      (∀ o, s.chip.op? unit = some o → ∃ r, d.op? unit = some r ∧ r.finished = true) ∧
      ∀ v, v ≠ unit → d.op? v = s.chip.op? v) := by
  have hprotIn : s.chip.protectedIn (devOffset a) data.length = true :=
    Chip.protectedIn_of_at (by simpa using hd) hprot
  refine Answers.mono (answers_writeMet hi ha hr hd hline hactive (by decide)
    (Chip.within_step [.regs, .sent] (Chip.within_mono _ _ _ _ (s.chip.reached_within (groupOf (devOffset a))) rfl)
      (Chip.latchFault_within _ R.MSL_STATUS_WP_HIT 0) rfl)
    fun mode => Chip.serveWrite_protected mode unit hactive hserves hprotIn) fun d hmet => ⟨?_, fun hp => ?_, hmet.ends.1, hmet.ends.2⟩
  · exact Chip.rd_of_on rfl (hmet.faults _ (by simp [muslinFaults]) (Chip.wpHit_on _))
  · obtain ⟨-, hwithin, hends⟩ := hmet.plain hp
    exact ⟨hwithin, hends.1⟩

/-- The poisoned words that a write within word `w` touches, where `w` is listed once. -/
theorem Chip.poisonedWords_word {c : Chip} {off n w : Nat} (hn : n ≠ 0) (hoff : off / 8 = w) (hword : off % 8 + n ≤ 8)
    (hcount : c.msl.poisoned.count w = 1) : c.poisonedWords off n = [w] := by
  have hpred : ∀ x ∈ c.msl.poisoned, (decide (off / 8 ≤ x) && decide (8 * x < off + n)) = (x == w) := by
    intro x _
    rw [Bool.eq_iff_iff, Bool.and_eq_true, decide_eq_true_iff, decide_eq_true_iff, beq_iff_eq]
    omega
  rw [Chip.poisonedWords, List.filter_congr hpred, List.filter_beq, hcount]
  rfl

theorem wholeIn_part {mode : WriteMode} {off n : Nat} (h : n < 8) (w : Nat) : w ∉ wholeIn mode off n := by
  unfold wholeIn wholeWords
  split
  · intro hmem
    have hcond := (List.mem_filter.mp hmem).2
    simp only [Bool.and_eq_true, decide_eq_true_iff] at hcond
    omega
  · simp

theorem Chip.muslinRange_end {c : Chip} {a n : Nat} (h : c.muslinRange a n = true) : devOffset a + n ≤ muslinSize := by
  unfold Chip.muslinRange Chip.validRange at h
  simp only [Bool.and_eq_true, List.contains_iff_mem, List.mem_cons, List.not_mem_nil, or_false] at h
  obtain ⟨⟨-, hregion⟩, hend⟩ := h
  rw [if_pos (by omega)] at hend
  simpa using hend

theorem muslinWrite_poisoned {s : State} {i : Instr} {a unit w : Nat} {data : List Byte}
    (hi : i = .muslinWrite a unit data [] ∨ i = .bitSetWrite a unit data [] ∨ i = .bitClearWrite a unit data [])
    (ha : s.chip.awake = true) (hr : s.chip.muslinRange a data.length = true) (hd : data ≠ [])
    (hline : devOffset a % 128 + data.length ≤ 128) (hactive : s.chip.groupActive (groupOf (devOffset a)) = true)
    (hserves : s.chip.linesServe (devOffset a) data.length = true) (hopen : s.chip.protectedAt (devOffset a) = false)
    (hlen : data.length < 8) (hw : devOffset a / 8 = w) (hword : devOffset a % 8 + data.length ≤ 8)
    (hcount : s.chip.msl.poisoned.count w = 1) :
    Answers s i (fun d => d.rd R.MSL_STATUS_UE_LATCH = 1 ∧
      (s.chip.plainOn unit → s.chip.within d [.regs, .dsp, .msl, .sent] ∧
        d.rd R.MSL_ECC_UE_CNT_COUNT = (s.chip.rd R.MSL_ECC_UE_CNT_COUNT + 1) % 2 ^ 32 ∧
        (s.chip.rd R.MSL_ERR_LOG_VALID = 0 → d.rd R.MSL_ERR_LOG_SOURCE = 4 ∧ d.rd R.MSL_ERR_LOG_WORD = w) ∧
        d.op? unit = (s.chip.op? unit).map (·.ends St.MSL_UNCORRECTABLE)) ∧
      (∀ o, s.chip.op? unit = some o → ∃ r, d.op? unit = some r ∧ r.finished = true) ∧
      ∀ v, v ≠ unit → d.op? v = s.chip.op? v) := by
  have hpos : data.length ≠ 0 := by simpa using hd
  have hsmall : w < 2 ^ 25 := by
    have := Chip.muslinRange_end hr
    simp only [muslinSize] at this
    omega
  obtain ⟨hcnt, hlatch, -, hlog, -⟩ := Chip.muslinUe_shows (s.chip.reached (groupOf (devOffset a))) (w := w) (src := 4) hsmall (by decide)
  have hbank : s.chip.within ((s.chip.reached (groupOf (devOffset a))).muslinUe w 4) [.regs, .msl, .sent] :=
    Chip.within_step [.regs, .sent] (Chip.within_mono _ _ _ _ (s.chip.reached_within (groupOf (devOffset a))) rfl)
      (Chip.muslinUe_within _ w 4) rfl
  refine Answers.mono (answers_writeMet hi ha hr hd hline hactive (by decide) hbank
    fun mode => Chip.serveWrite_poisoned mode unit hactive hserves (Chip.protectedIn_line hline hopen)
      (Chip.poisonedWords_word hpos hw hword hcount) (wholeIn_part hlen w)) fun d hmet => ⟨?_, fun hp => ?_, hmet.ends.1, hmet.ends.2⟩
  · exact Chip.rd_of_on rfl (hmet.faults _ (by simp [muslinFaults]) (bne_iff_ne.mpr (hlatch.trans_ne one_ne_zero)))
  · obtain ⟨hd, hwithin, hends⟩ := hmet.plain hp
    obtain ⟨hregs, -, -⟩ := Chip.unitMeets_regs (st := St.MSL_UNCORRECTABLE) (by decide) (fun h => absurd h (by decide)) hp
      (Chip.within_keeps _ _ _ (·.dsp) hbank (Chip.only_dsp_out _ _ _ rfl))
    rw [← hd] at hregs
    unfold Chip.rd at hcnt hlog ⊢
    rw [hregs]
    exact ⟨hwithin, hcnt, fun hv => (hlog hv).symm, hends.1⟩

theorem muslinWrite_lost {s : State} {i : Instr} {a unit : Nat} {data : List Byte} {net : List (Nat × Bool)}
    (hi : i = .muslinWrite a unit data net ∨ i = .bitSetWrite a unit data net ∨ i = .bitClearWrite a unit data net)
    (ha : s.chip.awake = true) (hr : s.chip.muslinRange a data.length = true) (hd : data ≠ [])
    (hline : devOffset a % 128 + data.length ≤ 128) (hactive : s.chip.groupActive (groupOf (devOffset a)) = true)
    (hword : devOffset a % 8 + data.length ≤ 8) (hlost : (devOffset a / 8, true) ∈ net) :
    Answers s i (fun d => (s.chip.plainOn unit → s.chip.within d [.regs, .dsp, .msl, .sent] ∧
        d.op? unit = (s.chip.op? unit).map (·.ends St.NET_UNCORRECTABLE)) ∧
      (∀ o, s.chip.op? unit = some o → ∃ r, d.op? unit = some r ∧ r.finished = true) ∧
      (s.chip.op? unit = none → (d.rd R.HIF_EVT_PEND_PEND).testBit 0 = true) ∧
      ∀ v, v ≠ unit → d.op? v = s.chip.op? v) := by
  refine Answers.mono (answers_writeMet hi ha hr hd hline hactive (by decide)
    (Chip.within_mono _ _ _ _ (s.chip.linkErrors_within _ _ _) rfl)
    fun mode => Chip.serveWrite_lost mode unit hd hword hlost) fun d hmet => ⟨fun hp => ?_, hmet.ends.1, hmet.pend rfl, hmet.ends.2⟩
  obtain ⟨-, hwithin, hends⟩ := hmet.plain hp
  exact ⟨hwithin, hends.1⟩

/-- R109: a write over a whole poisoned word is performed and clears its poison. -/
theorem muslinWrite_whole {s : State} {a unit off : Nat} {data : List Byte} (ha : s.chip.awake = true)
    (hr : s.chip.muslinRange a data.length = true) (hoff : off = devOffset a) (hd : data ≠ []) (hline : off % 128 + data.length ≤ 128)
    (hactive : s.chip.groupActive (groupOf off) = true) (hserves : s.chip.linesServe off data.length = true)
    (hopen : s.chip.protectedAt off = false) (hlen : data.length = 8) (hword : off % 8 = 0) (hregion : devRegion a = 0) :
    Answers s (.muslinWrite a unit data []) (fun d => s.chip.within d [.muslin, .msl] ∧ off / 8 ∉ d.msl.poisoned ∧
      d.muslin.read off 8 = data ∧ s.chip.muslinKept d off 8) := by
  have hmode : regionMode a = .plain := by
    rw [regionMode, hregion]
    rfl
  have hwhole : off / 8 ∈ wholeIn .plain off data.length := by
    rw [wholeIn, if_pos rfl, wholeWords, List.mem_filter, mem_wordsOf]
    simp only [Bool.and_eq_true, decide_eq_true_iff]
    omega
  have hclean : ∀ w ∈ s.chip.poisonedWords off data.length, w ∈ wholeIn .plain off data.length := by
    intro w hw
    have hcond := (List.mem_filter.mp hw).2
    simp only [Bool.and_eq_true, decide_eq_true_iff] at hcond
    obtain rfl : w = off / 8 := by omega
    exact hwhole
  have hstored := Chip.muslinWrite_stored (mode := .plain) hactive hserves (Chip.protectedIn_line hline hopen) hclean
  have hserve : s.chip.serveWrite .plain off unit data [] = (s.chip.reached (groupOf off)).stored .plain off data := by
    rw [Chip.serveWrite, Chip.bankWrite_clean, hstored, show worse St.OK St.OK = St.OK by decide, Chip.unitMeets_ok]
  have hwithin : s.chip.within ((s.chip.reached (groupOf off)).stored .plain off data) [.muslin, .msl] :=
    Chip.within_step [.muslin, .msl] (Chip.within_mono _ _ _ _ (s.chip.reached_within _) rfl) rfl rfl
  refine ⟨(s.chip.reached (groupOf off)).stored .plain off data, ?_, hwithin, ?_, ?_, fun x hx => ?_⟩
  · have hexec : exec (.muslinWrite a unit data []) s = s.run Parts.request
        (fun c => c.writeCommand (regionMode a) a unit data [] (fun a d => .muslinWrite a unit d [])) := rfl
    subst hoff
    rw [hexec, State.run_awake _ _ _ ha, Chip.writeCommand_single _ _ _ _ hr hd hline hactive, hmode, hserve,
      Chip.within_mono _ _ _ _ hwithin rfl]
  · exact fun hmem => by simpa [hwhole] using (List.mem_filter.mp hmem).2
  · rw [← hlen]
    exact Memory.read_write_self _ _ _
  · exact Memory.get_merge_other _ .plain _ _ _ (by omega)

/-- Settles O37: a write to a writable stretch is performed line by line (`Chip.perLine_written`); at a fault the requesting unit meets
its status (`Chip.Met`). -/
theorem muslinWrites : Obligations.MuslinWrites := by
  unfold Obligations.MuslinWrites
  refine ⟨?performed, ?faults⟩
  case performed =>
    rintro s a unit data ha hr hw P rfl
    refine ⟨?_, ?_, ?_, fun hregion hheard => ?_⟩
    · simp only [← regionMode_apply]
      exact answers_writeCommand (regionMode a) (fun a d => .muslinWrite a unit d []) ha hr hw rfl
    · exact answers_writeCommand .setBits (fun a d => .bitSetWrite a unit d []) ha hr hw rfl
    · exact answers_writeCommand .clearBits (fun a d => .bitClearWrite a unit d []) ha hr hw rfl
    · exact answers_bar2Write hheard (Chip.muslinRange_end hr) hw
  case faults =>
    rintro s a unit _ data ha hr hd rfl hline hactive hserves
    refine ⟨fun i hi => ⟨fun hprot => ?_, fun w hopen hlen hw hword hcount => ?_⟩, fun hopen hlen hword hregion => ?_,
      fun net i hword hlost hi => ?_⟩
    · exact muslinWrite_protected hi ha hr hd hline hactive hserves hprot
    · exact muslinWrite_poisoned hi ha hr hd hline hactive hserves hopen hlen hw hword hcount
    · exact muslinWrite_whole ha hr rfl hd hline hactive hserves hopen hlen hword hregion
    · exact muslinWrite_lost hi ha hr hd hline hactive hword hlost

end Sys2Proof.Machine

/-! # Muslin reads and the host ports -/

namespace Sys2Proof.Machine

/-! ## Reads of readable words -/

/-- The chip once a request of an active group was answered with an emission. -/
def Chip.answering (c : Chip) (off : Nat) (m : Emission) : Chip :=
  { c.reached (groupOf off) with sent := m :: c.sent }

theorem Chip.answering_within (c : Chip) (off : Nat) (m : Emission) : c.within (c.answering off m) [.msl, .sent] := rfl

/-- A read command of a readable stretch is answered line by line (R100). -/
theorem Chip.perLine_answers {c : Chip} {off n : Nat} (request : Chip → Nat → Nat → Nat → Chip) (out : Nat → List Byte → Emission)
    (h : c.readable off n)
    (hreq : ∀ (c : Chip) (off o n : Nat), c.readable off n → request c off o n = c.answering off (out off (c.muslin.read off n))) :
    c.within (c.perLine off n request) [.msl, .sent] ∧ (c.perLine off n request).msl.poisoned = c.msl.poisoned ∧
      (c.perLine off n request).msl.writebacks = c.msl.writebacks ∧
      (c.perLine off n request).sent =
        ((partsOf 128 off n).map (fun p => out p.1 (c.muslin.read p.1 p.2.2))).reverse ++ c.sent := by
  have hlines : ∀ (l : List (Nat × Nat × Nat)) (c : Chip), (∀ p ∈ l, c.readable p.1 p.2.2) →
      c.within (l.foldl (fun (c : Chip) p => request c p.1 p.2.1 p.2.2) c) [.msl, .sent] ∧
      (l.foldl (fun (c : Chip) p => request c p.1 p.2.1 p.2.2) c).msl.poisoned = c.msl.poisoned ∧
      (l.foldl (fun (c : Chip) p => request c p.1 p.2.1 p.2.2) c).msl.writebacks = c.msl.writebacks ∧
      (l.foldl (fun (c : Chip) p => request c p.1 p.2.1 p.2.2) c).sent =
        (l.map (fun p => out p.1 (c.muslin.read p.1 p.2.2))).reverse ++ c.sent := by
    intro l
    induction l with
    | nil => exact fun c _ => ⟨Chip.within_refl _ _, rfl, rfl, rfl⟩
    | cons p l ih =>
      intro c hread
      rw [List.foldl_cons, hreq c p.1 p.2.1 p.2.2 (hread p (by simp))]
      have halike : c.servesAs (c.answering p.1 (out p.1 (c.muslin.read p.1 p.2.2))) := c.reached_servesAs _
      obtain ⟨hwithin, hpoison, hwrite, hsent⟩ := ih (c.answering p.1 (out p.1 (c.muslin.read p.1 p.2.2)))
        fun q hq => Chip.readable_congr halike (fun _ hw => hw) (hread q (by simp [hq]))
      refine ⟨Chip.within_trans _ _ _ _ (c.answering_within _ _) hwithin, hpoison, hwrite, hsent.trans ?_⟩
      rw [List.map_cons, List.reverse_cons, List.append_assoc]
      rfl
  exact hlines _ c fun p hp => by
    obtain ⟨hpos, hle, hend, -⟩ := mem_partsOf (by decide) hp
    exact Chip.readable_sub h hle hpos hend

theorem Chip.findIn_clean (c : Chip) (off n : Nat) : c.findIn off n [] = c := rfl

theorem Chip.serveRead_clean {c : Chip} {off n : Nat} (unit : Nat) (h : c.readable off n) :
    c.serveRead off n unit [] [] = c.answering off ⟨.line, off, 0, c.muslin.read off n⟩ := by
  rw [Chip.serveRead, Chip.findIn_clean, ite_self]
  rw [Chip.linkErrors_clean, Chip.muslinRead_readable h, netStatus_clean]
  rfl

theorem Chip.serveBar2Read_clean {c : Chip} {off n : Nat} (h : c.readable off n) :
    c.serveBar2Read off n [] [] = c.answering off ⟨.bar2, 0, off, c.muslin.read off n⟩ := by
  rw [Chip.serveBar2Read, h.2.2.1, Chip.findIn_clean, Chip.linkErrors_clean]
  dsimp only
  rw [Chip.muslinRead_readable h, lostWords_clean]
  rfl

theorem exec_muslinRead (a n unit : Nat) (found net : List (Nat × Bool)) (s : State) :
    exec (.muslinRead a n unit found net) s = s.run Parts.request (fun c => if c.muslinRange a n then
      c.perLine (devOffset a) n (fun c off o n =>
        c.access off (.muslinRead (a + o) n unit found net) (fun c => c.serveRead off n unit found net)) else c) := rfl

theorem exec_bar2Read (a n : Nat) (found net : List (Nat × Bool)) (s : State) :
    exec (.bar2Read a n found net) s = s.runHost [.regs, .msl, .sent] (fun c => if a + n ≤ muslinSize then
      c.perLine a n (fun c off _ n => c.access off (.bar2Read off n found net) (fun c => c.serveBar2Read off n found net)) else c) := rfl

theorem muslinRead_readable {s : State} {a n unit : Nat} (ha : s.chip.awake = true) (hr : s.chip.muslinRange a n = true)
    (h : s.chip.readable (devOffset a) n) :
    Answers s (.muslinRead a n unit [] []) (fun d => s.chip.within d [.msl, .sent] ∧
      d.msl.poisoned = s.chip.msl.poisoned ∧ d.msl.writebacks = s.chip.msl.writebacks ∧
      d.sent = ((partsOf 128 (devOffset a) n).map (fun p => ⟨.line, p.1, 0, s.chip.muslin.read p.1 p.2.2⟩)).reverse ++ s.chip.sent) := by
  have hall := Chip.perLine_answers
    (fun c off o n => c.access off (.muslinRead (a + o) n unit [] []) (fun c => c.serveRead off n unit [] []))
    (fun off bs => ⟨.line, off, 0, bs⟩) h fun c off o n hread => by
      rw [Chip.access_active hread.2.1, Chip.serveRead_clean unit hread]
  refine ⟨_, ?_, hall⟩
  rw [exec_muslinRead, State.run_awake _ _ _ ha, if_pos hr, Chip.within_mono _ _ _ Parts.request hall.1 rfl]

theorem bar2Read_readable {s : State} {a n : Nat} (hh : s.chip.heard = true) (hr : a + n ≤ muslinSize) (h : s.chip.readable a n) :
    Answers s (.bar2Read a n [] []) (fun d => s.chip.within d [.msl, .sent] ∧
      d.sent = ((partsOf 128 a n).map (fun p => ⟨.bar2, 0, p.1, s.chip.muslin.read p.1 p.2.2⟩)).reverse ++ s.chip.sent) := by
  obtain ⟨hwithin, -, -, hsent⟩ := Chip.perLine_answers
    (fun c off _ n => c.access off (.bar2Read off n [] []) (fun c => c.serveBar2Read off n [] []))
    (fun off bs => ⟨.bar2, 0, off, bs⟩) h fun c off o n hread => by
      rw [Chip.access_active hread.2.1, Chip.serveBar2Read_clean hread]
  refine ⟨_, ?_, hwithin, hsent⟩
  rw [exec_bar2Read, State.runHost_heard _ _ _ hh, if_pos hr, Chip.within_mono _ _ _ [.regs, .msl, .sent] hwithin rfl]

/-- A read of a BAR2 line that is switched off or isolated is answered with a Completer Abort (R274). -/
theorem bar2Read_refused {s : State} {a n : Nat} (hh : s.chip.heard = true) (hr : a + n ≤ muslinSize) (hn : 0 < n)
    (hline : a % 128 + n ≤ 128) (hphase : (s.chip.group (groupOf a)).phase = .active ∨ (s.chip.group (groupOf a)).phase = .off)
    (hserves : s.chip.linesServe a n = false) (found net : List (Nat × Bool)) :
    Answers s (.bar2Read a n found net) (fun d => s.chip.within d [.regs, .sent] ∧ d.rd R.HIF_STATUS_BAD_ACCESS = 1 ∧
      s.chip.regsKept d [(R.HIF_STATUS_BAD_ACCESS, 0)] ∧ d.sent = ⟨.bar2, 2, a, []⟩ :: s.chip.sent) := by
  have hholds : s.chip.groupHolds (groupOf a) = false := by
    unfold Chip.groupHolds
    obtain h | h := hphase <;> rw [h]
  refine ⟨(s.chip.latch R.HIF_STATUS_BAD_ACCESS).emit .bar2 2 a [], ?_, rfl, Chip.rd_wr_self _ _ _ _, fun f i hf => ?_, rfl⟩
  · rw [exec_bar2Read, State.runHost_heard _ _ _ hh, if_pos hr, Chip.perLine_single _ hn hline, Chip.access, hholds,
      Bool.false_and, if_neg Bool.false_ne_true, Chip.serveBar2Read, hserves]
    rfl
  · have hf : f.apart i R.HIF_STATUS_BAD_ACCESS 0 = true := by simpa using hf
    exact Chip.rd_wr_apart _ _ _ _ _ _ (by rwa [Field.apart, Bool.or_comm])

/-! ## Reads that find an error -/

/-- A read within a line of a readable stretch is one request, served at once. -/
theorem muslinRead_single {s : State} {a n unit : Nat} (ha : s.chip.awake = true) (hr : s.chip.muslinRange a n = true)
    (h : s.chip.readable (devOffset a) n) (hline : devOffset a % 128 + n ≤ 128) (hn : 0 < n) (found net : List (Nat × Bool)) :
    exec (.muslinRead a n unit found net) s =
      .next { s with chip := (s.chip.serveRead (devOffset a) n unit found net).only Parts.request s.chip } := by
  rw [exec_muslinRead, State.run_awake _ _ _ ha, if_pos hr, Chip.perLine_single _ hn hline, Chip.access_active h.2.1]

theorem Chip.findIn_word (c : Chip) {off n w : Nat} (e : Bool) (hw : w ∈ wordsOf off n) : c.findIn off n [(w, e)] = c.applyFound (w, e) := by
  rw [Chip.findIn, List.filter_cons_of_pos (by simpa using hw)]
  rfl

/-- No word of a readable stretch is poisoned. -/
theorem Chip.not_poisoned_of_readable {c : Chip} {off n w : Nat} (h : c.readable off n) (hw : w ∈ wordsOf off n) :
    w ∉ c.msl.poisoned := fun hmem => by
  obtain ⟨-, hle, hlt⟩ := mem_wordsOf.mp hw
  exact Chip.poisonedIn_none.mp h.2.2.2 w hmem ⟨hle, hlt⟩

/-- A register, and what waits to be written back, decides no read. -/
theorem Chip.readable_count {c : Chip} {off n : Nat} (h : c.readable off n) (f : Field) (i k : Nat) (l : List Nat) :
    ({ c.count f i k with msl := { c.msl with writebacks := l } } : Chip).readable off n := h

/-- R107: a corrected error is counted and its word queued; the data are the bytes of Muslin. -/
theorem Chip.serveRead_corrected {c : Chip} {off n w : Nat} (unit : Nat) (h : c.readable off n) (hw : w ∈ wordsOf off n) :
    c.serveRead off n unit [(w, false)] [] = (c.muslinCe w).answering off ⟨.line, off, 0, c.muslin.read off n⟩ := by
  have hfound : c.findIn off n [(w, false)] = c.muslinCe w := by
    rw [Chip.findIn_word c false hw, Chip.applyFound, if_neg Bool.false_ne_true]
    simp [Chip.not_poisoned_of_readable h hw]
  rw [Chip.serveRead, h.2.2.1, if_pos rfl, hfound]
  rw [Chip.linkErrors_clean, Chip.muslinRead_readable (c := c.muslinCe w) (Chip.readable_count h _ _ _ _), netStatus_clean]
  rfl

/-- The chip once the check of a word found an error it cannot correct. -/
def Chip.poison (c : Chip) (w : Nat) : Chip := { c with msl := { c.msl with poisoned := insertNat c.msl.poisoned w } }

/-- The words that a predicate picks of a list with one more of them: the new one, where it picked none before. -/
theorem filter_insertNat {p : Nat → Bool} {k : Nat} (hk : p k = true) : ∀ {l : List Nat}, l.filter p = [] →
    (insertNat l k).filter p = [k]
  | [], _ => by simp [insertNat, hk]
  | a :: l, h => by
    have ha : p a = false := by
      rw [List.filter_eq_nil_iff] at h
      simpa using h a (by simp)
    have hl : l.filter p = [] := by simpa [ha] using h
    unfold insertNat
    split
    · simp [hk, ha, hl]
    · split
      · next heq => rw [heq, ha] at hk; cases hk
      · simp [ha, filter_insertNat hk hl]

/-- R108: an uncorrectable word is logged with source 0, and its data leave marked poisoned. -/
theorem Chip.serveRead_poisoned {c : Chip} {off n w : Nat} (unit : Nat) (h : c.readable off n) (hw : w ∈ wordsOf off n) :
    c.serveRead off n unit [(w, true)] [] = (((((c.poison w).reached (groupOf off)).muslinUe w 0).emit .line off 1
      (c.muslin.read off n))).unitMeets unit St.MSL_UNCORRECTABLE := by
  obtain ⟨-, hle, hlt⟩ := mem_wordsOf.mp hw
  obtain ⟨-, hactive, hserves, hclean⟩ := h
  have hfound : c.findIn off n [(w, true)] = c.poison w := Chip.findIn_word c true hw
  have ht : (c.poison w).touchGroup (groupOf off) = (c.poison w).reached (groupOf off) := Chip.touchGroup_active (c := c.poison w) hactive
  have hs : ((c.poison w).reached (groupOf off)).linesServe off n = true := by
    rw [Chip.linesServe_congr ((c.poison w).reached_servesAs _)]
    exact hserves
  have hp : ((c.poison w).reached (groupOf off)).poisonedWords off n = [w] :=
    filter_insertNat (by simp [hle, hlt]) (Chip.poisonedWords_nil hclean)
  have hread : (c.poison w).muslinRead off n = (((c.poison w).reached (groupOf off)).muslinUe w 0, St.MSL_UNCORRECTABLE,
      c.muslin.read off n) := by
    rw [Chip.muslinRead, ht]
    rw [hs, hp]
    simp only [Bool.not_true, Bool.false_eq_true, if_false, List.foldl_cons, List.foldl_nil]
    rfl
  rw [Chip.serveRead, hserves, if_pos rfl, hfound]
  rw [Chip.linkErrors_clean, hread, netStatus_clean]
  rfl

/-- R20: a word that the network lost leaves the bank alone; its data leave marked poisoned. -/
theorem Chip.serveRead_lost {c : Chip} {off n w : Nat} (unit : Nat) (h : c.readable off n) (hw : w ∈ wordsOf off n) :
    c.serveRead off n unit [] [(w, true)] =
      ((c.reached (groupOf off)).emit .line off 1 (c.muslin.read off n)).unitMeets unit St.NET_UNCORRECTABLE := by
  have hlinks : c.linkErrors off n [(w, true)] = c := by simp [Chip.linkErrors]
  have hmem : w ∈ lostWords off n [(w, true)] := by simp [lostWords, hw]
  have hne : (lostWords off n [(w, true)]).isEmpty = false := List.isEmpty_eq_false_iff_exists_mem.mpr ⟨_, hmem⟩
  rw [Chip.serveRead, Chip.findIn_clean, ite_self]
  rw [hlinks, Chip.muslinRead_readable h, netStatus, hne, if_neg Bool.false_ne_true,
    show worse St.OK St.NET_UNCORRECTABLE = St.NET_UNCORRECTABLE by decide]
  rfl

theorem Field.apart_comm (f g : Field) (i j : Nat) : f.apart i g j = g.apart j f i := Bool.or_comm _ _

theorem pos_of_word {off n w : Nat} (hw : w ∈ wordsOf off n) : 0 < n := (mem_wordsOf.mp hw).1

theorem muslinRead_corrected {s : State} {a n unit w : Nat} (ha : s.chip.awake = true) (hr : s.chip.muslinRange a n = true)
    (h : s.chip.readable (devOffset a) n) (hline : devOffset a % 128 + n ≤ 128) (hw : w ∈ wordsOf (devOffset a) n) :
    Answers s (.muslinRead a n unit [(w, false)] []) (fun d => s.chip.within d [.regs, .msl, .sent] ∧
      d.rd R.MSL_ECC_CE_CNT_COUNT = (s.chip.rd R.MSL_ECC_CE_CNT_COUNT + 1) % 2 ^ 32 ∧
      s.chip.regsKept d [(R.MSL_ECC_CE_CNT_COUNT, 0)] ∧ d.msl.poisoned = s.chip.msl.poisoned ∧
      d.msl.writebacks = insertNat s.chip.msl.writebacks w ∧
      d.sent = ⟨.line, devOffset a, 0, s.chip.muslin.read (devOffset a) n⟩ :: s.chip.sent) := by
  have hcounted : s.chip.within (s.chip.muslinCe w) [.regs, .msl] := rfl
  have hwithin : s.chip.within ((s.chip.muslinCe w).answering (devOffset a)
      ⟨.line, devOffset a, 0, s.chip.muslin.read (devOffset a) n⟩) [.regs, .msl, .sent] :=
    Chip.within_step [.msl, .sent] (Chip.within_mono _ _ _ _ hcounted rfl) (Chip.answering_within _ _ _) rfl
  refine ⟨_, ?_, hwithin, Chip.rd_wr_self _ _ _ _, fun f i hf => ?_, rfl, rfl, rfl⟩
  · rw [muslinRead_single ha hr h hline (pos_of_word hw), Chip.serveRead_corrected unit h hw,
      Chip.within_mono _ _ _ Parts.request hwithin rfl]
  · have hf : f.apart i R.MSL_ECC_CE_CNT_COUNT 0 = true := by simpa using hf
    exact Chip.rd_wr_apart _ _ _ _ _ _ (by rwa [Field.apart_comm])

/-- Whatever a read found in its words, the command answers what its unit met. -/
theorem answers_readMet {s : State} {a n unit st w : Nat} {found net : List (Nat × Bool)} {b : Chip} (ha : s.chip.awake = true)
    (hr : s.chip.muslinRange a n = true) (h : s.chip.readable (devOffset a) n) (hline : devOffset a % 128 + n ≤ 128)
    (hw : w ∈ wordsOf (devOffset a) n) (hst : st ≠ St.OK) (hb : s.chip.within b [.regs, .msl, .sent])
    (hserve : s.chip.serveRead (devOffset a) n unit found net = b.unitMeets unit st) :
    Answers s (.muslinRead a n unit found net) (fun d => s.chip.Met b d unit st) := by
  refine ⟨_, muslinRead_single ha hr h hline (pos_of_word hw) found net, ?_⟩
  rw [hserve]
  exact Chip.met_only hst hb rfl

/-- What a read of a poisoned word leaves at the bank and sends. -/
def Chip.poisonRead (c : Chip) (off n w : Nat) : Chip :=
  (((c.poison w).reached (groupOf off)).muslinUe w 0).emit .line off 1 (c.muslin.read off n)

theorem Chip.poisonRead_within (c : Chip) (off n w : Nat) : c.within (c.poisonRead off n w) [.regs, .msl, .sent] := by
  have hpoison : c.within (c.poison w) [.msl] := rfl
  have hreached : c.within ((c.poison w).reached (groupOf off)) [.regs, .msl, .sent] :=
    Chip.within_step [.msl] (Chip.within_mono _ _ _ _ hpoison rfl) (Chip.reached_within _ _) rfl
  exact Chip.within_step [.sent] (Chip.within_step [.regs, .sent] hreached (Chip.muslinUe_within _ w 0) rfl) rfl rfl

theorem muslinRead_poisoned {s : State} {a n unit w : Nat} (ha : s.chip.awake = true) (hr : s.chip.muslinRange a n = true)
    (h : s.chip.readable (devOffset a) n) (hline : devOffset a % 128 + n ≤ 128) (hw : w ∈ wordsOf (devOffset a) n)
    (hplain : s.chip.plainOn unit) :
    Answers s (.muslinRead a n unit [(w, true)] []) (fun d => s.chip.within d [.regs, .dsp, .msl, .sent] ∧
      d.rd R.MSL_ECC_UE_CNT_COUNT = (s.chip.rd R.MSL_ECC_UE_CNT_COUNT + 1) % 2 ^ 32 ∧ d.rd R.MSL_STATUS_UE_LATCH = 1 ∧
      d.rd R.MSL_ERR_LOG_VALID = 1 ∧
      (s.chip.rd R.MSL_ERR_LOG_VALID = 0 → d.rd R.MSL_ERR_LOG_WORD = w ∧ d.rd R.MSL_ERR_LOG_SOURCE = 0) ∧
      (s.chip.rd R.MSL_ERR_LOG_VALID = 1 → d.rd R.MSL_ERR_LOG_WORD = s.chip.rd R.MSL_ERR_LOG_WORD) ∧
      d.msl.poisoned = insertNat s.chip.msl.poisoned w ∧
      d.sent.head? = some ⟨.line, devOffset a, 1, s.chip.muslin.read (devOffset a) n⟩ ∧
      d.op? unit = (s.chip.op? unit).map (·.ends St.MSL_UNCORRECTABLE) ∧ ∀ v, v ≠ unit → d.op? v = s.chip.op? v) := by
  have hsmall : w < 2 ^ 25 := by
    have hend := Chip.muslinRange_end hr
    obtain ⟨-, -, hlt⟩ := mem_wordsOf.mp hw
    simp only [muslinSize] at hend
    omega
  refine Answers.mono (answers_readMet ha hr h hline hw (by decide) (s.chip.poisonRead_within (devOffset a) n w)
    (Chip.serveRead_poisoned unit h hw)) fun d hmet => ?_
  obtain ⟨hd, hwithin, hends⟩ := hmet.plain hplain
  obtain ⟨hregs, hmsl, hsent⟩ := Chip.unitMeets_regs (st := St.MSL_UNCORRECTABLE) (by decide) (fun h => absurd h (by decide)) hplain
    (Chip.within_keeps _ _ _ (·.dsp) (s.chip.poisonRead_within (devOffset a) n w) (Chip.only_dsp_out _ _ _ rfl))
  rw [← hd] at hregs hmsl hsent
  obtain ⟨hcount, hlatch, hvalid, hlog, hkept⟩ :=
    Chip.muslinUe_shows ((s.chip.poison w).reached (groupOf (devOffset a))) (w := w) (src := 0) hsmall (by decide)
  have hpoisoned : d.msl.poisoned = insertNat s.chip.msl.poisoned w := by
    rw [hmsl]
    exact congrArg Msl.poisoned (Chip.muslinUe_msl _ _ _)
  unfold Chip.rd at hcount hlatch hvalid hlog hkept ⊢
  rw [hregs]
  exact ⟨hwithin, hcount, hlatch, hvalid, hlog, hkept, hpoisoned, by rw [hsent]; rfl, hends⟩

theorem Chip.answering_bank_within (c : Chip) (off : Nat) (m : Emission) : c.within (c.answering off m) [.regs, .msl, .sent] :=
  Chip.within_mono _ _ _ _ (c.answering_within off m) rfl

theorem muslinRead_lost {s : State} {a n unit w : Nat} (ha : s.chip.awake = true) (hr : s.chip.muslinRange a n = true)
    (h : s.chip.readable (devOffset a) n) (hline : devOffset a % 128 + n ≤ 128) (hw : w ∈ wordsOf (devOffset a) n)
    (hplain : s.chip.plainOn unit) :
    Answers s (.muslinRead a n unit [] [(w, true)]) (fun d => s.chip.within d [.regs, .dsp, .msl, .sent] ∧
      d.msl.poisoned = s.chip.msl.poisoned ∧
      (s.chip.op? unit ≠ none →
        d.sent = ⟨.line, devOffset a, 1, s.chip.muslin.read (devOffset a) n⟩ :: s.chip.sent ∧ ∀ f i, d.rd f i = s.chip.rd f i) ∧
      (s.chip.op? unit = none → (d.rd R.HIF_EVT_PEND_PEND).testBit 0 = true) ∧
      d.op? unit = (s.chip.op? unit).map (·.ends St.NET_UNCORRECTABLE) ∧ ∀ v, v ≠ unit → d.op? v = s.chip.op? v) := by
  refine Answers.mono (answers_readMet ha hr h hline hw (by decide) (Chip.answering_bank_within _ _ _)
    (Chip.serveRead_lost unit h hw)) fun d hmet => ?_
  obtain ⟨hd, hwithin, hends⟩ := hmet.plain hplain
  refine ⟨hwithin, ?_, fun hop => ?_, hmet.pend rfl, hends⟩
  · have hmeets := (Chip.unitMeets_plainOn (c := s.chip.answering (devOffset a)
      ⟨.line, devOffset a, 1, s.chip.muslin.read (devOffset a) n⟩) (st := St.NET_UNCORRECTABLE) (by decide) hplain).1
    have hmsl := Chip.within_keeps _ _ _ (·.msl) hmeets (Chip.only_msl_out _ _ _ rfl)
    rw [hd]
    exact (congrArg Msl.poisoned hmsl).trans rfl
  · obtain ⟨hregs, -, hsent⟩ := Chip.unitMeets_regs (c := s.chip) (b := s.chip.answering (devOffset a)
      ⟨.line, devOffset a, 1, s.chip.muslin.read (devOffset a) n⟩) (st := St.NET_UNCORRECTABLE) (by decide) (fun _ => hop) hplain rfl
    have hd' : d = (s.chip.answering (devOffset a)
      ⟨.line, devOffset a, 1, s.chip.muslin.read (devOffset a) n⟩).unitMeets unit St.NET_UNCORRECTABLE := hd
    rw [← hd'] at hregs hsent
    exact ⟨hsent, fun f i => by rw [Chip.rd, hregs]; rfl⟩

/-- Whatever its operation is, a unit whose read finds or loses a word ends it. -/
theorem muslinRead_ends {s : State} {a n unit w : Nat} {o : OpRun} {found net : List (Nat × Bool)} (ha : s.chip.awake = true)
    (hr : s.chip.muslinRange a n = true) (h : s.chip.readable (devOffset a) n) (hline : devOffset a % 128 + n ≤ 128)
    (hw : w ∈ wordsOf (devOffset a) n) (ho : s.chip.op? unit = some o)
    (hcase : (found, net) ∈ [([(w, true)], []), ([], [(w, true)])]) :
    Answers s (.muslinRead a n unit found net) (fun d => (∃ r, d.op? unit = some r ∧ r.finished = true) ∧
      ∀ v, v ≠ unit → d.op? v = s.chip.op? v) := by
  simp only [List.mem_cons, List.not_mem_nil, or_false, Prod.mk.injEq] at hcase
  obtain ⟨rfl, rfl⟩ | ⟨rfl, rfl⟩ := hcase
  · exact Answers.mono (answers_readMet ha hr h hline hw (by decide) (s.chip.poisonRead_within (devOffset a) n w)
      (Chip.serveRead_poisoned unit h hw)) fun d hmet => ⟨hmet.ends.1 o ho, hmet.ends.2⟩
  · exact Answers.mono (answers_readMet ha hr h hline hw (by decide) (Chip.answering_bank_within _ _ _)
      (Chip.serveRead_lost unit h hw)) fun d hmet => ⟨hmet.ends.1 o ho, hmet.ends.2⟩

/-! ## Atomic updates by the host port (R105) -/

theorem leNat_lt : ∀ bs : List Byte, leNat bs < 2 ^ (8 * bs.length)
  | [] => by simp [leNat]
  | b :: bs => by
    have hb := b.isLt
    have ih := leNat_lt bs
    rw [leNat, List.length_cons, show 8 * (bs.length + 1) = 8 + 8 * bs.length by omega, Nat.pow_add]
    omega

/-- Bit `j` of a little-endian value is bit `j % 8` of byte `j / 8`. -/
theorem testBit_leNat : ∀ (bs : List Byte) (j : Nat), (leNat bs).testBit j = (bs.getD (j / 8) 0).getLsbD (j % 8)
  | [], j => by simp [leNat]
  | b :: bs, j => by
    rw [leNat, show 256 = 2 ^ 8 by rfl, Nat.add_comm, Nat.testBit_two_pow_mul_add _ b.isLt]
    by_cases hj : j < 8
    · rw [if_pos hj, Nat.div_eq_of_lt hj, Nat.mod_eq_of_lt hj]
      rfl
    · obtain ⟨k, rfl⟩ : ∃ k, j = k + 8 := ⟨j - 8, by omega⟩
      rw [if_neg hj, Nat.add_sub_cancel, testBit_leNat bs k, Nat.add_div_right _ (by decide), Nat.add_mod_right]
      rfl

theorem leBytes_length : ∀ n v : Nat, (leBytes n v).length = n
  | 0, _ => rfl
  | n + 1, v => by rw [leBytes, List.length_cons, leBytes_length n]

theorem getElem?_leBytes : ∀ {n k : Nat} (v : Nat), k < n → (leBytes n v)[k]? = some (BitVec.ofNat 8 (v / 256 ^ k))
  | n + 1, 0, v, _ => by simp [leBytes]
  | n + 1, k + 1, v, h => by
    rw [leBytes, List.getElem?_cons_succ, getElem?_leBytes (v / 256) (by omega), Nat.div_div_eq_div_mul, Nat.pow_succ']

/-- A word whose bytes took those of `v` in a mode takes the bits of `v` in that mode. -/
theorem testBit_merged {m q : Memory} {mode : WriteMode} {off v j : Nat} (hj : j < 32)
    (h : ∀ k b, (leBytes 4 v)[k]? = some b → q.get (off + k) = mode.apply (m.get (off + k)) b) :
    (leNat (q.read off 4)).testBit j =
      (mode.apply (m.get (off + j / 8)) (BitVec.ofNat 8 (v / 256 ^ (j / 8)))).getLsbD (j % 8) := by
  have hk : j / 8 < 4 := by omega
  rw [testBit_leNat, ← h _ _ (getElem?_leBytes v hk)]
  exact congrArg (·.getLsbD (j % 8)) (Memory.getD_read q 4 off (j / 8) hk)

theorem testBit_word {m : Memory} {off j : Nat} (hj : j < 32) :
    (leNat (m.read off 4)).testBit j = (m.get (off + j / 8)).getLsbD (j % 8) := by
  rw [testBit_leNat]
  exact congrArg (·.getLsbD (j % 8)) (Memory.getD_read m 4 off (j / 8) (by omega))

theorem getLsbD_byte {v j : Nat} : (BitVec.ofNat 8 (v / 256 ^ (j / 8))).getLsbD (j % 8) = v.testBit j := by
  have hj : j % 8 < 8 := Nat.mod_lt _ (by decide)
  rw [BitVec.getLsbD_ofNat, decide_eq_true hj, Bool.true_and, show 256 = 2 ^ 8 by rfl, ← Nat.pow_mul, Nat.testBit_div_two_pow]
  congr 1
  omega

theorem leNat_word_lt (m : Memory) (off : Nat) : leNat (m.read off 4) < 2 ^ 32 := by
  have h := leNat_lt (m.read off 4)
  rwa [Memory.read_length] at h

/-- Two words that agree in their 32 bits are one. -/
theorem word_ext {x y : Nat} (hx : x < 2 ^ 32) (hy : y < 2 ^ 32) (h : ∀ j, j < 32 → x.testBit j = y.testBit j) : x = y := by
  refine Nat.eq_of_testBit_eq fun j => ?_
  by_cases hj : j < 32
  · exact h j hj
  · have hle : 2 ^ 32 ≤ 2 ^ j := Nat.pow_le_pow_right (by decide) (by omega)
    rw [Nat.testBit_lt_two_pow (by omega), Nat.testBit_lt_two_pow (by omega)]

theorem leNat_setBits {m q : Memory} {off : Nat} (mask : Word)
    (h : ∀ k b, (leBytes 4 mask.toNat)[k]? = some b → q.get (off + k) = WriteMode.setBits.apply (m.get (off + k)) b) :
    leNat (q.read off 4) = leNat (m.read off 4) ||| mask.toNat := by
  refine word_ext (leNat_word_lt _ _) (Nat.or_lt_two_pow (leNat_word_lt _ _) mask.isLt) fun j hj => ?_
  rw [testBit_merged hj h, Nat.testBit_or, testBit_word hj, WriteMode.apply, BitVec.getLsbD_or, getLsbD_byte]

theorem leNat_clearBits {m q : Memory} {off : Nat} (mask : Word)
    (h : ∀ k b, (leBytes 4 mask.toNat)[k]? = some b → q.get (off + k) = WriteMode.clearBits.apply (m.get (off + k)) b) :
    leNat (q.read off 4) = leNat (m.read off 4) &&& (~~~ mask).toNat := by
  refine word_ext (leNat_word_lt _ _) (Nat.and_lt_two_pow _ (~~~ mask).isLt) fun j hj => ?_
  have hbyte : j % 8 < 8 := Nat.mod_lt _ (by decide)
  rw [testBit_merged hj h, Nat.testBit_and, testBit_word hj, WriteMode.apply, BitVec.getLsbD_and, BitVec.getLsbD_not,
    getLsbD_byte]
  simp only [BitVec.testBit_toNat, BitVec.getLsbD_not, hbyte, hj]

/-- An atomic update that the network does not lose: the word changes in its mode, and OLD holds what it held. -/
theorem Chip.atomic_clean {c : Chip} {word : Nat} (mode : WriteMode) (mask : Word) (h : c.writable (word * 4) 4) :
    ∃ d, c.atomic mode mask .clean word = d.wr R.MSL_HATOM_OLD_VALUE (leNat (c.muslin.read (word * 4) 4)) ∧
      c.written d mode (word * 4) (leBytes 4 mask.toNat) := by
  refine ⟨c.serveWrite mode (word * 4) 31 (leBytes 4 mask.toNat) [], ?_, ?_⟩
  · have hw : word * 4 / 8 ∈ wordsOf (word * 4) 4 := mem_wordsOf.mpr ⟨by decide, Nat.le_refl _, by omega⟩
    rw [Chip.atomic]
    have hpoison : c.msl.poisoned.contains (word * 4 / 8) = false := by
      simpa using Chip.not_poisoned_of_readable h.1 hw
    rw [hpoison]
    rfl
  · exact Chip.serveWrite_written mode 31 (by rwa [leBytes_length])

/-- What an atomic update that the network does not lose answers (R105). -/
theorem answers_atomic {s : State} {i : Instr} {mode : WriteMode} {mask : Word} {off : Nat} (hh : s.chip.heard = true)
    (hoff : off = s.chip.rd R.MSL_HATOM_ADDR_WORD * 4) (hw : s.chip.writable off 4)
    (he : exec i s = s.runHost Parts.request (fun c =>
      c.access (c.hatomWord * 4) i (fun c => c.atomic mode mask .clean c.hatomWord) c.hatomWord)) :
    Answers s i (fun d => s.chip.within d [.regs, .muslin, .msl] ∧
      (∀ k b, (leBytes 4 mask.toNat)[k]? = some b → d.muslin.get (off + k) = mode.apply (s.chip.muslin.get (off + k)) b) ∧
      d.rd R.MSL_HATOM_OLD_VALUE = leNat (s.chip.muslin.read off 4) ∧
      s.chip.regsKept d [(R.MSL_HATOM_OLD_VALUE, 0)] ∧ s.chip.muslinKept d off 4) := by
  have hword : s.chip.hatomWord * 4 = off := hoff.symm
  obtain ⟨b, hatomic, hwithin, ⟨hregs, -, -⟩, -, hbytes, hkept⟩ := Chip.atomic_clean (word := s.chip.hatomWord) mode mask
    (by rwa [hword])
  rw [hword] at hatomic hbytes hkept
  rw [leBytes_length] at hkept
  have hall : s.chip.within (b.wr R.MSL_HATOM_OLD_VALUE (leNat (s.chip.muslin.read off 4))) [.regs, .muslin, .msl] :=
    Chip.within_step [.regs] (Chip.within_mono _ _ _ _ hwithin rfl) rfl rfl
  refine ⟨_, ?_, hall, hbytes, ?_, fun f i hf => ?_, hkept⟩
  · rw [he, State.runHost_heard _ _ _ hh, hword, Chip.access_active hw.1.2.1, hatomic, Chip.within_mono _ _ _ Parts.request hall rfl]
  · rw [Chip.rd_wr_self]
    exact Nat.mod_eq_of_lt (leNat_word_lt _ _)
  · have hf : f.apart i R.MSL_HATOM_OLD_VALUE 0 = true := by simpa using hf
    rw [Chip.rd_wr_apart _ _ _ _ _ _ (by rwa [Field.apart_comm]), Chip.rd, hregs]
    rfl

/-- An atomic update that the network loses changes nothing, and leaves the word's value in OLD (R20, R105). -/
theorem answers_atomicLost {s : State} {i : Instr} {mode : WriteMode} {mask : Word} {off : Nat} (hh : s.chip.heard = true)
    (hoff : off = s.chip.rd R.MSL_HATOM_ADDR_WORD * 4) (hw : s.chip.writable off 4)
    (he : exec i s = s.runHost Parts.request (fun c =>
      c.access (c.hatomWord * 4) i (fun c => c.atomic mode mask .uncorrectable c.hatomWord) c.hatomWord)) :
    Answers s i (fun d => s.chip.within d Parts.request ∧ d.rd R.MSL_HATOM_OLD_VALUE = leNat (s.chip.muslin.read off 4) ∧
      (s.chip.op? 31 = none → s.chip.within d [.regs, .msl, .sent])) := by
  have hword : s.chip.hatomWord * 4 = off := hoff.symm
  have hlost : s.chip.serveWrite mode off 31 (leBytes 4 mask.toNat) [(off / 8, true)] =
      (s.chip.linkErrors off (leBytes 4 mask.toNat).length [(off / 8, true)]).unitMeets 31 St.NET_UNCORRECTABLE :=
    Chip.serveWrite_lost mode 31 (by simp [leBytes]) (by rw [leBytes_length]; omega) (by simp)
  have hatomic : s.chip.atomic mode mask .uncorrectable s.chip.hatomWord =
      ((s.chip.linkErrors off (leBytes 4 mask.toNat).length [(off / 8, true)]).unitMeets 31 St.NET_UNCORRECTABLE).wr
        R.MSL_HATOM_OLD_VALUE (leNat (s.chip.muslin.read off 4)) := by
    rw [Chip.atomic, hword]
    rw [wordFinding, hlost, show (EccFinding.uncorrectable != .uncorrectable) = false by decide, Bool.and_false,
      if_neg Bool.false_ne_true]
    rfl
  refine answers_runHost s i Parts.request _ _ hh he ?_
  rw [hword, Chip.access_active hw.1.2.1, hatomic]
  refine ⟨?_, fun hnone => ?_⟩
  · rw [Chip.rd, Chip.only_regs_in _ _ _ rfl]
    exact (Chip.rd_wr_self _ _ _ _).trans (Nat.mod_eq_of_lt (leNat_word_lt _ _))
  · have hraise : s.chip.within ((s.chip.linkErrors off (leBytes 4 mask.toNat).length [(off / 8, true)]).unitMeets 31
        St.NET_UNCORRECTABLE) [.regs, .msl, .sent] := by
      rw [Chip.unitMeets_none (c := s.chip.linkErrors _ _ _) hnone, if_pos rfl]
      exact Chip.within_step [.regs, .sent] (Chip.within_mono _ _ _ _ (s.chip.linkErrors_within _ _ _) rfl) (Chip.raise_within _ 0) rfl
    have hall := Chip.within_step [.regs] hraise (Chip.wr_within _ R.MSL_HATOM_OLD_VALUE (leNat (s.chip.muslin.read off 4)) 0) rfl
    rwa [Chip.within_mono _ _ _ Parts.request hall rfl]

theorem exec_hatomSet (mask : Word) (net : EccFinding) (s : State) : exec (.hatomSet mask net) s =
    s.runHost Parts.request (fun c =>
      c.access (c.hatomWord * 4) (.hatomSet mask net) (fun c => c.atomic .setBits mask net c.hatomWord) c.hatomWord) := rfl

theorem exec_hatomClr (mask : Word) (net : EccFinding) (s : State) : exec (.hatomClr mask net) s =
    s.runHost Parts.request (fun c =>
      c.access (c.hatomWord * 4) (.hatomClr mask net) (fun c => c.atomic .clearBits mask net c.hatomWord) c.hatomWord) := rfl

/-- Settles O36: a readable stretch is answered line by line (`Chip.perLine_answers`); a word found bad or lost is met by the unit
(`Chip.Met`); an atomic update is one write request (`Chip.atomic_clean`). -/
theorem muslinReadsAndPorts : Obligations.MuslinReadsAndPorts := by
  unfold Obligations.MuslinReadsAndPorts
  refine ⟨?clean, ?found, ?atomic, ?bar2, ?refused⟩
  case clean => exact fun s a n unit ha hr h => muslinRead_readable ha hr h
  case found =>
    intro s a n unit w ha hr h hline hw
    refine ⟨muslinRead_corrected ha hr h hline hw, fun hplain => ⟨?_, ?_⟩, fun o found net ho hcase => ?_⟩
    · exact muslinRead_poisoned ha hr h hline hw hplain
    · exact muslinRead_lost ha hr h hline hw hplain
    · exact muslinRead_ends ha hr h hline hw ho hcase
  case atomic =>
    rintro s mask off _ hh hoff hw rfl
    refine ⟨?_, ?_, fun i hi => ?_⟩
    · refine Answers.mono (answers_atomic hh hoff hw (exec_hatomSet mask .clean s)) ?_
      rintro d ⟨hwithin, hbytes, hrest⟩
      exact ⟨hwithin, leNat_setBits mask hbytes, hrest⟩
    · refine Answers.mono (answers_atomic hh hoff hw (exec_hatomClr mask .clean s)) ?_
      rintro d ⟨hwithin, hbytes, hrest⟩
      exact ⟨hwithin, leNat_clearBits mask hbytes, hrest⟩
    · obtain rfl | rfl := hi
      · exact answers_atomicLost hh hoff hw (exec_hatomSet mask .uncorrectable s)
      · exact answers_atomicLost hh hoff hw (exec_hatomClr mask .uncorrectable s)
  case bar2 => exact fun s a n hh hr h => bar2Read_readable hh hr h
  case refused =>
    exact fun s a n hh hr hn hline hphase hserves found net => bar2Read_refused hh hr hn hline hphase hserves found net

end Sys2Proof.Machine

/-! # What the blocks do at a commit instant leaves the parameters alone (R33) -/

namespace Sys2Proof.Machine

/-- The parameters: indices below 0x6000 (R491). -/
def parameter (j x : Nat) : Prop := j < 0x6000 ∧ x < 256

/-- The parameters but STATE_RESET of the lanes, which reads false again once it took effect (R450). -/
def settledParameter (j x : Nat) : Prop := parameter j x ∧ ¬ (0x4D00 ≤ j ∧ j < 0x4E00 ∧ x = 0x14)

/-- `d` has the sessions, the journal and the clock of `c`, and its entries that `P` picks. -/
def Chip.leaves (P : Nat → Nat → Prop) (c d : Chip) : Prop :=
  d.odx = c.odx ∧ d.tku.clock = c.tku.clock ∧ ∀ j x, P j x → d.entry j x = c.entry j x

section
variable {P : Nat → Nat → Prop}

theorem Chip.leaves_refl (c : Chip) : c.leaves P c := ⟨rfl, rfl, fun _ _ _ => rfl⟩

theorem Chip.leaves_trans {c d e : Chip} (h : c.leaves P d) (k : d.leaves P e) : c.leaves P e :=
  ⟨k.1.trans h.1, k.2.1.trans h.2.1, fun j x hp => (k.2.2 j x hp).trans (h.2.2 j x hp)⟩

theorem Chip.leaves_mono {Q : Nat → Nat → Prop} {c d : Chip} (hq : ∀ j x, Q j x → P j x) (h : c.leaves P d) : c.leaves Q d :=
  ⟨h.1, h.2.1, fun j x hj => h.2.2 j x (hq j x hj)⟩

/-- Work on other parts of the chip leaves them. -/
theorem Chip.leaves_of_parts {c d : Chip} (hd : d.dict = c.dict) (ho : d.odx = c.odx) (ht : d.tku.clock = c.tku.clock) : c.leaves P d := by
  refine ⟨ho, ht, fun j x _ => ?_⟩
  unfold Chip.entry
  rw [hd]

theorem Chip.leaves_of_within {c d : Chip} {ps : List Part} (h : c.within d ps) (hd : ps.contains .dict = false)
    (ho : ps.contains .odx = false) (ht : ps.contains .tku = false) : c.leaves P d :=
  Chip.leaves_of_parts (Chip.within_keeps c d ps (·.dict) h (Chip.only_dict_out _ _ _ hd))
    (Chip.within_keeps c d ps (·.odx) h (Chip.only_odx_out _ _ _ ho))
    (congrArg Tku.clock (Chip.within_keeps c d ps (·.tku) h (Chip.only_tku_out _ _ _ ht)))

theorem Chip.leaves_ite {p : Prop} [Decidable p] {c d e : Chip} (hd : p → c.leaves P d) (he : ¬ p → c.leaves P e) :
    c.leaves P (if p then d else e) := by
  split
  · next h => exact hd h
  · next h => exact he h

/-- Work that may be done on a chip leaves what it leaves. -/
theorem Chip.leaves_when {p : Prop} [Decidable p] {c d : Chip} (h : c.leaves P d) : c.leaves P (if p then d else c) :=
  Chip.leaves_ite (fun _ => h) (fun _ => c.leaves_refl)

theorem Chip.leaves_unless {p : Prop} [Decidable p] {c d : Chip} (h : c.leaves P d) : c.leaves P (if p then c else d) :=
  Chip.leaves_ite (fun _ => c.leaves_refl) (fun _ => h)

theorem Chip.leaves_foldl {α : Type} {f : Chip → α → Chip} (h : ∀ (c : Chip) (a : α), c.leaves P (f c a)) (l : List α) :
    ∀ c : Chip, c.leaves P (l.foldl f c) := by
  induction l with
  | nil => exact fun c => c.leaves_refl
  | cons a l ih => exact fun c => Chip.leaves_trans (h c a) (ih (f c a))

theorem Chip.leaves_foldl_fst {α β : Type} {f : Chip × β → α → Chip × β} (h : ∀ (s : Chip × β) (a : α), s.1.leaves P (f s a).1)
    (l : List α) : ∀ s : Chip × β, s.1.leaves P (l.foldl f s).1 := by
  induction l with
  | nil => exact fun s => s.1.leaves_refl
  | cons a l ih => exact fun s => Chip.leaves_trans (h s a) (ih (f s a))

theorem Chip.leaves_wr (c : Chip) (f : Field) (v i : Nat) : c.leaves P (c.wr f v i) := Chip.leaves_of_parts rfl rfl rfl

theorem Chip.leaves_count (c : Chip) (f : Field) (i n : Nat) : c.leaves P (c.count f i n) := Chip.leaves_of_parts rfl rfl rfl

theorem Chip.leaves_setGrid (c : Chip) (id : Nat) (g : Grid) : c.leaves P (c.setGrid id g) := Chip.leaves_of_parts rfl rfl rfl

theorem Chip.leaves_gridFrom (c : Chip) (id t : Nat) : c.leaves P (c.gridFrom id t) := Chip.leaves_setGrid _ _ _

theorem Chip.leaves_setGng (c : Chip) (f : Gng → Gng) : c.leaves P (c.setGng f) := Chip.leaves_of_parts rfl rfl rfl

theorem Chip.leaves_setNet (c : Chip) (n : Nat) (f : GngNet → GngNet) : c.leaves P (c.setNet n f) := Chip.leaves_setGng _ _

theorem Chip.leaves_modFld (c : Chip) (f : Fld → Fld) : c.leaves P (c.modFld f) := Chip.leaves_of_parts rfl rfl rfl

theorem Chip.leaves_setPwr (c : Chip) (f : Pwr → Pwr) : c.leaves P (c.setPwr f) := Chip.leaves_of_parts rfl rfl rfl

theorem Chip.leaves_setLane (c : Chip) (n : Nat) (f : JrsLane → JrsLane) : c.leaves P (c.setLane n f) :=
  Chip.leaves_of_parts rfl rfl rfl

theorem Chip.leaves_pinIdle (c : Chip) (p : Nat) : c.leaves P (c.pinIdle p) := Chip.leaves_of_parts rfl rfl rfl

end

/-- An entry of index 0x6000 or above is no parameter. -/
theorem Chip.leaves_setEntry (c : Chip) {i : Nat} (s v : Nat) (hi : 0x6000 ≤ i) : c.leaves parameter (c.setEntry i s v) := by
  refine ⟨Chip.setEntry_odx _ _ _ _, congrArg Tku.clock (Chip.setEntry_tku _ _ _ _), fun j x hp => ?_⟩
  obtain ⟨hj, hx⟩ := hp
  refine Chip.entry_setEntry_other _ _ _ _ _ _ ?_
  unfold entryKey
  omega

theorem Chip.leaves_setLanePv (c : Chip) (n s v : Nat) : c.leaves parameter (c.setLanePv n s v) := Chip.leaves_setEntry c s v (by omega)

theorem Chip.leaves_gwepoPut (c : Chip) (off v : Nat) : c.leaves parameter (c.gwepoPut off v) := Chip.leaves_setEntry c _ _ (by decide)

theorem Chip.leaves_setLaneFault (c : Chip) (n : Nat) (v : Bool) : c.leaves parameter (c.setLaneFault n v) := by
  unfold Chip.setLaneFault
  exact Chip.leaves_trans (c.leaves_wr _ _ _) (Chip.leaves_setLanePv _ _ _ _)

/-! ## Gauze, Tweed, the TKU, the field ports and the power manager -/

theorem Chip.leaves_openScan (c k : Chip) (n : Nat) (w : Nat × Nat × Nat) : c.leaves parameter (c.openScan k n w) := by
  unfold Chip.openScan
  dsimp only
  refine Chip.leaves_trans ?_ (Chip.leaves_of_parts (d := Chip.setFilter _ n _) rfl rfl rfl)
  have hread : c.leaves parameter (c.devRead (k.filtEntry n 9 + 64 * ((c.filt n).nextBuf % max 1 (k.filtEntry n 7))) 64).1 :=
    Chip.leaves_of_within (c.devRead_within _ _) rfl rfl rfl
  exact Chip.leaves_ite (fun _ => Chip.leaves_trans hread (Chip.leaves_wr _ _ _ _)) fun _ => hread

theorem Chip.leaves_scansCommitted (old c : Chip) (t : Nat) (keys : List Nat) : c.leaves parameter (old.scansCommitted c t keys) := by
  unfold Chip.scansCommitted
  dsimp only
  refine Chip.leaves_trans (Chip.leaves_foldl (fun c n => ?_) _ c) (Chip.leaves_foldl (fun c p => ?_) _ _)
  · exact Chip.leaves_trans (Chip.leaves_foldl (fun c w => c.leaves_openScan old n w) _ c) (Chip.leaves_of_parts rfl rfl rfl)
  · exact Chip.leaves_of_parts rfl rfl rfl

theorem Chip.leaves_trigCommitted (old c : Chip) (t : Nat) : c.leaves parameter (old.trigCommitted c t) := by
  unfold Chip.trigCommitted
  refine Chip.leaves_foldl (fun c g => ?_) _ c
  dsimp only
  refine Chip.leaves_unless ?_
  have hset : c.leaves parameter (if old.entryOn (0x3C00 + g) 1 = true then c else c.setTrig g (fun _ => ⟨0, []⟩)) :=
    Chip.leaves_unless (Chip.leaves_of_parts rfl rfl rfl)
  exact Chip.leaves_trans hset (Chip.leaves_when (Chip.leaves_gridFrom _ _ _))

theorem Chip.leaves_twdCommitted (old c : Chip) (keys : List Nat) : c.leaves parameter (old.twdCommitted c keys) := by
  unfold Chip.twdCommitted
  dsimp only
  refine Chip.leaves_trans (Chip.leaves_when (d := { c.wr R.TWD_STATUS_CAL_BAD 0 with twd := { c.twd with reload := true } }) ?_)
    (Chip.leaves_of_parts rfl rfl rfl)
  exact Chip.leaves_of_parts rfl rfl rfl

theorem Chip.leaves_tkuCommitted (old c : Chip) (t : Nat) : c.leaves parameter (old.tkuCommitted c t) := by
  unfold Chip.tkuCommitted
  dsimp only
  have hperiod : c.leaves parameter (if old.controlPeriod = c.controlPeriod then c else c.gridFrom gridControl (t + 1)) :=
    Chip.leaves_unless (c.leaves_gridFrom gridControl (t + 1))
  refine Chip.leaves_trans (Chip.leaves_trans hperiod ?_) (Chip.leaves_when (Chip.leaves_wr _ _ _ _))
  exact Chip.leaves_ite (fun _ => Chip.leaves_wr _ _ _ _) fun _ => Chip.leaves_when (Chip.leaves_wr _ _ _ _)

theorem Chip.leaves_fldRefresh (c : Chip) : c.leaves parameter c.fldRefresh := by
  unfold Chip.fldRefresh
  dsimp only
  refine Chip.leaves_trans (Chip.leaves_trans (Chip.leaves_trans (Chip.leaves_foldl (fun c k => ?can) _ c)
    (Chip.leaves_foldl (fun c d => ?node) _ _)) (Chip.leaves_unless (Chip.leaves_modFld _ _))) (Chip.leaves_foldl (fun c n => ?port) _ _)
  case can =>
    exact Chip.leaves_ite (fun _ => Chip.leaves_trans (c.leaves_wr _ _ _) (Chip.leaves_modFld _ _)) fun _ =>
      Chip.leaves_when (Chip.leaves_trans (c.leaves_wr _ _ _) (Chip.leaves_modFld _ _))
  case node =>
    refine Chip.leaves_ite (fun _ => Chip.leaves_unless (Chip.leaves_modFld _ _)) fun _ => Chip.leaves_when ?_
    exact Chip.leaves_trans (Chip.leaves_trans (c.leaves_modFld _) (Chip.leaves_wr _ _ _ _)) (Chip.leaves_setEntry _ _ _ (by omega))
  case port =>
    exact Chip.leaves_ite (fun _ => c.leaves_wr _ _ _) fun _ => Chip.leaves_when (c.leaves_wr _ _ _)

theorem Chip.leaves_fldCommitted (old c : Chip) : c.leaves parameter (old.fldCommitted c) := by
  unfold Chip.fldCommitted
  dsimp only
  refine Chip.leaves_trans (Chip.leaves_foldl (fun c n => ?_) _ c) (Chip.leaves_fldRefresh _)
  exact Chip.leaves_trans (Chip.leaves_trans (Chip.leaves_when (c.leaves_modFld _)) (Chip.leaves_when (Chip.leaves_modFld _ _)))
    (Chip.leaves_when (Chip.leaves_wr _ _ _ _))

theorem Chip.leaves_pwrCommitted (old c : Chip) (t : Nat) : c.leaves parameter (old.pwrCommitted c t) := by
  unfold Chip.pwrCommitted
  dsimp only
  repeat' split
  all_goals exact Chip.leaves_of_parts rfl rfl rfl

theorem Chip.leaves_startWake (c : Chip) (d : Nat) : c.leaves parameter (c.startWake d) := by
  unfold Chip.startWake
  exact Chip.leaves_unless (c.leaves_setPwr _)

theorem Chip.leaves_wakeGroup (c : Chip) (g : Nat) : c.leaves parameter (c.wakeGroup g) :=
  Chip.leaves_of_within (c.wakeGroup_within g) rfl rfl rfl

/-! ## Jersey -/

theorem settledParameter_parameter (j x : Nat) (h : settledParameter j x) : parameter j x := h.1

/-- STATE_RESET that reads false again is no parameter that stays (R450). -/
theorem Chip.leaves_stateReset (c : Chip) {n : Nat} (v : Nat) (h : 0x4D00 ≤ n ∧ n < 0x4E00) :
    c.leaves settledParameter (c.setEntry n 0x14 v) := by
  refine ⟨Chip.setEntry_odx _ _ _ _, congrArg Tku.clock (Chip.setEntry_tku _ _ _ _), fun j x hp => ?_⟩
  obtain ⟨⟨hj, hx⟩, hbut⟩ := hp
  refine Chip.entry_setEntry_other _ _ _ _ _ _ fun heq => ?_
  unfold entryKey at heq
  omega

/-- What a written key of Jersey does: STATE_RESET takes effect, or a process set-point that has no source is 0 (R450, R457). -/
def Chip.laneKey (c : Chip) (k : Nat) : Chip :=
  let n := k / 256
  if k % 256 == 0x14 && decide (0x4D00 ≤ n) && decide (n < 0x4E00) && c.entryOn n 0x14 then
    (c.setEntry n 0x14 0).setLane (n - 0x4D00) (fun l => { l with resetDue := true })
  else if k % 256 == 1 && decide (0x6C00 ≤ n) && decide (n < 0x6D00) &&
      bits (c.laneCfg (n - 0x6C00) 6) 0 4 != 5 then c.setLanePv (n - 0x6C00) 4 0
  else c

theorem Chip.leaves_laneKey (c : Chip) (k : Nat) : c.leaves settledParameter (c.laneKey k) := by
  unfold Chip.laneKey
  dsimp only
  refine Chip.leaves_ite (fun h => ?_) fun _ =>
    Chip.leaves_when (Chip.leaves_mono settledParameter_parameter (c.leaves_setLanePv _ _ _))
  simp only [Bool.and_eq_true, decide_eq_true_iff] at h
  exact Chip.leaves_trans (c.leaves_stateReset 0 ⟨h.1.1.2, h.1.2⟩) (Chip.leaves_setLane _ _ _)

theorem Chip.leaves_jrsCommitted (old c : Chip) (t : Nat) (written : List Nat) :
    c.leaves settledParameter (old.jrsCommitted c t written) := by
  unfold Chip.jrsCommitted
  dsimp only
  have hbase : c.leaves parameter (if old.jrsBase = c.jrsBase then c else c.gridFrom gridJersey t) :=
    Chip.leaves_unless (c.leaves_gridFrom _ _)
  refine Chip.leaves_trans (Chip.leaves_trans (Chip.leaves_mono settledParameter_parameter
      (Chip.leaves_trans (Chip.leaves_trans hbase (Chip.leaves_foldl (fun c n => ?stopped) _ _)) (Chip.leaves_foldl (fun c n => ?started) _ _)))
    (Chip.leaves_foldl (fun c k => c.leaves_laneKey k) _ _)) (Chip.leaves_mono settledParameter_parameter
      (Chip.leaves_trans (Chip.leaves_trans (Chip.leaves_foldl (fun c i => ?pulse) _ _) (Chip.leaves_foldl (fun c p => ?pwm) _ _))
        (Chip.leaves_wr _ _ _ _)))
  case stopped => exact Chip.leaves_when (c.leaves_pinIdle _)
  case started =>
    have hstart : c.leaves parameter (if old.laneCfg n 1 != 0 then c
        else [6, 7, 8].foldl (fun (c : Chip) k => c.setLanePv n k 0)
          ((c.setLane n (fun l => { l with out := none, prev := none, resetDue := false })).setLaneFault n false)) :=
      Chip.leaves_unless (Chip.leaves_trans (Chip.leaves_trans (c.leaves_setLane _ _) (Chip.leaves_setLaneFault _ _ _))
        (Chip.leaves_foldl (fun c k => c.leaves_setLanePv n k 0) _ _))
    exact Chip.leaves_trans hstart (Chip.leaves_when (Chip.leaves_gwepoPut _ _ _))
  case pulse => exact Chip.leaves_when (c.leaves_wr _ _ _)
  case pwm => exact Chip.leaves_ite (fun _ => c.leaves_pinIdle _) fun _ => Chip.leaves_when (c.leaves_gridFrom _ _)

theorem Chip.leaves_jrsSetpoints (c : Chip) (t : Nat) : c.leaves parameter (c.jrsSetpoints t) := by
  unfold Chip.jrsSetpoints
  refine Chip.leaves_foldl (fun c e => ?_) _ c
  dsimp only
  refine Chip.leaves_unless (Chip.leaves_trans (c.leaves_setLane e.1 _) (Chip.leaves_ite (fun _ => ?_) fun _ => Chip.leaves_count _ _ _ _))
  split
  · exact Chip.leaves_trans (Chip.leaves_trans (Chip.leaves_setLane _ _ _) (Chip.leaves_setLanePv _ _ _ _)) (Chip.leaves_setLanePv _ _ _ _)
  · exact Chip.leaves_refl _

/-! ## Gingham -/

theorem Chip.leaves_setFrame (c : Chip) (f : GngFrame) : c.leaves parameter (c.setFrame f) := c.leaves_setGng _

theorem Chip.leaves_gngLog (c : Chip) (l : GngLog) : c.leaves parameter (c.gngLog l) := c.leaves_setGng _

theorem Chip.leaves_raise (c : Chip) (n : Nat) : c.leaves parameter (c.raise n) := Chip.leaves_of_within (c.raise_within n) rfl rfl rfl

theorem Chip.leaves_formVerdict (c : Chip) (f : GngFrame) (cause : Nat) (d : GngDiff) : c.leaves parameter (c.formVerdict f cause d) := by
  unfold Chip.formVerdict
  dsimp only
  refine Chip.leaves_trans ?_ (Chip.leaves_setGng _ _)
  refine Chip.leaves_trans ?_ (Chip.leaves_gngLog _ _)
  refine Chip.leaves_trans ?_ (Chip.leaves_unless (Chip.leaves_count _ _ _ _))
  refine Chip.leaves_trans ?_ (Chip.leaves_unless (Chip.leaves_count _ _ _ _))
  refine Chip.leaves_trans ?_ (Chip.leaves_count _ _ _ _)
  refine Chip.leaves_trans ?_ (Chip.leaves_setEntry _ _ _ (by omega))
  refine Chip.leaves_trans ?_ (Chip.leaves_setEntry _ _ _ (by omega))
  exact Chip.leaves_trans (Chip.leaves_trans (c.leaves_setFrame _) (Chip.leaves_setNet _ _ _)) (Chip.leaves_wr _ _ _ _)

theorem Chip.leaves_gngLatch (c : Chip) (f : Field) (net k time : Nat) : c.leaves parameter (c.gngLatch f net k time) := by
  unfold Chip.gngLatch
  dsimp only
  have hfirst : c.leaves parameter (if c.gngFaults = 0 then c.wr R.GNG_FAULT_FIRST_NET net else c) :=
    Chip.leaves_when (c.leaves_wr _ _ _)
  exact Chip.leaves_unless (Chip.leaves_trans (Chip.leaves_trans (Chip.leaves_trans (Chip.leaves_trans (Chip.leaves_trans hfirst
    (Chip.leaves_wr _ _ _ _)) (Chip.leaves_raise _ _)) (Chip.leaves_raise _ _)) (Chip.leaves_gngLog _ _)) (Chip.leaves_setGng _ _))

theorem Chip.leaves_countDisagree (c : Chip) (f : GngFrame) : c.leaves parameter (c.countDisagree f) := by
  unfold Chip.countDisagree
  dsimp only
  have hcount := Chip.leaves_trans (c.leaves_count (P := parameter) R.GNG_DISAGREE_CNT_COUNT 0 1)
    (Chip.leaves_setNet _ f.net (fun q => { q with disagreed := insertNat q.disagreed f.k }))
  exact Chip.leaves_trans hcount (Chip.leaves_when (Chip.leaves_gngLatch _ _ _ _ _))

theorem Chip.leaves_touchReads (c : Chip) (rs : List (Nat × Nat)) : c.leaves parameter (c.touchReads rs).1 := by
  unfold Chip.touchReads
  refine Chip.leaves_foldl_fst (fun s r => ?_) rs (c, St.OK)
  dsimp only
  split
  · exact Chip.leaves_refl _
  · exact Chip.leaves_of_within (Chip.devRead_within _ _ _) rfl rfl rfl

theorem Chip.leaves_compareAreas (c : Chip) (bands : List Nat) (first second : Nat) (exact_ : Bool) :
    c.leaves parameter (c.compareAreas bands first second exact_).1 := by
  unfold Chip.compareAreas
  refine Chip.leaves_foldl_fst (fun s p => ?_) _ (c, noDiff)
  exact Chip.leaves_touchReads _ _

theorem Chip.leaves_selfTest (c : Chip) (wrong : Bool) (net k time : Nat) : c.leaves parameter (c.selfTest wrong net k time) := by
  unfold Chip.selfTest
  exact Chip.leaves_when (c.leaves_gngLatch _ _ _ _)

theorem Chip.leaves_compareFrame (c : Chip) (f : GngFrame) (wrong : Bool) : c.leaves parameter (c.compareFrame f wrong) := by
  unfold Chip.compareFrame
  dsimp only
  refine Chip.leaves_unless ?_
  have htest := c.leaves_selfTest wrong f.net f.k f.time
  cases f.bands with
  | none =>
    refine Chip.leaves_trans (Chip.leaves_trans htest ?_) (Chip.leaves_unless (Chip.leaves_formVerdict _ _ _ _))
    exact Chip.leaves_trans (Chip.leaves_when (Chip.leaves_countDisagree _ _)) (Chip.leaves_setFrame _ _)
  | some bands =>
    refine Chip.leaves_trans (Chip.leaves_trans (Chip.leaves_trans htest (Chip.leaves_compareAreas _ bands (f.e 4) (f.e 6) false)) ?_)
      (Chip.leaves_unless (Chip.leaves_formVerdict _ _ _ _))
    exact Chip.leaves_trans (Chip.leaves_when (Chip.leaves_countDisagree _ _)) (Chip.leaves_setFrame _ _)

theorem Chip.leaves_loseMirror (c : Chip) : c.leaves parameter c.loseMirror := by
  unfold Chip.loseMirror
  dsimp only
  refine Chip.leaves_trans (Chip.leaves_foldl (fun c f => ?_) _ c) (Chip.leaves_gngLatch _ _ _ _ _)
  exact Chip.leaves_trans (c.leaves_setFrame _) (Chip.leaves_unless (Chip.leaves_formVerdict _ _ _ _))

theorem Chip.leaves_compareGolden (c : Chip) (net : Nat) (g : GngGolden) (wrong : Bool) :
    c.leaves parameter (c.compareGolden net g wrong) := by
  unfold Chip.compareGolden
  dsimp only
  refine Chip.leaves_unless ?_
  refine Chip.leaves_trans ?_ (Chip.leaves_unless (Chip.leaves_gngLatch _ _ _ _ _))
  refine Chip.leaves_trans ?_ (Chip.leaves_gngLog _ _)
  refine Chip.leaves_trans ?_ (Chip.leaves_setGng _ _)
  exact Chip.leaves_trans (c.leaves_selfTest _ _ _ _) (Chip.leaves_compareAreas _ _ _ _ _)

theorem Chip.leaves_recompute (c : Chip) : c.leaves parameter c.recompute := by
  unfold Chip.recompute
  dsimp only
  have hwords : ∀ (a b w s l : Nat), c.leaves parameter (((((c.wr R.GNG_VERDICT_LO_WORD_LO a).wr R.GNG_VERDICT_HI_WORD_HI b).setEntry
      0x7C00 1 w).wr R.GNG_STATUS_SAFE s).wr R.GNG_STATUS_LATCHED l) := fun a b w s l =>
    Chip.leaves_trans (Chip.leaves_trans (Chip.leaves_trans (Chip.leaves_trans (c.leaves_wr _ _ _) (Chip.leaves_wr _ _ _ _))
      (Chip.leaves_setEntry _ _ _ (by decide))) (Chip.leaves_wr _ _ _ _)) (Chip.leaves_wr _ _ _ _)
  refine Chip.leaves_ite (fun _ => ?_) fun _ => hwords _ _ _ _ _
  exact Chip.leaves_trans (Chip.leaves_trans (hwords _ _ _ _ _) (Chip.leaves_wr _ _ _ _)) (Chip.leaves_setGng _ _)

theorem Chip.leaves_showNet (c : Chip) (n : Nat) : c.leaves parameter (c.showNet n) := Chip.leaves_of_parts rfl rfl rfl

theorem Chip.leaves_gngEnd (c : Chip) : c.leaves parameter c.gngEnd := by
  unfold Chip.gngEnd
  dsimp only
  have hdirty : c.leaves parameter (if c.gng.dirty = true then (c.recompute).setGng (fun g => { g with dirty := false }) else c) :=
    Chip.leaves_when (Chip.leaves_trans c.leaves_recompute (Chip.leaves_setGng _ _))
  refine Chip.leaves_trans (Chip.leaves_trans (Chip.leaves_trans hdirty (Chip.leaves_setGng _ _)) (Chip.leaves_unless ?_))
    (Chip.leaves_foldl (fun c n => c.leaves_showNet n) _ _)
  exact Chip.leaves_foldl (fun c l => Chip.leaves_of_within (c.produce_within _ _) rfl rfl rfl) _ _

/-- What follows of Gingham leaves what its own work leaves. -/
theorem Chip.leaves_followed {c d : Chip} (h : c.leaves parameter d) : c.leaves parameter (c.followed d) :=
  ⟨rfl, rfl, h.2.2⟩

theorem Chip.leaves_gngFollow (c : Chip) (wrong : Bool) : c.leaves parameter (c.gngFollow wrong) := by
  unfold Chip.gngFollow
  refine Chip.leaves_followed ?_
  dsimp only
  refine Chip.leaves_trans (Chip.leaves_trans (Chip.leaves_trans (Chip.leaves_trans (Chip.leaves_trans
    (c.leaves_setGng _) (Chip.leaves_when (Chip.leaves_loseMirror _))) (Chip.leaves_foldl (fun c f => c.leaves_compareFrame f wrong) _ _))
    (Chip.leaves_foldl (fun c p => ?_) _ _)) (Chip.leaves_setGng _ _)) (Chip.leaves_gngEnd _)
  split
  · exact Chip.leaves_when (c.leaves_compareGolden _ _ _)
  · exact c.leaves_refl

theorem Chip.leaves_gngCommitted (old c : Chip) (t : Nat) : c.leaves parameter (old.gngCommitted c t) := by
  unfold Chip.gngCommitted
  dsimp only
  refine Chip.leaves_trans (Chip.leaves_trans (Chip.leaves_trans (Chip.leaves_trans (c.leaves_wr _ _ _)
    (Chip.leaves_foldl (fun c n => ?_) _ _)) (Chip.leaves_when (Chip.leaves_setGng _ _))) (Chip.leaves_when (Chip.leaves_gridFrom _ _ _)))
    (Chip.leaves_gngFollow _ _)
  have hreload : c.leaves parameter (if ((List.range 18).any fun k => old.netCfg n (k + 1) != c.netCfg n (k + 1)) = true then
      c.setNet n (fun q => { q with reload := true }) else c) := Chip.leaves_when (c.leaves_setNet _ _)
  exact Chip.leaves_trans hreload (Chip.leaves_ite
    (fun _ => Chip.leaves_trans (Chip.leaves_setNet _ _ _) (Chip.leaves_wr _ _ _ _)) fun _ => Chip.leaves_when (Chip.leaves_wr _ _ _ _))

/-! ## A commit instant -/

/-- Everything the blocks do at a commit instant leaves the sessions, the journal, the clock and the parameters (R33). -/
theorem Chip.leaves_entriesCommitted (old c : Chip) (t : Nat) (keys : List Nat) :
    c.leaves settledParameter (old.entriesCommitted c t keys) := by
  unfold Chip.entriesCommitted
  dsimp only
  have hgauze := Chip.leaves_trans (Chip.leaves_trans (old.leaves_scansCommitted c t keys) (Chip.leaves_trigCommitted old _ t))
    (Chip.leaves_twdCommitted old _ keys)
  have hrest : ∀ b : Chip, b.leaves parameter (old.gngCommitted (old.pwrCommitted (old.fldCommitted (old.tkuCommitted b t)) t) t) := fun b =>
    Chip.leaves_trans (Chip.leaves_trans (Chip.leaves_trans (old.leaves_tkuCommitted b t) (Chip.leaves_fldCommitted old _))
      (Chip.leaves_pwrCommitted old _ t)) (Chip.leaves_gngCommitted old _ t)
  have hall := Chip.leaves_trans (Chip.leaves_trans (Chip.leaves_mono settledParameter_parameter hgauze)
    (Chip.leaves_jrsCommitted old _ t keys)) (Chip.leaves_mono settledParameter_parameter (hrest _))
  refine Chip.leaves_trans hall (Chip.leaves_mono settledParameter_parameter ?_)
  exact Chip.leaves_ite (fun _ => Chip.leaves_foldl (fun c d => c.leaves_startWake d) _ _) fun _ =>
    Chip.leaves_when (Chip.leaves_wakeGroup _ _)

theorem Chip.leaves_copyVerdict (c : Chip) : c.leaves parameter c.copyVerdict := by
  unfold Chip.copyVerdict
  dsimp only
  exact Chip.leaves_unless (c.leaves_setEntry _ _ (by decide))

theorem Chip.leaves_gwepoCycle (c : Chip) (t : Nat) : c.leaves parameter (c.gwepoCycle t) := by
  unfold Chip.gwepoCycle
  dsimp only
  exact Chip.leaves_unless (Chip.leaves_trans (Chip.leaves_trans (c.leaves_wr _ _ _) (Chip.leaves_copyVerdict _)) (Chip.leaves_modFld _ _))

end Sys2Proof.Machine

/-! # Commit instants apply or refuse a due session whole (R33, R506) -/

namespace Sys2Proof.Machine

/-! ## Sessions -/

theorem nth_modifyNth_self {α : Type} {f : α → α} {x : α} : ∀ {l : List α} {i : Nat}, i < l.length →
    nth (modifyNth l i f) i x = f (nth l i x)
  | _ :: _, 0, _ => rfl
  | _ :: l, _ + 1, h => nth_modifyNth_self (l := l) (Nat.lt_of_succ_lt_succ h)

theorem nth_modifyNth_other {α : Type} {f : α → α} {x : α} : ∀ {l : List α} {i k : Nat}, k ≠ i →
    nth (modifyNth l i f) k x = nth l k x
  | [], _, _, _ => rfl
  | _ :: _, 0, k + 1, _ => rfl
  | _ :: _, _ + 1, 0, _ => rfl
  | _ :: l, i + 1, k + 1, h => nth_modifyNth_other (l := l) (by omega)

/-- A session that becomes free. -/
def Session.freed (s : Session) : Session := { s with state := 0, staged := [], commitAt := 0 }

/-- The sessions, with one of them free. -/
def Chip.withFreed (c : Chip) (n : Nat) : Chip :=
  { c with odx := { c.odx with sessions := modifyNth c.odx.sessions n Session.freed } }

/-- Freeing a session changes the session, and no parameter. -/
theorem Chip.leaves_freeSession (c : Chip) (n : Nat) : (c.withFreed n).leaves parameter (c.freeSession n) := by
  have hset : ∀ b : Chip, b.odx = c.odx → b.tku = c.tku → (∀ j x, parameter j x → b.entry j x = c.entry j x) →
      (c.withFreed n).leaves parameter (b.setSession n Session.freed) := by
    intro b ho ht he
    have hfreed : (c.withFreed n).leaves parameter (b.withFreed n) :=
      ⟨by rw [Chip.withFreed, Chip.withFreed, ho], congrArg Tku.clock ht, he⟩
    unfold Chip.setSession
    dsimp only
    refine Chip.leaves_trans ?_ (Chip.leaves_of_within (Chip.odxStatus_within _) rfl rfl rfl)
    refine Chip.leaves_trans ?_ (Chip.leaves_setEntry _ _ _ (by omega))
    refine Chip.leaves_trans ?_ (Chip.leaves_setEntry _ _ _ (by omega))
    refine Chip.leaves_trans ?_ (Chip.leaves_setEntry _ _ _ (by omega))
    refine Chip.leaves_trans ?_ (Chip.leaves_setEntry _ _ _ (by omega))
    exact Chip.leaves_trans hfreed (Chip.leaves_setEntry _ _ _ (by omega))
  unfold Chip.freeSession
  dsimp only
  split
  · exact hset _ (Chip.setEntry_odx _ _ _ _) (Chip.setEntry_tku _ _ _ _) (c.leaves_setEntry _ _ (by decide)).2.2
  · exact hset c rfl rfl fun _ _ _ => rfl

theorem Chip.entry_withFreed (c : Chip) (n j x : Nat) : (c.withFreed n).entry j x = c.entry j x := rfl

theorem Chip.entry_freeSession (c : Chip) (n : Nat) {j x : Nat} (hp : parameter j x) : (c.freeSession n).entry j x = c.entry j x := by
  rw [(c.leaves_freeSession n).2.2 j x hp, Chip.entry_withFreed]

/-- A record joins the journal. -/
def Chip.withRecord (c : Chip) (t : Nat) (f : JournalFields) : Chip :=
  { c with odx := { c.odx with journal := (journalRecord c.odx.nextSeq t f :: c.odx.journal).take 16384, nextSeq := c.odx.nextSeq + 1 } }

theorem Chip.leaves_journalAt (c : Chip) (t : Nat) (f : JournalFields) : (c.withRecord t f).leaves parameter (c.journalAt t f) := by
  unfold Chip.journalAt
  exact Chip.leaves_trans ((c.withRecord t f).leaves_setEntry _ _ (by decide)) (Chip.leaves_setEntry _ _ _ (by decide))

theorem Chip.entry_journalAt (c : Chip) (t : Nat) (f : JournalFields) {j x : Nat} (hp : parameter j x) :
    (c.journalAt t f).entry j x = c.entry j x := by
  rw [(c.leaves_journalAt t f).2.2 j x hp]
  rfl

theorem Chip.overlay_odx (c : Chip) (l : Table Nat) : (c.overlay l).odx = c.odx :=
  foldl_keeps _ (·.odx) (fun _ _ => Chip.setEntry_odx _ _ _ _) l c

theorem Chip.overlay_tku (c : Chip) (l : Table Nat) : (c.overlay l).tku = c.tku :=
  foldl_keeps _ (·.tku) (fun _ _ => Chip.setEntry_tku _ _ _ _) l c

theorem Chip.overlay_nil (c : Chip) : c.overlay [] = c := rfl

/-- Values staged over the same entry read alike. -/
theorem Chip.entry_overlay {j x : Nat} (hx : x < 256) : ∀ (l : Table Nat) (c d : Chip), d.entry j x = c.entry j x →
    (d.overlay l).entry j x = (c.overlay l).entry j x
  | [], _, _, h => h
  | (k, v) :: l, c, d, h => by
    refine Chip.entry_overlay hx l _ _ ?_
    dsimp only
    by_cases hk : entryKey j x = entryKey (k / 256) (k % 256)
    · have hkey : k / 256 = j ∧ k % 256 = x := by
        unfold entryKey at hk
        omega
      rw [hkey.1, hkey.2, Chip.entry_setEntry_self, Chip.entry_setEntry_self]
    · rw [Chip.entry_setEntry_other _ _ _ _ _ _ hk, Chip.entry_setEntry_other _ _ _ _ _ _ hk, h]

/-! ## What is due -/

/-- The sessions are eight, and `n` is the only one that waits for its instant `t`; no implicit write does. -/
structure Chip.DueAlone (c : Chip) (n t : Nat) : Prop where
  eight : c.odx.sessions.length = 8
  index : n < 8
  waits : (c.session n).state = 2
  instant : (c.session n).commitAt = t
  alone : ∀ k, k ≠ n → (c.session k).state ≠ 2
  implicit : c.odx.implicit = []

theorem Chip.dueAlone_congr {c d : Chip} {n t : Nat} (h : d.odx = c.odx) (hc : c.DueAlone n t) : d.DueAlone n t := by
  have hs : ∀ k, d.session k = c.session k := fun k => by rw [Chip.session, Chip.session, h]
  exact ⟨by rw [h, hc.eight], hc.index, by rw [hs, hc.waits], by rw [hs, hc.instant], fun k hk => by rw [hs]; exact hc.alone k hk,
    by rw [h, hc.implicit]⟩

theorem Chip.dueSession_congr {c d : Chip} (h : d.odx = c.odx) (n : Nat) : d.dueSession n = c.dueSession n := by
  have hs : d.session n = c.session n := by rw [Chip.session, Chip.session, h]
  rw [Chip.dueSession, Chip.dueSession, hs]

theorem Chip.due_alone {c : Chip} {n t : Nat} (h : c.DueAlone n t) : c.due t = [c.dueSession n] := by
  have hpick : ∀ k ∈ List.range 8, ((c.session k).state == 2 && decide ((c.session k).commitAt ≤ t)) = (k == n) := by
    intro k _
    by_cases hk : k = n
    · subst hk
      simp [h.waits, h.instant]
    · rw [beq_eq_false_iff_ne.mpr (h.alone k hk), Bool.false_and, beq_eq_false_iff_ne.mpr hk]
  have hone : (List.range 8).filter (fun k => k == n) = [n] := by
    have hn := h.index
    interval_cases n <;> rfl
  rw [Chip.due, List.filter_congr hpick, hone, h.implicit]
  exact List.mergeSort_singleton _

theorem mem_insertNat {x k : Nat} : ∀ {l : List Nat}, x ∈ insertNat l k ↔ x = k ∨ x ∈ l
  | [] => by simp [insertNat]
  | a :: l => by
    unfold insertNat
    split
    · simp
    · split
      · next h => simp [h]
      · simp [mem_insertNat (l := l), or_left_comm]

theorem mem_foldl_insertNat {x : Nat} : ∀ {l m : List Nat}, x ∈ l.foldl insertNat m ↔ x ∈ l ∨ x ∈ m
  | [], m => by simp
  | a :: l, m => by
    rw [List.foldl_cons, mem_foldl_insertNat, mem_insertNat, List.mem_cons]
    tauto

/-- A commit instant is one that a waiting session names, where no implicit write waits. -/
theorem Chip.mem_instants {c : Chip} {u t : Nat} (h : c.odx.implicit = []) :
    u ∈ c.instants t ↔ ∃ s ∈ c.odx.sessions, s.state = 2 ∧ s.commitAt ≤ t ∧ s.commitAt = u := by
  rw [Chip.instants, mem_foldl_insertNat, h]
  simp only [List.filter_nil, List.map_nil, List.append_nil, List.not_mem_nil, or_false, List.mem_map, List.mem_filter,
    Bool.and_eq_true, beq_iff_eq, decide_eq_true_iff, and_assoc]

theorem Chip.mem_sessions {c : Chip} {s : Session} : s ∈ c.odx.sessions ↔ ∃ k, k < c.odx.sessions.length ∧ c.session k = s := by
  unfold Chip.session nth
  rw [List.mem_iff_getElem]
  constructor
  · rintro ⟨k, hk, rfl⟩
    exact ⟨k, hk, by simp [hk]⟩
  · rintro ⟨k, hk, rfl⟩
    exact ⟨k, hk, by simp [hk]⟩

theorem Chip.mem_instants_alone {c : Chip} {n t u w : Nat} (h : c.DueAlone n t) : u ∈ c.instants w ↔ t ≤ w ∧ u = t := by
  rw [Chip.mem_instants h.implicit]
  constructor
  · rintro ⟨s, hs, hstate, hle, rfl⟩
    obtain ⟨k, -, rfl⟩ := Chip.mem_sessions.mp hs
    obtain rfl : k = n := Decidable.byContradiction fun hk => h.alone k hk hstate
    rw [h.instant] at hle ⊢
    exact ⟨hle, rfl⟩
  · rintro ⟨hle, rfl⟩
    exact ⟨c.session n, Chip.mem_sessions.mpr ⟨n, by rw [h.eight]; exact h.index, rfl⟩, h.waits, by rw [h.instant]; exact hle, h.instant⟩

/-! ## One due session -/

/-- What an instant leaves of a session that was due: it is free, the others and the clock stay, and the journal has one record more,
stamped with the instant (R506). -/
structure Chip.Done (c d : Chip) (n t : Nat) (f : JournalFields) : Prop where
  free : (d.session n).state = 0 ∧ (d.session n).staged = []
  others : ∀ k, k ≠ n → d.session k = c.session k
  journal : d.odx.journal.head? = some (journalRecord c.odx.nextSeq t f)
  seq : d.odx.nextSeq = c.odx.nextSeq + 1
  clock : d.tku.clock = c.tku.clock

theorem Chip.done_congr {c d e : Chip} {P : Nat → Nat → Prop} {n t : Nat} {f : JournalFields} (h : c.Done d n t f) (k : d.leaves P e) :
    c.Done e n t f := by
  obtain ⟨ho, ht, -⟩ := k
  have hs : ∀ k, e.session k = d.session k := fun k => by rw [Chip.session, Chip.session, ho]
  exact ⟨by rw [hs]; exact h.free, fun k hk => by rw [hs]; exact h.others k hk, by rw [ho]; exact h.journal, by rw [ho]; exact h.seq,
    ht.trans h.clock⟩

/-- A session freed, values staged over the entries, and a record written. -/
theorem Chip.done_journalled (c : Chip) {n t : Nat} (l : Table Nat) (f : JournalFields) (hlen : c.odx.sessions.length = 8) (hn : n < 8) :
    c.Done (((c.freeSession n).overlay l).journalAt t f) n t f := by
  obtain ⟨ho, ht, -⟩ := c.leaves_freeSession n
  have hodx : ((c.freeSession n).overlay l).odx = (c.withFreed n).odx := by rw [Chip.overlay_odx, ho]
  have htku : ((c.freeSession n).overlay l).tku.clock = c.tku.clock := by rw [Chip.overlay_tku, ht]; rfl
  refine Chip.done_congr (d := ((c.freeSession n).overlay l).withRecord t f) ?_ (Chip.leaves_journalAt _ t f)
  have hself := nth_modifyNth_self (f := Session.freed) (x := ⟨0, 0, 0, 0, 0, 0, [], none, none⟩) (l := c.odx.sessions) (i := n) (by omega)
  have hsession : ∀ k, (((c.freeSession n).overlay l).withRecord t f).session k = (c.withFreed n).session k := fun k => by
    show nth ((c.freeSession n).overlay l).odx.sessions k _ = _
    rw [hodx]
    rfl
  refine ⟨?_, fun k hk => ?_, ?_, ?_, htku⟩
  · rw [hsession]
    show (nth (modifyNth c.odx.sessions n Session.freed) n _).state = 0 ∧ (nth (modifyNth c.odx.sessions n Session.freed) n _).staged = []
    rw [hself]
    exact ⟨rfl, rfl⟩
  · rw [hsession]
    exact nth_modifyNth_other hk
  · unfold Chip.withRecord
    rw [hodx]
    rfl
  · unfold Chip.withRecord
    rw [hodx]
    rfl

/-- The record of a due item that is refused (R506). -/
def Due.refused (d : Due) : JournalFields :=
  { d.record with kind := 6, status := St.ODX_INCONSISTENT, index := 0, sub := 0, payload := 0 }

/-- A chip that may have tags to publish after the record `seq`. -/
def Chip.tagsDueAt (c : Chip) (tag : Bool) (seq : Nat) : Chip :=
  if tag then { c with odx := { c.odx with tagsDue := some seq } } else c

theorem Chip.done_tagsDueAt {c d : Chip} {n t : Nat} {f : JournalFields} (h : c.Done d n t f) (tag : Bool) (seq : Nat) :
    c.Done (d.tagsDueAt tag seq) n t f := by
  cases tag with
  | true => exact ⟨h.free, h.others, h.journal, h.seq, h.clock⟩
  | false => exact h

theorem Chip.entry_tagsDueAt (c : Chip) (tag : Bool) (seq j x : Nat) : (c.tagsDueAt tag seq).entry j x = c.entry j x := by
  cases tag with
  | true => rfl
  | false => rfl

/-- What applying the session `n` writes. -/
def Chip.withApplied (c : Chip) (n t : Nat) : Chip :=
  ((c.freeSession n).overlay (c.session n).staged).journalAt t (c.dueSession n).record

theorem Chip.applyDue_applied {c : Chip} {n t : Nat}
    (hok : ((c.freeSession n).overlay (c.session n).staged).consistent ((c.session n).staged.map (·.1)) = true) :
    ∃ tag seq, (c.applyDue t (c.dueSession n)).1 = (c.withApplied n t).tagsDueAt tag seq := by
  have hdue : (c.dueSession n).session = some n ∧ (c.dueSession n).staged = (c.session n).staged := ⟨rfl, rfl⟩
  unfold Chip.applyDue Chip.withApplied
  rw [hdue.1, hdue.2]
  dsimp only
  rw [if_pos hok]
  generalize (c.freeSession n).overlay (c.session n).staged = b
  generalize b.journalAt t (c.dueSession n).record = d
  exact ⟨_, _, rfl⟩

theorem Chip.done_withApplied {c : Chip} {n t : Nat} (h : c.DueAlone n t) : c.Done (c.withApplied n t) n t (c.dueSession n).record :=
  c.done_journalled _ _ h.eight h.index

theorem Chip.entry_withApplied (c : Chip) (n t : Nat) {j x : Nat} (hp : parameter j x) :
    (c.withApplied n t).entry j x = (c.overlay (c.session n).staged).entry j x :=
  (Chip.entry_journalAt _ t _ hp).trans (Chip.entry_overlay hp.2 _ _ _ (c.entry_freeSession n hp))

theorem Chip.applyDue_refused {c : Chip} {n t : Nat}
    (hno : ((c.freeSession n).overlay (c.session n).staged).consistent ((c.session n).staged.map (·.1)) = false) :
    (c.applyDue t (c.dueSession n)) = ((c.freeSession n).journalAt t (c.dueSession n).refused, []) := by
  have hdue : (c.dueSession n).session = some n ∧ (c.dueSession n).staged = (c.session n).staged := ⟨rfl, rfl⟩
  unfold Chip.applyDue
  rw [hdue.1, hdue.2]
  dsimp only
  rw [if_neg (by rw [hno]; exact Bool.false_ne_true)]
  rfl

/-! ## An instant at which one session is due -/

/-- One due item, applied beside the keys that the items before it wrote. -/
theorem Chip.commitInstant_alone {c : Chip} {n t : Nat} (h : c.DueAlone n t) :
    c.commitInstant t = (if (c.applyDue t (c.dueSession n)).2.isEmpty then (c.applyDue t (c.dueSession n)).1
      else c.entriesCommitted (c.applyDue t (c.dueSession n)).1 t (c.applyDue t (c.dueSession n)).2).jrsSetpoints t := by
  unfold Chip.commitInstant
  rw [Chip.due_alone h]
  simp only [List.foldl_cons, List.foldl_nil, List.nil_append]
  rfl

/-- A due session whose values keep every rule is applied whole. -/
theorem Chip.commitInstant_applied {c : Chip} {n t : Nat} (h : c.DueAlone n t)
    (hok : ((c.freeSession n).overlay (c.session n).staged).consistent ((c.session n).staged.map (·.1)) = true) :
    c.Done (c.commitInstant t) n t (c.dueSession n).record ∧
      ∀ j x, settledParameter j x → (c.commitInstant t).entry j x = (c.overlay (c.session n).staged).entry j x := by
  obtain ⟨tag, seq, happly⟩ := Chip.applyDue_applied (t := t) hok
  have hleaves : ((c.withApplied n t).tagsDueAt tag seq).leaves settledParameter (c.commitInstant t) := by
    rw [Chip.commitInstant_alone h, happly]
    exact Chip.leaves_trans (Chip.leaves_unless (Chip.leaves_entriesCommitted _ _ _ _))
      (Chip.leaves_mono settledParameter_parameter (Chip.leaves_jrsSetpoints _ _))
  refine ⟨Chip.done_congr (Chip.done_tagsDueAt (Chip.done_withApplied h) tag seq) hleaves, fun j x hp => ?_⟩
  rw [hleaves.2.2 j x hp, Chip.entry_tagsDueAt]
  exact c.entry_withApplied n t hp.1

/-- What a refusal writes. -/
def Chip.withRefusal (c : Chip) (n t : Nat) : Chip := (c.freeSession n).journalAt t (c.dueSession n).refused

theorem Chip.done_withRefusal {c : Chip} {n t : Nat} (h : c.DueAlone n t) : c.Done (c.withRefusal n t) n t (c.dueSession n).refused := by
  have hdone := c.done_journalled [] (c.dueSession n).refused (t := t) h.eight h.index
  rw [Chip.overlay_nil] at hdone
  exact hdone

theorem Chip.entry_withRefusal (c : Chip) (n t : Nat) {j x : Nat} (hp : parameter j x) : (c.withRefusal n t).entry j x = c.entry j x := by
  rw [Chip.withRefusal, Chip.entry_journalAt _ _ _ hp, Chip.entry_freeSession _ _ hp]

theorem Chip.leaves_commitInstant_refused {c : Chip} {n t : Nat} (h : c.DueAlone n t)
    (hno : ((c.freeSession n).overlay (c.session n).staged).consistent ((c.session n).staged.map (·.1)) = false) :
    (c.withRefusal n t).leaves parameter (c.commitInstant t) := by
  rw [Chip.commitInstant_alone h, Chip.applyDue_refused hno, ← Chip.withRefusal]
  dsimp only [List.isEmpty_nil]
  rw [if_pos rfl]
  exact Chip.leaves_jrsSetpoints (c.withRefusal n t) t

/-- A due session with a value that breaks a rule is refused whole. -/
theorem Chip.commitInstant_refused {c : Chip} {n t : Nat} (h : c.DueAlone n t)
    (hno : ((c.freeSession n).overlay (c.session n).staged).consistent ((c.session n).staged.map (·.1)) = false) :
    c.Done (c.commitInstant t) n t (c.dueSession n).refused ∧
      ∀ j x, parameter j x → (c.commitInstant t).entry j x = c.entry j x :=
  ⟨Chip.done_congr (Chip.done_withRefusal h) (Chip.leaves_commitInstant_refused h hno), fun j x hp =>
    ((Chip.leaves_commitInstant_refused h hno).2.2 j x hp).trans (c.entry_withRefusal n t hp)⟩

/-! ## The chip at the instant -/

theorem Chip.now_advanceTo (c : Chip) (t : Nat) : (c.advanceTo t).now = max c.now t := by
  unfold Chip.advanceTo
  split
  · next h =>
    rw [Chip.now, Nat.mul_div_cancel _ (Nat.two_pow_pos 32)]
    exact (max_eq_right (Nat.le_of_lt h)).symm
  · next h => exact (max_eq_left (Nat.le_of_not_lt h)).symm

/-- `b` is `c` at the time `t`, the dictionary and the registers as they were. -/
structure Chip.At (c b : Chip) (t : Nat) : Prop where
  odx : b.odx = c.odx
  dict : b.dict = c.dict
  regs : b.regs = c.regs
  now : b.now = max c.now t

theorem Chip.at_advanceTo (c : Chip) (t : Nat) : c.At (c.advanceTo t) t :=
  ⟨Chip.advanceTo_odx _ _, Chip.advanceTo_dict _ _, Chip.advanceTo_regs _ _, c.now_advanceTo t⟩

theorem Chip.at_gridServe (c : Chip) (id t : Nat) : c.At ((c.advanceTo t).gridServe id t) t :=
  ⟨Chip.advanceTo_odx _ _, Chip.advanceTo_dict _ _, Chip.advanceTo_regs _ _, c.now_advanceTo t⟩

section
variable {c b : Chip} {t : Nat} (h : c.At b t)
include h

theorem Chip.At.entry (j x : Nat) : b.entry j x = c.entry j x := by
  unfold Chip.entry
  rw [h.dict]

theorem Chip.At.instants (u : Nat) : b.instants u = c.instants u := by
  unfold Chip.instants
  rw [h.odx]

end

/-- What the statement says of an instant at which the session `n` was due, whatever the entries hold. -/
theorem Chip.Done.told {c b d e : Chip} {n t : Nat} {f : JournalFields} (hat : c.At b t) (h : b.Done d n t f) (ho : e.odx = d.odx)
    (ht : e.tku.clock = d.tku.clock) :
    e.now = max c.now t ∧ (e.session n).state = 0 ∧ (e.session n).staged = [] ∧ (∀ k, k ≠ n → e.session k = c.session k) ∧
      e.odx.journal.head? = some (journalRecord c.odx.nextSeq t f) ∧ e.odx.nextSeq = c.odx.nextSeq + 1 := by
  have hs : ∀ k, e.session k = d.session k := fun k => by rw [Chip.session, Chip.session, ho]
  have hb : ∀ k, b.session k = c.session k := fun k => by rw [Chip.session, Chip.session, hat.odx]
  refine ⟨?_, by rw [hs]; exact h.free.1, by rw [hs]; exact h.free.2, fun k hk => by rw [hs, h.others k hk, hb], ?_, ?_⟩
  · rw [← hat.now, Chip.now, Chip.now, ht, h.clock]
  · rw [ho, h.journal, hat.odx]
  · rw [ho, h.seq, hat.odx]

/-- What a commit instant or a control tick does at `t`, on the chip `b` that the time has reached. -/
structure CommitsAt (i : Instr) (s : State) (b : Chip) (t : Nat) : Prop where
  reached : s.chip.At b t
  answers : ∃ d, (b.commitInstant t).leaves parameter d ∧ exec i s = .next { s with chip := d.only Parts.dictionary s.chip }

/-- COMMIT_INSTANT takes the one instant that something waits for. -/
theorem commitInstant_commitsAt {s : State} {n t : Nat} (hl : s.chip.live = true) (h : s.chip.DueAlone n t) (ht : t ≤ 2 ^ 64) :
    CommitsAt .commitInstant s (s.chip.advanceTo t) t := by
  refine ⟨s.chip.at_advanceTo t, (s.chip.advanceTo t).commitInstant t, Chip.leaves_refl _, ?_⟩
  have hexec : exec .commitInstant s = execCommitInstant s := rfl
  have hmem : ∀ u, u ∈ s.chip.instants (2 ^ 64) ↔ u = t := fun u => by
    rw [Chip.mem_instants_alone h]
    exact and_iff_right ht
  rw [hexec, execCommitInstant, State.runKeeper_live _ _ _ hl]
  generalize s.chip.instants (2 ^ 64) = l at hmem
  match l, hmem with
  | [], hmem => exact absurd ((hmem t).mpr rfl) List.not_mem_nil
  | u :: _, hmem => rw [(hmem u).mp List.mem_cons_self]

/-- CONTROL_TICK takes the next tick, where nothing waits for an instant before it. -/
theorem exec_controlTick {s : State} (hl : s.chip.live = true)
    (h : ∀ u ∈ s.chip.instants s.chip.nextControlTick, ¬ u < s.chip.nextControlTick) :
    exec .controlTick s = .next { s with chip := (((((s.chip.advanceTo s.chip.nextControlTick).gridServe gridControl
      s.chip.nextControlTick).commitInstant s.chip.nextControlTick).gwepoCycle s.chip.nextControlTick)).only Parts.dictionary s.chip } := by
  have hexec : exec .controlTick s = execControlTick s := rfl
  rw [hexec, execControlTick, State.runKeeper_live _ _ _ hl]
  dsimp only
  rw [(s.chip.at_gridServe _ _).instants, List.filter_eq_nil_iff.mpr (fun u hu => by simpa using h u hu)]
  rfl

theorem controlTick_commitsAt {s : State} {n : Nat} (hl : s.chip.live = true) (h : s.chip.DueAlone n s.chip.nextControlTick) :
    CommitsAt .controlTick s ((s.chip.advanceTo s.chip.nextControlTick).gridServe gridControl s.chip.nextControlTick)
      s.chip.nextControlTick := by
  refine ⟨s.chip.at_gridServe _ _, _, Chip.leaves_gwepoCycle _ _, exec_controlTick hl fun u hu => ?_⟩
  rw [((Chip.mem_instants_alone h).mp hu).2]
  exact Nat.lt_irrefl _

section
variable {s : State} {i : Instr} {n t : Nat} {b : Chip} (hc : CommitsAt i s b t) (h : s.chip.DueAlone n t)
include hc

/-- The answer of a command at whose instant the session `n` is done, its entries among those that `P` picks as in `g`. -/
theorem CommitsAt.answers_done {P : Nat → Nat → Prop} {f : JournalFields} {g : Chip} (hp : ∀ j x, P j x → parameter j x)
    (hdone : b.Done (b.commitInstant t) n t f) (hentry : ∀ j x, P j x → (b.commitInstant t).entry j x = g.entry j x) :
    Answers s i (fun d => s.chip.within d Parts.dictionary ∧ d.now = max s.chip.now t ∧ (∀ j x, P j x → d.entry j x = g.entry j x) ∧
      (d.session n).state = 0 ∧ (d.session n).staged = [] ∧ (∀ k, k ≠ n → d.session k = s.chip.session k) ∧
      d.odx.journal.head? = some (journalRecord s.chip.odx.nextSeq t f) ∧ d.odx.nextSeq = s.chip.odx.nextSeq + 1) := by
  obtain ⟨hat, d, hleaves, hexec⟩ := hc
  obtain ⟨hnow, hrest⟩ := Chip.Done.told (e := d.only Parts.dictionary s.chip) hat (Chip.done_congr hdone hleaves)
    (Chip.only_odx_in _ _ _ rfl) (congrArg Tku.clock (Chip.only_tku_in _ _ _ rfl))
  refine ⟨_, hexec, Chip.within_only _ _ _, hnow, fun j x hj => ?_, hrest⟩
  rw [Chip.only_entry_in _ _ _ _ _ rfl, hleaves.2.2 j x (hp j x hj), hentry j x hj]

include h

theorem CommitsAt.answers_applied
    (hok : ((b.freeSession n).overlay (s.chip.session n).staged).consistent ((s.chip.session n).staged.map (·.1)) = true) :
    Answers s i (fun d => s.chip.within d Parts.dictionary ∧ d.now = max s.chip.now t ∧
      (∀ j x, settledParameter j x → d.entry j x = (s.chip.overlay (s.chip.session n).staged).entry j x) ∧
      (d.session n).state = 0 ∧ (d.session n).staged = [] ∧ (∀ k, k ≠ n → d.session k = s.chip.session k) ∧
      d.odx.journal.head? = some (journalRecord s.chip.odx.nextSeq t (s.chip.dueSession n).record) ∧
      d.odx.nextSeq = s.chip.odx.nextSeq + 1) := by
  have hs : s.chip.session n = b.session n := by rw [Chip.session, Chip.session, hc.reached.odx]
  rw [hs] at hok ⊢
  obtain ⟨hdone, hentry⟩ := Chip.commitInstant_applied (Chip.dueAlone_congr hc.reached.odx h) hok
  rw [Chip.dueSession_congr hc.reached.odx] at hdone
  refine hc.answers_done settledParameter_parameter hdone fun j x hj => ?_
  rw [hentry j x hj]
  exact Chip.entry_overlay hj.1.2 _ _ _ (hc.reached.entry j x)

theorem CommitsAt.answers_refused
    (hno : ((b.freeSession n).overlay (s.chip.session n).staged).consistent ((s.chip.session n).staged.map (·.1)) = false) :
    Answers s i (fun d => s.chip.within d Parts.dictionary ∧ d.now = max s.chip.now t ∧
      (∀ j x, parameter j x → d.entry j x = s.chip.entry j x) ∧
      (d.session n).state = 0 ∧ (d.session n).staged = [] ∧ (∀ k, k ≠ n → d.session k = s.chip.session k) ∧
      d.odx.journal.head? = some (journalRecord s.chip.odx.nextSeq t (s.chip.dueSession n).refused) ∧
      d.odx.nextSeq = s.chip.odx.nextSeq + 1) := by
  have hs : s.chip.session n = b.session n := by rw [Chip.session, Chip.session, hc.reached.odx]
  rw [hs] at hno
  obtain ⟨hdone, hentry⟩ := Chip.commitInstant_refused (Chip.dueAlone_congr hc.reached.odx h) hno
  rw [Chip.dueSession_congr hc.reached.odx] at hdone
  exact hc.answers_done (fun _ _ hj => hj) hdone fun j x hj => (hentry j x hj).trans (hc.reached.entry j x)

end

/-! ## An instant at which nothing is due -/

/-- No session and no implicit write waits for its instant. -/
structure Chip.NoneDue (c : Chip) : Prop where
  sessions : ∀ k ∈ c.odx.sessions, k.state ≠ 2
  implicit : c.odx.implicit = []

theorem Chip.noneDue_congr {c d : Chip} (h : d.odx = c.odx) (hc : c.NoneDue) : d.NoneDue :=
  ⟨by rw [h]; exact hc.sessions, by rw [h]; exact hc.implicit⟩

theorem Chip.instants_of_noneDue {c : Chip} (h : c.NoneDue) (t : Nat) : c.instants t = [] := by
  refine List.eq_nil_iff_forall_not_mem.mpr fun u hu => ?_
  obtain ⟨s, hs, hstate, -⟩ := (Chip.mem_instants h.implicit).mp hu
  exact h.sessions s hs hstate

theorem Chip.session_of_noneDue {c : Chip} (h : c.NoneDue) (n : Nat) : (c.session n).state ≠ 2 := by
  by_cases hn : n < c.odx.sessions.length
  · exact h.sessions _ (Chip.mem_sessions.mpr ⟨n, hn, rfl⟩)
  · have hfree : c.session n = ⟨0, 0, 0, 0, 0, 0, [], none, none⟩ := by
      unfold Chip.session nth
      simp [Nat.le_of_not_lt hn]
    rw [hfree]
    decide

theorem Chip.due_of_noneDue {c : Chip} (h : c.NoneDue) (t : Nat) : c.due t = [] := by
  have hnone : ∀ k ∈ List.range 8, ¬ ((c.session k).state == 2 && decide ((c.session k).commitAt ≤ t)) = true := fun k _ => by
    rw [beq_eq_false_iff_ne.mpr (Chip.session_of_noneDue h k), Bool.false_and]
    exact Bool.false_ne_true
  rw [Chip.due, List.filter_eq_nil_iff.mpr hnone, h.implicit]
  exact List.mergeSort_nil

theorem Chip.commitInstant_of_noneDue {c : Chip} (h : c.NoneDue) (t : Nat) : c.commitInstant t = c.jrsSetpoints t := by
  rw [Chip.commitInstant, Chip.due_of_noneDue h]
  rfl

theorem commitInstant_noneDue {s : State} (hl : s.chip.live = true) (h : s.chip.NoneDue) :
    Answers s .commitInstant (fun d => d = s.chip) := by
  have hexec : exec .commitInstant s = execCommitInstant s := rfl
  refine ⟨s.chip, ?_, rfl⟩
  rw [hexec, execCommitInstant, State.runKeeper_live _ _ _ hl, Chip.instants_of_noneDue h]
  exact congrArg (fun d => Host.Outcome.next { s with chip := d }) (Chip.within_refl _ _)

/-- R32: a control tick lies on a multiple of the period. -/
theorem Chip.nextControlTick_mod (c : Chip) : c.nextControlTick % c.controlPeriod = 0 := by
  have htime : ∀ k, c.controlRule.time k = k * c.controlPeriod := fun k => by
    show 0 + (k * c.controlPeriod + 1 - 1) / 1 = _
    omega
  rw [Chip.nextControlTick, Chip.gridNext, htime]
  exact Nat.mul_mod_left _ _

/-- Queue set-points count in JRS_QUEUE_IGN_CNT alone. -/
theorem Chip.jrsSetpoints_rd (c : Chip) (t : Nat) (f : Field) (i : Nat) (h : R.JRS_QUEUE_IGN_CNT_COUNT.apart 0 f i = true) :
    (c.jrsSetpoints t).rd f i = c.rd f i := by
  have hregs : ∀ b d : Chip, d.regs = b.regs → d.rd f i = b.rd f i := fun b d hr => by rw [Chip.rd, Chip.rd, hr]
  unfold Chip.jrsSetpoints
  refine foldl_keeps _ (·.rd f i) (fun b e => ?_) _ c
  dsimp only
  split
  · rfl
  · split
    · split
      · exact hregs _ _ (by rw [Chip.setLanePv, Chip.setEntry_regs, Chip.setLanePv, Chip.setEntry_regs]; rfl)
      · exact hregs _ _ rfl
    · rw [Chip.count, Chip.rd_wr_apart _ _ _ _ _ _ h]
      exact hregs _ _ rfl

/-- A Gwepo cycle starts (R529). -/
theorem Chip.gwepoCycle_started {c : Chip} {t : Nat} (he : c.on R.FLD_CTRL_ENABLE = true) (hg : c.gwepoOn = true) :
    (c.gwepoCycle t).fld.cycle = some t ∧ (c.gwepoCycle t).rd R.FLD_CYCLE_CYCLE = t / c.controlPeriod % 2 ^ 32 := by
  have hregs : ∀ b : Chip, b.copyVerdict.regs = b.regs := fun b => by
    unfold Chip.copyVerdict
    dsimp only
    split
    · rfl
    · exact Chip.setEntry_regs _ _ _ _
  have hon : ¬ (!(c.on R.FLD_CTRL_ENABLE && c.gwepoOn)) = true := by rw [he, hg]; decide
  unfold Chip.gwepoCycle
  rw [if_neg hon]
  refine ⟨rfl, ?_⟩
  show Chip.rd (c.wr R.FLD_CYCLE_CYCLE (t / c.controlPeriod)).copyVerdict R.FLD_CYCLE_CYCLE 0 = _
  rw [Chip.rd, hregs, ← Chip.rd, Chip.rd_wr_self]
  rfl

theorem controlTick_noneDue {s : State} (hl : s.chip.live = true) (h : s.chip.NoneDue) :
    Answers s .controlTick (fun d => s.chip.within d Parts.dictionary ∧ d.odx = s.chip.odx ∧
      d.now = max s.chip.now s.chip.nextControlTick ∧ s.chip.nextControlTick % s.chip.controlPeriod = 0 ∧
      (∀ j x, j < 0x6000 → x < 256 → d.entry j x = s.chip.entry j x) ∧
      (s.chip.on R.FLD_CTRL_ENABLE = true → s.chip.gwepoOn = true → d.fld.cycle = some s.chip.nextControlTick ∧
        d.rd R.FLD_CYCLE_CYCLE = s.chip.nextControlTick / s.chip.controlPeriod % 2 ^ 32)) := by
  have hexec := exec_controlTick hl fun u hu => by
    rw [Chip.instants_of_noneDue h] at hu
    exact absurd hu List.not_mem_nil
  generalize ht : s.chip.nextControlTick = t at hexec
  have hat := s.chip.at_gridServe gridControl t
  generalize (s.chip.advanceTo t).gridServe gridControl t = b at hexec hat
  rw [Chip.commitInstant_of_noneDue (Chip.noneDue_congr hat.odx h)] at hexec
  have hset := b.leaves_jrsSetpoints t
  have hentry : ∀ j x, parameter j x → (b.jrsSetpoints t).entry j x = s.chip.entry j x := fun j x hp =>
    (hset.2.2 j x hp).trans (hat.entry j x)
  have henable : (b.jrsSetpoints t).on R.FLD_CTRL_ENABLE = s.chip.on R.FLD_CTRL_ENABLE := by
    rw [Chip.on, Chip.jrsSetpoints_rd _ _ _ _ (by decide), Chip.rd, hat.regs]
    rfl
  have hmaster : (b.jrsSetpoints t).gwepoOn = s.chip.gwepoOn := by
    rw [Chip.gwepoOn, Chip.gwepoOn, Chip.entryOn, Chip.entryOn, hentry _ _ ⟨by decide, by decide⟩]
  have hperiod : (b.jrsSetpoints t).controlPeriod = s.chip.controlPeriod := by
    rw [Chip.controlPeriod, Chip.controlPeriod, hentry _ _ ⟨by decide, by decide⟩]
  obtain ⟨hodx, hclock, hparams⟩ := Chip.leaves_trans hset ((b.jrsSetpoints t).leaves_gwepoCycle t)
  refine ⟨_, hexec, Chip.within_only _ _ _, ?_, ?_, ht ▸ s.chip.nextControlTick_mod, fun j x hj hx => ?_, fun he hg => ?_⟩
  · rw [Chip.only_odx_in _ _ _ rfl, hodx, hat.odx]
  · rw [← hat.now, Chip.now, Chip.now, Chip.only_tku_in _ _ _ rfl, hclock]
  · rw [Chip.only_entry_in _ _ _ _ _ rfl, hparams j x ⟨hj, hx⟩, hat.entry]
  · obtain ⟨hcycle, hcount⟩ := Chip.gwepoCycle_started (t := t) (henable.trans he) (hmaster.trans hg)
    rw [Chip.only_fld_in _ _ _ rfl, Chip.only_rd_in _ _ _ _ _ rfl, ← hperiod]
    exact ⟨hcycle, hcount⟩

/-- Settles O10: what is due at the instant is one session or nothing; freeing it, staging its values and the record are the whole
change of the sessions and the journal, and no block's work at the instant reaches a parameter. -/
theorem commits : Obligations.Commits := by
  unfold Obligations.Commits
  refine ⟨fun s i n t b hl h8 hn hstate hinstant halone himplicit hi => ?_, fun s hl hsessions himplicit => ?_⟩
  · have h : s.chip.DueAlone n t := ⟨h8, hn, hstate, hinstant, halone, himplicit⟩
    have hc : CommitsAt i s b t := by
      rcases hi with ⟨rfl, ht, rfl⟩ | ⟨rfl, rfl, rfl⟩
      · exact commitInstant_commitsAt hl h ht
      · exact controlTick_commitsAt hl h
    constructor
    · intro hok
      obtain ⟨d, hexec, hwithin, hnow, hentry, hrest⟩ := hc.answers_applied h hok
      exact ⟨d, hexec, hwithin, hnow, fun j x hj hx hbut => hentry j x ⟨⟨hj, hx⟩, hbut⟩, hrest⟩
    · intro hno
      obtain ⟨d, hexec, hwithin, hnow, hentry, hrest⟩ := hc.answers_refused h hno
      exact ⟨d, hexec, hwithin, hnow, fun j x hj hx => hentry j x ⟨hj, hx⟩, hrest⟩
  · exact ⟨commitInstant_noneDue hl ⟨hsessions, himplicit⟩, controlTick_noneDue hl ⟨hsessions, himplicit⟩⟩

end Sys2Proof.Machine

/-! # Conversions round to the spacing of the target, and keep what it holds (R37 to R40, R51, R56, R58) -/

namespace Sys2Proof.Machine

/-! ## The multiple that the rounding names -/

/-- The multiple of `2^q` that the rounding names for the magnitude `m * 2^e` (R51). -/
def roundedTo (rnd m : Nat) (e q : Int) (g : BitVec 32) : Nat :=
  let (k, num, sh) := splitAt m e q
  if roundUp rnd k num sh g then k + 1 else k

theorem splitAt_of_le (m : Nat) {e q : Int} (h : q ≤ e) : splitAt m e q = (m * 2 ^ (e - q).toNat, 0, 0) := by
  simp [splitAt, h, Nat.shiftLeft_eq]

theorem splitAt_of_lt (m : Nat) {e q : Int} (h : e < q) :
    splitAt m e q = (m / 2 ^ (q - e).toNat, m % 2 ^ (q - e).toNat, (q - e).toNat) := by
  simp [splitAt, Int.not_le.mpr h, Nat.shiftRight_eq_div_pow]

/-- A difference of exponents that is a natural number, as a power. -/
theorem two_pow_toNat_sub {a b : Int} (h : b ≤ a) : ((2 ^ (a - b).toNat : Nat) : ℚ) = 2 ^ a / 2 ^ b := by
  rw [← zpow_sub₀ two_ne_zero, Nat.cast_pow, ← zpow_natCast, Int.toNat_sub_of_le h, Nat.cast_ofNat]

/-- The two parts of `splitAt` make up the value, and the discarded one is a proper fraction. -/
theorem splitAt_spec (m : Nat) (e q : Int) : ∃ k num sh, splitAt m e q = (k, num, sh) ∧
    (num : ℚ) / (2 ^ sh : Nat) < 1 ∧ (m * 2 ^ e / 2 ^ q : ℚ) = k + (num : ℚ) / (2 ^ sh : Nat) := by
  rcases le_or_gt q e with h | h
  · refine ⟨_, _, _, splitAt_of_le m h, by norm_num, ?_⟩
    rw [Nat.cast_mul, two_pow_toNat_sub h]
    simp [mul_div_assoc]
  · have hrest : m % 2 ^ (q - e).toNat < 2 ^ (q - e).toNat := Nat.mod_lt _ (by positivity)
    refine ⟨_, _, _, splitAt_of_lt m h, (div_lt_one (by positivity)).mpr (by exact_mod_cast hrest), ?_⟩
    have hsplit : (m : ℚ) = (2 ^ (q - e).toNat : Nat) * (m / 2 ^ (q - e).toNat : Nat) + (m % 2 ^ (q - e).toNat : Nat) := by
      exact_mod_cast (Nat.div_add_mod m _).symm
    have hpos : ((2 ^ (q - e).toNat : Nat) : ℚ) ≠ 0 := by positivity
    calc (m * 2 ^ e / 2 ^ q : ℚ) = m / (2 ^ (q - e).toNat : Nat) := by
          rw [two_pow_toNat_sub h.le]; field_simp
      _ = _ := by
          rw [eq_comm, eq_div_iff hpos, add_mul, div_mul_cancel₀ _ hpos, mul_comm]; exact hsplit.symm

/-- The model's decision to round up is R51's, on the discarded fraction. -/
theorem roundUp_iff {rnd num sh : Nat} (k : Nat) (g : BitVec 32) (hrnd : rnd ≤ 2) :
    roundUp rnd k num sh g = true ↔ roundsUp rnd k ((num : ℚ) / (2 ^ sh : Nat)) g := by
  have hpos : (0 : ℚ) < (2 ^ sh : Nat) := by positivity
  have hhalf : 1 / 2 < (num : ℚ) / (2 ^ sh : Nat) ↔ 2 ^ sh < 2 * num := by
    rw [div_lt_div_iff₀ two_pos hpos, one_mul, mul_comm (num : ℚ)]; exact_mod_cast Iff.rfl
  have htie : (num : ℚ) / (2 ^ sh : Nat) = 1 / 2 ↔ 2 * num = 2 ^ sh := by
    rw [div_eq_div_iff hpos.ne' two_ne_zero, one_mul, mul_comm (num : ℚ)]; exact_mod_cast Iff.rfl
  have hfloor : ⌊(num : ℚ) / (2 ^ sh : Nat) * 65536⌋ = ((num * 65536 / 2 ^ sh : Nat) : ℤ) := by
    rw [div_mul_eq_mul_div, Int.natCast_div, ← Rat.floor_natCast_div_natCast, Nat.cast_mul, Nat.cast_ofNat]
  have hdiscards : 2 * num = 2 ^ sh → 0 < sh := fun h => Nat.pos_of_ne_zero fun h0 => by
    rw [h0] at h
    omega
  rw [roundsUp, hhalf, htie, hfloor]
  interval_cases rnd
  · simp only [roundUp, Bool.or_eq_true, Bool.and_eq_true, decide_eq_true_eq]
    tauto
  · simp [roundUp]
  · simp only [roundUp, decide_eq_true_eq, ge_iff_le]
    norm_num
    norm_cast

/-- Rounding gives the integer part of the quotient, or one more. -/
theorem roundedTo_eq_splitAt (rnd m : Nat) (e q : Int) (g : BitVec 32) :
    roundedTo rnd m e q g = (splitAt m e q).1 ∨ roundedTo rnd m e q g = (splitAt m e q).1 + 1 := by
  simp only [roundedTo]
  split <;> simp

/-- R51's `k` and `up` name the multiple that the model rounds to. -/
theorem roundedTo_eq {rnd m k k' : Nat} {e q : Int} {g : BitVec 32} (hrnd : rnd ≤ 2)
    (hk : (k : ℤ) = ⌊(m * 2 ^ e / 2 ^ q : ℚ)⌋) (hup : roundsUp rnd k (m * 2 ^ e / 2 ^ q - k) g → k' = k + 1)
    (hdown : ¬ roundsUp rnd k (m * 2 ^ e / 2 ^ q - k) g → k' = k) : roundedTo rnd m e q g = k' := by
  obtain ⟨j, num, sh, hsplit, hproper, hvalue⟩ := splitAt_spec m e q
  have hj : k = j := by
    rw [hvalue, Int.floor_natCast_add, Int.floor_eq_zero_iff.mpr ⟨by positivity, hproper⟩] at hk
    exact_mod_cast hk
  subst hj
  rw [hvalue, add_sub_cancel_left, ← roundUp_iff k g hrnd] at hup hdown
  simp only [roundedTo, hsplit]
  split
  · exact (hup ‹_›).symm
  · exact (hdown ‹_›).symm

/-- Nothing rounds up where nothing is discarded. -/
theorem not_roundsUp_zero {rnd : Nat} (k : Nat) (g : BitVec 32) : ¬ roundsUp rnd k 0 g := by
  have hg : (g >>> 16).toNat < 65536 := by
    rw [BitVec.toNat_ushiftRight, Nat.shiftRight_eq_div_pow]
    omega
  rintro (⟨-, h | ⟨h, -⟩⟩ | ⟨-, h⟩)
  · norm_num at h
  · norm_num at h
  · rw [zero_mul, Int.floor_zero] at h
    omega

/-- A magnitude on the grid stays where it is, whatever the rounding. -/
theorem roundedTo_of_le {rnd : Nat} (m : Nat) {e q : Int} (g : BitVec 32) (hrnd : rnd ≤ 2) (h : q ≤ e) :
    roundedTo rnd m e q g = m * 2 ^ (e - q).toNat := by
  have hnot : ¬ roundUp rnd (m * 2 ^ (e - q).toNat) 0 0 g = true := by
    rw [roundUp_iff _ g hrnd, Nat.cast_zero, zero_div]
    exact not_roundsUp_zero _ g
  simp only [roundedTo, splitAt_of_le m h]
  exact if_neg hnot

/-- Rounding does not cross a multiple of the spacing. -/
theorem le_roundedTo {a m : Nat} {e q : Int} (rnd : Nat) (g : BitVec 32) (h : (a : ℚ) ≤ m * 2 ^ e / 2 ^ q) :
    a ≤ roundedTo rnd m e q g := by
  obtain ⟨k, num, sh, hsplit, hproper, hvalue⟩ := splitAt_spec m e q
  have hlt : (a : ℚ) < k + 1 := by linarith
  have hak : a < k + 1 := by exact_mod_cast hlt
  have := roundedTo_eq_splitAt rnd m e q g
  rw [hsplit] at this
  omega

theorem roundedTo_le {b m : Nat} {e q : Int} (rnd : Nat) (g : BitVec 32) (h : (m * 2 ^ e / 2 ^ q : ℚ) < b) :
    roundedTo rnd m e q g ≤ b := by
  obtain ⟨k, num, sh, hsplit, -, hvalue⟩ := splitAt_spec m e q
  have hfrac : (0 : ℚ) ≤ (num : ℚ) / (2 ^ sh : Nat) := by positivity
  have hlt : (k : ℚ) < b := by linarith
  have hkb : k < b := by exact_mod_cast hlt
  have := roundedTo_eq_splitAt rnd m e q g
  rw [hsplit] at this
  omega

/-! ## What a conversion gives -/

/-- The integer of magnitude `k` with the sign `n`. -/
def withSign (n : Bool) (k : Nat) : Int := if n then -(k : Int) else k

/-- A conversion gave the finite value of magnitude `a` with the sign `n`, and the flags `fl`; `v` is what its result decodes to. -/
def Gives (v : Num) (flags : Flags) (n : Bool) (a : ℚ) (fl : Flags) : Prop :=
  v.isFinite = true ∧ v.rat = (if n then -1 else 1) * a ∧ flags = fl

theorem rat_ofScaled (i e : Int) : (Num.ofScaled i e).rat = i * 2 ^ e := by
  have habs : (if i < 0 then -1 else 1) * (i.natAbs : ℚ) = i := by
    rw [Nat.cast_natAbs]
    split
    · rw [abs_of_neg ‹_›]; push_cast; ring
    · rw [abs_of_nonneg (not_lt.mp ‹_›), one_mul]
  simp only [Num.ofScaled, Num.rat, decide_eq_true_eq, habs]

/-! ## Integers and Q32 -/

/-- The integer that a pattern of an integer format stands for. -/
def intValue (w : Nat) (signed : Bool) (x : Nat) : Int := if signed then toSigned w x else bits x 0 w

theorem decodeElem_int {code w : Nat} {s : Bool} (r x : Nat) (h : fmtKind code = .int w s) :
    decodeElem code r x = .ofScaled (intValue w s x) 0 := by
  cases s <;> simp [decodeElem, h, intValue, Num.ofInt, Num.ofNat, Num.ofScaled]

theorem decodeElem_q32 {code : Nat} (r x : Nat) (h : fmtKind code = .q32) :
    decodeElem code r x = .ofScaled (intValue 32 true x) (-(r : Int)) := by
  simp [decodeElem, h, intValue]

/-- Two's complement adds `2^w` to a negative value. -/
theorem ofSigned_eq {w : Nat} {v : Int} (hlo : -((2 ^ w : Nat) : Int) ≤ v) (hhi : v < (2 ^ w : Nat)) :
    (ofSigned w v : Int) = if v < 0 then v + (2 ^ w : Nat) else v := by
  have hpos : (0 : Int) < (2 ^ w : Nat) := by positivity
  rw [ofSigned, Int.toNat_of_nonneg (Int.emod_nonneg _ hpos.ne')]
  split
  · rw [← Int.add_emod_right]
    exact Int.emod_eq_of_lt (by omega) (by omega)
  · exact Int.emod_eq_of_lt (by omega) hhi

theorem intValue_bounds {w : Nat} (s : Bool) (x : Nat) (hw : 0 < w) :
    -(intLimit w s true : Int) ≤ intValue w s x ∧ intValue w s x ≤ intLimit w s false := by
  have hhalf : 2 ^ w = 2 * 2 ^ (w - 1) := by rw [← pow_succ', Nat.sub_add_cancel hw]
  have hlt : x % 2 ^ w < 2 ^ w := Nat.mod_lt _ (by positivity)
  cases s
  · simp only [intValue, intLimit, bits, Nat.shiftRight_zero, Bool.false_eq_true, if_false, if_true]
    omega
  · simp only [intValue, intLimit, toSigned, if_true, Bool.false_eq_true, if_false]
    split <;> omega

theorem intValue_ofSigned {w : Nat} (s : Bool) {v : Int} (hw : 0 < w)
    (hlo : -(intLimit w s true : Int) ≤ v) (hhi : v ≤ intLimit w s false) : intValue w s (ofSigned w v) = v := by
  have hhalf : 2 ^ w = 2 * 2 ^ (w - 1) := by rw [← pow_succ', Nat.sub_add_cancel hw]
  have hpos : 0 < 2 ^ (w - 1) := by positivity
  cases s
  · simp only [intLimit, Bool.false_eq_true, if_false, if_true] at hlo hhi
    have := ofSigned_eq (w := w) (v := v) (by omega) (by omega)
    simp only [intValue, bits, Nat.shiftRight_zero, Bool.false_eq_true, if_false]
    rw [Nat.mod_eq_of_lt] <;> omega
  · simp only [intLimit, Bool.false_eq_true, if_false, if_true] at hlo hhi
    have := ofSigned_eq (w := w) (v := v) (by omega) (by omega)
    simp only [intValue, toSigned, if_true]
    rw [Nat.mod_eq_of_lt (by omega)]
    split <;> omega

theorem ofSigned_intValue {w x : Nat} (s : Bool) (hx : x < 2 ^ w) : ofSigned w (intValue w s x) = x := by
  have hvalue : intValue w s x = x ∨ intValue w s x = (x : Int) - (2 ^ w : Nat) := by
    cases s
    · simp [intValue, bits, Nat.mod_eq_of_lt hx]
    · simp only [intValue, toSigned, Nat.mod_eq_of_lt hx, if_true]
      split
      · exact .inl rfl
      · exact .inr rfl
  rcases hvalue with h | h <;> rw [h, ← Nat.cast_inj (R := Int), ofSigned_eq (by omega) (by omega)]
  · rw [if_neg (by omega)]
  · rw [if_pos (by omega), Int.sub_add_cancel]

/-- R51 and R56 for an integer format: the rounded multiple with its sign, or the limit of that sign. -/
theorem encodeInt_fin (w : Nat) (s : Bool) (q : Int) (rnd : Nat) (g : BitVec 32) (n : Bool) {m : Nat} (e : Int) (hm : m ≠ 0) :
    encodeInt w s q rnd g (.fin n m e) =
      if intLimit w s n < roundedTo rnd m e q g then (ofSigned w (withSign n (intLimit w s n)), fOverflowSat)
      else (ofSigned w (withSign n (roundedTo rnd m e q g)), if roundedTo rnd m e q g = 0 then fUnderflow else 0) :=
  if_neg hm

/-- Every integer whose magnitude is within the limit of its sign comes back from its pattern. -/
theorem intValue_withSign {w k : Nat} (s n : Bool) (hw : 0 < w) (hk : k ≤ intLimit w s n) :
    intValue w s (ofSigned w (withSign n k)) = withSign n k := by
  apply intValue_ofSigned s hw <;> cases n <;> simp only [withSign, if_true, Bool.false_eq_true, if_false] <;> omega

/-- The value that the pattern of `k` with the sign `n` decodes to. -/
theorem gives_withSign {w k : Nat} (s n : Bool) (q : Int) (fl : Flags) (hw : 0 < w) (hk : k ≤ intLimit w s n) :
    Gives (.ofScaled (intValue w s (ofSigned w (withSign n k))) q) fl n (k * 2 ^ q) fl := by
  refine ⟨rfl, ?_, rfl⟩
  rw [intValue_withSign s n hw hk, rat_ofScaled]
  cases n <;> simp [withSign]

theorem withSign_natAbs (v : Int) : withSign (decide (v < 0)) v.natAbs = v := by
  by_cases h : v < 0 <;> simp only [withSign, h, decide_true, decide_false, if_true, Bool.false_eq_true, if_false] <;> omega

/-- A pattern of an integer format comes back from its value at the format's own spacing. -/
theorem encodeInt_decoded {w x rnd : Nat} (s : Bool) (q : Int) (g : BitVec 32) (hw : 0 < w) (hx : x < 2 ^ w) (hrnd : rnd ≤ 2) :
    encodeInt w s q rnd g (.ofScaled (intValue w s x) q) = (x, 0) := by
  have hback := ofSigned_intValue s hx
  obtain ⟨hlo, hhi⟩ := intValue_bounds s x hw
  generalize intValue w s x = v at *
  rcases eq_or_ne v 0 with rfl | h0
  · rw [← hback]
    simp [encodeInt, Num.ofScaled, ofSigned]
  · have hk : roundedTo rnd v.natAbs q q g = v.natAbs := by simp [roundedTo_of_le _ g hrnd le_rfl]
    have hlimit : ¬ intLimit w s (decide (v < 0)) < v.natAbs := by
      by_cases hneg : v < 0 <;> simp only [hneg, decide_true, decide_false] <;> omega
    rw [Num.ofScaled, encodeInt_fin _ _ _ _ _ _ _ (Int.natAbs_ne_zero.mpr h0), hk, if_neg hlimit, withSign_natAbs, hback,
      if_neg (Int.natAbs_ne_zero.mpr h0)]

/-! ## Float formats -/

/-- The patterns of a float format's limits lie within its magnitude bits, beyond them stand infinity and NaN. -/
structure FloatFmt.Proper (f : FloatFmt) : Prop where
  maxBits_lt : f.maxBits < 2 ^ (f.ebits + f.mbits)
  nanBits_range : f.hasNan = true → f.maxBits < f.nanBits ∧ f.nanBits < 2 ^ (f.ebits + f.mbits)
  infinity : f.hasInf = true → f.maxBits + 1 < 2 ^ (f.ebits + f.mbits) ∧ (f.maxBits + 1) % 2 ^ f.mbits = 0

theorem fmtKind_flt {code : Nat} {f : FloatFmt} (h : fmtKind code = .flt f) :
    f.Proper ∧ fmtWidth code = f.ebits + f.mbits + 1 ∧ (f.hasNan = true ↔ code ∈ [0x8, 0x9, 0xA, 0xB, 0xC]) ∧
      (f.hasNan = true → (f.hasInf = true ↔ code ≠ 0x8)) := by
  unfold fmtKind at h
  split at h <;> cases h <;> exact ⟨⟨by decide, by decide, by decide⟩, by decide, by decide, by decide⟩

/-- The sign bit of a float format. -/
def FloatFmt.signBit (f : FloatFmt) (n : Bool) : Nat := if n then 2 ^ (f.ebits + f.mbits) else 0

theorem FloatFmt.signBit_eq (f : FloatFmt) (n : Bool) : f.signBit n = 2 ^ f.mbits * (2 ^ f.ebits * n.toNat) := by
  cases n <;> simp [FloatFmt.signBit, pow_add, mul_comm]

/-- The significand that magnitude bits stand for: with the leading one of a normal value. -/
def FloatFmt.significand (f : FloatFmt) (mag : Nat) : Nat :=
  if mag / 2 ^ f.mbits = 0 then mag else mag % 2 ^ f.mbits + 2 ^ f.mbits

/-- The exponent of that significand's last bit: exponent fields 0 and 1 share one. -/
def FloatFmt.exponent (f : FloatFmt) (mag : Nat) : Int := (mag / 2 ^ f.mbits - 1 : Nat) + f.emin - f.mbits

/-- The value of magnitude bits. -/
def FloatFmt.magnitude (f : FloatFmt) (mag : Nat) : ℚ := f.significand mag * 2 ^ f.exponent mag

/-- What a float format's pattern stands for, by its sign bit and its magnitude bits (R39). -/
theorem FloatFmt.decode_signBit_add (f : FloatFmt) (n : Bool) {mag : Nat} (h : mag < 2 ^ (f.ebits + f.mbits)) :
    f.decode (f.signBit n + mag) = if f.maxBits < mag then (if f.hasInf && mag % 2 ^ f.mbits == 0 then .inf n else .nan)
      else .fin n (f.significand mag) (f.exponent mag) := by
  have hmag : mag / 2 ^ f.mbits < 2 ^ f.ebits := by
    rw [Nat.div_lt_iff_lt_mul (by positivity), ← pow_add]; exact h
  have hsign : (f.signBit n + mag).testBit (f.ebits + f.mbits) = n := by
    cases n
    · simp [FloatFmt.signBit, Nat.testBit_lt_two_pow h]
    · simp [FloatFmt.signBit, Nat.testBit_two_pow_add_eq, Nat.testBit_lt_two_pow h]
  have hfield : bits (f.signBit n + mag) f.mbits f.ebits = mag / 2 ^ f.mbits := by
    rw [bits, Nat.shiftRight_eq_div_pow, f.signBit_eq, Nat.mul_add_div (by positivity), Nat.mul_add_mod, Nat.mod_eq_of_lt hmag]
  have hlow : bits (f.signBit n + mag) 0 f.mbits = mag % 2 ^ f.mbits := by
    rw [bits, Nat.shiftRight_zero, f.signBit_eq, Nat.mul_add_mod]
  have hall : bits (f.signBit n + mag) 0 (f.ebits + f.mbits) = mag := by
    rw [bits, Nat.shiftRight_zero, f.signBit_eq, ← mul_assoc, ← pow_add, add_comm f.mbits, Nat.mul_add_mod, Nat.mod_eq_of_lt h]
  simp only [FloatFmt.decode, hsign, hfield, hlow, hall]
  split
  · rfl
  · by_cases h0 : mag / 2 ^ f.mbits = 0
    · have hsmall : mag < 2 ^ f.mbits := (Nat.div_eq_zero_iff_lt (by positivity)).mp h0
      simp [FloatFmt.significand, FloatFmt.exponent, FloatFmt.emin, h0, Nat.mod_eq_of_lt hsmall]
    · simp only [FloatFmt.significand, FloatFmt.exponent, FloatFmt.emin, if_neg h0]
      congr 1
      omega

theorem FloatFmt.decode_fin (f : FloatFmt) (hf : f.Proper) (n : Bool) {mag : Nat} (h : mag ≤ f.maxBits) :
    f.decode (f.signBit n + mag) = .fin n (f.significand mag) (f.exponent mag) := by
  rw [f.decode_signBit_add n (h.trans_lt hf.maxBits_lt), if_neg h.not_gt]

/-- Magnitude bits are the sum of what their exponent field and their significand contribute. -/
theorem FloatFmt.exponent_add_significand (f : FloatFmt) (mag : Nat) :
    (mag / 2 ^ f.mbits - 1) * 2 ^ f.mbits + f.significand mag = mag := by
  unfold FloatFmt.significand
  split
  · simp [*]
  · obtain ⟨b, hb⟩ := Nat.exists_eq_succ_of_ne_zero ‹_›
    have := Nat.div_add_mod mag (2 ^ f.mbits)
    rw [hb] at this ⊢
    rw [Nat.succ_sub_one]
    linarith

theorem FloatFmt.significand_bounds (f : FloatFmt) (mag : Nat) :
    (mag / 2 ^ f.mbits - 1 = 0 ∨ 2 ^ f.mbits ≤ f.significand mag) ∧ f.significand mag < 2 ^ (f.mbits + 1) := by
  have hmod : mag % 2 ^ f.mbits < 2 ^ f.mbits := Nat.mod_lt _ (by positivity)
  unfold FloatFmt.significand
  split
  · have : mag < 2 ^ f.mbits := (Nat.div_eq_zero_iff_lt (by positivity)).mp ‹_›
    omega
  · omega

theorem FloatFmt.magnitude_normal (f : FloatFmt) (b : Nat) {j : Nat} (hj : j < 2 ^ f.mbits) :
    f.magnitude (2 ^ f.mbits * (b + 1) + j) = (j + 2 ^ f.mbits : Nat) * 2 ^ ((b : Int) + f.emin - f.mbits) := by
  have hdiv : (2 ^ f.mbits * (b + 1) + j) / 2 ^ f.mbits = b + 1 := by
    rw [Nat.mul_add_div (by positivity), Nat.div_eq_of_lt hj, add_zero]
  rw [FloatFmt.magnitude, FloatFmt.significand, FloatFmt.exponent, hdiv, if_neg b.succ_ne_zero, Nat.mul_add_mod,
    Nat.mod_eq_of_lt hj, Nat.add_sub_cancel]

/-- The value of the magnitude bits to which an exponent's offset `b` and a significand add up; the significand may have carried. -/
theorem FloatFmt.magnitude_of_split (f : FloatFmt) {b k : Nat} (hlo : b = 0 ∨ 2 ^ f.mbits ≤ k) (hhi : k ≤ 2 ^ (f.mbits + 1)) :
    f.magnitude (b * 2 ^ f.mbits + k) = k * 2 ^ ((b : Int) + f.emin - f.mbits) := by
  have hpos : 0 < 2 ^ f.mbits := by positivity
  rw [pow_succ] at hhi
  rcases (by omega : (b = 0 ∧ k < 2 ^ f.mbits) ∨ (2 ^ f.mbits ≤ k ∧ k < 2 ^ f.mbits * 2) ∨ k = 2 ^ f.mbits * 2) with
    ⟨rfl, hk⟩ | ⟨hk, hk'⟩ | rfl
  · simp [FloatFmt.magnitude, FloatFmt.significand, FloatFmt.exponent, Nat.div_eq_of_lt hk]
  · have hnormal := f.magnitude_normal b (j := k - 2 ^ f.mbits) (by omega)
    rw [Nat.sub_add_cancel hk] at hnormal
    rw [← hnormal, mul_comm b, Nat.mul_succ, add_assoc, Nat.add_sub_cancel' hk]
  · have hnormal := f.magnitude_normal (b + 1) hpos
    rw [(by ring : b * 2 ^ f.mbits + 2 ^ f.mbits * 2 = 2 ^ f.mbits * (b + 1 + 1) + 0), hnormal,
      (by push_cast; ring : ((b + 1 : Nat) : Int) + f.emin - f.mbits = b + f.emin - f.mbits + 1), zpow_add_one₀ two_ne_zero]
    push_cast
    ring

theorem FloatFmt.magnitude_succ (f : FloatFmt) (mag : Nat) : f.magnitude (mag + 1) = f.magnitude mag + 2 ^ f.exponent mag := by
  obtain ⟨hlo, hhi⟩ := f.significand_bounds mag
  have hsucc := f.magnitude_of_split (hlo.imp id (Nat.le_succ_of_le)) hhi
  rw [Nat.add_succ, f.exponent_add_significand] at hsucc
  rw [hsucc, FloatFmt.magnitude, ← FloatFmt.exponent, Nat.cast_succ, add_one_mul]

theorem FloatFmt.magnitude_strictMono (f : FloatFmt) : StrictMono f.magnitude :=
  strictMono_nat_of_lt_succ fun mag => by
    rw [f.magnitude_succ]
    exact lt_add_of_pos_right _ (by positivity)

/-- The exponent of the spacing at `m * 2^e` (R51). -/
def FloatFmt.spacingAt (f : FloatFmt) (m : Nat) (e : Int) : Int := Max.max (Nat.log2 m + e) f.emin - f.mbits

/-- The magnitude bits that `m * 2^e` rounds to, beyond the largest finite ones where the value is. -/
def FloatFmt.roundedBits (f : FloatFmt) (rnd m : Nat) (e : Int) (g : BitVec 32) : Nat :=
  (f.spacingAt m e + f.mbits - f.emin).toNat * 2 ^ f.mbits + roundedTo rnd m e (f.spacingAt m e) g

/-- R51 and R56 for a float format. -/
theorem FloatFmt.encode_fin (f : FloatFmt) (rnd : Nat) (sat : Bool) (g : BitVec 32) (n : Bool) {m : Nat} (e : Int) (hm : m ≠ 0) :
    f.encode rnd sat g (.fin n m e) =
      if f.maxBits < f.roundedBits rnd m e g then
        if rnd = 1 || sat || !f.hasNan then (f.signBit n + f.maxBits, fOverflowSat)
        else if f.hasInf then (f.signBit n + f.maxBits + 1, fOverflowInf)
        else (f.nanBits, fOverflowInf)
      else (f.signBit n + f.roundedBits rnd m e g,
        if roundedTo rnd m e (f.spacingAt m e) g = 0 then fUnderflow else 0) := by
  have hbits : f.roundedBits rnd m e g =
      ((Max.max (Num.expOf (.fin n m e)) (1 - (f.bias : Int)) + f.bias - 1).toNat <<< f.mbits) +
        roundedTo rnd m e (f.spacingAt m e) g := by
    rw [FloatFmt.roundedBits, Nat.shiftLeft_eq, FloatFmt.spacingAt, FloatFmt.emin, Num.expOf]
    congr 3
    omega
  rw [hbits]
  exact if_neg hm

/-- The quotient by the spacing is a significand: at least `2^mbits` above the subnormal values, and below `2^(mbits+1)`. -/
theorem FloatFmt.quotient_bounds (f : FloatFmt) {m : Nat} (e : Int) (hm : m ≠ 0) :
    (f.emin < f.spacingAt m e + f.mbits → (2 ^ f.mbits : ℚ) ≤ m * 2 ^ e / 2 ^ f.spacingAt m e) ∧
      (m * 2 ^ e / 2 ^ f.spacingAt m e : ℚ) < 2 ^ (f.mbits + 1) := by
  have hlo : (2 ^ Nat.log2 m : ℚ) ≤ m := by exact_mod_cast Nat.log2_self_le hm
  have hhi : (m : ℚ) < 2 ^ (Nat.log2 m + 1) := by exact_mod_cast Nat.lt_log2_self
  constructor
  · intro h
    have hq : f.spacingAt m e + f.mbits = Nat.log2 m + e := by
      simp only [FloatFmt.spacingAt] at h ⊢
      omega
    rw [le_div_iff₀ (by positivity), ← zpow_natCast, ← zpow_add₀ two_ne_zero, add_comm, hq, zpow_add₀ two_ne_zero, zpow_natCast]
    gcongr
  · have hq : (Nat.log2 m + 1 : Nat) + e ≤ (f.mbits + 1 : Nat) + f.spacingAt m e := by
      simp only [FloatFmt.spacingAt]
      omega
    rw [div_lt_iff₀ (by positivity), ← zpow_natCast, ← zpow_add₀ two_ne_zero]
    calc (m * 2 ^ e : ℚ) < 2 ^ (Nat.log2 m + 1) * 2 ^ e := by gcongr
      _ = 2 ^ ((Nat.log2 m + 1 : Nat) + e) := by rw [zpow_add₀ two_ne_zero, zpow_natCast]
      _ ≤ 2 ^ ((f.mbits + 1 : Nat) + f.spacingAt m e) := zpow_le_zpow_right₀ one_le_two hq

theorem FloatFmt.magnitude_roundedBits (f : FloatFmt) (rnd : Nat) {m : Nat} (e : Int) (g : BitVec 32) (hm : m ≠ 0) :
    f.magnitude (f.roundedBits rnd m e g) = roundedTo rnd m e (f.spacingAt m e) g * 2 ^ f.spacingAt m e := by
  obtain ⟨hlow, hhigh⟩ := f.quotient_bounds e hm
  have hlo : (f.spacingAt m e + f.mbits - f.emin).toNat = 0 ∨ 2 ^ f.mbits ≤ roundedTo rnd m e (f.spacingAt m e) g := by
    rcases le_or_gt (f.spacingAt m e + f.mbits) f.emin with h | h
    · exact .inl (by omega)
    · exact .inr (le_roundedTo rnd g (by exact_mod_cast hlow h))
  have hhi : roundedTo rnd m e (f.spacingAt m e) g ≤ 2 ^ (f.mbits + 1) := roundedTo_le rnd g (by exact_mod_cast hhigh)
  have hsubnormal : f.emin ≤ f.spacingAt m e + f.mbits := by
    unfold FloatFmt.spacingAt
    omega
  rw [FloatFmt.roundedBits, f.magnitude_of_split hlo hhi, Int.toNat_of_nonneg (by omega), Int.sub_add_cancel, Int.add_sub_cancel]

/-- The pattern of magnitude bits up to the largest finite ones, with the sign `n`, gives their value. -/
theorem FloatFmt.gives_signBit_add (f : FloatFmt) (hf : f.Proper) (n : Bool) (fl : Flags) {mag : Nat} (h : mag ≤ f.maxBits) :
    Gives (f.decode (f.signBit n + mag)) fl n (f.magnitude mag) fl := by
  rw [f.decode_fin hf n h]
  exact ⟨rfl, mul_assoc _ _ _, rfl⟩

theorem FloatFmt.rat_decode_maxBits (f : FloatFmt) (hf : f.Proper) : (f.decode f.maxBits).rat = f.magnitude f.maxBits := by
  obtain ⟨-, hrat, -⟩ := f.gives_signBit_add hf false 0 le_rfl
  simpa [FloatFmt.signBit] using hrat

theorem FloatFmt.significand_eq_zero (f : FloatFmt) (mag : Nat) : f.significand mag = 0 ↔ mag = 0 := by
  have hpos : 0 < 2 ^ f.mbits := by positivity
  refine ⟨fun h => ?_, fun h => by simp [h, FloatFmt.significand]⟩
  unfold FloatFmt.significand at h
  split at h <;> omega

/-- The value of magnitude bits is a multiple of R51's spacing at it. -/
theorem FloatFmt.spacingAt_significand_le (f : FloatFmt) {mag : Nat} (h0 : f.significand mag ≠ 0) :
    f.spacingAt (f.significand mag) (f.exponent mag) ≤ f.exponent mag := by
  obtain ⟨-, hhi⟩ := f.significand_bounds mag
  have hlog := (Nat.log2_lt h0).mpr hhi
  unfold FloatFmt.spacingAt FloatFmt.exponent
  omega

/-- Every pattern is a sign bit and magnitude bits. -/
theorem FloatFmt.signBit_testBit_add (f : FloatFmt) {x : Nat} (hx : x < 2 ^ (f.ebits + f.mbits + 1)) :
    f.signBit (x.testBit (f.ebits + f.mbits)) + x % 2 ^ (f.ebits + f.mbits) = x := by
  have hdiv : x / 2 ^ (f.ebits + f.mbits) < 2 := by
    rw [Nat.div_lt_iff_lt_mul (by positivity), mul_comm, ← pow_succ]
    exact hx
  have hsum := Nat.div_add_mod x (2 ^ (f.ebits + f.mbits))
  rw [FloatFmt.signBit, Nat.testBit_eq_decide_div_mod_eq, Nat.mod_eq_of_lt hdiv]
  interval_cases x / 2 ^ (f.ebits + f.mbits) <;> simpa using hsum

/-- A pattern of a finite value comes back from the value. -/
theorem FloatFmt.encode_decoded (f : FloatFmt) (hf : f.Proper) {x rnd : Nat} (sat : Bool) (g : BitVec 32)
    (hx : x < 2 ^ (f.ebits + f.mbits + 1)) (hrnd : rnd ≤ 2) (hfinite : (f.decode x).isFinite = true) :
    f.encode rnd sat g (f.decode x) = (x, 0) := by
  have hmag : x % 2 ^ (f.ebits + f.mbits) < 2 ^ (f.ebits + f.mbits) := Nat.mod_lt _ (by positivity)
  rw [← f.signBit_testBit_add hx] at hfinite ⊢
  generalize x % 2 ^ (f.ebits + f.mbits) = mag at *
  generalize x.testBit (f.ebits + f.mbits) = n at *
  have hmax : mag ≤ f.maxBits := by
    by_contra h
    rw [f.decode_signBit_add n hmag, if_pos (by omega)] at hfinite
    split at hfinite <;> cases hfinite
  rw [f.decode_fin hf n hmax]
  rcases eq_or_ne (f.significand mag) 0 with h0 | h0
  · rw [h0, (f.significand_eq_zero mag).mp h0]
    rfl
  · have hgrid := f.spacingAt_significand_le h0
    have hk := roundedTo_of_le (f.significand mag) g hrnd hgrid
    have hbits : f.roundedBits rnd (f.significand mag) (f.exponent mag) g = mag := by
      apply f.magnitude_strictMono.injective
      rw [f.magnitude_roundedBits rnd _ g h0, hk, Nat.cast_mul, two_pow_toNat_sub hgrid, mul_assoc, div_mul_cancel₀ _ (by positivity)]
      rfl
    rw [f.encode_fin _ _ _ _ _ h0, hbits, if_neg hmax.not_gt, if_neg]
    rw [hk]
    positivity

/-- A float conversion that does not overflow. -/
theorem FloatFmt.encode_within (f : FloatFmt) (hf : f.Proper) (rnd : Nat) (sat : Bool) (g : BitVec 32) (n : Bool) {m : Nat} (e : Int)
    (hm : m ≠ 0) (h : f.roundedBits rnd m e g ≤ f.maxBits) :
    Gives (f.decode (f.encode rnd sat g (.fin n m e)).1) (f.encode rnd sat g (.fin n m e)).2 n
      (roundedTo rnd m e (f.spacingAt m e) g * 2 ^ f.spacingAt m e)
      (if roundedTo rnd m e (f.spacingAt m e) g = 0 then fUnderflow else 0) := by
  rw [f.encode_fin _ _ _ _ _ hm, if_neg h.not_gt, ← f.magnitude_roundedBits rnd e g hm]
  exact f.gives_signBit_add hf n _ h

/-- A float conversion that overflows and saturates (R56). -/
theorem FloatFmt.encode_saturated (f : FloatFmt) (hf : f.Proper) {rnd : Nat} {sat : Bool} (g : BitVec 32) (n : Bool) {m : Nat} (e : Int)
    (hm : m ≠ 0) (h : f.maxBits < f.roundedBits rnd m e g) (hs : rnd = 1 ∨ sat = true ∨ ¬ f.hasNan = true) :
    Gives (f.decode (f.encode rnd sat g (.fin n m e)).1) (f.encode rnd sat g (.fin n m e)).2 n (f.magnitude f.maxBits) fOverflowSat := by
  rw [f.encode_fin _ _ _ _ _ hm, if_pos h, if_pos (by simpa [or_assoc] using hs)]
  exact f.gives_signBit_add hf n _ le_rfl

/-- A float conversion that overflows to an infinity, or to NaN where there is none (R56). -/
theorem FloatFmt.encode_overflow (f : FloatFmt) (hf : f.Proper) {rnd : Nat} (g : BitVec 32) (n : Bool) {m : Nat} (e : Int)
    (hm : m ≠ 0) (h : f.maxBits < f.roundedBits rnd m e g) (hrnd : rnd ≠ 1) (hnan : f.hasNan = true) :
    f.decode (f.encode rnd false g (.fin n m e)).1 = (if f.hasInf then .inf n else .nan) ∧
      (f.encode rnd false g (.fin n m e)).2 = fOverflowInf := by
  rw [f.encode_fin _ _ _ _ _ hm, if_pos h, if_neg (by simp [hrnd, hnan])]
  split
  next hinf =>
    obtain ⟨hlt, hmod⟩ := hf.infinity hinf
    refine ⟨?_, rfl⟩
    rw [add_assoc, f.decode_signBit_add n hlt, if_pos (Nat.lt_succ_self _), hinf, hmod]
    rfl
  next hinf =>
    obtain ⟨hgt, hlt⟩ := hf.nanBits_range hnan
    have hdecode := f.decode_signBit_add false hlt
    rw [FloatFmt.signBit, if_neg Bool.false_ne_true, zero_add, if_pos hgt] at hdecode
    simp [hdecode, hinf]

/-! ## The obligations -/

/-- What R51 and R56 say of a conversion's result `y`, when the rounding names the magnitude `k * 2^q` with the sign `n`. -/
def RoundsTo (code r rnd : Nat) (sat n : Bool) (k : Nat) (q : Int) (y : Nat × Flags) : Prop :=
  (k * 2 ^ q ≤ formatMax code r n →
    Gives (decodeElem code r y.1) y.2 n (k * 2 ^ q) (if k = 0 then fUnderflow else 0)) ∧
  (formatMax code r n < k * 2 ^ q →
    (rnd = 1 ∨ sat = true ∨ code ∉ [0x8, 0x9, 0xA, 0xB, 0xC] →
      Gives (decodeElem code r y.1) y.2 n (formatMax code r n) fOverflowSat) ∧
    (rnd ≠ 1 → sat = false → code ∈ [0x8, 0x9, 0xA, 0xB, 0xC] →
      decodeElem code r y.1 = (if code = 0x8 then .nan else .inf n) ∧ y.2 = fOverflowInf))

/-- A format whose values are `w`-bit integers times `2^q`: the integer formats, and Q32. -/
structure IsIntFormat (code r w : Nat) (s : Bool) (q : Int) : Prop where
  width_pos : 0 < w
  width : fmtWidth code = w
  saturates : code ∉ [0x8, 0x9, 0xA, 0xB, 0xC]
  decode : ∀ x, decodeElem code r x = .ofScaled (intValue w s x) q
  convert : ∀ rnd sat g x, convert code r rnd sat g x = encodeInt w s q rnd g x
  formatMax : ∀ n, formatMax code r n = intLimit w s n * 2 ^ q
  spacing : ∀ x, spacing code r x = some q

theorem isIntFormat_int {code w : Nat} {s : Bool} (r : Nat) (h : fmtKind code = .int w s) : IsIntFormat code r w s 0 := by
  have hcode : 0 < w ∧ fmtWidth code = w ∧ code ∉ [0x8, 0x9, 0xA, 0xB, 0xC] := by
    unfold fmtKind at h
    split at h <;> cases h <;> decide
  obtain ⟨hpos, hwidth, hsaturates⟩ := hcode
  refine ⟨hpos, hwidth, hsaturates, fun x => decodeElem_int r x h, fun rnd sat g x => ?_, fun n => ?_, fun x => ?_⟩
  · simp only [convert, h]
  · simp only [formatMax, h, zpow_zero, mul_one]
  · simp only [spacing, h]

theorem isIntFormat_q32 {code : Nat} (r : Nat) (h : fmtKind code = .q32) : IsIntFormat code r 32 true (-(r : Int)) := by
  have hcode : fmtWidth code = 32 ∧ code ∉ [0x8, 0x9, 0xA, 0xB, 0xC] := by
    unfold fmtKind at h
    split at h <;> cases h
    decide
  obtain ⟨hwidth, hsaturates⟩ := hcode
  refine ⟨by decide, hwidth, hsaturates, fun x => decodeElem_q32 r x h, fun rnd sat g x => ?_, fun n => ?_, fun x => ?_⟩
  · simp only [convert, h]
  · simp only [formatMax, h]
  · simp only [spacing, h]

theorem IsIntFormat.convert_roundsTo {code r w : Nat} {s : Bool} {q : Int} (hi : IsIntFormat code r w s q) (rnd : Nat) (sat : Bool)
    (g : BitVec 32) (n : Bool) {m : Nat} (e : Int) (hm : m ≠ 0) :
    RoundsTo code r rnd sat n (roundedTo rnd m e q g) q (Machine.convert code r rnd sat g (.fin n m e)) := by
  have hscale : (0 : ℚ) < 2 ^ q := by positivity
  rw [RoundsTo, hi.convert, encodeInt_fin _ _ _ _ _ _ _ hm, hi.formatMax, mul_le_mul_iff_left₀ hscale, mul_lt_mul_iff_left₀ hscale,
    Nat.cast_le, Nat.cast_lt]
  refine ⟨fun h => ?_, fun h => ⟨fun _ => ?_, fun _ _ hcode => absurd hcode hi.saturates⟩⟩
  · rw [if_neg h.not_gt, hi.decode]
    exact gives_withSign s n q _ hi.width_pos h
  · rw [if_pos h, hi.decode]
    exact gives_withSign s n q _ hi.width_pos le_rfl

theorem spacing_flt {code : Nat} {f : FloatFmt} (r : Nat) (n : Bool) (m : Nat) (e : Int) (h : fmtKind code = .flt f) :
    spacing code r (.fin n m e) = some (f.spacingAt m e) := by
  simp only [spacing, h, FloatFmt.spacingAt, Num.expOf]

theorem convert_roundsTo_flt {code : Nat} {f : FloatFmt} (h : fmtKind code = .flt f) (r rnd : Nat) (sat : Bool)
    (g : BitVec 32) (n : Bool) {m : Nat} (e : Int) (hm : m ≠ 0) :
    RoundsTo code r rnd sat n (roundedTo rnd m e (f.spacingAt m e) g) (f.spacingAt m e) (convert code r rnd sat g (.fin n m e)) := by
  obtain ⟨hf, -, hnan, hinf⟩ := fmtKind_flt h
  have hmax : formatMax code r n = f.magnitude f.maxBits := by
    simp only [formatMax, h, f.rat_decode_maxBits hf]
  have hconvert : convert code r rnd sat g (.fin n m e) = f.encode rnd sat g (.fin n m e) := by simp only [convert, h]
  have hdecode : ∀ x, decodeElem code r x = f.decode x := fun x => by simp only [decodeElem, h]
  rw [RoundsTo, hmax, hconvert, hdecode, ← f.magnitude_roundedBits rnd e g hm, f.magnitude_strictMono.le_iff_le,
    f.magnitude_strictMono.lt_iff_lt]
  refine ⟨fun hle => ?_, fun hlt => ⟨fun hs => ?_, ?_⟩⟩
  · rw [f.magnitude_roundedBits rnd e g hm]
    exact f.encode_within hf rnd sat g n e hm hle
  · exact f.encode_saturated hf g n e hm hlt (by rwa [hnan])
  · rintro hrnd rfl hcode
    obtain ⟨hvalue, hflag⟩ := f.encode_overflow hf g n e hm hlt hrnd (hnan.mpr hcode)
    refine ⟨?_, hflag⟩
    simp only [hvalue, hinf (hnan.mpr hcode), ite_not]

/-- Conversion of a finite non-zero value, of any format, at the spacing of R51. -/
theorem convert_roundsTo {code r : Nat} {n : Bool} {m : Nat} {e q : Int} (rnd : Nat) (sat : Bool) (g : BitVec 32) (hm : m ≠ 0)
    (hq : spacing code r (.fin n m e) = some q) :
    RoundsTo code r rnd sat n (roundedTo rnd m e q g) q (convert code r rnd sat g (.fin n m e)) := by
  cases hkind : fmtKind code with
  | int w s =>
    have hi := isIntFormat_int r hkind
    obtain rfl := Option.some.inj ((hi.spacing _).symm.trans hq)
    exact hi.convert_roundsTo rnd sat g n e hm
  | flt f =>
    obtain rfl := Option.some.inj ((spacing_flt r n m e hkind).symm.trans hq)
    exact convert_roundsTo_flt hkind r rnd sat g n e hm
  | q32 =>
    have hi := isIntFormat_q32 r hkind
    obtain rfl := Option.some.inj ((hi.spacing _).symm.trans hq)
    exact hi.convert_roundsTo rnd sat g n e hm
  | reserved => simp [spacing, hkind] at hq

/-- Settles O14: the model's rounding is R51's (`roundedTo_eq`), and the rounded multiple decides the result (`convert_roundsTo`). -/
theorem conversionsRound : Obligations.ConversionsRound := by
  unfold Obligations.ConversionsRound
  intro code r rnd sat g n m e q x k k' hm hrnd hq hx hk hup hdown
  subst hx
  have hround := convert_roundsTo rnd sat g hm hq
  rwa [roundedTo_eq hrnd hk hup hdown] at hround

theorem IsIntFormat.convert_decodeElem {code r w : Nat} {s : Bool} {q : Int} (hi : IsIntFormat code r w s q) {rnd x : Nat} (sat : Bool)
    (g : BitVec 32) (hx : x < 2 ^ fmtWidth code) (hrnd : rnd ≤ 2) :
    Machine.convert code r rnd sat g (decodeElem code r x) = (x, 0) := by
  rw [hi.convert, hi.decode]
  exact encodeInt_decoded s q g hi.width_pos (hi.width ▸ hx) hrnd

/-- Settles O15: a decoded value is a multiple of the spacing of its own format, where no rounding moves it (`roundedTo_of_le`). -/
theorem conversionsAreExact : Obligations.ConversionsAreExact := by
  unfold Obligations.ConversionsAreExact
  intro code r rnd sat g x _ hx hrnd hfinite
  cases hkind : fmtKind code with
  | int w s => exact (isIntFormat_int r hkind).convert_decodeElem sat g hx hrnd
  | flt f =>
    obtain ⟨hf, hwidth, -, -⟩ := fmtKind_flt hkind
    rw [hwidth] at hx
    simp only [decodeElem, convert, hkind] at hfinite ⊢
    exact f.encode_decoded hf sat g hx hrnd hfinite
  | q32 => exact (isIntFormat_q32 r hkind).convert_decodeElem sat g hx hrnd
  | reserved => simp [decodeElem, hkind, Num.isFinite] at hfinite

end Sys2Proof.Machine

namespace Sys2Proof.Machine

/-! # Weaves in flight keep distinct, rising handles -/

/-- Part `dsp` stays where an effect reaches other parts only. -/
theorem Chip.dsp_of_within {c d : Chip} {ps : List Part} (h : c.within d ps) (hps : ps.contains .dsp = false) : d.dsp = c.dsp :=
  Chip.within_keeps c d ps (·.dsp) h (Chip.only_dsp_out _ _ _ hps)

/-! ## What keeps the handles -/

/-- From `c` to `d` the handles stay distinct and rising. -/
def Chip.keepsHandles (c d : Chip) : Prop := c.dsp.handles → d.dsp.handles

theorem Chip.keepsHandles_refl (c : Chip) : c.keepsHandles c := id

theorem Chip.keepsHandles.trans {c d e : Chip} (h : c.keepsHandles d) (k : d.keepsHandles e) : c.keepsHandles e := k ∘ h

theorem Chip.keepsHandles_of_dsp {c d : Chip} (h : d.dsp = c.dsp) : c.keepsHandles d := fun hc => by rwa [h]

theorem Chip.keepsHandles_of_within {c d : Chip} {ps : List Part} (h : c.within d ps) (hps : ps.contains .dsp = false) :
    c.keepsHandles d :=
  Chip.keepsHandles_of_dsp (Chip.dsp_of_within h hps)

/-- Fewer weaves, with the handles they had, keep them. -/
theorem Chip.keepsHandles_of_sublist {c d : Chip} (h : (d.dsp.weaves.map (·.id)).Sublist (c.dsp.weaves.map (·.id)))
    (hn : d.dsp.nextId = c.dsp.nextId) : c.keepsHandles d := by
  intro ⟨hpair, hlt⟩
  refine ⟨hpair.sublist h, fun w hw => ?_⟩
  obtain ⟨v, hv, hid⟩ := List.mem_map.1 (h.subset (List.mem_map_of_mem hw))
  rw [hn, ← hid]
  exact hlt v hv

theorem Chip.keepsHandles_dispatched {b c d : Chip} (h : b.keepsHandles d) : b.keepsHandles (c.dispatched d) := h

theorem Chip.keepsHandles_ite {c d e : Chip} {p : Prop} [Decidable p] (h : c.keepsHandles d) (k : c.keepsHandles e) :
    c.keepsHandles (if p then d else e) := by
  split
  · exact h
  · exact k

theorem Chip.keepsHandles_foldl {α : Type} {f : Chip → α → Chip} (h : ∀ (c : Chip) (a : α), c.keepsHandles (f c a)) (l : List α)
    (c : Chip) : c.keepsHandles (l.foldl f c) := by
  induction l generalizing c with
  | nil => exact c.keepsHandles_refl
  | cons a l ih => exact (h c a).trans (ih _)

/-! ## Weaves, completions and the look at every descriptor -/

theorem Chip.setWeave_ids (c : Chip) (w : Weave) : (c.setWeave w).dsp.weaves.map (·.id) = c.dsp.weaves.map (·.id) := by
  rw [Chip.setWeave, List.map_map]
  refine List.map_congr_left fun v _ => ?_
  show (if v.id = w.id then w else v).id = v.id
  split
  · next h => exact h.symm
  · rfl

theorem Chip.setWeave_keepsHandles (c : Chip) (w : Weave) : c.keepsHandles (c.setWeave w) :=
  Chip.keepsHandles_of_sublist (c.setWeave_ids w ▸ List.Sublist.refl _) rfl

theorem Chip.setDescState_keepsHandles (c : Chip) (id i : Nat) (s : DescState) : c.keepsHandles (c.setDescState id i s) := by
  unfold Chip.setDescState
  split
  · exact c.setWeave_keepsHandles _
  · exact c.keepsHandles_refl

/-- A weave that enters flight takes the next handle. -/
theorem Chip.addWeave_keepsHandles (c : Chip) (addr h cls pair : Nat) (source : WeaveSource) (qfence : Bool) :
    c.keepsHandles (c.addWeave addr h cls pair source qfence).1 := by
  intro ⟨hpair, hlt⟩
  simp only [Chip.addWeave, Dsp.handles, List.map_append, List.map_cons, List.map_nil, List.mem_append, List.mem_singleton]
  refine ⟨List.pairwise_append.2 ⟨hpair, List.pairwise_singleton _ _, ?_⟩, ?_⟩
  · intro a ha b hb
    obtain ⟨v, hv, rfl⟩ := List.mem_map.1 ha
    rw [List.mem_singleton.1 hb]
    exact hlt v hv
  · rintro w (hw | rfl)
    · exact Nat.lt_succ_of_lt (hlt w hw)
    · exact Nat.lt_succ_self _

theorem Chip.report_dsp (c : Chip) (w : Weave) (i : Nat) (r : RecInfo) : (c.report w i r).dsp = c.dsp :=
  Chip.dsp_of_within (c.report_within w i r) rfl

theorem Chip.raiseFor_dsp (c : Chip) (st : Nat) : (c.raiseFor st).dsp = c.dsp := by
  unfold Chip.raiseFor
  split <;> simp

theorem Chip.signalFor_dsp (c : Chip) (d st : Nat) : (c.signalFor d st).dsp = c.dsp := by
  unfold Chip.signalFor Chip.setPoison
  dsimp only
  repeat' split
  all_goals rfl

/-- What a state set in a chip changes of the dispatch tables depends on those tables alone. -/
theorem Chip.setDescState_dsp_congr {c d : Chip} (h : d.dsp = c.dsp) (id i : Nat) (s : DescState) :
    (d.setDescState id i s).dsp = (c.setDescState id i s).dsp := by
  unfold Chip.setDescState Chip.weave? Chip.setWeave
  rw [h]
  split <;> simp [h]

/-- A completion closes the chains it ends and sets its descriptor's state; the dispatch tables keep the rest. -/
theorem Chip.finishDesc_dsp_some {c : Chip} {id : Nat} {w : Weave} (h : c.weave? id = some w) (i : Nat) (r : RecInfo) :
    (c.finishDesc id i r).dsp = ((c.chainDone w i r.status).setDescState id i (.done r.status)).dsp := by
  have hbefore : (((((if w.isGolden then c else c.report w i r).noteDone id i r.status).raiseFor r.status).signalFor
      (w.raw i) r.status).chainDone w i r.status).dsp = (c.chainDone w i r.status).dsp := by
    have hreport : (if w.isGolden then c else c.report w i r).dsp = c.dsp := by
      split
      · rfl
      · exact c.report_dsp w i r
    have hsignal : ((((if w.isGolden then c else c.report w i r).noteDone id i r.status).raiseFor r.status).signalFor
        (w.raw i) r.status).dsp = c.dsp := by
      rw [Chip.signalFor_dsp, Chip.raiseFor_dsp]
      exact hreport
    unfold Chip.chainDone
    rw [hsignal]
  have hfinish : (c.finishDesc id i r).dsp = (((((((if w.isGolden then c else c.report w i r).noteDone id i r.status).raiseFor
      r.status).signalFor (w.raw i) r.status).chainDone w i r.status).setDescState id i (.done r.status)).dsp) := by
    unfold Chip.finishDesc
    rw [h]
    rfl
  rw [hfinish, Chip.setDescState_dsp_congr hbefore]

/-- A completion of a weave that is not in flight leaves the dispatch tables. -/
theorem Chip.finishDesc_dsp_none {c : Chip} {id : Nat} (h : c.weave? id = none) (i : Nat) (r : RecInfo) :
    (c.finishDesc id i r).dsp = c.dsp := by
  unfold Chip.finishDesc
  rw [h]
  rfl

theorem Chip.finishDesc_keepsHandles (c : Chip) (id i : Nat) (r : RecInfo) : c.keepsHandles (c.finishDesc id i r) := by
  cases h : c.weave? id with
  | none => exact Chip.keepsHandles_of_dsp (Chip.finishDesc_dsp_none h i r)
  | some w =>
    have hkeeps : c.keepsHandles ((c.chainDone w i r.status).setDescState id i (.done r.status)) :=
      Chip.keepsHandles.trans (d := c.chainDone w i r.status) (fun h => h) (Chip.setDescState_keepsHandles _ _ _ _)
    exact hkeeps.trans (Chip.keepsHandles_of_dsp (Chip.finishDesc_dsp_some h i r))

theorem Chip.settleOne_keepsHandles (c : Chip) (p : Nat × Nat) : c.keepsHandles (c.settleOne p) := by
  unfold Chip.settleOne
  split
  · exact c.keepsHandles_refl
  · split
    · split
      · exact c.finishDesc_keepsHandles _ _ _
      · split
        · exact c.finishDesc_keepsHandles _ _ _
        · exact Chip.keepsHandles_ite (c.setWeave_keepsHandles _) c.keepsHandles_refl
    · split
      · exact c.finishDesc_keepsHandles _ _ _
      · exact Chip.keepsHandles_ite c.keepsHandles_refl (c.setWeave_keepsHandles _)
    · exact c.keepsHandles_refl

theorem Chip.settlePass_keepsHandles (c : Chip) : c.keepsHandles c.settlePass :=
  Chip.keepsHandles_foldl Chip.settleOne_keepsHandles _ c

theorem Chip.settleLoop_keepsHandles (n : Nat) (c : Chip) : c.keepsHandles (c.settleLoop n) := by
  induction n generalizing c with
  | zero => exact c.keepsHandles_refl
  | succ n ih =>
    unfold Chip.settleLoop
    exact Chip.keepsHandles_ite c.settlePass_keepsHandles (c.settlePass_keepsHandles.trans (ih _))

theorem Chip.retireWeaves_keepsHandles (c : Chip) : c.keepsHandles c.retireWeaves :=
  Chip.keepsHandles_of_sublist (List.filter_sublist.map _) rfl

theorem Chip.settle_keepsHandles (c : Chip) : c.keepsHandles c.settle :=
  Chip.keepsHandles_dispatched <| (c.settleLoop_keepsHandles (2 * c.allDescs.length + 1)).trans
    (Chip.retireWeaves_keepsHandles { c.settleLoop (2 * c.allDescs.length + 1) with
      dsp := { (c.settleLoop (2 * c.allDescs.length + 1)).dsp with
        nextOrder := (c.settleLoop (2 * c.allDescs.length + 1)).dsp.nextOrder + 1 } })

theorem Chip.signalSet_keepsHandles (c : Chip) (s v : Nat) : c.keepsHandles (c.signalSet s v) :=
  Chip.keepsHandles_ite c.keepsHandles_refl (Chip.keepsHandles.trans (d := c.wr R.DSP_SIG_VALUE v s) id (Chip.settle_keepsHandles _))

/-! ## Operations start, end and leave -/

theorem Chip.setOp_keepsHandles (c : Chip) (u : Nat) (o : OpRun) : c.keepsHandles (c.setOp u o) := id

theorem Chip.freeUnit_keepsHandles (c : Chip) (u : Nat) : c.keepsHandles (c.freeUnit u) := id

theorem Chip.countOp_dsp (c : Chip) (u st : Nat) : (c.countOp u st).dsp = c.dsp := by
  unfold Chip.countOp
  dsimp only
  repeat' split
  all_goals rfl

theorem Chip.completeOp_keepsHandles (c : Chip) (u : Nat) (o : OpRun) : c.keepsHandles (c.completeOp u o) := by
  have hcount : c.keepsHandles ((c.freeUnit u).countOp u o.finalStatus) :=
    (c.freeUnit_keepsHandles u).trans (Chip.keepsHandles_of_dsp (Chip.countOp_dsp _ _ _))
  exact Chip.keepsHandles_dispatched ((hcount.trans (Chip.finishDesc_keepsHandles _ _ _ _)).trans (Chip.settle_keepsHandles _))

theorem Chip.endMirror_keepsHandles (c : Chip) (u : Nat) (o : OpRun) (st : Nat) : c.keepsHandles (c.endMirror u o st) := by
  refine Chip.keepsHandles.trans ?_ (Chip.keepsHandles_of_dsp ((Chip.raiseFor_dsp _ _).trans (Chip.countOp_dsp _ _ _)))
  exact id

theorem Chip.failChains_keepsHandles (c : Chip) (u st : Nat) : c.keepsHandles (c.failChains u st) := by
  refine Chip.keepsHandles_foldl (fun c p => ?_) _ c
  split
  · exact Chip.keepsHandles_foldl (fun c i => c.finishDesc_keepsHandles _ _ _) _ c
  · exact c.keepsHandles_refl

/-- The chains of a unit forgotten, or the operations it had suspended. -/
theorem Chip.keepsHandles_tables {b c : Chip} (h : b.keepsHandles c) (chains : Table (Nat × Nat)) (suspended : List OpRun) :
    b.keepsHandles { c with dsp := { c.dsp with chains := chains } } ∧
      b.keepsHandles { c with dsp := { c.dsp with suspended := suspended } } := ⟨h, h⟩

theorem Chip.failUnit_keepsHandles (c : Chip) (u st : Nat) : c.keepsHandles (c.failUnit u st) := by
  unfold Chip.failUnit
  apply Chip.keepsHandles_dispatched
  extract_lets c₁ d₁ c₂ c₃ mine d₃ c₄ c₅
  have h₂ : c.keepsHandles c₂ := (Chip.keepsHandles_tables (c.failChains_keepsHandles u st) _ []).1
  have h₃ : c₂.keepsHandles c₃ := by
    show c₂.keepsHandles (match c₂.op? u with | some o => _ | none => c₂)
    split
    · exact Chip.keepsHandles_ite (Chip.endMirror_keepsHandles _ _ _ _) (Chip.completeOp_keepsHandles _ _ _)
    · exact c₂.keepsHandles_refl
  have h₄ : c.keepsHandles c₄ := (Chip.keepsHandles_tables (h₂.trans h₃) [] _).2
  have h₅ : c₄.keepsHandles c₅ := Chip.keepsHandles_foldl (fun c o =>
    (Chip.keepsHandles_of_dsp (c.countOp_dsp u _)).trans (Chip.finishDesc_keepsHandles _ _ _ _)) _ _
  exact (h₄.trans h₅).trans (Chip.settle_keepsHandles _)

end Sys2Proof.Machine

namespace Sys2Proof.Machine

/-! ## What leaves the dispatch tables alone -/

/-- A register write leaves the dispatch tables: an equation that `simp` uses with its proof, so that the kernel never compares two
register files. -/
theorem Chip.dsp_wr (c : Chip) (f : Field) (v i : Nat) : (c.wr f v i).dsp = c.dsp := Chip.dsp_of_within (c.wr_within f v i) rfl

theorem Chip.dsp_count (c : Chip) (f : Field) (i n : Nat) : (c.count f i n).dsp = c.dsp :=
  Chip.dsp_of_within (c.count_within f i n) rfl

theorem Chip.dsp_latch (c : Chip) (f : Field) (i : Nat) : (c.latch f i).dsp = c.dsp := c.dsp_wr f 1 i

/-- The dispatch tables of `d` are those of `c`. A relation with arguments, so that the kernel compares chips and not fields of them. -/
structure Chip.keepsDsp (c d : Chip) : Prop where
  of ::
  eq : d.dsp = c.dsp

theorem Chip.foldl_dsp {α : Type} {f : Chip → α → Chip} (h : ∀ (c : Chip) (a : α), c.keepsDsp (f c a)) (l : List α) (c : Chip) :
    (l.foldl f c).dsp = c.dsp := by
  induction l generalizing c with
  | nil => rfl
  | cons a l ih => exact (ih _).trans (h c a).eq

theorem Chip.foldl_fst_dsp {α β : Type} {f : Chip × β → α → Chip × β} (h : ∀ (s : Chip × β) (a : α), s.1.keepsDsp (f s a).1)
    (l : List α) (s : Chip × β) : (l.foldl f s).1.dsp = s.1.dsp := by
  induction l generalizing s with
  | nil => rfl
  | cons a l ih => exact (ih _).trans (h s a).eq

@[simp] theorem Chip.devRead_dsp (c : Chip) (a n : Nat) : (c.devRead a n).1.dsp = c.dsp :=
  Chip.dsp_of_within (c.devRead_within a n) rfl

@[simp] theorem Chip.devWrite_dsp (c : Chip) (a : Nat) (data : List Byte) : (c.devWrite a data).1.dsp = c.dsp :=
  (c.spares_devWrite a data).1

@[simp] theorem Chip.muslinRead_dsp (c : Chip) (off n src : Nat) : (c.muslinRead off n src).1.dsp = c.dsp :=
  Chip.dsp_of_within (c.muslinRead_within off n src) rfl

@[simp] theorem Chip.muslinWrite_dsp (c : Chip) (m : WriteMode) (off : Nat) (data : List Byte) :
    (c.muslinWrite m off data).1.dsp = c.dsp :=
  (c.spares_muslinWrite m off data).1

@[simp] theorem Chip.dramRead_dsp (c : Chip) (off n src : Nat) : (c.dramRead off n src).1.dsp = c.dsp :=
  Chip.dsp_of_within (c.dramRead_within off n src) rfl

@[simp] theorem Chip.dramWrite_dsp (c : Chip) (off : Nat) (data : List Byte) : (c.dramWrite off data).1.dsp = c.dsp :=
  (c.spares_dramWrite off data).1

@[simp] theorem Chip.dramUe_dsp (c : Chip) (b src : Nat) : (c.dramUe b src).dsp = c.dsp := (c.spares_dramUe b src).1

@[simp] theorem Chip.invalidate_dsp (c : Chip) (rs : List (Nat × Nat)) : (c.invalidate rs).dsp = c.dsp := (c.spares_invalidate rs).1

@[simp] theorem Chip.tornAt_dsp (c : Chip) (off : Nat) (o : OpRun) (st : Nat) : (c.tornAt off o st).1.dsp = c.dsp :=
  (c.spares_tornAt off o st).1

@[simp] theorem Chip.writeRecord_dsp (c : Chip) (n rec : Nat) (irq : Bool) : (c.writeRecord n rec irq).dsp = c.dsp :=
  Chip.dsp_of_within (c.writeRecord_within n rec irq) rfl

@[simp] theorem Chip.produce_dsp (c : Chip) (n e : Nat) : (c.produce n e).dsp = c.dsp := Chip.dsp_of_within (c.produce_within n e) rfl

@[simp] theorem Chip.refresh_dsp (c : Chip) : c.refresh.dsp = c.dsp := rfl

@[simp] theorem Chip.gngFollow_dsp (c : Chip) (wrong : Bool) : (c.gngFollow wrong).dsp = c.dsp := rfl

@[simp] theorem Chip.noteDone_dsp (c : Chip) (id i st : Nat) : (c.noteDone id i st).dsp = c.dsp := rfl

theorem Chip.touchReads_dsp (c : Chip) (rs : List (Nat × Nat)) : (c.touchReads rs).1.dsp = c.dsp :=
  Chip.foldl_fst_dsp (fun s r => .of (by dsimp only; split <;> simp)) rs (c, St.OK)

theorem Chip.readHeader_dsp (c : Chip) (addr : Nat) : (c.readHeader addr).1.dsp = c.dsp := by
  unfold Chip.readHeader
  dsimp only
  repeat' split
  all_goals simp

theorem Chip.refusalRecord_dsp (c : Chip) (queue st cls weaveId index info : Nat) :
    (c.refusalRecord queue st cls weaveId index info).dsp = c.dsp := by
  unfold Chip.refusalRecord
  dsimp only
  rw [Chip.raiseFor_dsp, Chip.writeRecord_dsp]

/-! ### Muslin and DRAM requests -/

theorem Chip.findIn_dsp (c : Chip) (off n : Nat) (found : List (Nat × Bool)) : (c.findIn off n found).dsp = c.dsp := by
  refine Chip.foldl_dsp (fun c p => .of ?_) _ c
  unfold Chip.applyFound Chip.muslinCe
  repeat' split
  all_goals rfl

theorem Chip.bankWrite_dsp (c : Chip) (mode : WriteMode) (off : Nat) (data : List Byte) (net : List (Nat × Bool)) :
    (c.bankWrite mode off data net).1.dsp = c.dsp :=
  Chip.foldl_fst_dsp (f := fun (s : Chip × Nat) (p : Nat × Nat × Nat) =>
    let w := s.1.muslinWrite mode p.1 ((data.drop p.2.1).take p.2.2); (w.1, worse s.2 w.2))
    (fun s _ => .of (s.1.muslinWrite_dsp _ _ _)) _ (c.linkErrors off data.length net, St.OK)

theorem Chip.meetErrors_dsp (c : Chip) (b burst src : Nat) (errors : List (Nat × Byte)) :
    (c.meetErrors b burst src errors).dsp = c.dsp := by
  unfold Chip.meetErrors Chip.spoilBurst Chip.dramCe Chip.startRetire Chip.refreshDrcBusy
  dsimp only
  repeat' split
  all_goals simp

theorem Chip.burstWrite_dsp (c : Chip) (off : Nat) (data : List Byte) (errors : List (Nat × Byte)) (net : List (Nat × Bool)) :
    (c.burstWrite off data errors net).1.dsp = c.dsp := by
  unfold Chip.burstWrite
  dsimp only
  refine (Chip.foldl_fst_dsp (fun s _ => .of ?_) _ _).trans ?_
  · exact s.1.dramWrite_dsp _ _
  dsimp only
  split
  · rfl
  · exact Chip.meetErrors_dsp _ _ _ _ _

theorem Chip.serveBar2Read_dsp (c : Chip) (off len : Nat) (found net : List (Nat × Bool)) :
    (c.serveBar2Read off len found net).dsp = c.dsp := by
  unfold Chip.serveBar2Read
  dsimp only
  split
  · rfl
  · have hread : (((c.findIn off len found).linkErrors off len net).muslinRead off len 1).1.dsp = c.dsp :=
      (Chip.muslinRead_dsp _ _ _ _).trans (Chip.findIn_dsp _ _ _ _)
    rw [Chip.emit_dsp]
    split
    · rw [Chip.raise_dsp, hread]
    · exact hread

theorem Chip.qmgResult_dsp (c : Chip) (n : Nat) : (c.qmgResult n).dsp = c.dsp := rfl

theorem Chip.enableQueue_dsp (c : Chip) (n : Nat) : (c.enableQueue n).dsp = c.dsp := by
  unfold Chip.enableQueue
  generalize hr : (c.wr R.QMG_QCMD_BUSY 0).muslinRead (c.ctxOff n) 32 = r
  have hread : r.1.dsp = c.dsp := by rw [← hr, Chip.muslinRead_dsp, Chip.dsp_wr]
  dsimp only
  split
  · exact (Chip.qmgResult_dsp _ _).trans hread
  · split
    · exact (Chip.qmgResult_dsp _ _).trans hread
    · exact (Chip.qmgResult_dsp _ _).trans hread

theorem Chip.doorbell_dsp (c : Chip) (offset : Nat) (value : Word) : (c.doorbell offset value).dsp = c.dsp := by
  unfold Chip.doorbell Chip.ring
  dsimp only
  repeat' split
  all_goals simp

/-! ### Gingham -/

theorem Chip.gngLatch_dsp (c : Chip) (f : Field) (net k time : Nat) : (c.gngLatch f net k time).dsp = c.dsp := by
  unfold Chip.gngLatch Chip.gngLog Chip.setGng
  dsimp only
  repeat' split
  all_goals simp

theorem Chip.recompute_dsp (c : Chip) : c.recompute.dsp = c.dsp := by
  unfold Chip.recompute Chip.setGng
  dsimp only
  split <;> simp

theorem Chip.showNet_dsp (c : Chip) (n : Nat) : (c.showNet n).dsp = c.dsp := by
  simp only [Chip.showNet, Chip.dsp_wr]

theorem Chip.gngEnd_dsp (c : Chip) : c.gngEnd.dsp = c.dsp := by
  unfold Chip.gngEnd
  extract_lets c₁ logs c₂ q c₃
  have h₁ : c₁.dsp = c.dsp := by
    show (if c.gng.dirty then c.recompute.setGng _ else c).dsp = c.dsp
    split
    · exact c.recompute_dsp
    · rfl
  have h₃ : c₃.dsp = c₂.dsp := by
    show (if q = 0xFFFF then c₂ else logs.foldl (fun (c : Chip) l => c.produce q (c.logEntry l)) c₂).dsp = c₂.dsp
    split
    · rfl
    · exact Chip.foldl_dsp (fun c l => .of (c.produce_dsp _ _)) logs c₂
  exact (Chip.foldl_dsp (fun c n => .of (c.showNet_dsp n)) _ c₃).trans (h₃.trans h₁)

theorem Chip.missGolden_dsp (c : Chip) (net k time : Nat) : (c.missGolden net k time).dsp = c.dsp := by
  unfold Chip.missGolden
  dsimp only
  split
  · rw [Chip.gngLatch_dsp]; rfl
  · rfl

theorem Chip.formVerdict_dsp (c : Chip) (f : GngFrame) (cause : Nat) (d : GngDiff) : (c.formVerdict f cause d).dsp = c.dsp := by
  unfold Chip.formVerdict Chip.gngLog Chip.setNet Chip.setFrame Chip.setGng
  simp only [apply_ite Chip.dsp, Chip.dsp_count, ite_self, Chip.setEntry_dsp, Chip.dsp_wr]

end Sys2Proof.Machine

namespace Sys2Proof.Machine

theorem Chip.bandTable_dsp (c : Chip) (off size : Nat) : (c.bandTable off size).1.dsp = c.dsp := by
  unfold Chip.bandTable
  dsimp only
  split
  · exact c.devRead_dsp _ _
  · split
    · exact (Chip.devRead_dsp _ _ _).trans (c.devRead_dsp _ _)
    · exact (Chip.devRead_dsp _ _ _).trans (c.devRead_dsp _ _)

/-- A run of writes by an engine leaves the dispatch tables. -/
theorem Chip.foldl_devWrite_dsp {α : Type} (a : Chip → α → Nat) (bs : Chip → α → List Byte) (l : List α) (c : Chip) :
    (l.foldl (fun (c : Chip) x => (c.devWrite (a c x) (bs c x)).1) c).dsp = c.dsp :=
  Chip.foldl_dsp (fun c x => .of (c.devWrite_dsp (a c x) (bs c x))) l c

theorem Chip.inputStage_dsp (c : Chip) (f : GngFrame) : (c.inputStage f).1.dsp = c.dsp := by
  unfold Chip.inputStage
  extract_lets pipe
  split
  · rfl
  · split
    · rfl
    · next r rest _ =>
      extract_lets src a b c₁
      have hb : b.1.dsp = c.dsp :=
        (Chip.devWrite_dsp _ _ _).trans ((Chip.devWrite_dsp _ _ _).trans (Chip.devRead_dsp _ _ _))
      exact (Chip.foldl_devWrite_dsp _ _ (r :: rest) b.1).trans hb

theorem Chip.frameLaunch_dsp (c : Chip) (net time : Nat) (weave : Option (Nat × Nat)) :
    (c.frameLaunch net time weave).dsp = c.dsp := by
  unfold Chip.frameLaunch Chip.setNet Chip.setGng
  extract_lets q r c₁ c₂ f c₃ s
  have hr : r.1.dsp = c.dsp := by
    show (if q.reload then c.bandTable _ _ else (c, q.bands)).1.dsp = c.dsp
    split
    · exact c.bandTable_dsp _ _
    · rfl
  have hs : s.1.dsp = c₃.dsp := by
    show (if weave.isSome then c₃.inputStage f else (c₃, false)).1.dsp = c₃.dsp
    split
    · exact c₃.inputStage_dsp f
    · rfl
  rw [Chip.gngEnd_dsp]
  split
  · exact (Chip.formVerdict_dsp _ _ _ _).trans (hs.trans hr)
  · exact hs.trans hr

theorem Chip.launchFrame_dsp (c : Chip) (n t : Nat) (weave : Option (Nat × Nat)) : (c.launchFrame n t weave).dsp = c.dsp := by
  unfold Chip.launchFrame
  split
  · exact c.frameLaunch_dsp _ _ _
  · rfl

theorem Chip.goldenInput_dsp (c : Chip) (g : GngGolden) : (c.goldenInput g).dsp = c.dsp := by
  unfold Chip.goldenInput
  dsimp only
  split
  · exact c.devRead_dsp _ _
  · split
    · simp only [Chip.devWrite_dsp, Chip.devRead_dsp]
    · simp only [Chip.devRead_dsp]

theorem Chip.addMirrors_dsp (c : Chip) (w : Weave) (i d : Nat) (refused : Bool) : (c.addMirrors w i d refused).dsp = c.dsp := by
  unfold Chip.addMirrors Chip.setFrame Chip.setGng
  dsimp only
  repeat' split
  all_goals rfl

theorem Chip.setTorn_dsp (c : Chip) (off : Nat) (v : Bool) : (c.setTorn off v).1.dsp = c.dsp := c.devWrite_dsp _ _

theorem Chip.streamWhole_dsp (c : Chip) (off : Nat) (o : OpRun) (st : Nat) : (c.streamWhole off o st).1.dsp = c.dsp := by
  unfold Chip.streamWhole
  split
  · exact c.tornAt_dsp _ _ _
  · exact c.setTorn_dsp _ _

theorem Chip.mirrorMatRow_dsp (c : Chip) (o : OpRun) (i : Nat) : (c.mirrorMatRow o i).1.dsp = c.dsp := by
  unfold Chip.mirrorMatRow
  dsimp only
  split <;> simp only [Chip.devWrite_dsp]

theorem Chip.mirrorMatmul_dsp (c : Chip) (o : OpRun) (part : Nat) : (c.mirrorMatmul o part).1.dsp = c.dsp := by
  unfold Chip.mirrorMatmul
  extract_lets d rows own outs r t
  have hr : r.1.dsp = c.dsp := c.touchReads_dsp _
  have ht : t.1.dsp = r.1.dsp := by
    refine Chip.foldl_fst_dsp (fun s i => .of ?_) rows (r.1, o, St.OK)
    split
    · rfl
    · exact s.1.mirrorMatRow_dsp _ _
  split
  · exact (Chip.invalidate_dsp _ _).trans hr
  · split
    · exact (Chip.invalidate_dsp _ _).trans (ht.trans hr)
    · exact ht.trans hr

theorem Chip.mirrorColumn_dsp (c : Chip) (image : Nat) (r : ScanRec) (s : Scb) (t col : Nat) (o : OpRun) :
    (c.mirrorColumn image r s t col o).1.dsp = c.dsp := by
  unfold Chip.mirrorColumn
  refine Chip.foldl_fst_dsp (fun u n => .of ?_) _ (c, o, Num.zero, St.OK)
  dsimp only
  split
  · rfl
  · exact u.1.devWrite_dsp _ _

theorem Chip.mirrorStep_dsp (c : Chip) (image : Nat) (r : ScanRec) (s : Scb) (t : Nat) (o : OpRun) :
    (c.mirrorStep image r s t o).1.dsp = c.dsp := by
  unfold Chip.mirrorStep
  extract_lets u
  have hu : u.1.dsp = c.dsp := by
    refine Chip.foldl_fst_dsp (fun u col => .of ?_) _ (c, o, [], St.OK)
    dsimp only
    split
    · rfl
    · split
      · exact Chip.mirrorColumn_dsp _ _ _ _ _ _ _
      · exact Chip.mirrorColumn_dsp _ _ _ _ _ _ _
  split
  · exact hu
  · exact (Chip.devWrite_dsp _ _ _).trans hu

theorem Chip.mirrorScan_dsp {c d : Chip} {f : GngFrame} {o p : OpRun} {k : Nat} (h : c.mirrorScan f o k = some (d, p)) :
    d.dsp = c.dsp := by
  unfold Chip.mirrorScan at h
  extract_lets e r s at h
  split at h
  · cases h
  · next image _ =>
    extract_lets q u w at h
    have hq : q.1.dsp = c.dsp := c.touchReads_dsp _
    have hu : u.1.dsp = q.1.dsp := by
      refine Chip.foldl_fst_dsp (fun u t => .of ?_) _ (q.1, o, St.OK)
      split
      · rfl
      · exact u.1.mirrorStep_dsp _ _ _ _ _
    have hd := congrArg Prod.fst (Option.some.inj h)
    rw [← show _ = d from hd]
    split
    · exact (Chip.tornAt_dsp _ _ _ _).trans hq
    · split
      · exact (Chip.tornAt_dsp _ _ _ _).trans ((Chip.invalidate_dsp _ _).trans (hu.trans hq))
      · have hw : w.1.dsp = u.1.dsp := Chip.devWrite_dsp _ _ _
        split
        · exact (Chip.tornAt_dsp _ _ _ _).trans (hw.trans (hu.trans hq))
        · exact hw.trans (hu.trans hq)

theorem Chip.mirrorAnchor_dsp {c d : Chip} {f : GngFrame} {o p : OpRun} (h : c.mirrorAnchor f o = some (d, p)) : d.dsp = c.dsp := by
  unfold Chip.mirrorAnchor at h
  extract_lets e s shadow r at h
  have hr : r.1.dsp = c.dsp := c.touchReads_dsp _
  split at h
  · cases h
  · next image _ =>
    have hd := congrArg Prod.fst (Option.some.inj h)
    rw [← show _ = d from hd]
    split
    · rfl
    · split
      · exact (Chip.tornAt_dsp _ _ _ _).trans hr
      · extract_lets u
        have hu : u.1.dsp = r.1.dsp := by
          refine Chip.foldl_fst_dsp (fun u q => .of ?_) _ (r.1, o, St.OK)
          split
          · rfl
          · exact u.1.devWrite_dsp _ _
        exact (Chip.streamWhole_dsp _ _ _ _).trans (hu.trans hr)

theorem Chip.mirrorRestore_dsp {c d : Chip} {f : GngFrame} {o p : OpRun} (h : c.mirrorRestore f o = some (d, p)) :
    d.dsp = c.dsp := by
  unfold Chip.mirrorRestore at h
  extract_lets e s img r head at h
  have hr : r.1.dsp = c.dsp := c.touchReads_dsp _
  split at h
  · cases h
  · next image _ =>
    extract_lets w v at h
    have hd := congrArg Prod.fst (Option.some.inj h)
    rw [← show _ = d from hd]
    split
    · exact (Chip.tornAt_dsp _ _ _ _).trans hr
    · split
      · exact hr
      · have hw : w.1.dsp = r.1.dsp := Chip.devWrite_dsp _ _ _
        have hv : v.1.dsp = w.1.dsp := by
          show (if w.2 = 0 then w.1.devWrite _ _ else w).1.dsp = w.1.dsp
          split
          · exact Chip.devWrite_dsp _ _ _
          · rfl
        exact (Chip.streamWhole_dsp _ _ _ _).trans (hv.trans (hw.trans hr))

theorem Chip.mirrorTile_dsp (c : Chip) (f : GngFrame) (o : OpRun) (part : Nat) : (c.mirrorTile f o part).1.dsp = c.dsp := by
  unfold Chip.mirrorTile
  extract_lets pin work
  have hwork : ∀ r, work = some r → r.1.dsp = c.dsp := by
    intro r hr
    change (match Desc.opcode o.raw with
      | 1 => _ | 2 => _ | 0x10 => _ | 0x11 => _ | _ => _) = some r at hr
    split at hr
    · rw [← Option.some.inj hr]
      exact c.mirrorMatmul_dsp _ _
    · obtain ⟨image, -, hr⟩ := Option.map_eq_some_iff.1 hr
      rw [← hr]
      exact Chip.devWrite_dsp _ _ _
    · exact Chip.mirrorScan_dsp (p := r.2) hr
    · exact Chip.mirrorAnchor_dsp (p := r.2) hr
    · exact Chip.mirrorRestore_dsp (p := r.2) hr
  clear_value work
  cases work with
  | none => rfl
  | some r => exact hwork r rfl

theorem Chip.timeTile_dsp (c : Chip) (u ns : Nat) (o : OpRun) : (c.timeTile u ns o).1.dsp = c.dsp := by
  unfold Chip.timeTile
  split <;> rfl

/-! ### Engines and services -/

@[simp] theorem Chip.setCnv_dsp (c : Chip) (k : Nat) (f : Cnv → Cnv) : (c.setCnv k f).dsp = c.dsp := rfl

@[simp] theorem Chip.setCluster_dsp (c : Chip) (k st : Nat) : (c.setCluster k st).dsp = c.dsp := by
  simp only [Chip.setCluster, Chip.dsp_wr]

@[simp] theorem Chip.twlBusy_dsp (c : Chip) (v : Option TwlService) : (c.twlBusy v).dsp = c.dsp := by
  simp only [Chip.twlBusy, Chip.dsp_wr]

theorem Chip.setFactored_dsp (c : Chip) (k s : Nat) (v : Bool) : (c.setFactored k s v).dsp = c.dsp := by
  simp only [Chip.setFactored, Chip.dsp_wr]

@[simp] theorem Chip.setCanvas_dsp (c : Chip) (k st : Nat) : (c.setCanvas k st).dsp = c.dsp := by
  unfold Chip.setCanvas Chip.dropFactors
  dsimp only
  split
  · exact c.dsp_wr _ _ _
  · exact (Chip.setCnv_dsp _ _ _).trans ((Chip.foldl_dsp (fun c s => .of (c.setFactored_dsp _ _ _)) _ _).trans (c.dsp_wr _ _ _))

theorem Chip.addFinding_dsp (c : Chip) (kind data : Nat) : (c.addFinding kind data).dsp = c.dsp := by
  unfold Chip.addFinding Chip.countFindings
  split <;> simp only [Chip.dsp_wr]

theorem Chip.clusterOut_dsp (c : Chip) (k : Nat) (finding : Bool) : (c.clusterOut k finding).dsp = c.dsp := by
  unfold Chip.clusterOut
  dsimp only
  split <;> simp only [Chip.addFinding_dsp, Chip.dsp_wr, Chip.setCluster_dsp]

theorem Chip.canvasOut_dsp (c : Chip) (k : Nat) (finding : Bool) : (c.canvasOut k finding).dsp = c.dsp := by
  unfold Chip.canvasOut
  dsimp only
  split <;> simp only [Chip.addFinding_dsp, Chip.setCanvas_dsp]

theorem Chip.katOut_dsp (c : Chip) (t : Nat) : (c.katOut t).dsp = c.dsp := by
  unfold Chip.katOut
  split
  · rw [Chip.latchFault_dsp, Chip.clusterOut_dsp]
  · split
    · rw [Chip.latchFault_dsp, Chip.canvasOut_dsp]
    · rfl

theorem Chip.katBits_dsp (c : Chip) (tests : List Nat) (failed : Nat → Bool) : (c.katBits tests failed).dsp = c.dsp :=
  Chip.foldl_dsp (fun c t => .of (by simp only [Chip.dsp_wr])) _ c

theorem Chip.katMarks_dsp (c : Chip) (tests : List Nat) (failed : Nat → Bool) : (c.katMarks tests failed).dsp = c.dsp := by
  refine Chip.foldl_dsp (fun c t => .of ?_) _ c
  split
  · exact c.dsp_wr _ _ _
  · split
    · exact c.dsp_wr _ _ _
    · rfl

theorem Chip.refreshCap_dsp (c : Chip) : c.refreshCap.dsp = c.dsp := c.dsp_wr _ _ _

theorem Chip.setChannels_dsp (c : Chip) : c.setChannels.dsp = c.dsp := by
  unfold Chip.setChannels
  split <;> simp only [Chip.refreshCap_dsp, Chip.dsp_wr]

theorem Chip.endTraining_dsp (c : Chip) (fail : Nat) : (c.endTraining fail).dsp = c.dsp := by
  simp only [Chip.endTraining, Chip.refreshCap_dsp, Chip.dsp_wr]

theorem Chip.refreshDrcBusy_dsp (c : Chip) : c.refreshDrcBusy.dsp = c.dsp := c.dsp_wr _ _ _

theorem Chip.endRetire_dsp (c : Chip) (errors : List (Nat × Nat × Byte)) : (c.endRetire errors).dsp = c.dsp := by
  unfold Chip.endRetire
  split
  · rfl
  · next page n _ =>
    extract_lets spare c₁ bad c₂
    have h₁ : c₁.dsp = c.dsp := Chip.foldl_dsp (fun c k => .of (c.meetErrors_dsp _ _ _ _)) _ c
    have h₂ : c₂.dsp = c₁.dsp := Chip.foldl_dsp (fun c b => .of (c.dramUe_dsp _ _)) _ c₁
    simp only [Chip.refreshDrcBusy_dsp, Chip.dsp_wr]
    exact h₂.trans h₁

theorem Chip.pagesAgain_dsp (c : Chip) : c.pagesAgain.1.dsp = c.dsp := by
  refine Chip.foldl_fst_dsp (fun s d => .of ?_) _ (c, 0, 0)
  dsimp only
  split
  · split
    · simp only [Chip.dsp_wr, Chip.endRetire_dsp, Chip.startRetire, Chip.refreshDrcBusy_dsp]
    · exact Chip.dsp_wr _ _ _ _
  · split
    · rfl
    · exact Chip.dsp_wr _ _ _ _

theorem Chip.setFifo_dsp (c : Chip) (l : List Nat) : (c.setFifo l).dsp = c.dsp := by
  unfold Chip.setFifo
  dsimp only
  split <;> simp

theorem Chip.atuRestore_dsp (c : Chip) : c.atuRestore.dsp = c.dsp := by
  unfold Chip.atuRestore
  extract_lets r
  have hr : r.1.dsp = c.dsp := c.devRead_dsp _ _
  split
  · exact hr
  · rw [Chip.latchFault_dsp, Chip.setFifo_dsp]
    exact (Chip.foldl_dsp (fun c n => .of (c.dsp_wr _ _ _)) _ _).trans hr

theorem Chip.domainReturns_dsp (c : Chip) (d : Nat) : (c.domainReturns d).dsp = c.dsp := by
  unfold Chip.domainReturns
  split
  · dsimp only
    rw [Chip.pagesAgain_dsp, Chip.endTraining_dsp, Chip.setChannels_dsp, Chip.setDomainState_dsp]
  · split
    · exact c.setPhase_dsp _ _
    · dsimp only
      split
      · rw [Chip.atuRestore_dsp]
        exact c.setDomainState_dsp _ _
      · exact c.setDomainState_dsp _ _

theorem Chip.isolateDomain_dsp (c : Chip) (d : Nat) (out : Bool) : (c.isolateDomain d out).dsp = c.dsp := rfl

theorem Chip.setDrc_dsp (c : Chip) (d : Drc) : ({ c with drc := d } : Chip).dsp = c.dsp := rfl

theorem Chip.clearRetired_dsp (c : Chip) : c.clearRetired.dsp = c.dsp :=
  (Chip.setDrc_dsp _ _).trans
    (Chip.foldl_dsp (fun c n => .of ((Chip.dsp_wr _ _ _ _).trans (c.dsp_wr _ _ _))) (List.range 256) c)

theorem Chip.loseDram_dsp (c : Chip) : c.loseDram.dsp = c.dsp := rfl

theorem Chip.clearCells_dsp (c : Chip) : c.clearCells.dsp = c.dsp := rfl

theorem Chip.setDmk_dsp (c : Chip) (d : Dmk) : ({ c with dmk := d } : Chip).dsp = c.dsp := rfl

theorem Chip.switchOff_dsp (c : Chip) (d : Nat) : (c.switchOff d).dsp = c.dsp := by
  refine (Chip.setDomainState_dsp _ _ _).trans ?_
  split
  · exact (Chip.dsp_wr _ _ _ _).trans ((Chip.clearCells_dsp _).trans ((Chip.setDmk_dsp _ _).trans
      (Chip.foldl_dsp (fun c n => .of ((Chip.dsp_wr _ _ _ _).trans (c.dsp_wr _ _ _))) (List.range 32) c)))
  · exact Chip.devWrite_dsp _ _ _
  · rfl
  · rfl
  · rfl

theorem Chip.domainLoses_dsp (c : Chip) (d : Nat) : (c.domainLoses d).dsp = c.dsp := by
  unfold Chip.domainLoses
  split
  · dsimp only
    rw [Chip.setDomainState_dsp, Chip.dsp_wr, Chip.loseDram_dsp, Chip.clearRetired_dsp]
  · split
    · exact Chip.setPhase_dsp _ _ _
    · split
      · exact Chip.switchOff_dsp _ _
      · split
        · exact Chip.setDomainState_dsp _ _ _
        · exact c.switchOff_dsp d

theorem Chip.tearTable_dsp (c : Chip) : c.tearTable.dsp = c.dsp := by
  unfold Chip.tearTable
  split <;> rfl

theorem Chip.abandon_dsp (c : Chip) (o : OpRun) : (c.abandon o).1.dsp = c.dsp := by
  refine Chip.foldl_dsp (fun c i => .of ?_) _ c
  unfold Chip.entryStatus Chip.seqBit Chip.setSeq
  simp only [Chip.dsp_wr]
  split <;> simp only [Chip.devWrite_dsp]

theorem Chip.openScan_dsp (c k : Chip) (n : Nat) (w : Nat × Nat × Nat) : (c.openScan k n w).dsp = c.dsp := by
  unfold Chip.openScan Chip.setFilter
  dsimp only
  split <;> simp only [Chip.dsp_latch, Chip.devRead_dsp]

end Sys2Proof.Machine

namespace Sys2Proof.Machine

/-! ### What a register write adds -/

theorem Chip.logFlags_dsp (c : Chip) : c.logFlags.dsp = c.dsp := by
  simp only [Chip.logFlags, Chip.dsp_wr]

theorem Chip.putOdxData_dsp (c : Chip) (bs : List Byte) : (c.putOdxData bs).dsp = c.dsp :=
  Chip.foldl_dsp (fun c _ => .of (c.dsp_wr _ _ _)) _ c

theorem Chip.odxRefuse_dsp (c : Chip) (st hint : Nat) : (c.odxRefuse st hint).1.dsp = c.dsp := by
  unfold Chip.odxRefuse
  dsimp only
  split
  · exact c.dsp_count _ _ _
  · rfl

theorem Chip.answer_dsp (c : Chip) (o : Origin) (r : OdxReply) : (c.answer o r).dsp = c.dsp := by
  unfold Chip.answer
  cases o with
  | host =>
    refine (Chip.dsp_wr _ _ _ _).trans ((Chip.dsp_wr _ _ _ _).trans ((Chip.dsp_wr _ _ _ _).trans ((Chip.dsp_wr _ _ _ _).trans
      ((Chip.dsp_wr _ _ _ _).trans ((Chip.putOdxData_dsp _ _).trans (c.emit_dsp _ _ _ _))))))
  | _ => rfl

theorem Chip.gzeStop_dsp (c : Chip) : c.gzeStop.dsp = c.dsp := c.dsp_wr R.GZE_STATUS_RX_LOCK 0 0

theorem Chip.gzeRun_dsp (c : Chip) : c.gzeRun.dsp = c.dsp := Chip.foldl_dsp (fun c _ => .of (c.gridFrom_dsp _ _)) _ _

theorem Chip.checkTable_dsp (c : Chip) : c.checkTable.1.dsp = c.dsp := by
  unfold Chip.checkTable
  extract_lets base h hv n heads poses shape r
  have hh : h.1.dsp = c.dsp := c.devRead_dsp _ _
  split
  · exact hh
  · exact (Chip.devRead_dsp _ _ _).trans hh

theorem Chip.setTul_dsp (c : Chip) (t : Tul) : ({ c with tul := t } : Chip).dsp = c.dsp := rfl

theorem Chip.tulEnable_dsp (c : Chip) : c.tulEnable.dsp = c.dsp := by
  unfold Chip.tulEnable
  split
  · rfl
  · refine (Chip.setTul_dsp _ _).trans ?_
    simp only [Chip.dsp_wr, Chip.checkTable_dsp]

theorem Chip.tulDisable_dsp (c : Chip) : c.tulDisable.dsp = c.dsp := by
  unfold Chip.tulDisable
  split
  · rfl
  · refine (Chip.setTul_dsp _ _).trans ?_
    simp only [Chip.dsp_wr]

theorem Chip.jerseyStart_dsp (c : Chip) : c.jerseyStart.dsp = c.dsp := by
  unfold Chip.jerseyStart
  split
  · rfl
  · refine (Chip.foldl_dsp (fun c _ => .of (c.gridFrom_dsp _ _)) _ _).trans ?_
    rw [Chip.gridFrom_dsp, Chip.dsp_wr, Chip.dsp_wr]

theorem Chip.setPin_dsp (c : Chip) (n : Nat) (f : PwmPin → PwmPin) : (c.setPin n f).dsp = c.dsp := rfl

theorem Chip.laneStops_dsp (c : Chip) (n : Nat) : (c.laneStops n).dsp = c.dsp := by
  refine (Chip.setPin_dsp _ _ _).trans ?_
  unfold Chip.laneWrites Chip.setLanePv
  dsimp only
  rw [Chip.setEntry_dsp]
  split
  · exact c.setEntry_dsp _ _ _
  · rfl

theorem Chip.jerseyStop_dsp (c : Chip) : c.jerseyStop.dsp = c.dsp := by
  unfold Chip.jerseyStop
  split
  · rfl
  · dsimp only
    rw [Chip.dsp_wr, Chip.dsp_wr]
    exact Chip.foldl_dsp (fun c _ => .of (c.laneStops_dsp _)) _ c

theorem Chip.jrsSyncFlags_dsp (c : Chip) (k : Nat) : (c.jrsSyncFlags k).dsp = c.dsp :=
  Chip.foldl_dsp (fun c _ => .of (c.setEntry_dsp _ _ _)) _ c

theorem Chip.modFld_dsp (c : Chip) (f : Fld → Fld) : (c.modFld f).dsp = c.dsp := rfl

theorem Chip.fldRefresh_dsp (c : Chip) : c.fldRefresh.dsp = c.dsp := by
  unfold Chip.fldRefresh
  extract_lets c₁ gwepo c₂ c₃
  have h₁ : c₁.dsp = c.dsp := by
    refine Chip.foldl_dsp (fun c k => .of ?_) _ c
    split
    · exact (Chip.modFld_dsp _ _).trans (c.dsp_wr _ _ _)
    · split
      · exact (Chip.modFld_dsp _ _).trans (c.dsp_wr _ _ _)
      · rfl
  have h₂ : c₂.dsp = c₁.dsp := by
    refine Chip.foldl_dsp (fun c d => .of ?_) _ c₁
    split
    · split
      · rfl
      · exact c.modFld_dsp _
    · split
      · dsimp only
        rw [Chip.setEntry_dsp, Chip.dsp_wr, Chip.modFld_dsp]
      · rfl
  have h₃ : c₃.dsp = c₂.dsp := by
    show (if gwepo then c₂ else c₂.modFld _).dsp = c₂.dsp
    split
    · rfl
    · exact c₂.modFld_dsp _
  refine (Chip.foldl_dsp (fun c n => .of ?_) _ c₃).trans (h₃.trans (h₂.trans h₁))
  dsimp only
  split
  · exact c.dsp_wr _ _ _
  · split
    · exact c.dsp_wr _ _ _
    · rfl

theorem Chip.ringCfg_dsp (c : Chip) (tx : Bool) (n value : Nat) : (c.ringCfg tx n value).dsp = c.dsp := by
  unfold Chip.ringCfg
  dsimp only
  repeat' split
  all_goals simp only [Chip.modFld_dsp, Chip.dsp_wr]

theorem Chip.readTxHead_dsp (c : Chip) (n : Nat) : (c.readTxHead n).dsp = c.dsp := by
  unfold Chip.readTxHead
  split
  · rfl
  · extract_lets r d c₁
    have h₁ : c₁.dsp = c.dsp := (Chip.modFld_dsp _ _).trans (c.devRead_dsp _ _)
    split
    · exact h₁
    · exact h₁

theorem Chip.hostTxProd_dsp (c : Chip) (n value : Nat) : (c.hostTxProd n value).dsp = c.dsp := by
  unfold Chip.hostTxProd
  split
  · rfl
  · rw [Chip.readTxHead_dsp, Chip.dsp_wr]

theorem Chip.hostRxProd_dsp (c : Chip) (n value : Nat) : (c.hostRxProd n value).dsp = c.dsp := by
  unfold Chip.hostRxProd
  split
  · rfl
  · exact c.dsp_wr _ _ _

theorem Chip.setGng_dsp (c : Chip) (f : Gng → Gng) : (c.setGng f).dsp = c.dsp := rfl

/-- One fault of Gingham cleared, or not. -/
theorem Chip.clearGngFault_dsp (c : Chip) (p : Prop) [Decidable p] (f : Field) (l : GngLog) (g : Gng → Gng) :
    (if p then ((c.wr f 0).gngLog l).setGng g else c).dsp = c.dsp := by
  split
  · exact (Chip.setGng_dsp _ _).trans ((Chip.setGng_dsp _ _).trans (c.dsp_wr _ _ _))
  · rfl

theorem Chip.forgetGng_dsp (c : Chip) (p : Prop) [Decidable p] (f : Gng → Gng) : (if p then c.setGng f else c).dsp = c.dsp := by
  split <;> rfl

theorem Chip.clearGngFaults_dsp (c : Chip) (bits : BitVec 5) : (c.clearGngFaults bits).dsp = c.dsp := by
  unfold Chip.clearGngFaults
  exact (Chip.gngEnd_dsp _).trans ((Chip.clearGngFault_dsp _ _ _ _ _).trans ((Chip.clearGngFault_dsp _ _ _ _ _).trans
    ((Chip.clearGngFault_dsp _ _ _ _ _).trans ((Chip.clearGngFault_dsp _ _ _ _ _).trans ((Chip.clearGngFault_dsp _ _ _ _ _).trans
      ((Chip.forgetGng_dsp _ _ _).trans (Chip.forgetGng_dsp _ _ _)))))))

theorem Chip.writeGngPair_dsp (c : Chip) (v : Nat) : (c.writeGngPair v).dsp = c.dsp := by
  unfold Chip.writeGngPair
  dsimp only
  split <;> simp only [Chip.dsp_wr]

theorem Chip.sendPending_dsp (d : Chip) (v : Nat) : (d.sendPending v).dsp = d.dsp := by
  unfold Chip.sendPending
  split <;> rfl

theorem Chip.configWritten_dsp (c d : Chip) (a : Nat) : (c.configWritten d a).dsp = d.dsp := by
  unfold Chip.configWritten
  split
  · split
    · exact d.dsp_wr _ _ _
    · rfl
  · split
    · exact Chip.foldl_dsp (fun d v => .of (d.sendPending_dsp v)) _ d
    · rfl

theorem Chip.atuCmd_refused_dsp (c : Chip) (st : Nat) : (c.atuCmd fun c => (c, st)).dsp = c.dsp := by
  unfold Chip.atuCmd
  split
  · rfl
  · exact c.dsp_wr _ _ _

theorem Chip.plainWrite_dsp (c : Chip) (r : RegDef) (k a v keep : Nat) : (c.plainWrite r k a v keep).dsp = c.dsp := rfl

theorem Chip.refuseOp_dsp (c : Chip) (f g : Field) (busy : Nat) : (c.refuseOp f g busy).dsp = c.dsp := c.dsp_wr _ _ _

theorem Chip.ite_dsp {b c d : Chip} {p : Prop} [Decidable p] (h : c.dsp = b.dsp) (k : d.dsp = b.dsp) :
    (if p then c else d).dsp = b.dsp := by
  split
  · exact h
  · exact k

section
variable {α : Type} {P : α → Prop}

/-- What a block that answers, or leaves the write to the next block, answers with. -/
theorem answer_ite {p : Prop} [Decidable p] {a b : Option α} (ha : ∀ x, a = some x → P x) (hb : ∀ x, b = some x → P x) :
    ∀ x, (if p then a else b) = some x → P x := by
  split
  · exact ha
  · exact hb

theorem answer_some {y : α} (h : P y) : ∀ x, some y = some x → P x := fun _ hx => Option.some.inj hx ▸ h

theorem answer_none : ∀ x, none = some x → P x := fun _ hx => nomatch hx

theorem answer_inl {β : Type} {y : α} (h : P y) : ∀ x, (.inl y : α ⊕ β) = .inl x → P x := fun _ hx => Sum.inl.inj hx ▸ h

theorem answer_inr {β : Type} {y : β} : ∀ x, (.inr y : α ⊕ β) = .inl x → P x := fun _ hx => nomatch hx

end

theorem Chip.mslWritten_dsp {d : Chip} {a b : Nat} : ∀ x, d.mslWritten a b = some x → x.dsp = d.dsp :=
  answer_ite (answer_some (Chip.ite_dsp (d.dsp_wr _ _ _) rfl)) <|
  answer_ite (answer_some (Chip.ite_dsp (d.dsp_wr _ _ _) rfl)) <|
  answer_ite (answer_some d.logFlags_dsp) answer_none

theorem Chip.atuWritten_dsp {c d : Chip} {r : RegDef} {a b v : Nat} (hd : d.dsp = c.dsp) :
    ∀ x, c.atuWritten d r a b v = some x → x.dsp = c.dsp := by
  have hx : (if c.on R.ATU_CTRL_ENABLE then c.plainWrite r 0 a v 0xFFFFFFFE else d).dsp = c.dsp :=
    Chip.ite_dsp (c.plainWrite_dsp _ _ _ _ _) hd
  exact answer_ite (answer_some (Chip.ite_dsp ((Chip.dsp_wr _ _ _ _).trans hx) hx)) <|
    answer_ite (answer_some (Chip.ite_dsp rfl hd)) <|
    answer_ite (answer_some (Chip.ite_dsp (c.atuCmd_refused_dsp _) rfl)) answer_none

theorem Chip.opWritten_dsp {c : Chip} {a v : Nat} : ∀ x, c.opWritten a v = some x → x.dsp = c.dsp :=
  answer_ite (answer_some (Chip.ite_dsp rfl (c.refuseOp_dsp _ _ _))) <|
  answer_ite (answer_some (Chip.ite_dsp rfl (c.refuseOp_dsp _ _ _))) <|
  answer_ite (answer_some (Chip.ite_dsp rfl (c.refuseOp_dsp _ _ _))) <|
  answer_ite (answer_some (Chip.ite_dsp rfl (c.refuseOp_dsp _ _ _))) <|
  answer_ite (answer_some (Chip.ite_dsp rfl (c.refuseOp_dsp _ _ _))) <|
  answer_ite (answer_some (Chip.ite_dsp rfl (c.dsp_wr _ _ _))) <|
  answer_ite (answer_some (Chip.ite_dsp ((Chip.answer_dsp _ _ _).trans (c.odxRefuse_dsp _ _)) rfl)) <|
  answer_ite (answer_some (Chip.ite_dsp (c.dsp_wr _ _ _) rfl)) <|
  answer_none

theorem Chip.unitWritten_dsp {c d : Chip} {r : RegDef} {a b i v : Nat} (hd : d.dsp = c.dsp) :
    ∀ y, c.unitWritten d r a b i v = some y → ∀ x, y = .inl x → x.dsp = c.dsp :=
  answer_ite (answer_some (answer_inl (Chip.ite_dsp (d.gzeStop_dsp.trans hd) (Chip.ite_dsp hd (d.gzeRun_dsp.trans hd))))) <|
  answer_ite (answer_some (answer_inl (Chip.ite_dsp c.tulEnable_dsp c.tulDisable_dsp))) <|
  answer_ite (answer_some (answer_inl (Chip.ite_dsp ((Chip.jerseyStart_dsp _).trans (c.plainWrite_dsp _ _ _ _ _))
    ((Chip.jerseyStop_dsp _).trans (c.plainWrite_dsp _ _ _ _ _))))) <|
  answer_ite (answer_some (answer_inl ((d.jrsSyncFlags_dsp _).trans hd))) <|
  answer_ite (answer_some (answer_inl (Chip.ite_dsp rfl (c.dsp_wr _ _ _)))) <|
  answer_ite (answer_some (answer_inl (d.fldRefresh_dsp.trans hd))) <|
  answer_ite (answer_some (answer_inl (Chip.ite_dsp rfl hd))) <|
  answer_ite (answer_some (answer_inl (Chip.ite_dsp rfl hd))) <|
  answer_ite (answer_some (answer_inl (c.ringCfg_dsp _ _ _))) <|
  answer_ite (answer_some (answer_inl (c.ringCfg_dsp _ _ _))) <|
  answer_ite (answer_some (answer_inl (c.hostTxProd_dsp _ _))) <|
  answer_ite (answer_some (answer_inl (c.hostRxProd_dsp _ _))) <|
  answer_ite (answer_some answer_inr) <|
  answer_ite (answer_some (answer_inl ((d.dsp_wr _ _ _).trans hd))) <|
  answer_none

/-! ### Requests served at last -/

theorem Chip.unitMeets_keepsHandles (c : Chip) (u st : Nat) : c.keepsHandles (c.unitMeets u st) := by
  unfold Chip.unitMeets
  split
  · exact c.keepsHandles_refl
  · split
    · exact Chip.keepsHandles_ite (Chip.keepsHandles_of_dsp (c.raise_dsp 0)) c.keepsHandles_refl
    · next o _ =>
      exact Chip.keepsHandles_ite (c.setOp_keepsHandles _ _)
        ((Chip.keepsHandles_of_dsp (c.streamMeets_ends o st).1.1).trans (Chip.setOp_keepsHandles _ _ _))

theorem Chip.serveRead_keepsHandles (c : Chip) (off len unit : Nat) (found net : List (Nat × Bool)) :
    c.keepsHandles (c.serveRead off len unit found net) := by
  refine Chip.keepsHandles.trans (Chip.keepsHandles_of_dsp ?_) (Chip.unitMeets_keepsHandles _ _ _)
  refine (Chip.emit_dsp _ _ _ _ _).trans ((Chip.muslinRead_dsp _ _ _ _).trans ?_)
  exact Chip.ite_dsp (c.findIn_dsp _ _ _) rfl

theorem Chip.serveWrite_keepsHandles (c : Chip) (mode : WriteMode) (off unit : Nat) (data : List Byte) (net : List (Nat × Bool)) :
    c.keepsHandles (c.serveWrite mode off unit data net) :=
  (Chip.keepsHandles_of_dsp (c.bankWrite_dsp mode off data net)).trans (Chip.unitMeets_keepsHandles _ _ _)

theorem Chip.serveBar2Write_keepsHandles (c : Chip) (off : Nat) (data : List Byte) (net : List (Nat × Bool)) :
    c.keepsHandles (c.serveBar2Write off data net) :=
  Chip.keepsHandles_ite (Chip.keepsHandles_of_dsp (c.dsp_latch _ _)) (c.serveWrite_keepsHandles _ _ _ _ _)

theorem Chip.atomic_keepsHandles (c : Chip) (mode : WriteMode) (mask : Word) (net : EccFinding) (word : Nat) :
    c.keepsHandles (c.atomic mode mask net word) :=
  (c.serveWrite_keepsHandles _ _ _ _ _).trans (Chip.keepsHandles_of_dsp (Chip.dsp_wr _ _ _ _))

theorem Chip.serveHeld_keepsHandles (c : Chip) (i : Instr) (word : Nat) : c.keepsHandles (c.serveHeld i word) := by
  unfold Chip.serveHeld
  split
  · exact c.serveRead_keepsHandles _ _ _ _ _
  · exact c.serveWrite_keepsHandles _ _ _ _ _
  · exact c.serveWrite_keepsHandles _ _ _ _ _
  · exact c.serveWrite_keepsHandles _ _ _ _ _
  · exact Chip.keepsHandles_of_dsp (c.serveBar2Read_dsp _ _ _ _)
  · exact c.serveBar2Write_keepsHandles _ _ _
  · exact c.atomic_keepsHandles _ _ _ _
  · exact c.atomic_keepsHandles _ _ _ _
  · exact Chip.keepsHandles_of_dsp (c.doorbell_dsp _ _)
  · exact Chip.keepsHandles_of_dsp (c.enableQueue_dsp _)
  · exact c.keepsHandles_refl

theorem Chip.groupServesHeld_keepsHandles (c : Chip) (g : Nat) : c.keepsHandles (c.groupServesHeld g) :=
  (Chip.keepsHandles_of_dsp ((Chip.setGroup_dsp _ _ _).trans (c.setPhase_dsp _ _))).trans
    (Chip.keepsHandles_foldl (fun c (i : Instr × Nat) => c.serveHeld_keepsHandles i.1 i.2) _ _)

theorem Chip.access_keepsHandles {c : Chip} {off : Nat} {i : Instr} {serve : Chip → Chip} {word : Nat}
    (h : c.keepsHandles (serve c)) : c.keepsHandles (c.access off i serve word) :=
  Chip.keepsHandles_ite (Chip.keepsHandles_of_dsp (c.holdRequest_dsp _ _ _)) h

theorem Chip.perLine_keepsHandles {request : Chip → Nat → Nat → Nat → Chip}
    (h : ∀ (c : Chip) (off o n : Nat), c.keepsHandles (request c off o n)) (c : Chip) (off n : Nat) :
    c.keepsHandles (c.perLine off n request) :=
  Chip.keepsHandles_foldl (fun c (p : Nat × Nat × Nat) => h c p.1 p.2.1 p.2.2) _ c

theorem Chip.writeCommand_keepsHandles (c : Chip) (mode : WriteMode) (addr unit : Nat) (data : List Byte) (net : List (Nat × Bool))
    (again : Nat → List Byte → Instr) : c.keepsHandles (c.writeCommand mode addr unit data net again) :=
  Chip.keepsHandles_ite
    (Chip.perLine_keepsHandles (fun c _ _ _ => Chip.access_keepsHandles (c.serveWrite_keepsHandles _ _ _ _ _)) c _ _)
    c.keepsHandles_refl

theorem Chip.serveDramRead_keepsHandles (c : Chip) (off unit : Nat) (errors : List (Nat × Byte)) (net : List (Nat × Bool)) :
    c.keepsHandles (c.serveDramRead off unit errors net) := by
  refine Chip.keepsHandles_ite (c.unitMeets_keepsHandles _ _) ?_
  refine Chip.keepsHandles.trans (Chip.keepsHandles_of_dsp ?_) (Chip.unitMeets_keepsHandles _ _ _)
  exact (Chip.emit_dsp _ _ _ _ _).trans ((Chip.dramRead_dsp _ _ _ _).trans (Chip.meetErrors_dsp _ _ _ _ _))

theorem Chip.serveDramWrite_keepsHandles (c : Chip) (off unit : Nat) (data : List Byte) (errors : List (Nat × Nat × Byte))
    (net : List (Nat × Bool)) : c.keepsHandles (c.serveDramWrite off unit data errors net) := by
  refine Chip.keepsHandles.trans (Chip.keepsHandles_of_dsp ?_) (Chip.unitMeets_keepsHandles _ _ _)
  exact Chip.foldl_fst_dsp (f := fun (s : Chip × Nat) (p : Nat × Nat × Nat) =>
    let w := s.1.burstWrite p.1 ((data.drop p.2.1).take p.2.2) (errorsOf errors (p.1 / 64)) net
    (w.1, worse s.2 w.2)) (fun s p => .of (s.1.burstWrite_dsp _ _ _ _)) _ (c.linkErrors off data.length net, St.OK)

theorem Chip.serveDram_keepsHandles (c : Chip) (i : Instr) : c.keepsHandles (c.serveDram i) := by
  unfold Chip.serveDram
  split
  · exact c.serveDramRead_keepsHandles _ _ _ _
  · exact c.serveDramWrite_keepsHandles _ _ _ _ _
  · exact c.keepsHandles_refl

theorem Chip.dramAccess_keepsHandles {c : Chip} {i : Instr} {serve : Chip → Chip} (h : c.keepsHandles (serve c)) :
    c.keepsHandles (c.dramAccess i serve) := by
  unfold Chip.dramAccess
  split
  · exact h
  · split
    · exact fun hc => hc
    · split
      · exact fun hc => hc
      · exact h

theorem Chip.openPorts_keepsHandles (c : Chip) : c.keepsHandles c.openPorts :=
  Chip.keepsHandles.trans (d := { c with drc := { c.drc with port := [] } }) (fun h => h)
    (Chip.keepsHandles_foldl (fun c i => Chip.dramAccess_keepsHandles (c.serveDram_keepsHandles i)) _ _)

end Sys2Proof.Machine

namespace Sys2Proof.Machine

/-! ### Register writes -/

theorem Chip.gngFollow_keepsHandles {b c : Chip} (h : b.keepsHandles c) (wrong : Bool) : b.keepsHandles (c.gngFollow wrong) :=
  h.trans (Chip.keepsHandles_of_dsp (c.gngFollow_dsp wrong))

theorem Chip.dspWritten_keepsHandles {c d : Chip} {a b i v : Nat} (hd : c.keepsHandles d) :
    ∀ x, c.dspWritten d a b i v = some x → c.keepsHandles x := by
  have hwr : ∀ {x : Chip} (f : Field) (w k : Nat), c.keepsHandles x → c.keepsHandles (x.wr f w k) := fun f w k h =>
    h.trans (Chip.keepsHandles_of_dsp (Chip.dsp_wr _ _ _ _))
  have hon : ∀ (p : Prop) [Decidable p] (w : Nat), c.keepsHandles (if p then c.wr R.DSP_LAUNCH_ENABLE w i else d) :=
    fun _ _ _ => Chip.keepsHandles_ite (hwr _ _ _ c.keepsHandles_refl) hd
  refine answer_ite (answer_some (Chip.keepsHandles_ite (hwr _ _ _ hd) hd)) <|
    answer_ite (answer_some (Chip.gngFollow_keepsHandles (c.signalSet_keepsHandles _ _) _)) <|
    answer_ite (answer_some (Chip.gngFollow_keepsHandles (hd.trans d.settle_keepsHandles) _)) <|
    answer_ite (answer_ite (answer_some ?_) (answer_some (Chip.keepsHandles_ite c.keepsHandles_refl hd))) answer_none
  exact Chip.keepsHandles_ite (hon _ _) (Chip.keepsHandles_ite (hwr _ _ _ (hon _ _)) (Chip.keepsHandles_ite
    ((hon _ _).trans (Chip.keepsHandles_of_dsp (Chip.gridFrom_dsp _ _ _))) (hon _ _)))

theorem Chip.memWritten_keepsHandles {c d : Chip} {a b i v : Nat} (hd : d.dsp = c.dsp) :
    ∀ x, c.memWritten d a b i v = some x → c.keepsHandles x := by
  have hctrl : c.keepsHandles
      (if v.testBit 0 && !c.on R.DRC_STATUS_TRAINED then d.wr R.DRC_CTRL_ENABLE (c.rd R.DRC_CTRL_ENABLE) else d) :=
    Chip.keepsHandles_of_dsp (Chip.ite_dsp ((d.dsp_wr _ _ _).trans hd) hd)
  refine answer_ite (answer_some (Chip.keepsHandles_of_dsp (Chip.ite_dsp rfl hd))) <|
    answer_ite (answer_some (Chip.keepsHandles_of_dsp (Chip.ite_dsp rfl hd))) <|
    answer_ite (answer_some (Chip.keepsHandles_ite (hctrl.trans (Chip.openPorts_keepsHandles _)) hctrl)) <|
    answer_ite (answer_some (Chip.keepsHandles_of_dsp (Chip.ite_dsp rfl ?_))) <|
    answer_ite (answer_some (Chip.keepsHandles_of_dsp ((d.sendPending_dsp _).trans hd))) answer_none
  exact (Chip.refreshCap_dsp _).trans (Chip.ite_dsp hd (d.loseDram_dsp.trans hd))

theorem Chip.registerWrite_keepsHandles (c : Chip) (a size v : Nat) : c.keepsHandles (c.registerWrite a size v) := by
  unfold Chip.registerWrite
  refine Chip.keepsHandles_ite (Chip.keepsHandles_ite (Chip.keepsHandles_of_dsp (c.dsp_latch _ _)) c.keepsHandles_refl) ?_
  split
  · exact c.keepsHandles_refl
  · next r k _ =>
    extract_lets i d
    have hd : d.dsp = c.dsp := c.plainWrite_dsp _ _ _ _ _
    clear_value d
    refine Chip.keepsHandles_ite (Chip.keepsHandles_of_dsp ((c.configWritten_dsp d a).trans hd)) ?_
    refine Chip.keepsHandles_ite (Chip.keepsHandles_of_dsp (c.writeGngPair_dsp v)) ?_
    split
    · next x hx => exact Chip.dspWritten_keepsHandles (Chip.keepsHandles_of_dsp hd) x hx
    · split
      · next x hx => exact Chip.keepsHandles_of_dsp ((Chip.mslWritten_dsp x hx).trans hd)
      · split
        · next x hx => exact Chip.keepsHandles_of_dsp (Chip.atuWritten_dsp hd x hx)
        · split
          · next x hx => exact Chip.keepsHandles_of_dsp (Chip.opWritten_dsp x hx)
          · split
            · next x hx => exact Chip.memWritten_keepsHandles hd x hx
            · split
              · next x hx => exact Chip.keepsHandles_of_dsp (Chip.unitWritten_dsp hd _ hx x rfl)
              · exact Chip.keepsHandles_of_dsp (c.clearGngFaults_dsp _)
              · exact Chip.keepsHandles_of_dsp hd

/-! ## Weaves taken, launched and read -/

theorem Chip.takeEntry_keepsHandles (c : Chip) (n : Nat) (q : Queue) : c.keepsHandles (c.takeEntry n q) := by
  unfold Chip.takeEntry
  extract_lets r e c₁ q₁ c₂
  have h₂ : c₂.dsp = c.dsp := (r.1.setQueue_dsp n { q with consumed := q.consumed + 1 }).trans (c.devRead_dsp _ _)
  clear_value c₂
  refine Chip.keepsHandles.trans (Chip.keepsHandles_of_dsp h₂) (Chip.keepsHandles_ite (Chip.keepsHandles_of_dsp ?_) ?_)
  · exact c₂.refusalRecord_dsp _ _ _ _ _ _
  · have hread : (c₂.readHeader (bits e 0 40)).1.dsp = c₂.dsp := c₂.readHeader_dsp _
    split
    · next d st id info heq =>
      rw [heq] at hread
      exact Chip.keepsHandles_of_dsp ((d.refusalRecord_dsp _ _ _ _ _ _).trans hread)
    · next d h heq =>
      rw [heq] at hread
      exact ((Chip.keepsHandles_of_dsp hread).trans (d.addWeave_keepsHandles _ _ _ _ _ _)).trans
        (Chip.keepsHandles_of_dsp (Chip.refresh_dsp _))

theorem Chip.launch_keepsHandles (c : Chip) (n t : Nat) : c.keepsHandles (c.launch n t) := by
  unfold Chip.launch
  extract_lets mine k cls pair addr
  refine Chip.keepsHandles_ite (Chip.keepsHandles_of_dsp ((Chip.launchFrame_dsp _ _ _ _).trans (c.dsp_count _ _ _))) ?_
  have hread : ((c.count R.DSP_LAUNCH_LAUNCHES n).readHeader addr).1.dsp = c.dsp :=
    (Chip.readHeader_dsp _ _).trans (c.dsp_count _ _ _)
  split
  · next d st id info heq =>
    rw [heq] at hread
    refine Chip.keepsHandles_of_dsp ((Chip.launchFrame_dsp _ _ _ _).trans ((Chip.raise_dsp _ _).trans ((Chip.dsp_latch _ _ _).trans ?_)))
    exact (d.refusalRecord_dsp _ _ _ _ _ _).trans hread
  · next d h heq =>
    rw [heq] at hread
    exact ((Chip.keepsHandles_of_dsp hread).trans (d.addWeave_keepsHandles _ _ _ _ _ _)).trans
      (Chip.keepsHandles_of_dsp ((Chip.refresh_dsp _).trans (Chip.launchFrame_dsp _ _ _ _)))

theorem Chip.grantGolden_keepsHandles (c : Chip) (net : Nat) (g : GngGolden) : c.keepsHandles (c.grantGolden net g) := by
  unfold Chip.grantGolden
  refine Chip.keepsHandles_ite c.keepsHandles_refl ?_
  extract_lets c₁ entry addr
  have hread : (c₁.readHeader addr).1.dsp = c.dsp := (c₁.readHeader_dsp _).trans (c.goldenInput_dsp g)
  split
  · next d h heq =>
    rw [heq] at hread
    exact (Chip.keepsHandles_of_dsp hread).trans (d.addWeave_keepsHandles _ _ _ _ _ _)
  · next d h heq =>
    rw [heq] at hread
    exact Chip.keepsHandles_of_dsp hread

theorem Chip.dropGolden_keepsHandles (c : Chip) (net : Nat) : c.keepsHandles (c.dropGolden net) := by
  unfold Chip.dropGolden
  extract_lets g c₁
  have h₁ : c.keepsHandles c₁ := fun h => h
  clear_value c₁ g
  split
  · split
    · exact h₁.trans ((c₁.setWeave_keepsHandles _).trans (Chip.settle_keepsHandles _))
    · exact h₁
  · exact h₁

theorem Chip.fetch_keepsHandles (c : Chip) (w : Weave) : c.keepsHandles (c.fetch w) := by
  unfold Chip.fetch
  extract_lets i r d put c₂ c₃ bad c₁
  have hread : c.keepsHandles r.1 := Chip.keepsHandles_of_dsp (c.devRead_dsp _ _)
  have hput : ∀ (x : Nat) (st : DescState), c.keepsHandles (put r.1 x st) := fun x st =>
    hread.trans (r.1.setWeave_keepsHandles _)
  have h₁ : c.keepsHandles c₁ := (hput _ _).trans (Chip.keepsHandles_of_dsp (Chip.addMirrors_dsp _ _ _ _ _))
  refine Chip.keepsHandles_ite ?unread (Chip.keepsHandles_ite ?skipped ?read)
  case unread =>
    refine Chip.keepsHandles.trans ((hput 0 (.done r.2.1)).trans (Chip.keepsHandles_of_dsp ?_)) (Chip.settle_keepsHandles _)
    refine (Chip.addMirrors_dsp _ _ _ _ _).trans ((Chip.noteDone_dsp _ _ _ _).trans ?_)
    exact Chip.ite_dsp rfl (Chip.refusalRecord_dsp _ _ _ _ _ _ _)
  case skipped => exact (hput d (.done St.OK)).trans (Chip.settle_keepsHandles _)
  case read =>
    exact (h₁.trans (Chip.keepsHandles_ite (c₁.finishDesc_keepsHandles _ _ _) c₁.keepsHandles_refl)).trans
      (Chip.settle_keepsHandles _)

/-! ## Starts, tiles and ends -/

theorem Chip.chainStart_keepsHandles (c : Chip) (u : Nat) (o : OpRun) (continues : Bool) :
    c.keepsHandles (c.chainStart u o continues) := by
  unfold Chip.chainStart
  extract_lets key whole next d₁ c₁ f
  have h₁ : c.keepsHandles c₁ := Chip.keepsHandles_ite (fun h => h) c.keepsHandles_refl
  exact Chip.keepsHandles_ite h₁ h₁

theorem Chip.noteLatency_dsp (c : Chip) (u cls since : Nat) : (c.noteLatency u cls since).dsp = c.dsp :=
  Chip.ite_dsp (c.dsp_wr _ _ _) rfl

theorem Chip.leaveAtu_dsp (c : Chip) (o : OpRun) : (c.leaveAtu o).dsp = c.dsp := Chip.dsp_of_within (c.leaveAtu_within o) rfl

theorem Chip.showHold_dsp (c : Chip) (slot : Nat) : (c.showHold slot).dsp = c.dsp := Chip.dsp_of_within (c.showHold_within slot) rfl

theorem Chip.setHold_dsp (c : Chip) (slot : Nat) (h : Option HoldRec) : (c.setHold slot h).dsp = c.dsp :=
  Chip.dsp_of_within (c.setHold_within slot h) rfl

theorem Chip.atuUnlock_dsp (c : Chip) (o : OpRun) (kept : List Nat) : (c.atuUnlock o kept).dsp = c.dsp :=
  Chip.foldl_dsp (fun c _ => .of (Chip.ite_dsp rfl (c.dsp_wr _ _ _))) _ c

theorem Chip.startOn_keepsHandles (c : Chip) (k : Candidate) (u : Nat) : c.keepsHandles (c.startOn k u) := by
  unfold Chip.startOn
  extract_lets c₁ held
  have h₁ : c.keepsHandles c₁ := Chip.keepsHandles_of_dsp (c.noteLatency_dsp _ _ _)
  clear_value held c₁
  refine h₁.trans ?_
  split
  · next slot h =>
    extract_lets c₂ p
    have h₂ : (c₂.showHold slot).dsp = c₁.dsp := (c₂.showHold_dsp slot).trans rfl
    exact (((Chip.keepsHandles_of_dsp h₂).trans (Chip.setOp_keepsHandles _ _ _)).trans
      (Chip.setDescState_keepsHandles _ _ _ _)).trans (Chip.settle_keepsHandles _)
  · exact (((c₁.setOp_keepsHandles u _).trans (Chip.setDescState_keepsHandles _ _ _ _)).trans
      (Chip.chainStart_keepsHandles _ _ _ _)).trans (Chip.settle_keepsHandles _)

theorem Chip.refuseStart_keepsHandles (c : Chip) (k : Candidate) (st : Nat) : c.keepsHandles (c.refuseStart k st) :=
  (c.finishDesc_keepsHandles _ _ _).trans (Chip.settle_keepsHandles _)

theorem Chip.startMirror_keepsHandles (c : Chip) (f : GngFrame) (m : GngMirror) (k : Nat) : c.keepsHandles (c.startMirror f m k) := by
  unfold Chip.startMirror
  extract_lets id o p c₁ st c₂ key opens d₂ c₃ n
  exact Chip.keepsHandles_ite (Chip.keepsHandles_ite (fun h => h) (fun h => h))
    (Chip.keepsHandles_ite (Chip.keepsHandles_ite (fun h => h) (fun h => h)) (fun h => h))

theorem Chip.suspend_keepsHandles (c : Chip) (u : Nat) (o : OpRun) : c.keepsHandles (c.suspend u o) := by
  unfold Chip.suspend
  extract_lets s q b d c₁
  have hs : c.keepsHandles s.1 := Chip.keepsHandles_of_dsp ((Chip.devWrite_dsp _ _ _).trans rfl)
  have h₁ : s.1.keepsHandles c₁ := fun h => h
  clear_value c₁
  exact Chip.keepsHandles_ite
    ((hs.trans h₁).trans ((Chip.keepsHandles_of_dsp (c₁.dsp_count _ _ _)).trans (Chip.freeUnit_keepsHandles _ _)))
    (hs.trans ((Chip.keepsHandles_of_dsp (s.1.latchFault_dsp _ _)).trans (Chip.setOp_keepsHandles _ _ _)))

theorem Chip.tileEnds_keepsHandles (c : Chip) (u ns : Nat) (o : OpRun) : c.keepsHandles (c.tileEnds u ns o) := by
  unfold Chip.tileEnds
  have htime := c.timeTile_dsp u ns o
  split
  next c₁ o₁ heq =>
  rw [heq] at htime
  extract_lets o₂ last o₃ c₂
  have h₂ : c₁.keepsHandles c₂ := c₁.setOp_keepsHandles u o₃
  refine (Chip.keepsHandles_of_dsp htime).trans (h₂.trans ?_)
  clear_value c₂
  refine Chip.keepsHandles_ite (c₂.failUnit_keepsHandles _ _) (Chip.keepsHandles_ite ?_ (Chip.keepsHandles_ite ?_ ?_))
  · exact (Chip.keepsHandles_ite (Chip.keepsHandles_of_dsp (c₂.leaveAtu_dsp _)) c₂.keepsHandles_refl).trans
      (Chip.completeOp_keepsHandles _ _ _)
  · exact (c₂.suspend_keepsHandles _ _).trans (Chip.settle_keepsHandles _)
  · exact Chip.keepsHandles_of_dsp c₂.refresh_dsp

theorem Chip.mirrorTileEnd_keepsHandles (c : Chip) (u ns : Nat) (o : OpRun) : c.keepsHandles (c.mirrorTileEnd u ns o) := by
  unfold Chip.mirrorTileEnd
  extract_lets f r t o₁ o₂
  have hr : r.1.dsp = c.dsp := by
    clear_value f
    show (match f with | some f => _ | none => (c, o) : Chip × OpRun).1.dsp = c.dsp
    split
    · split
      · exact c.mirrorTile_dsp _ _ _
      · rfl
    · rfl
  exact Chip.keepsHandles_ite (c.endMirror_keepsHandles _ _ _)
    ((Chip.keepsHandles_of_dsp ((Chip.timeTile_dsp _ _ _ _).trans hr)).trans (Chip.setOp_keepsHandles _ _ _))

theorem Chip.failEngine_keepsHandles (c : Chip) (u st : Nat) : c.keepsHandles (c.failEngine u st) := by
  refine Chip.keepsHandles.trans (Chip.keepsHandles_of_dsp ?_) (Chip.failUnit_keepsHandles _ _ _)
  exact Chip.ite_dsp (Chip.foldl_dsp (fun c o => .of (c.leaveAtu_dsp o)) _ c) (Chip.ite_dsp c.tearTable_dsp rfl)

theorem Chip.completeAtu_keepsHandles (c : Chip) (o : OpRun) : c.keepsHandles (c.completeAtu o) := by
  unfold Chip.completeAtu
  refine Chip.keepsHandles_ite ?_ ?_
  · split
    · next n w _ _ =>
      extract_lets kept c₁ c₂ c₃
      have h₁ : c.keepsHandles c₁ := (c.freeUnit_keepsHandles 1).trans (Chip.keepsHandles_of_dsp (Chip.atuUnlock_dsp _ _ _))
      have h₃ : c₁.keepsHandles c₃ :=
        Chip.keepsHandles_of_dsp ((Chip.setHold_dsp _ _ _).trans (c₁.report_dsp _ _ _))
      exact ((h₁.trans h₃).trans (Chip.setDescState_keepsHandles _ _ _ _)).trans (Chip.settle_keepsHandles _)
    · exact (Chip.keepsHandles_of_dsp ((Chip.leaveAtu_dsp _ _).trans (c.abandon_dsp o))).trans (Chip.completeOp_keepsHandles _ _ _)
  · exact (Chip.keepsHandles_of_dsp (c.leaveAtu_dsp o)).trans (Chip.completeOp_keepsHandles _ _ _)

end Sys2Proof.Machine

namespace Sys2Proof.Machine

/-! ## The clock, Canvas, Twill and restarts -/

theorem Chip.waitDone_keepsHandles (c : Chip) (id i : Nat) : c.keepsHandles (c.waitDone id i) := by
  unfold Chip.waitDone
  split
  · exact (c.finishDesc_keepsHandles _ _ _).trans (Chip.settle_keepsHandles _)
  · exact c.keepsHandles_refl

theorem Chip.waitsPassed_keepsHandles (c : Chip) (upTo : Nat) : c.keepsHandles (c.waitsPassed upTo) := by
  refine Chip.keepsHandles_foldl (fun c p => ?_) _ c
  split
  · exact Chip.keepsHandles_ite (c.waitDone_keepsHandles _ _) c.keepsHandles_refl
  · exact c.keepsHandles_refl

theorem Chip.stepTo_keepsHandles (c : Chip) (b : Nat) : c.keepsHandles (c.stepTo b) := by
  unfold Chip.stepTo
  extract_lets a c₀ c₁ c₂ tick lost t q c₃ c₄
  have h₁ : c₁.dsp = c.dsp := by
    refine Chip.ite_dsp (Chip.foldl_dsp (fun c g => .of ?_) _ c) rfl
    exact (Chip.dsp_count _ _ _ _).trans (c.setGrid_dsp _ _)
  have h₂ : c₂.dsp = c₁.dsp := by
    refine Chip.ite_dsp (Chip.foldl_dsp (fun c g => .of ?_) _ c₁) rfl
    exact Chip.ite_dsp rfl rfl
  have h₃ : c.keepsHandles c₃ := Chip.keepsHandles_of_dsp (h₂.trans h₁)
  have h₄ : c₃.keepsHandles c₄ := Chip.keepsHandles_ite (c₃.waitsPassed_keepsHandles _) c₃.keepsHandles_refl
  exact (h₃.trans h₄).trans (Chip.keepsHandles_of_dsp ((Chip.raise_dsp _ _).trans (c₄.dsp_latch _ _)))

theorem Chip.stepBy_keepsHandles {c d : Chip} {ns : Int} (h : c.stepBy ns = some d) : c.keepsHandles d := by
  unfold Chip.stepBy at h
  dsimp only at h
  split at h
  · cases h
  · exact Option.some.inj h ▸ c.stepTo_keepsHandles _

theorem Chip.setTkuState_keepsHandles (c : Chip) (v : Nat) : c.keepsHandles (c.setTkuState v) := Chip.keepsHandles_of_dsp (c.dsp_wr _ _ _)
theorem Chip.wr64_keepsHandles (c : Chip) (lo hi : Field) (v : Int) : c.keepsHandles (c.wr64 lo hi v) :=
  Chip.keepsHandles_of_dsp ((Chip.dsp_wr _ _ _ _).trans (c.dsp_wr _ _ _))
theorem Chip.setTku_keepsHandles (c : Chip) (t : Tku) : c.keepsHandles { c with tku := t } := fun h => h
theorem Chip.setRate_keepsHandles (c : Chip) (v : Int) : c.keepsHandles (c.setRate v) := Chip.keepsHandles_of_dsp (c.dsp_wr _ _ _)

theorem Chip.tkuDone_dsp (c : Chip) (op : Nat) (force : Bool) (n : Nat) : (c.tkuDone op force n).dsp = c.dsp :=
  (Chip.journalService_dsp _ _ _ _).trans (c.dsp_wr _ _ _)

theorem Chip.offsetIn_keepsHandles (c : Chip) (o : Int) (d : Num) (stale : Bool) : c.keepsHandles (c.offsetIn o d stale) := by
  unfold Chip.offsetIn
  extract_lets jump t c₁ lock c₂ r
  have hjump : ∀ x : Chip, x.keepsHandles (jump x) := fun x =>
    Chip.keepsHandles_of_dsp ((Chip.raise_dsp _ _).trans ((Chip.dsp_count _ _ _ _).trans (x.dsp_latch _ _)))
  have hlock : ∀ x : Chip, x.keepsHandles (lock x) := fun x => (x.setTku_keepsHandles _).trans (Chip.setTkuState_keepsHandles _ _)
  have h₁ : c.keepsHandles c₁ := c.setTku_keepsHandles _
  have h₂ : c₁.keepsHandles c₂ := (c₁.setTkuState_keepsHandles _).trans (Chip.wr64_keepsHandles _ _ _ _)
  have h₃ : c₂.keepsHandles (({ c₂ with tku := { c₂.tku with integral := f32bits r.1 } } : Chip).setRate (rateUnits r.2)) :=
    (c₂.setTku_keepsHandles _).trans (Chip.setRate_keepsHandles _ _)
  refine Chip.keepsHandles_ite c.keepsHandles_refl (h₁.trans ?_)
  refine Chip.keepsHandles_ite (Chip.keepsHandles_of_dsp (c₁.dsp_count _ _ _)) (Chip.keepsHandles_ite ?searching ?locked)
  case searching =>
    refine Chip.keepsHandles_ite (hlock c₁) ?_
    split
    · next e he => exact (Chip.stepBy_keepsHandles he).trans (hlock e)
    · exact hjump c₁
  case locked =>
    exact Chip.keepsHandles_ite (((c₁.wr64_keepsHandles _ _ _).trans (Chip.setTkuState_keepsHandles _ _)).trans (hjump _))
      (Chip.keepsHandles_ite (h₂.trans h₃) h₂)
theorem Chip.moveSolves_keepsHandles (c : Chip) (k : Nat) : c.keepsHandles (c.moveSolves k) := by
  unfold Chip.moveSolves
  extract_lets u go ops mv c₁ d₁ c₂ c₃
  have h₁ : c.keepsHandles c₁ := by
    refine Chip.keepsHandles_foldl (fun c o => ?_) mv c
    exact fun h => c.setDescState_keepsHandles o.weave o.index (.ready c.dsp.nextOrder c.now) h
  have h₃ : c₁.keepsHandles c₃ := fun h => h
  refine (h₁.trans h₃).trans ?_
  split
  · exact Chip.keepsHandles_ite (c₃.freeUnit_keepsHandles _) c₃.keepsHandles_refl
  · exact c₃.keepsHandles_refl

theorem Chip.canvasFails_keepsHandles (c : Chip) (k own other : Nat) : c.keepsHandles (c.canvasFails k own other) := by
  unfold Chip.canvasFails
  extract_lets u fo c₁ c₂ st c₃ rest c₄
  have h₁ : c.keepsHandles c₁ := Chip.keepsHandles_of_dsp (c.setCanvas_dsp _ _)
  have h₂ : c₁.keepsHandles c₂ := Chip.keepsHandles_ite ((Chip.keepsHandles_of_dsp ((Chip.raise_dsp _ _).trans
    ((Chip.dsp_count _ _ _ _).trans (c₁.latchFault_dsp _ _)))).trans (Chip.moveSolves_keepsHandles _ _)) c₁.keepsHandles_refl
  have h₃ : c₂.keepsHandles c₃ := by
    show c₂.keepsHandles (match c₂.op? u with | some o => _ | none => c₂)
    split
    · exact c₂.setOp_keepsHandles _ _
    · exact c₂.keepsHandles_refl
  have h₄ : c₃.keepsHandles c₄ := by
    show c₃.keepsHandles (match c₃.op? u with | some o => c₃.completeOp u o | none => c₃)
    split
    · exact c₃.completeOp_keepsHandles _ _
    · exact c₃.keepsHandles_refl
  exact (((h₁.trans h₂).trans (h₃.trans h₄)).trans (c₄.failUnit_keepsHandles _ _)).trans (Chip.settle_keepsHandles _)

theorem Chip.twlDrain_keepsHandles (c : Chip) (s : TwlService) : c.keepsHandles (c.twlDrain s) := by
  unfold Chip.twlDrain
  extract_lets c₁ c₂ u
  have h₂ : c₂.dsp = c.dsp := (Chip.twlBusy_dsp _ _).trans (c.setCluster_dsp _ _)
  exact (Chip.keepsHandles_of_dsp h₂).trans (Chip.keepsHandles_ite (Chip.gngFollow_keepsHandles (c₂.failUnit_keepsHandles _ _) _)
    (Chip.gngFollow_keepsHandles c₂.keepsHandles_refl _))

theorem Chip.twlTrySpare_keepsHandles (c : Chip) (s : TwlService) : c.keepsHandles (c.twlTrySpare s) := by
  unfold Chip.twlTrySpare
  split
  · exact Chip.keepsHandles_of_dsp ((Chip.twlBusy_dsp _ _).trans (c.setCluster_dsp _ _))
  · exact c.twlDrain_keepsHandles s

theorem Chip.failReady_keepsHandles (c : Chip) (engine st : Nat) : c.keepsHandles (c.failReady engine st) :=
  (Chip.keepsHandles_foldl (fun (c : Chip) (k : Candidate) => c.finishDesc_keepsHandles k.weave k.index (.plain st k.cls)) _ c).trans
    (Chip.settle_keepsHandles _)

/-! ## Tiles and control operations -/

theorem Chip.unlessHeld_keepsHandles {c : Chip} {f : Chip → Chip} (h : ∀ c : Chip, c.keepsHandles (f c)) :
    c.keepsHandles (c.unlessHeld f) := by
  have hf : c.keepsHandles (f c.untouched) := (Chip.keepsHandles_of_dsp c.untouched_dsp).trans (h _)
  refine Chip.keepsHandles_ite c.keepsHandles_refl (Chip.keepsHandles_ite ?_ (Chip.keepsHandles_ite (fun hc => hc) hf))
  exact Chip.keepsHandles_foldl (fun c g => Chip.keepsHandles_of_dsp (c.wakeGroup_dsp g)) _ c

theorem Chip.onOp_keepsHandles {f : Chip → OpRun → Chip} (h : ∀ (c : Chip) (o : OpRun), c.keepsHandles (f c o)) (c : Chip)
    (u engine opcode : Nat) : c.keepsHandles (c.onOp u engine opcode f) := by
  unfold Chip.onOp
  split
  · exact Chip.keepsHandles_ite (h c _) c.keepsHandles_refl
  · exact c.keepsHandles_refl

/-- A tile changes no more of the dispatch tables than its own operation. -/
theorem Chip.runTile_keepsHandles (c : Chip) (u engine opcode : Nat) (check : Chip → OpRun → Nat)
    (tile : Chip → OpRun → Chip × OpRun) : c.keepsHandles (c.runTile u engine opcode check tile) := by
  refine Chip.keepsHandles_ite c.keepsHandles_refl (Chip.onOp_keepsHandles (fun c o => ?_) c u engine opcode)
  refine Chip.unlessHeld_keepsHandles fun c => ?_
  exact Chip.keepsHandles_ite (c.setOp_keepsHandles _ _) fun h => h

theorem Chip.control_keepsHandles {f : Chip → Weave → Nat → Chip} (h : ∀ (c : Chip) (w : Weave) (d : Nat), c.keepsHandles (f c w d))
    (c : Chip) (weave index opcode : Nat) : c.keepsHandles (c.control weave index opcode f) := by
  unfold Chip.control
  split
  · split
    · exact Chip.keepsHandles_ite (h c _ _) c.keepsHandles_refl
    · exact c.keepsHandles_refl
  · exact c.keepsHandles_refl

theorem Chip.atuCmd_keepsHandles {c : Chip} {f : Chip → Chip × Nat} (h : c.keepsHandles (f c).1) : c.keepsHandles (c.atuCmd f) :=
  Chip.keepsHandles_ite c.keepsHandles_refl (h.trans (Chip.keepsHandles_of_dsp (Chip.dsp_wr _ _ _ _)))

end Sys2Proof.Machine

namespace Sys2Proof.Machine

/-! ## Commands -/

/-- A command runs, through its server, a function of the chip that does not reach the dispatch tables or keeps the handles. -/
def commandKeepsHandles (i : Instr) : Prop :=
  ∀ s : State, ∃ ps f, exec i s = (serverOf i).run s ps f ∧ (ps.contains .dsp = false ∨ ∀ c : Chip, c.keepsHandles (f c))

theorem commandKeepsHandles_of_server {i : Instr} (v : Server) (hv : serverOf i = v)
    (h : ∀ s, ∃ ps f, exec i s = v.run s ps f ∧ (ps.contains .dsp = false ∨ ∀ c : Chip, c.keepsHandles (f c))) :
    commandKeepsHandles i := by
  intro s
  rw [hv]
  exact h s

/-- Dictionary requests do not reach the dispatch tables. -/
theorem commandKeepsHandles_of_runFor {i : Instr} (o : Origin) (hv : serverOf i = originServer o)
    (h : ∀ s, ∃ ps f, exec i s = s.runFor o ps f ∧ ps.contains .dsp = false) : commandKeepsHandles i := by
  intro s
  obtain ⟨ps, f, he, hps⟩ := h s
  exact ⟨ps, f, by rw [hv, he, State.runFor_server], .inl hps⟩

/-! ### Operations of the engines -/

theorem Chip.copyFail_dsp (c : Chip) (o : OpRun) (st : Nat) : (c.copyFail o st).1.dsp = c.dsp := by
  unfold Chip.copyFail
  extract_lets p t c₁
  refine Chip.foldl_dsp (fun c i => .of ?_) _ c
  exact Chip.ite_dsp rfl (c.invalidate_dsp _)

theorem Chip.hostError_dsp (c : Chip) (o : OpRun) (kind : Nat) : (c.hostError o kind).1.dsp = c.dsp := by
  unfold Chip.hostError
  extract_lets c₁ c₂
  have h₁ : c₁.dsp = c.dsp := c.latchFault_dsp _ _
  have h₂ : c₂.dsp = c₁.dsp := Chip.ite_dsp rfl
    ((Chip.dsp_wr _ _ _ _).trans ((Chip.dsp_wr _ _ _ _).trans (Chip.dsp_wr _ _ _ _)))
  exact (c₂.copyFail_dsp _ _).trans (h₂.trans h₁)

theorem hostCompletionTimeout_keepsHandles (port : Nat) : commandKeepsHandles (.hostCompletionTimeout port) := by
  refine fun s => ⟨_, _, rfl, .inr fun c => Chip.onOp_keepsHandles (fun c o => ?_) c _ _ _⟩
  exact Chip.keepsHandles_ite ((Chip.keepsHandles_of_dsp (c.hostError_dsp _ _)).trans (Chip.setOp_keepsHandles _ _ _)) c.keepsHandles_refl

theorem kvResume_keepsHandles (slot : Nat) : commandKeepsHandles (.kvResume slot) := by
  refine fun s => ⟨_, _, rfl, .inr fun c => Chip.atuCmd_keepsHandles ?_⟩
  split
  · exact (Chip.keepsHandles_of_dsp (c.setHold_dsp _ _)).trans (Chip.settle_keepsHandles _)
  · exact c.keepsHandles_refl

theorem kvAbandon_keepsHandles (slot : Nat) : commandKeepsHandles (.kvAbandon slot) := by
  refine fun s => ⟨_, _, rfl, .inr fun c => Chip.atuCmd_keepsHandles ?_⟩
  split
  · exact c.keepsHandles_refl
  · split
    · exact c.keepsHandles_refl
    · extract_lets a c₁
      have h₁ : c.keepsHandles c₁ := Chip.keepsHandles_of_dsp ((Chip.setHold_dsp _ _ _).trans (c.abandon_dsp _))
      refine h₁.trans ?_
      exact (Chip.finishDesc_keepsHandles _ _ _ _).trans (Chip.settle_keepsHandles _)

/-- A SOLVE whose factor store word cannot be read fails over; any other tile is its operation's own. -/
theorem cnvSolve_keepsHandles (inst stalls corrected : Nat) (uncorrectable : Bool) :
    commandKeepsHandles (.cnvSolve inst stalls corrected uncorrectable) := by
  refine fun s => ⟨_, _, rfl, .inr fun c => Chip.keepsHandles_ite c.keepsHandles_refl ?_⟩
  extract_lets u e hits c₁
  have h₁ : c.keepsHandles c₁ := Chip.keepsHandles_ite (Chip.keepsHandles_of_dsp (c.dsp_count _ _ _)) c.keepsHandles_refl
  refine h₁.trans (Chip.keepsHandles_ite ?_ (c₁.runTile_keepsHandles _ _ _ _ _))
  exact (Chip.keepsHandles_of_dsp (c₁.latchFault_dsp _ _)).trans (Chip.canvasFails_keepsHandles _ _ _ _)

theorem Chip.cnvBegin_dsp (c : Chip) (k op : Nat) (force : Bool) : (c.cnvBegin k op force).dsp = c.dsp :=
  (Chip.setCnv_dsp _ _ _).trans (c.dsp_wr (R.CNV_SVC_CMD_BUSY.inst k) 1 0)

theorem Chip.cnvRefuse_dsp (c : Chip) (k op : Nat) (force : Bool) (result : Nat) : (c.cnvRefuse k op force result).dsp = c.dsp :=
  (Chip.journalService_dsp _ _ _ _).trans (c.dsp_wr _ _ _)

/-- The work of a Canvas unit ends: its running tile goes on, and what it has suspended completes, or all of it ends. -/
theorem Chip.endWork_keepsHandles (c : Chip) (running : Bool) (l mine : List OpRun) (r : OpRun → RecInfo) (u st : Nat) :
    c.keepsHandles (if running then
      (mine.foldl (fun (c : Chip) o => c.finishDesc o.weave o.index (r o)) { c with dsp := { c.dsp with suspended := l } }).settle
      else c.failUnit u st) := by
  refine Chip.keepsHandles_ite ?_ (c.failUnit_keepsHandles _ _)
  have h : c.keepsHandles { c with dsp := { c.dsp with suspended := l } } := fun h => h
  refine h.trans (Chip.keepsHandles.trans ?_ (Chip.settle_keepsHandles _))
  exact Chip.keepsHandles_foldl (fun c o => c.finishDesc_keepsHandles _ _ _) mine _

theorem cnvRemove_keepsHandles (inst : Nat) (force : Bool) : commandKeepsHandles (.cnvRemove inst force) := by
  refine fun s => ⟨_, _, rfl, .inr fun c => Chip.keepsHandles_ite c.keepsHandles_refl ?_⟩
  refine Chip.keepsHandles_ite (Chip.keepsHandles_of_dsp (c.dsp_wr _ _ _)) ?_
  refine Chip.keepsHandles_ite (Chip.keepsHandles_of_dsp (c.cnvRefuse_dsp _ _ _ _)) ?_
  refine Chip.keepsHandles_ite (Chip.keepsHandles_of_dsp (c.cnvRefuse_dsp _ _ _ _)) ?_
  extract_lets +onlyGivenNames c₁ c₂ running mine
  have h₁ : c.keepsHandles c₁ := Chip.keepsHandles_of_dsp ((Chip.setCanvas_dsp _ _ _).trans (c.cnvBegin_dsp _ _ _))
  have h₂ : c₁.keepsHandles c₂ := Chip.keepsHandles_ite (c₁.moveSolves_keepsHandles _) c₁.keepsHandles_refl
  exact h₁.trans (Chip.keepsHandles_ite c₁.keepsHandles_refl (h₂.trans (c₂.endWork_keepsHandles _ _ _ _ _ _)))

theorem Chip.twlRefuse_dsp (c : Chip) (v : TwlService) (result : Nat) : (c.twlRefuse v result).dsp = c.dsp :=
  (Chip.journalService_dsp _ _ _ _).trans (c.dsp_wr _ _ _)

theorem Chip.twlDone_dsp (c : Chip) (v : TwlService) (result : Nat) : (c.twlDone v result).dsp = c.dsp :=
  (Chip.journalService_dsp _ _ _ _).trans ((Chip.twlBusy_dsp _ _).trans (c.dsp_wr _ _ _))

theorem twlRemove_keepsHandles (cluster : Nat) (force autoSpare : Bool) : commandKeepsHandles (.twlRemove cluster force autoSpare) := by
  refine fun s => ⟨_, _, rfl, .inr fun c => ?_⟩
  refine Chip.keepsHandles_ite (Chip.keepsHandles_of_dsp (c.dsp_wr _ _ _)) ?_
  refine Chip.keepsHandles_ite (Chip.keepsHandles_of_dsp (c.twlRefuse_dsp _ _)) ?_
  beta_reduce
  extract_lets left v c₁
  have h₁ : c.keepsHandles c₁ := Chip.keepsHandles_of_dsp (c.twlBusy_dsp _)
  refine Chip.keepsHandles_ite (Chip.keepsHandles_of_dsp (c.twlRefuse_dsp _ _)) ?_
  refine Chip.keepsHandles_ite (Chip.keepsHandles_of_dsp (c.twlRefuse_dsp _ _)) ?_
  exact h₁.trans (Chip.keepsHandles_ite (c₁.twlTrySpare_keepsHandles v) (c₁.twlDrain_keepsHandles v))

theorem twlKatEnd_keepsHandles (pass : Bool) : commandKeepsHandles (.twlKatEnd pass) := by
  refine fun s => ⟨_, _, rfl, .inr fun c => ?_⟩
  split
  · next v _ =>
    split
    · next k _ =>
      extract_lets c₁ c₂ c₃
      have h₁ : c.keepsHandles c₁ := Chip.keepsHandles_of_dsp (c.advanceTo_dsp _)
      have h₂ : c₁.keepsHandles c₂ := Chip.keepsHandles_of_dsp (c₁.dsp_wr _ _ _)
      have h₃ : c₂.keepsHandles c₃ := Chip.keepsHandles_ite (Chip.keepsHandles_of_dsp (c₂.setCluster_dsp _ _))
        (Chip.gngFollow_keepsHandles (Chip.keepsHandles_of_dsp ((Chip.latchFault_dsp _ _ _).trans (c₂.setCluster_dsp _ _))) _)
      refine ((h₁.trans h₂).trans h₃).trans (Chip.keepsHandles_ite ?_ (Chip.keepsHandles_of_dsp (c₃.twlDone_dsp _ _)))
      exact Chip.keepsHandles_ite (c₃.twlDrain_keepsHandles _) (c₃.twlTrySpare_keepsHandles _)
    · exact c.keepsHandles_refl
  · exact c.keepsHandles_refl

/-! ### Sensors and the clock -/

theorem Chip.setPipe_dsp (c : Chip) (p : Nat) (f : PipeState → PipeState) : (c.setPipe p f).dsp = c.dsp := rfl

theorem Chip.setFilter_dsp (c : Chip) (n : Nat) (f : FilterState → FilterState) : (c.setFilter n f).dsp = c.dsp := rfl

theorem Chip.signalAdd_keepsHandles (c : Chip) (n v : Nat) : c.keepsHandles (c.signalAdd n v) := c.signalSet_keepsHandles _ _

theorem frameRecordWrite_keepsHandles (pipe : Nat) : commandKeepsHandles (.frameRecordWrite pipe) := by
  refine fun s => ⟨_, _, rfl, .inr fun c => ?_⟩
  split
  · exact c.keepsHandles_refl
  · extract_lets k q c₁ lines rec_ c₂ c₃ c₄ c₅
    have h₁ : c₁.dsp = c.dsp := c.devWrite_dsp _ _
    have h₂ : c₂.dsp = c₁.dsp := c₁.devWrite_dsp _ _
    have h₃ : c₃.dsp = c₂.dsp := c₂.dsp_count _ _ _
    have h₄ : c₄.dsp = c₃.dsp := Chip.ite_dsp rfl (c₃.dsp_latch _ _)
    have h₅ : c₅.dsp = c₄.dsp := c₄.setPipe_dsp _ _
    exact (Chip.keepsHandles_of_dsp (h₅.trans (h₄.trans (h₃.trans (h₂.trans h₁))))).trans (c₅.signalAdd_keepsHandles _ _)

theorem scanClose_keepsHandles (filter : Nat) : commandKeepsHandles (.scanClose filter) := by
  refine fun s => ⟨_, _, rfl, .inr fun c => Chip.keepsHandles_ite c.keepsHandles_refl ?_⟩
  extract_lets c₁
  have h₁ : c₁.dsp = c.dsp := by
    show (match c.scanUnopened filter with | w :: _ => _ | [] => c : Chip).dsp = c.dsp
    split
    · exact Chip.ite_dsp (c.openScan_dsp _ _ _) rfl
    · rfl
  refine (Chip.keepsHandles_of_dsp h₁).trans ?_
  clear_value c₁
  split
  · exact c₁.keepsHandles_refl
  · extract_lets c₂ q k c₃ rec_ c₄ c₅ c₆
    have h₃ : c₃.dsp = c₁.dsp := (Chip.setFilter_dsp _ _ _).trans (c₁.advanceTo_dsp _)
    have h₄ : c₄.dsp = c₃.dsp := c₃.devWrite_dsp _ _
    have h₅ : c₅.dsp = c₄.dsp := Chip.ite_dsp (c₄.dsp_latch _ _) rfl
    have h₆ : c₆.dsp = c₅.dsp := c₅.setFilter_dsp _ _
    refine Chip.keepsHandles_ite (Chip.keepsHandles_of_dsp h₃) ?_
    exact (Chip.keepsHandles_of_dsp (h₆.trans (h₅.trans (h₄.trans h₃)))).trans (c₆.signalAdd_keepsHandles _ _)

theorem tkuSet_keepsHandles (force : Bool) : commandKeepsHandles (.tkuSet force) := by
  refine fun s => ⟨_, _, rfl, .inr fun c => ?_⟩
  extract_lets ns sec b
  refine Chip.keepsHandles_ite (Chip.keepsHandles_of_dsp (c.tkuDone_dsp _ _ _)) ?_
  refine Chip.keepsHandles_ite (Chip.keepsHandles_of_dsp (c.tkuDone_dsp _ _ _)) ?_
  exact (c.stepTo_keepsHandles _).trans (Chip.keepsHandles_of_dsp (Chip.tkuDone_dsp _ _ _ _))

theorem tkuStep_keepsHandles (force : Bool) : commandKeepsHandles (.tkuStep force) := by
  refine fun s => ⟨_, _, rfl, .inr fun c => ?_⟩
  refine Chip.keepsHandles_ite (Chip.keepsHandles_of_dsp (c.tkuDone_dsp _ _ _)) ?_
  split
  · next d hd => exact (Chip.stepBy_keepsHandles hd).trans (Chip.keepsHandles_of_dsp (d.tkuDone_dsp _ _ _))
  · exact Chip.keepsHandles_of_dsp (c.tkuDone_dsp _ _ _)

theorem forcePending_keepsHandles : commandKeepsHandles .forcePending := by
  refine fun s => ⟨_, _, rfl, .inr fun c => ?_⟩
  refine Chip.keepsHandles_ite (Chip.keepsHandles_of_dsp (c.tkuDone_dsp _ _ _)) ?_
  split
  · next d hd =>
    refine (Chip.stepBy_keepsHandles hd).trans ((d.wr64_keepsHandles R.TKU_PENDING_LO R.TKU_PENDING_HI 0).trans ?_)
    exact (Chip.setTkuState_keepsHandles _ _).trans (Chip.keepsHandles_of_dsp (Chip.tkuDone_dsp _ _ _ _))
  · exact Chip.keepsHandles_of_dsp (c.tkuDone_dsp _ _ _)

theorem offsetArrive_keepsHandles (offset logSync : Int) (seen : Nat) : commandKeepsHandles (.offsetArrive offset logSync seen) :=
  fun _ => ⟨_, _, rfl, .inr fun c => Chip.keepsHandles_ite c.keepsHandles_refl (c.offsetIn_keepsHandles _ _ _)⟩

theorem offsetSubmit_keepsHandles (intervalUs : Nat) : commandKeepsHandles (.offsetSubmit intervalUs) :=
  fun _ => ⟨_, _, rfl, .inr fun c => Chip.keepsHandles_ite (c.offsetIn_keepsHandles _ _ _) c.keepsHandles_refl⟩

end Sys2Proof.Machine

namespace Sys2Proof.Machine

/-! ### Gingham, memory, power and restarts -/

theorem Chip.setFrame_dsp (c : Chip) (f : GngFrame) : (c.setFrame f).dsp = c.dsp := rfl

theorem frameDeadline_keepsHandles (net : Nat) : commandKeepsHandles (.frameDeadline net) := by
  refine fun s => ⟨_, _, rfl, .inr fun c => ?_⟩
  split
  · exact c.keepsHandles_refl
  · extract_lets +onlyGivenNames c₁ f₁ c₂ c₃ c₄
    have h₂ : c₂.dsp = c.dsp := (Chip.setFrame_dsp _ _).trans (c.advanceTo_dsp _)
    have h₃ : c₃.dsp = c₂.dsp := Chip.ite_dsp rfl (c₂.formVerdict_dsp _ _ _)
    have h₄ : c₃.keepsHandles c₄ := by
      show c₃.keepsHandles (match Table.get? c₃.gng.golden net with | some g => _ | none => c₃)
      split
      · exact Chip.keepsHandles_ite ((c₃.dropGolden_keepsHandles net).trans (Chip.keepsHandles_of_dsp (Chip.missGolden_dsp _ _ _ _)))
          c₃.keepsHandles_refl
      · exact c₃.keepsHandles_refl
    exact Chip.gngFollow_keepsHandles ((Chip.keepsHandles_of_dsp (h₃.trans h₂)).trans h₄) _

theorem goldenSlot_keepsHandles (net : Nat) : commandKeepsHandles (.goldenSlot net) := by
  refine fun s => ⟨_, _, rfl, .inr fun c => ?_⟩
  split
  · exact c.keepsHandles_refl
  · next f _ =>
    extract_lets +onlyGivenNames c₁ g c₂
    have h₁ : c.keepsHandles c₁ := Chip.keepsHandles_of_dsp ((Chip.setFrame_dsp _ _).trans (c.advanceTo_dsp _))
    have h₂ : c₁.keepsHandles c₂ := Chip.keepsHandles_of_dsp (c₁.setGng_dsp _)
    have hmiss : c₁.keepsHandles (c₁.missGolden net f.k f.time).gngEnd :=
      Chip.keepsHandles_of_dsp ((Chip.gngEnd_dsp _).trans (c₁.missGolden_dsp _ _ _))
    exact h₁.trans (Chip.keepsHandles_ite hmiss
      (h₂.trans (Chip.keepsHandles_ite (c₂.grantGolden_keepsHandles _ _) c₂.keepsHandles_refl)))

theorem goldenGrant_keepsHandles (net : Nat) : commandKeepsHandles (.goldenGrant net) := by
  refine fun s => ⟨_, _, rfl, .inr fun c => ?_⟩
  split
  · exact Chip.keepsHandles_ite c.keepsHandles_refl (c.grantGolden_keepsHandles _ _)
  · exact c.keepsHandles_refl

theorem goldenLatestExpire_keepsHandles (net : Nat) : commandKeepsHandles (.goldenLatestExpire net) := by
  refine fun s => ⟨_, _, rfl, .inr fun c => ?_⟩
  split
  · refine Chip.keepsHandles_ite c.keepsHandles_refl ?_
    extract_lets c₁
    have h₁ : c.keepsHandles c₁ := Chip.keepsHandles_of_dsp (c.advanceTo_dsp _)
    refine h₁.trans ((c₁.dropGolden_keepsHandles net).trans (Chip.keepsHandles_of_dsp ?_))
    exact (Chip.gngEnd_dsp _).trans (Chip.missGolden_dsp _ _ _ _)
  · exact c.keepsHandles_refl

theorem muslinRead_keepsHandles (addr len unit : Nat) (found net : List (Nat × Bool)) :
    commandKeepsHandles (.muslinRead addr len unit found net) :=
  fun _ => ⟨_, _, rfl, .inr fun c => Chip.keepsHandles_ite (Chip.perLine_keepsHandles
    (fun c _ _ _ => Chip.access_keepsHandles (c.serveRead_keepsHandles _ _ _ _ _)) c _ _) c.keepsHandles_refl⟩

theorem bar2Write_keepsHandles (addr : Nat) (data : List Byte) (net : List (Nat × Bool)) :
    commandKeepsHandles (.bar2Write addr data net) :=
  fun _ => ⟨_, _, rfl, .inr fun c => Chip.keepsHandles_ite (Chip.perLine_keepsHandles
    (fun c _ _ _ => Chip.access_keepsHandles (c.serveBar2Write_keepsHandles _ _ _)) c _ _) c.keepsHandles_refl⟩

theorem retentionWakeDone_keepsHandles (group : Nat) : commandKeepsHandles (.retentionWakeDone group) := by
  refine fun s => ⟨_, _, rfl, .inr fun c => ?_⟩
  extract_lets c₁
  have h₁ : c.keepsHandles c₁ := Chip.keepsHandles_of_dsp (c.wakeGroup_dsp _)
  refine h₁.trans ?_
  split
  · refine (Chip.keepsHandles_of_dsp ?_).trans (Chip.groupServesHeld_keepsHandles _ _)
    exact (Chip.setGroup_dsp _ _ _).trans (c₁.advanceTo_dsp _)
  · exact c₁.keepsHandles_refl

theorem groupFillDone_keepsHandles (group : Nat) : commandKeepsHandles (.groupFillDone group) := by
  refine fun s => ⟨_, _, rfl, .inr fun c => ?_⟩
  split
  · exact (Chip.keepsHandles_of_dsp (c.advanceTo_dsp _)).trans (Chip.groupServesHeld_keepsHandles _ _)
  · exact c.keepsHandles_refl

theorem dramRead_keepsHandles (addr unit : Nat) (errors : List (Nat × Byte)) (net : List (Nat × Bool)) :
    commandKeepsHandles (.dramRead addr unit errors net) :=
  fun _ => ⟨_, _, rfl, .inr fun c => Chip.keepsHandles_ite (Chip.dramAccess_keepsHandles (c.serveDramRead_keepsHandles _ _ _ _))
    c.keepsHandles_refl⟩

theorem dramWrite_keepsHandles (addr unit : Nat) (data : List Byte) (errors : List (Nat × Nat × Byte)) (net : List (Nat × Bool)) :
    commandKeepsHandles (.dramWrite addr unit data errors net) :=
  fun _ => ⟨_, _, rfl, .inr fun c => Chip.keepsHandles_ite (Chip.dramAccess_keepsHandles (c.serveDramWrite_keepsHandles _ _ _ _ _))
    c.keepsHandles_refl⟩

theorem Chip.pairDone_dsp (c : Chip) (pair n : Nat) : (c.pairDone pair n).dsp = c.dsp :=
  (Chip.journalService_dsp _ _ _ _).trans (c.dsp_wr _ _ _)

theorem drcPairRetire_keepsHandles (pair : BitVec 3) : commandKeepsHandles (.drcPairRetire pair) := by
  refine fun s => ⟨_, _, rfl, .inr fun c => ?_⟩
  refine Chip.keepsHandles_ite (Chip.keepsHandles_of_dsp (c.pairDone_dsp _ _)) ?_
  refine Chip.keepsHandles_ite (Chip.keepsHandles_of_dsp (c.pairDone_dsp _ _)) ?_
  extract_lets +onlyGivenNames c₁
  have h₁ : c.keepsHandles c₁ := Chip.keepsHandles_of_dsp ((Chip.loseDram_dsp _).trans c.clearRetired_dsp)
  refine h₁.trans ((Chip.keepsHandles_of_dsp ?_).trans (Chip.openPorts_keepsHandles _))
  exact (Chip.refreshDrcBusy_dsp _).trans (c₁.setDrc_dsp _)

theorem selfRefreshExit_keepsHandles : commandKeepsHandles .selfRefreshExit := by
  refine fun s => ⟨_, _, rfl, .inr fun c => Chip.keepsHandles_ite ?_ c.keepsHandles_refl⟩
  extract_lets +onlyGivenNames c₁
  have h₁ : c.keepsHandles c₁ := by
    show c.keepsHandles (match c.drc.wakeAt with | some t => c.advanceTo (t + 8000) | none => c)
    split
    · exact Chip.keepsHandles_of_dsp (c.advanceTo_dsp _)
    · exact c.keepsHandles_refl
  have h₂ : ∀ d, c₁.keepsHandles { (c₁.wr R.DRC_STATUS_SELF_REFRESH 0).setDomainState 3 0 with drc := d } := fun d =>
    Chip.keepsHandles_of_dsp ((Chip.setDrc_dsp _ _).trans ((Chip.setDomainState_dsp _ _ _).trans (c₁.dsp_wr _ _ _)))
  exact (h₁.trans (h₂ _)).trans (Chip.keepsHandles_foldl (fun c i => c.serveDram_keepsHandles i) _ _)

theorem Chip.setPwr_dsp (c : Chip) (f : Pwr → Pwr) : (c.setPwr f).dsp = c.dsp := rfl

theorem domainWakeDone_keepsHandles (domain : Nat) : commandKeepsHandles (.domainWakeDone domain) := by
  refine fun s => ⟨_, _, rfl, .inr fun c => ?_⟩
  extract_lets +onlyGivenNames st
  refine Chip.keepsHandles_ite c.keepsHandles_refl ?_
  split
  · exact c.keepsHandles_refl
  · extract_lets +onlyGivenNames took c₁ both c₂ c₃
    have h₁ : c₁.dsp = c.dsp := c.advanceTo_dsp _
    have h₂ : c₂.dsp = c₁.dsp := Chip.foldl_dsp (fun c d => .of ((Chip.setPwr_dsp _ _).trans (c.setDomainState_dsp _ _))) _ c₁
    have h₃ : c₃.dsp = c₂.dsp := Chip.ite_dsp c₂.atuRestore_dsp rfl
    exact (Chip.keepsHandles_of_dsp ((c₃.dsp_wr _ _ _).trans (h₃.trans (h₂.trans h₁)))).trans (Chip.settle_keepsHandles _)

theorem Chip.setIsolated_dsp (c : Chip) (l : List Nat) : ({ c with isolated := l } : Chip).dsp = c.dsp := rfl

theorem islandStall_keepsHandles (island unit : Nat) : commandKeepsHandles (.islandStall island unit) := by
  refine fun s => ⟨_, _, rfl, .inr fun c => Chip.keepsHandles_ite c.keepsHandles_refl ?_⟩
  extract_lets +onlyGivenNames ds c₁ c₂ c₃ c₄ c₅ c₆
  have h₁ : c₁.dsp = c.dsp := (Chip.raise_dsp _ _).trans (c.latchFault_dsp _ _)
  have h₂ : c₂.dsp = c₁.dsp := Chip.ite_dsp rfl ((Chip.dsp_wr _ _ _ _).trans (c₁.dsp_wr _ _ _))
  have h₃ : c₃.dsp = c₂.dsp := c₂.setIsolated_dsp _
  have h₄ : c₄.dsp = c₃.dsp := Chip.ite_dsp ((Chip.dsp_wr _ _ _ _).trans (c₃.setCluster_dsp _ _)) rfl
  have h₅ : c₄.keepsHandles c₅ := Chip.keepsHandles_ite (c₄.canvasFails_keepsHandles _ _ _)
    (Chip.keepsHandles_foldl (fun c u => c.failEngine_keepsHandles u _) _ c₄)
  have h₆ : c₅.keepsHandles c₆ := Chip.keepsHandles_ite (c₅.failReady_keepsHandles _ _) c₅.keepsHandles_refl
  have h : c.keepsHandles c₆ := (Chip.keepsHandles_of_dsp (h₄.trans (h₃.trans (h₂.trans h₁)))).trans (h₅.trans h₆)
  exact Chip.gngFollow_keepsHandles (h.trans (Chip.keepsHandles_ite c₆.keepsHandles_refl (c₆.unitMeets_keepsHandles _ _))) _

theorem Chip.setBup_dsp (c : Chip) (b : Bup) : ({ c with bup := b } : Chip).dsp = c.dsp := rfl

theorem Chip.domainResult_dsp (c : Chip) (n : Nat) : (c.domainResult n).dsp = c.dsp := c.dsp_wr _ _ _

theorem domainRestart_keepsHandles (domain : BitVec 5) : commandKeepsHandles (.domainRestart domain) := by
  refine fun s => ⟨_, _, rfl, .inr fun c => ?_⟩
  extract_lets +onlyGivenNames d
  refine Chip.keepsHandles_ite (Chip.keepsHandles_of_dsp (c.domainResult_dsp _)) ?_
  refine Chip.keepsHandles_ite (Chip.keepsHandles_of_dsp (c.domainResult_dsp _)) ?_
  refine Chip.keepsHandles_ite (Chip.keepsHandles_of_dsp (c.domainResult_dsp _)) ?_
  extract_lets +onlyGivenNames ds b c₁ c₂
  have h₁ : c.keepsHandles c₁ := Chip.keepsHandles_of_dsp ((Chip.dsp_wr _ _ _ _).trans (c.setBup_dsp _))
  have h₂ : c₁.keepsHandles c₂ := Chip.keepsHandles_foldl (fun c u => c.failEngine_keepsHandles u _) _ c₁
  refine Chip.gngFollow_keepsHandles ((h₁.trans h₂).trans ?_) _
  exact Chip.keepsHandles_foldl (fun c e => Chip.keepsHandles_of_dsp (c.domainLoses_dsp e)) _ c₂

theorem domainRestartDone_keepsHandles (fail : BitVec 27) : commandKeepsHandles (.domainRestartDone fail) := by
  refine fun s => ⟨_, _, rfl, .inr fun c => ?_⟩
  split
  · exact c.keepsHandles_refl
  · extract_lets +onlyGivenNames tests failed bad b c₁ c₂ c₃ c₄
    have h₁ : c₁.dsp = c.dsp := (Chip.dsp_wr _ _ _ _).trans (c.setBup_dsp _)
    have h₂ : c₂.dsp = c₁.dsp := (Chip.domainResult_dsp _ _).trans ((Chip.katMarks_dsp _ _ _).trans (c₁.katBits_dsp _ _))
    have h₃ : c₃.dsp = c₂.dsp := Chip.foldl_dsp (fun c t => .of (c.katOut_dsp t)) _ c₂
    have h₄ : c₄.dsp = c₃.dsp :=
      Chip.foldl_dsp (fun c e => .of ((Chip.isolateDomain_dsp _ _ _).trans (c.domainReturns_dsp e))) _ c₃
    refine Chip.gngFollow_keepsHandles ((Chip.keepsHandles_of_dsp ?_).trans (Chip.settle_keepsHandles _)) _
    exact h₄.trans (h₃.trans (h₂.trans h₁))

/-- A chip with the dispatch tables of reset holds no weave. -/
theorem Chip.keepsHandles_of_reset {c d : Chip} (h : d.dsp = Chip.reset.dsp) : c.keepsHandles d := by
  intro _
  rw [h]
  exact ⟨List.Pairwise.nil, by simp [Chip.reset]⟩

theorem Chip.fabricOff_keepsHandles (c : Chip) (sr : Bool) : c.keepsHandles (c.fabricOff sr) :=
  Chip.keepsHandles_of_reset (c.fabricOff_spec sr).2.2.1

theorem Chip.replacePwr_dsp (c : Chip) (p : Pwr) : ({ c with pwr := p } : Chip).dsp = c.dsp := rfl

theorem standbyEntryDone_keepsHandles : commandKeepsHandles .standbyEntryDone := by
  refine fun s => ⟨_, _, rfl, .inr fun c => Chip.keepsHandles_ite c.keepsHandles_refl ?_⟩
  extract_lets +onlyGivenNames c₁
  have h₁ : c.keepsHandles c₁ := c.fabricOff_keepsHandles true
  exact h₁.trans (Chip.keepsHandles_of_dsp (c₁.replacePwr_dsp _))

theorem warmRestart_keepsHandles : commandKeepsHandles .warmRestart := by
  refine fun s => ⟨_, _, rfl, .inr fun c => Chip.keepsHandles_ite (Chip.keepsHandles_of_dsp (c.dsp_wr _ _ _)) ?_⟩
  extract_lets +onlyGivenNames c₁
  have h₁ : c.keepsHandles c₁ := c.fabricOff_keepsHandles true
  exact h₁.trans (Chip.keepsHandles_of_dsp ((Chip.dsp_wr _ _ _ _).trans (c₁.setBup_dsp _)))

end Sys2Proof.Machine

namespace Sys2Proof.Machine

/-! ### Dispatch -/

theorem submissionEntryTake_keepsHandles : commandKeepsHandles .submissionEntryTake := by
  refine fun s => ⟨_, _, rfl, .inr fun c => Chip.unlessHeld_keepsHandles fun c => ?_⟩
  split
  · split
    · exact c.takeEntry_keepsHandles _ _
    · exact c.keepsHandles_refl
  · exact c.keepsHandles_refl

theorem timedLaunch_keepsHandles (entry : Nat) : commandKeepsHandles (.timedLaunch entry) := by
  refine fun s => ⟨_, _, rfl, .inr fun c => Chip.keepsHandles_ite c.keepsHandles_refl ?_⟩
  exact (Chip.keepsHandles_of_dsp ((Chip.gridServe_dsp _ _ _).trans (c.advanceTo_dsp _))).trans (Chip.launch_keepsHandles _ _ _)

theorem descriptorFetch_keepsHandles (weave : Nat) : commandKeepsHandles (.descriptorFetch weave) := by
  refine fun s => ⟨_, _, rfl, .inr fun c => ?_⟩
  split
  · exact Chip.keepsHandles_ite (Chip.gngFollow_keepsHandles (Chip.unlessHeld_keepsHandles fun c => c.fetch_keepsHandles _) _)
      c.keepsHandles_refl
  · exact c.keepsHandles_refl

theorem descriptorStart_keepsHandles (unit : Nat) : commandKeepsHandles (.descriptorStart unit) := by
  refine fun s => ⟨_, _, rfl, .inr fun c => Chip.keepsHandles_ite c.keepsHandles_refl ?_⟩
  have hrefuse : ∀ (k : Candidate) (st : Nat), c.keepsHandles (c.refuseStart k st).gngFollow := fun k st =>
    Chip.gngFollow_keepsHandles (c.refuseStart_keepsHandles k st) _
  split
  · exact (c.startMirror_keepsHandles _ _ _).trans (Chip.keepsHandles_of_dsp (Chip.refresh_dsp _))
  · split
    · exact hrefuse _ _
    · split
      · exact c.keepsHandles_refl
      · exact Chip.keepsHandles_ite (hrefuse _ _) <| Chip.keepsHandles_ite (hrefuse _ _) <|
          Chip.keepsHandles_ite (hrefuse _ _) <| Chip.keepsHandles_ite c.keepsHandles_refl (c.startOn_keepsHandles _ _)

theorem Chip.restoreContext_dsp (c : Chip) (u cls : Nat) : (c.restoreContext u cls).1.dsp = c.dsp := c.devRead_dsp _ _

theorem operationResume_keepsHandles (unit : Nat) : commandKeepsHandles (.operationResume unit) := by
  refine fun s => ⟨_, _, rfl, .inr fun c => ?_⟩
  split
  · exact c.keepsHandles_refl
  · next o _ =>
    extract_lets +onlyGivenNames rival rest b c₁ r
    have h₁ : c.keepsHandles c₁ := fun h => h
    have h₂ : c₁.keepsHandles r.1 := Chip.keepsHandles_of_dsp (c₁.restoreContext_dsp _ _)
    have h₃ : ∀ o, r.1.keepsHandles (r.1.ctxFault.setOp unit o) := fun o =>
      (Chip.keepsHandles_of_dsp (r.1.latchFault_dsp _ _)).trans (Chip.setOp_keepsHandles _ _ _)
    refine Chip.keepsHandles_ite c.keepsHandles_refl ((h₁.trans h₂).trans ?_)
    exact (Chip.keepsHandles_ite (r.1.setOp_keepsHandles unit o) (h₃ _)).trans (Chip.settle_keepsHandles _)

theorem holdExpire_keepsHandles (unit : Nat) : commandKeepsHandles (.holdExpire unit) := by
  refine fun s => ⟨_, _, rfl, .inr fun c => ?_⟩
  extract_lets +onlyGivenNames hold
  split
  · next t _ =>
    have h : c.keepsHandles (c.advanceTo (t + hold * 1000)) := Chip.keepsHandles_of_dsp (c.advanceTo_dsp _)
    exact Chip.keepsHandles_ite c.keepsHandles_refl (h.trans fun h => h)
  · exact c.keepsHandles_refl

theorem tileEnd_keepsHandles (unit ns : Nat) : commandKeepsHandles (.tileEnd unit ns) := by
  refine fun s => ⟨_, _, rfl, .inr fun c => ?_⟩
  split
  · refine Chip.keepsHandles_ite c.keepsHandles_refl (Chip.keepsHandles_ite ?_ ?_)
    · refine Chip.gngFollow_keepsHandles (Chip.unlessHeld_keepsHandles fun c => ?_) _
      exact Chip.keepsHandles_ite (c.failUnit_keepsHandles _ _) (c.mirrorTileEnd_keepsHandles _ _ _)
    · exact Chip.gngFollow_keepsHandles (Chip.unlessHeld_keepsHandles fun c => c.tileEnds_keepsHandles _ _ _) _
  · exact c.keepsHandles_refl

theorem operationComplete_keepsHandles (unit : Nat) (wrong : Bool) : commandKeepsHandles (.operationComplete unit wrong) := by
  refine fun s => ⟨_, _, rfl, .inr fun c => ?_⟩
  split
  · refine Chip.keepsHandles_ite c.keepsHandles_refl (Chip.gngFollow_keepsHandles (Chip.keepsHandles_ite ?_ ?_) _)
    · exact (c.endMirror_keepsHandles _ _ _).trans (Chip.keepsHandles_of_dsp (Chip.refresh_dsp _))
    · exact Chip.keepsHandles_ite (c.completeAtu_keepsHandles _) (c.completeOp_keepsHandles _ _)
  · exact c.keepsHandles_refl

theorem Chip.endDesc_keepsHandles (c : Chip) (weave index : Nat) (r : RecInfo) :
    c.keepsHandles (c.finishDesc weave index r).settle.gngFollow :=
  Chip.gngFollow_keepsHandles ((c.finishDesc_keepsHandles _ _ _).trans (Chip.settle_keepsHandles _)) _

theorem nop_keepsHandles (weave index : Nat) : commandKeepsHandles (.nop weave index) :=
  fun _ => ⟨_, _, rfl, .inr fun c => Chip.control_keepsHandles (fun c _ _ => c.endDesc_keepsHandles _ _ _) c _ _ _⟩

theorem waitUntil_keepsHandles (weave index : Nat) : commandKeepsHandles (.waitUntil weave index) := by
  refine fun s => ⟨_, _, rfl, .inr fun c => Chip.control_keepsHandles (fun c _ d => ?_) c _ _ _⟩
  exact Chip.keepsHandles_ite (Chip.gngFollow_keepsHandles (c.waitDone_keepsHandles _ _) _)
    ((c.setDescState_keepsHandles _ _ _).trans (Chip.settle_keepsHandles _))

theorem waitUntilExpire_keepsHandles (weave index : Nat) : commandKeepsHandles (.waitUntilExpire weave index) := by
  refine fun s => ⟨_, _, rfl, .inr fun c => ?_⟩
  split
  · refine Chip.keepsHandles_ite (Chip.gngFollow_keepsHandles ?_ _) c.keepsHandles_refl
    exact (Chip.keepsHandles_of_dsp (c.advanceTo_dsp _)).trans (Chip.waitDone_keepsHandles _ _ _)
  · exact c.keepsHandles_refl

theorem Chip.setPoison_dsp (c : Chip) (s : Nat) (v : Bool) : (c.setPoison s v).dsp = c.dsp := c.dsp_wr _ _ _

theorem sigSet_keepsHandles (weave index : Nat) : commandKeepsHandles (.sigSet weave index) := by
  refine fun s => ⟨_, _, rfl, .inr fun c => Chip.control_keepsHandles (fun c _ d => ?_) c _ _ _⟩
  exact (Chip.keepsHandles_of_dsp ((Chip.setPoison_dsp _ _ _).trans (c.dsp_wr _ _ _))).trans (Chip.endDesc_keepsHandles _ _ _ _)

theorem dspCancel_keepsHandles (weaveId : BitVec 16) : commandKeepsHandles (.dspCancel weaveId) := by
  refine fun s => ⟨_, _, rfl, .inr fun c => Chip.gngFollow_keepsHandles (Chip.keepsHandles.trans ?_ (Chip.settle_keepsHandles _)) _⟩
  refine Chip.keepsHandles_of_sublist ?_ rfl
  have hids : (c.dsp.weaves.map fun (w : Weave) => if w.weaveId = weaveId.toNat then { w with cancelled := true } else w).map (·.id) =
      c.dsp.weaves.map (·.id) := by
    rw [List.map_map]
    refine List.map_congr_left fun w _ => ?_
    simp only [Function.comp_apply, apply_ite Weave.id, ite_self]
  exact hids ▸ List.Sublist.refl _

theorem Chip.twOp_keepsHandles (c : Chip) (cluster opcode stalls : Nat) (ecc : EccFinding)
    (row : Chip → OpRun → Nat → Chip × OpRun × Nat) : c.keepsHandles (c.twOp cluster opcode stalls ecc row) :=
  c.runTile_keepsHandles _ _ _ _ _

/-! ## The invariant -/

theorem commandKeepsHandles_of_not_pin {i : Instr} (hp : pinCommand i = false) : commandKeepsHandles i := by
  cases i with
  | keeperSupplyOn | keeperSupplyLoss | sysResetAssert | sysResetRelease | refclkKprLoss | perstAssert | perstRelease
  | railOutOfWindow | railsRestored => cases hp
  | controlTick | commitInstant | estimateWindowEnd | pmbusRead | thermalSample | holdoverTimeout | sessionExpire | saveDone
  | journalMirror | tagPersist | repairAppendDone | standbyWakePin | standbyWakeTime | standbyWakeDone | warmRestartDone =>
    exact commandKeepsHandles_of_server .keeper rfl fun s => ⟨_, _, rfl, .inl rfl⟩
  | odxRead o | odxDescribe o | odxOpen o | odxStage o | odxCommit o | odxAbort o | odxWrite o | odxNote o | odxSave o
  | clearImage o =>
    exact commandKeepsHandles_of_runFor o (by cases o <;> rfl) fun s => ⟨_, _, rfl, rfl⟩
  | kvWrite | kvSwap | kvInvalidate | kvClearHeld | kvFence | atuFreePush | powerSequenceCheck | fuseLoad
  | clockIslandStart | keeperRestore | muslinTest | dramTraining | dramTest | repairApply | knownAnswerRuns | dictionaryLoad
  | queueSetup | bupReady | stageAbort | cnvTest | cnvReturn | dmkSpareRequest | drcRetire
  | drcTrainStart | drcTrainRestore | hostTxProd | gngFaultClear | jerseyDisable | jrsSwap | bar2Read
  | mslRepairApply | standby | queueEnable | queueDisable | queueQuery | doorbellWrite
  | repairRecordAppend | tkuSnap | relock | txtsPop
  | trackDelete | trackConfirm | tulleEnable | twlTest | twlReturn | twlActivate | twlGngPairWrite | statClear
  | dspCtrlEnable => exact commandKeepsHandles_of_server .host rfl fun s => ⟨_, _, rfl, .inl rfl⟩
  | matmul | pin | unpin | slotSave | slotLoad | columnTest | scan | anchor | checkpoint | restore | attnDecode | attnPrefill
  | copy | fill | batch | fuse | trackImport | trackExport | plan | tulRepair | worldEdit =>
    exact commandKeepsHandles_of_server .fabric rfl fun s => ⟨_, _, rfl, .inr fun c => c.runTile_keepsHandles _ _ _ _ _⟩
  | unary | binary | ternary | reduce | cumulative | softmax | norm | optim | topk | sample | convert | layout | rope | loss
  | backward | stats | shadowScan | vmatmul =>
    exact commandKeepsHandles_of_server .fabric rfl fun s => ⟨_, _, rfl, .inr fun c => c.twOp_keepsHandles _ _ _ _ _⟩
  | cnvLoad | cnvUnload =>
    exact commandKeepsHandles_of_server .fabric rfl fun s =>
      ⟨_, _, rfl, .inr fun c => Chip.keepsHandles_ite c.keepsHandles_refl (c.runTile_keepsHandles _ _ _ _ _)⟩
  | hostCompletionTimeout port => exact hostCompletionTimeout_keepsHandles port
  | kvResume slot => exact kvResume_keepsHandles slot
  | kvAbandon slot => exact kvAbandon_keepsHandles slot
  | cnvSolve inst stalls corrected uncorrectable => exact cnvSolve_keepsHandles inst stalls corrected uncorrectable
  | cnvRemove inst force => exact cnvRemove_keepsHandles inst force
  | twlRemove cluster force autoSpare => exact twlRemove_keepsHandles cluster force autoSpare
  | twlKatEnd pass => exact twlKatEnd_keepsHandles pass
  | frameRecordWrite pipe => exact frameRecordWrite_keepsHandles pipe
  | scanClose filter => exact scanClose_keepsHandles filter
  | tkuSet force => exact tkuSet_keepsHandles force
  | tkuStep force => exact tkuStep_keepsHandles force
  | forcePending => exact forcePending_keepsHandles
  | offsetArrive offset logSync seen => exact offsetArrive_keepsHandles offset logSync seen
  | offsetSubmit intervalUs => exact offsetSubmit_keepsHandles intervalUs
  | frameDeadline net => exact frameDeadline_keepsHandles net
  | goldenSlot net => exact goldenSlot_keepsHandles net
  | goldenGrant net => exact goldenGrant_keepsHandles net
  | goldenLatestExpire net => exact goldenLatestExpire_keepsHandles net
  | muslinRead addr len unit found net => exact muslinRead_keepsHandles addr len unit found net
  | muslinWrite | bitSetWrite | bitClearWrite =>
    exact fun s => ⟨_, _, rfl, .inr fun c => c.writeCommand_keepsHandles _ _ _ _ _ _⟩
  | bar2Write addr data net => exact bar2Write_keepsHandles addr data net
  | hatomSet | hatomClr => exact fun s => ⟨_, _, rfl, .inr fun c => Chip.access_keepsHandles (c.atomic_keepsHandles _ _ _ _)⟩
  | retentionWakeDone group => exact retentionWakeDone_keepsHandles group
  | groupFillDone group => exact groupFillDone_keepsHandles group
  | dramRead addr unit errors net => exact dramRead_keepsHandles addr unit errors net
  | dramWrite addr unit data errors net => exact dramWrite_keepsHandles addr unit data errors net
  | drcPairRetire pair => exact drcPairRetire_keepsHandles pair
  | selfRefreshExit => exact selfRefreshExit_keepsHandles
  | domainWakeDone domain => exact domainWakeDone_keepsHandles domain
  | islandStall island unit => exact islandStall_keepsHandles island unit
  | domainRestart domain => exact domainRestart_keepsHandles domain
  | domainRestartDone fail => exact domainRestartDone_keepsHandles fail
  | standbyEntryDone => exact standbyEntryDone_keepsHandles
  | warmRestart => exact warmRestart_keepsHandles
  | registerWrite addr size data =>
    exact fun s => ⟨_, _, rfl, .inr fun c => Chip.keepsHandles_ite (c.registerWrite_keepsHandles _ _ _) c.keepsHandles_refl⟩
  | submissionEntryTake => exact submissionEntryTake_keepsHandles
  | timedLaunch entry => exact timedLaunch_keepsHandles entry
  | descriptorFetch weave => exact descriptorFetch_keepsHandles weave
  | descriptorStart unit => exact descriptorStart_keepsHandles unit
  | operationResume unit => exact operationResume_keepsHandles unit
  | holdExpire unit => exact holdExpire_keepsHandles unit
  | tileEnd unit ns => exact tileEnd_keepsHandles unit ns
  | operationComplete unit wrong => exact operationComplete_keepsHandles unit wrong
  | nop weave index => exact nop_keepsHandles weave index
  | waitUntil weave index => exact waitUntil_keepsHandles weave index
  | waitUntilExpire weave index => exact waitUntilExpire_keepsHandles weave index
  | sigSet weave index => exact sigSet_keepsHandles weave index
  | dspCancel weaveId => exact dspCancel_keepsHandles weaveId
  | dspSigAdd =>
    exact fun s => ⟨_, _, rfl, .inr fun c => Chip.gngFollow_keepsHandles (c.signalAdd_keepsHandles _ _) _⟩
  | dspSigWrite =>
    exact fun s => ⟨_, _, rfl, .inr fun c => Chip.gngFollow_keepsHandles (c.signalSet_keepsHandles _ _) _⟩
  | _ => exact commandKeepsHandles_of_server .fabric rfl fun s => ⟨_, _, rfl, .inl rfl⟩

/-- The whole reset empties the dispatch tables. -/
theorem Chip.resetFrom_keepsHandles (c : Chip) (p : Pkg) : c.keepsHandles { c.resetFrom with pkg := p } :=
  Chip.keepsHandles_of_reset rfl

theorem Chip.setPkg_dsp (c : Chip) (p : Pkg) : ({ c with pkg := p } : Chip).dsp = c.dsp := rfl

theorem Chip.setHif_dsp (c : Chip) (h : Hif) : ({ c with hif := h } : Chip).dsp = c.dsp := rfl

theorem Chip.setPins_dsp (c : Chip) (p : Pkg) (h : Hif) : ({ c with pkg := p, hif := h } : Chip).dsp = c.dsp := rfl

theorem Chip.fabricOn_dsp (c : Chip) (p : GroupPhase) : (c.fabricOn p).dsp = c.dsp := by
  unfold Chip.fabricOn
  extract_lets +onlyGivenNames c₁ c₂
  have h₁ : c₁.dsp = c.dsp := Chip.foldl_dsp (fun c d => .of (c.setDomainState_dsp d _)) _ c
  have h₂ : c₂.dsp = c₁.dsp := Chip.foldl_dsp (fun c g => .of (c.setPhase_dsp g _)) _ c₁
  exact (Chip.refresh_dsp _).trans ((c₂.setPins_dsp _ _).trans (h₂.trans h₁))

theorem railOutOfWindow_keepsHandles {s t : State} (rail ns : Nat) (h : exec (.railOutOfWindow rail ns) s = .next t) :
    s.chip.keepsHandles t.chip := by
  injection h with h
  subst h
  refine Chip.keepsHandles_ite (Chip.keepsHandles_ite (Chip.resetFrom_keepsHandles _ _) (Chip.keepsHandles_refl _)) ?_
  refine Chip.keepsHandles_ite (Chip.keepsHandles_refl _) ?_
  extract_lets +onlyGivenNames b c₁
  have h₁ : s.chip.keepsHandles c₁ := Chip.keepsHandles_of_dsp (s.chip.setPkg_dsp _)
  refine h₁.trans (Chip.keepsHandles_ite c₁.keepsHandles_refl ?_)
  have hoff : c₁.keepsHandles (if c₁.pkg.down then c₁.loseDram else c₁.fabricOff false) :=
    Chip.keepsHandles_ite (Chip.keepsHandles_of_dsp c₁.loseDram_dsp) (c₁.fabricOff_keepsHandles false)
  refine hoff.trans (Chip.keepsHandles_of_dsp ?_)
  simp only [Chip.dsp_wr]

theorem railsRestored_keepsHandles {s t : State} (h : exec .railsRestored s = .next t) : s.chip.keepsHandles t.chip := by
  injection h with h
  subst h
  refine Chip.keepsHandles_of_dsp ?_
  simp only [apply_ite Chip.dsp, Chip.fabricOn_dsp, Chip.dsp_wr, ite_self]

theorem pin_keepsHandles {i : Instr} (hp : pinCommand i = true) {s t : State} (h : exec i s = .next t) :
    s.chip.keepsHandles t.chip := by
  cases i with
  | keeperSupplyOn | sysResetAssert =>
    injection h with h
    subst h
    exact Chip.keepsHandles_ite (Chip.keepsHandles_refl _) (Chip.resetFrom_keepsHandles _ _)
  | keeperSupplyLoss | sysResetRelease =>
    injection h with h
    subst h
    exact Chip.keepsHandles_ite (Chip.resetFrom_keepsHandles _ _) (Chip.keepsHandles_refl _)
  | refclkKprLoss =>
    injection h with h
    subst h
    exact Chip.keepsHandles_of_dsp (s.chip.setPkg_dsp _)
  | railOutOfWindow rail ns => exact railOutOfWindow_keepsHandles rail ns h
  | railsRestored => exact railsRestored_keepsHandles h
  | perstAssert =>
    injection h with h
    subst h
    have hreset : ∀ c : Chip, c.keepsHandles (c.linkLost.hostReset R.HIF_STATUS_RESET_SEEN) := fun c =>
      (Chip.keepsHandles_of_within c.linkLost_within rfl).trans (Chip.keepsHandles_of_within (c.linkLost.hostReset_within _) rfl)
    exact (Chip.keepsHandles_of_dsp (s.chip.setHif_dsp _)).trans (Chip.keepsHandles_ite (hreset _) (Chip.keepsHandles_refl _))
  | perstRelease =>
    injection h with h
    subst h
    exact Chip.keepsHandles_of_dsp (s.chip.setHif_dsp _)
  | _ => cases hp

theorem exec_keepsHandles {i : Instr} {s t : State} (h : exec i s = .next t) : s.chip.keepsHandles t.chip := by
  cases hp : pinCommand i with
  | true => exact pin_keepsHandles hp h
  | false =>
    obtain ⟨ps, f, he, hf⟩ := commandKeepsHandles_of_not_pin hp s
    cases hv : (serverOf i).up s.chip with
    | false =>
      rw [he, Server.run_down hv] at h
      cases h
      exact s.chip.keepsHandles_refl
    | true =>
      rw [he, Server.run_up hv] at h
      cases h
      by_cases hps : ps.contains .dsp = true
      · rw [Chip.keepsHandles, Chip.only_dsp_in _ _ _ hps]
        exact hf.resolve_left (ne_false_of_eq_true hps) s.chip
      · exact Chip.keepsHandles_of_dsp (Chip.only_dsp_out _ _ _ (Bool.eq_false_iff.mpr hps))

/-- Settles O5: every command keeps the handles, because only `Chip.addWeave` lets a weave in, with a handle above all others, and
everything else leaves, keeps or updates weaves in place (`Chip.keepsHandles_of_sublist`). -/
theorem handlesStayDistinct : Obligations.HandlesStayDistinct := by
  unfold Obligations.HandlesStayDistinct
  intro s t h
  obtain ⟨c, q⟩ := s
  cases q with
  | nil =>
    cases h
    exact Chip.keepsHandles_ite c.keepsHandles_refl fun h => h
  | cons i rest => exact exec_keepsHandles (s := ⟨c, rest⟩) h

end Sys2Proof.Machine

namespace Sys2Proof.Machine

/-! # What leaves the Dispatch signals alone (R77) -/

/-- From `c` to `d` the 256 Dispatch signals keep their values. -/
def Chip.keepsSignals (c d : Chip) : Prop := ∀ n, n < 256 → d.rd R.DSP_SIG_VALUE n = c.rd R.DSP_SIG_VALUE n

theorem Chip.keepsSignals_refl (c : Chip) : c.keepsSignals c := fun _ _ => rfl

theorem Chip.keepsSignals.trans {c d e : Chip} (h : c.keepsSignals d) (k : d.keepsSignals e) : c.keepsSignals e :=
  fun n hn => (k n hn).trans (h n hn)

theorem Chip.keepsSignals_of_regs {c d : Chip} (h : d.regs = c.regs) : c.keepsSignals d := fun n _ => by
  unfold Chip.rd
  rw [h]

theorem Chip.keepsSignals_of_within {c d : Chip} {ps : List Part} (h : c.within d ps) (hps : ps.contains .regs = false) :
    c.keepsSignals d :=
  Chip.keepsSignals_of_regs (Chip.within_keeps c d ps (·.regs) h (Chip.only_regs_out _ _ _ hps))

theorem Chip.keepsSignals_ite {c d e : Chip} {p : Prop} [Decidable p] (h : c.keepsSignals d) (k : c.keepsSignals e) :
    c.keepsSignals (if p then d else e) := by
  split
  · exact h
  · exact k

theorem Chip.keepsSignals_foldl {α : Type} {f : Chip → α → Chip} (h : ∀ (c : Chip) (a : α), c.keepsSignals (f c a)) (l : List α)
    (c : Chip) : c.keepsSignals (l.foldl f c) := by
  induction l generalizing c with
  | nil => exact c.keepsSignals_refl
  | cons a l ih => exact (h c a).trans (ih _)

theorem Chip.keepsSignals_foldl_fst {α β : Type} {f : Chip × β → α → Chip × β} (h : ∀ (s : Chip × β) (a : α), s.1.keepsSignals (f s a).1)
    (l : List α) (s : Chip × β) : s.1.keepsSignals (l.foldl f s).1 := by
  induction l generalizing s with
  | nil => exact s.1.keepsSignals_refl
  | cons a l ih => exact (h s a).trans (ih _)

/-- Every element of a field lies outside the signals: behind them, or, of a register by itself, before them. -/
def Field.sparesSignals (f : Field) : Bool :=
  decide (0x201400 ≤ f.addr) || (f.stride == 0 && decide (8 * f.addr + f.lo + f.width ≤ 8 * 0x201000))

theorem Field.sparesSignals_apart {f : Field} (h : f.sparesSignals = true) (i : Nat) {n : Nat} (hn : n < 256) :
    f.apart i R.DSP_SIG_VALUE n = true := by
  simp only [Field.sparesSignals, Bool.or_eq_true, Bool.and_eq_true, decide_eq_true_eq, beq_iff_eq] at h
  rw [Field.apart, Bool.or_eq_true, decide_eq_true_eq, decide_eq_true_eq]
  simp only [Field.pos, R.DSP_SIG_VALUE]
  obtain h | ⟨hstride, h⟩ := h
  · right
    have hplace := Nat.zero_le (i * f.stride)
    omega
  · left
    rw [hstride]
    omega

theorem Chip.keepsSignals_wr (c : Chip) {f : Field} (v i : Nat) (h : f.sparesSignals = true) : c.keepsSignals (c.wr f v i) :=
  fun _ hn => Chip.rd_wr_apart _ _ _ _ _ _ (Field.sparesSignals_apart h i hn)

theorem Chip.keepsSignals_count (c : Chip) {f : Field} (i n : Nat) (h : f.sparesSignals = true) : c.keepsSignals (c.count f i n) :=
  c.keepsSignals_wr _ _ h

theorem Chip.keepsSignals_latch (c : Chip) {f : Field} (i : Nat) (h : f.sparesSignals = true) : c.keepsSignals (c.latch f i) :=
  c.keepsSignals_wr _ _ h

/-- The signals are no event's bit, and none of the vectors' pending bits. -/
theorem signal_clearOfEvent {n v : Nat} (hn : n < 256) (hv : v < 2 ^ 16) : R.DSP_SIG_VALUE.clearOfEvent n v = true := by
  have hbase : R.DSP_SIG_VALUE.base n = 0x201000 + n * 4 + 0 := rfl
  have hwords : R.DSP_SIG_VALUE.nwords = 1 := rfl
  simp only [Field.clearOfEvent, Bool.and_eq_true, List.all_eq_true, List.mem_range, bne_iff_ne]
  refine ⟨Field.sparesSignals_apart (by decide) 0 hn, fun k hk => ?_⟩
  rw [hbase, msixPba]
  omega

theorem Chip.keepsSignals_sendVector (c : Chip) {v : Nat} (hv : v < 2 ^ 16) : c.keepsSignals (c.sendVector v) :=
  fun _ hn => Chip.rd_sendVector _ _ (signal_clearOfEvent hn hv)

theorem Chip.keepsSignals_raise (c : Chip) {v : Nat} (hv : v < 2 ^ 16) : c.keepsSignals (c.raise v) :=
  fun _ hn => Chip.rd_raise _ _ (signal_clearOfEvent hn hv)

theorem Chip.keepsSignals_latchFault (c : Chip) {f : Field} (i : Nat) (h : f.sparesSignals = true) :
    c.keepsSignals (c.latchFault f i) :=
  fun _ hn => Chip.rd_latchFault_apart _ _ _ _ _ (Field.sparesSignals_apart h i hn) (signal_clearOfEvent hn (by decide))

/-! ## Memory -/

theorem Chip.keepsSignals_setDomainState (c : Chip) (d v : Nat) : c.keepsSignals (c.setDomainState d v) :=
  Chip.keepsSignals_ite (c.keepsSignals_wr _ _ (by decide)) (c.keepsSignals_wr _ _ (by decide))

theorem Chip.keepsSignals_setPhase (c : Chip) (g : Nat) (p : GroupPhase) : c.keepsSignals (c.setPhase g p) := by
  have hgroup : c.keepsSignals (c.setGroup g (fun r => { r with phase := p })) := fun _ _ => rfl
  exact (hgroup.trans (Chip.keepsSignals_setDomainState _ _ _)).trans (Chip.keepsSignals_wr _ _ _ (by decide))

theorem Chip.keepsSignals_touchGroup (c : Chip) (g : Nat) : c.keepsSignals (c.touchGroup g) := by
  have hwake : c.keepsSignals (c.wakeGroup g) := by
    unfold Chip.wakeGroup
    split
    · exact c.keepsSignals_setPhase _ _
    · exact Chip.keepsSignals_ite (c.keepsSignals_setPhase _ _)
        (Chip.keepsSignals.trans (d := c.isolateGroup g) (fun _ _ => rfl) (Chip.keepsSignals_setPhase _ _ _))
    · exact c.keepsSignals_refl
  exact hwake.trans fun _ _ => rfl

theorem Chip.keepsSignals_muslinUe (c : Chip) (w src : Nat) : c.keepsSignals (c.muslinUe w src) := by
  have hlatch : c.keepsSignals ((c.count R.MSL_ECC_UE_CNT).latchFault R.MSL_STATUS_UE_LATCH) :=
    (c.keepsSignals_count _ _ (by decide)).trans (Chip.keepsSignals_latchFault _ _ (by decide))
  refine hlatch.trans (Chip.keepsSignals_ite (Chip.keepsSignals_refl _) ?_)
  exact ((Chip.keepsSignals_wr _ _ _ (by decide)).trans (Chip.keepsSignals_wr _ _ _ (by decide))).trans
    (Chip.keepsSignals_wr _ _ _ (by decide))

theorem Chip.keepsSignals_muslinWrite (c : Chip) (mode : WriteMode) (off : Nat) (data : List Byte) :
    c.keepsSignals (c.muslinWrite mode off data).1 := by
  unfold Chip.muslinWrite
  have htouch := c.keepsSignals_touchGroup (groupOf off)
  dsimp only
  split
  · exact htouch
  · split
    · exact htouch.trans (Chip.keepsSignals_latchFault _ _ (by decide))
    · split
      · exact htouch.trans (Chip.keepsSignals_foldl (fun c w => c.keepsSignals_muslinUe w 4) _ _)
      · exact htouch.trans fun _ _ => rfl

theorem Chip.keepsSignals_muslinRead (c : Chip) (off n src : Nat) : c.keepsSignals (c.muslinRead off n src).1 := by
  unfold Chip.muslinRead
  have htouch := c.keepsSignals_touchGroup (groupOf off)
  dsimp only
  split
  · exact htouch
  · split
    · exact htouch.trans (Chip.keepsSignals_foldl (fun c w => c.keepsSignals_muslinUe w src) _ _)
    · exact htouch

theorem Chip.keepsSignals_touchDram (c : Chip) : c.keepsSignals c.touchDram := by
  have hawake : c.keepsSignals (if c.drc.selfRefresh then (c.wr R.DRC_STATUS_SELF_REFRESH 0).setDomainState 3 0 else c) :=
    Chip.keepsSignals_ite ((c.keepsSignals_wr _ _ (by decide)).trans (Chip.keepsSignals_setDomainState _ _ _)) c.keepsSignals_refl
  exact hawake.trans fun _ _ => rfl

theorem Chip.keepsSignals_dramUe (c : Chip) (b src : Nat) : c.keepsSignals (c.dramUe b src) := by
  have hlatch : c.keepsSignals ((c.count R.DRC_ECC_UE_CNT).latchFault R.DRC_STATUS_UE_LATCH) :=
    (c.keepsSignals_count _ _ (by decide)).trans (Chip.keepsSignals_latchFault _ _ (by decide))
  refine hlatch.trans (Chip.keepsSignals_ite (Chip.keepsSignals_refl _) ?_)
  exact ((Chip.keepsSignals_wr _ _ _ (by decide)).trans (Chip.keepsSignals_wr _ _ _ (by decide))).trans
    ((Chip.keepsSignals_wr _ _ _ (by decide)).trans (Chip.keepsSignals_wr _ _ _ (by decide)))

theorem Chip.keepsSignals_dramRead (c : Chip) (off n src : Nat) : c.keepsSignals (c.dramRead off n src).1 := by
  unfold Chip.dramRead
  have htouch := c.keepsSignals_touchDram
  dsimp only
  split
  · exact c.keepsSignals_refl
  · split
    · exact htouch
    · split
      · exact htouch.trans (Chip.keepsSignals_foldl (fun c b => c.keepsSignals_dramUe _ src) _ _)
      · exact htouch

theorem Chip.keepsSignals_devRead (c : Chip) (a n : Nat) : c.keepsSignals (c.devRead a n).1 := by
  unfold Chip.devRead
  dsimp only
  split
  · refine Chip.keepsSignals_foldl_fst (fun s p => ?_) _ (c, St.OK, [])
    split
    · exact s.1.keepsSignals_refl
    · exact s.1.keepsSignals_dramRead _ _ _
  · refine Chip.keepsSignals_foldl_fst (fun s p => ?_) _ (c, St.OK, [])
    split
    · exact s.1.keepsSignals_refl
    · exact s.1.keepsSignals_muslinRead _ _ _

/-! ## Rings and records -/

theorem Chip.keepsSignals_lose (c : Chip) : c.keepsSignals c.lose :=
  ((c.keepsSignals_count _ _ (by decide)).trans (Chip.keepsSignals_latch _ _ (by decide))).trans (Chip.keepsSignals_raise _ (by decide))

theorem Chip.keepsSignals_setQueue (c : Chip) (n : Nat) (q : Queue) : c.keepsSignals (c.setQueue n q) := Chip.keepsSignals_of_regs rfl

theorem Chip.keepsSignals_loseFor (c : Chip) (n : Nat) : c.keepsSignals (c.loseFor n) := by
  unfold Chip.loseFor
  dsimp only
  split
  · exact (c.keepsSignals_setQueue n _).trans (Chip.keepsSignals_lose _)
  · exact c.keepsSignals_lose

theorem Queue.vector_lt (q : Queue) : q.vector < 2 ^ 16 :=
  Nat.lt_of_lt_of_le (bits_lt q.raw 52 11) (by decide)

theorem Chip.keepsSignals_queueInterrupt (c : Chip) (n : Nat) : c.keepsSignals (c.queueInterrupt n) := by
  unfold Chip.queueInterrupt
  split
  · next q _ =>
    have hset : c.keepsSignals (c.setQueue n { q with uncovered := 0 }) := c.keepsSignals_setQueue _ _
    exact Chip.keepsSignals_ite hset (hset.trans (Chip.keepsSignals_sendVector _ q.vector_lt))
  · exact c.keepsSignals_refl

theorem Chip.keepsSignals_ringWrite (c : Chip) (n : Nat) (q : Queue) (e : Nat) (irq : Bool) : c.keepsSignals (c.ringWrite n q e irq) := by
  unfold Chip.ringWrite
  extract_lets size phaseBit hostSide v r unc p q' c₁
  have hr : c.keepsSignals r.1 := c.keepsSignals_muslinWrite _ _ _
  have h₁ : r.1.keepsSignals c₁ := r.1.keepsSignals_setQueue _ _
  refine Chip.keepsSignals_ite (hr.trans (Chip.keepsSignals_loseFor _ _)) ?_
  exact (hr.trans h₁).trans (Chip.keepsSignals_ite (Chip.keepsSignals_queueInterrupt _ _) (Chip.keepsSignals_refl _))

theorem Chip.keepsSignals_setQmg (c : Chip) (q : Qmg) : c.keepsSignals { c with qmg := q } := Chip.keepsSignals_of_regs rfl

theorem Chip.keepsSignals_spillRecord (c : Chip) (n rec_ : Nat) (irq : Bool) : c.keepsSignals (c.spillRecord n rec_ irq) := by
  unfold Chip.spillRecord
  split
  · exact c.keepsSignals_loseFor n
  · extract_lets w
    have hw : c.keepsSignals w.1 := c.keepsSignals_muslinWrite _ _ _
    have hspill : ∀ l, w.1.keepsSignals (w.1.setSpill l) := fun l =>
      (w.1.keepsSignals_setQmg _).trans
        ((Chip.keepsSignals_wr _ _ _ (by decide)).trans (Chip.keepsSignals_wr _ _ _ (by decide)))
    exact Chip.keepsSignals_ite (hw.trans (Chip.keepsSignals_loseFor _ _)) (hw.trans (hspill _))

theorem Chip.keepsSignals_writeRecord (c : Chip) (n rec_ : Nat) (irq : Bool) : c.keepsSignals (c.writeRecord n rec_ irq) := by
  unfold Chip.writeRecord
  split
  · exact Chip.keepsSignals_ite c.keepsSignals_lose (Chip.keepsSignals_ite (c.keepsSignals_spillRecord _ _ _)
      (c.keepsSignals_ringWrite _ _ _ _))
  · exact c.keepsSignals_lose

theorem Chip.keepsSignals_produce (c : Chip) (n e : Nat) : c.keepsSignals (c.produce n e) := by
  unfold Chip.produce
  split
  · exact Chip.keepsSignals_ite (c.keepsSignals_loseFor n) (c.keepsSignals_ringWrite _ _ _ _)
  · exact c.keepsSignals_lose

theorem Chip.keepsSignals_postMessage (c : Chip) (n : Nat) (q : Queue) : c.keepsSignals (c.postMessage n q).1 := by
  unfold Chip.postMessage
  have hread := c.keepsSignals_devRead q.stageAddr 64
  split
  · exact c.keepsSignals_loseFor n
  · dsimp only
    split
    · exact hread.trans (Chip.keepsSignals_loseFor _ _)
    · exact hread.trans (Chip.keepsSignals_ringWrite _ _ _ _ _)

theorem Chip.keepsSignals_report (c : Chip) (w : Weave) (i : Nat) (r : RecInfo) : c.keepsSignals (c.report w i r) := by
  unfold Chip.report
  dsimp only
  split
  · split
    · split
      · exact c.keepsSignals_postMessage _ _
      · exact (c.keepsSignals_postMessage _ _).trans (Chip.keepsSignals_writeRecord _ _ _ _)
    · exact c.keepsSignals_writeRecord _ _ _
  · split
    · exact c.keepsSignals_refl
    · exact c.keepsSignals_writeRecord _ _ _

/-! ## Gingham -/

theorem Chip.keepsSignals_setGng (c : Chip) (f : Gng → Gng) : c.keepsSignals (c.setGng f) := fun _ _ => rfl

theorem Chip.keepsSignals_setEntry (c : Chip) (i s v : Nat) : c.keepsSignals (c.setEntry i s v) :=
  Chip.keepsSignals_of_within (c.setEntry_within i s v) rfl

theorem Chip.keepsSignals_gngLatch (c : Chip) {f : Field} (h : f.sparesSignals = true) (net k time : Nat) :
    c.keepsSignals (c.gngLatch f net k time) := by
  unfold Chip.gngLatch
  refine Chip.keepsSignals_ite c.keepsSignals_refl ?_
  extract_lets c₁ c₂
  have h₁ : c.keepsSignals c₁ := Chip.keepsSignals_ite (c.keepsSignals_wr _ _ (by decide)) c.keepsSignals_refl
  have h₂ : c₁.keepsSignals c₂ := ((c₁.keepsSignals_wr _ _ h).trans (Chip.keepsSignals_raise _ (by decide))).trans
    ((Chip.keepsSignals_raise _ (by decide)).trans (Chip.keepsSignals_setGng _ _))
  exact (h₁.trans h₂).trans (c₂.keepsSignals_setGng _)

theorem Chip.keepsSignals_formVerdict (c : Chip) (f : GngFrame) (cause : Nat) (d : GngDiff) :
    c.keepsSignals (c.formVerdict f cause d) := by
  unfold Chip.formVerdict
  extract_lets cause bad seq w c₁ c₂ c₃ c₄ c₅ c₆
  have h₁ : c.keepsSignals c₁ := c.keepsSignals_setGng _
  have h₂ : c₁.keepsSignals c₂ := (c₁.keepsSignals_setGng _).trans (Chip.keepsSignals_wr _ _ _ (by decide))
  have h₃ : c₂.keepsSignals c₃ := (c₂.keepsSignals_setEntry _ _ _).trans (Chip.keepsSignals_setEntry _ _ _ _)
  have h₄ : c₃.keepsSignals c₄ := c₃.keepsSignals_count _ _ (by decide)
  have h₅ : c₄.keepsSignals c₅ := Chip.keepsSignals_ite c₄.keepsSignals_refl (c₄.keepsSignals_count _ _ (by decide))
  have h₆ : c₅.keepsSignals c₆ := Chip.keepsSignals_ite c₅.keepsSignals_refl (c₅.keepsSignals_count _ _ (by decide))
  exact ((h₁.trans h₂).trans (h₃.trans h₄)).trans ((h₅.trans h₆).trans
    ((c₆.keepsSignals_setGng _).trans (Chip.keepsSignals_setGng _ _)))

theorem Chip.keepsSignals_recompute (c : Chip) : c.keepsSignals c.recompute := by
  unfold Chip.recompute
  extract_lets seq nets bad w c₁ c₂ c₃
  have h₁ : c.keepsSignals c₁ := (c.keepsSignals_wr _ _ (by decide)).trans (Chip.keepsSignals_wr _ _ _ (by decide))
  have h₂ : c₁.keepsSignals c₂ := c₁.keepsSignals_setEntry _ _ _
  have h₃ : c₂.keepsSignals c₃ := (c₂.keepsSignals_wr _ _ (by decide)).trans (Chip.keepsSignals_wr _ _ _ (by decide))
  exact (h₁.trans h₂).trans (h₃.trans (Chip.keepsSignals_ite ((c₃.keepsSignals_wr _ _ (by decide)).trans (Chip.keepsSignals_setGng _ _))
    c₃.keepsSignals_refl))

theorem Chip.keepsSignals_showNet (c : Chip) (n : Nat) : c.keepsSignals (c.showNet n) := by
  unfold Chip.showNet
  extract_lets q latest hist inFrame c₁ c₂ c₃ c₄
  have h₁ : c.keepsSignals c₁ := c.keepsSignals_wr _ _ (by decide)
  have h₂ : c₁.keepsSignals c₂ := c₁.keepsSignals_wr _ _ (by decide)
  have h₃ : c₂.keepsSignals c₃ := c₂.keepsSignals_wr _ _ (by decide)
  have h₄ : c₃.keepsSignals c₄ := c₃.keepsSignals_wr _ _ (by decide)
  exact ((h₁.trans h₂).trans (h₃.trans h₄)).trans (c₄.keepsSignals_wr _ _ (by decide))

theorem Chip.keepsSignals_gngEnd (c : Chip) : c.keepsSignals c.gngEnd := by
  unfold Chip.gngEnd
  extract_lets c₁ logs c₂ q c₃
  have h₁ : c.keepsSignals c₁ := Chip.keepsSignals_ite (c.keepsSignals_recompute.trans (Chip.keepsSignals_setGng _ _)) c.keepsSignals_refl
  have h₂ : c₁.keepsSignals c₂ := c₁.keepsSignals_setGng _
  have h₃ : c₂.keepsSignals c₃ := Chip.keepsSignals_ite c₂.keepsSignals_refl
    (Chip.keepsSignals_foldl (fun c l => c.keepsSignals_produce _ _) logs c₂)
  exact ((h₁.trans h₂).trans h₃).trans (Chip.keepsSignals_foldl (fun c n => c.keepsSignals_showNet n) _ c₃)

theorem Chip.keepsSignals_selfTest (c : Chip) (wrong : Bool) (net k time : Nat) : c.keepsSignals (c.selfTest wrong net k time) :=
  Chip.keepsSignals_ite (c.keepsSignals_gngLatch (by decide) _ _ _) c.keepsSignals_refl

theorem Chip.keepsSignals_touchReads (c : Chip) (rs : List (Nat × Nat)) : c.keepsSignals (c.touchReads rs).1 := by
  refine Chip.keepsSignals_foldl_fst (fun s r => ?_) rs (c, St.OK)
  split
  · exact s.1.keepsSignals_refl
  · exact s.1.keepsSignals_devRead _ _

theorem Chip.keepsSignals_compareAreas (c : Chip) (bands : List Nat) (first second : Nat) (exact_ : Bool) :
    c.keepsSignals (c.compareAreas bands first second exact_).1 :=
  Chip.keepsSignals_foldl_fst (β := GngDiff) (fun s _ => s.1.keepsSignals_touchReads _) _ (c, noDiff)

theorem Chip.keepsSignals_countDisagree (c : Chip) (f : GngFrame) : c.keepsSignals (c.countDisagree f) := by
  unfold Chip.countDisagree
  extract_lets near c₁
  have h₁ : c.keepsSignals c₁ := (c.keepsSignals_count _ _ (by decide)).trans (Chip.keepsSignals_setGng _ _)
  exact h₁.trans (Chip.keepsSignals_ite (c₁.keepsSignals_gngLatch (by decide) _ _ _) c₁.keepsSignals_refl)

theorem Chip.keepsSignals_compareFrame (c : Chip) (f : GngFrame) (wrong : Bool) : c.keepsSignals (c.compareFrame f wrong) := by
  unfold Chip.compareFrame
  refine Chip.keepsSignals_ite c.keepsSignals_refl ?_
  extract_lets c₁ r differs c₂ f₁ c₃
  have h₁ : c.keepsSignals c₁ := c.keepsSignals_selfTest _ _ _ _
  have hr : c₁.keepsSignals r.1 := by
    show c₁.keepsSignals (match f.bands with | some bands => c₁.compareAreas bands (f.e 4) (f.e 6) false | none => (c₁, noDiff)).1
    split
    · exact c₁.keepsSignals_compareAreas _ _ _ _
    · exact c₁.keepsSignals_refl
  have h₂ : r.1.keepsSignals c₂ := Chip.keepsSignals_ite (r.1.keepsSignals_countDisagree f) r.1.keepsSignals_refl
  have h₃ : c₂.keepsSignals c₃ := c₂.keepsSignals_setGng _
  exact ((h₁.trans hr).trans (h₂.trans h₃)).trans (Chip.keepsSignals_ite c₃.keepsSignals_refl (c₃.keepsSignals_formVerdict _ _ _))

theorem Chip.keepsSignals_compareGolden (c : Chip) (net : Nat) (g : GngGolden) (wrong : Bool) :
    c.keepsSignals (c.compareGolden net g wrong) := by
  unfold Chip.compareGolden
  extract_lets e bands c₁ r c₂ pass c₃
  have h₁ : c.keepsSignals c₁ := c.keepsSignals_selfTest _ _ _ _
  have hr : c₁.keepsSignals r.1 := c₁.keepsSignals_compareAreas _ _ _ _
  have h₃ : r.1.keepsSignals c₃ := (r.1.keepsSignals_setGng _).trans (Chip.keepsSignals_setGng _ _)
  refine Chip.keepsSignals_ite c.keepsSignals_refl (((h₁.trans hr).trans h₃).trans ?_)
  exact Chip.keepsSignals_ite c₃.keepsSignals_refl (c₃.keepsSignals_gngLatch (by decide) _ _ _)

theorem Chip.keepsSignals_loseMirror (c : Chip) : c.keepsSignals c.loseMirror := by
  unfold Chip.loseMirror
  refine Chip.keepsSignals.trans (Chip.keepsSignals_foldl (fun c f => ?_) _ c) (Chip.keepsSignals_gngLatch _ (by decide) _ _ _)
  extract_lets f₁ c₁
  have h₁ : c.keepsSignals c₁ := c.keepsSignals_setGng _
  exact h₁.trans (Chip.keepsSignals_ite c₁.keepsSignals_refl (c₁.keepsSignals_formVerdict _ _ _))

theorem Chip.keepsSignals_followed {b c d : Chip} (h : b.keepsSignals d) : b.keepsSignals (c.followed d) := h

theorem Chip.keepsSignals_gngFollow (c : Chip) (wrong : Bool) : c.keepsSignals (c.gngFollow wrong) := by
  unfold Chip.gngFollow
  extract_lets c₁ lost c₂ c₃ c₄ past
  have h₁ : c.keepsSignals c₁ := c.keepsSignals_setGng _
  have h₂ : c₁.keepsSignals c₂ := Chip.keepsSignals_ite c₁.keepsSignals_loseMirror c₁.keepsSignals_refl
  have h₃ : c₂.keepsSignals c₃ := Chip.keepsSignals_foldl (fun c f => c.keepsSignals_compareFrame f wrong) _ c₂
  have h₄ : c₃.keepsSignals c₄ := by
    refine Chip.keepsSignals_foldl (fun c p => ?_) _ c₃
    split
    · exact Chip.keepsSignals_ite (c.keepsSignals_compareGolden _ _ _) c.keepsSignals_refl
    · exact c.keepsSignals_refl
  refine Chip.keepsSignals_followed (((h₁.trans h₂).trans (h₃.trans h₄)).trans ?_)
  exact (c₄.keepsSignals_setGng _).trans (Chip.keepsSignals_gngEnd _)

end Sys2Proof.Machine

namespace Sys2Proof.Machine

/-! # What looks at descriptors leave (R73 to R76, R97) -/

/-! ## Weaves and their descriptors -/

theorem getElem?_modifyNth {α : Type} (f : α → α) : ∀ (l : List α) (i k : Nat),
    (modifyNth l i f)[k]? = if k = i then l[k]?.map f else l[k]?
  | [], _, _ => by simp [modifyNth]
  | _ :: _, 0, 0 => rfl
  | _ :: _, 0, _ + 1 => rfl
  | _ :: _, _ + 1, 0 => rfl
  | _ :: l, i + 1, k + 1 => by simpa [modifyNth] using getElem?_modifyNth f l i k

theorem map_modifyNth {α β : Type} {f : α → α} {g : α → β} (h : ∀ a, g (f a) = g a) : ∀ (l : List α) (i : Nat),
    (modifyNth l i f).map g = l.map g
  | [], _ => rfl
  | a :: l, 0 => by simp [modifyNth, h]
  | a :: l, i + 1 => by simp [modifyNth, map_modifyNth h l i]

/-- The words of a weave's descriptors. -/
def Weave.raws (w : Weave) : List Nat := w.descs.map (·.raw)

theorem Weave.raw_eq (w : Weave) (i : Nat) : w.raw i = (w.raws[i]?).getD 0 := by
  rw [Weave.raw, Weave.raws, List.getElem?_map]

theorem Weave.length_raws (w : Weave) : w.raws.length = w.descs.length := List.length_map _

@[simp] theorem Weave.setSt_raws (w : Weave) (i : Nat) (s : DescState) : (w.setSt i s).raws = w.raws :=
  map_modifyNth (f := fun d : DescRec => { d with state := s }) (g := (·.raw)) (fun _ => rfl) _ _

@[simp] theorem Weave.setSt_length (w : Weave) (i : Nat) (s : DescState) : (w.setSt i s).descs.length = w.descs.length := by
  rw [← Weave.length_raws, Weave.setSt_raws, Weave.length_raws]

@[simp] theorem Weave.setSt_id (w : Weave) (i : Nat) (s : DescState) : (w.setSt i s).id = w.id := rfl
@[simp] theorem Weave.setSt_weaveId (w : Weave) (i : Nat) (s : DescState) : (w.setSt i s).weaveId = w.weaveId := rfl
@[simp] theorem Weave.setSt_count (w : Weave) (i : Nat) (s : DescState) : (w.setSt i s).count = w.count := rfl
@[simp] theorem Weave.setSt_cancelled (w : Weave) (i : Nat) (s : DescState) : (w.setSt i s).cancelled = w.cancelled := rfl

theorem Weave.setSt_st_self (w : Weave) (i : Nat) (s : DescState) : (w.setSt i s).st i = (w.st i).map fun _ => s := by
  simp only [Weave.st, Weave.setSt, getElem?_modifyNth, ite_true, Option.map_map]
  rfl

theorem Weave.setSt_st_other (w : Weave) {i k : Nat} (h : k ≠ i) (s : DescState) : (w.setSt i s).st k = w.st k := by
  simp only [Weave.st, Weave.setSt, getElem?_modifyNth, if_neg h]

theorem Weave.st_isSome {w : Weave} {i : Nat} : (w.st i).isSome = true ↔ i < w.descs.length := by
  simp [Weave.st]

theorem Weave.lt_of_st {w : Weave} {i : Nat} {s : DescState} (h : w.st i = some s) : i < w.descs.length :=
  Weave.st_isSome.1 (by rw [h]; rfl)

/-! ## What a look keeps of a weave -/

/-- A property of weaves that no change of a descriptor that has not started can break. -/
def SurvivesLooks (Q : Weave → Prop) : Prop := ∀ (w : Weave) (i : Nat) (s : DescState), w.hasStarted i = false → Q w → Q (w.setSt i s)

/-- What has started stays as it is. -/
theorem survivesLooks_st {s : DescState} (i : Nat) (hs : s ≠ .waiting) (hr : ∀ o t, s ≠ .ready o t) :
    SurvivesLooks (fun w => w.st i = some s) := by
  intro w k x hk hw
  have hne : i ≠ k := by
    rintro rfl
    rw [Weave.hasStarted, hw] at hk
    cases s with
    | waiting => exact hs rfl
    | ready o t => exact hr o t rfl
    | _ => cases hk
  rwa [Weave.setSt_st_other w hne]

theorem survivesLooks_done (i st : Nat) : SurvivesLooks (fun w => w.st i = some (.done st)) :=
  survivesLooks_st i (by simp) (by simp)

theorem survivesLooks_raws (l : List Nat) : SurvivesLooks (fun w => w.raws = l) := fun w i s _ h =>
  (w.setSt_raws i s).trans h

theorem SurvivesLooks.and {P Q : Weave → Prop} (hP : SurvivesLooks P) (hQ : SurvivesLooks Q) :
    SurvivesLooks (fun w => P w ∧ Q w) := fun w i s hs h => ⟨hP w i s hs h.1, hQ w i s hs h.2⟩

theorem SurvivesLooks.imp_id {Q : Weave → Prop} (hQ : SurvivesLooks Q) (id : Nat) : SurvivesLooks (fun w => w.id = id → Q w) :=
  fun w i s hs h hid => hQ w i s hs (h hid)

/-! ## The weaves of a chip -/

theorem Chip.weave?_spec {c : Chip} {id : Nat} {w : Weave} (h : c.weave? id = some w) : w ∈ c.dsp.weaves ∧ w.id = id :=
  ⟨List.mem_of_find?_eq_some h, by simpa using List.find?_some h⟩

theorem Chip.weave?_of_exists {c : Chip} {id : Nat} (h : id ∈ c.dsp.weaves.map (·.id)) : ∃ w, c.weave? id = some w := by
  obtain ⟨v, hv, hid⟩ := List.mem_map.1 h
  rw [← Option.isSome_iff_exists, Chip.weave?, List.find?_isSome]
  exact ⟨v, hv, by simpa using hid⟩

theorem Chip.mem_ids_of_weave? {c : Chip} {id : Nat} {w : Weave} (h : c.weave? id = some w) : id ∈ c.dsp.weaves.map (·.id) := by
  obtain ⟨hw, rfl⟩ := Chip.weave?_spec h
  exact List.mem_map_of_mem hw

theorem Chip.mem_setWeave {c : Chip} {w v : Weave} (h : v ∈ (c.setWeave w).dsp.weaves) : v = w ∨ (v ∈ c.dsp.weaves ∧ v.id ≠ w.id) := by
  obtain ⟨u, hu, rfl⟩ := List.mem_map.1 (show v ∈ c.dsp.weaves.map (fun v => if v.id = w.id then w else v) from h)
  split
  · exact .inl rfl
  · next hne => exact .inr ⟨hu, hne⟩

theorem Chip.setWeave_forall {c : Chip} {w : Weave} {Q : Weave → Prop} (hw : Q w) (hc : ∀ v ∈ c.dsp.weaves, Q v) :
    ∀ v ∈ (c.setWeave w).dsp.weaves, Q v := fun v hv => by
  obtain rfl | ⟨hv, -⟩ := Chip.mem_setWeave hv
  · exact hw
  · exact hc v hv

/-- After a weave was replaced, a weave of its handle is the new one. -/
theorem Chip.setWeave_self {c : Chip} {w v : Weave} (hv : v ∈ (c.setWeave w).dsp.weaves) (hid : v.id = w.id) : v = w :=
  (Chip.mem_setWeave hv).resolve_right fun h => h.2 hid

/-- A completion replaces its weave by the one with its descriptor done. -/
theorem Chip.finishDesc_weaves {c : Chip} {id : Nat} {w : Weave} (h : c.weave? id = some w) (i : Nat) (r : RecInfo) :
    (c.finishDesc id i r).dsp.weaves = (c.setWeave (w.setSt i (.done r.status))).dsp.weaves := by
  have hw : (c.chainDone w i r.status).weave? id = some w := h
  rw [Chip.finishDesc_dsp_some h, Chip.setDescState, hw]
  rfl

theorem Chip.finishDesc_running (c : Chip) (id i : Nat) (r : RecInfo) :
    (c.finishDesc id i r).dsp.running = c.dsp.running ∧ (c.finishDesc id i r).dsp.suspended = c.dsp.suspended := by
  cases h : c.weave? id with
  | none => rw [Chip.finishDesc_dsp_none h]; exact ⟨rfl, rfl⟩
  | some w =>
    have hw : (c.chainDone w i r.status).weave? id = some w := h
    rw [Chip.finishDesc_dsp_some h, Chip.setDescState, hw]
    exact ⟨rfl, rfl⟩

theorem Chip.finishDesc_ids (c : Chip) (id i : Nat) (r : RecInfo) :
    (c.finishDesc id i r).dsp.weaves.map (·.id) = c.dsp.weaves.map (·.id) := by
  cases h : c.weave? id with
  | none => rw [Chip.finishDesc_dsp_none h]
  | some w => rw [Chip.finishDesc_weaves h, Chip.setWeave_ids]

theorem Chip.finishDesc_forall {c : Chip} {id i : Nat} {r : RecInfo} {Q : Weave → Prop} (hc : ∀ v ∈ c.dsp.weaves, Q v)
    (hdone : ∀ w, c.weave? id = some w → Q (w.setSt i (.done r.status))) : ∀ v ∈ (c.finishDesc id i r).dsp.weaves, Q v := by
  cases h : c.weave? id with
  | none => rwa [Chip.finishDesc_dsp_none h]
  | some w =>
    rw [Chip.finishDesc_weaves h]
    exact Chip.setWeave_forall (hdone w h) hc

/-- A descriptor that completes is done in every weave of its handle. -/
theorem Chip.finishDesc_done {c : Chip} {id i : Nat} {r : RecInfo} (h : ∀ w, c.weave? id = some w → i < w.descs.length) :
    ∀ v ∈ (c.finishDesc id i r).dsp.weaves, v.id = id → v.st i = some (.done r.status) := by
  intro v hv hid
  have hmem : v.id ∈ (c.finishDesc id i r).dsp.weaves.map (·.id) := List.mem_map_of_mem hv
  rw [hid, Chip.finishDesc_ids] at hmem
  obtain ⟨w, hw⟩ := Chip.weave?_of_exists hmem
  rw [Chip.finishDesc_weaves hw] at hv
  rw [Chip.setWeave_self hv (hid.trans (Chip.weave?_spec hw).2.symm), Weave.setSt_st_self]
  obtain ⟨s, hs⟩ := Option.isSome_iff_exists.1 (Weave.st_isSome.2 (h w hw))
  rw [hs]
  rfl

/-! ## Completions and the rest of the chip -/

theorem Chip.raiseFor_dmk (c : Chip) (st : Nat) : (c.raiseFor st).dmk = c.dmk := by
  unfold Chip.raiseFor
  split
  · exact c.raise_dmk 0
  · rfl

theorem Chip.signalFor_dmk (c : Chip) (d st : Nat) : (c.signalFor d st).dmk = c.dmk := by
  unfold Chip.signalFor Chip.setPoison
  dsimp only
  repeat' split
  all_goals rfl

theorem Chip.report_dmk (c : Chip) (w : Weave) (i : Nat) (r : RecInfo) : (c.report w i r).dmk = c.dmk :=
  Chip.within_keeps _ _ _ (·.dmk) (c.report_within w i r) (Chip.only_dmk_out _ _ _ rfl)

theorem Chip.chainDone_dmk (c : Chip) (w : Weave) (i st : Nat) : (c.chainDone w i st).dmk = c.dmk := rfl

theorem Chip.noteDone_dmk (c : Chip) (id i st : Nat) : (c.noteDone id i st).dmk = c.dmk := rfl

theorem Chip.dispatched_dmk (c d : Chip) : (c.dispatched d).dmk = d.dmk := rfl

theorem Chip.finishDesc_dmk (c : Chip) (id i : Nat) (r : RecInfo) : (c.finishDesc id i r).dmk = c.dmk := by
  unfold Chip.finishDesc
  refine (Chip.dispatched_dmk _ _).trans ?_
  split
  · next w _ =>
    have hreport : (if w.isGolden then c else c.report w i r).dmk = c.dmk := by
      split
      · rfl
      · exact c.report_dmk w i r
    refine (Chip.setDescState_dmk _ _ _ _).trans ((Chip.chainDone_dmk _ _ _ _).trans ?_)
    exact (Chip.signalFor_dmk _ _ _).trans ((Chip.raiseFor_dmk _ _).trans ((Chip.noteDone_dmk _ _ _ _).trans hreport))
  · rfl

theorem Chip.keepsSignals_raiseFor (c : Chip) (st : Nat) : c.keepsSignals (c.raiseFor st) :=
  Chip.keepsSignals_ite (c.keepsSignals_raise (by decide)) c.keepsSignals_refl

theorem Chip.keepsSignals_setPoison (c : Chip) (s : Nat) (v : Bool) : c.keepsSignals (c.setPoison s v) := c.keepsSignals_wr _ _ (by decide)

theorem Chip.keepsSignals_noteDone (c : Chip) (id i st : Nat) : c.keepsSignals (c.noteDone id i st) := Chip.keepsSignals_of_regs rfl

theorem Chip.keepsSignals_chainDone (c : Chip) (w : Weave) (i st : Nat) : c.keepsSignals (c.chainDone w i st) :=
  Chip.keepsSignals_of_regs rfl

theorem Chip.keepsSignals_setDescState (c : Chip) (id i : Nat) (s : DescState) : c.keepsSignals (c.setDescState id i s) :=
  Chip.keepsSignals_of_regs (c.setDescState_regs _ _ _)

theorem Chip.keepsSignals_dispatched {b c d : Chip} (h : b.keepsSignals d) : b.keepsSignals (c.dispatched d) := h

/-- What follows of a completion before its signal is posted. -/
def Chip.noted (c : Chip) (w : Weave) (i : Nat) (r : RecInfo) : Chip :=
  ((if w.isGolden then c else c.report w i r).noteDone w.id i r.status).raiseFor r.status

theorem Chip.keepsSignals_noted (c : Chip) (w : Weave) (i : Nat) (r : RecInfo) : c.keepsSignals (c.noted w i r) :=
  ((Chip.keepsSignals_ite c.keepsSignals_refl (c.keepsSignals_report _ _ _)).trans (Chip.keepsSignals_noteDone _ _ _ _)).trans
    (Chip.keepsSignals_raiseFor _ _)

/-- A completion posts a signal of its own or none: where it does not satisfy a dependency, it posts none. -/
theorem Chip.keepsSignals_signalFor (c : Chip) (d : Nat) {st : Nat} (h : satisfiesDep st = false ∨ st = St.DSP_CANCELLED) :
    c.keepsSignals (c.signalFor d st) := by
  unfold Chip.signalFor
  refine Chip.keepsSignals_ite c.keepsSignals_refl ?_
  split
  · exact c.keepsSignals_refl
  · next hne =>
    rw [h.resolve_right hne, if_neg Bool.false_ne_true]
    exact Chip.keepsSignals_ite (c.keepsSignals_setPoison _ _) c.keepsSignals_refl

theorem Chip.keepsSignals_finishDesc (c : Chip) (id i : Nat) {r : RecInfo}
    (h : satisfiesDep r.status = false ∨ r.status = St.DSP_CANCELLED) : c.keepsSignals (c.finishDesc id i r) := by
  unfold Chip.finishDesc
  refine Chip.keepsSignals_dispatched ?_
  split
  · next w hw =>
    obtain ⟨-, rfl⟩ := Chip.weave?_spec hw
    refine (c.keepsSignals_noted w i r).trans ((Chip.keepsSignals_signalFor _ (w.raw i) h).trans ?_)
    exact (Chip.keepsSignals_chainDone _ _ _ _).trans (Chip.keepsSignals_setDescState _ _ _ _)
  · exact c.keepsSignals_refl

theorem Field.apart_signal {m n : Nat} (h : m ≠ n) : R.DSP_SIG_VALUE.apart m R.DSP_SIG_VALUE n = true := by
  rw [Field.apart, Bool.or_eq_true, decide_eq_true_eq, decide_eq_true_eq]
  simp only [Field.pos, R.DSP_SIG_VALUE]
  omega

/-- A completion posts POST_SIG only. -/
theorem Chip.signalFor_other (c : Chip) {d st n : Nat} (hn : n < 256) (h : Desc.postSig d ≠ n) :
    (c.signalFor d st).rd R.DSP_SIG_VALUE n = c.rd R.DSP_SIG_VALUE n := by
  unfold Chip.signalFor
  dsimp only
  split
  · rfl
  · split
    · rfl
    · split
      · exact Chip.rd_wr_apart _ _ _ _ _ _ (Field.apart_signal h)
      · exact Chip.keepsSignals_ite (c.keepsSignals_setPoison _ _) c.keepsSignals_refl n hn

theorem Chip.finishDesc_signal_other {c : Chip} {id : Nat} {w : Weave} (hw : c.weave? id = some w) (i : Nat) (r : RecInfo) {n : Nat}
    (hn : n < 256) (h : Desc.postSig (w.raw i) ≠ n) :
    (c.finishDesc id i r).rd R.DSP_SIG_VALUE n = c.rd R.DSP_SIG_VALUE n := by
  obtain ⟨-, rfl⟩ := Chip.weave?_spec hw
  have hset := (Chip.keepsSignals_chainDone ((c.noted w i r).signalFor (w.raw i) r.status) w i r.status).trans
    (Chip.keepsSignals_setDescState _ w.id i (.done r.status)) n hn
  unfold Chip.finishDesc
  rw [hw]
  exact hset.trans ((Chip.signalFor_other _ hn h).trans (c.keepsSignals_noted w i r n hn))

/-! ## Looks -/

/-- From `c` to `d` only descriptors that had not started have changed their state, in weaves that stay in flight: no unit's work, no
signal and no cell of Damask has changed. -/
structure Chip.looksOn (c d : Chip) : Prop where
  running : d.dsp.running = c.dsp.running
  suspended : d.dsp.suspended = c.dsp.suspended
  dmk : d.dmk = c.dmk
  ids : d.dsp.weaves.map (·.id) = c.dsp.weaves.map (·.id)
  signals : c.keepsSignals d
  weaves : ∀ Q, SurvivesLooks Q → (∀ v ∈ c.dsp.weaves, Q v) → ∀ v ∈ d.dsp.weaves, Q v

theorem Chip.looksOn_refl (c : Chip) : c.looksOn c := ⟨rfl, rfl, rfl, rfl, c.keepsSignals_refl, fun _ _ h => h⟩

theorem Chip.looksOn.trans {c d e : Chip} (h : c.looksOn d) (k : d.looksOn e) : c.looksOn e :=
  ⟨k.running.trans h.running, k.suspended.trans h.suspended, k.dmk.trans h.dmk, k.ids.trans h.ids, h.signals.trans k.signals,
    fun Q hQ hc => k.weaves Q hQ (h.weaves Q hQ hc)⟩

theorem Chip.looksOn_foldl {α : Type} {f : Chip → α → Chip} (h : ∀ (c : Chip) (a : α), c.looksOn (f c a)) (l : List α) (c : Chip) :
    c.looksOn (l.foldl f c) := by
  induction l generalizing c with
  | nil => exact c.looksOn_refl
  | cons a l ih => exact (h c a).trans (ih _)

/-- A descriptor that has not started is set to another state. -/
theorem Chip.looksOn_setWeave {c : Chip} {w : Weave} (hw : w ∈ c.dsp.weaves) {i : Nat} (hi : w.hasStarted i = false) (s : DescState) :
    c.looksOn (c.setWeave (w.setSt i s)) :=
  ⟨rfl, rfl, rfl, c.setWeave_ids _, Chip.keepsSignals_of_regs rfl,
    fun _ hQ hc => Chip.setWeave_forall (hQ w i s hi (hc w hw)) hc⟩

/-- A descriptor that has not started completes cancelled, or because a dependency failed. -/
theorem Chip.looksOn_finishDesc {c : Chip} {id i : Nat} {w : Weave} (hw : c.weave? id = some w) (hi : w.hasStarted i = false)
    {r : RecInfo} (h : satisfiesDep r.status = false ∨ r.status = St.DSP_CANCELLED) : c.looksOn (c.finishDesc id i r) := by
  obtain ⟨hrun, hsus⟩ := c.finishDesc_running id i r
  refine ⟨hrun, hsus, c.finishDesc_dmk _ _ _, c.finishDesc_ids _ _ _, c.keepsSignals_finishDesc _ _ h, fun Q hQ hc => ?_⟩
  refine Chip.finishDesc_forall hc fun v hv => ?_
  obtain rfl := Option.some.inj (hw.symm.trans hv)
  exact hQ w i _ hi (hc w (Chip.weave?_spec hw).1)

theorem Chip.settleOne_looksOn (c : Chip) (p : Nat × Nat) : c.looksOn (c.settleOne p) := by
  unfold Chip.settleOne
  split
  · exact c.looksOn_refl
  · next w hw =>
    split
    · next hst =>
      have hi : w.hasStarted p.2 = false := by rw [Weave.hasStarted, hst]
      split
      · exact Chip.looksOn_finishDesc hw hi (.inr rfl)
      · split
        · exact Chip.looksOn_finishDesc hw hi (.inl (by show satisfiesDep St.DSP_DEP_FAILED = false; decide))
        · split
          · exact Chip.looksOn_setWeave (Chip.weave?_spec hw).1 hi _
          · exact c.looksOn_refl
    · next hst =>
      have hi : w.hasStarted p.2 = false := by rw [Weave.hasStarted, hst]
      split
      · exact Chip.looksOn_finishDesc hw hi (.inr rfl)
      · split
        · exact c.looksOn_refl
        · exact Chip.looksOn_setWeave (Chip.weave?_spec hw).1 hi _
    · exact c.looksOn_refl

theorem Chip.settlePass_looksOn (c : Chip) : c.looksOn c.settlePass := Chip.looksOn_foldl Chip.settleOne_looksOn _ c

theorem Chip.settleLoop_looksOn (n : Nat) (c : Chip) : c.looksOn (c.settleLoop n) := by
  induction n generalizing c with
  | zero => exact c.looksOn_refl
  | succ n ih =>
    unfold Chip.settleLoop
    dsimp only
    split
    · exact c.settlePass_looksOn
    · exact c.settlePass_looksOn.trans (ih _)

/-! ## What settling keeps -/

/-- The chip after the looks of `settle`, before the weaves that are over leave. -/
def Chip.looked (c : Chip) : Chip := c.settleLoop (2 * c.allDescs.length + 1)

theorem Chip.looked_looksOn (c : Chip) : c.looksOn c.looked := c.settleLoop_looksOn _

/-- A weave all of whose descriptors are read and done. -/
def Weave.isOver (w : Weave) : Bool :=
  decide (w.descs.length = w.count) && w.descs.all (fun d => match d.state with | .done _ => true | _ => false)

theorem Chip.settle_dsp (c : Chip) : c.settle.dsp = { c.looked.dsp with
    nextOrder := c.looked.dsp.nextOrder + 1, weaves := c.looked.dsp.weaves.filter (fun w => !w.isOver) } := rfl

theorem Chip.settle_dmk (c : Chip) : c.settle.dmk = c.dmk := c.looked_looksOn.dmk

theorem Chip.settle_running (c : Chip) : c.settle.dsp.running = c.dsp.running := by rw [Chip.settle_dsp]; exact c.looked_looksOn.running

theorem Chip.settle_suspended (c : Chip) : c.settle.dsp.suspended = c.dsp.suspended := by
  rw [Chip.settle_dsp]
  exact c.looked_looksOn.suspended

theorem Chip.settle_op? (c : Chip) (u : Nat) : c.settle.op? u = c.op? u := by rw [Chip.op?, Chip.settle_running, Chip.op?]

/-- What no look can break of every weave still holds after settling. -/
theorem Chip.settle_weaves {c : Chip} {Q : Weave → Prop} (hQ : SurvivesLooks Q) (hc : ∀ v ∈ c.dsp.weaves, Q v) :
    ∀ v ∈ c.settle.dsp.weaves, Q v := fun v hv => by
  rw [Chip.settle_dsp] at hv
  exact c.looked_looksOn.weaves Q hQ hc v (List.mem_filter.1 hv).1

/-- A weave that is not over after any look is still in flight after settling. -/
theorem Chip.settle_inFlight {c : Chip} {id : Nat} {Q : Weave → Prop} (hQ : SurvivesLooks Q) (hid : id ∈ c.dsp.weaves.map (·.id))
    (hc : ∀ v ∈ c.dsp.weaves, v.id = id → Q v) (hopen : ∀ w, Q w → w.isOver = false) : ∃ v, c.settle.weave? id = some v ∧ Q v := by
  have hafter := c.looked_looksOn.weaves _ (hQ.imp_id id) hc
  rw [← c.looked_looksOn.ids] at hid
  obtain ⟨v, hv, hvid⟩ := List.mem_map.1 hid
  have hmem : v ∈ c.settle.dsp.weaves := by
    rw [Chip.settle_dsp]
    exact List.mem_filter.2 ⟨hv, by rw [hopen v (hafter v hv hvid)]; rfl⟩
  have hids : v.id ∈ c.settle.dsp.weaves.map (·.id) := List.mem_map_of_mem hmem
  rw [hvid] at hids
  obtain ⟨w, hw⟩ := Chip.weave?_of_exists hids
  obtain ⟨hwmem, hwid⟩ := Chip.weave?_spec hw
  exact ⟨w, hw, Chip.settle_weaves (hQ.imp_id id) hc w hwmem hwid⟩

theorem Weave.isOver_of_st {w : Weave} {i : Nat} {s : DescState} (h : w.st i = some s) (hs : ∀ st, s ≠ .done st) : w.isOver = false := by
  rw [Weave.isOver, Bool.and_eq_false_iff]
  right
  rw [← Bool.not_eq_true, List.all_eq_true]
  intro hall
  obtain ⟨d, hd, rfl⟩ := Option.map_eq_some_iff.1 h
  have hdone := hall d (List.mem_of_getElem? hd)
  split at hdone
  · next st hst => exact hs st hst
  · cases hdone

theorem Weave.isOver_of_length {w : Weave} (h : w.descs.length ≠ w.count) : w.isOver = false := by
  rw [Weave.isOver, decide_eq_false h, Bool.false_and]

theorem Chip.keepsSignals_putRegs {c d : Chip} (h : c.keepsSignals d) : c.keepsSignals { c with regs := d.regs } := h

theorem Chip.keepsSignals_refresh (c : Chip) : c.keepsSignals c.refresh := by
  unfold Chip.refresh
  refine Chip.keepsSignals_putRegs ?_
  extract_lets busy c₁ c₂ c₃ c₄ c₅ c₆ kept c₇ c₈ c₉
  have h₄ : c.keepsSignals c₄ := ((c.keepsSignals_wr _ _ (by decide)).trans (Chip.keepsSignals_wr _ _ _ (by decide))).trans
    ((Chip.keepsSignals_wr _ _ _ (by decide)).trans (Chip.keepsSignals_wr _ _ _ (by decide)))
  have h₅ : c₄.keepsSignals c₅ := Chip.keepsSignals_foldl (fun c k => ((c.keepsSignals_wr _ _ (by decide)).trans
    (Chip.keepsSignals_wr _ _ _ (by decide))).trans (Chip.keepsSignals_wr _ _ _ (by decide))) _ c₄
  have h₉ : c₅.keepsSignals c₉ := ((c₅.keepsSignals_wr _ _ (by decide)).trans (Chip.keepsSignals_wr _ _ _ (by decide))).trans
    ((Chip.keepsSignals_wr _ _ _ (by decide)).trans (Chip.keepsSignals_wr _ _ _ (by decide)))
  exact ((h₄.trans h₅).trans h₉).trans ((c₉.keepsSignals_wr _ _ (by decide)).trans (Chip.keepsSignals_wr _ _ _ (by decide)))

theorem Chip.keepsSignals_setDsp (c : Chip) (d : Dsp) : c.keepsSignals { c with dsp := d } := Chip.keepsSignals_of_regs rfl

theorem Chip.keepsSignals_settle (c : Chip) : c.keepsSignals c.settle := by
  unfold Chip.settle
  refine Chip.keepsSignals_dispatched ?_
  extract_lets +onlyGivenNames c₁ d c₂
  have h₁ : c.keepsSignals c₁ := c.looked_looksOn.signals
  have h₂ : c₁.keepsSignals c₂ := c₁.keepsSignals_setDsp _
  exact (h₁.trans h₂).trans ((c₂.keepsSignals_setDsp _).trans (Chip.keepsSignals_refresh _))

end Sys2Proof.Machine

namespace Sys2Proof.Machine

/-! # Control operations, signals, cancel and DSP_CTRL (R77, R78, R90, R98) -/

theorem Chip.now_of_within {c d : Chip} {ps : List Part} (h : c.within d ps) (hps : ps.contains .tku = false) : d.now = c.now :=
  Chip.now_congr _ _ (Chip.within_keeps c d ps (·.tku) h (Chip.only_tku_out _ _ _ hps))

theorem Chip.settle_now (c : Chip) : c.settle.now = c.now := Chip.now_of_within c.settle_within rfl

theorem Chip.finishDesc_now (c : Chip) (id i : Nat) (r : RecInfo) : (c.finishDesc id i r).now = c.now :=
  Chip.now_of_within (c.finishDesc_within id i r) rfl

theorem Chip.followed_now (c d : Chip) : (c.followed d).now = c.now := rfl

theorem Chip.gngFollow_now (c : Chip) (wrong : Bool) : (c.gngFollow wrong).now = c.now := Chip.followed_now _ _

theorem Chip.gngFollow_weave? (c : Chip) (wrong : Bool) (id : Nat) : (c.gngFollow wrong).weave? id = c.weave? id :=
  Chip.weave_congr _ _ _ (c.gngFollow_dsp wrong)

theorem Chip.only_weave?_in (d c : Chip) (ps : List Part) (id : Nat) (h : ps.contains .dsp = true) :
    (d.only ps c).weave? id = d.weave? id :=
  Chip.weave_congr _ _ _ (Chip.only_dsp_in d c ps h)

/-! ## Descriptors that complete, or wait for their time -/

/-- A descriptor that completes is done, whatever follows. -/
theorem Chip.ended_done {c : Chip} {id i : Nat} {w : Weave} (hw : c.weave? id = some w) (hi : i < w.descs.length) (r : RecInfo)
    {v : Weave} (hv : (c.finishDesc id i r).settle.weave? id = some v) : v.st i = some (.done r.status) := by
  have hdone := Chip.finishDesc_done (r := r) (i := i) (c := c) (id := id) fun x hx => by
    obtain rfl := Option.some.inj (hw.symm.trans hx)
    exact hi
  obtain ⟨hmem, hid⟩ := Chip.weave?_spec hv
  exact Chip.settle_weaves ((survivesLooks_done i r.status).imp_id id) hdone v hmem hid

theorem Chip.waitDone_done {c : Chip} {id i : Nat} {w : Weave} (hw : c.weave? id = some w) (hi : i < w.descs.length)
    {v : Weave} (hv : (c.waitDone id i).weave? id = some v) : v.st i = some (.done St.OK) := by
  unfold Chip.waitDone at hv
  rw [hw] at hv
  exact Chip.ended_done hw hi _ hv

theorem Chip.setDescState_ids (c : Chip) (id i : Nat) (s : DescState) :
    (c.setDescState id i s).dsp.weaves.map (·.id) = c.dsp.weaves.map (·.id) := by
  unfold Chip.setDescState
  split
  · exact c.setWeave_ids _
  · rfl

theorem Chip.setDescState_st {c : Chip} {id i : Nat} {w : Weave} (hw : c.weave? id = some w) (hi : i < w.descs.length) (s : DescState) :
    ∀ v ∈ (c.setDescState id i s).dsp.weaves, v.id = id → v.st i = some s := by
  intro v hv hid
  rw [Chip.setDescState, hw] at hv
  rw [Chip.setWeave_self hv (hid.trans (Chip.weave?_spec hw).2.symm), Weave.setSt_st_self]
  obtain ⟨x, hx⟩ := Option.isSome_iff_exists.1 (Weave.st_isSome.2 hi)
  rw [hx]
  rfl

/-- A descriptor that is set to a state in which it has started, and is not done, stays there while what follows settles. -/
theorem Chip.setDescState_settle {c : Chip} {id i : Nat} {w : Weave} (hw : c.weave? id = some w) (hi : i < w.descs.length)
    {s : DescState} (hs : SurvivesLooks (fun w => w.st i = some s)) (hopen : ∀ st, s ≠ .done st) :
    ∃ v, (c.setDescState id i s).settle.weave? id = some v ∧ v.st i = some s := by
  refine Chip.settle_inFlight hs ?_ (Chip.setDescState_st hw hi s) fun v hv => Weave.isOver_of_st hv hopen
  rw [Chip.setDescState_ids]
  exact Chip.mem_ids_of_weave? hw

/-! ## What the commands run -/

theorem exec_nop (s : State) (weave index : Nat) : exec (.nop weave index) s = s.run Parts.dispatch (fun c =>
    c.control weave index 1 (fun c w _ => (c.finishDesc weave index (.plain St.OK w.cls)).settle.gngFollow)) := rfl

theorem exec_sigSet (s : State) (weave index : Nat) : exec (.sigSet weave index) s = s.run Parts.dispatch (fun c =>
    c.control weave index 3 (fun c w d =>
      (((c.wr R.DSP_SIG_VALUE (bits d 288 32) (bits d 256 8)).setPoison (bits d 256 8) false).finishDesc weave index
        (.plain St.OK w.cls)).settle.gngFollow)) := rfl

theorem exec_waitUntil (s : State) (weave index : Nat) : exec (.waitUntil weave index) s = s.run Parts.dispatch (fun c =>
    c.control weave index 2 (fun c _ d => if waitTime d ≤ c.now then (c.waitDone weave index).gngFollow
      else (c.setDescState weave index .timed).settle)) := rfl

/-- The effect of WAIT_UNTIL_EXPIRE. -/
def Chip.waitExpire (c : Chip) (weave index : Nat) : Chip :=
  match c.weave? weave with
  | some w =>
    if w.st index = some .timed then ((c.advanceTo (waitTime (w.raw index))).waitDone weave index).gngFollow else c
  | none => c

theorem exec_waitUntilExpire (s : State) (weave index : Nat) : exec (.waitUntilExpire weave index) s =
    s.run [.regs, .dict, .muslin, .tku, .dsp, .qmg, .msl, .drc, .gng, .sent] (fun c => c.waitExpire weave index) := rfl

theorem Chip.waitExpire_timed {c : Chip} {w : Weave} {i : Nat} (hw : c.weave? w.id = some w) (hst : w.st i = some .timed) :
    c.waitExpire w.id i = ((c.advanceTo (waitTime (w.raw i))).waitDone w.id i).gngFollow := by
  unfold Chip.waitExpire
  rw [hw]
  exact if_pos hst

/-! ## Control operations -/

theorem Chip.control_runs {c : Chip} {w : Weave} {i o t opcode : Nat} (hw : c.weave? w.id = some w) (hst : w.st i = some (.ready o t))
    (hon : c.on R.DSP_CTRL_ENABLE = true) (he : Desc.engine (w.raw i) = 0xA) (hop : Desc.opcode (w.raw i) = opcode)
    (f : Chip → Weave → Nat → Chip) : c.control w.id i opcode f = f c w (w.raw i) := by
  unfold Chip.control
  simp [hw, hst, hon, he, hop]

theorem nop_answers {s : State} {w : Weave} {i o t : Nat} (ha : s.chip.awake = true) (hon : s.chip.on R.DSP_CTRL_ENABLE = true)
    (hw : s.chip.weave? w.id = some w) (hst : w.st i = some (.ready o t)) (he : Desc.engine (w.raw i) = 0xA)
    (hop : Desc.opcode (w.raw i) = 1) :
    Answers s (.nop w.id i) (fun d => s.chip.within d Parts.dispatch ∧ ∀ v, d.weave? w.id = some v → v.st i = some (.done St.OK)) := by
  refine answers_run s _ _ _ _ ha (exec_nop s w.id i) fun v hv => ?_
  rw [Chip.only_weave?_in _ _ _ _ rfl, Chip.control_runs hw hst hon he hop, Chip.gngFollow_weave?] at hv
  exact Chip.ended_done hw (Weave.lt_of_st hst) _ hv

theorem sigSet_answers {s : State} {w : Weave} {i o t : Nat} (ha : s.chip.awake = true) (hon : s.chip.on R.DSP_CTRL_ENABLE = true)
    (hw : s.chip.weave? w.id = some w) (hst : w.st i = some (.ready o t)) (he : Desc.engine (w.raw i) = 0xA)
    (hop : Desc.opcode (w.raw i) = 3) (hpost : Desc.postSig (w.raw i) ≠ bits (w.raw i) 256 8) :
    Answers s (.sigSet w.id i) (fun d => s.chip.within d Parts.dispatch ∧
      d.rd R.DSP_SIG_VALUE (bits (w.raw i) 256 8) = bits (w.raw i) 288 32 ∧
      ∀ v, d.weave? w.id = some v → v.st i = some (.done St.OK)) := by
  refine answers_run s _ _ _ _ ha (exec_sigSet s w.id i) ?_
  rw [Chip.control_runs hw hst hon he hop]
  set sig := bits (w.raw i) 256 8
  set c₁ := (s.chip.wr R.DSP_SIG_VALUE (bits (w.raw i) 288 32) sig).setPoison sig false
  have hsig : sig < 256 := bits_lt _ _ _
  have hdsp : c₁.dsp = s.chip.dsp := (Chip.setPoison_dsp _ _ _).trans (s.chip.dsp_wr _ _ _)
  have hw₁ : c₁.weave? w.id = some w := (Chip.weave_congr _ _ _ hdsp).trans hw
  have hval : c₁.rd R.DSP_SIG_VALUE sig = bits (w.raw i) 288 32 := by
    refine (Chip.keepsSignals_setPoison _ _ _ sig hsig).trans ((Chip.rd_wr_self _ _ _ _).trans ?_)
    exact Nat.mod_eq_of_lt (bits_lt _ _ _)
  refine ⟨?_, fun v hv => ?_⟩
  · rw [Chip.only_rd_in _ _ _ _ _ rfl]
    refine (Chip.keepsSignals_gngFollow _ _ sig hsig).trans ((Chip.keepsSignals_settle _ sig hsig).trans ?_)
    exact (Chip.finishDesc_signal_other hw₁ _ _ hsig hpost).trans hval
  · rw [Chip.only_weave?_in _ _ _ _ rfl, Chip.gngFollow_weave?] at hv
    exact Chip.ended_done hw₁ (Weave.lt_of_st hst) _ hv

theorem waitUntil_answers {s : State} {w : Weave} {i o t : Nat} (ha : s.chip.awake = true) (hon : s.chip.on R.DSP_CTRL_ENABLE = true)
    (hw : s.chip.weave? w.id = some w) (hst : w.st i = some (.ready o t)) (he : Desc.engine (w.raw i) = 0xA)
    (hop : Desc.opcode (w.raw i) = 2) :
    Answers s (.waitUntil w.id i) (fun d => s.chip.within d Parts.dispatch ∧
      (waitTime (w.raw i) ≤ s.chip.now → ∀ v, d.weave? w.id = some v → v.st i = some (.done St.OK)) ∧
      (s.chip.now < waitTime (w.raw i) → ∃ v, d.weave? w.id = some v ∧ v.st i = some .timed)) := by
  refine answers_run s _ _ _ _ ha (exec_waitUntil s w.id i) ?_
  rw [Chip.control_runs hw hst hon he hop]
  refine ⟨fun htime v hv => ?_, fun htime => ?_⟩
  · rw [Chip.only_weave?_in _ _ _ _ rfl, if_pos htime, Chip.gngFollow_weave?] at hv
    exact Chip.waitDone_done hw (Weave.lt_of_st hst) hv
  · rw [if_neg (Nat.not_le.mpr htime)]
    obtain ⟨v, hv, hvst⟩ := Chip.setDescState_settle hw (Weave.lt_of_st hst)
      (survivesLooks_st (s := .timed) i (by simp) (by simp)) (by simp)
    exact ⟨v, by rw [Chip.only_weave?_in _ _ _ _ rfl]; exact hv, hvst⟩

theorem waitUntilExpire_answers {s : State} {w : Weave} {i : Nat} (ha : s.chip.awake = true) (hw : s.chip.weave? w.id = some w)
    (hst : w.st i = some .timed) :
    Answers s (.waitUntilExpire w.id i) (fun d => s.chip.within d (.tku :: Parts.dispatch) ∧
      d.now = max s.chip.now (waitTime (w.raw i)) ∧ ∀ v, d.weave? w.id = some v → v.st i = some (.done St.OK)) := by
  refine Answers.mono (answers_run s _ _ _ (fun d => d.now = max s.chip.now (waitTime (w.raw i)) ∧
    ∀ v, d.weave? w.id = some v → v.st i = some (.done St.OK)) ha (exec_waitUntilExpire s w.id i) ?_)
    fun d ⟨hd, h⟩ => ⟨Chip.within_mono _ _ _ _ hd rfl, h⟩
  have hw₁ : (s.chip.advanceTo (waitTime (w.raw i))).weave? w.id = some w :=
    (Chip.weave_congr _ _ _ (s.chip.advanceTo_dsp _)).trans hw
  rw [Chip.waitExpire_timed hw hst]
  refine ⟨?_, fun v hv => ?_⟩
  · rw [Chip.only_now_in _ _ _ rfl, Chip.gngFollow_now, Chip.waitDone, hw₁]
    exact (Chip.settle_now _).trans ((Chip.finishDesc_now _ _ _ _).trans (s.chip.now_advanceTo _))
  · rw [Chip.only_weave?_in _ _ _ _ rfl, Chip.gngFollow_weave?] at hv
    exact Chip.waitDone_done hw₁ (Weave.lt_of_st hst) hv

/-! ## Signals -/

/-- A signal written from outside takes the value, and no other signal changes; signal 0 takes none. -/
theorem Chip.signalSet_signals (c : Chip) {n : Nat} (v : Nat) (hn : n < 256) :
    (n ≠ 0 → (c.signalSet n v).gngFollow.rd R.DSP_SIG_VALUE n = v % 2 ^ 32) ∧
    ∀ m, m < 256 → m = 0 ∨ m ≠ n → (c.signalSet n v).gngFollow.rd R.DSP_SIG_VALUE m = c.rd R.DSP_SIG_VALUE m := by
  refine ⟨fun h0 => ?_, fun m hm hmn => ?_⟩
  · refine (Chip.keepsSignals_gngFollow _ _ n hn).trans ?_
    rw [Chip.signalSet, if_neg h0]
    exact (Chip.keepsSignals_settle _ n hn).trans (Chip.rd_wr_self _ _ _ _)
  · refine (Chip.keepsSignals_gngFollow _ _ m hm).trans ?_
    unfold Chip.signalSet
    split
    · rfl
    · next h0 =>
      have hne : n ≠ m := by omega
      exact (Chip.keepsSignals_settle _ m hm).trans (Chip.rd_wr_apart _ _ _ _ _ _ (Field.apart_signal hne))

theorem exec_dspSigWrite (s : State) (n : BitVec 8) (v : Word) : exec (.dspSigWrite n v) s =
    s.runHost Parts.dispatch (fun c => (c.signalSet n.toNat v.toNat).gngFollow) := rfl

theorem exec_dspSigAdd (s : State) (n : BitVec 8) (a : BitVec 24) : exec (.dspSigAdd n a) s =
    s.runHost Parts.dispatch (fun c => (c.signalSet n.toNat (c.rd R.DSP_SIG_VALUE n.toNat + a.toNat)).gngFollow) := rfl

theorem Chip.signalSet_signals_only {c : Chip} {n : BitVec 8} {v x : Nat} (hx : v % 2 ^ 32 = x) :
    (n ≠ 0 → ((c.signalSet n.toNat v).gngFollow.only Parts.dispatch c).rd R.DSP_SIG_VALUE n.toNat = x) ∧
    ∀ m, m < 256 → m = 0 ∨ m ≠ n.toNat →
      ((c.signalSet n.toNat v).gngFollow.only Parts.dispatch c).rd R.DSP_SIG_VALUE m = c.rd R.DSP_SIG_VALUE m := by
  obtain ⟨hself, hother⟩ := c.signalSet_signals v n.isLt
  simp only [Chip.only_rd_in _ _ Parts.dispatch _ _ rfl]
  exact ⟨fun hn => (hself fun h => hn (BitVec.eq_of_toNat_eq h)).trans hx, hother⟩

theorem dspSigWrite_answers (s : State) (n : BitVec 8) (v : Word) (hh : s.chip.heard = true) :
    Answers s (.dspSigWrite n v) (fun d => s.chip.within d Parts.dispatch ∧
      (n ≠ 0 → d.rd R.DSP_SIG_VALUE n.toNat = v.toNat) ∧
      ∀ m, m < 256 → m = 0 ∨ m ≠ n.toNat → d.rd R.DSP_SIG_VALUE m = s.chip.rd R.DSP_SIG_VALUE m) :=
  answers_runHost s _ _ _ _ hh (exec_dspSigWrite s n v) (Chip.signalSet_signals_only (Nat.mod_eq_of_lt v.isLt))

theorem dspSigAdd_answers (s : State) (n : BitVec 8) (a : BitVec 24) (hh : s.chip.heard = true) :
    Answers s (.dspSigAdd n a) (fun d => s.chip.within d Parts.dispatch ∧
      (n ≠ 0 → d.rd R.DSP_SIG_VALUE n.toNat = (s.chip.rd R.DSP_SIG_VALUE n.toNat + a.toNat) % 2 ^ 32) ∧
      ∀ m, m < 256 → m = 0 ∨ m ≠ n.toNat → d.rd R.DSP_SIG_VALUE m = s.chip.rd R.DSP_SIG_VALUE m) :=
  answers_runHost s _ _ _ _ hh (exec_dspSigAdd s n a) (Chip.signalSet_signals_only rfl)

/-! ## Statistics and ENABLE -/

theorem exec_statClear (s : State) : exec .statClear s =
    s.runHost [.regs] (fun c => (c.wr R.DSP_PREEMPT_STAT_PREEMPTS 0).wr R.DSP_PREEMPT_STAT_MAX_LAT 0) := rfl

theorem statClear_answers (s : State) (hh : s.chip.heard = true) :
    Answers s .statClear (fun d => s.chip.within d [.regs] ∧ d.rd R.DSP_PREEMPT_STAT_PREEMPTS = 0 ∧
      d.rd R.DSP_PREEMPT_STAT_MAX_LAT = 0 ∧
      s.chip.regsKept d [(R.DSP_PREEMPT_STAT_PREEMPTS, 0), (R.DSP_PREEMPT_STAT_MAX_LAT, 0)]) := by
  refine answers_runHost s _ _ _ _ hh (exec_statClear s) ⟨?_, ?_, fun f i hf => ?_⟩
  · rw [Chip.only_rd_in _ _ _ _ _ rfl, Chip.rd_wr_apart _ _ _ _ _ _ (by decide), Chip.rd_wr_self]
    rfl
  · rw [Chip.only_rd_in _ _ _ _ _ rfl, Chip.rd_wr_self]
    rfl
  · simp only [List.all_cons, List.all_nil, Bool.and_true, Bool.and_eq_true] at hf
    obtain ⟨hpre, hlat⟩ := hf
    rw [Chip.only_rd_in _ _ _ _ _ rfl, Chip.rd_wr_apart _ _ _ _ _ _ ((Field.apart_comm _ _ _ _).trans hlat),
      Chip.rd_wr_apart _ _ _ _ _ _ ((Field.apart_comm _ _ _ _).trans hpre)]

theorem exec_dspCtrlEnable (s : State) (on : Bool) : exec (.dspCtrlEnable on) s = s.runHost [.regs] (fun c =>
    if on && decide (c.rd R.BUP_STATUS_LAST_PASSED < 11) then c else c.wr R.DSP_CTRL_ENABLE (b2n on)) := rfl

theorem dspCtrlEnable_answers (s : State) (on : Bool) (hh : s.chip.heard = true)
    (hstage : on = true → 11 ≤ s.chip.rd R.BUP_STATUS_LAST_PASSED) :
    Answers s (.dspCtrlEnable on) (fun d => s.chip.within d [.regs] ∧ d.on R.DSP_CTRL_ENABLE = on ∧
      s.chip.regsKept d [(R.DSP_CTRL_ENABLE, 0)]) := by
  have hgo : ¬ (on && decide (s.chip.rd R.BUP_STATUS_LAST_PASSED < 11)) = true := by
    rw [Bool.and_eq_true, decide_eq_true_eq]
    exact fun h => absurd (hstage h.1) (Nat.not_le.mpr h.2)
  refine answers_runHost s _ _ _ _ hh (exec_dspCtrlEnable s on) ⟨?_, fun f i hf => ?_⟩
  · rw [if_neg hgo, Chip.only_on_in _ _ _ _ _ rfl, Chip.on_wr_self]
    cases on <;> rfl
  · rw [List.all_cons, List.all_nil, Bool.and_true] at hf
    rw [if_neg hgo, Chip.only_rd_in _ _ _ _ _ rfl, Chip.rd_wr_apart _ _ _ _ _ _ ((Field.apart_comm _ _ _ _).trans hf)]

theorem dspCtrlEnable_early (s : State) (hh : s.chip.heard = true) (hstage : s.chip.rd R.BUP_STATUS_LAST_PASSED < 11) :
    Answers s (.dspCtrlEnable true) (fun d => d = s.chip) := by
  refine Answers.mono (answers_runHost s _ _ _ (fun d => d = s.chip) hh (exec_dspCtrlEnable s true) ?_) fun d h => h.2
  rw [if_pos (by simpa using hstage)]
  exact Chip.within_refl _ _

end Sys2Proof.Machine

namespace Sys2Proof.Machine

/-! ## Cancel (R90) -/

/-- A descriptor that is read and has not started. -/
def Weave.waits (w : Weave) (i : Nat) : Prop := i < w.descs.length ∧ w.hasStarted i = false

theorem Weave.waits_of_waiting {w : Weave} {i : Nat} (h : w.st i = some .waiting) : w.waits i :=
  ⟨Weave.lt_of_st h, by rw [Weave.hasStarted, h]⟩

theorem Weave.waits_of_ready {w : Weave} {i o t : Nat} (h : w.st i = some (.ready o t)) : w.waits i :=
  ⟨Weave.lt_of_st h, by rw [Weave.hasStarted, h]⟩

theorem Weave.not_waits_of_done {w : Weave} {i st : Nat} (h : w.st i = some (.done st)) : ¬ w.waits i := fun ⟨_, hs⟩ => by
  rw [Weave.hasStarted, h] at hs
  cases hs

/-- No look makes a descriptor wait that did not. -/
theorem Weave.setSt_not_waits {w : Weave} {i k : Nat} {s : DescState} (hk : w.hasStarted k = false) (h : ¬ w.waits i) :
    ¬ (w.setSt k s).waits i := by
  rintro ⟨hlt, hs⟩
  rw [Weave.setSt_length] at hlt
  by_cases hik : i = k
  · subst hik
    exact h ⟨hlt, hk⟩
  · rw [Weave.hasStarted, Weave.setSt_st_other w hik] at hs
    exact h ⟨hlt, hs⟩

theorem Dsp.handles.unique {d : Dsp} (h : d.handles) {v w : Weave} (hv : v ∈ d.weaves) (hw : w ∈ d.weaves) (hid : v.id = w.id) :
    v = w :=
  List.inj_on_of_nodup_map (h.1.imp fun hlt => Nat.ne_of_lt hlt) hv hw hid

/-- A look at a descriptor of a cancelled weave ends it, if it waits. -/
theorem Chip.settleOne_ends {c : Chip} (hc : c.dsp.handles) (p : Nat × Nat) :
    ∀ v ∈ (c.settleOne p).dsp.weaves, v.id = p.1 → v.cancelled = true → ¬ v.waits p.2 := by
  intro v hv hid hcan
  have hids : v.id ∈ (c.settleOne p).dsp.weaves.map (·.id) := List.mem_map_of_mem hv
  rw [hid, (c.settleOne_looksOn p).ids] at hids
  obtain ⟨w, hw⟩ := Chip.weave?_of_exists hids
  obtain ⟨hwmem, hwid⟩ := Chip.weave?_spec hw
  have hall : ∀ u ∈ c.dsp.weaves, u.id = p.1 → u = w := fun u hu huid => hc.unique hu hwmem (huid.trans hwid.symm)
  have hwcan : w.cancelled = true := by
    have hkept := (c.settleOne_looksOn p).weaves (fun u => u.id = p.1 → u.cancelled = w.cancelled) (fun _ _ _ _ h => h)
      (fun u hu huid => by rw [hall u hu huid]) v hv hid
    rw [← hkept, hcan]
  have hended : ∀ r, v ∈ (c.finishDesc p.1 p.2 r).dsp.weaves → p.2 < w.descs.length → ¬ v.waits p.2 := fun r hfin hlt =>
    Weave.not_waits_of_done (Chip.finishDesc_done (fun x hx => by
      obtain rfl := Option.some.inj (hw.symm.trans hx)
      exact hlt) v hfin hid)
  unfold Chip.settleOne at hv
  rw [hw] at hv
  dsimp only at hv
  split at hv
  · next hst => exact hended _ (by rwa [if_pos hwcan] at hv) (Weave.lt_of_st hst)
  · next hst => exact hended _ (by rwa [if_pos hwcan] at hv) (Weave.lt_of_st hst)
  · next hwaiting hready =>
    rw [hall v hv hid]
    rintro ⟨hlt, hs⟩
    obtain ⟨x, hx⟩ := Option.isSome_iff_exists.1 (Weave.st_isSome.2 hlt)
    rw [Weave.hasStarted, hx] at hs
    cases x with
    | waiting => exact hwaiting hx
    | ready o t => exact hready o t hx
    | _ => cases hs

/-- Looks end every descriptor they look at that waits in a cancelled weave. -/
theorem Chip.looks_end (l : List (Nat × Nat)) : ∀ {c : Chip}, c.dsp.handles → ∀ p ∈ l,
    ∀ v ∈ (l.foldl (fun c p => c.settleOne p) c).dsp.weaves, v.id = p.1 → v.cancelled = true → ¬ v.waits p.2 := by
  induction l with
  | nil => intro c _ p hp; cases hp
  | cons a l ih =>
    intro c hc p hp
    obtain rfl | hp := List.mem_cons.1 hp
    · refine (Chip.looksOn_foldl Chip.settleOne_looksOn l (c.settleOne p)).weaves
        (fun v => v.id = p.1 → v.cancelled = true → ¬ v.waits p.2) ?_ (Chip.settleOne_ends hc p)
      exact fun w i s hs h hid hcan => Weave.setSt_not_waits hs (h hid hcan)
    · exact ih (c.settleOne_keepsHandles a hc) p hp

theorem mem_foldr_append {α : Type} {x : α} {l : List α} : ∀ {ls : List (List α)}, l ∈ ls → x ∈ l → x ∈ ls.foldr (· ++ ·) []
  | k :: ls, hl, hx => by
    obtain rfl | hl := List.mem_cons.1 hl
    · exact List.mem_append_left _ hx
    · exact List.mem_append_right k (mem_foldr_append hl hx)

theorem Chip.mem_allDescs {c : Chip} {w : Weave} (hw : w ∈ c.dsp.weaves) {i : Nat} (hi : i < w.descs.length) : (w.id, i) ∈ c.allDescs :=
  mem_foldr_append (List.mem_map_of_mem hw) (List.mem_map_of_mem (List.mem_range.2 hi))

/-- After one look at every descriptor, nothing waits in a cancelled weave. -/
theorem Chip.settlePass_ends {c : Chip} (hc : c.dsp.handles) :
    ∀ v ∈ c.settlePass.dsp.weaves, v.cancelled = true → ∀ i, ¬ v.waits i := by
  intro v hv hcan i hwaits
  have hids : v.id ∈ c.settlePass.dsp.weaves.map (·.id) := List.mem_map_of_mem hv
  rw [c.settlePass_looksOn.ids] at hids
  obtain ⟨w, hw⟩ := Chip.weave?_of_exists hids
  obtain ⟨hwmem, hwid⟩ := Chip.weave?_spec hw
  have hlength : v.descs.length = w.descs.length := by
    refine c.settlePass_looksOn.weaves (fun u => u.id = w.id → u.descs.length = w.descs.length) (fun u k s _ h hid => ?_)
      (fun u hu huid => by rw [hc.unique hu hwmem huid]) v hv hwid.symm
    rw [Weave.setSt_length]
    exact h hid
  have hseen : (w.id, i) ∈ c.allDescs := Chip.mem_allDescs hwmem (hlength ▸ hwaits.1)
  exact Chip.looks_end c.allDescs hc (w.id, i) hseen v hv hwid.symm hcan hwaits

/-- The looks of `settle` begin with a look at every descriptor. -/
theorem Chip.settleLoop_succ_looksOn (n : Nat) (c : Chip) : c.settlePass.looksOn (c.settleLoop (n + 1)) := by
  rw [Chip.settleLoop]
  split
  · exact Chip.looksOn_refl _
  · exact Chip.settleLoop_looksOn n _

theorem Chip.settle_ends {c : Chip} (hc : c.dsp.handles) : ∀ v ∈ c.settle.dsp.weaves, v.cancelled = true → ∀ i, ¬ v.waits i := by
  intro v hv
  rw [Chip.settle_dsp] at hv
  refine (c.settleLoop_succ_looksOn (2 * c.allDescs.length)).weaves (fun v => v.cancelled = true → ∀ i, ¬ v.waits i) ?_
    (Chip.settlePass_ends hc) v (List.mem_filter.1 hv).1
  exact fun w k s hs h hcan i => Weave.setSt_not_waits hs (h hcan i)

/-- The weaves with a WEAVE_ID cancelled. -/
def Chip.cancelWeaves (c : Chip) (weaveId : Nat) : Chip :=
  { c with dsp := { c.dsp with weaves := c.dsp.weaves.map fun (w : Weave) =>
      if w.weaveId = weaveId then { w with cancelled := true } else w } }

theorem Chip.cancelWeaves_keepsHandles (c : Chip) (weaveId : Nat) : c.keepsHandles (c.cancelWeaves weaveId) := by
  refine Chip.keepsHandles_of_sublist ?_ rfl
  have hids : (c.cancelWeaves weaveId).dsp.weaves.map (·.id) = c.dsp.weaves.map (·.id) := by
    refine List.map_map.trans (List.map_congr_left fun w _ => ?_)
    simp only [Function.comp_apply, apply_ite Weave.id, ite_self]
  rw [hids]

theorem Chip.cancelWeaves_cancelled (c : Chip) (weaveId : Nat) :
    ∀ v ∈ (c.cancelWeaves weaveId).dsp.weaves, v.weaveId = weaveId → v.cancelled = true := by
  intro v hv hid
  obtain ⟨w, -, rfl⟩ := List.mem_map.1 hv
  split
  · rfl
  · next hne => exact absurd (by simpa only [if_neg hne] using hid) hne

theorem exec_dspCancel (s : State) (weaveId : BitVec 16) : exec (.dspCancel weaveId) s =
    s.runHost Parts.dispatch (fun c => (c.cancelWeaves weaveId.toNat).settle.gngFollow) := rfl

theorem dspCancel_answers (s : State) (weaveId : BitVec 16) (hh : s.chip.heard = true) (hd : s.chip.dsp.handles) :
    Answers s (.dspCancel weaveId) (fun d => s.chip.within d Parts.dispatch ∧
      ∀ w ∈ d.dsp.weaves, w.weaveId = weaveId.toNat →
        w.cancelled = true ∧ ∀ i o t, w.st i ≠ some .waiting ∧ w.st i ≠ some (.ready o t)) := by
  refine answers_runHost s _ _ _ _ hh (exec_dspCancel s weaveId) fun w hw hid => ?_
  rw [Chip.only_dsp_in _ _ _ rfl, Chip.gngFollow_dsp] at hw
  have hcan : w.cancelled = true := Chip.settle_weaves (fun _ _ _ _ h => h)
    (s.chip.cancelWeaves_cancelled weaveId.toNat) w hw hid
  have hends := Chip.settle_ends (s.chip.cancelWeaves_keepsHandles weaveId.toNat hd) w hw hcan
  exact ⟨hcan, fun i o t => ⟨fun h => hends i (Weave.waits_of_waiting h), fun h => hends i (Weave.waits_of_ready h)⟩⟩

/-- Settles O34: a descriptor that completes stays done through the looks that follow (`Chip.settle_weaves`), completions leave the
signals alone that they do not post (`Chip.keepsSignals_settle`), and the first look ends what waits in a cancelled weave. -/
theorem controlAndRegisters : Obligations.ControlAndRegisters := by
  unfold Obligations.ControlAndRegisters
  refine ⟨⟨?nop, ?sigSet, ?waitUntil, ?waitUntilExpire⟩, ?write, ?add, ?cancel, ?statistics, ?enable, ?early⟩
  case nop => exact fun s w i o t ha hon hw hst he hop => nop_answers ha hon hw hst he hop
  case sigSet => exact fun s w i o t ha hon hw hst he hop hpost _ => sigSet_answers ha hon hw hst he hop hpost
  case waitUntil => exact fun s w i o t ha hon hw hst he hop => waitUntil_answers ha hon hw hst he hop
  case waitUntilExpire => exact fun s w i ha hw hst => waitUntilExpire_answers ha hw hst
  case write => exact dspSigWrite_answers
  case add => exact dspSigAdd_answers
  case cancel => exact dspCancel_answers
  case statistics => exact statClear_answers
  case enable => exact dspCtrlEnable_answers
  case early => exact dspCtrlEnable_early

end Sys2Proof.Machine

namespace Sys2Proof.Machine

/-! # Reading and starting descriptors (R68, R72, R81, R240) -/

/-! ## A read of a readable stretch by an engine -/

theorem Memory.read_add (m : Memory) (k n : Nat) : ∀ a, m.read a (k + n) = m.read a k ++ m.read (a + k) n := by
  induction k with
  | zero => intro a; rw [Nat.zero_add]; rfl
  | succ k ih =>
    intro a
    rw [Nat.succ_add, Memory.read, Memory.read, ih (a + 1), show a + 1 + k = a + (k + 1) by omega]
    rfl

/-- One request of an engine's read of Muslin, after `s`. -/
def Chip.readPart (s : Chip × Nat × List Byte) (p : Nat × Nat × Nat) : Chip × Nat × List Byte :=
  if s.2.1 != 0 then s
  else let r := s.1.muslinRead p.1 p.2.2; (r.1, r.2.1, s.2.2 ++ r.2.2)

theorem Chip.devRead_muslin (c : Chip) {a : Nat} (n : Nat) (h : devRegion a = 0) :
    c.devRead a n = (partsOf (c.grain (devOffset a) n (2 ^ 25)) (devOffset a) n).foldl Chip.readPart (c, St.OK, []) := by
  have hdram : devRegion a ≠ 8 := by rw [h]; decide
  exact if_neg hdram

theorem Chip.readPart_readable {c : Chip} {a m : Nat} (h : c.readable a m) (o : Nat) (bs : List Byte) :
    Chip.readPart (c, St.OK, bs) (a, o, m) = (c.reached (groupOf a), St.OK, bs ++ c.muslin.read a m) := by
  unfold Chip.readPart
  rw [Chip.muslinRead_readable h]
  rfl

/-- The place after the first part of a range that has further parts. -/
theorem add_part_mod {k a : Nat} (hk : 0 < k) : (a + (k - a % k)) % k = 0 := by
  have hmod := Nat.mod_lt a hk
  have hdiv := Nat.div_add_mod a k
  rw [show a + (k - a % k) = k * (a / k + 1) by rw [Nat.mul_succ]; omega, Nat.mul_mod_right]

/-- The parts of a readable stretch are read one after the other: together they are its bytes. -/
theorem Chip.readParts_readable {k : Nat} (hk : 0 < k) (f : Nat) : ∀ {c : Chip} {a n : Nat} (o : Nat) (bs : List Byte),
    (0 < n → c.readable a n ∧ a % k + n ≤ f * k) →
    ∃ d, (splitRange k f a o n).foldl Chip.readPart (c, St.OK, bs) = (d, St.OK, bs ++ c.muslin.read a n) ∧
      c.servesAs d ∧ c.within d [.msl] := by
  induction f with
  | zero =>
    intro c a n o bs hread
    obtain rfl : n = 0 := by
      by_contra hn
      have := (hread (by omega)).2
      omega
    exact ⟨c, by rw [Memory.read, List.append_nil]; rfl, c.servesAs_refl, c.within_refl _⟩
  | succ f ih =>
    intro c a n o bs hread
    by_cases hn : n = 0
    · subst hn
      exact ⟨c, by rw [splitRange, if_pos rfl, Memory.read, List.append_nil]; rfl, c.servesAs_refl, c.within_refl _⟩
    · obtain ⟨hr, hfit⟩ := hread (by omega)
      have hmod := Nat.mod_lt a hk
      obtain ⟨m, hm⟩ : ∃ m, m = min n (k - a % k) := ⟨_, rfl⟩
      have hm0 : 0 < m := by omega
      have hfirst : c.readable a m := Chip.readable_sub hr (Nat.le_refl a) hm0 (by omega)
      have halike := c.reached_servesAs (groupOf a)
      obtain ⟨d, hd, hserves, hwithin⟩ := ih (c := c.reached (groupOf a)) (a := a + m) (n := n - m) (o + m)
        (bs ++ c.muslin.read a m) fun hlt => by
          have hrest : c.readable (a + m) (n - m) := Chip.readable_sub hr (by omega) hlt (by omega)
          have hstart : (a + m) % k = 0 := by
            rw [show m = k - a % k by omega]
            exact add_part_mod hk
          rw [Nat.succ_mul] at hfit
          exact ⟨Chip.readable_congr halike (fun _ h => h) hrest, by omega⟩
      refine ⟨d, ?_, Chip.servesAs_trans halike hserves, Chip.within_trans _ _ _ _ (c.reached_within _) hwithin⟩
      rw [splitRange, if_neg hn]
      dsimp only
      rw [← hm, List.foldl_cons, Chip.readPart_readable hfirst, hd, List.append_assoc]
      have hbytes := c.muslin.read_add m (n - m) a
      rw [show m + (n - m) = n by omega] at hbytes
      rw [hbytes]
      rfl

/-- A read by an engine of a readable stretch of Muslin answers its bytes. -/
theorem Chip.devRead_readable {c : Chip} {a n : Nat} (hreg : devRegion a = 0) (h : c.readable (devOffset a) n) :
    ∃ d, c.devRead a n = (d, St.OK, c.muslin.read (devOffset a) n) ∧ c.servesAs d ∧ c.within d [.msl] := by
  have hk : 0 < c.grain (devOffset a) n (2 ^ 25) := by
    unfold Chip.grain
    split <;> decide
  rw [c.devRead_muslin n hreg]
  refine Chip.readParts_readable hk _ 0 [] fun _ => ⟨h, ?_⟩
  set k := c.grain (devOffset a) n (2 ^ 25)
  have hmod := Nat.mod_lt (devOffset a) hk
  have hdiv := Nat.mod_lt n hk
  have hn := Nat.div_add_mod n k
  rw [Nat.add_mul, Nat.mul_comm (n / k)]
  omega

/-! ## A descriptor that is read -/

/-- A weave with one more descriptor read. -/
def Weave.grown (w : Weave) (x : Nat) : Weave := { w with descs := w.descs ++ [⟨x, .waiting⟩] }

theorem Weave.grown_raws (w : Weave) (x : Nat) : (w.grown x).raws = w.raws ++ [x] := List.map_append

theorem Weave.grown_length (w : Weave) (x : Nat) : (w.grown x).descs.length = w.descs.length + 1 := List.length_append

/-- A descriptor with the words `x` joins its weave. -/
def Chip.joined (c : Chip) (w : Weave) (x : Nat) : Chip :=
  (c.setWeave (w.grown x)).addMirrors w w.descs.length x (c.badDesc x w.descs.length)

/-- What R72 refuses completes at once. -/
def Chip.joinedOrRefused (c : Chip) (w : Weave) (x : Nat) : Chip :=
  if c.badDesc x w.descs.length then (c.joined w x).finishDesc w.id w.descs.length (.plain St.DSP_BAD_DESC w.cls) else c.joined w x

theorem Chip.goldenDesc_of_not {w : Weave} (h : w.isGolden = false) (c : Chip) (d : Nat) : c.goldenDesc w d = d := by
  unfold Chip.goldenDesc
  split
  · next hsrc => rw [Weave.isGolden, hsrc] at h; cases h
  · rfl

theorem Chip.fetch_readable {c : Chip} {w : Weave} (hgold : w.isGolden = false) (hcan : w.cancelled = false)
    (hreg : devRegion (w.addr + 64 * (w.descs.length + 1)) = 0)
    (hread : c.readable (devOffset (w.addr + 64 * (w.descs.length + 1))) 64) :
    ∃ d, c.servesAs d ∧ d.dsp = c.dsp ∧
      c.fetch w = (d.joinedOrRefused w (leNat (c.muslin.read (devOffset (w.addr + 64 * (w.descs.length + 1))) 64))).settle := by
  obtain ⟨d, hd, hserves, hwithin⟩ := Chip.devRead_readable hreg hread
  refine ⟨d, hserves, Chip.dsp_of_within hwithin rfl, ?_⟩
  unfold Chip.fetch
  dsimp only
  rw [hd]
  simp only [Chip.joinedOrRefused, Chip.joined, Weave.grown, hgold, hcan, Chip.goldenDesc_of_not hgold, bne_self_eq_false,
    Bool.false_eq_true, if_false, false_and, Bool.not_false, Bool.and_true]

theorem Chip.badDesc_congr {c d : Chip} (h : d.regs = c.regs) (x i : Nat) : d.badDesc x i = c.badDesc x i := by
  unfold Chip.badDesc Chip.canvasIn Chip.rd
  rw [h]

theorem Chip.joined_dsp (c : Chip) (w : Weave) (x : Nat) : (c.joined w x).dsp = (c.setWeave (w.grown x)).dsp :=
  Chip.addMirrors_dsp _ _ _ _ _

/-- The weave that a descriptor joined is the grown one. -/
theorem Chip.joined_weave {c : Chip} {w v : Weave} {x : Nat} (hv : v ∈ (c.joined w x).dsp.weaves) (hid : v.id = w.id) :
    v = w.grown x := by
  rw [Chip.joined_dsp] at hv
  exact Chip.setWeave_self hv hid

theorem Chip.joined_ids (c : Chip) (w : Weave) (x : Nat) : (c.joined w x).dsp.weaves.map (·.id) = c.dsp.weaves.map (·.id) := by
  rw [Chip.joined_dsp, Chip.setWeave_ids]

theorem Chip.joined_weave? {c : Chip} {w : Weave} (h : c.weave? w.id = some w) (x : Nat) :
    (c.joined w x).weave? w.id = some (w.grown x) := by
  have hids := Chip.mem_ids_of_weave? h
  rw [← c.joined_ids w x] at hids
  obtain ⟨v, hv⟩ := Chip.weave?_of_exists hids
  obtain ⟨hmem, hid⟩ := Chip.weave?_spec hv
  rw [hv, Chip.joined_weave hmem hid]

/-- What the words and the length of a weave say after it grew, whether the new descriptor was refused or not. -/
theorem Chip.joinedOrRefused_forall {c : Chip} {w : Weave} {x : Nat} (h : c.weave? w.id = some w) :
    ∀ v ∈ (c.joinedOrRefused w x).dsp.weaves, v.id = w.id → v.raws = w.raws ++ [x] ∧ v.count = w.count := by
  have hjoined : ∀ v ∈ (c.joined w x).dsp.weaves, v.id = w.id → v.raws = w.raws ++ [x] ∧ v.count = w.count := fun v hv hid => by
    rw [Chip.joined_weave hv hid]
    exact ⟨w.grown_raws x, rfl⟩
  unfold Chip.joinedOrRefused
  split
  · refine Chip.finishDesc_forall hjoined fun v hv _ => ?_
    obtain rfl := Option.some.inj ((Chip.joined_weave? h x).symm.trans hv)
    rw [Weave.setSt_raws, Weave.setSt_count]
    exact ⟨w.grown_raws x, rfl⟩
  · exact hjoined

theorem Chip.joinedOrRefused_ids (c : Chip) (w : Weave) (x : Nat) :
    (c.joinedOrRefused w x).dsp.weaves.map (·.id) = c.dsp.weaves.map (·.id) := by
  unfold Chip.joinedOrRefused
  split
  · rw [Chip.finishDesc_ids, Chip.joined_ids]
  · exact c.joined_ids w x

theorem Chip.joinedOrRefused_settle {c : Chip} {w : Weave} (h : c.weave? w.id = some w) (x : Nat) :
    (∀ v, (c.joinedOrRefused w x).settle.weave? w.id = some v → v.raws = w.raws ++ [x]) ∧
    (c.badDesc x w.descs.length = true →
      ∀ v, (c.joinedOrRefused w x).settle.weave? w.id = some v → v.st w.descs.length = some (.done St.DSP_BAD_DESC)) ∧
    (w.descs.length + 1 < w.count → ∃ v, (c.joinedOrRefused w x).settle.weave? w.id = some v) := by
  have hall := Chip.joinedOrRefused_forall (x := x) h
  have hkept : SurvivesLooks (fun v => v.raws = w.raws ++ [x] ∧ v.count = w.count) :=
    (survivesLooks_raws _).and fun _ _ _ _ h => h
  refine ⟨fun v hv => ?_, fun hbad v hv => ?_, fun hlt => ?_⟩
  · obtain ⟨hmem, hid⟩ := Chip.weave?_spec hv
    exact (Chip.settle_weaves (hkept.imp_id w.id) hall v hmem hid).1
  · rw [Chip.joinedOrRefused, if_pos hbad] at hv
    exact Chip.ended_done (Chip.joined_weave? h x) (by rw [Weave.grown_length]; omega) _ hv
  · have hids := Chip.mem_ids_of_weave? h
    rw [← c.joinedOrRefused_ids w x] at hids
    refine (Chip.settle_inFlight hkept hids hall fun v hv => Weave.isOver_of_length ?_).imp fun v hv => hv.1
    obtain ⟨hraws, hcount⟩ := hv
    rw [← Weave.length_raws, hraws, hcount, List.length_append, Weave.length_raws, List.length_singleton]
    omega

/-! ## DESCRIPTOR_FETCH -/

/-- The effect of DESCRIPTOR_FETCH. -/
def Chip.fetchNext (c : Chip) (weave : Nat) : Chip :=
  match c.weave? weave with
  | some w => if c.mayFetch w then (c.unlessHeld (fun c => c.fetch w)).gngFollow else c
  | none => c

theorem exec_descriptorFetch (s : State) (weave : Nat) :
    exec (.descriptorFetch weave) s = s.run Parts.dispatch (fun c => c.fetchNext weave) := rfl

theorem Chip.fetchNext_may {c : Chip} {w : Weave} (hw : c.weave? w.id = some w) (hflows : c.flows) (h : c.mayFetch w = true) :
    c.fetchNext w.id = (c.untouched.fetch w).gngFollow := by
  obtain ⟨hq, hg, hs⟩ := hflows
  unfold Chip.fetchNext
  rw [hw]
  dsimp only
  rw [if_pos h, c.unlessHeld_runs _ hq hg hs]

theorem Chip.fetchNext_mayNot {c : Chip} {w : Weave} (hw : c.weave? w.id = some w) (h : c.mayFetch w = false) :
    c.fetchNext w.id = c := by
  unfold Chip.fetchNext
  rw [hw]
  dsimp only
  rw [h]
  rfl

theorem descriptorFetch_answers {s : State} {w : Weave} (ha : s.chip.awake = true) (hflows : s.chip.flows)
    (hw : s.chip.weave? w.id = some w) (hmay : s.chip.mayFetch w = true) (hgold : w.isGolden = false) (hcan : w.cancelled = false)
    (hreg : devRegion (w.addr + 64 * (w.descs.length + 1)) = 0)
    (hread : s.chip.readable (devOffset (w.addr + 64 * (w.descs.length + 1))) 64) {x : Nat}
    (hx : x = leNat (s.chip.muslin.read (devOffset (w.addr + 64 * (w.descs.length + 1))) 64)) :
    Answers s (.descriptorFetch w.id) (fun d => s.chip.within d Parts.dispatch ∧
      (∀ v, d.weave? w.id = some v → v.descs.map (·.raw) = w.descs.map (·.raw) ++ [x]) ∧
      (s.chip.badDesc x w.descs.length = true →
        ∀ v, d.weave? w.id = some v → v.st w.descs.length = some (.done St.DSP_BAD_DESC)) ∧
      (w.descs.length + 1 < w.count → ∃ v, d.weave? w.id = some v)) := by
  refine answers_run s _ _ _ _ ha (exec_descriptorFetch s w.id) ?_
  obtain ⟨d, ⟨hregs, -, -⟩, hdsp, hfetch⟩ := Chip.fetch_readable (c := s.chip.untouched) hgold hcan hreg hread
  have hwd : d.weave? w.id = some w := (Chip.weave_congr s.chip d w.id hdsp).trans hw
  have hbad : d.badDesc x w.descs.length = s.chip.badDesc x w.descs.length := Chip.badDesc_congr hregs _ _
  have hafter : ∀ id, ((s.chip.fetchNext w.id).only Parts.dispatch s.chip).weave? id = (d.joinedOrRefused w x).settle.weave? id :=
    fun id => by
      rw [Chip.only_weave?_in _ _ _ _ rfl, Chip.fetchNext_may hw hflows hmay, Chip.gngFollow_weave?, hfetch, hx]
      rfl
  rw [hafter, ← hbad]
  exact Chip.joinedOrRefused_settle hwd x

theorem descriptorFetch_mayNot {s : State} {w : Weave} (ha : s.chip.awake = true) (hw : s.chip.weave? w.id = some w)
    (hmay : s.chip.mayFetch w = false) : Answers s (.descriptorFetch w.id) (fun d => d = s.chip) := by
  refine Answers.mono (answers_run s _ _ _ (fun d => d = s.chip) ha (exec_descriptorFetch s w.id) ?_) fun d h => h.2
  rw [Chip.fetchNext_mayNot hw hmay]
  exact Chip.within_refl _ _

/-! ## DESCRIPTOR_START -/

/-- The effect of DESCRIPTOR_START. -/
def Chip.startNext (c : Chip) (u : Nat) : Chip :=
  if !c.on R.DSP_CTRL_ENABLE || decide (26 < u) then c
  else
    match c.mirrorNext u with
    | some (f, m) => (c.startMirror f m (u - 2)).refresh
    | none =>
      match c.orphanSolve u with
      | some k => (c.refuseStart k St.ISLAND_OFFLINE).gngFollow
      | none =>
        match c.bestReady u with
        | none => c
        | some k =>
          let e := Desc.engine k.raw
          let safe := match c.weave? k.weave with | some w => c.safetyRefusal w k.raw | none => St.OK
          if (e = 7 ∧ !c.canvasIn 0) ∨ (e = 8 ∧ !c.canvasIn 1) then (c.refuseStart k St.DSP_BAD_DESC).gngFollow
          else if safe != St.OK then (c.refuseStart k safe).gngFollow
          else if c.unitOffline u && e != 2 && e != 6 then (c.refuseStart k St.ISLAND_OFFLINE).gngFollow
          else if !c.unitFree u || c.suspendedFirst u k.cls || c.held u k.cls then c
          else c.startOn k u

theorem exec_descriptorStart (s : State) (u : Nat) : exec (.descriptorStart u) s =
    s.run [.regs, .dict, .muslin, .dsp, .qmg, .msl, .drc, .atu, .twl, .gng, .sent, .fresh] (fun c => c.startNext u) := rfl

/-- A candidate that may start on a free unit is started there. -/
theorem Chip.startNext_starts {c : Chip} {u : Nat} {k : Candidate} {w : Weave} (hu : u ≤ 26)
    (hon : c.on R.DSP_CTRL_ENABLE = true) (hmirror : c.mirrorNext u = none) (horphan : c.orphanSolve u = none)
    (hbest : c.bestReady u = some k) (hw : c.weave? k.weave = some w) (hsafe : c.safetyRefusal w k.raw = St.OK)
    (h7 : Desc.engine k.raw = 7 → c.canvasIn 0 = true) (h8 : Desc.engine k.raw = 8 → c.canvasIn 1 = true)
    (hoff : c.unitOffline u = false) (hfree : c.unitFree u = true) (hsus : c.suspendedFirst u k.cls = false)
    (hheld : c.held u k.cls = false) : c.startNext u = c.startOn k u := by
  have hunit : ¬ (!c.on R.DSP_CTRL_ENABLE || decide (26 < u)) = true := by simp [hon, hu]
  have hcanvas : ¬ ((Desc.engine k.raw = 7 ∧ (!c.canvasIn 0) = true) ∨ (Desc.engine k.raw = 8 ∧ (!c.canvasIn 1) = true)) := by
    rintro (⟨he, hin⟩ | ⟨he, hin⟩)
    · rw [h7 he] at hin; cases hin
    · rw [h8 he] at hin; cases hin
  unfold Chip.startNext
  rw [if_neg hunit]
  simp only [hmirror, horphan, hbest, hw, if_neg hcanvas, hsafe, hoff, hfree, hsus, hheld, bne_self_eq_false, Bool.false_and,
    Bool.not_true, Bool.or_self, Bool.false_eq_true, if_false]

/-- The chip as a new operation of `k` goes onto unit `u`. -/
def Chip.starting (c : Chip) (k : Candidate) (u : Nat) : Chip := (c.noteLatency u k.cls k.since).setOp u (OpRun.start k u c.now)

theorem Chip.noteLatency_now (c : Chip) (u cls since : Nat) : (c.noteLatency u cls since).now = c.now := by
  unfold Chip.noteLatency
  split <;> rfl

theorem Chip.startOn_ready {c : Chip} {k : Candidate} {w : Weave} {o t : Nat} (hw : c.weave? k.weave = some w)
    (hst : w.st k.index = some (.ready o t)) (u : Nat) :
    c.startOn k u = (((c.starting k u).setDescState k.weave k.index .started).chainStart u (OpRun.start k u c.now)
      ((c.noteLatency u k.cls k.since).continues k)).settle := by
  have hw₁ : (c.noteLatency u k.cls k.since).weave? k.weave = some w := (Chip.weave_congr _ _ _ (c.noteLatency_dsp _ _ _)).trans hw
  unfold Chip.startOn Chip.starting
  dsimp only
  rw [hw₁, Chip.noteLatency_now, Option.bind_some, hst]

/-- The start of a chain leaves units and weaves alone. -/
theorem Chip.chainStart_dsp (c : Chip) (u : Nat) (o : OpRun) (continues : Bool) :
    ∃ chains, (c.chainStart u o continues).dsp = { c.dsp with chains } := by
  unfold Chip.chainStart
  extract_lets key whole next d₁ c₁ f
  have h₁ : ∃ chains, c₁.dsp = { c.dsp with chains } := by
    by_cases hnext : next = true
    · exact ⟨_, by rw [show c₁ = _ from if_pos hnext]⟩
    · exact ⟨c.dsp.chains, by rw [show c₁ = _ from if_neg hnext]⟩
  split
  · exact h₁
  · exact h₁

theorem Chip.setDescState_op? (c : Chip) (id i : Nat) (s : DescState) (u : Nat) : (c.setDescState id i s).op? u = c.op? u := by
  unfold Chip.setDescState
  split <;> rfl

theorem Chip.startOn_answer {c : Chip} {k : Candidate} {w : Weave} {o t : Nat} (hw : c.weave? k.weave = some w)
    (hst : w.st k.index = some (.ready o t)) (u : Nat) :
    (c.startOn k u).op? u = some (OpRun.start k u c.now) ∧ (∀ v, v ≠ u → (c.startOn k u).op? v = c.op? v) ∧
    ∃ v, (c.startOn k u).weave? k.weave = some v ∧ v.st k.index = some .started := by
  have hdsp := c.noteLatency_dsp u k.cls k.since
  have hw₁ : (c.starting k u).weave? k.weave = some w := (Chip.weave_congr c (c.noteLatency u k.cls k.since) _ hdsp).trans hw
  rw [Chip.startOn_ready hw hst]
  obtain ⟨chains, hchain⟩ := ((c.starting k u).setDescState k.weave k.index .started).chainStart_dsp u (OpRun.start k u c.now)
    ((c.noteLatency u k.cls k.since).continues k)
  set d := ((c.starting k u).setDescState k.weave k.index .started).chainStart u (OpRun.start k u c.now)
    ((c.noteLatency u k.cls k.since).continues k)
  have hop : ∀ v, d.settle.op? v = (c.starting k u).op? v := fun v => by
    rw [Chip.settle_op?, Chip.op?, hchain]
    exact Chip.setDescState_op? _ _ _ _ v
  have hweaves : d.dsp.weaves = ((c.starting k u).setDescState k.weave k.index .started).dsp.weaves := by rw [hchain]
  have hlt := Weave.lt_of_st hst
  refine ⟨(hop u).trans (Chip.op_setOp_self _ _ _), fun v hv => ?_, ?_⟩
  · exact (hop v).trans ((Chip.op_setOp_other _ _ _ _ hv).trans (Chip.op_congr _ _ _ hdsp))
  · refine Chip.settle_inFlight (survivesLooks_st k.index (by simp) (by simp)) ?_ ?_ fun v hv => Weave.isOver_of_st hv (by simp)
    · rw [hweaves, Chip.setDescState_ids]
      exact Chip.mem_ids_of_weave? hw₁
    · rw [hweaves]
      exact Chip.setDescState_st hw₁ hlt .started

theorem Chip.only_startOn {c d : Chip} {ps : List Part} (hps : ps.contains .dsp = true) {k : Candidate} {u : Nat} {o : OpRun}
    (h : d.op? u = some o ∧ (∀ v, v ≠ u → d.op? v = c.op? v) ∧ ∃ v, d.weave? k.weave = some v ∧ v.st k.index = some .started) :
    (d.only ps c).op? u = some o ∧ (∀ v, v ≠ u → (d.only ps c).op? v = c.op? v) ∧
    ∃ v, (d.only ps c).weave? k.weave = some v ∧ v.st k.index = some .started := by
  simp only [Chip.only_op_in _ _ _ _ hps, Chip.only_weave?_in _ _ _ _ hps]
  exact h

/-- Settles O32: the read answers the bytes that Muslin holds (`Chip.devRead_readable`), and neither the looks that follow a read or a
start nor the retirement of weaves changes a descriptor's words, a done or started descriptor, or a unit. -/
theorem descriptorsRun : Obligations.DescriptorsRun := by
  unfold Obligations.DescriptorsRun
  refine ⟨⟨?fetch, ?mayNot⟩, ?start⟩
  case fetch =>
    intro s w x ha hflows hw hmay hgold hcan hreg hread hx
    exact descriptorFetch_answers ha hflows hw hmay hgold hcan hreg hread hx
  case mayNot => exact fun s w ha hw hmay => descriptorFetch_mayNot ha hw hmay
  case start =>
    intro s u o t k w hu ha hon hmirror horphan hbest hw hst hsafe h7 h8 hoff hfree hsus hheld
    refine answers_run s _ _ _ _ ha (exec_descriptorStart s u) ?_
    rw [Chip.startNext_starts hu hon hmirror horphan hbest hw hsafe h7 h8 hoff hfree hsus hheld]
    exact Chip.only_startOn rfl (Chip.startOn_answer hw hst u)

end Sys2Proof.Machine

namespace Sys2Proof.Machine

/-! # An operation that is not restored (R87)

The premises of the clause of OPERATION_RESUME bound neither a unit's number nor a class, and ask for a readable stretch at the number
that `saveSlot` gives. Past the 40 bits of a device address that number is not the place the restore reads, which is its low 36 bits. -/

/-- The effect of OPERATION_RESUME. -/
def Chip.resumeNext (c : Chip) (u : Nat) : Chip :=
  match c.bestSuspended u with
  | none => c
  | some o =>
    let rival := c.on R.DSP_CTRL_ENABLE &&
      ((c.mirrorNext u).isSome || (match c.bestReady u with | some k => decide (k.cls < o.cls) | none => false))
    if !c.unitFree u || c.unitOffline u || rival || c.held u o.cls then c
    else
      let rest := c.dsp.suspended.filter (fun x => !(x.unit == u && x.cls == o.cls))
      let c := { c with dsp := { c.dsp with suspended := rest } }
      let r := c.restoreContext u o.cls
      (if r.2 then r.1.setOp u o
       else r.1.ctxFault.setOp u { o with status := worse o.status St.DSP_CTX_FAULT, finished := true }).settle

theorem exec_operationResume (s : State) (u : Nat) : exec (.operationResume u) s =
    s.run [.regs, .muslin, .dsp, .qmg, .msl, .drc, .gng, .sent] (fun c => c.resumeNext u) := rfl

/-- The chip that restores `o` on `u`: the operation is no longer among the suspended ones. -/
def Chip.unsuspended (c : Chip) (u : Nat) (o : OpRun) : Chip :=
  { c with dsp := { c.dsp with suspended := c.dsp.suspended.filter (fun x => !(x.unit == u && x.cls == o.cls)) } }

/-- An operation whose context cannot be read comes back with DSP_CTX_FAULT, finished. -/
theorem Chip.resumeNext_fault {c : Chip} {u : Nat} {o : OpRun} (hbest : c.bestSuspended u = some o) (hon : c.on R.DSP_CTRL_ENABLE = false)
    (hfree : c.unitFree u = true) (hoff : c.unitOffline u = false) (hheld : c.held u o.cls = false)
    (hfault : ((c.unsuspended u o).restoreContext u o.cls).2 = false) :
    (c.resumeNext u).op? u = some { o with status := worse o.status St.DSP_CTX_FAULT, finished := true } := by
  unfold Chip.unsuspended at hfault
  unfold Chip.resumeNext
  rw [hbest]
  dsimp only
  rw [hon, hfree, hoff, hheld, hfault]
  exact (Chip.settle_op? _ _).trans (Chip.op_setOp_self _ _ _)

/-- An operation suspended on unit 2, of a class whose slot lies at `2 ^ 40` where DSP_CTX_BASE is 0. -/
def farOp : OpRun :=
  { weave := 0, index := 0, raw := 0, cls := 2 ^ 27 - 16, unit := 2, tiles := 0, preempts := 0, activeNs := 0, startNs := 0, flags := 0,
    status := 0, info0 := 0, info1 := 0, gens := [], ctx := [], begun := true, tileReady := false, finished := false, lastTile := false,
    mirror := false }

/-- The chip after reset with that operation suspended, and word 0 of Muslin poisoned. -/
def farChip : Chip :=
  { Chip.reset with dsp := { Chip.reset.dsp with suspended := [farOp] }, msl := { Chip.reset.msl with poisoned := [0] } }

theorem farChip_bestSuspended : farChip.bestSuspended 2 = some farOp := by decide +kernel

theorem farChip_bestReady : farChip.bestReady 2 = none := by decide +kernel

theorem farChip_free : farChip.unitFree 2 = true ∧ farChip.unitOffline 2 = false ∧ farChip.held 2 farOp.cls = false := by decide +kernel

theorem farChip_mirrorNext : farChip.mirrorNext 2 = none := by decide +kernel

/-- The slot lies past every device address: the stretch there has no poisoned word, and the restore reads offset 0. -/
theorem farChip_saveSlot : farChip.saveSlot 2 farOp.cls = 2 ^ 40 ∧ devOffset (2 ^ 40) = 0 := by decide +kernel

theorem farChip_readable : devRegion (farChip.saveSlot 2 farOp.cls) = 0 ∧ farChip.readable (farChip.saveSlot 2 farOp.cls) 8192 := by
  unfold Chip.readable
  decide +kernel

theorem farChip_fault : ((farChip.unsuspended 2 farOp).restoreContext 2 farOp.cls).2 = false := by decide +kernel

theorem farChip_resumed : (farChip.resumeNext 2).op? 2 =
    some { farOp with status := worse farOp.status St.DSP_CTX_FAULT, finished := true } := by
  obtain ⟨hfree, hoff, hheld⟩ := farChip_free
  exact Chip.resumeNext_fault farChip_bestSuspended (by decide +kernel) hfree hoff hheld farChip_fault

/-- Refutes O33: on `farChip`, where the slot of the suspended operation lies at `2 ^ 40`, every premise of the clause of
OPERATION_RESUME holds, but the restore reads offset 0, meets the poisoned word there, and the operation comes back finished. -/
theorem not_tilesAndOperationsEnd : ¬ Obligations.TilesAndOperationsEnd := by
  unfold Obligations.TilesAndOperationsEnd
  rintro ⟨-, ⟨hresume, -⟩, -⟩
  have hawake : farChip.awake = true := by decide +kernel
  obtain ⟨hfree, hoff, hheld⟩ := farChip_free
  obtain ⟨hregion, hreadable⟩ := farChip_readable
  obtain ⟨d, hexec, -, hop, -⟩ := hresume ⟨farChip, []⟩ 2 farOp hawake farChip_bestSuspended hfree hoff farChip_mirrorNext
    (fun k hk => by rw [farChip_bestReady] at hk; cases hk) hheld hregion hreadable
  rw [exec_operationResume, State.run_awake _ _ _ hawake] at hexec
  injection hexec with hstate
  obtain rfl := congrArg State.chip hstate
  have hback := (Chip.only_op_in (farChip.resumeNext 2) farChip [.regs, .muslin, .dsp, .qmg, .msl, .drc, .gng, .sent] 2 rfl).trans
    farChip_resumed
  have hsame := Option.some.inj (hop.symm.trans hback)
  exact absurd (congrArg OpRun.finished hsame) (by decide)

end Sys2Proof.Machine

namespace Sys2Proof.Machine

/-! # Muslin offsets, banks and lines (R99) -/

/-- The hash of R99 undone: what was mixed in with `p` and `q` is taken out with them. -/
theorem xor_xor_cancel (x p q : Nat) : (((x ^^^ p) ^^^ q) ^^^ p) ^^^ q = x := by
  rw [Nat.xor_right_comm x p q, Nat.xor_assoc (x ^^^ q) p p, Nat.xor_self, Nat.xor_zero, Nat.xor_assoc x q q, Nat.xor_self,
    Nat.xor_zero]

/-- Three bits mixed with three bits are three bits. -/
theorem xor_xor_lt_eight {x p q : Nat} (hx : x < 8) (hp : p < 8) (hq : q < 8) : ((x ^^^ p) ^^^ q) < 8 :=
  Nat.xor_lt_two_pow (n := 3) (Nat.xor_lt_two_pow hx hp) hq

theorem bankOf_div_mod (a : Nat) :
    bankOf a / 8 = bits a 25 3 ∧ bankOf a % 8 = ((bits a 7 3 ^^^ bits a 10 3) ^^^ bits a 13 3) := by
  have hmix := xor_xor_lt_eight (bits_lt a 7 3) (bits_lt a 10 3) (bits_lt a 13 3)
  simp only [bankOf, groupOf]
  omega

theorem bankOf_lt (a : Nat) : bankOf a < 64 := by
  have hgroup : bits a 25 3 < 8 := bits_lt a 25 3
  have hbank := (bankOf_div_mod a).1
  omega

/-- The bits of a line that R99 mixes into the bank, as bits of the offset. -/
theorem lineOf_mod_bits (a : Nat) : lineOf a % 8 = bits a 10 3 ∧ bits (lineOf a) 3 3 = bits a 13 3 := by
  simp only [lineOf, bits, Nat.shiftRight_eq_div_pow]
  omega

/-- The offset of a line is the sum of its group, its line and the three bits that name the bank within the group. -/
theorem lineOffset_eq (bank line : Nat) :
    lineOffset bank line = bank / 8 * 2 ^ 25 + line * 2 ^ 10 + (((bank % 8 ^^^ line % 8) ^^^ bits line 3 3)) * 2 ^ 7 := by
  simp only [lineOffset, Nat.shiftLeft_eq]

/-- Bank, line and byte give the offset back. -/
theorem lineOffset_bankOf_lineOf (a : Nat) (ha : a < 2 ^ 28) : lineOffset (bankOf a) (lineOf a) + bits a 0 7 = a := by
  obtain ⟨hgroup, hmix⟩ := bankOf_div_mod a
  obtain ⟨hlow, hhigh⟩ := lineOf_mod_bits a
  rw [lineOffset_eq, hgroup, hmix, hlow, hhigh, xor_xor_cancel]
  simp only [lineOf, bits, Nat.shiftRight_eq_div_pow]
  omega

/-- The fields of an offset that is put together from a group, a line and the three bits of a bank. -/
theorem bits_of_parts {g line y a : Nat} (hg : g < 8) (hline : line < 32768) (hy : y < 8)
    (ha : a = g * 2 ^ 25 + line * 2 ^ 10 + y * 2 ^ 7) :
    a < 2 ^ 28 ∧ a % 128 = 0 ∧ bits a 25 3 = g ∧ bits a 10 15 = line ∧ bits a 7 3 = y := by
  simp only [bits, Nat.shiftRight_eq_div_pow]
  omega

theorem bankOf_lineOffset {bank line : Nat} (hbank : bank < 64) (hline : line < 32768) :
    lineOffset bank line < 2 ^ 28 ∧ lineOffset bank line % 128 = 0 ∧ bankOf (lineOffset bank line) = bank ∧
      lineOf (lineOffset bank line) = line := by
  have hmix := xor_xor_lt_eight (Nat.mod_lt bank (by decide)) (Nat.mod_lt line (by decide)) (bits_lt line 3 3)
  obtain ⟨hlt, halign, hgroup, hlineOf, hbits⟩ := bits_of_parts (by omega) hline hmix (lineOffset_eq bank line)
  have hline' : lineOf (lineOffset bank line) = line := hlineOf
  obtain ⟨hlow, hhigh⟩ := lineOf_mod_bits (lineOffset bank line)
  rw [hline'] at hlow hhigh
  refine ⟨hlt, halign, ?_, hline'⟩
  rw [bankOf, groupOf, hgroup, hbits, ← hlow, ← hhigh, xor_xor_cancel]
  omega

/-- Settles O13: an offset is its group, line, bank bits and byte, and the hash of R99 is its own inverse (`xor_xor_cancel`). -/
theorem banksAndLines : Obligations.BanksAndLines := by
  unfold Obligations.BanksAndLines
  exact ⟨fun a ha => ⟨rfl, rfl, bankOf_lt a, bits_lt a 10 15, lineOffset_bankOf_lineOf a ha⟩,
    fun bank line hbank hline => bankOf_lineOffset hbank hline⟩

end Sys2Proof.Machine

namespace Sys2Proof.Machine

/-! # Findings about words beyond Muslin (R108, R110, R119) -/

/-- The word that follows the last of Muslin: R99 names bank 0 and line 0 for its address too, and its number has one bit more than
MSL_ERR_LOG.WORD holds. -/
def wordBeyond : Nat := 2 ^ 25

/-- Where a log register reads the word beyond Muslin, nothing follows short of a contradiction. -/
theorem Chip.errLogWord_ne_beyond (d : Chip) : d.rd R.MSL_ERR_LOG_WORD ≠ wordBeyond :=
  ne_of_lt (d.rd_lt R.MSL_ERR_LOG_WORD 0)

/-- The chip after reset with the scrubber on. -/
def scrubChip : Chip := Chip.reset.wr R.MSL_CTRL_SCRUB_EN 1

/-- Refutes O38: on `scrubChip` the scrubber reads line 0 of every bank, and a finding about `wordBeyond`, which R99 places in that line,
meets every premise of the clause about what the scrub finds; but MSL_ERR_LOG.WORD has 25 bits and cannot read as that word. -/
theorem not_muslinRetentionAndScrub : ¬ Obligations.MuslinRetentionAndScrub := by
  unfold Obligations.MuslinRetentionAndScrub
  rintro ⟨-, -, -, -, hfinds, -⟩
  have hlog : scrubChip.rd R.MSL_ERR_LOG_VALID = 0 := by decide +kernel
  obtain ⟨-, d, -, -, -, hword⟩ := hfinds ⟨scrubChip, []⟩ wordBeyond (by decide +kernel) (by decide +kernel) (by decide +kernel)
    (by decide +kernel) (by decide +kernel) (by decide +kernel) (by decide +kernel) (by decide +kernel)
  exact d.errLogWord_ne_beyond (hword hlog).2

/-- The chip after reset with the sweep of column 0 of bank 0 running. -/
def sweepChip : Chip := { Chip.reset with msl := { Chip.reset.msl with sweep := some ⟨0, 0, 0, 0, 1, false⟩ } }

/-- Refutes O39: on `sweepChip` a sweep runs whose column meets line 0 of bank 0, and with it, by R99's bits, `wordBeyond`; a finding
about that word meets every premise of the clause about what the sweep finds, but MSL_ERR_LOG.WORD has 25 bits and cannot read as it. -/
theorem not_muslinTestAndRepair : ¬ Obligations.MuslinTestAndRepair := by
  unfold Obligations.MuslinTestAndRepair
  rintro ⟨-, hsweep, -⟩
  have hlog : sweepChip.rd R.MSL_ERR_LOG_VALID = 0 := by decide +kernel
  obtain ⟨-, hfinds⟩ := hsweep ⟨sweepChip, []⟩ ⟨0, 0, 0, 0, 1, false⟩ 0 (by decide +kernel) (by decide +kernel) rfl
    (by decide +kernel) (by decide +kernel)
  obtain ⟨-, d, -, -, -, hword⟩ := hfinds wordBeyond (by decide +kernel) rfl
  exact d.errLogWord_ne_beyond (hword hlog).2

end Sys2Proof.Machine

namespace Sys2Proof.Machine

/-! # Muslin and host memory keep their canonical form, and Muslin its groups (R99, R103)

The form rests on three parts of the chip. A function that reaches none of them keeps it by its frame law (`Chip.formed.of_within`);
one that reaches some keeps it because what it calls does, and because the writes it makes itself are `Memory.write`, `Memory.store`,
`Memory.clear` and `modifyNth`. The functions stand in the order of the model's files. -/

/-- Muslin has its eight groups, and the bytes of Muslin and of host memory are listed in canonical form. -/
structure Chip.formed (c : Chip) : Prop where
  groups : c.msl.groups.length = 8
  muslin : Memory.wf c.muslin = true
  host : Memory.wf c.host = true

/-- The form, as facts about the parts: for updates that are written out as a record. -/
theorem Chip.formed_iff {c : Chip} :
    c.formed ↔ c.msl.groups.length = 8 ∧ Memory.wf c.muslin = true ∧ Memory.wf c.host = true :=
  ⟨fun ⟨hgroups, hmuslin, hhost⟩ => ⟨hgroups, hmuslin, hhost⟩, fun ⟨hgroups, hmuslin, hhost⟩ => ⟨hgroups, hmuslin, hhost⟩⟩

/-- The parts on which the form rests. -/
def Parts.reachForm (ps : List Part) : Bool := ps.contains .muslin || ps.contains .host || ps.contains .msl

/-- What is taken from a chip of good form, in whatever parts, leaves a chip of good form. -/
theorem Chip.formed.only {c d : Chip} (hd : d.formed) (hc : c.formed) (ps : List Part) : (d.only ps c).formed := by
  refine ⟨?_, ?_, ?_⟩
  · cases hp : ps.contains .msl with
    | true => rw [Chip.only_msl_in _ _ _ hp]; exact hd.groups
    | false => rw [Chip.only_msl_out _ _ _ hp]; exact hc.groups
  · cases hp : ps.contains .muslin with
    | true => rw [Chip.only_muslin_in _ _ _ hp]; exact hd.muslin
    | false => rw [Chip.only_muslin_out _ _ _ hp]; exact hc.muslin
  · cases hp : ps.contains .host with
    | true => rw [Chip.only_host_in _ _ _ hp]; exact hd.host
    | false => rw [Chip.only_host_out _ _ _ hp]; exact hc.host

/-- An effect that reaches other parts only keeps the form. -/
theorem Chip.formed.only_apart {c : Chip} (h : c.formed) (d : Chip) {ps : List Part} (hps : Parts.reachForm ps = false) :
    (d.only ps c).formed := by
  simp only [Parts.reachForm, Bool.or_eq_false_iff] at hps
  obtain ⟨⟨hmuslin, hhost⟩, hmsl⟩ := hps
  refine ⟨?_, ?_, ?_⟩
  · rw [Chip.only_msl_out _ _ _ hmsl]; exact h.groups
  · rw [Chip.only_muslin_out _ _ _ hmuslin]; exact h.muslin
  · rw [Chip.only_host_out _ _ _ hhost]; exact h.host

theorem Chip.formed.of_within {c d : Chip} (h : c.formed) {ps : List Part} (hd : c.within d ps) (hps : Parts.reachForm ps = false) :
    d.formed := by
  have hform := h.only_apart d hps
  rwa [show d.only ps c = d from hd] at hform

theorem formed_ite {p : Prop} [Decidable p] {c d : Chip} (hc : c.formed) (hd : d.formed) : (if p then c else d).formed := by
  split
  · exact hc
  · exact hd

theorem foldl_formed {α : Type} {f : Chip → α → Chip} (hf : ∀ (c : Chip) (a : α), c.formed → (f c a).formed) (l : List α)
    {c : Chip} (h : c.formed) : (l.foldl f c).formed := by
  induction l generalizing c with
  | nil => exact h
  | cons a l ih => exact ih (hf c a h)

theorem foldl_fst_formed {α β : Type} {f : Chip × β → α → Chip × β} (hf : ∀ (s : Chip × β) (a : α), s.1.formed → (f s a).1.formed)
    (l : List α) {s : Chip × β} (h : s.1.formed) : (l.foldl f s).1.formed := by
  induction l generalizing s with
  | nil => exact h
  | cons a l ih => exact ih (hf s a h)

theorem length_modifyNth {α : Type} (l : List α) (i : Nat) (f : α → α) : (modifyNth l i f).length = l.length := by
  induction l generalizing i with
  | nil => rfl
  | cons a l ih =>
    cases i with
    | zero => rfl
    | succ n => exact congrArg Nat.succ (ih n)

/-! ## Resets -/

theorem Chip.reset_formed : Chip.reset.formed :=
  ⟨rfl, rfl, rfl⟩

/-! ## Shared operations: registers, events, Muslin, DRAM, queues -/

theorem Chip.wr_formed {c : Chip} (h : c.formed) (f : Field) (v i : Nat) : (c.wr f v i).formed :=
  h.of_within (c.wr_within f v i) rfl

theorem Chip.count_formed {c : Chip} (h : c.formed) (f : Field) (i n : Nat) : (c.count f i n).formed :=
  h.of_within (c.count_within f i n) rfl

theorem Chip.emit_formed {c : Chip} (h : c.formed) (p : Port) (a b : Nat) (data : List Byte) : (c.emit p a b data).formed :=
  h.of_within (c.emit_within p a b data) rfl

theorem Chip.sendVector_formed {c : Chip} (h : c.formed) (v : Nat) : (c.sendVector v).formed :=
  h.of_within (c.sendVector_within v) rfl

theorem Chip.raise_formed {c : Chip} (h : c.formed) (n : Nat) : (c.raise n).formed :=
  h.of_within (c.raise_within n) rfl

theorem Chip.latch_formed {c : Chip} (h : c.formed) (f : Field) (i : Nat) : (c.latch f i).formed := by
  grind [Chip.latch, Chip.wr_formed]

theorem Chip.latchFault_formed {c : Chip} (h : c.formed) (f : Field) (i : Nat) : (c.latchFault f i).formed :=
  h.of_within (c.latchFault_within f i) rfl

theorem Chip.setEntry_formed {c : Chip} (h : c.formed) (index sub v : Nat) : (c.setEntry index sub v).formed :=
  h.of_within (c.setEntry_within index sub v) rfl

theorem Chip.freshId_formed {c : Chip} (h : c.formed) : c.freshId.2.formed :=
  ⟨h.groups, h.muslin, h.host⟩

theorem Chip.advanceTo_formed {c : Chip} (h : c.formed) (t : Nat) : (c.advanceTo t).formed :=
  h.of_within (c.advanceTo_within t) rfl

theorem Chip.setGroup_formed {c : Chip} (h : c.formed) (g : Nat) (f : Group → Group) : (c.setGroup g f).formed :=
  ⟨(length_modifyNth _ _ _).trans h.groups, h.muslin, h.host⟩

theorem Chip.setDomainState_formed {c : Chip} (h : c.formed) (d v : Nat) : (c.setDomainState d v).formed :=
  h.of_within (c.setDomainState_within d v) rfl

theorem Chip.setPhase_formed {c : Chip} (h : c.formed) (g : Nat) (p : GroupPhase) : (c.setPhase g p).formed := by
  grind [Chip.setPhase, Chip.setDomainState_formed, Chip.setGroup_formed, Chip.wr_formed]

theorem Chip.isolateGroup_formed {c : Chip} (h : c.formed) (g : Nat) : (c.isolateGroup g).formed :=
  ⟨h.groups, h.muslin, h.host⟩

theorem Chip.wakeGroup_formed {c : Chip} (h : c.formed) (g : Nat) : (c.wakeGroup g).formed := by
  grind [Chip.wakeGroup, Chip.setPhase_formed, Chip.isolateGroup_formed]

theorem Chip.touchGroup_formed {c : Chip} (h : c.formed) (g : Nat) : (c.touchGroup g).formed := by
  grind [Chip.touchGroup, Chip.wakeGroup_formed, Chip.setGroup_formed, Chip.formed_iff]

theorem Chip.holdRequest_formed {c : Chip} (h : c.formed) (g : Nat) (i : Instr) (word : Nat) : (c.holdRequest g i word).formed := by
  grind [Chip.holdRequest, Chip.setGroup_formed, Chip.wakeGroup_formed]

theorem Chip.muslinUe_formed {c : Chip} (h : c.formed) (word src : Nat) : (c.muslinUe word src).formed :=
  h.of_within (c.muslinUe_within word src) rfl

theorem Chip.wpHit_formed {c : Chip} (h : c.formed) : c.wpHit.formed := by
  grind [Chip.wpHit, Chip.latchFault_formed]

theorem Chip.muslinWrite_formed {c : Chip} (h : c.formed) (mode : WriteMode) (off : Nat) (data : List Byte) :
    (c.muslinWrite mode off data).1.formed := by
  grind [Chip.muslinWrite, Chip.touchGroup_formed, Chip.wpHit_formed, Chip.muslinUe_formed, foldl_formed, Memory.wf_merge,
    Chip.formed_iff]

theorem Chip.muslinRead_formed {c : Chip} (h : c.formed) (off n src : Nat) : (c.muslinRead off n src).1.formed := by
  grind [Chip.muslinRead, Chip.touchGroup_formed, Chip.muslinUe_formed, foldl_formed]

theorem Chip.dramUe_formed {c : Chip} (h : c.formed) (burst src : Nat) : (c.dramUe burst src).formed :=
  h.of_within (c.dramUe_within burst src) rfl

theorem Chip.askDram_formed {c : Chip} (h : c.formed) : c.askDram.formed :=
  ⟨h.groups, h.muslin, h.host⟩

theorem Chip.touchDram_formed {c : Chip} (h : c.formed) : c.touchDram.formed :=
  h.of_within (c.touchDram_within) rfl

theorem Chip.dramRead_formed {c : Chip} (h : c.formed) (off n src : Nat) : (c.dramRead off n src).1.formed :=
  h.of_within (c.dramRead_within off n src) rfl

theorem Chip.dramWrite_formed {c : Chip} (h : c.formed) (off : Nat) (data : List Byte) : (c.dramWrite off data).1.formed :=
  h.of_within (c.dramWrite_within off data) rfl

theorem Chip.devRead_formed {c : Chip} (h : c.formed) (a n : Nat) : (c.devRead a n).1.formed := by
  grind [Chip.devRead, Chip.dramRead_formed, Chip.muslinRead_formed, foldl_fst_formed]

theorem Chip.devWrite_formed {c : Chip} (h : c.formed) (a : Nat) (data : List Byte) : (c.devWrite a data).1.formed := by
  grind [Chip.devWrite, Chip.dramWrite_formed, Chip.muslinWrite_formed, foldl_fst_formed]

theorem Chip.setQueue_formed {c : Chip} (h : c.formed) (n : Nat) (q : Queue) : (c.setQueue n q).formed :=
  h.of_within (c.setQueue_within n q) rfl

theorem Chip.lose_formed {c : Chip} (h : c.formed) : c.lose.formed :=
  h.of_within (c.lose_within) rfl

theorem Chip.loseFor_formed {c : Chip} (h : c.formed) (n : Nat) : (c.loseFor n).formed :=
  h.of_within (c.loseFor_within n) rfl

theorem Chip.queueInterrupt_formed {c : Chip} (h : c.formed) (n : Nat) : (c.queueInterrupt n).formed :=
  h.of_within (c.queueInterrupt_within n) rfl

theorem Chip.ringWrite_formed {c : Chip} (h : c.formed) (n : Nat) (q : Queue) (entry : Nat) (irq : Bool) :
    (c.ringWrite n q entry irq).formed := by
  grind [Chip.ringWrite, Chip.muslinWrite_formed, Chip.loseFor_formed, Chip.setQueue_formed, Chip.queueInterrupt_formed]

theorem Chip.setSpill_formed {c : Chip} (h : c.formed) (s : List SpillRec) : (c.setSpill s).formed :=
  h.of_within (c.setSpill_within s) rfl

theorem Chip.spillRecord_formed {c : Chip} (h : c.formed) (n rec : Nat) (irq : Bool) : (c.spillRecord n rec irq).formed := by
  unfold Chip.spillRecord
  split
  · exact Chip.loseFor_formed h _
  · grind [Chip.loseFor_formed, Chip.muslinWrite_formed, Chip.setSpill_formed]

theorem Chip.writeRecord_formed {c : Chip} (h : c.formed) (n rec : Nat) (irq : Bool) : (c.writeRecord n rec irq).formed := by
  grind [Chip.writeRecord, Chip.lose_formed, Chip.spillRecord_formed, Chip.ringWrite_formed]

theorem Chip.produce_formed {c : Chip} (h : c.formed) (n entry : Nat) : (c.produce n entry).formed := by
  grind [Chip.produce, Chip.loseFor_formed, Chip.ringWrite_formed, Chip.lose_formed]

theorem Chip.journalAt_formed {c : Chip} (h : c.formed) (time : Nat) (f : JournalFields) : (c.journalAt time f).formed :=
  h.of_within (c.journalAt_within time f) rfl

theorem Chip.journal_formed {c : Chip} (h : c.formed) (f : JournalFields) : (c.journal f).formed :=
  h.of_within (c.journal_within f) rfl

theorem Chip.journalService_formed {c : Chip} (h : c.formed) (f : Field) (value result : Nat) :
    (c.journalService f value result).formed := by
  grind [Chip.journalService, Chip.journal_formed]

/-! ## Operands and records -/

theorem Chip.touchReads_formed {c : Chip} (h : c.formed) (rs : List (Nat × Nat)) : (c.touchReads rs).1.formed := by
  grind [Chip.touchReads, Chip.devRead_formed, foldl_fst_formed]

theorem Chip.freeMuslin_formed {c : Chip} (h : c.formed) (off : Nat) (bs : List Byte) : (c.freeMuslin off bs).formed := by
  grind [Chip.freeMuslin, Memory.wf_write, Chip.formed_iff]

theorem Chip.freeDram_formed {c : Chip} (h : c.formed) (off : Nat) (bs : List Byte) : (c.freeDram off bs).formed := by
  grind [Chip.freeDram, Chip.formed_iff]

theorem Chip.invalidate_formed {c : Chip} (h : c.formed) (rs : List (Nat × Nat)) : (c.invalidate rs).formed := by
  grind [Chip.invalidate, Chip.freshId_formed, Chip.freeDram_formed, Chip.freeMuslin_formed, foldl_formed]

/-! ## Weaves and units -/

theorem Chip.setWeave_formed {c : Chip} (h : c.formed) (w : Weave) : (c.setWeave w).formed :=
  ⟨h.groups, h.muslin, h.host⟩

theorem Chip.setDescState_formed {c : Chip} (h : c.formed) (id i : Nat) (s : DescState) : (c.setDescState id i s).formed := by
  grind [Chip.setDescState, Chip.setWeave_formed]

theorem Chip.setOp_formed {c : Chip} (h : c.formed) (u : Nat) (o : OpRun) : (c.setOp u o).formed :=
  ⟨h.groups, h.muslin, h.host⟩

theorem Chip.freeUnit_formed {c : Chip} (h : c.formed) (u : Nat) : (c.freeUnit u).formed :=
  ⟨h.groups, h.muslin, h.host⟩

theorem Chip.dispatched_formed {c : Chip} (h : c.formed) {d : Chip} (hd : d.formed) : (c.dispatched d).formed :=
  ⟨hd.groups, hd.muslin, h.host⟩

theorem Chip.refresh_formed {c : Chip} (h : c.formed) : c.refresh.formed :=
  h.of_within (c.refresh_within) rfl

theorem Chip.setPoison_formed {c : Chip} (h : c.formed) (s : Nat) (v : Bool) : (c.setPoison s v).formed := by
  grind [Chip.setPoison, Chip.wr_formed]

theorem Chip.postMessage_formed {c : Chip} (h : c.formed) (n : Nat) (q : Queue) : (c.postMessage n q).1.formed := by
  grind [Chip.postMessage, Chip.loseFor_formed, Chip.devRead_formed, Chip.ringWrite_formed]

theorem Chip.report_formed {c : Chip} (h : c.formed) (w : Weave) (i : Nat) (r : RecInfo) : (c.report w i r).formed := by
  grind [Chip.report, Chip.postMessage_formed, Chip.writeRecord_formed]

theorem Chip.signalFor_formed {c : Chip} (h : c.formed) (d status : Nat) : (c.signalFor d status).formed := by
  grind [Chip.signalFor, Chip.wr_formed, Chip.setPoison_formed]

theorem Chip.retireWeaves_formed {c : Chip} (h : c.formed) : c.retireWeaves.formed :=
  ⟨h.groups, h.muslin, h.host⟩

theorem Chip.raiseFor_formed {c : Chip} (h : c.formed) (status : Nat) : (c.raiseFor status).formed := by
  grind [Chip.raiseFor, Chip.raise_formed]

theorem Chip.chainDone_formed {c : Chip} (h : c.formed) (w : Weave) (i status : Nat) : (c.chainDone w i status).formed :=
  ⟨h.groups, h.muslin, h.host⟩

theorem Chip.noteDone_formed {c : Chip} (h : c.formed) (id i status : Nat) : (c.noteDone id i status).formed :=
  ⟨h.groups, h.muslin, h.host⟩

theorem Chip.clearCells_formed {c : Chip} (h : c.formed) : c.clearCells.formed :=
  ⟨h.groups, h.muslin, h.host⟩

theorem Chip.countOp_formed {c : Chip} (h : c.formed) (u st : Nat) : (c.countOp u st).formed := by
  grind [Chip.countOp, Chip.count_formed, Chip.clearCells_formed]

theorem Chip.endMirror_formed {c : Chip} (h : c.formed) (u : Nat) (o : OpRun) (status : Nat) : (c.endMirror u o status).formed := by
  grind [Chip.endMirror, Chip.raiseFor_formed, Chip.countOp_formed, Chip.freeUnit_formed, Chip.formed_iff]

theorem Chip.finishDesc_formed {c : Chip} (h : c.formed) (id i : Nat) (r : RecInfo) : (c.finishDesc id i r).formed := by
  grind [Chip.finishDesc, Chip.dispatched_formed, Chip.noteDone_formed, Chip.report_formed, Chip.raiseFor_formed,
    Chip.signalFor_formed, Chip.setDescState_formed, Chip.chainDone_formed]

theorem Chip.refusalRecord_formed {c : Chip} (h : c.formed) (queue status cls weaveId index info0 : Nat) :
    (c.refusalRecord queue status cls weaveId index info0).formed := by
  grind [Chip.refusalRecord, Chip.raiseFor_formed, Chip.writeRecord_formed]

theorem Chip.readHeader_formed {c : Chip} (h : c.formed) (addr : Nat) : (c.readHeader addr).1.formed := by
  grind [Chip.readHeader, Chip.devRead_formed]

theorem Chip.addWeave_formed {c : Chip} (h : c.formed) (addr header cls pair : Nat) (source : WeaveSource) (qfence : Bool) :
    (c.addWeave addr header cls pair source qfence).1.formed :=
  ⟨h.groups, h.muslin, h.host⟩

theorem Chip.settleOne_formed {c : Chip} (h : c.formed) (p : Nat × Nat) : (c.settleOne p).formed := by
  grind [Chip.settleOne, Chip.finishDesc_formed, Chip.setWeave_formed]

theorem Chip.settlePass_formed {c : Chip} (h : c.formed) : c.settlePass.formed := by
  grind [Chip.settlePass, Chip.settleOne_formed, foldl_formed]

theorem Chip.settleLoop_formed {c : Chip} (h : c.formed) (fuel : Nat) : (c.settleLoop fuel).formed := by
  induction fuel generalizing c with
  | zero => exact h
  | succ fuel ih => grind [Chip.settleLoop, Chip.settlePass_formed]

theorem Chip.settle_formed {c : Chip} (h : c.formed) : c.settle.formed := by
  grind [Chip.settle, Chip.dispatched_formed, Chip.settleLoop_formed, Chip.refresh_formed, Chip.retireWeaves_formed,
    Chip.formed_iff]

theorem Chip.signalSet_formed {c : Chip} (h : c.formed) (s v : Nat) : (c.signalSet s v).formed := by
  grind [Chip.signalSet, Chip.settle_formed, Chip.wr_formed]

theorem Chip.signalAdd_formed {c : Chip} (h : c.formed) (s n : Nat) : (c.signalAdd s n).formed := by
  grind [Chip.signalAdd, Chip.signalSet_formed]

theorem Chip.ctxFault_formed {c : Chip} (h : c.formed) : c.ctxFault.formed := by
  grind [Chip.ctxFault, Chip.latchFault_formed]

theorem Chip.saveContext_formed {c : Chip} (h : c.formed) (u cls : Nat) : (c.saveContext u cls).1.formed := by
  grind [Chip.saveContext, Chip.freshId_formed, Chip.devWrite_formed]

theorem Chip.restoreContext_formed {c : Chip} (h : c.formed) (u cls : Nat) : (c.restoreContext u cls).1.formed := by
  grind [Chip.restoreContext, Chip.devRead_formed]

theorem Chip.suspend_formed {c : Chip} (h : c.formed) (u : Nat) (o : OpRun) : (c.suspend u o).formed := by
  grind [Chip.suspend, Chip.saveContext_formed, Chip.freeUnit_formed, Chip.count_formed, Chip.setOp_formed,
    Chip.ctxFault_formed, Chip.formed_iff]

theorem Chip.onOp_formed {c : Chip} (h : c.formed) (u engine opcode : Nat) (f : Chip → OpRun → Chip) (hf : ∀ (c : Chip) (o :
    OpRun), c.formed → (f c o).formed) :
    (c.onOp u engine opcode f).formed := by
  grind [Chip.onOp]

theorem Chip.untouched_formed {c : Chip} (h : c.formed) : c.untouched.formed :=
  ⟨h.groups, h.muslin, h.host⟩

theorem Chip.unlessHeld_formed {c : Chip} (h : c.formed) (f : Chip → Chip) (hf : ∀ c : Chip, c.formed → (f c).formed) :
    (c.unlessHeld f).formed := by
  grind [Chip.unlessHeld, Chip.untouched_formed, Chip.wakeGroup_formed, Chip.askDram_formed, foldl_formed]

theorem Chip.worked_formed {d : Chip} (h : d.formed) (c : Chip) : (c.worked d).formed :=
  ⟨h.groups, h.muslin, h.host⟩

theorem Chip.runTile_formed {c : Chip} (h : c.formed) (u engine opcode : Nat) (check : Chip → OpRun → Nat) (tile : Chip → OpRun →
    Chip × OpRun) (htile : ∀ (c : Chip) (o : OpRun), c.formed → (tile c o).1.formed) :
    (c.runTile u engine opcode check tile).formed := by
  grind [Chip.runTile, Chip.onOp_formed, Chip.unlessHeld_formed, Chip.setOp_formed, Chip.worked_formed]

theorem Chip.timeTile_formed {c : Chip} (h : c.formed) (u ns : Nat) (o : OpRun) : (c.timeTile u ns o).1.formed := by
  grind [Chip.timeTile, Chip.count_formed]

theorem Chip.completeOp_formed {c : Chip} (h : c.formed) (u : Nat) (o : OpRun) : (c.completeOp u o).formed := by
  grind [Chip.completeOp, Chip.dispatched_formed, Chip.countOp_formed, Chip.freeUnit_formed, Chip.finishDesc_formed,
    Chip.settle_formed]

theorem Chip.failChains_formed {c : Chip} (h : c.formed) (u st : Nat) : (c.failChains u st).formed := by
  grind [Chip.failChains, Chip.finishDesc_formed, foldl_formed]

theorem Chip.failUnit_formed {c : Chip} (h : c.formed) (u st : Nat) : (c.failUnit u st).formed := by
  refine Chip.dispatched_formed h ?_
  extract_lets c₁ d₁ c₂ c₃ mine d₃ c₄ c₅
  have h₁ : c₁.formed := Chip.failChains_formed h _ _
  have h₂ : c₂.formed := ⟨h₁.groups, h₁.muslin, h₁.host⟩
  have h₃ : c₃.formed := by
    show (match c₂.op? u with | some o => _ | none => c₂).formed
    split
    · exact formed_ite (Chip.endMirror_formed h₂ _ _ _) (Chip.completeOp_formed h₂ _ _)
    · exact h₂
  have h₄ : c₄.formed := ⟨h₃.groups, h₃.muslin, h₃.host⟩
  have h₅ : c₅.formed := foldl_formed (fun c o h => Chip.finishDesc_formed (Chip.countOp_formed h _ _) _ _ _) _ h₄
  exact Chip.settle_formed h₅

theorem Chip.chainStart_formed {c : Chip} (h : c.formed) (u : Nat) (o : OpRun) (continues : Bool) :
    (c.chainStart u o continues).formed := by
  grind [Chip.chainStart, Chip.freshId_formed, Chip.formed_iff]

/-! ## Matrix multiplication, pins and slot images -/

theorem Chip.matRow_formed {c : Chip} (h : c.formed) (d b i : Nat) (o : OpRun) : (c.matRow d b i o).1.formed := by
  grind [Chip.matRow, Chip.devWrite_formed]

theorem Chip.holdBlock_formed {c : Chip} (h : c.formed) (d b : Nat) : (c.holdBlock d b).formed :=
  ⟨h.groups, h.muslin, h.host⟩

theorem Chip.loadWeights_formed {c : Chip} (h : c.formed) (d c0 cols j : Nat) : (c.loadWeights d c0 cols j).formed :=
  ⟨h.groups, h.muslin, h.host⟩

theorem Chip.streamWeights_formed {c : Chip} (h : c.formed) (d b : Nat) (firstOfTile : Bool) :
    (c.streamWeights d b firstOfTile).formed := by
  grind [Chip.streamWeights, Chip.loadWeights_formed, foldl_formed]

theorem Chip.addStalls_formed {c : Chip} (h : c.formed) (o : OpRun) (stalls : Nat) : (c.addStalls o stalls).1.formed := by
  grind [Chip.addStalls, Chip.count_formed]

theorem Chip.setShape_formed {c : Chip} (h : c.formed) (shape : Nat) (ws : Bool) : (c.setShape shape ws).formed := by
  grind [Chip.setShape, Chip.wr_formed]

theorem Chip.slotParity_formed {c : Chip} (h : c.formed) (o : OpRun) : (c.slotParity o).1.formed := by
  grind [Chip.slotParity, Chip.latchFault_formed]

theorem Chip.matBlock_formed {c : Chip} (h : c.formed) (o : OpRun) (b : Nat) (firstOfTile : Bool) :
    (c.matBlock o b firstOfTile).1.formed := by
  grind [Chip.matBlock, Chip.touchReads_formed, Chip.invalidate_formed, Chip.holdBlock_formed, Chip.streamWeights_formed,
    Chip.matRow_formed, foldl_fst_formed]

theorem Chip.countPins_formed {c : Chip} (h : c.formed) : c.countPins.formed := by
  grind [Chip.countPins, Chip.wr_formed]

theorem Chip.setSlot_formed {c : Chip} (h : c.formed) (row col slot v : Nat) : (c.setSlot row col slot v).formed :=
  ⟨h.groups, h.muslin, h.host⟩

theorem Chip.clearSlots_formed {c : Chip} (h : c.formed) (p : PinPar) : (c.clearSlots p).formed :=
  ⟨h.groups, h.muslin, h.host⟩

theorem Chip.freeSlots_formed {c : Chip} (h : c.formed) (p : PinPar) : (c.freeSlots p).formed := by
  grind [Chip.freeSlots, Chip.freshId_formed, Chip.formed_iff]

/-! ## Scans, anchors and checkpoints -/

theorem Chip.setTorn_formed {c : Chip} (h : c.formed) (off : Nat) (v : Bool) : (c.setTorn off v).1.formed := by
  grind [Chip.setTorn, Chip.devWrite_formed]

theorem Chip.tornAt_formed {c : Chip} (h : c.formed) (off : Nat) (o : OpRun) (st : Nat) : (c.tornAt off o st).1.formed := by
  grind [Chip.tornAt, Chip.setTorn_formed]

theorem Chip.streamWhole_formed {c : Chip} (h : c.formed) (off : Nat) (o : OpRun) (st : Nat) :
    (c.streamWhole off o st).1.formed := by
  grind [Chip.streamWhole, Chip.tornAt_formed, Chip.setTorn_formed]

theorem Chip.scanColumn_formed {c : Chip} (h : c.formed) (r : ScanRec) (s : Scb) (t col : Nat) (o : OpRun) :
    (c.scanColumn r s t col o).1.formed := by
  grind [Chip.scanColumn, Chip.setSlot_formed, foldl_fst_formed]

theorem Chip.scanStep_formed {c : Chip} (h : c.formed) (r : ScanRec) (s : Scb) (t : Nat) (o : OpRun) :
    (c.scanStep r s t o).1.formed := by
  grind [Chip.scanStep, Chip.scanColumn_formed, foldl_fst_formed]

theorem Chip.scanSteps_formed {c : Chip} (h : c.formed) (r : ScanRec) (s : Scb) (n : Nat) (write : Bool) (o : OpRun) :
    (c.scanSteps r s n write o).1.formed := by
  grind [Chip.scanSteps, Chip.scanStep_formed, Chip.devWrite_formed, foldl_fst_formed]

theorem Chip.scanTorn_formed {c : Chip} (h : c.formed) (r : ScanRec) (s : Scb) (o : OpRun) (st : Nat) (limit : Option Nat) :
    (c.scanTorn r s o st limit).1.formed := by
  grind [Chip.scanTorn, Chip.freshId_formed, Chip.scanSteps_formed, Chip.invalidate_formed, Chip.tornAt_formed,
    Chip.count_formed]

theorem Chip.scanParity_formed {c : Chip} (h : c.formed) (r : ScanRec) (s : Scb) (o : OpRun) (slots : SlotFinding) :
    (c.scanParity r s o slots).1.formed := by
  refine Chip.scanTorn_formed (Chip.latchFault_formed ?_ _ _) _ _ _ _ _
  split
  · exact Chip.wr_formed h _ _ _
  · exact h

theorem Chip.scanRecord_formed {c : Chip} (h : c.formed) (o : OpRun) (k : Nat) (slots : SlotFinding) :
    (c.scanRecord o k slots).1.formed := by
  grind [Chip.scanRecord, Chip.touchReads_formed, Chip.tornAt_formed, Chip.scanTorn_formed, Chip.scanParity_formed,
    Chip.scanSteps_formed, Chip.devWrite_formed, Chip.count_formed, Chip.formed_iff]

theorem Chip.anchorCells_formed {c : Chip} (h : c.formed) (s : Scb) (shadow : Nat) (o : OpRun) (cells : List (Nat × Nat)) :
    (c.anchorCells s shadow o cells).1.formed := by
  grind [Chip.anchorCells, Chip.setSlot_formed, foldl_fst_formed]

theorem Chip.streamMeets_formed {c : Chip} (h : c.formed) (o : OpRun) (st : Nat) : (c.streamMeets o st).1.formed := by
  grind [Chip.streamMeets, Chip.scanTorn_formed, Chip.tornAt_formed]

/-! ## Rows and tiles of Twill -/

theorem Chip.twPoke_formed {c : Chip} (h : c.formed) (o : OpRun) (store : Bool) (off : Nat) (bs : List Byte) :
    (c.twPoke o store off bs).1.formed := by
  grind [Chip.twPoke, Chip.devWrite_formed, Chip.formed_iff]

theorem Chip.twPutRow_formed {c : Chip} (h : c.formed) (o : OpRun) (s : TwSlot) (r : Nat) (xs : List TwOut) :
    (c.twPutRow o s r xs).1.formed := by
  grind [Chip.twPutRow, Chip.twPoke_formed]

theorem Chip.twPack_formed {c : Chip} (h : c.formed) (o : OpRun) (s : TwSlot) (off i : Nat) (xs : List Nat) :
    (c.twPack o s off i xs).1.formed := by
  grind [Chip.twPack, Chip.twPoke_formed]

theorem Chip.twPutAt_formed {c : Chip} (h : c.formed) (o : OpRun) (s : TwSlot) (i : Nat) (xs : List TwOut) :
    (c.twPutAt o s i xs).1.formed := by
  grind [Chip.twPutAt, Chip.twPack_formed]

theorem Chip.storeCheck_formed {c : Chip} (h : c.formed) (o : OpRun) (ecc : EccFinding) : (c.storeCheck o ecc).1.formed := by
  cases ecc with
  | clean => exact h
  | corrected => exact Chip.count_formed h _ _ _
  | uncorrectable => exact Chip.latchFault_formed h _ _

theorem Chip.twStalls_formed {c : Chip} (h : c.formed) (o : OpRun) (stalls : Nat) : (c.twStalls o stalls).1.formed := by
  grind [Chip.twStalls, Chip.count_formed]

theorem Chip.twTileRun_formed {c : Chip} (h : c.formed) (o : OpRun) (stalls : Nat) (ecc : EccFinding) (row : Chip → OpRun → Nat →
    Chip × OpRun × Nat) (hrow : ∀ (c : Chip) (o : OpRun) (i : Nat), c.formed → (row c o i).1.formed) :
    (c.twTileRun o stalls ecc row).1.formed := by
  grind [Chip.twTileRun, Chip.twStalls_formed, Chip.storeCheck_formed, Chip.invalidate_formed, Chip.touchReads_formed,
    foldl_fst_formed]

theorem Chip.twOp_formed {c : Chip} (h : c.formed) (cluster opcode stalls : Nat) (ecc : EccFinding) (row : Chip → OpRun → Nat →
    Chip × OpRun × Nat) (hrow : ∀ (c : Chip) (o : OpRun) (i : Nat), c.formed → (row c o i).1.formed) :
    (c.twOp cluster opcode stalls ecc row).formed := by
  grind [Chip.twOp, Chip.runTile_formed, Chip.twTileRun_formed]

/-! ## Operations of Twill -/

theorem Chip.unaryRow_formed {c : Chip} (h : c.formed) (o : OpRun) (r : Nat) : (c.unaryRow o r).1.formed := by
  grind [Chip.unaryRow, Chip.twPutRow_formed]

theorem Chip.binaryRow_formed {c : Chip} (h : c.formed) (o : OpRun) (r : Nat) : (c.binaryRow o r).1.formed := by
  grind [Chip.binaryRow, Chip.twPutRow_formed]

theorem Chip.ternaryRow_formed {c : Chip} (h : c.formed) (o : OpRun) (r : Nat) : (c.ternaryRow o r).1.formed := by
  grind [Chip.ternaryRow, Chip.twPutRow_formed]

theorem Chip.reduceRow_formed {c : Chip} (h : c.formed) (o : OpRun) (r : Nat) : (c.reduceRow o r).1.formed := by
  grind [Chip.reduceRow, Chip.twPutAt_formed]

theorem Chip.cumulativeRow_formed {c : Chip} (h : c.formed) (o : OpRun) (r : Nat) : (c.cumulativeRow o r).1.formed := by
  grind [Chip.cumulativeRow, Chip.twPutRow_formed]

theorem Chip.softmaxRow_formed {c : Chip} (h : c.formed) (o : OpRun) (r : Nat) : (c.softmaxRow o r).1.formed := by
  grind [Chip.softmaxRow, Chip.twPutRow_formed]

theorem Chip.normRow_formed {c : Chip} (h : c.formed) (o : OpRun) (r : Nat) : (c.normRow o r).1.formed := by
  grind [Chip.normRow, Chip.twPutRow_formed]

theorem Chip.twPutState_formed {c : Chip} (h : c.formed) (o : OpRun) (s : TwSlot) (r : Nat) (xs : List Num) :
    (c.twPutState o s r xs).1.formed := by
  grind [Chip.twPutState, Chip.twPoke_formed]

theorem Chip.optimRow_formed {c : Chip} (h : c.formed) (o : OpRun) (r : Nat) : (c.optimRow o r).1.formed := by
  grind [Chip.optimRow, Chip.twPutState_formed, Chip.twPutRow_formed]

theorem Chip.topkRow_formed {c : Chip} (h : c.formed) (o : OpRun) (r : Nat) : (c.topkRow o r).1.formed := by
  grind [Chip.topkRow, Chip.twPutRow_formed, Chip.twPutAt_formed]

theorem Chip.sampleRow_formed {c : Chip} (h : c.formed) (o : OpRun) (r : Nat) : (c.sampleRow o r).1.formed := by
  grind [Chip.sampleRow, Chip.twPutAt_formed]

theorem Chip.convertRow_formed {c : Chip} (h : c.formed) (o : OpRun) (r : Nat) : (c.convertRow o r).1.formed := by
  grind [Chip.convertRow, Chip.twPoke_formed]

theorem Chip.scatterPut_formed {c : Chip} (h : c.formed) (o : OpRun) (t : Int) (xs : List TwOut) :
    (c.scatterPut o t xs).1.formed := by
  grind [Chip.scatterPut, Chip.twPoke_formed]

theorem Chip.transposeRow_formed {c : Chip} (h : c.formed) (o : OpRun) (r : Nat) : (c.transposeRow o r).1.formed := by
  grind [Chip.transposeRow, Chip.twPack_formed, foldl_fst_formed]

theorem Chip.layoutOp_formed {c : Chip} (h : c.formed) (o : OpRun) (r : Nat) : (c.layoutOp o r).1.formed := by
  grind [Chip.layoutOp, Chip.transposeRow_formed, Chip.twPutRow_formed, Chip.scatterPut_formed]

theorem Chip.ropeOp_formed {c : Chip} (h : c.formed) (o : OpRun) (r : Nat) : (c.ropeOp o r).1.formed := by
  grind [Chip.ropeOp, Chip.twPutRow_formed, Chip.formed_iff]

theorem Chip.lossRow_formed {c : Chip} (h : c.formed) (o : OpRun) (r : Nat) : (c.lossRow o r).1.formed := by
  grind [Chip.lossRow, Chip.twPutRow_formed, Chip.twPutAt_formed, Chip.freshId_formed]

theorem Chip.backwardRow_formed {c : Chip} (h : c.formed) (o : OpRun) (r : Nat) : (c.backwardRow o r).1.formed := by
  grind [Chip.backwardRow, Chip.twPutRow_formed, Chip.formed_iff]

theorem Chip.statsRow_formed {c : Chip} (h : c.formed) (o : OpRun) (r : Nat) : (c.statsRow o r).1.formed := by
  grind [Chip.statsRow, Chip.twPutAt_formed]

theorem Chip.shadowStep_formed {c : Chip} (h : c.formed) (r : ScanRec) (s : Scb) (t : Nat) (o : OpRun) :
    (c.shadowStep r s t o).1.formed := by
  grind [Chip.shadowStep, Chip.devWrite_formed, foldl_fst_formed]

theorem Chip.shadowRecord_formed {c : Chip} (h : c.formed) (o : OpRun) (k : Nat) : (c.shadowRecord o k).1.formed := by
  grind [Chip.shadowRecord, Chip.touchReads_formed, Chip.invalidate_formed, Chip.shadowStep_formed, foldl_fst_formed]

theorem Chip.vmatmulRow_formed {c : Chip} (h : c.formed) (o : OpRun) (r : Nat) : (c.vmatmulRow o r).1.formed := by
  grind [Chip.vmatmulRow, Chip.twPutRow_formed]

/-! ## Address translation: sequences, frames, KV commands -/

theorem Chip.setSeq_formed {c : Chip} (h : c.formed) (n v : Nat) : (c.setSeq n v).formed := by
  grind [Chip.setSeq, Chip.wr_formed]

theorem Chip.seqBit_formed {c : Chip} (h : c.formed) (n bit : Nat) (v : Bool) : (c.seqBit n bit v).formed := by
  grind [Chip.seqBit, Chip.setSeq_formed]

theorem Chip.devNat_formed {c : Chip} (h : c.formed) (a n : Nat) : (c.devNat a n).1.formed := by
  grind [Chip.devNat, Chip.devRead_formed]

theorem Chip.atuCmd_formed {c : Chip} (h : c.formed) (f : Chip → Chip × Nat) (hf : ∀ c : Chip, c.formed → (f c).1.formed) :
    (c.atuCmd f).formed := by
  grind [Chip.atuCmd, Chip.wr_formed]

theorem Chip.setFifo_formed {c : Chip} (h : c.formed) (l : List Nat) : (c.setFifo l).formed := by
  grind [Chip.setFifo, Chip.wr_formed, Chip.raise_formed, Chip.latch_formed, Chip.formed_iff]

theorem Chip.putFrame_formed {c : Chip} (h : c.formed) (f e gen st : Nat) : (c.putFrame f e gen st).1.formed := by
  grind [Chip.putFrame, Chip.devWrite_formed]

theorem Chip.takeFrame_formed {c : Chip} (h : c.formed) (fuel : Nat) : (c.takeFrame fuel).1.formed := by
  induction fuel generalizing c with
  | zero => exact h
  | succ fuel ih =>
    grind [Chip.takeFrame, Chip.devNat_formed, Chip.setFifo_formed, Chip.count_formed, Chip.latch_formed, Chip.putFrame_formed]

theorem Chip.andThen_formed {r : Chip × Nat} (h : r.1.formed) (f : Chip → Chip × Nat) (hf : ∀ c : Chip, c.formed → (f c).1.formed) :
    (Chip.andThen r f).1.formed := by
  grind [Chip.andThen]

theorem Chip.commitPage_formed {c : Chip} (h : c.formed) (k : KvRef) (pages : Nat) (data : List Byte) (staged : Nat) :
    (c.commitPage k pages data staged).1.formed := by
  grind [Chip.commitPage, Chip.latch_formed, Chip.takeFrame_formed, Chip.devNat_formed, Chip.andThen_formed,
    Chip.devWrite_formed, Chip.count_formed]

theorem Chip.flush_formed {c : Chip} (h : c.formed) (k : KvRef) (pages : Nat) : (c.flush k pages).1.formed := by
  grind [Chip.flush, Chip.devRead_formed, Chip.commitPage_formed, Chip.devWrite_formed]

theorem Chip.bumpChanges_formed {c : Chip} (h : c.formed) (k : KvRef) (n : Nat) : (c.bumpChanges k n).formed := by
  grind [Chip.bumpChanges, Chip.setSeq_formed]

theorem Chip.stageRows_formed {c : Chip} (h : c.formed) (k : KvRef) (j : Nat) (token : List Byte) :
    (c.stageRows k j token).1.formed := by
  grind [Chip.stageRows, Chip.andThen_formed, Chip.devWrite_formed, foldl_fst_formed]

theorem Chip.appendToken_formed {c : Chip} (h : c.formed) (k : KvRef) (token : List Byte) : (c.appendToken k token).1.formed := by
  grind [Chip.appendToken, Chip.devNat_formed, Chip.flush_formed, Chip.seqBit_formed, Chip.andThen_formed,
    Chip.stageRows_formed, Chip.devWrite_formed, Chip.bumpChanges_formed]

theorem Chip.entryStatus_formed {c : Chip} (h : c.formed) (d i st : Nat) : (c.entryStatus d i st).1.formed := by
  grind [Chip.entryStatus, Chip.devWrite_formed]

theorem Chip.entryCounts_formed {c : Chip} (h : c.formed) (d i tokens pages : Nat) : (c.entryCounts d i tokens pages).1.formed := by
  grind [Chip.entryCounts, Chip.devWrite_formed]

theorem Chip.fetchChunk_formed {c : Chip} (h : c.formed) (k : KvRef) (pages staged fromSlot i : Nat) (f : Fetched) :
    (c.fetchChunk k pages staged fromSlot i f).1.formed := by
  grind [Chip.fetchChunk, Chip.devNat_formed, Chip.count_formed]

theorem Chip.fetchPass_formed {c : Chip} (h : c.formed) (k : KvRef) (pages staged fromSlot p : Nat) :
    (c.fetchPass k pages staged fromSlot p).1.formed := by
  grind [Chip.fetchPass, Chip.fetchChunk_formed, foldl_fst_formed]

theorem Chip.touchQueries_formed {c : Chip} (h : c.formed) (d : Nat) (e : AtuEntry) (t0 n : Nat) :
    (c.touchQueries d e t0 n).1.formed := by
  grind [Chip.touchQueries, Chip.touchReads_formed]

theorem Chip.readAcc_formed {c : Chip} (h : c.formed) (e : AtuEntry) (rows : Nat) (fresh : Bool) (kept : Option (List RunState)) :
    (c.readAcc e rows fresh kept).1.formed := by
  cases kept <;> grind [Chip.readAcc, Chip.devRead_formed]

theorem Chip.writeAcc_formed {c : Chip} (h : c.formed) (e : AtuEntry) (rs : List RunState) : (c.writeAcc e rs).1.formed := by
  grind [Chip.writeAcc, Chip.devWrite_formed]

theorem Chip.putOutputs_formed {c : Chip} (h : c.formed) (o : OpRun) (e : AtuEntry) (t0 : Nat) (rs : List RunState) :
    (c.putOutputs o e t0 rs).1.formed := by
  grind [Chip.putOutputs, Chip.devWrite_formed, foldl_fst_formed]

theorem Chip.atuBegin_formed {c : Chip} (h : c.formed) (o : OpRun) : (c.atuBegin o).1.formed := by
  grind [Chip.atuBegin, Chip.seqBit_formed, foldl_formed]

theorem Chip.endEntry_formed {c : Chip} (h : c.formed) (d : Nat) (x : AtuCtx) (st : Nat) : (c.endEntry d x st).1.formed := by
  grind [Chip.endEntry, Chip.entryStatus_formed]

theorem Chip.freeAcc_formed {c : Chip} (h : c.formed) (d : Nat) : (c.freeAcc d).formed := by
  grind [Chip.freeAcc, Chip.invalidate_formed]

theorem Chip.failEntry_formed {c : Chip} (h : c.formed) (o : OpRun) (x : AtuCtx) (st : Nat) : (c.failEntry o x st).1.formed := by
  grind [Chip.failEntry, Chip.invalidate_formed, Chip.entryStatus_formed, Chip.freeAcc_formed, foldl_formed]

theorem Chip.beginEntry_formed {c : Chip} (h : c.formed) (d : Nat) (x : AtuCtx) : (c.beginEntry d x).1.formed := by
  grind [Chip.beginEntry, Chip.devRead_formed, Chip.appendToken_formed]

theorem Chip.atuPass_formed {c : Chip} (h : c.formed) (o : OpRun) (x : AtuCtx) (k : KvRef) (e : AtuEntry) (t0 n : Nat) (kept :
    Option (List RunState)) :
    (c.atuPass o x k e t0 n kept).1.formed := by
  grind [Chip.atuPass, Chip.devNat_formed, Chip.fetchPass_formed, Chip.touchQueries_formed, Chip.readAcc_formed]

theorem Chip.decodePass_formed {c : Chip} (h : c.formed) (o : OpRun) (x : AtuCtx) (kept : Option (List RunState)) :
    (c.decodePass o x kept).1.formed := by
  grind [Chip.decodePass, Chip.atuPass_formed, Chip.putOutputs_formed, Chip.entryCounts_formed, Chip.endEntry_formed]

/-- One turn of the loop over the entries of a batch, as its definition gives it. -/
theorem Chip.decodeLoop_succ (c : Chip) (o : OpRun) (x : AtuCtx) (kept : Option (List RunState)) (fuel budget : Nat) :
    c.decodeLoop o x kept (fuel + 1) budget =
      (let d := o.raw
      let p := atuPar d
      if o.finished ∨ p.batch ≤ x.entry then (c, o, x)
      else if !x.due then Chip.decodeLoop c o { x with entry := x.entry + 1 } none fuel budget
      else if budget = 0 then
        match kept with
        | none => (c, o, x)
        | some rs =>
          let a := c.writeAcc (c.atuEntry d x.entry) rs
          if a.2 != 0 then (let f := a.1.failEntry o x a.2; (f.1, f.2, x)) else (a.1, o, x)
      else
        let h := c.touchReads [(p.batchOff + 64 * x.entry, 64)]
        let b := if h.2 != 0 then (h.1, x, h.2)
          else if !(c.atuEntry d x.entry).active ∨ x.begun then (h.1, x, St.OK)
          else h.1.beginEntry d x
        if statusClass b.2.2 = 7 then (let f := b.1.failEntry o b.2.1 b.2.2; (f.1, f.2, b.2.1))
        else
          let q := if b.2.2 != 0 ∨ !(c.atuEntry d x.entry).active then
              (let r := b.1.endEntry d b.2.1 b.2.2; (r.1, o, r.2.1, none, r.2.2))
            else b.1.decodePass o b.2.1 kept
          if q.2.2.2.2 != 0 then (let f := q.1.failEntry q.2.1 q.2.2.1 q.2.2.2.2; (f.1, f.2, q.2.2.1))
          else Chip.decodeLoop q.1 q.2.1 q.2.2.1 q.2.2.2.1 fuel (budget - 1)) := rfl

theorem Chip.decodeLoop_formed {c : Chip} (h : c.formed) (o : OpRun) (x : AtuCtx) (kept : Option (List RunState))
    (fuel budget : Nat) : (c.decodeLoop o x kept fuel budget).1.formed := by
  induction fuel generalizing c o x kept budget with
  | zero => exact h
  | succ fuel ih =>
    rw [Chip.decodeLoop_succ]
    cases kept <;> grind [Chip.writeAcc_formed, Chip.failEntry_formed, Chip.touchReads_formed, Chip.beginEntry_formed,
      Chip.endEntry_formed, Chip.decodePass_formed]

theorem Chip.prefillAppend_formed {c : Chip} (h : c.formed) (d appended : Nat) : (c.prefillAppend d appended).1.formed := by
  grind [Chip.prefillAppend, Chip.devNat_formed, Chip.devRead_formed, Chip.commitPage_formed, Chip.seqBit_formed,
    Chip.bumpChanges_formed, Chip.appendToken_formed]

theorem Chip.prefillAppends_formed {c : Chip} (h : c.formed) (d : Nat) (x : AtuCtx) (fuel pages : Nat) :
    (c.prefillAppends d x fuel pages).1.formed := by
  induction fuel generalizing c x pages with
  | zero => exact h
  | succ fuel ih => grind [Chip.prefillAppends, Chip.prefillAppend_formed]

theorem Chip.prefillSteps_formed {c : Chip} (h : c.formed) (o : OpRun) (x : AtuCtx) (kept : Option (List RunState)) (fuel : Nat) :
    (c.prefillSteps o x kept fuel).1.formed := by
  induction fuel generalizing c o x kept with
  | zero =>
    cases kept with
    | none => exact h
    | some rs => exact Chip.writeAcc_formed h _ _
  | succ fuel ih =>
    unfold Chip.prefillSteps
    grind [Chip.atuPass_formed, Chip.putOutputs_formed]

theorem Chip.atuUnlock_formed {c : Chip} (h : c.formed) (o : OpRun) (kept : List Nat) : (c.atuUnlock o kept).formed := by
  grind [Chip.atuUnlock, Chip.seqBit_formed, foldl_formed]

theorem Chip.showHold_formed {c : Chip} (h : c.formed) (slot : Nat) : (c.showHold slot).formed :=
  h.of_within (c.showHold_within slot) rfl

theorem Chip.setHold_formed {c : Chip} (h : c.formed) (slot : Nat) (h₁ : Option HoldRec) : (c.setHold slot h₁).formed :=
  h.of_within (c.setHold_within slot h₁) rfl

theorem Chip.abandon_formed {c : Chip} (h : c.formed) (o : OpRun) : (c.abandon o).1.formed := by
  grind [Chip.abandon, Chip.seqBit_formed, Chip.entryStatus_formed, foldl_formed]

theorem Chip.leaveAtu_formed {c : Chip} (h : c.formed) (o : OpRun) : (c.leaveAtu o).formed :=
  h.of_within (c.leaveAtu_within o) rfl

theorem Chip.tearTable_formed {c : Chip} (h : c.formed) : c.tearTable.formed := by
  grind [Chip.tearTable, Chip.wr_formed]

theorem Chip.failEngine_formed {c : Chip} (h : c.formed) (u st : Nat) : (c.failEngine u st).formed := by
  grind [Chip.failEngine, Chip.failUnit_formed, Chip.leaveAtu_formed, Chip.tearTable_formed, foldl_formed]

theorem Chip.completeAtu_formed {c : Chip} (h : c.formed) (o : OpRun) : (c.completeAtu o).formed := by
  grind [Chip.completeAtu, Chip.atuUnlock_formed, Chip.freeUnit_formed, Chip.report_formed, Chip.setHold_formed,
    Chip.settle_formed, Chip.setDescState_formed, Chip.abandon_formed, Chip.completeOp_formed, Chip.leaveAtu_formed]

/-! ## Grids -/

theorem Chip.setGrid_formed {c : Chip} (h : c.formed) (id : Nat) (g : Grid) : (c.setGrid id g).formed :=
  ⟨h.groups, h.muslin, h.host⟩

theorem Chip.gridServe_formed {c : Chip} (h : c.formed) (id t : Nat) : (c.gridServe id t).formed := by
  grind [Chip.gridServe, Chip.setGrid_formed]

theorem Chip.gridFrom_formed {c : Chip} (h : c.formed) (id t : Nat) : (c.gridFrom id t).formed := by
  grind [Chip.gridFrom, Chip.setGrid_formed]

/-! ## Ingest: pipes, filters, SPI ports and triggers -/

theorem Chip.under_formed {c : Chip} (h : c.formed) (cfg : Table Nat) : (c.under cfg).formed :=
  ⟨h.groups, h.muslin, h.host⟩

theorem Chip.setPipe_formed {c : Chip} (h : c.formed) (p : Nat) (f : PipeState → PipeState) : (c.setPipe p f).formed :=
  ⟨h.groups, h.muslin, h.host⟩

theorem Chip.setFilter_formed {c : Chip} (h : c.formed) (n : Nat) (f : FilterState → FilterState) : (c.setFilter n f).formed :=
  ⟨h.groups, h.muslin, h.host⟩

theorem Chip.setSpi_formed {c : Chip} (h : c.formed) (n : Nat) (f : SpiState → SpiState) : (c.setSpi n f).formed :=
  ⟨h.groups, h.muslin, h.host⟩

theorem Chip.setTrig_formed {c : Chip} (h : c.formed) (n : Nat) (f : TrigGroup → TrigGroup) : (c.setTrig n f).formed :=
  ⟨h.groups, h.muslin, h.host⟩

theorem Chip.blankCheck_formed {c : Chip} (h : c.formed) (p : Nat) (f : PipeFrame) : (c.blankCheck p f).1.formed := by
  grind [Chip.blankCheck, Chip.devRead_formed, Chip.setPipe_formed]

theorem Chip.closeFrame_formed {c : Chip} (h : c.formed) (p : Nat) (early : Bool) : (c.closeFrame p early).formed := by
  grind [Chip.closeFrame, Chip.blankCheck_formed, Chip.count_formed, Chip.setPipe_formed]

theorem Chip.openFrame_formed {c : Chip} (h : c.formed) (p : Nat) : (c.openFrame p).formed := by
  grind [Chip.openFrame, Chip.closeFrame_formed, Chip.devRead_formed, Chip.latch_formed, Chip.count_formed,
    Chip.setPipe_formed]

theorem Chip.modFrame_formed {c : Chip} (h : c.formed) (p : Nat) (f : PipeFrame → PipeFrame) : (c.modFrame p f).formed := by
  grind [Chip.modFrame, Chip.setPipe_formed]

theorem Chip.headerChecked_formed {c : Chip} (h : c.formed) (rx vc : Nat) (hdr : HeaderCheck) (f : Chip → Chip)
    (hf : ∀ c : Chip, c.formed → (f c).formed) : (c.headerChecked rx vc hdr f).formed := by
  cases hdr with
  | good => exact hf c h
  | corrected => exact hf _ (Chip.latch_formed (Chip.count_formed h _ _ _) _ _)
  | bad => exact foldl_formed (fun c p h => Chip.modFrame_formed h _ _) _ (Chip.latch_formed (Chip.count_formed h _ _ _) _ _)

theorem Chip.filtUnder_formed {c : Chip} (h : c.formed) (n time : Nat) : (c.filtUnder n time).formed := by
  grind [Chip.filtUnder, Chip.under_formed]

theorem Chip.ethDrop_formed {c : Chip} (h : c.formed) : c.ethDrop.formed := by
  grind [Chip.ethDrop, Chip.latch_formed]

theorem Chip.rawEntry_formed {c : Chip} (h : c.formed) (n port sfd : Nat) (f : EthFrame) : (c.rawEntry n port sfd f).formed := by
  grind [Chip.rawEntry, Chip.devWrite_formed, Chip.count_formed, Chip.setFilter_formed]

theorem Chip.openScan_formed {c : Chip} (h : c.formed) (k : Chip) (n : Nat) (w : Nat × Nat × Nat) : (c.openScan k n w).formed := by
  grind [Chip.openScan, Chip.devRead_formed, Chip.latch_formed, Chip.setFilter_formed]

theorem Chip.scanInto_formed {c : Chip} (h : c.formed) (n sfd : Nat) (payload : List Byte) (x : ScanWindow) :
    (c.scanInto n sfd payload x).formed := by
  grind [Chip.scanInto, Chip.devWrite_formed, Chip.setFilter_formed]

theorem Chip.scanPacket_formed {c : Chip} (h : c.formed) (n port sfd : Nat) (payload : List Byte) :
    (c.scanPacket n port sfd payload).formed := by
  grind [Chip.scanPacket, Chip.scanInto_formed, Chip.ethDrop_formed, Chip.count_formed, Chip.openScan_formed]

theorem Chip.gzeStop_formed {c : Chip} (h : c.formed) : c.gzeStop.formed := by
  grind [Chip.gzeStop, Chip.wr_formed, Chip.formed_iff]

theorem Chip.gzeRun_formed {c : Chip} (h : c.formed) : c.gzeRun.formed := by
  grind [Chip.gzeRun, Chip.gridFrom_formed, foldl_formed, Chip.formed_iff]

theorem Chip.scansCommitted_formed {c : Chip} (h : c.formed) (old : Chip) (t : Nat) (keys : List Nat) :
    (old.scansCommitted c t keys).formed := by
  grind [Chip.scansCommitted, Chip.openScan_formed, Chip.setFilter_formed, Chip.setSpi_formed, foldl_formed]

theorem Chip.trigCommitted_formed {c : Chip} (h : c.formed) (old : Chip) (t : Nat) : (old.trigCommitted c t).formed := by
  grind [Chip.trigCommitted, Chip.setTrig_formed, Chip.gridFrom_formed, foldl_formed]

/-! ## Batches -/

theorem Chip.batchStart_formed {c : Chip} (h : c.formed) (o : OpRun) : (c.batchStart o).1.formed := by
  grind [Chip.batchStart, Chip.devWrite_formed, Chip.devRead_formed, Chip.setQueue_formed, foldl_fst_formed]

theorem Chip.slotAug_formed {c : Chip} (h : c.formed) (d i : Nat) : (c.slotAug d i).1.formed := by
  grind [Chip.slotAug, Chip.devRead_formed]

theorem Chip.slotLook_formed {c : Chip} (h : c.formed) (o : OpRun) (i : Nat) : (c.slotLook o i).1.formed := by
  grind [Chip.slotLook, Chip.devRead_formed, Chip.slotAug_formed, Chip.invalidate_formed]

theorem Chip.slotBegin_formed {c : Chip} (h : c.formed) (o : OpRun) (i : Nat) : (c.slotBegin o i).1.formed := by
  grind [Chip.slotBegin, Chip.slotLook_formed]

theorem Chip.rowPut_formed {c : Chip} (h : c.formed) (d i y : Nat) (xs : List Nat) : (c.rowPut d i y xs).1.formed := by
  grind [Chip.rowPut, Chip.devWrite_formed, foldl_fst_formed]

theorem Chip.slotEnd_formed {c : Chip} (h : c.formed) (d i : Nat) (r : SlotRun) : (c.slotEnd d i r).1.formed := by
  grind [Chip.slotEnd, Chip.devWrite_formed, Chip.muslinWrite_formed]

theorem Chip.batchStep_formed {c : Chip} (h : c.formed) (o : OpRun) : (c.batchStep o).1.formed := by
  grind [Chip.batchStep, Chip.slotBegin_formed, Chip.rowPut_formed, Chip.slotEnd_formed]

theorem Chip.batchSteps_formed {c : Chip} (h : c.formed) (o : OpRun) (fuel : Nat) : (c.batchSteps o fuel).1.formed := by
  induction fuel generalizing c o with
  | zero => exact h
  | succ fuel ih => grind [Chip.batchSteps, Chip.batchStep_formed]

/-! ## Copies -/

theorem Chip.copyRead_formed {c : Chip} (h : c.formed) (a n : Nat) : (c.copyRead a n).1.formed := by
  grind [Chip.copyRead, Chip.devRead_formed]

theorem Chip.copyWrite_formed {c : Chip} (h : c.formed) (a : Nat) (bs : List Byte) : (c.copyWrite a bs).1.formed := by
  grind [Chip.copyWrite, Chip.devWrite_formed, Memory.wf_write, Chip.formed_iff]

theorem Chip.copyFail_formed {c : Chip} (h : c.formed) (o : OpRun) (st : Nat) : (c.copyFail o st).1.formed := by
  grind [Chip.copyFail, Chip.freshId_formed, Chip.invalidate_formed, foldl_formed, Memory.wf_write, Chip.formed_iff]

theorem Chip.copyRows_formed {c : Chip} (h : c.formed) (o : OpRun) : (c.copyRows o).1.formed := by
  grind [Chip.copyRows, Chip.copyRead_formed, Chip.copyWrite_formed, Chip.copyFail_formed, foldl_fst_formed]

theorem Chip.hostError_formed {c : Chip} (h : c.formed) (o : OpRun) (kind : Nat) : (c.hostError o kind).1.formed := by
  grind [Chip.hostError, Chip.latchFault_formed, Chip.wr_formed, Chip.copyFail_formed]

/-! ## Queues and doorbells -/

theorem Chip.qmgResult_formed {c : Chip} (h : c.formed) (n : Nat) : (c.qmgResult n).formed := by
  grind [Chip.qmgResult, Chip.wr_formed]

theorem Chip.queueCmd_formed {c : Chip} (h : c.formed) (f : Chip → Chip) (hf : ∀ c : Chip, c.formed → (f c).formed) :
    (c.queueCmd f).formed := by
  grind [Chip.queueCmd, Chip.qmgResult_formed]

theorem Chip.access_formed {c : Chip} (h : c.formed) (off : Nat) (i : Instr) (serve : Chip → Chip) (hserve : ∀ c : Chip, c.formed
    → (serve c).formed) (word : Nat) :
    (c.access off i serve word).formed := by
  grind [Chip.access, Chip.holdRequest_formed]

theorem Chip.enableQueue_formed {c : Chip} (h : c.formed) (n : Nat) : (c.enableQueue n).formed := by
  grind [Chip.enableQueue, Chip.muslinRead_formed, Chip.wr_formed, Chip.qmgResult_formed, Chip.setQueue_formed,
    Chip.formed_iff]

theorem Chip.disableQueue_formed {c : Chip} (h : c.formed) (n : Nat) : (c.disableQueue n).formed :=
  h.of_within (c.disableQueue_within n) rfl

theorem Chip.ring_formed {c : Chip} (h : c.formed) (n : Nat) (value : Word) : (c.ring n value).formed := by
  grind [Chip.ring, Chip.latch_formed, Chip.count_formed, Chip.setQueue_formed]

theorem Chip.doorbell_formed {c : Chip} (h : c.formed) (offset : Nat) (value : Word) : (c.doorbell offset value).formed := by
  grind [Chip.doorbell, Chip.holdRequest_formed, Chip.ring_formed]

theorem Chip.drainSpill_formed {c : Chip} (h : c.formed) (n fuel : Nat) : (c.drainSpill n fuel).formed := by
  induction fuel generalizing c with
  | zero => exact h
  | succ fuel ih =>
    unfold Chip.drainSpill
    split
    · grind [Chip.muslinRead_formed, Chip.setSpill_formed, Chip.loseFor_formed, Chip.ringWrite_formed]
    · exact h

/-! ## Jersey: lanes and pins -/

theorem Chip.setLanePv_formed {c : Chip} (h : c.formed) (n s v : Nat) : (c.setLanePv n s v).formed := by
  grind [Chip.setLanePv, Chip.setEntry_formed]

theorem Chip.setLane_formed {c : Chip} (h : c.formed) (n : Nat) (f : JrsLane → JrsLane) : (c.setLane n f).formed :=
  ⟨h.groups, h.muslin, h.host⟩

theorem Chip.setPin_formed {c : Chip} (h : c.formed) (n : Nat) (f : PwmPin → PwmPin) : (c.setPin n f).formed :=
  ⟨h.groups, h.muslin, h.host⟩

theorem Chip.setLaneFault_formed {c : Chip} (h : c.formed) (n : Nat) (v : Bool) : (c.setLaneFault n v).formed := by
  grind [Chip.setLaneFault, Chip.wr_formed, Chip.setLanePv_formed]

theorem Chip.jrsSyncFlags_formed {c : Chip} (h : c.formed) (k : Nat) : (c.jrsSyncFlags k).formed := by
  grind [Chip.jrsSyncFlags, Chip.setLanePv_formed, foldl_formed]

theorem Chip.gwepoPut_formed {c : Chip} (h : c.formed) (off v : Nat) : (c.gwepoPut off v).formed := by
  grind [Chip.gwepoPut, Chip.setEntry_formed]

theorem Chip.laneWrites_formed {c : Chip} (h : c.formed) (n v : Nat) : (c.laneWrites n v).formed := by
  grind [Chip.laneWrites, Chip.gwepoPut_formed, Chip.setLanePv_formed]

theorem Chip.pinIdle_formed {c : Chip} (h : c.formed) (pin : Nat) : (c.pinIdle pin).formed := by
  grind [Chip.pinIdle, Chip.setPin_formed]

theorem Chip.laneStops_formed {c : Chip} (h : c.formed) (n : Nat) : (c.laneStops n).formed := by
  grind [Chip.laneStops, Chip.pinIdle_formed, Chip.laneWrites_formed]

theorem Chip.jrsSetpoints_formed {c : Chip} (h : c.formed) (t : Nat) : (c.jrsSetpoints t).formed := by
  grind [Chip.jrsSetpoints, Chip.setLane_formed, Chip.setLanePv_formed, Chip.count_formed, foldl_formed]

theorem Chip.jrsCommitted_formed {c : Chip} (h : c.formed) (old : Chip) (t : Nat) (written : List Nat) :
    (old.jrsCommitted c t written).formed := by
  grind [Chip.jrsCommitted, Chip.gridFrom_formed, Chip.pinIdle_formed, Chip.setLaneFault_formed, Chip.setLane_formed,
    Chip.setLanePv_formed, Chip.gwepoPut_formed, Chip.setEntry_formed, Chip.wr_formed, foldl_formed]

theorem Chip.jerseyStart_formed {c : Chip} (h : c.formed) : c.jerseyStart.formed := by
  grind [Chip.jerseyStart, Chip.wr_formed, Chip.gridFrom_formed, foldl_formed]

theorem Chip.jerseyStop_formed {c : Chip} (h : c.formed) : c.jerseyStop.formed := by
  grind [Chip.jerseyStop, Chip.laneStops_formed, Chip.wr_formed, foldl_formed]

/-! ## Timekeeping -/

theorem Chip.waitDone_formed {c : Chip} (h : c.formed) (id i : Nat) : (c.waitDone id i).formed := by
  grind [Chip.waitDone, Chip.settle_formed, Chip.finishDesc_formed]

theorem Chip.waitsPassed_formed {c : Chip} (h : c.formed) (upTo : Nat) : (c.waitsPassed upTo).formed := by
  grind [Chip.waitsPassed, Chip.waitDone_formed, foldl_formed]

theorem Chip.stepTo_formed {c : Chip} (h : c.formed) (b : Nat) : (c.stepTo b).formed := by
  grind [Chip.stepTo, Chip.count_formed, Chip.setGrid_formed, Chip.waitsPassed_formed, Chip.raise_formed, Chip.latch_formed,
    foldl_formed, Chip.formed_iff]

theorem Chip.stepBy_formed {c : Chip} (h : c.formed) (ns : Int) {x : Chip} (hx : c.stepBy ns = some x) : x.formed := by
  grind [Chip.stepBy, Chip.stepTo_formed]

theorem Chip.setTkuState_formed {c : Chip} (h : c.formed) (v : Nat) : (c.setTkuState v).formed := by
  grind [Chip.setTkuState, Chip.wr_formed]

theorem Chip.tkuDone_formed {c : Chip} (h : c.formed) (op : Nat) (force : Bool) (n : Nat) : (c.tkuDone op force n).formed := by
  grind [Chip.tkuDone, Chip.journalService_formed, Chip.wr_formed]

theorem Chip.wr64_formed {c : Chip} (h : c.formed) (lo hi : Field) (v : Int) : (c.wr64 lo hi v).formed := by
  grind [Chip.wr64, Chip.wr_formed]

theorem Chip.setRate_formed {c : Chip} (h : c.formed) (v : Int) : (c.setRate v).formed := by
  grind [Chip.setRate, Chip.wr_formed]

theorem Chip.offsetIn_formed {c : Chip} (h : c.formed) (o : Int) (d : Num) (stale : Bool) : (c.offsetIn o d stale).formed := by
  have htku : ∀ {c : Chip}, c.formed → ∀ t : Tku, ({ c with tku := t } : Chip).formed := fun h _ => ⟨h.groups, h.muslin, h.host⟩
  have hjump : ∀ {c : Chip}, c.formed → (((c.latch R.TKU_STATUS_JUMP).count R.TKU_JUMP_CNT_COUNT).raise 14).formed :=
    fun h => Chip.raise_formed (Chip.count_formed (Chip.latch_formed h _ _) _ _ _) _
  unfold Chip.offsetIn
  dsimp only
  split
  · exact h
  · have h₁ := htku h { c.tku with offsetAt := c.unstepped c.now }
    have h₂ := Chip.wr64_formed (Chip.setTkuState_formed h₁ 2) R.TKU_LAST_OFFSET_LO R.TKU_LAST_OFFSET_HI o
    split
    · exact Chip.count_formed h₁ _ _ _
    · split
      · split
        · exact Chip.setTkuState_formed (htku h₁ _) _
        · split
          · next hs => exact Chip.setTkuState_formed (htku (Chip.stepBy_formed h₁ _ hs) _) _
          · exact hjump h₁
      · split
        · exact hjump (Chip.setTkuState_formed (Chip.wr64_formed h₁ _ _ _) _)
        · split
          · exact Chip.setRate_formed (htku h₂ _) _
          · exact h₂

theorem Chip.tkuCommitted_formed {c : Chip} (h : c.formed) (old : Chip) (t : Nat) : (old.tkuCommitted c t).formed := by
  grind [Chip.tkuCommitted, Chip.gridFrom_formed, Chip.setTkuState_formed, Chip.wr_formed]

theorem Chip.txtsAccept_formed {c : Chip} (h : c.formed) (id : Nat) : (c.txtsAccept id).formed :=
  ⟨h.groups, h.muslin, h.host⟩

/-! ## Tweed: calibration, gathers and attention -/

theorem Chip.readCal_formed {c : Chip} (h : c.formed) : c.readCal.1.formed := by
  grind [Chip.readCal, Chip.devRead_formed]

theorem Chip.loadCal_formed {c : Chip} (h : c.formed) : c.loadCal.1.formed := by
  grind [Chip.loadCal, Chip.readCal_formed, Chip.wr_formed, Chip.formed_iff]

theorem Chip.clearReady_formed {c : Chip} (h : c.formed) (s buf : Nat) : (c.clearReady s buf).1.formed := by
  grind [Chip.clearReady, Chip.muslinWrite_formed]

theorem Chip.lateSample_formed {c : Chip} (h : c.formed) (f : FuseRun) (d s kind epoch buf : Nat) :
    (c.lateSample f d s kind epoch buf).formed := by
  grind [Chip.lateSample, Chip.latch_formed, Chip.count_formed, Chip.produce_formed]

theorem Chip.dropRecord_formed {c : Chip} (h : c.formed) (d s : Nat) (f : FuseRun) (kind epoch buf : Nat) :
    (c.dropRecord d s f kind epoch buf).1.formed := by
  grind [Chip.dropRecord, Chip.clearReady_formed, Chip.lateSample_formed]

theorem Chip.dropOwed_formed {c : Chip} (h : c.formed) (d s : Nat) (f : FuseRun) : (c.dropOwed d s f).1.formed := by
  grind [Chip.dropOwed, Chip.devRead_formed, Chip.dropRecord_formed, foldl_fst_formed, Chip.formed_iff]

/-- One turn of the walk through the records of a sensor, as its definition gives it. -/
theorem Chip.gatherWalk_succ (c : Chip) (d s : Nat) (f : FuseRun) (fuel : Nat) :
    c.gatherWalk d s f (fuel + 1) =
      (let n := max 1 (c.sens s 7)
      let buf := nth c.twd.ringNext s 0 % n
      let r := c.devRead (c.sens s 9 + 64 * buf) 64
      if r.2.1 != 0 then (r.1, f, r.2.1)
      else
        let rec_ := leNat r.2.2
        let ep := bits rec_ 32 32
        let first := ep == f.epoch && ep != 0xFFFFFFFF && !f.used.any (fun u => u.1 == s)
        if !rec_.testBit 224 || (ep != 0xFFFFFFFF && decide (0 < epochDiff ep f.epoch)) ||
            (first && decide (f.epochTime + (fusePar d).cutoff ≤ c.readyTime s buf)) then (r.1, f, St.OK)
        else
          let twd := { r.1.twd with ringNext := modifyNth r.1.twd.ringNext s (fun _ => (buf + 1) % n) }
          if first then
            Chip.gatherWalk { r.1 with twd := { twd with owed := (s, buf) :: twd.owed.filter (· != (s, buf)) } } d s
              { f with used := f.used ++ [(s, buf, bits rec_ 320 32)] } fuel
          else
            let kind := if ep = 0xFFFFFFFF then 2 else if ep = f.epoch then 1 else 0
            let w := ({ r.1 with twd := twd } : Chip).dropRecord d s f kind ep buf
            if w.2.2 != 0 then w else Chip.gatherWalk w.1 d s w.2.1 fuel) := rfl

theorem Chip.gatherWalk_formed {c : Chip} (h : c.formed) (d s : Nat) (f : FuseRun) (fuel : Nat) :
    (c.gatherWalk d s f fuel).1.formed := by
  induction fuel generalizing c f with
  | zero => exact h
  | succ fuel ih =>
    rw [Chip.gatherWalk_succ]
    grind [Chip.devRead_formed, Chip.dropRecord_formed, Chip.formed_iff]

theorem Chip.gather_formed {c : Chip} (h : c.formed) (d : Nat) (f : FuseRun) : (c.gather d f).1.formed := by
  grind [Chip.gather, Chip.dropOwed_formed, Chip.gatherWalk_formed, foldl_fst_formed]

theorem Chip.rigPoints_formed {c : Chip} (h : c.formed) (f : FuseRun) (s lo k : Nat) : (c.rigPoints f s lo k).1.formed := by
  grind [Chip.rigPoints, Chip.devRead_formed]

theorem Chip.depthPass_formed {c : Chip} (h : c.formed) (d : Nat) (f : FuseRun) (j : Nat) : (c.depthPass d f j).1.formed := by
  grind [Chip.depthPass, Chip.rigPoints_formed]

theorem Chip.putElems_formed {c : Chip} (h : c.formed) (o : OpRun) (src a base : Nat) (xs : List Num) :
    (c.putElems o src a base xs).1.formed := by
  grind [Chip.putElems, Chip.devWrite_formed]

theorem Chip.attachPoint_formed {c : Chip} (h : c.formed) (o : OpRun) (f : FuseRun) (i : Nat) (p : List Num) :
    (c.attachPoint o f i p).1.formed := by
  grind [Chip.attachPoint, Chip.devWrite_formed, Chip.putElems_formed, Chip.devRead_formed]

theorem Chip.attachPass_formed {c : Chip} (h : c.formed) (o : OpRun) (f : FuseRun) (j : Nat) : (c.attachPass o f j).1.formed := by
  grind [Chip.attachPass, Chip.rigPoints_formed, Chip.attachPoint_formed, foldl_fst_formed]

theorem Chip.binPass_formed {c : Chip} (h : c.formed) (f : FuseRun) (s j : Nat) : (c.binPass f s j).1.formed := by
  grind [Chip.binPass, Chip.rigPoints_formed]

theorem Chip.evidence_formed {c : Chip} (h : c.formed) (d : Nat) (f : FuseRun) (k : Nat) : (c.evidence d f k).1.formed := by
  grind [Chip.evidence, Chip.devRead_formed, foldl_fst_formed]

theorem Chip.putCell_formed {c : Chip} (h : c.formed) (o : OpRun) (f : FuseRun) (k : Nat) : (c.putCell o f k).1.formed := by
  grind [Chip.putCell, Chip.evidence_formed, Chip.putElems_formed, Chip.devWrite_formed, Chip.count_formed]

theorem Chip.gridRow_formed {c : Chip} (h : c.formed) (o : OpRun) (f : FuseRun) (r : Nat) : (c.gridRow o f r).1.formed := by
  grind [Chip.gridRow, Chip.putCell_formed, foldl_fst_formed]

/-! ## Tracks -/

theorem Chip.detections_formed {c : Chip} (h : c.formed) (f : FuseRun) (s : Nat) : (c.detections f s).1.formed := by
  grind [Chip.detections, Chip.devRead_formed]

theorem Chip.readTracks_formed {c : Chip} (h : c.formed) : c.readTracks.1.formed := by
  grind [Chip.readTracks, Chip.devRead_formed]

theorem Chip.writeTracks_formed {c : Chip} (h : c.formed) (ts : List (Track × Nat)) : (c.writeTracks ts).1.formed := by
  grind [Chip.writeTracks, Chip.devWrite_formed, foldl_fst_formed]

theorem Chip.showLive_formed {c : Chip} (h : c.formed) (t : List Track) : (c.showLive t).formed := by
  grind [Chip.showLive, Chip.wr_formed]

theorem Chip.putRecords_formed {c : Chip} (h : c.formed) (a : Nat) (rs : List Nat) : (c.putRecords a rs).1.formed := by
  grind [Chip.putRecords, Chip.devWrite_formed]

theorem Chip.setTLast_formed {c : Chip} (h : c.formed) (t : Nat) : (c.setTLast t).formed := by
  grind [Chip.setTLast, Chip.wr_formed]

theorem Chip.tornTable_formed {c : Chip} (h : c.formed) : c.tornTable.formed := by
  grind [Chip.tornTable, Chip.wr_formed]

theorem Chip.tracksOf_formed {c : Chip} (h : c.formed) (f : FuseRun) : (c.tracksOf f).1.formed := by
  grind [Chip.tracksOf, Chip.readTracks_formed]

theorem Chip.sensorStep_formed {c : Chip} (h : c.formed) (d : Nat) (f : FuseRun) (s : Nat) : (c.sensorStep d f s).1.formed := by
  grind [Chip.sensorStep, Chip.detections_formed, Chip.putRecords_formed, Chip.tracksOf_formed, Chip.count_formed,
    Chip.latch_formed, Chip.formed_iff]

theorem Chip.liveStep_formed {c : Chip} (h : c.formed) (d : Nat) (f : FuseRun) (i : Nat) : (c.liveStep d f i).1.formed := by
  grind [Chip.liveStep, Chip.tracksOf_formed, Chip.writeTracks_formed, Chip.count_formed, Chip.putRecords_formed,
    Chip.showLive_formed]

theorem Chip.setRun_formed {c : Chip} (h : c.formed) (o : OpRun) (f : Option FuseRun) : (c.setRun o f).formed :=
  ⟨h.groups, h.muslin, h.host⟩

theorem Chip.fusePiece_formed {c : Chip} (h : c.formed) (o : OpRun) (f : FuseRun) (step : FuseStep) :
    (c.fusePiece o f step).1.formed := by
  cases step with
  | depth j => exact Chip.depthPass_formed h _ _ _
  | attach j => exact Chip.attachPass_formed h _ _ _
  | bin s j => exact Chip.binPass_formed h _ _ _
  | row r => exact Chip.gridRow_formed h _ _ _
  | associate s => exact Chip.sensorStep_formed h _ _ _
  | live i => exact Chip.liveStep_formed h _ _ _

theorem Chip.fusePieces_formed {c : Chip} (h : c.formed) (o : OpRun) (f : FuseRun) (fuel : Nat) :
    (c.fusePieces o f fuel).1.formed := by
  induction fuel generalizing c o f with
  | zero => exact h
  | succ fuel ih => grind [Chip.fusePieces, Chip.fusePiece_formed, Chip.tornTable_formed]

theorem Chip.fuseFails_formed {c : Chip} (h : c.formed) (o : OpRun) (f : FuseRun) (st : Nat) : (c.fuseFails o f st).1.formed := by
  grind [Chip.fuseFails, Chip.setRun_formed, Chip.invalidate_formed]

theorem Chip.fuseStart_formed {c : Chip} (h : c.formed) (o : OpRun) : (c.fuseStart o).1.formed := by
  grind [Chip.fuseStart, Chip.loadCal_formed, Chip.wr_formed, Chip.count_formed, Chip.gather_formed, Chip.fuseFails_formed,
    Chip.formed_iff]

theorem Chip.fuseEnd_formed {c : Chip} (h : c.formed) (o : OpRun) (f : FuseRun) : (c.fuseEnd o f).1.formed := by
  grind [Chip.fuseEnd, Chip.setTLast_formed, Chip.devWrite_formed, Chip.fuseFails_formed, Chip.clearReady_formed,
    Chip.under_formed, Chip.setRun_formed, foldl_fst_formed, Chip.formed_iff]

theorem Chip.fuseRuns_formed {c : Chip} (h : c.formed) (o : OpRun) (f : FuseRun) (units : Nat) :
    (c.fuseRuns o f units).1.formed := by
  grind [Chip.fuseRuns, Chip.fusePieces_formed, Chip.under_formed, Chip.fuseFails_formed, Chip.fuseEnd_formed,
    Chip.setRun_formed, Chip.formed_iff]

theorem Chip.runImport_formed {c : Chip} (h : c.formed) (o : OpRun) : (c.runImport o).1.formed := by
  grind [Chip.runImport, Chip.devRead_formed, Chip.tornTable_formed, Chip.readTracks_formed, Chip.writeTracks_formed,
    Chip.devWrite_formed, Chip.showLive_formed, Chip.wr_formed, Chip.formed_iff]

theorem Chip.trackCmd_formed {c : Chip} (h : c.formed) (id op : Nat) : (c.trackCmd id op).formed := by
  grind [Chip.trackCmd, Chip.wr_formed, Chip.devRead_formed, Chip.tornTable_formed, Chip.count_formed, Chip.devWrite_formed,
    Chip.formed_iff]

theorem Chip.trackRequest_formed {c : Chip} (h : c.formed) (id op : Nat) : (c.trackRequest id op).formed := by
  grind [Chip.trackRequest, Chip.wr_formed, Chip.trackCmd_formed, Chip.formed_iff]

theorem Chip.twdCommitted_formed {c : Chip} (h : c.formed) (old : Chip) (written : List Nat) :
    (old.twdCommitted c written).formed := by
  grind [Chip.twdCommitted, Chip.wr_formed, Chip.formed_iff]

/-! ## Tulle: worlds and their edits -/

theorem Chip.checkTable_formed {c : Chip} (h : c.formed) : c.checkTable.1.formed := by
  grind [Chip.checkTable, Chip.devRead_formed]

theorem Chip.tulEnable_formed {c : Chip} (h : c.formed) : c.tulEnable.formed := by
  grind [Chip.tulEnable, Chip.checkTable_formed, Chip.wr_formed, Chip.formed_iff]

theorem Chip.nextWorld_formed {c : Chip} (h : c.formed) : c.nextWorld.formed := by
  grind [Chip.nextWorld, Chip.count_formed, Chip.formed_iff]

theorem Chip.writeOwn_formed {c : Chip} (h : c.formed) (off n : Nat) : (c.writeOwn off n).1.formed := by
  grind [Chip.writeOwn, Chip.freshId_formed, Chip.devWrite_formed]

theorem Chip.tulDisable_formed {c : Chip} (h : c.formed) : c.tulDisable.formed := by
  grind [Chip.tulDisable, Chip.wr_formed, Chip.formed_iff]

theorem Chip.applyEdit_formed {c : Chip} (h : c.formed) (e : Edit) : (c.applyEdit e).1.formed := by
  grind [Chip.applyEdit, Chip.devRead_formed, Chip.devWrite_formed, foldl_fst_formed]

theorem Chip.editFails_formed {c : Chip} (h : c.formed) (o : OpRun) (st : Nat) : (c.editFails o st).1.formed := by
  grind [Chip.editFails, Chip.wr_formed]

theorem Chip.runEdit_formed {c : Chip} (h : c.formed) (o : OpRun) : (c.runEdit o).1.formed := by
  unfold Chip.runEdit
  extract_lets +onlyGivenNames n
  split
  · exact h
  · extract_lets +onlyGivenNames r c₁ es bytes after a moved x c₂ sel
    have h₁ : c₁.formed := Chip.devRead_formed h _ _
    have ha : a.1.formed := by
      refine foldl_fst_formed (fun s e hs => ?_) _ h₁
      split
      · exact hs
      · exact Chip.applyEdit_formed hs _
    have hx : x.1.formed := by
      show (if moved then _ else a).1.formed
      split
      · exact Chip.writeOwn_formed ha _ _
      · exact ha
    have h₂ : c₂.formed := Chip.wr_formed hx _ _ _
    have h₃ : ({ c₂ with tul := { c₂.tul with active := sel } } : Chip).formed := ⟨h₂.groups, h₂.muslin, h₂.host⟩
    split
    · exact h₁
    · split
      · exact h₁
      · split
        · exact Chip.latch_formed h₁ _ _
        · split
          · exact Chip.editFails_formed ha _ _
          · split
            · exact Chip.editFails_formed hx _ _
            · refine Chip.count_formed ?_ _ _ _
              split
              · exact Chip.nextWorld_formed h₃
              · exact h₃

/-! ## The dictionary -/

theorem Chip.putOdxData_formed {c : Chip} (h : c.formed) (bs : List Byte) : (c.putOdxData bs).formed := by
  grind [Chip.putOdxData, Chip.wr_formed, foldl_formed]

theorem Chip.answer_formed {c : Chip} (h : c.formed) (o : Origin) (r : OdxReply) : (c.answer o r).formed := by
  cases o <;> grind [Chip.answer, Chip.emit_formed, Chip.wr_formed, Chip.putOdxData_formed]

theorem Chip.odxRefuse_formed {c : Chip} (h : c.formed) (st hint : Nat) : (c.odxRefuse st hint).1.formed := by
  grind [Chip.odxRefuse, Chip.count_formed]

theorem Chip.odxStatus_formed {c : Chip} (h : c.formed) : c.odxStatus.formed :=
  h.of_within (c.odxStatus_within) rfl

theorem Chip.setSession_formed {c : Chip} (h : c.formed) (n : Nat) (f : Session → Session) : (c.setSession n f).formed :=
  h.of_within (c.setSession_within n f) rfl

theorem Chip.setImplicit_formed {c : Chip} (h : c.formed) (l : List Implicit) : (c.setImplicit l).formed := by
  grind [Chip.setImplicit, Chip.odxStatus_formed, Chip.formed_iff]

theorem Chip.freeSession_formed {c : Chip} (h : c.formed) (n : Nat) : (c.freeSession n).formed :=
  h.of_within (c.freeSession_within n) rfl

theorem Chip.overlay_formed {c : Chip} (h : c.formed) (t : Table Nat) : (c.overlay t).formed := by
  grind [Chip.overlay, Chip.setEntry_formed, foldl_formed]

/-! ## Field networks -/

theorem Chip.modFld_formed {c : Chip} (h : c.formed) (f : Fld → Fld) : (c.modFld f).formed :=
  ⟨h.groups, h.muslin, h.host⟩

theorem Chip.setNode_formed {c : Chip} (h : c.formed) (d : Nat) (f : GwepoNode → GwepoNode) : (c.setNode d f).formed := by
  grind [Chip.setNode, Chip.modFld_formed]

theorem Chip.setPortBit_formed {c : Chip} (h : c.formed) (f : Field) (n : Nat) (v : Bool) : (c.setPortBit f n v).formed := by
  grind [Chip.setPortBit, Chip.wr_formed]

theorem Chip.sendFrame_formed {c : Chip} (h : c.formed) (n : Nat) (bytes : List Byte) : (c.sendFrame n bytes).formed := by
  grind [Chip.sendFrame, Chip.emit_formed, Chip.count_formed]

theorem Chip.meterPass_formed {c : Chip} (h : c.formed) (n m bytes : Nat) : (c.meterPass n m bytes).1.formed := by
  grind [Chip.meterPass, Chip.modFld_formed]

theorem Chip.streamFilter_formed {c : Chip} (h : c.formed) (n : Nat) (p : FrameParts) (bytes cls : Nat) :
    (c.streamFilter n p bytes cls).1.formed := by
  grind [Chip.streamFilter, Chip.count_formed, Chip.meterPass_formed]

theorem Chip.readTxHead_formed {c : Chip} (h : c.formed) (n : Nat) : (c.readTxHead n).formed := by
  grind [Chip.readTxHead, Chip.devRead_formed, Chip.modFld_formed, Chip.txtsAccept_formed]

theorem Chip.hostTxProd_formed {c : Chip} (h : c.formed) (n value : Nat) : (c.hostTxProd n value).formed := by
  unfold Chip.hostTxProd
  split
  · exact h
  · exact Chip.readTxHead_formed (Chip.wr_formed h _ _ _) _

theorem Chip.hostRxProd_formed {c : Chip} (h : c.formed) (n value : Nat) : (c.hostRxProd n value).formed := by
  unfold Chip.hostRxProd
  split
  · exact h
  · exact Chip.wr_formed h _ _ _

theorem Chip.ringCfg_formed {c : Chip} (h : c.formed) (tx : Bool) (n value : Nat) : (c.ringCfg tx n value).formed := by
  grind [Chip.ringCfg, Chip.wr_formed, Chip.modFld_formed]

theorem Chip.hostReceive_formed {c : Chip} (h : c.formed) (n : Nat) (frame : List Byte) (cls : Nat) :
    (c.hostReceive n frame cls).formed := by
  grind [Chip.hostReceive, Chip.latch_formed, Chip.count_formed, Chip.devRead_formed, Chip.devWrite_formed]

theorem Chip.copyVerdict_formed {c : Chip} (h : c.formed) : c.copyVerdict.formed := by
  grind [Chip.copyVerdict, Chip.setEntry_formed]

theorem Chip.gwepoCycle_formed {c : Chip} (h : c.formed) (t : Nat) : (c.gwepoCycle t).formed := by
  grind [Chip.gwepoCycle, Chip.copyVerdict_formed, Chip.wr_formed, Chip.modFld_formed]

theorem Chip.setSdo_formed {c : Chip} (h : c.formed) (k : Nat) (t : Option SdoTransfer) : (c.setSdo k t).formed := by
  grind [Chip.setSdo, Chip.modFld_formed]

theorem Chip.fldRefresh_formed {c : Chip} (h : c.formed) : c.fldRefresh.formed := by
  grind [Chip.fldRefresh, Chip.setSdo_formed, Chip.wr_formed, Chip.modFld_formed, Chip.setNode_formed, Chip.setEntry_formed,
    Chip.setPortBit_formed, foldl_formed]

theorem Chip.fldCommitted_formed {c : Chip} (h : c.formed) (old : Chip) : (old.fldCommitted c).formed := by
  grind [Chip.fldCommitted, Chip.modFld_formed, Chip.setPortBit_formed, Chip.fldRefresh_formed, foldl_formed]

/-! ## Gingham -/

theorem Chip.setGng_formed {c : Chip} (h : c.formed) (f : Gng → Gng) : (c.setGng f).formed :=
  ⟨h.groups, h.muslin, h.host⟩

theorem Chip.setNet_formed {c : Chip} (h : c.formed) (n : Nat) (f : GngNet → GngNet) : (c.setNet n f).formed := by
  grind [Chip.setNet, Chip.setGng_formed]

theorem Chip.setFrame_formed {c : Chip} (h : c.formed) (f : GngFrame) : (c.setFrame f).formed := by
  grind [Chip.setFrame, Chip.setGng_formed]

theorem Chip.gngLog_formed {c : Chip} (h : c.formed) (l : GngLog) : (c.gngLog l).formed := by
  grind [Chip.gngLog, Chip.setGng_formed]

theorem Chip.showNet_formed {c : Chip} (h : c.formed) (n : Nat) : (c.showNet n).formed := by
  grind [Chip.showNet, Chip.wr_formed]

theorem Chip.recompute_formed {c : Chip} (h : c.formed) : c.recompute.formed := by
  grind [Chip.recompute, Chip.wr_formed, Chip.setEntry_formed, Chip.setGng_formed]

theorem Chip.gngEnd_formed {c : Chip} (h : c.formed) : c.gngEnd.formed := by
  grind [Chip.gngEnd, Chip.setGng_formed, Chip.recompute_formed, Chip.produce_formed, Chip.showNet_formed, foldl_formed]

theorem Chip.formVerdict_formed {c : Chip} (h : c.formed) (f : GngFrame) (cause : Nat) (d : GngDiff) :
    (c.formVerdict f cause d).formed := by
  grind [Chip.formVerdict, Chip.setFrame_formed, Chip.wr_formed, Chip.setNet_formed, Chip.setEntry_formed, Chip.count_formed,
    Chip.setGng_formed, Chip.gngLog_formed]

theorem Chip.gngLatch_formed {c : Chip} (h : c.formed) (f : Field) (net k time : Nat) : (c.gngLatch f net k time).formed := by
  grind [Chip.gngLatch, Chip.wr_formed, Chip.gngLog_formed, Chip.raise_formed, Chip.setGng_formed]

theorem Chip.countDisagree_formed {c : Chip} (h : c.formed) (f : GngFrame) : (c.countDisagree f).formed := by
  grind [Chip.countDisagree, Chip.setNet_formed, Chip.count_formed, Chip.gngLatch_formed]

theorem Chip.bandTable_formed {c : Chip} (h : c.formed) (off size : Nat) : (c.bandTable off size).1.formed := by
  grind [Chip.bandTable, Chip.devRead_formed]

theorem Chip.compareAreas_formed {c : Chip} (h : c.formed) (bands : List Nat) (first second : Nat) (exact : Bool) :
    (c.compareAreas bands first second exact).1.formed := by
  grind [Chip.compareAreas, Chip.touchReads_formed, foldl_fst_formed]

theorem Chip.selfTest_formed {c : Chip} (h : c.formed) (wrong : Bool) (net k time : Nat) :
    (c.selfTest wrong net k time).formed := by
  grind [Chip.selfTest, Chip.gngLatch_formed]

theorem Chip.compareFrame_formed {c : Chip} (h : c.formed) (f : GngFrame) (wrong : Bool) : (c.compareFrame f wrong).formed := by
  grind [Chip.compareFrame, Chip.selfTest_formed, Chip.compareAreas_formed, Chip.countDisagree_formed, Chip.setFrame_formed,
    Chip.formVerdict_formed]

theorem Chip.loseMirror_formed {c : Chip} (h : c.formed) : c.loseMirror.formed := by
  grind [Chip.loseMirror, Chip.setFrame_formed, Chip.formVerdict_formed, Chip.gngLatch_formed, foldl_formed]

theorem Chip.missGolden_formed {c : Chip} (h : c.formed) (net k time : Nat) : (c.missGolden net k time).formed := by
  grind [Chip.missGolden, Chip.setNet_formed, Chip.count_formed, Chip.gngLog_formed, Chip.gngLatch_formed]

theorem Chip.dropGolden_formed {c : Chip} (h : c.formed) (net : Nat) : (c.dropGolden net).formed := by
  grind [Chip.dropGolden, Chip.setGng_formed, Chip.settle_formed, Chip.setWeave_formed]

theorem Chip.compareGolden_formed {c : Chip} (h : c.formed) (net : Nat) (g : GngGolden) (wrong : Bool) :
    (c.compareGolden net g wrong).formed := by
  grind [Chip.compareGolden, Chip.selfTest_formed, Chip.compareAreas_formed, Chip.setGng_formed, Chip.gngLog_formed,
    Chip.gngLatch_formed]

theorem Chip.goldenInput_formed {c : Chip} (h : c.formed) (g : GngGolden) : (c.goldenInput g).formed := by
  grind [Chip.goldenInput, Chip.devRead_formed, Chip.devWrite_formed]

theorem Chip.grantGolden_formed {c : Chip} (h : c.formed) (net : Nat) (g : GngGolden) : (c.grantGolden net g).formed := by
  grind [Chip.grantGolden, Chip.goldenInput_formed, Chip.readHeader_formed, Chip.addWeave_formed, Chip.setGng_formed]

theorem Chip.followed_formed {c : Chip} (h : c.formed) {d : Chip} (hd : d.formed) : (c.followed d).formed :=
  ⟨hd.groups, hd.muslin, h.host⟩

theorem Chip.gngFollow_formed {c : Chip} (h : c.formed) (wrong : Bool) : (c.gngFollow wrong).formed := by
  grind [Chip.gngFollow, Chip.followed_formed, Chip.setGng_formed, Chip.loseMirror_formed, Chip.compareFrame_formed,
    Chip.compareGolden_formed, Chip.gngEnd_formed, foldl_formed]

theorem Chip.inputStage_formed {c : Chip} (h : c.formed) (f : GngFrame) : (c.inputStage f).1.formed := by
  grind [Chip.inputStage, Chip.devRead_formed, Chip.devWrite_formed, foldl_formed]

theorem Chip.frameLaunch_formed {c : Chip} (h : c.formed) (net time : Nat) (weave : Option (Nat × Nat)) :
    (c.frameLaunch net time weave).formed := by
  grind [Chip.frameLaunch, Chip.bandTable_formed, Chip.wr_formed, Chip.setNet_formed, Chip.setGng_formed,
    Chip.inputStage_formed, Chip.gngEnd_formed, Chip.formVerdict_formed]

theorem Chip.clearGngFaults_formed {c : Chip} (h : c.formed) (bits : BitVec 5) : (c.clearGngFaults bits).formed := by
  grind [Chip.clearGngFaults, Chip.setGng_formed, Chip.gngLog_formed, Chip.wr_formed, Chip.gngEnd_formed]

theorem Chip.gngCommitted_formed {c : Chip} (h : c.formed) (old : Chip) (t : Nat) : (old.gngCommitted c t).formed := by
  grind [Chip.gngCommitted, Chip.wr_formed, Chip.setNet_formed, Chip.setGng_formed, Chip.gridFrom_formed,
    Chip.gngFollow_formed, foldl_formed]

/-! ## Muslin: requests, retention, scrub and repair -/

theorem Chip.unitMeets_formed {c : Chip} (h : c.formed) (u st : Nat) : (c.unitMeets u st).formed := by
  grind [Chip.unitMeets, Chip.raise_formed, Chip.setOp_formed, Chip.streamMeets_formed]

theorem Chip.muslinCe_formed {c : Chip} (h : c.formed) (word : Nat) : (c.muslinCe word).formed := by
  grind [Chip.muslinCe, Chip.count_formed, Chip.formed_iff]

theorem Chip.applyFound_formed {c : Chip} (h : c.formed) (p : Nat × Bool) : (c.applyFound p).formed := by
  grind [Chip.applyFound, Chip.muslinCe_formed, Chip.formed_iff]

theorem Chip.findIn_formed {c : Chip} (h : c.formed) (off n : Nat) (found : List (Nat × Bool)) : (c.findIn off n found).formed := by
  grind [Chip.findIn, Chip.applyFound_formed, foldl_formed]

theorem Chip.linkErrors_formed {c : Chip} (h : c.formed) (off n : Nat) (net : List (Nat × Bool)) :
    (c.linkErrors off n net).formed :=
  ⟨h.groups, h.muslin, h.host⟩

theorem Chip.serveRead_formed {c : Chip} (h : c.formed) (off len unit : Nat) (found net : List (Nat × Bool)) :
    (c.serveRead off len unit found net).formed := by
  grind [Chip.serveRead, Chip.findIn_formed, Chip.muslinRead_formed, Chip.linkErrors_formed, Chip.unitMeets_formed,
    Chip.emit_formed]

theorem Chip.bankWrite_formed {c : Chip} (h : c.formed) (mode : WriteMode) (off : Nat) (data : List Byte) (net : List (Nat × Bool)) :
    (c.bankWrite mode off data net).1.formed := by
  grind [Chip.bankWrite, Chip.muslinWrite_formed, Chip.linkErrors_formed, foldl_fst_formed]

theorem Chip.serveWrite_formed {c : Chip} (h : c.formed) (mode : WriteMode) (off unit : Nat) (data : List Byte) (net : List (Nat ×
    Bool)) :
    (c.serveWrite mode off unit data net).formed := by
  grind [Chip.serveWrite, Chip.bankWrite_formed, Chip.unitMeets_formed]

theorem Chip.serveBar2Read_formed {c : Chip} (h : c.formed) (off len : Nat) (found net : List (Nat × Bool)) :
    (c.serveBar2Read off len found net).formed := by
  grind [Chip.serveBar2Read, Chip.emit_formed, Chip.latch_formed, Chip.muslinRead_formed, Chip.linkErrors_formed,
    Chip.findIn_formed, Chip.raise_formed]

theorem Chip.serveBar2Write_formed {c : Chip} (h : c.formed) (off : Nat) (data : List Byte) (net : List (Nat × Bool)) :
    (c.serveBar2Write off data net).formed := by
  grind [Chip.serveBar2Write, Chip.latch_formed, Chip.serveWrite_formed]

theorem Chip.perLine_formed {c : Chip} (h : c.formed) (off n : Nat) (request : Chip → Nat → Nat → Nat → Chip) (hrequest : ∀ (c :
    Chip) (off o n : Nat), c.formed → (request c off o n).formed) :
    (c.perLine off n request).formed := by
  grind [Chip.perLine, foldl_formed]

theorem Chip.writeCommand_formed {c : Chip} (h : c.formed) (mode : WriteMode) (addr unit : Nat) (data : List Byte) (net : List
    (Nat × Bool)) (again : Nat → List Byte → Instr) :
    (c.writeCommand mode addr unit data net again).formed := by
  grind [Chip.writeCommand, Chip.perLine_formed, Chip.access_formed, Chip.serveWrite_formed]

theorem Chip.atomic_formed {c : Chip} (h : c.formed) (mode : WriteMode) (mask : Word) (net : EccFinding) (word : Nat) :
    (c.atomic mode mask net word).formed := by
  grind [Chip.atomic, Chip.serveWrite_formed, Chip.wr_formed]

theorem Chip.scrubLines_formed {c : Chip} (h : c.formed) (gs : List Nat) (found : List (Nat × Bool)) :
    (c.scrubLines gs found).formed := by
  grind [Chip.scrubLines, Chip.applyFound_formed, Chip.muslinUe_formed, Chip.setGroup_formed, foldl_formed]

theorem Chip.enterRetention_formed {c : Chip} (h : c.formed) (g : Nat) : (c.enterRetention g).formed := by
  grind [Chip.enterRetention, Chip.setPhase_formed, Chip.setGroup_formed]

theorem Chip.serveHeld_formed {c : Chip} (h : c.formed) (i : Instr) (word : Nat) : (c.serveHeld i word).formed := by
  unfold Chip.serveHeld
  split
  · exact Chip.serveRead_formed h _ _ _ _ _
  · exact Chip.serveWrite_formed h _ _ _ _ _
  · exact Chip.serveWrite_formed h _ _ _ _ _
  · exact Chip.serveWrite_formed h _ _ _ _ _
  · exact Chip.serveBar2Read_formed h _ _ _ _
  · exact Chip.serveBar2Write_formed h _ _ _
  · exact Chip.atomic_formed h _ _ _ _
  · exact Chip.atomic_formed h _ _ _ _
  · exact Chip.doorbell_formed h _ _
  · exact Chip.enableQueue_formed h _
  · exact h

theorem Chip.groupServesHeld_formed {c : Chip} (h : c.formed) (g : Nat) : (c.groupServesHeld g).formed := by
  grind [Chip.groupServesHeld, Chip.setGroup_formed, Chip.setPhase_formed, Chip.serveHeld_formed, foldl_formed]

theorem Chip.logFlags_formed {c : Chip} (h : c.formed) : c.logFlags.formed := by
  grind [Chip.logFlags, Chip.wr_formed]

theorem Chip.degrade_formed {c : Chip} (h : c.formed) (kind location : Nat) : (c.degrade kind location).formed := by
  grind [Chip.degrade, Chip.wr_formed, Chip.logFlags_formed]

theorem Chip.columnDegraded_formed {c : Chip} (h : c.formed) (bank sub col : Nat) : (c.columnDegraded bank sub col).formed := by
  grind [Chip.columnDegraded, Chip.latch_formed, Chip.degrade_formed]

theorem Chip.startRepair_formed {c : Chip} (h : c.formed) (r : ColRepair) : (c.startRepair r).formed :=
  ⟨h.groups, h.muslin, h.host⟩

theorem Chip.repairColumn_formed {c : Chip} (h : c.formed) (p : Nat × Nat × Nat) : (c.repairColumn p).formed := by
  grind [Chip.repairColumn, Chip.columnDegraded_formed, Chip.startRepair_formed]

theorem Chip.repairResult_formed {c : Chip} (h : c.formed) (n : Nat) : (c.repairResult n).formed := by
  grind [Chip.repairResult, Chip.journalService_formed, Chip.wr_formed]

theorem Chip.logRepair_formed {c : Chip} (h : c.formed) (r : ColRepair) : (c.logRepair r).formed := by
  grind [Chip.logRepair, Chip.wr_formed, Chip.logFlags_formed, Chip.raise_formed, Chip.latch_formed, Chip.repairResult_formed]

theorem Chip.sweepReads_formed {c : Chip} (h : c.formed) (r : ColRepair) (found : List (Nat × Bool)) :
    (c.sweepReads r found).formed := by
  grind [Chip.sweepReads, Chip.applyFound_formed, Chip.count_formed, Chip.muslinUe_formed, foldl_formed]

theorem Chip.nextSweep_formed {c : Chip} (h : c.formed) (rs : List ColRepair) : (c.nextSweep rs).formed := by
  induction rs generalizing c with
  | nil => exact ⟨h.groups, h.muslin, h.host⟩
  | cons r rs ih =>
    unfold Chip.nextSweep
    split
    · refine ih (Chip.columnDegraded_formed ?_ _ _ _)
      exact ⟨h.groups, h.muslin, h.host⟩
    · exact ⟨h.groups, h.muslin, h.host⟩

theorem Chip.regionDone_formed {c : Chip} (h : c.formed) (r : Nat) : (c.regionDone r).formed := by
  grind [Chip.regionDone, Chip.count_formed, Chip.formed_iff]

theorem Chip.dueRegion_formed {c : Chip} (h : c.formed) : c.dueRegion.1.formed := by
  grind [Chip.dueRegion, Chip.count_formed, Chip.formed_iff]

/-! ## DRAM: requests, retirement and upkeep -/

theorem Chip.refreshCap_formed {c : Chip} (h : c.formed) : c.refreshCap.formed := by
  grind [Chip.refreshCap, Chip.wr_formed]

theorem Chip.refreshDrcBusy_formed {c : Chip} (h : c.formed) : c.refreshDrcBusy.formed := by
  grind [Chip.refreshDrcBusy, Chip.wr_formed]

theorem Chip.retireFrame_formed {c : Chip} (h : c.formed) (frame : Nat) : (c.retireFrame frame).formed := by
  grind [Chip.retireFrame, Chip.devRead_formed, Chip.devWrite_formed]

theorem Chip.retireDone_formed {c : Chip} (h : c.formed) (word n : Nat) : (c.retireDone word n).formed := by
  grind [Chip.retireDone, Chip.journalService_formed, Chip.wr_formed]

theorem Chip.startRetire_formed {c : Chip} (h : c.formed) (page n : Nat) (word : Option Nat) :
    (c.startRetire page n word).formed := by
  grind [Chip.startRetire, Chip.refreshDrcBusy_formed, Chip.formed_iff]

theorem Chip.dramCe_formed {c : Chip} (h : c.formed) (burst src : Nat) : (c.dramCe burst src).formed := by
  grind [Chip.dramCe, Chip.count_formed, Chip.wr_formed, Chip.raise_formed, Chip.startRetire_formed, Chip.formed_iff]

theorem Chip.spoilBurst_formed {c : Chip} (h : c.formed) (b : Nat) (errors : List (Nat × Byte)) :
    (c.spoilBurst b errors).formed :=
  ⟨h.groups, h.muslin, h.host⟩

theorem Chip.meetErrors_formed {c : Chip} (h : c.formed) (b burst src : Nat) (errors : List (Nat × Byte)) :
    (c.meetErrors b burst src errors).formed := by
  grind [Chip.meetErrors, Chip.spoilBurst_formed, Chip.dramCe_formed, Chip.formed_iff]

theorem Chip.endRetire_formed {c : Chip} (h : c.formed) (errors : List (Nat × Nat × Byte)) : (c.endRetire errors).formed := by
  grind [Chip.endRetire, Chip.meetErrors_formed, Chip.dramUe_formed, Chip.wr_formed, Chip.refreshDrcBusy_formed, foldl_formed,
    Chip.formed_iff]

theorem Chip.serveDramRead_formed {c : Chip} (h : c.formed) (off unit : Nat) (errors : List (Nat × Byte)) (net : List (Nat × Bool)) :
    (c.serveDramRead off unit errors net).formed := by
  grind [Chip.serveDramRead, Chip.unitMeets_formed, Chip.meetErrors_formed, Chip.linkErrors_formed, Chip.dramRead_formed,
    Chip.emit_formed]

theorem Chip.burstWrite_formed {c : Chip} (h : c.formed) (off : Nat) (data : List Byte) (errors : List (Nat × Byte)) (net : List
    (Nat × Bool)) :
    (c.burstWrite off data errors net).1.formed := by
  grind [Chip.burstWrite, Chip.meetErrors_formed, Chip.dramWrite_formed, foldl_fst_formed]

theorem Chip.serveDramWrite_formed {c : Chip} (h : c.formed) (off unit : Nat) (data : List Byte) (errors : List (Nat × Nat ×
    Byte)) (net : List (Nat × Bool)) :
    (c.serveDramWrite off unit data errors net).formed := by
  grind [Chip.serveDramWrite, Chip.burstWrite_formed, Chip.linkErrors_formed, Chip.unitMeets_formed, foldl_fst_formed]

theorem Chip.dramAccess_formed {c : Chip} (h : c.formed) (i : Instr) (serve : Chip → Chip) (hserve : ∀ c : Chip, c.formed → (serve
    c).formed) :
    (c.dramAccess i serve).formed := by
  grind [Chip.dramAccess, Chip.askDram_formed, Chip.formed_iff]

theorem Chip.serveDram_formed {c : Chip} (h : c.formed) (i : Instr) : (c.serveDram i).formed := by
  unfold Chip.serveDram
  split
  · exact Chip.serveDramRead_formed h _ _ _ _
  · exact Chip.serveDramWrite_formed h _ _ _ _ _
  · exact h

theorem Chip.openPorts_formed {c : Chip} (h : c.formed) : c.openPorts.formed := by
  grind [Chip.openPorts, Chip.dramAccess_formed, Chip.serveDram_formed, foldl_formed, Chip.formed_iff]

theorem Chip.loseDram_formed {c : Chip} (h : c.formed) : c.loseDram.formed :=
  h.of_within (c.loseDram_within) rfl

theorem Chip.clearRetired_formed {c : Chip} (h : c.formed) : c.clearRetired.formed := by
  grind [Chip.clearRetired, Chip.wr_formed, foldl_formed, Chip.formed_iff]

theorem Chip.pairDone_formed {c : Chip} (h : c.formed) (pair n : Nat) : (c.pairDone pair n).formed := by
  grind [Chip.pairDone, Chip.journalService_formed, Chip.wr_formed]

theorem Chip.endTraining_formed {c : Chip} (h : c.formed) (fail : Nat) : (c.endTraining fail).formed := by
  grind [Chip.endTraining, Chip.refreshCap_formed, Chip.wr_formed, Chip.formed_iff]

theorem Chip.enterSelfRefresh_formed {c : Chip} (h : c.formed) : c.enterSelfRefresh.formed := by
  grind [Chip.enterSelfRefresh, Chip.setDomainState_formed, Chip.wr_formed, Chip.formed_iff]

/-! ## Power states and saves -/

theorem Chip.setPwr_formed {c : Chip} (h : c.formed) (f : Pwr → Pwr) : (c.setPwr f).formed :=
  ⟨h.groups, h.muslin, h.host⟩

theorem Chip.pwrCommitted_formed {c : Chip} (h : c.formed) (old : Chip) (t : Nat) : (old.pwrCommitted c t).formed := by
  grind [Chip.pwrCommitted, Chip.setPwr_formed]

theorem Chip.atuSave_formed {c : Chip} (h : c.formed) : c.atuSave.formed := by
  grind [Chip.atuSave, Chip.freshId_formed, Chip.devWrite_formed]

theorem Chip.atuRestore_formed {c : Chip} (h : c.formed) : c.atuRestore.formed := by
  grind [Chip.atuRestore, Chip.devRead_formed, Chip.latchFault_formed, Chip.setFifo_formed, Chip.seqBit_formed, foldl_formed]

theorem Chip.switchOff_formed {c : Chip} (h : c.formed) (d : Nat) : (c.switchOff d).formed := by
  refine Chip.setDomainState_formed ?_ _ _
  split
  · extract_lets +onlyGivenNames c₁
    have h₁ : c₁.formed := foldl_formed (fun c n h => Chip.wr_formed (Chip.wr_formed h _ _ _) _ _ _) _ h
    exact Chip.countPins_formed (Chip.clearCells_formed ⟨h₁.groups, h₁.muslin, h₁.host⟩)
  · exact Chip.atuSave_formed h
  · exact ⟨h.groups, h.muslin, h.host⟩
  · exact ⟨h.groups, h.muslin, h.host⟩
  · exact h

theorem Chip.startWake_formed {c : Chip} (h : c.formed) (d : Nat) : (c.startWake d).formed := by
  grind [Chip.startWake, Chip.setPwr_formed]

theorem Chip.applyState_formed {c : Chip} (h : c.formed) (d : Nat) : (c.applyState d).formed := by
  grind [Chip.applyState, Chip.startWake_formed, Chip.switchOff_formed, Chip.setDomainState_formed]

theorem Chip.restDram_formed {c : Chip} (h : c.formed) : c.restDram.formed := by
  grind [Chip.restDram, Chip.enterSelfRefresh_formed]

theorem Chip.restDevice_formed {c : Chip} (h : c.formed) : c.restDevice.formed := by
  unfold Chip.restDevice
  extract_lets +onlyGivenNames quiet c₁ c₂ c₃
  have h₁ : c₁.formed := by
    show (if _ then _ else c).formed
    split
    · exact Chip.wr_formed h _ _ _
    · exact h
  have h₂ : c₂.formed := Chip.wr_formed h₁ _ _ _
  have h₃ : c₃.formed := by
    show (if _ then _ else c₂).formed
    split
    · exact Chip.enterSelfRefresh_formed h₂
    · exact h₂
  split
  · refine foldl_formed (fun c g h => ?_) _ h₃
    split
    · exact Chip.enterRetention_formed h _
    · exact h
  · exact h₁

/-! ## Commits -/

theorem Chip.applyDue_formed {c : Chip} (h : c.formed) (t : Nat) (d : Due) : (c.applyDue t d).1.formed := by
  grind [Chip.applyDue, Chip.freeSession_formed, Chip.setImplicit_formed, Chip.overlay_formed, Chip.journalAt_formed,
    Chip.formed_iff]

theorem Chip.entriesCommitted_formed {c : Chip} (h : c.formed) (old : Chip) (t : Nat) (keys : List Nat) :
    (old.entriesCommitted c t keys).formed := by
  grind [Chip.entriesCommitted, Chip.scansCommitted_formed, Chip.trigCommitted_formed, Chip.twdCommitted_formed,
    Chip.jrsCommitted_formed, Chip.tkuCommitted_formed, Chip.fldCommitted_formed, Chip.pwrCommitted_formed,
    Chip.gngCommitted_formed, Chip.startWake_formed, Chip.wakeGroup_formed, foldl_formed]

theorem Chip.commitInstant_formed {c : Chip} (h : c.formed) (t : Nat) : (c.commitInstant t).formed := by
  grind [Chip.commitInstant, Chip.applyDue_formed, Chip.jrsSetpoints_formed, Chip.entriesCommitted_formed, foldl_fst_formed]

/-! ## Canvas: loads, solves and service -/

theorem Chip.setCnv_formed {c : Chip} (h : c.formed) (k : Nat) (f : Cnv → Cnv) : (c.setCnv k f).formed :=
  ⟨h.groups, h.muslin, h.host⟩

theorem Chip.setFactored_formed {c : Chip} (h : c.formed) (k s : Nat) (v : Bool) : (c.setFactored k s v).formed := by
  grind [Chip.setFactored, Chip.wr_formed]

theorem Chip.dropFactors_formed {c : Chip} (h : c.formed) (k : Nat) : (c.dropFactors k).formed := by
  grind [Chip.dropFactors, Chip.setCnv_formed, Chip.setFactored_formed, foldl_formed]

theorem Chip.setCanvas_formed {c : Chip} (h : c.formed) (k st : Nat) : (c.setCanvas k st).formed := by
  grind [Chip.setCanvas, Chip.wr_formed, Chip.dropFactors_formed]

theorem Chip.runLoad_formed {c : Chip} (h : c.formed) (k : Nat) (o : OpRun) : (c.runLoad k o).1.formed := by
  grind [Chip.runLoad, Chip.devRead_formed]

theorem Chip.bindSlot_formed {c : Chip} (h : c.formed) (k d h₁ : Nat) : (c.bindSlot k d h₁).formed := by
  grind [Chip.bindSlot, Chip.setCnv_formed, Chip.wr_formed, Chip.setFactored_formed]

theorem Chip.unbindSlot_formed {c : Chip} (h : c.formed) (k s : Nat) : (c.unbindSlot k s).formed := by
  grind [Chip.unbindSlot, Chip.setCnv_formed, Chip.wr_formed, Chip.setFactored_formed, foldl_formed]

theorem Chip.setSolve_formed {c : Chip} (h : c.formed) (k : Nat) (o : OpRun) (f : Option SolveRun) : (c.setSolve k o f).formed := by
  grind [Chip.setSolve, Chip.setCnv_formed]

theorem Chip.solveFails_formed {c : Chip} (h : c.formed) (k : Nat) (o : OpRun) (st : Nat) : (c.solveFails k o st).1.formed := by
  grind [Chip.solveFails, Chip.invalidate_formed, Chip.setSolve_formed, Chip.setFactored_formed]

theorem Chip.endFactor_formed {c : Chip} (h : c.formed) (k : Nat) (sch : Schedule) (v : CnvSlot) (o : OpRun) (f : SolveRun) :
    (c.endFactor k sch v o f).1.formed := by
  grind [Chip.endFactor, Chip.touchReads_formed, Chip.devWrite_formed, Chip.count_formed, Chip.setCnv_formed,
    Chip.setFactored_formed]

theorem Chip.passEnd_formed {c : Chip} (h : c.formed) (k : Nat) (sch : Schedule) (v : CnvSlot) (s : Nat) (rhs : List Num) :
    (c.passEnd k sch v s rhs).1.formed := by
  grind [Chip.passEnd, Chip.touchReads_formed]

theorem Chip.phaseEnd_formed {c : Chip} (h : c.formed) (k : Nat) (sch : Schedule) (v : CnvSlot) (o : OpRun) (f : SolveRun) :
    (c.phaseEnd k sch v o f).1.formed := by
  grind [Chip.phaseEnd, Chip.setCnv_formed, Chip.endFactor_formed, Chip.touchReads_formed, Chip.passEnd_formed]

theorem Chip.solveWrite_formed {c : Chip} (h : c.formed) (k : Nat) (sch : Schedule) (v : CnvSlot) (o : OpRun) (f : SolveRun) :
    (c.solveWrite k sch v o f).1.formed := by
  unfold Chip.solveWrite
  extract_lets +onlyGivenNames p noConv long notes status x head body a
  have ha : a.1.formed := Chip.devWrite_formed h _ _
  split
  · exact Chip.solveFails_formed ha _ _ _
  · extract_lets +onlyGivenNames w c₁ c₂
    have hw : w.1.formed := Chip.devWrite_formed ha _ _
    split
    · exact Chip.solveFails_formed hw _ _ _
    · have h₁ : c₁.formed := Chip.count_formed hw _ _ _
      have h₂ : c₂.formed := by
        show (if noConv then _ else c₁).formed
        split
        · exact Chip.count_formed h₁ _ _ _
        · exact h₁
      exact Chip.setSolve_formed h₂ _ _ _

theorem Chip.deltaUnit_formed {c : Chip} (h : c.formed) (v : CnvSlot) (p : SolvePar) (first : Nat) :
    (c.deltaUnit v p first).1.formed := by
  grind [Chip.deltaUnit, Chip.devWrite_formed, foldl_fst_formed]

theorem Chip.solveUnits_formed {c : Chip} (h : c.formed) (k : Nat) (sch : Schedule) (v : CnvSlot) (o : OpRun) (limit fuel used : Nat)
    (f : SolveRun) : (c.solveUnits k sch v o limit fuel used f).1.formed := by
  induction fuel generalizing c v o used f with
  | zero => exact Chip.setSolve_formed h _ _ _
  | succ fuel ih =>
    unfold Chip.solveUnits
    split
    · grind [Chip.phaseEnd_formed, Chip.solveFails_formed]
    · grind [Chip.setSolve_formed, Chip.solveWrite_formed, Chip.deltaUnit_formed, Chip.solveFails_formed]

theorem Chip.solveStart_formed {c : Chip} (h : c.formed) (k : Nat) (sch : Schedule) (v : CnvSlot) (o : OpRun) :
    (c.solveStart k sch v o).1.formed := by
  grind [Chip.solveStart, Chip.touchReads_formed, Chip.solveFails_formed, Chip.freshId_formed, Chip.devWrite_formed,
    Chip.count_formed, Chip.formed_iff]

theorem Chip.solveTile_formed {c : Chip} (h : c.formed) (k : Nat) (o : OpRun) : (c.solveTile k o).1.formed := by
  grind [Chip.solveTile, Chip.touchReads_formed, Chip.solveFails_formed, Chip.setCnv_formed, Chip.solveUnits_formed,
    Chip.solveStart_formed]

theorem Chip.moveSolves_formed {c : Chip} (h : c.formed) (k : Nat) : (c.moveSolves k).formed := by
  grind [Chip.moveSolves, Chip.setDescState_formed, Chip.setCnv_formed, Chip.freeUnit_formed, foldl_formed, Chip.formed_iff]

theorem Chip.canvasFails_formed {c : Chip} (h : c.formed) (k own other : Nat) : (c.canvasFails k own other).formed := by
  grind [Chip.canvasFails, Chip.setCanvas_formed, Chip.moveSolves_formed, Chip.raise_formed, Chip.count_formed,
    Chip.latchFault_formed, Chip.setOp_formed, Chip.completeOp_formed, Chip.settle_formed, Chip.failUnit_formed]

theorem Chip.cnvRefuse_formed {c : Chip} (h : c.formed) (k op : Nat) (force : Bool) (result : Nat) :
    (c.cnvRefuse k op force result).formed := by
  grind [Chip.cnvRefuse, Chip.journalService_formed, Chip.wr_formed]

theorem Chip.cnvBegin_formed {c : Chip} (h : c.formed) (k op : Nat) (force : Bool) : (c.cnvBegin k op force).formed := by
  grind [Chip.cnvBegin, Chip.wr_formed, Chip.setCnv_formed]

/-! ## Mirrors -/

theorem Chip.addMirrors_formed {c : Chip} (h : c.formed) (w : Weave) (i d : Nat) (refused : Bool) :
    (c.addMirrors w i d refused).formed := by
  grind [Chip.addMirrors, Chip.setFrame_formed]

theorem Chip.mirrorMatRow_formed {c : Chip} (h : c.formed) (o : OpRun) (i : Nat) : (c.mirrorMatRow o i).1.formed := by
  grind [Chip.mirrorMatRow, Chip.devWrite_formed]

theorem Chip.mirrorMatmul_formed {c : Chip} (h : c.formed) (o : OpRun) (part : Nat) : (c.mirrorMatmul o part).1.formed := by
  grind [Chip.mirrorMatmul, Chip.touchReads_formed, Chip.invalidate_formed, Chip.mirrorMatRow_formed, foldl_fst_formed]

theorem Chip.mirrorColumn_formed {c : Chip} (h : c.formed) (image : Nat) (r : ScanRec) (s : Scb) (t col : Nat) (o : OpRun) :
    (c.mirrorColumn image r s t col o).1.formed := by
  grind [Chip.mirrorColumn, Chip.devWrite_formed, foldl_fst_formed]

theorem Chip.mirrorStep_formed {c : Chip} (h : c.formed) (image : Nat) (r : ScanRec) (s : Scb) (t : Nat) (o : OpRun) :
    (c.mirrorStep image r s t o).1.formed := by
  grind [Chip.mirrorStep, Chip.mirrorColumn_formed, Chip.devWrite_formed, foldl_fst_formed]

theorem Chip.mirrorScan_formed {c : Chip} (h : c.formed) (f : GngFrame) (o : OpRun) (k : Nat) {r : Chip × OpRun} (hr :
    c.mirrorScan f o k = some r) :
    r.1.formed := by
  grind [Chip.mirrorScan, Chip.touchReads_formed, Chip.tornAt_formed, Chip.mirrorStep_formed, Chip.invalidate_formed,
    Chip.devWrite_formed, foldl_fst_formed]

theorem Chip.mirrorAnchor_formed {c : Chip} (h : c.formed) (f : GngFrame) (o : OpRun) {r : Chip × OpRun} (hr : c.mirrorAnchor f o
    = some r) :
    r.1.formed := by
  grind [Chip.mirrorAnchor, Chip.touchReads_formed, Chip.tornAt_formed, Chip.devWrite_formed, Chip.streamWhole_formed,
    foldl_fst_formed]

theorem Chip.mirrorRestore_formed {c : Chip} (h : c.formed) (f : GngFrame) (o : OpRun) {r : Chip × OpRun} (hr : c.mirrorRestore f
    o = some r) :
    r.1.formed := by
  grind [Chip.mirrorRestore, Chip.touchReads_formed, Chip.tornAt_formed, Chip.devWrite_formed, Chip.streamWhole_formed]

theorem Chip.mirrorTile_formed {c : Chip} (h : c.formed) (f : GngFrame) (o : OpRun) (part : Nat) :
    (c.mirrorTile f o part).1.formed := by
  unfold Chip.mirrorTile
  extract_lets p work
  have hwork : ∀ r : Chip × OpRun, work = some r → r.1.formed := by
    intro r hr
    simp only [work] at hr
    split at hr
    · obtain rfl := Option.some.inj hr
      exact Chip.mirrorMatmul_formed h _ _
    · obtain ⟨image, -, rfl⟩ := Option.map_eq_some_iff.1 hr
      exact Chip.devWrite_formed h _ _
    · exact Chip.mirrorScan_formed h _ _ _ hr
    · exact Chip.mirrorAnchor_formed h _ _ hr
    · exact Chip.mirrorRestore_formed h _ _ hr
  cases hw : work with
  | none => exact Chip.setFrame_formed h _
  | some r => exact hwork r hw

theorem Chip.startMirror_formed {c : Chip} (h : c.formed) (f : GngFrame) (m : GngMirror) (k : Nat) :
    (c.startMirror f m k).formed := by
  grind [Chip.startMirror, Chip.setFrame_formed, Chip.setOp_formed, Chip.freshId_formed, Chip.formed_iff]

theorem Chip.mirrorTileEnd_formed {c : Chip} (h : c.formed) (u ns : Nat) (o : OpRun) : (c.mirrorTileEnd u ns o).formed := by
  grind [Chip.mirrorTileEnd, Chip.endMirror_formed, Chip.mirrorTile_formed, Chip.timeTile_formed, Chip.setOp_formed]

/-! ## Service of Twill clusters -/

theorem Chip.setCluster_formed {c : Chip} (h : c.formed) (k st : Nat) : (c.setCluster k st).formed := by
  grind [Chip.setCluster, Chip.wr_formed, Chip.formed_iff]

theorem Chip.twlBusy_formed {c : Chip} (h : c.formed) (v : Option TwlService) : (c.twlBusy v).formed := by
  grind [Chip.twlBusy, Chip.wr_formed, Chip.formed_iff]

theorem Chip.twlDone_formed {c : Chip} (h : c.formed) (s : TwlService) (result : Nat) : (c.twlDone s result).formed := by
  grind [Chip.twlDone, Chip.journalService_formed, Chip.twlBusy_formed, Chip.wr_formed]

theorem Chip.twlRefuse_formed {c : Chip} (h : c.formed) (s : TwlService) (result : Nat) : (c.twlRefuse s result).formed := by
  grind [Chip.twlRefuse, Chip.journalService_formed, Chip.wr_formed]

theorem Chip.twlDrain_formed {c : Chip} (h : c.formed) (s : TwlService) : (c.twlDrain s).formed := by
  grind [Chip.twlDrain, Chip.setCluster_formed, Chip.twlBusy_formed, Chip.gngFollow_formed, Chip.failUnit_formed]

theorem Chip.twlTrySpare_formed {c : Chip} (h : c.formed) (s : TwlService) : (c.twlTrySpare s).formed := by
  grind [Chip.twlTrySpare, Chip.twlBusy_formed, Chip.setCluster_formed, Chip.twlDrain_formed]

theorem Chip.twlStart_formed {c : Chip} (h : c.formed) (s : TwlService) (need : Nat) (f : Chip → Chip) (hf : ∀ c : Chip, c.formed
    → (f c).formed) :
    (c.twlStart s need f).formed := by
  grind [Chip.twlStart, Chip.wr_formed, Chip.twlRefuse_formed]

theorem Chip.writeGngPair_formed {c : Chip} (h : c.formed) (v : Nat) : (c.writeGngPair v).formed := by
  grind [Chip.writeGngPair, Chip.wr_formed]

/-! ## Launches, fetches and starts -/

theorem Chip.takeEntry_formed {c : Chip} (h : c.formed) (n : Nat) (q : Queue) : (c.takeEntry n q).formed := by
  grind [Chip.takeEntry, Chip.devRead_formed, Chip.setQueue_formed, Chip.refusalRecord_formed, Chip.readHeader_formed,
    Chip.refresh_formed, Chip.addWeave_formed, Chip.formed_iff]

theorem Chip.launchFrame_formed {c : Chip} (h : c.formed) (n t : Nat) (weave : Option (Nat × Nat)) :
    (c.launchFrame n t weave).formed := by
  grind [Chip.launchFrame, Chip.frameLaunch_formed]

theorem Chip.launch_formed {c : Chip} (h : c.formed) (n t : Nat) : (c.launch n t).formed := by
  grind [Chip.launch, Chip.launchFrame_formed, Chip.count_formed, Chip.readHeader_formed, Chip.raise_formed, Chip.latch_formed,
    Chip.refusalRecord_formed, Chip.addWeave_formed, Chip.refresh_formed]

theorem Chip.fetch_formed {c : Chip} (h : c.formed) (w : Weave) : (c.fetch w).formed := by
  grind [Chip.fetch, Chip.devRead_formed, Chip.setWeave_formed, Chip.noteDone_formed, Chip.refusalRecord_formed,
    Chip.settle_formed, Chip.addMirrors_formed, Chip.finishDesc_formed]

theorem Chip.noteLatency_formed {c : Chip} (h : c.formed) (u cls since : Nat) : (c.noteLatency u cls since).formed := by
  grind [Chip.noteLatency, Chip.wr_formed]

theorem Chip.startOn_formed {c : Chip} (h : c.formed) (k : Candidate) (u : Nat) : (c.startOn k u).formed := by
  grind [Chip.startOn, Chip.noteLatency_formed, Chip.settle_formed, Chip.setDescState_formed, Chip.setOp_formed,
    Chip.showHold_formed, Chip.chainStart_formed, Chip.formed_iff]

theorem Chip.refuseStart_formed {c : Chip} (h : c.formed) (k : Candidate) (st : Nat) : (c.refuseStart k st).formed := by
  grind [Chip.refuseStart, Chip.settle_formed, Chip.finishDesc_formed]

theorem Chip.tileEnds_formed {c : Chip} (h : c.formed) (u ns : Nat) (o : OpRun) : (c.tileEnds u ns o).formed := by
  grind [Chip.tileEnds, Chip.timeTile_formed, Chip.setOp_formed, Chip.failUnit_formed, Chip.completeOp_formed,
    Chip.leaveAtu_formed, Chip.settle_formed, Chip.suspend_formed, Chip.refresh_formed]

theorem Chip.control_formed {c : Chip} (h : c.formed) (weave index opcode : Nat) (f : Chip → Weave → Nat → Chip) (hf : ∀ (c :
    Chip) (w : Weave) (d : Nat), c.formed → (f c w d).formed) :
    (c.control weave index opcode f).formed := by
  grind [Chip.control]

/-! ## Repairs and the islands they take out -/

theorem Chip.setStatus_formed {c : Chip} (h : c.formed) : c.setStatus.formed := by
  grind [Chip.setStatus, Chip.wr_formed]

theorem Chip.countFindings_formed {c : Chip} (h : c.formed) : c.countFindings.formed := by
  grind [Chip.countFindings, Chip.wr_formed]

theorem Chip.addFinding_formed {c : Chip} (h : c.formed) (kind data : Nat) : (c.addFinding kind data).formed := by
  grind [Chip.addFinding, Chip.wr_formed, Chip.countFindings_formed]

theorem Chip.markSpare_formed {c : Chip} (h : c.formed) (finding : Bool) : (c.markSpare finding).formed := by
  grind [Chip.markSpare, Chip.formed_iff]

theorem Chip.clusterOut_formed {c : Chip} (h : c.formed) (k : Nat) (finding : Bool) : (c.clusterOut k finding).formed := by
  grind [Chip.clusterOut, Chip.wr_formed, Chip.setCluster_formed, Chip.addFinding_formed]

theorem Chip.canvasOut_formed {c : Chip} (h : c.formed) (k : Nat) (finding : Bool) : (c.canvasOut k finding).formed := by
  grind [Chip.canvasOut, Chip.setCanvas_formed, Chip.addFinding_formed]

theorem Chip.steerDamask_formed {c : Chip} (h : c.formed) (group q source : Nat) : (c.steerDamask group q source).formed := by
  grind [Chip.steerDamask, Chip.wr_formed]

theorem Chip.steerJersey_formed {c : Chip} (h : c.formed) (d lane : Nat) : (c.steerJersey d lane).formed := by
  grind [Chip.steerJersey, Chip.wr_formed]

theorem Chip.loadFuses_formed {c : Chip} (h : c.formed) (f : FuseReport) : (c.loadFuses f).formed := by
  grind [Chip.loadFuses, Chip.steerDamask_formed, Chip.clusterOut_formed, Chip.markSpare_formed, Chip.setEntry_formed,
    foldl_formed, Chip.formed_iff]

theorem Chip.islandOut_formed {c : Chip} (h : c.formed) (i : Nat) (finding : Bool) : (c.islandOut i finding).formed := by
  grind [Chip.islandOut, Chip.clusterOut_formed, Chip.markSpare_formed, Chip.canvasOut_formed, Chip.formed_iff]

/-! ## Pins, rails and links -/

theorem Chip.resetFrom_formed {c : Chip} (h : c.formed) : c.resetFrom.formed := by
  grind [Chip.resetFrom, Chip.reset_formed, Chip.formed_iff]

theorem Chip.keeperLost_formed {c : Chip} (h : c.formed) : c.keeperLost.formed := by
  grind [Chip.keeperLost, Chip.resetFrom_formed, Chip.formed_iff]

theorem Chip.hostReset_formed {c : Chip} (h : c.formed) (seen : Field) : (c.hostReset seen).formed :=
  h.of_within (c.hostReset_within seen) rfl

theorem Chip.linkLost_formed {c : Chip} (h : c.formed) : c.linkLost.formed :=
  h.of_within (c.linkLost_within) rfl

theorem Chip.linkTrained_formed {c : Chip} (h : c.formed) (speed width : Nat) : (c.linkTrained speed width).formed := by
  grind [Chip.linkTrained, Chip.wr_formed, Chip.formed_iff]

theorem Chip.failReady_formed {c : Chip} (h : c.formed) (engine st : Nat) : (c.failReady engine st).formed := by
  grind [Chip.failReady, Chip.settle_formed, Chip.finishDesc_formed, foldl_formed]

theorem Chip.stageStops_formed {c : Chip} (h : c.formed) : c.stageStops.formed :=
  h.of_within (c.stageStops_within) rfl

theorem Chip.fabricOff_formed {c : Chip} (h : c.formed) (selfRefresh : Bool) : (c.fabricOff selfRefresh).formed := by
  grind [Chip.fabricOff, Chip.failEngine_formed, Chip.hostReset_formed, Chip.linkLost_formed, Chip.loseDram_formed,
    Chip.reset_formed, Chip.setPhase_formed, Chip.setDomainState_formed, Chip.stageStops_formed, foldl_formed, Memory.wf,
    Chip.formed_iff]

theorem Chip.fabricOn_formed {c : Chip} (h : c.formed) (phase : GroupPhase) : (c.fabricOn phase).formed := by
  grind [Chip.fabricOn, Chip.setDomainState_formed, Chip.setPhase_formed, Chip.refresh_formed, foldl_formed, Chip.formed_iff]

theorem Chip.setChannels_formed {c : Chip} (h : c.formed) : c.setChannels.formed := by
  grind [Chip.setChannels, Chip.refreshCap_formed, Chip.wr_formed]

theorem Chip.wakeRestart_formed {c : Chip} (h : c.formed) : c.wakeRestart.formed := by
  grind [Chip.wakeRestart, Chip.fabricOn_formed, Chip.loadFuses_formed, Chip.islandOut_formed, Chip.setChannels_formed,
    Chip.wr_formed, Chip.endTraining_formed, foldl_formed, Chip.formed_iff]

/-! ## Restarts of domains -/

theorem Chip.domainLoses_formed {c : Chip} (h : c.formed) (d : Nat) : (c.domainLoses d).formed := by
  grind [Chip.domainLoses, Chip.loseDram_formed, Chip.clearRetired_formed, Chip.setDomainState_formed, Chip.wr_formed,
    Chip.setPhase_formed, Chip.switchOff_formed, Memory.wf_clear, Chip.formed_iff]

theorem Chip.domainResult_formed {c : Chip} (h : c.formed) (n : Nat) : (c.domainResult n).formed := by
  grind [Chip.domainResult, Chip.wr_formed]

theorem Chip.katBits_formed {c : Chip} (h : c.formed) (tests : List Nat) (failed : Nat → Bool) :
    (c.katBits tests failed).formed := by
  grind [Chip.katBits, Chip.wr_formed, foldl_formed]

theorem Chip.katMarks_formed {c : Chip} (h : c.formed) (tests : List Nat) (failed : Nat → Bool) :
    (c.katMarks tests failed).formed := by
  grind [Chip.katMarks, Chip.wr_formed, foldl_formed]

theorem Chip.katOut_formed {c : Chip} (h : c.formed) (t : Nat) : (c.katOut t).formed := by
  grind [Chip.katOut, Chip.latchFault_formed, Chip.clusterOut_formed, Chip.canvasOut_formed]

theorem Chip.isolateDomain_formed {c : Chip} (h : c.formed) (d : Nat) (out : Bool) : (c.isolateDomain d out).formed := by
  grind [Chip.isolateDomain, Chip.formed_iff]

theorem Chip.pagesAgain_formed {c : Chip} (h : c.formed) : c.pagesAgain.1.formed := by
  grind [Chip.pagesAgain, Chip.wr_formed, Chip.endRetire_formed, Chip.startRetire_formed, foldl_fst_formed, Chip.formed_iff]

theorem Chip.domainReturns_formed {c : Chip} (h : c.formed) (d : Nat) : (c.domainReturns d).formed := by
  grind [Chip.domainReturns, Chip.setChannels_formed, Chip.setDomainState_formed, Chip.pagesAgain_formed,
    Chip.endTraining_formed, Chip.setPhase_formed, Chip.atuRestore_formed, Chip.formed_iff]

/-! ## Bring-up -/

theorem Chip.detail_formed {c : Chip} (h : c.formed) (n v : Nat) : (c.detail n v).formed := by
  grind [Chip.detail, Chip.wr_formed]

theorem Chip.ranCold_formed {c : Chip} (h : c.formed) (n : Nat) (cold : Bool) : (c.ranCold n cold).formed := by
  grind [Chip.ranCold, Chip.wr_formed, Chip.formed_iff]

theorem Chip.stageEnds_formed {c : Chip} (h : c.formed) (n result : Nat) : (c.stageEnds n result).formed := by
  grind [Chip.stageEnds, Chip.wr_formed, Chip.raise_formed, Chip.formed_iff]

theorem Chip.stage1_formed {c : Chip} (h : c.formed) (badRails refclkKHz : Nat) : (c.stage1 badRails refclkKHz).1.formed := by
  grind [Chip.stage1, Chip.detail_formed]

theorem Chip.stage2_formed {c : Chip} (h : c.formed) (f : FuseReport) : (c.stage2 f).1.formed := by
  grind [Chip.stage2, Chip.detail_formed, Chip.loadFuses_formed, Chip.formed_iff]

theorem Chip.stage3_formed {c : Chip} (h : c.formed) (failed : List Nat) : (c.stage3 failed).1.formed := by
  grind [Chip.stage3, Chip.detail_formed, Chip.islandOut_formed, foldl_formed, Chip.formed_iff]

theorem Chip.restoreJournal_formed {c : Chip} (h : c.formed) : c.restoreJournal.1.formed := by
  grind [Chip.restoreJournal, Chip.setEntry_formed, Chip.journal_formed, Chip.formed_iff]

theorem Chip.stage4_formed {c : Chip} (h : c.formed) : c.stage4.1.formed := by
  grind [Chip.stage4, Chip.wr_formed, Chip.detail_formed, Chip.setStatus_formed, Chip.restoreJournal_formed,
    Chip.setEntry_formed, Chip.overlay_formed, Chip.formed_iff]

theorem Chip.repairNow_formed {c : Chip} (h : c.formed) (r : ColRepair) : (c.repairNow r).formed := by
  grind [Chip.repairNow, Chip.logRepair_formed, Chip.formed_iff]

theorem Chip.stage5Column_formed {s : Chip × Nat × Nat} (h : s.1.formed) (p : Nat × Nat × Nat) :
    (Chip.stage5Column s p).1.formed := by
  grind [Chip.stage5Column, Chip.columnDegraded_formed, Chip.repairNow_formed, Chip.addFinding_formed]

theorem Chip.zeroMuslin_formed {c : Chip} (h : c.formed) : c.zeroMuslin.formed := by
  grind [Chip.zeroMuslin, Chip.setPhase_formed, foldl_formed, Memory.wf, Chip.formed_iff]

theorem Chip.stage5_formed {c : Chip} (h : c.formed) (quick : Bool) (nack : Nat) (failing : List (Nat × Nat × Nat)) (multi margin
    : List Nat) :
    (c.stage5 quick nack failing multi margin).1.formed := by
  grind [Chip.stage5, Chip.ranCold_formed, Chip.zeroMuslin_formed, Chip.detail_formed, Chip.stage5Column_formed,
    Chip.latch_formed, Chip.degrade_formed, foldl_formed, foldl_fst_formed]

theorem Chip.stage6_formed {c : Chip} (h : c.formed) (quick : Bool) (fail : Nat) : (c.stage6 quick fail).1.formed := by
  grind [Chip.stage6, Chip.setChannels_formed, Chip.endTraining_formed, Chip.ranCold_formed, Chip.detail_formed,
    Chip.formed_iff]

theorem Chip.zeroDram_formed {c : Chip} (h : c.formed) : c.zeroDram.formed :=
  ⟨h.groups, h.muslin, h.host⟩

theorem Chip.stage7_formed {c : Chip} (h : c.formed) (quick : Bool) (failing : List Nat) : (c.stage7 quick failing).1.formed := by
  grind [Chip.stage7, Chip.clearRetired_formed, Chip.ranCold_formed, Chip.zeroDram_formed, Chip.detail_formed, Chip.formed_iff]

theorem Chip.applyRecord_formed {c : Chip} (h : c.formed) (kind d : Nat) {x : Chip} (hx : c.applyRecord kind d = some x) :
    x.formed := by
  have hadd : ∀ r : ColRepair, ({ c with msl := { c.msl with repairs := c.msl.repairs ++ [r] } } : Chip).formed :=
    fun r => ⟨h.groups, h.muslin, h.host⟩
  have hlater : ∀ l, ({ c with bup := { c.bup with activate := l } } : Chip).formed := fun l => ⟨h.groups, h.muslin, h.host⟩
  unfold Chip.applyRecord at hx
  split at hx <;>
    grind [Chip.repairNow_formed, Chip.steerDamask_formed, Chip.clusterOut_formed, Chip.setCluster_formed,
      Chip.steerJersey_formed, Chip.canvasOut_formed]

theorem Chip.applyKind_formed {s : Chip × Nat × Nat} (h : s.1.formed) (kind : Nat) : (Chip.applyKind s kind).1.formed := by
  grind [Chip.applyKind, Chip.pagesAgain_formed, Chip.applyRecord_formed, foldl_fst_formed]

theorem Chip.retireFailing_formed {s : Chip × Nat × Nat} (h : s.1.formed) (page : Nat) : (Chip.retireFailing s page).1.formed := by
  grind [Chip.retireFailing, Chip.addFinding_formed, Chip.endRetire_formed, Chip.startRetire_formed]

theorem Chip.stage8_formed {c : Chip} (h : c.formed) : c.stage8.1.formed := by
  grind [Chip.stage8, Chip.applyKind_formed, Chip.addFinding_formed, Chip.retireFailing_formed, Chip.detail_formed,
    foldl_formed, foldl_fst_formed, Chip.formed_iff]

theorem Chip.katColumns_formed {c : Chip} (h : c.formed) (columns : List Nat) : (c.katColumns columns).1.formed := by
  grind [Chip.katColumns, Chip.addFinding_formed, Chip.steerDamask_formed, foldl_fst_formed]

theorem Chip.katDatapath_formed {c : Chip} (h : c.formed) (d : Nat) (slots : List Nat) : (c.katDatapath d slots).1.formed := by
  grind [Chip.katDatapath, Chip.wr_formed, Chip.addFinding_formed, Chip.steerJersey_formed]

theorem Chip.activateCluster_formed {c : Chip} (h : c.formed) (k : Nat) (finding : Bool) :
    (c.activateCluster k finding).formed := by
  grind [Chip.activateCluster, Chip.setCluster_formed, Chip.addFinding_formed]

theorem Chip.katCluster_formed {c : Chip} (h : c.formed) (failed : Nat → Bool) (k : Nat) : (c.katCluster failed k).formed := by
  grind [Chip.katCluster, Chip.katOut_formed, Chip.activateCluster_formed]

theorem Chip.stage9_formed {c : Chip} (h : c.formed) (quick : Bool) (nack fail : Nat) (columns slots : List Nat) :
    (c.stage9 quick nack fail columns slots).1.formed := by
  unfold Chip.stage9
  extract_lets +onlyGivenNames c₁ tests failed m j out c₂ c₃ c₄ c₅ c₆ bup c₇ bad
  have h₁ : c₁.formed := Chip.detail_formed (Chip.ranCold_formed h _ _) _ _
  have hm : m.1.formed := Chip.katColumns_formed h₁ _
  have hj : j.1.formed := by
    refine foldl_fst_formed (fun s d hs => ?_) _ hm
    exact Chip.katDatapath_formed hs _ _
  have h₃ : c₃.formed := Chip.katMarks_formed (Chip.katBits_formed (Chip.wr_formed (Chip.katBits_formed hj _ _) _ _ _) _ _) _ _
  have h₄ : c₄.formed := by
    refine foldl_formed (fun c p h => ?_) _ h₃
    exact formed_ite (Chip.activateCluster_formed h _ _) h
  have h₅ : c₅.formed := foldl_formed (fun c k h => Chip.katCluster_formed h _ _) _ h₄
  have h₆ : c₆.formed := by
    refine foldl_formed (fun c t h => ?_) _ h₅
    exact formed_ite (Chip.katOut_formed h _) h
  have h₇ : c₇.formed := ⟨h₆.groups, h₆.muslin, h₆.host⟩
  split
  · exact Chip.detail_formed h₁ _ _
  · exact Chip.gngFollow_formed h₇ _

theorem Chip.stage10_formed {c : Chip} (h : c.formed) : c.stage10.1.formed := by
  grind [Chip.stage10, Chip.entriesCommitted_formed, Chip.overlay_formed, Chip.journal_formed, Chip.detail_formed,
    Chip.wr_formed, Chip.formed_iff]

theorem Chip.stage11_formed {c : Chip} (h : c.formed) : c.stage11.1.formed := by
  grind [Chip.stage11, Chip.detail_formed, Chip.wr_formed, Memory.wf_clear, Chip.formed_iff]

theorem Chip.stageRuns_formed {c : Chip} (h : c.formed) (i : Instr) {r : Nat × Chip × Nat} (hr : c.stageRuns i = some r) :
    r.2.1.formed := by
  cases i with
  | powerSequenceCheck bad khz => obtain rfl := Option.some.inj hr; exact Chip.stage1_formed h _ _
  | fuseLoad f => obtain rfl := Option.some.inj hr; exact Chip.stage2_formed h _
  | clockIslandStart failed => obtain rfl := Option.some.inj hr; exact Chip.stage3_formed h _
  | keeperRestore => obtain rfl := Option.some.inj hr; exact Chip.stage4_formed h
  | muslinTest q nack failing multi margin => obtain rfl := Option.some.inj hr; exact Chip.stage5_formed h _ _ _ _ _
  | dramTraining q fail => obtain rfl := Option.some.inj hr; exact Chip.stage6_formed h _ _
  | dramTest q failing => obtain rfl := Option.some.inj hr; exact Chip.stage7_formed h _ _
  | repairApply => obtain rfl := Option.some.inj hr; exact Chip.stage8_formed h
  | knownAnswerRuns q nack fail columns slots => obtain rfl := Option.some.inj hr; exact Chip.stage9_formed h _ _ _ _ _
  | dictionaryLoad => obtain rfl := Option.some.inj hr; exact Chip.stage10_formed h
  | queueSetup => obtain rfl := Option.some.inj hr; exact Chip.stage11_formed h
  | bupReady => obtain rfl := Option.some.inj hr; exact Chip.wr_formed h _ _ _
  | _ => cases hr

/-! ## The planner -/

theorem Chip.setPlan_formed {c : Chip} (h : c.formed) (o : OpRun) (f : Option PlanRun) : (c.setPlan o f).formed :=
  ⟨h.groups, h.muslin, h.host⟩

theorem Chip.planFails_formed {c : Chip} (h : c.formed) (o : OpRun) (st : Nat) : (c.planFails o st).1.formed := by
  grind [Chip.planFails, Chip.setPlan_formed, Chip.invalidate_formed]

theorem Chip.planWrite_formed {c : Chip} (h : c.formed) (o : OpRun) (f : PlanRun) (x : PlanEnd) (latch : Bool) :
    (c.planWrite o f x latch).1.formed := by
  grind [Chip.planWrite, Chip.devWrite_formed, Chip.planFails_formed, Chip.count_formed, Chip.latch_formed,
    Chip.setPlan_formed]

theorem Chip.planUnits_formed {c : Chip} (h : c.formed) (o : OpRun) (e : PlanEnv) (limit fuel used : Nat) (f : PlanRun) :
    (c.planUnits o e limit fuel used f).1.formed := by
  induction fuel generalizing c used f with
  | zero => exact Chip.setPlan_formed h _ _
  | succ fuel ih =>
    unfold Chip.planUnits
    extract_lets +onlyGivenNames passing
    split
    · exact Chip.setPlan_formed h _ _
    · split
      · exact Chip.planWrite_formed h _ _ _ _
      · grind [Chip.touchReads_formed, Chip.planFails_formed, Chip.count_formed]

theorem Chip.planStart_formed {c : Chip} (h : c.formed) (o : OpRun) : (c.planStart o).1.formed := by
  grind [Chip.planStart, Chip.devRead_formed, Chip.touchReads_formed, Chip.planFails_formed, Chip.writeOwn_formed,
    Chip.planWrite_formed]

theorem Chip.planTile_formed {c : Chip} (h : c.formed) (o : OpRun) : (c.planTile o).1.formed := by
  grind [Chip.planTile, Chip.planUnits_formed, Chip.planStart_formed]

/-! ## Register writes -/

theorem Chip.plainWrite_formed {c : Chip} (h : c.formed) (r : RegDef) (k a v keep : Nat) : (c.plainWrite r k a v keep).formed :=
  ⟨h.groups, h.muslin, h.host⟩

theorem Chip.dspWritten_formed {c : Chip} (h : c.formed) {d : Chip} (hd : d.formed) (a b i v : Nat) {x : Chip} (hx : c.dspWritten
    d a b i v = some x) :
    x.formed := by
  grind [Chip.dspWritten, Chip.wr_formed, Chip.gngFollow_formed, Chip.signalSet_formed, Chip.settle_formed,
    Chip.gridFrom_formed]

theorem Chip.mslWritten_formed {d : Chip} (h : d.formed) (a b : Nat) {x : Chip} (hx : d.mslWritten a b = some x) : x.formed := by
  grind [Chip.mslWritten, Chip.wr_formed, Chip.logFlags_formed]

theorem Chip.atuWritten_formed {c : Chip} (h : c.formed) {d : Chip} (hd : d.formed) (r : RegDef) (a b v : Nat) {x : Chip} (hx :
    c.atuWritten d r a b v = some x) :
    x.formed := by
  grind [Chip.atuWritten, Chip.plainWrite_formed, Chip.wr_formed, Chip.atuCmd_formed]

theorem Chip.refuseOp_formed {c : Chip} (h : c.formed) (busyField resultField : Field) (busy : Nat) :
    (c.refuseOp busyField resultField busy).formed := by
  grind [Chip.refuseOp, Chip.wr_formed]

theorem Chip.opWritten_formed {c : Chip} (h : c.formed) (a v : Nat) {x : Chip} (hx : c.opWritten a v = some x) : x.formed := by
  grind [Chip.opWritten, Chip.refuseOp_formed, Chip.wr_formed, Chip.odxRefuse_formed, Chip.answer_formed]

theorem Chip.sendPending_formed {d : Chip} (h : d.formed) (v : Nat) : (d.sendPending v).formed := by
  grind [Chip.sendPending, Chip.emit_formed, Chip.formed_iff]

theorem Chip.configWritten_formed {d : Chip} (h : d.formed) (c : Chip) (a : Nat) : (c.configWritten d a).formed := by
  grind [Chip.configWritten, Chip.wr_formed, Chip.sendPending_formed, foldl_formed]

theorem Chip.memWritten_formed {c : Chip} (h : c.formed) {d : Chip} (hd : d.formed) (a b i v : Nat) {x : Chip} (hx : c.memWritten
    d a b i v = some x) :
    x.formed := by
  grind [Chip.memWritten, Chip.wr_formed, Chip.openPorts_formed, Chip.refreshCap_formed, Chip.loseDram_formed,
    Chip.sendPending_formed]

theorem Chip.unitWritten_formed {c : Chip} (h : c.formed) {d : Chip} (hd : d.formed) (r : RegDef) (a b i v : Nat) :
    ∀ y, c.unitWritten d r a b i v = some y → ∀ x, y = .inl x → x.formed :=
  have hy : ∀ k, (c.plainWrite r 0 a v k).formed := Chip.plainWrite_formed h _ _ _ _
  answer_ite (answer_some (answer_inl (formed_ite (Chip.gzeStop_formed hd) (formed_ite hd (Chip.gzeRun_formed hd))))) <|
  answer_ite (answer_some (answer_inl (formed_ite (Chip.tulEnable_formed h) (Chip.tulDisable_formed h)))) <|
  answer_ite (answer_some (answer_inl (formed_ite (Chip.jerseyStart_formed (hy _)) (Chip.jerseyStop_formed (hy _))))) <|
  answer_ite (answer_some (answer_inl (Chip.jrsSyncFlags_formed hd _))) <|
  answer_ite (answer_some (answer_inl (formed_ite h (Chip.setRate_formed h _)))) <|
  answer_ite (answer_some (answer_inl (Chip.fldRefresh_formed hd))) <|
  answer_ite (answer_some (answer_inl (formed_ite h hd))) <|
  answer_ite (answer_some (answer_inl (formed_ite h hd))) <|
  answer_ite (answer_some (answer_inl (Chip.ringCfg_formed h _ _ _))) <|
  answer_ite (answer_some (answer_inl (Chip.ringCfg_formed h _ _ _))) <|
  answer_ite (answer_some (answer_inl (Chip.hostTxProd_formed h _ _))) <|
  answer_ite (answer_some (answer_inl (Chip.hostRxProd_formed h _ _))) <|
  answer_ite (answer_some answer_inr) <|
  answer_ite (answer_some (answer_inl (Chip.countFindings_formed hd))) <|
  answer_none

theorem Chip.registerWrite_formed {c : Chip} (h : c.formed) (a size v : Nat) : (c.registerWrite a size v).formed := by
  unfold Chip.registerWrite
  split
  · split
    · exact Chip.latch_formed h _ _
    · exact h
  · split
    · exact h
    · extract_lets +onlyGivenNames i d
      have hd : d.formed := Chip.plainWrite_formed h _ _ _ _ _
      split
      · exact Chip.configWritten_formed hd _ _
      · split
        · exact Chip.writeGngPair_formed h _
        · split
          · next hx => exact Chip.dspWritten_formed h hd _ _ _ _ hx
          · split
            · next hx => exact Chip.mslWritten_formed hd _ _ hx
            · split
              · next hx => exact Chip.atuWritten_formed h hd _ _ _ _ hx
              · split
                · next hx => exact Chip.opWritten_formed h _ _ hx
                · split
                  · next hx => exact Chip.memWritten_formed h hd _ _ _ _ hx
                  · split
                    · next hx => exact Chip.unitWritten_formed h hd _ _ _ _ _ _ hx _ rfl
                    · exact Chip.clearGngFaults_formed h _
                    · exact hd

/-! ## Commands -/

/-- A command runs, through its server, a function of the chip that does not reach what the form rests on, or keeps the form. -/
def commandKeepsForm (i : Instr) : Prop :=
  ∀ s : State, ∃ ps f, exec i s = (serverOf i).run s ps f ∧ (Parts.reachForm ps = false ∨ ∀ c : Chip, c.formed → (f c).formed)

/-- A command whose work keeps the form. -/
theorem commandKeepsForm_of_run {i : Instr} (v : Server) (hv : serverOf i = v) {ps : List Part} {f : Chip → Chip}
    (he : ∀ s, exec i s = v.run s ps f) (hf : ∀ c : Chip, c.formed → (f c).formed) : commandKeepsForm i :=
  fun s => ⟨ps, f, by rw [hv, he s], .inr hf⟩

/-- A command that does not reach what the form rests on. -/
theorem commandKeepsForm_of_apart {i : Instr} (v : Server) (hv : serverOf i = v)
    (h : ∀ s, ∃ ps f, exec i s = v.run s ps f ∧ Parts.reachForm ps = false) : commandKeepsForm i := by
  intro s
  obtain ⟨ps, f, he, hps⟩ := h s
  exact ⟨ps, f, by rw [hv, he], .inl hps⟩

/-- Dictionary requests do not reach it. -/
theorem commandKeepsForm_of_runFor {i : Instr} (o : Origin) (hv : serverOf i = originServer o)
    (h : ∀ s, ∃ ps f, exec i s = s.runFor o ps f ∧ Parts.reachForm ps = false) : commandKeepsForm i := by
  intro s
  obtain ⟨ps, f, he, hps⟩ := h s
  exact ⟨ps, f, by rw [hv, he, State.runFor_server], .inl hps⟩

theorem registerWrite_keepsForm (addr size : Nat) (data : Word) : commandKeepsForm (.registerWrite addr size data) := by
  refine commandKeepsForm_of_run .fabric rfl (fun s => rfl) fun c h => ?_
  grind [Chip.registerWrite_formed]

theorem islandStall_keepsForm (island unit : Nat) : commandKeepsForm (.islandStall island unit) := by
  refine commandKeepsForm_of_run .fabric rfl (fun s => rfl) fun c h => ?_
  grind [Chip.raise_formed, Chip.latchFault_formed, Chip.wr_formed, Chip.setCluster_formed, Chip.canvasFails_formed,
    Chip.failEngine_formed, Chip.failReady_formed, Chip.gngFollow_formed, Chip.unitMeets_formed, foldl_formed, Chip.formed_iff]

theorem controlTick_keepsForm : commandKeepsForm .controlTick := by
  refine commandKeepsForm_of_run .keeper rfl (fun s => rfl) fun c h => ?_
  grind [Chip.gridServe_formed, Chip.advanceTo_formed, Chip.commitInstant_formed, Chip.gwepoCycle_formed, foldl_formed]

theorem commitInstant_keepsForm : commandKeepsForm .commitInstant := by
  refine commandKeepsForm_of_run .keeper rfl (fun s => rfl) fun c h => ?_
  grind [Chip.commitInstant_formed, Chip.advanceTo_formed]

theorem submissionEntryTake_keepsForm : commandKeepsForm .submissionEntryTake := by
  refine commandKeepsForm_of_run .fabric rfl (fun s => rfl) fun c h => ?_
  grind [Chip.unlessHeld_formed, Chip.takeEntry_formed]

theorem descriptorFetch_keepsForm (weave : Nat) : commandKeepsForm (.descriptorFetch weave) := by
  refine commandKeepsForm_of_run .fabric rfl (fun s => rfl) fun c h => ?_
  grind [Chip.gngFollow_formed, Chip.unlessHeld_formed, Chip.fetch_formed]

theorem descriptorStart_keepsForm (unit : Nat) : commandKeepsForm (.descriptorStart unit) := by
  refine commandKeepsForm_of_run .fabric rfl (fun s => rfl) fun c h => ?_
  grind [Chip.refresh_formed, Chip.startMirror_formed, Chip.gngFollow_formed, Chip.refuseStart_formed, Chip.startOn_formed]

theorem tileEnd_keepsForm (unit ns : Nat) : commandKeepsForm (.tileEnd unit ns) := by
  refine commandKeepsForm_of_run .fabric rfl (fun s => rfl) fun c h => ?_
  grind [Chip.gngFollow_formed, Chip.unlessHeld_formed, Chip.failUnit_formed, Chip.mirrorTileEnd_formed, Chip.tileEnds_formed]

theorem operationResume_keepsForm (unit : Nat) : commandKeepsForm (.operationResume unit) := by
  refine commandKeepsForm_of_run .fabric rfl (fun s => rfl) fun c h => ?_
  grind [Chip.restoreContext_formed, Chip.settle_formed, Chip.setOp_formed, Chip.ctxFault_formed, Chip.formed_iff]

theorem operationComplete_keepsForm (unit : Nat) (wrong : Bool) : commandKeepsForm (.operationComplete unit wrong) := by
  refine commandKeepsForm_of_run .fabric rfl (fun s => rfl) fun c h => ?_
  grind [Chip.gngFollow_formed, Chip.refresh_formed, Chip.endMirror_formed, Chip.completeAtu_formed, Chip.completeOp_formed]

theorem dspCancel_keepsForm (weaveId : BitVec 16) : commandKeepsForm (.dspCancel weaveId) := by
  refine commandKeepsForm_of_run .host rfl (fun s => rfl) fun c h => ?_
  grind [Chip.gngFollow_formed, Chip.settle_formed, Chip.formed_iff]

theorem dspSigAdd_keepsForm (sig : BitVec 8) (add : BitVec 24) : commandKeepsForm (.dspSigAdd sig add) := by
  refine commandKeepsForm_of_run .host rfl (fun s => rfl) fun c h => ?_
  grind [Chip.gngFollow_formed, Chip.signalAdd_formed]

theorem dspSigWrite_keepsForm (sig : BitVec 8) (value : Word) : commandKeepsForm (.dspSigWrite sig value) := by
  refine commandKeepsForm_of_run .host rfl (fun s => rfl) fun c h => ?_
  grind [Chip.gngFollow_formed, Chip.signalSet_formed]

theorem nop_keepsForm (weave index : Nat) : commandKeepsForm (.nop weave index) := by
  refine commandKeepsForm_of_run .fabric rfl (fun s => rfl) fun c h => ?_
  grind [Chip.control_formed, Chip.gngFollow_formed, Chip.settle_formed, Chip.finishDesc_formed]

theorem waitUntil_keepsForm (weave index : Nat) : commandKeepsForm (.waitUntil weave index) := by
  refine commandKeepsForm_of_run .fabric rfl (fun s => rfl) fun c h => ?_
  grind [Chip.control_formed, Chip.gngFollow_formed, Chip.waitDone_formed, Chip.settle_formed, Chip.setDescState_formed]

theorem waitUntilExpire_keepsForm (weave index : Nat) : commandKeepsForm (.waitUntilExpire weave index) := by
  refine commandKeepsForm_of_run .fabric rfl (fun s => rfl) fun c h => ?_
  grind [Chip.gngFollow_formed, Chip.waitDone_formed, Chip.advanceTo_formed]

theorem sigSet_keepsForm (weave index : Nat) : commandKeepsForm (.sigSet weave index) := by
  refine commandKeepsForm_of_run .fabric rfl (fun s => rfl) fun c h => ?_
  grind [Chip.control_formed, Chip.setPoison_formed, Chip.wr_formed, Chip.gngFollow_formed, Chip.settle_formed,
    Chip.finishDesc_formed]

theorem timedLaunch_keepsForm (entry : Nat) : commandKeepsForm (.timedLaunch entry) := by
  refine commandKeepsForm_of_run .fabric rfl (fun s => rfl) fun c h => ?_
  grind [Chip.launch_formed, Chip.gridServe_formed, Chip.advanceTo_formed]

theorem muslinRead_keepsForm (addr len unit : Nat) (found net : List (Nat × Bool)) : commandKeepsForm (.muslinRead addr len unit found net) := by
  refine commandKeepsForm_of_run .fabric rfl (fun s => rfl) fun c h => ?_
  grind [Chip.perLine_formed, Chip.access_formed, Chip.serveRead_formed]

theorem muslinWrite_keepsForm (addr unit : Nat) (data : List Byte) (net : List (Nat × Bool)) : commandKeepsForm (.muslinWrite addr unit data net) := by
  refine commandKeepsForm_of_run .fabric rfl (fun s => rfl) fun c h => ?_
  grind [Chip.writeCommand_formed]

theorem bitSetWrite_keepsForm (addr unit : Nat) (data : List Byte) (net : List (Nat × Bool)) : commandKeepsForm (.bitSetWrite addr unit data net) := by
  refine commandKeepsForm_of_run .fabric rfl (fun s => rfl) fun c h => ?_
  grind [Chip.writeCommand_formed]

theorem bitClearWrite_keepsForm (addr unit : Nat) (data : List Byte) (net : List (Nat × Bool)) : commandKeepsForm (.bitClearWrite addr unit data net) := by
  refine commandKeepsForm_of_run .fabric rfl (fun s => rfl) fun c h => ?_
  grind [Chip.writeCommand_formed]

theorem eccWriteback_keepsForm : commandKeepsForm .eccWriteback := by
  refine commandKeepsForm_of_run .fabric rfl (fun s => rfl) fun c h => ?_
  grind [Chip.formed_iff]

theorem hatomSet_keepsForm (mask : Word) (net : EccFinding) : commandKeepsForm (.hatomSet mask net) := by
  refine commandKeepsForm_of_run .host rfl (fun s => rfl) fun c h => ?_
  grind [Chip.access_formed, Chip.atomic_formed]

theorem hatomClr_keepsForm (mask : Word) (net : EccFinding) : commandKeepsForm (.hatomClr mask net) := by
  refine commandKeepsForm_of_run .host rfl (fun s => rfl) fun c h => ?_
  grind [Chip.access_formed, Chip.atomic_formed]

theorem bar2Read_keepsForm (addr len : Nat) (found net : List (Nat × Bool)) : commandKeepsForm (.bar2Read addr len found net) := by
  refine commandKeepsForm_of_run .host rfl (fun s => rfl) fun c h => ?_
  grind [Chip.perLine_formed, Chip.access_formed, Chip.serveBar2Read_formed]

theorem bar2Write_keepsForm (addr : Nat) (data : List Byte) (net : List (Nat × Bool)) : commandKeepsForm (.bar2Write addr data net) := by
  refine commandKeepsForm_of_run .host rfl (fun s => rfl) fun c h => ?_
  grind [Chip.perLine_formed, Chip.access_formed, Chip.serveBar2Write_formed]

theorem retentionEntry_keepsForm (group : Nat) : commandKeepsForm (.retentionEntry group) := by
  refine commandKeepsForm_of_run .fabric rfl (fun s => rfl) fun c h => ?_
  grind [Chip.enterRetention_formed, Chip.advanceTo_formed, Chip.setPhase_formed, Chip.isolateGroup_formed]

theorem retentionWakeDone_keepsForm (group : Nat) : commandKeepsForm (.retentionWakeDone group) := by
  refine commandKeepsForm_of_run .fabric rfl (fun s => rfl) fun c h => ?_
  grind [Chip.wakeGroup_formed, Chip.advanceTo_formed, Chip.groupServesHeld_formed, Chip.setGroup_formed]

theorem groupFillDone_keepsForm (group : Nat) : commandKeepsForm (.groupFillDone group) := by
  refine commandKeepsForm_of_run .fabric rfl (fun s => rfl) fun c h => ?_
  grind [Chip.groupServesHeld_formed, Chip.advanceTo_formed]

theorem btRegionStart_keepsForm (found : List (Nat × Bool)) : commandKeepsForm (.btRegionStart found) := by
  refine commandKeepsForm_of_run .fabric rfl (fun s => rfl) fun c h => ?_
  grind [Chip.dueRegion_formed, Chip.advanceTo_formed, Chip.wr_formed, Chip.findIn_formed, Chip.regionDone_formed,
    Chip.latch_formed, Chip.muslinUe_formed, Chip.formed_iff]

theorem btRegionEnd_keepsForm (bad : List (Nat × Nat × Nat)) : commandKeepsForm (.btRegionEnd bad) := by
  refine commandKeepsForm_of_run .fabric rfl (fun s => rfl) fun c h => ?_
  grind [Chip.repairColumn_formed, Chip.latch_formed, Chip.degrade_formed, Chip.regionDone_formed, Chip.wr_formed,
    foldl_formed, Chip.formed_iff]

theorem softRepairSweepDone_keepsForm (found : List (Nat × Bool)) : commandKeepsForm (.softRepairSweepDone found) := by
  refine commandKeepsForm_of_run .fabric rfl (fun s => rfl) fun c h => ?_
  grind [Chip.logRepair_formed, Chip.sweepReads_formed, Chip.nextSweep_formed]

theorem mslRepairApply_keepsForm : commandKeepsForm .mslRepairApply := by
  refine commandKeepsForm_of_run .host rfl (fun s => rfl) fun c h => ?_
  grind [Chip.wr_formed, Chip.repairResult_formed, Chip.startRepair_formed]

theorem matmul_keepsForm (stalls : Nat) (parity : Bool) : commandKeepsForm (.matmul stalls parity) := by
  refine commandKeepsForm_of_run .fabric rfl (fun s => rfl) fun c h => ?_
  grind [Chip.runTile_formed, Chip.setShape_formed, Chip.addStalls_formed, Chip.slotParity_formed, Chip.matBlock_formed,
    foldl_fst_formed]

theorem pin_keepsForm (stalls : Nat) : commandKeepsForm (.pin stalls) := by
  refine commandKeepsForm_of_run .fabric rfl (fun s => rfl) fun c h => ?_
  grind [Chip.runTile_formed, Chip.addStalls_formed, Chip.wr_formed, Chip.countPins_formed, Chip.clearSlots_formed]

theorem unpin_keepsForm (stalls : Nat) : commandKeepsForm (.unpin stalls) := by
  refine commandKeepsForm_of_run .fabric rfl (fun s => rfl) fun c h => ?_
  grind [Chip.runTile_formed, Chip.addStalls_formed, Chip.countPins_formed, Chip.wr_formed, Chip.freeSlots_formed]

theorem slotSave_keepsForm (stalls : Nat) (parity : Bool) : commandKeepsForm (.slotSave stalls parity) := by
  refine commandKeepsForm_of_run .fabric rfl (fun s => rfl) fun c h => ?_
  grind [Chip.runTile_formed, Chip.addStalls_formed, Chip.slotParity_formed, Chip.wr_formed, Chip.devWrite_formed]

theorem slotLoad_keepsForm (stalls : Nat) : commandKeepsForm (.slotLoad stalls) := by
  refine commandKeepsForm_of_run .fabric rfl (fun s => rfl) fun c h => ?_
  grind [Chip.runTile_formed, Chip.addStalls_formed, Chip.setSlot_formed, Chip.devRead_formed, Chip.wr_formed,
    foldl_fst_formed]

theorem columnTest_keepsForm (stalls : Nat) (failing : List Nat) (parity : Bool) : commandKeepsForm (.columnTest stalls failing parity) := by
  refine commandKeepsForm_of_run .fabric rfl (fun s => rfl) fun c h => ?_
  grind [Chip.runTile_formed, Chip.addStalls_formed, Chip.clearCells_formed, Chip.slotParity_formed, Chip.wr_formed,
    Chip.latchFault_formed, foldl_formed]

theorem scan_keepsForm (stalls : Nat) (slots : SlotFinding) : commandKeepsForm (.scan stalls slots) := by
  refine commandKeepsForm_of_run .fabric rfl (fun s => rfl) fun c h => ?_
  grind [Chip.runTile_formed, Chip.setShape_formed, Chip.addStalls_formed, Chip.scanRecord_formed]

theorem anchor_keepsForm (stalls : Nat) : commandKeepsForm (.anchor stalls) := by
  refine commandKeepsForm_of_run .fabric rfl (fun s => rfl) fun c h => ?_
  grind [Chip.runTile_formed, Chip.addStalls_formed, Chip.count_formed, Chip.touchReads_formed, Chip.freshId_formed,
    Chip.tornAt_formed, Chip.anchorCells_formed, Chip.streamWhole_formed]

theorem checkpoint_keepsForm (stalls : Nat) (parity : Bool) : commandKeepsForm (.checkpoint stalls parity) := by
  refine commandKeepsForm_of_run .fabric rfl (fun s => rfl) fun c h => ?_
  grind [Chip.runTile_formed, Chip.addStalls_formed, Chip.touchReads_formed, Chip.slotParity_formed, Chip.wr_formed,
    Chip.devWrite_formed, Chip.invalidate_formed]

theorem restore_keepsForm (stalls : Nat) : commandKeepsForm (.restore stalls) := by
  refine commandKeepsForm_of_run .fabric rfl (fun s => rfl) fun c h => ?_
  grind [Chip.runTile_formed, Chip.addStalls_formed, Chip.touchReads_formed, Chip.tornAt_formed, Chip.setSlot_formed,
    Chip.devWrite_formed, Chip.streamWhole_formed, foldl_fst_formed]

theorem kvResume_keepsForm (slot : Nat) : commandKeepsForm (.kvResume slot) := by
  refine commandKeepsForm_of_run .host rfl (fun s => rfl) fun c h => ?_
  grind [Chip.atuCmd_formed, Chip.setHold_formed, Chip.settle_formed]

theorem kvAbandon_keepsForm (slot : Nat) : commandKeepsForm (.kvAbandon slot) := by
  refine commandKeepsForm_of_run .host rfl (fun s => rfl) fun c h => ?_
  grind [Chip.atuCmd_formed, Chip.abandon_formed, Chip.setHold_formed, Chip.settle_formed, Chip.finishDesc_formed]

theorem atuFreePush_keepsForm (frame : BitVec 17) : commandKeepsForm (.atuFreePush frame) := by
  refine commandKeepsForm_of_run .host rfl (fun s => rfl) fun c h => ?_
  grind [Chip.devNat_formed, Chip.putFrame_formed, Chip.setFifo_formed, Chip.count_formed, Chip.latch_formed]

theorem attnDecode_keepsForm : commandKeepsForm .attnDecode := by
  refine commandKeepsForm_of_run .fabric rfl (fun s => rfl) fun c h => ?_
  grind [Chip.runTile_formed, Chip.setShape_formed, Chip.atuBegin_formed, Chip.failEntry_formed, Chip.decodeLoop_formed,
    Chip.freeAcc_formed]

theorem attnPrefill_keepsForm : commandKeepsForm .attnPrefill := by
  refine commandKeepsForm_of_run .fabric rfl (fun s => rfl) fun c h => ?_
  grind [Chip.runTile_formed, Chip.setShape_formed, Chip.atuBegin_formed, Chip.failEntry_formed, Chip.prefillAppends_formed,
    Chip.prefillSteps_formed, Chip.freeAcc_formed]

theorem unary_keepsForm (cluster stalls : Nat) (ecc : EccFinding) : commandKeepsForm (.unary cluster stalls ecc) := by
  refine commandKeepsForm_of_run .fabric rfl (fun s => rfl) fun c h => ?_
  grind [Chip.twOp_formed, Chip.unaryRow_formed]

theorem binary_keepsForm (cluster stalls : Nat) (ecc : EccFinding) : commandKeepsForm (.binary cluster stalls ecc) := by
  refine commandKeepsForm_of_run .fabric rfl (fun s => rfl) fun c h => ?_
  grind [Chip.twOp_formed, Chip.binaryRow_formed]

theorem ternary_keepsForm (cluster stalls : Nat) (ecc : EccFinding) : commandKeepsForm (.ternary cluster stalls ecc) := by
  refine commandKeepsForm_of_run .fabric rfl (fun s => rfl) fun c h => ?_
  grind [Chip.twOp_formed, Chip.ternaryRow_formed]

theorem reduce_keepsForm (cluster stalls : Nat) (ecc : EccFinding) : commandKeepsForm (.reduce cluster stalls ecc) := by
  refine commandKeepsForm_of_run .fabric rfl (fun s => rfl) fun c h => ?_
  grind [Chip.twOp_formed, Chip.reduceRow_formed]

theorem cumulative_keepsForm (cluster stalls : Nat) (ecc : EccFinding) : commandKeepsForm (.cumulative cluster stalls ecc) := by
  refine commandKeepsForm_of_run .fabric rfl (fun s => rfl) fun c h => ?_
  grind [Chip.twOp_formed, Chip.cumulativeRow_formed]

theorem softmax_keepsForm (cluster stalls : Nat) (ecc : EccFinding) : commandKeepsForm (.softmax cluster stalls ecc) := by
  refine commandKeepsForm_of_run .fabric rfl (fun s => rfl) fun c h => ?_
  grind [Chip.twOp_formed, Chip.softmaxRow_formed]

theorem norm_keepsForm (cluster stalls : Nat) (ecc : EccFinding) : commandKeepsForm (.norm cluster stalls ecc) := by
  refine commandKeepsForm_of_run .fabric rfl (fun s => rfl) fun c h => ?_
  grind [Chip.twOp_formed, Chip.normRow_formed]

theorem optim_keepsForm (cluster stalls : Nat) (ecc : EccFinding) : commandKeepsForm (.optim cluster stalls ecc) := by
  refine commandKeepsForm_of_run .fabric rfl (fun s => rfl) fun c h => ?_
  grind [Chip.twOp_formed, Chip.optimRow_formed]

theorem topk_keepsForm (cluster stalls : Nat) (ecc : EccFinding) : commandKeepsForm (.topk cluster stalls ecc) := by
  refine commandKeepsForm_of_run .fabric rfl (fun s => rfl) fun c h => ?_
  grind [Chip.twOp_formed, Chip.topkRow_formed]

theorem sample_keepsForm (cluster stalls : Nat) (ecc : EccFinding) : commandKeepsForm (.sample cluster stalls ecc) := by
  refine commandKeepsForm_of_run .fabric rfl (fun s => rfl) fun c h => ?_
  grind [Chip.twOp_formed, Chip.sampleRow_formed]

theorem convert_keepsForm (cluster stalls : Nat) (ecc : EccFinding) : commandKeepsForm (.convert cluster stalls ecc) := by
  refine commandKeepsForm_of_run .fabric rfl (fun s => rfl) fun c h => ?_
  grind [Chip.twOp_formed, Chip.convertRow_formed]

theorem layout_keepsForm (cluster stalls : Nat) (ecc : EccFinding) : commandKeepsForm (.layout cluster stalls ecc) := by
  refine commandKeepsForm_of_run .fabric rfl (fun s => rfl) fun c h => ?_
  grind [Chip.twOp_formed, Chip.layoutOp_formed]

theorem rope_keepsForm (cluster stalls : Nat) (ecc : EccFinding) : commandKeepsForm (.rope cluster stalls ecc) := by
  refine commandKeepsForm_of_run .fabric rfl (fun s => rfl) fun c h => ?_
  grind [Chip.twOp_formed, Chip.ropeOp_formed]

theorem loss_keepsForm (cluster stalls : Nat) (ecc : EccFinding) : commandKeepsForm (.loss cluster stalls ecc) := by
  refine commandKeepsForm_of_run .fabric rfl (fun s => rfl) fun c h => ?_
  grind [Chip.twOp_formed, Chip.lossRow_formed]

theorem backward_keepsForm (cluster stalls : Nat) (ecc : EccFinding) : commandKeepsForm (.backward cluster stalls ecc) := by
  refine commandKeepsForm_of_run .fabric rfl (fun s => rfl) fun c h => ?_
  grind [Chip.twOp_formed, Chip.backwardRow_formed]

theorem stats_keepsForm (cluster stalls : Nat) (ecc : EccFinding) : commandKeepsForm (.stats cluster stalls ecc) := by
  refine commandKeepsForm_of_run .fabric rfl (fun s => rfl) fun c h => ?_
  grind [Chip.twOp_formed, Chip.statsRow_formed]

theorem shadowScan_keepsForm (cluster stalls : Nat) (ecc : EccFinding) : commandKeepsForm (.shadowScan cluster stalls ecc) := by
  refine commandKeepsForm_of_run .fabric rfl (fun s => rfl) fun c h => ?_
  grind [Chip.twOp_formed, Chip.shadowRecord_formed]

theorem vmatmul_keepsForm (cluster stalls : Nat) (ecc : EccFinding) : commandKeepsForm (.vmatmul cluster stalls ecc) := by
  refine commandKeepsForm_of_run .fabric rfl (fun s => rfl) fun c h => ?_
  grind [Chip.twOp_formed, Chip.vmatmulRow_formed]

theorem copy_keepsForm (port : Nat) (error : HostReadError) : commandKeepsForm (.copy port error) := by
  refine commandKeepsForm_of_run .fabric rfl (fun s => rfl) fun c h => ?_
  grind [Chip.runTile_formed, Chip.hostError_formed, Chip.copyRows_formed]

theorem fill_keepsForm (port : Nat) : commandKeepsForm (.fill port) := by
  refine commandKeepsForm_of_run .fabric rfl (fun s => rfl) fun c h => ?_
  grind [Chip.runTile_formed, Chip.copyRows_formed]

theorem hostCompletionTimeout_keepsForm (port : Nat) : commandKeepsForm (.hostCompletionTimeout port) := by
  refine commandKeepsForm_of_run .fabric rfl (fun s => rfl) fun c h => ?_
  grind [Chip.onOp_formed, Chip.hostError_formed, Chip.setOp_formed]

theorem twlRemove_keepsForm (cluster : Nat) (force autoSpare : Bool) : commandKeepsForm (.twlRemove cluster force autoSpare) := by
  refine commandKeepsForm_of_run .host rfl (fun s => rfl) fun c h => ?_
  grind [Chip.twlStart_formed, Chip.twlRefuse_formed, Chip.twlBusy_formed, Chip.twlTrySpare_formed, Chip.twlDrain_formed]

theorem twlKatEnd_keepsForm (pass : Bool) : commandKeepsForm (.twlKatEnd pass) := by
  refine commandKeepsForm_of_run .fabric rfl (fun s => rfl) fun c h => ?_
  grind [Chip.advanceTo_formed, Chip.wr_formed, Chip.setCluster_formed, Chip.gngFollow_formed, Chip.latchFault_formed,
    Chip.twlDrain_formed, Chip.twlTrySpare_formed, Chip.twlDone_formed]

theorem queueEnable_keepsForm (queue : Nat) : commandKeepsForm (.queueEnable queue) := by
  refine commandKeepsForm_of_run .host rfl (fun s => rfl) fun c h => ?_
  grind [Chip.queueCmd_formed, Chip.qmgResult_formed, Chip.access_formed, Chip.wr_formed, Chip.enableQueue_formed]

theorem doorbellWrite_keepsForm (offset size : Nat) (value : Word) : commandKeepsForm (.doorbellWrite offset size value) := by
  refine commandKeepsForm_of_run .host rfl (fun s => rfl) fun c h => ?_
  grind [Chip.latch_formed, Chip.doorbell_formed]

theorem spillDrain_keepsForm (queue : Nat) : commandKeepsForm (.spillDrain queue) := by
  refine commandKeepsForm_of_run .fabric rfl (fun s => rfl) fun c h => ?_
  grind [Chip.drainSpill_formed]

theorem dramRead_keepsForm (addr unit : Nat) (errors : List (Nat × Byte)) (net : List (Nat × Bool)) : commandKeepsForm (.dramRead addr unit errors net) := by
  refine commandKeepsForm_of_run .fabric rfl (fun s => rfl) fun c h => ?_
  grind [Chip.dramAccess_formed, Chip.serveDramRead_formed]

theorem dramWrite_keepsForm (addr unit : Nat) (data : List Byte) (errors : List (Nat × Nat × Byte)) (net : List (Nat × Bool)) : commandKeepsForm (.dramWrite addr unit data errors net) := by
  refine commandKeepsForm_of_run .fabric rfl (fun s => rfl) fun c h => ?_
  grind [Chip.dramAccess_formed, Chip.serveDramWrite_formed]

theorem drcRetire_keepsForm (frameEn : Bool) (frame : BitVec 17) : commandKeepsForm (.drcRetire frameEn frame) := by
  refine commandKeepsForm_of_run .host rfl (fun s => rfl) fun c h => ?_
  grind [Chip.wr_formed, Chip.retireDone_formed, Chip.retireFrame_formed, Chip.startRetire_formed]

theorem drcPairRetire_keepsForm (pair : BitVec 3) : commandKeepsForm (.drcPairRetire pair) := by
  refine commandKeepsForm_of_run .host rfl (fun s => rfl) fun c h => ?_
  grind [Chip.pairDone_formed, Chip.loseDram_formed, Chip.clearRetired_formed, Chip.openPorts_formed,
    Chip.refreshDrcBusy_formed, Chip.formed_iff]

theorem selfRefreshExit_keepsForm : commandKeepsForm .selfRefreshExit := by
  refine commandKeepsForm_of_run .fabric rfl (fun s => rfl) fun c h => ?_
  grind [Chip.advanceTo_formed, Chip.setDomainState_formed, Chip.wr_formed, Chip.serveDram_formed, foldl_formed,
    Chip.formed_iff]

theorem csi2FrameStart_keepsForm (rx vc frameNumber : Nat) (hdr : HeaderCheck) : commandKeepsForm (.csi2FrameStart rx vc frameNumber hdr) := by
  refine commandKeepsForm_of_run .fabric rfl (fun s => rfl) fun c h => ?_
  grind [Chip.headerChecked_formed, Chip.count_formed, Chip.openFrame_formed, foldl_formed]

theorem csi2FrameEnd_keepsForm (rx vc : Nat) (hdr : HeaderCheck) : commandKeepsForm (.csi2FrameEnd rx vc hdr) := by
  refine commandKeepsForm_of_run .fabric rfl (fun s => rfl) fun c h => ?_
  grind [Chip.headerChecked_formed, Chip.count_formed, Chip.closeFrame_formed, foldl_formed]

theorem frameRecordWrite_keepsForm (pipe : Nat) : commandKeepsForm (.frameRecordWrite pipe) := by
  refine commandKeepsForm_of_run .fabric rfl (fun s => rfl) fun c h => ?_
  grind [Chip.devWrite_formed, Chip.count_formed, Chip.latch_formed, Chip.setPipe_formed, Chip.signalAdd_formed]

theorem sensorEthFrame_keepsForm (port sfdNs : Nat) (frame : List Byte) (fcsOk : Bool) : commandKeepsForm (.sensorEthFrame port sfdNs frame fcsOk) := by
  refine commandKeepsForm_of_run .fabric rfl (fun s => rfl) fun c h => ?_
  grind [Chip.ethDrop_formed, Chip.count_formed, Chip.rawEntry_formed, Chip.scanPacket_formed]

theorem scanClose_keepsForm (filter : Nat) : commandKeepsForm (.scanClose filter) := by
  refine commandKeepsForm_of_run .fabric rfl (fun s => rfl) fun c h => ?_
  grind [Chip.openScan_formed, Chip.advanceTo_formed, Chip.setFilter_formed, Chip.devWrite_formed, Chip.latch_formed,
    Chip.signalAdd_formed]

theorem spiTransactionEnd_keepsForm (port : Nat) (data : List Byte) : commandKeepsForm (.spiTransactionEnd port data) := by
  refine commandKeepsForm_of_run .fabric rfl (fun s => rfl) fun c h => ?_
  grind [Chip.advanceTo_formed, Chip.devWrite_formed, Chip.count_formed, Chip.setSpi_formed]

theorem batch_keepsForm (units stalls : Nat) : commandKeepsForm (.batch units stalls) := by
  refine commandKeepsForm_of_run .fabric rfl (fun s => rfl) fun c h => ?_
  grind [Chip.runTile_formed, Chip.batchStart_formed, Chip.batchSteps_formed]

theorem fuse_keepsForm (units stalls : Nat) : commandKeepsForm (.fuse units stalls) := by
  refine commandKeepsForm_of_run .fabric rfl (fun s => rfl) fun c h => ?_
  grind [Chip.runTile_formed, Chip.fuseRuns_formed, Chip.fuseStart_formed]

theorem trackImport_keepsForm : commandKeepsForm .trackImport := by
  refine commandKeepsForm_of_run .fabric rfl (fun s => rfl) fun c h => ?_
  grind [Chip.runTile_formed, Chip.loadCal_formed, Chip.runImport_formed]

theorem trackExport_keepsForm : commandKeepsForm .trackExport := by
  refine commandKeepsForm_of_run .fabric rfl (fun s => rfl) fun c h => ?_
  grind [Chip.runTile_formed, Chip.loadCal_formed, Chip.readTracks_formed, Chip.putRecords_formed, Chip.invalidate_formed,
    Chip.wr_formed]

theorem trackDelete_keepsForm (track : BitVec 16) : commandKeepsForm (.trackDelete track) := by
  refine commandKeepsForm_of_run .host rfl (fun s => rfl) fun c h => ?_
  grind [Chip.trackRequest_formed]

theorem trackConfirm_keepsForm (track : BitVec 16) : commandKeepsForm (.trackConfirm track) := by
  refine commandKeepsForm_of_run .host rfl (fun s => rfl) fun c h => ?_
  grind [Chip.trackRequest_formed]

theorem trackCmdDeferredApply_keepsForm : commandKeepsForm .trackCmdDeferredApply := by
  refine commandKeepsForm_of_run .fabric rfl (fun s => rfl) fun c h => ?_
  grind [Chip.trackCmd_formed]

theorem plan_keepsForm (stalls : Nat) : commandKeepsForm (.plan stalls) := by
  refine commandKeepsForm_of_run .fabric rfl (fun s => rfl) fun c h => ?_
  grind [Chip.runTile_formed, Chip.planTile_formed]

theorem tulRepair_keepsForm (stalls : Nat) : commandKeepsForm (.tulRepair stalls) := by
  refine commandKeepsForm_of_run .fabric rfl (fun s => rfl) fun c h => ?_
  grind [Chip.runTile_formed, Chip.planTile_formed]

theorem worldEdit_keepsForm (stalls : Nat) : commandKeepsForm (.worldEdit stalls) := by
  refine commandKeepsForm_of_run .fabric rfl (fun s => rfl) fun c h => ?_
  grind [Chip.runTile_formed, Chip.runEdit_formed]

theorem tulleEnable_keepsForm : commandKeepsForm .tulleEnable := by
  refine commandKeepsForm_of_run .host rfl (fun s => rfl) fun c h => ?_
  grind [Chip.tulEnable_formed]

theorem tulleReady_keepsForm : commandKeepsForm .tulleReady := by
  refine commandKeepsForm_of_run .fabric rfl (fun s => rfl) fun c h => ?_
  grind [Chip.writeOwn_formed, Chip.nextWorld_formed, Chip.latch_formed, Chip.wr_formed, Chip.formed_iff]

theorem cnvLoad_keepsForm (inst : Nat) : commandKeepsForm (.cnvLoad inst) := by
  refine commandKeepsForm_of_run .fabric rfl (fun s => rfl) fun c h => ?_
  grind [Chip.runTile_formed, Chip.runLoad_formed, Chip.bindSlot_formed]

theorem cnvSolve_keepsForm (inst stalls corrected : Nat) (uncorrectable : Bool) : commandKeepsForm (.cnvSolve inst stalls corrected uncorrectable) := by
  refine commandKeepsForm_of_run .fabric rfl (fun s => rfl) fun c h => ?_
  grind [Chip.count_formed, Chip.canvasFails_formed, Chip.latchFault_formed, Chip.runTile_formed, Chip.solveTile_formed]

theorem cnvUnload_keepsForm (inst : Nat) : commandKeepsForm (.cnvUnload inst) := by
  refine commandKeepsForm_of_run .fabric rfl (fun s => rfl) fun c h => ?_
  grind [Chip.runTile_formed, Chip.unbindSlot_formed]

theorem jerseyQueueTake_keepsForm (slot : Nat) : commandKeepsForm (.jerseyQueueTake slot) := by
  refine commandKeepsForm_of_run .fabric rfl (fun s => rfl) fun c h => ?_
  grind [Chip.muslinRead_formed, Chip.setQueue_formed, Chip.count_formed, Chip.setLane_formed, foldl_formed]

theorem tkuSet_keepsForm (force : Bool) : commandKeepsForm (.tkuSet force) := by
  refine commandKeepsForm_of_run .host rfl (fun s => rfl) fun c h => ?_
  grind [Chip.tkuDone_formed, Chip.stepTo_formed]

theorem tkuStep_keepsForm (force : Bool) : commandKeepsForm (.tkuStep force) := by
  refine commandKeepsForm_of_run .host rfl (fun s => rfl) fun c h => ?_
  grind [Chip.tkuDone_formed, Chip.stepBy_formed]

theorem forcePending_keepsForm : commandKeepsForm .forcePending := by
  refine commandKeepsForm_of_run .host rfl (fun s => rfl) fun c h => ?_
  grind [Chip.tkuDone_formed, Chip.stepBy_formed, Chip.setTkuState_formed, Chip.wr64_formed]

theorem offsetArrive_keepsForm (offset logSync : Int) (seen : Nat) : commandKeepsForm (.offsetArrive offset logSync seen) := by
  refine commandKeepsForm_of_run .fabric rfl (fun s => rfl) fun c h => ?_
  grind [Chip.offsetIn_formed]

theorem offsetSubmit_keepsForm (intervalUs : Nat) : commandKeepsForm (.offsetSubmit intervalUs) := by
  refine commandKeepsForm_of_run .host rfl (fun s => rfl) fun c h => ?_
  grind [Chip.offsetIn_formed]

theorem fieldFrameRx_keepsForm (port : Nat) (frame : List Byte) (fcsOk : Bool) : commandKeepsForm (.fieldFrameRx port frame fcsOk) := by
  refine commandKeepsForm_of_run .fabric rfl (fun s => rfl) fun c h => ?_
  grind [Chip.count_formed, Chip.latch_formed, Chip.streamFilter_formed, Chip.hostReceive_formed]

theorem hostTxProd_keepsForm (port : Nat) (value : Word) : commandKeepsForm (.hostTxProd port value) := by
  refine commandKeepsForm_of_run .host rfl (fun s => rfl) fun c h => ?_
  grind [Chip.hostTxProd_formed]

theorem hostTxFrameDone_keepsForm (port : Nat) : commandKeepsForm (.hostTxFrameDone port) := by
  refine commandKeepsForm_of_run .fabric rfl (fun s => rfl) fun c h => ?_
  grind [Chip.devRead_formed, Chip.latch_formed, Chip.count_formed, Chip.sendFrame_formed, Chip.devWrite_formed,
    Chip.readTxHead_formed, Chip.modFld_formed]

theorem domainStateSelect_keepsForm : commandKeepsForm .domainStateSelect := by
  refine commandKeepsForm_of_run .fabric rfl (fun s => rfl) fun c h => ?_
  grind [Chip.restDevice_formed, Chip.restDram_formed, Chip.applyState_formed, foldl_formed]

theorem domainWakeDone_keepsForm (domain : Nat) : commandKeepsForm (.domainWakeDone domain) := by
  refine commandKeepsForm_of_run .fabric rfl (fun s => rfl) fun c h => ?_
  grind [Chip.advanceTo_formed, Chip.setPwr_formed, Chip.setDomainState_formed, Chip.atuRestore_formed, Chip.settle_formed,
    Chip.wr_formed]

theorem frameDeadline_keepsForm (net : Nat) : commandKeepsForm (.frameDeadline net) := by
  refine commandKeepsForm_of_run .fabric rfl (fun s => rfl) fun c h => ?_
  grind [Chip.advanceTo_formed, Chip.setFrame_formed, Chip.formVerdict_formed, Chip.missGolden_formed, Chip.dropGolden_formed,
    Chip.gngFollow_formed]

theorem networkStale_keepsForm (net : Nat) : commandKeepsForm (.networkStale net) := by
  refine commandKeepsForm_of_run .fabric rfl (fun s => rfl) fun c h => ?_
  grind [Chip.advanceTo_formed, Chip.gngEnd_formed, Chip.setGng_formed, Chip.wr_formed]

theorem goldenSlot_keepsForm (net : Nat) : commandKeepsForm (.goldenSlot net) := by
  refine commandKeepsForm_of_run .fabric rfl (fun s => rfl) fun c h => ?_
  grind [Chip.setFrame_formed, Chip.advanceTo_formed, Chip.gngEnd_formed, Chip.missGolden_formed, Chip.setGng_formed,
    Chip.grantGolden_formed]

theorem goldenGrant_keepsForm (net : Nat) : commandKeepsForm (.goldenGrant net) := by
  refine commandKeepsForm_of_run .fabric rfl (fun s => rfl) fun c h => ?_
  grind [Chip.grantGolden_formed]

theorem goldenLatestExpire_keepsForm (net : Nat) : commandKeepsForm (.goldenLatestExpire net) := by
  refine commandKeepsForm_of_run .fabric rfl (fun s => rfl) fun c h => ?_
  grind [Chip.advanceTo_formed, Chip.gngEnd_formed, Chip.missGolden_formed, Chip.dropGolden_formed]

theorem gngFaultClear_keepsForm (bits : BitVec 5) : commandKeepsForm (.gngFaultClear bits) := by
  refine commandKeepsForm_of_run .host rfl (fun s => rfl) fun c h => ?_
  grind [Chip.clearGngFaults_formed]

theorem stageAbort_keepsForm : commandKeepsForm .stageAbort := by
  refine commandKeepsForm_of_run .host rfl (fun s => rfl) fun c h => ?_
  grind [Chip.zeroMuslin_formed, Chip.loseDram_formed, Chip.stageEnds_formed]

theorem domainRestart_keepsForm (domain : BitVec 5) : commandKeepsForm (.domainRestart domain) := by
  refine commandKeepsForm_of_run .host rfl (fun s => rfl) fun c h => ?_
  grind [Chip.domainResult_formed, Chip.wr_formed, Chip.failEngine_formed, Chip.gngFollow_formed, Chip.domainLoses_formed,
    foldl_formed, Chip.formed_iff]

theorem warmRestart_keepsForm : commandKeepsForm .warmRestart := by
  refine commandKeepsForm_of_run .host rfl (fun s => rfl) fun c h => ?_
  grind [Chip.wr_formed, Chip.fabricOff_formed, Chip.formed_iff]

theorem domainRestartDone_keepsForm (fail : BitVec 27) : commandKeepsForm (.domainRestartDone fail) := by
  refine commandKeepsForm_of_run .fabric rfl (fun s => rfl) fun c h => ?_
  grind [Chip.wr_formed, Chip.domainResult_formed, Chip.katMarks_formed, Chip.katBits_formed, Chip.katOut_formed,
    Chip.isolateDomain_formed, Chip.domainReturns_formed, Chip.gngFollow_formed, Chip.settle_formed, foldl_formed,
    Chip.formed_iff]

theorem standbyEntryDone_keepsForm : commandKeepsForm .standbyEntryDone := by
  refine commandKeepsForm_of_run .fabric rfl (fun s => rfl) fun c h => ?_
  grind [Chip.fabricOff_formed, Chip.formed_iff]

theorem standbyWakeDone_keepsForm : commandKeepsForm .standbyWakeDone := by
  refine commandKeepsForm_of_run .keeper rfl (fun s => rfl) fun c h => ?_
  grind [Chip.wr_formed, Chip.wakeRestart_formed, Chip.linkTrained_formed, Chip.formed_iff]

theorem warmRestartDone_keepsForm : commandKeepsForm .warmRestartDone := by
  refine commandKeepsForm_of_run .keeper rfl (fun s => rfl) fun c h => ?_
  grind [Chip.wakeRestart_formed, Chip.wr_formed, Chip.formed_iff]

/-- A note of when the scrubber read leaves the form alone. -/
theorem Chip.setScrubAt_formed {c : Chip} (h : c.formed) (t : Nat) : ({ c with msl := { c.msl with scrubAt := t } } : Chip).formed :=
  ⟨h.groups, h.muslin, h.host⟩

theorem patrolScrubRead_keepsForm (group : Option Nat) (found : List (Nat × Bool)) :
    commandKeepsForm (.patrolScrubRead group found) := by
  refine commandKeepsForm_of_run .fabric rfl (fun s => rfl) fun c h => formed_ite h ?_
  split
  next => exact Chip.scrubLines_formed (Chip.setScrubAt_formed (Chip.advanceTo_formed h _) _) _ _
  next g =>
    split
    next t _ => exact formed_ite (Chip.scrubLines_formed (Chip.advanceTo_formed h _) _ _) h
    next => exact h

theorem stageEnd_keepsForm (ms : Nat) : commandKeepsForm (.stageEnd ms) := by
  refine commandKeepsForm_of_run .fabric rfl (fun s => rfl) fun c h => ?_
  split
  next => exact h
  next i _ =>
    have hadvanced : ((c.advanceTo (c.bup.stageAt + 1000000 * ms)).wr R.BUP_ELAPSED_MS_MS ms).formed :=
      Chip.wr_formed (Chip.advanceTo_formed h _) _ _ _
    dsimp only
    split
    next n r hr => exact Chip.stageEnds_formed (Chip.stageRuns_formed hadvanced i hr) _ _
    next => exact hadvanced

/-- A forced service ends the suspended operations of its unit, or the unit's own. -/
theorem Chip.endWork_formed {c : Chip} (h : c.formed) (running : Bool) (l mine : List OpRun) (r : OpRun → RecInfo) (u st : Nat) :
    (if running then
      (mine.foldl (fun (c : Chip) o => c.finishDesc o.weave o.index (r o)) { c with dsp := { c.dsp with suspended := l } }).settle
      else c.failUnit u st).formed := by
  refine formed_ite (Chip.settle_formed ?_) (Chip.failUnit_formed h _ _)
  exact foldl_formed (fun c o hc => Chip.finishDesc_formed hc _ _ _) mine ⟨h.groups, h.muslin, h.host⟩

theorem cnvRemove_keepsForm (inst : Nat) (force : Bool) : commandKeepsForm (.cnvRemove inst force) := by
  refine commandKeepsForm_of_run .host rfl (fun s => rfl) fun c h => formed_ite h ?_
  refine formed_ite (Chip.wr_formed h _ _ _) ?_
  refine formed_ite (Chip.cnvRefuse_formed h _ _ _ _) ?_
  refine formed_ite (Chip.cnvRefuse_formed h _ _ _ _) ?_
  extract_lets +onlyGivenNames c₁ c₂ running mine
  have h₁ : c₁.formed := Chip.setCanvas_formed (Chip.cnvBegin_formed h _ _ _) _ _
  have h₂ : c₂.formed := formed_ite (Chip.moveSolves_formed h₁ _) h₁
  exact formed_ite h₁ (Chip.endWork_formed h₂ _ _ _ _ _ _)

/-! ## The invariant -/

theorem commandKeepsForm_of_not_pin {i : Instr} (hp : pinCommand i = false) : commandKeepsForm i := by
  cases i with
  | keeperSupplyOn | keeperSupplyLoss | sysResetAssert | sysResetRelease | refclkKprLoss | perstAssert | perstRelease
  | railOutOfWindow | railsRestored => cases hp
  | holdoverTimeout | saveDone | sessionExpire | journalMirror | tagPersist | estimateWindowEnd | pmbusRead | thermalSample
  | standbyWakePin | standbyWakeTime | repairAppendDone =>
    exact commandKeepsForm_of_apart .keeper rfl fun s => ⟨_, _, rfl, rfl⟩
  | odxRead o | odxDescribe o | odxOpen o | odxStage o | odxCommit o | odxAbort o | odxWrite o | odxNote o | odxSave o
  | clearImage o =>
    exact commandKeepsForm_of_runFor o (by cases o <;> rfl) fun s => ⟨_, _, rfl, rfl⟩
  | statClear | dspCtrlEnable | dmkSpareRequest | kvWrite | kvSwap | kvInvalidate | kvClearHeld | kvFence | twlTest
  | twlReturn | twlActivate | twlGngPairWrite | queueDisable | queueQuery | drcTrainStart | drcTrainRestore | cnvTest
  | cnvReturn | jrsSwap | jerseyDisable | tkuSnap | relock | txtsPop | standby | powerSequenceCheck | fuseLoad
  | clockIslandStart | keeperRestore | muslinTest | dramTraining | dramTest | repairApply | knownAnswerRuns | dictionaryLoad
  | queueSetup | bupReady | repairRecordAppend =>
    exact commandKeepsForm_of_apart .host rfl fun s => ⟨_, _, rfl, rfl⟩
  | registerWrite addr size data => exact registerWrite_keepsForm addr size data
  | islandStall island unit => exact islandStall_keepsForm island unit
  | controlTick => exact controlTick_keepsForm
  | commitInstant => exact commitInstant_keepsForm
  | submissionEntryTake => exact submissionEntryTake_keepsForm
  | descriptorFetch weave => exact descriptorFetch_keepsForm weave
  | descriptorStart unit => exact descriptorStart_keepsForm unit
  | tileEnd unit ns => exact tileEnd_keepsForm unit ns
  | operationResume unit => exact operationResume_keepsForm unit
  | operationComplete unit wrong => exact operationComplete_keepsForm unit wrong
  | dspCancel weaveId => exact dspCancel_keepsForm weaveId
  | dspSigAdd sig add => exact dspSigAdd_keepsForm sig add
  | dspSigWrite sig value => exact dspSigWrite_keepsForm sig value
  | nop weave index => exact nop_keepsForm weave index
  | waitUntil weave index => exact waitUntil_keepsForm weave index
  | waitUntilExpire weave index => exact waitUntilExpire_keepsForm weave index
  | sigSet weave index => exact sigSet_keepsForm weave index
  | timedLaunch entry => exact timedLaunch_keepsForm entry
  | muslinRead addr len unit found net => exact muslinRead_keepsForm addr len unit found net
  | muslinWrite addr unit data net => exact muslinWrite_keepsForm addr unit data net
  | bitSetWrite addr unit data net => exact bitSetWrite_keepsForm addr unit data net
  | bitClearWrite addr unit data net => exact bitClearWrite_keepsForm addr unit data net
  | eccWriteback => exact eccWriteback_keepsForm
  | hatomSet mask net => exact hatomSet_keepsForm mask net
  | hatomClr mask net => exact hatomClr_keepsForm mask net
  | bar2Read addr len found net => exact bar2Read_keepsForm addr len found net
  | bar2Write addr data net => exact bar2Write_keepsForm addr data net
  | patrolScrubRead group found => exact patrolScrubRead_keepsForm group found
  | retentionEntry group => exact retentionEntry_keepsForm group
  | retentionWakeDone group => exact retentionWakeDone_keepsForm group
  | groupFillDone group => exact groupFillDone_keepsForm group
  | btRegionStart found => exact btRegionStart_keepsForm found
  | btRegionEnd bad => exact btRegionEnd_keepsForm bad
  | softRepairSweepDone found => exact softRepairSweepDone_keepsForm found
  | mslRepairApply => exact mslRepairApply_keepsForm
  | matmul stalls parity => exact matmul_keepsForm stalls parity
  | pin stalls => exact pin_keepsForm stalls
  | unpin stalls => exact unpin_keepsForm stalls
  | slotSave stalls parity => exact slotSave_keepsForm stalls parity
  | slotLoad stalls => exact slotLoad_keepsForm stalls
  | columnTest stalls failing parity => exact columnTest_keepsForm stalls failing parity
  | scan stalls slots => exact scan_keepsForm stalls slots
  | anchor stalls => exact anchor_keepsForm stalls
  | checkpoint stalls parity => exact checkpoint_keepsForm stalls parity
  | restore stalls => exact restore_keepsForm stalls
  | kvResume slot => exact kvResume_keepsForm slot
  | kvAbandon slot => exact kvAbandon_keepsForm slot
  | atuFreePush frame => exact atuFreePush_keepsForm frame
  | attnDecode => exact attnDecode_keepsForm
  | attnPrefill => exact attnPrefill_keepsForm
  | unary cluster stalls ecc => exact unary_keepsForm cluster stalls ecc
  | binary cluster stalls ecc => exact binary_keepsForm cluster stalls ecc
  | ternary cluster stalls ecc => exact ternary_keepsForm cluster stalls ecc
  | reduce cluster stalls ecc => exact reduce_keepsForm cluster stalls ecc
  | cumulative cluster stalls ecc => exact cumulative_keepsForm cluster stalls ecc
  | softmax cluster stalls ecc => exact softmax_keepsForm cluster stalls ecc
  | norm cluster stalls ecc => exact norm_keepsForm cluster stalls ecc
  | optim cluster stalls ecc => exact optim_keepsForm cluster stalls ecc
  | topk cluster stalls ecc => exact topk_keepsForm cluster stalls ecc
  | sample cluster stalls ecc => exact sample_keepsForm cluster stalls ecc
  | convert cluster stalls ecc => exact convert_keepsForm cluster stalls ecc
  | layout cluster stalls ecc => exact layout_keepsForm cluster stalls ecc
  | rope cluster stalls ecc => exact rope_keepsForm cluster stalls ecc
  | loss cluster stalls ecc => exact loss_keepsForm cluster stalls ecc
  | backward cluster stalls ecc => exact backward_keepsForm cluster stalls ecc
  | stats cluster stalls ecc => exact stats_keepsForm cluster stalls ecc
  | shadowScan cluster stalls ecc => exact shadowScan_keepsForm cluster stalls ecc
  | vmatmul cluster stalls ecc => exact vmatmul_keepsForm cluster stalls ecc
  | copy port error => exact copy_keepsForm port error
  | fill port => exact fill_keepsForm port
  | hostCompletionTimeout port => exact hostCompletionTimeout_keepsForm port
  | twlRemove cluster force autoSpare => exact twlRemove_keepsForm cluster force autoSpare
  | twlKatEnd pass => exact twlKatEnd_keepsForm pass
  | queueEnable queue => exact queueEnable_keepsForm queue
  | doorbellWrite offset size value => exact doorbellWrite_keepsForm offset size value
  | spillDrain queue => exact spillDrain_keepsForm queue
  | dramRead addr unit errors net => exact dramRead_keepsForm addr unit errors net
  | dramWrite addr unit data errors net => exact dramWrite_keepsForm addr unit data errors net
  | drcRetire frameEn frame => exact drcRetire_keepsForm frameEn frame
  | drcPairRetire pair => exact drcPairRetire_keepsForm pair
  | selfRefreshExit => exact selfRefreshExit_keepsForm
  | csi2FrameStart rx vc frameNumber hdr => exact csi2FrameStart_keepsForm rx vc frameNumber hdr
  | csi2FrameEnd rx vc hdr => exact csi2FrameEnd_keepsForm rx vc hdr
  | frameRecordWrite pipe => exact frameRecordWrite_keepsForm pipe
  | sensorEthFrame port sfdNs frame fcsOk => exact sensorEthFrame_keepsForm port sfdNs frame fcsOk
  | scanClose filter => exact scanClose_keepsForm filter
  | spiTransactionEnd port data => exact spiTransactionEnd_keepsForm port data
  | batch units stalls => exact batch_keepsForm units stalls
  | fuse units stalls => exact fuse_keepsForm units stalls
  | trackImport => exact trackImport_keepsForm
  | trackExport => exact trackExport_keepsForm
  | trackDelete track => exact trackDelete_keepsForm track
  | trackConfirm track => exact trackConfirm_keepsForm track
  | trackCmdDeferredApply => exact trackCmdDeferredApply_keepsForm
  | plan stalls => exact plan_keepsForm stalls
  | tulRepair stalls => exact tulRepair_keepsForm stalls
  | worldEdit stalls => exact worldEdit_keepsForm stalls
  | tulleEnable => exact tulleEnable_keepsForm
  | tulleReady => exact tulleReady_keepsForm
  | cnvLoad inst => exact cnvLoad_keepsForm inst
  | cnvSolve inst stalls corrected uncorrectable => exact cnvSolve_keepsForm inst stalls corrected uncorrectable
  | cnvUnload inst => exact cnvUnload_keepsForm inst
  | cnvRemove inst force => exact cnvRemove_keepsForm inst force
  | jerseyQueueTake slot => exact jerseyQueueTake_keepsForm slot
  | tkuSet force => exact tkuSet_keepsForm force
  | tkuStep force => exact tkuStep_keepsForm force
  | forcePending => exact forcePending_keepsForm
  | offsetArrive offset logSync seen => exact offsetArrive_keepsForm offset logSync seen
  | offsetSubmit intervalUs => exact offsetSubmit_keepsForm intervalUs
  | fieldFrameRx port frame fcsOk => exact fieldFrameRx_keepsForm port frame fcsOk
  | hostTxProd port value => exact hostTxProd_keepsForm port value
  | hostTxFrameDone port => exact hostTxFrameDone_keepsForm port
  | domainStateSelect => exact domainStateSelect_keepsForm
  | domainWakeDone domain => exact domainWakeDone_keepsForm domain
  | frameDeadline net => exact frameDeadline_keepsForm net
  | networkStale net => exact networkStale_keepsForm net
  | goldenSlot net => exact goldenSlot_keepsForm net
  | goldenGrant net => exact goldenGrant_keepsForm net
  | goldenLatestExpire net => exact goldenLatestExpire_keepsForm net
  | gngFaultClear bits => exact gngFaultClear_keepsForm bits
  | stageEnd ms => exact stageEnd_keepsForm ms
  | stageAbort => exact stageAbort_keepsForm
  | domainRestart domain => exact domainRestart_keepsForm domain
  | warmRestart => exact warmRestart_keepsForm
  | domainRestartDone fail => exact domainRestartDone_keepsForm fail
  | standbyEntryDone => exact standbyEntryDone_keepsForm
  | standbyWakeDone => exact standbyWakeDone_keepsForm
  | warmRestartDone => exact warmRestartDone_keepsForm
  | _ => exact commandKeepsForm_of_apart .fabric rfl fun s => ⟨_, _, rfl, rfl⟩

theorem railOutOfWindow_keepsForm {s t : State} (rail ns : Nat) (h : exec (.railOutOfWindow rail ns) s = .next t)
    (hs : s.chip.formed) : t.chip.formed := by
  injection h with h
  subst h
  refine formed_ite (formed_ite (Chip.keeperLost_formed hs) hs) (formed_ite hs ?_)
  extract_lets +onlyGivenNames b c₁ c₂ p d c₃
  have h₁ : c₁.formed := ⟨hs.groups, hs.muslin, hs.host⟩
  refine formed_ite h₁ ?_
  have h₂ : c₂.formed := formed_ite (Chip.loseDram_formed h₁) (Chip.fabricOff_formed h₁ false)
  have h₃ : c₃.formed := ⟨h₂.groups, h₂.muslin, h₂.host⟩
  exact Chip.wr_formed (Chip.wr_formed (Chip.wr_formed (Chip.wr_formed h₃ _ _ _) _ _ _) _ _ _) _ _ _

theorem railsRestored_keepsForm {s t : State} (h : exec .railsRestored s = .next t) (hs : s.chip.formed) : t.chip.formed := by
  injection h with h
  subst h
  have hrails : ({ s.chip with pkg := { s.chip.pkg with rails := [] } } : Chip).formed := ⟨hs.groups, hs.muslin, hs.host⟩
  refine formed_ite hrails ?_
  have hwarm := Chip.wr_formed (Chip.formed.mk (c := { s.chip with pkg := { s.chip.pkg with rails := [] }
                                                                   pwr := { s.chip.pwr with thermtrip := false } })
    hs.groups hs.muslin hs.host) R.PWR_STATUS_TRIP 0 0
  exact formed_ite (Chip.fabricOn_formed hwarm _) hwarm

/-- A reset that leaves the package in some state of its own. -/
theorem Chip.resetFrom_pkg_formed {c : Chip} (h : c.formed) (p : Pkg) : ({ c.resetFrom with pkg := p } : Chip).formed := by
  have hreset := Chip.resetFrom_formed h
  exact ⟨hreset.groups, hreset.muslin, hreset.host⟩

theorem pinCommand_keepsForm {i : Instr} (hp : pinCommand i = true) {s t : State} (h : exec i s = .next t) (hs : s.chip.formed) :
    t.chip.formed := by
  cases i with
  | keeperSupplyOn | sysResetAssert =>
    injection h with h
    subst h
    exact formed_ite hs (Chip.resetFrom_pkg_formed hs _)
  | sysResetRelease =>
    injection h with h
    subst h
    exact formed_ite (Chip.resetFrom_pkg_formed hs _) hs
  | keeperSupplyLoss =>
    injection h with h
    subst h
    exact formed_ite (Chip.keeperLost_formed hs) hs
  | refclkKprLoss | perstRelease =>
    injection h with h
    subst h
    exact ⟨hs.groups, hs.muslin, hs.host⟩
  | railOutOfWindow rail ns => exact railOutOfWindow_keepsForm rail ns h hs
  | railsRestored => exact railsRestored_keepsForm h hs
  | perstAssert =>
    injection h with h
    subst h
    have hlow : ({ s.chip with hif := { s.chip.hif with perst := true, training := false } } : Chip).formed :=
      ⟨hs.groups, hs.muslin, hs.host⟩
    exact formed_ite (Chip.hostReset_formed (Chip.linkLost_formed hlow) _) hlow
  | _ => cases hp

theorem exec_keepsForm {i : Instr} {s t : State} (h : exec i s = .next t) (hs : s.chip.formed) : t.chip.formed := by
  cases hp : pinCommand i with
  | true => exact pinCommand_keepsForm hp h hs
  | false =>
    obtain ⟨ps, f, he, hf⟩ := commandKeepsForm_of_not_pin hp s
    cases hv : (serverOf i).up s.chip with
    | false =>
      rw [he, Server.run_down hv] at h
      cases h
      exact hs
    | true =>
      rw [he, Server.run_up hv] at h
      cases h
      cases hf with
      | inl hapart => exact hs.only_apart _ hapart
      | inr hkeeps => exact (hkeeps _ hs).only hs ps

/-- Settles O7: every function of the model that a command runs keeps the form, because bytes reach Muslin and host memory only
through `Memory.write`, `Memory.store` and `Memory.clear`, which list them in canonical form again, and groups are replaced one for one
(`length_modifyNth`). A command that reaches none of the three parts keeps it by what it may reach (`Chip.formed.only_apart`). -/
theorem memoriesKeepTheirForm : Obligations.MemoriesKeepTheirForm := by
  unfold Obligations.MemoriesKeepTheirForm
  intro s t h hs
  obtain ⟨c, q⟩ := s
  refine Chip.formed_iff.mp ?_
  cases q with
  | nil =>
    cases h
    exact formed_ite (Chip.formed_iff.mpr hs) (Chip.formed_iff.mpr hs)
  | cons i rest => exact exec_keepsForm (s := ⟨c, rest⟩) h (Chip.formed_iff.mpr hs)

end Sys2Proof.Machine

namespace Sys2Proof.Machine

/-! # Spare columns of Damask (R170 to R173) -/

/-! ## The registers of Damask, and what moves none of them -/

/-- The element lies among the registers of Damask (R175). -/
def Field.inDamask (g : Field) (j : Nat) : Bool := decide (8 * 0x400000 ≤ g.pos j) && decide (g.pos j + g.width ≤ 8 * 0x500000)

/-- Every register of Damask reads in `d` as it read in `c`. -/
def Chip.keepsDamask (c d : Chip) : Prop := ∀ (g : Field) (j : Nat), g.inDamask j = true → d.rd g j = c.rd g j

theorem Field.inDamask_of_place {g : Field} {j : Nat} (h : 0x400000 ≤ g.addr ∧ g.lo + g.width ≤ 64)
    (hj : g.addr + j * g.stride + 8 ≤ 0x500000) : g.inDamask j = true := by
  rw [Field.inDamask, Bool.and_eq_true, decide_eq_true_eq, decide_eq_true_eq, Field.pos]
  omega

theorem Chip.keepsDamask.trans {c d e : Chip} (h : c.keepsDamask d) (k : d.keepsDamask e) : c.keepsDamask e :=
  fun g j hg => (k g j hg).trans (h g j hg)

theorem Chip.keepsDamask_wr (c : Chip) {f : Field} (v i : Nat) (h : f.pos i + f.width ≤ 8 * 0x400000 ∨ 8 * 0x500000 ≤ f.pos i) :
    c.keepsDamask (c.wr f v i) := fun g j hg => by
  refine Chip.rd_wr_apart _ _ _ _ _ _ ?_
  simp only [Field.inDamask, Field.apart, Bool.and_eq_true, Bool.or_eq_true, decide_eq_true_eq] at hg ⊢
  omega

theorem Chip.keepsDamask_foldl {α : Type} {f : Chip → α → Chip} (h : ∀ (c : Chip) (a : α), c.keepsDamask (f c a)) (l : List α)
    (c : Chip) : c.keepsDamask (l.foldl f c) :=
  fun g j hg => foldl_keeps f (·.rd g j) (fun c a => h c a g j hg) l c

/-- No register of Damask is an event's bit or a pending bit of a vector. -/
theorem Field.inDamask_clearOfEvent {g : Field} {j : Nat} (h : g.inDamask j = true) {n : Nat} (hn : n < 2 ^ 16) :
    g.clearOfEvent j n = true := by
  simp only [Field.inDamask, Bool.and_eq_true, decide_eq_true_eq] at h
  have hpos := g.pos_eq j
  have hend : R.HIF_EVT_PEND_PEND.pos 0 + R.HIF_EVT_PEND_PEND.width = 116 := rfl
  simp only [Field.clearOfEvent, Field.apart, msixPba, Bool.and_eq_true, Bool.or_eq_true, decide_eq_true_eq, List.all_eq_true,
    bne_iff_ne]
  exact ⟨by omega, fun k _ => by omega⟩

theorem Chip.keepsDamask_raise (c : Chip) {n : Nat} (hn : n < 2 ^ 16) : c.keepsDamask (c.raise n) :=
  fun _ _ hg => Chip.rd_raise _ _ (Field.inDamask_clearOfEvent hg hn)

/-- The status bits that follow the units move no register of Damask but BUSY. -/
theorem Chip.refresh_damask (c : Chip) : ∃ b, c.keepsDamask b ∧
    (b.wr R.DMK_STATUS_BUSY (b2n ((c.op? 0).isSome || c.on R.DMK_STATUS_SWAP_ACTIVE))).keepsDamask c.refresh := by
  unfold Chip.refresh
  extract_lets busy c₁ c₂ c₃ c₄ c₅ c₆ kept c₇ c₈ c₉ c₁₀
  have h₂ : c.keepsDamask c₂ := (c.keepsDamask_wr _ _ (by decide)).trans (Chip.keepsDamask_wr _ _ _ (by decide))
  have hactive : c₂.on R.DMK_STATUS_SWAP_ACTIVE = c.on R.DMK_STATUS_SWAP_ACTIVE := by
    rw [Chip.on, h₂ _ _ (by decide), Chip.on]
  refine ⟨c₂, h₂, ?_⟩
  rw [← hactive]
  have h₄ : c₃.keepsDamask c₄ := c₃.keepsDamask_wr _ _ (by decide)
  have h₅ : c₄.keepsDamask c₅ := Chip.keepsDamask_foldl (fun c k => by
    have hplace : ∀ f : Field, 0x500000 ≤ f.addr → 8 * 0x500000 ≤ f.pos k := fun f hf => by
      rw [Field.pos]
      omega
    exact ((c.keepsDamask_wr _ _ (.inr (hplace _ (by decide)))).trans
      (Chip.keepsDamask_wr _ _ _ (.inr (hplace _ (by decide))))).trans
      (Chip.keepsDamask_wr _ _ _ (.inr (hplace _ (by decide))))) _ c₄
  have h₈ : c₅.keepsDamask c₈ := ((c₅.keepsDamask_wr _ _ (by decide)).trans (Chip.keepsDamask_wr _ _ _ (by decide))).trans
    (Chip.keepsDamask_wr _ _ _ (by decide))
  exact ((h₄.trans h₅).trans h₈).trans (((c₈.keepsDamask_wr _ _ (by decide)).trans (Chip.keepsDamask_wr _ _ _ (by decide))).trans
    (Chip.keepsDamask_wr _ _ _ (by decide)))

theorem Chip.rd_refresh (c : Chip) {g : Field} {j : Nat} (hg : g.inDamask j = true) (hb : R.DMK_STATUS_BUSY.apart 0 g j = true) :
    c.refresh.rd g j = c.rd g j := by
  obtain ⟨b, hbefore, hafter⟩ := c.refresh_damask
  rw [hafter g j hg, Chip.rd_wr_apart _ _ _ _ _ _ hb, hbefore g j hg]

theorem Chip.on_refresh_busy (c : Chip) :
    c.refresh.on R.DMK_STATUS_BUSY = ((c.op? 0).isSome || c.on R.DMK_STATUS_SWAP_ACTIVE) := by
  obtain ⟨b, -, hafter⟩ := c.refresh_damask
  rw [Chip.on, hafter _ _ (by decide), ← Chip.on, Chip.on_wr_self]
  cases (c.op? 0).isSome || c.on R.DMK_STATUS_SWAP_ACTIVE <;> rfl

/-! ## The journal's newest record (R510, R512) -/

theorem Chip.journalled_journal (c : Chip) (f : JournalFields) : c.journalled (c.journal f) f := by
  refine ⟨?_, ?_, ?_⟩
  · rw [Chip.now_congr c _ (Chip.journal_tku c f), Chip.journal, Chip.journalAt, Chip.setEntry_odx, Chip.setEntry_odx]
    rfl
  · rw [Chip.journal, Chip.journalAt, Chip.setEntry_odx, Chip.setEntry_odx]
  · rw [Chip.journal, Chip.journalAt, Chip.entry_setEntry_other _ _ _ _ _ _ (by decide), Chip.entry_setEntry_self]

/-- A record stands in every chip with the same journal, time and entries, and beside every chip with the same next SEQ. -/
theorem Chip.journalled.congr {b c d e : Chip} {f : JournalFields} (h : c.journalled d f) (hb : b.odx = c.odx) (ho : e.odx = d.odx)
    (hn : e.now = d.now) (hd : e.dict = d.dict) : b.journalled e f := by
  obtain ⟨hhead, hseq, hentry⟩ := h
  rw [Chip.journalled, hb, ho, hn, Chip.entry_congr d e _ _ hd]
  exact ⟨hhead, hseq, hentry⟩

/-- The record of a swap command on base column `column` (R173, R511). -/
def swapRecord (column result : Nat) : JournalFields :=
  { kind := 0x0B, port := 0, status := result, extra := 0x400020 + ((column + 256) <<< 32) }

theorem Chip.swapResult_eq (c : Chip) {column : Nat} (h : column < 256) (result : Nat) :
    c.swapResult column result = (c.wr R.DMK_SPARE_CMD_RESULT result).journal (swapRecord column result) := by
  have hvalue : bits (column + 256) 0 32 = column + 256 := Nat.mod_eq_of_lt (show column + 256 < 2 ^ 32 by omega)
  rw [Chip.swapResult, Chip.journalService, hvalue]
  rfl

theorem Chip.swapResult_regs (c : Chip) (column result : Nat) :
    (c.swapResult column result).regs = (c.wr R.DMK_SPARE_CMD_RESULT result).regs := Chip.journalService_regs _ _ _ _

theorem Chip.journalled_swapResult (c : Chip) {column : Nat} (h : column < 256) (result : Nat) :
    c.journalled (c.swapResult column result) (swapRecord column result) := by
  rw [Chip.swapResult_eq c h]
  exact ((c.wr _ _).journalled_journal _).congr rfl rfl rfl rfl

theorem Chip.swapResult_within (c : Chip) (column result : Nat) : c.within (c.swapResult column result) [.regs, .dict, .odx] :=
  Chip.within_step _ (Chip.within_mono _ _ _ _ (c.wr_within _ _ _) rfl) (Chip.journal_within _ _) rfl

/-! ## Answers whose chip is named -/

/-- A host access whose effect lies within the parts it may reach answers with that effect. -/
theorem answers_runHost_chip {s : State} {i : Instr} {ps : List Part} {f : Chip → Chip} {d : Chip} {P : Chip → Prop}
    (hh : s.chip.heard = true) (e : exec i s = s.runHost ps f) (hd : f s.chip = d) (hw : s.chip.within d ps) (hp : P d) :
    Answers s i P := by
  have honly : d.only ps s.chip = d := hw
  exact ⟨d, by rw [e, State.runHost_heard _ _ _ hh, hd, honly], hp⟩

/-- A command whose effect lies within the parts it may reach answers with that effect. -/
theorem answers_run_chip {s : State} {i : Instr} {ps : List Part} {f : Chip → Chip} {d : Chip} {P : Chip → Prop}
    (ha : s.chip.awake = true) (e : exec i s = s.run ps f) (hd : f s.chip = d) (hw : s.chip.within d ps) (hp : P d) :
    Answers s i P := by
  have honly : d.only ps s.chip = d := hw
  exact ⟨d, by rw [e, State.run_awake _ _ _ ha, hd, honly], hp⟩

/-! ## The request (R170, R173) -/

/-- The effect of DMK_SPARE_REQUEST. -/
def Chip.spareRequest (c : Chip) (col : Nat) : Chip :=
  let b := c.wr R.DMK_SPARE_CMD_COLUMN col
  if b.on R.DMK_STATUS_SWAP_PENDING || b.on R.DMK_STATUS_SWAP_ACTIVE then b.wr R.DMK_SPARE_CMD_RESULT 5
  else if b.on R.DMK_SPARE_MAP_IN_USE (col / 32) && b.rd R.DMK_SPARE_MAP_REPLACED (col / 32) == col % 32 then b.swapResult col 3
  else if b.on R.DMK_SPARE_MAP_IN_USE (col / 32) || b.on R.DMK_SPARE_MAP_SPARE_BAD (col / 32) then b.swapResult col 2
  else
    let d := b.wr R.DMK_STATUS_SWAP_PENDING 1
    { d with dmk := { d.dmk with swapColumn := col, swapRequested := d.now, swapUrgent := false } }

theorem exec_dmkSpareRequest (s : State) (column : BitVec 8) : exec (.dmkSpareRequest column) s =
    s.runHost [.regs, .dict, .dmk, .odx] (fun c => c.spareRequest column.toNat) := rfl

/-- The spare map and the pins lie behind DMK_STATUS and DMK_SPARE_CMD (R175). -/
theorem Field.command_apart {f g : Field} (hf : f.addr ≤ 0x400020 ∧ f.stride = 0 ∧ f.lo + f.width ≤ 32) (hg : 0x400040 ≤ g.addr)
    (j : Nat) : f.apart 0 g j = true := by
  obtain ⟨haddr, hstride, hbits⟩ := hf
  rw [Field.apart, Bool.or_eq_true, decide_eq_true_eq, decide_eq_true_eq, Field.pos, Field.pos, hstride]
  omega

/-- The request's tests read what they read before COLUMN was written. -/
theorem Chip.spareRequest_eq (c : Chip) (col : Nat) : c.spareRequest col =
    if c.on R.DMK_STATUS_SWAP_PENDING || c.on R.DMK_STATUS_SWAP_ACTIVE then
      (c.wr R.DMK_SPARE_CMD_COLUMN col).wr R.DMK_SPARE_CMD_RESULT 5
    else if c.on R.DMK_SPARE_MAP_IN_USE (col / 32) && c.rd R.DMK_SPARE_MAP_REPLACED (col / 32) == col % 32 then
      (c.wr R.DMK_SPARE_CMD_COLUMN col).swapResult col 3
    else if c.on R.DMK_SPARE_MAP_IN_USE (col / 32) || c.on R.DMK_SPARE_MAP_SPARE_BAD (col / 32) then
      (c.wr R.DMK_SPARE_CMD_COLUMN col).swapResult col 2
    else { (c.wr R.DMK_SPARE_CMD_COLUMN col).wr R.DMK_STATUS_SWAP_PENDING 1 with
      dmk := { c.dmk with swapColumn := col, swapRequested := c.now, swapUrgent := false } } := by
  unfold Chip.spareRequest
  extract_lets b d
  have hpending : b.on R.DMK_STATUS_SWAP_PENDING = c.on R.DMK_STATUS_SWAP_PENDING := Chip.on_wr_apart _ _ _ _ _ _ (by decide)
  have hactive : b.on R.DMK_STATUS_SWAP_ACTIVE = c.on R.DMK_STATUS_SWAP_ACTIVE := Chip.on_wr_apart _ _ _ _ _ _ (by decide)
  have hmap : ∀ f : Field, 0x400040 ≤ f.addr → b.rd f (col / 32) = c.rd f (col / 32) := fun f hf =>
    Chip.rd_wr_apart _ _ _ _ _ _ (Field.command_apart (by decide) hf _)
  have hused : b.on R.DMK_SPARE_MAP_IN_USE (col / 32) = c.on R.DMK_SPARE_MAP_IN_USE (col / 32) := by
    rw [Chip.on, hmap _ (by decide), Chip.on]
  have hbad : b.on R.DMK_SPARE_MAP_SPARE_BAD (col / 32) = c.on R.DMK_SPARE_MAP_SPARE_BAD (col / 32) := by
    rw [Chip.on, hmap _ (by decide), Chip.on]
  rw [hpending, hactive, hused, hbad, hmap _ (by decide)]
  rfl

/-- What DMK_SPARE_CMD reads after a request that is answered at once, and that no other register moved. -/
theorem Chip.spareCmd_answered {c d : Chip} {col result : Nat} (hc : col < 256) (hr : result < 8)
    (h : d.regs = ((c.wr R.DMK_SPARE_CMD_COLUMN col).wr R.DMK_SPARE_CMD_RESULT result).regs) :
    d.rd R.DMK_SPARE_CMD_RESULT = result ∧ d.rd R.DMK_SPARE_CMD_COLUMN = col ∧
      c.regsKept d [(R.DMK_SPARE_CMD_RESULT, 0), (R.DMK_SPARE_CMD_COLUMN, 0)] := by
  have hd : ∀ f i, d.rd f i = ((c.wr R.DMK_SPARE_CMD_COLUMN col).wr R.DMK_SPARE_CMD_RESULT result).rd f i :=
    fun f i => Chip.rd_congr _ _ f i h
  refine ⟨?_, ?_, fun f i hf => ?_⟩
  · rw [hd, Chip.rd_wr_self]
    exact Nat.mod_eq_of_lt hr
  · rw [hd, Chip.rd_wr_apart _ _ _ _ _ _ (by decide), Chip.rd_wr_self]
    exact Nat.mod_eq_of_lt hc
  · simp only [List.all_cons, List.all_nil, Bool.and_true, Bool.and_eq_true] at hf
    obtain ⟨hresult, hcolumn⟩ := hf
    rw [hd, Chip.rd_wr_apart _ _ _ _ _ _ ((Field.apart_comm _ _ _ _).trans hresult),
      Chip.rd_wr_apart _ _ _ _ _ _ ((Field.apart_comm _ _ _ _).trans hcolumn)]

/-- What the statement says of a request that is answered at once. -/
def Chip.spareAnswered (c : Chip) (col result : Nat) (d : Chip) : Prop :=
  d.rd R.DMK_SPARE_CMD_RESULT = result ∧ d.rd R.DMK_SPARE_CMD_COLUMN = col ∧
    c.regsKept d [(R.DMK_SPARE_CMD_RESULT, 0), (R.DMK_SPARE_CMD_COLUMN, 0)] ∧
    (result = 5 → c.within d [.regs]) ∧
    (result ≠ 5 → c.within d [.regs, .dict, .odx] ∧ c.journalled d (swapRecord col result))

/-- Result 5: nothing but DMK_SPARE_CMD changes. -/
theorem spareRequest_answers_busy {s : State} {column : BitVec 8} (hh : s.chip.heard = true)
    (h : (s.chip.on R.DMK_STATUS_SWAP_PENDING || s.chip.on R.DMK_STATUS_SWAP_ACTIVE) = true) :
    Answers s (.dmkSpareRequest column) (s.chip.spareAnswered column.toNat 5) := by
  obtain ⟨hresult, hcolumn, hkept⟩ := Chip.spareCmd_answered (c := s.chip) column.isLt (by decide : 5 < 8) rfl
  have he := (s.chip.spareRequest_eq column.toNat).trans (if_pos h)
  exact answers_runHost_chip hh (exec_dmkSpareRequest s column) he rfl
    ⟨hresult, hcolumn, hkept, fun _ => rfl, fun hne => absurd rfl hne⟩

/-- Results 2 and 3: the refused request is journalled. -/
theorem spareRequest_answers_refused {s : State} {column : BitVec 8} {result : Nat} (hh : s.chip.heard = true)
    (hr : result < 8) (hne : result ≠ 5) (he : s.chip.spareRequest column.toNat =
      (s.chip.wr R.DMK_SPARE_CMD_COLUMN column.toNat).swapResult column.toNat result) :
    Answers s (.dmkSpareRequest column) (s.chip.spareAnswered column.toNat result) := by
  set b := s.chip.wr R.DMK_SPARE_CMD_COLUMN column.toNat
  obtain ⟨hresult, hcolumn, hkept⟩ := Chip.spareCmd_answered column.isLt hr (b.swapResult_regs column.toNat result)
  have hwithin : s.chip.within (b.swapResult column.toNat result) [.regs, .dict, .odx] :=
    Chip.within_step _ (Chip.within_mono _ _ _ _ (s.chip.wr_within _ _ _) rfl) (b.swapResult_within _ _) rfl
  have hrecord : s.chip.journalled (b.swapResult column.toNat result) (swapRecord column.toNat result) :=
    (b.journalled_swapResult column.isLt result).congr rfl rfl rfl rfl
  exact answers_runHost_chip hh (exec_dmkSpareRequest s column) he (Chip.within_mono _ _ _ _ hwithin rfl)
    ⟨hresult, hcolumn, hkept, fun h5 => absurd h5 hne, fun _ => ⟨hwithin, hrecord⟩⟩

/-- Otherwise the swap waits. -/
theorem spareRequest_answers_waits {s : State} {column : BitVec 8} (hh : s.chip.heard = true)
    (hidle : (s.chip.on R.DMK_STATUS_SWAP_PENDING || s.chip.on R.DMK_STATUS_SWAP_ACTIVE) = false)
    (hused : s.chip.on R.DMK_SPARE_MAP_IN_USE (column.toNat / 32) = false)
    (hbad : s.chip.on R.DMK_SPARE_MAP_SPARE_BAD (column.toNat / 32) = false) :
    Answers s (.dmkSpareRequest column) (fun d => s.chip.within d [.regs, .dmk] ∧ d.on R.DMK_STATUS_SWAP_PENDING = true ∧
      d.dmk = { s.chip.dmk with swapColumn := column.toNat, swapRequested := s.chip.now, swapUrgent := false }) := by
  have he := s.chip.spareRequest_eq column.toNat
  rw [hidle, hused, hbad] at he
  exact answers_runHost_chip hh (exec_dmkSpareRequest s column) he rfl ⟨rfl, Chip.on_wr_self _ _ _ _, rfl⟩

/-! ## The start (R170, R171) -/

theorem Chip.beginSwap_within (c : Chip) : c.within c.beginSwap [.regs, .dmk] := rfl

theorem Chip.beginSwap_status (c : Chip) : c.beginSwap.on R.DMK_STATUS_SWAP_PENDING = false ∧
    c.beginSwap.on R.DMK_STATUS_SWAP_ACTIVE = true ∧ c.beginSwap.on R.DMK_STATUS_BUSY = true := by
  unfold Chip.beginSwap
  extract_lets c₁ c₂
  have hpending : c₂.on R.DMK_STATUS_SWAP_PENDING = false :=
    (Chip.on_wr_apart c₁ _ _ _ _ _ (by decide)).trans (Chip.on_wr_self _ _ _ _)
  have hactive : c₂.on R.DMK_STATUS_SWAP_ACTIVE = true := Chip.on_wr_self c₁ _ _ _
  refine ⟨?_, ?_, ?_⟩
  · rw [Chip.on, Chip.rd_refresh _ (by decide) (by decide)]
    exact hpending
  · rw [Chip.on, Chip.rd_refresh _ (by decide) (by decide)]
    exact hactive
  · rw [Chip.on_refresh_busy]
    exact (congrArg _ hactive).trans (Bool.or_true _)

theorem exec_spareSwapStart (s : State) : exec .spareSwapStart s = s.run [.regs, .dmk] (fun c =>
    if c.on R.DMK_STATUS_SWAP_PENDING && c.damaskQuiet && (c.dmk.swapUrgent || (c.readyFor (· == 0)).isEmpty)
    then c.beginSwap else c) := rfl

/-- A swap that has waited 10 ms: it starts between two operations. -/
def Chip.swapOverdue (c : Chip) : Chip :=
  if c.damaskQuiet then c.beginSwap else { c with dmk := { c.dmk with swapUrgent := true } }

theorem exec_spareSwapWaitTimeout (s : State) : exec .spareSwapWaitTimeout s = s.run [.regs, .tku, .dmk] (fun c =>
    if c.on R.DMK_STATUS_SWAP_PENDING then (c.advanceTo (c.dmk.swapRequested + 10000000)).swapOverdue else c) := rfl

theorem Chip.swapOverdue_quiet {c : Chip} (h : c.damaskQuiet = true) : c.within c.swapOverdue [.regs, .dmk] ∧
    c.swapOverdue.now = c.now ∧ c.swapOverdue.on R.DMK_STATUS_SWAP_PENDING = false ∧
    c.swapOverdue.on R.DMK_STATUS_SWAP_ACTIVE = true ∧
    c.swapOverdue.dmk = { c.dmk with swapStarted := c.swapOverdue.now, swapUrgent := false } := by
  obtain ⟨hpending, hactive, -⟩ := c.beginSwap_status
  unfold Chip.swapOverdue
  rw [if_pos h]
  exact ⟨c.beginSwap_within, rfl, hpending, hactive, rfl⟩

theorem Chip.swapOverdue_busy {c : Chip} (h : c.damaskQuiet = false) :
    c.within c.swapOverdue [.dmk] ∧ c.swapOverdue.now = c.now ∧ c.swapOverdue.dmk = { c.dmk with swapUrgent := true } := by
  unfold Chip.swapOverdue
  rw [h, if_neg Bool.false_ne_true]
  exact ⟨rfl, rfl, rfl⟩

theorem Chip.damaskQuiet_advanceTo (c : Chip) (t : Nat) : (c.advanceTo t).damaskQuiet = c.damaskQuiet := by
  rw [Chip.damaskQuiet, Chip.op?, Chip.op?, Chip.advanceTo_dsp]
  rfl

section
variable {s : State} (ha : s.chip.awake = true) (hp : s.chip.on R.DMK_STATUS_SWAP_PENDING = true)
include ha hp

theorem spareSwapStart_answers (hquiet : s.chip.damaskQuiet = true) (hready : s.chip.readyFor (· == 0) = []) :
    Answers s .spareSwapStart (fun d => s.chip.within d [.regs, .dmk] ∧ d.on R.DMK_STATUS_SWAP_PENDING = false ∧
      d.on R.DMK_STATUS_SWAP_ACTIVE = true ∧ d.on R.DMK_STATUS_BUSY = true ∧
      d.dmk = { s.chip.dmk with swapStarted := s.chip.now, swapUrgent := false }) := by
  obtain ⟨hpending, hactive, hbusy⟩ := s.chip.beginSwap_status
  refine answers_run_chip ha (exec_spareSwapStart s) (if_pos ?_) s.chip.beginSwap_within
    ⟨s.chip.beginSwap_within, hpending, hactive, hbusy, rfl⟩
  rw [hp, hquiet, hready, List.isEmpty_nil, Bool.or_true]
  rfl

theorem spareSwapStart_waits (hbusy : s.chip.damaskQuiet = false) : Answers s .spareSwapStart (fun d => d = s.chip) := by
  refine answers_run_chip ha (exec_spareSwapStart s) (if_neg ?_) (Chip.within_refl _ _) rfl
  rw [hp, hbusy]
  exact Bool.false_ne_true

theorem spareSwapWaitTimeout_urgent (hbusy : s.chip.damaskQuiet = false) :
    Answers s .spareSwapWaitTimeout (fun d => s.chip.within d [.tku, .dmk] ∧
      d.now = max s.chip.now (s.chip.dmk.swapRequested + 10000000) ∧ d.dmk = { s.chip.dmk with swapUrgent := true }) := by
  obtain ⟨hwithin, hnow, hdmk⟩ := Chip.swapOverdue_busy
    ((s.chip.damaskQuiet_advanceTo (s.chip.dmk.swapRequested + 10000000)).trans hbusy)
  rw [Chip.advanceTo_dmk] at hdmk
  have hframe := Chip.within_step [.dmk] (Chip.within_mono _ _ _ [.tku, .dmk] (s.chip.advanceTo_within _) rfl) hwithin rfl
  exact answers_run_chip ha (exec_spareSwapWaitTimeout s) (if_pos hp) (Chip.within_mono _ _ _ _ hframe rfl) 
    ⟨hframe, hnow.trans (s.chip.now_advanceTo _), hdmk⟩

theorem spareSwapWaitTimeout_answers (hquiet : s.chip.damaskQuiet = true) :
    Answers s .spareSwapWaitTimeout (fun d => s.chip.within d [.regs, .tku, .dmk] ∧
      d.now = max s.chip.now (s.chip.dmk.swapRequested + 10000000) ∧ d.on R.DMK_STATUS_SWAP_PENDING = false ∧
      d.on R.DMK_STATUS_SWAP_ACTIVE = true ∧ d.dmk = { s.chip.dmk with swapStarted := d.now, swapUrgent := false }) := by
  obtain ⟨hwithin, hnow, hpending, hactive, hdmk⟩ := Chip.swapOverdue_quiet
    ((s.chip.damaskQuiet_advanceTo (s.chip.dmk.swapRequested + 10000000)).trans hquiet)
  rw [Chip.advanceTo_dmk] at hdmk
  have hframe := Chip.within_step [.regs, .dmk] (Chip.within_mono _ _ _ [.regs, .tku, .dmk] (s.chip.advanceTo_within _) rfl) hwithin rfl
  exact answers_run_chip ha (exec_spareSwapWaitTimeout s) (if_pos hp) hframe
    ⟨hframe, hnow.trans (s.chip.now_advanceTo _), hpending, hactive, hdmk⟩

end

/-! ## The end (R171 to R173) -/

/-- The spare map after a swap of base column `col` that passed or failed. -/
def Chip.recordSwap (c : Chip) (col : Nat) (pass : Bool) : Chip :=
  if pass then
    ((c.wr R.DMK_SPARE_MAP_REPLACED (col % 32) (col / 32)).wr R.DMK_SPARE_MAP_IN_USE 1 (col / 32)).wr R.DMK_SPARE_MAP_SOURCE 1 (col / 32)
  else c.wr R.DMK_SPARE_MAP_SPARE_BAD 1 (col / 32)

/-- The chip at the end of a swap of base column `col`, before the result is written. -/
def Chip.swapped (c : Chip) (col : Nat) (pass : Bool) (bad : List Nat) : Chip :=
  (((c.advanceTo (c.dmk.swapStarted + 40000)).swapParity col bad).recordSwap col pass).wr R.DMK_STATUS_SWAP_ACTIVE 0

/-- The RESULT of a swap that passed or failed (R173). -/
def swapVerdict (pass : Bool) : Nat := if pass then 1 else 4

/-- The effect of SPARE_SWAP_END while a swap of base column `col` runs. -/
def Chip.endSwap (c : Chip) (col : Nat) (pass : Bool) (bad : List Nat) : Chip :=
  (((c.swapped col pass bad).swapResult col (swapVerdict pass)).raise 4).refresh

/-- The parts that SPARE_SWAP_END may reach. -/
def Parts.swapEnd : List Part := [.regs, .dict, .tku, .odx, .sent]

theorem exec_spareSwapEnd (s : State) (pass : Bool) (bad : List Nat) :
    exec (.spareSwapEnd pass bad) s = s.run Parts.swapEnd (fun c =>
    if c.on R.DMK_STATUS_SWAP_ACTIVE then
      c.endSwap (c.advanceTo (c.dmk.swapStarted + 40000)).dmk.swapColumn pass bad
    else c) := rfl

/-- The spare map is changed in its own registers only. -/
theorem Chip.rd_recordSwap (c : Chip) {col : Nat} (hc : col < 256) (pass : Bool) {g : Field} {j : Nat}
    (h : g.pos j + g.width ≤ 8 * 0x400040 ∨ 8 * 0x400060 ≤ g.pos j) : (c.recordSwap col pass).rd g j = c.rd g j := by
  have hmap : ∀ f : Field, f.addr = 0x400040 ∧ f.stride = 4 ∧ f.lo + f.width ≤ 32 → f.apart (col / 32) g j = true := fun f hf => by
    obtain ⟨haddr, hstride, hbits⟩ := hf
    rw [Field.apart, Bool.or_eq_true, decide_eq_true_eq, decide_eq_true_eq, Field.pos, haddr, hstride]
    omega
  unfold Chip.recordSwap
  split
  · rw [Chip.rd_wr_apart _ _ _ _ _ _ (hmap _ (by decide)), Chip.rd_wr_apart _ _ _ _ _ _ (hmap _ (by decide)),
      Chip.rd_wr_apart _ _ _ _ _ _ (hmap _ (by decide))]
  · rw [Chip.rd_wr_apart _ _ _ _ _ _ (hmap _ (by decide))]

/-- Two fields of one element share no bit when they share none within it. -/
theorem Field.apart_sibling {f g : Field}
    (h : f.addr = g.addr ∧ f.stride = g.stride ∧ (f.lo + f.width ≤ g.lo ∨ g.lo + g.width ≤ f.lo))
    (i : Nat) : f.apart i g i = true := by
  obtain ⟨haddr, hstride, hbits⟩ := h
  rw [Field.apart, Bool.or_eq_true, decide_eq_true_eq, decide_eq_true_eq, Field.pos, Field.pos, haddr, hstride]
  omega

theorem Chip.recordSwap_passed (c : Chip) (col : Nat) : (c.recordSwap col true).on R.DMK_SPARE_MAP_IN_USE (col / 32) = true ∧
    (c.recordSwap col true).rd R.DMK_SPARE_MAP_REPLACED (col / 32) = col % 32 := by
  unfold Chip.recordSwap
  rw [if_pos rfl]
  refine ⟨(Chip.on_wr_apart _ _ _ _ _ _ (Field.apart_sibling (by decide) _)).trans (Chip.on_wr_self _ _ _ _), ?_⟩
  rw [Chip.rd_wr_apart _ _ _ _ _ _ (Field.apart_sibling (by decide) _),
    Chip.rd_wr_apart _ _ _ _ _ _ (Field.apart_sibling (by decide) _), Chip.rd_wr_self]
  exact Nat.mod_mod _ _

theorem Chip.recordSwap_failed (c : Chip) (col : Nat) : (c.recordSwap col false).on R.DMK_SPARE_MAP_SPARE_BAD (col / 32) = true ∧
    (c.recordSwap col false).on R.DMK_SPARE_MAP_IN_USE (col / 32) = c.on R.DMK_SPARE_MAP_IN_USE (col / 32) := by
  unfold Chip.recordSwap
  rw [if_neg Bool.false_ne_true]
  exact ⟨Chip.on_wr_self _ _ _ _, Chip.on_wr_apart _ _ _ _ _ _ (Field.apart_sibling (by decide) _)⟩

theorem Chip.recordSwap_within (c : Chip) (col : Nat) (pass : Bool) : c.within (c.recordSwap col pass) [.regs] :=
  Chip.within_ite _ _ _ _ _ rfl rfl

/-! ### Pins whose copied slots had bad parity -/

theorem Chip.swapParity_nil (c : Chip) (col : Nat) : c.swapParity col [] = c := by
  simp [Chip.swapParity]

theorem Chip.on_wr_corrupt (c : Chip) (k n : Nat) :
    (c.wr R.DMK_PIN_CORRUPT 1 k).on R.DMK_PIN_CORRUPT n = (decide (n = k) || c.on R.DMK_PIN_CORRUPT n) := by
  by_cases h : n = k
  · rw [h, Chip.on_wr_self, decide_eq_true rfl, Bool.true_or]
    rfl
  · have happart : R.DMK_PIN_CORRUPT.apart k R.DMK_PIN_CORRUPT n = true := by
      rw [Field.apart, Bool.or_eq_true, decide_eq_true_eq, decide_eq_true_eq]
      simp only [Field.pos, R.DMK_PIN_CORRUPT]
      omega
    rw [Chip.on_wr_apart _ _ _ _ _ _ happart, decide_eq_false h, Bool.false_or]

/-- The pins marked CORRUPT are those that were and those of the list. -/
theorem Chip.on_marked (l : List Nat) (n : Nat) : ∀ c : Chip,
    (l.foldl (fun (c : Chip) k => c.wr R.DMK_PIN_CORRUPT 1 k) c).on R.DMK_PIN_CORRUPT n =
      (decide (n ∈ l) || c.on R.DMK_PIN_CORRUPT n) := by
  induction l with
  | nil => exact fun c => rfl
  | cons k l ih =>
    intro c
    rw [List.foldl_cons, ih, Chip.on_wr_corrupt, ← Bool.or_assoc]
    simp [Bool.or_comm]

theorem Chip.swapParity_within (c : Chip) (col : Nat) (bad : List Nat) : c.within (c.swapParity col bad) [.regs, .sent] := by
  unfold Chip.swapParity
  extract_lets owns hit
  have hmarked := Chip.within_foldl (fun (c : Chip) n => c.wr R.DMK_PIN_CORRUPT 1 n) [.regs] (fun c k => c.wr_within _ _ _) hit c
  exact Chip.within_ite _ _ _ _ _ rfl
    (Chip.within_step _ (Chip.within_mono _ _ _ _ hmarked rfl) (Chip.latchFault_within _ _ _) rfl)

theorem pinCorrupt_inDamask {n : Nat} (hn : n < 32) : R.DMK_PIN_CORRUPT.inDamask n = true :=
  Field.inDamask_of_place (by decide) (show 0x400100 + n * 8 + 8 ≤ 0x500000 by omega)

/-- A valid pin that owns slots of the column, found with bad parity, is CORRUPT, and SLOT_PARITY is set. -/
theorem Chip.swapParity_hit {c : Chip} {col n : Nat} (hn : n < 32) (hv : c.on R.DMK_PIN_VALID n = true)
    (hfirst : c.rd R.DMK_PIN_GROUP_FIRST n ≤ col / 32) (hlast : col / 32 ≤ c.rd R.DMK_PIN_GROUP_LAST n) :
    (c.swapParity col [n]).on R.DMK_PIN_CORRUPT n = true ∧ (c.swapParity col [n]).on R.DMK_STATUS_SLOT_PARITY = true := by
  unfold Chip.swapParity
  extract_lets owns hit
  have hmem : n ∈ hit := by
    simp only [hit, owns, Chip.validPins, Chip.pinAt, List.mem_filter, List.mem_range]
    simp [hn, hv, hfirst, hlast]
  have hne : ¬ hit.isEmpty = true := fun h => by
    rw [List.isEmpty_iff.mp h] at hmem
    cases hmem
  rw [if_neg hne]
  constructor
  · rw [Chip.on, Chip.rd_latchFault_apart _ _ _ _ _ (Field.command_apart (by decide) (by decide) n)
      (Field.inDamask_clearOfEvent (pinCorrupt_inDamask hn) (by decide)), ← Chip.on, Chip.on_marked, decide_eq_true hmem, Bool.true_or]
  · rw [Chip.on, Chip.rd_latchFault_self _ _ _ rfl (Field.inDamask_clearOfEvent (by decide) (by decide))]
    rfl

/-! ### What the end leaves -/

/-- After the result, an event and the status bits move no register of Damask but BUSY. -/
theorem Chip.rd_endSwap (c : Chip) (col : Nat) (pass : Bool) (bad : List Nat) {g : Field} {j : Nat} (hg : g.inDamask j = true)
    (hb : R.DMK_STATUS_BUSY.apart 0 g j = true) :
    (c.endSwap col pass bad).rd g j = ((c.swapped col pass bad).wr R.DMK_SPARE_CMD_RESULT (swapVerdict pass)).rd g j := by
  rw [Chip.endSwap, Chip.rd_refresh _ hg hb, Chip.keepsDamask_raise _ (by decide) g j hg,
    Chip.rd_congr _ _ _ _ (Chip.swapResult_regs _ _ _)]

section
variable (c : Chip) (col : Nat) (pass : Bool) (bad : List Nat)

theorem Chip.endSwap_inactive : (c.endSwap col pass bad).on R.DMK_STATUS_SWAP_ACTIVE = false := by
  rw [Chip.on, Chip.rd_endSwap _ _ _ _ (by decide) (by decide), Chip.rd_wr_apart _ _ _ _ _ _ (by decide), Chip.swapped,
    Chip.rd_wr_self]
  rfl

theorem Chip.endSwap_result : (c.endSwap col pass bad).rd R.DMK_SPARE_CMD_RESULT = swapVerdict pass := by
  rw [Chip.rd_endSwap _ _ _ _ (by decide) (by decide), Chip.rd_wr_self]
  cases pass <;> rfl

/-- The spare map and the pins read at the end what the swap's parity and its verdict left. -/
theorem Chip.rd_endSwap_behind {g : Field} {j : Nat} (hg : g.inDamask j = true) (ha : 0x400040 ≤ g.addr) :
    (c.endSwap col pass bad).rd g j =
      (((c.advanceTo (c.dmk.swapStarted + 40000)).swapParity col bad).recordSwap col pass).rd g j := by
  rw [Chip.rd_endSwap _ _ _ _ hg (Field.command_apart (by decide) ha j),
    Chip.rd_wr_apart _ _ _ _ _ _ (Field.command_apart (by decide) ha j), Chip.swapped,
    Chip.rd_wr_apart _ _ _ _ _ _ (Field.command_apart (by decide) ha j)]

/-- The end works at its own time. -/
theorem Chip.swapped_within : (c.advanceTo (c.dmk.swapStarted + 40000)).within (c.swapped col pass bad) [.regs, .sent] :=
  Chip.within_step _ (Chip.within_step _ (Chip.swapParity_within _ col bad) (Chip.recordSwap_within _ col pass) rfl)
    (Chip.wr_within _ _ _ _) rfl

theorem Chip.endSwap_within_result :
    ((c.swapped col pass bad).swapResult col (swapVerdict pass)).within (c.endSwap col pass bad) [.regs, .sent] :=
  Chip.within_step _ (Chip.raise_within _ 4) (Chip.refresh_within _) rfl

theorem Chip.endSwap_within : c.within (c.endSwap col pass bad) Parts.swapEnd := by
  have hswapped := Chip.within_step (ps := Parts.swapEnd) _ (Chip.within_mono _ _ _ _ (c.advanceTo_within _) rfl)
    (c.swapped_within col pass bad) rfl
  have hresult := Chip.within_step _ hswapped (Chip.swapResult_within _ col (swapVerdict pass)) rfl
  exact Chip.within_step _ hresult (c.endSwap_within_result col pass bad) rfl

theorem Chip.endSwap_now : (c.endSwap col pass bad).now = max c.now (c.dmk.swapStarted + 40000) :=
  calc (c.endSwap col pass bad).now
    _ = ((c.swapped col pass bad).swapResult col (swapVerdict pass)).now :=
      Chip.now_of_within (c.endSwap_within_result col pass bad) rfl
    _ = (c.swapped col pass bad).now := Chip.now_of_within (Chip.swapResult_within _ col _) rfl
    _ = (c.advanceTo (c.dmk.swapStarted + 40000)).now := Chip.now_of_within (c.swapped_within col pass bad) rfl
    _ = max c.now (c.dmk.swapStarted + 40000) := c.now_advanceTo _

theorem Chip.journalled_endSwap (hc : col < 256) :
    c.journalled (c.endSwap col pass bad) (swapRecord col (swapVerdict pass)) := by
  have hbefore : (c.swapped col pass bad).odx = c.odx :=
    (Chip.within_keeps _ _ _ (·.odx) (c.swapped_within col pass bad) (Chip.only_odx_out _ _ _ rfl)).trans (Chip.advanceTo_odx _ _)
  have hafter := c.endSwap_within_result col pass bad
  exact (Chip.journalled_swapResult _ hc _).congr hbefore.symm
    (Chip.within_keeps _ _ _ (·.odx) hafter (Chip.only_odx_out _ _ _ rfl)) (Chip.now_of_within hafter rfl)
    (Chip.within_keeps _ _ _ (·.dict) hafter (Chip.only_dict_out _ _ _ rfl))

end

theorem spareMap_inDamask {g : Field} (hg : g.addr = 0x400040 ∧ g.stride = 4 ∧ g.lo + g.width ≤ 64) {k : Nat} (hk : k < 8) :
    g.inDamask k = true := by
  obtain ⟨haddr, hstride, hbits⟩ := hg
  exact Field.inDamask_of_place (by omega) (by rw [haddr, hstride]; omega)

/-- Without bad parity, the spare map reads at the end what the verdict left. -/
theorem Chip.rd_endSwap_map (c : Chip) {col : Nat} (hc : col < 256) (pass : Bool) {g : Field}
    (hg : g.addr = 0x400040 ∧ g.stride = 4 ∧ g.lo + g.width ≤ 64) :
    (c.endSwap col pass []).rd g (col / 32) = ((c.advanceTo (c.dmk.swapStarted + 40000)).recordSwap col pass).rd g (col / 32) := by
  rw [Chip.rd_endSwap_behind _ _ _ _ (spareMap_inDamask hg (by omega)) hg.1.ge, Chip.swapParity_nil]

theorem Chip.endSwap_passed (c : Chip) {col : Nat} (hc : col < 256) :
    (c.endSwap col true []).on R.DMK_SPARE_MAP_IN_USE (col / 32) = true ∧
      (c.endSwap col true []).rd R.DMK_SPARE_MAP_REPLACED (col / 32) = col % 32 := by
  rw [Chip.on, Chip.rd_endSwap_map c hc true (by decide), Chip.rd_endSwap_map c hc true (by decide)]
  exact Chip.recordSwap_passed _ col

theorem Chip.endSwap_failed (c : Chip) {col : Nat} (hc : col < 256) :
    (c.endSwap col false []).on R.DMK_SPARE_MAP_SPARE_BAD (col / 32) = true ∧
      (c.endSwap col false []).on R.DMK_SPARE_MAP_IN_USE (col / 32) = c.on R.DMK_SPARE_MAP_IN_USE (col / 32) := by
  obtain ⟨hbad, hused⟩ := Chip.recordSwap_failed (c.advanceTo (c.dmk.swapStarted + 40000)) col
  refine ⟨?_, ?_⟩
  · rw [Chip.on, Chip.rd_endSwap_map c hc false (by decide)]
    exact hbad
  · rw [Chip.on, Chip.rd_endSwap_map c hc false (by decide)]
    exact hused.trans (Chip.on_congr _ _ _ _ (Chip.advanceTo_regs _ _))

/-- R172: a pin whose copied slots had bad parity is CORRUPT. -/
theorem Chip.endSwap_hit {c : Chip} {col n : Nat} (pass : Bool) (hc : col < 256) (hn : n < 32) (hv : c.on R.DMK_PIN_VALID n = true)
    (hfirst : c.rd R.DMK_PIN_GROUP_FIRST n ≤ col / 32) (hlast : col / 32 ≤ c.rd R.DMK_PIN_GROUP_LAST n) :
    (c.endSwap col pass [n]).on R.DMK_PIN_CORRUPT n = true ∧ (c.endSwap col pass [n]).on R.DMK_STATUS_SLOT_PARITY = true := by
  have hregs := c.advanceTo_regs (c.dmk.swapStarted + 40000)
  obtain ⟨hcorrupt, hparity⟩ := Chip.swapParity_hit (c := c.advanceTo (c.dmk.swapStarted + 40000)) (col := col) hn
    ((Chip.on_congr _ _ _ _ hregs).trans hv) ((Chip.rd_congr _ _ _ _ hregs).trans_le hfirst)
    (hlast.trans_eq (Chip.rd_congr _ _ _ _ hregs).symm)
  refine ⟨?_, ?_⟩
  · have hbehind : 8 * 0x400060 ≤ R.DMK_PIN_CORRUPT.pos n := show 8 * 0x400060 ≤ 8 * (0x400100 + n * 8) + 2 by omega
    rw [Chip.on, Chip.rd_endSwap_behind _ _ _ _ (pinCorrupt_inDamask hn) (by decide), Chip.rd_recordSwap _ hc _ (.inr hbehind)]
    exact hcorrupt
  · rw [Chip.on, Chip.rd_endSwap _ _ _ _ (by decide) (by decide), Chip.rd_wr_apart _ _ _ _ _ _ (by decide), Chip.swapped,
      Chip.rd_wr_apart _ _ _ _ _ _ (by decide), Chip.rd_recordSwap _ hc _ (.inl (by decide))]
    exact hparity

theorem spareSwapEnd_answers {s : State} {P : Chip → Prop} {pass : Bool} {bad : List Nat} (ha : s.chip.awake = true)
    (hactive : s.chip.on R.DMK_STATUS_SWAP_ACTIVE = true) (hp : P (s.chip.endSwap s.chip.dmk.swapColumn pass bad)) :
    Answers s (.spareSwapEnd pass bad) P := by
  refine answers_run_chip ha (exec_spareSwapEnd s pass bad) ?_ (s.chip.endSwap_within s.chip.dmk.swapColumn pass bad) hp
  rw [if_pos hactive, Chip.advanceTo_dmk]

/-! ## The statement -/

/-- Settles O40: each command's effect is written out once (`Chip.spareRequest_eq`, `Chip.beginSwap`, `Chip.endSwap`); after a swap's
result the event and the status bits move no register of Damask but BUSY (`Chip.rd_endSwap`). -/
theorem spareColumns : Obligations.SpareColumns := by
  unfold Obligations.SpareColumns
  refine ⟨?request, ?start, ?parity, ?verdict⟩
  case request =>
    rintro s column g hh rfl P rfl
    refine ⟨spareRequest_answers_busy hh, fun hpending hactive => ?_⟩
    have hidle : (s.chip.on R.DMK_STATUS_SWAP_PENDING || s.chip.on R.DMK_STATUS_SWAP_ACTIVE) = false := by
      rw [hpending, hactive]
      rfl
    have he := s.chip.spareRequest_eq column.toNat
    rw [hidle, if_neg Bool.false_ne_true] at he
    refine ⟨fun hused hsame => ?_, fun hused hother => ?_, fun hused hbad => ?_, spareRequest_answers_waits hh hidle⟩
    · refine spareRequest_answers_refused hh (by decide) (by decide) (he.trans (if_pos ?_))
      simp [hused, hsame]
    · refine spareRequest_answers_refused hh (by decide) (by decide) (he.trans ((if_neg ?_).trans (if_pos ?_)))
      · simp [hother]
      · simp [hused]
    · refine spareRequest_answers_refused hh (by decide) (by decide) (he.trans ((if_neg ?_).trans (if_pos ?_)))
      · simp [hused]
      · simp [hbad]
  case start =>
    intro s ha hpending
    exact ⟨spareSwapStart_answers ha hpending,
      fun hbusy => ⟨spareSwapStart_waits ha hpending hbusy, spareSwapWaitTimeout_urgent ha hpending hbusy⟩,
      spareSwapWaitTimeout_answers ha hpending⟩
  case parity =>
    rintro s n c pass hn ha hactive rfl hc hv hfirst hlast
    obtain ⟨hcorrupt, hparity⟩ := Chip.endSwap_hit pass hc hn hv hfirst hlast
    exact spareSwapEnd_answers ha hactive ⟨hcorrupt, hparity, Chip.endSwap_inactive _ _ _ _⟩
  case verdict =>
    rintro s c ha hactive rfl hc
    obtain ⟨hused, hreplaced⟩ := s.chip.endSwap_passed hc
    obtain ⟨hbad, hkept⟩ := s.chip.endSwap_failed hc
    exact ⟨spareSwapEnd_answers ha hactive ⟨Chip.endSwap_within _ _ _ _, Chip.endSwap_now _ _ _ _, Chip.endSwap_inactive _ _ _ _,
        hused, hreplaced, Chip.endSwap_result _ _ _ _, Chip.journalled_endSwap _ _ _ _ hc⟩,
      spareSwapEnd_answers ha hactive ⟨Chip.endSwap_within _ _ _ _, Chip.endSwap_now _ _ _ _, Chip.endSwap_inactive _ _ _ _,
        hbad, hkept, Chip.endSwap_result _ _ _ _, Chip.journalled_endSwap _ _ _ _ hc⟩⟩

end Sys2Proof.Machine

namespace Sys2Proof.Machine

/-! # Sequence, fence and hold commands of the ATU (R204, R205, R213, R231, R232) -/

/-! ## Numbers -/

/-- A number does not leave its width when a field within the width is replaced. -/
theorem setBits_lt {x lo w n : Nat} (v : Nat) (hx : x < 2 ^ n) (hw : lo + w ≤ n) : setBits x lo w v < 2 ^ n := by
  refine Nat.lt_pow_two_of_testBit _ fun k hk => ?_
  rw [testBit_setBits, if_neg (by omega), if_neg (by omega)]
  exact Nat.testBit_lt_two_pow (hx.trans_le (Nat.pow_le_pow_right (by decide) hk))

theorem leNat_leBytes : ∀ n v : Nat, v < 256 ^ n → leNat (leBytes n v) = v
  | 0, v, h => by
    obtain rfl : v = 0 := Nat.lt_one_iff.mp h
    rfl
  | n + 1, v, h => by
    have hrest : v / 256 < 256 ^ n := Nat.div_lt_of_lt_mul (by rwa [← Nat.pow_succ'])
    rw [leBytes, leNat, leNat_leBytes n _ hrest, BitVec.toNat_ofNat]
    exact Nat.mod_add_div v 256

/-- No bit of a descriptor lies beyond its width (R208). -/
theorem seqMask_lt (v : Nat) : seqMask v < 2 ^ R.ATU_SEQ_DESCRIPTOR.width := by
  have hbits : bits v 0 256 < 2 ^ R.ATU_SEQ_DESCRIPTOR.width :=
    (bits_lt v 0 256).trans (Nat.pow_lt_pow_right (by decide) (by decide))
  exact setBits_lt _ (setBits_lt _ (setBits_lt _ (setBits_lt _ hbits (by decide)) (by decide)) (by decide)) (by decide)

/-! ## Commands that complete at once (R213) -/

/-- While no fence is in progress a command writes its status. -/
theorem Chip.atuCmd_idle {c : Chip} (h : c.on R.ATU_CMD_STATUS_BUSY = false) (f : Chip → Chip × Nat) :
    c.atuCmd f = (f c).1.wr R.ATU_CMD_STATUS_STATUS (f c).2 := by
  rw [Chip.atuCmd, h]
  rfl

/-- A further write is one more exception. -/
theorem Chip.regsKept_wr {c d : Chip} {but : List (Field × Nat)} (h : c.regsKept d but) (f : Field) (v i : Nat) :
    c.regsKept (d.wr f v i) (but ++ [(f, i)]) := by
  intro g j hg
  rw [List.all_append, Bool.and_eq_true, List.all_cons, List.all_nil, Bool.and_true] at hg
  obtain ⟨hbut, hf⟩ := hg
  rw [Chip.rd_wr_apart _ _ _ _ _ _ ((Field.apart_comm _ _ _ _).trans hf), h g j hbut]

theorem Chip.regsKept_refl (c : Chip) : c.regsKept c [] := fun _ _ _ => rfl

/-- What the statement says of a command that refuses what it is asked. -/
theorem atuCmd_answers_refused {s : State} {i : Instr} {ps : List Part} {f : Chip → Chip × Nat} {status : Nat}
    (hh : s.chip.heard = true) (hidle : s.chip.on R.ATU_CMD_STATUS_BUSY = false)
    (he : exec i s = s.runHost ps (fun c => c.atuCmd f)) (hps : ps.contains .regs = true)
    (hf : f s.chip = (s.chip, status)) (hst : status < 2 ^ 16) :
    Answers s i (fun d => s.chip.within d [.regs] ∧ d.rd R.ATU_CMD_STATUS_STATUS = status ∧
      s.chip.regsKept d [(R.ATU_CMD_STATUS_STATUS, 0)]) := by
  have heff : s.chip.atuCmd f = s.chip.wr R.ATU_CMD_STATUS_STATUS status := by rw [Chip.atuCmd_idle hidle, hf]
  have hwithin : s.chip.within (s.chip.wr R.ATU_CMD_STATUS_STATUS status) [.regs] := rfl
  refine answers_runHost_chip hh he heff (Chip.within_mono _ _ _ _ hwithin ?_)
    ⟨hwithin, (Chip.rd_wr_self _ _ _ _).trans (Nat.mod_eq_of_lt hst), Chip.regsKept_wr s.chip.regsKept_refl _ _ _⟩
  rw [List.all_cons, List.all_nil, hps]
  rfl

/-! ## Sequence descriptors (R208, R213) -/

/-- What the statement says of a command on descriptor `n`: what the descriptor reads, and the status. -/
def Chip.seqAnswered (c : Chip) (n desc status : Nat) (d : Chip) : Prop :=
  c.within d [.regs] ∧ d.seq n = desc ∧ d.rd R.ATU_CMD_STATUS_STATUS = status ∧
    c.regsKept d [(R.ATU_SEQ_DESCRIPTOR, n), (R.ATU_CMD_STATUS_STATUS, 0)]

/-- The descriptors lie behind the command's status (R238). -/
theorem Field.status_apart_descriptor (n : Nat) : R.ATU_CMD_STATUS_STATUS.apart 0 R.ATU_SEQ_DESCRIPTOR n = true := by
  have hpos : R.ATU_CMD_STATUS_STATUS.pos 0 + R.ATU_CMD_STATUS_STATUS.width ≤ 8 * 0x520000 := by decide
  have hdesc : 8 * 0x520000 ≤ R.ATU_SEQ_DESCRIPTOR.pos n := show 8 * 0x520000 ≤ 8 * (0x520000 + n * 64) + 0 by omega
  rw [Field.apart, Bool.or_eq_true, decide_eq_true_eq, decide_eq_true_eq]
  omega

/-- A descriptor written as it stands or anew, and the status after it. -/
theorem Chip.seqAnswered_setSeq (c : Chip) {n desc status : Nat} (hd : desc < 2 ^ R.ATU_SEQ_DESCRIPTOR.width) (hst : status < 2 ^ 16) :
    c.seqAnswered n desc status ((c.setSeq n desc).wr R.ATU_CMD_STATUS_STATUS status) := by
  refine ⟨rfl, ?_, (Chip.rd_wr_self _ _ _ _).trans (Nat.mod_eq_of_lt hst),
    Chip.regsKept_wr (Chip.regsKept_wr c.regsKept_refl _ _ _) _ _ _⟩
  rw [Chip.seq, Chip.rd_wr_apart _ _ _ _ _ _ (Field.status_apart_descriptor n), Chip.setSeq, Chip.rd_wr_self]
  exact Nat.mod_eq_of_lt hd

theorem Chip.seqAnswered_kept {c d : Chip} {n status : Nat} (hwithin : c.within d [.regs])
    (hst : d.rd R.ATU_CMD_STATUS_STATUS = status) (hkept : c.regsKept d [(R.ATU_CMD_STATUS_STATUS, 0)]) :
    c.seqAnswered n (c.seq n) status d := by
  refine ⟨hwithin, hkept _ _ ?_, hst, fun f i hf => hkept f i ?_⟩
  · rw [List.all_cons, List.all_nil, Bool.and_true, Field.apart_comm]
    exact Field.status_apart_descriptor n
  · rw [List.all_cons, Bool.and_eq_true] at hf
    exact hf.2

/-- The effect of a command on descriptor `n`, of which `r` is the effect while the descriptor is not locked. -/
def Chip.unlocked (c : Chip) (n : Nat) (r : Chip × Nat) : Chip × Nat := if Seq.lock (c.seq n) then (c, St.KV_LIST_BUSY) else r

/-- Command `i` works on descriptor `n`, with the effect `r` while the descriptor is not locked. -/
def SeqCommand (i : Instr) (n : Nat) (r : Chip → Chip × Nat) : Prop :=
  ∀ s, exec i s = s.runHost [.regs] (fun c => c.atuCmd (fun c => c.unlocked n (r c)))

section
variable {s : State} {i : Instr} {n : Nat} {r : Chip → Chip × Nat} (hh : s.chip.heard = true)
  (hidle : s.chip.on R.ATU_CMD_STATUS_BUSY = false) (hi : SeqCommand i n r)
include hh hidle hi

theorem SeqCommand.answers_kept {status : Nat} (hf : s.chip.unlocked n (r s.chip) = (s.chip, status)) (hst : status < 2 ^ 16) :
    Answers s i (s.chip.seqAnswered n (s.chip.seq n) status) :=
  Answers.mono (atuCmd_answers_refused hh hidle (hi s) rfl hf hst) fun _ ⟨hwithin, hstatus, hkept⟩ =>
    Chip.seqAnswered_kept hwithin hstatus hkept

theorem SeqCommand.answers_locked (hlock : Seq.lock (s.chip.seq n) = true) :
    Answers s i (s.chip.seqAnswered n (s.chip.seq n) St.KV_LIST_BUSY) :=
  hi.answers_kept hh hidle (if_pos hlock) (by decide)

theorem SeqCommand.answers_refused {status : Nat} (hopen : Seq.lock (s.chip.seq n) = false) (hr : r s.chip = (s.chip, status))
    (hst : status < 2 ^ 16) : Answers s i (s.chip.seqAnswered n (s.chip.seq n) status) :=
  hi.answers_kept hh hidle (by rw [Chip.unlocked, hopen, if_neg Bool.false_ne_true, hr]) hst

theorem SeqCommand.answers_written {desc : Nat} (hopen : Seq.lock (s.chip.seq n) = false)
    (hr : r s.chip = (s.chip.setSeq n desc, St.OK)) (hd : desc < 2 ^ R.ATU_SEQ_DESCRIPTOR.width) :
    Answers s i (s.chip.seqAnswered n desc St.OK) := by
  have heff : s.chip.atuCmd (fun c => c.unlocked n (r c)) = (s.chip.setSeq n desc).wr R.ATU_CMD_STATUS_STATUS St.OK := by
    rw [Chip.atuCmd_idle hidle, Chip.unlocked, hopen, if_neg Bool.false_ne_true, hr]
  exact answers_runHost_chip hh (hi s) heff rfl (s.chip.seqAnswered_setSeq hd (by decide))

end

/-! ### KV_WRITE -/

/-- The descriptor that the data words hold. -/
def Chip.seqOperand (c : Chip) : Nat := seqMask ((List.range 16).foldl (fun a k => a + (c.atuData k <<< (32 * k))) 0)

/-- Whether the list, the state words and the staging slots of a descriptor lie where they may (R209). -/
def Chip.seqAddrsOk (c : Chip) (v : Nat) : Bool :=
  c.kvAddrOk (Seq.listAddr v) 64 && c.kvAddrOk (Seq.stateAddr v) 64 && c.kvAddrOk (Seq.stageAddr v) c.frameSize

/-- The effect of KV_WRITE on a descriptor that is not locked. -/
def Chip.kvWritten (c : Chip) (n : Nat) : Chip × Nat :=
  if Seq.valid c.seqOperand && !c.seqAddrsOk c.seqOperand then (c, St.KV_BAD_PARAM)
  else (c.setSeq n (setBits c.seqOperand 1 2 0), St.OK)

theorem seqCommand_kvWrite (seq : Nat) : SeqCommand (.kvWrite seq) (seq % 2048) (fun c => c.kvWritten (seq % 2048)) :=
  fun _ => rfl

section
variable {c : Chip} {v : Nat} (hv : v = c.seqOperand) (n : Nat)
include hv

theorem Chip.kvWritten_bad (hvalid : Seq.valid v = true) (ha : c.seqAddrsOk v = false) :
    c.kvWritten n = (c, St.KV_BAD_PARAM) := by
  rw [Chip.kvWritten, ← hv, hvalid, ha]
  rfl

theorem Chip.kvWritten_good (h : Seq.valid v = false ∨ c.seqAddrsOk v = true) :
    c.kvWritten n = (c.setSeq n (setBits v 1 2 0), St.OK) := by
  rw [Chip.kvWritten, ← hv]
  refine if_neg ?_
  obtain h | h := h <;> simp [h]

end

/-! ### KV_SWAP -/

/-- The address of the list, and that of the state words, in the data words. -/
def Chip.listOperand (c : Chip) : Nat := bits (c.atuData 0 + (c.atuData 1 <<< 32)) 0 40
def Chip.stateOperand (c : Chip) : Nat := bits (c.atuData 4 + (c.atuData 5 <<< 32)) 0 40

/-- The effect of KV_SWAP on a descriptor that is not locked. -/
def Chip.kvSwapped (c : Chip) (n : Nat) : Chip × Nat :=
  if !Seq.valid (c.seq n) then (c, St.KV_BAD_SEQ)
  else if Seq.changes (c.seq n) != c.atuData 6 then (c, St.KV_LIST_STALE)
  else if !(c.kvAddrOk c.listOperand 64 && c.kvAddrOk c.stateOperand 64) then (c, St.KV_BAD_PARAM)
  else (c.setSeq n (setBits (setBits (setBits (c.seq n) 32 40 c.listOperand) 72 16 (c.atuData 2)) 96 40 c.stateOperand), St.OK)

theorem seqCommand_kvSwap (seq : Nat) : SeqCommand (.kvSwap seq) (seq % 2048) (fun c => c.kvSwapped (seq % 2048)) := fun _ => rfl

section
variable {c : Chip} {n : Nat}

theorem Chip.kvSwapped_invalid (hv : Seq.valid (c.seq n) = false) : c.kvSwapped n = (c, St.KV_BAD_SEQ) := by
  rw [Chip.kvSwapped, hv]
  rfl

variable (hv : Seq.valid (c.seq n) = true)
include hv

theorem Chip.kvSwapped_stale (hc : Seq.changes (c.seq n) ≠ c.atuData 6) : c.kvSwapped n = (c, St.KV_LIST_STALE) := by
  rw [Chip.kvSwapped, hv, if_neg (by decide), if_pos (bne_iff_ne.mpr hc)]

theorem Chip.kvSwapped_good {list st : Nat} (hc : Seq.changes (c.seq n) = c.atuData 6) (hlist : list = c.listOperand)
    (hst : st = c.stateOperand) (hlistOk : c.kvAddrOk list 64 = true) (hstOk : c.kvAddrOk st 64 = true) : c.kvSwapped n =
      (c.setSeq n (setBits (setBits (setBits (c.seq n) 32 40 list) 72 16 (c.atuData 2)) 96 40 st), St.OK) := by
  rw [Chip.kvSwapped, ← hlist, ← hst, hv, hc, hlistOk, hstOk, if_neg (by decide), if_neg (by simp), if_neg (by decide)]

end

theorem Chip.swapped_lt (c : Chip) (n list cap st : Nat) :
    setBits (setBits (setBits (c.seq n) 32 40 list) 72 16 cap) 96 40 st < 2 ^ R.ATU_SEQ_DESCRIPTOR.width :=
  setBits_lt _ (setBits_lt _ (setBits_lt _ (c.rd_lt _ n) (by decide)) (by decide)) (by decide)

/-! ### KV_INVALIDATE and KV_CLEAR_HELD -/

theorem seqCommand_kvInvalidate (seq : Nat) : SeqCommand (.kvInvalidate seq) (seq % 2048) (fun c =>
    (c.setSeq (seq % 2048) (setBits (c.seq (seq % 2048)) 0 1 0), St.OK)) := fun _ => rfl

theorem seqCommand_kvClearHeld (seq : Nat) : SeqCommand (.kvClearHeld seq) (seq % 2048) (fun c =>
    (c.setSeq (seq % 2048) (setBits (c.seq (seq % 2048)) 2 1 0), St.OK)) := fun _ => rfl

end Sys2Proof.Machine

namespace Sys2Proof.Machine

/-! ## The fence (R204) -/

theorem exec_kvFence (s : State) : exec .kvFence s = s.runHost [.regs, .atu] (fun c =>
    if c.on R.ATU_CMD_STATUS_BUSY then c
    else { c.wr R.ATU_CMD_STATUS_BUSY 1 with atu := { c.atu with fence := some c.atuTile } }) := rfl

theorem kvFence_answers {s : State} (hh : s.chip.heard = true) (hidle : s.chip.on R.ATU_CMD_STATUS_BUSY = false) :
    Answers s .kvFence (fun d => s.chip.within d [.regs, .atu] ∧ d.on R.ATU_CMD_STATUS_BUSY = true ∧
      d.atu = { s.chip.atu with fence := some s.chip.atuTile } ∧ s.chip.regsKept d [(R.ATU_CMD_STATUS_BUSY, 0)]) :=
  answers_runHost_chip hh (exec_kvFence s) (if_neg (by rw [hidle]; decide)) rfl
    ⟨rfl, Chip.on_wr_self _ _ _ _, rfl, Chip.regsKept_wr s.chip.regsKept_refl _ _ _⟩

/-- The chip once the fence has ended. -/
def Chip.fenceEnded (c : Chip) : Chip :=
  { (c.wr R.ATU_CMD_STATUS_BUSY 0).wr R.ATU_CMD_STATUS_STATUS St.OK with atu := { c.atu with fence := none } }

/-- The effect of KV_FENCE_DONE. -/
def Chip.fenceDone (c : Chip) : Chip :=
  match c.atu.fence with
  | none => c
  | some t => if t.isSome && c.atuTile == t then c else c.fenceEnded

theorem exec_kvFenceDone (s : State) : exec .kvFenceDone s = s.run [.regs, .atu] (fun c => c.fenceDone) := rfl

theorem Chip.fenceDone_ends {c : Chip} {t : Option (Nat × Nat × Nat)} (hf : c.atu.fence = some t) (ht : t ≠ none → c.atuTile ≠ t) :
    c.fenceDone = c.fenceEnded := by
  rw [Chip.fenceDone, hf]
  refine if_neg ?_
  rw [Bool.and_eq_true, Option.isSome_iff_ne_none, beq_iff_eq]
  exact fun ⟨hsome, htile⟩ => ht hsome htile

theorem Chip.fenceDone_waits {c : Chip} {t : Nat × Nat × Nat} (hf : c.atu.fence = some (some t)) (ht : c.atuTile = some t) :
    c.fenceDone = c := by
  rw [Chip.fenceDone, hf, ht]
  exact if_pos (by simp)

theorem kvFenceDone_answers_ended {s : State} {t : Option (Nat × Nat × Nat)} (ha : s.chip.awake = true)
    (hf : s.chip.atu.fence = some t) (ht : t ≠ none → s.chip.atuTile ≠ t) :
    Answers s .kvFenceDone (fun d => s.chip.within d [.regs, .atu] ∧ d.on R.ATU_CMD_STATUS_BUSY = false ∧
      d.rd R.ATU_CMD_STATUS_STATUS = St.OK ∧ d.atu = { s.chip.atu with fence := none } ∧
      s.chip.regsKept d [(R.ATU_CMD_STATUS_BUSY, 0), (R.ATU_CMD_STATUS_STATUS, 0)]) := by
  refine answers_run_chip ha (exec_kvFenceDone s) (Chip.fenceDone_ends hf ht) rfl ⟨rfl, ?_, Chip.rd_wr_self _ _ _ _, rfl,
    Chip.regsKept_wr (Chip.regsKept_wr s.chip.regsKept_refl _ _ _) _ _ _⟩
  exact (Chip.on_wr_apart _ _ _ _ _ _ (by decide)).trans (Chip.on_wr_self _ _ _ _)

theorem kvFenceDone_answers_waits {s : State} {t : Nat × Nat × Nat} (ha : s.chip.awake = true)
    (hf : s.chip.atu.fence = some (some t)) (ht : s.chip.atuTile = some t) :
    Answers s .kvFenceDone (fun d => d = s.chip) :=
  answers_run_chip ha (exec_kvFenceDone s) (Chip.fenceDone_waits hf ht) (Chip.within_refl _ _) rfl

end Sys2Proof.Machine

namespace Sys2Proof.Machine

/-! ## The free-frame FIFO (R205) -/

/-! ### A page-frame table entry is read and written (R202) -/

theorem Chip.atu_of_within {c d : Chip} {ps : List Part} (h : c.within d ps) (hps : ps.contains .atu = false) : d.atu = c.atu :=
  Chip.within_keeps c d ps (·.atu) h (Chip.only_atu_out _ _ _ hps)

theorem Chip.frameEntry_congr {c d : Chip} (h : d.regs = c.regs) (f : Nat) : d.frameEntry f = c.frameEntry f := by
  unfold Chip.frameEntry Chip.rd
  rw [h]

/-- An aligned double word lies within one part of a range that is cut at multiples of eight. -/
theorem partsOf_word {k off : Nat} (hk : 8 ∣ k) (hpos : 0 < k) (halign : off % 8 = 0) : partsOf k off 8 = [(off, 0, 8)] := by
  have hmod := Nat.mod_lt off hpos
  obtain ⟨m, hm⟩ : 8 ∣ off % k := (Nat.dvd_mod_iff hk).mpr (Nat.dvd_of_mod_eq_zero halign)
  obtain ⟨n, rfl⟩ := hk
  exact partsOf_single (by decide) (by omega)

theorem Chip.partsOf_grain (c : Chip) {off k : Nat} (hk : 8 ∣ k) (hpos : 0 < k) (halign : off % 8 = 0) :
    partsOf (c.grain off 8 k) off 8 = [(off, 0, 8)] := by
  unfold Chip.grain
  split
  · exact partsOf_word (by decide) (by decide) halign
  · exact partsOf_word hk hpos halign

/-- An engine's read of an aligned double word of Muslin that is readable is one request, and answered. -/
theorem Chip.devNat_word {c : Chip} {a : Nat} (hreg : devRegion a = 0) (halign : devOffset a % 8 = 0)
    (h : c.readable (devOffset a) 8) :
    c.devNat a 8 = (c.reached (groupOf (devOffset a)), St.OK, leNat (c.muslin.read (devOffset a) 8)) := by
  rw [Chip.devNat, c.devRead_muslin 8 hreg, c.partsOf_grain (by decide) (by decide) halign, List.foldl_cons, List.foldl_nil,
    Chip.readPart_readable h, List.nil_append]

/-- An engine's write of an aligned double word of Muslin that is writable is one request, and performed. -/
theorem Chip.devWrite_word {c : Chip} {a : Nat} {data : List Byte} (hreg : devRegion a = 0) (halign : devOffset a % 8 = 0)
    (hlen : data.length = 8) (h : c.writable (devOffset a) 8) :
    ∃ d, c.devWrite a data = (d, St.OK) ∧ c.written d .plain (devOffset a) data := by
  obtain ⟨d, hd, hwritten⟩ := Chip.muslinWrite_written (data := data) .plain (by rwa [hlen])
  refine ⟨d, ?_, hwritten⟩
  have hmode : regionMode a = .plain := by
    rw [regionMode, hreg]
    rfl
  rw [Chip.devWrite, hreg, if_neg (by decide), hmode]
  rw [hlen, c.partsOf_grain (by decide) (by decide) halign, List.foldl_cons, List.foldl_nil, List.drop_zero,
    List.take_of_length_le hlen.le]
  exact hd

/-- A table entry with another STATE. -/
theorem Chip.putFrame_written {c : Chip} {f e st : Nat} (he : e < 2 ^ 64) (hreg : devRegion (c.frameEntry f) = 0)
    (halign : devOffset (c.frameEntry f) % 8 = 0) (h : c.writable (devOffset (c.frameEntry f)) 8) :
    ∃ d, c.putFrame f e (frameGen e) st = (d, St.OK) ∧ c.within d [.muslin, .msl] ∧
      leNat (d.muslin.read (devOffset (c.frameEntry f)) 8) = setBits e 36 2 st ∧
      c.muslinKept d (devOffset (c.frameEntry f)) 8 := by
  have hlen := leBytes_length 8 (setBits e 36 2 st)
  obtain ⟨d, hd, hwithin, -, -, hbytes, hkept⟩ := Chip.devWrite_word hreg halign hlen h
  rw [hlen] at hkept
  refine ⟨d, ?_, hwithin, ?_, hkept⟩
  · rw [Chip.putFrame, frameGen, setBits_bits_self]
    exact hd
  · have hread : d.muslin.read (devOffset (c.frameEntry f)) 8 = leBytes 8 (setBits e 36 2 st) := by
      refine List.ext_getElem ((Memory.read_length _ _ _).trans hlen.symm) fun k hk hk' => ?_
      have hbyte := hbytes k _ (List.getElem?_eq_getElem hk')
      rw [Memory.read_length] at hk
      have hget := Memory.getD_read d.muslin 8 (devOffset (c.frameEntry f)) k hk
      rw [List.getD_eq_getElem _ _ (by rwa [Memory.read_length])] at hget
      exact hget.trans hbyte
    rw [hread, leNat_leBytes _ _ (setBits_lt _ he (by decide))]

/-- A FIFO that does not get shorter raises nothing. -/
theorem Chip.setFifo_grown {c : Chip} {l : List Nat} (h : c.atu.fifo.length ≤ l.length) :
    c.setFifo l = { c with atu := { c.atu with fifo := l } }.wr R.ATU_FREE_LEVEL_LEVEL l.length := by
  refine if_neg ?_
  rw [Bool.and_eq_true, decide_eq_true_eq, decide_eq_true_eq]
  omega

/-! ### The push -/

/-- The effect of ATU_FREE_PUSH. -/
def Chip.pushFrame (c : Chip) (f : Nat) : Chip :=
  let r := c.devNat (c.frameEntry f) 8
  if decide (c.atu.fifo.length < 8192) && r.2.1 == 0 && frameState r.2.2 == 1 then
    let w := r.1.putFrame f r.2.2 (frameGen r.2.2) 0
    w.1.setFifo (w.1.atu.fifo ++ [f])
  else (r.1.latch R.ATU_STATUS_PUSH_REFUSED).count R.ATU_FREE_BAD_CNT_PUSHES

theorem exec_atuFreePush (s : State) (frame : BitVec 17) : exec (.atuFreePush frame) s =
    s.runHost [.regs, .muslin, .msl, .drc, .atu, .sent] (fun c => c.pushFrame frame.toNat) := rfl

/-- The chip once a push was refused and counted. -/
def Chip.pushRefused (c : Chip) : Chip := (c.latch R.ATU_STATUS_PUSH_REFUSED).count R.ATU_FREE_BAD_CNT_PUSHES

theorem Chip.pushRefused_shows (c : Chip) : c.within c.pushRefused [.regs] ∧ c.pushRefused.on R.ATU_STATUS_PUSH_REFUSED = true ∧
    c.pushRefused.rd R.ATU_FREE_BAD_CNT_PUSHES = (c.rd R.ATU_FREE_BAD_CNT_PUSHES + 1) % 2 ^ 16 := by
  refine ⟨rfl, (Chip.on_wr_apart _ _ _ _ _ _ (by decide)).trans (Chip.on_wr_self _ _ _ _), (Chip.rd_wr_self _ _ _ _).trans ?_⟩
  rw [Chip.latch, Chip.rd_wr_apart _ _ _ _ _ _ (by decide)]
  rfl

section
variable {c : Chip} {f a e : Nat} (ha : a = c.frameEntry f) (hreg : devRegion a = 0) (halign : devOffset a % 8 = 0)
  (hw : c.writable (devOffset a) 8) (he : e = leNat (c.muslin.read (devOffset a) 8))
include ha hreg halign hw he

/-- Once the table entry is read, the FIFO's room and the entry's STATE decide the push. -/
theorem Chip.pushFrame_eq : c.pushFrame f =
    if c.atu.fifo.length < 8192 ∧ frameState e = 1 then
      let w := (c.reached (groupOf (devOffset a))).putFrame f e (frameGen e) 0
      w.1.setFifo (w.1.atu.fifo ++ [f])
    else (c.reached (groupOf (devOffset a))).pushRefused := by
  subst ha he
  rw [Chip.pushFrame, Chip.devNat_word hreg halign hw.1]
  simp [Chip.pushRefused]

theorem Chip.pushFrame_refused (hbad : 8192 ≤ c.atu.fifo.length ∨ frameState e ≠ 1) :
    c.pushFrame f = (c.reached (groupOf (devOffset a))).pushRefused :=
  (Chip.pushFrame_eq ha hreg halign hw he).trans (if_neg (by omega))

theorem Chip.pushFrame_accepted (hroom : c.atu.fifo.length < 8192) (hstate : frameState e = 1) :
    ∃ d, c.within d [.muslin, .msl] ∧ leNat (d.muslin.read (devOffset a) 8) = setBits e 36 2 0 ∧ c.muslinKept d (devOffset a) 8 ∧
      c.pushFrame f = { d with atu := { c.atu with fifo := c.atu.fifo ++ [f] } }.wr R.ATU_FREE_LEVEL_LEVEL (c.atu.fifo.length + 1) := by
  have hpush := (Chip.pushFrame_eq ha hreg halign hw he).trans (if_pos ⟨hroom, hstate⟩)
  set b := c.reached (groupOf (devOffset a))
  have hb : c.within b [.msl] := c.reached_within _
  have hentry : a = b.frameEntry f := ha.trans (Chip.frameEntry_congr (c := c) rfl f).symm
  have hwb : b.writable (devOffset a) 8 := Chip.writable_congr (c.reached_servesAs _) (fun _ h => h) hw
  have hlt : e < 2 ^ 64 := by
    have hread := leNat_lt (c.muslin.read (devOffset a) 8)
    rwa [← he, Memory.read_length] at hread
  rw [hentry] at hreg halign hwb
  obtain ⟨d, hd, hwithin, hread, hkept⟩ := Chip.putFrame_written (st := 0) hlt hreg halign hwb
  rw [← hentry] at hread hkept
  have hall : c.within d [.muslin, .msl] := Chip.within_step _ (Chip.within_mono _ _ _ _ hb rfl) hwithin rfl
  have hatu : d.atu = c.atu := Chip.atu_of_within hall rfl
  refine ⟨d, hall, hread, hkept, ?_⟩
  rw [hpush, hd, Chip.setFifo_grown (by simp), hatu, List.length_append]
  rfl

end

section
variable {s : State} {frame : BitVec 17} {a e : Nat} (hh : s.chip.heard = true) (ha : a = s.chip.frameEntry frame.toNat)
  (hreg : devRegion a = 0) (halign : devOffset a % 8 = 0) (hw : s.chip.writable (devOffset a) 8)
  (he : e = leNat (s.chip.muslin.read (devOffset a) 8))
include hh ha hreg halign hw he

theorem atuFreePush_answers_accepted (hroom : s.chip.atu.fifo.length < 8192) (hstate : frameState e = 1) :
    Answers s (.atuFreePush frame) (fun d => s.chip.within d [.regs, .muslin, .msl, .atu] ∧
      d.atu = { s.chip.atu with fifo := s.chip.atu.fifo ++ [frame.toNat] } ∧
      d.rd R.ATU_FREE_LEVEL_LEVEL = s.chip.atu.fifo.length + 1 ∧
      leNat (d.muslin.read (devOffset a) 8) = setBits e 36 2 0 ∧ s.chip.muslinKept d (devOffset a) 8) := by
  obtain ⟨d, hd, hread, hkept, hpush⟩ := Chip.pushFrame_accepted ha hreg halign hw he hroom hstate
  have hwithin : s.chip.within ({ d with atu := { s.chip.atu with fifo := s.chip.atu.fifo ++ [frame.toNat] } }.wr
      R.ATU_FREE_LEVEL_LEVEL (s.chip.atu.fifo.length + 1)) [.regs, .muslin, .msl, .atu] :=
    Chip.within_step [.regs, .atu] (Chip.within_mono _ _ _ _ hd rfl) rfl rfl
  refine answers_runHost_chip hh (exec_atuFreePush s frame) hpush (Chip.within_mono _ _ _ _ hwithin rfl)
    ⟨hwithin, rfl, (Chip.rd_wr_self _ _ _ _).trans (Nat.mod_eq_of_lt ?_), hread, hkept⟩
  exact (Nat.succ_lt_succ hroom).trans (by decide)

theorem atuFreePush_answers_refused (hbad : 8192 ≤ s.chip.atu.fifo.length ∨ frameState e ≠ 1) :
    Answers s (.atuFreePush frame) (fun d => s.chip.within d [.regs, .msl] ∧ d.on R.ATU_STATUS_PUSH_REFUSED = true ∧
      d.rd R.ATU_FREE_BAD_CNT_PUSHES = (s.chip.rd R.ATU_FREE_BAD_CNT_PUSHES + 1) % 2 ^ 16) := by
  obtain ⟨hwithin, hshown⟩ := (s.chip.reached (groupOf (devOffset a))).pushRefused_shows
  have hall := Chip.within_step (ps := [.regs, .msl]) _ (Chip.within_mono _ _ _ _ (s.chip.reached_within _) rfl) hwithin rfl
  exact answers_runHost_chip hh (exec_atuFreePush s frame) (Chip.pushFrame_refused ha hreg halign hw he hbad)
    (Chip.within_mono _ _ _ _ hall rfl) ⟨hall, hshown⟩

end

end Sys2Proof.Machine

namespace Sys2Proof.Machine

/-! ## Held operations (R231, R232) -/

/-- The parts that a command on a held operation may reach. -/
def Parts.holds : List Part := [.regs, .muslin, .dsp, .qmg, .msl, .drc, .atu, .gng, .sent]

/-! ### The hold table -/

/-- A hold table with a slot set or freed. -/
def Atu.withHold (u : Atu) (slot : Nat) (h : Option HoldRec) : Atu :=
  { u with holds := match h with
      | some h => Table.put u.holds slot h
      | none => Table.del u.holds slot }

theorem Atu.withHold_get (u : Atu) (slot : Nat) (h : Option HoldRec) : Table.get? (u.withHold slot h).holds slot = h := by
  cases h with
  | none => exact Table.get?_del_self _ _
  | some h => exact Table.get?_put_self _ _ _

theorem Chip.setHold_atu (c : Chip) (slot : Nat) (h : Option HoldRec) : (c.setHold slot h).atu = c.atu.withHold slot h :=
  Chip.atu_of_within (Chip.showHold_within _ slot) rfl

/-- What follows a completion leaves the ATU alone. -/
theorem Chip.settle_atu (c : Chip) : c.settle.atu = c.atu := rfl

theorem Chip.finishDesc_atu (c : Chip) (id i : Nat) (r : RecInfo) : (c.finishDesc id i r).atu = c.atu := rfl

theorem Chip.abandon_atu (c : Chip) (o : OpRun) : (c.abandon o).1.atu = c.atu := by
  refine foldl_keeps _ (·.atu) (fun c i => ?_) (heldEntries o) c
  have hstatus : (c.entryStatus o.raw i St.KV_ABANDONED).1.atu = c.atu := by
    unfold Chip.entryStatus
    dsimp only
    split
    · exact Chip.atu_of_within (c.devWrite_within _ _) rfl
    · rfl
  exact hstatus

/-! ### KV_RESUME and KV_ABANDON -/

/-- The effect of KV_RESUME on a slot of the hold table. -/
def Chip.resumeHeld (c : Chip) (slot : Nat) : Chip × Nat :=
  match Table.get? c.atu.holds slot with
  | some ⟨op, none, _⟩ => ((c.setHold slot (some ⟨op, some (c.dsp.nextOrder, c.now), false⟩)).settle, St.OK)
  | _ => (c, St.KV_BAD_PARAM)

/-- A held operation of a slot ended, with the record of what it held when it was abandoned. -/
def Chip.endHeld (c : Chip) (slot : Nat) (o : OpRun) : Chip :=
  (((c.abandon o).1.setHold slot none).finishDesc o.weave o.index (atuRecord (c.abandon o).2 (c.abandon o).2.finalStatus)).settle

/-- The effect of KV_ABANDON on a slot of the hold table. -/
def Chip.abandonHeld (c : Chip) (slot : Nat) : Chip × Nat :=
  match Table.get? c.atu.holds slot with
  | none => (c, St.KV_BAD_PARAM)
  | some h => if h.started then (c, St.KV_LIST_BUSY) else (c.endHeld slot h.op, St.OK)

theorem exec_kvResume (s : State) (slot : Nat) : exec (.kvResume slot) s =
    s.runHost Parts.holds (fun c => c.atuCmd (fun c => c.resumeHeld (slot % 16))) := rfl

theorem exec_kvAbandon (s : State) (slot : Nat) : exec (.kvAbandon slot) s =
    s.runHost Parts.holds (fun c => c.atuCmd (fun c => c.abandonHeld (slot % 16))) := rfl

section
variable {c : Chip} {slot : Nat}

theorem Chip.resumeHeld_none (h : Table.get? c.atu.holds slot = none) : c.resumeHeld slot = (c, St.KV_BAD_PARAM) := by
  rw [Chip.resumeHeld, h]

theorem Chip.resumeHeld_some {o : OpRun} {b : Bool} (h : Table.get? c.atu.holds slot = some ⟨o, none, b⟩) :
    c.resumeHeld slot = ((c.setHold slot (some ⟨o, some (c.dsp.nextOrder, c.now), false⟩)).settle, St.OK) := by
  rw [Chip.resumeHeld, h]

theorem Chip.abandonHeld_none (h : Table.get? c.atu.holds slot = none) : c.abandonHeld slot = (c, St.KV_BAD_PARAM) := by
  rw [Chip.abandonHeld, h]

theorem Chip.abandonHeld_some {h : HoldRec} (hh : Table.get? c.atu.holds slot = some h) (hs : h.started = false) :
    c.abandonHeld slot = (c.endHeld slot h.op, St.OK) := by
  rw [Chip.abandonHeld, hh]
  exact if_neg (by rw [hs]; decide)

end

theorem Chip.endHeld_atu (c : Chip) (slot : Nat) (o : OpRun) : (c.endHeld slot o).atu = c.atu.withHold slot none := by
  rw [Chip.endHeld, Chip.settle_atu, Chip.finishDesc_atu, Chip.setHold_atu, Chip.abandon_atu]

/-- The descriptor of an operation that is abandoned is done. -/
theorem Chip.endHeld_done {c : Chip} {o : OpRun} {w v : Weave} (slot : Nat) (hw : c.weave? o.weave = some w)
    (hi : o.index < w.descs.length) (hv : (c.endHeld slot o).weave? o.weave = some v) : v.isDone o.index = true := by
  have hdsp : ((c.abandon o).1.setHold slot none).dsp = c.dsp := (Chip.setHold_dsp _ _ _).trans (c.abandon_dsp o)
  rw [Weave.isDone, Chip.ended_done ((Chip.weave_congr _ _ _ hdsp).trans hw) hi _ hv]

theorem kvHeld_answers_refused {s : State} {slot : Nat} (hh : s.chip.heard = true)
    (hidle : s.chip.on R.ATU_CMD_STATUS_BUSY = false) (hnone : Table.get? s.chip.atu.holds (slot % 16) = none) {i : Instr}
    (hi : i = .kvResume slot ∨ i = .kvAbandon slot) :
    Answers s i (fun d => s.chip.within d [.regs] ∧ d.rd R.ATU_CMD_STATUS_STATUS = St.KV_BAD_PARAM ∧
      s.chip.regsKept d [(R.ATU_CMD_STATUS_STATUS, 0)]) := by
  obtain rfl | rfl := hi
  · exact atuCmd_answers_refused hh hidle (exec_kvResume s slot) rfl (Chip.resumeHeld_none hnone) (by decide)
  · exact atuCmd_answers_refused hh hidle (exec_kvAbandon s slot) rfl (Chip.abandonHeld_none hnone) (by decide)

/-- A command on a held operation that is done, with the effect `b`, answers OK, and the tables of the ATU and the weaves as they are
in `b`. -/
theorem atuCmd_answers_done {s : State} {i : Instr} {f : Chip → Chip × Nat} {b : Chip} (hh : s.chip.heard = true)
    (hidle : s.chip.on R.ATU_CMD_STATUS_BUSY = false) (he : exec i s = s.runHost Parts.holds (fun c => c.atuCmd f))
    (hf : f s.chip = (b, St.OK)) :
    Answers s i (fun d => s.chip.within d Parts.holds ∧ d.rd R.ATU_CMD_STATUS_STATUS = St.OK ∧ d.atu = b.atu ∧
      d.dsp = b.dsp) := by
  refine answers_runHost s i Parts.holds _ _ hh he ?_
  rw [Chip.atuCmd_idle hidle, hf]
  refine ⟨?_, Chip.only_atu_in _ _ _ rfl, Chip.only_dsp_in _ _ _ rfl⟩
  rw [Chip.only_rd_in _ _ _ _ _ rfl, Chip.rd_wr_self]
  rfl

theorem kvResume_answers {s : State} {slot : Nat} {o : OpRun} {b : Bool} (hh : s.chip.heard = true)
    (hidle : s.chip.on R.ATU_CMD_STATUS_BUSY = false) (hhold : Table.get? s.chip.atu.holds (slot % 16) = some ⟨o, none, b⟩) :
    Answers s (.kvResume slot) (fun d => s.chip.within d Parts.holds ∧ d.rd R.ATU_CMD_STATUS_STATUS = St.OK ∧
      Table.get? d.atu.holds (slot % 16) = some ⟨o, some (s.chip.dsp.nextOrder, s.chip.now), false⟩ ∧
      d.atu.fifo = s.chip.atu.fifo) := by
  refine Answers.mono (atuCmd_answers_done hh hidle (exec_kvResume s slot) (Chip.resumeHeld_some hhold))
    fun d ⟨hwithin, hstatus, hatu, _⟩ => ⟨hwithin, hstatus, ?_⟩
  rw [hatu, Chip.settle_atu, Chip.setHold_atu]
  exact ⟨Atu.withHold_get _ _ _, rfl⟩

theorem kvAbandon_answers {s : State} {slot : Nat} {h : HoldRec} {w : Weave} (hh : s.chip.heard = true)
    (hidle : s.chip.on R.ATU_CMD_STATUS_BUSY = false) (hhold : Table.get? s.chip.atu.holds (slot % 16) = some h)
    (hs : h.started = false) (hw : s.chip.weave? h.op.weave = some w) (hi : h.op.index < w.descs.length) :
    Answers s (.kvAbandon slot) (fun d => s.chip.within d Parts.holds ∧ d.rd R.ATU_CMD_STATUS_STATUS = St.OK ∧
      Table.get? d.atu.holds (slot % 16) = none ∧ ∀ v, d.weave? h.op.weave = some v → v.isDone h.op.index = true) := by
  refine Answers.mono (atuCmd_answers_done hh hidle (exec_kvAbandon s slot) (Chip.abandonHeld_some hhold hs))
    fun d ⟨hwithin, hstatus, hatu, hdsp⟩ => ⟨hwithin, hstatus, ?_, fun v hv => ?_⟩
  · rw [hatu, Chip.endHeld_atu]
    exact Atu.withHold_get _ _ _
  · exact Chip.endHeld_done _ hw hi ((Chip.weave_congr _ _ _ hdsp).symm.trans hv)

/-! ## The statement -/

/-- Settles O41: each command on a descriptor is a `SeqCommand` with its own effect; the fence, the push and the hold commands have their
effect written out (`Chip.fenceDone`, `Chip.pushFrame_eq`, `Chip.resumeHeld`, `Chip.abandonHeld`), and what follows a completion
leaves the ATU alone (`Chip.settle_atu`). -/
theorem atuCommands : Obligations.AtuCommands := by
  unfold Obligations.AtuCommands
  refine ⟨?sequence, ?fence, ?ended, ?waits, ?push, ?empty, ?resume, ?abandon⟩
  case sequence =>
    rintro s seq _ _ v hh hidle rfl rfl hv _ rfl
    have hvalue : v = s.chip.seqOperand := hv
    have hwidth : v < 2 ^ R.ATU_SEQ_DESCRIPTOR.width := hvalue.trans_lt (seqMask_lt _)
    have hwrite := seqCommand_kvWrite seq
    have hswap := seqCommand_kvSwap seq
    have hinvalidate := seqCommand_kvInvalidate seq
    have hclear := seqCommand_kvClearHeld seq
    refine ⟨?locked, fun hopen => ⟨?bad, ?written, ?invalid, ?stale, ?swapped, ?_, ?_⟩⟩
    case locked =>
      rintro hlock i (rfl | rfl | rfl | rfl)
      · exact hwrite.answers_locked hh hidle hlock
      · exact hswap.answers_locked hh hidle hlock
      · exact hinvalidate.answers_locked hh hidle hlock
      · exact hclear.answers_locked hh hidle hlock
    case bad => exact fun hvalid ha => hwrite.answers_refused hh hidle hopen (Chip.kvWritten_bad hvalue _ hvalid ha) (by decide)
    case written =>
      exact fun h => hwrite.answers_written hh hidle hopen (Chip.kvWritten_good hvalue _ h) (setBits_lt _ hwidth (by decide))
    case invalid => exact fun hv => hswap.answers_refused hh hidle hopen (Chip.kvSwapped_invalid hv) (by decide)
    case stale => exact fun hv hc => hswap.answers_refused hh hidle hopen (Chip.kvSwapped_stale hv hc) (by decide)
    case swapped =>
      exact fun hv hc list st hlist hst hlistOk hstOk => hswap.answers_written hh hidle hopen
        (Chip.kvSwapped_good hv hc hlist hst hlistOk hstOk) (Chip.swapped_lt _ _ _ _ _)
    · exact hinvalidate.answers_written hh hidle hopen rfl (setBits_lt _ (Chip.rd_lt _ _ _) (by decide))
    · exact hclear.answers_written hh hidle hopen rfl (setBits_lt _ (Chip.rd_lt _ _ _) (by decide))
  case fence => exact fun s hh hidle => kvFence_answers hh hidle
  case ended => exact fun s t ha hf ht => kvFenceDone_answers_ended ha hf ht
  case waits => exact fun s t ha hf ht => kvFenceDone_answers_waits ha hf ht
  case push =>
    exact fun s frame a e hh ha hreg halign hw he => ⟨atuFreePush_answers_accepted hh ha hreg halign hw he,
      atuFreePush_answers_refused hh ha hreg halign hw he⟩
  case empty => exact fun s slot hh hidle hnone i hi => kvHeld_answers_refused hh hidle hnone hi
  case resume => exact fun s slot o b hh hidle hhold => kvResume_answers hh hidle hhold
  case abandon => exact fun s slot h w hh hidle hhold hs hw hi => kvAbandon_answers hh hidle hhold hs hw hi

end Sys2Proof.Machine

namespace Sys2Proof.Machine

/-! # Service commands of Twill (R263, R264), Gingham's pair (R257) and the host timeout (R278) -/

/-! ## Places of registers -/

theorem Field.addr_le_pos (g : Field) (j : Nat) : 8 * g.addr ≤ g.pos j := by
  rw [Field.pos]
  omega

/-- A register before an offset shares no bit with the elements of a register from there on. -/
theorem Field.apart_of_before {f g : Field} {a : Nat} (hf : f.pos 0 + f.width ≤ 8 * a) (hg : a ≤ g.addr) (j : Nat) :
    f.apart 0 g j = true := by
  rw [Field.apart, Bool.or_eq_true, decide_eq_true_eq]
  exact .inl (hf.trans ((Nat.mul_le_mul_left 8 hg).trans (g.addr_le_pos j)))

/-- A register behind the host interface is no event's bit, and no word of the pending bit array. -/
theorem Field.clearOfEvent_of_behind {g : Field} (h : 0x20000 ≤ g.addr) (j : Nat) {n : Nat} (hn : n < 2 ^ 16) :
    g.clearOfEvent j n = true := by
  have hpos := g.pos_eq j
  have haddr := g.addr_le_pos j
  simp only [Field.clearOfEvent, msixPba, Bool.and_eq_true, List.all_eq_true, bne_iff_ne]
  exact ⟨Field.apart_of_before (by decide) h j, fun k _ => by omega⟩

theorem clusterState_apart {i j : Nat} (h : i ≠ j) : R.TWL_CLUSTER_STATE.apart i R.TWL_CLUSTER_STATE j = true := by
  rw [Field.apart, Bool.or_eq_true, decide_eq_true_eq, decide_eq_true_eq]
  simp only [Field.pos, R.TWL_CLUSTER_STATE]
  omega

/-! ## What Gingham's following leaves of other registers -/

theorem Chip.gngFollow_within (c : Chip) (wrong : Bool) :
    c.within (c.gngFollow wrong) [.regs, .dict, .muslin, .qmg, .msl, .drc, .gng, .sent] := rfl

/-- Gingham rests on where neither its state nor the dictionary changes. -/
theorem Chip.gngIdle.of_within {c d : Chip} {ps : List Part} (h : c.gngIdle) (hw : c.within d ps) (hd : ps.contains .dict = false)
    (hg : ps.contains .gng = false) : d.gngIdle := by
  have hdict : d.dict = c.dict := Chip.within_keeps _ _ _ (·.dict) hw (Chip.only_dict_out _ _ _ hd)
  have hgng : d.gng = c.gng := Chip.within_keeps _ _ _ (·.gng) hw (Chip.only_gng_out _ _ _ hg)
  unfold Chip.gngIdle Chip.gngOn Chip.entryOn at h ⊢
  rwa [Chip.entry_congr _ _ _ _ hdict, hgng]

/-- The registers of a network lie behind those of every other block. -/
theorem Chip.rd_showNet (c : Chip) (n : Nat) {g : Field} {j : Nat} (hg : g.pos j + g.width ≤ 8 * 0x1000000) :
    (c.showNet n).rd g j = c.rd g j := by
  have hnet : ∀ f : Field, 0x1000000 ≤ f.addr → f.apart n g j = true := fun f hf => by
    have hpos := f.addr_le_pos n
    rw [Field.apart, Bool.or_eq_true, decide_eq_true_eq, decide_eq_true_eq]
    omega
  unfold Chip.showNet
  extract_lets q latest hist inFrame c₁ c₂ c₃ c₄
  have h₁ : c₁.rd g j = c.rd g j := Chip.rd_wr_apart _ _ _ _ _ _ (hnet _ (by decide))
  have h₂ : c₂.rd g j = c₁.rd g j := Chip.rd_wr_apart _ _ _ _ _ _ (hnet _ (by decide))
  have h₃ : c₃.rd g j = c₂.rd g j := Chip.rd_wr_apart _ _ _ _ _ _ (hnet _ (by decide))
  have h₄ : c₄.rd g j = c₃.rd g j := Chip.rd_wr_apart _ _ _ _ _ _ (hnet _ (by decide))
  rw [Chip.rd_wr_apart _ _ _ _ _ _ (hnet _ (by decide)), h₄, h₃, h₂, h₁]

/-- With no log entry and no change of a network, the end of Gingham's work shows the networks only. -/
theorem Chip.rd_gngEnd_quiet {c : Chip} (hdirty : c.gng.dirty = false) (hlogs : c.gng.logs = []) {g : Field} {j : Nat}
    (hg : g.pos j + g.width ≤ 8 * 0x1000000) : c.gngEnd.rd g j = c.rd g j := by
  unfold Chip.gngEnd
  extract_lets c₁ logs c₂ q c₃
  have h₁ : c₁ = c := if_neg (by rw [hdirty]; exact Bool.false_ne_true)
  have h₃ : c₃ = c₂ := by
    simp only [c₃, logs, h₁, hlogs, List.foldl_nil, ite_self]
  have hshown : ((List.range 8).foldl (fun (c : Chip) n => c.showNet n) c₃).rd g j = c₃.rd g j :=
    foldl_keeps _ (·.rd g j) (fun c n => c.rd_showNet n hg) _ c₃
  have hlogged : c₂.rd g j = c₁.rd g j := rfl
  rw [hshown, h₃, hlogged, h₁]

theorem Chip.rd_followed (c d : Chip) (g : Field) (j : Nat) : (c.followed d).rd g j = d.rd g j := rfl

/-- Gingham at rest follows a step without a change of another block's registers. -/
theorem Chip.rd_gngFollow_idle {c : Chip} (h : c.gngIdle) {g : Field} {j : Nat} (hg : g.pos j + g.width ≤ 8 * 0x1000000) :
    c.gngFollow.rd g j = c.rd g j := by
  obtain ⟨hoff, hframes, hgolden, hlogs, hdirty⟩ := h
  unfold Chip.gngFollow
  extract_lets c₁ lost c₂ c₃ c₄ past
  have hlost : lost = false := by
    have hon : c₁.gngOn = false := hoff
    simp only [lost, hon, Bool.false_and]
  have h₂ : c₂ = c₁ := by
    simp only [c₂, hlost, Bool.false_and, Bool.false_eq_true, if_false]
  have h₃ : c₃ = c₁ := by
    have hnone : c₁.gng.frames = [] := congrArg (List.map _) hframes
    simp only [c₃, h₂, hnone, List.filter_nil, List.foldl_nil]
  have h₄ : c₄ = c₁ := by
    have hnone : c₁.gng.golden = [] := hgolden
    simp only [c₄, h₃, hnone, List.foldl_nil]
  rw [h₄, Chip.rd_followed]
  have hquiet : ∀ e : Chip, e.gng.dirty = c.gng.dirty → e.gng.logs = c.gng.logs → e.regs = c.regs → e.gngEnd.rd g j = c.rd g j :=
    fun e hd hl hr => (Chip.rd_gngEnd_quiet (hd.trans hdirty) (hl.trans hlogs) hg).trans (Chip.rd_congr _ _ _ _ hr)
  exact hquiet _ rfl rfl rfl

/-! ## A cluster's state (R239, R268) -/

/-- The counts of TWL_STATUS lie before every other register of Twill. -/
theorem Chip.rd_setCluster (c : Chip) (k st : Nat) {g : Field} (hg : 0x600004 ≤ g.addr) (j : Nat) :
    (c.setCluster k st).rd g j = (c.wr R.TWL_CLUSTER_STATE st k).rd g j := by
  have hactive : R.TWL_STATUS_ACTIVE.apart 0 g j = true := Field.apart_of_before (by decide) hg j
  have hspare : R.TWL_STATUS_SPARE.apart 0 g j = true := Field.apart_of_before (by decide) hg j
  rw [Chip.setCluster, Chip.rd_wr_apart _ _ _ _ _ _ hspare, Chip.rd_wr_apart _ _ _ _ _ _ hactive]
  rfl

theorem Chip.setCluster_state (c : Chip) (k : Nat) {st : Nat} (h : st < 8) :
    (c.setCluster k st).rd R.TWL_CLUSTER_STATE k = st := by
  rw [Chip.rd_setCluster _ _ _ (by decide), Chip.rd_wr_self]
  exact Nat.mod_eq_of_lt h

theorem Chip.setCluster_state_other (c : Chip) {k j : Nat} (st : Nat) (h : k ≠ j) :
    (c.setCluster k st).rd R.TWL_CLUSTER_STATE j = c.rd R.TWL_CLUSTER_STATE j := by
  rw [Chip.rd_setCluster _ _ _ (by decide), Chip.rd_wr_apart _ _ _ _ _ _ (clusterState_apart h)]

theorem Chip.setCluster_testPass (c : Chip) (k st : Nat) :
    (c.setCluster k st).on R.TWL_CLUSTER_TEST_PASS k = c.on R.TWL_CLUSTER_TEST_PASS k := by
  rw [Chip.on, Chip.rd_setCluster _ _ _ (by decide), Chip.rd_wr_apart _ _ _ _ _ _ (Field.apart_sibling (by decide) k), Chip.on]

theorem Chip.mem_setCluster_isolated (c : Chip) (k st i : Nat) : i ∈ (c.setCluster k st).isolated ↔
    if st = clRemoved ∨ st = clFailed then i = clusterIsland k ∨ i ∈ c.isolated else i ∈ c.isolated ∧ i ≠ clusterIsland k := by
  have hset : (c.setCluster k st).isolated = if st = clRemoved ∨ st = clFailed then insertNat c.isolated (clusterIsland k)
    else c.isolated.filter (· != clusterIsland k) := rfl
  rw [hset]
  split
  · exact mem_insertNat
  · rw [List.mem_filter, bne_iff_ne]

theorem Chip.setCluster_within (c : Chip) (k st : Nat) : c.within (c.setCluster k st) [.regs, .isolated] := rfl

/-! ## The command in progress (R263) -/

theorem Chip.twlBusy_within (c : Chip) (v : Option TwlService) : c.within (c.twlBusy v) [.regs, .twl] := rfl

theorem Chip.twlBusy_twl (c : Chip) (v : Option TwlService) : (c.twlBusy v).twl = { c.twl with service := v } := rfl

theorem Chip.on_twlBusy (c : Chip) (v : Option TwlService) : (c.twlBusy v).on R.TWL_SVC_CMD_BUSY = v.isSome := by
  rw [Chip.twlBusy, Chip.on_wr_apart _ _ _ _ _ _ (by decide), Chip.on_wr_self]
  cases v <;> rfl

theorem Chip.rd_twlBusy (c : Chip) (v : Option TwlService) {g : Field} {j : Nat} (hb : R.TWL_SVC_CMD_BUSY.apart 0 g j = true)
    (hs : R.TWL_STATUS_SVC_BUSY.apart 0 g j = true) : (c.twlBusy v).rd g j = c.rd g j := by
  rw [Chip.twlBusy, Chip.rd_wr_apart _ _ _ _ _ _ hs, Chip.rd_wr_apart _ _ _ _ _ _ hb]
  rfl

/-- The registers of the clusters lie behind those of the service command. -/
theorem Chip.rd_twlBusy_cluster (c : Chip) (v : Option TwlService) {g : Field} (hg : 0x600100 ≤ g.addr) (j : Nat) :
    (c.twlBusy v).rd g j = c.rd g j :=
  c.rd_twlBusy v (Field.apart_of_before (by decide) hg j) (Field.apart_of_before (by decide) hg j)

theorem Chip.twlDone_within (c : Chip) (v : TwlService) (result : Nat) :
    c.within (c.twlDone v result) [.regs, .dict, .twl, .odx] := by
  have hbusy := Chip.within_step (ps := [.regs, .dict, .twl, .odx]) _ (Chip.within_mono _ _ _ _ (c.wr_within _ _ _) rfl)
    ((c.wr R.TWL_SVC_CMD_RESULT result).twlBusy_within none) rfl
  exact Chip.within_step _ hbusy (Chip.journal_within _ _) rfl

theorem Chip.rd_twlDone (c : Chip) (v : TwlService) (result : Nat) (g : Field) (j : Nat) :
    (c.twlDone v result).rd g j = ((c.wr R.TWL_SVC_CMD_RESULT result).twlBusy none).rd g j :=
  Chip.rd_congr _ _ _ _ (Chip.journalService_regs _ _ _ _)

theorem Chip.rd_twlDone_cluster (c : Chip) (v : TwlService) (result : Nat) {g : Field} (hg : 0x600100 ≤ g.addr) (j : Nat) :
    (c.twlDone v result).rd g j = c.rd g j := by
  have hresult : R.TWL_SVC_CMD_RESULT.apart 0 g j = true := Field.apart_of_before (by decide) hg j
  rw [Chip.rd_twlDone, Chip.rd_twlBusy_cluster _ _ hg, Chip.rd_wr_apart _ _ _ _ _ _ hresult]

/-- A service command that is complete reads so, and none is in progress. -/
theorem Chip.twlDone_answered (c : Chip) (v : TwlService) {result : Nat} (h : result < 16) :
    (c.twlDone v result).rd R.TWL_SVC_CMD_RESULT = result ∧ (c.twlDone v result).on R.TWL_SVC_CMD_BUSY = false ∧
      (c.twlDone v result).twl.service = none := by
  refine ⟨?_, ?_, ?_⟩
  · rw [Chip.rd_twlDone, Chip.rd_twlBusy _ _ (by decide) (by decide), Chip.rd_wr_self]
    exact Nat.mod_eq_of_lt h
  · rw [Chip.on, Chip.rd_twlDone, ← Chip.on, Chip.on_twlBusy]
    rfl
  · rw [Chip.twlDone, Chip.journalService_twl]
    rfl

theorem Chip.twlDone_isolated (c : Chip) (v : TwlService) (result : Nat) : (c.twlDone v result).isolated = c.isolated :=
  Chip.within_keeps _ _ _ (·.isolated) (c.twlDone_within v result) (Chip.only_isolated_out _ _ _ rfl)

end Sys2Proof.Machine

namespace Sys2Proof.Machine

/-! ## The host's service commands (R263) -/

/-- Command `i` of the host is a service command of Twill: it works as `f`, within `ps`, on a cluster in the state `need`. -/
def TwillCommand (i : Instr) (ps : List Part) (v : TwlService) (need : Nat) (f : Chip → Chip) : Prop :=
  ∀ s, exec i s = s.runHost ps (fun c => c.twlStart v need f)

/-- Cluster `k` enters its known-answer run under a service command. -/
def Chip.beginTest (c : Chip) (k : Nat) (v : TwlService) : Chip := (c.setCluster k clTesting).twlBusy (some v)

/-- Whether a cluster other than `k` is active and serves neither the ATU nor Gingham. -/
def Chip.otherServes (c : Chip) (k : Nat) : Bool :=
  (List.range 18).any (fun j => j != k && c.rd R.TWL_CLUSTER_STATE j == clActive && !c.clusterOnDuty j)

/-- REMOVE of an active cluster. -/
def Chip.removeCluster (c : Chip) (k : Nat) (force auto : Bool) : Chip :=
  let v : TwlService := ⟨1, k, force, auto, false, none, c.now⟩
  if c.clusterOnDuty k && !force then c.twlRefuse v 4
  else if !c.otherServes k then c.twlRefuse v 7
  else if auto then (c.twlBusy (some v)).twlTrySpare v
  else (c.twlBusy (some v)).twlDrain v

/-- RETURN of a removed cluster. -/
def Chip.returnCluster (c : Chip) (k : Nat) : Chip :=
  let v : TwlService := ⟨3, k, false, false, false, none, 0⟩
  if c.on R.TWL_CLUSTER_TEST_PASS k then (c.setCluster k clSpare).twlDone v 1 else c.twlRefuse v 3

/-- The parts that REMOVE may reach. -/
def Parts.twlRemove : List Part := [.regs, .dict, .muslin, .dsp, .qmg, .msl, .drc, .twl, .odx, .gng, .isolated, .sent]

/-- The parts that the other service commands may reach. -/
def Parts.twlService : List Part := [.regs, .dict, .twl, .odx, .isolated]

/-- REMOVE that leaves the journal and the dictionary's sessions alone. -/
theorem Chip.within_of_odx_kept {c d : Chip} (h : c.within d Parts.twlRemove) (ho : d.odx = c.odx) :
    c.within d [.regs, .dict, .muslin, .dsp, .qmg, .msl, .drc, .twl, .gng, .isolated, .sent] := by
  have honly : d.only [.regs, .dict, .muslin, .dsp, .qmg, .msl, .drc, .twl, .gng, .isolated, .sent] c = d.only Parts.twlRemove c := by
    unfold Chip.only
    rw [ho]
    rfl
  exact honly.trans h

theorem twillCommand_remove (k : Nat) (force auto : Bool) : TwillCommand (.twlRemove k force auto) Parts.twlRemove
    ⟨1, k, force, auto, false, none, 0⟩ clActive (fun c => c.removeCluster k force auto) := fun _ => rfl

theorem twillCommand_test (k : Nat) : TwillCommand (.twlTest k) Parts.twlService ⟨2, k, false, false, false, none, 0⟩ clRemoved
    (fun c => c.beginTest k ⟨2, k, false, false, false, some k, c.now⟩) := fun _ => rfl

theorem twillCommand_return (k : Nat) : TwillCommand (.twlReturn k) Parts.twlService ⟨3, k, false, false, false, none, 0⟩ clRemoved
    (fun c => c.returnCluster k) := fun _ => rfl

theorem twillCommand_activate (k : Nat) : TwillCommand (.twlActivate k) Parts.twlService ⟨4, k, false, false, false, none, 0⟩
    clSpare (fun c => c.beginTest k ⟨4, k, false, false, false, some k, c.now⟩) := fun _ => rfl

/-- What the statement says of a refused service command. -/
def Chip.twlRefused (c : Chip) (result : Nat) (d : Chip) : Prop :=
  c.within d [.regs, .dict, .odx] ∧ d.rd R.TWL_SVC_CMD_RESULT = result ∧ c.regsKept d [(R.TWL_SVC_CMD_RESULT, 0)] ∧
    d.odx.nextSeq = c.odx.nextSeq + 1

theorem Chip.twlRefuse_refused (c : Chip) (v : TwlService) {result : Nat} (h : result < 16) :
    c.twlRefused result (c.twlRefuse v result) := by
  have hregs : ∀ g j, (c.twlRefuse v result).rd g j = (c.wr R.TWL_SVC_CMD_RESULT result).rd g j := fun g j =>
    Chip.rd_congr _ _ _ _ (Chip.journalService_regs _ _ _ _)
  refine ⟨?_, ?_, fun g j hg => (hregs g j).trans ?_, ?_⟩
  · exact Chip.within_step _ (Chip.within_mono _ _ _ _ (c.wr_within _ _ _) rfl) (Chip.journal_within _ _) rfl
  · rw [hregs, Chip.rd_wr_self]
    exact Nat.mod_eq_of_lt h
  · exact Chip.regsKept_wr c.regsKept_refl _ _ _ g j hg
  · obtain ⟨-, hseq, -⟩ := (c.wr R.TWL_SVC_CMD_RESULT result).journalled_journal
      { kind := 0x0B, port := 0, status := result, extra := bits R.TWL_SVC_CMD.addr 0 32 + (bits v.word 0 32 <<< 32) }
    exact hseq

section
variable {i : Instr} {ps : List Part} {v : TwlService} {need : Nat} {f : Chip → Chip} {s : State} {P : Chip → Prop}
variable (hi : TwillCommand i ps v need f) (hh : s.chip.heard = true)
include hi hh

/-- RESULT 6: the write is no command. -/
theorem TwillCommand.answers_busy (hbusy : s.chip.on R.TWL_SVC_CMD_BUSY = true) (hps : ps.contains .regs = true) :
    Answers s i (fun d => s.chip.within d [.regs] ∧ d.rd R.TWL_SVC_CMD_RESULT = 6 ∧
      s.chip.regsKept d [(R.TWL_SVC_CMD_RESULT, 0)]) := by
  have hwithin : s.chip.within (s.chip.wr R.TWL_SVC_CMD_RESULT 6) [.regs] := s.chip.wr_within _ _ _
  refine answers_runHost_chip hh (hi s) (if_pos hbusy) (Chip.within_mono _ _ _ _ hwithin ?_)
    ⟨hwithin, Chip.rd_wr_self _ _ _ _, Chip.regsKept_wr s.chip.regsKept_refl _ _ _⟩
  rw [List.all_cons, List.all_nil, hps]
  rfl

variable (hidle : s.chip.on R.TWL_SVC_CMD_BUSY = false)
include hidle

/-- RESULT 3: no such cluster, or not in the state that the command needs. -/
theorem TwillCommand.answers_wrongState (hps : ([Part.regs, .dict, .odx].all fun p => ps.contains p) = true)
    (hstate : 17 < v.cluster ∨ s.chip.rd R.TWL_CLUSTER_STATE v.cluster ≠ need) : Answers s i (s.chip.twlRefused 3) := by
  have hrefused := s.chip.twlRefuse_refused v (show 3 < 16 by decide)
  refine answers_runHost_chip hh (hi s) ?_ (Chip.within_mono _ _ _ _ hrefused.1 hps) hrefused
  rw [Chip.twlStart, hidle, if_neg Bool.false_ne_true, if_pos hstate]

variable (hk : v.cluster ≤ 17) (hstate : s.chip.rd R.TWL_CLUSTER_STATE v.cluster = need)
include hk hstate

theorem TwillCommand.answers_only (hp : P ((f s.chip).only ps s.chip)) : Answers s i P := by
  have hready : ¬ (17 < v.cluster ∨ s.chip.rd R.TWL_CLUSTER_STATE v.cluster ≠ need) := fun h =>
    h.elim (Nat.not_lt.mpr hk) (fun hne => hne hstate)
  refine ⟨_, ?_, hp⟩
  rw [hi s, State.runHost_heard _ _ _ hh, Chip.twlStart, hidle, if_neg Bool.false_ne_true, if_neg hready]

theorem TwillCommand.answers {d : Chip} (hd : f s.chip = d) (hw : s.chip.within d ps) (hp : P d) : Answers s i P := by
  have honly : d.only ps s.chip = d := hw
  exact hi.answers_only hh hidle hk hstate (by rwa [hd, honly])

theorem TwillCommand.answers_refused {w : TwlService} {result : Nat} (hf : f s.chip = s.chip.twlRefuse w result)
    (hr : result < 16) (hps : ([Part.regs, .dict, .odx].all fun p => ps.contains p) = true) :
    Answers s i (s.chip.twlRefused result) := by
  have hrefused := s.chip.twlRefuse_refused w hr
  exact hi.answers hh hidle hk hstate hf (Chip.within_mono _ _ _ _ hrefused.1 hps) hrefused

end

/-! ### TEST, ACTIVATE and RETURN -/

theorem Chip.beginTest_spec (c : Chip) (k : Nat) (v : TwlService) : c.within (c.beginTest k v) [.regs, .twl, .isolated] ∧
    (c.beginTest k v).rd R.TWL_CLUSTER_STATE k = clTesting ∧ (c.beginTest k v).on R.TWL_SVC_CMD_BUSY = true ∧
    clusterIsland k ∉ (c.beginTest k v).isolated ∧ (c.beginTest k v).twl = { c.twl with service := some v } := by
  refine ⟨?_, ?_, Chip.on_twlBusy _ _, fun hmem => ?_, rfl⟩
  · exact Chip.within_step _ (Chip.within_mono _ _ _ _ (c.setCluster_within _ _) rfl) (Chip.twlBusy_within _ _) rfl
  · rw [Chip.beginTest, Chip.rd_twlBusy_cluster _ _ (by decide), Chip.setCluster_state _ _ (by decide)]
  · exact ((c.mem_setCluster_isolated k clTesting _).mp hmem).2 rfl

/-- The record of a RETURN (R512). -/
theorem Chip.journalled_returned (c : Chip) {k : Nat} (hk : k ≤ 17) :
    c.journalled ((c.setCluster k clSpare).twlDone ⟨3, k, false, false, false, none, 0⟩ 1)
      { kind := 0x0B, port := 0, status := 1, extra := 0x600004 + ((3 + k * 8) <<< 32) } := by
  have hword : bits (TwlService.word ⟨3, k, false, false, false, none, 0⟩) 0 32 = 3 + k * 8 := by
    have hvalue : TwlService.word ⟨3, k, false, false, false, none, 0⟩ = 3 + k * 8 := by
      simp [TwlService.word, b2n, Nat.shiftLeft_eq]
    rw [hvalue]
    exact Nat.mod_eq_of_lt (show 3 + k * 8 < 2 ^ 32 by omega)
  have hbefore : c.within (((c.setCluster k clSpare).wr R.TWL_SVC_CMD_RESULT 1).twlBusy none) [.regs, .twl, .isolated] :=
    Chip.within_step _ (Chip.within_step (ps := [.regs, .twl, .isolated]) _ (Chip.within_mono _ _ _ _ (c.setCluster_within _ _) rfl)
      (Chip.wr_within _ _ _ _) rfl) (Chip.twlBusy_within _ _) rfl
  have hodx := Chip.within_keeps _ _ _ (·.odx) hbefore (Chip.only_odx_out _ _ _ rfl)
  rw [Chip.twlDone, Chip.journalService, hword]
  exact (Chip.journalled_journal _ _).congr hodx.symm rfl rfl rfl

theorem twlTest_answers {s : State} {k : Nat} (hh : s.chip.heard = true) (hk : k ≤ 17)
    (hidle : s.chip.on R.TWL_SVC_CMD_BUSY = false) (hst : s.chip.rd R.TWL_CLUSTER_STATE k = clRemoved) :
    Answers s (.twlTest k) (fun d => s.chip.within d [.regs, .twl, .isolated] ∧ d.rd R.TWL_CLUSTER_STATE k = clTesting ∧
      d.on R.TWL_SVC_CMD_BUSY = true ∧ clusterIsland k ∉ d.isolated ∧
      d.twl = { s.chip.twl with service := some ⟨2, k, false, false, false, some k, s.chip.now⟩ }) := by
  have hspec := s.chip.beginTest_spec k ⟨2, k, false, false, false, some k, s.chip.now⟩
  exact (twillCommand_test k).answers hh hidle hk hst rfl (Chip.within_mono _ _ _ _ hspec.1 rfl) hspec

theorem twlActivate_answers {s : State} {k : Nat} (hh : s.chip.heard = true) (hk : k ≤ 17)
    (hidle : s.chip.on R.TWL_SVC_CMD_BUSY = false) (hst : s.chip.rd R.TWL_CLUSTER_STATE k = clSpare) :
    Answers s (.twlActivate k) (fun d => s.chip.within d [.regs, .twl, .isolated] ∧ d.rd R.TWL_CLUSTER_STATE k = clTesting ∧
      d.on R.TWL_SVC_CMD_BUSY = true ∧
      d.twl = { s.chip.twl with service := some ⟨4, k, false, false, false, some k, s.chip.now⟩ }) := by
  obtain ⟨hwithin, hstate, hbusy, -, htwl⟩ := s.chip.beginTest_spec k ⟨4, k, false, false, false, some k, s.chip.now⟩
  exact (twillCommand_activate k).answers hh hidle hk hst rfl (Chip.within_mono _ _ _ _ hwithin rfl) ⟨hwithin, hstate, hbusy, htwl⟩

theorem twlReturn_answers {s : State} {k : Nat} (hh : s.chip.heard = true) (hk : k ≤ 17)
    (hidle : s.chip.on R.TWL_SVC_CMD_BUSY = false) (hst : s.chip.rd R.TWL_CLUSTER_STATE k = clRemoved)
    (hpass : s.chip.on R.TWL_CLUSTER_TEST_PASS k = true) :
    Answers s (.twlReturn k) (fun d => s.chip.within d Parts.twlService ∧ d.rd R.TWL_CLUSTER_STATE k = clSpare ∧
      d.rd R.TWL_SVC_CMD_RESULT = 1 ∧ d.on R.TWL_SVC_CMD_BUSY = false ∧ clusterIsland k ∉ d.isolated ∧
      s.chip.journalled d { kind := 0x0B, port := 0, status := 1, extra := 0x600004 + ((3 + k * 8) <<< 32) }) := by
  have hwithin : s.chip.within ((s.chip.setCluster k clSpare).twlDone ⟨3, k, false, false, false, none, 0⟩ 1) Parts.twlService :=
    Chip.within_step _ (Chip.within_mono _ _ _ _ (s.chip.setCluster_within _ _) rfl) (Chip.twlDone_within _ _ _) rfl
  obtain ⟨hresult, hbusy, -⟩ := (s.chip.setCluster k clSpare).twlDone_answered ⟨3, k, false, false, false, none, 0⟩
    (show 1 < 16 by decide)
  refine (twillCommand_return k).answers hh hidle hk hst (if_pos hpass) hwithin
    ⟨hwithin, ?_, hresult, hbusy, fun hmem => ?_, s.chip.journalled_returned hk⟩
  · rw [Chip.rd_twlDone_cluster _ _ _ (by decide), Chip.setCluster_state _ _ (by decide)]
  · rw [Chip.twlDone_isolated] at hmem
    exact ((s.chip.mem_setCluster_isolated k clSpare _).mp hmem).2 rfl

/-! ### A cluster drains (R264, R265) -/

/-- A draining cluster, and the service command that waits for it. -/
def Chip.beginDrain (c : Chip) (v : TwlService) : Chip :=
  (c.setCluster v.cluster clDraining).twlBusy (some { v with testing := none, since := c.now })

/-- What may change when the work of a cluster that drains ends at once: what dispatching and Gingham reach. -/
theorem Chip.twlDrain_within (c : Chip) (v : TwlService) :
    (c.beginDrain v).within (c.twlDrain v) [.regs, .dict, .muslin, .dsp, .qmg, .msl, .drc, .dmk, .gng, .sent] := by
  refine Chip.within_ite (c.beginDrain v) _ _ _ _ ?_ (Chip.within_mono _ _ _ _ (Chip.gngFollow_within _ _) rfl)
  exact Chip.within_step _ (Chip.within_mono _ _ _ _ (Chip.failUnit_within _ _ _) rfl) (Chip.gngFollow_within _ _) rfl

theorem Chip.beginDrain_within (c : Chip) (v : TwlService) : c.within (c.beginDrain v) [.regs, .twl, .isolated] :=
  Chip.within_step _ (Chip.within_mono _ _ _ _ (c.setCluster_within _ _) rfl) (Chip.twlBusy_within _ _) rfl

/-- Without FORCE, and while Gingham rests, nothing but the drain's start shows in the registers before Gingham's. -/
theorem Chip.rd_twlDrain_gentle {c : Chip} {v : TwlService} (hforce : v.force = false) (hidle : c.gngIdle) {g : Field} {j : Nat}
    (hg : g.pos j + g.width ≤ 8 * 0x1000000) : (c.twlDrain v).rd g j = (c.beginDrain v).rd g j := by
  have hgentle : c.twlDrain v = (c.beginDrain v).gngFollow := if_neg (by rw [hforce]; exact Bool.false_ne_true)
  rw [hgentle, Chip.rd_gngFollow_idle (hidle.of_within (c.beginDrain_within v) rfl rfl) hg]

theorem Chip.twlDrain_keeps (c : Chip) (v : TwlService) : (c.twlDrain v).now = c.now ∧ (c.twlDrain v).odx = c.odx ∧
    (c.twlDrain v).twl.service = some { v with testing := none, since := c.now } ∧
    (c.twlDrain v).isolated = c.isolated.filter (· != clusterIsland v.cluster) := by
  have hdrain := c.twlDrain_within v
  have hbegin := c.beginDrain_within v
  refine ⟨(Chip.now_of_within hdrain rfl).trans (Chip.now_of_within hbegin rfl), ?_, ?_, ?_⟩
  · exact (Chip.within_keeps _ _ _ (·.odx) hdrain (Chip.only_odx_out _ _ _ rfl)).trans
      (Chip.within_keeps _ _ _ (·.odx) hbegin (Chip.only_odx_out _ _ _ rfl))
  · exact Chip.within_keeps _ _ _ (·.twl.service) hdrain (congrArg Twl.service (Chip.only_twl_out _ _ _ rfl))
  · exact Chip.within_keeps _ _ _ (·.isolated) hdrain (Chip.only_isolated_out _ _ _ rfl)

/-- The state of a cluster is shown before the registers of Gingham. -/
theorem cluster_before_gingham {g : Field} (hg : g.addr = 0x600100 ∧ g.stride = 4 ∧ g.lo + g.width ≤ 32) {k : Nat} (hk : k < 18) :
    g.pos k + g.width ≤ 8 * 0x1000000 := by
  obtain ⟨haddr, hstride, hbits⟩ := hg
  rw [Field.pos, haddr, hstride]
  omega

theorem Chip.twlDrain_gentle {c : Chip} {v : TwlService} (hforce : v.force = false) (hidle : c.gngIdle) (hk : v.cluster < 18) :
    (c.twlDrain v).rd R.TWL_CLUSTER_STATE v.cluster = clDraining ∧ (c.twlDrain v).on R.TWL_SVC_CMD_BUSY = true ∧
      ∀ k, k < 18 → v.cluster ≠ k → (c.twlDrain v).rd R.TWL_CLUSTER_STATE k = c.rd R.TWL_CLUSTER_STATE k := by
  refine ⟨?_, ?_, fun k hk' hne => ?_⟩
  · rw [Chip.rd_twlDrain_gentle hforce hidle (cluster_before_gingham (by decide) hk), Chip.beginDrain,
      Chip.rd_twlBusy_cluster _ _ (by decide), Chip.setCluster_state _ _ (by decide)]
  · rw [Chip.on, Chip.rd_twlDrain_gentle hforce hidle (by decide), ← Chip.on]
    exact Chip.on_twlBusy _ _
  · rw [Chip.rd_twlDrain_gentle hforce hidle (cluster_before_gingham (by decide) hk'), Chip.beginDrain,
      Chip.rd_twlBusy_cluster _ _ (by decide), Chip.setCluster_state_other _ _ hne]

/-! ### REMOVE -/

theorem Chip.otherServes_iff (c : Chip) (k : Nat) : c.otherServes k = true ↔
    ∃ j, j < 18 ∧ j ≠ k ∧ c.rd R.TWL_CLUSTER_STATE j = clActive ∧ c.clusterOnDuty j = false := by
  simp only [Chip.otherServes, List.any_eq_true, List.mem_range, Bool.and_eq_true, bne_iff_ne, beq_iff_eq, Bool.not_eq_true', and_assoc]

theorem Chip.nextSpare_twlBusy (c : Chip) (v : Option TwlService) : (c.twlBusy v).nextSpare = c.nextSpare := by
  have hstate : ∀ k, (c.twlBusy v).rd R.TWL_CLUSTER_STATE k = c.rd R.TWL_CLUSTER_STATE k := fun k =>
    c.rd_twlBusy_cluster v (by decide) k
  simp only [Chip.nextSpare, hstate]

/-- The next spare is one. -/
theorem Chip.nextSpare_some {c : Chip} {j : Nat} (h : c.nextSpare = some j) : c.rd R.TWL_CLUSTER_STATE j = clSpare := by
  unfold Chip.nextSpare at h
  have hspare := List.find?_some h
  exact beq_iff_eq.mp hspare

theorem Chip.twlBusy_now (c : Chip) (v : Option TwlService) : (c.twlBusy v).now = c.now :=
  Chip.now_of_within (c.twlBusy_within v) rfl

theorem Chip.twlTrySpare_some {c : Chip} {j : Nat} (v : TwlService) (h : c.nextSpare = some j) :
    c.twlTrySpare v = c.beginTest j { v with testing := some j, since := c.now } := by
  rw [Chip.twlTrySpare, h, Chip.beginTest]

theorem Chip.twlTrySpare_none {c : Chip} (v : TwlService) (h : c.nextSpare = none) : c.twlTrySpare v = c.twlDrain v := by
  rw [Chip.twlTrySpare, h]

section
variable {c : Chip} {k : Nat} {force auto : Bool}

theorem Chip.removeCluster_onDuty (hduty : c.clusterOnDuty k = true) (hforce : force = false) :
    c.removeCluster k force auto = c.twlRefuse ⟨1, k, force, auto, false, none, c.now⟩ 4 :=
  if_pos (by rw [hduty, hforce]; rfl)

variable (hfree : c.clusterOnDuty k = false ∨ force = true)
include hfree

theorem Chip.removeCluster_free : c.removeCluster k force auto =
    if !c.otherServes k then c.twlRefuse ⟨1, k, force, auto, false, none, c.now⟩ 7
    else if auto then (c.twlBusy (some ⟨1, k, force, auto, false, none, c.now⟩)).twlTrySpare ⟨1, k, force, auto, false, none, c.now⟩
    else (c.twlBusy (some ⟨1, k, force, auto, false, none, c.now⟩)).twlDrain ⟨1, k, force, auto, false, none, c.now⟩ := by
  refine if_neg ?_
  obtain h | h := hfree
  · rw [h]
    exact Bool.false_ne_true
  · rw [h, Bool.not_true, Bool.and_false]
    exact Bool.false_ne_true

theorem Chip.removeCluster_last (h : c.otherServes k = false) :
    c.removeCluster k force auto = c.twlRefuse ⟨1, k, force, auto, false, none, c.now⟩ 7 := by
  rw [Chip.removeCluster_free hfree, h, Bool.not_false, if_pos rfl]

variable (h : c.otherServes k = true)
include h

theorem Chip.removeCluster_spare {j : Nat} (hj : c.nextSpare = some j) (hauto : auto = true) :
    c.removeCluster k force auto = (c.twlBusy (some ⟨1, k, force, true, false, none, c.now⟩)).beginTest j
      ⟨1, k, force, true, false, some j, c.now⟩ := by
  subst hauto
  rw [Chip.removeCluster_free hfree, h, Bool.not_true, if_neg Bool.false_ne_true, if_pos rfl,
    Chip.twlTrySpare_some _ ((c.nextSpare_twlBusy _).trans hj), Chip.twlBusy_now]

theorem Chip.removeCluster_drains (hnone : auto = false ∨ c.nextSpare = none) : c.removeCluster k force auto =
    (c.twlBusy (some ⟨1, k, force, auto, false, none, c.now⟩)).twlDrain ⟨1, k, force, auto, false, none, c.now⟩ := by
  rw [Chip.removeCluster_free hfree, h, Bool.not_true, if_neg Bool.false_ne_true]
  obtain hauto | hspare := hnone
  · rw [hauto, if_neg Bool.false_ne_true]
  · rw [Chip.twlTrySpare_none _ ((c.nextSpare_twlBusy _).trans hspare), ite_self]

end

section
variable {s : State} {k : Nat} {force auto : Bool} (hh : s.chip.heard = true) (hk : k ≤ 17)
  (hidle : s.chip.on R.TWL_SVC_CMD_BUSY = false) (hactive : s.chip.rd R.TWL_CLUSTER_STATE k = clActive)
  (hfree : s.chip.clusterOnDuty k = false ∨ force = true) (hother : s.chip.otherServes k = true)
include hh hk hidle hactive hfree hother

/-- R264: the lowest spare is woken first. -/
theorem twlRemove_answers_spare {j : Nat} (hj : s.chip.nextSpare = some j) (hauto : auto = true) :
    Answers s (.twlRemove k force auto) (fun d => s.chip.within d [.regs, .twl, .isolated] ∧
      d.rd R.TWL_CLUSTER_STATE j = clTesting ∧ d.rd R.TWL_CLUSTER_STATE k = clActive ∧ d.on R.TWL_SVC_CMD_BUSY = true ∧
      d.twl.service = some ⟨1, k, force, true, false, some j, s.chip.now⟩) := by
  set b := s.chip.twlBusy (some ⟨1, k, force, true, false, none, s.chip.now⟩)
  obtain ⟨hwithin, hstate, hbusy, -, htwl⟩ := b.beginTest_spec j ⟨1, k, force, true, false, some j, s.chip.now⟩
  have hframe : s.chip.within (b.beginTest j ⟨1, k, force, true, false, some j, s.chip.now⟩) [.regs, .twl, .isolated] :=
    Chip.within_step _ (Chip.within_mono _ _ _ _ (s.chip.twlBusy_within _) rfl) hwithin rfl
  have hne : j ≠ k := fun hjk => by
    have hspare := Chip.nextSpare_some hj
    rw [hjk, hactive] at hspare
    cases hspare
  refine (twillCommand_remove k force auto).answers hh hidle hk hactive (Chip.removeCluster_spare hfree hother hj hauto)
    (Chip.within_mono _ _ _ _ hframe rfl) ⟨hframe, hstate, ?_, hbusy, congrArg Twl.service htwl⟩
  rw [Chip.beginTest, Chip.rd_twlBusy_cluster _ _ (by decide), Chip.setCluster_state_other _ _ hne,
    Chip.rd_twlBusy_cluster _ _ (by decide), hactive]

/-- R264: without a spare to wake the cluster drains. -/
theorem twlRemove_answers_drain (hnone : auto = false ∨ s.chip.nextSpare = none) :
    Answers s (.twlRemove k force auto) (fun d =>
      s.chip.within d [.regs, .dict, .muslin, .dsp, .qmg, .msl, .drc, .twl, .gng, .isolated, .sent] ∧
      d.twl.service = some ⟨1, k, force, auto, false, none, s.chip.now⟩ ∧
      (force = false → s.chip.gngIdle → d.rd R.TWL_CLUSTER_STATE k = clDraining ∧ d.on R.TWL_SVC_CMD_BUSY = true)) := by
  set v : TwlService := ⟨1, k, force, auto, false, none, s.chip.now⟩
  set b := s.chip.twlBusy (some v)
  obtain ⟨-, hodx, hservice, -⟩ := b.twlDrain_keeps v
  have hnow : b.now = s.chip.now := Chip.twlBusy_now _ _
  have hsame : b.odx = s.chip.odx := Chip.within_keeps _ _ _ (·.odx) (s.chip.twlBusy_within _) (Chip.only_odx_out _ _ _ rfl)
  refine (twillCommand_remove k force auto).answers_only hh hidle hk hactive ?_
  rw [Chip.removeCluster_drains hfree hother hnone]
  refine ⟨?_, ?_, fun hforce hrest => ?_⟩
  · exact Chip.within_of_odx_kept (Chip.within_only _ _ _) ((Chip.only_odx_in _ _ _ rfl).trans (hodx.trans hsame))
  · rw [Chip.only_twl_in _ _ _ rfl]
    rw [hservice, hnow]
  · have hidle' : b.gngIdle := hrest.of_within (s.chip.twlBusy_within _) rfl rfl
    obtain ⟨hstate, hbusy, -⟩ := Chip.twlDrain_gentle (c := b) (v := v) hforce hidle' (Nat.lt_succ_of_le hk)
    rw [Chip.only_rd_in _ _ _ _ _ rfl, Chip.only_on_in _ _ _ _ _ rfl]
    exact ⟨hstate, hbusy⟩

end

end Sys2Proof.Machine

namespace Sys2Proof.Machine

/-! ## The end of a known-answer run (R264) -/

/-- The parts that the end of a known-answer run may reach. -/
def Parts.twlKatEnd : List Part :=
  [.regs, .dict, .muslin, .tku, .dsp, .qmg, .msl, .drc, .twl, .odx, .gng, .isolated, .sent]

/-- When the known-answer run of a service command ends. -/
def TwlService.katEnds (v : TwlService) : Nat := v.since + (if v.op = 2 then 400000 else 400200)

/-- The state that a cluster which passed its known-answer run takes. -/
def TwlService.passedState (v : TwlService) : Nat := if v.op = 2 then clRemoved else clActive

/-- The verdict of the known-answer run of cluster `k`. -/
def Chip.katVerdict (c : Chip) (v : TwlService) (k : Nat) (pass : Bool) : Chip :=
  let d := (c.advanceTo v.katEnds).wr R.TWL_CLUSTER_TEST_PASS (b2n pass) k
  if pass then d.setCluster k v.passedState else ((d.setCluster k clFailed).latchFault R.TWL_STATUS_KAT_FAIL).gngFollow

/-- The effect of TWL_KAT_END on the run of cluster `k` under command `v`. -/
def Chip.katEnded (c : Chip) (v : TwlService) (k : Nat) (pass : Bool) : Chip :=
  if v.op = 1 then
    (if pass then (c.katVerdict v k pass).twlDrain { v with replaced := true } else (c.katVerdict v k pass).twlTrySpare v)
  else (c.katVerdict v k pass).twlDone v (if pass then 1 else 5)

theorem twlKatEnd_answers {s : State} {v : TwlService} {k : Nat} {pass : Bool} {P : Chip → Prop} (ha : s.chip.awake = true)
    (hs : s.chip.twl.service = some v) (ht : v.testing = some k)
    (hp : P ((s.chip.katEnded v k pass).only Parts.twlKatEnd s.chip)) : Answers s (.twlKatEnd pass) P := by
  refine ⟨_, ?_, hp⟩
  show execTwlKatEnd pass s = _
  rw [execTwlKatEnd, State.run_awake _ _ _ ha]
  simp only [hs, ht]
  rfl

section
variable (c : Chip) (v : TwlService) (k : Nat)

theorem Chip.katVerdict_passed_within : c.within (c.katVerdict v k true) [.regs, .tku, .isolated] :=
  Chip.within_step _ (Chip.within_step (ps := [.regs, .tku, .isolated]) _ (Chip.within_mono _ _ _ _ (c.advanceTo_within _) rfl)
    (Chip.wr_within _ _ _ _) rfl) (Chip.setCluster_within _ _ _) rfl

theorem Chip.katVerdict_passed : (c.katVerdict v k true).now = max c.now v.katEnds ∧
    (c.katVerdict v k true).on R.TWL_CLUSTER_TEST_PASS k = true ∧
    (c.katVerdict v k true).rd R.TWL_CLUSTER_STATE k = v.passedState ∧
    (v.op ≠ 2 → clusterIsland k ∉ (c.katVerdict v k true).isolated) := by
  refine ⟨c.now_advanceTo _, ?_, Chip.setCluster_state _ _ ?_, fun hop hmem => ?_⟩
  · exact (Chip.setCluster_testPass _ _ _).trans (Chip.on_wr_self _ _ _ _)
  · unfold TwlService.passedState
    split <;> decide
  · have hactive : v.passedState = clActive := if_neg hop
    have hiff := Chip.mem_setCluster_isolated ((c.advanceTo v.katEnds).wr R.TWL_CLUSTER_TEST_PASS (b2n true) k) k v.passedState
      (clusterIsland k)
    rw [hactive, if_neg (by decide), ← hactive] at hiff
    exact (hiff.mp hmem).2 rfl

/-- A cluster that failed its known-answer run, before Gingham follows. -/
def Chip.katFault : Chip :=
  (((c.advanceTo v.katEnds).wr R.TWL_CLUSTER_TEST_PASS 0 k).setCluster k clFailed).latchFault R.TWL_STATUS_KAT_FAIL

theorem Chip.katFault_within : c.within (c.katFault v k) [.regs, .tku, .isolated, .sent] := by
  have hset : c.within (((c.advanceTo v.katEnds).wr R.TWL_CLUSTER_TEST_PASS 0 k).setCluster k clFailed)
      [.regs, .tku, .isolated, .sent] :=
    Chip.within_step _ (Chip.within_step (ps := [.regs, .tku, .isolated, .sent]) _
      (Chip.within_mono _ _ _ _ (c.advanceTo_within _) rfl) (Chip.wr_within _ _ _ _) rfl) (Chip.setCluster_within _ _ _) rfl
  exact Chip.within_step _ hset (Chip.latchFault_within _ _ _) rfl

theorem Chip.katVerdict_failed_within :
    c.within (c.katVerdict v k false) [.regs, .dict, .muslin, .tku, .qmg, .msl, .drc, .gng, .isolated, .sent] :=
  Chip.within_step _ (Chip.within_mono _ _ _ _ (c.katFault_within v k) rfl) (Chip.gngFollow_within _ _) rfl

theorem Chip.katVerdict_failed_isolated : clusterIsland k ∈ (c.katVerdict v k false).isolated := by
  have hfollow := Chip.within_keeps _ _ _ (·.isolated) ((c.katFault v k).gngFollow_within false) (Chip.only_isolated_out _ _ _ rfl)
  have hfault := Chip.within_keeps _ _ _ (·.isolated) (Chip.latchFault_within
    (((c.advanceTo v.katEnds).wr R.TWL_CLUSTER_TEST_PASS 0 k).setCluster k clFailed) R.TWL_STATUS_KAT_FAIL 0)
    (Chip.only_isolated_out _ _ _ rfl)
  exact hfollow ▸ hfault ▸ (Chip.mem_setCluster_isolated _ k clFailed _).mpr (.inl rfl)

theorem Chip.katFault_status : (c.katFault v k).on R.TWL_CLUSTER_TEST_PASS k = false ∧
    (c.katFault v k).rd R.TWL_CLUSTER_STATE k = clFailed ∧ (c.katFault v k).on R.TWL_STATUS_KAT_FAIL = true := by
  have hcluster : ∀ (b : Chip) (g : Field), 0x600100 ≤ g.addr → (b.latchFault R.TWL_STATUS_KAT_FAIL).rd g k = b.rd g k :=
    fun b g hg => Chip.rd_latchFault_apart _ _ _ _ _ (Field.apart_of_before (by decide) hg k)
      (Field.clearOfEvent_of_behind ((show 0x20000 ≤ 0x600100 by decide).trans hg) k (by decide))
  refine ⟨?_, ?_, ?_⟩
  · rw [Chip.on, Chip.katFault, hcluster _ _ (by decide), ← Chip.on, Chip.setCluster_testPass, Chip.on_wr_self]
    rfl
  · rw [Chip.katFault, hcluster _ _ (by decide), Chip.setCluster_state _ _ (by decide)]
  · rw [Chip.on, Chip.katFault, Chip.rd_latchFault_self _ _ _ rfl (Field.clearOfEvent_of_behind (by decide) 0 (by decide))]
    rfl

/-- While Gingham rests, its following leaves the registers of Twill as the verdict set them. -/
theorem Chip.rd_katVerdict_failed (hrest : c.gngIdle) {g : Field} {j : Nat} (hg : g.pos j + g.width ≤ 8 * 0x1000000) :
    (c.katVerdict v k false).rd g j = (c.katFault v k).rd g j := by
  exact Chip.rd_gngFollow_idle (hrest.of_within (c.katFault_within v k) rfl rfl) hg

end

section
variable {s : State} {v : TwlService} {k : Nat} (ha : s.chip.awake = true) (hs : s.chip.twl.service = some v)
  (ht : v.testing = some k)
include ha hs ht

/-- R263: a run under TEST or ACTIVATE that passes. -/
theorem twlKatEnd_answers_passed (hop : v.op = 2 ∨ v.op = 4) :
    Answers s (.twlKatEnd true) (fun d => d.now = max s.chip.now (v.since + (if v.op = 2 then 400000 else 400200)) ∧
      s.chip.within d [.regs, .dict, .tku, .twl, .odx, .isolated] ∧ d.on R.TWL_CLUSTER_TEST_PASS k = true ∧
      d.rd R.TWL_CLUSTER_STATE k = (if v.op = 2 then clRemoved else clActive) ∧ d.rd R.TWL_SVC_CMD_RESULT = 1 ∧
      d.on R.TWL_SVC_CMD_BUSY = false ∧ d.twl.service = none) := by
  have hne : v.op ≠ 1 := by omega
  have hended : s.chip.katEnded v k true = (s.chip.katVerdict v k true).twlDone v 1 := if_neg hne
  have hdone := (s.chip.katVerdict v k true).twlDone_within v 1
  have hwithin : s.chip.within ((s.chip.katVerdict v k true).twlDone v 1) [.regs, .dict, .tku, .twl, .odx, .isolated] :=
    Chip.within_step _ (Chip.within_mono _ _ _ _ (s.chip.katVerdict_passed_within v k) rfl) hdone rfl
  obtain ⟨hnow, hpass, hstate, -⟩ := s.chip.katVerdict_passed v k
  obtain ⟨hresult, hbusy, hservice⟩ := (s.chip.katVerdict v k true).twlDone_answered v (show 1 < 16 by decide)
  have honly : ((s.chip.katVerdict v k true).twlDone v 1).only Parts.twlKatEnd s.chip = (s.chip.katVerdict v k true).twlDone v 1 :=
    Chip.within_mono _ _ _ _ hwithin rfl
  refine twlKatEnd_answers ha hs ht ?_
  rw [hended, honly]
  refine ⟨(Chip.now_of_within hdone rfl).trans hnow, hwithin, ?_, ?_, hresult, hbusy, hservice⟩
  · rw [Chip.on, Chip.rd_twlDone_cluster _ _ _ (by decide), ← Chip.on, hpass]
  · rw [Chip.rd_twlDone_cluster _ _ _ (by decide)]
    exact hstate

/-- R264: a run under TEST or ACTIVATE that fails. -/
theorem twlKatEnd_answers_failed (hk : k < 18) (hop : v.op = 2 ∨ v.op = 4) :
    Answers s (.twlKatEnd false) (fun d => s.chip.within d Parts.twlKatEnd ∧ d.twl.service = none ∧
      clusterIsland k ∈ d.isolated ∧
      (s.chip.gngIdle → d.on R.TWL_CLUSTER_TEST_PASS k = false ∧ d.rd R.TWL_CLUSTER_STATE k = clFailed ∧
        d.on R.TWL_STATUS_KAT_FAIL = true ∧ d.rd R.TWL_SVC_CMD_RESULT = 5 ∧ d.on R.TWL_SVC_CMD_BUSY = false)) := by
  have hne : v.op ≠ 1 := by omega
  have hended : s.chip.katEnded v k false = (s.chip.katVerdict v k false).twlDone v 5 := if_neg hne
  have hwithin : s.chip.within ((s.chip.katVerdict v k false).twlDone v 5) Parts.twlKatEnd :=
    Chip.within_step _ (Chip.within_mono _ _ _ _ (s.chip.katVerdict_failed_within v k) rfl)
      (Chip.twlDone_within _ _ _) rfl
  obtain ⟨hresult, hbusy, hservice⟩ := (s.chip.katVerdict v k false).twlDone_answered v (show 5 < 16 by decide)
  have honly : ((s.chip.katVerdict v k false).twlDone v 5).only Parts.twlKatEnd s.chip = (s.chip.katVerdict v k false).twlDone v 5 :=
    hwithin
  refine twlKatEnd_answers ha hs ht ?_
  rw [hended, honly]
  refine ⟨hwithin, hservice, ?_, fun hrest => ?_⟩
  · rw [Chip.twlDone_isolated]
    exact s.chip.katVerdict_failed_isolated v k
  · obtain ⟨hpass, hstate, hfail⟩ := s.chip.katFault_status v k
    refine ⟨?_, ?_, ?_, hresult, hbusy⟩
    · rw [Chip.on, Chip.rd_twlDone_cluster _ _ _ (by decide),
        Chip.rd_katVerdict_failed _ _ _ hrest (cluster_before_gingham (by decide) hk)]
      exact hpass
    · rw [Chip.rd_twlDone_cluster _ _ _ (by decide),
        Chip.rd_katVerdict_failed _ _ _ hrest (cluster_before_gingham (by decide) hk), hstate]
    · rw [Chip.on, Chip.rd_twlDone, Chip.rd_twlBusy _ _ (by decide) (by decide), Chip.rd_wr_apart _ _ _ _ _ _ (by decide),
        Chip.rd_katVerdict_failed _ _ _ hrest (by decide)]
      exact hfail

/-- R264: a spare that passes becomes active, and the cluster that it replaces drains. -/
theorem twlKatEnd_answers_replaced (hk : k < 18) (hop : v.op = 1) (hcluster : v.cluster < 18) (hne : v.cluster ≠ k) :
    Answers s (.twlKatEnd true) (fun d => clusterIsland k ∉ d.isolated ∧
      d.twl.service = some { v with replaced := true, testing := none, since := d.now } ∧
      (v.force = false → s.chip.gngIdle → d.rd R.TWL_CLUSTER_STATE k = clActive ∧
        d.rd R.TWL_CLUSTER_STATE v.cluster = clDraining)) := by
  have hended : s.chip.katEnded v k true = (s.chip.katVerdict v k true).twlDrain { v with replaced := true } := if_pos hop
  have hother : v.op ≠ 2 := by omega
  obtain ⟨-, -, hstate, hisland⟩ := s.chip.katVerdict_passed v k
  obtain ⟨hnow, -, hservice, hisolated⟩ := (s.chip.katVerdict v k true).twlDrain_keeps { v with replaced := true }
  refine twlKatEnd_answers ha hs ht ?_
  rw [hended, Chip.only_isolated_in _ _ _ rfl, Chip.only_twl_in _ _ _ rfl, Chip.only_now_in _ _ _ rfl, Chip.only_rd_in _ _ _ _ _ rfl,
    Chip.only_rd_in _ _ _ _ _ rfl]
  refine ⟨fun hmem => ?_, ?_, fun hforce hrest => ?_⟩
  · rw [hisolated] at hmem
    exact hisland hother (List.mem_filter.mp hmem).1
  · rw [hservice, hnow]
  · have hidle := hrest.of_within (s.chip.katVerdict_passed_within v k) rfl rfl
    obtain ⟨hdrains, -, hkept⟩ := Chip.twlDrain_gentle (v := { v with replaced := true }) hforce hidle hcluster
    exact ⟨(hkept k hk hne).trans (hstate.trans (if_neg hother)), hdrains⟩

end

/-! ## The end of a drain (R264) -/

/-- The RESULT of a REMOVE that is complete. -/
def TwlService.removeResult (v : TwlService) : Nat := if v.auto = true ∧ v.replaced = false then 2 else 1

/-- The effect of TWL_DRAIN_DONE on the cluster of command `v`. -/
def Chip.drained (c : Chip) (v : TwlService) : Chip :=
  (((c.advanceTo (c.now + 2000)).setCluster v.cluster clRemoved).twlDone v v.removeResult).raise 6

/-- The parts that the end of a drain may reach. -/
def Parts.twlDrainDone : List Part := [.regs, .dict, .tku, .twl, .odx, .isolated, .sent]

/-- The drain of REMOVE `v` ends where nothing is left on its cluster. -/
theorem exec_twlDrainDone {s : State} {v : TwlService} (ha : s.chip.awake = true) (hs : s.chip.twl.service = some v)
    (hop : v.op = 1) (ht : v.testing = none) (hst : s.chip.rd R.TWL_CLUSTER_STATE v.cluster = clDraining)
    (hidle : s.chip.op? (2 + v.cluster) = none) (hsuspended : ∀ o ∈ s.chip.dsp.suspended, o.unit ≠ 2 + v.cluster)
    (hchains : ∀ p ∈ s.chip.dsp.chains, p.1 / 8 ≠ v.cluster) :
    exec .twlDrainDone s = .next { s with chip := (s.chip.drained v).only Parts.twlDrainDone s.chip } := by
  have hnone : s.chip.dsp.suspended.any (fun o => o.unit == 2 + v.cluster) = false := by
    simpa using hsuspended
  have hopen : s.chip.dsp.chains.any (fun p => p.1 / 8 == v.cluster) = false := by
    simpa using fun a b h => hchains (a, b) h
  have hresult : (if v.auto && !v.replaced then 2 else 1) = v.removeResult := by
    unfold TwlService.removeResult
    simp
  show execTwlDrainDone s = _
  rw [execTwlDrainDone, State.run_awake _ _ _ ha]
  simp only [hs, hop, ht, hst, hidle, hnone, hopen, hresult]
  rfl

theorem Chip.drained_within (c : Chip) (v : TwlService) : c.within (c.drained v) Parts.twlDrainDone := by
  have hset : c.within ((c.advanceTo (c.now + 2000)).setCluster v.cluster clRemoved) Parts.twlDrainDone :=
    Chip.within_step _ (Chip.within_mono _ _ _ _ (c.advanceTo_within _) rfl) (Chip.setCluster_within _ _ _) rfl
  exact Chip.within_step _ (Chip.within_step _ hset (Chip.twlDone_within _ _ _) rfl) (Chip.raise_within _ _) rfl

/-- The event leaves the registers of Twill alone. -/
theorem Chip.rd_drained (c : Chip) (v : TwlService) {g : Field} (hg : 0x20000 ≤ g.addr) (j : Nat) : (c.drained v).rd g j =
    (((c.advanceTo (c.now + 2000)).setCluster v.cluster clRemoved).twlDone v v.removeResult).rd g j :=
  Chip.rd_raise _ _ (Field.clearOfEvent_of_behind hg j (by decide))

theorem Chip.drained_spec (c : Chip) (v : TwlService) : (c.drained v).now = c.now + 2000 ∧
    (c.drained v).rd R.TWL_CLUSTER_STATE v.cluster = clRemoved ∧ clusterIsland v.cluster ∈ (c.drained v).isolated ∧
    (c.drained v).rd R.TWL_SVC_CMD_RESULT = v.removeResult ∧ (c.drained v).on R.TWL_SVC_CMD_BUSY = false ∧
    (c.drained v).twl.service = none := by
  have hlt : v.removeResult < 16 := by
    unfold TwlService.removeResult
    split <;> decide
  set b := (c.advanceTo (c.now + 2000)).setCluster v.cluster clRemoved
  have hraise := (b.twlDone v v.removeResult).raise_within 6
  obtain ⟨hresult, hbusy, hservice⟩ := b.twlDone_answered v hlt
  refine ⟨?_, ?_, ?_, ?_, ?_, ?_⟩
  · calc (c.drained v).now
      _ = (b.twlDone v v.removeResult).now := Chip.now_of_within hraise rfl
      _ = b.now := Chip.now_of_within (b.twlDone_within _ _) rfl
      _ = max c.now (c.now + 2000) := c.now_advanceTo _
      _ = c.now + 2000 := max_eq_right (Nat.le_add_right _ _)
  · rw [Chip.rd_drained _ _ (by decide), Chip.rd_twlDone_cluster _ _ _ (by decide), Chip.setCluster_state _ _ (by decide)]
  · have hkept := Chip.within_keeps _ _ _ (·.isolated) hraise (Chip.only_isolated_out _ _ _ rfl)
    have hmem : clusterIsland v.cluster ∈ b.isolated := (Chip.mem_setCluster_isolated _ _ clRemoved _).mpr (.inl rfl)
    rw [← b.twlDone_isolated v v.removeResult] at hmem
    exact hkept ▸ hmem
  · rw [Chip.rd_drained _ _ (by decide), hresult]
  · rw [Chip.on, Chip.rd_drained _ _ (by decide)]
    exact hbusy
  · exact (Chip.within_keeps _ _ _ (·.twl.service) hraise (congrArg Twl.service (Chip.only_twl_out _ _ _ rfl))).trans hservice

/-! ## Gingham's pair (R257) -/

/-- Whether R257 takes clusters `a` and `b` as Gingham's pair. -/
def Chip.pairTaken (c : Chip) (a b : Nat) : Prop :=
  c.on R.GNG_STATUS_ENABLED = false ∧ a < 18 ∧ b < 18 ∧ a ≠ b ∧ a / 6 = b / 6 ∧ c.rd R.TWL_CLUSTER_STATE a = clActive ∧
    c.rd R.TWL_CLUSTER_STATE b = clActive ∧
    (c.on R.ATU_CTRL_ENABLE = true → c.rd R.ATU_CTRL_TWILL_CLUSTER ≠ a ∧ c.rd R.ATU_CTRL_TWILL_CLUSTER ≠ b)

/-- The pair that a write names. -/
def Chip.setPair (c : Chip) (a b exclusive : Nat) : Chip :=
  (((c.wr R.TWL_GNG_PAIR_CLUSTER_A a).wr R.TWL_GNG_PAIR_CLUSTER_B b).wr R.TWL_GNG_PAIR_EXCLUSIVE exclusive).wr
    R.TWL_GNG_PAIR_PAIR_BAD 0

theorem Chip.writeGngPair_eq (c : Chip) (x : Nat) [Decidable (c.pairTaken (bits x 0 5) (bits x 8 5))] : c.writeGngPair x =
    if c.pairTaken (bits x 0 5) (bits x 8 5) then c.setPair (bits x 0 5) (bits x 8 5) (bits x 16 1)
    else c.wr R.TWL_GNG_PAIR_PAIR_BAD 1 := by
  unfold Chip.writeGngPair
  extract_lets a b ok c₁ c₂ c₃
  have hok : ok = true ↔ c.pairTaken a b := by
    simp only [ok, Chip.pairTaken, Bool.and_eq_true, Bool.not_eq_true', decide_eq_true_eq, bne_iff_ne, beq_iff_eq, and_assoc,
      Bool.and_eq_false_imp, Bool.or_eq_false_iff, beq_eq_false_iff_ne]
  exact if_congr hok rfl rfl

theorem exec_twlGngPairWrite (s : State) (w : Word) :
    exec (.twlGngPairWrite w) s = s.runHost [.regs] (fun c => c.writeGngPair w.toNat) := rfl

/-- A field that shares no bit with TWL_GNG_PAIR shares none with a field of it. -/
theorem Field.apart_pairField {f g : Field} {j : Nat} (hf : f.addr = 0x600008 ∧ f.stride = 0 ∧ f.lo + f.width ≤ 32)
    (hg : g.apart j R.TWL_GNG_PAIR 0 = true) : f.apart 0 g j = true := by
  obtain ⟨haddr, hstride, hbits⟩ := hf
  rw [Field.apart, Bool.or_eq_true, decide_eq_true_eq, decide_eq_true_eq] at hg ⊢
  have hpos : f.pos 0 = 8 * 0x600008 + f.lo := by rw [Field.pos, haddr, hstride]
  have hpair : R.TWL_GNG_PAIR.pos 0 = 8 * 0x600008 ∧ R.TWL_GNG_PAIR.width = 32 := ⟨rfl, rfl⟩
  omega

theorem Chip.setPair_spec (c : Chip) (x : Nat) : ∀ d, d = c.setPair (bits x 0 5) (bits x 8 5) (bits x 16 1) →
    d.rd R.TWL_GNG_PAIR_CLUSTER_A = bits x 0 5 ∧ d.rd R.TWL_GNG_PAIR_CLUSTER_B = bits x 8 5 ∧
      d.rd R.TWL_GNG_PAIR_EXCLUSIVE = bits x 16 1 ∧ d.rd R.TWL_GNG_PAIR_PAIR_BAD = 0 ∧ c.regsKept d [(R.TWL_GNG_PAIR, 0)] := by
  rintro _ rfl
  refine ⟨?_, ?_, ?_, Chip.rd_wr_self _ _ _ _, fun g j hg => ?_⟩
  · rw [Chip.setPair, Chip.rd_wr_apart _ _ _ _ _ _ (by decide), Chip.rd_wr_apart _ _ _ _ _ _ (by decide),
      Chip.rd_wr_apart _ _ _ _ _ _ (by decide), Chip.rd_wr_self]
    exact Nat.mod_eq_of_lt (bits_lt x 0 5)
  · rw [Chip.setPair, Chip.rd_wr_apart _ _ _ _ _ _ (by decide), Chip.rd_wr_apart _ _ _ _ _ _ (by decide), Chip.rd_wr_self]
    exact Nat.mod_eq_of_lt (bits_lt x 8 5)
  · rw [Chip.setPair, Chip.rd_wr_apart _ _ _ _ _ _ (by decide), Chip.rd_wr_self]
    exact Nat.mod_eq_of_lt (bits_lt x 16 1)
  · rw [List.all_cons, List.all_nil, Bool.and_true] at hg
    rw [Chip.setPair, Chip.rd_wr_apart _ _ _ _ _ _ (Field.apart_pairField (by decide) hg),
      Chip.rd_wr_apart _ _ _ _ _ _ (Field.apart_pairField (by decide) hg),
      Chip.rd_wr_apart _ _ _ _ _ _ (Field.apart_pairField (by decide) hg),
      Chip.rd_wr_apart _ _ _ _ _ _ (Field.apart_pairField (by decide) hg)]

theorem twlGngPairWrite_answers_taken {s : State} {w : Word} (hh : s.chip.heard = true)
    (h : s.chip.pairTaken (bits w.toNat 0 5) (bits w.toNat 8 5)) :
    Answers s (.twlGngPairWrite w) (fun d => s.chip.within d [.regs] ∧ d.rd R.TWL_GNG_PAIR_CLUSTER_A = bits w.toNat 0 5 ∧
      d.rd R.TWL_GNG_PAIR_CLUSTER_B = bits w.toNat 8 5 ∧ d.rd R.TWL_GNG_PAIR_EXCLUSIVE = bits w.toNat 16 1 ∧
      d.rd R.TWL_GNG_PAIR_PAIR_BAD = 0 ∧ s.chip.regsKept d [(R.TWL_GNG_PAIR, 0)]) := by
  classical
  have heff := (s.chip.writeGngPair_eq w.toNat).trans (if_pos h)
  exact answers_runHost_chip hh (exec_twlGngPairWrite s w) heff rfl ⟨rfl, s.chip.setPair_spec w.toNat _ rfl⟩

theorem twlGngPairWrite_answers_bad {s : State} {w : Word} (hh : s.chip.heard = true)
    (h : ¬ s.chip.pairTaken (bits w.toNat 0 5) (bits w.toNat 8 5)) :
    Answers s (.twlGngPairWrite w) (fun d => s.chip.within d [.regs] ∧ d.rd R.TWL_GNG_PAIR_PAIR_BAD = 1 ∧
      s.chip.regsKept d [(R.TWL_GNG_PAIR_PAIR_BAD, 0)]) := by
  classical
  have heff := (s.chip.writeGngPair_eq w.toNat).trans (if_neg h)
  have hwithin := s.chip.wr_within R.TWL_GNG_PAIR_PAIR_BAD 1 0
  exact answers_runHost_chip hh (exec_twlGngPairWrite s w) heff hwithin
    ⟨hwithin, Chip.rd_wr_self _ _ _ _, Chip.regsKept_wr s.chip.regsKept_refl _ _ _⟩

/-! ## A copy whose host does not answer (R278) -/

/-- HOST_ERR set, and the first error of the host logged with its window. -/
def Chip.logHostError (c : Chip) (window kind : Nat) : Chip :=
  let d := c.latchFault R.HIF_STATUS_HOST_ERR
  if d.on R.HIF_HOST_ERR_LOG_VALID then d
  else ((d.wr R.HIF_HOST_ERR_LOG_WINDOW window).wr R.HIF_HOST_ERR_LOG_KIND kind).wr R.HIF_HOST_ERR_LOG_VALID 1

theorem Chip.hostError_eq (c : Chip) (o : OpRun) (kind : Nat) :
    c.hostError o kind = (c.logHostError (hostWindow (copyPar o.raw).src) kind).copyFail o St.HIF_HOST_ERROR := rfl

theorem Chip.logHostError_within (c : Chip) (window kind : Nat) : c.within (c.logHostError window kind) [.regs, .sent] := by
  have hset := c.latchFault_within R.HIF_STATUS_HOST_ERR 0
  unfold Chip.logHostError
  extract_lets d
  exact Chip.within_ite _ _ _ _ _ hset (Chip.within_step _ (Chip.within_step _ (Chip.within_step _ hset (Chip.wr_within _ _ _ _) rfl)
    (Chip.wr_within _ _ _ _) rfl) (Chip.wr_within _ _ _ _) rfl)

theorem Chip.logHostError_spec (c : Chip) {window kind : Nat} (hw : window < 256) (hkind : kind < 16) :
    (c.logHostError window kind).on R.HIF_STATUS_HOST_ERR = true ∧
      (c.on R.HIF_HOST_ERR_LOG_VALID = false → (c.logHostError window kind).rd R.HIF_HOST_ERR_LOG_KIND = kind ∧
        (c.logHostError window kind).rd R.HIF_HOST_ERR_LOG_WINDOW = window) := by
  unfold Chip.logHostError
  extract_lets d
  have hset : d.on R.HIF_STATUS_HOST_ERR = true := by
    rw [Chip.on, Chip.rd_latchFault_self _ _ _ rfl (by decide)]
    rfl
  have hvalid : d.on R.HIF_HOST_ERR_LOG_VALID = c.on R.HIF_HOST_ERR_LOG_VALID := by
    rw [Chip.on, Chip.rd_latchFault_apart _ _ _ _ _ (by decide) (by decide), ← Chip.on]
  refine ⟨?_, fun hfirst => ?_⟩
  · split
    · exact hset
    · rw [Chip.on_wr_apart _ _ _ _ _ _ (by decide), Chip.on_wr_apart _ _ _ _ _ _ (by decide),
        Chip.on_wr_apart _ _ _ _ _ _ (by decide), hset]
  · rw [hvalid, hfirst, if_neg Bool.false_ne_true, Chip.rd_wr_apart _ _ _ _ _ _ (by decide), Chip.rd_wr_self,
      Chip.rd_wr_apart _ _ _ _ _ _ (by decide), Chip.rd_wr_apart _ _ _ _ _ _ (by decide), Chip.rd_wr_self]
    exact ⟨Nat.mod_eq_of_lt hkind, Nat.mod_eq_of_lt hw⟩

theorem Chip.invalidate_within (c : Chip) (rs : List (Nat × Nat)) : c.within (c.invalidate rs) [.muslin, .drc, .fresh] := by
  have hdram : ∀ (c : Chip) (off : Nat) (bs : List Byte), c.within (c.freeDram off bs) [.muslin, .drc, .fresh] := fun c off bs =>
    Chip.within_ite _ _ _ _ _ (Chip.within_refl _ _) rfl
  have hmuslin : ∀ (c : Chip) (off : Nat) (bs : List Byte), c.within (c.freeMuslin off bs) [.muslin, .drc, .fresh] :=
    fun c off bs => Chip.within_ite _ _ _ _ _ (Chip.within_refl _ _) rfl
  have hfresh : ∀ c : Chip, c.within c.freshId.2 [.muslin, .drc, .fresh] := fun _ => rfl
  refine Chip.within_foldl _ _ (fun c r => ?_) rs c
  exact Chip.within_ite _ _ _ _ _ (Chip.within_trans _ _ _ _ (hfresh c) (Chip.within_foldl _ _ (fun c p => hdram c _ _) _ _))
    (Chip.within_trans _ _ _ _ (hfresh c) (Chip.within_foldl _ _ (fun c p => hmuslin c _ _) _ _))

/-- A tile that failed leaves its destination bytes free, and nothing else. -/
theorem Chip.copyFail_within (c : Chip) (o : OpRun) (st : Nat) :
    c.within (c.copyFail o st).1 [.muslin, .host, .drc, .fresh] := by
  refine Chip.within_foldl _ _ (fun c i => ?_) _ c
  exact Chip.within_ite _ _ _ _ _ rfl (Chip.within_mono _ _ _ _ (c.invalidate_within _) rfl)

/-- A copy on unit `u` that the host does not answer. -/
def Chip.hostSilent (c : Chip) (u : Nat) (o : OpRun) : Chip :=
  (c.hostError { o with begun := true } 3).1.setOp u ({ o with begun := true }.ends St.HIF_HOST_ERROR)

/-- The parts that a silent host may reach. -/
def Parts.hostSilent : List Part := [.regs, .muslin, .host, .dsp, .msl, .drc, .sent, .fresh]

/-- The effect of HOST_COMPLETION_TIMEOUT on unit `u`. -/
def Chip.hostTimeout (c : Chip) (u : Nat) : Chip :=
  c.onOp u 9 1 (fun c o =>
    if readsHost o.raw && (o.begun || c.copyCheck o.raw == St.OK) then
      (c.hostError { o with begun := true } 3).1.setOp u (c.hostError { o with begun := true } 3).2
    else c)

theorem exec_hostCompletionTimeout (s : State) (port : Nat) :
    exec (.hostCompletionTimeout port) s = s.run Parts.hostSilent (fun c => c.hostTimeout (25 + port % 2)) := rfl

theorem Chip.hostTimeout_silent {c : Chip} {u : Nat} {o : OpRun} (ho : c.awaitsTile u o 9 1) (hread : readsHost o.raw = true)
    (hgood : o.begun = true ∨ c.copyCheck o.raw = St.OK) : c.hostTimeout u = c.hostSilent u o := by
  obtain ⟨-, hop, haw, -⟩ := ho
  have hwaits : (readsHost o.raw && (o.begun || c.copyCheck o.raw == St.OK)) = true := by
    rw [hread, Bool.true_and, Bool.or_eq_true, beq_iff_eq]
    exact hgood
  rw [Chip.hostTimeout, Chip.onOp, hop]
  exact (if_pos haw).trans (if_pos hwaits)

theorem Chip.hostSilent_within (c : Chip) (u : Nat) (o : OpRun) : c.within (c.hostSilent u o) Parts.hostSilent := by
  have herror : c.within (c.hostError { o with begun := true } 3).1 Parts.hostSilent := by
    rw [Chip.hostError_eq]
    exact Chip.within_step _ (Chip.within_mono _ _ _ _ (c.logHostError_within _ _) rfl) (Chip.copyFail_within _ _ _) rfl
  exact Chip.within_step [.dsp] herror rfl rfl

theorem Chip.rd_hostSilent (c : Chip) (u : Nat) (o : OpRun) (g : Field) (j : Nat) :
    (c.hostSilent u o).rd g j = (c.logHostError (hostWindow (copyPar o.raw).src) 3).rd g j := by
  have hregs : (c.hostSilent u o).regs = (c.hostError { o with begun := true } 3).1.regs := rfl
  rw [Chip.hostError_eq] at hregs
  exact Chip.rd_congr _ _ _ _ (hregs.trans (Chip.within_keeps _ _ _ (·.regs) (Chip.copyFail_within _ _ _)
    (Chip.only_regs_out _ _ _ rfl)))

theorem hostCompletionTimeout_answers {s : State} {port : Nat} {o : OpRun} (ho : s.chip.awaitsTile (25 + port % 2) o 9 1)
    (hread : readsHost o.raw = true) (hgood : o.begun = true ∨ s.chip.copyCheck o.raw = St.OK) :
    Answers s (.hostCompletionTimeout port) (fun d => s.chip.within d Parts.hostSilent ∧
      d.op? (25 + port % 2) = some ({ o with begun := true }.ends St.HIF_HOST_ERROR) ∧
      (∀ v, v ≠ 25 + port % 2 → d.op? v = s.chip.op? v) ∧ d.on R.HIF_STATUS_HOST_ERR = true ∧
      (s.chip.on R.HIF_HOST_ERR_LOG_VALID = false → d.rd R.HIF_HOST_ERR_LOG_KIND = 3 ∧
        d.rd R.HIF_HOST_ERR_LOG_WINDOW = hostWindow (copyPar o.raw).src)) := by
  have hwithin := s.chip.hostSilent_within (25 + port % 2) o
  obtain ⟨hset, hlog⟩ := s.chip.logHostError_spec (bits_lt (copyPar o.raw).src 28 8) (show 3 < 16 by decide)
  refine answers_run_chip ho.1 (exec_hostCompletionTimeout s port) (Chip.hostTimeout_silent ho hread hgood) hwithin
    ⟨hwithin, Chip.op_setOp_self _ _ _, fun v hv => ?_, ?_, fun hfirst => ?_⟩
  · exact (Chip.op_setOp_other _ _ _ _ hv).trans (Chip.op_congr _ _ _ (s.chip.hostError_dsp _ _))
  · rw [Chip.on, Chip.rd_hostSilent]
    exact hset
  · rw [Chip.rd_hostSilent, Chip.rd_hostSilent]
    exact hlog hfirst

/-! ## The statement -/

/-- Settles O42: every host command is a `TwillCommand` with its own effect; a known-answer run ends in its verdict
(`Chip.katVerdict`), and what a drain or a failed cluster sets off is dispatching and Gingham, which leave the service command, the
isolated islands and, while Gingham rests, the registers of Twill alone (`Chip.twlDrain_within`, `Chip.rd_gngFollow_idle`). -/
theorem twillService : Obligations.TwillService := by
  unfold Obligations.TwillService
  refine ⟨⟨?refused, ?started⟩, ⟨?remove, ?tested, ?replaced, ?drained⟩, ?pair, ?timeout⟩
  case refused =>
    rintro s k force auto hh _ rfl
    have hremove := twillCommand_remove k force auto
    have htest := twillCommand_test k
    have hreturn := twillCommand_return k
    have hactivate := twillCommand_activate k
    refine ⟨fun hbusy => ?busy, fun hidle => ⟨fun h => hremove.answers_wrongState hh hidle rfl h,
      fun h => ⟨htest.answers_wrongState hh hidle rfl h, hreturn.answers_wrongState hh hidle rfl h⟩,
      fun h => hactivate.answers_wrongState hh hidle rfl h, fun hk hst hfail => ?_, fun hk hst hduty hforce => ?_,
      fun hk hst hfree hlast => ?_⟩⟩
    case busy =>
      rintro i (rfl | rfl | rfl | rfl)
      · exact hremove.answers_busy hh hbusy rfl
      · exact htest.answers_busy hh hbusy rfl
      · exact hreturn.answers_busy hh hbusy rfl
      · exact hactivate.answers_busy hh hbusy rfl
    · exact hreturn.answers_refused hh hidle hk hst (if_neg (by rw [hfail]; exact Bool.false_ne_true)) (by decide) rfl
    · exact hremove.answers_refused hh hidle hk hst (Chip.removeCluster_onDuty hduty hforce) (by decide) rfl
    · have hnone : s.chip.otherServes k = false := Bool.eq_false_iff.mpr fun h => by
        obtain ⟨j, hj, hne, hactive, hfreej⟩ := (s.chip.otherServes_iff k).mp h
        rw [hlast j hj hne hactive] at hfreej
        cases hfreej
      exact hremove.answers_refused hh hidle hk hst (Chip.removeCluster_last hfree hnone) (by decide) rfl
  case started =>
    exact fun s k hh hk hidle => ⟨twlTest_answers hh hk hidle, twlActivate_answers hh hk hidle, twlReturn_answers hh hk hidle⟩
  case remove =>
    intro s k force auto hh hk hidle hactive hfree hother
    have hserves := (s.chip.otherServes_iff k).mpr hother
    exact ⟨fun j hj hauto => twlRemove_answers_spare hh hk hidle hactive hfree hserves hj hauto,
      twlRemove_answers_drain hh hk hidle hactive hfree hserves⟩
  case tested =>
    exact fun s k v ha hs ht hk _ hop => ⟨twlKatEnd_answers_passed ha hs ht hop, twlKatEnd_answers_failed ha hs ht hk hop⟩
  case replaced => exact fun s k v ha hs ht hk hop hc hne => twlKatEnd_answers_replaced ha hs ht hk hop hc hne
  case drained =>
    intro s v ha hs hop ht _ hst hidle hsuspended hchains
    have hwithin := s.chip.drained_within v
    have honly : (s.chip.drained v).only Parts.twlDrainDone s.chip = s.chip.drained v := hwithin
    exact ⟨_, (exec_twlDrainDone ha hs hop ht hst hidle hsuspended hchains).trans (by rw [honly]), hwithin, s.chip.drained_spec v⟩
  case pair =>
    rintro s w _ _ hh rfl rfl
    refine ⟨fun hoff ha hb hne hdomain hactA hactB hatu =>
      twlGngPairWrite_answers_taken hh ⟨hoff, ha, hb, hne, hdomain, hactA, hactB, hatu⟩, fun hbad =>
      twlGngPairWrite_answers_bad hh ?_⟩
    rintro ⟨hoff, ha, hb, hne, hdomain, hactA, hactB, hatu⟩
    obtain h | h | h | h | h | h | h | ⟨hon, h | h⟩ := hbad
    · rw [hoff] at h
      cases h
    · omega
    · omega
    · exact hne h
    · exact h hdomain
    · exact h hactA
    · exact h hactB
    · exact (hatu hon).1 h
    · exact (hatu hon).2 h
  case timeout => exact fun s port o ho hread hgood => hostCompletionTimeout_answers ho hread hgood

end Sys2Proof.Machine
